-- ==== Sys2Proof/Word.lean ====
section
/-! DEFINITION. The words of the YN8: bytes, the 32-bit register word, the 64-bit counter. -/

namespace Sys2Proof

/-- One byte. -/
abbrev Byte := BitVec 8

/-- Bytes in increasing address order (R5). -/
abbrev Bytes := List Byte

/-- A setup register, and one 32-bit lane of the vector engine. -/
abbrev Word := BitVec 32

/-- A 64-bit counter or 64-bit register pair. -/
abbrev DWord := BitVec 64

end Sys2Proof
end

