-- ==== Sys2Proof/Syntax.lean ====
section
/-! DEFINITION. The commands of the block, one constructor per row of spec/opcode_table.json.
A command is one step of spec/95_what_each_step_holds.md. Its operands name the thing the step is
about (a ring, a tile, a post) and carry what comes from outside the block (read data, packets,
sensor readings). -/

namespace Sys2Proof

/-- Data the block reads from outside (host or remote memory, R257, R282): the bytes, and the
numbers of the 64-byte lines that arrived with poison set (R310, R383). Assumption 107, DEDUCED. -/
structure Rd where
  data : Bytes
  poison : List Nat := []
  deriving DecidableEq, Repr

/-- What a MAC sees of one received frame (R273, R275, R276). -/
structure FrameInfo where
  /-- Its length in bytes, and whether it has a VLAN tag. -/
  size : Nat
  tagged : Bool
  fcsOk : Bool
  /-- Where it goes: MAC address, IP family and address, UDP port (0 for any other frame). -/
  destMac : Nat
  ipv6 : Bool
  destIp : Nat
  udpPort : Nat
  icrcOk : Bool
  qpn : Nat
  /-- Congestion experienced (R280). -/
  ce : Bool
  /-- A packet of a request, its PSN, and how many PSNs the request takes with it: for an RDMA READ those of its
  response, else 1 (R275). -/
  request : Bool
  psn : Nat
  span : Nat
  /-- FEC codewords of the frame, corrected and uncorrected (Table 13.6). -/
  fecCorrected : Nat
  fecUncorrected : Nat
  /-- The request uses an opcode or option R275 does not support. -/
  unsupported : Bool
  deriving DecidableEq, Repr

/-- A row of a table: its shard tile and local row number. -/
structure RowId where
  tile : Nat
  loc : Nat
  deriving DecidableEq, Repr

/-- The commands (spec/opcode_table.json, in the table's order). `ring` and `seq` name an accepted
command, `post` is a post's tag (see `Machine.cmdKey`). -/
inductive Instr where
  -- Commands of the rings (Table 10.9)
  | post (ring seq : Nat) (dir : Rd)
  | reamLoad (ring seq : Nat) (img : Rd)
  | reamPatch (ring seq : Nat) (img : Rd)
  | reamUnload (ring seq : Nat)
  | tableCommit (ring seq : Nat)
  | commitStepsDrained
  | keyInstall (ring seq : Nat) (blob : Rd)
  | keyUnwrapDone (slot : Nat)
  | keyErase (ring seq : Nat)
  | keyEraseFinish (slot : Nat)
  | keyQuery (ring seq : Nat)
  | shingleProfile (ring seq : Nat) (prof : Rd)
  | ingest (ring seq : Nat)
  | ingestDecryptDone (ring seq : Nat)
  | shingleDone (ring seq : Nat)
  | partAttach (ring seq : Nat)
  | partDetach (ring seq : Nat)
  | detachFinish (part : Nat)
  | ringSetup (ring seq : Nat) (img : Rd)
  | segSetupCreate (ring seq : Nat)
  | segSetupRemove (ring seq : Nat)
  | segSetupMap (ring seq : Nat)
  | segSetupUnmap (ring seq : Nat)
  | segmentDrainDone (part seg : Nat)
  | segSetupFaultArea (ring seq : Nat)
  | faultResumeResume (ring seq : Nat) (dirs : List (Nat × Rd))
  | faultResumeEnd (ring seq : Nat)
  | windowSetup (ring seq : Nat)
  | windowRemove (ring seq : Nat)
  | windowDrainDone (qp win : Nat)
  | partnerPairSender (ring seq : Nat)
  | partnerPairReceiver (ring seq : Nat)
  | partnerPairUnpair (ring seq : Nat)
  | checkpoint (ring seq : Nat)
  | restore (ring seq : Nat) (replica : List Bytes)
  -- Partitions, rings, doorbells (chapter 10)
  | attach (part : Nat)
  | ringEnable (ring : Nat)
  | ringDisable (ring : Nat)
  | ringDrainDone (ring : Nat)
  | ringServeTurn (ring : Nat)
  | descriptorReadData (ring : Nat) (descs : List Rd)
  | descriptorRereadTimer (ring : Nat)
  | armWriteAccepted (ring : Nat)
  | doorbellRereadData (ring : Nat) (line : Bytes)
  | hostSnoop (addr : Nat) (invalidating : Bool)
  | doorbellWindowWrite (qp off : Nat) (data : Bytes)
  | translationWalkDone (ring seq : Nat) (mapPoison : Bool) (dir : Rd)
  | faultRecordAccepted (part : Nat)
  -- Posts, the sweep and its boundaries (chapters 2, 9, 14, 15)
  | stagingStart (ring seq : Nat)
  | beaterBlockDecode (ring seq : Nat) (block : Bytes)
  | inputStagingDone (ring seq : Nat) (body : Rd)
  | admissionSlotOpen
  | sweepBoundary
  | intervalBoundary
  | calenderSliceEnd (tile : Nat) (crc : Word)
  | stageMoveSourceRelease
  -- The tile (chapters 3, 5)
  | fill (tile ctx : Nat)
  | weightLoadDone (tile : Nat)
  | fillStart (tile : Nat)
  | fillComplete (tile : Nat)
  | stream (tile : Nat) (word : Bytes)
  | deckle (tile ctx : Nat)
  | endOp (tile ctx : Nat)
  | endComplete (tile ctx : Nat)
  | wait (tile ctx : Nat)
  | add (tile ctx : Nat)
  | sub (tile ctx : Nat)
  | mul (tile ctx : Nat)
  | max (tile ctx : Nat)
  | min (tile ctx : Nat)
  | affine (tile ctx : Nat)
  | cmp (tile ctx : Nat)
  | select (tile ctx : Nat)
  | unary (tile ctx : Nat)
  | func (tile ctx : Nat)
  | convert (tile ctx : Nat)
  | quant (tile ctx : Nat)
  | rescale (tile ctx : Nat)
  | rotate (tile ctx : Nat)
  | reduceRow (tile ctx : Nat)
  | reduceCol (tile ctx : Nat)
  | vectorInstructionDone (tile : Nat)
  | fetch (tile ctx : Nat)
  | put (tile ctx : Nat)
  /-- `cls` is the transfer's class queue (Table 3.10). -/
  | fetchComplete (tile cls : Nat) (data : Rd)
  | putComplete (tile cls : Nat)
  /-- `src` is the tile the arrival comes from. -/
  | feltArrival (tile src : Nat)
  -- Lookups and updates (chapters 6, 7)
  | dispatch (tile ctx : Nat)
  | combine (tile ctx : Nat)
  | gradDispatch (tile ctx : Nat)
  | gatherEntryArrival (tile src : Nat)
  | gatherEndMarkerArrival (tile src : Nat)
  | gatherRowReadDone (tile post table loc : Nat)
  | partialArrival (tile src : Nat)
  | combineEndMarkerArrival (tile src : Nat)
  | overMarkerArrival (tile src : Nat)
  | updateStepStart (tile post table : Nat)
  | gradientArrival (tile src : Nat)
  | updateEndMarkerArrival (tile src : Nat)
  | commitRun
  | updateWritesDone (post : Nat)
  | escCountReport (tile : Nat)
  -- Completions and timeouts (chapter 10)
  | completionRecordWrite (ring : Nat)
  | completionRecordAccepted (ring : Nat)
  | ringTimeout (ring seq : Nat)
  -- Migration, vault, partner, memory upkeep (chapters 7, 8, 15)
  | migrationPromote (tile table loc place : Nat)
  | migrationDemote (tile table loc : Nat)
  | migrationCopyDone (tile table loc : Nat)
  | migrationCatchUpDone (tile table loc : Nat)
  | migrationRelease (tile table loc : Nat)
  /-- `value` is the word written to MIG_CTRL. -/
  | migCtrlEnableClear (value : Word)
  | staleRowWriteBack (tile table loc : Nat)
  | vaultRowsAppend (table : Nat) (rows : List RowId)
  | vaultAppendDurable
  | stateRecordTimer
  | partnerRecordWrite
  | partnerRecordArrival (record : Bytes)
  | partnerAckReceive (step lsn intakeFree : Nat)
  | partnerHelloReceive (serial feed boot lsn : Nat)
  | partnerHelloTimeout
  | partnerStall
  | partnerRestoreRequest (serial : Nat)
  | t0CorrectedWriteBack (tile : Nat)
  /-- `overran`: the pass did not finish within its period; `bad`: (tile, sheet) found uncorrectable. -/
  | t0ScrubPass (overran : Bool) (bad : List (Nat × Nat))
  /-- `bad`: (controller, stripe) with a nonzero syndrome. -/
  | t1ScrubPass (overran : Bool) (bad : List (Nat × Nat))
  | t1PackageLost (ctrl pkg : Nat)
  | poisonRepair (tile table loc : Nat)
  | reamLineReload (tile : Nat)
  /-- `dir`: 0 C to P, 1 P to C. -/
  | d2dFlitReplay (dir : Nat)
  | d2dRetrain
  -- Watchdogs and resets (chapter 15)
  | watchdogTimeoutEnd (post : Nat)
  | watchdogContext (tile ctx : Nat)
  | watchdogGather (tile post : Nat)
  | watchdogAdmit
  | watchdogMalformed (tile ctx : Nat)
  | watchdogFrontEnd
  | watchdogCore (core : Nat)
  | devReset (value : Word)
  | coldReset (value : Word)
  | bootFallback
  | partReset (value : Word)
  | partResetFinish (part : Nat)
  -- Module, power and cooling (chapter 17)
  | inputApplied
  | standbyEntry (feed addrSel : Nat)
  /-- Input voltage in 10 mV, current in 10 mA. -/
  | inputPowerSample (vin iin : Nat)
  | flushEndDurable
  | safeInputStable
  | bankDischarged
  /-- `us`: how long the pin has been low, in microseconds. -/
  | modResetLow (us : Nat)
  | modResetRelease
  | hardwareTrip
  | dramSensorReading (group die temp : Nat)
  /-- `kind`: 0 C-die (one per tile), 1 P-die, 2 regulator. -/
  | junctionSensorReading (kind index temp : Nat)
  /-- Inlet and outlet in degrees, flow in 0.1 L/min. -/
  | coolantSensorReading (inlet outlet flow : Nat)
  | coolDemandUpdate
  | powerComparison (pAvg : Nat)
  | wakeRampDone
  | tileGroupUsable (group : Nat)
  /-- Bank voltage in 10 mV, bank temperature in degrees. -/
  | bankEstimate (volts temp : Nat)
  | bankChargeTimeout
  | bankHealthTestTimer
  /-- Measured capacitance in mF and ESR in milliohms. -/
  | bankHealthTestDone (capMf esrMohm : Nat)
  | bankTest (value : Word)
  /-- `cause`: a flush cause recorded in the same cycle of the standby clock, 0 none. -/
  | flushClear (value : Word) (cause : Nat)
  | pwrCap (value : Word)
  | slew (value : Word)
  /-- `addr`: the register that holds the block's LOCK bit (Table 18.2). -/
  | lock (addr : Nat) (value : Word)
  -- The host port (chapter 12)
  | hostPortReset
  | linkRecovery (speed width : Nat)
  | hostLinkL0 (speed width : Nat) (cxl : Bool)
  | goResponse (id : Nat)
  | cxlMemRead (addr : Nat)
  | cxlMemWrite (addr : Nat) (data : Bytes) (poison : Bool)
  | bisnpResponse (line : Nat)
  | msixUnmask (vec : Nat)
  | barBadAccess (write : Bool)
  -- The network (chapter 13)
  | portEnable (port : Nat)
  | portDisable (port : Nat)
  | portLinkUp (port : Nat)
  | linkDown (port : Nat)
  | qpConnect
  | qpReset
  | frameReceive (port : Nat) (info : FrameInfo)
  | rdmaWriteReceive (qp rkey addr : Nat) (data : Bytes)
  | rdmaReadRequestReceive (qp rkey addr len : Nat)
  | rdmaReadResponseReceive (qp msg : Nat) (data : Rd)
  | sendReceive (qp : Nat) (data : Bytes)
  /-- Every PSN up to `psn` is acknowledged. -/
  | ackReceive (qp psn : Nat)
  /-- `kind`: 0 PSN sequence error, 1 RNR, 2 and above fatal; the PSN it names. -/
  | nakReceive (qp kind psn : Nat)
  | cnpReceive (qp : Nat)
  | ackTimeout (qp : Nat)
  | rnrRetryTimer (qp : Nat)
  | ccPeriod (qp : Nat)
  | packetSendTurn (port : Nat)
  -- Events, telemetry, registers (chapters 14, 18)
  | coalesceTimerExpiry (src : Nat)
  | evtAck (value : Word)
  | trigger (value : Word)
  | timePairComplete
  | cntSel (value : Word)
  | cntLo
  | lowWordRead (addr : Nat)
  | rcRead (addr : Nat)
  | registerWrite (addr : Nat) (value : Word)
  -- The security processor's mailbox (chapter 16)
  | getInfo
  | getCert
  | getLog
  | quote
  | fwStage (img : Rd)
  | fwCommit
  | fwAbandon
  | packInstall (img : Rd)
  -- The debug block (chapter 18)
  | dbgEnter
  | dbgLeave
  | dbgRun
  | dbgHalt
  | dbgStreamKeySet (lo : Word)
  | dbgInterleaveKeySet (lo : Word)
  | dbgPeekRead
  | dbgPeekWrite
  | peekCopyDone
  -- The management interface (chapter 17)
  | setEndpointId (eid : Nat)
  | getEndpointId
  | getEndpointUuid
  | getMctpVersionSupport
  | getMessageTypeSupport
  | getTid
  | setTid (tid : Nat)
  | getPldmVersion (type : Nat)
  | getPldmTypes
  | getPldmCommands (type : Nat)
  | getPdrRepositoryInfo
  | getPdr (handle : Nat)
  | getSensorReading (id : Nat)
  | getStateSensorReadings (id : Nat)
  | setNumericEffecterValue (id value : Nat)
  | getNumericEffecterValue (id : Nat)
  | setEventReceiver (eid : Nat)
  | pollForPlatformEventMessage
  | reamLoadCopyDone
  | vaultBlockErase (retired : Bool)
  | perstNRelease
  | mailboxCommandDone
  deriving DecidableEq, Repr

end Sys2Proof
end

