-- ==== Sys2Proof/Decode.lean ====
section
/-! DEFINITION. Decoding a word of the opcode table. The table gives no row any bits: the commands
of this block are events, not words, so no word spells one. -/

namespace Sys2Proof

/-- The command a word spells by the table's bits: no row has bits. -/
def decodeTableWord (_nbits _w : Nat) : Option Instr := none

end Sys2Proof
end

