-- ==== Sys2Proof/Machine/Bits.lean ====
section
/-! DEFINITION. Little-endian fields (R5), bit fields, CRC-32C (R8) and the mixing rounds of R102. -/

namespace Sys2Proof.Machine

/-- The number a run of bytes holds, least significant byte first (R5). -/
def leNat : Bytes → Nat
  | [] => 0
  | b :: bs => b.toNat + 256 * leNat bs

/-- `k` bytes holding `n`, least significant byte first (R5). -/
def natLe : Nat → Nat → Bytes
  | 0, _ => []
  | k + 1, n => BitVec.ofNat 8 n :: natLe k (n / 256)

/-- The field of `len` bytes at byte `off` of a record. -/
def fld (b : Bytes) (off len : Nat) : Nat := leNat ((b.drop off).take len)

/-- Bits [hi:lo] of a number. -/
def bitsOf (n hi lo : Nat) : Nat := (n >>> lo) % 2 ^ (hi + 1 - lo)

/-- Bit `i` of a number. -/
def bitAt (n i : Nat) : Bool := n.testBit i

/-- A Boolean as the number 0 or 1. -/
def b2n (b : Bool) : Nat := if b then 1 else 0

/-- Quotient rounded up. -/
def cdiv (a b : Nat) : Nat := (a + b - 1) / b

/-- The next multiple of 256 at or above `n`: the first sheet boundary (R131, R229). -/
def sheetUp (n : Nat) : Nat := 256 * cdiv n 256

/-- A byte as a Boolean: every byte of a reserved range is 0. -/
def allZero (b : Bytes) : Bool := b.all (· == 0)

/-- Bytes `off` to `off + len - 1` are all zero. -/
def zeroAt (b : Bytes) (off len : Nat) : Bool := allZero ((b.drop off).take len)

/-- Overwrite the bytes of `b` from `off` on with `v`, keeping its length. -/
def patchBytes (b : Bytes) (off : Nat) (v : Bytes) : Bytes :=
  b.take off ++ v ++ b.drop (off + v.length)

/-- Zero bytes. -/
def zeros (n : Nat) : Bytes := List.replicate n 0

/-- The smallest power of two at or above `n`, as its exponent. -/
def log2Up (n : Nat) : Nat := if n ≤ 1 then 0 else Nat.log2 (n - 1) + 1

/-- Exact base-2 logarithm of a power of two. -/
def isPow2 (n : Nat) : Bool := n != 0 && 2 ^ Nat.log2 n == n

/-- Number of set bits among the lowest `k`. -/
def popCount : Nat → Nat → Nat
  | 0, _ => 0
  | k + 1, n => b2n (n.testBit k) + popCount k n

/-- The set bits among the lowest `k`, in increasing order. -/
def bitList (k n : Nat) : List Nat := (List.range k).filter n.testBit

/-- The exclusive or of the lowest `k` bits. -/
def parity (k n : Nat) : Bool := popCount k n % 2 == 1

/-- One bit of the reflected CRC-32C division (Table 0.4). -/
def crcBit (c : Word) : Word :=
  if c.getLsbD 0 then (c >>> 1) ^^^ 0x82F63B78#32 else c >>> 1

/-- One byte of CRC-32C. -/
def crcByte (c : Word) (b : Byte) : Word :=
  crcBit (crcBit (crcBit (crcBit (crcBit (crcBit (crcBit (crcBit (c ^^^ b.setWidth 32))))))))

/-- CRC-32C over bytes in increasing address order (R8, Table 0.4). -/
def crc32c (b : Bytes) : Word := (b.foldl crcByte 0xFFFFFFFF#32) ^^^ 0xFFFFFFFF#32

/-- The record's CRC-32C field at `off` matches the bytes before it. -/
def crcOkAt (b : Bytes) (off : Nat) : Bool :=
  (crc32c (b.take off)).toNat == fld b off 4

/-- A record followed by its CRC-32C (R5, R8). -/
def withCrc (b : Bytes) : Bytes := b ++ natLe 4 (crc32c b).toNat

/-- One mixing round of R102. -/
def mixRound (x : DWord) : DWord :=
  let x := x ^^^ (x >>> 31)
  let x := x * 0xA5C31E6BD24F9871#64
  let x := x ^^^ (x >>> 29)
  x * 0x6C8E9CF57B3D2A45#64

/-- The two mixing rounds of R102, shared by R129 and R205. -/
def mix (x : DWord) : DWord := mixRound (mixRound x)

/-- Draw `i` of stream `t` under key `k` (R102). -/
def draw (k : DWord) (t i : Nat) : Nat :=
  (mix ((BitVec.ofNat 64 (t <<< 60 ||| i)) ^^^ k) >>> 32).toNat

/-- `row_hash` of R129. -/
def rowHash (i : Nat) (key : DWord) (rows : Nat) : Nat :=
  ((mix (BitVec.ofNat 64 i ^^^ key) >>> 24).toNat * rows) >>> 40

/-- The bytes as 64-byte lines, first line first. -/
def chunks (n : Nat) : Nat → Bytes → List Bytes
  | 0, _ => []
  | k + 1, b => b.take n :: chunks n k (b.drop n)

end Sys2Proof.Machine
end

