-- ==== Sys2Proof/Machine/Fp.lean ====
section
/-! DEFINITION. Exact floating-point arithmetic: decoded values, rounding to nearest even and
stochastic rounding, and the binary32 operations of R97. -/

namespace Sys2Proof.Machine

/-- A decoded element: a NaN, an infinity, or (-1)^neg * m * 2^e (Table 4.3). -/
inductive FVal where
  | nan
  | inf (neg : Bool)
  | fin (neg : Bool) (m : Nat) (e : Int)
  deriving DecidableEq, Repr

/-- A narrow floating format: significand bits with the hidden one, exponent of the smallest
subnormal, and the largest finite value maxM * 2^maxE. -/
structure FFmt where
  p : Nat
  eMin : Int
  maxM : Nat
  maxE : Int
  deriving DecidableEq, Repr

/-- binary32 (IEEE 754, R97). -/
def fmt32 : FFmt := ⟨24, -149, 2 ^ 24 - 1, 104⟩
/-- BF16: bits [31:16] of a binary32 (Table 4.3). -/
def fmtBf16 : FFmt := ⟨8, -133, 2 ^ 8 - 1, 120⟩
/-- FP8 E4M3: largest finite 448 (Table 4.3). -/
def fmtE4M3 : FFmt := ⟨4, -9, 14, 5⟩
/-- FP8 E5M2: largest finite 57,344 (Table 4.3). -/
def fmtE5M2 : FFmt := ⟨3, -16, 7, 13⟩
/-- FP4 E2M1: largest finite 6 (Table 4.3). -/
def fmtE2M1 : FFmt := ⟨2, -1, 3, 1⟩

/-- Multiply by a power of two whose exponent is not negative. -/
def shl (m : Nat) (k : Int) : Nat := m * 2 ^ k.toNat

/-- The place of the last kept bit when `m * 2^e` is brought into a format. -/
def lastPlace (f : FFmt) (m : Nat) (e : Int) : Int :=
  let l := e + (Nat.log2 m + 1 : Nat) - f.p
  if l < f.eMin then f.eMin else l

/-- The magnitude m * 2^e cut to the format's grid: quotient, remainder and the number of bits cut. -/
def cutTo (f : FFmt) (m : Nat) (e : Int) : Nat × Nat × Nat × Int :=
  let le := lastPlace f m e
  if le ≤ e then (shl m (e - le), 0, 0, le)
  else
    let k := (le - e).toNat
    (m / 2 ^ k, m % 2 ^ k, k, le)

/-- Round to nearest even on the format's grid with an unbounded exponent. -/
def roundRne (f : FFmt) (m : Nat) (e : Int) : Nat × Int :=
  let (q, r, k, le) := cutTo f m e
  let up := k != 0 && (r > 2 ^ (k - 1) || (r == 2 ^ (k - 1) && q % 2 == 1))
  (q + b2n up, le)

/-- Stochastic rounding on the format's grid (R104): up when the draw is below D. -/
def roundSr (f : FFmt) (neg : Bool) (m : Nat) (e : Int) (dr : Nat) : Nat × Int :=
  let (q, r, k, le) := cutTo f m e
  if r == 0 then (q, le)
  else if neg then
    -- lo is -(q+1), hi is -q
    (if dr < ((2 ^ k - r) * 2 ^ 32) / 2 ^ k then q else q + 1, le)
  else (if dr < (r * 2 ^ 32) / 2 ^ k then q + 1 else q, le)

/-- m1 * 2^e1 is above m2 * 2^e2. -/
def magGt (m1 : Nat) (e1 : Int) (m2 : Nat) (e2 : Int) : Bool :=
  let e := if e1 < e2 then e1 else e2
  shl m1 (e1 - e) > shl m2 (e2 - e)

/-- The code of a magnitude q * 2^le of a format's grid, at most the largest finite value. -/
def magCode (f : FFmt) (q : Nat) (le : Int) : Nat :=
  let (q, le) := if q = 2 ^ f.p then (2 ^ (f.p - 1), le + 1) else (q, le)
  if q < 2 ^ (f.p - 1) then q
  else (le - f.eMin + 1).toNat * 2 ^ (f.p - 1) + (q - 2 ^ (f.p - 1))

/-- The value of a code's exponent and significand field (subnormals at exponent 0). -/
def codeMag (f : FFmt) (expF manF : Nat) : Nat × Int :=
  if expF = 0 then (manF, f.eMin) else (2 ^ (f.p - 1) + manF, f.eMin + expF - 1)

/-- The only NaN result of the machine (R93, R97). -/
def qnan : Word := 0x7FC00000#32

/-- An infinity of a sign, as binary32. -/
def inf32 (neg : Bool) : Word := if neg then 0xFF800000#32 else 0x7F800000#32

/-- Decode a binary32. -/
def dec32 (x : Word) : FVal :=
  let n := x.toNat
  let ef := bitsOf n 30 23
  let mf := bitsOf n 22 0
  let s := n.testBit 31
  if ef = 255 then (if mf = 0 then .inf s else .nan)
  else let (m, e) := codeMag fmt32 ef mf; .fin s m e

/-- Round an exact value to binary32 by RNE; overflow gives the infinity of its sign (R93, R97). -/
def to32 (neg : Bool) (m : Nat) (e : Int) : Word :=
  if m = 0 then (if neg then 0x80000000#32 else 0#32)
  else
    let (q, le) := roundRne fmt32 m e
    if magGt q le fmt32.maxM fmt32.maxE then inf32 neg
    else BitVec.ofNat 32 (b2n neg * 2 ^ 31 + magCode fmt32 q le)

/-- Encode a decoded value as binary32. -/
def enc32 : FVal → Word
  | .nan => qnan
  | .inf s => inf32 s
  | .fin s m e => to32 s m e

/-- The signed significand of a finite value at exponent `e0` at or below its own. -/
def signedAt (neg : Bool) (m : Nat) (e e0 : Int) : Int :=
  let v : Int := shl m (e - e0)
  if neg then -v else v

/-- The exact sum of two finite values. An exact zero is +0 unless both are -0 (IEEE 754 RNE). -/
def addFin (s1 : Bool) (m1 : Nat) (e1 : Int) (s2 : Bool) (m2 : Nat) (e2 : Int) : FVal :=
  let e := if e1 < e2 then e1 else e2
  let v := signedAt s1 m1 e1 e + signedAt s2 m2 e2 e
  if v = 0 then .fin (s1 && s2 && m1 == 0 && m2 == 0) 0 e
  else .fin (v < 0) v.natAbs e

/-- The exact product of two values, with the special cases of R93 and R97. -/
def mulVal : FVal → FVal → FVal
  | .nan, _ => .nan
  | _, .nan => .nan
  | .inf s, .inf t => .inf (s != t)
  | .inf s, .fin t m _ => if m = 0 then .nan else .inf (s != t)
  | .fin t m _, .inf s => if m = 0 then .nan else .inf (s != t)
  | .fin s m e, .fin t k d => .fin (s != t) (m * k) (e + d)

/-- The exact sum of two values. -/
def addVal : FVal → FVal → FVal
  | .nan, _ => .nan
  | _, .nan => .nan
  | .inf s, .inf t => if s = t then .inf s else .nan
  | .inf s, .fin .. => .inf s
  | .fin .., .inf s => .inf s
  | .fin s m e, .fin t k d => addFin s m e t k d

/-- binary32 addition (R97). -/
def fadd (a b : Word) : Word := enc32 (addVal (dec32 a) (dec32 b))

/-- The sign bit flipped. -/
def fneg (a : Word) : Word := a ^^^ 0x80000000#32

/-- binary32 subtraction. -/
def fsub (a b : Word) : Word := fadd a (fneg b)

/-- binary32 multiplication. -/
def fmul (a b : Word) : Word := enc32 (mulVal (dec32 a) (dec32 b))

/-- binary32 fused multiply-add a * b + c with one rounding. -/
def ffma (a b c : Word) : Word := enc32 (addVal (mulVal (dec32 a) (dec32 b)) (dec32 c))

/-- A nonzero quotient with enough bits to round correctly, its last bit sticky. -/
def divFin (m1 : Nat) (e1 : Int) (m2 : Nat) (e2 : Int) : Nat × Int :=
  let k := 30 + (Nat.log2 m2 + 1)
  let n := m1 * 2 ^ k
  (2 * (n / m2) + b2n (n % m2 != 0), e1 - e2 - (k : Int) - 1)

/-- binary32 division. -/
def fdiv (a b : Word) : Word :=
  match dec32 a, dec32 b with
  | .nan, _ => qnan
  | _, .nan => qnan
  | .inf _, .inf _ => qnan
  | .inf s, .fin t _ _ => inf32 (s != t)
  | .fin s _ _, .inf t => to32 (s != t) 0 0
  | .fin s m e, .fin t k d =>
    if k = 0 then (if m = 0 then qnan else inf32 (s != t))
    else let (q, le) := divFin m e k d; to32 (s != t) q le

/-- Integer square root, one result bit per unit of fuel. -/
def isqrt : Nat → Nat → Nat → Nat
  | 0, _, r => r
  | k + 1, n, r => if (r + 2 ^ k) * (r + 2 ^ k) ≤ n then isqrt k n (r + 2 ^ k) else isqrt k n r

/-- binary32 square root, correctly rounded (R155). -/
def fsqrt (a : Word) : Word :=
  match dec32 a with
  | .nan => qnan
  | .inf s => if s then qnan else inf32 false
  | .fin s m e =>
    if m = 0 then to32 s 0 0
    else if s then qnan
    else
      let (m, e) := if e % 2 = 0 then (m, e) else (2 * m, e - 1)
      let n := m * 2 ^ 64
      let r := isqrt 48 n 0
      to32 false (2 * r + b2n (r * r != n)) (e / 2 - 32 - 1)

/-- The value is a NaN. -/
def isNan (a : Word) : Bool := dec32 a == .nan

/-- The value is finite. -/
def isFin (a : Word) : Bool := match dec32 a with | .fin .. => true | _ => false

/-- a < b in binary32; false when either is NaN. -/
def flt (a b : Word) : Bool :=
  match dec32 a, dec32 b with
  | .nan, _ => false
  | _, .nan => false
  | .inf s, .inf t => s && !t
  | .inf s, .fin .. => s
  | .fin .., .inf t => !t
  | .fin s m e, .fin t k d =>
    let e0 := if e < d then e else d
    decide (signedAt s m e e0 < signedAt t k d e0)

/-- a = b in binary32 (zeros of both signs are equal; a NaN equals nothing). -/
def feq (a b : Word) : Bool := !isNan a && !isNan b && !flt a b && !flt b a

/-- An integer rounded to binary32 by RNE (INT32 inputs, R119). -/
def ofInt32 (i : Int) : Word := to32 (i < 0) i.natAbs 0

/-- 1.0 in binary32. -/
def one32 : Word := 0x3F800000#32

/-- A value rounded to an integer, RNE or SR: its magnitude. -/
def roundMag (sr : Bool) (neg : Bool) (m : Nat) (e : Int) (dr : Nat) : Nat :=
  if 0 ≤ e then shl m e
  else
    let k := (-e).toNat
    let q := m / 2 ^ k
    let r := m % 2 ^ k
    if r = 0 then q
    else if sr then
      if neg then (if dr < ((2 ^ k - r) * 2 ^ 32) / 2 ^ k then q else q + 1)
      else (if dr < (r * 2 ^ 32) / 2 ^ k then q + 1 else q)
    else q + b2n (r > 2 ^ (k - 1) || (r == 2 ^ (k - 1) && q % 2 == 1))

/-- A value rounded down to the BF16 grid, as a value (Table 4.7, ROW_INT2 offset). -/
def bf16Down (v : Word) : Word :=
  match dec32 v with
  | .fin s m e =>
    let (q, r, _, le) := cutTo fmtBf16 m e
    enc32 (.fin s (q + b2n (s && r != 0)) le)
  | _ => v

end Sys2Proof.Machine
end

