-- ==== Sys2Proof/Machine/Formats.lean ====
section
/-! DEFINITION. Number formats (chapter 4): format codes, element decoding, conversion into narrow
formats, MX blocks, rotation, rescale, the array's segment arithmetic and embedding rows. -/

namespace Sys2Proof.Machine

/-- A signed number from a two's-complement field of `w` bits. -/
def sgn (w n : Nat) : Int := if n < 2 ^ (w - 1) then n else (n : Int) - 2 ^ w

/-- A two's-complement field of `w` bits. -/
def unsgn (w : Nat) (i : Int) : Nat := (i % (2 ^ w : Nat)).toNat

/-- Clamp into a range. -/
def clampI (lo hi x : Int) : Int := if x < lo then lo else if x > hi then hi else x

/-- Lowest and highest INT32. -/
def i32lo : Int := -2147483648
def i32hi : Int := 2147483647

/-- Saturating INT32 value, and whether it saturated. -/
def sat32 (x : Int) : Int × Bool := (clampI i32lo i32hi x, x < i32lo || x > i32hi)

/-- An INT32 lane as a word. -/
def wordOfInt (i : Int) : Word := BitVec.ofNat 32 (unsgn 32 i)

/-- A word as INT32. -/
def intOfWord (w : Word) : Int := sgn 32 w.toNat

/-! ### Format codes (Table 4.1) -/

/-- Width of an element in bits; 0 for a code that is no array or vector format. -/
def fmtWidth (c : Nat) : Nat :=
  if c = 0x01 || c = 0x02 || c = 0x03 || c = 0x08 then 4
  else if c = 0x00 || (0x04 ≤ c && c ≤ 0x07) || c = 0x09 then 8
  else if c = 0x0A then 16
  else if c = 0x0B || c = 0x0C then 32
  else 0

/-- The MX formats, whose E8M0 scale is required. -/
def isMx (c : Nat) : Bool := 6 ≤ c && c ≤ 9

/-- The integer formats of the vector engine. -/
def isIntFmt (c : Nat) : Bool := c = 0x00 || c = 0x01 || c = 0x0C

/-- The formats a vector view may carry (R119: TERN_I and TERN_M are none). -/
def isVecFmt (c : Nat) : Bool := c ≤ 0x0C && c != 0x02 && c != 0x03

/-- The activation formats of the array. -/
def isArrayA (c : Nat) : Bool := c = 0x00 || c = 0x01 || (4 ≤ c && c ≤ 0x0A)

/-- The weight formats of the array. -/
def isArrayW (c : Nat) : Bool := c ≤ 0x0A

/-- The embedding row formats (codes 0x20 to 0x24). -/
def isRowFmt (c : Nat) : Bool := 0x20 ≤ c && c ≤ 0x24

/-! ### Element decoding (Table 4.3) -/

def decE4M3 (n : Nat) : FVal :=
  if bitsOf n 6 0 = 0x7F then .nan
  else let (m, e) := codeMag fmtE4M3 (bitsOf n 6 3) (bitsOf n 2 0); .fin (n.testBit 7) m e

def decE5M2 (n : Nat) : FVal :=
  if bitsOf n 6 2 = 31 then (if bitsOf n 1 0 = 0 then .inf (n.testBit 7) else .nan)
  else let (m, e) := codeMag fmtE5M2 (bitsOf n 6 2) (bitsOf n 1 0); .fin (n.testBit 7) m e

def decE2M1 (n : Nat) : FVal :=
  let (m, e) := codeMag fmtE2M1 (bitsOf n 2 1) (bitsOf n 0 0); .fin (n.testBit 3) m e

def decInt (w n : Nat) : FVal := let i := sgn w n; .fin (i < 0) i.natAbs 0

def decBf16 (n : Nat) : FVal := dec32 (BitVec.ofNat 32 (n * 65536))

/-- Decode the element field `n` of format `c`. -/
def decElem (c n : Nat) : FVal :=
  if c = 0x00 then decInt 8 n
  else if c = 0x01 || c = 0x02 || c = 0x03 then decInt 4 n
  else if c = 0x04 || c = 0x06 then decE4M3 n
  else if c = 0x05 || c = 0x07 then decE5M2 n
  else if c = 0x08 then decE2M1 n
  else if c = 0x09 then (let i := sgn 8 n; .fin (i < 0) i.natAbs (-6))
  else if c = 0x0A then decBf16 n
  else if c = 0x0B then dec32 (BitVec.ofNat 32 n)
  else decInt 32 n

/-- Field `i` of a packed run of elements of `w` bits (R105). -/
def elemField (w : Nat) (b : Bytes) (i : Nat) : Nat :=
  if w = 2 then bitsOf (b.getD (i / 4) 0).toNat (2 * (i % 4) + 1) (2 * (i % 4))
  else if w = 4 then bitsOf (b.getD (i / 2) 0).toNat (4 * (i % 2) + 3) (4 * (i % 2))
  else fld b (i * (w / 8)) (w / 8)

/-- An E8M0 scale as an exponent; none for NaN. -/
def e8m0 (x : Nat) : Option Int := if x = 0xFF then none else some ((x : Int) - 127)

/-- A value times a power of two. -/
def scaleVal (v : FVal) (k : Int) : FVal :=
  match v with
  | .fin s m e => .fin s m (e + k)
  | _ => v

/-- A decoded element under its block's E8M0 scale (Table 4.3). -/
def scaled (v : FVal) (x : Nat) : FVal :=
  match e8m0 x with
  | none => .nan
  | some k => scaleVal v k

/-! ### Conversion from FP32 (Table 4.5): code and whether it is a saturation event -/

/-- The saturating code of a floating target, without its sign. -/
def satCode (f : FFmt) : Nat := magCode f f.maxM f.maxE

/-- Convert into a narrow floating format: `infCode` is what a value beyond the largest finite one
becomes, `infIn` what an infinity becomes, `nanC` the NaN. `cnt` marks saturations as counted. -/
def convFloat (f : FFmt) (signBit exceeded infIn nanC : Nat) (cnt sr : Bool) (v : FVal) (dr : Nat) :
    Nat × Bool :=
  match v with
  | .nan => (nanC, cnt)
  | .inf s => (b2n s * 2 ^ signBit + infIn, cnt)
  | .fin s m e =>
    let base := b2n s * 2 ^ signBit
    if m = 0 then (base, false)
    else
      let (q, le) := if sr then roundSr f s m e dr else roundRne f m e
      if q != 0 && magGt q le f.maxM f.maxE then (base + exceeded, cnt)
      else (base + magCode f q le, false)

/-- Convert into an integer clamped to [lo, hi]; NaN becomes 0. All clamps are counted. -/
def convInt (w : Nat) (lo hi : Int) (sr : Bool) (v : FVal) (dr : Nat) : Nat × Bool :=
  match v with
  | .nan => (0, true)
  | .inf s => (unsgn w (if s then lo else hi), true)
  | .fin s m e =>
    let r : Int := roundMag sr s m e dr
    let i := if s then -r else r
    (unsgn w (clampI lo hi i), i < lo || i > hi)

/-- FP32 value into format `c` without a block (Table 4.5), scale 1 for integers. -/
def convElem (c : Nat) (sr : Bool) (v : FVal) (dr : Nat) : Nat × Bool :=
  if c = 0x0A then convFloat fmtBf16 15 0x7F80 0x7F80 0x7FC0 false sr v dr
  else if c = 0x04 || c = 0x06 || c = 0x20 then convFloat fmtE4M3 7 0x7E 0x7E 0x7F true sr v dr
  else if c = 0x05 || c = 0x07 then convFloat fmtE5M2 7 0x7B 0x7C 0x7F true sr v dr
  else if c = 0x08 || c = 0x22 then convFloat fmtE2M1 3 0x7 0x7 0x7 true sr v dr
  else if c = 0x09 then convInt 8 (-127) 127 sr (scaleVal v 6) dr
  else if c = 0x00 || c = 0x21 then convInt 8 (-127) 127 sr v dr
  else if c = 0x01 || c = 0x23 then convInt 4 (-7) 7 sr v dr
  else if c = 0x0C then convInt 32 i32lo i32hi sr v dr
  else ((enc32 v).toNat, false)

/-! ### MX blocks (R98) -/

/-- Exponent of the top binade: floor of log2 of a nonzero magnitude. -/
def floorLog (m : Nat) (e : Int) : Int := e + (Nat.log2 m : Nat)

/-- The E of R98. -/
def mxE (c : Nat) : Int :=
  if c = 0x06 then 8 else if c = 0x07 then 15 else if c = 0x08 || c = 0x22 then 2 else 0

/-- The largest floor(log2 |x|) among the nonzero finite elements. -/
def mxTop : List FVal → Option Int
  | [] => none
  | .fin _ m e :: vs =>
    if m = 0 then mxTop vs
    else match mxTop vs with
      | none => some (floorLog m e)
      | some t => some (if floorLog m e > t then floorLog m e else t)
  | _ :: vs => mxTop vs

/-- A value that is neither NaN nor infinite. -/
def finVal : FVal → Bool
  | .fin .. => true
  | _ => false

/-- Convert a block: stored scale, element codes, and the saturation events in `inFrame` columns. -/
def mxBlock (c : Nat) (sr : Bool) (vs : List FVal) (draws : List Nat) : Nat × List (Nat × Bool) :=
  if vs.any (fun v => !finVal v) then (0xFF, vs.map fun v => (0, !finVal v))
  else match mxTop vs with
    | none => (0, vs.map fun _ => (0, false))
    | some t =>
      let x := clampI (-127) 127 (t - mxE c)
      ((x + 127).toNat, (vs.zip draws).map fun (v, d) => convElem c sr (scaleVal v (-x)) d)

/-! ### Rotation and rescale (R99, R101) -/

/-- One butterfly stage over pairs `2^s` apart. -/
def butterfly (s : Nat) (v : List Word) : List Word :=
  (List.range v.length).map fun i =>
    let j := i ^^^ 2 ^ s
    let a := v.getD i 0
    let b := v.getD j 0
    if i.testBit s then fsub b a else fadd a b

/-- `rotate` of R99 on one group of 2^k elements. -/
def rotateGroup (k : Nat) (v : List Word) : List Word :=
  let w := (List.range k).foldl (fun v s => butterfly s v) v
  w.map fun x => enc32 (scaleVal (dec32 x) (-((k + 1) / 2 : Nat)))

/-- R99 along a row: every aligned group of 2^k elements. -/
def rotateRow (k : Nat) (v : List Word) : List Word :=
  ((chunks (2 ^ k) (256 / 2 ^ k) (v.map fun _ => 0)).zipIdx.map fun (_, g) =>
    rotateGroup k ((v.drop (g * 2 ^ k)).take (2 ^ k))).flatten

/-- `rescale` of R101: result and whether it saturated. -/
def rescaleInt (a m : Int) (s : Nat) (z lo hi : Int) : Int × Bool :=
  let p := a * m
  let p := if s > 0 then (p + 2 ^ (s - 1)) / (2 ^ s : Nat) else p
  let r := p + z
  (clampI lo hi r, r < lo || r > hi)

/-! ### The array's segments (R93) -/

/-- Every product is -0. -/
def allNegZero (ps : List FVal) : Bool :=
  ps.all fun v => match v with | .fin s m _ => s && m == 0 | _ => false

/-- The exact sum of products, with R93's special values and zero rule. -/
def segSum (ps : List FVal) : FVal :=
  match ps.foldl addVal (.fin true 0 0) with
  | .fin s m e => if m = 0 then .fin (allNegZero ps) 0 0 else .fin s m e
  | v => v

/-- A floating segment: exact sum rounded to FP32, then scaled by 2^(a+w-254) and rounded. -/
def segFloat (ps : List FVal) (sa sw : Nat) : Word :=
  match e8m0 sa, e8m0 sw with
  | some ka, some kw => enc32 (scaleVal (dec32 (enc32 (segSum ps))) (ka + kw))
  | _, _ => qnan

/-- The signed integer of an exact integer element. -/
def intVal : FVal → Int
  | .fin s m _ => if s then -(m : Int) else m
  | _ => 0

/-- An integer segment: exact sum times the block's integer scale. -/
def segInt (ps : List FVal) (sw : Nat) : Int := (ps.map intVal).foldl (· + ·) 0 * sw

/-- Fold floating segments down a column: segment 0 stands alone (R93). -/
def colFloat : List Word → Word
  | [] => 0
  | x :: xs => xs.foldl fadd x

/-- Fold integer segments down a column with saturation: sum and saturations. -/
def colInt (xs : List Int) : Int × Nat :=
  xs.foldl (fun (a, n) x => let (y, b) := sat32 (a + x); (y, n + b2n b)) (0, 0)

/-- Table 4.2: the class of a format pair, 0 integer, 1 floating, 2 wide. -/
def fillClass (fa fw : Nat) : Option Nat :=
  let flt (c : Nat) : Bool := 4 ≤ c && c ≤ 9
  if (fa = 0 || fa = 1) && (fw ≤ 2) then some 0
  else if flt fa && (flt fw || fw = 3) then some 1
  else if fa = 0x0A && fw = 0x0A then some 2
  else none

/-- The array mode a pair implies (Tables 3.6, 4.2): 0 M8, 1 M4, 2 M16. -/
def fillMode (fa fw : Nat) : Nat :=
  if fa = 0x0A then 2 else if fmtWidth fa = 4 && fmtWidth fw = 4 then 1 else 0

/-- Depth K of a mode (Table 3.6). -/
def modeDepth (mode : Nat) : Nat := if mode = 1 then 512 else 256

/-! ### Embedding rows (R105 to R107) -/

/-- Bytes the D elements (and block scales) of a row take. -/
def rowElemBytes (fmt d : Nat) : Nat :=
  if fmt = 0x20 || fmt = 0x21 then d
  else if fmt = 0x22 then d / 2 + d / 32
  else if fmt = 0x23 then cdiv d 2
  else cdiv d 4

/-- Expand element `c` of a row of F sheets to FP32 (R106). -/
def expandElem (fmt d : Nat) (row : Bytes) (c : Nat) : Word :=
  let t := row.drop (row.length - 16)
  let scale := BitVec.ofNat 32 (fld t 0 2 * 65536)
  if fmt = 0x20 then enc32 (decE4M3 (elemField 8 row c))
  else if fmt = 0x21 then fmul (enc32 (decInt 8 (elemField 8 row c))) scale
  else if fmt = 0x22 then
    enc32 (scaled (decE2M1 (elemField 4 row c)) (row.getD (d / 2 + c / 32) 0).toNat)
  else if fmt = 0x23 then fmul (enc32 (decInt 4 (elemField 4 row c))) scale
  else ffma scale (ofInt32 (elemField 2 row c)) (BitVec.ofNat 32 (fld t 2 2 * 65536))

/-- A row expanded to FP32. -/
def expandRow (fmt d : Nat) (row : Bytes) : List Word :=
  (List.range d).map (expandElem fmt d row)

/-- A gradient of D elements expanded to FP32 (R108). -/
def expandGrad (fmt d : Nat) (b : Bytes) : List Word :=
  (List.range d).map fun c =>
    if fmt = 0x0B then BitVec.ofNat 32 (elemField 32 b c)
    else if fmt = 0x0A then BitVec.ofNat 32 (elemField 16 b c * 65536)
    else enc32 (scaled (decE5M2 (elemField 8 b c)) (b.getD (d + c / 32) 0).toNat)

/-- Bytes of one gradient (R150), before rounding up to sheets. -/
def gradBytes (fmt d : Nat) : Nat :=
  if fmt = 0x0B then 4 * d else if fmt = 0x0A then 2 * d else d + d / 32

/-- Pack element codes of `w` bits into bytes (R105). -/
def packElems (w : Nat) (cs : List Nat) : Bytes :=
  if w = 2 then
    (List.range (cdiv cs.length 4)).map fun i => BitVec.ofNat 8
      (cs.getD (4 * i) 0 + 4 * cs.getD (4 * i + 1) 0 + 16 * cs.getD (4 * i + 2) 0
        + 64 * cs.getD (4 * i + 3) 0)
  else if w = 4 then
    (List.range (cdiv cs.length 2)).map fun i => BitVec.ofNat 8
      (cs.getD (2 * i) 0 + 16 * cs.getD (2 * i + 1) 0)
  else (cs.map (natLe (w / 8))).flatten

/-- The largest, and the smallest, of finite FP32 values. -/
def fmaxL (vs : List Word) : Word := vs.foldl (fun a x => if flt a x then x else a) (vs.headD 0)
def fminL (vs : List Word) : Word := vs.foldl (fun a x => if flt x a then x else a) (vs.headD 0)

/-- The magnitude of a binary32. -/
def fabs (a : Word) : Word := a &&& 0x7FFFFFFF#32

/-- The top half of a BF16-valued binary32. -/
def bf16Code (a : Word) : Nat := a.toNat / 65536

/-- What a row's write-back produced: elements, block scales, ROW_SCALE, ROW_OFFSET, and the events
of Table 4.7 (saturated elements, a rescale). -/
structure RowEnc where
  elems : Bytes
  scale : Nat
  offset : Nat
  sat : Nat
  rescaled : Bool
  deriving DecidableEq, Repr

/-- A finite exact quotient (m1 * 2^e1) / (m2 * 2^e2) rounded up to BF16. -/
def quotUpBf16 (m1 : Nat) (e1 : Int) (m2 : Nat) (e2 : Int) : Word :=
  if m1 = 0 then 0
  else let (q, le) := divFin m1 e1 m2 e2; bf16Up' q le
where
  /-- The smallest BF16 not below m * 2^e. -/
  bf16Up' (m : Nat) (e : Int) : Word :=
    let (q, r, _, le) := cutTo fmtBf16 m e
    to32 false (q + b2n (r != 0)) le

/-- |v| divided by a small integer, rounded up to BF16 (Table 4.7). -/
def absDivUp (v : Word) (n : Nat) : Word :=
  match dec32 v with
  | .fin _ m e => quotUpBf16 m e n 0
  | _ => v

/-- The exact difference a - b, divided by n and rounded up to BF16 (Table 4.7); a b that rounded down to -infinity
gives +infinity. -/
def diffDivUp (a b : Word) (n : Nat) : Word :=
  match addVal (dec32 a) (dec32 (fneg b)) with
  | .fin _ m e => quotUpBf16 m e n 0
  | .inf _ => inf32 false
  | .nan => qnan

/-- Element over scale in FP32, converted with SR to an integer code in [-lim, lim]. Assumption 55, DEDUCED. -/
def rowIntCode (w : Nat) (lim : Int) (scale v : Word) (dr : Nat) : Nat :=
  if fabs scale = 0 then 0 else (convInt w (-lim) lim true (dec32 (fdiv v scale)) dr).1

/-- The element fits in [-lim, lim] at the kept scale (Table 4.7). -/
def fitsScale (lim : Int) (scale v : Word) : Bool :=
  fabs v = 0 || (isFin scale && fabs scale != 0 && !flt (ofInt32 lim) (fabs (fdiv v scale)))

/-- Write back the FP32 elements of a row in its format with SR (Table 4.7). `draws` are the D
element draws; `oldScale` and `oldOffset` the trailer's fields. -/
def encodeRow (fmt : Nat) (oldScale oldOffset : Nat) (v : List Word) (draws : List Nat) : RowEnc :=
  if fmt = 0x20 then
    let r := (v.zip draws).map fun (x, d) => convElem 0x20 true (dec32 x) d
    ⟨packElems 8 (r.map (·.1)), oldScale, oldOffset, (r.filter (·.2)).length, false⟩
  else if fmt = 0x22 then
    let bs := (List.range (v.length / 32)).map fun g =>
      mxBlock 0x22 true (((v.drop (32 * g)).take 32).map dec32) ((draws.drop (32 * g)).take 32)
    let cs := (bs.map (·.2)).flatten
    ⟨packElems 4 (cs.map (·.1)) ++ bs.map (fun b => BitVec.ofNat 8 b.1), oldScale, oldOffset,
      (cs.filter (·.2)).length, false⟩
  else if fmt = 0x24 then
    let mn := fminL v
    let mx := fmaxL v
    let off := bf16Down mn
    let sc := if feq mn mx then 0#32 else diffDivUp mx off 3
    let cs := (v.zip draws).map fun (x, d) =>
      if sc = 0 then 0 else (convInt 8 0 3 true (dec32 (fdiv (fsub x off) sc)) d).1
    ⟨packElems 2 cs, bf16Code sc, bf16Code off, 0, false⟩
  else
    let w := if fmt = 0x21 then 8 else 4
    let lim : Int := if fmt = 0x21 then 127 else 7
    let kept := BitVec.ofNat 32 (oldScale * 65536)
    let ok := v.all (fitsScale lim kept)
    let sc := if ok then kept else absDivUp (fmaxL (v.map fabs)) lim.toNat
    ⟨packElems w ((v.zip draws).map fun (x, d) => rowIntCode w lim sc x d), bf16Code sc,
      oldOffset, 0, !ok⟩

/-- A whole row of F sheets: elements, zero fill, trailer (Table 4.6). -/
def buildRow (f : Nat) (e : RowEnc) (opt0 opt1 step : Nat) : Bytes :=
  let tr := natLe 2 e.scale ++ natLe 2 e.offset ++ natLe 2 opt0 ++ natLe 2 opt1 ++ natLe 4 step ++ zeros 4
  e.elems ++ zeros (256 * f - 16 - e.elems.length) ++ tr

end Sys2Proof.Machine
end

