-- ==== Sys2Proof/Config.lean ====
section
/-! DEFINITION. What the spec leaves open: free values. No constant here has a body, so no proof can see a value. -/

namespace Sys2Proof.Config

/-- A value the spec leaves open, drawn by the counter `State.free` (assumption 3, DESIGN CHOICE). -/
opaque freeNat : Nat → Nat

/-- A 64-bit key drawn from the entropy source (R102, R170). -/
opaque freeKey : Nat → DWord

/-- The sheet-cache set of a network sheet of a post: post, segment, sheet (assumption 14, PRESUMED). -/
opaque netSet : Nat → Nat → Nat → Nat

/-- The page-cache set of a page's entry (assumption 13, DEDUCED). -/
opaque pageSet : Nat → Nat

/-- Tier-0 sheets that a table's lookups read of their work area (R142, R144): MAX_ENTRIES, D, Q_MAX. Assumption 30, DESIGN CHOICE. -/
opaque workSheets : Nat → Nat → Nat → Nat
/-- The same traffic's writes. Assumption 30, DESIGN CHOICE. -/
opaque workWrites : Nat → Nat → Nat → Nat

/-- Cycles a running clock domain other than the host port advances in one tick (assumption 2, DESIGN CHOICE). -/
opaque tickCycles : Nat → Nat → Nat

/-- Latency and bandwidth of the HDM range as the CDAT gives them (R255), by entry (assumption 128, PRESUMED). -/
opaque hdmPerf : Nat → Nat

/-- The bundle of manufacture, in slot A (R348, assumption 5, DESIGN CHOICE). -/
opaque firstBundle : Bytes
/-- The public key of the Pakuane root whose SubjectPublicKeyInfo hashes to ROOT_HASH, and that of the product CA (R339,
assumption 142, PRESUMED). -/
opaque rootKey : Nat → Nat × Nat
opaque caKey : Nat × Nat
/-- Serial numbers of those two certificates, and the first days of validity of all three, in UTCTime, by index. -/
opaque caSerial : Nat → Nat
opaque notBefore : Nat → Bytes
/-- Subject key identifier of a key, whose derivation R339 does not give. -/
opaque keyId : Nat × Nat → Bytes
/-- The signature r and s that an issuer, 0 the root, 1 the product CA, has made over the body of a certificate. -/
opaque issued : Nat → Bytes → Nat × Nat
/-- The version of the boot ROM (Table 16.5). -/
opaque romVersion : Nat
/-- Sensor ID of a regulator's event, which Table 17.9 does not give (R369). Assumption 104, DEDUCED. -/
opaque regSensor : Nat
/-- The UUID derived from a module serial (R368). -/
opaque uuid : Nat → Bytes
/-- The expected result CRC of a calender pattern, by pack and pattern index (R315, R316). -/
opaque calenderCode : Nat → Nat → Word

end Sys2Proof.Config
end

