-- ==== Sys2Proof/Machine/Cipher.lean ====
section
/-! DEFINITION. The block ciphers of Table 0.6 and their modes (assumption 57, PRESUMED): AES-256 (FIPS 197), SM4
(GB/T 32907), GCM (NIST SP 800-38D), and the XTS mode that R180 and R188 name (NIST SP 800-38E). -/

namespace Sys2Proof.Machine

/-- Exactly `n` bytes, cut or filled with zeros. -/
def fit (n : Nat) (b : Bytes) : Bytes := (List.range n).map fun i => b.getD i 0

/-- Numbers as bytes, most significant byte first. -/
def natBe (k n : Nat) : Bytes := (natLe k n).reverse
def beNat (b : Bytes) : Nat := leNat b.reverse

/-- The exclusive or of two runs of bytes. -/
def xorBytes (a b : Bytes) : Bytes := List.zipWith (· ^^^ ·) a b

/-! ### AES-256 -/

/-- Multiplication by x, and of two elements, in the field of AES. -/
def aesX (a : Nat) : Nat := if 128 ≤ a then (2 * a) ^^^ 0x11B else 2 * a
def aesMul (b : Nat) : Nat → Nat → Nat
  | 0, _ => 0
  | k + 1, a => (if b.testBit (7 - k) then a else 0) ^^^ aesMul b k (aesX a)

/-- The inverse: a to the power 254. -/
def aesInv (a : Nat) : Nat := (List.range 6).foldl (fun r _ => let q := aesMul r 8 r; aesMul a 8 q) a |> fun r => aesMul r 8 r

/-- A byte turned left. -/
def rot8 (a n : Nat) : Nat := (a <<< n ||| a >>> (8 - n)) % 256

def aesSub (a : Nat) : Nat :=
  let b := aesInv a
  b ^^^ rot8 b 1 ^^^ rot8 b 2 ^^^ rot8 b 3 ^^^ rot8 b 4 ^^^ 0x63

/-- Round constant of word 8n: x to the power n - 1. -/
def aesCon (n : Nat) : Nat := (List.range (n - 1)).foldl (fun a _ => aesX a) 1

/-- The expanded key, newest word first: n more words of four bytes. -/
def aesExpand : Nat → List (List Nat) → List (List Nat)
  | 0, ws => ws
  | n + 1, ws =>
    let i := ws.length
    let t := ws.headD []
    let t := if i % 8 = 0 then
        match (t.drop 1 ++ t.take 1).map aesSub with
        | b :: bs => (b ^^^ aesCon (i / 8)) :: bs
        | [] => []
      else if i % 8 = 4 then t.map aesSub else t
    aesExpand n (List.zipWith (· ^^^ ·) (ws.getD 7 []) t :: ws)

/-- The fifteen round keys of a 32-byte key. -/
def aesKeys (key : Bytes) : List (List Nat) :=
  let k := (fit 32 key).map (·.toNat)
  let ws := ((List.range 8).map fun i => (k.drop (4 * i)).take 4).reverse
  let all := (aesExpand 52 ws).reverse
  (List.range 15).map fun r => ((all.drop (4 * r)).take 4).flatten

def aesRows (s : List Nat) : List Nat :=
  (List.range 16).map fun i => s.getD (i % 4 + 4 * ((i / 4 + i % 4) % 4)) 0

def aesColumns (s : List Nat) : List Nat :=
  (List.range 16).map fun i =>
    let e (k : Nat) : Nat := s.getD (4 * (i / 4) + (i + k) % 4) 0
    aesX (e 0) ^^^ aesX (e 1) ^^^ e 1 ^^^ e 2 ^^^ e 3

/-- Rounds under the keys that are left. -/
def aesRounds : List (List Nat) → List Nat → List Nat
  | [], s => s
  | [k], s => List.zipWith (· ^^^ ·) (aesRows (s.map aesSub)) k
  | k :: ks, s => aesRounds ks (List.zipWith (· ^^^ ·) (aesColumns (aesRows (s.map aesSub))) k)

/-- AES-256 of one 16-byte block. -/
def aesBlock (key b : Bytes) : Bytes :=
  match aesKeys key with
  | k :: ks => (aesRounds ks (List.zipWith (· ^^^ ·) ((fit 16 b).map (·.toNat)) k)).map (BitVec.ofNat 8)
  | [] => []

/-! ### SM4 -/

/-- The S-box of GB/T 32907, entry 0 first. -/
def sm4Table : Nat :=
  0xd690e9fecce13db716b614c228fb2c052b679a762abe04c3aa441326498606999c4250f491ef987a33540b43edcfac62e4b31ca9c908e89580df94fa758f3fa64707a7fcf37317ba83593c19e6854fa8686b81b27164da8bf8eb0f4b70569d351e240e5e6358d1a225227c3b01217887d40046579fd327524c3602e7a0c4c89eeabf8ad240c738b5a3f7f2cef96115a1e0ae5da49b341a55ad933230f58cb1e31df6e22e8266ca60c02923ab0d534e6fd5db3745defd8e2f03ff6a726d6c5b518d1baf92bbddbc7f11d95c411f105ad80ac13188a5cd7bbd2d74d012b8e5b4b08969974a0c96777e65b9f109c56ec68418f07dec3adc4d2079ee5f3ed7cb3948

def sm4Sub (b : Nat) : Nat := sm4Table >>> (8 * (255 - b)) % 256

/-- A word turned left. -/
def rot32 (a n : Nat) : Nat := (a <<< (n % 32) ||| a >>> (32 - n % 32)) % 2 ^ 32

/-- Each byte of a word through the S-box. -/
def sm4Tau (a : Nat) : Nat :=
  sm4Sub (a >>> 24 % 256) <<< 24 ||| sm4Sub (a >>> 16 % 256) <<< 16 ||| sm4Sub (a >>> 8 % 256) <<< 8 ||| sm4Sub (a % 256)

def sm4T (a : Nat) : Nat :=
  let b := sm4Tau a
  b ^^^ rot32 b 2 ^^^ rot32 b 10 ^^^ rot32 b 18 ^^^ rot32 b 24

def sm4K (a : Nat) : Nat :=
  let b := sm4Tau a
  b ^^^ rot32 b 13 ^^^ rot32 b 23

/-- CK of round i: bytes (4i + j) × 7. -/
def sm4Ck (i : Nat) : Nat := (List.range 4).foldl (fun n j => n * 256 + (4 * i + j) * 7 % 256) 0

/-- The four words of a block. -/
def words4 (b : Bytes) : List Nat := (List.range 4).map fun i => beNat ((b.drop (4 * i)).take 4)

/-- One turn of the four words: the first meets what `f` makes of the others, and goes last. -/
def sm4Turn (f : Nat → Nat) (x : List Nat) : List Nat :=
  match x with
  | [a, b, c, d] => [b, c, d, a ^^^ f (b ^^^ c ^^^ d)]
  | _ => x

/-- The 32 round keys of a 16-byte key. -/
def sm4Keys (key : Bytes) : List Nat :=
  let k := List.zipWith (· ^^^ ·) (words4 (fit 16 key)) [0xA3B1BAC6, 0x56AA3350, 0x677D9197, 0xB27022DC]
  ((List.range 32).foldl (fun (e : List Nat × List Nat) i =>
    let x := sm4Turn (fun a => sm4K (a ^^^ sm4Ck i)) e.1
    (x, e.2 ++ [x.getD 3 0])) (k, [])).2

/-- SM4 of one 16-byte block. -/
def sm4Block (key b : Bytes) : Bytes :=
  let x := (sm4Keys key).foldl (fun x rk => sm4Turn (fun a => sm4T (a ^^^ rk)) x) (words4 (fit 16 b))
  (x.reverse.map (natBe 4)).flatten

/-! ### GCM -/

/-- The raw block cipher of an algorithm (R201): 1 AES-256, 2 SM4. -/
def blockCipher (alg : Nat) (key b : Bytes) : Bytes := if alg = 1 then aesBlock key b else sm4Block key b

/-- Steps of the multiplication of GHASH: what is left of one factor, and the other. -/
def ghashMul (x : Nat) : Nat → Nat → Nat
  | 0, _ => 0
  | k + 1, v => (if x.testBit k then v else 0) ^^^ ghashMul x k (if v % 2 = 1 then v / 2 ^^^ 0xE1 <<< 120 else v / 2)

/-- Whole blocks of a run of bytes, the last filled with zeros. -/
def blocks (n : Nat) (b : Bytes) : List Bytes := (chunks n (cdiv b.length n) b).map (fit n)

def ghash (h : Nat) (bs : List Bytes) : Nat := bs.foldl (fun y b => ghashMul (y ^^^ beNat b) 128 h) 0

/-- The key of GHASH. -/
def gcmH (alg : Nat) (key : Bytes) : Nat := beNat (blockCipher alg key (zeros 16))

/-- The first counter block, of a 12-byte IV. -/
def gcmStart (iv : Bytes) : Bytes := fit 12 iv ++ natBe 4 1

/-- The key stream from counter 2 on, over so many bytes. -/
def gcmStream (alg : Nat) (key iv : Bytes) (n : Nat) : Bytes :=
  ((List.range (cdiv n 16)).map fun i => blockCipher alg key (fit 12 iv ++ natBe 4 (i + 2))).flatten

/-- GCM of R202, R207 and R208: encryption, decryption, and the tag over additional data and ciphertext. -/
def gcmEnc (alg : Nat) (key iv pt : Bytes) : Bytes := xorBytes pt (gcmStream alg key iv pt.length)
def gcmDec (alg : Nat) (key iv ct : Bytes) : Bytes := xorBytes ct (gcmStream alg key iv ct.length)
def gcmTag (alg : Nat) (key iv aad ct : Bytes) : Bytes :=
  let s := ghash (gcmH alg key) (blocks 16 aad ++ blocks 16 ct ++ [natBe 8 (8 * aad.length) ++ natBe 8 (8 * ct.length)])
  xorBytes (natBe 16 s) (blockCipher alg key (gcmStart iv))

/-- `derive` of R201. -/
def deriveKey (alg : Nat) (key : Bytes) (label : Nat) (salt : Bytes) : Bytes :=
  let blk (n : Nat) : Bytes := blockCipher alg key (natLe 1 label ++ fit 14 salt ++ natLe 1 n)
  if alg = 1 then blk 1 ++ blk 2 else blk 1

/-! ### XTS -/

/-- Multiplication of a tweak by x. -/
def xtsX (t : Nat) : Nat := if 2 ^ 127 ≤ t then (2 * t) % 2 ^ 128 ^^^ 0x87 else 2 * t

/-- Blocks of a data unit, each under its tweak. -/
def xtsBlocks (key : Bytes) : Nat → List Bytes → Bytes
  | _, [] => []
  | t, b :: bs =>
    xorBytes (aesBlock key (xorBytes b (natLe 16 t))) (natLe 16 t) ++ xtsBlocks key (xtsX t) bs

/-- AES-256 in XTS mode of one data unit: the key's two halves, the tweak, the plaintext (R180, R188). -/
def xts (key tweak : Nat) (b : Bytes) : Bytes :=
  xtsBlocks (natLe 32 key) (leNat (aesBlock (natLe 32 (key >>> 256)) (natLe 16 tweak))) (blocks 16 b)

end Sys2Proof.Machine
end

