-- ==== Sys2Proof/Machine/Sm.lean ====
section
/-! DEFINITION. The SM3 digest (GB/T 32905), and SM2 signature and public-key encryption (GB/T 32918) on the SM2 curve
(Table 0.6, R338; assumption 57, PRESUMED). -/

namespace Sys2Proof.Machine

/-! ### SM3 -/

def sm3P0 (x : Nat) : Nat := x ^^^ rot32 x 9 ^^^ rot32 x 17
def sm3P1 (x : Nat) : Nat := x ^^^ rot32 x 15 ^^^ rot32 x 23

/-- The message with its padding: a one bit, zeros, and its length in bits. -/
def sm3Pad (b : Bytes) : Bytes := b ++ 0x80#8 :: zeros ((119 - b.length % 64) % 64) ++ natBe 8 (8 * b.length)

/-- The expanded words of a block, newest first: n more. -/
def sm3Expand : Nat → List Nat → List Nat
  | 0, ws => ws
  | n + 1, ws =>
    let w (i : Nat) : Nat := ws.getD (i - 1) 0
    sm3Expand n ((sm3P1 (w 16 ^^^ w 9 ^^^ rot32 (w 3) 15) ^^^ rot32 (w 13) 7 ^^^ w 6) :: ws)

/-- The eight words of the chaining value. -/
structure Sm3 where
  a : Nat
  b : Nat
  c : Nat
  d : Nat
  e : Nat
  f : Nat
  g : Nat
  h : Nat
  deriving DecidableEq, Repr

/-- One round, of round number j and expanded words w and w'. -/
def sm3Round (v : Sm3) (j w w' : Nat) : Sm3 :=
  let not (x : Nat) : Nat := 2 ^ 32 - 1 - x
  let k := if j < 16 then 0x79CC4519 else 0x7A879D8A
  let ff := if j < 16 then v.a ^^^ v.b ^^^ v.c else (v.a &&& v.b) ||| (v.a &&& v.c) ||| (v.b &&& v.c)
  let gg := if j < 16 then v.e ^^^ v.f ^^^ v.g else (v.e &&& v.f) ||| (not v.e &&& v.g)
  let ss1 := rot32 ((rot32 v.a 12 + v.e + rot32 k j) % 2 ^ 32) 7
  let ss2 := ss1 ^^^ rot32 v.a 12
  let tt1 := (ff + v.d + ss2 + w') % 2 ^ 32
  let tt2 := (gg + v.h + ss1 + w) % 2 ^ 32
  { a := tt1, b := v.a, c := rot32 v.b 9, d := v.c, e := sm3P0 tt2, f := v.e, g := rot32 v.f 19, h := v.g }

/-- The compression of one 64-byte block. -/
def sm3Block (v : Sm3) (b : Bytes) : Sm3 :=
  let ws := (sm3Expand 52 ((List.range 16).map fun i => beNat ((b.drop (4 * i)).take 4)).reverse).reverse
  let r := (List.range 64).foldl (fun r j => sm3Round r j (ws.getD j 0) (ws.getD j 0 ^^^ ws.getD (j + 4) 0)) v
  { a := v.a ^^^ r.a, b := v.b ^^^ r.b, c := v.c ^^^ r.c, d := v.d ^^^ r.d
    e := v.e ^^^ r.e, f := v.f ^^^ r.f, g := v.g ^^^ r.g, h := v.h ^^^ r.h }

def sm3Start : Sm3 :=
  { a := 0x7380166F, b := 0x4914B2B9, c := 0x172442D7, d := 0xDA8A0600
    e := 0xA96F30BC, f := 0x163138AA, g := 0xE38DEE4D, h := 0xB0FB0E4E }

/-- The SM3 digest. -/
def sm3 (b : Bytes) : Bytes :=
  let p := sm3Pad b
  let v := (chunks 64 (p.length / 64) p).foldl sm3Block sm3Start
  natBe 4 v.a ++ natBe 4 v.b ++ natBe 4 v.c ++ natBe 4 v.d ++ natBe 4 v.e ++ natBe 4 v.f ++ natBe 4 v.g ++ natBe 4 v.h

/-! ### The SM2 curve -/

def sm2P : Nat := 0xFFFFFFFEFFFFFFFFFFFFFFFFFFFFFFFFFFFFFFFF00000000FFFFFFFFFFFFFFFF
def sm2A : Nat := sm2P - 3
def sm2B : Nat := 0x28E9FA9E9D9F5E344D5A9E4BCF6509A7F39789F515AB8F92DDBCBD414D940E93
def sm2N : Nat := 0xFFFFFFFEFFFFFFFFFFFFFFFFFFFFFFFF7203DF6B21C6052B53BBF40939D54123
/-- The base point. -/
def sm2G : Nat × Nat :=
  (0x32C4AE2C1F1981195F9904466A39C9948FE30BBFF2660BE1715A4589334C74C7,
   0xBC3736A2F4F6779C59BDCEE36B692153D0A9877CC62A474002DF32E52139F0A0)

/-- b to the power e modulo m, over the lowest k bits of e. -/
def powMod (b e m : Nat) : Nat → Nat
  | 0 => 1 % m
  | k + 1 =>
    let r := powMod b (e / 2) m k
    let q := r * r % m
    if e % 2 = 1 then q * b % m else q

/-- The inverse modulo a prime of 256 bits. -/
def invMod (a m : Nat) : Nat := powMod (a % m) (m - 2) m 256

/-- The sum of two points; none is the point at infinity. -/
def ecAdd : Option (Nat × Nat) → Option (Nat × Nat) → Option (Nat × Nat)
  | none, q => q
  | p, none => p
  | some (x, y), some (u, v) =>
    if x = u && (y + v) % sm2P = 0 then none
    else
      let l := if x = u then (3 * x * x + sm2A) * invMod (2 * y) sm2P % sm2P
        else (v + (sm2P - y)) * invMod (u + (sm2P - x)) sm2P % sm2P
      let z := (l * l + 2 * sm2P - x - u) % sm2P
      some (z, (l * (x + (sm2P - z)) + (sm2P - y)) % sm2P)

/-- A multiple of a point, over the lowest k bits of the factor. -/
def ecMul (n : Nat) (p : Option (Nat × Nat)) : Nat → Option (Nat × Nat)
  | 0 => none
  | k + 1 =>
    let r := ecMul (n / 2) p k
    let d := ecAdd r r
    if n % 2 = 1 then ecAdd d p else d

/-- A point lies on the curve. -/
def onCurve (p : Nat × Nat) : Bool :=
  decide (p.1 < sm2P) && decide (p.2 < sm2P) && p.2 * p.2 % sm2P == (p.1 * p.1 * p.1 + sm2A * p.1 + sm2B) % sm2P

/-- A point as 64 bytes, and the point that 64 bytes give. -/
def pointBytes (p : Nat × Nat) : Bytes := natBe 32 p.1 ++ natBe 32 p.2
def bytesPoint (b : Bytes) : Nat × Nat := (beNat (b.take 32), beNat ((b.drop 32).take 32))

/-- The public key of a private one. -/
def sm2Public (d : Nat) : Nat × Nat := (ecMul d (some sm2G) 256).getD (0, 0)

/-! ### Signatures (R338) -/

/-- The default user ID. -/
def sm2User : Bytes := [0x31, 0x32, 0x33, 0x34, 0x35, 0x36, 0x37, 0x38, 0x31, 0x32, 0x33, 0x34, 0x35, 0x36, 0x37, 0x38]

/-- SM3(Z ‖ message) as a number. -/
def sm2Digest (key : Nat × Nat) (m : Bytes) : Nat :=
  let z := sm3 (natBe 2 (8 * sm2User.length) ++ sm2User ++ natBe 32 sm2A ++ natBe 32 sm2B ++ pointBytes sm2G ++ pointBytes key)
  beNat (sm3 (z ++ m))

/-- r and s of a private key, a digest and a drawn number; none where another number must be drawn. -/
def sm2Try (d e k : Nat) : Option (Nat × Nat) :=
  let x := ((ecMul k (some sm2G) 256).map (·.1)).getD 0
  let r := (e + x) % sm2N
  let s := invMod (1 + d) sm2N * (k + (sm2N - r * d % sm2N)) % sm2N
  if r = 0 || r + k = sm2N || s = 0 then none else some (r, s)

/-- The signature r ‖ s of a message with the first of the drawn numbers that serves. -/
def sm2Sign (d : Nat) (ks : List Nat) (m : Bytes) : Bytes :=
  match (ks.map fun k => k % (sm2N - 1) + 1).findSome? (sm2Try d (sm2Digest (sm2Public d) m)) with
  | some (r, s) => natBe 32 r ++ natBe 32 s
  | none => zeros 64

/-- A signature r ‖ s of a message verifies under a public key. -/
def sm2Verify (key : Nat × Nat) (m sig : Bytes) : Bool :=
  let r := (bytesPoint sig).1
  let s := (bytesPoint sig).2
  let t := (r + s) % sm2N
  let x := (ecAdd (ecMul s (some sm2G) 256) (ecMul t (some key) 256)).map (·.1)
  onCurve key && sig.length == 64 && 0 < r && decide (r < sm2N) && 0 < s && decide (s < sm2N) && t != 0
    && match x with
      | some x => (sm2Digest key m + x) % sm2N == r
      | none => false

/-! ### Decryption (R346) -/

/-- The key derivation of GB/T 32918.4: so many bytes from a seed. -/
def sm2Kdf (z : Bytes) (n : Nat) : Bytes :=
  ((List.range (cdiv n 32)).map fun i => sm3 (z ++ natBe 4 (i + 1))).flatten.take n

/-- The plaintext of C1 ‖ C3 ‖ C2, C1 being an uncompressed point; none where a check fails. -/
def sm2Decrypt (d : Nat) (c : Bytes) : Option Bytes :=
  let p := bytesPoint (c.drop 1)
  if c.getD 0 0 != 4#8 || c.length < 97 || !onCurve p then none
  else match ecMul d (some p) 256 with
    | none => none
    | some (x, y) =>
      let t := sm2Kdf (pointBytes (x, y)) (c.length - 97)
      let m := xorBytes (c.drop 97) t
      if allZero t || sm3 (natBe 32 x ++ m ++ natBe 32 y) != (c.drop 65).take 32 then none else some m

end Sys2Proof.Machine
end

