-- ==== Sys2Proof/Machine/Map.lean ====
section
/-! DEFINITION. Finite maps as sorted lists (register files, tables of records) and the byte memory
in its canonical form. -/

namespace Sys2Proof.Machine

/-- A finite map from numbers: entries in rising order of the number, one per number written. -/
abbrev FMap (α : Type) := List (Nat × α)

/-- The entry at `k`, if any. -/
def FMap.find {α : Type} : FMap α → Nat → Option α
  | [], _ => none
  | (k', v) :: m, k => if k = k' then some v else FMap.find m k

/-- The entry at `k`, or `d` where nothing was written. -/
def FMap.get {α : Type} (m : FMap α) (k : Nat) (d : α) : α := (FMap.find m k).getD d

/-- Write the entry at `k`. -/
def FMap.set {α : Type} : FMap α → Nat → α → FMap α
  | [], k, v => [(k, v)]
  | (k', w) :: m, k, v =>
    if k = k' then (k, v) :: m
    else if k < k' then (k, v) :: (k', w) :: m
    else (k', w) :: FMap.set m k v

/-- Remove every entry at `k`. -/
def FMap.del {α : Type} (m : FMap α) (k : Nat) : FMap α := m.filter (fun e => e.1 != k)

/-- Apply `f` to every entry's value. -/
def FMap.mapV {α : Type} (m : FMap α) (f : Nat → α → α) : FMap α := m.map fun e => (e.1, f e.1 e.2)

/-- The numbers written, in order. -/
def FMap.keys {α : Type} (m : FMap α) : List Nat := m.map (·.1)

/-! ### Memory -/

/-- What a byte of memory that nothing has written reads as: 0. Scratchpads and tier-0 slices are
zeroed at a cold reset (Table 15.10); for tier-1, uninitialised after a cold reset (R180), it is a
DESIGN CHOICE, unsafe: assumption 6. -/
def memDefault : Byte := 0

/-- Cells with addresses strictly rising above `lo` and no cell equal to what an unlisted address
reads as. -/
def cellsFrom : Nat → List Host.Cell → Bool
  | _, [] => true
  | lo, (a, b) :: m => decide (lo ≤ a) && b != memDefault && cellsFrom (a + 1) m

/-- Read one byte. -/
def cellRead : List Host.Cell → Nat → Byte
  | [], _ => memDefault
  | (a', b) :: m, a => if a = a' then b else cellRead m a

/-- Write one byte, keeping the canonical form: writing `memDefault` removes the cell. -/
def cellWrite : List Host.Cell → Nat → Byte → List Host.Cell
  | [], a, v => if v = memDefault then [] else [(a, v)]
  | (a', b) :: m, a, v =>
    if a < a' then (if v = memDefault then (a', b) :: m else (a, v) :: (a', b) :: m)
    else if a = a' then (if v = memDefault then m else (a, v) :: m)
    else (a', b) :: cellWrite m a v

/-- The block's addressed memories over one flat numbering (see `spAddr`, `t0Addr`, `t1Addr`), and
the numbers (flat address / 256) of the sheets and lines that carry poison, strictly rising. -/
structure Memory where
  cells : List Host.Cell := []
  poison : List Nat := []
  deriving DecidableEq, Repr

/-- Strictly rising from `lo` on. -/
def risingFrom : Nat → List Nat → Bool
  | _, [] => true
  | lo, a :: m => decide (lo ≤ a) && risingFrom (a + 1) m

/-- The canonical form of the memory. -/
def Memory.wf (m : Memory) : Bool := cellsFrom 0 m.cells && risingFrom 0 m.poison

/-- Insert into a strictly rising list. -/
def insRising : List Nat → Nat → List Nat
  | [], a => [a]
  | b :: m, a => if a < b then a :: b :: m else if a = b then b :: m else b :: insRising m a

/-- Remove from a list of numbers. -/
def delNat (m : List Nat) (a : Nat) : List Nat := m.filter (· != a)

/-- Flat address of byte `a` of tile `t`'s scratchpad (R62). -/
def spAddr (t a : Nat) : Nat := t * 2 ^ 23 + a

/-- Flat address of byte `a` of tile `t`'s tier-0 slice (R168). -/
def t0Addr (t a : Nat) : Nat := 2 ^ 40 + t * 2 ^ 31 + a

/-- Flat address of tier-1 device byte `a` (R240). -/
def t1Addr (a : Nat) : Nat := 2 ^ 50 + a

/-- One byte of memory. -/
def Memory.read (m : Memory) (a : Nat) : Byte := cellRead m.cells a

/-- `n` bytes from address `a`. -/
def Memory.readN (m : Memory) (a n : Nat) : Bytes := (List.range n).map fun i => m.read (a + i)

/-- Write bytes from address `a` on. -/
def Memory.writeN (m : Memory) (a : Nat) : Bytes → Memory
  | [] => m
  | b :: bs => Memory.writeN { m with cells := cellWrite m.cells a b } (a + 1) bs

/-- Sheet or line `n` (flat address / 256) carries poison. -/
def Memory.poisoned (m : Memory) (n : Nat) : Bool := m.poison.contains n

/-- Some sheet of the `len` bytes at `a` carries poison. -/
def Memory.poisonedIn (m : Memory) (a len : Nat) : Bool :=
  m.poison.any fun n => decide (a / 256 ≤ n) && decide (n * 256 < a + len)

/-- Mark or clear a sheet. -/
def Memory.mark (m : Memory) (n : Nat) (p : Bool) : Memory :=
  { m with poison := if p then insRising m.poison n else delNat m.poison n }

/-- Write a whole sheet or line: its bytes, and its poison mark anew (R190, R310). -/
def Memory.writeSheet (m : Memory) (a : Nat) (data : Bytes) (p : Bool) : Memory :=
  (m.writeN a data).mark (a / 256) p

/-- Write consecutive whole sheets, each with its own mark (marks by sheet index). -/
def Memory.writeSheets (m : Memory) (a : Nat) (data : Bytes) (pois : List Nat) : Memory :=
  let n := cdiv data.length 256
  (List.range n).foldl (fun m i =>
    m.writeSheet (a + 256 * i) ((data.drop (256 * i)).take 256) (pois.contains i)) m

/-- Zero `len` bytes from `a`, but for the sheets that `keep` names: every other cell there is dropped, and the mark of
every sheet that lies there whole is cleared (R190, R191). -/
def Memory.zeroBut (m : Memory) (a len : Nat) (keep : Nat → Bool) : Memory :=
  { cells := m.cells.filter fun c => c.1 < a || a + len ≤ c.1 || keep (c.1 / 256)
    poison := m.poison.filter fun n => n * 256 < a || a + len < n * 256 + 256 || keep n }

/-- Zero `len` bytes from `a`. -/
def Memory.zero (m : Memory) (a len : Nat) : Memory := m.zeroBut a len fun _ => false

/-- The sheets of a range that carry poison, as indices from the range's first sheet. -/
def Memory.poisonIdx (m : Memory) (a n : Nat) : List Nat :=
  (List.range n).filter fun i => m.poisoned (a / 256 + i)

end Sys2Proof.Machine
end

