-- ==== Sys2Proof/Machine/State.lean ====
section
/-! DEFINITION. The state of the YN8 as a block: every register, table, queue and memory the spec
gives it, the model's outputs, the queue of waiting commands, and the state right after a cold
reset. Numbers are kept as `Nat` where the spec counts, as words where software reads a register. -/

namespace Sys2Proof.Machine

/-- Why a command could fault. No meaning of this model faults (INVENTORY, Faults). Assumption 108, DESIGN CHOICE. -/
inductive Fault where
  /-- An access to an address that does not exist. Nothing raises it: every access of this model is
  range-checked by the command that makes it. Safe. -/
  | noSuchAddress
  deriving DecidableEq, Repr

/-- Why the model refuses a command. -/
inductive Refusal where
  /-- The command has no meaning in this model. Raised by refused arms of `exec` only. Safe. -/
  | notModelled (mnemonic : String)
  deriving DecidableEq, Repr

/-! ### Front end: rings, commands, tasks -/

/-- What became of an accepted command (R231, R235, R246, R248). -/
inductive Phase where
  /-- Accepted at fetch; its checks have not run. -/
  | accepted
  /-- Waiting for a translation walk (R246). -/
  | walking
  /-- A parked task of this number (R248). -/
  | parked (task : Nat)
  /-- Held: its fault found no free task (R248). -/
  | held
  /-- A post: passed every check; inputs being staged, or in the admission queue, or admitted. -/
  | post
  /-- Another command, started. -/
  | running
  deriving DecidableEq, Repr

/-- An accepted command whose record is not ready yet. -/
structure Cmd where
  ring : Nat
  seq : Nat
  epoch : Nat
  part : Nat
  desc : Bytes
  phase : Phase := .accepted
  /-- Host-port time of acceptance (R235). -/
  time : Nat := 0
  /-- RING_TIMEOUT has been counted for it. -/
  timedOut : Bool := false
  /-- Segments its checks used (R244). -/
  segs : List Nat := []
  /-- Host-port time at which it last went on (R380). -/
  progress : Nat := 0
  /-- The shingler profile an INGEST names, as it stood at fetch (R204). -/
  prof : Option Bytes := none
  /-- A SEG_SETUP that passed steps 1 to 4 of R231 at its acceptance: what a REMOVE or UNMAP names is invalid from then
  on (R244). -/
  takes : Bool := false
  deriving DecidableEq, Repr

/-- A parked task (R248 to R250). -/
structure Task where
  cmd : Nat
  part : Nat
  seg : Nat
  /-- FSEQ of its record in the fault queue; none when it is unqueued (R250). -/
  fseq : Option Nat := none
  deriving DecidableEq, Repr

/-- A record in a ring's completion log (R234), keyed by SEQ. -/
structure LogRec where
  data : Bytes
  cmd : Nat
  deriving DecidableEq, Repr

/-- A ring (Table 10.4). RW fields as stored stand in `State.regs`. -/
structure Ring where
  /-- 0 DISABLED, 1 ARMED, 2 RUNNING, 3 PARKED, 4 STOPPED, 5 DRAINING. -/
  st : Nat := 0
  err : Nat := 0
  /-- Latched RW words by offset (R222, R374). -/
  lat : FMap Word := []
  sqCons : Nat := 0
  cqProd : Nat := 0
  cqSeen : Nat := 0
  epoch : Nat := 0
  /-- Last valid producer (R225). -/
  prod : Nat := 0
  /-- Descriptors of the read in flight, 0 for none (R226). -/
  reading : Nat := 0
  /-- Re-reads made of a descriptor that is not visible (R227). -/
  rereads : Nat := 0
  /-- Waiting the 256 ns before the next re-read. -/
  rereadWait : Bool := false
  /-- A notification arrived since the last doorbell read. -/
  notified : Bool := false
  /-- The doorbell line is held in CXL.cache (R224, R256). -/
  lineHeld : Bool := false
  /-- The arming write waits for acceptance. -/
  armPending : Bool := false
  /-- The doorbell line is being re-read. -/
  dbReread : Bool := false
  /-- That re-read follows an arming write (R226). -/
  armRead : Bool := false
  /-- The remote ring's doorbell line in the partition's doorbell window (R224). -/
  dbLine : Bytes := []
  log : FMap LogRec := []
  /-- Held commands, which stop fetching (R248). -/
  held : List Nat := []
  deriving DecidableEq, Repr

/-! ### Segments and partitions -/

/-- A segment (Table 11.1). `map` is page to frame, `inval` the mapped pages a poisoned map sheet
made invalid (R247). -/
structure Seg where
  base : Nat := 0
  limit : Nat := 0
  tier : Nat := 0
  paged : Bool := false
  sealed : Bool := false
  readOnly : Bool := false
  poisonAware : Bool := false
  remote : Bool := false
  bindSlot : Nat := 0
  qp : Nat := 0
  rkey : Nat := 0
  map : FMap Nat := []
  inval : List Nat := []
  /-- First entry of its page map in the page-map pool (R247). -/
  mapAt : Nat := 0
  deriving DecidableEq, Repr

/-- A SEG_SETUP REMOVE or UNMAP that waits for its drain (R244). -/
structure SegDrain where
  cmd : Nat
  part : Nat
  seg : Nat
  /-- Pages being unmapped, none for REMOVE. -/
  pages : Option (Nat × Nat)
  deriving DecidableEq, Repr

/-- A partition (Tables 10.1, 14.2). RW fields as stored stand in `State.regs`. -/
structure Part where
  /-- 0 FREE, 1 ATTACHED, 2 DETACHING, 3 DETACHED. -/
  st : Nat := 0
  remote : Bool := false
  err : Nat := 0
  /-- Words +0x08 to +0x14 latched at the attach from FREE. -/
  lat : FMap Word := []
  featAck : Nat := 0
  /-- PART_BOUND, and the bound posts are admitted with: it follows at a sweep boundary (R48). -/
  bound : Nat := 0
  boundUsed : Nat := 0
  /-- PRIO_ADDR and PRIO_LINES latched at the attach (R296). -/
  prioAddr : Nat := 0
  prioLines : Nat := 0
  /-- Priority lines held in CXL.cache (R256). -/
  prioHeld : List Nat := []
  /-- Priority words as last read, by CPU index. -/
  prioWords : FMap Word := []
  /-- Attach queue pair of a remote partition (R219). -/
  attachQp : Nat := 0
  /-- Key of its doorbell window (R224). -/
  dbKey : Nat := 0
  /-- Attach exchange in progress (R219): the PART_ATTACH command, the block read, the tag drawn. -/
  attaching : Option (Nat × Bytes × Nat) := none
  profiles : FMap Bytes := []
  faultArea : Option (Nat × Nat) := none
  pseq : Nat := 0
  cause : Word := 0
  /-- CAUSE bits carried by the message in flight to a remote partition (R302). -/
  causeSent : Word := 0
  msgSeq : Nat := 0
  /-- It has resumed, and its sources send nothing before the replayed records have been written (R301): numbers of their
  writes. -/
  resuming : Bool := false
  replays : List Nat := []
  /-- The PART_DETACH in progress (R220). -/
  detach : Option Nat := none
  /-- It was DETACHED when the detach began: its host stays out of reach (R220, R221). -/
  cut : Bool := false
  /-- A partition reset in progress (R334). -/
  resetBusy : Bool := false
  segs : FMap Seg := []
  deriving DecidableEq, Repr

/-- A set of the page cache: its 8 ways, each a page's token, and its replacement tree (R246). -/
structure PageSet where
  ways : FMap Nat := []
  tree : Nat := 0
  deriving DecidableEq, Repr

/-- Front-end state shared by all rings. -/
structure Front where
  rings : FMap Ring := []
  cmds : FMap Cmd := []
  tasks : FMap Task := []
  /-- Held commands in the order they were held (R248). -/
  held : List Nat := []
  /-- Commands waiting for walkers, in arrival order (R246). -/
  walks : List Nat := []
  /-- Ring served last (R226). -/
  rr : Nat := 4095
  /-- Segment cache, most recent first, and the page cache by set (R246). -/
  segCache : List Nat := []
  pageCache : FMap PageSet := []
  /-- Tile contexts that have faulted, as tile * 4 + context, and the FSEQ of their records (R249). -/
  tileFaults : FMap Nat := []
  /-- Fault queue: FSEQ to record, by position; FQ_PROD; FQ_OVF (Table 11.6). -/
  fq : FMap Bytes := []
  fqProd : Nat := 0
  fqOvf : Bool := false
  /-- The one SEG_SETUP drain in progress (R242). -/
  drain : Option SegDrain := none
  deriving DecidableEq, Repr

/-! ### Traffic with hosts -/

/-- What an outstanding external access belongs to. -/
inductive Use where
  | arm (ring : Nat)
  | fetch (tile cls : Nat)
  | stateLine (ring : Nat)
  /-- A remote ring's descriptors (R282). -/
  | desc (ring : Nat)
  /-- The input of a post, read from a remote segment (R290). -/
  | stage (cmd : Nat)
  /-- What the front end reads of a remote segment for a command: a directory, image, blob or profile (R290). -/
  | oper (cmd : Nat)
  | record (ring cseq : Nat)
  | result (cmd : Nat)
  | faultCopy (part : Nat)
  | attach (cmd part : Nat)
  | event (src : Nat)
  | partner
  | other
  deriving DecidableEq, Repr

/-- An access of the device to host memory (by CXL.cache, R257), or a message of a queue pair
(R282), not yet accepted. Numbers rise in the order of issue; `id` is also the message number. -/
structure Xfer where
  id : Nat
  use : Use
  part : Nat
  /-- 0 write, 1 read, 2 SEND. -/
  kind : Nat := 0
  /-- The queue pair of a remote access. -/
  qp : Option Nat := none
  rkey : Nat := 0
  addr : Nat := 0
  len : Nat := 0
  data : Bytes := []
  poison : List Nat := []
  /-- Bytes handed to the port in packets (R279); a read's request counts as one. -/
  handed : Nat := 0
  accepted : Bool := false
  /-- Lines of a local write whose GO has arrived (R257). -/
  gone : Nat := 0
  /-- PSN of the first packet of a message, from its first sending on (R275). -/
  psn : Option Nat := none
  deriving DecidableEq, Repr

/-- Accesses in flight. -/
structure Io where
  next : Nat := 0
  out : List Xfer := []
  /-- Coded sheets in the beater's smoothing queue, and whether the link holds the next one (R214). -/
  smooth : Nat := 0
  smoothHeld : Bool := false
  deriving DecidableEq, Repr

/-- A checked window message that waits for the host's lines (R260, R287); a read with the PSN of its response. -/
inductive OpenAcc where
  | write (qp rkey addr : Nat) (data : Bytes)
  | read (qp rkey addr len psn : Nat)
  deriving DecidableEq, Repr

/-- A CXL.mem request of the host: a read of a host address, or a write of a line. -/
inductive MemReq where
  | read (addr : Nat)
  | write (addr : Nat) (data : Bytes) (poison : Bool)
  deriving DecidableEq, Repr

/-- The data object exchange's mailbox (R255): the words of the request written, those of the response not read yet. -/
structure Doe where
  req : List Word := []
  rsp : List Word := []
  deriving DecidableEq, Repr

/-- The host port (Tables 12.5, 12.3; R260, R264). -/
structure HostPort where
  /-- 0 DOWN, 1 TRAINING, 2 L0, 3 RECOVERY. -/
  link : Nat := 0
  speed : Nat := 0
  width : Nat := 0
  cxlOk : Bool := false
  /-- The link ran CXL when a host-port reset last took it down (R267). -/
  cxlWas : Bool := false
  /-- Base of the HDM decoder before that reset: writes whose data had arrived whole go by it. -/
  hdmWas : Nat := 0
  epoch : Nat := 0
  /-- MSI-X table: 4 words per vector by vector * 4 + word. -/
  msix : FMap Word := []
  /-- Pending vectors, each with a source that waits for it. -/
  pba : List (Nat × Nat) := []
  msixEnable : Bool := false
  msixMask : Bool := false
  /-- Messages sent: address and data, newest last. -/
  sent : List (Nat × Word) := []
  /-- Lines of open frames cached by the host, least recently granted first (R260). -/
  dir : List Nat := []
  /-- Back-invalidations issued and not answered: BISnpInv, and BISnpData. -/
  biWait : List Nat := []
  biData : List Nat := []
  /-- Tracked lines whose BISnpData has been answered: the host holds them shared. -/
  shared : List Nat := []
  /-- Window messages that wait for those answers, oldest first. -/
  waits : List OpenAcc := []
  /-- Every tracked line must be back-invalidated before the window serves again (R267). -/
  biPurge : Bool := false
  /-- CXL.mem requests that wait for that, oldest first. -/
  memQ : List MemReq := []
  /-- Stored words of the configuration space and of the CXL component registers (R255, R258), by bus address. -/
  cfg : FMap Word := []
  doe : Doe := {}
  deriving DecidableEq, Repr

/-! ### Events and telemetry -/

/-- An event source (Table 14.1). -/
structure Src where
  /-- 0 IDLE, 1 PENDING, 2 ACTIVE. -/
  st : Nat := 0
  count : Nat := 0
  timer : Nat := 0
  ownerErr : Bool := false
  routeErr : Bool := false
  /-- COUNT carried by the SEND in flight (R301). -/
  carried : Nat := 0
  /-- Host-port time of its last delivery, until it re-arms: events of that cycle are included in it (R299). -/
  sentAt : Option Nat := none
  deriving DecidableEq, Repr

/-- Event controller. -/
structure Evt where
  srcs : FMap Src := []
  /-- Signals delivered to the control cores: source, core, count. -/
  core : List (Nat × Nat × Nat) := []
  /-- Causes the control cores have received (R302), by bit; HOST_LINK_DOWN is bit 32. -/
  coreCause : Nat := 0
  deriving DecidableEq, Repr

/-- Telemetry block (Tables 14.5, 18.6). -/
structure Tel where
  id : Nat := 0
  bank : Bool := false
  inst : Nat := 0
  selErr : Bool := true
  /-- High word latched by CNT_LO. -/
  cntHi : Option Word := none
  /-- High words latched by low-word reads, by the low word's address (R304). -/
  hi : FMap Word := []
  busy : Bool := false
  seq : Nat := 0
  valid : Nat := 0
  hp : Nat := 0
  dom : FMap Nat := []
  snap : FMap DWord := []
  deriving DecidableEq, Repr

/-- The DBG block's own state (Table 18.9); its RW fields stand in `State.regs`. -/
structure Dbg where
  refused : Bool := false
  busy : Option (Nat × Nat × Nat) := none
  poisoned : Bool := false
  zeroed : Bool := false
  peekRefused : Bool := false
  keyHi : Word := 0
  data : Bytes := []
  deriving DecidableEq, Repr

/-- Answers of the block to its commander: the word a read returned, and the bytes a mailbox or
management request returned (assumption 4, DESIGN CHOICE). -/
structure Bus where
  rdata : Word := 0
  resp : Bytes := []
  deriving DecidableEq, Repr

/-- Fuses and the store (R1, R3, R339). -/
structure Fuse where
  order : Bytes := []
  tileMask : Nat := 0
  serial : Nat := 0
  svn : Nat := 0
  rootHash : Nat := 0
  feed : Nat := 0
  deriving DecidableEq, Repr

/-! ### The ream and its posts -/

/-- A record of a ream image (R27): TYPE, INDEX and payload. -/
structure Rec where
  type : Nat
  index : Nat
  body : Bytes
  /-- The payload as stored, where it is coded (R211). -/
  coded : Bytes := []
  deriving DecidableEq, Repr

/-- A record in the ream's tier-1 copy (R38): its first sheet there, and the bytes kept; coded WEIGHTS are kept coded
(R211). -/
structure CopyRec where
  type : Nat
  index : Nat
  sheet : Nat
  len : Nat
  deriving DecidableEq, Repr

/-- A resident version of the ream (R55): its number and its PROGRAM, WEIGHTS, CONST records. -/
structure Ver where
  num : Nat := 0
  recs : List Rec := []
  /-- Layers its PROGRAM records rearm (R114). -/
  rearm : List Nat := []
  /-- The tile its stage move gave the slice to (R58). -/
  target : Option Nat := none
  /-- Where its records lie in the tier-1 copy (R38, R55). -/
  copy : List CopyRec := []
  deriving DecidableEq, Repr

/-- A ream command in progress (R36). `kind`: 0 load, 1 patch, 2 unload. -/
structure ReamJob where
  cmd : Nat
  kind : Nat
  hdr : Bytes := []
  recs : List Rec := []
  /-- A patch's own records, and the payload of its MOVE record. -/
  own : List Rec := []
  move : Option Bytes := none
  /-- Where the patch's records lie in the tier-1 copy (R55). -/
  copy : List CopyRec := []
  /-- SM3 of the image as supplied (R342). -/
  digest : Bytes := []
  /-- Unload: admission has been closed (R39). -/
  closed : Bool := false
  /-- Load: the ream's reserved tier-0 MiB per tile (R240). -/
  reserve : Nat := 0
  deriving DecidableEq, Repr

/-- A stage move that has switched (R58): stage, source, target, and the interval boundaries left before
the source is zeroed. -/
structure Move where
  stage : Nat
  source : Nat
  target : Nat
  wait : Nat := 0
  deriving DecidableEq, Repr

/-- One list of a post's directory (Table 10.8): its offset in the body as stored, and in the
staged buffer set (R382). -/
structure PList where
  table : Nat
  kind : Nat
  entries : Nat
  srcOff : Nat
  off : Nat
  size : Nat
  deriving DecidableEq, Repr

/-- A post, from passing the front end's checks to its completion record (R42 to R50). -/
structure Post where
  ring : Nat
  seq : Nat
  part : Nat
  q : Nat
  lists : List PList := []
  denseLen : Nat := 0
  /-- 0 waiting for a buffer set, 1 staging, 2 admission-ready, 3 admitted. -/
  phase : Nat := 0
  /-- Buffer set it holds, from the start of its staging (R382). -/
  set : Nat := 0
  /-- Stored body, raw staged body, and poisoned sheets of the set (R383). -/
  body : Bytes := []
  poison : List Nat := []
  /-- Raw dense bytes decoded so far by SEQ offset (R214). -/
  decoded : FMap Bytes := []
  readyFelt : Nat := 0
  readyHp : Nat := 0
  /-- Control-core time at which it became ready, for ADMIT_WAIT. -/
  readyCc : Nat := 0
  /-- Input seal record (R207), and bytes of the coded stream consumed by block decodes (R214). -/
  sealRec : Bytes := []
  codedPos : Nat := 0
  /-- Start of its bound (R47). -/
  start : Nat := 0
  version : Nat := 0
  profile : Nat := 0
  bound : Nat := 0
  /-- UPD_STEP taken (R152). -/
  step : Option Nat := none
  /-- Reservation W of an update post (R165). -/
  reserve : Nat := 0
  /-- Escalation vector, and the place in admission order (R111, R69). -/
  esc : Word := 0
  order : Nat := 0
  /-- Stage it is in, and interval boundaries left in its residency. -/
  stage : Nat := 0
  left : Nat := 0
  /-- Interval boundaries since its last residency ended (R333). -/
  past : Nat := 0
  /-- Failing status, 0 while it stands. -/
  fail : Nat := 0
  /-- Completion flags (Table 10.11). -/
  flags : Nat := 0
  emergency : Bool := false
  /-- 0 no commit, 1 waiting for reports, 2 go, 3 abandoned (R153, R154). -/
  commit : Nat := 0
  /-- Tables that have counted the post in GATHER_OVER (R145). -/
  exceeded : List Nat := []
  /-- Lists a DISPATCH (kind 0) or GRAD_DISPATCH (kind 1) has sent: table * 2 + kind (R384). -/
  ran : List Nat := []
  /-- Host-port time of the finish (R47). -/
  finish : Option Nat := none
  /-- Plain results waiting for the encryptor, byte by byte (R208). -/
  sealBuf : FMap Byte := []
  /-- Result sheets among them that are delivered with poison (R311). -/
  sealBad : List Nat := []
  /-- Result bytes handed to the host port, a MAC group or the encryptor (R235): length by offset. -/
  handed : FMap Nat := []
  /-- The buffer set of a tile that a PUT to SEG 8 has changed: its bytes and poisoned sheets
  (R83, R382); every other tile's set holds `body` and `poison`. -/
  bufs : FMap (Bytes × List Nat) := []
  /-- A result write was dropped (R221, R267). -/
  dropped : Bool := false
  /-- Host-port time of its ring timeout, for the hang of R236. -/
  endedAt : Option Nat := none
  deriving DecidableEq, Repr

/-- A tile's QN and QS counts of a post, by layer (R112). -/
structure EscRep where
  tile : Nat
  post : Nat
  version : Nat
  qn : FMap Nat
  qs : FMap Nat
  deriving DecidableEq, Repr

/-- What the controller has summed for a post: the tiles that have reported, the counts, and the
layers decided (R112). -/
structure EscSum where
  version : Nat
  tiles : List Nat := []
  qn : FMap Nat := []
  qs : FMap Nat := []
  decided : List Nat := []
  deriving DecidableEq, Repr

/-- The resident ream and the admission controller (chapter 2). -/
structure Ream where
  resident : Bool := false
  sealed : Bool := false
  owner : Nat := 0
  hdr : Bytes := []
  /-- FELT_SLOTS, T0_SLOTS, T1_SLOTS, STAGE, TABLE and GRANT records in force. -/
  recs : List Rec := []
  mode : Nat := 0
  act : Ver := {}
  old : Option Ver := none
  job : Option ReamJob := none
  /-- REAM_UNLOAD commands that wait for the command in progress (R36). -/
  unloads : List Nat := []
  /-- MODE and GRANT waiting for their boundary (R44, R53). -/
  modeNext : Option Nat := none
  grantNext : Option Rec := none
  moves : List Move := []
  epochs : FMap Nat := []
  /-- The vector every tile's ESC_STATE shows (R111). -/
  esc : Word := 0
  /-- Reports on their way to the admission controller, their sums by post, and the decisions that
  wait for the next sweep boundary: layer, the post while it has not completed, version (R112). -/
  escMsgs : List EscRep := []
  escSums : FMap EscSum := []
  escPend : List (Nat × Option Nat × Nat) := []
  /-- REAM_DEGRADED and WEIGHTS_LOST (R312). -/
  degraded : Bool := false
  weightsLost : Bool := false
  rejectInfo : Nat := 0
  sweeps : Nat := 0
  /-- Felt time of the last sweep boundary (R333). -/
  sweepAt : Nat := 0
  interval : Nat := 0
  half : Bool := false
  /-- The ream's felt slot table is in force, not the base table (R13). -/
  ownTable : Bool := false
  admission : Bool := false
  slotDone : Bool := false
  lastPooled : Nat := 15
  skipN : Nat := 0
  skipNext : Nat := 0
  /-- Admission-ready posts in the order they became ready (R42). -/
  queue : List Nat := []
  /-- Host-port time of receipt of each partition's last admission notice (R47). -/
  lastAdmit : FMap Nat := []
  reserve : Nat := 0
  idle : FMap Nat := []
  updStep : Nat := 0
  /-- A step has been given since the ream was loaded (R164). -/
  stepped : Bool := false
  /-- Posts admitted so far. -/
  admitted : Nat := 0
  deriving DecidableEq, Repr

/-! ### Tenant keys and the network -/

/-- A tenant key slot (Table 9.2). -/
structure Slot where
  loaded : Bool := false
  alg : Nat := 0
  keyId : Bytes := []
  ingestKey : Bytes := []
  outputKey : Bytes := []
  salt : Bytes := []
  outCtr : Nat := 0
  bound : Nat := 0
  /-- A KEY_ERASE waits for these commands (R200). -/
  erase : Option (Nat × List Nat) := none
  /-- The KEY_INSTALL whose blob is being unwrapped (R199). -/
  unwrap : Option (Nat × Bytes) := none
  deriving DecidableEq, Repr

/-- A window entry (Table 13.5). -/
structure Win where
  part : Nat
  seg : Nat
  rights : Nat
  tag : Nat
  va : Nat
  off : Nat
  len : Nat
  /-- A doorbell window (R283). -/
  doorbell : Bool := false
  /-- Commands that wait for its last message: it refuses new ones (R289). -/
  closing : List Nat := []
  deriving DecidableEq, Repr

/-- A response to an inbound READ that is not sent yet (R279, R287): the window read, the PSN of its next packet, its
data; or the negative acknowledgement that ends it. -/
structure Resp where
  win : Nat
  psn : Nat := 0
  data : Bytes := []
  nak : Bool := false
  deriving DecidableEq, Repr

/-- A packet handed to a port (R275, R276): its kind (0 CNP, 1 NAK Remote Access Error, 2 NAK Invalid Request, 3 NAK
Remote Operational Error, 4 ACK, 5 of a message, 6 READ response, 7 NAK PSN Sequence Error), the addresses, UDP source
port, DSCP, ECN and PSN it carries; `lost` on a link that is not UP (R292). -/
structure Packet where
  qp : Nat
  kind : Nat
  port : Nat
  srcMac : Nat
  ipv6 : Bool
  srcIp : Nat
  dstMac : Nat
  dstIp : Nat
  destQpn : Nat
  udp : Nat
  dscp : Nat
  ecn : Nat := 2
  psn : Nat
  lost : Bool
  deriving DecidableEq, Repr

/-- A queue pair (Table 13.3). `ctx` holds the stored context words, `lat` those in force since
CONNECT. -/
structure Qp where
  /-- 0 RESET, 1 RTS, 2 ERROR. -/
  st : Nat := 0
  err : Nat := 0
  ctx : FMap Word := []
  lat : FMap Word := []
  /-- The oldest PSN that is not acknowledged, once one is (R275). -/
  una : Option Nat := none
  /-- Retransmissions of that PSN, and RNR retries (R278). -/
  retries : Nat := 0
  rnr : Nat := 0
  rnrWait : Bool := false
  retrans : Word := 0
  rate : Nat := 0
  step : Nat := 0
  quiet : Nat := 0
  lastCut : Option Nat := none
  cnpSeen : Bool := false
  cnpSent : Option Nat := none
  /-- Responses to inbound READs not yet sent, oldest first. -/
  resp : List Resp := []
  /-- The next PSN sent, and the next one expected (R275). -/
  sqPsn : Nat := 0
  rqPsn : Nat := 0
  /-- MAC-group time from which its rate allows another packet (R279, R281). -/
  nextAt : Nat := 0
  deriving DecidableEq, Repr

/-- A port, by its first lane (Table 13.2). -/
structure Port where
  enabled : Bool := false
  lat : FMap Word := []
  /-- 0 DOWN, 1 TRAINING, 2 UP (Table 13.2). -/
  link : Nat := 0
  /-- Queue pair that sent last (R279). -/
  rr : Nat := 4095
  deriving DecidableEq, Repr

/-- The network ports (chapter 13). -/
structure Net where
  /-- Latched mode of each MAC group (R274). -/
  modes : FMap Nat := []
  modeErr : Nat := 0
  ports : FMap Port := []
  cmdErr : Nat := 0
  qps : FMap Qp := []
  /-- Windows by queue pair * 16 + window. -/
  wins : FMap Win := []
  /-- Packets handed to the ports, newest last. -/
  sent : List Packet := []
  /-- Bytes in the receive buffer of each MAC group (R280). -/
  rxFill : FMap Nat := []
  /-- Groups whose connector has no cable seated: CBL_PRSNT_N is high (R353). -/
  noCable : List Nat := []
  deriving DecidableEq, Repr

/-! ### Tiles (chapters 3 and 5) -/

/-- A deckle frame (R79). -/
structure Frame where
  rows : Nat := 256
  cols : Nat := 256
  depth : Nat := 256
  deriving DecidableEq, Repr

/-- A post context of a tile's sequencer (R65). -/
structure Ctx where
  /-- Key of the post's command; none for a test program (R379). -/
  post : Option Nat
  version : Nat := 0
  pc : Nat := 0
  /-- Bit i: flag Fi is FULL. -/
  flags : Nat := 0
  frames : FMap Frame := []
  /-- Parked by a transfer that faulted (R71). -/
  parked : Bool := false
  /-- END has issued. -/
  ending : Bool := false
  /-- The post is marked failed here: nothing but END issues (R65). -/
  failed : Bool := false
  esc : Word := 0
  order : Nat := 0
  /-- QN and QS counts by layer (R112). -/
  qn : FMap Nat := []
  qs : FMap Nat := []
  /-- ACC_SAT: additions of its fills that saturated (R93). -/
  accSat : Nat := 0
  deriving DecidableEq, Repr

/-- A weight block in the array's registers (R77): what names it, its bytes and its poison. -/
structure WBlock where
  line : Nat
  mode : Nat
  version : Nat
  data : Bytes
  poison : Bool
  deriving DecidableEq, Repr

/-- A FILL in the array's queue (R77): its context and instruction word. -/
structure FillJob where
  ctx : Nat
  word : Bytes
  version : Nat := 0
  frame : Frame := {}
  started : Bool := false
  deriving DecidableEq, Repr

/-- An accumulator bank (R74): 0 FREE, 1 HELD, 2 COMPLETE; its context; rows of 256 entries, a
missing row reading as zero. -/
structure Bank where
  st : Nat := 0
  ctx : Nat := 0
  rows : FMap (List Word) := []
  deriving DecidableEq, Repr

/-- A write of a vector instruction on its way to the scratchpad (R125): the row of the frame it belongs to, its byte
address and bytes; of an odd last 4-bit element the upper half stays; a whole line clears its mark. -/
structure VecOut where
  row : Nat
  addr : Nat
  data : Bytes
  odd : Bool := false
  whole : Bool := false
  deriving DecidableEq, Repr

/-- An issued vector instruction that has not signalled completion (R124): whether its rows have been read, and what of
them has not been written. -/
structure VecJob where
  ctx : Nat
  word : Bytes
  frame : Frame := {}
  read : Bool := false
  out : List VecOut := []
  deriving DecidableEq, Repr

/-- A transfer in a class queue (R84): FETCH or PUT by its word. -/
structure XferJob where
  ctx : Nat
  post : Option Nat
  word : Bytes
  frame : Frame := {}
  /-- Its messages have been issued: a remote FETCH's reads, or a PUT's sheets, which have left the
  scratchpad and wait for acceptance. -/
  sent : Bool := false
  /-- Their numbers. -/
  ids : List Nat := []
  /-- Sheets of a remote FETCH that the sheet cache served, with their marks (R185). -/
  cached : FMap (Bytes × Bool) := []
  deriving DecidableEq, Repr

/-- A DISPATCH, COMBINE or GRAD_DISPATCH under way (R136, R140, R151). -/
structure GatherOp where
  ctx : Nat
  post : Nat
  word : Bytes
  frame : Frame := {}
  /-- COMBINE: end markers that have arrived, as component table * 128 + source tile. -/
  ends : List Nat := []
  /-- Numbers of its messages. -/
  ids : List Nat := []
  deriving DecidableEq, Repr

/-- A STREAM under way (R89, R379): its context, its word, the depth and columns of its frame (R81), the rows left, the
row number it takes next, and whether the array is frozen. -/
structure StreamJob where
  ctx : Option Nat
  word : Bytes
  depth : Nat := 512
  cols : Nat := 256
  left : Nat
  row : Nat := 0
  frozen : Bool := false
  deriving DecidableEq, Repr

/-- One tile. -/
structure Tile where
  /-- 0 STARTUP, 1 SERVING, 2 GATED, 3 RECOVERY, 4 TEST (Table 3.11). -/
  st : Nat := 0
  ctxs : FMap Ctx := []
  fills : List FillJob := []
  active : Option WBlock := none
  inactive : Option WBlock := none
  banks : FMap Bank := []
  vec : List VecJob := []
  xq : FMap (List XferJob) := []
  gops : List GatherOp := []
  stream : Option StreamJob := none
  /-- Arrivals landed for a post that has not yet issued its FETCH: post, source tile, line, sheets
  (R87). -/
  landed : List (Nat × Nat × Nat × Nat) := []
  /-- Lines of a test program's rings that are FULL (R379). -/
  full : List Nat := []
  streamKey : DWord := 0
  /-- The test program of RUN (R379), in the PROGRAM payload layout. -/
  test : Option Bytes := none
  /-- Calender pass: next pattern, cycle of the last slice, a slice running (R307, R315). -/
  pattern : Nat := 0
  sliceAt : Nat := 0
  slice : Bool := false
  /-- SWEEP_COUNT at the slice's start (R317). -/
  sliceSweep : Nat := 0
  /-- A calender round has begun and not ended (R316). -/
  round : Bool := false
  /-- Weight lines found poisoned, waiting for RECOVERY (R312). -/
  badLines : List Nat := []
  deriving DecidableEq, Repr

/-- A message on the felt or the die-to-die link (R31, R87, R136 to R153), in order sent. -/
inductive Msg where
  /-- Sheets of a PUT in class FELT: post (none from a test program), first line, sheets, placement
  epoch, the byte runs the frame lets through by offset, poisoned sheets. -/
  | sheets (post : Option Nat) (line n epoch : Nat) (runs : List (Nat × Bytes)) (poison : List Nat)
  /-- An index entry: table, query, local row, weight (R136). -/
  | entry (post table q loc : Nat) (weight : Word)
  | gatherEnd (post table : Nat)
  /-- A partial pooled vector: table, query, poison (R139). -/
  | partials (post table q : Nat) (v : List Word) (poison : Bool)
  | combineEnd (post table : Nat)
  | overMark (post table : Nat)
  /-- A gradient for a local row (R151). -/
  | grad (post table loc : Nat) (data : Bytes) (poison : Bool)
  | updateEnd (post table : Nat) (scale : Word)
  deriving DecidableEq, Repr

/-- A message in flight between two tiles. -/
structure Flight where
  id : Nat
  src : Nat
  dst : Nat
  msg : Msg
  deriving DecidableEq, Repr

/-! ### Lookups, updates, migration (chapters 6 and 7) -/

/-- A row read in progress: its local row, and the flat address of the copy it was resolved to
(R160). -/
structure GRead where
  loc : Nat
  addr : Nat
  deriving DecidableEq, Repr

/-- A gather unit's work on one table for one post (R137, R139): weights by local row and query, the
rows in order of arrival, reads in progress, partial vectors by query and those poisoned. -/
structure GWork where
  tile : Nat
  post : Nat
  table : Nat
  rows : FMap (FMap Word) := []
  order : List Nat := []
  ended : Bool := false
  /-- It met a row past its budget and stopped (R145). -/
  exceeded : Bool := false
  reading : List GRead := []
  part : FMap (List Word) := []
  bad : List Nat := []
  deriving DecidableEq, Repr

/-- A gather unit's work on one table for one update step (R153): summed gradients by local row, the
rows in order of first arrival, the new rows. `report`: 0 none, 1 ready, 2 over, 3 poison; `up`: the
admission controller has it. -/
structure UWork where
  tile : Nat
  post : Nat
  table : Nat
  rows : FMap (List Word) := []
  /-- Rows with a poisoned gradient sheet. -/
  bad : List Nat := []
  order : List Nat := []
  scale : Word := 0
  ended : Bool := false
  started : Bool := false
  report : Nat := 0
  up : Bool := false
  new : FMap Bytes := []
  /-- Bytes the report gives: new rows that were not dirty (R165). -/
  bytes : Nat := 0
  sat : Nat := 0
  rescaled : Nat := 0
  deriving DecidableEq, Repr

/-- A row's entry in a shard's hot-row directory (Table 7.4): 1 MOVING_IN, 2 RESIDENT, 3 MOVING_OUT,
4 RELEASING; of a move, its phase (0 copy, 1 catch-up, 2 synced) and logged updates (R160); of a flip,
the sweep count at it. A PINNED row has an entry while its home is stale. -/
structure DirEnt where
  st : Nat := 2
  stale : Bool := false
  place : Nat := 0
  phase : Nat := 0
  log : Nat := 0
  flipped : Nat := 0
  held : Bool := false
  deriving DecidableEq, Repr

/-- Gather units, directories and dirty rows. -/
structure Gather where
  works : List GWork := []
  uworks : List UWork := []
  /-- Directories by tile * 1024 + table, entries by local row. -/
  dirs : FMap (FMap DirEnt) := []
  /-- Distinct cold rows of a post and table on a controller, for lookups and for updates: post,
  table, controller, count (R145, R153). -/
  cold : List (Nat × Nat × Nat × Nat) := []
  ucold : List (Nat × Nat × Nat × Nat) := []
  /-- End markers that have met a COMBINE of their post, as component table * 128 + source tile, by post (R140). -/
  ends : FMap (List Nat) := []
  /-- COMBINEs that have issued: post, table, block (R141). -/
  combined : List (Nat × Nat × Nat) := []
  /-- Dirty rows (see `rowKey`) and the step that last wrote each (R165). -/
  dirty : FMap Nat := []
  /-- Rows changed since they were last appended to the vault log: the first step that did (R319). -/
  since : FMap Nat := []
  /-- Position of stream 1 of each tile at step `stepBase` (R156). -/
  rngBase : FMap Nat := []
  stepBase : Nat := 0
  /-- Moves started by each shard tile since the last sweep boundary (Table 7.6). -/
  moves : FMap Nat := []
  /-- Flips that no FLIP record holds yet: table, tile, local row, new state (R319). -/
  flips : List (Nat × Nat × Nat × Nat) := []
  /-- DIRTY_PEAK (Table 7.8). -/
  dirtyPeak : Nat := 0
  deriving DecidableEq, Repr

/-! ### Memory tiers (chapter 8) -/

/-- One tier-1 group (R183): 0 HEALTHY, 1 EXPOSED, 2 FAILED; the packages marked lost, first first. -/
structure T1Group where
  st : Nat := 0
  lost : List Nat := []
  deriving DecidableEq, Repr

/-- T0_THERM of a channel group (Table 8.6); `dies` the last reading of each DRAM die. -/
structure Therm where
  temp : Nat := 0
  st : Nat := 0
  peak : Nat := 0
  dies : FMap Nat := []
  deriving DecidableEq, Repr

/-- What a sheet-cache line holds (R185). -/
inductive CKey where
  | t1 (sheet : Nat)
  | net (post seg sheet : Nat)
  deriving DecidableEq, Repr

/-- A set of the sheet cache: its 16 ways and its replacement tree (R185). -/
structure CacheSet where
  ways : FMap CKey := []
  tree : Nat := 0
  deriving DecidableEq, Repr

/-- State of the memory tiers beside their contents. -/
structure Tiers where
  t1 : FMap T1Group := []
  therm : FMap Therm := []
  t0Lag : Bool := false
  t1Lag : Bool := false
  /-- Corrected sheets waiting to be written back: how many, by tile (R189). -/
  wb : FMap Nat := []
  cache : FMap CacheSet := []
  /-- Data and mark of the cached network sheets (R185). -/
  net : List (CKey × Bytes × Bool) := []
  /-- The key tier-1 is encrypted with (R180). -/
  t1Key : Nat := 0
  /-- Interleave keys by channel group (R170). -/
  intKey : FMap Word := []
  deriving DecidableEq, Repr

/-! ### Power, cooling and the module (chapter 17) -/

/-- The hold-up bank (R362 to R364): voltage in 10 mV, capacitance in mF, ESR in mOhm; `st` 0 CHARGING,
1 READY, 2 LOW, 3 FAILED. -/
structure HoldUp where
  st : Nat := 0
  volts : Nat := 0
  cap : Nat := 0
  esr : Nat := 0
  test : Bool := false
  joule : Nat := 0
  /-- DIRTY_IN_FORCE in GiB (R363). -/
  force : Nat := 0
  /-- V has reached 53.5 V since the cold reset. -/
  reached : Bool := false
  /-- A health test has failed, or the charger or the temperature has. -/
  failed : Bool := false
  deriving DecidableEq, Repr

/-- The power and management controller, with the module's pins. -/
structure Pwr where
  /-- PSTATE (Table 17.4); 0 OFF. -/
  st : Nat := 3
  /-- Causes that hold, first declared first (R366): 1 POWER_OVER, 2 T0_THROTTLE, 3 DIE_HOT, 4 COOLANT,
  5 REG_HOT. -/
  emerg : List Nat := []
  /-- TCLK of each group in MHz; 0 gated. -/
  tclk : FMap Nat := []
  /-- TCLK a group held when the emergency was declared (R385). -/
  held : FMap Nat := []
  /-- Groups that an emergency has taken below 640 MHz, and whose climb back is not over (R385). -/
  fell : List Nat := []
  /-- The last comparison asks a group to go below 640 MHz to meet the power cap (R51). -/
  wantLow : Bool := false
  /-- Groups awake, and those whose ramp has ended and that are not usable yet (R361). -/
  awake : List Nat := []
  ramped : List Nat := []
  /-- Requests of the wake governor in order: group, wake. -/
  queue : List (Nat × Bool) := []
  /-- Cycle of the controller's clock of a group's last request to wake; and of its gating, with the TCLK it had (R361). -/
  asked : FMap Nat := []
  gated : FMap (Nat × Nat) := []
  /-- Writes of ATTACH held until the last row of Table 15.10 (R332), oldest first. -/
  attach : List Nat := []
  vin : Nat := 0
  iin : Nat := 0
  pAvg : Nat := 0
  pPeak : Nat := 0
  /-- Comparisons in a row (R359): above the cap with every group at its floor, and at or below 97 %. -/
  exceeded : Nat := 0
  under : Nat := 0
  /-- Input samples in a row below 36 V, below 38 V, above 52 V, above 90 A (R355, Table 17.7). -/
  low : Nat := 0
  brown : Nat := 0
  high : Nat := 0
  amps : Nat := 0
  /-- Coolant readings in a row past each threshold: inlet, outlet, low flow, trip flow. -/
  inletHot : Nat := 0
  outletHot : Nat := 0
  flowLow : Nat := 0
  flowTrip : Nat := 0
  inlet : Nat := 0
  outlet : Nat := 0
  flow : Nat := 0
  demand : Nat := 25
  /-- Last readings: C-die by tile, P-die by sensor, regulators. -/
  cdie : FMap Nat := []
  pdie : FMap Nat := []
  regs : FMap Nat := []
  /-- Hottest C-die or DRAM reading at the last COOLANT step, and the comparisons since. -/
  coolLast : Nat := 0
  coolTick : Nat := 0
  /-- Sensors past an emergency threshold that have not come back to its exit value: tiles, 72 + P-die
  sensor, 76 + regulator, 100 coolant inlet, 101 flow. -/
  hot : List Nat := []
  bank : HoldUp := {}
  flushCause : Nat := 0
  /-- The flush has made FLUSH_END durable. -/
  flushed : Bool := false
  /-- Pins: MOD_RESET_N low, THERM_TRIP_N asserted, PERST_N low. -/
  modLow : Bool := false
  trip : Bool := false
  perst : Bool := false
  /-- Strapped address selector (R354). -/
  addrSel : Nat := 0
  deriving DecidableEq, Repr

/-- The management endpoint (R368, R369). Waiting PLDM events: sensor and value, oldest first.
Assumption 10, DESIGN CHOICE. -/
structure Mgmt where
  eid : Nat := 0
  tid : Nat := 0
  receiver : Option Nat := none
  events : List (Nat × Nat) := []
  deriving DecidableEq, Repr

/-! ### The vault log, the partner, health (chapter 15) -/

/-- A record of the vault log (Tables 15.3 and 15.4). -/
structure VRec where
  kind : Nat
  /-- Flash address of its first 4 KiB unit (R188, R318). -/
  unit : Nat := 0
  /-- 0 this module; 1 a replica, under its sender's serial. -/
  source : Nat := 0
  serial : Nat := 0
  table : Nat := 0xFFFF
  lsn : Nat := 0
  step : Nat := 0
  boot : Nat := 0
  /-- TABLE_ID of the ream it was formed under; empty in a replica. -/
  ream : Bytes := []
  /-- KEY_ID of the slot a sealed record of this module was sealed under. -/
  keyId : Bytes := []
  salt : Bytes := []
  iv : Bytes := []
  body : Bytes := []
  poison : Bool := false
  durable : Bool := false
  /-- Rows of a ROWS record of this module: row key, and the step that last wrote it when it was read. -/
  keys : List (Nat × Nat) := []
  deriving DecidableEq, Repr

/-- The vault: its log oldest first, erase blocks retired, and its condition (Table 8.11). -/
structure Vault where
  log : List VRec := []
  lsn : Nat := 0
  /-- The unit at the head of the log region (R186). -/
  next : Nat := 0
  /-- Appends that wait, by kind and table of their first record (R319), and STATE records that wait. -/
  waits : List Nat := []
  held : List VRec := []
  /-- Erased bytes ahead of the head, none until the vault is mounted; erases done, and blocks retired
  (R187). -/
  erased : Option Nat := none
  cycles : Nat := 0
  retired : Nat := 0
  st : Nat := 0
  /-- Rows of the base pass under way that have been appended, by row key; none between passes. -/
  base : Option (List Nat) := none
  /-- Last step for which a STEP record has been appended; none before the first. -/
  step : Option Nat := none
  deriving DecidableEq, Repr

/-- A partner pairing (R322, R323). -/
structure Pair where
  qp : Nat
  part : Nat
  /-- The PARTNER_PAIR that waits for the HELLO's answer. -/
  cmd : Option Nat := none
  securing : Nat := 0
  /-- The HELLO has been answered: the fields below it are the peer's. -/
  known : Bool := false
  /-- ACTIVE; an inactive stream is stalled (R291). -/
  active : Bool := false
  serial : Nat := 0
  feed : Nat := 0
  boot : Nat := 0
  /-- Last acknowledged step and LSN; none before the first ACK. -/
  acked : Option (Nat × Nat) := none
  /-- SENDER: next LSN to send. RECEIVER: bytes received. -/
  next : Nat := 0
  /-- Free intake bytes: as the last ACK gave them, less what has been sent since the record it acknowledges, or of this
  module's own intake. -/
  free : Nat := 0
  /-- RECEIVER: records that have arrived and are not in the vault log, oldest first, and which of them lie in the
  intake. -/
  inbox : List (Bytes × Bool) := []
  /-- RECEIVER: the intake's segment, offset and length. -/
  seg : Nat := 0
  off : Nat := 0
  len : Nat := 0
  deriving DecidableEq, Repr

/-- A running TABLE_COMMIT or CHECKPOINT (R164, R326): its command, C (none: all ones). -/
structure Commit where
  cmd : Nat
  check : Bool
  c : Option Nat
  deriving DecidableEq, Repr

/-- Reliability state (Table 15.13). -/
structure Rel where
  cause : Nat := 0
  stuck : Bool := false
  seq : Nat := 0
  /-- Flit slots gone by in each direction, in eighths; the slot of the last replay in each, and a retrain that is due
  (R16). -/
  d2dAt : FMap Nat := []
  d2dLast : FMap Nat := []
  d2dDue : Bool := false
  /-- Host-port times of the device resets of the last 10 s (R335). -/
  times : List Nat := []
  boots : Nat := 1
  restoring : Bool := false
  suspect : Nat := 0
  suspSweep : FMap Nat := []
  /-- Sweep at the start of the last slice in which a pattern passed: tile * 4096 + pattern (R317). -/
  passed : FMap Nat := []
  packId : Nat := 0
  /-- Patterns of the active pack, and each tile's pack where it is not the active one yet (R316). -/
  packLen : Nat := 64
  packOf : FMap (Nat × Nat) := []
  plog : FMap (List Word) := []
  plogProd : Nat := 0
  vault : Vault := {}
  sender : Option Pair := none
  receiver : Option Pair := none
  /-- Last LSN that a partner has acknowledged, kept when a pairing ends (R322). -/
  ackLsn : Option Nat := none
  commit : Option Commit := none
  /-- A RESTORE that has replayed and waits for the sweep boundary: command, RESULT, flags. -/
  restore : Option (Nat × Nat × Nat) := none
  deriving DecidableEq, Repr

/-! ### Ingest (chapter 9) and the security processor (chapter 16) -/

/-- An INGEST under way (R203): 0 decrypting, 1 shingling. -/
structure Ingest where
  stage : Nat := 0
  /-- Envelope header and additional data, as checked. -/
  head : Bytes := []
  len : Nat := 0
  /-- The shingler profile named, as it stood at fetch (R204). -/
  profile : Option Bytes := none
  deriving DecidableEq, Repr

/-- The security processor: its mailbox, bundle slots, measurements (Tables 16.2, 16.5). -/
structure Sec where
  busy : Bool := false
  collide : Bool := false
  /-- Command code running, 0 none; its outcome once it has run: status and output. -/
  code : Nat := 0
  result : Option (Nat × Bytes) := none
  status : Nat := 0
  out : Bytes := []
  bootSlot : Nat := 0
  isPending : Bool := false
  fallback : Bool := false
  /-- The image a long command has read and will write. -/
  img : Bytes := []
  /-- Bundle slots A and B, and the installed pack; empty where there is none, but in slot A for the
  bundle of manufacture (assumption 5, DESIGN CHOICE). -/
  slotA : Bytes := []
  slotB : Bytes := []
  pack : Bytes := []
  /-- The key the vault is encrypted with, kept over every reset (R188). -/
  vaultKey : Nat := 0
  /-- The device private key, in the non-volatile store, kept over every reset (R338; assumption 7, DESIGN CHOICE). -/
  deviceKey : Nat := 1
  /-- MR0 to MR7, the log of extends, entries appended, and an extend found it full. -/
  mrs : FMap Bytes := []
  log : List Bytes := []
  logTrunc : Bool := false
  testSeen : Bool := false
  /-- Accepted KEY_INSTALLs in acceptance order, by command (R347). -/
  unwraps : List Nat := []
  unwrapReason : Nat := 0
  unwrapSlot : Nat := 0
  deriving DecidableEq, Repr

/-! ### The machine -/

/-- The whole block. -/
structure State where
  /-- Waiting commands, first in, first out. -/
  pending : List Instr
  /-- Draws of free values made so far (assumption 3, DESIGN CHOICE). -/
  free : Nat
  fuse : Fuse
  bus : Bus
  mem : Memory
  /-- Cycle counters of the 40 clock domains (R21, R305), by domain. -/
  clk : FMap Nat
  /-- TEL counters by ID * 4096 + INSTANCE (R377). -/
  ctr : FMap DWord
  tel : Tel
  /-- Stored words of the RW and RWL fields of the setup space, by address (R371). -/
  regs : FMap Word
  parts : FMap Part
  fe : Front
  io : Io
  hp : HostPort
  evt : Evt
  dbg : Dbg
  ream : Ream
  posts : FMap Post
  net : Net
  slots : FMap Slot
  tiles : FMap Tile
  /-- Messages in flight, oldest first. -/
  felt : List Flight
  tiers : Tiers
  gat : Gather
  pwr : Pwr
  mgmt : Mgmt
  rel : Rel
  /-- INGEST commands under way, by command. -/
  ingests : FMap Ingest
  sec : Sec
  deriving DecidableEq, Repr

/-- The fuses and the store of the module this model stands for: a YN8-72L (assumption 5, DESIGN CHOICE). -/
def Fuse.reset : Fuse :=
  { order := [0x59#8, 0x4E#8, 0x38#8, 0x2D#8, 0x37#8, 0x32#8, 0x4C#8, 0#8]
    tileMask := 2 ^ 72 - 1, serial := 1 }

/-- The block right after a cold reset. Assumption 7, DESIGN CHOICE. Assumption 9, DEDUCED.
Assumption 110, DEDUCED. -/
def State.reset : State :=
  { pending := [], free := 0, fuse := Fuse.reset, bus := {}, mem := {}, clk := [], ctr := [], tel := {}
    regs := [], parts := [], fe := {}, io := {}, hp := {}, evt := {}, dbg := {}, ream := {}
    posts := [], net := {}, slots := [], tiles := [], felt := [], tiers := {}, gat := {}, pwr := {}
    mgmt := {}, rel := {}, ingests := [], sec := {} }

end Sys2Proof.Machine
end

