-- ==== Sys2Proof/Machine/Ops.lean ====
section
/-! DEFINITION. The shared operations: reading and changing the tables of the state, counters, free
values, traffic with hosts, events and causes, and a command's completion. -/

namespace Sys2Proof.Machine

/-! ### Tables of the state -/

def State.ring (s : State) (r : Nat) : Ring := FMap.get s.fe.rings r {}
def State.setRing (s : State) (r : Nat) (v : Ring) : State :=
  { s with fe := { s.fe with rings := FMap.set s.fe.rings r v } }
def State.modRing (s : State) (r : Nat) (f : Ring → Ring) : State := s.setRing r (f (s.ring r))

def State.part (s : State) (p : Nat) : Part := FMap.get s.parts p {}
def State.setPart (s : State) (p : Nat) (v : Part) : State :=
  { s with parts := FMap.set s.parts p v }
def State.modPart (s : State) (p : Nat) (f : Part → Part) : State := s.setPart p (f (s.part p))

def State.cmd? (s : State) (k : Nat) : Option Cmd := FMap.find s.fe.cmds k
def State.setCmd (s : State) (k : Nat) (c : Cmd) : State :=
  { s with fe := { s.fe with cmds := FMap.set s.fe.cmds k c } }
def State.post? (s : State) (k : Nat) : Option Post := FMap.find s.posts k
def State.setPost (s : State) (k : Nat) (v : Post) : State :=
  { s with posts := FMap.set s.posts k v }
def State.modPost (s : State) (k : Nat) (f : Post → Post) : State :=
  match s.post? k with
  | some v => s.setPost k (f v)
  | none => s

def State.src (s : State) (i : Nat) : Src := FMap.get s.evt.srcs i {}
def State.setSrc (s : State) (i : Nat) (v : Src) : State :=
  { s with evt := { s.evt with srcs := FMap.set s.evt.srcs i v } }

/-- The key of a command: its ring and SEQ. A post's tag is the key of its command. -/
def cmdKey (ring seq : Nat) : Nat := ring * 2 ^ 32 + seq

/-! ### Registers, counters, time, free values -/

/-- Reset values of the RW and RWL words of the setup space that are not 0 (the register tables). -/
def regReset (a : Nat) : Word :=
  if 0x20000 ≤ a && a < 0x60000 && a % 0x40 = 0x20 then 0x03FF0000#32
  else if 0x70000 ≤ a && a < 0x72000 && a % 0x10 = 0 then
    (if a < 0x70000 + 0x10 * 480 then 0x1F#32 else 0x10#32)
  else if 0x70000 ≤ a && a < 0x72000 && a % 0x10 = 8 then 0x00010001#32
  else if 0x74000 ≤ a && a < 0x74200 && a % 0x20 = 0x0C then 0x3FF#32
  else if a = 0x80040 then 0x00323240#32
  else if a = 0x80044 then 0x01900037#32
  else if a = 0x80048 then 0x00010064#32
  else if a = 0x90010 then 0x1001#32
  else if a = 0x90020 then 0x3C0A#32
  else if a = 0xA0008 then 2400#32
  else if a = 0xA000C then 30#32
  else if a = 0xB0010 then 2#32
  else if a = 0xC0030 then 4#32
  else if a = 0xC0900 then 24#32
  else 0#32

/-- The stored word of a RW or RWL register. -/
def State.regW (s : State) (a : Nat) : Word := FMap.get s.regs a (regReset a)

/-- Bits [hi:lo] of a stored register word. -/
def State.regF (s : State) (a hi lo : Nat) : Nat := bitsOf (s.regW a).toNat hi lo

def State.setReg (s : State) (a : Nat) (w : Word) : State :=
  { s with regs := FMap.set s.regs a w }

/-- Bits [hi:lo] of a word of a latched register group. -/
def latF (m : FMap Word) (off hi lo : Nat) : Nat := bitsOf (FMap.get m off 0).toNat hi lo

/-- A 64-bit field of a latched register group (R374). -/
def lat64 (m : FMap Word) (off : Nat) : Nat :=
  (FMap.get m off 0).toNat + 2 ^ 32 * (FMap.get m (off + 4) 0).toNat

/-- The stored words of a register group, by offset. -/
def State.group (s : State) (base : Nat) (offs : List Nat) : FMap Word :=
  offs.map fun o => (o, s.regW (base + o))

/-- Key of a counter (R377). -/
def ctrKey (id inst : Nat) : Nat := id * 4096 + inst

def State.counter (s : State) (id inst : Nat) : DWord := FMap.get s.ctr (ctrKey id inst) 0

/-- Set a counter. -/
def State.setCtr (s : State) (id inst : Nat) (v : DWord) : State :=
  { s with ctr := FMap.set s.ctr (ctrKey id inst) v }

/-- Add to a wrapping 64-bit counter (R378). -/
def State.count (s : State) (id inst n : Nat) : State :=
  s.setCtr id inst (s.counter id inst + BitVec.ofNat 64 n)

/-- The host-port counter (R21), domain 21: the time of R226, R235 and R299. -/
def State.now (s : State) : Nat := FMap.get s.clk 21 0

/-- The command goes on in a phase: progress of R380's watchdog. -/
def State.setPhase (s : State) (k : Nat) (ph : Phase) : State :=
  match s.cmd? k with
  | some c => s.setCmd k { c with phase := ph, progress := s.now }
  | none => s

/-- The felt domain's counter, domain 18: the time of the sweep (R32). -/
def State.feltNow (s : State) : Nat := FMap.get s.clk 18 0

/-- A free value (assumption 3, DESIGN CHOICE) and the state with its draw counted. -/
def State.freeVal (s : State) : Nat × State :=
  (Config.freeNat s.free, { s with free := s.free + 1 })

/-- `n` free values. -/
def State.freeVals (s : State) (n : Nat) : List Nat × State :=
  ((List.range n).map fun i => Config.freeNat (s.free + i), { s with free := s.free + n })

/-- Every rail is up or coming up: BOOTING or ON (Table 17.4). -/
def State.powered (s : State) : Bool := s.pwr.st == 2 || s.pwr.st == 3

/-- Apply a state change for every element of a list, in order. -/
def State.each {α : Type} (s : State) (l : List α) (f : State → α → State) : State := l.foldl f s

/-- The post leaves its admission queue: the time it spent there counts in ADMIT_WAIT (R43). -/
def State.leaveQueue (s : State) (k : Nat) : State :=
  if !s.ream.queue.contains k then s
  else
    let s := match s.post? k with
      | some v => s.count 0x004 v.part (FMap.get s.clk 31 0 - v.readyCc)
      | none => s
    { s with ream := { s.ream with queue := s.ream.queue.filter (· != k) } }

/-! ### Partitions and features -/

/-- Ranges latched at the attach (Table 10.1). -/
def Part.ringBase (p : Part) : Nat := latF p.lat 0x08 11 0
def Part.ringCount (p : Part) : Nat := latF p.lat 0x08 28 16
def Part.keyBase (p : Part) : Nat := latF p.lat 0x0C 11 0
def Part.keyCount (p : Part) : Nat := latF p.lat 0x0C 28 16
def Part.qpBase (p : Part) : Nat := latF p.lat 0x10 11 0
def Part.qpCount (p : Part) : Nat := latF p.lat 0x10 28 16
def Part.msixBase (p : Part) : Nat := latF p.lat 0x14 10 0
def Part.msixCount (p : Part) : Nat := latF p.lat 0x14 27 16

/-- `x` lies in the range of `count` from `base`. -/
def inRange (base count x : Nat) : Bool := decide (base ≤ x) && decide (x < base + count)

def Part.hasRing (p : Part) (r : Nat) : Bool := p.st != 0 && inRange p.ringBase p.ringCount r
def Part.hasKey (p : Part) (k : Nat) : Bool := p.st != 0 && inRange p.keyBase p.keyCount k
def Part.hasQp (p : Part) (q : Nat) : Bool := p.st != 0 && inRange p.qpBase p.qpCount q

/-- Bit `b` of the negotiated feature word (Table 10.2). -/
def Part.feat (p : Part) (b : Nat) : Bool := p.featAck.testBit b

/-- Host memory of the partition can be reached: the partition is attached, or leaving and was attached. -/
def Part.reachable (p : Part) : Bool := p.st == 1 || (p.st == 2 && !p.cut)

/-! ### Fields of rings (latched, Table 10.4) -/

def Ring.sqBase (r : Ring) : Nat := lat64 r.lat 0x00
def Ring.cqBase (r : Ring) : Nat := lat64 r.lat 0x08
def Ring.dbAddr (r : Ring) : Nat := lat64 r.lat 0x10
def Ring.kernel (r : Ring) : Bool := latF r.lat 0x18 1 1 = 1
def Ring.remote (r : Ring) : Bool := latF r.lat 0x18 2 2 = 1
def Ring.part (r : Ring) : Nat := latF r.lat 0x18 11 8
def Ring.sizeLog2 (r : Ring) : Nat := latF r.lat 0x18 20 16
def Ring.size (r : Ring) : Nat := 2 ^ r.sizeLog2
def Ring.timeoutUs (r : Ring) : Nat := latF r.lat 0x1C 23 0
def Ring.qp (r : Ring) : Nat := latF r.lat 0x20 11 0
def Ring.evtSrc (r : Ring) : Nat := latF r.lat 0x20 25 16
def Ring.rkey (r : Ring) : Nat := latF r.lat 0x38 31 0

/-- Difference of free-running 32-bit indices. -/
def sub32 (a b : Nat) : Nat := (a + 2 ^ 32 - b % 2 ^ 32) % 2 ^ 32

/-! ### Traffic with hosts (R257, R282) -/

/-- Issue an access. -/
def State.issue (s : State) (x : Xfer) : State :=
  { s with io := { s.io with next := s.io.next + 1, out := s.io.out ++ [{ x with id := s.io.next }] } }

/-- A queue pair is in RTS. -/
def State.qp (s : State) (q : Nat) : Qp := FMap.get s.net.qps q {}
def State.qpUp (s : State) (q : Nat) : Bool := (s.qp q).st == 1

/-- Host memory of a partition can be reached: by the host port, or through a queue pair in RTS. -/
def State.hostUp (s : State) (p qp : Nat) : Bool :=
  (s.part p).reachable && (!(s.part p).remote || s.qpUp qp)

/-- Host lines a range of `len` bytes at `addr` touches. -/
def hostLines (addr len : Nat) : Nat := cdiv (addr % 64 + len) 64

/-- Write `data` to the host memory of a partition: by the host port for a local one, by queue pair
`qp` for a remote one. Unreachable: the write is dropped (R221, R267), and the lines of a local one count (R271). -/
def State.writeHost (s : State) (use : Use) (p qp rkey addr : Nat) (data : Bytes)
    (poison : List Nat) : State :=
  if s.hostUp p qp then
    s.issue { id := 0, use := use, part := p, qp := if (s.part p).remote then some qp else none,
              rkey := rkey, addr := addr, len := data.length, data := data, poison := poison }
  else
    let s := if (s.part p).remote then s else s.count 0x082 0 (hostLines addr data.length)
    match use with
    | .result k => s.modPost k fun v => { v with dropped := true }
    | _ => s

/-- Some access for this use is not accepted yet. -/
def State.outFor (s : State) (u : Use) : Bool := s.io.out.any fun x => x.use == u && !x.accepted

/-- An access for this use has been accepted and not been taken. -/
def State.doneFor (s : State) (u : Use) : Bool := s.io.out.any fun x => x.use == u && x.accepted

/-- Forget the first access of a use that has been accepted. -/
def dropFirst (u : Use) : List Xfer → List Xfer
  | [] => []
  | x :: xs => if x.use == u && x.accepted then xs else x :: dropFirst u xs

def State.takeDone (s : State) (u : Use) : State :=
  { s with io := { s.io with out := dropFirst u s.io.out } }

/-! ### Events (R295 to R303) -/

/-- OWNER of a source (Table 14.1): 0 to 15 a partition, 16 the control cores, 31 none. -/
def State.srcOwner (s : State) (i : Nat) : Nat :=
  if 480 ≤ i then 16
  else let o := s.regF (0x70000 + 0x10 * i) 4 0
    if o ≤ 16 then o else 31

/-- AUTO_ACK, which reads 1 while the owner is a remote partition. -/
def State.autoAck (s : State) (i : Nat) : Bool :=
  s.regF (0x70000 + 0x10 * i) 8 8 = 1 ||
    (decide (s.srcOwner i < 16) && (s.part (s.srcOwner i)).remote)

/-- COAL_COUNT and COAL_TIME in host-port cycles; 0 acts as 1. -/
def State.coalCount (s : State) (i : Nat) : Nat :=
  let n := s.regF (0x70000 + 0x10 * i + 8) 7 0
  if n = 0 then 1 else n
def State.coalCycles (s : State) (i : Nat) : Nat :=
  let n := s.regF (0x70000 + 0x10 * i + 8) 31 16
  256 * (if n = 0 then 1 else n)

/-- The eligible processor with the lowest PRIO, the lowest index on a tie (R298). Words are listed
by CPU index from the route's first. -/
def choosePrio (words : List (Nat × Word)) : Option Nat :=
  (words.filter fun w => w.2.toNat.testBit 8).foldl (fun best w =>
    match best with
    | none => some w
    | some b => if w.2.toNat % 256 < b.2.toNat % 256 then some w else some b) none
  |>.map (·.1)

/-- The host has been sent vector `v`: its address and data as the table entry stands (R264). -/
def State.sendMsix (s : State) (p v : Nat) : State :=
  let w (i : Nat) : Word := FMap.get s.hp.msix (4 * v + i) 0
  ({ s with hp := { s.hp with sent := s.hp.sent ++ [((w 0).toNat + 2 ^ 32 * (w 1).toNat, w 2)] } }).count
    0x0A0 p 1

/-- A vector can send: not masked, by itself or with the function, and MSI-X enabled. -/
def State.msixOpen (s : State) (v : Nat) : Bool :=
  s.hp.msixEnable && !s.hp.msixMask && !(FMap.get s.hp.msix (4 * v + 3) 1).toNat.testBit 0

/-- The lines of a route that are not held are read (RdShared), and held while the partition is ATTACHED (Table 12.3).
What the host's priority words hold is a free value (assumption 11, DEDUCED). -/
def State.readPrio (s : State) (p : Nat) (lines : List Nat) : State :=
  s.each lines fun s l =>
    if (s.part p).prioHeld.contains l then s
    else
      let (ws, s) := s.freeVals 16
      s.modPart p fun q => { q with
        prioHeld := if q.st = 1 then l :: q.prioHeld else q.prioHeld
        prioWords := (ws.zipIdx.foldl (fun m (w, i) =>
          FMap.set m (16 * l + i) (BitVec.ofNat 32 w)) q.prioWords) }

/-- After a delivery the source is ACTIVE, or IDLE where AUTO_ACK re-arms it at once (R300). -/
def State.delivered (s : State) (i : Nat) (rearm : Bool) : State :=
  s.setSrc i { s.src i with st := if rearm then 0 else 2, count := 0, routeErr := false, sentAt := some s.now }

/-- Delivery to the control cores (R297, R298). -/
def State.deliverCore (s : State) (i : Nat) : State :=
  let (ws, s) := s.freeVals 8
  let words := ws.zipIdx.map fun (w, c) => (c, BitVec.ofNat 32 w)
  let (cpu, s) := match choosePrio words with
    | some c => (c, s)
    | none => (0, s.count 0x0A2 16 1)
  let s := { s with evt := { s.evt with core := s.evt.core ++ [(i, cpu, (s.src i).count)] } }
  s.delivered i (s.autoAck i)

/-- Delivery to a local partition by MSI-X (R297, R298, R264). -/
def State.deliverLocal (s : State) (i p : Nat) : State :=
  let a := 0x70000 + 0x10 * i + 4
  let vec := s.regF a 10 0
  let first := s.regF a 22 16
  let n := s.regF a 30 24
  let q := s.part p
  if q.msixCount ≤ vec + n || 16 * q.prioLines ≤ first + n then
    (s.setSrc i { s.src i with st := 0, count := 0, routeErr := true, sentAt := some s.now }).count 0x0A3 0 1
  else
    let s := s.readPrio p ((List.range (n / 16 + 2)).map (· + first / 16) |>.filter (· ≤ (first + n) / 16))
    let words := (List.range (n + 1)).map fun k =>
      (first + k, FMap.get (s.part p).prioWords (first + k) 0)
    let (cpu, s) := match choosePrio words with
      | some c => (c, s)
      | none => (first, s.count 0x0A2 p 1)
    let v := q.msixBase + vec + (cpu - first)
    if s.msixOpen v then (s.sendMsix p v).delivered i (s.autoAck i)
    else ({ s with hp := { s.hp with pba := if s.hp.pba.contains (v, i) then s.hp.pba
                                            else s.hp.pba ++ [(v, i)] } }).delivered i false

/-- The event message of Table 14.4. -/
def State.eventMessage (s : State) (i p cause : Nat) : Bytes :=
  withCrc (natLe 4 0x56454E59 ++ natLe 2 i ++ natLe 1 p ++ zeros 1 ++ natLe 4 (s.src i).count
    ++ natLe 4 cause ++ natLe 8 s.now ++ natLe 4 (s.part p).msgSeq)

/-- Delivery to a remote partition: one SEND on its attach queue pair (R303). -/
def State.deliverRemote (s : State) (i p : Nat) : State :=
  let sys := s.regF (0x74000 + 0x20 * p + 0x0C) 9 0 = i
  let cause : Word := if sys then (s.part p).cause else 0
  let msg := s.eventMessage i p cause.toNat
  let n := (s.src i).count
  let s := s.issue { id := 0, use := .event i, part := p, kind := 2, qp := some (s.part p).attachQp,
                     len := 32, data := msg }
  let s := s.modPart p fun q => { q with msgSeq := q.msgSeq + 1
                                         causeSent := if sys then cause else q.causeSent }
  (s.setSrc i { s.src i with st := 2, count := 0, carried := n, routeErr := false, sentAt := some s.now }).count 0x0A0 p 1

/-- A PENDING source delivers (R299). -/
def State.deliver (s : State) (i : Nat) : State :=
  let o := s.srcOwner i
  if o = 16 then s.deliverCore i
  else if o < 16 then
    let q := s.part o
    if q.reachable && !q.resuming then (if q.remote then s.deliverRemote i o else s.deliverLocal i o)
    else s
  else s

/-- The message in flight of a source, while no packet of it has left. -/
def State.eventOut (s : State) (i : Nat) : Option Xfer :=
  s.io.out.find? fun x => x.use == .event i && !x.accepted && x.handed == 0

/-- The source has delivered in this cycle of the host port: a further event is part of that delivery (R299). -/
def State.sameCycle (s : State) (i : Nat) : Bool :=
  (s.src i).sentAt == some s.now
    && (!(decide (s.srcOwner i < 16) && (s.part (s.srcOwner i)).remote) || (s.eventOut i).isSome)

/-- One more in the count of the last signal of a source. -/
def bumpCore (i : Nat) : List (Nat × Nat × Nat) → List (Nat × Nat × Nat)
  | [] => []
  | e :: es => if e.1 = i && !(es.any fun x => x.1 == i) then (e.1, e.2.1, e.2.2 + 1) :: es else e :: bumpCore i es

/-- An event joins the delivery of its cycle: an MSI-X message says no count, a signal and a SEND do, and the SEND of
SYS_SRC the causes (R299, Table 14.4). -/
def State.joinEvent (s : State) (i : Nat) : State :=
  let p := s.srcOwner i
  if p = 16 then { s with evt := { s.evt with core := bumpCore i s.evt.core } }
  else match s.eventOut i with
    | none => s
    | some x =>
      let sys := s.regF (0x74000 + 0x20 * p + 0x0C) 9 0 = i
      let cause : Word := if sys then (s.part p).cause else 0
      let data := withCrc (patchBytes (patchBytes (x.data.take 28) 8 (natLe 4 (fld x.data 8 4 + 1))) 12 (natLe 4 cause.toNat))
      let put (y : Xfer) : Xfer := if y.id = x.id then { y with data := data } else y
      let s := { s with io := { s.io with out := s.io.out.map put } }
      let s := s.modPart p fun q => { q with causeSent := if sys then cause else q.causeSent }
      s.setSrc i { s.src i with carried := (s.src i).carried + 1 }

/-- A PENDING source delivers when COUNT reaches COAL_COUNT (R299). -/
def State.deliverIfFull (s : State) (i : Nat) : State :=
  if (s.src i).st = 1 && decide (s.coalCount i ≤ (s.src i).count) then s.deliver i else s

/-- One event on a source (R299); 0x3FF and above name none. -/
def State.raise (s : State) (i : Nat) : State :=
  if 512 ≤ i then s
  else if s.sameCycle i then s.joinEvent i
  else
    let r := s.src i
    if r.st = 0 then
      (s.setSrc i { r with st := 1, count := 1, timer := s.now }).deliverIfFull i
    else
      (s.setSrc i { r with count := if r.count < 65535 then r.count + 1 else 65535 }).deliverIfFull i

/-- A source re-arms after an acknowledgement (R299): PENDING with the timer restarted, or IDLE. -/
def State.rearm (s : State) (i : Nat) : State :=
  let r := s.src i
  if r.count = 0 then s.setSrc i { r with st := 0, sentAt := none }
  else (s.setSrc i { r with st := 1, timer := s.now, sentAt := none }).deliverIfFull i

/-! ### Causes (R302) -/

/-- The control cores' own source for a cause (assumption 12, DEDUCED). -/
def coreSource (bit : Nat) : Nat := 480 + bit

/-- The cause reaches the control cores. -/
def State.coreCause (s : State) (bit : Nat) : State :=
  ({ s with evt := { s.evt with coreCause := s.evt.coreCause ||| 2 ^ bit } }).raise (coreSource bit)

/-- The cause reaches one partition: its CAUSE bit, and one event on SYS_SRC. -/
def State.partCause (s : State) (p bit : Nat) : State :=
  let s := s.modPart p fun q => { q with cause := q.cause ||| BitVec.ofNat 32 (2 ^ bit) }
  let i := s.regF (0x74000 + 0x20 * p + 0x0C) 9 0
  if i < 512 && s.srcOwner i = p then s.raise i else s

/-- A partition-scope cause (Table 14.3). -/
def State.causeTo (s : State) (p bit : Nat) : State := (s.partCause p bit).coreCause bit

/-- A device-scope cause: every ATTACHED or DETACHED partition that enables it. -/
def State.causeAll (s : State) (bit : Nat) : State :=
  ((s.each (List.range 16) fun s p =>
    let st := (s.part p).st
    if (st = 1 || st = 3) && (s.regW (0x74000 + 0x20 * p + 0x14)).toNat.testBit bit
    then s.partCause p bit else s)).coreCause bit

/-- Cause bits (Table 14.3). -/
def cPartAttached : Nat := 0
def cFaultRaised : Nat := 1
def cFqOvf : Nat := 2
def cQpFailed : Nat := 3
def cRingTimeout : Nat := 4
def cOldVersionFreed : Nat := 5
def cBoundMiss : Nat := 6
def cEscalation : Nat := 7
def cCapBelowReam : Nat := 8
def cStaleEpoch : Nat := 9
def cIllegalStream : Nat := 10
def cCdcHold : Nat := 11
def cT0Hot : Nat := 12
def cT1Exposed : Nat := 13
def cT1Failed : Nat := 14
def cVaultWorn : Nat := 15
def cVaultFailed : Nat := 16
def cHang : Nat := 17
def cLinkDown : Nat := 18
def cPartnerLost : Nat := 19
def cPartnerStall : Nat := 20
def cEmergency : Nat := 21

/-! ### Completions (R232 to R234) -/

/-- Status codes (Table 10.13). -/
def stOk : Nat := 0x0000
def stBadDesc : Nat := 0x0001
def stNotPrivileged : Nat := 0x0002
def stNoFeature : Nat := 0x0003
def stBadCount : Nat := 0x0004
def stBounds : Nat := 0x0005
def stNoAccess : Nat := 0x0006
def stNoReam : Nat := 0x0007
def stShapeOver : Nat := 0x0008
def stSealRequired : Nat := 0x0009
def stKeyEmpty : Nat := 0x000A
def stKeyMismatch : Nat := 0x000B
def stEnvelopeBad : Nat := 0x000C
def stKeyExhausted : Nat := 0x000D
def stTagFail : Nat := 0x000E
def stCodingBad : Nat := 0x000F
def stDirtyFull : Nat := 0x0010
def stLagFull : Nat := 0x0011
def stGatherOver : Nat := 0x0020
def stUpdateOver : Nat := 0x0021
def stScaleSkew : Nat := 0x0022
def stPoison : Nat := 0x0023
def stSealViolation : Nat := 0x0024
def stInternal : Nat := 0x0025
def stTimeout : Nat := 0x0026
def stCancelled : Nat := 0x0027
def stAborted : Nat := 0x0028
def stFaulted : Nat := 0x0029
def stXferFail : Nat := 0x002A
def stReamInvalid : Nat := 0x0040
def stReamBusy : Nat := 0x0041
def stCommitBusy : Nat := 0x0042
def stKeyBusy : Nat := 0x0043
def stKeyUnwrapFail : Nat := 0x0044
def stKeyInUse : Nat := 0x0045
def stShingleOver : Nat := 0x0046
def stSealedDeny : Nat := 0x0047
def stBadFormat : Nat := 0x0048
def stPartBusy : Nat := 0x0049
def stRestoreReject : Nat := 0x004A

/-- The completion record (Table 10.10). -/
def recordOf (c : Cmd) (status flags result : Nat) : Bytes :=
  withCrc ((c.desc.drop 8).take 8 ++ natLe 4 c.seq ++ natLe 2 c.epoch ++ natLe 2 c.ring
    ++ natLe 2 status ++ natLe 2 flags ++ natLe 8 result)

/-- Free the task of a command, with its fault record (R249). -/
def State.freeTaskOf (s : State) (k : Nat) : State :=
  { s with fe := { s.fe with tasks := s.fe.tasks.filter fun t => t.2.cmd != k } }

/-- DEGRADED of Table 10.11: every post that completes while REAM_DEGRADED is set carries it (R312). -/
def State.degradedFlag (s : State) (c : Cmd) : Nat :=
  if fld c.desc 6 1 = 0x01 && s.ream.degraded then 256 else 0

/-- CORRELATED (R324): a pairing joins equal feed identities, or one that is unknown. -/
def State.correlated (s : State) : Bool :=
  (s.rel.sender.toList ++ s.rel.receiver.toList).any fun p =>
    p.known && (p.feed == s.fuse.feed || p.feed == 0 || s.fuse.feed == 0)

/-- CORRELATED of Table 10.11: every completion of PARTNER_PAIR, TABLE_COMMIT and CHECKPOINT carries it while it
holds (R324). -/
def State.corrFlag (s : State) (c : Cmd) : Nat :=
  let op := fld c.desc 6 1
  if (op = 0x50 || op = 0x13 || op = 0x51) && s.correlated then 2 ^ 9 else 0

/-- A command's record becomes ready: it leaves the front end and its record enters the ring's
completion log (R234). -/
def State.finish (s : State) (k status : Nat) (result flags : Nat := 0) : State :=
  match s.cmd? k with
  | none => s
  | some c =>
    let s := s.freeTaskOf k
    let s := { s with fe := { s.fe with
      cmds := FMap.del s.fe.cmds k
      held := s.fe.held.filter (· != k)
      walks := s.fe.walks.filter (· != k) } }
    s.modRing c.ring fun r => { r with
      log := FMap.set r.log c.seq { data := recordOf c status (flags ||| s.degradedFlag c ||| s.corrFlag c) result, cmd := k }
      held := r.held.filter (· != k) }

/-- RESULT of a post (Table 10.10): queries with results, and the step taken, all ones for none. -/
def postResult (q : Nat) (step : Option Nat) : Nat :=
  q + 2 ^ 16 * (match step with
    | some u => u % 2 ^ 48
    | none => 2 ^ 48 - 1)

/-- RESULT of a command that ended before it did anything (Table 10.10). Assumption 90, DEDUCED. -/
def Cmd.idleResult (c : Cmd) : Nat := if fld c.desc 6 1 = 0x01 then postResult 0 none else 0

/-- A command ends before it has done anything. -/
def State.finishIdle (s : State) (k status : Nat) : State :=
  match s.cmd? k with
  | none => s
  | some c => s.finish k status c.idleResult

/-- All ones in a 64-bit result (Table 10.10). -/
def allOnes64 : Nat := 2 ^ 64 - 1

end Sys2Proof.Machine
end

