-- ==== Sys2Proof/Machine/Image.lean ====
section
/-! DEFINITION. Reading the resident ream: header fields, records, stages, grants, tables, programs
and their instruction words (chapters 2, 3, 6). -/

namespace Sys2Proof.Machine

/-! ### The header (Table 2.1) -/

def hPlace (h : Bytes) : Nat := fld h 16 9
def hStages (h : Bytes) : Nat := fld h 25 1
def hSlots (h : Bytes) : Nat := fld h 26 1
def hMode (h : Bytes) : Nat := fld h 27 1
def hSweep (h : Bytes) : Nat := fld h 28 4
def hLead (h : Bytes) : Nat := fld h 32 4
def hQMax (h : Bytes) : Nat := fld h 36 2
def hTables (h : Bytes) : Nat := fld h 38 2
def hDense (h : Bytes) : Nat := fld h 40 4
def hResult (h : Bytes) : Nat := fld h 44 4
def hReserve (h : Bytes) : Nat := fld h 48 4
def hMaint (h : Bytes) : Nat := fld h 52 2
def hPower (h : Bytes) : Nat := fld h 54 2
def hFlags (h : Bytes) : Nat := fld h 56 4
def hRecords (h : Bytes) : Nat := fld h 60 4
def hDir (h : Bytes) : Nat := fld h 64 8
def hVersion (h : Bytes) : Nat := fld h 72 2
def hBase (h : Bytes) : Nat := fld h 74 2
/-- Felt cycles of one interval (R32). -/
def hInterval (h : Bytes) : Nat := hSweep h / hSlots h

/-! ### Records -/

/-- The record of a type and index. -/
def recOf (rs : List Rec) (ty idx : Nat) : Option Rec :=
  rs.find? fun r => r.type == ty && r.index == idx

/-- The payload of a record, empty where there is none. -/
def recBody (rs : List Rec) (ty idx : Nat) : Bytes :=
  match recOf rs ty idx with
  | some r => r.body
  | none => []

/-- Tiles of a 72-bit mask. -/
def maskTiles (m : Nat) : List Nat := bitList 72 m

/-- STAGE payload fields (Table 2.4). -/
def stResidency (b : Bytes) : Nat := fld b 0 1
def stMovable (b : Bytes) : Bool := (fld b 1 1).testBit 0
def stTiles (b : Bytes) : Nat := fld b 4 9
def stSpan (b : Bytes) : Nat := fld b 16 4
def stGather (b : Bytes) : Nat := fld b 20 4

/-- GRANT entry of partition p (Table 2.5): 16 bytes. -/
def grantEntry (b : Bytes) (p : Nat) : Bytes := (b.drop (16 * p)).take 16

/-- The ream's stage payload. -/
def State.stageRec (s : State) (i : Nat) : Bytes := recBody s.ream.recs 1 i
def State.grantRec (s : State) : Option Rec := recOf s.ream.recs 9 0

/-- Access of a partition (R41); the owner always has it. -/
def State.hasAccess (s : State) (p : Nat) : Bool :=
  p == s.ream.owner || (match s.grantRec with
    | some g => fld (grantEntry g.body p) 0 1 == 1
    | none => false)

/-- The partition may take pooled slots. -/
def State.isPooled (s : State) (p : Nat) : Bool :=
  match s.grantRec with
  | some g => fld (grantEntry g.body p) 1 1 == 1
  | none => false

/-- Admission slot j is dedicated to the partition; without a GRANT record every slot is the
owner's (R381). -/
def State.isDedicated (s : State) (p j : Nat) : Bool :=
  match s.grantRec with
  | some g => (fld (grantEntry g.body p) 8 8).testBit j
  | none => p == s.ream.owner

/-- The version of that number that is resident. -/
def State.version (s : State) (v : Nat) : Ver :=
  if s.ream.act.num = v then s.ream.act
  else match s.ream.old with
    | some o => if o.num = v then o else s.ream.act
    | none => s.ream.act

/-- The stage a tile holds, if any (R28). -/
def State.stageOf (s : State) (t : Nat) : Option Nat :=
  (List.range (hStages s.ream.hdr)).find? fun i => (stTiles (s.stageRec i)).testBit t

/-! ### Programs (R67) -/

def pCount (b : Bytes) : Nat := fld b 0 4
def pEntry (b : Bytes) : Nat := fld b 4 4
def pLine (b : Bytes) : Nat := fld b 8 2
/-- Instruction word `i`. -/
def pWord (b : Bytes) (i : Nat) : Bytes := (b.drop (64 + 32 * i)).take 32
def pWords (b : Bytes) : List Bytes := chunks 32 (pCount b) (b.drop 64)

/-- Instruction fields (Table 3.3). -/
def iOp (w : Bytes) : Nat := fld w 0 1
def iIn (w : Bytes) (n : Nat) : Nat := fld w (4 + n) 1
def iOut (w : Bytes) (n : Nat) : Nat := fld w (8 + n) 1
def iRel (w : Bytes) : Nat := fld w 10 1

/-- FILL fields (Table 3.7). -/
def fAct (w : Bytes) : Nat := fld w 12 2
def fWgt (w : Bytes) : Nat := fld w 14 2
def fScaleA (w : Bytes) : Nat := fld w 16 2
def fScaleW (w : Bytes) : Nat := fld w 18 2
def fFmtA (w : Bytes) : Nat := fld w 20 1
def fFmtW (w : Bytes) : Nat := fld w 21 1
def fMode (w : Bytes) : Nat := bitsOf (fld w 22 1) 1 0
def fBank (w : Bytes) : Nat := bitsOf (fld w 22 1) 2 2
def fAdd (w : Bytes) : Bool := (fld w 22 1).testBit 3
def fLast (w : Bytes) : Bool := (fld w 22 1).testBit 4
def fDk (w : Bytes) : Nat := fld w 23 1

/-- FETCH and PUT fields (Table 3.10). -/
def xClass (w : Bytes) : Nat := fld w 12 1
def xSeg (w : Bytes) : Nat := fld w 13 1
def xTile (w : Bytes) : Nat := fld w 14 1
def xDk (w : Bytes) : Nat := fld w 15 1
def xLine (w : Bytes) : Nat := fld w 16 2
def xSheets (w : Bytes) : Nat := fld w 18 2
def xAddr (w : Bytes) : Nat := fld w 20 8

/-- Is this a FETCH or a PUT word? -/
def isFetch (w : Bytes) : Bool := iOp w == 0x38
def isPut (w : Bytes) : Bool := iOp w == 0x39

/-- Every PROGRAM word of the resident versions. -/
def State.programWords (s : State) : List Bytes :=
  let vs := s.ream.act :: s.ream.old.toList
  (vs.map fun v => ((v.recs.filter (·.type == 2)).map fun r => pWords r.body).flatten).flatten

/-- The span of segment `g` over the FETCH and PUT words of the versions (R245): lowest ADDR, highest
ADDR + 256 * SHEETS, the tiers that match the class of every word, and whether a word writes. -/
def spanOf (ws : List Bytes) (g : Nat) : List (Nat × Nat × List Nat × Bool) :=
  let us := ws.filter fun w => (isFetch w || isPut w) && xSeg w == g && xClass w != 1
  match us with
  | [] => []
  | u :: _ =>
    let lo := us.foldl (fun a w => Nat.min a (xAddr w)) (xAddr u)
    let hi := us.foldl (fun a w => Nat.max a (xAddr w + 256 * xSheets w)) 0
    let tier := if xClass u = 0 then 0 else xClass u - 1
    [(lo, hi, if us.all fun w => xClass w == xClass u then [tier] else [], us.any isPut)]

/-! ### Extents (R68) -/

/-- The extents of a WEIGHTS or CONST payload: first line and contents; none where the payload does
not end exactly after one. -/
def extentsOf : Nat → Bytes → Option (List (Nat × Bytes))
  | 0, _ => none
  | k + 1, b =>
    if b.isEmpty then some []
    else
      let n := 256 * fld b 2 2
      if b.length < 16 + n || n = 0 || !zeroAt b 4 12 then none
      else (extentsOf k (b.drop (16 + n))).map fun es => (fld b 0 2, (b.drop 16).take n) :: es

/-- Extents of a payload; each takes at least 272 bytes. -/
def extents (b : Bytes) : Option (List (Nat × Bytes)) := extentsOf (b.length / 272 + 2) b

/-- Line `l` of tile `t` holds WEIGHTS or CONST of a resident version: a ream line that FILL and the
vector engine read (R312). -/
def State.reamLine (s : State) (t l : Nat) : Bool :=
  (s.ream.act :: s.ream.old.toList).any fun v => v.recs.any fun r =>
    (r.type == 3 || r.type == 4) && r.index == t && match extents r.body with
      | some es => es.any fun e => decide (e.1 ≤ l) && decide (l < e.1 + e.2.length / 256)
      | none => false

/-! ### TABLE fields (Tables 6.1 and 7.1) -/

def tKind (b : Bytes) : Nat := fld b 0 1
def tFlags (b : Bytes) : Nat := fld b 1 1
def tDim (b : Bytes) : Nat := fld b 4 2
def tGradFmt (b : Bytes) : Nat := fld b 6 1
def tMaxEntries (b : Bytes) : Nat := fld b 64 4
def tUpdParts (b : Bytes) : Nat := fld b 98 2
def tMaxGrads (b : Bytes) : Nat := fld b 112 4
def tUpdatable (b : Bytes) : Bool := (tFlags b).testBit 4
def tComponent (b : Bytes) : Bool := (tFlags b).testBit 0
def tWeighted (b : Bytes) : Bool := (tFlags b).testBit 1
def tMean (b : Bytes) : Bool := (tFlags b).testBit 2
def tPinned (b : Bytes) : Bool := (tFlags b).testBit 3
def tRowFmt (b : Bytes) : Nat := fld b 2 1
def tSheets (b : Bytes) : Nat := fld b 3 1
def tGatherStage (b : Bytes) : Nat := fld b 7 1
def tRows (b : Bytes) : Nat := fld b 8 8
def tSeed (b : Bytes) : Nat := fld b 16 5
def tDispTile (b : Bytes) : Nat := fld b 21 1
def tCombTile (b : Bytes) : Nat := fld b 22 1
def tT1Seg (b : Bytes) : Nat := fld b 23 1
def tKey (b : Bytes) : DWord := BitVec.ofNat 64 (fld b 24 8)
def tCompA (b : Bytes) : Nat := fld b 24 2
def tCompB (b : Bytes) : Nat := fld b 26 2
def tCat (b : Bytes) : Bool := fld b 28 1 == 1
def tModulus (b : Bytes) : Nat := fld b 32 8
def tShards (b : Bytes) : Nat := fld b 40 9
def tT1Base (b : Bytes) : Nat := fld b 56 8
def tBudget (b : Bytes) : Nat := fld b 68 4
def tColdBudget (b : Bytes) : Nat := fld b 72 4
def tT0Rows (b : Bytes) : Nat := fld b 76 4
def tOptKind (b : Bytes) : Nat := fld b 96 1
def tLr (b : Bytes) : Word := BitVec.ofNat 32 (fld b 100 4)
def tEps (b : Bytes) : Word := BitVec.ofNat 32 (fld b 104 4)
def tBeta (b : Bytes) : Word := BitVec.ofNat 32 (fld b 108 4)
def tUpdBudget (b : Bytes) : Nat := fld b 116 4
def tUpdCold (b : Bytes) : Nat := fld b 120 4
def tGradTile (b : Bytes) : Nat := fld b 124 1
def tUpdStage (b : Bytes) : Nat := fld b 125 1

/-- Payload of table `n` of the resident ream. -/
def State.tab (s : State) (n : Nat) : Bytes := recBody s.ream.recs 8 n

/-- Shard tiles in order, shard 0 first (R133). -/
def shardTiles (b : Bytes) : List Nat := maskTiles (tShards b)
def shardBits (b : Bytes) : Nat := Nat.log2 (shardTiles b).length

/-- The TABLE payload of table `n`. -/
def State.tableRec (s : State) (n : Nat) : Option Rec := recOf s.ream.recs 8 n

/-- Draws of stream 1 a step takes for a table (R156). -/
def stepDraws (b : Bytes) : Nat := tUpdBudget b * (tDim b + 2)

/-- Updatable tables with a shard on a tile, in INDEX order. -/
def State.updTables (s : State) (t : Nat) : List Nat :=
  (List.range (hTables s.ream.hdr)).filter fun n =>
    tUpdatable (s.tab n) && (tShards (s.tab n)).testBit t

/-- Start of table `u`'s block of stream 1 in a step; for `u` past every table, the step's end (R156). -/
def State.blockStart (s : State) (t step u : Nat) : Nat :=
  let size (l : List Nat) : Nat := (l.map fun n => stepDraws (s.tab n)).foldl (· + ·) 0
  let us := s.updTables t
  (FMap.get s.gat.rngBase t 0 + (step - s.gat.stepBase) * size us + size (us.filter (· < u))) % 2 ^ 60

/-! ### Tiles -/

def State.tile (s : State) (t : Nat) : Tile := FMap.get s.tiles t {}
def State.setTile (s : State) (t : Nat) (v : Tile) : State :=
  { s with tiles := FMap.set s.tiles t v }
def State.modTile (s : State) (t : Nat) (f : Tile → Tile) : State := s.setTile t (f (s.tile t))

/-- Tile `t` is enabled (R2, R3). -/
def State.enabled (s : State) (t : Nat) : Bool := s.fuse.tileMask.testBit t

/-- Tiles enabled, in order. -/
def State.tileList (s : State) : List Nat := bitList 72 s.fuse.tileMask

/-- A version's PROGRAM payload for a tile; a tile that a stage move has given the stage runs the active
version's for posts of the old one (R58). Every other tile runs the old version's for them, also where its FELT transfers
name the move's SOURCE (R55; assumption 145, DESIGN CHOICE). -/
def State.progOf (s : State) (v t : Nat) : Bytes :=
  let ver := if s.ream.act.target = some t then s.ream.act else s.version v
  match recOf ver.recs 2 t with
  | some r => r.body
  | none => recBody s.ream.act.recs 2 t

/-- The PROGRAM payload a context of tile `t` runs: its version's, or the test program. -/
def State.program (s : State) (t : Nat) (c : Ctx) : Bytes :=
  match c.post with
  | some _ => s.progOf c.version t
  | none => (s.tile t).test.getD []

/-- The posts the ream holds buffer sets for, N_PB (R382). -/
def State.bufferSets (s : State) : Nat :=
  2 * hSlots s.ream.hdr +
    ((List.range (hStages s.ream.hdr)).map fun i => stResidency (s.stageRec i)).foldl (· + ·) 0

end Sys2Proof.Machine
end

