-- ==== Sys2Proof/Machine/Mem.lean ====
section
/-! DEFINITION. The memory tiers' shared operations (chapter 8): where sheets lie, tier-1 groups,
poison of tier-0 and tier-1, and the sheet cache. -/

namespace Sys2Proof.Machine

/-- Write bytes, those of whole sheets clearing the sheets' marks: a sheet written in part keeps its
mark (R190, R287). -/
def Memory.writePart (m : Memory) (a : Nat) (b : Bytes) : Memory :=
  let m := m.writeN a b
  (List.range (b.length / 256 + 1)).foldl (fun m i =>
    let n := cdiv a 256 + i
    if n * 256 + 256 ≤ a + b.length then m.mark n false else m) m

/-! ### Places (R169, R178) -/

/-- Fold masks of Table 8.2. -/
def foldC : List Nat := [0xB4E1, 0x6A3C, 0xD15B, 0x2E97, 0x9C2D, 0x47F2, 0xE968]
def foldB : List Nat := [0x9B5, 0x56E, 0xE39, 0x3C7]

/-- `place` of R169: channel, bank, page, sheet in page. -/
def t0Place (n k : Nat) : Nat × Nat × Nat × Nat :=
  let u := bitsOf n 22 7 ^^^ bitsOf k 15 0
  let v := bitsOf n 22 11 ^^^ bitsOf k 27 16
  let chan := foldC.zipIdx.foldl (fun c (m, j) =>
    c + 2 ^ j * b2n (n.testBit j != parity 16 (u &&& m))) 0
  let bank := foldB.zipIdx.foldl (fun c (m, j) =>
    c + 2 ^ j * b2n (n.testBit (7 + j) != parity 12 (v &&& m))) 0
  let index := bitsOf n 22 11
  (chan, bank, index / 8, index % 8)

/-- Controller (and group) of tier-1 sheet `n` (R178). -/
def t1Ctrl (n : Nat) : Nat :=
  bitsOf n 7 6 ^^^ ((List.range 13).foldl (fun f i => f ^^^ bitsOf n (2 * i + 9) (2 * i + 8)) 0)

/-- Group sheet of tier-1 sheet `n` (R178). -/
def t1Group (n : Nat) : Nat := bitsOf n 33 8 * 64 + bitsOf n 5 0

/-- Stripe of a tier-1 sheet, and the package its data lies on (R178). -/
def t1Stripe (n : Nat) : Nat := t1Group n / 5
def t1Pkg (n : Nat) : Nat := (t1Stripe n + 1 + t1Group n % 5) % 6

/-- The device sheet of a group sheet: `t1Group` undone on one controller. -/
def t1SheetOf (g t : Nat) : Nat :=
  let hi := t / 64
  let f := (List.range 13).foldl (fun f i => f ^^^ bitsOf hi (2 * i + 1) (2 * i)) 0
  hi * 256 + (g ^^^ f) * 64 + t % 64

/-- Tier-1 exposed bytes: 1,276 GiB (R240). -/
def t1Limit : Nat := 1276 * 2 ^ 30

/-! ### Tier-1 groups (R183) -/

def State.t1g (s : State) (g : Nat) : T1Group := FMap.get s.tiers.t1 g {}
def State.setT1g (s : State) (g : Nat) (v : T1Group) : State :=
  { s with tiers := { s.tiers with t1 := FMap.set s.tiers.t1 g v } }

def State.t1Failed (s : State) (n : Nat) : Bool := (s.t1g (t1Ctrl n)).st == 2

/-- Some group is FAILED. -/
def State.anyFailed (s : State) : Bool := s.tiers.t1.any fun g => g.2.st == 2

/-- A read of tier-1 sheet `n` returns poison. -/
def State.t1Bad (s : State) (n : Nat) : Bool :=
  s.t1Failed n || s.mem.poisoned (t1Addr (256 * n) / 256)

/-- Tier-1 bytes of a range, by sheet: (address, bytes). -/
def splitSheets : Nat → Nat → Bytes → List (Nat × Bytes)
  | 0, _, _ => []
  | k + 1, a, b =>
    if b.isEmpty then []
    else
      let n := 256 - a % 256
      (a, b.take n) :: splitSheets k (a + n) (b.drop n)

/-- The bytes of a write that groups which are not FAILED take (R183). -/
def State.t1Write (s : State) (a : Nat) (b : Bytes) : State :=
  if s.anyFailed then
    { s with mem := (splitSheets (b.length / 256 + 2) a b).foldl (fun m (o, d) =>
        if s.t1Failed (o / 256) then m else m.writePart (t1Addr o) d) s.mem }
  else { s with mem := s.mem.writePart (t1Addr a) b }

/-- Entries of group `g`'s poison table (R191). -/
def State.poisonEntries (s : State) (g : Nat) : Nat :=
  (s.mem.poison.filter fun n => decide (t1Addr 0 / 256 ≤ n) && t1Ctrl (n - t1Addr 0 / 256) == g).length

/-- A tier-1 group becomes FAILED (R183). -/
def State.failGroup (s : State) (g : Nat) : State :=
  if (s.t1g g).st = 2 then s
  else (s.setT1g g { s.t1g g with st := 2 }).causeAll cT1Failed

/-- An entry of the poison log (R314, Table 15.2). Assumption 83, DEDUCED. -/
def State.plogAdd (s : State) (kind unit table addr : Nat) : State :=
  let e : List Word := [BitVec.ofNat 32 (kind + 2 ^ 8 * unit + 2 ^ 16 * table), BitVec.ofNat 32 addr
    , BitVec.ofNat 32 (addr / 2 ^ 32), BitVec.ofNat 32 s.ream.sweeps]
  let n := s.rel.plogProd
  let log := FMap.set s.rel.plog (n % 64) e
  { s with rel := { s.rel with plog := log, plogProd := (n + 1) % 2 ^ 16 } }

/-- A tier-1 sheet becomes poisoned (R191, R314): T1_POISONED counts a new entry, and a 4,097th fails the
group. -/
def State.poisonT1 (s : State) (n : Nat) : State :=
  let g := t1Ctrl n
  if s.t1Bad n then s
  else if 4096 ≤ s.poisonEntries g then (s.failGroup g).plogAdd 1 g 0xFFFF n
  else (({ s with mem := s.mem.mark (t1Addr (256 * n) / 256) true }).count 0x046 g 1).plogAdd 1 g 0xFFFF n

/-- A tier-0 sheet of a tile becomes poisoned (R190, R314). -/
def State.poisonT0 (s : State) (t n : Nat) : State :=
  let k := t0Addr t (256 * n) / 256
  if s.mem.poisoned k then s
  else (({ s with mem := s.mem.mark k true }).count 0x042 t 1).plogAdd 0 t 0xFFFF n

/-- Sheets a range of `len` bytes at `a` touches. -/
def sheetsOf (a len : Nat) : List Nat :=
  if len = 0 then [] else (List.range ((a + len - 1) / 256 + 1 - a / 256)).map (· + a / 256)

/-- T1_OPEN_SHEETS (Table 8.13): sheets moved for OPEN clients. -/
def State.openSheets (s : State) (a len : Nat) : State :=
  s.each (sheetsOf a len) fun s n => s.count 0x047 (t1Ctrl n) 1

/-- A read of a sheet that lies on the lost package of an EXPOSED group is rebuilt from its stripe, and
counts T1_REBUILT (R183, R191). -/
def State.rebuild (s : State) (n : Nat) : State :=
  let g := s.t1g (t1Ctrl n)
  if g.st = 1 && g.lost.contains (t1Pkg n) then s.count 0x044 (t1Ctrl n) 1 else s

/-- The same for every sheet of a range of tier-1. -/
def State.rebuildIn (s : State) (a len : Nat) : State :=
  if s.tiers.t1.any fun g => g.2.st == 1 then s.each (sheetsOf a len) State.rebuild else s

/-! ### What the packages hold (R179, R180) -/

/-- Stored ciphertext of a device sheet. -/
def State.t1Stored (s : State) (n : Nat) : Bytes :=
  xts s.tiers.t1Key n (s.mem.readN (t1Addr (256 * n)) 256)

/-- The data sheets of stripe `i` of group `g`, and its parity sheet: the code symbol over what is stored, so that
every write leaves it consistent (R179). -/
def stripeSheets (g i : Nat) : List Nat := (List.range 5).map fun p => t1SheetOf g (5 * i + p)
def State.t1Parity (s : State) (g i : Nat) : Bytes :=
  ((stripeSheets g i).map s.t1Stored).foldl xorBytes (zeros 256)

/-- What a rebuild makes of a stripe's parity and its other four data sheets (R179, R183). -/
def State.t1Rebuilt (s : State) (n : Nat) : Bytes :=
  (((stripeSheets (t1Ctrl n) (t1Stripe n)).filter (· != n)).map s.t1Stored).foldl xorBytes
    (s.t1Parity (t1Ctrl n) (t1Stripe n))

/-! ### The shared sheet cache (R185, R15) -/

/-- Set of a line: R185's function for tier-1; for a network sheet the spec gives none (assumption
14). -/
def cacheSet : CKey → Nat
  | .t1 n => bitsOf n 13 0 ^^^ bitsOf n 27 14 ^^^ bitsOf n 33 28
  | .net p g n => Config.netSet p g n % 16384

/-- The way a replacement tree of 2^d leaves names: each bit points to the less recent half. -/
def treeVictim (d tree : Nat) : Nat :=
  (List.range d).foldl (fun n _ => 2 * n + 1 + b2n (tree.testBit n)) 0 + 1 - 2 ^ d

/-- Point a tree of 2^d leaves away from way `w`. -/
def treeTouch (d tree w : Nat) : Nat :=
  ((List.range d).foldl (fun (tr, n) i =>
    let b := w.testBit (d - 1 - i)
    (if b then clr tr n else tr ||| 2 ^ n, 2 * n + 1 + b2n b)) (tree, 0)).1
where
  /-- Clear one bit. -/
  clr (x i : Nat) : Nat := if x.testBit i then x - 2 ^ i else x

/-- The way of a set of 2^d ways that takes a new line: the lowest free one, else the one its tree names. -/
def freeWay {α : Type} (d : Nat) (ways : FMap α) (tree : Nat) : Nat :=
  ((List.range (2 ^ d)).find? fun w => (FMap.find ways w).isNone).getD (treeVictim d tree)

/-- The data of a line that leaves the cache goes with it. -/
def State.netGone (s : State) (k : Option CKey) : State :=
  match k with
  | some k => { s with tiers := { s.tiers with net := s.tiers.net.filter fun e => e.1 != k } }
  | none => s

/-- Look a line up, counting the outcome, and bring it in (R185). -/
def State.cacheLook (s : State) (k : CKey) : State :=
  let i := cacheSet k
  let c := FMap.get s.tiers.cache i {}
  let put (c : CacheSet) (s : State) : State :=
    { s with tiers := { s.tiers with cache := FMap.set s.tiers.cache i c } }
  match c.ways.find? fun w => w.2 == k with
  | some (w, _) => put { c with tree := treeTouch 4 c.tree w } (s.count 0x048 0 1)
  | none =>
    let w := freeWay 4 c.ways c.tree
    let s := match k with
      | .t1 n => s.rebuild n
      | .net .. => s
    put { ways := FMap.set c.ways w k, tree := treeTouch 4 c.tree w } ((s.netGone (FMap.find c.ways w)).count 0x049 0 1)

/-- A network sheet as the cache has it; the outcome is counted (R185). -/
def State.netLook (s : State) (k : CKey) : Option (Bytes × Bool) × State :=
  let i := cacheSet k
  let c := FMap.get s.tiers.cache i {}
  match c.ways.find? fun w => w.2 == k with
  | some (w, _) =>
    let s := s.count 0x048 0 1
    ((s.tiers.net.find? (·.1 == k)).map (·.2),
      { s with tiers := { s.tiers with cache := FMap.set s.tiers.cache i { c with tree := treeTouch 4 c.tree w } } })
  | none => (none, s.count 0x049 0 1)

/-- A network sheet that has been fetched comes in. -/
def State.netFill (s : State) (k : CKey) (b : Bytes) (bad : Bool) : State :=
  let i := cacheSet k
  let c := FMap.get s.tiers.cache i {}
  let w := match c.ways.find? fun w => w.2 == k with
    | some (w, _) => w
    | none => freeWay 4 c.ways c.tree
  let s := s.netGone (FMap.find c.ways w)
  { s with tiers := { s.tiers with
    cache := FMap.set s.tiers.cache i { ways := FMap.set c.ways w k, tree := treeTouch 4 c.tree w }
    net := (k, b, bad) :: s.tiers.net } }

/-- Invalidate the lines a predicate names (R15, R185). -/
def State.cacheDrop (s : State) (p : CKey → Bool) : State :=
  let m := FMap.mapV s.tiers.cache fun _ c => { c with ways := c.ways.filter fun w => !p w.2 }
  { s with tiers := { s.tiers with cache := m, net := s.tiers.net.filter fun e => !p e.1 } }

/-- A tier-1 write invalidates the sheets it touches (R15). -/
def State.cacheWritten (s : State) (a len : Nat) : State :=
  if s.tiers.cache.isEmpty then s
  else s.cacheDrop fun k => match k with
    | .t1 n => decide (a / 256 ≤ n) && decide (n * 256 < a + len)
    | .net .. => false

/-- Write bytes into tier-1: cached sheets go, a FAILED group discards, sheets named in `poison` (by
index from the first) become poisoned (R15, R183, R191). -/
def State.writeT1 (s : State) (a : Nat) (b : Bytes) (poison : List Nat) : State :=
  let s := (s.t1Write a b).cacheWritten a b.length
  s.each poison fun s i => s.poisonT1 (a / 256 + i)

end Sys2Proof.Machine
end

