-- ==== Sys2Proof/Machine/Segs.lean ====
section
/-! DEFINITION. Segments, translation, faults and parked tasks (chapter 11): ranges and their check,
reading and writing through a segment, and the shared operations of SEG_SETUP and FAULT_RESUME. -/

namespace Sys2Proof.Machine

/-- 2 MiB, the size of a page and of a frame. -/
def pageSize : Nat := 2 ^ 21

/-- Page number that stands for a segment entry without a page in a walk. -/
def noPage : Nat := 2 ^ 20 - 1

/-- A range of a segment (R245), the tiers its segment may lie in, and whether it is written. -/
structure Range where
  seg : Nat
  off : Nat
  len : Nat
  tiers : List Nat
  write : Bool := false
  deriving DecidableEq, Repr

/-- Operands of Table 11.3. -/
def sOp (d : Bytes) : Nat := fld d 16 1
def sSeg (d : Bytes) : Nat := fld d 17 1
def sAttr (d : Bytes) : Nat := fld d 18 1
def sTier (d : Bytes) : Nat := fld d 19 1
def sBind (d : Bytes) : Nat := fld d 20 2
def sQp (d : Bytes) : Nat := fld d 22 2
def sBase (d : Bytes) : Nat := fld d 24 8
def sLimit (d : Bytes) : Nat := fld d 32 8
def sFirst (d : Bytes) : Nat := fld d 40 4
def sPages (d : Bytes) : Nat := fld d 44 4
def sRkey (d : Bytes) : Nat := fld d 48 4

/-- The segment holds a table home of the resident ream (Table 11.4): T1_SEG of a TABLE record of a table that holds
rows; a COMPOSITE holds none (R130). -/
def State.holdsTable (s : State) (p g : Nat) : Bool :=
  s.ream.resident && p == s.ream.owner &&
    s.ream.recs.any fun r => r.type == 8 && fld r.body 0 1 != 2 && fld r.body 23 1 == g

/-- An accepted REMOVE names the segment, which is invalid for every check from then on (R244); one that will be refused
with REAM_BUSY changes nothing. -/
def State.removing (s : State) (p g : Nat) : Bool :=
  (s.fe.cmds.any fun e => e.2.takes && e.2.part == p && sOp e.2.desc == 1 && sSeg e.2.desc == g) && !s.holdsTable p g

/-- An accepted UNMAP names the page, which is invalid for every check from then on (R244). -/
def State.unmapping (s : State) (p g page : Nat) : Bool :=
  s.fe.cmds.any fun e => e.2.takes && e.2.part == p && sOp e.2.desc == 3 && sSeg e.2.desc == g
    && inRange (sFirst e.2.desc) (sPages e.2.desc) page && decide (sPages e.2.desc ≤ 2 ^ 19)

/-- A valid segment of a partition (R239); one being removed is invalid (R244). -/
def State.seg? (s : State) (p g : Nat) : Option Seg :=
  match FMap.find (s.part p).segs g with
  | some v => if s.removing p g then none else some v
  | none => none

/-- A segment as a post that has passed its checks still sees it (R244). -/
def State.heldSeg (s : State) (p g : Nat) : Option Seg := FMap.find (s.part p).segs g

/-- Change a segment. -/
def State.modSeg (s : State) (p g : Nat) (f : Seg → Seg) : State :=
  s.modPart p fun q =>
    match FMap.find q.segs g with
    | some v => { q with segs := FMap.set q.segs g (f v) }
    | none => q

/-- The page is mapped, and not made invalid by a poisoned map sheet (R247). -/
def Seg.pageValid (v : Seg) (page : Nat) : Bool :=
  (FMap.find v.map page).isSome && !v.inval.contains page

/-- Pages a range of a paged segment touches. -/
def pagesOf (off len : Nat) : List Nat :=
  if len = 0 then []
  else (List.range ((off + len - 1) / pageSize + 1 - off / pageSize)).map (· + off / pageSize)

/-- PAGES_VALID (Table 11.1); a page being unmapped counts until its drain is over (R244). -/
def Seg.pagesValid (v : Seg) : Nat := (v.map.filter fun e => !v.inval.contains e.1).length

/-- The address in its tier of offset `off`. -/
def Seg.addr (v : Seg) (off : Nat) : Nat :=
  if v.paged then FMap.get v.map (off / pageSize) 0 + off % pageSize else v.base + off

/-- Split bytes at the page boundaries of a segment: offsets and pieces. -/
def splitPages : Nat → Nat → Bytes → List (Nat × Bytes)
  | 0, _, _ => []
  | k + 1, off, b =>
    if b.isEmpty then []
    else
      let n := pageSize - off % pageSize
      (off, b.take n) :: splitPages k (off + n) (b.drop n)

def piecesOf (v : Seg) (off : Nat) (b : Bytes) : List (Nat × Bytes) :=
  if v.paged then splitPages (b.length / pageSize + 2) off b else [(off, b)]

/-! ### Data of tier-1 and of tier-2 -/

/-- The bytes of a segment range and its poisoned 64-byte lines (tier-1) or what the read from
outside returned (tier-2, R256, R282). -/
def State.readSeg (s : State) (p g off len : Nat) (ext : Rd) : Rd :=
  match FMap.find (s.part p).segs g with
  | none => { data := [] }
  | some v =>
    if v.tier = 2 then { ext with data := ext.data.take len }
    else
      { data := (List.range len).map fun i => s.mem.read (t1Addr (v.addr (off + i)))
        poison := (List.range (cdiv len 64)).filter fun i =>
          s.t1Bad (v.addr (off + 64 * i) / 256) }

/-- Of the poisoned 64-byte lines of a range, those of the `len` bytes at byte `at_` of it, counted from there. -/
def linesIn (poison : List Nat) (at_ len : Nat) : List Nat :=
  (poison.filter fun l => decide (at_ ≤ 64 * l) && decide (64 * l < at_ + len)).map (· - at_ / 64)

/-- Write a segment range: tier-1 in place, tier-2 by host or remote writes (R257, R290). `poison` names the 64-byte
lines of a tier-2 write that carry poison. -/
def State.writeSeg (s : State) (use : Use) (p g off : Nat) (b : Bytes) (poison : List Nat) : State :=
  match FMap.find (s.part p).segs g with
  | none => s
  | some v =>
    s.each (piecesOf v off b) fun s (o, d) =>
      if v.tier = 2 then s.writeHost use p v.qp v.rkey (v.addr o) d (linesIn poison (o - off) d.length)
      else s.writeT1 (v.addr o) d []

/-- An OPEN client moves a range of tier-1: its sheets count, and where it reads them those of a lost package are
rebuilt (R182, R183, R193). -/
def State.openRange (s : State) (p g off len : Nat) (read : Bool) : State :=
  match FMap.find (s.part p).segs g with
  | none => s
  | some v =>
    if v.tier != 1 then s
    else s.each (piecesOf v off (zeros len)) fun s (o, d) =>
      let s := s.openSheets (v.addr o) d.length
      if read then s.rebuildIn (v.addr o) d.length else s

/-! ### The page-map pool (R247) -/

/-- Device byte address of the page-map pool, after the completion log pool (assumption 61, DESIGN CHOICE). -/
def poolBase : Nat := t1Limit + 2 ^ 31

/-- Device sheet of a page's entry. -/
def Seg.mapSheet (v : Seg) (page : Nat) : Nat := (poolBase + 8 * (v.mapAt + page)) / 256

/-- The pages whose entries lie in the sheet of this page's entry. Page maps begin on a sheet (assumption 61). -/
def sheetPages (page : Nat) : List Nat := (List.range 32).map (· + page / 32 * 32)

/-- A page's 8-byte entry: VALID and the frame's address (R247). -/
def Seg.entry (v : Seg) (page : Nat) : Bytes :=
  match FMap.find v.map page with
  | some f => if v.inval.contains page then zeros 8 else natLe 8 (f / 2 ^ 21 * 2 ^ 21 + 1)
  | none => zeros 8

/-- KIND of a fault at an offset of a segment: MAP_POISON where the map's sheet is poisoned (R247). -/
def State.faultKind (s : State) (p g off : Nat) : Nat :=
  match FMap.find (s.part p).segs g with
  | some v => b2n (v.paged && s.t1Bad (v.mapSheet (off / pageSize)))
  | none => 0

/-! ### The check of a range (R245) and translation (R246) -/

/-- A range meets R245 but for its pages; none when it does, else whether it fails as READ_ONLY. -/
def State.rangeBad (s : State) (p : Nat) (r : Range) : Option Bool :=
  match s.seg? p r.seg with
  | none => some false
  | some v =>
    if v.limit < r.off + r.len || !r.tiers.contains v.tier then some false
    else if r.write && v.readOnly then some true
    else none

/-- First invalid page of a range and the invalid pages from it to the range's end. -/
def State.rangeFault (s : State) (p : Nat) (r : Range) : Option (Nat × Nat) :=
  match s.seg? p r.seg with
  | none => none
  | some v =>
    if v.paged then
      let bad := (pagesOf r.off r.len).filter fun g => !v.pageValid g || s.unmapping p r.seg g
      match bad with
      | [] => none
      | g :: _ => some (g * pageSize, bad.length)
    else none

/-- The first element a function answers for. -/
def firstSome {α β : Type} (f : α → Option β) : List α → Option β
  | [] => none
  | a :: as => match f a with
    | some b => some b
    | none => firstSome f as

/-- Token of a segment entry in the segment cache. -/
def segToken (p g : Nat) : Nat := p * 8 + g
/-- Token of a page-map entry in the page cache. -/
def pageToken (p g page : Nat) : Nat := segToken p g * 2 ^ 20 + page

/-- Segment entries of the ranges that are not in the segment cache. -/
def State.segMisses (s : State) (p : Nat) (rs : List Range) : List (Nat × Nat) :=
  (rs.filter fun r => !s.fe.segCache.contains (segToken p r.seg)).map fun r => (r.seg, noPage)

/-- A token is in the page cache. -/
def State.pageHit (s : State) (t : Nat) : Bool := s.fe.pageCache.any fun e => e.2.ways.any fun w => w.2 == t

/-- Set of a page-cache entry: 1,024 sets of 8 ways (R246), by a function the spec does not give (assumption 13). -/
def pageSet (t : Nat) : Nat := Config.pageSet t % 1024

/-- A page's entry is used: on a hit its way becomes the most recent, on a miss it comes in (R246). -/
def State.pageUse (s : State) (t : Nat) : State :=
  let i := pageSet t
  let c := FMap.get s.fe.pageCache i {}
  let w := match c.ways.find? fun w => w.2 == t with
    | some (w, _) => w
    | none => freeWay 3 c.ways c.tree
  { s with fe := { s.fe with
    pageCache := FMap.set s.fe.pageCache i { ways := FMap.set c.ways w t, tree := treeTouch 3 c.tree w } } }

/-- Take entries out of the page cache. -/
def State.pageDrop (s : State) (p : Nat → Bool) : State :=
  { s with fe := { s.fe with
    pageCache := FMap.mapV s.fe.pageCache fun _ c => { c with ways := c.ways.filter fun w => !p w.2 } } }

/-- Tokens of the page-map entries the ranges need. -/
def State.pageTokens (s : State) (p : Nat) (rs : List Range) : List Nat :=
  (rs.map fun r => match s.seg? p r.seg with
    | some v => if v.paged then (pagesOf r.off r.len).map (pageToken p r.seg) else []
    | none => []).flatten

/-- Page-map entries of the ranges that are not in the page cache. -/
def State.pageMisses (s : State) (p : Nat) (rs : List Range) : List (Nat × Nat) :=
  (rs.map fun r => match s.seg? p r.seg with
    | some v => if v.paged then
        ((pagesOf r.off r.len).filter fun g => !s.pageHit (pageToken p r.seg g)).map fun g => (r.seg, g)
      else []
    | none => []).flatten

/-- Unresolved records in the fault queue (Table 11.6 OUTSTANDING). -/
def State.faultsQueued (s : State) : Nat :=
  (s.fe.tasks.filter fun t => t.2.fseq.isSome).length + s.fe.tileFaults.length

/-- The lowest task number not held (R248). -/
def State.freeTask? (s : State) : Option Nat :=
  (List.range 1024).find? fun n => (FMap.find s.fe.tasks n).isNone

/-- A fault record (Table 11.5). -/
def faultRecord (fseq pseq part seg kind source task ring seq off pages : Nat) : Bytes :=
  withCrc (natLe 4 fseq ++ natLe 2 pseq ++ natLe 1 part ++ natLe 1 seg ++ natLe 1 kind
    ++ natLe 1 source ++ natLe 2 task ++ natLe 2 ring ++ zeros 2 ++ natLe 4 seq ++ natLe 6 off
    ++ natLe 2 (Nat.min pages 65535))

/-- A record enters the device fault queue (R249). -/
def State.fqPut (s : State) (rec_ : Bytes) : State :=
  { s with fe := { s.fe with
    fq := FMap.set s.fe.fq (s.fe.fqProd % 256) rec_, fqProd := (s.fe.fqProd + 1) % 2 ^ 32 } }

/-- Write a task's fault record (R249), or none where 256 are unresolved (R250). -/
def State.faultWrite (s : State) (c : Cmd) (k n seg kind off pages : Nat) : State :=
  let p := c.part
  if s.faultsQueued < 256 then
    let q := s.part p
    let rec_ := faultRecord s.fe.fqProd q.pseq p seg kind 0 n c.ring c.seq off pages
    let task : Task := { cmd := k, part := p, seg := seg, fseq := some s.fe.fqProd }
    let s := { (s.fqPut rec_) with fe := { (s.fqPut rec_).fe with tasks := FMap.set s.fe.tasks n task } }
    let s := s.modPart p fun q => { q with pseq := (q.pseq + 1) % 2 ^ 16 }
    match q.faultArea with
    | some (g, o) => s.writeSeg (.faultCopy p) p g (o + 32 * (q.pseq % 256)) rec_ []
    | none => s
  else
    let s := { s with fe := { s.fe with
      fqOvf := true
      tasks := FMap.set s.fe.tasks n { cmd := k, part := p, seg := seg } } }
    (s.count 0x074 0 1).causeTo p cFqOvf

/-- A transfer of a tile context faults (R249): a record with PART 0xFF and SOURCE 1, which no fault area
receives; none where 256 are unresolved (R250). No partition maps its pages (assumption 126, DEDUCED). -/
def State.tileFault (s : State) (t c seg off pages : Nat) : State :=
  if s.faultsQueued < 256 then
    let q := s.fqPut (faultRecord s.fe.fqProd 0 0xFF seg 0 1 (4 * t + c) 0 0 off pages)
    { q with fe := { q.fe with tileFaults := FMap.set q.fe.tileFaults (4 * t + c) s.fe.fqProd } }
  else (({ s with fe := { s.fe with fqOvf := true } }).count 0x074 0 1).coreCause cFqOvf

/-- The faults of a tile's contexts are resolved: their places in the queue are free (R249). -/
def State.freeTileFaults (s : State) (t : Nat) : State :=
  { s with fe := { s.fe with tileFaults := s.fe.tileFaults.filter fun e => e.1 / 4 != t } }

/-- A held command is held no longer (R248). -/
def State.unhold (s : State) (ring k : Nat) : State :=
  let s := { s with fe := { s.fe with held := s.fe.held.filter (· != k) } }
  s.modRing ring fun r => { r with held := r.held.filter (· != k) }

/-- A command's range faults: it parks as a task, or is held when no task is free (R248). A held one has been counted
(R252). -/
def State.faultPark (s : State) (k : Nat) (c : Cmd) (seg kind off pages : Nat) : State :=
  let s := { s with fe := { s.fe with walks := s.fe.walks.filter (· != k) } }
  match s.freeTask? with
  | some n =>
    let s := if s.fe.held.contains k then s else s.count 0x071 c.part 1
    ((s.setPhase k (.parked n)).unhold c.ring k).faultWrite c k n seg kind off pages
  | none =>
    if s.fe.held.contains k then s
    else
      let s := ((s.count 0x071 c.part 1).count 0x073 0 1).setPhase k .held
      let s := { s with fe := { s.fe with held := s.fe.held ++ [k] } }
      s.modRing c.ring fun r => { r with held := r.held ++ [k] }

/-- The command waits for a walker, in arrival order (R246). -/
def State.walk (s : State) (k : Nat) : State :=
  let s := s.setPhase k .walking
  { s with fe := { s.fe with walks := if s.fe.walks.contains k then s.fe.walks
                                      else s.fe.walks ++ [k] } }

/-- Step 5 of R231 for a command's ranges: true when every range passes; otherwise the command
waits for a walk, is completed with BOUNDS, or parks. -/
def State.translate (s : State) (k : Nat) (c : Cmd) (rs : List Range) : Bool × State :=
  let p := c.part
  if !(s.segMisses p rs).isEmpty then (false, s.walk k)
  else match firstSome (s.rangeBad p) rs with
    | some ro => (false, (if ro then s.count 0x072 p 1 else s).finishIdle k stBounds)
    | none =>
      if !(s.pageMisses p rs).isEmpty then (false, s.walk k)
      else match firstSome (fun r => (s.rangeFault p r).map fun f => (r.seg, f)) rs with
        | some (g, off, n) => (false, s.faultPark k c g (s.faultKind p g off) off n)
        | none =>
          let t := s.setCmd k { c with segs := rs.map (·.seg) }
          (true, ({ t with fe := { t.fe with walks := s.fe.walks.filter (· != k) } }).each (s.pageTokens p rs)
            State.pageUse)

/-- Insert into a cache of `n` entries, dropping the least recently inserted (assumption 13, DEDUCED). -/
def cacheIn (n : Nat) (l : List Nat) (x : Nat) : List Nat := (x :: l.filter (· != x)).take n

/-- A walk reads a segment entry, in OPEN time: a sheet of a place the spec does not give, so the controller and the
package are free values (R182, R193, R246). Assumption 137, DESIGN CHOICE. -/
def State.segEntryRead (s : State) : State :=
  let (n, s) := s.freeVal
  let g := n % 4
  let s := s.count 0x047 g 1
  if (s.t1g g).st = 1 && (s.t1g g).lost.contains (n / 4 % 6) then s.count 0x044 g 1 else s

/-- A walk reads the sheet of a page-map entry, in OPEN time (R182, R193, R246). -/
def State.pageEntryRead (s : State) (p g page : Nat) : State :=
  match FMap.find (s.part p).segs g with
  | none => s
  | some v => if page = noPage then s else (s.openSheets (256 * v.mapSheet page) 256).rebuild (v.mapSheet page)

/-- A walk's result enters the caches (R246). -/
def State.walkFill (s : State) (p g page : Nat) : State :=
  let s := ((s.count 0x070 p 1).segEntryRead).pageEntryRead p g page
  let s := { s with fe := { s.fe with segCache := cacheIn 32 s.fe.segCache (segToken p g) } }
  if page = noPage then s else s.pageUse (pageToken p g page)

/-- A map sheet is poisoned: every page of that sheet reads as invalid (R247). -/
def State.poisonMapSheet (s : State) (p g page : Nat) : State :=
  (s.modSeg p g fun v => { v with
    inval := v.inval ++ ((v.map.map (·.1)).filter fun x => x / 32 == page / 32 && !v.inval.contains x) }).pageDrop
      fun t => t / 2 ^ 20 == segToken p g && t % 2 ^ 20 / 32 == page / 32

/-- Forget the cached translations of a segment. -/
def State.dropCached (s : State) (p g : Nat) : State :=
  ({ s with fe := { s.fe with segCache := s.fe.segCache.filter (· != segToken p g) } }).pageDrop
    fun t => t / 2 ^ 20 == segToken p g

/-! ### SEG_SETUP (R242 to R244) -/

/-- A tier-0 slice: 1.5 GiB (R168). -/
def t0Limit : Nat := 3 * 2 ^ 29

/-- Two byte ranges meet. -/
def overlap (a la b lb : Nat) : Bool := decide (a < b + lb) && decide (b < a + la)

/-- The tier-1 or tier-0 byte ranges a segment owns (R241), as (base, length). -/
def Seg.owns (v : Seg) : List (Nat × Nat) :=
  if v.tier = 2 then []
  else if v.paged then v.map.map fun e => (e.2, pageSize) else [(v.base, v.limit)]

/-- Every segment of every partition: partition, number, segment. -/
def State.allSegs (s : State) : List (Nat × Nat × Seg) :=
  (s.parts.map fun q => q.2.segs.map fun g => (q.1, g.1, g.2)).flatten

/-- Some segment of the tier owns a byte of the range; `skip` names an owner not counted. -/
def State.owned (s : State) (tier a len : Nat) (skip : Option (Nat × Nat)) : Bool :=
  s.allSegs.any fun (p, g, v) =>
    v.tier == tier && skip != some (p, g) && v.owns.any fun (b, l) => overlap a len b l

/-- Entries a page map of `lim` bytes takes of the page-map pool: one of 8 bytes a page, in whole sheets. -/
def mapEntries (lim : Nat) : Nat := 32 * cdiv (lim / pageSize) 32

/-- The lowest place of the page-map pool's 2^27 entries where a page map fits (R247). -/
def State.mapPlace (s : State) (lim : Nat) : Option Nat :=
  let used := (s.allSegs.filter fun (_, _, v) => v.paged).map fun (_, _, v) => (v.mapAt, mapEntries v.limit)
  let fits (a : Nat) : Bool := decide (a + mapEntries lim ≤ 2 ^ 27) && used.all fun (b, n) =>
    decide (b + n ≤ a) || decide (a + mapEntries lim ≤ b)
  ((0 :: used.map fun (b, n) => b + n).filter fits).min?

/-- Zero a range of a tier (R194, R241): tier-0 in every enabled tile's slice. Of tier-1 a FAILED group discards the
writes, and cached sheets go (R15, R183). -/
def State.zeroRange (s : State) (tier a len : Nat) : State :=
  if tier = 1 then
    let failed (n : Nat) : Bool := s.t1Failed (n - t1Addr 0 / 256)
    ({ s with mem := s.mem.zeroBut (t1Addr a) len fun n => s.anyFailed && failed n }).cacheWritten a len
  else if tier = 0 then
    { s with mem := s.tileList.foldl (fun m t => m.zero (t0Addr t a) len) s.mem }
  else s

/-- A command that names the slot may use it: it is LOADED, and no erase of it was fetched before the
command (R200). -/
def Slot.usable (v : Slot) (k : Nat) : Bool :=
  v.loaded && match v.erase with
    | none => true
    | some (_, ws) => ws.contains k

/-- Change a key slot. -/
def State.slot (s : State) (k : Nat) : Slot := FMap.get s.slots k {}
def State.modSlot (s : State) (k : Nat) (f : Slot → Slot) : State :=
  { s with slots := FMap.set s.slots k (f (s.slot k)) }

/-- MiB of each tier-0 slice that a ream reserves: the resident one's, or that of the load in progress
(assumption 125, DEDUCED). -/
def State.t0Reserve (s : State) : Nat :=
  Nat.max s.ream.reserve (match s.ream.job with
    | some j => j.reserve
    | none => 0)

/-- CREATE checks of Table 11.4, 0 when all pass. -/
def State.createCheck (s : State) (k p : Nat) (d : Bytes) : Nat :=
  let attr := sAttr d
  let paged := attr.testBit 0
  let sealed := attr.testBit 1
  let tier := sTier d
  let base := sBase d
  let lim := sLimit d
  let q := s.part p
  let align := if tier = 2 && !paged then 4096 else pageSize
  if 4 < sOp d || 7 < sSeg d || 16 ≤ attr || 2 < tier then stBadFormat
  else if (FMap.find q.segs (sSeg d)).isSome then stBadFormat
  else if (tier = 0 && (paged || sealed)) || (tier = 1 && paged && sealed) || (tier = 2 && sealed)
      || (tier = 2 && attr.testBit 3 && q.remote) then stBadFormat
  else if lim % align != 0 || (!paged && base % align != 0) then stBadFormat
  else if paged && q.faultArea.isNone then stBadFormat
  else if (sealed && !q.hasKey (sBind d)) || (tier = 2 && q.remote && !q.hasQp (sQp d)) then stNoAccess
  else if sealed && !(s.slot (sBind d)).usable k then stKeyEmpty
  else if paged && 2 ^ 40 < lim then stBounds
  else if paged && (s.mapPlace lim).isNone then stBounds
  else if !paged && tier = 1 && (t1Limit < base + lim || s.owned 1 base lim none) then stBounds
  else if tier = 0 && (t0Limit < base + lim + s.t0Reserve * 2 ^ 20 || s.owned 0 base lim none)
  then stBounds
  else 0

/-- The segment CREATE makes. -/
def State.newSeg (s : State) (p : Nat) (d : Bytes) : Seg :=
  let attr := sAttr d
  let rem := sTier d = 2 && (s.part p).remote
  { base := if attr.testBit 0 then 0 else sBase d
    limit := sLimit d
    tier := sTier d
    paged := attr.testBit 0
    sealed := attr.testBit 1
    readOnly := attr.testBit 2
    poisonAware := attr.testBit 3
    remote := rem
    bindSlot := if attr.testBit 1 then sBind d else 0
    qp := if rem then sQp d else 0
    rkey := if rem then sRkey d else 0
    mapAt := if attr.testBit 0 then (s.mapPlace (sLimit d)).getD 0 else 0 }

/-- CREATE's effect (R243): BOUND of a sealed segment's slot rises and the segment is zeroed. -/
def State.createSeg (s : State) (p : Nat) (d : Bytes) : State :=
  let v := s.newSeg p d
  let s := if v.sealed then
      (s.modSlot v.bindSlot fun k => { k with bound := k.bound + 1 }).zeroRange v.tier v.base v.limit
    else s
  s.modPart p fun q => { q with segs := FMap.set q.segs (sSeg d) v }

/-- MAP and UNMAP: the checks on the operands and the segment they share. -/
def State.mapShape (s : State) (p : Nat) (d : Bytes) : Option Seg :=
  if 7 < sSeg d || sPages d = 0 || 2 ^ 19 < sPages d then none
  else match s.seg? p (sSeg d) with
    | some v => if v.paged then some v else none
    | none => none

/-- MAP's pages with their frames. -/
def mapPairs (d : Bytes) : List (Nat × Nat) :=
  (List.range (sPages d)).map fun i => (sFirst d + i, sBase d + pageSize * i)

/-- MAP checks (Table 11.4). -/
def State.mapCheck (s : State) (p : Nat) (d : Bytes) : Nat :=
  match s.mapShape p d with
  | none => stBadFormat
  | some v =>
    let bad := (mapPairs d).any fun (g, f) =>
      decide (v.limit < (g + 1) * pageSize) || v.pageValid g || f % pageSize != 0
        || (v.tier == 1 && decide (t1Limit < f + pageSize))
        || (v.tier == 1 && (s.owned 1 f pageSize (some (p, sSeg d))
             || v.map.any fun e => e.1 != g && e.2 == f))
    if bad then stBounds else 0

/-- The map sheets MAP writes are rewritten: the other pages of one that was poisoned read as invalid until they are
mapped, and its mark goes (R247). -/
def State.rewriteMap (s : State) (p g : Nat) (v : Seg) (pages : List Nat) : State :=
  s.each (((pages.map (· / 32)).eraseDups.map (32 * ·)).filter fun x => s.t1Bad (v.mapSheet x)) fun s x =>
    let s := s.poisonMapSheet p g x
    { s with mem := s.mem.mark (t1Addr (256 * v.mapSheet x) / 256) false }

/-- Frames that MAP takes from pages a poisoned map sheet had made invalid leave their owner zeroed (R241). -/
def State.zeroLost (s : State) (v : Seg) (ps : List (Nat × Nat)) : State :=
  if v.tier = 2 then s
  else s.each ps fun s (g, f) => match FMap.find v.map g with
    | some o => if o = f then s else s.zeroRange v.tier o pageSize
    | none => s

/-- MAP's effect: the pages become valid; entries of a poisoned sheet stay invalid until mapped. -/
def State.mapPages (s : State) (p : Nat) (d : Bytes) : State :=
  match FMap.find (s.part p).segs (sSeg d) with
  | none => s
  | some v =>
    let s := (s.zeroLost v (mapPairs d)).rewriteMap p (sSeg d) v ((mapPairs d).map (·.1))
    s.modSeg p (sSeg d) fun v => { v with
      map := (mapPairs d).foldl (fun m (g, f) => FMap.set m g f) v.map
      inval := v.inval.filter fun g => !inRange (sFirst d) (sPages d) g }

/-- FAULT_AREA checks (R249, Table 11.4). -/
def State.areaCheck (s : State) (p : Nat) (d : Bytes) : Nat :=
  if 7 < sSeg d then stBadFormat
  else match s.seg? p (sSeg d) with
    | none => stBadFormat
    | some v =>
      if v.tier != 2 || v.readOnly || sBase d % 4096 != 0 then stBadFormat
      else if v.limit < sBase d + 8192 then stBounds
      else if s.fe.tasks.any fun t => t.2.part == p then stPartBusy
      else 0

/-- The window a key names on its queue pair (R284). -/
def keyWin (qp rkey : Nat) : Nat := qp * 16 + rkey / 2 ^ 16 % 16

/-- A message checked through a window has not ended (R289): one that waits, or a response not sent. -/
def State.winBusy (s : State) (w : Nat) : Bool :=
  (s.net.qps.any fun e => e.2.resp.any fun r => r.win == w) || s.hp.waits.any fun a => match a with
    | .write q k _ _ => keyWin q k == w
    | .read q k _ _ _ => keyWin q k == w

/-- Windows of a partition onto a segment. -/
def State.winsOn (s : State) (p g : Nat) : List Nat :=
  (s.net.wins.filter fun w => w.2.part == p && w.2.seg == g && !w.2.doorbell).map (·.1)

end Sys2Proof.Machine
end

