-- ==== Sys2Proof/Machine/HostOps.lean ====
section
/-! DEFINITION. The host-line directory (R260): lines of tier-1 the host caches, and the snoops that
take them back. A line is numbered by its device byte address divided by 64. -/

namespace Sys2Proof.Machine

/-- Tracked lines of a range of tier-1, and lines the host has been asked for. -/
def State.trackedIn (s : State) (a len : Nat) : List Nat :=
  (s.hp.dir ++ s.hp.biWait.filter fun l => !s.hp.dir.contains l).filter fun l =>
    decide (a < 64 * l + 64) && decide (64 * l < a + len)

/-- Ask the host for lines back (BISnpInv); a line is asked for once. While the link does not run CXL nothing is asked:
what needs a snoop waits (R267). -/
def State.snoop (s : State) (ls : List Nat) : State :=
  if !s.hp.cxlOk then s
  else
    let new := (ls.filter fun l => !s.hp.biWait.contains l).eraseDups
    ({ s with hp := { s.hp with biWait := s.hp.biWait ++ new } }).count 0x085 0 new.length

/-- Of some tracked lines, those an OPEN read must ask for first: the host does not hold them merely shared. -/
def State.readBlocked (s : State) (ls : List Nat) : List Nat := ls.filter fun l => !s.hp.shared.contains l

/-- Ask the host for the current data of lines, which it may go on holding shared (BISnpData). -/
def State.snoopData (s : State) (ls : List Nat) : State :=
  if !s.hp.cxlOk then s
  else
    let new := (ls.filter fun l => !s.hp.biWait.contains l && !s.hp.biData.contains l).eraseDups
    ({ s with hp := { s.hp with biData := s.hp.biData ++ new } }).count 0x085 0 new.length

/-- An OPEN read of lines takes the host's answers: the next one asks again (R260). -/
def State.readTaken (s : State) (ls : List Nat) : State :=
  if ls.isEmpty then s
  else { s with hp := { s.hp with shared := s.hp.shared.filter fun l => !ls.contains l } }

/-- Tracked lines of a range of a segment that lies in tier-1. -/
def State.segLines (s : State) (p g off len : Nat) : List Nat :=
  if s.hp.dir.isEmpty && s.hp.biWait.isEmpty then []
  else match FMap.find (s.part p).segs g with
    | some v =>
      if v.tier = 1 then ((piecesOf v off (zeros len)).map fun (o, b) => s.trackedIn (v.addr o) b.length).flatten
      else []
    | none => []

/-- An OPEN client's access to a range of a segment begins (R182, R193, R260): the host is asked for the lines it holds
and the access waits, or its sheets are moved, those of a lost package that it reads rebuilt, and it goes on. -/
def State.openAsk (s : State) (p g off len : Nat) (write : Bool) : Bool × State :=
  let ls := s.segLines p g off len
  let ask := if write then ls else s.readBlocked ls
  if !ask.isEmpty then (false, if write then s.snoop ask else s.snoopData ask)
  else (true, (s.readTaken ls).openRange p g off len (!write))

/-! ### The front end's own reads of a remote segment (R290) -/

/-- A tier-2 segment of a remote partition. -/
def State.remoteSeg (s : State) (p g : Nat) : Option Seg :=
  match FMap.find (s.part p).segs g with
  | some v => if v.tier = 2 && v.remote then some v else none
  | none => none

/-- Forget what a command's reads brought. -/
def State.dropOper (s : State) (k : Nat) : State :=
  { s with io := { s.io with out := s.io.out.filter fun x => x.use != .oper k } }

/-- Every read of a command has been answered. -/
def State.operReady (s : State) (k : Nat) : Bool := s.doneFor (.oper k) && !s.outFor (.oper k)

/-- What answered reads brought, in order. -/
def readsJoin (xs : List Xfer) : Rd :=
  xs.foldl (fun r x => { data := r.data ++ x.data, poison := r.poison ++ x.poison.map (· + r.data.length / 64) })
    { data := [] }

/-- What the front end reads of a range for a command: of a remote segment what its RDMA READs brought, nothing before
they are answered. -/
def State.operOf (s : State) (k p g : Nat) (ext : Rd) : Rd :=
  match s.remoteSeg p g with
  | none => ext
  | some _ => if s.operReady k then readsJoin (s.io.out.filter fun x => x.use == .oper k) else { data := [] }

/-- The front end is about to read a range for a command: it goes on, or first waits for the answers of RDMA READs of a
remote segment. -/
def State.operAsk (s : State) (k p g off len : Nat) : Bool × State :=
  match s.remoteSeg p g with
  | none => (true, s)
  | some v =>
    if len = 0 then (true, s)
    else if s.operReady k then (true, s.dropOper k)
    else if s.outFor (.oper k) then (false, s)
    else (false, s.each (piecesOf v off (zeros len)) fun s (o, d) =>
      s.issue { id := 0, use := .oper k, part := p, kind := 1, qp := some v.qp, rkey := v.rkey
                addr := v.addr o, len := d.length })

/-- The tier-1 frames that segments of some partitions own. -/
def State.framesOf (s : State) (q : Nat → Bool) : List (Nat × Nat) :=
  ((s.allSegs.filter fun (p, _, v) => q p && v.tier == 1).map fun (_, _, v) => v.owns).flatten

/-- Tracked lines in frames of the partitions named. Assumption 23, DEDUCED. -/
def State.closingLines (s : State) (q : Nat → Bool) : List Nat :=
  let fs := s.framesOf q
  (s.hp.dir ++ s.hp.biWait.filter fun l => !s.hp.dir.contains l).filter fun l =>
    fs.any fun (a, n) => decide (a ≤ 64 * l) && decide (64 * l < a + n)

end Sys2Proof.Machine
end

