-- ==== Sys2Proof/Machine/Front.lean ====
section
/-! DEFINITION. The front end's checks of an accepted command (R228 to R231, R383) and the shared
steps of parked and held commands (R248, R251). -/

namespace Sys2Proof.Machine

def Cmd.op (c : Cmd) : Nat := fld c.desc 6 1
def Cmd.flags (c : Cmd) : Nat := fld c.desc 7 1
def Cmd.coded (c : Cmd) : Bool := c.flags.testBit 0
def Cmd.f (c : Cmd) (off len : Nat) : Nat := fld c.desc off len

/-- An opcode of Table 10.9: whether it is marked Kernel, and its feature bit. -/
def opInfo (op : Nat) : Option (Bool × Nat) :=
  if op = 0x01 then some (false, 0)
  else if 0x10 ≤ op && op ≤ 0x12 then some (true, 0)
  else if op = 0x13 then some (true, 3)
  else if op = 0x20 || op = 0x21 || op = 0x23 then some (true, 1)
  else if op = 0x22 || op = 0x24 then some (false, 1)
  else if op = 0x30 then some (true, 5)
  else if 0x31 ≤ op && op ≤ 0x34 then some (true, 0)
  else if op = 0x40 || op = 0x41 then some (true, 0)
  else if 0x50 ≤ op && op ≤ 0x52 then some (true, 6)
  else none

/-- Operand bytes Table 10.9 and the chapters name, as (offset, length); the rest of bytes 16 to 59
is reserved (R228). -/
def opBytes (op : Nat) : List (Nat × Nat) :=
  if op = 0x01 then [(16, 22), (40, 14)]
  else if op = 0x10 || op = 0x11 then [(16, 1), (24, 6), (32, 4)]
  else if op = 0x20 then [(16, 3), (20, 2), (24, 6)]
  else if op = 0x21 then [(16, 2)]
  else if op = 0x22 then [(16, 3), (24, 6)]
  else if op = 0x23 then [(16, 2), (24, 6)]
  else if op = 0x24 then [(16, 41)]
  else if op = 0x30 then [(16, 1), (18, 14)]
  else if op = 0x31 then [(16, 1)]
  else if op = 0x32 then [(16, 3), (24, 6)]
  else if op = 0x33 then [(16, 36)]
  else if op = 0x34 then [(16, 1), (18, 2)]
  else if op = 0x40 then [(16, 5), (22, 26)]
  else if op = 0x41 then [(17, 3)]
  else if op = 0x50 then [(16, 1), (18, 7), (28, 6), (36, 4)]
  else if op = 0x51 then [(16, 1), (24, 6), (32, 4)]
  else if op = 0x52 then [(16, 1), (18, 2), (24, 8)]
  else []

/-- Every reserved operand byte is 0. -/
def reservedOk (d : Bytes) : Bool :=
  (List.range 44).all fun i =>
    (opBytes (fld d 6 1)).any (fun (o, l) => o ≤ 16 + i && 16 + i < o + l) || fld d (16 + i) 1 == 0

/-- No key slot (Table 10.7). -/
def noSlot : Nat := 0xFFFF

/-- Segment operands of a descriptor, each 0 to 7 (R230). -/
def segFields (d : Bytes) : List Nat :=
  let op := fld d 6 1
  if op = 0x01 then [fld d 20 1, fld d 21 1]
  else if op = 0x10 || op = 0x11 || op = 0x51 then [fld d 16 1]
  else if op = 0x20 || op = 0x22 || op = 0x32 then [fld d 18 1]
  else if op = 0x23 then [fld d 17 1]
  else if op = 0x24 then [fld d 18 1, fld d 19 1, fld d 20 1]
  else if op = 0x40 then [fld d 16 1]
  else []

/-- Step 1 of R231 on the descriptor itself, giving BAD_DESC. Assumption 93, DEDUCED. -/
def badDesc (d : Bytes) : Bool :=
  let op := fld d 6 1
  (opInfo op).isNone || fld d 7 1 / 2 != 0 || !reservedOk d || (segFields d).any (7 < ·)
    || (op == 0x01 && (fld d 24 6 % 256 != 0 || fld d 32 6 % 256 != 0
          || (fld d 30 2 != noSlot && fld d 48 6 % 256 != 0)))
    || ((op == 0x30 || op == 0x31) && 15 < fld d 16 1)
    || (op == 0x23 && 15 < fld d 16 1)
    || (op == 0x24 && ((15 < fld d 21 1 && fld d 21 1 != 0xFF)
      || (fld d 16 2 != noSlot && fld d 22 6 % 256 != 0)))
    || (op == 0x34 && (1 < fld d 16 1 || (1023 < fld d 18 2 && fld d 18 2 != 0xFFFF)))
    || (op == 0x40 && 3 < fld d 20 1)
    || ((op == 0x50) && 2 < fld d 16 1) || (op == 0x52 && 1 < fld d 16 1)

/-- The command names key slots whose use needs SEALED (Table 10.2). -/
def usesSlots (d : Bytes) : Bool :=
  fld d 6 1 == 0x01 && (fld d 22 2 != noSlot || fld d 30 2 != noSlot)

/-- Step 3 of R231: counts and lengths. -/
def badCount (d : Bytes) : Bool :=
  let op := fld d 6 1
  (op == 0x01 && (4095 < fld d 16 2 || 2048 < fld d 18 2 || fld d 40 4 == 0xFFFFFFFF
      || fld d 44 4 == 0xFFFFFFFF))
    || ((op == 0x10 || op == 0x11) && 2 ^ 30 < fld d 32 4)
    || (op == 0x20 && 4096 < fld d 20 2)
    || (op == 0x24 && 2 ^ 32 < fld d 52 5)

/-- Fields of an envelope header (Table 9.3). -/
def eAad (h : Bytes) : Nat := fld h 28 2
def eCt (h : Bytes) : Nat := fld h 32 8
def eBytes (h : Bytes) : Nat := 64 + eAad h + eCt h + 16

/-- The header breaks a field's value or range. Assumption 58, DEDUCED. -/
def envelopeBad (h : Bytes) (alg : Nat) : Bool :=
  h.length != 64 || fld h 0 4 != 0x4F534E59 || fld h 4 2 != 1 || fld h 6 1 != alg || fld h 7 1 != 0
    || 4032 < eAad h || fld h 30 2 != 0 || eCt h = 0 || 2 ^ 32 < eCt h || !zeroAt h 40 24

/-- Bytes of an INGEST's source that are translated (R203): the plaintext, or the envelope as far as it lies in its
segment, once its header can be read; a bad header is refused whatever follows it. -/
def State.envelopeLen (s : State) (c : Cmd) : Nat :=
  let (p, g, o) := (c.part, c.f 18 1, c.f 22 6)
  let hdr : Range := { seg := g, off := o, len := 64, tiers := [1] }
  match s.seg? p g with
  | none => 64
  | some v =>
    if (s.rangeBad p hdr).isSome || (s.rangeFault p hdr).isSome then 64
    else
      let rd := s.readSeg p g o 64 { data := [] }
      if !rd.poison.isEmpty || envelopeBad rd.data (s.slot (c.f 16 2)).alg then 64
      else Nat.min (eBytes rd.data) (v.limit - o)

/-- Step 4 of R231: ownership and ream; 0 passes. -/
def State.ownership (s : State) (c : Cmd) : Nat :=
  let op := c.op
  let q := s.part c.part
  let notMine (k : Nat) : Bool := !q.hasKey k
  if op = 0x01 then
    if !s.ream.resident || !s.ream.admission then stNoReam
    else if !s.hasAccess c.part then stNoAccess
    else if (c.f 22 2 != noSlot && notMine (c.f 22 2)) || (c.f 30 2 != noSlot && notMine (c.f 30 2))
    then stNoAccess
    else 0
  else if op = 0x10 then (if s.ream.resident && c.part != s.ream.owner then stNoAccess else 0)
  else if op = 0x11 || op = 0x12 || op = 0x13 || (0x50 ≤ op && op ≤ 0x52) then
    if s.ream.resident then (if c.part != s.ream.owner then stNoAccess else 0)
    else if (op = 0x11 || op = 0x12) && s.ream.job.isSome then 0
    else stNoReam
  else if op = 0x20 || op = 0x21 || op = 0x22 then (if notMine (c.f 16 2) then stNoAccess else 0)
  else if op = 0x24 then
    (if c.f 16 2 != noSlot && notMine (c.f 16 2) then stNoAccess else 0)
  else if op = 0x30 then (if c.part != 0 || c.f 16 1 = 0 then stNoAccess else 0)
  else if op = 0x31 then (if c.part != 0 && c.f 16 1 != c.part then stNoAccess else 0)
  else if op = 0x32 then (if q.hasRing (c.f 16 2) then 0 else stNoAccess)
  else 0

/-- Steps 1 to 4 of R231 on an accepted command; 0 passes. -/
def State.precheck (s : State) (c : Cmd) : Nat :=
  if badDesc c.desc then stBadDesc
  else match opInfo c.op with
    | none => stBadDesc
    | some (kern, feat) =>
      let q := s.part c.part
      if kern && !(s.ring c.ring).kernel then stNotPrivileged
      else if !q.feat feat || (usesSlots c.desc && !q.feat 1) || (c.coded && !q.feat 2) then stNoFeature
      else if badCount c.desc then stBadCount
      else s.ownership c

/-- The span of the ream's transfers on every segment (R245), with the tier their class needs. -/
def State.reamRanges (s : State) : List Range :=
  let ws := s.programWords
  ((List.range 8).map fun g => (spanOf ws g).map fun (lo, hi, tiers, put) =>
    { seg := g, off := lo, len := hi - lo, tiers := tiers, write := put }).flatten

/-- Step 5: the ranges a command names (R245). -/
def State.cmdRanges (s : State) (c : Cmd) : List Range :=
  let op := c.op
  if op = 0x01 then
    [{ seg := c.f 20 1, off := c.f 24 6, len := c.f 40 4, tiers := [1, 2] },
     { seg := c.f 21 1, off := c.f 32 6, len := c.f 44 4, tiers := [1, 2], write := true }]
    ++ (if c.f 30 2 = noSlot then [] else
      [{ seg := c.f 21 1, off := c.f 48 6, len := 128, tiers := [2], write := true }])
    ++ s.reamRanges
  else if op = 0x10 || op = 0x11 then
    [{ seg := c.f 16 1, off := c.f 24 6, len := c.f 32 4, tiers := [1, 2] }]
  else if op = 0x20 then [{ seg := c.f 18 1, off := c.f 24 6, len := c.f 20 2, tiers := [1, 2] }]
  else if op = 0x22 then
    [{ seg := c.f 18 1, off := c.f 24 6, len := 64, tiers := [1, 2], write := true }]
  else if op = 0x23 then [{ seg := c.f 17 1, off := c.f 24 6, len := 32, tiers := [1, 2] }]
  else if op = 0x24 then
    (if c.f 16 2 = noSlot then
      [{ seg := c.f 18 1, off := c.f 22 6, len := c.f 52 5, tiers := [0, 1, 2] }]
     else
      [{ seg := c.f 18 1, off := c.f 22 6, len := s.envelopeLen c, tiers := [1] },
       { seg := c.f 19 1, off := c.f 28 6, len := c.f 34 6, tiers := [0, 1, 2], write := true }])
    ++ [{ seg := c.f 20 1, off := c.f 40 6, len := c.f 46 6, tiers := [0, 1, 2], write := true }]
  else if op = 0x32 then [{ seg := c.f 18 1, off := c.f 24 6, len := 64, tiers := [1, 2] }]
  else if op = 0x51 then
    [{ seg := c.f 16 1, off := c.f 24 6, len := c.f 32 4, tiers := [1, 2], write := true }]
  else []

/-- Descriptor index `a` of a ring stands before `b`. -/
def seqBefore (a b : Nat) : Bool := a != b && decide (sub32 b a < 2 ^ 31)

/-- An accepted command may run its checks: no earlier command of its ring is held at the ring's head (R248), and a
SEG_SETUP or FAULT_RESUME follows those its ring accepted before (R242). -/
def State.atTurn (s : State) (c : Cmd) : Bool :=
  !((s.ring c.ring).held.any fun h => seqBefore (h % 2 ^ 32) c.seq)
    && !((c.op == 0x33 || c.op == 0x34) && s.fe.cmds.any fun e => e.2.ring == c.ring
      && (e.2.op == 0x33 || e.2.op == 0x34) && seqBefore e.2.seq c.seq)

/-- An accepted command of this opcode whose checks have not all run: fresh and at its turn, or walking (R246). -/
def State.fresh? (s : State) (k op : Nat) : Option Cmd :=
  match s.cmd? k with
  | some c => if ((c.phase = .accepted && s.atTurn c) || c.phase = .walking) && c.op = op then some c else none
  | none => none

/-- Complete a command its checks refuse; PRIV_DENY counts (R230). -/
def State.refuse (s : State) (k : Nat) (c : Cmd) (st : Nat) : State :=
  (if st = stNotPrivileged then s.count 0x063 c.part 1 else s).finishIdle k st

/-- A range of a command that it reads or writes for itself lies in tier-2 of a partition whose memory
cannot be reached: the access fails (R221, R267). -/
def State.cutOff (s : State) (c : Cmd) : Bool :=
  ((s.cmdRanges c).take (if c.op = 0x01 then 1 else 4)).any fun r => match s.heldSeg c.part r.seg with
    | some v => v.tier == 2 && !s.hostUp c.part v.qp
    | none => false

/-- Steps 1 to 5 of R231, then `go` where they pass. A command that has waited for its walks goes on
with step 5. -/
def State.front (s : State) (k op : Nat) (go : State → Cmd → State) : State :=
  match s.fresh? k op with
  | none => s
  | some c =>
    let st := if c.phase = .walking then 0 else s.precheck c
    if st != 0 then s.refuse k c st
    else
      let (ok, s) := s.translate k c (s.cmdRanges c)
      if !ok then s
      else if s.cutOff c then s.finishIdle k stXferFail
      else go s c

/-! ### POST: the directory and the seals (R229, R231 steps 6 and 7) -/

/-- Bytes of the directory (R229). -/
def dirSize (nLists : Nat) : Nat := 256 * cdiv (256 + 8 * nLists) 256

def dTable (d : Bytes) (j : Nat) : Nat := fld d (256 + 8 * j) 2
def dKind (d : Bytes) (j : Nat) : Nat := fld d (258 + 8 * j) 1
def dLen (d : Bytes) (j : Nat) : Nat := fld d (260 + 8 * j) 4

/-- A reserved KIND or field of the directory (R231 step 1). -/
def dirBad (d : Bytes) (nLists : Nat) (sealIn : Bool) : Bool :=
  !zeroAt d 4 124 || (!sealIn && !zeroAt d 128 128)
    || (List.range nLists).any fun j => 1 < dKind d j || fld d (259 + 8 * j) 1 != 0

/-- Bytes of an index list (R131) and of a gradient list (Table 7.2). -/
def indexListBytes (q l : Nat) : Nat := 8 * cdiv (4 * q + 4) 8 + 8 * l
def gradListBytes (fmt d l : Nat) : Nat := 256 * (1 + cdiv (8 * l) 256 + cdiv (gradBytes fmt d) 256 * l)


/-- Stored bytes of list `j`. -/
def State.listBytes (s : State) (q : Nat) (d : Bytes) (j : Nat) : Nat :=
  if dKind d j = 0 then indexListBytes q (dLen d j)
  else
    let b := recBody s.ream.recs 8 (dTable d j)
    gradListBytes (tGradFmt b) (tDim b) (dLen d j)

/-- The lists in directory order, each at the first sheet boundary after the part before it: their
offsets in the stored and in the staged body, and the ends of both (R229, R382). -/
def State.layLists (s : State) (q : Nat) (d : Bytes) (n dense raw : Nat) : List PList × Nat :=
  (List.range n).foldl (fun (ls, e, e') j =>
    let sz := s.listBytes q d j
    let o := sheetUp e
    let o' := sheetUp e'
    (ls ++ [{ table := dTable d j, kind := dKind d j, entries := dLen d j, srcOff := o, off := o',
              size := sz }], o + sz, o' + sz)) ([], dense, raw)
  |> fun (ls, e, _) => (ls, e)

/-- Two lists of one kind name one table. -/
def dupLists : List PList → Bool
  | [] => false
  | l :: ls => ls.any (fun m => m.table == l.table && m.kind == l.kind) || dupLists ls

/-- A list that breaks the plan's shape (R45, R150). -/
def State.listShape (s : State) (l : PList) : Bool :=
  match s.tableRec l.table with
  | none => true
  | some r =>
    tComponent r.body || (l.kind == 0 && tMaxEntries r.body < l.entries)
      || (l.kind == 1 && (!tUpdatable r.body || tMaxGrads r.body < l.entries))

/-- Seal record fields of Table 9.7 break MAGIC, FORMAT, ALG, KIND or a reserved byte. -/
def sealBad (r : Bytes) (alg ctLen : Nat) : Bool :=
  fld r 0 4 != 0x52534E59 || fld r 4 2 != 1 || fld r 6 1 != alg || fld r 7 1 != 1
    || !zeroAt r 30 2 || !zeroAt r 46 2 || !zeroAt r 80 48 || fld r 48 8 != ctLen

/-- Step 7 of R231: sealing and keys (R195, R201, R203, R207, R208); 0 passes. -/
def State.sealCheck (s : State) (c : Cmd) (d : Bytes) (bodyLen : Nat) : Nat :=
  let inS := c.f 22 2
  let outS := c.f 30 2
  let res := s.seg? c.part (c.f 21 1)
  let sealRec := (d.drop 128).take 128
  let missing := match res with
    | some v => s.ream.sealed && ((v.tier == 1 && !v.sealed) || (v.tier == 2 && outS == noSlot))
    | none => false
  let k := s.slot inS
  let o := s.slot outS
  if missing then stSealRequired
  else if (inS != noSlot && !k.usable (cmdKey c.ring c.seq))
      || (outS != noSlot && !o.usable (cmdKey c.ring c.seq)) then stKeyEmpty
  else if inS != noSlot && leNat k.keyId != fld sealRec 8 8 then stKeyMismatch
  else if inS != noSlot && sealBad sealRec k.alg bodyLen then stEnvelopeBad
  else if outS != noSlot && c.f 16 2 != 0 && res.any (·.tier == 2) && 2 ^ 64 - 1 ≤ o.outCtr then stKeyExhausted
  else 0

/-- Steps 6 and 7 of R231 on the directory read for a post (`dir`), and what follows: the post
completes with its failing status, or with OK when it has no queries (R45), or enters staging. -/
def State.postJudge (s : State) (k : Nat) (c : Cmd) (dir : Rd) : State :=
  let n := c.f 18 2
  let q := c.f 16 2
  let dl := dirSize n
  let dir := s.operOf k c.part (c.f 20 1) dir
  let (ok, s) := s.operAsk k c.part (c.f 20 1) (c.f 24 6) (Nat.min dl (c.f 40 4))
  if !ok then s
  else
  let (ok, s) := s.openAsk c.part (c.f 20 1) (c.f 24 6) (Nat.min dl (c.f 40 4)) false
  if !ok then s
  else
  let rd := s.readSeg c.part (c.f 20 1) (c.f 24 6) dl dir
  let d := rd.data ++ zeros (dl - rd.data.length)
  let dense := fld d 0 4
  let raw := q * hDense s.ream.hdr
  let (lists, bodyEnd) := s.layLists q d n dense raw
  let none_ := postResult 0 none
  if rd.poison.any (· < cdiv dl 64) then (s.count 0x0B0 c.part 1).finish k stPoison none_
  else if c.f 40 4 < dl then s.finish k stBounds none_
  else if dirBad d n (c.f 22 2 != noSlot) then s.finish k stBadDesc none_
  else if lists.any (fun l => l.kind == 1) && !(s.part c.part).feat 3 then s.finish k stNoFeature none_
  else if lists.any (fun l => 16777216 < l.entries) then s.finish k stBadCount none_
  else if c.f 40 4 < dl + bodyEnd then s.finish k stBounds none_
  else if hQMax s.ream.hdr < q || lists.any s.listShape || dupLists lists
      || (!c.coded && dense != raw) || c.f 44 4 != q * hResult s.ream.hdr then
    s.finish k stShapeOver none_
  else if lists.any (fun l => l.kind == 1 &&
      !(tUpdParts (recBody s.ream.recs 8 l.table)).testBit c.part) then s.finish k stNoAccess none_
  else
    let st := s.sealCheck c d bodyEnd
    if st != 0 then s.finish k st none_
    else if q = 0 then s.finish k stOk none_
    else
      (s.setPhase k .post).setPost k
        { ring := c.ring, seq := c.seq, part := c.part, q := q, lists := lists, denseLen := dense
          sealRec := if c.f 22 2 = noSlot then [] else (d.drop 128).take 128 }

/-- What a range holds, where the front end can read the whole of it before step 5 of R231. -/
def State.readNow (s : State) (p : Nat) (r : Range) (ext : Rd) : Option Bytes :=
  if (s.rangeBad p r).isSome || (s.rangeFault p r).isSome then none
  else
    let rd := s.readSeg p r.seg r.off r.len ext
    if rd.poison.isEmpty && rd.data.length == r.len then some rd.data else none

/-- Steps 1 and 2 of R231 on a post's directory, where it can be read at once: a reserved KIND or field, and a gradient
list without UPDATE; 0 passes. -/
def State.dirEarly (s : State) (c : Cmd) (dir : Rd) : Nat :=
  let n := c.f 18 2
  let dir := s.operOf (cmdKey c.ring c.seq) c.part (c.f 20 1) dir
  if 2048 < n || badDesc c.desc then 0
  else match s.readNow c.part { seg := c.f 20 1, off := c.f 24 6, len := dirSize n, tiers := [1, 2] } dir with
    | none => 0
    | some d =>
      if dirBad d n (c.f 22 2 != noSlot) then stBadDesc
      else if (List.range n).any (fun j => dKind d j == 1) && !(s.part c.part).feat 3 then stNoFeature
      else 0

/-! ### Parked and held commands (R248, R251) -/

/-- Step 5 of R231 again, for a parked or held command: BOUNDS completes it, a fault parks or holds
it again, and a command that passes goes on by reading its operands (phase walking). -/
def State.recheck (s : State) (k : Nat) : State :=
  match s.cmd? k with
  | none => s
  | some c =>
    let p := c.part
    let rs := s.cmdRanges c
    match firstSome (s.rangeBad p) rs with
    | some ro => (if ro then s.count 0x072 p 1 else s).finishIdle k stBounds
    | none =>
      match firstSome (fun r => (s.rangeFault p r).map fun f => (r.seg, f)) rs with
      | some (g, off, n) => s.faultPark k c g (s.faultKind p g off) off n
      | none => (s.unhold c.ring k).walk k

/-- A task has freed: every held command is checked again, in the order it was held (R248). -/
def State.recheckHeld (s : State) : State := s.each s.fe.held fun s k => s.recheck k

/-- Held commands are checked again where fewer tasks are held than the `n` there were (R248). -/
def State.recheckFreed (s : State) (n : Nat) : State := if s.fe.tasks.length < n then s.recheckHeld else s

/-- Complete a command that may be parked or held, and recheck held commands where a task freed. -/
def State.finishFree (s : State) (k status : Nat) (result flags : Nat := 0) : State :=
  (s.finish k status result flags).recheckFreed s.fe.tasks.length

/-- Tasks a FAULT_RESUME names (R251), as task number and command. -/
def State.namedTasks (s : State) (p t : Nat) : List (Nat × Nat) :=
  (s.fe.tasks.filter fun e => e.2.part == p && (t == 0xFFFF || e.1 == t)).map fun e => (e.1, e.2.cmd)

/-- A TASK of another partition. -/
def State.foreignTask (s : State) (p t : Nat) : Bool :=
  match FMap.find s.fe.tasks t with
  | some e => e.part != p
  | none => false

/-- SEG_SETUP and FAULT_RESUME run one at a time device-wide (R242). -/
def State.segFree (s : State) : Bool := s.fe.drain.isNone

/-! ### Meanings: segments (chapter 11) -/

/-- SEG_SETUP with a given OP. -/
def State.segSetup (s : State) (k op : Nat) (go : State → Cmd → State) : State :=
  if !s.segFree then s
  else s.front k 0x33 fun t c => if sOp c.desc = op then go t c else s

/-- SEG_SETUP CREATE (R243, R194). A reserved OP fails here too, with BAD_FORMAT. -/
def execSegSetupCreate (ring seq : Nat) (s : State) : Host.Outcome State Fault Refusal :=
  let k := cmdKey ring seq
  .next (if !s.segFree then s else s.front k 0x33 fun t c =>
    if sOp c.desc = 0 || 4 < sOp c.desc then
      let st := t.createCheck k c.part c.desc
      if st != 0 then t.finish k st else (t.createSeg c.part c.desc).finish k stOk
    else s)

/-- Host-cached lines of the frames that MAP takes from pages a poisoned map sheet had made invalid (R241, R260). -/
def State.lostLines (s : State) (p : Nat) (d : Bytes) : List Nat :=
  match FMap.find (s.part p).segs (sSeg d) with
  | some v =>
    if v.tier != 1 then []
    else ((mapPairs d).map fun (g, f) => match FMap.find v.map g with
      | some o => if o = f then [] else s.trackedIn o pageSize
      | none => []).flatten
  | none => []

/-- SEG_SETUP MAP (R243, R247): all pages or none. It waits for the host's lines in frames that it zeroes (R260). -/
def execSegSetupMap (ring seq : Nat) (s : State) : Host.Outcome State Fault Refusal :=
  let k := cmdKey ring seq
  .next (s.segSetup k 2 fun s c =>
    let st := s.mapCheck c.part c.desc
    if st != 0 then s.finish k st
    else if !(s.lostLines c.part c.desc).isEmpty then s.snoop (s.lostLines c.part c.desc)
    else ((s.mapPages c.part c.desc).dropCached c.part (sSeg c.desc)).finish k stOk)

/-- SEG_SETUP FAULT_AREA (R249). -/
def execSegSetupFaultArea (ring seq : Nat) (s : State) : Host.Outcome State Fault Refusal :=
  let k := cmdKey ring seq
  .next (s.segSetup k 4 fun s c =>
    let st := s.areaCheck c.part c.desc
    if st != 0 then s.finish k st
    else (s.modPart c.part fun q => { q with faultArea := some (sSeg c.desc, sBase c.desc) }).finish
      k stOk)

/-- A command of a partition was checked against a segment, or against pages of it. -/
def State.usesPages (s : State) (c : Cmd) (p g : Nat) (pages : Option (Nat × Nat)) : Bool :=
  c.part == p && (s.cmdRanges c).any fun r => r.seg == g && (match pages with
    | none => true
    | some (f, n) => overlap r.off r.len (f * pageSize) (n * pageSize))

/-- Admitted posts and started commands that were checked against a range and have not completed (R244). -/
def State.rangeUsers (s : State) (p g : Nat) (pages : Option (Nat × Nat)) : List Nat :=
  (s.fe.cmds.filter fun e =>
    (e.2.phase == .running || (e.2.phase == .post && (s.post? e.1).any (·.phase == 3)))
      && s.usesPages e.2 p g pages).map (·.1)

/-- The drain of R244 begins. Assumption 85, DEDUCED. -/
def State.startDrain (s : State) (d : SegDrain) : State :=
  { s with fe := { s.fe with drain := some d } }

/-- The WINDOW_REMOVE commands that wait for a window. -/
def State.winRemoves (s : State) (w : Win) : List Nat := w.closing.filter fun k => (s.cmd? k).any fun c => c.op == 0x41

/-- A REMOVE or UNMAP starts: what it names stays invalid until it completes (R244). -/
def State.takeEffect (s : State) (k : Nat) : State :=
  match s.cmd? k with
  | some c => s.setCmd k { c with phase := .running, progress := s.now, takes := true }
  | none => s

/-- SEG_SETUP UNMAP, accepted: its pages are invalid for every later check (R244). -/
def execSegSetupUnmap (ring seq : Nat) (s : State) : Host.Outcome State Fault Refusal :=
  let k := cmdKey ring seq
  .next (s.segSetup k 3 fun s c =>
    let p := c.part
    let g := sSeg c.desc
    match s.mapShape p c.desc with
    | none => s.finish k stBadFormat
    | some _ =>
      let pages := (sFirst c.desc, sPages c.desc)
      ((s.dropCached p g).takeEffect k).startDrain { cmd := k, part := p, seg := g, pages := some pages })

/-- SEG_SETUP REMOVE, accepted: the segment is invalid for every later check, its windows refuse
every message, and tasks parked on it complete with BOUNDS (R244, R289). -/
def execSegSetupRemove (ring seq : Nat) (s : State) : Host.Outcome State Fault Refusal :=
  let k := cmdKey ring seq
  .next (s.segSetup k 1 fun s c =>
    let p := c.part
    let g := sSeg c.desc
    if 7 < g || (s.heldSeg p g).isNone then s.finish k stBadFormat
    else if s.holdsTable p g then s.finish k stReamBusy
    else
      let s := { s with net := { s.net with
        wins := FMap.mapV s.net.wins fun _ w =>
          if w.part = p && w.seg = g && !w.doorbell then { w with closing := w.closing ++ [k] } else w } }
      let s := (s.dropCached p g).takeEffect k
      let s := s.startDrain { cmd := k, part := p, seg := g, pages := none }
      let parked := (s.fe.tasks.filter fun t => t.2.part == p && t.2.seg == g).map (·.2.cmd)
      (s.each parked fun s x => s.finishIdle x stBounds).recheckFreed s.fe.tasks.length)

/-- The drain of R244 has ended: every admitted post and started command that was checked against the range has
completed, and no message checked through its windows is in progress. -/
def State.drained (s : State) (d : SegDrain) : Bool :=
  (s.rangeUsers d.part d.seg d.pages).isEmpty &&
    (d.pages.isSome || (s.winsOn d.part d.seg).all fun w => !s.winBusy w)

/-- Zero the frames pages own, and take the pages out of the map (R241). -/
def State.dropPages (s : State) (p g first n : Nat) : State :=
  match FMap.find (s.part p).segs g with
  | none => s
  | some v =>
    let out := v.map.filter fun e => inRange first n e.1
    let s := if v.tier = 2 then s else s.each out fun s e => s.zeroRange v.tier e.2 pageSize
    s.modSeg p g fun v => { v with
      map := v.map.filter fun e => !inRange first n e.1
      inval := v.inval.filter fun x => !inRange first n x }

/-- Zero what a segment owns and remove it, with its windows and its slot's BOUND (R194, R244). -/
def State.removeSeg (s : State) (p g : Nat) : State :=
  match FMap.find (s.part p).segs g with
  | none => s
  | some v =>
    let s := s.each v.owns fun s r => s.zeroRange v.tier r.1 r.2
    let s := if v.sealed then s.modSlot v.bindSlot fun k => { k with bound := k.bound - 1 } else s
    let gone := s.winsOn p g
    let s := { s with net := { s.net with
      wins := s.net.wins.filter fun w => !gone.contains w.1 } }
    s.modPart p fun q => { q with
      segs := FMap.del q.segs g
      faultArea := match q.faultArea with
        | some (a, o) => if a = g then none else some (a, o)
        | none => none }

/-- FAULT_RESUME END (R251): the named tasks complete with FAULTED. -/
def execFaultResumeEnd (ring seq : Nat) (s : State) : Host.Outcome State Fault Refusal :=
  let k := cmdKey ring seq
  .next (if !s.segFree then s else s.front k 0x34 fun t c =>
    if c.f 16 1 != 1 then s
    else if t.foreignTask c.part (c.f 18 2) then t.finish k stNoAccess
    else
      let ts := t.namedTasks c.part (c.f 18 2)
      ((t.each ts fun s e => s.finishIdle e.2 stFaulted).recheckFreed t.fe.tasks.length).finish k stOk ts.length)

/-- The copy of a fault record has been accepted: FAULT_RAISED (R249). -/
def execFaultRecordAccepted (part : Nat) (s : State) : Host.Outcome State Fault Refusal :=
  .next (if s.doneFor (.faultCopy part) then
    (s.takeDone (.faultCopy part)).causeTo part cFaultRaised else s)

end Sys2Proof.Machine
end

