-- ==== Sys2Proof/Machine/Rings.lean ====
section
/-! DEFINITION. Rings, doorbells, descriptors and completion records (chapter 10, R222 to R234). -/

namespace Sys2Proof.Machine

/-- Base of a RINGSET entry. -/
def ringReg (n : Nat) : Nat := 0x20000 + 0x40 * n

/-- Offsets of the RW words of a RINGSET entry (Table 10.4). -/
def ringOffs : List Nat := [0x00, 0x04, 0x08, 0x0C, 0x10, 0x14, 0x18, 0x1C, 0x20, 0x38]

/-- RW bits of a word of a RINGSET entry. -/
def ringMask (off : Nat) : Word :=
  if off = 0x18 then 0x001F0F07#32
  else if off = 0x1C then 0x00FFFFFF#32
  else if off = 0x20 then 0x03FF0FFF#32
  else if ringOffs.contains off then 0xFFFFFFFF#32
  else 0#32

/-- Store the RW bits of one register word. -/
def State.store (s : State) (a : Nat) (mask v : Word) : State :=
  s.setReg a ((s.regW a &&& ~~~mask) ||| (v &&& mask))

/-- Completion-log bytes reserved by rings that are not DISABLED (R222). -/
def State.logPool (s : State) : Nat :=
  s.fe.rings.foldl (fun n e => if e.2.st = 0 then n else n + 32 * e.2.size) 0

/-- A source that a partition names is one it owns, or none (R295). -/
def State.srcAllowed (s : State) (p i : Nat) : Bool := i == 0x3FF || (decide (i < 512) && s.srcOwner i == p)

/-- SYS_SRC of a partition (Table 14.2). -/
def State.sysSrc (s : State) (p : Nat) : Nat := s.regF (0x74000 + 0x20 * p + 0x0C) 9 0

/-- ERR of an enable (Table 10.4), on the words latched; 0 when every check passes. -/
def State.ringCheck (s : State) (n : Nat) (r : Ring) : Nat :=
  let q := s.part r.part
  let sz := r.sizeLog2
  if sz < 4 || 16 < sz then 1
  else if r.sqBase % 4096 != 0 || r.sqBase % (64 * r.size) != 0 || r.cqBase % 4096 != 0
      || r.cqBase % (32 * r.size) != 0 || r.dbAddr % (if r.remote then 64 else 128) != 0 then 2
  else if !q.hasRing n || q.st != 1 then 3
  else if r.timeoutUs = 0 then 4
  else if 2 ^ 31 < s.logPool + 32 * r.size then 5
  else if !s.srcAllowed r.part r.evtSrc || !s.srcAllowed r.part (s.sysSrc r.part) then 6
  else if r.remote != q.remote || (r.remote && !q.hasQp r.qp) then 7
  else 0

/-- The device-state line (Table 10.5). -/
def stateLine (r : Ring) (st : Nat) : Bytes :=
  withCrc (natLe 4 r.sqCons ++ natLe 2 r.epoch ++ natLe 1 st ++ zeros 1 ++ natLe 4 r.cqProd ++ zeros 48)

/-- Write a ring's device-state line. -/
def State.writeStateLine (s : State) (n : Nat) (use : Use) (st : Nat) : State :=
  let r := s.ring n
  s.writeHost use r.part r.qp r.rkey (if r.remote then r.dbAddr else r.dbAddr + 64) (stateLine r st) []

/-- Arm (R226): the device-state line is written as ARMED before the doorbell is read again. -/
def State.arm (s : State) (n : Nat) : State :=
  (s.writeStateLine n (.arm n) 1).modRing n fun r => { r with
    st := 1, armPending := true, reading := 0, rereads := 0, rereadWait := false }

/-- Enable a DISABLED ring (R222). -/
def State.enableRing (s : State) (n : Nat) : State :=
  let r := { s.ring n with lat := s.group (ringReg n) ringOffs }
  let e := s.ringCheck n r
  if e != 0 then s.modRing n fun r => { r with err := e }
  else
    (s.setRing n { r with
      err := 0, epoch := (r.epoch + 1) % 2 ^ 16, sqCons := 0, cqProd := 0, cqSeen := 0, prod := 0
      notified := false, lineHeld := false, dbReread := false, armRead := false, log := [], held := []
      dbLine := zeros 64 }).arm n

/-- The reads of a remote ring's descriptors are forgotten. -/
def State.dropDesc (s : State) (n : Nat) : State :=
  { s with io := { s.io with out := s.io.out.filter fun x => x.use != .desc n } }

/-- Read descriptors of a ring: a remote one by RDMA READ (R282). -/
def State.readDescs (s : State) (n count : Nat) : State :=
  let r := s.ring n
  let s := s.modRing n fun r => { r with reading := count }
  if !r.remote then s
  else (s.dropDesc n).issue { id := 0, use := .desc n, part := r.part, kind := 1, qp := some r.qp, rkey := r.rkey
                              addr := r.sqBase + 64 * (r.sqCons % r.size), len := 64 * count }

/-- Descriptors that an RDMA READ brought. -/
def State.descsRead (s : State) (n : Nat) : List Rd :=
  match s.io.out.find? fun x => x.use == .desc n && x.accepted with
  | none => []
  | some x => (List.range (x.len / 64)).map fun i =>
    { data := (x.data.drop (64 * i)).take 64, poison := if x.poison.contains i then [0] else [] }

/-- ENABLE 0 (R223): fetching stops and doorbells are ignored; a STOPPED ring drops its records. -/
def State.disableRing (s : State) (n : Nat) : State :=
  let r := s.ring n
  if r.st = 0 || r.st = 5 then s
  else (s.dropDesc n).setRing n { r with
    st := 5, reading := 0, rereads := 0, rereadWait := false, armPending := false, dbReread := false
    lineHeld := false, log := if r.st = 4 then [] else r.log }

/-- Write of a ring's ENABLE bit, already stored. -/
def State.ringEnableBit (s : State) (n : Nat) : State :=
  if s.regF (ringReg n + 0x18) 0 0 = 1 then
    (if (s.ring n).st = 0 then s.enableRing n else s)
  else s.disableRing n

/-- Room in the completion ring and an announced descriptor (R226). -/
def Ring.canFetch (r : Ring) : Bool :=
  r.prod != r.sqCons && decide (sub32 r.sqCons r.cqSeen < r.size)

/-- A ring that can take a turn: RUNNING and nothing of it under way. -/
def Ring.turnReady (r : Ring) : Bool :=
  r.st == 2 && r.reading == 0 && !r.rereadWait && !r.armPending && !r.dbReread && r.held.isEmpty

/-- A PART_DETACH of the ring's own partition has been accepted and not been judged: the ring stops after it (R220). -/
def State.detachAhead (s : State) (n : Nat) : Bool :=
  s.fe.cmds.any fun e => e.2.ring == n && e.2.op == 0x31 && e.2.phase == .accepted && e.2.f 16 1 == e.2.part
    && s.precheck e.2 == 0

/-- The ring whose turn it is: round robin after the one served last (R226). -/
def State.nextRing (s : State) : Option Nat :=
  if s.rel.stuck then none else
  let rs := (s.fe.rings.filter fun e => e.2.turnReady && (!e.2.remote || s.hostUp e.2.part e.2.qp)
    && !s.detachAhead e.1).map (·.1)
  match rs.find? (fun n => s.fe.rr < n) with
  | some n => some n
  | none => rs.head?

/-- Descriptors of one read: up to four, in one sheet. -/
def Ring.turnCount (r : Ring) : Nat :=
  Nat.min (Nat.min (sub32 r.prod r.sqCons) (r.size - sub32 r.sqCons r.cqSeen)) (4 - r.sqCons % 4)

/-- A descriptor is visible (R227). -/
def Ring.visible (r : Ring) (d : Rd) : Bool :=
  d.poison.isEmpty && d.data.length == 64 && crcOkAt d.data 60 && fld d.data 0 4 == r.sqCons
    && fld d.data 4 2 == r.epoch

/-- What follows from the acceptance alone of a command that passes steps 1 to 4 of R231: a KEY_INSTALL reserves its
slot (R347), and what a SEG_SETUP REMOVE or UNMAP names is invalid (R244). -/
def State.acceptMarks (s : State) (k : Nat) : State :=
  match s.cmd? k with
  | some c =>
    if c.op = 0x20 && s.precheck c = 0 then
      { s with sec := { s.sec with unwraps := s.sec.unwraps.filter (fun j => (s.cmd? j).isSome && j != k) ++ [k] } }
    else if c.op = 0x33 && s.precheck c = 0 then s.setCmd k { c with takes := true }
    else s
  | none => s

/-- Accept one visible descriptor: a reserved opcode completes at once with BAD_DESC (R231). An INGEST keeps the
profile it names as it stands now (R204). -/
def State.acceptDesc (s : State) (n : Nat) (d : Bytes) : State :=
  let r := s.ring n
  let k := cmdKey n r.sqCons
  let prof := if fld d 6 1 = 0x24 && fld d 21 1 != 0xFF then
      some (FMap.get (s.part r.part).profiles (fld d 21 1) (zeros 32)) else none
  let s := (s.dropOper k).setCmd k
    { ring := n, seq := r.sqCons, epoch := r.epoch, part := r.part, desc := d, time := s.now, progress := s.now
      prof := prof }
  let s := s.modRing n fun r => { r with sqCons := (r.sqCons + 1) % 2 ^ 32, rereads := 0 }
  if (opInfo (fld d 6 1)).isNone then s.finish k stBadDesc else s.acceptMarks k

/-- Park (R227): the doorbell line is held (Table 12.3). Assumption 106, DEDUCED. -/
def State.parkRing (s : State) (n : Nat) : State :=
  ((s.count 0x060 n 1).modRing n fun r => { r with st := 3, rereads := 0, lineHeld := !r.remote }).writeStateLine n
    (.stateLine n) 3

/-- The first descriptor of a read is not visible: re-read it, start a new series, or park. -/
def State.notVisible (s : State) (n : Nat) : State :=
  let r := s.ring n
  if r.rereads = 0 then s.setRing n { r with rereadWait := true, notified := false, lineHeld := !r.remote }
  else if r.rereads < 8 then s.setRing n { r with rereadWait := true }
  else if r.notified then
    s.setRing n { r with rereadWait := true, rereads := 0, notified := false, lineHeld := !r.remote }
  else s.parkRing n

/-- Judge the descriptors of a read in order, stopping at one that is not visible or detaches. -/
def State.takeDescs (s : State) (n : Nat) : Bool → List Rd → State
  | _, [] => s
  | first, d :: ds =>
    let r := s.ring n
    if r.canFetch && r.visible d then
      let s := s.acceptDesc n d.data
      if fld d.data 6 1 = 0x31 then s else s.takeDescs n false ds
    else if first then s.notVisible n
    else s

/-- A doorbell value's check and epoch (Table 10.5). -/
def Ring.dbOk (r : Ring) (v : Bytes) : Bool :=
  (crc32c (v.take 6)).toNat % 2 ^ 16 == fld v 6 2 && fld v 4 2 == r.epoch

/-- Take the two values of a doorbell line (R225): the ring, and how many values were ignored. -/
def Ring.takeDoorbell (r : Ring) (line : Bytes) : Ring × Nat :=
  let sq := line.take 8
  let cq := (line.drop 8).take 8
  let p := fld sq 0 4
  let c := fld cq 0 4
  let sqOk := r.dbOk sq && decide (sub32 p r.sqCons ≤ r.size) && decide (sub32 p r.prod ≤ r.size)
  let cqOk := r.dbOk cq && decide (sub32 r.cqProd c ≤ r.size) && decide (sub32 c r.cqSeen ≤ r.size)
  let r := if sqOk then { r with prod := p } else r
  let r := if cqOk then
      { r with cqSeen := c, log := r.log.filter fun e => sub32 e.1 r.cqSeen ≥ sub32 c r.cqSeen }
    else r
  (r, b2n (!sqOk) + b2n (!cqOk))

/-- Values taken from a re-read doorbell line (R226): with a descriptor to fetch the ring runs. With none, after the
re-read that follows an arming write it waits for a notification, or re-reads for one that has come; after any other it
writes the device-state line again. -/
def State.takeLine (s : State) (n : Nat) (line : Bytes) : State :=
  let (r, bad) := (s.ring n).takeDoorbell line
  let s := if bad = 0 then s else s.count 0x061 n bad
  let r := { r with lineHeld := !r.remote }
  if r.canFetch then s.setRing n { r with st := 2, dbReread := false, armRead := false, notified := false }
  else if r.armRead then s.setRing n { r with dbReread := r.notified, armRead := false, notified := false }
  else (s.setRing n { r with dbReread := false, notified := false }).arm n

/-- A notification (R224, R227): a waiting or parked ring re-reads its doorbell line. -/
def Ring.notify (r : Ring) : Ring :=
  if (r.st = 1 || r.st = 3) && !r.armPending && !r.dbReread then { r with dbReread := true }
  else { r with notified := true }

/-- A ring whose doorbells are heard: ARMED, RUNNING or PARKED. -/
def Ring.live (r : Ring) : Bool := r.st == 1 || r.st == 2 || r.st == 3

/-- Record of a log entry with REPLAYED set and its CRC recomputed (R221). -/
def replayed (d : Bytes) : Bytes :=
  withCrc (patchBytes (d.take 28) 18 (natLe 2 (fld d 18 2 ||| 64)))

/-- CSEQ of an index in a ring's epoch (R232). -/
def Ring.cseq (r : Ring) (i : Nat) : Nat := r.epoch * 2 ^ 32 + i

/-- Write one record at its position of the completion ring (R233). -/
def State.putRecord (s : State) (n i : Nat) (d : Bytes) : State :=
  let r := s.ring n
  s.writeHost (.record n (r.cseq i)) r.part r.qp r.rkey (r.cqBase + 32 * (i % r.size)) d []

/-- Replay the log from index `i` on while records stand there (R221). -/
def State.replay (s : State) (n : Nat) : Nat → Nat → State
  | 0, _ => s
  | k + 1, i =>
    match FMap.find (s.ring n).log i with
    | none => s
    | some e =>
      ((s.putRecord n i (replayed e.data)).modRing n fun r => { r with
        cqProd := (i + 1) % 2 ^ 32
        log := FMap.set r.log i { e with data := replayed e.data } }).replay n k ((i + 1) % 2 ^ 32)

/-- A STOPPED ring resumes (R221): latch the addresses, write the device-state line, replay, arm. -/
def State.resumeRing (s : State) (n : Nat) : State :=
  let r := s.ring n
  if r.st != 4 then s
  else
    let addrs := s.group (ringReg n) [0x00, 0x04, 0x08, 0x0C, 0x10, 0x14]
    let s := s.setRing n { r with lat := addrs.foldl (fun m e => FMap.set m e.1 e.2) r.lat }
    let s := s.writeStateLine n (.stateLine n) 1
    let r := s.ring n
    (s.replay n r.size r.cqSeen).arm n

/-- Stop a ring (R221): its partition became DETACHED. -/
def Ring.stop (r : Ring) : Ring :=
  if r.st = 0 || r.st = 5 then { r with reading := 0, armPending := false, dbReread := false }
  else { r with st := 4, reading := 0, rereads := 0, rereadWait := false, armPending := false
                dbReread := false, lineHeld := false, notified := false }

/-- Rings of a partition that are not DISABLED. -/
def State.ringsOf (s : State) (p : Nat) : List Nat :=
  (s.fe.rings.filter fun e => e.2.st != 0 && e.2.part == p).map (·.1)

/-- Some command of the ring is still in the block. -/
def State.ringBusy (s : State) (n : Nat) : Bool := s.fe.cmds.any fun e => e.2.ring == n

/-- A record write of the ring is not accepted yet, or its event has not been counted yet (R234). -/
def State.recordOut (s : State) (n : Nat) : Bool :=
  s.io.out.any fun x => match x.use with
    | .record r _ => r == n
    | _ => false

/-- Disable a ring whose work is over, freeing its log. -/
def State.endRing (s : State) (n : Nat) : State :=
  s.modRing n fun r => { r with st := 0, log := [], held := [] }

/-- Every record of a DRAINING ring has been written and accepted, or is dropped because its
partition cannot be reached (R220, R223). -/
def State.ringDrained (s : State) (n : Nat) : Bool :=
  let r := s.ring n
  r.st == 5 && !s.ringBusy n &&
    (!(s.part r.part).reachable || ((FMap.find r.log r.cqProd).isNone && !s.recordOut n))

/-! ### Meanings -/

/-- RING_ENABLE: a write of ENABLE 1 (R222). -/
def execRingEnable (ring : Nat) (s : State) : Host.Outcome State Fault Refusal :=
  .next (if ring < 4096 then (s.store (ringReg ring + 0x18) 1 1).ringEnableBit ring else s)

/-- RING_DISABLE: a write of ENABLE 0 (R223). -/
def execRingDisable (ring : Nat) (s : State) : Host.Outcome State Fault Refusal :=
  .next (if ring < 4096 then (s.store (ringReg ring + 0x18) 1 0).ringEnableBit ring else s)

/-- RING_SERVE_TURN (R226): read up to four descriptors, or arm when there is none to read. -/
def execRingServeTurn (ring : Nat) (s : State) : Host.Outcome State Fault Refusal :=
  .next (if s.nextRing = some ring then
      let r := s.ring ring
      let s := { s with fe := { s.fe with rr := ring } }
      if r.canFetch then s.readDescs ring r.turnCount else s.arm ring
    else s)

/-- DESCRIPTOR_READ_DATA (R227, R282): the descriptors read are judged in order; those of a remote ring are what its
RDMA READ brought. A ring with a held command takes none, and reads them again later (R248). -/
def execDescriptorReadData (ring : Nat) (descs : List Rd) (s : State) :
    Host.Outcome State Fault Refusal :=
  .next (
    let r := s.ring ring
    if r.reading = 0 || r.st != 2 || (r.remote && !s.doneFor (.desc ring)) then s
    else
      let ds := if r.remote then s.descsRead ring else descs
      let s := (if r.remote then s.dropDesc ring else s).setRing ring { r with reading := 0 }
      if r.held.isEmpty then s.takeDescs ring true (ds.take r.reading) else s)

/-- DESCRIPTOR_REREAD_TIMER (R227): 256 ns have passed; the descriptor is read again. -/
def execDescriptorRereadTimer (ring : Nat) (s : State) : Host.Outcome State Fault Refusal :=
  .next (
    let r := s.ring ring
    if r.rereadWait && r.st == 2 && r.held.isEmpty then
      (s.setRing ring { r with rereadWait := false, rereads := r.rereads + 1 }).readDescs ring 1
    else s)

/-- ARM_WRITE_ACCEPTED (R226): the doorbell line is read again. -/
def execArmWriteAccepted (ring : Nat) (s : State) : Host.Outcome State Fault Refusal :=
  .next (if (s.ring ring).armPending && s.doneFor (.arm ring) then
      (s.takeDone (.arm ring)).modRing ring fun r => { r with
        armPending := false, dbReread := true, armRead := true, notified := false }
    else s)

/-- DOORBELL_REREAD_DATA (R225, R226); a remote ring's line lies on the device (R224). -/
def execDoorbellRereadData (ring : Nat) (line : Bytes) (s : State) :
    Host.Outcome State Fault Refusal :=
  .next (
    let r := s.ring ring
    if r.dbReread then s.takeLine ring (if r.remote then r.dbLine else line) else s)

/-- HOST_SNOOP (R224, R256, R298): an invalidating snoop of a held doorbell line notifies its ring;
of a held priority-word line, drops it. -/
def execHostSnoop (addr : Nat) (invalidating : Bool) (s : State) :
    Host.Outcome State Fault Refusal :=
  .next (
    if !invalidating then s
    else
      let a := addr / 64 * 64
      let s := { s with fe := { s.fe with rings := FMap.mapV s.fe.rings fun _ r =>
        if r.live && !r.remote && r.lineHeld && r.dbAddr == a then { r with lineHeld := false }.notify
        else r } }
      { s with parts := FMap.mapV s.parts fun _ q => { q with
          prioHeld := q.prioHeld.filter fun l => q.prioAddr + 64 * l != a } })

/-- The remote partition whose attach queue pair this is. -/
def State.attachPart (s : State) (qp : Nat) : Option Nat :=
  (List.range 16).find? fun p =>
    (s.part p).remote && (s.part p).st != 0 && (s.part p).attachQp == qp

/-- A write into the doorbell window of a remote partition (R224, R283): one or two values of a ring's
doorbell line. -/
def State.doorbellWrite (s : State) (qp off : Nat) (data : Bytes) : State :=
  match s.attachPart qp with
    | none => s
    | some p =>
      let q := s.part p
      let n := q.ringBase + off / 64
      let o := off % 64
      if q.ringCount * 64 ≤ off then s
      else if !((data.length = 8 && (o = 0 || o = 8)) || (data.length = 16 && o = 0)) then
        s.count 0x09D p 1
      else
        let r := s.ring n
        if !r.live || !r.remote then s
        else
          let r := { r with dbLine := patchBytes r.dbLine o data }
          if (r.st = 1 || r.st = 3) && !r.armPending && !r.dbReread then
            (s.setRing n r).takeLine n r.dbLine
          else s.setRing n r.notify

/-- DOORBELL_WINDOW_WRITE (R224, R283). -/
def execDoorbellWindowWrite (qp off : Nat) (data : Bytes) (s : State) :
    Host.Outcome State Fault Refusal :=
  .next (if s.qpUp qp then s.doorbellWrite qp off data else s)

/-- COMPLETION_RECORD_WRITE (R22, R233): the record at CQ_PROD, once its result writes have been
accepted. -/
def execCompletionRecordWrite (ring : Nat) (s : State) : Host.Outcome State Fault Refusal :=
  .next (
    let r := s.ring ring
    match FMap.find r.log r.cqProd with
    | none => s
    | some e =>
      if (r.live || r.st = 5) && (s.part r.part).reachable && !s.rel.stuck && !s.outFor (.result e.cmd) then
        (s.putRecord ring r.cqProd e.data).modRing ring fun r => { r with
          cqProd := (r.cqProd + 1) % 2 ^ 32 }
      else s)

/-- The first accepted record write of a ring. -/
def State.recordDone (s : State) (n : Nat) : Option Use :=
  (s.io.out.find? fun x => x.accepted && match x.use with
    | .record r _ => r == n
    | _ => false).map (·.use)

/-- Sources a partition owns. -/
def State.sourcesOf (s : State) (p : Nat) : List Nat :=
  (List.range 480).filter fun i => s.srcOwner i == p

/-- Each source of a resumed partition that is ACTIVE or holds a COUNT delivers once (R301). -/
def State.resumeSources (s : State) (p : Nat) : State :=
  s.each (s.sourcesOf p) fun s i =>
    if (s.src i).st = 2 || (s.src i).count != 0 then s.deliver i else s

/-- Some replayed record of a partition has not been written, or its event not been counted. -/
def State.replaysOut (s : State) (p : Nat) : Bool := s.io.out.any fun x => (s.part p).replays.contains x.id

/-- The replayed records of a resumed partition have been written: its sources deliver (R301). -/
def State.resumeGo (s : State) (p : Nat) : State :=
  if (s.part p).resuming && !s.replaysOut p then
    (s.modPart p fun q => { q with resuming := false, replays := [] }).resumeSources p
  else s

/-- A partition has resumed, with its rings: its sources wait for the records that are replayed (R301). -/
def State.resumed (s : State) (p : Nat) : State :=
  let ids := (s.io.out.filter fun x => x.part == p && match x.use with
    | .record .. => true
    | _ => false).map (·.id)
  (s.modPart p fun q => { q with replays := ids }).resumeGo p

/-- COMPLETION_RECORD_ACCEPTED (R234): the ring's event source counts an event. -/
def execCompletionRecordAccepted (ring : Nat) (s : State) : Host.Outcome State Fault Refusal :=
  .next (match s.recordDone ring with
    | none => s
    | some u => ((s.takeDone u).raise (s.ring ring).evtSrc).resumeGo (s.ring ring).part)

/-- The image's RW words become the ring's stored words (R222). -/
def State.storeImage (s : State) (n : Nat) (img : Bytes) : State :=
  s.each ringOffs fun s o => s.store (ringReg n + o) (ringMask o) (BitVec.ofNat 32 (fld img o 4))

/-- RING_SETUP on the image read (R222, R221, R383). -/
def State.ringSetup (s : State) (k : Nat) (c : Cmd) (rd : Rd) : State :=
  let n := c.f 16 2 % 4096
  let rd := s.operOf k c.part (c.f 18 1) rd
  let (ok, s) := s.operAsk k c.part (c.f 18 1) (c.f 24 6) 64
  if !ok then s
  else
  let (ok, s) := s.openAsk c.part (c.f 18 1) (c.f 24 6) 64 false
  if !ok then s
  else
  let img := s.readSeg c.part (c.f 18 1) (c.f 24 6) 64 rd
  if !img.poison.isEmpty || img.data.length != 64 then s.finish k stBadFormat
  else
    let st := (s.ring n).st
    let s := s.storeImage n img.data
    if fld img.data 0x18 1 % 2 = 1 then
      if st = 0 then
        let s := s.enableRing n
        s.finish k (if (s.ring n).err = 0 then stOk else stBadFormat)
      else if st = 4 && (s.part c.part).st = 1 then (s.resumeRing n).finish k stOk
      else s.finish k stOk
    else (s.disableRing n).finish k stOk

/-- RING_SETUP. Assumption 94, DEDUCED. -/
def execRingSetup (ring seq : Nat) (img : Rd) (s : State) : Host.Outcome State Fault Refusal :=
  let k := cmdKey ring seq
  .next (s.front k 0x32 fun s c => s.ringSetup k c img)

end Sys2Proof.Machine
end

