-- ==== Sys2Proof/Machine/Parts.lean ====
section
/-! DEFINITION. Partitions: attaching, resuming, detaching (chapter 10, R216 to R221; R301). -/

namespace Sys2Proof.Machine

/-- FEAT_DEV (R217, R352): the word of the booted bundle; the bundle of manufacture has the bits Table
10.2 defines (assumption 5, DESIGN CHOICE). -/
def State.featDev (s : State) : Nat :=
  let b := if s.sec.bootSlot = 0 then s.sec.slotA else s.sec.slotB
  if b.isEmpty then 0x7F else fld b 12 32

/-- Base of a partition's registers, and of its event registers. -/
def partReg (p : Nat) : Nat := 0x10000 + 0x100 * p
def partEvt (p : Nat) : Nat := 0x74000 + 0x20 * p

/-- FEAT_OFFER as stored (Table 10.1). -/
def State.featOffer (s : State) (p : Nat) : Nat :=
  (List.range 8).foldl (fun n i => n + (s.regW (partReg p + 0x20 + 4 * i)).toNat * 2 ^ (32 * i)) 0

/-- The four ranges of a latched group: base, count, resources. -/
def rangesOf (m : FMap Word) : List (Nat × Nat × Nat) :=
  [(latF m 0x08 11 0, latF m 0x08 28 16, 4096), (latF m 0x0C 11 0, latF m 0x0C 28 16, 4096),
   (latF m 0x10 11 0, latF m 0x10 28 16, 4096), (latF m 0x14 10 0, latF m 0x14 27 16, 2048)]

/-- Words latched at an attach from FREE (R216). -/
def State.attachLat (s : State) (p : Nat) : FMap Word :=
  if (s.part p).st = 0 then s.group (partReg p) [0x08, 0x0C, 0x10, 0x14] else (s.part p).lat

/-- Some range of two latched groups meets the other's of the same kind. -/
def rangesMeet (a b : FMap Word) : Bool :=
  ((rangesOf a).zip (rangesOf b)).any fun (x, y) =>
    x.2.1 != 0 && y.2.1 != 0 && overlap x.1 x.2.1 y.1 y.2.1

/-- The checks of R218, in order: an ATTACH_ERR code, 0 when all pass. -/
def State.attachCheck (s : State) (p offer : Nat) (remote : Bool) : Nat :=
  let q := s.part p
  let lat := s.attachLat p
  if q.st != 0 && (q.st != 3 || q.remote != remote || q.detach.isSome) then 4
  else if (rangesOf lat).any fun r => r.2.2 < r.1 + r.2.1 then 3
  else if (List.range 16).any fun o =>
      o != p && (s.part o).st != 0 && rangesMeet lat (s.part o).lat then 2
  else if !offer.testBit 0 then 1
  else if q.st = 3 && offer &&& s.featDev != q.featAck then 5
  else 0

/-- The partition becomes ATTACHED (R218 step 4), with PRIO_ADDR and PRIO_LINES latched (R296); event messages count from
the attach (Table 14.4). -/
def State.attached (s : State) (p offer : Nat) (remote : Bool) : State :=
  let lat := s.attachLat p
  let e := partEvt p
  let n := s.regF (e + 8) 3 0
  s.modPart p fun q => { q with
    st := 1, remote := remote, err := 0, lat := lat, featAck := offer &&& s.featDev
    prioAddr := (s.regW e).toNat + 2 ^ 32 * (s.regW (e + 4)).toNat
    prioLines := if n < 8 then n else 8, prioHeld := [], cut := false
    msgSeq := 0, resuming := q.st == 3, replays := [] }

/-- A local attach that passed its checks: attach, or resume with every ring (R218, R221). -/
def State.attachLocal (s : State) (p : Nat) : State :=
  let was := (s.part p).st
  let s := (s.attached p (s.featOffer p) false).causeTo p cPartAttached
  if was = 3 then
    (s.each (s.ringsOf p) fun s n => s.resumeRing n).resumed p
  else s

/-- A write of ATTACH takes effect (R218); ignored on a link without CXL (R254). -/
def State.attachNow (s : State) (part : Nat) : State :=
  if 16 ≤ part || !s.hp.cxlOk then s
  else
    let e := s.attachCheck part (s.featOffer part) false
    if e != 0 then s.modPart part fun q => { q with err := e }
    else s.attachLocal part

/-- ATTACH: a write of 1, held while the module is BOOTING (R332); no partition attaches in another power state (R343). -/
def execAttach (part : Nat) (s : State) : Host.Outcome State Fault Refusal :=
  .next (if s.pwr.st = 3 then s.attachNow part
    else if s.pwr.st = 2 then { s with pwr := { s.pwr with attach := s.pwr.attach ++ [part] } }
    else s)

/-! ### Remote attach (R219, R283) -/

/-- Key of a window (R284). -/
def winKey (qp win tag : Nat) : Nat := qp * 2 ^ 20 + win * 2 ^ 16 + tag

/-- The doorbell window of a remote partition: window 15 of its attach queue pair (R283). -/
def State.makeDbWindow (s : State) (p qp tag : Nat) : State :=
  let w : Win := { part := p, seg := 0, rights := 2, tag := tag, va := 0, off := 0
                   len := 64 * (s.part p).ringCount, doorbell := true }
  { s with net := { s.net with wins := FMap.set s.net.wins (qp * 16 + 15) w } }

/-- What a PART_ATTACH does with a good attach block: the state with the partition attached and its
ring set up, and STATUS of Table 10.3. A ring whose enable fails keeps its image and its ERR (R222); an image with
ENABLE 0 tries none. -/
def State.attachRemote (s : State) (p qp tag : Nat) (blk : Bytes) : State × Nat :=
  let offer := fld blk 8 32
  let n := fld blk 120 2
  let img := (blk.drop 56).take 64
  let e := s.attachCheck p offer true
  if e != 0 then (s, e)
  else
    let was := (s.part p).st
    let t := s.attached p offer true
    let t := t.modPart p fun q => { q with attachQp := qp, dbKey := winKey qp 15 tag }
    let t := t.makeDbWindow p qp tag
    if !(t.part p).hasRing n then (s, 0x13)
    else if (fld img 0x18 1).testBit 1 = false then (s, 6)
    else
      let t := t.storeImage n img
      let tries := (fld img 0x18 1).testBit 0 && (t.ring n).st = 0
      let t := if (t.ring n).st = 4 && (fld img 0x18 1).testBit 0 then t.resumeRing n else t.ringEnableBit n
      let err := if tries then (t.ring n).err else 0
      if err != 0 then ((s.storeImage n img).modRing n fun r => { r with err := err }, 0x10 + err)
      else
        let t := t.causeTo p cPartAttached
        (if was = 3 then t.resumed p else t, 0)

/-- Bytes 128 to 255 of the attach block (Table 10.3). -/
def ackBlock (s : State) (p st ring dbAddr dbKey : Nat) : Bytes :=
  withCrc (natLe 32 (s.part p).featAck ++ natLe 1 st ++ natLe 1 p ++ natLe 2 (s.ring ring).epoch
    ++ natLe 8 dbAddr ++ natLe 4 dbKey ++ zeros 76)

/-- PART_ATTACH (R219): the checks, then the read of the attach block. -/
def execPartAttach (ring seq : Nat) (s : State) : Host.Outcome State Fault Refusal :=
  let k := cmdKey ring seq
  .next (s.front k 0x30 fun s c =>
    let p := c.f 16 1
    let qp := c.f 18 2
    let q := s.part p
    let lat := s.attachLat p
    if !(q.st = 0 || (q.st = 3 && q.remote && q.detach.isNone)) || q.attaching.isSome then
      s.finish k stPartBusy
    else if !inRange (latF lat 0x10 11 0) (latF lat 0x10 28 16) qp then s.finish k stBounds
    else if !s.qpUp qp then s.finish k stXferFail
    else
      let s := s.issue { id := 0, use := .attach k p, part := p, kind := 1, qp := some qp,
                         rkey := c.f 20 4, addr := c.f 24 8, len := 128 }
      (s.setPhase k .running).modPart p fun q => { q with attaching := some (k, [], 0) })

/-- The attach block has been read (R219): judge it, and write its second half. -/
def State.attachBlockRead (s : State) (k p : Nat) (c : Cmd) (rd : Rd) : State :=
  let blk := rd.data
  let (v, s) := s.freeVal
  let tag := v % 2 ^ 16
  let bad := !rd.poison.isEmpty || blk.length != 128 || fld blk 0 4 != 0x54414E59
    || fld blk 4 2 != 1 || !crcOkAt blk 124
  let qp := c.f 18 2
  let n := fld blk 120 2
  let (t, st) := if bad then (s, 6) else s.attachRemote p qp tag blk
  let s := if bad then s.modPart p fun q => { q with err := 6 }
           else if st = 0 then s
           else if st < 7 then s.modPart p fun q => { q with err := st } else t
  let ack := ackBlock t p st n (if st = 0 then 64 * (n - (t.part p).ringBase) else 0)
    (if st = 0 then winKey qp 15 tag else 0)
  let s := s.modPart p fun q => { q with
    attaching := some (k, if st = 0 then blk else [], tag) }
  s.issue { id := 0, use := .attach k p, part := p, qp := some qp, rkey := c.f 20 4
            addr := c.f 24 8 + 128, len := 128, data := ack }

/-- The second half of the attach block has been acknowledged: the attach takes effect, and the
command completes (R219). -/
def State.attachDone (s : State) (k p : Nat) : State :=
  match (s.part p).attaching, s.cmd? k with
  | some (k', blk, tag), some c =>
    if k' != k then s
    else
      let s := s.modPart p fun q => { q with attaching := none }
      if blk.isEmpty then s.finish k stBadFormat
      else
        let (s, st) := s.attachRemote p (c.f 18 2) tag blk
        s.finish k (if st = 0 then stOk else stBadFormat)
  | _, _ => s

/-- The queue pair failed during the exchange (R219). Assumption 86, DEDUCED. -/
def State.attachFailed (s : State) (k p : Nat) : State :=
  (s.modPart p fun q => { q with attaching := none }).finish k stXferFail

/-! ### Detaching (R220) -/

/-- Discard a post and take it out of the admission queue. -/
def State.dropPost (s : State) (k : Nat) : State :=
  let s := s.leaveQueue k
  { s with posts := FMap.del s.posts k }

/-- A command that is accepted but not admitted or not started (R220, Table 10.12). -/
def State.notStarted (s : State) (k : Nat) (c : Cmd) : Bool :=
  match c.phase with
  | .running => false
  | .post => match s.post? k with
    | some v => v.phase != 3
    | none => false
  | _ => true

/-- Commands of a partition that are not started. -/
def State.idleCmds (s : State) (p : Nat) : List Nat :=
  (s.fe.cmds.filter fun e => e.2.part == p && s.notStarted e.1 e.2).map (·.1)

/-- End commands with a status, their staged inputs discarded. -/
def State.endIdle (s : State) (ks : List Nat) (st : Nat) : State :=
  (s.each ks fun s k => (s.dropPost k).finishIdle k st).recheckFreed s.fe.tasks.length

/-- PART_DETACH (R220 steps 1 and 2). -/
def execPartDetach (ring seq : Nat) (s : State) : Host.Outcome State Fault Refusal :=
  let k := cmdKey ring seq
  .next (s.front k 0x31 fun s c =>
    let p := c.f 16 1
    let q := s.part p
    if q.st = 0 || q.st = 2 || q.detach.isSome || (s.ream.resident && s.ream.owner = p) then
      s.finish k stPartBusy
    else
      let s := s.setPhase k .running
      let s := s.modPart p fun q => { q with st := 2, detach := some k, cut := q.st == 3, prioHeld := [] }
      let s := s.each (s.ringsOf p) fun s n => s.disableRing n
      s.endIdle ((s.idleCmds p).filter (· != k)) stCancelled)

/-- Every command of the partition but its detach has completed, and every ring of it but the
issuing one is DISABLED. -/
def State.detachReady (s : State) (p k : Nat) : Bool :=
  (s.fe.cmds.all fun e => e.2.part != p || e.1 == k) &&
    (s.ringsOf p).all (fun n => n == k / 2 ^ 32) && s.fe.drain.isNone

/-- Windows, sealed and other segments, profiles and key slots of a partition go (R220 step 4). -/
def State.clearPart (s : State) (p : Nat) : State :=
  let s := { s with net := { s.net with wins := s.net.wins.filter fun w => w.2.part != p } }
  let s := s.each ((s.part p).segs.map (·.1)) fun s g => s.removeSeg p g
  let q := s.part p
  let s := { s with slots := s.slots.filter fun e => !q.hasKey e.1 }
  s.modPart p fun q => { q with profiles := [], faultArea := none }

/-- The partition becomes FREE, FEAT_ACK reads 0, its sources return to IDLE (R220, R301). -/
def State.freePart (s : State) (p : Nat) : State :=
  let s := s.each (s.sourcesOf p) fun s i => s.setSrc i { s.src i with st := 0, count := 0, sentAt := none }
  s.modPart p fun q => { q with st := 0, featAck := 0, detach := none, remote := false, cut := false, prioHeld := [] }

/-- DETACH_FINISH (R220 steps 3 to 6): the partition's work is over, and no host caches a line of the frames to be
zeroed (R260). When it detached itself, its
last record goes out on the issuing ring before it becomes FREE. -/
def execDetachFinish (part : Nat) (s : State) : Host.Outcome State Fault Refusal :=
  .next (match (s.part part).detach with
    | none => s
    | some k =>
      let lines := s.closingLines (· == part)
      if !s.detachReady part k then s
      else if !lines.isEmpty then s.snoop lines
      else
        let own := match s.cmd? k with
          | some c => c.part == part
          | none => false
        let s := (s.clearPart part).finish k stOk
        if own && (s.part part).st = 2 then s.modPart part fun q => { q with detach := none }
        else
          let s := s.each (s.ringsOf part) fun s n => s.endRing n
          s.freePart part)

/-- RING_DRAIN_DONE (R223, R220 step 7): the ring becomes DISABLED and its log is freed; with its
last ring a partition that has detached itself becomes FREE. -/
def execRingDrainDone (ring : Nat) (s : State) : Host.Outcome State Fault Refusal :=
  .next (if s.ringDrained ring then
      let p := (s.ring ring).part
      let s := s.endRing ring
      if (s.part p).st = 2 && (s.part p).detach.isNone && (s.ringsOf p).isEmpty then s.freePart p
      else s
    else s)

/-! ### Losing the host (R221, R267) -/

/-- A record already in the log turns into XFER_FAIL, because a result write was dropped. -/
def State.failRecord (s : State) (k : Nat) : State :=
  s.modRing (k / 2 ^ 32) fun r =>
    match FMap.find r.log (k % 2 ^ 32) with
    | some e =>
      let d := patchBytes (patchBytes (e.data.take 28) 16 (natLe 2 stXferFail)) 20 (natLe 2 0)
      { r with log := FMap.set r.log (k % 2 ^ 32) { e with data := withCrc d } }
    | none => r

/-- A result write of a post was dropped: it completes with XFER_FAIL. -/
def State.resultDropped (s : State) (k : Nat) : State :=
  match s.post? k with
  | some _ => s.modPost k fun v => { v with dropped := true }
  | none => s.failRecord k

/-- Drop accesses that are not accepted, and say so to the posts whose results they were. -/
def State.dropXfers (s : State) (pick : Xfer → Bool) : State :=
  let gone := s.io.out.filter fun x => pick x && !x.accepted
  let s := { s with io := { s.io with out := s.io.out.filter fun x => !(pick x && !x.accepted) } }
  s.each gone fun s x => match x.use with
    | .result k => s.resultDropped k
    | .event i =>
      s.setSrc i { s.src i with
        st := 1, timer := s.now
        count := Nat.min 65535 ((s.src i).count + (s.src i).carried), carried := 0 }
    | .attach k p => s.attachFailed k p
    | .desc n => s.modRing n fun r => { r with reading := 0 }
    | .oper k => s.finishIdle k stXferFail
    | .record n _ => s.resumeGo (s.ring n).part
    | _ => s

/-- The partition becomes DETACHED (R221): its rings are STOPPED, its held lines are gone. A
partition that was DETACHING finishes its detach: when only its own last record was still to be
written, that is dropped and it becomes FREE. -/
def State.detachPart (s : State) (p : Nat) : State :=
  if (s.part p).st = 2 && (s.part p).detach.isNone then
    (s.each (s.ringsOf p) fun s n => s.endRing n).freePart p
  else
  let s := { s with fe := { s.fe with rings := FMap.mapV s.fe.rings fun _ r =>
    if r.part = p then r.stop else r } }
  let s := (s.ringsOf p).foldl State.dropDesc s
  s.modPart p fun q => { q with st := 3, prioHeld := [], resuming := false, replays := [] }

end Sys2Proof.Machine
end

