-- ==== Sys2Proof/Machine/Events.lean ====
section
/-! DEFINITION. Event acknowledgement and coalescing, time pairs, and the TEL counter selector
(chapter 14; R377, R378). -/

namespace Sys2Proof.Machine

/-- The source's owner can be reached: it is not a DETACHED partition (R301). -/
def State.srcOpen (s : State) (i : Nat) : Bool :=
  let o := s.srcOwner i
  !(decide (o < 16) && (s.part o).st == 3)

/-- COALESCE_TIMER_EXPIRY (R299): a PENDING source whose time has been reached delivers. -/
def execCoalesceTimerExpiry (src : Nat) (s : State) : Host.Outcome State Fault Refusal :=
  .next (if src < 512 && (s.src src).st = 1 && decide ((s.src src).timer + s.coalCycles src ≤ s.now)
    then s.deliver src else s)

/-- EVT_ACK (R300): accepted only for an ACTIVE source without AUTO_ACK. -/
def execEvtAck (value : Word) (s : State) : Host.Outcome State Fault Refusal :=
  let i := bitsOf value.toNat 8 0
  .next (if (s.src i).st != 2 || s.autoAck i then s.count 0x0A1 0 1
    else if s.srcOpen i then s.rearm i else s)

/-! ### Time pairs (R305) -/

/-- Domains that a power state leaves running (Table 17.4, R343): standby, the sensors and the controller in every state
but OFF, with the security processor in BOOT_FAILED, and with the paths of the flush until it ends (assumption 141,
DEDUCED). -/
def State.domainPowered (s : State) (d : Nat) : Bool :=
  s.powered || (s.pwr.st != 0 && (d == 35 || d == 37 || d == 38))
    || (s.pwr.st == 6 && d == 30)
    || (s.pwr.st == 4 && !s.pwr.flushed && (d ≤ 20 || (26 ≤ d && d ≤ 29) || d == 31 || d == 36))

/-- A clock domain runs (R2): those of G8 and its channel group only with a tile of G8 enabled. -/
def State.domainRuns (s : State) (d : Nat) : Bool :=
  (if d = 8 || d = 17 then bitsOf s.fuse.tileMask 71 64 != 0 else decide (d < 40)) && s.domainPowered d

/-- A snapshot of every domain's counter and of every TEL counter. -/
def State.snapshot (s : State) : Tel :=
  { s.tel with
    busy := true
    hp := s.now
    valid := (List.range 40).foldl (fun n d => if s.domainRuns d then n + 2 ^ d else n) 0
    dom := (List.range 40).map fun d => (d, if s.domainRuns d then FMap.get s.clk d 0 else 0)
    snap := s.ctr }

/-- TRIGGER (R305): starts a snapshot; ignored while BUSY. -/
def execTrigger (value : Word) (s : State) : Host.Outcome State Fault Refusal :=
  .next (if value.getLsbD 0 && !s.tel.busy then { s with tel := s.snapshot } else s)

/-- TIME_PAIR_COMPLETE (R305): every capture has crossed back. -/
def execTimePairComplete (s : State) : Host.Outcome State Fault Refusal :=
  .next (if s.tel.busy then
      { s with tel := { s.tel with busy := false, seq := (s.tel.seq + 1) % 2 ^ 16 } }
    else s)

/-! ### Counters (R377, R378) -/

/-- Scopes of Table 18.7. -/
inductive Scope where
  | device | tile | part | partPlus | ring | table | port | mac | ctrl | d2d | cdc | rng
  deriving DecidableEq, Repr

/-- Scope of a counter ID (Table 18.8); none where it is unassigned. -/
def scopeOf (id : Nat) : Option Scope :=
  if id = 0x001 then some .d2d
  else if id = 0x002 || id = 0x006 || id = 0x008 then some .device
  else if id = 0x003 then some .cdc
  else if id = 0x004 || id = 0x005 then some .part
  else if id = 0x007 || (0x009 ≤ id && id ≤ 0x010) then some .tile
  else if id = 0x011 then some .rng
  else if 0x020 ≤ id && id ≤ 0x022 || id = 0x027 then some .tile
  else if 0x023 ≤ id && id ≤ 0x026 then some .table
  else if id = 0x033 then some .table
  else if id = 0x03D || id = 0x03E then some .part
  else if 0x030 ≤ id && id ≤ 0x03C then some .tile
  else if 0x040 ≤ id && id ≤ 0x043 then some .tile
  else if 0x044 ≤ id && id ≤ 0x047 then some .ctrl
  else if 0x048 ≤ id && id ≤ 0x04B then some .device
  else if id = 0x052 || id = 0x055 then some .ring
  else if id = 0x056 || (0x058 ≤ id && id ≤ 0x05B) then some .device
  else if 0x050 ≤ id && id ≤ 0x057 then some .part
  else if 0x060 ≤ id && id ≤ 0x062 then some .ring
  else if id = 0x063 then some .part
  else if id = 0x064 then some .device
  else if 0x070 ≤ id && id ≤ 0x072 then some .part
  else if id = 0x073 || id = 0x074 then some .device
  else if id = 0x083 then some .partPlus
  else if 0x080 ≤ id && id ≤ 0x086 then some .device
  else if id = 0x096 then some .mac
  else if 0x090 ≤ id && id ≤ 0x099 then some .port
  else if 0x09A ≤ id && id ≤ 0x09E then some .part
  else if id = 0x0A0 then some .part
  else if id = 0x0A2 then some .partPlus
  else if id = 0x0A5 then some .tile
  else if 0x0A1 ≤ id && id ≤ 0x0A4 then some .device
  else if id = 0x0B0 || id = 0x0B1 then some .part
  else if 0x0B2 ≤ id && id ≤ 0x0B4 then some .table
  else if id = 0x0B5 || id = 0x0B6 then some .tile
  else if 0x0B7 ≤ id && id ≤ 0x0BA then some .device
  else none

/-- Instances of a scope (Table 18.7). -/
def scopeSize : Scope → Nat
  | .device => 1
  | .tile => 72
  | .part => 16
  | .partPlus => 17
  | .ring => 4096
  | .table => 1024
  | .port => 16
  | .mac => 4
  | .ctrl => 4
  | .d2d => 2
  | .cdc => 1600
  | .rng => 144

/-- The selection names a counter. -/
def selValid (id inst : Nat) : Bool :=
  match scopeOf id with
  | some sc => decide (inst < scopeSize sc)
  | none => false

/-- Clock domain of a counter (R378, Table 18.8). -/
def counterDomain (id inst : Nat) : Nat :=
  match scopeOf id with
  | some .tile => inst / 8
  | some .rng => inst / 16
  | some .port => 22 + inst / 4
  | some .mac => 22 + inst
  | some .ctrl => 26 + inst
  | some .d2d => if inst = 0 then 20 else 19
  | some .cdc => inst / 40
  | _ =>
    if id = 0x002 || id = 0x048 || id = 0x049 then 19
    else if id = 0x005 || id = 0x056 then 21
    else if id = 0x04A || id = 0x04B || id = 0x0B7 then 36
    else if id = 0x053 || id = 0x054 then 34
    else if id = 0x057 then 31
    else if 0x058 ≤ id && id ≤ 0x05B then 32
    else if 0x050 ≤ id && id ≤ 0x055 then 33
    else if id = 0x0A4 then 18
    else if id = 0x0B0 || id = 0x0B1 then 21
    else if 0x060 ≤ id && id ≤ 0x0AF then 21
    else 31

/-- WIDTH, CLEARS and NO_WRAP of a counter (R378). -/
def counterWidth (id : Nat) : Nat := if id = 0x011 then 60 else if id = 0x024 then 32 else 64
def counterClears (id : Nat) : Bool := id == 0x024
def counterNoWrap (id : Nat) : Bool := id == 0x011 || id == 0x037

/-- The counter belongs to a disabled tile. -/
def State.counterOff (s : State) (id inst : Nat) : Bool :=
  match scopeOf id with
  | some .tile => !s.enabled inst
  | some .rng => !s.enabled (inst / 2)
  | _ => false

/-- The selected counter's value. -/
def State.selected (s : State) : DWord :=
  let t := s.tel
  if t.selErr || s.counterOff t.id t.inst then 0
  else FMap.get (if t.bank then t.snap else s.ctr) (ctrKey t.id t.inst) 0

/-- CNT_INFO (Table 18.6). -/
def State.cntInfo (s : State) : Word :=
  let t := s.tel
  if t.selErr then 0
  else BitVec.ofNat 32 (counterWidth t.id + 128 * b2n (counterClears t.id)
    + 256 * b2n (counterNoWrap t.id) + 65536 * counterDomain t.id t.inst)

/-- A write to CNT_SEL (R377): selects, and discards a latched high word. -/
def State.cntSelect (s : State) (value : Word) : State :=
  let v := value.toNat
  let id := bitsOf v 9 0
  let inst := bitsOf v 23 12
  { s with tel := { s.tel with
    id := id, bank := v.testBit 10, inst := inst, selErr := !selValid id inst, cntHi := none } }

/-- CNT_SEL (R377). -/
def execCntSel (value : Word) (s : State) : Host.Outcome State Fault Refusal :=
  .next (s.cntSelect value)

/-- A read of CNT_LO (R377, R304): the low word, with the high word latched; a live RC counter
clears. -/
def State.readCntLo (s : State) : State :=
  let v := s.selected
  let t := s.tel
  let s := { s with
    bus := { s.bus with rdata := v.setWidth 32 }
    tel := { t with cntHi := some ((v >>> 32).setWidth 32) } }
  if !t.selErr && counterClears t.id && !t.bank then s.setCtr t.id t.inst 0 else s

/-- CNT_LO. -/
def execCntLo (s : State) : Host.Outcome State Fault Refusal := .next s.readCntLo

end Sys2Proof.Machine
end

