-- ==== Sys2Proof/Machine/Tile.lean ====
section
/-! DEFINITION. The tile's shared operations (chapter 3): scratchpad, contexts, flags, the issue
gate, failing a post, and the array's fills. -/

namespace Sys2Proof.Machine

/-! ### Scratchpad (R62, R64) -/

/-- Bytes of a tile's scratchpad from a line on. -/
def State.spRead (s : State) (t line n : Nat) : Bytes := s.mem.readN (spAddr t (256 * line)) n

/-- A line carries poison. -/
def State.spBad (s : State) (t line : Nat) : Bool := s.mem.poisoned (spAddr t (256 * line) / 256)

/-- Some of `n` lines carry poison. -/
def State.spAnyBad (s : State) (t line n : Nat) : Bool :=
  (List.range n).any fun i => s.spBad t (line + i)

/-- Write whole lines, with their own marks. -/
def State.spWrite (s : State) (t line : Nat) (b : Bytes) (poison : List Nat) : State :=
  { s with mem := s.mem.writeSheets (spAddr t (256 * line)) b poison }

/-- Write part of a line: whole-line poison stays (R190). -/
def State.spPatch (s : State) (t a : Nat) (b : Bytes) : State :=
  { s with mem := s.mem.writePart (spAddr t a) b }

/-! ### Flags and frames (R65, R70, R79) -/

def setFlag (f i : Nat) : Nat := f ||| 2 ^ i
def clrFlag (f i : Nat) : Nat := if f.testBit i then f - 2 ^ i else f

/-- Output flags an instruction names. -/
def outFlags (w : Bytes) : List Nat := [iOut w 0, iOut w 1].filter (· < 64)
/-- Input flags it names. -/
def inFlags (w : Bytes) : List Nat := [iIn w 0, iIn w 1, iIn w 2, iIn w 3].filter (· < 64)
/-- Input flags it releases. -/
def relFlags (w : Bytes) : List Nat :=
  ((List.range 4).filter fun n => (iRel w).testBit n && decide (iIn w n < 64)).map fun n => iIn w n

def Ctx.frame (c : Ctx) (dk : Nat) : Frame := FMap.get c.frames dk {}

def State.ctx? (s : State) (t c : Nat) : Option Ctx := FMap.find (s.tile t).ctxs c
def State.setCtx (s : State) (t c : Nat) (v : Ctx) : State :=
  s.modTile t fun x => { x with ctxs := FMap.set x.ctxs c v }
def State.modCtx (s : State) (t c : Nat) (f : Ctx → Ctx) : State :=
  match s.ctx? t c with
  | some v => s.setCtx t c (f v)
  | none => s

/-! ### Failing a post (R65, R145, R310) -/

/-- A waiting instruction of a failed post that is abandoned: a transfer in class FELT, T1 or T2, or
any PUT. -/
def XferJob.abandoned (j : XferJob) : Bool := isPut j.word || xClass j.word != 0

/-- On one tile, the post's contexts issue nothing but END and their waiting work is abandoned. -/
def Tile.failPost (x : Tile) (k : Nat) : Tile :=
  let mine (c : Nat) : Bool := match FMap.find x.ctxs c with
    | some v => v.post == some k
    | none => false
  { x with
    ctxs := FMap.mapV x.ctxs fun _ c =>
      if c.post = some k then { c with failed := true, parked := false } else c
    xq := FMap.mapV x.xq fun _ q => q.filter fun j => !(mine j.ctx && j.abandoned)
    gops := x.gops.filter fun g => !mine g.ctx }

/-- The gather units' work for a post stops; its update is abandoned unless go has been sent (R145,
R154). -/
def State.stopGather (s : State) (k : Nat) : State :=
  let go := match s.post? k with
    | some v => v.commit == 2
    | none => false
  let s := s.modPost k fun v => { v with commit := if v.commit = 1 then 3 else v.commit }
  { s with gat := { s.gat with
    works := s.gat.works.filter fun g => g.post != k
    uworks := if go then s.gat.uworks else s.gat.uworks.filter fun g => g.post != k } }

/-- A post is marked failed: its first failing status stands, on every tile (R65). -/
def State.failPost (s : State) (k st : Nat) : State :=
  let s := (s.modPost k fun v => { v with fail := if v.fail = 0 then st else v.fail }).stopGather k
  { s with tiles := FMap.mapV s.tiles fun _ x => x.failPost k }

/-- Fail the post of a context; a test program's context issues nothing but END. -/
def State.failCtx (s : State) (t c st : Nat) : State :=
  match s.ctx? t c with
  | none => s
  | some v => match v.post with
    | some k => s.failPost k st
    | none => s.modCtx t c fun v => { v with failed := true }

/-- A completion flag of the context's post (Table 10.11). -/
def State.flagPost (s : State) (t c bit : Nat) : State :=
  match s.ctx? t c with
  | none => s
  | some v => match v.post with
    | some k => s.modPost k fun p => { p with flags := p.flags ||| 2 ^ bit }
    | none => s

/-- Return the inputs named in RELEASE to EMPTY (R70). -/
def State.release (s : State) (t c : Nat) (w : Bytes) : State :=
  s.modCtx t c fun v => { v with flags := (relFlags w).foldl clrFlag v.flags }

/-- An instruction's output flags become FULL; a set on a FULL flag is an overrun (R70). -/
def State.setOut (s : State) (t c : Nat) (w : Bytes) : State :=
  match s.ctx? t c with
  | none => s
  | some v =>
    let exceeded := (outFlags w).any fun i => v.flags.testBit i
    let s := s.setCtx t c { v with flags := (outFlags w).foldl setFlag v.flags }
    if exceeded then (s.count 0x00B t 1).failCtx t c stInternal else s

/-- The last read and the last write of an instruction are done at once (R70). -/
def State.signal (s : State) (t c : Nat) (w : Bytes) : State := (s.release t c w).setOut t c w

/-- A unit has read poisoned lines on a context's behalf: its post fails with POISON, and poisoned
WEIGHTS or CONST lines wait for RECOVERY with REAM_DEGRADED set (R310, R312). -/
def State.consume (s : State) (t c : Nat) (lines : List Nat) : State :=
  let bad := lines.filter fun l => s.spBad t l && s.reamLine t l && !(s.tile t).badLines.contains l
  let s := s.failCtx t c stPoison
  if bad.isEmpty then s
  else
    let s := s.each bad fun s l => s.plogAdd 4 t 0xFFFF l
    ({ s with ream := { s.ream with degraded := true } }).modTile t fun x => { x with
      badLines := x.badLines ++ bad }

/-! ### The issue gate (R69) -/

/-- Work of a context that its units have not completed. -/
def Tile.busy (x : Tile) (c : Nat) : Bool :=
  x.fills.any (·.ctx == c) || x.vec.any (·.ctx == c) || x.gops.any (·.ctx == c)
    || x.xq.any (fun q => q.2.any (·.ctx == c))
    || match x.stream with
      | some j => j.ctx == some c
      | none => false

/-- A context that runs: not parked and not past its END. -/
def Ctx.running (c : Ctx) : Bool := !c.parked && !c.ending

/-- The END word, what a failed context issues (R65). -/
def endWord : Bytes := natLe 1 4 ++ zeros 3 ++ (List.replicate 6 (0xFF : Byte)) ++ zeros 22

/-- The next instruction of a context. -/
def State.nextWord (s : State) (t : Nat) (c : Ctx) : Bytes :=
  if c.failed then endWord else pWord (s.program t c) c.pc

/-- Fills waiting, and the one that executes, in the array's queue of three (R77). -/
def Tile.fillCount (x : Tile) : Nat :=
  (x.fills.filter fun f => !f.started).length + b2n (x.fills.any (·.started))

/-- A base line that names an accumulator bank (Table 5.1). -/
def bankOf (base : Nat) : Option Nat :=
  if base = 0xFFF0 then some 0 else if base = 0xFFF1 then some 1 else none

def Tile.bank (x : Tile) (b : Nat) : Bank := FMap.get x.banks b {}
def State.modBank (s : State) (t b : Nat) (f : Bank → Bank) : State :=
  s.modTile t fun x => { x with banks := FMap.set x.banks b (f (x.bank b)) }

/-- The banks a vector instruction reads. -/
def vecBanks (w : Bytes) : List Nat := [bankOf (fld w 12 2), bankOf (fld w 16 2)].filterMap id

def Tile.queue (x : Tile) (cls : Nat) : List XferJob := FMap.get x.xq cls []

/-- The unit of an instruction has a free entry, and the banks it needs are ready (R69, R74, R117). -/
def Tile.unitFree (x : Tile) (c : Nat) (w : Bytes) : Bool :=
  let op := iOp w
  if op = 0x01 then
    let b := x.bank (fBank w)
    !x.slice && decide (x.fillCount < 3) && (b.st == 0 || (b.st == 1 && b.ctx == c))
  else if op = 0x04 then !x.busy c
  else if 0x10 ≤ op && op ≤ 0x1F then
    !x.slice && decide ((x.vec.filter fun j => !j.read).length < 3) &&
      (vecBanks w).all fun b => (x.bank b).st == 2 && (x.bank b).ctx == c
  else if op = 0x38 || op = 0x39 then decide ((x.queue (xClass w)).length < 8)
  else true

/-- The line of a context's next instruction carries no poison (R312). -/
def State.wordReadable (s : State) (t : Nat) (c : Ctx) : Bool :=
  c.failed || !s.spBad t (pLine (s.program t c) + c.pc / 8)

/-- `gate` of R69, and the instruction can be read. -/
def State.gate (s : State) (t c : Nat) (v : Ctx) : Bool :=
  let w := s.nextWord t v
  s.wordReadable t v && (inFlags w).all (fun i => v.flags.testBit i) && (outFlags w).all (fun i => !v.flags.testBit i)
    && (s.tile t).unitFree c w

/-- The tile issues: SERVING, or a test program in TEST (R88, R379). -/
def State.issues (s : State) (t : Nat) : Bool :=
  s.enabled t && ((s.tile t).st == 1 || (s.tile t).st == 4)

/-- A context may issue on its tile: on one that issues, or, where its post is marked failed, on one in RECOVERY, so
that its END frees it (R65, R312). -/
def State.mayIssue (s : State) (t : Nat) (v : Ctx) : Bool :=
  s.issues t || (s.enabled t && (s.tile t).st == 3 && v.failed)

/-- The context whose instruction issues now: the oldest admitted post whose gate passes (R69). -/
def State.turn (s : State) (t : Nat) : Option Nat :=
  let ok := (s.tile t).ctxs.filter fun e => e.2.running && s.mayIssue t e.2 && s.gate t e.1 e.2
  (ok.foldl (fun best e => match best with
    | none => some e
    | some b => if e.2.order < b.2.order then some e else some b) none).map (·.1)

/-! ### Layer tables (R110, R111) -/

/-- The layer table's entries: LAYER, FIRST, SPLIT, END. -/
def layers (prog : Bytes) : List (Nat × Nat × Nat × Nat) :=
  let b := prog.drop (64 + 32 * pCount prog)
  (List.range (fld b 0 4)).map fun i =>
    let e := b.drop (16 + 16 * i)
    (fld e 0 1, fld e 4 2, fld e 6 2, fld e 8 2)

/-- One jump of the layer table, if the program counter stands at one. -/
def layerJump (ls : List (Nat × Nat × Nat × Nat)) (esc : Word) (pc : Nat) : Option (Nat × Bool) :=
  firstSome (fun (l, first, split, e) =>
    if pc = first && esc.getLsbD l then some (split, true)
    else if pc = split && !esc.getLsbD l then some (e, false)
    else none) ls

/-- Where the sequencer continues from `pc`, and whether an 8-bit variant was entered (R111). -/
def landPc (ls : List (Nat × Nat × Nat × Nat)) (esc : Word) : Nat → Nat → Nat × Bool
  | 0, pc => (pc, false)
  | k + 1, pc => match layerJump ls esc pc with
    | none => (pc, false)
    | some (p, wide) => if wide then (p, true) else landPc ls esc k p

/-- Advance a context past its instruction. -/
def State.advance (s : State) (t c : Nat) : State :=
  match s.ctx? t c with
  | none => s
  | some v =>
    if v.failed then s
    else
      let ls := layers (s.program t v)
      let (pc, wide) := landPc ls v.esc (ls.length + 1) (v.pc + 1)
      let s := s.setCtx t c { v with pc := pc }
      if wide then s.flagPost t c 1 else s

/-- CTX_SWITCH counts where another running context is blocked while this one issues (R69). -/
def State.countSwitch (s : State) (t c : Nat) : State :=
  if (s.tile t).ctxs.any fun e => e.1 != c && e.2.running && !s.gate t e.1 e.2 then s.count 0x00A t 1
  else s

/-- Issue the next instruction of a context when it is its turn and its opcode is `op`: the context
advances, and `go` runs on the word and the context as they stood. -/
def State.issue1 (s : State) (t c op : Nat) (go : State → Bytes → Ctx → State) : State :=
  if s.turn t != some c then s
  else match s.ctx? t c with
    | none => s
    | some v =>
      let w := s.nextWord t v
      if iOp w != op then s
      else go ((s.countSwitch t c).advance t c) w v

/-! ### Fills (R72 to R81, R91 to R96) -/

/-- Lines of a weight block by mode. -/
def blockLines (mode : Nat) : Nat := if mode = 2 then 512 else 256

/-- What names a fill's weight block (R77). -/
def FillJob.key (j : FillJob) : Nat × Nat × Nat := (fWgt j.word, fMode j.word, j.version)
def WBlock.key (b : WBlock) : Nat × Nat × Nat := (b.line, b.mode, b.version)

/-- The first waiting fill that needs its block moved, given the block active before it (R77). -/
def needsLoad : Option (Nat × Nat × Nat) → List FillJob → Option FillJob
  | _, [] => none
  | act, j :: js =>
    if j.started || act = some j.key then needsLoad act js else some j

/-- Capture a weight block from the scratchpad. -/
def State.readBlock (s : State) (t : Nat) (j : FillJob) : WBlock :=
  let n := blockLines (fMode j.word)
  { line := fWgt j.word, mode := fMode j.word, version := j.version
    data := s.spRead t (fWgt j.word) (256 * n), poison := s.spAnyBad t (fWgt j.word) n }

/-- Ternary formats (Table 4.1). Assumption 40, DEDUCED. -/
def isTern (f : Nat) : Bool := f = 0x02 || f = 0x03

/-- Bytes of a ternary block that hold its fields: the M4 layout at the mode's depth (R73). -/
def ternBytes (mode : Nat) : Nat := 128 * modeDepth mode

/-- Ternary fields outside 0, +1, -1 (Table 4.3). -/
def ternOut (mode : Nat) (b : Bytes) : Nat :=
  let bad (n : Nat) : Nat := b2n (n != 0 && n != 1 && n != 15)
  (b.take (ternBytes mode)).foldl (fun a x => a + bad (x.toNat % 16) + bad (x.toNat / 16)) 0

/-- Element field k of activation row m (R73). -/
def actField (f mode k : Nat) (row : Bytes) : Nat :=
  elemField (if mode = 2 then 16 else fmtWidth f) row k

/-- Element field at depth k, column n of a weight block (R73); ternary weights take the M4 layout. -/
def wgtField (f mode : Nat) (b : Bytes) (k n : Nat) : Nat :=
  if mode = 2 then fld b (512 * k + 2 * n) 2
  else if mode = 1 || isTern f then
    let x := (b.getD (256 * (k / 2) + n) 0).toNat
    if k % 2 = 0 then x % 16 else x / 16
  else elemField (fmtWidth f) ((b.drop (256 * k)).take 256) n

/-- The two tag lines of a scaled operand agree (R96). -/
def tagsOk (data scale : Bytes) (fmt : Nat) : Bool :=
  crcOkAt data 252 && crcOkAt scale 252 && fld data 1 1 == 1 && fld scale 1 1 == 2
    && fld data 2 1 == fmt && fld scale 2 1 == fmt && fld data 0 1 == fld scale 0 1

/-- Scaled operands of a fill: data line, scale line, format. -/
def fillScaled (w : Bytes) : List (Nat × Nat × Nat) :=
  [(fAct w, fScaleA w, fFmtA w), (fWgt w, fScaleW w, fFmtW w)].filter fun o => o.2.1 != 0xFFFF

/-- Some line a fill reads is poisoned (R310); the weight block's own mark came with its load.
Assumption 36, DEDUCED. -/
def State.fillPoison (s : State) (t : Nat) (w : Bytes) (rows : Nat) (b : WBlock) : Bool :=
  let mode := fMode w
  let nseg := modeDepth mode / 32
  b.poison || s.spAnyBad t (fAct w) (rows * (if mode = 2 then 2 else 1))
    || (fillScaled w).any fun (d, sc, _) =>
      s.spBad t (d - 1) || s.spBad t (sc - 1) || s.spAnyBad t sc nseg

/-- One activation row decoded, zero at DEPTH and beyond (R81). -/
def State.actRow (s : State) (t : Nat) (w : Bytes) (depth m : Nat) : List FVal :=
  let mode := fMode w
  let lpr := if mode = 2 then 2 else 1
  let row := s.spRead t (fAct w + m * lpr) (256 * lpr)
  (List.range (modeDepth mode)).map fun k =>
    if k < depth then decElem (fFmtA w) (actField (fFmtA w) mode k row) else .fin false 0 0

/-- Products of segment g for a row and a column. The block is decoded by this FILL's own FMT_W, also where it reuses
a block that a FILL of another format loaded: R77 names a block by WGT, MODE and version only (assumption 120,
DEDUCED). -/
def segProducts (w : Bytes) (b : WBlock) (row : List FVal) (n g : Nat) : List FVal :=
  (List.range 32).map fun i =>
    let k := 32 * g + i
    mulVal (row.getD k (.fin false 0 0)) (decElem (fFmtW w) (wgtField (fFmtW w) (fMode w) b.data k n))

/-- One column's contribution (R93), and the additions that saturated. -/
def fillElem (w : Bytes) (b : WBlock) (sa sw : Nat → Nat) (row : List FVal) (n : Nat) : Word × Nat :=
  let nseg := modeDepth (fMode w) / 32
  if fillClass (fFmtA w) (fFmtW w) = some 0 then
    let (v, sat) := colInt ((List.range nseg).map fun g => segInt (segProducts w b row n g) (sw g))
    (wordOfInt v, sat)
  else
    (colFloat ((List.range nseg).map fun g => segFloat (segProducts w b row n g) (sa g) (sw g)), 0)

/-- Add a contribution into an accumulator entry (R93). -/
def accAdd (int : Bool) (old v : Word) : Word × Nat :=
  if int then
    let (x, b) := sat32 (intOfWord old + intOfWord v)
    (wordOfInt x, b2n b)
  else (fadd old v, 0)

/-- Row m of a fill: 256 new entries and the saturations. -/
def State.fillRow (s : State) (t : Nat) (w : Bytes) (fr : Frame) (b : WBlock) (m : Nat)
    (old : List Word) : List Word × Nat :=
  let int := fillClass (fFmtA w) (fFmtW w) == some 0
  let row := s.actRow t w fr.depth m
  let scale (line dflt g i : Nat) : Nat :=
    if line = 0xFFFF then dflt else (s.mem.read (spAddr t (256 * (line + g) + i))).toNat
  let es := (List.range 256).map fun n =>
    let (v, k) := fillElem w b (fun g => scale (fScaleA w) 127 g m)
      (fun g => scale (fScaleW w) (if int then 1 else 127) g n) row n
    if fAdd w then (let (x, j) := accAdd int (old.getD n 0) v; (x, k + j)) else (v, k)
  (es.map (·.1), (es.map (·.2)).foldl (· + ·) 0)

/-- The fill's sums enter its bank (R74, R93): SET zeroes the rows it does not feed. -/
def State.fillCompute (s : State) (t : Nat) (j : FillJob) (b : WBlock) : State × Nat :=
  let w := j.word
  let bank := (s.tile t).bank (fBank w)
  let start : FMap (List Word) := if fAdd w then bank.rows else []
  let (rows, sat) := (List.range j.frame.rows).foldl (fun (acc, n) m =>
    let (r, k) := s.fillRow t w j.frame b m (FMap.get acc m [])
    (FMap.set acc m r, n + k)) (start, 0)
  (s.modBank t (fBank w) fun x => { x with rows := rows }, sat)

/-- A fill ends: its bank becomes COMPLETE with LAST, and its output flags become FULL (R74, R76). -/
def State.fillEnd (s : State) (t : Nat) (j : FillJob) : State :=
  let s := if fLast j.word then s.modBank t (fBank j.word) fun x => { x with st := 2 } else s
  s.setOut t j.ctx j.word

/-- A failed fill leaves the queue without any effect of its own (R96, R310). -/
def State.dropFill (s : State) (t : Nat) (j : FillJob) : State :=
  s.modTile t fun x => { x with fills := x.fills.erase j }

end Sys2Proof.Machine
end

