-- ==== Sys2Proof/Machine/Done.lean ====
section
/-! DEFINITION. How a post ends (R22, R47, R50, R55, R208, R232): its results sealed, its flags, its
completion record, and what its end frees. -/

namespace Sys2Proof.Machine

/-- Range of a post's result buffer: segment, offset, length. -/
def Cmd.resSeg (c : Cmd) : Nat := c.f 21 1
def Cmd.resOff (c : Cmd) : Nat := c.f 32 6
def Cmd.resLen (c : Cmd) : Nat := c.f 44 4
/-- Output key slot of a post. -/
def Cmd.outSlot (c : Cmd) : Nat := c.f 30 2

/-- The post's results pass through the encryptor (R195, R208). Assumption 59, DEDUCED. -/
def State.sealsOut (s : State) (c : Cmd) : Bool :=
  c.outSlot != noSlot && match s.heldSeg c.part c.resSeg with
    | some v => v.tier == 2
    | none => false

/-- The result buffer cannot be reached (R221). -/
def State.resultLost (s : State) (c : Cmd) : Bool :=
  match s.heldSeg c.part c.resSeg with
  | some v => v.tier == 2 && !s.hostUp c.part v.qp
  | none => false

/-- The seal record of Table 9.7, KIND 2, but for its tag. -/
def sealHead (k : Slot) (slot ctLen seq : Nat) : Bytes :=
  natLe 4 0x52534E59 ++ natLe 2 1 ++ natLe 1 k.alg ++ natLe 1 2 ++ k.keyId.take 8 ++ zeros 4
    ++ natLe 8 k.outCtr ++ natLe 2 slot ++ zeros 2 ++ k.salt.take 14 ++ zeros 2 ++ natLe 8 ctLen
    ++ natLe 8 seq

/-- Plain results of a post in order; a byte no PUT has written is a free value. -/
def State.plainResults (s : State) (v : Post) (n : Nat) : Bytes × State :=
  let (fs, s) := s.freeVals n
  ((List.range n).map fun i => (FMap.find v.sealBuf i).getD (BitVec.ofNat 8 (fs.getD i 0)), s)

/-- Encrypt the results and write ciphertext and seal record; OUT_CTR advances (R208). -/
def State.sealResults (s : State) (k : Nat) (c : Cmd) (v : Post) : State :=
  let (pt, s) := s.plainResults v c.resLen
  let o := s.slot c.outSlot
  let head := sealHead o c.outSlot c.resLen (c.epoch * 2 ^ 32 + c.seq)
  let iv := zeros 4 ++ natLe 8 o.outCtr
  let key := deriveKey o.alg o.outputKey 0x52 o.salt
  let ct := gcmEnc o.alg key iv pt
  let tag := gcmTag o.alg key iv head ct
  let s := s.modSlot c.outSlot fun x => { x with outCtr := x.outCtr + 1 }
  let s := s.count 0x055 c.outSlot c.resLen
  let s := s.writeSeg (.result k) c.part c.resSeg c.resOff ct (v.sealBad.map fun n => [4 * n, 4 * n + 1, 4 * n + 2, 4 * n + 3]).flatten
  s.writeSeg (.result k) c.part c.resSeg (c.f 48 6) (head ++ tag ++ zeros 48) []

/-- Host-port cycles from start to finish exceed the bound; a cycle lasts 1 ns (R47, R50). A post that was admitted
under a profile, or that finishes with mode `m`, a profile, in force, is never late (R50, R53). -/
def Post.late (v : Post) (m : Nat) : Bool :=
  v.profile == 0 && m == 0 && v.bound != 0 && match v.finish with
    | some f => decide (v.bound < f - v.start)
    | none => false

/-- Flags of Table 10.11 when the record becomes ready. -/
def Post.doneFlags (v : Post) (late : Bool) : Nat :=
  v.flags ||| (if late then 1 else 0)

/-- Some post in the block was admitted on this version. -/
def State.versionUsed (s : State) (n : Nat) : Bool :=
  s.posts.any fun p => p.2.phase == 3 && p.2.version == n

/-- The last post of the old version has finished: its space becomes the patch reserve (R55). -/
def State.freeOldVersion (s : State) : State :=
  match s.ream.old with
  | none => s
  | some o =>
    if s.versionUsed o.num then s
    else ({ s with ream := { s.ream with old := none } }).causeTo s.ream.owner cOldVersionFreed

/-- Counts and decisions of a post that does not end with OK are discarded (R112). -/
def State.dropEsc (s : State) (k : Nat) : State :=
  { s with ream := { s.ream with
    escMsgs := s.ream.escMsgs.filter fun r => r.post != k
    escSums := FMap.del s.ream.escSums k
    escPend := s.ream.escPend.filter fun e => e.2.1 != some k } }

/-- A post ends with OK: its counts have been judged, and its decisions no longer depend on it (R112). -/
def State.closeEsc (s : State) (k : Nat) : State :=
  { s with ream := { s.ream with
    escSums := FMap.del s.ream.escSums k
    escPend := s.ream.escPend.map fun e => if e.2.1 = some k then (e.1, none, e.2.2) else e } }

/-- The post's counts have decided a bit that the next sweep boundary sets (R113). -/
def State.triggers (s : State) (k : Nat) : Bool := s.ream.escPend.any fun e => e.2.1 == some k

/-- The post a message of the gather traffic belongs to. -/
def Msg.gatherPost : Msg → Option Nat
  | .entry k .. | .gatherEnd k _ | .partials k .. | .combineEnd k _ | .overMark k _ | .grad k ..
  | .updateEnd k .. => some k
  | .sheets .. => none

/-- What the end of a post frees (R185, R382). -/
def State.clearPost (s : State) (k : Nat) : State :=
  let s := { s with tiles := FMap.mapV s.tiles fun _ x => { x with
    landed := x.landed.filter fun l => l.1 != k } }
  let s := { s with gat := { s.gat with
    works := s.gat.works.filter fun g => g.post != k
    uworks := s.gat.uworks.filter fun g => g.post != k
    ends := FMap.del s.gat.ends k
    combined := s.gat.combined.filter fun c => c.1 != k
    cold := s.gat.cold.filter fun e => e.1 != k
    ucold := s.gat.ucold.filter fun e => e.1 != k } }
  let s := (s.dropPost k).cacheDrop fun c => match c with
    | .net p _ _ => p == k
    | .t1 _ => false
  s.freeOldVersion

/-- A step is over: stream 1 of every shard tile stands after its blocks (R156). R156 says where the counter stands when a
unit's blocks end and not when in the step it is seen to move: here at the post's completion (assumption 122, DEDUCED). -/
def State.stepTaken (s : State) (step : Option Nat) : State :=
  match step with
  | none => s
  | some n => s.each s.tileList fun s t =>
    if (s.updTables t).isEmpty then s
    else
      let p := s.blockStart t n 1024
      if (s.counter 0x011 (2 * t + 1)).toNat < p then s.setCtr 0x011 (2 * t + 1) (BitVec.ofNat 64 p) else s

/-- A post's record becomes ready with a status. One that would end with OK has lost a result, or finds its output slot
exhausted by the posts that ended before it (R201; assumption 140, DEDUCED). -/
def State.completePost (s : State) (k st : Nat) : State :=
  match s.post? k, s.cmd? k with
  | some v, some c =>
    let lost := v.dropped || (s.sealsOut c && s.resultLost c)
    let st := if st = stOk && lost then stXferFail
      else if st = stOk && s.sealsOut c && 2 ^ 64 - 1 ≤ (s.slot c.outSlot).outCtr then stKeyExhausted else st
    let s := if st = stOk && s.sealsOut c then s.sealResults k c v else s
    let late := v.late s.ream.mode
    let s := if late && !v.emergency then (s.count 0x005 v.part 1).causeAll cBoundMiss else s
    let s := if st = stPoison then s.count 0x0B0 v.part 1 else s
    let v := if st = stOk && s.triggers k then { v with flags := v.flags ||| 4 } else v
    let s := (if st = stOk then s.closeEsc k else s.dropEsc k).stepTaken v.step
    (s.finish k st (postResult (if st = stOk then v.q else 0) v.step) (v.doneFlags late)).clearPost k
  | _, _ => s

/-- Some tile holds a context of the post. -/
def State.inTiles (s : State) (k : Nat) : Bool :=
  s.tiles.any fun x => x.2.ctxs.any fun c => c.2.post == some k

/-- The post's update waits for its commit decision or has writes to make (R153, R154). -/
def State.updateOpen (s : State) (k : Nat) : Bool :=
  match s.post? k with
  | some v => v.commit == 1 || v.commit == 2
  | none => false

/-- A lookup of the post is not over: a list its programs have not dispatched, a gather unit's work, or
a message of either (R384). -/
def State.lookupOpen (s : State) (k : Nat) (v : Post) : Bool :=
  (v.lists.any fun l => l.kind == 0 && !v.ran.contains (2 * l.table))
    || s.gat.works.any (fun g => g.post == k) || s.felt.any fun f => f.msg.gatherPost == some k

/-- A tile's counts for the post are on their way to the admission controller (R112). -/
def State.reportsOut (s : State) (k : Nat) : Bool := s.ream.escMsgs.any fun r => r.post == k

/-- An admitted post is over: it failed, or it is past its last stage, and no context of it remains
(R65). One that ends with OK first waits for its lookups (R384), and for its counts to be judged: its
completion says whether they set a bit (R113). Assumption 88, DEDUCED. Assumption 89, DEDUCED. -/
def State.settle (s : State) (k : Nat) : State :=
  match s.post? k with
  | none => s
  | some v =>
    if v.phase != 3 || s.inTiles k || s.updateOpen k then s
    else if v.fail != 0 then s.completePost k v.fail
    else if v.stage + 1 = hStages s.ream.hdr && !s.reportsOut k && !s.lookupOpen k v then
      s.completePost k stOk
    else s

end Sys2Proof.Machine
end

