-- ==== Sys2Proof/Machine/Array.lean ====
section
/-! DEFINITION. The array and the sequencer's own instructions: FILL and its steps, STREAM, DECKLE,
END, WAIT (chapter 3; R93, R96). -/

namespace Sys2Proof.Machine

/-! ### Fills -/

/-- FILL issues (R69, R75, R80): its bank is HELD; a fill of no rows completes at once. -/
def execFill (tile ctx : Nat) (s : State) : Host.Outcome State Fault Refusal :=
  .next (s.issue1 tile ctx 0x01 fun s w v =>
    let j : FillJob := { ctx := ctx, word := w, version := v.version, frame := v.frame (fDk w) }
    let s := s.modBank tile (fBank w) fun b => { b with st := 1, ctx := ctx }
    if j.frame.rows = 0 then
      let s := if fAdd w then s else s.modBank tile (fBank w) fun b => { b with rows := [] }
      (s.release tile ctx w).fillEnd tile j
    else s.modTile tile fun x => { x with fills := x.fills ++ [j] })

/-- WEIGHT_LOAD_DONE (R77, R92): the block of the first waiting fill that needs one is in the
inactive registers. -/
def execWeightLoadDone (tile : Nat) (s : State) : Host.Outcome State Fault Refusal :=
  .next (
    let x := s.tile tile
    match x.inactive, needsLoad (x.active.map WBlock.key) x.fills with
    | none, some j =>
      let b := s.readBlock tile j
      let s := if isTern (fFmtW j.word) then s.count 0x00F tile (ternOut b.mode b.data) else s
      s.modTile tile fun x => { x with inactive := some b }
    | _, _ => s)

/-- The tile with the fill's block active, when it is or stands ready to swap in (R77). -/
def Tile.swapFor (x : Tile) (j : FillJob) : Option (Tile × WBlock) :=
  match x.active with
  | some a => if a.key = j.key then some (x, a) else swapIn
  | none => swapIn
where
  /-- The inactive block becomes active. -/
  swapIn : Option (Tile × WBlock) :=
    match x.inactive with
    | some b => if b.key = j.key then some ({ x with active := some b, inactive := none }, b) else none
    | none => none

/-- Every scaled operand's tag lines agree (R96). -/
def State.fillTags (s : State) (t : Nat) (w : Bytes) : Bool :=
  (fillScaled w).all fun (d, sc, f) => tagsOk (s.spRead t (d - 1) 256) (s.spRead t (sc - 1) 256) f

/-- Lines a fill reads (R310). -/
def fillLines (w : Bytes) (rows : Nat) : List Nat :=
  let n := modeDepth (fMode w) / 32
  let run (a k : Nat) : List Nat := (List.range k).map (· + a)
  run (fAct w) (rows * (if fMode w = 2 then 2 else 1)) ++ run (fWgt w) (blockLines (fMode w))
    ++ ((fillScaled w).map fun (d, sc, _) => [d - 1, sc - 1] ++ run sc n).flatten

/-- A fill stops without any effect of its own (R96, R310). -/
def State.stopFill (s : State) (t : Nat) (j : FillJob) : State :=
  s.modTile t fun x => { x with fills := x.fills.erase j }

/-- SCALE_SKEW (R96). -/
def State.skew (s : State) (t c : Nat) : State := (s.count 0x010 t 1).failCtx t c stScaleSkew

/-- The fill at the front of the waiting ones runs (R77, R81, R93, R96, R310). -/
def State.startFill (s : State) (t : Nat) (j : FillJob) (b : WBlock) : State :=
  if s.fillPoison t j.word j.frame.rows b then
    (s.stopFill t j).consume t j.ctx (fillLines j.word j.frame.rows)
  else if !s.fillTags t j.word then (s.stopFill t j).skew t j.ctx
  else
    let (s, sat) := s.fillCompute t j b
    let s := if sat = 0 then s
      else (s.modCtx t j.ctx fun c => { c with accSat := c.accSat + sat }).flagPost t j.ctx 3
    let s := s.modTile t fun x => { x with
      fills := x.fills.map fun f => if f == j then { f with started := true } else f }
    s.release t j.ctx j.word

/-- FILL_START (R77): the fill's block is active, and it feeds its rows. -/
def execFillStart (tile : Nat) (s : State) : Host.Outcome State Fault Refusal :=
  .next (match (s.tile tile).fills.find? fun f => !f.started with
    | none => s
    | some j => match (s.tile tile).swapFor j with
      | none => s
      | some (x, b) => (s.setTile tile x).startFill tile j b)

/-- FILL_COMPLETE (R74, R76). -/
def execFillComplete (tile : Nat) (s : State) : Host.Outcome State Fault Refusal :=
  .next (match (s.tile tile).fills.find? fun f => f.started with
    | none => s
    | some j => (s.stopFill tile j).fillEnd tile j)

/-! ### STREAM (R89, R379) -/

/-- STREAM's own operands: rows, and the first line of its output ring. -/
def stRows (w : Bytes) : Nat := fld w 24 2
def stOut (w : Bytes) : Nat := fld w 26 2

/-- Lines of input row `r` and of output row `r` in their rings of 16. -/
def inLines (w : Bytes) (r : Nat) : List Nat :=
  let n := if fMode w = 2 then 2 else 1
  (List.range n).map fun i => fAct w + r % 16 * n + i
def outLines (w : Bytes) (r : Nat) : List Nat := (List.range 4).map fun i => stOut w + r % 16 * 4 + i

/-- The weight block of a STREAM, read as a fill's is. R92 ties TERN_RANGE to the weight port's load of R77, which no
STREAM makes: its block counts nothing there (assumption 121, DEDUCED). -/
def State.streamBlock (s : State) (t : Nat) (w : Bytes) : WBlock :=
  s.readBlock t { ctx := 0, word := w }

/-- One result row of a STREAM. The activation scales of a row beyond the 256th are stated nowhere:
that row is a free value. Assumption 34, DESIGN CHOICE. Elements at its frame's DEPTH and beyond enter as zero (R81).
R96 names FILL and vector instructions: no tag line is checked (assumption 121, DEDUCED). -/
def State.streamRow (s : State) (t : Nat) (w : Bytes) (depth r : Nat) : List Word × State :=
  if fScaleA w != 0xFFFF && 256 ≤ r then
    let (fs, s) := s.freeVals 256
    (fs.map (BitVec.ofNat 32), s)
  else
    let n := if fMode w = 2 then 2 else 1
    let b := s.streamBlock t w
    let int := fillClass (fFmtA w) (fFmtW w) == some 0
    let raw := s.spRead t (fAct w + r % 16 * n) (256 * n)
    let row := (List.range (modeDepth (fMode w))).map fun k =>
      if k < depth then decElem (fFmtA w) (actField (fFmtA w) (fMode w) k raw) else .fin false 0 0
    let scale (line dflt g i : Nat) : Nat :=
      if line = 0xFFFF then dflt else (s.mem.read (spAddr t (256 * (line + g) + i))).toNat
    ((List.range 256).map fun c => (fillElem w b (fun g => scale (fScaleA w) 127 g r)
      (fun g => scale (fScaleW w) (if int then 1 else 127) g c) row c).1, s)

/-- Poison follows the data into a STREAM's result row (R64): its input lines, its weight block or a scale carry it. -/
def State.streamBad (s : State) (t : Nat) (w : Bytes) (r : Nat) : Bool :=
  let n := modeDepth (fMode w) / 32
  (inLines w r).any (s.spBad t) || s.spAnyBad t (fWgt w) (blockLines (fMode w))
    || [fScaleA w, fScaleW w].any fun l => l != 0xFFFF && s.spAnyBad t l n

/-- An input row of a STREAM is there, and its next output lines are FULL. The lines of a test program's rings are FULL and
EMPTY by its FETCH and PUT instructions (R379); firmware's STREAM has neither, and its rows, which the control cores stage,
are there and its output is taken at once (assumption 135, DESIGN CHOICE). -/
def State.streamIn (s : State) (t : Nat) (j : StreamJob) : Bool :=
  j.ctx.isNone || (inLines j.word j.row).all (s.tile t).full.contains
def State.streamFull (s : State) (t : Nat) (j : StreamJob) : Bool :=
  j.ctx.isSome && (outLines j.word j.row).any (s.tile t).full.contains

/-- The result row of a STREAM enters the output ring, but for the columns at its frame's COLS and beyond, which no
instruction writes (R81); its lines carry the poison of what it was made from (R64). -/
def State.streamPut (s : State) (t line cols : Nat) (row : List Word) (bad : Bool) : State :=
  let b := ((row.take cols).map fun x => natLe 4 x.toNat).flatten
  let whole := b.length / 256
  let s := s.spWrite t line (b.take (256 * whole)) (if bad then List.range whole else [])
  if b.length % 256 = 0 then s
  else
    let s := s.spPatch t (256 * (line + whole)) (b.drop (256 * whole))
    if bad then { s with mem := s.mem.mark (spAddr t (256 * (line + whole)) / 256) true } else s

/-- Move rows until one is missing or the next output line is FULL: while it is, the array is frozen (R379). -/
def State.streamRun (s : State) (t : Nat) : Nat → State
  | 0 => s
  | k + 1 =>
    match (s.tile t).stream with
    | none => s
    | some j =>
      if j.left = 0 then
        let s := s.modTile t fun x => { x with stream := none }
        match j.ctx with
        | some c => s.signal t c j.word
        | none => s
      else if s.streamFull t j then
        s.modTile t fun x => { x with stream := some { j with frozen := true } }
      else if !s.streamIn t j then
        s.modTile t fun x => { x with stream := some { j with frozen := false } }
      else
        let bad := s.streamBad t j.word j.row
        let (row, s) := s.streamRow t j.word j.depth j.row
        let s := s.streamPut t ((outLines j.word j.row).headD 0) j.cols row bad
        let used := inLines j.word j.row
        let s := s.modTile t fun x => { x with
          full := if j.ctx.isNone then x.full
            else x.full.filter (fun l => !used.contains l) ++ outLines j.word j.row
          stream := some { j with left := j.left - 1, row := j.row + 1, frozen := false } }
        s.streamRun t k

/-- Lines that became FULL or EMPTY let a STREAM go on. -/
def State.streamOn (s : State) (t : Nat) : State :=
  match (s.tile t).stream with
  | some j => s.streamRun t (j.left + 1)
  | none => s

/-- The frame of a STREAM, as a FILL's; firmware's STREAM has no context, so no frame masks it. -/
def State.streamFrame (s : State) (t : Nat) (c : Option Nat) (w : Bytes) : Frame :=
  match c.bind (s.ctx? t) with
  | some v => v.frame (fDk w)
  | none => { depth := 512 }

/-- A STREAM begins. -/
def State.startStream (s : State) (t : Nat) (c : Option Nat) (w : Bytes) : State :=
  let fr := s.streamFrame t c w
  let j : StreamJob := { ctx := c, word := w, depth := fr.depth, cols := fr.cols, left := stRows w }
  (s.modTile t fun x => { x with stream := some j }).streamOn t

/-- STREAM (R88, R89): refused in SERVING and GATED; in TEST the test program's own instruction;
otherwise firmware's. -/
def execStream (tile : Nat) (word : Bytes) (s : State) : Host.Outcome State Fault Refusal :=
  .next (
    let st := (s.tile tile).st
    if !s.enabled tile then s
    else if st = 1 || st = 2 then (s.count 0x00D tile 1).causeAll cIllegalStream
    else if (s.tile tile).stream.isSome || iOp word != 2 then s
    else if st = 4 then
      if (s.ctx? tile 0).map (s.nextWord tile) = some word then
        s.issue1 tile 0 0x02 fun s w _ => s.startStream tile (some 0) w
      else s
    else s.startStream tile none word)

/-! ### DECKLE, WAIT, END -/

/-- Queries of a context's post; a test program has no post, so the count is a free value. -/
def State.queries (s : State) (c : Ctx) : Nat × State :=
  match c.post with
  | some k => (match s.post? k with
    | some v => v.q
    | none => 0, s)
  | none => s.freeVal

/-- DECKLE (R79, Table 3.9). -/
def execDeckle (tile ctx : Nat) (s : State) : Host.Outcome State Fault Refusal :=
  .next (s.issue1 tile ctx 0x03 fun s w v =>
    let (q, s) := if fld w 13 1 = 1 then s.queries v else (0, s)
    let rows := if fld w 13 1 = 1 then Nat.min 256 (q - 256 * fld w 16 2) else fld w 14 2
    let s := s.modCtx tile ctx fun c => { c with
      frames := FMap.set c.frames (fld w 12 1)
        { rows := rows, cols := fld w 18 2, depth := fld w 20 2 } }
    s.signal tile ctx w)

/-- WAIT (Table 3.4): issues when its flags allow, and does nothing else. -/
def execWait (tile ctx : Nat) (s : State) : Host.Outcome State Fault Refusal :=
  .next (s.issue1 tile ctx 0x05 fun s w _ => s.signal tile ctx w)

/-- END issues (R65): every earlier instruction of the context has completed or been abandoned. -/
def execEndOp (tile ctx : Nat) (s : State) : Host.Outcome State Fault Refusal :=
  .next (s.issue1 tile ctx 0x04 fun s _ _ => s.modCtx tile ctx fun c => { c with ending := true })

/-- Free a context: each bank HELD by it or COMPLETE for it returns to FREE (R65, R74). -/
def Tile.freeCtx (x : Tile) (c : Nat) : Tile :=
  { x with
    ctxs := FMap.del x.ctxs c
    banks := FMap.mapV x.banks fun _ b => if b.st != 0 && b.ctx == c then { b with st := 0 } else b }

/-- The counts a tile sends the admission controller (R112). Assumption 42, DEDUCED. -/
def State.sendCounts (s : State) (t : Nat) (c : Ctx) : State :=
  match c.post with
  | none => s
  | some k =>
    let r : EscRep := { tile := t, post := k, version := c.version, qn := c.qn, qs := c.qs }
    { s with ream := { s.ream with escMsgs := s.ream.escMsgs ++ [r] } }

/-- END_COMPLETE (R65, R112). -/
def execEndComplete (tile ctx : Nat) (s : State) : Host.Outcome State Fault Refusal :=
  .next (match s.ctx? tile ctx with
    | none => s
    | some c =>
      if !c.ending || (s.tile tile).busy ctx then s
      else
        let s := s.modTile tile fun x => x.freeCtx ctx
        match c.post with
        | none => s
        | some k => (if c.failed then s else s.sendCounts tile c).settle k)

end Sys2Proof.Machine
end

