-- ==== Sys2Proof/Machine/Alerts.lean ====
section
/-! DEFINITION. PLDM events (R369), and the state changes that send them. -/

namespace Sys2Proof.Machine

/-- A PlatformEventMessage of a sensor, once a receiver is set. -/
def State.pldm (s : State) (sensor value : Nat) : State :=
  if s.mgmt.receiver.isNone then s
  else { s with mgmt := { s.mgmt with events := s.mgmt.events ++ [(sensor, value)] } }

/-- A state sensor changes. -/
def State.pldmIf (s : State) (sensor old new : Nat) : State := if old = new then s else s.pldm sensor new

/-- A reading crosses one of its thresholds. Assumption 104, DEDUCED. -/
def State.pldmCross (s : State) (sensor old new : Nat) (ths : List Nat) : State :=
  if ths.any fun t => decide (old < t) != decide (new < t) then s.pldm sensor new else s

/-- PSTATE changes. -/
def State.setPst (s : State) (n : Nat) : State :=
  { s with pwr := { s.pwr with st := n } }.pldmIf 20 s.pwr.st n

/-- FLUSH_CAUSE changes. -/
def State.setFlush (s : State) (n : Nat) : State :=
  { s with pwr := { s.pwr with flushCause := n } }.pldmIf 24 s.pwr.flushCause n

/-- The boot sensor: 0 OK, 1 FALLBACK, 2 NO_VALID_BUNDLE (Table 17.9). -/
def State.bootSense (s : State) : Nat := if s.pwr.st = 6 then 2 else if s.sec.fallback then 1 else 0

/-- EMERG_CAUSE. -/
def State.emergCause (s : State) : Nat := s.pwr.emerg.headD 0

end Sys2Proof.Machine
end

