-- ==== Sys2Proof/Machine/Slots.lean ====
section
/-! DEFINITION. The felt's slot tables (R13, R31, R34): who may send in a slot of the table in force. -/

namespace Sys2Proof.Machine

/-! ### Entries of FELT_SLOTS (Table 2.11) -/

def feltPeriod (b : Bytes) : Nat := fld b 0 4

/-- Selector of output o: 0 N, 1 S, 2 E, 3 W, 4 L, 5 EDGE; 0xF none. -/
def feSel (e o : Nat) : Nat := bitsOf e (4 * o + 3) (4 * o)
def feKind (e : Nat) : Nat := bitsOf e 31 24
def feSrc (e : Nat) : Nat := bitsOf e 39 32
def feEdge (e : Nat) : Nat := bitsOf e 47 40

/-- Entry c of tile t's router in a payload. -/
def feltEntry (b : Bytes) (t c : Nat) : Nat := fld b (16 + 8 * (feltPeriod b * t + c)) 8

/-! ### The table in force -/

/-- Senders of the base slot table, in turn: the eight edge ports, as 72 to 79, and the local port of every
enabled tile (R13). -/
def baseOwners (en : Nat) : List Nat := (List.range 8).map (72 + ·) ++ (List.range 72).filter en.testBit

/-- The one sender of slot c of the base table. -/
def baseOwner (en c : Nat) : Nat := (baseOwners en).getD (c % (baseOwners en).length) 72

/-- The felt slot table of the resident ream. -/
def State.feltTable (s : State) : Bytes :=
  match s.ream.recs.find? (·.type == 5) with
  | some r => r.body
  | none => []

/-- Client 1 (class FELT) or 4 (gather unit) of tile t owns a slot of the table in force: of the ream's table in a
REAM cycle, of the base table at any turn of the tile's local port (R13, R34). Assumption 114, DEDUCED. -/
def State.ownsSlot (s : State) (t client : Nat) : Bool :=
  if s.ream.ownTable then
    let b := s.feltTable
    (List.range (feltPeriod b)).any fun c =>
      let e := feltEntry b t c
      feKind e == 0 && feSrc e == client
  else (baseOwners s.fuse.tileMask).contains t

end Sys2Proof.Machine
end

