-- ==== Sys2Proof/Machine/VecOps.lean ====
section
/-! DEFINITION. The vector engine's operand forms (chapter 5): views, lanes, the operations on two
lanes, function tables, reductions, and the conversion of results into view O. -/

namespace Sys2Proof.Machine

/-! ### Operand fields (Table 5.1) -/

def vA (w : Bytes) : Nat := fld w 12 2
def vAStride (w : Bytes) : Nat := fld w 14 1
def vAFmt (w : Bytes) : Nat := fld w 15 1
def vB (w : Bytes) : Nat := fld w 16 2
def vBStride (w : Bytes) : Nat := fld w 18 1
def vBFmt (w : Bytes) : Nat := fld w 19 1
def vO (w : Bytes) : Nat := fld w 20 2
def vOStride (w : Bytes) : Nat := fld w 22 1
def vOFmt (w : Bytes) : Nat := fld w 23 1
def vSub (w : Bytes) : Nat := fld w 24 1
def vCtrl (w : Bytes) : Nat := fld w 25 1
def vSr (w : Bytes) : Bool := (vCtrl w).testBit 0
def vFreeA (w : Bytes) : Bool := (vCtrl w).testBit 1
def vFreeB (w : Bytes) : Bool := (vCtrl w).testBit 2
def vAHalf (w : Bytes) : Nat := b2n ((vCtrl w).testBit 3)
def vOHalf (w : Bytes) : Nat := b2n ((vCtrl w).testBit 4)
def vLayer (w : Bytes) : Nat := fld w 26 1
def vDk (w : Bytes) : Nat := fld w 27 1

/-- Lines of one row of a view (Table 5.2); a 4-bit row fills half a line. -/
def rowLines (fmt : Nat) : Nat := let n := fmtWidth fmt; if n = 32 then 4 else if n = 16 then 2 else 1

/-- Is B a view of an opcode (Table 5.3)? -/
def bIsView (op : Nat) : Bool := (0x10 ≤ op && op ≤ 0x14) || op == 0x16 || op == 0x17

/-! ### Reading (R116, R117, R119) -/

/-- The stored bits of element (r, c) of a view. R116 gives HALF a meaning for 4-bit rows only and reserves it nowhere
else: on a view of another format it is accepted and does nothing (assumption 119, DEDUCED). Assumption 37, DEDUCED. -/
def State.viewBits (s : State) (t base stride fmt half r c : Nat) : Nat :=
  match bankOf base with
  | some b => ((FMap.get ((s.tile t).bank b).rows r []).getD c 0).toNat
  | none =>
    let a := spAddr t (256 * (base + r * stride))
    let w := fmtWidth fmt
    if w = 4 then
      let x := (s.mem.read (a + 128 * half + c / 2)).toNat
      if c % 2 = 0 then x % 16 else x / 16
    else leNat (s.mem.readN (a + c * (w / 8)) (w / 8))

/-- Stored bits as an INT32 lane. -/
def laneInt (fmt n : Nat) : Word :=
  if fmt = 0x00 then wordOfInt (sgn 8 n) else if fmt = 0x01 then wordOfInt (sgn 4 n)
  else BitVec.ofNat 32 n

/-- Stored bits as an FP32 lane: FP32 and BF16 bits move as they are. -/
def laneFp (fmt n : Nat) : Word :=
  if fmt = 0x0B then BitVec.ofNat 32 n
  else if fmt = 0x0A then BitVec.ofNat 32 (n * 65536)
  else if fmt = 0x0C then ofInt32 (sgn 32 n)
  else enc32 (decElem fmt n)

/-- INT32 or FP32 computation (R119). -/
def vecInt (w : Bytes) : Bool :=
  let op := iOp w
  let b := !bIsView op || isIntFmt (vBFmt w)
  isIntFmt (vAFmt w) && b && ((0x10 ≤ op && op ≤ 0x14) || op == 0x16 || op == 0x17 || op == 0x18
    || op == 0x1C || ((op == 0x1E || op == 0x1F) && (vSub w ≤ 2 || vSub w == 4)))

def lane (int : Bool) (fmt n : Nat) : Word := if int then laneInt fmt n else laneFp fmt n

/-- The state whose scratchpad stands as it did at an instruction's up-front reads (R125). -/
def State.upFront (s : State) (u : Memory) : State := { s with mem := u }

/-- Element (r, c) of view A; an MX element under its block's scale (R94): the byte of frame row r, also where A_STRIDE 0
broadcasts row 0 (assumption 119, DEDUCED). A broadcast row and the scales are read up front, from `u` (R125). -/
def State.laneA (s : State) (u : Memory) (t : Nat) (w : Bytes) (int : Bool) (r c : Nat) : Word :=
  let n := (if vAStride w = 0 then s.upFront u else s).viewBits t (vA w) (vAStride w) (vAFmt w) (vAHalf w) r c
  if isMx (vAFmt w) then
    let g := c / 32 + (if vAFmt w = 0x08 then 8 * vAHalf w else 0)
    enc32 (scaled (decElem (vAFmt w) n) (u.read (spAddr t (256 * (vB w + g) + r))).toNat)
  else lane int (vAFmt w) n

/-- Element (r, c) of view B; a 4-bit view B uses the lower half of its lines; a broadcast row is read up front. -/
def State.laneB (s : State) (u : Memory) (t : Nat) (w : Bytes) (int : Bool) (r c : Nat) : Word :=
  lane int (vBFmt w) ((if vBStride w = 0 then s.upFront u else s).viewBits t (vB w) (vBStride w) (vBFmt w) 0 r c)

/-! ### Operations on lanes (Tables 5.3 and 5.5) -/

def isNeg (a : Word) : Bool := a.getLsbD 31

/-- MAX and MIN of FP32: a NaN operand gives the NaN; -0 is below +0. -/
def fmax2 (a b : Word) : Word :=
  if isNan a || isNan b then qnan
  else if flt a b then b else if flt b a then a else if isNeg a then b else a
def fmin2 (a b : Word) : Word :=
  if isNan a || isNan b then qnan
  else if flt a b then a else if flt b a then b else if isNeg a then a else b

def imax (a b : Word) : Word := if intOfWord a < intOfWord b then b else a
def imin (a b : Word) : Word := if intOfWord b < intOfWord a then b else a
def isat (x : Int) : Word := wordOfInt (sat32 x).1

/-- The condition of CMP and SELECT: 0 EQ, 1 NE, 2 LT, 3 LE, 4 GT, 5 GE. -/
def vcond (int : Bool) (sub : Nat) (a b : Word) : Bool :=
  let eq := if int then a == b else feq a b
  let lt := if int then decide (intOfWord a < intOfWord b) else flt a b
  let gt := if int then decide (intOfWord b < intOfWord a) else flt b a
  if sub = 0 then eq else if sub = 1 then !eq else if sub = 2 then lt else if sub = 3 then lt || eq
  else if sub = 4 then gt else gt || eq

/-- UNARY: 0 COPY, 1 NEG, 2 ABS, 3 RELU. -/
def vunary (int : Bool) (sub : Nat) (a : Word) : Word :=
  if sub = 0 then a
  else if int then
    let i := intOfWord a
    isat (if sub = 1 then -i else if sub = 2 then i.natAbs else if i < 0 then 0 else i)
  else if isNan a then qnan
  else if sub = 1 then fneg a
  else if sub = 2 then fabs a
  else fmax2 a 0

/-- The two-operand operations of opcodes 0x10 to 0x17. -/
def vbin (int : Bool) (op sub : Nat) (a b : Word) : Word :=
  let x := intOfWord a
  let y := intOfWord b
  if op = 0x10 then (if int then isat (x + y) else fadd a b)
  else if op = 0x11 then (if int then isat (x - y) else fsub a b)
  else if op = 0x12 then (if int then isat (x * y) else fmul a b)
  else if op = 0x13 then (if int then imax a b else fmax2 a b)
  else if op = 0x14 then (if int then imin a b else fmin2 a b)
  else if op = 0x16 then (if vcond int sub a b then (if int then 1 else one32) else 0)
  else if vcond int sub a b then a else b

/-! ### Function tables (R121) -/

/-- FP32 field of a function table. -/
def State.tabF (s : State) (t : Nat) (w : Bytes) (off : Nat) : Word :=
  BitVec.ofNat 32 (leNat (s.mem.readN (spAddr t (256 * vB w + off)) 4))

/-- `line` of R121. -/
def tabLine (p q x : Word) : Word := if feq q 0 then p else ffma q x p

/-- Integer part of a value from 0 up to 64. -/
def fpFloor (u : Word) : Nat :=
  match dec32 u with
  | .fin _ m e => if 0 ≤ e then shl m e else m / 2 ^ (-e).toNat
  | _ => 0

/-- `g` of R121. -/
def State.tabG (s : State) (t : Nat) (w : Bytes) (x : Word) : Word :=
  let u := fmul (fsub x (s.tabF t w 0)) (s.tabF t w 4)
  if isNan u then s.tabF t w 24
  else if flt u 0 then tabLine (s.tabF t w 8) (s.tabF t w 12) x
  else if !flt u (ofInt32 64) then tabLine (s.tabF t w 16) (s.tabF t w 20) x
  else
    let i := fpFloor u
    let d := fsub u (ofInt32 i)
    let c (k : Nat) : Word := s.tabF t w (256 + 16 * i + 4 * k)
    ffma (ffma (ffma (c 3) d (c 2)) d (c 1)) d (c 0)

/-- `f` of R121. -/
def State.tabFun (s : State) (t : Nat) (w : Bytes) (x : Word) : Word :=
  let sym := (s.mem.read (spAddr t (256 * vB w + 28))).toNat
  if isNan x then s.tabF t w 24
  else if sym = 1 && isNeg x then vunary false 1 (s.tabG t w (fneg x))
  else if sym = 2 then s.tabG t w (fabs x)
  else s.tabG t w x

/-! ### Reductions (R122) -/

/-- ARGMAX order: NaN above every number. -/
def argLt (int : Bool) (a b : Word) : Bool :=
  if int then decide (intOfWord a < intOfWord b)
  else if isNan b then !isNan a else !isNan a && flt a b

/-- Combine two partial results: a value and the index of the element it came from. -/
def redComb (int : Bool) (sub : Nat) (a b : Word × Nat) : Word × Nat :=
  if sub = 4 then (if argLt int a.1 b.1 then b else a)
  else
    (if sub = 1 then (if int then imax a.1 b.1 else fmax2 a.1 b.1)
     else if sub = 2 then (if int then imin a.1 b.1 else fmin2 a.1 b.1)
     else if int then isat (intOfWord a.1 + intOfWord b.1) else fadd a.1 b.1, 0)

/-- The identity of a masked column. -/
def redIdent (int : Bool) (sub : Nat) : Word :=
  if sub = 1 || sub = 4 then (if int then wordOfInt i32lo else inf32 true)
  else if sub = 2 then (if int then wordOfInt i32hi else inf32 false)
  else 0

/-- One level of the pairwise tree. -/
def redLevel (int : Bool) (sub : Nat) : List (Word × Nat) → List (Word × Nat)
  | a :: b :: r => redComb int sub a b :: redLevel int sub r
  | r => r

/-- `reduce_row` of R122 over 256 elements. -/
def redTree (int : Bool) (sub : Nat) (v : List (Word × Nat)) : Word × Nat :=
  ((List.range 8).foldl (fun l _ => redLevel int sub l) v).headD (0, 0)

/-- An element as a reduction takes it: SUMSQ squares first. -/
def redElem (sub : Nat) (x : Word) : Word := if sub = 3 then fmul x x else x

/-- The result lane: ARGMAX gives the index. Assumption 38, DEDUCED. -/
def redOut (sub : Nat) (r : Word × Nat) : Word := if sub = 4 then BitVec.ofNat 32 r.2 else r.1

/-! ### Into view O (R103, R109, R119, Table 4.5) -/

/-- Clamp bounds of an integer target. -/
def intLim (fmt : Nat) : Int := if fmt = 0x00 then 127 else 7

/-- One result lane into format `fmt`: its code, whether it converts, whether it takes a draw. -/
def vConverts (int : Bool) (fmt : Nat) : Bool := if int then fmt != 0x0C else fmt != 0x0B
def vDraws (w : Bytes) (resInt int : Bool) (fmt : Nat) : Bool :=
  vSr w && (if resInt then fmt != 0x0C && fmt != 0x0B && !isIntFmt fmt
            else !int && fmt != 0x0B)

/-- A NaN result is written as the one NaN (R97). -/
def canonNan (x : Word) : Word := if isNan x then qnan else x

/-- The code of a result lane, and whether the conversion is a saturation event. -/
def vCode (resInt sr : Bool) (fmt : Nat) (x : Word) (dr : Nat) : Nat × Bool :=
  if resInt then
    if fmt = 0x0C then (x.toNat, false)
    else if fmt = 0x00 || fmt = 0x01 then
      let i := intOfWord x
      let l := intLim fmt
      (unsgn (fmtWidth fmt) (clampI (-l) l i), i < -l || i > l)
    else if fmt = 0x0B then ((ofInt32 (intOfWord x)).toNat, false)
    else convElem fmt sr (dec32 (ofInt32 (intOfWord x))) dr
  else if fmt = 0x0B then ((canonNan x).toNat, false)
  else convElem fmt sr (dec32 x) dr

/-- Instructions whose rows have been read. -/
def Tile.vecRead (x : Tile) : Nat := (x.vec.filter (·.read)).length

/-- A write of the instruction that is being read joins those on their way to the scratchpad (R125). -/
def State.vecPut (s : State) (t : Nat) (o : VecOut) : State :=
  s.modTile t fun x => { x with vec := x.vec.zipIdx.map fun (j, i) =>
    if i + 1 = x.vecRead then { j with out := j.out ++ [o] } else j }

/-- A write reaches the scratchpad. -/
def State.vecLand (s : State) (t : Nat) (o : VecOut) : State :=
  if o.whole then s.spWrite t (o.addr / 256) o.data []
  else
    let n := o.data.length - 1
    s.spPatch t o.addr (if o.odd then o.data.take n ++ [BitVec.ofNat 8 ((o.data.getD n 0).toNat % 16
      + (s.mem.read (spAddr t (o.addr + n))).toNat / 16 * 16)] else o.data)

/-- Write element codes from column 0 on into row r of view O, as row `at_` of the frame; a 4-bit element at the mask's
edge leaves its neighbour as it was (R82, R123). -/
def State.putRow (s : State) (t : Nat) (w : Bytes) (at_ r : Nat) (cs : List Nat) : State :=
  let width := fmtWidth (vOFmt w)
  let odd := width = 4 && cs.length % 2 = 1
  s.vecPut t { row := at_, addr := 256 * (vO w + r * vOStride w) + (if width = 4 then 128 * vOHalf w else 0)
               data := packElems width (if odd then cs ++ [0] else cs), odd := odd }

/-- Position of a tile's stream (R102). -/
def rngKey (t stream : Nat) : Nat := 2 * t + stream
/-- The next `n` draws of a tile's stream, and the counter advanced. -/
def State.drawsOf (s : State) (t stream n : Nat) : List Nat × State :=
  let p := (s.counter 0x011 (rngKey t stream)).toNat
  let k := (s.tile t).streamKey
  ((List.range n).map fun i => draw k stream ((p + i) % 2 ^ 60),
    s.setCtr 0x011 (rngKey t stream) (BitVec.ofNat 64 ((p + n) % 2 ^ 60)))

/-- A 32-bit counter that stops at its maximum (R109). -/
def addStop (a n : Nat) : Nat := Nat.min (a + n) (2 ^ 32 - 1)

/-- Count conversions and saturations for an instruction's LAYER (R109). -/
def State.countLayer (s : State) (t c : Nat) (w : Bytes) (n sat : Nat) : State :=
  let l := vLayer w
  if l < 32 then
    s.modCtx t c fun v => { v with
      qn := if n = 0 then v.qn else FMap.set v.qn l (addStop (FMap.get v.qn l 0) n)
      qs := if sat = 0 then v.qs else FMap.set v.qs l (addStop (FMap.get v.qs l 0) sat) }
  else s

/-- Write result lanes into row r of O, as row `at_` of the frame, converting, drawing and counting. -/
def State.emitRow (s : State) (t c : Nat) (w : Bytes) (resInt int : Bool) (at_ r : Nat)
    (xs : List Word) : State :=
  let fmt := vOFmt w
  let (ds, s) := if vDraws w resInt int fmt then s.drawsOf t 0 xs.length else ([], s)
  let es := xs.zipIdx.map fun (x, i) => vCode resInt (vSr w) fmt x (ds.getD i 0)
  let s := s.putRow t w at_ r (es.map (·.1))
  s.countLayer t c w (if vConverts int fmt then xs.length else 0) (es.filter (·.2)).length

/-! ### Lines read (R310) -/

/-- Lines of a view's rows. -/
def viewLines (base stride fmt rows : Nat) : List Nat :=
  if (bankOf base).isSome then []
  else ((List.range rows).map fun r =>
    (List.range (rowLines fmt)).map fun i => base + r * stride + i).flatten

/-- Scratchpad lines a vector instruction reads. -/
def vecLines (w : Bytes) (rows : Nat) : List Nat :=
  let op := iOp w
  let run (a k : Nat) : List Nat := (List.range k).map (· + a)
  let a := viewLines (vA w) (vAStride w) (vAFmt w) rows
  let b := if bIsView op then viewLines (vB w) (vBStride w) (vBFmt w) rows
    else if op = 0x15 then viewLines (vB w) (vBStride w) (vBFmt w) 2
    else if op = 0x19 then run (vB w) 5
    else if op = 0x1C then run (vB w) 6
    else if op = 0x1B && !isMx (vOFmt w) then viewLines (vB w) 0 0x0B 1
    else if op = 0x1A && isMx (vAFmt w) then
      [vA w - 1, vB w - 1] ++ run (vB w + (if vAFmt w = 0x08 then 8 * vAHalf w else 0)) 8
    else []
  a ++ b

/-! ### Issue and completion (R123 to R125) -/

/-- Banks named in FREE_A and FREE_B return to FREE. -/
def State.freeBanks (s : State) (t : Nat) (w : Bytes) : State :=
  let bs := (if vFreeA w then (bankOf (vA w)).toList else [])
    ++ (if vFreeB w then (bankOf (vB w)).toList else [])
  s.each bs fun s b => s.modBank t b fun x => { x with st := 0 }

/-- A scaled operand of CONVERT has matching tag lines (R96). -/
def State.vecTags (s : State) (t : Nat) (w : Bytes) : Bool :=
  if iOp w = 0x1A && isMx (vAFmt w) then
    tagsOk (s.spRead t (vA w - 1) 256) (s.spRead t (vB w - 1) 256) (vAFmt w)
  else true

/-- CPR and P of an instruction's timing class (Table 5.4). -/
def vecCpr (w : Bytes) : Nat :=
  let op := iOp w
  if op = 0x19 then 4 else if op = 0x1D then vSub w else if op = 0x1B && isMx (vOFmt w) then 2 else 1
def vecLag (w : Bytes) : Nat :=
  let op := iOp w
  if op = 0x19 then 14 else if op = 0x1D then 10 else if op = 0x1B && isMx (vOFmt w) || op = 0x1E then 12 else 8

/-- The writes of a job that reach the scratchpad before the cycle in which it reads row k (R125), and the others. -/
def VecJob.due (j : VecJob) (k : Nat) : List VecOut × List VecOut :=
  j.out.partition fun o => decide (o.row * vecCpr j.word + vecLag j.word < k * vecCpr j.word)

/-- The first `n` writes of a list of jobs, and the jobs without them. -/
def takeOuts : Nat → List VecJob → List VecOut × List VecJob
  | _, [] => ([], [])
  | n, j :: js =>
    let (os, js') := takeOuts (n - j.out.length) js
    (j.out.take n ++ os, { j with out := j.out.drop n } :: js')

/-- The instruction being read comes to row k of its frame: its own writes that are due land. -/
def State.vecOwn (s : State) (t k : Nat) : State :=
  let x := s.tile t
  match x.vec[x.vecRead - 1]? with
  | none => s
  | some j =>
    let (now, later) := j.due k
    (s.each now fun s o => s.vecLand t o).modTile t fun x => { x with vec := x.vec.zipIdx.map fun (j, i) =>
      if i + 1 = x.vecRead then { j with out := later } else j }

/-- Writes of the instructions before it that are still under way land in order: how many by now is a free value, for it
turns on the rota (R63, R124). -/
def State.vecAhead (s : State) (t : Nat) : State :=
  let x := s.tile t
  let n := ((x.vec.take (x.vecRead - 1)).map fun j => j.out.length).foldl (· + ·) 0
  if n = 0 then s
  else
    let (m, s) := s.freeVal
    let (os, js) := takeOuts (m % (n + 1)) (x.vec.take (x.vecRead - 1))
    (s.each os fun s o => s.vecLand t o).modTile t fun x => { x with vec := js ++ x.vec.drop (x.vecRead - 1) }

/-- What a row of REDUCE_COL keeps of its lanes until the last row is read. -/
def State.vecSeen (s : State) (u : Memory) (t : Nat) (w : Bytes) (cols r : Nat) : List Word :=
  if iOp w = 0x1F then (List.range cols).map fun c => s.laneA u t w (vecInt w) r c else []

/-- An instruction's rows are read: `row s u w cols r` computes row r of its frame, `u` being the scratchpad at its
up-front reads, and `fin` what it writes after its last row, from the rows seen. -/
def State.vecRows (s : State) (t : Nat) (j : VecJob) (row : State → Memory → Bytes → Nat → Nat → State)
    (fin : State → Bytes → Frame → List (List Word) → State) : State :=
  let s := (s.modTile t fun x => { x with vec := x.vec.take x.vecRead ++ (({ j with read := true } : VecJob) ::
    x.vec.drop (x.vecRead + 1)) }).vecAhead t
  let u := s.mem
  let p := (List.range j.frame.rows).foldl (fun p r =>
    let s := (State.vecAhead p.1 t).vecOwn t r
    (row s u j.word j.frame.cols r, p.2 ++ [s.vecSeen u t j.word j.frame.cols r])) (s, ([] : List (List Word)))
  (fin p.1 j.word j.frame p.2).vecOwn t j.frame.rows

/-- The first instruction whose rows have not been read may be read now: at once where no other is under way; else, for its
cycle turns on the rota, that is a free value (R124, R125). -/
def State.vecStarts (s : State) (t : Nat) : Bool × State :=
  if (s.tile t).vecRead = 0 then (true, s)
  else let (n, s) := s.freeVal; (n % 2 == 0, s)

/-- An instruction comes to be read. One that reads poison or whose tags differ ends there with its post failed. -/
def State.vecGo (s : State) (t : Nat) (j : VecJob) (row : State → Memory → Bytes → Nat → Nat → State)
    (fin : State → Bytes → Frame → List (List Word) → State) : State :=
  let lines := vecLines j.word j.frame.rows
  let gone (s : State) : State := s.modTile t fun x => { x with vec := x.vec.take x.vecRead ++ x.vec.drop (x.vecRead + 1) }
  if lines.any (s.spBad t) then (gone s).consume t j.ctx lines
  else if !s.vecTags t j.word then (gone s).skew t j.ctx
  else s.vecRows t j row fin

/-- Issue a vector instruction: it joins the queue, and is read at once where nothing before it is still to be read (R124). -/
def State.issueVec (s : State) (t c op : Nat) (row : State → Memory → Bytes → Nat → Nat → State)
    (fin : State → Bytes → Frame → List (List Word) → State) : State :=
  s.issue1 t c op fun s w v =>
    let fr := v.frame (vDk w)
    let j : VecJob := { ctx := c, word := w, frame := fr }
    if fr.rows = 0 then (s.signal t c w).freeBanks t w
    else
      let first := (s.tile t).vec.all (·.read)
      let s := s.modTile t fun x => { x with vec := x.vec ++ [j] }
      if !first then s
      else
        let (go, s) := s.vecStarts t
        if go then s.vecGo t j row fin else s

/-- Nothing after the last row. -/
def vecNone (s : State) (_ : Bytes) (_ : Frame) (_ : List (List Word)) : State := s

/-- A row computed element by element. Assumption 35, DEDUCED. -/
def State.rowBy (s : State) (t c : Nat) (w : Bytes) (cols r : Nat) (f : Bool → Nat → Word) : State :=
  let int := vecInt w
  s.emitRow t c w int int r r ((List.range cols).map (f int))

/-- A row of one of the two-operand opcodes. -/
def State.rowBin (s : State) (u : Memory) (t c : Nat) (w : Bytes) (cols r : Nat) : State :=
  s.rowBy t c w cols r fun int i =>
    vbin int (iOp w) (vSub w) (s.laneA u t w int r i) (s.laneB u t w int r i)

end Sys2Proof.Machine
end

