-- ==== Sys2Proof/Machine/Vector.lean ====
section
/-! DEFINITION. The vector engine's instructions (chapter 5, Table 5.3). -/

namespace Sys2Proof.Machine

/-- ADD (0x10). -/
def execAdd (tile ctx : Nat) (s : State) : Host.Outcome State Fault Refusal :=
  .next (s.issueVec tile ctx 0x10 (fun s u w n r => s.rowBin u tile ctx w n r) vecNone)

/-- SUB (0x11). -/
def execSub (tile ctx : Nat) (s : State) : Host.Outcome State Fault Refusal :=
  .next (s.issueVec tile ctx 0x11 (fun s u w n r => s.rowBin u tile ctx w n r) vecNone)

/-- MUL (0x12). -/
def execMul (tile ctx : Nat) (s : State) : Host.Outcome State Fault Refusal :=
  .next (s.issueVec tile ctx 0x12 (fun s u w n r => s.rowBin u tile ctx w n r) vecNone)

/-- MAX (0x13). -/
def execMax (tile ctx : Nat) (s : State) : Host.Outcome State Fault Refusal :=
  .next (s.issueVec tile ctx 0x13 (fun s u w n r => s.rowBin u tile ctx w n r) vecNone)

/-- MIN (0x14). -/
def execMin (tile ctx : Nat) (s : State) : Host.Outcome State Fault Refusal :=
  .next (s.issueVec tile ctx 0x14 (fun s u w n r => s.rowBin u tile ctx w n r) vecNone)

/-- A row of AFFINE: one fused multiply-add by rows 0 and 1 of B. -/
def State.affineRow (s : State) (u : Memory) (t c : Nat) (w : Bytes) (cols r : Nat) : State :=
  s.rowBy t c w cols r fun _ i => ffma (s.laneA u t w false r i) (s.laneB u t w false 0 i) (s.laneB u t w false 1 i)

/-- AFFINE (0x15). -/
def execAffine (tile ctx : Nat) (s : State) : Host.Outcome State Fault Refusal :=
  .next (s.issueVec tile ctx 0x15 (fun s u w n r => s.affineRow u tile ctx w n r) vecNone)

/-- CMP (0x16). -/
def execCmp (tile ctx : Nat) (s : State) : Host.Outcome State Fault Refusal :=
  .next (s.issueVec tile ctx 0x16 (fun s u w n r => s.rowBin u tile ctx w n r) vecNone)

/-- SELECT (0x17). -/
def execSelect (tile ctx : Nat) (s : State) : Host.Outcome State Fault Refusal :=
  .next (s.issueVec tile ctx 0x17 (fun s u w n r => s.rowBin u tile ctx w n r) vecNone)

/-- COPY between equal formats moves the bits unchanged and converts nothing (R119, R109). -/
def State.copyRow (s : State) (t : Nat) (w : Bytes) (cols r : Nat) : State :=
  s.putRow t w r r ((List.range cols).map fun c =>
    s.viewBits t (vA w) (vAStride w) (vAFmt w) (vAHalf w) r c)

/-- A row of UNARY. -/
def State.unaryRow (s : State) (u : Memory) (t c : Nat) (w : Bytes) (cols r : Nat) : State :=
  if vSub w = 0 && vAFmt w = vOFmt w then s.copyRow t w cols r
  else s.rowBy t c w cols r fun int i => vunary int (vSub w) (s.laneA u t w int r i)

/-- UNARY (0x18). -/
def execUnary (tile ctx : Nat) (s : State) : Host.Outcome State Fault Refusal :=
  .next (s.issueVec tile ctx 0x18 (fun s u w n r => s.unaryRow u tile ctx w n r) vecNone)

/-- A row of FUNC. -/
def State.funcRow (s : State) (u : Memory) (t c : Nat) (w : Bytes) (cols r : Nat) : State :=
  s.rowBy t c w cols r fun _ i => (s.upFront u).tabFun t w (s.laneA u t w false r i)

/-- FUNC (0x19, R121). -/
def execFunc (tile ctx : Nat) (s : State) : Host.Outcome State Fault Refusal :=
  .next (s.issueVec tile ctx 0x19 (fun s u w n r => s.funcRow u tile ctx w n r) vecNone)

/-- A row of CONVERT. -/
def State.convertRow (s : State) (u : Memory) (t c : Nat) (w : Bytes) (cols r : Nat) : State :=
  s.rowBy t c w cols r fun _ i => s.laneA u t w false r i

/-- CONVERT (0x1A). -/
def execConvert (tile ctx : Nat) (s : State) : Host.Outcome State Fault Refusal :=
  .next (s.issueVec tile ctx 0x1A (fun s u w n r => s.convertRow u tile ctx w n r) vecNone)

/-- One row quantised into an MX format (R98, R119): blocks of 32 columns, columns outside the frame
zero, a scale byte for every block with a column inside. -/
def State.mxRow (s : State) (u : Memory) (t c : Nat) (w : Bytes) (cols r : Nat) : State :=
  let fmt := vOFmt w
  let (ds, s) := if vSr w then s.drawsOf t 0 cols else ([], s)
  let xs := (List.range 256).map fun i => if i < cols then dec32 (s.laneA u t w false r i) else .fin false 0 0
  let bs := (List.range 8).map fun g =>
    mxBlock fmt (vSr w) ((xs.drop (32 * g)).take 32) ((List.range 32).map fun i => ds.getD (32 * g + i) 0)
  let es := ((bs.map (·.2)).flatten).take cols
  let s := s.putRow t w r r (es.map (·.1))
  let first := vB w + (if fmt = 0x08 && vOHalf w = 1 then 8 else 0)
  let s := s.each (bs.zipIdx.filter fun b => decide (32 * b.2 < cols)) fun s b =>
    s.vecPut t { row := r, addr := 256 * (first + b.2) + r, data := [BitVec.ofNat 8 b.1.1] }
  s.countLayer t c w cols (es.filter (·.2)).length

/-- The factor of column c for a QUANT to INT8 or INT4: row 0 of B is FP32 whatever B_FMT says (Table
5.3). Assumption 39, DEDUCED. -/
def State.quantFactor (s : State) (t : Nat) (w : Bytes) (c : Nat) : Word :=
  BitVec.ofNat 32 (s.viewBits t (vB w) 0 0x0B 0 0 c)

/-- A row of QUANT to an integer format: times the column's factor, then converted (Table 4.5). -/
def State.quantRow (s : State) (u : Memory) (t c : Nat) (w : Bytes) (cols r : Nat) : State :=
  s.emitRow t c w false false r r ((List.range cols).map fun i =>
    fmul (s.laneA u t w false r i) ((s.upFront u).quantFactor t w i))

/-- A tag line (Table 4.4). -/
def tagLine (tag kind fmt : Nat) : Bytes :=
  withCrc (natLe 1 tag ++ natLe 1 kind ++ natLe 1 fmt ++ zeros 249)

/-- QUANT to an MX format writes both tag lines whole (R119), after its last row: where a tag line is also a line of O, of
the scales or the other tag line, for R118 refuses no two writes of one line, the rows and scales are written first, then the
tag line before O, then the one before B (assumption 133, DESIGN CHOICE). -/
def State.mxTags (s : State) (t : Nat) (w : Bytes) (fr : Frame) : State :=
  if isMx (vOFmt w) then
    (s.vecPut t { row := fr.rows - 1, addr := 256 * (vO w - 1), data := tagLine (vSub w) 1 (vOFmt w), whole := true }).vecPut t
      { row := fr.rows - 1, addr := 256 * (vB w - 1), data := tagLine (vSub w) 2 (vOFmt w), whole := true }
  else s

/-- A row of QUANT. -/
def State.anyQuantRow (s : State) (u : Memory) (t c : Nat) (w : Bytes) (cols r : Nat) : State :=
  if isMx (vOFmt w) then s.mxRow u t c w cols r else s.quantRow u t c w cols r

/-- QUANT (0x1B). -/
def execQuant (tile ctx : Nat) (s : State) : Host.Outcome State Fault Refusal :=
  .next (s.issueVec tile ctx 0x1B (fun s u w n r => s.anyQuantRow u tile ctx w n r) (fun s w fr _ => s.mxTags tile w fr))

/-- Bounds of R101. -/
def rescaleLim (fmt : Nat) : Int × Int := if fmt = 0x0C then (i32lo, i32hi) else (-intLim fmt, intLim fmt)

/-- RESCALE of element (r, c) with the parameters of its column (R101, Table 5.3). -/
def State.rescaleElem (s : State) (u : Memory) (t : Nat) (w : Bytes) (r c : Nat) : Int × Bool :=
  let p (off n : Nat) : Nat := leNat (u.readN (spAddr t (256 * vB w + off)) n)
  let sh := p (1024 + c) 1
  let (lo, hi) := rescaleLim (vOFmt w)
  rescaleInt (intOfWord (s.laneA u t w true r c)) (sgn 32 (p (4 * c) 4)) (Nat.min sh 63)
    (sgn 8 (p (1280 + c) 1)) lo hi

/-- A row of RESCALE: no draw; its saturations count. -/
def State.rescaleRow (s : State) (u : Memory) (t c : Nat) (w : Bytes) (cols r : Nat) : State :=
  let es := (List.range cols).map (s.rescaleElem u t w r)
  (s.putRow t w r r (es.map fun e => unsgn (fmtWidth (vOFmt w)) e.1)).countLayer t c w
    (if vOFmt w = 0x0C then 0 else cols) (es.filter (·.2)).length

/-- RESCALE (0x1C). -/
def execRescale (tile ctx : Nat) (s : State) : Host.Outcome State Fault Refusal :=
  .next (s.issueVec tile ctx 0x1C (fun s u w n r => s.rescaleRow u tile ctx w n r) vecNone)

/-- A row of ROTATE: input columns at or beyond COLS are zero (R123). -/
def State.rotateRowOf (s : State) (u : Memory) (t c : Nat) (w : Bytes) (cols r : Nat) : State :=
  let v := (List.range 256).map fun i => if i < cols then s.laneA u t w false r i else 0
  s.emitRow t c w false false r r ((rotateRow (vSub w) v).take cols)

/-- ROTATE (0x1D, R99). -/
def execRotate (tile ctx : Nat) (s : State) : Host.Outcome State Fault Refusal :=
  .next (s.issueVec tile ctx 0x1D (fun s u w n r => s.rotateRowOf u tile ctx w n r) vecNone)

/-- The result of a reduction is an INT32: an integer computation, or ARGMAX's index. -/
def redInt (w : Bytes) : Bool := vecInt w || vSub w == 4

/-- A row of REDUCE_ROW; with COLS 0 it writes nothing. -/
def State.reduceRowOf (s : State) (u : Memory) (t c : Nat) (w : Bytes) (cols r : Nat) : State :=
  if cols = 0 then s
  else
    let int := vecInt w
    let v := (List.range 256).map fun i =>
      (if i < cols then redElem (vSub w) (s.laneA u t w int r i) else redIdent int (vSub w), i)
    s.emitRow t c w (redInt w) int r r [redOut (vSub w) (redTree int (vSub w) v)]

/-- REDUCE_ROW (0x1E, R122). -/
def execReduceRow (tile ctx : Nat) (s : State) : Host.Outcome State Fault Refusal :=
  .next (s.issueVec tile ctx 0x1E (fun s u w n r => s.reduceRowOf u tile ctx w n r) vecNone)

/-- `reduce_col` of R122 on one column. -/
def redCol (w : Bytes) (seen : List (List Word)) (rows c : Nat) : Word :=
  let int := vecInt w
  let e (r : Nat) : Word × Nat := (redElem (vSub w) ((seen.getD r []).getD c 0), r)
  redOut (vSub w) ((List.range (rows - 1)).foldl (fun a r => redComb int (vSub w) a (e (r + 1))) (e 0))

/-- What REDUCE_COL writes after the last row is read: row 0 of O. -/
def State.reduceColOf (s : State) (t c : Nat) (w : Bytes) (fr : Frame) (seen : List (List Word)) : State :=
  s.emitRow t c w (redInt w) (vecInt w) (fr.rows - 1) 0 ((List.range fr.cols).map (redCol w seen fr.rows))

/-- REDUCE_COL (0x1F, R122). -/
def execReduceCol (tile ctx : Nat) (s : State) : Host.Outcome State Fault Refusal :=
  .next (s.issueVec tile ctx 0x1F (fun s _ _ _ _ => s) fun s w fr seen => s.reduceColOf tile ctx w fr seen)

/-! ### The queue (R124, R125) -/

/-- One row of an instruction by its opcode. -/
def State.vecRow (s : State) (u : Memory) (t c : Nat) (w : Bytes) (cols r : Nat) : State :=
  let op := iOp w
  if op = 0x15 then s.affineRow u t c w cols r
  else if op = 0x18 then s.unaryRow u t c w cols r
  else if op = 0x19 then s.funcRow u t c w cols r
  else if op = 0x1A then s.convertRow u t c w cols r
  else if op = 0x1B then s.anyQuantRow u t c w cols r
  else if op = 0x1C then s.rescaleRow u t c w cols r
  else if op = 0x1D then s.rotateRowOf u t c w cols r
  else if op = 0x1E then s.reduceRowOf u t c w cols r
  else if op = 0x1F then s
  else s.rowBin u t c w cols r

/-- What an instruction writes after its last row. -/
def State.vecFin (s : State) (t c : Nat) (w : Bytes) (fr : Frame) (seen : List (List Word)) : State :=
  if iOp w = 0x1B then s.mxTags t w fr else if iOp w = 0x1F then s.reduceColOf t c w fr seen else s

/-- Instructions in the queue come to be read, in order (R124). -/
def State.vecFront (s : State) (t : Nat) : Nat → State
  | 0 => s
  | k + 1 => match (s.tile t).vec.find? fun j => !j.read with
    | none => s
    | some j =>
      let (go, s) := s.vecStarts t
      if !go then s
      else (s.vecGo t j (fun s u w n r => s.vecRow u t j.ctx w n r)
        fun s w fr seen => s.vecFin t j.ctx w fr seen).vecFront t k

/-- VECTOR_INSTRUCTION_DONE (R124, R125): the last rows of the instruction in front are written, it releases its inputs and
banks and sets its output flags, and others come to be read. -/
def execVectorInstructionDone (tile : Nat) (s : State) : Host.Outcome State Fault Refusal :=
  .next (match (s.tile tile).vec with
    | [] => s
    | j :: js =>
      let s := (s.each j.out fun s o => s.vecLand tile o).modTile tile fun x => { x with vec := js }
      ((s.freeBanks tile j.word).signal tile j.ctx j.word).vecFront tile js.length)

end Sys2Proof.Machine
end

