-- ==== Sys2Proof/Machine/XferOps.lean ====
section
/-! DEFINITION. The prefetch engine's shared operations (chapter 3, R82 to R87; R195, R310, R311):
where a transfer leads, its checks, its masked runs, and messages between tiles. -/

namespace Sys2Proof.Machine

/-! ### Messages between tiles -/

/-- Send a message on the felt. Its number is drawn from the same count as accesses to hosts. -/
def State.sendFelt (s : State) (src dst : Nat) (m : Msg) : State :=
  { s with
    felt := s.felt ++ [{ id := s.io.next, src := src, dst := dst, msg := m }]
    io := { s.io with next := s.io.next + 1 } }

/-- The client of a tile's local port that sends a message (Table 2.11). -/
def Msg.client : Msg → Nat
  | .sheets .. => 1
  | .entry .. | .gatherEnd .. | .partials .. | .combineEnd .. | .overMark .. | .grad .. | .updateEnd .. => 4

/-- The oldest message from `src` to `dst` that a predicate names and that a slot of the table in force carries. -/
def State.feltHead (s : State) (src dst : Nat) (p : Msg → Bool) : Option Flight :=
  s.felt.find? fun f => f.src == src && f.dst == dst && p f.msg && s.ownsSlot src f.msg.client

/-- Take a message off the felt. -/
def State.takeFelt (s : State) (id : Nat) : State :=
  { s with felt := s.felt.filter fun f => f.id != id }

/-! ### Where a transfer leads (R83, R86, R245) -/

/-- What a transfer reads or writes outside the scratchpad. -/
inductive Place where
  /-- Tier-0 slice of the tile, from a byte. -/
  | slice (a : Nat)
  /-- The post's buffer set on the tile, from an offset (SEG 8). -/
  | buffer (off : Nat)
  /-- A segment of a partition, from an offset; `res`: it is the result buffer (SEG 9). -/
  | seg (p g off : Nat) (res : Bool)
  deriving DecidableEq, Repr

/-- The tier a class moves to or from. -/
def classTier (cls : Nat) : Nat := if cls = 0 then 0 else cls - 1

/-- Where a transfer of a post in class T0, T1 or T2 leads; none where its range leaves its segment or
buffer (R86). SEG 9 leads to the result buffer in its own tier (R83): the buffer's tier is the post's, and
R245 lets it be tier-1 or tier-2, so a class that names the other of the two moves the sheets all the
same (assumption 87, DEDUCED). -/
def State.placeOf (s : State) (c : Cmd) (w : Bytes) : Option Place :=
  let n := 256 * xSheets w
  let tier := classTier (xClass w)
  if xSeg w = 8 then some (.buffer (xAddr w))
  else if xSeg w = 9 then
    match s.heldSeg c.part c.resSeg with
    | some v => if xAddr w + n ≤ c.resLen then
        some (.seg c.part c.resSeg (c.resOff + xAddr w) true) else none
    | none => none
  else
    match s.heldSeg c.part (xSeg w) with
    | some v =>
      if v.tier = tier && xAddr w + n ≤ v.limit && !(isPut w && v.readOnly) then
        some (if tier = 0 then .slice (v.base + xAddr w) else .seg c.part (xSeg w) (xAddr w) false)
      else none
    | none => none

/-- A page of the range is not mapped. Assumption 32, DEDUCED. Assumption 44, DEDUCED. -/
def State.placeFault (s : State) (w : Bytes) : Place → Bool
  | .seg p g off _ => match s.heldSeg p g with
    | some v => v.paged && (pagesOf off (256 * xSheets w)).any fun x => (FMap.find v.map x).isNone
    | none => true
  | _ => false

/-- SEAL_VIOLATION (R195): in a sealed ream, a PUT out of the sealed regions. A post of a ream that is not sealed may FETCH
a sealed segment and PUT what it read outside: R195 refuses only in a sealed ream, though R23 and R197 name no such way out
(assumption 144, DESIGN CHOICE). -/
def State.sealBreach (s : State) (c : Cmd) (w : Bytes) : Bool :=
  s.ream.sealed && isPut w && xSeg w < 8 &&
    (xClass w == 3 || match s.heldSeg c.part (xSeg w) with
      | some v => !v.sealed
      | none => true)

/-- The command of a context's post. -/
def State.cmdOf (s : State) (v : Ctx) : Option Cmd :=
  match v.post with
  | some k => s.cmd? k
  | none => none

/-- Place of a context's transfer. Assumption 33, DESIGN CHOICE. -/
def State.placeFor (s : State) (v : Ctx) (w : Bytes) : Option Place :=
  match s.cmdOf v with
  | some c => s.placeOf c w
  | none => none

/-! ### Masks (R82) -/

/-- Sheets of one row of a PUT. -/
def putK (w : Bytes) : Nat := cdiv (xSheets w) 256

/-- The byte runs a PUT's frame lets through: offset and length. -/
def putRuns (w : Bytes) (fr : Frame) : List (Nat × Nat) :=
  let k := putK w
  let n := 256 * xSheets w
  if fr.cols = 256 then
    let len := Nat.min n (fr.rows * 256 * k)
    if len = 0 then [] else [(0, len)]
  else
    ((List.range (Nat.min fr.rows (cdiv (xSheets w) k))).map fun r =>
      (256 * k * r, Nat.min (fr.cols * k) (n - 256 * k * r))).filter fun e => e.2 != 0

/-- Sheets a list of runs touches. -/
def runSheets (rs : List (Nat × Nat)) : List Nat := (rs.map fun r => sheetsOf r.1 r.2).flatten

/-- Scratchpad lines of a transfer. -/
def xLines (w : Bytes) : List Nat := (List.range (xSheets w)).map (· + xLine w)

/-- Poisoned lines of a transfer's scratchpad range, as sheet numbers of the transfer. -/
def State.xBad (s : State) (t : Nat) (w : Bytes) : List Nat :=
  (List.range (xSheets w)).filter fun i => s.spBad t (xLine w + i)

/-! ### Buffer sets (R83, R382) -/

/-- A tile's buffer set of a post. -/
def Post.buf (v : Post) (t : Nat) : Bytes × List Nat := FMap.get v.bufs t (v.body, v.poison)

/-- Write runs into a tile's buffer set: every sheet a run touches loses its mark, since every write there moves whole
sheets (R190). -/
def Post.putBuf (v : Post) (t off : Nat) (rs : List (Nat × Bytes)) : Post :=
  let (b, p) := v.buf t
  let hi := rs.foldl (fun n r => Nat.max n (off + r.1 + r.2.length)) 0
  let b := b ++ zeros (hi - b.length)
  let b := rs.foldl (fun b r => patchBytes b (off + r.1) r.2) b
  let p := p.filter fun n => !rs.any fun r => (sheetsOf (off + r.1) r.2.length).contains n
  { v with bufs := FMap.set v.bufs t (b, p) }

/-! ### Reading for a FETCH -/

/-- The sheets of 64-byte lines that arrived with poison (R310, R383). -/
def lineSheets (ls : List Nat) : List Nat := (ls.map (· / 4)).eraseDups

/-- What a FETCH in class T0 or T1, or one from a buffer set, reads: bytes and poisoned sheets. A byte
of a buffer set past the staged body is a free value. -/
def State.fetchRead (s : State) (t : Nat) (w : Bytes) (k : Option Nat) (p : Place) (ext : Rd) :
    Bytes × List Nat × State :=
  let n := 256 * xSheets w
  match p with
  | .slice a => (s.mem.readN (t0Addr t a) n, s.mem.poisonIdx (t0Addr t a) (xSheets w), s)
  | .buffer off =>
    let (b, bad) := match k with
      | some k => (match s.post? k with
        | some v => v.buf t
        | none => ([], []))
      | none => ([], [])
    let got := (b.drop off).take n
    let (fs, s) := s.freeVals (n - got.length)
    (got ++ fs.map (BitVec.ofNat 8), (List.range (xSheets w)).filter fun i => bad.contains (off / 256 + i), s)
  | .seg q g off _ =>
    let rd := s.readSeg q g off n ext
    let (fs, s) := s.freeVals (n - rd.data.length)
    (rd.data ++ fs.map (BitVec.ofNat 8), lineSheets rd.poison, s)

/-- Cache lookups of a class-T1 FETCH, and what a remote class-T2 FETCH brings into the cache: the sheets that were not
in it (R185). -/
def State.fetchCache (s : State) (k : Nat) (w : Bytes) (had : FMap (Bytes × Bool)) (b : Bytes) (marks : List Nat) :
    Place → State
  | .seg p g off _ => match s.heldSeg p g with
    | some v =>
      s.each (List.range (xSheets w)) fun s i =>
        let a := v.addr (off + 256 * i)
        if v.tier = 1 then (if v.sealed then s.rebuild (a / 256) else s.cacheLook (.t1 (a / 256)))
        else if v.tier = 2 && v.remote && (FMap.find had i).isNone then
          s.netFill (.net k g (off / 256 + i)) (fit 256 ((b.drop (256 * i)).take 256)) (marks.contains i)
        else s
    | none => s
  | _ => s

/-! ### Writing for a PUT (R311) -/

/-- A PUT to this place delivers poison instead of consuming it. Assumption 43, DEDUCED. -/
def State.poisonAware (s : State) (c : Cmd) (w : Bytes) : Bool :=
  if xSeg w = 8 then false
  else match s.heldSeg c.part (if xSeg w = 9 then c.resSeg else xSeg w) with
    | some v => v.poisonAware
    | none => false

/-- Runs of scratchpad bytes. -/
def State.runBytes (s : State) (t : Nat) (w : Bytes) (fr : Frame) : List (Nat × Bytes) :=
  (putRuns w fr).map fun r => (r.1, s.mem.readN (spAddr t (256 * xLine w + r.1)) r.2)

/-- Poisoned 64-byte lines of a run that starts at offset `o`: those of the sheets in `bad`. -/
def runLines (o len : Nat) (bad : List Nat) : List Nat :=
  (List.range (cdiv len 64)).filter fun i => bad.contains ((o + 64 * i) / 256)

/-- Bytes of a post's results have been handed over. -/
def Post.hand (v : Post) (off len : Nat) : Post :=
  { v with handed := FMap.set v.handed off (Nat.max len (FMap.get v.handed off 0)) }

/-- Every byte of the first `n` result bytes has been handed over. -/
def Post.allHanded (v : Post) (n : Nat) : Bool :=
  n != 0 && decide (n ≤ v.handed.foldl (fun m e => if e.1 ≤ m then Nat.max m (e.1 + e.2) else m) 0)

/-- Note the result bytes of a run that leaves for tier-2 (R235). -/
def State.noteHanded (s : State) (k p g off len : Nat) : State :=
  match s.heldSeg p g with
  | some v => if v.tier = 2 then s.modPost k fun x => x.hand off len else s
  | none => s

/-- Write one run, a tier-0 sheet it touches losing its mark, since every write there moves whole sheets (R190); the
numbers of the messages it takes are those issued meanwhile. -/
def State.putRun (s : State) (t k : Nat) (c : Cmd) (w : Bytes) (bad : List Nat) (pl : Place)
    (r : Nat × Bytes) : State :=
  match pl with
  | .slice a =>
    let m := s.mem.writeN (t0Addr t (a + r.1)) r.2
    { s with mem := (sheetsOf (t0Addr t (a + r.1)) r.2.length).foldl (fun m n => m.mark n false) m }
  | .buffer off => s.modPost k fun v => v.putBuf t off [r]
  | .seg p g off res =>
    let s := if res then s.noteHanded k p g (xAddr w + r.1) r.2.length else s
    if res && s.sealsOut c then
      let ns := sheetsOf r.1 r.2.length
      s.modPost k fun v => { v with
        sealBuf := (r.2.zipIdx).foldl (fun m (b, i) => FMap.set m (xAddr w + r.1 + i) b) v.sealBuf
        sealBad := (v.sealBad.filter fun n => !ns.contains (n - xAddr w / 256)) ++
          (ns.filter bad.contains).map (· + xAddr w / 256) }
    else
      s.writeSeg (.result k) p g (off + r.1) r.2
        (match s.heldSeg p g with
          | some v => if v.tier = 2 then runLines r.1 r.2.length bad else []
          | none => [])

/-- Mark the sheets a PUT delivers as poisoned (R311). -/
def State.deliverPoison (s : State) (t : Nat) (part : Nat) (bad : List Nat) (pl : Place) : State :=
  let s := if bad.isEmpty then s else s.count 0x0B1 part bad.length
  match pl with
  | .slice a => s.each bad fun s i => s.poisonT0 t (a / 256 + i)
  | .seg p g off _ => match s.heldSeg p g with
    | some v => if v.tier = 1 then s.each bad fun s i => s.poisonT1 (v.addr (off + 256 * i) / 256) else s
    | none => s
  | .buffer _ => s

/-- Poisoned sheets that a masked PUT delivers to tier-2 in part: their four lines are written with poison, whatever the
mask lets through (R311). -/
def State.markRuns (s : State) (t : Nat) (w : Bytes) (fr : Frame) (bad : List Nat) : Place → List (Nat × Bytes)
  | .seg p g _ _ => match s.heldSeg p g with
    | some v =>
      if v.tier != 2 then []
      else (bad.filter fun i => !(putRuns w fr).any fun r => decide (r.1 ≤ 256 * i) && decide (256 * i + 256 ≤ r.1 + r.2)).map
        fun i => (256 * i, s.mem.readN (spAddr t (256 * (xLine w + i))) 256)
    | none => []
  | _ => []

/-- The sheets of a PUT in class T0, T1 or T2 leave the scratchpad (R47, R82, R84, R311): the post's
finish is the last time it hands a result sheet over. -/
def State.putOut (s : State) (t k : Nat) (c : Cmd) (w : Bytes) (fr : Frame) (pl : Place) : State :=
  let touched := runSheets (putRuns w fr)
  let bad := (s.xBad t w).filter touched.contains
  let s := (s.runBytes t w fr ++ s.markRuns t w fr bad pl).foldl (fun s r => s.putRun t k c w bad pl r) s
  let s := s.deliverPoison t c.part bad pl
  if xSeg w = 9 then s.modPost k fun v => { v with finish := some s.now } else s

/-! ### Queues -/

def State.setQueue (s : State) (t cls : Nat) (q : List XferJob) : State :=
  s.modTile t fun x => { x with xq := FMap.set x.xq cls q }

/-- Numbers issued since the count stood at `n`. -/
def State.idsFrom (s : State) (n : Nat) : List Nat := (List.range (s.io.next - n)).map (· + n)

/-- Runs of the sheets 0 to n - 1 that a predicate names: first sheet and count. -/
def sheetRuns (n : Nat) (p : Nat → Bool) : List (Nat × Nat) :=
  ((List.range n).filter fun i => p i && (i = 0 || !p (i - 1))).map fun i =>
    (i, (((List.range (n - i)).takeWhile fun j => p (i + j))).length)

/-- Sheets of a remote FETCH that the cache has, with the lookups counted (R185). -/
def State.netHits (s : State) (k g off n : Nat) : FMap (Bytes × Bool) × State :=
  (List.range n).foldl (fun (m, s) i =>
    let (d, s) := State.netLook s (.net k g (off / 256 + i))
    (match d with
      | some d => FMap.set m i d
      | none => m, s)) (([] : FMap (Bytes × Bool)), s)

/-- Reads of the sheets of a remote FETCH that the cache lacks, one message for each piece of their pages (R282). -/
def State.issueReads (s : State) (t : Nat) (w : Bytes) (p off : Nat) (v : Seg) (had : FMap (Bytes × Bool)) : State :=
  let ps := (sheetRuns (xSheets w) fun i => (FMap.find had i).isNone).map fun (i, n) =>
    piecesOf v (off + 256 * i) (zeros (256 * n))
  s.each ps.flatten fun s (o, d) =>
    s.issue { id := 0, use := .fetch t (xClass w), part := p, kind := 1, qp := some v.qp, rkey := v.rkey
              addr := v.addr o, len := d.length }

/-- Sheets of a PUT to another tile (R82, R87, R310). -/
def State.feltPut (s : State) (t : Nat) (j : XferJob) : State :=
  s.sendFelt t (xTile j.word) (.sheets j.post (xAddr j.word % 2 ^ 15) (xSheets j.word)
    (FMap.get s.ream.epochs t 0) (s.runBytes t j.word j.frame) (s.xBad t j.word))

/-- The transfer's data crosses to tier-2: class T2, and SEG 9 where the result buffer lies there. -/
def State.goesOut (s : State) (j : XferJob) : Bool :=
  if xSeg j.word = 9 then
    match (j.post.bind s.cmd?).bind fun c => s.heldSeg c.part c.resSeg with
    | some v => v.tier == 2
    | none => false
  else xClass j.word == 3

/-- What a transfer does when it enters its queue: a remote FETCH sends its reads; a PUT to another
tile or to tier-2 sends its sheets, and its inputs are released (R84). No job is left where a poisoned
line is consumed: the post has failed (R311). Assumption 41, DEDUCED. -/
def State.beginXfer (s : State) (t : Nat) (j : XferJob) : Option XferJob × State :=
  let n := s.io.next
  let sent (s : State) : Option XferJob × State := (some { j with sent := true, ids := s.idsFrom n }, s)
  if isPut j.word && xClass j.word = 1 then sent ((s.feltPut t j).release t j.ctx j.word)
  else if !s.goesOut j then (some j, s)
  else match j.post, j.post.bind s.cmd? with
    | some k, some c => (match s.placeOf c j.word with
      | some (.seg p g off res) =>
        if isPut j.word then
          if !(s.xBad t j.word).isEmpty && !s.poisonAware c j.word then (none, s.consume t j.ctx (xLines j.word))
          else sent ((s.putOut t k c j.word j.frame (.seg p g off res)).release t j.ctx j.word)
        else (match s.heldSeg p g with
          | some v =>
            if v.remote && s.hostUp p v.qp then
              let (had, s) := s.netHits k g off (xSheets j.word)
              let s := s.issueReads t j.word p off v had
              (some { j with sent := true, ids := s.idsFrom n, cached := had }, s)
            else (some j, s)
          | none => (some j, s))
      | _ => (some j, s))
    | _, _ => (some j, s)

/-- A transfer enters its class queue. -/
def State.enqueue (s : State) (t : Nat) (j : XferJob) : State :=
  match s.beginXfer t j with
  | (some j, s) => s.setQueue t (xClass j.word) ((s.tile t).queue (xClass j.word) ++ [j])
  | (none, s) => s

/-- A job leaves its queue. -/
def State.dropJob (s : State) (t : Nat) (j : XferJob) : State :=
  s.setQueue t (xClass j.word) (((s.tile t).queue (xClass j.word)).erase j)

/-- Lines of a test program's rings that a transfer makes FULL or EMPTY (R379). -/
def State.ringLines (s : State) (t : Nat) (w : Bytes) : State :=
  if (s.tile t).st = 4 then
    let ls := xLines w
    (s.modTile t fun x => { x with
      full := x.full.filter (fun l => !ls.contains l) ++ (if isFetch w then ls else []) }).streamOn t
  else s

/-! ### Arrivals (R87) -/

/-- Land the runs of a PUT at a line of the scratchpad, with their marks. -/
def State.land (s : State) (t line : Nat) (rs : List (Nat × Bytes)) (bad : List Nat) : State :=
  let s := rs.foldl (fun s r => s.spPatch t (256 * line + r.1) r.2) s
  let touched := (rs.map fun r => sheetsOf r.1 r.2.length).flatten
  { s with mem := (bad.filter touched.contains).foldl (fun m i =>
      m.mark (spAddr t (256 * (line + i)) / 256) true) s.mem }

/-- The context of a tile that holds a post. -/
def State.ctxOf (s : State) (t : Nat) (k : Option Nat) : Option (Nat × Ctx) :=
  (s.tile t).ctxs.find? fun e => e.2.post == k

/-- The first FETCH of a context that awaits sheets from a tile. -/
def State.awaiting (s : State) (t c src : Nat) : Option XferJob :=
  ((s.tile t).queue 1).find? fun j => j.ctx == c && isFetch j.word && xTile j.word == src

/-- A post will enter, at the next interval boundary, the stage this tile holds. -/
def State.entersNext (s : State) (t k : Nat) : Bool :=
  match s.post? k with
  | some v => v.phase == 3 && v.fail == 0 && v.left ≤ 1 && s.stageOf t == some (v.stage + 1)
  | none => false

/-- A FETCH is done: it leaves its queue and sets its flags (R84). -/
def State.fetchDone (s : State) (t : Nat) (j : XferJob) : State :=
  ((s.dropJob t j).ringLines t j.word).signal t j.ctx j.word

end Sys2Proof.Machine
end

