-- ==== Sys2Proof/Machine/Xfer.lean ====
section
/-! DEFINITION. The prefetch engine's instructions and their completions (chapter 3). -/

namespace Sys2Proof.Machine

/-- A transfer whose range leaves its segment or buffer: outside SERVING it ends with BOUNDS and its context parks; in
SERVING its post ends with INTERNAL (R86, R246). -/
def State.xferBad (s : State) (t c : Nat) : State :=
  if (s.tile t).st = 1 then s.failCtx t c stInternal
  else s.modCtx t c fun v => { v with parked := true }

/-- A transfer with a page that is not mapped: outside SERVING it faults, with a record of its first invalid page and of
the invalid pages from there on, and its context parks (R249). -/
def State.xferFault (s : State) (t c seg off len : Nat) (valid : Nat → Bool) : State :=
  if (s.tile t).st = 1 then s.failCtx t c stInternal
  else
    let s := s.modCtx t c fun v => { v with parked := true }
    match (pagesOf off len).filter fun x => !valid x with
    | [] => s
    | g :: gs => s.tileFault t c seg (g * pageSize) (gs.length + 1)

/-- The checks of a transfer in class T0, T1 or T2, then its place in the queue (R86, R195). -/
def State.checkXfer (s : State) (t c : Nat) (w : Bytes) (v : Ctx) : State :=
  match s.cmdOf v with
  | none =>
    if 8 ≤ xSeg w then s.xferBad t c else s.xferFault t c (xSeg w) (xAddr w) (256 * xSheets w) fun _ => false
  | some cmd =>
    match s.placeOf cmd w with
    | none => s.xferBad t c
    | some pl =>
      if s.placeFault w pl then match pl with
        | .seg p g off _ => s.xferFault t c g off (256 * xSheets w) fun x =>
            (s.heldSeg p g).any fun v => (FMap.find v.map x).isSome
        | _ => s.xferBad t c
      else if s.sealBreach cmd w then (s.count 0x057 cmd.part 1).failCtx t c stSealViolation
      else s.enqueue t { ctx := c, post := v.post, word := w, frame := v.frame (xDk w) }

/-- A FETCH in class FELT finds its sheets landed (R87), or waits for them. -/
def State.feltFetch (s : State) (t c : Nat) (w : Bytes) (v : Ctx) : State :=
  let mine (l : Nat × Nat × Nat × Nat) : Bool := some l.1 == v.post && l.2.1 == xTile w
  match v.post, (s.tile t).landed.find? mine with
  | some _, some l =>
    let s := s.modTile t fun x => { x with landed := x.landed.erase l }
    if l.2.2 = (xLine w, xSheets w) then s.signal t c w else s.failCtx t c stInternal
  | _, _ => s.enqueue t { ctx := c, post := v.post, word := w }

/-- FETCH (R83, R84, R86, R87). -/
def execFetch (tile ctx : Nat) (s : State) : Host.Outcome State Fault Refusal :=
  .next (s.issue1 tile ctx 0x38 fun s w v =>
    if xClass w = 1 then s.feltFetch tile ctx w v else s.checkXfer tile ctx w v)

/-- PUT (R82, R83, R84, R86, R195). -/
def execPut (tile ctx : Nat) (s : State) : Host.Outcome State Fault Refusal :=
  .next (s.issue1 tile ctx 0x39 fun s w v =>
    if xClass w = 1 then
      s.enqueue tile { ctx := ctx, post := v.post, word := w, frame := v.frame (xDk w) }
    else s.checkXfer tile ctx w v)

/-- The head of a class queue. -/
def Tile.head (x : Tile) (cls : Nat) : Option XferJob := (x.queue cls).head?

/-- Every message of a job has been accepted: none of its numbers is outstanding. -/
def State.idsDone (s : State) (j : XferJob) : Bool :=
  !(s.io.out.any fun x => j.ids.contains x.id && !x.accepted) && !(s.felt.any fun f => j.ids.contains f.id)

/-- Sheets of a remote FETCH put together: those the cache served, the others from what was read, in order. Poison is
by 64-byte line. -/
def gatherSheets (n : Nat) (had : FMap (Bytes × Bool)) (d : Bytes) (bad : List Nat) : Bytes × List Nat :=
  let (out, marks, _) := (List.range n).foldl (fun (out, marks, j) i =>
    match FMap.find had i with
    | some (b, m) => (out ++ b, marks ++ (if m then [4 * i] else []), j)
    | none => (out ++ (d.drop (256 * j)).take 256,
        marks ++ ((bad.filter fun l => l / 4 == j).map fun l => 4 * i + l % 4), j + 1))
    (([] : Bytes), ([] : List Nat), 0)
  (out, marks)

/-- The data a remote FETCH's reads returned, in order, and the reads forgotten. -/
def State.takeReads (s : State) (j : XferJob) : Bytes × List Nat × State :=
  let xs := s.io.out.filter fun x => j.ids.contains x.id
  let (d, bad) := xs.foldl (fun (d, bad) x => (d ++ x.data, bad ++ x.poison.map (· + d.length / 64)))
    (([] : Bytes), ([] : List Nat))
  (d, bad, { s with io := { s.io with out := s.io.out.filter fun x => !j.ids.contains x.id } })

/-- A read of local tier-2 of a partition that cannot be reached fails (R267). -/
def State.readLost (s : State) (k : Nat) : Place → Bool
  | .seg p g _ _ => (match s.heldSeg p g with
    | some v => v.tier == 2 && !s.hostUp p v.qp
    | none => false) && (s.post? k).isSome
  | _ => false

/-- FETCH_COMPLETE (R84): the sheets of the FETCH at the head of a class land in the scratchpad with
their marks. `data` is what a read of local tier-2 returned. -/
def execFetchComplete (tile cls : Nat) (data : Rd) (s : State) : Host.Outcome State Fault Refusal :=
  .next (match (s.tile tile).head cls with
    | none => s
    | some j =>
      if !isFetch j.word || cls = 1 || !s.idsDone j then s
      else match (s.ctx? tile j.ctx).bind (s.placeFor · j.word), j.post with
        | some pl, some k =>
          if s.readLost k pl && !j.sent then s.failPost k stXferFail
          else
          let (d, bad, s) := if j.sent then s.takeReads j else (data.data, data.poison, s)
          let (d, bad) := if j.cached.isEmpty then (d, bad) else gatherSheets (xSheets j.word) j.cached d bad
          let (b, marks, s) := s.fetchRead tile j.word j.post pl { data := d, poison := bad }
          ((s.spWrite tile (xLine j.word) b marks).fetchCache k j.word j.cached b marks pl).fetchDone tile j
        | _, _ => s)

/-- A PUT in class T0 or T1 moves its sheets; poison a PUT consumes fails its post (R311). -/
def State.putNow (s : State) (t : Nat) (j : XferJob) : State :=
  match (s.ctx? t j.ctx).bind (s.placeFor · j.word), j.post, j.post.bind s.cmd? with
  | some pl, some k, some c =>
    if !(s.xBad t j.word).isEmpty && !s.poisonAware c j.word then (s.dropJob t j).consume t j.ctx (xLines j.word)
    else (((s.putOut t k c j.word j.frame pl).dropJob t j).ringLines t j.word).signal t j.ctx j.word
  | _, _, _ => s

/-- The first PUT of a class: in class FELT, FETCHes wait beside the PUTs. -/
def Tile.firstPut (x : Tile) (cls : Nat) : Option XferJob :=
  if cls = 1 then (x.queue 1).find? fun j => isPut j.word else x.head cls

/-- PUT_COMPLETE (R84): the last sheet has been accepted. -/
def execPutComplete (tile cls : Nat) (s : State) : Host.Outcome State Fault Refusal :=
  .next (match (s.tile tile).firstPut cls with
    | none => s
    | some j =>
      if !isPut j.word then s
      else if !j.sent then s.putNow tile j
      else if s.idsDone j then ((s.dropJob tile j).ringLines tile j.word).setOut tile j.ctx j.word
      else s)

/-- Sheets for a context: they land for the FETCH that awaits them, or are held for the one that will;
a mismatch fails the post (R87). Sheets of a post that holds its context and has not issued the FETCH yet are held in the
same way, a case that R87 does not describe (assumption 147, DESIGN CHOICE). -/
def State.sheetsFor (s : State) (t src c line n : Nat) (v : Ctx) (rs : List (Nat × Bytes))
    (bad : List Nat) : State :=
  match s.awaiting t c src with
  | some j =>
    if xLine j.word = line && xSheets j.word = n then (s.land t line rs bad).fetchDone t j
    else s.failCtx t c stInternal
  | none => match v.post with
    | some k => (s.land t line rs bad).modTile t fun x => { x with
        landed := x.landed ++ [(k, src, line, n)] }
    | none => s.land t line rs bad

/-- Sheets of a PUT, among the messages of the felt. -/
def Msg.isSheets : Msg → Bool
  | .sheets .. => true
  | _ => false

/-- FELT_ARRIVAL (R58, R59, R87). -/
def execFeltArrival (tile src : Nat) (s : State) : Host.Outcome State Fault Refusal :=
  .next (match s.feltHead src tile Msg.isSheets with
    | none => s
    | some f => match f.msg with
      | .sheets post line n epoch rs bad =>
        let s := s.takeFelt f.id
        let fail (s : State) : State := match post with
          | some k => (s.failPost k stInternal).settle k
          | none => s
        if epoch != FMap.get s.ream.epochs src 0 then
          fail ((s.count 0x007 tile 1).causeAll cStaleEpoch)
        else match s.ctxOf tile post with
          | some (c, v) => if v.failed then s else s.sheetsFor tile src c line n v rs bad
          | none => match post with
            | none => s
            | some k =>
              if s.entersNext tile k then
                (s.land tile line rs bad).modTile tile fun x => { x with
                  landed := x.landed ++ [(k, src, line, n)] }
              else fail s
      | _ => s)

end Sys2Proof.Machine
end

