-- ==== Sys2Proof/Machine/GatherOps.lean ====
section
/-! DEFINITION. Tables, rows and gather work (chapter 6; R157 to R159): the fields of a TABLE record,
where a row lies, and the shared operations on lookups and updates. -/

namespace Sys2Proof.Machine

/-- A composite's components with their element offsets in its rows (R130, R140). -/
def State.components (s : State) (n : Nat) : List (Nat × Nat) :=
  let b := s.tab n
  if tKind b = 2 then
    [(tCompA b, 0), (tCompB b, if tCat b then tDim (s.tab (tCompA b)) else 0)]
  else [(n, 0)]

/-- The table whose lookup a shard's table belongs to: its composite, or itself. -/
def State.parentTable (s : State) (u : Nat) : Nat :=
  if tComponent (s.tab u) then
    ((List.range (hTables s.ream.hdr)).find? fun n =>
      tKind (s.tab n) == 2 && (tCompA (s.tab n) == u || tCompB (s.tab n) == u)).getD u
  else u

/-! ### Shards and rows (R129, R133) -/

/-- Shard fold masks (Table 6.3). -/
def foldM : List Nat :=
  [0xA5C3E196B5, 0x5B1D3CA7E2, 0xC674F92D1B, 0x3DE28A58C6, 0x9E0B67F34D, 0x61B95D0E78]

/-- The fold f of a local row. -/
def shardFold (loc seed b : Nat) : Nat :=
  let w := (loc ^^^ seed) % 2 ^ 40
  (foldM.take b).zipIdx.foldl (fun f (m, j) => f + 2 ^ j * b2n (parity 40 (w &&& m))) 0

/-- `shard_of`: shard and local row of physical row p. -/
def shardOf (p seed b : Nat) : Nat × Nat :=
  let loc := p / 2 ^ b
  ((p % 2 ^ b) ^^^ shardFold loc seed b, loc)

/-- The physical row at a shard's local place: `shard_of` undone. -/
def rowAt (shard loc seed b : Nat) : Nat := loc * 2 ^ b + (shard ^^^ shardFold loc seed b)

/-- The physical row of an index (R129). -/
def physRow (b : Bytes) (i : Nat) : Nat :=
  if tKind b = 1 then rowHash i (tKey b) (tRows b) else i

/-- An index is out of range (R132). -/
def outOfRange (b : Bytes) (i : Nat) : Bool := tKind b != 1 && decide (tRows b ≤ i)

/-- Tile and local row of an index of a table with rows. -/
def State.placeIndex (s : State) (u i : Nat) : Nat × Nat :=
  let b := s.tab u
  let (sh, loc) := shardOf (physRow b i) (tSeed b) (shardBits b)
  ((shardTiles b).getD sh 0, loc)

/-- The components' tiles and local rows of an in-range index (R136). -/
def State.targets (s : State) (n i : Nat) : List (Nat × Nat × Nat) :=
  let b := s.tab n
  if tKind b = 2 then
    let (ta, la) := s.placeIndex (tCompA b) (i / tModulus b)
    let (tb, lb) := s.placeIndex (tCompB b) (i % tModulus b)
    [(tCompA b, ta, la), (tCompB b, tb, lb)]
  else let (t, l) := s.placeIndex n i; [(n, t, l)]

/-- The physical row of a shard tile's local row. -/
def State.rowNumber (s : State) (u tile loc : Nat) : Nat :=
  let b := s.tab u
  rowAt ((shardTiles b).findIdx (· == tile)) loc (tSeed b) (shardBits b)

/-- Local rows of one shard. -/
def shardRows (b : Bytes) : Nat := cdiv (tRows b) (shardTiles b).length

/-! ### Where a row lies (R134, R157) -/

/-- Bytes of a row. -/
def rowBytes (b : Bytes) : Nat := 256 * tSheets b

/-- Tier-1 byte address of a row's home. -/
def State.homeAddr (s : State) (u tile loc : Nat) : Nat :=
  let b := s.tab u
  let base := match s.heldSeg s.ream.owner (tT1Seg b) with
    | some v => v.base
    | none => 0
  base + tT1Base b + s.rowNumber u tile loc * rowBytes b

/-- Bytes of a table's row area on each of its shard tiles (R142). -/
def areaBytes (b : Bytes) : Nat :=
  if tKind b = 2 then 0
  else (if tPinned b then shardRows b else tT0Rows b) * rowBytes b

/-- Offset in a tile's slice of table `u`'s row area: the areas lie in table order from the start of
the reserved range (assumption 15, DEDUCED). -/
def State.areaOff (s : State) (u tile : Nat) : Nat :=
  (List.range u).foldl (fun a n =>
    if (tShards (s.tab n)).testBit tile then a + areaBytes (s.tab n) else a)
    (t0Limit - s.ream.reserve * 2 ^ 20)

/-- Flat address of a tier-0 place. -/
def State.placeAddr (s : State) (u tile place : Nat) : Nat :=
  t0Addr tile (s.areaOff u tile + place * rowBytes (s.tab u))

/-- Buckets of a directory, and the bucket of a local row (R158). -/
def dirBuckets (b : Bytes) : Nat := 2 ^ log2Up (cdiv (tT0Rows b) 16)
def dirBucket (b : Bytes) (loc : Nat) : Nat :=
  rowHash loc (BitVec.ofNat 64 (tSeed b)) (2 ^ 40) % dirBuckets b

/-- Sheets of a table's directory on a shard tile (R158); of an updatable PINNED table, whose entries are its
rows' HOME_STALE bits alone, those bits. -/
def dirSheets (b : Bytes) : Nat :=
  if tKind b = 2 then 0
  else if tPinned b then (if tUpdatable b then cdiv (cdiv (shardRows b) 8) 256 else 0)
  else dirBuckets b

/-- Offset in a tile's slice of table `u`'s directory: the directories lie in table order after the row areas
(assumption 15, DEDUCED). -/
def State.dirOff (s : State) (u tile : Nat) : Nat :=
  (List.range u).foldl (fun a n =>
    if (tShards (s.tab n)).testBit tile then a + 256 * dirSheets (s.tab n) else a)
    (s.areaOff (hTables s.ream.hdr) tile)

/-- Directory of a table on a tile. -/
def dirKey (tile u : Nat) : Nat := tile * 1024 + u
def State.dir (s : State) (tile u : Nat) : FMap DirEnt := FMap.get s.gat.dirs (dirKey tile u) []
def State.dirEnt (s : State) (tile u loc : Nat) : Option DirEnt := FMap.find (s.dir tile u) loc

/-- An entry as Table 7.4 lays it out. -/
def DirEnt.word (e : DirEnt) (loc : Nat) : Nat :=
  loc % 2 ^ 34 + 2 ^ 34 * (e.st % 8) + 2 ^ 37 * b2n e.stale + 2 ^ 38 * (e.place % 2 ^ 23)

/-- Sheet `i` of a table's directory on a tile: one bucket, its entries from the first on, the rest EMPTY; of a
PINNED table 2,048 rows' HOME_STALE bits. The order within a bucket is assumption 15, DEDUCED. -/
def State.dirSheet (s : State) (tile u i : Nat) : Bytes :=
  let b := s.tab u
  let d := s.dir tile u
  if tPinned b then
    (List.range 256).map fun j => BitVec.ofNat 8 ((List.range 8).foldl (fun n k =>
      match FMap.find d (2048 * i + 8 * j + k) with
      | some e => n + 2 ^ k * b2n e.stale
      | none => n) 0)
  else fit 256 ((d.filter fun e => dirBucket b e.1 == i).map fun e => natLe 8 (e.2.word e.1)).flatten

/-- The table and the sheet of its directory that lies at byte `a` of a tile's slice. -/
def State.dirAt (s : State) (tile a : Nat) : Option (Nat × Nat) :=
  firstSome (fun u =>
    let o := s.dirOff u tile
    if (tShards (s.tab u)).testBit tile && decide (o ≤ a) && decide (a < o + 256 * dirSheets (s.tab u)) then
      some (u, (a - o) / 256)
    else none) (List.range (hTables s.ream.hdr))

/-- A sheet of a tile's tier-0 slice as a read of it finds it: the directories of the resident ream's tables
are in it (R158). -/
def State.t0Sheet (s : State) (tile n : Nat) : Bytes :=
  match if s.ream.resident then s.dirAt tile (256 * n) else none with
  | some (u, i) => s.dirSheet tile u i
  | none => s.mem.readN (t0Addr tile (256 * n)) 256

/-- HOME_STALE_ROWS follows a change of HOME_STALE. -/
def State.staleDelta (s : State) (tile : Nat) (was is : Bool) : State :=
  if was == is then s
  else s.setCtr 0x037 tile (if is then s.counter 0x037 tile + 1 else s.counter 0x037 tile - 1)

/-- Flat sheet of the directory bucket of a local row (R158). -/
def State.bucketSheet (s : State) (tile u loc : Nat) : Nat :=
  t0Addr tile (s.dirOff u tile + 256 * dirBucket (s.tab u) loc) / 256

/-- The bucket that a read of a row of a non-PINNED table reads carries poison (R158, R190). -/
def State.bucketBad (s : State) (tile u loc : Nat) : Bool :=
  !s.mem.poison.isEmpty && !tPinned (s.tab u) && s.mem.poisoned (s.bucketSheet tile u loc)

/-- The bucket of a row is written, and loses its mark (R190). -/
def State.bucketClear (s : State) (tile u loc : Nat) : State :=
  if s.bucketBad tile u loc then { s with mem := s.mem.mark (s.bucketSheet tile u loc) false } else s

/-- Set or remove a directory entry: its bucket is written. -/
def State.setDir (s : State) (tile u loc : Nat) (e : Option DirEnt) : State :=
  let stale (o : Option DirEnt) : Bool := match o with
    | some e => e.stale
    | none => false
  let s := (s.staleDelta tile (stale (s.dirEnt tile u loc)) (stale e)).bucketClear tile u loc
  let d := s.dir tile u
  let d := match e with
    | some e => FMap.set d loc e
    | none => FMap.del d loc
  { s with gat := { s.gat with dirs := FMap.set s.gat.dirs (dirKey tile u) d } }

/-- The tier-0 place in which a row lives now; none where it lives in its home (R157). -/
def State.livePlace (s : State) (tile u loc : Nat) : Option Nat :=
  if tPinned (s.tab u) then some loc
  else match s.dirEnt tile u loc with
    | some e => if e.st = 2 || e.st = 3 then some e.place else none
    | none => none

/-- Flat address of the copy a row is read from and written to now. -/
def State.rowAddr (s : State) (tile u loc : Nat) : Nat :=
  match s.livePlace tile u loc with
  | some p => s.placeAddr u tile p
  | none => t1Addr (s.homeAddr u tile loc)

/-- A flat address lies in tier-1. -/
def isT1 (a : Nat) : Bool := t1Addr 0 ≤ a

/-- Some sheet of a row's copy carries poison. -/
def State.copyBad (s : State) (a n : Nat) : Bool :=
  (sheetsOf a n).any fun x =>
    if isT1 a then s.t1Bad (x - t1Addr 0 / 256) else s.mem.poisoned x

/-- Write a row's copy whole. -/
def State.writeCopy (s : State) (a : Nat) (b : Bytes) : State :=
  if isT1 a then s.writeT1 (a - t1Addr 0) b []
  else { s with mem := s.mem.writePart a b }

/-- A ROW read looks each tier-1 sheet up in the sheet cache (R185). -/
def State.rowCache (s : State) (u a n : Nat) : State :=
  let sld := match s.heldSeg s.ream.owner (tT1Seg (s.tab u)) with
    | some v => v.sealed
    | none => false
  if !isT1 a then s
  else s.each (sheetsOf (a - t1Addr 0) n) fun s x => if sld then s.rebuild x else s.cacheLook (.t1 x)

/-- Controllers that hold a sheet of a tier-1 copy. -/
def coldCtrls (a n : Nat) : List Nat := ((sheetsOf (a - t1Addr 0) n).map t1Ctrl).eraseDups

/-- Count a cold row for a post and table on its controllers: the counts, and whether one exceeds the
budget. -/
def countCold (m : List (Nat × Nat × Nat × Nat)) (k u : Nat) (cs : List Nat) (budget : Nat) :
    List (Nat × Nat × Nat × Nat) × Bool :=
  cs.foldl (fun (m, exceeded) c =>
    let n := match m.find? fun e => e.1 == k && e.2.1 == u && e.2.2.1 == c with
      | some e => e.2.2.2 + 1
      | none => 1
    ((k, u, c, n) :: m.filter (fun e => !(e.1 == k && e.2.1 == u && e.2.2.1 == c)),
      exceeded || decide (budget < n))) (m, false)

/-! ### Work of the gather units -/

/-- A post that is admitted and has not failed. -/
def State.postLive (s : State) (k : Nat) : Bool :=
  match s.post? k with
  | some v => v.phase == 3 && v.fail == 0
  | none => false

def GWork.is (g : GWork) (t k u : Nat) : Bool := g.tile == t && g.post == k && g.table == u
def UWork.is (g : UWork) (t k u : Nat) : Bool := g.tile == t && g.post == k && g.table == u

def State.gwork? (s : State) (t k u : Nat) : Option GWork := s.gat.works.find? fun g => g.is t k u
def State.uwork? (s : State) (t k u : Nat) : Option UWork := s.gat.uworks.find? fun g => g.is t k u

/-- Set a work, in place or at the end. -/
def State.setGwork (s : State) (w : GWork) : State :=
  let new : List GWork :=
    if (s.gat.works.any fun g => g.is w.tile w.post w.table) then
      s.gat.works.map fun g => if g.is w.tile w.post w.table then w else g
    else s.gat.works ++ [w]
  { s with gat := { s.gat with works := new } }
def State.setUwork (s : State) (w : UWork) : State :=
  let new : List UWork :=
    if (s.gat.uworks.any fun g => g.is w.tile w.post w.table) then
      s.gat.uworks.map fun g => if g.is w.tile w.post w.table then w else g
    else s.gat.uworks ++ [w]
  { s with gat := { s.gat with uworks := new } }
def State.delGwork (s : State) (t k u : Nat) : State :=
  { s with gat := { s.gat with works := s.gat.works.filter fun g => !g.is t k u } }
def State.delUwork (s : State) (t k u : Nat) : State :=
  { s with gat := { s.gat with uworks := s.gat.uworks.filter fun g => !g.is t k u } }

/-- A DISPATCH or GRAD_DISPATCH of a tile whose every message has been accepted sets its flags
(R136, R151). -/
def State.dispatchDone (s : State) (t : Nat) : State :=
  let exceeded := (s.tile t).gops.filter fun g =>
    iOp g.word != 0x31 && !(s.felt.any fun f => g.ids.contains f.id)
  s.each exceeded fun s g =>
    (s.modTile t fun x => { x with gops := x.gops.erase g }).signal t g.ctx g.word

/-- Take a message: the operation that sent it may be done. -/
def State.accept (s : State) (f : Flight) : State := (s.takeFelt f.id).dispatchDone f.src

/-- The list of a post for a table. -/
def Post.listOf (v : Post) (n kind : Nat) : Option PList :=
  v.lists.find? fun l => l.table == n && l.kind == kind

/-- Some sheet of the `len` bytes at `off` of a buffer set is poisoned. -/
def bufBad (bad : List Nat) (off len : Nat) : Bool := (sheetsOf off len).any bad.contains

/-- Operation under way: message numbers from `n` on belong to it. -/
def State.startGop (s : State) (t c k n : Nat) (w : Bytes) : State :=
  let s := s.modPost k fun v => { v with ran := (fld w 12 2 * 2 + b2n (iOp w == 0x32)) :: v.ran }
  (s.modTile t fun x => { x with
    gops := x.gops ++ [{ ctx := c, post := k, word := w, ids := s.idsFrom n }] }).dispatchDone t

end Sys2Proof.Machine
end

