-- ==== Sys2Proof/Machine/Gather.lean ====
section
/-! DEFINITION. Lookups (chapter 6): DISPATCH, the gather units, and COMBINE. -/

namespace Sys2Proof.Machine

/-! ### The felt's lookup traffic: each kind in the order sent between two tiles -/

def Msg.isLookup : Msg → Bool
  | .entry .. => true
  | .gatherEnd .. => true
  | _ => false

def Msg.isEntry : Msg → Bool
  | .entry .. => true
  | _ => false

def Msg.isCombine : Msg → Bool
  | .partials .. => true
  | .combineEnd .. => true
  | .overMark .. => true
  | _ => false

/-! ### DISPATCH (R131, R132, R136) -/

/-- OFFSET[q] of an index list. -/
def offsetAt (b : Bytes) (q : Nat) : Nat := fld b (4 * q) 4

/-- Bag q of a list of L entries: its first and its end, and whether a clamp changed one. -/
def bag (b : Bytes) (l q : Nat) : Nat × Nat × Bool :=
  let a := Nat.min (offsetAt b q) l
  let e := Nat.min (Nat.max (offsetAt b (q + 1)) a) l
  (a, e, a != offsetAt b q || e != offsetAt b (q + 1))

/-- Entry e of a list of a post of Q queries: index and BF16 weight. -/
def entryAt (b : Bytes) (q e : Nat) : Nat × Nat :=
  let o := 8 * cdiv (4 * q + 4) 8 + 8 * e
  (fld b o 5, fld b (o + 6) 2)

/-- Weight of an entry (R136). -/
def entryWeight (t : Bytes) (w n : Nat) : Word :=
  let x := if tWeighted t then BitVec.ofNat 32 (w * 65536) else one32
  if tMean t then fmul x (fdiv one32 (ofInt32 n)) else x

/-- One bag: its entries are sent or dropped. Assumption 48, DEDUCED. -/
def State.dispatchBag (s : State) (tile k n : Nat) (b : Bytes) (queries l q : Nat) : State :=
  let t := s.tab n
  let (a, e, clamped) := bag b l q
  let s := if clamped then s.count 0x026 n 1 else s
  let es := (List.range (e - a)).map fun i => entryAt b queries (a + i)
  let inR := (es.filter fun x => !outOfRange t x.1).length
  s.each es fun s (i, w) =>
    if outOfRange t i then
      (s.count 0x025 n 1).modPost k fun v => { v with flags := v.flags ||| 32 }
    else s.each (s.targets n i) fun s (u, dst, loc) =>
      s.sendFelt tile dst (.entry k u q loc (entryWeight t w inR))

/-- End markers of the shard tiles of a table and its components. -/
def State.dispatchEnds (s : State) (tile k n : Nat) : State :=
  s.each (s.components n) fun s (u, _) =>
    s.each (shardTiles (s.tab u)) fun s dst => s.sendFelt tile dst (.gatherEnd k u)

/-- The next entry from a tile: one of those sent before the next end marker, in an order the spec does not fix
(R146); which is a free value. -/
def State.entryTurn (s : State) (src dst : Nat) : Option (Flight × State) :=
  let fs := (s.felt.filter fun f => f.src == src && f.dst == dst && f.msg.isLookup && s.ownsSlot src f.msg.client).takeWhile
    fun f => f.msg.isEntry
  let (n, s) := s.freeVal
  (fs[n % fs.length]?).map fun f => (f, s)

/-- DISPATCH (R136, R310). -/
def execDispatch (tile ctx : Nat) (s : State) : Host.Outcome State Fault Refusal :=
  .next (s.issue1 tile ctx 0x30 fun s w v =>
    match v.post, v.post.bind s.post? with
    | some k, some p =>
      let n := fld w 12 2
      let first := s.io.next
      match p.listOf n 0 with
      | none => (s.dispatchEnds tile k n).startGop tile ctx k first w
      | some l =>
        let (body, bad) := p.buf tile
        if bufBad bad l.off l.size then s.consume tile ctx []
        else
          let b := (body.drop l.off).take l.size
          let s := s.each (List.range p.q) fun s q => s.dispatchBag tile k n b p.q l.entries q
          (s.dispatchEnds tile k n).startGop tile ctx k first w
    | _, _ => s)

/-! ### Intake and coalescing (R137, R145) -/

/-- The over marker of R145 goes to a table's COMB_TILE. -/
def State.sendOver (s : State) (tile k u : Nat) : State :=
  s.sendFelt tile (tCombTile (s.tab (s.parentTable u))) (.overMark k u)

/-- The unit stops the post's work on a table and sends the over marker (R145, R184). -/
def State.stopUnit (s : State) (g : GWork) : State :=
  (s.setGwork { g with exceeded := true, reading := [], part := [], bad := [] }).sendOver g.tile g.post g.table

/-- A unit meets a row past its budget: GATHER_OVER counts the post once for the table, and the unit stops (R145). -/
def State.gatherOver (s : State) (g : GWork) : State :=
  let counted := match s.post? g.post with
    | some v => v.exceeded.contains g.table
    | none => true
  let s := if counted then s else (s.count 0x023 g.table 1).modPost g.post fun v => { v with
    exceeded := g.table :: v.exceeded }
  s.stopUnit g

/-- GATHER_PEAK of a table. -/
def State.gatherPeak (s : State) (u n : Nat) : State :=
  if (s.counter 0x024 u).toNat < n then s.setCtr 0x024 u (BitVec.ofNat 64 n) else s

/-- One entry enters the unit's map. -/
def State.coalesce (s : State) (g : GWork) (q loc : Nat) (w : Word) : State :=
  match FMap.find g.rows loc with
  | some m =>
    (s.setGwork { g with rows := FMap.set g.rows loc (FMap.set m q (fadd (FMap.get m q 0) w)) }).count
      0x022 g.tile 1
  | none =>
    let s := s.gatherPeak g.table (g.order.length + 1)
    if g.order.length = tBudget (s.tab g.table) then s.gatherOver g
    else s.setGwork { g with rows := FMap.set g.rows loc [(q, fadd 0 w)], order := g.order ++ [loc] }

/-- A tile's work for a post and table, begun by its first arrival. -/
def State.gworkOf (s : State) (t k u : Nat) : GWork :=
  (s.gwork? t k u).getD { tile := t, post := k, table := u }

/-- GATHER_ENTRY_ARRIVAL (R137). -/
def execGatherEntryArrival (tile src : Nat) (s : State) : Host.Outcome State Fault Refusal :=
  .next (match s.entryTurn src tile with
    | some (f, s) => (match f.msg with
      | .entry k u q loc w =>
        let s := s.accept f
        let g := s.gworkOf tile k u
        if !s.postLive k || g.exceeded then s else s.coalesce g q loc w
      | _ => s)
    | none => s)

/-! ### Row reads (R137 to R139, R145, R157, R185) -/

/-- The unit has read every row: partial vectors and end marker go to the combining tile (R139). -/
def State.sendPartials (s : State) (g : GWork) : State :=
  let dst := tCombTile (s.tab (s.parentTable g.table))
  let s := s.each g.part fun s (q, v) =>
    s.sendFelt g.tile dst (.partials g.post g.table q v (g.bad.contains q))
  (s.sendFelt g.tile dst (.combineEnd g.post g.table)).delGwork g.tile g.post g.table

/-- Issue the read of one row: its location is resolved now, and a cold row is charged to its
controllers; past the budget the unit stops (R145, R160). -/
def State.issueRead (s : State) (tile k u loc : Nat) : State :=
  let g := s.gworkOf tile k u
  if g.exceeded then s
  else
    let a := s.rowAddr tile u loc
    let n := rowBytes (s.tab u)
    let (cold, exceeded) := if isT1 a then countCold s.gat.cold k u (coldCtrls a n) (tColdBudget (s.tab u))
      else (s.gat.cold, false)
    let s := { s with gat := { s.gat with cold := cold } }
    if exceeded then s.gatherOver g
    else
      let s := (s.count 0x020 tile 1).rowCache u a n
      let s := if isT1 a then s.count 0x021 tile 1 else s
      s.setGwork { g with reading := g.reading ++ [{ loc := loc, addr := a }] }

/-- The post has reached the stage in whose residency the table's rows are read (Table 6.1).
Assumption 49, DEDUCED. -/
def State.inGather (s : State) (k u : Nat) : Bool :=
  match s.post? k with
  | some v => decide (tGatherStage (s.tab (s.parentTable u)) ≤ v.stage)
  | none => false

/-- A unit with its end marker issues the read of every distinct row, once its post is in GATHER_STAGE's
residency; without rows it is done (R137, R139). -/
def State.startReads (s : State) (g : GWork) : State :=
  if !g.ended || g.exceeded || !g.reading.isEmpty || !s.inGather g.post g.table then s
  else if g.order.isEmpty then s.sendPartials g
  else s.each g.order fun s loc => s.issueRead g.tile g.post g.table loc

/-- GATHER_END_MARKER_ARRIVAL (R137): the map is whole, and the rows are read in GATHER_STAGE's
residency. -/
def execGatherEndMarkerArrival (tile src : Nat) (s : State) : Host.Outcome State Fault Refusal :=
  .next (match s.feltHead src tile Msg.isLookup with
    | some f => (match f.msg with
      | .gatherEnd k u =>
        let s := s.accept f
        let g := { s.gworkOf tile k u with ended := true }
        if !s.postLive k || g.exceeded then s else (s.setGwork g).startReads g
      | _ => s)
    | none => s)

/-- A row expanded and added into the partial vectors of the queries that name it (R106, R139).
Assumption 47, DEDUCED. -/
def GWork.pool (g : GWork) (x : List Word) (bad : Bool) (loc : Nat) : GWork :=
  let m := FMap.get g.rows loc []
  let part := m.foldl (fun p (q, w) =>
    let old := FMap.get p q []
    FMap.set p q (x.zipIdx.map fun (v, c) => ffma w v (old.getD c 0))) g.part
  { g with part := part, bad := if bad then g.bad ++ m.map (·.1) else g.bad }

/-- GATHER_ROW_READ_DONE (R138, R139). -/
def execGatherRowReadDone (tile post table loc : Nat) (s : State) : Host.Outcome State Fault Refusal :=
  .next (match s.gwork? tile post table with
    | none => s
    | some g => match g.reading.find? fun r => r.loc == loc with
      | none => s
      | some r =>
        let b := s.tab table
        let row := s.mem.readN r.addr (rowBytes b)
        let g := { g with reading := g.reading.erase r }
        let g := g.pool (expandRow (tRowFmt b) (tDim b) row) (s.copyBad r.addr (rowBytes b) || s.bucketBad tile table loc) loc
        if g.reading.isEmpty then s.sendPartials g else s.setGwork g)

/-! ### COMBINE (R140, R141) -/

def cOut (w : Bytes) : Nat := fld w 14 2
def cStride (w : Bytes) : Nat := fld w 16 1
def cBlock (w : Bytes) : Nat := fld w 17 1
def cDk (w : Bytes) : Nat := fld w 18 1

/-- Byte of a tile's scratchpad where query row r of a COMBINE starts. -/
def combineAt (w : Bytes) (r : Nat) : Nat := 256 * (cOut w + r * cStride w)

/-- End markers a COMBINE waits for: component and shard tile. -/
def State.combineNeeds (s : State) (n : Nat) : List Nat :=
  ((s.components n).map fun (u, _) => (shardTiles (s.tab u)).map fun t => u * 128 + t).flatten

/-- COMBINE (R140): +0 into the rows below ROWS. Where every end marker has met an earlier COMBINE of its post and
table, it is done at once. -/
def execCombine (tile ctx : Nat) (s : State) : Host.Outcome State Fault Refusal :=
  .next (s.issue1 tile ctx 0x31 fun s w v =>
    match v.post with
    | none => s
    | some k =>
      let fr := v.frame (cDk w)
      let d := tDim (s.tab (fld w 12 2))
      let s := s.each (List.range (Nat.min fr.rows 256)) fun s r =>
        s.spPatch tile (combineAt w r) (zeros (4 * d))
      let s := { s with gat := { s.gat with combined := (k, fld w 12 2, cBlock w) :: s.gat.combined } }
      let here := (FMap.get s.gat.ends k []).filter (s.combineNeeds (fld w 12 2)).contains
      if (s.combineNeeds (fld w 12 2)).all here.contains then s.signal tile ctx w
      else s.modTile tile fun x => { x with
        gops := x.gops ++ [{ ctx := ctx, post := k, word := w, frame := fr, ends := here }] })

/-- COMBINEs of a tile for a post and table. -/
def State.combines (s : State) (t k n : Nat) : List GatherOp :=
  (s.tile t).gops.filter fun g => iOp g.word == 0x31 && g.post == k && fld g.word 12 2 == n

/-- A COMBINE of the post, which holds a context on the tile, has issued for the table, or for one of its blocks (R141). -/
def State.combineIssued (s : State) (t k n : Nat) (block : Option Nat) : Bool :=
  (s.tile t).ctxs.any (fun e => e.2.post == some k) && s.gat.combined.any fun c => c.1 == k && c.2.1 == n && (block.isNone || block == some c.2.2)

/-- A partial or marker that finds no COMBINE under way: where none of a post that holds a context on the tile has issued it
is a stray, and each one discarded counts (R141); where one has, it has been abandoned with its post or is done, and nothing
more is written (R65). -/
def State.stray (s : State) (t k n : Nat) (block : Option Nat) : State :=
  if s.combineIssued t k n block then s
  else
    let s := s.count 0x027 t 1
    if s.postLive k then (s.failPost k stInternal).settle k else s

/-- Add a partial into its query's row; masked rows stay (R140). -/
def State.addPartial (s : State) (t : Nat) (g : GatherOp) (off q : Nat) (v : List Word) : State :=
  let r := q % 256
  let a := combineAt g.word r + 4 * off
  if g.frame.rows ≤ r then s
  else
    let lines := sheetsOf a (4 * v.length)
    let s := if lines.any (s.spBad t) then s.consume t g.ctx lines else s
    let old := s.mem.readN (spAddr t a) (4 * v.length)
    s.spPatch t a ((v.zipIdx.map fun (x, i) =>
      natLe 4 (fadd (BitVec.ofNat 32 (fld old (4 * i) 4)) x).toNat).flatten)

/-- Element offset of a component in its parent's rows. -/
def State.partOffset (s : State) (u : Nat) : Nat :=
  match (s.components (s.parentTable u)).find? fun e => e.1 == u with
  | some e => e.2
  | none => 0

/-- PARTIAL_ARRIVAL (R140, R141, R310). Where a post has issued two COMBINEs for one table and block on a tile, the
partial goes to the first of them only (assumption 122, DEDUCED). -/
def execPartialArrival (tile src : Nat) (s : State) : Host.Outcome State Fault Refusal :=
  .next (match s.feltHead src tile Msg.isCombine with
    | some f => (match f.msg with
      | .partials k u q v bad =>
        let s := s.takeFelt f.id
        match (s.combines tile k (s.parentTable u)).find? fun g => cBlock g.word == q / 256 with
        | none => s.stray tile k (s.parentTable u) (some (q / 256))
        | some g =>
          if bad then s.consume tile g.ctx []
          else s.addPartial tile g (s.partOffset u) q v
      | _ => s)
    | none => s)

/-- An end marker counts for a COMBINE, which may be done with it. -/
def State.combineEnd (s : State) (t : Nat) (g : GatherOp) (m : Nat) : State :=
  let g' := { g with ends := if g.ends.contains m then g.ends else g.ends ++ [m] }
  if (s.combineNeeds (fld g.word 12 2)).all g'.ends.contains then
    (s.modTile t fun x => { x with gops := x.gops.erase g }).signal t g.ctx g.word
  else s.modTile t fun x => { x with gops := x.gops.map fun h => if h == g then g' else h }

/-- COMBINE_END_MARKER_ARRIVAL (R140, R141). -/
def execCombineEndMarkerArrival (tile src : Nat) (s : State) : Host.Outcome State Fault Refusal :=
  .next (match s.feltHead src tile Msg.isCombine with
    | some f => (match f.msg with
      | .combineEnd k u =>
        let s := s.takeFelt f.id
        let m := u * 128 + src
        match s.combines tile k (s.parentTable u) with
        | [] => s.stray tile k (s.parentTable u) none
        | gs =>
          let ends := FMap.get s.gat.ends k []
          let s := if ends.contains m then s
            else { s with gat := { s.gat with ends := FMap.set s.gat.ends k (ends ++ [m]) } }
          s.each gs fun s g => s.combineEnd tile g m
      | _ => s)
    | none => s)

/-- OVER_MARKER_ARRIVAL (R145): COMBINE sets its output flags and the post is marked failed. Where go has been sent and the
update's writes are not made, Table 7.3 names no outcome: go stands, the rows are written, and the post completes with
GATHER_OVER (assumption 136, DESIGN CHOICE). Assumption 50, DEDUCED. -/
def execOverMarkerArrival (tile src : Nat) (s : State) : Host.Outcome State Fault Refusal :=
  .next (match s.feltHead src tile Msg.isCombine with
    | some f => (match f.msg with
      | .overMark k u =>
        let s := s.takeFelt f.id
        if !s.postLive k then s
        else
          let s := s.each (s.combines tile k (s.parentTable u)) fun s g =>
            (s.modTile tile fun x => { x with gops := x.gops.erase g }).signal tile g.ctx g.word
          (s.failPost k stGatherOver).settle k
      | _ => s)
    | none => s)

end Sys2Proof.Machine
end

