-- ==== Sys2Proof/Machine/Update.lean ====
section
/-! DEFINITION. Table updates (chapter 7): GRAD_DISPATCH, the shard units' steps, the optimiser, the
commit point, and the writes. -/

namespace Sys2Proof.Machine

/-! ### GRAD_DISPATCH (R150, R151) -/

def Msg.isUpdate : Msg → Bool
  | .grad .. => true
  | .updateEnd .. => true
  | _ => false

/-- Gradient sheets per entry (R150). -/
def gradSheets (b : Bytes) : Nat := cdiv (gradBytes (tGradFmt b) (tDim b)) 256

/-- One gradient entry: its row's shard gets the gradient, with its mark. -/
def State.gradEntry (s : State) (tile k n : Nat) (l : Bytes) (bad : List Nat) (off len i : Nat) : State :=
  let t := s.tab n
  let x := fld l (256 + 8 * i) 5
  if outOfRange t x then
    (s.count 0x025 n 1).modPost k fun v => { v with flags := v.flags ||| 32 }
  else
    let (dst, loc) := s.placeIndex n x
    let g := 256 * gradSheets t
    let o := 256 * (1 + cdiv (8 * len) 256) + g * i
    s.sendFelt tile dst (.grad k n loc ((l.drop o).take g) (bufBad bad (off + o) g))

/-- Update end markers to every shard tile of a table. -/
def State.gradEnds (s : State) (tile k n : Nat) (scale : Word) : State :=
  s.each (shardTiles (s.tab n)) fun s dst => s.sendFelt tile dst (.updateEnd k n scale)

/-- GRAD_DISPATCH (R151, R310). -/
def execGradDispatch (tile ctx : Nat) (s : State) : Host.Outcome State Fault Refusal :=
  .next (s.issue1 tile ctx 0x32 fun s w v =>
    match v.post, v.post.bind s.post? with
    | some k, some p =>
      let n := fld w 12 2
      let first := s.io.next
      match p.listOf n 1 with
      | none => (s.gradEnds tile k n 0).startGop tile ctx k first w
      | some l =>
        let (body, bad) := p.buf tile
        if bufBad bad l.off (256 + 8 * l.entries) then s.consume tile ctx []
        else
          let b := (body.drop l.off).take l.size
          let s := s.each (List.range l.entries) fun s i => s.gradEntry tile k n b bad l.off l.entries i
          (s.gradEnds tile k n (BitVec.ofNat 32 (fld b 0 4))).startGop tile ctx k first w
    | _, _ => s)

/-! ### The optimiser (R155) -/

/-- Mean of squares of a gradient. -/
def msq (g : List Word) : Word :=
  let chunk (i : Nat) : List (Word × Nat) := (List.range 256).map fun j =>
    let x := g.getD (256 * i + j) 0
    (fmul x x, j)
  let acc := (List.range (cdiv g.length 256)).foldl (fun a i => fadd a (redTree false 0 (chunk i)).1) 0
  fmul acc (fdiv one32 (ofInt32 g.length))

/-- `pow` by square and multiply over the 16 bits of n. -/
def fpow (b : Word) (n : Nat) : Word :=
  ((List.range 16).foldl (fun (p, q) i => (if n.testBit i then fmul p q else p, fmul q q)) (one32, b)).1

/-- `optimise`: the new elements and OPT0. -/
def optimise (t : Bytes) (x g : List Word) (o0 : Word) (scale : Word) (step old : Nat) :
    List Word × Word :=
  let lr := fmul (tLr t) scale
  let apply (r : Word) : List Word := (x.zip g).map fun (a, b) => ffma (fneg r) b a
  if tOptKind t = 0 then (apply lr, o0)
  else
    let m := msq g
    let o0 := if tOptKind t = 1 then fadd o0 m
      else
        let a := fpow (tBeta t) (Nat.min (sub32 step old) 65535)
        ffma a o0 (fmul (fsub one32 (tBeta t)) m)
    (apply (fdiv lr (fadd (fsqrt o0) (tEps t))), o0)

/-- BF16 value at a trailer offset. -/
def trailBf16 (row : Bytes) (off : Nat) : Word :=
  BitVec.ofNat 32 (fld (row.drop (row.length - 16)) off 2 * 65536)

/-- A new row: none where a value is not finite (R108); else its sheets and what Table 4.7 counts. `dr`
gives the row's draws. -/
def newRow (t row : Bytes) (g : List Word) (scale : Word) (step : Nat) (dr : Nat → Nat) :
    Option (Bytes × Nat × Bool) :=
  let d := tDim t
  let tr := row.drop (row.length - 16)
  let o1 := trailBf16 row 6
  let (x, o0) := optimise t (expandRow (tRowFmt t) d row) g (trailBf16 row 4) scale step (fld tr 8 4)
  if !(g.all isFin && x.all isFin && isFin o0 && isFin o1) then none
  else
    let e := encodeRow (tRowFmt t) (fld tr 0 2) (fld tr 2 2) x ((List.range d).map dr)
    let c0 := (convElem 0x0A true (dec32 o0) (dr d)).1
    let c1 := (convElem 0x0A true (dec32 o1) (dr (d + 1))).1
    some (buildRow (tSheets t) e c0 c1 (step % 2 ^ 32), e.sat, e.rescaled)

/-! ### A shard's step (R152, R153, R156) -/

/-- A tile's work for an update, begun by its first arrival or its start. -/
def State.uworkOf (s : State) (t k u : Nat) : UWork :=
  (s.uwork? t k u).getD { tile := t, post := k, table := u }

/-- A live post that carries a gradient list for the table. -/
def State.updLive (s : State) (k u : Nat) : Bool :=
  s.postLive k && match s.post? k with
    | some v => v.commit == 1 && (v.listOf u 1).isSome
    | none => false

/-- An earlier step of the table is undecided or has writes to make (R152). -/
def State.earlierOpen (s : State) (k u : Nat) : Bool :=
  match (s.post? k).bind (·.step) with
  | none => false
  | some n => s.posts.any fun p => (p.2.commit == 1 || p.2.commit == 2) && (p.2.listOf u 1).isSome &&
      match p.2.step with
      | some m => decide (m < n)
      | none => false

/-- Number of a row among the dirty rows. -/
def rowKey (u tile loc : Nat) : Nat := (u * 128 + tile) * 2 ^ 34 + loc
def rowKeyTable (k : Nat) : Nat := k / 2 ^ 34 / 128

/-- Bytes of a unit's new rows that are not dirty yet, which it reports (R165). -/
def State.reportBytes (s : State) (g : UWork) : Nat :=
  (g.new.filter fun e => (FMap.find s.gat.dirty (rowKey g.table g.tile e.1)).isNone).length
    * rowBytes (s.tab g.table)

/-- One row of the unit's pass: the work with its new row or its report, and the state with the cold
counts and the tier-1 lookups. Assumption 56, DEDUCED. -/
def State.updateRow (s : State) (step : Nat) (g : UWork) (k loc : Nat) : State × UWork :=
  if g.report != 0 then (s, g)
  else
    let t := s.tab g.table
    let a := s.rowAddr g.tile g.table loc
    let n := rowBytes t
    let (cold, exceeded) := if isT1 a then countCold s.gat.ucold g.post g.table (coldCtrls a n) (tUpdCold t)
      else (s.gat.ucold, false)
    let s := { s with gat := { s.gat with ucold := cold } }
    if exceeded then (s, { g with report := 2 })
    else
      let s := s.rowCache g.table a n
      if s.copyBad a n || s.bucketBad g.tile g.table loc || g.bad.contains loc then (s, { g with report := 3 })
      else
        let start := s.blockStart g.tile step g.table + k * (tDim t + 2)
        let key := (s.tile g.tile).streamKey
        match newRow t (s.mem.readN a n) (FMap.get g.rows loc []) g.scale step
            (fun e => draw key 1 ((start + e) % 2 ^ 60)) with
        | none =>
          ((s.count 0x034 g.tile 1).modPost g.post fun v => { v with flags := v.flags ||| 16 }, g)
        | some (b, sat, resc) =>
          (s, { g with new := FMap.set g.new loc b, sat := g.sat + sat, rescaled := g.rescaled + b2n resc })

/-- A started unit with its end marker reads its rows, computes and reports. -/
def State.runUpdate (s : State) (g : UWork) : State :=
  if g.started && g.ended && g.report == 0 then
    match (s.post? g.post).bind (·.step) with
    | none => s.setUwork g
    | some step =>
      let (s, g) := g.order.zipIdx.foldl (fun (s, g) (loc, k) => s.updateRow step g k loc) (s, g)
      s.setUwork { g with report := if g.report = 0 then 1 else g.report, bytes := s.reportBytes g }
  else s.setUwork g

/-- The post has reached the stage in whose residency the table's rows are updated (Table 7.1). -/
def State.inUpdate (s : State) (k u : Nat) : Bool :=
  match s.post? k with
  | some v => decide (tUpdStage (s.tab u) ≤ v.stage)
  | none => false

/-- UPDATE_STEP_START (R152, R153): in UPD_STAGE's residency, with no earlier step open. -/
def execUpdateStepStart (tile post table : Nat) (s : State) : Host.Outcome State Fault Refusal :=
  .next (
    if s.updLive post table && s.inUpdate post table && (shardTiles (s.tab table)).contains tile && !s.earlierOpen post table then
      s.runUpdate { s.uworkOf tile post table with started := true }
    else s)

/-- One gradient enters the unit's map. -/
def State.addGrad (s : State) (g : UWork) (loc : Nat) (x : List Word) (bad : Bool) : State :=
  let g := { g with bad := if bad then g.bad ++ [loc] else g.bad }
  match FMap.find g.rows loc with
  | some y => (s.setUwork { g with rows := FMap.set g.rows loc ((y.zip x).map fun (a, b) => fadd a b) }).count
      0x031 g.tile 1
  | none =>
    if g.order.length = tUpdBudget (s.tab g.table) then s.setUwork { g with report := 2 }
    else s.setUwork { g with rows := FMap.set g.rows loc x, order := g.order ++ [loc] }

/-- GRADIENT_ARRIVAL (R108, R153). -/
def execGradientArrival (tile src : Nat) (s : State) : Host.Outcome State Fault Refusal :=
  .next (match s.feltHead src tile Msg.isUpdate with
    | some f => (match f.msg with
      | .grad k u loc d bad =>
        let s := s.accept f
        let g := s.uworkOf tile k u
        let t := s.tab u
        if !s.updLive k u || g.report != 0 then s
        else s.addGrad g loc (expandGrad (tGradFmt t) (tDim t) d) bad
      | _ => s)
    | none => s)

/-- UPDATE_END_MARKER_ARRIVAL (R153, R155). -/
def execUpdateEndMarkerArrival (tile src : Nat) (s : State) : Host.Outcome State Fault Refusal :=
  .next (match s.feltHead src tile Msg.isUpdate with
    | some f => (match f.msg with
      | .updateEnd k u scale =>
        let s := s.accept f
        let g := s.uworkOf tile k u
        if !s.updLive k u || g.report != 0 then s
        else s.runUpdate { g with ended := true, scale := scale }
      | _ => s)
    | none => s)

/-! ### Dirty rows (R165) -/

/-- What posts at a point of their commit hold: reservations before it is decided (1), reported bytes with go
and before the writes (2). -/
def State.heldBytes (s : State) (c : Nat) : Nat :=
  s.posts.foldl (fun n p => if p.2.commit = c then n + p.2.reserve else n) 0

/-- DIRTY_BYTES: the dirty rows, and from go the bytes reported for those about to be. -/
def State.dirtyBytes (s : State) : Nat :=
  s.gat.dirty.foldl (fun n e => n + rowBytes (s.tab (rowKeyTable e.1))) (s.heldBytes 2)

/-- DIRTY_RESERVED: the posts admitted and not yet decided. -/
def State.dirtyReserved (s : State) : Nat := s.heldBytes 1

/-- DIRTY_PEAK follows a rise. -/
def State.notePeak (s : State) : State :=
  { s with gat := { s.gat with dirtyPeak := Nat.max s.gat.dirtyPeak (s.dirtyBytes + s.dirtyReserved) } }

/-! ### The commit point (R34, R153, R154) -/

/-- Every enabled tile's oldest report of a table in its UPD_STAGE goes up. -/
def State.sendReports (s : State) : State :=
  s.each s.tileList fun s t =>
    match s.gat.uworks.find? fun g => g.tile == t && g.report != 0 && !g.up && s.inUpdate g.post g.table with
    | some g => s.setUwork { g with up := true }
    | none => s

/-- The units of a post. -/
def State.unitsOf (s : State) (k : Nat) : List UWork := s.gat.uworks.filter fun g => g.post == k

/-- Tables a post updates. Assumption 51, DEDUCED. -/
def Post.updates (v : Post) : List Nat := ((v.lists.filter (·.kind == 1)).map (·.table)).eraseDups

/-- Every report of a post is with the controller. -/
def State.reportsIn (s : State) (k : Nat) (v : Post) : Bool :=
  v.commit == 1 && v.updates.all fun u => (shardTiles (s.tab u)).all fun t =>
    match s.uwork? t k u with
    | some g => g.up
    | none => false

/-- The oldest post that can be decided. -/
def State.decidable (s : State) : Option (Nat × Post) :=
  (s.posts.filter fun p => s.reportsIn p.1 p.2).foldl (fun best p => match best with
    | none => some p
    | some b => if p.2.step.getD 0 < b.2.step.getD 0 then some p else some b) none

/-- Go, or abandon (Table 7.3). -/
def State.decide1 (s : State) (k : Nat) (v : Post) : State :=
  let us := s.unitsOf k
  if us.all (·.report == 1) then
    let n := (us.map (·.bytes)).foldl (· + ·) 0
    (s.setPost k { v with commit := 2, reserve := n }).notePeak
  else if us.any (·.report == 3) then (s.failPost k stPoison).settle k
  else
    let exceeded := ((us.filter (·.report == 2)).map (·.table)).eraseDups
    ((s.each exceeded fun s u => s.count 0x033 u 1).failPost k stUpdateOver).settle k

/-- COMMIT_RUN (R34, R153, R154): one report from every tile, and one decision. -/
def execCommitRun (s : State) : Host.Outcome State Fault Refusal :=
  let s := s.sendReports
  .next (match s.decidable with
    | some (k, v) => s.decide1 k v
    | none => s)

/-! ### The writes (R157, R159 to R161) -/

/-- Abandon an unflipped move (R161): the entry returns to its prior state. Assumption 54, DEDUCED. -/
def State.abandonMove (s : State) (tile u loc : Nat) (e : DirEnt) : State :=
  let s := s.count 0x03A tile 1
  if e.st = 1 then s.setDir tile u loc none
  else s.setDir tile u loc (some { e with st := 2, phase := 0, log := 0 })

/-- Entries of a tile's move log. -/
def State.moveLog (s : State) (tile : Nat) : Nat :=
  s.gat.dirs.foldl (fun n d => if d.1 / 1024 = tile then d.2.foldl (fun n e => n + e.2.log) n else n) 0

/-- Where a move copies to. -/
def State.moveDest (s : State) (tile u loc : Nat) (e : DirEnt) : Nat :=
  if e.st = 1 then s.placeAddr u tile e.place else t1Addr (s.homeAddr u tile loc)

/-- What an update's write means to a move of its row: logged before the move is synced, the move
abandoned where the log is full; replayed when synced. -/
def State.moveWrite (s : State) (tile u loc : Nat) (b : Bytes) : State :=
  match s.dirEnt tile u loc with
  | none => s
  | some e =>
    if e.st != 1 && e.st != 3 then s
    else if e.phase = 2 then s.writeCopy (s.moveDest tile u loc e) b
    else if 4096 ≤ s.moveLog tile then s.abandonMove tile u loc e
    else s.setDir tile u loc (some { e with log := e.log + 1 })

/-- An update of a row in tier-0 leaves its home stale, but for a synced move's row, whose home has it
too. -/
def State.markStale (s : State) (tile u loc : Nat) : State :=
  if tPinned (s.tab u) then
    s.setDir tile u loc (some { st := 2, stale := true, place := loc })
  else match s.dirEnt tile u loc with
    | some e => if e.st = 2 || e.phase != 2 then s.setDir tile u loc (some { e with stale := true }) else s
    | none => s

/-- Write one new row where it lives now. -/
def State.writeRow (s : State) (tile u loc step : Nat) (b : Bytes) : State :=
  let a := s.rowAddr tile u loc
  let s := (s.writeCopy a b).count 0x030 tile 1
  let s := s.moveWrite tile u loc b
  let s := if isT1 a then s.count 0x032 tile 1 else s.markStale tile u loc
  let k := rowKey u tile loc
  { s with gat := { s.gat with
    dirty := FMap.set s.gat.dirty k step
    since := if (FMap.find s.gat.since k).isSome then s.gat.since else FMap.set s.gat.since k step } }

/-- A unit's writes and their counts. -/
def State.writeUnit (s : State) (step : Nat) (g : UWork) : State :=
  let s := s.each g.new fun s (loc, b) => s.writeRow g.tile g.table loc step b
  let s := if g.sat = 0 then s else s.count 0x036 g.tile g.sat
  if g.rescaled = 0 then s else s.count 0x035 g.tile g.rescaled

/-- Every write of a post that has go is made (R154, R157). Assumption 52, DEDUCED. -/
def State.makeWrites (s : State) (k : Nat) : State :=
  match s.post? k with
  | none => s
  | some v =>
    if v.commit != 2 then s
    else
      let s := s.each (s.unitsOf k) fun s g => s.writeUnit (v.step.getD 0) g
      let s := { s with gat := { s.gat with uworks := s.gat.uworks.filter fun g => g.post != k } }
      (s.modPost k fun v => { v with commit := 0, reserve := 0 }).notePeak

/-- A lookup of the post has still to read rows of a table that the post updates: its list is not dispatched, its
entries are on their way, or a unit has not read (R152). -/
def State.ownReads (s : State) (k : Nat) (v : Post) : Bool :=
  v.fail == 0 && v.updates.any fun u =>
    (v.lists.any fun l => l.kind == 0 && (s.components l.table).any (·.1 == u) && !v.ran.contains (2 * l.table))
      || (s.gat.works.any fun g => g.post == k && g.table == u && !g.exceeded)
      || s.felt.any fun f => match f.msg with
        | .entry p t .. | .gatherEnd p t => p == k && t == u
        | _ => false

/-- UPDATE_WRITES_DONE (R154, R157): the writes are made once the post's own lookups have read the rows (R152). -/
def execUpdateWritesDone (post : Nat) (s : State) : Host.Outcome State Fault Refusal :=
  .next (match s.post? post with
    | none => s
    | some v => if v.commit != 2 || s.ownReads post v then s else (s.makeWrites post).settle post)

end Sys2Proof.Machine
end

