-- ==== Sys2Proof/Machine/Migration.lean ====
section
/-! DEFINITION. Hot-row migration and stale rows (chapter 7, R157 to R163). -/

namespace Sys2Proof.Machine

/-- The channel group above a tile is in HOT_REFRESH or worse: tier-0 maintenance waits, and a move there
neither advances nor is abandoned for this reason (R175). -/
def State.hotTile (s : State) (t : Nat) : Bool :=
  let st := (FMap.get s.tiers.therm (t / 8) {}).st
  st == 1 || st == 2

/-- Maintenance takes the tile's corrected write-backs first (R174). -/
def State.drainWb (s : State) (t : Nat) : State :=
  if s.hotTile t then s else { s with tiers := { s.tiers with wb := FMap.del s.tiers.wb t } }

/-- MIG_CTRL (Table 7.6). -/
def migCtrl : Nat := 0x90010
def State.migOn (s : State) : Bool := s.regF migCtrl 0 0 == 1
def State.migMoves (s : State) : Nat := s.regF migCtrl 15 8

/-- The local row exists on that tile and the table's rows can move. -/
def State.rowExists (s : State) (tile u loc : Nat) : Bool :=
  let b := s.tab u
  s.ream.resident && decide (u < hTables s.ream.hdr) && tKind b != 2 && (shardTiles b).contains tile
    && decide (s.rowNumber u tile loc < tRows b)

/-- One more move may start on the tile in this sweep. -/
def State.canMove (s : State) (tile : Nat) : Bool :=
  s.migOn && decide (FMap.get s.gat.moves tile 0 < s.migMoves)
def State.moved (s : State) (tile : Nat) : State :=
  { s with gat := { s.gat with moves := FMap.set s.gat.moves tile (FMap.get s.gat.moves tile 0 + 1) } }

/-- A place is free and the row's bucket has an entry left. -/
def State.placeFree (s : State) (tile u loc place : Nat) : Bool :=
  let b := s.tab u
  let d := s.dir tile u
  decide (place < tT0Rows b) && d.all (fun e => e.2.place != place)
    && decide ((d.filter fun e => dirBucket b e.1 == dirBucket b loc).length < 32)

/-- MIGRATION_PROMOTE (R158, R159). -/
def execMigrationPromote (tile table loc place : Nat) (s : State) : Host.Outcome State Fault Refusal :=
  .next (
    if s.rowExists tile table loc && !tPinned (s.tab table) && s.canMove tile
        && (s.dirEnt tile table loc).isNone && s.placeFree tile table loc place then
      (s.moved tile).setDir tile table loc (some { st := 1, place := place })
    else s)

/-- MIGRATION_DEMOTE (R159). -/
def execMigrationDemote (tile table loc : Nat) (s : State) : Host.Outcome State Fault Refusal :=
  .next (match s.dirEnt tile table loc with
    | some e =>
      if s.rowExists tile table loc && !tPinned (s.tab table) && s.canMove tile && e.st == 2 then
        (s.moved tile).setDir tile table loc (some { e with st := 3, phase := 0, log := 0 })
      else s
    | none => s)

/-- Copy a row, each sheet with its mark. -/
def State.moveRow (s : State) (src dst n : Nat) : State :=
  let s := if isT1 src then s.rebuildIn (src - t1Addr 0) n else s
  let b := s.mem.readN src n
  let bad := (List.range (n / 256)).filter fun i => s.copyBad (src + 256 * i) 256
  let s := s.writeCopy dst b
  s.each bad fun s i =>
    if isT1 dst then s.poisonT1 ((dst - t1Addr 0) / 256 + i)
    else s.poisonT0 ((dst - t0Addr 0 0) / 2 ^ 31) ((dst - t0Addr 0 0) % 2 ^ 31 / 256 + i)

/-- The unflipped move of a row, if one is under way in that phase. -/
def State.moveIn (s : State) (tile u loc phase : Nat) : Option DirEnt :=
  match s.dirEnt tile u loc with
  | some e => if (e.st == 1 || e.st == 3) && e.phase == phase && !tPinned (s.tab u) then some e else none
  | none => none

/-- MIGRATION_COPY_DONE (R160, R161, R175). -/
def execMigrationCopyDone (tile table loc : Nat) (s : State) : Host.Outcome State Fault Refusal :=
  .next (match s.moveIn tile table loc 0 with
    | none => s
    | some e =>
      let n := rowBytes (s.tab table)
      let a := s.rowAddr tile table loc
      if s.hotTile tile then s
      else if s.copyBad a n then s.abandonMove tile table loc e
      else
        let s := s.drainWb tile
        let s := if e.st = 1 || e.stale then s.moveRow a (s.moveDest tile table loc e) n else s
        s.setDir tile table loc (some { e with phase := 1, stale := false }))

/-- MIGRATION_CATCH_UP_DONE (R160, R175): the logged updates are replayed, after which the destination holds
the row as the source does. Assumption 53, DEDUCED. -/
def execMigrationCatchUpDone (tile table loc : Nat) (s : State) : Host.Outcome State Fault Refusal :=
  .next (match s.moveIn tile table loc 1 with
    | none => s
    | some e =>
      let n := rowBytes (s.tab table)
      let a := s.rowAddr tile table loc
      if s.hotTile tile then s
      else if s.copyBad a n then s.abandonMove tile table loc e
      else
        let s := s.drainWb tile
        let s := if e.log = 0 then s else s.moveRow a (s.moveDest tile table loc e) n
        s.setDir tile table loc (some { e with phase := 2, log := 0, stale := false }))

/-- A write to the row that has go is not made yet. -/
def State.writePending (s : State) (tile u loc : Nat) : Bool :=
  s.gat.uworks.any fun g => g.tile == tile && g.table == u && (FMap.find g.new loc).isSome &&
    match s.post? g.post with
    | some v => v.commit == 2
    | none => false

/-- One synced move at a sweep boundary (R160, R175). Assumption 115, DEDUCED. -/
def State.flipMove (s : State) (tile u loc : Nat) : State :=
  match s.moveIn tile u loc 2 with
  | none => s
  | some e =>
    if s.hotTile tile then s
    else if s.copyBad (s.rowAddr tile u loc) (rowBytes (s.tab u)) then s.abandonMove tile u loc e
    else if s.writePending tile u loc then s.count 0x03B tile 1
    else
      let st := if e.st = 1 then 2 else 4
      let s := s.setDir tile u loc (some { e with
        st := st, phase := 0, log := 0, stale := false, flipped := s.ream.sweeps, held := false })
      let s := { s with gat := { s.gat with flips := s.gat.flips ++ [(u, tile, loc, st)] } }
      s.count (if e.st = 1 then 0x038 else 0x039) tile 1

/-- Every entry of every directory: tile, table, local row. -/
def State.dirRows (s : State) : List (Nat × Nat × Nat) :=
  (s.gat.dirs.map fun d => d.2.map fun e => (d.1 / 1024, d.1 % 1024, e.1)).flatten

/-- Flips of a sweep boundary; a new sweep's moves are counted anew (R160, Table 7.6). -/
def State.flipMoves (s : State) : State :=
  let s := s.each s.dirRows fun s (t, u, l) => s.flipMove t u l
  { s with gat := { s.gat with moves := [] } }

/-- Abandon every unflipped move (R161). -/
def State.abandonMoves (s : State) : State :=
  s.each s.dirRows fun s (t, u, l) => match s.dirEnt t u l with
    | some e => if (e.st == 1 || e.st == 3) && !tPinned (s.tab u) then s.abandonMove t u l e else s
    | none => s

/-- A read of the row's tier-0 place is still on its way. -/
def State.readPending (s : State) (tile u place : Nat) : Bool :=
  s.gat.works.any fun g => g.tile == tile && g.table == u &&
    g.reading.any fun r => r.addr == s.placeAddr u tile place

/-- MIGRATION_RELEASE (R162). -/
def execMigrationRelease (tile table loc : Nat) (s : State) : Host.Outcome State Fault Refusal :=
  .next (match s.dirEnt tile table loc with
    | none => s
    | some e =>
      if e.st != 4 || s.ream.sweeps ≤ e.flipped then s
      else if s.readPending tile table e.place then
        if e.held then s
        else (s.setDir tile table loc (some { e with held := true })).count 0x03C tile 1
      else s.setDir tile table loc none)

/-- MIG_CTRL_ENABLE_CLEAR (R161, Table 7.6): a word written to MIG_CTRL. -/
def execMigCtrlEnableClear (value : Word) (s : State) : Host.Outcome State Fault Refusal :=
  let s := s.store migCtrl 0xFF01 value
  .next (if s.migOn then s else s.abandonMoves)

/-- Write a stale row back to its home, with its marks, and clear the bit (R157), unless its tile's
maintenance waits (R175). -/
def State.writeBackRow (s : State) (tile u loc : Nat) : State :=
  match s.dirEnt tile u loc with
  | none => s
  | some e =>
    if !e.stale || s.hotTile tile then s
    else
      let s := s.drainWb tile
      let s := s.moveRow (s.placeAddr u tile e.place) (t1Addr (s.homeAddr u tile loc)) (rowBytes (s.tab u))
      s.setDir tile u loc (if tPinned (s.tab u) then none else some { e with stale := false })

/-- STALE_ROW_WRITE_BACK (R157, R175). -/
def execStaleRowWriteBack (tile table loc : Nat) (s : State) : Host.Outcome State Fault Refusal :=
  .next (s.writeBackRow tile table loc)

/-- Every stale row goes to its home (R163, R164, R326). -/
def State.writeBackAll (s : State) : State :=
  s.each s.dirRows fun s (t, u, l) => s.writeBackRow t u l

/-- Some row is still stale: its write-back waits (R175). -/
def State.staleLeft (s : State) : Bool := s.gat.dirs.any fun d => d.2.any fun e => e.2.stale

end Sys2Proof.Machine
end

