-- ==== Sys2Proof/Machine/VaultOps.lean ====
section
/-! DEFINITION. The vault log's shared operations (R186, R187, R318 to R320): forming a record,
appending it, and the records that firmware appends on its own. -/

namespace Sys2Proof.Machine

def State.setVault (s : State) (v : Vault) : State := { s with rel := { s.rel with vault := v } }
def State.modVault (s : State) (f : Vault → Vault) : State := s.setVault (f s.rel.vault)

/-- Bytes of the log region, of an erase block, of the flush reserve; erase blocks of the vault (R186,
R187). -/
def logRegion : Nat := 1792 * 2 ^ 30
def eraseBlock : Nat := 2 ^ 22
def flushReserve : Nat := 2 ^ 35
def vaultBlocks : Nat := 2 ^ 19

/-- Bytes a record takes: whole 4 KiB units (R318). -/
def VRec.size (r : VRec) : Nat := 4096 * cdiv (64 + r.body.length) 4096
def Vault.used (v : Vault) : Nat := (v.log.map VRec.size).foldl (· + ·) 0

/-- Erased bytes ahead of the head; a vault that has not been mounted holds an empty log and every
good block erased. -/
def Vault.free (v : Vault) : Nat := v.erased.getD (eraseBlock * (vaultBlocks - v.retired))

/-- TABLE_ID (Table 15.4). -/
def State.tableId (s : State) : Bytes :=
  sm3 ((List.range (hTables s.ream.hdr)).map s.tab).flatten

/-- The last UPD_STEP given; all ones before step 0 (R164). -/
def State.lastStep (s : State) : Nat := if s.ream.updStep = 0 then allOnes64 else s.ream.updStep - 1

/-- Header of a record (Table 15.3). -/
def VRec.header (r : VRec) : Bytes :=
  withCrc (natLe 4 0x4C564E59 ++ natLe 1 r.kind ++ natLe 1 r.source ++ natLe 2 r.table ++ natLe 8 r.lsn
    ++ natLe 8 r.step ++ natLe 4 r.body.length ++ natLe 4 r.boot ++ fit 14 r.salt ++ zeros 2
    ++ fit 12 r.iv)

/-- Units of the log region, which the head goes round (R186). -/
def logUnits : Nat := logRegion / 4096

/-- A record is written at the head of the log. -/
def Vault.put (v : Vault) (r : VRec) : Vault :=
  { v with
    log := v.log ++ [{ r with unit := v.next }], next := (v.next + r.size / 4096) % logUnits
    erased := some (v.free - r.size) }

/-- What the flash holds of a record: its 4 KiB units, each under the vault key with its flash address for tweak (R188,
R318). -/
def State.vaultStored (s : State) (r : VRec) : List Bytes :=
  (List.range (r.size / 4096)).map fun i =>
    xts s.sec.vaultKey ((r.unit + i) % logUnits) (fit 4096 ((r.header ++ r.body).drop (4096 * i)))

/-- Append a record of this module: LSN, STEP and BOOT are filled in, and VAULT_BYTES counts. -/
def State.putRec (s : State) (r : VRec) : State :=
  let v := s.rel.vault
  let r := { r with lsn := v.lsn, step := s.lastStep, boot := s.rel.boots, ream := s.tableId }
  (s.setVault { v.put r with lsn := v.lsn + 1 }).count 0x04A 0 r.size

/-- Appending `n` bytes would eat into the flush reserve or overwrite the log (R187, R319). -/
def Vault.mustWait (v : Vault) (n : Nat) : Bool := v.free < flushReserve + n || logRegion < v.used + n

/-- Which append this is, while it waits: the kind and the table of its first record. -/
def waitKey (rs : List VRec) : Nat :=
  match rs with
  | [] => 0
  | r :: _ => 2 ^ 16 * r.kind + r.table

/-- An append waits: VAULT_WAIT counts it once (R319, R337). -/
def State.vaultWait (s : State) (k : Nat) : State :=
  if s.rel.vault.waits.contains k then s
  else (s.modVault fun v => { v with waits := k :: v.waits }).count 0x0B7 0 1

/-- Append records, or wait (R187, R319). -/
def State.append (s : State) (rs : List VRec) : State :=
  if s.rel.vault.mustWait ((rs.map VRec.size).foldl (· + ·) 0) then s.vaultWait (waitKey rs)
  else (s.modVault fun v => { v with waits := v.waits.filter (· != waitKey rs) }).each rs State.putRec

/-- Append records and then change the state, unless they wait. -/
def State.appendThen (s : State) (rs : List VRec) (f : State → State) : State :=
  let t := s.append rs
  if t.rel.vault.lsn = s.rel.vault.lsn then t else f t

/-! ### What is protected (R319) -/

/-- Index of the BASE_BEGIN of the newest complete base pass of a source among the first `n` records. -/
def baseAt (log : List VRec) (source serial n : Nat) : Option Nat :=
  ((log.take n).zipIdx.foldl (fun (start, done) (r, i) =>
    if r.source != source || r.serial != serial then (start, done)
    else if r.kind = 4 then (some i, done)
    else if r.kind = 5 then (start, if start.isSome then start else done)
    else (start, done)) ((none : Option Nat), (none : Option Nat))).2

/-- First record the log head must not overwrite: of each source the BASE_BEGIN of its newest complete base pass, and
every DIGESTS record with the base pass it depends on. -/
def Vault.firstKept (v : Vault) : Nat :=
  let srcs := (v.log.map fun r => (r.source, r.serial)).eraseDups
  let digests := (v.log.zipIdx.filter fun (r, _) => r.kind == 8).map fun (r, n) =>
    (baseAt v.log r.source r.serial n).getD n
  ((srcs.filterMap fun (a, b) => baseAt v.log a b v.log.length) ++ digests).foldl Nat.min v.log.length

/-! ### Rows (R319, R320) -/

/-- The segment a table is homed in. -/
def State.homeSeg (s : State) (u : Nat) : Option Seg := s.heldSeg s.ream.owner (tT1Seg (s.tab u))

/-- Row number field of a ROWS record: local row, shard in bits [39:34]. -/
def State.rowField (s : State) (u tile loc : Nat) : Nat :=
  loc + 2 ^ 34 * ((shardTiles (s.tab u)).idxOf tile)

/-- A ROWS payload of rows (tile, local row), each read whole where it lives now. -/
def State.rowsBody (s : State) (u : Nat) (rows : List (Nat × Nat)) : Bytes :=
  (rows.map fun (t, l) => natLe 8 (s.rowField u t l)).flatten
    ++ (rows.map fun (t, l) => s.mem.readN (s.rowAddr t u l) (rowBytes (s.tab u))).flatten

/-- The slot whose storage key seals what leaves of a table: that of its sealed segment (R209). -/
def State.sealSlot (s : State) (u : Nat) : Option Slot :=
  (s.homeSeg u).bind fun v => if v.sealed then some (s.slot v.bindSlot) else none

/-- A table is homed in a sealed segment. -/
def State.sealedTable (s : State) (u : Nat) : Bool := (s.sealSlot u).isSome

/-- A record of contents of a table: kind `plain`, or where the table's segment is sealed kind `shut`, the payload GCM
ciphertext under the storage key, with a fresh salt and IV, followed by its tag (R188, R209, R320). The spec names no
additional data of that message, and the model has none (assumption 138, DESIGN CHOICE). -/
def State.storeRec (s : State) (u plain shut : Nat) (body : Bytes) : State × VRec :=
  match s.sealSlot u with
  | some k =>
    let (fs, s) := s.freeVals 26
    let bytes := fs.map (BitVec.ofNat 8)
    let salt := bytes.take 14
    let iv := bytes.drop 14
    let key := deriveKey k.alg k.outputKey 0x56 salt
    let ct := gcmEnc k.alg key iv body
    (s, { kind := shut, table := u, salt := salt, iv := iv, keyId := k.keyId, body := ct ++ gcmTag k.alg key iv [] ct })
  | none => (s, { kind := plain, table := u, body := body })

/-- A record of rows, read in their tiers' maintenance (R182), sealed where the table's segment is (R209, R320). -/
def State.rowsRec (s : State) (u : Nat) (rows : List (Nat × Nat)) : State × VRec :=
  let s := s.each rows fun s (t, l) =>
    let a := s.rowAddr t u l
    if isT1 a then s.rebuildIn (a - t1Addr 0) (rowBytes (s.tab u)) else s
  let body := s.rowsBody u rows
  let keys := rows.map fun (t, l) => (rowKey u t l, (FMap.find s.gat.dirty (rowKey u t l)).getD allOnes64)
  let (s, r) := s.storeRec u 1 2 body
  (s, { r with keys := keys })

/-- A row exists and reads without poison. -/
def State.rowReadable (s : State) (u t l : Nat) : Bool :=
  let b := s.tab u
  tKind b != 2 && (shardTiles b).contains t && decide (s.rowNumber u t l < tRows b)
    && !s.copyBad (s.rowAddr t u l) (rowBytes b)

/-! ### Flips, base passes, STEP and STATE (R319) -/

/-- One flip or directory entry of a FLIP record: table, shard, local row, new state, 4 bytes each but
the local row's 8, in 16 bytes. -/
def State.flipBytes (s : State) (u t l st : Nat) : Bytes :=
  natLe 2 u ++ natLe 1 ((shardTiles (s.tab u)).idxOf t) ++ natLe 1 st ++ zeros 4 ++ natLe 8 l

/-- FLIP records of flips or directory entries: one, and for each table homed in a sealed segment, whose directory is a
sealed region (R196), a sealed one of its own under that table's number (R209; assumption 138, DESIGN CHOICE). -/
def State.flipRecs (s : State) (fs : List (Nat × Nat × Nat × Nat)) : State × List VRec :=
  let bytes (fs : List (Nat × Nat × Nat × Nat)) : Bytes := (fs.map fun (u, t, l, st) => s.flipBytes u t l st).flatten
  let plain := fs.filter fun f => !s.sealedTable f.1
  let shut := fs.filter fun f => s.sealedTable f.1
  (shut.map (·.1)).eraseDups.foldl (fun (s, rs) u =>
    let (s, r) := State.storeRec s u 6 6 (bytes (shut.filter fun f => f.1 == u))
    (s, rs ++ [r])) (s, if plain.isEmpty then [] else [{ kind := 6, body := bytes plain }])

/-- Every directory entry of the ream. -/
def State.dirFlips (s : State) : List (Nat × Nat × Nat × Nat) :=
  (s.gat.dirs.map fun d => (d.2.filter fun _ => !tPinned (s.tab (d.1 % 1024))).map fun e =>
    (d.1 % 1024, d.1 / 1024, e.1, e.2.st)).flatten

/-- Rows of the resident ream's tables. -/
def State.rowTotal (s : State) : Nat :=
  ((List.range (hTables s.ream.hdr)).filter fun u => tKind (s.tab u) != 2).foldl (fun n u => n + tRows (s.tab u)) 0

/-- BASE_RATE allows base passes. -/
def State.baseOn (s : State) : Bool := s.regF 0xC0030 7 0 != 0

/-- A base pass ends when every row has been appended, and the next begins. Assumption 81, DEDUCED. -/
def State.baseNext (s : State) : State :=
  let id_ := s.tableId
  let start (s : State) : State :=
    let (s, rs) := s.flipRecs s.dirFlips
    s.appendThen ({ kind := 4, body := id_ } :: rs) fun t =>
      t.modVault fun v => { v with base := some [] }
  if !s.ream.resident || s.ream.hdr.isEmpty || !s.baseOn then s
  else match s.rel.vault.base with
    | none => start s
    | some done =>
      if done.length < s.rowTotal then s
      else
        s.appendThen [{ kind := 5, body := id_ }] fun t =>
          start (t.modVault fun v => { v with base := none })

/-- The step up to which every changed row has been appended, if any. -/
def State.stepDone (s : State) : Option Nat :=
  let open_ := (s.posts.filter fun p => p.2.commit == 1 || p.2.commit == 2).filterMap (·.2.step)
  let lim := (s.gat.since.map (·.2) ++ open_).foldl Nat.min s.ream.updStep
  if lim = 0 then none else some (lim - 1)

/-- A STEP record for s: the step, and stream 1's position of every tile after it. -/
def State.stepBody (s : State) (n : Nat) : Bytes :=
  natLe 8 n ++ ((List.range 72).map fun t =>
    natLe 8 (if (s.updTables t).isEmpty then (s.counter 0x011 (2 * t + 1)).toNat else s.blockStart t n 1024)).flatten

/-- The STEP record that follows when every row of the steps up to s has been appended. -/
def State.stepNext (s : State) : State :=
  match s.stepDone with
  | none => s
  | some n =>
    let old := match s.rel.vault.step with
      | some m => decide (n ≤ m)
      | none => false
    if old then s
    else
      s.appendThen [{ kind := 3, body := s.stepBody n }] fun t =>
        t.modVault fun v => { v with step := some n }

/-- Payload of a STATE record (Table 15.5), in the model's own widths: TABLE_ID 32, SWEEP_COUNT 8,
UPD_STEP 8, ESC_STATE 4, active version 4; per tile the key twice and both positions, 8 each.
Assumption 80, DESIGN CHOICE. -/
def State.stateBody (s : State) : Bytes :=
  s.tableId ++ natLe 8 s.ream.sweeps ++ natLe 8 s.ream.updStep ++ natLe 4 s.ream.esc.toNat
    ++ natLe 4 s.ream.act.num
    ++ ((List.range 72).map fun t =>
      let k := natLe 8 (s.tile t).streamKey.toNat
      k ++ k ++ natLe 8 (s.counter 0x011 (2 * t)).toNat ++ natLe 8 (s.counter 0x011 (2 * t + 1)).toNat).flatten

/-- Forget the flips that a FLIP record has taken. -/
def State.appendFlips (s : State) : State :=
  if s.gat.flips.isEmpty then s
  else
    let (s, rs) := s.flipRecs s.gat.flips
    s.appendThen rs fun t => { t with gat := { t.gat with flips := [] } }

/-- Append rows of one table: dirty ones, and those a base pass has not appended yet. -/
def State.appendRows (s : State) (u : Nat) (rows : List (Nat × Nat)) : State :=
  let want (t l : Nat) : Bool :=
    let k := rowKey u t l
    (FMap.find s.gat.dirty k).isSome || s.baseOn && match s.rel.vault.base with
      | some done => !done.contains k
      | none => false
  let rows := ((rows.eraseDups).filter fun (t, l) => s.rowReadable u t l && want t l).take 4096
  if rows.isEmpty then s
  else
    let (s, r) := s.rowsRec u rows
    s.appendThen [r] fun t =>
      let ks := rows.map fun (a, l) => rowKey u a l
      let t := { t with gat := { t.gat with since := t.gat.since.filter fun e => !ks.contains e.1 } }
      t.modVault fun v => { v with base := v.base.map fun done => (done ++ ks).eraseDups }

/-- Append a STATE record, or hold it until there is room: each is an append of its own (R319). -/
def State.appendState (s : State) : State :=
  let r : VRec := { kind := 9, body := s.stateBody }
  if s.rel.vault.mustWait r.size then (s.modVault fun v => { v with held := v.held ++ [r] }).count 0x0B7 0 1
  else s.putRec r

/-- The STATE records that wait are appended as far as there is room. -/
def State.appendHeld (s : State) : State :=
  s.each s.rel.vault.held fun s r =>
    if s.rel.vault.mustWait r.size then s else (s.modVault fun v => { v with held := v.held.drop 1 }).putRec r

/-- Dirty rows of a table: tile and local row. -/
def State.dirtyRows (s : State) (u : Nat) : List (Nat × Nat) :=
  (s.gat.dirty.filter fun e => rowKeyTable e.1 == u).map fun e => (e.1 / 2 ^ 34 % 128, e.1 % 2 ^ 34)

/-- Append every dirty row, in records of 4,096, into the reserve of a power-loss flush (R187, R321). -/
def State.flushRows (s : State) : State :=
  s.each (List.range (hTables s.ream.hdr)) fun s u =>
    let rows := (s.dirtyRows u).filter fun (t, l) => s.rowReadable u t l
    s.each (List.range (cdiv rows.length 4096)) fun s i =>
      let (s, r) := s.rowsRec u ((rows.drop (4096 * i)).take 4096)
      s.putRec r

/-- Every record is durable, and no row is dirty. -/
def State.allDurable (s : State) : State :=
  let log : List VRec := s.rel.vault.log.map fun r => { r with durable := true }
  ({ s with gat := { s.gat with dirty := [], since := [] } }).modVault fun v => { v with log := log }

end Sys2Proof.Machine
end

