-- ==== Sys2Proof/Machine/Commit.lean ====
section
/-! DEFINITION. TABLE_COMMIT and CHECKPOINT (R164, R324, R326), and the shard digests that a restore
compares (R328, R329). -/

namespace Sys2Proof.Machine

/-- Tables with rows of their own, and their shards, in table then shard order. -/
def State.shardList (s : State) : List (Nat × Nat) :=
  (((List.range (hTables s.ream.hdr)).filter fun u => tKind (s.tab u) != 2).map fun u =>
    (shardTiles (s.tab u)).map fun t => (u, t)).flatten

/-- SM3 over a shard's rows in local row order, each whole, as they lie in their homes. -/
def State.shardDigest (s : State) (u t : Nat) : Bytes :=
  let b := s.tab u
  let rows := (List.range (shardRows b)).filter fun l => s.rowNumber u t l < tRows b
  sm3 ((rows.map fun l => s.mem.readN (t1Addr (s.homeAddr u t l)) (rowBytes b)).flatten)

def State.digestsAll (s : State) : Bytes := (s.shardList.map fun (u, t) => s.shardDigest u t).flatten

/-- The digest list a CHECKPOINT writes: C and TABLE_ID in a 64-byte header, then the digests, those of
tables homed in sealed segments as zero. -/
def State.digestList (s : State) (c : Nat) : Bytes :=
  natLe 8 c ++ s.tableId ++ zeros 24 ++ (s.shardList.map fun (u, t) =>
    match s.homeSeg u with
    | some v => if v.sealed then zeros 32 else s.shardDigest u t
    | none => s.shardDigest u t).flatten

/-- Some update post with a step at or below C has not completed. -/
def State.stepsOpen (s : State) (c : Option Nat) : Bool :=
  match c with
  | none => false
  | some n => s.posts.any fun p => match p.2.step with
    | some m => decide (m ≤ n)
    | none => false

/-- Every change of the steps is in the log: rows, flips, and the STEP record. -/
def State.appendAll (s : State) : State :=
  let s := s.appendFlips
  let s := s.each (List.range (hTables s.ream.hdr)) fun s u =>
    let rows := (s.dirtyRows u).filter fun (t, l) => (FMap.find s.gat.since (rowKey u t l)).isSome
    s.each (List.range (cdiv rows.length 4096)) fun s i => s.appendRows u ((rows.drop (4096 * i)).take 4096)
  s.stepNext

/-- Some readable row's change has not been appended. -/
def State.rowsLeft (s : State) : Bool :=
  s.gat.since.any fun e => s.rowReadable (rowKeyTable e.1) (e.1 / 2 ^ 34 % 128) (e.1 % 2 ^ 34)

/-- The records of a commit for C, in order: COMMIT, and of a CHECKPOINT DIGESTS and STATE (R164, R326). -/
def State.commitRecs (s : State) (m : Commit) (c : Nat) : List VRec :=
  { kind := 7, body := natLe 8 c } ::
    if m.check then [{ kind := 8, body := natLe 8 c ++ s.digestsAll }, { kind := 9, body := s.stateBody }] else []

/-- The digests of a CHECKPOINT are written out, and the command completes (R326 steps 6 and 7). -/
def State.checkpointEnd (s : State) (m : Commit) (c : Nat) : State :=
  match s.cmd? m.cmd with
  | none => s
  | some x =>
    let s := s.openRange x.part (x.f 16 1) (x.f 24 6) (s.digestList c).length false
    let s := s.writeSeg (.result m.cmd) x.part (x.f 16 1) (x.f 24 6) (s.digestList c) []
    let s := { s with rel := { s.rel with commit := none } }
    let lost := s.cutOff x
    s.finish m.cmd (if lost then stXferFail else stOk) c

/-- Host-cached lines of the place a CHECKPOINT's digests go to (R260). -/
def State.digestLines (s : State) (m : Commit) : List Nat :=
  match s.cmd? m.cmd with
  | some x => if m.check then s.segLines x.part (x.f 16 1) (x.f 24 6) (s.digestList (m.c.getD allOnes64)).length else []
  | none => []

/-- The commit or checkpoint that runs goes on once its steps have completed (R164, R326). It waits on
where the log makes its changes wait, or heat makes a write-back wait (R175). -/
def State.commitGo (s : State) : State :=
  match s.rel.commit with
  | none => s
  | some m =>
    if s.stepsOpen m.c then s
    else
      let s := s.writeBackAll.appendAll
      let c := m.c.getD allOnes64
      if s.staleLeft || s.rowsLeft || !s.gat.flips.isEmpty then s
      else if !(s.digestLines m).isEmpty then s.snoop (s.digestLines m)
      else s.appendThen (s.commitRecs m c) fun s =>
        if m.check then s.checkpointEnd m c
        else ({ s with rel := { s.rel with commit := none } }).finish m.cmd stOk c

/-- A TABLE_COMMIT or CHECKPOINT begins: C is the last step given since the load, and none where none was. -/
def State.commitStart (s : State) (k : Nat) (check : Bool) : State :=
  let c := if s.ream.stepped then some (s.ream.updStep - 1) else none
  { s.setPhase k .running with rel := { s.rel with commit := some { cmd := k, check := check, c := c } } }

/-- TABLE_COMMIT (R164). -/
def execTableCommit (ring seq : Nat) (s : State) : Host.Outcome State Fault Refusal :=
  let k := cmdKey ring seq
  .next (s.front k 0x13 fun s _ =>
    if s.rel.commit.isSome then s.finish k stCommitBusy else s.commitStart k false)

/-- CHECKPOINT (R326). -/
def execCheckpoint (ring seq : Nat) (s : State) : Host.Outcome State Fault Refusal :=
  let k := cmdKey ring seq
  .next (s.front k 0x51 fun s c =>
    if !s.ream.resident then s.finish k stNoReam
    else if c.part != s.ream.owner then s.finish k stNoAccess
    else if c.f 32 4 < 64 + 32 * s.shardList.length then s.finish k stBounds
    else if s.rel.commit.isSome then s.finish k stCommitBusy
    else s.commitStart k true)

/-- COMMIT_STEPS_DRAINED (R164, R326). -/
def execCommitStepsDrained (s : State) : Host.Outcome State Fault Refusal := .next s.commitGo

end Sys2Proof.Machine
end

