-- ==== Sys2Proof/Machine/Beater.lean ====
section
/-! DEFINITION. The beater's decoding of coded blocks and streams (R211 to R214). -/

namespace Sys2Proof.Machine

/-- Element size in bytes, exponent width and significand width of a coded format (Table 9.9). -/
def beatFmt (f : Nat) : Option (Nat × Nat × Nat) :=
  if f = 0x04 then some (1, 4, 3) else if f = 0x05 then some (1, 5, 2)
  else if f = 0x0A then some (2, 8, 7) else if f = 0x0B then some (4, 8, 23) else none

def kFmt (b : Bytes) : Nat := fld b 0 1
def kMode (b : Bytes) : Nat := fld b 1 1
def kRaw (b : Bytes) : Nat := fld b 2 2
def kSeq (b : Bytes) : Nat := fld b 4 4
def kExp (b : Bytes) : Nat := fld b 8 2
def kRes (b : Bytes) : Nat := fld b 10 2

/-- Sheets a block occupies (R211). -/
def blockSheets (b : Bytes) : Nat :=
  if kMode b = 0 then cdiv (16 + kRaw b) 256 else cdiv (40 + kExp b + kRes b) 256

/-- Header faults of R213, with the size limit of R211. -/
def blockHeadBad (seq : Nat) (b : Bytes) : Bool :=
  b.length < 16 || !crcOkAt b 12 || (match beatFmt (kFmt b) with
    | none => true
    | some (sz, _, _) => kRaw b % sz != 0)
  || 1 < kMode b || kRaw b = 0 || 4096 < kRaw b || kSeq b != seq
  || (kMode b == 1 && (cdiv (16 + kRaw b) 256 < blockSheets b || fld b 38 2 != 0))

/-- LEN of symbol i. -/
def codeLen (b : Bytes) (i : Nat) : Nat := bitsOf (fld b (16 + i / 2) 1) (4 * (i % 2) + 3) (4 * (i % 2))

/-- Sum of 2^(15 - LEN) over the used symbols: above 2^15 the code is oversubscribed. -/
def kraft (b : Bytes) : Nat :=
  ((List.range 16).map fun i => if codeLen b i = 0 then 0 else 2 ^ (15 - codeLen b i)).foldl (· + ·) 0

/-- Canonical codes (R212): (symbol, length, code), by length and then by number. -/
def canonCodes (b : Bytes) : List (Nat × Nat × Nat) :=
  let syms := ((List.range 16).map fun l => (List.range 16).filter fun i =>
    codeLen b i == l && l != 0).flatten
  (syms.foldl (fun (acc, next, last) i =>
    let l := codeLen b i
    let c := next <<< (l - last)
    (acc ++ [(i, l, c)], c + 1, l)) (([] : List (Nat × Nat × Nat)), 0, 0)).1

/-- Bit `i` of the exponent stream, from bit 0 of its byte 0 upward. -/
def streamBit (b : Bytes) (i : Nat) : Nat := bitsOf (fld b (40 + i / 8) 1) (i % 8) (i % 8)

/-- The next code: its symbol and the position past it; the code's leading bit comes first. -/
def nextSym (b : Bytes) (codes : List (Nat × Nat × Nat)) (lim : Nat) :
    Nat → Nat → Nat → Nat → Option (Nat × Nat)
  | 0, _, _, _ => none
  | k + 1, pos, len, v =>
    if lim ≤ pos then none
    else
      let v := 2 * v + streamBit b pos
      match codes.find? fun c => c.2.1 == len + 1 && c.2.2 == v with
      | some c => some (c.1, pos + 1)
      | none => nextSym b codes lim k (pos + 1) (len + 1) v

/-- Residual field `r` of a block: sign and significand. -/
def residual (b : Bytes) (sz m r : Nat) : Nat × Nat :=
  let base := 40 + kExp b
  let x := if sz = 4 then fld b (base + 3 * r) 3 else if sz = 2 then fld b (base + r) 1
    else bitsOf (fld b (base + r / 2) 1) (4 * (r % 2) + 3) (4 * (r % 2))
  let top := if sz = 4 then 23 else if sz = 2 then 7 else 3
  (x / 2 ^ top, if sz = 1 ∧ m = 2 then x % 8 else x % 2 ^ m)

/-- Residual bytes of `n` residual fields. -/
def residualBytes (sz n : Nat) : Nat := if sz = 4 then 3 * n else if sz = 2 then n else cdiv n 2

/-- `decode` of R212: the elements' bytes from a stream position and residual number on. -/
def decodeElems (b : Bytes) (codes : List (Nat × Nat × Nat)) (sz w m : Nat) :
    Nat → Nat → Nat → Option Bytes
  | 0, pos, r =>
    if cdiv pos 8 = kExp b && residualBytes sz r = kRes b then some [] else none
  | k + 1, pos, r =>
    let lim := 8 * kExp b
    match nextSym b codes lim 15 pos 0 0 with
    | none => none
    | some (s, pos) =>
      if s = 0 then (decodeElems b codes sz w m k pos r).map (natLe sz 0 ++ ·)
      else
        let raw := (List.range w).foldl (fun x i => x + streamBit b (pos + i) * 2 ^ i) 0
        let x := if s = 15 then raw else fld b (24 + s - 1) 1
        let pos' := if s = 15 then pos + w else pos
        let (sg, sig) := residual b sz m r
        if lim < pos' || 2 ^ w ≤ x || 2 ^ m ≤ sig || kRes b < residualBytes sz (r + 1) then none
        else (decodeElems b codes sz w m k pos' (r + 1)).map
          (natLe sz (sg * 2 ^ (w + m) + x * 2 ^ m + sig) ++ ·)

/-- One block as decoded (R212); none where it is bad (R213). -/
def decodeBlock (seq : Nat) (b : Bytes) : Option Bytes :=
  if blockHeadBad seq b then none
  else match beatFmt (kFmt b) with
    | none => none
    | some (sz, w, m) =>
      if b.length < (if kMode b = 0 then 16 + kRaw b else 40 + kExp b + kRes b) then none
      else if kMode b = 0 then some ((b.drop 16).take (kRaw b))
      else if kraft b = 0 || 2 ^ 15 < kraft b then none
      else decodeElems b (canonCodes b) sz w m (kRaw b / sz) 0 0

/-- Decode a stream of blocks from block `seq` on until `left` raw bytes are made: every block
but the last has 4,096 bytes (R211). -/
def decodeStream : Nat → Nat → Nat → Bytes → Option Bytes
  | 0, _, left, _ => if left = 0 then some [] else none
  | k + 1, seq, left, b =>
    if left = 0 then some []
    else match decodeBlock seq b with
      | none => none
      | some raw =>
        if left < raw.length || (raw.length != 4096 && raw.length != left) then none
        else (decodeStream k (seq + 1) (left - raw.length) (b.drop (256 * blockSheets b))).map (raw ++ ·)

/-- Sheets of each block of a stream that makes `left` raw bytes. -/
def streamSheets : Nat → Nat → Bytes → List Nat
  | 0, _, _ => []
  | k + 1, left, b =>
    if left = 0 || kRaw b = 0 then []
    else blockSheets b :: streamSheets k (left - kRaw b) (b.drop (256 * blockSheets b))

/-- A whole coded stream of `raw` bytes. -/
def decodeAll (raw : Nat) (b : Bytes) : Option Bytes := decodeStream (cdiv raw 4096 + 1) 0 raw b

/-- Raw sheets that a poisoned sheet of the stream marks: those of its block. -/
def codedPoison (raw : Nat) (b : Bytes) (poison : List Nat) : List Nat :=
  let sizes := streamSheets (cdiv raw 4096 + 1) raw b
  (sizes.zipIdx.foldl (fun (out, at0) (n, i) =>
    (if poison.any fun x => at0 ≤ x && x < at0 + n then
       out ++ (List.range 16).map (16 * i + ·) else out, at0 + n)) (([] : List Nat), 0)).1

end Sys2Proof.Machine
end

