-- ==== Sys2Proof/Machine/CheckWord.lean ====
section
/-! DEFINITION. What the load judges of one instruction word and one PROGRAM record (R62, R63, R66,
R67, R75, R79, R83, R89 to R91, R95, R110, R115 to R119, R135, R151). -/

namespace Sys2Proof.Machine

/-! ### Reasons (Table 2.3) -/

def rBadCheck : Nat := 1
def rBadFormat : Nat := 2
def rTileDisabled : Nat := 3
def rSlotConflict : Nat := 4
def rRefreshShort : Nat := 5
def rMaintShort : Nat := 6
def rResource : Nat := 7
def rTiming : Nat := 8
def rPower : Nat := 9
def rPatchBase : Nat := 0xA
def rPatchScope : Nat := 0xB
def rMoveTarget : Nat := 0xC
def rGrant : Nat := 0xD

/-- A reason where a condition fails. -/
def why (c : Bool) (r : Nat) : List Nat := if c then [r] else []

/-- The reason of lowest code (R37). -/
def least : List Nat → Option Nat
  | [] => none
  | a :: as => match least as with
    | none => some a
    | some b => some (Nat.min a b)

/-- Scratchpad lines (R62). -/
def spLines : Nat := 24576
def isLine (n : Nat) : Bool := n < spLines

/-! ### Words -/

/-- Reserved bytes and flag fields of Table 3.3. -/
def headBad (w : Bytes) : Bool :=
  !zeroAt w 1 3 || !zeroAt w 11 1 || !zeroAt w 28 4 || 15 < iRel w
    || [iIn w 0, iIn w 1, iIn w 2, iIn w 3, iOut w 0, iOut w 1].any fun f => 63 < f && f != 0xFF

/-- A scale region against Table 4.2: 0 none, 1 optional, 2 required. -/
def scaleNeed (int : Bool) (fmt : Nat) : Nat :=
  if int then 1 else if isMx fmt || fmt == 0x03 then 2 else 0

/-- FILL (R75, R91, R95). -/
def fillBad (w : Bytes) : Bool :=
  let c := fld w 22 1
  match fillClass (fFmtA w) (fFmtW w) with
  | none => true
  | some cl =>
    let int := cl == 0
    let na := if int || cl == 2 then 0 else scaleNeed false (fFmtA w)
    let nw := if cl == 2 then 0 else scaleNeed int (fFmtW w)
    let bad (need data scale : Nat) : Bool :=
      (need == 2 && scale == 0xFFFF) || (need == 0 && scale != 0xFFFF)
        || (scale != 0xFFFF && (!isLine scale || data == 0 || scale == 0))
    31 < c || fMode w != fillMode (fFmtA w) (fFmtW w) || 7 < fDk w || !zeroAt w 24 4
      || !isLine (fAct w) || !isLine (fWgt w)
      || bad na (fAct w) (fScaleA w) || bad nw (fWgt w) (fScaleW w)

/-- DECKLE (R79). -/
def deckleBad (w : Bytes) : Bool :=
  7 < fld w 12 1 || 1 < fld w 13 1 || 256 < fld w 14 2 || 15 < fld w 16 2 || 256 < fld w 18 2
    || 512 < fld w 20 2 || !zeroAt w 22 6

/-- FETCH and PUT (R83). -/
def xferBad (w : Bytes) : Bool :=
  let n := xSheets w
  3 < xClass w || n = 0 || 4096 < n || spLines < xLine w + n
    || (if isPut w then 7 < xDk w else xDk w != 0)
    || (if xClass w = 1 then xSeg w != 0xFF || 71 < xTile w || 2 ^ 15 ≤ xAddr w
          || spLines < xAddr w + n
        else xTile w != 0xFF || xAddr w % 256 != 0
          || !(xSeg w ≤ 7 || (xSeg w == 8 && xClass w == 0) || (xSeg w == 9 && 2 ≤ xClass w)))

/-- DISPATCH and GRAD_DISPATCH, COMBINE (R135, R151). -/
def dispatchBad (w : Bytes) : Bool := 1023 < fld w 12 2 || !zeroAt w 14 14
def combineBad (w : Bytes) : Bool :=
  1023 < fld w 12 2 || !isLine (fld w 14 2) || 15 < fld w 17 1 || 7 < fld w 18 1 || !zeroAt w 19 9

/-! ### Vector words (R115 to R119) -/

/-- A base that names an accumulator bank. -/
def isBank (b : Nat) : Bool := b = 0xFFF0 || b = 0xFFF1

/-- The highest SUB of an opcode (Table 5.3); ROTATE's lowest is 5. -/
def subMax (op : Nat) : Nat :=
  if op = 0x16 || op = 0x17 then 5 else if op = 0x18 then 3 else if op = 0x1D then 8
  else if op = 0x1E || op = 0x1F then 4 else 0

/-- Lines of a view of `rows` rows. -/
def lineSet (base stride fmt rows : Nat) : List Nat :=
  ((List.range (if stride = 0 then 1 else rows)).map fun r =>
    (List.range (rowLines fmt)).map fun i => base + r * stride + i).flatten

/-- Lines of the region B names where Table 5.3 gives it a fixed layout, tag line included. -/
def regionLines (w : Bytes) : List Nat :=
  let op := iOp w
  let b := vB w
  let mx (half : Nat) (f : Nat) : List Nat :=
    (b - 1) :: (List.range 8).map fun i => b + i + (if f = 0x08 && half = 1 then 8 else 0)
  if op = 0x19 then (List.range 5).map (b + ·)
  else if op = 0x1C then (List.range 6).map (b + ·)
  else if op = 0x1A && isMx (vAFmt w) then mx (vAHalf w) (vAFmt w)
  else if op = 0x1B then (if isMx (vOFmt w) then mx (vOHalf w) (vOFmt w) else (List.range 4).map (b + ·))
  else []

/-- B is a view of the opcode: those of Table 5.3, and AFFINE's two rows. -/
def bView (op : Nat) : Bool := bIsView op || op == 0x15

/-- Lines of the instruction's scratchpad views, 256 rows each whatever the opcode reads or writes of them (R116). -/
def viewSet (w : Bytes) : List Nat :=
  let set (b st f : Nat) : List Nat := if isBank b then [] else lineSet b st f 256
  set (vA w) (vAStride w) (vAFmt w) ++ (if bView (iOp w) then set (vB w) (vBStride w) (vBFmt w) else [])
    ++ set (vO w) (vOStride w) (vOFmt w)

/-- Lines the instruction writes, whatever ROWS is (R118). -/
def writeSet (w : Bytes) : List Nat :=
  lineSet (vO w) (vOStride w) (vOFmt w) (if iOp w = 0x1F then 1 else 256)
    ++ (if iOp w = 0x1B && isMx (vOFmt w) then (vO w - 1) :: regionLines w else [])

/-- Lines it reads as view A, and as B. -/
def readSetA (w : Bytes) : List Nat :=
  if isBank (vA w) then []
  else lineSet (vA w) (vAStride w) (vAFmt w) 256 ++ (if isMx (vAFmt w) then [vA w - 1] else [])
def readSetB (w : Bytes) : List Nat :=
  if bView (iOp w) then
    (if isBank (vB w) then [] else lineSet (vB w) (vBStride w) (vBFmt w) (if iOp w = 0x15 then 2 else 256))
  else if iOp w = 0x1B && isMx (vOFmt w) then [] else regionLines w

/-- O equals A in base, stride, row size and HALF, in a class that reads each row before it writes
it (R118). The exception covers every line: R118 names none it leaves out, neither B's nor the scale and tag lines an MX
QUANT writes over lines of A (assumption 119, DEDUCED). -/
def inPlace (w : Bytes) : Bool :=
  let op := iOp w
  op != 0x1E && op != 0x1F && vO w == vA w && vOStride w == vAStride w && fmtWidth (vOFmt w) == fmtWidth (vAFmt w)
    && vAHalf w == vOHalf w

/-- A format rule of R119 fails. -/
def vecFmtBad (w : Bytes) : Bool :=
  let op := iOp w
  let a := vAFmt w
  let o := vOFmt w
  !isVecFmt a || !isVecFmt o || (isMx a && op != 0x1A) || (isMx o && op != 0x1B)
    || (op == 0x1B && !(isMx o || o == 0x00 || o == 0x01))
    || (op == 0x1C && (a != 0x0C || !isIntFmt o || vSr w))

/-- B's fields against Table 5.3. B_STRIDE and B_FMT must be 0 where B is none, a scale region or the row of factors of
a QUANT to INT8 or INT4, as Table 5.1 has it of a fixed layout; Table 5.3 repeats it for FUNC and RESCALE only
(assumption 119, DEDUCED). -/
def vecBBad (w : Bytes) : Bool :=
  let op := iOp w
  if bView op then
    if isBank (vB w) then (vBFmt w != 0x0B && vBFmt w != 0x0C) || vBStride w != 0
    else vB w == 0xFFFF || !isVecFmt (vBFmt w) || isMx (vBFmt w)
  else
    vBStride w != 0 || vBFmt w != 0 ||
      (if (regionLines w).isEmpty then vB w != 0xFFFF
       else vB w == 0xFFFF || isBank (vB w)
        || (vB w == 0 && (isMx (vAFmt w) || isMx (vOFmt w))))

/-- A vector instruction (R117, R118). -/
def vecBad (w : Bytes) : Bool :=
  let op := iOp w
  let wr := writeSet w
  let ra := readSetA w
  let rb := readSetB w
  31 < vCtrl w || 7 < vDk w || (31 < vLayer w && vLayer w != 0xFF) || vecFmtBad w
    || isBank (vO w) || vO w == 0xFFFF || vOStride w < rowLines (vOFmt w)
    || (!(op == 0x1B && isMx (vOFmt w)) && (subMax op < vSub w || (op == 0x1D && vSub w < 5)))
    || (isBank (vA w) && ((vAFmt w != 0x0B && vAFmt w != 0x0C) || vAStride w != 0))
    || (vFreeA w && !isBank (vA w)) || (vFreeB w && !isBank (vB w)) || vecBBad w
    || (isMx (vAFmt w) && vA w == 0) || (isMx (vOFmt w) && vO w == 0)
    || (viewSet w).any (!isLine ·) || wr.any (!isLine ·) || ra.any (!isLine ·) || rb.any (!isLine ·)
    || ((ra ++ rb).any wr.contains && !inPlace w)

/-! ### Programs -/

/-- A word is a reserved encoding on its own. -/
def wordBad (w : Bytes) : Bool :=
  let op := iOp w
  headBad w ||
    (if op = 0x01 then fillBad w
     else if op = 0x03 then deckleBad w
     else if op = 0x04 || op = 0x05 then !zeroAt w 12 16
     else if 0x10 ≤ op && op ≤ 0x1F then vecBad w
     else if op = 0x30 || op = 0x32 then dispatchBad w
     else if op = 0x31 then combineBad w
     else if op = 0x38 || op = 0x39 then xferBad w
     else true)

/-- Entries of the rota, and those of a client (R63, R67). -/
def rota (b : Bytes) : List Nat :=
  (List.range 64).map fun i => bitsOf (fld b (32 + i / 2) 1) (4 * (i % 2) + 3) (4 * (i % 2))
def rotaOf (b : Bytes) (client : Nat) : Nat := ((rota b).filter (· == client)).length

/-- Bytes of the layer table, after the words (R110). -/
def layerBytes (b : Bytes) : Bytes := b.drop (64 + 32 * pCount b)

/-- Layer table entries with FLAGS and THRESH: LAYER, FLAGS, THRESH, FIRST, SPLIT, END. -/
def layerRows (b : Bytes) : List (Nat × Nat × Nat × Nat × Nat × Nat) :=
  let t := layerBytes b
  (List.range (fld t 0 4)).map fun i =>
    let e := (t.drop (16 + 16 * i)).take 16
    (fld e 0 1, fld e 1 1, fld e 2 2, fld e 4 2, fld e 6 2, fld e 8 2)

/-- Two entries clash: one layer, or ranges that meet. -/
def layerClash : List (Nat × Nat × Nat × Nat × Nat × Nat) → Bool
  | [] => false
  | (l, _, _, a, _, c) :: es =>
    es.any (fun (l', _, _, a', _, c') => l == l' || (decide (a < c') && decide (a' < c))) || layerClash es

/-- A layer table breaks R110 on its own: END is an instruction of the program, for the jump from SPLIT lands on it
(R67, R110). -/
def layersBad (b : Bytes) : Bool :=
  let t := layerBytes b
  if t.isEmpty then false
  else
    let n := fld t 0 4
    32 < n || t.length != 16 + 16 * n || !zeroAt t 4 12
      || (List.range n).any (fun i => !zeroAt t (26 + 16 * i) 6)
      || (layerRows b).any (fun (l, f, th, x, sp, e) =>
          31 < l || 1 < f || th == 0 || !(x < sp && sp < e && e < pCount b))
      || layerClash (layerRows b)

/-- STREAM in a test program: a FILL's operands but for ROWS and the output ring (R379). -/
def streamBad (w : Bytes) : Bool :=
  headBad w || fillBad (patchBytes w 24 (zeros 4)) || fld w 24 2 == 0 || !isLine (fld w 26 2)

/-- A word of a test program is a reserved encoding. -/
def testWordBad (w : Bytes) : Bool := if iOp w = 0x02 then streamBad w else wordBad w

/-- Reasons of a PROGRAM payload whose words are judged by `bad` (R63, R67, R83, R110), with the
enabled-tile mask. -/
def programWhyBy (bad : Bytes → Bool) (en : Nat) (b : Bytes) : List Nat :=
  let n := pCount b
  if b.length < 64 || n = 0 || 16384 < n || b.length < 64 + 32 * n then [rBadFormat]
  else
    let ws := pWords b
    why (n ≤ pEntry b || !zeroAt b 10 22 || spLines < pLine b + cdiv (32 * n) 256
        || (rota b).any (fun c => 8 < c && c != 15) || ws.any bad
        || iOp (pWord b (n - 1)) != 0x04 || layersBad b) rBadFormat
      ++ why (ws.any fun w => (isFetch w || isPut w) && xClass w == 1 && xTile w < 72
        && !en.testBit (xTile w)) rTileDisabled
      ++ why (rotaOf b 8 == 0 || (ws.any (iOp · == 0x01) && (rotaOf b 0 < 4 || rotaOf b 1 < 4))) rResource

/-- Reasons of a PROGRAM record. -/
def programWhy (en : Nat) (b : Bytes) : List Nat := programWhyBy wordBad en b

/-- Lines the words of a PROGRAM record occupy. -/
def programLines (b : Bytes) : Nat × Nat := (pLine b, cdiv (32 * pCount b) 256)

end Sys2Proof.Machine
end

