-- ==== Sys2Proof/Machine/CheckRec.lean ====
section
/-! DEFINITION. What the load judges of one record (step 3 of R37): stages, extents, slot tables,
tables, grants and moves. -/

namespace Sys2Proof.Machine

/-- Some tile of a mask is not enabled. -/
def maskOff (en m : Nat) : Bool := (maskTiles m).any fun t => !en.testBit t

/-! ### STAGE (Table 2.4), extents (R68) -/

def stGatherWc (b : Bytes) : Nat := fld b 20 4

def stageWhy (en stages idx : Nat) (b : Bytes) : List Nat :=
  why (stages ≤ idx || b.length != 32 || 1 < fld b 1 1 || !zeroAt b 2 2 || !zeroAt b 13 3
      || !zeroAt b 24 8 || stTiles b == 0) rBadFormat
    ++ why (maskOff en (stTiles b)) rTileDisabled
    ++ why (stResidency b == 0 || 4 < stResidency b || (stMovable b && 1 < stResidency b)) rTiming

def extentWhy (en idx : Nat) (b : Bytes) : List Nat :=
  why (71 < idx || b.isEmpty || (match extents b with
    | none => true
    | some es => es.any fun e => spLines < e.1 + e.2.length / 256)) rBadFormat
    ++ why (idx < 72 && !en.testBit idx) rTileDisabled

/-! ### FELT_SLOTS (R34) -/

/-- Router tables: entry c of tile t as a 64-bit number. -/
abbrev Felt := Array (Array Nat)

def feltOf (b : Bytes) : Felt :=
  let p := feltPeriod b
  ((chunks (8 * p) 72 (b.drop 16)).map fun t => ((chunks 8 p t).map leNat).toArray).toArray

def Felt.entry (f : Felt) (t c : Nat) : Nat := (f.getD t #[]).getD c 0
def Felt.kind (f : Felt) (c : Nat) : Nat := feKind (f.entry 0 c)

/-- The neighbour of a router at an output, and the input at which it is entered there. -/
def neighbour (t o : Nat) : Option (Nat × Nat) :=
  let r := t / 8
  let c := t % 8
  if o = 0 then (if r = 0 then none else some (t - 8, 1))
  else if o = 1 then (if r = 8 then none else some (t + 8, 0))
  else if o = 2 then (if c = 7 then none else some (t + 1, 3))
  else if o = 3 then (if c = 0 then none else some (t - 1, 2))
  else none

/-- Entry faults that give BAD_FORMAT. -/
def entryBad (t e : Nat) : Bool :=
  2 < feKind e || bitsOf e 63 48 != 0 ||
    (feKind e == 0 &&
      ((List.range 6).any (fun o => let s := feSel e o
          (5 < s && s != 15) || (s != 15 && (o < 4 && (neighbour t o).isNone || (o == 5 && 8 ≤ t))))
        || 4 < feSrc e
        || (if 8 ≤ t then feEdge e != 0xFF
            else [bitsOf (feEdge e) 3 0, bitsOf (feEdge e) 7 4].any fun d => 3 < d && d != 15)))

/-- A flit enters input i of router t in cycle c: 0 to 3 from a neighbour, 4 from the tile, 5 from the
edge. -/
def Felt.arrives (f : Felt) (p t c i : Nat) : Bool :=
  let e := f.entry t c
  if i < 4 then
    let c' := (c + p - 1) % p
    match neighbour t i with
    | none => false
    | some (n, o) => f.kind c' == 0 && feSel (f.entry n c') o != 15
  else if i = 4 then f.kind c == 0 && feSrc e != 0
  else t < 8 && f.kind c == 0 && bitsOf (feEdge e) 7 4 != 15

/-- SLOT_CONFLICT at router t in cycle c: a selector without a flit, or a flit without an output; a
flit that enters a router in a MAINT or COMMIT cycle leaves by none. -/
def Felt.conflict (f : Felt) (p t c : Nat) : Bool :=
  let e := f.entry t c
  let sels := if f.kind c = 0 then (List.range 6).map (feSel e) else []
  sels.any (fun i => i != 15 && !f.arrives p t c i)
    || (List.range 6).any fun i => f.arrives p t c i && !sels.contains i

/-- The lengths of the cyclic runs of a condition over p cycles; one run of p where all meet it. -/
def cycRuns (p : Nat) (q : Nat → Bool) : List Nat :=
  let start := ((List.range p).find? fun c => !q c).getD 0
  let (runs, last) := (List.range p).foldl (fun (rs, n) i =>
    if q ((start + i) % p) then (rs, n + 1) else ((if n = 0 then rs else n :: rs), 0)) (([] : List Nat), 0)
  if last = 0 then runs else last :: runs

/-- Smallest count of a condition in any cyclic window of w of the p entries. -/
def cycMin (p w : Nat) (q : Nat → Bool) : Nat :=
  let total := ((List.range p).filter q).length
  let r := w % p
  let first := ((List.range r).filter q).length
  let (_, m) := (List.range p).foldl (fun (n, m) i =>
    let n' := n + b2n (q ((i + r) % p)) - b2n (q i)
    (n', Nat.min m n')) (first, first)
  (w / p) * total + (if r = 0 then 0 else m)

def feltWhy (en interval maint idx : Nat) (b : Bytes) : List Nat :=
  let p := feltPeriod b
  if idx != 0 || p < 64 || 262144 < p || b.length != 16 + 576 * p || !zeroAt b 4 12 then [rBadFormat]
  else
    let f := feltOf b
    let cyc := List.range p
    let all (q : Nat → Nat → Bool) : Bool := cyc.any fun c => (List.range 72).any fun t => q t c
    why (all (fun t c => entryBad t (f.entry t c) || feKind (f.entry t c) != f.kind c)
        || (cycRuns p fun c => f.kind c == 2).any (· < 18)) rBadFormat
      ++ why (all fun t c => !en.testBit t && f.kind c == 0 &&
          (feSrc (f.entry t c) != 0 || (List.range 6).any fun o => feSel (f.entry t c) o != 15)) rTileDisabled
      ++ why (all fun t c => f.conflict p t c) rSlotConflict
      ++ why (cycMin p 1024 (fun c => f.kind c == 1) < maint) rMaintShort
      ++ why (interval % p != 0) rTiming

/-- The sender of the flit that leaves router t by the output whose selector is `i` in cycle c. -/
def Felt.trace (f : Felt) (p : Nat) : Nat → Nat → Nat → Nat → Option (Nat × Nat)
  | 0, _, _, _ => none
  | k + 1, t, c, i =>
    if i = 4 then some (t, feSrc (f.entry t c))
    else match neighbour t i with
      | none => none
      | some (n, o) =>
        let c' := (c + p - 1) % p
        Felt.trace f p k n c' (feSel (f.entry n c') o)

/-- Flits per period that tile `src`'s gather unit (L_SRC 4) delivers into tile `dst`. -/
def Felt.flits (f : Felt) (p src dst : Nat) : Nat :=
  ((List.range p).filter fun c =>
    f.kind c == 0 && feSel (f.entry dst c) 4 != 15 &&
      f.trace p 1024 dst c (feSel (f.entry dst c) 4) == some (src, 4)).length

/-- The table holds a run of COMMIT cycles. -/
def feltCommit (b : Bytes) : Bool :=
  let f := feltOf b
  (List.range (feltPeriod b)).any fun c => f.kind c == 2

/-! ### T0_SLOTS and T1_SLOTS (R171, R172, R181) -/

def t0Entries (b : Bytes) : Nat := fld b 0 2
/-- Rota of tile column k. -/
def t0Rota (b : Bytes) (k : Nat) : Array Nat :=
  let e := t0Entries b
  (((b.drop (16 + k * (e / 2))).take (e / 2)).map fun x => [x.toNat % 16, x.toNat / 16]).flatten.toArray

/-- 1 a read client, 2 a write client, 0 neither. -/
def rotaDir (x : Nat) : Nat := if x = 0 || x = 2 then 1 else if x = 1 || x = 3 then 2 else 0

/-- TURN entries are short somewhere: fewer than 2 between a read and the next write, or the reverse,
cyclically. -/
def turnShort (r : Array Nat) : Bool :=
  let l := r.toList ++ r.toList
  (l.foldl (fun (last, turns, bad) x =>
    let d := rotaDir x
    if d != 0 then (d, 0, bad || (last != 0 && last != d && turns < 2))
    else (last, turns + b2n (x == 5), bad)) (0, 0, false)).2.2

def t0Why (en idx : Nat) (b : Bytes) : List Nat :=
  let e := t0Entries b
  if 8 < idx || e < 256 || 8192 < e || !isPow2 e || b.length != 16 + 4 * e || !zeroAt b 2 14 then [rBadFormat]
  else
    let rs := (List.range 8).map (t0Rota b)
    let maint (r : Array Nat) (i : Nat) : Bool := r.getD i 0 == 4
    why (rs.any fun r => r.any fun x => 5 < x && x != 15) rBadFormat
      ++ why (bitsOf en (8 * idx + 7) (8 * idx) == 0) rTileDisabled
      ++ why (rs.any fun r => cycMin e e (maint r) < cdiv (72 * e) 1000 || cycMin e 128 (maint r) < 9
          || turnShort r) rRefreshShort

def t1Blocks (b : Bytes) : Nat := fld b 0 2
def t1Kind (b : Bytes) (i : Nat) : Nat := fld b (16 + 2 * i) 1
def t1Tile (b : Bytes) (i : Nat) : Nat := fld b (17 + 2 * i) 1

def t1Why (en idx : Nat) (b : Bytes) : List Nat :=
  let e := t1Blocks b
  if 3 < idx || e < 48 || 12288 < e || e % 3 != 0 || b.length != 16 + 2 * e || !zeroAt b 2 14 then [rBadFormat]
  else
    let is := List.range e
    why (is.any fun i => 3 < t1Kind b i ||
        (if t1Kind b i < 2 then t1Tile b i != 0xFF else 71 < t1Tile b i)) rBadFormat
      ++ why (is.any fun i => 2 ≤ t1Kind b i && t1Tile b i < 72 && !en.testBit (t1Tile b i)) rTileDisabled
      ++ why ((is.filter fun i => t1Kind b i == 1).length < cdiv e 25) rTiming

/-! ### TABLE (R127, R128, R148) -/

def gradFmtOk (f : Nat) : Bool := f == 0x0B || f == 0x0A || f == 0x07

/-- BUDGET and COLD_BUDGET against MAX_ENTRIES. -/
def budgetsOk (b : Bytes) (me : Nat) : Bool :=
  1 ≤ tBudget b && tBudget b ≤ Nat.max me 1 && tColdBudget b ≤ me

/-- Update parameters out of range (Table 7.1). -/
def updBad (b : Bytes) : Bool :=
  !gradFmtOk (tGradFmt b) || (tGradFmt b == 0x07 && tDim b % 32 != 0) || 2 < tOptKind b
    || !zeroAt b 97 1 || !zeroAt b 126 2 || tMaxGrads b == 0 || 16777216 < tMaxGrads b
    || tUpdBudget b == 0 || tMaxGrads b < tUpdBudget b || tMaxGrads b < tUpdCold b || 71 < tGradTile b

/-- Fields by KIND (Table 6.1, R105, R130). -/
def kindBad (b : Bytes) : Bool :=
  if tKind b = 2 then
    tRowFmt b != 0 || tSheets b != 0 || !zeroAt b 29 3 || 1 < fld b 28 1 || tDim b == 0
      || 4032 < tDim b || tModulus b == 0 || 2 ^ 40 < tModulus b
  else
    tModulus b != 0 || (tKind b == 0 && !zeroAt b 24 8) || !isRowFmt (tRowFmt b)
      || tSheets b == 0 || 4 < tSheets b || tDim b == 0 || 4032 < tDim b
      || (tRowFmt b == 0x22 && tDim b % 32 != 0)
      || 256 * tSheets b < rowElemBytes (tRowFmt b) (tDim b) + 16

def tableWhy (en tables idx : Nat) (b : Bytes) : List Nat :=
  let n := (shardTiles b).length
  let comp := tComponent b
  let off (t : Nat) : Bool := t < 72 && !en.testBit t
  why (tables ≤ idx || b.length != 128 || 2 < tKind b || 31 < tFlags b || !zeroAt b 49 7 || !zeroAt b 80 16
      || kindBad b || tRows b == 0 || 2 ^ 40 < tRows b || !(isPow2 n && n ≤ 64)
      || (tKind b != 2 && 2 ^ 34 < cdiv (tRows b) n) || 7 < tT1Seg b || tT1Base b % 256 != 0
      || (!comp && (71 < tDispTile b || 71 < tCombTile b || 16777216 < tMaxEntries b
            || !budgetsOk b (tMaxEntries b)))
      || (comp && tKind b == 2) || (!tPinned b && 2 ^ 23 < tT0Rows b)
      || (if tUpdatable b then updBad b || tKind b == 2 || comp
          else tGradFmt b != 0xFF || !zeroAt b 96 32)) rBadFormat
    ++ why (maskOff en (tShards b) || (!comp && (off (tDispTile b) || off (tCombTile b)))
        || (tUpdatable b && off (tGradTile b))) rTileDisabled

/-! ### GRANT and MOVE (Table 2.5, R57) -/

def grantWhy (idx : Nat) (b : Bytes) : List Nat :=
  why (idx != 0 || b.length != 256 || (List.range 16).any fun p => !zeroAt b (16 * p + 2) 6) rBadFormat

def mvStage (b : Bytes) : Nat := fld b 0 1
def mvSource (b : Bytes) : Nat := fld b 1 1
def mvTarget (b : Bytes) : Nat := fld b 2 1

def moveWhy (patch : Bool) (idx : Nat) (b : Bytes) : List Nat :=
  why (!patch || idx != 0 || b.length != 16 || !zeroAt b 3 13) rBadFormat

/-! ### Any record -/

/-- A control record's CRC covers its payload (R27). -/
def isControl (ty : Nat) : Bool := 1 ≤ ty && ty ≤ 10 && ty != 3 && ty != 4

/-- Reasons of a record's fields, given the records before it and the header. -/
def recWhy (en : Nat) (h : Bytes) (patch : Bool) (before : List Rec) (r : Rec) : List Nat :=
  let b := r.body
  why (before.any fun q => q.type == r.type && q.index == r.index) rBadFormat ++
    (if r.type = 1 then stageWhy en (hStages h) r.index b
     else if r.type = 2 then
       why (71 < r.index) rBadFormat ++ why (r.index < 72 && !en.testBit r.index) rTileDisabled
         ++ programWhy en b
     else if r.type = 3 || r.type = 4 then extentWhy en r.index b
     else if r.type = 5 then feltWhy en (hInterval h) (hMaint h) r.index b
     else if r.type = 6 then t0Why en r.index b
     else if r.type = 7 then t1Why en r.index b
     else if r.type = 8 then tableWhy en (hTables h) r.index b
     else if r.type = 9 then grantWhy r.index b
     else if r.type = 10 then moveWhy patch r.index b
     else [rBadFormat])

end Sys2Proof.Machine
end

