-- ==== Sys2Proof/Machine/CheckImage.lean ====
section
/-! DEFINITION. The check of a whole ream or patch image (R26, R27, R37, R54 to R57, R381 and the
cross-record conditions of R28, R29, R68, R110, R128, R130, R135, R142, R144, R149, R195). -/

namespace Sys2Proof.Machine

/-- What the check of an image knows: the header in force after it, the records in force after it,
the image's own records with their directory indices, and what is resident. -/
structure Img where
  hdr : Bytes
  recs : List Rec
  own : List (Nat × Rec)
  patch : Bool
  en : Nat
  owner : Nat
  deriving DecidableEq, Repr

/-- Index of a record of the image, 0xFFFF where the failing record is not in it. -/
def Img.idx (g : Img) (ty i : Nat) : Nat :=
  match g.own.find? fun r => r.2.type == ty && r.2.index == i with
  | some r => r.1
  | none => 0xFFFF

def Img.body (g : Img) (ty i : Nat) : Bytes := recBody g.recs ty i
def Img.has (g : Img) (ty i : Nat) : Bool := (recOf g.recs ty i).isSome
def Img.ofType (g : Img) (ty : Nat) : List Rec := g.recs.filter (·.type == ty)
def Img.stage (g : Img) (i : Nat) : Bytes := g.body 1 i
def Img.stages (g : Img) : List Nat := List.range (hStages g.hdr)
def Img.tables (g : Img) : List Nat := List.range (hTables g.hdr)
def Img.tab (g : Img) (n : Nat) : Bytes := g.body 8 n
/-- The stage that a tile holds. -/
def Img.stageOf (g : Img) (t : Nat) : Option Nat := g.stages.find? fun i => (stTiles (g.stage i)).testBit t
def Img.resid (g : Img) (i : Nat) : Nat := stResidency (g.stage i)

/-! ### Step 1: the header (Table 2.1, R26) -/

/-- Fields a patch may not change (R54). -/
def scopeFields (h : Bytes) : List Nat :=
  [hSweep h, hSlots h, hLead h, hStages h, hQMax h, hTables h, hDense h, hResult h]

def headWhy (en len : Nat) (patch : Option (Bytes × Nat)) (h : Bytes) : List Nat :=
  let mode := hMode h
  why (!crcOkAt h 124) rBadCheck
    ++ why (fld h 0 4 != (if patch.isSome then 0x54504E59 else 0x4D524E59) || fld h 4 2 != 1
        || fld h 6 2 != 128 || fld h 8 8 != len || 2 ^ 30 < fld h 8 8 || !zeroAt h 80 44 || 3 < hFlags h
        || (mode != 0 && (mode < 0x10 || 0x14 < mode)) || hStages h == 0 || 72 < hStages h
        || hSlots h == 0 || 64 < hSlots h || hQMax h == 0 || 4095 < hQMax h || 1024 < hTables h
        || hReserve h % 256 != 0 || (patch.isNone && (hVersion h != 0 || hBase h != 0))) rBadFormat
    ++ why (maskOff en (hPlace h)) rTileDisabled
    ++ why (hMaint h < 16) rMaintShort
    ++ why (hSweep h < 16000 || 160000000 < hSweep h || hSweep h % hSlots h != 0
        || hLead h < 1600 || hInterval h ≤ hLead h) rTiming
    ++ (match patch with
      | none => []
      | some (res, act) =>
        why (hBase h != act || hVersion h != (act + 1) % 2 ^ 16) rPatchBase
          ++ why (scopeFields h != scopeFields res) rPatchScope)

/-! ### Steps 2 and 3: directory and records (R27) -/

/-- Some byte of a range was delivered with poison (R383); lines of 64 bytes. -/
def rangePoison (poison : List Nat) (lo len : Nat) : Bool :=
  poison.any fun l => decide (l * 64 < lo + len) && decide (lo < l * 64 + 64)

/-- Directory entry i: offset and length. -/
def dirAt (img : Bytes) (h : Bytes) (i : Nat) : Bytes := (img.drop (hDir h + 16 * i)).take 16

/-- Payload of a record: WEIGHTS decoded where the image is coded (R211); none for a bad block. -/
def recPayload (coded : Bool) (r : Bytes) : Option Bytes :=
  if coded && fld r 0 2 == 3 then decodeAll (fld r 4 4) (r.drop 16)
  else some ((r.drop 16).take (fld r 4 4))

/-- Reasons of the record's own frame, and the record. -/
def frameWhy (coded : Bool) (r : Bytes) : List Nat × Rec :=
  let ty := fld r 0 2
  let n := fld r 4 4
  let crcOk := (if isControl ty then crc32c (r.take 12 ++ (r.drop 16).take n) else crc32c (r.take 12)).toNat == fld r 12 4
  let body := recPayload coded r
  (why (!crcOk) rBadCheck
    ++ why (ty == 0 || 10 < ty || !zeroAt r 8 4 || body.isNone
      || (!(coded && ty == 3) && n + 16 != r.length)) rBadFormat,
    { type := ty, index := fld r 2 2, body := body.getD [], coded := if coded && ty == 3 then r.drop 16 else [] })

/-- A record a patch may carry (R54, R56): `move` is its MOVE payload, `held` whether the tile holds a
stage. -/
def patchWhy (move : Option Bytes) (held : Nat → Bool) (r : Rec) : List Nat :=
  let target := match move with
    | some m => mvTarget m == r.index
    | none => false
  if r.type = 2 || r.type = 3 || r.type = 4 then why (!held r.index && !target) rPatchScope
  else if r.type = 5 || r.type = 6 then why move.isNone rPatchScope
  else if r.type = 9 || r.type = 10 then []
  else [rPatchScope]

/-- R56 on a MOVE record: the resident header and stages. -/
def moveTargetWhy (en : Nat) (h : Bytes) (stage : Nat → Bytes) (held : Nat → Bool) (m : Bytes) : List Nat :=
  let s := mvStage m
  why (s < hStages h && !(stTiles (stage s)).testBit (mvSource m)) rBadFormat
    ++ why (hStages h ≤ s) rBadFormat
    ++ why (71 < mvTarget m || !en.testBit (mvTarget m) || held (mvTarget m)
      || !stMovable (stage s) || !bitAt (hFlags h) 1) rMoveTarget

/-- Information word of a rejection (R37). -/
def rejectInfo (reason idx : Nat) : Nat := reason + 2 ^ 16 * idx

/-- The least of pairs (reason, index) by reason, earliest first. -/
def leastPair (l : List (Nat × Nat)) : Option (Nat × Nat) :=
  l.foldl (fun b p => match b with
    | none => some p
    | some q => if p.1 < q.1 then some p else some q) none

/-! ### Step 4: the stages, tiles and layers (R28, R29, R110, R114, R381) -/

/-- Tiles some table's shard lies on. -/
def Img.shardMask (g : Img) : Nat := g.tables.foldl (fun m n => m ||| tShards (g.tab n)) 0
/-- The union PLACE_MASK must equal (R381); a component's own tile fields are ignored (R130). -/
def Img.place (g : Img) : Nat :=
  let m := g.stages.foldl (fun m i => m ||| stTiles (g.stage i)) g.shardMask
  g.tables.foldl (fun m n =>
    let b := g.tab n
    let m := if tComponent b then m else m ||| 2 ^ tDispTile b ||| 2 ^ tCombTile b
    if tUpdatable b then m ||| 2 ^ tGradTile b else m) m

/-- Tiles that lie in two stages. -/
def Img.stagesMeet (g : Img) : Bool :=
  g.stages.any fun i => (List.range i).any fun j => stTiles (g.stage i) &&& stTiles (g.stage j) != 0

/-- Records missing or misplaced (R381). -/
def Img.shapeBad (g : Img) : Bool :=
  let need := g.shardMask ||| g.stages.foldl (fun m i => m ||| stTiles (g.stage i)) 0
  g.stages.any (fun i => !g.has 1 i) || g.tables.any (fun n => !g.has 8 n) || g.stagesMeet
    || !g.has 5 0 || (!g.patch && hPlace g.hdr != g.place)
    || (maskTiles need).any (fun t => !g.has 2 t)
    || g.recs.any (fun r => (r.type == 2 || r.type == 3 || r.type == 4) && !g.place.testBit r.index)
    || (List.range 9).any fun c => bitsOf g.place (8 * c + 7) (8 * c) != 0 && !g.has 6 c

/-- Layer table rows of every PROGRAM record, with its tile. -/
def layerAll (rs : List Rec) : List (Nat × Nat × Nat × Nat) :=
  ((rs.filter (·.type == 2)).map fun r =>
    (layerRows r.body).map fun (l, f, th, _, _, _) => (r.index, l, f, th)).flatten

/-- Entries of one layer disagree in THRESH or REARM (R110). -/
def Img.layersDiffer (g : Img) : Bool :=
  let all := layerAll g.recs
  let own := layerAll (g.own.map (·.2))
  all.any (fun (_, l, _, th) => all.any fun (_, l', _, th') => l == l' && th != th')
    || own.any fun (_, l, f, _) => own.any fun (_, l', f', _) => l == l' && f != f'

/-- A patch rearms a layer on some of its tiles only (R114). -/
def Img.rearmPart (g : Img) : Bool :=
  let own := layerAll (g.own.map (·.2))
  own.any fun (_, l, f, _) => f == 1 && (layerAll g.recs).any fun (t, l', _, _) =>
    l == l' && !own.any fun (t', l'', f', _) => t == t' && l == l'' && f' == 1

/-- STAGE records whose span breaks R29. -/
def Img.spans (g : Img) : List (Nat × Nat) :=
  (g.stages.filter fun i => g.resid i * hInterval g.hdr < stSpan (g.stage i)
    || stSpan (g.stage i) < stGatherWc (g.stage i)).map fun i => (rTiming, g.idx 1 i)

/-! ### Tables and gather words (R128, R130, R135, R148, R151) -/

/-- A COMPOSITE breaks R130. -/
def Img.compositeBad (g : Img) (n : Nat) : Bool :=
  let b := g.tab n
  let a := g.tab (tCompA b)
  let c := g.tab (tCompB b)
  let m := tModulus b
  [tCompA b, tCompB b].any (fun u => !g.has 8 u || tKind (g.tab u) == 2 || !tComponent (g.tab u)
      || !budgetsOk (g.tab u) (tMaxEntries b))
    || tCompA b == tCompB b
    || (if tCat b then tDim b != tDim a + tDim c else tDim b != tDim a || tDim b != tDim c)
    || (tKind a == 0 && tRows a < cdiv (tRows b) m) || (tKind c == 0 && tRows c < m)

/-- Composites that name a component. -/
def Img.parents (g : Img) (u : Nat) : List Nat :=
  g.tables.filter fun n => tKind (g.tab n) == 2 && (tCompA (g.tab n) == u || tCompB (g.tab n) == u)

def Img.tableBad (g : Img) (n : Nat) : Bool :=
  let b := g.tab n
  let late (t lim : Nat) : Bool := match g.stageOf t with
    | none => true
    | some i => lim < i
  if tComponent b then (g.parents n).length != 1
  else
    hStages g.hdr ≤ tGatherStage b || late (tDispTile b) (tGatherStage b)
      || !(stTiles (g.stage (tGatherStage b))).testBit (tCombTile b)
      || (tKind b == 2 && g.compositeBad n)
      || (tUpdatable b && (hStages g.hdr ≤ tUpdStage b || tUpdStage b < tGatherStage b
            || late (tGradTile b) (tUpdStage b)))

/-- A gather word on tile t that breaks R130, R135 or R151. -/
def Img.gatherWordBad (g : Img) (t : Nat) (w : Bytes) : Bool :=
  let op := iOp w
  let n := fld w 12 2
  let b := g.tab n
  if op = 0x30 || op = 0x31 || op = 0x32 then
    !g.has 8 n || hTables g.hdr ≤ n || tComponent b
      || (op == 0x30 && tDispTile b != t)
      || (op == 0x32 && (!tUpdatable b || tGradTile b != t))
      || (op == 0x31 && (tCombTile b != t || fld w 16 1 < cdiv (tDim b) 64
            || spLines < fld w 14 2 + 255 * fld w 16 1 + cdiv (tDim b) 64))
  else false

/-! ### Buffers (R83, R142, R158, R315, R382) -/

/-- The table whose MAX_ENTRIES and GATHER_STAGE govern table n (R130). -/
def Img.governor (g : Img) (n : Nat) : Bytes :=
  if tComponent (g.tab n) then g.tab ((g.parents n).headD n) else g.tab n

/-- Largest dense part, index list and gradient list (R382), in whole sheets. -/
def Img.denseMax (g : Img) : Nat := hQMax g.hdr * hDense g.hdr
def Img.indexMax (g : Img) (b : Bytes) : Nat := sheetUp (indexListBytes (hQMax g.hdr) (tMaxEntries b))
def gradMax (b : Bytes) : Nat := gradListBytes (tGradFmt b) (tDim b) (tMaxGrads b)

/-- The parts of a buffer set on tile t (R382), from and to, in whole sheets: the dense part on the tiles of stage 0, an
index list on its DISP_TILE, a gradient list on its GRAD_TILE; with every list at its largest, in table order, index
list first. -/
def Img.parts (g : Img) (t : Nat) : List (Nat × Nat) :=
  let dense := if (stTiles (g.stage 0)).testBit t then [(0, sheetUp g.denseMax)] else []
  (g.tables.foldl (fun (pos, l) n =>
    let b := g.tab n
    if tComponent b then (pos, l)
    else
      let next := pos + sheetUp (indexListBytes (hQMax g.hdr) (tMaxEntries b))
      let l := if tDispTile b = t then l ++ [(pos, next)] else l
      if tUpdatable b then
        let last := next + sheetUp (gradMax b)
        (last, if tGradTile b = t then l ++ [(next, last)] else l)
      else (next, l)) (sheetUp g.denseMax, dense)).2

/-- A SEG 8 transfer of tile t has a sheet outside the tile's parts (R83). Assumption 45, DEDUCED. -/
def Img.seg8Bad (g : Img) (t : Nat) (w : Bytes) : Bool :=
  (isFetch w || isPut w) && xClass w == 0 && xSeg w == 8 && (List.range (xSheets w)).any fun i =>
    !(g.parts t).any fun (p, e) => decide (p ≤ xAddr w + 256 * i) && decide (xAddr w + 256 * i + 256 ≤ e)

/-- Buffer sets, N_PB. -/
def Img.sets (g : Img) : Nat := 2 * hSlots g.hdr + (g.stages.map g.resid).foldl (· + ·) 0

/-- The room a buffer set has on tile t, part by part (R382): the dense part, or a table with the kind of its list. -/
def Img.rooms (g : Img) (t : Nat) : List (Option (Nat × Nat) × Nat) :=
  (if (stTiles (g.stage 0)).testBit t then [(none, sheetUp g.denseMax)] else []) ++
  (g.tables.map fun n =>
    let b := g.tab n
    (if !tComponent b && tDispTile b == t then [(some (n, 0), g.indexMax b)] else []) ++
    (if tUpdatable b && tGradTile b == t then [(some (n, 1), gradMax b)] else [])).flatten

/-- Bytes of a buffer set on tile t. -/
def Img.roomBytes (g : Img) (t : Nat) : Nat := ((g.rooms t).map (·.2)).foldl (· + ·) 0

/-- Tables with a shard on tile t. -/
def Img.shardsOn (g : Img) (t : Nat) : List Nat :=
  g.tables.filter fun n => tKind (g.tab n) != 2 && (tShards (g.tab n)).testBit t

/-- Bytes of a table's gather work area for one post (R142), and the posts a tile has work areas for. -/
def Img.workBytes (g : Img) (n : Nat) : Nat :=
  16 * tMaxEntries (g.governor n) + 256 * cdiv (4 * tDim (g.tab n)) 256 * hQMax g.hdr
def Img.workSets (g : Img) (t : Nat) : Nat :=
  (g.shardsOn t).foldl (fun a n => Nat.max a (g.resid (tGatherStage (g.governor n)))) 0

/-- Tier-0 bytes of the ream's areas on tile t. -/
def Img.areas (g : Img) (t : Nat) : Nat :=
  let mine := g.shardsOn t
  let work := mine.foldl (fun a n => a + g.workBytes n) 0
  let rows := mine.foldl (fun a n => a + areaBytes (g.tab n) + 256 * dirSheets (g.tab n)) 0
  g.sets * g.roomBytes t + work * g.workSets t + rows + 262144

/-- T0_RESERVE in bytes: the largest total over the enabled tiles, rounded up to 2 MiB (R382). -/
def Img.t0Bytes (g : Img) : Nat :=
  2 ^ 21 * cdiv ((maskTiles g.en).foldl (fun a t => Nat.max a (g.areas t)) 0) (2 ^ 21)

/-! ### Scratchpad lines (R68) -/

/-- Line ranges of tile t's records among `rs`: first line and count. -/
def lineRanges (rs : List Rec) (t : Nat) : List (Nat × Nat) :=
  ((rs.filter fun r => r.index == t && (r.type == 2 || r.type == 3 || r.type == 4)).map fun r =>
    if r.type = 2 then [programLines r.body]
    else ((extents r.body).getD []).map fun e => (e.1, e.2.length / 256)).flatten

def rangesClash : List (Nat × Nat) → Bool
  | [] => false
  | (a, n) :: rs => rs.any (fun (b, m) => overlap a n b m) || rangesClash rs

def linesOf (rs : List (Nat × Nat)) : Nat := (rs.map (·.2)).foldl (· + ·) 0

/-- Lines of tile t's records clash, or leave less than PATCH_RESERVE; in a patch, the new lines meet
the active version's, or those of the records it replaces exceed the reserve (R54, R68). -/
def Img.linesBad (g : Img) (active : List Rec) (t : Nat) : Bool :=
  let mine := g.own.map (·.2)
  let own := lineRanges mine t
  if g.patch then
    own.any (fun (a, n) => (lineRanges active t).any fun (b, m) => overlap a n b m)
      || rangesClash own
      || hReserve g.hdr < 256 * linesOf (lineRanges (mine.filter fun r => (recOf active r.type r.index).isSome) t)
  else rangesClash own || 256 * (spLines - linesOf own) < hReserve g.hdr || spLines < linesOf own

/-! ### Capacities (R144, R149) -/

/-- Window in felt cycles from entry into the stage of tile t to the end of stage `e`. -/
def Img.window (g : Img) (t e : Nat) : Nat :=
  let a := (g.stageOf t).getD 0
  ((g.stages.filter fun i => a ≤ i && i ≤ e).map g.resid).foldl (· + ·) 0 * hInterval g.hdr

/-- Window of table n's lookup: from entry into DISP_TILE's stage to the end of GATHER_STAGE (R144). -/
def Img.lookWin (g : Img) (n : Nat) : Nat :=
  let v := g.governor n
  g.window (tDispTile v) (tGatherStage v)

/-- Window of table n's update: from entry into GRAD_TILE's stage to the end of UPD_STAGE (R149). -/
def Img.updWin (g : Img) (n : Nat) : Nat := g.window (tGradTile (g.tab n)) (tUpdStage (g.tab n))

/-- The window of each table in turn carries the sum over them all. -/
def carried (cap win amt : Nat → Nat) (ns : List Nat) : Bool :=
  let sum := (ns.map amt).foldl (· + ·) 0
  ns.all fun n => sum ≤ cap (win n)

/-- Flits the gather units of `src` deliver to `dst` in a window. -/
def Img.feltCap (g : Img) (f : Felt) (src dst win : Nat) : Nat :=
  let p := feltPeriod (g.body 5 0)
  f.flits p src dst * (win / p)

/-- Tier-0 sheets that the entries of one gather client of tile t carry in a window (0 GATHER_RD, 1 GATHER_WR, Table 8.4):
the smallest count of its entries, 128 channels, random sheets at 74.7 % of the entries (Table 8.5). -/
def Img.t0Cap (g : Img) (t client win : Nat) : Nat :=
  let b := g.body 6 (t / 8)
  let r := t0Rota b (t % 8)
  cycMin (t0Entries b) (win * 650 / 3200) (fun i => r.getD i 9 == client) * 128 * 747 / 1000

/-- Tier-1 sheets controller c's ROW blocks carry in a window: 64 sheet times a block. -/
def Img.t1Cap (g : Img) (c win : Nat) : Nat :=
  if g.has 7 c then
    let b := g.body 7 c
    64 * cycMin (t1Blocks b) (win * 3 * 1200 / (1600 * 128)) fun i => t1Kind b i == 3
  else 0

/-- Tables with rows of their own; those with a shard on tile t. -/
def Img.rowTables (g : Img) : List Nat := g.tables.filter fun n => tKind (g.tab n) != 2
def Img.onTile (g : Img) (t : Nat) : List Nat := g.rowTables.filter fun n => (tShards (g.tab n)).testBit t

/-- Sheets of one table's entries, partial vectors and gradients on the felt. -/
def Img.entrySheets (g : Img) (n : Nat) : Nat := cdiv (16 * tMaxEntries (g.governor n)) 256
def Img.partialSheets (g : Img) (n : Nat) : Nat := hQMax g.hdr * cdiv (4 * tDim (g.tab n)) 256
def Img.gradFelt (g : Img) (n : Nat) : Nat :=
  let b := g.tab n
  cdiv (16 * tMaxGrads b) 256 + tMaxGrads b * cdiv (gradBytes (tGradFmt b) (tDim b)) 256

/-- Tier-0 sheets of one table's lookup and update on a shard tile, read and written (R144, R149, R158). -/
def Img.lookRead (g : Img) (n : Nat) : Nat :=
  let b := g.tab n
  tBudget b * (tSheets b + (if tPinned b then 0 else 1))
    + Config.workSheets (tMaxEntries (g.governor n)) (tDim b) (hQMax g.hdr)
def Img.lookWrite (g : Img) (n : Nat) : Nat :=
  Config.workWrites (tMaxEntries (g.governor n)) (tDim (g.tab n)) (hQMax g.hdr)
def Img.updRead (g : Img) (n : Nat) : Nat := tUpdBudget (g.tab n) * (tSheets (g.tab n) + 1)
def Img.updWrite (g : Img) (n : Nat) : Nat := tUpdBudget (g.tab n) * tSheets (g.tab n)

/-- The felt slots between two tiles carry one kind of message of the tables that send it there (R144, R149): `from_` and
`to_` name its tiles for each table and shard tile. A tile needs none to itself (assumption 149, DESIGN CHOICE). -/
def Img.feltShort (g : Img) (ns : List Nat) (win amt : Nat → Nat) (from_ to_ : Nat → Nat → Nat) : Bool :=
  let f := feltOf (g.body 5 0)
  ns.any fun n => (shardTiles (g.tab n)).any fun t =>
    let a := from_ n t
    let b := to_ n t
    a != b && !carried (g.feltCap f a b) win amt (ns.filter fun m =>
      (shardTiles (g.tab m)).any fun x => from_ m x == a && to_ m x == b)

/-- Tier-0 gather slots of tile t fall short: of the lookups' load over every table with a shard on it (R144), and of the
updates' load added to it (R149). -/
def Img.t0Short (g : Img) (t : Nat) : Bool :=
  let ns := g.onTile t
  let us := ns.filter fun n => tUpdatable (g.tab n)
  let sum (l : List Nat) (f : Nat → Nat) : Nat := (l.map f).foldl (· + ·) 0
  (ns.any fun n => g.t0Cap t 0 (g.lookWin n) < sum ns g.lookRead || g.t0Cap t 1 (g.lookWin n) < sum ns g.lookWrite)
    || us.any fun n => g.t0Cap t 0 (g.updWin n) < sum ns g.lookRead + sum us g.updRead
        || g.t0Cap t 1 (g.updWin n) < sum ns g.lookWrite + sum us g.updWrite

/-- ROW blocks of a controller fall short: of F sheet times for each cold row looked up, over all tables (R144), and of 5F
for each cold row updated (R149). -/
def Img.t1Short (g : Img) (c : Nat) : Bool :=
  !carried (g.t1Cap c) g.lookWin (fun n => tColdBudget (g.tab n) * tSheets (g.tab n)) g.rowTables
    || !carried (g.t1Cap c) g.updWin (fun n => tUpdCold (g.tab n) * 5 * tSheets (g.tab n))
      (g.rowTables.filter fun n => tUpdatable (g.tab n))

/-- A capacity of R144 or R149 falls short. -/
def Img.capShort (g : Img) : Bool :=
  if g.tables.isEmpty then false
  else
    let us := g.rowTables.filter fun n => tUpdatable (g.tab n)
    g.feltShort g.rowTables g.lookWin g.entrySheets (fun n _ => tDispTile (g.governor n)) (fun _ t => t)
      || g.feltShort g.rowTables g.lookWin g.partialSheets (fun _ t => t) (fun n _ => tCombTile (g.governor n))
      || g.feltShort us g.updWin g.gradFelt (fun n _ => tGradTile (g.tab n)) (fun _ t => t)
      || (maskTiles g.shardMask).any g.t0Short || (List.range 4).any g.t1Short
      || (g.tables.any (fun n => tUpdatable (g.tab n)) && !feltCommit (g.body 5 0))

/-! ### Segments and the grant (R128, R195, Table 2.5) -/

/-- T1_SEG of table n is not a backed tier-1 segment that holds its rows, or a PINNED table has too
few places (R128). -/
def Img.homeBad (g : Img) (seg : Nat → Option Seg) (n : Nat) : Bool :=
  let b := g.tab n
  if tKind b = 2 then false
  else (match seg (tT1Seg b) with
    | none => true
    | some v => v.tier != 1 || v.paged || v.limit < tT1Base b + tRows b * rowBytes b)
    || (tPinned b && tT0Rows b < shardRows b)

/-- The ream is sealed (R195). -/
def Img.sealedBy (g : Img) (seg : Nat → Option Seg) : Bool :=
  g.tables.any fun n => match seg (tT1Seg (g.tab n)) with
    | some v => v.sealed
    | none => false

/-- An UPDATABLE table of a sealed ream is not homed in a sealed segment. -/
def Img.sealShort (g : Img) (seg : Nat → Option Seg) : Bool :=
  g.sealedBy seg && g.tables.any fun n => tUpdatable (g.tab n) && match seg (tT1Seg (g.tab n)) with
    | some v => !v.sealed
    | none => true

def gAccess (b : Bytes) (p : Nat) : Nat := fld (grantEntry b p) 0 1
def gPooled (b : Bytes) (p : Nat) : Nat := fld (grantEntry b p) 1 1
def gSlots (b : Bytes) (p : Nat) : Nat := fld (grantEntry b p) 8 8

/-- A grant breaks Table 2.5. Assumption 17, DEDUCED. -/
def Img.grantBad (g : Img) : Bool :=
  if !g.has 9 0 then false
  else
    let b := g.body 9 0
    (List.range 16).any fun p =>
      1 < gAccess b p || 1 < gPooled b p || 2 ^ hSlots g.hdr ≤ gSlots b p
        || (gSlots b p != 0 && gAccess b p != 1 && p != g.owner)
        || (List.range p).any fun q => gSlots b p &&& gSlots b q != 0

/-! ### Step 4 in full -/

/-- Every failing cross-record condition, with its index. Assumption 16, DEDUCED. -/
def Img.crossWhy (g : Img) (active : List Rec) (seg : Nat → Option Seg) (below : Nat → Bool) :
    List (Nat × Nat) :=
  let all (r : Nat) (c : Bool) : List (Nat × Nat) := if c then [(r, 0xFFFF)] else []
  let words (q : Nat → Bytes → Bool) : Bool :=
    (g.ofType 2).any fun r => (pWords r.body).any (q r.index)
  let gatherers := g.shardMask ||| g.tables.foldl (fun m n =>
    if tComponent (g.tab n) then m else m ||| 2 ^ tCombTile (g.tab n)) 0
  let shape := g.shapeBad || g.layersDiffer || g.tables.any g.tableBad
  all rBadFormat shape ++ (if shape then [] else
    all rBadFormat (words g.gatherWordBad)
    ++ ((g.ofType 2).filter fun r => (pWords r.body).any (g.seg8Bad r.index)).map
      (fun r => (rBadFormat, g.idx 2 r.index))
    ++ (g.tables.filter (g.homeBad seg)).map (fun n => (rResource, g.idx 8 n))
    ++ all rResource ((maskTiles gatherers).any (fun t => rotaOf (g.body 2 t) 5 < 2)
        || (List.range 72).any (g.linesBad active) || t0Limit < g.t0Bytes || !below g.t0Bytes
        || g.sealShort seg)
    ++ g.spans ++ all rTiming g.capShort
    ++ all rPatchScope (g.patch && g.rearmPart)
    ++ (if g.grantBad then [(rGrant, g.idx 9 0)] else []))

end Sys2Proof.Machine
end

