-- ==== Sys2Proof/Machine/ReamOps.lean ====
section
/-! DEFINITION. The five steps of R37 on a ream or patch image, and what loading a version does to the
tiles (R38, R55, R68). -/

namespace Sys2Proof.Machine

/-- What the check of an image answers: a rejection, and whether a coded block was bad; or the image,
with the raw and coded bytes of its coded records. -/
inductive Verdict where
  | bad (reason idx : Nat) (coding : Bool)
  | good (g : Img) (raw coded : Nat)
  deriving DecidableEq, Repr

/-- An image under check. -/
structure Look where
  img : Bytes
  poison : List Nat
  coded : Bool
  /-- The header as read, and the one whose interval and MAINT_SHARE its records are held to. -/
  h : Bytes
  en : Nat
  patch : Bool
  move : Option Bytes := none
  held : Nat → Bool := fun _ => false
  moveWhy : Bytes → List Nat := fun _ => []

/-- The header, zero-padded where the image is shorter. -/
def imgHead (img : Bytes) : Bytes := (img ++ zeros (128 - img.length)).take 128

/-- Bytes of record i, by its directory entry; none where it lies beyond the image. -/
def recBytes (img e : Bytes) : Option Bytes :=
  let o := fld e 0 8
  let n := fld e 8 4
  if n < 16 || img.length < o + n then none else some ((img.drop o).take n)

/-- Reasons record `r` (with entry `e`) fails with, and the record. -/
def Look.recWhy (k : Look) (before : List Rec) (e : Bytes) : List Nat × Option Rec × Bool :=
  match recBytes k.img e with
  | none => ([rBadFormat], none, false)
  | some b =>
    let (fr, r) := frameWhy k.coded b
    let badBlock := k.coded && fld b 0 2 == 3 && (recPayload true b).isNone
    let poison := rangePoison k.poison (fld e 0 8) (fld e 8 4)
    let all := why poison rBadCheck ++ fr
      ++ (if fr.isEmpty then Machine.recWhy k.en k.h k.patch before r
          ++ (if k.patch then patchWhy k.move k.held r ++ (if r.type = 10 then k.moveWhy r.body else []) else [])
        else [])
    (all, some r, badBlock)

/-- Step 3: records in directory order until one fails. -/
def Look.walk (k : Look) : List (Nat × Bytes) → List (Nat × Rec) → Nat × Nat →
    (Nat × Nat × Bool) ⊕ (List (Nat × Rec) × Nat × Nat)
  | [], own, (raw, cod) => .inr (own, raw, cod)
  | (i, e) :: es, own, (raw, cod) =>
    let (ws, r, badBlock) := k.recWhy (own.map (·.2)) e
    match least ws, r with
    | some w, _ => .inl (w, i, badBlock)
    | none, none => .inl (rBadFormat, i, false)
    | none, some r =>
      let n := if k.coded && r.type == 3 then (r.body.length, fld e 8 4 - 16) else (0, 0)
      k.walk es (own ++ [(i, r)]) (raw + n.1, cod + n.2)

/-- Directory entries with their indices. -/
def dirEntries (img h : Bytes) : List (Nat × Bytes) :=
  (List.range (hRecords h)).map fun i => (i, dirAt img h i)

/-- Steps 1 to 3 of R37: the image's own records, or the rejection. -/
def Look.judge (k : Look) (len : Nat) (patch : Option (Bytes × Nat)) (head : Bytes) :
    (Nat × Nat × Bool) ⊕ (List (Nat × Rec) × Nat × Nat) :=
  let dirEnd := hDir head + 16 * hRecords head
  if rangePoison k.poison 0 128 then .inl (rBadCheck, 0xFFFF, false)
  else match least (headWhy k.en len patch head
      ++ why (k.img.length < 128 || k.img.length < dirEnd || fld head 8 8 < dirEnd) rBadFormat) with
    | some w => .inl (w, 0xFFFF, false)
    | none =>
      let es := dirEntries k.img head
      if rangePoison k.poison (hDir head) (16 * hRecords head) then .inl (rBadCheck, 0xFFFF, false)
      else match es.find? fun (_, e) => !crcOkAt e 12 with
        | some (i, _) => .inl (rBadCheck, i, false)
        | none => k.walk es [] (0, 0)

/-- The first MOVE record of an image whose directory can be read. -/
def findMove (img head : Bytes) : Option Bytes :=
  if img.length < hDir head + 16 * hRecords head then none
  else ((dirEntries img head).filterMap fun (_, e) => (recBytes img e).bind fun b =>
    if fld b 0 2 = 10 then some ((b.drop 16).take (fld b 4 4)) else none).head?

/-- Every tier-0 segment lies below a reserved range of `n` bytes (R240). -/
def State.belowOk (s : State) (n : Nat) : Bool :=
  s.allSegs.all fun (_, _, v) => v.tier != 0 || v.base + v.limit + n ≤ t0Limit

/-- Steps 4 and 5. -/
def State.finalWhy (s : State) (g : Img) (active : List Rec) : Option (Nat × Nat) :=
  match leastPair (g.crossWhy active (s.seg? g.owner) s.belowOk) with
  | some p => some p
  | none => if s.regF 0xA0008 15 0 < hPower g.hdr then some (rPower, 0xFFFF) else none

def asVerdict (s : State) (active : List Rec) (g : Img) (raw cod : Nat) : Verdict :=
  match s.finalWhy g active with
  | some (r, i) => .bad r i false
  | none => .good g raw cod

/-- The check of a ream image of `len` bytes (R37). -/
def State.checkLoad (s : State) (owner len : Nat) (coded : Bool) (img : Rd) : Verdict :=
  let h := imgHead img.data
  let k : Look := { img := img.data, poison := img.poison, coded := coded, h := h
                    en := s.fuse.tileMask, patch := false }
  match k.judge len none h with
  | .inl (r, i, c) => .bad r i c
  | .inr (own, raw, cod) =>
    asVerdict s [] { hdr := h, recs := own.map (·.2), own := own, patch := false
                     en := s.fuse.tileMask, owner := owner } raw cod

/-! ### Patches (R54 to R57) -/

/-- Records with those of `own` replacing the ones of their type and index. -/
def mergeRecs (old own : List Rec) : List Rec :=
  (old.filter fun r => !own.any fun q => q.type == r.type && q.index == r.index) ++ own

/-- Is this a record of a version, rather than of the ream? -/
def isVersionRec (r : Rec) : Bool := r.type == 2 || r.type == 3 || r.type == 4

/-- STAGE records with SOURCE's place taken by TARGET (R57). -/
def moveStages (m : Bytes) (rs : List Rec) : List Rec :=
  rs.map fun r =>
    if r.type = 1 && r.index = mvStage m then
      let t := stTiles r.body
      let t := (if t.testBit (mvSource m) then t - 2 ^ mvSource m else t) ||| 2 ^ mvTarget m
      { r with body := patchBytes r.body 4 (natLe 9 t) }
    else r

/-- Some PROGRAM of the version names a tile in a transfer of class FELT. -/
def namesTile (t : Nat) (r : Rec) : Bool :=
  r.type == 2 && (pWords r.body).any fun w => (isFetch w || isPut w) && xClass w == 1 && xTile w == t

/-- What a patch with a MOVE must carry (R56). -/
def moveShort (m : Bytes) (act own : List Rec) : Bool :=
  let has (ty i : Nat) : Bool := own.any fun r => r.type == ty && r.index == i
  !has 5 0 || !own.any (·.type == 6) || !has 2 (mvTarget m)
    || (act.filter (namesTile (mvSource m))).any fun r => !has 2 r.index

/-- The image a patch leaves in force: header, ream records and version records. Of the patch's header MODE, VERSION
and POWER_W take effect, and FLAGS, MAINT_SHARE, PATCH_RESERVE and BUILD_ID do not, where R54 names only MODE
(assumption 118, DESIGN CHOICE). -/
def State.patched (s : State) (h : Bytes) (move : Option Bytes) (own : List (Nat × Rec)) : Img :=
  let mine := own.map (·.2)
  let hdr := patchBytes (patchBytes (patchBytes s.ream.hdr 27 (natLe 1 (hMode h))) 72 (natLe 2 (hVersion h)))
    54 (natLe 2 (hPower h))
  let ctl := mergeRecs s.ream.recs (mine.filter fun r => !isVersionRec r && r.type != 10)
  let ctl := match move with
    | some m => moveStages m ctl
    | none => ctl
  let ver := mergeRecs s.ream.act.recs (mine.filter isVersionRec)
  let g : Img := { hdr := hdr, recs := ctl, own := own, patch := true, en := s.fuse.tileMask, owner := s.ream.owner }
  let ver := ver.filter fun r => g.place.testBit r.index
  { g with hdr := patchBytes hdr 16 (natLe 9 g.place), recs := ctl ++ ver }

/-- The check of a patch image (R37, R55). A patch with a MOVE that lacks a record R56 says it carries is refused
with BAD_FORMAT and index 0xFFFF, where R56 names neither (assumption 118, DESIGN CHOICE). -/
def State.checkPatch (s : State) (len : Nat) (coded : Bool) (img : Rd) : Verdict :=
  let h := imgHead img.data
  let move := findMove img.data h
  let held (t : Nat) : Bool := (s.stageOf t).isSome
  let k : Look := { img := img.data, poison := img.poison, coded := coded, h := s.ream.hdr
                    en := s.fuse.tileMask, patch := true, move := move, held := held
                    moveWhy := moveTargetWhy s.fuse.tileMask s.ream.hdr s.stageRec held }
  match k.judge len (some (s.ream.hdr, s.ream.act.num)) h with
  | .inl (r, i, c) => .bad r i c
  | .inr (own, raw, cod) =>
    let short : Bool := match move with
      | some m => moveShort m s.ream.act.recs (own.map (·.2))
      | none => false
    if short then .bad rBadFormat 0xFFFF false
    else asVerdict s s.ream.act.recs (s.patched h move own) raw cod

/-! ### Copying a version (R38, R55, R62, R68) -/

/-- Bytes of a record as they lie in the scratchpad: first line and contents. -/
def recLines (r : Rec) : List (Nat × Bytes) :=
  if r.type = 2 then [(pLine r.body, (r.body.drop 64).take (32 * pCount r.body))]
  else (extents r.body).getD []

/-- Write bytes to whole lines, the last padded with zeros. -/
def State.spPadded (s : State) (t line : Nat) (b : Bytes) : State :=
  s.spWrite t line (b ++ zeros (sheetUp b.length - b.length)) []

/-- Copy records into the scratchpads of their tiles. -/
def State.copyRecs (s : State) (rs : List Rec) : State :=
  s.each (rs.filter isVersionRec) fun s r =>
    s.each (recLines r) fun s (l, b) => s.spPadded r.index l b

/-- Sheets of the top 4 GiB of tier-1, beyond the exposed bytes, and where in them the ream's copy begins: after the
completion log pool and the page-map pool (R38, R240; assumption 61, DESIGN CHOICE). -/
def topSheets : Nat := 2 ^ 24
def copyBase : Nat := poolBase + 2 ^ 30

/-- The bytes of a record that the tier-1 copy keeps: coded WEIGHTS stay coded (R211). -/
def Rec.stored (r : Rec) : Bytes := if r.coded.isEmpty then r.body else r.coded

/-- Sheets a copied record takes. -/
def CopyRec.sheets (c : CopyRec) : Nat := cdiv c.len 256

/-- The lowest sheet of the copy from which `n` sheets are free. The place is assumption 61, DESIGN CHOICE. -/
def copyPlace (used : List CopyRec) (n : Nat) : Nat :=
  let free (a : Nat) : Bool := used.all fun c => decide (c.sheet + c.sheets ≤ a) || decide (a + n ≤ c.sheet)
  (((0 :: used.map fun c => c.sheet + c.sheets).filter free).min?).getD 0

/-- One record goes into the tier-1 copy, in whole sheets, which clears their marks (R191). -/
def State.keepCopy (s : State) (used : List CopyRec) (r : Rec) : CopyRec × State :=
  let b := r.stored
  let a := copyPlace used (cdiv b.length 256)
  ({ type := r.type, index := r.index, sheet := a, len := b.length },
    s.writeT1 (copyBase + 256 * a) (b ++ zeros (sheetUp b.length - b.length)) [])

/-- Every PROGRAM, WEIGHTS and CONST record of a list goes into the copy, beside those that are there (R38, R55). -/
def State.keepCopies (s : State) (used : List CopyRec) (rs : List Rec) : List CopyRec × State :=
  (rs.filter isVersionRec).foldl (fun (cs, s) r =>
    let (c, s) := State.keepCopy s (used ++ cs) r
    (cs ++ [c], s)) (([] : List CopyRec), s)

/-- The copies of a version's records: its own, and those it keeps of the version before. -/
def mergeCopies (recs : List Rec) (old own : List CopyRec) : List CopyRec :=
  let same (c d : CopyRec) : Bool := c.type == d.type && c.index == d.index
  (old.filter fun c => !own.any (same c) && recs.any fun r => r.type == c.type && r.index == c.index) ++ own

/-! ### Reading the copy again (R211, R213, R312) -/

/-- A coded stream as the beater decodes it again: its raw bytes, the raw sheets of bad and poisoned blocks, and how
many were bad. `orig` is the stream as it was checked, which tells where its blocks lie; a bad block decodes as
poisoned sheets (R213). -/
def reDecode (raw : Nat) (orig b : Bytes) (poison : List Nat) : Bytes × List Nat × Nat :=
  let sizes := streamSheets (cdiv raw 4096 + 1) raw orig
  let (out, bad, n, _) := sizes.zipIdx.foldl (fun (out, bad, n, a) (k, i) =>
    match decodeBlock i ((b.drop (256 * a)).take (256 * k)) with
    | some d => (out ++ d, bad, n, a + k)
    | none => (out ++ zeros (Nat.min 4096 (raw - 4096 * i)), bad ++ (List.range 16).map (16 * i + ·), n + 1, a + k))
    (([] : Bytes), codedPoison raw orig poison, 0, 0)
  (out, bad, n)

/-- The payload of a copied record, and its poisoned sheets; coded WEIGHTS pass the beater again, which counts. -/
def State.readCopy (s : State) (c : CopyRec) (r : Rec) : Bytes × List Nat × State :=
  let a := copyBase + 256 * c.sheet
  let s := s.rebuildIn a c.len
  let b := s.mem.readN (t1Addr a) c.len
  let bad := (List.range c.sheets).filter fun i => s.t1Bad (a / 256 + i)
  if r.coded.isEmpty then (b, bad, s)
  else
    let (out, bad, n) := reDecode r.body.length r.coded b bad
    let s := (s.count 0x058 0 out.length).count 0x059 0 c.len
    (out, bad, if n = 0 then s else s.count 0x05B 0 n)

/-- Lines of a record on its tile: line, and where its bytes lie in the payload. -/
def recSpots (r : Rec) : List (Nat × Nat × Nat) :=
  let cut (l o n : Nat) : List (Nat × Nat × Nat) :=
    (List.range (cdiv n 256)).map fun i => (l + i, o + 256 * i, Nat.min 256 (n - 256 * i))
  if r.type = 2 then cut (pLine r.body) 64 (32 * pCount r.body)
  else (((extents r.body).getD []).foldl (fun (out, o) (l, b) =>
    (out ++ cut l (o + 16) b.length, o + 16 + b.length)) (([] : List (Nat × Nat × Nat)), 0)).1

/-- Rewrite the lines of a record that `pick` names from the tier-1 copy. A line whose bytes there read poison stays as
it is, and WEIGHTS_LOST is set (R312). -/
def State.reloadRec (s : State) (v : Ver) (c : CopyRec) (pick : Nat → Bool) : State :=
  match recOf v.recs c.type c.index with
  | none => s
  | some r =>
    let ls := (recSpots r).filter fun l => pick l.1
    if ls.isEmpty then s
    else
      let (b, bad, s) := s.readCopy c r
      s.each ls fun s (l, o, n) =>
        if (sheetsOf o n).any bad.contains then { s with ream := { s.ream with weightsLost := true } }
        else s.spWrite c.index l (fit 256 ((b.drop o).take n)) []

/-- Rewrite every poisoned ream line of a tile, of both resident versions, and under `all` every line of their
PROGRAM records. -/
def State.reloadTile (s : State) (t : Nat) (all : Bool) : State :=
  s.each (s.ream.act :: s.ream.old.toList) fun s v =>
    s.each (v.copy.filter fun c => c.index == t) fun s c =>
      s.reloadRec v c fun l => s.spBad t l || (all && c.type == 2)

/-- Coded records were decoded for the image (Table 9.11). -/
def State.beaterCount (s : State) (raw cod : Nat) : State :=
  if cod = 0 then s else (s.count 0x058 0 raw).count 0x059 0 cod

/-! ### Bounds (R47, R48, R361) -/

/-- The wake governor's time to wake n gated groups, in nanoseconds (R361). -/
def wakeNs (n slew : Nat) : Nat := n * cdiv 4000000 slew + 20000

/-- WAKE_NS: the time to wake every group that can be gated. -/
def State.wakeAll (s : State) : Nat :=
  wakeNs ((List.range 9).filter fun g => bitsOf s.fuse.tileMask (8 * g + 7) (8 * g) != 0).length
    (s.regF 0xA000C 15 0)

/-- Largest distance in intervals between consecutive slots of a partition, cyclically; none without a
slot. -/
def slotGap (slots : List Nat) (n : Nat) : Option Nat :=
  match slots with
  | [] => none
  | x :: _ => some (((slots.zip ((slots.drop 1) ++ [x + n])).map fun (a, b) => b - a).foldl Nat.max 0)

/-- Slots dedicated to a partition. -/
def State.slotsOf (s : State) (p : Nat) : List Nat :=
  (List.range (hSlots s.ream.hdr)).filter fun j => s.isDedicated p j

/-- The bound of a partition in nanoseconds (Table 2.7): felt cycles at 1.6 GHz, and the exit crossings,
27.583 ns. -/
def State.boundOf (s : State) (p : Nat) : Nat :=
  let h := s.ream.hdr
  if s.ream.mode != 0 then 0
  else match slotGap (s.slotsOf p) (hSlots h) with
    | none => 0
    | some gap =>
      let last := hStages h - 1
      let depth := ((List.range last).map fun i => stResidency (s.stageRec i)).foldl (· + ·) 0
      let cycles := (gap + depth) * hInterval h + hLead h + stSpan (s.stageRec last)
      let wake := if bitAt (hFlags h) 0 then s.wakeAll else 0
      cdiv (15 * cycles + 662) 24 + wake

/-- Every partition's PART_BOUND is computed anew (R38, R48). Assumption 24, DEDUCED. -/
def State.setBounds (s : State) : State :=
  s.each (List.range 16) fun s p =>
    let b := s.boundOf p
    s.modPart p fun q => { q with bound := b }

/-- The bounds as computed apply to posts admitted from now on. -/
def State.useBounds (s : State) : State :=
  s.each (List.range 16) fun s p => s.modPart p fun q => { q with boundUsed := q.bound }

/-! ### Tile groups (R51, R361) -/

/-- Groups of eight tiles that hold a stage, of the resident ream. -/
def State.stageGroups (s : State) : List Nat :=
  (List.range 9).filter fun g => (List.range (hStages s.ream.hdr)).any fun i =>
    bitsOf (stTiles (s.stageRec i)) (8 * g + 7) (8 * g) != 0

/-- Groups with an enabled tile. -/
def State.groups (s : State) : List Nat :=
  (List.range 9).filter fun g => bitsOf s.fuse.tileMask (8 * g + 7) (8 * g) != 0

/-- Tiles of a group that are enabled. -/
def State.groupTiles (s : State) (g : Nat) : List Nat := s.tileList.filter fun t => t / 8 == g

/-- Cycle of the power and management controller's clock. -/
def State.pmNow (s : State) : Nat := FMap.get s.clk 35 0

/-- A gating that falls on the cycle of a wake of its group is dropped: the group is as it was (R361). -/
def State.dropGating (s : State) (g : Nat) : State :=
  match FMap.find s.pwr.gated g with
  | none => s
  | some (at_, mhz) =>
    if at_ != s.pmNow then s
    else
      let s := { s with pwr := { s.pwr with
        awake := s.pwr.awake ++ [g], tclk := FMap.set s.pwr.tclk g mhz
        queue := s.pwr.queue.filter (· != (g, false)), gated := FMap.del s.pwr.gated g } }
      s.each (s.groupTiles g) fun s t =>
        if (s.tile t).st = 2 then s.modTile t fun x => { x with st := 1 } else s

/-- A request to wake a group: merged where the group is awake or has one (R361). -/
def State.askWake1 (s : State) (g : Nat) : State :=
  let s := s.dropGating g
  let s := { s with pwr := { s.pwr with asked := FMap.set s.pwr.asked g s.pmNow } }
  if s.pwr.awake.contains g || s.pwr.ramped.contains g || s.pwr.queue.contains (g, true) then s
  else { s with pwr := { s.pwr with queue := s.pwr.queue ++ [(g, true)] } }

/-- Ask the wake governor to wake groups. -/
def State.askWake (s : State) (gs : List Nat) : State := s.each gs State.askWake1

/-! ### Posts that end without running -/

/-- Accepted posts that are not admitted, of the partitions named. -/
def State.unadmitted (s : State) (q : Nat → Bool) : List Nat :=
  (s.posts.filter fun p => p.2.phase != 3 && q p.2.part).map (·.1)

/-- Posts that are accepted and have not passed the front end's checks, of the partitions named: those
not yet checked, those that wait for a walk, and those parked or held (R246, R248). -/
def State.waitingPosts (s : State) (q : Nat → Bool) : List Nat :=
  (s.fe.cmds.filter fun e => e.2.op == 0x01 && e.2.phase != .post && e.2.phase != .running
    && q e.2.part).map (·.1)

/-- The reads of a post's input are forgotten: what they bring goes to nobody (R290). -/
def State.unstage (s : State) (k : Nat) : State :=
  let mine (x : Xfer) : Bool := x.use == .stage k
  let out := (s.io.out.filter fun x => !(mine x && x.accepted)).map fun x => if mine x then { x with use := .other } else x
  { s with io := { s.io with out := out } }

/-- End a post that has not been admitted: staged inputs are discarded (R39, R44). -/
def State.endUnadmitted (s : State) (k st : Nat) : State :=
  match s.post? k with
  | none => s
  | some v =>
    (((s.leaveQueue k).unstage k).finish k st (postResult 0 v.step)).clearPost k

end Sys2Proof.Machine
end

