-- ==== Sys2Proof/Machine/SecOps.lean ====
section
/-! DEFINITION. Measurement registers and the measurement log (R342). -/

namespace Sys2Proof.Machine

def State.mr (s : State) (i : Nat) : Bytes := FMap.get s.sec.mrs i (zeros 32)

/-- Events of Table 16.5. -/
def evFuses : Nat := 1
def evBundle : Nat := 2
def evComponent : Nat := 3
def evPack : Nat := 4
def evLoad : Nat := 5
def evPatch : Nat := 6
def evUnload : Nat := 7
def evLock : Nat := 8
def evTest : Nat := 9

/-- Extend MRi with a digest, and append its log entry where the log has room. -/
def State.extend (s : State) (i event : Nat) (info d : Bytes) : State :=
  let entry := natLe 1 i ++ natLe 1 event ++ zeros 2 ++ fit 12 info ++ fit 32 d
  let full := decide (4096 ≤ s.sec.log.length)
  { s with sec := { s.sec with
    mrs := FMap.set s.sec.mrs i (sm3 (s.mr i ++ fit 32 d))
    log := if full then s.sec.log else s.sec.log ++ [entry]
    logTrunc := s.sec.logTrunc || full } }

end Sys2Proof.Machine
end

