-- ==== Sys2Proof/Machine/Ream.lean ====
section
/-! DEFINITION. The ream commands (R36 to R39, R54 to R58): load, patch, unload, and the load's end at
sweep 0. -/

namespace Sys2Proof.Machine

/-- The stored image a ream command names. -/
def State.imageOf (s : State) (c : Cmd) (img : Rd) : Rd :=
  s.readSeg c.part (c.f 16 1) (c.f 24 6) (c.f 32 4) img

/-- An image in a remote segment is read by RDMA READ before anything of it is judged (R290). -/
def State.imageGet (s : State) (k : Nat) (c : Cmd) : Bool × State :=
  s.operAsk k c.part (c.f 16 1) (c.f 24 6) (c.f 32 4)

/-- The image is about to be read, in OPEN time (R182, R260). -/
def State.imageAsk (s : State) (c : Cmd) : Bool × State := s.openAsk c.part (c.f 16 1) (c.f 24 6) (c.f 32 4) false

/-- Some enabled tile is in TEST (R88). -/
def State.anyTest (s : State) : Bool := s.tileList.any fun t => (s.tile t).st == 4

/-- The header, which no poison hides (R383), selects a YN5 profile, and the partition has not negotiated YN5
(Table 10.2). Assumption 18, DEDUCED. -/
def State.profileDenied (s : State) (p : Nat) (img : Rd) : Bool :=
  let h := imgHead img.data
  img.poison.all (fun l => decide (h.length ≤ 64 * l)) && decide (0x10 ≤ hMode h) && decide (hMode h ≤ 0x14)
    && !(s.part p).feat 4

/-- The header of an image, as far as the image goes. -/
def State.imageStart (s : State) (c : Cmd) (img : Rd) : Rd :=
  s.readSeg c.part (c.f 16 1) (c.f 24 6) (Nat.min 128 (c.f 32 4)) img

/-- The checks of a ream or patch command: an image whose header can be read at once, and whose MODE the partition has
not negotiated, fails in the second step of R231, whatever follows the header. -/
def State.imageFront (s : State) (k op : Nat) (img : Rd) (go : State → Cmd → State) : State :=
  match s.fresh? k op with
  | none => s
  | some c =>
    let img := s.operOf k c.part (c.f 16 1) img
    let r : Range := { seg := c.f 16 1, off := c.f 24 6, len := Nat.min 128 (c.f 32 4), tiers := [1, 2] }
    if c.phase = .accepted && !badDesc c.desc && (s.ring c.ring).kernel
        && (s.rangeBad c.part r).isNone && (s.rangeFault c.part r).isNone
        && s.profileDenied c.part (s.imageStart c img) then s.refuse k c stNoFeature
    else s.front k op go

/-- A ream or patch image is refused (R37, R213). -/
def State.rejectImage (s : State) (k reason idx : Nat) (coding : Bool) : State :=
  let s := if coding then s.count 0x05B 0 1 else s
  let i := rejectInfo reason idx
  ({ s with ream := { s.ream with rejectInfo := i } }).finish k stReamInvalid i

/-- REAM_LOAD (R36, R37): the image is checked, and copying begins. -/
def execReamLoad (ring seq : Nat) (img : Rd) (s : State) : Host.Outcome State Fault Refusal :=
  let k := cmdKey ring seq
  .next (s.imageFront k 0x10 img fun s c =>
    let rd := s.imageOf c (s.operOf k c.part (c.f 16 1) img)
    let (ok, s) := s.imageGet k c
    if !ok then s
    else
    if s.profileDenied c.part rd then s.finish k stNoFeature
    else if s.ream.job.isSome || s.ream.resident || s.anyTest then s.finish k stReamBusy
    else
      let (ok, s) := s.imageAsk c
      if !ok then s
      else match s.checkLoad c.part (c.f 32 4) c.coded rd with
        | .bad r i b => s.rejectImage k r i b
        | .good g raw cod =>
          let s := (s.beaterCount raw cod).setPhase k .running
          { s with ream := { s.ream with
            owner := c.part
            job := some { cmd := k, kind := 0, hdr := g.hdr, recs := g.recs, digest := sm3 rd.data
                          reserve := g.t0Bytes / 2 ^ 20 } } })

/-! ### The installation of a load (R38, R102, R134, R170) -/

/-- Version records, and the others. -/
def verRecs (rs : List Rec) : List Rec := rs.filter isVersionRec
def ctlRecs (rs : List Rec) : List Rec := rs.filter fun r => !isVersionRec r

/-- Layers the PROGRAM records rearm. -/
def rearmed (rs : List Rec) : List Nat :=
  ((layerAll rs).filter fun (_, _, f, _) => f == 1).map (fun (_, l, _, _) => l) |>.eraseDups

/-- Fresh stream keys, and both streams at position 0, for every enabled tile (R102). -/
def State.drawKeys (s : State) : State :=
  let s := s.each s.tileList fun s t =>
    let key := Config.freeKey s.free
    let s := { s with free := s.free + 1 }
    ((s.modTile t fun x => { x with streamKey := key }).setCtr 0x011 (2 * t) 0).setCtr 0x011 (2 * t + 1) 0
  s.each (List.range 9) fun s g =>
    let (n, s) := s.freeVal
    { s with tiers := { s.tiers with intKey := FMap.set s.tiers.intKey g (BitVec.ofNat 32 n) } }

/-- Where physical row p of table u is copied to. -/
def State.pinnedPlace (s : State) (u p : Nat) : Nat :=
  let b := s.tab u
  let (sh, loc) := shardOf p (tSeed b) (shardBits b)
  s.placeAddr u ((shardTiles b).getD sh 0) loc

/-- Copy every row of a PINNED table from its home, with its marks (R134). -/
def State.pinTable (s : State) (u : Nat) : State :=
  let b := s.tab u
  let n := rowBytes b
  let base := t1Addr (s.homeAddr u 0 0 - s.rowNumber u 0 0 * n)
  let size := tRows b * n
  let mem := (shardTiles b).foldl (fun m t => m.zero (s.placeAddr u t 0) (areaBytes b)) s.mem
  let mem := (s.mem.cells.filter fun c => base ≤ c.1 && c.1 < base + size).foldl (fun m c =>
    m.writeN (s.pinnedPlace u ((c.1 - base) / n) + (c.1 - base) % n) [c.2]) mem
  let bad := if s.anyFailed
    then (List.range (size / 256)).filter fun i => s.t1Bad ((base - t1Addr 0) / 256 + i)
    else (s.mem.poison.filter fun x => base ≤ 256 * x && 256 * x < base + size).map fun x => x - base / 256
  (({ s with mem := mem }).rebuildIn (base - t1Addr 0) size).each bad fun s i =>
    let a := s.pinnedPlace u (256 * i / n) + 256 * i % n
    s.poisonT0 ((a - t0Addr 0 0) / 2 ^ 31) ((a - t0Addr 0 0) % 2 ^ 31 / 256)

/-- Every PINNED table's copies are loaded. -/
def State.pinTables (s : State) : State :=
  s.each ((List.range (hTables s.ream.hdr)).filter fun u => tPinned (s.tab u) && tKind (s.tab u) != 2)
    State.pinTable

/-- Every enabled tile goes from STARTUP to SERVING (Table 3.11). -/
def State.serveTiles (s : State) : State :=
  s.each s.tileList fun s t => if (s.tile t).st = 0 then s.modTile t fun x => { x with st := 1 } else s

/-- The loaded ream as it stands at sweep 0 (R32, R38, R43, R114). -/
def State.sweepZero (s : State) (j : ReamJob) : Ream :=
  let g : Img := { hdr := j.hdr, recs := j.recs, own := [], patch := false, en := s.fuse.tileMask, owner := s.ream.owner }
  { resident := true, sealed := g.sealedBy (s.seg? s.ream.owner), owner := s.ream.owner
    hdr := j.hdr, recs := ctlRecs j.recs, mode := hMode j.hdr, act := { num := 0, recs := verRecs j.recs, copy := j.copy }
    rejectInfo := s.ream.rejectInfo, admission := true, lastPooled := 15, sweepAt := s.feltNow
    reserve := g.t0Bytes / 2 ^ 20, unloads := s.ream.unloads, half := s.ream.half, ownTable := true }

/-- The ream command in progress has ended: an unload that waits begins (R36). -/
def State.jobDone (s : State) : State :=
  let s := { s with ream := { s.ream with job := none } }
  if s.ream.resident then match s.ream.unloads with
    | [] => s
    | k :: ks => { s with ream := { s.ream with unloads := ks, job := some { cmd := k, kind := 2 } } }
  else
    let s' := { s with ream := { s.ream with unloads := [] } }
    s'.each s.ream.unloads fun s k => s.finish k stNoReam

/-- Host-cached lines in frames that the loaded ream's grant closes (R260). -/
def State.loadLines (s : State) (j : ReamJob) : List Nat :=
  let g := (j.recs.find? (·.type == 9)).map (·.body)
  s.closingLines fun p => p == s.ream.owner || match g with
    | some b => gAccess b p == 1
    | none => false

/-- REAM_LOAD_COPY_DONE (R38): the records are copied and the tables installed; the ream's slot tables
take over as sweep 0, admission opens and the load completes. The load first waits for the host's lines
in frames it closes (R260). Assumption 19, DEDUCED. -/
def execReamLoadCopyDone (s : State) : Host.Outcome State Fault Refusal :=
  .next (match s.ream.job with
    | none => s
    | some j =>
      if j.kind != 0 then s
      else if !(s.loadLines j).isEmpty then s.snoop (s.loadLines j)
      else
        let (cs, s) := (s.copyRecs j.recs).keepCopies [] j.recs
        let j := { j with copy := cs }
        let s := { s with
          ream := s.sweepZero j
          gat := { dirtyPeak := s.gat.dirtyPeak }
          rel := { s.rel with vault := { s.rel.vault with step := none, base := none }, passed := [] } }
        let s := (s.drawKeys.pinTables.serveTiles).setBounds.useBounds
        let s := s.askWake s.groups
        let idle := s.groups.map fun g => (g, 0)
        let s := { s with ream := { s.ream with idle := idle } }
        let s := s.extend 6 evLoad (natLe 2 0) j.digest
        (s.finish j.cmd stOk 0).jobDone)

/-! ### Patches (R54, R55) -/

/-- REAM_PATCH (R37, R55): the patch is checked and its records copied into the patch reserve. -/
def execReamPatch (ring seq : Nat) (img : Rd) (s : State) : Host.Outcome State Fault Refusal :=
  let k := cmdKey ring seq
  .next (s.imageFront k 0x11 img fun s c =>
    let rd := s.imageOf c (s.operOf k c.part (c.f 16 1) img)
    let (ok, s) := s.imageGet k c
    if !ok then s
    else
    if s.profileDenied c.part rd then s.finish k stNoFeature
    else if s.ream.job.isSome || s.ream.old.isSome then s.finish k stReamBusy
    else if !s.ream.resident then s.finish k stNoReam
    else if c.part != s.ream.owner then s.finish k stNoAccess
    else
      let (ok, s) := s.imageAsk c
      if !ok then s
      else match s.checkPatch (c.f 32 4) c.coded rd with
        | .bad r i b => s.rejectImage k r i b
        | .good g raw cod =>
          let own := g.own.map (·.2)
          let (cs, s) := ((s.beaterCount raw cod).copyRecs own).keepCopies s.ream.act.copy own
          let s := s.setPhase k .running
          { s with ream := { s.ream with
            job := some { cmd := k, kind := 1, hdr := g.hdr, recs := g.recs, own := own, copy := cs
                          move := (own.find? (·.type == 10)).map (·.body), digest := sm3 rd.data } } })

/-- Every tile group that holds a stage is awake (R53). -/
def State.stagesAwake (s : State) : Bool := s.stageGroups.all s.pwr.awake.contains

/-- A post that is accepted and not admitted is checked again on some ranges: it completes with BOUNDS, or parks with
its staged inputs discarded. Assumption 116, DEDUCED. -/
def State.recheckOn (s : State) (k : Nat) (c : Cmd) (rs : List Range) : State :=
  match firstSome (s.rangeBad c.part) rs with
  | some ro => (if ro then s.count 0x072 c.part 1 else s).endUnadmitted k stBounds
  | none => match firstSome (fun r => (s.rangeFault c.part r).map fun f => (r.seg, f)) rs with
    | some (g, off, n) => (s.dropPost k).faultPark k c g (s.faultKind c.part g off) off n
    | none => s

/-- The check of a post that is not admitted against the new version's spans at the switch (R245). -/
def State.recheckPost (s : State) (k : Nat) : State :=
  match s.cmd? k with
  | none => s
  | some c => s.recheckOn k c ({ s with ream := { s.ream with old := none } }).reamRanges

/-- The patch's version becomes active, its header, records and placement take effect, and the patch
command completes (R55, R58); the GRANT and MODE it carries wait for their boundaries (R44, R53). -/
def State.switchVersion (s : State) (j : ReamJob) : State :=
  let n := hVersion j.hdr
  let grant := j.own.find? (·.type == 9)
  let recs := match s.grantRec with
    | some g => mergeRecs (ctlRecs j.recs) [g]
    | none => (ctlRecs j.recs).filter (·.type != 9)
  let rearm := rearmed j.own
  let mode := hMode j.hdr
  let s := { s with ream := { s.ream with
    hdr := j.hdr, recs := recs, old := some s.ream.act
    act := { num := n, recs := verRecs j.recs, rearm := rearm, target := j.move.map mvTarget
             copy := mergeCopies (verRecs j.recs) s.ream.act.copy j.copy }
    grantNext := match grant with
      | some g => some g
      | none => s.ream.grantNext
    modeNext := if mode = s.ream.mode then none else some mode
    esc := rearm.foldl (fun e l => e &&& ~~~(BitVec.ofNat 32 (2 ^ l))) s.ream.esc
    escPend := s.ream.escPend.filter fun (l, _, _) => !rearm.contains l } }
  let s := s.extend 6 evPatch (natLe 2 n) j.digest
  let s := (s.finish j.cmd stOk n).each (s.unadmitted fun _ => true) State.recheckPost
  s.freeOldVersion.jobDone

/-! ### Unload (R36, R39) -/

/-- REAM_UNLOAD (R36, R39): admission will close at the next sweep boundary; behind a ream command in
progress the unload waits. -/
def execReamUnload (ring seq : Nat) (s : State) : Host.Outcome State Fault Refusal :=
  let k := cmdKey ring seq
  .next (s.front k 0x12 fun s c =>
    if c.part != s.ream.owner then s.finish k stNoAccess
    else
      let s := s.setPhase k .running
      if s.ream.job.isSome then { s with ream := { s.ream with unloads := s.ream.unloads ++ [k] } }
      else { s with ream := { s.ream with job := some { cmd := k, kind := 2 } } })

/-- Admission closes: every accepted post that is not admitted completes with NO_REAM (R39, R327). -/
def State.closeAdmission (s : State) : State :=
  let s := { s with ream := { s.ream with admission := false } }
  let s := s.each (s.unadmitted fun _ => true) fun s k => s.endUnadmitted k stNoReam
  s.endIdle (s.waitingPosts fun _ => true) stNoReam

/-- Tier-0 below no segment: the ream's reserved range of every enabled tile is zeroed. -/
def State.zeroReserve (s : State) : State :=
  let n := s.ream.reserve * 2 ^ 20
  s.each s.tileList fun s t =>
    let m := s.mem.zero (spAddr t 0) (256 * spLines)
    { s with mem := m.zero (t0Addr t (t0Limit - n)) n }

/-- The base slot table returns after the last admitted post, with every stale row written back: scratchpads
and post buffers are zeroed, tiles returned to STARTUP, and the unload completes (R39, R163). Every dirty row is in the
vault log by then, and a TABLE_COMMIT or CHECKPOINT that waits goes on. ESC_STATE is 0 after it (R114; assumption 148,
DESIGN CHOICE). -/
def State.unloadDone (s : State) (k : Nat) : State :=
  let s := s.allDurable.commitGo
  let s := s.zeroReserve
  let s := s.each s.tileList fun s t =>
    let x := s.tile t
    s.setTile t { streamKey := x.streamKey, pattern := x.pattern, sliceAt := x.sliceAt, round := x.round }
  let s := s.each s.tileList fun s t => s.setCtr 0x037 t 0
  let s := { s with
    ream := { rejectInfo := s.ream.rejectInfo, unloads := s.ream.unloads, half := s.ream.half }
    gat := { dirtyPeak := s.gat.dirtyPeak }, felt := []
    rel := { s.rel with restoring := false
                        vault := { s.rel.vault with base := none, step := none } } }
  let s := s.setBounds.useBounds
  let s := s.extend 6 evUnload [] (zeros 32)
  (s.finish k stOk).jobDone

end Sys2Proof.Machine
end

