-- ==== Sys2Proof/Machine/Posts.lean ====
section
/-! DEFINITION. Posts from acceptance to admission (R42 to R45, R47, R152, R165, R166, R207, R214,
R382), and a post's entry into a stage (R29, R65). -/

namespace Sys2Proof.Machine

/-- POST (R231): the checks of an accepted post. A reserved KIND or field in a directory that can be read at once
fails with the format checks of the first step, a gradient list without UPDATE with those of the second. -/
def execPost (ring seq : Nat) (dir : Rd) (s : State) : Host.Outcome State Fault Refusal :=
  let k := cmdKey ring seq
  .next (match s.fresh? k 0x01 with
    | none => s
    | some c =>
      if c.phase = .accepted && s.dirEarly c dir != 0 then s.refuse k c (s.dirEarly c dir)
      else s.front k 0x01 fun s c => s.postJudge k c dir)

/-- Posts that hold a buffer set (R382). -/
def State.setsInUse (s : State) : Nat := (s.posts.filter fun p => p.2.phase != 0).length

/-- The lowest buffer set that no post holds. -/
def State.freeSet (s : State) : Nat :=
  ((List.range s.bufferSets).find? fun i => !(s.posts.any fun p => p.2.phase != 0 && p.2.set == i)).getD 0

/-- Raw dense bytes of a post, and the end of its stored body. -/
def State.denseRaw (s : State) (v : Post) : Nat := v.q * hDense s.ream.hdr
def Post.bodyEnd (v : Post) : Nat :=
  match v.lists.getLast? with
  | some l => l.srcOff + l.size
  | none => v.denseLen

/-- Offset of the stored body in the input segment. -/
def Cmd.bodyOff (c : Cmd) : Nat := c.f 24 6 + dirSize (c.f 18 2)

/-- The input segment of a post is a remote one, read by RDMA (R290). -/
def State.remoteInput (s : State) (c : Cmd) : Bool :=
  match s.heldSeg c.part (c.f 20 1) with
  | some v => v.tier == 2 && v.remote
  | none => false

/-- Staging from a remote segment: the body is read by RDMA READ; with its queue pair down the read fails (R290). -/
def State.askInput (s : State) (k : Nat) (c : Cmd) (v : Post) : State :=
  if !s.remoteInput c then s
  else match s.heldSeg c.part (c.f 20 1) with
    | none => s
    | some g =>
      if !s.hostUp c.part g.qp then s.endUnadmitted k stXferFail
      else s.each (piecesOf g c.bodyOff (zeros v.bodyEnd)) fun s (o, d) =>
        s.issue { id := 0, use := .stage k, part := c.part, kind := 1, qp := some g.qp, rkey := g.rkey
                  addr := g.addr o, len := d.length }

/-- Some read of a post's input has not been answered. -/
def State.stageWaits (s : State) (k : Nat) : Bool := s.outFor (.stage k)

/-- What the reads of a post's input brought, in order. -/
def State.stageData (s : State) (k : Nat) : Rd :=
  readsJoin (s.io.out.filter fun x => x.use == .stage k)

/-- STAGING_START (R382). -/
def execStagingStart (ring seq : Nat) (s : State) : Host.Outcome State Fault Refusal :=
  let k := cmdKey ring seq
  .next (match s.post? k, s.cmd? k with
    | some v, some c =>
      if v.phase = 0 && s.setsInUse < s.bufferSets then
        ((s.setPhase k .post).setPost k { v with phase := 1, set := s.freeSet }).askInput k c v
      else s
    | _, _ => s)

/-! ### Staging (R207, R211 to R214, R383) -/

/-- A bad coded block in a post's input (R213). -/
def State.codingBad (s : State) (k : Nat) : State := (s.count 0x05B 0 1).endUnadmitted k stCodingBad

/-- Raw bytes the decoders have written. -/
def Post.rawDone (v : Post) : Nat := (v.decoded.map fun e => e.2.length).foldl (· + ·) 0

/-- One block of a post's coded dense part is decoded. -/
def State.beaterBlock (s : State) (k : Nat) (v : Post) (b : Bytes) : State :=
  let left := s.denseRaw v - v.rawDone
  let n := 256 * blockSheets b
  match decodeBlock v.decoded.length b with
  | none => s.codingBad k
  | some raw =>
    if left < raw.length || (raw.length != 4096 && raw.length != left) || sheetUp v.denseLen < v.codedPos + n
    then s.codingBad k
    else ((s.setPhase k .post).beaterCount raw.length n).setPost k { v with
      decoded := FMap.set v.decoded v.decoded.length raw, codedPos := v.codedPos + n }

/-- BEATER_BLOCK_DECODE (R214): the next block of a coded input that is not encrypted. `block` is the
coded block as read from outside; a block in tier-1 is read there. -/
def execBeaterBlockDecode (ring seq : Nat) (block : Bytes) (s : State) : Host.Outcome State Fault Refusal :=
  let k := cmdKey ring seq
  .next (match s.post? k, s.cmd? k with
    | some v, some c =>
      if s.stageWaits k || v.phase != 1 || !c.coded || !v.sealRec.isEmpty || s.denseRaw v ≤ v.rawDone then s
      else
        let n := Nat.min (17 * 256) (sheetUp v.denseLen - v.codedPos)
        let ext := if s.remoteInput c then (s.stageData k).data.drop v.codedPos else block
        let (ok, s) := s.openAsk c.part (c.f 20 1) (c.bodyOff + v.codedPos) n false
        if !ok then s
        else
        let rd := s.readSeg c.part (c.f 20 1) (c.bodyOff + v.codedPos) n { data := ext }
        s.beaterBlock k v rd.data
    | _, _ => s)

/-- The stored body, decrypted where the post names an input slot; none where the tag fails (R207). -/
def State.openBody (s : State) (c : Cmd) (v : Post) (b : Bytes) : Option Bytes :=
  if v.sealRec.isEmpty then some b
  else
    let o := s.slot (c.f 22 2)
    let r := v.sealRec
    let aad := r.take 64
    let iv := (r.drop 16).take 12
    if gcmTag o.alg o.ingestKey iv aad b != (r.drop 64).take 16 then none
    else some (gcmDec o.alg o.ingestKey iv b)

/-- The raw dense part; none for a bad coded stream (R211, R213). -/
def State.rawDense (s : State) (c : Cmd) (v : Post) (b : Bytes) : Option Bytes :=
  let dense := b.take v.denseLen
  if !c.coded then some dense
  else
    let left := s.denseRaw v - v.rawDone
    let rest := dense.drop v.codedPos
    let fuel := cdiv left 4096 + 1
    let sheets := (streamSheets fuel left rest).foldl (· + ·) 0
    if v.codedPos + 256 * sheets != sheetUp v.denseLen then none
    else (decodeStream fuel v.decoded.length left rest).map fun r => (v.decoded.map (·.2)).flatten ++ r

/-- The staged body (R382): the raw dense part, then each list at its offset; bytes between parts are
free values. -/
def State.stageBody (s : State) (v : Post) (raw b : Bytes) : Bytes × State :=
  v.lists.foldl (fun (out, s) l =>
    let (fs, s) := s.freeVals (l.off - out.length)
    (out ++ fs.map (BitVec.ofNat 8) ++ (b.drop l.srcOff).take l.size, s)) (raw, s)

/-- Poisoned sheets of the staged body, from those of the stored one (R310, R383). -/
def State.stagePoison (s : State) (c : Cmd) (v : Post) (b : Bytes) (bad : List Nat) : List Nat :=
  let dense := bad.filter fun x => 256 * x < v.denseLen
  let raw := s.denseRaw v
  (if c.coded then (codedPoison raw (b.take v.denseLen) dense).filter fun x => 256 * x < raw else dense)
    ++ (v.lists.map fun l => (bad.filter fun x => l.srcOff ≤ 256 * x && 256 * x < l.srcOff + l.size).map
      fun x => x - l.srcOff / 256 + l.off / 256).flatten

/-- Coded bytes that were decoded together with the end of staging count too. -/
def State.restCount (s : State) (c : Cmd) (v : Post) : State :=
  if !c.coded then s else s.beaterCount (s.denseRaw v - v.rawDone) (sheetUp v.denseLen - v.codedPos)

/-- INPUT_STAGING_DONE (R42, R207, R213, R383): the whole body is decrypted, decoded and in the post's
buffer set, and the post joins its partition's admission queue. -/
def execInputStagingDone (ring seq : Nat) (body : Rd) (s : State) : Host.Outcome State Fault Refusal :=
  let k := cmdKey ring seq
  .next (match s.post? k, s.cmd? k with
    | some v, some c =>
      if v.phase != 1 then s
      else if s.cutOff c then s.endUnadmitted k stXferFail
      else if s.stageWaits k then s
      else
        let n := v.bodyEnd
        let (ok, s) := s.openAsk c.part (c.f 20 1) (c.bodyOff + v.codedPos) (n - v.codedPos) false
        if !ok then s
        else
        let rd := s.readSeg c.part (c.f 20 1) c.bodyOff n (if s.remoteInput c then s.stageData k else body)
        let s := if s.remoteInput c then s.unstage k else s
        let b := fit n rd.data
        match s.openBody c v b with
        | none => (s.count 0x052 (c.f 22 2) 1).endUnadmitted k stTagFail
        | some p =>
          match s.rawDense c v p with
          | none => s.codingBad k
          | some raw =>
            let s := s.restCount c v
            let (staged, s) := s.stageBody v raw p
            let bad := s.stagePoison c v p (lineSheets rd.poison)
            let s := s.setPost k { v with
              phase := 2, body := staged, poison := bad, bufs := [], decoded := []
              readyFelt := s.feltNow, readyHp := s.now, readyCc := FMap.get s.clk 31 0 }
            { s with ream := { s.ream with queue := s.ream.queue ++ [k] } }
    | _, _ => s)

/-! ### Entry into a stage (R29, R65, R111, R312) -/

/-- The post takes the lowest free context of a tile, at its program's ENTRY. -/
def State.takeCtx (s : State) (k t : Nat) : State :=
  match s.post? k with
  | none => s
  | some v =>
    match (List.range 4).find? fun c => (s.ctx? t c).isNone with
    | none => s.failPost k stInternal
    | some c =>
      let prog := s.progOf v.version t
      let ls := layers prog
      let (pc, wide) := landPc ls v.esc (ls.length + 1) (pEntry prog)
      let s := s.setCtx t c { post := some k, version := v.version, pc := pc, esc := v.esc
                              order := v.order, failed := v.fail != 0 }
      let s := if wide then s.flagPost t c 1 else s
      if (s.tile t).st = 3 then s.failPost k stPoison else s

/-- Gather units that have a post's whole map read its rows in the stage that gathers them. -/
def State.stageReads (s : State) (k : Nat) : State :=
  s.each (s.gat.works.filter fun g => g.post == k) State.startReads

/-- A post that has failed is over where no context of it remains (R65). -/
def State.settleFailed (s : State) (k : Nat) : State :=
  match s.post? k with
  | some v => if v.fail = 0 then s else s.settle k
  | none => s

/-- The post enters a stage: it takes a context on each of its tiles, for its residency. One that found no context free on
a tile has failed there, and is over if it holds none on any other (R65). -/
def State.enterStage (s : State) (k i : Nat) : State :=
  let b := s.stageRec i
  let ts := maskTiles (stTiles b)
  let idle := (ts.map (· / 8)).eraseDups.foldl (fun m g => FMap.del m g) s.ream.idle
  let s := { s with ream := { s.ream with idle := idle } }
  ((s.modPost k fun v => { v with stage := i, left := stResidency b }).each ts fun s t => s.takeCtx k t).stageReads k
    |>.settleFailed k

/-! ### Admission (R43, R47, R52, R152, R165, R166) -/

/-- Bytes an update post reserves. -/
def State.updReserve (s : State) (v : Post) : Nat :=
  ((v.lists.filter (·.kind == 1)).map fun l =>
    let b := s.tab l.table
    tUpdBudget b * (shardTiles b).length * rowBytes b).foldl (· + ·) 0

/-- The post carries a gradient list. -/
def Post.isUpdate (v : Post) : Bool := v.lists.any (·.kind == 1)

/-- The dirty bound in force, in bytes (R165, R187, R326, R363). -/
def State.dirtyLimit (s : State) : Nat :=
  let check := match s.rel.commit with
    | some m => m.check
    | none => false
  if check || s.rel.vault.st = 2 then 0
  else 2 ^ 30 * Nat.min (s.regF 0xC0900 4 0) s.pwr.bank.force

/-- The step would pass the partner's acknowledged step by more than the securing interval (R166). Records
before step 0 are acknowledged with all ones, the step before 0. -/
def State.lagFull (s : State) : Bool :=
  match s.rel.sender with
  | some p => p.active && match p.acked with
    | some (n, _) => decide ((n + 1) % 2 ^ 64 + p.securing < s.ream.updStep + 1)
    | none => decide (p.securing < s.ream.updStep + 1)
  | none => false

/-- The post at the head of its queue was ready by the slot's opening less LEAD. -/
def State.readyInTime (s : State) (k : Nat) : Bool :=
  match s.post? k with
  | some v => decide (v.readyFelt + hLead s.ream.hdr ≤ s.feltNow)
  | none => false

/-- First admission-ready post of a partition. -/
def State.headOf (s : State) (p : Nat) : Option Nat :=
  s.ream.queue.find? fun k => match s.post? k with
    | some v => v.part == p
    | none => false

def State.headReady (s : State) (p : Nat) : Option Nat :=
  match s.headOf p with
  | some k => if s.readyInTime k then some k else none
  | none => none

/-- The pooled partition whose turn it is, and its post (R43). -/
def State.pooledTurn (s : State) : Option (Nat × Nat) :=
  firstSome (fun i =>
    let p := (s.ream.lastPooled + 1 + i) % 16
    if s.isPooled p then (s.headReady p).map fun k => (p, k) else none) (List.range 16)

/-- The post slot j goes to, and the partition to record as the last to take a pooled slot. -/
def State.slotChoice (s : State) (j : Nat) : Option (Nat × Option Nat) :=
  if s.ream.mode = 0x10 || s.ream.mode = 0x14 then
    (s.ream.queue.find? s.readyInTime).map fun k => (k, none)
  else
    let own := ((List.range 16).find? fun p => s.isDedicated p j).bind s.headReady
    match own with
    | some k => some (k, none)
    | none => s.pooledTurn.map fun (p, k) => (k, some p)

/-- The post runs: version, bound, escalation vector and step are fixed, and it enters stage 0.
Assumption 113, DEDUCED. -/
def State.admitRun (s : State) (k : Nat) (v : Post) : State :=
  let q := s.part v.part
  let last := FMap.get s.ream.lastAdmit v.part 0
  let (n, s) := s.freeVal
  let upd := v.isUpdate
  let s := s.setPost k { v with
    phase := 3, version := s.ream.act.num, profile := s.ream.mode
    bound := if s.ream.mode = 0 then q.boundUsed else 0
    start := Nat.max v.readyHp last, esc := s.ream.esc, order := s.ream.admitted
    emergency := v.emergency || !s.pwr.emerg.isEmpty
    step := if upd then some s.ream.updStep else none
    reserve := if upd then s.updReserve v else 0, commit := if upd then 1 else 0 }
  let s := { s with ream := { s.ream with
    lastAdmit := FMap.set s.ream.lastAdmit v.part (s.now + n % 5)
    admitted := s.ream.admitted + 1
    stepped := s.ream.stepped || upd
    updStep := if upd then (s.ream.updStep + 1) % 2 ^ 64 else s.ream.updStep } }
  let s := s.askWake (s.groups.filter fun g => (s.groupTiles g).any fun t => (s.tile t).st == 2)
  (if upd then s.notePeak else s).enterStage k 0

/-- The slot is taken by a post: refused for its dirty rows or its partner's lag, or run. -/
def State.takeSlot (s : State) (k : Nat) : State :=
  let s := s.leaveQueue k
  match s.post? k with
  | none => s
  | some v =>
    if v.isUpdate && decide (s.dirtyLimit < s.dirtyBytes + s.dirtyReserved + s.updReserve v) then
      (s.count 0x03D v.part 1).endUnadmitted k stDirtyFull
    else if v.isUpdate && s.lagFull then (s.count 0x03E v.part 1).endUnadmitted k stLagFull
    else s.admitRun k v

/-- ADMISSION_SLOT_OPEN (R43, R52): the slot of the interval that has begun. -/
def execAdmissionSlotOpen (s : State) : Host.Outcome State Fault Refusal :=
  let r := s.ream
  let n := hSlots r.hdr
  .next (if !r.resident || !r.admission || r.slotDone || n ≤ r.interval then s
    else
      let s := { s with ream := { s.ream with slotDone := true } }
      if r.mode = 0x12 && n - r.skipN ≤ r.interval then s.count 0x006 0 1
      else match s.slotChoice r.interval with
        | none => s
        | some (k, pooled) =>
          let s := match pooled with
            | some p => { s with ream := { s.ream with lastPooled := p } }
            | none => s
          s.takeSlot k)

end Sys2Proof.Machine
end

