-- ==== Sys2Proof/Machine/Sweep.lean ====
section
/-! DEFINITION. The sweep and its boundaries (R29, R32, R35, R38, R39, R44, R53, R55, R58, R112, R184,
R290, R307, R312, R317, R384). -/

namespace Sys2Proof.Machine

/-! ### Half-step (R35, R51) -/

/-- Some awake group runs below 640 MHz. -/
def State.anySlow (s : State) : Bool := s.pwr.awake.any fun g => FMap.get s.pwr.tclk g 800 < 640

/-- Half-step at an interval boundary: entered under an emergency, or where the power cap of YP1, YP3 or YP4
asks for a clock below 640 MHz (R51); left when neither holds and no group is below 640 MHz. -/
def State.halfNext (s : State) : State :=
  { s with ream := { s.ream with half := !s.pwr.emerg.isEmpty || s.anySlow || s.pwr.wantLow } }

/-! ### The end of a residency (R184, R290, R384) -/

/-- Parent of the table a gather unit works on (R130). -/
def State.gatherAt (s : State) (u i : Nat) : Bool := tGatherStage (s.tab (s.parentTable u)) == i

/-- Units of a post with reads pending at the end of its gathering stage (R184). -/
def State.pendingReads (s : State) (k i : Nat) : List GWork :=
  s.gat.works.filter fun g => g.post == k && s.gatherAt g.table i && !g.exceeded && !g.reading.isEmpty

/-- Update units of a post with reads or writes pending at the end of its update stage (R152, R184). -/
def State.pendingUpd (s : State) (k i : Nat) : List UWork :=
  let go := match s.post? k with
    | some v => v.commit == 2
    | none => false
  s.gat.uworks.filter fun g => g.post == k && tUpdStage (s.tab g.table) == i
    && (go || (g.ended && !g.started && g.report == 0))

/-- Units of a post in a stage that wait for an entry or their end marker: those with a map, those whose arrivals are all
under way, and those whose list's DISPATCH has never run (R384): tile and table. -/
def State.lookupUnits (s : State) (k i : Nat) (v : Post) : List (Nat × Nat) :=
  let mine (t u : Nat) : Bool := s.gatherAt u i && match s.gwork? t k u with
    | some g => !g.exceeded && !g.ended
    | none => true
  (((s.gat.works.filter fun g => g.post == k).map fun g => (g.tile, g.table))
    ++ (s.felt.filterMap fun f => match f.msg with
        | .entry p u .. => if p = k then some (f.dst, u) else none
        | .gatherEnd p u => if p = k then some (f.dst, u) else none
        | _ => none)
    ++ ((v.lists.filter fun l => l.kind == 0 && !v.ran.contains (2 * l.table)).map
        fun l => ((s.components l.table).map fun (u, _) => (shardTiles (s.tab u)).map fun t => (t, u)).flatten).flatten
  ).eraseDups.filter fun e => mine e.1 e.2

/-- A unit or COMBINE of a post still waits for a marker, a partial or an entry (R384). -/
def State.lookupWaits (s : State) (k i : Nat) (v : Post) : Bool :=
  !(s.lookupUnits k i v).isEmpty
    || (s.tiles.any fun x => x.2.gops.any fun g =>
      g.post == k && iOp g.word == 0x31 && tGatherStage (s.tab (fld g.word 12 2)) == i)

def State.updateWaits (s : State) (k i : Nat) (v : Post) : Bool :=
  v.commit == 1 && v.lists.any fun l => l.kind == 1 && tUpdStage (s.tab l.table) == i &&
    (shardTiles (s.tab l.table)).any fun t => match s.uwork? t k l.table with
      | some g => !g.ended && g.report == 0
      | none => true

/-- A class-T2 remote FETCH of a post on a tile of the stage has not finished, be it that its queue pair is down
(R290). -/
def State.remoteWaits (s : State) (k i : Nat) : Bool :=
  (maskTiles (stTiles (s.stageRec i))).any fun t => ((s.tile t).queue 3).any fun j =>
    j.post == some k && isFetch j.word && (j.sent || match (s.cmd? k).bind (s.placeOf · j.word) with
      | some (.seg p g _ _) => (s.heldSeg p g).any (·.remote)
      | _ => false)

/-- The update of a post is abandoned although go was sent: its writes were not made (R184). -/
def State.undoGo (s : State) (k : Nat) : State :=
  s.modPost k fun v => { v with commit := if v.commit = 2 then 1 else v.commit, reserve := 0 }

/-- MEM_SKEW counts the post once on every tile where work is pending (R184, R193). -/
def State.memSkew (s : State) (tiles : List Nat) : State := s.each tiles.eraseDups fun s t => s.count 0x043 t 1

/-- The gather units stop a post's work on the tables of a stage, each with its over marker (R145). -/
def State.stopLookups (s : State) (gs : List GWork) : State := s.each gs State.stopUnit

/-- Units that wait at the end of a residency send their over markers (R384): tile and table. -/
def State.waitingUnits (s : State) (k i : Nat) (v : Post) : List (Nat × Nat) :=
  s.lookupUnits k i v
    ++ (if v.commit != 1 then [] else
      ((v.lists.filter fun l => l.kind == 1 && tUpdStage (s.tab l.table) == i).map fun l =>
        ((shardTiles (s.tab l.table)).filter fun t => match s.uwork? t k l.table with
          | some g => !g.ended && g.report == 0
          | none => true).map fun t => (t, l.table)).flatten)

/-- The update units with work pending send their over markers, each table counts the post, and the update is abandoned
with no row written (R184). -/
def State.stopUpdates (s : State) (k : Nat) (gs : List UWork) : State :=
  if gs.isEmpty then s
  else
    let s := s.each gs fun s g => s.sendOver g.tile k g.table
    (s.each (gs.map (·.table)).eraseDups fun s u => s.count 0x033 u 1).undoGo k

/-- A post's residency in a stage ends: what is still pending fails it. Where one of its units has reads pending (R184)
and another still waits (R384), R184's status stands; and where reads and updates are pending at one boundary, the
lookups' GATHER_OVER (assumption 122, DEDUCED). -/
def State.residencyEnd (s : State) (k i : Nat) (v : Post) : State :=
  let reads := s.pendingReads k i
  let upds := s.pendingUpd k i
  if !reads.isEmpty || !upds.isEmpty then
    let s := s.memSkew (reads.map (·.tile) ++ upds.map (·.tile))
    ((s.stopLookups reads).stopUpdates k upds).failPost k (if reads.isEmpty then stUpdateOver else stGatherOver)
  else if s.lookupWaits k i v || s.updateWaits k i v then
    (s.each (s.waitingUnits k i v) fun s (t, u) => s.sendOver t k u).failPost k stInternal
  else if s.remoteWaits k i then (s.count 0x09E v.part 1).failPost k stXferFail
  else s

/-- One admitted post at an interval boundary: its residency runs down, and at its end the post enters
the next stage. -/
def State.advancePost (s : State) (k : Nat) : State :=
  match s.post? k with
  | none => s
  | some v =>
    let s := s.setPost k { v with left := v.left - 1, past := if v.left = 0 then v.past + 1 else v.past }
    if v.left != 1 || v.fail != 0 then s
    else
      let s := s.residencyEnd k v.stage v
      let failed := match s.post? k with
        | some w => w.fail != 0
        | none => true
      if failed then s.settle k
      else if v.stage + 1 < hStages s.ream.hdr then s.enterStage k (v.stage + 1)
      else s

/-- Admitted posts in admission order. -/
def State.admittedPosts (s : State) : List Nat :=
  let ps := s.posts.filter fun p => p.2.phase == 3
  ((List.range s.ream.admitted).filterMap fun n => (ps.find? fun p => p.2.order == n).map (·.1))

/-! ### Stage moves (R58) -/

/-- The source holds no post, and every result it sent has been accepted. Assumption 21, DEDUCED. Inputs of a next post that
have already landed there are neither waited for nor carried to the target, of which R58 says nothing (assumption 146,
DESIGN CHOICE). -/
def State.sourceIdle (s : State) (t : Nat) : Bool :=
  (s.tile t).ctxs.isEmpty && !s.felt.any fun f => f.src == t && match f.msg with
    | .sheets .. => true
    | _ => false

/-- A move whose source has drained switches: the version and the placement take effect, and the epoch
of the slice rises. -/
def State.moveSwitch (s : State) : State :=
  match s.ream.job with
  | none => s
  | some j =>
    match j.move with
    | none => s
    | some m =>
      if j.kind != 1 || !s.sourceIdle (mvSource m) then s
      else
        let e := (FMap.get s.ream.epochs (mvSource m) 0 + 1) % 256
        let s := { s with ream := { s.ream with
          epochs := FMap.set s.ream.epochs (mvTarget m) e
          moves := s.ream.moves ++ [(⟨mvStage m, mvSource m, mvTarget m, hSlots s.ream.hdr⟩ : Move)] } }
        s.switchVersion j

/-- STAGE_MOVE_SOURCE_RELEASE (R58): one sweep after the switch the source's scratchpad is zeroed. Moves switch one
after another, so the first of the list is the first to be released. -/
def execStageMoveSourceRelease (s : State) : Host.Outcome State Fault Refusal :=
  .next (match s.ream.moves with
    | [] => s
    | m :: ms =>
      if m.wait != 0 then s
      else
        let s := { s with mem := s.mem.zero (spAddr m.source 0) (256 * spLines) }
        let s := s.modTile m.source fun x => { x with badLines := [], landed := [] }
        { s with ream := { s.ream with moves := ms } })

/-! ### RECOVERY and calender slices at an interval boundary (R307, R312) -/

/-- Posts that hold a context on a tile. -/
def State.heldBy (s : State) (t : Nat) : List Nat :=
  ((s.tile t).ctxs.filterMap fun c => c.2.post).eraseDups

/-- Some ream line of a tile carries poison (R312). -/
def State.reamBad (s : State) (t : Nat) : Bool :=
  s.mem.poison.any fun n => decide (spAddr t 0 / 256 ≤ n) && decide (n < spAddr t 0 / 256 + spLines)
    && s.reamLine t (n - spAddr t 0 / 256)

/-- A tile with poisoned ream lines that a post has read enters RECOVERY; one whose poisoned ream lines are all rewritten
leaves it. -/
def State.recoveryTile (s : State) (t : Nat) : State :=
  let x := s.tile t
  if x.st = 1 && !x.badLines.isEmpty then
    (s.modTile t fun x => { x with st := 3 }).each (s.heldBy t) fun s k => s.failPost k stPoison
  else if x.st = 3 && x.badLines.isEmpty && !s.reamBad t then s.modTile t fun x => { x with st := 1 }
  else s

/-- REAM_DEGRADED clears when no tile remains in RECOVERY for a reload and no weights are lost. -/
def State.degradedNext (s : State) : State :=
  if s.ream.weightsLost || s.tileList.any (fun t => (s.tile t).st == 3 || !(s.tile t).badLines.isEmpty) then s
  else { s with ream := { s.ream with degraded := false } }

/-- TCLK cycles of a tile's group. -/
def State.tclk (s : State) (t : Nat) : Nat := FMap.get s.clk (t / 8) 0

/-- A tile in SERVING takes a slice when one is due: its sequencer stops issuing to the array and the vector engine, whose
queued instructions still run to their end (R307). -/
def State.sliceTile (s : State) (t : Nat) : State :=
  let x := s.tile t
  if x.st = 1 && !x.slice && x.sliceAt + 204800 ≤ s.tclk t then
    (s.modTile t fun x => { x with
      slice := true, sliceAt := s.tclk t, sliceSweep := s.ream.sweeps, round := true }).count 0x0A5 t 1
  else s

/-- INTERVAL_BOUNDARY (R29): the boundary at the end of the interval that runs. Assumption 20, DEDUCED. -/
def execIntervalBoundary (s : State) : Host.Outcome State Fault Refusal :=
  .next (if !s.ream.resident || s.rel.stuck || hSlots s.ream.hdr ≤ s.ream.interval then s
    else
      let moves := s.ream.moves.map fun m => { m with wait := m.wait - 1 }
      let s := { s with ream := { s.ream with
        interval := s.ream.interval + 1, slotDone := false, moves := moves } }
      let s := s.halfNext.moveSwitch
      let s := s.each s.tileList State.recoveryTile
      let s := (s.each s.admittedPosts State.advancePost).degradedNext
      s.each s.tileList State.sliceTile)

/-! ### CALENDER_SLICE_END (R316, R317) -/

/-- The pack a tile's round runs from: PACK_ID and patterns. -/
def State.tilePack (s : State) (t : Nat) : Nat × Nat :=
  (FMap.find s.rel.packOf t).getD (s.rel.packId, s.rel.packLen)

/-- The tile's next round uses the active pack, none of whose patterns has passed on it (R316, R317). -/
def State.newPack (s : State) (t : Nat) : State :=
  if (FMap.find s.rel.packOf t).isNone then s
  else { s with rel := { s.rel with
    packOf := FMap.del s.rel.packOf t, passed := s.rel.passed.filter fun e => e.1 / 4096 != t } }

/-- A slice passed: the next pattern, or a round is complete and the next uses the active pack. -/
def State.slicePass (s : State) (t p len : Nat) : State :=
  let passed := FMap.set s.rel.passed (t * 4096 + p) (s.tile t).sliceSweep
  let s := { s with rel := { s.rel with passed := passed } }
  if p + 1 < len then s.modTile t fun x => { x with pattern := p + 1 }
  else
    ((s.newPack t).modTile t fun x => { x with pattern := 0, round := false }).count 0x0B6 t 1

/-- A slice mismatched: the tile is suspect since the last slice in which the pattern passed. -/
def State.sliceFail (s : State) (t p : Nat) : State :=
  let since := FMap.get s.rel.passed (t * 4096 + p) 0
  (({ s with rel := { s.rel with
    suspect := s.rel.suspect ||| 2 ^ t
    suspSweep := FMap.set s.rel.suspSweep t since } }).count 0x0B5 t 1).raise (coreSource 23)

/-- CALENDER_SLICE_END: `crc` is the CRC-32C of the slice's results. The slice, which ran once the queued instructions
were done, has displaced the array's active block (R315). -/
def execCalenderSliceEnd (tile : Nat) (crc : Word) (s : State) : Host.Outcome State Fault Refusal :=
  let x := s.tile tile
  .next (if !x.slice || !x.fills.isEmpty || !x.vec.isEmpty then s
    else
      let s := s.modTile tile fun x => { x with slice := false, active := none }
      let (id_, len) := s.tilePack tile
      if crc = Config.calenderCode id_ x.pattern then s.slicePass tile x.pattern len
      else s.sliceFail tile x.pattern)

/-! ### ESC_COUNT_REPORT (R112, R114) -/

/-- Tiles of a version whose layer tables name each layer, with the layer's THRESH. -/
def State.layerTiles (s : State) (v l : Nat) : List Nat × Nat :=
  let rows := (layerAll (s.version v).recs).filter fun (_, l', _, _) => l' == l
  (rows.map (·.1), match rows with
    | (_, _, _, th) :: _ => th
    | [] => 0)

/-- Decide one layer for a post once all its tiles have reported. Assumption 28, DEDUCED. -/
def State.decideLayer (s : State) (k l : Nat) : State :=
  match FMap.find s.ream.escSums k with
  | none => s
  | some e =>
    let (ts, th) := s.layerTiles e.version l
    if ts.isEmpty || e.decided.contains l || !ts.all e.tiles.contains then s
    else
      let e' := { e with decided := l :: e.decided }
      let s := { s with ream := { s.ream with escSums := FMap.set s.ream.escSums k e' } }
      let old := e.version != s.ream.act.num && s.ream.act.rearm.contains l
      if old || s.ream.esc.getLsbD l || FMap.get e.qs l 0 * 65536 ≤ th * FMap.get e.qn l 0 then s
      else
        { s with ream := { s.ream with escPend := s.ream.escPend ++ [(l, some k, e.version)] } }

/-- Sum two maps of counts. -/
def addCounts (a b : FMap Nat) : FMap Nat := b.foldl (fun m e => FMap.set m e.1 (FMap.get m e.1 0 + e.2)) a

/-- ESC_COUNT_REPORT: the oldest report of a tile reaches the admission controller. -/
def execEscCountReport (tile : Nat) (s : State) : Host.Outcome State Fault Refusal :=
  .next (match s.ream.escMsgs.find? fun r => r.tile == tile with
    | none => s
    | some r =>
      let e := FMap.get s.ream.escSums r.post { version := r.version }
      let e := { e with tiles := r.tile :: e.tiles, qn := addCounts e.qn r.qn, qs := addCounts e.qs r.qs }
      let s := { s with ream := { s.ream with
        escMsgs := s.ream.escMsgs.erase r, escSums := FMap.set s.ream.escSums r.post e } }
      (s.each (List.range 32) fun s l => s.decideLayer r.post l).settle r.post)

/-! ### SWEEP_BOUNDARY -/

/-- The pending grant takes effect; partitions that lose access lose their unadmitted posts (R44).
Assumption 22, DEDUCED. -/
def State.grantSwitch (s : State) : State :=
  match s.ream.grantNext with
  | none => s
  | some g =>
    let had := s.hasAccess
    let s := { s with ream := { s.ream with
      recs := mergeRecs s.ream.recs [g], grantNext := none, lastPooled := 15 } }
    let t := s.each (s.unadmitted fun p => !s.hasAccess p) fun s k => s.endUnadmitted k stNoAccess
    t.endIdle (t.waitingPosts fun p => had p && !s.hasAccess p) stNoAccess

/-- The pending MODE takes effect when every stage group is awake (R52, R53). -/
def State.modeSwitch (s : State) : State :=
  match s.ream.modeNext with
  | none => s
  | some m =>
    if s.stagesAwake then { s with ream := { s.ream with mode := m, modeNext := none, skipN := 0, skipNext := 0 } }
    else s

/-- Decided layers are set in ESC_STATE (R112, R113). A post that still runs has then set a bit, which stands, with its
ESC_TRIGGER, should the post fail later: R112 discards counts and says nothing of a bit they have set (assumption 134,
DESIGN CHOICE). -/
def State.escalate (s : State) : State :=
  let ls := (s.ream.escPend.map (·.1)).eraseDups.filter fun l => !s.ream.esc.getLsbD l
  let ks := (s.ream.escPend.filter fun e => !s.ream.esc.getLsbD e.1).filterMap (·.2.1)
  let s := s.each ks.eraseDups fun s k => s.modPost k fun v => { v with flags := v.flags ||| 4 }
  let s := { s with ream := { s.ream with escPend := [] } }
  s.each ls fun s l =>
    (({ s with ream := { s.ream with esc := s.ream.esc ||| BitVec.ofNat 32 (2 ^ l) } }).count 0x008 0 1).causeAll
      cEscalation

/-- Sweeps a group is idle for before it is gated; none where it never is (Table 2.10). Assumption 26, DEDUCED. -/
def State.gateAfter (s : State) : Option Nat :=
  let m := s.ream.mode
  if m = 0 then (if bitAt (hFlags s.ream.hdr) 0 then some 64 else none)
  else if m = 0x11 then some 64 else if m = 0x13 then some 4 else if m = 0x14 then some 1 else none

/-- A group holds a context, or a gather unit of it holds work. -/
def State.groupUsed (s : State) (g : Nat) : Bool :=
  ((s.groupTiles g).any fun t => !(s.tile t).ctxs.isEmpty)
    || s.gat.works.any (fun w => w.tile / 8 == g) || s.gat.uworks.any (fun w => w.tile / 8 == g)

/-- Gate a group: its tiles in SERVING become GATED (R51, R361). A wake of the same cycle, or a queued one, stands.
Assumption 25, DEDUCED. -/
def State.gateGroup (s : State) (g : Nat) : State :=
  if !s.pwr.awake.contains g || s.pwr.queue.contains (g, true) || FMap.find s.pwr.asked g == some s.pmNow then s
  else
    let s := { s with pwr := { s.pwr with
      awake := s.pwr.awake.filter (· != g), tclk := FMap.set s.pwr.tclk g 0
      fell := s.pwr.fell.filter (· != g), gated := FMap.set s.pwr.gated g (s.pmNow, FMap.get s.pwr.tclk g 800)
      queue := s.pwr.queue ++ [(g, false)] } }
    s.each (s.groupTiles g) fun s t =>
      if (s.tile t).st = 1 then s.modTile t fun x => { x with st := 2 } else s

/-- Idle sweeps are counted, and groups idle for long enough are gated. -/
def State.gateIdle (s : State) : State :=
  s.each s.groups fun s g =>
    if s.groupUsed g then { s with ream := { s.ream with idle := FMap.del s.ream.idle g } }
    else
      let n := match FMap.find s.ream.idle g with
        | some n => n + 1
        | none => 0
      let s := { s with ream := { s.ream with idle := FMap.set s.ream.idle g n } }
      match s.gateAfter with
      | some lim => if lim ≤ n then s.gateGroup g else s
      | none => s

/-- A RESTORE that has replayed completes, and admission opens (R328 step 10). -/
def State.restoreOpen (s : State) : State :=
  match s.rel.restore with
  | none => s
  | some (k, result, flags) =>
    ({ s with
      ream := { s.ream with admission := true }
      rel := { s.rel with restore := none, restoring := false } }).finish k stOk result flags

/-- A patch without a move switches at the sweep boundary after its copy (R55). -/
def State.patchSwitch (s : State) : State :=
  match s.ream.job with
  | some j => if j.kind = 1 && j.move.isNone then s.switchVersion j else s
  | none => s

/-- Changes due at a sweep boundary, while the ream stays resident. -/
def State.sweepChanges (s : State) : State :=
  let s := s.grantSwitch.patchSwitch.modeSwitch.escalate.setBounds.useBounds
  let s := { s with ream := { s.ream with skipN := s.ream.skipNext } }
  s.flipMoves.gateIdle.restoreOpen

/-- Some admitted post has not finished. -/
def State.anyAdmitted (s : State) : Bool := s.posts.any fun p => p.2.phase == 3

/-- Host-cached lines in frames that the pending grant closes (R260). -/
def State.grantLines (s : State) : List Nat :=
  match s.ream.grantNext with
  | some g => s.closingLines fun p => p == s.ream.owner || gAccess g.body p == 1
  | none => []

/-- An unload closes admission, and ends at the boundary after the last admitted post (R39): it abandons
every unflipped move (R161), and ends once every stale row is written back (R163, R175) and every changed row is in the
vault log, whose appends may wait (R187).
Assumption 29, DEDUCED. -/
def State.unloadStep (s : State) (j : ReamJob) : State :=
  let s := if j.closed then s
    else ({ s with ream := { s.ream with job := some { j with closed := true } } }).closeAdmission
  if s.anyAdmitted then s
  else
    let s := s.abandonMoves.writeBackAll.appendAll
    if s.staleLeft || s.rowsLeft then s else s.unloadDone j.cmd

/-- What takes effect at a sweep boundary. A grant change first waits for the host's lines in frames it
closes (R260). -/
def State.boundary (s : State) : State :=
  let ls := s.grantLines
  let grant := s.ream.grantNext
  let s := if ls.isEmpty then s else s.snoop ls
  let s := { s with ream := { s.ream with grantNext := if ls.isEmpty then grant else none } }
  let s := s.sweepChanges
  let s := if ls.isEmpty || s.ream.grantNext.isSome then s
    else { s with ream := { s.ream with grantNext := grant } }
  match s.ream.job with
  | some j => if j.kind = 2 then s.unloadStep j else s
  | none => s

/-- SWEEP_BOUNDARY (R32): after the last interval, a sweep is complete. -/
def execSweepBoundary (s : State) : Host.Outcome State Fault Refusal :=
  .next (if !s.ream.resident || s.rel.stuck || s.ream.interval < hSlots s.ream.hdr then s
    else
      State.boundary { s with ream := { s.ream with
        sweeps := (s.ream.sweeps + 1) % 2 ^ 48, sweepAt := s.feltNow, interval := 0, slotDone := false } })

end Sys2Proof.Machine
end

