-- ==== Sys2Proof/Machine/Clocks.lean ====
section
/-! DEFINITION. Thermal emergencies and the tile clocks (R35, R49, R51, R52, R359, R366, R385). -/

namespace Sys2Proof.Machine

/-! ### Emergencies -/

/-- With no ream resident, half-step follows at once (R35). -/
def State.halfIdle (s : State) : State := if s.ream.resident then s else s.halfNext

/-- TCLK of an awake group. -/
def State.mhz (s : State) (g : Nat) : Nat := FMap.get s.pwr.tclk g 800

/-- Hottest reading of the DRAM dies above a group, of the C-dies in a group, of all. -/
def State.dramTemp (s : State) (g : Nat) : Nat := (FMap.get s.tiers.therm g {}).temp
def maxOf (l : List Nat) : Nat := l.foldl Nat.max 0
def State.cdieTemp (s : State) (g : Nat) : Nat :=
  maxOf ((s.pwr.cdie.filter fun e => e.1 / 8 == g).map (·.2))
def State.hotDram (s : State) : Nat := maxOf ((List.range 9).map s.dramTemp)
def State.hotCdie (s : State) : Nat := maxOf (s.pwr.cdie.map (·.2))
def State.hotPdie (s : State) : Nat := maxOf (s.pwr.pdie.map (·.2))

/-- A thermal emergency is declared with a cause. Posts in the block then count no BOUND_MISS (R50). COOLANT watches the
hottest reading from its declaration on (R366). Assumption 103, DEDUCED. -/
def State.declare (s : State) (cause : Nat) : State :=
  if s.pwr.emerg.contains cause then s
  else
    let old := s.emergCause
    let held : FMap Nat := if s.pwr.emerg.isEmpty then s.pwr.awake.map fun g => (g, s.mhz g) else s.pwr.held
    let posts := FMap.mapV s.posts fun _ v => { v with emergency := true }
    let s := { s with pwr := { s.pwr with emerg := s.pwr.emerg ++ [cause], held := held }, posts := posts }
    let s := if cause = 4 then
        { s with pwr := { s.pwr with coolLast := Nat.max s.hotDram s.hotCdie, coolTick := 0 } }
      else s
    (s.pldmIf 21 old s.emergCause).causeAll cEmergency |>.halfIdle

/-- A cause has cleared. -/
def State.endCause (s : State) (cause : Nat) : State :=
  if !s.pwr.emerg.contains cause then s
  else
    let old := s.emergCause
    let s := { s with pwr := { s.pwr with emerg := s.pwr.emerg.filter (· != cause) } }
    (s.pldmIf 21 old s.emergCause).halfIdle

/-- A cause holds as a condition does. -/
def State.causeHolds (s : State) (cause : Nat) (holds : Bool) : State :=
  if holds then s.declare cause else s.endCause cause

/-- Change the latched sensors. -/
def State.setHot (s : State) (i : Nat) (enter leave : Bool) : State :=
  let hot := if enter then (if s.pwr.hot.contains i then s.pwr.hot else s.pwr.hot ++ [i])
    else if leave then s.pwr.hot.filter (· != i) else s.pwr.hot
  { s with pwr := { s.pwr with hot := hot } }

/-! ### Clocks -/

/-- Lowest TCLK of the mode in force (Table 2.10). -/
def modeFloor (m : Nat) : Nat :=
  if m = 0x11 then 560 else if m = 0x12 then 800 else if m = 0x13 || m = 0x14 then 400 else 640

/-- Lowest TCLK of an emergency: 640 MHz, 320 MHz in half-step (R35). Assumption 102, DEDUCED. -/
def State.emergFloor (s : State) : Nat := if s.ream.half then 320 else 640

/-- Lower a group by 20 MHz, to a floor; one that an emergency takes below 640 MHz will climb back (R385). -/
def State.lower (s : State) (floor g : Nat) : State :=
  let n := s.mhz g
  if n ≤ floor then s
  else
    let m := Nat.max floor (n - 20)
    let fell := if m < 640 && !s.pwr.emerg.isEmpty && !s.pwr.fell.contains g then s.pwr.fell ++ [g] else s.pwr.fell
    { s with pwr := { s.pwr with tclk := FMap.set s.pwr.tclk g m, fell := fell } }

def State.lowerAll (s : State) (floor : Nat) : State := s.each s.pwr.awake fun s g => s.lower floor g

/-- Raise a group by 20 MHz, to a ceiling. -/
def State.lift (s : State) (top g : Nat) : State :=
  let n := s.mhz g
  if top ≤ n then s
  else { s with pwr := { s.pwr with tclk := FMap.set s.pwr.tclk g (Nat.min top (n + 20)) } }

/-- A cause that holds on a group keeps it from rising (R385): POWER_OVER and COOLANT on every group,
T0_THROTTLE below its DRAM dies, DIE_HOT on its tiles. -/
def State.heldLow (s : State) (g : Nat) : Bool :=
  s.pwr.emerg.contains 1 || s.pwr.emerg.contains 4 || (FMap.get s.tiers.therm g {}).st == 2
    || s.pwr.hot.any fun i => decide (i < 72) && i / 8 == g

/-- The clock a group that fell climbs back to (R385); none when it has no climb to make. -/
def State.climbTo (s : State) (g : Nat) : Option Nat :=
  let top := if s.ream.mode = 0x11 || s.ream.mode = 0x13 || s.ream.mode = 0x14 then FMap.get s.pwr.held g 640
    else 640
  if s.pwr.fell.contains g && s.mhz g < top then some top else none

/-- One group at a comparison that lets clocks rise. -/
def State.riseGroup (s : State) (pAvg cap g : Nat) : State :=
  if s.heldLow g || cap < pAvg then s
  else match s.climbTo g with
    | some t => s.lift t g
    | none => if 100 * pAvg < 97 * cap then s.lift 800 g else s

/-- Once every group runs at 640 MHz or above, the climbs are over (R385); with no emergency either, nothing is held. -/
def State.forgetHeld (s : State) : State :=
  if s.pwr.awake.any fun g => decide (s.mhz g < 640) then s
  else { s with pwr := { s.pwr with fell := [], held := if s.pwr.emerg.isEmpty then [] else s.pwr.held } }

/-! ### POWER_COMPARISON (R359) -/

/-- PWR_CAP. -/
def State.pwrCap (s : State) : Nat := s.regF 0xA0008 11 0

/-- YP2 is in force: the cap is met by the skip count (R52). -/
def State.skips (s : State) : Bool := s.ream.resident && s.ream.mode == 0x12

/-- Floor of the cap's lowering: the mode's, under POWER_OVER that of the emergency; below 640 MHz only in
half-step (R18, R35). -/
def State.capFloor (s : State) : Nat :=
  let m := modeFloor s.ream.mode
  if s.pwr.emerg.contains 1 then s.emergFloor else if s.ream.half then m else Nat.max m 640

/-- Every awake group runs at the floor of the mode; in YP2, the skip count stands at its end. -/
def State.atFloor (s : State) : Bool :=
  if s.skips then s.ream.skipNext + 1 == hSlots s.ream.hdr
  else s.pwr.awake.all fun g => decide (s.mhz g ≤ modeFloor s.ream.mode)

/-- YP1, YP3 and YP4 meet the power cap below 640 MHz, in half-step, which a group that has come down to 640 MHz
asks for at the next interval boundary (R51). -/
def State.askLow (s : State) (pAvg cap : Nat) : State :=
  let low := decide (cap < pAvg) && decide (modeFloor s.ream.mode < 640)
    && s.pwr.awake.any fun g => decide (s.mhz g ≤ 640)
  { s with pwr := { s.pwr with wantLow := low } }

/-- The skip count follows one comparison; it stands through an emergency. -/
def State.skipStep (s : State) (pAvg cap : Nat) : State :=
  if !s.skips || !s.pwr.emerg.isEmpty then s
  else
    let n := s.ream.skipNext
    let n := if cap < pAvg then Nat.min (n + 1) (hSlots s.ream.hdr - 1)
      else if 100 * pAvg < 97 * cap then n - 1 else n
    { s with ream := { s.ream with skipNext := n } }

/-- POWER_OVER begins and ends. -/
def State.powerOver (s : State) (pAvg cap : Nat) (floor : Bool) : State :=
  let exceeded := if cap < pAvg && floor then s.pwr.exceeded + 1 else 0
  let under := if 100 * pAvg ≤ 97 * cap then s.pwr.under + 1 else 0
  let s := { s with pwr := { s.pwr with exceeded := exceeded, under := under } }
  if 2800 < pAvg || 100 ≤ exceeded then s.declare 1
  else if 100 ≤ under then s.endCause 1 else s

/-- Under COOLANT every awake group falls each millisecond while the hottest reading rises. -/
def State.coolantStep (s : State) : State :=
  if !s.pwr.emerg.contains 4 then s
  else if s.pwr.coolTick + 1 < 10 then { s with pwr := { s.pwr with coolTick := s.pwr.coolTick + 1 } }
  else
    let h := Nat.max s.hotDram s.hotCdie
    let t := { s with pwr := { s.pwr with coolTick := 0, coolLast := h } }
    if s.pwr.coolLast < h then t.lowerAll s.emergFloor else t

/-- POWER_COMPARISON: P_AVG of the last millisecond against PWR_CAP. -/
def execPowerComparison (pAvg : Nat) (s : State) : Host.Outcome State Fault Refusal :=
  let cap := s.pwrCap
  .next (if !s.powered then s
    else
      let s := { s with pwr := { s.pwr with pAvg := pAvg, pPeak := Nat.max s.pwr.pPeak pAvg } }
      let floor := s.atFloor
      let s := if cap < pAvg && (!s.skips || s.pwr.emerg.contains 1) then s.lowerAll s.capFloor
        else s.each s.pwr.awake fun s g => s.riseGroup pAvg cap g
      let s := (((s.askLow pAvg cap).skipStep pAvg cap).powerOver pAvg cap floor).coolantStep
      s.forgetHeld.halfIdle)

/-! ### The cap and the slew limit (R359, R360) -/

/-- The PWR block's RWL fields are locked. -/
def State.pwrLocked (s : State) : Bool := s.regF 0xA0004 0 0 == 1

def clamp (lo hi n : Nat) : Nat := Nat.max lo (Nat.min hi n)

/-- PWR_CAP (R359, R49). -/
def execPwrCap (value : Word) (s : State) : Host.Outcome State Fault Refusal :=
  let w := clamp 1200 2400 (bitsOf value.toNat 11 0)
  .next (if s.pwrLocked then s
    else
      let s := s.setReg 0xA0008 (BitVec.ofNat 32 w)
      if s.ream.resident && decide (w < hPower s.ream.hdr) then s.causeAll cCapBelowReam else s)

/-- SLEW (R360): WAKE_NS and the bounds follow (R361, R48). -/
def execSlew (value : Word) (s : State) : Host.Outcome State Fault Refusal :=
  .next (if s.pwrLocked then s
    else (s.setReg 0xA000C (BitVec.ofNat 32 (clamp 5 120 (bitsOf value.toNat 6 0)))).setBounds)

/-! ### The wake governor (R361) -/

/-- WAKE_RAMP_DONE: the ramp of the first request in the queue ends. -/
def execWakeRampDone (s : State) : Host.Outcome State Fault Refusal :=
  .next (match s.pwr.queue with
    | [] => s
    | (g, wake) :: q =>
      let ramped := if wake then s.pwr.ramped ++ [g] else s.pwr.ramped
      { s with pwr := { s.pwr with queue := q, ramped := ramped } })

/-- TILE_GROUP_USABLE: 20 µs after its ramp the group is awake, at 800 MHz, and its GATED tiles serve. -/
def execTileGroupUsable (group : Nat) (s : State) : Host.Outcome State Fault Refusal :=
  .next (if !s.pwr.ramped.contains group then s
    else
      let ramped := s.pwr.ramped.filter (· != group)
      let awake := if s.pwr.awake.contains group then s.pwr.awake else s.pwr.awake ++ [group]
      let s := { s with pwr := { s.pwr with
        ramped := ramped, awake := awake, tclk := FMap.set s.pwr.tclk group 800
        fell := s.pwr.fell.filter (· != group) } }
      s.each (s.groupTiles group) fun s t =>
        if (s.tile t).st = 2 then s.modTile t fun x => { x with st := 1 } else s)

end Sys2Proof.Machine
end

