-- ==== Sys2Proof/Machine/Bufs.lean ====
section
/-! DEFINITION. What lies where in the reserved range of a tier-0 slice (R142, R158, R382): the row areas and the
directories, then the post buffers, then the gather work areas; and an error of a sheet there (R190). The order is the
YN8's own and not visible (R382): assumption 15, DEDUCED. -/

namespace Sys2Proof.Machine

/-- The resident ream as the load check sees it. -/
def State.img (s : State) : Img :=
  { hdr := s.ream.hdr, recs := s.ream.recs, own := [], patch := false, en := s.fuse.tileMask, owner := s.ream.owner }

/-- Offsets in a tile's slice of the post buffers and of the gather work areas. -/
def State.bufBase (s : State) (tile : Nat) : Nat := s.dirOff (hTables s.ream.hdr) tile
def State.workBase (s : State) (tile : Nat) : Nat := s.bufBase tile + s.bufferSets * s.img.roomBytes tile

/-- The part of a set's room that byte `a` of it lies in, and the offset there. -/
def roomAt : List (Option (Nat × Nat) × Nat) → Nat → Option (Option (Nat × Nat) × Nat)
  | [], _ => none
  | (k, n) :: rs, a => if a < n then some (k, a) else roomAt rs (a - n)

/-- The offset in a post's staged body of a byte of a part's room (R382). -/
def Post.bodyAt (v : Post) (raw : Nat) : Option (Nat × Nat) × Nat → Option Nat
  | (none, a) => if a < sheetUp raw then some a else none
  | (some (u, kind), a) => match v.lists.find? fun l => l.table == u && l.kind == kind with
    | some l => if a < sheetUp l.size then some (l.off + a) else none
    | none => none

/-- The post whose staged inputs lie at byte `a` of a tile's slice, and the sheet of its staged body there. -/
def State.bufAt (s : State) (tile a : Nat) : Option (Nat × Nat) :=
  let o := s.bufBase tile
  let n := s.img.roomBytes tile
  if !s.ream.resident || a < o || n = 0 then none
  else match s.posts.find? fun p => decide (2 ≤ p.2.phase) && p.2.set == (a - o) / n with
    | none => none
    | some (k, v) => ((roomAt (s.img.rooms tile) ((a - o) % n)).bind (v.bodyAt (v.q * hDense s.ream.hdr))).map
        fun b => (k, b / 256)

/-- The table in whose gather work area byte `a` of a tile's slice lies. -/
def State.workAt (s : State) (tile a : Nat) : Option Nat :=
  let g := s.img
  let one := (g.shardsOn tile).map fun u => (u, g.workBytes u)
  let n := (one.map (·.2)).foldl (· + ·) 0
  let o := s.workBase tile
  if !s.ream.resident || a < o || o + n * g.workSets tile ≤ a || n = 0 then none
  else (roomAt (one.map fun e => (some (e.1, 0), e.2)) ((a - o) % n)).bind fun e => e.1.map (·.1)

/-- A sheet of a tile's tier-0 slice as a read of it finds it: the directories of the resident ream's tables and the
posts' staged inputs are in it (R158, R382). -/
def State.sliceSheet (s : State) (tile n : Nat) : Bytes × Bool :=
  match s.bufAt tile (256 * n) with
  | some (k, i) => match s.post? k with
    | some v => (fit 256 (((v.buf tile).1.drop (256 * i)).take 256), (v.buf tile).2.contains i)
    | none => (zeros 256, false)
  | none => (s.t0Sheet tile n, s.mem.poisoned (t0Addr tile (256 * n) / 256))

/-- A tier-0 sheet has an error that its code cannot correct (R189, R190, R314): of a post's buffer set the set carries
the mark. -/
def State.strikeT0 (s : State) (t n : Nat) : State :=
  match s.bufAt t (256 * n) with
  | some (k, i) => match s.post? k with
    | some v =>
      if (v.buf t).2.contains i then s
      else ((s.setPost k { v with bufs := FMap.set v.bufs t ((v.buf t).1, (v.buf t).2 ++ [i]) }).count 0x042 t 1).plogAdd
        0 t 0xFFFF n
    | none => s
  | none => s.poisonT0 t n

end Sys2Proof.Machine
end

