-- ==== Sys2Proof/Machine/Intake.lean ====
section
/-! DEFINITION. A RECEIVER pairing's intake (R322, R323): arrived records wait there for the host's lines, for room, and
for the vault. -/

namespace Sys2Proof.Machine

def State.setSender (s : State) (p : Option Pair) : State := { s with rel := { s.rel with sender := p } }
def State.setReceiver (s : State) (p : Option Pair) : State := { s with rel := { s.rel with receiver := p } }

/-- The header of a record and its payload as far as it is there: none where the bytes are no header. -/
def parseHead (b : Bytes) : Option VRec :=
  if b.length < 64 || fld b 0 4 != 0x4C564E59 || !crcOkAt b 60 then none
  else some { kind := fld b 4 1, table := fld b 6 2, lsn := fld b 8 8, step := fld b 16 8, boot := fld b 28 4
              salt := (b.drop 32).take 14, iv := (b.drop 48).take 12, body := (b.drop 64).take (fld b 24 4) }

/-- A record as its bytes give it: none where they are not one. -/
def parseRec (b : Bytes) : Option VRec := (parseHead b).filter fun r => r.body.length == fld b 24 4

/-- Bytes land in the intake, used as a ring. -/
def State.intakePut (s : State) (p : Pair) (b : Bytes) : State :=
  let o := p.next % p.len
  let s := s.openRange p.part p.seg (p.off + o) (Nat.min b.length (p.len - o)) false
  let s := s.openRange p.part p.seg p.off (b.length - (p.len - o)) false
  let s := s.writeSeg .partner p.part p.seg (p.off + o) (b.take (p.len - o)) []
  s.writeSeg .partner p.part p.seg p.off (b.drop (p.len - o)) []

/-- Host-cached lines of the place in the intake that a record of `n` bytes goes to (R260). -/
def State.intakeLines (s : State) (p : Pair) (n : Nat) : List Nat :=
  let o := p.next % p.len
  s.segLines p.part p.seg (p.off + o) (Nat.min n (p.len - o)) ++ s.segLines p.part p.seg p.off (n - (p.len - o))

/-- The oldest record that has arrived goes on: into the intake, once it has room there and no line of the place is
cached by the host, then into the vault log, once that need not wait (R187, R260, R323). -/
def State.intakeStep (s : State) : State :=
  match s.rel.receiver with
  | none => s
  | some p => match p.inbox with
    | [] => s
    | (b, inside) :: rest => match parseRec b with
      | none => s.setReceiver (some { p with inbox := rest })
      | some r =>
        let r := { r with source := 1, serial := p.serial }
        if !inside then
          if p.free < r.size then s
          else if !(s.intakeLines p b.length).isEmpty then s.snoop (s.intakeLines p b.length)
          else (s.intakePut p b).setReceiver (some { p with
            inbox := (b, true) :: rest, next := p.next + r.size, free := p.free - r.size })
        else if s.rel.vault.mustWait r.size then s.vaultWait (2 ^ 32 + r.lsn)
        else
          let s := s.setReceiver (some { p with inbox := rest })
          (s.modVault fun v => { v.put r with waits := v.waits.filter (· != 2 ^ 32 + r.lsn) }).count 0x04A 0 r.size

/-- Arrived records go on as far as they can. -/
def State.intakeGo (s : State) : State :=
  match s.rel.receiver with
  | none => s
  | some p => s.each (p.inbox ++ p.inbox) fun s _ => s.intakeStep

end Sys2Proof.Machine
end

