-- ==== Sys2Proof/Machine/Keys.lean ====
section
/-! DEFINITION. Tenant key slots (R198 to R200, R346, R347) and shingler profiles (R204). -/

namespace Sys2Proof.Machine

/-! ### KEY_INSTALL (R199, R347) -/

/-- KEY_INSTALLs that have passed steps 1 to 4 of R231 at their acceptance and have not completed, in that order
(R347). -/
def State.installs (s : State) : List Nat := s.sec.unwraps.filter fun j => (s.cmd? j).isSome

/-- A KEY_INSTALL accepted before this one has reserved the slot (R347). -/
def State.slotTaken (s : State) (k n : Nat) : Bool :=
  (s.installs.takeWhile (· != k)).any fun j => (s.cmd? j).any fun c => c.f 16 2 == n

/-- KEY_INSTALL: the slot is this command's, and the blob waits to be unwrapped. A blob read with poison is no
blob (R383). -/
def State.keyInstall (s : State) (k : Nat) (c : Cmd) (blob : Rd) : State :=
  let n := c.f 16 2
  let v := s.slot n
  if v.loaded || v.unwrap.isSome || s.slotTaken k n then s.finish k stKeyBusy
  else
    let blob := s.operOf k c.part (c.f 18 1) blob
    let (ok, s) := s.operAsk k c.part (c.f 18 1) (c.f 24 6) (c.f 20 2)
    if !ok then s
    else
    let (ok, s) := s.openAsk c.part (c.f 18 1) (c.f 24 6) (c.f 20 2) false
    if !ok then s
    else
    let rd := s.readSeg c.part (c.f 18 1) (c.f 24 6) (c.f 20 2) blob
    let b : Bytes := if rd.poison.isEmpty then rd.data else []
    let s := (s.setPhase k .running).modSlot n fun v => { v with unwrap := some (k, b) }
    { s with sec := { s.sec with unwraps := if s.sec.unwraps.contains k then s.sec.unwraps else s.sec.unwraps ++ [k] } }

def execKeyInstall (ring seq : Nat) (blob : Rd) (s : State) : Host.Outcome State Fault Refusal :=
  let k := cmdKey ring seq
  .next (s.front k 0x20 fun s c => s.keyInstall k c blob)

/-- Some reserved byte, MAGIC, FORMAT, ALG or length of a wrapped blob is wrong (Table 16.7, check 1). -/
def blobBad (b : Bytes) : Bool :=
  b.length != 289 || fld b 0 4 != 0x574B4E59 || fld b 4 2 != 1 || (fld b 6 1 != 1 && fld b 6 1 != 2)
    || fld b 7 1 != 0 || fld b 32 2 != 225 || !zeroAt b 34 30

/-- The plaintext of a blob fails check 4. -/
def innerBad (b pt : Bytes) : Bool :=
  fld pt 0 8 != fld b 8 8 || fld pt 8 1 != fld b 6 1 || !zeroAt pt 10 6 || !zeroAt pt 112 16
    || (fld b 6 1 == 2 && !(zeroAt pt 32 16 && zeroAt pt 64 16))

/-- SM3 over the measurement registers a mask binds. -/
def State.policyOf (s : State) (mask : Nat) : Bytes :=
  sm3 (((List.range 8).filter mask.testBit).map s.mr).flatten

/-- The unwrap checks (Table 16.7), in order: a reason, or the plaintext. -/
def State.unwrapBlob (s : State) (b : Bytes) : Nat ⊕ Bytes :=
  if blobBad b then .inl 1
  else if fld b 16 16 != s.fuse.serial then .inl 2
  else match sm2Decrypt s.sec.deviceKey ((b.drop 64).take 225) with
    | none => .inl 3
    | some p =>
      let pt := fit 128 p
      if innerBad b pt then .inl 4
      else if fld pt 9 1 != 0 && (pt.drop 80).take 32 != s.policyOf (fld pt 9 1) then .inl 5
      else .inr pt

/-- The slot takes the keys, a fresh SALT, and OUT_CTR 0 (R199).
Assumption 112, DEDUCED. -/
def State.loadSlot (s : State) (n : Nat) (pt : Bytes) : State :=
  let alg := fld pt 8 1
  let len := if alg = 1 then 32 else 16
  let (fs, s) := s.freeVals 14
  let salt := fs.map (BitVec.ofNat 8)
  let ik := (pt.drop 16).take len
  let ok := (pt.drop 48).take len
  s.modSlot n fun _ => { loaded := true, alg := alg, keyId := pt.take 8, ingestKey := ik
                         outputKey := ok, salt := salt }

/-- KEY_UNWRAP_DONE (R347): installs run in acceptance order. -/
def execKeyUnwrapDone (slot : Nat) (s : State) : Host.Outcome State Fault Refusal :=
  .next (match (s.slot slot).unwrap with
    | none => s
    | some (k, b) =>
      if s.installs.head? != some k then s
      else
        let s := { s with sec := { s.sec with unwraps := s.sec.unwraps.filter (· != k) } }
        let s := s.modSlot slot fun v => { v with unwrap := none }
        match s.unwrapBlob b with
        | .inl r =>
          ({ s with sec := { s.sec with unwrapReason := r, unwrapSlot := slot } }).finish k stKeyUnwrapFail
        | .inr pt => (s.loadSlot slot pt).finish k stOk)

/-! ### KEY_ERASE, KEY_QUERY (R198, R200) -/

/-- The command names a slot, and keeps it when an erase is fetched later. -/
def Cmd.namesSlot (c : Cmd) (n : Nat) : Bool :=
  (c.op == 0x01 && (c.f 22 2 == n || c.f 30 2 == n)) || ((c.op == 0x22 || c.op == 0x24) && c.f 16 2 == n)
    || (c.op == 0x33 && sOp c.desc == 0 && (sAttr c.desc).testBit 1 && sBind c.desc == n)

/-- KEY_ERASE (R200). -/
def execKeyErase (ring seq : Nat) (s : State) : Host.Outcome State Fault Refusal :=
  let k := cmdKey ring seq
  .next (s.front k 0x21 fun s c =>
    let n := c.f 16 2
    let v := s.slot n
    if v.bound != 0 then s.finish k stKeyInUse
    else if !v.loaded || v.erase.isSome then s.finish k stKeyEmpty
    else
      let ws := (s.fe.cmds.filter fun e => e.1 != k && e.2.namesSlot n && e.2.part == c.part).map (·.1)
      (s.setPhase k .running).modSlot n fun v => { v with erase := some (k, ws) })

/-- KEY_ERASE_FINISH (R200): the last command that keeps the slot has completed. A CREATE among them has
bound a segment to it: the slot stays (assumption 62, DEDUCED). -/
def execKeyEraseFinish (slot : Nat) (s : State) : Host.Outcome State Fault Refusal :=
  let v := s.slot slot
  .next (match v.erase with
    | none => s
    | some (k, ws) =>
      if ws.any fun w => (s.cmd? w).isSome then s
      else if v.bound != 0 then (s.modSlot slot fun v => { v with erase := none }).finish k stKeyInUse
      else ({ s with slots := FMap.del s.slots slot }).finish k stOk)

/-- The report of KEY_QUERY (Table 10.9). -/
def Slot.report (v : Slot) : Bytes :=
  if v.loaded then
    natLe 1 1 ++ natLe 1 v.alg ++ natLe 2 v.bound ++ fit 14 v.salt ++ zeros 6 ++ fit 8 v.keyId
      ++ natLe 8 v.outCtr ++ zeros 24
  else zeros 64

/-- KEY_QUERY (R198). -/
def execKeyQuery (ring seq : Nat) (s : State) : Host.Outcome State Fault Refusal :=
  let k := cmdKey ring seq
  .next (s.front k 0x22 fun s c =>
    let v := s.slot (c.f 16 2)
    if v.loaded && !v.usable k then s.finish k stKeyEmpty
    else
      let (ok, s) := s.openAsk c.part (c.f 18 1) (c.f 24 6) 64 true
      if !ok then s
      else (s.writeSeg (.result k) c.part (c.f 18 1) (c.f 24 6) v.report []).finish k stOk)

/-! ### SHINGLE_PROFILE (R204) -/

/-- Fields of a profile (Table 9.6). -/
def shSeed (p : Bytes) : DWord := BitVec.ofNat 64 (fld p 0 8)
def shMin (p : Bytes) : Nat := fld p 8 4
def shMax (p : Bytes) : Nat := fld p 12 4
def shAvg (p : Bytes) : Nat := fld p 16 1
def shTokens (p : Bytes) : Bool := fld p 17 1 == 1
def shNMin (p : Bytes) : Nat := fld p 18 1
def shNMax (p : Bytes) : Nat := fld p 19 1
def shFold (p : Bytes) : Bool := (fld p 20 1).testBit 0
def shOnes (p : Bytes) : Bool := (fld p 20 1).testBit 1
def shGrams (p : Bytes) : Nat := fld p 22 2

/-- A profile breaks a range or the relation of R204. -/
def profileBad (p : Bytes) : Bool :=
  let (lo, hi) := if shTokens p then (1, 8) else (3, 16)
  p.length != 32 || shMin p < 64 || 65536 < shMin p || 1048576 < shMax p || shAvg p < 8 || 20 < shAvg p
    || 1 < fld p 17 1 || shNMin p < lo || hi < shNMin p || shNMax p < shNMin p || hi < shNMax p
    || 3 < fld p 20 1 || fld p 21 1 != 0 || shGrams p = 0 || 4096 < shGrams p || !zeroAt p 24 8
    || 2 ^ shAvg p ≤ shMin p || shMax p ≤ 2 ^ shAvg p

/-- SHINGLE_PROFILE (R204, R383). -/
def execShingleProfile (ring seq : Nat) (prof : Rd) (s : State) : Host.Outcome State Fault Refusal :=
  let k := cmdKey ring seq
  .next (s.front k 0x23 fun s c =>
    let prof := s.operOf k c.part (c.f 17 1) prof
    let (ok, s) := s.operAsk k c.part (c.f 17 1) (c.f 24 6) 32
    if !ok then s
    else
    let (ok, s) := s.openAsk c.part (c.f 17 1) (c.f 24 6) 32 false
    if !ok then s
    else
    let rd := s.readSeg c.part (c.f 17 1) (c.f 24 6) 32 prof
    if !rd.poison.isEmpty || profileBad rd.data then s.finish k stBadFormat
    else (s.modPart c.part fun q => { q with profiles := FMap.set q.profiles (c.f 16 1) rd.data }).finish k stOk)

end Sys2Proof.Machine
end

