-- ==== Sys2Proof/Machine/Shingle.lean ====
section
/-! DEFINITION. The feature shingler (R205, R206): chunks, grams, and the lists it writes. -/

namespace Sys2Proof.Machine

/-! ### Chunks (R205) -/

/-- Where the chunker stands: the hash, the chunk's start, the chunks emitted, newest first. -/
structure Chunker where
  h : DWord := 0
  start : Nat := 0
  out : List (Nat × Nat) := []
  deriving DecidableEq, Repr

/-- `gear` of R205. -/
def gear (seed : DWord) (b : Byte) : DWord := mix (b.setWidth 64 ^^^ seed)

/-- The byte at offset p. -/
def Chunker.step (prof : Bytes) (c : Chunker) (b : Byte) (p : Nat) : Chunker :=
  let h := c.h + c.h + gear (shSeed prof) b
  let n := p + 1 - c.start
  if shMax prof ≤ n || (shMin prof ≤ n && h >>> (64 - shAvg prof) == 0) then
    { start := p + 1, out := (c.start, n) :: c.out }
  else { c with h := h }

/-- The chunks of a text: offset and length. -/
def chunksOf (prof text : Bytes) : List (Nat × Nat) :=
  let c := text.zipIdx.foldl (fun (c : Chunker) (b, p) => c.step prof b p) {}
  let out := if c.start < text.length then (c.start, text.length - c.start) :: c.out else c.out
  out.reverse

/-! ### Grams -/

/-- ASCII folding of A to Z. -/
def foldByte (b : Byte) : Byte := if 0x41 ≤ b.toNat && b.toNat ≤ 0x5A then b + 0x20#8 else b

/-- Little-endian 64-bit words of a gram, the last padded with 0. -/
def gramWords (g : Bytes) : List DWord :=
  (List.range (cdiv g.length 8)).map fun i => BitVec.ofNat 64 (fld g (8 * i) 8)

/-- `gram_index` of R205. -/
def gramIndex (seed : DWord) (g : Bytes) (n : Nat) : Nat :=
  let x := (gramWords g).foldl (fun x w => mix (x ^^^ w)) (seed ^^^ BitVec.ofNat 64 (n * 2 ^ 56))
  (mix (x ^^^ BitVec.ofNat 64 g.length) >>> 24).toNat

/-- A byte that ends a token: ASCII whitespace or punctuation. -/
def isBreak (b : Byte) : Bool :=
  let n := b.toNat
  (0x09 ≤ n && n ≤ 0x0D) || (0x20 ≤ n && n ≤ 0x2F) || (0x3A ≤ n && n ≤ 0x40) || (0x5B ≤ n && n ≤ 0x60)
    || (0x7B ≤ n && n ≤ 0x7E)

/-- The tokens of a chunk, cut at 64 bytes. `cur` is the token under way. -/
def tokensOf : Bytes → Bytes → List Bytes
  | [], cur => if cur.isEmpty then [] else [cur]
  | b :: bs, cur =>
    if isBreak b then (if cur.isEmpty then tokensOf bs [] else cur :: tokensOf bs [])
    else if cur.length = 64 then cur :: tokensOf bs [b]
    else tokensOf bs (cur ++ [b])

/-- Tokens joined by single 0x1F bytes. -/
def joinTokens : List Bytes → Bytes
  | [] => []
  | [t] => t
  | t :: ts => t ++ [0x1F#8] ++ joinTokens ts

/-- Runs of n consecutive units. -/
def runsOf {α : Type} (l : List α) (n : Nat) : List (List α) :=
  (List.range (l.length + 1 - n)).map fun i => (l.drop i).take n

/-- Gram indices of a chunk in order: by n, then by position. Assumption 67, DEDUCED. -/
def gramsOf (prof chunk : Bytes) : List Nat :=
  let t := if shFold prof then chunk.map foldByte else chunk
  let ns := (List.range (shNMax prof + 1 - shNMin prof)).map (· + shNMin prof)
  if shTokens prof then
    let toks := tokensOf t []
    (ns.map fun n => (runsOf toks n).map fun g => gramIndex (shSeed prof) (joinTokens g) n).flatten
  else (ns.map fun n => (runsOf t n).map fun g => gramIndex (shSeed prof) g n).flatten

/-- One more occurrence of an index. -/
def tally : List (Nat × Nat) → Nat → List (Nat × Nat)
  | [], i => [(i, 1)]
  | (j, n) :: l, i => if i = j then (j, n + 1) :: l else (j, n) :: tally l i

/-- A chunk's bag: distinct indices in order of first occurrence with their counts, those kept, and
whether any was dropped. -/
def bagOf (prof chunk : Bytes) : List (Nat × Nat) × Bool :=
  let all := (gramsOf prof chunk).foldl tally []
  (all.take (shGrams prof), decide (shGrams prof < all.length))

/-! ### Lists (R206) -/

/-- An entry: the index, and its count as BF16, or 1.0. -/
def entryOf (prof : Bytes) (e : Nat × Nat) : Bytes :=
  let w := if shOnes prof then 0x3F80 else (convElem 0x0A false (dec32 (ofInt32 e.2)) 0).1
  natLe 5 e.1 ++ zeros 1 ++ natLe 2 w

/-- Bytes of a list of q chunks. -/
def shListBytes (g q : Nat) : Nat := sheetUp (16 * q) + sheetUp (8 * cdiv (4 * q + 4) 8 + 8 * q * g)

/-- Zero padding up to a length. -/
def padTo (n : Nat) (b : Bytes) : Bytes := b ++ zeros (n - b.length)

/-- A list: chunk records, offsets, entries. Chunks come with their bags. -/
def listOf (prof : Bytes) (cs : List ((Nat × Nat) × List (Nat × Nat))) : Bytes :=
  let g := shGrams prof
  let q := cs.length
  let recs := (cs.map fun ((o, n), b) => natLe 8 o ++ natLe 4 n ++ natLe 4 b.length).flatten
  let last := match cs.getLast? with
    | some (_, b) => (q - 1) * g + b.length
    | none => 0
  let offs := ((List.range q).map fun i => natLe 4 (i * g)).flatten ++ natLe 4 last
  let bags := (cs.map fun (_, b) => padTo (8 * g) (b.map (entryOf prof)).flatten).flatten
  let idx := padTo (8 * cdiv (4 * q + 4) 8) offs ++ bags
  padTo (sheetUp (16 * q)) recs ++ padTo (sheetUp idx.length) idx

/-- Groups of up to 4,095 chunks. -/
def groupsOf {α : Type} (l : List α) : List (List α) :=
  (List.range (cdiv l.length 4095)).map fun i => (l.drop (4095 * i)).take 4095

/-- Lists that fit an output region of `cap` bytes, in order, from offset `at_`. -/
def fitLists {α : Type} (g cap : Nat) : Nat → List (List α) → List (Nat × List α)
  | _, [] => []
  | at_, l :: ls =>
    let n := shListBytes g l.length
    if at_ + n ≤ cap then (at_, l) :: fitLists g cap (at_ + n) ls else []

end Sys2Proof.Machine
end

