-- ==== Sys2Proof/Machine/Ingest.lean ====
section
/-! DEFINITION. INGEST (R202, R203, R206): checks, decryption, shingling. -/

namespace Sys2Proof.Machine

/-- Operands of INGEST (Table 10.9). -/
def Cmd.iSlot (c : Cmd) : Nat := c.f 16 2
def Cmd.iSrc (c : Cmd) : Nat × Nat := (c.f 18 1, c.f 22 6)
def Cmd.iDst (c : Cmd) : Nat × Nat := (c.f 19 1, c.f 28 6)
def Cmd.iDstCap (c : Cmd) : Nat := c.f 34 6
def Cmd.iOut (c : Cmd) : Nat × Nat := (c.f 20 1, c.f 40 6)
def Cmd.iOutCap (c : Cmd) : Nat := c.f 46 6
def Cmd.iProfile (c : Cmd) : Nat := c.f 21 1
def Cmd.iLen (c : Cmd) : Nat := c.f 52 5
/-- It names a key slot. -/
def Cmd.iSealed (c : Cmd) : Bool := c.iSlot != noSlot

/-- The profile named, if any, as it stood at fetch (R204), and whether it is all zero. -/
def Cmd.iProf (c : Cmd) : Option Bytes := if c.iProfile = 0xFF then none else some (c.prof.getD (zeros 32))
def Cmd.iProfBad (c : Cmd) : Bool :=
  match c.iProf with
  | some p => allZero p
  | none => false

/-- A sealed segment of the partition. -/
def State.isSealedSeg (s : State) (p g : Nat) : Bool :=
  match s.seg? p g with
  | some v => v.sealed
  | none => false

/-- The checks of R203 once ranges are translated; 0 passes. -/
def State.ingestCheck (s : State) (k : Nat) (c : Cmd) (h : Bytes) (poison : Bool) : Nat :=
  let v := s.slot c.iSlot
  let outOk := s.isSealedSeg c.part c.iOut.1
  if c.iSealed && !v.usable k then stKeyEmpty
  else if (c.iSealed && (poison || envelopeBad h v.alg)) || c.iProfBad then stEnvelopeBad
  else if c.iSealed && leNat v.keyId != fld h 8 8 then stKeyMismatch
  else if !outOk || (if c.iSealed then !s.isSealedSeg c.part c.iDst.1 else !s.isSealedSeg c.part c.iSrc.1)
  then stSealRequired
  else if c.iSealed then
    match s.seg? c.part c.iSrc.1 with
    | none => stBounds
    | some g => if g.limit < c.iSrc.2 + eBytes h || c.iDstCap < eCt h then stBounds else 0
  else 0

/-- INGEST: the checks, and decryption begins, or shingling where no slot is named. -/
def execIngest (ring seq : Nat) (s : State) : Host.Outcome State Fault Refusal :=
  let k := cmdKey ring seq
  .next (s.front k 0x24 fun s c =>
    let (ok, s) := s.openAsk c.part c.iSrc.1 c.iSrc.2 (if c.iSealed then 64 else 0) false
    if !ok then s
    else
    let rd := s.readSeg c.part c.iSrc.1 c.iSrc.2 64 { data := [] }
    let h := rd.data
    let st := s.ingestCheck k c h (!rd.poison.isEmpty)
    if st != 0 then s.finish k st
    else
      let i : Ingest := if c.iSealed then { head := h, len := eCt h, profile := c.iProf }
        else { stage := 1, len := c.iLen, profile := c.iProf }
      { s.setPhase k .running with ingests := FMap.set s.ingests k i })

/-- RESULT of an INGEST (Table 10.10). -/
def ingestResult (len chunks : Nat) : Nat := len % 2 ^ 33 + 2 ^ 33 * chunks

/-- An INGEST ends. -/
def State.ingestEnd (s : State) (k st result : Nat) : State :=
  ({ s with ingests := FMap.del s.ingests k }).finish k st result

/-- It ends with its work done. -/
def State.ingestOk (s : State) (k : Nat) (c : Cmd) (st result : Nat) : State :=
  (s.count 0x050 c.part 1).ingestEnd k st result

/-- Zero the destination range (R203). -/
def State.zeroDst (s : State) (c : Cmd) (len : Nat) : State :=
  match s.heldSeg c.part c.iDst.1 with
  | some v => s.zeroRange 1 (v.base + c.iDst.2) len
  | none => s

/-- INGEST_DECRYPT_DONE (R203): the plaintext is in place if the tag holds, else zeroed. -/
def execIngestDecryptDone (ring seq : Nat) (s : State) : Host.Outcome State Fault Refusal :=
  let k := cmdKey ring seq
  .next (match FMap.find s.ingests k, s.cmd? k with
    | some i, some c =>
      if i.stage != 0 then s
      else
        let (ok, s) := s.openAsk c.part c.iSrc.1 c.iSrc.2 (eBytes i.head) false
        if !ok then s
        else
        let rd := s.readSeg c.part c.iSrc.1 c.iSrc.2 (eBytes i.head) { data := [] }
        let s := s.openRange c.part c.iDst.1 c.iDst.2 i.len false
        let v := s.slot c.iSlot
        let aad := i.head ++ (rd.data.drop 64).take (eAad i.head)
        let ct := (rd.data.drop (64 + eAad i.head)).take i.len
        let tag := rd.data.drop (64 + eAad i.head + i.len)
        let iv := (i.head.drop 16).take 12
        if !rd.poison.isEmpty || gcmTag v.alg v.ingestKey iv aad ct != tag then
          ((s.zeroDst c i.len).count 0x052 c.iSlot 1).ingestEnd k stTagFail 0
        else
          let pt := gcmDec v.alg v.ingestKey iv ct
          let s := (s.writeSeg .other c.part c.iDst.1 c.iDst.2 pt []).count 0x051 c.part i.len
          if i.profile.isSome then { s with ingests := FMap.set s.ingests k { i with stage := 1 } }
          else s.ingestOk k c stOk (ingestResult i.len 0)
    | _, _ => s)

/-- The chunks of a text with their bags, and the lists of them that fit at their offsets (R205, R206). -/
def shingleLists (prof text : Bytes) (cap : Nat) :=
  let cs := (chunksOf prof text).map fun (o, n) => ((o, n), bagOf prof ((text.drop o).take n))
  (cs, fitLists (shGrams prof) cap 0 (groupsOf cs))

/-- Write the lists that fit, and complete (R206). -/
def State.shingle (s : State) (k : Nat) (c : Cmd) (len : Nat) (prof text : Bytes) : State :=
  let (cs, lists) := shingleLists prof text c.iOutCap
  let s := s.each lists fun s (o, l) =>
    let b := listOf prof (l.map fun (p, bag) => (p, bag.1))
    (s.openRange c.part c.iOut.1 (c.iOut.2 + o) b.length false).writeSeg .other c.part c.iOut.1 (c.iOut.2 + o) b []
  let done := (lists.map fun (_, l) => l.length).foldl (· + ·) 0
  let trunc := ((cs.take done).filter fun (_, bag) => bag.2).length
  let s := (s.count 0x053 c.part done).count 0x054 c.part trunc
  match cs.drop done with
  | [] => s.ingestOk k c stOk (ingestResult len done)
  | ((o, _), _) :: _ => s.ingestOk k c stShingleOver (ingestResult o done)

/-- SHINGLE_DONE (R205, R206). Plaintext that carries poison ends the command with POISON
(assumption 63, DEDUCED). -/
def execShingleDone (ring seq : Nat) (s : State) : Host.Outcome State Fault Refusal :=
  let k := cmdKey ring seq
  .next (match FMap.find s.ingests k, s.cmd? k with
    | some i, some c =>
      if i.stage != 1 then s
      else match i.profile with
        | none => s.ingestOk k c stOk (ingestResult i.len 0)
        | some prof =>
          let (g, o) := if c.iSealed then c.iDst else c.iSrc
          let out := s.segLines c.part c.iOut.1 c.iOut.2 c.iOutCap
          if !out.isEmpty then s.snoop out
          else
          let (ok, s) := s.openAsk c.part g o i.len false
          if !ok then s
          else
          let rd := s.readSeg c.part g o i.len { data := [] }
          if !rd.poison.isEmpty then s.ingestEnd k stPoison 0
          else s.shingle k c i.len prof rd.data
    | _, _ => s)

end Sys2Proof.Machine
end

