-- ==== Sys2Proof/Machine/NetOps.lean ====
section
/-! DEFINITION. Ports, queue pairs and windows: shared operations (R272 to R289). -/

namespace Sys2Proof.Machine

/-! ### Failing transfers (R278, R290, R267) -/

/-- The post whose FETCH a read belongs to. -/
def State.fetchOf (s : State) (x : Xfer) : Option Nat :=
  match x.use with
  | .fetch t cls => (((s.tile t).queue cls).find? fun j => j.ids.contains x.id).bind (·.post)
  | _ => none

/-- A post's transfer failed: it completes with XFER_FAIL. -/
def State.xferFail (s : State) (k : Nat) : State :=
  if (s.post? k).isSome then (s.failPost k stXferFail).settle k else s

/-- Accesses that are not accepted are dropped, and what they belong to fails. Assumption 46, DEDUCED. -/
def State.failXfers (s : State) (pick : Xfer → Bool) : State :=
  let posts := ((s.io.out.filter fun x => pick x && !x.accepted).filterMap s.fetchOf).eraseDups
  (s.dropXfers pick).each posts fun s k => s.xferFail k

/-- A post being staged from such a segment ends with XFER_FAIL (R290). -/
def State.failStaging (s : State) (pick : Nat → Seg → Bool) : State :=
  let ks := (s.posts.filter fun e => e.2.phase == 1 && match s.cmd? e.1 with
    | some c => (match s.heldSeg c.part (c.f 20 1) with
      | some v => v.tier == 2 && pick c.part v
      | none => false)
    | none => false).map (·.1)
  s.each ks fun s k => s.endUnadmitted k stXferFail

/-! ### Queue pairs (R276 to R278) -/

def State.setQp (s : State) (q : Nat) (v : Qp) : State :=
  { s with net := { s.net with qps := FMap.set s.net.qps q v } }
def State.modQp (s : State) (q : Nat) (f : Qp → Qp) : State := s.setQp q (f (s.qp q))

/-- Reset values of a queue pair's context words, by offset in its register group (Table 13.3). -/
def qpReset (off : Nat) : Word := if off = 0x40 then 0x2000#32 else if off = 0x68 then 0x770E#32 else 0#32

/-- Bits of a stored context word, and of one in force. -/
def Qp.c (q : Qp) (off hi lo : Nat) : Nat := bitsOf (FMap.get q.ctx off (qpReset off)).toNat hi lo
def Qp.l (q : Qp) (off hi lo : Nat) : Nat := bitsOf (FMap.get q.lat off (qpReset off)).toNat hi lo

def Qp.port (q : Qp) : Nat := q.l 0x40 11 8
def Qp.pmtu (q : Qp) : Nat := 1024 * 2 ^ q.l 0x40 13 12
/-- ROLE PARTNER. -/
def Qp.partner (q : Qp) : Bool := q.l 0x40 16 16 == 1

/-- The partition that owns a queue pair. -/
def State.qpOwner (s : State) (q : Nat) : Option Nat := (List.range 16).find? fun p => (s.part p).hasQp q

def State.port (s : State) (n : Nat) : Port := FMap.get s.net.ports n {}
def State.setPort (s : State) (n : Nat) (v : Port) : State :=
  { s with net := { s.net with ports := FMap.set s.net.ports n v } }

/-- A number of 32-bit words of a register group, the first at an offset. -/
def latWords (m : FMap Word) (off n : Nat) : Nat :=
  (List.range n).foldl (fun v i => v + 2 ^ (32 * i) * latF m (off + 4 * i) 31 0) 0

/-- Addresses and fields a port has latched (Table 13.2). -/
def Port.mac (p : Port) : Nat := latF p.lat 0x04 31 0 + 2 ^ 32 * latF p.lat 0x08 15 0
def Port.ipv6 (p : Port) : Bool := latF p.lat 0x1C 0 0 == 1
def Port.ip (p : Port) : Nat := latWords p.lat 0x0C (if p.ipv6 then 4 else 1)
def Port.pmd (p : Port) : Nat := latF p.lat 0x00 2 1

/-- Peer addresses of a queue pair (Table 13.3). -/
def Qp.destQpn (q : Qp) : Nat := q.l 0x44 23 0
def Qp.destMac (q : Qp) : Nat := q.l 0x60 31 0 + 2 ^ 32 * q.l 0x64 15 0
def Qp.destIp (q : Qp) : Nat := latWords q.lat 0x50 4

/-- A packet of a queue pair, from the addresses of its port (R276): its UDP source port, DSCP and ECT(0). -/
def State.packet (s : State) (q kind psn : Nat) : Packet :=
  let v := s.qp q
  let p := s.port v.port
  { qp := q, kind := kind, port := v.port, srcMac := p.mac, ipv6 := p.ipv6, srcIp := p.ip
    dstMac := v.destMac, dstIp := v.destIp, destQpn := v.destQpn
    udp := 0xC000 + (q ^^^ v.destQpn) % 16384, dscp := v.l 0x64 21 16, psn := psn, lost := p.link != 2 }

/-- The packet is handed to the port. -/
def State.netPacket (s : State) (q kind psn : Nat) : State :=
  { s with net := { s.net with sent := s.net.sent ++ [s.packet q kind psn] } }

/-- PSNs count modulo 2^24; how far `a` is past `b`. -/
def psnAdd (a n : Nat) : Nat := (a + n) % 2 ^ 24
def psnDiff (a b : Nat) : Nat := (a + 2 ^ 24 - b % 2 ^ 24) % 2 ^ 24

/-- An answer to the packet received last; a CNP carries no PSN. -/
def State.netSend (s : State) (q kind : Nat) : State :=
  s.netPacket q kind (if kind = 0 then 0 else psnDiff (s.qp q).rqPsn 1)

/-- The stream on a failed partner queue pair becomes inactive (R291); a HELLO in progress fails. -/
def State.partnerLost (s : State) (q : Nat) : State :=
  match s.rel.sender with
  | none => s
  | some p =>
    if p.qp != q then s
    else
      match p.cmd with
      | some k => ({ s with rel := { s.rel with sender := none } }).finish k stXferFail
      | none =>
        let was := p.active
        let s := { s with rel := { s.rel with sender := some { p with active := false } } }
        if was then s.causeAll cPartnerLost else s

/-- The same for the receiving side. -/
def State.receiverLost (s : State) (q : Nat) : State :=
  match s.rel.receiver with
  | none => s
  | some p => if p.qp != q then s
    else { s with rel := { s.rel with receiver := some { p with active := false } } }

/-- A queue pair fails (R278): its messages end, a remote partition attached through it is DETACHED, whose unaccepted
writes on its other queue pairs are dropped too (R221), and its owner and the control cores are told. -/
def State.qpFail (s : State) (q cause : Nat) : State :=
  let s := s.modQp q fun v => { v with st := 2, err := cause, resp := [], rnrWait := false }
  let s := { s with hp := { s.hp with waits := s.hp.waits.filter fun a => match a with
    | .write p _ _ _ => p != q
    | .read p .. => p != q } }
  let cut := match s.attachPart q with
    | some p => if (s.part p).reachable then some p else none
    | none => none
  let s := match cut with
    | some p => s.detachPart p
    | none => s
  let s := (s.failXfers fun x => x.qp == some q || (x.kind == 0 && some x.part == cut)).failStaging fun _ v =>
    v.remote && v.qp == q
  let s := (s.partnerLost q).receiverLost q
  match s.qpOwner q with
  | some p => (s.count 0x09A p 1).causeTo p cQpFailed
  | none => s.coreCause cQpFailed

/-! ### MAC groups and ports (R272 to R274) -/

/-- Lane n is the first lane of a port under mode m. -/
def firstLane (n m : Nat) : Bool :=
  if m = 0 then true else if m = 1 then n % 2 == 0 else if m = 2 then n % 4 == 0 else n % 8 == 0

/-- Mode stored for a group, and the one it holds. -/
def State.netMode (s : State) (g : Nat) : Nat := s.regF 0x80000 (2 * g + 1) (2 * g)
def State.heldMode (s : State) (g : Nat) : Nat := (FMap.find s.net.modes g).getD (s.netMode g)

/-- The pair of a group, and lanes of a group. -/
def pairOf (g : Nat) : Nat := if g % 2 = 0 then g + 1 else g - 1
def lanesOf (g : Nat) : List Nat := (List.range 4).map (· + 4 * g)

/-- Some lane of a group is an enabled port. -/
def State.lanesOn (s : State) (g : Nat) : Bool := (lanesOf g).any fun n => (s.port n).enabled

/-- Some port of a group is enabled; a 1.6 Tb/s port, of two groups that work in mode 3 together, belongs to both
(R272). -/
def State.groupOn (s : State) (g : Nat) : Bool :=
  s.lanesOn g || (FMap.find s.net.modes g == some 3 && FMap.find s.net.modes (pairOf g) == some 3
    && !s.net.modeErr.testBit g && s.lanesOn (pairOf g))

/-- The mode a group works in: the one latched while a port of it is enabled, else the one stored (R274). -/
def State.modeOf (s : State) (g : Nat) : Nat := if s.groupOn g then s.heldMode g else s.netMode g

/-- Lane n is the first lane of a port. -/
def State.isPort (s : State) (n : Nat) : Bool := decide (n < 16) && firstLane n (s.modeOf (n / 4))

/-- Rate of a port in Mb/s. -/
def State.portRate (s : State) (n : Nat) : Nat := 200000 * 2 ^ s.modeOf (n / 4)

/-- A port's link leaves UP (R292). -/
def State.linkLost (s : State) (n to_ : Nat) : State :=
  let p := s.port n
  let s := s.setPort n { p with link := to_ }
  if p.link = 2 then (s.count 0x099 n 1).causeAll cLinkDown else s

/-- Queue pairs whose PORT is no longer a port under the modes latched enter ERROR (R274). -/
def State.portChanged (s : State) (gs : List Nat) : State :=
  let qs := (s.net.qps.filter fun e =>
    e.2.st != 0 && gs.contains (e.2.port / 4) && !firstLane e.2.port (s.heldMode (e.2.port / 4))).map (·.1)
  s.each qs fun s q => s.qpFail q 6

/-- CC_ENABLE. -/
def State.ccOn (s : State) : Bool := s.regF 0x80048 16 16 == 1

/-- With CC_ENABLE clear every rate is its port's (R281). -/
def State.ratesFree (s : State) : State :=
  if s.ccOn then s
  else { s with net := { s.net with qps := FMap.mapV s.net.qps fun _ q =>
    if q.st = 1 then { q with rate := s.portRate q.port } else q } }

/-- A group latches its mode, which may strand queue pairs (R274) and change the rates of others (R281). -/
def State.latchMode (s : State) (g : Nat) : State :=
  let m := s.netMode g
  let p := pairOf g
  let pm := s.modeOf p
  let gs := if m = 3 && pm = 3 && !s.groupOn p then [g, p] else [g]
  let err : Bool := (m == 3) != (pm == 3)
  let bits := 2 ^ g + 2 ^ p
  let modes := gs.foldl (fun f x => FMap.set f x (s.netMode x)) s.net.modes
  let old := s.net.modeErr &&& (15 - bits)
  let s := { s with net := { s.net with modes := modes, modeErr := if err then old + bits else old } }
  let s := if err then s.each (lanesOf p) fun s n => if (s.port n).enabled then s.linkLost n 0 else s else s
  (s.portChanged gs).ratesFree

/-- Registers of a port. -/
def portReg (n : Nat) : Nat := 0x80100 + 0x20 * n

/-- Every connector of a port has its cable seated (R353): a port of mode 3 has two. -/
def State.cabled (s : State) (n : Nat) : Bool :=
  !s.net.noCable.contains (n / 4) && !(s.modeOf (n / 4) == 3 && s.net.noCable.contains (pairOf (n / 4)))

/-- The port latches its registers and its link trains, unless its PMD is reserved or its group's mode is
in error, or it has no cable (R353); a C2M port trains nothing, its link is DOWN until it is UP (R272 to R274). Assumption 69, DEDUCED. -/
def State.portOn (s : State) (n : Nat) : State :=
  let g := n / 4
  if 16 ≤ n || (s.port n).enabled || !s.powered then s
  else
    if !firstLane n (s.modeOf g) then s
    else
      let s := if s.groupOn g then s else s.latchMode g
      let a := portReg n
      let s := s.setReg a (s.regW a ||| 1#32)
      let lat := s.group a [0x00, 0x04, 0x08, 0x0C, 0x10, 0x14, 0x18, 0x1C]
      let down := s.net.modeErr.testBit g || latF lat 0 2 1 == 3
      s.setPort n { s.port n with enabled := true, lat := lat, link := if down || latF lat 0 2 1 == 2 || !s.cabled n then 0 else 1 }

/-- The port's link goes down, and it is disabled. -/
def State.portOff (s : State) (n : Nat) : State :=
  if !(s.port n).enabled then s
  else
    let a := portReg n
    let s := s.setReg a (s.regW a &&& ~~~(1#32))
    let s := s.linkLost n 0
    s.setPort n { s.port n with enabled := false, link := 0 }

/-- Cycles of a MAC group's counter in n microseconds (1.5625 GHz, Table 1.3). -/
def macCycles (us : Nat) : Nat := us * 3125 / 2
def State.macNow (s : State) (port : Nat) : Nat := FMap.get s.clk (22 + port / 4) 0

/-! ### Windows (R284 to R288) -/

/-- The window a message names, if it passes the checks of R286. -/
def State.winOk (s : State) (q rkey addr len right : Nat) : Option Win :=
  match FMap.find s.net.wins (keyWin q rkey) with
  | none => none
  | some w =>
    if s.qpUp q && rkey / 2 ^ 20 = q && rkey % 2 ^ 16 = w.tag && w.closing.isEmpty && w.rights.testBit right
        && w.va ≤ addr && addr + len ≤ w.va + w.len then some w
    else none

/-- Refuse a message (R286, R287): a negative acknowledgement, and the queue pair fails. -/
def State.nak (s : State) (q kind ctr : Nat) : State :=
  let s := match s.qpOwner q with
    | some p => if ctr = 0 then s else s.count ctr p 1
    | none => s
  (s.netSend q kind).qpFail q 4

/-- A message to a queue pair in ERROR: its windows refuse every access (R278, R286). -/
def State.winRefuse (s : State) (q : Nat) : State :=
  if (s.qp q).st != 2 then s
  else match s.qpOwner q with
    | some p => (s.count 0x09B p 1).netSend q 1
    | none => s.netSend q 1

/-- Device byte address of a window address. -/
def State.winAddr (s : State) (w : Win) (addr : Nat) : Nat :=
  match s.heldSeg w.part w.seg with
  | some v => v.addr (w.off + (addr - w.va))
  | none => 0

/-- A window write into tier-1 (R287): parts of poisoned sheets are discarded. -/
def State.winWrite (s : State) (w : Win) (addr : Nat) (data : Bytes) : State :=
  let a := s.winAddr w addr
  let parts := splitSheets (data.length / 256 + 2) a data
  let bad (o : Nat) (d : Bytes) : Bool := d.length != 256 && s.t1Bad (o / 256)
  let s' := s.each (parts.filter fun (o, d) => !bad o d) fun s (o, d) => s.writeT1 o d []
  let s' := s'.openSheets a data.length
  if parts.any fun (o, d) => bad o d then s'.count 0x09C w.part 1 else s'

/-- Bytes of a range of tier-1 before its first poisoned sheet: all of them where there is none. -/
def State.cleanLen (s : State) (a len : Nat) : Nat :=
  match (sheetsOf a len).find? s.t1Bad with
  | some n => 256 * n - a
  | none => len

/-- A window read: its data, or none where it touches a poisoned sheet. -/
def State.winRead (s : State) (w : Win) (addr len : Nat) : Option Bytes :=
  let a := s.winAddr w addr
  if (sheetsOf a len).any s.t1Bad then none else some (s.mem.readN (t1Addr a) len)

/-- The negative acknowledgement of a read that meets a poisoned sheet (R287). -/
def State.readNak (s : State) (q : Nat) : State := s.nak q 3 0x09C

/-- A checked WRITE whose lines no host caches. -/
def State.doWinWrite (s : State) (q rkey addr : Nat) (data : Bytes) : State :=
  match FMap.find s.net.wins (keyWin q rkey) with
  | some w => s.winWrite w addr data
  | none => s

/-- A response waits for the port: data of a read whose first packet has this PSN. -/
def State.respond (s : State) (q : Nat) (r : Resp) : State := s.modQp q fun v => { v with resp := v.resp ++ [r] }

/-- A checked READ whose lines no host caches: the response waits for the port. Of a range that touches a poisoned
sheet the data before that sheet goes first, and the negative acknowledgement in the sheet's place (R287). -/
def State.doWinRead (s : State) (q rkey addr len psn : Nat) : State :=
  let n := keyWin q rkey
  match FMap.find s.net.wins n with
  | some w =>
    let a := s.winAddr w addr
    (match s.winRead w addr len with
    | some d => ((s.openSheets a len).rebuildIn a len).respond q { win := n, psn := psn, data := d }
    | none =>
      let c := s.cleanLen a len
      if c = 0 && (s.qp q).resp.isEmpty then s.readNak q
      else
        let t := if c = 0 then s
          else ((s.openSheets a c).rebuildIn a c).respond q { win := n, psn := psn, data := s.mem.readN (t1Addr a) c }
        t.respond q { win := n, nak := true })
  | none => s

/-- Lines of a waiting window message that the host still caches. -/
def State.accLines (s : State) : OpenAcc → List Nat
  | .write q k a d => match FMap.find s.net.wins (keyWin q k) with
    | some w => s.trackedIn (s.winAddr w a) d.length
    | none => []
  | .read q k a n _ => match FMap.find s.net.wins (keyWin q k) with
    | some w => s.trackedIn (s.winAddr w a) n
    | none => []

/-- Carry out a window message. -/
def State.doAcc (s : State) : OpenAcc → State
  | .write q k a d => s.doWinWrite q k a d
  | .read q k a n psn => s.doWinRead q k a n psn

/-- Lines a window message must still ask the host for: a write all it caches, a read those not held shared. -/
def State.accBlocked (s : State) (x : OpenAcc) : List Nat :=
  match x with
  | .write .. => s.accLines x
  | .read .. => s.readBlocked (s.accLines x)

/-- Ask for them (R260). -/
def State.accSnoop (s : State) (x : OpenAcc) : State :=
  match x with
  | .write .. => s.snoop (s.accBlocked x)
  | .read .. => s.snoopData (s.accBlocked x)

/-- A message that need not wait is carried out; a read takes the host's answers. -/
def State.accRun (s : State) (x : OpenAcc) : State := (s.readTaken (s.accLines x)).doAcc x

/-- A window message waits behind earlier ones, and for the host's lines (R260, R288). -/
def State.openAcc (s : State) (x : OpenAcc) : State :=
  if (s.accBlocked x).isEmpty && s.hp.waits.isEmpty then s.accRun x
  else
    let s := s.accSnoop x
    { s with hp := { s.hp with waits := s.hp.waits ++ [x] } }

/-- The waiting messages go on, oldest first, until one still waits for the host. -/
def State.openGo (s : State) : State :=
  s.each s.hp.waits fun s x =>
    if s.hp.waits.head? != some x then s
    else if (s.accBlocked x).isEmpty then
      ({ s with hp := { s.hp with waits := s.hp.waits.drop 1 } }).accRun x
    else s.accSnoop x

end Sys2Proof.Machine
end

