-- ==== Sys2Proof/Machine/Net.lean ====
section
/-! DEFINITION. The network's commands (chapter 13): ports, queue pairs, packets and windows. -/

namespace Sys2Proof.Machine

/-! ### Ports -/

/-- PORT_ENABLE (R272 to R274). -/
def execPortEnable (port : Nat) (s : State) : Host.Outcome State Fault Refusal := .next (s.portOn port)

/-- PORT_DISABLE (R274). -/
def execPortDisable (port : Nat) (s : State) : Host.Outcome State Fault Refusal := .next (s.portOff port)

/-- PORT_LINK_UP (R273): the end of training, which a C2M port has none of. -/
def execPortLinkUp (port : Nat) (s : State) : Host.Outcome State Fault Refusal :=
  let p := s.port port
  let c2m := p.pmd == 2 && p.link == 0 && !s.net.modeErr.testBit (port / 4)
  .next (if p.enabled && (p.link == 1 || c2m) && s.cabled port then s.setPort port { p with link := 2 } else s)

/-- LINK_DOWN (R292): the port trains again, where it trains at all. -/
def execLinkDown (port : Nat) (s : State) : Host.Outcome State Fault Refusal :=
  let p := s.port port
  .next (if p.link = 2 then s.linkLost port (if p.pmd = 2 || !s.cabled port then 0 else 1) else s)

/-! ### Queue pairs (R277, R278) -/

/-- QP_SEL. -/
def State.qpSel (s : State) : Nat := s.regF 0x81000 11 0

/-- A destination address is an IPv6 one (assumption 64, PRESUMED). -/
def Qp.ipv6 (q : Qp) : Bool :=
  q.c 0x54 31 0 != 0 || q.c 0x58 31 0 != 0 || q.c 0x5C 31 0 != 0

/-- IPV6 of a port, as latched or as stored. -/
def State.portIpv6 (s : State) (n : Nat) : Bool :=
  if (s.port n).enabled then latF (s.port n).lat 0x1C 0 0 == 1 else s.regF (portReg n + 0x1C) 0 0 == 1

/-- CMD_ERR of a CONNECT: 0 when it passes. -/
def State.connectErr (s : State) (q : Qp) : Nat :=
  let n := q.c 0x40 11 8
  if q.st != 0 then 1
  else if !s.isPort n then 2
  else if q.ipv6 != s.portIpv6 n then 3
  else if q.c 0x68 4 0 = 0 then 4
  else if q.c 0x40 13 12 = 3 then 5
  else 0

/-- QP_CONNECT (R277, R281): of the queue pair QP_SEL selects. -/
def execQpConnect (s : State) : Host.Outcome State Fault Refusal :=
  let q := s.qp s.qpSel
  let e := s.connectErr q
  let s := { s with net := { s.net with cmdErr := e } }
  .next (if e != 0 then s
    else s.setQp s.qpSel { q with
      st := 1, err := 0, lat := q.ctx, retries := 0, rnr := 0, rnrWait := false
      rate := s.portRate (q.c 0x40 11 8), step := s.regF 0x80044 31 16, quiet := 0, lastCut := none
      cnpSeen := false, cnpSent := none, resp := [], una := none
      sqPsn := q.c 0x48 23 0, rqPsn := q.c 0x4C 23 0, nextAt := 0 })

/-- QP_RESET (R277, R278). Assumption 75, DEDUCED. -/
def execQpReset (s : State) : Host.Outcome State Fault Refusal :=
  let n := s.qpSel
  let s := { s with net := { s.net with cmdErr := 0 } }
  let s := if (s.qp n).st = 1 then s.qpFail n 5 else s
  .next (if (s.qp n).st = 0 then s else s.modQp n fun v => { v with st := 0, retries := 0, rnr := 0 })

/-- Messages of a queue pair that are not acknowledged. -/
def State.unacked (s : State) (q : Nat) : List Xfer := s.io.out.filter fun x => x.qp == some q && !x.accepted

/-- Bytes a message hands to its port, and PSNs it takes: a read those of its response. -/
def Xfer.bytes (x : Xfer) : Nat := if x.kind = 1 then 1 else Nat.max 1 x.len
def Xfer.span (x : Xfer) (mtu : Nat) : Nat := Nat.max 1 (cdiv x.len mtu)

/-- Bytes of a message that stay handed over when its queue pair goes back to a PSN: none past it, and of the message
that PSN is in, those of the packets before (a read is asked for again). -/
def Xfer.keptAt (x : Xfer) (psn mtu : Nat) : Nat :=
  match x.psn with
  | none => x.handed
  | some p =>
    if psnDiff p psn < 2 ^ 23 then 0
    else if psnDiff psn p < x.span mtu then (if x.kind = 1 then 0 else Nat.min x.handed (mtu * psnDiff psn p))
    else x.handed

/-- Packets of a message that leave again. -/
def Xfer.resent (x : Xfer) (psn mtu : Nat) : Nat := cdiv (x.handed - x.keptAt psn mtu) (if x.kind = 1 then 1 else mtu)

/-- Go back to a PSN: the packets from it on are sent again, and those that had left count (R275). -/
def State.goBack (s : State) (q psn : Nat) : State :=
  let mtu := (s.qp q).pmtu
  let n := ((s.unacked q).map fun x => x.resent psn mtu).foldl (· + ·) 0
  let s := s.modQp q fun v => { v with retrans := v.retrans + BitVec.ofNat 32 n }
  let back (x : Xfer) : Xfer := if x.qp == some q && !x.accepted then { x with handed := x.keptAt psn mtu } else x
  { s with io := { s.io with out := s.io.out.map back } }

/-- One more retransmission, or the end of the queue pair's retries (R278). -/
def State.retry (s : State) (q psn : Nat) : State :=
  let v := s.qp q
  if v.l 0x68 10 8 < v.retries + 1 then s.qpFail q 1
  else (s.setQp q { v with retries := v.retries + 1 }).goBack q psn

/-- The oldest PSN that is not acknowledged: the first of the oldest message, or the one past what has been acknowledged
of it; none where nothing has been sent (R275). -/
def State.oldestPsn (s : State) (q : Nat) : Option Nat :=
  match (s.unacked q).head? with
  | none => none
  | some x => x.psn.map fun p => match (s.qp q).una with
    | some u => if psnDiff u p < x.span (s.qp q).pmtu then u else p
    | none => p

/-- ACK_TIMEOUT (R278). -/
def execAckTimeout (qp : Nat) (s : State) : Host.Outcome State Fault Refusal :=
  .next (match s.oldestPsn qp with
    | none => s
    | some psn => if s.qpUp qp then s.retry qp psn else s)

/-- RNR_RETRY_TIMER (R278, R303): the refused message is sent again. -/
def execRnrRetryTimer (qp : Nat) (s : State) : Host.Outcome State Fault Refusal :=
  .next (if s.qpUp qp && (s.qp qp).rnrWait then
      let t := s.modQp qp fun v => { v with rnrWait := false }
      match s.oldestPsn qp with
      | none => t
      | some psn => t.goBack qp psn
    else s)

/-- An acknowledged message of a remote partition has its effect (R219, R300, R302). -/
def State.acked (s : State) (x : Xfer) : State :=
  match x.use with
  | .event i =>
    let p := x.part
    let sys := s.regF (0x74000 + 0x20 * p + 0x0C) 9 0 = i
    let s := if sys then s.modPart p fun q => { q with cause := q.cause &&& ~~~q.causeSent, causeSent := 0 } else s
    (s.setSrc i { s.src i with carried := 0 }).rearm i
  | .attach k p => s.attachDone k p
  | _ => s

/-- Uses whose acceptance another command takes up. -/
def Use.waited : Use → Bool
  | .arm _ => true
  | .fetch .. => true
  | .desc _ => true
  | .stage _ => true
  | .oper _ => true
  | .record .. => true
  | .faultCopy _ => true
  | _ => false

/-- A message has been accepted. -/
def State.accept1 (s : State) (id : Nat) : State :=
  match s.io.out.find? fun x => x.id == id with
  | none => s
  | some x =>
    let out := if x.use.waited then s.io.out.map fun y => if y.id = id then { y with accepted := true } else y
      else s.io.out.filter fun y => y.id != id
    ({ s with io := { s.io with out := out } }).acked x

/-- A PSN that has been sent and not been acknowledged. -/
def State.psnOpen (s : State) (q psn : Nat) : Bool :=
  match s.oldestPsn q with
  | some u => decide (psnDiff psn u < psnDiff (s.qp q).sqPsn u)
  | none => false

/-- The last packet of a write or SEND has been sent, with this PSN or one before it. -/
def Xfer.endsBy (x : Xfer) (psn mtu : Nat) : Bool :=
  x.kind != 1 && decide (x.bytes ≤ x.handed) && match x.psn with
    | some p => decide (psnDiff psn (psnAdd p (x.span mtu - 1)) < 2 ^ 23)
    | none => false

/-- Every PSN up to this one is acknowledged, and with their last packets the writes and SENDs they carried (R275). -/
def State.ackTo (s : State) (q psn : Nat) : State :=
  if !s.psnOpen q psn then s
  else
    let xs := (s.unacked q).filter fun x => x.endsBy psn (s.qp q).pmtu
    (s.modQp q fun v => { v with retries := 0, rnr := 0, una := some (psnAdd psn 1) }).each xs fun s x => s.accept1 x.id

/-- ACK_RECEIVE (R275, R282, R300): every PSN up to `psn`. -/
def execAckReceive (qp psn : Nat) (s : State) : Host.Outcome State Fault Refusal :=
  .next (if s.qpUp qp then s.ackTo qp psn else s)

/-- NAK_RECEIVE (R275, R278): the PSNs before the one it names are acknowledged; a request to send again that names none
in progress is stale. Assumption 139, PRESUMED. -/
def execNakReceive (qp kind psn : Nat) (s : State) : Host.Outcome State Fault Refusal :=
  .next (if !s.qpUp qp || (decide (kind ≤ 1) && !s.psnOpen qp psn) then s
    else
      let s := s.ackTo qp (psnDiff psn 1)
      let v := s.qp qp
      if kind = 0 then s.retry qp psn
      else if kind = 1 then
        if v.l 0x68 14 12 != 7 && v.l 0x68 14 12 < v.rnr + 1 then s.qpFail qp 2
        else s.setQp qp { v with rnr := v.rnr + 1, rnrWait := true }
      else s.qpFail qp 3)

/-- Every queue pair in RTS sends again from the oldest PSN that is not acknowledged (R293). -/
def State.resendAll (s : State) : State :=
  s.each ((s.net.qps.filter fun e => e.2.st == 1).map (·.1)) fun s q => match s.oldestPsn q with
    | some psn => s.goBack q psn
    | none => s

/-- RDMA_READ_RESPONSE_RECEIVE (R219, R282, R290): the response to read `msg`. -/
def execRdmaReadResponseReceive (qp msg : Nat) (data : Rd) (s : State) : Host.Outcome State Fault Refusal :=
  .next (match (s.unacked qp).find? fun x => x.id == msg && x.kind == 1 with
    | none => s
    | some x =>
      if !s.qpUp qp then s
      else
        let s := s.modQp qp fun v => { v with retries := 0 }
        match x.use with
        | .attach k p => match s.cmd? k with
          | some c => ({ s with io := { s.io with out := s.io.out.filter fun y => y.id != msg } }).attachBlockRead
              k p c data
          | none => s
        | _ =>
          let take (y : Xfer) : Xfer :=
            if y.id = msg then { y with accepted := true, data := data.data, poison := data.poison } else y
          { s with io := { s.io with out := s.io.out.map take } })

/-! ### Congestion control (R280, R281) -/

def State.clampRate (s : State) (n rate : Nat) : Nat := Nat.min (Nat.max rate (s.regF 0x80048 15 0)) (s.portRate n)

/-- CNP_RECEIVE. -/
def execCnpReceive (qp : Nat) (s : State) : Host.Outcome State Fault Refusal :=
  let v := s.qp qp
  .next (if v.st = 0 then s
    else
      let s := s.count 0x098 v.port 1
      let now := s.macNow v.port
      let due := match v.lastCut with
        | none => true
        | some t => decide (t + macCycles (s.regF 0x80040 15 8) ≤ now)
      let v := { v with cnpSeen := true }
      if s.ccOn && v.st = 1 && due then
        s.setQp qp { v with
          rate := v.rate * (256 - s.regF 0x80040 7 0) / 256
          lastCut := some now, step := s.regF 0x80044 31 16, quiet := 0 }
      else s.setQp qp v)

/-- CC_PERIOD. -/
def execCcPeriod (qp : Nat) (s : State) : Host.Outcome State Fault Refusal :=
  let v := s.qp qp
  .next (if v.st != 1 then s
    else if !s.ccOn then s.setQp qp { v with rate := s.portRate v.port, cnpSeen := false }
    else if v.cnpSeen then s.setQp qp { v with cnpSeen := false, rate := s.clampRate v.port v.rate }
    else
      let n := v.quiet + 1
      s.setQp qp { v with
        quiet := n, rate := s.clampRate v.port (v.rate + v.step)
        step := if n % 8 = 0 then 2 * v.step else v.step })

/-- A congestion notification to a queue pair's peer, at most one in every CNP_GAP_US. -/
def State.cnpSend (s : State) (port q : Nat) : State :=
  let v := s.qp q
  let now := s.macNow port
  let due := match v.cnpSent with
    | none => true
    | some t => decide (t + macCycles (s.regF 0x80040 23 16) ≤ now)
  if due then ((s.setQp q { v with cnpSent := some now }).count 0x097 port 1).netSend q 0 else s

/-! ### Frames and packets -/

/-- A frame that the MAC accepts (R273): untagged, of at most 4,352 bytes, RoCE v2, to the addresses of the port. -/
def State.roceFor (s : State) (port : Nat) (f : FrameInfo) : Bool :=
  let p := s.port port
  !f.tagged && decide (f.size ≤ 4352) && f.udpPort == 4791 && f.destMac == p.mac && f.ipv6 == p.ipv6 && f.destIp == p.ip

/-- Bytes in the receive buffer of a port's MAC group, of 32 MiB (R280). -/
def State.rxBytes (s : State) (port : Nat) : Nat := FMap.get s.net.rxFill (port / 4) 0

/-- A packet is kept in the buffer. -/
def State.rxPut (s : State) (port n : Nat) : State :=
  { s with net := { s.net with rxFill := FMap.set s.net.rxFill (port / 4) (s.rxBytes port + n) } }

/-- A request packet's PSN (R275): the one expected is taken; one further on is answered NAK PSN Sequence Error, one
taken before is acknowledged again. Assumption 129, DEDUCED. -/
def State.requestPsn (s : State) (q psn span : Nat) : State :=
  let e := (s.qp q).rqPsn
  if !s.qpUp q then s
  else if psn = e then s.modQp q fun v => { v with rqPsn := psnAdd e (Nat.max 1 span) }
  else if psnDiff psn e < 2 ^ 23 then s.netPacket q 7 e
  else s.netSend q 4

/-- FRAME_RECEIVE (R273, R275, R276, R280). Assumption 68, DEDUCED. Assumption 131, DESIGN CHOICE. -/
def execFrameReceive (port : Nat) (info : FrameInfo) (s : State) : Host.Outcome State Fault Refusal :=
  let q := info.qpn - 0x100000
  let half := decide (2 ^ 24 < s.rxBytes port)
  .next (if (s.port port).link != 2 then s
    else
      let s := (s.count 0x090 port info.fecCorrected).count 0x091 port info.fecUncorrected
      if !info.fcsOk then s.count 0x092 port 1
      else if !s.roceFor port info then s.count 0x094 port 1
      else if 2 ^ 25 < s.rxBytes port + info.size then s.count 0x096 (port / 4) 1
      else if !info.icrcOk then s.count 0x093 port 1
      else if info.qpn < 0x100000 || 4096 ≤ q || (s.qp q).st = 0 then s.count 0x095 port 1
      else
        let s := s.rxPut port info.size
        let s := if info.ce || half then s.cnpSend port q else s
        if info.unsupported && s.qpUp q then s.nak q 2 0
        else if info.request then s.requestPsn q info.psn info.span
        else s)

/-- RDMA READs outstanding in each direction (R275). Assumption 132, DEDUCED. -/
def readDepth : Nat := 16

/-- The message a queue pair sends next: the oldest with packets left, but no read while 16 are outstanding. -/
def State.nextMsg (s : State) (q : Nat) : Option Xfer :=
  match (s.unacked q).find? fun x => x.handed < x.bytes with
  | none => none
  | some x =>
    if x.kind = 1 && readDepth ≤ ((s.unacked q).filter fun y => y.kind == 1 && y.psn.isSome && y.id != x.id).length then none
    else some x

/-- Its rate allows a packet now (R279, R281). -/
def State.rateOpen (s : State) (v : Qp) : Bool := v.rate != 0 && decide (v.nextAt ≤ s.macNow v.port)

/-- A queue pair has data and its rate allows; in an RNR wait it has only its responses. -/
def State.ready (s : State) (q : Nat) (v : Qp) : Bool :=
  v.st == 1 && s.rateOpen v && (!v.resp.isEmpty || (!v.rnrWait && (s.nextMsg q).isSome))

/-- Queue pairs of a port with something to send. -/
def State.readyQps (s : State) (n : Nat) : List Nat :=
  (s.net.qps.filter fun e => e.2.port == n && s.ready e.1 e.2).map (·.1)

/-- Cycles of the MAC group that `n` bytes take at a rate in Mb/s. Assumption 130, DESIGN CHOICE. -/
def rateCycles (n rate : Nat) : Nat := cdiv (8 * n * 3125) (2 * rate)

/-- After a packet of `n` bytes the rate allows the next one later. -/
def State.pace (s : State) (q n : Nat) : State :=
  let t := s.macNow (s.qp q).port
  s.modQp q fun v => { v with nextAt := t + rateCycles n v.rate }

/-- A packet of the oldest response, or its negative acknowledgement. -/
def State.sendResp (s : State) (q : Nat) (d : Resp) (ds : List Resp) : State :=
  let v := s.qp q
  if d.nak then (s.setQp q { v with resp := ds }).readNak q
  else
    let d' := { d with data := d.data.drop v.pmtu, psn := psnAdd d.psn 1 }
    let s := s.setQp q { v with resp := if d'.data.isEmpty then ds else d' :: ds }
    (s.netPacket q 6 d.psn).pace q (Nat.min v.pmtu d.data.length)

/-- A packet of a message; with its first one it gets its PSNs (R275). -/
def State.sendMsg (s : State) (q : Nat) (x : Xfer) : State :=
  let v := s.qp q
  let p := x.psn.getD v.sqPsn
  let s := if x.psn.isSome then s else s.setQp q { v with sqPsn := psnAdd p (x.span v.pmtu) }
  let n := if x.kind = 1 then 1 else Nat.min v.pmtu (x.bytes - x.handed)
  let hand (y : Xfer) : Xfer := if y.id = x.id then { y with handed := y.handed + n, psn := some p } else y
  let s := { s with io := { s.io with out := s.io.out.map hand } }
  (s.netPacket q 5 (psnAdd p (x.handed / v.pmtu))).pace q n

/-- One packet of a queue pair: of its oldest response, else of its next message (R279). -/
def State.sendPacket (s : State) (q : Nat) : State :=
  match (s.qp q).resp with
  | d :: ds => s.sendResp q d ds
  | [] => match s.nextMsg q with
    | none => s
    | some x => s.sendMsg q x

/-- PACKET_SEND_TURN (R279): round robin after the queue pair that sent last. On a link that is not UP the packet is
lost (R292). -/
def execPacketSendTurn (port : Nat) (s : State) : Host.Outcome State Fault Refusal :=
  let p := s.port port
  let qs := s.readyQps port
  let next := match qs.find? (p.rr < ·) with
    | some q => some q
    | none => qs.head?
  .next (match next with
    | none => s
    | some q => (s.setPort port { p with rr := q }).sendPacket q)

/-! ### Inbound messages (R283, R286 to R288, R291) -/

/-- RDMA_WRITE_RECEIVE: acknowledged when received; the data enters tier-1 in OPEN time. -/
def execRdmaWriteReceive (qp rkey addr : Nat) (data : Bytes) (s : State) : Host.Outcome State Fault Refusal :=
  .next (if !s.qpUp qp then s.winRefuse qp
    else match s.winOk qp rkey addr data.length 1 with
      | none => s.nak qp 1 0x09B
      | some w =>
        let s := s.netSend qp 4
        if w.doorbell then s.doorbellWrite qp addr data else s.openAcc (.write qp rkey addr data))

/-- Inbound READs of a queue pair that are not answered. -/
def State.readsOpen (s : State) (q : Nat) : Nat :=
  ((s.qp q).resp.filter fun r => !r.nak).length + (s.hp.waits.filter fun a => match a with
    | .read p .. => p == q
    | .write .. => false).length

/-- RDMA_READ_REQUEST_RECEIVE: answered after every earlier write of the queue pair. One past the read depth is an
invalid request (R275). -/
def execRdmaReadRequestReceive (qp rkey addr len : Nat) (s : State) : Host.Outcome State Fault Refusal :=
  .next (if !s.qpUp qp then s.winRefuse qp
    else if readDepth ≤ s.readsOpen qp then s.nak qp 2 0
    else match s.winOk qp rkey addr len 0 with
      | none => s.nak qp 1 0x09B
      | some _ => s.openAcc (.read qp rkey addr len (psnDiff (s.qp qp).rqPsn (cdiv len (s.qp qp).pmtu))))

/-- SEND_RECEIVE (R291): taken on a PARTNER queue pair, refused on a HOST one. What a SEND says arrives
with the partner's own commands. -/
def execSendReceive (qp : Nat) (_data : Bytes) (s : State) : Host.Outcome State Fault Refusal :=
  .next (if !s.qpUp qp then s
    else if (s.qp qp).partner then s.netSend qp 4
    else s.nak qp 2 0)

/-! ### WINDOW_SETUP, WINDOW_REMOVE (R284, R285, R289) -/

/-- Operands of Table 13.5. -/
def wSeg (d : Bytes) : Nat := fld d 16 1
def wWin (d : Bytes) : Nat := fld d 17 1
def wQp (d : Bytes) : Nat := fld d 18 2
def wRights (d : Bytes) : Nat := fld d 20 1
def wTag (d : Bytes) : Nat := fld d 22 2
def wVa (d : Bytes) : Nat := fld d 24 8
def wOff (d : Bytes) : Nat := fld d 32 8
def wLen (d : Bytes) : Nat := fld d 40 8

/-- A remote partition is attached through the queue pair. -/
def State.isAttachQp (s : State) (q : Nat) : Bool := (s.attachPart q).isSome

/-- Checks of R285, 0 when all pass. -/
def State.windowCheck (s : State) (p : Nat) (d : Bytes) : Nat :=
  if !(s.part p).hasQp (wQp d) then stNoAccess
  else match s.seg? p (wSeg d) with
    | none => stBounds
    | some v =>
      if v.sealed then stSealedDeny
      else if v.tier != 1 || v.limit < wOff d + wLen d then stBounds
      else if v.paged || 15 < wWin d || (FMap.find s.net.wins (wQp d * 16 + wWin d)).isSome
          || (wWin d = 15 && s.isAttachQp (wQp d)) || wRights d = 0 || (v.readOnly && (wRights d).testBit 1)
          || wVa d % 4096 != 0 || wOff d % 4096 != 0 || wLen d % 4096 != 0 || wLen d = 0 || 2 ^ 40 < wLen d then
        stBadFormat
      else 0

/-- WINDOW_SETUP. -/
def execWindowSetup (ring seq : Nat) (s : State) : Host.Outcome State Fault Refusal :=
  let k := cmdKey ring seq
  .next (s.front k 0x40 fun s c =>
    let d := c.desc
    let st := s.windowCheck c.part d
    if st != 0 then (if st = stSealedDeny then s.count 0x056 0 1 else s).finish k st
    else
      let w : Win := { part := c.part, seg := wSeg d, rights := wRights d, tag := wTag d, va := wVa d
                       off := wOff d, len := wLen d }
      ({ s with net := { s.net with wins := FMap.set s.net.wins (wQp d * 16 + wWin d) w } }).finish k stOk)

/-- WINDOW_REMOVE: the window refuses new messages. Assumption 72, DEDUCED. -/
def execWindowRemove (ring seq : Nat) (s : State) : Host.Outcome State Fault Refusal :=
  let k := cmdKey ring seq
  .next (s.front k 0x41 fun s c =>
    let d := c.desc
    let n := wQp d * 16 + wWin d
    if !(s.part c.part).hasQp (wQp d) then s.finish k stNoAccess
    else if 15 < wWin d || (wWin d = 15 && s.isAttachQp (wQp d)) then s.finish k stBadFormat
    else match FMap.find s.net.wins n with
      | none => s.finish k stOk
      | some w =>
        { s.setPhase k .running with
          net := { s.net with wins := FMap.set s.net.wins n { w with closing := w.closing ++ [k] } } })

/-- WINDOW_DRAIN_DONE (R289): no checked message through the window is left; every WINDOW_REMOVE of it completes. -/
def execWindowDrainDone (qp win : Nat) (s : State) : Host.Outcome State Fault Refusal :=
  let n := qp * 16 + win
  .next (match FMap.find s.net.wins n with
    | none => s
    | some w =>
      let ks := s.winRemoves w
      if ks.isEmpty || s.winBusy n then s
      else ({ s with net := { s.net with wins := FMap.del s.net.wins n } }).each ks fun s k => s.finish k stOk)

end Sys2Proof.Machine
end

