-- ==== Sys2Proof/Machine/HostPort.lean ====
section
/-! DEFINITION. The host port's commands (chapter 12): its link, the CXL.mem window, MSI-X. -/

namespace Sys2Proof.Machine

/-! ### The CXL.mem window (R258 to R261) -/

/-- Base of the HDM decoder (Table 12.2; assumption 128, PRESUMED). -/
def HostPort.hdmBase (h : HostPort) : Nat :=
  2 ^ 28 * bitsOf (FMap.get h.cfg 0x120010 0).toNat 31 28 + 2 ^ 32 * (FMap.get h.cfg 0x120014 0).toNat

/-- The base window requests go by: on a link that a host-port reset took down, the one before it (R267). -/
def State.hdmBase (s : State) : Nat := if s.hp.cxlOk then s.hp.hdmBase else s.hp.hdmWas

/-- Device byte address of the line of a host address that the decoder exposes (R258). -/
def State.hdmLine (s : State) (addr : Nat) : Option Nat :=
  if s.hdmBase ≤ addr && addr - s.hdmBase < t1Limit then some ((addr - s.hdmBase) / 64 * 64) else none

/-- The segment that owns the frame of a device byte address of tier-1 (R241). -/
def State.frameOwner (s : State) (a : Nat) : Option (Nat × Seg) :=
  (s.allSegs.find? fun (_, _, v) => v.tier == 1 && v.owns.any fun (b, l) => decide (b ≤ a) && decide (a < b + l)).map
    fun (p, _, v) => (p, v)

/-- The host may reach the frame: it belongs to a local partition, and is not sealed (Table 12.4). -/
def State.windowOwner (s : State) (a : Nat) : Option (Nat × Seg) :=
  match s.frameOwner a with
  | some (p, v) => if (s.part p).remote || v.sealed then none else some (p, v)
  | none => none

/-- A denied access (R259, R197). -/
def State.windowDeny (s : State) (a : Nat) : State :=
  match s.frameOwner a with
  | none => s.count 0x083 16 1
  | some (p, v) =>
    let s := s.count 0x083 p 1
    if v.sealed then s.count 0x056 0 1 else s

/-- The frame is closed while a ream is resident (R260). -/
def State.closedFrame (s : State) (p : Nat) : Bool := s.ream.resident && s.hasAccess p

/-- Lines the host-line directory holds (R260). -/
def hostDirSize : Nat := 1048576

/-- The host has been granted a line: it is the most recent; a full directory gives up its least recent,
and asks for it back. -/
def State.grantLine (s : State) (l : Nat) : State :=
  let d := s.hp.dir.filter (· != l)
  let s := if hostDirSize ≤ d.length then s.snoop (d.take 1) else s
  let d := if hostDirSize ≤ d.length then d.drop 1 else d
  { s with hp := { s.hp with dir := d ++ [l], shared := s.hp.shared.filter (· != l) } }

/-- What a CXL.mem read answers: 64 bytes in RESP, poison in RDATA (assumption 4, DESIGN CHOICE). -/
def State.answerLine (s : State) (d : Bytes) (poison : Bool) : State :=
  { s with bus := { rdata := BitVec.ofNat 32 (b2n poison), resp := d } }

/-- The window can be served: the link runs CXL, and no back-invalidation after a reset is left. -/
def State.windowUp (s : State) : Bool := s.hp.cxlOk && !s.hp.biPurge

/-- A host read that is served (R258 to R261). -/
def State.memRead (s : State) (addr : Nat) : State :=
  match s.hdmLine addr with
  | none => s
  | some a => match s.windowOwner a with
    | none => (s.windowDeny a).answerLine (zeros 64) true
    | some (p, _) =>
      let s := (s.openSheets a 64).rebuild (a / 256)
      let s := if s.closedFrame p then s else s.grantLine (a / 64)
      s.answerLine (s.mem.readN (t1Addr a) 64) (s.t1Bad (a / 256))

/-- A host write of a line that is allowed (R261). -/
def State.lineWrite (s : State) (a : Nat) (d : Bytes) (poison : Bool) : State :=
  let s := s.openSheets a 64
  if s.t1Bad (a / 256) then s.count 0x084 0 1
  else (s.rebuild (a / 256)).writeT1 a d (if poison then [0] else [])

/-- A host write that is carried out (R259, R261). -/
def State.memWrite (s : State) (addr : Nat) (data : Bytes) (poison : Bool) : State :=
  match s.hdmLine addr with
  | none => s
  | some a => match s.windowOwner a with
    | none => s.windowDeny a
    | some (p, v) => if v.readOnly then s.count 0x083 p 1 else s.lineWrite a (fit 64 data) poison

/-- Serve a CXL.mem request. -/
def State.memServe (s : State) : MemReq → State
  | .read a => s.memRead a
  | .write a d p => s.memWrite a d p

/-- The request is a write. -/
def MemReq.isWrite : MemReq → Bool
  | .read _ => false
  | .write .. => true

/-- A request waits for the back-invalidations after a reset (R267). -/
def State.memWait (s : State) (r : MemReq) : State := { s with hp := { s.hp with memQ := s.hp.memQ ++ [r] } }

/-- The waiting requests are served, oldest first. -/
def State.memGo (s : State) : State :=
  ({ s with hp := { s.hp with memQ := [] } }).each s.hp.memQ State.memServe

/-- CXL_MEM_READ (R258 to R261, R267). -/
def execCxlMemRead (addr : Nat) (s : State) : Host.Outcome State Fault Refusal :=
  .next (if !s.hp.cxlOk then s else if s.hp.biPurge then s.memWait (.read addr) else s.memRead addr)

/-- CXL_MEM_WRITE (R259, R261, R267): on a link that a host-port reset took down, one whose data had arrived is carried
out; on one without CXL there is none (R254). -/
def execCxlMemWrite (addr : Nat) (data : Bytes) (poison : Bool) (s : State) : Host.Outcome State Fault Refusal :=
  .next (if s.hp.cxlOk then
      (if s.hp.biPurge then s.memWait (.write addr data poison) else s.memWrite addr data poison)
    else if s.hp.link < 2 && s.hp.cxlWas then s.memWrite addr data poison
    else s)

/-! ### Link faults and resets (R265 to R268) -/

/-- A request of the device on CXL.cache (R257): of a read, RdCurr; of a write, ItoMWr for a whole line, WOWrInv with
its byte enables for a part of one. -/
inductive CxlReq where
  | rdCurr (line : Nat)
  | itoMWr (line : Nat)
  | woWrInv (line enables : Nat)
  deriving DecidableEq, Repr

/-- Byte enables of line `l` in a range of host memory. -/
def lineEnables (addr len l : Nat) : Nat :=
  (List.range 64).foldl (fun n i => if addr ≤ 64 * l + i && 64 * l + i < addr + len then n + 2 ^ i else n) 0

/-- The requests an access makes, a line each. -/
def Xfer.requests (x : Xfer) : List CxlReq :=
  (List.range (hostLines x.addr x.len)).map fun i =>
    let l := x.addr / 64 + i
    if x.kind = 1 then .rdCurr l
    else if lineEnables x.addr x.len l = 2 ^ 64 - 1 then .itoMWr l
    else .woWrInv l (lineEnables x.addr x.len l)

/-- Requests of a local write that wait for their GO. -/
def Xfer.linesLeft (x : Xfer) : Nat := x.requests.length - x.gone

/-- An access of the host port. -/
def Xfer.isLocal (x : Xfer) : Bool := x.qp.isNone

/-- Posts with a FETCH of local tier-2 that is under way while its partition cannot be reached. -/
def State.lostFetches (s : State) : List Nat :=
  ((s.tiles.map fun e => (e.2.xq.map fun q => q.2.filterMap fun j =>
    match (s.ctx? e.1 j.ctx).bind (s.placeFor · j.word), j.post with
    | some pl, some k => if isFetch j.word && !j.sent && s.readLost k pl then some k else none
    | _, _ => none).flatten).flatten).eraseDups

/-- Every local partition that is ATTACHED or DETACHING becomes DETACHED. -/
def State.detachLocals (s : State) : State :=
  s.each ((List.range 16).filter fun p => (s.part p).reachable && !(s.part p).remote) fun s p => s.detachPart p

/-- What a host-port reset puts back (R266): the link, MSI-X, the configuration space and the CXL component registers.
A line whose snoop is not answered is tracked as before. -/
def HostPort.restart (h : HostPort) : HostPort :=
  { h with link := 0, cxlOk := false, cxlWas := h.cxlOk, hdmWas := if h.cxlOk then h.hdmBase else h.hdmWas
           epoch := (h.epoch + 1) % 2 ^ 16, msix := [], pba := [], msixEnable := false, msixMask := false, cfg := []
           doe := {}
           dir := (h.biWait.filter fun l => !h.dir.contains l) ++ h.dir
           biWait := [], biData := [], shared := [], biPurge := false, memQ := [] }

/-- HOST_PORT_RESET (Table 12.6, t0); an image that is being read is lost, and its slot not pending (R341). -/
def execHostPortReset (s : State) : Host.Outcome State Fault Refusal :=
  let gone := s.io.out.filter fun x => x.isLocal && !x.accepted && x.kind == 0
  let whole := s.hp.memQ.filter MemReq.isWrite
  let s := (s.count 0x081 0 1).count 0x082 0 (gone.map Xfer.linesLeft).sum
  let s := s.each whole State.memServe
  let s := { s with hp := s.hp.restart }
  let s := (s.failXfers Xfer.isLocal).detachLocals
  let s := s.each s.lostFetches fun s k => s.xferFail k
  let s := s.failStaging fun p v => !v.remote && !(s.part p).remote
  let s := { s with evt := { s.evt with coreCause := s.evt.coreCause ||| 2 ^ 32 } }
  let s := if s.sec.code = 0x10 || s.sec.code = 0x20 then
      { s with sec := { s.sec with result := some (6, []), isPending := s.sec.isPending && s.sec.code != 0x10 } }
    else s
  .next (s.raise (coreSource 22))

/-- A rate and width of the link (R253, Table 12.5): below 32, 32, 64, 128 GT/s; x1, x2 or x4. -/
def linkForm (speed width : Nat) : Bool := decide (speed < 4) && (width == 1 || width == 2 || width == 4)

/-- LINK_RECOVERY (R265): back in L0 nothing is lost; HP_STATUS shows the rate and width. Below 32 GT/s the link runs as
PCIe only (R254). Assumption 127, DEDUCED. -/
def execLinkRecovery (speed width : Nat) (s : State) : Host.Outcome State Fault Refusal :=
  .next (if 2 ≤ s.hp.link && linkForm speed width then
      let s := s.count 0x080 0 1
      { s with hp := { s.hp with link := 2, speed := speed, width := width, cxlOk := s.hp.cxlOk && speed != 0 } }
    else s)

/-- HOST_LINK_L0 (R253, R254, R267): the link is up; with CXL, every tracked line is asked back before
the window serves. -/
def execHostLinkL0 (speed width : Nat) (cxl : Bool) (s : State) : Host.Outcome State Fault Refusal :=
  let ok := cxl && speed != 0
  let s' := { s with hp := { s.hp with link := 2, speed := speed, width := width, cxlOk := ok } }
  .next (if 2 ≤ s.hp.link || !s.powered || !linkForm speed width then s
    else if ok && !s.hp.dir.isEmpty then
      let t := s'.snoop s'.hp.dir
      { t with hp := { t.hp with biPurge := true } }
    else if ok then s'.openGo else s')

/-- PERST_N_RELEASE (R357): training starts. -/
def execPerstNRelease (s : State) : Host.Outcome State Fault Refusal :=
  let s := { s with pwr := { s.pwr with perst := false } }
  .next (if s.hp.link = 0 then { s with hp := { s.hp with link := 1 } } else s)

/-- GO_RESPONSE (R257): one line of a write has its GO; with its last line the write is accepted. -/
def execGoResponse (id : Nat) (s : State) : Host.Outcome State Fault Refusal :=
  .next (match s.io.out.find? fun x => x.id == id && x.isLocal && x.kind == 0 && !x.accepted with
    | none => s
    | some x =>
      if x.linesLeft ≤ 1 then s.accept1 id
      else { s with io := { s.io with
        out := s.io.out.map fun y => if y.id = id then { y with gone := y.gone + 1 } else y } })

/-- BISNP_RESPONSE (R260, R267): the answer to the older snoop of the line, and waiting accesses go on. After a BISnpData
the host holds the line shared; after a BISnpInv it is no longer tracked. Assumption 74, DEDUCED. -/
def execBisnpResponse (line : Nat) (s : State) : Host.Outcome State Fault Refusal :=
  .next (if s.hp.biData.contains line then
      ({ s with hp := { s.hp with
        biData := s.hp.biData.filter (· != line), shared := line :: s.hp.shared.filter (· != line) } }).openGo
    else if s.hp.biWait.contains line then
      let w := s.hp.biWait.filter (· != line)
      let s := { s with hp := { s.hp with
        biWait := w, dir := s.hp.dir.filter (· != line), shared := s.hp.shared.filter (· != line)
        biPurge := s.hp.biPurge && !w.isEmpty } }
      (if s.hp.biPurge then s else s.memGo.openGo.intakeGo)
    else s)

/-! ### MSI-X and the BARs (R255, R264) -/

/-- A pending vector sends its one message; the sources that wait for it re-arm where AUTO_ACK says. -/
def State.sendPending (s : State) (v : Nat) : State :=
  match s.hp.pba.find? fun e => e.1 == v with
  | none => s
  | some (_, i) =>
    let p := s.srcOwner i
    if !s.msixOpen v || !(s.part p).reachable then s
    else
      let is := (s.hp.pba.filter fun e => e.1 == v).map (·.2)
      let s := { s with hp := { s.hp with pba := s.hp.pba.filter fun e => e.1 != v } }
      s.each is (fun s j => if s.autoAck j then s.rearm j else s) |>.sendMsix p v

/-- MSIX_UNMASK (R264). -/
def execMsixUnmask (vec : Nat) (s : State) : Host.Outcome State Fault Refusal :=
  let w := FMap.get s.hp.msix (4 * vec + 3) 1
  .next (if 2048 ≤ vec then s
    else
      let s := { s with hp := { s.hp with msix := FMap.set s.hp.msix (4 * vec + 3) (w &&& ~~~(1#32)) } }
      s.sendPending vec)

/-- BAR_BAD_ACCESS (R255): a write is discarded, a read returns all ones. -/
def execBarBadAccess (write : Bool) (s : State) : Host.Outcome State Fault Refusal :=
  let s := s.count 0x086 0 1
  .next (if write then s else { s with bus := { s.bus with rdata := 0xFFFFFFFF#32 } })

end Sys2Proof.Machine
end

