-- ==== Sys2Proof/Machine/Dbg.lean ====
section
/-! DEFINITION. The DBG block (R379, Tables 18.9 and 18.10). -/

namespace Sys2Proof.Machine

/-- A stored value outside a field's defined ones acts as the reset value, 0 (R373). -/
def actsZero (limit n : Nat) : Nat := if n < limit then n else 0

/-- TILE, PROG_LINE, KEY_INDEX, SPACE, PEEK_TILE, PEEK_ADDR: of tiles there are 72, of lines 24,576, of spaces 3. -/
def State.dbgTile (s : State) : Nat := actsZero 72 (s.regF 0xF0000 6 0)
def State.progLine (s : State) : Nat := actsZero spLines (s.regF 0xF0004 14 0)
def State.keyIndex (s : State) : Nat := actsZero 72 (s.regF 0xF0010 6 0)
def State.keyGroup (s : State) : Nat := actsZero 9 (s.regF 0xF0010 6 0)
def State.peekSpace (s : State) : Nat := if s.regF 0xF0100 1 0 = 3 then 0 else s.regF 0xF0100 1 0
def State.peekTile (s : State) : Nat := actsZero 72 (s.regF 0xF0100 14 8)
def State.peekAddr (s : State) : Nat := s.regF 0xF0104 31 0 + 2 ^ 32 * s.regF 0xF0108 1 0

/-- The outcome of an action: REFUSED, and its effect where it is accepted. -/
def State.dbgAct (s : State) (ok : Bool) (go : State → State) : State :=
  let s := { s with dbg := { s.dbg with refused := !ok } }
  if ok then go s else s

/-- A tile in TEST. -/
def State.inTest (s : State) (t : Nat) : Bool := s.enabled t && (s.tile t).st == 4

/-- HALT has been applied to the context. -/
def Ctx.halted (c : Ctx) : Bool := c.parked && c.failed

/-- RUNNING: a test program holds the sequencer, or instructions it issued have not completed. -/
def State.testRuns (s : State) (t : Nat) : Bool :=
  match s.ctx? t 0 with
  | some c => s.inTest t && c.post.isNone && !(c.halted && !(s.tile t).busy 0)
  | none => false

/-- HALT: no further issue; a frozen STREAM ends. -/
def State.halt (s : State) (t : Nat) : State :=
  let s := s.modCtx t 0 fun c => { c with parked := true, failed := true }
  s.modTile t fun x => { x with stream := match x.stream with
    | some j => if j.frozen then none else some j
    | none => none }

/-- DBG_ENTER. -/
def execDbgEnter (s : State) : Host.Outcome State Fault Refusal :=
  let t := s.dbgTile
  let ok := s.enabled t && (s.tile t).st == 0 && !s.ream.resident && s.ream.job.isNone
  .next (s.dbgAct ok fun s =>
    let s := s.modTile t fun x => { x with st := 4 }
    let s := { s with sec := { s.sec with testSeen := true } }
    s.extend 7 evTest (natLe 1 t) (sm3 (natLe 1 t)))

/-- DBG_LEAVE: after HALT the tile is in STARTUP; nothing of the test is left (assumption 76, DEDUCED). -/
def execDbgLeave (s : State) : Host.Outcome State Fault Refusal :=
  let t := s.dbgTile
  .next (s.dbgAct (s.inTest t) fun s =>
    (s.freeTileFaults t).modTile t fun x => { streamKey := x.streamKey, pattern := x.pattern, sliceAt := x.sliceAt, round := x.round })

/-- The program at PROG_LINE: its N_INSTR words and the header before them. Assumption 31, DEDUCED. -/
def State.testProgram (s : State) (t : Nat) : Bytes :=
  let l := s.progLine
  let n := fld (s.spRead t l 4) 0 4
  if 16384 < n then [] else s.spRead t l (64 + 32 * n)

/-- DBG_RUN: the program passes the checks of R67, all of them for BAD_FORMAT; those of R63 and R83 for other reasons are
made of a record at load only. -/
def execDbgRun (s : State) : Host.Outcome State Fault Refusal :=
  let t := s.dbgTile
  let p := s.testProgram t
  let ok := s.inTest t && !s.testRuns t && !(programWhyBy testWordBad s.fuse.tileMask p).contains rBadFormat
  .next (s.dbgAct ok fun s =>
    (s.freeTileFaults t).modTile t fun x => { x with test := some p, ctxs := [(0, { post := none, pc := pEntry p })] })

/-- DBG_HALT. -/
def execDbgHalt (s : State) : Host.Outcome State Fault Refusal :=
  let t := s.dbgTile
  .next (s.dbgAct (s.testRuns t) fun s => (s.halt t).freeTileFaults t)

/-- DBG_STREAM_KEY_SET: a write of KEY_LO with KEY_KIND 0. -/
def execDbgStreamKeySet (lo : Word) (s : State) : Host.Outcome State Fault Refusal :=
  let t := s.keyIndex
  .next (s.dbgAct (s.inTest t) fun s =>
    let key : DWord := s.dbg.keyHi ++ lo
    s.modTile t fun x => { x with streamKey := key })

/-- DBG_INTERLEAVE_KEY_SET: a write of KEY_LO with KEY_KIND 1. -/
def execDbgInterleaveKeySet (lo : Word) (s : State) : Host.Outcome State Fault Refusal :=
  let g := s.keyGroup
  let ok := (List.range 8).all fun i => s.inTest (8 * g + i)
  .next (s.dbgAct ok fun s =>
    { s with tiers := { s.tiers with intKey := FMap.set s.tiers.intKey g lo } })

/-! ### Peeks -/

/-- Device sheets of tier-1, the top 4 GiB among them. -/
def t1Sheets : Nat := t1Limit / 256 + topSheets

/-- The entries of a sheet of the page-map pool, as the segments' page maps have them (R247). -/
def State.poolSheet (s : State) (n : Nat) : Bytes :=
  let first := (256 * n - poolBase) / 8
  ((List.range 32).map fun i => match s.allSegs.find? fun (_, _, v) =>
      v.paged && inRange v.mapAt (mapEntries v.limit) (first + i) with
    | some (_, _, v) => v.entry (first + i - v.mapAt)
    | none => zeros 8).flatten

/-- The bytes of a device sheet of tier-1. -/
def State.t1Sheet (s : State) (n : Nat) : Bytes :=
  if decide (poolBase ≤ 256 * n) && decide (256 * n < copyBase) then s.poolSheet n
  else s.mem.readN (t1Addr (256 * n)) 256

/-- The target lies in its space. -/
def State.peekInRange (s : State) : Bool :=
  let sp := s.peekSpace
  if sp = 2 then decide (s.peekAddr < t1Sheets)
  else s.enabled s.peekTile && decide (s.peekAddr < if sp = 0 then spLines else t0Limit / 256)

/-- A READ is accepted. -/
def State.readOk (s : State) : Bool :=
  let st := (s.tile s.peekTile).st
  s.peekInRange && (s.peekSpace != 0 || (st != 1 && st != 2))

/-- A WRITE is accepted. -/
def State.writeOk (s : State) : Bool :=
  s.peekInRange && (if s.peekSpace = 2 then !s.ream.resident && (s.frameOwner (256 * s.peekAddr)).isNone
    else s.inTest s.peekTile)

/-- READ or WRITE begins, or is refused. -/
def State.peek (s : State) (ok : Bool) (write : Bool) : State :=
  let ok := ok && s.dbg.busy.isNone
  let job := (s.peekSpace + (if write then 4 else 0), s.peekTile, s.peekAddr)
  { s with dbg := { s.dbg with peekRefused := !ok, busy := if ok then some job else s.dbg.busy } }

/-- DBG_PEEK_READ. -/
def execDbgPeekRead (s : State) : Host.Outcome State Fault Refusal := .next (s.peek s.readOk false)

/-- DBG_PEEK_WRITE. -/
def execDbgPeekWrite (s : State) : Host.Outcome State Fault Refusal := .next (s.peek s.writeOk true)

/-- The table in whose tier-0 places byte `a` of a tile's slice lies. -/
def State.placesAt (s : State) (t a : Nat) : Option Nat :=
  ((List.range (hTables s.ream.hdr)).filter fun u => tKind (s.tab u) != 2).find? fun u =>
    (shardTiles (s.tab u)).contains t &&
      decide (s.areaOff u t ≤ a) && decide (a < s.areaOff u t + areaBytes (s.tab u))

/-- Byte `a` of a tile's slice lies in the places, the directory or the work area of a table homed in a sealed segment,
or, in a sealed ream, in a post buffer (R196). -/
def State.sliceSealed (s : State) (t a : Nat) : Bool :=
  (s.placesAt t a).any s.sealedTable || (s.dirAt t a).any (fun e => s.sealedTable e.1) || (s.workAt t a).any s.sealedTable
    || (s.ream.sealed && decide (s.bufBase t ≤ a) && decide (a < s.workBase t))

/-- The target is in a sealed region (R196, Table 9.1). -/
def State.peekSealed (s : State) (space t n : Nat) : Bool :=
  if space = 0 then s.ream.resident && s.ream.sealed
  else if space = 1 then s.ream.resident && s.sliceSealed t (256 * n)
  else match s.frameOwner (256 * n) with
    | some (_, v) => v.sealed
    | none => false

/-- The bytes and the mark of a target, and the counts of reading it. -/
def State.peekData (s : State) (space t n : Nat) : Bytes × Bool × State :=
  if space = 0 then (s.spRead t n 256, s.spBad t n, s)
  else if space = 1 then
    ((s.sliceSheet t n).1, (s.sliceSheet t n).2, s)
  else
    let s := (s.openSheets (256 * n) 256).rebuild n
    (s.t1Sheet n, s.t1Bad n, s)

/-- A READ ends. -/
def State.peekReadEnd (s : State) (space t n : Nat) : State :=
  if s.peekSealed space t n then
    ({ s with dbg := { s.dbg with data := zeros 256, zeroed := true, poisoned := false } }).count 0x056 0 1
  else
    let (b, bad, s) := s.peekData space t n
    { s with dbg := { s.dbg with data := b, zeroed := false, poisoned := bad } }

/-- A WRITE ends: the whole line or sheet, any poison on it cleared. -/
def State.peekWriteEnd (s : State) (space t n : Nat) : State :=
  let b := fit 256 s.dbg.data
  if space = 0 then s.spWrite t n b []
  else if space = 1 then { s with mem := s.mem.writeSheets (t0Addr t (256 * n)) b [] }
  else (s.openSheets (256 * n) 256).writeT1 (256 * n) b []

/-- Lines a peek of tier-1 must ask the host for: a read those not held shared (R260). -/
def State.peekLines (s : State) (k n : Nat) : List Nat :=
  if k = 2 then s.readBlocked (s.trackedIn (256 * n) 256) else if k = 6 then s.trackedIn (256 * n) 256 else []

/-- PEEK_COPY_DONE. SPACE 2 waits for lines the host caches (R260), SPACE 1 takes MAINT entries, which wait while the channel group is hot (R175, Table 18.10). -/
def execPeekCopyDone (s : State) : Host.Outcome State Fault Refusal :=
  .next (match s.dbg.busy with
    | none => s
    | some (k, t, n) =>
      if k % 4 = 1 && s.hotTile t then s
      else if !(s.peekLines k n).isEmpty then (if k = 2 then s.snoopData else s.snoop) (s.peekLines k n)
      else
      let s := if k = 2 then s.readTaken (s.trackedIn (256 * n) 256) else s
      let s := { s with dbg := { s.dbg with busy := none } }
      if 4 ≤ k then s.peekWriteEnd (k - 4) t n else s.peekReadEnd k t n)

end Sys2Proof.Machine
end

