-- ==== Sys2Proof/Machine/Mgmt.lean ====
section
/-! DEFINITION. The management interface: MCTP control and PLDM over SMBus (R368, R369). An answer is a
completion code, 0 for success and 1 for ERROR, and the value asked for; how the standards frame it is not
modelled (assumption 78, PRESUMED). -/

namespace Sys2Proof.Machine

/-- Answer a request; the endpoint runs in every power state but OFF. -/
def State.answer (s : State) (go : State → State × Nat × Bytes) : State :=
  if s.pwr.st = 0 then s
  else
    let (t, code, b) := go s
    { t with bus := { t.bus with resp := natLe 1 code ++ b } }

/-- A request that only reads. -/
def State.tell (s : State) (b : Bytes) : State := s.answer fun s => (s, 0, b)

/-- SET_ENDPOINT_ID: kept until the input is removed. -/
def execSetEndpointId (eid : Nat) (s : State) : Host.Outcome State Fault Refusal :=
  .next (s.answer fun s => ({ s with mgmt := { s.mgmt with eid := eid % 256 } }, 0, []))

/-- GET_ENDPOINT_ID. -/
def execGetEndpointId (s : State) : Host.Outcome State Fault Refusal := .next (s.tell (natLe 1 s.mgmt.eid))

/-- GET_ENDPOINT_UUID. -/
def execGetEndpointUuid (s : State) : Host.Outcome State Fault Refusal :=
  .next (s.tell (fit 16 (Config.uuid s.fuse.serial)))

/-- Version 1.n of a standard in the four bytes DMTF gives a version number (assumption 78, PRESUMED). -/
def dmtfVersion (n : Nat) : Nat := 0xF1F0FF00 + 2 ^ 16 * n

/-- MCTP is that of DSP0236 1.3 (R9, Table 0.6). -/
def mctpVersion : Nat := dmtfVersion 3

/-- PLDM base discovery is that of DSP0240 1.1, monitoring and control that of DSP0248 1.2 (R9, Table 0.6). -/
def pldmVersion (type : Nat) : Option Nat :=
  if type = 0 then some (dmtfVersion 1) else if type = 2 then some (dmtfVersion 2) else none

/-- GET_MCTP_VERSION_SUPPORT. -/
def execGetMctpVersionSupport (s : State) : Host.Outcome State Fault Refusal := .next (s.tell (natLe 4 mctpVersion))

/-- GET_MESSAGE_TYPE_SUPPORT: types 0 and 1. -/
def execGetMessageTypeSupport (s : State) : Host.Outcome State Fault Refusal :=
  .next (s.tell (natLe 1 2 ++ natLe 1 0 ++ natLe 1 1))

/-- GET_TID. -/
def execGetTid (s : State) : Host.Outcome State Fault Refusal := .next (s.tell (natLe 1 s.mgmt.tid))

/-- SET_TID. -/
def execSetTid (tid : Nat) (s : State) : Host.Outcome State Fault Refusal :=
  .next (s.answer fun s => ({ s with mgmt := { s.mgmt with tid := tid % 256 } }, 0, []))

/-- PLDM types supported: base discovery 0, monitoring and control 2. -/
def pldmTypes : List Nat := [0, 2]


/-- GET_PLDM_TYPES: a bit for each type. -/
def execGetPldmTypes (s : State) : Host.Outcome State Fault Refusal :=
  .next (s.tell (natLe 8 (pldmTypes.foldl (fun n t => n + 2 ^ t) 0)))

/-- Command codes of the two types (assumption 78, PRESUMED). -/
def pldmCommands (type : Nat) : List Nat :=
  if type = 0 then [0x01, 0x02, 0x03, 0x04, 0x05]
  else [0x04, 0x0A, 0x0B, 0x11, 0x21, 0x31, 0x32, 0x50, 0x51]

/-- GET_PLDM_COMMANDS: a bit for each command. -/
def execGetPldmCommands (type : Nat) (s : State) : Host.Outcome State Fault Refusal :=
  .next (s.answer fun s =>
    if pldmTypes.contains type then (s, 0, natLe 32 ((pldmCommands type).foldl (fun n c => n + 2 ^ c) 0))
    else (s, 1, []))

/-- Records of the repository: one for each item of Table 17.9, as kind (0 numeric sensor, 1 state sensor,
2 numeric effecter) and ID. -/
def pdrs : List (Nat × Nat) :=
  (List.range 19).map (fun i => (0, i + 1)) ++ (List.range 5).map (fun i => (1, i + 20)) ++ [(2, 1), (2, 2)]

/-- GET_PDR_REPOSITORY_INFO. -/
def execGetPdrRepositoryInfo (s : State) : Host.Outcome State Fault Refusal :=
  .next (s.tell (natLe 4 pdrs.length))

/-- GET_PDR: handles from 1. -/
def execGetPdr (handle : Nat) (s : State) : Host.Outcome State Fault Refusal :=
  .next (s.answer fun s => match if handle = 0 then none else pdrs[handle - 1]? with
    | some (k, i) => (s, 0, natLe 1 k ++ natLe 2 i)
    | none => (s, 1, []))

/-- Reading of a numeric sensor (Table 17.9). -/
def State.numSensor (s : State) (i : Nat) : Option Nat :=
  let p := s.pwr
  if i = 1 then some p.vin else if i = 2 then some p.iin else if i = 3 then some p.pAvg
  else if 4 ≤ i && i ≤ 12 then some (s.dramTemp (i - 4))
  else if i = 13 then some s.hotCdie else if i = 14 then some s.hotPdie
  else if i = 15 then some p.inlet else if i = 16 then some p.outlet
  else if i = 17 then some p.flow else if i = 18 then some p.demand
  else if i = 19 then some p.bank.joule else none

/-- State of a state sensor. -/
def State.stateSensor (s : State) (i : Nat) : Option Nat :=
  if i = 20 then some s.pwr.st else if i = 21 then some s.emergCause else if i = 22 then some s.bootSense
  else if i = 23 then some s.pwr.bank.st else if i = 24 then some s.pwr.flushCause else none

/-- A value, or ERROR where there is none. -/
def tellOpt (n : Option Nat) (s : State) : State × Nat × Bytes :=
  match n with
  | some v => (s, 0, natLe 4 v)
  | none => (s, 1, [])

/-- GET_PLDM_VERSION. -/
def execGetPldmVersion (type : Nat) (s : State) : Host.Outcome State Fault Refusal :=
  .next (s.answer (tellOpt (pldmVersion type)))

/-- GET_SENSOR_READING. -/
def execGetSensorReading (id : Nat) (s : State) : Host.Outcome State Fault Refusal :=
  .next (s.answer (tellOpt (s.numSensor id)))

/-- GET_STATE_SENSOR_READINGS. -/
def execGetStateSensorReadings (id : Nat) (s : State) : Host.Outcome State Fault Refusal :=
  .next (s.answer (tellOpt (s.stateSensor id)))

/-- The state after an outcome that is a next state. -/
def after (o : Host.Outcome State Fault Refusal) (s : State) : State :=
  match o with
  | .next t => t
  | _ => s

/-- SET_NUMERIC_EFFECTER_VALUE: a write of PWR_CAP or SLEW; ERROR with LOCK set. -/
def execSetNumericEffecterValue (id value : Nat) (s : State) : Host.Outcome State Fault Refusal :=
  let w := BitVec.ofNat 32 value
  .next (s.answer fun s =>
    if s.pwrLocked then (s, 1, [])
    else if id = 1 then (after (execPwrCap w s) s, 0, [])
    else if id = 2 then (after (execSlew w s) s, 0, [])
    else (s, 1, []))

/-- GET_NUMERIC_EFFECTER_VALUE. -/
def execGetNumericEffecterValue (id : Nat) (s : State) : Host.Outcome State Fault Refusal :=
  .next (s.answer (tellOpt (if id = 1 then some s.pwrCap else if id = 2 then some (s.regF 0xA000C 6 0) else none)))

/-- SET_EVENT_RECEIVER. -/
def execSetEventReceiver (eid : Nat) (s : State) : Host.Outcome State Fault Refusal :=
  .next (s.answer fun s => ({ s with mgmt := { s.mgmt with receiver := some eid } }, 0, []))

/-- POLL_FOR_PLATFORM_EVENT_MESSAGE: the oldest event; SMB_ALERT_N is low while one waits. -/
def execPollForPlatformEventMessage (s : State) : Host.Outcome State Fault Refusal :=
  .next (s.answer fun s => match s.mgmt.events with
    | [] => (s, 0, [])
    | (i, v) :: es => ({ s with mgmt := { s.mgmt with events := es } }, 0, natLe 2 i ++ natLe 4 v))

end Sys2Proof.Machine
end

