-- ==== Sys2Proof/Machine/Vault.lean ====
section
/-! DEFINITION. The vault's commands (R187, R319): appending rows, a record becoming durable, the STATE
record of every second, and the erasing and retiring of blocks. -/

namespace Sys2Proof.Machine

/-- The vault has been mounted (Table 15.10): its erased blocks are known. Assumption 82, DEDUCED. -/
def State.mounted (s : State) : State := s.modVault fun v => { v with erased := some v.free }

/-- VAULT_ROWS_APPEND (R319): firmware appends flips, then rows of one table, then what follows. -/
def execVaultRowsAppend (table : Nat) (rows : List RowId) (s : State) : Host.Outcome State Fault Refusal :=
  .next (if !s.ream.resident || hTables s.ream.hdr ≤ table then s
    else (s.mounted.appendFlips.appendRows table (rows.map fun r => (r.tile, r.loc))).baseNext.stepNext)

/-- Mark the oldest record that is not durable. -/
def firstDurable : List VRec → List VRec
  | [] => []
  | r :: rs => if r.durable then r :: firstDurable rs else { r with durable := true } :: rs

/-- The oldest record that is not durable. -/
def Vault.nextDurable (v : Vault) : Option VRec := v.log.find? fun r => !r.durable

/-- A replica record is durable: its space in the intake is free, and the receiver acknowledges with the step now
durable, that of the last durable STEP record, and the LSN (R323). -/
def State.replicaDurable (s : State) (r : VRec) : State :=
  match s.rel.receiver with
  | none => s
  | some p =>
    if r.source != 1 || r.serial != p.serial || !p.active then s
    else
      let step := if r.kind = 3 then fld r.body 0 8 else (p.acked.map (·.1)).getD allOnes64
      let p := { p with free := p.free + r.size, acked := some (step, r.lsn) }
      let s := { s with rel := { s.rel with receiver := some p } }
      s.issue { id := 0, use := .partner, part := p.part, kind := 2, qp := some p.qp, len := 20
                data := natLe 8 step ++ natLe 8 r.lsn ++ natLe 4 p.free }

/-- VAULT_APPEND_DURABLE (R319): the oldest record is durable; its rows stop being dirty, but for those
an update has written since the record was formed. -/
def execVaultAppendDurable (s : State) : Host.Outcome State Fault Refusal :=
  .next (match s.rel.vault.nextDurable with
    | none => s
    | some r =>
      let s := s.modVault fun v => { v with log := firstDurable v.log }
      let dirty := s.gat.dirty.filter fun e => !r.keys.contains e
      (({ s with gat := { s.gat with dirty := dirty } }).replicaDurable r).stepNext.baseNext)

/-- STATE_RECORD_TIMER (R319). -/
def execStateRecordTimer (s : State) : Host.Outcome State Fault Refusal :=
  .next (s.mounted.appendState.stepNext.baseNext)

/-! ### Erasing and retiring (R187) -/

/-- Bytes of the good blocks. -/
def Vault.capacity (v : Vault) : Nat := eraseBlock * (vaultBlocks - v.retired)

/-- One more block can be erased without a record in it. -/
def Vault.blockFree (v : Vault) : Bool :=
  decide (v.free + v.used + eraseBlock ≤ v.capacity) && decide (v.used + eraseBlock ≤ logRegion)

/-- Drop the oldest records that nothing protects, until a block is free. -/
def Vault.dropOld : Nat → Vault → Vault
  | 0, v => v
  | n + 1, v =>
    if v.blockFree || v.firstKept = 0 then v
    else Vault.dropOld n { v with log := v.log.drop 1 }

/-- Percent of the rated endurance used (Table 8.11). -/
def Vault.wear (v : Vault) : Nat := Nat.min 127 (v.cycles * 100 / (vaultBlocks * 100000))

/-- The vault's condition after an erase or a retirement. -/
def Vault.condition (v : Vault) : Nat :=
  if v.capacity < logRegion + flushReserve then 2 else if 100 ≤ v.wear then 1 else v.st

/-- A change of condition raises its event. -/
def State.vaultCondition (s : State) : State :=
  let old := s.rel.vault.st
  let new := s.rel.vault.condition
  let s := s.modVault fun v => { v with st := new }
  if new = old then s else s.causeAll (if new = 2 then cVaultFailed else cVaultWorn)

/-- VAULT_BLOCK_ERASE (R187): a block behind the log is erased, or it is retired. -/
def execVaultBlockErase (retired : Bool) (s : State) : Host.Outcome State Fault Refusal :=
  .next (
    let s := s.mounted
    let v := s.rel.vault
    if retired then
      if vaultBlocks ≤ v.retired then s
      else
        let s := s.modVault fun v => { v with retired := v.retired + 1, erased := some (Nat.min v.free
          (eraseBlock * (vaultBlocks - v.retired - 1) - v.used)) }
        (s.count 0x04B 0 1).vaultCondition
    else
      let v := v.dropOld v.log.length
      if !v.blockFree then s
      else
        let s := s.setVault { v with erased := some (v.free + eraseBlock), cycles := v.cycles + 1 }
        let s := s.vaultCondition
        if s.rel.vault.mustWait 4096 then s else s.appendHeld.intakeGo.stepNext.baseNext.commitGo)

end Sys2Proof.Machine
end

