-- ==== Sys2Proof/Machine/Partner.lean ====
section
/-! DEFINITION. The partner stream (R291, R322 to R325): pairing, sending records, receiving them. -/

namespace Sys2Proof.Machine

/-- LSN of a module that has acknowledged nothing yet, in a HELLO (assumption 65, DEDUCED). -/
def noLsn : Nat := allOnes64

/-- A SEND of a partner queue pair. -/
def State.partnerSend (s : State) (p : Pair) (data : Bytes) : State :=
  s.issue { id := 0, use := .partner, part := p.part, kind := 2, qp := some p.qp, len := data.length, data := data }

/-! ### PARTNER_PAIR (R322) -/

/-- Operands. -/
def Cmd.pQp (c : Cmd) : Nat := c.f 18 2
def Cmd.pSecuring (c : Cmd) : Nat := c.f 20 4
def Cmd.pSeg (c : Cmd) : Nat := c.f 24 1
def Cmd.pOff (c : Cmd) : Nat := c.f 28 6
def Cmd.pLen (c : Cmd) : Nat := c.f 36 4

/-- ROLE of a queue pair (R291): the one in force since CONNECT, or before one the one stored. -/
def Qp.roleNow (q : Qp) : Nat := if q.st = 0 then q.c 0x40 16 16 else q.l 0x40 16 16

/-- The checks every PARTNER_PAIR makes on its queue pair: 0 passes. -/
def State.pairQp (s : State) (c : Cmd) : Nat :=
  if !(s.part c.part).hasQp c.pQp then stNoAccess
  else if (s.qp c.pQp).roleNow = 0 then stBadFormat
  else 0

/-- PARTNER_PAIR of one OP. -/
def State.partnerPair (s : State) (k op : Nat) (go : State → Cmd → State) : State :=
  s.front k 0x50 fun t c =>
    if c.f 16 1 != op then s
    else
      let st := t.pairQp c
      if st != 0 then t.finish k st else go t c

/-- What a HELLO carries: certificate serial, feed identity, BOOT, last acknowledged LSN. -/
def State.hello (s : State) (lsn : Nat) : Bytes :=
  natLe 8 s.fuse.serial ++ natLe 1 s.fuse.feed ++ natLe 4 s.rel.boots ++ natLe 8 lsn

/-- PARTNER_PAIR SENDER: the HELLO goes out. -/
def execPartnerPairSender (ring seq : Nat) (s : State) : Host.Outcome State Fault Refusal :=
  let k := cmdKey ring seq
  .next (s.partnerPair k 0 fun s c =>
    if s.rel.sender.isSome then s.finish k stPartBusy
    else if c.pSecuring = 0 || 2 ^ 24 < c.pSecuring then s.finish k stBadFormat
    else if !s.qpUp c.pQp then s.finish k stXferFail
    else
      let p : Pair := { qp := c.pQp, part := c.part, cmd := some k, securing := c.pSecuring }
      ((s.setPhase k .running).setSender (some p)).partnerSend p (s.hello (s.rel.ackLsn.getD noLsn)))

/-- The intake is a range of a backed tier-1 segment: 0 passes. -/
def State.intakeCheck (s : State) (c : Cmd) : Nat :=
  match s.seg? c.part c.pSeg with
  | none => stBounds
  | some v =>
    if v.tier != 1 || v.paged || c.pLen % pageSize != 0 || c.pLen < 2 ^ 26 then stBadFormat
    else if v.limit < c.pOff + c.pLen then stBounds
    else 0

/-- PARTNER_PAIR RECEIVER. -/
def execPartnerPairReceiver (ring seq : Nat) (s : State) : Host.Outcome State Fault Refusal :=
  let k := cmdKey ring seq
  .next (s.partnerPair k 1 fun s c =>
    let st := s.intakeCheck c
    if s.rel.receiver.isSome then s.finish k stPartBusy
    else if st != 0 then s.finish k st
    else
      let p : Pair := { qp := c.pQp, part := c.part, seg := c.pSeg, off := c.pOff, len := c.pLen, free := c.pLen }
      (s.setReceiver (some p)).finish k stOk)

/-- PARTNER_PAIR UNPAIR: the pairing on the queue pair ends. -/
def execPartnerPairUnpair (ring seq : Nat) (s : State) : Host.Outcome State Fault Refusal :=
  let k := cmdKey ring seq
  .next (s.partnerPair k 2 fun s c =>
    let s := match s.rel.sender with
      | some p => if p.qp != c.pQp then s
        else match p.cmd with
          | some h => (s.setSender none).finish h stXferFail
          | none => s.setSender none
      | none => s
    let s := match s.rel.receiver with
      | some p => if p.qp = c.pQp then s.setReceiver none else s
      | none => s
    s.finish k stOk)

/-! ### The HELLO (R322, R323, R324) -/

/-- This module's own record of an LSN is in the log. -/
def Vault.own (v : Vault) : List VRec := v.log.filter fun r => r.source == 0

/-- Where the stream resumes: after the acknowledged LSN if the log still holds that record, else at the
BASE_BEGIN of the newest complete base pass, else at the oldest record of the log (assumption 65, DEDUCED). -/
def Vault.resumeAt (v : Vault) (lsn : Nat) : Nat :=
  if v.own.any fun r => r.lsn == lsn then lsn + 1
  else match (baseAt v.log 0 0 v.log.length).bind fun i => v.log[i]? with
    | some r => r.lsn
    | none => match v.own.head? with
      | some r => r.lsn
      | none => v.lsn

/-- An ACK of the receiver: the step and LSN now durable, and the free intake bytes (R323). -/
def State.partnerAck (s : State) (p : Pair) : State :=
  let (step, lsn) := p.acked.getD (allOnes64, noLsn)
  s.partnerSend p (natLe 8 step ++ natLe 8 lsn ++ natLe 4 p.free)

/-- What is durable of a sender's replica: the step of its newest STEP record, and the newest LSN. -/
def Vault.replicaOf (v : Vault) (serial : Nat) : Option (Nat × Nat) :=
  let rs := v.log.filter fun r => r.source == 1 && r.serial == serial && r.durable
  let step := (((rs.filter fun r => r.kind == 3).getLast?).map fun r => fld r.body 0 8).getD allOnes64
  rs.getLast?.map fun r => (step, r.lsn)

/-- PARTNER_HELLO_RECEIVE: the receiver's answer to this module's HELLO, or a sender's HELLO, which this
module answers. -/
def execPartnerHelloReceive (serial feed boot lsn : Nat) (s : State) : Host.Outcome State Fault Refusal :=
  let ans (p : Pair) : Pair := { p with known := true, active := true, serial := serial, feed := feed, boot := boot }
  let asReceiver (s : State) : State := match s.rel.receiver with
    | none => s
    | some p =>
      if !s.qpUp p.qp then s
      else
        let p := { ans p with acked := s.rel.vault.replicaOf serial }
        let last := match p.acked with
          | some (_, n) => n
          | none => noLsn
        ((s.setReceiver (some p)).partnerSend p (s.hello last)).partnerAck p
  .next (match s.rel.sender with
    | none => asReceiver s
    | some p => match p.cmd with
      | none => asReceiver s
      | some k =>
        let p := { ans p with cmd := none, next := s.rel.vault.resumeAt lsn }
        let s := s.setSender (some p)
        s.finish k stOk)

/-- PARTNER_HELLO_TIMEOUT: no answer within 1 s. -/
def execPartnerHelloTimeout (s : State) : Host.Outcome State Fault Refusal :=
  .next (match s.rel.sender with
    | none => s
    | some p => match p.cmd with
      | none => s
      | some k => (s.setSender none).finish k stXferFail)

/-! ### The stream (R291, R323) -/

/-- PARTNER_RECORD_WRITE: the next record goes by RDMA WRITE into free intake space; a STEP record is
followed by a STEP SEND. Where in the intake it goes is a free value (assumption 65, DEDUCED). -/
def execPartnerRecordWrite (s : State) : Host.Outcome State Fault Refusal :=
  .next (match s.rel.sender with
    | none => s
    | some p => match s.rel.vault.own.find? fun r => r.lsn == p.next with
      | none => s
      | some r =>
        if !p.active || p.free < r.size then s
        else
          let (at_, s) := s.freeVal
          let data := r.header ++ r.body
          let s := s.setSender (some { p with next := p.next + 1, free := p.free - r.size })
          let s := s.issue { id := 0, use := .partner, part := p.part, qp := some p.qp, addr := at_
                             len := data.length, data := data }
          if r.kind = 3 then s.partnerSend p (r.body.take 8) else s)

/-- Bytes of the records the sender has sent past an LSN: they may lie in the intake still, or be on their way. -/
def State.sentPast (s : State) (p : Pair) (lsn : Nat) : Nat :=
  ((s.rel.vault.own.filter fun r => decide (r.lsn < p.next) && (lsn = noLsn || decide (lsn < r.lsn))).map VRec.size).foldl
    (· + ·) 0

/-- PARTNER_ACK_RECEIVE (R323): PARTNER_RECORDS counts the records newly acknowledged, and what the intake has free is
what the ACK gives less the records it does not acknowledge yet (assumption 65, DEDUCED). -/
def execPartnerAckReceive (step lsn intakeFree : Nat) (s : State) : Host.Outcome State Fault Refusal :=
  .next (match s.rel.sender with
    | none => s
    | some p =>
      if !p.active then s
      else
        let p' := { p with free := intakeFree - s.sentPast p lsn }
        if lsn = noLsn then s.setSender (some p')
        else
          let new := (s.rel.vault.own.filter fun r => decide (r.lsn ≤ lsn) && decide (r.lsn < p.next) &&
            match s.rel.ackLsn with
            | some n => decide (n < r.lsn)
            | none => true).length
          let s := (s.setSender (some { p' with acked := some (step, lsn) })).count 0x0B8 0 new
          { s with rel := { s.rel with ackLsn := some (Nat.max lsn (s.rel.ackLsn.getD 0)) } })

/-- PARTNER_RECORD_ARRIVAL (R323): the record goes into the intake, and is appended to the vault as SOURCE 1
under the sender's serial. -/
def execPartnerRecordArrival (record : Bytes) (s : State) : Host.Outcome State Fault Refusal :=
  .next (match s.rel.receiver with
    | some p =>
      if !p.active || (parseRec record).isNone then s
      else ((s.mounted).setReceiver (some { p with inbox := p.inbox ++ [(record, false)] })).intakeGo
    | none => s)

/-- PARTNER_STALL (R291). -/
def execPartnerStall (s : State) : Host.Outcome State Fault Refusal :=
  .next (match s.rel.sender with
    | none => s
    | some p =>
      let open_ : Bool := match p.acked with
        | some (_, n) => decide (n + 1 < p.next)
        | none => s.rel.vault.own.any fun r => decide (r.lsn < p.next)
      if p.active && open_ then s.causeAll cPartnerStall else s)

/-- PARTNER_RESTORE_REQUEST (R327): the replica of that serial is read to the partner, record by record. -/
def execPartnerRestoreRequest (serial : Nat) (s : State) : Host.Outcome State Fault Refusal :=
  .next (match s.rel.receiver with
    | none => s
    | some p =>
      if !s.qpUp p.qp then s
      else
        s.each (s.rel.vault.log.filter fun r => r.source == 1 && r.serial == serial && r.durable) fun s r =>
          s.partnerSend p (r.header ++ r.body))

end Sys2Proof.Machine
end

