-- ==== Sys2Proof/Machine/RecOps.lean ====
section
/-! DEFINITION. Reading records of the vault log back (R313, R318, R320, R328): the rows of a ROWS or
ROWS_SEALED record, and where they belong. -/

namespace Sys2Proof.Machine

/-- The rows of a ROWS payload of a table: tile, local row, bytes. -/
def State.bodyRows (s : State) (u : Nat) (body : Bytes) : List (Nat × Nat × Bytes) :=
  let n := rowBytes (s.tab u)
  let k := body.length / (8 + n)
  (List.range k).map fun i =>
    let f := fld body (8 * i) 8
    ((shardTiles (s.tab u)).getD (bitsOf f 39 34) 0, f % 2 ^ 34, (body.drop (8 * k + n * i)).take n)

/-- A record whose payload is sealed: ROWS_SEALED, and FLIP of one table. -/
def VRec.isSealed (r : VRec) : Bool := r.kind == 2 || (r.kind == 6 && r.table != 0xFFFF)

/-- The plain payload of a record of rows or flips: none where it is poisoned, its tag fails, or its key is gone. -/
def recPlain (key : Option Slot) (r : VRec) : Option Bytes :=
  if r.poison then none
  else if !r.isSealed then some r.body
  else match key with
    | none => none
    | some k =>
      let ct := r.body.take (r.body.length - 16)
      let key := deriveKey k.alg k.outputKey 0x56 r.salt
      if gcmTag k.alg key r.iv [] ct = r.body.drop (r.body.length - 16) then
        some (gcmDec k.alg key r.iv ct)
      else none

/-- A row as a record of this ream holds it. -/
def State.rowIn (s : State) (u tile loc : Nat) (r : VRec) : Option Bytes :=
  if (r.kind = 1 || r.kind = 2) && r.source = 0 && r.table = u && r.ream = s.tableId then
    match recPlain (s.sealSlot u) r with
    | none => none
    | some b => (((s.bodyRows u b).filter fun e => e.1 == tile && e.2.1 == loc).getLast?).map (·.2.2)
  else none

/-- The newest readable record of a row. -/
def State.newestRow (s : State) (u tile loc : Nat) : Option Bytes :=
  firstSome (s.rowIn u tile loc) s.rel.vault.log.reverse

end Sys2Proof.Machine
end

