-- ==== Sys2Proof/Machine/Tiers.lean ====
section
/-! DEFINITION. Upkeep of the memory tiers: corrected sheets, scrub, lost packages, repairs of rows and
of ream lines, and the die-to-die link's replays (chapter 8; R16, R312 to R314). -/

namespace Sys2Proof.Machine

/-- T0_CORRECTED_WRITE_BACK (R189, R174): a read has been corrected; its sheet and those queued before
it are written back, or the sheet joins the queue while maintenance waits (assumption 60, DEDUCED). -/
def execT0CorrectedWriteBack (tile : Nat) (s : State) : Host.Outcome State Fault Refusal :=
  .next (if !s.enabled tile then s
    else
      let s := s.count 0x040 tile 1
      let n := FMap.get s.tiers.wb tile 0
      let put (n : Nat) (s : State) : State := { s with tiers := { s.tiers with wb := FMap.set s.tiers.wb tile n } }
      if !s.hotTile tile then s.drainWb tile
      else if n < 64 then put (n + 1) s
      else s.count 0x041 tile 1)

/-- SCRUB_CTRL (Table 8.12). -/
def scrubCtrl : Nat := 0x90020

/-- T0_SCRUB_PASS (R190, R192, R314): the sheets found uncorrectable become poisoned. -/
def execT0ScrubPass (overran : Bool) (bad : List (Nat × Nat)) (s : State) : Host.Outcome State Fault Refusal :=
  .next (if s.regF scrubCtrl 7 0 = 0 then s
    else
      let s := (s.each s.tileList State.drainWb)
      let s := { s with tiers := { s.tiers with t0Lag := overran } }
      s.each bad fun s (t, n) =>
        if !s.enabled t || t0Limit ≤ 256 * n || s.hotTile t then s
        else s.strikeT0 t n)

/-- A stripe's nonzero syndrome with no package flagged: its five data sheets are poisoned (R191). -/
def State.badStripe (s : State) (g stripe : Nat) : State :=
  if 4 ≤ g || 2 ^ 28 ≤ stripe || (s.t1g g).st != 0 then s
  else
    (s.count 0x045 g 1).each (List.range 5) fun s i =>
      let n := t1SheetOf g (5 * stripe + i)
      s.poisonT1 n

/-- T1_SCRUB_PASS (R191, R192, R314). -/
def execT1ScrubPass (overran : Bool) (bad : List (Nat × Nat)) (s : State) : Host.Outcome State Fault Refusal :=
  .next (if s.regF scrubCtrl 15 8 = 0 then s
    else
      let s := { s with tiers := { s.tiers with t1Lag := overran } }
      s.each bad fun s (g, n) => s.badStripe g n)

/-- A package is marked lost (R183): the group is EXPOSED, or with a second lost package FAILED. -/
def State.loseT1 (s : State) (ctrl pkg : Nat) : State :=
  let g := s.t1g ctrl
  let s := s.setT1g ctrl { g with lost := g.lost ++ [pkg], st := if g.st = 0 then 1 else g.st }
  if g.lost.isEmpty then s.causeAll cT1Exposed else s.failGroup ctrl

/-- T1_PACKAGE_LOST (R183). -/
def execT1PackageLost (ctrl pkg : Nat) (s : State) : Host.Outcome State Fault Refusal :=
  .next (if 4 ≤ ctrl || 6 ≤ pkg || (s.t1g ctrl).lost.contains pkg then s else s.loseT1 ctrl pkg)

/-! ### POISON_REPAIR (R313) -/

/-- The outcome of a repair: its counter, and its entry in the poison log. -/
def State.repaired (s : State) (id kind tile u loc : Nat) : State :=
  (s.count id u 1).plogAdd kind tile u loc

/-- Write a row's copies that carry poison: where it lives now, and its home. -/
def State.rewriteRow (s : State) (tile u loc : Nat) (b : Bytes) : State :=
  let home := t1Addr (s.homeAddr u tile loc)
  let live := s.rowAddr tile u loc
  let s := if s.copyBad live b.length then s.writeCopy live b else s
  if s.copyBad home b.length then s.writeCopy home b else s

/-- A row of zero elements with a zero trailer. -/
def State.repairLost (s : State) (tile u loc : Nat) : State :=
  (s.rewriteRow tile u loc (zeros (rowBytes (s.tab u)))).repaired 0x0B4 7 tile u loc

/-- POISON_REPAIR: the first source that applies. A row with a place in tier-0 waits with that tier's maintenance
(R175). Assumption 84, DEDUCED. -/
def execPoisonRepair (tile table loc : Nat) (s : State) : Host.Outcome State Fault Refusal :=
  .next (if !s.rowExists tile table loc || ((s.livePlace tile table loc).isSome && s.hotTile tile) then s
    else
      let s := s.drainWb tile
      let n := rowBytes (s.tab table)
      let home := t1Addr (s.homeAddr table tile loc)
      let live := s.rowAddr tile table loc
      let inT0 := (s.livePlace tile table loc).isSome
      let stale := match s.dirEnt tile table loc with
        | some e => e.stale
        | none => false
      let badHome := s.copyBad home n
      let badLive := s.copyBad live n
      if !badLive && !badHome then s
      else if inT0 && badLive && !stale && !badHome then
        (s.writeCopy live (s.mem.readN home n)).repaired 0x0B2 5 tile table loc
      else if inT0 && badHome && !badLive then
        let s := s.writeCopy home (s.mem.readN live n)
        let s := match s.dirEnt tile table loc with
          | some e => s.setDir tile table loc (if tPinned (s.tab table) then none else some { e with stale := false })
          | none => s
        s.repaired 0x0B2 5 tile table loc
      else match s.newestRow table tile loc with
        | some b =>
          let lost := (FMap.find s.gat.dirty (rowKey table tile loc)).isSome
          (s.rewriteRow tile table loc b).repaired (if lost then 0x0B3 else 0x0B2) (if lost then 6 else 5)
            tile table loc
        | none => s.repairLost tile table loc)

/-! ### REAM_LINE_RELOAD (R312) -/

/-- REAM_LINE_RELOAD: every poisoned ream line of a tile in RECOVERY, for both versions. -/
def execReamLineReload (tile : Nat) (s : State) : Host.Outcome State Fault Refusal :=
  .next (if (s.tile tile).st != 3 || !s.ream.resident then s
    else
      let s := s.reloadTile tile false
      s.modTile tile fun x => { x with badLines := x.badLines.filter fun l => s.spBad tile l })

/-! ### The die-to-die link (R16) -/

/-- The clock domain of a direction's sending side: 0 from the P-die, 1 from the C-die (assumption 117, DEDUCED). -/
def d2dDomain (dir : Nat) : Nat := if dir = 0 then 20 else 19

/-- The flit slot of a direction now: 2.4 TB/s in flits of 256 bytes at 1.5 GHz is 25 flits in 4 cycles of the
sending side's clock (R10, R16), and half as many in half-step, when the link's slot table advances every second cycle
(R35; assumption 117, DEDUCED). -/
def State.flitSlot (s : State) (dir : Nat) : Nat := FMap.get s.rel.d2dAt dir 0 / 8

/-- D2D_FLIT_REPLAY: a replay, counted. One in 64 slots is the reserve: a second replay within the 64 slots from
another makes the retrain due (R16). -/
def execD2dFlitReplay (dir : Nat) (s : State) : Host.Outcome State Fault Refusal :=
  .next (if 2 ≤ dir then s
    else
      let n := s.flitSlot dir
      let due : Bool := match FMap.find s.rel.d2dLast dir with
        | some m => decide (n < m + 64)
        | none => false
      let s := s.count 0x001 dir 1
      { s with rel := { s.rel with d2dLast := FMap.set s.rel.d2dLast dir n, d2dDue := s.rel.d2dDue || due } })

end Sys2Proof.Machine
end

