-- ==== Sys2Proof/Machine/Restore.lean ====
section
/-! DEFINITION. RESTORE (R327 to R331): the source's records, the preconditions of Table 15.7, the
replay into homes and directories, the streams, and the rings. -/

namespace Sys2Proof.Machine

/-! ### The source (R327, R328 step 1) -/

/-- Records of a replica as the partner sent them, with the TABLE_ID of the base pass each belongs to;
one whose bytes are no record is poisoned, with what its header says where that can be read. -/
def replicaRecs (bs : List Bytes) : List VRec :=
  (bs.foldl (fun (out, id_) b =>
    match parseHead b with
    | none => (out ++ [({ kind := 0, poison := true, ream := id_ } : VRec)], id_)
    | some r =>
      let r := { r with poison := (parseRec b).isNone, body := fit (fld b 24 4) r.body }
      let id_ := if r.kind = 4 then r.body.take 32 else id_
      (out ++ [{ r with ream := id_ }], id_)) (([] : List VRec), ([] : Bytes))).1

/-- What RESTORE reads: this module's own records, or the partner's replica up to where it broke off. -/
def State.restoreSource (s : State) (c : Cmd) (replica : List Bytes) : List VRec :=
  if c.f 16 1 = 0 then s.rel.vault.own else replicaRecs (replica.takeWhile fun b => !b.isEmpty)

/-- The checkpoint a restore uses: where its base pass begins, its COMMIT, its DIGESTS (R328 step 2). -/
structure Point where
  base : Nat
  commit : Nat
  digests : Nat
  deriving DecidableEq, Repr

/-- The COMMIT a DIGESTS record at place d belongs to: the last before it with the same C. -/
def commitOf (log : List VRec) (d : Nat) (c : Bytes) : Option Nat :=
  (((log.take d).zipIdx.filter fun (r, _) => r.kind == 7 && r.body.take 8 == c).getLast?).map (·.2)

/-- The checkpoint of the DIGESTS record at place d, if it can be used. -/
def pointAt (log : List VRec) (id_ : Bytes) (d : Nat) (r : VRec) : Option Point :=
  match commitOf log d (r.body.take 8) with
  | none => none
  | some m =>
    let mine := (log.take m).map fun x => if x.ream = id_ then x else { x with kind := 0 }
    match (baseAt mine 0 0 m).bind fun b => (mine[b]?).map fun x => (b, x) with
    | some (b, x) => if x.body.take 32 = id_ then some { base := b, commit := m, digests := d } else none
    | none => none

/-- The newest usable checkpoint. -/
def findPoint (log : List VRec) (id_ : Bytes) : Option Point :=
  firstSome (fun (r, d) => if r.kind = 8 && r.ream = id_ then pointAt log id_ d r else none) log.zipIdx.reverse

/-- Records of places [a, b) that belong to the ream. -/
def recsIn (log : List VRec) (id_ : Bytes) (a b : Nat) : List VRec :=
  ((log.take b).drop a).filter fun r => r.ream == id_

/-- A sealed record's slot cannot be used: no LOADED slot, or one of another KEY_ID. A partner's record says no KEY_ID:
there the tag shows whether the slot holds the keys it was sealed under (R209). -/
def State.keyGone (s : State) (r : VRec) : Bool :=
  r.isSealed && match s.sealSlot r.table with
    | none => true
    | some k => !k.loaded ||
        (if r.keyId.isEmpty then !r.poison && (recPlain (some k) r).isNone else r.keyId != k.keyId)

/-- Reasons 0x01 to 0x05 of Table 15.7, 0 when a checkpoint can be used. Assumption 79, DEDUCED. -/
def State.restoreCheck (s : State) (c : Cmd) (log : List VRec) : Nat :=
  let id_ := s.tableId
  if s.ream.updStep != 0 || s.ream.admitted != 0 then 1
  else if log.isEmpty || (c.f 16 1 = 1 && !s.qpUp (c.f 18 2)) then 2
  else if !log.any fun r => r.ream == id_ && (r.kind == 4 || r.kind == 5 || r.kind == 9) then 3
  else match findPoint log id_ with
    | none => 4
    | some p => if (recsIn log id_ p.base log.length).any s.keyGone then 5 else 0

/-! ### Replay (R328 steps 3, 5, 7) -/

/-- One entry of a FLIP record: table, tile, local row, state. -/
def State.flipEntries (s : State) (b : Bytes) : List (Nat × Nat × Nat × Nat) :=
  (chunks 16 (b.length / 16) b).map fun e =>
    (fld e 0 2, (shardTiles (s.tab (fld e 0 2))).getD (fld e 2 1) 0, fld e 8 8, fld e 3 1)

/-- The rows a record holds, as it reads now: none where it cannot be read. -/
def State.readRows (s : State) (r : VRec) : Option (List (Nat × Nat × Bytes)) :=
  (recPlain (s.sealSlot r.table) r).map fun b => s.bodyRows r.table b

/-- A record that a replay needs cannot be read. -/
def State.unreadable (s : State) (r : VRec) : Bool :=
  r.poison || (r.isSealed && (recPlain (s.sealSlot r.table) r).isNone)

/-- Rows go into their homes; flips into the directories, a new entry without a place. -/
def State.replayRec (s : State) (r : VRec) : State :=
  if r.kind = 1 || r.kind = 2 then
    s.each ((s.readRows r).getD []) fun s (t, l, b) =>
      if s.rowExists t r.table l then s.writeCopy (t1Addr (s.homeAddr r.table t l)) b else s
  else if r.kind = 6 then
    s.each (s.flipEntries ((recPlain (s.sealSlot r.table) r).getD [])) fun s (u, t, l, st) =>
      if s.rowExists t u l && !tPinned (s.tab u) then
        s.setDir t u l (if st = 4 then none else some { st := st })
      else s
  else s

/-- A poisoned record of this module's vault is met: its unit enters the poison log (R188, R314). -/
def State.unitBad (s : State) (r : VRec) : State :=
  if r.poison && r.lsn < s.rel.vault.lsn && s.rel.vault.log.contains r then s.plogAdd 3 0 0xFFFF r.unit else s

/-- Replay until a record cannot be read: the state, and whether every one could. -/
def State.replayAll (s : State) : List VRec → State × Bool
  | [] => (s, true)
  | r :: rs => if s.unreadable r then (s.unitBad r, false) else (s.replayRec r).replayAll rs

/-- Rows of a skipped record enter the poison log as far as it names them: those this module formed it of, or of a
partner's plain record its local row numbers (R328 step 5). -/
def State.skipRec (s : State) (r : VRec) : State :=
  let s := s.unitBad r
  let ks := if r.keys.isEmpty && r.kind = 1 then (s.bodyRows r.table r.body).map fun e => rowKey r.table e.1 e.2.1
    else r.keys.map (·.1)
  s.each ks fun s k => s.plogAdd 6 (k / 2 ^ 34 % 128) (rowKeyTable k) (k % 2 ^ 34)

/-- Replay the records after the checkpoint. -/
def State.replayTail (s : State) (rs : List VRec) : State :=
  s.each rs fun s r => if s.unreadable r then s.skipRec r else s.replayRec r

/-- Moves under way are abandoned (R161); every RESIDENT row takes the lowest free place of its table and is copied from its home. -/
def State.placeRows (s : State) : State :=
  let s := s.abandonMoves
  let rows := s.dirRows
  let dirs := s.gat.dirs
  let s := { s with gat := { s.gat with dirs := FMap.mapV dirs fun _ _ => [] } }
  s.each rows fun s (t, u, l) =>
    let used := (s.dir t u).map (·.2.place)
    match (List.range (tT0Rows (s.tab u))).find? fun p => !used.contains p with
    | none => s
    | some p =>
      (s.setDir t u l (some { st := 2, place := p })).moveRow (t1Addr (s.homeAddr u t l)) (s.placeAddr u t p)
        (rowBytes (s.tab u))

/-! ### State and streams (R328 step 6, R330) -/

/-- Step of the last STEP record, and that record. -/
def lastStepRec (rs : List VRec) : Option VRec := (rs.filter fun r => r.kind == 3 && !r.poison).getLast?

/-- Highest step that records show. -/
def highStep (rs : List VRec) : Option Nat :=
  let ns := (rs.filter fun r => r.step != allOnes64).map (·.step) ++
    (rs.filter fun r => r.kind == 3).map fun r => fld r.body 0 8
  match ns with
  | [] => none
  | _ => some (ns.foldl Nat.max 0)

/-- Payload of a STATE record per tile: key, positions of streams 0 and 1. -/
def stateTile (b : Bytes) (t : Nat) : Bytes := (b.drop (56 + 32 * t)).take 32

/-- Streams after the restore: the keys and stream 0 from the STATE record, stream 1 from the STEP
record; a tile whose STATE record shows another position counts as realigned. -/
def State.restoreStreams (s : State) (st : Option VRec) (step : Option VRec) : State × Nat :=
  s.tileList.foldl (fun (s, n) t =>
    let s := match st with
      | some r =>
        let b := stateTile r.body t
        ((s.modTile t fun x => { x with streamKey := BitVec.ofNat 64 (fld b 0 8) }).setCtr 0x011 (2 * t)
          (BitVec.ofNat 64 (fld b 16 8))).setCtr 0x011 (2 * t + 1) (BitVec.ofNat 64 (fld b 24 8))
      | none => s
    match step with
    | some r =>
      let p := fld r.body (8 + 8 * t) 8
      let off := (s.counter 0x011 (2 * t + 1)).toNat != p
      (s.setCtr 0x011 (2 * t + 1) (BitVec.ofNat 64 p), if off then n + 1 else n)
    | none => (s, n)) (s, 0)

/-- Step numbers and the sweep count. -/
def State.restoreSteps (s : State) (st : Option VRec) (rs : List VRec) : State :=
  let seen := match highStep rs with
    | some n => n + 1
    | none => 0
  let rec_ := match st with
    | some r => fld r.body 40 8
    | none => 0
  let s := { s with ream := { s.ream with updStep := Nat.max rec_ seen } }
  let s := match st with
    | some r => { s with ream := { s.ream with
        sweeps := fld r.body 32 8, esc := BitVec.ofNat 32 (fld r.body 48 4) } }
    | none => s
  let base := s.tileList.map fun t => (t, (s.counter 0x011 (2 * t + 1)).toNat)
  { s with gat := { s.gat with stepBase := s.ream.updStep, rngBase := base } }

/-! ### Rings (R331) -/

/-- Bytes of a STATE record before its ring part, and of one ring's entry in it: RING, PART, SIZE_LOG2,
EPOCH, SQ_CONS, CQ_PROD in 2, 1, 1, 4, 4 and 4 bytes. -/
def stateRings : Nat := 56 + 32 * 72

/-- The ring part of a flush's STATE record. -/
def State.ringPart (s : State) : Bytes :=
  (s.fe.rings.map fun (n, r) => if r.st = 0 then []
    else natLe 2 n ++ natLe 1 r.part ++ natLe 1 r.sizeLog2 ++ natLe 4 r.epoch ++ natLe 4 r.sqCons
      ++ natLe 4 r.cqProd).flatten

/-- The record of one command that the power loss ended: UTAG is lost, a free value. -/
def State.lostRecord (s : State) (n epoch seq : Nat) : Bytes × State :=
  let (v, s) := s.freeVal
  (withCrc (natLe 8 v ++ natLe 4 seq ++ natLe 2 epoch ++ natLe 2 n ++ natLe 2 stAborted ++ natLe 2 64 ++ natLe 8 0), s)

/-- One ring of the STATE record. -/
def State.restoreRing (s : State) (e : Bytes) : State :=
  let n := fld e 0 2
  let r := s.ring n
  let epoch := fld e 4 4
  let sq := fld e 8 4
  let cq := fld e 12 4
  if r.st = 0 || r.part != fld e 2 1 || r.sizeLog2 != fld e 3 1 || r.sqCons != 0 then s
  else
    let s := s.each (List.range (Nat.min (sub32 sq cq) r.size)) fun s i =>
      let at_ := (cq + i) % 2 ^ 32
      let (d, s) := s.lostRecord n epoch at_
      (s.putRecord n at_ d).modRing n fun r => { r with log := FMap.set r.log at_ { data := d, cmd := cmdKey n at_ } }
    s.modRing n fun r => { r with
      sqCons := sq, cqProd := sq, cqSeen := cq, prod := sq, epoch := (epoch + 1) % 2 ^ 16, dbLine := zeros 64 }

/-- Rings are restored from a log that ends in FLUSH_END. -/
def State.restoreRings (s : State) (log : List VRec) (st : Option VRec) : State :=
  match log.getLast?, st with
  | some l, some r =>
    if l.kind != 10 then s
    else
      let b := r.body.drop stateRings
      s.each (chunks 16 (b.length / 16) b) fun s e => s.restoreRing e
  | _, _ => s

/-! ### The command -/

/-- RESTORE is refused with a reason that changes nothing. -/
def State.restoreReject (s : State) (k why : Nat) : State := s.finish k stRestoreReject why

/-- It failed with homes replayed: admission stays closed, RESTORING stays set. -/
def State.restoreFail (s : State) (k why : Nat) : State :=
  let dirs := s.gat.dirs
  ({ s with
    rel := { s.rel with restoring := true }
    gat := { s.gat with dirs := FMap.mapV dirs fun _ _ => [] } }).finish k stRestoreReject why

/-- The partner's copy of the DIGESTS record, which a restore from the vault needs to be identical while
a SENDER pairing is active (R329). -/
def State.digestsDiffer (s : State) (c : Cmd) (log : List VRec) (p : Point) (replica : List Bytes) : Bool :=
  match log[p.digests]? with
  | none => true
  | some d =>
    let active := match s.rel.sender with
      | some q => q.active
      | none => false
    d.body.drop 8 != s.digestsAll ||
      (c.f 16 1 == 0 && active && !(replicaRecs replica).any fun r => r.kind == 8 && r.lsn == d.lsn && r.body == d.body)

/-- After the digests agree: the tail, the streams, the directories, PINNED copies and rings; the command
completes at the next sweep boundary. -/
def State.restoreRest (s : State) (k : Nat) (c : Cmd) (log : List VRec) (p : Point) : State :=
  let id_ := s.tableId
  let all := recsIn log id_ p.base log.length
  let s := s.replayTail (recsIn log id_ (p.digests + 1) log.length)
  let st := (all.filter fun r => r.kind == 9 && !r.poison).getLast?
  let step := lastStepRec all
  let (s, n) := s.restoreStreams st step
  let s := (s.count 0x0B9 0 n).restoreSteps st all
  let s := s.placeRows.pinTables
  let s := if c.f 16 1 = 0 then s.restoreRings log st else s
  let cNum := match log[p.digests]? with
    | some d => fld d.body 0 8
    | none => 0
  let sNum := match step with
    | some r => fld r.body 0 8
    | none => allOnes64
  { s with rel := { s.rel with
    restoring := true
    restore := some (k, cNum % 2 ^ 32 + 2 ^ 32 * (sNum % 2 ^ 32), if n = 0 then 0 else flagRealigned) } }
where
  /-- RNG_REALIGNED of Table 10.11. -/
  flagRealigned : Nat := 2 ^ 7

/-- Steps 3 to 10. -/
def State.restoreRun (s : State) (k : Nat) (c : Cmd) (log : List VRec) (p : Point) (replica : List Bytes) : State :=
  let s := (s.closeAdmission).setPhase k .running
  let s := { s with gat := { s.gat with dirs := FMap.mapV s.gat.dirs fun _ _ => [], flips := [] } }
  let s := s.each s.tileList fun s t => s.setCtr 0x037 t 0
  let (s, ok) := s.replayAll (recsIn log s.tableId p.base (p.commit + 1))
  if !ok then s.restoreFail k 6
  else if c.f 16 1 = 1 && replica.any (·.isEmpty) then s.restoreFail k 8
  else if s.digestsDiffer c log p replica then s.restoreFail k 7
  else s.restoreRest k c log p

/-- A restore from the partner asks for the replica of SERIAL on its queue pair (R327). -/
def State.askReplica (s : State) (c : Cmd) : State :=
  if c.f 16 1 = 1 && s.qpUp (c.f 18 2) then
    s.issue { id := 0, use := .partner, part := c.part, kind := 2, qp := some (c.f 18 2), len := 8, data := natLe 8 (c.f 24 8) }
  else s

/-- RESTORE. `replica` is what the partner sends: its records in order, an empty one where it failed. -/
def execRestore (ring seq : Nat) (replica : List Bytes) (s : State) : Host.Outcome State Fault Refusal :=
  let k := cmdKey ring seq
  .next (s.front k 0x52 fun s c =>
    let s := s.askReplica c
    let log := s.restoreSource c replica
    let why := s.restoreCheck c log
    if s.rel.restore.isSome then s.finish k stReamBusy
    else if why != 0 then s.restoreReject k why
    else match findPoint log s.tableId with
      | none => s.restoreReject k 4
      | some p => s.restoreRun k c log p replica)

end Sys2Proof.Machine
end

