-- ==== Sys2Proof/Machine/X509.lean ====
section
/-! DEFINITION. The certificates of R339: X.509 v3 in DER (RFC 5280), as Table 16.1 has them, and the check of a signer's
chain. The string types and the order of what Table 16.1 leaves open are the model's (assumption 142, PRESUMED). -/

namespace Sys2Proof.Machine

/-! ### DER -/

/-- Bytes of a number, without leading zeros. -/
def byteLen (n : Nat) : Nat := if n = 0 then 1 else Nat.log2 n / 8 + 1

/-- A value under a tag, with its length. -/
def der (tag : Nat) (b : Bytes) : Bytes :=
  let k := byteLen b.length
  natLe 1 tag ++ (if b.length < 128 then natLe 1 b.length else natLe 1 (128 + k) ++ natBe k b.length) ++ b

def derInt (n : Nat) : Bytes := der 0x02 (natBe (if n = 0 then 1 else Nat.log2 n / 8 + 1 + b2n (Nat.log2 n % 8 == 7)) n)
def derSeq (bs : List Bytes) : Bytes := der 0x30 bs.flatten
def derBits (b : Bytes) : Bytes := der 0x03 (0#8 :: b)

/-- Object identifiers: SM2 with SM3, elliptic-curve keys, the SM2 curve, attributes of a name, extensions, code signing. -/
def oidSig : Bytes := der 0x06 (natBe 8 0x2A811CCF55018375)
def oidKey : Bytes := der 0x06 (natBe 7 0x2A8648CE3D0201)
def oidCurve : Bytes := der 0x06 (natBe 8 0x2A811CCF5501822D)
def oidName (n : Nat) : Bytes := der 0x06 (natBe 3 (0x550400 + n))
def oidExt (n : Nat) : Bytes := der 0x06 (natBe 3 (0x551D00 + n))
def oidCode : Bytes := der 0x06 (natBe 8 0x2B06010505070303)

/-- ASCII text. -/
def ascii (s : String) : Bytes := s.toList.map fun c => BitVec.ofNat 8 c.toNat

/-- One attribute of a name: 3 CN, 5 serialNumber, 10 O, 11 OU. -/
def nameAttr (n : Nat) (b : Bytes) : Bytes := der 0x31 (derSeq [oidName n, der (if n = 5 then 0x13 else 0x0C) b])

/-- SubjectPublicKeyInfo of a key. -/
def keyInfo (p : Nat × Nat) : Bytes := derSeq [derSeq [oidKey, oidCurve], derBits (4#8 :: pointBytes p)]

/-- An extension, critical or not. -/
def derExt (n : Nat) (critical : Bool) (b : Bytes) : Bytes :=
  derSeq [oidExt n, if critical then der 0x01 [0xFF#8] else [], der 0x04 b]

/-- The algorithm of every signature. -/
def derAlg : Bytes := derSeq [oidSig]

/-- What an issuer signs. -/
def certBody (serial : Nat) (issuer subject notBefore : Bytes) (key : Nat × Nat) (exts : List Bytes) : Bytes :=
  derSeq [der 0xA0 (derInt 2), derInt serial, derAlg, issuer,
    derSeq [der 0x17 notBefore, der 0x18 (ascii "99991231235959Z")], subject, keyInfo key, der 0xA3 (derSeq exts)]

/-- A certificate: its body and the issuer's signature. -/
def certOf (body : Bytes) (sig : Nat × Nat) : Bytes := derSeq [body, derAlg, derBits (derSeq [derInt sig.1, derInt sig.2])]

/-! ### The three certificates of the chain (Table 16.1) -/

def rootName : Bytes := derSeq [nameAttr 10 (ascii "Pakuane"), nameAttr 3 (ascii "Pakuane Root")]
def caName : Bytes :=
  derSeq [nameAttr 10 (ascii "Pakuane"), nameAttr 11 (ascii "Yunaelo"), nameAttr 3 (ascii "Yunaelo Product CA")]

/-- Extensions of a CA: basicConstraints with its pathLen, keyUsage of keyCertSign and cRLSign, and the identifiers. -/
def caExts (path : Nat) (key issuer : Nat × Nat) : List Bytes :=
  [derExt 0x13 true (derSeq [der 0x01 [0xFF#8], derInt path]), derExt 0x0F true (der 0x03 [1#8, 0x06#8]),
    derExt 0x0E false (der 0x04 (fit 20 (Config.keyId key))), derExt 0x23 false (derSeq [der 0x80 (fit 20 (Config.keyId issuer))])]

def rootBody (hash : Nat) : Bytes :=
  certBody (Config.caSerial 0) rootName rootName (fit 13 (Config.notBefore 0)) (Config.rootKey hash)
    (caExts 1 (Config.rootKey hash) (Config.rootKey hash))

def caBody (hash : Nat) : Bytes :=
  certBody (Config.caSerial 1) rootName caName (fit 13 (Config.notBefore 1)) Config.caKey
    (caExts 0 Config.caKey (Config.rootKey hash))

/-- A digit of a serial number in text. -/
def hexDigit (n : Nat) : Byte := BitVec.ofNat 8 (if n < 10 then 48 + n else 55 + n)

/-- The watermark certificate's body: serial number in byte order, order number without its padding, device key. -/
def markBody (serial : Nat) (order : Bytes) (key : Nat × Nat) : Bytes :=
  let hex := ((natLe 16 serial).map fun b => [hexDigit (b.toNat / 16), hexDigit (b.toNat % 16)]).flatten
  certBody (beNat (natLe 16 serial)) caName
    (derSeq [nameAttr 10 (ascii "Pakuane"), nameAttr 11 (ascii "Yunaelo YN8"), nameAttr 3 (order.filter (· != 0)),
      nameAttr 5 hex]) (fit 13 (Config.notBefore 2)) key
    [derExt 0x13 true (derSeq []), derExt 0x0F true (der 0x03 [5#8, 0xA0#8]),
      derExt 0x0E false (der 0x04 (fit 20 (Config.keyId key))), derExt 0x23 false (derSeq [der 0x80 (fit 20 (Config.keyId Config.caKey))])]

/-! ### Reading a certificate -/

/-- One value: its tag, its contents, and its whole encoding. -/
structure Der where
  tag : Nat
  val : Bytes
  raw : Bytes
  deriving DecidableEq, Repr

/-- Bytes of the head of an encoding, and of its contents. -/
def derHead (b : Bytes) : Nat × Nat :=
  let n := (b.getD 1 0).toNat
  if n < 128 then (2, n) else (2 + (n - 128), beNat ((b.drop 2).take (n - 128)))

/-- The first value of a run of bytes. -/
def derFirst (b : Bytes) : Option Der :=
  let (h, n) := derHead b
  if b.length < 2 || b.length < h + n then none
  else some { tag := (b.getD 0 0).toNat, val := (b.drop h).take n, raw := b.take (h + n) }

/-- The values of a run of bytes, at most so many; none where it ends inside one. -/
def derList : Nat → Bytes → Option (List Der)
  | _, [] => some []
  | 0, _ => none
  | k + 1, b => match derFirst b with
    | none => none
    | some d => (derList k (b.drop d.raw.length)).map (d :: ·)

/-- The parts of a constructed value. -/
def Der.parts (d : Der) : List Der := (derList d.val.length d.val).getD []

/-- A certificate as a check needs it. -/
structure Cert where
  body : Bytes
  sig : Bytes
  issuer : Bytes
  subject : Der
  key : Nat × Nat
  exts : List Der
  deriving DecidableEq, Repr

/-- r ‖ s of a signature in DER, inside its bit string. -/
def derSig (d : Der) : Option Bytes :=
  match (derFirst (d.val.drop 1)).map Der.parts with
  | some [r, s] => some (natBe 32 (beNat r.val) ++ natBe 32 (beNat s.val))
  | _ => none

/-- Read a certificate of version 3, signed with SM2 and SM3 over a key on the SM2 curve; none where it is not one. -/
def readCert (b : Bytes) : Option Cert :=
  match (derFirst b).map Der.parts with
  | some [body, alg, sig] => match body.parts, derSig sig with
    | [v, _, alg', issuer, _, subject, info, exts], some rs =>
      let key := bytesPoint (info.raw.drop (info.raw.length - 64))
      if v.raw = der 0xA0 (derInt 2) && alg.raw = derAlg && alg'.raw = derAlg && info.raw = keyInfo key && exts.tag = 0xA3 then
        some { body := body.raw, sig := rs, issuer := issuer.raw, subject := subject, key := key
               exts := (exts.parts.map Der.parts).flatten }
      else none
    | _, _ => none
  | _ => none

/-- The contents of a critical extension, or of any where `critical` is not asked. -/
def Cert.ext (c : Cert) (n : Nat) (critical : Bool) : Option Bytes :=
  c.exts.findSome? fun e => match e.parts with
    | [o, v] => if o.raw = oidExt n && !critical then some v.val else none
    | [o, f, v] => if o.raw = oidExt n && f.val = [0xFF#8] then some v.val else none
    | _ => none

/-- The CN of a subject; none where it has none or more than one. -/
def Cert.cn (c : Cert) : Option Bytes :=
  let names := (c.subject.parts.map Der.parts).flatten.filterMap fun e => match e.parts with
    | [o, v] => if o.raw = oidName 3 then some v.val else none
    | _ => none
  match names with
  | [n] => some n
  | _ => none

/-- Extensions that a path check knows (RFC 5280): another critical one refuses the certificate. -/
def Cert.known (c : Cert) : Bool :=
  c.exts.all fun e => match e.parts with
    | [o, f, _] => f.val != [0xFF#8] || [0x0E, 0x0F, 0x13, 0x23, 0x25].any fun n => o.raw == oidExt n
    | _ => true

/-! ### The chain of a signer (R339) -/

/-- CN of a role: 0 firmware, 1 pattern pack (Table 16.1). -/
def roleCn (role : Nat) : Bytes := ascii (if role = 0 then "Yunaelo YN8 Firmware" else "Yunaelo YN8 Pattern Pack")

/-- A signature r and s as R338 stores it. -/
def sigBytes (p : Nat × Nat) : Bytes := natBe 32 p.1 ++ natBe 32 p.2

/-- The product CA's certificate chains to a root whose key hashes to ROOT_HASH. -/
def caGood (hash : Nat) : Bool :=
  let root := Config.rootKey hash
  beNat (sm3 (keyInfo root)) == hash
    && sm2Verify root (rootBody hash) (sigBytes (Config.issued 0 (rootBody hash)))
    && sm2Verify root (caBody hash) (sigBytes (Config.issued 0 (caBody hash)))

/-- The public key of a signer's certificate, where its chain ends in the root and its CN is the role's. -/
def signerKey (role hash : Nat) (cert : Bytes) : Option (Nat × Nat) :=
  match readCert cert with
  | none => none
  | some c =>
    if caGood hash && c.issuer = caName && sm2Verify Config.caKey c.body c.sig && c.cn = some (roleCn role)
        && c.known && c.ext 0x13 true = some (derSeq [])
        && (c.ext 0x0F false).any (fun b => ((derFirst b).map (·.val.getD 1 0)).any (·.getLsbD 7))
        && (c.ext 0x25 false).any (fun b => ((derFirst b).map Der.parts).any fun ps => ps.any (·.raw == oidCode)) then
      some c.key
    else none

end Sys2Proof.Machine
end

