-- ==== Sys2Proof/Machine/Sec.lean ====
section
/-! DEFINITION. The security processor's mailbox (chapter 16): identity, measurements, quotes, bundles
and packs. -/

namespace Sys2Proof.Machine

/-! ### Bundles (R348) -/

/-- What a bundle slot holds: slot A without an image holds the bundle of manufacture (assumption 5, DESIGN CHOICE). -/
def State.bundle (s : State) (slot : Nat) : Bytes :=
  if slot = 0 then (if s.sec.slotA.isEmpty then Config.firstBundle else s.sec.slotA) else s.sec.slotB

/-- The booted bundle, its version and its SVN; no bundle boots in BOOT_FAILED (R343). -/
def State.booted (s : State) : Bytes := s.bundle s.sec.bootSlot
def State.fwVersion (s : State) : Nat := if s.pwr.st = 6 then 0 else fld s.booted 8 4
def bundleSvn (b : Bytes) : Nat := fld b 6 1 % 64
def State.fwSvn (s : State) : Nat := if s.pwr.st = 6 then 0 else bundleSvn s.booted

/-- Directory entry of a bundle, and the entry of a KIND. -/
def bundleEntry (b : Bytes) (i : Nat) : Bytes := (b.drop (64 + 48 * i)).take 48
def bundleKind (b : Bytes) (k : Nat) : Bytes :=
  (((List.range 6).map (bundleEntry b)).find? fun e => fld e 0 1 == k).getD []

/-- Digest of the component of a KIND. -/
def componentDigest (b : Bytes) (k : Nat) : Bytes := (bundleKind b k).drop 16

/-- The firmware signer's certificate of a bundle. -/
def bundleCert (b : Bytes) : Bytes := (b.drop (64 + 48 * 6)).take (fld b 44 4)

/-- Where an entry's component begins and ends. -/
def entryFrom (e : Bytes) : Nat := fld e 8 8
def entryTo (e : Bytes) : Nat := fld e 8 8 + fld e 4 4

/-- A component of a bundle. -/
def bundleData (b : Bytes) (k : Nat) : Bytes :=
  (b.drop (entryFrom (bundleKind b k))).take (fld (bundleKind b k) 4 4)

/-- The header and directory are those of a bundle, and its components lie apart, between the certificate and SIG. -/
def bundleForm (b : Bytes) : Bool :=
  let es := (List.range 6).map (bundleEntry b)
  decide (64 + 48 * 6 + fld b 44 4 + 64 ≤ b.length) && fld b 0 4 == 0x57464E59 && fld b 4 2 == 1
    && decide (fld b 6 1 < 64) && fld b 7 1 == 6 && zeroAt b 48 16
    && (List.range 6).all (fun k => es.any fun e => fld e 0 1 == k + 1)
    && es.all (fun e => decide (64 + 48 * 6 + fld b 44 4 ≤ entryFrom e) && decide (entryTo e + 64 ≤ b.length))
    && (List.range 6).all fun i => (List.range i).all fun j =>
      let e := bundleEntry b i
      let f := bundleEntry b j
      decide (entryTo e ≤ entryFrom f) || decide (entryTo f ≤ entryFrom e)

/-- SIG of an image over every byte before it. -/
def sigOk (key : Nat × Nat) (b : Bytes) : Bool := sm2Verify key (b.take (b.length - 64)) (b.drop (b.length - 64))

/-- Format, chain, CN, SIG and every component digest (R349). -/
def State.bundleGood (s : State) (b : Bytes) : Bool :=
  bundleForm b && (match signerKey 0 s.fuse.rootHash (bundleCert b) with
    | some k => sigOk k b
    | none => false)
  && (List.range 6).all fun k =>
    sm3 (bundleData b (k + 1)) == componentDigest b (k + 1)

/-! ### The mailbox (R340, R341) -/

/-- MBX_LEN, and bytes of MBX_IN. -/
def State.mbxLen (s : State) : Nat := Nat.min 4096 (s.regF 0xB0008 12 0)
def State.mbxIn (s : State) (n : Nat) : Bytes :=
  ((List.range (cdiv n 4)).map fun i => natLe 4 (s.regW (0xB1000 + 4 * i)).toNat).flatten.take n

/-- Statuses of Table 16.4. -/
def mbOk : Nat := 0
def mbBadCmd : Nat := 1
def mbBadLen : Nat := 2
def mbBadImage : Nat := 3
def mbRollback : Nat := 4
def mbLocked : Nat := 5
def mbXfer : Nat := 6
def mbRegress : Nat := 7

/-- A command completes: MBX_STATUS and MBX_OUT are set, and BUSY clears. -/
def State.mbxEnd (s : State) (status : Nat) (out : Bytes) : State :=
  { s with sec := { s.sec with busy := false, code := 0, result := none, img := [], status := status, out := out } }

/-- A long command begins; its outcome stands, and takes effect when it is done. -/
def State.mbxLong (s : State) (code status : Nat) (out img : Bytes) : State :=
  { s with sec := { s.sec with busy := true, code := code, result := some (status, out), img := img } }

/-- A write of MBX_CMD: refused while BUSY; an input of the wrong length ends the command. Assumption 97, DEDUCED. -/
def State.mailbox (s : State) (len : Nat) (go : State → State) : State :=
  if s.sec.busy then { s with sec := { s.sec with collide := true } }
  else if s.mbxLen != len then s.mbxEnd mbBadLen []
  else go s

/-- BOOT_SLOT, PENDING and FALLBACK. -/
def Sec.bootBits (v : Sec) : Nat := v.bootSlot + 2 * b2n v.isPending + 4 * b2n v.fallback

/-- UPDATE_EN. -/
def State.updateEn (s : State) : Bool := s.regF 0xB0010 1 1 == 1

/-- GET_INFO (Table 16.3). -/
def execGetInfo (s : State) : Host.Outcome State Fault Refusal :=
  .next (s.mailbox 0 fun s =>
    s.mbxEnd mbOk (natLe 16 s.fuse.serial ++ fit 8 s.fuse.order ++ natLe 9 s.fuse.tileMask ++ zeros 3
      ++ natLe 4 s.fwVersion ++ natLe 1 s.fwSvn ++ natLe 1 s.fuse.svn ++ natLe 1 s.sec.bootBits ++ zeros 1
      ++ natLe 4 s.rel.packId ++ natLe 4 s.rel.boots ++ zeros 12))

/-! ### Pattern packs (R351): fields in the stated order, with nothing between them (assumption 99, DESIGN CHOICE) -/

def packId (b : Bytes) : Nat := fld b 6 4
def packFw (b : Bytes) : Nat := fld b 10 4
def packCount (b : Bytes) : Nat := fld b 14 2
/-- The pack signer's certificate, whose own encoding gives its length. -/
def packCert (b : Bytes) : Bytes := ((derFirst (b.drop 16)).map (·.raw)).getD []

/-- MAGIC, FORMAT, PACK_ID and count, and room for SIG. -/
def packForm (b : Bytes) : Bool :=
  fld b 0 4 == 0x4B504E59 && fld b 4 2 == 1 && packId b != 0 && decide (64 ≤ packCount b) && decide (packCount b ≤ 4096)
    && decide (16 + (packCert b).length + 64 ≤ b.length)

/-- The active pack: the one installed, or the booted bundle's. -/
def State.activePack (s : State) : Bytes := if s.sec.pack.isEmpty then bundleData s.booted 6 else s.sec.pack

/-- The certificate a GET_CERT names (Table 16.3). -/
def State.certificate (s : State) (i : Nat) : Bytes :=
  let h := s.fuse.rootHash
  let mark := markBody s.fuse.serial s.fuse.order (sm2Public s.sec.deviceKey)
  if i = 0 then certOf (rootBody h) (Config.issued 0 (rootBody h))
  else if i = 1 then certOf (caBody h) (Config.issued 0 (caBody h))
  else if i = 2 then certOf mark (Config.issued 1 mark)
  else if i = 3 then bundleCert s.booted
  else packCert s.activePack

/-- GET_CERT (R339). -/
def execGetCert (s : State) : Host.Outcome State Fault Refusal :=
  .next (s.mailbox 1 fun s =>
    let i := fld (s.mbxIn 1) 0 1
    if 4 < i then s.mbxEnd mbBadCmd [] else s.mbxEnd mbOk ((s.certificate i).take 4096))

/-- GET_LOG (R342). -/
def execGetLog (s : State) : Host.Outcome State Fault Refusal :=
  .next (s.mailbox 4 fun s =>
    let n := fld (s.mbxIn 4) 0 4
    if 4096 ≤ n then s.mbxEnd mbBadCmd [] else s.mbxEnd mbOk ((s.sec.log.drop n).take 85).flatten)

/-- FLAGS of a quote. -/
def State.quoteFlags (s : State) : Nat :=
  b2n s.sec.logTrunc + 2 * b2n s.sec.testSeen + 4 * b2n (s.ream.resident && s.ream.sealed)
    + 8 * s.regF 0xB0010 0 0 + 16 * b2n s.updateEn

/-- A quote but for its signature (Table 16.6). -/
def State.quoteBody (s : State) (input : Bytes) : Bytes :=
  natLe 4 0x54514E59 ++ natLe 2 1 ++ natLe 2 s.quoteFlags ++ natLe 16 s.fuse.serial ++ fit 8 s.fuse.order
    ++ natLe 9 s.fuse.tileMask ++ zeros 7 ++ natLe 4 s.fwVersion ++ natLe 1 s.fwSvn ++ natLe 1 s.fuse.svn
    ++ natLe 2 (if s.ream.resident then s.ream.act.num else 0xFFFF) ++ natLe 4 s.rel.packId ++ natLe 4 s.rel.boots
    ++ ((List.range 8).map s.mr).flatten ++ fit 64 input ++ natLe 4 s.sec.log.length ++ zeros 60

/-- QUOTE (R344): everything is read at one instant. The numbers the signature draws are free values; a second or later
one serves only where the one before it cannot (R338). -/
def execQuote (s : State) : Host.Outcome State Fault Refusal :=
  .next (s.mailbox 64 fun s =>
    let b := s.quoteBody (s.mbxIn 64)
    let (ks, s) := s.freeVals 4
    s.mbxLong 0x04 mbOk (b ++ sm2Sign s.sec.deviceKey ks b) [])

/-- Length operand of FW_STAGE and PACK_INSTALL, and a read of that many bytes that failed. -/
def State.imgLen (s : State) : Nat := fld (s.mbxIn 12) 8 4
def State.imgLost (s : State) (img : Rd) : Bool :=
  !s.hp.cxlOk || !img.poison.isEmpty || img.data.length != s.imgLen

/-- The checks of FW_STAGE, in order (R349). -/
def State.stageWhy (s : State) (b : Bytes) : Nat :=
  if !s.bundleGood b then mbBadImage
  else if bundleSvn b < s.fuse.svn then mbRollback
  else if s.featDev &&& fld b 12 32 != s.featDev then mbRegress
  else if !s.updateEn then mbLocked
  else mbOk

/-- FW_STAGE. -/
def execFwStage (img : Rd) (s : State) : Host.Outcome State Fault Refusal :=
  .next (s.mailbox 12 fun s =>
    if 2 ^ 25 < s.imgLen then s.mbxEnd mbBadCmd []
    else if s.imgLost img then s.mbxLong 0x10 mbXfer [] []
    else s.mbxLong 0x10 (s.stageWhy img.data) [] img.data)

/-- FW_COMMIT (R350). -/
def execFwCommit (s : State) : Host.Outcome State Fault Refusal :=
  .next (s.mailbox 0 fun s =>
    if !s.updateEn then s.mbxEnd mbLocked []
    else if s.fwSvn ≤ s.fuse.svn then s.mbxEnd mbOk []
    else s.mbxLong 0x11 mbOk [] [])

/-- FW_ABANDON (R349). -/
def execFwAbandon (s : State) : Host.Outcome State Fault Refusal :=
  .next (s.mailbox 0 fun s => ({ s with sec := { s.sec with isPending := false } }).mbxEnd mbOk [])

/-- The checks of PACK_INSTALL, in order (R351). Assumption 99, DESIGN CHOICE. -/
def State.packWhy (s : State) (b : Bytes) : Nat :=
  let signed : Bool := match signerKey 1 s.fuse.rootHash (packCert b) with
    | some k => sigOk k b
    | none => false
  if !packForm b || !signed || s.fwVersion < packFw b then mbBadImage
  else if packId b ≤ s.rel.packId then mbRollback
  else if !s.updateEn then mbLocked
  else mbOk

/-- PACK_INSTALL. -/
def execPackInstall (img : Rd) (s : State) : Host.Outcome State Fault Refusal :=
  .next (s.mailbox 12 fun s =>
    if 2 ^ 23 < s.imgLen then s.mbxEnd mbBadCmd []
    else if s.imgLost img then s.mbxLong 0x20 mbXfer [] []
    else s.mbxLong 0x20 (s.packWhy img.data) [] img.data)

/-- The image enters the slot that is not booted, and is pending. -/
def State.stageDone (s : State) : State :=
  { s with sec := if s.sec.bootSlot = 0 then { s.sec with slotB := s.sec.img, isPending := true }
                  else { s.sec with slotA := s.sec.img, isPending := true } }

/-- The pack is the active one; a tile whose round has begun ends it on the pack it began with (R316, R351). -/
def State.packDone (s : State) : State :=
  let b := s.sec.img
  let old := (s.rel.packId, s.rel.packLen)
  let of := (List.range 72).foldl (fun m t =>
    if (FMap.find m t).isSome || !(s.tile t).round then m else FMap.set m t old) s.rel.packOf
  let s := { s with
    rel := { s.rel with packId := packId b, packLen := packCount b, packOf := of
                        passed := s.rel.passed.filter fun e => (FMap.find of (e.1 / 4096)).isSome }
    sec := { s.sec with pack := b } }
  s.extend 5 evPack (natLe 4 (packId b)) (sm3 b)

/-- Blow so many more of the 63 positions of the rollback floor's fuse field (R350). -/
def State.blow (s : State) (n : Nat) : State :=
  { s with fuse := { s.fuse with svn := s.fuse.svn + Nat.min n (63 - s.fuse.svn) } }

/-- What a long command has done by its end. -/
def State.longDone (s : State) : State :=
  if s.sec.code = 0x10 then s.stageDone
  else if s.sec.code = 0x11 then s.blow (s.fwSvn - s.fuse.svn)
  else if s.sec.code = 0x20 then s.packDone
  else s

/-- MAILBOX_COMMAND_DONE (R341). -/
def execMailboxCommandDone (s : State) : Host.Outcome State Fault Refusal :=
  .next (match s.sec.result with
    | none => s
    | some (st, out) => (if st = mbOk then s.longDone else s).mbxEnd st out)

/-! ### Boot (R342, R343) -/

/-- A slot's bundle verifies: that of manufacture does (assumption 5, DESIGN CHOICE), another by its checks; and its SVN is not
below the floor (R350). -/
def State.slotBoots (s : State) (slot : Nat) : Bool :=
  (slot == 0 && s.sec.slotA.isEmpty || s.bundleGood (s.bundle slot))
    && decide (s.fuse.svn ≤ bundleSvn (s.bundle slot))

/-- The measurements of Table 16.5, from zeroed registers; the steppings are C_STEP and P_STEP (Table 18.3). -/
def State.measureBoot (s : State) : State :=
  let b := s.booted
  let s := { s with sec := { s.sec with mrs := [], log := [], logTrunc := false } }
  let s := s.extend 0 evFuses (natLe 12 Config.romVersion)
    (sm3 (fit 8 s.fuse.order ++ natLe 9 s.fuse.tileMask ++ natLe 1 0xB0 ++ natLe 1 0xB0 ++ natLe 4 Config.romVersion))
  let s := s.extend 1 evBundle (natLe 4 (fld b 8 4) ++ natLe 1 (bundleSvn b)) (sm3 (b.take (64 + 48 * 6)))
  let s := s.each [(1, 1), (2, 2), (3, 3), (4, 4), (5, 4)] fun s (k, r) =>
    s.extend r evComponent (natLe 1 k) (componentDigest b k)
  let pack := if s.sec.pack.isEmpty then componentDigest b 6 else sm3 s.sec.pack
  s.extend 5 evPack (natLe 4 s.rel.packId) pack

/-- Boot from a slot, or from the other one; with neither, BOOT_FAILED. -/
def State.bootFrom (s : State) (slot : Nat) : State :=
  let go (s : State) (slot : Nat) : State :=
    ({ s with sec := { s.sec with bootSlot := slot, isPending := false } }).measureBoot
  if s.slotBoots slot then go s slot
  else
    let s := { s with sec := { s.sec with isPending := false, fallback := true } }
    if s.slotBoots (1 - slot) then go s (1 - slot)
    else { s with sec := { s.sec with bootSlot := 0, mrs := [], log := [] }, pwr := { s.pwr with st := 6 } }

end Sys2Proof.Machine
end

