-- ==== Sys2Proof/Machine/Reset.lean ====
section
/-! DEFINITION. Resets and watchdogs (chapter 15, R331 to R335; R236; R60; R343): the cold reset, the
device reset that preserves state, the partition reset. -/

namespace Sys2Proof.Machine

/-! ### Cold reset (R332, Table 15.8) -/

/-- Tier-1 packages marked lost are tested again; what the test finds is a free value (R183). -/
def State.retestT1 (s : State) (lost : List (Nat × Nat)) : State :=
  s.each lost fun s (g, p) =>
    let (v, s) := s.freeVal
    if v % 2 = 0 then s.loseT1 g p else s

/-- Lost packages, by group. -/
def State.lostT1 (s : State) : List (Nat × Nat) :=
  ((List.range 4).map fun g => (s.t1g g).lost.map fun p => (g, p)).flatten

/-- The vault as its durable contents leave it: this module's LSNs go on after its last durable record (R318). -/
def Vault.remount (v : Vault) : Vault :=
  let log := v.log.filter (·.durable)
  { log := log, next := v.next
    lsn := ((log.filter fun r => r.source == 0).getLast?.map fun r => r.lsn + 1).getD (if v.log.isEmpty then v.lsn else 0)
    erased := v.erased, cycles := v.cycles
    retired := v.retired, st := v.st }

/-- What outlives the loss of every rail but standby's: the vault, the fuses, the store (Table 15.8). -/
def State.kept (s : State) : State :=
  let r := State.reset
  { r with
    pending := s.pending, free := s.free, fuse := s.fuse, bus := s.bus, mgmt := s.mgmt
    rel := { r.rel with boots := s.rel.boots, packId := s.rel.packId, packLen := s.rel.packLen
                        vault := s.rel.vault.remount }
    sec := { r.sec with vaultKey := s.sec.vaultKey, deviceKey := s.sec.deviceKey, bootSlot := s.sec.bootSlot, slotA := s.sec.slotA, slotB := s.sec.slotB
                        pack := s.sec.pack, isPending := s.sec.isPending, fallback := s.sec.fallback } }

/-- The fused SVN after a reset: a FW_COMMIT that it broke off has blown some of its positions, how many being a
free value (R350). Assumption 98, DESIGN CHOICE. -/
def State.breakCommit (s : State) : State :=
  if s.sec.code = 0x11 then
    let (v, t) := s.freeVal
    t.blow (v % (t.fwSvn - t.fuse.svn + 1))
  else s

/-- Every rail but standby's goes: what is volatile is lost, the sensors' readings stay (assumption 66, DEDUCED).
The stored setup words stay: LOCK and RWL fields clear at the cold reset that follows (R7), and the power and
management controller that holds its own runs on (Table 17.4). -/
def State.railsOff (s : State) : State :=
  let k := s.kept
  let therm := FMap.mapV s.tiers.therm fun _ t => { t with st := 0 }
  { k with
    regs := s.regs
    net := { k.net with noCable := s.net.noCable }
    pwr := { s.pwr with emerg := [], tclk := [], held := [], fell := [], awake := [], ramped := [], queue := [], asked := []
                        gated := [], attach := [], exceeded := 0
                        under := 0, hot := [], low := 0, brown := 0, high := 0, amps := 0, inletHot := 0
                        outletHot := 0, flowLow := 0, flowTrip := 0, bank := { s.pwr.bank with test := false } }
    tiers := { k.tiers with therm := therm, t1 := s.tiers.t1 } }.pldmIf 21 s.emergCause 0

/-- A cold reset, booting from a slot: BOOTING, or BOOT_FAILED where no bundle verifies (Tables 15.10 and 17.4). A new key of
tier-1 is drawn (R180), and the tile groups ask the wake governor to wake them. BOOTING ends in a tick (assumption 70,
DESIGN CHOICE). What the state sensors show changes with it (R362, R369). -/
def State.coldFrom (s : State) (slot : Nat) : State :=
  let k := s.breakCommit.kept
  let t := { k with
    rel := { k.rel with boots := (k.rel.boots + 1) % 2 ^ 32 }
    net := { k.net with noCable := s.net.noCable }
    sec := { k.sec with fallback := false }
    pwr := { k.pwr with st := 2, flushCause := s.pwr.flushCause, addrSel := s.pwr.addrSel, modLow := s.pwr.modLow
                        perst := s.pwr.perst, bank := { k.pwr.bank with volts := s.pwr.bank.volts } } }
  let (key, t) := t.freeVal
  let t := ({ t with tiers := { t.tiers with t1Key := key } }.pldmIf 20 s.pwr.st 2).pldmIf 21 s.emergCause 0
  let t := if s.pwr.bank.st = 0 then t else (t.pldm 23 0).raise (coreSource 24)
  let t := t.bootFrom slot
  let t := (t.pldmIf 20 2 t.pwr.st).pldmIf 22 s.bootSense t.bootSense
  (if t.pwr.st = 2 then t.askWake t.groups else t).retestT1 s.lostT1

/-- The slot a cold reset boots from: the other one where a staged bundle is pending (R349). -/
def State.coldBoot (s : State) : State :=
  s.coldFrom (if s.sec.isPending then 1 - s.sec.bootSlot else s.sec.bootSlot)

/-- COLD_RESET (Table 15.13): 0xC01D_B007, where the setup space is powered. -/
def execColdReset (value : Word) (s : State) : Host.Outcome State Fault Refusal :=
  .next (if value = 0xC01DB007#32 && s.powered then s.coldBoot else s)

/-- BOOT_FALLBACK (R343, R350), in BOOTING: the booted bundle's control-core firmware has not reported ready; the other slot
boots, or the module is in BOOT_FAILED, with every domain but the security processor's, the controller's and standby's in
reset. -/
def execBootFallback (s : State) : Host.Outcome State Fault Refusal :=
  .next (if s.pwr.st != 2 then s
    else
      let o := 1 - s.sec.bootSlot
      let old := s.bootSense
      let s := { s with sec := { s.sec with isPending := false, fallback := true } }
      let s := if s.slotBoots o then ({ s with sec := { s.sec with bootSlot := o } }).measureBoot
        else
          let t := s.railsOff
          State.setPst { t with sec := { t.sec with bootSlot := 0 } } 6
      s.pldmIf 22 old s.bootSense)

/-! ### The device reset that preserves state (R335, Tables 15.11 and 15.12) -/

/-- Posts of Table 15.11, in command order: those with go finish their writes, and each completes with
ABORTED. A parked post stays parked. -/
def State.resetPosts (s : State) : State :=
  let ks := s.posts.map (·.1)
  s.each ks fun s k =>
    let s := s.makeWrites k
    match s.post? k with
    | none => s
    | some v =>
      if v.phase != 3 then s.endUnadmitted k stAborted
      else
        let s := (s.modPost k fun v => { v with commit := if v.commit = 1 then 3 else v.commit }).completePost k stAborted
        s

/-- POST commands accepted that are no posts yet, and not parked. -/
def State.resetAccepted (s : State) : State :=
  let ks := (s.fe.cmds.filter fun e => e.2.op == 0x01 && match e.2.phase with
    | .accepted => true
    | .walking => true
    | .held => true
    | _ => false).map (·.1)
  s.each ks fun s k => s.finish k stAborted (postResult 0 none)

/-- The ream command in progress: a load or patch ends, an unload goes on (R60). -/
def State.resetJob (s : State) : State :=
  match s.ream.job with
  | none => s
  | some j =>
    if j.kind = 0 then (s.finish j.cmd stAborted).jobDone
    else if j.kind = 1 then (s.finish j.cmd stReamBusy).jobDone
    else s

/-- TABLE_COMMIT, CHECKPOINT and RESTORE end; RESTORING stays set. -/
def State.resetDurable (s : State) : State :=
  let s := match s.rel.commit with
    | none => s
    | some m => ({ s with rel := { s.rel with commit := none } }).finish m.cmd stAborted
  match s.rel.restore with
  | none => s
  | some (k, _, _) => ({ s with rel := { s.rel with restore := none } }).finish k stAborted

/-- INGEST commands end, their destinations zeroed (R203). -/
def State.stopIngests (s : State) (pick : Cmd → Bool) (st : Nat) : State :=
  s.each (s.ingests.map fun e => (e.1, e.2.len)) fun s (k, n) => match s.cmd? k with
    | none => s
    | some c => if pick c then (if c.iSealed then s.zeroDst c n else s).ingestEnd k st 0 else s

/-- A ring's part: reads in flight are abandoned; a doorbell line that was to be re-read, or an arming
write that was dropped, is armed for again. -/
def State.resetRing (s : State) (n : Nat) : State :=
  let r := s.ring n
  let again := r.live && (r.armPending || r.dbReread)
  let s := (s.dropDesc n).setRing n { r with reading := 0, rereads := 0, rereadWait := false, armPending := false, dbReread := false }
  if again && !s.rel.stuck then s.arm n else s

/-- A tile after the RECOVERY work: contexts, flags, units and work areas are empty. A block that is STUCK stays at that
row of Table 15.12, its tiles in RECOVERY. -/
def Tile.restart (x : Tile) (resident stuck : Bool) : Tile :=
  { st := if stuck then 3 else if (x.st = 1 || x.st = 3) && resident then 1
      else if x.st = 2 || x.st = 4 then x.st else 0
    streamKey := x.streamKey, pattern := x.pattern, sliceAt := x.sliceAt, round := x.round, badLines := x.badLines }

/-- The ream's lines on every tile: poisoned ones, and under MALFORMED every PROGRAM line, are rewritten
from the tier-1 copy (R312). -/
def State.resetLines (s : State) (malformed : Bool) : State :=
  if !s.ream.resident then s
  else s.each s.tileList fun s t =>
    let s := s.reloadTile t malformed
    s.modTile t fun x => { x with badLines := x.badLines.filter fun l => s.spBad t l }

/-- The fourth device reset within 10 s stops the block (R335). -/
def State.noteReset (s : State) (cause : Nat) : State :=
  let times := (s.rel.times.filter fun x => s.now < x + 10 ^ 10) ++ [s.now]
  let s := { s with rel := { s.rel with
    cause := cause, seq := (s.rel.seq + 1) % 2 ^ 16, times := times, stuck := decide (4 ≤ times.length) } }
  let s := s.count 0x0BA 0 1
  if cause = 1 then s else (s.count 0x064 0 1).causeAll cHang

/-- Domains whose reset a device reset asserts: the tile groups, the felt, both sides of the die-to-die link, the
beater (Table 15.12). R335 lists neither as reset nor as running on: the tier-0 channel groups, the control cores, the
ingest crypto, the shingler and debug, which count on here (assumption 143, DESIGN CHOICE). -/
def resetDomains : List Nat := List.range 9 ++ [18, 19, 20, 32]

/-- Reset is asserted and released in those domains: their counters start again (R21), with what was measured by
them, and the felt runs its base slot table (R13). -/
def State.resetClocks (s : State) : State :=
  { s with
    clk := resetDomains.foldl FMap.del s.clk
    tiles := FMap.mapV s.tiles fun _ x => { x with sliceAt := 0 }
    ream := { s.ream with ownTable := false, sweepAt := 0 }
    rel := { s.rel with d2dLast := [], d2dDue := false } }

/-- Serving resumes at a sweep boundary, every rota at entry 0; STUCK leaves admission closed.
Assumption 27, DEDUCED. -/
def State.resume (s : State) : State :=
  let closing : Bool := match s.ream.job with
    | some j => j.kind == 2 && j.closed
    | none => false
  let s := { s with ream := { s.ream with
    interval := 0, slotDone := false, lastPooled := 15, queue := [], sweepAt := s.feltNow
    ownTable := s.ream.resident && !s.rel.stuck
    admission := s.ream.resident && !s.rel.restoring && !closing && !s.rel.stuck } }
  if s.ream.resident && !s.rel.stuck then s.boundary.degradedNext else s

/-- Local writes that are not accepted are dropped and not reissued; messages of queue pairs are
retransmitted (R293). -/
def State.resetWrites (s : State) : State :=
  let gone := s.io.out.filter fun x => x.isLocal && !x.accepted && x.kind == 0
  (s.count 0x082 0 (gone.map Xfer.linesLeft).sum).dropXfers fun x => x.isLocal && x.kind == 0

/-- The work of a device reset from t0 to the end of the RECOVERY row, and the records of Table 15.11. -/
def State.resetWork (s : State) (malformed : Bool) : State :=
  let s := s.resetWrites.resetPosts.resetAccepted.resetJob.resetDurable
  let s := (s.stopIngests (fun _ => true) stAborted).abandonMoves
  let s := { s with
    tiles := FMap.mapV s.tiles fun _ x => x.restart s.ream.resident s.rel.stuck
    felt := []
    gat := { s.gat with works := [], uworks := [], cold := [], ucold := [] }
    tiers := { s.tiers with cache := [], net := [] }
    ream := { s.ream with escMsgs := [], escSums := [] } }
  let s := (s.resetLines malformed).freeOldVersion
  s.each ((s.fe.rings.filter fun e => e.2.st != 0).map (·.1)) State.resetRing

/-- The device reset that preserves state, of a cause of Table 15.13. The whole sequence is one step
(assumption 71, DESIGN CHOICE). A block that is STUCK leaves only by a cold reset. -/
def State.deviceReset (s : State) (cause : Nat) : State :=
  if s.rel.stuck || s.pwr.st != 3 then s
  else (((s.noteReset cause).resetWork (cause == 6)).resetClocks.resume).resendAll

/-- DEV_RESET: 0x5AFE_0001. -/
def execDevReset (value : Word) (s : State) : Host.Outcome State Fault Refusal :=
  .next (if value = 0x5AFE0001#32 then s.deviceReset 1 else s)

/-! ### Watchdogs (R333, Table 15.9) -/

/-- A watchdog whose condition holds fires, while a ream is resident. -/
def State.watchdog (s : State) (code : Nat) (fires : Bool) : State :=
  if s.ream.resident && fires then s.deviceReset code else s

/-- WATCHDOG_TIMEOUT_END (R236): 1 ms after a ring timeout a context of the post remains. -/
def execWatchdogTimeoutEnd (post : Nat) (s : State) : Host.Outcome State Fault Refusal :=
  let fires : Bool := match (s.post? post).bind (·.endedAt) with
    | some t => decide (t + 10 ^ 6 ≤ s.now) && s.inTiles post
    | none => false
  .next (s.watchdog 2 fires)

/-- Intervals since a post's residency in stage i ended. -/
def State.sinceStage (s : State) (v : Post) (i : Nat) : Option Nat :=
  if i < v.stage then
    some (((List.range (v.stage + 1)).filter (i < ·)).foldl (fun n j => n + stResidency (s.stageRec j)) 0 - v.left + v.past)
  else if i = v.stage && v.left = 0 then some v.past
  else none

/-- Two intervals have passed since. -/
def State.longPast (s : State) (v : Post) (i : Nat) : Bool :=
  match s.sinceStage v i with
  | some n => decide (2 ≤ n)
  | none => false

/-- WATCHDOG_CONTEXT. -/
def execWatchdogContext (tile ctx : Nat) (s : State) : Host.Outcome State Fault Refusal :=
  let fires : Bool := match ((s.ctx? tile ctx).bind (·.post)).bind s.post?, s.stageOf tile with
    | some v, some i => s.longPast v i
    | _, _ => false
  .next (s.watchdog 3 fires)

/-- WATCHDOG_GATHER. -/
def execWatchdogGather (tile post : Nat) (s : State) : Host.Outcome State Fault Refusal :=
  let fires : Bool := match s.post? post with
    | none => false
    | some v =>
      (s.gat.works.any fun g => g.tile == tile && g.post == post && s.longPast v (tGatherStage (s.tab (s.parentTable g.table))))
        || s.gat.uworks.any fun g => g.tile == tile && g.post == post && s.longPast v (tUpdStage (s.tab g.table))
  .next (s.watchdog 4 fires)

/-- WATCHDOG_ADMIT. -/
def execWatchdogAdmit (s : State) : Host.Outcome State Fault Refusal :=
  let lim := (if s.ream.half then 8 else 4) * hSweep s.ream.hdr
  .next (s.watchdog 5 (decide (s.ream.sweepAt + lim ≤ s.feltNow)))

/-- WATCHDOG_MALFORMED: the context's next instruction lies in a poisoned line, or does not decode. -/
def execWatchdogMalformed (tile ctx : Nat) (s : State) : Host.Outcome State Fault Refusal :=
  let fires : Bool := match s.ctx? tile ctx with
    | none => false
    | some v => s.issues tile && v.running && !v.failed && (!s.wordReadable tile v || wordBad (s.nextWord tile v))
  .next (s.watchdog 6 fires)

/-- A command in one of the steps that R380 limits: its checks, its walks, or the staging of its input. -/
def State.hostStep (s : State) (k : Nat) (c : Cmd) : Bool :=
  c.phase == .accepted || c.phase == .walking || (c.phase == .post && (s.post? k).any (·.phase == 1))

/-- WATCHDOG_FRONT_END: fetched work has made no progress for 10 ms, with the port in L0 (R380). -/
def execWatchdogFrontEnd (s : State) : Host.Outcome State Fault Refusal :=
  let still := s.fe.cmds.any fun e => s.hostStep e.1 e.2 && decide (e.2.progress + 10 ^ 7 ≤ s.now)
  .next (s.watchdog 7 (s.hp.link == 2 && still))

/-- WATCHDOG_CORE: the heartbeat of a control core is missing. -/
def execWatchdogCore (core : Nat) (s : State) : Host.Outcome State Fault Refusal :=
  .next (s.watchdog 8 (decide (core < 8)))

/-- D2D_RETRAIN (R16): the replays have exceeded the reserve; the retrain is counted, and a device reset.
Assumption 105, DEDUCED. -/
def execD2dRetrain (s : State) : Host.Outcome State Fault Refusal :=
  .next (if !s.rel.d2dDue then s
    else ({ s with rel := { s.rel with d2dDue := false, d2dLast := [] } }.count 0x002 0 1).deviceReset 9)

/-! ### Partition reset (R334) -/

/-- Steps 1 to 4. -/
def State.partReset (s : State) (p : Nat) : State :=
  let st := (s.part p).st
  if st = 0 || st = 2 || (s.part p).resetBusy then s
  else
    let s := s.modPart p fun q => { q with resetBusy := true }
    let s := s.each (s.ringsOf p) fun s n => s.disableRing n
    let s := s.endIdle (s.idleCmds p) stAborted
    let ks := (s.posts.filter fun e => e.2.part == p && e.2.phase == 3).map (·.1)
    let s := s.each ks fun s k => ((s.modPost k fun v => { v with fail := stAborted }).failPost k stAborted).settle k
    s.stopIngests (fun c => c.part == p) stAborted

/-- PART_RESET: bit p resets partition Pp. -/
def execPartReset (value : Word) (s : State) : Host.Outcome State Fault Refusal :=
  .next (s.each ((List.range 16).filter value.getLsbD) State.partReset)

/-- PART_RESET_FINISH: steps 6 and 7, once the partition's work is over and its records are written. -/
def execPartResetFinish (part : Nat) (s : State) : Host.Outcome State Fault Refusal :=
  let q := s.part part
  .next (if !q.resetBusy || s.fe.cmds.any (fun e => e.2.part == part)
        || !(s.ringsOf part).all (fun n => q.st == 3 || s.ringDrained n) then s
    else
      let s := s.each (s.ringsOf part) fun s n => s.endRing n
      let s := s.each (s.sourcesOf part) fun s i => s.setSrc i { s.src i with st := 0, count := 0, sentAt := none }
      s.modPart part fun q => { q with cause := 0, causeSent := 0, resetBusy := false })

end Sys2Proof.Machine
end

