-- ==== Sys2Proof/Machine/Pwr.lean ====
section
/-! DEFINITION. Input power, the power-loss flush, trips, sensors, the hold-up bank, coolant (R321, R353 to
R370). -/

namespace Sys2Proof.Machine

/-! ### The flush (R321) -/

/-- Records of the flush in order: dirty rows, a STEP record for the last complete step, STATE with the
ring part, FLUSH_END (Table 15.6). -/
def State.flushRecs (s : State) : State :=
  let s := if s.ream.resident then
      let s := { s.flushRows with posts := [] }
      let s := { s with gat := { s.gat with since := [] } }
      match s.stepDone with
      | some n => s.putRec { kind := 3, body := s.stepBody n }
      | none => s
    else s
  (s.putRec { kind := 9, body := s.stateBody ++ s.ringPart }).putRec { kind := 10 }

/-- The vault with its records so far, whether durable or not. -/
def State.withVault (s : State) (v : Vault) : State := s.setVault { v with base := none, step := none }

/-- POWER_FAIL with a cause, in ON or BOOTING: updates that have go finish, everything else ends without a record, and
the flush's records are appended. -/
def State.powerFail (s : State) (cause : Nat) : State :=
  if !s.powered then s
  else
    let s := (s.each (s.posts.map (·.1)) State.makeWrites).flushRecs
    let v := s.rel.vault
    let s := (s.breakCommit.railsOff.withVault v).setFlush cause
    State.setPst { s with pwr := { s.pwr with flushed := false, trip := s.pwr.trip || cause == 5 } } 4

/-- Input is present. -/
def State.inputOn (s : State) : Bool := decide (3600 ≤ s.pwr.vin)

/-- OFF: nothing is powered; straps and the endpoint ID are lost. -/
def State.goOff (s : State) : State := { s with pwr := { s.pwr with st := 0 }, mgmt := {} }

/-- Where the module goes after a flush, with input present: STANDBY or a cold reset after the reset pin, else
SAFE; without input it waits for the bank to run down. -/
def State.afterFlush (s : State) : State :=
  if !s.inputOn then s
  else if s.pwr.flushCause = 4 then (if s.pwr.modLow then s.setPst 1 else s.coldBoot)
  else s.setPst 5

/-- FLUSH_END_DURABLE (Table 17.5). -/
def execFlushEndDurable (s : State) : Host.Outcome State Fault Refusal :=
  .next (if s.pwr.st != 4 || s.pwr.flushed then s
    else
      let s := s.allDurable
      State.afterFlush { s with pwr := { s.pwr with flushed := true } })

/-- BANK_DISCHARGED: the bank is below 30 V. A flush it was carrying is over, its records that are not
durable lost (R363). -/
def execBankDischarged (s : State) : Host.Outcome State Fault Refusal :=
  .next (if s.pwr.st = 0 || s.powered then s
    else
      let s := if s.pwr.st = 4 && !s.pwr.flushed then s.setVault s.rel.vault.remount else s
      if !s.inputOn then s.goOff
      else if s.pwr.st = 4 then s.setPst 5 else s)

/-! ### Sequencing (R355 to R358) -/

/-- INPUT_APPLIED (Table 17.5). -/
def execInputApplied (s : State) : Host.Outcome State Fault Refusal :=
  .next (if s.pwr.st = 0 then { s with pwr := { s.pwr with trip := false } } else s)

/-- STANDBY_ENTRY: the straps are sampled, and with the reset pin high a cold reset follows (R354). -/
def execStandbyEntry (feed addrSel : Nat) (s : State) : Host.Outcome State Fault Refusal :=
  .next (if s.pwr.st != 0 then s
    else
      let s := State.setPst { s with
        fuse := { s.fuse with feed := feed % 256 }
        pwr := { s.pwr with addrSel := addrSel % 8, perst := true } } 1
      if s.pwr.modLow then s else s.coldBoot)

/-- MOD_RESET_LOW (R358): in BOOTING the module returns to STANDBY at once. -/
def execModResetLow (us : Nat) (s : State) : Host.Outcome State Fault Refusal :=
  let low : State := { s with pwr := { s.pwr with modLow := true } }
  .next (if s.pwr.st = 3 then (if 1000 ≤ us then low.powerFail 4 else s)
    else if s.pwr.st = 2 then low.railsOff.setPst 1
    else if s.pwr.st = 6 then low.setPst 1 else low)

/-- MOD_RESET_RELEASE. -/
def execModResetRelease (s : State) : Host.Outcome State Fault Refusal :=
  let s := { s with pwr := { s.pwr with modLow := false } }
  .next (if s.pwr.st = 1 then s.coldBoot else s)

/-- A hardware trip (R367): no flush. -/
def State.hardTrip (s : State) : State :=
  if !s.powered then s
  else
    let s := s.breakCommit.railsOff.setFlush 6
    State.setPst { s with pwr := { s.pwr with trip := true } } 5

/-- HARDWARE_TRIP. -/
def execHardwareTrip (s : State) : Host.Outcome State Fault Refusal := .next s.hardTrip

/-- Every sensor reads 60 °C or less. -/
def State.allCool (s : State) : Bool :=
  (List.range 9).all (fun g => (FMap.get s.tiers.therm g {}).dies.all fun d => decide (d.2 ≤ 60))
    && (s.pwr.cdie ++ s.pwr.pdie ++ s.pwr.regs).all (fun d => decide (d.2 ≤ 60))
    && decide (s.pwr.inlet ≤ 60) && decide (s.pwr.outlet ≤ 60)

/-- SAFE_INPUT_STABLE: input at 38 V or more for 100 ms; a cold reset follows with the reset pin high, and
after a trip once every sensor is cool (R367). -/
def execSafeInputStable (s : State) : Host.Outcome State Fault Refusal :=
  .next (if s.pwr.st = 5 && !s.pwr.modLow && decide (3800 ≤ s.pwr.vin) && (!s.pwr.trip || s.allCool) then s.coldBoot
    else s)

/-- Samples in a row. -/
def runOf (hit : Bool) (n : Nat) : Nat := if hit then n + 1 else 0

/-- INPUT_POWER_SAMPLE (R355, Table 17.7), every 10 µs. Assumption 100, DEDUCED. Assumption 101, DEDUCED. -/
def execInputPowerSample (vin iin : Nat) (s : State) : Host.Outcome State Fault Refusal :=
  .next (if s.pwr.st = 0 then s
    else
      let s := s.pldmCross 2 s.pwr.iin iin [9001]
      let p := s.pwr
      let s := { s with pwr := { p with
        vin := vin, iin := iin, low := runOf (decide (vin < 3600)) p.low, brown := runOf (decide (vin < 3800)) p.brown
        high := runOf (decide (5200 < vin)) p.high, amps := runOf (decide (9000 < iin)) p.amps } }
      let p := s.pwr
      if p.st = 4 then (if p.flushed then s.afterFlush else s)
      else if 10 ≤ p.amps then s.hardTrip
      else if 5 ≤ p.low then s.powerFail 1
      else if 5 ≤ p.high then s.powerFail 3
      else if 1000 ≤ p.brown then s.powerFail 2
      else s)

/-! ### Sensors (R175, R176, R366, R367) -/

/-- A thermal trip. -/
def State.thermTrip (s : State) : State := s.powerFail 5

/-- STATE of a channel group after a reading (Table 8.6). -/
def thermNext (st : Nat) (dies : FMap Nat) : Nat :=
  let hot (n : Nat) : Bool := dies.any fun d => decide (n ≤ d.2)
  let cool (n : Nat) : Bool := dies.all fun d => decide (d.2 ≤ n)
  if hot 95 then 2
  else if st = 2 && !cool 90 then 2
  else if hot 85 then 1
  else if st != 0 && !cool 82 then 1
  else 0

/-- Some group is THROTTLED. -/
def State.anyThrottled (s : State) : Bool := s.tiers.therm.any fun t => t.2.st == 2

/-- What a DRAM reading does in ON. -/
def State.dramActs (s : State) (g die old : Nat) : State :=
  let t := FMap.get s.tiers.therm g {}
  if t.dies.any fun d => decide (105 ≤ d.2) then s.thermTrip
  else
    let st := thermNext old t.dies
    let s := { s with tiers := { s.tiers with therm := FMap.set s.tiers.therm g { t with st := st } } }
    let s := if old = 0 && st != 0 then s.causeAll cT0Hot else s
    let s := s.causeHolds 2 s.anyThrottled
    let first := (t.dies.filter fun d => decide (95 ≤ d.2)).map (·.1)
    if first.contains die && first.all (fun d => decide (die ≤ d)) && s.pwr.awake.contains g then
      s.lower s.emergFloor g
    else s

/-- DRAM_SENSOR_READING: one of the four dies above a group. -/
def execDramSensorReading (group die temp : Nat) (s : State) : Host.Outcome State Fault Refusal :=
  .next (if s.pwr.st = 0 || 9 ≤ group || 4 ≤ die then s
    else
      let t := FMap.get s.tiers.therm group {}
      let dies : FMap Nat := FMap.set t.dies die temp
      let top : Nat := maxOf (dies.map (·.2))
      let s := s.pldmCross (4 + group) t.temp top [85, 95, 105]
      let t' := { t with temp := top, peak := Nat.max t.peak temp, dies := dies }
      let s : State := { s with tiers := { s.tiers with therm := FMap.set s.tiers.therm group t' } }
      if s.powered then s.dramActs group die t.st else s)

/-- Some C-die or P-die sensor is latched hot; some regulator. -/
def State.dieHot (s : State) : Bool := s.pwr.hot.any fun i => decide (i < 76)
def State.regHot (s : State) : Bool := s.pwr.hot.any fun i => decide (76 ≤ i) && decide (i < 100)

/-- What a C-die reading does in ON: the tile's group is lowered as in R176. -/
def State.cdieActs (s : State) (t temp : Nat) : State :=
  if 125 ≤ temp then s.hardTrip
  else if 115 ≤ temp then s.thermTrip
  else
    let s := s.setHot t (decide (105 ≤ temp)) (decide (temp ≤ 100))
    let s := s.causeHolds 3 s.dieHot
    let first := (s.pwr.cdie.filter fun d => d.1 / 8 == t / 8 && decide (105 ≤ d.2)).map (·.1)
    if first.contains t && first.all (fun d => decide (t ≤ d)) && s.pwr.awake.contains (t / 8) then
      s.lower s.emergFloor (t / 8)
    else s

def State.pdieActs (s : State) (i temp : Nat) : State :=
  if 115 ≤ temp then s.thermTrip
  else
    let s := s.setHot (72 + i) (decide (105 ≤ temp)) (decide (temp ≤ 100))
    s.causeHolds 3 s.dieHot

def State.regActs (s : State) (i temp : Nat) : State :=
  if 140 ≤ temp then s.thermTrip
  else
    let s := s.setHot (76 + i) (decide (125 ≤ temp)) (decide (temp ≤ 115))
    s.causeHolds 5 s.regHot

/-- JUNCTION_SENSOR_READING (Table 17.7): a tile that is fused off has no reading (R375). Table 17.9 gives the regulators no
sensor ID: their events carry a free one (assumption 104, DEDUCED). -/
def execJunctionSensorReading (kind index temp : Nat) (s : State) : Host.Outcome State Fault Refusal :=
  .next (if s.pwr.st = 0 then s
    else if kind = 0 && s.enabled index then
      let old := s.hotCdie
      let s := { s with pwr := { s.pwr with cdie := FMap.set s.pwr.cdie index temp } }
      let s := s.pldmCross 13 old s.hotCdie [105, 115, 125]
      if s.powered then s.cdieActs index temp else s
    else if kind = 1 && index < 4 then
      let old := s.hotPdie
      let s := { s with pwr := { s.pwr with pdie := FMap.set s.pwr.pdie index temp } }
      let s := s.pldmCross 14 old s.hotPdie [105, 115]
      if s.powered then s.pdieActs index temp else s
    else if kind = 2 && index < 12 then
      let s := s.pldmCross Config.regSensor (FMap.get s.pwr.regs index 0) temp [125, 140]
      let s := { s with pwr := { s.pwr with regs := FMap.set s.pwr.regs index temp } }
      if s.powered then s.regActs index temp else s
    else s)

/-- COOLANT holds while a latched sensor does. -/
def State.coolantHot (s : State) : Bool := s.pwr.hot.any fun i => decide (100 ≤ i)

/-- COOLANT_SENSOR_READING, every 10 ms (Table 17.7): a second is 100 readings in a row. -/
def execCoolantSensorReading (inlet outlet flow : Nat) (s : State) : Host.Outcome State Fault Refusal :=
  .next (if s.pwr.st = 0 then s
    else
      let s := ((s.pldmCross 15 s.pwr.inlet inlet [46]).pldmCross 16 s.pwr.outlet outlet [65]).pldmCross 17 s.pwr.flow
        flow [20, 10]
      let p := s.pwr
      let s := { s with pwr := { p with
        inlet := inlet, outlet := outlet, flow := flow
        inletHot := runOf (decide (45 < inlet)) p.inletHot, outletHot := runOf (decide (65 ≤ outlet)) p.outletHot
        flowLow := runOf (decide (flow < 20)) p.flowLow, flowTrip := runOf (decide (flow < 10)) p.flowTrip } }
      let p := s.pwr
      if !s.powered then s
      else if 100 ≤ p.outletHot || 100 ≤ p.flowTrip then s.thermTrip
      else
        let s := (s.setHot 100 (decide (100 ≤ p.inletHot)) (decide (inlet ≤ 40))).setHot 101 (decide (100 ≤ p.flowLow))
          (decide (25 ≤ flow))
        s.causeHolds 4 s.coolantHot)

/-- Demanded flow over a span of degrees: 25 to 60 in 0.1 L/min. A value between two steps is a free one
of the two (assumption 73, DESIGN CHOICE). -/
def State.demandOf (s : State) (temp lo span : Nat) : Nat × State :=
  let n := 35 * (Nat.min temp (lo + span) - lo)
  if n % span = 0 then (25 + n / span, s)
  else
    let (v, s) := s.freeVal
    (25 + n / span + v % 2, s)

/-- COOL_DEMAND_UPDATE (R365), every 100 ms. -/
def execCoolDemandUpdate (s : State) : Host.Outcome State Fault Refusal :=
  .next (if s.pwr.st = 0 then s
    else
      let (a, s) := s.demandOf s.hotDram 70 12
      let (b, s) := s.demandOf s.hotCdie 85 15
      { s with pwr := { s.pwr with demand := Nat.max a b } })

/-! ### The hold-up bank (R362 to R364) -/

/-- E_U in units of 10⁻⁹ J, of a capacitance in mF and a voltage in 10 mV. -/
def bankEnergy (cap v : Nat) : Nat := 47 * cap * (v * v - 9000000)

/-- GiB the energy lets a flush write. -/
def bankGib (e : Nat) : Nat := (e - 54 * 10 ^ 9) * 10 / (352 * 10 ^ 9)

/-- BANK_STATE. -/
def HoldUp.next (b : HoldUp) (e : Nat) : Nat :=
  if b.failed then 3 else if !b.reached then 0 else if 900 * 10 ^ 9 ≤ e then 1 else 2

/-- The bank changes: a change of BANK_STATE raises its events. -/
def State.setBank (s : State) (b : HoldUp) : State :=
  let old := s.pwr.bank.st
  let b := { b with force := if b.st = 3 then 0 else b.force }
  let s := { s with pwr := { s.pwr with bank := b } }
  if old = b.st then s else (s.pldm 23 b.st).raise (coreSource 24)

/-- BANK_ESTIMATE, every 100 ms; a test computes at 52 V. Before the first test C is a free value. -/
def execBankEstimate (volts temp : Nat) (s : State) : Host.Outcome State Fault Refusal :=
  .next (if s.pwr.st = 0 then s
    else
      let b := s.pwr.bank
      let (c, s) := if b.cap = 0 then s.freeVal else (b.cap, s)
      let e := bankEnergy c (if b.test then 5200 else volts)
      let b := { b with volts := volts, reached := b.reached || decide (5350 ≤ volts)
                        failed := b.failed || decide (70 < temp), joule := e / 10 ^ 9, force := bankGib e }
      s.setBank { b with st := b.next e })

/-- BANK_CHARGE_TIMEOUT: the charger has not reached 40 V within 60 s. -/
def execBankChargeTimeout (s : State) : Host.Outcome State Fault Refusal :=
  .next (if s.powered && s.pwr.bank.volts < 4000 then s.setBank { s.pwr.bank with failed := true, st := 3 } else s)

/-- A health test begins, in ON. -/
def State.startTest (s : State) : State :=
  if s.pwr.st = 3 && !s.pwr.bank.test then { s with pwr := { s.pwr with bank := { s.pwr.bank with test := true } } }
  else s

/-- BANK_HEALTH_TEST_TIMER: 10 s after the bank first reached 53.5 V, and every 24 h. -/
def execBankHealthTestTimer (s : State) : Host.Outcome State Fault Refusal :=
  .next (if s.pwr.bank.reached then s.startTest else s)

/-- BANK_TEST: a write of 1. -/
def execBankTest (value : Word) (s : State) : Host.Outcome State Fault Refusal :=
  .next (if value.getLsbD 0 then s.startTest else s)

/-- BANK_HEALTH_TEST_DONE. -/
def execBankHealthTestDone (capMf esrMohm : Nat) (s : State) : Host.Outcome State Fault Refusal :=
  .next (if !s.pwr.bank.test then s
    else
      let bad := decide (capMf < 960) || decide (60 < esrMohm)
      let b := { s.pwr.bank with test := false, cap := capMf, esr := esrMohm, failed := s.pwr.bank.failed || bad }
      s.setBank { b with st := if b.failed then 3 else b.st })

/-! ### FLUSH_CLEAR (Table 17.8) -/

/-- FLUSH_CLEAR: a cause recorded in the same cycle of the standby clock wins. -/
def execFlushClear (value : Word) (cause : Nat) (s : State) : Host.Outcome State Fault Refusal :=
  let s := if value.getLsbD 8 then s.setFlush 0 else s
  .next (if cause = 6 then s.hardTrip else if 1 ≤ cause && cause ≤ 5 then s.powerFail cause else s)

end Sys2Proof.Machine
end

