-- ==== Sys2Proof/Machine/Doe.lean ====
section
/-! DEFINITION. The data object exchange and its CDAT (R255, Table 12.1), in the family's layouts (assumption 128,
PRESUMED). -/

namespace Sys2Proof.Machine

/-- Bytes of the HDM range (R258). -/
def hdmBytes : Nat := 1276 * 2 ^ 30

/-- CDAT's entry of the HDM range (DSMAS): its handle, base and length. -/
def cdatRange : Bytes := natLe 1 0 ++ zeros 1 ++ natLe 2 24 ++ zeros 4 ++ natLe 8 0 ++ natLe 8 hdmBytes

/-- CDAT's entry of the range's latency (0) or bandwidth (3) (DSLBIS); the rules give no figure, and what it states is
a free value. -/
def cdatPerf (kind : Nat) : Bytes :=
  natLe 1 1 ++ zeros 1 ++ natLe 2 24 ++ zeros 2 ++ natLe 1 kind ++ zeros 1 ++ natLe 8 1
    ++ natLe 2 (Config.hdmPerf kind) ++ zeros 6

/-- The CDAT's entries after its header. -/
def cdatEntries : List Bytes := [cdatRange, cdatPerf 0, cdatPerf 3]

/-- The CDAT's header: its length, revision 1, and the byte that makes the table sum to 0. -/
def cdatHead : Bytes :=
  let body := cdatEntries.flatten
  let head (sum : Nat) : Bytes := natLe 4 (16 + body.length) ++ natLe 1 1 ++ natLe 1 sum ++ zeros 10
  let total := ((head 0 ++ body).map BitVec.toNat).sum
  head (256 - total % 256)

/-- A 32-bit word list of bytes. -/
def wordsOf (b : Bytes) : List Word := (List.range (cdiv b.length 4)).map fun i => BitVec.ofNat 32 (fld b (4 * i) 4)

/-- The answer to a read of a CDAT entry: the object's header, the next entry's handle, the entry. -/
def cdatAnswer (handle : Nat) : List Word :=
  match (cdatHead :: cdatEntries)[handle]? with
  | none => []
  | some e =>
    let next := if handle < cdatEntries.length then handle + 1 else 0xFFFF
    [0x00021E98#32, BitVec.ofNat 32 (3 + e.length / 4), BitVec.ofNat 32 (2 ^ 16 * next)] ++ wordsOf e

/-- The answer to a discovery: the exchange itself, then the CDAT. -/
def doeDiscovery (index : Nat) : List Word :=
  if index = 0 then [0x00000001#32, 3#32, 0x01000001#32]
  else if index = 1 then [0x00000001#32, 3#32, 0x00021E98#32]
  else [0x00000001#32, 3#32, 0x0000FFFF#32]

/-- The answer to a request object; none to one that is not supported. -/
def doeAnswer (req : List Word) : List Word :=
  let w (i : Nat) : Nat := (req.getD i 0).toNat
  if w 0 = 1 && req.length = 3 then doeDiscovery (w 2 % 256)
  else if w 0 = 0x00021E98 && req.length = 3 && w 2 % 2 ^ 16 = 0 then cdatAnswer (w 2 / 2 ^ 16)
  else []

/-- Registers of the exchange: control, status, write mailbox, read mailbox. -/
def doeCtl : Nat := 0x110608
def doeStat : Nat := 0x11060C
def doeIn : Nat := 0x110610
def doeOut : Nat := 0x110614

/-- A write of the exchange's registers: ABORT forgets both objects, GO answers the request; a write of the read mailbox
takes its word. -/
def Doe.write (d : Doe) (a : Nat) (v : Word) : Doe :=
  if a = doeCtl then
    (if v.getLsbD 0 then {} else if v.getLsbD 31 then { req := [], rsp := doeAnswer d.req } else d)
  else if a = doeIn then { d with req := d.req ++ [v] }
  else if a = doeOut then { d with rsp := d.rsp.drop 1 }
  else d

/-- What they read as: DATA_OBJECT_READY in the status, and the answer's next word. -/
def Doe.read (d : Doe) (a : Nat) : Nat :=
  if a = doeStat then 2 ^ 31 * b2n (!d.rsp.isEmpty)
  else if a = doeOut then (d.rsp.headD 0).toNat
  else 0

end Sys2Proof.Machine
end

