-- ==== Sys2Proof/Machine/RegMap.lean ====
section
/-! DEFINITION. What every register of the setup space and of the MSI-X BAR reads as (chapter 18 and the
register tables it points to). Byte addresses from 0x100000 on are those of BAR2 (assumption 8, PRESUMED). -/

namespace Sys2Proof.Machine

/-- Word `i` of a number read as consecutive 32-bit registers. -/
def wordOf (n i : Nat) : Nat := bitsOf n (32 * i + 31) (32 * i)

/-- A stored register word. -/
def State.stored (s : State) (a : Nat) : Nat := (s.regW a).toNat

/-! ### GLOBAL (Tables 18.3 and 12.5) -/

/-- HP_INFLIGHT (R269). -/
def State.inflight (s : State) (p : Nat) : Nat :=
  if (s.part p).remote then 0
  else (s.fe.cmds.filter fun e => e.2.part == p && !s.notStarted e.1 e.2).length

/-- TILE_STATE. -/
def State.tileState (s : State) (t : Nat) : Nat := if s.enabled t then (s.tile t).st else 7

/-- The word at 0x100. -/
def State.reamWord (s : State) : Nat :=
  let r := s.ream
  if r.resident then r.mode + 2 ^ 8 + 2 ^ 9 * b2n r.sealed + 2 ^ 10 * b2n r.half + 2 ^ 16 * r.owner
  else 2 ^ 10 * b2n r.half

/-- The word at 0x800 (Table 12.5). -/
def State.linkWord (s : State) : Nat :=
  let h := s.hp
  h.link % 4 + 4 * (h.speed % 8) + 32 * (h.width % 8) + 256 * b2n h.cxlOk
    + 512 * b2n (decide (2 ≤ h.link) && !(h.speed == 3 && h.width == 4))

def State.readGlobal (s : State) (a : Nat) : Nat :=
  if a = 0x0 then 0x00384E59
  else if a = 0x4 then 0x0001B0B0
  else if a = 0x8 || a = 0xC then wordOf (leNat s.fuse.order) ((a - 8) / 4)
  else if 0x10 ≤ a && a ≤ 0x18 then wordOf s.fuse.tileMask ((a - 0x10) / 4)
  else if 0x20 ≤ a && a ≤ 0x2C then wordOf s.fuse.serial ((a - 0x20) / 4)
  else if 0x40 ≤ a && a ≤ 0x5C then wordOf s.featDev ((a - 0x40) / 4)
  else if a = 0x100 then s.reamWord
  else if a = 0x104 then (if s.ream.resident then s.ream.act.num else 0)
  else if a = 0x108 then s.ream.rejectInfo
  else if a = 0x110 then wordOf s.ream.sweeps 0
  else if a = 0x114 then bitsOf s.ream.sweeps 47 32
  else if a = 0x118 then s.ream.reserve
  else if 0x200 ≤ a && a < 0x320 then (if s.enabled ((a - 0x200) / 4) then s.ream.esc.toNat else 0)
  else if 0x400 ≤ a && a < 0x520 then s.tileState ((a - 0x400) / 4)
  else if a = 0x800 then s.linkWord
  else if a = 0x804 then s.hp.epoch
  else if a = 0x808 then 1276
  else if 0x840 ≤ a && a < 0x880 then s.inflight ((a - 0x840) / 4)
  else 0

/-! ### PART, RINGSET (Tables 10.1 and 10.4) -/

def State.readPart (s : State) (p o : Nat) : Nat :=
  let q := s.part p
  if o = 0x04 then q.st + 4 * b2n q.remote + 256 * q.err
  else if o = 0x18 then wordOf q.bound 0
  else if o = 0x1C then bitsOf q.bound 47 32
  else if (0x08 ≤ o && o ≤ 0x14) || (0x20 ≤ o && o ≤ 0x3C) then s.stored (partReg p + o)
  else if 0x40 ≤ o && o ≤ 0x5C then wordOf q.featAck ((o - 0x40) / 4)
  else 0

def State.readRing (s : State) (n o : Nat) : Nat :=
  let r := s.ring n
  if o = 0x24 then r.st + 256 * r.err
  else if o = 0x28 then r.sqCons
  else if o = 0x2C then r.cqProd
  else if o = 0x30 then r.cqSeen
  else if o = 0x34 then r.epoch
  else if ringOffs.contains o then s.stored (ringReg n + o)
  else 0

/-! ### SEG (Tables 11.1, 11.5 and 11.6) -/

/-- Segment g of partition p, also while it is being removed. -/
def State.readSegEntry (s : State) (p g o : Nat) : Nat :=
  match s.heldSeg p g with
  | none => 0
  | some v =>
    if o = 0x00 || o = 0x04 then wordOf v.base (o / 4)
    else if o = 0x08 || o = 0x0C then wordOf v.limit ((o - 8) / 4)
    else if o = 0x10 then 1 + 2 * v.tier + 8 * b2n v.paged + 16 * b2n v.sealed + 32 * b2n v.readOnly
      + 64 * b2n v.poisonAware + 128 * b2n v.remote + 256 * v.bindSlot
    else if o = 0x14 then v.qp
    else if o = 0x18 then v.rkey
    else if o = 0x1C then v.pagesValid
    else 0

/-- PARKED and UNQUEUED of a partition. -/
def State.parkedWord (s : State) (p : Nat) : Nat :=
  let ts := s.fe.tasks.filter fun t => t.2.part == p
  ts.length + 2 ^ 16 * (ts.filter fun t => t.2.fseq.isNone).length

def State.readSegBlock (s : State) (a : Nat) : Nat :=
  if a < 0x62000 then
    let i := (a - 0x60000) / 0x40
    s.readSegEntry (i / 8) (i % 8) (a % 0x40)
  else if a = 0x64000 then s.fe.fqProd
  else if a = 0x64004 then s.faultsQueued + 2 ^ 16 * b2n s.fe.fqOvf
  else if 0x64100 ≤ a && a < 0x64140 then s.parkedWord ((a - 0x64100) / 4)
  else if 0x68000 ≤ a && a < 0x6A000 then
    fld (FMap.get s.fe.fq ((a - 0x68000) / 32) []) (a % 32) 4
  else 0

/-! ### EVT (Tables 14.1 and 14.2) -/

def evtReg (i : Nat) : Nat := 0x70000 + 0x10 * i

def State.readSource (s : State) (i o : Nat) : Nat :=
  let r := s.src i
  if o = 0 then
    (if 480 ≤ i then 16 else s.regF (evtReg i) 4 0) + 256 * b2n (s.autoAck i) + 512 * b2n r.ownerErr
      + 1024 * b2n r.routeErr
  else if o = 0xC then r.st + 2 ^ 16 * r.count
  else s.stored (evtReg i + o)

def State.readEvt (s : State) (a : Nat) : Nat :=
  if a < 0x72000 then s.readSource ((a - 0x70000) / 0x10) (a % 0x10)
  else if 0x74000 ≤ a && a < 0x74200 then
    let p := (a - 0x74000) / 0x20
    let o := a % 0x20
    if o = 0x10 then (s.part p).cause.toNat
    else if o ≤ 0x14 then s.stored (partEvt p + o) else 0
  else 0

/-! ### NET (Tables 13.2 to 13.5) -/

/-- A window entry in the layout of Table 13.5, bytes 16 to 47. -/
def winBytes (q : Nat) (win : Nat) (w : Win) : Bytes :=
  natLe 1 w.seg ++ natLe 1 win ++ natLe 2 q ++ natLe 1 w.rights ++ zeros 1 ++ natLe 2 w.tag ++ natLe 8 w.va
    ++ natLe 8 w.off ++ natLe 8 w.len

/-- The window WIN_SEL selects; bit 31 of its last word says that it is in use. -/
def State.readWin (s : State) (o : Nat) : Nat :=
  let k := s.regF 0x82000 15 0
  match FMap.find s.net.wins k with
  | none => 0
  | some w =>
    let n := fld (winBytes (k / 16) (k % 16) w) o 4
    if o = 0x1C then n % 2 ^ 31 + 2 ^ 31 else n

def State.readQp (s : State) (o : Nat) : Nat :=
  let q := s.qp s.qpSel
  if o = 0x40 then q.st + 16 * q.err + bitsOf (FMap.get q.ctx 0x40 (qpReset 0x40)).toNat 31 8 * 256
  else if 0x44 ≤ o && o ≤ 0x68 then (FMap.get q.ctx o (qpReset o)).toNat
  else if o = 0x6C then q.rate
  else if o = 0x70 then q.retrans.toNat
  else 0

def State.readNet (s : State) (a : Nat) : Nat :=
  if a = 0x80000 then s.stored a + 256 * s.net.modeErr
  else if a = 0x80004 || (0x80040 ≤ a && a ≤ 0x80048) then s.stored a
  else if 0x80100 ≤ a && a < 0x80300 then
    let n := (a - 0x80100) / 0x20
    s.stored a + (if a % 0x20 = 0 then 16 * (s.port n).link else 0)
  else if a = 0x81000 || a = 0x82000 then s.stored a
  else if a = 0x81004 then 256 * s.net.cmdErr
  else if 0x81040 ≤ a && a < 0x81080 then s.readQp (a - 0x81000)
  else if 0x82040 ≤ a && a < 0x82060 then s.readWin (a - 0x82040)
  else 0

/-! ### MEM (Tables 18.4, 8.6, 8.10) -/

/-- Some tile above the channel group is enabled (R2). -/
def State.groupOnFuse (s : State) (g : Nat) : Bool := s.groups.contains g

def State.thermWord (s : State) (c : Nat) : Nat :=
  if s.groupOnFuse c then
    let t := FMap.get s.tiers.therm c {}
    t.temp + 2 ^ 8 * t.st + 2 ^ 16 * t.peak
  else 2 ^ 8 * 3

def State.t1Word (s : State) (g : Nat) : Nat :=
  let t := s.t1g g
  t.st + 4 * t.lost.headD 7 + 2 ^ 8 * s.poisonEntries g

def State.readMem (s : State) (a : Nat) : Nat :=
  if a = 0x90000 || a = 0x90004 then wordOf s.ream.updStep ((a - 0x90000) / 4)
  else if a = 0x90010 then s.stored a
  else if a = 0x90020 then s.stored a + 2 ^ 16 * b2n s.tiers.t0Lag + 2 ^ 17 * b2n s.tiers.t1Lag
  else if 0x90040 ≤ a && a < 0x90064 then s.thermWord ((a - 0x90040) / 4)
  else if 0x90080 ≤ a && a < 0x90090 then s.t1Word ((a - 0x90080) / 4)
  else 0

/-! ### PWR (Table 17.8) -/

/-- A set of groups as bits. -/
def groupBits (gs : List Nat) : Nat := gs.foldl (fun n g => n ||| 2 ^ g) 0

/-- TCLK_MHZ: 0 unless the group is awake. -/
def State.tclkWord (s : State) (g : Nat) : Nat :=
  if s.pwr.awake.contains g then FMap.get s.pwr.tclk g 800 else 0

def State.readPwr (s : State) (a : Nat) : Nat :=
  let p := s.pwr
  let b := p.bank
  if a = 0xA0000 then p.st + 8 * b2n (!p.emerg.isEmpty) + 256 * s.emergCause
  else if a = 0xA0004 || a = 0xA0008 || a = 0xA000C then s.stored a
  else if a = 0xA0010 then s.wakeAll
  else if a = 0xA0014 then
    groupBits p.awake + 2 ^ 16 * groupBits ((p.queue.filter (·.2)).map (·.1))
  else if a = 0xA0020 then p.vin
  else if a = 0xA0024 then p.iin
  else if a = 0xA0028 then p.pAvg + 2 ^ 16 * p.pPeak
  else if a = 0xA0030 then b.st + 4 * b2n b.test + 2 ^ 16 * b.joule
  else if a = 0xA0034 then b.cap + 2 ^ 16 * b.esr
  else if a = 0xA0038 then Nat.min (s.regF 0xC0900 4 0) b.force
  else if 0xA0040 ≤ a && a < 0xA0064 then s.tclkWord ((a - 0xA0040) / 4)
  else if a = 0xA0080 then p.inlet + 2 ^ 8 * p.outlet + 2 ^ 16 * p.flow + 2 ^ 24 * p.demand
  else if 0xA00C0 ≤ a && a < 0xA00E4 then s.cdieTemp ((a - 0xA00C0) / 4)
  else if a = 0xA00E4 then s.hotPdie
  else if a = 0xA0100 then p.flushCause
  else 0

/-! ### SEC (Table 16.2) -/

def State.readSec (s : State) (a : Nat) : Nat :=
  let v := s.sec
  if a = 0xB0004 then b2n v.busy + 2 * b2n v.collide + 2 ^ 8 * v.status + 2 ^ 16 * v.out.length
  else if a = 0xB0008 || a = 0xB0010 then s.stored a
  else if a = 0xB0020 then v.bootBits
  else if a = 0xB0024 then s.fwVersion
  else if a = 0xB0028 then s.fwSvn + 2 ^ 8 * s.fuse.svn
  else if a = 0xB002C then s.rel.boots
  else if a = 0xB0030 then v.unwrapReason + 2 ^ 16 * v.unwrapSlot
  else if 0xB1000 ≤ a && a < 0xB2000 then s.stored a
  else if 0xB2000 ≤ a && a < 0xB3000 then fld v.out (a - 0xB2000) 4
  else 0

/-! ### REL (Tables 15.13, 15.2, 18.5, 8.11) -/

/-- PARTNER_STATUS. -/
def State.partnerWord (s : State) : Nat :=
  let st := match s.rel.sender with
    | none => 0
    | some p => if !p.known then 0 else if p.active then 1 else 2
  let feed := match s.rel.sender.orElse fun _ => s.rel.receiver with
    | some p => if p.known then p.feed else 0
    | none => 0
  st + 4 * b2n s.rel.receiver.isSome + 8 * b2n s.correlated + 2 ^ 8 * s.fuse.feed + 2 ^ 16 * feed

/-- ACKED_STEP and SECURING of the sender pairing. -/
def State.ackedStep (s : State) : Nat :=
  match s.rel.sender.bind (·.acked) with
  | some (n, _) => n
  | none => 0
def State.securingNow (s : State) : Nat :=
  match s.rel.sender with
  | some p => p.securing
  | none => 0

def State.vaultWord (s : State) : Nat :=
  let v := s.rel.vault
  v.st + 4 * v.wear + 2 ^ 16 * Nat.min 511 ((v.erased.getD 0) / 2 ^ 30)

def State.readRel (s : State) (a : Nat) : Nat :=
  let r := s.rel
  if a = 0xC0000 then r.cause + 256 * b2n r.stuck + 2 ^ 16 * r.seq
  else if a = 0xC0014 then groupBits ((List.range 16).filter fun p => (s.part p).resetBusy)
  else if a = 0xC0020 then s.partnerWord
  else if a = 0xC0024 || a = 0xC0028 then wordOf s.ackedStep ((a - 0xC0024) / 4)
  else if a = 0xC002C then s.securingNow
  else if a = 0xC0030 then s.stored a
  else if a = 0xC0040 then b2n s.ream.degraded + 2 * b2n s.ream.weightsLost + 4 * b2n r.restoring
  else if 0xC0044 ≤ a && a ≤ 0xC004C then wordOf r.suspect ((a - 0xC0044) / 4)
  else if a = 0xC0050 then r.packId
  else if 0xC0080 ≤ a && a < 0xC02C0 then
    let n := FMap.get r.suspSweep ((a - 0xC0080) / 8) 0
    if a % 8 = 0 then wordOf n 0 else bitsOf n 47 32
  else if a = 0xC0400 then r.plogProd
  else if 0xC0500 ≤ a && a < 0xC0900 then
    ((FMap.get r.plog ((a - 0xC0500) / 16) []).getD (a % 16 / 4) 0).toNat
  else if a = 0xC0900 then s.stored a
  else if a = 0xC0908 || a = 0xC090C then wordOf s.dirtyBytes ((a - 0xC0908) / 4)
  else if a = 0xC0910 || a = 0xC0914 then wordOf s.dirtyReserved ((a - 0xC0910) / 4)
  else if a = 0xC0918 || a = 0xC091C then wordOf s.gat.dirtyPeak ((a - 0xC0918) / 4)
  else if a = 0xC0920 then s.vaultWord
  else 0

/-! ### TEL (Tables 18.6 and 14.5) -/

def State.readTel (s : State) (a : Nat) : Nat :=
  let t := s.tel
  if a = 0xD0000 then t.id + 2 ^ 10 * b2n t.bank + 2 ^ 11 * b2n t.selErr + 2 ^ 12 * t.inst
  else if a = 0xD0008 then wordOf s.selected.toNat 0
  else if a = 0xD000C then wordOf s.selected.toNat 1
  else if a = 0xD0010 then s.cntInfo.toNat
  else if a = 0xDF000 then 2 * b2n t.busy + 2 ^ 16 * t.seq
  else if a = 0xDF008 || a = 0xDF00C then wordOf t.valid ((a - 0xDF008) / 4)
  else if a = 0xDF010 || a = 0xDF014 then wordOf t.hp ((a - 0xDF010) / 4)
  else if 0xDF100 ≤ a && a < 0xDF240 then wordOf (FMap.get t.dom ((a - 0xDF100) / 8) 0) (a % 8 / 4)
  else 0

/-! ### DBG (Table 18.9) -/

def State.readDbg (s : State) (a : Nat) : Nat :=
  let d := s.dbg
  if a = 0xF0000 then s.stored a + 2 ^ 12 * b2n (s.testRuns s.dbgTile) + 2 ^ 16 * b2n d.refused
  else if a = 0xF0004 || a = 0xF0010 || a = 0xF0104 || a = 0xF0108 then s.stored a
  else if a = 0xF0100 then s.stored a + 2 ^ 18 * b2n d.busy.isSome + 2 ^ 19 * b2n d.poisoned
    + 2 ^ 20 * b2n d.zeroed + 2 ^ 21 * b2n d.peekRefused
  else if 0xF0200 ≤ a && a < 0xF0300 then fld d.data (a - 0xF0200) 4
  else 0

/-! ### BAR2: the MSI-X table and PBA (Table 12.2) -/

/-- The message control word of the MSI-X capability, with a table size of 2,048 (assumption 8, PRESUMED). -/
def msixControl : Nat := 0x110000

/-- RW bits of the configuration space at 0x110000 and of the CXL component registers at 0x120000 (Tables 12.1, 12.2;
assumption 128, PRESUMED): the command word, the BARs, the power state, the controls of the PCI Express capability, the
masks and severities of error reporting, the CXL control word; the decoder's base, size and commit; the masks and
severity of the RAS capability. -/
def cfgMask (a : Nat) : Word :=
  if a = 0x110004 then 0x0146#32
  else if a = 0x110010 then 0xFFF00000#32
  else if a = 0x110018 || a = 0x110020 then 0xFFFF0000#32
  else if a = 0x110014 || a = 0x11001C || a = 0x110024 then 0xFFFFFFFF#32
  else if a = 0x110044 then 3#32
  else if a = 0x110058 then 0x79FF#32
  else if a = 0x110078 then 0x1000#32
  else if a = 0x110308 then 4#32
  else if a = 0x110108 || a = 0x11010C then 0x007FF010#32
  else if a = 0x110114 then 0xF1C1#32
  else if a = 0x110200 then 5#32
  else if a = 0x120010 || a = 0x120018 then 0xF0000000#32
  else if a = 0x120014 || a = 0x12001C then 0xFFFFFFFF#32
  else if a = 0x120020 then 0x200#32
  else if a = 0x120104 || a = 0x120108 then 0x1CFFF#32
  else if a = 0x120110 then 0x7F#32
  else 0#32

/-- Their reset values that are not 0. -/
def cfgReset (a : Nat) : Word :=
  if a = 0x110058 then 0x2810#32
  else if a = 0x11010C then 0x00462030#32
  else if a = 0x110114 then 0xE000#32
  else if a = 0x120104 || a = 0x120108 then 0x1CFFF#32
  else if a = 0x120110 then 0x7F#32
  else 0#32

/-- Their read-only bits: the BARs' type, 64-bit memory; where the MSI-X table and the PBA lie; power management without
No_Soft_Reset; an endpoint of 512-byte payloads without function level reset, and 10- and 14-bit tags; the CXL
capability with Cache_Capable, Mem_Capable and one HDM; the Flex Bus port's capability and its state; the register
locator, component registers in BAR4; the decoder's committed bit, which follows its commit bit. -/
def State.cfgFixed (s : State) (a : Nat) : Nat :=
  if a = 0x110010 || a = 0x110018 || a = 0x110020 then 4
  else if a = 0x110030 then 0x00000002
  else if a = 0x110034 then 0x00008002
  else if a = 0x110040 then 0x00030001
  else if a = 0x110050 then 0x00020010
  else if a = 0x110054 then 0x00008022
  else if a = 0x110074 then 0x00030000
  else if a = 0x110100 then 0x00020001
  else if a = 0x110204 then 0x15
  else if a = 0x110300 then 0x0001002F
  else if a = 0x110304 then 0x00000006
  else if a = 0x110400 || a = 0x110500 then 0x00010023
  else if a = 0x110404 then 0x02021E98
  else if a = 0x110408 then 0x00270007
  else if a = 0x11040C then 2 ^ 16 * (if s.hp.cxlOk then 7 else if 2 ≤ s.hp.link then 2 else 0)
  else if a = 0x110504 then 0x01401E98
  else if a = 0x110508 then 0x00000008
  else if a = 0x11050C then 0x00000104
  else if a = 0x110600 then 0x0001002E
  else if a = 0x120020 then 2 ^ 10 * b2n ((FMap.get s.hp.cfg a 0).getLsbD 9)
  else 0

/-- What the configuration space and the component registers read as. -/
def State.readCfg (s : State) (a : Nat) : Nat :=
  if doeCtl ≤ a && a ≤ doeOut then s.hp.doe.read a else (FMap.get s.hp.cfg a (cfgReset a)).toNat + s.cfgFixed a

def State.readBar2 (s : State) (a : Nat) : Nat :=
  let o := a - 0x100000
  if o < 0x8000 then (FMap.get s.hp.msix (o / 4) (if o % 16 = 12 then 1 else 0)).toNat
  else if o < 0x8100 then
    (List.range 32).foldl (fun n i =>
      if s.hp.pba.any (fun e => e.1 == (o - 0x8000) / 4 * 32 + i) then n + 2 ^ i else n) 0
  else if a = msixControl then 2 ^ 15 * b2n s.hp.msixEnable + 2 ^ 14 * b2n s.hp.msixMask + 2047
  else s.readCfg a

/-- What a register reads as; a reserved offset reads 0 (R372). -/
def State.regRead (s : State) (a : Nat) : Word :=
  BitVec.ofNat 32 (
    if a < 0x1000 then s.readGlobal a
    else if a < 0x10000 then 0
    else if a < 0x11000 then s.readPart ((a - 0x10000) / 0x100) (a % 0x100)
    else if a < 0x20000 then 0
    else if a < 0x60000 then s.readRing ((a - 0x20000) / 0x40) (a % 0x40)
    else if a < 0x70000 then s.readSegBlock a
    else if a < 0x80000 then s.readEvt a
    else if a < 0x90000 then s.readNet a
    else if a < 0xA0000 then s.readMem a
    else if a < 0xB0000 then s.readPwr a
    else if a < 0xC0000 then s.readSec a
    else if a < 0xD0000 then s.readRel a
    else if a < 0xE0000 then s.readTel a
    else if a < 0xF0000 then 0
    else if a < 0x100000 then s.readDbg a
    else s.readBar2 a)

/-! ### Reads on the bus -/

/-- Low words of the 64-bit RO and RC values (R304, R374). -/
def lowWord (a : Nat) : Bool :=
  [0x110, 0x90000, 0xC0024, 0xC0908, 0xC0910, 0xC0918, 0xDF008, 0xDF010].contains a
    || (0x10000 ≤ a && a < 0x11000 && a % 0x100 == 0x18)
    || (0x60000 ≤ a && a < 0x62000 && (a % 0x40 == 0 || a % 0x40 == 8))
    || (0xC0080 ≤ a && a < 0xC02C0 && a % 8 == 0)
    || (0xC0500 ≤ a && a < 0xC0900 && a % 16 == 4)
    || (0xDF100 ≤ a && a < 0xDF240 && a % 8 == 0)

/-- RC fields clear after their read (Table 0.3); DIRTY_PEAK with its low word (Table 18.5). -/
def State.clearRead (s : State) (a : Nat) : State :=
  if a = 0xA0028 then { s with pwr := { s.pwr with pPeak := 0 } }
  else if a = 0xC0918 then { s with gat := { s.gat with dirtyPeak := 0 } }
  else if 0x90040 ≤ a && a < 0x90064 then
    let c := (a - 0x90040) / 4
    match FMap.find s.tiers.therm c with
    | some t => { s with tiers := { s.tiers with therm := FMap.set s.tiers.therm c { t with peak := 0 } } }
    | none => s
  else s

def State.answerWord (s : State) (w : Word) : State := { s with bus := { s.bus with rdata := w } }

/-- A read of an aligned word: the low word of a 64-bit value latches its high word; the next read of
the high word returns what was latched, and otherwise the live word (R304). -/
def State.busRead (s : State) (a : Nat) : State :=
  if a = 0xD0008 then s.readCntLo
  else if a = 0xD000C then
    match s.tel.cntHi with
    | some w => { s.answerWord w with tel := { s.tel with cntHi := none } }
    | none => s.answerWord (s.regRead a)
  else if lowWord a then
    let hi := s.regRead (a + 4)
    let s := s.answerWord (s.regRead a)
    { s with tel := { s.tel with hi := FMap.set s.tel.hi a hi } }.clearRead a
  else if 4 ≤ a && lowWord (a - 4) then
    match FMap.find s.tel.hi (a - 4) with
    | some w => { s.answerWord w with tel := { s.tel with hi := FMap.del s.tel.hi (a - 4) } }
    | none => s.answerWord (s.regRead a)
  else (s.answerWord (s.regRead a)).clearRead a

/-- A read of BAR0 or BAR2: one that is not of an aligned word is a bad access (R255). Assumption 95, DEDUCED. -/
def State.read (s : State) (a : Nat) : State :=
  if a % 4 = 0 then s.busRead a else after (execBarBadAccess false s) s

/-- LOW_WORD_READ (R304). -/
def execLowWordRead (addr : Nat) (s : State) : Host.Outcome State Fault Refusal := .next (s.read addr)

/-- RC_READ (R6). -/
def execRcRead (addr : Nat) (s : State) : Host.Outcome State Fault Refusal := .next (s.read addr)

end Sys2Proof.Machine
end

