-- ==== Sys2Proof/Machine/Regs.lean ====
section
/-! DEFINITION. Writes of setup registers and of the MSI-X BAR, each by its access code or by the
behaviour its field has (R5 to R7, R295, R371 to R376). Where one write holds several actions they act in
the order of their bits. -/

namespace Sys2Proof.Machine

/-! ### Plain RW fields -/

/-- Writable bits of a register whose RW fields are only stored. -/
def rwMask (a : Nat) : Word :=
  let part := 0x10000 ≤ a && a < 0x11000
  let o := a % 0x100
  let ring := 0x20000 ≤ a && a < 0x60000
  let src := 0x70000 ≤ a && a < 0x72000
  let pe := 0x74000 ≤ a && a < 0x74200
  if part && 0x08 ≤ o && o ≤ 0x10 then 0x1FFF0FFF#32
  else if part && o = 0x14 then 0x0FFF07FF#32
  else if part && 0x20 ≤ o && o ≤ 0x3C then 0xFFFFFFFF#32
  else if ring then ringMask (a % 0x40)
  else if src && a % 16 = 4 then 0x7F7F07FF#32
  else if src && a % 16 = 8 then 0xFFFF00FF#32
  else if pe && (a % 32 = 0 || a % 32 = 4 || a % 32 = 0x14) then 0xFFFFFFFF#32
  else if pe && a % 32 = 8 then 0xF#32
  else if pe && a % 32 = 0xC then 0x3FF#32
  else if a = 0x80040 then 0x00FFFFFF#32
  else if a = 0x80044 then 0xFFFFFFFF#32
  else if a = 0x80048 then 0x0001FFFF#32
  else if a = 0x81000 then 0xFFF#32
  else if a = 0x82000 then 0xFFFF#32
  else if a = 0x90020 then 0xFFFF#32
  else if a = 0xB0008 then 0x1FFF#32
  else if 0xB1000 ≤ a && a < 0xB2000 then 0xFFFFFFFF#32
  else if a = 0xC0030 then 0xFF#32
  else if a = 0xF0000 then 0x7F#32
  else if a = 0xF0004 then 0x7FFF#32
  else if a = 0xF0010 then 0x17F#32
  else if a = 0xF0100 then 0x7F03#32
  else if a = 0xF0104 then 0xFFFFFFFF#32
  else if a = 0xF0108 then 3#32
  else 0#32

/-- Store the plain RW bits of a register; a register with none keeps its word. -/
def State.storeRw (s : State) (a : Nat) (v : Word) : State :=
  if rwMask a = 0#32 then s else s.store a (rwMask a) v

/-! ### LOCK (R7, R376) -/

/-- Addresses of the registers that hold a LOCK bit (Table 18.2). -/
def lockRegs : List Nat := [0x80004, 0xA0004, 0xB0010]

/-- The block's RWL fields are locked. -/
def State.locked (s : State) (a : Nat) : Bool := s.regF a 0 0 == 1

/-- A write of the SEC control word, whose UPDATE_EN is stored while LOCK is 0. -/
def State.lockStore (s : State) (a : Nat) (v : Word) : State :=
  s.store a (if a = 0xB0010 then 3 else 1) v

/-- A write to a register with a LOCK bit: once 1, it and the RWL fields beside it stay. A LOCK that is set
in SEC is measured (Table 16.5). -/
def State.writeLock (s : State) (a : Nat) (v : Word) : State :=
  if !lockRegs.contains a || s.locked a then s
  else
    let s := s.lockStore a v
    if a = 0xB0010 && v.getLsbD 0 then s.extend 7 evLock [] (sm3 (natLe 4 (s.stored a))) else s

/-- LOCK. -/
def execLock (addr : Nat) (value : Word) (s : State) : Host.Outcome State Fault Refusal :=
  .next (s.writeLock addr value)

/-- Store RWL bits, while the block's LOCK is 0. -/
def State.storeRwl (s : State) (lock a : Nat) (mask v : Word) : State :=
  if s.locked lock then s else s.store a mask v

/-! ### EVT -/

/-- A ring that is not DISABLED, or some partition's SYS_SRC, names the source (R295). -/
def State.srcNamed (s : State) (i : Nat) : Bool :=
  (s.fe.rings.any fun e => e.2.st != 0 && e.2.evtSrc == i)
    || (List.range 16).any fun p => s.regF (partEvt p + 0xC) 9 0 == i

/-- A write to a source's OWNER and AUTO_ACK (R295). Assumption 96, DEDUCED. -/
def State.writeOwner (s : State) (i : Nat) (v : Word) : State :=
  let a := evtReg i
  if 480 ≤ i then s.store a 0x100 v
  else if s.regF a 4 0 = bitsOf v.toNat 4 0 then s.store a 0x100 v
  else if s.srcNamed i then s.setSrc i { s.src i with ownerErr := true }
  else (s.store a 0x11F v).setSrc i { s.src i with ownerErr := false, st := 0, count := 0, sentAt := none }

def State.writeEvt (s : State) (a : Nat) (v : Word) : State :=
  if a < 0x72000 && a % 16 = 0 then s.writeOwner ((a - 0x70000) / 16) v
  else if a = 0x72000 then after (execEvtAck v s) s
  else if 0x74000 ≤ a && a < 0x74200 && a % 32 = 0x10 then
    s.modPart ((a - 0x74000) / 32) fun q => { q with cause := q.cause &&& ~~~v }
  else s.storeRw a v

/-! ### NET -/

/-- A write to a port's register: RWL fields, and ENABLE (R274). -/
def State.writePort (s : State) (n o : Nat) (v : Word) : State :=
  let a := portReg n + o
  let lk := 0x80004
  if o = 0 then
    let s := s.storeRwl lk a 6 v
    if v.getLsbD 0 then s.portOn n else s.portOff n
  else if o = 8 then s.storeRwl lk a 0xFFFF v
  else if o = 0x1C then s.storeRwl lk a 1 v
  else s.storeRwl lk a 0xFFFFFFFF v

/-- Writable bits of a queue pair's context word (Table 13.3). -/
def qpMask (o : Nat) : Word :=
  if o = 0x40 then 0x00013F00#32
  else if o = 0x44 || o = 0x48 || o = 0x4C then 0x00FFFFFF#32
  else if 0x50 ≤ o && o ≤ 0x60 then 0xFFFFFFFF#32
  else if o = 0x64 then 0x003FFFFF#32
  else if o = 0x68 then 0x0000771F#32
  else 0#32

/-- A context word is stored for the selected queue pair (R277). -/
def State.writeQp (s : State) (o : Nat) (v : Word) : State :=
  let m := qpMask o
  if m = 0#32 then s
  else s.modQp s.qpSel fun q =>
    { q with ctx := FMap.set q.ctx o ((FMap.get q.ctx o (qpReset o) &&& ~~~m) ||| (v &&& m)) }

def State.writeNet (s : State) (a : Nat) (v : Word) : State :=
  if a = 0x80000 then s.storeRwl 0x80004 a 0xFF v
  else if a = 0x80004 then s.writeLock a v
  else if 0x80100 ≤ a && a < 0x80300 then s.writePort ((a - 0x80100) / 0x20) (a % 0x20) v
  else if a = 0x81004 then
    let c := bitsOf v.toNat 1 0
    if c = 1 then after (execQpConnect s) s else if c = 2 then after (execQpReset s) s else s
  else if 0x81040 ≤ a && a < 0x81080 then s.writeQp (a - 0x81000) v
  else if a = 0x80048 then (s.storeRw a v).ratesFree
  else s.storeRw a v

/-! ### PWR, SEC, REL -/

def State.writePwr (s : State) (a : Nat) (v : Word) : State :=
  if a = 0xA0004 then s.writeLock a v
  else if a = 0xA0008 then after (execPwrCap v s) s
  else if a = 0xA000C then after (execSlew v s) s
  else if a = 0xA003C then after (execBankTest v s) s
  else if a = 0xA0100 then after (execFlushClear v 0 s) s
  else s

/-- The image the block reads for a FW_STAGE or PACK_INSTALL that is written as a register: free bytes, the
read failing or not (assumption 95, DEDUCED). -/
def State.freeImage (s : State) : Rd × State :=
  let (v, s) := s.freeVal
  let (vs, s) := s.freeVals s.imgLen
  ({ data := vs.map (BitVec.ofNat 8), poison := if v % 2 = 0 then [] else [0] }, s)

/-- A write to MBX_CMD: the command of the code (Table 16.3). FW_STAGE and PACK_INSTALL read an image from the
driver's memory. A reserved code completes with BAD_CMD (Table 16.4). -/
def State.writeMbxCmd (s : State) (v : Word) : State :=
  let c := bitsOf v.toNat 7 0
  if c = 0x01 then after (execGetInfo s) s
  else if c = 0x02 then after (execGetCert s) s
  else if c = 0x03 then after (execGetLog s) s
  else if c = 0x04 then after (execQuote s) s
  else if c = 0x11 then after (execFwCommit s) s
  else if c = 0x12 then after (execFwAbandon s) s
  else if s.sec.busy then { s with sec := { s.sec with collide := true } }
  else if c = 0x10 then
    let (img, s) := s.freeImage
    after (execFwStage img s) s
  else if c = 0x20 then
    let (img, s) := s.freeImage
    after (execPackInstall img s) s
  else s.mbxEnd mbBadCmd []

def State.writeSec (s : State) (a : Nat) (v : Word) : State :=
  if a = 0xB0000 then s.writeMbxCmd v
  else if a = 0xB0004 then
    { s with sec := { s.sec with collide := s.sec.collide && !v.getLsbD 1 } }
  else if a = 0xB0010 then s.writeLock a v
  else if rwMask a != 0#32 && s.sec.busy then { s with sec := { s.sec with collide := true } }
  else s.storeRw a v

def State.writeRel (s : State) (a : Nat) (v : Word) : State :=
  if a = 0xC0004 then after (execDevReset v s) s
  else if a = 0xC0008 then after (execColdReset v s) s
  else if a = 0xC0010 then after (execPartReset v s) s
  else if 0xC0044 ≤ a && a ≤ 0xC004C then
    let sh := 32 * ((a - 0xC0044) / 4)
    let keep := s.rel.suspect - (s.rel.suspect &&& (v.toNat * 2 ^ sh))
    { s with rel := { s.rel with suspect := keep } }
  else if a = 0xC0900 then
    s.setReg a (BitVec.ofNat 32 (Nat.min 24 (bitsOf v.toNat 4 0)))
  else s.storeRw a v

/-! ### DBG -/

def State.writeDbg (s : State) (a : Nat) (v : Word) : State :=
  if a = 0xF0000 then
    let s := s.storeRw a v
    let s := if v.getLsbD 8 then after (execDbgEnter s) s else s
    let s := if v.getLsbD 9 then after (execDbgLeave s) s else s
    let s := if v.getLsbD 10 then after (execDbgRun s) s else s
    if v.getLsbD 11 then after (execDbgHalt s) s else s
  else if a = 0xF0014 then
    (if s.regF 0xF0010 8 8 = 0 then after (execDbgStreamKeySet v s) s
     else after (execDbgInterleaveKeySet v s) s)
  else if a = 0xF0018 then { s with dbg := { s.dbg with keyHi := v } }
  else if a = 0xF0100 then
    let s := s.storeRw a v
    let s := if v.getLsbD 16 then after (execDbgPeekRead s) s else s
    if v.getLsbD 17 then after (execDbgPeekWrite s) s else s
  else if 0xF0200 ≤ a && a < 0xF0300 then
    { s with dbg := { s.dbg with data := patchBytes (fit 256 s.dbg.data) (a - 0xF0200) (natLe 4 v.toNat) } }
  else s.storeRw a v

/-! ### BAR2 -/

/-- Every pending vector that can send does (R264). -/
def State.sendAllPending (s : State) : State :=
  s.each (s.hp.pba.map (·.1)).eraseDups fun s v => s.sendPending v

/-- A write of the configuration space or the component registers. Entry into D3hot is a host-port reset (R266), after
which the function is in D3hot until the host puts it back into D0; D1 and D2 are not states of this function. -/
def State.writeCfg (s : State) (a : Nat) (v : Word) : State :=
  let m := cfgMask a
  let put (s : State) : State := { s with hp := { s.hp with
    cfg := FMap.set s.hp.cfg a ((FMap.get s.hp.cfg a (cfgReset a) &&& ~~~m) ||| (v &&& m)) } }
  if doeCtl ≤ a && a ≤ doeOut then { s with hp := { s.hp with doe := s.hp.doe.write a v } }
  else if m = 0#32 || (a = 0x110044 && (bitsOf v.toNat 1 0 = 1 || bitsOf v.toNat 1 0 = 2)) then s
  else if a = 0x110044 && bitsOf v.toNat 1 0 = 3 && (FMap.get s.hp.cfg a 0).toNat != 3 then
    put (after (execHostPortReset s) s)
  else put s

/-- A write into the MSI-X table or to the message control word; the PBA is read-only. -/
def State.writeBar2 (s : State) (a : Nat) (v : Word) : State :=
  let o := a - 0x100000
  if o < 0x8000 then
    let w := if o % 16 = 12 then v &&& 1 else v
    let s := { s with hp := { s.hp with msix := FMap.set s.hp.msix (o / 4) w } }
    s.sendPending (o / 16)
  else if a = msixControl then
    let s := { s with hp := { s.hp with msixEnable := v.getLsbD 15, msixMask := v.getLsbD 14 } }
    s.sendAllPending
  else s.writeCfg a v

/-! ### The whole space -/

/-- A write of an aligned word. Reserved offsets and RO fields discard it (R372). -/
def State.busWrite (s : State) (a : Nat) (v : Word) : State :=
  if 0x10000 ≤ a && a < 0x11000 && a % 0x100 = 0 then
    (if v.getLsbD 0 then after (execAttach ((a - 0x10000) / 0x100) s) s else s)
  else if 0x20000 ≤ a && a < 0x60000 && a % 0x40 = 0x18 then
    (s.storeRw a v).ringEnableBit ((a - 0x20000) / 0x40)
  else if a = 0x64004 then
    { s with fe := { s.fe with fqOvf := s.fe.fqOvf && !v.getLsbD 16 } }
  else if 0x70000 ≤ a && a < 0x80000 then s.writeEvt a v
  else if 0x80000 ≤ a && a < 0x90000 then s.writeNet a v
  else if a = migCtrl then after (execMigCtrlEnableClear v s) s
  else if 0xA0000 ≤ a && a < 0xB0000 then s.writePwr a v
  else if 0xB0000 ≤ a && a < 0xC0000 then s.writeSec a v
  else if 0xC0000 ≤ a && a < 0xD0000 then s.writeRel a v
  else if a = 0xD0000 then s.cntSelect v
  else if a = 0xDF000 then after (execTrigger v s) s
  else if 0xF0000 ≤ a && a < 0x100000 then s.writeDbg a v
  else if 0x100000 ≤ a then s.writeBar2 a v
  else s.storeRw a v

/-- REGISTER_WRITE (R6): of BAR0 or BAR2; one that is not of an aligned word is a bad access (R255). -/
def execRegisterWrite (addr : Nat) (value : Word) (s : State) : Host.Outcome State Fault Refusal :=
  .next (if addr % 4 = 0 then s.busWrite addr value else after (execBarBadAccess true s) s)

end Sys2Proof.Machine
end

