-- ==== Sys2Proof/Machine/Resume.lean ====
section
/-! DEFINITION. Translation walks, resumed tasks and ring timeouts (R235, R246 to R251). -/

namespace Sys2Proof.Machine

/-- Run a command again from step 5 of R231 with the data it reads from outside: those commands that name
ranges of segments. Assumption 92, DEDUCED. -/
def State.rerun (s : State) (ring seq : Nat) (data : Rd) : State :=
  match s.cmd? (cmdKey ring seq) with
  | none => s
  | some c =>
    let o := c.op
    if o = 0x01 then after (execPost ring seq data s) s
    else if o = 0x10 then after (execReamLoad ring seq data s) s
    else if o = 0x11 then after (execReamPatch ring seq data s) s
    else if o = 0x20 then after (execKeyInstall ring seq data s) s
    else if o = 0x22 then after (execKeyQuery ring seq s) s
    else if o = 0x23 then after (execShingleProfile ring seq data s) s
    else if o = 0x24 then after (execIngest ring seq s) s
    else if o = 0x32 then after (execRingSetup ring seq data s) s
    else if o = 0x51 then after (execCheckpoint ring seq s) s
    else s

/-! ### TRANSLATION_WALK_DONE (R246, R247) -/

/-- The entries the next walk of a command reads: a segment entry and one page-map entry. -/
def State.nextWalk (s : State) (c : Cmd) : Option (Nat × Nat) :=
  let rs := s.cmdRanges c
  let ps := s.pageMisses c.part rs
  match s.segMisses c.part rs with
  | (g, _) :: _ => some (g, ((ps.find? fun e => e.1 == g).map (·.2)).getD noPage)
  | [] => ps.head?

/-- A walk that read a poisoned map sheet: its pages read as invalid, and the command faults with
MAP_POISON. -/
def State.walkPoison (s : State) (k : Nat) (c : Cmd) (g page : Nat) : State :=
  match FMap.find (s.part c.part).segs g with
  | none => s
  | some v =>
    let s := (s.poisonT1 (v.mapSheet page)).poisonMapSheet c.part g page
    match firstSome (fun r => if r.seg = g then s.rangeFault c.part r else none) (s.cmdRanges c) with
    | some (off, n) => s.faultPark k c g 1 off n
    | none => s

/-- A walk of a command ends. -/
def State.walkEnd (s : State) (k ring seq : Nat) (c : Cmd) (mapPoison : Bool) (data : Rd) : State :=
  match s.nextWalk c with
  | none => s.rerun ring seq data
  | some (g, page) =>
    let s := s.walkFill c.part g page
    if (mapPoison || s.faultKind c.part g (page * pageSize) = 1) && page != noPage then s.walkPoison k c g page else s.rerun ring seq data

/-- TRANSLATION_WALK_DONE: of one of the eight commands that have waited longest. -/
def execTranslationWalkDone (ring seq : Nat) (mapPoison : Bool) (dir : Rd) (s : State) :
    Host.Outcome State Fault Refusal :=
  let k := cmdKey ring seq
  .next (match s.cmd? k with
    | none => s
    | some c =>
      if c.phase = .walking && (s.fe.walks.take 8).contains k then s.walkEnd k ring seq c mapPoison dir else s)

/-! ### FAULT_RESUME RESUME (R251) -/

/-- Resume one task: its record is freed, and its command is checked again from step 5. -/
def State.resumeTask (s : State) (dirs : List (Nat × Rd)) (k : Nat) : State :=
  let s := (s.freeTaskOf k).recheck k
  let data := ((dirs.find? fun e => e.1 == k).map (·.2)).getD { data := [] }
  match s.cmd? k with
  | some c => if c.phase = .walking then s.rerun c.ring c.seq data else s
  | none => s

/-- FAULT_RESUME RESUME: `dirs` gives the data read for each command that goes on. -/
def execFaultResumeResume (ring seq : Nat) (dirs : List (Nat × Rd)) (s : State) :
    Host.Outcome State Fault Refusal :=
  let k := cmdKey ring seq
  .next (if !s.segFree then s else s.front k 0x34 fun t c =>
    if c.f 16 1 != 0 then s
    else if t.foreignTask c.part (c.f 18 2) then t.finish k stNoAccess
    else
      let ts := t.namedTasks c.part (c.f 18 2)
      let s := t.each ts fun s e => s.resumeTask dirs e.2
      (if ts.isEmpty then s else s.recheckHeld).finish k stOk ts.length)

/-! ### The end of a drain (R244) -/

/-- Host-cached lines in the frames a drain zeroes (R260). -/
def State.drainLines (s : State) (d : SegDrain) : List Nat :=
  match FMap.find (s.part d.part).segs d.seg with
  | none => []
  | some v =>
    if v.tier != 1 then []
    else
      let fs : List (Nat × Nat) := match d.pages with
        | some (f, n) => (v.map.filter fun e => inRange f n e.1).map fun e => (e.2, pageSize)
        | none => v.owns
      (fs.map fun (a, n) => s.trackedIn a n).flatten

/-- SEGMENT_DRAIN_DONE: the drain of a REMOVE or UNMAP is over and no host caches a line of its frames. They are
zeroed and released, posts that are not admitted and had passed the check of the range are checked again, and the
command completes, with every WINDOW_REMOVE of a window that goes with the segment. Assumption 85, DEDUCED. -/
def execSegmentDrainDone (part seg : Nat) (s : State) : Host.Outcome State Fault Refusal :=
  .next (match s.fe.drain with
    | none => s
    | some d =>
      if d.part != part || d.seg != seg || !s.drained d then s
      else if !(s.drainLines d).isEmpty then s.snoop (s.drainLines d)
      else
        let ks := (s.unadmitted fun _ => true).filter fun k => (s.cmd? k).any fun c => s.usesPages c part seg d.pages
        let rs := if d.pages.isSome then []
          else ((s.winsOn part seg).filterMap (FMap.find s.net.wins ·)).flatMap s.winRemoves
        let s := match d.pages with
          | some (f, n) => s.dropPages part seg f n
          | none => s.removeSeg part seg
        let s := s.each ks fun s k => match s.cmd? k with
          | some c => s.recheckOn k c (s.cmdRanges c)
          | none => s
        let s := s.each rs fun s k => s.finish k stOk
        ({ s with fe := { s.fe with drain := none } }).finish d.cmd stOk)

/-! ### RING_TIMEOUT (R235, Table 10.12) -/

/-- An admitted post is not ended: its update has go, or its last result sheet has been handed over.
Assumption 91, DEDUCED. -/
def Post.pastEnd (v : Post) (resLen : Nat) : Bool :=
  v.commit == 2 || (v.step.isSome && v.commit == 0) || v.allHanded resLen

/-- What a ring timeout does with a command, by the state it is in. -/
def State.timeoutCmd (s : State) (k : Nat) (c : Cmd) : State :=
  match FMap.find s.ingests k with
  | some i => (if c.iSealed then s.zeroDst c i.len else s).ingestEnd k stTimeout 0
  | none =>
    if s.notStarted k c then s.endIdle [k] stTimeout
    else match s.post? k with
      | some v =>
        if v.pastEnd (c.resLen) then s.causeTo c.part cRingTimeout
        else
          let s := (s.failPost k stTimeout).modPost k fun v => { v with endedAt := some s.now }
          s.settle k
      | none => s.causeTo c.part cRingTimeout

/-- RING_TIMEOUT: a command's time reaches TIMEOUT_US, once. -/
def execRingTimeout (ring seq : Nat) (s : State) : Host.Outcome State Fault Refusal :=
  let k := cmdKey ring seq
  .next (match s.cmd? k with
    | none => s
    | some c =>
      if c.timedOut || s.now < c.time + 1000 * (s.ring ring).timeoutUs then s
      else
        let s := (s.count 0x062 ring 1).setCmd k { c with timedOut := true }
        s.timeoutCmd k c)

end Sys2Proof.Machine
end

