-- ==== Sys2Proof/Machine/Dispatch.lean ====
section
/-! DEFINITION. The dispatch: one arm per command, each one direct call of its meaning. -/

namespace Sys2Proof.Machine

def exec (i : Instr) (s : State) : Host.Outcome State Fault Refusal :=
  match i with
  | .post a b c => Sys2Proof.Machine.execPost a b c s
  | .reamLoad a b c => Sys2Proof.Machine.execReamLoad a b c s
  | .reamPatch a b c => Sys2Proof.Machine.execReamPatch a b c s
  | .reamUnload a b => Sys2Proof.Machine.execReamUnload a b s
  | .tableCommit a b => Sys2Proof.Machine.execTableCommit a b s
  | .commitStepsDrained => Sys2Proof.Machine.execCommitStepsDrained s
  | .keyInstall a b c => Sys2Proof.Machine.execKeyInstall a b c s
  | .keyUnwrapDone a => Sys2Proof.Machine.execKeyUnwrapDone a s
  | .keyErase a b => Sys2Proof.Machine.execKeyErase a b s
  | .keyEraseFinish a => Sys2Proof.Machine.execKeyEraseFinish a s
  | .keyQuery a b => Sys2Proof.Machine.execKeyQuery a b s
  | .shingleProfile a b c => Sys2Proof.Machine.execShingleProfile a b c s
  | .ingest a b => Sys2Proof.Machine.execIngest a b s
  | .ingestDecryptDone a b => Sys2Proof.Machine.execIngestDecryptDone a b s
  | .shingleDone a b => Sys2Proof.Machine.execShingleDone a b s
  | .partAttach a b => Sys2Proof.Machine.execPartAttach a b s
  | .partDetach a b => Sys2Proof.Machine.execPartDetach a b s
  | .detachFinish a => Sys2Proof.Machine.execDetachFinish a s
  | .ringSetup a b c => Sys2Proof.Machine.execRingSetup a b c s
  | .segSetupCreate a b => Sys2Proof.Machine.execSegSetupCreate a b s
  | .segSetupRemove a b => Sys2Proof.Machine.execSegSetupRemove a b s
  | .segSetupMap a b => Sys2Proof.Machine.execSegSetupMap a b s
  | .segSetupUnmap a b => Sys2Proof.Machine.execSegSetupUnmap a b s
  | .segmentDrainDone a b => Sys2Proof.Machine.execSegmentDrainDone a b s
  | .segSetupFaultArea a b => Sys2Proof.Machine.execSegSetupFaultArea a b s
  | .faultResumeResume a b c => Sys2Proof.Machine.execFaultResumeResume a b c s
  | .faultResumeEnd a b => Sys2Proof.Machine.execFaultResumeEnd a b s
  | .windowSetup a b => Sys2Proof.Machine.execWindowSetup a b s
  | .windowRemove a b => Sys2Proof.Machine.execWindowRemove a b s
  | .windowDrainDone a b => Sys2Proof.Machine.execWindowDrainDone a b s
  | .partnerPairSender a b => Sys2Proof.Machine.execPartnerPairSender a b s
  | .partnerPairReceiver a b => Sys2Proof.Machine.execPartnerPairReceiver a b s
  | .partnerPairUnpair a b => Sys2Proof.Machine.execPartnerPairUnpair a b s
  | .checkpoint a b => Sys2Proof.Machine.execCheckpoint a b s
  | .restore a b c => Sys2Proof.Machine.execRestore a b c s
  | .attach a => Sys2Proof.Machine.execAttach a s
  | .ringEnable a => Sys2Proof.Machine.execRingEnable a s
  | .ringDisable a => Sys2Proof.Machine.execRingDisable a s
  | .ringDrainDone a => Sys2Proof.Machine.execRingDrainDone a s
  | .ringServeTurn a => Sys2Proof.Machine.execRingServeTurn a s
  | .descriptorReadData a b => Sys2Proof.Machine.execDescriptorReadData a b s
  | .descriptorRereadTimer a => Sys2Proof.Machine.execDescriptorRereadTimer a s
  | .armWriteAccepted a => Sys2Proof.Machine.execArmWriteAccepted a s
  | .doorbellRereadData a b => Sys2Proof.Machine.execDoorbellRereadData a b s
  | .hostSnoop a b => Sys2Proof.Machine.execHostSnoop a b s
  | .doorbellWindowWrite a b c => Sys2Proof.Machine.execDoorbellWindowWrite a b c s
  | .translationWalkDone a b c d => Sys2Proof.Machine.execTranslationWalkDone a b c d s
  | .faultRecordAccepted a => Sys2Proof.Machine.execFaultRecordAccepted a s
  | .stagingStart a b => Sys2Proof.Machine.execStagingStart a b s
  | .beaterBlockDecode a b c => Sys2Proof.Machine.execBeaterBlockDecode a b c s
  | .inputStagingDone a b c => Sys2Proof.Machine.execInputStagingDone a b c s
  | .admissionSlotOpen => Sys2Proof.Machine.execAdmissionSlotOpen s
  | .sweepBoundary => Sys2Proof.Machine.execSweepBoundary s
  | .intervalBoundary => Sys2Proof.Machine.execIntervalBoundary s
  | .calenderSliceEnd a b => Sys2Proof.Machine.execCalenderSliceEnd a b s
  | .stageMoveSourceRelease => Sys2Proof.Machine.execStageMoveSourceRelease s
  | .fill a b => Sys2Proof.Machine.execFill a b s
  | .weightLoadDone a => Sys2Proof.Machine.execWeightLoadDone a s
  | .fillStart a => Sys2Proof.Machine.execFillStart a s
  | .fillComplete a => Sys2Proof.Machine.execFillComplete a s
  | .stream a b => Sys2Proof.Machine.execStream a b s
  | .deckle a b => Sys2Proof.Machine.execDeckle a b s
  | .endOp a b => Sys2Proof.Machine.execEndOp a b s
  | .endComplete a b => Sys2Proof.Machine.execEndComplete a b s
  | .wait a b => Sys2Proof.Machine.execWait a b s
  | .add a b => Sys2Proof.Machine.execAdd a b s
  | .sub a b => Sys2Proof.Machine.execSub a b s
  | .mul a b => Sys2Proof.Machine.execMul a b s
  | .max a b => Sys2Proof.Machine.execMax a b s
  | .min a b => Sys2Proof.Machine.execMin a b s
  | .affine a b => Sys2Proof.Machine.execAffine a b s
  | .cmp a b => Sys2Proof.Machine.execCmp a b s
  | .select a b => Sys2Proof.Machine.execSelect a b s
  | .unary a b => Sys2Proof.Machine.execUnary a b s
  | .func a b => Sys2Proof.Machine.execFunc a b s
  | .convert a b => Sys2Proof.Machine.execConvert a b s
  | .quant a b => Sys2Proof.Machine.execQuant a b s
  | .rescale a b => Sys2Proof.Machine.execRescale a b s
  | .rotate a b => Sys2Proof.Machine.execRotate a b s
  | .reduceRow a b => Sys2Proof.Machine.execReduceRow a b s
  | .reduceCol a b => Sys2Proof.Machine.execReduceCol a b s
  | .vectorInstructionDone a => Sys2Proof.Machine.execVectorInstructionDone a s
  | .fetch a b => Sys2Proof.Machine.execFetch a b s
  | .put a b => Sys2Proof.Machine.execPut a b s
  | .fetchComplete a b c => Sys2Proof.Machine.execFetchComplete a b c s
  | .putComplete a b => Sys2Proof.Machine.execPutComplete a b s
  | .feltArrival a b => Sys2Proof.Machine.execFeltArrival a b s
  | .dispatch a b => Sys2Proof.Machine.execDispatch a b s
  | .combine a b => Sys2Proof.Machine.execCombine a b s
  | .gradDispatch a b => Sys2Proof.Machine.execGradDispatch a b s
  | .gatherEntryArrival a b => Sys2Proof.Machine.execGatherEntryArrival a b s
  | .gatherEndMarkerArrival a b => Sys2Proof.Machine.execGatherEndMarkerArrival a b s
  | .gatherRowReadDone a b c d => Sys2Proof.Machine.execGatherRowReadDone a b c d s
  | .partialArrival a b => Sys2Proof.Machine.execPartialArrival a b s
  | .combineEndMarkerArrival a b => Sys2Proof.Machine.execCombineEndMarkerArrival a b s
  | .overMarkerArrival a b => Sys2Proof.Machine.execOverMarkerArrival a b s
  | .updateStepStart a b c => Sys2Proof.Machine.execUpdateStepStart a b c s
  | .gradientArrival a b => Sys2Proof.Machine.execGradientArrival a b s
  | .updateEndMarkerArrival a b => Sys2Proof.Machine.execUpdateEndMarkerArrival a b s
  | .commitRun => Sys2Proof.Machine.execCommitRun s
  | .updateWritesDone a => Sys2Proof.Machine.execUpdateWritesDone a s
  | .escCountReport a => Sys2Proof.Machine.execEscCountReport a s
  | .completionRecordWrite a => Sys2Proof.Machine.execCompletionRecordWrite a s
  | .completionRecordAccepted a => Sys2Proof.Machine.execCompletionRecordAccepted a s
  | .ringTimeout a b => Sys2Proof.Machine.execRingTimeout a b s
  | .migrationPromote a b c d => Sys2Proof.Machine.execMigrationPromote a b c d s
  | .migrationDemote a b c => Sys2Proof.Machine.execMigrationDemote a b c s
  | .migrationCopyDone a b c => Sys2Proof.Machine.execMigrationCopyDone a b c s
  | .migrationCatchUpDone a b c => Sys2Proof.Machine.execMigrationCatchUpDone a b c s
  | .migrationRelease a b c => Sys2Proof.Machine.execMigrationRelease a b c s
  | .migCtrlEnableClear a => Sys2Proof.Machine.execMigCtrlEnableClear a s
  | .staleRowWriteBack a b c => Sys2Proof.Machine.execStaleRowWriteBack a b c s
  | .vaultRowsAppend a b => Sys2Proof.Machine.execVaultRowsAppend a b s
  | .vaultAppendDurable => Sys2Proof.Machine.execVaultAppendDurable s
  | .stateRecordTimer => Sys2Proof.Machine.execStateRecordTimer s
  | .partnerRecordWrite => Sys2Proof.Machine.execPartnerRecordWrite s
  | .partnerRecordArrival a => Sys2Proof.Machine.execPartnerRecordArrival a s
  | .partnerAckReceive a b c => Sys2Proof.Machine.execPartnerAckReceive a b c s
  | .partnerHelloReceive a b c d => Sys2Proof.Machine.execPartnerHelloReceive a b c d s
  | .partnerHelloTimeout => Sys2Proof.Machine.execPartnerHelloTimeout s
  | .partnerStall => Sys2Proof.Machine.execPartnerStall s
  | .partnerRestoreRequest a => Sys2Proof.Machine.execPartnerRestoreRequest a s
  | .t0CorrectedWriteBack a => Sys2Proof.Machine.execT0CorrectedWriteBack a s
  | .t0ScrubPass a b => Sys2Proof.Machine.execT0ScrubPass a b s
  | .t1ScrubPass a b => Sys2Proof.Machine.execT1ScrubPass a b s
  | .t1PackageLost a b => Sys2Proof.Machine.execT1PackageLost a b s
  | .poisonRepair a b c => Sys2Proof.Machine.execPoisonRepair a b c s
  | .reamLineReload a => Sys2Proof.Machine.execReamLineReload a s
  | .d2dFlitReplay a => Sys2Proof.Machine.execD2dFlitReplay a s
  | .d2dRetrain => Sys2Proof.Machine.execD2dRetrain s
  | .watchdogTimeoutEnd a => Sys2Proof.Machine.execWatchdogTimeoutEnd a s
  | .watchdogContext a b => Sys2Proof.Machine.execWatchdogContext a b s
  | .watchdogGather a b => Sys2Proof.Machine.execWatchdogGather a b s
  | .watchdogAdmit => Sys2Proof.Machine.execWatchdogAdmit s
  | .watchdogMalformed a b => Sys2Proof.Machine.execWatchdogMalformed a b s
  | .watchdogFrontEnd => Sys2Proof.Machine.execWatchdogFrontEnd s
  | .watchdogCore a => Sys2Proof.Machine.execWatchdogCore a s
  | .devReset a => Sys2Proof.Machine.execDevReset a s
  | .coldReset a => Sys2Proof.Machine.execColdReset a s
  | .bootFallback => Sys2Proof.Machine.execBootFallback s
  | .partReset a => Sys2Proof.Machine.execPartReset a s
  | .partResetFinish a => Sys2Proof.Machine.execPartResetFinish a s
  | .inputApplied => Sys2Proof.Machine.execInputApplied s
  | .standbyEntry a b => Sys2Proof.Machine.execStandbyEntry a b s
  | .inputPowerSample a b => Sys2Proof.Machine.execInputPowerSample a b s
  | .flushEndDurable => Sys2Proof.Machine.execFlushEndDurable s
  | .safeInputStable => Sys2Proof.Machine.execSafeInputStable s
  | .bankDischarged => Sys2Proof.Machine.execBankDischarged s
  | .modResetLow a => Sys2Proof.Machine.execModResetLow a s
  | .modResetRelease => Sys2Proof.Machine.execModResetRelease s
  | .hardwareTrip => Sys2Proof.Machine.execHardwareTrip s
  | .dramSensorReading a b c => Sys2Proof.Machine.execDramSensorReading a b c s
  | .junctionSensorReading a b c => Sys2Proof.Machine.execJunctionSensorReading a b c s
  | .coolantSensorReading a b c => Sys2Proof.Machine.execCoolantSensorReading a b c s
  | .coolDemandUpdate => Sys2Proof.Machine.execCoolDemandUpdate s
  | .powerComparison a => Sys2Proof.Machine.execPowerComparison a s
  | .wakeRampDone => Sys2Proof.Machine.execWakeRampDone s
  | .tileGroupUsable a => Sys2Proof.Machine.execTileGroupUsable a s
  | .bankEstimate a b => Sys2Proof.Machine.execBankEstimate a b s
  | .bankChargeTimeout => Sys2Proof.Machine.execBankChargeTimeout s
  | .bankHealthTestTimer => Sys2Proof.Machine.execBankHealthTestTimer s
  | .bankHealthTestDone a b => Sys2Proof.Machine.execBankHealthTestDone a b s
  | .bankTest a => Sys2Proof.Machine.execBankTest a s
  | .flushClear a b => Sys2Proof.Machine.execFlushClear a b s
  | .pwrCap a => Sys2Proof.Machine.execPwrCap a s
  | .slew a => Sys2Proof.Machine.execSlew a s
  | .lock a b => Sys2Proof.Machine.execLock a b s
  | .hostPortReset => Sys2Proof.Machine.execHostPortReset s
  | .linkRecovery a b => Sys2Proof.Machine.execLinkRecovery a b s
  | .hostLinkL0 a b c => Sys2Proof.Machine.execHostLinkL0 a b c s
  | .goResponse a => Sys2Proof.Machine.execGoResponse a s
  | .cxlMemRead a => Sys2Proof.Machine.execCxlMemRead a s
  | .cxlMemWrite a b c => Sys2Proof.Machine.execCxlMemWrite a b c s
  | .bisnpResponse a => Sys2Proof.Machine.execBisnpResponse a s
  | .msixUnmask a => Sys2Proof.Machine.execMsixUnmask a s
  | .barBadAccess a => Sys2Proof.Machine.execBarBadAccess a s
  | .portEnable a => Sys2Proof.Machine.execPortEnable a s
  | .portDisable a => Sys2Proof.Machine.execPortDisable a s
  | .portLinkUp a => Sys2Proof.Machine.execPortLinkUp a s
  | .linkDown a => Sys2Proof.Machine.execLinkDown a s
  | .qpConnect => Sys2Proof.Machine.execQpConnect s
  | .qpReset => Sys2Proof.Machine.execQpReset s
  | .frameReceive a b => Sys2Proof.Machine.execFrameReceive a b s
  | .rdmaWriteReceive a b c d => Sys2Proof.Machine.execRdmaWriteReceive a b c d s
  | .rdmaReadRequestReceive a b c d => Sys2Proof.Machine.execRdmaReadRequestReceive a b c d s
  | .rdmaReadResponseReceive a b c => Sys2Proof.Machine.execRdmaReadResponseReceive a b c s
  | .sendReceive a b => Sys2Proof.Machine.execSendReceive a b s
  | .ackReceive a b => Sys2Proof.Machine.execAckReceive a b s
  | .nakReceive a b c => Sys2Proof.Machine.execNakReceive a b c s
  | .cnpReceive a => Sys2Proof.Machine.execCnpReceive a s
  | .ackTimeout a => Sys2Proof.Machine.execAckTimeout a s
  | .rnrRetryTimer a => Sys2Proof.Machine.execRnrRetryTimer a s
  | .ccPeriod a => Sys2Proof.Machine.execCcPeriod a s
  | .packetSendTurn a => Sys2Proof.Machine.execPacketSendTurn a s
  | .coalesceTimerExpiry a => Sys2Proof.Machine.execCoalesceTimerExpiry a s
  | .evtAck a => Sys2Proof.Machine.execEvtAck a s
  | .trigger a => Sys2Proof.Machine.execTrigger a s
  | .timePairComplete => Sys2Proof.Machine.execTimePairComplete s
  | .cntSel a => Sys2Proof.Machine.execCntSel a s
  | .cntLo => Sys2Proof.Machine.execCntLo s
  | .lowWordRead a => Sys2Proof.Machine.execLowWordRead a s
  | .rcRead a => Sys2Proof.Machine.execRcRead a s
  | .registerWrite a b => Sys2Proof.Machine.execRegisterWrite a b s
  | .getInfo => Sys2Proof.Machine.execGetInfo s
  | .getCert => Sys2Proof.Machine.execGetCert s
  | .getLog => Sys2Proof.Machine.execGetLog s
  | .quote => Sys2Proof.Machine.execQuote s
  | .fwStage a => Sys2Proof.Machine.execFwStage a s
  | .fwCommit => Sys2Proof.Machine.execFwCommit s
  | .fwAbandon => Sys2Proof.Machine.execFwAbandon s
  | .packInstall a => Sys2Proof.Machine.execPackInstall a s
  | .dbgEnter => Sys2Proof.Machine.execDbgEnter s
  | .dbgLeave => Sys2Proof.Machine.execDbgLeave s
  | .dbgRun => Sys2Proof.Machine.execDbgRun s
  | .dbgHalt => Sys2Proof.Machine.execDbgHalt s
  | .dbgStreamKeySet a => Sys2Proof.Machine.execDbgStreamKeySet a s
  | .dbgInterleaveKeySet a => Sys2Proof.Machine.execDbgInterleaveKeySet a s
  | .dbgPeekRead => Sys2Proof.Machine.execDbgPeekRead s
  | .dbgPeekWrite => Sys2Proof.Machine.execDbgPeekWrite s
  | .peekCopyDone => Sys2Proof.Machine.execPeekCopyDone s
  | .setEndpointId a => Sys2Proof.Machine.execSetEndpointId a s
  | .getEndpointId => Sys2Proof.Machine.execGetEndpointId s
  | .getEndpointUuid => Sys2Proof.Machine.execGetEndpointUuid s
  | .getMctpVersionSupport => Sys2Proof.Machine.execGetMctpVersionSupport s
  | .getMessageTypeSupport => Sys2Proof.Machine.execGetMessageTypeSupport s
  | .getTid => Sys2Proof.Machine.execGetTid s
  | .setTid a => Sys2Proof.Machine.execSetTid a s
  | .getPldmVersion a => Sys2Proof.Machine.execGetPldmVersion a s
  | .getPldmTypes => Sys2Proof.Machine.execGetPldmTypes s
  | .getPldmCommands a => Sys2Proof.Machine.execGetPldmCommands a s
  | .getPdrRepositoryInfo => Sys2Proof.Machine.execGetPdrRepositoryInfo s
  | .getPdr a => Sys2Proof.Machine.execGetPdr a s
  | .getSensorReading a => Sys2Proof.Machine.execGetSensorReading a s
  | .getStateSensorReadings a => Sys2Proof.Machine.execGetStateSensorReadings a s
  | .setNumericEffecterValue a b => Sys2Proof.Machine.execSetNumericEffecterValue a b s
  | .getNumericEffecterValue a => Sys2Proof.Machine.execGetNumericEffecterValue a s
  | .setEventReceiver a => Sys2Proof.Machine.execSetEventReceiver a s
  | .pollForPlatformEventMessage => Sys2Proof.Machine.execPollForPlatformEventMessage s
  | .reamLoadCopyDone => Sys2Proof.Machine.execReamLoadCopyDone s
  | .vaultBlockErase a => Sys2Proof.Machine.execVaultBlockErase a s
  | .perstNRelease => Sys2Proof.Machine.execPerstNRelease s
  | .mailboxCommandDone => Sys2Proof.Machine.execMailboxCommandDone s

end Sys2Proof.Machine
end

