-- ==== Sys2Proof/Machine/Tick.lean ====
section
/-! DEFINITION. What happens without a command (assumption 2, DESIGN CHOICE): the clocks of every running domain, and the
events of circuits and of control-core firmware that no command of the table stands for. How many of them fall into one
tick, and where, are free values. -/

namespace Sys2Proof.Machine

/-- Cycles a domain counts in this tick: the host port one, every other running domain an opaque number. -/
def State.tickOf (s : State) (d : Nat) : Nat :=
  if d = 21 then 1 else if s.domainRuns d then Config.tickCycles s.free d else 0

/-- The counters of the domains advance (R21). -/
def State.tickClocks (s : State) : State :=
  { s with
    free := s.free + 1
    rel := { s.rel with d2dAt := [0, 1].foldl (fun m d =>
      FMap.set m d (FMap.get m d 0 + s.tickOf (d2dDomain d) * (if s.ream.half then 25 else 50))) s.rel.d2dAt }
    clk := (List.range 40).foldl (fun m d => FMap.set m d (FMap.get m d 0 + s.tickOf d)) s.clk }

/-- A free number of events, at most `most`, in a counter; and whether there were any. -/
def State.drift (s : State) (id inst most : Nat) : Nat × State :=
  let (n, s) := s.freeVal
  (n % (most + 1), if n % (most + 1) = 0 then s else s.count id inst (n % (most + 1)))

/-- Every tile group that runs has at least `mhz` (R20). -/
def State.allAt (s : State) (mhz : Nat) : Bool := s.pwr.awake.all fun g => decide (mhz ≤ s.mhz g)

/-- The scheduled crossings, writer and reader: felt and tile group, tile group and channel group, die-to-die link. -/
def crossings : List (Nat × Nat) :=
  ((List.range 9).map fun g => [(18, g), (g, 18), (g, 9 + g), (9 + g, g)]).flatten ++ [(19, 20), (20, 19)]

/-- Queues that may fill hold their writers: outside both of R20's conditions CDC_HOLD counts cycles of the writer, and
outside an emergency CDC_HOLD_SCHED is raised. -/
def State.tickCdc (s : State) : State :=
  if s.allAt 640 || (s.ream.half && s.allAt 320) then s
  else
    let (held, t) := crossings.foldl (fun (h, t) (w, r) =>
      let (n, t) := State.drift t 0x003 (40 * w + r) (s.tickOf w)
      (h || n != 0, t)) (false, s)
    if held && s.pwr.emerg.isEmpty then t.causeAll cCdcHold else t

/-- One tile: its corrected write-backs take their MAINT entries (R174); single-bit errors its scratchpad corrected
(R64), rows its array fed late for want of operands while a fill executes (R78), and the cycles a STREAM has been
frozen (R89). -/
def State.tickTile (s : State) (t : Nat) : State :=
  let s := s.drainWb t
  let x := s.tile t
  let c := s.tickOf (t / 8)
  let s := (s.drift 0x009 t c).2
  let s := if x.fills.any (·.started) then (s.drift 0x00C t c).2 else s
  if x.stream.any (·.frozen) then s.count 0x00E t c else s

/-- A scratchpad word has an error that its code cannot correct: its line is poisoned (R64). -/
def State.strikeLine (s : State) (t l : Nat) : State :=
  if s.spBad t l then s
  else ({ s with mem := s.mem.mark (spAddr t (256 * l) / 256) true }).plogAdd 2 t 0xFFFF l

/-- A burst of tier-1 has an error that its link ECC cannot correct: rebuilt from the stripe, or, where the group is
EXPOSED or another sheet of the stripe fails too, poisoned (R191). -/
def State.strikeT1 (s : State) (n : Nat) (alone : Bool) : State :=
  let g := s.t1g (t1Ctrl n)
  if g.st = 0 && alone then s.count 0x044 (t1Ctrl n) 1
  else s.poisonT1 n

/-- A unit of the vault's flash can no longer be corrected: the record it holds is poisoned for the next restore
(R188). -/
def State.strikeVault (s : State) (i : Nat) : State :=
  let v := s.rel.vault
  { s with rel := { s.rel with vault := { v with
      log := v.log.zipIdx.map fun (r, k) => if k = i && r.durable then { r with poison := true } else r } } }

/-- Errors of the memories: none or one of each kind, at a free place. -/
def State.tickErrors (s : State) : State :=
  let (n, s) := s.freeVal
  let (a, s) := s.freeVal
  let (b, s) := s.freeVal
  let s := if n.testBit 0 && s.enabled (a % 72) then s.strikeLine (a % 72) (b % 24576) else s
  let s := if n.testBit 1 && s.enabled (a % 72) then s.strikeT0 (a % 72) (b % (t0Limit / 256)) else s
  let s := if n.testBit 2 then s.strikeT1 (b % (t1Limit / 256 + 2 ^ 24)) (n.testBit 3) else s
  if n.testBit 4 then s.strikeVault b else s

/-- The receive buffers are read out at a free pace (R280). -/
def State.tickRx (s : State) : State :=
  let (n, s) := s.freeVal
  { s with net := { s.net with rxFill := FMap.mapV s.net.rxFill fun _ b => b - n % (b + 1) } }

/-- Errors of the host port's bus: the link leaves L0 for RECOVERY, which LINK_RECOVERY ends (R265, R270). -/
def State.tickLink (s : State) : State :=
  if s.hp.link != 2 then s
  else
    let (n, s) := s.freeVal
    if n % 2 = 1 then { s with hp := { s.hp with link := 3 } } else s

/-- Some region is sealed (R196): a sealed segment, or what a sealed ream keeps. -/
def State.anySealed (s : State) : Bool :=
  (s.ream.resident && s.ream.sealed) || s.allSegs.any fun (_, _, v) => v.sealed

/-- The control cores' firmware may try to reach sealed contents, which the hardware refuses (R14). -/
def State.tickDeny (s : State) (cycles : Nat) : State := if s.anySealed then (s.drift 0x056 0 cycles).2 else s

/-- Coded data moves (R214): a coded input is being staged, a coded image loaded or patched, or coded weights reloaded. -/
def State.codedMoves (s : State) : Bool :=
  (s.posts.any fun p => p.2.phase == 1 && (s.cmd? p.1).any (·.coded))
    || s.ream.job.any (fun j => j.kind != 2 && (s.cmd? j.cmd).any (·.coded))
    || ((s.ream.act.recs ++ (s.ream.old.map (·.recs)).getD []).any (fun r => !r.coded.isEmpty)
          && s.tiles.any fun x => x.2.st == 3)

/-- The smoothing queue, of 2 MiB, holds a free number of coded sheets while coded data moves; full, it holds the link's
next one, for a free number of slots (R214). -/
def State.tickBeater (s : State) (cycles : Nat) : State :=
  if !s.codedMoves then { s with io := { s.io with smooth := 0, smoothHeld := false } }
  else
    let (n, s) := s.freeVal
    let q := n % 8193
    let s := { s with io := { s.io with smooth := q, smoothHeld := q == 8192 } }
    if q = 8192 then (s.drift 0x05A 0 cycles).2 else s

/-- Traffic of the felt's maintenance slots (R306). -/
inductive Maint where
  | counts | calender | migration | loads
  deriving DecidableEq, Repr

/-- The order in which the slots serve it. -/
def Maint.order : List Maint := [.counts, .calender, .migration, .loads]

/-- Some traffic of a class waits; `cores` says that the control cores collect telemetry. -/
def State.maintWaits (s : State) (cores : Bool) : Maint → Bool
  | .counts => !s.ream.escMsgs.isEmpty || cores
  | .calender => s.tiles.any fun x => x.2.slice || x.2.round
  | .migration => s.gat.dirs.any fun d => d.2.any fun e => e.2.st == 1 || e.2.st == 3 || e.2.stale
  | .loads => s.ream.job.any (·.kind == 1) || !s.ream.moves.isEmpty

/-- The class that the next maintenance slot serves. -/
def State.maintNext (s : State) (cores : Bool) : Option Maint := Maint.order.find? (s.maintWaits cores)

/-- Cycles of the felt in which maintenance traffic waits and finds no free slot (R306). -/
def State.tickMaint (s : State) (cycles : Nat) : State :=
  let (n, s) := s.freeVal
  if (s.maintNext (n % 2 == 1)).isSome then (s.drift 0x0A4 0 cycles).2 else s

/-- A cable is seated or pulled (R353): CBL_PRSNT_N of one connector changes, or none does. Ports without their cable are
DOWN; one whose cables are seated again trains. -/
def State.tickCable (s : State) : State :=
  let (n, s) := s.freeVal
  if n % 2 = 0 then s
  else
    let g := n / 2 % 4
    let off := if s.net.noCable.contains g then s.net.noCable.filter (· != g) else s.net.noCable ++ [g]
    let s := { s with net := { s.net with noCable := off } }
    s.each ((List.range 16).filter fun m => (s.port m).enabled) fun s m =>
      let p := s.port m
      if !s.cabled m then (if p.link = 0 then s else s.linkLost m 0)
      else if p.link = 0 && p.pmd < 2 && !s.net.modeErr.testBit (m / 4) then s.setPort m { p with link := 1 }
      else s

/-- A tile in STARTUP runs one calender round of the built-in pack (R332); whether a pattern mismatches is a free value. -/
def State.startRound (s : State) (t : Nat) : State :=
  if (s.tile t).st != 0 then s
  else
    let (n, s) := s.freeVal
    (if n % 2 = 1 then s.sliceFail t 0 else s).count 0x0B6 t 1

/-- The last rows of Table 15.10: the calender round, then ON, and the held writes of ATTACH take effect (R332). -/
def State.bootDone (s : State) : State :=
  if s.pwr.st != 2 then s
  else
    let s := s.each s.tileList State.startRound
    let ps := s.pwr.attach
    let s := State.setPst { s with pwr := { s.pwr with attach := [] } } 3
    s.each ps State.attachNow

/-- A tick: the clocks, then what may have happened meanwhile. -/
def State.tick (s : State) : State :=
  let t := (((s.tickClocks).tickDeny (s.tickOf 31)).tickBeater (s.tickOf 32)).tickMaint (s.tickOf 18)
  let t := t.each ((List.range 72).filter s.enabled) State.tickTile
  t.tickCdc.tickErrors.tickLink.tickRx.tickCable.bootDone

end Sys2Proof.Machine
end

