-- ==== Sys2Proof/Machine/Step.lean ====
section
/-! DEFINITION. One step of the block: the command at the front of the queue, or a tick of the
clocks when none waits. -/

namespace Sys2Proof.Machine

/-- A step: run the front command with the queue's rest; on an empty queue the clocks tick
(assumption 2, DESIGN CHOICE). Assumption 109, DEDUCED; an absent occasion changes nothing: assumption 1, DESIGN CHOICE. -/
def step (s : State) : Host.Outcome State Fault Refusal :=
  match s.pending with
  | [] => .next s.tick
  | c :: cs => exec c { s with pending := cs }

/-- Put the command a word spells at the front of the queue; no word spells one. Assumption 111, DESIGN CHOICE. -/
def State.withFetchWord (s : State) (nbits w : Nat) : State :=
  match Sys2Proof.decodeTableWord nbits w with
  | some c => { s with pending := c :: s.pending }
  | none => s

end Sys2Proof.Machine
end

