-- ==== Sys2Proof/WellFormed.lean ====
section
/-! DEFINITION. Which commands are well formed: each operand lies in the range the spec gives the thing
it names. The meanings are total and answer for the rest as their rules say. -/

namespace Sys2Proof

/-- Rings 0 to 4,095 (R215), and a ring's 32-bit SEQ. -/
def isRing (n : Nat) : Bool := decide (n < 4096)
def isSeq (n : Nat) : Bool := decide (n < 2 ^ 32)

/-- A post's tag: the key of its command. -/
def isPost (n : Nat) : Bool := decide (n < 2 ^ 44)

/-- Partitions P0 to P15 (R215), segments 0 to 7 (R239), key slots (R198). -/
def isPart (n : Nat) : Bool := decide (n < 16)
def isSeg (n : Nat) : Bool := decide (n < 8)
def isSlot (n : Nat) : Bool := decide (n < 4096)

/-- Queue pairs (R276), their windows (R283), first lanes of ports (R272). -/
def isQp (n : Nat) : Bool := decide (n < 4096)
def isWin (n : Nat) : Bool := decide (n < 16)
def isPort (n : Nat) : Bool := decide (n < 16)

/-- Tiles T0 to T71 (R2), their contexts (R65) and class queues (R84), tables (R130). -/
def isTile (n : Nat) : Bool := decide (n < 72)
def isCtx (n : Nat) : Bool := decide (n < 4)
def isClass (n : Nat) : Bool := decide (n < 4)
def isTable (n : Nat) : Bool := decide (n < 1024)

/-- Tier-1 controllers and the packages of a group (R180, R183), channel and tile groups (R2), the dies
above one (R175), control cores (R297). -/
def isCtrl (n : Nat) : Bool := decide (n < 4)
def isPkg (n : Nat) : Bool := decide (n < 6)
def isGroup (n : Nat) : Bool := decide (n < 9)
def isDie (n : Nat) : Bool := decide (n < 4)
def isCore (n : Nat) : Bool := decide (n < 8)

/-- Event sources (R295), MSI-X vectors (Table 12.1). -/
def isSource (n : Nat) : Bool := decide (n < 512)
def isVec (n : Nat) : Bool := decide (n < 2048)

/-- Host addresses; bytes of BAR0, BAR2, the configuration space and BAR4 (Table 12.2, assumptions 8 and 128, PRESUMED). -/
def isHostAddr (n : Nat) : Bool := decide (n < 2 ^ 64)
def isBusAddr (n : Nat) : Bool := decide (n < 0x130000)

/-- Rate codes of the link (Table 12.5), and its widths (R253). -/
def isSpeed (n : Nat) : Bool := decide (n < 4)
def isWidth (n : Nat) : Bool := n == 1 || n == 2 || n == 4

/-- One bit; a sensor's kind; a byte of the management protocols; a 16-byte serial (R339). -/
def isBit (n : Nat) : Bool := decide (n < 2)
def isKind (n : Nat) : Bool := decide (n < 3)
def isByte (n : Nat) : Bool := decide (n < 256)
def isSerial (n : Nat) : Bool := decide (n < 2 ^ 128)

/-- A packet sequence number or a queue pair's number in a packet (R275, R276). -/
def isPsn (n : Nat) : Bool := decide (n < 2 ^ 24)

/-- So many bytes; whole sheets. -/
def isBytes (n : Nat) (b : Bytes) : Bool := b.length == n
def isSheets (b : Bytes) : Bool := b.length % 256 == 0

/-- Read data: every line marked poisoned lies in it. -/
def isRd (r : Rd) : Bool := r.poison.all fun i => decide (64 * i < r.data.length)

/-- A descriptor read: one to four descriptors of 64 bytes (R226). -/
def isRead (ds : List Rd) : Bool :=
  decide (1 ≤ ds.length) && decide (ds.length ≤ 4) && ds.all fun d => isBytes 64 d.data && isRd d

/-- A well-formed command. -/
def Instr.wf (i : Instr) : Bool :=
  match i with
  | .post ring seq dir => isRing ring && isSeq seq && isRd dir
  | .reamLoad ring seq img => isRing ring && isSeq seq && isRd img
  | .reamPatch ring seq img => isRing ring && isSeq seq && isRd img
  | .reamUnload ring seq => isRing ring && isSeq seq
  | .tableCommit ring seq => isRing ring && isSeq seq
  | .commitStepsDrained => true
  | .keyInstall ring seq blob => isRing ring && isSeq seq && isRd blob
  | .keyUnwrapDone slot => isSlot slot
  | .keyErase ring seq => isRing ring && isSeq seq
  | .keyEraseFinish slot => isSlot slot
  | .keyQuery ring seq => isRing ring && isSeq seq
  | .shingleProfile ring seq prof => isRing ring && isSeq seq && isRd prof
  | .ingest ring seq => isRing ring && isSeq seq
  | .ingestDecryptDone ring seq => isRing ring && isSeq seq
  | .shingleDone ring seq => isRing ring && isSeq seq
  | .partAttach ring seq => isRing ring && isSeq seq
  | .partDetach ring seq => isRing ring && isSeq seq
  | .detachFinish part => isPart part
  | .ringSetup ring seq img => isRing ring && isSeq seq && isRd img
  | .segSetupCreate ring seq => isRing ring && isSeq seq
  | .segSetupRemove ring seq => isRing ring && isSeq seq
  | .segSetupMap ring seq => isRing ring && isSeq seq
  | .segSetupUnmap ring seq => isRing ring && isSeq seq
  | .segmentDrainDone part seg => isPart part && isSeg seg
  | .segSetupFaultArea ring seq => isRing ring && isSeq seq
  | .faultResumeResume ring seq _ => isRing ring && isSeq seq
  | .faultResumeEnd ring seq => isRing ring && isSeq seq
  | .windowSetup ring seq => isRing ring && isSeq seq
  | .windowRemove ring seq => isRing ring && isSeq seq
  | .windowDrainDone qp win => isQp qp && isWin win
  | .partnerPairSender ring seq => isRing ring && isSeq seq
  | .partnerPairReceiver ring seq => isRing ring && isSeq seq
  | .partnerPairUnpair ring seq => isRing ring && isSeq seq
  | .checkpoint ring seq => isRing ring && isSeq seq
  | .restore ring seq _ => isRing ring && isSeq seq
  | .attach part => isPart part
  | .ringEnable ring => isRing ring
  | .ringDisable ring => isRing ring
  | .ringDrainDone ring => isRing ring
  | .ringServeTurn ring => isRing ring
  | .descriptorReadData ring descs => isRing ring && isRead descs
  | .descriptorRereadTimer ring => isRing ring
  | .armWriteAccepted ring => isRing ring
  | .doorbellRereadData ring line => isRing ring && isBytes 64 line
  | .hostSnoop addr _ => isHostAddr addr
  | .doorbellWindowWrite qp _ _ => isQp qp
  | .translationWalkDone ring seq _ dir => isRing ring && isSeq seq && isRd dir
  | .faultRecordAccepted part => isPart part
  | .stagingStart ring seq => isRing ring && isSeq seq
  | .beaterBlockDecode ring seq block => isRing ring && isSeq seq && isSheets block
  | .inputStagingDone ring seq body => isRing ring && isSeq seq && isRd body
  | .admissionSlotOpen => true
  | .sweepBoundary => true
  | .intervalBoundary => true
  | .calenderSliceEnd tile _ => isTile tile
  | .stageMoveSourceRelease => true
  | .fill tile ctx => isTile tile && isCtx ctx
  | .weightLoadDone tile => isTile tile
  | .fillStart tile => isTile tile
  | .fillComplete tile => isTile tile
  | .stream tile word => isTile tile && isBytes 32 word
  | .deckle tile ctx => isTile tile && isCtx ctx
  | .endOp tile ctx => isTile tile && isCtx ctx
  | .endComplete tile ctx => isTile tile && isCtx ctx
  | .wait tile ctx => isTile tile && isCtx ctx
  | .add tile ctx => isTile tile && isCtx ctx
  | .sub tile ctx => isTile tile && isCtx ctx
  | .mul tile ctx => isTile tile && isCtx ctx
  | .max tile ctx => isTile tile && isCtx ctx
  | .min tile ctx => isTile tile && isCtx ctx
  | .affine tile ctx => isTile tile && isCtx ctx
  | .cmp tile ctx => isTile tile && isCtx ctx
  | .select tile ctx => isTile tile && isCtx ctx
  | .unary tile ctx => isTile tile && isCtx ctx
  | .func tile ctx => isTile tile && isCtx ctx
  | .convert tile ctx => isTile tile && isCtx ctx
  | .quant tile ctx => isTile tile && isCtx ctx
  | .rescale tile ctx => isTile tile && isCtx ctx
  | .rotate tile ctx => isTile tile && isCtx ctx
  | .reduceRow tile ctx => isTile tile && isCtx ctx
  | .reduceCol tile ctx => isTile tile && isCtx ctx
  | .vectorInstructionDone tile => isTile tile
  | .fetch tile ctx => isTile tile && isCtx ctx
  | .put tile ctx => isTile tile && isCtx ctx
  | .fetchComplete tile cls data => isTile tile && isClass cls && isRd data
  | .putComplete tile cls => isTile tile && isClass cls
  | .feltArrival tile src => isTile tile && isTile src
  | .dispatch tile ctx => isTile tile && isCtx ctx
  | .combine tile ctx => isTile tile && isCtx ctx
  | .gradDispatch tile ctx => isTile tile && isCtx ctx
  | .gatherEntryArrival tile src => isTile tile && isTile src
  | .gatherEndMarkerArrival tile src => isTile tile && isTile src
  | .gatherRowReadDone tile tag table _ => isTile tile && isPost tag && isTable table
  | .partialArrival tile src => isTile tile && isTile src
  | .combineEndMarkerArrival tile src => isTile tile && isTile src
  | .overMarkerArrival tile src => isTile tile && isTile src
  | .updateStepStart tile tag table => isTile tile && isPost tag && isTable table
  | .gradientArrival tile src => isTile tile && isTile src
  | .updateEndMarkerArrival tile src => isTile tile && isTile src
  | .commitRun => true
  | .updateWritesDone tag => isPost tag
  | .escCountReport tile => isTile tile
  | .completionRecordWrite ring => isRing ring
  | .completionRecordAccepted ring => isRing ring
  | .ringTimeout ring seq => isRing ring && isSeq seq
  | .migrationPromote tile table _ _ => isTile tile && isTable table
  | .migrationDemote tile table _ => isTile tile && isTable table
  | .migrationCopyDone tile table _ => isTile tile && isTable table
  | .migrationCatchUpDone tile table _ => isTile tile && isTable table
  | .migrationRelease tile table _ => isTile tile && isTable table
  | .migCtrlEnableClear _ => true
  | .staleRowWriteBack tile table _ => isTile tile && isTable table
  | .vaultRowsAppend table _ => isTable table
  | .vaultAppendDurable => true
  | .stateRecordTimer => true
  | .partnerRecordWrite => true
  | .partnerRecordArrival _ => true
  | .partnerAckReceive _ _ _ => true
  | .partnerHelloReceive serial _ _ _ => isSerial serial
  | .partnerHelloTimeout => true
  | .partnerStall => true
  | .partnerRestoreRequest serial => isSerial serial
  | .t0CorrectedWriteBack tile => isTile tile
  | .t0ScrubPass _ _ => true
  | .t1ScrubPass _ _ => true
  | .t1PackageLost ctrl pkg => isCtrl ctrl && isPkg pkg
  | .poisonRepair tile table _ => isTile tile && isTable table
  | .reamLineReload tile => isTile tile
  | .d2dFlitReplay dir => isBit dir
  | .d2dRetrain => true
  | .watchdogTimeoutEnd tag => isPost tag
  | .watchdogContext tile ctx => isTile tile && isCtx ctx
  | .watchdogGather tile tag => isTile tile && isPost tag
  | .watchdogAdmit => true
  | .watchdogMalformed tile ctx => isTile tile && isCtx ctx
  | .watchdogFrontEnd => true
  | .watchdogCore core => isCore core
  | .devReset _ => true
  | .coldReset _ => true
  | .bootFallback => true
  | .partReset _ => true
  | .partResetFinish part => isPart part
  | .inputApplied => true
  | .standbyEntry _ _ => true
  | .inputPowerSample _ _ => true
  | .flushEndDurable => true
  | .safeInputStable => true
  | .bankDischarged => true
  | .modResetLow _ => true
  | .modResetRelease => true
  | .hardwareTrip => true
  | .dramSensorReading group die _ => isGroup group && isDie die
  | .junctionSensorReading kind _ _ => isKind kind
  | .coolantSensorReading _ _ _ => true
  | .coolDemandUpdate => true
  | .powerComparison _ => true
  | .wakeRampDone => true
  | .tileGroupUsable group => isGroup group
  | .bankEstimate _ _ => true
  | .bankChargeTimeout => true
  | .bankHealthTestTimer => true
  | .bankHealthTestDone _ _ => true
  | .bankTest _ => true
  | .flushClear _ _ => true
  | .pwrCap _ => true
  | .slew _ => true
  | .lock addr _ => isBusAddr addr
  | .hostPortReset => true
  | .linkRecovery speed width => isSpeed speed && isWidth width
  | .hostLinkL0 speed width _ => isSpeed speed && isWidth width
  | .goResponse _ => true
  | .cxlMemRead addr => isHostAddr addr
  | .cxlMemWrite addr data _ => isHostAddr addr && isBytes 64 data
  | .bisnpResponse _ => true
  | .msixUnmask vec => isVec vec
  | .barBadAccess _ => true
  | .portEnable port => isPort port
  | .portDisable port => isPort port
  | .portLinkUp port => isPort port
  | .linkDown port => isPort port
  | .qpConnect => true
  | .qpReset => true
  | .frameReceive port info => isPort port && isPsn info.psn && isPsn info.qpn
  | .rdmaWriteReceive qp _ _ _ => isQp qp
  | .rdmaReadRequestReceive qp _ _ _ => isQp qp
  | .rdmaReadResponseReceive qp _ data => isQp qp && isRd data
  | .sendReceive qp _ => isQp qp
  | .ackReceive qp _ => isQp qp
  | .nakReceive qp _ psn => isQp qp && isPsn psn
  | .cnpReceive qp => isQp qp
  | .ackTimeout qp => isQp qp
  | .rnrRetryTimer qp => isQp qp
  | .ccPeriod qp => isQp qp
  | .packetSendTurn port => isPort port
  | .coalesceTimerExpiry src => isSource src
  | .evtAck _ => true
  | .trigger _ => true
  | .timePairComplete => true
  | .cntSel _ => true
  | .cntLo => true
  | .lowWordRead addr => isBusAddr addr
  | .rcRead addr => isBusAddr addr
  | .registerWrite addr _ => isBusAddr addr
  | .getInfo => true
  | .getCert => true
  | .getLog => true
  | .quote => true
  | .fwStage img => isRd img
  | .fwCommit => true
  | .fwAbandon => true
  | .packInstall img => isRd img
  | .dbgEnter => true
  | .dbgLeave => true
  | .dbgRun => true
  | .dbgHalt => true
  | .dbgStreamKeySet _ => true
  | .dbgInterleaveKeySet _ => true
  | .dbgPeekRead => true
  | .dbgPeekWrite => true
  | .peekCopyDone => true
  | .setEndpointId eid => isByte eid
  | .getEndpointId => true
  | .getEndpointUuid => true
  | .getMctpVersionSupport => true
  | .getMessageTypeSupport => true
  | .getTid => true
  | .setTid tid => isByte tid
  | .getPldmVersion _ => true
  | .getPldmTypes => true
  | .getPldmCommands _ => true
  | .getPdrRepositoryInfo => true
  | .getPdr _ => true
  | .getSensorReading _ => true
  | .getStateSensorReadings _ => true
  | .setNumericEffecterValue _ _ => true
  | .getNumericEffecterValue _ => true
  | .setEventReceiver eid => isByte eid
  | .pollForPlatformEventMessage => true
  | .reamLoadCopyDone => true
  | .vaultBlockErase _ => true
  | .perstNRelease => true
  | .mailboxCommandDone => true

end Sys2Proof
end

