-- ==== Sys2Proof/Safety.lean ====
section
/-! DEFINITION. What the claims call a sound state and a safe step, in the terms they use. -/

namespace Sys2Proof.Machine

/-- The memory keeps its canonical form: addresses strictly rising, and no cell that an unlisted address
would read as. -/
def State.memSound (s : State) : Prop := s.mem.wf = true

/-- Every waiting command is well formed. -/
def State.queueWf (s : State) : Prop := ∀ c ∈ s.pending, c.wf = true

/-- The fuses of the module (R1, R3): what no command may change. The rollback floor rises (R350) and the
feed identity is a strap, so they stand apart. -/
def Fuse.fixed (f : Fuse) : Bytes × Nat × Nat × Nat := (f.order, f.tileMask, f.serial, f.rootHash)

/-- Command `c` has completed with this status, RESULT and flags: it has left the block, and its record stands in its
ring's completion log (R233, R234), a post's with DEGRADED beside its flags where R312 has it, that of PARTNER_PAIR,
TABLE_COMMIT or CHECKPOINT with CORRELATED where R324 has it. -/
def State.completed (t : State) (c : Cmd) (st result flags : Nat) : Prop :=
  t.cmd? (cmdKey c.ring c.seq) = none
    ∧ FMap.find (t.ring c.ring).log c.seq
        = some { data := recordOf c st (flags ||| t.degradedFlag c ||| t.corrFlag c) result, cmd := cmdKey c.ring c.seq }

/-- The accepted command `c` with this ring, SEQ and opcode passes steps 1 to 5 of R231, and `u` is the state
in which it goes on: its translation has found every range (R246). -/
def State.passes (s : State) (ring seq op : Nat) (c : Cmd) (u : State) : Prop :=
  s.cmd? (cmdKey ring seq) = some c ∧ c.ring = ring ∧ c.seq = seq ∧ c.phase = .accepted ∧ s.atTurn c = true
    ∧ c.op = op ∧ s.precheck c = 0 ∧ s.translate (cmdKey ring seq) c (s.cmdRanges c) = (true, u) ∧ u.cutOff c = false

/-- What the command with key `k` reads of a range for itself is at hand (R182, R260, R290): a remote segment's RDMA READs
are answered and no line of the range is the host's alone; `u'` is the state once the range's sheets have moved. -/
def State.operand (u : State) (k p g off len : Nat) (u' : State) : Prop :=
  ∃ v, u.operAsk k p g off len = (true, v) ∧ v.openAsk p g off len false = (true, u')

/-- The image that a ream command reads, `img` what a host's memory answers. -/
def State.imageRead (u : State) (c : Cmd) (img : Rd) : Rd :=
  u.imageOf c (u.operOf (cmdKey c.ring c.seq) c.part (c.f 16 1) img)

/-- The header of a ream command's image names no profile that its partition may not use (Table 10.2), neither as the
front end reads it (`s`) nor where the command goes on (`u`). -/
def State.modeFree (s u : State) (c : Cmd) (img : Rd) : Prop :=
  s.profileDenied c.part (s.imageStart c (s.operOf (cmdKey c.ring c.seq) c.part (c.f 16 1) img)) = false
    ∧ u.profileDenied c.part (u.imageRead c img) = false

/-- Post `k` of the command `c` has failed with this status: it stands with it while a tile holds a context of it, or its
record is out with it and RESULT's step (R65, Table 10.10). -/
def State.failedWith (t : State) (k st : Nat) (v : Post) (c : Cmd) : Prop :=
  (∃ v', t.post? k = some v' ∧ v'.fail = st)
    ∨ (t.post? k = none ∧ ∃ f, t.completed c st (postResult 0 v.step) f)

/-- The admission slot of the interval in progress opens, YP2 does not leave it empty (R52), and post `k`, which stands as
`v`, is the one R43 chooses for it. -/
def State.slotFor (s : State) (k : Nat) (v : Post) : Prop :=
  s.ream.resident = true ∧ s.ream.admission = true ∧ s.ream.slotDone = false ∧ s.ream.interval < hSlots s.ream.hdr
    ∧ (s.ream.mode = 0x12 → s.ream.interval < hSlots s.ream.hdr - s.ream.skipN)
    ∧ (∃ pooled, ({ s with ream := { s.ream with slotDone := true } }).slotChoice s.ream.interval = some (k, pooled))
    ∧ s.post? k = some v

/-- The bytes that admitting the post would reserve pass the dirty bound (R165). -/
def State.tooDirty (s : State) (v : Post) : Prop := s.dirtyLimit < s.dirtyBytes + s.dirtyReserved + s.updReserve v

/-- The post carries no update, or one that neither R165 nor R166 refuses. -/
def State.admits (s : State) (v : Post) : Prop := v.isUpdate = true → ¬ s.tooDirty v ∧ s.lagFull = false

/-- The command with this key is in the block and runs: its checks are over, and a later command ends it. -/
def State.isRunning (t : State) (k : Nat) : Prop := ∃ c, t.cmd? k = some c ∧ c.phase = .running

/-- The control cores have received this cause (R302). -/
def State.hasCause (s : State) (bit : Nat) : Prop := s.evt.coreCause.testBit bit = true

/-- The ERR an enable of ring `n` gives (R222): 0 where every check passes. -/
def State.enableErr (s : State) (n : Nat) : Nat :=
  let s1 := s.store (ringReg n + 0x18) 1 1
  s1.ringCheck n { s1.ring n with lat := s1.group (ringReg n) ringOffs }

/-- An attach block that R219 refuses before any check of R218: unreadable, or not sound in itself (Table 10.3). -/
def attachBlockBad (b : Rd) : Bool :=
  !b.poison.isEmpty || b.data.length != 128 || fld b.data 0 4 != 0x54414E59 || fld b.data 4 2 != 1 || !crcOkAt b.data 124

/-- It is the turn of context `c` of tile `n` (R69): its next instruction is `w`, of opcode `op`, the context stood
as `v`, and `u` is the state in which the instruction acts, the context past it. -/
def State.issuing (s : State) (n c op : Nat) (w : Bytes) (v : Ctx) (u : State) : Prop :=
  s.issues n = true ∧ s.turn n = some c ∧ s.ctx? n c = some v ∧ s.nextWord n v = w ∧ iOp w = op
    ∧ u = (s.countSwitch n c).advance n c

/-- The flags of a context after an instruction of it has released its inputs and set its outputs (R70). -/
def flagsAfter (w : Bytes) (f : Nat) : Nat := (outFlags w).foldl setFlag ((relFlags w).foldl clrFlag f)

/-- A vector instruction meets what it needs to be read at once on its frame (R96, R123, R124, R310): rows, no other one
in the engine's queue, no poisoned line among those it reads, and tag lines that agree. -/
def State.vecReady (u : State) (n : Nat) (w : Bytes) (fr : Frame) : Prop :=
  fr.rows ≠ 0 ∧ (u.tile n).vec = [] ∧ (vecLines w fr.rows).any (u.spBad n) = false ∧ u.vecTags n w = true

/-- The engine of tile `n` holds this instruction of context `c` alone, and it is being read (R124). -/
def State.vecAlone (u : State) (n c : Nat) (w : Bytes) (fr : Frame) : State :=
  u.modTile n fun x => { x with vec := [{ ctx := c, word := w, frame := fr, read := true }] }

/-- Every row of a frame, in order: before each, the instruction's own writes that are due have landed (R125), and `g`
computes it. -/
def State.runRows (u : State) (n c : Nat) (w : Bytes) (fr : Frame) (g : State → Nat → State) : State :=
  (List.range fr.rows).foldl (fun s r => g (s.vecOwn n r) r) (u.vecAlone n c w fr)

/-- The same where a row is result lane `f` of each of its elements, converted into view O (R119). -/
def State.rowsBy (u : State) (n c : Nat) (w : Bytes) (fr : Frame) (f : State → Nat → Nat → Word) : State :=
  u.runRows n c w fr fun s r => s.emitRow n c w (vecInt w) (vecInt w) r r ((List.range fr.cols).map (f s r))

/-- The instruction has been read, its results as `m` has them: those due have landed, and the others wait in the engine's
queue with it (R124, R125). -/
def State.vecRan (t m : State) (n : Nat) (fr : Frame) : Prop :=
  t.mem = (m.vecOwn n fr.rows).mem ∧ (t.tile n).vec = ((m.vecOwn n fr.rows).tile n).vec

/-- The vector instructions of a context, with their opcodes (Table 5.3). -/
def vecOps (n c : Nat) : List (Instr × Nat) :=
  [(.add n c, 0x10), (.sub n c, 0x11), (.mul n c, 0x12), (.max n c, 0x13), (.min n c, 0x14), (.affine n c, 0x15),
    (.cmp n c, 0x16), (.select n c, 0x17), (.unary n c, 0x18), (.func n c, 0x19), (.convert n c, 0x1A),
    (.quant n c, 0x1B), (.rescale n c, 0x1C), (.rotate n c, 0x1D), (.reduceRow n c, 0x1E), (.reduceCol n c, 0x1F)]

/-- The block has made the device reset of this code (R335): the cause stands in RESET_CAUSE, no message is on the
felt, no lookup or update is under way, and the setup space keeps its values. -/
def State.wasReset (t s : State) (code : Nat) : Prop :=
  t.rel.cause = code ∧ t.rel.seq = (s.rel.seq + 1) % 2 ^ 16 ∧ t.felt = [] ∧ t.gat.works = [] ∧ t.gat.uworks = []
    ∧ t.regs = s.regs

/-- The route of a source of a local partition (R297): VEC, CPU_FIRST and CPU_N. -/
def State.routeVec (s : State) (i : Nat) : Nat := s.regF (0x70000 + 0x10 * i + 4) 10 0
def State.routeFirst (s : State) (i : Nat) : Nat := s.regF (0x70000 + 0x10 * i + 4) 22 16
def State.routeN (s : State) (i : Nat) : Nat := s.regF (0x70000 + 0x10 * i + 4) 30 24

/-- The route lies in its partition's vectors and priority lines (R298). -/
def State.routeOk (s : State) (i p : Nat) : Prop :=
  s.routeVec i + s.routeN i < (s.part p).msixCount ∧ s.routeFirst i + s.routeN i < 16 * (s.part p).prioLines

/-- Source `i` of partition `p` delivers in this cycle, its coalescing time being reached, the partition's host to be
reached (R299, R301). -/
def State.deliversTo (s : State) (i p : Nat) : Prop :=
  i < 512 ∧ (s.src i).st = 1 ∧ s.srcOwner i = p ∧ p < 16 ∧ (s.part p).reachable = true ∧ (s.part p).resuming = false
    ∧ (s.src i).timer + s.coalCycles i ≤ s.now

/-- Address and data of MSI-X vector `v`, as its table entry stands (R264). -/
def State.msixMessage (s : State) (v : Nat) : Nat × Word :=
  ((FMap.get s.hp.msix (4 * v) (0 : Word)).toNat + 2 ^ 32 * (FMap.get s.hp.msix (4 * v + 1) (0 : Word)).toNat,
    FMap.get s.hp.msix (4 * v + 2) (0 : Word))

/-- Words of a layout: so many copies, so far apart, from a base, each with the offsets of these ranges. -/
def inBlocks (bs : List (Nat × Nat × Nat × List (Nat × Nat))) (a : Nat) : Bool :=
  bs.any fun (b, n, size, os) => decide (b ≤ a) && decide (a < b + n * size)
    && os.any fun (x, y) => decide (x ≤ (a - b) % size) && decide ((a - b) % size ≤ y)

/-- The offset is in a layout that Table 18.1 names; every other one is reserved (R371). -/
def mappedReg (a : Nat) : Bool := inBlocks (
  [(0, 1, 0x1000, [(0, 0x18), (0x20, 0x2C), (0x40, 0x5C), (0x100, 0x108), (0x110, 0x118), (0x200, 0x31C), (0x400, 0x51C),
      (0x800, 0x808), (0x840, 0x87C)]),
    (0x10000, 16, 0x100, [(0, 0x5C)]), (0x20000, 4096, 0x40, [(0, 0x38)]), (0x60000, 128, 0x40, [(0, 0x1C)]),
    (0x64000, 1, 0x1000, [(0, 4), (0x100, 0x13C)]), (0x68000, 1, 0x2000, [(0, 0x1FFC)]),
    (0x70000, 512, 0x10, [(0, 0xC)]), (0x72000, 1, 4, [(0, 0)]), (0x74000, 16, 0x20, [(0, 0x14)])]
  ++ [(0x80000, 1, 0x100, [(0, 4), (0x40, 0x48)]), (0x80100, 16, 0x20, [(0, 0x1C)]),
    (0x81000, 1, 0x80, [(0, 4), (0x40, 0x70)]), (0x82000, 1, 0x60, [(0, 0), (0x40, 0x5C)]),
    (0x90000, 1, 0x90, [(0, 4), (0x10, 0x10), (0x20, 0x20), (0x40, 0x60), (0x80, 0x8C)]),
    (0xA0000, 1, 0x104, [(0, 0x14), (0x20, 0x28), (0x30, 0x3C), (0x40, 0x60), (0x80, 0x80), (0xC0, 0xE4), (0x100, 0x100)])]
  ++ [(0xB0000, 1, 0x3000, [(0, 8), (0x10, 0x10), (0x20, 0x30), (0x1000, 0x2FFC)]),
    (0xC0000, 1, 0x1000, [(0, 8), (0x10, 0x14), (0x20, 0x30), (0x40, 0x50), (0x80, 0x2BC), (0x400, 0x400), (0x500, 0x900),
      (0x908, 0x920)]),
    (0xD0000, 1, 0x14, [(0, 0), (8, 0x10)]), (0xDF000, 1, 0x240, [(0, 0), (8, 0x14), (0x100, 0x23C)]),
    (0xF0000, 1, 0x300, [(0, 4), (0x10, 0x18), (0x100, 0x108), (0x200, 0x2FC)])]) a

/-- The register holds a field of an access code other than RO and RC (R5): a write may change something. -/
def writableReg (a : Nat) : Bool := inBlocks (
  [(0x10000, 16, 0x100, [(0, 0), (8, 0x14), (0x20, 0x3C)]), (0x20000, 4096, 0x40, [(0, 0x20), (0x38, 0x38)]),
    (0x64004, 1, 4, [(0, 0)]), (0x70000, 512, 0x10, [(0, 8)]), (0x72000, 1, 4, [(0, 0)]),
    (0x74000, 16, 0x20, [(0, 0x14)]), (0x80000, 1, 0x100, [(0, 4), (0x40, 0x48)]), (0x80100, 16, 0x20, [(0, 0x1C)]),
    (0x81000, 1, 0x80, [(0, 4), (0x40, 0x68)]), (0x82000, 1, 4, [(0, 0)]), (0x90010, 1, 0x20, [(0, 0), (0x10, 0x10)])]
  ++ [(0xA0000, 1, 0x104, [(4, 0xC), (0x3C, 0x3C), (0x100, 0x100)]),
    (0xB0000, 1, 0x2000, [(0, 8), (0x10, 0x10), (0x1000, 0x1FFC)]),
    (0xC0000, 1, 0x1000, [(4, 8), (0x10, 0x10), (0x30, 0x30), (0x44, 0x4C), (0x900, 0x900)]), (0xD0000, 1, 4, [(0, 0)]),
    (0xDF000, 1, 4, [(0, 0)]), (0xF0000, 1, 0x300, [(0, 4), (0x10, 0x18), (0x100, 0x108), (0x200, 0x2FC)])]) a

/-- A write of `x` to register `a` only stores its RW bits: the word with a ring's ENABLE, a mailbox in use and a write
that sets an action of DBG do more. -/
def State.onlyStores (s : State) (a : Nat) (x : Word) : Prop :=
  a % 4 = 0 ∧ rwMask a ≠ 0#32 ∧ ¬ (0x20000 ≤ a ∧ a < 0x60000 ∧ a % 0x40 = 0x18)
    ∧ (0xB0000 ≤ a → a < 0xC0000 → s.sec.busy = false) ∧ (a = 0xF0000 → bitsOf x.toNat 11 8 = 0)
    ∧ (a = 0xF0100 → bitsOf x.toNat 17 16 = 0)

/-- A step answers a next state: the block does not stop. -/
def State.runs (s : State) : Prop := ∃ t, step s = .next t

end Sys2Proof.Machine
end

