-- ==== Sys2Proof/Safety/Frames.lean ====
section
/-! DEFINITION. The parts of the state, and which of them each command may write: the rest stand as they were,
whatever the command answers. -/

namespace Sys2Proof.Machine

/-- The parts of the state, one for each field of `State`. -/
inductive Field where
  | pending | free | fuse | bus | mem | clk | ctr | tel | regs | parts
  | fe | io | hp | evt | dbg | ream | posts | net | slots | tiles
  | felt | tiers | gat | pwr | mgmt | rel | ingests | sec
  deriving DecidableEq, Repr

/-- Every part that `m` names stands in `t` as in `s`. -/
structure Same (msk : Field → Bool) (s t : State) : Prop where
  pending : msk .pending = true → t.pending = s.pending
  free : msk .free = true → t.free = s.free
  fuse : msk .fuse = true → t.fuse = s.fuse
  bus : msk .bus = true → t.bus = s.bus
  mem : msk .mem = true → t.mem = s.mem
  clk : msk .clk = true → t.clk = s.clk
  ctr : msk .ctr = true → t.ctr = s.ctr
  tel : msk .tel = true → t.tel = s.tel
  regs : msk .regs = true → t.regs = s.regs
  parts : msk .parts = true → t.parts = s.parts
  fe : msk .fe = true → t.fe = s.fe
  io : msk .io = true → t.io = s.io
  hp : msk .hp = true → t.hp = s.hp
  evt : msk .evt = true → t.evt = s.evt
  dbg : msk .dbg = true → t.dbg = s.dbg
  ream : msk .ream = true → t.ream = s.ream
  posts : msk .posts = true → t.posts = s.posts
  net : msk .net = true → t.net = s.net
  slots : msk .slots = true → t.slots = s.slots
  tiles : msk .tiles = true → t.tiles = s.tiles
  felt : msk .felt = true → t.felt = s.felt
  tiers : msk .tiers = true → t.tiers = s.tiers
  gat : msk .gat = true → t.gat = s.gat
  pwr : msk .pwr = true → t.pwr = s.pwr
  mgmt : msk .mgmt = true → t.mgmt = s.mgmt
  rel : msk .rel = true → t.rel = s.rel
  ingests : msk .ingests = true → t.ingests = s.ingests
  sec : msk .sec = true → t.sec = s.sec

/-! What several commands may write. -/
def writesLoss : List Field :=
  [.free, .fuse, .mem, .clk, .ctr, .tel, .regs, .parts, .fe, .io, .hp, .evt, .dbg, .ream, .posts, .net, .slots,
   .tiles, .felt, .tiers, .gat, .pwr, .mgmt, .rel, .ingests, .sec]
def writesExchange : List Field :=
  [.free, .mem, .ctr, .parts, .fe, .io, .hp, .evt, .ream, .posts, .net, .slots, .tiles, .tiers, .gat, .rel]
def writesDevReset : List Field :=
  [.free, .mem, .clk, .ctr, .parts, .fe, .io, .hp, .evt, .ream, .posts, .net, .slots, .tiles, .felt, .tiers, .gat,
   .pwr, .rel, .ingests, .sec]
def writesCommand : List Field :=
  [.free, .mem, .ctr, .parts, .fe, .io, .hp, .evt, .posts, .tiers, .rel]
def writesReam : List Field :=
  [.free, .mem, .ctr, .parts, .fe, .io, .hp, .evt, .ream, .posts, .tiers, .rel]
def writesStage : List Field :=
  [.free, .mem, .ctr, .parts, .fe, .io, .hp, .evt, .ream, .posts, .slots, .tiles, .tiers, .gat, .rel]
def writesNetCommand : List Field :=
  [.free, .mem, .ctr, .parts, .fe, .io, .hp, .evt, .posts, .net, .tiers, .rel]
def writesServe : List Field :=
  [.free, .mem, .ctr, .parts, .fe, .io, .hp, .evt, .ream, .posts, .slots, .tiles, .felt, .tiers, .gat, .rel]
def writesMove : List Field :=
  [.free, .mem, .ctr, .parts, .io, .hp, .evt, .tiers, .gat, .rel]
def writesIngest : List Field :=
  [.free, .mem, .ctr, .parts, .fe, .io, .hp, .evt, .posts, .tiers, .rel, .ingests]


/-- What a tick may write: the free values' counter, poison, clocks, counters, causes and what they send, errors of the
host link, receive buffers, ports whose cables move, write-backs, the vault's and the poison log's records, and where a
boot ends in it, the power state and the attachments that waited for it. -/
def tickWrites : List Field :=
  [.free, .mem, .clk, .ctr, .parts, .fe, .io, .hp, .evt, .posts, .net, .tiers, .pwr, .mgmt, .rel]

/-- Byte `a` is one that a vector instruction's results of these rows and columns occupy: view O (R82, R115). -/
def rowStores (n : Nat) (w : Bytes) (rows cols a : Nat) : Prop :=
  ∃ r, r < rows ∧
    let b := spAddr n (256 * (vO w + r * vOStride w) + if fmtWidth (vOFmt w) = 4 then 128 * vOHalf w else 0)
    b ≤ a ∧ a < b + cdiv (cols * fmtWidth (vOFmt w)) 8

/-- Byte `a` is one that QUANT to an MX format writes besides: a scale of these rows and columns, or one of the two
tag lines (R119, Table 4.4). -/
def mxStores (n : Nat) (w : Bytes) (rows cols a : Nat) : Prop :=
  (∃ r g, r < rows ∧ 32 * g < cols ∧ g < 8 ∧
      a = spAddr n (256 * (vB w + (if vOFmt w = 0x08 ∧ vOHalf w = 1 then 8 else 0) + g) + r))
    ∨ (spAddr n (256 * (vO w - 1)) ≤ a ∧ a < spAddr n (256 * (vO w - 1)) + 256)
    ∨ (spAddr n (256 * (vB w - 1)) ≤ a ∧ a < spAddr n (256 * (vB w - 1)) + 256)

/-- Byte `a` is one that a vector instruction stores to on its frame: a result for each row and column of it, for each row
(REDUCE_ROW), or for each column (REDUCE_COL). -/
def wordStores (n : Nat) (w : Bytes) (f : Frame) (a : Nat) : Prop :=
  if iOp w = 0x1E then rowStores n w f.rows 1 a
  else if iOp w = 0x1F then rowStores n w 1 f.cols a
  else rowStores n w f.rows f.cols a
    ∨ iOp w = 0x1B ∧ isMx (vOFmt w) = true ∧ f.rows ≠ 0 ∧ mxStores n w f.rows f.cols a

/-- Byte `a` is one that the next instruction of context `c` of tile `n` stores to, a vector instruction. -/
def State.vecStores (s : State) (n c a : Nat) : Prop :=
  ∃ v, s.ctx? n c = some v ∧ wordStores n (s.nextWord n v) (v.frame (vDk (s.nextWord n v))) a

/-- Byte `a` is one that an instruction in the engine's queue has still to write: a write of it on its way to the
scratchpad, or one it makes once it is read (R124, R125). -/
def VecJob.stores (j : VecJob) (n a : Nat) : Prop :=
  (∃ o ∈ j.out, let b := spAddr n (if o.whole then o.addr / 256 * 256 else o.addr)
    b ≤ a ∧ a < b + o.data.length)
    ∨ j.read = false ∧ wordStores n j.word j.frame a

end Sys2Proof.Machine

namespace Sys2Proof
open Machine

/-- The parts a command may write: no command writes another. -/
def Instr.writes : Instr → List Field
  | .post .. => writesCommand
  | .reamLoad .. | .reamPatch .. | .reamUnload .. => writesReam
  | .tableCommit .. => writesCommand
  | .commitStepsDrained .. => [.free, .mem, .ctr, .parts, .fe, .io, .hp, .evt, .posts, .tiers, .gat, .rel]
  | .keyInstall .. => [.free, .mem, .ctr, .parts, .fe, .io, .hp, .evt, .posts, .slots, .tiers, .rel, .sec]
  | .keyUnwrapDone .. => [.free, .fe, .slots, .sec]
  | .keyErase .. => [.free, .mem, .ctr, .parts, .fe, .io, .hp, .evt, .posts, .slots, .tiers, .rel]
  | .keyEraseFinish .. => [.fe, .slots]
  | .keyQuery .. | .shingleProfile .. => writesCommand
  | .ingest .. | .ingestDecryptDone .. | .shingleDone .. => writesIngest
  | .partAttach .. => writesCommand
  | .partDetach .. => writesReam
  | .detachFinish .. => [.mem, .ctr, .parts, .fe, .hp, .evt, .net, .slots, .tiers]
  | .ringSetup .. => [.free, .mem, .ctr, .regs, .parts, .fe, .io, .hp, .evt, .posts, .tiers, .rel]
  | .segSetupCreate .. => [.free, .mem, .ctr, .parts, .fe, .io, .hp, .evt, .posts, .slots, .tiers, .rel]
  | .segSetupRemove .. => writesNetCommand
  | .segSetupMap .. | .segSetupUnmap .. => writesCommand
  | .segmentDrainDone .. => writesExchange
  | .segSetupFaultArea .. => writesCommand
  | .faultResumeResume .. =>
    [.free, .mem, .ctr, .regs, .parts, .fe, .io, .hp, .evt, .ream, .posts, .slots, .tiers, .rel, .ingests,
     .sec]
  | .faultResumeEnd .. => writesCommand
  | .windowSetup .. | .windowRemove .. => writesNetCommand
  | .windowDrainDone .. => [.fe, .net]
  | .partnerPairSender .. | .partnerPairReceiver .. | .partnerPairUnpair .. | .checkpoint .. => writesCommand
  | .restore .. => [.free, .mem, .ctr, .parts, .fe, .io, .hp, .evt, .ream, .posts, .tiles, .tiers, .gat, .rel]
  | .attach .. => [.free, .ctr, .parts, .fe, .io, .hp, .evt, .posts, .pwr]
  | .ringEnable .. | .ringDisable .. => [.ctr, .regs, .fe, .io, .posts]
  | .ringDrainDone .. => [.parts, .fe, .evt]
  | .ringServeTurn .. => [.ctr, .fe, .io, .posts]
  | .descriptorReadData .. => [.ctr, .fe, .io, .posts, .sec]
  | .descriptorRereadTimer .. => [.fe, .io]
  | .armWriteAccepted .. => [.fe, .io]
  | .doorbellRereadData .. => [.ctr, .fe, .io, .posts]
  | .hostSnoop .. => [.parts, .fe]
  | .doorbellWindowWrite .. => [.ctr, .fe, .io, .posts]
  | .translationWalkDone .. =>
    [.free, .mem, .ctr, .regs, .parts, .fe, .io, .hp, .evt, .ream, .posts, .slots, .tiers, .rel, .ingests,
     .sec]
  | .faultRecordAccepted .. => [.free, .ctr, .parts, .io, .hp, .evt]
  | .stagingStart .. => [.free, .ctr, .parts, .fe, .io, .hp, .evt, .ream, .posts, .tiles, .tiers, .gat]
  | .beaterBlockDecode .. | .inputStagingDone .. =>
    [.free, .ctr, .parts, .fe, .io, .hp, .evt, .ream, .posts, .tiles, .tiers, .gat]
  | .admissionSlotOpen .. =>
    [.free, .mem, .ctr, .parts, .fe, .io, .hp, .evt, .ream, .posts, .slots, .tiles, .felt, .tiers, .gat, .pwr, .rel]
  | .sweepBoundary .. =>
    [.free, .mem, .ctr, .parts, .fe, .io, .hp, .evt, .ream, .posts, .tiles, .felt, .tiers, .gat, .pwr, .rel,
     .sec]
  | .intervalBoundary .. =>
    [.free, .mem, .ctr, .parts, .fe, .io, .hp, .evt, .ream, .posts, .slots, .tiles, .felt, .tiers, .gat, .rel, .sec]
  | .calenderSliceEnd .. => [.free, .ctr, .parts, .io, .hp, .evt, .tiles, .rel]
  | .stageMoveSourceRelease .. => [.mem, .ream, .tiles]
  | .fill .. => [.ctr, .posts, .tiles, .gat]
  | .weightLoadDone .. => [.ctr, .tiles]
  | .fillStart .. => [.ctr, .ream, .posts, .tiles, .gat, .rel]
  | .fillComplete .. => [.ctr, .posts, .tiles, .gat]
  | .stream .. => [.free, .mem, .ctr, .parts, .io, .hp, .evt, .posts, .tiles, .gat]
  | .deckle .. => [.free, .ctr, .posts, .tiles, .gat]
  | .endOp .. => [.ctr, .posts, .tiles]
  | .endComplete .. => writesStage
  | .wait .. => [.ctr, .posts, .tiles, .gat]
  | .add .. | .sub .. | .mul .. | .max .. | .min .. | .affine .. | .cmp .. | .select .. | .unary .. | .func .. | .convert .. | .quant .. | .rescale .. | .rotate .. | .reduceRow .. | .reduceCol .. =>
    [.free, .mem, .ctr, .ream, .posts, .tiles, .gat, .rel]
  | .vectorInstructionDone .. => [.free, .mem, .ctr, .ream, .posts, .tiles, .gat, .rel]
  | .fetch .. | .put .. =>
    [.free, .mem, .ctr, .parts, .fe, .io, .hp, .evt, .ream, .posts, .tiles, .felt, .tiers, .gat, .rel]
  | .fetchComplete .. => [.free, .mem, .ctr, .io, .posts, .tiles, .tiers, .gat]
  | .putComplete .. => [.free, .mem, .ctr, .parts, .io, .hp, .evt, .ream, .posts, .tiles, .tiers, .gat, .rel]
  | .feltArrival .. => writesServe
  | .dispatch .. => [.ctr, .io, .ream, .posts, .tiles, .felt, .gat, .rel]
  | .combine .. => [.mem, .ctr, .posts, .tiles, .gat]
  | .gradDispatch .. => [.ctr, .io, .ream, .posts, .tiles, .felt, .gat, .rel]
  | .gatherEntryArrival .. => [.free, .ctr, .io, .posts, .tiles, .felt, .gat]
  | .gatherEndMarkerArrival .. => [.ctr, .io, .posts, .tiles, .felt, .tiers, .gat]
  | .gatherRowReadDone .. => [.io, .felt, .gat]
  | .partialArrival .. =>
    [.free, .mem, .ctr, .parts, .fe, .io, .hp, .evt, .ream, .posts, .slots, .tiles, .felt, .tiers, .gat, .rel]
  | .combineEndMarkerArrival .. | .overMarkerArrival .. => writesServe
  | .updateStepStart .. => [.ctr, .posts, .tiers, .gat]
  | .gradientArrival .. => [.ctr, .posts, .tiles, .felt, .gat]
  | .updateEndMarkerArrival .. => [.ctr, .posts, .tiles, .felt, .tiers, .gat]
  | .commitRun .. | .updateWritesDone .. | .escCountReport .. => writesStage
  | .completionRecordWrite .. => [.ctr, .fe, .io, .posts]
  | .completionRecordAccepted .. => [.free, .ctr, .parts, .io, .hp, .evt]
  | .ringTimeout .. =>
    [.free, .mem, .ctr, .parts, .fe, .io, .hp, .evt, .ream, .posts, .slots, .tiles, .tiers, .gat, .rel, .ingests]
  | .migrationPromote .. | .migrationDemote .. => [.mem, .ctr, .gat]
  | .migrationCopyDone .. | .migrationCatchUpDone .. => writesMove
  | .migrationRelease .. => [.mem, .ctr, .gat]
  | .migCtrlEnableClear .. => [.mem, .ctr, .regs, .gat]
  | .staleRowWriteBack .. => writesMove
  | .vaultRowsAppend .. => [.free, .ctr, .gat, .rel]
  | .vaultAppendDurable .. => [.free, .ctr, .io, .gat, .rel]
  | .stateRecordTimer .. => [.free, .ctr, .rel]
  | .partnerRecordWrite .. => [.free, .io, .rel]
  | .partnerRecordArrival .. => [.free, .mem, .ctr, .parts, .io, .hp, .evt, .posts, .tiers, .rel]
  | .partnerAckReceive .. => [.ctr, .rel]
  | .partnerHelloReceive .. => [.fe, .io, .rel]
  | .partnerHelloTimeout .. => [.fe, .rel]
  | .partnerStall .. => [.free, .ctr, .parts, .io, .hp, .evt]
  | .partnerRestoreRequest .. => [.io]
  | .t0CorrectedWriteBack .. => [.ctr, .tiers]
  | .t0ScrubPass .. => [.mem, .ctr, .posts, .tiers, .rel]
  | .t1ScrubPass .. => [.free, .mem, .ctr, .parts, .io, .hp, .evt, .tiers, .rel]
  | .t1PackageLost .. => [.free, .ctr, .parts, .io, .hp, .evt, .tiers]
  | .poisonRepair .. => [.free, .mem, .ctr, .parts, .io, .hp, .evt, .tiers, .gat, .rel]
  | .reamLineReload .. => [.mem, .ctr, .ream, .tiles]
  | .d2dFlitReplay .. => [.ctr, .rel]
  | .d2dRetrain .. | .watchdogTimeoutEnd .. | .watchdogContext .. | .watchdogGather .. | .watchdogAdmit ..
  | .watchdogMalformed .. | .watchdogFrontEnd .. | .watchdogCore .. | .devReset .. => writesDevReset
  | .coldReset .. => writesLoss
  | .bootFallback .. =>
    [.mem, .clk, .ctr, .tel, .regs, .parts, .fe, .io, .hp, .evt, .dbg, .ream, .posts, .net, .slots, .tiles, .felt,
     .tiers, .gat, .pwr, .mgmt, .rel, .ingests, .sec]
  | .partReset .. =>
    [.free, .mem, .ctr, .parts, .fe, .io, .hp, .evt, .ream, .posts, .slots, .tiles, .tiers, .gat, .rel, .ingests]
  | .partResetFinish .. => [.parts, .fe, .evt]
  | .inputApplied .. => [.pwr]
  | .standbyEntry .. | .inputPowerSample .. | .flushEndDurable .. | .safeInputStable .. => writesLoss
  | .bankDischarged .. => [.pwr, .mgmt, .rel]
  | .modResetLow .. | .modResetRelease .. | .hardwareTrip .. | .dramSensorReading ..
  | .junctionSensorReading .. | .coolantSensorReading .. => writesLoss
  | .coolDemandUpdate .. => [.free, .pwr]
  | .powerComparison .. => [.free, .ctr, .parts, .io, .hp, .evt, .ream, .posts, .pwr, .mgmt]
  | .wakeRampDone .. => [.pwr]
  | .tileGroupUsable .. => [.tiles, .pwr]
  | .bankEstimate .. | .bankChargeTimeout .. => [.free, .ctr, .parts, .io, .hp, .evt, .pwr, .mgmt]
  | .bankHealthTestTimer .. => [.pwr]
  | .bankHealthTestDone .. => [.free, .ctr, .parts, .io, .hp, .evt, .pwr, .mgmt]
  | .bankTest .. => [.pwr]
  | .flushClear .. => writesLoss
  | .pwrCap .. => [.free, .ctr, .regs, .parts, .io, .hp, .evt]
  | .slew .. => [.regs, .parts]
  | .lock .. => [.regs, .sec]
  | .hostPortReset .. =>
    [.free, .bus, .mem, .ctr, .parts, .fe, .io, .hp, .evt, .ream, .posts, .slots, .tiles, .tiers, .gat, .rel, .sec]
  | .linkRecovery .. => [.ctr, .hp]
  | .hostLinkL0 .. => writesExchange
  | .goResponse .. => [.free, .ctr, .regs, .parts, .fe, .io, .hp, .evt, .posts, .net]
  | .cxlMemRead .. => [.bus, .ctr, .hp]
  | .cxlMemWrite .. => [.free, .mem, .ctr, .parts, .io, .hp, .evt, .tiers, .rel]
  | .bisnpResponse .. =>
    [.free, .bus, .mem, .ctr, .parts, .fe, .io, .hp, .evt, .ream, .posts, .net, .slots, .tiles, .tiers, .gat, .rel]
  | .msixUnmask .. => [.free, .ctr, .parts, .io, .hp, .evt]
  | .barBadAccess .. => [.bus, .ctr]
  | .portEnable .. =>
    [.free, .mem, .ctr, .regs, .parts, .fe, .io, .hp, .evt, .ream, .posts, .net, .slots, .tiles, .tiers, .gat,
     .rel]
  | .portDisable .. => [.free, .ctr, .regs, .parts, .io, .hp, .evt, .net]
  | .portLinkUp .. => [.net]
  | .linkDown .. => [.free, .ctr, .parts, .io, .hp, .evt, .net]
  | .qpConnect .. => [.net]
  | .qpReset .. | .frameReceive .. | .rdmaWriteReceive .. | .rdmaReadRequestReceive .. => writesExchange
  | .rdmaReadResponseReceive .. => [.free, .ctr, .regs, .parts, .fe, .io, .hp, .evt, .posts, .net]
  | .sendReceive .. => writesExchange
  | .ackReceive .. => [.free, .ctr, .regs, .parts, .fe, .io, .hp, .evt, .posts, .net]
  | .nakReceive .. =>
    [.free, .mem, .ctr, .regs, .parts, .fe, .io, .hp, .evt, .ream, .posts, .net, .slots, .tiles, .tiers, .gat, .rel]
  | .cnpReceive .. => [.ctr, .net]
  | .ackTimeout .. => writesExchange
  | .rnrRetryTimer .. => [.io, .net]
  | .ccPeriod .. => [.net]
  | .packetSendTurn .. => writesExchange
  | .coalesceTimerExpiry .. | .evtAck .. => [.free, .ctr, .parts, .io, .hp, .evt]
  | .trigger .. | .timePairComplete .. | .cntSel .. => [.tel]
  | .cntLo .. => [.bus, .ctr, .tel]
  | .lowWordRead .. | .rcRead .. => [.bus, .ctr, .tel, .tiers, .gat, .pwr]
  | .registerWrite .. =>
    [.free, .fuse, .bus, .mem, .clk, .ctr, .tel, .regs, .parts, .fe, .io, .hp, .evt, .dbg, .ream, .posts,
     .net, .slots, .tiles, .felt, .tiers, .gat, .pwr, .mgmt, .rel, .ingests, .sec]
  | .getInfo .. | .getCert .. | .getLog .. | .fwStage .. | .fwCommit .. | .fwAbandon .. | .packInstall .. => [.sec]
  | .quote .. => [.free, .sec]
  | .dbgEnter .. => [.dbg, .tiles, .sec]
  | .dbgLeave .. | .dbgRun .. | .dbgHalt .. => [.fe, .dbg, .tiles]
  | .dbgStreamKeySet .. => [.dbg, .tiles]
  | .dbgInterleaveKeySet .. => [.dbg, .tiers]
  | .dbgPeekRead .. | .dbgPeekWrite .. => [.dbg]
  | .peekCopyDone .. => [.free, .mem, .ctr, .parts, .io, .hp, .evt, .dbg, .tiers, .rel]
  | .setEndpointId .. => [.bus, .mgmt]
  | .getEndpointId .. | .getEndpointUuid .. => [.bus]
  | .getMctpVersionSupport .. => [.bus]
  | .getMessageTypeSupport .. | .getTid .. => [.bus]
  | .setTid .. => [.bus, .mgmt]
  | .getPldmVersion .. => [.bus]
  | .getPldmTypes .. | .getPldmCommands .. | .getPdrRepositoryInfo .. | .getPdr .. | .getSensorReading ..
  | .getStateSensorReadings .. => [.bus]
  | .setNumericEffecterValue .. => [.free, .bus, .ctr, .regs, .parts, .io, .hp, .evt]
  | .getNumericEffecterValue .. => [.bus]
  | .setEventReceiver .. | .pollForPlatformEventMessage .. => [.bus, .mgmt]
  | .reamLoadCopyDone .. =>
    [.free, .mem, .ctr, .parts, .fe, .io, .hp, .evt, .ream, .tiles, .tiers, .gat, .pwr, .rel, .sec]
  | .vaultBlockErase .. => [.free, .mem, .ctr, .parts, .fe, .io, .hp, .evt, .posts, .tiers, .gat, .rel]
  | .perstNRelease .. => [.hp, .pwr]
  | .mailboxCommandDone .. => [.fuse, .rel, .sec]

/-- The vector instructions: tile, context, opcode (Table 5.3). -/
def Instr.vec : Instr → Option (Nat × Nat × Nat)
  | .add n c => some (n, c, 0x10)
  | .sub n c => some (n, c, 0x11)
  | .mul n c => some (n, c, 0x12)
  | .max n c => some (n, c, 0x13)
  | .min n c => some (n, c, 0x14)
  | .affine n c => some (n, c, 0x15)
  | .cmp n c => some (n, c, 0x16)
  | .select n c => some (n, c, 0x17)
  | .unary n c => some (n, c, 0x18)
  | .func n c => some (n, c, 0x19)
  | .convert n c => some (n, c, 0x1A)
  | .quant n c => some (n, c, 0x1B)
  | .rescale n c => some (n, c, 0x1C)
  | .rotate n c => some (n, c, 0x1D)
  | .reduceRow n c => some (n, c, 0x1E)
  | .reduceCol n c => some (n, c, 0x1F)
  | _ => none


/-- Commands that may end in a cold reset, or in the loss of power that comes before one (R332, R353 to R358). -/
def Instr.mayColdReset : Instr → Bool
  | .coldReset _ | .standbyEntry .. | .modResetLow _ | .modResetRelease | .hardwareTrip | .safeInputStable
  | .inputPowerSample .. | .flushEndDurable | .dramSensorReading .. | .junctionSensorReading ..
  | .coolantSensorReading .. | .flushClear .. => true
  | .registerWrite a _ => a == 0xC0008 || a == 0xA0100
  | _ => false

end Sys2Proof
end

