-- ==== Sys2Proof/Certificates/Slice0/Obligations.lean ====
section
/-! DEFINITION. The obligations: what the provers are asked to prove of the block, rule by rule. A clause says of one
command, under conditions on the state and its operands, that it answers a next state and what that state holds; the
last group says what the commands leave alone. -/

open Sys2Proof Sys2Proof.Machine


/-! ### Rings and doorbells (chapter 10) -/

/-- R222, R223: enabling a DISABLED ring whose checks pass arms it with a new epoch and indices 0; disabling it
makes it DRAINING, and a ring that has drained is DISABLED with its log freed. A ring whose check fails reports it
in ERR and stays DISABLED. -/
def Obligations.RingEnableDisable : Prop :=
  (∀ (s : State) (n : Nat), n < 4096 → (s.ring n).st = 0 → s.enableErr n = 0 →
    ∃ t, exec (.ringEnable n) s = .next t ∧ (t.ring n).st = 1 ∧ (t.ring n).err = 0
      ∧ (t.ring n).epoch = ((s.ring n).epoch + 1) % 2 ^ 16 ∧ (t.ring n).sqCons = 0 ∧ (t.ring n).cqProd = 0
      ∧ (t.ring n).cqSeen = 0 ∧ (t.ring n).prod = 0 ∧ (t.ring n).log = []
      ∧ ∀ j, j ≠ n → t.ring j = s.ring j)
  ∧ (∀ (s : State) (n : Nat), n < 4096 → (s.ring n).st = 0 → s.enableErr n ≠ 0 →
    ∃ t, exec (.ringEnable n) s = .next t ∧ (t.ring n).st = 0
      ∧ (t.ring n).err = s.enableErr n)
  ∧ (∀ (s : State) (n : Nat), n < 4096 → (s.ring n).st ≠ 0 → (s.ring n).st ≠ 5 →
    ∃ t, exec (.ringDisable n) s = .next t ∧ (t.ring n).st = 5 ∧ (t.ring n).epoch = (s.ring n).epoch
      ∧ t.regF (ringReg n + 0x18) 0 0 = 0 ∧ ∀ j, j ≠ n → t.ring j = s.ring j)
  ∧ (∀ (s : State) (n : Nat), s.ringDrained n = true → (s.part (s.ring n).part).st ≠ 2 →
    ∃ t, exec (.ringDrainDone n) s = .next t ∧ (t.ring n).st = 0 ∧ (t.ring n).log = [])

/-- R226, R227: a ring whose turn it is starts one read of up to four descriptors that stay in one sheet; a visible
descriptor is accepted and consumed; one that is not visible waits for its re-read with nothing consumed; it is read
again after its wait; once the arming write is accepted the doorbell line is read again. -/
def Obligations.RingService : Prop :=
  (∀ (s : State) (n : Nat), s.nextRing = some n → (s.ring n).canFetch = true →
    ∃ t, exec (.ringServeTurn n) s = .next t ∧ (t.ring n).reading = (s.ring n).turnCount
      ∧ (t.ring n).reading ≤ 4 ∧ t.fe.rr = n ∧ t.fe.cmds = s.fe.cmds ∧ ∀ j, j ≠ n → t.ring j = s.ring j)
  ∧ (∀ (s : State) (n : Nat) (d : Rd) (ds : List Rd), (s.ring n).st = 2 → (s.ring n).reading ≠ 0 →
    (s.ring n).held = [] → (s.ring n).canFetch = true → ((s.ring n).remote = true → s.doneFor (.desc n) = true) →
    (if (s.ring n).remote then s.descsRead n else ds) = [d] →
    (s.ring n).visible d = true → (opInfo (fld d.data 6 1)).isSome = true →
    ∃ t c, exec (.descriptorReadData n ds) s = .next t ∧ (t.ring n).reading = 0
      ∧ (t.ring n).sqCons = ((s.ring n).sqCons + 1) % 2 ^ 32
      ∧ t.cmd? (cmdKey n (s.ring n).sqCons) = some c ∧ c.ring = n ∧ c.seq = (s.ring n).sqCons
      ∧ c.epoch = (s.ring n).epoch ∧ c.part = (s.ring n).part ∧ c.desc = d.data ∧ c.phase = .accepted
      ∧ c.time = s.now)
  ∧ (∀ (s : State) (n : Nat) (d : Rd) (ds : List Rd), (s.ring n).st = 2 → (s.ring n).reading ≠ 0 →
    (s.ring n).held = [] → (s.ring n).remote = false → (s.ring n).visible d = false → (s.ring n).rereads = 0 →
    ∃ t, exec (.descriptorReadData n (d :: ds)) s = .next t ∧ (t.ring n).rereadWait = true
      ∧ (t.ring n).sqCons = (s.ring n).sqCons ∧ t.fe.cmds = s.fe.cmds)
  ∧ (∀ (s : State) (n : Nat), (s.ring n).st = 2 → (s.ring n).rereadWait = true → (s.ring n).held = [] →
    ∃ t, exec (.descriptorRereadTimer n) s = .next t ∧ (t.ring n).reading = 1 ∧ (t.ring n).rereadWait = false
      ∧ (t.ring n).rereads = (s.ring n).rereads + 1)
  ∧ (∀ (s : State) (n : Nat), (s.ring n).armPending = true → s.doneFor (.arm n) = true →
    ∃ t, exec (.armWriteAccepted n) s = .next t ∧ (t.ring n).armPending = false ∧ (t.ring n).dbReread = true)

/-- R224, R225: an invalidating snoop of a waiting ring's held doorbell line makes the block read it again; a value
that passes its check moves the producer; a remote write into the doorbell window lands in the ring's line. -/
def Obligations.Doorbells : Prop :=
  (∀ (s : State) (n a : Nat) (r : Ring), FMap.find s.fe.rings n = some r → r.st = 1 → r.remote = false →
    r.lineHeld = true → r.dbAddr = a / 64 * 64 → r.armPending = false → r.dbReread = false →
    ∃ t, exec (.hostSnoop a true) s = .next t ∧ (t.ring n).dbReread = true ∧ (t.ring n).lineHeld = false)
  ∧ (∀ (s : State) (n : Nat) (line : Bytes), (s.ring n).dbReread = true → (s.ring n).remote = false →
    (s.ring n).notified = false → (s.ring n).dbOk (line.take 8) = true →
    sub32 (fld (line.take 8) 0 4) (s.ring n).sqCons ≤ (s.ring n).size →
    sub32 (fld (line.take 8) 0 4) (s.ring n).prod ≤ (s.ring n).size →
    ∃ t, exec (.doorbellRereadData n line) s = .next t ∧ (t.ring n).prod = fld (line.take 8) 0 4
      ∧ (t.ring n).dbReread = false ∧ (t.ring n).lineHeld = true)
  ∧ (∀ (s : State) (qp off p : Nat) (data : Bytes), s.qpUp qp = true → s.attachPart qp = some p →
    off < (s.part p).ringCount * 64 → off % 64 = 0 → data.length = 8 →
    (s.ring ((s.part p).ringBase + off / 64)).st = 2 →
    (s.ring ((s.part p).ringBase + off / 64)).remote = true →
    ∃ t, exec (.doorbellWindowWrite qp off data) s = .next t
      ∧ (t.ring ((s.part p).ringBase + off / 64)).dbLine
          = patchBytes (s.ring ((s.part p).ringBase + off / 64)).dbLine 0 data
      ∧ (t.ring ((s.part p).ringBase + off / 64)).notified = true)

/-- R232 to R234: the record at CQ_PROD is written at its place in the completion ring and CQ_PROD rises; when the
write is accepted the ring's event source counts an event; a record waits for its results' writes. R22, R47, R112: the
end of a context sends its counts, and with the last report judged a post that is past its last stage, with no context,
lookup or update left, has its record ready with OK, its queries and its step, its results sealed where they are to be.
Choices of the model: log entries 28, 88 and 89. -/
def Obligations.CompletionRecords : Prop :=
  (∀ (s : State) (n : Nat) (e : LogRec), FMap.find (s.ring n).log (s.ring n).cqProd = some e →
    (s.ring n).live = true ∨ (s.ring n).st = 5 → (s.part (s.ring n).part).reachable = true →
    s.rel.stuck = false → s.outFor (.result e.cmd) = false → s.hostUp (s.ring n).part (s.ring n).qp = true →
    ∃ t x, exec (.completionRecordWrite n) s = .next t ∧ (t.ring n).cqProd = ((s.ring n).cqProd + 1) % 2 ^ 32
      ∧ t.io.out = s.io.out ++ [x] ∧ x.data = e.data ∧ x.part = (s.ring n).part
      ∧ x.addr = (s.ring n).cqBase + 32 * ((s.ring n).cqProd % (s.ring n).size))
  ∧ (∀ (s : State) (n : Nat) (e : LogRec), FMap.find (s.ring n).log (s.ring n).cqProd = some e →
    s.outFor (.result e.cmd) = true → exec (.completionRecordWrite n) s = .next s)
  ∧ (∀ (s : State) (n c k : Nat) (v : Ctx) (p : Post), s.ctx? n c = some v → v.ending = true →
    (s.tile n).busy c = false → v.failed = false → v.post = some k → s.post? k = some p → p.fail = 0 →
    ∃ t, exec (.endComplete n c) s = .next t ∧ t.post? k = some p
      ∧ t.ream.escMsgs
          = s.ream.escMsgs ++ [{ tile := n, post := k, version := v.version, qn := v.qn, qs := v.qs }])
  ∧ (∀ (s u : State) (n k : Nat) (r : EscRep) (e : EscSum) (p : Post) (c : Cmd),
    s.ream.escMsgs.find? (fun r => r.tile == n) = some r → r.post = k → s.post? k = some p → s.cmd? k = some c →
    k = cmdKey c.ring c.seq → p.phase = 3 → p.fail = 0 → p.stage + 1 = hStages s.ream.hdr → p.commit ≠ 1 →
    p.commit ≠ 2 → s.inTiles k = false → (s.ream.escMsgs.erase r).any (fun x => x.post == k) = false →
    s.lookupOpen k p = false → p.dropped = false →
    (s.sealsOut c = true → s.resultLost c = false ∧ (s.slot c.outSlot).outCtr < 2 ^ 64 - 1) →
    e = FMap.get s.ream.escSums k { version := r.version } →
    u = ({ s with ream := { s.ream with
          escMsgs := s.ream.escMsgs.erase r,
          escSums := FMap.set s.ream.escSums k { e with
            tiles := r.tile :: e.tiles, qn := addCounts e.qn r.qn, qs := addCounts e.qs r.qs } } }).each
        (List.range 32) (fun s l => s.decideLayer k l) →
    ∃ t, exec (.escCountReport n) s = .next t ∧ t.post? k = none
      ∧ t.completed c stOk (postResult p.q p.step)
          (({ p with flags := if u.triggers k then p.flags ||| 4 else p.flags } : Post).doneFlags (p.late s.ream.mode)))
  ∧ (∀ (s : State) (n : Nat) (u : Use), s.recordDone n = some u → (s.ring n).evtSrc < 512 →
    (s.src (s.ring n).evtSrc).st = 1 → (s.src (s.ring n).evtSrc).count + 1 < s.coalCount (s.ring n).evtSrc →
    (s.src (s.ring n).evtSrc).count < 65535 → (s.src (s.ring n).evtSrc).sentAt ≠ some s.now →
    (s.part (s.ring n).part).resuming = false →
    ∃ t, exec (.completionRecordAccepted n) s = .next t
      ∧ (t.src (s.ring n).evtSrc).count = (s.src (s.ring n).evtSrc).count + 1)
  ∧ (∀ (s : State) (r q : Nat) (c : Cmd), s.cmd? (cmdKey r q) = some c → c.timedOut = false →
    c.phase = .running → FMap.find s.ingests (cmdKey r q) = none → s.post? (cmdKey r q) = none → r < 4096 →
    c.time + 1000 * (s.ring r).timeoutUs ≤ s.now →
    ∃ t, exec (.ringTimeout r q) s = .next t ∧ t.counter 0x062 r = s.counter 0x062 r + 1
      ∧ (∃ c', t.cmd? (cmdKey r q) = some c' ∧ c'.timedOut = true ∧ c'.phase = .running) ∧ t.hasCause cRingTimeout)

/-! ### Partitions (chapter 10) -/

/-- R218: a write of ATTACH to a FREE partition whose checks pass attaches it with the features both sides offer and
raises PART_ATTACHED; a failing check is reported in ATTACH_ERR and attaches nothing; while the module is BOOTING the
write is held until it is ON (R332). R219: PART_ATTACH reads the attach block of the remote host; its second half is
written with STATUS, for a block that is not sound too; with its acknowledgement the partition is ATTACHED and the command
completes. R221: a ring set up by command is enabled as by its register.
Choices of the model: log entry 5. -/
def Obligations.Attaching : Prop :=
  (∀ (s : State) (p : Nat), p < 16 → s.pwr.st = 3 → s.hp.cxlOk = true → (s.part p).st = 0 →
    s.attachCheck p (s.featOffer p) false = 0 →
    ∃ t, exec (.attach p) s = .next t ∧ (t.part p).st = 1 ∧ (t.part p).remote = false ∧ (t.part p).err = 0
      ∧ (t.part p).featAck = s.featOffer p &&& s.featDev ∧ t.hasCause cPartAttached)
  ∧ (∀ (s : State) (p : Nat), p < 16 → s.pwr.st = 3 → s.hp.cxlOk = true → s.attachCheck p (s.featOffer p) false ≠ 0 →
    ∃ t, exec (.attach p) s = .next t ∧ (t.part p).err = s.attachCheck p (s.featOffer p) false
      ∧ (t.part p).st = (s.part p).st ∧ ∀ j, j ≠ p → t.part j = s.part j)
  ∧ (∀ (s : State) (p : Nat), s.pwr.st = 2 →
    ∃ t, exec (.attach p) s = .next t ∧ t.parts = s.parts ∧ t.pwr.attach = s.pwr.attach ++ [p])
  ∧ (∀ (s u : State) (r q : Nat) (c : Cmd), s.passes r q 0x30 c u → (u.part (c.f 16 1)).st = 0 →
    (u.part (c.f 16 1)).attaching = none →
    inRange (latF (u.attachLat (c.f 16 1)) 0x10 11 0) (latF (u.attachLat (c.f 16 1)) 0x10 28 16) (c.f 18 2) = true →
    u.qpUp (c.f 18 2) = true →
    ∃ t x, exec (.partAttach r q) s = .next t ∧ (t.part (c.f 16 1)).attaching = some (cmdKey r q, [], 0)
      ∧ (t.part (c.f 16 1)).st = 0 ∧ t.io.out = u.io.out ++ [x] ∧ x.kind = 1 ∧ x.len = 128 ∧ x.addr = c.f 24 8
      ∧ x.qp = some (c.f 18 2))
  ∧ (∀ (s u : State) (n m p k : Nat) (x : Xfer) (c : Cmd) (b : Rd), s.qpUp n = true →
    (s.unacked n).find? (fun y => y.id == m && y.kind == 1) = some x → x.use = .attach k p → s.cmd? k = some c →
    attachBlockBad b = false →
    u = { s.modQp n (fun v => { v with retries := 0 }) with
          free := s.free + 1, io := { s.io with out := s.io.out.filter fun y => y.id != m } } →
    (u.attachRemote p (c.f 18 2) (s.freeVal.1 % 2 ^ 16) b.data).2 = 0 →
    ∃ t y, exec (.rdmaReadResponseReceive n m b) s = .next t ∧ (t.part p).st = (s.part p).st
      ∧ (t.part p).attaching = some (k, b.data, s.freeVal.1 % 2 ^ 16) ∧ y ∈ t.io.out ∧ y.use = .attach k p ∧ y.kind = 0
      ∧ y.addr = c.f 24 8 + 128 ∧ y.len = 128 ∧ fld y.data 32 1 = 0)
  ∧ (∀ (s : State) (n m p k : Nat) (x : Xfer) (c : Cmd) (b : Rd), s.qpUp n = true →
    (s.unacked n).find? (fun y => y.id == m && y.kind == 1) = some x → x.use = .attach k p → s.cmd? k = some c →
    attachBlockBad b = true →
    ∃ t y, exec (.rdmaReadResponseReceive n m b) s = .next t ∧ (t.part p).st = (s.part p).st ∧ (t.part p).err = 6
      ∧ y ∈ t.io.out ∧ y.use = .attach k p ∧ y.kind = 0 ∧ y.addr = c.f 24 8 + 128 ∧ y.len = 128 ∧ fld y.data 32 1 = 6)
  ∧ (∀ (s u w : State) (n m p k tag : Nat) (x : Xfer) (c : Cmd) (b : Bytes), s.qpUp n = true → s.psnOpen n m = true →
    s.unacked n = [x] → x.endsBy m (s.qp n).pmtu = true → s.io.out.find? (fun y => y.id == x.id) = some x →
    x.use = .attach k p → (s.part p).attaching = some (k, b, tag) → b ≠ [] → s.cmd? k = some c →
    k = cmdKey c.ring c.seq →
    u = { s.modQp n (fun v => { v with retries := 0, rnr := 0, una := some (psnAdd m 1) }) with
          io := { s.io with out := s.io.out.filter fun y => y.id != x.id } }.modPart p
            (fun v => { v with attaching := none }) →
    u.attachRemote p (c.f 18 2) tag b = (w, 0) →
    ∃ t, exec (.ackReceive n m) s = .next t ∧ (t.part p).st = 1 ∧ (t.part p).remote = true
      ∧ (t.part p).featAck = fld b 8 32 &&& s.featDev ∧ (t.part p).attachQp = c.f 18 2 ∧ t.completed c stOk 0 0)
  ∧ (∀ (s u v : State) (r q : Nat) (c : Cmd) (img rd : Rd), s.passes r q 0x32 c u → c.f 16 2 < 4096 →
    u.operand (cmdKey r q) c.part (c.f 18 1) (c.f 24 6) 64 v →
    rd = v.readSeg c.part (c.f 18 1) (c.f 24 6) 64 (u.operOf (cmdKey r q) c.part (c.f 18 1) img) → rd.poison = [] →
    rd.data.length = 64 → fld rd.data 0x18 1 % 2 = 1 → (u.ring (c.f 16 2)).st = 0 →
    let s1 := v.storeImage (c.f 16 2) rd.data
    s1.ringCheck (c.f 16 2) { s1.ring (c.f 16 2) with lat := s1.group (ringReg (c.f 16 2)) ringOffs } = 0 →
    ∃ t, exec (.ringSetup r q img) s = .next t ∧ (t.ring (c.f 16 2)).st = 1 ∧ t.completed c stOk 0 0)

/-- R220, R301, R334: PART_DETACH of an ATTACHED partition that does not own the resident ream makes it DETACHING; when
its work is over and no host caches a line of its frames it becomes FREE with its sources idle; one that detaches itself
stays DETACHING until the command's record, the last of its ring, is out and that ring is DISABLED; a partition reset that
has ended its work clears the causes.
Choices of the model: log entry 86. -/
def Obligations.Detaching : Prop :=
  (∀ (s u : State) (r q : Nat) (c : Cmd), s.passes r q 0x31 c u → (u.part (c.f 16 1)).st = 1 →
    (u.part (c.f 16 1)).detach = none → (u.ream.resident && u.ream.owner = c.f 16 1) = false →
    ∃ t, exec (.partDetach r q) s = .next t ∧ (t.part (c.f 16 1)).st = 2
      ∧ (t.part (c.f 16 1)).detach = some (cmdKey r q) ∧ ∀ j, j ≠ c.f 16 1 → (t.part j).st = (u.part j).st)
  ∧ (∀ (s : State) (p k : Nat) (c : Cmd), (s.part p).detach = some k → s.detachReady p k = true →
    s.closingLines (· == p) = [] → s.cmd? k = some c → c.part ≠ p →
    ∃ t, exec (.detachFinish p) s = .next t ∧ (t.part p).st = 0 ∧ (t.part p).featAck = 0
      ∧ (t.part p).detach = none ∧ t.cmd? k = none
      ∧ ∀ i, i < 480 → s.srcOwner i = p → (t.src i).st = 0 ∧ (t.src i).count = 0)
  ∧ (∀ (s : State) (p k : Nat) (c : Cmd), (s.part p).detach = some k → s.detachReady p k = true →
    s.closingLines (· == p) = [] → s.cmd? k = some c → c.part = p → k = cmdKey c.ring c.seq → (s.part p).st = 2 →
    ∃ t, exec (.detachFinish p) s = .next t ∧ (t.part p).st = 2 ∧ (t.part p).detach = none ∧ t.completed c stOk 0 0)
  ∧ (∀ (s : State) (n p : Nat), s.ringDrained n = true → (s.ring n).part = p → (s.part p).st = 2 →
    (s.part p).detach = none → (s.endRing n).ringsOf p = [] →
    ∃ t, exec (.ringDrainDone n) s = .next t ∧ (t.ring n).st = 0 ∧ (t.part p).st = 0 ∧ (t.part p).featAck = 0
      ∧ ∀ i, i < 480 → s.srcOwner i = p → (t.src i).st = 0 ∧ (t.src i).count = 0)
  ∧ (∀ (s : State) (p : Nat), (s.part p).resetBusy = true → (∀ e ∈ s.fe.cmds, e.2.part ≠ p) →
    (∀ n ∈ s.ringsOf p, (s.part p).st = 3 ∨ s.ringDrained n = true) →
    ∃ t, exec (.partResetFinish p) s = .next t ∧ (t.part p).resetBusy = false ∧ (t.part p).cause = 0)

/-! ### Segments, translation and faults (chapter 11) -/

/-- R243, R247, R249: CREATE makes the segment its operands describe, MAP maps every page it names to its frame, and
FAULT_AREA notes where fault records are copied; each completes with OK.
Choices of the model: log entry 85. -/
def Obligations.SegmentSetup : Prop :=
  (∀ (s u : State) (r q : Nat) (c : Cmd), s.segFree = true → s.passes r q 0x33 c u → sOp c.desc = 0 →
    u.createCheck (cmdKey r q) c.part c.desc = 0 →
    ∃ t, exec (.segSetupCreate r q) s = .next t
      ∧ FMap.find (t.part c.part).segs (sSeg c.desc) = some (u.newSeg c.part c.desc) ∧ t.completed c stOk 0 0)
  ∧ (∀ (s u : State) (r q : Nat) (c : Cmd) (v : Seg), s.segFree = true → s.passes r q 0x33 c u → sOp c.desc = 2 →
    u.mapCheck c.part c.desc = 0 → u.lostLines c.part c.desc = [] →
    FMap.find (u.part c.part).segs (sSeg c.desc) = some v →
    ∃ t v', exec (.segSetupMap r q) s = .next t
      ∧ FMap.find (t.part c.part).segs (sSeg c.desc) = some v' ∧ t.completed c stOk 0 0
      ∧ ∀ i < sPages c.desc, FMap.find v'.map (sFirst c.desc + i) = some (sBase c.desc + pageSize * i)
          ∧ v'.pageValid (sFirst c.desc + i) = true)
  ∧ (∀ (s u : State) (r q : Nat) (c : Cmd), s.segFree = true → s.passes r q 0x33 c u → sOp c.desc = 4 →
    u.areaCheck c.part c.desc = 0 →
    ∃ t, exec (.segSetupFaultArea r q) s = .next t
      ∧ (t.part c.part).faultArea = some (sSeg c.desc, sBase c.desc) ∧ t.completed c stOk 0 0)

/-- R244: REMOVE makes the segment invalid for every later check and UNMAP its pages, and each starts the drain; a task
parked on a segment that is removed completes with BOUNDS; when every admitted post and started command checked before has
completed, and no host caches a line of its frames, a removed segment or the pages unmapped are gone and the command
completes with OK.
Choices of the model: log entry 85. -/
def Obligations.SegmentRemoval : Prop :=
  (∀ (s u : State) (r q : Nat) (c : Cmd) (v : Seg), s.segFree = true → s.passes r q 0x33 c u → sOp c.desc = 1 →
    sSeg c.desc ≤ 7 → u.heldSeg c.part (sSeg c.desc) = some v → u.holdsTable c.part (sSeg c.desc) = false →
    (u.fe.tasks.filter fun e => e.2.part == c.part && e.2.seg == sSeg c.desc) = [] →
    ∃ t d, exec (.segSetupRemove r q) s = .next t ∧ t.fe.drain = some d ∧ d.cmd = cmdKey r q ∧ d.part = c.part
      ∧ d.seg = sSeg c.desc ∧ d.pages = none ∧ t.seg? c.part (sSeg c.desc) = none)
  ∧ (∀ (s u : State) (r q : Nat) (c : Cmd) (v : Seg), s.segFree = true → s.passes r q 0x33 c u → sOp c.desc = 3 →
    u.mapShape c.part c.desc = some v →
    ∃ t d, exec (.segSetupUnmap r q) s = .next t ∧ t.fe.drain = some d ∧ d.cmd = cmdKey r q
      ∧ d.pages = some (sFirst c.desc, sPages c.desc)
      ∧ ∀ (x : Range) (g : Nat), x.seg = sSeg c.desc → g ∈ pagesOf x.off x.len → sFirst c.desc ≤ g →
          g < sFirst c.desc + sPages c.desc → (t.rangeFault c.part x).isSome = true)
  ∧ (∀ (s u : State) (r q n k : Nat) (c c' : Cmd) (v : Seg) (e : Task), s.segFree = true → s.passes r q 0x33 c u →
    sOp c.desc = 1 → sSeg c.desc ≤ 7 → u.heldSeg c.part (sSeg c.desc) = some v →
    u.holdsTable c.part (sSeg c.desc) = false → u.fe.held = [] →
    (u.fe.tasks.filter fun e => e.2.part == c.part && e.2.seg == sSeg c.desc) = [(n, e)] → e.cmd = k →
    u.cmd? k = some c' → k = cmdKey c'.ring c'.seq → k ≠ cmdKey r q →
    ∃ t, exec (.segSetupRemove r q) s = .next t ∧ t.completed c' stBounds c'.idleResult 0 ∧ t.isRunning (cmdKey r q))
  ∧ (∀ (s : State) (p g : Nat) (d : SegDrain) (c : Cmd) (v : Seg), s.fe.drain = some d → d.part = p → d.seg = g →
    d.pages = none → s.drained d = true → s.drainLines d = [] → s.cmd? d.cmd = some c → c.op = 0x33 →
    d.cmd = cmdKey c.ring c.seq → s.post? d.cmd = none → FMap.find (s.part p).segs g = some v →
    ∃ t, exec (.segmentDrainDone p g) s = .next t ∧ FMap.find (t.part p).segs g = none ∧ t.fe.drain = none
      ∧ t.completed c stOk 0 0)
  ∧ (∀ (s : State) (p g f n : Nat) (d : SegDrain) (c : Cmd) (v : Seg), s.fe.drain = some d → d.part = p → d.seg = g →
    d.pages = some (f, n) → s.drained d = true → s.drainLines d = [] → s.cmd? d.cmd = some c →
    d.cmd = cmdKey c.ring c.seq → s.post? d.cmd = none → FMap.find (s.part p).segs g = some v →
    ∃ t v', exec (.segmentDrainDone p g) s = .next t ∧ FMap.find (t.part p).segs g = some v' ∧ t.fe.drain = none
      ∧ t.completed c stOk 0 0 ∧ ∀ x, f ≤ x → x < f + n → FMap.find v'.map x = none)

/-- R246 to R251: a walk's segment entry enters the cache and the command goes on waiting for the page it still
misses; a copied fault record raises FAULT_RAISED; FAULT_RESUME END completes its tasks with FAULTED, and RESUME
checks a task's command again, here to complete it with BOUNDS since its range does not stand.
Choices of the model: log entries 13 and 92. -/
def Obligations.FaultHandling : Prop :=
  (∀ (s : State) (r q g page : Nat) (c : Cmd) (dir : Rd), s.cmd? (cmdKey r q) = some c → c.phase = .walking →
    (s.fe.walks.take 8).contains (cmdKey r q) = true → s.nextWalk c = some (g, page) →
    page = noPage ∨ (s.walkFill c.part g page).faultKind c.part g (page * pageSize) = 0 →
    ((s.walkFill c.part g page).segMisses c.part ((s.walkFill c.part g page).cmdRanges c)) = [] →
    firstSome ((s.walkFill c.part g page).rangeBad c.part) ((s.walkFill c.part g page).cmdRanges c) = none →
    ((s.walkFill c.part g page).pageMisses c.part ((s.walkFill c.part g page).cmdRanges c)) ≠ [] →
    ∃ t, exec (.translationWalkDone r q false dir) s = .next t ∧ segToken c.part g ∈ t.fe.segCache
      ∧ t.counter 0x070 c.part = s.counter 0x070 c.part + 1
      ∧ t.cmd? (cmdKey r q) = some { c with progress := s.now } ∧ cmdKey r q ∈ t.fe.walks)
  ∧ (∀ (s : State) (p : Nat), s.doneFor (.faultCopy p) = true →
    ∃ t, exec (.faultRecordAccepted p) s = .next t ∧ t.hasCause cFaultRaised)
  ∧ (∀ (s u : State) (r q n k : Nat) (c c' : Cmd), s.segFree = true → s.passes r q 0x34 c u → c.f 16 1 = 1 →
    u.foreignTask c.part (c.f 18 2) = false → u.namedTasks c.part (c.f 18 2) = [(n, k)] → u.cmd? k = some c' →
    k = cmdKey c'.ring c'.seq → k ≠ cmdKey r q → u.fe.held = [] →
    ∃ t, exec (.faultResumeEnd r q) s = .next t ∧ t.completed c' stFaulted c'.idleResult 0 ∧ t.completed c stOk 1 0)
  ∧ (∀ (s u : State) (r q n k : Nat) (c c' : Cmd), s.segFree = true → s.passes r q 0x34 c u → c.f 16 1 = 0 →
    u.foreignTask c.part (c.f 18 2) = false → u.namedTasks c.part (c.f 18 2) = [(n, k)] → u.cmd? k = some c' →
    k = cmdKey c'.ring c'.seq → k ≠ cmdKey r q → u.fe.held = [] →
    firstSome ((u.freeTaskOf k).rangeBad c'.part) ((u.freeTaskOf k).cmdRanges c') = some false →
    ∃ t, exec (.faultResumeResume r q []) s = .next t ∧ t.completed c' stBounds c'.idleResult 0
      ∧ t.completed c stOk 1 0)

/-! ### Reams (chapters 3 and 8) -/

/-- R36 to R38: REAM_LOAD of an image that passes every check of R37 runs with the image's header and records, one
that fails a check completes with REAM_INVALID and the reason; when the copy is done the ream's tables take over as
sweep 0, admission opens and the load completes with OK.
Choices of the model: log entries 16 and 19. -/
def Obligations.ReamLoading : Prop :=
  (∀ (s u v : State) (r q raw cod : Nat) (c : Cmd) (img : Rd) (g : Img), s.passes r q 0x10 c u →
    s.modeFree u c img → u.operand (cmdKey r q) c.part (c.f 16 1) (c.f 24 6) (c.f 32 4) v → u.ream.job = none →
    u.ream.resident = false → u.anyTest = false →
    v.checkLoad c.part (c.f 32 4) c.coded (u.imageRead c img) = .good g raw cod →
    ∃ t j, exec (.reamLoad r q img) s = .next t ∧ t.isRunning (cmdKey r q) ∧ t.ream.owner = c.part
      ∧ t.ream.job = some j ∧ j.cmd = cmdKey r q ∧ j.kind = 0 ∧ j.hdr = g.hdr ∧ j.recs = g.recs
      ∧ t.ream.resident = false)
  ∧ (∀ (s u v : State) (r q rs i : Nat) (b : Bool) (c : Cmd) (img : Rd), s.passes r q 0x10 c u →
    s.modeFree u c img → u.operand (cmdKey r q) c.part (c.f 16 1) (c.f 24 6) (c.f 32 4) v → u.ream.job = none →
    u.ream.resident = false → u.anyTest = false →
    v.checkLoad c.part (c.f 32 4) c.coded (u.imageRead c img) = .bad rs i b →
    ∃ t, exec (.reamLoad r q img) s = .next t ∧ t.completed c stReamInvalid (rejectInfo rs i) 0
      ∧ t.ream.rejectInfo = rejectInfo rs i ∧ t.ream.resident = false)
  ∧ (∀ (s : State) (j : ReamJob) (c : Cmd), s.ream.job = some j → j.kind = 0 → s.loadLines j = [] →
    s.cmd? j.cmd = some c → j.cmd = cmdKey c.ring c.seq →
    ∃ t, exec .reamLoadCopyDone s = .next t ∧ t.ream.resident = true ∧ t.ream.admission = true
      ∧ t.ream.sweeps = 0 ∧ t.ream.interval = 0
      ∧ t.ream.hdr = j.hdr ∧ t.ream.recs = ctlRecs j.recs ∧ t.ream.act.num = 0 ∧ t.ream.act.recs = verRecs j.recs
      ∧ t.completed c stOk 0 0)

/-- R54, R55, R36, R39: a patch that passes its checks runs beside the resident ream, which stays as it is until the
version switches; an unload runs at once where no ream command is in progress and else waits behind it.
Choices of the model: log entries 19 and 29. -/
def Obligations.ReamPatchUnload : Prop :=
  (∀ (s u v : State) (r q raw cod : Nat) (c : Cmd) (img : Rd) (g : Img), s.passes r q 0x11 c u →
    s.modeFree u c img → u.operand (cmdKey r q) c.part (c.f 16 1) (c.f 24 6) (c.f 32 4) v → u.ream.job = none →
    u.ream.old = none → u.ream.resident = true → c.part = u.ream.owner →
    v.checkPatch (c.f 32 4) c.coded (u.imageRead c img) = .good g raw cod →
    ∃ t j, exec (.reamPatch r q img) s = .next t ∧ t.isRunning (cmdKey r q) ∧ t.ream.job = some j
      ∧ j.cmd = cmdKey r q ∧ j.kind = 1 ∧ j.hdr = g.hdr ∧ j.own = g.own.map (·.2) ∧ t.ream.hdr = u.ream.hdr
      ∧ t.ream.recs = u.ream.recs ∧ t.ream.act = u.ream.act)
  ∧ (∀ (s u v : State) (r q rs i : Nat) (b : Bool) (c : Cmd) (img : Rd), s.passes r q 0x11 c u →
    s.modeFree u c img → u.operand (cmdKey r q) c.part (c.f 16 1) (c.f 24 6) (c.f 32 4) v → u.ream.job = none →
    u.ream.old = none → u.ream.resident = true → c.part = u.ream.owner →
    v.checkPatch (c.f 32 4) c.coded (u.imageRead c img) = .bad rs i b →
    ∃ t, exec (.reamPatch r q img) s = .next t ∧ t.completed c stReamInvalid (rejectInfo rs i) 0
      ∧ t.ream.act = u.ream.act)
  ∧ (∀ (s u : State) (r q : Nat) (c : Cmd), s.passes r q 0x12 c u → c.part = u.ream.owner → u.ream.job = none →
    ∃ t j, exec (.reamUnload r q) s = .next t ∧ t.isRunning (cmdKey r q) ∧ t.ream.job = some j
      ∧ j.cmd = cmdKey r q ∧ j.kind = 2 ∧ t.ream.unloads = u.ream.unloads)
  ∧ (∀ (s u : State) (r q : Nat) (c : Cmd), s.passes r q 0x12 c u → c.part = u.ream.owner → u.ream.job ≠ none →
    ∃ t, exec (.reamUnload r q) s = .next t ∧ t.isRunning (cmdKey r q) ∧ t.ream.job = u.ream.job
      ∧ t.ream.unloads = u.ream.unloads ++ [cmdKey r q])

/-- R164, R326: TABLE_COMMIT and CHECKPOINT run one at a time, each to the last update step given so far; when its
steps have completed and every change of theirs is in the log, with the records of the commit, TABLE_COMMIT completes with
that step, and CHECKPOINT too, its digests written.
Choices of the model: log entry 80. -/
def Obligations.Commits : Prop :=
  (∀ (s u : State) (r q : Nat) (c : Cmd), s.passes r q 0x13 c u → u.rel.commit = none →
    ∃ t m, exec (.tableCommit r q) s = .next t ∧ t.isRunning (cmdKey r q) ∧ t.rel.commit = some m
      ∧ m.cmd = cmdKey r q ∧ m.check = false
      ∧ m.c = if u.ream.stepped then some (u.ream.updStep - 1) else none)
  ∧ (∀ (s u : State) (r q : Nat) (c : Cmd), s.passes r q 0x51 c u → u.ream.resident = true → c.part = u.ream.owner →
    64 + 32 * u.shardList.length ≤ c.f 32 4 → u.rel.commit = none →
    ∃ t m, exec (.checkpoint r q) s = .next t ∧ t.isRunning (cmdKey r q) ∧ t.rel.commit = some m
      ∧ m.cmd = cmdKey r q ∧ m.check = true
      ∧ m.c = if u.ream.stepped then some (u.ream.updStep - 1) else none)
  ∧ (∀ (s u : State) (r q : Nat) (c : Cmd), s.passes r q 0x13 c u → u.rel.commit ≠ none →
    ∃ t, exec (.tableCommit r q) s = .next t ∧ t.completed c stCommitBusy 0 0)
  ∧ (∀ (s u : State) (m : Commit) (c : Cmd) (n : Nat), s.rel.commit = some m → m.check = false → m.c = some n →
    s.stepsOpen m.c = false → u = s.writeBackAll.appendAll → u.staleLeft = false → u.rowsLeft = false → u.gat.flips = [] →
    (u.append [{ kind := 7, body := natLe 8 n }]).rel.vault.lsn ≠ u.rel.vault.lsn →
    s.cmd? m.cmd = some c → m.cmd = cmdKey c.ring c.seq →
    ∃ t, exec .commitStepsDrained s = .next t ∧ t.completed c stOk n 0 ∧ t.rel.commit = none)
  ∧ (∀ (s u w x v : State) (m : Commit) (c : Cmd) (n : Nat), s.rel.commit = some m → m.check = true → m.c = some n →
    s.stepsOpen m.c = false → u = s.writeBackAll.appendAll → u.staleLeft = false → u.rowsLeft = false → u.gat.flips = [] →
    u.digestLines m = [] → w = u.append (u.commitRecs m n) → w.rel.vault.lsn ≠ u.rel.vault.lsn →
    s.cmd? m.cmd = some c → m.cmd = cmdKey c.ring c.seq →
    x = w.openRange c.part (c.f 16 1) (c.f 24 6) (w.digestList n).length false →
    v = x.writeSeg (.result m.cmd) c.part (c.f 16 1) (c.f 24 6) (x.digestList n) [] → v.cutOff c = false →
    ∃ t, exec .commitStepsDrained s = .next t ∧ t.completed c stOk n 0 ∧ t.rel.commit = none ∧ t.mem = v.mem
      ∧ t.io = v.io)

/-! ### Keys, profiles and ingest (chapter 9) -/

/-- R199, R347, R200, R198: an installation waits its turn with the blob it read, and one whose slot is taken, by an
earlier installation too, completes with KEY_BUSY; a good blob loads the slot with
its keys and OUT_CTR 0, a bad one completes with KEY_UNWRAP_FAIL and its reason; an erase waits for the commands that
keep the slot and then empties it; a query of a slot reports it.
Choices of the model: log entries 57 and 112. -/
def Obligations.KeySlots : Prop :=
  (∀ (s u v : State) (r q : Nat) (c : Cmd) (b rd : Rd), s.passes r q 0x20 c u → (u.slot (c.f 16 2)).loaded = false →
    (u.slot (c.f 16 2)).unwrap = none → u.slotTaken (cmdKey r q) (c.f 16 2) = false →
    u.operand (cmdKey r q) c.part (c.f 18 1) (c.f 24 6) (c.f 20 2) v →
    rd = v.readSeg c.part (c.f 18 1) (c.f 24 6) (c.f 20 2) (u.operOf (cmdKey r q) c.part (c.f 18 1) b) →
    ∃ t, exec (.keyInstall r q b) s = .next t ∧ t.isRunning (cmdKey r q)
      ∧ (t.slot (c.f 16 2)).unwrap = some (cmdKey r q, if rd.poison.isEmpty then rd.data else [])
      ∧ cmdKey r q ∈ t.sec.unwraps ∧ (t.slot (c.f 16 2)).loaded = false
      ∧ ∀ n, n ≠ c.f 16 2 → t.slot n = u.slot n)
  ∧ (∀ (s u : State) (r q : Nat) (c : Cmd) (b : Rd), s.passes r q 0x20 c u →
    (u.slot (c.f 16 2)).loaded = true ∨ (u.slot (c.f 16 2)).unwrap ≠ none
      ∨ u.slotTaken (cmdKey r q) (c.f 16 2) = true →
    ∃ t, exec (.keyInstall r q b) s = .next t ∧ t.completed c stKeyBusy 0 0
      ∧ t.slot (c.f 16 2) = u.slot (c.f 16 2))
  ∧ (∀ (s : State) (n k : Nat) (b pt : Bytes) (c : Cmd), (s.slot n).unwrap = some (k, b) →
    s.installs.head? = some k → s.unwrapBlob b = .inr pt → s.cmd? k = some c → k = cmdKey c.ring c.seq →
    ∃ t, exec (.keyUnwrapDone n) s = .next t ∧ (t.slot n).loaded = true ∧ (t.slot n).keyId = pt.take 8
      ∧ (t.slot n).alg = fld pt 8 1 ∧ (t.slot n).outCtr = 0 ∧ (t.slot n).unwrap = none ∧ t.completed c stOk 0 0
      ∧ ∀ j, j ≠ n → t.slot j = s.slot j)
  ∧ (∀ (s : State) (n k e : Nat) (b : Bytes) (c : Cmd), (s.slot n).unwrap = some (k, b) →
    s.installs.head? = some k → s.unwrapBlob b = .inl e → s.cmd? k = some c → k = cmdKey c.ring c.seq →
    ∃ t, exec (.keyUnwrapDone n) s = .next t ∧ (t.slot n).loaded = (s.slot n).loaded ∧ t.sec.unwrapReason = e
      ∧ t.sec.unwrapSlot = n ∧ t.completed c stKeyUnwrapFail 0 0)
  ∧ (∀ (s u : State) (r q : Nat) (c : Cmd), s.passes r q 0x21 c u → (u.slot (c.f 16 2)).bound = 0 →
    (u.slot (c.f 16 2)).loaded = true → (u.slot (c.f 16 2)).erase = none →
    ∃ t ws, exec (.keyErase r q) s = .next t ∧ (t.slot (c.f 16 2)).erase = some (cmdKey r q, ws)
      ∧ (∀ w, w ∈ ws ↔ ∃ d, (w, d) ∈ u.fe.cmds ∧ w ≠ cmdKey r q ∧ d.namesSlot (c.f 16 2) = true ∧ d.part = c.part)
      ∧ t.isRunning (cmdKey r q))
  ∧ (∀ (s : State) (n k : Nat) (ws : List Nat) (c : Cmd), (s.slot n).erase = some (k, ws) →
    (∀ w ∈ ws, s.cmd? w = none) → (s.slot n).bound = 0 → s.cmd? k = some c → k = cmdKey c.ring c.seq →
    ∃ t, exec (.keyEraseFinish n) s = .next t ∧ t.slot n = {} ∧ t.completed c stOk 0 0)
  ∧ (∀ (s u v : State) (r q : Nat) (c : Cmd), s.passes r q 0x22 c u →
    ((u.slot (c.f 16 2)).loaded = true → (u.slot (c.f 16 2)).usable (cmdKey r q) = true) →
    u.openAsk c.part (c.f 18 1) (c.f 24 6) 64 true = (true, v) →
    ∃ t, exec (.keyQuery r q) s = .next t ∧ t.completed c stOk 0 0
      ∧ t.mem = (v.writeSeg (.result (cmdKey r q)) c.part (c.f 18 1) (c.f 24 6) (u.slot (c.f 16 2)).report []).mem
      ∧ t.io = (v.writeSeg (.result (cmdKey r q)) c.part (c.f 18 1) (c.f 24 6) (u.slot (c.f 16 2)).report []).io)

/-- R202 to R206: a profile that keeps its relations is stored; an INGEST whose checks pass runs with its length; a
tag that holds puts the plaintext in place and one that fails, or a poisoned envelope, zeroes the destination and ends it
with TAG_FAIL; shingling writes the lists that fit, each at its offset of the output region, and completes with OK, or
with SHINGLE_OVER and the first chunk left where some do not fit.
Choices of the model: log entries 57 and 63. -/
def Obligations.Ingesting : Prop :=
  (∀ (s u v : State) (r q : Nat) (c : Cmd) (b rd : Rd), s.passes r q 0x23 c u →
    u.operand (cmdKey r q) c.part (c.f 17 1) (c.f 24 6) 32 v →
    rd = v.readSeg c.part (c.f 17 1) (c.f 24 6) 32 (u.operOf (cmdKey r q) c.part (c.f 17 1) b) → rd.poison = [] →
    profileBad rd.data = false →
    ∃ t, exec (.shingleProfile r q b) s = .next t ∧ t.completed c stOk 0 0
      ∧ FMap.find (t.part c.part).profiles (c.f 16 1) = some rd.data)
  ∧ (∀ (s u v : State) (r q : Nat) (c : Cmd) (rd : Rd), s.passes r q 0x24 c u →
    u.openAsk c.part c.iSrc.1 c.iSrc.2 (if c.iSealed then 64 else 0) false = (true, v) →
    rd = v.readSeg c.part c.iSrc.1 c.iSrc.2 64 { data := [] } →
    v.ingestCheck (cmdKey r q) c rd.data (!rd.poison.isEmpty) = 0 →
    ∃ t i, exec (.ingest r q) s = .next t ∧ t.isRunning (cmdKey r q) ∧ FMap.find t.ingests (cmdKey r q) = some i
      ∧ i.profile = c.iProf ∧ (c.iSealed = true → i.stage = 0 ∧ i.len = eCt rd.data)
      ∧ (c.iSealed = false → i.stage = 1 ∧ i.len = c.iLen))
  ∧ (∀ (s v u : State) (r q : Nat) (c : Cmd) (i : Ingest) (rd : Rd) (iv aad ct : Bytes),
    FMap.find s.ingests (cmdKey r q) = some i → s.cmd? (cmdKey r q) = some c → cmdKey c.ring c.seq = cmdKey r q →
    i.stage = 0 → s.openAsk c.part c.iSrc.1 c.iSrc.2 (eBytes i.head) false = (true, v) →
    rd = v.readSeg c.part c.iSrc.1 c.iSrc.2 (eBytes i.head) { data := [] } →
    u = v.openRange c.part c.iDst.1 c.iDst.2 i.len false → rd.poison = [] →
    iv = (i.head.drop 16).take 12 → aad = i.head ++ (rd.data.drop 64).take (eAad i.head) →
    ct = (rd.data.drop (64 + eAad i.head)).take i.len →
    gcmTag (s.slot c.iSlot).alg (s.slot c.iSlot).ingestKey iv aad ct
      = rd.data.drop (64 + eAad i.head + i.len) →
    ∃ t, exec (.ingestDecryptDone r q) s = .next t
      ∧ t.mem = (u.writeSeg .other c.part c.iDst.1 c.iDst.2
          (gcmDec (s.slot c.iSlot).alg (s.slot c.iSlot).ingestKey iv ct) []).mem
      ∧ (i.profile = none → t.completed c stOk (ingestResult i.len 0) 0 ∧ FMap.find t.ingests (cmdKey r q) = none)
      ∧ (i.profile ≠ none → FMap.find t.ingests (cmdKey r q) = some { i with stage := 1 }))
  ∧ (∀ (s v u : State) (r q : Nat) (c : Cmd) (i : Ingest) (rd : Rd) (iv aad ct : Bytes),
    FMap.find s.ingests (cmdKey r q) = some i → s.cmd? (cmdKey r q) = some c → cmdKey c.ring c.seq = cmdKey r q →
    i.stage = 0 → s.openAsk c.part c.iSrc.1 c.iSrc.2 (eBytes i.head) false = (true, v) →
    rd = v.readSeg c.part c.iSrc.1 c.iSrc.2 (eBytes i.head) { data := [] } →
    u = v.openRange c.part c.iDst.1 c.iDst.2 i.len false →
    iv = (i.head.drop 16).take 12 → aad = i.head ++ (rd.data.drop 64).take (eAad i.head) →
    ct = (rd.data.drop (64 + eAad i.head)).take i.len →
    rd.poison ≠ [] ∨ gcmTag (s.slot c.iSlot).alg (s.slot c.iSlot).ingestKey iv aad ct
      ≠ rd.data.drop (64 + eAad i.head + i.len) →
    ∃ t, exec (.ingestDecryptDone r q) s = .next t ∧ t.completed c stTagFail 0 0
      ∧ t.mem = (u.zeroDst c i.len).mem ∧ t.counter 0x052 c.iSlot = s.counter 0x052 c.iSlot + 1)
  ∧ (∀ (s v w : State) (r q n : Nat) (c : Cmd) (i : Ingest) (prof : Bytes) (src : Nat × Nat) (rd : Rd),
    FMap.find s.ingests (cmdKey r q) = some i → s.cmd? (cmdKey r q) = some c → cmdKey c.ring c.seq = cmdKey r q →
    i.stage = 1 → i.profile = some prof → src = (if c.iSealed then c.iDst else c.iSrc) →
    s.segLines c.part c.iOut.1 c.iOut.2 c.iOutCap = [] →
    s.openAsk c.part src.1 src.2 i.len false = (true, v) → rd = v.readSeg c.part src.1 src.2 i.len { data := [] } →
    rd.poison = [] →
    w = v.each (shingleLists prof rd.data c.iOutCap).2 (fun s x => (s.openRange c.part c.iOut.1 (c.iOut.2 + x.1)
        (listOf prof (x.2.map fun y => (y.1, y.2.1))).length false).writeSeg .other c.part c.iOut.1 (c.iOut.2 + x.1)
          (listOf prof (x.2.map fun y => (y.1, y.2.1))) []) →
    n = ((shingleLists prof rd.data c.iOutCap).2.map fun x => x.2.length).foldl (· + ·) 0 →
    ∃ t, exec (.shingleDone r q) s = .next t ∧ FMap.find t.ingests (cmdKey r q) = none ∧ t.mem = w.mem ∧ t.io = w.io
      ∧ ((shingleLists prof rd.data c.iOutCap).1.drop n = [] → t.completed c stOk (ingestResult i.len n) 0)
      ∧ ∀ x xs, (shingleLists prof rd.data c.iOutCap).1.drop n = x :: xs →
          t.completed c stShingleOver (ingestResult x.1.1 n) 0)

/-! ### Posts, from acceptance to admission (chapters 3 and 10) -/

/-- R231 steps 6 and 7, R45, R290, R382: a post whose directory and seals pass enters staging with what its directory
says; one without queries completes at once with OK; the directory of a remote input is first read by RDMA READ. A
waiting post takes a free buffer set, and a remote input is read by RDMA READ. -/
def Obligations.PostAccepted : Prop :=
  (∀ (s u w : State) (r q : Nat) (c : Cmd) (dir rd : Rd) (d : Bytes) (lists : List PList) (bodyEnd : Nat),
    s.passes r q 0x01 c u → s.dirEarly c dir = 0 →
    u.operand (cmdKey r q) c.part (c.f 20 1) (c.f 24 6) (Nat.min (dirSize (c.f 18 2)) (c.f 40 4)) w →
    rd = w.readSeg c.part (c.f 20 1) (c.f 24 6) (dirSize (c.f 18 2)) (u.operOf (cmdKey r q) c.part (c.f 20 1) dir) →
    rd.poison = [] → d = rd.data ++ zeros (dirSize (c.f 18 2) - rd.data.length) →
    w.layLists (c.f 16 2) d (c.f 18 2) (fld d 0 4) (c.f 16 2 * hDense w.ream.hdr) = (lists, bodyEnd) →
    dirSize (c.f 18 2) + bodyEnd ≤ c.f 40 4 → dirBad d (c.f 18 2) (c.f 22 2 != noSlot) = false →
    (lists.any (fun l => l.kind == 1) = true → (w.part c.part).feat 3 = true) →
    lists.any (fun l => 16777216 < l.entries) = false → c.f 16 2 ≤ hQMax w.ream.hdr →
    lists.any w.listShape = false → dupLists lists = false →
    (c.coded = false → fld d 0 4 = c.f 16 2 * hDense w.ream.hdr) →
    c.f 44 4 = c.f 16 2 * hResult w.ream.hdr →
    lists.any (fun l => l.kind == 1 && !(tUpdParts (recBody w.ream.recs 8 l.table)).testBit c.part) = false →
    w.sealCheck c d bodyEnd = 0 →
    ∃ t, exec (.post r q dir) s = .next t
      ∧ (c.f 16 2 = 0 → t.completed c stOk (postResult 0 none) 0)
      ∧ (c.f 16 2 ≠ 0 → ∃ v, t.post? (cmdKey r q) = some v ∧ v.phase = 0 ∧ v.q = c.f 16 2 ∧ v.part = c.part
          ∧ v.lists = lists ∧ v.denseLen = fld d 0 4))
  ∧ (∀ (s u : State) (r q : Nat) (c : Cmd) (dir : Rd) (g : Seg) (n : Nat), s.passes r q 0x01 c u →
    s.dirEarly c dir = 0 → u.remoteSeg c.part (c.f 20 1) = some g →
    n = Nat.min (dirSize (c.f 18 2)) (c.f 40 4) → n ≠ 0 → u.operReady (cmdKey r q) = false →
    u.outFor (.oper (cmdKey r q)) = false →
    ∃ t, exec (.post r q dir) s = .next t ∧ t.post? (cmdKey r q) = u.post? (cmdKey r q)
      ∧ t.io.out.length = u.io.out.length + (piecesOf g (c.f 24 6) (zeros n)).length
      ∧ ∀ x ∈ t.io.out, x ∈ u.io.out
          ∨ (x.use = .oper (cmdKey r q) ∧ x.kind = 1 ∧ x.qp = some g.qp ∧ x.rkey = g.rkey))
  ∧ (∀ (s : State) (r q : Nat) (v : Post) (c : Cmd), s.post? (cmdKey r q) = some v → s.cmd? (cmdKey r q) = some c →
    v.phase = 0 → s.setsInUse < s.bufferSets → s.remoteInput c = false →
    ∃ t, exec (.stagingStart r q) s = .next t ∧ t.post? (cmdKey r q) = some { v with phase := 1, set := s.freeSet }
      ∧ s.freeSet < s.bufferSets ∧ (∀ x ∈ s.posts, x.2.phase ≠ 0 → x.2.set ≠ s.freeSet) ∧ t.io = s.io)
  ∧ (∀ (s : State) (r q : Nat) (v : Post) (c : Cmd) (g : Seg), s.post? (cmdKey r q) = some v →
    s.cmd? (cmdKey r q) = some c → v.phase = 0 → s.setsInUse < s.bufferSets → s.heldSeg c.part (c.f 20 1) = some g →
    g.tier = 2 → g.remote = true → s.hostUp c.part g.qp = true →
    ∃ t, exec (.stagingStart r q) s = .next t ∧ t.post? (cmdKey r q) = some { v with phase := 1, set := s.freeSet }
      ∧ t.io.out.length = s.io.out.length + (piecesOf g c.bodyOff (zeros v.bodyEnd)).length
      ∧ ∀ x ∈ t.io.out, x ∈ s.io.out ∨ (x.use = .stage (cmdKey r q) ∧ x.kind = 1 ∧ x.qp = some g.qp ∧ x.rkey = g.rkey))

/-- R42, R213, R214, R382: a block of a coded input is decoded in order; when the whole body is staged the post holds
its raw body and joins the admission queue.
Choices of the model: log entry 33. -/
def Obligations.InputStaging : Prop :=
  (∀ (s u : State) (r q n : Nat) (v : Post) (c : Cmd) (block raw : Bytes) (rd : Rd),
    s.post? (cmdKey r q) = some v → s.cmd? (cmdKey r q) = some c → v.phase = 1 → c.coded = true → v.sealRec = [] →
    s.stageWaits (cmdKey r q) = false → v.rawDone < s.denseRaw v →
    n = Nat.min (17 * 256) (sheetUp v.denseLen - v.codedPos) →
    s.openAsk c.part (c.f 20 1) (c.bodyOff + v.codedPos) n false = (true, u) →
    rd = u.readSeg c.part (c.f 20 1) (c.bodyOff + v.codedPos) n
      { data := if s.remoteInput c then (s.stageData (cmdKey r q)).data.drop v.codedPos else block } →
    decodeBlock v.decoded.length rd.data = some raw → raw.length ≤ s.denseRaw v - v.rawDone →
    (raw.length = 4096 ∨ raw.length = s.denseRaw v - v.rawDone) →
    v.codedPos + 256 * blockSheets rd.data ≤ sheetUp v.denseLen →
    ∃ t v', exec (.beaterBlockDecode r q block) s = .next t ∧ t.post? (cmdKey r q) = some v' ∧ v'.phase = 1
      ∧ v'.decoded = FMap.set v.decoded v.decoded.length raw
      ∧ v'.codedPos = v.codedPos + 256 * blockSheets rd.data)
  ∧ (∀ (s u w : State) (r q : Nat) (v : Post) (c : Cmd) (body rd : Rd) (p raw : Bytes), s.post? (cmdKey r q) = some v →
    s.cmd? (cmdKey r q) = some c → v.phase = 1 → s.cutOff c = false → s.stageWaits (cmdKey r q) = false →
    s.openAsk c.part (c.f 20 1) (c.bodyOff + v.codedPos) (v.bodyEnd - v.codedPos) false = (true, u) →
    rd = u.readSeg c.part (c.f 20 1) c.bodyOff v.bodyEnd
      (if u.remoteInput c then u.stageData (cmdKey r q) else body) →
    w = (if u.remoteInput c then u.unstage (cmdKey r q) else u) →
    w.openBody c v (fit v.bodyEnd rd.data) = some p → w.rawDense c v p = some raw →
    ∃ t v', exec (.inputStagingDone r q body) s = .next t ∧ t.post? (cmdKey r q) = some v' ∧ v'.phase = 2
      ∧ v'.body.take raw.length = raw ∧ t.ream.queue = s.ream.queue ++ [cmdKey r q])

/-- R29, R32, R43, R47, R52, R152, R165, R166: at a slot's opening the chosen post is admitted and, where each tile of
stage 0 has its first context free, holds that context on each, on the active version; an update post takes the next step;
one that would pass the dirty bound, or the partner's acknowledged step, is refused and takes none; a slot that YP2 leaves
empty counts in CAP_SKIP; an interval boundary opens the next interval, and the sweep boundary after the last interval
begins the next sweep.
Choices of the model: log entries 20, 22 and 113. -/
def Obligations.SweepAndAdmission : Prop :=
  (∀ (s : State) (k : Nat) (v : Post), s.slotFor k v → s.admits v →
    ∃ t, exec .admissionSlotOpen s = .next t ∧ t.ream.slotDone = true ∧ t.ream.admitted = s.ream.admitted + 1
      ∧ k ∉ t.ream.queue
      ∧ t.ream.updStep = if v.isUpdate then (s.ream.updStep + 1) % 2 ^ 64 else s.ream.updStep)
  ∧ (∀ (s : State) (k : Nat) (v : Post) (ts : List Nat), s.slotFor k v → s.admits v →
    ts = maskTiles (stTiles (s.stageRec 0)) → ts ≠ [] → (∀ n ∈ ts, s.ctx? n 0 = none) →
    ∃ t v', exec .admissionSlotOpen s = .next t ∧ t.post? k = some v' ∧ v'.phase = 3 ∧ v'.stage = 0
      ∧ v'.version = s.ream.act.num ∧ v'.order = s.ream.admitted
      ∧ v'.step = (if v.isUpdate then some s.ream.updStep else none)
      ∧ ∀ n ∈ ts, ∃ x, t.ctx? n 0 = some x ∧ x.post = some k ∧ x.version = s.ream.act.num)
  ∧ (∀ (s : State) (k : Nat) (v : Post) (c : Cmd), s.slotFor k v → v.isUpdate = true → s.tooDirty v →
    s.cmd? k = some c → k = cmdKey c.ring c.seq →
    ∃ t, exec .admissionSlotOpen s = .next t ∧ t.completed c stDirtyFull (postResult 0 v.step) 0 ∧ t.post? k = none
      ∧ t.ream.updStep = s.ream.updStep ∧ t.counter 0x03D v.part = s.counter 0x03D v.part + 1)
  ∧ (∀ (s : State) (k : Nat) (v : Post) (c : Cmd), s.slotFor k v → v.isUpdate = true → ¬ s.tooDirty v →
    s.lagFull = true → s.cmd? k = some c → k = cmdKey c.ring c.seq →
    ∃ t, exec .admissionSlotOpen s = .next t ∧ t.completed c stLagFull (postResult 0 v.step) 0 ∧ t.post? k = none
      ∧ t.ream.updStep = s.ream.updStep ∧ t.counter 0x03E v.part = s.counter 0x03E v.part + 1)
  ∧ (∀ (s : State), s.ream.resident = true → s.ream.admission = true → s.ream.slotDone = false →
    s.ream.interval < hSlots s.ream.hdr → s.ream.mode = 0x12 → hSlots s.ream.hdr - s.ream.skipN ≤ s.ream.interval →
    ∃ t, exec .admissionSlotOpen s = .next t ∧ t.ream = { s.ream with slotDone := true } ∧ t.posts = s.posts
      ∧ t.counter 0x006 0 = s.counter 0x006 0 + 1)
  ∧ (∀ s : State, s.ream.resident = true → s.rel.stuck = false → s.ream.interval < hSlots s.ream.hdr →
    ∃ t, exec .intervalBoundary s = .next t ∧ t.ream.interval = s.ream.interval + 1 ∧ t.ream.slotDone = false
      ∧ t.ream.sweeps = s.ream.sweeps)
  ∧ (∀ s : State, s.ream.resident = true → s.rel.stuck = false → hSlots s.ream.hdr ≤ s.ream.interval → s.ream.job = none →
    ∃ t, exec .sweepBoundary s = .next t ∧ t.ream.sweeps = (s.ream.sweeps + 1) % 2 ^ 48 ∧ t.ream.interval = 0
      ∧ t.ream.slotDone = false)

/-- R58, R316, R317: one sweep after a stage move's switch the source's scratchpad is zeroed; a calender slice whose
code matches goes on to the next pattern, and one that does not makes the tile suspect.
Choices of the model: log entry 21. -/
def Obligations.MoveAndCalender : Prop :=
  (∀ (s : State) (m : Move) (ms : List Move), s.ream.moves = m :: ms → m.wait = 0 →
    ∃ t, exec .stageMoveSourceRelease s = .next t ∧ t.ream.moves = ms
      ∧ t.mem = s.mem.zero (spAddr m.source 0) (256 * spLines))
  ∧ (∀ (s : State) (n : Nat) (crc : Word), (s.tile n).slice = true → (s.tile n).fills = [] → (s.tile n).vec = [] →
    crc = Config.calenderCode (s.tilePack n).1 (s.tile n).pattern → (s.tile n).pattern + 1 < (s.tilePack n).2 →
    ∃ t, exec (.calenderSliceEnd n crc) s = .next t ∧ (t.tile n).slice = false
      ∧ (t.tile n).pattern = (s.tile n).pattern + 1 ∧ t.rel.suspect = s.rel.suspect)
  ∧ (∀ (s : State) (n : Nat) (crc : Word), (s.tile n).slice = true → (s.tile n).fills = [] → (s.tile n).vec = [] →
    crc = Config.calenderCode (s.tilePack n).1 (s.tile n).pattern → (s.tilePack n).2 ≤ (s.tile n).pattern + 1 →
    ∃ t, exec (.calenderSliceEnd n crc) s = .next t ∧ (t.tile n).slice = false ∧ (t.tile n).pattern = 0
      ∧ t.counter 0x0B6 n = s.counter 0x0B6 n + 1)
  ∧ (∀ (s : State) (n : Nat) (crc : Word), (s.tile n).slice = true → (s.tile n).fills = [] → (s.tile n).vec = [] →
    crc ≠ Config.calenderCode (s.tilePack n).1 (s.tile n).pattern →
    ∃ t, exec (.calenderSliceEnd n crc) s = .next t ∧ (t.tile n).slice = false
      ∧ (t.tile n).pattern = (s.tile n).pattern ∧ t.rel.suspect = s.rel.suspect ||| 2 ^ n)

/-! ### Windows, the partner and restoring (chapters 13 and 15) -/

/-- R284, R285, R289: WINDOW_SETUP that passes its checks opens the window its operands describe; WINDOW_REMOVE closes
it to new messages; when no checked message through it is left the window is gone and the command completes.
Choices of the model: log entry 72. -/
def Obligations.Windows : Prop :=
  (∀ (s u : State) (r q : Nat) (c : Cmd), s.passes r q 0x40 c u → u.windowCheck c.part c.desc = 0 →
    ∃ t w, exec (.windowSetup r q) s = .next t ∧ t.completed c stOk 0 0
      ∧ FMap.find t.net.wins (wQp c.desc * 16 + wWin c.desc) = some w ∧ w.part = c.part ∧ w.seg = wSeg c.desc
      ∧ w.rights = wRights c.desc ∧ w.tag = wTag c.desc ∧ w.va = wVa c.desc ∧ w.off = wOff c.desc
      ∧ w.len = wLen c.desc ∧ w.closing = [])
  ∧ (∀ (s u : State) (r q : Nat) (c : Cmd), s.passes r q 0x40 c u → u.windowCheck c.part c.desc ≠ 0 →
    ∃ t, exec (.windowSetup r q) s = .next t ∧ t.completed c (u.windowCheck c.part c.desc) 0 0
      ∧ t.net.wins = u.net.wins)
  ∧ (∀ (s u : State) (r q : Nat) (c : Cmd) (w : Win), s.passes r q 0x41 c u →
    (u.part c.part).hasQp (wQp c.desc) = true → wWin c.desc ≤ 15 →
    (wWin c.desc = 15 → u.isAttachQp (wQp c.desc) = false) →
    FMap.find u.net.wins (wQp c.desc * 16 + wWin c.desc) = some w →
    ∃ t, exec (.windowRemove r q) s = .next t ∧ t.isRunning (cmdKey r q)
      ∧ FMap.find t.net.wins (wQp c.desc * 16 + wWin c.desc) = some { w with closing := w.closing ++ [cmdKey r q] })
  ∧ (∀ (s : State) (n win k : Nat) (w : Win) (c : Cmd), FMap.find s.net.wins (n * 16 + win) = some w →
    w.closing = [k] → s.cmd? k = some c → k = cmdKey c.ring c.seq → c.op = 0x41 →
    s.winBusy (n * 16 + win) = false →
    ∃ t, exec (.windowDrainDone n win) s = .next t ∧ t.completed c stOk 0 0
      ∧ FMap.find t.net.wins (n * 16 + win) = none)

/-- R322, R324: SENDER sends a HELLO and waits for its answer, RECEIVER takes a range of a segment as its intake,
UNPAIR ends the pairing on its queue pair; the answer makes the pairing active and completes SENDER, and without one
within a second SENDER fails.
Choices of the model: log entry 65. -/
def Obligations.Pairing : Prop :=
  (∀ (s u : State) (r q : Nat) (c : Cmd), s.passes r q 0x50 c u → c.f 16 1 = 0 → u.pairQp c = 0 →
    u.rel.sender = none → 0 < c.pSecuring → c.pSecuring ≤ 2 ^ 24 → u.qpUp c.pQp = true →
    ∃ t p x, exec (.partnerPairSender r q) s = .next t ∧ t.isRunning (cmdKey r q) ∧ t.rel.sender = some p
      ∧ p.qp = c.pQp ∧ p.securing = c.pSecuring ∧ p.cmd = some (cmdKey r q) ∧ p.active = false
      ∧ t.io.out = u.io.out ++ [x] ∧ x.qp = some c.pQp
      ∧ x.data = u.hello (u.rel.ackLsn.getD noLsn))
  ∧ (∀ (s u : State) (r q : Nat) (c : Cmd), s.passes r q 0x50 c u → c.f 16 1 = 1 → u.pairQp c = 0 →
    u.rel.receiver = none → u.intakeCheck c = 0 →
    ∃ t p, exec (.partnerPairReceiver r q) s = .next t ∧ t.completed c stOk 0 0 ∧ t.rel.receiver = some p
      ∧ p.qp = c.pQp ∧ p.seg = c.pSeg ∧ p.off = c.pOff ∧ p.len = c.pLen ∧ p.free = c.pLen)
  ∧ (∀ (s u : State) (r q : Nat) (c : Cmd) (p : Pair), s.passes r q 0x50 c u → c.f 16 1 = 2 → u.pairQp c = 0 →
    u.rel.sender = some p → p.qp = c.pQp → p.cmd = none →
    ∃ t, exec (.partnerPairUnpair r q) s = .next t ∧ t.completed c stOk 0 0 ∧ t.rel.sender = none)
  ∧ (∀ (s : State) (serial feed boot lsn k : Nat) (p : Pair) (c : Cmd), s.rel.sender = some p → p.cmd = some k →
    s.cmd? k = some c → k = cmdKey c.ring c.seq →
    ∃ t p', exec (.partnerHelloReceive serial feed boot lsn) s = .next t ∧ t.completed c stOk 0 0
      ∧ t.rel.sender = some p' ∧ p'.active = true ∧ p'.serial = serial ∧ p'.feed = feed ∧ p'.boot = boot
      ∧ p'.cmd = none ∧ p'.next = s.rel.vault.resumeAt lsn)
  ∧ (∀ (s : State) (k : Nat) (p : Pair) (c : Cmd), s.rel.sender = some p → p.cmd = some k → s.cmd? k = some c →
    k = cmdKey c.ring c.seq →
    ∃ t, exec .partnerHelloTimeout s = .next t ∧ t.completed c stXferFail 0 0 ∧ t.rel.sender = none)

/-- R291, R323, R327: the next record goes out into free intake space; an acknowledgement moves what is secured; a
record that arrives is appended to the vault as the sender's, once it has room; a stream that stalls raises PARTNER_STALL; a partner
that restores is sent its durable records in order.
Choices of the model: log entry 65. -/
def Obligations.PartnerStream : Prop :=
  (∀ (s : State) (p : Pair) (rec_ : VRec), s.rel.sender = some p → p.active = true →
    s.rel.vault.own.find? (fun r => r.lsn == p.next) = some rec_ → rec_.size ≤ p.free → rec_.kind ≠ 3 →
    ∃ t x, exec .partnerRecordWrite s = .next t
      ∧ t.rel.sender = some { p with next := p.next + 1, free := p.free - rec_.size }
      ∧ t.io.out = s.io.out ++ [x] ∧ x.data = rec_.header ++ rec_.body ∧ x.qp = some p.qp)
  ∧ (∀ (s : State) (step lsn free : Nat) (p : Pair), s.rel.sender = some p → p.active = true → lsn ≠ noLsn →
    ∃ t, exec (.partnerAckReceive step lsn free) s = .next t
      ∧ t.rel.sender = some { p with acked := some (step, lsn), free := free - s.sentPast p lsn }
      ∧ t.rel.ackLsn = some (Nat.max lsn (s.rel.ackLsn.getD 0)))
  ∧ (∀ (s : State) (b : Bytes) (p : Pair) (rec_ r' : VRec), s.rel.receiver = some p → parseRec b = some rec_ →
    r' = { rec_ with source := 1, serial := p.serial } → p.active = true → p.inbox = [] → r'.size ≤ p.free →
    s.intakeLines p b.length = [] → s.mounted.rel.vault.mustWait r'.size = false →
    ∃ t, exec (.partnerRecordArrival b) s = .next t
      ∧ t.rel.vault.log = s.rel.vault.log ++ [{ r' with unit := s.rel.vault.next }]
      ∧ t.rel.receiver = some { p with next := p.next + r'.size, free := p.free - r'.size })
  ∧ (∀ (s : State) (b : Bytes) (p : Pair) (rec_ r' : VRec), s.rel.receiver = some p → parseRec b = some rec_ →
    r' = { rec_ with source := 1, serial := p.serial } → p.active = true → p.inbox = [] → p.free < r'.size →
    ∃ t, exec (.partnerRecordArrival b) s = .next t ∧ t.rel.vault.log = s.rel.vault.log
      ∧ t.rel.receiver = some { p with inbox := [(b, false)] })
  ∧ (∀ (s : State) (p : Pair) (step lsn : Nat), s.rel.sender = some p → p.active = true →
    p.acked = some (step, lsn) → lsn + 1 < p.next →
    ∃ t, exec .partnerStall s = .next t ∧ t.hasCause cPartnerStall)
  ∧ (∀ (s : State) (serial : Nat) (p : Pair), s.rel.receiver = some p → s.qpUp p.qp = true →
    ∃ t, exec (.partnerRestoreRequest serial) s = .next t
      ∧ t.io.out.map (·.data) = s.io.out.map (·.data)
          ++ (s.rel.vault.log.filter fun r => r.source == 1 && r.serial == serial && r.durable).map
            fun r => r.header ++ r.body)

/-- R327 to R330: a RESTORE that is refused changes nothing and says why, one from the partner asks it for the replica of
SERIAL; one whose records replay and whose digests agree sets RESTORING, and at the next sweep boundary it completes with
OK, RESTORING clears and admission opens.
Choices of the model: log entry 79. -/
def Obligations.Restoring : Prop :=
  (∀ (s u : State) (r q : Nat) (c : Cmd) (replica : List Bytes), s.passes r q 0x52 c u → u.rel.restore = none →
    u.restoreCheck c (u.restoreSource c replica) ≠ 0 →
    ∃ t, exec (.restore r q replica) s = .next t
      ∧ t.completed c stRestoreReject (u.restoreCheck c (u.restoreSource c replica)) 0 ∧ t.mem = u.mem
      ∧ t.rel = u.rel ∧ t.ream = u.ream
      ∧ (c.f 16 1 = 1 → u.qpUp (c.f 18 2) = true →
          ∃ x, t.io.out = u.io.out ++ [x] ∧ x.qp = some (c.f 18 2) ∧ x.kind = 2 ∧ x.data = natLe 8 (c.f 24 8)))
  ∧ (∀ (s u v0 v1 v2 v : State) (r q : Nat) (c : Cmd) (replica : List Bytes) (p : Point), s.passes r q 0x52 c u →
    u.rel.restore = none → u.restoreCheck c (u.restoreSource c replica) = 0 →
    findPoint (u.restoreSource c replica) u.tableId = some p →
    v0 = (u.askReplica c).closeAdmission.setPhase (cmdKey r q) .running →
    v1 = { v0 with gat := { v0.gat with dirs := FMap.mapV v0.gat.dirs fun _ _ => [], flips := [] } } →
    v2 = v1.each v1.tileList (fun s t => s.setCtr 0x037 t 0) →
    v2.replayAll (recsIn (u.restoreSource c replica) v2.tableId p.base (p.commit + 1)) = (v, true) →
    (c.f 16 1 = 1 → ∀ b ∈ replica, b ≠ []) →
    v.digestsDiffer c (u.restoreSource c replica) p replica = false →
    ∃ t x f, exec (.restore r q replica) s = .next t ∧ t.rel.restoring = true
      ∧ t.rel.restore = some (cmdKey r q, x, f))
  ∧ (∀ (s : State) (k x f : Nat) (c : Cmd), s.ream.resident = true → s.rel.stuck = false →
    hSlots s.ream.hdr ≤ s.ream.interval → s.ream.job = none → s.ream.grantNext = none →
    s.rel.restore = some (k, x, f) → s.cmd? k = some c → k = cmdKey c.ring c.seq →
    ∃ t, exec .sweepBoundary s = .next t ∧ t.completed c stOk x f ∧ t.rel.restoring = false ∧ t.rel.restore = none
      ∧ t.ream.admission = true)

/-! ### Tiles: the array and the sequencer (chapters 4 and 5) -/

/-- R69, R74 to R77, R92, R93: an issued FILL holds its bank and joins the array's queue; its weight block moves into
the inactive registers; a fill whose block is active, or swaps in, and whose operands are sound adds its sums into
its bank; when it completes with LAST its bank is COMPLETE.
Choices of the model: log entries 35 and 40. -/
def Obligations.Fills : Prop :=
  (∀ (s u : State) (n c : Nat) (w : Bytes) (v : Ctx), s.issuing n c 0x01 w v u → (v.frame (fDk w)).rows ≠ 0 →
    ∃ t, exec (.fill n c) s = .next t ∧ ((t.tile n).bank (fBank w)).st = 1 ∧ ((t.tile n).bank (fBank w)).ctx = c
      ∧ (t.tile n).fills = (u.tile n).fills
          ++ [{ ctx := c, word := w, version := v.version, frame := v.frame (fDk w) }])
  ∧ (∀ (s : State) (n : Nat) (j : FillJob), (s.tile n).inactive = none →
    needsLoad ((s.tile n).active.map WBlock.key) (s.tile n).fills = some j →
    ∃ t, exec (.weightLoadDone n) s = .next t ∧ (t.tile n).inactive = some (s.readBlock n j)
      ∧ (t.tile n).active = (s.tile n).active ∧ t.mem = s.mem)
  ∧ (∀ (s u : State) (n : Nat) (j : FillJob) (x : Tile) (b : WBlock),
    (s.tile n).fills.find? (fun f => !f.started) = some j → (s.tile n).swapFor j = some (x, b) →
    u = s.setTile n x → u.fillPoison n j.word j.frame.rows b = false → u.fillTags n j.word = true →
    ∃ t, exec (.fillStart n) s = .next t ∧ (t.tile n).active = some b
      ∧ ((t.tile n).bank (fBank j.word)).rows
          = (((u.fillCompute n j b).1.tile n).bank (fBank j.word)).rows
      ∧ (∃ f ∈ (t.tile n).fills, f.started = true ∧ f.word = j.word) ∧ t.mem = s.mem)
  ∧ (∀ (s : State) (n : Nat) (j : FillJob), (s.tile n).fills.find? (fun f => f.started) = some j →
    ∃ t, exec (.fillComplete n) s = .next t ∧ (t.tile n).fills = (s.tile n).fills.erase j
      ∧ (fLast j.word = true → ((t.tile n).bank (fBank j.word)).st = 2) ∧ t.mem = s.mem)

/-- R65, R70, R79, R88, R89, R112: DECKLE sets the frame its operands name; WAIT only signals; END stops a context,
which is free once its work is done; STREAM is refused in SERVING and GATED with ILLEGAL_STREAM, and firmware's, which
finds its rows there, moves them all.
Choices of the model: log entries 34, 42, 121 and 135. -/
def Obligations.Sequencing : Prop :=
  (∀ (s u : State) (n c : Nat) (w : Bytes) (v : Ctx), s.issuing n c 0x03 w v u → fld w 13 1 ≠ 1 →
    ∃ t v', exec (.deckle n c) s = .next t ∧ t.ctx? n c = some v' ∧ v'.flags = flagsAfter w v.flags
      ∧ v'.frame (fld w 12 1) = { rows := fld w 14 2, cols := fld w 18 2, depth := fld w 20 2 } ∧ t.mem = s.mem)
  ∧ (∀ (s u : State) (n c k : Nat) (w : Bytes) (v : Ctx) (p : Post), s.issuing n c 0x03 w v u → fld w 13 1 = 1 →
    v.post = some k → u.post? k = some p →
    ∃ t v', exec (.deckle n c) s = .next t ∧ t.ctx? n c = some v' ∧ v'.flags = flagsAfter w v.flags
      ∧ v'.frame (fld w 12 1)
          = { rows := Nat.min 256 (p.q - 256 * fld w 16 2), cols := fld w 18 2, depth := fld w 20 2 })
  ∧ (∀ (s u : State) (n c : Nat) (w : Bytes) (v : Ctx), s.issuing n c 0x05 w v u →
    ∃ t v', exec (.wait n c) s = .next t ∧ t.ctx? n c = some v' ∧ v'.flags = flagsAfter w v.flags
      ∧ v'.frames = v.frames ∧ t.mem = s.mem)
  ∧ (∀ (s u : State) (n c : Nat) (w : Bytes) (v : Ctx), s.issuing n c 0x04 w v u →
    ∃ t v', exec (.endOp n c) s = .next t ∧ t.ctx? n c = some v' ∧ v'.ending = true ∧ v'.flags = v.flags
      ∧ t.mem = s.mem)
  ∧ (∀ (s : State) (n c : Nat) (v : Ctx), s.ctx? n c = some v → v.ending = true → (s.tile n).busy c = false →
    ∃ t, exec (.endComplete n c) s = .next t ∧ t.ctx? n c = none
      ∧ ∀ i b, FMap.find (s.tile n).banks i = some b → b.ctx = c → ((t.tile n).bank i).st = 0)
  ∧ (∀ (s : State) (n : Nat) (w : Bytes), n < 72 → s.enabled n = true → (s.tile n).st = 1 ∨ (s.tile n).st = 2 →
    ∃ t, exec (.stream n w) s = .next t ∧ t.counter 0x00D n = s.counter 0x00D n + 1 ∧ t.hasCause cIllegalStream
      ∧ (t.tile n).stream = (s.tile n).stream)
  ∧ (∀ (s m : State) (n : Nat) (w : Bytes), s.enabled n = true → (s.tile n).st = 0 ∨ (s.tile n).st = 3 →
    (s.tile n).stream = none → iOp w = 2 →
    m = (List.range (stRows w)).foldl (fun s r =>
      (s.streamRow n w 512 r).2.streamPut n ((outLines w r).headD 0) 256 (s.streamRow n w 512 r).1 (s.streamBad n w r)) s →
    ∃ t, exec (.stream n w) s = .next t ∧ (t.tile n).stream = none ∧ t.mem = m.mem ∧ t.free = m.free)

/-! ### The vector engine (chapter 5) -/

/-- R116 to R119, R123: the two-operand instructions apply their operation to the elements of A and B, in INT32 with
saturation or in FP32, and write view O.
Choices of the model: log entry 35. -/
def Obligations.VectorArith : Prop :=
  (∀ (s u : State) (n c : Nat) (w : Bytes) (v : Ctx), s.issuing n c 0x10 w v u → u.vecReady n w (v.frame (vDk w)) →
    ∃ t, exec (.add n c) s = .next t ∧ t.vecRan
      (u.rowsBy n c w (v.frame (vDk w)) fun s r i =>
        if vecInt w then wordOfInt (sat32 (intOfWord (s.laneA u.mem n w true r i) + intOfWord (s.laneB u.mem n w true r i))).1
        else fadd (s.laneA u.mem n w false r i) (s.laneB u.mem n w false r i)) n (v.frame (vDk w)))
  ∧ (∀ (s u : State) (n c : Nat) (w : Bytes) (v : Ctx), s.issuing n c 0x11 w v u → u.vecReady n w (v.frame (vDk w)) →
    ∃ t, exec (.sub n c) s = .next t ∧ t.vecRan
      (u.rowsBy n c w (v.frame (vDk w)) fun s r i =>
        if vecInt w then wordOfInt (sat32 (intOfWord (s.laneA u.mem n w true r i) - intOfWord (s.laneB u.mem n w true r i))).1
        else fsub (s.laneA u.mem n w false r i) (s.laneB u.mem n w false r i)) n (v.frame (vDk w)))
  ∧ (∀ (s u : State) (n c : Nat) (w : Bytes) (v : Ctx), s.issuing n c 0x12 w v u → u.vecReady n w (v.frame (vDk w)) →
    ∃ t, exec (.mul n c) s = .next t ∧ t.vecRan
      (u.rowsBy n c w (v.frame (vDk w)) fun s r i =>
        if vecInt w then wordOfInt (sat32 (intOfWord (s.laneA u.mem n w true r i) * intOfWord (s.laneB u.mem n w true r i))).1
        else fmul (s.laneA u.mem n w false r i) (s.laneB u.mem n w false r i)) n (v.frame (vDk w)))
  ∧ (∀ (s u : State) (n c : Nat) (w : Bytes) (v : Ctx), s.issuing n c 0x13 w v u → u.vecReady n w (v.frame (vDk w)) →
    ∃ t, exec (.max n c) s = .next t ∧ t.vecRan
      (u.rowsBy n c w (v.frame (vDk w)) fun s r i =>
        if vecInt w then imax (s.laneA u.mem n w true r i) (s.laneB u.mem n w true r i)
        else fmax2 (s.laneA u.mem n w false r i) (s.laneB u.mem n w false r i)) n (v.frame (vDk w)))
  ∧ (∀ (s u : State) (n c : Nat) (w : Bytes) (v : Ctx), s.issuing n c 0x14 w v u → u.vecReady n w (v.frame (vDk w)) →
    ∃ t, exec (.min n c) s = .next t ∧ t.vecRan
      (u.rowsBy n c w (v.frame (vDk w)) fun s r i =>
        if vecInt w then imin (s.laneA u.mem n w true r i) (s.laneB u.mem n w true r i)
        else fmin2 (s.laneA u.mem n w false r i) (s.laneB u.mem n w false r i)) n (v.frame (vDk w)))

/-- R116 to R119, R121: AFFINE multiplies and adds in one rounding by rows 0 and 1 of B, CMP gives 1 or 0, SELECT
takes A or B by the same condition, UNARY negates, takes the absolute value or cuts at zero, and FUNC evaluates the
table at B.
Choices of the model: log entry 35. -/
def Obligations.VectorCompare : Prop :=
  (∀ (s u : State) (n c : Nat) (w : Bytes) (v : Ctx), s.issuing n c 0x15 w v u → u.vecReady n w (v.frame (vDk w)) →
    ∃ t, exec (.affine n c) s = .next t ∧ t.vecRan
      (u.rowsBy n c w (v.frame (vDk w)) fun s r i =>
        ffma (s.laneA u.mem n w false r i) (s.laneB u.mem n w false 0 i) (s.laneB u.mem n w false 1 i)) n (v.frame (vDk w)))
  ∧ (∀ (s u : State) (n c : Nat) (w : Bytes) (v : Ctx), s.issuing n c 0x16 w v u → u.vecReady n w (v.frame (vDk w)) →
    ∃ t, exec (.cmp n c) s = .next t ∧ t.vecRan
      (u.rowsBy n c w (v.frame (vDk w)) fun s r i =>
        if vcond (vecInt w) (vSub w) (s.laneA u.mem n w (vecInt w) r i) (s.laneB u.mem n w (vecInt w) r i)
        then (if vecInt w then 1 else one32) else 0) n (v.frame (vDk w)))
  ∧ (∀ (s u : State) (n c : Nat) (w : Bytes) (v : Ctx), s.issuing n c 0x17 w v u → u.vecReady n w (v.frame (vDk w)) →
    ∃ t, exec (.select n c) s = .next t ∧ t.vecRan
      (u.rowsBy n c w (v.frame (vDk w)) fun s r i =>
        if vcond (vecInt w) (vSub w) (s.laneA u.mem n w (vecInt w) r i) (s.laneB u.mem n w (vecInt w) r i)
        then s.laneA u.mem n w (vecInt w) r i else s.laneB u.mem n w (vecInt w) r i) n (v.frame (vDk w)))
  ∧ (∀ (s u : State) (n c : Nat) (w : Bytes) (v : Ctx), s.issuing n c 0x18 w v u → u.vecReady n w (v.frame (vDk w)) →
    vSub w ≠ 0 →
    ∃ t, exec (.unary n c) s = .next t ∧ t.vecRan
      (u.rowsBy n c w (v.frame (vDk w)) fun s r i => vunary (vecInt w) (vSub w) (s.laneA u.mem n w (vecInt w) r i)) n (v.frame (vDk w)))
  ∧ (∀ (s u : State) (n c : Nat) (w : Bytes) (v : Ctx), s.issuing n c 0x18 w v u → u.vecReady n w (v.frame (vDk w)) →
    vSub w = 0 → vAFmt w = vOFmt w →
    ∃ t, exec (.unary n c) s = .next t ∧ t.vecRan
      (u.runRows n c w (v.frame (vDk w)) fun s r => s.putRow n w r r ((List.range (v.frame (vDk w)).cols).map fun i =>
        s.viewBits n (vA w) (vAStride w) (vAFmt w) (vAHalf w) r i)) n (v.frame (vDk w)))
  ∧ (∀ (s u : State) (n c : Nat) (w : Bytes) (v : Ctx), s.issuing n c 0x19 w v u → u.vecReady n w (v.frame (vDk w)) →
    ∃ t, exec (.func n c) s = .next t ∧ t.vecRan
      (u.rowsBy n c w (v.frame (vDk w)) fun s r i => u.tabFun n w (s.laneA u.mem n w false r i)) n (v.frame (vDk w)))

/-- R96 to R101, R119: CONVERT writes each element in O's format; QUANT to an integer format first multiplies by its
column's factor, and to an MX format writes blocks, their scales and both tag lines; RESCALE and ROTATE write each row as
their rules give it.
Choices of the model: log entries 35, 37, 38, 39 and 133. -/
def Obligations.VectorConvert : Prop :=
  (∀ (s u : State) (n c : Nat) (w : Bytes) (v : Ctx), s.issuing n c 0x1A w v u → u.vecReady n w (v.frame (vDk w)) →
    ∃ t, exec (.convert n c) s = .next t ∧ t.vecRan
      (u.rowsBy n c w (v.frame (vDk w)) fun s r i =>
        if isNan (s.laneA u.mem n w false r i) then qnan else s.laneA u.mem n w false r i) n (v.frame (vDk w)))
  ∧ (∀ (s u : State) (n c : Nat) (w : Bytes) (v : Ctx), s.issuing n c 0x1B w v u → u.vecReady n w (v.frame (vDk w)) →
    isMx (vOFmt w) = false →
    ∃ t, exec (.quant n c) s = .next t ∧ t.vecRan
      (u.runRows n c w (v.frame (vDk w)) fun s r => s.emitRow n c w false false r r
        ((List.range (v.frame (vDk w)).cols).map fun i =>
          fmul (s.laneA u.mem n w false r i) (BitVec.ofNat 32 (u.viewBits n (vB w) 0 0x0B 0 0 i)))) n (v.frame (vDk w)))
  ∧ (∀ (s u : State) (n c : Nat) (w : Bytes) (v : Ctx), s.issuing n c 0x1B w v u → u.vecReady n w (v.frame (vDk w)) →
    isMx (vOFmt w) = true →
    ∃ t, exec (.quant n c) s = .next t ∧ t.vecRan
      (((u.runRows n c w (v.frame (vDk w)) fun s r => s.mxRow u.mem n c w (v.frame (vDk w)).cols r).vecPut n
          { row := (v.frame (vDk w)).rows - 1, addr := 256 * (vO w - 1), data := tagLine (vSub w) 1 (vOFmt w), whole := true }).vecPut n
          { row := (v.frame (vDk w)).rows - 1, addr := 256 * (vB w - 1), data := tagLine (vSub w) 2 (vOFmt w), whole := true })
      n (v.frame (vDk w)))
  ∧ (∀ (s u : State) (n c : Nat) (w : Bytes) (v : Ctx), s.issuing n c 0x1C w v u → u.vecReady n w (v.frame (vDk w)) →
    ∃ t, exec (.rescale n c) s = .next t ∧ t.vecRan
      (u.runRows n c w (v.frame (vDk w)) fun s r => (s.putRow n w r r
        ((List.range (v.frame (vDk w)).cols).map fun i =>
          unsgn (fmtWidth (vOFmt w)) (s.rescaleElem u.mem n w r i).1)).countLayer n c w
            (if vOFmt w = 0x0C then 0 else (v.frame (vDk w)).cols)
            ((List.range (v.frame (vDk w)).cols).filter fun i => (s.rescaleElem u.mem n w r i).2).length)
      n (v.frame (vDk w)))
  ∧ (∀ (s u : State) (n c : Nat) (w : Bytes) (v : Ctx), s.issuing n c 0x1D w v u → u.vecReady n w (v.frame (vDk w)) →
    ∃ t, exec (.rotate n c) s = .next t ∧ t.vecRan
      (u.runRows n c w (v.frame (vDk w)) fun s r => s.emitRow n c w false false r r
        ((rotateRow (vSub w) ((List.range 256).map fun i =>
          if i < (v.frame (vDk w)).cols then s.laneA u.mem n w false r i else 0)).take (v.frame (vDk w)).cols))
      n (v.frame (vDk w)))

/-- R122, R124, R125: REDUCE_ROW writes one result for each row by the pairwise tree, REDUCE_COL one for each column
into row 0; an instruction that finds another still to be read waits behind it; the one in front, when done, has written
every result, leaves the queue and signals its flags, and the next is read as the scratchpad then stands.
Choices of the model: log entry 35. -/
def Obligations.VectorReduce : Prop :=
  (∀ (s u : State) (n c : Nat) (w : Bytes) (v : Ctx), s.issuing n c 0x1E w v u → u.vecReady n w (v.frame (vDk w)) →
    (v.frame (vDk w)).cols ≠ 0 →
    ∃ t, exec (.reduceRow n c) s = .next t ∧ t.vecRan
      (u.runRows n c w (v.frame (vDk w)) fun s r => s.emitRow n c w (redInt w) (vecInt w) r r
        [redOut (vSub w) (redTree (vecInt w) (vSub w) ((List.range 256).map fun i =>
          (if i < (v.frame (vDk w)).cols then redElem (vSub w) (s.laneA u.mem n w (vecInt w) r i)
           else redIdent (vecInt w) (vSub w), i)))]) n (v.frame (vDk w)))
  ∧ (∀ (s u : State) (n c : Nat) (w : Bytes) (v : Ctx), s.issuing n c 0x1F w v u → u.vecReady n w (v.frame (vDk w)) →
    let rows := (v.frame (vDk w)).rows
    ∃ t, exec (.reduceCol n c) s = .next t ∧ t.vecRan
      ((u.vecAlone n c w (v.frame (vDk w))).emitRow n c w (redInt w) (vecInt w) (rows - 1) 0
        ((List.range (v.frame (vDk w)).cols).map (redCol w ((List.range rows).map fun r =>
          (List.range (v.frame (vDk w)).cols).map fun i => u.laneA u.mem n w (vecInt w) r i) rows)))
      n (v.frame (vDk w)))
  ∧ (∀ (s : State) (n : Nat) (j : VecJob) (js : List VecJob) (v : Ctx), (s.tile n).vec = j :: js →
    js.all (·.read) = true → s.ctx? n j.ctx = some v →
    ∃ t v', exec (.vectorInstructionDone n) s = .next t ∧ (t.tile n).vec = js ∧ t.ctx? n j.ctx = some v'
      ∧ v'.flags = flagsAfter j.word v.flags ∧ t.mem = (s.each j.out fun s o => s.vecLand n o).mem)
  ∧ (∀ (s s1 u : State) (n : Nat) (j j' : VecJob) (v : Ctx), (s.tile n).vec = [j, j'] → j'.read = false →
    s.ctx? n j.ctx = some v → s1 = (s.each j.out fun s o => s.vecLand n o).modTile n (fun x => { x with vec := [j'] }) →
    u = (s1.freeBanks n j.word).signal n j.ctx j.word →
    (vecLines j'.word j'.frame.rows).any (u.spBad n) = false → u.vecTags n j'.word = true →
    ∃ t v' m, exec (.vectorInstructionDone n) s = .next t ∧ t.ctx? n j.ctx = some v'
      ∧ v'.flags = flagsAfter j.word v.flags
      ∧ m = u.vecRows n j' (fun s u w k r => s.vecRow u n j'.ctx w k r) (fun s w fr seen => s.vecFin n j'.ctx w fr seen)
      ∧ t.mem = m.mem ∧ (t.tile n).vec = (m.tile n).vec)
  ∧ (∀ (s u : State) (n c : Nat) (op : Instr × Nat) (w : Bytes) (v : Ctx), op ∈ vecOps n c →
    s.issuing n c op.2 w v u → (v.frame (vDk w)).rows ≠ 0 → (u.tile n).vec.all (·.read) = false →
    ∃ t, exec op.1 s = .next t ∧ t.mem = s.mem
      ∧ (t.tile n).vec = (u.tile n).vec ++ [{ ctx := c, word := w, frame := v.frame (vDk w) }])
  ∧ (∀ (s u : State) (n c : Nat) (op : Instr × Nat) (w : Bytes) (v : Ctx), op ∈ vecOps n c →
    s.issuing n c op.2 w v u → (v.frame (vDk w)).rows ≠ 0 → (vecLines w (v.frame (vDk w)).rows).any (u.spBad n) = false →
    u.vecTags n w = true →
    ∃ t, exec op.1 s = .next t ∧ (t.tile n).vec.map (fun j => (j.ctx, j.word, j.frame))
      = (u.tile n).vec.map (fun j => (j.ctx, j.word, j.frame)) ++ [(c, w, v.frame (vDk w))])
  ∧ (∀ (s u : State) (n c : Nat) (op : Instr × Nat) (w : Bytes) (v v1 : Ctx), op ∈ vecOps n c →
    s.issuing n c op.2 w v u → (v.frame (vDk w)).rows = 0 → u.ctx? n c = some v1 →
    ∃ t v', exec op.1 s = .next t ∧ t.mem = s.mem ∧ (t.tile n).vec = (u.tile n).vec ∧ t.ctx? n c = some v'
      ∧ v'.flags = flagsAfter w v1.flags)

/-! ### Transfers (chapter 3) -/

/-- R83 to R87: an issued FETCH or PUT whose range stands joins its class's queue, a PUT to another tile or to tier-2
with its sheets sent; a FETCH of sheets that have landed is done at once; a completed FETCH has written its sheets to
its lines, and a completed PUT its runs to its place; sheets that arrive land for the FETCH that awaits them, and
those of a stale placement epoch are dropped with STALE_EPOCH.
Choices of the model: log entry 41. -/
def Obligations.Transfers : Prop :=
  (∀ (s u : State) (n c : Nat) (w : Bytes) (v : Ctx) (cmd : Cmd) (pl : Place), s.issuing n c 0x38 w v u →
    xClass w ≠ 1 → u.cmdOf v = some cmd → u.placeOf cmd w = some pl → u.placeFault w pl = false →
    ∃ t j, exec (.fetch n c) s = .next t ∧ j.word = w ∧ j.ctx = c ∧ j.post = v.post
      ∧ (t.tile n).queue (xClass w) = (u.tile n).queue (xClass w) ++ [j] ∧ t.mem = s.mem)
  ∧ (∀ (s u : State) (n c k : Nat) (w : Bytes) (v v1 : Ctx) (l : Nat × Nat × Nat × Nat), s.issuing n c 0x38 w v u →
    xClass w = 1 → v.post = some k → u.ctx? n c = some v1 →
    (u.tile n).landed.find? (fun l => some l.1 == v.post && l.2.1 == xTile w) = some l →
    l.2.2 = (xLine w, xSheets w) →
    ∃ t v', exec (.fetch n c) s = .next t ∧ (t.tile n).landed = (u.tile n).landed.erase l ∧ t.ctx? n c = some v'
      ∧ v'.flags = flagsAfter w v1.flags)
  ∧ (∀ (s u : State) (n c : Nat) (w : Bytes) (v : Ctx) (cmd : Cmd) (pl : Place), s.issuing n c 0x39 w v u →
    xClass w ≠ 1 → u.cmdOf v = some cmd → u.placeOf cmd w = some pl → u.placeFault w pl = false →
    u.sealBreach cmd w = false →
    u.goesOut { ctx := c, post := v.post, word := w, frame := v.frame (xDk w) } = false →
    ∃ t j, exec (.put n c) s = .next t ∧ j.word = w ∧ j.ctx = c ∧ j.sent = false
      ∧ (t.tile n).queue (xClass w) = (u.tile n).queue (xClass w) ++ [j] ∧ t.mem = s.mem)
  ∧ (∀ (s u : State) (n c : Nat) (w : Bytes) (v : Ctx), s.issuing n c 0x39 w v u → xClass w = 1 →
    ∃ t j f, exec (.put n c) s = .next t ∧ j.word = w ∧ j.sent = true ∧ j.ids = [f.id]
      ∧ (t.tile n).queue 1 = (u.tile n).queue 1 ++ [j] ∧ t.felt = u.felt ++ [f] ∧ f.src = n ∧ f.dst = xTile w
      ∧ f.msg = .sheets v.post (xAddr w % 2 ^ 15) (xSheets w) (FMap.get u.ream.epochs n 0)
          (u.runBytes n w (v.frame (xDk w))) (u.xBad n w) ∧ t.mem = s.mem)
  ∧ (∀ (s : State) (n cls k : Nat) (d : Rd) (j : XferJob) (pl : Place) (v : Ctx), (s.tile n).head cls = some j →
    isFetch j.word = true → cls ≠ 1 → s.idsDone j = true → j.sent = false → j.cached = [] → xClass j.word = cls → j.post = some k →
    s.ctx? n j.ctx = some v → s.placeFor v j.word = some pl → s.readLost k pl = false → (s.tile n).st ≠ 4 →
    ∃ t, exec (.fetchComplete n cls d) s = .next t
      ∧ t.mem = ((s.fetchRead n j.word j.post pl d).2.2.spWrite n (xLine j.word)
          (s.fetchRead n j.word j.post pl d).1 (s.fetchRead n j.word j.post pl d).2.1).mem)
  ∧ (∀ (s : State) (n cls k : Nat) (j : XferJob) (a : Nat) (v : Ctx) (cmd : Cmd), (s.tile n).firstPut cls = some j →
    isPut j.word = true → j.sent = false → j.post = some k → s.cmd? k = some cmd → s.ctx? n j.ctx = some v →
    s.placeFor v j.word = some (.slice a) → s.xBad n j.word = [] → xSeg j.word ≠ 9 →
    (s.tile n).st ≠ 4 →
    ∃ t, exec (.putComplete n cls) s = .next t
      ∧ t.mem = (s.runBytes n j.word j.frame).foldl (fun m r =>
          (sheetsOf (t0Addr n (a + r.1)) r.2.length).foldl (fun m x => m.mark x false)
            (m.writeN (t0Addr n (a + r.1)) r.2)) s.mem)
  ∧ (∀ (s : State) (n cls : Nat) (j : XferJob) (v : Ctx), (s.tile n).firstPut cls = some j → isPut j.word = true →
    j.sent = true → s.idsDone j = true → (s.tile n).st ≠ 4 → s.ctx? n j.ctx = some v →
    ∃ t v', exec (.putComplete n cls) s = .next t ∧ t.ctx? n j.ctx = some v'
      ∧ v'.flags = (outFlags j.word).foldl setFlag v.flags ∧ t.mem = s.mem)
  ∧ (∀ (s : State) (n src line m epoch c : Nat) (post : Option Nat) (rs : List (Nat × Bytes)) (bad : List Nat)
      (f : Flight) (v : Ctx) (j : XferJob),
    s.feltHead src n Msg.isSheets = some f →
    f.msg = .sheets post line m epoch rs bad → epoch = FMap.get s.ream.epochs src 0 → s.ctxOf n post = some (c, v) →
    v.failed = false → s.awaiting n c src = some j → xLine j.word = line → xSheets j.word = m → (s.tile n).st ≠ 4 →
    ∃ t, exec (.feltArrival n src) s = .next t ∧ t.mem = (s.land n line rs bad).mem
      ∧ t.felt = s.felt.filter fun g => g.id != f.id)
  ∧ (∀ (s : State) (n src line m epoch : Nat) (rs : List (Nat × Bytes)) (bad : List Nat) (f : Flight),
    n < 72 → s.feltHead src n Msg.isSheets = some f →
    f.msg = .sheets none line m epoch rs bad → epoch ≠ FMap.get s.ream.epochs src 0 →
    ∃ t, exec (.feltArrival n src) s = .next t ∧ t.mem = s.mem ∧ t.counter 0x007 n = s.counter 0x007 n + 1
      ∧ t.hasCause cStaleEpoch)

/-! ### Lookups (chapter 6) -/

/-- R131, R132, R136, R137, R139, R157: DISPATCH sends an entry to the shard of every in-range index of its list, and
end markers to every shard tile; entries are coalesced by row and query up to the budget, past which the unit stops;
with its end marker the map is whole; a row read is pooled, and the last one sends the partial vectors.
Choices of the model: log entries 48 and 49. -/
def Obligations.Lookups : Prop :=
  (∀ (s u : State) (n c k : Nat) (w : Bytes) (v : Ctx) (p : Post) (l : PList) (q i : Nat) (x : Nat × Nat × Nat),
    s.issuing n c 0x30 w v u → v.post = some k → u.post? k = some p → p.listOf (fld w 12 2) 0 = some l →
    bufBad (p.buf n).2 l.off l.size = false →
    let b := ((p.buf n).1.drop l.off).take l.size
    let m := bag b l.entries q
    let r := (List.range (m.2.1 - m.1)).map fun i => entryAt b p.q (m.1 + i)
    q < p.q → m.1 + i < m.2.1 → outOfRange (u.tab (fld w 12 2)) (entryAt b p.q (m.1 + i)).1 = false →
    x ∈ u.targets (fld w 12 2) (entryAt b p.q (m.1 + i)).1 →
    ∃ t f, exec (.dispatch n c) s = .next t ∧ f ∈ t.felt ∧ f.src = n ∧ f.dst = x.2.1
      ∧ f.msg = .entry k x.1 q x.2.2 (entryWeight (u.tab (fld w 12 2)) (entryAt b p.q (m.1 + i)).2
          (r.filter fun e => !outOfRange (u.tab (fld w 12 2)) e.1).length))
  ∧ (∀ (s u : State) (n c k : Nat) (w : Bytes) (v : Ctx) (p : Post) (x : Nat × Nat) (dst : Nat),
    s.issuing n c 0x30 w v u → v.post = some k → u.post? k = some p →
    (∀ l, p.listOf (fld w 12 2) 0 = some l → bufBad (p.buf n).2 l.off l.size = false) →
    x ∈ u.components (fld w 12 2) → dst ∈ shardTiles (u.tab x.1) →
    ∃ t f, exec (.dispatch n c) s = .next t ∧ f ∈ t.felt ∧ f.src = n ∧ f.dst = dst ∧ f.msg = .gatherEnd k x.1)
  ∧ (∀ (s s1 u : State) (n src k tbl q loc : Nat) (w : Word) (f : Flight) (g : GWork),
    s.entryTurn src n = some (f, s1) → f.msg = .entry k tbl q loc w → u = s1.accept f → u.postLive k = true →
    g = u.gworkOf n k tbl → g.exceeded = false → FMap.find g.rows loc = none →
    g.order.length ≠ tBudget (u.tab tbl) →
    ∃ t, exec (.gatherEntryArrival n src) s = .next t ∧ t.felt = u.felt
      ∧ t.gwork? n k tbl = some { g with rows := FMap.set g.rows loc [(q, fadd 0 w)], order := g.order ++ [loc] })
  ∧ (∀ (s s1 u : State) (n src k tbl q loc : Nat) (w : Word) (f : Flight) (g : GWork) (m : FMap Word),
    s.entryTurn src n = some (f, s1) → f.msg = .entry k tbl q loc w → u = s1.accept f → u.postLive k = true →
    g = u.gworkOf n k tbl → g.exceeded = false → FMap.find g.rows loc = some m →
    ∃ t, exec (.gatherEntryArrival n src) s = .next t ∧ t.felt = u.felt
      ∧ t.gwork? n k tbl = some { g with rows := FMap.set g.rows loc (FMap.set m q (fadd (FMap.get m q 0) w)) })
  ∧ (∀ (s s1 u : State) (n src k tbl q loc : Nat) (w : Word) (f : Flight) (g : GWork),
    s.entryTurn src n = some (f, s1) → f.msg = .entry k tbl q loc w → u = s1.accept f → u.postLive k = true →
    g = u.gworkOf n k tbl → g.exceeded = false → FMap.find g.rows loc = none →
    g.order.length = tBudget (u.tab tbl) →
    ∃ t f', exec (.gatherEntryArrival n src) s = .next t ∧ t.felt = u.felt ++ [f'] ∧ f'.msg = .overMark k tbl
      ∧ f'.dst = tCombTile (u.tab (u.parentTable tbl))
      ∧ t.gwork? n k tbl = some { g with exceeded := true, reading := [], part := [], bad := [] })
  ∧ (∀ (s u : State) (n src k tbl : Nat) (f : Flight) (g : GWork), s.feltHead src n Msg.isLookup = some f →
    f.msg = .gatherEnd k tbl → u = s.accept f → u.postLive k = true → g = u.gworkOf n k tbl → g.exceeded = false →
    u.inGather k tbl = false →
    ∃ t, exec (.gatherEndMarkerArrival n src) s = .next t ∧ t.felt = u.felt
      ∧ t.gwork? n k tbl = some { g with ended := true })
  ∧ (∀ (s : State) (n k tbl loc : Nat) (g : GWork) (r : GRead), s.gwork? n k tbl = some g →
    g.reading.find? (fun r => r.loc == loc) = some r → g.reading.erase r ≠ [] →
    let b := s.tab tbl
    ∃ t, exec (.gatherRowReadDone n k tbl loc) s = .next t ∧ t.felt = s.felt ∧ t.mem = s.mem
      ∧ t.gwork? n k tbl = some (({ g with reading := g.reading.erase r } : GWork).pool
          (expandRow (tRowFmt b) (tDim b) (s.mem.readN r.addr (rowBytes b))) (s.copyBad r.addr (rowBytes b) || s.bucketBad n tbl loc) loc))
  ∧ (∀ (s : State) (n k tbl loc q : Nat) (x : List Word) (g : GWork) (r : GRead), s.gwork? n k tbl = some g →
    g.reading.find? (fun r => r.loc == loc) = some r → g.reading.erase r = [] →
    let b := s.tab tbl
    let g' := ({ g with reading := [] } : GWork).pool
      (expandRow (tRowFmt b) (tDim b) (s.mem.readN r.addr (rowBytes b))) (s.copyBad r.addr (rowBytes b) || s.bucketBad n tbl loc) loc
    (q, x) ∈ g'.part →
    ∃ t f f', exec (.gatherRowReadDone n k tbl loc) s = .next t ∧ t.gwork? n k tbl = none
      ∧ f ∈ t.felt ∧ f.msg = .partials k tbl q x (g'.bad.contains q) ∧ f.dst = tCombTile (s.tab (s.parentTable tbl))
      ∧ t.felt.getLast? = some f' ∧ f'.msg = .combineEnd k tbl)

/-- R140, R141, R145: COMBINE writes +0 to its rows and waits, but for one whose every end marker has met an earlier
COMBINE of its post; a partial is added into its query's row, a stray one is counted and fails its post with INTERNAL;
with the last end marker COMBINE signals its flags; an over marker does so too and fails the post with GATHER_OVER.
Choices of the model: log entries 47, 50 and 122. -/
def Obligations.Pooling : Prop :=
  (∀ (s u : State) (n c k : Nat) (w : Bytes) (v : Ctx), s.issuing n c 0x31 w v u → v.post = some k →
    let here := (FMap.get u.gat.ends k []).filter (u.combineNeeds (fld w 12 2)).contains
    (u.combineNeeds (fld w 12 2)).all here.contains = false →
    ∃ t, exec (.combine n c) s = .next t
      ∧ t.mem = (List.range (Nat.min (v.frame (cDk w)).rows 256)).foldl (fun m r =>
          m.writePart (spAddr n (combineAt w r)) (zeros (4 * tDim (u.tab (fld w 12 2))))) s.mem
      ∧ (t.tile n).gops = (u.tile n).gops ++ [{ ctx := c, post := k, word := w, frame := v.frame (cDk w), ends := here }])
  ∧ (∀ (s u : State) (n c k : Nat) (w : Bytes) (v : Ctx), s.issuing n c 0x31 w v u → v.post = some k →
    let here := (FMap.get u.gat.ends k []).filter (u.combineNeeds (fld w 12 2)).contains
    (u.combineNeeds (fld w 12 2)).all here.contains = true →
    ∃ t v', exec (.combine n c) s = .next t ∧ t.ctx? n c = some v' ∧ v'.flags = flagsAfter w v.flags
      ∧ (t.tile n).gops = (u.tile n).gops)
  ∧ (∀ (s : State) (n src k tbl q : Nat) (x : List Word) (f : Flight) (g : GatherOp),
    s.feltHead src n Msg.isCombine = some f → f.msg = .partials k tbl q x false →
    (s.combines n k (s.parentTable tbl)).find? (fun g => cBlock g.word == q / 256) = some g → q % 256 < g.frame.rows →
    let a := combineAt g.word (q % 256) + 4 * s.partOffset tbl
    (sheetsOf a (4 * x.length)).any (s.spBad n) = false →
    ∃ t, exec (.partialArrival n src) s = .next t
      ∧ t.mem = s.mem.writePart (spAddr n a) ((x.zipIdx.map fun (e, i) =>
          natLe 4 (fadd (BitVec.ofNat 32 (fld (s.mem.readN (spAddr n a) (4 * x.length)) (4 * i) 4)) e).toNat).flatten)
      ∧ t.felt = s.felt.filter fun g => g.id != f.id)
  ∧ (∀ (s : State) (n src k tbl q : Nat) (x : List Word) (b : Bool) (f : Flight), n < 72 →
    s.feltHead src n Msg.isCombine = some f → f.msg = .partials k tbl q x b →
    (s.combines n k (s.parentTable tbl)).find? (fun g => cBlock g.word == q / 256) = none →
    s.combineIssued n k (s.parentTable tbl) (some (q / 256)) = false →
    ∃ t, exec (.partialArrival n src) s = .next t ∧ t.counter 0x027 n = s.counter 0x027 n + 1
      ∧ (∀ v c, s.post? k = some v → v.phase = 3 → v.fail = 0 → s.cmd? k = some c → k = cmdKey c.ring c.seq →
          t.failedWith k stInternal v c))
  ∧ (∀ (s : State) (n src k tbl : Nat) (f : Flight) (g : GatherOp) (v : Ctx), s.feltHead src n Msg.isCombine = some f →
    f.msg = .combineEnd k tbl → s.combines n k (s.parentTable tbl) = [g] → s.ctx? n g.ctx = some v →
    (s.combineNeeds (fld g.word 12 2)).all (fun m => m == tbl * 128 + src || g.ends.contains m) = true →
    ∃ t v', exec (.combineEndMarkerArrival n src) s = .next t ∧ t.ctx? n g.ctx = some v'
      ∧ v'.flags = flagsAfter g.word v.flags)
  ∧ (∀ (s : State) (n src k tbl : Nat) (f : Flight) (v : Post) (c : Cmd), s.feltHead src n Msg.isCombine = some f →
    f.msg = .overMark k tbl → s.post? k = some v → v.phase = 3 → v.fail = 0 → s.cmd? k = some c →
    k = cmdKey c.ring c.seq → (s.combines n k (s.parentTable tbl)).length ≤ 1 →
    (∀ g ∈ s.combines n k (s.parentTable tbl), ∀ x, s.ctx? n g.ctx = some x →
      ∀ i ∈ outFlags g.word, x.flags.testBit i = false) →
    ∃ t, exec (.overMarkerArrival n src) s = .next t ∧ t.felt = s.felt.filter (fun g => g.id != f.id)
      ∧ t.failedWith k stGatherOver v c
      ∧ ∀ g ∈ s.combines n k (s.parentTable tbl), ∀ x, s.ctx? n g.ctx = some x →
          ∃ x', t.ctx? n g.ctx = some x' ∧ x'.flags = flagsAfter g.word x.flags)

/-! ### Table updates (chapter 7) -/

/-- R150 to R155: GRAD_DISPATCH sends every in-range gradient and an end marker to each shard tile; a unit starts its
step in the residency of UPD_STAGE; gradients of one row are summed, and one past the row budget ends the unit's
report with over; the end marker brings the scale and lets a started unit run.
Choices of the model: log entry 49. -/
def Obligations.Gradients : Prop :=
  (∀ (s u : State) (n c k i : Nat) (w : Bytes) (v : Ctx) (p : Post) (l : PList), s.issuing n c 0x32 w v u →
    v.post = some k → u.post? k = some p → p.listOf (fld w 12 2) 1 = some l →
    bufBad (p.buf n).2 l.off (256 + 8 * l.entries) = false →
    let tbl := fld w 12 2
    let b := ((p.buf n).1.drop l.off).take l.size
    let o := 256 * (1 + cdiv (8 * l.entries) 256) + 256 * gradSheets (u.tab tbl) * i
    let x := fld b (256 + 8 * i) 5
    i < l.entries → outOfRange (u.tab tbl) x = false →
    ∃ t f, exec (.gradDispatch n c) s = .next t ∧ f ∈ t.felt ∧ f.src = n ∧ f.dst = (u.placeIndex tbl x).1
      ∧ f.msg = .grad k tbl (u.placeIndex tbl x).2 ((b.drop o).take (256 * gradSheets (u.tab tbl)))
          (bufBad (p.buf n).2 (l.off + o) (256 * gradSheets (u.tab tbl))))
  ∧ (∀ (s u : State) (n c k dst : Nat) (w : Bytes) (v : Ctx) (p : Post) (l : PList), s.issuing n c 0x32 w v u →
    v.post = some k → u.post? k = some p → p.listOf (fld w 12 2) 1 = some l →
    bufBad (p.buf n).2 l.off (256 + 8 * l.entries) = false → dst ∈ shardTiles (u.tab (fld w 12 2)) →
    ∃ t f, exec (.gradDispatch n c) s = .next t ∧ f ∈ t.felt ∧ f.src = n ∧ f.dst = dst
      ∧ f.msg = .updateEnd k (fld w 12 2) (BitVec.ofNat 32 (fld (((p.buf n).1.drop l.off).take l.size) 0 4)))
  ∧ (∀ (s : State) (n k tbl : Nat), s.updLive k tbl = true → s.inUpdate k tbl = true →
    (shardTiles (s.tab tbl)).contains n = true → s.earlierOpen k tbl = false → (s.uworkOf n k tbl).ended = false →
    ∃ t, exec (.updateStepStart n k tbl) s = .next t ∧ t.mem = s.mem
      ∧ t.uwork? n k tbl = some { s.uworkOf n k tbl with started := true })
  ∧ (∀ (s u : State) (n src k tbl loc : Nat) (d : Bytes) (f : Flight) (g : UWork),
    s.feltHead src n Msg.isUpdate = some f → f.msg = .grad k tbl loc d false → u = s.accept f →
    u.updLive k tbl = true → g = u.uworkOf n k tbl → g.report = 0 → FMap.find g.rows loc = none →
    g.order.length ≠ tUpdBudget (u.tab tbl) →
    ∃ t, exec (.gradientArrival n src) s = .next t ∧ t.uwork? n k tbl
      = some { g with rows := FMap.set g.rows loc (expandGrad (tGradFmt (u.tab tbl)) (tDim (u.tab tbl)) d)
                      order := g.order ++ [loc] })
  ∧ (∀ (s u : State) (n src k tbl loc : Nat) (d : Bytes) (f : Flight) (g : UWork) (y : List Word),
    s.feltHead src n Msg.isUpdate = some f → f.msg = .grad k tbl loc d false → u = s.accept f →
    u.updLive k tbl = true → g = u.uworkOf n k tbl → g.report = 0 → FMap.find g.rows loc = some y →
    ∃ t, exec (.gradientArrival n src) s = .next t ∧ t.uwork? n k tbl
      = some { g with rows := FMap.set g.rows loc ((y.zip (expandGrad (tGradFmt (u.tab tbl)) (tDim (u.tab tbl)) d)).map
                        fun (a, b) => fadd a b) })
  ∧ (∀ (s u : State) (n src k tbl loc : Nat) (d : Bytes) (f : Flight) (g : UWork),
    s.feltHead src n Msg.isUpdate = some f → f.msg = .grad k tbl loc d false → u = s.accept f →
    u.updLive k tbl = true → g = u.uworkOf n k tbl → g.report = 0 → FMap.find g.rows loc = none →
    g.order.length = tUpdBudget (u.tab tbl) →
    ∃ t, exec (.gradientArrival n src) s = .next t ∧ t.uwork? n k tbl = some { g with report := 2 })
  ∧ (∀ (s u : State) (n src k tbl : Nat) (x : Word) (f : Flight) (g : UWork),
    s.feltHead src n Msg.isUpdate = some f → f.msg = .updateEnd k tbl x → u = s.accept f →
    u.updLive k tbl = true → g = u.uworkOf n k tbl → g.report = 0 → g.started = false →
    ∃ t, exec (.updateEndMarkerArrival n src) s = .next t
      ∧ t.uwork? n k tbl = some { g with ended := true, scale := x })
  ∧ (∀ (s u : State) (n src k tbl loc step sat : Nat) (resc : Bool) (x : Word) (f : Flight) (g : UWork) (b : Bytes),
    s.feltHead src n Msg.isUpdate = some f → f.msg = .updateEnd k tbl x → u = s.accept f →
    u.updLive k tbl = true → g = u.uworkOf n k tbl → g.report = 0 → g.started = true →
    (u.post? k).bind (·.step) = some step → g.order = [loc] →
    let a := u.rowAddr n tbl loc
    let r := u.tab tbl
    let start := u.blockStart n step tbl
    isT1 a = false → u.copyBad a (rowBytes r) = false → u.bucketBad n tbl loc = false → g.bad.contains loc = false →
    newRow r (u.mem.readN a (rowBytes r)) (FMap.get g.rows loc []) x step
      (fun e => draw (u.tile n).streamKey 1 ((start + e) % 2 ^ 60)) = some (b, sat, resc) →
    ∃ t, exec (.updateEndMarkerArrival n src) s = .next t ∧ t.mem = s.mem
      ∧ t.uwork? n k tbl = some { g with ended := true, scale := x, report := 1, new := FMap.set g.new loc b
                                         sat := g.sat + sat, rescaled := g.rescaled + b2n resc
                                         bytes := u.reportBytes { g with new := FMap.set g.new loc b } })

/-- R112, R113, R153, R154, R157, R165: at a commit run each tile sends one report, and the oldest post with every
report in is decided: go reserves the bytes its rows will make dirty, an over report fails it with UPDATE_OVER; the
writes go to the rows as they live and make them dirty; the counts of a post reach the controller.
Choices of the model: log entry 51. -/
def Obligations.UpdateDecisions : Prop :=
  (∀ (s u : State) (k : Nat) (v : Post), u = s.sendReports → u.decidable = some (k, v) →
    (u.unitsOf k).all (·.report == 1) = true →
    ∃ t v', exec .commitRun s = .next t ∧ t.post? k = some v' ∧ v'.commit = 2
      ∧ v'.reserve = ((u.unitsOf k).map (·.bytes)).foldl (· + ·) 0 ∧ t.mem = s.mem)
  ∧ (∀ (s u : State) (k : Nat) (v : Post) (c : Cmd), u = s.sendReports → u.decidable = some (k, v) →
    (u.unitsOf k).all (·.report == 1) = false → (u.unitsOf k).any (·.report == 3) = false →
    u.post? k = some v → v.fail = 0 → u.cmd? k = some c → k = cmdKey c.ring c.seq →
    ∃ t, exec .commitRun s = .next t ∧ t.failedWith k stUpdateOver v c)
  ∧ (∀ (s : State) (k n tbl loc : Nat) (v : Post) (g : UWork) (b : Bytes), s.post? k = some v → v.commit = 2 →
    v.phase = 3 → s.ownReads k v = false → s.inTiles k = true → s.unitsOf k = [g] → g.tile = n → g.table = tbl → g.new = [(loc, b)] →
    tPinned (s.tab tbl) = true → (∀ e, s.dirEnt n tbl loc = some e → e.st = 2) →
    isT1 (s.placeAddr tbl n loc) = false →
    ∃ t v', exec (.updateWritesDone k) s = .next t ∧ t.post? k = some v' ∧ v'.commit = 0 ∧ v'.reserve = 0
      ∧ t.mem = s.mem.writePart (s.placeAddr tbl n loc) b
      ∧ FMap.find t.gat.dirty (rowKey tbl n loc) = some (v.step.getD 0)
      ∧ t.counter 0x030 n = s.counter 0x030 n + 1)
  ∧ (∀ (s : State) (n : Nat) (r : EscRep), s.ream.escMsgs.find? (fun r => r.tile == n) = some r →
    s.inTiles r.post = true →
    let x := FMap.get s.ream.escSums r.post { version := r.version }
    ∃ t y, exec (.escCountReport n) s = .next t ∧ FMap.find t.ream.escSums r.post = some y ∧ y.tiles = n :: x.tiles
      ∧ y.qn = addCounts x.qn r.qn ∧ y.qs = addCounts x.qs r.qs ∧ t.ream.escMsgs = s.ream.escMsgs.erase r)

/-! ### Migration (chapter 7) -/

/-- R157 to R162: a promotion enters the row MOVING_IN, a demotion makes it MOVING_OUT; the copy writes the row to its
destination and the catch-up replays what was logged since; a released place is free; clearing ENABLE abandons every
unflipped move; a stale row's write-back copies it home. A write of a directory entry clears its bucket's mark (R190).
Choices of the model: log entries 53 and 54. -/
def Obligations.Migration : Prop :=
  (∀ (s : State) (n tbl loc place : Nat), s.rowExists n tbl loc = true → tPinned (s.tab tbl) = false →
    s.canMove n = true → s.dirEnt n tbl loc = none → s.placeFree n tbl loc place = true →
    ∃ t, exec (.migrationPromote n tbl loc place) s = .next t ∧ t.mem = (s.bucketClear n tbl loc).mem
      ∧ t.dirEnt n tbl loc = some { st := 1, place := place })
  ∧ (∀ (s : State) (n tbl loc : Nat) (e : DirEnt), s.rowExists n tbl loc = true → tPinned (s.tab tbl) = false →
    s.canMove n = true → s.dirEnt n tbl loc = some e → e.st = 2 →
    ∃ t, exec (.migrationDemote n tbl loc) s = .next t ∧ t.mem = (s.bucketClear n tbl loc).mem
      ∧ t.dirEnt n tbl loc = some { e with st := 3, phase := 0, log := 0 })
  ∧ (∀ (s : State) (n tbl loc : Nat) (e : DirEnt), s.hotTile n = false →
    s.moveIn n tbl loc 0 = some e → e.st = 1 → s.copyBad (s.rowAddr n tbl loc) (rowBytes (s.tab tbl)) = false →
    ∃ t, exec (.migrationCopyDone n tbl loc) s = .next t
      ∧ t.mem = ((s.moveRow (s.rowAddr n tbl loc) (s.placeAddr tbl n e.place) (rowBytes (s.tab tbl))).bucketClear
          n tbl loc).mem
      ∧ t.dirEnt n tbl loc = some { e with phase := 1, stale := false })
  ∧ (∀ (s : State) (n tbl loc : Nat) (e : DirEnt), s.hotTile n = false →
    s.moveIn n tbl loc 0 = some e → e.st = 1 → s.copyBad (s.rowAddr n tbl loc) (rowBytes (s.tab tbl)) = true →
    ∃ t, exec (.migrationCopyDone n tbl loc) s = .next t ∧ t.mem = (s.bucketClear n tbl loc).mem
      ∧ t.dirEnt n tbl loc = none
      ∧ t.counter 0x03A n = s.counter 0x03A n + 1)
  ∧ (∀ (s : State) (n tbl loc : Nat) (e : DirEnt), s.hotTile n = false →
    s.moveIn n tbl loc 1 = some e → e.log ≠ 0 → s.copyBad (s.rowAddr n tbl loc) (rowBytes (s.tab tbl)) = false →
    ∃ t, exec (.migrationCatchUpDone n tbl loc) s = .next t
      ∧ t.mem = ((s.moveRow (s.rowAddr n tbl loc) (s.moveDest n tbl loc e) (rowBytes (s.tab tbl))).bucketClear
          n tbl loc).mem
      ∧ t.dirEnt n tbl loc = some { e with phase := 2, log := 0, stale := false })
  ∧ (∀ (s : State) (n tbl loc : Nat) (e : DirEnt), s.dirEnt n tbl loc = some e → e.st = 4 →
    e.flipped < s.ream.sweeps → s.readPending n tbl e.place = false →
    ∃ t, exec (.migrationRelease n tbl loc) s = .next t ∧ t.dirEnt n tbl loc = none
      ∧ t.mem = (s.bucketClear n tbl loc).mem)
  ∧ (∀ (s : State) (x : Word) (n tbl loc : Nat) (e : DirEnt), x.getLsbD 0 = false → tbl < 1024 →
    s.dirEnt n tbl loc = some e → e.st = 1 → tPinned (s.tab tbl) = false →
    ∃ t, exec (.migCtrlEnableClear x) s = .next t ∧ t.migOn = false ∧ t.dirEnt n tbl loc = none)
  ∧ (∀ (s : State) (n tbl loc : Nat) (e : DirEnt), s.hotTile n = false →
    s.dirEnt n tbl loc = some e → e.stale = true → tPinned (s.tab tbl) = false →
    ∃ t, exec (.staleRowWriteBack n tbl loc) s = .next t
      ∧ t.mem = ((s.moveRow (s.placeAddr tbl n e.place) (t1Addr (s.homeAddr tbl n loc)) (rowBytes (s.tab tbl))).bucketClear
          n tbl loc).mem
      ∧ t.dirEnt n tbl loc = some { e with stale := false })
  ∧ (∀ (s : State) (n tbl loc : Nat), s.hotTile n = true →
    exec (.migrationCopyDone n tbl loc) s = .next s ∧ exec (.migrationCatchUpDone n tbl loc) s = .next s
      ∧ exec (.staleRowWriteBack n tbl loc) s = .next s)

/-! ### The vault log and the memory tiers (chapters 8 and 15) -/

/-- R187, R318, R319: a dirty row is appended as it lives now; the oldest record becomes durable, and its rows are no
longer dirty; a STATE record is appended every second, or waits; an erase counts, a retired block is out of use.
Choices of the model: log entries 80 and 81. -/
def Obligations.VaultLog : Prop :=
  (∀ (s : State) (tbl n loc : Nat), s.ream.resident = true → tbl < hTables s.ream.hdr → s.gat.flips = [] →
    s.rowReadable tbl n loc = true → (FMap.find s.gat.dirty (rowKey tbl n loc)).isSome = true → (∀ v, s.homeSeg tbl = some v → v.sealed = false) →
    s.mounted.rel.vault.mustWait (4096 * cdiv (64 + (s.rowsBody tbl [(n, loc)]).length) 4096) = false →
    ∃ t r, exec (.vaultRowsAppend tbl [{ tile := n, loc := loc }]) s = .next t ∧ r ∈ t.rel.vault.log ∧ r.kind = 1
      ∧ r.table = tbl ∧ r.lsn = s.rel.vault.lsn ∧ r.step = s.lastStep ∧ r.durable = false
      ∧ r.body = s.rowsBody tbl [(n, loc)])
  ∧ (∀ (s : State) (r : VRec), s.rel.vault.nextDurable = some r →
    ∃ t, exec .vaultAppendDurable s = .next t ∧ t.gat.dirty = s.gat.dirty.filter (fun e => !r.keys.contains e)
      ∧ firstDurable s.rel.vault.log <+: t.rel.vault.log)
  ∧ (∀ (s : State), s.mounted.rel.vault.mustWait (4096 * cdiv (64 + s.stateBody.length) 4096) = false →
    ∃ t r, exec .stateRecordTimer s = .next t ∧ r ∈ t.rel.vault.log ∧ r.kind = 9 ∧ r.lsn = s.rel.vault.lsn
      ∧ r.body = s.stateBody)
  ∧ (∀ (s : State), s.mounted.rel.vault.mustWait (4096 * cdiv (64 + s.stateBody.length) 4096) = true →
    ∃ t r, exec .stateRecordTimer s = .next t ∧ t.rel.vault.held = s.rel.vault.held ++ [r] ∧ r.kind = 9
      ∧ r.body = s.stateBody)
  ∧ (∀ (s : State), s.rel.vault.retired < vaultBlocks →
    ∃ t, exec (.vaultBlockErase true) s = .next t ∧ t.rel.vault.retired = s.rel.vault.retired + 1
      ∧ t.counter 0x04B 0 = s.counter 0x04B 0 + 1)
  ∧ (∀ (s : State), (s.mounted.rel.vault.dropOld s.rel.vault.log.length).blockFree = true →
    ∃ t, exec (.vaultBlockErase false) s = .next t ∧ t.rel.vault.cycles = s.rel.vault.cycles + 1
      ∧ t.rel.vault.retired = s.rel.vault.retired)

/-- R16, R183, R189 to R192, R312 to R314: a corrected sheet is counted and written back, or queued while its channel
group is hot; a scrub pass poisons what it finds, a post's buffer too; a lost package exposes its group and a second one fails it; a repair
copies the sound copy, or leaves zeros; a reload clears the bad lines; link replays count, and two within 64 flit
slots make a retrain due.
Choices of the model: log entries 60, 61, 83, 84 and 117. -/
def Obligations.MemoryUpkeep : Prop :=
  (∀ (s : State) (n : Nat), s.enabled n = true → s.hotTile n = false →
    ∃ t, exec (.t0CorrectedWriteBack n) s = .next t ∧ t.counter 0x040 n = s.counter 0x040 n + 1
      ∧ FMap.get t.tiers.wb n 0 = 0 ∧ t.mem = s.mem)
  ∧ (∀ (s : State) (n : Nat), s.enabled n = true → s.hotTile n = true → FMap.get s.tiers.wb n 0 < 64 →
    ∃ t, exec (.t0CorrectedWriteBack n) s = .next t ∧ FMap.get t.tiers.wb n 0 = FMap.get s.tiers.wb n 0 + 1)
  ∧ (∀ (s : State) (b : Bool) (n k : Nat), s.regF scrubCtrl 7 0 ≠ 0 → s.enabled n = true → 256 * k < t0Limit →
    s.hotTile n = false → s.bufAt n (256 * k) = none → s.mem.poisoned (t0Addr n (256 * k) / 256) = false →
    ∃ t, exec (.t0ScrubPass b [(n, k)]) s = .next t ∧ t.tiers.t0Lag = b
      ∧ t.mem = s.mem.mark (t0Addr n (256 * k) / 256) true ∧ t.counter 0x042 n = s.counter 0x042 n + 1)
  ∧ (∀ (s : State) (b : Bool) (n k p i : Nat) (v : Post), s.regF scrubCtrl 7 0 ≠ 0 → s.enabled n = true →
    256 * k < t0Limit → s.hotTile n = false → s.bufAt n (256 * k) = some (p, i) → s.post? p = some v →
    (v.buf n).2.contains i = false →
    ∃ t v', exec (.t0ScrubPass b [(n, k)]) s = .next t ∧ t.post? p = some v' ∧ (v'.buf n).1 = (v.buf n).1
      ∧ (v'.buf n).2 = (v.buf n).2 ++ [i] ∧ t.mem = s.mem ∧ t.counter 0x042 n = s.counter 0x042 n + 1)
  ∧ (∀ (s : State) (b : Bool) (g k : Nat), s.regF scrubCtrl 15 8 ≠ 0 → g < 4 → k < 2 ^ 28 → (s.t1g g).st = 0 →
    ∃ t, exec (.t1ScrubPass b [(g, k)]) s = .next t ∧ t.tiers.t1Lag = b ∧ t.counter 0x045 g = s.counter 0x045 g + 1
      ∧ ∀ i < 5, t.t1Bad (t1SheetOf g (5 * k + i)) = true)
  ∧ (∀ (s : State) (g p : Nat), g < 4 → p < 6 → (s.t1g g).lost = [] → (s.t1g g).st = 0 →
    ∃ t, exec (.t1PackageLost g p) s = .next t ∧ (t.t1g g).st = 1 ∧ (t.t1g g).lost = [p] ∧ t.hasCause cT1Exposed)
  ∧ (∀ (s : State) (g p q : Nat), g < 4 → p < 6 → (s.t1g g).lost = [q] → p ≠ q → (s.t1g g).st = 1 →
    ∃ t, exec (.t1PackageLost g p) s = .next t ∧ (t.t1g g).st = 2 ∧ t.hasCause cT1Failed)
  ∧ (∀ (s : State) (n tbl loc : Nat), s.rowExists n tbl loc = true → (s.livePlace n tbl loc).isSome = true →
    s.hotTile n = false → s.copyBad (s.rowAddr n tbl loc) (rowBytes (s.tab tbl)) = true →
    s.copyBad (t1Addr (s.homeAddr tbl n loc)) (rowBytes (s.tab tbl)) = false →
    (∀ e, s.dirEnt n tbl loc = some e → e.stale = false) →
    ∃ t, exec (.poisonRepair n tbl loc) s = .next t ∧ t.counter 0x0B2 tbl = s.counter 0x0B2 tbl + 1
      ∧ t.mem = (s.writeCopy (s.rowAddr n tbl loc)
          (s.mem.readN (t1Addr (s.homeAddr tbl n loc)) (rowBytes (s.tab tbl)))).mem)
  ∧ (∀ (s : State) (n tbl loc : Nat), s.rowExists n tbl loc = true → s.livePlace n tbl loc = none →
    s.copyBad (t1Addr (s.homeAddr tbl n loc)) (rowBytes (s.tab tbl)) = true → s.newestRow tbl n loc = none →
    ∃ t, exec (.poisonRepair n tbl loc) s = .next t ∧ t.counter 0x0B4 tbl = s.counter 0x0B4 tbl + 1
      ∧ t.mem = (s.rewriteRow n tbl loc (zeros (rowBytes (s.tab tbl)))).mem)
  ∧ (∀ (s : State) (n : Nat), (s.tile n).st = 3 → s.ream.resident = true →
    ∃ t, exec (.reamLineReload n) s = .next t
      ∧ (t.tile n).badLines = (s.tile n).badLines.filter fun l => t.spBad n l)
  ∧ (∀ (s : State) (d : Nat), d < 2 →
    ∃ t, exec (.d2dFlitReplay d) s = .next t ∧ t.counter 0x001 d = s.counter 0x001 d + 1
      ∧ FMap.find t.rel.d2dLast d = some (s.flitSlot d)
      ∧ ∀ m, FMap.find s.rel.d2dLast d = some m → s.flitSlot d < m + 64 → t.rel.d2dDue = true)

/-! ### Watchdogs and resets (chapter 15) -/

/-- R236, R333, R335: each watchdog whose condition holds while a ream is resident, a retrain that is due and the
DEV_RESET register make the device reset that preserves state, with their code of Table 15.13.
Choices of the model: log entries 71 and 105. -/
def Obligations.DeviceResets : Prop :=
  (∀ (s : State), s.rel.stuck = false → s.pwr.st = 3 →
    ∃ t, exec (.devReset 0x5AFE0001#32) s = .next t ∧ t.wasReset s 1)
  ∧ (∀ (s : State) (k at_ : Nat) (v : Post), s.rel.stuck = false → s.pwr.st = 3 → s.ream.resident = true →
    s.post? k = some v → v.endedAt = some at_ → at_ + 10 ^ 6 ≤ s.now → s.inTiles k = true →
    ∃ t, exec (.watchdogTimeoutEnd k) s = .next t ∧ t.wasReset s 2)
  ∧ (∀ (s : State) (n c k i : Nat) (v : Ctx) (p : Post), s.rel.stuck = false → s.pwr.st = 3 →
    s.ream.resident = true → s.ctx? n c = some v → v.post = some k → s.post? k = some p → s.stageOf n = some i →
    s.longPast p i = true →
    ∃ t, exec (.watchdogContext n c) s = .next t ∧ t.wasReset s 3)
  ∧ (∀ (s : State) (n k : Nat) (p : Post) (g : GWork), s.rel.stuck = false → s.pwr.st = 3 →
    s.ream.resident = true → s.post? k = some p → g ∈ s.gat.works → g.tile = n → g.post = k →
    s.longPast p (tGatherStage (s.tab (s.parentTable g.table))) = true →
    ∃ t, exec (.watchdogGather n k) s = .next t ∧ t.wasReset s 4)
  ∧ (∀ (s : State), s.rel.stuck = false → s.pwr.st = 3 → s.ream.resident = true →
    s.ream.sweepAt + (if s.ream.half then 8 else 4) * hSweep s.ream.hdr ≤ s.feltNow →
    ∃ t, exec .watchdogAdmit s = .next t ∧ t.wasReset s 5)
  ∧ (∀ (s : State) (n c : Nat) (v : Ctx), s.rel.stuck = false → s.pwr.st = 3 → s.ream.resident = true →
    s.ctx? n c = some v → s.issues n = true → v.running = true → v.failed = false →
    s.wordReadable n v = false ∨ wordBad (s.nextWord n v) = true →
    ∃ t, exec (.watchdogMalformed n c) s = .next t ∧ t.wasReset s 6)
  ∧ (∀ (s : State) (k : Nat) (c : Cmd), s.rel.stuck = false → s.pwr.st = 3 → s.ream.resident = true →
    s.hp.link = 2 → (k, c) ∈ s.fe.cmds →
    c.phase = .accepted ∨ c.phase = .walking ∨ (c.phase = .post ∧ ∃ v, s.post? k = some v ∧ v.phase = 1) →
    c.progress + 10 ^ 7 ≤ s.now →
    ∃ t, exec .watchdogFrontEnd s = .next t ∧ t.wasReset s 7)
  ∧ (∀ (s : State) (n : Nat), s.rel.stuck = false → s.pwr.st = 3 → s.ream.resident = true → n < 8 →
    ∃ t, exec (.watchdogCore n) s = .next t ∧ t.wasReset s 8)
  ∧ (∀ (s : State), s.rel.stuck = false → s.pwr.st = 3 → s.rel.d2dDue = true →
    ∃ t, exec .d2dRetrain s = .next t ∧ t.wasReset s 9 ∧ t.counter 0x002 0 = s.counter 0x002 0 + 1)

/-- R332, R334, R343, R350, R356: the cold reset brings the block back as reset leaves it, with the boot counted, in
BOOTING or BOOT_FAILED; a boot that did not come up falls back to the other slot, or ends in BOOT_FAILED, and the next tick
ends one that did (the model's choice, log entry 70); PART_RESET starts a partition's reset.
Choices of the model: log entry 70. -/
def Obligations.ColdReset : Prop :=
  (∀ (s : State), s.powered = true →
    ∃ t, exec (.coldReset 0xC01DB007#32) s = .next t ∧ t.mem = State.reset.mem ∧ t.regs = State.reset.regs
      ∧ t.fe = State.reset.fe ∧ t.ream = State.reset.ream ∧ t.posts = [] ∧ t.slots = [] ∧ t.tiles = []
      ∧ t.rel.boots = (s.rel.boots + 1) % 2 ^ 32 ∧ t.rel.vault = s.rel.vault.remount
      ∧ (t.pwr.st = 2 ∨ t.pwr.st = 6))
  ∧ (∀ (s : State), s.pwr.st = 2 → s.slotBoots (1 - s.sec.bootSlot) = true →
    ∃ t, exec .bootFallback s = .next t ∧ t.sec.bootSlot = 1 - s.sec.bootSlot ∧ t.sec.fallback = true
      ∧ t.pwr.st = 2)
  ∧ (∀ (s : State), s.pwr.st = 2 → s.slotBoots (1 - s.sec.bootSlot) = false →
    ∃ t, exec .bootFallback s = .next t ∧ t.pwr.st = 6 ∧ t.posts = [] ∧ t.mem = {} ∧ t.fe = {}
      ∧ t.hp.cxlOk = false)
  ∧ (∀ (s : State), s.pwr.st = 2 → s.pending = [] →
    ∃ t, step s = .next t ∧ t.pwr.st = 3 ∧ t.pwr.attach = [])
  ∧ (∀ (s : State) (x : Word) (p : Nat), p < 16 → x.getLsbD p = true → (s.part p).st = 1 ∨ (s.part p).st = 3 →
    ∃ t, exec (.partReset x) s = .next t ∧ (t.part p).resetBusy = true)

/-! ### Power (chapter 17) -/

/-- R321, R354 to R358, R367: input power arms the module, STANDBY samples its straps, the reset pin and low input
start the flush with their cause and records up to FLUSH_END, the flush leads to SAFE or STANDBY, and from there a
cold reset follows, to BOOTING or BOOT_FAILED; the reset pin in BOOTING leads back to STANDBY at once; a hardware trip
flushes nothing.
Choices of the model: log entries 66, 70, 100 and 101. -/
def Obligations.PowerStates : Prop :=
  (∀ (s : State), s.pwr.st = 0 →
    ∃ t, exec .inputApplied s = .next t ∧ t = { s with pwr := { s.pwr with trip := false } })
  ∧ (∀ (s : State) (f a : Nat), s.pwr.st = 0 → s.pwr.modLow = true →
    ∃ t, exec (.standbyEntry f a) s = .next t ∧ t.pwr.st = 1 ∧ t.fuse.feed = f % 256 ∧ t.pwr.addrSel = a % 8
      ∧ t.pwr.perst = true)
  ∧ (∀ (s : State) (f a : Nat), s.pwr.st = 0 → s.pwr.modLow = false →
    ∃ t, exec (.standbyEntry f a) s = .next t ∧ (t.pwr.st = 2 ∨ t.pwr.st = 6) ∧ t.rel.boots = (s.rel.boots + 1) % 2 ^ 32 ∧ t.regs = []
      ∧ t.fuse.feed = f % 256)
  ∧ (∀ (s : State) (us : Nat), s.pwr.st = 3 → 1000 ≤ us →
    ∃ t r, exec (.modResetLow us) s = .next t ∧ t.pwr.st = 4 ∧ t.pwr.flushCause = 4 ∧ t.pwr.modLow = true
      ∧ t.pwr.flushed = false ∧ t.rel.vault.log.getLast? = some r ∧ r.kind = 10 ∧ t.posts = [] ∧ t.mem = {})
  ∧ (∀ (s : State) (us : Nat), s.pwr.st = 2 →
    ∃ t, exec (.modResetLow us) s = .next t ∧ t.pwr.st = 1 ∧ t.pwr.modLow = true ∧ t.mem = {})
  ∧ (∀ (s : State), s.pwr.st = 1 →
    ∃ t, exec .modResetRelease s = .next t ∧ (t.pwr.st = 2 ∨ t.pwr.st = 6) ∧ t.rel.boots = (s.rel.boots + 1) % 2 ^ 32 ∧ t.regs = []
      ∧ t.pwr.modLow = false)
  ∧ (∀ (s : State) (v i : Nat), s.pwr.st = 3 → v < 3600 → i ≤ 9000 → 4 ≤ s.pwr.low →
    ∃ t, exec (.inputPowerSample v i) s = .next t ∧ t.pwr.st = 4 ∧ t.pwr.flushCause = 1 ∧ t.pwr.vin = v)
  ∧ (∀ (s : State) (v i : Nat), s.pwr.st = 3 → 3800 ≤ v → v ≤ 5200 → i ≤ 9000 →
    ∃ t, exec (.inputPowerSample v i) s = .next t ∧ t.pwr.st = 3 ∧ t.pwr.vin = v ∧ t.pwr.iin = i ∧ t.pwr.low = 0
      ∧ t.pwr.brown = 0 ∧ t.pwr.high = 0 ∧ t.pwr.amps = 0)
  ∧ (∀ (s : State), s.pwr.st = 4 → s.pwr.flushed = false → s.pwr.flushCause ≠ 4 → 3600 ≤ s.pwr.vin →
    ∃ t, exec .flushEndDurable s = .next t ∧ t.pwr.st = 5 ∧ ∀ r ∈ t.rel.vault.log, r.durable = true)
  ∧ (∀ (s : State), s.pwr.st = 4 → s.pwr.flushed = false → s.pwr.flushCause = 4 → s.pwr.modLow = true →
    3600 ≤ s.pwr.vin →
    ∃ t, exec .flushEndDurable s = .next t ∧ t.pwr.st = 1 ∧ ∀ r ∈ t.rel.vault.log, r.durable = true)
  ∧ (∀ (s : State), s.pwr.st = 5 → s.pwr.modLow = false → 3800 ≤ s.pwr.vin → s.pwr.trip = false →
    ∃ t, exec .safeInputStable s = .next t ∧ (t.pwr.st = 2 ∨ t.pwr.st = 6) ∧ t.rel.boots = (s.rel.boots + 1) % 2 ^ 32 ∧ t.regs = [])
  ∧ (∀ (s : State), s.pwr.st ≠ 0 → s.powered = false → s.pwr.vin < 3600 →
    ∃ t, exec .bankDischarged s = .next t ∧ t.pwr.st = 0 ∧ t.mgmt = {})
  ∧ (∀ (s : State), s.pwr.st = 3 →
    ∃ t, exec .hardwareTrip s = .next t ∧ t.pwr.st = 5 ∧ t.pwr.flushCause = 6 ∧ t.pwr.trip = true
      ∧ t.mem = {} ∧ t.rel.vault.log = s.rel.vault.log.filter (·.durable))
  ∧ (∀ (s : State) (x : Word), x.getLsbD 8 = true →
    ∃ t, exec (.flushClear x 0) s = .next t ∧ t.pwr.flushCause = 0 ∧ t.pwr.st = s.pwr.st)

/-- R175, R176, R359, R365 to R367: a DRAM reading moves its channel group's state, a junction or coolant reading is
held against its thresholds, past which the module trips; the coolant demand lies between its ends; power above the
cap lowers the clocks, and above 2,800 W declares an emergency.
Choices of the model: log entries 73, 101 and 102. -/
def Obligations.Thermal : Prop :=
  (∀ (s : State) (g d c : Nat), s.pwr.st = 3 → g < 9 → d < 4 →
    let th := FMap.get s.tiers.therm g {}
    let dies := FMap.set th.dies d c
    dies.any (fun e => decide (105 ≤ e.2)) = false →
    ∃ t, exec (.dramSensorReading g d c) s = .next t ∧ (FMap.get t.tiers.therm g {}).dies = dies
      ∧ (FMap.get t.tiers.therm g {}).temp = maxOf (dies.map (·.2))
      ∧ (FMap.get t.tiers.therm g {}).peak = Nat.max th.peak c
      ∧ (FMap.get t.tiers.therm g {}).st = thermNext th.st dies
      ∧ (thermNext th.st dies = 2 → t.pwr.emerg.contains 2 = true))
  ∧ (∀ (s : State) (g d c : Nat), s.pwr.st = 3 → g < 9 → d < 4 → 105 ≤ c →
    ∃ t, exec (.dramSensorReading g d c) s = .next t ∧ t.pwr.st = 4 ∧ t.pwr.flushCause = 5 ∧ t.pwr.trip = true)
  ∧ (∀ (s : State) (i c : Nat), s.pwr.st = 3 → s.enabled i = true → 105 ≤ c → c < 115 →
    ∃ t, exec (.junctionSensorReading 0 i c) s = .next t ∧ FMap.find t.pwr.cdie i = some c
      ∧ t.pwr.emerg.contains 3 = true ∧ t.pwr.st = 3)
  ∧ (∀ (s : State) (i c : Nat), s.pwr.st = 3 → s.enabled i = true → 115 ≤ c → c < 125 →
    ∃ t, exec (.junctionSensorReading 0 i c) s = .next t ∧ t.pwr.st = 4 ∧ t.pwr.flushCause = 5)
  ∧ (∀ (s : State) (i c : Nat), s.pwr.st = 3 → i < 12 → 125 ≤ c → c < 140 →
    ∃ t, exec (.junctionSensorReading 2 i c) s = .next t ∧ FMap.find t.pwr.regs i = some c
      ∧ t.pwr.emerg.contains 5 = true)
  ∧ (∀ (s : State) (a b f : Nat), s.pwr.st = 3 → b < 65 → 10 ≤ f →
    ∃ t, exec (.coolantSensorReading a b f) s = .next t ∧ t.pwr.st = 3 ∧ t.pwr.inlet = a ∧ t.pwr.outlet = b
      ∧ t.pwr.flow = f ∧ t.pwr.outletHot = 0 ∧ t.pwr.flowTrip = 0)
  ∧ (∀ (s : State) (a b f : Nat), s.pwr.st = 3 → 65 ≤ b → 99 ≤ s.pwr.outletHot →
    ∃ t, exec (.coolantSensorReading a b f) s = .next t ∧ t.pwr.st = 4 ∧ t.pwr.flushCause = 5)
  ∧ (∀ (s : State), s.pwr.st ≠ 0 →
    ∃ t, exec .coolDemandUpdate s = .next t ∧ 25 ≤ t.pwr.demand ∧ t.pwr.demand ≤ 60
      ∧ (s.hotDram ≤ 70 → s.hotCdie ≤ 85 → t.pwr.demand = 25)
      ∧ (82 ≤ s.hotDram ∨ 100 ≤ s.hotCdie → t.pwr.demand = 60))
  ∧ (∀ (s : State) (n g : Nat), s.pwr.st = 3 → s.pwrCap < n → s.skips = false → s.pwr.emerg = [] →
    s.pwr.awake = [g] → s.capFloor < s.mhz g →
    ∃ t, exec (.powerComparison n) s = .next t ∧ t.pwr.pAvg = n ∧ t.pwr.pPeak = Nat.max s.pwr.pPeak n
      ∧ t.mhz g = Nat.max s.capFloor (s.mhz g - 20))
  ∧ (∀ (s : State) (n : Nat), s.pwr.st = 3 → 2800 < n →
    ∃ t, exec (.powerComparison n) s = .next t ∧ t.pwr.emerg.contains 1 = true)

/-- R7, R359 to R364, R376: the cap and the slew limit are clamped and stored unless locked, and a lock once set
stays; a wake ends its ramp, then its group is usable at 800 MHz; the bank's estimate gives its state, a failed
charge or test makes it FAILED.
Choices of the model: log entries 100 and 102. -/
def Obligations.PowerControl : Prop :=
  (∀ (s : State) (x : Word), s.pwrLocked = false →
    let w := clamp 1200 2400 (bitsOf x.toNat 11 0)
    ∃ t, exec (.pwrCap x) s = .next t ∧ t.regW 0xA0008 = BitVec.ofNat 32 w
      ∧ (s.ream.resident = true → w < hPower s.ream.hdr → t.hasCause cCapBelowReam))
  ∧ (∀ (s : State) (x : Word), s.pwrLocked = true →
    ∃ t, exec (.pwrCap x) s = .next t ∧ t = s)
  ∧ (∀ (s : State) (x : Word), s.pwrLocked = false →
    ∃ t, exec (.slew x) s = .next t ∧ t.regW 0xA000C = BitVec.ofNat 32 (clamp 5 120 (bitsOf x.toNat 6 0)))
  ∧ (∀ (s : State) (a : Nat) (x : Word), lockRegs.contains a = true → s.locked a = false → x.getLsbD 0 = true →
    ∃ t, exec (.lock a x) s = .next t ∧ t.locked a = true)
  ∧ (∀ (s : State) (a : Nat) (x : Word), s.locked a = true → ∃ t, exec (.lock a x) s = .next t ∧ t = s)
  ∧ (∀ (s : State) (g : Nat) (q : List (Nat × Bool)), s.pwr.queue = (g, true) :: q →
    ∃ t, exec .wakeRampDone s = .next t ∧ t.pwr.queue = q ∧ t.pwr.ramped = s.pwr.ramped ++ [g]
      ∧ t.pwr.awake = s.pwr.awake)
  ∧ (∀ (s : State) (g n : Nat), s.pwr.ramped.contains g = true → n ∈ s.groupTiles g → (s.tile n).st = 2 →
    ∃ t, exec (.tileGroupUsable g) s = .next t ∧ t.pwr.awake.contains g = true ∧ t.mhz g = 800
      ∧ (t.tile n).st = 1)
  ∧ (∀ (s : State) (v c : Nat), s.pwr.st ≠ 0 → s.pwr.bank.cap ≠ 0 → s.pwr.bank.test = false →
    let e := bankEnergy s.pwr.bank.cap v
    ∃ t, exec (.bankEstimate v c) s = .next t ∧ t.pwr.bank.volts = v ∧ t.pwr.bank.joule = e / 10 ^ 9
      ∧ t.pwr.bank.failed = (s.pwr.bank.failed || decide (70 < c))
      ∧ t.pwr.bank.st = t.pwr.bank.next e
      ∧ t.pwr.bank.force = if t.pwr.bank.st = 3 then 0 else bankGib e)
  ∧ (∀ (s : State), s.pwr.st = 3 → s.pwr.bank.volts < 4000 →
    ∃ t, exec .bankChargeTimeout s = .next t ∧ t.pwr.bank.st = 3 ∧ t.pwr.bank.failed = true ∧ t.pwr.bank.force = 0)
  ∧ (∀ (s : State), s.pwr.st = 3 → s.pwr.bank.reached = true →
    ∃ t, exec .bankHealthTestTimer s = .next t ∧ t.pwr.bank.test = true)
  ∧ (∀ (s : State) (x : Word), s.pwr.st = 3 → x.getLsbD 0 = true →
    ∃ t, exec (.bankTest x) s = .next t ∧ t.pwr.bank.test = true)
  ∧ (∀ (s : State) (c r : Nat), s.pwr.bank.test = true →
    ∃ t, exec (.bankHealthTestDone c r) s = .next t ∧ t.pwr.bank.test = false ∧ t.pwr.bank.cap = c
      ∧ t.pwr.bank.esr = r ∧ (c < 960 ∨ 60 < r → t.pwr.bank.st = 3 ∧ t.pwr.bank.failed = true))

/-! ### The host port (chapter 12) -/

/-- R253 to R257, R264 to R267, R302, R357: a host-port reset takes the link down, raises its epoch and detaches every
local partition; training, L0 and recovery set the link's state; a GO response takes one line of its write, and with
the last accepts it; an unmasked vector sends what is pending; a bad access is counted, and a bad read answers all
ones.
Choices of the model: log entries 8, 127 and 128. -/
def Obligations.HostLink : Prop :=
  (∀ (s : State),
    ∃ t, exec .hostPortReset s = .next t ∧ t.hp.link = 0 ∧ t.hp.cxlOk = false
      ∧ t.hp.epoch = (s.hp.epoch + 1) % 2 ^ 16 ∧ t.counter 0x081 0 = s.counter 0x081 0 + 1
      ∧ (∀ p, p < 16 → (s.part p).st = 1 → (s.part p).remote = false → (t.part p).st = 3)
      ∧ t.evt.coreCause.testBit 32 = true)
  ∧ (∀ (s : State), s.hp.link = 0 →
    ∃ t, exec .perstNRelease s = .next t ∧ t.hp.link = 1 ∧ t.pwr.perst = false)
  ∧ (∀ (s : State) (a b : Nat), s.hp.link = 1 → s.pwr.st = 3 → a ≠ 0 → s.hp.dir = [] → s.hp.waits = [] →
    linkForm a b = true →
    ∃ t, exec (.hostLinkL0 a b true) s = .next t ∧ t.hp.link = 2 ∧ t.hp.speed = a ∧ t.hp.width = b
      ∧ t.hp.cxlOk = true)
  ∧ (∀ (s : State) (a b : Nat), s.hp.link = 1 → s.pwr.st = 3 → a ≠ 0 → linkForm a b = true → s.hp.dir ≠ [] →
    ∃ t, exec (.hostLinkL0 a b true) s = .next t ∧ t.hp.link = 2 ∧ t.hp.biPurge = true ∧ ∀ l ∈ s.hp.dir, l ∈ t.hp.biWait)
  ∧ (∀ (s : State) (a b : Nat), 2 ≤ s.hp.link → linkForm a b = true →
    ∃ t, exec (.linkRecovery a b) s = .next t
      ∧ t.hp = { s.hp with link := 2, speed := a, width := b, cxlOk := s.hp.cxlOk && a != 0 }
      ∧ t.counter 0x080 0 = s.counter 0x080 0 + 1)
  ∧ (∀ (s : State) (x : Xfer), s.io.out.find? (fun y => y.id == x.id) = some x → x.isLocal = true → x.kind = 0 →
    x.accepted = false → x.linesLeft ≤ 1 → x.use.waited = true →
    ∃ t y, exec (.goResponse x.id) s = .next t ∧ t.io.out.find? (fun y => y.id == x.id) = some y
      ∧ y = { x with accepted := true })
  ∧ (∀ (s : State) (x : Xfer), s.io.out.find? (fun y => y.id == x.id) = some x → x.isLocal = true → x.kind = 0 →
    x.accepted = false → 1 < x.linesLeft →
    ∃ t, exec (.goResponse x.id) s = .next t
      ∧ t.io.out.find? (fun y => y.id == x.id) = some { x with gone := x.gone + 1 })
  ∧ (∀ (s : State) (v i : Nat), v < 2048 → s.hp.pba = [(v, i)] → s.hp.msixEnable = true → s.hp.msixMask = false →
    (s.part (s.srcOwner i)).reachable = true → s.autoAck i = false →
    let w (j : Nat) : Word := FMap.get s.hp.msix (4 * v + j) 0
    ∃ t, exec (.msixUnmask v) s = .next t ∧ t.hp.pba = []
      ∧ t.hp.sent = s.hp.sent ++ [((w 0).toNat + 2 ^ 32 * (w 1).toNat, w 2)]
      ∧ (FMap.get t.hp.msix (4 * v + 3) 1).getLsbD 0 = false)
  ∧ (∀ (s : State),
    ∃ t, exec (.barBadAccess false) s = .next t ∧ t.bus.rdata = 0xFFFFFFFF#32
      ∧ t.counter 0x086 0 = s.counter 0x086 0 + 1)
  ∧ (∀ (s : State),
    ∃ t, exec (.barBadAccess true) s = .next t ∧ t.bus = s.bus ∧ t.counter 0x086 0 = s.counter 0x086 0 + 1)

/-- R241, R258 to R261, R267, R197: the host reads and writes a line of a frame of a local partition that is not
sealed, at the decoder's base plus the device byte; a read of an open frame is tracked; a line of no such frame, be it
nobody's, sealed or a remote partition's, reads as poison, a write to it is dropped, and both count; requests wait for the back-invalidations after a reset; the answer
to a BISnpInv ends the tracking, that to a BISnpData leaves the line shared.
Choices of the model: log entries 74 and 128. -/
def Obligations.HostWindow : Prop :=
  (∀ (s : State) (a d p : Nat) (v : Seg), s.hdmLine a = some d → s.windowUp = true →
    s.windowOwner d = some (p, v) → s.closedFrame p = true →
    ∃ t, exec (.cxlMemRead a) s = .next t ∧ t.mem = s.mem ∧ t.hp = s.hp
      ∧ t.bus.resp = s.mem.readN (t1Addr d) 64 ∧ t.bus.rdata = BitVec.ofNat 32 (b2n (s.t1Bad (d / 256))))
  ∧ (∀ (s : State) (a d p : Nat) (v : Seg), s.hdmLine a = some d → s.windowUp = true →
    s.windowOwner d = some (p, v) → s.closedFrame p = false →
    ∃ t, exec (.cxlMemRead a) s = .next t ∧ t.mem = s.mem ∧ d / 64 ∈ t.hp.dir
      ∧ t.bus.resp = s.mem.readN (t1Addr d) 64)
  ∧ (∀ (s : State) (a d : Nat), s.hdmLine a = some d → s.windowUp = true → s.frameOwner d = none →
    ∃ t, exec (.cxlMemRead a) s = .next t ∧ t.mem = s.mem ∧ t.bus.resp = zeros 64 ∧ t.bus.rdata = 1#32
      ∧ t.counter 0x083 16 = s.counter 0x083 16 + 1)
  ∧ (∀ (s : State) (a d : Nat) (b : Bytes) (bad : Bool), s.hdmLine a = some d → s.windowUp = true →
    s.frameOwner d = none →
    ∃ t, exec (.cxlMemWrite a b bad) s = .next t ∧ t.mem = s.mem ∧ t.counter 0x083 16 = s.counter 0x083 16 + 1)
  ∧ (∀ (s : State) (a d p : Nat) (v : Seg) (b : Bytes) (bad : Bool), s.hdmLine a = some d → s.windowUp = true →
    s.frameOwner d = some (p, v) → ((s.part p).remote || v.sealed) = true →
    (∃ t, exec (.cxlMemRead a) s = .next t ∧ t.mem = s.mem ∧ t.bus.resp = zeros 64 ∧ t.bus.rdata = 1#32
        ∧ t.counter 0x083 p = s.counter 0x083 p + 1 ∧ (v.sealed = true → t.counter 0x056 0 = s.counter 0x056 0 + 1))
      ∧ ∃ t, exec (.cxlMemWrite a b bad) s = .next t ∧ t.mem = s.mem ∧ t.counter 0x083 p = s.counter 0x083 p + 1
          ∧ (v.sealed = true → t.counter 0x056 0 = s.counter 0x056 0 + 1))
  ∧ (∀ (s : State) (a : Nat), s.hdmBase ≤ a → a - s.hdmBase < t1Limit →
    s.hdmLine a = some ((a - s.hdmBase) / 64 * 64))
  ∧ (∀ (s : State) (a d p : Nat) (v : Seg) (b : Bytes), s.hdmLine a = some d → s.windowUp = true →
    s.windowOwner d = some (p, v) → v.readOnly = false → s.t1Bad (d / 256) = false → s.memSound →
    ∃ t, exec (.cxlMemWrite a b false) s = .next t
      ∧ (∀ i < 64, t.mem.read (t1Addr d + i) = (fit 64 b).getD i 0)
      ∧ ∀ c, c < t1Addr d ∨ t1Addr d + 64 ≤ c → t.mem.read c = s.mem.read c)
  ∧ (∀ (s : State) (a d p : Nat) (v : Seg) (b : Bytes) (bad : Bool), s.hdmLine a = some d → s.windowUp = true →
    s.windowOwner d = some (p, v) → v.readOnly = true →
    ∃ t, exec (.cxlMemWrite a b bad) s = .next t ∧ t.mem = s.mem ∧ t.counter 0x083 p = s.counter 0x083 p + 1)
  ∧ (∀ (s : State) (a : Nat) (b : Bytes) (bad : Bool), s.hp.cxlOk = true → s.hp.biPurge = true →
    exec (.cxlMemRead a) s = .next { s with hp := { s.hp with memQ := s.hp.memQ ++ [.read a] } }
      ∧ exec (.cxlMemWrite a b bad) s
          = .next { s with hp := { s.hp with memQ := s.hp.memQ ++ [.write a b bad] } })
  ∧ (∀ (s : State) (l : Nat), s.hp.biData.contains l = false → s.hp.biWait.contains l = true → s.hp.waits = [] →
    s.hp.memQ = [] → (∀ p, s.rel.receiver = some p → p.inbox = []) →
    ∃ t, exec (.bisnpResponse l) s = .next t ∧ t.hp.biWait = s.hp.biWait.filter (· != l)
      ∧ t.hp.dir = s.hp.dir.filter (· != l)
      ∧ t.hp.biPurge = (s.hp.biPurge && !(s.hp.biWait.filter (· != l)).isEmpty))
  ∧ (∀ (s : State) (l : Nat), s.hp.biData.contains l = true → s.hp.waits = [] →
    ∃ t, exec (.bisnpResponse l) s = .next t ∧ t.hp.biData = s.hp.biData.filter (· != l) ∧ l ∈ t.hp.shared
      ∧ t.hp.dir = s.hp.dir)

/-! ### The network (chapter 13) -/

/-- R272 to R274, R277, R278, R292, R353: a port's enable latches its registers and trains its link, which then comes up,
and a C2M port's without training; one whose cable is not seated stays DOWN; a lost link trains again, where it trains, and raises LINK_DOWN; CONNECT puts the
selected queue pair in RTS with its context and PSNs in force, or reports its error; RESET returns it to RESET.
Choices of the model: log entries 64 and 69. -/
def Obligations.PortsAndQueues : Prop :=
  (∀ (s : State) (n : Nat), n < 16 → s.powered = true → s.cabled n = true → (s.port n).enabled = false →
    s.groupOn (n / 4) = true → firstLane n (s.heldMode (n / 4)) = true → s.net.modeErr.testBit (n / 4) = false →
    s.regF (portReg n) 2 1 ≠ 3 →
    ∃ t, exec (.portEnable n) s = .next t ∧ (t.port n).enabled = true
      ∧ (t.port n).link = (if s.regF (portReg n) 2 1 = 2 then 0 else 1) ∧ t.regF (portReg n) 0 0 = 1)
  ∧ (∀ (s : State) (n : Nat), n < 16 → s.powered = true → s.cabled n = true → (s.port n).enabled = false →
    s.groupOn (n / 4) = false → s.netMode (n / 4) ≠ 3 → s.modeOf (pairOf (n / 4)) ≠ 3 →
    firstLane n (s.netMode (n / 4)) = true → s.regF (portReg n) 2 1 ≠ 3 →
    ∃ t, exec (.portEnable n) s = .next t ∧ (t.port n).enabled = true
      ∧ (t.port n).link = (if s.regF (portReg n) 2 1 = 2 then 0 else 1)
      ∧ t.regF (portReg n) 0 0 = 1 ∧ FMap.find t.net.modes (n / 4) = some (s.netMode (n / 4)))
  ∧ (∀ (s : State) (n : Nat), (s.port n).enabled = true →
    ∃ t, exec (.portDisable n) s = .next t ∧ (t.port n).enabled = false ∧ (t.port n).link = 0
      ∧ t.regF (portReg n) 0 0 = 0)
  ∧ (∀ (s : State) (n : Nat), s.powered = true → n < 16 → s.cabled n = false → (s.port n).enabled = false →
    s.groupOn (n / 4) = true → firstLane n (s.heldMode (n / 4)) = true →
    ∃ t, exec (.portEnable n) s = .next t ∧ (t.port n).enabled = true ∧ (t.port n).link = 0)
  ∧ (∀ (s : State) (n : Nat), (s.port n).enabled = true → (s.port n).link = 1 → s.cabled n = true →
    ∃ t, exec (.portLinkUp n) s = .next t ∧ (t.port n).link = 2 ∧ (t.port n).lat = (s.port n).lat)
  ∧ (∀ (s : State) (n : Nat), (s.port n).enabled = true → (s.port n).pmd = 2 → (s.port n).link = 0 →
    s.net.modeErr.testBit (n / 4) = false → s.cabled n = true →
    ∃ t, exec (.portLinkUp n) s = .next t ∧ (t.port n).link = 2 ∧ (t.port n).lat = (s.port n).lat)
  ∧ (∀ (s : State) (n : Nat), n < 16 → (s.port n).link = 2 →
    ∃ t, exec (.linkDown n) s = .next t ∧ (t.port n).link = (if (s.port n).pmd = 2 ∨ s.cabled n = false then 0 else 1)
      ∧ t.counter 0x099 n = s.counter 0x099 n + 1 ∧ t.hasCause cLinkDown)
  ∧ (∀ (s : State), s.connectErr (s.qp s.qpSel) = 0 →
    ∃ t, exec .qpConnect s = .next t ∧ t.net.cmdErr = 0 ∧ (t.qp s.qpSel).st = 1
      ∧ (t.qp s.qpSel).lat = (s.qp s.qpSel).ctx ∧ (t.qp s.qpSel).err = 0
      ∧ (t.qp s.qpSel).sqPsn = (s.qp s.qpSel).c 0x48 23 0 ∧ (t.qp s.qpSel).rqPsn = (s.qp s.qpSel).c 0x4C 23 0)
  ∧ (∀ (s : State), s.connectErr (s.qp s.qpSel) ≠ 0 →
    ∃ t, exec .qpConnect s = .next t ∧ t.net.cmdErr = s.connectErr (s.qp s.qpSel) ∧ t.qp s.qpSel = s.qp s.qpSel)
  ∧ (∀ (s : State),
    ∃ t, exec .qpReset s = .next t ∧ (t.qp s.qpSel).st = 0 ∧ t.net.cmdErr = 0)

/-- R273, R275, R276, R280, R283, R286 to R288, R291: a frame is dropped and counted by its first defect, one without
is kept in its group's receive buffer and, a request's next packet, moves the PSN expected on; a window's write is
acknowledged and lands in tier-1, a window's read waits as a response, one past the depth of 16 is an invalid request,
and a message no window admits is refused and fails its queue pair; a SEND is taken on a PARTNER queue pair only.
Choices of the model: log entries 68, 72, 129, 131 and 132. -/
def Obligations.Receiving : Prop :=
  (∀ (s : State) (n : Nat) (i : FrameInfo), n < 16 → (s.port n).link = 2 → i.fcsOk = true →
    s.roceFor n i = true → s.rxBytes n + i.size ≤ 2 ^ 25 → i.icrcOk = true →
    0x100000 ≤ i.qpn → i.qpn - 0x100000 < 4096 → s.qpUp (i.qpn - 0x100000) = true →
    i.ce = false → s.rxBytes n ≤ 2 ^ 24 → i.unsupported = false → i.request = true →
    i.psn = (s.qp (i.qpn - 0x100000)).rqPsn →
    ∃ t, exec (.frameReceive n i) s = .next t ∧ t.rxBytes n = s.rxBytes n + i.size
      ∧ t.qp (i.qpn - 0x100000)
          = { s.qp (i.qpn - 0x100000) with rqPsn := psnAdd i.psn (Nat.max 1 i.span) }
      ∧ t.counter 0x090 n = s.counter 0x090 n + BitVec.ofNat 64 i.fecCorrected
      ∧ t.counter 0x091 n = s.counter 0x091 n + BitVec.ofNat 64 i.fecUncorrected
      ∧ t.net.sent = s.net.sent ∧ t.mem = s.mem ∧ t.io = s.io)
  ∧ (∀ (s : State) (n : Nat) (i : FrameInfo), n < 16 → (s.port n).link = 2 → i.fcsOk = true →
    s.roceFor n i = true → s.rxBytes n + i.size ≤ 2 ^ 25 → i.icrcOk = true →
    0x100000 ≤ i.qpn → i.qpn - 0x100000 < 4096 → s.qpUp (i.qpn - 0x100000) = true →
    i.ce = false → s.rxBytes n ≤ 2 ^ 24 → i.unsupported = false → i.request = false →
    ∃ t, exec (.frameReceive n i) s = .next t ∧ t.rxBytes n = s.rxBytes n + i.size
      ∧ t.qp (i.qpn - 0x100000) = s.qp (i.qpn - 0x100000) ∧ t.net.sent = s.net.sent ∧ t.mem = s.mem)
  ∧ (∀ (s : State) (n : Nat) (i : FrameInfo), n < 16 → (s.port n).link = 2 → i.fcsOk = false →
    ∃ t, exec (.frameReceive n i) s = .next t ∧ t.counter 0x092 n = s.counter 0x092 n + 1
      ∧ t.counter 0x090 n = s.counter 0x090 n + BitVec.ofNat 64 i.fecCorrected
      ∧ t.counter 0x091 n = s.counter 0x091 n + BitVec.ofNat 64 i.fecUncorrected ∧ t.net = s.net)
  ∧ (∀ (s : State) (n : Nat) (i : FrameInfo), n < 16 → (s.port n).link = 2 → i.fcsOk = true →
    s.roceFor n i = false →
    ∃ t, exec (.frameReceive n i) s = .next t ∧ t.counter 0x094 n = s.counter 0x094 n + 1 ∧ t.net = s.net)
  ∧ (∀ (s : State) (n : Nat) (i : FrameInfo), n < 16 → (s.port n).link = 2 → i.fcsOk = true →
    s.roceFor n i = true → 2 ^ 25 < s.rxBytes n + i.size →
    ∃ t, exec (.frameReceive n i) s = .next t ∧ t.counter 0x096 (n / 4) = s.counter 0x096 (n / 4) + 1
      ∧ t.net = s.net)
  ∧ (∀ (s : State) (n : Nat) (i : FrameInfo), n < 16 → (s.port n).link = 2 → i.fcsOk = true →
    s.roceFor n i = true → s.rxBytes n + i.size ≤ 2 ^ 25 → i.icrcOk = false →
    ∃ t, exec (.frameReceive n i) s = .next t ∧ t.counter 0x093 n = s.counter 0x093 n + 1 ∧ t.net = s.net)
  ∧ (∀ (s : State) (n : Nat) (i : FrameInfo), n < 16 → (s.port n).link = 2 → i.fcsOk = true →
    s.roceFor n i = true → s.rxBytes n + i.size ≤ 2 ^ 25 → i.icrcOk = true →
    i.qpn < 0x100000 ∨ 4096 ≤ i.qpn - 0x100000 ∨ (s.qp (i.qpn - 0x100000)).st = 0 →
    ∃ t, exec (.frameReceive n i) s = .next t ∧ t.counter 0x095 n = s.counter 0x095 n + 1 ∧ t.net = s.net)
  ∧ (∀ (s : State) (q k a : Nat) (d : Bytes) (w : Win), s.qpUp q = true → s.winOk q k a d.length 1 = some w →
    w.doorbell = false → s.hp.waits = [] → s.accLines (.write q k a d) = [] →
    FMap.find s.net.wins (keyWin q k) = some w →
    ∃ t, exec (.rdmaWriteReceive q k a d) s = .next t ∧ t.mem = (s.winWrite w a d).mem
      ∧ t.net.sent = s.net.sent ++ [s.packet q 4 (psnDiff (s.qp q).rqPsn 1)])
  ∧ (∀ (s : State) (q k a : Nat) (d : Bytes), s.qpUp q = true → s.winOk q k a d.length 1 = none →
    ∃ t, exec (.rdmaWriteReceive q k a d) s = .next t ∧ (t.qp q).st = 2 ∧ (t.qp q).err = 4
      ∧ t.net.sent = s.net.sent ++ [s.packet q 1 (psnDiff (s.qp q).rqPsn 1)])
  ∧ (∀ (s : State) (q k a n : Nat) (d : Bytes) (w : Win), s.qpUp q = true → s.readsOpen q < 16 →
    s.winOk q k a n 0 = some w →
    s.hp.waits = [] →
    s.accBlocked (.read q k a n (psnDiff (s.qp q).rqPsn (cdiv n (s.qp q).pmtu))) = [] → FMap.find s.net.wins (keyWin q k) = some w →
    s.winRead w a n = some d →
    ∃ t, exec (.rdmaReadRequestReceive q k a n) s = .next t ∧ t.mem = s.mem
      ∧ (t.qp q).resp = (s.qp q).resp
          ++ [{ win := keyWin q k, psn := psnDiff (s.qp q).rqPsn (cdiv n (s.qp q).pmtu), data := d }])
  ∧ (∀ (s : State) (q k a n : Nat), s.qpUp q = true → 16 ≤ s.readsOpen q →
    ∃ t, exec (.rdmaReadRequestReceive q k a n) s = .next t ∧ (t.qp q).st = 2 ∧ (t.qp q).err = 4
      ∧ t.net.sent = s.net.sent ++ [s.packet q 2 (psnDiff (s.qp q).rqPsn 1)])
  ∧ (∀ (s : State) (q : Nat) (d : Bytes), s.qpUp q = true → (s.qp q).partner = true →
    ∃ t, exec (.sendReceive q d) s = .next t ∧ t.qp q = s.qp q
      ∧ t.net.sent = s.net.sent ++ [s.packet q 4 (psnDiff (s.qp q).rqPsn 1)])
  ∧ (∀ (s : State) (q : Nat) (d : Bytes), s.qpUp q = true → (s.qp q).partner = false →
    ∃ t, exec (.sendReceive q d) s = .next t ∧ (t.qp q).st = 2
      ∧ t.net.sent = s.net.sent ++ [s.packet q 2 (psnDiff (s.qp q).rqPsn 1)])

/-- R275, R278 to R282: an acknowledgement accepts the messages whose last packets it covers, as a NAK does those before
it; a sequence error or a timeout sends again
up to the retry count, past which the queue pair fails; a receiver-not-ready waits for its timer; a congestion
notification cuts the rate and quiet periods raise it, within the bounds; a turn sends one packet, of a response
before a message.
Choices of the model: log entries 69, 130, 132 and 139. -/
def Obligations.Transport : Prop :=
  (∀ (s : State) (q n : Nat) (x : Xfer), s.qpUp q = true → s.psnOpen q n = true → s.unacked q = [x] →
    x.endsBy n (s.qp q).pmtu = true → x.use.waited = true → s.io.out.find? (fun y => y.id == x.id) = some x →
    ∃ t y, exec (.ackReceive q n) s = .next t ∧ (t.qp q).retries = 0 ∧ (t.qp q).rnr = 0
      ∧ (t.qp q).una = some (psnAdd n 1) ∧ t.io.out.find? (fun y => y.id == x.id) = some y ∧ y.accepted = true)
  ∧ (∀ (s w : State) (q m : Nat), s.qpUp q = true → s.psnOpen q m = true → w = s.ackTo q (psnDiff m 1) →
    (w.qp q).retries + 1 ≤ (w.qp q).l 0x68 10 8 →
    ∃ t, exec (.nakReceive q 0 m) s = .next t ∧ (t.qp q).st = (w.qp q).st
      ∧ (t.qp q).retries = (w.qp q).retries + 1
      ∧ ∀ x ∈ t.io.out, ∀ p, x.qp = some q → x.accepted = false → x.psn = some p → psnDiff p m < 2 ^ 23 →
          x.handed = 0)
  ∧ (∀ (s : State) (q m : Nat), s.qpUp q = true →
    ∃ t, exec (.nakReceive q 2 m) s = .next t ∧ (t.qp q).st = 2 ∧ (t.qp q).err = 3)
  ∧ (∀ (s : State) (q k m : Nat), s.qpUp q = true → k ≤ 1 → s.psnOpen q m = false →
    exec (.nakReceive q k m) s = .next s)
  ∧ (∀ (s w : State) (q m : Nat), s.qpUp q = true → s.psnOpen q m = true → w = s.ackTo q (psnDiff m 1) →
    (w.qp q).l 0x68 14 12 = 7 →
    ∃ t, exec (.nakReceive q 1 m) s = .next t ∧ (t.qp q).rnrWait = true ∧ (t.qp q).rnr = (w.qp q).rnr + 1)
  ∧ (∀ (s : State) (q m : Nat), s.qpUp q = true → s.oldestPsn q = some m →
    (s.qp q).l 0x68 10 8 < (s.qp q).retries + 1 →
    ∃ t, exec (.ackTimeout q) s = .next t ∧ (t.qp q).st = 2 ∧ (t.qp q).err = 1)
  ∧ (∀ (s : State) (q m : Nat), s.qpUp q = true → s.oldestPsn q = some m →
    (s.qp q).retries + 1 ≤ (s.qp q).l 0x68 10 8 →
    ∃ t, exec (.ackTimeout q) s = .next t ∧ (t.qp q).st = 1 ∧ (t.qp q).retries = (s.qp q).retries + 1
      ∧ (t.qp q).retrans = (s.qp q).retrans
          + BitVec.ofNat 32 (((s.unacked q).map fun x => x.resent m (s.qp q).pmtu).foldl (· + ·) 0))
  ∧ (∀ (s : State) (q : Nat), s.qpUp q = true → (s.qp q).rnrWait = true →
    ∃ t, exec (.rnrRetryTimer q) s = .next t ∧ (t.qp q).rnrWait = false ∧ (t.qp q).st = 1)
  ∧ (∀ (s : State) (q : Nat), (s.qp q).st = 1 → s.ccOn = true → (s.qp q).lastCut = none →
    ∃ t, exec (.cnpReceive q) s = .next t ∧ (t.qp q).cnpSeen = true
      ∧ (t.qp q).rate = (s.qp q).rate * (256 - s.regF 0x80040 7 0) / 256)
  ∧ (∀ (s : State) (q : Nat), (s.qp q).st = 1 → s.ccOn = true → (s.qp q).cnpSeen = false →
    ∃ t, exec (.ccPeriod q) s = .next t ∧ (t.qp q).quiet = (s.qp q).quiet + 1
      ∧ (t.qp q).rate = s.clampRate (s.qp q).port ((s.qp q).rate + (s.qp q).step))
  ∧ (∀ (s : State) (n q p : Nat) (qs : List Nat) (x : Xfer), s.readyQps n = q :: qs →
    (s.readyQps n).find? (fun p => decide ((s.port n).rr < p)) = none → (s.qp q).resp = [] →
    s.nextMsg q = some x → p = x.psn.getD (s.qp q).sqPsn →
    ∃ t, exec (.packetSendTurn n) s = .next t ∧ (t.port n).rr = q
      ∧ t.net.sent = s.net.sent ++ [s.packet q 5 (psnAdd p (x.handed / (s.qp q).pmtu))]
      ∧ ∀ y ∈ s.io.out, y.id = x.id →
          { y with handed := y.handed + (if x.kind = 1 then 1 else Nat.min (s.qp q).pmtu (x.bytes - x.handed))
                   psn := some p } ∈ t.io.out)
  ∧ (∀ (s : State) (n q : Nat) (qs : List Nat) (d : Resp) (ds : List Resp), s.readyQps n = q :: qs →
    (s.readyQps n).find? (fun p => decide ((s.port n).rr < p)) = none → (s.qp q).resp = d :: ds → d.nak = false →
    d.data.length ≤ (s.qp q).pmtu →
    ∃ t, exec (.packetSendTurn n) s = .next t ∧ (t.port n).rr = q ∧ (t.qp q).resp = ds
      ∧ t.net.sent = s.net.sent ++ [s.packet q 6 d.psn])
  ∧ (∀ (s : State) (q m : Nat) (d : Rd) (x : Xfer) (n c : Nat), s.qpUp q = true →
    (s.unacked q).find? (fun x => x.id == m && x.kind == 1) = some x → x.use = .fetch n c →
    ∃ t, exec (.rdmaReadResponseReceive q m d) s = .next t ∧ (t.qp q).retries = 0
      ∧ ∀ y ∈ t.io.out, y.id = m → y.accepted = true ∧ y.data = d.data ∧ y.poison = d.poison)

/-! ### Events, time and registers (chapters 14 and 18) -/

/-- R264, R297 to R300, R303: a PENDING source whose coalescing time has passed delivers to its owner: to the control
cores; to a local partition by the MSI-X message of one vector of its route, which is the chosen processor's where the
priority lines are held and stays pending where its vector is masked; to a remote one by one SEND on its attach queue
pair; on an invalid route nothing goes out, which is counted. An acknowledgement is accepted only for an ACTIVE source
without AUTO_ACK, which re-arms; any other is counted.
Choices of the model: log entry 11. -/
def Obligations.Events : Prop :=
  (∀ (s : State) (i : Nat), i < 512 → (s.src i).st = 1 → s.srcOwner i = 16 →
    (s.src i).timer + s.coalCycles i ≤ s.now →
    ∃ t x, exec (.coalesceTimerExpiry i) s = .next t ∧ t.evt.core = s.evt.core ++ [x] ∧ x.1 = i
      ∧ x.2.2 = (s.src i).count ∧ (t.src i).count = 0 ∧ (t.src i).st = if s.autoAck i then 0 else 2)
  ∧ (∀ (s : State) (x : Word), (s.src (bitsOf x.toNat 8 0)).st = 2 → s.autoAck (bitsOf x.toNat 8 0) = false →
    s.srcOpen (bitsOf x.toNat 8 0) = true → (s.src (bitsOf x.toNat 8 0)).count = 0 →
    ∃ t, exec (.evtAck x) s = .next t ∧ (t.src (bitsOf x.toNat 8 0)).st = 0 ∧ t.counter 0x0A1 0 = s.counter 0x0A1 0)
  ∧ (∀ (s : State) (x : Word), (s.src (bitsOf x.toNat 8 0)).st = 2 → s.autoAck (bitsOf x.toNat 8 0) = false →
    s.srcOpen (bitsOf x.toNat 8 0) = true → (s.src (bitsOf x.toNat 8 0)).count ≠ 0 →
    (s.src (bitsOf x.toNat 8 0)).count < s.coalCount (bitsOf x.toNat 8 0) →
    ∃ t, exec (.evtAck x) s = .next t ∧ (t.src (bitsOf x.toNat 8 0)).st = 1
      ∧ (t.src (bitsOf x.toNat 8 0)).timer = s.now)
  ∧ (∀ (s : State) (x : Word), (s.src (bitsOf x.toNat 8 0)).st ≠ 2 →
    ∃ t, exec (.evtAck x) s = .next t ∧ t.counter 0x0A1 0 = s.counter 0x0A1 0 + 1 ∧ t.evt = s.evt)
  ∧ (∀ (s : State) (x : Word), s.autoAck (bitsOf x.toNat 8 0) = true →
    ∃ t, exec (.evtAck x) s = .next t ∧ t.counter 0x0A1 0 = s.counter 0x0A1 0 + 1 ∧ t.evt = s.evt)
  ∧ (∀ (s : State) (i p : Nat), s.deliversTo i p → (s.part p).remote = false → s.routeOk i p →
    (∀ k, k ≤ s.routeN i → s.msixOpen ((s.part p).msixBase + s.routeVec i + k) = true) →
    ∃ t k, exec (.coalesceTimerExpiry i) s = .next t ∧ k ≤ s.routeN i
      ∧ t.hp.sent = s.hp.sent ++ [s.msixMessage ((s.part p).msixBase + s.routeVec i + k)]
      ∧ (t.src i).st = (if s.autoAck i then 0 else 2) ∧ (t.src i).count = 0 ∧ (t.src i).routeErr = false
      ∧ t.counter 0x0A0 p = s.counter 0x0A0 p + 1)
  ∧ (∀ (s : State) (i p : Nat) (words : List (Nat × Word)), s.deliversTo i p → (s.part p).remote = false → s.routeOk i p →
    (∀ l, s.routeFirst i / 16 ≤ l → l ≤ (s.routeFirst i + s.routeN i) / 16 → (s.part p).prioHeld.contains l = true) →
    words = (List.range (s.routeN i + 1)).map
      (fun k => (s.routeFirst i + k, FMap.get (s.part p).prioWords (s.routeFirst i + k) 0)) →
    (∀ k, k ≤ s.routeN i → s.msixOpen ((s.part p).msixBase + s.routeVec i + k) = true) →
    ∃ t, exec (.coalesceTimerExpiry i) s = .next t
      ∧ (∀ c, choosePrio words = some c → t.counter 0x0A2 p = s.counter 0x0A2 p
          ∧ t.hp.sent = s.hp.sent ++ [s.msixMessage ((s.part p).msixBase + s.routeVec i + (c - s.routeFirst i))])
      ∧ (choosePrio words = none → t.counter 0x0A2 p = s.counter 0x0A2 p + 1
          ∧ t.hp.sent = s.hp.sent ++ [s.msixMessage ((s.part p).msixBase + s.routeVec i)]))
  ∧ (∀ (s : State) (i p : Nat), s.deliversTo i p → (s.part p).remote = false → s.routeOk i p →
    (∀ k, k ≤ s.routeN i → s.msixOpen ((s.part p).msixBase + s.routeVec i + k) = false) →
    ∃ t k, exec (.coalesceTimerExpiry i) s = .next t ∧ k ≤ s.routeN i ∧ t.hp.sent = s.hp.sent
      ∧ ((s.part p).msixBase + s.routeVec i + k, i) ∈ t.hp.pba ∧ (t.src i).st = 2)
  ∧ (∀ (s : State) (i p : Nat), s.deliversTo i p → (s.part p).remote = false → ¬ s.routeOk i p →
    ∃ t, exec (.coalesceTimerExpiry i) s = .next t ∧ (t.src i).st = 0 ∧ (t.src i).count = 0
      ∧ (t.src i).routeErr = true ∧ t.counter 0x0A3 0 = s.counter 0x0A3 0 + 1 ∧ t.hp = s.hp ∧ t.io = s.io)
  ∧ (∀ (s : State) (i p : Nat), s.deliversTo i p → (s.part p).remote = true →
    ∃ t x, exec (.coalesceTimerExpiry i) s = .next t ∧ t.io.out = s.io.out ++ [x] ∧ x.use = .event i ∧ x.kind = 2
      ∧ x.part = p ∧ x.qp = some (s.part p).attachQp ∧ x.len = 32
      ∧ x.data = s.eventMessage i p
          (if s.regF (0x74000 + 0x20 * p + 0x0C) 9 0 = i then (s.part p).cause.toNat else 0)
      ∧ (t.src i).st = 2 ∧ (t.src i).count = 0 ∧ (t.src i).carried = (s.src i).count
      ∧ (t.part p).msgSeq = (s.part p).msgSeq + 1 ∧ t.hp = s.hp ∧ t.counter 0x0A0 p = s.counter 0x0A0 p + 1)

/-- R305, R377, R378: a trigger takes one snapshot of every running domain and every counter, ignored while BUSY, and
its end counts; a selection names a counter or sets SEL_ERR.
Choices of the model: log entry 106. -/
def Obligations.TimeAndCounters : Prop :=
  (∀ (s : State) (x : Word), x.getLsbD 0 = true → s.tel.busy = false →
    ∃ t, exec (.trigger x) s = .next t ∧ t.tel.busy = true ∧ t.tel.hp = s.now ∧ t.tel.snap = s.ctr
      ∧ t.tel.seq = s.tel.seq ∧ t.ctr = s.ctr
      ∧ ∀ d, d < 40 → FMap.get t.tel.dom d 0 = if s.domainRuns d then FMap.get s.clk d 0 else 0)
  ∧ (∀ (s : State) (x : Word), s.tel.busy = true → ∃ t, exec (.trigger x) s = .next t ∧ t = s)
  ∧ (∀ (s : State), s.tel.busy = true →
    ∃ t, exec .timePairComplete s = .next t ∧ t.tel.busy = false ∧ t.tel.seq = (s.tel.seq + 1) % 2 ^ 16
      ∧ t.tel.dom = s.tel.dom)
  ∧ (∀ (s : State) (x : Word),
    let id := bitsOf x.toNat 9 0
    let inst := bitsOf x.toNat 23 12
    ∃ t, exec (.cntSel x) s = .next t ∧ t.tel.id = id ∧ t.tel.inst = inst ∧ t.tel.bank = x.toNat.testBit 10
      ∧ t.tel.selErr = !selValid id inst ∧ t.tel.cntHi = none ∧ t.ctr = s.ctr)

/-- R5, R6, R304, R371 to R374: reading the low word of a 64-bit value returns it and latches the high word, which
the next read of the high word returns; a code RC field clears after its read; a write stores the RW bits of its
register and leaves every other register alone, nothing where the register holds RO and RC fields alone, and the mailbox's
input and its length while BUSY not; a reserved offset reads 0, and a write to it does nothing.
Choices of the model: log entry 95. -/
def Obligations.Registers : Prop :=
  (∀ (s : State),
    ∃ t, exec (.lowWordRead 0x110) s = .next t ∧ t.bus.rdata = BitVec.ofNat 32 (wordOf s.ream.sweeps 0)
      ∧ FMap.find t.tel.hi 0x110 = some (BitVec.ofNat 32 (bitsOf s.ream.sweeps 47 32)) ∧ t.ream = s.ream)
  ∧ (∀ (s : State) (w : Word), FMap.find s.tel.hi 0x110 = some w →
    ∃ t, exec (.lowWordRead 0x114) s = .next t ∧ t.bus.rdata = w ∧ FMap.find t.tel.hi 0x110 = none)
  ∧ (∀ (s : State),
    ∃ t, exec (.rcRead 0xA0028) s = .next t
      ∧ t.bus.rdata = BitVec.ofNat 32 (s.pwr.pAvg + 2 ^ 16 * s.pwr.pPeak) ∧ t.pwr = { s.pwr with pPeak := 0 })
  ∧ (∀ (s : State) (x : Word) (p : Nat), p < 16 →
    ∃ t, exec (.registerWrite (0x74000 + 0x20 * p + 0x10) x) s = .next t
      ∧ (t.part p).cause = (s.part p).cause &&& ~~~x ∧ t.regs = s.regs)
  ∧ (∀ (s : State) (x : Word) (n : Nat), n < 4096 →
    ∃ t, exec (.registerWrite (0x20000 + 0x40 * n) x) s = .next t
      ∧ t.regW (0x20000 + 0x40 * n) = (s.regW (0x20000 + 0x40 * n) &&& ~~~(ringMask 0)) ||| (x &&& ringMask 0)
      ∧ ∀ a, a ≠ 0x20000 + 0x40 * n → t.regW a = s.regW a)
  ∧ (∀ (s : State) (a : Nat) (x : Word), s.onlyStores a x →
    ∃ t, exec (.registerWrite a x) s = .next t ∧ t.regW a = (s.regW a &&& ~~~(rwMask a)) ||| (x &&& rwMask a)
      ∧ ∀ b, b ≠ a → t.regW b = s.regW b)
  ∧ (∀ (s : State) (a : Nat) (x : Word), (a = 0xB0008 ∨ 0xB1000 ≤ a ∧ a < 0xB2000) → a % 4 = 0 → s.sec.busy = true →
    ∃ t, exec (.registerWrite a x) s = .next t ∧ t.sec.collide = true ∧ t.regs = s.regs)
  ∧ (∀ (s : State) (x : Word),
    ∃ t, exec (.registerWrite 0xC0900 x) s = .next t
      ∧ t.regW 0xC0900 = BitVec.ofNat 32 (Nat.min 24 (bitsOf x.toNat 4 0)))
  ∧ (∀ (s : State) (a : Nat), lowWord a = true →
    ∃ t, exec (.lowWordRead a) s = .next t ∧ t.bus.rdata = s.regRead a
      ∧ FMap.find t.tel.hi a = some (s.regRead (a + 4)))
  ∧ (∀ (s : State) (a : Nat) (w : Word), lowWord a = true → FMap.find s.tel.hi a = some w →
    ∃ t, exec (.lowWordRead (a + 4)) s = .next t ∧ t.bus.rdata = w ∧ FMap.find t.tel.hi a = none)
  ∧ (∀ (s : State) (a : Nat), lowWord a = true → FMap.find s.tel.hi a = none →
    ∃ t, exec (.lowWordRead (a + 4)) s = .next t ∧ t.bus.rdata = s.regRead (a + 4) ∧ t.tel = s.tel)
  ∧ (∀ (s : State) (a : Nat) (x : Word), a < 0x100000 → a % 4 = 0 → writableReg a = false →
    ∃ t, exec (.registerWrite a x) s = .next t ∧ t = s)
  ∧ (∀ (s : State) (a : Nat) (x : Word), a < 0x100000 → a % 4 = 0 → mappedReg a = false →
    (∃ t, exec (.registerWrite a x) s = .next t ∧ t = s)
      ∧ (∃ t, exec (.lowWordRead a) s = .next t ∧ t = s.answerWord 0)
      ∧ ∃ t, exec (.rcRead a) s = .next t ∧ t = s.answerWord 0)

/-! ### The mailbox (chapter 16) -/

/-- R340, R341, R344, R348 to R351: GET_INFO, GET_CERT and GET_LOG answer at once; QUOTE, FW_STAGE, FW_COMMIT and
PACK_INSTALL set BUSY with the outcome of their checks, FW_ABANDON clears PENDING; the end of a long command gives its
status and, with OK, its effect; a command of the wrong length ends with BAD_LEN.
Choices of the model: log entry 97. -/
def Obligations.Mailbox : Prop :=
  (∀ (s : State), s.sec.busy = false → s.mbxLen = 0 →
    ∃ t, exec .getInfo s = .next t ∧ t.sec.busy = false ∧ t.sec.status = mbOk ∧ t.sec.out.length = 64
      ∧ t.sec.out.take 16 = natLe 16 s.fuse.serial ∧ (t.sec.out.drop 16).take 8 = fit 8 s.fuse.order)
  ∧ (∀ (s : State), s.sec.busy = false → s.mbxLen = 1 → fld (s.mbxIn 1) 0 1 ≤ 4 →
    ∃ t, exec .getCert s = .next t ∧ t.sec.status = mbOk
      ∧ t.sec.out = (s.certificate (fld (s.mbxIn 1) 0 1)).take 4096)
  ∧ (∀ (s : State), s.sec.busy = false → s.mbxLen = 4 → fld (s.mbxIn 4) 0 4 < 4096 →
    ∃ t, exec .getLog s = .next t ∧ t.sec.status = mbOk
      ∧ t.sec.out = ((s.sec.log.drop (fld (s.mbxIn 4) 0 4)).take 85).flatten)
  ∧ (∀ (s : State), s.sec.busy = false → s.mbxLen = 64 →
    ∃ t, exec .quote s = .next t ∧ t.sec.busy = true
      ∧ t.sec.result = some (mbOk, s.quoteBody (s.mbxIn 64)
          ++ sm2Sign s.sec.deviceKey (s.freeVals 4).1 (s.quoteBody (s.mbxIn 64))))
  ∧ (∀ (s : State) (b : Rd), s.sec.busy = false → s.mbxLen = 12 → s.imgLen ≤ 2 ^ 25 → s.imgLost b = false →
    ∃ t, exec (.fwStage b) s = .next t ∧ t.sec.busy = true ∧ t.sec.result = some (s.stageWhy b.data, [])
      ∧ t.sec.img = b.data)
  ∧ (∀ (s : State), s.sec.busy = false → s.mbxLen = 0 → s.updateEn = true → s.fuse.svn < s.fwSvn →
    ∃ t, exec .fwCommit s = .next t ∧ t.sec.busy = true ∧ t.sec.code = 0x11 ∧ t.sec.result = some (mbOk, [])
      ∧ t.fuse = s.fuse)
  ∧ (∀ (s : State), s.sec.busy = false → s.mbxLen = 0 →
    ∃ t, exec .fwAbandon s = .next t ∧ t.sec.isPending = false ∧ t.sec.status = mbOk)
  ∧ (∀ (s : State) (b : Rd), s.sec.busy = false → s.mbxLen = 12 → s.imgLen ≤ 2 ^ 23 → s.imgLost b = false →
    ∃ t, exec (.packInstall b) s = .next t ∧ t.sec.busy = true ∧ t.sec.result = some (s.packWhy b.data, [])
      ∧ t.sec.img = b.data)
  ∧ (∀ (s : State) (out : Bytes), s.sec.result = some (mbOk, out) → s.sec.code = 0x11 →
    ∃ t, exec .mailboxCommandDone s = .next t ∧ t.sec.busy = false ∧ t.sec.status = mbOk ∧ t.sec.out = out)
  ∧ (∀ (s : State) (out : Bytes), s.sec.result = some (mbOk, out) → s.sec.code = 0x10 → s.sec.bootSlot = 0 →
    ∃ t, exec .mailboxCommandDone s = .next t ∧ t.sec.busy = false ∧ t.sec.slotB = s.sec.img
      ∧ t.sec.isPending = true ∧ t.sec.slotA = s.sec.slotA)
  ∧ (∀ (s : State) (n : Nat) (out : Bytes), s.sec.result = some (n, out) → n ≠ mbOk →
    ∃ t, exec .mailboxCommandDone s = .next t ∧ t.sec.busy = false ∧ t.sec.status = n ∧ t.sec.out = out
      ∧ t.fuse = s.fuse ∧ t.rel = s.rel)
  ∧ (∀ (s : State), s.sec.busy = false → s.mbxLen ≠ 0 →
    ∃ t, exec .getInfo s = .next t ∧ t.sec.status = mbBadLen ∧ t.sec.out = [])

/-! ### The DBG block (chapter 18) -/

/-- R379: ENTER puts a tile in STARTUP into TEST without a resident ream and measures it; RUN starts the program of a
tile in TEST, HALT stops its issue, LEAVE returns the tile to STARTUP; keys are set in TEST only; a peek begins with
its target, and its end reads, writes or zeroes. What Table 18.10 does not accept is refused and does nothing.
Choices of the model: log entries 31, 76 and 77. -/
def Obligations.TestMode : Prop :=
  (∀ (s : State), s.enabled s.dbgTile = true → (s.tile s.dbgTile).st = 0 → s.ream.resident = false →
    s.ream.job = none →
    ∃ t, exec .dbgEnter s = .next t ∧ (t.tile s.dbgTile).st = 4 ∧ t.dbg.refused = false ∧ t.sec.testSeen = true)
  ∧ (∀ (s : State), s.enabled s.dbgTile = false ∨ (s.tile s.dbgTile).st ≠ 0 ∨ s.ream.resident = true
      ∨ s.ream.job ≠ none →
    ∃ t, exec .dbgEnter s = .next t ∧ t = { s with dbg := { s.dbg with refused := true } })
  ∧ (∀ (s : State), s.inTest s.dbgTile = true → s.testRuns s.dbgTile = false →
    (programWhyBy testWordBad s.fuse.tileMask (s.testProgram s.dbgTile)).contains rBadFormat = false →
    ∃ t, exec .dbgRun s = .next t ∧ t.dbg.refused = false ∧ (t.tile s.dbgTile).test = some (s.testProgram s.dbgTile)
      ∧ t.ctx? s.dbgTile 0 = some { post := none, pc := pEntry (s.testProgram s.dbgTile) })
  ∧ (∀ (s : State), s.inTest s.dbgTile = false ∨ s.testRuns s.dbgTile = true
      ∨ (programWhyBy testWordBad s.fuse.tileMask (s.testProgram s.dbgTile)).contains rBadFormat = true →
    ∃ t, exec .dbgRun s = .next t ∧ t = { s with dbg := { s.dbg with refused := true } })
  ∧ (∀ (s : State), s.testRuns s.dbgTile = false →
    ∃ t, exec .dbgHalt s = .next t ∧ t = { s with dbg := { s.dbg with refused := true } })
  ∧ (∀ (s : State), s.inTest s.dbgTile = false →
    ∃ t, exec .dbgLeave s = .next t ∧ t = { s with dbg := { s.dbg with refused := true } })
  ∧ (∀ (s : State) (c : Ctx), s.testRuns s.dbgTile = true → s.ctx? s.dbgTile 0 = some c →
    ∃ t c', exec .dbgHalt s = .next t ∧ t.dbg.refused = false ∧ t.ctx? s.dbgTile 0 = some c' ∧ c'.halted = true
      ∧ c'.running = false)
  ∧ (∀ (s : State), s.inTest s.dbgTile = true →
    ∃ t, exec .dbgLeave s = .next t ∧ (t.tile s.dbgTile).st = 0 ∧ (t.tile s.dbgTile).ctxs = []
      ∧ (t.tile s.dbgTile).streamKey = (s.tile s.dbgTile).streamKey ∧ t.dbg.refused = false)
  ∧ (∀ (s : State) (x : Word), s.inTest s.keyIndex = true →
    ∃ t, exec (.dbgStreamKeySet x) s = .next t ∧ (t.tile s.keyIndex).streamKey = s.dbg.keyHi ++ x
      ∧ t.dbg.refused = false)
  ∧ (∀ (s : State) (x : Word), s.inTest s.keyIndex = false →
    ∃ t, exec (.dbgStreamKeySet x) s = .next t ∧ t = { s with dbg := { s.dbg with refused := true } })
  ∧ (∀ (s : State) (x : Word), (∀ i, i < 8 → s.inTest (8 * s.keyGroup + i) = true) →
    ∃ t, exec (.dbgInterleaveKeySet x) s = .next t ∧ FMap.find t.tiers.intKey s.keyGroup = some x
      ∧ t.dbg.refused = false)
  ∧ (∀ (s : State) (x : Word) (i : Nat), i < 8 → s.inTest (8 * s.keyGroup + i) = false →
    ∃ t, exec (.dbgInterleaveKeySet x) s = .next t ∧ t = { s with dbg := { s.dbg with refused := true } })
  ∧ (∀ (s : State), s.readOk = true → s.dbg.busy = none →
    ∃ t, exec .dbgPeekRead s = .next t ∧ t.dbg.busy = some (s.peekSpace, s.peekTile, s.peekAddr)
      ∧ t.dbg.peekRefused = false)
  ∧ (∀ (s : State), s.writeOk = true → s.dbg.busy = none →
    ∃ t, exec .dbgPeekWrite s = .next t ∧ t.dbg.busy = some (s.peekSpace + 4, s.peekTile, s.peekAddr)
      ∧ t.dbg.peekRefused = false)
  ∧ (∀ (s : State), s.readOk = false ∨ s.dbg.busy ≠ none →
    ∃ t, exec .dbgPeekRead s = .next t ∧ t = { s with dbg := { s.dbg with peekRefused := true } })
  ∧ (∀ (s : State), s.writeOk = false ∨ s.dbg.busy ≠ none →
    ∃ t, exec .dbgPeekWrite s = .next t ∧ t = { s with dbg := { s.dbg with peekRefused := true } })
  ∧ (∀ (s : State) (n k : Nat), s.dbg.busy = some (0, n, k) → s.peekSealed 0 n k = false →
    ∃ t, exec .peekCopyDone s = .next t ∧ t.dbg.busy = none ∧ t.dbg.data = s.spRead n k 256
      ∧ t.dbg.poisoned = s.spBad n k ∧ t.dbg.zeroed = false ∧ t.mem = s.mem)
  ∧ (∀ (s : State) (c n k : Nat), c < 3 → s.dbg.busy = some (c, n, k) → s.peekSealed c n k = true →
    (c = 1 → s.hotTile n = false) → s.peekLines c k = [] →
    ∃ t, exec .peekCopyDone s = .next t ∧ t.dbg.busy = none ∧ t.dbg.data = zeros 256 ∧ t.dbg.zeroed = true
      ∧ t.counter 0x056 0 = s.counter 0x056 0 + 1)
  ∧ (∀ (s : State) (n k : Nat), s.dbg.busy = some (4, n, k) →
    ∃ t, exec .peekCopyDone s = .next t ∧ t.dbg.busy = none
      ∧ t.mem = s.mem.writeSheets (spAddr n (256 * k)) (fit 256 s.dbg.data) [])

/-! ### Management (chapter 17) -/

/-- R9, R368, R369: in every power state but OFF the endpoint answers. IDs are kept as set; the identity, version and
repository requests answer their values, the versions those of Table 0.6 (R9); the model's own codes for them are log
entry 78.
Choices of the model: log entry 78. -/
def Obligations.MctpAndDiscovery : Prop :=
  (∀ (s : State) (n : Nat), s.pwr.st ≠ 0 →
    ∃ t, exec (.setEndpointId n) s = .next t ∧ t.mgmt = { s.mgmt with eid := n % 256 } ∧ t.bus.resp = natLe 1 0)
  ∧ (∀ (s : State), s.pwr.st ≠ 0 →
    ∃ t, exec .getEndpointId s = .next t ∧ t.bus.resp = natLe 1 0 ++ natLe 1 s.mgmt.eid ∧ t.mgmt = s.mgmt)
  ∧ (∀ (s : State), s.pwr.st ≠ 0 →
    ∃ t, exec .getEndpointUuid s = .next t ∧ t.bus.resp = natLe 1 0 ++ fit 16 (Config.uuid s.fuse.serial))
  ∧ (∀ (s : State), s.pwr.st ≠ 0 →
    ∃ t, exec .getMctpVersionSupport s = .next t ∧ t.bus.resp = natLe 1 0 ++ natLe 4 (dmtfVersion 3)
      ∧ t.mgmt = s.mgmt)
  ∧ (∀ (s : State), s.pwr.st ≠ 0 →
    ∃ t, exec .getMessageTypeSupport s = .next t ∧ t.bus.resp = natLe 1 0 ++ (natLe 1 2 ++ natLe 1 0 ++ natLe 1 1))
  ∧ (∀ (s : State) (n : Nat), s.pwr.st ≠ 0 →
    ∃ t, exec (.setTid n) s = .next t ∧ t.mgmt = { s.mgmt with tid := n % 256 })
  ∧ (∀ (s : State), s.pwr.st ≠ 0 →
    ∃ t, exec .getTid s = .next t ∧ t.bus.resp = natLe 1 0 ++ natLe 1 s.mgmt.tid)
  ∧ (∀ (s : State) (n v : Nat), s.pwr.st ≠ 0 → pldmVersion n = some v →
    ∃ t, exec (.getPldmVersion n) s = .next t ∧ t.bus.resp = natLe 1 0 ++ natLe 4 v)
  ∧ (∀ (s : State), s.pwr.st ≠ 0 → ∃ t, exec .getPldmTypes s = .next t ∧ t.bus.resp = natLe 1 0 ++ natLe 8 5)
  ∧ (∀ (s : State) (n : Nat), s.pwr.st ≠ 0 → pldmTypes.contains n = true →
    ∃ t, exec (.getPldmCommands n) s = .next t
      ∧ t.bus.resp = natLe 1 0 ++ natLe 32 ((pldmCommands n).foldl (fun n c => n + 2 ^ c) 0))
  ∧ (∀ (s : State), s.pwr.st ≠ 0 →
    ∃ t, exec .getPdrRepositoryInfo s = .next t ∧ t.bus.resp = natLe 1 0 ++ natLe 4 pdrs.length)
  ∧ (∀ (s : State) (h : Nat) (x : Nat × Nat), s.pwr.st ≠ 0 → h ≠ 0 → pdrs[h - 1]? = some x →
    ∃ t, exec (.getPdr h) s = .next t ∧ t.bus.resp = natLe 1 0 ++ (natLe 1 x.1 ++ natLe 2 x.2))

/-- R359, R369: a sensor request answers the sensor's value; an effecter sets PWR_CAP, clamped, and fails with ERROR
while the block is locked; the event receiver is set, and a poll takes the oldest event.
Choices of the model: log entry 78. -/
def Obligations.SensorsAndEffecters : Prop :=
  (∀ (s : State) (n v : Nat), s.pwr.st ≠ 0 → s.numSensor n = some v →
    ∃ t, exec (.getSensorReading n) s = .next t ∧ t.bus.resp = natLe 1 0 ++ natLe 4 v)
  ∧ (∀ (s : State) (n v : Nat), s.pwr.st ≠ 0 → s.stateSensor n = some v →
    ∃ t, exec (.getStateSensorReadings n) s = .next t ∧ t.bus.resp = natLe 1 0 ++ natLe 4 v)
  ∧ (∀ (s : State) (v : Nat), s.pwr.st ≠ 0 → s.pwrLocked = false →
    ∃ t, exec (.setNumericEffecterValue 1 v) s = .next t ∧ t.bus.resp = natLe 1 0
      ∧ t.regW 0xA0008 = BitVec.ofNat 32 (clamp 1200 2400 (bitsOf (BitVec.ofNat 32 v).toNat 11 0)))
  ∧ (∀ (s : State) (n v : Nat), s.pwr.st ≠ 0 → s.pwrLocked = true →
    ∃ t, exec (.setNumericEffecterValue n v) s = .next t ∧ t.bus.resp = natLe 1 1 ∧ t.regs = s.regs)
  ∧ (∀ (s : State), s.pwr.st ≠ 0 →
    ∃ t, exec (.getNumericEffecterValue 1) s = .next t ∧ t.bus.resp = natLe 1 0 ++ natLe 4 s.pwrCap)
  ∧ (∀ (s : State) (e : Nat), s.pwr.st ≠ 0 →
    ∃ t, exec (.setEventReceiver e) s = .next t ∧ t.mgmt = { s.mgmt with receiver := some e })
  ∧ (∀ (s : State) (x : Nat × Nat) (es : List (Nat × Nat)), s.pwr.st ≠ 0 → s.mgmt.events = x :: es →
    ∃ t, exec .pollForPlatformEventMessage s = .next t ∧ t.mgmt.events = es
      ∧ t.bus.resp = natLe 1 0 ++ (natLe 2 x.1 ++ natLe 4 x.2))
  ∧ (∀ (s : State), s.pwr.st = 0 → ∃ t, exec .pollForPlatformEventMessage s = .next t ∧ t = s)

/-! ### The machine as a whole -/

/-- A step runs the command at the front of the queue on the state with the queue's rest; on an empty queue the clocks
tick, and no byte of memory changes (the model's choice, assumption 2); the table gives no row bits, so no word spells
a command.
Choices of the model: log entry 2. -/
def Obligations.StepRunsFront : Prop :=
  (∀ (c : Instr) (cs : List Instr) (s : State), s.pending = c :: cs → step s = exec c { s with pending := cs })
  ∧ (∀ (s : State), s.pending = [] →
    ∃ t, step s = .next t ∧ t.now = s.now + 1 ∧ Same (fun f => !(tickWrites.contains f)) s t
      ∧ ∀ a, t.mem.read a = s.mem.read a)
  ∧ (∀ (n w : Nat) (s : State), Sys2Proof.decodeTableWord n w = none ∧ s.withFetchWord n w = s)

/-- Reset: the registers hold the values the tables of the spec give, no command waits, no partition is attached, no
ring enabled, no key loaded, no ream resident, every source idle, every tile in STARTUP, every message gone, and the
memory in canonical form.
Choices of the model: log entries 5, 6 and 110. -/
def Obligations.ResetState : Prop :=
  State.reset.memSound ∧ State.reset.queueWf ∧ State.reset.pending = []
  ∧ (∀ x ∈ ([(0x808, 1276), (0x20020, 0x03FF0000), (0x64004, 0), (0x70000, 0x1F), (0x71E00, 0x10),
      (0x70008, 0x00010001), (0x80004, 0), (0x80040, 0x00323240), (0x80044, 0x01900037), (0x80048, 0x00010064),
      (0x81040, 0x2000), (0x81068, 0x770E), (0x90010, 0x1001), (0x90020, 0x3C0A), (0xA0000, 3), (0xA0004, 0),
      (0xA0008, 2400), (0xA000C, 30), (0xA0080, 25 * 2 ^ 24), (0xB0010, 2), (0xC0030, 4), (0xC0900, 24),
      (0xD0000, 0x800), (0xF0000, 0)] : List (Nat × Nat)),
    State.reset.regRead x.1 = BitVec.ofNat 32 x.2)
  ∧ (∀ p, (State.reset.part p).st = 0 ∧ (State.reset.part p).cause = 0)
  ∧ (∀ n, (State.reset.ring n).st = 0 ∧ (State.reset.ring n).epoch = 0)
  ∧ (∀ n, (State.reset.slot n).loaded = false) ∧ (∀ n, (State.reset.qp n).st = 0)
  ∧ (∀ i, (State.reset.src i).st = 0) ∧ (∀ n, (State.reset.tile n).st = 0)
  ∧ State.reset.ream.resident = false ∧ State.reset.posts = [] ∧ State.reset.felt = [] ∧ State.reset.ctr = []

/-- What every step keeps, from every state: the block always answers a next state; the memory keeps its canonical
form, the waiting commands their well-formedness, and the fuses of R3 their values. -/
def Obligations.StepInvariant : Prop :=
  (∀ (s : State), s.runs)
  ∧ (∀ (s t : State), s.memSound → s.queueWf → step s = .next t →
    t.memSound ∧ t.queueWf ∧ t.pending = s.pending.tail ∧ t.fuse.fixed = s.fuse.fixed)

/-- What a command leaves alone. No command writes a part of the state that `Instr.writes` does not list for it. A
vector instruction leaves every byte alone but those it stores to, view O of its frame and, for QUANT to an MX format,
scales and tag lines; where it runs it leaves every other tile, every other context of its tile, and its tile's banks,
fills and transfers alone. -/
def Obligations.CommandFrames : Prop :=
  (∀ (c : Instr) (s t : State), exec c s = .next t → Same (fun f => !(c.writes.contains f)) s t)
  ∧ (∀ (i : Instr) (s t : State) (n c op a : Nat), i.vec = some (n, c, op) → s.memSound → exec i s = .next t →
    ¬ s.vecStores n c a → (∀ j ∈ (s.tile n).vec, ¬ j.stores n a) → t.mem.read a = s.mem.read a)
  ∧ (∀ (s t : State) (n a : Nat), s.memSound → exec (.vectorInstructionDone n) s = .next t →
    (∀ j ∈ (s.tile n).vec, ¬ j.stores n a) → t.mem.read a = s.mem.read a)
  ∧ (∀ (i : Instr) (s u t : State) (n c op : Nat) (w : Bytes) (v : Ctx), i.vec = some (n, c, op) →
    s.issuing n c op w v u → u.vecReady n w (v.frame (vDk w)) → exec i s = .next t →
    (∀ m, m ≠ n → t.tile m = u.tile m) ∧ (∀ k, k ≠ c → t.ctx? n k = u.ctx? n k)
      ∧ t.tile n = { u.tile n with ctxs := (t.tile n).ctxs, vec := (t.tile n).vec })

/-- R7: a block's LOCK bit is set by writing 1 to it and is not cleared by writing 0; only a cold reset clears it (with
the loss of power that ends in one); the device reset that preserves state and a partition reset leave every LOCK bit
and every RWL field unchanged. -/
def Obligations.Locks : Prop :=
  (∀ (s : State) (a : Nat) (v : Word), a ∈ lockRegs → v.getLsbD 0 = true →
    (∃ t, exec (.registerWrite a v) s = .next t ∧ t.locked a = true)
      ∧ ∃ t, exec (.lock a v) s = .next t ∧ t.locked a = true)
  ∧ (∀ (s : State) (a : Nat) (v : Word), a ∈ lockRegs → v.getLsbD 0 = false →
    (∃ t, exec (.registerWrite a v) s = .next t ∧ t.locked a = s.locked a)
      ∧ ∃ t, exec (.lock a v) s = .next t ∧ t.locked a = s.locked a)
  ∧ (∀ (s : State) (a : Nat), a ∈ lockRegs → s.powered = true →
    ∃ t, exec (.coldReset 0xC01DB007#32) s = .next t ∧ t.locked a = false)
  ∧ (∀ (c : Instr) (s t : State) (a : Nat), a ∈ lockRegs → s.locked a = true → exec c s = .next t →
    t.locked a = true ∨ t.rel.boots ≠ s.rel.boots)
  ∧ (∀ (c : Instr) (s t : State) (a : Nat), a ∈ lockRegs → s.locked a = true → c.mayColdReset = false →
    exec c s = .next t → t.locked a = true)
  ∧ (∀ (s : State) (x : Word),
    (∃ t, exec (.devReset x) s = .next t ∧ t.regs = s.regs) ∧ ∃ t, exec (.partReset x) s = .next t ∧ t.regs = s.regs)

/-- R350: FUSED_SVN counts blown positions of a field of 63, so it never falls; FW_COMMIT raises it to FW_SVN, and
completes with OK at once where it is there already; a bundle whose SVN is below it is never staged and never boots;
where a reset breaks FW_COMMIT off it stands between its old value and FW_SVN, and the booted bundle still boots.
Choices of the model: log entries 70 and 98. -/
def Obligations.RollbackFloor : Prop :=
  (∀ (c : Instr) (s t : State), exec c s = .next t →
    s.fuse.svn ≤ t.fuse.svn ∧ (s.fuse.svn < 64 → t.fuse.svn < 64))
  ∧ (∀ (s : State), s.sec.busy = false → s.mbxLen = 0 → s.updateEn = true → s.fwSvn = s.fuse.svn →
    ∃ t, exec .fwCommit s = .next t ∧ t.sec.busy = false ∧ t.sec.status = mbOk ∧ t.fuse = s.fuse)
  ∧ (∀ (s : State), s.sec.busy = false → s.mbxLen = 0 → s.updateEn = true → s.fuse.svn < s.fwSvn →
    ∃ t, exec .fwCommit s = .next t ∧ t.sec.busy = true ∧ t.sec.code = 0x11 ∧ t.sec.result = some (mbOk, [])
      ∧ t.fuse = s.fuse)
  ∧ (∀ (s : State) (out : Bytes), s.sec.result = some (mbOk, out) → s.sec.code = 0x11 → s.fuse.svn ≤ s.fwSvn →
    ∃ t, exec .mailboxCommandDone s = .next t ∧ t.sec.status = mbOk ∧ t.fuse.svn = s.fwSvn)
  ∧ (∀ (s : State) (b : Rd), s.sec.busy = false → s.mbxLen = 12 → s.imgLen ≤ 2 ^ 25 → bundleSvn b.data < s.fuse.svn →
    ∃ t st, exec (.fwStage b) s = .next t ∧ t.sec.result = some (st, []) ∧ st ≠ mbOk)
  ∧ (∀ (s : State) (st : Nat) (out : Bytes), s.sec.result = some (st, out) → st ≠ mbOk →
    ∃ t, exec .mailboxCommandDone s = .next t ∧ t.sec.status = st ∧ t.fuse = s.fuse ∧ t.sec.slotA = s.sec.slotA
      ∧ t.sec.slotB = s.sec.slotB ∧ t.sec.isPending = s.sec.isPending)
  ∧ (∀ (s : State), s.powered = true →
    ∃ t, exec (.coldReset 0xC01DB007#32) s = .next t
      ∧ (t.pwr.st = 6 ∨ t.fuse.svn ≤ bundleSvn (t.bundle t.sec.bootSlot)))
  ∧ (∀ (s : State), s.powered = true → s.sec.code = 0x11 → s.sec.isPending = false → s.fuse.svn ≤ s.fwSvn →
    s.slotBoots s.sec.bootSlot = true →
    ∃ t, exec (.coldReset 0xC01DB007#32) s = .next t ∧ s.fuse.svn ≤ t.fuse.svn ∧ t.fuse.svn ≤ s.fwSvn
      ∧ t.pwr.st = 2 ∧ t.sec.bootSlot = s.sec.bootSlot)

/-- R304: a 64-bit counter is read as two words, low word first: the read of the low word latches the high word, the
next read of the high word returns what was latched, and one with no low-word read before it returns the live high
word; a counter of code RC clears when the word that holds its low bits is read. -/
def Obligations.CounterReads : Prop :=
  (∀ (s : State), counterClears s.tel.id = false ∨ s.tel.selErr = true ∨ s.tel.bank = true →
    ∃ t, exec .cntLo s = .next t ∧ t.bus.rdata = s.selected.setWidth 32
      ∧ t.tel.cntHi = some ((s.selected >>> 32).setWidth 32) ∧ t.ctr = s.ctr)
  ∧ (∀ (s : State), s.tel.selErr = false → counterClears s.tel.id = true → s.tel.bank = false →
    ∃ t, exec .cntLo s = .next t ∧ t.bus.rdata = s.selected.setWidth 32
      ∧ t.tel.cntHi = some ((s.selected >>> 32).setWidth 32) ∧ t.counter s.tel.id s.tel.inst = 0)
  ∧ (∀ (s : State), exec (.lowWordRead 0xD0008) s = exec .cntLo s ∧ exec (.rcRead 0xD0008) s = exec .cntLo s)
  ∧ (∀ (s : State) (w : Word), s.tel.cntHi = some w →
    ∃ t, exec (.lowWordRead 0xD000C) s = .next t ∧ t.bus.rdata = w ∧ t.tel.cntHi = none ∧ t.ctr = s.ctr)
  ∧ (∀ (s : State), s.tel.cntHi = none →
    ∃ t, exec (.lowWordRead 0xD000C) s = .next t ∧ t.bus.rdata = BitVec.ofNat 32 (s.selected.toNat / 2 ^ 32 % 2 ^ 32)
      ∧ t.ctr = s.ctr)
end

