-- ==== Sys2Proof/Laws/Map.lean ====
section
/-! SUPPORT. Laws of finite maps and of the byte memory: reading back a write, what a write leaves alone,
and that every memory operation keeps the canonical form. -/

namespace Sys2Proof.Machine

/-! ### Finite maps -/

@[simp] theorem FMap.find_set_self {α : Type} (m : FMap α) (k : Nat) (v : α) :
    FMap.find (FMap.set m k v) k = some v := by
  induction m with
  | nil => simp [FMap.set, FMap.find]
  | cons e m ih =>
    obtain ⟨k', w⟩ := e
    unfold FMap.set
    split
    · simp [FMap.find]
    · split
      · simp [FMap.find]
      · simp [FMap.find, *]

theorem FMap.find_set_ne {α : Type} (m : FMap α) {j k : Nat} (v : α) (h : j ≠ k) :
    FMap.find (FMap.set m k v) j = FMap.find m j := by
  induction m with
  | nil => simp [FMap.set, FMap.find, h]
  | cons e m ih =>
    obtain ⟨k', w⟩ := e
    unfold FMap.set
    split
    · rename_i hk
      subst hk
      simp [FMap.find, h]
    · split
      · simp [FMap.find, h]
      · simp [FMap.find, ih]

@[simp] theorem FMap.get_set_self {α : Type} (m : FMap α) (k : Nat) (v d : α) :
    FMap.get (FMap.set m k v) k d = v := by simp [FMap.get]

theorem FMap.get_set_ne {α : Type} (m : FMap α) {j k : Nat} (v d : α) (h : j ≠ k) :
    FMap.get (FMap.set m k v) j d = FMap.get m j d := by simp [FMap.get, FMap.find_set_ne m v h]

theorem FMap.find_mapV {α : Type} (f : Nat → α → α) (m : FMap α) (k : Nat) :
    FMap.find (FMap.mapV m f) k = (FMap.find m k).map (f k) := by
  induction m with
  | nil => rfl
  | cons e m ih =>
    obtain ⟨j, v⟩ := e
    simp only [FMap.mapV, List.map_cons, FMap.find] at ih ⊢
    split
    · rename_i h; subst h; rfl
    · exact ih

@[simp] theorem FMap.find_del_self {α : Type} (m : FMap α) (k : Nat) :
    FMap.find (FMap.del m k) k = none := by
  induction m with
  | nil => rfl
  | cons e m ih =>
    obtain ⟨k', w⟩ := e
    unfold FMap.del at *
    by_cases hk : k' = k
    · simp [hk, ih]
    · simp [hk, FMap.find, ih, Ne.symm hk]

theorem FMap.find_del_ne {α : Type} (m : FMap α) {j k : Nat} (h : j ≠ k) :
    FMap.find (FMap.del m k) j = FMap.find m j := by
  induction m with
  | nil => rfl
  | cons e m ih =>
    obtain ⟨k', w⟩ := e
    unfold FMap.del at *
    by_cases hk : k' = k
    · subst hk
      simp [ih, FMap.find, h]
    · simp only [List.filter_cons, bne_iff_ne, ne_eq, hk, not_false_eq_true, if_true, FMap.find, ih]

/-! ### Cells -/

theorem cellsFrom_mono {lo lo' : Nat} (h : lo' ≤ lo) : ∀ {m : List Host.Cell},
    cellsFrom lo m = true → cellsFrom lo' m = true
  | [], _ => rfl
  | (a, b) :: m, hm => by
    simp only [cellsFrom, Bool.and_eq_true, decide_eq_true_eq] at *
    exact ⟨⟨by omega, hm.1.2⟩, hm.2⟩

/-- An address below every cell reads as an unlisted one. -/
theorem cellRead_below {lo a : Nat} (h : a < lo) : ∀ {m : List Host.Cell},
    cellsFrom lo m = true → cellRead m a = memDefault
  | [], _ => rfl
  | (k, b) :: m, hm => by
    simp only [cellsFrom, Bool.and_eq_true, decide_eq_true_eq] at hm
    have : a ≠ k := by omega
    simp only [cellRead, if_neg this]
    exact cellRead_below (by omega) hm.2

/-- A write keeps the canonical form. -/
theorem cellsFrom_cellWrite {lo a : Nat} (v : Byte) (h : lo ≤ a) : ∀ {m : List Host.Cell},
    cellsFrom lo m = true → cellsFrom lo (cellWrite m a v) = true
  | [], _ => by
    unfold cellWrite
    split
    · rfl
    · simp [cellsFrom, *]
  | (k, b) :: m, hm => by
    have hm' := hm
    simp only [cellsFrom, Bool.and_eq_true, decide_eq_true_eq] at hm
    obtain ⟨⟨h1, h2⟩, h3⟩ := hm
    unfold cellWrite
    split
    · split
      · exact hm'
      · rename_i hv
        simp only [cellsFrom, Bool.and_eq_true, decide_eq_true_eq, bne_iff_ne, ne_eq]
        exact ⟨⟨h, hv⟩, ⟨by omega, by simpa using h2⟩, h3⟩
    · split
      · rename_i hak
        subst hak
        split
        · exact cellsFrom_mono (by omega) h3
        · rename_i hv
          simp only [cellsFrom, Bool.and_eq_true, decide_eq_true_eq, bne_iff_ne, ne_eq]
          exact ⟨⟨h, hv⟩, h3⟩
      · simp only [cellsFrom, Bool.and_eq_true, decide_eq_true_eq]
        exact ⟨⟨h1, h2⟩, cellsFrom_cellWrite v (by omega) h3⟩

/-- A byte just written reads back. -/
theorem cellRead_cellWrite_self {lo a : Nat} (v : Byte) : ∀ {m : List Host.Cell},
    cellsFrom lo m = true → cellRead (cellWrite m a v) a = v
  | [], _ => by
    unfold cellWrite
    split <;> simp [cellRead, *]
  | (k, b) :: m, hm => by
    simp only [cellsFrom, Bool.and_eq_true, decide_eq_true_eq] at hm
    unfold cellWrite
    split
    · split
      · rename_i ha hv
        rw [hv, cellRead, if_neg (by omega)]
        exact cellRead_below (by omega) hm.2
      · simp [cellRead]
    · split
      · rename_i hak
        subst hak
        split
        · rename_i hv
          rw [hv]
          exact cellRead_below (by omega) hm.2
        · simp [cellRead]
      · rename_i h1 h2
        rw [cellRead, if_neg (by omega)]
        exact cellRead_cellWrite_self v hm.2

/-- A write leaves every other byte as it was. -/
theorem cellRead_cellWrite_ne {lo a j : Nat} (v : Byte) (h : j ≠ a) : ∀ {m : List Host.Cell},
    cellsFrom lo m = true → cellRead (cellWrite m a v) j = cellRead m j
  | [], _ => by
    unfold cellWrite
    split <;> simp [cellRead, h]
  | (k, b) :: m, hm => by
    simp only [cellsFrom, Bool.and_eq_true, decide_eq_true_eq] at hm
    unfold cellWrite
    split
    · split
      · rfl
      · simp [cellRead, h]
    · split
      · rename_i hak
        subst hak
        split
        · by_cases hj : j < a + 1
          · rw [cellRead_below hj hm.2, cellRead, if_neg h, cellRead_below hj hm.2]
          · simp [cellRead, h]
        · simp [cellRead, h]
      · simp only [cellRead]
        split
        · rfl
        · exact cellRead_cellWrite_ne v h hm.2

theorem cellsFrom_filter (p : Host.Cell → Bool) : ∀ {lo : Nat} {m : List Host.Cell},
    cellsFrom lo m = true → cellsFrom lo (m.filter p) = true
  | _, [], _ => rfl
  | lo, (a, b) :: m, hm => by
    simp only [cellsFrom, Bool.and_eq_true, decide_eq_true_eq] at hm
    by_cases hp : p (a, b) = true
    · simp only [List.filter_cons, hp, if_true, cellsFrom, Bool.and_eq_true, decide_eq_true_eq]
      exact ⟨hm.1, cellsFrom_filter p hm.2⟩
    · simp only [List.filter_cons, hp]
      exact cellsFrom_mono (by omega) (cellsFrom_filter p hm.2)

/-! ### Poison marks -/

theorem risingFrom_mono {lo lo' : Nat} (h : lo' ≤ lo) : ∀ {m : List Nat},
    risingFrom lo m = true → risingFrom lo' m = true
  | [], _ => rfl
  | a :: m, hm => by
    simp only [risingFrom, Bool.and_eq_true, decide_eq_true_eq] at *
    exact ⟨by omega, hm.2⟩

theorem risingFrom_ins {lo a : Nat} (h : lo ≤ a) : ∀ {m : List Nat},
    risingFrom lo m = true → risingFrom lo (insRising m a) = true
  | [], _ => by simp [insRising, risingFrom, h]
  | b :: m, hm => by
    have hm' := hm
    simp only [risingFrom, Bool.and_eq_true, decide_eq_true_eq] at hm
    unfold insRising
    split
    · simp only [risingFrom, Bool.and_eq_true, decide_eq_true_eq]
      exact ⟨h, by omega, hm.2⟩
    · split
      · exact hm'
      · simp only [risingFrom, Bool.and_eq_true, decide_eq_true_eq]
        exact ⟨hm.1, risingFrom_ins (by omega) hm.2⟩

theorem risingFrom_filter (p : Nat → Bool) : ∀ {lo : Nat} {m : List Nat},
    risingFrom lo m = true → risingFrom lo (m.filter p) = true
  | _, [], _ => rfl
  | lo, a :: m, hm => by
    simp only [risingFrom, Bool.and_eq_true, decide_eq_true_eq] at hm
    by_cases hp : p a = true
    · simp only [List.filter_cons, hp, if_true, risingFrom, Bool.and_eq_true, decide_eq_true_eq]
      exact ⟨hm.1, risingFrom_filter p hm.2⟩
    · simp only [List.filter_cons, hp]
      exact risingFrom_mono (by omega) (risingFrom_filter p hm.2)

/-! ### Memory operations keep the canonical form -/

theorem Memory.wf_iff (m : Memory) :
    m.wf = true ↔ cellsFrom 0 m.cells = true ∧ risingFrom 0 m.poison = true := by simp [Memory.wf]

theorem Memory.wf_empty : Memory.wf {} = true := rfl

theorem Memory.wf_foldl {α : Type} (f : Memory → α → Memory) (l : List α)
    (hf : ∀ m a, m.wf = true → (f m a).wf = true) (m : Memory) (h : m.wf = true) :
    (l.foldl f m).wf = true := by
  induction l generalizing m with
  | nil => exact h
  | cons a l ih => exact ih _ (hf _ _ h)

theorem Memory.wf_writeN : ∀ (b : Bytes) (m : Memory) (a : Nat), m.wf = true → (m.writeN a b).wf = true
  | [], _, _, h => h
  | v :: b, m, a, h => by
    rw [Memory.writeN]
    refine Memory.wf_writeN b _ _ ?_
    rw [Memory.wf_iff] at h ⊢
    exact ⟨cellsFrom_cellWrite v (Nat.zero_le a) h.1, h.2⟩

theorem Memory.wf_mark (m : Memory) (n : Nat) (p : Bool) (h : m.wf = true) : (m.mark n p).wf = true := by
  rw [Memory.wf_iff] at h ⊢
  refine ⟨h.1, ?_⟩
  cases p
  · exact risingFrom_filter _ h.2
  · exact risingFrom_ins (Nat.zero_le n) h.2

theorem Memory.wf_writeSheet (m : Memory) (a : Nat) (b : Bytes) (p : Bool) (h : m.wf = true) :
    (m.writeSheet a b p).wf = true := Memory.wf_mark _ _ _ (Memory.wf_writeN _ _ _ h)

theorem Memory.wf_writeSheets (m : Memory) (a : Nat) (b : Bytes) (p : List Nat) (h : m.wf = true) :
    (m.writeSheets a b p).wf = true :=
  Memory.wf_foldl _ _ (fun _ _ h => Memory.wf_writeSheet _ _ _ _ h) _ h

theorem Memory.wf_zeroBut (m : Memory) (a n : Nat) (f : Nat → Bool) (h : m.wf = true) : (m.zeroBut a n f).wf = true := by
  rw [Memory.wf_iff] at h ⊢
  exact ⟨cellsFrom_filter _ h.1, risingFrom_filter _ h.2⟩

theorem Memory.wf_zero (m : Memory) (a n : Nat) (h : m.wf = true) : (m.zero a n).wf = true :=
  Memory.wf_zeroBut m a n _ h

theorem Memory.wf_writePart (m : Memory) (a : Nat) (b : Bytes) (h : m.wf = true) :
    (m.writePart a b).wf = true := by
  refine Memory.wf_foldl _ _ (fun m i h => ?_) _ (Memory.wf_writeN b m a h)
  dsimp only
  split
  · exact Memory.wf_mark _ _ _ h
  · exact h

/-! ### Reading back -/

theorem Memory.read_writeN_out : ∀ (b : Bytes) (m : Memory) (a j : Nat), m.wf = true →
    (j < a ∨ a + b.length ≤ j) → (m.writeN a b).read j = m.read j
  | [], _, _, _, _, _ => rfl
  | v :: b, m, a, j, h, hj => by
    have hw := (Memory.wf_iff m).mp h
    have hw' : Memory.wf { m with cells := cellWrite m.cells a v } = true :=
      (Memory.wf_iff _).mpr ⟨cellsFrom_cellWrite v (Nat.zero_le a) hw.1, hw.2⟩
    simp only [List.length_cons] at hj
    rw [Memory.writeN, Memory.read_writeN_out b _ (a + 1) j hw' (by omega)]
    exact cellRead_cellWrite_ne v (by omega) hw.1

theorem Memory.read_writeN_in : ∀ (b : Bytes) (m : Memory) (a i : Nat), m.wf = true → i < b.length →
    (m.writeN a b).read (a + i) = b.getD i 0
  | [], _, _, _, _, hi => by simp at hi
  | v :: b, m, a, i, h, hi => by
    have hw := (Memory.wf_iff m).mp h
    have hw' : Memory.wf { m with cells := cellWrite m.cells a v } = true :=
      (Memory.wf_iff _).mpr ⟨cellsFrom_cellWrite v (Nat.zero_le a) hw.1, hw.2⟩
    rw [Memory.writeN]
    cases i with
    | zero =>
      rw [Memory.read_writeN_out b _ (a + 1) (a + 0) hw' (by omega)]
      exact cellRead_cellWrite_self v hw.1
    | succ i =>
      have := Memory.read_writeN_in b _ (a + 1) i hw' (by simpa using hi)
      rw [show a + (i + 1) = a + 1 + i by omega, this]
      rfl

@[simp] theorem Memory.read_mark (m : Memory) (n : Nat) (p : Bool) (a : Nat) :
    (m.mark n p).read a = m.read a := rfl

end Sys2Proof.Machine
end

