-- ==== Sys2Proof/Laws/Keep.lean ====
section
/-! SUPPORT. What every operation of the block keeps: the waiting commands, the fuses of R3, the rollback floor, and the
canonical form of the memory. `Keeps` composes along the way an operation is written, so that each one has
one lemma, and a proof about every command cites those and unfolds nothing. -/

namespace Sys2Proof.Machine
set_option linter.unusedTactic false
set_option linter.unreachableTactic false

/-- `t` has the waiting commands and the fuses of `s`, no lower rollback floor, and a memory in canonical form if `s` has. -/
structure Keeps (s t : State) : Prop where
  pending : t.pending = s.pending
  fuse : t.fuse.fixed = s.fuse.fixed
  floor : s.fuse.svn ≤ t.fuse.svn
  cap : s.fuse.svn < 64 → t.fuse.svn < 64
  mem : s.memSound → t.memSound

theorem Keeps.refl (s : State) : Keeps s s := ⟨rfl, rfl, Nat.le_refl _, id, id⟩

theorem Keeps.trans {a b c : State} (h : Keeps a b) (k : Keeps b c) : Keeps a c :=
  ⟨k.pending.trans h.pending, k.fuse.trans h.fuse, h.floor.trans k.floor, fun m => k.cap (h.cap m),
    fun m => k.mem (h.mem m)⟩

/-- `Keeps` of a state in its parts: what stands in queue, fuses and memory. -/
structure KeepsParts (s : State) (p : List Instr) (f : Fuse) (m : Memory) : Prop where
  pending : p = s.pending
  fuse : f.fixed = s.fuse.fixed
  floor : s.fuse.svn ≤ f.svn
  cap : s.fuse.svn < 64 → f.svn < 64
  mem : s.memSound → m.wf = true

/-- A record update, in its parts. -/
theorem keeps_mk {s : State} {p fr f bus m clk ctr tel regs parts fe io hp evt dbg ream posts net slots tiles felt
    tiers gat pwr mgmt rel ingests sec} :
    Keeps s (State.mk p fr f bus m clk ctr tel regs parts fe io hp evt dbg ream posts net slots tiles felt tiers gat
      pwr mgmt rel ingests sec) ↔ KeepsParts s p f m :=
  ⟨fun h => ⟨h.pending, h.fuse, h.floor, h.cap, h.mem⟩, fun h => ⟨h.pending, h.fuse, h.floor, h.cap, h.mem⟩⟩

/-- An update that leaves queue, fuses and memory alone. -/
theorem KeepsParts.same {s0 s : State} (h : Keeps s0 s) : KeepsParts s0 s.pending s.fuse s.mem :=
  ⟨h.pending, h.fuse, h.floor, h.cap, h.mem⟩

/-- An update that writes memory by operations that keep its form. -/
theorem KeepsParts.write {s0 s : State} (h : Keeps s0 s) {m : Memory} (hm : s.mem.wf = true → m.wf = true) :
    KeepsParts s0 s.pending s.fuse m := ⟨h.pending, h.fuse, h.floor, h.cap, fun w => hm (h.mem w)⟩

/-- More positions of the rollback floor are blown. -/
theorem KeepsParts.burn {s0 s : State} (h : Keeps s0 s) {n f : Nat} :
    KeepsParts s0 s.pending (Fuse.mk s.fuse.order s.fuse.tileMask s.fuse.serial
      (s.fuse.svn + Nat.min n (63 - s.fuse.svn)) s.fuse.rootHash f)
      s.mem :=
  ⟨h.pending, h.fuse, h.floor.trans (Nat.le_add_right _ _), fun e => by
    have := h.cap e
    have := Nat.min_le_right n (63 - s.fuse.svn)
    show s.fuse.svn + Nat.min n (63 - s.fuse.svn) < 64
    simp only [Nat.min_def] at *
    omega, h.mem⟩

/-- An update of the feed strap. -/
theorem KeepsParts.strap {s0 s : State} (h : Keeps s0 s) {f : Nat} :
    KeepsParts s0 s.pending (Fuse.mk s.fuse.order s.fuse.tileMask s.fuse.serial s.fuse.svn s.fuse.rootHash f) s.mem :=
  ⟨h.pending, h.fuse, h.floor, h.cap, h.mem⟩

theorem Keeps.ite {s0 a b : State} {c : Prop} [Decidable c] (ha : Keeps s0 a) (hb : Keeps s0 b) :
    Keeps s0 (if c then a else b) := by split <;> assumption

theorem Keeps.each {s0 s : State} (h : Keeps s0 s) {α : Type} (l : List α) (f : State → α → State)
    (hf : ∀ t a, Keeps s0 t → Keeps s0 (f t a)) : Keeps s0 (s.each l f) := by
  induction l generalizing s with
  | nil => exact h
  | cons a l ih => exact ih (hf _ a h)

theorem Keeps.foldl {s0 s : State} (h : Keeps s0 s) {α : Type} (l : List α) (f : State → α → State)
    (hf : ∀ t a, Keeps s0 t → Keeps s0 (f t a)) : Keeps s0 (l.foldl f s) := h.each l f hf

/-- A fold that carries the state in a pair. -/
theorem Keeps.foldl_fst {s0 : State} {α β : Type} (l : List α) (f : State × β → α → State × β)
    (hf : ∀ p a, Keeps s0 p.1 → Keeps s0 (f p a).1) (p : State × β) (h : Keeps s0 p.1) :
    Keeps s0 (l.foldl f p).1 := by
  induction l generalizing p with
  | nil => exact h
  | cons a l ih => exact ih _ (hf p a h)

theorem Keeps.foldl_snd {s0 : State} {α β : Type} (l : List α) (f : β × State → α → β × State)
    (hf : ∀ p a, Keeps s0 p.2 → Keeps s0 (f p a).2) (p : β × State) (h : Keeps s0 p.2) :
    Keeps s0 (l.foldl f p).2 := by
  induction l generalizing p with
  | nil => exact h
  | cons a l ih => exact ih _ (hf p a h)

/-- The state after an outcome that is a next state (`after`). -/
theorem Keeps.after {s0 s : State} {o : Host.Outcome State Fault Refusal} (h : Keeps s0 s)
    (ho : ∃ t, o = .next t ∧ Keeps s t) : Keeps s0 (Machine.after o s) := by
  obtain ⟨t, rfl, k⟩ := ho
  exact h.trans k

/-- A state that came out of a pair. -/
theorem Keeps.of_fst {s0 : State} {α : Type} {p : State × α} {t : State} {a : α} (e : p = (t, a))
    (h : Keeps s0 p.1) : Keeps s0 t := by subst e; exact h

theorem Keeps.of_snd {s0 : State} {α : Type} {p : α × State} {t : State} {a : α} (e : p = (a, t))
    (h : Keeps s0 p.2) : Keeps s0 t := by subst e; exact h

theorem Keeps.of_snd3 {s0 : State} {α β : Type} {p : α × β × State} {t : State} {a : α} {b : β}
    (e : p = (a, b, t)) (h : Keeps s0 p.2.2) : Keeps s0 t := by subst e; exact h

theorem Keeps.of_fst3 {s0 : State} {α β : Type} {p : State × α × β} {t : State} {a : α} {b : β}
    (e : p = (t, a, b)) (h : Keeps s0 p.1) : Keeps s0 t := by subst e; exact h

end Sys2Proof.Machine
end

