-- ==== Sys2Proof/Laws/KeepFront.lean ====
section
/-! SUPPORT. `Keeps` for the front end: operations shared by all, segments, rings, partitions, events:
the waiting commands, the fuses and the canonical form of memory stay. -/

namespace Sys2Proof.Machine
set_option linter.unusedTactic false
set_option linter.unreachableTactic false

theorem State.setRing_keeps {s0 s : State} (h0 : Keeps s0 s) (r : Nat) (v : Ring) :
    Keeps s0 (State.setRing s r v) := by
  unfold State.setRing
  repeat' first
    | with_reducible first
      | assumption | exact Keeps.refl _ | apply KeepsParts.same
    | dsimp only | simp only [keeps_mk] | split

theorem State.modRing_keeps {s0 s : State} (h0 : Keeps s0 s) (r : Nat) (f : Ring → Ring) :
    Keeps s0 (State.modRing s r f) := by
  unfold State.modRing
  repeat' first
    | with_reducible first
      | assumption | exact Keeps.refl _ | apply State.setRing_keeps
    | dsimp only | split

theorem State.setPart_keeps {s0 s : State} (h0 : Keeps s0 s) (p : Nat) (v : Part) :
    Keeps s0 (State.setPart s p v) := by
  unfold State.setPart
  repeat' first
    | with_reducible first
      | assumption | exact Keeps.refl _ | apply KeepsParts.same
    | dsimp only | simp only [keeps_mk] | split

theorem State.modPart_keeps {s0 s : State} (h0 : Keeps s0 s) (p : Nat) (f : Part → Part) :
    Keeps s0 (State.modPart s p f) := by
  unfold State.modPart
  repeat' first
    | with_reducible first
      | assumption | exact Keeps.refl _ | apply State.setPart_keeps
    | dsimp only | split

theorem State.setCmd_keeps {s0 s : State} (h0 : Keeps s0 s) (k : Nat) (c : Cmd) :
    Keeps s0 (State.setCmd s k c) := by
  unfold State.setCmd
  repeat' first
    | with_reducible first
      | assumption | exact Keeps.refl _ | apply KeepsParts.same
    | dsimp only | simp only [keeps_mk] | split

theorem State.setPost_keeps {s0 s : State} (h0 : Keeps s0 s) (k : Nat) (v : Post) :
    Keeps s0 (State.setPost s k v) := by
  unfold State.setPost
  repeat' first
    | with_reducible first
      | assumption | exact Keeps.refl _ | apply KeepsParts.same
    | dsimp only | simp only [keeps_mk] | split

theorem State.modPost_keeps {s0 s : State} (h0 : Keeps s0 s) (k : Nat) (f : Post → Post) :
    Keeps s0 (State.modPost s k f) := by
  unfold State.modPost
  repeat' first
    | with_reducible first
      | assumption | exact Keeps.refl _ | apply State.setPost_keeps
    | dsimp only | split

theorem State.setSrc_keeps {s0 s : State} (h0 : Keeps s0 s) (i : Nat) (v : Src) :
    Keeps s0 (State.setSrc s i v) := by
  unfold State.setSrc
  repeat' first
    | with_reducible first
      | assumption | exact Keeps.refl _ | apply KeepsParts.same
    | dsimp only | simp only [keeps_mk] | split

theorem State.setReg_keeps {s0 s : State} (h0 : Keeps s0 s) (a : Nat) (w : Word) :
    Keeps s0 (State.setReg s a w) := by
  unfold State.setReg
  repeat' first
    | with_reducible first
      | assumption | exact Keeps.refl _ | apply KeepsParts.same
    | dsimp only | simp only [keeps_mk] | split

theorem State.setCtr_keeps {s0 s : State} (h0 : Keeps s0 s) (id : Nat) (inst : Nat) (v : DWord) :
    Keeps s0 (State.setCtr s id inst v) := by
  unfold State.setCtr
  repeat' first
    | with_reducible first
      | assumption | exact Keeps.refl _ | apply KeepsParts.same
    | dsimp only | simp only [keeps_mk] | split

theorem State.count_keeps {s0 s : State} (h0 : Keeps s0 s) (id : Nat) (inst : Nat) (n : Nat) :
    Keeps s0 (State.count s id inst n) := by
  unfold State.count
  repeat' first
    | with_reducible first
      | assumption | exact Keeps.refl _ | apply State.setCtr_keeps
    | dsimp only | split

theorem State.setPhase_keeps {s0 s : State} (h0 : Keeps s0 s) (k : Nat) (ph : Phase) :
    Keeps s0 (State.setPhase s k ph) := by
  unfold State.setPhase
  repeat' first
    | with_reducible first
      | assumption | exact Keeps.refl _ | apply State.setCmd_keeps
    | dsimp only | split

theorem State.freeVal_keeps {s0 s : State} (h0 : Keeps s0 s) :
    Keeps s0 (State.freeVal s).2 := by
  unfold State.freeVal
  repeat' first
    | with_reducible first
      | assumption | exact Keeps.refl _ | apply KeepsParts.same
    | dsimp only | simp only [keeps_mk] | split

theorem State.freeVals_keeps {s0 s : State} (h0 : Keeps s0 s) (n : Nat) :
    Keeps s0 (State.freeVals s n).2 := by
  unfold State.freeVals
  repeat' first
    | with_reducible first
      | assumption | exact Keeps.refl _ | apply KeepsParts.same
    | dsimp only | simp only [keeps_mk] | split

theorem State.leaveQueue_keeps {s0 s : State} (h0 : Keeps s0 s) (k : Nat) :
    Keeps s0 (State.leaveQueue s k) := by
  unfold State.leaveQueue
  repeat' first
    | with_reducible first
      | assumption | exact Keeps.refl _ | apply State.count_keeps | apply Keeps.ite | apply KeepsParts.same
    | dsimp only | simp only [keeps_mk] | split

theorem State.issue_keeps {s0 s : State} (h0 : Keeps s0 s) (x : Xfer) :
    Keeps s0 (State.issue s x) := by
  unfold State.issue
  repeat' first
    | with_reducible first
      | assumption | exact Keeps.refl _ | apply KeepsParts.same
    | dsimp only | simp only [keeps_mk] | split

theorem State.writeHost_keeps {s0 s : State} (h0 : Keeps s0 s) (use : Use) (p : Nat) (qp : Nat) (rkey : Nat)
    (addr : Nat) (data : Bytes) (poison : List Nat) :
    Keeps s0 (State.writeHost s use p qp rkey addr data poison) := by
  unfold State.writeHost
  repeat' first
    | with_reducible first
      | assumption | exact Keeps.refl _ | apply State.modPost_keeps | apply State.count_keeps
      | apply State.issue_keeps | apply Keeps.ite
    | dsimp only | split

theorem State.takeDone_keeps {s0 s : State} (h0 : Keeps s0 s) (u : Use) :
    Keeps s0 (State.takeDone s u) := by
  unfold State.takeDone
  repeat' first
    | with_reducible first
      | assumption | exact Keeps.refl _ | apply KeepsParts.same
    | dsimp only | simp only [keeps_mk] | split

theorem State.sendMsix_keeps {s0 s : State} (h0 : Keeps s0 s) (p : Nat) (v : Nat) :
    Keeps s0 (State.sendMsix s p v) := by
  unfold State.sendMsix
  repeat' first
    | with_reducible first
      | assumption | exact Keeps.refl _ | apply State.count_keeps | apply KeepsParts.same
    | dsimp only | simp only [keeps_mk] | split

theorem State.readPrio_keeps {s0 s : State} (h0 : Keeps s0 s) (p : Nat) (lines : List Nat) :
    Keeps s0 (State.readPrio s p lines) := by
  unfold State.readPrio
  repeat' first
    | with_reducible first
      | assumption | exact Keeps.refl _ | refine Keeps.each ?_ _ _ (fun _ _ _ => ?_)
      | refine Keeps.foldl ?_ _ _ (fun _ _ _ => ?_) | refine Keeps.foldl_fst _ _ (fun _ _ _ => ?_) _ ?_
      | refine Keeps.foldl_snd _ _ (fun _ _ _ => ?_) _ ?_ | apply State.modPart_keeps | apply State.freeVals_keeps
      | apply Keeps.ite | refine Keeps.of_fst (by assumption) ?_ | refine Keeps.of_snd (by assumption) ?_ | intro _
    | dsimp only | split

theorem State.delivered_keeps {s0 s : State} (h0 : Keeps s0 s) (i : Nat) (rearm : Bool) :
    Keeps s0 (State.delivered s i rearm) := by
  unfold State.delivered
  repeat' first
    | with_reducible first
      | assumption | exact Keeps.refl _ | apply State.setSrc_keeps | apply Keeps.ite
    | dsimp only | split

theorem State.deliverCore_keeps {s0 s : State} (h0 : Keeps s0 s) (i : Nat) :
    Keeps s0 (State.deliverCore s i) := by
  unfold State.deliverCore
  repeat' first
    | with_reducible first
      | assumption | exact Keeps.refl _ | apply State.count_keeps | apply State.freeVals_keeps
      | apply State.delivered_keeps | apply KeepsParts.same | refine Keeps.of_snd (by assumption) ?_
    | dsimp only | simp only [keeps_mk] | split

theorem State.deliverLocal_keeps {s0 s : State} (h0 : Keeps s0 s) (i : Nat) (p : Nat) :
    Keeps s0 (State.deliverLocal s i p) := by
  unfold State.deliverLocal
  repeat' first
    | with_reducible first
      | assumption | exact Keeps.refl _ | apply State.setSrc_keeps | apply State.count_keeps
      | apply State.sendMsix_keeps | apply State.readPrio_keeps | apply State.delivered_keeps | apply Keeps.ite
      | apply KeepsParts.same
    | dsimp only | simp only [keeps_mk] | split

theorem State.deliverRemote_keeps {s0 s : State} (h0 : Keeps s0 s) (i : Nat) (p : Nat) :
    Keeps s0 (State.deliverRemote s i p) := by
  unfold State.deliverRemote
  repeat' first
    | with_reducible first
      | assumption | exact Keeps.refl _ | apply State.modPart_keeps | apply State.setSrc_keeps
      | apply State.count_keeps | apply State.issue_keeps | apply Keeps.ite
    | dsimp only | split

theorem State.deliver_keeps {s0 s : State} (h0 : Keeps s0 s) (i : Nat) :
    Keeps s0 (State.deliver s i) := by
  unfold State.deliver
  repeat' first
    | with_reducible first
      | assumption | exact Keeps.refl _ | apply State.deliverCore_keeps | apply State.deliverLocal_keeps
      | apply State.deliverRemote_keeps | apply Keeps.ite
    | dsimp only | split

theorem State.joinEvent_keeps {s0 s : State} (h0 : Keeps s0 s) (i : Nat) :
    Keeps s0 (State.joinEvent s i) := by
  unfold State.joinEvent
  repeat' first
    | with_reducible first
      | assumption | exact Keeps.refl _ | apply State.modPart_keeps | apply State.setSrc_keeps | apply Keeps.ite
      | apply KeepsParts.same
    | dsimp only | simp only [keeps_mk] | split

theorem State.deliverIfFull_keeps {s0 s : State} (h0 : Keeps s0 s) (i : Nat) :
    Keeps s0 (State.deliverIfFull s i) := by
  unfold State.deliverIfFull
  repeat' first
    | with_reducible first
      | assumption | exact Keeps.refl _ | apply State.deliver_keeps | apply Keeps.ite
    | dsimp only | split

theorem State.raise_keeps {s0 s : State} (h0 : Keeps s0 s) (i : Nat) :
    Keeps s0 (State.raise s i) := by
  unfold State.raise
  repeat' first
    | with_reducible first
      | assumption | exact Keeps.refl _ | apply State.setSrc_keeps | apply State.joinEvent_keeps
      | apply State.deliverIfFull_keeps | apply Keeps.ite
    | dsimp only | split

theorem State.rearm_keeps {s0 s : State} (h0 : Keeps s0 s) (i : Nat) :
    Keeps s0 (State.rearm s i) := by
  unfold State.rearm
  repeat' first
    | with_reducible first
      | assumption | exact Keeps.refl _ | apply State.setSrc_keeps | apply State.deliverIfFull_keeps | apply Keeps.ite
    | dsimp only | split

theorem State.coreCause_keeps {s0 s : State} (h0 : Keeps s0 s) (bit : Nat) :
    Keeps s0 (State.coreCause s bit) := by
  unfold State.coreCause
  repeat' first
    | with_reducible first
      | assumption | exact Keeps.refl _ | apply State.raise_keeps | apply KeepsParts.same
    | dsimp only | simp only [keeps_mk] | split

theorem State.partCause_keeps {s0 s : State} (h0 : Keeps s0 s) (p : Nat) (bit : Nat) :
    Keeps s0 (State.partCause s p bit) := by
  unfold State.partCause
  repeat' first
    | with_reducible first
      | assumption | exact Keeps.refl _ | apply State.modPart_keeps | apply State.raise_keeps | apply Keeps.ite
    | dsimp only | split

theorem State.causeTo_keeps {s0 s : State} (h0 : Keeps s0 s) (p : Nat) (bit : Nat) :
    Keeps s0 (State.causeTo s p bit) := by
  unfold State.causeTo
  repeat' first
    | with_reducible first
      | assumption | exact Keeps.refl _ | apply State.coreCause_keeps | apply State.partCause_keeps
    | dsimp only | split

theorem State.causeAll_keeps {s0 s : State} (h0 : Keeps s0 s) (bit : Nat) :
    Keeps s0 (State.causeAll s bit) := by
  unfold State.causeAll
  repeat' first
    | with_reducible first
      | assumption | exact Keeps.refl _ | refine Keeps.each ?_ _ _ (fun _ _ _ => ?_) | apply State.coreCause_keeps
      | apply State.partCause_keeps | apply Keeps.ite | intro _
    | dsimp only | split

theorem State.freeTaskOf_keeps {s0 s : State} (h0 : Keeps s0 s) (k : Nat) :
    Keeps s0 (State.freeTaskOf s k) := by
  unfold State.freeTaskOf
  repeat' first
    | with_reducible first
      | assumption | exact Keeps.refl _ | apply KeepsParts.same
    | dsimp only | simp only [keeps_mk] | split

theorem State.finish_keeps {s0 s : State} (h0 : Keeps s0 s) (k : Nat) (status : Nat) (result : Nat) (flags : Nat) :
    Keeps s0 (State.finish s k status result flags) := by
  unfold State.finish
  repeat' first
    | with_reducible first
      | assumption | exact Keeps.refl _ | apply State.modRing_keeps | apply State.freeTaskOf_keeps
      | apply KeepsParts.same
    | dsimp only | simp only [keeps_mk] | split

theorem State.finishIdle_keeps {s0 s : State} (h0 : Keeps s0 s) (k : Nat) (status : Nat) :
    Keeps s0 (State.finishIdle s k status) := by
  unfold State.finishIdle
  repeat' first
    | with_reducible first
      | assumption | exact Keeps.refl _ | apply State.finish_keeps
    | dsimp only | split

theorem State.pldm_keeps {s0 s : State} (h0 : Keeps s0 s) (sensor : Nat) (value : Nat) :
    Keeps s0 (State.pldm s sensor value) := by
  unfold State.pldm
  repeat' first
    | with_reducible first
      | assumption | exact Keeps.refl _ | apply Keeps.ite | apply KeepsParts.same
    | dsimp only | simp only [keeps_mk] | split

theorem State.pldmIf_keeps {s0 s : State} (h0 : Keeps s0 s) (sensor : Nat) (old : Nat) (new : Nat) :
    Keeps s0 (State.pldmIf s sensor old new) := by
  unfold State.pldmIf
  repeat' first
    | with_reducible first
      | assumption | exact Keeps.refl _ | apply State.pldm_keeps | apply Keeps.ite
    | dsimp only | split

theorem State.pldmCross_keeps {s0 s : State} (h0 : Keeps s0 s) (sensor : Nat) (old : Nat) (new : Nat) (ths : List Nat)
    :
    Keeps s0 (State.pldmCross s sensor old new ths) := by
  unfold State.pldmCross
  repeat' first
    | with_reducible first
      | assumption | exact Keeps.refl _ | apply State.pldm_keeps | apply Keeps.ite
    | dsimp only | split

theorem State.setPst_keeps {s0 s : State} (h0 : Keeps s0 s) (n : Nat) :
    Keeps s0 (State.setPst s n) := by
  unfold State.setPst
  repeat' first
    | with_reducible first
      | assumption | exact Keeps.refl _ | apply State.pldmIf_keeps | apply KeepsParts.same
    | dsimp only | simp only [keeps_mk] | split

theorem State.setFlush_keeps {s0 s : State} (h0 : Keeps s0 s) (n : Nat) :
    Keeps s0 (State.setFlush s n) := by
  unfold State.setFlush
  repeat' first
    | with_reducible first
      | assumption | exact Keeps.refl _ | apply State.pldmIf_keeps | apply KeepsParts.same
    | dsimp only | simp only [keeps_mk] | split

theorem State.setTile_keeps {s0 s : State} (h0 : Keeps s0 s) (t : Nat) (v : Tile) :
    Keeps s0 (State.setTile s t v) := by
  unfold State.setTile
  repeat' first
    | with_reducible first
      | assumption | exact Keeps.refl _ | apply KeepsParts.same
    | dsimp only | simp only [keeps_mk] | split

theorem State.modTile_keeps {s0 s : State} (h0 : Keeps s0 s) (t : Nat) (f : Tile → Tile) :
    Keeps s0 (State.modTile s t f) := by
  unfold State.modTile
  repeat' first
    | with_reducible first
      | assumption | exact Keeps.refl _ | apply State.setTile_keeps
    | dsimp only | split

theorem State.setT1g_keeps {s0 s : State} (h0 : Keeps s0 s) (g : Nat) (v : T1Group) :
    Keeps s0 (State.setT1g s g v) := by
  unfold State.setT1g
  repeat' first
    | with_reducible first
      | assumption | exact Keeps.refl _ | apply KeepsParts.same
    | dsimp only | simp only [keeps_mk] | split

theorem State.t1Write_keeps {s0 s : State} (h0 : Keeps s0 s) (a : Nat) (b : Bytes) :
    Keeps s0 (State.t1Write s a b) := by
  unfold State.t1Write
  repeat' first
    | with_reducible first
      | assumption | exact Keeps.refl _ | refine Keeps.foldl ?_ _ _ (fun _ _ _ => ?_)
      | refine Keeps.foldl_fst _ _ (fun _ _ _ => ?_) _ ?_ | refine Keeps.foldl_snd _ _ (fun _ _ _ => ?_) _ ?_
      | apply Keeps.ite | apply KeepsParts.same | refine KeepsParts.write ?_ (fun _ => ?_) | exact Memory.wf_empty
      | refine Memory.wf_writeN _ _ _ ?_ | apply Memory.wf_writePart | apply Memory.wf_mark | apply Memory.wf_zero
      | apply Memory.wf_zeroBut | apply Memory.wf_writeSheets | refine Memory.wf_foldl _ _ (fun _ _ _ => ?_) _ ?_
      | refine Keeps.of_fst (by assumption) ?_ | refine Keeps.of_snd (by assumption) ?_ | intro _
    | dsimp only | simp only [keeps_mk] | split

theorem State.failGroup_keeps {s0 s : State} (h0 : Keeps s0 s) (g : Nat) :
    Keeps s0 (State.failGroup s g) := by
  unfold State.failGroup
  repeat' first
    | with_reducible first
      | assumption | exact Keeps.refl _ | apply State.causeAll_keeps | apply State.setT1g_keeps | apply Keeps.ite
    | dsimp only | split

theorem State.plogAdd_keeps {s0 s : State} (h0 : Keeps s0 s) (kind : Nat) (unit : Nat) (table : Nat) (addr : Nat) :
    Keeps s0 (State.plogAdd s kind unit table addr) := by
  unfold State.plogAdd
  repeat' first
    | with_reducible first
      | assumption | exact Keeps.refl _ | apply KeepsParts.same
    | dsimp only | simp only [keeps_mk] | split

theorem State.poisonT1_keeps {s0 s : State} (h0 : Keeps s0 s) (n : Nat) :
    Keeps s0 (State.poisonT1 s n) := by
  unfold State.poisonT1
  repeat' first
    | with_reducible first
      | assumption | exact Keeps.refl _ | apply State.count_keeps | apply State.failGroup_keeps
      | apply State.plogAdd_keeps | apply Keeps.ite | apply KeepsParts.same | refine KeepsParts.write ?_ (fun _ => ?_)
      | exact Memory.wf_empty | refine Memory.wf_writeN _ _ _ ?_ | apply Memory.wf_writePart | apply Memory.wf_mark
      | apply Memory.wf_zero | apply Memory.wf_zeroBut | apply Memory.wf_writeSheets
      | refine Memory.wf_foldl _ _ (fun _ _ _ => ?_) _ ?_
    | dsimp only | simp only [keeps_mk] | split

theorem State.poisonT0_keeps {s0 s : State} (h0 : Keeps s0 s) (t : Nat) (n : Nat) :
    Keeps s0 (State.poisonT0 s t n) := by
  unfold State.poisonT0
  repeat' first
    | with_reducible first
      | assumption | exact Keeps.refl _ | apply State.count_keeps | apply State.plogAdd_keeps | apply Keeps.ite
      | apply KeepsParts.same | refine KeepsParts.write ?_ (fun _ => ?_) | exact Memory.wf_empty
      | refine Memory.wf_writeN _ _ _ ?_ | apply Memory.wf_writePart | apply Memory.wf_mark | apply Memory.wf_zero
      | apply Memory.wf_zeroBut | apply Memory.wf_writeSheets | refine Memory.wf_foldl _ _ (fun _ _ _ => ?_) _ ?_
    | dsimp only | simp only [keeps_mk] | split

theorem State.openSheets_keeps {s0 s : State} (h0 : Keeps s0 s) (a : Nat) (len : Nat) :
    Keeps s0 (State.openSheets s a len) := by
  unfold State.openSheets
  repeat' first
    | with_reducible first
      | assumption | exact Keeps.refl _ | refine Keeps.each ?_ _ _ (fun _ _ _ => ?_) | apply State.count_keeps
      | intro _
    | dsimp only | split

theorem State.rebuild_keeps {s0 s : State} (h0 : Keeps s0 s) (n : Nat) :
    Keeps s0 (State.rebuild s n) := by
  unfold State.rebuild
  repeat' first
    | with_reducible first
      | assumption | exact Keeps.refl _ | apply State.count_keeps | apply Keeps.ite
    | dsimp only | split

theorem State.rebuildIn_keeps {s0 s : State} (h0 : Keeps s0 s) (a : Nat) (len : Nat) :
    Keeps s0 (State.rebuildIn s a len) := by
  unfold State.rebuildIn
  repeat' first
    | with_reducible first
      | assumption | exact Keeps.refl _ | refine Keeps.each ?_ _ _ (fun _ _ _ => ?_) | apply State.rebuild_keeps
      | apply Keeps.ite | intro _
    | dsimp only | split

theorem State.netGone_keeps {s0 s : State} (h0 : Keeps s0 s) (k : Option CKey) :
    Keeps s0 (State.netGone s k) := by
  unfold State.netGone
  repeat' first
    | with_reducible first
      | assumption | exact Keeps.refl _ | apply KeepsParts.same
    | dsimp only | simp only [keeps_mk] | split

theorem State.cacheLook_keeps {s0 s : State} (h0 : Keeps s0 s) (k : CKey) :
    Keeps s0 (State.cacheLook s k) := by
  unfold State.cacheLook
  repeat' first
    | with_reducible first
      | assumption | exact Keeps.refl _ | apply State.count_keeps | apply State.rebuild_keeps
      | apply State.netGone_keeps | apply KeepsParts.same
    | dsimp only | simp only [keeps_mk] | split

theorem State.netLook_keeps {s0 s : State} (h0 : Keeps s0 s) (k : CKey) :
    Keeps s0 (State.netLook s k).2 := by
  unfold State.netLook
  repeat' first
    | with_reducible first
      | assumption | exact Keeps.refl _ | apply State.count_keeps | apply KeepsParts.same
    | dsimp only | simp only [keeps_mk] | split

theorem State.netFill_keeps {s0 s : State} (h0 : Keeps s0 s) (k : CKey) (b : Bytes) (bad : Bool) :
    Keeps s0 (State.netFill s k b bad) := by
  unfold State.netFill
  repeat' first
    | with_reducible first
      | assumption | exact Keeps.refl _ | apply State.netGone_keeps | apply KeepsParts.same
    | dsimp only | simp only [keeps_mk] | split

theorem State.cacheDrop_keeps {s0 s : State} (h0 : Keeps s0 s) (p : CKey → Bool) :
    Keeps s0 (State.cacheDrop s p) := by
  unfold State.cacheDrop
  repeat' first
    | with_reducible first
      | assumption | exact Keeps.refl _ | apply KeepsParts.same
    | dsimp only | simp only [keeps_mk] | split

theorem State.cacheWritten_keeps {s0 s : State} (h0 : Keeps s0 s) (a : Nat) (len : Nat) :
    Keeps s0 (State.cacheWritten s a len) := by
  unfold State.cacheWritten
  repeat' first
    | with_reducible first
      | assumption | exact Keeps.refl _ | apply State.cacheDrop_keeps | apply Keeps.ite
    | dsimp only | split

theorem State.writeT1_keeps {s0 s : State} (h0 : Keeps s0 s) (a : Nat) (b : Bytes) (poison : List Nat) :
    Keeps s0 (State.writeT1 s a b poison) := by
  unfold State.writeT1
  repeat' first
    | with_reducible first
      | assumption | exact Keeps.refl _ | refine Keeps.each ?_ _ _ (fun _ _ _ => ?_) | apply State.t1Write_keeps
      | apply State.poisonT1_keeps | apply State.cacheWritten_keeps | intro _
    | dsimp only | split

theorem State.modSeg_keeps {s0 s : State} (h0 : Keeps s0 s) (p : Nat) (g : Nat) (f : Seg → Seg) :
    Keeps s0 (State.modSeg s p g f) := by
  unfold State.modSeg
  repeat' first
    | with_reducible first
      | assumption | exact Keeps.refl _ | apply State.modPart_keeps
    | dsimp only | split

theorem State.writeSeg_keeps {s0 s : State} (h0 : Keeps s0 s) (use : Use) (p : Nat) (g : Nat) (off : Nat) (b : Bytes)
    (poison : List Nat) :
    Keeps s0 (State.writeSeg s use p g off b poison) := by
  unfold State.writeSeg
  repeat' first
    | with_reducible first
      | assumption | exact Keeps.refl _ | refine Keeps.each ?_ _ _ (fun _ _ _ => ?_) | apply State.writeHost_keeps
      | apply State.writeT1_keeps | apply Keeps.ite | intro _
    | dsimp only | split

theorem State.openRange_keeps {s0 s : State} (h0 : Keeps s0 s) (p : Nat) (g : Nat) (off : Nat) (len : Nat)
    (read : Bool) :
    Keeps s0 (State.openRange s p g off len read) := by
  unfold State.openRange
  repeat' first
    | with_reducible first
      | assumption | exact Keeps.refl _ | refine Keeps.each ?_ _ _ (fun _ _ _ => ?_) | apply State.openSheets_keeps
      | apply State.rebuildIn_keeps | apply Keeps.ite | intro _
    | dsimp only | split

theorem State.pageUse_keeps {s0 s : State} (h0 : Keeps s0 s) (t : Nat) :
    Keeps s0 (State.pageUse s t) := by
  unfold State.pageUse
  repeat' first
    | with_reducible first
      | assumption | exact Keeps.refl _ | apply KeepsParts.same
    | dsimp only | simp only [keeps_mk] | split

theorem State.pageDrop_keeps {s0 s : State} (h0 : Keeps s0 s) (p : Nat → Bool) :
    Keeps s0 (State.pageDrop s p) := by
  unfold State.pageDrop
  repeat' first
    | with_reducible first
      | assumption | exact Keeps.refl _ | apply KeepsParts.same
    | dsimp only | simp only [keeps_mk] | split

theorem State.fqPut_keeps {s0 s : State} (h0 : Keeps s0 s) (rec_ : Bytes) :
    Keeps s0 (State.fqPut s rec_) := by
  unfold State.fqPut
  repeat' first
    | with_reducible first
      | assumption | exact Keeps.refl _ | apply KeepsParts.same
    | dsimp only | simp only [keeps_mk] | split

theorem State.faultWrite_keeps {s0 s : State} (h0 : Keeps s0 s) (c : Cmd) (k : Nat) (n : Nat) (seg : Nat) (kind : Nat)
    (off : Nat) (pages : Nat) :
    Keeps s0 (State.faultWrite s c k n seg kind off pages) := by
  unfold State.faultWrite
  repeat' first
    | with_reducible first
      | assumption | exact Keeps.refl _ | apply State.modPart_keeps | apply State.count_keeps
      | apply State.causeTo_keeps | apply State.writeSeg_keeps | apply State.fqPut_keeps | apply Keeps.ite
      | apply KeepsParts.same
    | dsimp only | simp only [keeps_mk] | split

theorem State.tileFault_keeps {s0 s : State} (h0 : Keeps s0 s) (t : Nat) (c : Nat) (seg : Nat) (off : Nat)
    (pages : Nat) :
    Keeps s0 (State.tileFault s t c seg off pages) := by
  unfold State.tileFault
  repeat' first
    | with_reducible first
      | assumption | exact Keeps.refl _ | apply State.count_keeps | apply State.coreCause_keeps
      | apply State.fqPut_keeps | apply Keeps.ite | apply KeepsParts.same
    | dsimp only | simp only [keeps_mk] | split

theorem State.freeTileFaults_keeps {s0 s : State} (h0 : Keeps s0 s) (t : Nat) :
    Keeps s0 (State.freeTileFaults s t) := by
  unfold State.freeTileFaults
  repeat' first
    | with_reducible first
      | assumption | exact Keeps.refl _ | apply KeepsParts.same
    | dsimp only | simp only [keeps_mk] | split

theorem State.unhold_keeps {s0 s : State} (h0 : Keeps s0 s) (ring : Nat) (k : Nat) :
    Keeps s0 (State.unhold s ring k) := by
  unfold State.unhold
  repeat' first
    | with_reducible first
      | assumption | exact Keeps.refl _ | apply State.modRing_keeps | apply KeepsParts.same
    | dsimp only | simp only [keeps_mk] | split

theorem State.faultPark_keeps {s0 s : State} (h0 : Keeps s0 s) (k : Nat) (c : Cmd) (seg : Nat) (kind : Nat)
    (off : Nat) (pages : Nat) :
    Keeps s0 (State.faultPark s k c seg kind off pages) := by
  unfold State.faultPark
  repeat' first
    | with_reducible first
      | assumption | exact Keeps.refl _ | apply State.modRing_keeps | apply State.count_keeps
      | apply State.setPhase_keeps | apply State.faultWrite_keeps | apply State.unhold_keeps | apply Keeps.ite
      | apply KeepsParts.same
    | dsimp only | simp only [keeps_mk] | split

theorem State.walk_keeps {s0 s : State} (h0 : Keeps s0 s) (k : Nat) :
    Keeps s0 (State.walk s k) := by
  unfold State.walk
  repeat' first
    | with_reducible first
      | assumption | exact Keeps.refl _ | apply State.setPhase_keeps | apply Keeps.ite | apply KeepsParts.same
    | dsimp only | simp only [keeps_mk] | split

theorem State.translate_keeps {s0 s : State} (h0 : Keeps s0 s) (k : Nat) (c : Cmd) (rs : List Range) :
    Keeps s0 (State.translate s k c rs).2 := by
  unfold State.translate
  repeat' first
    | with_reducible first
      | assumption | exact Keeps.refl _ | refine Keeps.each ?_ _ _ (fun _ _ _ => ?_) | apply State.setCmd_keeps
      | apply State.count_keeps | apply State.finishIdle_keeps | apply State.pageUse_keeps
      | apply State.faultPark_keeps | apply State.walk_keeps | apply Keeps.ite | apply KeepsParts.same | intro _
    | dsimp only | simp only [keeps_mk] | split

theorem State.segEntryRead_keeps {s0 s : State} (h0 : Keeps s0 s) :
    Keeps s0 (State.segEntryRead s) := by
  unfold State.segEntryRead
  repeat' first
    | with_reducible first
      | assumption | exact Keeps.refl _ | apply State.count_keeps | apply State.freeVal_keeps | apply Keeps.ite
      | refine Keeps.of_snd (by assumption) ?_
    | dsimp only | split

theorem State.pageEntryRead_keeps {s0 s : State} (h0 : Keeps s0 s) (p : Nat) (g : Nat) (page : Nat) :
    Keeps s0 (State.pageEntryRead s p g page) := by
  unfold State.pageEntryRead
  repeat' first
    | with_reducible first
      | assumption | exact Keeps.refl _ | apply State.openSheets_keeps | apply State.rebuild_keeps | apply Keeps.ite
    | dsimp only | split

theorem State.walkFill_keeps {s0 s : State} (h0 : Keeps s0 s) (p : Nat) (g : Nat) (page : Nat) :
    Keeps s0 (State.walkFill s p g page) := by
  unfold State.walkFill
  repeat' first
    | with_reducible first
      | assumption | exact Keeps.refl _ | apply State.count_keeps | apply State.pageUse_keeps
      | apply State.segEntryRead_keeps | apply State.pageEntryRead_keeps | apply Keeps.ite | apply KeepsParts.same
    | dsimp only | simp only [keeps_mk] | split

theorem State.poisonMapSheet_keeps {s0 s : State} (h0 : Keeps s0 s) (p : Nat) (g : Nat) (page : Nat) :
    Keeps s0 (State.poisonMapSheet s p g page) := by
  unfold State.poisonMapSheet
  repeat' first
    | with_reducible first
      | assumption | exact Keeps.refl _ | apply State.modSeg_keeps | apply State.pageDrop_keeps
    | dsimp only | split

theorem State.dropCached_keeps {s0 s : State} (h0 : Keeps s0 s) (p : Nat) (g : Nat) :
    Keeps s0 (State.dropCached s p g) := by
  unfold State.dropCached
  repeat' first
    | with_reducible first
      | assumption | exact Keeps.refl _ | apply State.pageDrop_keeps | apply KeepsParts.same
    | dsimp only | simp only [keeps_mk] | split

theorem State.zeroRange_keeps {s0 s : State} (h0 : Keeps s0 s) (tier : Nat) (a : Nat) (len : Nat) :
    Keeps s0 (State.zeroRange s tier a len) := by
  unfold State.zeroRange
  repeat' first
    | with_reducible first
      | assumption | exact Keeps.refl _ | refine Keeps.foldl ?_ _ _ (fun _ _ _ => ?_)
      | refine Keeps.foldl_fst _ _ (fun _ _ _ => ?_) _ ?_ | refine Keeps.foldl_snd _ _ (fun _ _ _ => ?_) _ ?_
      | apply State.cacheWritten_keeps | apply Keeps.ite | apply KeepsParts.same
      | refine KeepsParts.write ?_ (fun _ => ?_) | exact Memory.wf_empty | refine Memory.wf_writeN _ _ _ ?_
      | apply Memory.wf_writePart | apply Memory.wf_mark | apply Memory.wf_zero | apply Memory.wf_zeroBut
      | apply Memory.wf_writeSheets | refine Memory.wf_foldl _ _ (fun _ _ _ => ?_) _ ?_
      | refine Keeps.of_fst (by assumption) ?_ | refine Keeps.of_snd (by assumption) ?_ | intro _
    | dsimp only | simp only [keeps_mk] | split

theorem State.modSlot_keeps {s0 s : State} (h0 : Keeps s0 s) (k : Nat) (f : Slot → Slot) :
    Keeps s0 (State.modSlot s k f) := by
  unfold State.modSlot
  repeat' first
    | with_reducible first
      | assumption | exact Keeps.refl _ | apply KeepsParts.same
    | dsimp only | simp only [keeps_mk] | split

theorem State.createSeg_keeps {s0 s : State} (h0 : Keeps s0 s) (p : Nat) (d : Bytes) :
    Keeps s0 (State.createSeg s p d) := by
  unfold State.createSeg
  repeat' first
    | with_reducible first
      | assumption | exact Keeps.refl _ | apply State.modPart_keeps | apply State.zeroRange_keeps
      | apply State.modSlot_keeps | apply Keeps.ite
    | dsimp only | split

theorem State.rewriteMap_keeps {s0 s : State} (h0 : Keeps s0 s) (p : Nat) (g : Nat) (v : Seg) (pages : List Nat) :
    Keeps s0 (State.rewriteMap s p g v pages) := by
  unfold State.rewriteMap
  repeat' first
    | with_reducible first
      | assumption | exact Keeps.refl _ | refine Keeps.each ?_ _ _ (fun _ _ _ => ?_)
      | apply State.poisonMapSheet_keeps | apply KeepsParts.same | refine KeepsParts.write ?_ (fun _ => ?_)
      | exact Memory.wf_empty | refine Memory.wf_writeN _ _ _ ?_ | apply Memory.wf_writePart | apply Memory.wf_mark
      | apply Memory.wf_zero | apply Memory.wf_zeroBut | apply Memory.wf_writeSheets
      | refine Memory.wf_foldl _ _ (fun _ _ _ => ?_) _ ?_ | intro _
    | dsimp only | simp only [keeps_mk] | split

theorem State.zeroLost_keeps {s0 s : State} (h0 : Keeps s0 s) (v : Seg) (ps : List (Nat × Nat)) :
    Keeps s0 (State.zeroLost s v ps) := by
  unfold State.zeroLost
  repeat' first
    | with_reducible first
      | assumption | exact Keeps.refl _ | refine Keeps.each ?_ _ _ (fun _ _ _ => ?_) | apply State.zeroRange_keeps
      | apply Keeps.ite | intro _
    | dsimp only | split

theorem State.mapPages_keeps {s0 s : State} (h0 : Keeps s0 s) (p : Nat) (d : Bytes) :
    Keeps s0 (State.mapPages s p d) := by
  unfold State.mapPages
  repeat' first
    | with_reducible first
      | assumption | exact Keeps.refl _ | refine Keeps.foldl ?_ _ _ (fun _ _ _ => ?_)
      | refine Keeps.foldl_fst _ _ (fun _ _ _ => ?_) _ ?_ | refine Keeps.foldl_snd _ _ (fun _ _ _ => ?_) _ ?_
      | apply State.modSeg_keeps | apply State.rewriteMap_keeps | apply State.zeroLost_keeps
      | refine Keeps.of_fst (by assumption) ?_ | refine Keeps.of_snd (by assumption) ?_ | intro _
    | dsimp only | split

theorem State.snoop_keeps {s0 s : State} (h0 : Keeps s0 s) (ls : List Nat) :
    Keeps s0 (State.snoop s ls) := by
  unfold State.snoop
  repeat' first
    | with_reducible first
      | assumption | exact Keeps.refl _ | apply State.count_keeps | apply Keeps.ite | apply KeepsParts.same
    | dsimp only | simp only [keeps_mk] | split

theorem State.snoopData_keeps {s0 s : State} (h0 : Keeps s0 s) (ls : List Nat) :
    Keeps s0 (State.snoopData s ls) := by
  unfold State.snoopData
  repeat' first
    | with_reducible first
      | assumption | exact Keeps.refl _ | apply State.count_keeps | apply Keeps.ite | apply KeepsParts.same
    | dsimp only | simp only [keeps_mk] | split

theorem State.readTaken_keeps {s0 s : State} (h0 : Keeps s0 s) (ls : List Nat) :
    Keeps s0 (State.readTaken s ls) := by
  unfold State.readTaken
  repeat' first
    | with_reducible first
      | assumption | exact Keeps.refl _ | apply Keeps.ite | apply KeepsParts.same
    | dsimp only | simp only [keeps_mk] | split

theorem State.openAsk_keeps {s0 s : State} (h0 : Keeps s0 s) (p : Nat) (g : Nat) (off : Nat) (len : Nat)
    (write : Bool) :
    Keeps s0 (State.openAsk s p g off len write).2 := by
  unfold State.openAsk
  repeat' first
    | with_reducible first
      | assumption | exact Keeps.refl _ | apply State.openRange_keeps | apply State.snoop_keeps
      | apply State.snoopData_keeps | apply State.readTaken_keeps | apply Keeps.ite
    | dsimp only | split

theorem State.dropOper_keeps {s0 s : State} (h0 : Keeps s0 s) (k : Nat) :
    Keeps s0 (State.dropOper s k) := by
  unfold State.dropOper
  repeat' first
    | with_reducible first
      | assumption | exact Keeps.refl _ | apply KeepsParts.same
    | dsimp only | simp only [keeps_mk] | split

theorem State.operAsk_keeps {s0 s : State} (h0 : Keeps s0 s) (k : Nat) (p : Nat) (g : Nat) (off : Nat) (len : Nat) :
    Keeps s0 (State.operAsk s k p g off len).2 := by
  unfold State.operAsk
  repeat' first
    | with_reducible first
      | assumption | exact Keeps.refl _ | refine Keeps.each ?_ _ _ (fun _ _ _ => ?_) | apply State.issue_keeps
      | apply State.dropOper_keeps | apply Keeps.ite | intro _
    | dsimp only | split

theorem State.refuse_keeps {s0 s : State} (h0 : Keeps s0 s) (k : Nat) (c : Cmd) (st : Nat) :
    Keeps s0 (State.refuse s k c st) := by
  unfold State.refuse
  repeat' first
    | with_reducible first
      | assumption | exact Keeps.refl _ | apply State.count_keeps | apply State.finishIdle_keeps | apply Keeps.ite
    | dsimp only | split

theorem State.front_keeps {s0 s : State} (h0 : Keeps s0 s) (k : Nat) (op : Nat) (go : State → Cmd → State)
    (hgo : ∀ t x1, Keeps s0 t → Keeps s0 (go t x1)) :
    Keeps s0 (State.front s k op go) := by
  unfold State.front
  repeat' first
    | with_reducible first
      | assumption | exact Keeps.refl _ | apply hgo | apply State.finishIdle_keeps | apply State.translate_keeps
      | apply State.refuse_keeps | apply Keeps.ite | refine Keeps.of_snd (by assumption) ?_ | intro _
    | dsimp only | split

theorem State.postJudge_keeps {s0 s : State} (h0 : Keeps s0 s) (k : Nat) (c : Cmd) (dir : Rd) :
    Keeps s0 (State.postJudge s k c dir) := by
  unfold State.postJudge
  repeat' first
    | with_reducible first
      | assumption | exact Keeps.refl _ | apply State.setPost_keeps | apply State.count_keeps
      | apply State.setPhase_keeps | apply State.finish_keeps | apply State.openAsk_keeps | apply State.operAsk_keeps
      | apply Keeps.ite | refine Keeps.of_snd (by assumption) ?_
    | dsimp only | split

theorem State.recheck_keeps {s0 s : State} (h0 : Keeps s0 s) (k : Nat) :
    Keeps s0 (State.recheck s k) := by
  unfold State.recheck
  repeat' first
    | with_reducible first
      | assumption | exact Keeps.refl _ | apply State.count_keeps | apply State.finishIdle_keeps
      | apply State.unhold_keeps | apply State.faultPark_keeps | apply State.walk_keeps | apply Keeps.ite
    | dsimp only | split

theorem State.recheckHeld_keeps {s0 s : State} (h0 : Keeps s0 s) :
    Keeps s0 (State.recheckHeld s) := by
  unfold State.recheckHeld
  repeat' first
    | with_reducible first
      | assumption | exact Keeps.refl _ | refine Keeps.each ?_ _ _ (fun _ _ _ => ?_) | apply State.recheck_keeps
      | intro _
    | dsimp only | split

theorem State.recheckFreed_keeps {s0 s : State} (h0 : Keeps s0 s) (n : Nat) :
    Keeps s0 (State.recheckFreed s n) := by
  unfold State.recheckFreed
  repeat' first
    | with_reducible first
      | assumption | exact Keeps.refl _ | apply State.recheckHeld_keeps | apply Keeps.ite
    | dsimp only | split

theorem State.finishFree_keeps {s0 s : State} (h0 : Keeps s0 s) (k : Nat) (status : Nat) (result : Nat) (flags : Nat)
    :
    Keeps s0 (State.finishFree s k status result flags) := by
  unfold State.finishFree
  repeat' first
    | with_reducible first
      | assumption | exact Keeps.refl _ | apply State.finish_keeps | apply State.recheckFreed_keeps
    | dsimp only | split

theorem State.segSetup_keeps {s0 s : State} (h0 : Keeps s0 s) (k : Nat) (op : Nat) (go : State → Cmd → State)
    (hgo : ∀ t x1, Keeps s0 t → Keeps s0 (go t x1)) :
    Keeps s0 (State.segSetup s k op go) := by
  unfold State.segSetup
  repeat' first
    | with_reducible first
      | assumption | exact Keeps.refl _ | apply hgo | apply State.front_keeps | apply Keeps.ite | intro _
    | dsimp only | split

theorem execSegSetupCreate_next (s : State) (ring : Nat) (seq : Nat) :
    ∃ t, execSegSetupCreate ring seq s = .next t ∧ Keeps s t := by
  refine ⟨_, rfl, ?_⟩
  repeat' first
    | with_reducible first
      | assumption | exact Keeps.refl _ | apply State.finish_keeps | apply State.createSeg_keeps
      | apply State.front_keeps | apply Keeps.ite | intro _
    | dsimp only | split

theorem execSegSetupMap_next (s : State) (ring : Nat) (seq : Nat) :
    ∃ t, execSegSetupMap ring seq s = .next t ∧ Keeps s t := by
  refine ⟨_, rfl, ?_⟩
  repeat' first
    | with_reducible first
      | assumption | exact Keeps.refl _ | apply State.finish_keeps | apply State.dropCached_keeps
      | apply State.mapPages_keeps | apply State.snoop_keeps | apply State.segSetup_keeps | apply Keeps.ite | intro _
    | dsimp only | split

theorem execSegSetupFaultArea_next (s : State) (ring : Nat) (seq : Nat) :
    ∃ t, execSegSetupFaultArea ring seq s = .next t ∧ Keeps s t := by
  refine ⟨_, rfl, ?_⟩
  repeat' first
    | with_reducible first
      | assumption | exact Keeps.refl _ | apply State.modPart_keeps | apply State.finish_keeps
      | apply State.segSetup_keeps | apply Keeps.ite | intro _
    | dsimp only | split

theorem State.startDrain_keeps {s0 s : State} (h0 : Keeps s0 s) (d : SegDrain) :
    Keeps s0 (State.startDrain s d) := by
  unfold State.startDrain
  repeat' first
    | with_reducible first
      | assumption | exact Keeps.refl _ | apply KeepsParts.same
    | dsimp only | simp only [keeps_mk] | split

theorem State.takeEffect_keeps {s0 s : State} (h0 : Keeps s0 s) (k : Nat) :
    Keeps s0 (State.takeEffect s k) := by
  unfold State.takeEffect
  repeat' first
    | with_reducible first
      | assumption | exact Keeps.refl _ | apply State.setCmd_keeps
    | dsimp only | split

theorem execSegSetupUnmap_next (s : State) (ring : Nat) (seq : Nat) :
    ∃ t, execSegSetupUnmap ring seq s = .next t ∧ Keeps s t := by
  refine ⟨_, rfl, ?_⟩
  repeat' first
    | with_reducible first
      | assumption | exact Keeps.refl _ | apply State.finish_keeps | apply State.dropCached_keeps
      | apply State.segSetup_keeps | apply State.startDrain_keeps | apply State.takeEffect_keeps | intro _
    | dsimp only | split

theorem execSegSetupRemove_next (s : State) (ring : Nat) (seq : Nat) :
    ∃ t, execSegSetupRemove ring seq s = .next t ∧ Keeps s t := by
  refine ⟨_, rfl, ?_⟩
  repeat' first
    | with_reducible first
      | assumption | exact Keeps.refl _ | refine Keeps.each ?_ _ _ (fun _ _ _ => ?_) | apply State.finish_keeps
      | apply State.finishIdle_keeps | apply State.dropCached_keeps | apply State.recheckFreed_keeps
      | apply State.segSetup_keeps | apply State.startDrain_keeps | apply State.takeEffect_keeps | apply Keeps.ite
      | apply KeepsParts.same | intro _
    | dsimp only | simp only [keeps_mk] | split

theorem State.dropPages_keeps {s0 s : State} (h0 : Keeps s0 s) (p : Nat) (g : Nat) (first : Nat) (n : Nat) :
    Keeps s0 (State.dropPages s p g first n) := by
  unfold State.dropPages
  repeat' first
    | with_reducible first
      | assumption | exact Keeps.refl _ | refine Keeps.each ?_ _ _ (fun _ _ _ => ?_) | apply State.modSeg_keeps
      | apply State.zeroRange_keeps | apply Keeps.ite | intro _
    | dsimp only | split

theorem State.removeSeg_keeps {s0 s : State} (h0 : Keeps s0 s) (p : Nat) (g : Nat) :
    Keeps s0 (State.removeSeg s p g) := by
  unfold State.removeSeg
  repeat' first
    | with_reducible first
      | assumption | exact Keeps.refl _ | refine Keeps.each ?_ _ _ (fun _ _ _ => ?_) | apply State.modPart_keeps
      | apply State.zeroRange_keeps | apply State.modSlot_keeps | apply Keeps.ite | apply KeepsParts.same | intro _
    | dsimp only | simp only [keeps_mk] | split

theorem execFaultResumeEnd_next (s : State) (ring : Nat) (seq : Nat) :
    ∃ t, execFaultResumeEnd ring seq s = .next t ∧ Keeps s t := by
  refine ⟨_, rfl, ?_⟩
  repeat' first
    | with_reducible first
      | assumption | exact Keeps.refl _ | refine Keeps.each ?_ _ _ (fun _ _ _ => ?_) | apply State.finish_keeps
      | apply State.finishIdle_keeps | apply State.front_keeps | apply State.recheckFreed_keeps | apply Keeps.ite
      | intro _
    | dsimp only | split

theorem execFaultRecordAccepted_next (s : State) (part : Nat) :
    ∃ t, execFaultRecordAccepted part s = .next t ∧ Keeps s t := by
  refine ⟨_, rfl, ?_⟩
  repeat' first
    | with_reducible first
      | assumption | exact Keeps.refl _ | apply State.takeDone_keeps | apply State.causeTo_keeps | apply Keeps.ite
    | dsimp only | split

theorem State.store_keeps {s0 s : State} (h0 : Keeps s0 s) (a : Nat) (mask : Word) (v : Word) :
    Keeps s0 (State.store s a mask v) := by
  unfold State.store
  repeat' first
    | with_reducible first
      | assumption | exact Keeps.refl _ | apply State.setReg_keeps
    | dsimp only | split

theorem State.writeStateLine_keeps {s0 s : State} (h0 : Keeps s0 s) (n : Nat) (use : Use) (st : Nat) :
    Keeps s0 (State.writeStateLine s n use st) := by
  unfold State.writeStateLine
  repeat' first
    | with_reducible first
      | assumption | exact Keeps.refl _ | apply State.writeHost_keeps | apply Keeps.ite
    | dsimp only | split

theorem State.arm_keeps {s0 s : State} (h0 : Keeps s0 s) (n : Nat) :
    Keeps s0 (State.arm s n) := by
  unfold State.arm
  repeat' first
    | with_reducible first
      | assumption | exact Keeps.refl _ | apply State.modRing_keeps | apply State.writeStateLine_keeps
    | dsimp only | split

theorem State.enableRing_keeps {s0 s : State} (h0 : Keeps s0 s) (n : Nat) :
    Keeps s0 (State.enableRing s n) := by
  unfold State.enableRing
  repeat' first
    | with_reducible first
      | assumption | exact Keeps.refl _ | apply State.setRing_keeps | apply State.modRing_keeps
      | apply State.arm_keeps | apply Keeps.ite
    | dsimp only | split

theorem State.dropDesc_keeps {s0 s : State} (h0 : Keeps s0 s) (n : Nat) :
    Keeps s0 (State.dropDesc s n) := by
  unfold State.dropDesc
  repeat' first
    | with_reducible first
      | assumption | exact Keeps.refl _ | apply KeepsParts.same
    | dsimp only | simp only [keeps_mk] | split

theorem State.readDescs_keeps {s0 s : State} (h0 : Keeps s0 s) (n : Nat) (count : Nat) :
    Keeps s0 (State.readDescs s n count) := by
  unfold State.readDescs
  repeat' first
    | with_reducible first
      | assumption | exact Keeps.refl _ | apply State.modRing_keeps | apply State.issue_keeps
      | apply State.dropDesc_keeps | apply Keeps.ite
    | dsimp only | split

theorem State.disableRing_keeps {s0 s : State} (h0 : Keeps s0 s) (n : Nat) :
    Keeps s0 (State.disableRing s n) := by
  unfold State.disableRing
  repeat' first
    | with_reducible first
      | assumption | exact Keeps.refl _ | apply State.setRing_keeps | apply State.dropDesc_keeps | apply Keeps.ite
    | dsimp only | split

theorem State.ringEnableBit_keeps {s0 s : State} (h0 : Keeps s0 s) (n : Nat) :
    Keeps s0 (State.ringEnableBit s n) := by
  unfold State.ringEnableBit
  repeat' first
    | with_reducible first
      | assumption | exact Keeps.refl _ | apply State.enableRing_keeps | apply State.disableRing_keeps
      | apply Keeps.ite
    | dsimp only | split

theorem State.acceptMarks_keeps {s0 s : State} (h0 : Keeps s0 s) (k : Nat) :
    Keeps s0 (State.acceptMarks s k) := by
  unfold State.acceptMarks
  repeat' first
    | with_reducible first
      | assumption | exact Keeps.refl _ | apply State.setCmd_keeps | apply Keeps.ite | apply KeepsParts.same
    | dsimp only | simp only [keeps_mk] | split

theorem State.acceptDesc_keeps {s0 s : State} (h0 : Keeps s0 s) (n : Nat) (d : Bytes) :
    Keeps s0 (State.acceptDesc s n d) := by
  unfold State.acceptDesc
  repeat' first
    | with_reducible first
      | assumption | exact Keeps.refl _ | apply State.modRing_keeps | apply State.setCmd_keeps
      | apply State.finish_keeps | apply State.dropOper_keeps | apply State.acceptMarks_keeps | apply Keeps.ite
    | dsimp only | split

theorem State.parkRing_keeps {s0 s : State} (h0 : Keeps s0 s) (n : Nat) :
    Keeps s0 (State.parkRing s n) := by
  unfold State.parkRing
  repeat' first
    | with_reducible first
      | assumption | exact Keeps.refl _ | apply State.modRing_keeps | apply State.count_keeps
      | apply State.writeStateLine_keeps
    | dsimp only | split

theorem State.notVisible_keeps {s0 s : State} (h0 : Keeps s0 s) (n : Nat) :
    Keeps s0 (State.notVisible s n) := by
  unfold State.notVisible
  repeat' first
    | with_reducible first
      | assumption | exact Keeps.refl _ | apply State.setRing_keeps | apply State.parkRing_keeps | apply Keeps.ite
    | dsimp only | split

theorem State.takeDescs_keeps {s0 s : State} (h0 : Keeps s0 s) (n : Nat) (y0 : Bool) (y1 : List Rd) :
    Keeps s0 (State.takeDescs s n y0 y1) := by
  induction y1 generalizing s y0 with
  | nil =>
    unfold State.takeDescs
    repeat' first
      | with_reducible first
        | assumption | exact Keeps.refl _ | apply State.acceptDesc_keeps | apply State.notVisible_keeps
        | apply Keeps.ite
      | dsimp only | split
  | cons d ds ih =>
    unfold State.takeDescs
    repeat' first
      | with_reducible first
        | assumption | exact Keeps.refl _ | apply ih | apply State.acceptDesc_keeps | apply State.notVisible_keeps
        | apply Keeps.ite
      | dsimp only | split

theorem State.takeLine_keeps {s0 s : State} (h0 : Keeps s0 s) (n : Nat) (line : Bytes) :
    Keeps s0 (State.takeLine s n line) := by
  unfold State.takeLine
  repeat' first
    | with_reducible first
      | assumption | exact Keeps.refl _ | apply State.setRing_keeps | apply State.count_keeps | apply State.arm_keeps
      | apply Keeps.ite
    | dsimp only | split

theorem State.putRecord_keeps {s0 s : State} (h0 : Keeps s0 s) (n : Nat) (i : Nat) (d : Bytes) :
    Keeps s0 (State.putRecord s n i d) := by
  unfold State.putRecord
  repeat' first
    | with_reducible first
      | assumption | exact Keeps.refl _ | apply State.writeHost_keeps
    | dsimp only | split

theorem State.replay_keeps {s0 s : State} (h0 : Keeps s0 s) (n : Nat) (y0 : Nat) (y1 : Nat) :
    Keeps s0 (State.replay s n y0 y1) := by
  induction y0 generalizing s y1 with
  | zero =>
    unfold State.replay
    repeat' first
      | with_reducible first
        | assumption | exact Keeps.refl _ | apply State.modRing_keeps | apply State.putRecord_keeps
      | dsimp only | split
  | succ k ih =>
    unfold State.replay
    repeat' first
      | with_reducible first
        | assumption | exact Keeps.refl _ | apply ih | apply State.modRing_keeps | apply State.putRecord_keeps
      | dsimp only | split

theorem State.resumeRing_keeps {s0 s : State} (h0 : Keeps s0 s) (n : Nat) :
    Keeps s0 (State.resumeRing s n) := by
  unfold State.resumeRing
  repeat' first
    | with_reducible first
      | assumption | exact Keeps.refl _ | refine Keeps.foldl ?_ _ _ (fun _ _ _ => ?_)
      | refine Keeps.foldl_fst _ _ (fun _ _ _ => ?_) _ ?_ | refine Keeps.foldl_snd _ _ (fun _ _ _ => ?_) _ ?_
      | apply State.setRing_keeps | apply State.writeStateLine_keeps | apply State.arm_keeps
      | apply State.replay_keeps | apply Keeps.ite | refine Keeps.of_fst (by assumption) ?_
      | refine Keeps.of_snd (by assumption) ?_ | intro _
    | dsimp only | split

theorem State.endRing_keeps {s0 s : State} (h0 : Keeps s0 s) (n : Nat) :
    Keeps s0 (State.endRing s n) := by
  unfold State.endRing
  repeat' first
    | with_reducible first
      | assumption | exact Keeps.refl _ | apply State.modRing_keeps
    | dsimp only | split

theorem execRingEnable_next (s : State) (ring : Nat) :
    ∃ t, execRingEnable ring s = .next t ∧ Keeps s t := by
  refine ⟨_, rfl, ?_⟩
  repeat' first
    | with_reducible first
      | assumption | exact Keeps.refl _ | apply State.store_keeps | apply State.ringEnableBit_keeps | apply Keeps.ite
    | dsimp only | split

theorem execRingDisable_next (s : State) (ring : Nat) :
    ∃ t, execRingDisable ring s = .next t ∧ Keeps s t := by
  refine ⟨_, rfl, ?_⟩
  repeat' first
    | with_reducible first
      | assumption | exact Keeps.refl _ | apply State.store_keeps | apply State.ringEnableBit_keeps | apply Keeps.ite
    | dsimp only | split

theorem execRingServeTurn_next (s : State) (ring : Nat) :
    ∃ t, execRingServeTurn ring s = .next t ∧ Keeps s t := by
  refine ⟨_, rfl, ?_⟩
  repeat' first
    | with_reducible first
      | assumption | exact Keeps.refl _ | apply State.arm_keeps | apply State.readDescs_keeps | apply Keeps.ite
      | apply KeepsParts.same
    | dsimp only | simp only [keeps_mk] | split

theorem execDescriptorReadData_next (s : State) (ring : Nat) (descs : List Rd) :
    ∃ t, execDescriptorReadData ring descs s = .next t ∧ Keeps s t := by
  refine ⟨_, rfl, ?_⟩
  repeat' first
    | with_reducible first
      | assumption | exact Keeps.refl _ | apply State.setRing_keeps | apply State.dropDesc_keeps
      | apply State.takeDescs_keeps | apply Keeps.ite
    | dsimp only | split

theorem execDescriptorRereadTimer_next (s : State) (ring : Nat) :
    ∃ t, execDescriptorRereadTimer ring s = .next t ∧ Keeps s t := by
  refine ⟨_, rfl, ?_⟩
  repeat' first
    | with_reducible first
      | assumption | exact Keeps.refl _ | apply State.setRing_keeps | apply State.readDescs_keeps | apply Keeps.ite
    | dsimp only | split

theorem execArmWriteAccepted_next (s : State) (ring : Nat) :
    ∃ t, execArmWriteAccepted ring s = .next t ∧ Keeps s t := by
  refine ⟨_, rfl, ?_⟩
  repeat' first
    | with_reducible first
      | assumption | exact Keeps.refl _ | apply State.modRing_keeps | apply State.takeDone_keeps | apply Keeps.ite
    | dsimp only | split

theorem execDoorbellRereadData_next (s : State) (ring : Nat) (line : Bytes) :
    ∃ t, execDoorbellRereadData ring line s = .next t ∧ Keeps s t := by
  refine ⟨_, rfl, ?_⟩
  repeat' first
    | with_reducible first
      | assumption | exact Keeps.refl _ | apply State.takeLine_keeps | apply Keeps.ite
    | dsimp only | split

theorem execHostSnoop_next (s : State) (addr : Nat) (invalidating : Bool) :
    ∃ t, execHostSnoop addr invalidating s = .next t ∧ Keeps s t := by
  refine ⟨_, rfl, ?_⟩
  repeat' first
    | with_reducible first
      | assumption | exact Keeps.refl _ | apply Keeps.ite | apply KeepsParts.same
    | dsimp only | simp only [keeps_mk] | split

theorem State.doorbellWrite_keeps {s0 s : State} (h0 : Keeps s0 s) (qp : Nat) (off : Nat) (data : Bytes) :
    Keeps s0 (State.doorbellWrite s qp off data) := by
  unfold State.doorbellWrite
  repeat' first
    | with_reducible first
      | assumption | exact Keeps.refl _ | apply State.setRing_keeps | apply State.count_keeps
      | apply State.takeLine_keeps | apply Keeps.ite
    | dsimp only | split

theorem execDoorbellWindowWrite_next (s : State) (qp : Nat) (off : Nat) (data : Bytes) :
    ∃ t, execDoorbellWindowWrite qp off data s = .next t ∧ Keeps s t := by
  refine ⟨_, rfl, ?_⟩
  repeat' first
    | with_reducible first
      | assumption | exact Keeps.refl _ | apply State.doorbellWrite_keeps | apply Keeps.ite
    | dsimp only | split

theorem execCompletionRecordWrite_next (s : State) (ring : Nat) :
    ∃ t, execCompletionRecordWrite ring s = .next t ∧ Keeps s t := by
  refine ⟨_, rfl, ?_⟩
  repeat' first
    | with_reducible first
      | assumption | exact Keeps.refl _ | apply State.modRing_keeps | apply State.putRecord_keeps | apply Keeps.ite
    | dsimp only | split

theorem State.resumeSources_keeps {s0 s : State} (h0 : Keeps s0 s) (p : Nat) :
    Keeps s0 (State.resumeSources s p) := by
  unfold State.resumeSources
  repeat' first
    | with_reducible first
      | assumption | exact Keeps.refl _ | refine Keeps.each ?_ _ _ (fun _ _ _ => ?_) | apply State.deliver_keeps
      | apply Keeps.ite | intro _
    | dsimp only | split

theorem State.resumeGo_keeps {s0 s : State} (h0 : Keeps s0 s) (p : Nat) :
    Keeps s0 (State.resumeGo s p) := by
  unfold State.resumeGo
  repeat' first
    | with_reducible first
      | assumption | exact Keeps.refl _ | apply State.modPart_keeps | apply State.resumeSources_keeps
      | apply Keeps.ite
    | dsimp only | split

theorem State.resumed_keeps {s0 s : State} (h0 : Keeps s0 s) (p : Nat) :
    Keeps s0 (State.resumed s p) := by
  unfold State.resumed
  repeat' first
    | with_reducible first
      | assumption | exact Keeps.refl _ | apply State.modPart_keeps | apply State.resumeGo_keeps
    | dsimp only | split

theorem execCompletionRecordAccepted_next (s : State) (ring : Nat) :
    ∃ t, execCompletionRecordAccepted ring s = .next t ∧ Keeps s t := by
  refine ⟨_, rfl, ?_⟩
  repeat' first
    | with_reducible first
      | assumption | exact Keeps.refl _ | apply State.takeDone_keeps | apply State.raise_keeps
      | apply State.resumeGo_keeps
    | dsimp only | split

theorem State.storeImage_keeps {s0 s : State} (h0 : Keeps s0 s) (n : Nat) (img : Bytes) :
    Keeps s0 (State.storeImage s n img) := by
  unfold State.storeImage
  repeat' first
    | with_reducible first
      | assumption | exact Keeps.refl _ | refine Keeps.each ?_ _ _ (fun _ _ _ => ?_) | apply State.store_keeps
      | intro _
    | dsimp only | split

theorem State.ringSetup_keeps {s0 s : State} (h0 : Keeps s0 s) (k : Nat) (c : Cmd) (rd : Rd) :
    Keeps s0 (State.ringSetup s k c rd) := by
  unfold State.ringSetup
  repeat' first
    | with_reducible first
      | assumption | exact Keeps.refl _ | apply State.finish_keeps | apply State.openAsk_keeps
      | apply State.operAsk_keeps | apply State.enableRing_keeps | apply State.disableRing_keeps
      | apply State.resumeRing_keeps | apply State.storeImage_keeps | apply Keeps.ite
      | refine Keeps.of_snd (by assumption) ?_
    | dsimp only | split

theorem execRingSetup_next (s : State) (ring : Nat) (seq : Nat) (img : Rd) :
    ∃ t, execRingSetup ring seq img s = .next t ∧ Keeps s t := by
  refine ⟨_, rfl, ?_⟩
  repeat' first
    | with_reducible first
      | assumption | exact Keeps.refl _ | apply State.front_keeps | apply State.ringSetup_keeps | intro _
    | dsimp only | split

theorem State.attached_keeps {s0 s : State} (h0 : Keeps s0 s) (p : Nat) (offer : Nat) (remote : Bool) :
    Keeps s0 (State.attached s p offer remote) := by
  unfold State.attached
  repeat' first
    | with_reducible first
      | assumption | exact Keeps.refl _ | apply State.modPart_keeps | apply Keeps.ite
    | dsimp only | split

theorem State.attachLocal_keeps {s0 s : State} (h0 : Keeps s0 s) (p : Nat) :
    Keeps s0 (State.attachLocal s p) := by
  unfold State.attachLocal
  repeat' first
    | with_reducible first
      | assumption | exact Keeps.refl _ | refine Keeps.each ?_ _ _ (fun _ _ _ => ?_) | apply State.causeTo_keeps
      | apply State.resumeRing_keeps | apply State.resumed_keeps | apply State.attached_keeps | apply Keeps.ite
      | intro _
    | dsimp only | split

theorem State.attachNow_keeps {s0 s : State} (h0 : Keeps s0 s) (part : Nat) :
    Keeps s0 (State.attachNow s part) := by
  unfold State.attachNow
  repeat' first
    | with_reducible first
      | assumption | exact Keeps.refl _ | apply State.modPart_keeps | apply State.attachLocal_keeps | apply Keeps.ite
    | dsimp only | split

theorem execAttach_next (s : State) (part : Nat) :
    ∃ t, execAttach part s = .next t ∧ Keeps s t := by
  refine ⟨_, rfl, ?_⟩
  repeat' first
    | with_reducible first
      | assumption | exact Keeps.refl _ | apply State.attachNow_keeps | apply Keeps.ite | apply KeepsParts.same
    | dsimp only | simp only [keeps_mk] | split

theorem State.makeDbWindow_keeps {s0 s : State} (h0 : Keeps s0 s) (p : Nat) (qp : Nat) (tag : Nat) :
    Keeps s0 (State.makeDbWindow s p qp tag) := by
  unfold State.makeDbWindow
  repeat' first
    | with_reducible first
      | assumption | exact Keeps.refl _ | apply KeepsParts.same
    | dsimp only | simp only [keeps_mk] | split

theorem State.attachRemote_keeps {s0 s : State} (h0 : Keeps s0 s) (p : Nat) (qp : Nat) (tag : Nat) (blk : Bytes) :
    Keeps s0 (State.attachRemote s p qp tag blk).1 := by
  unfold State.attachRemote
  repeat' first
    | with_reducible first
      | assumption | exact Keeps.refl _ | apply State.modRing_keeps | apply State.modPart_keeps
      | apply State.causeTo_keeps | apply State.ringEnableBit_keeps | apply State.resumeRing_keeps
      | apply State.resumed_keeps | apply State.storeImage_keeps | apply State.attached_keeps
      | apply State.makeDbWindow_keeps | apply Keeps.ite
    | dsimp only | split

theorem execPartAttach_next (s : State) (ring : Nat) (seq : Nat) :
    ∃ t, execPartAttach ring seq s = .next t ∧ Keeps s t := by
  refine ⟨_, rfl, ?_⟩
  repeat' first
    | with_reducible first
      | assumption | exact Keeps.refl _ | apply State.modPart_keeps | apply State.setPhase_keeps
      | apply State.issue_keeps | apply State.finish_keeps | apply State.front_keeps | apply Keeps.ite | intro _
    | dsimp only | split

theorem State.attachBlockRead_keeps {s0 s : State} (h0 : Keeps s0 s) (k : Nat) (p : Nat) (c : Cmd) (rd : Rd) :
    Keeps s0 (State.attachBlockRead s k p c rd) := by
  unfold State.attachBlockRead
  repeat' first
    | with_reducible first
      | assumption | exact Keeps.refl _ | apply State.modPart_keeps | apply State.freeVal_keeps
      | apply State.issue_keeps | apply State.attachRemote_keeps | apply Keeps.ite
      | refine Keeps.of_fst (by assumption) ?_ | refine Keeps.of_snd (by assumption) ?_
      | refine Keeps.of_fst3 (by assumption) ?_
    | dsimp only | split

theorem State.attachDone_keeps {s0 s : State} (h0 : Keeps s0 s) (k : Nat) (p : Nat) :
    Keeps s0 (State.attachDone s k p) := by
  unfold State.attachDone
  repeat' first
    | with_reducible first
      | assumption | exact Keeps.refl _ | apply State.modPart_keeps | apply State.finish_keeps
      | apply State.attachRemote_keeps | apply Keeps.ite | refine Keeps.of_fst (by assumption) ?_
      | refine Keeps.of_fst3 (by assumption) ?_
    | dsimp only | split

theorem State.attachFailed_keeps {s0 s : State} (h0 : Keeps s0 s) (k : Nat) (p : Nat) :
    Keeps s0 (State.attachFailed s k p) := by
  unfold State.attachFailed
  repeat' first
    | with_reducible first
      | assumption | exact Keeps.refl _ | apply State.modPart_keeps | apply State.finish_keeps
    | dsimp only | split

theorem State.dropPost_keeps {s0 s : State} (h0 : Keeps s0 s) (k : Nat) :
    Keeps s0 (State.dropPost s k) := by
  unfold State.dropPost
  repeat' first
    | with_reducible first
      | assumption | exact Keeps.refl _ | apply State.leaveQueue_keeps | apply KeepsParts.same
    | dsimp only | simp only [keeps_mk] | split

theorem State.endIdle_keeps {s0 s : State} (h0 : Keeps s0 s) (ks : List Nat) (st : Nat) :
    Keeps s0 (State.endIdle s ks st) := by
  unfold State.endIdle
  repeat' first
    | with_reducible first
      | assumption | exact Keeps.refl _ | refine Keeps.each ?_ _ _ (fun _ _ _ => ?_) | apply State.finishIdle_keeps
      | apply State.recheckFreed_keeps | apply State.dropPost_keeps | intro _
    | dsimp only | split

theorem execPartDetach_next (s : State) (ring : Nat) (seq : Nat) :
    ∃ t, execPartDetach ring seq s = .next t ∧ Keeps s t := by
  refine ⟨_, rfl, ?_⟩
  repeat' first
    | with_reducible first
      | assumption | exact Keeps.refl _ | refine Keeps.each ?_ _ _ (fun _ _ _ => ?_) | apply State.modPart_keeps
      | apply State.setPhase_keeps | apply State.finish_keeps | apply State.front_keeps
      | apply State.disableRing_keeps | apply State.endIdle_keeps | apply Keeps.ite | intro _
    | dsimp only | split

theorem State.clearPart_keeps {s0 s : State} (h0 : Keeps s0 s) (p : Nat) :
    Keeps s0 (State.clearPart s p) := by
  unfold State.clearPart
  repeat' first
    | with_reducible first
      | assumption | exact Keeps.refl _ | refine Keeps.each ?_ _ _ (fun _ _ _ => ?_) | apply State.modPart_keeps
      | apply State.removeSeg_keeps | apply KeepsParts.same | intro _
    | dsimp only | simp only [keeps_mk] | split

theorem State.freePart_keeps {s0 s : State} (h0 : Keeps s0 s) (p : Nat) :
    Keeps s0 (State.freePart s p) := by
  unfold State.freePart
  repeat' first
    | with_reducible first
      | assumption | exact Keeps.refl _ | refine Keeps.each ?_ _ _ (fun _ _ _ => ?_) | apply State.modPart_keeps
      | apply State.setSrc_keeps | intro _
    | dsimp only | split

theorem execDetachFinish_next (s : State) (part : Nat) :
    ∃ t, execDetachFinish part s = .next t ∧ Keeps s t := by
  refine ⟨_, rfl, ?_⟩
  repeat' first
    | with_reducible first
      | assumption | exact Keeps.refl _ | refine Keeps.each ?_ _ _ (fun _ _ _ => ?_) | apply State.modPart_keeps
      | apply State.finish_keeps | apply State.snoop_keeps | apply State.endRing_keeps | apply State.clearPart_keeps
      | apply State.freePart_keeps | apply Keeps.ite | intro _
    | dsimp only | split

theorem execRingDrainDone_next (s : State) (ring : Nat) :
    ∃ t, execRingDrainDone ring s = .next t ∧ Keeps s t := by
  refine ⟨_, rfl, ?_⟩
  repeat' first
    | with_reducible first
      | assumption | exact Keeps.refl _ | apply State.endRing_keeps | apply State.freePart_keeps | apply Keeps.ite
    | dsimp only | split

theorem State.failRecord_keeps {s0 s : State} (h0 : Keeps s0 s) (k : Nat) :
    Keeps s0 (State.failRecord s k) := by
  unfold State.failRecord
  repeat' first
    | with_reducible first
      | assumption | exact Keeps.refl _ | apply State.modRing_keeps
    | dsimp only | split

theorem State.resultDropped_keeps {s0 s : State} (h0 : Keeps s0 s) (k : Nat) :
    Keeps s0 (State.resultDropped s k) := by
  unfold State.resultDropped
  repeat' first
    | with_reducible first
      | assumption | exact Keeps.refl _ | apply State.modPost_keeps | apply State.failRecord_keeps
    | dsimp only | split

theorem State.dropXfers_keeps {s0 s : State} (h0 : Keeps s0 s) (pick : Xfer → Bool) :
    Keeps s0 (State.dropXfers s pick) := by
  unfold State.dropXfers
  repeat' first
    | with_reducible first
      | assumption | exact Keeps.refl _ | refine Keeps.each ?_ _ _ (fun _ _ _ => ?_) | apply State.modRing_keeps
      | apply State.setSrc_keeps | apply State.finishIdle_keeps | apply State.resumeGo_keeps
      | apply State.attachFailed_keeps | apply State.resultDropped_keeps | apply KeepsParts.same | intro _
    | dsimp only | simp only [keeps_mk] | split

theorem State.detachPart_keeps {s0 s : State} (h0 : Keeps s0 s) (p : Nat) :
    Keeps s0 (State.detachPart s p) := by
  unfold State.detachPart
  repeat' first
    | with_reducible first
      | assumption | exact Keeps.refl _ | refine Keeps.each ?_ _ _ (fun _ _ _ => ?_)
      | refine Keeps.foldl ?_ _ _ (fun _ _ _ => ?_) | refine Keeps.foldl_fst _ _ (fun _ _ _ => ?_) _ ?_
      | refine Keeps.foldl_snd _ _ (fun _ _ _ => ?_) _ ?_ | apply State.modPart_keeps | apply State.dropDesc_keeps
      | apply State.endRing_keeps | apply State.freePart_keeps | apply Keeps.ite | apply KeepsParts.same
      | refine Keeps.of_fst (by assumption) ?_ | refine Keeps.of_snd (by assumption) ?_ | intro _
    | dsimp only | simp only [keeps_mk] | split

theorem execCoalesceTimerExpiry_next (s : State) (src : Nat) :
    ∃ t, execCoalesceTimerExpiry src s = .next t ∧ Keeps s t := by
  refine ⟨_, rfl, ?_⟩
  repeat' first
    | with_reducible first
      | assumption | exact Keeps.refl _ | apply State.deliver_keeps | apply Keeps.ite
    | dsimp only | split

theorem execEvtAck_next (s : State) (value : Word) :
    ∃ t, execEvtAck value s = .next t ∧ Keeps s t := by
  refine ⟨_, rfl, ?_⟩
  repeat' first
    | with_reducible first
      | assumption | exact Keeps.refl _ | apply State.count_keeps | apply State.rearm_keeps | apply Keeps.ite
    | dsimp only | split

theorem execTrigger_next (s : State) (value : Word) :
    ∃ t, execTrigger value s = .next t ∧ Keeps s t := by
  refine ⟨_, rfl, ?_⟩
  repeat' first
    | with_reducible first
      | assumption | exact Keeps.refl _ | apply Keeps.ite | apply KeepsParts.same
    | dsimp only | simp only [keeps_mk] | split

theorem execTimePairComplete_next (s : State) :
    ∃ t, execTimePairComplete s = .next t ∧ Keeps s t := by
  refine ⟨_, rfl, ?_⟩
  repeat' first
    | with_reducible first
      | assumption | exact Keeps.refl _ | apply Keeps.ite | apply KeepsParts.same
    | dsimp only | simp only [keeps_mk] | split

theorem State.cntSelect_keeps {s0 s : State} (h0 : Keeps s0 s) (value : Word) :
    Keeps s0 (State.cntSelect s value) := by
  unfold State.cntSelect
  repeat' first
    | with_reducible first
      | assumption | exact Keeps.refl _ | apply KeepsParts.same
    | dsimp only | simp only [keeps_mk] | split

theorem execCntSel_next (s : State) (value : Word) :
    ∃ t, execCntSel value s = .next t ∧ Keeps s t := by
  refine ⟨_, rfl, ?_⟩
  repeat' first
    | with_reducible first
      | assumption | exact Keeps.refl _ | apply State.cntSelect_keeps
    | dsimp only | split

theorem State.readCntLo_keeps {s0 s : State} (h0 : Keeps s0 s) :
    Keeps s0 (State.readCntLo s) := by
  unfold State.readCntLo
  repeat' first
    | with_reducible first
      | assumption | exact Keeps.refl _ | apply State.setCtr_keeps | apply Keeps.ite | apply KeepsParts.same
    | dsimp only | simp only [keeps_mk] | split

theorem execCntLo_next (s : State) :
    ∃ t, execCntLo s = .next t ∧ Keeps s t := by
  refine ⟨_, rfl, ?_⟩
  repeat' first
    | with_reducible first
      | assumption | exact Keeps.refl _ | apply State.readCntLo_keeps
    | dsimp only | split

end Sys2Proof.Machine
end

