-- ==== Sys2Proof/Laws/KeepTile.lean ====
section
/-! SUPPORT. `Keeps` for the tile: issue, array, vector engine, transfers, and how a post ends:
the waiting commands, the fuses and the canonical form of memory stay. -/

namespace Sys2Proof.Machine
set_option linter.unusedTactic false
set_option linter.unreachableTactic false

theorem State.spWrite_keeps {s0 s : State} (h0 : Keeps s0 s) (t : Nat) (line : Nat) (b : Bytes) (poison : List Nat) :
    Keeps s0 (State.spWrite s t line b poison) := by
  unfold State.spWrite
  repeat' first
    | with_reducible first
      | assumption | exact Keeps.refl _ | apply KeepsParts.same | refine KeepsParts.write ?_ (fun _ => ?_)
      | exact Memory.wf_empty | refine Memory.wf_writeN _ _ _ ?_ | apply Memory.wf_writePart | apply Memory.wf_mark
      | apply Memory.wf_zero | apply Memory.wf_zeroBut | apply Memory.wf_writeSheets
      | refine Memory.wf_foldl _ _ (fun _ _ _ => ?_) _ ?_
    | dsimp only | simp only [keeps_mk] | split

theorem State.spPatch_keeps {s0 s : State} (h0 : Keeps s0 s) (t : Nat) (a : Nat) (b : Bytes) :
    Keeps s0 (State.spPatch s t a b) := by
  unfold State.spPatch
  repeat' first
    | with_reducible first
      | assumption | exact Keeps.refl _ | apply KeepsParts.same | refine KeepsParts.write ?_ (fun _ => ?_)
      | exact Memory.wf_empty | refine Memory.wf_writeN _ _ _ ?_ | apply Memory.wf_writePart | apply Memory.wf_mark
      | apply Memory.wf_zero | apply Memory.wf_zeroBut | apply Memory.wf_writeSheets
      | refine Memory.wf_foldl _ _ (fun _ _ _ => ?_) _ ?_
    | dsimp only | simp only [keeps_mk] | split

theorem State.setCtx_keeps {s0 s : State} (h0 : Keeps s0 s) (t : Nat) (c : Nat) (v : Ctx) :
    Keeps s0 (State.setCtx s t c v) := by
  unfold State.setCtx
  repeat' first
    | with_reducible first
      | assumption | exact Keeps.refl _ | apply State.modTile_keeps
    | dsimp only | split

theorem State.modCtx_keeps {s0 s : State} (h0 : Keeps s0 s) (t : Nat) (c : Nat) (f : Ctx → Ctx) :
    Keeps s0 (State.modCtx s t c f) := by
  unfold State.modCtx
  repeat' first
    | with_reducible first
      | assumption | exact Keeps.refl _ | apply State.setCtx_keeps
    | dsimp only | split

theorem State.stopGather_keeps {s0 s : State} (h0 : Keeps s0 s) (k : Nat) :
    Keeps s0 (State.stopGather s k) := by
  unfold State.stopGather
  repeat' first
    | with_reducible first
      | assumption | exact Keeps.refl _ | apply State.modPost_keeps | apply Keeps.ite | apply KeepsParts.same
    | dsimp only | simp only [keeps_mk] | split

theorem State.failPost_keeps {s0 s : State} (h0 : Keeps s0 s) (k : Nat) (st : Nat) :
    Keeps s0 (State.failPost s k st) := by
  unfold State.failPost
  repeat' first
    | with_reducible first
      | assumption | exact Keeps.refl _ | apply State.modPost_keeps | apply State.stopGather_keeps | apply Keeps.ite
      | apply KeepsParts.same
    | dsimp only | simp only [keeps_mk] | split

theorem State.failCtx_keeps {s0 s : State} (h0 : Keeps s0 s) (t : Nat) (c : Nat) (st : Nat) :
    Keeps s0 (State.failCtx s t c st) := by
  unfold State.failCtx
  repeat' first
    | with_reducible first
      | assumption | exact Keeps.refl _ | apply State.modCtx_keeps | apply State.failPost_keeps
    | dsimp only | split

theorem State.flagPost_keeps {s0 s : State} (h0 : Keeps s0 s) (t : Nat) (c : Nat) (bit : Nat) :
    Keeps s0 (State.flagPost s t c bit) := by
  unfold State.flagPost
  repeat' first
    | with_reducible first
      | assumption | exact Keeps.refl _ | apply State.modPost_keeps
    | dsimp only | split

theorem State.release_keeps {s0 s : State} (h0 : Keeps s0 s) (t : Nat) (c : Nat) (w : Bytes) :
    Keeps s0 (State.release s t c w) := by
  unfold State.release
  repeat' first
    | with_reducible first
      | assumption | exact Keeps.refl _ | refine Keeps.foldl ?_ _ _ (fun _ _ _ => ?_)
      | refine Keeps.foldl_fst _ _ (fun _ _ _ => ?_) _ ?_ | refine Keeps.foldl_snd _ _ (fun _ _ _ => ?_) _ ?_
      | apply State.modCtx_keeps | refine Keeps.of_fst (by assumption) ?_ | refine Keeps.of_snd (by assumption) ?_
      | intro _
    | dsimp only | split

theorem State.setOut_keeps {s0 s : State} (h0 : Keeps s0 s) (t : Nat) (c : Nat) (w : Bytes) :
    Keeps s0 (State.setOut s t c w) := by
  unfold State.setOut
  repeat' first
    | with_reducible first
      | assumption | exact Keeps.refl _ | refine Keeps.foldl ?_ _ _ (fun _ _ _ => ?_)
      | refine Keeps.foldl_fst _ _ (fun _ _ _ => ?_) _ ?_ | refine Keeps.foldl_snd _ _ (fun _ _ _ => ?_) _ ?_
      | apply State.count_keeps | apply State.setCtx_keeps | apply State.failCtx_keeps | apply Keeps.ite
      | refine Keeps.of_fst (by assumption) ?_ | refine Keeps.of_snd (by assumption) ?_ | intro _
    | dsimp only | split

theorem State.signal_keeps {s0 s : State} (h0 : Keeps s0 s) (t : Nat) (c : Nat) (w : Bytes) :
    Keeps s0 (State.signal s t c w) := by
  unfold State.signal
  repeat' first
    | with_reducible first
      | assumption | exact Keeps.refl _ | apply State.release_keeps | apply State.setOut_keeps
    | dsimp only | split

theorem State.consume_keeps {s0 s : State} (h0 : Keeps s0 s) (t : Nat) (c : Nat) (lines : List Nat) :
    Keeps s0 (State.consume s t c lines) := by
  unfold State.consume
  repeat' first
    | with_reducible first
      | assumption | exact Keeps.refl _ | refine Keeps.each ?_ _ _ (fun _ _ _ => ?_) | apply State.modTile_keeps
      | apply State.plogAdd_keeps | apply State.failCtx_keeps | apply Keeps.ite | apply KeepsParts.same | intro _
    | dsimp only | simp only [keeps_mk] | split

theorem State.modBank_keeps {s0 s : State} (h0 : Keeps s0 s) (t : Nat) (b : Nat) (f : Bank → Bank) :
    Keeps s0 (State.modBank s t b f) := by
  unfold State.modBank
  repeat' first
    | with_reducible first
      | assumption | exact Keeps.refl _ | apply State.modTile_keeps
    | dsimp only | split

theorem State.advance_keeps {s0 s : State} (h0 : Keeps s0 s) (t : Nat) (c : Nat) :
    Keeps s0 (State.advance s t c) := by
  unfold State.advance
  repeat' first
    | with_reducible first
      | assumption | exact Keeps.refl _ | apply State.setCtx_keeps | apply State.flagPost_keeps | apply Keeps.ite
    | dsimp only | split

theorem State.countSwitch_keeps {s0 s : State} (h0 : Keeps s0 s) (t : Nat) (c : Nat) :
    Keeps s0 (State.countSwitch s t c) := by
  unfold State.countSwitch
  repeat' first
    | with_reducible first
      | assumption | exact Keeps.refl _ | apply State.count_keeps | apply Keeps.ite
    | dsimp only | split

theorem State.issue1_keeps {s0 s : State} (h0 : Keeps s0 s) (t : Nat) (c : Nat) (op : Nat)
    (go : State → Bytes → Ctx → State) (hgo : ∀ t x1 x2, Keeps s0 t → Keeps s0 (go t x1 x2)) :
    Keeps s0 (State.issue1 s t c op go) := by
  unfold State.issue1
  repeat' first
    | with_reducible first
      | assumption | exact Keeps.refl _ | apply hgo | apply State.advance_keeps | apply State.countSwitch_keeps
      | apply Keeps.ite | intro _
    | dsimp only | split

theorem State.fillCompute_keeps {s0 s : State} (h0 : Keeps s0 s) (t : Nat) (j : FillJob) (b : WBlock) :
    Keeps s0 (State.fillCompute s t j b).1 := by
  unfold State.fillCompute
  repeat' first
    | with_reducible first
      | assumption | exact Keeps.refl _ | refine Keeps.foldl ?_ _ _ (fun _ _ _ => ?_)
      | refine Keeps.foldl_fst _ _ (fun _ _ _ => ?_) _ ?_ | refine Keeps.foldl_snd _ _ (fun _ _ _ => ?_) _ ?_
      | apply State.modBank_keeps | apply Keeps.ite | refine Keeps.of_fst (by assumption) ?_
      | refine Keeps.of_snd (by assumption) ?_ | intro _
    | dsimp only | split

theorem State.fillEnd_keeps {s0 s : State} (h0 : Keeps s0 s) (t : Nat) (j : FillJob) :
    Keeps s0 (State.fillEnd s t j) := by
  unfold State.fillEnd
  repeat' first
    | with_reducible first
      | assumption | exact Keeps.refl _ | apply State.setOut_keeps | apply State.modBank_keeps | apply Keeps.ite
    | dsimp only | split

theorem State.dropFill_keeps {s0 s : State} (h0 : Keeps s0 s) (t : Nat) (j : FillJob) :
    Keeps s0 (State.dropFill s t j) := by
  unfold State.dropFill
  repeat' first
    | with_reducible first
      | assumption | exact Keeps.refl _ | apply State.modTile_keeps
    | dsimp only | split

theorem State.plainResults_keeps {s0 s : State} (h0 : Keeps s0 s) (v : Post) (n : Nat) :
    Keeps s0 (State.plainResults s v n).2 := by
  unfold State.plainResults
  repeat' first
    | with_reducible first
      | assumption | exact Keeps.refl _ | apply State.freeVals_keeps | refine Keeps.of_snd (by assumption) ?_
    | dsimp only | split

theorem State.sealResults_keeps {s0 s : State} (h0 : Keeps s0 s) (k : Nat) (c : Cmd) (v : Post) :
    Keeps s0 (State.sealResults s k c v) := by
  unfold State.sealResults
  repeat' first
    | with_reducible first
      | assumption | exact Keeps.refl _ | apply State.count_keeps | apply State.writeSeg_keeps
      | apply State.modSlot_keeps | apply State.plainResults_keeps | refine Keeps.of_snd (by assumption) ?_
    | dsimp only | split

theorem State.freeOldVersion_keeps {s0 s : State} (h0 : Keeps s0 s) :
    Keeps s0 (State.freeOldVersion s) := by
  unfold State.freeOldVersion
  repeat' first
    | with_reducible first
      | assumption | exact Keeps.refl _ | apply State.causeTo_keeps | apply Keeps.ite | apply KeepsParts.same
    | dsimp only | simp only [keeps_mk] | split

theorem State.dropEsc_keeps {s0 s : State} (h0 : Keeps s0 s) (k : Nat) :
    Keeps s0 (State.dropEsc s k) := by
  unfold State.dropEsc
  repeat' first
    | with_reducible first
      | assumption | exact Keeps.refl _ | apply KeepsParts.same
    | dsimp only | simp only [keeps_mk] | split

theorem State.closeEsc_keeps {s0 s : State} (h0 : Keeps s0 s) (k : Nat) :
    Keeps s0 (State.closeEsc s k) := by
  unfold State.closeEsc
  repeat' first
    | with_reducible first
      | assumption | exact Keeps.refl _ | apply Keeps.ite | apply KeepsParts.same
    | dsimp only | simp only [keeps_mk] | split

theorem State.clearPost_keeps {s0 s : State} (h0 : Keeps s0 s) (k : Nat) :
    Keeps s0 (State.clearPost s k) := by
  unfold State.clearPost
  repeat' first
    | with_reducible first
      | assumption | exact Keeps.refl _ | apply State.cacheDrop_keeps | apply State.dropPost_keeps
      | apply State.freeOldVersion_keeps | apply KeepsParts.same
    | dsimp only | simp only [keeps_mk] | split

theorem State.stepTaken_keeps {s0 s : State} (h0 : Keeps s0 s) (step : Option Nat) :
    Keeps s0 (State.stepTaken s step) := by
  unfold State.stepTaken
  repeat' first
    | with_reducible first
      | assumption | exact Keeps.refl _ | refine Keeps.each ?_ _ _ (fun _ _ _ => ?_) | apply State.setCtr_keeps
      | apply Keeps.ite | intro _
    | dsimp only | split

theorem State.completePost_keeps {s0 s : State} (h0 : Keeps s0 s) (k : Nat) (st : Nat) :
    Keeps s0 (State.completePost s k st) := by
  unfold State.completePost
  repeat' first
    | with_reducible first
      | assumption | exact Keeps.refl _ | apply State.count_keeps | apply State.causeAll_keeps
      | apply State.finish_keeps | apply State.sealResults_keeps | apply State.dropEsc_keeps
      | apply State.closeEsc_keeps | apply State.clearPost_keeps | apply State.stepTaken_keeps | apply Keeps.ite
    | dsimp only | split

theorem State.settle_keeps {s0 s : State} (h0 : Keeps s0 s) (k : Nat) :
    Keeps s0 (State.settle s k) := by
  unfold State.settle
  repeat' first
    | with_reducible first
      | assumption | exact Keeps.refl _ | apply State.completePost_keeps | apply Keeps.ite
    | dsimp only | split

theorem execFill_next (s : State) (tile : Nat) (ctx : Nat) :
    ∃ t, execFill tile ctx s = .next t ∧ Keeps s t := by
  refine ⟨_, rfl, ?_⟩
  repeat' first
    | with_reducible first
      | assumption | exact Keeps.refl _ | apply State.modTile_keeps | apply State.release_keeps
      | apply State.modBank_keeps | apply State.issue1_keeps | apply State.fillEnd_keeps | apply Keeps.ite | intro _
    | dsimp only | split

theorem execWeightLoadDone_next (s : State) (tile : Nat) :
    ∃ t, execWeightLoadDone tile s = .next t ∧ Keeps s t := by
  refine ⟨_, rfl, ?_⟩
  repeat' first
    | with_reducible first
      | assumption | exact Keeps.refl _ | apply State.count_keeps | apply State.modTile_keeps | apply Keeps.ite
    | dsimp only | split

theorem State.stopFill_keeps {s0 s : State} (h0 : Keeps s0 s) (t : Nat) (j : FillJob) :
    Keeps s0 (State.stopFill s t j) := by
  unfold State.stopFill
  repeat' first
    | with_reducible first
      | assumption | exact Keeps.refl _ | apply State.modTile_keeps
    | dsimp only | split

theorem State.skew_keeps {s0 s : State} (h0 : Keeps s0 s) (t : Nat) (c : Nat) :
    Keeps s0 (State.skew s t c) := by
  unfold State.skew
  repeat' first
    | with_reducible first
      | assumption | exact Keeps.refl _ | apply State.count_keeps | apply State.failCtx_keeps
    | dsimp only | split

theorem State.startFill_keeps {s0 s : State} (h0 : Keeps s0 s) (t : Nat) (j : FillJob) (b : WBlock) :
    Keeps s0 (State.startFill s t j b) := by
  unfold State.startFill
  repeat' first
    | with_reducible first
      | assumption | exact Keeps.refl _ | apply State.modTile_keeps | apply State.modCtx_keeps
      | apply State.flagPost_keeps | apply State.release_keeps | apply State.consume_keeps
      | apply State.fillCompute_keeps | apply State.stopFill_keeps | apply State.skew_keeps | apply Keeps.ite
      | refine Keeps.of_fst (by assumption) ?_ | refine Keeps.of_fst3 (by assumption) ?_
    | dsimp only | split

theorem execFillStart_next (s : State) (tile : Nat) :
    ∃ t, execFillStart tile s = .next t ∧ Keeps s t := by
  refine ⟨_, rfl, ?_⟩
  repeat' first
    | with_reducible first
      | assumption | exact Keeps.refl _ | apply State.setTile_keeps | apply State.startFill_keeps
    | dsimp only | split

theorem execFillComplete_next (s : State) (tile : Nat) :
    ∃ t, execFillComplete tile s = .next t ∧ Keeps s t := by
  refine ⟨_, rfl, ?_⟩
  repeat' first
    | with_reducible first
      | assumption | exact Keeps.refl _ | apply State.fillEnd_keeps | apply State.stopFill_keeps
    | dsimp only | split

theorem State.streamRow_keeps {s0 s : State} (h0 : Keeps s0 s) (t : Nat) (w : Bytes) (depth : Nat) (r : Nat) :
    Keeps s0 (State.streamRow s t w depth r).2 := by
  unfold State.streamRow
  repeat' first
    | with_reducible first
      | assumption | exact Keeps.refl _ | apply State.freeVals_keeps | apply Keeps.ite
      | refine Keeps.of_snd (by assumption) ?_
    | dsimp only | split

theorem State.streamPut_keeps {s0 s : State} (h0 : Keeps s0 s) (t : Nat) (line : Nat) (cols : Nat) (row : List Word)
    (bad : Bool) :
    Keeps s0 (State.streamPut s t line cols row bad) := by
  unfold State.streamPut
  repeat' first
    | with_reducible first
      | assumption | exact Keeps.refl _ | apply State.spWrite_keeps | apply State.spPatch_keeps | apply Keeps.ite
      | apply KeepsParts.same | refine KeepsParts.write ?_ (fun _ => ?_) | exact Memory.wf_empty
      | refine Memory.wf_writeN _ _ _ ?_ | apply Memory.wf_writePart | apply Memory.wf_mark | apply Memory.wf_zero
      | apply Memory.wf_zeroBut | apply Memory.wf_writeSheets | refine Memory.wf_foldl _ _ (fun _ _ _ => ?_) _ ?_
    | dsimp only | simp only [keeps_mk] | split

theorem State.streamRun_keeps {s0 s : State} (h0 : Keeps s0 s) (t : Nat) (y0 : Nat) :
    Keeps s0 (State.streamRun s t y0) := by
  induction y0 generalizing s with
  | zero =>
    unfold State.streamRun
    repeat' first
      | with_reducible first
        | assumption | exact Keeps.refl _ | apply State.modTile_keeps | apply State.signal_keeps
        | apply State.streamRow_keeps | apply State.streamPut_keeps | apply Keeps.ite
        | refine Keeps.of_snd (by assumption) ?_
      | dsimp only | split
  | succ k ih =>
    unfold State.streamRun
    repeat' first
      | with_reducible first
        | assumption | exact Keeps.refl _ | apply ih | apply State.modTile_keeps | apply State.signal_keeps
        | apply State.streamRow_keeps | apply State.streamPut_keeps | apply Keeps.ite
        | refine Keeps.of_snd (by assumption) ?_
      | dsimp only | split

theorem State.streamOn_keeps {s0 s : State} (h0 : Keeps s0 s) (t : Nat) :
    Keeps s0 (State.streamOn s t) := by
  unfold State.streamOn
  repeat' first
    | with_reducible first
      | assumption | exact Keeps.refl _ | apply State.streamRun_keeps
    | dsimp only | split

theorem State.startStream_keeps {s0 s : State} (h0 : Keeps s0 s) (t : Nat) (c : Option Nat) (w : Bytes) :
    Keeps s0 (State.startStream s t c w) := by
  unfold State.startStream
  repeat' first
    | with_reducible first
      | assumption | exact Keeps.refl _ | apply State.modTile_keeps | apply State.streamOn_keeps
    | dsimp only | split

theorem execStream_next (s : State) (tile : Nat) (word : Bytes) :
    ∃ t, execStream tile word s = .next t ∧ Keeps s t := by
  refine ⟨_, rfl, ?_⟩
  repeat' first
    | with_reducible first
      | assumption | exact Keeps.refl _ | apply State.count_keeps | apply State.causeAll_keeps
      | apply State.issue1_keeps | apply State.startStream_keeps | apply Keeps.ite | intro _
    | dsimp only | split

theorem State.queries_keeps {s0 s : State} (h0 : Keeps s0 s) (c : Ctx) :
    Keeps s0 (State.queries s c).2 := by
  unfold State.queries
  repeat' first
    | with_reducible first
      | assumption | exact Keeps.refl _ | apply State.freeVal_keeps | refine Keeps.of_snd (by assumption) ?_
    | dsimp only | split

theorem execDeckle_next (s : State) (tile : Nat) (ctx : Nat) :
    ∃ t, execDeckle tile ctx s = .next t ∧ Keeps s t := by
  refine ⟨_, rfl, ?_⟩
  repeat' first
    | with_reducible first
      | assumption | exact Keeps.refl _ | apply State.modCtx_keeps | apply State.signal_keeps
      | apply State.issue1_keeps | apply State.queries_keeps | apply Keeps.ite
      | refine Keeps.of_snd (by assumption) ?_ | intro _
    | dsimp only | split

theorem execWait_next (s : State) (tile : Nat) (ctx : Nat) :
    ∃ t, execWait tile ctx s = .next t ∧ Keeps s t := by
  refine ⟨_, rfl, ?_⟩
  repeat' first
    | with_reducible first
      | assumption | exact Keeps.refl _ | apply State.signal_keeps | apply State.issue1_keeps | intro _
    | dsimp only | split

theorem execEndOp_next (s : State) (tile : Nat) (ctx : Nat) :
    ∃ t, execEndOp tile ctx s = .next t ∧ Keeps s t := by
  refine ⟨_, rfl, ?_⟩
  repeat' first
    | with_reducible first
      | assumption | exact Keeps.refl _ | apply State.modCtx_keeps | apply State.issue1_keeps | intro _
    | dsimp only | split

theorem State.sendCounts_keeps {s0 s : State} (h0 : Keeps s0 s) (t : Nat) (c : Ctx) :
    Keeps s0 (State.sendCounts s t c) := by
  unfold State.sendCounts
  repeat' first
    | with_reducible first
      | assumption | exact Keeps.refl _ | apply KeepsParts.same
    | dsimp only | simp only [keeps_mk] | split

theorem execEndComplete_next (s : State) (tile : Nat) (ctx : Nat) :
    ∃ t, execEndComplete tile ctx s = .next t ∧ Keeps s t := by
  refine ⟨_, rfl, ?_⟩
  repeat' first
    | with_reducible first
      | assumption | exact Keeps.refl _ | apply State.modTile_keeps | apply State.settle_keeps
      | apply State.sendCounts_keeps | apply Keeps.ite
    | dsimp only | split

theorem State.vecPut_keeps {s0 s : State} (h0 : Keeps s0 s) (t : Nat) (o : VecOut) :
    Keeps s0 (State.vecPut s t o) := by
  unfold State.vecPut
  repeat' first
    | with_reducible first
      | assumption | exact Keeps.refl _ | apply State.modTile_keeps | apply Keeps.ite
    | dsimp only | split

theorem State.vecLand_keeps {s0 s : State} (h0 : Keeps s0 s) (t : Nat) (o : VecOut) :
    Keeps s0 (State.vecLand s t o) := by
  unfold State.vecLand
  repeat' first
    | with_reducible first
      | assumption | exact Keeps.refl _ | apply State.spWrite_keeps | apply State.spPatch_keeps | apply Keeps.ite
    | dsimp only | split

theorem State.putRow_keeps {s0 s : State} (h0 : Keeps s0 s) (t : Nat) (w : Bytes) (at_ : Nat) (r : Nat)
    (cs : List Nat) :
    Keeps s0 (State.putRow s t w at_ r cs) := by
  unfold State.putRow
  repeat' first
    | with_reducible first
      | assumption | exact Keeps.refl _ | apply State.vecPut_keeps | apply Keeps.ite
    | dsimp only | split

theorem State.drawsOf_keeps {s0 s : State} (h0 : Keeps s0 s) (t : Nat) (stream : Nat) (n : Nat) :
    Keeps s0 (State.drawsOf s t stream n).2 := by
  unfold State.drawsOf
  repeat' first
    | with_reducible first
      | assumption | exact Keeps.refl _ | apply State.setCtr_keeps
    | dsimp only | split

theorem State.countLayer_keeps {s0 s : State} (h0 : Keeps s0 s) (t : Nat) (c : Nat) (w : Bytes) (n : Nat) (sat : Nat)
    :
    Keeps s0 (State.countLayer s t c w n sat) := by
  unfold State.countLayer
  repeat' first
    | with_reducible first
      | assumption | exact Keeps.refl _ | apply State.modCtx_keeps | apply Keeps.ite
    | dsimp only | split

theorem State.emitRow_keeps {s0 s : State} (h0 : Keeps s0 s) (t : Nat) (c : Nat) (w : Bytes) (resInt : Bool)
    (int : Bool) (at_ : Nat) (r : Nat) (xs : List Word) :
    Keeps s0 (State.emitRow s t c w resInt int at_ r xs) := by
  unfold State.emitRow
  repeat' first
    | with_reducible first
      | assumption | exact Keeps.refl _ | apply State.putRow_keeps | apply State.drawsOf_keeps
      | apply State.countLayer_keeps | apply Keeps.ite | refine Keeps.of_snd (by assumption) ?_
    | dsimp only | split

theorem State.freeBanks_keeps {s0 s : State} (h0 : Keeps s0 s) (t : Nat) (w : Bytes) :
    Keeps s0 (State.freeBanks s t w) := by
  unfold State.freeBanks
  repeat' first
    | with_reducible first
      | assumption | exact Keeps.refl _ | refine Keeps.each ?_ _ _ (fun _ _ _ => ?_) | apply State.modBank_keeps
      | apply Keeps.ite | intro _
    | dsimp only | split

theorem State.vecOwn_keeps {s0 s : State} (h0 : Keeps s0 s) (t : Nat) (k : Nat) :
    Keeps s0 (State.vecOwn s t k) := by
  unfold State.vecOwn
  repeat' first
    | with_reducible first
      | assumption | exact Keeps.refl _ | refine Keeps.each ?_ _ _ (fun _ _ _ => ?_) | apply State.modTile_keeps
      | apply State.vecLand_keeps | apply Keeps.ite | intro _
    | dsimp only | split

theorem State.vecAhead_keeps {s0 s : State} (h0 : Keeps s0 s) (t : Nat) :
    Keeps s0 (State.vecAhead s t) := by
  unfold State.vecAhead
  repeat' first
    | with_reducible first
      | assumption | exact Keeps.refl _ | refine Keeps.each ?_ _ _ (fun _ _ _ => ?_)
      | refine Keeps.foldl ?_ _ _ (fun _ _ _ => ?_) | refine Keeps.foldl_fst _ _ (fun _ _ _ => ?_) _ ?_
      | refine Keeps.foldl_snd _ _ (fun _ _ _ => ?_) _ ?_ | apply State.freeVal_keeps | apply State.modTile_keeps
      | apply State.vecLand_keeps | apply Keeps.ite | refine Keeps.of_fst (by assumption) ?_
      | refine Keeps.of_snd (by assumption) ?_ | intro _
    | dsimp only | split

theorem State.vecRows_keeps {s0 s : State} (h0 : Keeps s0 s) (t : Nat) (j : VecJob)
    (row : State → Memory → Bytes → Nat → Nat → State) (fin : State → Bytes → Frame → List (List Word) → State)
    (hrow : ∀ t x1 x2 x3 x4, Keeps s0 t → Keeps s0 (row t x1 x2 x3 x4))
    (hfin : ∀ t x1 x2 x3, Keeps s0 t → Keeps s0 (fin t x1 x2 x3)) :
    Keeps s0 (State.vecRows s t j row fin) := by
  unfold State.vecRows
  repeat' first
    | with_reducible first
      | assumption | exact Keeps.refl _ | refine Keeps.foldl ?_ _ _ (fun _ _ _ => ?_)
      | refine Keeps.foldl_fst _ _ (fun _ _ _ => ?_) _ ?_ | refine Keeps.foldl_snd _ _ (fun _ _ _ => ?_) _ ?_
      | apply hrow | apply hfin | apply State.modTile_keeps | apply State.vecOwn_keeps | apply State.vecAhead_keeps
      | refine Keeps.of_fst (by assumption) ?_ | refine Keeps.of_snd (by assumption) ?_ | intro _
    | dsimp only | split

theorem State.vecStarts_keeps {s0 s : State} (h0 : Keeps s0 s) (t : Nat) :
    Keeps s0 (State.vecStarts s t).2 := by
  unfold State.vecStarts
  repeat' first
    | with_reducible first
      | assumption | exact Keeps.refl _ | apply State.freeVal_keeps | apply Keeps.ite
      | refine Keeps.of_snd (by assumption) ?_
    | dsimp only | split

theorem State.vecGo_keeps {s0 s : State} (h0 : Keeps s0 s) (t : Nat) (j : VecJob)
    (row : State → Memory → Bytes → Nat → Nat → State) (fin : State → Bytes → Frame → List (List Word) → State)
    (hrow : ∀ t x1 x2 x3 x4, Keeps s0 t → Keeps s0 (row t x1 x2 x3 x4))
    (hfin : ∀ t x1 x2 x3, Keeps s0 t → Keeps s0 (fin t x1 x2 x3)) :
    Keeps s0 (State.vecGo s t j row fin) := by
  unfold State.vecGo
  repeat' first
    | with_reducible first
      | assumption | exact Keeps.refl _ | apply hrow | apply hfin | apply State.modTile_keeps
      | apply State.consume_keeps | apply State.skew_keeps | apply State.vecRows_keeps | apply Keeps.ite | intro _
    | dsimp only | split

theorem State.issueVec_keeps {s0 s : State} (h0 : Keeps s0 s) (t : Nat) (c : Nat) (op : Nat)
    (row : State → Memory → Bytes → Nat → Nat → State) (fin : State → Bytes → Frame → List (List Word) → State)
    (hrow : ∀ t x1 x2 x3 x4, Keeps s0 t → Keeps s0 (row t x1 x2 x3 x4))
    (hfin : ∀ t x1 x2 x3, Keeps s0 t → Keeps s0 (fin t x1 x2 x3)) :
    Keeps s0 (State.issueVec s t c op row fin) := by
  unfold State.issueVec
  repeat' first
    | with_reducible first
      | assumption | exact Keeps.refl _ | apply hrow | apply hfin | apply State.modTile_keeps
      | apply State.signal_keeps | apply State.issue1_keeps | apply State.freeBanks_keeps
      | apply State.vecStarts_keeps | apply State.vecGo_keeps | apply Keeps.ite
      | refine Keeps.of_snd (by assumption) ?_ | intro _
    | dsimp only | split

theorem vecNone_keeps {s0 s : State} (h0 : Keeps s0 s) (x : Bytes) (z2 : Frame) (z3 : List (List Word)) :
    Keeps s0 (vecNone s x z2 z3) := by
  unfold vecNone
  repeat' first
    | with_reducible first
      | assumption | exact Keeps.refl _
    | dsimp only | split

theorem State.rowBy_keeps {s0 s : State} (h0 : Keeps s0 s) (t : Nat) (c : Nat) (w : Bytes) (cols : Nat) (r : Nat)
    (f : Bool → Nat → Word) :
    Keeps s0 (State.rowBy s t c w cols r f) := by
  unfold State.rowBy
  repeat' first
    | with_reducible first
      | assumption | exact Keeps.refl _ | apply State.emitRow_keeps
    | dsimp only | split

theorem State.rowBin_keeps {s0 s : State} (h0 : Keeps s0 s) (u : Memory) (t : Nat) (c : Nat) (w : Bytes) (cols : Nat)
    (r : Nat) :
    Keeps s0 (State.rowBin s u t c w cols r) := by
  unfold State.rowBin
  repeat' first
    | with_reducible first
      | assumption | exact Keeps.refl _ | apply State.rowBy_keeps
    | dsimp only | split

theorem execAdd_next (s : State) (tile : Nat) (ctx : Nat) :
    ∃ t, execAdd tile ctx s = .next t ∧ Keeps s t := by
  refine ⟨_, rfl, ?_⟩
  repeat' first
    | with_reducible first
      | assumption | exact Keeps.refl _ | apply State.issueVec_keeps | apply vecNone_keeps | apply State.rowBin_keeps
      | intro _
    | dsimp only | split

theorem execSub_next (s : State) (tile : Nat) (ctx : Nat) :
    ∃ t, execSub tile ctx s = .next t ∧ Keeps s t := by
  refine ⟨_, rfl, ?_⟩
  repeat' first
    | with_reducible first
      | assumption | exact Keeps.refl _ | apply State.issueVec_keeps | apply vecNone_keeps | apply State.rowBin_keeps
      | intro _
    | dsimp only | split

theorem execMul_next (s : State) (tile : Nat) (ctx : Nat) :
    ∃ t, execMul tile ctx s = .next t ∧ Keeps s t := by
  refine ⟨_, rfl, ?_⟩
  repeat' first
    | with_reducible first
      | assumption | exact Keeps.refl _ | apply State.issueVec_keeps | apply vecNone_keeps | apply State.rowBin_keeps
      | intro _
    | dsimp only | split

theorem execMax_next (s : State) (tile : Nat) (ctx : Nat) :
    ∃ t, execMax tile ctx s = .next t ∧ Keeps s t := by
  refine ⟨_, rfl, ?_⟩
  repeat' first
    | with_reducible first
      | assumption | exact Keeps.refl _ | apply State.issueVec_keeps | apply vecNone_keeps | apply State.rowBin_keeps
      | intro _
    | dsimp only | split

theorem execMin_next (s : State) (tile : Nat) (ctx : Nat) :
    ∃ t, execMin tile ctx s = .next t ∧ Keeps s t := by
  refine ⟨_, rfl, ?_⟩
  repeat' first
    | with_reducible first
      | assumption | exact Keeps.refl _ | apply State.issueVec_keeps | apply vecNone_keeps | apply State.rowBin_keeps
      | intro _
    | dsimp only | split

theorem State.affineRow_keeps {s0 s : State} (h0 : Keeps s0 s) (u : Memory) (t : Nat) (c : Nat) (w : Bytes)
    (cols : Nat) (r : Nat) :
    Keeps s0 (State.affineRow s u t c w cols r) := by
  unfold State.affineRow
  repeat' first
    | with_reducible first
      | assumption | exact Keeps.refl _ | apply State.rowBy_keeps
    | dsimp only | split

theorem execAffine_next (s : State) (tile : Nat) (ctx : Nat) :
    ∃ t, execAffine tile ctx s = .next t ∧ Keeps s t := by
  refine ⟨_, rfl, ?_⟩
  repeat' first
    | with_reducible first
      | assumption | exact Keeps.refl _ | apply State.issueVec_keeps | apply vecNone_keeps
      | apply State.affineRow_keeps | intro _
    | dsimp only | split

theorem execCmp_next (s : State) (tile : Nat) (ctx : Nat) :
    ∃ t, execCmp tile ctx s = .next t ∧ Keeps s t := by
  refine ⟨_, rfl, ?_⟩
  repeat' first
    | with_reducible first
      | assumption | exact Keeps.refl _ | apply State.issueVec_keeps | apply vecNone_keeps | apply State.rowBin_keeps
      | intro _
    | dsimp only | split

theorem execSelect_next (s : State) (tile : Nat) (ctx : Nat) :
    ∃ t, execSelect tile ctx s = .next t ∧ Keeps s t := by
  refine ⟨_, rfl, ?_⟩
  repeat' first
    | with_reducible first
      | assumption | exact Keeps.refl _ | apply State.issueVec_keeps | apply vecNone_keeps | apply State.rowBin_keeps
      | intro _
    | dsimp only | split

theorem State.copyRow_keeps {s0 s : State} (h0 : Keeps s0 s) (t : Nat) (w : Bytes) (cols : Nat) (r : Nat) :
    Keeps s0 (State.copyRow s t w cols r) := by
  unfold State.copyRow
  repeat' first
    | with_reducible first
      | assumption | exact Keeps.refl _ | apply State.putRow_keeps
    | dsimp only | split

theorem State.unaryRow_keeps {s0 s : State} (h0 : Keeps s0 s) (u : Memory) (t : Nat) (c : Nat) (w : Bytes)
    (cols : Nat) (r : Nat) :
    Keeps s0 (State.unaryRow s u t c w cols r) := by
  unfold State.unaryRow
  repeat' first
    | with_reducible first
      | assumption | exact Keeps.refl _ | apply State.rowBy_keeps | apply State.copyRow_keeps | apply Keeps.ite
    | dsimp only | split

theorem execUnary_next (s : State) (tile : Nat) (ctx : Nat) :
    ∃ t, execUnary tile ctx s = .next t ∧ Keeps s t := by
  refine ⟨_, rfl, ?_⟩
  repeat' first
    | with_reducible first
      | assumption | exact Keeps.refl _ | apply State.issueVec_keeps | apply vecNone_keeps
      | apply State.unaryRow_keeps | intro _
    | dsimp only | split

theorem State.funcRow_keeps {s0 s : State} (h0 : Keeps s0 s) (u : Memory) (t : Nat) (c : Nat) (w : Bytes) (cols : Nat)
    (r : Nat) :
    Keeps s0 (State.funcRow s u t c w cols r) := by
  unfold State.funcRow
  repeat' first
    | with_reducible first
      | assumption | exact Keeps.refl _ | apply State.rowBy_keeps
    | dsimp only | split

theorem execFunc_next (s : State) (tile : Nat) (ctx : Nat) :
    ∃ t, execFunc tile ctx s = .next t ∧ Keeps s t := by
  refine ⟨_, rfl, ?_⟩
  repeat' first
    | with_reducible first
      | assumption | exact Keeps.refl _ | apply State.issueVec_keeps | apply vecNone_keeps | apply State.funcRow_keeps
      | intro _
    | dsimp only | split

theorem State.convertRow_keeps {s0 s : State} (h0 : Keeps s0 s) (u : Memory) (t : Nat) (c : Nat) (w : Bytes)
    (cols : Nat) (r : Nat) :
    Keeps s0 (State.convertRow s u t c w cols r) := by
  unfold State.convertRow
  repeat' first
    | with_reducible first
      | assumption | exact Keeps.refl _ | apply State.rowBy_keeps
    | dsimp only | split

theorem execConvert_next (s : State) (tile : Nat) (ctx : Nat) :
    ∃ t, execConvert tile ctx s = .next t ∧ Keeps s t := by
  refine ⟨_, rfl, ?_⟩
  repeat' first
    | with_reducible first
      | assumption | exact Keeps.refl _ | apply State.issueVec_keeps | apply vecNone_keeps
      | apply State.convertRow_keeps | intro _
    | dsimp only | split

theorem State.mxRow_keeps {s0 s : State} (h0 : Keeps s0 s) (u : Memory) (t : Nat) (c : Nat) (w : Bytes) (cols : Nat)
    (r : Nat) :
    Keeps s0 (State.mxRow s u t c w cols r) := by
  unfold State.mxRow
  repeat' first
    | with_reducible first
      | assumption | exact Keeps.refl _ | refine Keeps.each ?_ _ _ (fun _ _ _ => ?_) | apply State.vecPut_keeps
      | apply State.putRow_keeps | apply State.drawsOf_keeps | apply State.countLayer_keeps | apply Keeps.ite
      | refine Keeps.of_snd (by assumption) ?_ | intro _
    | dsimp only | split

theorem State.quantRow_keeps {s0 s : State} (h0 : Keeps s0 s) (u : Memory) (t : Nat) (c : Nat) (w : Bytes)
    (cols : Nat) (r : Nat) :
    Keeps s0 (State.quantRow s u t c w cols r) := by
  unfold State.quantRow
  repeat' first
    | with_reducible first
      | assumption | exact Keeps.refl _ | apply State.emitRow_keeps
    | dsimp only | split

theorem State.mxTags_keeps {s0 s : State} (h0 : Keeps s0 s) (t : Nat) (w : Bytes) (fr : Frame) :
    Keeps s0 (State.mxTags s t w fr) := by
  unfold State.mxTags
  repeat' first
    | with_reducible first
      | assumption | exact Keeps.refl _ | apply State.vecPut_keeps | apply Keeps.ite
    | dsimp only | split

theorem State.anyQuantRow_keeps {s0 s : State} (h0 : Keeps s0 s) (u : Memory) (t : Nat) (c : Nat) (w : Bytes)
    (cols : Nat) (r : Nat) :
    Keeps s0 (State.anyQuantRow s u t c w cols r) := by
  unfold State.anyQuantRow
  repeat' first
    | with_reducible first
      | assumption | exact Keeps.refl _ | apply State.mxRow_keeps | apply State.quantRow_keeps | apply Keeps.ite
    | dsimp only | split

theorem execQuant_next (s : State) (tile : Nat) (ctx : Nat) :
    ∃ t, execQuant tile ctx s = .next t ∧ Keeps s t := by
  refine ⟨_, rfl, ?_⟩
  repeat' first
    | with_reducible first
      | assumption | exact Keeps.refl _ | apply State.issueVec_keeps | apply State.mxTags_keeps
      | apply State.anyQuantRow_keeps | intro _
    | dsimp only | split

theorem State.rescaleRow_keeps {s0 s : State} (h0 : Keeps s0 s) (u : Memory) (t : Nat) (c : Nat) (w : Bytes)
    (cols : Nat) (r : Nat) :
    Keeps s0 (State.rescaleRow s u t c w cols r) := by
  unfold State.rescaleRow
  repeat' first
    | with_reducible first
      | assumption | exact Keeps.refl _ | apply State.putRow_keeps | apply State.countLayer_keeps | apply Keeps.ite
    | dsimp only | split

theorem execRescale_next (s : State) (tile : Nat) (ctx : Nat) :
    ∃ t, execRescale tile ctx s = .next t ∧ Keeps s t := by
  refine ⟨_, rfl, ?_⟩
  repeat' first
    | with_reducible first
      | assumption | exact Keeps.refl _ | apply State.issueVec_keeps | apply vecNone_keeps
      | apply State.rescaleRow_keeps | intro _
    | dsimp only | split

theorem State.rotateRowOf_keeps {s0 s : State} (h0 : Keeps s0 s) (u : Memory) (t : Nat) (c : Nat) (w : Bytes)
    (cols : Nat) (r : Nat) :
    Keeps s0 (State.rotateRowOf s u t c w cols r) := by
  unfold State.rotateRowOf
  repeat' first
    | with_reducible first
      | assumption | exact Keeps.refl _ | apply State.emitRow_keeps | apply Keeps.ite
    | dsimp only | split

theorem execRotate_next (s : State) (tile : Nat) (ctx : Nat) :
    ∃ t, execRotate tile ctx s = .next t ∧ Keeps s t := by
  refine ⟨_, rfl, ?_⟩
  repeat' first
    | with_reducible first
      | assumption | exact Keeps.refl _ | apply State.issueVec_keeps | apply vecNone_keeps
      | apply State.rotateRowOf_keeps | intro _
    | dsimp only | split

theorem State.reduceRowOf_keeps {s0 s : State} (h0 : Keeps s0 s) (u : Memory) (t : Nat) (c : Nat) (w : Bytes)
    (cols : Nat) (r : Nat) :
    Keeps s0 (State.reduceRowOf s u t c w cols r) := by
  unfold State.reduceRowOf
  repeat' first
    | with_reducible first
      | assumption | exact Keeps.refl _ | apply State.emitRow_keeps | apply Keeps.ite
    | dsimp only | split

theorem execReduceRow_next (s : State) (tile : Nat) (ctx : Nat) :
    ∃ t, execReduceRow tile ctx s = .next t ∧ Keeps s t := by
  refine ⟨_, rfl, ?_⟩
  repeat' first
    | with_reducible first
      | assumption | exact Keeps.refl _ | apply State.issueVec_keeps | apply vecNone_keeps
      | apply State.reduceRowOf_keeps | intro _
    | dsimp only | split

theorem State.reduceColOf_keeps {s0 s : State} (h0 : Keeps s0 s) (t : Nat) (c : Nat) (w : Bytes) (fr : Frame)
    (seen : List (List Word)) :
    Keeps s0 (State.reduceColOf s t c w fr seen) := by
  unfold State.reduceColOf
  repeat' first
    | with_reducible first
      | assumption | exact Keeps.refl _ | apply State.emitRow_keeps
    | dsimp only | split

theorem execReduceCol_next (s : State) (tile : Nat) (ctx : Nat) :
    ∃ t, execReduceCol tile ctx s = .next t ∧ Keeps s t := by
  refine ⟨_, rfl, ?_⟩
  repeat' first
    | with_reducible first
      | assumption | exact Keeps.refl _ | apply State.issueVec_keeps | apply State.reduceColOf_keeps | intro _
    | dsimp only | split

theorem State.vecRow_keeps {s0 s : State} (h0 : Keeps s0 s) (u : Memory) (t : Nat) (c : Nat) (w : Bytes) (cols : Nat)
    (r : Nat) :
    Keeps s0 (State.vecRow s u t c w cols r) := by
  unfold State.vecRow
  repeat' first
    | with_reducible first
      | assumption | exact Keeps.refl _ | apply State.rowBin_keeps | apply State.affineRow_keeps
      | apply State.unaryRow_keeps | apply State.funcRow_keeps | apply State.convertRow_keeps
      | apply State.anyQuantRow_keeps | apply State.rescaleRow_keeps | apply State.rotateRowOf_keeps
      | apply State.reduceRowOf_keeps | apply Keeps.ite
    | dsimp only | split

theorem State.vecFin_keeps {s0 s : State} (h0 : Keeps s0 s) (t : Nat) (c : Nat) (w : Bytes) (fr : Frame)
    (seen : List (List Word)) :
    Keeps s0 (State.vecFin s t c w fr seen) := by
  unfold State.vecFin
  repeat' first
    | with_reducible first
      | assumption | exact Keeps.refl _ | apply State.mxTags_keeps | apply State.reduceColOf_keeps | apply Keeps.ite
    | dsimp only | split

theorem State.vecFront_keeps {s0 s : State} (h0 : Keeps s0 s) (t : Nat) (y0 : Nat) :
    Keeps s0 (State.vecFront s t y0) := by
  induction y0 generalizing s with
  | zero =>
    unfold State.vecFront
    repeat' first
      | with_reducible first
        | assumption | exact Keeps.refl _ | apply State.vecStarts_keeps | apply State.vecGo_keeps
        | apply State.vecRow_keeps | apply State.vecFin_keeps | apply Keeps.ite
        | refine Keeps.of_snd (by assumption) ?_ | intro _
      | dsimp only | split
  | succ k ih =>
    unfold State.vecFront
    repeat' first
      | with_reducible first
        | assumption | exact Keeps.refl _ | apply ih | apply State.vecStarts_keeps | apply State.vecGo_keeps
        | apply State.vecRow_keeps | apply State.vecFin_keeps | apply Keeps.ite
        | refine Keeps.of_snd (by assumption) ?_ | intro _
      | dsimp only | split

theorem execVectorInstructionDone_next (s : State) (tile : Nat) :
    ∃ t, execVectorInstructionDone tile s = .next t ∧ Keeps s t := by
  refine ⟨_, rfl, ?_⟩
  repeat' first
    | with_reducible first
      | assumption | exact Keeps.refl _ | refine Keeps.each ?_ _ _ (fun _ _ _ => ?_) | apply State.modTile_keeps
      | apply State.signal_keeps | apply State.vecLand_keeps | apply State.freeBanks_keeps
      | apply State.vecFront_keeps | intro _
    | dsimp only | split

theorem State.sendFelt_keeps {s0 s : State} (h0 : Keeps s0 s) (src : Nat) (dst : Nat) (m : Msg) :
    Keeps s0 (State.sendFelt s src dst m) := by
  unfold State.sendFelt
  repeat' first
    | with_reducible first
      | assumption | exact Keeps.refl _ | apply KeepsParts.same
    | dsimp only | simp only [keeps_mk] | split

theorem State.takeFelt_keeps {s0 s : State} (h0 : Keeps s0 s) (id : Nat) :
    Keeps s0 (State.takeFelt s id) := by
  unfold State.takeFelt
  repeat' first
    | with_reducible first
      | assumption | exact Keeps.refl _ | apply KeepsParts.same
    | dsimp only | simp only [keeps_mk] | split

theorem State.fetchRead_keeps {s0 s : State} (h0 : Keeps s0 s) (t : Nat) (w : Bytes) (k : Option Nat) (p : Place)
    (ext : Rd) :
    Keeps s0 (State.fetchRead s t w k p ext).2.2 := by
  unfold State.fetchRead
  repeat' first
    | with_reducible first
      | assumption | exact Keeps.refl _ | apply State.freeVals_keeps | refine Keeps.of_snd (by assumption) ?_
    | dsimp only | split

theorem State.fetchCache_keeps {s0 s : State} (h0 : Keeps s0 s) (k : Nat) (w : Bytes) (had : FMap (Bytes × Bool))
    (b : Bytes) (marks : List Nat) (a : Place) :
    Keeps s0 (State.fetchCache s k w had b marks a) := by
  unfold State.fetchCache
  repeat' first
    | with_reducible first
      | assumption | exact Keeps.refl _ | refine Keeps.each ?_ _ _ (fun _ _ _ => ?_) | apply State.rebuild_keeps
      | apply State.cacheLook_keeps | apply State.netFill_keeps | apply Keeps.ite | intro _
    | dsimp only | split

theorem State.noteHanded_keeps {s0 s : State} (h0 : Keeps s0 s) (k : Nat) (p : Nat) (g : Nat) (off : Nat) (len : Nat)
    :
    Keeps s0 (State.noteHanded s k p g off len) := by
  unfold State.noteHanded
  repeat' first
    | with_reducible first
      | assumption | exact Keeps.refl _ | apply State.modPost_keeps | apply Keeps.ite
    | dsimp only | split

theorem State.putRun_keeps {s0 s : State} (h0 : Keeps s0 s) (t : Nat) (k : Nat) (c : Cmd) (w : Bytes) (bad : List Nat)
    (pl : Place) (r : Nat × Bytes) :
    Keeps s0 (State.putRun s t k c w bad pl r) := by
  unfold State.putRun
  repeat' first
    | with_reducible first
      | assumption | exact Keeps.refl _ | refine Keeps.foldl ?_ _ _ (fun _ _ _ => ?_)
      | refine Keeps.foldl_fst _ _ (fun _ _ _ => ?_) _ ?_ | refine Keeps.foldl_snd _ _ (fun _ _ _ => ?_) _ ?_
      | apply State.modPost_keeps | apply State.writeSeg_keeps | apply State.noteHanded_keeps | apply Keeps.ite
      | apply KeepsParts.same | refine KeepsParts.write ?_ (fun _ => ?_) | exact Memory.wf_empty
      | refine Memory.wf_writeN _ _ _ ?_ | apply Memory.wf_writePart | apply Memory.wf_mark | apply Memory.wf_zero
      | apply Memory.wf_zeroBut | apply Memory.wf_writeSheets | refine Memory.wf_foldl _ _ (fun _ _ _ => ?_) _ ?_
      | refine Keeps.of_fst (by assumption) ?_ | refine Keeps.of_snd (by assumption) ?_ | intro _
    | dsimp only | simp only [keeps_mk] | split

theorem State.deliverPoison_keeps {s0 s : State} (h0 : Keeps s0 s) (t : Nat) (part : Nat) (bad : List Nat)
    (pl : Place) :
    Keeps s0 (State.deliverPoison s t part bad pl) := by
  unfold State.deliverPoison
  repeat' first
    | with_reducible first
      | assumption | exact Keeps.refl _ | refine Keeps.each ?_ _ _ (fun _ _ _ => ?_) | apply State.count_keeps
      | apply State.poisonT1_keeps | apply State.poisonT0_keeps | apply Keeps.ite | intro _
    | dsimp only | split

theorem State.putOut_keeps {s0 s : State} (h0 : Keeps s0 s) (t : Nat) (k : Nat) (c : Cmd) (w : Bytes) (fr : Frame)
    (pl : Place) :
    Keeps s0 (State.putOut s t k c w fr pl) := by
  unfold State.putOut
  repeat' first
    | with_reducible first
      | assumption | exact Keeps.refl _ | refine Keeps.foldl ?_ _ _ (fun _ _ _ => ?_)
      | refine Keeps.foldl_fst _ _ (fun _ _ _ => ?_) _ ?_ | refine Keeps.foldl_snd _ _ (fun _ _ _ => ?_) _ ?_
      | apply State.modPost_keeps | apply State.putRun_keeps | apply State.deliverPoison_keeps | apply Keeps.ite
      | refine Keeps.of_fst (by assumption) ?_ | refine Keeps.of_snd (by assumption) ?_ | intro _
    | dsimp only | split

theorem State.setQueue_keeps {s0 s : State} (h0 : Keeps s0 s) (t : Nat) (cls : Nat) (q : List XferJob) :
    Keeps s0 (State.setQueue s t cls q) := by
  unfold State.setQueue
  repeat' first
    | with_reducible first
      | assumption | exact Keeps.refl _ | apply State.modTile_keeps
    | dsimp only | split

theorem State.netHits_keeps {s0 s : State} (h0 : Keeps s0 s) (k : Nat) (g : Nat) (off : Nat) (n : Nat) :
    Keeps s0 (State.netHits s k g off n).2 := by
  unfold State.netHits
  repeat' first
    | with_reducible first
      | assumption | exact Keeps.refl _ | refine Keeps.foldl ?_ _ _ (fun _ _ _ => ?_)
      | refine Keeps.foldl_fst _ _ (fun _ _ _ => ?_) _ ?_ | refine Keeps.foldl_snd _ _ (fun _ _ _ => ?_) _ ?_
      | apply State.netLook_keeps | refine Keeps.of_fst (by assumption) ?_ | refine Keeps.of_snd (by assumption) ?_
      | intro _
    | dsimp only | split

theorem State.issueReads_keeps {s0 s : State} (h0 : Keeps s0 s) (t : Nat) (w : Bytes) (p : Nat) (off : Nat) (v : Seg)
    (had : FMap (Bytes × Bool)) :
    Keeps s0 (State.issueReads s t w p off v had) := by
  unfold State.issueReads
  repeat' first
    | with_reducible first
      | assumption | exact Keeps.refl _ | refine Keeps.each ?_ _ _ (fun _ _ _ => ?_) | apply State.issue_keeps
      | intro _
    | dsimp only | split

theorem State.feltPut_keeps {s0 s : State} (h0 : Keeps s0 s) (t : Nat) (j : XferJob) :
    Keeps s0 (State.feltPut s t j) := by
  unfold State.feltPut
  repeat' first
    | with_reducible first
      | assumption | exact Keeps.refl _ | apply State.sendFelt_keeps
    | dsimp only | split

theorem State.beginXfer_keeps {s0 s : State} (h0 : Keeps s0 s) (t : Nat) (j : XferJob) :
    Keeps s0 (State.beginXfer s t j).2 := by
  unfold State.beginXfer
  repeat' first
    | with_reducible first
      | assumption | exact Keeps.refl _ | apply State.release_keeps | apply State.consume_keeps
      | apply State.putOut_keeps | apply State.netHits_keeps | apply State.issueReads_keeps
      | apply State.feltPut_keeps | apply Keeps.ite | refine Keeps.of_snd (by assumption) ?_
    | dsimp only | split

theorem State.enqueue_keeps {s0 s : State} (h0 : Keeps s0 s) (t : Nat) (j : XferJob) :
    Keeps s0 (State.enqueue s t j) := by
  unfold State.enqueue
  repeat' first
    | with_reducible first
      | assumption | exact Keeps.refl _ | apply State.setQueue_keeps | apply State.beginXfer_keeps
      | refine Keeps.of_snd (by assumption) ?_
    | dsimp only | split

theorem State.dropJob_keeps {s0 s : State} (h0 : Keeps s0 s) (t : Nat) (j : XferJob) :
    Keeps s0 (State.dropJob s t j) := by
  unfold State.dropJob
  repeat' first
    | with_reducible first
      | assumption | exact Keeps.refl _ | apply State.setQueue_keeps
    | dsimp only | split

theorem State.ringLines_keeps {s0 s : State} (h0 : Keeps s0 s) (t : Nat) (w : Bytes) :
    Keeps s0 (State.ringLines s t w) := by
  unfold State.ringLines
  repeat' first
    | with_reducible first
      | assumption | exact Keeps.refl _ | apply State.modTile_keeps | apply State.streamOn_keeps | apply Keeps.ite
    | dsimp only | split

theorem State.land_keeps {s0 s : State} (h0 : Keeps s0 s) (t : Nat) (line : Nat) (rs : List (Nat × Bytes))
    (bad : List Nat) :
    Keeps s0 (State.land s t line rs bad) := by
  unfold State.land
  repeat' first
    | with_reducible first
      | assumption | exact Keeps.refl _ | refine Keeps.foldl ?_ _ _ (fun _ _ _ => ?_)
      | refine Keeps.foldl_fst _ _ (fun _ _ _ => ?_) _ ?_ | refine Keeps.foldl_snd _ _ (fun _ _ _ => ?_) _ ?_
      | apply State.spPatch_keeps | apply KeepsParts.same | refine KeepsParts.write ?_ (fun _ => ?_)
      | exact Memory.wf_empty | refine Memory.wf_writeN _ _ _ ?_ | apply Memory.wf_writePart | apply Memory.wf_mark
      | apply Memory.wf_zero | apply Memory.wf_zeroBut | apply Memory.wf_writeSheets
      | refine Memory.wf_foldl _ _ (fun _ _ _ => ?_) _ ?_ | refine Keeps.of_fst (by assumption) ?_
      | refine Keeps.of_snd (by assumption) ?_ | intro _
    | dsimp only | simp only [keeps_mk] | split

theorem State.fetchDone_keeps {s0 s : State} (h0 : Keeps s0 s) (t : Nat) (j : XferJob) :
    Keeps s0 (State.fetchDone s t j) := by
  unfold State.fetchDone
  repeat' first
    | with_reducible first
      | assumption | exact Keeps.refl _ | apply State.signal_keeps | apply State.dropJob_keeps
      | apply State.ringLines_keeps
    | dsimp only | split

theorem State.xferBad_keeps {s0 s : State} (h0 : Keeps s0 s) (t : Nat) (c : Nat) :
    Keeps s0 (State.xferBad s t c) := by
  unfold State.xferBad
  repeat' first
    | with_reducible first
      | assumption | exact Keeps.refl _ | apply State.modCtx_keeps | apply State.failCtx_keeps | apply Keeps.ite
    | dsimp only | split

theorem State.xferFault_keeps {s0 s : State} (h0 : Keeps s0 s) (t : Nat) (c : Nat) (seg : Nat) (off : Nat) (len : Nat)
    (valid : Nat → Bool) :
    Keeps s0 (State.xferFault s t c seg off len valid) := by
  unfold State.xferFault
  repeat' first
    | with_reducible first
      | assumption | exact Keeps.refl _ | apply State.tileFault_keeps | apply State.modCtx_keeps
      | apply State.failCtx_keeps | apply Keeps.ite
    | dsimp only | split

theorem State.checkXfer_keeps {s0 s : State} (h0 : Keeps s0 s) (t : Nat) (c : Nat) (w : Bytes) (v : Ctx) :
    Keeps s0 (State.checkXfer s t c w v) := by
  unfold State.checkXfer
  repeat' first
    | with_reducible first
      | assumption | exact Keeps.refl _ | apply State.count_keeps | apply State.failCtx_keeps
      | apply State.enqueue_keeps | apply State.xferBad_keeps | apply State.xferFault_keeps | apply Keeps.ite
    | dsimp only | split

theorem State.feltFetch_keeps {s0 s : State} (h0 : Keeps s0 s) (t : Nat) (c : Nat) (w : Bytes) (v : Ctx) :
    Keeps s0 (State.feltFetch s t c w v) := by
  unfold State.feltFetch
  repeat' first
    | with_reducible first
      | assumption | exact Keeps.refl _ | apply State.modTile_keeps | apply State.failCtx_keeps
      | apply State.signal_keeps | apply State.enqueue_keeps | apply Keeps.ite
    | dsimp only | split

theorem execFetch_next (s : State) (tile : Nat) (ctx : Nat) :
    ∃ t, execFetch tile ctx s = .next t ∧ Keeps s t := by
  refine ⟨_, rfl, ?_⟩
  repeat' first
    | with_reducible first
      | assumption | exact Keeps.refl _ | apply State.issue1_keeps | apply State.checkXfer_keeps
      | apply State.feltFetch_keeps | apply Keeps.ite | intro _
    | dsimp only | split

theorem execPut_next (s : State) (tile : Nat) (ctx : Nat) :
    ∃ t, execPut tile ctx s = .next t ∧ Keeps s t := by
  refine ⟨_, rfl, ?_⟩
  repeat' first
    | with_reducible first
      | assumption | exact Keeps.refl _ | apply State.issue1_keeps | apply State.enqueue_keeps
      | apply State.checkXfer_keeps | apply Keeps.ite | intro _
    | dsimp only | split

theorem State.takeReads_keeps {s0 s : State} (h0 : Keeps s0 s) (j : XferJob) :
    Keeps s0 (State.takeReads s j).2.2 := by
  unfold State.takeReads
  repeat' first
    | with_reducible first
      | assumption | exact Keeps.refl _ | refine Keeps.foldl ?_ _ _ (fun _ _ _ => ?_)
      | refine Keeps.foldl_fst _ _ (fun _ _ _ => ?_) _ ?_ | refine Keeps.foldl_snd _ _ (fun _ _ _ => ?_) _ ?_
      | apply KeepsParts.same | refine Keeps.of_fst (by assumption) ?_ | refine Keeps.of_snd (by assumption) ?_
      | intro _
    | dsimp only | simp only [keeps_mk] | split

theorem execFetchComplete_next (s : State) (tile : Nat) (cls : Nat) (data : Rd) :
    ∃ t, execFetchComplete tile cls data s = .next t ∧ Keeps s t := by
  refine ⟨_, rfl, ?_⟩
  repeat' first
    | with_reducible first
      | assumption | exact Keeps.refl _ | apply State.spWrite_keeps | apply State.failPost_keeps
      | apply State.fetchRead_keeps | apply State.fetchCache_keeps | apply State.fetchDone_keeps
      | apply State.takeReads_keeps | apply Keeps.ite | refine Keeps.of_snd3 (by assumption) ?_
    | dsimp only | split

theorem State.putNow_keeps {s0 s : State} (h0 : Keeps s0 s) (t : Nat) (j : XferJob) :
    Keeps s0 (State.putNow s t j) := by
  unfold State.putNow
  repeat' first
    | with_reducible first
      | assumption | exact Keeps.refl _ | apply State.signal_keeps | apply State.consume_keeps
      | apply State.putOut_keeps | apply State.dropJob_keeps | apply State.ringLines_keeps | apply Keeps.ite
    | dsimp only | split

theorem execPutComplete_next (s : State) (tile : Nat) (cls : Nat) :
    ∃ t, execPutComplete tile cls s = .next t ∧ Keeps s t := by
  refine ⟨_, rfl, ?_⟩
  repeat' first
    | with_reducible first
      | assumption | exact Keeps.refl _ | apply State.setOut_keeps | apply State.dropJob_keeps
      | apply State.ringLines_keeps | apply State.putNow_keeps | apply Keeps.ite
    | dsimp only | split

theorem State.sheetsFor_keeps {s0 s : State} (h0 : Keeps s0 s) (t : Nat) (src : Nat) (c : Nat) (line : Nat) (n : Nat)
    (v : Ctx) (rs : List (Nat × Bytes)) (bad : List Nat) :
    Keeps s0 (State.sheetsFor s t src c line n v rs bad) := by
  unfold State.sheetsFor
  repeat' first
    | with_reducible first
      | assumption | exact Keeps.refl _ | apply State.modTile_keeps | apply State.failCtx_keeps
      | apply State.land_keeps | apply State.fetchDone_keeps | apply Keeps.ite
    | dsimp only | split

theorem execFeltArrival_next (s : State) (tile : Nat) (src : Nat) :
    ∃ t, execFeltArrival tile src s = .next t ∧ Keeps s t := by
  refine ⟨_, rfl, ?_⟩
  repeat' first
    | with_reducible first
      | assumption | exact Keeps.refl _ | apply State.count_keeps | apply State.causeAll_keeps
      | apply State.modTile_keeps | apply State.failPost_keeps | apply State.settle_keeps | apply State.takeFelt_keeps
      | apply State.land_keeps | apply State.sheetsFor_keeps | apply Keeps.ite
    | dsimp only | split

end Sys2Proof.Machine
end

