-- ==== Sys2Proof/Laws/KeepGather.lean ====
section
/-! SUPPORT. `Keeps` for lookups, updates and migration:
the waiting commands, the fuses and the canonical form of memory stay. -/

namespace Sys2Proof.Machine
set_option linter.unusedTactic false
set_option linter.unreachableTactic false

theorem State.staleDelta_keeps {s0 s : State} (h0 : Keeps s0 s) (tile : Nat) (was : Bool) (is : Bool) :
    Keeps s0 (State.staleDelta s tile was is) := by
  unfold State.staleDelta
  repeat' first
    | with_reducible first
      | assumption | exact Keeps.refl _ | apply State.setCtr_keeps | apply Keeps.ite
    | dsimp only | split

theorem State.bucketClear_keeps {s0 s : State} (h0 : Keeps s0 s) (tile : Nat) (u : Nat) (loc : Nat) :
    Keeps s0 (State.bucketClear s tile u loc) := by
  unfold State.bucketClear
  repeat' first
    | with_reducible first
      | assumption | exact Keeps.refl _ | apply Keeps.ite | apply KeepsParts.same
      | refine KeepsParts.write ?_ (fun _ => ?_) | exact Memory.wf_empty | refine Memory.wf_writeN _ _ _ ?_
      | apply Memory.wf_writePart | apply Memory.wf_mark | apply Memory.wf_zero | apply Memory.wf_zeroBut
      | apply Memory.wf_writeSheets | refine Memory.wf_foldl _ _ (fun _ _ _ => ?_) _ ?_
    | dsimp only | simp only [keeps_mk] | split

theorem State.setDir_keeps {s0 s : State} (h0 : Keeps s0 s) (tile : Nat) (u : Nat) (loc : Nat) (e : Option DirEnt) :
    Keeps s0 (State.setDir s tile u loc e) := by
  unfold State.setDir
  repeat' first
    | with_reducible first
      | assumption | exact Keeps.refl _ | apply State.staleDelta_keeps | apply State.bucketClear_keeps
      | apply KeepsParts.same
    | dsimp only | simp only [keeps_mk] | split

theorem State.writeCopy_keeps {s0 s : State} (h0 : Keeps s0 s) (a : Nat) (b : Bytes) :
    Keeps s0 (State.writeCopy s a b) := by
  unfold State.writeCopy
  repeat' first
    | with_reducible first
      | assumption | exact Keeps.refl _ | apply State.writeT1_keeps | apply Keeps.ite | apply KeepsParts.same
      | refine KeepsParts.write ?_ (fun _ => ?_) | exact Memory.wf_empty | refine Memory.wf_writeN _ _ _ ?_
      | apply Memory.wf_writePart | apply Memory.wf_mark | apply Memory.wf_zero | apply Memory.wf_zeroBut
      | apply Memory.wf_writeSheets | refine Memory.wf_foldl _ _ (fun _ _ _ => ?_) _ ?_
    | dsimp only | simp only [keeps_mk] | split

theorem State.rowCache_keeps {s0 s : State} (h0 : Keeps s0 s) (u : Nat) (a : Nat) (n : Nat) :
    Keeps s0 (State.rowCache s u a n) := by
  unfold State.rowCache
  repeat' first
    | with_reducible first
      | assumption | exact Keeps.refl _ | refine Keeps.each ?_ _ _ (fun _ _ _ => ?_) | apply State.rebuild_keeps
      | apply State.cacheLook_keeps | apply Keeps.ite | intro _
    | dsimp only | split

theorem State.setGwork_keeps {s0 s : State} (h0 : Keeps s0 s) (w : GWork) :
    Keeps s0 (State.setGwork s w) := by
  unfold State.setGwork
  repeat' first
    | with_reducible first
      | assumption | exact Keeps.refl _ | apply Keeps.ite | apply KeepsParts.same
    | dsimp only | simp only [keeps_mk] | split

theorem State.setUwork_keeps {s0 s : State} (h0 : Keeps s0 s) (w : UWork) :
    Keeps s0 (State.setUwork s w) := by
  unfold State.setUwork
  repeat' first
    | with_reducible first
      | assumption | exact Keeps.refl _ | apply Keeps.ite | apply KeepsParts.same
    | dsimp only | simp only [keeps_mk] | split

theorem State.delGwork_keeps {s0 s : State} (h0 : Keeps s0 s) (t : Nat) (k : Nat) (u : Nat) :
    Keeps s0 (State.delGwork s t k u) := by
  unfold State.delGwork
  repeat' first
    | with_reducible first
      | assumption | exact Keeps.refl _ | apply KeepsParts.same
    | dsimp only | simp only [keeps_mk] | split

theorem State.delUwork_keeps {s0 s : State} (h0 : Keeps s0 s) (t : Nat) (k : Nat) (u : Nat) :
    Keeps s0 (State.delUwork s t k u) := by
  unfold State.delUwork
  repeat' first
    | with_reducible first
      | assumption | exact Keeps.refl _ | apply KeepsParts.same
    | dsimp only | simp only [keeps_mk] | split

theorem State.dispatchDone_keeps {s0 s : State} (h0 : Keeps s0 s) (t : Nat) :
    Keeps s0 (State.dispatchDone s t) := by
  unfold State.dispatchDone
  repeat' first
    | with_reducible first
      | assumption | exact Keeps.refl _ | refine Keeps.each ?_ _ _ (fun _ _ _ => ?_) | apply State.modTile_keeps
      | apply State.signal_keeps | intro _
    | dsimp only | split

theorem State.accept_keeps {s0 s : State} (h0 : Keeps s0 s) (f : Flight) :
    Keeps s0 (State.accept s f) := by
  unfold State.accept
  repeat' first
    | with_reducible first
      | assumption | exact Keeps.refl _ | apply State.takeFelt_keeps | apply State.dispatchDone_keeps
    | dsimp only | split

theorem State.startGop_keeps {s0 s : State} (h0 : Keeps s0 s) (t : Nat) (c : Nat) (k : Nat) (n : Nat) (w : Bytes) :
    Keeps s0 (State.startGop s t c k n w) := by
  unfold State.startGop
  repeat' first
    | with_reducible first
      | assumption | exact Keeps.refl _ | apply State.modPost_keeps | apply State.modTile_keeps
      | apply State.dispatchDone_keeps
    | dsimp only | split

theorem State.strikeT0_keeps {s0 s : State} (h0 : Keeps s0 s) (t : Nat) (n : Nat) :
    Keeps s0 (State.strikeT0 s t n) := by
  unfold State.strikeT0
  repeat' first
    | with_reducible first
      | assumption | exact Keeps.refl _ | apply State.setPost_keeps | apply State.count_keeps
      | apply State.plogAdd_keeps | apply State.poisonT0_keeps | apply Keeps.ite
    | dsimp only | split

theorem State.dispatchBag_keeps {s0 s : State} (h0 : Keeps s0 s) (tile : Nat) (k : Nat) (n : Nat) (b : Bytes)
    (queries : Nat) (l : Nat) (q : Nat) :
    Keeps s0 (State.dispatchBag s tile k n b queries l q) := by
  unfold State.dispatchBag
  repeat' first
    | with_reducible first
      | assumption | exact Keeps.refl _ | refine Keeps.each ?_ _ _ (fun _ _ _ => ?_) | apply State.modPost_keeps
      | apply State.count_keeps | apply State.sendFelt_keeps | apply Keeps.ite | intro _
    | dsimp only | split

theorem State.dispatchEnds_keeps {s0 s : State} (h0 : Keeps s0 s) (tile : Nat) (k : Nat) (n : Nat) :
    Keeps s0 (State.dispatchEnds s tile k n) := by
  unfold State.dispatchEnds
  repeat' first
    | with_reducible first
      | assumption | exact Keeps.refl _ | refine Keeps.each ?_ _ _ (fun _ _ _ => ?_) | apply State.sendFelt_keeps
      | intro _
    | dsimp only | split

theorem execDispatch_next (s : State) (tile : Nat) (ctx : Nat) :
    ∃ t, execDispatch tile ctx s = .next t ∧ Keeps s t := by
  refine ⟨_, rfl, ?_⟩
  repeat' first
    | with_reducible first
      | assumption | exact Keeps.refl _ | refine Keeps.each ?_ _ _ (fun _ _ _ => ?_) | apply State.consume_keeps
      | apply State.issue1_keeps | apply State.startGop_keeps | apply State.dispatchBag_keeps
      | apply State.dispatchEnds_keeps | apply Keeps.ite | intro _
    | dsimp only | split

theorem State.sendOver_keeps {s0 s : State} (h0 : Keeps s0 s) (tile : Nat) (k : Nat) (u : Nat) :
    Keeps s0 (State.sendOver s tile k u) := by
  unfold State.sendOver
  repeat' first
    | with_reducible first
      | assumption | exact Keeps.refl _ | apply State.sendFelt_keeps
    | dsimp only | split

theorem State.stopUnit_keeps {s0 s : State} (h0 : Keeps s0 s) (g : GWork) :
    Keeps s0 (State.stopUnit s g) := by
  unfold State.stopUnit
  repeat' first
    | with_reducible first
      | assumption | exact Keeps.refl _ | apply State.setGwork_keeps | apply State.sendOver_keeps
    | dsimp only | split

theorem State.gatherOver_keeps {s0 s : State} (h0 : Keeps s0 s) (g : GWork) :
    Keeps s0 (State.gatherOver s g) := by
  unfold State.gatherOver
  repeat' first
    | with_reducible first
      | assumption | exact Keeps.refl _ | apply State.modPost_keeps | apply State.count_keeps
      | apply State.stopUnit_keeps | apply Keeps.ite
    | dsimp only | split

theorem State.gatherPeak_keeps {s0 s : State} (h0 : Keeps s0 s) (u : Nat) (n : Nat) :
    Keeps s0 (State.gatherPeak s u n) := by
  unfold State.gatherPeak
  repeat' first
    | with_reducible first
      | assumption | exact Keeps.refl _ | apply State.setCtr_keeps | apply Keeps.ite
    | dsimp only | split

theorem State.coalesce_keeps {s0 s : State} (h0 : Keeps s0 s) (g : GWork) (q : Nat) (loc : Nat) (w : Word) :
    Keeps s0 (State.coalesce s g q loc w) := by
  unfold State.coalesce
  repeat' first
    | with_reducible first
      | assumption | exact Keeps.refl _ | apply State.count_keeps | apply State.setGwork_keeps
      | apply State.gatherOver_keeps | apply State.gatherPeak_keeps | apply Keeps.ite
    | dsimp only | split

theorem State.entryTurn_keeps {s0 s t : State} {src dst : Nat} {f : Flight} (e : s.entryTurn src dst = some (f, t))
    (h0 : Keeps s0 s) : Keeps s0 t := by
  simp only [State.entryTurn, Option.map_eq_some_iff, Prod.mk.injEq] at e
  obtain ⟨_, _, _, rfl⟩ := e
  exact State.freeVal_keeps h0

theorem execGatherEntryArrival_next (s : State) (tile : Nat) (src : Nat) :
    ∃ t, execGatherEntryArrival tile src s = .next t ∧ Keeps s t := by
  refine ⟨_, rfl, ?_⟩
  repeat' first
    | with_reducible first
      | assumption | exact Keeps.refl _ | refine State.entryTurn_keeps (by assumption) ?_ | apply State.accept_keeps
      | apply State.coalesce_keeps | apply Keeps.ite
    | dsimp only | split

theorem State.sendPartials_keeps {s0 s : State} (h0 : Keeps s0 s) (g : GWork) :
    Keeps s0 (State.sendPartials s g) := by
  unfold State.sendPartials
  repeat' first
    | with_reducible first
      | assumption | exact Keeps.refl _ | refine Keeps.each ?_ _ _ (fun _ _ _ => ?_) | apply State.sendFelt_keeps
      | apply State.delGwork_keeps | intro _
    | dsimp only | split

theorem State.issueRead_keeps {s0 s : State} (h0 : Keeps s0 s) (tile : Nat) (k : Nat) (u : Nat) (loc : Nat) :
    Keeps s0 (State.issueRead s tile k u loc) := by
  unfold State.issueRead
  repeat' first
    | with_reducible first
      | assumption | exact Keeps.refl _ | apply State.count_keeps | apply State.rowCache_keeps
      | apply State.setGwork_keeps | apply State.gatherOver_keeps | apply Keeps.ite | apply KeepsParts.same
    | dsimp only | simp only [keeps_mk] | split

theorem State.startReads_keeps {s0 s : State} (h0 : Keeps s0 s) (g : GWork) :
    Keeps s0 (State.startReads s g) := by
  unfold State.startReads
  repeat' first
    | with_reducible first
      | assumption | exact Keeps.refl _ | refine Keeps.each ?_ _ _ (fun _ _ _ => ?_) | apply State.sendPartials_keeps
      | apply State.issueRead_keeps | apply Keeps.ite | intro _
    | dsimp only | split

theorem execGatherEndMarkerArrival_next (s : State) (tile : Nat) (src : Nat) :
    ∃ t, execGatherEndMarkerArrival tile src s = .next t ∧ Keeps s t := by
  refine ⟨_, rfl, ?_⟩
  repeat' first
    | with_reducible first
      | assumption | exact Keeps.refl _ | apply State.setGwork_keeps | apply State.accept_keeps
      | apply State.startReads_keeps | apply Keeps.ite
    | dsimp only | split

theorem execGatherRowReadDone_next (s : State) (tile : Nat) (post : Nat) (table : Nat) (loc : Nat) :
    ∃ t, execGatherRowReadDone tile post table loc s = .next t ∧ Keeps s t := by
  refine ⟨_, rfl, ?_⟩
  repeat' first
    | with_reducible first
      | assumption | exact Keeps.refl _ | apply State.setGwork_keeps | apply State.sendPartials_keeps
      | apply Keeps.ite
    | dsimp only | split

theorem execCombine_next (s : State) (tile : Nat) (ctx : Nat) :
    ∃ t, execCombine tile ctx s = .next t ∧ Keeps s t := by
  refine ⟨_, rfl, ?_⟩
  repeat' first
    | with_reducible first
      | assumption | exact Keeps.refl _ | refine Keeps.each ?_ _ _ (fun _ _ _ => ?_) | apply State.modTile_keeps
      | apply State.spPatch_keeps | apply State.signal_keeps | apply State.issue1_keeps | apply Keeps.ite
      | apply KeepsParts.same | intro _
    | dsimp only | simp only [keeps_mk] | split

theorem State.stray_keeps {s0 s : State} (h0 : Keeps s0 s) (t : Nat) (k : Nat) (n : Nat) (block : Option Nat) :
    Keeps s0 (State.stray s t k n block) := by
  unfold State.stray
  repeat' first
    | with_reducible first
      | assumption | exact Keeps.refl _ | apply State.count_keeps | apply State.failPost_keeps
      | apply State.settle_keeps | apply Keeps.ite
    | dsimp only | split

theorem State.addPartial_keeps {s0 s : State} (h0 : Keeps s0 s) (t : Nat) (g : GatherOp) (off : Nat) (q : Nat)
    (v : List Word) :
    Keeps s0 (State.addPartial s t g off q v) := by
  unfold State.addPartial
  repeat' first
    | with_reducible first
      | assumption | exact Keeps.refl _ | apply State.spPatch_keeps | apply State.consume_keeps | apply Keeps.ite
    | dsimp only | split

theorem execPartialArrival_next (s : State) (tile : Nat) (src : Nat) :
    ∃ t, execPartialArrival tile src s = .next t ∧ Keeps s t := by
  refine ⟨_, rfl, ?_⟩
  repeat' first
    | with_reducible first
      | assumption | exact Keeps.refl _ | apply State.consume_keeps | apply State.takeFelt_keeps
      | apply State.stray_keeps | apply State.addPartial_keeps | apply Keeps.ite
    | dsimp only | split

theorem State.combineEnd_keeps {s0 s : State} (h0 : Keeps s0 s) (t : Nat) (g : GatherOp) (m : Nat) :
    Keeps s0 (State.combineEnd s t g m) := by
  unfold State.combineEnd
  repeat' first
    | with_reducible first
      | assumption | exact Keeps.refl _ | apply State.modTile_keeps | apply State.signal_keeps | apply Keeps.ite
    | dsimp only | split

theorem execCombineEndMarkerArrival_next (s : State) (tile : Nat) (src : Nat) :
    ∃ t, execCombineEndMarkerArrival tile src s = .next t ∧ Keeps s t := by
  refine ⟨_, rfl, ?_⟩
  repeat' first
    | with_reducible first
      | assumption | exact Keeps.refl _ | refine Keeps.each ?_ _ _ (fun _ _ _ => ?_) | apply State.takeFelt_keeps
      | apply State.stray_keeps | apply State.combineEnd_keeps | apply Keeps.ite | apply KeepsParts.same | intro _
    | dsimp only | simp only [keeps_mk] | split

theorem execOverMarkerArrival_next (s : State) (tile : Nat) (src : Nat) :
    ∃ t, execOverMarkerArrival tile src s = .next t ∧ Keeps s t := by
  refine ⟨_, rfl, ?_⟩
  repeat' first
    | with_reducible first
      | assumption | exact Keeps.refl _ | refine Keeps.each ?_ _ _ (fun _ _ _ => ?_) | apply State.modTile_keeps
      | apply State.failPost_keeps | apply State.signal_keeps | apply State.settle_keeps | apply State.takeFelt_keeps
      | apply Keeps.ite | intro _
    | dsimp only | split

theorem State.gradEntry_keeps {s0 s : State} (h0 : Keeps s0 s) (tile : Nat) (k : Nat) (n : Nat) (l : Bytes)
    (bad : List Nat) (off : Nat) (len : Nat) (i : Nat) :
    Keeps s0 (State.gradEntry s tile k n l bad off len i) := by
  unfold State.gradEntry
  repeat' first
    | with_reducible first
      | assumption | exact Keeps.refl _ | apply State.modPost_keeps | apply State.count_keeps
      | apply State.sendFelt_keeps | apply Keeps.ite
    | dsimp only | split

theorem State.gradEnds_keeps {s0 s : State} (h0 : Keeps s0 s) (tile : Nat) (k : Nat) (n : Nat) (scale : Word) :
    Keeps s0 (State.gradEnds s tile k n scale) := by
  unfold State.gradEnds
  repeat' first
    | with_reducible first
      | assumption | exact Keeps.refl _ | refine Keeps.each ?_ _ _ (fun _ _ _ => ?_) | apply State.sendFelt_keeps
      | intro _
    | dsimp only | split

theorem execGradDispatch_next (s : State) (tile : Nat) (ctx : Nat) :
    ∃ t, execGradDispatch tile ctx s = .next t ∧ Keeps s t := by
  refine ⟨_, rfl, ?_⟩
  repeat' first
    | with_reducible first
      | assumption | exact Keeps.refl _ | refine Keeps.each ?_ _ _ (fun _ _ _ => ?_) | apply State.consume_keeps
      | apply State.issue1_keeps | apply State.startGop_keeps | apply State.gradEntry_keeps
      | apply State.gradEnds_keeps | apply Keeps.ite | intro _
    | dsimp only | split

theorem State.updateRow_keeps {s0 s : State} (h0 : Keeps s0 s) (step : Nat) (g : UWork) (k : Nat) (loc : Nat) :
    Keeps s0 (State.updateRow s step g k loc).1 := by
  unfold State.updateRow
  repeat' first
    | with_reducible first
      | assumption | exact Keeps.refl _ | apply State.modPost_keeps | apply State.count_keeps
      | apply State.rowCache_keeps | apply Keeps.ite | apply KeepsParts.same
    | dsimp only | simp only [keeps_mk] | split

theorem State.runUpdate_keeps {s0 s : State} (h0 : Keeps s0 s) (g : UWork) :
    Keeps s0 (State.runUpdate s g) := by
  unfold State.runUpdate
  repeat' first
    | with_reducible first
      | assumption | exact Keeps.refl _ | refine Keeps.foldl ?_ _ _ (fun _ _ _ => ?_)
      | refine Keeps.foldl_fst _ _ (fun _ _ _ => ?_) _ ?_ | refine Keeps.foldl_snd _ _ (fun _ _ _ => ?_) _ ?_
      | apply State.setUwork_keeps | apply State.updateRow_keeps | apply Keeps.ite
      | refine Keeps.of_fst (by assumption) ?_ | refine Keeps.of_snd (by assumption) ?_
      | refine Keeps.of_fst3 (by assumption) ?_ | intro _
    | dsimp only | split

theorem execUpdateStepStart_next (s : State) (tile : Nat) (post : Nat) (table : Nat) :
    ∃ t, execUpdateStepStart tile post table s = .next t ∧ Keeps s t := by
  refine ⟨_, rfl, ?_⟩
  repeat' first
    | with_reducible first
      | assumption | exact Keeps.refl _ | apply State.runUpdate_keeps | apply Keeps.ite
    | dsimp only | split

theorem State.addGrad_keeps {s0 s : State} (h0 : Keeps s0 s) (g : UWork) (loc : Nat) (x : List Word) (bad : Bool) :
    Keeps s0 (State.addGrad s g loc x bad) := by
  unfold State.addGrad
  repeat' first
    | with_reducible first
      | assumption | exact Keeps.refl _ | apply State.count_keeps | apply State.setUwork_keeps | apply Keeps.ite
    | dsimp only | split

theorem execGradientArrival_next (s : State) (tile : Nat) (src : Nat) :
    ∃ t, execGradientArrival tile src s = .next t ∧ Keeps s t := by
  refine ⟨_, rfl, ?_⟩
  repeat' first
    | with_reducible first
      | assumption | exact Keeps.refl _ | apply State.accept_keeps | apply State.addGrad_keeps | apply Keeps.ite
    | dsimp only | split

theorem execUpdateEndMarkerArrival_next (s : State) (tile : Nat) (src : Nat) :
    ∃ t, execUpdateEndMarkerArrival tile src s = .next t ∧ Keeps s t := by
  refine ⟨_, rfl, ?_⟩
  repeat' first
    | with_reducible first
      | assumption | exact Keeps.refl _ | apply State.accept_keeps | apply State.runUpdate_keeps | apply Keeps.ite
    | dsimp only | split

theorem State.notePeak_keeps {s0 s : State} (h0 : Keeps s0 s) :
    Keeps s0 (State.notePeak s) := by
  unfold State.notePeak
  repeat' first
    | with_reducible first
      | assumption | exact Keeps.refl _ | apply KeepsParts.same
    | dsimp only | simp only [keeps_mk] | split

theorem State.sendReports_keeps {s0 s : State} (h0 : Keeps s0 s) :
    Keeps s0 (State.sendReports s) := by
  unfold State.sendReports
  repeat' first
    | with_reducible first
      | assumption | exact Keeps.refl _ | refine Keeps.each ?_ _ _ (fun _ _ _ => ?_) | apply State.setUwork_keeps
      | intro _
    | dsimp only | split

theorem State.decide1_keeps {s0 s : State} (h0 : Keeps s0 s) (k : Nat) (v : Post) :
    Keeps s0 (State.decide1 s k v) := by
  unfold State.decide1
  repeat' first
    | with_reducible first
      | assumption | exact Keeps.refl _ | refine Keeps.each ?_ _ _ (fun _ _ _ => ?_)
      | refine Keeps.foldl ?_ _ _ (fun _ _ _ => ?_) | refine Keeps.foldl_fst _ _ (fun _ _ _ => ?_) _ ?_
      | refine Keeps.foldl_snd _ _ (fun _ _ _ => ?_) _ ?_ | apply State.setPost_keeps | apply State.count_keeps
      | apply State.failPost_keeps | apply State.settle_keeps | apply State.notePeak_keeps | apply Keeps.ite
      | refine Keeps.of_fst (by assumption) ?_ | refine Keeps.of_snd (by assumption) ?_ | intro _
    | dsimp only | split

theorem execCommitRun_next (s : State) :
    ∃ t, execCommitRun s = .next t ∧ Keeps s t := by
  refine ⟨_, rfl, ?_⟩
  repeat' first
    | with_reducible first
      | assumption | exact Keeps.refl _ | apply State.sendReports_keeps | apply State.decide1_keeps
    | dsimp only | split

theorem State.abandonMove_keeps {s0 s : State} (h0 : Keeps s0 s) (tile : Nat) (u : Nat) (loc : Nat) (e : DirEnt) :
    Keeps s0 (State.abandonMove s tile u loc e) := by
  unfold State.abandonMove
  repeat' first
    | with_reducible first
      | assumption | exact Keeps.refl _ | apply State.count_keeps | apply State.setDir_keeps | apply Keeps.ite
    | dsimp only | split

theorem State.moveWrite_keeps {s0 s : State} (h0 : Keeps s0 s) (tile : Nat) (u : Nat) (loc : Nat) (b : Bytes) :
    Keeps s0 (State.moveWrite s tile u loc b) := by
  unfold State.moveWrite
  repeat' first
    | with_reducible first
      | assumption | exact Keeps.refl _ | apply State.setDir_keeps | apply State.writeCopy_keeps
      | apply State.abandonMove_keeps | apply Keeps.ite
    | dsimp only | split

theorem State.markStale_keeps {s0 s : State} (h0 : Keeps s0 s) (tile : Nat) (u : Nat) (loc : Nat) :
    Keeps s0 (State.markStale s tile u loc) := by
  unfold State.markStale
  repeat' first
    | with_reducible first
      | assumption | exact Keeps.refl _ | apply State.setDir_keeps | apply Keeps.ite
    | dsimp only | split

theorem State.writeRow_keeps {s0 s : State} (h0 : Keeps s0 s) (tile : Nat) (u : Nat) (loc : Nat) (step : Nat)
    (b : Bytes) :
    Keeps s0 (State.writeRow s tile u loc step b) := by
  unfold State.writeRow
  repeat' first
    | with_reducible first
      | assumption | exact Keeps.refl _ | apply State.count_keeps | apply State.writeCopy_keeps
      | apply State.moveWrite_keeps | apply State.markStale_keeps | apply Keeps.ite | apply KeepsParts.same
    | dsimp only | simp only [keeps_mk] | split

theorem State.writeUnit_keeps {s0 s : State} (h0 : Keeps s0 s) (step : Nat) (g : UWork) :
    Keeps s0 (State.writeUnit s step g) := by
  unfold State.writeUnit
  repeat' first
    | with_reducible first
      | assumption | exact Keeps.refl _ | refine Keeps.each ?_ _ _ (fun _ _ _ => ?_) | apply State.count_keeps
      | apply State.writeRow_keeps | apply Keeps.ite | intro _
    | dsimp only | split

theorem State.makeWrites_keeps {s0 s : State} (h0 : Keeps s0 s) (k : Nat) :
    Keeps s0 (State.makeWrites s k) := by
  unfold State.makeWrites
  repeat' first
    | with_reducible first
      | assumption | exact Keeps.refl _ | refine Keeps.each ?_ _ _ (fun _ _ _ => ?_) | apply State.modPost_keeps
      | apply State.notePeak_keeps | apply State.writeUnit_keeps | apply Keeps.ite | apply KeepsParts.same | intro _
    | dsimp only | simp only [keeps_mk] | split

theorem execUpdateWritesDone_next (s : State) (post : Nat) :
    ∃ t, execUpdateWritesDone post s = .next t ∧ Keeps s t := by
  refine ⟨_, rfl, ?_⟩
  repeat' first
    | with_reducible first
      | assumption | exact Keeps.refl _ | apply State.settle_keeps | apply State.makeWrites_keeps | apply Keeps.ite
    | dsimp only | split

theorem State.drainWb_keeps {s0 s : State} (h0 : Keeps s0 s) (t : Nat) :
    Keeps s0 (State.drainWb s t) := by
  unfold State.drainWb
  repeat' first
    | with_reducible first
      | assumption | exact Keeps.refl _ | apply Keeps.ite | apply KeepsParts.same
    | dsimp only | simp only [keeps_mk] | split

theorem State.moved_keeps {s0 s : State} (h0 : Keeps s0 s) (tile : Nat) :
    Keeps s0 (State.moved s tile) := by
  unfold State.moved
  repeat' first
    | with_reducible first
      | assumption | exact Keeps.refl _ | apply KeepsParts.same
    | dsimp only | simp only [keeps_mk] | split

theorem execMigrationPromote_next (s : State) (tile : Nat) (table : Nat) (loc : Nat) (place : Nat) :
    ∃ t, execMigrationPromote tile table loc place s = .next t ∧ Keeps s t := by
  refine ⟨_, rfl, ?_⟩
  repeat' first
    | with_reducible first
      | assumption | exact Keeps.refl _ | apply State.setDir_keeps | apply State.moved_keeps | apply Keeps.ite
    | dsimp only | split

theorem execMigrationDemote_next (s : State) (tile : Nat) (table : Nat) (loc : Nat) :
    ∃ t, execMigrationDemote tile table loc s = .next t ∧ Keeps s t := by
  refine ⟨_, rfl, ?_⟩
  repeat' first
    | with_reducible first
      | assumption | exact Keeps.refl _ | apply State.setDir_keeps | apply State.moved_keeps | apply Keeps.ite
    | dsimp only | split

theorem State.moveRow_keeps {s0 s : State} (h0 : Keeps s0 s) (src : Nat) (dst : Nat) (n : Nat) :
    Keeps s0 (State.moveRow s src dst n) := by
  unfold State.moveRow
  repeat' first
    | with_reducible first
      | assumption | exact Keeps.refl _ | refine Keeps.each ?_ _ _ (fun _ _ _ => ?_) | apply State.poisonT1_keeps
      | apply State.poisonT0_keeps | apply State.rebuildIn_keeps | apply State.writeCopy_keeps | apply Keeps.ite
      | intro _
    | dsimp only | split

theorem execMigrationCopyDone_next (s : State) (tile : Nat) (table : Nat) (loc : Nat) :
    ∃ t, execMigrationCopyDone tile table loc s = .next t ∧ Keeps s t := by
  refine ⟨_, rfl, ?_⟩
  repeat' first
    | with_reducible first
      | assumption | exact Keeps.refl _ | apply State.setDir_keeps | apply State.abandonMove_keeps
      | apply State.drainWb_keeps | apply State.moveRow_keeps | apply Keeps.ite
    | dsimp only | split

theorem execMigrationCatchUpDone_next (s : State) (tile : Nat) (table : Nat) (loc : Nat) :
    ∃ t, execMigrationCatchUpDone tile table loc s = .next t ∧ Keeps s t := by
  refine ⟨_, rfl, ?_⟩
  repeat' first
    | with_reducible first
      | assumption | exact Keeps.refl _ | apply State.setDir_keeps | apply State.abandonMove_keeps
      | apply State.drainWb_keeps | apply State.moveRow_keeps | apply Keeps.ite
    | dsimp only | split

theorem State.flipMove_keeps {s0 s : State} (h0 : Keeps s0 s) (tile : Nat) (u : Nat) (loc : Nat) :
    Keeps s0 (State.flipMove s tile u loc) := by
  unfold State.flipMove
  repeat' first
    | with_reducible first
      | assumption | exact Keeps.refl _ | apply State.count_keeps | apply State.setDir_keeps
      | apply State.abandonMove_keeps | apply Keeps.ite | apply KeepsParts.same
    | dsimp only | simp only [keeps_mk] | split

theorem State.flipMoves_keeps {s0 s : State} (h0 : Keeps s0 s) :
    Keeps s0 (State.flipMoves s) := by
  unfold State.flipMoves
  repeat' first
    | with_reducible first
      | assumption | exact Keeps.refl _ | refine Keeps.each ?_ _ _ (fun _ _ _ => ?_) | apply State.flipMove_keeps
      | apply KeepsParts.same | intro _
    | dsimp only | simp only [keeps_mk] | split

theorem State.abandonMoves_keeps {s0 s : State} (h0 : Keeps s0 s) :
    Keeps s0 (State.abandonMoves s) := by
  unfold State.abandonMoves
  repeat' first
    | with_reducible first
      | assumption | exact Keeps.refl _ | refine Keeps.each ?_ _ _ (fun _ _ _ => ?_) | apply State.abandonMove_keeps
      | apply Keeps.ite | intro _
    | dsimp only | split

theorem execMigrationRelease_next (s : State) (tile : Nat) (table : Nat) (loc : Nat) :
    ∃ t, execMigrationRelease tile table loc s = .next t ∧ Keeps s t := by
  refine ⟨_, rfl, ?_⟩
  repeat' first
    | with_reducible first
      | assumption | exact Keeps.refl _ | apply State.count_keeps | apply State.setDir_keeps | apply Keeps.ite
    | dsimp only | split

theorem execMigCtrlEnableClear_next (s : State) (value : Word) :
    ∃ t, execMigCtrlEnableClear value s = .next t ∧ Keeps s t := by
  refine ⟨_, rfl, ?_⟩
  repeat' first
    | with_reducible first
      | assumption | exact Keeps.refl _ | apply State.store_keeps | apply State.abandonMoves_keeps | apply Keeps.ite
    | dsimp only | split

theorem State.writeBackRow_keeps {s0 s : State} (h0 : Keeps s0 s) (tile : Nat) (u : Nat) (loc : Nat) :
    Keeps s0 (State.writeBackRow s tile u loc) := by
  unfold State.writeBackRow
  repeat' first
    | with_reducible first
      | assumption | exact Keeps.refl _ | apply State.setDir_keeps | apply State.drainWb_keeps
      | apply State.moveRow_keeps | apply Keeps.ite
    | dsimp only | split

theorem execStaleRowWriteBack_next (s : State) (tile : Nat) (table : Nat) (loc : Nat) :
    ∃ t, execStaleRowWriteBack tile table loc s = .next t ∧ Keeps s t := by
  refine ⟨_, rfl, ?_⟩
  repeat' first
    | with_reducible first
      | assumption | exact Keeps.refl _ | apply State.writeBackRow_keeps
    | dsimp only | split

theorem State.writeBackAll_keeps {s0 s : State} (h0 : Keeps s0 s) :
    Keeps s0 (State.writeBackAll s) := by
  unfold State.writeBackAll
  repeat' first
    | with_reducible first
      | assumption | exact Keeps.refl _ | refine Keeps.each ?_ _ _ (fun _ _ _ => ?_) | apply State.writeBackRow_keeps
      | intro _
    | dsimp only | split

end Sys2Proof.Machine
end

