-- ==== Sys2Proof/Laws/KeepReam.lean ====
section
/-! SUPPORT. `Keeps` for the ream, its posts, the sweep and the clocks:
the waiting commands, the fuses and the canonical form of memory stay. -/

namespace Sys2Proof.Machine
set_option linter.unusedTactic false
set_option linter.unreachableTactic false

theorem State.setVault_keeps {s0 s : State} (h0 : Keeps s0 s) (v : Vault) :
    Keeps s0 (State.setVault s v) := by
  unfold State.setVault
  repeat' first
    | with_reducible first
      | assumption | exact Keeps.refl _ | apply KeepsParts.same
    | dsimp only | simp only [keeps_mk] | split

theorem State.modVault_keeps {s0 s : State} (h0 : Keeps s0 s) (f : Vault → Vault) :
    Keeps s0 (State.modVault s f) := by
  unfold State.modVault
  repeat' first
    | with_reducible first
      | assumption | exact Keeps.refl _ | apply State.setVault_keeps
    | dsimp only | split

theorem State.putRec_keeps {s0 s : State} (h0 : Keeps s0 s) (r : VRec) :
    Keeps s0 (State.putRec s r) := by
  unfold State.putRec
  repeat' first
    | with_reducible first
      | assumption | exact Keeps.refl _ | apply State.count_keeps | apply State.setVault_keeps
    | dsimp only | split

theorem State.vaultWait_keeps {s0 s : State} (h0 : Keeps s0 s) (k : Nat) :
    Keeps s0 (State.vaultWait s k) := by
  unfold State.vaultWait
  repeat' first
    | with_reducible first
      | assumption | exact Keeps.refl _ | apply State.count_keeps | apply State.modVault_keeps | apply Keeps.ite
    | dsimp only | split

theorem State.append_keeps {s0 s : State} (h0 : Keeps s0 s) (rs : List VRec) :
    Keeps s0 (State.append s rs) := by
  unfold State.append
  repeat' first
    | with_reducible first
      | assumption | exact Keeps.refl _ | refine Keeps.each ?_ _ _ (fun _ _ _ => ?_)
      | refine Keeps.foldl ?_ _ _ (fun _ _ _ => ?_) | refine Keeps.foldl_fst _ _ (fun _ _ _ => ?_) _ ?_
      | refine Keeps.foldl_snd _ _ (fun _ _ _ => ?_) _ ?_ | apply State.modVault_keeps | apply State.putRec_keeps
      | apply State.vaultWait_keeps | apply Keeps.ite | refine Keeps.of_fst (by assumption) ?_
      | refine Keeps.of_snd (by assumption) ?_ | intro _
    | dsimp only | split

theorem State.appendThen_keeps {s0 s : State} (h0 : Keeps s0 s) (rs : List VRec) (f : State → State)
    (hf : ∀ t, Keeps s0 t → Keeps s0 (f t)) :
    Keeps s0 (State.appendThen s rs f) := by
  unfold State.appendThen
  repeat' first
    | with_reducible first
      | assumption | exact Keeps.refl _ | apply hf | apply State.append_keeps | apply Keeps.ite | intro _
    | dsimp only | split

theorem State.storeRec_keeps {s0 s : State} (h0 : Keeps s0 s) (u : Nat) (plain : Nat) (shut : Nat) (body : Bytes) :
    Keeps s0 (State.storeRec s u plain shut body).1 := by
  unfold State.storeRec
  repeat' first
    | with_reducible first
      | assumption | exact Keeps.refl _ | apply State.freeVals_keeps | refine Keeps.of_snd (by assumption) ?_
    | dsimp only | split

theorem State.rowsRec_keeps {s0 s : State} (h0 : Keeps s0 s) (u : Nat) (rows : List (Nat × Nat)) :
    Keeps s0 (State.rowsRec s u rows).1 := by
  unfold State.rowsRec
  repeat' first
    | with_reducible first
      | assumption | exact Keeps.refl _ | refine Keeps.each ?_ _ _ (fun _ _ _ => ?_) | apply State.rebuildIn_keeps
      | apply State.storeRec_keeps | apply Keeps.ite | refine Keeps.of_fst (by assumption) ?_
      | refine Keeps.of_fst3 (by assumption) ?_ | intro _
    | dsimp only | split

theorem State.flipRecs_keeps {s0 s : State} (h0 : Keeps s0 s) (fs : List (Nat × Nat × Nat × Nat)) :
    Keeps s0 (State.flipRecs s fs).1 := by
  unfold State.flipRecs
  repeat' first
    | with_reducible first
      | assumption | exact Keeps.refl _ | refine Keeps.foldl ?_ _ _ (fun _ _ _ => ?_)
      | refine Keeps.foldl_fst _ _ (fun _ _ _ => ?_) _ ?_ | refine Keeps.foldl_snd _ _ (fun _ _ _ => ?_) _ ?_
      | apply State.storeRec_keeps | apply Keeps.ite | refine Keeps.of_fst (by assumption) ?_
      | refine Keeps.of_snd (by assumption) ?_ | refine Keeps.of_fst3 (by assumption) ?_ | intro _
    | dsimp only | split

theorem State.baseNext_keeps {s0 s : State} (h0 : Keeps s0 s) :
    Keeps s0 (State.baseNext s) := by
  unfold State.baseNext
  repeat' first
    | with_reducible first
      | assumption | exact Keeps.refl _ | apply State.modVault_keeps | apply State.appendThen_keeps
      | apply State.flipRecs_keeps | apply Keeps.ite | refine Keeps.of_fst (by assumption) ?_
      | refine Keeps.of_fst3 (by assumption) ?_ | intro _
    | dsimp only | split

theorem State.stepNext_keeps {s0 s : State} (h0 : Keeps s0 s) :
    Keeps s0 (State.stepNext s) := by
  unfold State.stepNext
  repeat' first
    | with_reducible first
      | assumption | exact Keeps.refl _ | apply State.modVault_keeps | apply State.appendThen_keeps | apply Keeps.ite
      | intro _
    | dsimp only | split

theorem State.appendFlips_keeps {s0 s : State} (h0 : Keeps s0 s) :
    Keeps s0 (State.appendFlips s) := by
  unfold State.appendFlips
  repeat' first
    | with_reducible first
      | assumption | exact Keeps.refl _ | apply State.appendThen_keeps | apply State.flipRecs_keeps | apply Keeps.ite
      | apply KeepsParts.same | refine Keeps.of_fst (by assumption) ?_ | refine Keeps.of_fst3 (by assumption) ?_
      | intro _
    | dsimp only | simp only [keeps_mk] | split

theorem State.appendRows_keeps {s0 s : State} (h0 : Keeps s0 s) (u : Nat) (rows : List (Nat × Nat)) :
    Keeps s0 (State.appendRows s u rows) := by
  unfold State.appendRows
  repeat' first
    | with_reducible first
      | assumption | exact Keeps.refl _ | apply State.modVault_keeps | apply State.appendThen_keeps
      | apply State.rowsRec_keeps | apply Keeps.ite | apply KeepsParts.same | refine Keeps.of_fst (by assumption) ?_
      | refine Keeps.of_fst3 (by assumption) ?_ | intro _
    | dsimp only | simp only [keeps_mk] | split

theorem State.appendState_keeps {s0 s : State} (h0 : Keeps s0 s) :
    Keeps s0 (State.appendState s) := by
  unfold State.appendState
  repeat' first
    | with_reducible first
      | assumption | exact Keeps.refl _ | apply State.count_keeps | apply State.modVault_keeps
      | apply State.putRec_keeps | apply Keeps.ite
    | dsimp only | split

theorem State.appendHeld_keeps {s0 s : State} (h0 : Keeps s0 s) :
    Keeps s0 (State.appendHeld s) := by
  unfold State.appendHeld
  repeat' first
    | with_reducible first
      | assumption | exact Keeps.refl _ | refine Keeps.each ?_ _ _ (fun _ _ _ => ?_) | apply State.modVault_keeps
      | apply State.putRec_keeps | apply Keeps.ite | intro _
    | dsimp only | split

theorem State.flushRows_keeps {s0 s : State} (h0 : Keeps s0 s) :
    Keeps s0 (State.flushRows s) := by
  unfold State.flushRows
  repeat' first
    | with_reducible first
      | assumption | exact Keeps.refl _ | refine Keeps.each ?_ _ _ (fun _ _ _ => ?_) | apply State.putRec_keeps
      | apply State.rowsRec_keeps | refine Keeps.of_fst (by assumption) ?_ | refine Keeps.of_fst3 (by assumption) ?_
      | intro _
    | dsimp only | split

theorem State.allDurable_keeps {s0 s : State} (h0 : Keeps s0 s) :
    Keeps s0 (State.allDurable s) := by
  unfold State.allDurable
  repeat' first
    | with_reducible first
      | assumption | exact Keeps.refl _ | apply State.modVault_keeps | apply KeepsParts.same
    | dsimp only | simp only [keeps_mk] | split

theorem State.setSender_keeps {s0 s : State} (h0 : Keeps s0 s) (p : Option Pair) :
    Keeps s0 (State.setSender s p) := by
  unfold State.setSender
  repeat' first
    | with_reducible first
      | assumption | exact Keeps.refl _ | apply KeepsParts.same
    | dsimp only | simp only [keeps_mk] | split

theorem State.setReceiver_keeps {s0 s : State} (h0 : Keeps s0 s) (p : Option Pair) :
    Keeps s0 (State.setReceiver s p) := by
  unfold State.setReceiver
  repeat' first
    | with_reducible first
      | assumption | exact Keeps.refl _ | apply KeepsParts.same
    | dsimp only | simp only [keeps_mk] | split

theorem State.intakePut_keeps {s0 s : State} (h0 : Keeps s0 s) (p : Pair) (b : Bytes) :
    Keeps s0 (State.intakePut s p b) := by
  unfold State.intakePut
  repeat' first
    | with_reducible first
      | assumption | exact Keeps.refl _ | apply State.writeSeg_keeps | apply State.openRange_keeps
    | dsimp only | split

theorem State.intakeStep_keeps {s0 s : State} (h0 : Keeps s0 s) :
    Keeps s0 (State.intakeStep s) := by
  unfold State.intakeStep
  repeat' first
    | with_reducible first
      | assumption | exact Keeps.refl _ | apply State.count_keeps | apply State.snoop_keeps
      | apply State.modVault_keeps | apply State.vaultWait_keeps | apply State.setReceiver_keeps
      | apply State.intakePut_keeps | apply Keeps.ite
    | dsimp only | split

theorem State.intakeGo_keeps {s0 s : State} (h0 : Keeps s0 s) :
    Keeps s0 (State.intakeGo s) := by
  unfold State.intakeGo
  repeat' first
    | with_reducible first
      | assumption | exact Keeps.refl _ | refine Keeps.each ?_ _ _ (fun _ _ _ => ?_) | apply State.intakeStep_keeps
      | intro _
    | dsimp only | split

theorem State.spPadded_keeps {s0 s : State} (h0 : Keeps s0 s) (t : Nat) (line : Nat) (b : Bytes) :
    Keeps s0 (State.spPadded s t line b) := by
  unfold State.spPadded
  repeat' first
    | with_reducible first
      | assumption | exact Keeps.refl _ | apply State.spWrite_keeps
    | dsimp only | split

theorem State.copyRecs_keeps {s0 s : State} (h0 : Keeps s0 s) (rs : List Rec) :
    Keeps s0 (State.copyRecs s rs) := by
  unfold State.copyRecs
  repeat' first
    | with_reducible first
      | assumption | exact Keeps.refl _ | refine Keeps.each ?_ _ _ (fun _ _ _ => ?_) | apply State.spPadded_keeps
      | intro _
    | dsimp only | split

theorem State.keepCopy_keeps {s0 s : State} (h0 : Keeps s0 s) (used : List CopyRec) (r : Rec) :
    Keeps s0 (State.keepCopy s used r).2 := by
  unfold State.keepCopy
  repeat' first
    | with_reducible first
      | assumption | exact Keeps.refl _ | apply State.writeT1_keeps
    | dsimp only | split

theorem State.keepCopies_keeps {s0 s : State} (h0 : Keeps s0 s) (used : List CopyRec) (rs : List Rec) :
    Keeps s0 (State.keepCopies s used rs).2 := by
  unfold State.keepCopies
  repeat' first
    | with_reducible first
      | assumption | exact Keeps.refl _ | refine Keeps.foldl ?_ _ _ (fun _ _ _ => ?_)
      | refine Keeps.foldl_fst _ _ (fun _ _ _ => ?_) _ ?_ | refine Keeps.foldl_snd _ _ (fun _ _ _ => ?_) _ ?_
      | apply State.keepCopy_keeps | refine Keeps.of_fst (by assumption) ?_ | refine Keeps.of_snd (by assumption) ?_
      | intro _
    | dsimp only | split

theorem State.readCopy_keeps {s0 s : State} (h0 : Keeps s0 s) (c : CopyRec) (r : Rec) :
    Keeps s0 (State.readCopy s c r).2.2 := by
  unfold State.readCopy
  repeat' first
    | with_reducible first
      | assumption | exact Keeps.refl _ | apply State.count_keeps | apply State.rebuildIn_keeps | apply Keeps.ite
    | dsimp only | split

theorem State.reloadRec_keeps {s0 s : State} (h0 : Keeps s0 s) (v : Ver) (c : CopyRec) (pick : Nat → Bool) :
    Keeps s0 (State.reloadRec s v c pick) := by
  unfold State.reloadRec
  repeat' first
    | with_reducible first
      | assumption | exact Keeps.refl _ | refine Keeps.each ?_ _ _ (fun _ _ _ => ?_) | apply State.spWrite_keeps
      | apply State.readCopy_keeps | apply Keeps.ite | apply KeepsParts.same | refine Keeps.of_snd3 (by assumption) ?_
      | intro _
    | dsimp only | simp only [keeps_mk] | split

theorem State.reloadTile_keeps {s0 s : State} (h0 : Keeps s0 s) (t : Nat) (all : Bool) :
    Keeps s0 (State.reloadTile s t all) := by
  unfold State.reloadTile
  repeat' first
    | with_reducible first
      | assumption | exact Keeps.refl _ | refine Keeps.each ?_ _ _ (fun _ _ _ => ?_) | apply State.reloadRec_keeps
      | intro _
    | dsimp only | split

theorem State.beaterCount_keeps {s0 s : State} (h0 : Keeps s0 s) (raw : Nat) (cod : Nat) :
    Keeps s0 (State.beaterCount s raw cod) := by
  unfold State.beaterCount
  repeat' first
    | with_reducible first
      | assumption | exact Keeps.refl _ | apply State.count_keeps | apply Keeps.ite
    | dsimp only | split

theorem State.setBounds_keeps {s0 s : State} (h0 : Keeps s0 s) :
    Keeps s0 (State.setBounds s) := by
  unfold State.setBounds
  repeat' first
    | with_reducible first
      | assumption | exact Keeps.refl _ | refine Keeps.each ?_ _ _ (fun _ _ _ => ?_) | apply State.modPart_keeps
      | intro _
    | dsimp only | split

theorem State.useBounds_keeps {s0 s : State} (h0 : Keeps s0 s) :
    Keeps s0 (State.useBounds s) := by
  unfold State.useBounds
  repeat' first
    | with_reducible first
      | assumption | exact Keeps.refl _ | refine Keeps.each ?_ _ _ (fun _ _ _ => ?_) | apply State.modPart_keeps
      | intro _
    | dsimp only | split

theorem State.dropGating_keeps {s0 s : State} (h0 : Keeps s0 s) (g : Nat) :
    Keeps s0 (State.dropGating s g) := by
  unfold State.dropGating
  repeat' first
    | with_reducible first
      | assumption | exact Keeps.refl _ | refine Keeps.each ?_ _ _ (fun _ _ _ => ?_) | apply State.modTile_keeps
      | apply Keeps.ite | apply KeepsParts.same | intro _
    | dsimp only | simp only [keeps_mk] | split

theorem State.askWake1_keeps {s0 s : State} (h0 : Keeps s0 s) (g : Nat) :
    Keeps s0 (State.askWake1 s g) := by
  unfold State.askWake1
  repeat' first
    | with_reducible first
      | assumption | exact Keeps.refl _ | apply State.dropGating_keeps | apply Keeps.ite | apply KeepsParts.same
    | dsimp only | simp only [keeps_mk] | split

theorem State.askWake_keeps {s0 s : State} (h0 : Keeps s0 s) (gs : List Nat) :
    Keeps s0 (State.askWake s gs) := by
  unfold State.askWake
  repeat' first
    | with_reducible first
      | assumption | exact Keeps.refl _ | refine Keeps.each ?_ _ _ (fun _ _ _ => ?_) | apply State.askWake1_keeps
      | intro _
    | dsimp only | split

theorem State.unstage_keeps {s0 s : State} (h0 : Keeps s0 s) (k : Nat) :
    Keeps s0 (State.unstage s k) := by
  unfold State.unstage
  repeat' first
    | with_reducible first
      | assumption | exact Keeps.refl _ | apply Keeps.ite | apply KeepsParts.same
    | dsimp only | simp only [keeps_mk] | split

theorem State.endUnadmitted_keeps {s0 s : State} (h0 : Keeps s0 s) (k : Nat) (st : Nat) :
    Keeps s0 (State.endUnadmitted s k st) := by
  unfold State.endUnadmitted
  repeat' first
    | with_reducible first
      | assumption | exact Keeps.refl _ | apply State.leaveQueue_keeps | apply State.finish_keeps
      | apply State.clearPost_keeps | apply State.unstage_keeps
    | dsimp only | split

theorem State.extend_keeps {s0 s : State} (h0 : Keeps s0 s) (i : Nat) (event : Nat) (info : Bytes) (d : Bytes) :
    Keeps s0 (State.extend s i event info d) := by
  unfold State.extend
  repeat' first
    | with_reducible first
      | assumption | exact Keeps.refl _ | apply Keeps.ite | apply KeepsParts.same
    | dsimp only | simp only [keeps_mk] | split

theorem State.appendAll_keeps {s0 s : State} (h0 : Keeps s0 s) :
    Keeps s0 (State.appendAll s) := by
  unfold State.appendAll
  repeat' first
    | with_reducible first
      | assumption | exact Keeps.refl _ | refine Keeps.each ?_ _ _ (fun _ _ _ => ?_) | apply State.stepNext_keeps
      | apply State.appendFlips_keeps | apply State.appendRows_keeps | intro _
    | dsimp only | split

theorem State.checkpointEnd_keeps {s0 s : State} (h0 : Keeps s0 s) (m : Commit) (c : Nat) :
    Keeps s0 (State.checkpointEnd s m c) := by
  unfold State.checkpointEnd
  repeat' first
    | with_reducible first
      | assumption | exact Keeps.refl _ | apply State.finish_keeps | apply State.writeSeg_keeps
      | apply State.openRange_keeps | apply Keeps.ite | apply KeepsParts.same
    | dsimp only | simp only [keeps_mk] | split

theorem State.commitGo_keeps {s0 s : State} (h0 : Keeps s0 s) :
    Keeps s0 (State.commitGo s) := by
  unfold State.commitGo
  repeat' first
    | with_reducible first
      | assumption | exact Keeps.refl _ | apply State.finish_keeps | apply State.snoop_keeps
      | apply State.writeBackAll_keeps | apply State.appendThen_keeps | apply State.appendAll_keeps
      | apply State.checkpointEnd_keeps | apply Keeps.ite | apply KeepsParts.same | intro _
    | dsimp only | simp only [keeps_mk] | split

theorem State.commitStart_keeps {s0 s : State} (h0 : Keeps s0 s) (k : Nat) (check : Bool) :
    Keeps s0 (State.commitStart s k check) := by
  unfold State.commitStart
  repeat' first
    | with_reducible first
      | assumption | exact Keeps.refl _ | apply State.setPhase_keeps | apply Keeps.ite | apply KeepsParts.same
    | dsimp only | simp only [keeps_mk] | split

theorem execTableCommit_next (s : State) (ring : Nat) (seq : Nat) :
    ∃ t, execTableCommit ring seq s = .next t ∧ Keeps s t := by
  refine ⟨_, rfl, ?_⟩
  repeat' first
    | with_reducible first
      | assumption | exact Keeps.refl _ | apply State.finish_keeps | apply State.front_keeps
      | apply State.commitStart_keeps | apply Keeps.ite | intro _
    | dsimp only | split

theorem execCheckpoint_next (s : State) (ring : Nat) (seq : Nat) :
    ∃ t, execCheckpoint ring seq s = .next t ∧ Keeps s t := by
  refine ⟨_, rfl, ?_⟩
  repeat' first
    | with_reducible first
      | assumption | exact Keeps.refl _ | apply State.finish_keeps | apply State.front_keeps
      | apply State.commitStart_keeps | apply Keeps.ite | intro _
    | dsimp only | split

theorem execCommitStepsDrained_next (s : State) :
    ∃ t, execCommitStepsDrained s = .next t ∧ Keeps s t := by
  refine ⟨_, rfl, ?_⟩
  repeat' first
    | with_reducible first
      | assumption | exact Keeps.refl _ | apply State.commitGo_keeps
    | dsimp only | split

theorem State.imageGet_keeps {s0 s : State} (h0 : Keeps s0 s) (k : Nat) (c : Cmd) :
    Keeps s0 (State.imageGet s k c).2 := by
  unfold State.imageGet
  repeat' first
    | with_reducible first
      | assumption | exact Keeps.refl _ | apply State.operAsk_keeps | refine Keeps.of_snd (by assumption) ?_
    | dsimp only | split

theorem State.imageAsk_keeps {s0 s : State} (h0 : Keeps s0 s) (c : Cmd) :
    Keeps s0 (State.imageAsk s c).2 := by
  unfold State.imageAsk
  repeat' first
    | with_reducible first
      | assumption | exact Keeps.refl _ | apply State.openAsk_keeps | refine Keeps.of_snd (by assumption) ?_
    | dsimp only | split

theorem State.imageFront_keeps {s0 s : State} (h0 : Keeps s0 s) (k : Nat) (op : Nat) (img : Rd)
    (go : State → Cmd → State) (hgo : ∀ t x1, Keeps s0 t → Keeps s0 (go t x1)) :
    Keeps s0 (State.imageFront s k op img go) := by
  unfold State.imageFront
  repeat' first
    | with_reducible first
      | assumption | exact Keeps.refl _ | apply hgo | apply State.refuse_keeps | apply State.front_keeps
      | apply Keeps.ite | intro _
    | dsimp only | split

theorem State.rejectImage_keeps {s0 s : State} (h0 : Keeps s0 s) (k : Nat) (reason : Nat) (idx : Nat) (coding : Bool)
    :
    Keeps s0 (State.rejectImage s k reason idx coding) := by
  unfold State.rejectImage
  repeat' first
    | with_reducible first
      | assumption | exact Keeps.refl _ | apply State.count_keeps | apply State.finish_keeps | apply Keeps.ite
      | apply KeepsParts.same
    | dsimp only | simp only [keeps_mk] | split

theorem execReamLoad_next (s : State) (ring : Nat) (seq : Nat) (img : Rd) :
    ∃ t, execReamLoad ring seq img s = .next t ∧ Keeps s t := by
  refine ⟨_, rfl, ?_⟩
  repeat' first
    | with_reducible first
      | assumption | exact Keeps.refl _ | apply State.setPhase_keeps | apply State.finish_keeps
      | apply State.beaterCount_keeps | apply State.imageGet_keeps | apply State.imageAsk_keeps
      | apply State.imageFront_keeps | apply State.rejectImage_keeps | apply Keeps.ite | apply KeepsParts.same
      | refine Keeps.of_snd (by assumption) ?_ | intro _
    | dsimp only | simp only [keeps_mk] | split

theorem State.drawKeys_keeps {s0 s : State} (h0 : Keeps s0 s) :
    Keeps s0 (State.drawKeys s) := by
  unfold State.drawKeys
  repeat' first
    | with_reducible first
      | assumption | exact Keeps.refl _ | refine Keeps.each ?_ _ _ (fun _ _ _ => ?_) | apply State.setCtr_keeps
      | apply State.freeVal_keeps | apply State.modTile_keeps | apply KeepsParts.same
      | refine Keeps.of_snd (by assumption) ?_ | intro _
    | dsimp only | simp only [keeps_mk] | split

theorem State.pinTable_keeps {s0 s : State} (h0 : Keeps s0 s) (u : Nat) :
    Keeps s0 (State.pinTable s u) := by
  unfold State.pinTable
  repeat' first
    | with_reducible first
      | assumption | exact Keeps.refl _ | refine Keeps.each ?_ _ _ (fun _ _ _ => ?_)
      | refine Keeps.foldl ?_ _ _ (fun _ _ _ => ?_) | refine Keeps.foldl_fst _ _ (fun _ _ _ => ?_) _ ?_
      | refine Keeps.foldl_snd _ _ (fun _ _ _ => ?_) _ ?_ | apply State.poisonT0_keeps | apply State.rebuildIn_keeps
      | apply Keeps.ite | apply KeepsParts.same | refine KeepsParts.write ?_ (fun _ => ?_) | exact Memory.wf_empty
      | refine Memory.wf_writeN _ _ _ ?_ | apply Memory.wf_writePart | apply Memory.wf_mark | apply Memory.wf_zero
      | apply Memory.wf_zeroBut | apply Memory.wf_writeSheets | refine Memory.wf_foldl _ _ (fun _ _ _ => ?_) _ ?_
      | refine Keeps.of_fst (by assumption) ?_ | refine Keeps.of_snd (by assumption) ?_ | intro _
    | dsimp only | simp only [keeps_mk] | split

theorem State.pinTables_keeps {s0 s : State} (h0 : Keeps s0 s) :
    Keeps s0 (State.pinTables s) := by
  unfold State.pinTables
  repeat' first
    | with_reducible first
      | assumption | exact Keeps.refl _ | refine Keeps.each ?_ _ _ (fun _ _ _ => ?_) | apply State.pinTable_keeps
      | intro _
    | dsimp only | split

theorem State.serveTiles_keeps {s0 s : State} (h0 : Keeps s0 s) :
    Keeps s0 (State.serveTiles s) := by
  unfold State.serveTiles
  repeat' first
    | with_reducible first
      | assumption | exact Keeps.refl _ | refine Keeps.each ?_ _ _ (fun _ _ _ => ?_) | apply State.modTile_keeps
      | apply Keeps.ite | intro _
    | dsimp only | split

theorem State.jobDone_keeps {s0 s : State} (h0 : Keeps s0 s) :
    Keeps s0 (State.jobDone s) := by
  unfold State.jobDone
  repeat' first
    | with_reducible first
      | assumption | exact Keeps.refl _ | refine Keeps.each ?_ _ _ (fun _ _ _ => ?_) | apply State.finish_keeps
      | apply Keeps.ite | apply KeepsParts.same | intro _
    | dsimp only | simp only [keeps_mk] | split

theorem execReamLoadCopyDone_next (s : State) :
    ∃ t, execReamLoadCopyDone s = .next t ∧ Keeps s t := by
  refine ⟨_, rfl, ?_⟩
  repeat' first
    | with_reducible first
      | assumption | exact Keeps.refl _ | apply State.finish_keeps | apply State.snoop_keeps
      | apply State.copyRecs_keeps | apply State.keepCopies_keeps | apply State.setBounds_keeps
      | apply State.useBounds_keeps | apply State.askWake_keeps | apply State.extend_keeps
      | apply State.drawKeys_keeps | apply State.pinTables_keeps | apply State.serveTiles_keeps
      | apply State.jobDone_keeps | apply Keeps.ite | apply KeepsParts.same | refine Keeps.of_snd (by assumption) ?_
    | dsimp only | simp only [keeps_mk] | split

theorem execReamPatch_next (s : State) (ring : Nat) (seq : Nat) (img : Rd) :
    ∃ t, execReamPatch ring seq img s = .next t ∧ Keeps s t := by
  refine ⟨_, rfl, ?_⟩
  repeat' first
    | with_reducible first
      | assumption | exact Keeps.refl _ | apply State.setPhase_keeps | apply State.finish_keeps
      | apply State.copyRecs_keeps | apply State.keepCopies_keeps | apply State.beaterCount_keeps
      | apply State.imageGet_keeps | apply State.imageAsk_keeps | apply State.imageFront_keeps
      | apply State.rejectImage_keeps | apply Keeps.ite | apply KeepsParts.same
      | refine Keeps.of_snd (by assumption) ?_ | intro _
    | dsimp only | simp only [keeps_mk] | split

theorem State.recheckOn_keeps {s0 s : State} (h0 : Keeps s0 s) (k : Nat) (c : Cmd) (rs : List Range) :
    Keeps s0 (State.recheckOn s k c rs) := by
  unfold State.recheckOn
  repeat' first
    | with_reducible first
      | assumption | exact Keeps.refl _ | apply State.count_keeps | apply State.faultPark_keeps
      | apply State.dropPost_keeps | apply State.endUnadmitted_keeps | apply Keeps.ite
    | dsimp only | split

theorem State.recheckPost_keeps {s0 s : State} (h0 : Keeps s0 s) (k : Nat) :
    Keeps s0 (State.recheckPost s k) := by
  unfold State.recheckPost
  repeat' first
    | with_reducible first
      | assumption | exact Keeps.refl _ | apply State.recheckOn_keeps | apply KeepsParts.same
    | dsimp only | simp only [keeps_mk] | split

theorem State.switchVersion_keeps {s0 s : State} (h0 : Keeps s0 s) (j : ReamJob) :
    Keeps s0 (State.switchVersion s j) := by
  unfold State.switchVersion
  repeat' first
    | with_reducible first
      | assumption | exact Keeps.refl _ | refine Keeps.each ?_ _ _ (fun _ _ _ => ?_)
      | refine Keeps.foldl ?_ _ _ (fun _ _ _ => ?_) | refine Keeps.foldl_fst _ _ (fun _ _ _ => ?_) _ ?_
      | refine Keeps.foldl_snd _ _ (fun _ _ _ => ?_) _ ?_ | apply State.finish_keeps
      | apply State.freeOldVersion_keeps | apply State.extend_keeps | apply State.jobDone_keeps
      | apply State.recheckPost_keeps | apply Keeps.ite | apply KeepsParts.same
      | refine Keeps.of_fst (by assumption) ?_ | refine Keeps.of_snd (by assumption) ?_ | intro _
    | dsimp only | simp only [keeps_mk] | split

theorem execReamUnload_next (s : State) (ring : Nat) (seq : Nat) :
    ∃ t, execReamUnload ring seq s = .next t ∧ Keeps s t := by
  refine ⟨_, rfl, ?_⟩
  repeat' first
    | with_reducible first
      | assumption | exact Keeps.refl _ | apply State.setPhase_keeps | apply State.finish_keeps
      | apply State.front_keeps | apply Keeps.ite | apply KeepsParts.same | intro _
    | dsimp only | simp only [keeps_mk] | split

theorem State.closeAdmission_keeps {s0 s : State} (h0 : Keeps s0 s) :
    Keeps s0 (State.closeAdmission s) := by
  unfold State.closeAdmission
  repeat' first
    | with_reducible first
      | assumption | exact Keeps.refl _ | refine Keeps.each ?_ _ _ (fun _ _ _ => ?_) | apply State.endIdle_keeps
      | apply State.endUnadmitted_keeps | apply KeepsParts.same | intro _
    | dsimp only | simp only [keeps_mk] | split

theorem State.zeroReserve_keeps {s0 s : State} (h0 : Keeps s0 s) :
    Keeps s0 (State.zeroReserve s) := by
  unfold State.zeroReserve
  repeat' first
    | with_reducible first
      | assumption | exact Keeps.refl _ | refine Keeps.each ?_ _ _ (fun _ _ _ => ?_) | apply KeepsParts.same
      | refine KeepsParts.write ?_ (fun _ => ?_) | exact Memory.wf_empty | refine Memory.wf_writeN _ _ _ ?_
      | apply Memory.wf_writePart | apply Memory.wf_mark | apply Memory.wf_zero | apply Memory.wf_zeroBut
      | apply Memory.wf_writeSheets | refine Memory.wf_foldl _ _ (fun _ _ _ => ?_) _ ?_ | intro _
    | dsimp only | simp only [keeps_mk] | split

theorem State.unloadDone_keeps {s0 s : State} (h0 : Keeps s0 s) (k : Nat) :
    Keeps s0 (State.unloadDone s k) := by
  unfold State.unloadDone
  repeat' first
    | with_reducible first
      | assumption | exact Keeps.refl _ | refine Keeps.each ?_ _ _ (fun _ _ _ => ?_) | apply State.setCtr_keeps
      | apply State.finish_keeps | apply State.setTile_keeps | apply State.allDurable_keeps
      | apply State.setBounds_keeps | apply State.useBounds_keeps | apply State.extend_keeps
      | apply State.commitGo_keeps | apply State.jobDone_keeps | apply State.zeroReserve_keeps | apply KeepsParts.same
      | intro _
    | dsimp only | simp only [keeps_mk] | split

theorem execPost_next (s : State) (ring : Nat) (seq : Nat) (dir : Rd) :
    ∃ t, execPost ring seq dir s = .next t ∧ Keeps s t := by
  refine ⟨_, rfl, ?_⟩
  repeat' first
    | with_reducible first
      | assumption | exact Keeps.refl _ | apply State.refuse_keeps | apply State.front_keeps
      | apply State.postJudge_keeps | apply Keeps.ite | intro _
    | dsimp only | split

theorem State.askInput_keeps {s0 s : State} (h0 : Keeps s0 s) (k : Nat) (c : Cmd) (v : Post) :
    Keeps s0 (State.askInput s k c v) := by
  unfold State.askInput
  repeat' first
    | with_reducible first
      | assumption | exact Keeps.refl _ | refine Keeps.each ?_ _ _ (fun _ _ _ => ?_) | apply State.issue_keeps
      | apply State.endUnadmitted_keeps | apply Keeps.ite | intro _
    | dsimp only | split

theorem execStagingStart_next (s : State) (ring : Nat) (seq : Nat) :
    ∃ t, execStagingStart ring seq s = .next t ∧ Keeps s t := by
  refine ⟨_, rfl, ?_⟩
  repeat' first
    | with_reducible first
      | assumption | exact Keeps.refl _ | apply State.setPost_keeps | apply State.setPhase_keeps
      | apply State.askInput_keeps | apply Keeps.ite
    | dsimp only | split

theorem State.codingBad_keeps {s0 s : State} (h0 : Keeps s0 s) (k : Nat) :
    Keeps s0 (State.codingBad s k) := by
  unfold State.codingBad
  repeat' first
    | with_reducible first
      | assumption | exact Keeps.refl _ | apply State.count_keeps | apply State.endUnadmitted_keeps
    | dsimp only | split

theorem State.beaterBlock_keeps {s0 s : State} (h0 : Keeps s0 s) (k : Nat) (v : Post) (b : Bytes) :
    Keeps s0 (State.beaterBlock s k v b) := by
  unfold State.beaterBlock
  repeat' first
    | with_reducible first
      | assumption | exact Keeps.refl _ | apply State.setPost_keeps | apply State.setPhase_keeps
      | apply State.beaterCount_keeps | apply State.codingBad_keeps | apply Keeps.ite
    | dsimp only | split

theorem execBeaterBlockDecode_next (s : State) (ring : Nat) (seq : Nat) (block : Bytes) :
    ∃ t, execBeaterBlockDecode ring seq block s = .next t ∧ Keeps s t := by
  refine ⟨_, rfl, ?_⟩
  repeat' first
    | with_reducible first
      | assumption | exact Keeps.refl _ | apply State.openAsk_keeps | apply State.beaterBlock_keeps | apply Keeps.ite
      | refine Keeps.of_snd (by assumption) ?_
    | dsimp only | split

theorem State.stageBody_keeps {s0 s : State} (h0 : Keeps s0 s) (v : Post) (raw : Bytes) (b : Bytes) :
    Keeps s0 (State.stageBody s v raw b).2 := by
  unfold State.stageBody
  repeat' first
    | with_reducible first
      | assumption | exact Keeps.refl _ | refine Keeps.foldl ?_ _ _ (fun _ _ _ => ?_)
      | refine Keeps.foldl_fst _ _ (fun _ _ _ => ?_) _ ?_ | refine Keeps.foldl_snd _ _ (fun _ _ _ => ?_) _ ?_
      | apply State.freeVals_keeps | refine Keeps.of_fst (by assumption) ?_ | refine Keeps.of_snd (by assumption) ?_
      | intro _
    | dsimp only | split

theorem State.restCount_keeps {s0 s : State} (h0 : Keeps s0 s) (c : Cmd) (v : Post) :
    Keeps s0 (State.restCount s c v) := by
  unfold State.restCount
  repeat' first
    | with_reducible first
      | assumption | exact Keeps.refl _ | apply State.beaterCount_keeps | apply Keeps.ite
    | dsimp only | split

theorem execInputStagingDone_next (s : State) (ring : Nat) (seq : Nat) (body : Rd) :
    ∃ t, execInputStagingDone ring seq body s = .next t ∧ Keeps s t := by
  refine ⟨_, rfl, ?_⟩
  repeat' first
    | with_reducible first
      | assumption | exact Keeps.refl _ | apply State.setPost_keeps | apply State.count_keeps
      | apply State.openAsk_keeps | apply State.unstage_keeps | apply State.endUnadmitted_keeps
      | apply State.codingBad_keeps | apply State.stageBody_keeps | apply State.restCount_keeps | apply Keeps.ite
      | apply KeepsParts.same | refine Keeps.of_snd (by assumption) ?_
    | dsimp only | simp only [keeps_mk] | split

theorem State.takeCtx_keeps {s0 s : State} (h0 : Keeps s0 s) (k : Nat) (t : Nat) :
    Keeps s0 (State.takeCtx s k t) := by
  unfold State.takeCtx
  repeat' first
    | with_reducible first
      | assumption | exact Keeps.refl _ | apply State.setCtx_keeps | apply State.failPost_keeps
      | apply State.flagPost_keeps | apply Keeps.ite
    | dsimp only | split

theorem State.stageReads_keeps {s0 s : State} (h0 : Keeps s0 s) (k : Nat) :
    Keeps s0 (State.stageReads s k) := by
  unfold State.stageReads
  repeat' first
    | with_reducible first
      | assumption | exact Keeps.refl _ | refine Keeps.each ?_ _ _ (fun _ _ _ => ?_) | apply State.startReads_keeps
      | intro _
    | dsimp only | split

theorem State.settleFailed_keeps {s0 s : State} (h0 : Keeps s0 s) (k : Nat) :
    Keeps s0 (State.settleFailed s k) := by
  unfold State.settleFailed
  repeat' first
    | with_reducible first
      | assumption | exact Keeps.refl _ | apply State.settle_keeps | apply Keeps.ite
    | dsimp only | split

theorem State.enterStage_keeps {s0 s : State} (h0 : Keeps s0 s) (k : Nat) (i : Nat) :
    Keeps s0 (State.enterStage s k i) := by
  unfold State.enterStage
  repeat' first
    | with_reducible first
      | assumption | exact Keeps.refl _ | refine Keeps.each ?_ _ _ (fun _ _ _ => ?_)
      | refine Keeps.foldl ?_ _ _ (fun _ _ _ => ?_) | refine Keeps.foldl_fst _ _ (fun _ _ _ => ?_) _ ?_
      | refine Keeps.foldl_snd _ _ (fun _ _ _ => ?_) _ ?_ | apply State.modPost_keeps | apply State.takeCtx_keeps
      | apply State.stageReads_keeps | apply State.settleFailed_keeps | apply KeepsParts.same
      | refine Keeps.of_fst (by assumption) ?_ | refine Keeps.of_snd (by assumption) ?_ | intro _
    | dsimp only | simp only [keeps_mk] | split

theorem State.admitRun_keeps {s0 s : State} (h0 : Keeps s0 s) (k : Nat) (v : Post) :
    Keeps s0 (State.admitRun s k v) := by
  unfold State.admitRun
  repeat' first
    | with_reducible first
      | assumption | exact Keeps.refl _ | apply State.setPost_keeps | apply State.freeVal_keeps
      | apply State.notePeak_keeps | apply State.askWake_keeps | apply State.enterStage_keeps | apply Keeps.ite
      | apply KeepsParts.same | refine Keeps.of_snd (by assumption) ?_
    | dsimp only | simp only [keeps_mk] | split

theorem State.takeSlot_keeps {s0 s : State} (h0 : Keeps s0 s) (k : Nat) :
    Keeps s0 (State.takeSlot s k) := by
  unfold State.takeSlot
  repeat' first
    | with_reducible first
      | assumption | exact Keeps.refl _ | apply State.count_keeps | apply State.leaveQueue_keeps
      | apply State.endUnadmitted_keeps | apply State.admitRun_keeps | apply Keeps.ite
    | dsimp only | split

theorem execAdmissionSlotOpen_next (s : State) :
    ∃ t, execAdmissionSlotOpen s = .next t ∧ Keeps s t := by
  refine ⟨_, rfl, ?_⟩
  repeat' first
    | with_reducible first
      | assumption | exact Keeps.refl _ | apply State.count_keeps | apply State.takeSlot_keeps | apply Keeps.ite
      | apply KeepsParts.same
    | dsimp only | simp only [keeps_mk] | split

theorem State.halfNext_keeps {s0 s : State} (h0 : Keeps s0 s) :
    Keeps s0 (State.halfNext s) := by
  unfold State.halfNext
  repeat' first
    | with_reducible first
      | assumption | exact Keeps.refl _ | apply KeepsParts.same
    | dsimp only | simp only [keeps_mk] | split

theorem State.undoGo_keeps {s0 s : State} (h0 : Keeps s0 s) (k : Nat) :
    Keeps s0 (State.undoGo s k) := by
  unfold State.undoGo
  repeat' first
    | with_reducible first
      | assumption | exact Keeps.refl _ | apply State.modPost_keeps | apply Keeps.ite
    | dsimp only | split

theorem State.memSkew_keeps {s0 s : State} (h0 : Keeps s0 s) (tiles : List Nat) :
    Keeps s0 (State.memSkew s tiles) := by
  unfold State.memSkew
  repeat' first
    | with_reducible first
      | assumption | exact Keeps.refl _ | refine Keeps.each ?_ _ _ (fun _ _ _ => ?_) | apply State.count_keeps
      | intro _
    | dsimp only | split

theorem State.stopLookups_keeps {s0 s : State} (h0 : Keeps s0 s) (gs : List GWork) :
    Keeps s0 (State.stopLookups s gs) := by
  unfold State.stopLookups
  repeat' first
    | with_reducible first
      | assumption | exact Keeps.refl _ | refine Keeps.each ?_ _ _ (fun _ _ _ => ?_) | apply State.stopUnit_keeps
      | intro _
    | dsimp only | split

theorem State.stopUpdates_keeps {s0 s : State} (h0 : Keeps s0 s) (k : Nat) (gs : List UWork) :
    Keeps s0 (State.stopUpdates s k gs) := by
  unfold State.stopUpdates
  repeat' first
    | with_reducible first
      | assumption | exact Keeps.refl _ | refine Keeps.each ?_ _ _ (fun _ _ _ => ?_) | apply State.count_keeps
      | apply State.sendOver_keeps | apply State.undoGo_keeps | apply Keeps.ite | intro _
    | dsimp only | split

theorem State.residencyEnd_keeps {s0 s : State} (h0 : Keeps s0 s) (k : Nat) (i : Nat) (v : Post) :
    Keeps s0 (State.residencyEnd s k i v) := by
  unfold State.residencyEnd
  repeat' first
    | with_reducible first
      | assumption | exact Keeps.refl _ | refine Keeps.each ?_ _ _ (fun _ _ _ => ?_) | apply State.count_keeps
      | apply State.failPost_keeps | apply State.sendOver_keeps | apply State.memSkew_keeps
      | apply State.stopLookups_keeps | apply State.stopUpdates_keeps | apply Keeps.ite | intro _
    | dsimp only | split

theorem State.advancePost_keeps {s0 s : State} (h0 : Keeps s0 s) (k : Nat) :
    Keeps s0 (State.advancePost s k) := by
  unfold State.advancePost
  repeat' first
    | with_reducible first
      | assumption | exact Keeps.refl _ | apply State.setPost_keeps | apply State.settle_keeps
      | apply State.enterStage_keeps | apply State.residencyEnd_keeps | apply Keeps.ite
    | dsimp only | split

theorem State.moveSwitch_keeps {s0 s : State} (h0 : Keeps s0 s) :
    Keeps s0 (State.moveSwitch s) := by
  unfold State.moveSwitch
  repeat' first
    | with_reducible first
      | assumption | exact Keeps.refl _ | apply State.switchVersion_keeps | apply Keeps.ite | apply KeepsParts.same
    | dsimp only | simp only [keeps_mk] | split

theorem execStageMoveSourceRelease_next (s : State) :
    ∃ t, execStageMoveSourceRelease s = .next t ∧ Keeps s t := by
  refine ⟨_, rfl, ?_⟩
  repeat' first
    | with_reducible first
      | assumption | exact Keeps.refl _ | apply State.modTile_keeps | apply Keeps.ite | apply KeepsParts.same
      | refine KeepsParts.write ?_ (fun _ => ?_) | exact Memory.wf_empty | refine Memory.wf_writeN _ _ _ ?_
      | apply Memory.wf_writePart | apply Memory.wf_mark | apply Memory.wf_zero | apply Memory.wf_zeroBut
      | apply Memory.wf_writeSheets | refine Memory.wf_foldl _ _ (fun _ _ _ => ?_) _ ?_
    | dsimp only | simp only [keeps_mk] | split

theorem State.recoveryTile_keeps {s0 s : State} (h0 : Keeps s0 s) (t : Nat) :
    Keeps s0 (State.recoveryTile s t) := by
  unfold State.recoveryTile
  repeat' first
    | with_reducible first
      | assumption | exact Keeps.refl _ | refine Keeps.each ?_ _ _ (fun _ _ _ => ?_) | apply State.modTile_keeps
      | apply State.failPost_keeps | apply Keeps.ite | intro _
    | dsimp only | split

theorem State.degradedNext_keeps {s0 s : State} (h0 : Keeps s0 s) :
    Keeps s0 (State.degradedNext s) := by
  unfold State.degradedNext
  repeat' first
    | with_reducible first
      | assumption | exact Keeps.refl _ | apply Keeps.ite | apply KeepsParts.same
    | dsimp only | simp only [keeps_mk] | split

theorem State.sliceTile_keeps {s0 s : State} (h0 : Keeps s0 s) (t : Nat) :
    Keeps s0 (State.sliceTile s t) := by
  unfold State.sliceTile
  repeat' first
    | with_reducible first
      | assumption | exact Keeps.refl _ | apply State.count_keeps | apply State.modTile_keeps | apply Keeps.ite
    | dsimp only | split

theorem execIntervalBoundary_next (s : State) :
    ∃ t, execIntervalBoundary s = .next t ∧ Keeps s t := by
  refine ⟨_, rfl, ?_⟩
  repeat' first
    | with_reducible first
      | assumption | exact Keeps.refl _ | refine Keeps.each ?_ _ _ (fun _ _ _ => ?_) | apply State.halfNext_keeps
      | apply State.advancePost_keeps | apply State.moveSwitch_keeps | apply State.recoveryTile_keeps
      | apply State.degradedNext_keeps | apply State.sliceTile_keeps | apply Keeps.ite | apply KeepsParts.same
      | intro _
    | dsimp only | simp only [keeps_mk] | split

theorem State.newPack_keeps {s0 s : State} (h0 : Keeps s0 s) (t : Nat) :
    Keeps s0 (State.newPack s t) := by
  unfold State.newPack
  repeat' first
    | with_reducible first
      | assumption | exact Keeps.refl _ | apply Keeps.ite | apply KeepsParts.same
    | dsimp only | simp only [keeps_mk] | split

theorem State.slicePass_keeps {s0 s : State} (h0 : Keeps s0 s) (t : Nat) (p : Nat) (len : Nat) :
    Keeps s0 (State.slicePass s t p len) := by
  unfold State.slicePass
  repeat' first
    | with_reducible first
      | assumption | exact Keeps.refl _ | apply State.count_keeps | apply State.modTile_keeps
      | apply State.newPack_keeps | apply Keeps.ite | apply KeepsParts.same
    | dsimp only | simp only [keeps_mk] | split

theorem State.sliceFail_keeps {s0 s : State} (h0 : Keeps s0 s) (t : Nat) (p : Nat) :
    Keeps s0 (State.sliceFail s t p) := by
  unfold State.sliceFail
  repeat' first
    | with_reducible first
      | assumption | exact Keeps.refl _ | apply State.count_keeps | apply State.raise_keeps | apply KeepsParts.same
    | dsimp only | simp only [keeps_mk] | split

theorem execCalenderSliceEnd_next (s : State) (tile : Nat) (crc : Word) :
    ∃ t, execCalenderSliceEnd tile crc s = .next t ∧ Keeps s t := by
  refine ⟨_, rfl, ?_⟩
  repeat' first
    | with_reducible first
      | assumption | exact Keeps.refl _ | apply State.modTile_keeps | apply State.slicePass_keeps
      | apply State.sliceFail_keeps | apply Keeps.ite
    | dsimp only | split

theorem State.decideLayer_keeps {s0 s : State} (h0 : Keeps s0 s) (k : Nat) (l : Nat) :
    Keeps s0 (State.decideLayer s k l) := by
  unfold State.decideLayer
  repeat' first
    | with_reducible first
      | assumption | exact Keeps.refl _ | apply Keeps.ite | apply KeepsParts.same
    | dsimp only | simp only [keeps_mk] | split

theorem execEscCountReport_next (s : State) (tile : Nat) :
    ∃ t, execEscCountReport tile s = .next t ∧ Keeps s t := by
  refine ⟨_, rfl, ?_⟩
  repeat' first
    | with_reducible first
      | assumption | exact Keeps.refl _ | refine Keeps.each ?_ _ _ (fun _ _ _ => ?_) | apply State.settle_keeps
      | apply State.decideLayer_keeps | apply KeepsParts.same | intro _
    | dsimp only | simp only [keeps_mk] | split

theorem State.grantSwitch_keeps {s0 s : State} (h0 : Keeps s0 s) :
    Keeps s0 (State.grantSwitch s) := by
  unfold State.grantSwitch
  repeat' first
    | with_reducible first
      | assumption | exact Keeps.refl _ | refine Keeps.each ?_ _ _ (fun _ _ _ => ?_) | apply State.endIdle_keeps
      | apply State.endUnadmitted_keeps | apply KeepsParts.same | intro _
    | dsimp only | simp only [keeps_mk] | split

theorem State.modeSwitch_keeps {s0 s : State} (h0 : Keeps s0 s) :
    Keeps s0 (State.modeSwitch s) := by
  unfold State.modeSwitch
  repeat' first
    | with_reducible first
      | assumption | exact Keeps.refl _ | apply Keeps.ite | apply KeepsParts.same
    | dsimp only | simp only [keeps_mk] | split

theorem State.escalate_keeps {s0 s : State} (h0 : Keeps s0 s) :
    Keeps s0 (State.escalate s) := by
  unfold State.escalate
  repeat' first
    | with_reducible first
      | assumption | exact Keeps.refl _ | refine Keeps.each ?_ _ _ (fun _ _ _ => ?_) | apply State.modPost_keeps
      | apply State.count_keeps | apply State.causeAll_keeps | apply KeepsParts.same | intro _
    | dsimp only | simp only [keeps_mk] | split

theorem State.gateGroup_keeps {s0 s : State} (h0 : Keeps s0 s) (g : Nat) :
    Keeps s0 (State.gateGroup s g) := by
  unfold State.gateGroup
  repeat' first
    | with_reducible first
      | assumption | exact Keeps.refl _ | refine Keeps.each ?_ _ _ (fun _ _ _ => ?_) | apply State.modTile_keeps
      | apply Keeps.ite | apply KeepsParts.same | intro _
    | dsimp only | simp only [keeps_mk] | split

theorem State.gateIdle_keeps {s0 s : State} (h0 : Keeps s0 s) :
    Keeps s0 (State.gateIdle s) := by
  unfold State.gateIdle
  repeat' first
    | with_reducible first
      | assumption | exact Keeps.refl _ | refine Keeps.each ?_ _ _ (fun _ _ _ => ?_) | apply State.gateGroup_keeps
      | apply Keeps.ite | apply KeepsParts.same | intro _
    | dsimp only | simp only [keeps_mk] | split

theorem State.restoreOpen_keeps {s0 s : State} (h0 : Keeps s0 s) :
    Keeps s0 (State.restoreOpen s) := by
  unfold State.restoreOpen
  repeat' first
    | with_reducible first
      | assumption | exact Keeps.refl _ | apply State.finish_keeps | apply KeepsParts.same
    | dsimp only | simp only [keeps_mk] | split

theorem State.patchSwitch_keeps {s0 s : State} (h0 : Keeps s0 s) :
    Keeps s0 (State.patchSwitch s) := by
  unfold State.patchSwitch
  repeat' first
    | with_reducible first
      | assumption | exact Keeps.refl _ | apply State.switchVersion_keeps | apply Keeps.ite
    | dsimp only | split

theorem State.sweepChanges_keeps {s0 s : State} (h0 : Keeps s0 s) :
    Keeps s0 (State.sweepChanges s) := by
  unfold State.sweepChanges
  repeat' first
    | with_reducible first
      | assumption | exact Keeps.refl _ | apply State.flipMoves_keeps | apply State.setBounds_keeps
      | apply State.useBounds_keeps | apply State.grantSwitch_keeps | apply State.modeSwitch_keeps
      | apply State.escalate_keeps | apply State.gateIdle_keeps | apply State.restoreOpen_keeps
      | apply State.patchSwitch_keeps | apply KeepsParts.same
    | dsimp only | simp only [keeps_mk] | split

theorem State.unloadStep_keeps {s0 s : State} (h0 : Keeps s0 s) (j : ReamJob) :
    Keeps s0 (State.unloadStep s j) := by
  unfold State.unloadStep
  repeat' first
    | with_reducible first
      | assumption | exact Keeps.refl _ | apply State.abandonMoves_keeps | apply State.writeBackAll_keeps
      | apply State.appendAll_keeps | apply State.closeAdmission_keeps | apply State.unloadDone_keeps
      | apply Keeps.ite | apply KeepsParts.same
    | dsimp only | simp only [keeps_mk] | split

theorem State.boundary_keeps {s0 s : State} (h0 : Keeps s0 s) :
    Keeps s0 (State.boundary s) := by
  unfold State.boundary
  repeat' first
    | with_reducible first
      | assumption | exact Keeps.refl _ | apply State.snoop_keeps | apply State.sweepChanges_keeps
      | apply State.unloadStep_keeps | apply Keeps.ite | apply KeepsParts.same
    | dsimp only | simp only [keeps_mk] | split

theorem execSweepBoundary_next (s : State) :
    ∃ t, execSweepBoundary s = .next t ∧ Keeps s t := by
  refine ⟨_, rfl, ?_⟩
  repeat' first
    | with_reducible first
      | assumption | exact Keeps.refl _ | apply State.boundary_keeps | apply Keeps.ite | apply KeepsParts.same
    | dsimp only | simp only [keeps_mk] | split

theorem State.halfIdle_keeps {s0 s : State} (h0 : Keeps s0 s) :
    Keeps s0 (State.halfIdle s) := by
  unfold State.halfIdle
  repeat' first
    | with_reducible first
      | assumption | exact Keeps.refl _ | apply State.halfNext_keeps | apply Keeps.ite
    | dsimp only | split

theorem State.declare_keeps {s0 s : State} (h0 : Keeps s0 s) (cause : Nat) :
    Keeps s0 (State.declare s cause) := by
  unfold State.declare
  repeat' first
    | with_reducible first
      | assumption | exact Keeps.refl _ | apply State.causeAll_keeps | apply State.pldmIf_keeps
      | apply State.halfIdle_keeps | apply Keeps.ite | apply KeepsParts.same
    | dsimp only | simp only [keeps_mk] | split

theorem State.endCause_keeps {s0 s : State} (h0 : Keeps s0 s) (cause : Nat) :
    Keeps s0 (State.endCause s cause) := by
  unfold State.endCause
  repeat' first
    | with_reducible first
      | assumption | exact Keeps.refl _ | apply State.pldmIf_keeps | apply State.halfIdle_keeps | apply Keeps.ite
      | apply KeepsParts.same
    | dsimp only | simp only [keeps_mk] | split

theorem State.causeHolds_keeps {s0 s : State} (h0 : Keeps s0 s) (cause : Nat) (holds : Bool) :
    Keeps s0 (State.causeHolds s cause holds) := by
  unfold State.causeHolds
  repeat' first
    | with_reducible first
      | assumption | exact Keeps.refl _ | apply State.declare_keeps | apply State.endCause_keeps | apply Keeps.ite
    | dsimp only | split

theorem State.setHot_keeps {s0 s : State} (h0 : Keeps s0 s) (i : Nat) (enter : Bool) (leave : Bool) :
    Keeps s0 (State.setHot s i enter leave) := by
  unfold State.setHot
  repeat' first
    | with_reducible first
      | assumption | exact Keeps.refl _ | apply Keeps.ite | apply KeepsParts.same
    | dsimp only | simp only [keeps_mk] | split

theorem State.lower_keeps {s0 s : State} (h0 : Keeps s0 s) (floor : Nat) (g : Nat) :
    Keeps s0 (State.lower s floor g) := by
  unfold State.lower
  repeat' first
    | with_reducible first
      | assumption | exact Keeps.refl _ | apply Keeps.ite | apply KeepsParts.same
    | dsimp only | simp only [keeps_mk] | split

theorem State.lowerAll_keeps {s0 s : State} (h0 : Keeps s0 s) (floor : Nat) :
    Keeps s0 (State.lowerAll s floor) := by
  unfold State.lowerAll
  repeat' first
    | with_reducible first
      | assumption | exact Keeps.refl _ | refine Keeps.each ?_ _ _ (fun _ _ _ => ?_) | apply State.lower_keeps
      | intro _
    | dsimp only | split

theorem State.lift_keeps {s0 s : State} (h0 : Keeps s0 s) (top : Nat) (g : Nat) :
    Keeps s0 (State.lift s top g) := by
  unfold State.lift
  repeat' first
    | with_reducible first
      | assumption | exact Keeps.refl _ | apply Keeps.ite | apply KeepsParts.same
    | dsimp only | simp only [keeps_mk] | split

theorem State.riseGroup_keeps {s0 s : State} (h0 : Keeps s0 s) (pAvg : Nat) (cap : Nat) (g : Nat) :
    Keeps s0 (State.riseGroup s pAvg cap g) := by
  unfold State.riseGroup
  repeat' first
    | with_reducible first
      | assumption | exact Keeps.refl _ | apply State.lift_keeps | apply Keeps.ite
    | dsimp only | split

theorem State.forgetHeld_keeps {s0 s : State} (h0 : Keeps s0 s) :
    Keeps s0 (State.forgetHeld s) := by
  unfold State.forgetHeld
  repeat' first
    | with_reducible first
      | assumption | exact Keeps.refl _ | apply Keeps.ite | apply KeepsParts.same
    | dsimp only | simp only [keeps_mk] | split

theorem State.askLow_keeps {s0 s : State} (h0 : Keeps s0 s) (pAvg : Nat) (cap : Nat) :
    Keeps s0 (State.askLow s pAvg cap) := by
  unfold State.askLow
  repeat' first
    | with_reducible first
      | assumption | exact Keeps.refl _ | apply KeepsParts.same
    | dsimp only | simp only [keeps_mk] | split

theorem State.skipStep_keeps {s0 s : State} (h0 : Keeps s0 s) (pAvg : Nat) (cap : Nat) :
    Keeps s0 (State.skipStep s pAvg cap) := by
  unfold State.skipStep
  repeat' first
    | with_reducible first
      | assumption | exact Keeps.refl _ | apply Keeps.ite | apply KeepsParts.same
    | dsimp only | simp only [keeps_mk] | split

theorem State.powerOver_keeps {s0 s : State} (h0 : Keeps s0 s) (pAvg : Nat) (cap : Nat) (floor : Bool) :
    Keeps s0 (State.powerOver s pAvg cap floor) := by
  unfold State.powerOver
  repeat' first
    | with_reducible first
      | assumption | exact Keeps.refl _ | apply State.declare_keeps | apply State.endCause_keeps | apply Keeps.ite
      | apply KeepsParts.same
    | dsimp only | simp only [keeps_mk] | split

theorem State.coolantStep_keeps {s0 s : State} (h0 : Keeps s0 s) :
    Keeps s0 (State.coolantStep s) := by
  unfold State.coolantStep
  repeat' first
    | with_reducible first
      | assumption | exact Keeps.refl _ | apply State.lowerAll_keeps | apply Keeps.ite | apply KeepsParts.same
    | dsimp only | simp only [keeps_mk] | split

theorem execPowerComparison_next (s : State) (pAvg : Nat) :
    ∃ t, execPowerComparison pAvg s = .next t ∧ Keeps s t := by
  refine ⟨_, rfl, ?_⟩
  repeat' first
    | with_reducible first
      | assumption | exact Keeps.refl _ | refine Keeps.each ?_ _ _ (fun _ _ _ => ?_) | apply State.halfIdle_keeps
      | apply State.lowerAll_keeps | apply State.riseGroup_keeps | apply State.forgetHeld_keeps
      | apply State.askLow_keeps | apply State.skipStep_keeps | apply State.powerOver_keeps
      | apply State.coolantStep_keeps | apply Keeps.ite | apply KeepsParts.same | intro _
    | dsimp only | simp only [keeps_mk] | split

theorem execPwrCap_next (s : State) (value : Word) :
    ∃ t, execPwrCap value s = .next t ∧ Keeps s t := by
  refine ⟨_, rfl, ?_⟩
  repeat' first
    | with_reducible first
      | assumption | exact Keeps.refl _ | apply State.setReg_keeps | apply State.causeAll_keeps | apply Keeps.ite
    | dsimp only | split

theorem execSlew_next (s : State) (value : Word) :
    ∃ t, execSlew value s = .next t ∧ Keeps s t := by
  refine ⟨_, rfl, ?_⟩
  repeat' first
    | with_reducible first
      | assumption | exact Keeps.refl _ | apply State.setReg_keeps | apply State.setBounds_keeps | apply Keeps.ite
    | dsimp only | split

theorem execWakeRampDone_next (s : State) :
    ∃ t, execWakeRampDone s = .next t ∧ Keeps s t := by
  refine ⟨_, rfl, ?_⟩
  repeat' first
    | with_reducible first
      | assumption | exact Keeps.refl _ | apply Keeps.ite | apply KeepsParts.same
    | dsimp only | simp only [keeps_mk] | split

theorem execTileGroupUsable_next (s : State) (group : Nat) :
    ∃ t, execTileGroupUsable group s = .next t ∧ Keeps s t := by
  refine ⟨_, rfl, ?_⟩
  repeat' first
    | with_reducible first
      | assumption | exact Keeps.refl _ | refine Keeps.each ?_ _ _ (fun _ _ _ => ?_) | apply State.modTile_keeps
      | apply Keeps.ite | apply KeepsParts.same | intro _
    | dsimp only | simp only [keeps_mk] | split

end Sys2Proof.Machine
end

