-- ==== Sys2Proof/Laws/KeepHost.lean ====
section
/-! SUPPORT. `Keeps` for keys, ingest, the network, the host port, the debug block and management:
the waiting commands, the fuses and the canonical form of memory stay. -/

namespace Sys2Proof.Machine
set_option linter.unusedTactic false
set_option linter.unreachableTactic false

theorem State.keyInstall_keeps {s0 s : State} (h0 : Keeps s0 s) (k : Nat) (c : Cmd) (blob : Rd) :
    Keeps s0 (State.keyInstall s k c blob) := by
  unfold State.keyInstall
  repeat' first
    | with_reducible first
      | assumption | exact Keeps.refl _ | apply State.setPhase_keeps | apply State.finish_keeps
      | apply State.modSlot_keeps | apply State.openAsk_keeps | apply State.operAsk_keeps | apply Keeps.ite
      | apply KeepsParts.same | refine Keeps.of_snd (by assumption) ?_
    | dsimp only | simp only [keeps_mk] | split

theorem execKeyInstall_next (s : State) (ring : Nat) (seq : Nat) (blob : Rd) :
    ∃ t, execKeyInstall ring seq blob s = .next t ∧ Keeps s t := by
  refine ⟨_, rfl, ?_⟩
  repeat' first
    | with_reducible first
      | assumption | exact Keeps.refl _ | apply State.front_keeps | apply State.keyInstall_keeps | intro _
    | dsimp only | split

theorem State.loadSlot_keeps {s0 s : State} (h0 : Keeps s0 s) (n : Nat) (pt : Bytes) :
    Keeps s0 (State.loadSlot s n pt) := by
  unfold State.loadSlot
  repeat' first
    | with_reducible first
      | assumption | exact Keeps.refl _ | apply State.freeVals_keeps | apply State.modSlot_keeps | apply Keeps.ite
      | refine Keeps.of_snd (by assumption) ?_
    | dsimp only | split

theorem execKeyUnwrapDone_next (s : State) (slot : Nat) :
    ∃ t, execKeyUnwrapDone slot s = .next t ∧ Keeps s t := by
  refine ⟨_, rfl, ?_⟩
  repeat' first
    | with_reducible first
      | assumption | exact Keeps.refl _ | apply State.finish_keeps | apply State.modSlot_keeps
      | apply State.loadSlot_keeps | apply Keeps.ite | apply KeepsParts.same
    | dsimp only | simp only [keeps_mk] | split

theorem execKeyErase_next (s : State) (ring : Nat) (seq : Nat) :
    ∃ t, execKeyErase ring seq s = .next t ∧ Keeps s t := by
  refine ⟨_, rfl, ?_⟩
  repeat' first
    | with_reducible first
      | assumption | exact Keeps.refl _ | apply State.setPhase_keeps | apply State.finish_keeps
      | apply State.modSlot_keeps | apply State.front_keeps | apply Keeps.ite | intro _
    | dsimp only | split

theorem execKeyEraseFinish_next (s : State) (slot : Nat) :
    ∃ t, execKeyEraseFinish slot s = .next t ∧ Keeps s t := by
  refine ⟨_, rfl, ?_⟩
  repeat' first
    | with_reducible first
      | assumption | exact Keeps.refl _ | apply State.finish_keeps | apply State.modSlot_keeps | apply Keeps.ite
      | apply KeepsParts.same
    | dsimp only | simp only [keeps_mk] | split

theorem execKeyQuery_next (s : State) (ring : Nat) (seq : Nat) :
    ∃ t, execKeyQuery ring seq s = .next t ∧ Keeps s t := by
  refine ⟨_, rfl, ?_⟩
  repeat' first
    | with_reducible first
      | assumption | exact Keeps.refl _ | apply State.finish_keeps | apply State.writeSeg_keeps
      | apply State.openAsk_keeps | apply State.front_keeps | apply Keeps.ite | refine Keeps.of_snd (by assumption) ?_
      | intro _
    | dsimp only | split

theorem execShingleProfile_next (s : State) (ring : Nat) (seq : Nat) (prof : Rd) :
    ∃ t, execShingleProfile ring seq prof s = .next t ∧ Keeps s t := by
  refine ⟨_, rfl, ?_⟩
  repeat' first
    | with_reducible first
      | assumption | exact Keeps.refl _ | apply State.modPart_keeps | apply State.finish_keeps
      | apply State.openAsk_keeps | apply State.operAsk_keeps | apply State.front_keeps | apply Keeps.ite
      | refine Keeps.of_snd (by assumption) ?_ | intro _
    | dsimp only | split

theorem execIngest_next (s : State) (ring : Nat) (seq : Nat) :
    ∃ t, execIngest ring seq s = .next t ∧ Keeps s t := by
  refine ⟨_, rfl, ?_⟩
  repeat' first
    | with_reducible first
      | assumption | exact Keeps.refl _ | apply State.setPhase_keeps | apply State.finish_keeps
      | apply State.openAsk_keeps | apply State.front_keeps | apply Keeps.ite | apply KeepsParts.same
      | refine Keeps.of_snd (by assumption) ?_ | intro _
    | dsimp only | simp only [keeps_mk] | split

theorem State.ingestEnd_keeps {s0 s : State} (h0 : Keeps s0 s) (k : Nat) (st : Nat) (result : Nat) :
    Keeps s0 (State.ingestEnd s k st result) := by
  unfold State.ingestEnd
  repeat' first
    | with_reducible first
      | assumption | exact Keeps.refl _ | apply State.finish_keeps | apply KeepsParts.same
    | dsimp only | simp only [keeps_mk] | split

theorem State.ingestOk_keeps {s0 s : State} (h0 : Keeps s0 s) (k : Nat) (c : Cmd) (st : Nat) (result : Nat) :
    Keeps s0 (State.ingestOk s k c st result) := by
  unfold State.ingestOk
  repeat' first
    | with_reducible first
      | assumption | exact Keeps.refl _ | apply State.count_keeps | apply State.ingestEnd_keeps
    | dsimp only | split

theorem State.zeroDst_keeps {s0 s : State} (h0 : Keeps s0 s) (c : Cmd) (len : Nat) :
    Keeps s0 (State.zeroDst s c len) := by
  unfold State.zeroDst
  repeat' first
    | with_reducible first
      | assumption | exact Keeps.refl _ | apply State.zeroRange_keeps
    | dsimp only | split

theorem execIngestDecryptDone_next (s : State) (ring : Nat) (seq : Nat) :
    ∃ t, execIngestDecryptDone ring seq s = .next t ∧ Keeps s t := by
  refine ⟨_, rfl, ?_⟩
  repeat' first
    | with_reducible first
      | assumption | exact Keeps.refl _ | apply State.count_keeps | apply State.writeSeg_keeps
      | apply State.openRange_keeps | apply State.openAsk_keeps | apply State.ingestEnd_keeps
      | apply State.ingestOk_keeps | apply State.zeroDst_keeps | apply Keeps.ite | apply KeepsParts.same
      | refine Keeps.of_snd (by assumption) ?_
    | dsimp only | simp only [keeps_mk] | split

theorem State.shingle_keeps {s0 s : State} (h0 : Keeps s0 s) (k : Nat) (c : Cmd) (len : Nat) (prof : Bytes)
    (text : Bytes) :
    Keeps s0 (State.shingle s k c len prof text) := by
  unfold State.shingle
  repeat' first
    | with_reducible first
      | assumption | exact Keeps.refl _ | refine Keeps.each ?_ _ _ (fun _ _ _ => ?_)
      | refine Keeps.foldl ?_ _ _ (fun _ _ _ => ?_) | refine Keeps.foldl_fst _ _ (fun _ _ _ => ?_) _ ?_
      | refine Keeps.foldl_snd _ _ (fun _ _ _ => ?_) _ ?_ | apply State.count_keeps | apply State.writeSeg_keeps
      | apply State.openRange_keeps | apply State.ingestOk_keeps | refine Keeps.of_fst (by assumption) ?_
      | refine Keeps.of_snd (by assumption) ?_ | intro _
    | dsimp only | split

theorem execShingleDone_next (s : State) (ring : Nat) (seq : Nat) :
    ∃ t, execShingleDone ring seq s = .next t ∧ Keeps s t := by
  refine ⟨_, rfl, ?_⟩
  repeat' first
    | with_reducible first
      | assumption | exact Keeps.refl _ | apply State.snoop_keeps | apply State.openAsk_keeps
      | apply State.ingestEnd_keeps | apply State.ingestOk_keeps | apply State.shingle_keeps | apply Keeps.ite
      | refine Keeps.of_snd (by assumption) ?_
    | dsimp only | split

theorem State.xferFail_keeps {s0 s : State} (h0 : Keeps s0 s) (k : Nat) :
    Keeps s0 (State.xferFail s k) := by
  unfold State.xferFail
  repeat' first
    | with_reducible first
      | assumption | exact Keeps.refl _ | apply State.failPost_keeps | apply State.settle_keeps | apply Keeps.ite
    | dsimp only | split

theorem State.failXfers_keeps {s0 s : State} (h0 : Keeps s0 s) (pick : Xfer → Bool) :
    Keeps s0 (State.failXfers s pick) := by
  unfold State.failXfers
  repeat' first
    | with_reducible first
      | assumption | exact Keeps.refl _ | refine Keeps.each ?_ _ _ (fun _ _ _ => ?_) | apply State.dropXfers_keeps
      | apply State.xferFail_keeps | intro _
    | dsimp only | split

theorem State.failStaging_keeps {s0 s : State} (h0 : Keeps s0 s) (pick : Nat → Seg → Bool) :
    Keeps s0 (State.failStaging s pick) := by
  unfold State.failStaging
  repeat' first
    | with_reducible first
      | assumption | exact Keeps.refl _ | refine Keeps.each ?_ _ _ (fun _ _ _ => ?_) | apply State.endUnadmitted_keeps
      | intro _
    | dsimp only | split

theorem State.setQp_keeps {s0 s : State} (h0 : Keeps s0 s) (q : Nat) (v : Qp) :
    Keeps s0 (State.setQp s q v) := by
  unfold State.setQp
  repeat' first
    | with_reducible first
      | assumption | exact Keeps.refl _ | apply KeepsParts.same
    | dsimp only | simp only [keeps_mk] | split

theorem State.modQp_keeps {s0 s : State} (h0 : Keeps s0 s) (q : Nat) (f : Qp → Qp) :
    Keeps s0 (State.modQp s q f) := by
  unfold State.modQp
  repeat' first
    | with_reducible first
      | assumption | exact Keeps.refl _ | apply State.setQp_keeps
    | dsimp only | split

theorem State.setPort_keeps {s0 s : State} (h0 : Keeps s0 s) (n : Nat) (v : Port) :
    Keeps s0 (State.setPort s n v) := by
  unfold State.setPort
  repeat' first
    | with_reducible first
      | assumption | exact Keeps.refl _ | apply KeepsParts.same
    | dsimp only | simp only [keeps_mk] | split

theorem State.netPacket_keeps {s0 s : State} (h0 : Keeps s0 s) (q : Nat) (kind : Nat) (psn : Nat) :
    Keeps s0 (State.netPacket s q kind psn) := by
  unfold State.netPacket
  repeat' first
    | with_reducible first
      | assumption | exact Keeps.refl _ | apply KeepsParts.same
    | dsimp only | simp only [keeps_mk] | split

theorem State.netSend_keeps {s0 s : State} (h0 : Keeps s0 s) (q : Nat) (kind : Nat) :
    Keeps s0 (State.netSend s q kind) := by
  unfold State.netSend
  repeat' first
    | with_reducible first
      | assumption | exact Keeps.refl _ | apply State.netPacket_keeps | apply Keeps.ite
    | dsimp only | split

theorem State.partnerLost_keeps {s0 s : State} (h0 : Keeps s0 s) (q : Nat) :
    Keeps s0 (State.partnerLost s q) := by
  unfold State.partnerLost
  repeat' first
    | with_reducible first
      | assumption | exact Keeps.refl _ | apply State.causeAll_keeps | apply State.finish_keeps | apply Keeps.ite
      | apply KeepsParts.same
    | dsimp only | simp only [keeps_mk] | split

theorem State.receiverLost_keeps {s0 s : State} (h0 : Keeps s0 s) (q : Nat) :
    Keeps s0 (State.receiverLost s q) := by
  unfold State.receiverLost
  repeat' first
    | with_reducible first
      | assumption | exact Keeps.refl _ | apply Keeps.ite | apply KeepsParts.same
    | dsimp only | simp only [keeps_mk] | split

theorem State.qpFail_keeps {s0 s : State} (h0 : Keeps s0 s) (q : Nat) (cause : Nat) :
    Keeps s0 (State.qpFail s q cause) := by
  unfold State.qpFail
  repeat' first
    | with_reducible first
      | assumption | exact Keeps.refl _ | apply State.count_keeps | apply State.coreCause_keeps
      | apply State.causeTo_keeps | apply State.detachPart_keeps | apply State.failXfers_keeps
      | apply State.failStaging_keeps | apply State.modQp_keeps | apply State.partnerLost_keeps
      | apply State.receiverLost_keeps | apply Keeps.ite | apply KeepsParts.same
    | dsimp only | simp only [keeps_mk] | split

theorem State.linkLost_keeps {s0 s : State} (h0 : Keeps s0 s) (n : Nat) (to_ : Nat) :
    Keeps s0 (State.linkLost s n to_) := by
  unfold State.linkLost
  repeat' first
    | with_reducible first
      | assumption | exact Keeps.refl _ | apply State.count_keeps | apply State.causeAll_keeps
      | apply State.setPort_keeps | apply Keeps.ite
    | dsimp only | split

theorem State.portChanged_keeps {s0 s : State} (h0 : Keeps s0 s) (gs : List Nat) :
    Keeps s0 (State.portChanged s gs) := by
  unfold State.portChanged
  repeat' first
    | with_reducible first
      | assumption | exact Keeps.refl _ | refine Keeps.each ?_ _ _ (fun _ _ _ => ?_) | apply State.qpFail_keeps
      | intro _
    | dsimp only | split

theorem State.ratesFree_keeps {s0 s : State} (h0 : Keeps s0 s) :
    Keeps s0 (State.ratesFree s) := by
  unfold State.ratesFree
  repeat' first
    | with_reducible first
      | assumption | exact Keeps.refl _ | apply Keeps.ite | apply KeepsParts.same
    | dsimp only | simp only [keeps_mk] | split

theorem State.latchMode_keeps {s0 s : State} (h0 : Keeps s0 s) (g : Nat) :
    Keeps s0 (State.latchMode s g) := by
  unfold State.latchMode
  repeat' first
    | with_reducible first
      | assumption | exact Keeps.refl _ | refine Keeps.each ?_ _ _ (fun _ _ _ => ?_)
      | refine Keeps.foldl ?_ _ _ (fun _ _ _ => ?_) | refine Keeps.foldl_fst _ _ (fun _ _ _ => ?_) _ ?_
      | refine Keeps.foldl_snd _ _ (fun _ _ _ => ?_) _ ?_ | apply State.linkLost_keeps | apply State.portChanged_keeps
      | apply State.ratesFree_keeps | apply Keeps.ite | apply KeepsParts.same | refine Keeps.of_fst (by assumption) ?_
      | refine Keeps.of_snd (by assumption) ?_ | intro _
    | dsimp only | simp only [keeps_mk] | split

theorem State.portOn_keeps {s0 s : State} (h0 : Keeps s0 s) (n : Nat) :
    Keeps s0 (State.portOn s n) := by
  unfold State.portOn
  repeat' first
    | with_reducible first
      | assumption | exact Keeps.refl _ | apply State.setReg_keeps | apply State.setPort_keeps
      | apply State.latchMode_keeps | apply Keeps.ite
    | dsimp only | split

theorem State.portOff_keeps {s0 s : State} (h0 : Keeps s0 s) (n : Nat) :
    Keeps s0 (State.portOff s n) := by
  unfold State.portOff
  repeat' first
    | with_reducible first
      | assumption | exact Keeps.refl _ | apply State.setReg_keeps | apply State.setPort_keeps
      | apply State.linkLost_keeps | apply Keeps.ite
    | dsimp only | split

theorem State.nak_keeps {s0 s : State} (h0 : Keeps s0 s) (q : Nat) (kind : Nat) (ctr : Nat) :
    Keeps s0 (State.nak s q kind ctr) := by
  unfold State.nak
  repeat' first
    | with_reducible first
      | assumption | exact Keeps.refl _ | apply State.count_keeps | apply State.netSend_keeps
      | apply State.qpFail_keeps | apply Keeps.ite
    | dsimp only | split

theorem State.winRefuse_keeps {s0 s : State} (h0 : Keeps s0 s) (q : Nat) :
    Keeps s0 (State.winRefuse s q) := by
  unfold State.winRefuse
  repeat' first
    | with_reducible first
      | assumption | exact Keeps.refl _ | apply State.count_keeps | apply State.netSend_keeps | apply Keeps.ite
    | dsimp only | split

theorem State.winWrite_keeps {s0 s : State} (h0 : Keeps s0 s) (w : Win) (addr : Nat) (data : Bytes) :
    Keeps s0 (State.winWrite s w addr data) := by
  unfold State.winWrite
  repeat' first
    | with_reducible first
      | assumption | exact Keeps.refl _ | refine Keeps.each ?_ _ _ (fun _ _ _ => ?_) | apply State.count_keeps
      | apply State.openSheets_keeps | apply State.writeT1_keeps | apply Keeps.ite | intro _
    | dsimp only | split

theorem State.readNak_keeps {s0 s : State} (h0 : Keeps s0 s) (q : Nat) :
    Keeps s0 (State.readNak s q) := by
  unfold State.readNak
  repeat' first
    | with_reducible first
      | assumption | exact Keeps.refl _ | apply State.nak_keeps
    | dsimp only | split

theorem State.doWinWrite_keeps {s0 s : State} (h0 : Keeps s0 s) (q : Nat) (rkey : Nat) (addr : Nat) (data : Bytes) :
    Keeps s0 (State.doWinWrite s q rkey addr data) := by
  unfold State.doWinWrite
  repeat' first
    | with_reducible first
      | assumption | exact Keeps.refl _ | apply State.winWrite_keeps
    | dsimp only | split

theorem State.respond_keeps {s0 s : State} (h0 : Keeps s0 s) (q : Nat) (r : Resp) :
    Keeps s0 (State.respond s q r) := by
  unfold State.respond
  repeat' first
    | with_reducible first
      | assumption | exact Keeps.refl _ | apply State.modQp_keeps
    | dsimp only | split

theorem State.doWinRead_keeps {s0 s : State} (h0 : Keeps s0 s) (q : Nat) (rkey : Nat) (addr : Nat) (len : Nat)
    (psn : Nat) :
    Keeps s0 (State.doWinRead s q rkey addr len psn) := by
  unfold State.doWinRead
  repeat' first
    | with_reducible first
      | assumption | exact Keeps.refl _ | apply State.openSheets_keeps | apply State.rebuildIn_keeps
      | apply State.readNak_keeps | apply State.respond_keeps | apply Keeps.ite
    | dsimp only | split

theorem State.doAcc_keeps {s0 s : State} (h0 : Keeps s0 s) (a : OpenAcc) :
    Keeps s0 (State.doAcc s a) := by
  unfold State.doAcc
  repeat' first
    | with_reducible first
      | assumption | exact Keeps.refl _ | apply State.doWinWrite_keeps | apply State.doWinRead_keeps
    | dsimp only | split

theorem State.accSnoop_keeps {s0 s : State} (h0 : Keeps s0 s) (x : OpenAcc) :
    Keeps s0 (State.accSnoop s x) := by
  unfold State.accSnoop
  repeat' first
    | with_reducible first
      | assumption | exact Keeps.refl _ | apply State.snoop_keeps | apply State.snoopData_keeps
    | dsimp only | split

theorem State.accRun_keeps {s0 s : State} (h0 : Keeps s0 s) (x : OpenAcc) :
    Keeps s0 (State.accRun s x) := by
  unfold State.accRun
  repeat' first
    | with_reducible first
      | assumption | exact Keeps.refl _ | apply State.readTaken_keeps | apply State.doAcc_keeps
    | dsimp only | split

theorem State.openAcc_keeps {s0 s : State} (h0 : Keeps s0 s) (x : OpenAcc) :
    Keeps s0 (State.openAcc s x) := by
  unfold State.openAcc
  repeat' first
    | with_reducible first
      | assumption | exact Keeps.refl _ | apply State.accSnoop_keeps | apply State.accRun_keeps | apply Keeps.ite
      | apply KeepsParts.same
    | dsimp only | simp only [keeps_mk] | split

theorem State.openGo_keeps {s0 s : State} (h0 : Keeps s0 s) :
    Keeps s0 (State.openGo s) := by
  unfold State.openGo
  repeat' first
    | with_reducible first
      | assumption | exact Keeps.refl _ | refine Keeps.each ?_ _ _ (fun _ _ _ => ?_) | apply State.accSnoop_keeps
      | apply State.accRun_keeps | apply Keeps.ite | apply KeepsParts.same | intro _
    | dsimp only | simp only [keeps_mk] | split

theorem execPortEnable_next (s : State) (port : Nat) :
    ∃ t, execPortEnable port s = .next t ∧ Keeps s t := by
  refine ⟨_, rfl, ?_⟩
  repeat' first
    | with_reducible first
      | assumption | exact Keeps.refl _ | apply State.portOn_keeps
    | dsimp only | split

theorem execPortDisable_next (s : State) (port : Nat) :
    ∃ t, execPortDisable port s = .next t ∧ Keeps s t := by
  refine ⟨_, rfl, ?_⟩
  repeat' first
    | with_reducible first
      | assumption | exact Keeps.refl _ | apply State.portOff_keeps
    | dsimp only | split

theorem execPortLinkUp_next (s : State) (port : Nat) :
    ∃ t, execPortLinkUp port s = .next t ∧ Keeps s t := by
  refine ⟨_, rfl, ?_⟩
  repeat' first
    | with_reducible first
      | assumption | exact Keeps.refl _ | apply State.setPort_keeps | apply Keeps.ite
    | dsimp only | split

theorem execLinkDown_next (s : State) (port : Nat) :
    ∃ t, execLinkDown port s = .next t ∧ Keeps s t := by
  refine ⟨_, rfl, ?_⟩
  repeat' first
    | with_reducible first
      | assumption | exact Keeps.refl _ | apply State.linkLost_keeps | apply Keeps.ite
    | dsimp only | split

theorem execQpConnect_next (s : State) :
    ∃ t, execQpConnect s = .next t ∧ Keeps s t := by
  refine ⟨_, rfl, ?_⟩
  repeat' first
    | with_reducible first
      | assumption | exact Keeps.refl _ | apply State.setQp_keeps | apply Keeps.ite | apply KeepsParts.same
    | dsimp only | simp only [keeps_mk] | split

theorem execQpReset_next (s : State) :
    ∃ t, execQpReset s = .next t ∧ Keeps s t := by
  refine ⟨_, rfl, ?_⟩
  repeat' first
    | with_reducible first
      | assumption | exact Keeps.refl _ | apply State.modQp_keeps | apply State.qpFail_keeps | apply Keeps.ite
      | apply KeepsParts.same
    | dsimp only | simp only [keeps_mk] | split

theorem State.goBack_keeps {s0 s : State} (h0 : Keeps s0 s) (q : Nat) (psn : Nat) :
    Keeps s0 (State.goBack s q psn) := by
  unfold State.goBack
  repeat' first
    | with_reducible first
      | assumption | exact Keeps.refl _ | refine Keeps.foldl ?_ _ _ (fun _ _ _ => ?_)
      | refine Keeps.foldl_fst _ _ (fun _ _ _ => ?_) _ ?_ | refine Keeps.foldl_snd _ _ (fun _ _ _ => ?_) _ ?_
      | apply State.modQp_keeps | apply Keeps.ite | apply KeepsParts.same | refine Keeps.of_fst (by assumption) ?_
      | refine Keeps.of_snd (by assumption) ?_ | intro _
    | dsimp only | simp only [keeps_mk] | split

theorem State.retry_keeps {s0 s : State} (h0 : Keeps s0 s) (q : Nat) (psn : Nat) :
    Keeps s0 (State.retry s q psn) := by
  unfold State.retry
  repeat' first
    | with_reducible first
      | assumption | exact Keeps.refl _ | apply State.setQp_keeps | apply State.qpFail_keeps
      | apply State.goBack_keeps | apply Keeps.ite
    | dsimp only | split

theorem execAckTimeout_next (s : State) (qp : Nat) :
    ∃ t, execAckTimeout qp s = .next t ∧ Keeps s t := by
  refine ⟨_, rfl, ?_⟩
  repeat' first
    | with_reducible first
      | assumption | exact Keeps.refl _ | apply State.retry_keeps | apply Keeps.ite
    | dsimp only | split

theorem execRnrRetryTimer_next (s : State) (qp : Nat) :
    ∃ t, execRnrRetryTimer qp s = .next t ∧ Keeps s t := by
  refine ⟨_, rfl, ?_⟩
  repeat' first
    | with_reducible first
      | assumption | exact Keeps.refl _ | apply State.modQp_keeps | apply State.goBack_keeps | apply Keeps.ite
    | dsimp only | split

theorem State.acked_keeps {s0 s : State} (h0 : Keeps s0 s) (x : Xfer) :
    Keeps s0 (State.acked s x) := by
  unfold State.acked
  repeat' first
    | with_reducible first
      | assumption | exact Keeps.refl _ | apply State.modPart_keeps | apply State.setSrc_keeps
      | apply State.rearm_keeps | apply State.attachDone_keeps | apply Keeps.ite
    | dsimp only | split

theorem State.accept1_keeps {s0 s : State} (h0 : Keeps s0 s) (id : Nat) :
    Keeps s0 (State.accept1 s id) := by
  unfold State.accept1
  repeat' first
    | with_reducible first
      | assumption | exact Keeps.refl _ | apply State.acked_keeps | apply Keeps.ite | apply KeepsParts.same
    | dsimp only | simp only [keeps_mk] | split

theorem State.ackTo_keeps {s0 s : State} (h0 : Keeps s0 s) (q : Nat) (psn : Nat) :
    Keeps s0 (State.ackTo s q psn) := by
  unfold State.ackTo
  repeat' first
    | with_reducible first
      | assumption | exact Keeps.refl _ | refine Keeps.each ?_ _ _ (fun _ _ _ => ?_) | apply State.modQp_keeps
      | apply State.accept1_keeps | apply Keeps.ite | intro _
    | dsimp only | split

theorem execAckReceive_next (s : State) (qp : Nat) (psn : Nat) :
    ∃ t, execAckReceive qp psn s = .next t ∧ Keeps s t := by
  refine ⟨_, rfl, ?_⟩
  repeat' first
    | with_reducible first
      | assumption | exact Keeps.refl _ | apply State.ackTo_keeps | apply Keeps.ite
    | dsimp only | split

theorem execNakReceive_next (s : State) (qp : Nat) (kind : Nat) (psn : Nat) :
    ∃ t, execNakReceive qp kind psn s = .next t ∧ Keeps s t := by
  refine ⟨_, rfl, ?_⟩
  repeat' first
    | with_reducible first
      | assumption | exact Keeps.refl _ | apply State.setQp_keeps | apply State.qpFail_keeps | apply State.retry_keeps
      | apply State.ackTo_keeps | apply Keeps.ite
    | dsimp only | split

theorem State.resendAll_keeps {s0 s : State} (h0 : Keeps s0 s) :
    Keeps s0 (State.resendAll s) := by
  unfold State.resendAll
  repeat' first
    | with_reducible first
      | assumption | exact Keeps.refl _ | refine Keeps.each ?_ _ _ (fun _ _ _ => ?_) | apply State.goBack_keeps
      | intro _
    | dsimp only | split

theorem execRdmaReadResponseReceive_next (s : State) (qp : Nat) (msg : Nat) (data : Rd) :
    ∃ t, execRdmaReadResponseReceive qp msg data s = .next t ∧ Keeps s t := by
  refine ⟨_, rfl, ?_⟩
  repeat' first
    | with_reducible first
      | assumption | exact Keeps.refl _ | apply State.attachBlockRead_keeps | apply State.modQp_keeps
      | apply Keeps.ite | apply KeepsParts.same
    | dsimp only | simp only [keeps_mk] | split

theorem execCnpReceive_next (s : State) (qp : Nat) :
    ∃ t, execCnpReceive qp s = .next t ∧ Keeps s t := by
  refine ⟨_, rfl, ?_⟩
  repeat' first
    | with_reducible first
      | assumption | exact Keeps.refl _ | apply State.count_keeps | apply State.setQp_keeps | apply Keeps.ite
    | dsimp only | split

theorem execCcPeriod_next (s : State) (qp : Nat) :
    ∃ t, execCcPeriod qp s = .next t ∧ Keeps s t := by
  refine ⟨_, rfl, ?_⟩
  repeat' first
    | with_reducible first
      | assumption | exact Keeps.refl _ | apply State.setQp_keeps | apply Keeps.ite
    | dsimp only | split

theorem State.cnpSend_keeps {s0 s : State} (h0 : Keeps s0 s) (port : Nat) (q : Nat) :
    Keeps s0 (State.cnpSend s port q) := by
  unfold State.cnpSend
  repeat' first
    | with_reducible first
      | assumption | exact Keeps.refl _ | apply State.count_keeps | apply State.setQp_keeps
      | apply State.netSend_keeps | apply Keeps.ite
    | dsimp only | split

theorem State.rxPut_keeps {s0 s : State} (h0 : Keeps s0 s) (port : Nat) (n : Nat) :
    Keeps s0 (State.rxPut s port n) := by
  unfold State.rxPut
  repeat' first
    | with_reducible first
      | assumption | exact Keeps.refl _ | apply KeepsParts.same
    | dsimp only | simp only [keeps_mk] | split

theorem State.requestPsn_keeps {s0 s : State} (h0 : Keeps s0 s) (q : Nat) (psn : Nat) (span : Nat) :
    Keeps s0 (State.requestPsn s q psn span) := by
  unfold State.requestPsn
  repeat' first
    | with_reducible first
      | assumption | exact Keeps.refl _ | apply State.modQp_keeps | apply State.netPacket_keeps
      | apply State.netSend_keeps | apply Keeps.ite
    | dsimp only | split

theorem execFrameReceive_next (s : State) (port : Nat) (info : FrameInfo) :
    ∃ t, execFrameReceive port info s = .next t ∧ Keeps s t := by
  refine ⟨_, rfl, ?_⟩
  repeat' first
    | with_reducible first
      | assumption | exact Keeps.refl _ | apply State.count_keeps | apply State.nak_keeps | apply State.cnpSend_keeps
      | apply State.rxPut_keeps | apply State.requestPsn_keeps | apply Keeps.ite
    | dsimp only | split

theorem State.pace_keeps {s0 s : State} (h0 : Keeps s0 s) (q : Nat) (n : Nat) :
    Keeps s0 (State.pace s q n) := by
  unfold State.pace
  repeat' first
    | with_reducible first
      | assumption | exact Keeps.refl _ | apply State.modQp_keeps
    | dsimp only | split

theorem State.sendResp_keeps {s0 s : State} (h0 : Keeps s0 s) (q : Nat) (d : Resp) (ds : List Resp) :
    Keeps s0 (State.sendResp s q d ds) := by
  unfold State.sendResp
  repeat' first
    | with_reducible first
      | assumption | exact Keeps.refl _ | apply State.setQp_keeps | apply State.netPacket_keeps
      | apply State.readNak_keeps | apply State.pace_keeps | apply Keeps.ite
    | dsimp only | split

theorem State.sendMsg_keeps {s0 s : State} (h0 : Keeps s0 s) (q : Nat) (x : Xfer) :
    Keeps s0 (State.sendMsg s q x) := by
  unfold State.sendMsg
  repeat' first
    | with_reducible first
      | assumption | exact Keeps.refl _ | apply State.setQp_keeps | apply State.netPacket_keeps
      | apply State.pace_keeps | apply Keeps.ite | apply KeepsParts.same
    | dsimp only | simp only [keeps_mk] | split

theorem State.sendPacket_keeps {s0 s : State} (h0 : Keeps s0 s) (q : Nat) :
    Keeps s0 (State.sendPacket s q) := by
  unfold State.sendPacket
  repeat' first
    | with_reducible first
      | assumption | exact Keeps.refl _ | apply State.sendResp_keeps | apply State.sendMsg_keeps
    | dsimp only | split

theorem execPacketSendTurn_next (s : State) (port : Nat) :
    ∃ t, execPacketSendTurn port s = .next t ∧ Keeps s t := by
  refine ⟨_, rfl, ?_⟩
  repeat' first
    | with_reducible first
      | assumption | exact Keeps.refl _ | apply State.setPort_keeps | apply State.sendPacket_keeps
    | dsimp only | split

theorem execRdmaWriteReceive_next (s : State) (qp : Nat) (rkey : Nat) (addr : Nat) (data : Bytes) :
    ∃ t, execRdmaWriteReceive qp rkey addr data s = .next t ∧ Keeps s t := by
  refine ⟨_, rfl, ?_⟩
  repeat' first
    | with_reducible first
      | assumption | exact Keeps.refl _ | apply State.doorbellWrite_keeps | apply State.netSend_keeps
      | apply State.nak_keeps | apply State.winRefuse_keeps | apply State.openAcc_keeps | apply Keeps.ite
    | dsimp only | split

theorem execRdmaReadRequestReceive_next (s : State) (qp : Nat) (rkey : Nat) (addr : Nat) (len : Nat) :
    ∃ t, execRdmaReadRequestReceive qp rkey addr len s = .next t ∧ Keeps s t := by
  refine ⟨_, rfl, ?_⟩
  repeat' first
    | with_reducible first
      | assumption | exact Keeps.refl _ | apply State.nak_keeps | apply State.winRefuse_keeps
      | apply State.openAcc_keeps | apply Keeps.ite
    | dsimp only | split

theorem execSendReceive_next (s : State) (qp : Nat) (z1 : Bytes) :
    ∃ t, execSendReceive qp z1 s = .next t ∧ Keeps s t := by
  refine ⟨_, rfl, ?_⟩
  repeat' first
    | with_reducible first
      | assumption | exact Keeps.refl _ | apply State.netSend_keeps | apply State.nak_keeps | apply Keeps.ite
    | dsimp only | split

theorem execWindowSetup_next (s : State) (ring : Nat) (seq : Nat) :
    ∃ t, execWindowSetup ring seq s = .next t ∧ Keeps s t := by
  refine ⟨_, rfl, ?_⟩
  repeat' first
    | with_reducible first
      | assumption | exact Keeps.refl _ | apply State.count_keeps | apply State.finish_keeps | apply State.front_keeps
      | apply Keeps.ite | apply KeepsParts.same | intro _
    | dsimp only | simp only [keeps_mk] | split

theorem execWindowRemove_next (s : State) (ring : Nat) (seq : Nat) :
    ∃ t, execWindowRemove ring seq s = .next t ∧ Keeps s t := by
  refine ⟨_, rfl, ?_⟩
  repeat' first
    | with_reducible first
      | assumption | exact Keeps.refl _ | apply State.setPhase_keeps | apply State.finish_keeps
      | apply State.front_keeps | apply Keeps.ite | apply KeepsParts.same | intro _
    | dsimp only | simp only [keeps_mk] | split

theorem execWindowDrainDone_next (s : State) (qp : Nat) (win : Nat) :
    ∃ t, execWindowDrainDone qp win s = .next t ∧ Keeps s t := by
  refine ⟨_, rfl, ?_⟩
  repeat' first
    | with_reducible first
      | assumption | exact Keeps.refl _ | refine Keeps.each ?_ _ _ (fun _ _ _ => ?_) | apply State.finish_keeps
      | apply Keeps.ite | apply KeepsParts.same | intro _
    | dsimp only | simp only [keeps_mk] | split

theorem State.windowDeny_keeps {s0 s : State} (h0 : Keeps s0 s) (a : Nat) :
    Keeps s0 (State.windowDeny s a) := by
  unfold State.windowDeny
  repeat' first
    | with_reducible first
      | assumption | exact Keeps.refl _ | apply State.count_keeps | apply Keeps.ite
    | dsimp only | split

theorem State.grantLine_keeps {s0 s : State} (h0 : Keeps s0 s) (l : Nat) :
    Keeps s0 (State.grantLine s l) := by
  unfold State.grantLine
  repeat' first
    | with_reducible first
      | assumption | exact Keeps.refl _ | apply State.snoop_keeps | apply Keeps.ite | apply KeepsParts.same
    | dsimp only | simp only [keeps_mk] | split

theorem State.answerLine_keeps {s0 s : State} (h0 : Keeps s0 s) (d : Bytes) (poison : Bool) :
    Keeps s0 (State.answerLine s d poison) := by
  unfold State.answerLine
  repeat' first
    | with_reducible first
      | assumption | exact Keeps.refl _ | apply KeepsParts.same
    | dsimp only | simp only [keeps_mk] | split

theorem State.memRead_keeps {s0 s : State} (h0 : Keeps s0 s) (addr : Nat) :
    Keeps s0 (State.memRead s addr) := by
  unfold State.memRead
  repeat' first
    | with_reducible first
      | assumption | exact Keeps.refl _ | apply State.openSheets_keeps | apply State.rebuild_keeps
      | apply State.windowDeny_keeps | apply State.grantLine_keeps | apply State.answerLine_keeps | apply Keeps.ite
    | dsimp only | split

theorem State.lineWrite_keeps {s0 s : State} (h0 : Keeps s0 s) (a : Nat) (d : Bytes) (poison : Bool) :
    Keeps s0 (State.lineWrite s a d poison) := by
  unfold State.lineWrite
  repeat' first
    | with_reducible first
      | assumption | exact Keeps.refl _ | apply State.count_keeps | apply State.openSheets_keeps
      | apply State.rebuild_keeps | apply State.writeT1_keeps | apply Keeps.ite
    | dsimp only | split

theorem State.memWrite_keeps {s0 s : State} (h0 : Keeps s0 s) (addr : Nat) (data : Bytes) (poison : Bool) :
    Keeps s0 (State.memWrite s addr data poison) := by
  unfold State.memWrite
  repeat' first
    | with_reducible first
      | assumption | exact Keeps.refl _ | apply State.count_keeps | apply State.windowDeny_keeps
      | apply State.lineWrite_keeps | apply Keeps.ite
    | dsimp only | split

theorem State.memServe_keeps {s0 s : State} (h0 : Keeps s0 s) (a : MemReq) :
    Keeps s0 (State.memServe s a) := by
  unfold State.memServe
  repeat' first
    | with_reducible first
      | assumption | exact Keeps.refl _ | apply State.memRead_keeps | apply State.memWrite_keeps
    | dsimp only | split

theorem State.memWait_keeps {s0 s : State} (h0 : Keeps s0 s) (r : MemReq) :
    Keeps s0 (State.memWait s r) := by
  unfold State.memWait
  repeat' first
    | with_reducible first
      | assumption | exact Keeps.refl _ | apply KeepsParts.same
    | dsimp only | simp only [keeps_mk] | split

theorem State.memGo_keeps {s0 s : State} (h0 : Keeps s0 s) :
    Keeps s0 (State.memGo s) := by
  unfold State.memGo
  repeat' first
    | with_reducible first
      | assumption | exact Keeps.refl _ | refine Keeps.each ?_ _ _ (fun _ _ _ => ?_) | apply State.memServe_keeps
      | apply KeepsParts.same | intro _
    | dsimp only | simp only [keeps_mk] | split

theorem execCxlMemRead_next (s : State) (addr : Nat) :
    ∃ t, execCxlMemRead addr s = .next t ∧ Keeps s t := by
  refine ⟨_, rfl, ?_⟩
  repeat' first
    | with_reducible first
      | assumption | exact Keeps.refl _ | apply State.memRead_keeps | apply State.memWait_keeps | apply Keeps.ite
    | dsimp only | split

theorem execCxlMemWrite_next (s : State) (addr : Nat) (data : Bytes) (poison : Bool) :
    ∃ t, execCxlMemWrite addr data poison s = .next t ∧ Keeps s t := by
  refine ⟨_, rfl, ?_⟩
  repeat' first
    | with_reducible first
      | assumption | exact Keeps.refl _ | apply State.memWrite_keeps | apply State.memWait_keeps | apply Keeps.ite
    | dsimp only | split

theorem State.detachLocals_keeps {s0 s : State} (h0 : Keeps s0 s) :
    Keeps s0 (State.detachLocals s) := by
  unfold State.detachLocals
  repeat' first
    | with_reducible first
      | assumption | exact Keeps.refl _ | refine Keeps.each ?_ _ _ (fun _ _ _ => ?_) | apply State.detachPart_keeps
      | intro _
    | dsimp only | split

theorem execHostPortReset_next (s : State) :
    ∃ t, execHostPortReset s = .next t ∧ Keeps s t := by
  refine ⟨_, rfl, ?_⟩
  repeat' first
    | with_reducible first
      | assumption | exact Keeps.refl _ | refine Keeps.each ?_ _ _ (fun _ _ _ => ?_) | apply State.count_keeps
      | apply State.raise_keeps | apply State.xferFail_keeps | apply State.failXfers_keeps
      | apply State.failStaging_keeps | apply State.memServe_keeps | apply State.detachLocals_keeps | apply Keeps.ite
      | apply KeepsParts.same | intro _
    | dsimp only | simp only [keeps_mk] | split

theorem execLinkRecovery_next (s : State) (speed : Nat) (width : Nat) :
    ∃ t, execLinkRecovery speed width s = .next t ∧ Keeps s t := by
  refine ⟨_, rfl, ?_⟩
  repeat' first
    | with_reducible first
      | assumption | exact Keeps.refl _ | apply State.count_keeps | apply Keeps.ite | apply KeepsParts.same
    | dsimp only | simp only [keeps_mk] | split

theorem execHostLinkL0_next (s : State) (speed : Nat) (width : Nat) (cxl : Bool) :
    ∃ t, execHostLinkL0 speed width cxl s = .next t ∧ Keeps s t := by
  refine ⟨_, rfl, ?_⟩
  repeat' first
    | with_reducible first
      | assumption | exact Keeps.refl _ | apply State.snoop_keeps | apply State.openGo_keeps | apply Keeps.ite
      | apply KeepsParts.same
    | dsimp only | simp only [keeps_mk] | split

theorem execPerstNRelease_next (s : State) :
    ∃ t, execPerstNRelease s = .next t ∧ Keeps s t := by
  refine ⟨_, rfl, ?_⟩
  repeat' first
    | with_reducible first
      | assumption | exact Keeps.refl _ | apply Keeps.ite | apply KeepsParts.same
    | dsimp only | simp only [keeps_mk] | split

theorem execGoResponse_next (s : State) (id : Nat) :
    ∃ t, execGoResponse id s = .next t ∧ Keeps s t := by
  refine ⟨_, rfl, ?_⟩
  repeat' first
    | with_reducible first
      | assumption | exact Keeps.refl _ | apply State.accept1_keeps | apply Keeps.ite | apply KeepsParts.same
    | dsimp only | simp only [keeps_mk] | split

theorem execBisnpResponse_next (s : State) (line : Nat) :
    ∃ t, execBisnpResponse line s = .next t ∧ Keeps s t := by
  refine ⟨_, rfl, ?_⟩
  repeat' first
    | with_reducible first
      | assumption | exact Keeps.refl _ | apply State.openGo_keeps | apply State.intakeGo_keeps
      | apply State.memGo_keeps | apply Keeps.ite | apply KeepsParts.same
    | dsimp only | simp only [keeps_mk] | split

theorem State.sendPending_keeps {s0 s : State} (h0 : Keeps s0 s) (v : Nat) :
    Keeps s0 (State.sendPending s v) := by
  unfold State.sendPending
  repeat' first
    | with_reducible first
      | assumption | exact Keeps.refl _ | refine Keeps.each ?_ _ _ (fun _ _ _ => ?_) | apply State.sendMsix_keeps
      | apply State.rearm_keeps | apply Keeps.ite | apply KeepsParts.same | intro _
    | dsimp only | simp only [keeps_mk] | split

theorem execMsixUnmask_next (s : State) (vec : Nat) :
    ∃ t, execMsixUnmask vec s = .next t ∧ Keeps s t := by
  refine ⟨_, rfl, ?_⟩
  repeat' first
    | with_reducible first
      | assumption | exact Keeps.refl _ | apply State.sendPending_keeps | apply Keeps.ite | apply KeepsParts.same
    | dsimp only | simp only [keeps_mk] | split

theorem execBarBadAccess_next (s : State) (write : Bool) :
    ∃ t, execBarBadAccess write s = .next t ∧ Keeps s t := by
  refine ⟨_, rfl, ?_⟩
  repeat' first
    | with_reducible first
      | assumption | exact Keeps.refl _ | apply State.count_keeps | apply Keeps.ite | apply KeepsParts.same
    | dsimp only | simp only [keeps_mk] | split

theorem State.dbgAct_keeps {s0 s : State} (h0 : Keeps s0 s) (ok : Bool) (go : State → State)
    (hgo : ∀ t, Keeps s0 t → Keeps s0 (go t)) :
    Keeps s0 (State.dbgAct s ok go) := by
  unfold State.dbgAct
  repeat' first
    | with_reducible first
      | assumption | exact Keeps.refl _ | apply hgo | apply Keeps.ite | apply KeepsParts.same | intro _
    | dsimp only | simp only [keeps_mk] | split

theorem State.halt_keeps {s0 s : State} (h0 : Keeps s0 s) (t : Nat) :
    Keeps s0 (State.halt s t) := by
  unfold State.halt
  repeat' first
    | with_reducible first
      | assumption | exact Keeps.refl _ | apply State.modTile_keeps | apply State.modCtx_keeps | apply Keeps.ite
    | dsimp only | split

theorem execDbgEnter_next (s : State) :
    ∃ t, execDbgEnter s = .next t ∧ Keeps s t := by
  refine ⟨_, rfl, ?_⟩
  repeat' first
    | with_reducible first
      | assumption | exact Keeps.refl _ | apply State.modTile_keeps | apply State.extend_keeps
      | apply State.dbgAct_keeps | apply KeepsParts.same | intro _
    | dsimp only | simp only [keeps_mk] | split

theorem execDbgLeave_next (s : State) :
    ∃ t, execDbgLeave s = .next t ∧ Keeps s t := by
  refine ⟨_, rfl, ?_⟩
  repeat' first
    | with_reducible first
      | assumption | exact Keeps.refl _ | apply State.modTile_keeps | apply State.freeTileFaults_keeps
      | apply State.dbgAct_keeps | intro _
    | dsimp only | split

theorem execDbgRun_next (s : State) :
    ∃ t, execDbgRun s = .next t ∧ Keeps s t := by
  refine ⟨_, rfl, ?_⟩
  repeat' first
    | with_reducible first
      | assumption | exact Keeps.refl _ | apply State.modTile_keeps | apply State.freeTileFaults_keeps
      | apply State.dbgAct_keeps | intro _
    | dsimp only | split

theorem execDbgHalt_next (s : State) :
    ∃ t, execDbgHalt s = .next t ∧ Keeps s t := by
  refine ⟨_, rfl, ?_⟩
  repeat' first
    | with_reducible first
      | assumption | exact Keeps.refl _ | apply State.freeTileFaults_keeps | apply State.dbgAct_keeps
      | apply State.halt_keeps | intro _
    | dsimp only | split

theorem execDbgStreamKeySet_next (s : State) (lo : Word) :
    ∃ t, execDbgStreamKeySet lo s = .next t ∧ Keeps s t := by
  refine ⟨_, rfl, ?_⟩
  repeat' first
    | with_reducible first
      | assumption | exact Keeps.refl _ | apply State.modTile_keeps | apply State.dbgAct_keeps | intro _
    | dsimp only | split

theorem execDbgInterleaveKeySet_next (s : State) (lo : Word) :
    ∃ t, execDbgInterleaveKeySet lo s = .next t ∧ Keeps s t := by
  refine ⟨_, rfl, ?_⟩
  repeat' first
    | with_reducible first
      | assumption | exact Keeps.refl _ | apply State.dbgAct_keeps | apply KeepsParts.same | intro _
    | dsimp only | simp only [keeps_mk] | split

theorem State.peek_keeps {s0 s : State} (h0 : Keeps s0 s) (ok : Bool) (write : Bool) :
    Keeps s0 (State.peek s ok write) := by
  unfold State.peek
  repeat' first
    | with_reducible first
      | assumption | exact Keeps.refl _ | apply Keeps.ite | apply KeepsParts.same
    | dsimp only | simp only [keeps_mk] | split

theorem execDbgPeekRead_next (s : State) :
    ∃ t, execDbgPeekRead s = .next t ∧ Keeps s t := by
  refine ⟨_, rfl, ?_⟩
  repeat' first
    | with_reducible first
      | assumption | exact Keeps.refl _ | apply State.peek_keeps
    | dsimp only | split

theorem execDbgPeekWrite_next (s : State) :
    ∃ t, execDbgPeekWrite s = .next t ∧ Keeps s t := by
  refine ⟨_, rfl, ?_⟩
  repeat' first
    | with_reducible first
      | assumption | exact Keeps.refl _ | apply State.peek_keeps
    | dsimp only | split

theorem State.peekData_keeps {s0 s : State} (h0 : Keeps s0 s) (space : Nat) (t : Nat) (n : Nat) :
    Keeps s0 (State.peekData s space t n).2.2 := by
  unfold State.peekData
  repeat' first
    | with_reducible first
      | assumption | exact Keeps.refl _ | apply State.openSheets_keeps | apply State.rebuild_keeps | apply Keeps.ite
    | dsimp only | split

theorem State.peekReadEnd_keeps {s0 s : State} (h0 : Keeps s0 s) (space : Nat) (t : Nat) (n : Nat) :
    Keeps s0 (State.peekReadEnd s space t n) := by
  unfold State.peekReadEnd
  repeat' first
    | with_reducible first
      | assumption | exact Keeps.refl _ | apply State.count_keeps | apply State.peekData_keeps | apply Keeps.ite
      | apply KeepsParts.same | refine Keeps.of_snd3 (by assumption) ?_
    | dsimp only | simp only [keeps_mk] | split

theorem State.peekWriteEnd_keeps {s0 s : State} (h0 : Keeps s0 s) (space : Nat) (t : Nat) (n : Nat) :
    Keeps s0 (State.peekWriteEnd s space t n) := by
  unfold State.peekWriteEnd
  repeat' first
    | with_reducible first
      | assumption | exact Keeps.refl _ | apply State.openSheets_keeps | apply State.writeT1_keeps
      | apply State.spWrite_keeps | apply Keeps.ite | apply KeepsParts.same | refine KeepsParts.write ?_ (fun _ => ?_)
      | exact Memory.wf_empty | refine Memory.wf_writeN _ _ _ ?_ | apply Memory.wf_writePart | apply Memory.wf_mark
      | apply Memory.wf_zero | apply Memory.wf_zeroBut | apply Memory.wf_writeSheets
      | refine Memory.wf_foldl _ _ (fun _ _ _ => ?_) _ ?_
    | dsimp only | simp only [keeps_mk] | split

theorem execPeekCopyDone_next (s : State) :
    ∃ t, execPeekCopyDone s = .next t ∧ Keeps s t := by
  refine ⟨_, rfl, ?_⟩
  repeat' first
    | with_reducible first
      | assumption | exact Keeps.refl _ | apply State.snoop_keeps | apply State.snoopData_keeps
      | apply State.readTaken_keeps | apply State.peekReadEnd_keeps | apply State.peekWriteEnd_keeps | apply Keeps.ite
      | apply KeepsParts.same
    | dsimp only | simp only [keeps_mk] | split

theorem State.answer_keeps {s0 s : State} (h0 : Keeps s0 s) (go : State → State × Nat × Bytes)
    (hgo : ∀ t, Keeps s0 t → Keeps s0 (go t).1) :
    Keeps s0 (State.answer s go) := by
  unfold State.answer
  repeat' first
    | with_reducible first
      | assumption | exact Keeps.refl _ | apply hgo | apply Keeps.ite | apply KeepsParts.same | intro _
    | dsimp only | simp only [keeps_mk] | split

theorem State.tell_keeps {s0 s : State} (h0 : Keeps s0 s) (b : Bytes) :
    Keeps s0 (State.tell s b) := by
  unfold State.tell
  repeat' first
    | with_reducible first
      | assumption | exact Keeps.refl _ | apply State.answer_keeps | intro _
    | dsimp only | split

theorem execSetEndpointId_next (s : State) (eid : Nat) :
    ∃ t, execSetEndpointId eid s = .next t ∧ Keeps s t := by
  refine ⟨_, rfl, ?_⟩
  repeat' first
    | with_reducible first
      | assumption | exact Keeps.refl _ | apply State.answer_keeps | apply KeepsParts.same | intro _
    | dsimp only | simp only [keeps_mk] | split

theorem execGetEndpointId_next (s : State) :
    ∃ t, execGetEndpointId s = .next t ∧ Keeps s t := by
  refine ⟨_, rfl, ?_⟩
  repeat' first
    | with_reducible first
      | assumption | exact Keeps.refl _ | apply State.tell_keeps
    | dsimp only | split

theorem execGetEndpointUuid_next (s : State) :
    ∃ t, execGetEndpointUuid s = .next t ∧ Keeps s t := by
  refine ⟨_, rfl, ?_⟩
  repeat' first
    | with_reducible first
      | assumption | exact Keeps.refl _ | apply State.tell_keeps
    | dsimp only | split

theorem execGetMctpVersionSupport_next (s : State) :
    ∃ t, execGetMctpVersionSupport s = .next t ∧ Keeps s t := by
  refine ⟨_, rfl, ?_⟩
  repeat' first
    | with_reducible first
      | assumption | exact Keeps.refl _ | apply State.tell_keeps
    | dsimp only | split

theorem execGetMessageTypeSupport_next (s : State) :
    ∃ t, execGetMessageTypeSupport s = .next t ∧ Keeps s t := by
  refine ⟨_, rfl, ?_⟩
  repeat' first
    | with_reducible first
      | assumption | exact Keeps.refl _ | apply State.tell_keeps
    | dsimp only | split

theorem execGetTid_next (s : State) :
    ∃ t, execGetTid s = .next t ∧ Keeps s t := by
  refine ⟨_, rfl, ?_⟩
  repeat' first
    | with_reducible first
      | assumption | exact Keeps.refl _ | apply State.tell_keeps
    | dsimp only | split

theorem execSetTid_next (s : State) (tid : Nat) :
    ∃ t, execSetTid tid s = .next t ∧ Keeps s t := by
  refine ⟨_, rfl, ?_⟩
  repeat' first
    | with_reducible first
      | assumption | exact Keeps.refl _ | apply State.answer_keeps | apply KeepsParts.same | intro _
    | dsimp only | simp only [keeps_mk] | split

theorem execGetPldmTypes_next (s : State) :
    ∃ t, execGetPldmTypes s = .next t ∧ Keeps s t := by
  refine ⟨_, rfl, ?_⟩
  repeat' first
    | with_reducible first
      | assumption | exact Keeps.refl _ | refine Keeps.foldl ?_ _ _ (fun _ _ _ => ?_)
      | refine Keeps.foldl_fst _ _ (fun _ _ _ => ?_) _ ?_ | refine Keeps.foldl_snd _ _ (fun _ _ _ => ?_) _ ?_
      | apply State.tell_keeps | refine Keeps.of_fst (by assumption) ?_ | refine Keeps.of_snd (by assumption) ?_
      | intro _
    | dsimp only | split

theorem execGetPldmCommands_next (s : State) (type : Nat) :
    ∃ t, execGetPldmCommands type s = .next t ∧ Keeps s t := by
  refine ⟨_, rfl, ?_⟩
  repeat' first
    | with_reducible first
      | assumption | exact Keeps.refl _ | refine Keeps.foldl ?_ _ _ (fun _ _ _ => ?_)
      | refine Keeps.foldl_fst _ _ (fun _ _ _ => ?_) _ ?_ | refine Keeps.foldl_snd _ _ (fun _ _ _ => ?_) _ ?_
      | apply State.answer_keeps | apply Keeps.ite | refine Keeps.of_fst (by assumption) ?_
      | refine Keeps.of_snd (by assumption) ?_ | intro _
    | dsimp only | split

theorem execGetPdrRepositoryInfo_next (s : State) :
    ∃ t, execGetPdrRepositoryInfo s = .next t ∧ Keeps s t := by
  refine ⟨_, rfl, ?_⟩
  repeat' first
    | with_reducible first
      | assumption | exact Keeps.refl _ | apply State.tell_keeps
    | dsimp only | split

theorem execGetPdr_next (s : State) (handle : Nat) :
    ∃ t, execGetPdr handle s = .next t ∧ Keeps s t := by
  refine ⟨_, rfl, ?_⟩
  repeat' first
    | with_reducible first
      | assumption | exact Keeps.refl _ | apply State.answer_keeps | apply Keeps.ite | intro _
    | dsimp only | split

theorem tellOpt_keeps {s0 s : State} (h0 : Keeps s0 s) (n : Option Nat) :
    Keeps s0 (tellOpt n s).1 := by
  unfold tellOpt
  repeat' first
    | with_reducible first
      | assumption | exact Keeps.refl _
    | dsimp only | split

theorem execGetPldmVersion_next (s : State) (type : Nat) :
    ∃ t, execGetPldmVersion type s = .next t ∧ Keeps s t := by
  refine ⟨_, rfl, ?_⟩
  repeat' first
    | with_reducible first
      | assumption | exact Keeps.refl _ | apply State.answer_keeps | apply tellOpt_keeps
      | refine Keeps.of_fst (by assumption) ?_ | refine Keeps.of_fst3 (by assumption) ?_ | intro _
    | dsimp only | split

theorem execGetSensorReading_next (s : State) (id : Nat) :
    ∃ t, execGetSensorReading id s = .next t ∧ Keeps s t := by
  refine ⟨_, rfl, ?_⟩
  repeat' first
    | with_reducible first
      | assumption | exact Keeps.refl _ | apply State.answer_keeps | apply tellOpt_keeps
      | refine Keeps.of_fst (by assumption) ?_ | refine Keeps.of_fst3 (by assumption) ?_ | intro _
    | dsimp only | split

theorem execGetStateSensorReadings_next (s : State) (id : Nat) :
    ∃ t, execGetStateSensorReadings id s = .next t ∧ Keeps s t := by
  refine ⟨_, rfl, ?_⟩
  repeat' first
    | with_reducible first
      | assumption | exact Keeps.refl _ | apply State.answer_keeps | apply tellOpt_keeps
      | refine Keeps.of_fst (by assumption) ?_ | refine Keeps.of_fst3 (by assumption) ?_ | intro _
    | dsimp only | split

theorem execSetNumericEffecterValue_next (s : State) (id : Nat) (value : Nat) :
    ∃ t, execSetNumericEffecterValue id value s = .next t ∧ Keeps s t := by
  refine ⟨_, rfl, ?_⟩
  repeat' first
    | with_reducible first
      | assumption | exact Keeps.refl _ | apply Keeps.after | apply execPwrCap_next | apply execSlew_next
      | apply State.answer_keeps | apply Keeps.ite | intro _
    | dsimp only | split

theorem execGetNumericEffecterValue_next (s : State) (id : Nat) :
    ∃ t, execGetNumericEffecterValue id s = .next t ∧ Keeps s t := by
  refine ⟨_, rfl, ?_⟩
  repeat' first
    | with_reducible first
      | assumption | exact Keeps.refl _ | apply State.answer_keeps | apply tellOpt_keeps | apply Keeps.ite
      | refine Keeps.of_fst (by assumption) ?_ | refine Keeps.of_fst3 (by assumption) ?_ | intro _
    | dsimp only | split

theorem execSetEventReceiver_next (s : State) (eid : Nat) :
    ∃ t, execSetEventReceiver eid s = .next t ∧ Keeps s t := by
  refine ⟨_, rfl, ?_⟩
  repeat' first
    | with_reducible first
      | assumption | exact Keeps.refl _ | apply State.answer_keeps | apply KeepsParts.same | intro _
    | dsimp only | simp only [keeps_mk] | split

theorem execPollForPlatformEventMessage_next (s : State) :
    ∃ t, execPollForPlatformEventMessage s = .next t ∧ Keeps s t := by
  refine ⟨_, rfl, ?_⟩
  repeat' first
    | with_reducible first
      | assumption | exact Keeps.refl _ | apply State.answer_keeps | apply KeepsParts.same | intro _
    | dsimp only | simp only [keeps_mk] | split

end Sys2Proof.Machine
end

