-- ==== Sys2Proof/Laws/KeepVault.lean ====
section
/-! SUPPORT. `Keeps` for the vault, the partner, the tiers, restore, the security processor, resets and power:
the waiting commands, the fuses and the canonical form of memory stay. -/

namespace Sys2Proof.Machine
set_option linter.unusedTactic false
set_option linter.unreachableTactic false

theorem State.mounted_keeps {s0 s : State} (h0 : Keeps s0 s) :
    Keeps s0 (State.mounted s) := by
  unfold State.mounted
  repeat' first
    | with_reducible first
      | assumption | exact Keeps.refl _ | apply State.modVault_keeps
    | dsimp only | split

theorem execVaultRowsAppend_next (s : State) (table : Nat) (rows : List RowId) :
    ∃ t, execVaultRowsAppend table rows s = .next t ∧ Keeps s t := by
  refine ⟨_, rfl, ?_⟩
  repeat' first
    | with_reducible first
      | assumption | exact Keeps.refl _ | apply State.baseNext_keeps | apply State.stepNext_keeps
      | apply State.appendFlips_keeps | apply State.appendRows_keeps | apply State.mounted_keeps | apply Keeps.ite
    | dsimp only | split

theorem State.replicaDurable_keeps {s0 s : State} (h0 : Keeps s0 s) (r : VRec) :
    Keeps s0 (State.replicaDurable s r) := by
  unfold State.replicaDurable
  repeat' first
    | with_reducible first
      | assumption | exact Keeps.refl _ | apply State.issue_keeps | apply Keeps.ite | apply KeepsParts.same
    | dsimp only | simp only [keeps_mk] | split

theorem execVaultAppendDurable_next (s : State) :
    ∃ t, execVaultAppendDurable s = .next t ∧ Keeps s t := by
  refine ⟨_, rfl, ?_⟩
  repeat' first
    | with_reducible first
      | assumption | exact Keeps.refl _ | apply State.modVault_keeps | apply State.baseNext_keeps
      | apply State.stepNext_keeps | apply State.replicaDurable_keeps | apply KeepsParts.same
    | dsimp only | simp only [keeps_mk] | split

theorem execStateRecordTimer_next (s : State) :
    ∃ t, execStateRecordTimer s = .next t ∧ Keeps s t := by
  refine ⟨_, rfl, ?_⟩
  repeat' first
    | with_reducible first
      | assumption | exact Keeps.refl _ | apply State.baseNext_keeps | apply State.stepNext_keeps
      | apply State.appendState_keeps | apply State.mounted_keeps
    | dsimp only | split

theorem State.vaultCondition_keeps {s0 s : State} (h0 : Keeps s0 s) :
    Keeps s0 (State.vaultCondition s) := by
  unfold State.vaultCondition
  repeat' first
    | with_reducible first
      | assumption | exact Keeps.refl _ | apply State.causeAll_keeps | apply State.modVault_keeps | apply Keeps.ite
    | dsimp only | split

theorem execVaultBlockErase_next (s : State) (retired : Bool) :
    ∃ t, execVaultBlockErase retired s = .next t ∧ Keeps s t := by
  refine ⟨_, rfl, ?_⟩
  repeat' first
    | with_reducible first
      | assumption | exact Keeps.refl _ | apply State.count_keeps | apply State.setVault_keeps
      | apply State.modVault_keeps | apply State.baseNext_keeps | apply State.stepNext_keeps
      | apply State.appendHeld_keeps | apply State.commitGo_keeps | apply State.intakeGo_keeps
      | apply State.mounted_keeps | apply State.vaultCondition_keeps | apply Keeps.ite
    | dsimp only | split

theorem State.partnerSend_keeps {s0 s : State} (h0 : Keeps s0 s) (p : Pair) (data : Bytes) :
    Keeps s0 (State.partnerSend s p data) := by
  unfold State.partnerSend
  repeat' first
    | with_reducible first
      | assumption | exact Keeps.refl _ | apply State.issue_keeps
    | dsimp only | split

theorem State.partnerPair_keeps {s0 s : State} (h0 : Keeps s0 s) (k : Nat) (op : Nat) (go : State → Cmd → State)
    (hgo : ∀ t x1, Keeps s0 t → Keeps s0 (go t x1)) :
    Keeps s0 (State.partnerPair s k op go) := by
  unfold State.partnerPair
  repeat' first
    | with_reducible first
      | assumption | exact Keeps.refl _ | apply hgo | apply State.finish_keeps | apply State.front_keeps
      | apply Keeps.ite | intro _
    | dsimp only | split

theorem execPartnerPairSender_next (s : State) (ring : Nat) (seq : Nat) :
    ∃ t, execPartnerPairSender ring seq s = .next t ∧ Keeps s t := by
  refine ⟨_, rfl, ?_⟩
  repeat' first
    | with_reducible first
      | assumption | exact Keeps.refl _ | apply State.setPhase_keeps | apply State.finish_keeps
      | apply State.setSender_keeps | apply State.partnerSend_keeps | apply State.partnerPair_keeps | apply Keeps.ite
      | intro _
    | dsimp only | split

theorem execPartnerPairReceiver_next (s : State) (ring : Nat) (seq : Nat) :
    ∃ t, execPartnerPairReceiver ring seq s = .next t ∧ Keeps s t := by
  refine ⟨_, rfl, ?_⟩
  repeat' first
    | with_reducible first
      | assumption | exact Keeps.refl _ | apply State.finish_keeps | apply State.setReceiver_keeps
      | apply State.partnerPair_keeps | apply Keeps.ite | intro _
    | dsimp only | split

theorem execPartnerPairUnpair_next (s : State) (ring : Nat) (seq : Nat) :
    ∃ t, execPartnerPairUnpair ring seq s = .next t ∧ Keeps s t := by
  refine ⟨_, rfl, ?_⟩
  repeat' first
    | with_reducible first
      | assumption | exact Keeps.refl _ | apply State.finish_keeps | apply State.setSender_keeps
      | apply State.setReceiver_keeps | apply State.partnerPair_keeps | apply Keeps.ite | intro _
    | dsimp only | split

theorem State.partnerAck_keeps {s0 s : State} (h0 : Keeps s0 s) (p : Pair) :
    Keeps s0 (State.partnerAck s p) := by
  unfold State.partnerAck
  repeat' first
    | with_reducible first
      | assumption | exact Keeps.refl _ | apply State.partnerSend_keeps
    | dsimp only | split

theorem execPartnerHelloReceive_next (s : State) (serial : Nat) (feed : Nat) (boot : Nat) (lsn : Nat) :
    ∃ t, execPartnerHelloReceive serial feed boot lsn s = .next t ∧ Keeps s t := by
  refine ⟨_, rfl, ?_⟩
  repeat' first
    | with_reducible first
      | assumption | exact Keeps.refl _ | apply State.finish_keeps | apply State.setSender_keeps
      | apply State.setReceiver_keeps | apply State.partnerSend_keeps | apply State.partnerAck_keeps | apply Keeps.ite
    | dsimp only | split

theorem execPartnerHelloTimeout_next (s : State) :
    ∃ t, execPartnerHelloTimeout s = .next t ∧ Keeps s t := by
  refine ⟨_, rfl, ?_⟩
  repeat' first
    | with_reducible first
      | assumption | exact Keeps.refl _ | apply State.finish_keeps | apply State.setSender_keeps
    | dsimp only | split

theorem execPartnerRecordWrite_next (s : State) :
    ∃ t, execPartnerRecordWrite s = .next t ∧ Keeps s t := by
  refine ⟨_, rfl, ?_⟩
  repeat' first
    | with_reducible first
      | assumption | exact Keeps.refl _ | apply State.freeVal_keeps | apply State.issue_keeps
      | apply State.setSender_keeps | apply State.partnerSend_keeps | apply Keeps.ite
      | refine Keeps.of_snd (by assumption) ?_
    | dsimp only | split

theorem execPartnerAckReceive_next (s : State) (step : Nat) (lsn : Nat) (intakeFree : Nat) :
    ∃ t, execPartnerAckReceive step lsn intakeFree s = .next t ∧ Keeps s t := by
  refine ⟨_, rfl, ?_⟩
  repeat' first
    | with_reducible first
      | assumption | exact Keeps.refl _ | apply State.count_keeps | apply State.setSender_keeps | apply Keeps.ite
      | apply KeepsParts.same
    | dsimp only | simp only [keeps_mk] | split

theorem execPartnerRecordArrival_next (s : State) (record : Bytes) :
    ∃ t, execPartnerRecordArrival record s = .next t ∧ Keeps s t := by
  refine ⟨_, rfl, ?_⟩
  repeat' first
    | with_reducible first
      | assumption | exact Keeps.refl _ | apply State.setReceiver_keeps | apply State.intakeGo_keeps
      | apply State.mounted_keeps | apply Keeps.ite
    | dsimp only | split

theorem execPartnerStall_next (s : State) :
    ∃ t, execPartnerStall s = .next t ∧ Keeps s t := by
  refine ⟨_, rfl, ?_⟩
  repeat' first
    | with_reducible first
      | assumption | exact Keeps.refl _ | apply State.causeAll_keeps | apply Keeps.ite
    | dsimp only | split

theorem execPartnerRestoreRequest_next (s : State) (serial : Nat) :
    ∃ t, execPartnerRestoreRequest serial s = .next t ∧ Keeps s t := by
  refine ⟨_, rfl, ?_⟩
  repeat' first
    | with_reducible first
      | assumption | exact Keeps.refl _ | refine Keeps.each ?_ _ _ (fun _ _ _ => ?_) | apply State.partnerSend_keeps
      | apply Keeps.ite | intro _
    | dsimp only | split

theorem execT0CorrectedWriteBack_next (s : State) (tile : Nat) :
    ∃ t, execT0CorrectedWriteBack tile s = .next t ∧ Keeps s t := by
  refine ⟨_, rfl, ?_⟩
  repeat' first
    | with_reducible first
      | assumption | exact Keeps.refl _ | apply State.count_keeps | apply State.drainWb_keeps | apply Keeps.ite
      | apply KeepsParts.same
    | dsimp only | simp only [keeps_mk] | split

theorem execT0ScrubPass_next (s : State) (overran : Bool) (bad : List (Nat × Nat)) :
    ∃ t, execT0ScrubPass overran bad s = .next t ∧ Keeps s t := by
  refine ⟨_, rfl, ?_⟩
  repeat' first
    | with_reducible first
      | assumption | exact Keeps.refl _ | refine Keeps.each ?_ _ _ (fun _ _ _ => ?_) | apply State.drainWb_keeps
      | apply State.strikeT0_keeps | apply Keeps.ite | apply KeepsParts.same | intro _
    | dsimp only | simp only [keeps_mk] | split

theorem State.badStripe_keeps {s0 s : State} (h0 : Keeps s0 s) (g : Nat) (stripe : Nat) :
    Keeps s0 (State.badStripe s g stripe) := by
  unfold State.badStripe
  repeat' first
    | with_reducible first
      | assumption | exact Keeps.refl _ | refine Keeps.each ?_ _ _ (fun _ _ _ => ?_) | apply State.count_keeps
      | apply State.poisonT1_keeps | apply Keeps.ite | intro _
    | dsimp only | split

theorem execT1ScrubPass_next (s : State) (overran : Bool) (bad : List (Nat × Nat)) :
    ∃ t, execT1ScrubPass overran bad s = .next t ∧ Keeps s t := by
  refine ⟨_, rfl, ?_⟩
  repeat' first
    | with_reducible first
      | assumption | exact Keeps.refl _ | refine Keeps.each ?_ _ _ (fun _ _ _ => ?_) | apply State.badStripe_keeps
      | apply Keeps.ite | apply KeepsParts.same | intro _
    | dsimp only | simp only [keeps_mk] | split

theorem State.loseT1_keeps {s0 s : State} (h0 : Keeps s0 s) (ctrl : Nat) (pkg : Nat) :
    Keeps s0 (State.loseT1 s ctrl pkg) := by
  unfold State.loseT1
  repeat' first
    | with_reducible first
      | assumption | exact Keeps.refl _ | apply State.causeAll_keeps | apply State.setT1g_keeps
      | apply State.failGroup_keeps | apply Keeps.ite
    | dsimp only | split

theorem execT1PackageLost_next (s : State) (ctrl : Nat) (pkg : Nat) :
    ∃ t, execT1PackageLost ctrl pkg s = .next t ∧ Keeps s t := by
  refine ⟨_, rfl, ?_⟩
  repeat' first
    | with_reducible first
      | assumption | exact Keeps.refl _ | apply State.loseT1_keeps | apply Keeps.ite
    | dsimp only | split

theorem State.repaired_keeps {s0 s : State} (h0 : Keeps s0 s) (id : Nat) (kind : Nat) (tile : Nat) (u : Nat)
    (loc : Nat) :
    Keeps s0 (State.repaired s id kind tile u loc) := by
  unfold State.repaired
  repeat' first
    | with_reducible first
      | assumption | exact Keeps.refl _ | apply State.count_keeps | apply State.plogAdd_keeps
    | dsimp only | split

theorem State.rewriteRow_keeps {s0 s : State} (h0 : Keeps s0 s) (tile : Nat) (u : Nat) (loc : Nat) (b : Bytes) :
    Keeps s0 (State.rewriteRow s tile u loc b) := by
  unfold State.rewriteRow
  repeat' first
    | with_reducible first
      | assumption | exact Keeps.refl _ | apply State.writeCopy_keeps | apply Keeps.ite
    | dsimp only | split

theorem State.repairLost_keeps {s0 s : State} (h0 : Keeps s0 s) (tile : Nat) (u : Nat) (loc : Nat) :
    Keeps s0 (State.repairLost s tile u loc) := by
  unfold State.repairLost
  repeat' first
    | with_reducible first
      | assumption | exact Keeps.refl _ | apply State.repaired_keeps | apply State.rewriteRow_keeps
    | dsimp only | split

theorem execPoisonRepair_next (s : State) (tile : Nat) (table : Nat) (loc : Nat) :
    ∃ t, execPoisonRepair tile table loc s = .next t ∧ Keeps s t := by
  refine ⟨_, rfl, ?_⟩
  repeat' first
    | with_reducible first
      | assumption | exact Keeps.refl _ | apply State.setDir_keeps | apply State.writeCopy_keeps
      | apply State.drainWb_keeps | apply State.repaired_keeps | apply State.rewriteRow_keeps
      | apply State.repairLost_keeps | apply Keeps.ite
    | dsimp only | split

theorem execReamLineReload_next (s : State) (tile : Nat) :
    ∃ t, execReamLineReload tile s = .next t ∧ Keeps s t := by
  refine ⟨_, rfl, ?_⟩
  repeat' first
    | with_reducible first
      | assumption | exact Keeps.refl _ | apply State.modTile_keeps | apply State.reloadTile_keeps | apply Keeps.ite
    | dsimp only | split

theorem execD2dFlitReplay_next (s : State) (dir : Nat) :
    ∃ t, execD2dFlitReplay dir s = .next t ∧ Keeps s t := by
  refine ⟨_, rfl, ?_⟩
  repeat' first
    | with_reducible first
      | assumption | exact Keeps.refl _ | apply State.count_keeps | apply Keeps.ite | apply KeepsParts.same
    | dsimp only | simp only [keeps_mk] | split

theorem State.replayRec_keeps {s0 s : State} (h0 : Keeps s0 s) (r : VRec) :
    Keeps s0 (State.replayRec s r) := by
  unfold State.replayRec
  repeat' first
    | with_reducible first
      | assumption | exact Keeps.refl _ | refine Keeps.each ?_ _ _ (fun _ _ _ => ?_) | apply State.setDir_keeps
      | apply State.writeCopy_keeps | apply Keeps.ite | intro _
    | dsimp only | split

theorem State.unitBad_keeps {s0 s : State} (h0 : Keeps s0 s) (r : VRec) :
    Keeps s0 (State.unitBad s r) := by
  unfold State.unitBad
  repeat' first
    | with_reducible first
      | assumption | exact Keeps.refl _ | apply State.plogAdd_keeps | apply Keeps.ite
    | dsimp only | split

theorem State.replayAll_keeps {s0 s : State} (h0 : Keeps s0 s) (y0 : List VRec) :
    Keeps s0 (State.replayAll s y0).1 := by
  induction y0 generalizing s with
  | nil =>
    unfold State.replayAll
    repeat' first
      | with_reducible first
        | assumption | exact Keeps.refl _ | apply State.replayRec_keeps | apply State.unitBad_keeps
        | apply Keeps.ite
      | dsimp only | split
  | cons r rs ih =>
    unfold State.replayAll
    repeat' first
      | with_reducible first
        | assumption | exact Keeps.refl _ | apply ih | apply State.replayRec_keeps | apply State.unitBad_keeps
        | apply Keeps.ite
      | dsimp only | split

theorem State.skipRec_keeps {s0 s : State} (h0 : Keeps s0 s) (r : VRec) :
    Keeps s0 (State.skipRec s r) := by
  unfold State.skipRec
  repeat' first
    | with_reducible first
      | assumption | exact Keeps.refl _ | refine Keeps.each ?_ _ _ (fun _ _ _ => ?_) | apply State.plogAdd_keeps
      | apply State.unitBad_keeps | apply Keeps.ite | intro _
    | dsimp only | split

theorem State.replayTail_keeps {s0 s : State} (h0 : Keeps s0 s) (rs : List VRec) :
    Keeps s0 (State.replayTail s rs) := by
  unfold State.replayTail
  repeat' first
    | with_reducible first
      | assumption | exact Keeps.refl _ | refine Keeps.each ?_ _ _ (fun _ _ _ => ?_) | apply State.replayRec_keeps
      | apply State.skipRec_keeps | apply Keeps.ite | intro _
    | dsimp only | split

theorem State.placeRows_keeps {s0 s : State} (h0 : Keeps s0 s) :
    Keeps s0 (State.placeRows s) := by
  unfold State.placeRows
  repeat' first
    | with_reducible first
      | assumption | exact Keeps.refl _ | refine Keeps.each ?_ _ _ (fun _ _ _ => ?_) | apply State.setDir_keeps
      | apply State.moveRow_keeps | apply State.abandonMoves_keeps | apply KeepsParts.same | intro _
    | dsimp only | simp only [keeps_mk] | split

theorem State.restoreStreams_keeps {s0 s : State} (h0 : Keeps s0 s) (st : Option VRec) (step : Option VRec) :
    Keeps s0 (State.restoreStreams s st step).1 := by
  unfold State.restoreStreams
  repeat' first
    | with_reducible first
      | assumption | exact Keeps.refl _ | refine Keeps.foldl ?_ _ _ (fun _ _ _ => ?_)
      | refine Keeps.foldl_fst _ _ (fun _ _ _ => ?_) _ ?_ | refine Keeps.foldl_snd _ _ (fun _ _ _ => ?_) _ ?_
      | apply State.setCtr_keeps | apply State.modTile_keeps | apply Keeps.ite
      | refine Keeps.of_fst (by assumption) ?_ | refine Keeps.of_snd (by assumption) ?_ | intro _
    | dsimp only | split

theorem State.restoreSteps_keeps {s0 s : State} (h0 : Keeps s0 s) (st : Option VRec) (rs : List VRec) :
    Keeps s0 (State.restoreSteps s st rs) := by
  unfold State.restoreSteps
  repeat' first
    | with_reducible first
      | assumption | exact Keeps.refl _ | apply KeepsParts.same
    | dsimp only | simp only [keeps_mk] | split

theorem State.lostRecord_keeps {s0 s : State} (h0 : Keeps s0 s) (n : Nat) (epoch : Nat) (seq : Nat) :
    Keeps s0 (State.lostRecord s n epoch seq).2 := by
  unfold State.lostRecord
  repeat' first
    | with_reducible first
      | assumption | exact Keeps.refl _ | apply State.freeVal_keeps | refine Keeps.of_snd (by assumption) ?_
    | dsimp only | split

theorem State.restoreRing_keeps {s0 s : State} (h0 : Keeps s0 s) (e : Bytes) :
    Keeps s0 (State.restoreRing s e) := by
  unfold State.restoreRing
  repeat' first
    | with_reducible first
      | assumption | exact Keeps.refl _ | refine Keeps.each ?_ _ _ (fun _ _ _ => ?_) | apply State.modRing_keeps
      | apply State.putRecord_keeps | apply State.lostRecord_keeps | apply Keeps.ite
      | refine Keeps.of_snd (by assumption) ?_ | intro _
    | dsimp only | split

theorem State.restoreRings_keeps {s0 s : State} (h0 : Keeps s0 s) (log : List VRec) (st : Option VRec) :
    Keeps s0 (State.restoreRings s log st) := by
  unfold State.restoreRings
  repeat' first
    | with_reducible first
      | assumption | exact Keeps.refl _ | refine Keeps.each ?_ _ _ (fun _ _ _ => ?_) | apply State.restoreRing_keeps
      | apply Keeps.ite | intro _
    | dsimp only | split

theorem State.restoreReject_keeps {s0 s : State} (h0 : Keeps s0 s) (k : Nat) (why : Nat) :
    Keeps s0 (State.restoreReject s k why) := by
  unfold State.restoreReject
  repeat' first
    | with_reducible first
      | assumption | exact Keeps.refl _ | apply State.finish_keeps
    | dsimp only | split

theorem State.restoreFail_keeps {s0 s : State} (h0 : Keeps s0 s) (k : Nat) (why : Nat) :
    Keeps s0 (State.restoreFail s k why) := by
  unfold State.restoreFail
  repeat' first
    | with_reducible first
      | assumption | exact Keeps.refl _ | apply State.finish_keeps | apply KeepsParts.same
    | dsimp only | simp only [keeps_mk] | split

theorem State.restoreRest_keeps {s0 s : State} (h0 : Keeps s0 s) (k : Nat) (c : Cmd) (log : List VRec) (p : Point) :
    Keeps s0 (State.restoreRest s k c log p) := by
  unfold State.restoreRest
  repeat' first
    | with_reducible first
      | assumption | exact Keeps.refl _ | apply State.count_keeps | apply State.pinTables_keeps
      | apply State.replayTail_keeps | apply State.placeRows_keeps | apply State.restoreStreams_keeps
      | apply State.restoreSteps_keeps | apply State.restoreRings_keeps | apply Keeps.ite | apply KeepsParts.same
      | refine Keeps.of_fst (by assumption) ?_ | refine Keeps.of_fst3 (by assumption) ?_
    | dsimp only | simp only [keeps_mk] | split

theorem State.restoreRun_keeps {s0 s : State} (h0 : Keeps s0 s) (k : Nat) (c : Cmd) (log : List VRec) (p : Point)
    (replica : List Bytes) :
    Keeps s0 (State.restoreRun s k c log p replica) := by
  unfold State.restoreRun
  repeat' first
    | with_reducible first
      | assumption | exact Keeps.refl _ | refine Keeps.each ?_ _ _ (fun _ _ _ => ?_) | apply State.setCtr_keeps
      | apply State.setPhase_keeps | apply State.closeAdmission_keeps | apply State.replayAll_keeps
      | apply State.restoreFail_keeps | apply State.restoreRest_keeps | apply Keeps.ite | apply KeepsParts.same
      | refine Keeps.of_fst (by assumption) ?_ | refine Keeps.of_fst3 (by assumption) ?_ | intro _
    | dsimp only | simp only [keeps_mk] | split

theorem State.askReplica_keeps {s0 s : State} (h0 : Keeps s0 s) (c : Cmd) :
    Keeps s0 (State.askReplica s c) := by
  unfold State.askReplica
  repeat' first
    | with_reducible first
      | assumption | exact Keeps.refl _ | apply State.issue_keeps | apply Keeps.ite
    | dsimp only | split

theorem execRestore_next (s : State) (ring : Nat) (seq : Nat) (replica : List Bytes) :
    ∃ t, execRestore ring seq replica s = .next t ∧ Keeps s t := by
  refine ⟨_, rfl, ?_⟩
  repeat' first
    | with_reducible first
      | assumption | exact Keeps.refl _ | apply State.finish_keeps | apply State.front_keeps
      | apply State.restoreReject_keeps | apply State.restoreRun_keeps | apply State.askReplica_keeps
      | apply Keeps.ite | intro _
    | dsimp only | split

theorem State.mbxEnd_keeps {s0 s : State} (h0 : Keeps s0 s) (status : Nat) (out : Bytes) :
    Keeps s0 (State.mbxEnd s status out) := by
  unfold State.mbxEnd
  repeat' first
    | with_reducible first
      | assumption | exact Keeps.refl _ | apply KeepsParts.same
    | dsimp only | simp only [keeps_mk] | split

theorem State.mbxLong_keeps {s0 s : State} (h0 : Keeps s0 s) (code : Nat) (status : Nat) (out : Bytes) (img : Bytes) :
    Keeps s0 (State.mbxLong s code status out img) := by
  unfold State.mbxLong
  repeat' first
    | with_reducible first
      | assumption | exact Keeps.refl _ | apply KeepsParts.same
    | dsimp only | simp only [keeps_mk] | split

theorem State.mailbox_keeps {s0 s : State} (h0 : Keeps s0 s) (len : Nat) (go : State → State)
    (hgo : ∀ t, Keeps s0 t → Keeps s0 (go t)) :
    Keeps s0 (State.mailbox s len go) := by
  unfold State.mailbox
  repeat' first
    | with_reducible first
      | assumption | exact Keeps.refl _ | apply hgo | apply State.mbxEnd_keeps | apply Keeps.ite
      | apply KeepsParts.same | intro _
    | dsimp only | simp only [keeps_mk] | split

theorem execGetInfo_next (s : State) :
    ∃ t, execGetInfo s = .next t ∧ Keeps s t := by
  refine ⟨_, rfl, ?_⟩
  repeat' first
    | with_reducible first
      | assumption | exact Keeps.refl _ | apply State.mbxEnd_keeps | apply State.mailbox_keeps | intro _
    | dsimp only | split

theorem execGetCert_next (s : State) :
    ∃ t, execGetCert s = .next t ∧ Keeps s t := by
  refine ⟨_, rfl, ?_⟩
  repeat' first
    | with_reducible first
      | assumption | exact Keeps.refl _ | apply State.mbxEnd_keeps | apply State.mailbox_keeps | apply Keeps.ite
      | intro _
    | dsimp only | split

theorem execGetLog_next (s : State) :
    ∃ t, execGetLog s = .next t ∧ Keeps s t := by
  refine ⟨_, rfl, ?_⟩
  repeat' first
    | with_reducible first
      | assumption | exact Keeps.refl _ | apply State.mbxEnd_keeps | apply State.mailbox_keeps | apply Keeps.ite
      | intro _
    | dsimp only | split

theorem execQuote_next (s : State) :
    ∃ t, execQuote s = .next t ∧ Keeps s t := by
  refine ⟨_, rfl, ?_⟩
  repeat' first
    | with_reducible first
      | assumption | exact Keeps.refl _ | apply State.freeVals_keeps | apply State.mbxLong_keeps
      | apply State.mailbox_keeps | refine Keeps.of_snd (by assumption) ?_ | intro _
    | dsimp only | split

theorem execFwStage_next (s : State) (img : Rd) :
    ∃ t, execFwStage img s = .next t ∧ Keeps s t := by
  refine ⟨_, rfl, ?_⟩
  repeat' first
    | with_reducible first
      | assumption | exact Keeps.refl _ | apply State.mbxEnd_keeps | apply State.mbxLong_keeps
      | apply State.mailbox_keeps | apply Keeps.ite | intro _
    | dsimp only | split

theorem execFwCommit_next (s : State) :
    ∃ t, execFwCommit s = .next t ∧ Keeps s t := by
  refine ⟨_, rfl, ?_⟩
  repeat' first
    | with_reducible first
      | assumption | exact Keeps.refl _ | apply State.mbxEnd_keeps | apply State.mbxLong_keeps
      | apply State.mailbox_keeps | apply Keeps.ite | intro _
    | dsimp only | split

theorem execFwAbandon_next (s : State) :
    ∃ t, execFwAbandon s = .next t ∧ Keeps s t := by
  refine ⟨_, rfl, ?_⟩
  repeat' first
    | with_reducible first
      | assumption | exact Keeps.refl _ | apply State.mbxEnd_keeps | apply State.mailbox_keeps | apply KeepsParts.same
      | intro _
    | dsimp only | simp only [keeps_mk] | split

theorem execPackInstall_next (s : State) (img : Rd) :
    ∃ t, execPackInstall img s = .next t ∧ Keeps s t := by
  refine ⟨_, rfl, ?_⟩
  repeat' first
    | with_reducible first
      | assumption | exact Keeps.refl _ | apply State.mbxEnd_keeps | apply State.mbxLong_keeps
      | apply State.mailbox_keeps | apply Keeps.ite | intro _
    | dsimp only | split

theorem State.stageDone_keeps {s0 s : State} (h0 : Keeps s0 s) :
    Keeps s0 (State.stageDone s) := by
  unfold State.stageDone
  repeat' first
    | with_reducible first
      | assumption | exact Keeps.refl _ | apply Keeps.ite | apply KeepsParts.same
    | dsimp only | simp only [keeps_mk] | split

theorem State.packDone_keeps {s0 s : State} (h0 : Keeps s0 s) :
    Keeps s0 (State.packDone s) := by
  unfold State.packDone
  repeat' first
    | with_reducible first
      | assumption | exact Keeps.refl _ | refine Keeps.foldl ?_ _ _ (fun _ _ _ => ?_)
      | refine Keeps.foldl_fst _ _ (fun _ _ _ => ?_) _ ?_ | refine Keeps.foldl_snd _ _ (fun _ _ _ => ?_) _ ?_
      | apply State.extend_keeps | apply Keeps.ite | apply KeepsParts.same | refine Keeps.of_fst (by assumption) ?_
      | refine Keeps.of_snd (by assumption) ?_ | intro _
    | dsimp only | simp only [keeps_mk] | split

theorem State.blow_keeps {s0 s : State} (h0 : Keeps s0 s) (n : Nat) :
    Keeps s0 (State.blow s n) := by
  unfold State.blow
  repeat' first
    | with_reducible first
      | assumption | exact Keeps.refl _ | apply KeepsParts.same | apply KeepsParts.burn | apply KeepsParts.strap
    | dsimp only | simp only [keeps_mk] | split

theorem State.longDone_keeps {s0 s : State} (h0 : Keeps s0 s) :
    Keeps s0 (State.longDone s) := by
  unfold State.longDone
  repeat' first
    | with_reducible first
      | assumption | exact Keeps.refl _ | apply State.stageDone_keeps | apply State.packDone_keeps
      | apply State.blow_keeps | apply Keeps.ite
    | dsimp only | split

theorem execMailboxCommandDone_next (s : State) :
    ∃ t, execMailboxCommandDone s = .next t ∧ Keeps s t := by
  refine ⟨_, rfl, ?_⟩
  repeat' first
    | with_reducible first
      | assumption | exact Keeps.refl _ | apply State.mbxEnd_keeps | apply State.longDone_keeps | apply Keeps.ite
    | dsimp only | split

theorem State.measureBoot_keeps {s0 s : State} (h0 : Keeps s0 s) :
    Keeps s0 (State.measureBoot s) := by
  unfold State.measureBoot
  repeat' first
    | with_reducible first
      | assumption | exact Keeps.refl _ | refine Keeps.each ?_ _ _ (fun _ _ _ => ?_) | apply State.extend_keeps
      | apply Keeps.ite | apply KeepsParts.same | intro _
    | dsimp only | simp only [keeps_mk] | split

theorem State.bootFrom_keeps {s0 s : State} (h0 : Keeps s0 s) (slot : Nat) :
    Keeps s0 (State.bootFrom s slot) := by
  unfold State.bootFrom
  repeat' first
    | with_reducible first
      | assumption | exact Keeps.refl _ | apply State.measureBoot_keeps | apply Keeps.ite | apply KeepsParts.same
    | dsimp only | simp only [keeps_mk] | split

theorem State.retestT1_keeps {s0 s : State} (h0 : Keeps s0 s) (lost : List (Nat × Nat)) :
    Keeps s0 (State.retestT1 s lost) := by
  unfold State.retestT1
  repeat' first
    | with_reducible first
      | assumption | exact Keeps.refl _ | refine Keeps.each ?_ _ _ (fun _ _ _ => ?_) | apply State.freeVal_keeps
      | apply State.loseT1_keeps | apply Keeps.ite | refine Keeps.of_snd (by assumption) ?_ | intro _
    | dsimp only | split

theorem State.kept_keeps {s0 s : State} (h0 : Keeps s0 s) :
    Keeps s0 (State.kept s) := by
  unfold State.kept
  repeat' first
    | with_reducible first
      | assumption | exact Keeps.refl _ | apply KeepsParts.same
    | exact KeepsParts.write h0 (fun _ => rfl) | dsimp only | simp only [keeps_mk] | split

theorem State.breakCommit_keeps {s0 s : State} (h0 : Keeps s0 s) :
    Keeps s0 (State.breakCommit s) := by
  unfold State.breakCommit
  repeat' first
    | with_reducible first
      | assumption | exact Keeps.refl _ | apply State.freeVal_keeps | apply State.blow_keeps | apply Keeps.ite
      | refine Keeps.of_snd (by assumption) ?_
    | dsimp only | split

theorem State.railsOff_keeps {s0 s : State} (h0 : Keeps s0 s) :
    Keeps s0 (State.railsOff s) := by
  unfold State.railsOff
  repeat' first
    | with_reducible first
      | assumption | exact Keeps.refl _ | apply State.pldmIf_keeps | apply State.kept_keeps | apply KeepsParts.same
    | dsimp only | simp only [keeps_mk] | split

theorem State.coldFrom_keeps {s0 s : State} (h0 : Keeps s0 s) (slot : Nat) :
    Keeps s0 (State.coldFrom s slot) := by
  unfold State.coldFrom
  repeat' first
    | with_reducible first
      | assumption | exact Keeps.refl _ | apply State.freeVal_keeps | apply State.raise_keeps
      | apply State.askWake_keeps | apply State.pldm_keeps | apply State.pldmIf_keeps | apply State.bootFrom_keeps
      | apply State.retestT1_keeps | apply State.kept_keeps | apply State.breakCommit_keeps | apply Keeps.ite
      | apply KeepsParts.same | refine Keeps.of_snd (by assumption) ?_
    | dsimp only | simp only [keeps_mk] | split

theorem State.coldBoot_keeps {s0 s : State} (h0 : Keeps s0 s) :
    Keeps s0 (State.coldBoot s) := by
  unfold State.coldBoot
  repeat' first
    | with_reducible first
      | assumption | exact Keeps.refl _ | apply State.coldFrom_keeps | apply Keeps.ite
    | dsimp only | split

theorem execColdReset_next (s : State) (value : Word) :
    ∃ t, execColdReset value s = .next t ∧ Keeps s t := by
  refine ⟨_, rfl, ?_⟩
  repeat' first
    | with_reducible first
      | assumption | exact Keeps.refl _ | apply State.coldBoot_keeps | apply Keeps.ite
    | dsimp only | split

theorem execBootFallback_next (s : State) :
    ∃ t, execBootFallback s = .next t ∧ Keeps s t := by
  refine ⟨_, rfl, ?_⟩
  repeat' first
    | with_reducible first
      | assumption | exact Keeps.refl _ | apply State.pldmIf_keeps | apply State.setPst_keeps
      | apply State.measureBoot_keeps | apply State.railsOff_keeps | apply Keeps.ite | apply KeepsParts.same
    | dsimp only | simp only [keeps_mk] | split

theorem State.resetPosts_keeps {s0 s : State} (h0 : Keeps s0 s) :
    Keeps s0 (State.resetPosts s) := by
  unfold State.resetPosts
  repeat' first
    | with_reducible first
      | assumption | exact Keeps.refl _ | refine Keeps.each ?_ _ _ (fun _ _ _ => ?_) | apply State.modPost_keeps
      | apply State.completePost_keeps | apply State.makeWrites_keeps | apply State.endUnadmitted_keeps
      | apply Keeps.ite | intro _
    | dsimp only | split

theorem State.resetAccepted_keeps {s0 s : State} (h0 : Keeps s0 s) :
    Keeps s0 (State.resetAccepted s) := by
  unfold State.resetAccepted
  repeat' first
    | with_reducible first
      | assumption | exact Keeps.refl _ | refine Keeps.each ?_ _ _ (fun _ _ _ => ?_) | apply State.finish_keeps
      | intro _
    | dsimp only | split

theorem State.resetJob_keeps {s0 s : State} (h0 : Keeps s0 s) :
    Keeps s0 (State.resetJob s) := by
  unfold State.resetJob
  repeat' first
    | with_reducible first
      | assumption | exact Keeps.refl _ | apply State.finish_keeps | apply State.jobDone_keeps | apply Keeps.ite
    | dsimp only | split

theorem State.resetDurable_keeps {s0 s : State} (h0 : Keeps s0 s) :
    Keeps s0 (State.resetDurable s) := by
  unfold State.resetDurable
  repeat' first
    | with_reducible first
      | assumption | exact Keeps.refl _ | apply State.finish_keeps | apply KeepsParts.same
    | dsimp only | simp only [keeps_mk] | split

theorem State.stopIngests_keeps {s0 s : State} (h0 : Keeps s0 s) (pick : Cmd → Bool) (st : Nat) :
    Keeps s0 (State.stopIngests s pick st) := by
  unfold State.stopIngests
  repeat' first
    | with_reducible first
      | assumption | exact Keeps.refl _ | refine Keeps.each ?_ _ _ (fun _ _ _ => ?_) | apply State.ingestEnd_keeps
      | apply State.zeroDst_keeps | apply Keeps.ite | intro _
    | dsimp only | split

theorem State.resetRing_keeps {s0 s : State} (h0 : Keeps s0 s) (n : Nat) :
    Keeps s0 (State.resetRing s n) := by
  unfold State.resetRing
  repeat' first
    | with_reducible first
      | assumption | exact Keeps.refl _ | apply State.setRing_keeps | apply State.arm_keeps
      | apply State.dropDesc_keeps | apply Keeps.ite
    | dsimp only | split

theorem State.resetLines_keeps {s0 s : State} (h0 : Keeps s0 s) (malformed : Bool) :
    Keeps s0 (State.resetLines s malformed) := by
  unfold State.resetLines
  repeat' first
    | with_reducible first
      | assumption | exact Keeps.refl _ | refine Keeps.each ?_ _ _ (fun _ _ _ => ?_) | apply State.modTile_keeps
      | apply State.reloadTile_keeps | apply Keeps.ite | intro _
    | dsimp only | split

theorem State.noteReset_keeps {s0 s : State} (h0 : Keeps s0 s) (cause : Nat) :
    Keeps s0 (State.noteReset s cause) := by
  unfold State.noteReset
  repeat' first
    | with_reducible first
      | assumption | exact Keeps.refl _ | apply State.count_keeps | apply State.causeAll_keeps | apply Keeps.ite
      | apply KeepsParts.same
    | dsimp only | simp only [keeps_mk] | split

theorem State.resetClocks_keeps {s0 s : State} (h0 : Keeps s0 s) :
    Keeps s0 (State.resetClocks s) := by
  unfold State.resetClocks
  repeat' first
    | with_reducible first
      | assumption | exact Keeps.refl _ | refine Keeps.foldl ?_ _ _ (fun _ _ _ => ?_)
      | refine Keeps.foldl_fst _ _ (fun _ _ _ => ?_) _ ?_ | refine Keeps.foldl_snd _ _ (fun _ _ _ => ?_) _ ?_
      | apply KeepsParts.same | refine Keeps.of_fst (by assumption) ?_ | refine Keeps.of_snd (by assumption) ?_
      | intro _
    | dsimp only | simp only [keeps_mk] | split

theorem State.resume_keeps {s0 s : State} (h0 : Keeps s0 s) :
    Keeps s0 (State.resume s) := by
  unfold State.resume
  repeat' first
    | with_reducible first
      | assumption | exact Keeps.refl _ | apply State.degradedNext_keeps | apply State.boundary_keeps
      | apply Keeps.ite | apply KeepsParts.same
    | dsimp only | simp only [keeps_mk] | split

theorem State.resetWrites_keeps {s0 s : State} (h0 : Keeps s0 s) :
    Keeps s0 (State.resetWrites s) := by
  unfold State.resetWrites
  repeat' first
    | with_reducible first
      | assumption | exact Keeps.refl _ | apply State.count_keeps | apply State.dropXfers_keeps
    | dsimp only | split

theorem State.resetWork_keeps {s0 s : State} (h0 : Keeps s0 s) (malformed : Bool) :
    Keeps s0 (State.resetWork s malformed) := by
  unfold State.resetWork
  repeat' first
    | with_reducible first
      | assumption | exact Keeps.refl _ | refine Keeps.each ?_ _ _ (fun _ _ _ => ?_)
      | apply State.freeOldVersion_keeps | apply State.abandonMoves_keeps | apply State.resetPosts_keeps
      | apply State.resetAccepted_keeps | apply State.resetJob_keeps | apply State.resetDurable_keeps
      | apply State.stopIngests_keeps | apply State.resetRing_keeps | apply State.resetLines_keeps
      | apply State.resetWrites_keeps | apply KeepsParts.same | intro _
    | dsimp only | simp only [keeps_mk] | split

theorem State.deviceReset_keeps {s0 s : State} (h0 : Keeps s0 s) (cause : Nat) :
    Keeps s0 (State.deviceReset s cause) := by
  unfold State.deviceReset
  repeat' first
    | with_reducible first
      | assumption | exact Keeps.refl _ | apply State.resendAll_keeps | apply State.noteReset_keeps
      | apply State.resetClocks_keeps | apply State.resume_keeps | apply State.resetWork_keeps | apply Keeps.ite
    | dsimp only | split

theorem execDevReset_next (s : State) (value : Word) :
    ∃ t, execDevReset value s = .next t ∧ Keeps s t := by
  refine ⟨_, rfl, ?_⟩
  repeat' first
    | with_reducible first
      | assumption | exact Keeps.refl _ | apply State.deviceReset_keeps | apply Keeps.ite
    | dsimp only | split

theorem State.watchdog_keeps {s0 s : State} (h0 : Keeps s0 s) (code : Nat) (fires : Bool) :
    Keeps s0 (State.watchdog s code fires) := by
  unfold State.watchdog
  repeat' first
    | with_reducible first
      | assumption | exact Keeps.refl _ | apply State.deviceReset_keeps | apply Keeps.ite
    | dsimp only | split

theorem execWatchdogTimeoutEnd_next (s : State) (post : Nat) :
    ∃ t, execWatchdogTimeoutEnd post s = .next t ∧ Keeps s t := by
  refine ⟨_, rfl, ?_⟩
  repeat' first
    | with_reducible first
      | assumption | exact Keeps.refl _ | apply State.watchdog_keeps
    | dsimp only | split

theorem execWatchdogContext_next (s : State) (tile : Nat) (ctx : Nat) :
    ∃ t, execWatchdogContext tile ctx s = .next t ∧ Keeps s t := by
  refine ⟨_, rfl, ?_⟩
  repeat' first
    | with_reducible first
      | assumption | exact Keeps.refl _ | apply State.watchdog_keeps
    | dsimp only | split

theorem execWatchdogGather_next (s : State) (tile : Nat) (post : Nat) :
    ∃ t, execWatchdogGather tile post s = .next t ∧ Keeps s t := by
  refine ⟨_, rfl, ?_⟩
  repeat' first
    | with_reducible first
      | assumption | exact Keeps.refl _ | apply State.watchdog_keeps
    | dsimp only | split

theorem execWatchdogAdmit_next (s : State) :
    ∃ t, execWatchdogAdmit s = .next t ∧ Keeps s t := by
  refine ⟨_, rfl, ?_⟩
  repeat' first
    | with_reducible first
      | assumption | exact Keeps.refl _ | apply State.watchdog_keeps | apply Keeps.ite
    | dsimp only | split

theorem execWatchdogMalformed_next (s : State) (tile : Nat) (ctx : Nat) :
    ∃ t, execWatchdogMalformed tile ctx s = .next t ∧ Keeps s t := by
  refine ⟨_, rfl, ?_⟩
  repeat' first
    | with_reducible first
      | assumption | exact Keeps.refl _ | apply State.watchdog_keeps
    | dsimp only | split

theorem execWatchdogFrontEnd_next (s : State) :
    ∃ t, execWatchdogFrontEnd s = .next t ∧ Keeps s t := by
  refine ⟨_, rfl, ?_⟩
  repeat' first
    | with_reducible first
      | assumption | exact Keeps.refl _ | apply State.watchdog_keeps
    | dsimp only | split

theorem execWatchdogCore_next (s : State) (core : Nat) :
    ∃ t, execWatchdogCore core s = .next t ∧ Keeps s t := by
  refine ⟨_, rfl, ?_⟩
  repeat' first
    | with_reducible first
      | assumption | exact Keeps.refl _ | apply State.watchdog_keeps
    | dsimp only | split

theorem execD2dRetrain_next (s : State) :
    ∃ t, execD2dRetrain s = .next t ∧ Keeps s t := by
  refine ⟨_, rfl, ?_⟩
  repeat' first
    | with_reducible first
      | assumption | exact Keeps.refl _ | apply State.count_keeps | apply State.deviceReset_keeps | apply Keeps.ite
      | apply KeepsParts.same
    | dsimp only | simp only [keeps_mk] | split

theorem State.partReset_keeps {s0 s : State} (h0 : Keeps s0 s) (p : Nat) :
    Keeps s0 (State.partReset s p) := by
  unfold State.partReset
  repeat' first
    | with_reducible first
      | assumption | exact Keeps.refl _ | refine Keeps.each ?_ _ _ (fun _ _ _ => ?_) | apply State.modPart_keeps
      | apply State.modPost_keeps | apply State.disableRing_keeps | apply State.endIdle_keeps
      | apply State.failPost_keeps | apply State.settle_keeps | apply State.stopIngests_keeps | apply Keeps.ite
      | intro _
    | dsimp only | split

theorem execPartReset_next (s : State) (value : Word) :
    ∃ t, execPartReset value s = .next t ∧ Keeps s t := by
  refine ⟨_, rfl, ?_⟩
  repeat' first
    | with_reducible first
      | assumption | exact Keeps.refl _ | refine Keeps.each ?_ _ _ (fun _ _ _ => ?_) | apply State.partReset_keeps
      | intro _
    | dsimp only | split

theorem execPartResetFinish_next (s : State) (part : Nat) :
    ∃ t, execPartResetFinish part s = .next t ∧ Keeps s t := by
  refine ⟨_, rfl, ?_⟩
  repeat' first
    | with_reducible first
      | assumption | exact Keeps.refl _ | refine Keeps.each ?_ _ _ (fun _ _ _ => ?_) | apply State.modPart_keeps
      | apply State.setSrc_keeps | apply State.endRing_keeps | apply Keeps.ite | intro _
    | dsimp only | split

theorem State.flushRecs_keeps {s0 s : State} (h0 : Keeps s0 s) :
    Keeps s0 (State.flushRecs s) := by
  unfold State.flushRecs
  repeat' first
    | with_reducible first
      | assumption | exact Keeps.refl _ | apply State.putRec_keeps | apply State.flushRows_keeps | apply Keeps.ite
      | apply KeepsParts.same
    | dsimp only | simp only [keeps_mk] | split

theorem State.withVault_keeps {s0 s : State} (h0 : Keeps s0 s) (v : Vault) :
    Keeps s0 (State.withVault s v) := by
  unfold State.withVault
  repeat' first
    | with_reducible first
      | assumption | exact Keeps.refl _ | apply State.setVault_keeps
    | dsimp only | split

theorem State.powerFail_keeps {s0 s : State} (h0 : Keeps s0 s) (cause : Nat) :
    Keeps s0 (State.powerFail s cause) := by
  unfold State.powerFail
  repeat' first
    | with_reducible first
      | assumption | exact Keeps.refl _ | refine Keeps.each ?_ _ _ (fun _ _ _ => ?_) | apply State.makeWrites_keeps
      | apply State.setPst_keeps | apply State.setFlush_keeps | apply State.breakCommit_keeps
      | apply State.railsOff_keeps | apply State.flushRecs_keeps | apply State.withVault_keeps | apply Keeps.ite
      | apply KeepsParts.same | intro _
    | dsimp only | simp only [keeps_mk] | split

theorem State.goOff_keeps {s0 s : State} (h0 : Keeps s0 s) :
    Keeps s0 (State.goOff s) := by
  unfold State.goOff
  repeat' first
    | with_reducible first
      | assumption | exact Keeps.refl _ | apply KeepsParts.same
    | dsimp only | simp only [keeps_mk] | split

theorem State.afterFlush_keeps {s0 s : State} (h0 : Keeps s0 s) :
    Keeps s0 (State.afterFlush s) := by
  unfold State.afterFlush
  repeat' first
    | with_reducible first
      | assumption | exact Keeps.refl _ | apply State.setPst_keeps | apply State.coldBoot_keeps | apply Keeps.ite
    | dsimp only | split

theorem execFlushEndDurable_next (s : State) :
    ∃ t, execFlushEndDurable s = .next t ∧ Keeps s t := by
  refine ⟨_, rfl, ?_⟩
  repeat' first
    | with_reducible first
      | assumption | exact Keeps.refl _ | apply State.allDurable_keeps | apply State.afterFlush_keeps
      | apply Keeps.ite | apply KeepsParts.same
    | dsimp only | simp only [keeps_mk] | split

theorem execBankDischarged_next (s : State) :
    ∃ t, execBankDischarged s = .next t ∧ Keeps s t := by
  refine ⟨_, rfl, ?_⟩
  repeat' first
    | with_reducible first
      | assumption | exact Keeps.refl _ | apply State.setVault_keeps | apply State.setPst_keeps
      | apply State.goOff_keeps | apply Keeps.ite
    | dsimp only | split

theorem execInputApplied_next (s : State) :
    ∃ t, execInputApplied s = .next t ∧ Keeps s t := by
  refine ⟨_, rfl, ?_⟩
  repeat' first
    | with_reducible first
      | assumption | exact Keeps.refl _ | apply Keeps.ite | apply KeepsParts.same
    | dsimp only | simp only [keeps_mk] | split

theorem execStandbyEntry_next (s : State) (feed : Nat) (addrSel : Nat) :
    ∃ t, execStandbyEntry feed addrSel s = .next t ∧ Keeps s t := by
  refine ⟨_, rfl, ?_⟩
  repeat' first
    | with_reducible first
      | assumption | exact Keeps.refl _ | apply State.setPst_keeps | apply State.coldBoot_keeps | apply Keeps.ite
      | apply KeepsParts.same | apply KeepsParts.burn | apply KeepsParts.strap
    | dsimp only | simp only [keeps_mk] | split

theorem execModResetLow_next (s : State) (us : Nat) :
    ∃ t, execModResetLow us s = .next t ∧ Keeps s t := by
  refine ⟨_, rfl, ?_⟩
  repeat' first
    | with_reducible first
      | assumption | exact Keeps.refl _ | apply State.setPst_keeps | apply State.railsOff_keeps
      | apply State.powerFail_keeps | apply Keeps.ite | apply KeepsParts.same
    | dsimp only | simp only [keeps_mk] | split

theorem execModResetRelease_next (s : State) :
    ∃ t, execModResetRelease s = .next t ∧ Keeps s t := by
  refine ⟨_, rfl, ?_⟩
  repeat' first
    | with_reducible first
      | assumption | exact Keeps.refl _ | apply State.coldBoot_keeps | apply Keeps.ite | apply KeepsParts.same
    | dsimp only | simp only [keeps_mk] | split

theorem State.hardTrip_keeps {s0 s : State} (h0 : Keeps s0 s) :
    Keeps s0 (State.hardTrip s) := by
  unfold State.hardTrip
  repeat' first
    | with_reducible first
      | assumption | exact Keeps.refl _ | apply State.setPst_keeps | apply State.setFlush_keeps
      | apply State.breakCommit_keeps | apply State.railsOff_keeps | apply Keeps.ite | apply KeepsParts.same
    | dsimp only | simp only [keeps_mk] | split

theorem execHardwareTrip_next (s : State) :
    ∃ t, execHardwareTrip s = .next t ∧ Keeps s t := by
  refine ⟨_, rfl, ?_⟩
  repeat' first
    | with_reducible first
      | assumption | exact Keeps.refl _ | apply State.hardTrip_keeps
    | dsimp only | split

theorem execSafeInputStable_next (s : State) :
    ∃ t, execSafeInputStable s = .next t ∧ Keeps s t := by
  refine ⟨_, rfl, ?_⟩
  repeat' first
    | with_reducible first
      | assumption | exact Keeps.refl _ | apply State.coldBoot_keeps | apply Keeps.ite
    | dsimp only | split

theorem execInputPowerSample_next (s : State) (vin : Nat) (iin : Nat) :
    ∃ t, execInputPowerSample vin iin s = .next t ∧ Keeps s t := by
  refine ⟨_, rfl, ?_⟩
  repeat' first
    | with_reducible first
      | assumption | exact Keeps.refl _ | apply State.pldmCross_keeps | apply State.powerFail_keeps
      | apply State.afterFlush_keeps | apply State.hardTrip_keeps | apply Keeps.ite | apply KeepsParts.same
    | dsimp only | simp only [keeps_mk] | split

theorem State.thermTrip_keeps {s0 s : State} (h0 : Keeps s0 s) :
    Keeps s0 (State.thermTrip s) := by
  unfold State.thermTrip
  repeat' first
    | with_reducible first
      | assumption | exact Keeps.refl _ | apply State.powerFail_keeps
    | dsimp only | split

theorem State.dramActs_keeps {s0 s : State} (h0 : Keeps s0 s) (g : Nat) (die : Nat) (old : Nat) :
    Keeps s0 (State.dramActs s g die old) := by
  unfold State.dramActs
  repeat' first
    | with_reducible first
      | assumption | exact Keeps.refl _ | apply State.causeAll_keeps | apply State.causeHolds_keeps
      | apply State.lower_keeps | apply State.thermTrip_keeps | apply Keeps.ite | apply KeepsParts.same
    | dsimp only | simp only [keeps_mk] | split

theorem execDramSensorReading_next (s : State) (group : Nat) (die : Nat) (temp : Nat) :
    ∃ t, execDramSensorReading group die temp s = .next t ∧ Keeps s t := by
  refine ⟨_, rfl, ?_⟩
  repeat' first
    | with_reducible first
      | assumption | exact Keeps.refl _ | apply State.pldmCross_keeps | apply State.dramActs_keeps | apply Keeps.ite
      | apply KeepsParts.same
    | dsimp only | simp only [keeps_mk] | split

theorem State.cdieActs_keeps {s0 s : State} (h0 : Keeps s0 s) (t : Nat) (temp : Nat) :
    Keeps s0 (State.cdieActs s t temp) := by
  unfold State.cdieActs
  repeat' first
    | with_reducible first
      | assumption | exact Keeps.refl _ | apply State.causeHolds_keeps | apply State.setHot_keeps
      | apply State.lower_keeps | apply State.hardTrip_keeps | apply State.thermTrip_keeps | apply Keeps.ite
    | dsimp only | split

theorem State.pdieActs_keeps {s0 s : State} (h0 : Keeps s0 s) (i : Nat) (temp : Nat) :
    Keeps s0 (State.pdieActs s i temp) := by
  unfold State.pdieActs
  repeat' first
    | with_reducible first
      | assumption | exact Keeps.refl _ | apply State.causeHolds_keeps | apply State.setHot_keeps
      | apply State.thermTrip_keeps | apply Keeps.ite
    | dsimp only | split

theorem State.regActs_keeps {s0 s : State} (h0 : Keeps s0 s) (i : Nat) (temp : Nat) :
    Keeps s0 (State.regActs s i temp) := by
  unfold State.regActs
  repeat' first
    | with_reducible first
      | assumption | exact Keeps.refl _ | apply State.causeHolds_keeps | apply State.setHot_keeps
      | apply State.thermTrip_keeps | apply Keeps.ite
    | dsimp only | split

theorem execJunctionSensorReading_next (s : State) (kind : Nat) (index : Nat) (temp : Nat) :
    ∃ t, execJunctionSensorReading kind index temp s = .next t ∧ Keeps s t := by
  refine ⟨_, rfl, ?_⟩
  repeat' first
    | with_reducible first
      | assumption | exact Keeps.refl _ | apply State.pldmCross_keeps | apply State.cdieActs_keeps
      | apply State.pdieActs_keeps | apply State.regActs_keeps | apply Keeps.ite | apply KeepsParts.same
    | dsimp only | simp only [keeps_mk] | split

theorem execCoolantSensorReading_next (s : State) (inlet : Nat) (outlet : Nat) (flow : Nat) :
    ∃ t, execCoolantSensorReading inlet outlet flow s = .next t ∧ Keeps s t := by
  refine ⟨_, rfl, ?_⟩
  repeat' first
    | with_reducible first
      | assumption | exact Keeps.refl _ | apply State.pldmCross_keeps | apply State.causeHolds_keeps
      | apply State.setHot_keeps | apply State.thermTrip_keeps | apply Keeps.ite | apply KeepsParts.same
    | dsimp only | simp only [keeps_mk] | split

theorem State.demandOf_keeps {s0 s : State} (h0 : Keeps s0 s) (temp : Nat) (lo : Nat) (span : Nat) :
    Keeps s0 (State.demandOf s temp lo span).2 := by
  unfold State.demandOf
  repeat' first
    | with_reducible first
      | assumption | exact Keeps.refl _ | apply State.freeVal_keeps | apply Keeps.ite
      | refine Keeps.of_snd (by assumption) ?_
    | dsimp only | split

theorem execCoolDemandUpdate_next (s : State) :
    ∃ t, execCoolDemandUpdate s = .next t ∧ Keeps s t := by
  refine ⟨_, rfl, ?_⟩
  repeat' first
    | with_reducible first
      | assumption | exact Keeps.refl _ | apply State.demandOf_keeps | apply Keeps.ite | apply KeepsParts.same
      | refine Keeps.of_snd (by assumption) ?_
    | dsimp only | simp only [keeps_mk] | split

theorem State.setBank_keeps {s0 s : State} (h0 : Keeps s0 s) (b : HoldUp) :
    Keeps s0 (State.setBank s b) := by
  unfold State.setBank
  repeat' first
    | with_reducible first
      | assumption | exact Keeps.refl _ | apply State.raise_keeps | apply State.pldm_keeps | apply Keeps.ite
      | apply KeepsParts.same
    | dsimp only | simp only [keeps_mk] | split

theorem execBankEstimate_next (s : State) (volts : Nat) (temp : Nat) :
    ∃ t, execBankEstimate volts temp s = .next t ∧ Keeps s t := by
  refine ⟨_, rfl, ?_⟩
  repeat' first
    | with_reducible first
      | assumption | exact Keeps.refl _ | apply State.freeVal_keeps | apply State.setBank_keeps | apply Keeps.ite
      | refine Keeps.of_snd (by assumption) ?_
    | dsimp only | split

theorem execBankChargeTimeout_next (s : State) :
    ∃ t, execBankChargeTimeout s = .next t ∧ Keeps s t := by
  refine ⟨_, rfl, ?_⟩
  repeat' first
    | with_reducible first
      | assumption | exact Keeps.refl _ | apply State.setBank_keeps | apply Keeps.ite
    | dsimp only | split

theorem State.startTest_keeps {s0 s : State} (h0 : Keeps s0 s) :
    Keeps s0 (State.startTest s) := by
  unfold State.startTest
  repeat' first
    | with_reducible first
      | assumption | exact Keeps.refl _ | apply Keeps.ite | apply KeepsParts.same
    | dsimp only | simp only [keeps_mk] | split

theorem execBankHealthTestTimer_next (s : State) :
    ∃ t, execBankHealthTestTimer s = .next t ∧ Keeps s t := by
  refine ⟨_, rfl, ?_⟩
  repeat' first
    | with_reducible first
      | assumption | exact Keeps.refl _ | apply State.startTest_keeps | apply Keeps.ite
    | dsimp only | split

theorem execBankTest_next (s : State) (value : Word) :
    ∃ t, execBankTest value s = .next t ∧ Keeps s t := by
  refine ⟨_, rfl, ?_⟩
  repeat' first
    | with_reducible first
      | assumption | exact Keeps.refl _ | apply State.startTest_keeps | apply Keeps.ite
    | dsimp only | split

theorem execBankHealthTestDone_next (s : State) (capMf : Nat) (esrMohm : Nat) :
    ∃ t, execBankHealthTestDone capMf esrMohm s = .next t ∧ Keeps s t := by
  refine ⟨_, rfl, ?_⟩
  repeat' first
    | with_reducible first
      | assumption | exact Keeps.refl _ | apply State.setBank_keeps | apply Keeps.ite
    | dsimp only | split

theorem execFlushClear_next (s : State) (value : Word) (cause : Nat) :
    ∃ t, execFlushClear value cause s = .next t ∧ Keeps s t := by
  refine ⟨_, rfl, ?_⟩
  repeat' first
    | with_reducible first
      | assumption | exact Keeps.refl _ | apply State.setFlush_keeps | apply State.powerFail_keeps
      | apply State.hardTrip_keeps | apply Keeps.ite
    | dsimp only | split

theorem State.tickClocks_keeps {s0 s : State} (h0 : Keeps s0 s) :
    Keeps s0 (State.tickClocks s) := by
  unfold State.tickClocks
  repeat' first
    | with_reducible first
      | assumption | exact Keeps.refl _ | refine Keeps.foldl ?_ _ _ (fun _ _ _ => ?_)
      | refine Keeps.foldl_fst _ _ (fun _ _ _ => ?_) _ ?_ | refine Keeps.foldl_snd _ _ (fun _ _ _ => ?_) _ ?_
      | apply Keeps.ite | apply KeepsParts.same | refine Keeps.of_fst (by assumption) ?_
      | refine Keeps.of_snd (by assumption) ?_ | intro _
    | dsimp only | simp only [keeps_mk] | split

theorem State.drift_keeps {s0 s : State} (h0 : Keeps s0 s) (id : Nat) (inst : Nat) (most : Nat) :
    Keeps s0 (State.drift s id inst most).2 := by
  unfold State.drift
  repeat' first
    | with_reducible first
      | assumption | exact Keeps.refl _ | apply State.count_keeps | apply State.freeVal_keeps | apply Keeps.ite
      | refine Keeps.of_snd (by assumption) ?_
    | dsimp only | split

theorem State.tickCdc_keeps {s0 s : State} (h0 : Keeps s0 s) :
    Keeps s0 (State.tickCdc s) := by
  unfold State.tickCdc
  repeat' first
    | with_reducible first
      | assumption | exact Keeps.refl _ | refine Keeps.foldl ?_ _ _ (fun _ _ _ => ?_)
      | refine Keeps.foldl_fst _ _ (fun _ _ _ => ?_) _ ?_ | refine Keeps.foldl_snd _ _ (fun _ _ _ => ?_) _ ?_
      | apply State.causeAll_keeps | apply State.drift_keeps | apply Keeps.ite
      | refine Keeps.of_fst (by assumption) ?_ | refine Keeps.of_snd (by assumption) ?_ | intro _
    | dsimp only | split

theorem State.tickTile_keeps {s0 s : State} (h0 : Keeps s0 s) (t : Nat) :
    Keeps s0 (State.tickTile s t) := by
  unfold State.tickTile
  repeat' first
    | with_reducible first
      | assumption | exact Keeps.refl _ | apply State.count_keeps | apply State.drainWb_keeps
      | apply State.drift_keeps | apply Keeps.ite | refine Keeps.of_snd (by assumption) ?_
    | dsimp only | split

theorem State.strikeLine_keeps {s0 s : State} (h0 : Keeps s0 s) (t : Nat) (l : Nat) :
    Keeps s0 (State.strikeLine s t l) := by
  unfold State.strikeLine
  repeat' first
    | with_reducible first
      | assumption | exact Keeps.refl _ | apply State.plogAdd_keeps | apply Keeps.ite | apply KeepsParts.same
      | refine KeepsParts.write ?_ (fun _ => ?_) | exact Memory.wf_empty | refine Memory.wf_writeN _ _ _ ?_
      | apply Memory.wf_writePart | apply Memory.wf_mark | apply Memory.wf_zero | apply Memory.wf_zeroBut
      | apply Memory.wf_writeSheets | refine Memory.wf_foldl _ _ (fun _ _ _ => ?_) _ ?_
    | dsimp only | simp only [keeps_mk] | split

theorem State.strikeT1_keeps {s0 s : State} (h0 : Keeps s0 s) (n : Nat) (alone : Bool) :
    Keeps s0 (State.strikeT1 s n alone) := by
  unfold State.strikeT1
  repeat' first
    | with_reducible first
      | assumption | exact Keeps.refl _ | apply State.count_keeps | apply State.poisonT1_keeps | apply Keeps.ite
    | dsimp only | split

theorem State.strikeVault_keeps {s0 s : State} (h0 : Keeps s0 s) (i : Nat) :
    Keeps s0 (State.strikeVault s i) := by
  unfold State.strikeVault
  repeat' first
    | with_reducible first
      | assumption | exact Keeps.refl _ | apply Keeps.ite | apply KeepsParts.same
    | dsimp only | simp only [keeps_mk] | split

theorem State.tickErrors_keeps {s0 s : State} (h0 : Keeps s0 s) :
    Keeps s0 (State.tickErrors s) := by
  unfold State.tickErrors
  repeat' first
    | with_reducible first
      | assumption | exact Keeps.refl _ | apply State.freeVal_keeps | apply State.strikeT0_keeps
      | apply State.strikeLine_keeps | apply State.strikeT1_keeps | apply State.strikeVault_keeps | apply Keeps.ite
      | refine Keeps.of_snd (by assumption) ?_
    | dsimp only | split

theorem State.tickRx_keeps {s0 s : State} (h0 : Keeps s0 s) :
    Keeps s0 (State.tickRx s) := by
  unfold State.tickRx
  repeat' first
    | with_reducible first
      | assumption | exact Keeps.refl _ | apply State.freeVal_keeps | apply KeepsParts.same
      | refine Keeps.of_snd (by assumption) ?_
    | dsimp only | simp only [keeps_mk] | split

theorem State.tickLink_keeps {s0 s : State} (h0 : Keeps s0 s) :
    Keeps s0 (State.tickLink s) := by
  unfold State.tickLink
  repeat' first
    | with_reducible first
      | assumption | exact Keeps.refl _ | apply State.freeVal_keeps | apply Keeps.ite | apply KeepsParts.same
      | refine Keeps.of_snd (by assumption) ?_
    | dsimp only | simp only [keeps_mk] | split

theorem State.tickDeny_keeps {s0 s : State} (h0 : Keeps s0 s) (cycles : Nat) :
    Keeps s0 (State.tickDeny s cycles) := by
  unfold State.tickDeny
  repeat' first
    | with_reducible first
      | assumption | exact Keeps.refl _ | apply State.drift_keeps | apply Keeps.ite
      | refine Keeps.of_snd (by assumption) ?_
    | dsimp only | split

theorem State.tickBeater_keeps {s0 s : State} (h0 : Keeps s0 s) (cycles : Nat) :
    Keeps s0 (State.tickBeater s cycles) := by
  unfold State.tickBeater
  repeat' first
    | with_reducible first
      | assumption | exact Keeps.refl _ | apply State.freeVal_keeps | apply State.drift_keeps | apply Keeps.ite
      | apply KeepsParts.same | refine Keeps.of_snd (by assumption) ?_
    | dsimp only | simp only [keeps_mk] | split

theorem State.tickMaint_keeps {s0 s : State} (h0 : Keeps s0 s) (cycles : Nat) :
    Keeps s0 (State.tickMaint s cycles) := by
  unfold State.tickMaint
  repeat' first
    | with_reducible first
      | assumption | exact Keeps.refl _ | apply State.freeVal_keeps | apply State.drift_keeps | apply Keeps.ite
      | refine Keeps.of_snd (by assumption) ?_
    | dsimp only | split

theorem State.tickCable_keeps {s0 s : State} (h0 : Keeps s0 s) :
    Keeps s0 (State.tickCable s) := by
  unfold State.tickCable
  repeat' first
    | with_reducible first
      | assumption | exact Keeps.refl _ | refine Keeps.each ?_ _ _ (fun _ _ _ => ?_) | apply State.freeVal_keeps
      | apply State.setPort_keeps | apply State.linkLost_keeps | apply Keeps.ite | apply KeepsParts.same
      | refine Keeps.of_snd (by assumption) ?_ | intro _
    | dsimp only | simp only [keeps_mk] | split

theorem State.startRound_keeps {s0 s : State} (h0 : Keeps s0 s) (t : Nat) :
    Keeps s0 (State.startRound s t) := by
  unfold State.startRound
  repeat' first
    | with_reducible first
      | assumption | exact Keeps.refl _ | apply State.count_keeps | apply State.freeVal_keeps
      | apply State.sliceFail_keeps | apply Keeps.ite | refine Keeps.of_snd (by assumption) ?_
    | dsimp only | split

theorem State.bootDone_keeps {s0 s : State} (h0 : Keeps s0 s) :
    Keeps s0 (State.bootDone s) := by
  unfold State.bootDone
  repeat' first
    | with_reducible first
      | assumption | exact Keeps.refl _ | refine Keeps.each ?_ _ _ (fun _ _ _ => ?_) | apply State.attachNow_keeps
      | apply State.setPst_keeps | apply State.startRound_keeps | apply Keeps.ite | apply KeepsParts.same | intro _
    | dsimp only | simp only [keeps_mk] | split

theorem State.tick_keeps {s0 s : State} (h0 : Keeps s0 s) :
    Keeps s0 (State.tick s) := by
  unfold State.tick
  repeat' first
    | with_reducible first
      | assumption | exact Keeps.refl _ | refine Keeps.each ?_ _ _ (fun _ _ _ => ?_) | apply State.tickClocks_keeps
      | apply State.tickCdc_keeps | apply State.tickTile_keeps | apply State.tickErrors_keeps
      | apply State.tickRx_keeps | apply State.tickLink_keeps | apply State.tickDeny_keeps
      | apply State.tickBeater_keeps | apply State.tickMaint_keeps | apply State.tickCable_keeps
      | apply State.bootDone_keeps | intro _
    | dsimp only | split

end Sys2Proof.Machine
end

