-- ==== Sys2Proof/Laws/KeepRegs.lean ====
section
/-! SUPPORT. `Keeps` for registers, translation walks, resumed tasks and ring timeouts:
the waiting commands, the fuses and the canonical form of memory stay. -/

namespace Sys2Proof.Machine
set_option linter.unusedTactic false
set_option linter.unreachableTactic false

theorem State.clearRead_keeps {s0 s : State} (h0 : Keeps s0 s) (a : Nat) :
    Keeps s0 (State.clearRead s a) := by
  unfold State.clearRead
  repeat' first
    | with_reducible first
      | assumption | exact Keeps.refl _ | apply Keeps.ite | apply KeepsParts.same
    | dsimp only | simp only [keeps_mk] | split

theorem State.answerWord_keeps {s0 s : State} (h0 : Keeps s0 s) (w : Word) :
    Keeps s0 (State.answerWord s w) := by
  unfold State.answerWord
  repeat' first
    | with_reducible first
      | assumption | exact Keeps.refl _ | apply KeepsParts.same
    | dsimp only | simp only [keeps_mk] | split

theorem State.busRead_keeps {s0 s : State} (h0 : Keeps s0 s) (a : Nat) :
    Keeps s0 (State.busRead s a) := by
  unfold State.busRead
  repeat' first
    | with_reducible first
      | assumption | exact Keeps.refl _ | apply State.readCntLo_keeps | apply State.clearRead_keeps
      | apply State.answerWord_keeps | apply Keeps.ite | apply KeepsParts.same
    | dsimp only | simp only [keeps_mk] | split

theorem State.read_keeps {s0 s : State} (h0 : Keeps s0 s) (a : Nat) :
    Keeps s0 (State.read s a) := by
  unfold State.read
  repeat' first
    | with_reducible first
      | assumption | exact Keeps.refl _ | apply Keeps.after | apply execBarBadAccess_next | apply State.busRead_keeps
      | apply Keeps.ite
    | dsimp only | split

theorem execLowWordRead_next (s : State) (addr : Nat) :
    ∃ t, execLowWordRead addr s = .next t ∧ Keeps s t := by
  refine ⟨_, rfl, ?_⟩
  repeat' first
    | with_reducible first
      | assumption | exact Keeps.refl _ | apply State.read_keeps
    | dsimp only | split

theorem execRcRead_next (s : State) (addr : Nat) :
    ∃ t, execRcRead addr s = .next t ∧ Keeps s t := by
  refine ⟨_, rfl, ?_⟩
  repeat' first
    | with_reducible first
      | assumption | exact Keeps.refl _ | apply State.read_keeps
    | dsimp only | split

theorem State.storeRw_keeps {s0 s : State} (h0 : Keeps s0 s) (a : Nat) (v : Word) :
    Keeps s0 (State.storeRw s a v) := by
  unfold State.storeRw
  repeat' first
    | with_reducible first
      | assumption | exact Keeps.refl _ | apply State.store_keeps | apply Keeps.ite
    | dsimp only | split

theorem State.lockStore_keeps {s0 s : State} (h0 : Keeps s0 s) (a : Nat) (v : Word) :
    Keeps s0 (State.lockStore s a v) := by
  unfold State.lockStore
  repeat' first
    | with_reducible first
      | assumption | exact Keeps.refl _ | apply State.store_keeps | apply Keeps.ite
    | dsimp only | split

theorem State.writeLock_keeps {s0 s : State} (h0 : Keeps s0 s) (a : Nat) (v : Word) :
    Keeps s0 (State.writeLock s a v) := by
  unfold State.writeLock
  repeat' first
    | with_reducible first
      | assumption | exact Keeps.refl _ | apply State.extend_keeps | apply State.lockStore_keeps | apply Keeps.ite
    | dsimp only | split

theorem execLock_next (s : State) (addr : Nat) (value : Word) :
    ∃ t, execLock addr value s = .next t ∧ Keeps s t := by
  refine ⟨_, rfl, ?_⟩
  repeat' first
    | with_reducible first
      | assumption | exact Keeps.refl _ | apply State.writeLock_keeps
    | dsimp only | split

theorem State.storeRwl_keeps {s0 s : State} (h0 : Keeps s0 s) (lock : Nat) (a : Nat) (mask : Word) (v : Word) :
    Keeps s0 (State.storeRwl s lock a mask v) := by
  unfold State.storeRwl
  repeat' first
    | with_reducible first
      | assumption | exact Keeps.refl _ | apply State.store_keeps | apply Keeps.ite
    | dsimp only | split

theorem State.writeOwner_keeps {s0 s : State} (h0 : Keeps s0 s) (i : Nat) (v : Word) :
    Keeps s0 (State.writeOwner s i v) := by
  unfold State.writeOwner
  repeat' first
    | with_reducible first
      | assumption | exact Keeps.refl _ | apply State.setSrc_keeps | apply State.store_keeps | apply Keeps.ite
    | dsimp only | split

theorem State.writeEvt_keeps {s0 s : State} (h0 : Keeps s0 s) (a : Nat) (v : Word) :
    Keeps s0 (State.writeEvt s a v) := by
  unfold State.writeEvt
  repeat' first
    | with_reducible first
      | assumption | exact Keeps.refl _ | apply Keeps.after | apply State.modPart_keeps | apply execEvtAck_next
      | apply State.storeRw_keeps | apply State.writeOwner_keeps | apply Keeps.ite
    | dsimp only | split

theorem State.writePort_keeps {s0 s : State} (h0 : Keeps s0 s) (n : Nat) (o : Nat) (v : Word) :
    Keeps s0 (State.writePort s n o v) := by
  unfold State.writePort
  repeat' first
    | with_reducible first
      | assumption | exact Keeps.refl _ | apply State.portOn_keeps | apply State.portOff_keeps
      | apply State.storeRwl_keeps | apply Keeps.ite
    | dsimp only | split

theorem State.writeQp_keeps {s0 s : State} (h0 : Keeps s0 s) (o : Nat) (v : Word) :
    Keeps s0 (State.writeQp s o v) := by
  unfold State.writeQp
  repeat' first
    | with_reducible first
      | assumption | exact Keeps.refl _ | apply State.modQp_keeps | apply Keeps.ite
    | dsimp only | split

theorem State.writeNet_keeps {s0 s : State} (h0 : Keeps s0 s) (a : Nat) (v : Word) :
    Keeps s0 (State.writeNet s a v) := by
  unfold State.writeNet
  repeat' first
    | with_reducible first
      | assumption | exact Keeps.refl _ | apply Keeps.after | apply State.ratesFree_keeps | apply execQpConnect_next
      | apply execQpReset_next | apply State.storeRw_keeps | apply State.writeLock_keeps | apply State.storeRwl_keeps
      | apply State.writePort_keeps | apply State.writeQp_keeps | apply Keeps.ite
    | dsimp only | split

theorem State.writePwr_keeps {s0 s : State} (h0 : Keeps s0 s) (a : Nat) (v : Word) :
    Keeps s0 (State.writePwr s a v) := by
  unfold State.writePwr
  repeat' first
    | with_reducible first
      | assumption | exact Keeps.refl _ | apply Keeps.after | apply execPwrCap_next | apply execSlew_next
      | apply execBankTest_next | apply execFlushClear_next | apply State.writeLock_keeps | apply Keeps.ite
    | dsimp only | split

theorem State.freeImage_keeps {s0 s : State} (h0 : Keeps s0 s) :
    Keeps s0 (State.freeImage s).2 := by
  unfold State.freeImage
  repeat' first
    | with_reducible first
      | assumption | exact Keeps.refl _ | apply State.freeVal_keeps | apply State.freeVals_keeps | apply Keeps.ite
      | refine Keeps.of_snd (by assumption) ?_
    | dsimp only | split

theorem State.writeMbxCmd_keeps {s0 s : State} (h0 : Keeps s0 s) (v : Word) :
    Keeps s0 (State.writeMbxCmd s v) := by
  unfold State.writeMbxCmd
  repeat' first
    | with_reducible first
      | assumption | exact Keeps.refl _ | apply Keeps.after | apply State.mbxEnd_keeps | apply execGetInfo_next
      | apply execGetCert_next | apply execGetLog_next | apply execQuote_next | apply execFwStage_next
      | apply execFwCommit_next | apply execFwAbandon_next | apply execPackInstall_next | apply State.freeImage_keeps
      | apply Keeps.ite | apply KeepsParts.same | refine Keeps.of_snd (by assumption) ?_
    | dsimp only | simp only [keeps_mk] | split

theorem State.writeSec_keeps {s0 s : State} (h0 : Keeps s0 s) (a : Nat) (v : Word) :
    Keeps s0 (State.writeSec s a v) := by
  unfold State.writeSec
  repeat' first
    | with_reducible first
      | assumption | exact Keeps.refl _ | apply State.storeRw_keeps | apply State.writeLock_keeps
      | apply State.writeMbxCmd_keeps | apply Keeps.ite | apply KeepsParts.same
    | dsimp only | simp only [keeps_mk] | split

theorem State.writeRel_keeps {s0 s : State} (h0 : Keeps s0 s) (a : Nat) (v : Word) :
    Keeps s0 (State.writeRel s a v) := by
  unfold State.writeRel
  repeat' first
    | with_reducible first
      | assumption | exact Keeps.refl _ | apply Keeps.after | apply State.setReg_keeps | apply execColdReset_next
      | apply execDevReset_next | apply execPartReset_next | apply State.storeRw_keeps | apply Keeps.ite
      | apply KeepsParts.same
    | dsimp only | simp only [keeps_mk] | split

theorem State.writeDbg_keeps {s0 s : State} (h0 : Keeps s0 s) (a : Nat) (v : Word) :
    Keeps s0 (State.writeDbg s a v) := by
  unfold State.writeDbg
  repeat' first
    | with_reducible first
      | assumption | exact Keeps.refl _ | apply Keeps.after | apply execDbgEnter_next | apply execDbgLeave_next
      | apply execDbgRun_next | apply execDbgHalt_next | apply execDbgStreamKeySet_next
      | apply execDbgInterleaveKeySet_next | apply execDbgPeekRead_next | apply execDbgPeekWrite_next
      | apply State.storeRw_keeps | apply Keeps.ite | apply KeepsParts.same
    | dsimp only | simp only [keeps_mk] | split

theorem State.sendAllPending_keeps {s0 s : State} (h0 : Keeps s0 s) :
    Keeps s0 (State.sendAllPending s) := by
  unfold State.sendAllPending
  repeat' first
    | with_reducible first
      | assumption | exact Keeps.refl _ | refine Keeps.each ?_ _ _ (fun _ _ _ => ?_) | apply State.sendPending_keeps
      | intro _
    | dsimp only | split

theorem State.writeCfg_keeps {s0 s : State} (h0 : Keeps s0 s) (a : Nat) (v : Word) :
    Keeps s0 (State.writeCfg s a v) := by
  unfold State.writeCfg
  repeat' first
    | with_reducible first
      | assumption | exact Keeps.refl _ | apply Keeps.after | apply execHostPortReset_next | apply Keeps.ite
      | apply KeepsParts.same
    | dsimp only | simp only [keeps_mk] | split

theorem State.writeBar2_keeps {s0 s : State} (h0 : Keeps s0 s) (a : Nat) (v : Word) :
    Keeps s0 (State.writeBar2 s a v) := by
  unfold State.writeBar2
  repeat' first
    | with_reducible first
      | assumption | exact Keeps.refl _ | apply State.sendPending_keeps | apply State.sendAllPending_keeps
      | apply State.writeCfg_keeps | apply Keeps.ite | apply KeepsParts.same
    | dsimp only | simp only [keeps_mk] | split

theorem State.busWrite_keeps {s0 s : State} (h0 : Keeps s0 s) (a : Nat) (v : Word) :
    Keeps s0 (State.busWrite s a v) := by
  unfold State.busWrite
  repeat' first
    | with_reducible first
      | assumption | exact Keeps.refl _ | apply Keeps.after | apply State.ringEnableBit_keeps | apply execAttach_next
      | apply execTrigger_next | apply State.cntSelect_keeps | apply execMigCtrlEnableClear_next
      | apply State.storeRw_keeps | apply State.writeEvt_keeps | apply State.writeNet_keeps
      | apply State.writePwr_keeps | apply State.writeSec_keeps | apply State.writeRel_keeps
      | apply State.writeDbg_keeps | apply State.writeBar2_keeps | apply Keeps.ite | apply KeepsParts.same
    | dsimp only | simp only [keeps_mk] | split

theorem execRegisterWrite_next (s : State) (addr : Nat) (value : Word) :
    ∃ t, execRegisterWrite addr value s = .next t ∧ Keeps s t := by
  refine ⟨_, rfl, ?_⟩
  repeat' first
    | with_reducible first
      | assumption | exact Keeps.refl _ | apply Keeps.after | apply execBarBadAccess_next | apply State.busWrite_keeps
      | apply Keeps.ite
    | dsimp only | split

theorem State.rerun_keeps {s0 s : State} (h0 : Keeps s0 s) (ring : Nat) (seq : Nat) (data : Rd) :
    Keeps s0 (State.rerun s ring seq data) := by
  unfold State.rerun
  repeat' first
    | with_reducible first
      | assumption | exact Keeps.refl _ | apply Keeps.after | apply execRingSetup_next | apply execCheckpoint_next
      | apply execReamLoad_next | apply execReamPatch_next | apply execPost_next | apply execKeyInstall_next
      | apply execKeyQuery_next | apply execShingleProfile_next | apply execIngest_next | apply Keeps.ite
    | dsimp only | split

theorem State.walkPoison_keeps {s0 s : State} (h0 : Keeps s0 s) (k : Nat) (c : Cmd) (g : Nat) (page : Nat) :
    Keeps s0 (State.walkPoison s k c g page) := by
  unfold State.walkPoison
  repeat' first
    | with_reducible first
      | assumption | exact Keeps.refl _ | apply State.poisonT1_keeps | apply State.faultPark_keeps
      | apply State.poisonMapSheet_keeps | apply Keeps.ite
    | dsimp only | split

theorem State.walkEnd_keeps {s0 s : State} (h0 : Keeps s0 s) (k : Nat) (ring : Nat) (seq : Nat) (c : Cmd)
    (mapPoison : Bool) (data : Rd) :
    Keeps s0 (State.walkEnd s k ring seq c mapPoison data) := by
  unfold State.walkEnd
  repeat' first
    | with_reducible first
      | assumption | exact Keeps.refl _ | apply State.walkFill_keeps | apply State.rerun_keeps
      | apply State.walkPoison_keeps | apply Keeps.ite
    | dsimp only | split

theorem execTranslationWalkDone_next (s : State) (ring : Nat) (seq : Nat) (mapPoison : Bool) (dir : Rd) :
    ∃ t, execTranslationWalkDone ring seq mapPoison dir s = .next t ∧ Keeps s t := by
  refine ⟨_, rfl, ?_⟩
  repeat' first
    | with_reducible first
      | assumption | exact Keeps.refl _ | apply State.walkEnd_keeps | apply Keeps.ite
    | dsimp only | split

theorem State.resumeTask_keeps {s0 s : State} (h0 : Keeps s0 s) (dirs : List (Nat × Rd)) (k : Nat) :
    Keeps s0 (State.resumeTask s dirs k) := by
  unfold State.resumeTask
  repeat' first
    | with_reducible first
      | assumption | exact Keeps.refl _ | apply State.freeTaskOf_keeps | apply State.recheck_keeps
      | apply State.rerun_keeps | apply Keeps.ite
    | dsimp only | split

theorem execFaultResumeResume_next (s : State) (ring : Nat) (seq : Nat) (dirs : List (Nat × Rd)) :
    ∃ t, execFaultResumeResume ring seq dirs s = .next t ∧ Keeps s t := by
  refine ⟨_, rfl, ?_⟩
  repeat' first
    | with_reducible first
      | assumption | exact Keeps.refl _ | refine Keeps.each ?_ _ _ (fun _ _ _ => ?_) | apply State.finish_keeps
      | apply State.front_keeps | apply State.recheckHeld_keeps | apply State.resumeTask_keeps | apply Keeps.ite
      | intro _
    | dsimp only | split

theorem execSegmentDrainDone_next (s : State) (part : Nat) (seg : Nat) :
    ∃ t, execSegmentDrainDone part seg s = .next t ∧ Keeps s t := by
  refine ⟨_, rfl, ?_⟩
  repeat' first
    | with_reducible first
      | assumption | exact Keeps.refl _ | refine Keeps.each ?_ _ _ (fun _ _ _ => ?_) | apply State.finish_keeps
      | apply State.snoop_keeps | apply State.dropPages_keeps | apply State.removeSeg_keeps
      | apply State.recheckOn_keeps | apply Keeps.ite | apply KeepsParts.same | intro _
    | dsimp only | simp only [keeps_mk] | split

theorem State.timeoutCmd_keeps {s0 s : State} (h0 : Keeps s0 s) (k : Nat) (c : Cmd) :
    Keeps s0 (State.timeoutCmd s k c) := by
  unfold State.timeoutCmd
  repeat' first
    | with_reducible first
      | assumption | exact Keeps.refl _ | apply State.modPost_keeps | apply State.causeTo_keeps
      | apply State.endIdle_keeps | apply State.failPost_keeps | apply State.settle_keeps
      | apply State.ingestEnd_keeps | apply State.zeroDst_keeps | apply Keeps.ite
    | dsimp only | split

theorem execRingTimeout_next (s : State) (ring : Nat) (seq : Nat) :
    ∃ t, execRingTimeout ring seq s = .next t ∧ Keeps s t := by
  refine ⟨_, rfl, ?_⟩
  repeat' first
    | with_reducible first
      | assumption | exact Keeps.refl _ | apply State.setCmd_keeps | apply State.count_keeps
      | apply State.timeoutCmd_keeps | apply Keeps.ite
    | dsimp only | split

end Sys2Proof.Machine
end

