-- ==== Sys2Proof/Laws/Same.lean ====
section
/-! SUPPORT. Frames: which parts of the state an operation leaves alone. Each operation has one lemma, which asks
only that the mask names none of the parts the operation may write. -/

namespace Sys2Proof.Machine
set_option linter.unusedTactic false
set_option linter.unreachableTactic false

/-- The same of a state given by its parts. -/
structure SameParts (msk : Field → Bool) (s : State)
    (v_pending : List Instr) (v_free : Nat) (v_fuse : Fuse) (v_bus : Bus)
    (v_mem : Memory) (v_clk : FMap Nat) (v_ctr : FMap DWord) (v_tel : Tel)
    (v_regs : FMap Word) (v_parts : FMap Part) (v_fe : Front) (v_io : Io)
    (v_hp : HostPort) (v_evt : Evt) (v_dbg : Dbg) (v_ream : Ream)
    (v_posts : FMap Post) (v_net : Net) (v_slots : FMap Slot) (v_tiles : FMap Tile)
    (v_felt : List Flight) (v_tiers : Tiers) (v_gat : Gather) (v_pwr : Pwr)
    (v_mgmt : Mgmt) (v_rel : Rel) (v_ingests : FMap Ingest) (v_sec : Sec) : Prop where
  pending : msk .pending = true → v_pending = s.pending
  free : msk .free = true → v_free = s.free
  fuse : msk .fuse = true → v_fuse = s.fuse
  bus : msk .bus = true → v_bus = s.bus
  mem : msk .mem = true → v_mem = s.mem
  clk : msk .clk = true → v_clk = s.clk
  ctr : msk .ctr = true → v_ctr = s.ctr
  tel : msk .tel = true → v_tel = s.tel
  regs : msk .regs = true → v_regs = s.regs
  parts : msk .parts = true → v_parts = s.parts
  fe : msk .fe = true → v_fe = s.fe
  io : msk .io = true → v_io = s.io
  hp : msk .hp = true → v_hp = s.hp
  evt : msk .evt = true → v_evt = s.evt
  dbg : msk .dbg = true → v_dbg = s.dbg
  ream : msk .ream = true → v_ream = s.ream
  posts : msk .posts = true → v_posts = s.posts
  net : msk .net = true → v_net = s.net
  slots : msk .slots = true → v_slots = s.slots
  tiles : msk .tiles = true → v_tiles = s.tiles
  felt : msk .felt = true → v_felt = s.felt
  tiers : msk .tiers = true → v_tiers = s.tiers
  gat : msk .gat = true → v_gat = s.gat
  pwr : msk .pwr = true → v_pwr = s.pwr
  mgmt : msk .mgmt = true → v_mgmt = s.mgmt
  rel : msk .rel = true → v_rel = s.rel
  ingests : msk .ingests = true → v_ingests = s.ingests
  sec : msk .sec = true → v_sec = s.sec

theorem Same.refl (msk : Field → Bool) (s : State) : Same msk s s := by constructor <;> exact fun _ => rfl

theorem Same.trans {msk : Field → Bool} {a b c : State} (h : Same msk a b) (k : Same msk b c) : Same msk a c := by
  constructor
  · exact fun e => (k.pending e).trans (h.pending e)
  · exact fun e => (k.free e).trans (h.free e)
  · exact fun e => (k.fuse e).trans (h.fuse e)
  · exact fun e => (k.bus e).trans (h.bus e)
  · exact fun e => (k.mem e).trans (h.mem e)
  · exact fun e => (k.clk e).trans (h.clk e)
  · exact fun e => (k.ctr e).trans (h.ctr e)
  · exact fun e => (k.tel e).trans (h.tel e)
  · exact fun e => (k.regs e).trans (h.regs e)
  · exact fun e => (k.parts e).trans (h.parts e)
  · exact fun e => (k.fe e).trans (h.fe e)
  · exact fun e => (k.io e).trans (h.io e)
  · exact fun e => (k.hp e).trans (h.hp e)
  · exact fun e => (k.evt e).trans (h.evt e)
  · exact fun e => (k.dbg e).trans (h.dbg e)
  · exact fun e => (k.ream e).trans (h.ream e)
  · exact fun e => (k.posts e).trans (h.posts e)
  · exact fun e => (k.net e).trans (h.net e)
  · exact fun e => (k.slots e).trans (h.slots e)
  · exact fun e => (k.tiles e).trans (h.tiles e)
  · exact fun e => (k.felt e).trans (h.felt e)
  · exact fun e => (k.tiers e).trans (h.tiers e)
  · exact fun e => (k.gat e).trans (h.gat e)
  · exact fun e => (k.pwr e).trans (h.pwr e)
  · exact fun e => (k.mgmt e).trans (h.mgmt e)
  · exact fun e => (k.rel e).trans (h.rel e)
  · exact fun e => (k.ingests e).trans (h.ingests e)
  · exact fun e => (k.sec e).trans (h.sec e)

theorem same_mk {msk : Field → Bool} {s : State}
    {v_pending v_free v_fuse v_bus v_mem v_clk v_ctr v_tel v_regs v_parts v_fe v_io v_hp v_evt v_dbg v_ream
    v_posts v_net v_slots v_tiles v_felt v_tiers v_gat v_pwr v_mgmt v_rel v_ingests v_sec}
:
    Same msk s (State.mk
    v_pending v_free v_fuse v_bus v_mem v_clk v_ctr v_tel v_regs v_parts v_fe v_io v_hp v_evt v_dbg v_ream
    v_posts v_net v_slots v_tiles v_felt v_tiers v_gat v_pwr v_mgmt v_rel v_ingests v_sec) ↔
    SameParts msk s
    v_pending v_free v_fuse v_bus v_mem v_clk v_ctr v_tel v_regs v_parts v_fe v_io v_hp v_evt v_dbg v_ream
    v_posts v_net v_slots v_tiles v_felt v_tiers v_gat v_pwr v_mgmt v_rel v_ingests v_sec :=
  ⟨fun h => ⟨h.pending, h.free, h.fuse, h.bus, h.mem, h.clk, h.ctr, h.tel, h.regs, h.parts, h.fe, h.io, h.hp, h.evt,
    h.dbg, h.ream, h.posts, h.net, h.slots, h.tiles, h.felt, h.tiers, h.gat, h.pwr, h.mgmt, h.rel, h.ingests, h.sec⟩,
   fun h => ⟨h.pending, h.free, h.fuse, h.bus, h.mem, h.clk, h.ctr, h.tel, h.regs, h.parts, h.fe, h.io, h.hp, h.evt,
    h.dbg, h.ream, h.posts, h.net, h.slots, h.tiles, h.felt, h.tiers, h.gat, h.pwr, h.mgmt, h.rel, h.ingests, h.sec⟩⟩

theorem off {b : Bool} {p : Prop} (h : b = false) (e : b = true) : p := absurd (h.symm.trans e) (by decide)

/-- An update that leaves every part alone. -/
theorem SameParts.same {msk : Field → Bool} {s0 s : State} (h : Same msk s0 s) :
    SameParts msk s0
    s.pending s.free s.fuse s.bus s.mem s.clk s.ctr s.tel s.regs s.parts s.fe s.io s.hp s.evt s.dbg s.ream
    s.posts s.net s.slots s.tiles s.felt s.tiers s.gat s.pwr s.mgmt s.rel s.ingests s.sec :=
    ⟨h.pending, h.free, h.fuse, h.bus, h.mem, h.clk, h.ctr, h.tel, h.regs, h.parts, h.fe, h.io, h.hp, h.evt,
    h.dbg, h.ream, h.posts, h.net, h.slots, h.tiles, h.felt, h.tiers, h.gat, h.pwr, h.mgmt, h.rel, h.ingests,
    h.sec⟩

theorem SameParts.upd_bus {msk : Field → Bool} {s0 s : State} (h : Same msk s0 s) {v_bus} (w_bus : msk .bus = false) :
    SameParts msk s0
    s.pending s.free s.fuse v_bus s.mem s.clk s.ctr s.tel s.regs s.parts s.fe s.io s.hp s.evt s.dbg s.ream s.posts
    s.net s.slots s.tiles s.felt s.tiers s.gat s.pwr s.mgmt s.rel s.ingests s.sec :=
    ⟨h.pending, h.free, h.fuse, off w_bus, h.mem, h.clk, h.ctr, h.tel, h.regs, h.parts, h.fe, h.io, h.hp, h.evt,
    h.dbg, h.ream, h.posts, h.net, h.slots, h.tiles, h.felt, h.tiers, h.gat, h.pwr, h.mgmt, h.rel, h.ingests, h.sec⟩

theorem SameParts.upd_ctr {msk : Field → Bool} {s0 s : State} (h : Same msk s0 s) {v_ctr} (w_ctr : msk .ctr = false) :
    SameParts msk s0
    s.pending s.free s.fuse s.bus s.mem s.clk v_ctr s.tel s.regs s.parts s.fe s.io s.hp s.evt s.dbg s.ream s.posts
    s.net s.slots s.tiles s.felt s.tiers s.gat s.pwr s.mgmt s.rel s.ingests s.sec :=
    ⟨h.pending, h.free, h.fuse, h.bus, h.mem, h.clk, off w_ctr, h.tel, h.regs, h.parts, h.fe, h.io, h.hp, h.evt,
    h.dbg, h.ream, h.posts, h.net, h.slots, h.tiles, h.felt, h.tiers, h.gat, h.pwr, h.mgmt, h.rel, h.ingests, h.sec⟩

theorem SameParts.upd_dbg {msk : Field → Bool} {s0 s : State} (h : Same msk s0 s) {v_dbg} (w_dbg : msk .dbg = false) :
    SameParts msk s0
    s.pending s.free s.fuse s.bus s.mem s.clk s.ctr s.tel s.regs s.parts s.fe s.io s.hp s.evt v_dbg s.ream s.posts
    s.net s.slots s.tiles s.felt s.tiers s.gat s.pwr s.mgmt s.rel s.ingests s.sec :=
    ⟨h.pending, h.free, h.fuse, h.bus, h.mem, h.clk, h.ctr, h.tel, h.regs, h.parts, h.fe, h.io, h.hp, h.evt,
    off w_dbg, h.ream, h.posts, h.net, h.slots, h.tiles, h.felt, h.tiers, h.gat, h.pwr, h.mgmt, h.rel, h.ingests,
    h.sec⟩

theorem SameParts.upd_evt {msk : Field → Bool} {s0 s : State} (h : Same msk s0 s) {v_evt} (w_evt : msk .evt = false) :
    SameParts msk s0
    s.pending s.free s.fuse s.bus s.mem s.clk s.ctr s.tel s.regs s.parts s.fe s.io s.hp v_evt s.dbg s.ream s.posts
    s.net s.slots s.tiles s.felt s.tiers s.gat s.pwr s.mgmt s.rel s.ingests s.sec :=
    ⟨h.pending, h.free, h.fuse, h.bus, h.mem, h.clk, h.ctr, h.tel, h.regs, h.parts, h.fe, h.io, h.hp, off w_evt,
    h.dbg, h.ream, h.posts, h.net, h.slots, h.tiles, h.felt, h.tiers, h.gat, h.pwr, h.mgmt, h.rel, h.ingests, h.sec⟩

theorem SameParts.upd_fe {msk : Field → Bool} {s0 s : State} (h : Same msk s0 s) {v_fe} (w_fe : msk .fe = false) :
    SameParts msk s0
    s.pending s.free s.fuse s.bus s.mem s.clk s.ctr s.tel s.regs s.parts v_fe s.io s.hp s.evt s.dbg s.ream s.posts
    s.net s.slots s.tiles s.felt s.tiers s.gat s.pwr s.mgmt s.rel s.ingests s.sec :=
    ⟨h.pending, h.free, h.fuse, h.bus, h.mem, h.clk, h.ctr, h.tel, h.regs, h.parts, off w_fe, h.io, h.hp, h.evt,
    h.dbg, h.ream, h.posts, h.net, h.slots, h.tiles, h.felt, h.tiers, h.gat, h.pwr, h.mgmt, h.rel, h.ingests, h.sec⟩

theorem SameParts.upd_felt {msk : Field → Bool} {s0 s : State} (h : Same msk s0 s) {v_felt}
    (w_felt : msk .felt = false) :
    SameParts msk s0
    s.pending s.free s.fuse s.bus s.mem s.clk s.ctr s.tel s.regs s.parts s.fe s.io s.hp s.evt s.dbg s.ream s.posts
    s.net s.slots s.tiles v_felt s.tiers s.gat s.pwr s.mgmt s.rel s.ingests s.sec :=
    ⟨h.pending, h.free, h.fuse, h.bus, h.mem, h.clk, h.ctr, h.tel, h.regs, h.parts, h.fe, h.io, h.hp, h.evt, h.dbg,
    h.ream, h.posts, h.net, h.slots, h.tiles, off w_felt, h.tiers, h.gat, h.pwr, h.mgmt, h.rel, h.ingests, h.sec⟩

theorem SameParts.upd_free {msk : Field → Bool} {s0 s : State} (h : Same msk s0 s) {v_free}
    (w_free : msk .free = false) :
    SameParts msk s0
    s.pending v_free s.fuse s.bus s.mem s.clk s.ctr s.tel s.regs s.parts s.fe s.io s.hp s.evt s.dbg s.ream s.posts
    s.net s.slots s.tiles s.felt s.tiers s.gat s.pwr s.mgmt s.rel s.ingests s.sec :=
    ⟨h.pending, off w_free, h.fuse, h.bus, h.mem, h.clk, h.ctr, h.tel, h.regs, h.parts, h.fe, h.io, h.hp, h.evt,
    h.dbg, h.ream, h.posts, h.net, h.slots, h.tiles, h.felt, h.tiers, h.gat, h.pwr, h.mgmt, h.rel, h.ingests, h.sec⟩

theorem SameParts.upd_fuse {msk : Field → Bool} {s0 s : State} (h : Same msk s0 s) {v_fuse}
    (w_fuse : msk .fuse = false) :
    SameParts msk s0
    s.pending s.free v_fuse s.bus s.mem s.clk s.ctr s.tel s.regs s.parts s.fe s.io s.hp s.evt s.dbg s.ream s.posts
    s.net s.slots s.tiles s.felt s.tiers s.gat s.pwr s.mgmt s.rel s.ingests s.sec :=
    ⟨h.pending, h.free, off w_fuse, h.bus, h.mem, h.clk, h.ctr, h.tel, h.regs, h.parts, h.fe, h.io, h.hp, h.evt,
    h.dbg, h.ream, h.posts, h.net, h.slots, h.tiles, h.felt, h.tiers, h.gat, h.pwr, h.mgmt, h.rel, h.ingests, h.sec⟩

theorem SameParts.upd_gat {msk : Field → Bool} {s0 s : State} (h : Same msk s0 s) {v_gat} (w_gat : msk .gat = false) :
    SameParts msk s0
    s.pending s.free s.fuse s.bus s.mem s.clk s.ctr s.tel s.regs s.parts s.fe s.io s.hp s.evt s.dbg s.ream s.posts
    s.net s.slots s.tiles s.felt s.tiers v_gat s.pwr s.mgmt s.rel s.ingests s.sec :=
    ⟨h.pending, h.free, h.fuse, h.bus, h.mem, h.clk, h.ctr, h.tel, h.regs, h.parts, h.fe, h.io, h.hp, h.evt, h.dbg,
    h.ream, h.posts, h.net, h.slots, h.tiles, h.felt, h.tiers, off w_gat, h.pwr, h.mgmt, h.rel, h.ingests, h.sec⟩

theorem SameParts.upd_hp {msk : Field → Bool} {s0 s : State} (h : Same msk s0 s) {v_hp} (w_hp : msk .hp = false) :
    SameParts msk s0
    s.pending s.free s.fuse s.bus s.mem s.clk s.ctr s.tel s.regs s.parts s.fe s.io v_hp s.evt s.dbg s.ream s.posts
    s.net s.slots s.tiles s.felt s.tiers s.gat s.pwr s.mgmt s.rel s.ingests s.sec :=
    ⟨h.pending, h.free, h.fuse, h.bus, h.mem, h.clk, h.ctr, h.tel, h.regs, h.parts, h.fe, h.io, off w_hp, h.evt,
    h.dbg, h.ream, h.posts, h.net, h.slots, h.tiles, h.felt, h.tiers, h.gat, h.pwr, h.mgmt, h.rel, h.ingests, h.sec⟩

theorem SameParts.upd_ingests {msk : Field → Bool} {s0 s : State} (h : Same msk s0 s) {v_ingests}
    (w_ingests : msk .ingests = false) :
    SameParts msk s0
    s.pending s.free s.fuse s.bus s.mem s.clk s.ctr s.tel s.regs s.parts s.fe s.io s.hp s.evt s.dbg s.ream s.posts
    s.net s.slots s.tiles s.felt s.tiers s.gat s.pwr s.mgmt s.rel v_ingests s.sec :=
    ⟨h.pending, h.free, h.fuse, h.bus, h.mem, h.clk, h.ctr, h.tel, h.regs, h.parts, h.fe, h.io, h.hp, h.evt, h.dbg,
    h.ream, h.posts, h.net, h.slots, h.tiles, h.felt, h.tiers, h.gat, h.pwr, h.mgmt, h.rel, off w_ingests, h.sec⟩

theorem SameParts.upd_io {msk : Field → Bool} {s0 s : State} (h : Same msk s0 s) {v_io} (w_io : msk .io = false) :
    SameParts msk s0
    s.pending s.free s.fuse s.bus s.mem s.clk s.ctr s.tel s.regs s.parts s.fe v_io s.hp s.evt s.dbg s.ream s.posts
    s.net s.slots s.tiles s.felt s.tiers s.gat s.pwr s.mgmt s.rel s.ingests s.sec :=
    ⟨h.pending, h.free, h.fuse, h.bus, h.mem, h.clk, h.ctr, h.tel, h.regs, h.parts, h.fe, off w_io, h.hp, h.evt,
    h.dbg, h.ream, h.posts, h.net, h.slots, h.tiles, h.felt, h.tiers, h.gat, h.pwr, h.mgmt, h.rel, h.ingests, h.sec⟩

theorem SameParts.upd_mem {msk : Field → Bool} {s0 s : State} (h : Same msk s0 s) {v_mem} (w_mem : msk .mem = false) :
    SameParts msk s0
    s.pending s.free s.fuse s.bus v_mem s.clk s.ctr s.tel s.regs s.parts s.fe s.io s.hp s.evt s.dbg s.ream s.posts
    s.net s.slots s.tiles s.felt s.tiers s.gat s.pwr s.mgmt s.rel s.ingests s.sec :=
    ⟨h.pending, h.free, h.fuse, h.bus, off w_mem, h.clk, h.ctr, h.tel, h.regs, h.parts, h.fe, h.io, h.hp, h.evt,
    h.dbg, h.ream, h.posts, h.net, h.slots, h.tiles, h.felt, h.tiers, h.gat, h.pwr, h.mgmt, h.rel, h.ingests, h.sec⟩

theorem SameParts.upd_mgmt {msk : Field → Bool} {s0 s : State} (h : Same msk s0 s) {v_mgmt}
    (w_mgmt : msk .mgmt = false) :
    SameParts msk s0
    s.pending s.free s.fuse s.bus s.mem s.clk s.ctr s.tel s.regs s.parts s.fe s.io s.hp s.evt s.dbg s.ream s.posts
    s.net s.slots s.tiles s.felt s.tiers s.gat s.pwr v_mgmt s.rel s.ingests s.sec :=
    ⟨h.pending, h.free, h.fuse, h.bus, h.mem, h.clk, h.ctr, h.tel, h.regs, h.parts, h.fe, h.io, h.hp, h.evt, h.dbg,
    h.ream, h.posts, h.net, h.slots, h.tiles, h.felt, h.tiers, h.gat, h.pwr, off w_mgmt, h.rel, h.ingests, h.sec⟩

theorem SameParts.upd_net {msk : Field → Bool} {s0 s : State} (h : Same msk s0 s) {v_net} (w_net : msk .net = false) :
    SameParts msk s0
    s.pending s.free s.fuse s.bus s.mem s.clk s.ctr s.tel s.regs s.parts s.fe s.io s.hp s.evt s.dbg s.ream s.posts
    v_net s.slots s.tiles s.felt s.tiers s.gat s.pwr s.mgmt s.rel s.ingests s.sec :=
    ⟨h.pending, h.free, h.fuse, h.bus, h.mem, h.clk, h.ctr, h.tel, h.regs, h.parts, h.fe, h.io, h.hp, h.evt, h.dbg,
    h.ream, h.posts, off w_net, h.slots, h.tiles, h.felt, h.tiers, h.gat, h.pwr, h.mgmt, h.rel, h.ingests, h.sec⟩

theorem SameParts.upd_parts {msk : Field → Bool} {s0 s : State} (h : Same msk s0 s) {v_parts}
    (w_parts : msk .parts = false) :
    SameParts msk s0
    s.pending s.free s.fuse s.bus s.mem s.clk s.ctr s.tel s.regs v_parts s.fe s.io s.hp s.evt s.dbg s.ream s.posts
    s.net s.slots s.tiles s.felt s.tiers s.gat s.pwr s.mgmt s.rel s.ingests s.sec :=
    ⟨h.pending, h.free, h.fuse, h.bus, h.mem, h.clk, h.ctr, h.tel, h.regs, off w_parts, h.fe, h.io, h.hp, h.evt,
    h.dbg, h.ream, h.posts, h.net, h.slots, h.tiles, h.felt, h.tiers, h.gat, h.pwr, h.mgmt, h.rel, h.ingests, h.sec⟩

theorem SameParts.upd_posts {msk : Field → Bool} {s0 s : State} (h : Same msk s0 s) {v_posts}
    (w_posts : msk .posts = false) :
    SameParts msk s0
    s.pending s.free s.fuse s.bus s.mem s.clk s.ctr s.tel s.regs s.parts s.fe s.io s.hp s.evt s.dbg s.ream v_posts
    s.net s.slots s.tiles s.felt s.tiers s.gat s.pwr s.mgmt s.rel s.ingests s.sec :=
    ⟨h.pending, h.free, h.fuse, h.bus, h.mem, h.clk, h.ctr, h.tel, h.regs, h.parts, h.fe, h.io, h.hp, h.evt, h.dbg,
    h.ream, off w_posts, h.net, h.slots, h.tiles, h.felt, h.tiers, h.gat, h.pwr, h.mgmt, h.rel, h.ingests, h.sec⟩

theorem SameParts.upd_pwr {msk : Field → Bool} {s0 s : State} (h : Same msk s0 s) {v_pwr} (w_pwr : msk .pwr = false) :
    SameParts msk s0
    s.pending s.free s.fuse s.bus s.mem s.clk s.ctr s.tel s.regs s.parts s.fe s.io s.hp s.evt s.dbg s.ream s.posts
    s.net s.slots s.tiles s.felt s.tiers s.gat v_pwr s.mgmt s.rel s.ingests s.sec :=
    ⟨h.pending, h.free, h.fuse, h.bus, h.mem, h.clk, h.ctr, h.tel, h.regs, h.parts, h.fe, h.io, h.hp, h.evt, h.dbg,
    h.ream, h.posts, h.net, h.slots, h.tiles, h.felt, h.tiers, h.gat, off w_pwr, h.mgmt, h.rel, h.ingests, h.sec⟩

theorem SameParts.upd_ream {msk : Field → Bool} {s0 s : State} (h : Same msk s0 s) {v_ream}
    (w_ream : msk .ream = false) :
    SameParts msk s0
    s.pending s.free s.fuse s.bus s.mem s.clk s.ctr s.tel s.regs s.parts s.fe s.io s.hp s.evt s.dbg v_ream s.posts
    s.net s.slots s.tiles s.felt s.tiers s.gat s.pwr s.mgmt s.rel s.ingests s.sec :=
    ⟨h.pending, h.free, h.fuse, h.bus, h.mem, h.clk, h.ctr, h.tel, h.regs, h.parts, h.fe, h.io, h.hp, h.evt, h.dbg,
    off w_ream, h.posts, h.net, h.slots, h.tiles, h.felt, h.tiers, h.gat, h.pwr, h.mgmt, h.rel, h.ingests, h.sec⟩

theorem SameParts.upd_regs {msk : Field → Bool} {s0 s : State} (h : Same msk s0 s) {v_regs}
    (w_regs : msk .regs = false) :
    SameParts msk s0
    s.pending s.free s.fuse s.bus s.mem s.clk s.ctr s.tel v_regs s.parts s.fe s.io s.hp s.evt s.dbg s.ream s.posts
    s.net s.slots s.tiles s.felt s.tiers s.gat s.pwr s.mgmt s.rel s.ingests s.sec :=
    ⟨h.pending, h.free, h.fuse, h.bus, h.mem, h.clk, h.ctr, h.tel, off w_regs, h.parts, h.fe, h.io, h.hp, h.evt,
    h.dbg, h.ream, h.posts, h.net, h.slots, h.tiles, h.felt, h.tiers, h.gat, h.pwr, h.mgmt, h.rel, h.ingests, h.sec⟩

theorem SameParts.upd_rel {msk : Field → Bool} {s0 s : State} (h : Same msk s0 s) {v_rel} (w_rel : msk .rel = false) :
    SameParts msk s0
    s.pending s.free s.fuse s.bus s.mem s.clk s.ctr s.tel s.regs s.parts s.fe s.io s.hp s.evt s.dbg s.ream s.posts
    s.net s.slots s.tiles s.felt s.tiers s.gat s.pwr s.mgmt v_rel s.ingests s.sec :=
    ⟨h.pending, h.free, h.fuse, h.bus, h.mem, h.clk, h.ctr, h.tel, h.regs, h.parts, h.fe, h.io, h.hp, h.evt, h.dbg,
    h.ream, h.posts, h.net, h.slots, h.tiles, h.felt, h.tiers, h.gat, h.pwr, h.mgmt, off w_rel, h.ingests, h.sec⟩

theorem SameParts.upd_sec {msk : Field → Bool} {s0 s : State} (h : Same msk s0 s) {v_sec} (w_sec : msk .sec = false) :
    SameParts msk s0
    s.pending s.free s.fuse s.bus s.mem s.clk s.ctr s.tel s.regs s.parts s.fe s.io s.hp s.evt s.dbg s.ream s.posts
    s.net s.slots s.tiles s.felt s.tiers s.gat s.pwr s.mgmt s.rel s.ingests v_sec :=
    ⟨h.pending, h.free, h.fuse, h.bus, h.mem, h.clk, h.ctr, h.tel, h.regs, h.parts, h.fe, h.io, h.hp, h.evt, h.dbg,
    h.ream, h.posts, h.net, h.slots, h.tiles, h.felt, h.tiers, h.gat, h.pwr, h.mgmt, h.rel, h.ingests, off w_sec⟩

theorem SameParts.upd_slots {msk : Field → Bool} {s0 s : State} (h : Same msk s0 s) {v_slots}
    (w_slots : msk .slots = false) :
    SameParts msk s0
    s.pending s.free s.fuse s.bus s.mem s.clk s.ctr s.tel s.regs s.parts s.fe s.io s.hp s.evt s.dbg s.ream s.posts
    s.net v_slots s.tiles s.felt s.tiers s.gat s.pwr s.mgmt s.rel s.ingests s.sec :=
    ⟨h.pending, h.free, h.fuse, h.bus, h.mem, h.clk, h.ctr, h.tel, h.regs, h.parts, h.fe, h.io, h.hp, h.evt, h.dbg,
    h.ream, h.posts, h.net, off w_slots, h.tiles, h.felt, h.tiers, h.gat, h.pwr, h.mgmt, h.rel, h.ingests, h.sec⟩

theorem SameParts.upd_tel {msk : Field → Bool} {s0 s : State} (h : Same msk s0 s) {v_tel} (w_tel : msk .tel = false) :
    SameParts msk s0
    s.pending s.free s.fuse s.bus s.mem s.clk s.ctr v_tel s.regs s.parts s.fe s.io s.hp s.evt s.dbg s.ream s.posts
    s.net s.slots s.tiles s.felt s.tiers s.gat s.pwr s.mgmt s.rel s.ingests s.sec :=
    ⟨h.pending, h.free, h.fuse, h.bus, h.mem, h.clk, h.ctr, off w_tel, h.regs, h.parts, h.fe, h.io, h.hp, h.evt,
    h.dbg, h.ream, h.posts, h.net, h.slots, h.tiles, h.felt, h.tiers, h.gat, h.pwr, h.mgmt, h.rel, h.ingests, h.sec⟩

theorem SameParts.upd_tiers {msk : Field → Bool} {s0 s : State} (h : Same msk s0 s) {v_tiers}
    (w_tiers : msk .tiers = false) :
    SameParts msk s0
    s.pending s.free s.fuse s.bus s.mem s.clk s.ctr s.tel s.regs s.parts s.fe s.io s.hp s.evt s.dbg s.ream s.posts
    s.net s.slots s.tiles s.felt v_tiers s.gat s.pwr s.mgmt s.rel s.ingests s.sec :=
    ⟨h.pending, h.free, h.fuse, h.bus, h.mem, h.clk, h.ctr, h.tel, h.regs, h.parts, h.fe, h.io, h.hp, h.evt, h.dbg,
    h.ream, h.posts, h.net, h.slots, h.tiles, h.felt, off w_tiers, h.gat, h.pwr, h.mgmt, h.rel, h.ingests, h.sec⟩

theorem SameParts.upd_tiles {msk : Field → Bool} {s0 s : State} (h : Same msk s0 s) {v_tiles}
    (w_tiles : msk .tiles = false) :
    SameParts msk s0
    s.pending s.free s.fuse s.bus s.mem s.clk s.ctr s.tel s.regs s.parts s.fe s.io s.hp s.evt s.dbg s.ream s.posts
    s.net s.slots v_tiles s.felt s.tiers s.gat s.pwr s.mgmt s.rel s.ingests s.sec :=
    ⟨h.pending, h.free, h.fuse, h.bus, h.mem, h.clk, h.ctr, h.tel, h.regs, h.parts, h.fe, h.io, h.hp, h.evt, h.dbg,
    h.ream, h.posts, h.net, h.slots, off w_tiles, h.felt, h.tiers, h.gat, h.pwr, h.mgmt, h.rel, h.ingests, h.sec⟩

theorem SameParts.upd_bus_tel {msk : Field → Bool} {s0 s : State} (h : Same msk s0 s) {v_bus v_tel}
    (w_bus : msk .bus = false) (w_tel : msk .tel = false) :
    SameParts msk s0
    s.pending s.free s.fuse v_bus s.mem s.clk s.ctr v_tel s.regs s.parts s.fe s.io s.hp s.evt s.dbg s.ream s.posts
    s.net s.slots s.tiles s.felt s.tiers s.gat s.pwr s.mgmt s.rel s.ingests s.sec :=
    ⟨h.pending, h.free, h.fuse, off w_bus, h.mem, h.clk, h.ctr, off w_tel, h.regs, h.parts, h.fe, h.io, h.hp, h.evt,
    h.dbg, h.ream, h.posts, h.net, h.slots, h.tiles, h.felt, h.tiers, h.gat, h.pwr, h.mgmt, h.rel, h.ingests, h.sec⟩

theorem SameParts.upd_evt_sec {msk : Field → Bool} {s0 s : State} (h : Same msk s0 s) {v_evt v_sec}
    (w_evt : msk .evt = false) (w_sec : msk .sec = false) :
    SameParts msk s0
    s.pending s.free s.fuse s.bus s.mem s.clk s.ctr s.tel s.regs s.parts s.fe s.io s.hp v_evt s.dbg s.ream s.posts
    s.net s.slots s.tiles s.felt s.tiers s.gat s.pwr s.mgmt s.rel s.ingests v_sec :=
    ⟨h.pending, h.free, h.fuse, h.bus, h.mem, h.clk, h.ctr, h.tel, h.regs, h.parts, h.fe, h.io, h.hp, off w_evt,
    h.dbg, h.ream, h.posts, h.net, h.slots, h.tiles, h.felt, h.tiers, h.gat, h.pwr, h.mgmt, h.rel, h.ingests,
    off w_sec⟩

theorem SameParts.upd_free_tiers {msk : Field → Bool} {s0 s : State} (h : Same msk s0 s) {v_free v_tiers}
    (w_free : msk .free = false) (w_tiers : msk .tiers = false) :
    SameParts msk s0
    s.pending v_free s.fuse s.bus s.mem s.clk s.ctr s.tel s.regs s.parts s.fe s.io s.hp s.evt s.dbg s.ream s.posts
    s.net s.slots s.tiles s.felt v_tiers s.gat s.pwr s.mgmt s.rel s.ingests s.sec :=
    ⟨h.pending, off w_free, h.fuse, h.bus, h.mem, h.clk, h.ctr, h.tel, h.regs, h.parts, h.fe, h.io, h.hp, h.evt,
    h.dbg, h.ream, h.posts, h.net, h.slots, h.tiles, h.felt, off w_tiers, h.gat, h.pwr, h.mgmt, h.rel, h.ingests,
    h.sec⟩

theorem SameParts.upd_fuse_pwr {msk : Field → Bool} {s0 s : State} (h : Same msk s0 s) {v_fuse v_pwr}
    (w_fuse : msk .fuse = false) (w_pwr : msk .pwr = false) :
    SameParts msk s0
    s.pending s.free v_fuse s.bus s.mem s.clk s.ctr s.tel s.regs s.parts s.fe s.io s.hp s.evt s.dbg s.ream s.posts
    s.net s.slots s.tiles s.felt s.tiers s.gat v_pwr s.mgmt s.rel s.ingests s.sec :=
    ⟨h.pending, h.free, off w_fuse, h.bus, h.mem, h.clk, h.ctr, h.tel, h.regs, h.parts, h.fe, h.io, h.hp, h.evt,
    h.dbg, h.ream, h.posts, h.net, h.slots, h.tiles, h.felt, h.tiers, h.gat, off w_pwr, h.mgmt, h.rel, h.ingests,
    h.sec⟩

theorem SameParts.upd_gat_pwr {msk : Field → Bool} {s0 s : State} (h : Same msk s0 s) {v_gat v_pwr}
    (w_gat : msk .gat = false) (w_pwr : msk .pwr = false) :
    SameParts msk s0
    s.pending s.free s.fuse s.bus s.mem s.clk s.ctr s.tel s.regs s.parts s.fe s.io s.hp s.evt s.dbg s.ream s.posts
    s.net s.slots s.tiles s.felt s.tiers v_gat v_pwr s.mgmt s.rel s.ingests s.sec :=
    ⟨h.pending, h.free, h.fuse, h.bus, h.mem, h.clk, h.ctr, h.tel, h.regs, h.parts, h.fe, h.io, h.hp, h.evt, h.dbg,
    h.ream, h.posts, h.net, h.slots, h.tiles, h.felt, h.tiers, off w_gat, off w_pwr, h.mgmt, h.rel, h.ingests, h.sec⟩

theorem SameParts.upd_gat_rel {msk : Field → Bool} {s0 s : State} (h : Same msk s0 s) {v_gat v_rel}
    (w_gat : msk .gat = false) (w_rel : msk .rel = false) :
    SameParts msk s0
    s.pending s.free s.fuse s.bus s.mem s.clk s.ctr s.tel s.regs s.parts s.fe s.io s.hp s.evt s.dbg s.ream s.posts
    s.net s.slots s.tiles s.felt s.tiers v_gat s.pwr s.mgmt v_rel s.ingests s.sec :=
    ⟨h.pending, h.free, h.fuse, h.bus, h.mem, h.clk, h.ctr, h.tel, h.regs, h.parts, h.fe, h.io, h.hp, h.evt, h.dbg,
    h.ream, h.posts, h.net, h.slots, h.tiles, h.felt, h.tiers, off w_gat, h.pwr, h.mgmt, off w_rel, h.ingests, h.sec⟩

theorem SameParts.upd_hp_evt {msk : Field → Bool} {s0 s : State} (h : Same msk s0 s) {v_hp v_evt}
    (w_hp : msk .hp = false) (w_evt : msk .evt = false) :
    SameParts msk s0
    s.pending s.free s.fuse s.bus s.mem s.clk s.ctr s.tel s.regs s.parts s.fe s.io v_hp v_evt s.dbg s.ream s.posts
    s.net s.slots s.tiles s.felt s.tiers s.gat s.pwr s.mgmt s.rel s.ingests s.sec :=
    ⟨h.pending, h.free, h.fuse, h.bus, h.mem, h.clk, h.ctr, h.tel, h.regs, h.parts, h.fe, h.io, off w_hp, off w_evt,
    h.dbg, h.ream, h.posts, h.net, h.slots, h.tiles, h.felt, h.tiers, h.gat, h.pwr, h.mgmt, h.rel, h.ingests, h.sec⟩

theorem SameParts.upd_hp_pwr {msk : Field → Bool} {s0 s : State} (h : Same msk s0 s) {v_hp v_pwr}
    (w_hp : msk .hp = false) (w_pwr : msk .pwr = false) :
    SameParts msk s0
    s.pending s.free s.fuse s.bus s.mem s.clk s.ctr s.tel s.regs s.parts s.fe s.io v_hp s.evt s.dbg s.ream s.posts
    s.net s.slots s.tiles s.felt s.tiers s.gat v_pwr s.mgmt s.rel s.ingests s.sec :=
    ⟨h.pending, h.free, h.fuse, h.bus, h.mem, h.clk, h.ctr, h.tel, h.regs, h.parts, h.fe, h.io, off w_hp, h.evt,
    h.dbg, h.ream, h.posts, h.net, h.slots, h.tiles, h.felt, h.tiers, h.gat, off w_pwr, h.mgmt, h.rel, h.ingests,
    h.sec⟩

theorem SameParts.upd_hp_sec {msk : Field → Bool} {s0 s : State} (h : Same msk s0 s) {v_hp v_sec}
    (w_hp : msk .hp = false) (w_sec : msk .sec = false) :
    SameParts msk s0
    s.pending s.free s.fuse s.bus s.mem s.clk s.ctr s.tel s.regs s.parts s.fe s.io v_hp s.evt s.dbg s.ream s.posts
    s.net s.slots s.tiles s.felt s.tiers s.gat s.pwr s.mgmt s.rel s.ingests v_sec :=
    ⟨h.pending, h.free, h.fuse, h.bus, h.mem, h.clk, h.ctr, h.tel, h.regs, h.parts, h.fe, h.io, off w_hp, h.evt,
    h.dbg, h.ream, h.posts, h.net, h.slots, h.tiles, h.felt, h.tiers, h.gat, h.pwr, h.mgmt, h.rel, h.ingests,
    off w_sec⟩

theorem SameParts.upd_io_evt {msk : Field → Bool} {s0 s : State} (h : Same msk s0 s) {v_io v_evt}
    (w_io : msk .io = false) (w_evt : msk .evt = false) :
    SameParts msk s0
    s.pending s.free s.fuse s.bus s.mem s.clk s.ctr s.tel s.regs s.parts s.fe v_io s.hp v_evt s.dbg s.ream s.posts
    s.net s.slots s.tiles s.felt s.tiers s.gat s.pwr s.mgmt s.rel s.ingests s.sec :=
    ⟨h.pending, h.free, h.fuse, h.bus, h.mem, h.clk, h.ctr, h.tel, h.regs, h.parts, h.fe, off w_io, h.hp, off w_evt,
    h.dbg, h.ream, h.posts, h.net, h.slots, h.tiles, h.felt, h.tiers, h.gat, h.pwr, h.mgmt, h.rel, h.ingests, h.sec⟩

theorem SameParts.upd_io_felt {msk : Field → Bool} {s0 s : State} (h : Same msk s0 s) {v_io v_felt}
    (w_io : msk .io = false) (w_felt : msk .felt = false) :
    SameParts msk s0
    s.pending s.free s.fuse s.bus s.mem s.clk s.ctr s.tel s.regs s.parts s.fe v_io s.hp s.evt s.dbg s.ream s.posts
    s.net s.slots s.tiles v_felt s.tiers s.gat s.pwr s.mgmt s.rel s.ingests s.sec :=
    ⟨h.pending, h.free, h.fuse, h.bus, h.mem, h.clk, h.ctr, h.tel, h.regs, h.parts, h.fe, off w_io, h.hp, h.evt,
    h.dbg, h.ream, h.posts, h.net, h.slots, h.tiles, off w_felt, h.tiers, h.gat, h.pwr, h.mgmt, h.rel, h.ingests,
    h.sec⟩

theorem SameParts.upd_mem_ream {msk : Field → Bool} {s0 s : State} (h : Same msk s0 s) {v_mem v_ream}
    (w_mem : msk .mem = false) (w_ream : msk .ream = false) :
    SameParts msk s0
    s.pending s.free s.fuse s.bus v_mem s.clk s.ctr s.tel s.regs s.parts s.fe s.io s.hp s.evt s.dbg v_ream s.posts
    s.net s.slots s.tiles s.felt s.tiers s.gat s.pwr s.mgmt s.rel s.ingests s.sec :=
    ⟨h.pending, h.free, h.fuse, h.bus, off w_mem, h.clk, h.ctr, h.tel, h.regs, h.parts, h.fe, h.io, h.hp, h.evt,
    h.dbg, off w_ream, h.posts, h.net, h.slots, h.tiles, h.felt, h.tiers, h.gat, h.pwr, h.mgmt, h.rel, h.ingests,
    h.sec⟩

theorem SameParts.upd_net_slots {msk : Field → Bool} {s0 s : State} (h : Same msk s0 s) {v_net v_slots}
    (w_net : msk .net = false) (w_slots : msk .slots = false) :
    SameParts msk s0
    s.pending s.free s.fuse s.bus s.mem s.clk s.ctr s.tel s.regs s.parts s.fe s.io s.hp s.evt s.dbg s.ream s.posts
    v_net v_slots s.tiles s.felt s.tiers s.gat s.pwr s.mgmt s.rel s.ingests s.sec :=
    ⟨h.pending, h.free, h.fuse, h.bus, h.mem, h.clk, h.ctr, h.tel, h.regs, h.parts, h.fe, h.io, h.hp, h.evt, h.dbg,
    h.ream, h.posts, off w_net, off w_slots, h.tiles, h.felt, h.tiers, h.gat, h.pwr, h.mgmt, h.rel, h.ingests, h.sec⟩

theorem SameParts.upd_parts_fe {msk : Field → Bool} {s0 s : State} (h : Same msk s0 s) {v_parts v_fe}
    (w_parts : msk .parts = false) (w_fe : msk .fe = false) :
    SameParts msk s0
    s.pending s.free s.fuse s.bus s.mem s.clk s.ctr s.tel s.regs v_parts v_fe s.io s.hp s.evt s.dbg s.ream s.posts
    s.net s.slots s.tiles s.felt s.tiers s.gat s.pwr s.mgmt s.rel s.ingests s.sec :=
    ⟨h.pending, h.free, h.fuse, h.bus, h.mem, h.clk, h.ctr, h.tel, h.regs, off w_parts, off w_fe, h.io, h.hp, h.evt,
    h.dbg, h.ream, h.posts, h.net, h.slots, h.tiles, h.felt, h.tiers, h.gat, h.pwr, h.mgmt, h.rel, h.ingests, h.sec⟩

theorem SameParts.upd_posts_gat {msk : Field → Bool} {s0 s : State} (h : Same msk s0 s) {v_posts v_gat}
    (w_posts : msk .posts = false) (w_gat : msk .gat = false) :
    SameParts msk s0
    s.pending s.free s.fuse s.bus s.mem s.clk s.ctr s.tel s.regs s.parts s.fe s.io s.hp s.evt s.dbg s.ream v_posts
    s.net s.slots s.tiles s.felt s.tiers v_gat s.pwr s.mgmt s.rel s.ingests s.sec :=
    ⟨h.pending, h.free, h.fuse, h.bus, h.mem, h.clk, h.ctr, h.tel, h.regs, h.parts, h.fe, h.io, h.hp, h.evt, h.dbg,
    h.ream, off w_posts, h.net, h.slots, h.tiles, h.felt, h.tiers, off w_gat, h.pwr, h.mgmt, h.rel, h.ingests, h.sec⟩

theorem SameParts.upd_posts_pwr {msk : Field → Bool} {s0 s : State} (h : Same msk s0 s) {v_posts v_pwr}
    (w_posts : msk .posts = false) (w_pwr : msk .pwr = false) :
    SameParts msk s0
    s.pending s.free s.fuse s.bus s.mem s.clk s.ctr s.tel s.regs s.parts s.fe s.io s.hp s.evt s.dbg s.ream v_posts
    s.net s.slots s.tiles s.felt s.tiers s.gat v_pwr s.mgmt s.rel s.ingests s.sec :=
    ⟨h.pending, h.free, h.fuse, h.bus, h.mem, h.clk, h.ctr, h.tel, h.regs, h.parts, h.fe, h.io, h.hp, h.evt, h.dbg,
    h.ream, off w_posts, h.net, h.slots, h.tiles, h.felt, h.tiers, h.gat, off w_pwr, h.mgmt, h.rel, h.ingests, h.sec⟩

theorem SameParts.upd_pwr_mgmt {msk : Field → Bool} {s0 s : State} (h : Same msk s0 s) {v_pwr v_mgmt}
    (w_pwr : msk .pwr = false) (w_mgmt : msk .mgmt = false) :
    SameParts msk s0
    s.pending s.free s.fuse s.bus s.mem s.clk s.ctr s.tel s.regs s.parts s.fe s.io s.hp s.evt s.dbg s.ream s.posts
    s.net s.slots s.tiles s.felt s.tiers s.gat v_pwr v_mgmt s.rel s.ingests s.sec :=
    ⟨h.pending, h.free, h.fuse, h.bus, h.mem, h.clk, h.ctr, h.tel, h.regs, h.parts, h.fe, h.io, h.hp, h.evt, h.dbg,
    h.ream, h.posts, h.net, h.slots, h.tiles, h.felt, h.tiers, h.gat, off w_pwr, off w_mgmt, h.rel, h.ingests, h.sec⟩

theorem SameParts.upd_pwr_sec {msk : Field → Bool} {s0 s : State} (h : Same msk s0 s) {v_pwr v_sec}
    (w_pwr : msk .pwr = false) (w_sec : msk .sec = false) :
    SameParts msk s0
    s.pending s.free s.fuse s.bus s.mem s.clk s.ctr s.tel s.regs s.parts s.fe s.io s.hp s.evt s.dbg s.ream s.posts
    s.net s.slots s.tiles s.felt s.tiers s.gat v_pwr s.mgmt s.rel s.ingests v_sec :=
    ⟨h.pending, h.free, h.fuse, h.bus, h.mem, h.clk, h.ctr, h.tel, h.regs, h.parts, h.fe, h.io, h.hp, h.evt, h.dbg,
    h.ream, h.posts, h.net, h.slots, h.tiles, h.felt, h.tiers, h.gat, off w_pwr, h.mgmt, h.rel, h.ingests, off w_sec⟩

theorem SameParts.upd_ream_gat {msk : Field → Bool} {s0 s : State} (h : Same msk s0 s) {v_ream v_gat}
    (w_ream : msk .ream = false) (w_gat : msk .gat = false) :
    SameParts msk s0
    s.pending s.free s.fuse s.bus s.mem s.clk s.ctr s.tel s.regs s.parts s.fe s.io s.hp s.evt s.dbg v_ream s.posts
    s.net s.slots s.tiles s.felt s.tiers v_gat s.pwr s.mgmt s.rel s.ingests s.sec :=
    ⟨h.pending, h.free, h.fuse, h.bus, h.mem, h.clk, h.ctr, h.tel, h.regs, h.parts, h.fe, h.io, h.hp, h.evt, h.dbg,
    off w_ream, h.posts, h.net, h.slots, h.tiles, h.felt, h.tiers, off w_gat, h.pwr, h.mgmt, h.rel, h.ingests, h.sec⟩

theorem SameParts.upd_ream_rel {msk : Field → Bool} {s0 s : State} (h : Same msk s0 s) {v_ream v_rel}
    (w_ream : msk .ream = false) (w_rel : msk .rel = false) :
    SameParts msk s0
    s.pending s.free s.fuse s.bus s.mem s.clk s.ctr s.tel s.regs s.parts s.fe s.io s.hp s.evt s.dbg v_ream s.posts
    s.net s.slots s.tiles s.felt s.tiers s.gat s.pwr s.mgmt v_rel s.ingests s.sec :=
    ⟨h.pending, h.free, h.fuse, h.bus, h.mem, h.clk, h.ctr, h.tel, h.regs, h.parts, h.fe, h.io, h.hp, h.evt, h.dbg,
    off w_ream, h.posts, h.net, h.slots, h.tiles, h.felt, h.tiers, h.gat, h.pwr, h.mgmt, off w_rel, h.ingests, h.sec⟩

theorem SameParts.upd_rel_sec {msk : Field → Bool} {s0 s : State} (h : Same msk s0 s) {v_rel v_sec}
    (w_rel : msk .rel = false) (w_sec : msk .sec = false) :
    SameParts msk s0
    s.pending s.free s.fuse s.bus s.mem s.clk s.ctr s.tel s.regs s.parts s.fe s.io s.hp s.evt s.dbg s.ream s.posts
    s.net s.slots s.tiles s.felt s.tiers s.gat s.pwr s.mgmt v_rel s.ingests v_sec :=
    ⟨h.pending, h.free, h.fuse, h.bus, h.mem, h.clk, h.ctr, h.tel, h.regs, h.parts, h.fe, h.io, h.hp, h.evt, h.dbg,
    h.ream, h.posts, h.net, h.slots, h.tiles, h.felt, h.tiers, h.gat, h.pwr, h.mgmt, off w_rel, h.ingests, off w_sec⟩

theorem SameParts.upd_tiers_gat {msk : Field → Bool} {s0 s : State} (h : Same msk s0 s) {v_tiers v_gat}
    (w_tiers : msk .tiers = false) (w_gat : msk .gat = false) :
    SameParts msk s0
    s.pending s.free s.fuse s.bus s.mem s.clk s.ctr s.tel s.regs s.parts s.fe s.io s.hp s.evt s.dbg s.ream s.posts
    s.net s.slots s.tiles s.felt v_tiers v_gat s.pwr s.mgmt s.rel s.ingests s.sec :=
    ⟨h.pending, h.free, h.fuse, h.bus, h.mem, h.clk, h.ctr, h.tel, h.regs, h.parts, h.fe, h.io, h.hp, h.evt, h.dbg,
    h.ream, h.posts, h.net, h.slots, h.tiles, h.felt, off w_tiers, off w_gat, h.pwr, h.mgmt, h.rel, h.ingests, h.sec⟩

theorem SameParts.upd_tiers_pwr {msk : Field → Bool} {s0 s : State} (h : Same msk s0 s) {v_tiers v_pwr}
    (w_tiers : msk .tiers = false) (w_pwr : msk .pwr = false) :
    SameParts msk s0
    s.pending s.free s.fuse s.bus s.mem s.clk s.ctr s.tel s.regs s.parts s.fe s.io s.hp s.evt s.dbg s.ream s.posts
    s.net s.slots s.tiles s.felt v_tiers s.gat v_pwr s.mgmt s.rel s.ingests s.sec :=
    ⟨h.pending, h.free, h.fuse, h.bus, h.mem, h.clk, h.ctr, h.tel, h.regs, h.parts, h.fe, h.io, h.hp, h.evt, h.dbg,
    h.ream, h.posts, h.net, h.slots, h.tiles, h.felt, off w_tiers, h.gat, off w_pwr, h.mgmt, h.rel, h.ingests, h.sec⟩

theorem SameParts.upd_tiles_gat {msk : Field → Bool} {s0 s : State} (h : Same msk s0 s) {v_tiles v_gat}
    (w_tiles : msk .tiles = false) (w_gat : msk .gat = false) :
    SameParts msk s0
    s.pending s.free s.fuse s.bus s.mem s.clk s.ctr s.tel s.regs s.parts s.fe s.io s.hp s.evt s.dbg s.ream s.posts
    s.net s.slots v_tiles s.felt s.tiers v_gat s.pwr s.mgmt s.rel s.ingests s.sec :=
    ⟨h.pending, h.free, h.fuse, h.bus, h.mem, h.clk, h.ctr, h.tel, h.regs, h.parts, h.fe, h.io, h.hp, h.evt, h.dbg,
    h.ream, h.posts, h.net, h.slots, off w_tiles, h.felt, h.tiers, off w_gat, h.pwr, h.mgmt, h.rel, h.ingests, h.sec⟩

theorem SameParts.upd_free_clk_rel {msk : Field → Bool} {s0 s : State} (h : Same msk s0 s) {v_free v_clk v_rel}
    (w_free : msk .free = false) (w_clk : msk .clk = false) (w_rel : msk .rel = false) :
    SameParts msk s0
    s.pending v_free s.fuse s.bus s.mem v_clk s.ctr s.tel s.regs s.parts s.fe s.io s.hp s.evt s.dbg s.ream s.posts
    s.net s.slots s.tiles s.felt s.tiers s.gat s.pwr s.mgmt v_rel s.ingests s.sec :=
    ⟨h.pending, off w_free, h.fuse, h.bus, h.mem, off w_clk, h.ctr, h.tel, h.regs, h.parts, h.fe, h.io, h.hp, h.evt,
    h.dbg, h.ream, h.posts, h.net, h.slots, h.tiles, h.felt, h.tiers, h.gat, h.pwr, h.mgmt, off w_rel, h.ingests,
    h.sec⟩

theorem SameParts.upd_hp_evt_sec {msk : Field → Bool} {s0 s : State} (h : Same msk s0 s) {v_hp v_evt v_sec}
    (w_hp : msk .hp = false) (w_evt : msk .evt = false) (w_sec : msk .sec = false) :
    SameParts msk s0
    s.pending s.free s.fuse s.bus s.mem s.clk s.ctr s.tel s.regs s.parts s.fe s.io v_hp v_evt s.dbg s.ream s.posts
    s.net s.slots s.tiles s.felt s.tiers s.gat s.pwr s.mgmt s.rel s.ingests v_sec :=
    ⟨h.pending, h.free, h.fuse, h.bus, h.mem, h.clk, h.ctr, h.tel, h.regs, h.parts, h.fe, h.io, off w_hp, off w_evt,
    h.dbg, h.ream, h.posts, h.net, h.slots, h.tiles, h.felt, h.tiers, h.gat, h.pwr, h.mgmt, h.rel, h.ingests,
    off w_sec⟩

theorem SameParts.upd_ream_gat_rel {msk : Field → Bool} {s0 s : State} (h : Same msk s0 s) {v_ream v_gat v_rel}
    (w_ream : msk .ream = false) (w_gat : msk .gat = false) (w_rel : msk .rel = false) :
    SameParts msk s0
    s.pending s.free s.fuse s.bus s.mem s.clk s.ctr s.tel s.regs s.parts s.fe s.io s.hp s.evt s.dbg v_ream s.posts
    s.net s.slots s.tiles s.felt s.tiers v_gat s.pwr s.mgmt v_rel s.ingests s.sec :=
    ⟨h.pending, h.free, h.fuse, h.bus, h.mem, h.clk, h.ctr, h.tel, h.regs, h.parts, h.fe, h.io, h.hp, h.evt, h.dbg,
    off w_ream, h.posts, h.net, h.slots, h.tiles, h.felt, h.tiers, off w_gat, h.pwr, h.mgmt, off w_rel, h.ingests,
    h.sec⟩

theorem SameParts.upd_tiers_gat_pwr {msk : Field → Bool} {s0 s : State} (h : Same msk s0 s) {v_tiers v_gat v_pwr}
    (w_tiers : msk .tiers = false) (w_gat : msk .gat = false) (w_pwr : msk .pwr = false) :
    SameParts msk s0
    s.pending s.free s.fuse s.bus s.mem s.clk s.ctr s.tel s.regs s.parts s.fe s.io s.hp s.evt s.dbg s.ream s.posts
    s.net s.slots s.tiles s.felt v_tiers v_gat v_pwr s.mgmt s.rel s.ingests s.sec :=
    ⟨h.pending, h.free, h.fuse, h.bus, h.mem, h.clk, h.ctr, h.tel, h.regs, h.parts, h.fe, h.io, h.hp, h.evt, h.dbg,
    h.ream, h.posts, h.net, h.slots, h.tiles, h.felt, off w_tiers, off w_gat, off w_pwr, h.mgmt, h.rel, h.ingests,
    h.sec⟩

theorem SameParts.upd_clk_ream_tiles_rel {msk : Field → Bool} {s0 s : State} (h : Same msk s0 s)
    {v_clk v_ream v_tiles v_rel} (w_clk : msk .clk = false) (w_ream : msk .ream = false)
    (w_tiles : msk .tiles = false) (w_rel : msk .rel = false) :
    SameParts msk s0
    s.pending s.free s.fuse s.bus s.mem v_clk s.ctr s.tel s.regs s.parts s.fe s.io s.hp s.evt s.dbg v_ream s.posts
    s.net s.slots v_tiles s.felt s.tiers s.gat s.pwr s.mgmt v_rel s.ingests s.sec :=
    ⟨h.pending, h.free, h.fuse, h.bus, h.mem, off w_clk, h.ctr, h.tel, h.regs, h.parts, h.fe, h.io, h.hp, h.evt,
    h.dbg, off w_ream, h.posts, h.net, h.slots, off w_tiles, h.felt, h.tiers, h.gat, h.pwr, h.mgmt, off w_rel,
    h.ingests, h.sec⟩

theorem SameParts.upd_net_pwr_rel_sec {msk : Field → Bool} {s0 s : State} (h : Same msk s0 s)
    {v_net v_pwr v_rel v_sec} (w_net : msk .net = false) (w_pwr : msk .pwr = false) (w_rel : msk .rel = false)
    (w_sec : msk .sec = false) :
    SameParts msk s0
    s.pending s.free s.fuse s.bus s.mem s.clk s.ctr s.tel s.regs s.parts s.fe s.io s.hp s.evt s.dbg s.ream s.posts
    v_net s.slots s.tiles s.felt s.tiers s.gat v_pwr s.mgmt v_rel s.ingests v_sec :=
    ⟨h.pending, h.free, h.fuse, h.bus, h.mem, h.clk, h.ctr, h.tel, h.regs, h.parts, h.fe, h.io, h.hp, h.evt, h.dbg,
    h.ream, h.posts, off w_net, h.slots, h.tiles, h.felt, h.tiers, h.gat, off w_pwr, h.mgmt, off w_rel, h.ingests,
    off w_sec⟩

theorem SameParts.upd_ream_felt_gat_rel {msk : Field → Bool} {s0 s : State} (h : Same msk s0 s)
    {v_ream v_felt v_gat v_rel} (w_ream : msk .ream = false) (w_felt : msk .felt = false) (w_gat : msk .gat = false)
    (w_rel : msk .rel = false) :
    SameParts msk s0
    s.pending s.free s.fuse s.bus s.mem s.clk s.ctr s.tel s.regs s.parts s.fe s.io s.hp s.evt s.dbg v_ream s.posts
    s.net s.slots s.tiles v_felt s.tiers v_gat s.pwr s.mgmt v_rel s.ingests s.sec :=
    ⟨h.pending, h.free, h.fuse, h.bus, h.mem, h.clk, h.ctr, h.tel, h.regs, h.parts, h.fe, h.io, h.hp, h.evt, h.dbg,
    off w_ream, h.posts, h.net, h.slots, h.tiles, off w_felt, h.tiers, off w_gat, h.pwr, h.mgmt, off w_rel, h.ingests,
    h.sec⟩

theorem SameParts.upd_regs_net_tiers_pwr {msk : Field → Bool} {s0 s : State} (h : Same msk s0 s)
    {v_regs v_net v_tiers v_pwr} (w_regs : msk .regs = false) (w_net : msk .net = false)
    (w_tiers : msk .tiers = false) (w_pwr : msk .pwr = false) :
    SameParts msk s0
    s.pending s.free s.fuse s.bus s.mem s.clk s.ctr s.tel v_regs s.parts s.fe s.io s.hp s.evt s.dbg s.ream s.posts
    v_net s.slots s.tiles s.felt v_tiers s.gat v_pwr s.mgmt s.rel s.ingests s.sec :=
    ⟨h.pending, h.free, h.fuse, h.bus, h.mem, h.clk, h.ctr, h.tel, off w_regs, h.parts, h.fe, h.io, h.hp, h.evt,
    h.dbg, h.ream, h.posts, off w_net, h.slots, h.tiles, h.felt, off w_tiers, h.gat, off w_pwr, h.mgmt, h.rel,
    h.ingests, h.sec⟩

theorem SameParts.upd_net_tiers_pwr_rel_sec {msk : Field → Bool} {s0 s : State} (h : Same msk s0 s)
    {v_net v_tiers v_pwr v_rel v_sec} (w_net : msk .net = false) (w_tiers : msk .tiers = false)
    (w_pwr : msk .pwr = false) (w_rel : msk .rel = false) (w_sec : msk .sec = false) :
    SameParts msk s0
    s.pending s.free s.fuse s.bus s.mem s.clk s.ctr s.tel s.regs s.parts s.fe s.io s.hp s.evt s.dbg s.ream s.posts
    v_net s.slots s.tiles s.felt v_tiers s.gat v_pwr s.mgmt v_rel s.ingests v_sec :=
    ⟨h.pending, h.free, h.fuse, h.bus, h.mem, h.clk, h.ctr, h.tel, h.regs, h.parts, h.fe, h.io, h.hp, h.evt, h.dbg,
    h.ream, h.posts, off w_net, h.slots, h.tiles, h.felt, off w_tiers, h.gat, off w_pwr, h.mgmt, off w_rel, h.ingests,
    off w_sec⟩

theorem SameParts.upd_ream_tiles_felt_tiers_gat {msk : Field → Bool} {s0 s : State} (h : Same msk s0 s)
    {v_ream v_tiles v_felt v_tiers v_gat} (w_ream : msk .ream = false) (w_tiles : msk .tiles = false)
    (w_felt : msk .felt = false) (w_tiers : msk .tiers = false) (w_gat : msk .gat = false) :
    SameParts msk s0
    s.pending s.free s.fuse s.bus s.mem s.clk s.ctr s.tel s.regs s.parts s.fe s.io s.hp s.evt s.dbg v_ream s.posts
    s.net s.slots v_tiles v_felt v_tiers v_gat s.pwr s.mgmt s.rel s.ingests s.sec :=
    ⟨h.pending, h.free, h.fuse, h.bus, h.mem, h.clk, h.ctr, h.tel, h.regs, h.parts, h.fe, h.io, h.hp, h.evt, h.dbg,
    off w_ream, h.posts, h.net, h.slots, off w_tiles, off w_felt, off w_tiers, off w_gat, h.pwr, h.mgmt, h.rel,
    h.ingests, h.sec⟩

theorem SameParts.upd_mem_clk_ctr_tel_regs_parts_fe_io_hp_evt_dbg_ream_posts_net_slots_tiles_felt_tiers_gat_pwr_rel_ingests_sec
    {msk : Field → Bool} {s0 s : State} (h : Same msk s0 s)
    {v_mem v_clk v_ctr v_tel v_regs v_parts v_fe v_io v_hp v_evt v_dbg v_ream v_posts v_net v_slots v_tiles v_felt v_tiers v_gat v_pwr v_rel v_ingests v_sec}
    (w_mem : msk .mem = false) (w_clk : msk .clk = false) (w_ctr : msk .ctr = false) (w_tel : msk .tel = false)
    (w_regs : msk .regs = false) (w_parts : msk .parts = false) (w_fe : msk .fe = false) (w_io : msk .io = false)
    (w_hp : msk .hp = false) (w_evt : msk .evt = false) (w_dbg : msk .dbg = false) (w_ream : msk .ream = false)
    (w_posts : msk .posts = false) (w_net : msk .net = false) (w_slots : msk .slots = false)
    (w_tiles : msk .tiles = false) (w_felt : msk .felt = false) (w_tiers : msk .tiers = false)
    (w_gat : msk .gat = false) (w_pwr : msk .pwr = false) (w_rel : msk .rel = false)
    (w_ingests : msk .ingests = false) (w_sec : msk .sec = false) :
    SameParts msk s0
    s.pending s.free s.fuse s.bus v_mem v_clk v_ctr v_tel v_regs v_parts v_fe v_io v_hp v_evt v_dbg v_ream v_posts
    v_net v_slots v_tiles v_felt v_tiers v_gat v_pwr s.mgmt v_rel v_ingests v_sec :=
    ⟨h.pending, h.free, h.fuse, h.bus, off w_mem, off w_clk, off w_ctr, off w_tel, off w_regs, off w_parts, off w_fe,
    off w_io, off w_hp, off w_evt, off w_dbg, off w_ream, off w_posts, off w_net, off w_slots, off w_tiles,
    off w_felt, off w_tiers, off w_gat, off w_pwr, h.mgmt, off w_rel, off w_ingests, off w_sec⟩

theorem Same.ite {msk : Field → Bool} {s0 a b : State} {c : Prop} [Decidable c] (ha : Same msk s0 a)
    (hb : Same msk s0 b) : Same msk s0 (if c then a else b) := by split <;> assumption

theorem Same.each {msk : Field → Bool} {s0 s : State} (h : Same msk s0 s) {α : Type} (l : List α) (f : State → α → State)
    (hf : ∀ t a, Same msk s0 t → Same msk s0 (f t a)) : Same msk s0 (s.each l f) := by
  induction l generalizing s with
  | nil => exact h
  | cons a l ih => exact ih (hf _ a h)

theorem Same.foldl {msk : Field → Bool} {s0 s : State} (h : Same msk s0 s) {α : Type} (l : List α)
    (f : State → α → State) (hf : ∀ t a, Same msk s0 t → Same msk s0 (f t a)) : Same msk s0 (l.foldl f s) :=
  h.each l f hf

theorem Same.foldl_fst {msk : Field → Bool} {s0 : State} {α β : Type} (l : List α)
    (f : State × β → α → State × β) (hf : ∀ p a, Same msk s0 p.1 → Same msk s0 (f p a).1) (p : State × β)
    (h : Same msk s0 p.1) : Same msk s0 (l.foldl f p).1 := by
  induction l generalizing p with
  | nil => exact h
  | cons a l ih => exact ih _ (hf p a h)

theorem Same.foldl_snd {msk : Field → Bool} {s0 : State} {α β : Type} (l : List α)
    (f : β × State → α → β × State) (hf : ∀ p a, Same msk s0 p.2 → Same msk s0 (f p a).2) (p : β × State)
    (h : Same msk s0 p.2) : Same msk s0 (l.foldl f p).2 := by
  induction l generalizing p with
  | nil => exact h
  | cons a l ih => exact ih _ (hf p a h)

theorem Same.after {msk : Field → Bool} {s0 s : State} {o : Host.Outcome State Fault Refusal} (h : Same msk s0 s)
    (ho : ∃ t, o = .next t ∧ Same msk s t) : Same msk s0 (Machine.after o s) := by
  obtain ⟨t, rfl, k⟩ := ho
  exact h.trans k

theorem Same.of_fst {msk : Field → Bool} {s0 : State} {α : Type} {p : State × α} {t : State} {a : α}
    (e : p = (t, a)) (h : Same msk s0 p.1) : Same msk s0 t := by subst e; exact h

theorem Same.of_snd {msk : Field → Bool} {s0 : State} {α : Type} {p : α × State} {t : State} {a : α}
    (e : p = (a, t)) (h : Same msk s0 p.2) : Same msk s0 t := by subst e; exact h

theorem Same.of_snd3 {msk : Field → Bool} {s0 : State} {α β : Type} {p : α × β × State} {t : State} {a : α} {b : β}
    (e : p = (a, b, t)) (h : Same msk s0 p.2.2) : Same msk s0 t := by subst e; exact h

theorem Same.of_fst3 {msk : Field → Bool} {s0 : State} {α β : Type} {p : State × α × β} {t : State} {a : α} {b : β}
    (e : p = (t, a, b)) (h : Same msk s0 p.1) : Same msk s0 t := by subst e; exact h

end Sys2Proof.Machine
end

