-- ==== Sys2Proof/Laws/SameFront.lean ====
section
/-! SUPPORT. `Same` for the front end: operations shared by all, segments, rings, partitions, events:
the parts of the state each operation leaves alone. -/

namespace Sys2Proof.Machine
set_option linter.unusedTactic false
set_option linter.unreachableTactic false

theorem State.setRing_same {msk : Field → Bool} {s0 s : State} (h0 : Same msk s0 s) (r : Nat) (v : Ring)
    (w_fe : msk .fe = false) :
    Same msk s0 (State.setRing s r v) := by
  unfold State.setRing
  repeat' first
    | with_reducible first
      | assumption | exact Same.refl _ _ | apply SameParts.same | apply SameParts.upd_fe
    | dsimp only | simp only [same_mk] | split

theorem State.modRing_same {msk : Field → Bool} {s0 s : State} (h0 : Same msk s0 s) (r : Nat) (f : Ring → Ring)
    (w_fe : msk .fe = false) :
    Same msk s0 (State.modRing s r f) := by
  unfold State.modRing
  repeat' first
    | with_reducible first
      | assumption | exact Same.refl _ _ | apply State.setRing_same
    | dsimp only | split

theorem State.setPart_same {msk : Field → Bool} {s0 s : State} (h0 : Same msk s0 s) (p : Nat) (v : Part)
    (w_parts : msk .parts = false) :
    Same msk s0 (State.setPart s p v) := by
  unfold State.setPart
  repeat' first
    | with_reducible first
      | assumption | exact Same.refl _ _ | apply SameParts.same | apply SameParts.upd_parts
    | dsimp only | simp only [same_mk] | split

theorem State.modPart_same {msk : Field → Bool} {s0 s : State} (h0 : Same msk s0 s) (p : Nat) (f : Part → Part)
    (w_parts : msk .parts = false) :
    Same msk s0 (State.modPart s p f) := by
  unfold State.modPart
  repeat' first
    | with_reducible first
      | assumption | exact Same.refl _ _ | apply State.setPart_same
    | dsimp only | split

theorem State.setCmd_same {msk : Field → Bool} {s0 s : State} (h0 : Same msk s0 s) (k : Nat) (c : Cmd)
    (w_fe : msk .fe = false) :
    Same msk s0 (State.setCmd s k c) := by
  unfold State.setCmd
  repeat' first
    | with_reducible first
      | assumption | exact Same.refl _ _ | apply SameParts.same | apply SameParts.upd_fe
    | dsimp only | simp only [same_mk] | split

theorem State.setPost_same {msk : Field → Bool} {s0 s : State} (h0 : Same msk s0 s) (k : Nat) (v : Post)
    (w_posts : msk .posts = false) :
    Same msk s0 (State.setPost s k v) := by
  unfold State.setPost
  repeat' first
    | with_reducible first
      | assumption | exact Same.refl _ _ | apply SameParts.same | apply SameParts.upd_posts
    | dsimp only | simp only [same_mk] | split

theorem State.modPost_same {msk : Field → Bool} {s0 s : State} (h0 : Same msk s0 s) (k : Nat) (f : Post → Post)
    (w_posts : msk .posts = false) :
    Same msk s0 (State.modPost s k f) := by
  unfold State.modPost
  repeat' first
    | with_reducible first
      | assumption | exact Same.refl _ _ | apply State.setPost_same
    | dsimp only | split

theorem State.setSrc_same {msk : Field → Bool} {s0 s : State} (h0 : Same msk s0 s) (i : Nat) (v : Src)
    (w_evt : msk .evt = false) :
    Same msk s0 (State.setSrc s i v) := by
  unfold State.setSrc
  repeat' first
    | with_reducible first
      | assumption | exact Same.refl _ _ | apply SameParts.same | apply SameParts.upd_evt
    | dsimp only | simp only [same_mk] | split

theorem State.setReg_same {msk : Field → Bool} {s0 s : State} (h0 : Same msk s0 s) (a : Nat) (w : Word)
    (w_regs : msk .regs = false) :
    Same msk s0 (State.setReg s a w) := by
  unfold State.setReg
  repeat' first
    | with_reducible first
      | assumption | exact Same.refl _ _ | apply SameParts.same | apply SameParts.upd_regs
    | dsimp only | simp only [same_mk] | split

theorem State.setCtr_same {msk : Field → Bool} {s0 s : State} (h0 : Same msk s0 s) (id : Nat) (inst : Nat) (v : DWord)
    (w_ctr : msk .ctr = false) :
    Same msk s0 (State.setCtr s id inst v) := by
  unfold State.setCtr
  repeat' first
    | with_reducible first
      | assumption | exact Same.refl _ _ | apply SameParts.same | apply SameParts.upd_ctr
    | dsimp only | simp only [same_mk] | split

theorem State.count_same {msk : Field → Bool} {s0 s : State} (h0 : Same msk s0 s) (id : Nat) (inst : Nat) (n : Nat)
    (w_ctr : msk .ctr = false) :
    Same msk s0 (State.count s id inst n) := by
  unfold State.count
  repeat' first
    | with_reducible first
      | assumption | exact Same.refl _ _ | apply State.setCtr_same
    | dsimp only | split

theorem State.setPhase_same {msk : Field → Bool} {s0 s : State} (h0 : Same msk s0 s) (k : Nat) (ph : Phase)
    (w_fe : msk .fe = false) :
    Same msk s0 (State.setPhase s k ph) := by
  unfold State.setPhase
  repeat' first
    | with_reducible first
      | assumption | exact Same.refl _ _ | apply State.setCmd_same
    | dsimp only | split

theorem State.freeVal_same {msk : Field → Bool} {s0 s : State} (h0 : Same msk s0 s) (w_free : msk .free = false) :
    Same msk s0 (State.freeVal s).2 := by
  unfold State.freeVal
  repeat' first
    | with_reducible first
      | assumption | exact Same.refl _ _ | apply SameParts.same | apply SameParts.upd_free
    | dsimp only | simp only [same_mk] | split

theorem State.freeVals_same {msk : Field → Bool} {s0 s : State} (h0 : Same msk s0 s) (n : Nat)
    (w_free : msk .free = false) :
    Same msk s0 (State.freeVals s n).2 := by
  unfold State.freeVals
  repeat' first
    | with_reducible first
      | assumption | exact Same.refl _ _ | apply SameParts.same | apply SameParts.upd_free
    | dsimp only | simp only [same_mk] | split

theorem State.leaveQueue_same {msk : Field → Bool} {s0 s : State} (h0 : Same msk s0 s) (k : Nat)
    (w_ctr : msk .ctr = false) (w_ream : msk .ream = false) :
    Same msk s0 (State.leaveQueue s k) := by
  unfold State.leaveQueue
  repeat' first
    | with_reducible first
      | assumption | exact Same.refl _ _ | apply State.count_same | apply Same.ite | apply SameParts.same
      | apply SameParts.upd_ream
    | dsimp only | simp only [same_mk] | split

theorem State.issue_same {msk : Field → Bool} {s0 s : State} (h0 : Same msk s0 s) (x : Xfer) (w_io : msk .io = false)
    :
    Same msk s0 (State.issue s x) := by
  unfold State.issue
  repeat' first
    | with_reducible first
      | assumption | exact Same.refl _ _ | apply SameParts.same | apply SameParts.upd_io
    | dsimp only | simp only [same_mk] | split

theorem State.writeHost_same {msk : Field → Bool} {s0 s : State} (h0 : Same msk s0 s) (use : Use) (p : Nat) (qp : Nat)
    (rkey : Nat) (addr : Nat) (data : Bytes) (poison : List Nat) (w_ctr : msk .ctr = false) (w_io : msk .io = false)
    (w_posts : msk .posts = false) :
    Same msk s0 (State.writeHost s use p qp rkey addr data poison) := by
  unfold State.writeHost
  repeat' first
    | with_reducible first
      | assumption | exact Same.refl _ _ | apply State.modPost_same | apply State.count_same | apply State.issue_same
      | apply Same.ite
    | dsimp only | split

theorem State.takeDone_same {msk : Field → Bool} {s0 s : State} (h0 : Same msk s0 s) (u : Use)
    (w_io : msk .io = false) :
    Same msk s0 (State.takeDone s u) := by
  unfold State.takeDone
  repeat' first
    | with_reducible first
      | assumption | exact Same.refl _ _ | apply SameParts.same | apply SameParts.upd_io
    | dsimp only | simp only [same_mk] | split

theorem State.sendMsix_same {msk : Field → Bool} {s0 s : State} (h0 : Same msk s0 s) (p : Nat) (v : Nat)
    (w_ctr : msk .ctr = false) (w_hp : msk .hp = false) :
    Same msk s0 (State.sendMsix s p v) := by
  unfold State.sendMsix
  repeat' first
    | with_reducible first
      | assumption | exact Same.refl _ _ | apply State.count_same | apply SameParts.same | apply SameParts.upd_hp
    | dsimp only | simp only [same_mk] | split

theorem State.readPrio_same {msk : Field → Bool} {s0 s : State} (h0 : Same msk s0 s) (p : Nat) (lines : List Nat)
    (w_free : msk .free = false) (w_parts : msk .parts = false) :
    Same msk s0 (State.readPrio s p lines) := by
  unfold State.readPrio
  repeat' first
    | with_reducible first
      | assumption | exact Same.refl _ _ | refine Same.each ?_ _ _ (fun _ _ _ => ?_)
      | refine Same.foldl ?_ _ _ (fun _ _ _ => ?_) | refine Same.foldl_fst _ _ (fun _ _ _ => ?_) _ ?_
      | refine Same.foldl_snd _ _ (fun _ _ _ => ?_) _ ?_ | apply State.modPart_same | apply State.freeVals_same
      | apply Same.ite | refine Same.of_fst (by assumption) ?_ | refine Same.of_snd (by assumption) ?_ | intro _
    | dsimp only | split

theorem State.delivered_same {msk : Field → Bool} {s0 s : State} (h0 : Same msk s0 s) (i : Nat) (rearm : Bool)
    (w_evt : msk .evt = false) :
    Same msk s0 (State.delivered s i rearm) := by
  unfold State.delivered
  repeat' first
    | with_reducible first
      | assumption | exact Same.refl _ _ | apply State.setSrc_same | apply Same.ite
    | dsimp only | split

theorem State.deliverCore_same {msk : Field → Bool} {s0 s : State} (h0 : Same msk s0 s) (i : Nat)
    (w_free : msk .free = false) (w_ctr : msk .ctr = false) (w_evt : msk .evt = false) :
    Same msk s0 (State.deliverCore s i) := by
  unfold State.deliverCore
  repeat' first
    | with_reducible first
      | assumption | exact Same.refl _ _ | apply State.count_same | apply State.freeVals_same
      | apply State.delivered_same | apply SameParts.same | apply SameParts.upd_evt
      | refine Same.of_snd (by assumption) ?_
    | dsimp only | simp only [same_mk] | split

theorem State.deliverLocal_same {msk : Field → Bool} {s0 s : State} (h0 : Same msk s0 s) (i : Nat) (p : Nat)
    (w_free : msk .free = false) (w_ctr : msk .ctr = false) (w_parts : msk .parts = false) (w_hp : msk .hp = false)
    (w_evt : msk .evt = false) :
    Same msk s0 (State.deliverLocal s i p) := by
  unfold State.deliverLocal
  repeat' first
    | with_reducible first
      | assumption | exact Same.refl _ _ | apply State.setSrc_same | apply State.count_same
      | apply State.sendMsix_same | apply State.readPrio_same | apply State.delivered_same | apply Same.ite
      | apply SameParts.same | apply SameParts.upd_hp
    | dsimp only | simp only [same_mk] | split

theorem State.deliverRemote_same {msk : Field → Bool} {s0 s : State} (h0 : Same msk s0 s) (i : Nat) (p : Nat)
    (w_ctr : msk .ctr = false) (w_parts : msk .parts = false) (w_io : msk .io = false) (w_evt : msk .evt = false) :
    Same msk s0 (State.deliverRemote s i p) := by
  unfold State.deliverRemote
  repeat' first
    | with_reducible first
      | assumption | exact Same.refl _ _ | apply State.modPart_same | apply State.setSrc_same | apply State.count_same
      | apply State.issue_same | apply Same.ite
    | dsimp only | split

theorem State.deliver_same {msk : Field → Bool} {s0 s : State} (h0 : Same msk s0 s) (i : Nat)
    (w_free : msk .free = false) (w_ctr : msk .ctr = false) (w_parts : msk .parts = false) (w_io : msk .io = false)
    (w_hp : msk .hp = false) (w_evt : msk .evt = false) :
    Same msk s0 (State.deliver s i) := by
  unfold State.deliver
  repeat' first
    | with_reducible first
      | assumption | exact Same.refl _ _ | apply State.deliverCore_same | apply State.deliverLocal_same
      | apply State.deliverRemote_same | apply Same.ite
    | dsimp only | split

theorem State.joinEvent_same {msk : Field → Bool} {s0 s : State} (h0 : Same msk s0 s) (i : Nat)
    (w_parts : msk .parts = false) (w_io : msk .io = false) (w_evt : msk .evt = false) :
    Same msk s0 (State.joinEvent s i) := by
  unfold State.joinEvent
  repeat' first
    | with_reducible first
      | assumption | exact Same.refl _ _ | apply State.modPart_same | apply State.setSrc_same | apply Same.ite
      | apply SameParts.same | apply SameParts.upd_evt | apply SameParts.upd_io | apply SameParts.upd_io_evt
    | dsimp only | simp only [same_mk] | split

theorem State.deliverIfFull_same {msk : Field → Bool} {s0 s : State} (h0 : Same msk s0 s) (i : Nat)
    (w_free : msk .free = false) (w_ctr : msk .ctr = false) (w_parts : msk .parts = false) (w_io : msk .io = false)
    (w_hp : msk .hp = false) (w_evt : msk .evt = false) :
    Same msk s0 (State.deliverIfFull s i) := by
  unfold State.deliverIfFull
  repeat' first
    | with_reducible first
      | assumption | exact Same.refl _ _ | apply State.deliver_same | apply Same.ite
    | dsimp only | split

theorem State.raise_same {msk : Field → Bool} {s0 s : State} (h0 : Same msk s0 s) (i : Nat)
    (w_free : msk .free = false) (w_ctr : msk .ctr = false) (w_parts : msk .parts = false) (w_io : msk .io = false)
    (w_hp : msk .hp = false) (w_evt : msk .evt = false) :
    Same msk s0 (State.raise s i) := by
  unfold State.raise
  repeat' first
    | with_reducible first
      | assumption | exact Same.refl _ _ | apply State.setSrc_same | apply State.joinEvent_same
      | apply State.deliverIfFull_same | apply Same.ite
    | dsimp only | split

theorem State.rearm_same {msk : Field → Bool} {s0 s : State} (h0 : Same msk s0 s) (i : Nat)
    (w_free : msk .free = false) (w_ctr : msk .ctr = false) (w_parts : msk .parts = false) (w_io : msk .io = false)
    (w_hp : msk .hp = false) (w_evt : msk .evt = false) :
    Same msk s0 (State.rearm s i) := by
  unfold State.rearm
  repeat' first
    | with_reducible first
      | assumption | exact Same.refl _ _ | apply State.setSrc_same | apply State.deliverIfFull_same | apply Same.ite
    | dsimp only | split

theorem State.coreCause_same {msk : Field → Bool} {s0 s : State} (h0 : Same msk s0 s) (bit : Nat)
    (w_free : msk .free = false) (w_ctr : msk .ctr = false) (w_parts : msk .parts = false) (w_io : msk .io = false)
    (w_hp : msk .hp = false) (w_evt : msk .evt = false) :
    Same msk s0 (State.coreCause s bit) := by
  unfold State.coreCause
  repeat' first
    | with_reducible first
      | assumption | exact Same.refl _ _ | apply State.raise_same | apply SameParts.same | apply SameParts.upd_evt
    | dsimp only | simp only [same_mk] | split

theorem State.partCause_same {msk : Field → Bool} {s0 s : State} (h0 : Same msk s0 s) (p : Nat) (bit : Nat)
    (w_free : msk .free = false) (w_ctr : msk .ctr = false) (w_parts : msk .parts = false) (w_io : msk .io = false)
    (w_hp : msk .hp = false) (w_evt : msk .evt = false) :
    Same msk s0 (State.partCause s p bit) := by
  unfold State.partCause
  repeat' first
    | with_reducible first
      | assumption | exact Same.refl _ _ | apply State.modPart_same | apply State.raise_same | apply Same.ite
    | dsimp only | split

theorem State.causeTo_same {msk : Field → Bool} {s0 s : State} (h0 : Same msk s0 s) (p : Nat) (bit : Nat)
    (w_free : msk .free = false) (w_ctr : msk .ctr = false) (w_parts : msk .parts = false) (w_io : msk .io = false)
    (w_hp : msk .hp = false) (w_evt : msk .evt = false) :
    Same msk s0 (State.causeTo s p bit) := by
  unfold State.causeTo
  repeat' first
    | with_reducible first
      | assumption | exact Same.refl _ _ | apply State.coreCause_same | apply State.partCause_same
    | dsimp only | split

theorem State.causeAll_same {msk : Field → Bool} {s0 s : State} (h0 : Same msk s0 s) (bit : Nat)
    (w_free : msk .free = false) (w_ctr : msk .ctr = false) (w_parts : msk .parts = false) (w_io : msk .io = false)
    (w_hp : msk .hp = false) (w_evt : msk .evt = false) :
    Same msk s0 (State.causeAll s bit) := by
  unfold State.causeAll
  repeat' first
    | with_reducible first
      | assumption | exact Same.refl _ _ | refine Same.each ?_ _ _ (fun _ _ _ => ?_) | apply State.coreCause_same
      | apply State.partCause_same | apply Same.ite | intro _
    | dsimp only | split

theorem State.freeTaskOf_same {msk : Field → Bool} {s0 s : State} (h0 : Same msk s0 s) (k : Nat)
    (w_fe : msk .fe = false) :
    Same msk s0 (State.freeTaskOf s k) := by
  unfold State.freeTaskOf
  repeat' first
    | with_reducible first
      | assumption | exact Same.refl _ _ | apply SameParts.same | apply SameParts.upd_fe
    | dsimp only | simp only [same_mk] | split

theorem State.finish_same {msk : Field → Bool} {s0 s : State} (h0 : Same msk s0 s) (k : Nat) (status : Nat)
    (result : Nat) (flags : Nat) (w_fe : msk .fe = false) :
    Same msk s0 (State.finish s k status result flags) := by
  unfold State.finish
  repeat' first
    | with_reducible first
      | assumption | exact Same.refl _ _ | apply State.modRing_same | apply State.freeTaskOf_same
      | apply SameParts.same | apply SameParts.upd_fe
    | dsimp only | simp only [same_mk] | split

theorem State.finishIdle_same {msk : Field → Bool} {s0 s : State} (h0 : Same msk s0 s) (k : Nat) (status : Nat)
    (w_fe : msk .fe = false) :
    Same msk s0 (State.finishIdle s k status) := by
  unfold State.finishIdle
  repeat' first
    | with_reducible first
      | assumption | exact Same.refl _ _ | apply State.finish_same
    | dsimp only | split

theorem State.pldm_same {msk : Field → Bool} {s0 s : State} (h0 : Same msk s0 s) (sensor : Nat) (value : Nat)
    (w_mgmt : msk .mgmt = false) :
    Same msk s0 (State.pldm s sensor value) := by
  unfold State.pldm
  repeat' first
    | with_reducible first
      | assumption | exact Same.refl _ _ | apply Same.ite | apply SameParts.same | apply SameParts.upd_mgmt
    | dsimp only | simp only [same_mk] | split

theorem State.pldmIf_same {msk : Field → Bool} {s0 s : State} (h0 : Same msk s0 s) (sensor : Nat) (old : Nat)
    (new : Nat) (w_mgmt : msk .mgmt = false) :
    Same msk s0 (State.pldmIf s sensor old new) := by
  unfold State.pldmIf
  repeat' first
    | with_reducible first
      | assumption | exact Same.refl _ _ | apply State.pldm_same | apply Same.ite
    | dsimp only | split

theorem State.pldmCross_same {msk : Field → Bool} {s0 s : State} (h0 : Same msk s0 s) (sensor : Nat) (old : Nat)
    (new : Nat) (ths : List Nat) (w_mgmt : msk .mgmt = false) :
    Same msk s0 (State.pldmCross s sensor old new ths) := by
  unfold State.pldmCross
  repeat' first
    | with_reducible first
      | assumption | exact Same.refl _ _ | apply State.pldm_same | apply Same.ite
    | dsimp only | split

theorem State.setPst_same {msk : Field → Bool} {s0 s : State} (h0 : Same msk s0 s) (n : Nat)
    (w_pwr : msk .pwr = false) (w_mgmt : msk .mgmt = false) :
    Same msk s0 (State.setPst s n) := by
  unfold State.setPst
  repeat' first
    | with_reducible first
      | assumption | exact Same.refl _ _ | apply State.pldmIf_same | apply SameParts.same | apply SameParts.upd_pwr
    | dsimp only | simp only [same_mk] | split

theorem State.setFlush_same {msk : Field → Bool} {s0 s : State} (h0 : Same msk s0 s) (n : Nat)
    (w_pwr : msk .pwr = false) (w_mgmt : msk .mgmt = false) :
    Same msk s0 (State.setFlush s n) := by
  unfold State.setFlush
  repeat' first
    | with_reducible first
      | assumption | exact Same.refl _ _ | apply State.pldmIf_same | apply SameParts.same | apply SameParts.upd_pwr
    | dsimp only | simp only [same_mk] | split

theorem State.setTile_same {msk : Field → Bool} {s0 s : State} (h0 : Same msk s0 s) (t : Nat) (v : Tile)
    (w_tiles : msk .tiles = false) :
    Same msk s0 (State.setTile s t v) := by
  unfold State.setTile
  repeat' first
    | with_reducible first
      | assumption | exact Same.refl _ _ | apply SameParts.same | apply SameParts.upd_tiles
    | dsimp only | simp only [same_mk] | split

theorem State.modTile_same {msk : Field → Bool} {s0 s : State} (h0 : Same msk s0 s) (t : Nat) (f : Tile → Tile)
    (w_tiles : msk .tiles = false) :
    Same msk s0 (State.modTile s t f) := by
  unfold State.modTile
  repeat' first
    | with_reducible first
      | assumption | exact Same.refl _ _ | apply State.setTile_same
    | dsimp only | split

theorem State.setT1g_same {msk : Field → Bool} {s0 s : State} (h0 : Same msk s0 s) (g : Nat) (v : T1Group)
    (w_tiers : msk .tiers = false) :
    Same msk s0 (State.setT1g s g v) := by
  unfold State.setT1g
  repeat' first
    | with_reducible first
      | assumption | exact Same.refl _ _ | apply SameParts.same | apply SameParts.upd_tiers
    | dsimp only | simp only [same_mk] | split

theorem State.t1Write_same {msk : Field → Bool} {s0 s : State} (h0 : Same msk s0 s) (a : Nat) (b : Bytes)
    (w_mem : msk .mem = false) :
    Same msk s0 (State.t1Write s a b) := by
  unfold State.t1Write
  repeat' first
    | with_reducible first
      | assumption | exact Same.refl _ _ | refine Same.foldl ?_ _ _ (fun _ _ _ => ?_)
      | refine Same.foldl_fst _ _ (fun _ _ _ => ?_) _ ?_ | refine Same.foldl_snd _ _ (fun _ _ _ => ?_) _ ?_
      | apply Same.ite | apply SameParts.same | apply SameParts.upd_mem | refine Same.of_fst (by assumption) ?_
      | refine Same.of_snd (by assumption) ?_ | intro _
    | dsimp only | simp only [same_mk] | split

theorem State.failGroup_same {msk : Field → Bool} {s0 s : State} (h0 : Same msk s0 s) (g : Nat)
    (w_free : msk .free = false) (w_ctr : msk .ctr = false) (w_parts : msk .parts = false) (w_io : msk .io = false)
    (w_hp : msk .hp = false) (w_evt : msk .evt = false) (w_tiers : msk .tiers = false) :
    Same msk s0 (State.failGroup s g) := by
  unfold State.failGroup
  repeat' first
    | with_reducible first
      | assumption | exact Same.refl _ _ | apply State.causeAll_same | apply State.setT1g_same | apply Same.ite
    | dsimp only | split

theorem State.plogAdd_same {msk : Field → Bool} {s0 s : State} (h0 : Same msk s0 s) (kind : Nat) (unit : Nat)
    (table : Nat) (addr : Nat) (w_rel : msk .rel = false) :
    Same msk s0 (State.plogAdd s kind unit table addr) := by
  unfold State.plogAdd
  repeat' first
    | with_reducible first
      | assumption | exact Same.refl _ _ | apply SameParts.same | apply SameParts.upd_rel
    | dsimp only | simp only [same_mk] | split

theorem State.poisonT1_same {msk : Field → Bool} {s0 s : State} (h0 : Same msk s0 s) (n : Nat)
    (w_free : msk .free = false) (w_mem : msk .mem = false) (w_ctr : msk .ctr = false) (w_parts : msk .parts = false)
    (w_io : msk .io = false) (w_hp : msk .hp = false) (w_evt : msk .evt = false) (w_tiers : msk .tiers = false)
    (w_rel : msk .rel = false) :
    Same msk s0 (State.poisonT1 s n) := by
  unfold State.poisonT1
  repeat' first
    | with_reducible first
      | assumption | exact Same.refl _ _ | apply State.count_same | apply State.failGroup_same
      | apply State.plogAdd_same | apply Same.ite | apply SameParts.same | apply SameParts.upd_mem
    | dsimp only | simp only [same_mk] | split

theorem State.poisonT0_same {msk : Field → Bool} {s0 s : State} (h0 : Same msk s0 s) (t : Nat) (n : Nat)
    (w_mem : msk .mem = false) (w_ctr : msk .ctr = false) (w_rel : msk .rel = false) :
    Same msk s0 (State.poisonT0 s t n) := by
  unfold State.poisonT0
  repeat' first
    | with_reducible first
      | assumption | exact Same.refl _ _ | apply State.count_same | apply State.plogAdd_same | apply Same.ite
      | apply SameParts.same | apply SameParts.upd_mem
    | dsimp only | simp only [same_mk] | split

theorem State.openSheets_same {msk : Field → Bool} {s0 s : State} (h0 : Same msk s0 s) (a : Nat) (len : Nat)
    (w_ctr : msk .ctr = false) :
    Same msk s0 (State.openSheets s a len) := by
  unfold State.openSheets
  repeat' first
    | with_reducible first
      | assumption | exact Same.refl _ _ | refine Same.each ?_ _ _ (fun _ _ _ => ?_) | apply State.count_same
      | intro _
    | dsimp only | split

theorem State.rebuild_same {msk : Field → Bool} {s0 s : State} (h0 : Same msk s0 s) (n : Nat)
    (w_ctr : msk .ctr = false) :
    Same msk s0 (State.rebuild s n) := by
  unfold State.rebuild
  repeat' first
    | with_reducible first
      | assumption | exact Same.refl _ _ | apply State.count_same | apply Same.ite
    | dsimp only | split

theorem State.rebuildIn_same {msk : Field → Bool} {s0 s : State} (h0 : Same msk s0 s) (a : Nat) (len : Nat)
    (w_ctr : msk .ctr = false) :
    Same msk s0 (State.rebuildIn s a len) := by
  unfold State.rebuildIn
  repeat' first
    | with_reducible first
      | assumption | exact Same.refl _ _ | refine Same.each ?_ _ _ (fun _ _ _ => ?_) | apply State.rebuild_same
      | apply Same.ite | intro _
    | dsimp only | split

theorem State.netGone_same {msk : Field → Bool} {s0 s : State} (h0 : Same msk s0 s) (k : Option CKey)
    (w_tiers : msk .tiers = false) :
    Same msk s0 (State.netGone s k) := by
  unfold State.netGone
  repeat' first
    | with_reducible first
      | assumption | exact Same.refl _ _ | apply SameParts.same | apply SameParts.upd_tiers
    | dsimp only | simp only [same_mk] | split

theorem State.cacheLook_same {msk : Field → Bool} {s0 s : State} (h0 : Same msk s0 s) (k : CKey)
    (w_ctr : msk .ctr = false) (w_tiers : msk .tiers = false) :
    Same msk s0 (State.cacheLook s k) := by
  unfold State.cacheLook
  repeat' first
    | with_reducible first
      | assumption | exact Same.refl _ _ | apply State.count_same | apply State.rebuild_same
      | apply State.netGone_same | apply SameParts.same | apply SameParts.upd_tiers
    | dsimp only | simp only [same_mk] | split

theorem State.netLook_same {msk : Field → Bool} {s0 s : State} (h0 : Same msk s0 s) (k : CKey)
    (w_ctr : msk .ctr = false) (w_tiers : msk .tiers = false) :
    Same msk s0 (State.netLook s k).2 := by
  unfold State.netLook
  repeat' first
    | with_reducible first
      | assumption | exact Same.refl _ _ | apply State.count_same | apply SameParts.same | apply SameParts.upd_tiers
    | dsimp only | simp only [same_mk] | split

theorem State.netFill_same {msk : Field → Bool} {s0 s : State} (h0 : Same msk s0 s) (k : CKey) (b : Bytes)
    (bad : Bool) (w_tiers : msk .tiers = false) :
    Same msk s0 (State.netFill s k b bad) := by
  unfold State.netFill
  repeat' first
    | with_reducible first
      | assumption | exact Same.refl _ _ | apply State.netGone_same | apply SameParts.same | apply SameParts.upd_tiers
    | dsimp only | simp only [same_mk] | split

theorem State.cacheDrop_same {msk : Field → Bool} {s0 s : State} (h0 : Same msk s0 s) (p : CKey → Bool)
    (w_tiers : msk .tiers = false) :
    Same msk s0 (State.cacheDrop s p) := by
  unfold State.cacheDrop
  repeat' first
    | with_reducible first
      | assumption | exact Same.refl _ _ | apply SameParts.same | apply SameParts.upd_tiers
    | dsimp only | simp only [same_mk] | split

theorem State.cacheWritten_same {msk : Field → Bool} {s0 s : State} (h0 : Same msk s0 s) (a : Nat) (len : Nat)
    (w_tiers : msk .tiers = false) :
    Same msk s0 (State.cacheWritten s a len) := by
  unfold State.cacheWritten
  repeat' first
    | with_reducible first
      | assumption | exact Same.refl _ _ | apply State.cacheDrop_same | apply Same.ite
    | dsimp only | split

theorem State.writeT1_same {msk : Field → Bool} {s0 s : State} (h0 : Same msk s0 s) (a : Nat) (b : Bytes)
    (poison : List Nat) (w_free : msk .free = false) (w_mem : msk .mem = false) (w_ctr : msk .ctr = false)
    (w_parts : msk .parts = false) (w_io : msk .io = false) (w_hp : msk .hp = false) (w_evt : msk .evt = false)
    (w_tiers : msk .tiers = false) (w_rel : msk .rel = false) :
    Same msk s0 (State.writeT1 s a b poison) := by
  unfold State.writeT1
  repeat' first
    | with_reducible first
      | assumption | exact Same.refl _ _ | refine Same.each ?_ _ _ (fun _ _ _ => ?_) | apply State.t1Write_same
      | apply State.poisonT1_same | apply State.cacheWritten_same | intro _
    | dsimp only | split

theorem State.modSeg_same {msk : Field → Bool} {s0 s : State} (h0 : Same msk s0 s) (p : Nat) (g : Nat) (f : Seg → Seg)
    (w_parts : msk .parts = false) :
    Same msk s0 (State.modSeg s p g f) := by
  unfold State.modSeg
  repeat' first
    | with_reducible first
      | assumption | exact Same.refl _ _ | apply State.modPart_same
    | dsimp only | split

theorem State.writeSeg_same {msk : Field → Bool} {s0 s : State} (h0 : Same msk s0 s) (use : Use) (p : Nat) (g : Nat)
    (off : Nat) (b : Bytes) (poison : List Nat) (w_free : msk .free = false) (w_mem : msk .mem = false)
    (w_ctr : msk .ctr = false) (w_parts : msk .parts = false) (w_io : msk .io = false) (w_hp : msk .hp = false)
    (w_evt : msk .evt = false) (w_posts : msk .posts = false) (w_tiers : msk .tiers = false)
    (w_rel : msk .rel = false) :
    Same msk s0 (State.writeSeg s use p g off b poison) := by
  unfold State.writeSeg
  repeat' first
    | with_reducible first
      | assumption | exact Same.refl _ _ | refine Same.each ?_ _ _ (fun _ _ _ => ?_) | apply State.writeHost_same
      | apply State.writeT1_same | apply Same.ite | intro _
    | dsimp only | split

theorem State.openRange_same {msk : Field → Bool} {s0 s : State} (h0 : Same msk s0 s) (p : Nat) (g : Nat) (off : Nat)
    (len : Nat) (read : Bool) (w_ctr : msk .ctr = false) :
    Same msk s0 (State.openRange s p g off len read) := by
  unfold State.openRange
  repeat' first
    | with_reducible first
      | assumption | exact Same.refl _ _ | refine Same.each ?_ _ _ (fun _ _ _ => ?_) | apply State.openSheets_same
      | apply State.rebuildIn_same | apply Same.ite | intro _
    | dsimp only | split

theorem State.pageUse_same {msk : Field → Bool} {s0 s : State} (h0 : Same msk s0 s) (t : Nat) (w_fe : msk .fe = false)
    :
    Same msk s0 (State.pageUse s t) := by
  unfold State.pageUse
  repeat' first
    | with_reducible first
      | assumption | exact Same.refl _ _ | apply SameParts.same | apply SameParts.upd_fe
    | dsimp only | simp only [same_mk] | split

theorem State.pageDrop_same {msk : Field → Bool} {s0 s : State} (h0 : Same msk s0 s) (p : Nat → Bool)
    (w_fe : msk .fe = false) :
    Same msk s0 (State.pageDrop s p) := by
  unfold State.pageDrop
  repeat' first
    | with_reducible first
      | assumption | exact Same.refl _ _ | apply SameParts.same | apply SameParts.upd_fe
    | dsimp only | simp only [same_mk] | split

theorem State.fqPut_same {msk : Field → Bool} {s0 s : State} (h0 : Same msk s0 s) (rec_ : Bytes)
    (w_fe : msk .fe = false) :
    Same msk s0 (State.fqPut s rec_) := by
  unfold State.fqPut
  repeat' first
    | with_reducible first
      | assumption | exact Same.refl _ _ | apply SameParts.same | apply SameParts.upd_fe
    | dsimp only | simp only [same_mk] | split

theorem State.faultWrite_same {msk : Field → Bool} {s0 s : State} (h0 : Same msk s0 s) (c : Cmd) (k : Nat) (n : Nat)
    (seg : Nat) (kind : Nat) (off : Nat) (pages : Nat) (w_free : msk .free = false) (w_mem : msk .mem = false)
    (w_ctr : msk .ctr = false) (w_parts : msk .parts = false) (w_fe : msk .fe = false) (w_io : msk .io = false)
    (w_hp : msk .hp = false) (w_evt : msk .evt = false) (w_posts : msk .posts = false) (w_tiers : msk .tiers = false)
    (w_rel : msk .rel = false) :
    Same msk s0 (State.faultWrite s c k n seg kind off pages) := by
  unfold State.faultWrite
  repeat' first
    | with_reducible first
      | assumption | exact Same.refl _ _ | apply State.modPart_same | apply State.count_same
      | apply State.causeTo_same | apply State.writeSeg_same | apply State.fqPut_same | apply Same.ite
      | apply SameParts.same | apply SameParts.upd_fe
    | dsimp only | simp only [same_mk] | split

theorem State.tileFault_same {msk : Field → Bool} {s0 s : State} (h0 : Same msk s0 s) (t : Nat) (c : Nat) (seg : Nat)
    (off : Nat) (pages : Nat) (w_free : msk .free = false) (w_ctr : msk .ctr = false) (w_parts : msk .parts = false)
    (w_fe : msk .fe = false) (w_io : msk .io = false) (w_hp : msk .hp = false) (w_evt : msk .evt = false) :
    Same msk s0 (State.tileFault s t c seg off pages) := by
  unfold State.tileFault
  repeat' first
    | with_reducible first
      | assumption | exact Same.refl _ _ | apply State.count_same | apply State.coreCause_same
      | apply State.fqPut_same | apply Same.ite | apply SameParts.same | apply SameParts.upd_fe
    | dsimp only | simp only [same_mk] | split

theorem State.freeTileFaults_same {msk : Field → Bool} {s0 s : State} (h0 : Same msk s0 s) (t : Nat)
    (w_fe : msk .fe = false) :
    Same msk s0 (State.freeTileFaults s t) := by
  unfold State.freeTileFaults
  repeat' first
    | with_reducible first
      | assumption | exact Same.refl _ _ | apply SameParts.same | apply SameParts.upd_fe
    | dsimp only | simp only [same_mk] | split

theorem State.unhold_same {msk : Field → Bool} {s0 s : State} (h0 : Same msk s0 s) (ring : Nat) (k : Nat)
    (w_fe : msk .fe = false) :
    Same msk s0 (State.unhold s ring k) := by
  unfold State.unhold
  repeat' first
    | with_reducible first
      | assumption | exact Same.refl _ _ | apply State.modRing_same | apply SameParts.same | apply SameParts.upd_fe
    | dsimp only | simp only [same_mk] | split

theorem State.faultPark_same {msk : Field → Bool} {s0 s : State} (h0 : Same msk s0 s) (k : Nat) (c : Cmd) (seg : Nat)
    (kind : Nat) (off : Nat) (pages : Nat) (w_free : msk .free = false) (w_mem : msk .mem = false)
    (w_ctr : msk .ctr = false) (w_parts : msk .parts = false) (w_fe : msk .fe = false) (w_io : msk .io = false)
    (w_hp : msk .hp = false) (w_evt : msk .evt = false) (w_posts : msk .posts = false) (w_tiers : msk .tiers = false)
    (w_rel : msk .rel = false) :
    Same msk s0 (State.faultPark s k c seg kind off pages) := by
  unfold State.faultPark
  repeat' first
    | with_reducible first
      | assumption | exact Same.refl _ _ | apply State.modRing_same | apply State.count_same
      | apply State.setPhase_same | apply State.faultWrite_same | apply State.unhold_same | apply Same.ite
      | apply SameParts.same | apply SameParts.upd_fe
    | dsimp only | simp only [same_mk] | split

theorem State.walk_same {msk : Field → Bool} {s0 s : State} (h0 : Same msk s0 s) (k : Nat) (w_fe : msk .fe = false) :
    Same msk s0 (State.walk s k) := by
  unfold State.walk
  repeat' first
    | with_reducible first
      | assumption | exact Same.refl _ _ | apply State.setPhase_same | apply Same.ite | apply SameParts.same
      | apply SameParts.upd_fe
    | dsimp only | simp only [same_mk] | split

theorem State.translate_same {msk : Field → Bool} {s0 s : State} (h0 : Same msk s0 s) (k : Nat) (c : Cmd)
    (rs : List Range) (w_free : msk .free = false) (w_mem : msk .mem = false) (w_ctr : msk .ctr = false)
    (w_parts : msk .parts = false) (w_fe : msk .fe = false) (w_io : msk .io = false) (w_hp : msk .hp = false)
    (w_evt : msk .evt = false) (w_posts : msk .posts = false) (w_tiers : msk .tiers = false)
    (w_rel : msk .rel = false) :
    Same msk s0 (State.translate s k c rs).2 := by
  unfold State.translate
  repeat' first
    | with_reducible first
      | assumption | exact Same.refl _ _ | refine Same.each ?_ _ _ (fun _ _ _ => ?_) | apply State.setCmd_same
      | apply State.count_same | apply State.finishIdle_same | apply State.pageUse_same | apply State.faultPark_same
      | apply State.walk_same | apply Same.ite | apply SameParts.same | apply SameParts.upd_fe | intro _
    | dsimp only | simp only [same_mk] | split

theorem State.segEntryRead_same {msk : Field → Bool} {s0 s : State} (h0 : Same msk s0 s) (w_free : msk .free = false)
    (w_ctr : msk .ctr = false) :
    Same msk s0 (State.segEntryRead s) := by
  unfold State.segEntryRead
  repeat' first
    | with_reducible first
      | assumption | exact Same.refl _ _ | apply State.count_same | apply State.freeVal_same | apply Same.ite
      | refine Same.of_snd (by assumption) ?_
    | dsimp only | split

theorem State.pageEntryRead_same {msk : Field → Bool} {s0 s : State} (h0 : Same msk s0 s) (p : Nat) (g : Nat)
    (page : Nat) (w_ctr : msk .ctr = false) :
    Same msk s0 (State.pageEntryRead s p g page) := by
  unfold State.pageEntryRead
  repeat' first
    | with_reducible first
      | assumption | exact Same.refl _ _ | apply State.openSheets_same | apply State.rebuild_same | apply Same.ite
    | dsimp only | split

theorem State.walkFill_same {msk : Field → Bool} {s0 s : State} (h0 : Same msk s0 s) (p : Nat) (g : Nat) (page : Nat)
    (w_free : msk .free = false) (w_ctr : msk .ctr = false) (w_fe : msk .fe = false) :
    Same msk s0 (State.walkFill s p g page) := by
  unfold State.walkFill
  repeat' first
    | with_reducible first
      | assumption | exact Same.refl _ _ | apply State.count_same | apply State.pageUse_same
      | apply State.segEntryRead_same | apply State.pageEntryRead_same | apply Same.ite | apply SameParts.same
      | apply SameParts.upd_fe
    | dsimp only | simp only [same_mk] | split

theorem State.poisonMapSheet_same {msk : Field → Bool} {s0 s : State} (h0 : Same msk s0 s) (p : Nat) (g : Nat)
    (page : Nat) (w_parts : msk .parts = false) (w_fe : msk .fe = false) :
    Same msk s0 (State.poisonMapSheet s p g page) := by
  unfold State.poisonMapSheet
  repeat' first
    | with_reducible first
      | assumption | exact Same.refl _ _ | apply State.modSeg_same | apply State.pageDrop_same
    | dsimp only | split

theorem State.dropCached_same {msk : Field → Bool} {s0 s : State} (h0 : Same msk s0 s) (p : Nat) (g : Nat)
    (w_fe : msk .fe = false) :
    Same msk s0 (State.dropCached s p g) := by
  unfold State.dropCached
  repeat' first
    | with_reducible first
      | assumption | exact Same.refl _ _ | apply State.pageDrop_same | apply SameParts.same | apply SameParts.upd_fe
    | dsimp only | simp only [same_mk] | split

theorem State.zeroRange_same {msk : Field → Bool} {s0 s : State} (h0 : Same msk s0 s) (tier : Nat) (a : Nat)
    (len : Nat) (w_mem : msk .mem = false) (w_tiers : msk .tiers = false) :
    Same msk s0 (State.zeroRange s tier a len) := by
  unfold State.zeroRange
  repeat' first
    | with_reducible first
      | assumption | exact Same.refl _ _ | refine Same.foldl ?_ _ _ (fun _ _ _ => ?_)
      | refine Same.foldl_fst _ _ (fun _ _ _ => ?_) _ ?_ | refine Same.foldl_snd _ _ (fun _ _ _ => ?_) _ ?_
      | apply State.cacheWritten_same | apply Same.ite | apply SameParts.same | apply SameParts.upd_mem
      | refine Same.of_fst (by assumption) ?_ | refine Same.of_snd (by assumption) ?_ | intro _
    | dsimp only | simp only [same_mk] | split

theorem State.modSlot_same {msk : Field → Bool} {s0 s : State} (h0 : Same msk s0 s) (k : Nat) (f : Slot → Slot)
    (w_slots : msk .slots = false) :
    Same msk s0 (State.modSlot s k f) := by
  unfold State.modSlot
  repeat' first
    | with_reducible first
      | assumption | exact Same.refl _ _ | apply SameParts.same | apply SameParts.upd_slots
    | dsimp only | simp only [same_mk] | split

theorem State.createSeg_same {msk : Field → Bool} {s0 s : State} (h0 : Same msk s0 s) (p : Nat) (d : Bytes)
    (w_mem : msk .mem = false) (w_parts : msk .parts = false) (w_slots : msk .slots = false)
    (w_tiers : msk .tiers = false) :
    Same msk s0 (State.createSeg s p d) := by
  unfold State.createSeg
  repeat' first
    | with_reducible first
      | assumption | exact Same.refl _ _ | apply State.modPart_same | apply State.zeroRange_same
      | apply State.modSlot_same | apply Same.ite
    | dsimp only | split

theorem State.rewriteMap_same {msk : Field → Bool} {s0 s : State} (h0 : Same msk s0 s) (p : Nat) (g : Nat) (v : Seg)
    (pages : List Nat) (w_mem : msk .mem = false) (w_parts : msk .parts = false) (w_fe : msk .fe = false) :
    Same msk s0 (State.rewriteMap s p g v pages) := by
  unfold State.rewriteMap
  repeat' first
    | with_reducible first
      | assumption | exact Same.refl _ _ | refine Same.each ?_ _ _ (fun _ _ _ => ?_) | apply State.poisonMapSheet_same
      | apply SameParts.same | apply SameParts.upd_mem | intro _
    | dsimp only | simp only [same_mk] | split

theorem State.zeroLost_same {msk : Field → Bool} {s0 s : State} (h0 : Same msk s0 s) (v : Seg) (ps : List (Nat × Nat))
    (w_mem : msk .mem = false) (w_tiers : msk .tiers = false) :
    Same msk s0 (State.zeroLost s v ps) := by
  unfold State.zeroLost
  repeat' first
    | with_reducible first
      | assumption | exact Same.refl _ _ | refine Same.each ?_ _ _ (fun _ _ _ => ?_) | apply State.zeroRange_same
      | apply Same.ite | intro _
    | dsimp only | split

theorem State.mapPages_same {msk : Field → Bool} {s0 s : State} (h0 : Same msk s0 s) (p : Nat) (d : Bytes)
    (w_mem : msk .mem = false) (w_parts : msk .parts = false) (w_fe : msk .fe = false) (w_tiers : msk .tiers = false)
    :
    Same msk s0 (State.mapPages s p d) := by
  unfold State.mapPages
  repeat' first
    | with_reducible first
      | assumption | exact Same.refl _ _ | refine Same.foldl ?_ _ _ (fun _ _ _ => ?_)
      | refine Same.foldl_fst _ _ (fun _ _ _ => ?_) _ ?_ | refine Same.foldl_snd _ _ (fun _ _ _ => ?_) _ ?_
      | apply State.modSeg_same | apply State.rewriteMap_same | apply State.zeroLost_same
      | refine Same.of_fst (by assumption) ?_ | refine Same.of_snd (by assumption) ?_ | intro _
    | dsimp only | split

theorem State.snoop_same {msk : Field → Bool} {s0 s : State} (h0 : Same msk s0 s) (ls : List Nat)
    (w_ctr : msk .ctr = false) (w_hp : msk .hp = false) :
    Same msk s0 (State.snoop s ls) := by
  unfold State.snoop
  repeat' first
    | with_reducible first
      | assumption | exact Same.refl _ _ | apply State.count_same | apply Same.ite | apply SameParts.same
      | apply SameParts.upd_hp
    | dsimp only | simp only [same_mk] | split

theorem State.snoopData_same {msk : Field → Bool} {s0 s : State} (h0 : Same msk s0 s) (ls : List Nat)
    (w_ctr : msk .ctr = false) (w_hp : msk .hp = false) :
    Same msk s0 (State.snoopData s ls) := by
  unfold State.snoopData
  repeat' first
    | with_reducible first
      | assumption | exact Same.refl _ _ | apply State.count_same | apply Same.ite | apply SameParts.same
      | apply SameParts.upd_hp
    | dsimp only | simp only [same_mk] | split

theorem State.readTaken_same {msk : Field → Bool} {s0 s : State} (h0 : Same msk s0 s) (ls : List Nat)
    (w_hp : msk .hp = false) :
    Same msk s0 (State.readTaken s ls) := by
  unfold State.readTaken
  repeat' first
    | with_reducible first
      | assumption | exact Same.refl _ _ | apply Same.ite | apply SameParts.same | apply SameParts.upd_hp
    | dsimp only | simp only [same_mk] | split

theorem State.openAsk_same {msk : Field → Bool} {s0 s : State} (h0 : Same msk s0 s) (p : Nat) (g : Nat) (off : Nat)
    (len : Nat) (write : Bool) (w_ctr : msk .ctr = false) (w_hp : msk .hp = false) :
    Same msk s0 (State.openAsk s p g off len write).2 := by
  unfold State.openAsk
  repeat' first
    | with_reducible first
      | assumption | exact Same.refl _ _ | apply State.openRange_same | apply State.snoop_same
      | apply State.snoopData_same | apply State.readTaken_same | apply Same.ite
    | dsimp only | split

theorem State.dropOper_same {msk : Field → Bool} {s0 s : State} (h0 : Same msk s0 s) (k : Nat)
    (w_io : msk .io = false) :
    Same msk s0 (State.dropOper s k) := by
  unfold State.dropOper
  repeat' first
    | with_reducible first
      | assumption | exact Same.refl _ _ | apply SameParts.same | apply SameParts.upd_io
    | dsimp only | simp only [same_mk] | split

theorem State.operAsk_same {msk : Field → Bool} {s0 s : State} (h0 : Same msk s0 s) (k : Nat) (p : Nat) (g : Nat)
    (off : Nat) (len : Nat) (w_io : msk .io = false) :
    Same msk s0 (State.operAsk s k p g off len).2 := by
  unfold State.operAsk
  repeat' first
    | with_reducible first
      | assumption | exact Same.refl _ _ | refine Same.each ?_ _ _ (fun _ _ _ => ?_) | apply State.issue_same
      | apply State.dropOper_same | apply Same.ite | intro _
    | dsimp only | split

theorem State.refuse_same {msk : Field → Bool} {s0 s : State} (h0 : Same msk s0 s) (k : Nat) (c : Cmd) (st : Nat)
    (w_ctr : msk .ctr = false) (w_fe : msk .fe = false) :
    Same msk s0 (State.refuse s k c st) := by
  unfold State.refuse
  repeat' first
    | with_reducible first
      | assumption | exact Same.refl _ _ | apply State.count_same | apply State.finishIdle_same | apply Same.ite
    | dsimp only | split

theorem State.front_same {msk : Field → Bool} {s0 s : State} (h0 : Same msk s0 s) (k : Nat) (op : Nat)
    (go : State → Cmd → State) (hgo : ∀ t x1, Same msk s0 t → Same msk s0 (go t x1)) (w_free : msk .free = false)
    (w_mem : msk .mem = false) (w_ctr : msk .ctr = false) (w_parts : msk .parts = false) (w_fe : msk .fe = false)
    (w_io : msk .io = false) (w_hp : msk .hp = false) (w_evt : msk .evt = false) (w_posts : msk .posts = false)
    (w_tiers : msk .tiers = false) (w_rel : msk .rel = false) :
    Same msk s0 (State.front s k op go) := by
  unfold State.front
  repeat' first
    | with_reducible first
      | assumption | exact Same.refl _ _ | apply hgo | apply State.finishIdle_same | apply State.translate_same
      | apply State.refuse_same | apply Same.ite | refine Same.of_snd (by assumption) ?_ | intro _
    | dsimp only | split

theorem State.postJudge_same {msk : Field → Bool} {s0 s : State} (h0 : Same msk s0 s) (k : Nat) (c : Cmd) (dir : Rd)
    (w_ctr : msk .ctr = false) (w_fe : msk .fe = false) (w_io : msk .io = false) (w_hp : msk .hp = false)
    (w_posts : msk .posts = false) :
    Same msk s0 (State.postJudge s k c dir) := by
  unfold State.postJudge
  repeat' first
    | with_reducible first
      | assumption | exact Same.refl _ _ | apply State.setPost_same | apply State.count_same
      | apply State.setPhase_same | apply State.finish_same | apply State.openAsk_same | apply State.operAsk_same
      | apply Same.ite | refine Same.of_snd (by assumption) ?_
    | dsimp only | split

theorem State.recheck_same {msk : Field → Bool} {s0 s : State} (h0 : Same msk s0 s) (k : Nat)
    (w_free : msk .free = false) (w_mem : msk .mem = false) (w_ctr : msk .ctr = false) (w_parts : msk .parts = false)
    (w_fe : msk .fe = false) (w_io : msk .io = false) (w_hp : msk .hp = false) (w_evt : msk .evt = false)
    (w_posts : msk .posts = false) (w_tiers : msk .tiers = false) (w_rel : msk .rel = false) :
    Same msk s0 (State.recheck s k) := by
  unfold State.recheck
  repeat' first
    | with_reducible first
      | assumption | exact Same.refl _ _ | apply State.count_same | apply State.finishIdle_same
      | apply State.unhold_same | apply State.faultPark_same | apply State.walk_same | apply Same.ite
    | dsimp only | split

theorem State.recheckHeld_same {msk : Field → Bool} {s0 s : State} (h0 : Same msk s0 s) (w_free : msk .free = false)
    (w_mem : msk .mem = false) (w_ctr : msk .ctr = false) (w_parts : msk .parts = false) (w_fe : msk .fe = false)
    (w_io : msk .io = false) (w_hp : msk .hp = false) (w_evt : msk .evt = false) (w_posts : msk .posts = false)
    (w_tiers : msk .tiers = false) (w_rel : msk .rel = false) :
    Same msk s0 (State.recheckHeld s) := by
  unfold State.recheckHeld
  repeat' first
    | with_reducible first
      | assumption | exact Same.refl _ _ | refine Same.each ?_ _ _ (fun _ _ _ => ?_) | apply State.recheck_same
      | intro _
    | dsimp only | split

theorem State.recheckFreed_same {msk : Field → Bool} {s0 s : State} (h0 : Same msk s0 s) (n : Nat)
    (w_free : msk .free = false) (w_mem : msk .mem = false) (w_ctr : msk .ctr = false) (w_parts : msk .parts = false)
    (w_fe : msk .fe = false) (w_io : msk .io = false) (w_hp : msk .hp = false) (w_evt : msk .evt = false)
    (w_posts : msk .posts = false) (w_tiers : msk .tiers = false) (w_rel : msk .rel = false) :
    Same msk s0 (State.recheckFreed s n) := by
  unfold State.recheckFreed
  repeat' first
    | with_reducible first
      | assumption | exact Same.refl _ _ | apply State.recheckHeld_same | apply Same.ite
    | dsimp only | split

theorem State.finishFree_same {msk : Field → Bool} {s0 s : State} (h0 : Same msk s0 s) (k : Nat) (status : Nat)
    (result : Nat) (flags : Nat) (w_free : msk .free = false) (w_mem : msk .mem = false) (w_ctr : msk .ctr = false)
    (w_parts : msk .parts = false) (w_fe : msk .fe = false) (w_io : msk .io = false) (w_hp : msk .hp = false)
    (w_evt : msk .evt = false) (w_posts : msk .posts = false) (w_tiers : msk .tiers = false)
    (w_rel : msk .rel = false) :
    Same msk s0 (State.finishFree s k status result flags) := by
  unfold State.finishFree
  repeat' first
    | with_reducible first
      | assumption | exact Same.refl _ _ | apply State.finish_same | apply State.recheckFreed_same
    | dsimp only | split

theorem State.segSetup_same {msk : Field → Bool} {s0 s : State} (h0 : Same msk s0 s) (k : Nat) (op : Nat)
    (go : State → Cmd → State) (hgo : ∀ t x1, Same msk s0 t → Same msk s0 (go t x1)) (w_free : msk .free = false)
    (w_mem : msk .mem = false) (w_ctr : msk .ctr = false) (w_parts : msk .parts = false) (w_fe : msk .fe = false)
    (w_io : msk .io = false) (w_hp : msk .hp = false) (w_evt : msk .evt = false) (w_posts : msk .posts = false)
    (w_tiers : msk .tiers = false) (w_rel : msk .rel = false) :
    Same msk s0 (State.segSetup s k op go) := by
  unfold State.segSetup
  repeat' first
    | with_reducible first
      | assumption | exact Same.refl _ _ | apply hgo | apply State.front_same | apply Same.ite | intro _
    | dsimp only | split

theorem execSegSetupCreate_same {msk : Field → Bool} (s : State) (ring : Nat) (seq : Nat) (w_free : msk .free = false)
    (w_mem : msk .mem = false) (w_ctr : msk .ctr = false) (w_parts : msk .parts = false) (w_fe : msk .fe = false)
    (w_io : msk .io = false) (w_hp : msk .hp = false) (w_evt : msk .evt = false) (w_posts : msk .posts = false)
    (w_slots : msk .slots = false) (w_tiers : msk .tiers = false) (w_rel : msk .rel = false) :
    ∃ t, execSegSetupCreate ring seq s = .next t ∧ Same msk s t := by
  refine ⟨_, rfl, ?_⟩
  repeat' first
    | with_reducible first
      | assumption | exact Same.refl _ _ | apply State.finish_same | apply State.createSeg_same
      | apply State.front_same | apply Same.ite | intro _
    | dsimp only | split

theorem execSegSetupMap_same {msk : Field → Bool} (s : State) (ring : Nat) (seq : Nat) (w_free : msk .free = false)
    (w_mem : msk .mem = false) (w_ctr : msk .ctr = false) (w_parts : msk .parts = false) (w_fe : msk .fe = false)
    (w_io : msk .io = false) (w_hp : msk .hp = false) (w_evt : msk .evt = false) (w_posts : msk .posts = false)
    (w_tiers : msk .tiers = false) (w_rel : msk .rel = false) :
    ∃ t, execSegSetupMap ring seq s = .next t ∧ Same msk s t := by
  refine ⟨_, rfl, ?_⟩
  repeat' first
    | with_reducible first
      | assumption | exact Same.refl _ _ | apply State.finish_same | apply State.dropCached_same
      | apply State.mapPages_same | apply State.snoop_same | apply State.segSetup_same | apply Same.ite | intro _
    | dsimp only | split

theorem execSegSetupFaultArea_same {msk : Field → Bool} (s : State) (ring : Nat) (seq : Nat)
    (w_free : msk .free = false) (w_mem : msk .mem = false) (w_ctr : msk .ctr = false) (w_parts : msk .parts = false)
    (w_fe : msk .fe = false) (w_io : msk .io = false) (w_hp : msk .hp = false) (w_evt : msk .evt = false)
    (w_posts : msk .posts = false) (w_tiers : msk .tiers = false) (w_rel : msk .rel = false) :
    ∃ t, execSegSetupFaultArea ring seq s = .next t ∧ Same msk s t := by
  refine ⟨_, rfl, ?_⟩
  repeat' first
    | with_reducible first
      | assumption | exact Same.refl _ _ | apply State.modPart_same | apply State.finish_same
      | apply State.segSetup_same | apply Same.ite | intro _
    | dsimp only | split

theorem State.startDrain_same {msk : Field → Bool} {s0 s : State} (h0 : Same msk s0 s) (d : SegDrain)
    (w_fe : msk .fe = false) :
    Same msk s0 (State.startDrain s d) := by
  unfold State.startDrain
  repeat' first
    | with_reducible first
      | assumption | exact Same.refl _ _ | apply SameParts.same | apply SameParts.upd_fe
    | dsimp only | simp only [same_mk] | split

theorem State.takeEffect_same {msk : Field → Bool} {s0 s : State} (h0 : Same msk s0 s) (k : Nat)
    (w_fe : msk .fe = false) :
    Same msk s0 (State.takeEffect s k) := by
  unfold State.takeEffect
  repeat' first
    | with_reducible first
      | assumption | exact Same.refl _ _ | apply State.setCmd_same
    | dsimp only | split

theorem execSegSetupUnmap_same {msk : Field → Bool} (s : State) (ring : Nat) (seq : Nat) (w_free : msk .free = false)
    (w_mem : msk .mem = false) (w_ctr : msk .ctr = false) (w_parts : msk .parts = false) (w_fe : msk .fe = false)
    (w_io : msk .io = false) (w_hp : msk .hp = false) (w_evt : msk .evt = false) (w_posts : msk .posts = false)
    (w_tiers : msk .tiers = false) (w_rel : msk .rel = false) :
    ∃ t, execSegSetupUnmap ring seq s = .next t ∧ Same msk s t := by
  refine ⟨_, rfl, ?_⟩
  repeat' first
    | with_reducible first
      | assumption | exact Same.refl _ _ | apply State.finish_same | apply State.dropCached_same
      | apply State.segSetup_same | apply State.startDrain_same | apply State.takeEffect_same | intro _
    | dsimp only | split

theorem execSegSetupRemove_same {msk : Field → Bool} (s : State) (ring : Nat) (seq : Nat) (w_free : msk .free = false)
    (w_mem : msk .mem = false) (w_ctr : msk .ctr = false) (w_parts : msk .parts = false) (w_fe : msk .fe = false)
    (w_io : msk .io = false) (w_hp : msk .hp = false) (w_evt : msk .evt = false) (w_posts : msk .posts = false)
    (w_net : msk .net = false) (w_tiers : msk .tiers = false) (w_rel : msk .rel = false) :
    ∃ t, execSegSetupRemove ring seq s = .next t ∧ Same msk s t := by
  refine ⟨_, rfl, ?_⟩
  repeat' first
    | with_reducible first
      | assumption | exact Same.refl _ _ | refine Same.each ?_ _ _ (fun _ _ _ => ?_) | apply State.finish_same
      | apply State.finishIdle_same | apply State.dropCached_same | apply State.recheckFreed_same
      | apply State.segSetup_same | apply State.startDrain_same | apply State.takeEffect_same | apply Same.ite
      | apply SameParts.same | apply SameParts.upd_net | intro _
    | dsimp only | simp only [same_mk] | split

theorem State.dropPages_same {msk : Field → Bool} {s0 s : State} (h0 : Same msk s0 s) (p : Nat) (g : Nat)
    (first : Nat) (n : Nat) (w_mem : msk .mem = false) (w_parts : msk .parts = false) (w_tiers : msk .tiers = false) :
    Same msk s0 (State.dropPages s p g first n) := by
  unfold State.dropPages
  repeat' first
    | with_reducible first
      | assumption | exact Same.refl _ _ | refine Same.each ?_ _ _ (fun _ _ _ => ?_) | apply State.modSeg_same
      | apply State.zeroRange_same | apply Same.ite | intro _
    | dsimp only | split

theorem State.removeSeg_same {msk : Field → Bool} {s0 s : State} (h0 : Same msk s0 s) (p : Nat) (g : Nat)
    (w_mem : msk .mem = false) (w_parts : msk .parts = false) (w_net : msk .net = false)
    (w_slots : msk .slots = false) (w_tiers : msk .tiers = false) :
    Same msk s0 (State.removeSeg s p g) := by
  unfold State.removeSeg
  repeat' first
    | with_reducible first
      | assumption | exact Same.refl _ _ | refine Same.each ?_ _ _ (fun _ _ _ => ?_) | apply State.modPart_same
      | apply State.zeroRange_same | apply State.modSlot_same | apply Same.ite | apply SameParts.same
      | apply SameParts.upd_net | intro _
    | dsimp only | simp only [same_mk] | split

theorem execFaultResumeEnd_same {msk : Field → Bool} (s : State) (ring : Nat) (seq : Nat) (w_free : msk .free = false)
    (w_mem : msk .mem = false) (w_ctr : msk .ctr = false) (w_parts : msk .parts = false) (w_fe : msk .fe = false)
    (w_io : msk .io = false) (w_hp : msk .hp = false) (w_evt : msk .evt = false) (w_posts : msk .posts = false)
    (w_tiers : msk .tiers = false) (w_rel : msk .rel = false) :
    ∃ t, execFaultResumeEnd ring seq s = .next t ∧ Same msk s t := by
  refine ⟨_, rfl, ?_⟩
  repeat' first
    | with_reducible first
      | assumption | exact Same.refl _ _ | refine Same.each ?_ _ _ (fun _ _ _ => ?_) | apply State.finish_same
      | apply State.finishIdle_same | apply State.front_same | apply State.recheckFreed_same | apply Same.ite
      | intro _
    | dsimp only | split

theorem execFaultRecordAccepted_same {msk : Field → Bool} (s : State) (part : Nat) (w_free : msk .free = false)
    (w_ctr : msk .ctr = false) (w_parts : msk .parts = false) (w_io : msk .io = false) (w_hp : msk .hp = false)
    (w_evt : msk .evt = false) :
    ∃ t, execFaultRecordAccepted part s = .next t ∧ Same msk s t := by
  refine ⟨_, rfl, ?_⟩
  repeat' first
    | with_reducible first
      | assumption | exact Same.refl _ _ | apply State.takeDone_same | apply State.causeTo_same | apply Same.ite
    | dsimp only | split

theorem State.store_same {msk : Field → Bool} {s0 s : State} (h0 : Same msk s0 s) (a : Nat) (mask : Word) (v : Word)
    (w_regs : msk .regs = false) :
    Same msk s0 (State.store s a mask v) := by
  unfold State.store
  repeat' first
    | with_reducible first
      | assumption | exact Same.refl _ _ | apply State.setReg_same
    | dsimp only | split

theorem State.writeStateLine_same {msk : Field → Bool} {s0 s : State} (h0 : Same msk s0 s) (n : Nat) (use : Use)
    (st : Nat) (w_ctr : msk .ctr = false) (w_io : msk .io = false) (w_posts : msk .posts = false) :
    Same msk s0 (State.writeStateLine s n use st) := by
  unfold State.writeStateLine
  repeat' first
    | with_reducible first
      | assumption | exact Same.refl _ _ | apply State.writeHost_same | apply Same.ite
    | dsimp only | split

theorem State.arm_same {msk : Field → Bool} {s0 s : State} (h0 : Same msk s0 s) (n : Nat) (w_ctr : msk .ctr = false)
    (w_fe : msk .fe = false) (w_io : msk .io = false) (w_posts : msk .posts = false) :
    Same msk s0 (State.arm s n) := by
  unfold State.arm
  repeat' first
    | with_reducible first
      | assumption | exact Same.refl _ _ | apply State.modRing_same | apply State.writeStateLine_same
    | dsimp only | split

theorem State.enableRing_same {msk : Field → Bool} {s0 s : State} (h0 : Same msk s0 s) (n : Nat)
    (w_ctr : msk .ctr = false) (w_fe : msk .fe = false) (w_io : msk .io = false) (w_posts : msk .posts = false) :
    Same msk s0 (State.enableRing s n) := by
  unfold State.enableRing
  repeat' first
    | with_reducible first
      | assumption | exact Same.refl _ _ | apply State.setRing_same | apply State.modRing_same | apply State.arm_same
      | apply Same.ite
    | dsimp only | split

theorem State.dropDesc_same {msk : Field → Bool} {s0 s : State} (h0 : Same msk s0 s) (n : Nat)
    (w_io : msk .io = false) :
    Same msk s0 (State.dropDesc s n) := by
  unfold State.dropDesc
  repeat' first
    | with_reducible first
      | assumption | exact Same.refl _ _ | apply SameParts.same | apply SameParts.upd_io
    | dsimp only | simp only [same_mk] | split

theorem State.readDescs_same {msk : Field → Bool} {s0 s : State} (h0 : Same msk s0 s) (n : Nat) (count : Nat)
    (w_fe : msk .fe = false) (w_io : msk .io = false) :
    Same msk s0 (State.readDescs s n count) := by
  unfold State.readDescs
  repeat' first
    | with_reducible first
      | assumption | exact Same.refl _ _ | apply State.modRing_same | apply State.issue_same
      | apply State.dropDesc_same | apply Same.ite
    | dsimp only | split

theorem State.disableRing_same {msk : Field → Bool} {s0 s : State} (h0 : Same msk s0 s) (n : Nat)
    (w_fe : msk .fe = false) (w_io : msk .io = false) :
    Same msk s0 (State.disableRing s n) := by
  unfold State.disableRing
  repeat' first
    | with_reducible first
      | assumption | exact Same.refl _ _ | apply State.setRing_same | apply State.dropDesc_same | apply Same.ite
    | dsimp only | split

theorem State.ringEnableBit_same {msk : Field → Bool} {s0 s : State} (h0 : Same msk s0 s) (n : Nat)
    (w_ctr : msk .ctr = false) (w_fe : msk .fe = false) (w_io : msk .io = false) (w_posts : msk .posts = false) :
    Same msk s0 (State.ringEnableBit s n) := by
  unfold State.ringEnableBit
  repeat' first
    | with_reducible first
      | assumption | exact Same.refl _ _ | apply State.enableRing_same | apply State.disableRing_same | apply Same.ite
    | dsimp only | split

theorem State.acceptMarks_same {msk : Field → Bool} {s0 s : State} (h0 : Same msk s0 s) (k : Nat)
    (w_fe : msk .fe = false) (w_sec : msk .sec = false) :
    Same msk s0 (State.acceptMarks s k) := by
  unfold State.acceptMarks
  repeat' first
    | with_reducible first
      | assumption | exact Same.refl _ _ | apply State.setCmd_same | apply Same.ite | apply SameParts.same
      | apply SameParts.upd_sec
    | dsimp only | simp only [same_mk] | split

theorem State.acceptDesc_same {msk : Field → Bool} {s0 s : State} (h0 : Same msk s0 s) (n : Nat) (d : Bytes)
    (w_fe : msk .fe = false) (w_io : msk .io = false) (w_sec : msk .sec = false) :
    Same msk s0 (State.acceptDesc s n d) := by
  unfold State.acceptDesc
  repeat' first
    | with_reducible first
      | assumption | exact Same.refl _ _ | apply State.modRing_same | apply State.setCmd_same
      | apply State.finish_same | apply State.dropOper_same | apply State.acceptMarks_same | apply Same.ite
    | dsimp only | split

theorem State.parkRing_same {msk : Field → Bool} {s0 s : State} (h0 : Same msk s0 s) (n : Nat)
    (w_ctr : msk .ctr = false) (w_fe : msk .fe = false) (w_io : msk .io = false) (w_posts : msk .posts = false) :
    Same msk s0 (State.parkRing s n) := by
  unfold State.parkRing
  repeat' first
    | with_reducible first
      | assumption | exact Same.refl _ _ | apply State.modRing_same | apply State.count_same
      | apply State.writeStateLine_same
    | dsimp only | split

theorem State.notVisible_same {msk : Field → Bool} {s0 s : State} (h0 : Same msk s0 s) (n : Nat)
    (w_ctr : msk .ctr = false) (w_fe : msk .fe = false) (w_io : msk .io = false) (w_posts : msk .posts = false) :
    Same msk s0 (State.notVisible s n) := by
  unfold State.notVisible
  repeat' first
    | with_reducible first
      | assumption | exact Same.refl _ _ | apply State.setRing_same | apply State.parkRing_same | apply Same.ite
    | dsimp only | split

theorem State.takeDescs_same {msk : Field → Bool} {s0 s : State} (h0 : Same msk s0 s) (n : Nat) (y0 : Bool)
    (y1 : List Rd) (w_ctr : msk .ctr = false) (w_fe : msk .fe = false) (w_io : msk .io = false)
    (w_posts : msk .posts = false) (w_sec : msk .sec = false) :
    Same msk s0 (State.takeDescs s n y0 y1) := by
  induction y1 generalizing s y0 with
  | nil =>
    unfold State.takeDescs
    repeat' first
      | with_reducible first
        | assumption | exact Same.refl _ _ | apply State.acceptDesc_same | apply State.notVisible_same
        | apply Same.ite
      | dsimp only | split
  | cons d ds ih =>
    unfold State.takeDescs
    repeat' first
      | with_reducible first
        | assumption | exact Same.refl _ _ | apply ih | apply State.acceptDesc_same | apply State.notVisible_same
        | apply Same.ite
      | dsimp only | split

theorem State.takeLine_same {msk : Field → Bool} {s0 s : State} (h0 : Same msk s0 s) (n : Nat) (line : Bytes)
    (w_ctr : msk .ctr = false) (w_fe : msk .fe = false) (w_io : msk .io = false) (w_posts : msk .posts = false) :
    Same msk s0 (State.takeLine s n line) := by
  unfold State.takeLine
  repeat' first
    | with_reducible first
      | assumption | exact Same.refl _ _ | apply State.setRing_same | apply State.count_same | apply State.arm_same
      | apply Same.ite
    | dsimp only | split

theorem State.putRecord_same {msk : Field → Bool} {s0 s : State} (h0 : Same msk s0 s) (n : Nat) (i : Nat) (d : Bytes)
    (w_ctr : msk .ctr = false) (w_io : msk .io = false) (w_posts : msk .posts = false) :
    Same msk s0 (State.putRecord s n i d) := by
  unfold State.putRecord
  repeat' first
    | with_reducible first
      | assumption | exact Same.refl _ _ | apply State.writeHost_same
    | dsimp only | split

theorem State.replay_same {msk : Field → Bool} {s0 s : State} (h0 : Same msk s0 s) (n : Nat) (y0 : Nat) (y1 : Nat)
    (w_ctr : msk .ctr = false) (w_fe : msk .fe = false) (w_io : msk .io = false) (w_posts : msk .posts = false) :
    Same msk s0 (State.replay s n y0 y1) := by
  induction y0 generalizing s y1 with
  | zero =>
    unfold State.replay
    repeat' first
      | with_reducible first
        | assumption | exact Same.refl _ _ | apply State.modRing_same | apply State.putRecord_same
      | dsimp only | split
  | succ k ih =>
    unfold State.replay
    repeat' first
      | with_reducible first
        | assumption | exact Same.refl _ _ | apply ih | apply State.modRing_same | apply State.putRecord_same
      | dsimp only | split

theorem State.resumeRing_same {msk : Field → Bool} {s0 s : State} (h0 : Same msk s0 s) (n : Nat)
    (w_ctr : msk .ctr = false) (w_fe : msk .fe = false) (w_io : msk .io = false) (w_posts : msk .posts = false) :
    Same msk s0 (State.resumeRing s n) := by
  unfold State.resumeRing
  repeat' first
    | with_reducible first
      | assumption | exact Same.refl _ _ | refine Same.foldl ?_ _ _ (fun _ _ _ => ?_)
      | refine Same.foldl_fst _ _ (fun _ _ _ => ?_) _ ?_ | refine Same.foldl_snd _ _ (fun _ _ _ => ?_) _ ?_
      | apply State.setRing_same | apply State.writeStateLine_same | apply State.arm_same | apply State.replay_same
      | apply Same.ite | refine Same.of_fst (by assumption) ?_ | refine Same.of_snd (by assumption) ?_ | intro _
    | dsimp only | split

theorem State.endRing_same {msk : Field → Bool} {s0 s : State} (h0 : Same msk s0 s) (n : Nat) (w_fe : msk .fe = false)
    :
    Same msk s0 (State.endRing s n) := by
  unfold State.endRing
  repeat' first
    | with_reducible first
      | assumption | exact Same.refl _ _ | apply State.modRing_same
    | dsimp only | split

theorem execRingEnable_same {msk : Field → Bool} (s : State) (ring : Nat) (w_ctr : msk .ctr = false)
    (w_regs : msk .regs = false) (w_fe : msk .fe = false) (w_io : msk .io = false) (w_posts : msk .posts = false) :
    ∃ t, execRingEnable ring s = .next t ∧ Same msk s t := by
  refine ⟨_, rfl, ?_⟩
  repeat' first
    | with_reducible first
      | assumption | exact Same.refl _ _ | apply State.store_same | apply State.ringEnableBit_same | apply Same.ite
    | dsimp only | split

theorem execRingDisable_same {msk : Field → Bool} (s : State) (ring : Nat) (w_ctr : msk .ctr = false)
    (w_regs : msk .regs = false) (w_fe : msk .fe = false) (w_io : msk .io = false) (w_posts : msk .posts = false) :
    ∃ t, execRingDisable ring s = .next t ∧ Same msk s t := by
  refine ⟨_, rfl, ?_⟩
  repeat' first
    | with_reducible first
      | assumption | exact Same.refl _ _ | apply State.store_same | apply State.ringEnableBit_same | apply Same.ite
    | dsimp only | split

theorem execRingServeTurn_same {msk : Field → Bool} (s : State) (ring : Nat) (w_ctr : msk .ctr = false)
    (w_fe : msk .fe = false) (w_io : msk .io = false) (w_posts : msk .posts = false) :
    ∃ t, execRingServeTurn ring s = .next t ∧ Same msk s t := by
  refine ⟨_, rfl, ?_⟩
  repeat' first
    | with_reducible first
      | assumption | exact Same.refl _ _ | apply State.arm_same | apply State.readDescs_same | apply Same.ite
      | apply SameParts.same | apply SameParts.upd_fe
    | dsimp only | simp only [same_mk] | split

theorem execDescriptorReadData_same {msk : Field → Bool} (s : State) (ring : Nat) (descs : List Rd)
    (w_ctr : msk .ctr = false) (w_fe : msk .fe = false) (w_io : msk .io = false) (w_posts : msk .posts = false)
    (w_sec : msk .sec = false) :
    ∃ t, execDescriptorReadData ring descs s = .next t ∧ Same msk s t := by
  refine ⟨_, rfl, ?_⟩
  repeat' first
    | with_reducible first
      | assumption | exact Same.refl _ _ | apply State.setRing_same | apply State.dropDesc_same
      | apply State.takeDescs_same | apply Same.ite
    | dsimp only | split

theorem execDescriptorRereadTimer_same {msk : Field → Bool} (s : State) (ring : Nat) (w_fe : msk .fe = false)
    (w_io : msk .io = false) :
    ∃ t, execDescriptorRereadTimer ring s = .next t ∧ Same msk s t := by
  refine ⟨_, rfl, ?_⟩
  repeat' first
    | with_reducible first
      | assumption | exact Same.refl _ _ | apply State.setRing_same | apply State.readDescs_same | apply Same.ite
    | dsimp only | split

theorem execArmWriteAccepted_same {msk : Field → Bool} (s : State) (ring : Nat) (w_fe : msk .fe = false)
    (w_io : msk .io = false) :
    ∃ t, execArmWriteAccepted ring s = .next t ∧ Same msk s t := by
  refine ⟨_, rfl, ?_⟩
  repeat' first
    | with_reducible first
      | assumption | exact Same.refl _ _ | apply State.modRing_same | apply State.takeDone_same | apply Same.ite
    | dsimp only | split

theorem execDoorbellRereadData_same {msk : Field → Bool} (s : State) (ring : Nat) (line : Bytes)
    (w_ctr : msk .ctr = false) (w_fe : msk .fe = false) (w_io : msk .io = false) (w_posts : msk .posts = false) :
    ∃ t, execDoorbellRereadData ring line s = .next t ∧ Same msk s t := by
  refine ⟨_, rfl, ?_⟩
  repeat' first
    | with_reducible first
      | assumption | exact Same.refl _ _ | apply State.takeLine_same | apply Same.ite
    | dsimp only | split

theorem execHostSnoop_same {msk : Field → Bool} (s : State) (addr : Nat) (invalidating : Bool)
    (w_parts : msk .parts = false) (w_fe : msk .fe = false) :
    ∃ t, execHostSnoop addr invalidating s = .next t ∧ Same msk s t := by
  refine ⟨_, rfl, ?_⟩
  repeat' first
    | with_reducible first
      | assumption | exact Same.refl _ _ | apply Same.ite | apply SameParts.same | apply SameParts.upd_fe
      | apply SameParts.upd_parts | apply SameParts.upd_parts_fe
    | dsimp only | simp only [same_mk] | split

theorem State.doorbellWrite_same {msk : Field → Bool} {s0 s : State} (h0 : Same msk s0 s) (qp : Nat) (off : Nat)
    (data : Bytes) (w_ctr : msk .ctr = false) (w_fe : msk .fe = false) (w_io : msk .io = false)
    (w_posts : msk .posts = false) :
    Same msk s0 (State.doorbellWrite s qp off data) := by
  unfold State.doorbellWrite
  repeat' first
    | with_reducible first
      | assumption | exact Same.refl _ _ | apply State.setRing_same | apply State.count_same
      | apply State.takeLine_same | apply Same.ite
    | dsimp only | split

theorem execDoorbellWindowWrite_same {msk : Field → Bool} (s : State) (qp : Nat) (off : Nat) (data : Bytes)
    (w_ctr : msk .ctr = false) (w_fe : msk .fe = false) (w_io : msk .io = false) (w_posts : msk .posts = false) :
    ∃ t, execDoorbellWindowWrite qp off data s = .next t ∧ Same msk s t := by
  refine ⟨_, rfl, ?_⟩
  repeat' first
    | with_reducible first
      | assumption | exact Same.refl _ _ | apply State.doorbellWrite_same | apply Same.ite
    | dsimp only | split

theorem execCompletionRecordWrite_same {msk : Field → Bool} (s : State) (ring : Nat) (w_ctr : msk .ctr = false)
    (w_fe : msk .fe = false) (w_io : msk .io = false) (w_posts : msk .posts = false) :
    ∃ t, execCompletionRecordWrite ring s = .next t ∧ Same msk s t := by
  refine ⟨_, rfl, ?_⟩
  repeat' first
    | with_reducible first
      | assumption | exact Same.refl _ _ | apply State.modRing_same | apply State.putRecord_same | apply Same.ite
    | dsimp only | split

theorem State.resumeSources_same {msk : Field → Bool} {s0 s : State} (h0 : Same msk s0 s) (p : Nat)
    (w_free : msk .free = false) (w_ctr : msk .ctr = false) (w_parts : msk .parts = false) (w_io : msk .io = false)
    (w_hp : msk .hp = false) (w_evt : msk .evt = false) :
    Same msk s0 (State.resumeSources s p) := by
  unfold State.resumeSources
  repeat' first
    | with_reducible first
      | assumption | exact Same.refl _ _ | refine Same.each ?_ _ _ (fun _ _ _ => ?_) | apply State.deliver_same
      | apply Same.ite | intro _
    | dsimp only | split

theorem State.resumeGo_same {msk : Field → Bool} {s0 s : State} (h0 : Same msk s0 s) (p : Nat)
    (w_free : msk .free = false) (w_ctr : msk .ctr = false) (w_parts : msk .parts = false) (w_io : msk .io = false)
    (w_hp : msk .hp = false) (w_evt : msk .evt = false) :
    Same msk s0 (State.resumeGo s p) := by
  unfold State.resumeGo
  repeat' first
    | with_reducible first
      | assumption | exact Same.refl _ _ | apply State.modPart_same | apply State.resumeSources_same | apply Same.ite
    | dsimp only | split

theorem State.resumed_same {msk : Field → Bool} {s0 s : State} (h0 : Same msk s0 s) (p : Nat)
    (w_free : msk .free = false) (w_ctr : msk .ctr = false) (w_parts : msk .parts = false) (w_io : msk .io = false)
    (w_hp : msk .hp = false) (w_evt : msk .evt = false) :
    Same msk s0 (State.resumed s p) := by
  unfold State.resumed
  repeat' first
    | with_reducible first
      | assumption | exact Same.refl _ _ | apply State.modPart_same | apply State.resumeGo_same
    | dsimp only | split

theorem execCompletionRecordAccepted_same {msk : Field → Bool} (s : State) (ring : Nat) (w_free : msk .free = false)
    (w_ctr : msk .ctr = false) (w_parts : msk .parts = false) (w_io : msk .io = false) (w_hp : msk .hp = false)
    (w_evt : msk .evt = false) :
    ∃ t, execCompletionRecordAccepted ring s = .next t ∧ Same msk s t := by
  refine ⟨_, rfl, ?_⟩
  repeat' first
    | with_reducible first
      | assumption | exact Same.refl _ _ | apply State.takeDone_same | apply State.raise_same
      | apply State.resumeGo_same
    | dsimp only | split

theorem State.storeImage_same {msk : Field → Bool} {s0 s : State} (h0 : Same msk s0 s) (n : Nat) (img : Bytes)
    (w_regs : msk .regs = false) :
    Same msk s0 (State.storeImage s n img) := by
  unfold State.storeImage
  repeat' first
    | with_reducible first
      | assumption | exact Same.refl _ _ | refine Same.each ?_ _ _ (fun _ _ _ => ?_) | apply State.store_same
      | intro _
    | dsimp only | split

theorem State.ringSetup_same {msk : Field → Bool} {s0 s : State} (h0 : Same msk s0 s) (k : Nat) (c : Cmd) (rd : Rd)
    (w_ctr : msk .ctr = false) (w_regs : msk .regs = false) (w_fe : msk .fe = false) (w_io : msk .io = false)
    (w_hp : msk .hp = false) (w_posts : msk .posts = false) :
    Same msk s0 (State.ringSetup s k c rd) := by
  unfold State.ringSetup
  repeat' first
    | with_reducible first
      | assumption | exact Same.refl _ _ | apply State.finish_same | apply State.openAsk_same
      | apply State.operAsk_same | apply State.enableRing_same | apply State.disableRing_same
      | apply State.resumeRing_same | apply State.storeImage_same | apply Same.ite
      | refine Same.of_snd (by assumption) ?_
    | dsimp only | split

theorem execRingSetup_same {msk : Field → Bool} (s : State) (ring : Nat) (seq : Nat) (img : Rd)
    (w_free : msk .free = false) (w_mem : msk .mem = false) (w_ctr : msk .ctr = false) (w_regs : msk .regs = false)
    (w_parts : msk .parts = false) (w_fe : msk .fe = false) (w_io : msk .io = false) (w_hp : msk .hp = false)
    (w_evt : msk .evt = false) (w_posts : msk .posts = false) (w_tiers : msk .tiers = false)
    (w_rel : msk .rel = false) :
    ∃ t, execRingSetup ring seq img s = .next t ∧ Same msk s t := by
  refine ⟨_, rfl, ?_⟩
  repeat' first
    | with_reducible first
      | assumption | exact Same.refl _ _ | apply State.front_same | apply State.ringSetup_same | intro _
    | dsimp only | split

theorem State.attached_same {msk : Field → Bool} {s0 s : State} (h0 : Same msk s0 s) (p : Nat) (offer : Nat)
    (remote : Bool) (w_parts : msk .parts = false) :
    Same msk s0 (State.attached s p offer remote) := by
  unfold State.attached
  repeat' first
    | with_reducible first
      | assumption | exact Same.refl _ _ | apply State.modPart_same | apply Same.ite
    | dsimp only | split

theorem State.attachLocal_same {msk : Field → Bool} {s0 s : State} (h0 : Same msk s0 s) (p : Nat)
    (w_free : msk .free = false) (w_ctr : msk .ctr = false) (w_parts : msk .parts = false) (w_fe : msk .fe = false)
    (w_io : msk .io = false) (w_hp : msk .hp = false) (w_evt : msk .evt = false) (w_posts : msk .posts = false) :
    Same msk s0 (State.attachLocal s p) := by
  unfold State.attachLocal
  repeat' first
    | with_reducible first
      | assumption | exact Same.refl _ _ | refine Same.each ?_ _ _ (fun _ _ _ => ?_) | apply State.causeTo_same
      | apply State.resumeRing_same | apply State.resumed_same | apply State.attached_same | apply Same.ite | intro _
    | dsimp only | split

theorem State.attachNow_same {msk : Field → Bool} {s0 s : State} (h0 : Same msk s0 s) (part : Nat)
    (w_free : msk .free = false) (w_ctr : msk .ctr = false) (w_parts : msk .parts = false) (w_fe : msk .fe = false)
    (w_io : msk .io = false) (w_hp : msk .hp = false) (w_evt : msk .evt = false) (w_posts : msk .posts = false) :
    Same msk s0 (State.attachNow s part) := by
  unfold State.attachNow
  repeat' first
    | with_reducible first
      | assumption | exact Same.refl _ _ | apply State.modPart_same | apply State.attachLocal_same | apply Same.ite
    | dsimp only | split

theorem execAttach_same {msk : Field → Bool} (s : State) (part : Nat) (w_free : msk .free = false)
    (w_ctr : msk .ctr = false) (w_parts : msk .parts = false) (w_fe : msk .fe = false) (w_io : msk .io = false)
    (w_hp : msk .hp = false) (w_evt : msk .evt = false) (w_posts : msk .posts = false) (w_pwr : msk .pwr = false) :
    ∃ t, execAttach part s = .next t ∧ Same msk s t := by
  refine ⟨_, rfl, ?_⟩
  repeat' first
    | with_reducible first
      | assumption | exact Same.refl _ _ | apply State.attachNow_same | apply Same.ite | apply SameParts.same
      | apply SameParts.upd_pwr
    | dsimp only | simp only [same_mk] | split

theorem State.makeDbWindow_same {msk : Field → Bool} {s0 s : State} (h0 : Same msk s0 s) (p : Nat) (qp : Nat)
    (tag : Nat) (w_net : msk .net = false) :
    Same msk s0 (State.makeDbWindow s p qp tag) := by
  unfold State.makeDbWindow
  repeat' first
    | with_reducible first
      | assumption | exact Same.refl _ _ | apply SameParts.same | apply SameParts.upd_net
    | dsimp only | simp only [same_mk] | split

theorem State.attachRemote_same {msk : Field → Bool} {s0 s : State} (h0 : Same msk s0 s) (p : Nat) (qp : Nat)
    (tag : Nat) (blk : Bytes) (w_free : msk .free = false) (w_ctr : msk .ctr = false) (w_regs : msk .regs = false)
    (w_parts : msk .parts = false) (w_fe : msk .fe = false) (w_io : msk .io = false) (w_hp : msk .hp = false)
    (w_evt : msk .evt = false) (w_posts : msk .posts = false) (w_net : msk .net = false) :
    Same msk s0 (State.attachRemote s p qp tag blk).1 := by
  unfold State.attachRemote
  repeat' first
    | with_reducible first
      | assumption | exact Same.refl _ _ | apply State.modRing_same | apply State.modPart_same
      | apply State.causeTo_same | apply State.ringEnableBit_same | apply State.resumeRing_same
      | apply State.resumed_same | apply State.storeImage_same | apply State.attached_same
      | apply State.makeDbWindow_same | apply Same.ite
    | dsimp only | split

theorem execPartAttach_same {msk : Field → Bool} (s : State) (ring : Nat) (seq : Nat) (w_free : msk .free = false)
    (w_mem : msk .mem = false) (w_ctr : msk .ctr = false) (w_parts : msk .parts = false) (w_fe : msk .fe = false)
    (w_io : msk .io = false) (w_hp : msk .hp = false) (w_evt : msk .evt = false) (w_posts : msk .posts = false)
    (w_tiers : msk .tiers = false) (w_rel : msk .rel = false) :
    ∃ t, execPartAttach ring seq s = .next t ∧ Same msk s t := by
  refine ⟨_, rfl, ?_⟩
  repeat' first
    | with_reducible first
      | assumption | exact Same.refl _ _ | apply State.modPart_same | apply State.setPhase_same
      | apply State.issue_same | apply State.finish_same | apply State.front_same | apply Same.ite | intro _
    | dsimp only | split

theorem State.attachBlockRead_same {msk : Field → Bool} {s0 s : State} (h0 : Same msk s0 s) (k : Nat) (p : Nat)
    (c : Cmd) (rd : Rd) (w_free : msk .free = false) (w_ctr : msk .ctr = false) (w_regs : msk .regs = false)
    (w_parts : msk .parts = false) (w_fe : msk .fe = false) (w_io : msk .io = false) (w_hp : msk .hp = false)
    (w_evt : msk .evt = false) (w_posts : msk .posts = false) (w_net : msk .net = false) :
    Same msk s0 (State.attachBlockRead s k p c rd) := by
  unfold State.attachBlockRead
  repeat' first
    | with_reducible first
      | assumption | exact Same.refl _ _ | apply State.modPart_same | apply State.freeVal_same
      | apply State.issue_same | apply State.attachRemote_same | apply Same.ite
      | refine Same.of_fst (by assumption) ?_ | refine Same.of_snd (by assumption) ?_
      | refine Same.of_fst3 (by assumption) ?_
    | dsimp only | split

theorem State.attachDone_same {msk : Field → Bool} {s0 s : State} (h0 : Same msk s0 s) (k : Nat) (p : Nat)
    (w_free : msk .free = false) (w_ctr : msk .ctr = false) (w_regs : msk .regs = false)
    (w_parts : msk .parts = false) (w_fe : msk .fe = false) (w_io : msk .io = false) (w_hp : msk .hp = false)
    (w_evt : msk .evt = false) (w_posts : msk .posts = false) (w_net : msk .net = false) :
    Same msk s0 (State.attachDone s k p) := by
  unfold State.attachDone
  repeat' first
    | with_reducible first
      | assumption | exact Same.refl _ _ | apply State.modPart_same | apply State.finish_same
      | apply State.attachRemote_same | apply Same.ite | refine Same.of_fst (by assumption) ?_
      | refine Same.of_fst3 (by assumption) ?_
    | dsimp only | split

theorem State.attachFailed_same {msk : Field → Bool} {s0 s : State} (h0 : Same msk s0 s) (k : Nat) (p : Nat)
    (w_parts : msk .parts = false) (w_fe : msk .fe = false) :
    Same msk s0 (State.attachFailed s k p) := by
  unfold State.attachFailed
  repeat' first
    | with_reducible first
      | assumption | exact Same.refl _ _ | apply State.modPart_same | apply State.finish_same
    | dsimp only | split

theorem State.dropPost_same {msk : Field → Bool} {s0 s : State} (h0 : Same msk s0 s) (k : Nat)
    (w_ctr : msk .ctr = false) (w_ream : msk .ream = false) (w_posts : msk .posts = false) :
    Same msk s0 (State.dropPost s k) := by
  unfold State.dropPost
  repeat' first
    | with_reducible first
      | assumption | exact Same.refl _ _ | apply State.leaveQueue_same | apply SameParts.same
      | apply SameParts.upd_posts
    | dsimp only | simp only [same_mk] | split

theorem State.endIdle_same {msk : Field → Bool} {s0 s : State} (h0 : Same msk s0 s) (ks : List Nat) (st : Nat)
    (w_free : msk .free = false) (w_mem : msk .mem = false) (w_ctr : msk .ctr = false) (w_parts : msk .parts = false)
    (w_fe : msk .fe = false) (w_io : msk .io = false) (w_hp : msk .hp = false) (w_evt : msk .evt = false)
    (w_ream : msk .ream = false) (w_posts : msk .posts = false) (w_tiers : msk .tiers = false)
    (w_rel : msk .rel = false) :
    Same msk s0 (State.endIdle s ks st) := by
  unfold State.endIdle
  repeat' first
    | with_reducible first
      | assumption | exact Same.refl _ _ | refine Same.each ?_ _ _ (fun _ _ _ => ?_) | apply State.finishIdle_same
      | apply State.recheckFreed_same | apply State.dropPost_same | intro _
    | dsimp only | split

theorem execPartDetach_same {msk : Field → Bool} (s : State) (ring : Nat) (seq : Nat) (w_free : msk .free = false)
    (w_mem : msk .mem = false) (w_ctr : msk .ctr = false) (w_parts : msk .parts = false) (w_fe : msk .fe = false)
    (w_io : msk .io = false) (w_hp : msk .hp = false) (w_evt : msk .evt = false) (w_ream : msk .ream = false)
    (w_posts : msk .posts = false) (w_tiers : msk .tiers = false) (w_rel : msk .rel = false) :
    ∃ t, execPartDetach ring seq s = .next t ∧ Same msk s t := by
  refine ⟨_, rfl, ?_⟩
  repeat' first
    | with_reducible first
      | assumption | exact Same.refl _ _ | refine Same.each ?_ _ _ (fun _ _ _ => ?_) | apply State.modPart_same
      | apply State.setPhase_same | apply State.finish_same | apply State.front_same | apply State.disableRing_same
      | apply State.endIdle_same | apply Same.ite | intro _
    | dsimp only | split

theorem State.clearPart_same {msk : Field → Bool} {s0 s : State} (h0 : Same msk s0 s) (p : Nat)
    (w_mem : msk .mem = false) (w_parts : msk .parts = false) (w_net : msk .net = false)
    (w_slots : msk .slots = false) (w_tiers : msk .tiers = false) :
    Same msk s0 (State.clearPart s p) := by
  unfold State.clearPart
  repeat' first
    | with_reducible first
      | assumption | exact Same.refl _ _ | refine Same.each ?_ _ _ (fun _ _ _ => ?_) | apply State.modPart_same
      | apply State.removeSeg_same | apply SameParts.same | apply SameParts.upd_net | apply SameParts.upd_slots
      | apply SameParts.upd_net_slots | intro _
    | dsimp only | simp only [same_mk] | split

theorem State.freePart_same {msk : Field → Bool} {s0 s : State} (h0 : Same msk s0 s) (p : Nat)
    (w_parts : msk .parts = false) (w_evt : msk .evt = false) :
    Same msk s0 (State.freePart s p) := by
  unfold State.freePart
  repeat' first
    | with_reducible first
      | assumption | exact Same.refl _ _ | refine Same.each ?_ _ _ (fun _ _ _ => ?_) | apply State.modPart_same
      | apply State.setSrc_same | intro _
    | dsimp only | split

theorem execDetachFinish_same {msk : Field → Bool} (s : State) (part : Nat) (w_mem : msk .mem = false)
    (w_ctr : msk .ctr = false) (w_parts : msk .parts = false) (w_fe : msk .fe = false) (w_hp : msk .hp = false)
    (w_evt : msk .evt = false) (w_net : msk .net = false) (w_slots : msk .slots = false)
    (w_tiers : msk .tiers = false) :
    ∃ t, execDetachFinish part s = .next t ∧ Same msk s t := by
  refine ⟨_, rfl, ?_⟩
  repeat' first
    | with_reducible first
      | assumption | exact Same.refl _ _ | refine Same.each ?_ _ _ (fun _ _ _ => ?_) | apply State.modPart_same
      | apply State.finish_same | apply State.snoop_same | apply State.endRing_same | apply State.clearPart_same
      | apply State.freePart_same | apply Same.ite | intro _
    | dsimp only | split

theorem execRingDrainDone_same {msk : Field → Bool} (s : State) (ring : Nat) (w_parts : msk .parts = false)
    (w_fe : msk .fe = false) (w_evt : msk .evt = false) :
    ∃ t, execRingDrainDone ring s = .next t ∧ Same msk s t := by
  refine ⟨_, rfl, ?_⟩
  repeat' first
    | with_reducible first
      | assumption | exact Same.refl _ _ | apply State.endRing_same | apply State.freePart_same | apply Same.ite
    | dsimp only | split

theorem State.failRecord_same {msk : Field → Bool} {s0 s : State} (h0 : Same msk s0 s) (k : Nat)
    (w_fe : msk .fe = false) :
    Same msk s0 (State.failRecord s k) := by
  unfold State.failRecord
  repeat' first
    | with_reducible first
      | assumption | exact Same.refl _ _ | apply State.modRing_same
    | dsimp only | split

theorem State.resultDropped_same {msk : Field → Bool} {s0 s : State} (h0 : Same msk s0 s) (k : Nat)
    (w_fe : msk .fe = false) (w_posts : msk .posts = false) :
    Same msk s0 (State.resultDropped s k) := by
  unfold State.resultDropped
  repeat' first
    | with_reducible first
      | assumption | exact Same.refl _ _ | apply State.modPost_same | apply State.failRecord_same
    | dsimp only | split

theorem State.dropXfers_same {msk : Field → Bool} {s0 s : State} (h0 : Same msk s0 s) (pick : Xfer → Bool)
    (w_free : msk .free = false) (w_ctr : msk .ctr = false) (w_parts : msk .parts = false) (w_fe : msk .fe = false)
    (w_io : msk .io = false) (w_hp : msk .hp = false) (w_evt : msk .evt = false) (w_posts : msk .posts = false) :
    Same msk s0 (State.dropXfers s pick) := by
  unfold State.dropXfers
  repeat' first
    | with_reducible first
      | assumption | exact Same.refl _ _ | refine Same.each ?_ _ _ (fun _ _ _ => ?_) | apply State.modRing_same
      | apply State.setSrc_same | apply State.finishIdle_same | apply State.resumeGo_same
      | apply State.attachFailed_same | apply State.resultDropped_same | apply SameParts.same | apply SameParts.upd_io
      | intro _
    | dsimp only | simp only [same_mk] | split

theorem State.detachPart_same {msk : Field → Bool} {s0 s : State} (h0 : Same msk s0 s) (p : Nat)
    (w_parts : msk .parts = false) (w_fe : msk .fe = false) (w_io : msk .io = false) (w_evt : msk .evt = false) :
    Same msk s0 (State.detachPart s p) := by
  unfold State.detachPart
  repeat' first
    | with_reducible first
      | assumption | exact Same.refl _ _ | refine Same.each ?_ _ _ (fun _ _ _ => ?_)
      | refine Same.foldl ?_ _ _ (fun _ _ _ => ?_) | refine Same.foldl_fst _ _ (fun _ _ _ => ?_) _ ?_
      | refine Same.foldl_snd _ _ (fun _ _ _ => ?_) _ ?_ | apply State.modPart_same | apply State.dropDesc_same
      | apply State.endRing_same | apply State.freePart_same | apply Same.ite | apply SameParts.same
      | apply SameParts.upd_fe | refine Same.of_fst (by assumption) ?_ | refine Same.of_snd (by assumption) ?_
      | intro _
    | dsimp only | simp only [same_mk] | split

theorem execCoalesceTimerExpiry_same {msk : Field → Bool} (s : State) (src : Nat) (w_free : msk .free = false)
    (w_ctr : msk .ctr = false) (w_parts : msk .parts = false) (w_io : msk .io = false) (w_hp : msk .hp = false)
    (w_evt : msk .evt = false) :
    ∃ t, execCoalesceTimerExpiry src s = .next t ∧ Same msk s t := by
  refine ⟨_, rfl, ?_⟩
  repeat' first
    | with_reducible first
      | assumption | exact Same.refl _ _ | apply State.deliver_same | apply Same.ite
    | dsimp only | split

theorem execEvtAck_same {msk : Field → Bool} (s : State) (value : Word) (w_free : msk .free = false)
    (w_ctr : msk .ctr = false) (w_parts : msk .parts = false) (w_io : msk .io = false) (w_hp : msk .hp = false)
    (w_evt : msk .evt = false) :
    ∃ t, execEvtAck value s = .next t ∧ Same msk s t := by
  refine ⟨_, rfl, ?_⟩
  repeat' first
    | with_reducible first
      | assumption | exact Same.refl _ _ | apply State.count_same | apply State.rearm_same | apply Same.ite
    | dsimp only | split

theorem execTrigger_same {msk : Field → Bool} (s : State) (value : Word) (w_tel : msk .tel = false) :
    ∃ t, execTrigger value s = .next t ∧ Same msk s t := by
  refine ⟨_, rfl, ?_⟩
  repeat' first
    | with_reducible first
      | assumption | exact Same.refl _ _ | apply Same.ite | apply SameParts.same | apply SameParts.upd_tel
    | dsimp only | simp only [same_mk] | split

theorem execTimePairComplete_same {msk : Field → Bool} (s : State) (w_tel : msk .tel = false) :
    ∃ t, execTimePairComplete s = .next t ∧ Same msk s t := by
  refine ⟨_, rfl, ?_⟩
  repeat' first
    | with_reducible first
      | assumption | exact Same.refl _ _ | apply Same.ite | apply SameParts.same | apply SameParts.upd_tel
    | dsimp only | simp only [same_mk] | split

theorem State.cntSelect_same {msk : Field → Bool} {s0 s : State} (h0 : Same msk s0 s) (value : Word)
    (w_tel : msk .tel = false) :
    Same msk s0 (State.cntSelect s value) := by
  unfold State.cntSelect
  repeat' first
    | with_reducible first
      | assumption | exact Same.refl _ _ | apply SameParts.same | apply SameParts.upd_tel
    | dsimp only | simp only [same_mk] | split

theorem execCntSel_same {msk : Field → Bool} (s : State) (value : Word) (w_tel : msk .tel = false) :
    ∃ t, execCntSel value s = .next t ∧ Same msk s t := by
  refine ⟨_, rfl, ?_⟩
  repeat' first
    | with_reducible first
      | assumption | exact Same.refl _ _ | apply State.cntSelect_same
    | dsimp only | split

theorem State.readCntLo_same {msk : Field → Bool} {s0 s : State} (h0 : Same msk s0 s) (w_bus : msk .bus = false)
    (w_ctr : msk .ctr = false) (w_tel : msk .tel = false) :
    Same msk s0 (State.readCntLo s) := by
  unfold State.readCntLo
  repeat' first
    | with_reducible first
      | assumption | exact Same.refl _ _ | apply State.setCtr_same | apply Same.ite | apply SameParts.same
      | apply SameParts.upd_bus_tel
    | dsimp only | simp only [same_mk] | split

theorem execCntLo_same {msk : Field → Bool} (s : State) (w_bus : msk .bus = false) (w_ctr : msk .ctr = false)
    (w_tel : msk .tel = false) :
    ∃ t, execCntLo s = .next t ∧ Same msk s t := by
  refine ⟨_, rfl, ?_⟩
  repeat' first
    | with_reducible first
      | assumption | exact Same.refl _ _ | apply State.readCntLo_same
    | dsimp only | split

end Sys2Proof.Machine
end

