-- ==== Sys2Proof/Laws/SameTile.lean ====
section
/-! SUPPORT. `Same` for the tile: issue, array, vector engine, transfers, and how a post ends:
the parts of the state each operation leaves alone. -/

namespace Sys2Proof.Machine
set_option linter.unusedTactic false
set_option linter.unreachableTactic false

theorem State.spWrite_same {msk : Field → Bool} {s0 s : State} (h0 : Same msk s0 s) (t : Nat) (line : Nat) (b : Bytes)
    (poison : List Nat) (w_mem : msk .mem = false) :
    Same msk s0 (State.spWrite s t line b poison) := by
  unfold State.spWrite
  repeat' first
    | with_reducible first
      | assumption | exact Same.refl _ _ | apply SameParts.same | apply SameParts.upd_mem
    | dsimp only | simp only [same_mk] | split

theorem State.spPatch_same {msk : Field → Bool} {s0 s : State} (h0 : Same msk s0 s) (t : Nat) (a : Nat) (b : Bytes)
    (w_mem : msk .mem = false) :
    Same msk s0 (State.spPatch s t a b) := by
  unfold State.spPatch
  repeat' first
    | with_reducible first
      | assumption | exact Same.refl _ _ | apply SameParts.same | apply SameParts.upd_mem
    | dsimp only | simp only [same_mk] | split

theorem State.setCtx_same {msk : Field → Bool} {s0 s : State} (h0 : Same msk s0 s) (t : Nat) (c : Nat) (v : Ctx)
    (w_tiles : msk .tiles = false) :
    Same msk s0 (State.setCtx s t c v) := by
  unfold State.setCtx
  repeat' first
    | with_reducible first
      | assumption | exact Same.refl _ _ | apply State.modTile_same
    | dsimp only | split

theorem State.modCtx_same {msk : Field → Bool} {s0 s : State} (h0 : Same msk s0 s) (t : Nat) (c : Nat) (f : Ctx → Ctx)
    (w_tiles : msk .tiles = false) :
    Same msk s0 (State.modCtx s t c f) := by
  unfold State.modCtx
  repeat' first
    | with_reducible first
      | assumption | exact Same.refl _ _ | apply State.setCtx_same
    | dsimp only | split

theorem State.stopGather_same {msk : Field → Bool} {s0 s : State} (h0 : Same msk s0 s) (k : Nat)
    (w_posts : msk .posts = false) (w_gat : msk .gat = false) :
    Same msk s0 (State.stopGather s k) := by
  unfold State.stopGather
  repeat' first
    | with_reducible first
      | assumption | exact Same.refl _ _ | apply State.modPost_same | apply Same.ite | apply SameParts.same
      | apply SameParts.upd_gat
    | dsimp only | simp only [same_mk] | split

theorem State.failPost_same {msk : Field → Bool} {s0 s : State} (h0 : Same msk s0 s) (k : Nat) (st : Nat)
    (w_posts : msk .posts = false) (w_tiles : msk .tiles = false) (w_gat : msk .gat = false) :
    Same msk s0 (State.failPost s k st) := by
  unfold State.failPost
  repeat' first
    | with_reducible first
      | assumption | exact Same.refl _ _ | apply State.modPost_same | apply State.stopGather_same | apply Same.ite
      | apply SameParts.same | apply SameParts.upd_tiles
    | dsimp only | simp only [same_mk] | split

theorem State.failCtx_same {msk : Field → Bool} {s0 s : State} (h0 : Same msk s0 s) (t : Nat) (c : Nat) (st : Nat)
    (w_posts : msk .posts = false) (w_tiles : msk .tiles = false) (w_gat : msk .gat = false) :
    Same msk s0 (State.failCtx s t c st) := by
  unfold State.failCtx
  repeat' first
    | with_reducible first
      | assumption | exact Same.refl _ _ | apply State.modCtx_same | apply State.failPost_same
    | dsimp only | split

theorem State.flagPost_same {msk : Field → Bool} {s0 s : State} (h0 : Same msk s0 s) (t : Nat) (c : Nat) (bit : Nat)
    (w_posts : msk .posts = false) :
    Same msk s0 (State.flagPost s t c bit) := by
  unfold State.flagPost
  repeat' first
    | with_reducible first
      | assumption | exact Same.refl _ _ | apply State.modPost_same
    | dsimp only | split

theorem State.release_same {msk : Field → Bool} {s0 s : State} (h0 : Same msk s0 s) (t : Nat) (c : Nat) (w : Bytes)
    (w_tiles : msk .tiles = false) :
    Same msk s0 (State.release s t c w) := by
  unfold State.release
  repeat' first
    | with_reducible first
      | assumption | exact Same.refl _ _ | refine Same.foldl ?_ _ _ (fun _ _ _ => ?_)
      | refine Same.foldl_fst _ _ (fun _ _ _ => ?_) _ ?_ | refine Same.foldl_snd _ _ (fun _ _ _ => ?_) _ ?_
      | apply State.modCtx_same | refine Same.of_fst (by assumption) ?_ | refine Same.of_snd (by assumption) ?_
      | intro _
    | dsimp only | split

theorem State.setOut_same {msk : Field → Bool} {s0 s : State} (h0 : Same msk s0 s) (t : Nat) (c : Nat) (w : Bytes)
    (w_ctr : msk .ctr = false) (w_posts : msk .posts = false) (w_tiles : msk .tiles = false)
    (w_gat : msk .gat = false) :
    Same msk s0 (State.setOut s t c w) := by
  unfold State.setOut
  repeat' first
    | with_reducible first
      | assumption | exact Same.refl _ _ | refine Same.foldl ?_ _ _ (fun _ _ _ => ?_)
      | refine Same.foldl_fst _ _ (fun _ _ _ => ?_) _ ?_ | refine Same.foldl_snd _ _ (fun _ _ _ => ?_) _ ?_
      | apply State.count_same | apply State.setCtx_same | apply State.failCtx_same | apply Same.ite
      | refine Same.of_fst (by assumption) ?_ | refine Same.of_snd (by assumption) ?_ | intro _
    | dsimp only | split

theorem State.signal_same {msk : Field → Bool} {s0 s : State} (h0 : Same msk s0 s) (t : Nat) (c : Nat) (w : Bytes)
    (w_ctr : msk .ctr = false) (w_posts : msk .posts = false) (w_tiles : msk .tiles = false)
    (w_gat : msk .gat = false) :
    Same msk s0 (State.signal s t c w) := by
  unfold State.signal
  repeat' first
    | with_reducible first
      | assumption | exact Same.refl _ _ | apply State.release_same | apply State.setOut_same
    | dsimp only | split

theorem State.consume_same {msk : Field → Bool} {s0 s : State} (h0 : Same msk s0 s) (t : Nat) (c : Nat)
    (lines : List Nat) (w_ream : msk .ream = false) (w_posts : msk .posts = false) (w_tiles : msk .tiles = false)
    (w_gat : msk .gat = false) (w_rel : msk .rel = false) :
    Same msk s0 (State.consume s t c lines) := by
  unfold State.consume
  repeat' first
    | with_reducible first
      | assumption | exact Same.refl _ _ | refine Same.each ?_ _ _ (fun _ _ _ => ?_) | apply State.modTile_same
      | apply State.plogAdd_same | apply State.failCtx_same | apply Same.ite | apply SameParts.same
      | apply SameParts.upd_ream | intro _
    | dsimp only | simp only [same_mk] | split

theorem State.modBank_same {msk : Field → Bool} {s0 s : State} (h0 : Same msk s0 s) (t : Nat) (b : Nat)
    (f : Bank → Bank) (w_tiles : msk .tiles = false) :
    Same msk s0 (State.modBank s t b f) := by
  unfold State.modBank
  repeat' first
    | with_reducible first
      | assumption | exact Same.refl _ _ | apply State.modTile_same
    | dsimp only | split

theorem State.advance_same {msk : Field → Bool} {s0 s : State} (h0 : Same msk s0 s) (t : Nat) (c : Nat)
    (w_posts : msk .posts = false) (w_tiles : msk .tiles = false) :
    Same msk s0 (State.advance s t c) := by
  unfold State.advance
  repeat' first
    | with_reducible first
      | assumption | exact Same.refl _ _ | apply State.setCtx_same | apply State.flagPost_same | apply Same.ite
    | dsimp only | split

theorem State.countSwitch_same {msk : Field → Bool} {s0 s : State} (h0 : Same msk s0 s) (t : Nat) (c : Nat)
    (w_ctr : msk .ctr = false) :
    Same msk s0 (State.countSwitch s t c) := by
  unfold State.countSwitch
  repeat' first
    | with_reducible first
      | assumption | exact Same.refl _ _ | apply State.count_same | apply Same.ite
    | dsimp only | split

theorem State.issue1_same {msk : Field → Bool} {s0 s : State} (h0 : Same msk s0 s) (t : Nat) (c : Nat) (op : Nat)
    (go : State → Bytes → Ctx → State) (hgo : ∀ t x1 x2, Same msk s0 t → Same msk s0 (go t x1 x2))
    (w_ctr : msk .ctr = false) (w_posts : msk .posts = false) (w_tiles : msk .tiles = false) :
    Same msk s0 (State.issue1 s t c op go) := by
  unfold State.issue1
  repeat' first
    | with_reducible first
      | assumption | exact Same.refl _ _ | apply hgo | apply State.advance_same | apply State.countSwitch_same
      | apply Same.ite | intro _
    | dsimp only | split

theorem State.fillCompute_same {msk : Field → Bool} {s0 s : State} (h0 : Same msk s0 s) (t : Nat) (j : FillJob)
    (b : WBlock) (w_tiles : msk .tiles = false) :
    Same msk s0 (State.fillCompute s t j b).1 := by
  unfold State.fillCompute
  repeat' first
    | with_reducible first
      | assumption | exact Same.refl _ _ | refine Same.foldl ?_ _ _ (fun _ _ _ => ?_)
      | refine Same.foldl_fst _ _ (fun _ _ _ => ?_) _ ?_ | refine Same.foldl_snd _ _ (fun _ _ _ => ?_) _ ?_
      | apply State.modBank_same | apply Same.ite | refine Same.of_fst (by assumption) ?_
      | refine Same.of_snd (by assumption) ?_ | intro _
    | dsimp only | split

theorem State.fillEnd_same {msk : Field → Bool} {s0 s : State} (h0 : Same msk s0 s) (t : Nat) (j : FillJob)
    (w_ctr : msk .ctr = false) (w_posts : msk .posts = false) (w_tiles : msk .tiles = false)
    (w_gat : msk .gat = false) :
    Same msk s0 (State.fillEnd s t j) := by
  unfold State.fillEnd
  repeat' first
    | with_reducible first
      | assumption | exact Same.refl _ _ | apply State.setOut_same | apply State.modBank_same | apply Same.ite
    | dsimp only | split

theorem State.dropFill_same {msk : Field → Bool} {s0 s : State} (h0 : Same msk s0 s) (t : Nat) (j : FillJob)
    (w_tiles : msk .tiles = false) :
    Same msk s0 (State.dropFill s t j) := by
  unfold State.dropFill
  repeat' first
    | with_reducible first
      | assumption | exact Same.refl _ _ | apply State.modTile_same
    | dsimp only | split

theorem State.plainResults_same {msk : Field → Bool} {s0 s : State} (h0 : Same msk s0 s) (v : Post) (n : Nat)
    (w_free : msk .free = false) :
    Same msk s0 (State.plainResults s v n).2 := by
  unfold State.plainResults
  repeat' first
    | with_reducible first
      | assumption | exact Same.refl _ _ | apply State.freeVals_same | refine Same.of_snd (by assumption) ?_
    | dsimp only | split

theorem State.sealResults_same {msk : Field → Bool} {s0 s : State} (h0 : Same msk s0 s) (k : Nat) (c : Cmd) (v : Post)
    (w_free : msk .free = false) (w_mem : msk .mem = false) (w_ctr : msk .ctr = false) (w_parts : msk .parts = false)
    (w_io : msk .io = false) (w_hp : msk .hp = false) (w_evt : msk .evt = false) (w_posts : msk .posts = false)
    (w_slots : msk .slots = false) (w_tiers : msk .tiers = false) (w_rel : msk .rel = false) :
    Same msk s0 (State.sealResults s k c v) := by
  unfold State.sealResults
  repeat' first
    | with_reducible first
      | assumption | exact Same.refl _ _ | apply State.count_same | apply State.writeSeg_same
      | apply State.modSlot_same | apply State.plainResults_same | refine Same.of_snd (by assumption) ?_
    | dsimp only | split

theorem State.freeOldVersion_same {msk : Field → Bool} {s0 s : State} (h0 : Same msk s0 s)
    (w_free : msk .free = false) (w_ctr : msk .ctr = false) (w_parts : msk .parts = false) (w_io : msk .io = false)
    (w_hp : msk .hp = false) (w_evt : msk .evt = false) (w_ream : msk .ream = false) :
    Same msk s0 (State.freeOldVersion s) := by
  unfold State.freeOldVersion
  repeat' first
    | with_reducible first
      | assumption | exact Same.refl _ _ | apply State.causeTo_same | apply Same.ite | apply SameParts.same
      | apply SameParts.upd_ream
    | dsimp only | simp only [same_mk] | split

theorem State.dropEsc_same {msk : Field → Bool} {s0 s : State} (h0 : Same msk s0 s) (k : Nat)
    (w_ream : msk .ream = false) :
    Same msk s0 (State.dropEsc s k) := by
  unfold State.dropEsc
  repeat' first
    | with_reducible first
      | assumption | exact Same.refl _ _ | apply SameParts.same | apply SameParts.upd_ream
    | dsimp only | simp only [same_mk] | split

theorem State.closeEsc_same {msk : Field → Bool} {s0 s : State} (h0 : Same msk s0 s) (k : Nat)
    (w_ream : msk .ream = false) :
    Same msk s0 (State.closeEsc s k) := by
  unfold State.closeEsc
  repeat' first
    | with_reducible first
      | assumption | exact Same.refl _ _ | apply Same.ite | apply SameParts.same | apply SameParts.upd_ream
    | dsimp only | simp only [same_mk] | split

theorem State.clearPost_same {msk : Field → Bool} {s0 s : State} (h0 : Same msk s0 s) (k : Nat)
    (w_free : msk .free = false) (w_ctr : msk .ctr = false) (w_parts : msk .parts = false) (w_io : msk .io = false)
    (w_hp : msk .hp = false) (w_evt : msk .evt = false) (w_ream : msk .ream = false) (w_posts : msk .posts = false)
    (w_tiles : msk .tiles = false) (w_tiers : msk .tiers = false) (w_gat : msk .gat = false) :
    Same msk s0 (State.clearPost s k) := by
  unfold State.clearPost
  repeat' first
    | with_reducible first
      | assumption | exact Same.refl _ _ | apply State.cacheDrop_same | apply State.dropPost_same
      | apply State.freeOldVersion_same | apply SameParts.same | apply SameParts.upd_gat | apply SameParts.upd_tiles
      | apply SameParts.upd_tiles_gat
    | dsimp only | simp only [same_mk] | split

theorem State.stepTaken_same {msk : Field → Bool} {s0 s : State} (h0 : Same msk s0 s) (step : Option Nat)
    (w_ctr : msk .ctr = false) :
    Same msk s0 (State.stepTaken s step) := by
  unfold State.stepTaken
  repeat' first
    | with_reducible first
      | assumption | exact Same.refl _ _ | refine Same.each ?_ _ _ (fun _ _ _ => ?_) | apply State.setCtr_same
      | apply Same.ite | intro _
    | dsimp only | split

theorem State.completePost_same {msk : Field → Bool} {s0 s : State} (h0 : Same msk s0 s) (k : Nat) (st : Nat)
    (w_free : msk .free = false) (w_mem : msk .mem = false) (w_ctr : msk .ctr = false) (w_parts : msk .parts = false)
    (w_fe : msk .fe = false) (w_io : msk .io = false) (w_hp : msk .hp = false) (w_evt : msk .evt = false)
    (w_ream : msk .ream = false) (w_posts : msk .posts = false) (w_slots : msk .slots = false)
    (w_tiles : msk .tiles = false) (w_tiers : msk .tiers = false) (w_gat : msk .gat = false)
    (w_rel : msk .rel = false) :
    Same msk s0 (State.completePost s k st) := by
  unfold State.completePost
  repeat' first
    | with_reducible first
      | assumption | exact Same.refl _ _ | apply State.count_same | apply State.causeAll_same
      | apply State.finish_same | apply State.sealResults_same | apply State.dropEsc_same | apply State.closeEsc_same
      | apply State.clearPost_same | apply State.stepTaken_same | apply Same.ite
    | dsimp only | split

theorem State.settle_same {msk : Field → Bool} {s0 s : State} (h0 : Same msk s0 s) (k : Nat)
    (w_free : msk .free = false) (w_mem : msk .mem = false) (w_ctr : msk .ctr = false) (w_parts : msk .parts = false)
    (w_fe : msk .fe = false) (w_io : msk .io = false) (w_hp : msk .hp = false) (w_evt : msk .evt = false)
    (w_ream : msk .ream = false) (w_posts : msk .posts = false) (w_slots : msk .slots = false)
    (w_tiles : msk .tiles = false) (w_tiers : msk .tiers = false) (w_gat : msk .gat = false)
    (w_rel : msk .rel = false) :
    Same msk s0 (State.settle s k) := by
  unfold State.settle
  repeat' first
    | with_reducible first
      | assumption | exact Same.refl _ _ | apply State.completePost_same | apply Same.ite
    | dsimp only | split

theorem execFill_same {msk : Field → Bool} (s : State) (tile : Nat) (ctx : Nat) (w_ctr : msk .ctr = false)
    (w_posts : msk .posts = false) (w_tiles : msk .tiles = false) (w_gat : msk .gat = false) :
    ∃ t, execFill tile ctx s = .next t ∧ Same msk s t := by
  refine ⟨_, rfl, ?_⟩
  repeat' first
    | with_reducible first
      | assumption | exact Same.refl _ _ | apply State.modTile_same | apply State.release_same
      | apply State.modBank_same | apply State.issue1_same | apply State.fillEnd_same | apply Same.ite | intro _
    | dsimp only | split

theorem execWeightLoadDone_same {msk : Field → Bool} (s : State) (tile : Nat) (w_ctr : msk .ctr = false)
    (w_tiles : msk .tiles = false) :
    ∃ t, execWeightLoadDone tile s = .next t ∧ Same msk s t := by
  refine ⟨_, rfl, ?_⟩
  repeat' first
    | with_reducible first
      | assumption | exact Same.refl _ _ | apply State.count_same | apply State.modTile_same | apply Same.ite
    | dsimp only | split

theorem State.stopFill_same {msk : Field → Bool} {s0 s : State} (h0 : Same msk s0 s) (t : Nat) (j : FillJob)
    (w_tiles : msk .tiles = false) :
    Same msk s0 (State.stopFill s t j) := by
  unfold State.stopFill
  repeat' first
    | with_reducible first
      | assumption | exact Same.refl _ _ | apply State.modTile_same
    | dsimp only | split

theorem State.skew_same {msk : Field → Bool} {s0 s : State} (h0 : Same msk s0 s) (t : Nat) (c : Nat)
    (w_ctr : msk .ctr = false) (w_posts : msk .posts = false) (w_tiles : msk .tiles = false)
    (w_gat : msk .gat = false) :
    Same msk s0 (State.skew s t c) := by
  unfold State.skew
  repeat' first
    | with_reducible first
      | assumption | exact Same.refl _ _ | apply State.count_same | apply State.failCtx_same
    | dsimp only | split

theorem State.startFill_same {msk : Field → Bool} {s0 s : State} (h0 : Same msk s0 s) (t : Nat) (j : FillJob)
    (b : WBlock) (w_ctr : msk .ctr = false) (w_ream : msk .ream = false) (w_posts : msk .posts = false)
    (w_tiles : msk .tiles = false) (w_gat : msk .gat = false) (w_rel : msk .rel = false) :
    Same msk s0 (State.startFill s t j b) := by
  unfold State.startFill
  repeat' first
    | with_reducible first
      | assumption | exact Same.refl _ _ | apply State.modTile_same | apply State.modCtx_same
      | apply State.flagPost_same | apply State.release_same | apply State.consume_same | apply State.fillCompute_same
      | apply State.stopFill_same | apply State.skew_same | apply Same.ite | refine Same.of_fst (by assumption) ?_
      | refine Same.of_fst3 (by assumption) ?_
    | dsimp only | split

theorem execFillStart_same {msk : Field → Bool} (s : State) (tile : Nat) (w_ctr : msk .ctr = false)
    (w_ream : msk .ream = false) (w_posts : msk .posts = false) (w_tiles : msk .tiles = false)
    (w_gat : msk .gat = false) (w_rel : msk .rel = false) :
    ∃ t, execFillStart tile s = .next t ∧ Same msk s t := by
  refine ⟨_, rfl, ?_⟩
  repeat' first
    | with_reducible first
      | assumption | exact Same.refl _ _ | apply State.setTile_same | apply State.startFill_same
    | dsimp only | split

theorem execFillComplete_same {msk : Field → Bool} (s : State) (tile : Nat) (w_ctr : msk .ctr = false)
    (w_posts : msk .posts = false) (w_tiles : msk .tiles = false) (w_gat : msk .gat = false) :
    ∃ t, execFillComplete tile s = .next t ∧ Same msk s t := by
  refine ⟨_, rfl, ?_⟩
  repeat' first
    | with_reducible first
      | assumption | exact Same.refl _ _ | apply State.fillEnd_same | apply State.stopFill_same
    | dsimp only | split

theorem State.streamRow_same {msk : Field → Bool} {s0 s : State} (h0 : Same msk s0 s) (t : Nat) (w : Bytes)
    (depth : Nat) (r : Nat) (w_free : msk .free = false) :
    Same msk s0 (State.streamRow s t w depth r).2 := by
  unfold State.streamRow
  repeat' first
    | with_reducible first
      | assumption | exact Same.refl _ _ | apply State.freeVals_same | apply Same.ite
      | refine Same.of_snd (by assumption) ?_
    | dsimp only | split

theorem State.streamPut_same {msk : Field → Bool} {s0 s : State} (h0 : Same msk s0 s) (t : Nat) (line : Nat)
    (cols : Nat) (row : List Word) (bad : Bool) (w_mem : msk .mem = false) :
    Same msk s0 (State.streamPut s t line cols row bad) := by
  unfold State.streamPut
  repeat' first
    | with_reducible first
      | assumption | exact Same.refl _ _ | apply State.spWrite_same | apply State.spPatch_same | apply Same.ite
      | apply SameParts.same | apply SameParts.upd_mem
    | dsimp only | simp only [same_mk] | split

theorem State.streamRun_same {msk : Field → Bool} {s0 s : State} (h0 : Same msk s0 s) (t : Nat) (y0 : Nat)
    (w_free : msk .free = false) (w_mem : msk .mem = false) (w_ctr : msk .ctr = false) (w_posts : msk .posts = false)
    (w_tiles : msk .tiles = false) (w_gat : msk .gat = false) :
    Same msk s0 (State.streamRun s t y0) := by
  induction y0 generalizing s with
  | zero =>
    unfold State.streamRun
    repeat' first
      | with_reducible first
        | assumption | exact Same.refl _ _ | apply State.modTile_same | apply State.signal_same
        | apply State.streamRow_same | apply State.streamPut_same | apply Same.ite
        | refine Same.of_snd (by assumption) ?_
      | dsimp only | split
  | succ k ih =>
    unfold State.streamRun
    repeat' first
      | with_reducible first
        | assumption | exact Same.refl _ _ | apply ih | apply State.modTile_same | apply State.signal_same
        | apply State.streamRow_same | apply State.streamPut_same | apply Same.ite
        | refine Same.of_snd (by assumption) ?_
      | dsimp only | split

theorem State.streamOn_same {msk : Field → Bool} {s0 s : State} (h0 : Same msk s0 s) (t : Nat)
    (w_free : msk .free = false) (w_mem : msk .mem = false) (w_ctr : msk .ctr = false) (w_posts : msk .posts = false)
    (w_tiles : msk .tiles = false) (w_gat : msk .gat = false) :
    Same msk s0 (State.streamOn s t) := by
  unfold State.streamOn
  repeat' first
    | with_reducible first
      | assumption | exact Same.refl _ _ | apply State.streamRun_same
    | dsimp only | split

theorem State.startStream_same {msk : Field → Bool} {s0 s : State} (h0 : Same msk s0 s) (t : Nat) (c : Option Nat)
    (w : Bytes) (w_free : msk .free = false) (w_mem : msk .mem = false) (w_ctr : msk .ctr = false)
    (w_posts : msk .posts = false) (w_tiles : msk .tiles = false) (w_gat : msk .gat = false) :
    Same msk s0 (State.startStream s t c w) := by
  unfold State.startStream
  repeat' first
    | with_reducible first
      | assumption | exact Same.refl _ _ | apply State.modTile_same | apply State.streamOn_same
    | dsimp only | split

theorem execStream_same {msk : Field → Bool} (s : State) (tile : Nat) (word : Bytes) (w_free : msk .free = false)
    (w_mem : msk .mem = false) (w_ctr : msk .ctr = false) (w_parts : msk .parts = false) (w_io : msk .io = false)
    (w_hp : msk .hp = false) (w_evt : msk .evt = false) (w_posts : msk .posts = false) (w_tiles : msk .tiles = false)
    (w_gat : msk .gat = false) :
    ∃ t, execStream tile word s = .next t ∧ Same msk s t := by
  refine ⟨_, rfl, ?_⟩
  repeat' first
    | with_reducible first
      | assumption | exact Same.refl _ _ | apply State.count_same | apply State.causeAll_same
      | apply State.issue1_same | apply State.startStream_same | apply Same.ite | intro _
    | dsimp only | split

theorem State.queries_same {msk : Field → Bool} {s0 s : State} (h0 : Same msk s0 s) (c : Ctx)
    (w_free : msk .free = false) :
    Same msk s0 (State.queries s c).2 := by
  unfold State.queries
  repeat' first
    | with_reducible first
      | assumption | exact Same.refl _ _ | apply State.freeVal_same | refine Same.of_snd (by assumption) ?_
    | dsimp only | split

theorem execDeckle_same {msk : Field → Bool} (s : State) (tile : Nat) (ctx : Nat) (w_free : msk .free = false)
    (w_ctr : msk .ctr = false) (w_posts : msk .posts = false) (w_tiles : msk .tiles = false)
    (w_gat : msk .gat = false) :
    ∃ t, execDeckle tile ctx s = .next t ∧ Same msk s t := by
  refine ⟨_, rfl, ?_⟩
  repeat' first
    | with_reducible first
      | assumption | exact Same.refl _ _ | apply State.modCtx_same | apply State.signal_same | apply State.issue1_same
      | apply State.queries_same | apply Same.ite | refine Same.of_snd (by assumption) ?_ | intro _
    | dsimp only | split

theorem execWait_same {msk : Field → Bool} (s : State) (tile : Nat) (ctx : Nat) (w_ctr : msk .ctr = false)
    (w_posts : msk .posts = false) (w_tiles : msk .tiles = false) (w_gat : msk .gat = false) :
    ∃ t, execWait tile ctx s = .next t ∧ Same msk s t := by
  refine ⟨_, rfl, ?_⟩
  repeat' first
    | with_reducible first
      | assumption | exact Same.refl _ _ | apply State.signal_same | apply State.issue1_same | intro _
    | dsimp only | split

theorem execEndOp_same {msk : Field → Bool} (s : State) (tile : Nat) (ctx : Nat) (w_ctr : msk .ctr = false)
    (w_posts : msk .posts = false) (w_tiles : msk .tiles = false) :
    ∃ t, execEndOp tile ctx s = .next t ∧ Same msk s t := by
  refine ⟨_, rfl, ?_⟩
  repeat' first
    | with_reducible first
      | assumption | exact Same.refl _ _ | apply State.modCtx_same | apply State.issue1_same | intro _
    | dsimp only | split

theorem State.sendCounts_same {msk : Field → Bool} {s0 s : State} (h0 : Same msk s0 s) (t : Nat) (c : Ctx)
    (w_ream : msk .ream = false) :
    Same msk s0 (State.sendCounts s t c) := by
  unfold State.sendCounts
  repeat' first
    | with_reducible first
      | assumption | exact Same.refl _ _ | apply SameParts.same | apply SameParts.upd_ream
    | dsimp only | simp only [same_mk] | split

theorem execEndComplete_same {msk : Field → Bool} (s : State) (tile : Nat) (ctx : Nat) (w_free : msk .free = false)
    (w_mem : msk .mem = false) (w_ctr : msk .ctr = false) (w_parts : msk .parts = false) (w_fe : msk .fe = false)
    (w_io : msk .io = false) (w_hp : msk .hp = false) (w_evt : msk .evt = false) (w_ream : msk .ream = false)
    (w_posts : msk .posts = false) (w_slots : msk .slots = false) (w_tiles : msk .tiles = false)
    (w_tiers : msk .tiers = false) (w_gat : msk .gat = false) (w_rel : msk .rel = false) :
    ∃ t, execEndComplete tile ctx s = .next t ∧ Same msk s t := by
  refine ⟨_, rfl, ?_⟩
  repeat' first
    | with_reducible first
      | assumption | exact Same.refl _ _ | apply State.modTile_same | apply State.settle_same
      | apply State.sendCounts_same | apply Same.ite
    | dsimp only | split

theorem State.vecPut_same {msk : Field → Bool} {s0 s : State} (h0 : Same msk s0 s) (t : Nat) (o : VecOut)
    (w_tiles : msk .tiles = false) :
    Same msk s0 (State.vecPut s t o) := by
  unfold State.vecPut
  repeat' first
    | with_reducible first
      | assumption | exact Same.refl _ _ | apply State.modTile_same | apply Same.ite
    | dsimp only | split

theorem State.vecLand_same {msk : Field → Bool} {s0 s : State} (h0 : Same msk s0 s) (t : Nat) (o : VecOut)
    (w_mem : msk .mem = false) :
    Same msk s0 (State.vecLand s t o) := by
  unfold State.vecLand
  repeat' first
    | with_reducible first
      | assumption | exact Same.refl _ _ | apply State.spWrite_same | apply State.spPatch_same | apply Same.ite
    | dsimp only | split

theorem State.putRow_same {msk : Field → Bool} {s0 s : State} (h0 : Same msk s0 s) (t : Nat) (w : Bytes) (at_ : Nat)
    (r : Nat) (cs : List Nat) (w_tiles : msk .tiles = false) :
    Same msk s0 (State.putRow s t w at_ r cs) := by
  unfold State.putRow
  repeat' first
    | with_reducible first
      | assumption | exact Same.refl _ _ | apply State.vecPut_same | apply Same.ite
    | dsimp only | split

theorem State.drawsOf_same {msk : Field → Bool} {s0 s : State} (h0 : Same msk s0 s) (t : Nat) (stream : Nat) (n : Nat)
    (w_ctr : msk .ctr = false) :
    Same msk s0 (State.drawsOf s t stream n).2 := by
  unfold State.drawsOf
  repeat' first
    | with_reducible first
      | assumption | exact Same.refl _ _ | apply State.setCtr_same
    | dsimp only | split

theorem State.countLayer_same {msk : Field → Bool} {s0 s : State} (h0 : Same msk s0 s) (t : Nat) (c : Nat) (w : Bytes)
    (n : Nat) (sat : Nat) (w_tiles : msk .tiles = false) :
    Same msk s0 (State.countLayer s t c w n sat) := by
  unfold State.countLayer
  repeat' first
    | with_reducible first
      | assumption | exact Same.refl _ _ | apply State.modCtx_same | apply Same.ite
    | dsimp only | split

theorem State.emitRow_same {msk : Field → Bool} {s0 s : State} (h0 : Same msk s0 s) (t : Nat) (c : Nat) (w : Bytes)
    (resInt : Bool) (int : Bool) (at_ : Nat) (r : Nat) (xs : List Word) (w_ctr : msk .ctr = false)
    (w_tiles : msk .tiles = false) :
    Same msk s0 (State.emitRow s t c w resInt int at_ r xs) := by
  unfold State.emitRow
  repeat' first
    | with_reducible first
      | assumption | exact Same.refl _ _ | apply State.putRow_same | apply State.drawsOf_same
      | apply State.countLayer_same | apply Same.ite | refine Same.of_snd (by assumption) ?_
    | dsimp only | split

theorem State.freeBanks_same {msk : Field → Bool} {s0 s : State} (h0 : Same msk s0 s) (t : Nat) (w : Bytes)
    (w_tiles : msk .tiles = false) :
    Same msk s0 (State.freeBanks s t w) := by
  unfold State.freeBanks
  repeat' first
    | with_reducible first
      | assumption | exact Same.refl _ _ | refine Same.each ?_ _ _ (fun _ _ _ => ?_) | apply State.modBank_same
      | apply Same.ite | intro _
    | dsimp only | split

theorem State.vecOwn_same {msk : Field → Bool} {s0 s : State} (h0 : Same msk s0 s) (t : Nat) (k : Nat)
    (w_mem : msk .mem = false) (w_tiles : msk .tiles = false) :
    Same msk s0 (State.vecOwn s t k) := by
  unfold State.vecOwn
  repeat' first
    | with_reducible first
      | assumption | exact Same.refl _ _ | refine Same.each ?_ _ _ (fun _ _ _ => ?_) | apply State.modTile_same
      | apply State.vecLand_same | apply Same.ite | intro _
    | dsimp only | split

theorem State.vecAhead_same {msk : Field → Bool} {s0 s : State} (h0 : Same msk s0 s) (t : Nat)
    (w_free : msk .free = false) (w_mem : msk .mem = false) (w_tiles : msk .tiles = false) :
    Same msk s0 (State.vecAhead s t) := by
  unfold State.vecAhead
  repeat' first
    | with_reducible first
      | assumption | exact Same.refl _ _ | refine Same.each ?_ _ _ (fun _ _ _ => ?_)
      | refine Same.foldl ?_ _ _ (fun _ _ _ => ?_) | refine Same.foldl_fst _ _ (fun _ _ _ => ?_) _ ?_
      | refine Same.foldl_snd _ _ (fun _ _ _ => ?_) _ ?_ | apply State.freeVal_same | apply State.modTile_same
      | apply State.vecLand_same | apply Same.ite | refine Same.of_fst (by assumption) ?_
      | refine Same.of_snd (by assumption) ?_ | intro _
    | dsimp only | split

theorem State.vecRows_same {msk : Field → Bool} {s0 s : State} (h0 : Same msk s0 s) (t : Nat) (j : VecJob)
    (row : State → Memory → Bytes → Nat → Nat → State) (fin : State → Bytes → Frame → List (List Word) → State)
    (hrow : ∀ t x1 x2 x3 x4, Same msk s0 t → Same msk s0 (row t x1 x2 x3 x4))
    (hfin : ∀ t x1 x2 x3, Same msk s0 t → Same msk s0 (fin t x1 x2 x3)) (w_free : msk .free = false)
    (w_mem : msk .mem = false) (w_tiles : msk .tiles = false) :
    Same msk s0 (State.vecRows s t j row fin) := by
  unfold State.vecRows
  repeat' first
    | with_reducible first
      | assumption | exact Same.refl _ _ | refine Same.foldl ?_ _ _ (fun _ _ _ => ?_)
      | refine Same.foldl_fst _ _ (fun _ _ _ => ?_) _ ?_ | refine Same.foldl_snd _ _ (fun _ _ _ => ?_) _ ?_
      | apply hrow | apply hfin | apply State.modTile_same | apply State.vecOwn_same | apply State.vecAhead_same
      | refine Same.of_fst (by assumption) ?_ | refine Same.of_snd (by assumption) ?_ | intro _
    | dsimp only | split

theorem State.vecStarts_same {msk : Field → Bool} {s0 s : State} (h0 : Same msk s0 s) (t : Nat)
    (w_free : msk .free = false) :
    Same msk s0 (State.vecStarts s t).2 := by
  unfold State.vecStarts
  repeat' first
    | with_reducible first
      | assumption | exact Same.refl _ _ | apply State.freeVal_same | apply Same.ite
      | refine Same.of_snd (by assumption) ?_
    | dsimp only | split

theorem State.vecGo_same {msk : Field → Bool} {s0 s : State} (h0 : Same msk s0 s) (t : Nat) (j : VecJob)
    (row : State → Memory → Bytes → Nat → Nat → State) (fin : State → Bytes → Frame → List (List Word) → State)
    (hrow : ∀ t x1 x2 x3 x4, Same msk s0 t → Same msk s0 (row t x1 x2 x3 x4))
    (hfin : ∀ t x1 x2 x3, Same msk s0 t → Same msk s0 (fin t x1 x2 x3)) (w_free : msk .free = false)
    (w_mem : msk .mem = false) (w_ctr : msk .ctr = false) (w_ream : msk .ream = false) (w_posts : msk .posts = false)
    (w_tiles : msk .tiles = false) (w_gat : msk .gat = false) (w_rel : msk .rel = false) :
    Same msk s0 (State.vecGo s t j row fin) := by
  unfold State.vecGo
  repeat' first
    | with_reducible first
      | assumption | exact Same.refl _ _ | apply hrow | apply hfin | apply State.modTile_same
      | apply State.consume_same | apply State.skew_same | apply State.vecRows_same | apply Same.ite | intro _
    | dsimp only | split

theorem State.issueVec_same {msk : Field → Bool} {s0 s : State} (h0 : Same msk s0 s) (t : Nat) (c : Nat) (op : Nat)
    (row : State → Memory → Bytes → Nat → Nat → State) (fin : State → Bytes → Frame → List (List Word) → State)
    (hrow : ∀ t x1 x2 x3 x4, Same msk s0 t → Same msk s0 (row t x1 x2 x3 x4))
    (hfin : ∀ t x1 x2 x3, Same msk s0 t → Same msk s0 (fin t x1 x2 x3)) (w_free : msk .free = false)
    (w_mem : msk .mem = false) (w_ctr : msk .ctr = false) (w_ream : msk .ream = false) (w_posts : msk .posts = false)
    (w_tiles : msk .tiles = false) (w_gat : msk .gat = false) (w_rel : msk .rel = false) :
    Same msk s0 (State.issueVec s t c op row fin) := by
  unfold State.issueVec
  repeat' first
    | with_reducible first
      | assumption | exact Same.refl _ _ | apply hrow | apply hfin | apply State.modTile_same
      | apply State.signal_same | apply State.issue1_same | apply State.freeBanks_same | apply State.vecStarts_same
      | apply State.vecGo_same | apply Same.ite | refine Same.of_snd (by assumption) ?_ | intro _
    | dsimp only | split

theorem vecNone_same {msk : Field → Bool} {s0 s : State} (h0 : Same msk s0 s) (x : Bytes) (z2 : Frame)
    (z3 : List (List Word)) :
    Same msk s0 (vecNone s x z2 z3) := by
  unfold vecNone
  repeat' first
    | with_reducible first
      | assumption | exact Same.refl _ _
    | dsimp only | split

theorem State.rowBy_same {msk : Field → Bool} {s0 s : State} (h0 : Same msk s0 s) (t : Nat) (c : Nat) (w : Bytes)
    (cols : Nat) (r : Nat) (f : Bool → Nat → Word) (w_ctr : msk .ctr = false) (w_tiles : msk .tiles = false) :
    Same msk s0 (State.rowBy s t c w cols r f) := by
  unfold State.rowBy
  repeat' first
    | with_reducible first
      | assumption | exact Same.refl _ _ | apply State.emitRow_same
    | dsimp only | split

theorem State.rowBin_same {msk : Field → Bool} {s0 s : State} (h0 : Same msk s0 s) (u : Memory) (t : Nat) (c : Nat)
    (w : Bytes) (cols : Nat) (r : Nat) (w_ctr : msk .ctr = false) (w_tiles : msk .tiles = false) :
    Same msk s0 (State.rowBin s u t c w cols r) := by
  unfold State.rowBin
  repeat' first
    | with_reducible first
      | assumption | exact Same.refl _ _ | apply State.rowBy_same
    | dsimp only | split

theorem execAdd_same {msk : Field → Bool} (s : State) (tile : Nat) (ctx : Nat) (w_free : msk .free = false)
    (w_mem : msk .mem = false) (w_ctr : msk .ctr = false) (w_ream : msk .ream = false) (w_posts : msk .posts = false)
    (w_tiles : msk .tiles = false) (w_gat : msk .gat = false) (w_rel : msk .rel = false) :
    ∃ t, execAdd tile ctx s = .next t ∧ Same msk s t := by
  refine ⟨_, rfl, ?_⟩
  repeat' first
    | with_reducible first
      | assumption | exact Same.refl _ _ | apply State.issueVec_same | apply vecNone_same | apply State.rowBin_same
      | intro _
    | dsimp only | split

theorem execSub_same {msk : Field → Bool} (s : State) (tile : Nat) (ctx : Nat) (w_free : msk .free = false)
    (w_mem : msk .mem = false) (w_ctr : msk .ctr = false) (w_ream : msk .ream = false) (w_posts : msk .posts = false)
    (w_tiles : msk .tiles = false) (w_gat : msk .gat = false) (w_rel : msk .rel = false) :
    ∃ t, execSub tile ctx s = .next t ∧ Same msk s t := by
  refine ⟨_, rfl, ?_⟩
  repeat' first
    | with_reducible first
      | assumption | exact Same.refl _ _ | apply State.issueVec_same | apply vecNone_same | apply State.rowBin_same
      | intro _
    | dsimp only | split

theorem execMul_same {msk : Field → Bool} (s : State) (tile : Nat) (ctx : Nat) (w_free : msk .free = false)
    (w_mem : msk .mem = false) (w_ctr : msk .ctr = false) (w_ream : msk .ream = false) (w_posts : msk .posts = false)
    (w_tiles : msk .tiles = false) (w_gat : msk .gat = false) (w_rel : msk .rel = false) :
    ∃ t, execMul tile ctx s = .next t ∧ Same msk s t := by
  refine ⟨_, rfl, ?_⟩
  repeat' first
    | with_reducible first
      | assumption | exact Same.refl _ _ | apply State.issueVec_same | apply vecNone_same | apply State.rowBin_same
      | intro _
    | dsimp only | split

theorem execMax_same {msk : Field → Bool} (s : State) (tile : Nat) (ctx : Nat) (w_free : msk .free = false)
    (w_mem : msk .mem = false) (w_ctr : msk .ctr = false) (w_ream : msk .ream = false) (w_posts : msk .posts = false)
    (w_tiles : msk .tiles = false) (w_gat : msk .gat = false) (w_rel : msk .rel = false) :
    ∃ t, execMax tile ctx s = .next t ∧ Same msk s t := by
  refine ⟨_, rfl, ?_⟩
  repeat' first
    | with_reducible first
      | assumption | exact Same.refl _ _ | apply State.issueVec_same | apply vecNone_same | apply State.rowBin_same
      | intro _
    | dsimp only | split

theorem execMin_same {msk : Field → Bool} (s : State) (tile : Nat) (ctx : Nat) (w_free : msk .free = false)
    (w_mem : msk .mem = false) (w_ctr : msk .ctr = false) (w_ream : msk .ream = false) (w_posts : msk .posts = false)
    (w_tiles : msk .tiles = false) (w_gat : msk .gat = false) (w_rel : msk .rel = false) :
    ∃ t, execMin tile ctx s = .next t ∧ Same msk s t := by
  refine ⟨_, rfl, ?_⟩
  repeat' first
    | with_reducible first
      | assumption | exact Same.refl _ _ | apply State.issueVec_same | apply vecNone_same | apply State.rowBin_same
      | intro _
    | dsimp only | split

theorem State.affineRow_same {msk : Field → Bool} {s0 s : State} (h0 : Same msk s0 s) (u : Memory) (t : Nat) (c : Nat)
    (w : Bytes) (cols : Nat) (r : Nat) (w_ctr : msk .ctr = false) (w_tiles : msk .tiles = false) :
    Same msk s0 (State.affineRow s u t c w cols r) := by
  unfold State.affineRow
  repeat' first
    | with_reducible first
      | assumption | exact Same.refl _ _ | apply State.rowBy_same
    | dsimp only | split

theorem execAffine_same {msk : Field → Bool} (s : State) (tile : Nat) (ctx : Nat) (w_free : msk .free = false)
    (w_mem : msk .mem = false) (w_ctr : msk .ctr = false) (w_ream : msk .ream = false) (w_posts : msk .posts = false)
    (w_tiles : msk .tiles = false) (w_gat : msk .gat = false) (w_rel : msk .rel = false) :
    ∃ t, execAffine tile ctx s = .next t ∧ Same msk s t := by
  refine ⟨_, rfl, ?_⟩
  repeat' first
    | with_reducible first
      | assumption | exact Same.refl _ _ | apply State.issueVec_same | apply vecNone_same | apply State.affineRow_same
      | intro _
    | dsimp only | split

theorem execCmp_same {msk : Field → Bool} (s : State) (tile : Nat) (ctx : Nat) (w_free : msk .free = false)
    (w_mem : msk .mem = false) (w_ctr : msk .ctr = false) (w_ream : msk .ream = false) (w_posts : msk .posts = false)
    (w_tiles : msk .tiles = false) (w_gat : msk .gat = false) (w_rel : msk .rel = false) :
    ∃ t, execCmp tile ctx s = .next t ∧ Same msk s t := by
  refine ⟨_, rfl, ?_⟩
  repeat' first
    | with_reducible first
      | assumption | exact Same.refl _ _ | apply State.issueVec_same | apply vecNone_same | apply State.rowBin_same
      | intro _
    | dsimp only | split

theorem execSelect_same {msk : Field → Bool} (s : State) (tile : Nat) (ctx : Nat) (w_free : msk .free = false)
    (w_mem : msk .mem = false) (w_ctr : msk .ctr = false) (w_ream : msk .ream = false) (w_posts : msk .posts = false)
    (w_tiles : msk .tiles = false) (w_gat : msk .gat = false) (w_rel : msk .rel = false) :
    ∃ t, execSelect tile ctx s = .next t ∧ Same msk s t := by
  refine ⟨_, rfl, ?_⟩
  repeat' first
    | with_reducible first
      | assumption | exact Same.refl _ _ | apply State.issueVec_same | apply vecNone_same | apply State.rowBin_same
      | intro _
    | dsimp only | split

theorem State.copyRow_same {msk : Field → Bool} {s0 s : State} (h0 : Same msk s0 s) (t : Nat) (w : Bytes) (cols : Nat)
    (r : Nat) (w_tiles : msk .tiles = false) :
    Same msk s0 (State.copyRow s t w cols r) := by
  unfold State.copyRow
  repeat' first
    | with_reducible first
      | assumption | exact Same.refl _ _ | apply State.putRow_same
    | dsimp only | split

theorem State.unaryRow_same {msk : Field → Bool} {s0 s : State} (h0 : Same msk s0 s) (u : Memory) (t : Nat) (c : Nat)
    (w : Bytes) (cols : Nat) (r : Nat) (w_ctr : msk .ctr = false) (w_tiles : msk .tiles = false) :
    Same msk s0 (State.unaryRow s u t c w cols r) := by
  unfold State.unaryRow
  repeat' first
    | with_reducible first
      | assumption | exact Same.refl _ _ | apply State.rowBy_same | apply State.copyRow_same | apply Same.ite
    | dsimp only | split

theorem execUnary_same {msk : Field → Bool} (s : State) (tile : Nat) (ctx : Nat) (w_free : msk .free = false)
    (w_mem : msk .mem = false) (w_ctr : msk .ctr = false) (w_ream : msk .ream = false) (w_posts : msk .posts = false)
    (w_tiles : msk .tiles = false) (w_gat : msk .gat = false) (w_rel : msk .rel = false) :
    ∃ t, execUnary tile ctx s = .next t ∧ Same msk s t := by
  refine ⟨_, rfl, ?_⟩
  repeat' first
    | with_reducible first
      | assumption | exact Same.refl _ _ | apply State.issueVec_same | apply vecNone_same | apply State.unaryRow_same
      | intro _
    | dsimp only | split

theorem State.funcRow_same {msk : Field → Bool} {s0 s : State} (h0 : Same msk s0 s) (u : Memory) (t : Nat) (c : Nat)
    (w : Bytes) (cols : Nat) (r : Nat) (w_ctr : msk .ctr = false) (w_tiles : msk .tiles = false) :
    Same msk s0 (State.funcRow s u t c w cols r) := by
  unfold State.funcRow
  repeat' first
    | with_reducible first
      | assumption | exact Same.refl _ _ | apply State.rowBy_same
    | dsimp only | split

theorem execFunc_same {msk : Field → Bool} (s : State) (tile : Nat) (ctx : Nat) (w_free : msk .free = false)
    (w_mem : msk .mem = false) (w_ctr : msk .ctr = false) (w_ream : msk .ream = false) (w_posts : msk .posts = false)
    (w_tiles : msk .tiles = false) (w_gat : msk .gat = false) (w_rel : msk .rel = false) :
    ∃ t, execFunc tile ctx s = .next t ∧ Same msk s t := by
  refine ⟨_, rfl, ?_⟩
  repeat' first
    | with_reducible first
      | assumption | exact Same.refl _ _ | apply State.issueVec_same | apply vecNone_same | apply State.funcRow_same
      | intro _
    | dsimp only | split

theorem State.convertRow_same {msk : Field → Bool} {s0 s : State} (h0 : Same msk s0 s) (u : Memory) (t : Nat)
    (c : Nat) (w : Bytes) (cols : Nat) (r : Nat) (w_ctr : msk .ctr = false) (w_tiles : msk .tiles = false) :
    Same msk s0 (State.convertRow s u t c w cols r) := by
  unfold State.convertRow
  repeat' first
    | with_reducible first
      | assumption | exact Same.refl _ _ | apply State.rowBy_same
    | dsimp only | split

theorem execConvert_same {msk : Field → Bool} (s : State) (tile : Nat) (ctx : Nat) (w_free : msk .free = false)
    (w_mem : msk .mem = false) (w_ctr : msk .ctr = false) (w_ream : msk .ream = false) (w_posts : msk .posts = false)
    (w_tiles : msk .tiles = false) (w_gat : msk .gat = false) (w_rel : msk .rel = false) :
    ∃ t, execConvert tile ctx s = .next t ∧ Same msk s t := by
  refine ⟨_, rfl, ?_⟩
  repeat' first
    | with_reducible first
      | assumption | exact Same.refl _ _ | apply State.issueVec_same | apply vecNone_same
      | apply State.convertRow_same | intro _
    | dsimp only | split

theorem State.mxRow_same {msk : Field → Bool} {s0 s : State} (h0 : Same msk s0 s) (u : Memory) (t : Nat) (c : Nat)
    (w : Bytes) (cols : Nat) (r : Nat) (w_ctr : msk .ctr = false) (w_tiles : msk .tiles = false) :
    Same msk s0 (State.mxRow s u t c w cols r) := by
  unfold State.mxRow
  repeat' first
    | with_reducible first
      | assumption | exact Same.refl _ _ | refine Same.each ?_ _ _ (fun _ _ _ => ?_) | apply State.vecPut_same
      | apply State.putRow_same | apply State.drawsOf_same | apply State.countLayer_same | apply Same.ite
      | refine Same.of_snd (by assumption) ?_ | intro _
    | dsimp only | split

theorem State.quantRow_same {msk : Field → Bool} {s0 s : State} (h0 : Same msk s0 s) (u : Memory) (t : Nat) (c : Nat)
    (w : Bytes) (cols : Nat) (r : Nat) (w_ctr : msk .ctr = false) (w_tiles : msk .tiles = false) :
    Same msk s0 (State.quantRow s u t c w cols r) := by
  unfold State.quantRow
  repeat' first
    | with_reducible first
      | assumption | exact Same.refl _ _ | apply State.emitRow_same
    | dsimp only | split

theorem State.mxTags_same {msk : Field → Bool} {s0 s : State} (h0 : Same msk s0 s) (t : Nat) (w : Bytes) (fr : Frame)
    (w_tiles : msk .tiles = false) :
    Same msk s0 (State.mxTags s t w fr) := by
  unfold State.mxTags
  repeat' first
    | with_reducible first
      | assumption | exact Same.refl _ _ | apply State.vecPut_same | apply Same.ite
    | dsimp only | split

theorem State.anyQuantRow_same {msk : Field → Bool} {s0 s : State} (h0 : Same msk s0 s) (u : Memory) (t : Nat)
    (c : Nat) (w : Bytes) (cols : Nat) (r : Nat) (w_ctr : msk .ctr = false) (w_tiles : msk .tiles = false) :
    Same msk s0 (State.anyQuantRow s u t c w cols r) := by
  unfold State.anyQuantRow
  repeat' first
    | with_reducible first
      | assumption | exact Same.refl _ _ | apply State.mxRow_same | apply State.quantRow_same | apply Same.ite
    | dsimp only | split

theorem execQuant_same {msk : Field → Bool} (s : State) (tile : Nat) (ctx : Nat) (w_free : msk .free = false)
    (w_mem : msk .mem = false) (w_ctr : msk .ctr = false) (w_ream : msk .ream = false) (w_posts : msk .posts = false)
    (w_tiles : msk .tiles = false) (w_gat : msk .gat = false) (w_rel : msk .rel = false) :
    ∃ t, execQuant tile ctx s = .next t ∧ Same msk s t := by
  refine ⟨_, rfl, ?_⟩
  repeat' first
    | with_reducible first
      | assumption | exact Same.refl _ _ | apply State.issueVec_same | apply State.mxTags_same
      | apply State.anyQuantRow_same | intro _
    | dsimp only | split

theorem State.rescaleRow_same {msk : Field → Bool} {s0 s : State} (h0 : Same msk s0 s) (u : Memory) (t : Nat)
    (c : Nat) (w : Bytes) (cols : Nat) (r : Nat) (w_tiles : msk .tiles = false) :
    Same msk s0 (State.rescaleRow s u t c w cols r) := by
  unfold State.rescaleRow
  repeat' first
    | with_reducible first
      | assumption | exact Same.refl _ _ | apply State.putRow_same | apply State.countLayer_same | apply Same.ite
    | dsimp only | split

theorem execRescale_same {msk : Field → Bool} (s : State) (tile : Nat) (ctx : Nat) (w_free : msk .free = false)
    (w_mem : msk .mem = false) (w_ctr : msk .ctr = false) (w_ream : msk .ream = false) (w_posts : msk .posts = false)
    (w_tiles : msk .tiles = false) (w_gat : msk .gat = false) (w_rel : msk .rel = false) :
    ∃ t, execRescale tile ctx s = .next t ∧ Same msk s t := by
  refine ⟨_, rfl, ?_⟩
  repeat' first
    | with_reducible first
      | assumption | exact Same.refl _ _ | apply State.issueVec_same | apply vecNone_same
      | apply State.rescaleRow_same | intro _
    | dsimp only | split

theorem State.rotateRowOf_same {msk : Field → Bool} {s0 s : State} (h0 : Same msk s0 s) (u : Memory) (t : Nat)
    (c : Nat) (w : Bytes) (cols : Nat) (r : Nat) (w_ctr : msk .ctr = false) (w_tiles : msk .tiles = false) :
    Same msk s0 (State.rotateRowOf s u t c w cols r) := by
  unfold State.rotateRowOf
  repeat' first
    | with_reducible first
      | assumption | exact Same.refl _ _ | apply State.emitRow_same | apply Same.ite
    | dsimp only | split

theorem execRotate_same {msk : Field → Bool} (s : State) (tile : Nat) (ctx : Nat) (w_free : msk .free = false)
    (w_mem : msk .mem = false) (w_ctr : msk .ctr = false) (w_ream : msk .ream = false) (w_posts : msk .posts = false)
    (w_tiles : msk .tiles = false) (w_gat : msk .gat = false) (w_rel : msk .rel = false) :
    ∃ t, execRotate tile ctx s = .next t ∧ Same msk s t := by
  refine ⟨_, rfl, ?_⟩
  repeat' first
    | with_reducible first
      | assumption | exact Same.refl _ _ | apply State.issueVec_same | apply vecNone_same
      | apply State.rotateRowOf_same | intro _
    | dsimp only | split

theorem State.reduceRowOf_same {msk : Field → Bool} {s0 s : State} (h0 : Same msk s0 s) (u : Memory) (t : Nat)
    (c : Nat) (w : Bytes) (cols : Nat) (r : Nat) (w_ctr : msk .ctr = false) (w_tiles : msk .tiles = false) :
    Same msk s0 (State.reduceRowOf s u t c w cols r) := by
  unfold State.reduceRowOf
  repeat' first
    | with_reducible first
      | assumption | exact Same.refl _ _ | apply State.emitRow_same | apply Same.ite
    | dsimp only | split

theorem execReduceRow_same {msk : Field → Bool} (s : State) (tile : Nat) (ctx : Nat) (w_free : msk .free = false)
    (w_mem : msk .mem = false) (w_ctr : msk .ctr = false) (w_ream : msk .ream = false) (w_posts : msk .posts = false)
    (w_tiles : msk .tiles = false) (w_gat : msk .gat = false) (w_rel : msk .rel = false) :
    ∃ t, execReduceRow tile ctx s = .next t ∧ Same msk s t := by
  refine ⟨_, rfl, ?_⟩
  repeat' first
    | with_reducible first
      | assumption | exact Same.refl _ _ | apply State.issueVec_same | apply vecNone_same
      | apply State.reduceRowOf_same | intro _
    | dsimp only | split

theorem State.reduceColOf_same {msk : Field → Bool} {s0 s : State} (h0 : Same msk s0 s) (t : Nat) (c : Nat)
    (w : Bytes) (fr : Frame) (seen : List (List Word)) (w_ctr : msk .ctr = false) (w_tiles : msk .tiles = false) :
    Same msk s0 (State.reduceColOf s t c w fr seen) := by
  unfold State.reduceColOf
  repeat' first
    | with_reducible first
      | assumption | exact Same.refl _ _ | apply State.emitRow_same
    | dsimp only | split

theorem execReduceCol_same {msk : Field → Bool} (s : State) (tile : Nat) (ctx : Nat) (w_free : msk .free = false)
    (w_mem : msk .mem = false) (w_ctr : msk .ctr = false) (w_ream : msk .ream = false) (w_posts : msk .posts = false)
    (w_tiles : msk .tiles = false) (w_gat : msk .gat = false) (w_rel : msk .rel = false) :
    ∃ t, execReduceCol tile ctx s = .next t ∧ Same msk s t := by
  refine ⟨_, rfl, ?_⟩
  repeat' first
    | with_reducible first
      | assumption | exact Same.refl _ _ | apply State.issueVec_same | apply State.reduceColOf_same | intro _
    | dsimp only | split

theorem State.vecRow_same {msk : Field → Bool} {s0 s : State} (h0 : Same msk s0 s) (u : Memory) (t : Nat) (c : Nat)
    (w : Bytes) (cols : Nat) (r : Nat) (w_ctr : msk .ctr = false) (w_tiles : msk .tiles = false) :
    Same msk s0 (State.vecRow s u t c w cols r) := by
  unfold State.vecRow
  repeat' first
    | with_reducible first
      | assumption | exact Same.refl _ _ | apply State.rowBin_same | apply State.affineRow_same
      | apply State.unaryRow_same | apply State.funcRow_same | apply State.convertRow_same
      | apply State.anyQuantRow_same | apply State.rescaleRow_same | apply State.rotateRowOf_same
      | apply State.reduceRowOf_same | apply Same.ite
    | dsimp only | split

theorem State.vecFin_same {msk : Field → Bool} {s0 s : State} (h0 : Same msk s0 s) (t : Nat) (c : Nat) (w : Bytes)
    (fr : Frame) (seen : List (List Word)) (w_ctr : msk .ctr = false) (w_tiles : msk .tiles = false) :
    Same msk s0 (State.vecFin s t c w fr seen) := by
  unfold State.vecFin
  repeat' first
    | with_reducible first
      | assumption | exact Same.refl _ _ | apply State.mxTags_same | apply State.reduceColOf_same | apply Same.ite
    | dsimp only | split

theorem State.vecFront_same {msk : Field → Bool} {s0 s : State} (h0 : Same msk s0 s) (t : Nat) (y0 : Nat)
    (w_free : msk .free = false) (w_mem : msk .mem = false) (w_ctr : msk .ctr = false) (w_ream : msk .ream = false)
    (w_posts : msk .posts = false) (w_tiles : msk .tiles = false) (w_gat : msk .gat = false)
    (w_rel : msk .rel = false) :
    Same msk s0 (State.vecFront s t y0) := by
  induction y0 generalizing s with
  | zero =>
    unfold State.vecFront
    repeat' first
      | with_reducible first
        | assumption | exact Same.refl _ _ | apply State.vecStarts_same | apply State.vecGo_same
        | apply State.vecRow_same | apply State.vecFin_same | apply Same.ite | refine Same.of_snd (by assumption) ?_
        | intro _
      | dsimp only | split
  | succ k ih =>
    unfold State.vecFront
    repeat' first
      | with_reducible first
        | assumption | exact Same.refl _ _ | apply ih | apply State.vecStarts_same | apply State.vecGo_same
        | apply State.vecRow_same | apply State.vecFin_same | apply Same.ite | refine Same.of_snd (by assumption) ?_
        | intro _
      | dsimp only | split

theorem execVectorInstructionDone_same {msk : Field → Bool} (s : State) (tile : Nat) (w_free : msk .free = false)
    (w_mem : msk .mem = false) (w_ctr : msk .ctr = false) (w_ream : msk .ream = false) (w_posts : msk .posts = false)
    (w_tiles : msk .tiles = false) (w_gat : msk .gat = false) (w_rel : msk .rel = false) :
    ∃ t, execVectorInstructionDone tile s = .next t ∧ Same msk s t := by
  refine ⟨_, rfl, ?_⟩
  repeat' first
    | with_reducible first
      | assumption | exact Same.refl _ _ | refine Same.each ?_ _ _ (fun _ _ _ => ?_) | apply State.modTile_same
      | apply State.signal_same | apply State.vecLand_same | apply State.freeBanks_same | apply State.vecFront_same
      | intro _
    | dsimp only | split

theorem State.sendFelt_same {msk : Field → Bool} {s0 s : State} (h0 : Same msk s0 s) (src : Nat) (dst : Nat) (m : Msg)
    (w_io : msk .io = false) (w_felt : msk .felt = false) :
    Same msk s0 (State.sendFelt s src dst m) := by
  unfold State.sendFelt
  repeat' first
    | with_reducible first
      | assumption | exact Same.refl _ _ | apply SameParts.same | apply SameParts.upd_io_felt
    | dsimp only | simp only [same_mk] | split

theorem State.takeFelt_same {msk : Field → Bool} {s0 s : State} (h0 : Same msk s0 s) (id : Nat)
    (w_felt : msk .felt = false) :
    Same msk s0 (State.takeFelt s id) := by
  unfold State.takeFelt
  repeat' first
    | with_reducible first
      | assumption | exact Same.refl _ _ | apply SameParts.same | apply SameParts.upd_felt
    | dsimp only | simp only [same_mk] | split

theorem State.fetchRead_same {msk : Field → Bool} {s0 s : State} (h0 : Same msk s0 s) (t : Nat) (w : Bytes)
    (k : Option Nat) (p : Place) (ext : Rd) (w_free : msk .free = false) :
    Same msk s0 (State.fetchRead s t w k p ext).2.2 := by
  unfold State.fetchRead
  repeat' first
    | with_reducible first
      | assumption | exact Same.refl _ _ | apply State.freeVals_same | refine Same.of_snd (by assumption) ?_
    | dsimp only | split

theorem State.fetchCache_same {msk : Field → Bool} {s0 s : State} (h0 : Same msk s0 s) (k : Nat) (w : Bytes)
    (had : FMap (Bytes × Bool)) (b : Bytes) (marks : List Nat) (a : Place) (w_ctr : msk .ctr = false)
    (w_tiers : msk .tiers = false) :
    Same msk s0 (State.fetchCache s k w had b marks a) := by
  unfold State.fetchCache
  repeat' first
    | with_reducible first
      | assumption | exact Same.refl _ _ | refine Same.each ?_ _ _ (fun _ _ _ => ?_) | apply State.rebuild_same
      | apply State.cacheLook_same | apply State.netFill_same | apply Same.ite | intro _
    | dsimp only | split

theorem State.noteHanded_same {msk : Field → Bool} {s0 s : State} (h0 : Same msk s0 s) (k : Nat) (p : Nat) (g : Nat)
    (off : Nat) (len : Nat) (w_posts : msk .posts = false) :
    Same msk s0 (State.noteHanded s k p g off len) := by
  unfold State.noteHanded
  repeat' first
    | with_reducible first
      | assumption | exact Same.refl _ _ | apply State.modPost_same | apply Same.ite
    | dsimp only | split

theorem State.putRun_same {msk : Field → Bool} {s0 s : State} (h0 : Same msk s0 s) (t : Nat) (k : Nat) (c : Cmd)
    (w : Bytes) (bad : List Nat) (pl : Place) (r : Nat × Bytes) (w_free : msk .free = false)
    (w_mem : msk .mem = false) (w_ctr : msk .ctr = false) (w_parts : msk .parts = false) (w_io : msk .io = false)
    (w_hp : msk .hp = false) (w_evt : msk .evt = false) (w_posts : msk .posts = false) (w_tiers : msk .tiers = false)
    (w_rel : msk .rel = false) :
    Same msk s0 (State.putRun s t k c w bad pl r) := by
  unfold State.putRun
  repeat' first
    | with_reducible first
      | assumption | exact Same.refl _ _ | refine Same.foldl ?_ _ _ (fun _ _ _ => ?_)
      | refine Same.foldl_fst _ _ (fun _ _ _ => ?_) _ ?_ | refine Same.foldl_snd _ _ (fun _ _ _ => ?_) _ ?_
      | apply State.modPost_same | apply State.writeSeg_same | apply State.noteHanded_same | apply Same.ite
      | apply SameParts.same | apply SameParts.upd_mem | refine Same.of_fst (by assumption) ?_
      | refine Same.of_snd (by assumption) ?_ | intro _
    | dsimp only | simp only [same_mk] | split

theorem State.deliverPoison_same {msk : Field → Bool} {s0 s : State} (h0 : Same msk s0 s) (t : Nat) (part : Nat)
    (bad : List Nat) (pl : Place) (w_free : msk .free = false) (w_mem : msk .mem = false) (w_ctr : msk .ctr = false)
    (w_parts : msk .parts = false) (w_io : msk .io = false) (w_hp : msk .hp = false) (w_evt : msk .evt = false)
    (w_tiers : msk .tiers = false) (w_rel : msk .rel = false) :
    Same msk s0 (State.deliverPoison s t part bad pl) := by
  unfold State.deliverPoison
  repeat' first
    | with_reducible first
      | assumption | exact Same.refl _ _ | refine Same.each ?_ _ _ (fun _ _ _ => ?_) | apply State.count_same
      | apply State.poisonT1_same | apply State.poisonT0_same | apply Same.ite | intro _
    | dsimp only | split

theorem State.putOut_same {msk : Field → Bool} {s0 s : State} (h0 : Same msk s0 s) (t : Nat) (k : Nat) (c : Cmd)
    (w : Bytes) (fr : Frame) (pl : Place) (w_free : msk .free = false) (w_mem : msk .mem = false)
    (w_ctr : msk .ctr = false) (w_parts : msk .parts = false) (w_io : msk .io = false) (w_hp : msk .hp = false)
    (w_evt : msk .evt = false) (w_posts : msk .posts = false) (w_tiers : msk .tiers = false)
    (w_rel : msk .rel = false) :
    Same msk s0 (State.putOut s t k c w fr pl) := by
  unfold State.putOut
  repeat' first
    | with_reducible first
      | assumption | exact Same.refl _ _ | refine Same.foldl ?_ _ _ (fun _ _ _ => ?_)
      | refine Same.foldl_fst _ _ (fun _ _ _ => ?_) _ ?_ | refine Same.foldl_snd _ _ (fun _ _ _ => ?_) _ ?_
      | apply State.modPost_same | apply State.putRun_same | apply State.deliverPoison_same | apply Same.ite
      | refine Same.of_fst (by assumption) ?_ | refine Same.of_snd (by assumption) ?_ | intro _
    | dsimp only | split

theorem State.setQueue_same {msk : Field → Bool} {s0 s : State} (h0 : Same msk s0 s) (t : Nat) (cls : Nat)
    (q : List XferJob) (w_tiles : msk .tiles = false) :
    Same msk s0 (State.setQueue s t cls q) := by
  unfold State.setQueue
  repeat' first
    | with_reducible first
      | assumption | exact Same.refl _ _ | apply State.modTile_same
    | dsimp only | split

theorem State.netHits_same {msk : Field → Bool} {s0 s : State} (h0 : Same msk s0 s) (k : Nat) (g : Nat) (off : Nat)
    (n : Nat) (w_ctr : msk .ctr = false) (w_tiers : msk .tiers = false) :
    Same msk s0 (State.netHits s k g off n).2 := by
  unfold State.netHits
  repeat' first
    | with_reducible first
      | assumption | exact Same.refl _ _ | refine Same.foldl ?_ _ _ (fun _ _ _ => ?_)
      | refine Same.foldl_fst _ _ (fun _ _ _ => ?_) _ ?_ | refine Same.foldl_snd _ _ (fun _ _ _ => ?_) _ ?_
      | apply State.netLook_same | refine Same.of_fst (by assumption) ?_ | refine Same.of_snd (by assumption) ?_
      | intro _
    | dsimp only | split

theorem State.issueReads_same {msk : Field → Bool} {s0 s : State} (h0 : Same msk s0 s) (t : Nat) (w : Bytes) (p : Nat)
    (off : Nat) (v : Seg) (had : FMap (Bytes × Bool)) (w_io : msk .io = false) :
    Same msk s0 (State.issueReads s t w p off v had) := by
  unfold State.issueReads
  repeat' first
    | with_reducible first
      | assumption | exact Same.refl _ _ | refine Same.each ?_ _ _ (fun _ _ _ => ?_) | apply State.issue_same
      | intro _
    | dsimp only | split

theorem State.feltPut_same {msk : Field → Bool} {s0 s : State} (h0 : Same msk s0 s) (t : Nat) (j : XferJob)
    (w_io : msk .io = false) (w_felt : msk .felt = false) :
    Same msk s0 (State.feltPut s t j) := by
  unfold State.feltPut
  repeat' first
    | with_reducible first
      | assumption | exact Same.refl _ _ | apply State.sendFelt_same
    | dsimp only | split

theorem State.beginXfer_same {msk : Field → Bool} {s0 s : State} (h0 : Same msk s0 s) (t : Nat) (j : XferJob)
    (w_free : msk .free = false) (w_mem : msk .mem = false) (w_ctr : msk .ctr = false) (w_parts : msk .parts = false)
    (w_io : msk .io = false) (w_hp : msk .hp = false) (w_evt : msk .evt = false) (w_ream : msk .ream = false)
    (w_posts : msk .posts = false) (w_tiles : msk .tiles = false) (w_felt : msk .felt = false)
    (w_tiers : msk .tiers = false) (w_gat : msk .gat = false) (w_rel : msk .rel = false) :
    Same msk s0 (State.beginXfer s t j).2 := by
  unfold State.beginXfer
  repeat' first
    | with_reducible first
      | assumption | exact Same.refl _ _ | apply State.release_same | apply State.consume_same
      | apply State.putOut_same | apply State.netHits_same | apply State.issueReads_same | apply State.feltPut_same
      | apply Same.ite | refine Same.of_snd (by assumption) ?_
    | dsimp only | split

theorem State.enqueue_same {msk : Field → Bool} {s0 s : State} (h0 : Same msk s0 s) (t : Nat) (j : XferJob)
    (w_free : msk .free = false) (w_mem : msk .mem = false) (w_ctr : msk .ctr = false) (w_parts : msk .parts = false)
    (w_io : msk .io = false) (w_hp : msk .hp = false) (w_evt : msk .evt = false) (w_ream : msk .ream = false)
    (w_posts : msk .posts = false) (w_tiles : msk .tiles = false) (w_felt : msk .felt = false)
    (w_tiers : msk .tiers = false) (w_gat : msk .gat = false) (w_rel : msk .rel = false) :
    Same msk s0 (State.enqueue s t j) := by
  unfold State.enqueue
  repeat' first
    | with_reducible first
      | assumption | exact Same.refl _ _ | apply State.setQueue_same | apply State.beginXfer_same
      | refine Same.of_snd (by assumption) ?_
    | dsimp only | split

theorem State.dropJob_same {msk : Field → Bool} {s0 s : State} (h0 : Same msk s0 s) (t : Nat) (j : XferJob)
    (w_tiles : msk .tiles = false) :
    Same msk s0 (State.dropJob s t j) := by
  unfold State.dropJob
  repeat' first
    | with_reducible first
      | assumption | exact Same.refl _ _ | apply State.setQueue_same
    | dsimp only | split

theorem State.ringLines_same {msk : Field → Bool} {s0 s : State} (h0 : Same msk s0 s) (t : Nat) (w : Bytes)
    (w_free : msk .free = false) (w_mem : msk .mem = false) (w_ctr : msk .ctr = false) (w_posts : msk .posts = false)
    (w_tiles : msk .tiles = false) (w_gat : msk .gat = false) :
    Same msk s0 (State.ringLines s t w) := by
  unfold State.ringLines
  repeat' first
    | with_reducible first
      | assumption | exact Same.refl _ _ | apply State.modTile_same | apply State.streamOn_same | apply Same.ite
    | dsimp only | split

theorem State.land_same {msk : Field → Bool} {s0 s : State} (h0 : Same msk s0 s) (t : Nat) (line : Nat)
    (rs : List (Nat × Bytes)) (bad : List Nat) (w_mem : msk .mem = false) :
    Same msk s0 (State.land s t line rs bad) := by
  unfold State.land
  repeat' first
    | with_reducible first
      | assumption | exact Same.refl _ _ | refine Same.foldl ?_ _ _ (fun _ _ _ => ?_)
      | refine Same.foldl_fst _ _ (fun _ _ _ => ?_) _ ?_ | refine Same.foldl_snd _ _ (fun _ _ _ => ?_) _ ?_
      | apply State.spPatch_same | apply SameParts.same | apply SameParts.upd_mem
      | refine Same.of_fst (by assumption) ?_ | refine Same.of_snd (by assumption) ?_ | intro _
    | dsimp only | simp only [same_mk] | split

theorem State.fetchDone_same {msk : Field → Bool} {s0 s : State} (h0 : Same msk s0 s) (t : Nat) (j : XferJob)
    (w_free : msk .free = false) (w_mem : msk .mem = false) (w_ctr : msk .ctr = false) (w_posts : msk .posts = false)
    (w_tiles : msk .tiles = false) (w_gat : msk .gat = false) :
    Same msk s0 (State.fetchDone s t j) := by
  unfold State.fetchDone
  repeat' first
    | with_reducible first
      | assumption | exact Same.refl _ _ | apply State.signal_same | apply State.dropJob_same
      | apply State.ringLines_same
    | dsimp only | split

theorem State.xferBad_same {msk : Field → Bool} {s0 s : State} (h0 : Same msk s0 s) (t : Nat) (c : Nat)
    (w_posts : msk .posts = false) (w_tiles : msk .tiles = false) (w_gat : msk .gat = false) :
    Same msk s0 (State.xferBad s t c) := by
  unfold State.xferBad
  repeat' first
    | with_reducible first
      | assumption | exact Same.refl _ _ | apply State.modCtx_same | apply State.failCtx_same | apply Same.ite
    | dsimp only | split

theorem State.xferFault_same {msk : Field → Bool} {s0 s : State} (h0 : Same msk s0 s) (t : Nat) (c : Nat) (seg : Nat)
    (off : Nat) (len : Nat) (valid : Nat → Bool) (w_free : msk .free = false) (w_ctr : msk .ctr = false)
    (w_parts : msk .parts = false) (w_fe : msk .fe = false) (w_io : msk .io = false) (w_hp : msk .hp = false)
    (w_evt : msk .evt = false) (w_posts : msk .posts = false) (w_tiles : msk .tiles = false)
    (w_gat : msk .gat = false) :
    Same msk s0 (State.xferFault s t c seg off len valid) := by
  unfold State.xferFault
  repeat' first
    | with_reducible first
      | assumption | exact Same.refl _ _ | apply State.tileFault_same | apply State.modCtx_same
      | apply State.failCtx_same | apply Same.ite
    | dsimp only | split

theorem State.checkXfer_same {msk : Field → Bool} {s0 s : State} (h0 : Same msk s0 s) (t : Nat) (c : Nat) (w : Bytes)
    (v : Ctx) (w_free : msk .free = false) (w_mem : msk .mem = false) (w_ctr : msk .ctr = false)
    (w_parts : msk .parts = false) (w_fe : msk .fe = false) (w_io : msk .io = false) (w_hp : msk .hp = false)
    (w_evt : msk .evt = false) (w_ream : msk .ream = false) (w_posts : msk .posts = false)
    (w_tiles : msk .tiles = false) (w_felt : msk .felt = false) (w_tiers : msk .tiers = false)
    (w_gat : msk .gat = false) (w_rel : msk .rel = false) :
    Same msk s0 (State.checkXfer s t c w v) := by
  unfold State.checkXfer
  repeat' first
    | with_reducible first
      | assumption | exact Same.refl _ _ | apply State.count_same | apply State.failCtx_same
      | apply State.enqueue_same | apply State.xferBad_same | apply State.xferFault_same | apply Same.ite
    | dsimp only | split

theorem State.feltFetch_same {msk : Field → Bool} {s0 s : State} (h0 : Same msk s0 s) (t : Nat) (c : Nat) (w : Bytes)
    (v : Ctx) (w_free : msk .free = false) (w_mem : msk .mem = false) (w_ctr : msk .ctr = false)
    (w_parts : msk .parts = false) (w_io : msk .io = false) (w_hp : msk .hp = false) (w_evt : msk .evt = false)
    (w_ream : msk .ream = false) (w_posts : msk .posts = false) (w_tiles : msk .tiles = false)
    (w_felt : msk .felt = false) (w_tiers : msk .tiers = false) (w_gat : msk .gat = false) (w_rel : msk .rel = false)
    :
    Same msk s0 (State.feltFetch s t c w v) := by
  unfold State.feltFetch
  repeat' first
    | with_reducible first
      | assumption | exact Same.refl _ _ | apply State.modTile_same | apply State.failCtx_same
      | apply State.signal_same | apply State.enqueue_same | apply Same.ite
    | dsimp only | split

theorem execFetch_same {msk : Field → Bool} (s : State) (tile : Nat) (ctx : Nat) (w_free : msk .free = false)
    (w_mem : msk .mem = false) (w_ctr : msk .ctr = false) (w_parts : msk .parts = false) (w_fe : msk .fe = false)
    (w_io : msk .io = false) (w_hp : msk .hp = false) (w_evt : msk .evt = false) (w_ream : msk .ream = false)
    (w_posts : msk .posts = false) (w_tiles : msk .tiles = false) (w_felt : msk .felt = false)
    (w_tiers : msk .tiers = false) (w_gat : msk .gat = false) (w_rel : msk .rel = false) :
    ∃ t, execFetch tile ctx s = .next t ∧ Same msk s t := by
  refine ⟨_, rfl, ?_⟩
  repeat' first
    | with_reducible first
      | assumption | exact Same.refl _ _ | apply State.issue1_same | apply State.checkXfer_same
      | apply State.feltFetch_same | apply Same.ite | intro _
    | dsimp only | split

theorem execPut_same {msk : Field → Bool} (s : State) (tile : Nat) (ctx : Nat) (w_free : msk .free = false)
    (w_mem : msk .mem = false) (w_ctr : msk .ctr = false) (w_parts : msk .parts = false) (w_fe : msk .fe = false)
    (w_io : msk .io = false) (w_hp : msk .hp = false) (w_evt : msk .evt = false) (w_ream : msk .ream = false)
    (w_posts : msk .posts = false) (w_tiles : msk .tiles = false) (w_felt : msk .felt = false)
    (w_tiers : msk .tiers = false) (w_gat : msk .gat = false) (w_rel : msk .rel = false) :
    ∃ t, execPut tile ctx s = .next t ∧ Same msk s t := by
  refine ⟨_, rfl, ?_⟩
  repeat' first
    | with_reducible first
      | assumption | exact Same.refl _ _ | apply State.issue1_same | apply State.enqueue_same
      | apply State.checkXfer_same | apply Same.ite | intro _
    | dsimp only | split

theorem State.takeReads_same {msk : Field → Bool} {s0 s : State} (h0 : Same msk s0 s) (j : XferJob)
    (w_io : msk .io = false) :
    Same msk s0 (State.takeReads s j).2.2 := by
  unfold State.takeReads
  repeat' first
    | with_reducible first
      | assumption | exact Same.refl _ _ | refine Same.foldl ?_ _ _ (fun _ _ _ => ?_)
      | refine Same.foldl_fst _ _ (fun _ _ _ => ?_) _ ?_ | refine Same.foldl_snd _ _ (fun _ _ _ => ?_) _ ?_
      | apply SameParts.same | apply SameParts.upd_io | refine Same.of_fst (by assumption) ?_
      | refine Same.of_snd (by assumption) ?_ | intro _
    | dsimp only | simp only [same_mk] | split

theorem execFetchComplete_same {msk : Field → Bool} (s : State) (tile : Nat) (cls : Nat) (data : Rd)
    (w_free : msk .free = false) (w_mem : msk .mem = false) (w_ctr : msk .ctr = false) (w_io : msk .io = false)
    (w_posts : msk .posts = false) (w_tiles : msk .tiles = false) (w_tiers : msk .tiers = false)
    (w_gat : msk .gat = false) :
    ∃ t, execFetchComplete tile cls data s = .next t ∧ Same msk s t := by
  refine ⟨_, rfl, ?_⟩
  repeat' first
    | with_reducible first
      | assumption | exact Same.refl _ _ | apply State.spWrite_same | apply State.failPost_same
      | apply State.fetchRead_same | apply State.fetchCache_same | apply State.fetchDone_same
      | apply State.takeReads_same | apply Same.ite | refine Same.of_snd3 (by assumption) ?_
    | dsimp only | split

theorem State.putNow_same {msk : Field → Bool} {s0 s : State} (h0 : Same msk s0 s) (t : Nat) (j : XferJob)
    (w_free : msk .free = false) (w_mem : msk .mem = false) (w_ctr : msk .ctr = false) (w_parts : msk .parts = false)
    (w_io : msk .io = false) (w_hp : msk .hp = false) (w_evt : msk .evt = false) (w_ream : msk .ream = false)
    (w_posts : msk .posts = false) (w_tiles : msk .tiles = false) (w_tiers : msk .tiers = false)
    (w_gat : msk .gat = false) (w_rel : msk .rel = false) :
    Same msk s0 (State.putNow s t j) := by
  unfold State.putNow
  repeat' first
    | with_reducible first
      | assumption | exact Same.refl _ _ | apply State.signal_same | apply State.consume_same
      | apply State.putOut_same | apply State.dropJob_same | apply State.ringLines_same | apply Same.ite
    | dsimp only | split

theorem execPutComplete_same {msk : Field → Bool} (s : State) (tile : Nat) (cls : Nat) (w_free : msk .free = false)
    (w_mem : msk .mem = false) (w_ctr : msk .ctr = false) (w_parts : msk .parts = false) (w_io : msk .io = false)
    (w_hp : msk .hp = false) (w_evt : msk .evt = false) (w_ream : msk .ream = false) (w_posts : msk .posts = false)
    (w_tiles : msk .tiles = false) (w_tiers : msk .tiers = false) (w_gat : msk .gat = false)
    (w_rel : msk .rel = false) :
    ∃ t, execPutComplete tile cls s = .next t ∧ Same msk s t := by
  refine ⟨_, rfl, ?_⟩
  repeat' first
    | with_reducible first
      | assumption | exact Same.refl _ _ | apply State.setOut_same | apply State.dropJob_same
      | apply State.ringLines_same | apply State.putNow_same | apply Same.ite
    | dsimp only | split

theorem State.sheetsFor_same {msk : Field → Bool} {s0 s : State} (h0 : Same msk s0 s) (t : Nat) (src : Nat) (c : Nat)
    (line : Nat) (n : Nat) (v : Ctx) (rs : List (Nat × Bytes)) (bad : List Nat) (w_free : msk .free = false)
    (w_mem : msk .mem = false) (w_ctr : msk .ctr = false) (w_posts : msk .posts = false)
    (w_tiles : msk .tiles = false) (w_gat : msk .gat = false) :
    Same msk s0 (State.sheetsFor s t src c line n v rs bad) := by
  unfold State.sheetsFor
  repeat' first
    | with_reducible first
      | assumption | exact Same.refl _ _ | apply State.modTile_same | apply State.failCtx_same | apply State.land_same
      | apply State.fetchDone_same | apply Same.ite
    | dsimp only | split

theorem execFeltArrival_same {msk : Field → Bool} (s : State) (tile : Nat) (src : Nat) (w_free : msk .free = false)
    (w_mem : msk .mem = false) (w_ctr : msk .ctr = false) (w_parts : msk .parts = false) (w_fe : msk .fe = false)
    (w_io : msk .io = false) (w_hp : msk .hp = false) (w_evt : msk .evt = false) (w_ream : msk .ream = false)
    (w_posts : msk .posts = false) (w_slots : msk .slots = false) (w_tiles : msk .tiles = false)
    (w_felt : msk .felt = false) (w_tiers : msk .tiers = false) (w_gat : msk .gat = false) (w_rel : msk .rel = false)
    :
    ∃ t, execFeltArrival tile src s = .next t ∧ Same msk s t := by
  refine ⟨_, rfl, ?_⟩
  repeat' first
    | with_reducible first
      | assumption | exact Same.refl _ _ | apply State.count_same | apply State.causeAll_same
      | apply State.modTile_same | apply State.failPost_same | apply State.settle_same | apply State.takeFelt_same
      | apply State.land_same | apply State.sheetsFor_same | apply Same.ite
    | dsimp only | split

end Sys2Proof.Machine
end

