-- ==== Sys2Proof/Laws/SameGather.lean ====
section
/-! SUPPORT. `Same` for lookups, updates and migration:
the parts of the state each operation leaves alone. -/

namespace Sys2Proof.Machine
set_option linter.unusedTactic false
set_option linter.unreachableTactic false

theorem State.staleDelta_same {msk : Field → Bool} {s0 s : State} (h0 : Same msk s0 s) (tile : Nat) (was : Bool)
    (is : Bool) (w_ctr : msk .ctr = false) :
    Same msk s0 (State.staleDelta s tile was is) := by
  unfold State.staleDelta
  repeat' first
    | with_reducible first
      | assumption | exact Same.refl _ _ | apply State.setCtr_same | apply Same.ite
    | dsimp only | split

theorem State.bucketClear_same {msk : Field → Bool} {s0 s : State} (h0 : Same msk s0 s) (tile : Nat) (u : Nat)
    (loc : Nat) (w_mem : msk .mem = false) :
    Same msk s0 (State.bucketClear s tile u loc) := by
  unfold State.bucketClear
  repeat' first
    | with_reducible first
      | assumption | exact Same.refl _ _ | apply Same.ite | apply SameParts.same | apply SameParts.upd_mem
    | dsimp only | simp only [same_mk] | split

theorem State.setDir_same {msk : Field → Bool} {s0 s : State} (h0 : Same msk s0 s) (tile : Nat) (u : Nat) (loc : Nat)
    (e : Option DirEnt) (w_mem : msk .mem = false) (w_ctr : msk .ctr = false) (w_gat : msk .gat = false) :
    Same msk s0 (State.setDir s tile u loc e) := by
  unfold State.setDir
  repeat' first
    | with_reducible first
      | assumption | exact Same.refl _ _ | apply State.staleDelta_same | apply State.bucketClear_same
      | apply SameParts.same | apply SameParts.upd_gat
    | dsimp only | simp only [same_mk] | split

theorem State.writeCopy_same {msk : Field → Bool} {s0 s : State} (h0 : Same msk s0 s) (a : Nat) (b : Bytes)
    (w_free : msk .free = false) (w_mem : msk .mem = false) (w_ctr : msk .ctr = false) (w_parts : msk .parts = false)
    (w_io : msk .io = false) (w_hp : msk .hp = false) (w_evt : msk .evt = false) (w_tiers : msk .tiers = false)
    (w_rel : msk .rel = false) :
    Same msk s0 (State.writeCopy s a b) := by
  unfold State.writeCopy
  repeat' first
    | with_reducible first
      | assumption | exact Same.refl _ _ | apply State.writeT1_same | apply Same.ite | apply SameParts.same
      | apply SameParts.upd_mem
    | dsimp only | simp only [same_mk] | split

theorem State.rowCache_same {msk : Field → Bool} {s0 s : State} (h0 : Same msk s0 s) (u : Nat) (a : Nat) (n : Nat)
    (w_ctr : msk .ctr = false) (w_tiers : msk .tiers = false) :
    Same msk s0 (State.rowCache s u a n) := by
  unfold State.rowCache
  repeat' first
    | with_reducible first
      | assumption | exact Same.refl _ _ | refine Same.each ?_ _ _ (fun _ _ _ => ?_) | apply State.rebuild_same
      | apply State.cacheLook_same | apply Same.ite | intro _
    | dsimp only | split

theorem State.setGwork_same {msk : Field → Bool} {s0 s : State} (h0 : Same msk s0 s) (w : GWork)
    (w_gat : msk .gat = false) :
    Same msk s0 (State.setGwork s w) := by
  unfold State.setGwork
  repeat' first
    | with_reducible first
      | assumption | exact Same.refl _ _ | apply Same.ite | apply SameParts.same | apply SameParts.upd_gat
    | dsimp only | simp only [same_mk] | split

theorem State.setUwork_same {msk : Field → Bool} {s0 s : State} (h0 : Same msk s0 s) (w : UWork)
    (w_gat : msk .gat = false) :
    Same msk s0 (State.setUwork s w) := by
  unfold State.setUwork
  repeat' first
    | with_reducible first
      | assumption | exact Same.refl _ _ | apply Same.ite | apply SameParts.same | apply SameParts.upd_gat
    | dsimp only | simp only [same_mk] | split

theorem State.delGwork_same {msk : Field → Bool} {s0 s : State} (h0 : Same msk s0 s) (t : Nat) (k : Nat) (u : Nat)
    (w_gat : msk .gat = false) :
    Same msk s0 (State.delGwork s t k u) := by
  unfold State.delGwork
  repeat' first
    | with_reducible first
      | assumption | exact Same.refl _ _ | apply SameParts.same | apply SameParts.upd_gat
    | dsimp only | simp only [same_mk] | split

theorem State.delUwork_same {msk : Field → Bool} {s0 s : State} (h0 : Same msk s0 s) (t : Nat) (k : Nat) (u : Nat)
    (w_gat : msk .gat = false) :
    Same msk s0 (State.delUwork s t k u) := by
  unfold State.delUwork
  repeat' first
    | with_reducible first
      | assumption | exact Same.refl _ _ | apply SameParts.same | apply SameParts.upd_gat
    | dsimp only | simp only [same_mk] | split

theorem State.dispatchDone_same {msk : Field → Bool} {s0 s : State} (h0 : Same msk s0 s) (t : Nat)
    (w_ctr : msk .ctr = false) (w_posts : msk .posts = false) (w_tiles : msk .tiles = false)
    (w_gat : msk .gat = false) :
    Same msk s0 (State.dispatchDone s t) := by
  unfold State.dispatchDone
  repeat' first
    | with_reducible first
      | assumption | exact Same.refl _ _ | refine Same.each ?_ _ _ (fun _ _ _ => ?_) | apply State.modTile_same
      | apply State.signal_same | intro _
    | dsimp only | split

theorem State.accept_same {msk : Field → Bool} {s0 s : State} (h0 : Same msk s0 s) (f : Flight)
    (w_ctr : msk .ctr = false) (w_posts : msk .posts = false) (w_tiles : msk .tiles = false)
    (w_felt : msk .felt = false) (w_gat : msk .gat = false) :
    Same msk s0 (State.accept s f) := by
  unfold State.accept
  repeat' first
    | with_reducible first
      | assumption | exact Same.refl _ _ | apply State.takeFelt_same | apply State.dispatchDone_same
    | dsimp only | split

theorem State.startGop_same {msk : Field → Bool} {s0 s : State} (h0 : Same msk s0 s) (t : Nat) (c : Nat) (k : Nat)
    (n : Nat) (w : Bytes) (w_ctr : msk .ctr = false) (w_posts : msk .posts = false) (w_tiles : msk .tiles = false)
    (w_gat : msk .gat = false) :
    Same msk s0 (State.startGop s t c k n w) := by
  unfold State.startGop
  repeat' first
    | with_reducible first
      | assumption | exact Same.refl _ _ | apply State.modPost_same | apply State.modTile_same
      | apply State.dispatchDone_same
    | dsimp only | split

theorem State.strikeT0_same {msk : Field → Bool} {s0 s : State} (h0 : Same msk s0 s) (t : Nat) (n : Nat)
    (w_mem : msk .mem = false) (w_ctr : msk .ctr = false) (w_posts : msk .posts = false) (w_rel : msk .rel = false) :
    Same msk s0 (State.strikeT0 s t n) := by
  unfold State.strikeT0
  repeat' first
    | with_reducible first
      | assumption | exact Same.refl _ _ | apply State.setPost_same | apply State.count_same
      | apply State.plogAdd_same | apply State.poisonT0_same | apply Same.ite
    | dsimp only | split

theorem State.dispatchBag_same {msk : Field → Bool} {s0 s : State} (h0 : Same msk s0 s) (tile : Nat) (k : Nat)
    (n : Nat) (b : Bytes) (queries : Nat) (l : Nat) (q : Nat) (w_ctr : msk .ctr = false) (w_io : msk .io = false)
    (w_posts : msk .posts = false) (w_felt : msk .felt = false) :
    Same msk s0 (State.dispatchBag s tile k n b queries l q) := by
  unfold State.dispatchBag
  repeat' first
    | with_reducible first
      | assumption | exact Same.refl _ _ | refine Same.each ?_ _ _ (fun _ _ _ => ?_) | apply State.modPost_same
      | apply State.count_same | apply State.sendFelt_same | apply Same.ite | intro _
    | dsimp only | split

theorem State.dispatchEnds_same {msk : Field → Bool} {s0 s : State} (h0 : Same msk s0 s) (tile : Nat) (k : Nat)
    (n : Nat) (w_io : msk .io = false) (w_felt : msk .felt = false) :
    Same msk s0 (State.dispatchEnds s tile k n) := by
  unfold State.dispatchEnds
  repeat' first
    | with_reducible first
      | assumption | exact Same.refl _ _ | refine Same.each ?_ _ _ (fun _ _ _ => ?_) | apply State.sendFelt_same
      | intro _
    | dsimp only | split

theorem execDispatch_same {msk : Field → Bool} (s : State) (tile : Nat) (ctx : Nat) (w_ctr : msk .ctr = false)
    (w_io : msk .io = false) (w_ream : msk .ream = false) (w_posts : msk .posts = false)
    (w_tiles : msk .tiles = false) (w_felt : msk .felt = false) (w_gat : msk .gat = false) (w_rel : msk .rel = false)
    :
    ∃ t, execDispatch tile ctx s = .next t ∧ Same msk s t := by
  refine ⟨_, rfl, ?_⟩
  repeat' first
    | with_reducible first
      | assumption | exact Same.refl _ _ | refine Same.each ?_ _ _ (fun _ _ _ => ?_) | apply State.consume_same
      | apply State.issue1_same | apply State.startGop_same | apply State.dispatchBag_same
      | apply State.dispatchEnds_same | apply Same.ite | intro _
    | dsimp only | split

theorem State.sendOver_same {msk : Field → Bool} {s0 s : State} (h0 : Same msk s0 s) (tile : Nat) (k : Nat) (u : Nat)
    (w_io : msk .io = false) (w_felt : msk .felt = false) :
    Same msk s0 (State.sendOver s tile k u) := by
  unfold State.sendOver
  repeat' first
    | with_reducible first
      | assumption | exact Same.refl _ _ | apply State.sendFelt_same
    | dsimp only | split

theorem State.stopUnit_same {msk : Field → Bool} {s0 s : State} (h0 : Same msk s0 s) (g : GWork)
    (w_io : msk .io = false) (w_felt : msk .felt = false) (w_gat : msk .gat = false) :
    Same msk s0 (State.stopUnit s g) := by
  unfold State.stopUnit
  repeat' first
    | with_reducible first
      | assumption | exact Same.refl _ _ | apply State.setGwork_same | apply State.sendOver_same
    | dsimp only | split

theorem State.gatherOver_same {msk : Field → Bool} {s0 s : State} (h0 : Same msk s0 s) (g : GWork)
    (w_ctr : msk .ctr = false) (w_io : msk .io = false) (w_posts : msk .posts = false) (w_felt : msk .felt = false)
    (w_gat : msk .gat = false) :
    Same msk s0 (State.gatherOver s g) := by
  unfold State.gatherOver
  repeat' first
    | with_reducible first
      | assumption | exact Same.refl _ _ | apply State.modPost_same | apply State.count_same
      | apply State.stopUnit_same | apply Same.ite
    | dsimp only | split

theorem State.gatherPeak_same {msk : Field → Bool} {s0 s : State} (h0 : Same msk s0 s) (u : Nat) (n : Nat)
    (w_ctr : msk .ctr = false) :
    Same msk s0 (State.gatherPeak s u n) := by
  unfold State.gatherPeak
  repeat' first
    | with_reducible first
      | assumption | exact Same.refl _ _ | apply State.setCtr_same | apply Same.ite
    | dsimp only | split

theorem State.coalesce_same {msk : Field → Bool} {s0 s : State} (h0 : Same msk s0 s) (g : GWork) (q : Nat) (loc : Nat)
    (w : Word) (w_ctr : msk .ctr = false) (w_io : msk .io = false) (w_posts : msk .posts = false)
    (w_felt : msk .felt = false) (w_gat : msk .gat = false) :
    Same msk s0 (State.coalesce s g q loc w) := by
  unfold State.coalesce
  repeat' first
    | with_reducible first
      | assumption | exact Same.refl _ _ | apply State.count_same | apply State.setGwork_same
      | apply State.gatherOver_same | apply State.gatherPeak_same | apply Same.ite
    | dsimp only | split

theorem State.entryTurn_same {msk : Field → Bool} {s0 s t : State} {src dst : Nat} {f : Flight}
    (e : s.entryTurn src dst = some (f, t)) (h0 : Same msk s0 s) (w_free : msk .free = false) : Same msk s0 t := by
  simp only [State.entryTurn, Option.map_eq_some_iff, Prod.mk.injEq] at e
  obtain ⟨_, _, _, rfl⟩ := e
  exact State.freeVal_same h0 w_free

theorem execGatherEntryArrival_same {msk : Field → Bool} (s : State) (tile : Nat) (src : Nat)
    (w_free : msk .free = false) (w_ctr : msk .ctr = false) (w_io : msk .io = false) (w_posts : msk .posts = false)
    (w_tiles : msk .tiles = false) (w_felt : msk .felt = false) (w_gat : msk .gat = false) :
    ∃ t, execGatherEntryArrival tile src s = .next t ∧ Same msk s t := by
  refine ⟨_, rfl, ?_⟩
  repeat' first
    | with_reducible first
      | assumption | exact Same.refl _ _ | refine State.entryTurn_same (by assumption) ?_ (by assumption)
      | apply State.accept_same | apply State.coalesce_same | apply Same.ite
    | dsimp only | split

theorem State.sendPartials_same {msk : Field → Bool} {s0 s : State} (h0 : Same msk s0 s) (g : GWork)
    (w_io : msk .io = false) (w_felt : msk .felt = false) (w_gat : msk .gat = false) :
    Same msk s0 (State.sendPartials s g) := by
  unfold State.sendPartials
  repeat' first
    | with_reducible first
      | assumption | exact Same.refl _ _ | refine Same.each ?_ _ _ (fun _ _ _ => ?_) | apply State.sendFelt_same
      | apply State.delGwork_same | intro _
    | dsimp only | split

theorem State.issueRead_same {msk : Field → Bool} {s0 s : State} (h0 : Same msk s0 s) (tile : Nat) (k : Nat) (u : Nat)
    (loc : Nat) (w_ctr : msk .ctr = false) (w_io : msk .io = false) (w_posts : msk .posts = false)
    (w_felt : msk .felt = false) (w_tiers : msk .tiers = false) (w_gat : msk .gat = false) :
    Same msk s0 (State.issueRead s tile k u loc) := by
  unfold State.issueRead
  repeat' first
    | with_reducible first
      | assumption | exact Same.refl _ _ | apply State.count_same | apply State.rowCache_same
      | apply State.setGwork_same | apply State.gatherOver_same | apply Same.ite | apply SameParts.same
      | apply SameParts.upd_gat
    | dsimp only | simp only [same_mk] | split

theorem State.startReads_same {msk : Field → Bool} {s0 s : State} (h0 : Same msk s0 s) (g : GWork)
    (w_ctr : msk .ctr = false) (w_io : msk .io = false) (w_posts : msk .posts = false) (w_felt : msk .felt = false)
    (w_tiers : msk .tiers = false) (w_gat : msk .gat = false) :
    Same msk s0 (State.startReads s g) := by
  unfold State.startReads
  repeat' first
    | with_reducible first
      | assumption | exact Same.refl _ _ | refine Same.each ?_ _ _ (fun _ _ _ => ?_) | apply State.sendPartials_same
      | apply State.issueRead_same | apply Same.ite | intro _
    | dsimp only | split

theorem execGatherEndMarkerArrival_same {msk : Field → Bool} (s : State) (tile : Nat) (src : Nat)
    (w_ctr : msk .ctr = false) (w_io : msk .io = false) (w_posts : msk .posts = false) (w_tiles : msk .tiles = false)
    (w_felt : msk .felt = false) (w_tiers : msk .tiers = false) (w_gat : msk .gat = false) :
    ∃ t, execGatherEndMarkerArrival tile src s = .next t ∧ Same msk s t := by
  refine ⟨_, rfl, ?_⟩
  repeat' first
    | with_reducible first
      | assumption | exact Same.refl _ _ | apply State.setGwork_same | apply State.accept_same
      | apply State.startReads_same | apply Same.ite
    | dsimp only | split

theorem execGatherRowReadDone_same {msk : Field → Bool} (s : State) (tile : Nat) (post : Nat) (table : Nat)
    (loc : Nat) (w_io : msk .io = false) (w_felt : msk .felt = false) (w_gat : msk .gat = false) :
    ∃ t, execGatherRowReadDone tile post table loc s = .next t ∧ Same msk s t := by
  refine ⟨_, rfl, ?_⟩
  repeat' first
    | with_reducible first
      | assumption | exact Same.refl _ _ | apply State.setGwork_same | apply State.sendPartials_same | apply Same.ite
    | dsimp only | split

theorem execCombine_same {msk : Field → Bool} (s : State) (tile : Nat) (ctx : Nat) (w_mem : msk .mem = false)
    (w_ctr : msk .ctr = false) (w_posts : msk .posts = false) (w_tiles : msk .tiles = false)
    (w_gat : msk .gat = false) :
    ∃ t, execCombine tile ctx s = .next t ∧ Same msk s t := by
  refine ⟨_, rfl, ?_⟩
  repeat' first
    | with_reducible first
      | assumption | exact Same.refl _ _ | refine Same.each ?_ _ _ (fun _ _ _ => ?_) | apply State.modTile_same
      | apply State.spPatch_same | apply State.signal_same | apply State.issue1_same | apply Same.ite
      | apply SameParts.same | apply SameParts.upd_gat | intro _
    | dsimp only | simp only [same_mk] | split

theorem State.stray_same {msk : Field → Bool} {s0 s : State} (h0 : Same msk s0 s) (t : Nat) (k : Nat) (n : Nat)
    (block : Option Nat) (w_free : msk .free = false) (w_mem : msk .mem = false) (w_ctr : msk .ctr = false)
    (w_parts : msk .parts = false) (w_fe : msk .fe = false) (w_io : msk .io = false) (w_hp : msk .hp = false)
    (w_evt : msk .evt = false) (w_ream : msk .ream = false) (w_posts : msk .posts = false)
    (w_slots : msk .slots = false) (w_tiles : msk .tiles = false) (w_tiers : msk .tiers = false)
    (w_gat : msk .gat = false) (w_rel : msk .rel = false) :
    Same msk s0 (State.stray s t k n block) := by
  unfold State.stray
  repeat' first
    | with_reducible first
      | assumption | exact Same.refl _ _ | apply State.count_same | apply State.failPost_same
      | apply State.settle_same | apply Same.ite
    | dsimp only | split

theorem State.addPartial_same {msk : Field → Bool} {s0 s : State} (h0 : Same msk s0 s) (t : Nat) (g : GatherOp)
    (off : Nat) (q : Nat) (v : List Word) (w_mem : msk .mem = false) (w_ream : msk .ream = false)
    (w_posts : msk .posts = false) (w_tiles : msk .tiles = false) (w_gat : msk .gat = false)
    (w_rel : msk .rel = false) :
    Same msk s0 (State.addPartial s t g off q v) := by
  unfold State.addPartial
  repeat' first
    | with_reducible first
      | assumption | exact Same.refl _ _ | apply State.spPatch_same | apply State.consume_same | apply Same.ite
    | dsimp only | split

theorem execPartialArrival_same {msk : Field → Bool} (s : State) (tile : Nat) (src : Nat) (w_free : msk .free = false)
    (w_mem : msk .mem = false) (w_ctr : msk .ctr = false) (w_parts : msk .parts = false) (w_fe : msk .fe = false)
    (w_io : msk .io = false) (w_hp : msk .hp = false) (w_evt : msk .evt = false) (w_ream : msk .ream = false)
    (w_posts : msk .posts = false) (w_slots : msk .slots = false) (w_tiles : msk .tiles = false)
    (w_felt : msk .felt = false) (w_tiers : msk .tiers = false) (w_gat : msk .gat = false) (w_rel : msk .rel = false)
    :
    ∃ t, execPartialArrival tile src s = .next t ∧ Same msk s t := by
  refine ⟨_, rfl, ?_⟩
  repeat' first
    | with_reducible first
      | assumption | exact Same.refl _ _ | apply State.consume_same | apply State.takeFelt_same
      | apply State.stray_same | apply State.addPartial_same | apply Same.ite
    | dsimp only | split

theorem State.combineEnd_same {msk : Field → Bool} {s0 s : State} (h0 : Same msk s0 s) (t : Nat) (g : GatherOp)
    (m : Nat) (w_ctr : msk .ctr = false) (w_posts : msk .posts = false) (w_tiles : msk .tiles = false)
    (w_gat : msk .gat = false) :
    Same msk s0 (State.combineEnd s t g m) := by
  unfold State.combineEnd
  repeat' first
    | with_reducible first
      | assumption | exact Same.refl _ _ | apply State.modTile_same | apply State.signal_same | apply Same.ite
    | dsimp only | split

theorem execCombineEndMarkerArrival_same {msk : Field → Bool} (s : State) (tile : Nat) (src : Nat)
    (w_free : msk .free = false) (w_mem : msk .mem = false) (w_ctr : msk .ctr = false) (w_parts : msk .parts = false)
    (w_fe : msk .fe = false) (w_io : msk .io = false) (w_hp : msk .hp = false) (w_evt : msk .evt = false)
    (w_ream : msk .ream = false) (w_posts : msk .posts = false) (w_slots : msk .slots = false)
    (w_tiles : msk .tiles = false) (w_felt : msk .felt = false) (w_tiers : msk .tiers = false)
    (w_gat : msk .gat = false) (w_rel : msk .rel = false) :
    ∃ t, execCombineEndMarkerArrival tile src s = .next t ∧ Same msk s t := by
  refine ⟨_, rfl, ?_⟩
  repeat' first
    | with_reducible first
      | assumption | exact Same.refl _ _ | refine Same.each ?_ _ _ (fun _ _ _ => ?_) | apply State.takeFelt_same
      | apply State.stray_same | apply State.combineEnd_same | apply Same.ite | apply SameParts.same
      | apply SameParts.upd_gat | intro _
    | dsimp only | simp only [same_mk] | split

theorem execOverMarkerArrival_same {msk : Field → Bool} (s : State) (tile : Nat) (src : Nat)
    (w_free : msk .free = false) (w_mem : msk .mem = false) (w_ctr : msk .ctr = false) (w_parts : msk .parts = false)
    (w_fe : msk .fe = false) (w_io : msk .io = false) (w_hp : msk .hp = false) (w_evt : msk .evt = false)
    (w_ream : msk .ream = false) (w_posts : msk .posts = false) (w_slots : msk .slots = false)
    (w_tiles : msk .tiles = false) (w_felt : msk .felt = false) (w_tiers : msk .tiers = false)
    (w_gat : msk .gat = false) (w_rel : msk .rel = false) :
    ∃ t, execOverMarkerArrival tile src s = .next t ∧ Same msk s t := by
  refine ⟨_, rfl, ?_⟩
  repeat' first
    | with_reducible first
      | assumption | exact Same.refl _ _ | refine Same.each ?_ _ _ (fun _ _ _ => ?_) | apply State.modTile_same
      | apply State.failPost_same | apply State.signal_same | apply State.settle_same | apply State.takeFelt_same
      | apply Same.ite | intro _
    | dsimp only | split

theorem State.gradEntry_same {msk : Field → Bool} {s0 s : State} (h0 : Same msk s0 s) (tile : Nat) (k : Nat) (n : Nat)
    (l : Bytes) (bad : List Nat) (off : Nat) (len : Nat) (i : Nat) (w_ctr : msk .ctr = false) (w_io : msk .io = false)
    (w_posts : msk .posts = false) (w_felt : msk .felt = false) :
    Same msk s0 (State.gradEntry s tile k n l bad off len i) := by
  unfold State.gradEntry
  repeat' first
    | with_reducible first
      | assumption | exact Same.refl _ _ | apply State.modPost_same | apply State.count_same
      | apply State.sendFelt_same | apply Same.ite
    | dsimp only | split

theorem State.gradEnds_same {msk : Field → Bool} {s0 s : State} (h0 : Same msk s0 s) (tile : Nat) (k : Nat) (n : Nat)
    (scale : Word) (w_io : msk .io = false) (w_felt : msk .felt = false) :
    Same msk s0 (State.gradEnds s tile k n scale) := by
  unfold State.gradEnds
  repeat' first
    | with_reducible first
      | assumption | exact Same.refl _ _ | refine Same.each ?_ _ _ (fun _ _ _ => ?_) | apply State.sendFelt_same
      | intro _
    | dsimp only | split

theorem execGradDispatch_same {msk : Field → Bool} (s : State) (tile : Nat) (ctx : Nat) (w_ctr : msk .ctr = false)
    (w_io : msk .io = false) (w_ream : msk .ream = false) (w_posts : msk .posts = false)
    (w_tiles : msk .tiles = false) (w_felt : msk .felt = false) (w_gat : msk .gat = false) (w_rel : msk .rel = false)
    :
    ∃ t, execGradDispatch tile ctx s = .next t ∧ Same msk s t := by
  refine ⟨_, rfl, ?_⟩
  repeat' first
    | with_reducible first
      | assumption | exact Same.refl _ _ | refine Same.each ?_ _ _ (fun _ _ _ => ?_) | apply State.consume_same
      | apply State.issue1_same | apply State.startGop_same | apply State.gradEntry_same | apply State.gradEnds_same
      | apply Same.ite | intro _
    | dsimp only | split

theorem State.updateRow_same {msk : Field → Bool} {s0 s : State} (h0 : Same msk s0 s) (step : Nat) (g : UWork)
    (k : Nat) (loc : Nat) (w_ctr : msk .ctr = false) (w_posts : msk .posts = false) (w_tiers : msk .tiers = false)
    (w_gat : msk .gat = false) :
    Same msk s0 (State.updateRow s step g k loc).1 := by
  unfold State.updateRow
  repeat' first
    | with_reducible first
      | assumption | exact Same.refl _ _ | apply State.modPost_same | apply State.count_same
      | apply State.rowCache_same | apply Same.ite | apply SameParts.same | apply SameParts.upd_gat
    | dsimp only | simp only [same_mk] | split

theorem State.runUpdate_same {msk : Field → Bool} {s0 s : State} (h0 : Same msk s0 s) (g : UWork)
    (w_ctr : msk .ctr = false) (w_posts : msk .posts = false) (w_tiers : msk .tiers = false)
    (w_gat : msk .gat = false) :
    Same msk s0 (State.runUpdate s g) := by
  unfold State.runUpdate
  repeat' first
    | with_reducible first
      | assumption | exact Same.refl _ _ | refine Same.foldl ?_ _ _ (fun _ _ _ => ?_)
      | refine Same.foldl_fst _ _ (fun _ _ _ => ?_) _ ?_ | refine Same.foldl_snd _ _ (fun _ _ _ => ?_) _ ?_
      | apply State.setUwork_same | apply State.updateRow_same | apply Same.ite
      | refine Same.of_fst (by assumption) ?_ | refine Same.of_snd (by assumption) ?_
      | refine Same.of_fst3 (by assumption) ?_ | intro _
    | dsimp only | split

theorem execUpdateStepStart_same {msk : Field → Bool} (s : State) (tile : Nat) (post : Nat) (table : Nat)
    (w_ctr : msk .ctr = false) (w_posts : msk .posts = false) (w_tiers : msk .tiers = false)
    (w_gat : msk .gat = false) :
    ∃ t, execUpdateStepStart tile post table s = .next t ∧ Same msk s t := by
  refine ⟨_, rfl, ?_⟩
  repeat' first
    | with_reducible first
      | assumption | exact Same.refl _ _ | apply State.runUpdate_same | apply Same.ite
    | dsimp only | split

theorem State.addGrad_same {msk : Field → Bool} {s0 s : State} (h0 : Same msk s0 s) (g : UWork) (loc : Nat)
    (x : List Word) (bad : Bool) (w_ctr : msk .ctr = false) (w_gat : msk .gat = false) :
    Same msk s0 (State.addGrad s g loc x bad) := by
  unfold State.addGrad
  repeat' first
    | with_reducible first
      | assumption | exact Same.refl _ _ | apply State.count_same | apply State.setUwork_same | apply Same.ite
    | dsimp only | split

theorem execGradientArrival_same {msk : Field → Bool} (s : State) (tile : Nat) (src : Nat) (w_ctr : msk .ctr = false)
    (w_posts : msk .posts = false) (w_tiles : msk .tiles = false) (w_felt : msk .felt = false)
    (w_gat : msk .gat = false) :
    ∃ t, execGradientArrival tile src s = .next t ∧ Same msk s t := by
  refine ⟨_, rfl, ?_⟩
  repeat' first
    | with_reducible first
      | assumption | exact Same.refl _ _ | apply State.accept_same | apply State.addGrad_same | apply Same.ite
    | dsimp only | split

theorem execUpdateEndMarkerArrival_same {msk : Field → Bool} (s : State) (tile : Nat) (src : Nat)
    (w_ctr : msk .ctr = false) (w_posts : msk .posts = false) (w_tiles : msk .tiles = false)
    (w_felt : msk .felt = false) (w_tiers : msk .tiers = false) (w_gat : msk .gat = false) :
    ∃ t, execUpdateEndMarkerArrival tile src s = .next t ∧ Same msk s t := by
  refine ⟨_, rfl, ?_⟩
  repeat' first
    | with_reducible first
      | assumption | exact Same.refl _ _ | apply State.accept_same | apply State.runUpdate_same | apply Same.ite
    | dsimp only | split

theorem State.notePeak_same {msk : Field → Bool} {s0 s : State} (h0 : Same msk s0 s) (w_gat : msk .gat = false) :
    Same msk s0 (State.notePeak s) := by
  unfold State.notePeak
  repeat' first
    | with_reducible first
      | assumption | exact Same.refl _ _ | apply SameParts.same | apply SameParts.upd_gat
    | dsimp only | simp only [same_mk] | split

theorem State.sendReports_same {msk : Field → Bool} {s0 s : State} (h0 : Same msk s0 s) (w_gat : msk .gat = false) :
    Same msk s0 (State.sendReports s) := by
  unfold State.sendReports
  repeat' first
    | with_reducible first
      | assumption | exact Same.refl _ _ | refine Same.each ?_ _ _ (fun _ _ _ => ?_) | apply State.setUwork_same
      | intro _
    | dsimp only | split

theorem State.decide1_same {msk : Field → Bool} {s0 s : State} (h0 : Same msk s0 s) (k : Nat) (v : Post)
    (w_free : msk .free = false) (w_mem : msk .mem = false) (w_ctr : msk .ctr = false) (w_parts : msk .parts = false)
    (w_fe : msk .fe = false) (w_io : msk .io = false) (w_hp : msk .hp = false) (w_evt : msk .evt = false)
    (w_ream : msk .ream = false) (w_posts : msk .posts = false) (w_slots : msk .slots = false)
    (w_tiles : msk .tiles = false) (w_tiers : msk .tiers = false) (w_gat : msk .gat = false)
    (w_rel : msk .rel = false) :
    Same msk s0 (State.decide1 s k v) := by
  unfold State.decide1
  repeat' first
    | with_reducible first
      | assumption | exact Same.refl _ _ | refine Same.each ?_ _ _ (fun _ _ _ => ?_)
      | refine Same.foldl ?_ _ _ (fun _ _ _ => ?_) | refine Same.foldl_fst _ _ (fun _ _ _ => ?_) _ ?_
      | refine Same.foldl_snd _ _ (fun _ _ _ => ?_) _ ?_ | apply State.setPost_same | apply State.count_same
      | apply State.failPost_same | apply State.settle_same | apply State.notePeak_same | apply Same.ite
      | refine Same.of_fst (by assumption) ?_ | refine Same.of_snd (by assumption) ?_ | intro _
    | dsimp only | split

theorem execCommitRun_same {msk : Field → Bool} (s : State) (w_free : msk .free = false) (w_mem : msk .mem = false)
    (w_ctr : msk .ctr = false) (w_parts : msk .parts = false) (w_fe : msk .fe = false) (w_io : msk .io = false)
    (w_hp : msk .hp = false) (w_evt : msk .evt = false) (w_ream : msk .ream = false) (w_posts : msk .posts = false)
    (w_slots : msk .slots = false) (w_tiles : msk .tiles = false) (w_tiers : msk .tiers = false)
    (w_gat : msk .gat = false) (w_rel : msk .rel = false) :
    ∃ t, execCommitRun s = .next t ∧ Same msk s t := by
  refine ⟨_, rfl, ?_⟩
  repeat' first
    | with_reducible first
      | assumption | exact Same.refl _ _ | apply State.sendReports_same | apply State.decide1_same
    | dsimp only | split

theorem State.abandonMove_same {msk : Field → Bool} {s0 s : State} (h0 : Same msk s0 s) (tile : Nat) (u : Nat)
    (loc : Nat) (e : DirEnt) (w_mem : msk .mem = false) (w_ctr : msk .ctr = false) (w_gat : msk .gat = false) :
    Same msk s0 (State.abandonMove s tile u loc e) := by
  unfold State.abandonMove
  repeat' first
    | with_reducible first
      | assumption | exact Same.refl _ _ | apply State.count_same | apply State.setDir_same | apply Same.ite
    | dsimp only | split

theorem State.moveWrite_same {msk : Field → Bool} {s0 s : State} (h0 : Same msk s0 s) (tile : Nat) (u : Nat)
    (loc : Nat) (b : Bytes) (w_free : msk .free = false) (w_mem : msk .mem = false) (w_ctr : msk .ctr = false)
    (w_parts : msk .parts = false) (w_io : msk .io = false) (w_hp : msk .hp = false) (w_evt : msk .evt = false)
    (w_tiers : msk .tiers = false) (w_gat : msk .gat = false) (w_rel : msk .rel = false) :
    Same msk s0 (State.moveWrite s tile u loc b) := by
  unfold State.moveWrite
  repeat' first
    | with_reducible first
      | assumption | exact Same.refl _ _ | apply State.setDir_same | apply State.writeCopy_same
      | apply State.abandonMove_same | apply Same.ite
    | dsimp only | split

theorem State.markStale_same {msk : Field → Bool} {s0 s : State} (h0 : Same msk s0 s) (tile : Nat) (u : Nat)
    (loc : Nat) (w_mem : msk .mem = false) (w_ctr : msk .ctr = false) (w_gat : msk .gat = false) :
    Same msk s0 (State.markStale s tile u loc) := by
  unfold State.markStale
  repeat' first
    | with_reducible first
      | assumption | exact Same.refl _ _ | apply State.setDir_same | apply Same.ite
    | dsimp only | split

theorem State.writeRow_same {msk : Field → Bool} {s0 s : State} (h0 : Same msk s0 s) (tile : Nat) (u : Nat)
    (loc : Nat) (step : Nat) (b : Bytes) (w_free : msk .free = false) (w_mem : msk .mem = false)
    (w_ctr : msk .ctr = false) (w_parts : msk .parts = false) (w_io : msk .io = false) (w_hp : msk .hp = false)
    (w_evt : msk .evt = false) (w_tiers : msk .tiers = false) (w_gat : msk .gat = false) (w_rel : msk .rel = false) :
    Same msk s0 (State.writeRow s tile u loc step b) := by
  unfold State.writeRow
  repeat' first
    | with_reducible first
      | assumption | exact Same.refl _ _ | apply State.count_same | apply State.writeCopy_same
      | apply State.moveWrite_same | apply State.markStale_same | apply Same.ite | apply SameParts.same
      | apply SameParts.upd_gat
    | dsimp only | simp only [same_mk] | split

theorem State.writeUnit_same {msk : Field → Bool} {s0 s : State} (h0 : Same msk s0 s) (step : Nat) (g : UWork)
    (w_free : msk .free = false) (w_mem : msk .mem = false) (w_ctr : msk .ctr = false) (w_parts : msk .parts = false)
    (w_io : msk .io = false) (w_hp : msk .hp = false) (w_evt : msk .evt = false) (w_tiers : msk .tiers = false)
    (w_gat : msk .gat = false) (w_rel : msk .rel = false) :
    Same msk s0 (State.writeUnit s step g) := by
  unfold State.writeUnit
  repeat' first
    | with_reducible first
      | assumption | exact Same.refl _ _ | refine Same.each ?_ _ _ (fun _ _ _ => ?_) | apply State.count_same
      | apply State.writeRow_same | apply Same.ite | intro _
    | dsimp only | split

theorem State.makeWrites_same {msk : Field → Bool} {s0 s : State} (h0 : Same msk s0 s) (k : Nat)
    (w_free : msk .free = false) (w_mem : msk .mem = false) (w_ctr : msk .ctr = false) (w_parts : msk .parts = false)
    (w_io : msk .io = false) (w_hp : msk .hp = false) (w_evt : msk .evt = false) (w_posts : msk .posts = false)
    (w_tiers : msk .tiers = false) (w_gat : msk .gat = false) (w_rel : msk .rel = false) :
    Same msk s0 (State.makeWrites s k) := by
  unfold State.makeWrites
  repeat' first
    | with_reducible first
      | assumption | exact Same.refl _ _ | refine Same.each ?_ _ _ (fun _ _ _ => ?_) | apply State.modPost_same
      | apply State.notePeak_same | apply State.writeUnit_same | apply Same.ite | apply SameParts.same
      | apply SameParts.upd_gat | intro _
    | dsimp only | simp only [same_mk] | split

theorem execUpdateWritesDone_same {msk : Field → Bool} (s : State) (post : Nat) (w_free : msk .free = false)
    (w_mem : msk .mem = false) (w_ctr : msk .ctr = false) (w_parts : msk .parts = false) (w_fe : msk .fe = false)
    (w_io : msk .io = false) (w_hp : msk .hp = false) (w_evt : msk .evt = false) (w_ream : msk .ream = false)
    (w_posts : msk .posts = false) (w_slots : msk .slots = false) (w_tiles : msk .tiles = false)
    (w_tiers : msk .tiers = false) (w_gat : msk .gat = false) (w_rel : msk .rel = false) :
    ∃ t, execUpdateWritesDone post s = .next t ∧ Same msk s t := by
  refine ⟨_, rfl, ?_⟩
  repeat' first
    | with_reducible first
      | assumption | exact Same.refl _ _ | apply State.settle_same | apply State.makeWrites_same | apply Same.ite
    | dsimp only | split

theorem State.drainWb_same {msk : Field → Bool} {s0 s : State} (h0 : Same msk s0 s) (t : Nat)
    (w_tiers : msk .tiers = false) :
    Same msk s0 (State.drainWb s t) := by
  unfold State.drainWb
  repeat' first
    | with_reducible first
      | assumption | exact Same.refl _ _ | apply Same.ite | apply SameParts.same | apply SameParts.upd_tiers
    | dsimp only | simp only [same_mk] | split

theorem State.moved_same {msk : Field → Bool} {s0 s : State} (h0 : Same msk s0 s) (tile : Nat)
    (w_gat : msk .gat = false) :
    Same msk s0 (State.moved s tile) := by
  unfold State.moved
  repeat' first
    | with_reducible first
      | assumption | exact Same.refl _ _ | apply SameParts.same | apply SameParts.upd_gat
    | dsimp only | simp only [same_mk] | split

theorem execMigrationPromote_same {msk : Field → Bool} (s : State) (tile : Nat) (table : Nat) (loc : Nat)
    (place : Nat) (w_mem : msk .mem = false) (w_ctr : msk .ctr = false) (w_gat : msk .gat = false) :
    ∃ t, execMigrationPromote tile table loc place s = .next t ∧ Same msk s t := by
  refine ⟨_, rfl, ?_⟩
  repeat' first
    | with_reducible first
      | assumption | exact Same.refl _ _ | apply State.setDir_same | apply State.moved_same | apply Same.ite
    | dsimp only | split

theorem execMigrationDemote_same {msk : Field → Bool} (s : State) (tile : Nat) (table : Nat) (loc : Nat)
    (w_mem : msk .mem = false) (w_ctr : msk .ctr = false) (w_gat : msk .gat = false) :
    ∃ t, execMigrationDemote tile table loc s = .next t ∧ Same msk s t := by
  refine ⟨_, rfl, ?_⟩
  repeat' first
    | with_reducible first
      | assumption | exact Same.refl _ _ | apply State.setDir_same | apply State.moved_same | apply Same.ite
    | dsimp only | split

theorem State.moveRow_same {msk : Field → Bool} {s0 s : State} (h0 : Same msk s0 s) (src : Nat) (dst : Nat) (n : Nat)
    (w_free : msk .free = false) (w_mem : msk .mem = false) (w_ctr : msk .ctr = false) (w_parts : msk .parts = false)
    (w_io : msk .io = false) (w_hp : msk .hp = false) (w_evt : msk .evt = false) (w_tiers : msk .tiers = false)
    (w_rel : msk .rel = false) :
    Same msk s0 (State.moveRow s src dst n) := by
  unfold State.moveRow
  repeat' first
    | with_reducible first
      | assumption | exact Same.refl _ _ | refine Same.each ?_ _ _ (fun _ _ _ => ?_) | apply State.poisonT1_same
      | apply State.poisonT0_same | apply State.rebuildIn_same | apply State.writeCopy_same | apply Same.ite | intro _
    | dsimp only | split

theorem execMigrationCopyDone_same {msk : Field → Bool} (s : State) (tile : Nat) (table : Nat) (loc : Nat)
    (w_free : msk .free = false) (w_mem : msk .mem = false) (w_ctr : msk .ctr = false) (w_parts : msk .parts = false)
    (w_io : msk .io = false) (w_hp : msk .hp = false) (w_evt : msk .evt = false) (w_tiers : msk .tiers = false)
    (w_gat : msk .gat = false) (w_rel : msk .rel = false) :
    ∃ t, execMigrationCopyDone tile table loc s = .next t ∧ Same msk s t := by
  refine ⟨_, rfl, ?_⟩
  repeat' first
    | with_reducible first
      | assumption | exact Same.refl _ _ | apply State.setDir_same | apply State.abandonMove_same
      | apply State.drainWb_same | apply State.moveRow_same | apply Same.ite
    | dsimp only | split

theorem execMigrationCatchUpDone_same {msk : Field → Bool} (s : State) (tile : Nat) (table : Nat) (loc : Nat)
    (w_free : msk .free = false) (w_mem : msk .mem = false) (w_ctr : msk .ctr = false) (w_parts : msk .parts = false)
    (w_io : msk .io = false) (w_hp : msk .hp = false) (w_evt : msk .evt = false) (w_tiers : msk .tiers = false)
    (w_gat : msk .gat = false) (w_rel : msk .rel = false) :
    ∃ t, execMigrationCatchUpDone tile table loc s = .next t ∧ Same msk s t := by
  refine ⟨_, rfl, ?_⟩
  repeat' first
    | with_reducible first
      | assumption | exact Same.refl _ _ | apply State.setDir_same | apply State.abandonMove_same
      | apply State.drainWb_same | apply State.moveRow_same | apply Same.ite
    | dsimp only | split

theorem State.flipMove_same {msk : Field → Bool} {s0 s : State} (h0 : Same msk s0 s) (tile : Nat) (u : Nat)
    (loc : Nat) (w_mem : msk .mem = false) (w_ctr : msk .ctr = false) (w_gat : msk .gat = false) :
    Same msk s0 (State.flipMove s tile u loc) := by
  unfold State.flipMove
  repeat' first
    | with_reducible first
      | assumption | exact Same.refl _ _ | apply State.count_same | apply State.setDir_same
      | apply State.abandonMove_same | apply Same.ite | apply SameParts.same | apply SameParts.upd_gat
    | dsimp only | simp only [same_mk] | split

theorem State.flipMoves_same {msk : Field → Bool} {s0 s : State} (h0 : Same msk s0 s) (w_mem : msk .mem = false)
    (w_ctr : msk .ctr = false) (w_gat : msk .gat = false) :
    Same msk s0 (State.flipMoves s) := by
  unfold State.flipMoves
  repeat' first
    | with_reducible first
      | assumption | exact Same.refl _ _ | refine Same.each ?_ _ _ (fun _ _ _ => ?_) | apply State.flipMove_same
      | apply SameParts.same | apply SameParts.upd_gat | intro _
    | dsimp only | simp only [same_mk] | split

theorem State.abandonMoves_same {msk : Field → Bool} {s0 s : State} (h0 : Same msk s0 s) (w_mem : msk .mem = false)
    (w_ctr : msk .ctr = false) (w_gat : msk .gat = false) :
    Same msk s0 (State.abandonMoves s) := by
  unfold State.abandonMoves
  repeat' first
    | with_reducible first
      | assumption | exact Same.refl _ _ | refine Same.each ?_ _ _ (fun _ _ _ => ?_) | apply State.abandonMove_same
      | apply Same.ite | intro _
    | dsimp only | split

theorem execMigrationRelease_same {msk : Field → Bool} (s : State) (tile : Nat) (table : Nat) (loc : Nat)
    (w_mem : msk .mem = false) (w_ctr : msk .ctr = false) (w_gat : msk .gat = false) :
    ∃ t, execMigrationRelease tile table loc s = .next t ∧ Same msk s t := by
  refine ⟨_, rfl, ?_⟩
  repeat' first
    | with_reducible first
      | assumption | exact Same.refl _ _ | apply State.count_same | apply State.setDir_same | apply Same.ite
    | dsimp only | split

theorem execMigCtrlEnableClear_same {msk : Field → Bool} (s : State) (value : Word) (w_mem : msk .mem = false)
    (w_ctr : msk .ctr = false) (w_regs : msk .regs = false) (w_gat : msk .gat = false) :
    ∃ t, execMigCtrlEnableClear value s = .next t ∧ Same msk s t := by
  refine ⟨_, rfl, ?_⟩
  repeat' first
    | with_reducible first
      | assumption | exact Same.refl _ _ | apply State.store_same | apply State.abandonMoves_same | apply Same.ite
    | dsimp only | split

theorem State.writeBackRow_same {msk : Field → Bool} {s0 s : State} (h0 : Same msk s0 s) (tile : Nat) (u : Nat)
    (loc : Nat) (w_free : msk .free = false) (w_mem : msk .mem = false) (w_ctr : msk .ctr = false)
    (w_parts : msk .parts = false) (w_io : msk .io = false) (w_hp : msk .hp = false) (w_evt : msk .evt = false)
    (w_tiers : msk .tiers = false) (w_gat : msk .gat = false) (w_rel : msk .rel = false) :
    Same msk s0 (State.writeBackRow s tile u loc) := by
  unfold State.writeBackRow
  repeat' first
    | with_reducible first
      | assumption | exact Same.refl _ _ | apply State.setDir_same | apply State.drainWb_same
      | apply State.moveRow_same | apply Same.ite
    | dsimp only | split

theorem execStaleRowWriteBack_same {msk : Field → Bool} (s : State) (tile : Nat) (table : Nat) (loc : Nat)
    (w_free : msk .free = false) (w_mem : msk .mem = false) (w_ctr : msk .ctr = false) (w_parts : msk .parts = false)
    (w_io : msk .io = false) (w_hp : msk .hp = false) (w_evt : msk .evt = false) (w_tiers : msk .tiers = false)
    (w_gat : msk .gat = false) (w_rel : msk .rel = false) :
    ∃ t, execStaleRowWriteBack tile table loc s = .next t ∧ Same msk s t := by
  refine ⟨_, rfl, ?_⟩
  repeat' first
    | with_reducible first
      | assumption | exact Same.refl _ _ | apply State.writeBackRow_same
    | dsimp only | split

theorem State.writeBackAll_same {msk : Field → Bool} {s0 s : State} (h0 : Same msk s0 s) (w_free : msk .free = false)
    (w_mem : msk .mem = false) (w_ctr : msk .ctr = false) (w_parts : msk .parts = false) (w_io : msk .io = false)
    (w_hp : msk .hp = false) (w_evt : msk .evt = false) (w_tiers : msk .tiers = false) (w_gat : msk .gat = false)
    (w_rel : msk .rel = false) :
    Same msk s0 (State.writeBackAll s) := by
  unfold State.writeBackAll
  repeat' first
    | with_reducible first
      | assumption | exact Same.refl _ _ | refine Same.each ?_ _ _ (fun _ _ _ => ?_) | apply State.writeBackRow_same
      | intro _
    | dsimp only | split

end Sys2Proof.Machine
end

