-- ==== Sys2Proof/Laws/SameReam.lean ====
section
/-! SUPPORT. `Same` for the ream, its posts, the sweep and the clocks:
the parts of the state each operation leaves alone. -/

namespace Sys2Proof.Machine
set_option linter.unusedTactic false
set_option linter.unreachableTactic false

theorem State.setVault_same {msk : Field → Bool} {s0 s : State} (h0 : Same msk s0 s) (v : Vault)
    (w_rel : msk .rel = false) :
    Same msk s0 (State.setVault s v) := by
  unfold State.setVault
  repeat' first
    | with_reducible first
      | assumption | exact Same.refl _ _ | apply SameParts.same | apply SameParts.upd_rel
    | dsimp only | simp only [same_mk] | split

theorem State.modVault_same {msk : Field → Bool} {s0 s : State} (h0 : Same msk s0 s) (f : Vault → Vault)
    (w_rel : msk .rel = false) :
    Same msk s0 (State.modVault s f) := by
  unfold State.modVault
  repeat' first
    | with_reducible first
      | assumption | exact Same.refl _ _ | apply State.setVault_same
    | dsimp only | split

theorem State.putRec_same {msk : Field → Bool} {s0 s : State} (h0 : Same msk s0 s) (r : VRec)
    (w_ctr : msk .ctr = false) (w_rel : msk .rel = false) :
    Same msk s0 (State.putRec s r) := by
  unfold State.putRec
  repeat' first
    | with_reducible first
      | assumption | exact Same.refl _ _ | apply State.count_same | apply State.setVault_same
    | dsimp only | split

theorem State.vaultWait_same {msk : Field → Bool} {s0 s : State} (h0 : Same msk s0 s) (k : Nat)
    (w_ctr : msk .ctr = false) (w_rel : msk .rel = false) :
    Same msk s0 (State.vaultWait s k) := by
  unfold State.vaultWait
  repeat' first
    | with_reducible first
      | assumption | exact Same.refl _ _ | apply State.count_same | apply State.modVault_same | apply Same.ite
    | dsimp only | split

theorem State.append_same {msk : Field → Bool} {s0 s : State} (h0 : Same msk s0 s) (rs : List VRec)
    (w_ctr : msk .ctr = false) (w_rel : msk .rel = false) :
    Same msk s0 (State.append s rs) := by
  unfold State.append
  repeat' first
    | with_reducible first
      | assumption | exact Same.refl _ _ | refine Same.each ?_ _ _ (fun _ _ _ => ?_)
      | refine Same.foldl ?_ _ _ (fun _ _ _ => ?_) | refine Same.foldl_fst _ _ (fun _ _ _ => ?_) _ ?_
      | refine Same.foldl_snd _ _ (fun _ _ _ => ?_) _ ?_ | apply State.modVault_same | apply State.putRec_same
      | apply State.vaultWait_same | apply Same.ite | refine Same.of_fst (by assumption) ?_
      | refine Same.of_snd (by assumption) ?_ | intro _
    | dsimp only | split

theorem State.appendThen_same {msk : Field → Bool} {s0 s : State} (h0 : Same msk s0 s) (rs : List VRec)
    (f : State → State) (hf : ∀ t, Same msk s0 t → Same msk s0 (f t)) (w_ctr : msk .ctr = false)
    (w_rel : msk .rel = false) :
    Same msk s0 (State.appendThen s rs f) := by
  unfold State.appendThen
  repeat' first
    | with_reducible first
      | assumption | exact Same.refl _ _ | apply hf | apply State.append_same | apply Same.ite | intro _
    | dsimp only | split

theorem State.storeRec_same {msk : Field → Bool} {s0 s : State} (h0 : Same msk s0 s) (u : Nat) (plain : Nat)
    (shut : Nat) (body : Bytes) (w_free : msk .free = false) :
    Same msk s0 (State.storeRec s u plain shut body).1 := by
  unfold State.storeRec
  repeat' first
    | with_reducible first
      | assumption | exact Same.refl _ _ | apply State.freeVals_same | refine Same.of_snd (by assumption) ?_
    | dsimp only | split

theorem State.rowsRec_same {msk : Field → Bool} {s0 s : State} (h0 : Same msk s0 s) (u : Nat)
    (rows : List (Nat × Nat)) (w_free : msk .free = false) (w_ctr : msk .ctr = false) :
    Same msk s0 (State.rowsRec s u rows).1 := by
  unfold State.rowsRec
  repeat' first
    | with_reducible first
      | assumption | exact Same.refl _ _ | refine Same.each ?_ _ _ (fun _ _ _ => ?_) | apply State.rebuildIn_same
      | apply State.storeRec_same | apply Same.ite | refine Same.of_fst (by assumption) ?_
      | refine Same.of_fst3 (by assumption) ?_ | intro _
    | dsimp only | split

theorem State.flipRecs_same {msk : Field → Bool} {s0 s : State} (h0 : Same msk s0 s)
    (fs : List (Nat × Nat × Nat × Nat)) (w_free : msk .free = false) :
    Same msk s0 (State.flipRecs s fs).1 := by
  unfold State.flipRecs
  repeat' first
    | with_reducible first
      | assumption | exact Same.refl _ _ | refine Same.foldl ?_ _ _ (fun _ _ _ => ?_)
      | refine Same.foldl_fst _ _ (fun _ _ _ => ?_) _ ?_ | refine Same.foldl_snd _ _ (fun _ _ _ => ?_) _ ?_
      | apply State.storeRec_same | apply Same.ite | refine Same.of_fst (by assumption) ?_
      | refine Same.of_snd (by assumption) ?_ | refine Same.of_fst3 (by assumption) ?_ | intro _
    | dsimp only | split

theorem State.baseNext_same {msk : Field → Bool} {s0 s : State} (h0 : Same msk s0 s) (w_free : msk .free = false)
    (w_ctr : msk .ctr = false) (w_rel : msk .rel = false) :
    Same msk s0 (State.baseNext s) := by
  unfold State.baseNext
  repeat' first
    | with_reducible first
      | assumption | exact Same.refl _ _ | apply State.modVault_same | apply State.appendThen_same
      | apply State.flipRecs_same | apply Same.ite | refine Same.of_fst (by assumption) ?_
      | refine Same.of_fst3 (by assumption) ?_ | intro _
    | dsimp only | split

theorem State.stepNext_same {msk : Field → Bool} {s0 s : State} (h0 : Same msk s0 s) (w_ctr : msk .ctr = false)
    (w_rel : msk .rel = false) :
    Same msk s0 (State.stepNext s) := by
  unfold State.stepNext
  repeat' first
    | with_reducible first
      | assumption | exact Same.refl _ _ | apply State.modVault_same | apply State.appendThen_same | apply Same.ite
      | intro _
    | dsimp only | split

theorem State.appendFlips_same {msk : Field → Bool} {s0 s : State} (h0 : Same msk s0 s) (w_free : msk .free = false)
    (w_ctr : msk .ctr = false) (w_gat : msk .gat = false) (w_rel : msk .rel = false) :
    Same msk s0 (State.appendFlips s) := by
  unfold State.appendFlips
  repeat' first
    | with_reducible first
      | assumption | exact Same.refl _ _ | apply State.appendThen_same | apply State.flipRecs_same | apply Same.ite
      | apply SameParts.same | apply SameParts.upd_gat | refine Same.of_fst (by assumption) ?_
      | refine Same.of_fst3 (by assumption) ?_ | intro _
    | dsimp only | simp only [same_mk] | split

theorem State.appendRows_same {msk : Field → Bool} {s0 s : State} (h0 : Same msk s0 s) (u : Nat)
    (rows : List (Nat × Nat)) (w_free : msk .free = false) (w_ctr : msk .ctr = false) (w_gat : msk .gat = false)
    (w_rel : msk .rel = false) :
    Same msk s0 (State.appendRows s u rows) := by
  unfold State.appendRows
  repeat' first
    | with_reducible first
      | assumption | exact Same.refl _ _ | apply State.modVault_same | apply State.appendThen_same
      | apply State.rowsRec_same | apply Same.ite | apply SameParts.same | apply SameParts.upd_gat
      | refine Same.of_fst (by assumption) ?_ | refine Same.of_fst3 (by assumption) ?_ | intro _
    | dsimp only | simp only [same_mk] | split

theorem State.appendState_same {msk : Field → Bool} {s0 s : State} (h0 : Same msk s0 s) (w_ctr : msk .ctr = false)
    (w_rel : msk .rel = false) :
    Same msk s0 (State.appendState s) := by
  unfold State.appendState
  repeat' first
    | with_reducible first
      | assumption | exact Same.refl _ _ | apply State.count_same | apply State.modVault_same
      | apply State.putRec_same | apply Same.ite
    | dsimp only | split

theorem State.appendHeld_same {msk : Field → Bool} {s0 s : State} (h0 : Same msk s0 s) (w_ctr : msk .ctr = false)
    (w_rel : msk .rel = false) :
    Same msk s0 (State.appendHeld s) := by
  unfold State.appendHeld
  repeat' first
    | with_reducible first
      | assumption | exact Same.refl _ _ | refine Same.each ?_ _ _ (fun _ _ _ => ?_) | apply State.modVault_same
      | apply State.putRec_same | apply Same.ite | intro _
    | dsimp only | split

theorem State.flushRows_same {msk : Field → Bool} {s0 s : State} (h0 : Same msk s0 s) (w_free : msk .free = false)
    (w_ctr : msk .ctr = false) (w_rel : msk .rel = false) :
    Same msk s0 (State.flushRows s) := by
  unfold State.flushRows
  repeat' first
    | with_reducible first
      | assumption | exact Same.refl _ _ | refine Same.each ?_ _ _ (fun _ _ _ => ?_) | apply State.putRec_same
      | apply State.rowsRec_same | refine Same.of_fst (by assumption) ?_ | refine Same.of_fst3 (by assumption) ?_
      | intro _
    | dsimp only | split

theorem State.allDurable_same {msk : Field → Bool} {s0 s : State} (h0 : Same msk s0 s) (w_gat : msk .gat = false)
    (w_rel : msk .rel = false) :
    Same msk s0 (State.allDurable s) := by
  unfold State.allDurable
  repeat' first
    | with_reducible first
      | assumption | exact Same.refl _ _ | apply State.modVault_same | apply SameParts.same | apply SameParts.upd_gat
    | dsimp only | simp only [same_mk] | split

theorem State.setSender_same {msk : Field → Bool} {s0 s : State} (h0 : Same msk s0 s) (p : Option Pair)
    (w_rel : msk .rel = false) :
    Same msk s0 (State.setSender s p) := by
  unfold State.setSender
  repeat' first
    | with_reducible first
      | assumption | exact Same.refl _ _ | apply SameParts.same | apply SameParts.upd_rel
    | dsimp only | simp only [same_mk] | split

theorem State.setReceiver_same {msk : Field → Bool} {s0 s : State} (h0 : Same msk s0 s) (p : Option Pair)
    (w_rel : msk .rel = false) :
    Same msk s0 (State.setReceiver s p) := by
  unfold State.setReceiver
  repeat' first
    | with_reducible first
      | assumption | exact Same.refl _ _ | apply SameParts.same | apply SameParts.upd_rel
    | dsimp only | simp only [same_mk] | split

theorem State.intakePut_same {msk : Field → Bool} {s0 s : State} (h0 : Same msk s0 s) (p : Pair) (b : Bytes)
    (w_free : msk .free = false) (w_mem : msk .mem = false) (w_ctr : msk .ctr = false) (w_parts : msk .parts = false)
    (w_io : msk .io = false) (w_hp : msk .hp = false) (w_evt : msk .evt = false) (w_posts : msk .posts = false)
    (w_tiers : msk .tiers = false) (w_rel : msk .rel = false) :
    Same msk s0 (State.intakePut s p b) := by
  unfold State.intakePut
  repeat' first
    | with_reducible first
      | assumption | exact Same.refl _ _ | apply State.writeSeg_same | apply State.openRange_same
    | dsimp only | split

theorem State.intakeStep_same {msk : Field → Bool} {s0 s : State} (h0 : Same msk s0 s) (w_free : msk .free = false)
    (w_mem : msk .mem = false) (w_ctr : msk .ctr = false) (w_parts : msk .parts = false) (w_io : msk .io = false)
    (w_hp : msk .hp = false) (w_evt : msk .evt = false) (w_posts : msk .posts = false) (w_tiers : msk .tiers = false)
    (w_rel : msk .rel = false) :
    Same msk s0 (State.intakeStep s) := by
  unfold State.intakeStep
  repeat' first
    | with_reducible first
      | assumption | exact Same.refl _ _ | apply State.count_same | apply State.snoop_same | apply State.modVault_same
      | apply State.vaultWait_same | apply State.setReceiver_same | apply State.intakePut_same | apply Same.ite
    | dsimp only | split

theorem State.intakeGo_same {msk : Field → Bool} {s0 s : State} (h0 : Same msk s0 s) (w_free : msk .free = false)
    (w_mem : msk .mem = false) (w_ctr : msk .ctr = false) (w_parts : msk .parts = false) (w_io : msk .io = false)
    (w_hp : msk .hp = false) (w_evt : msk .evt = false) (w_posts : msk .posts = false) (w_tiers : msk .tiers = false)
    (w_rel : msk .rel = false) :
    Same msk s0 (State.intakeGo s) := by
  unfold State.intakeGo
  repeat' first
    | with_reducible first
      | assumption | exact Same.refl _ _ | refine Same.each ?_ _ _ (fun _ _ _ => ?_) | apply State.intakeStep_same
      | intro _
    | dsimp only | split

theorem State.spPadded_same {msk : Field → Bool} {s0 s : State} (h0 : Same msk s0 s) (t : Nat) (line : Nat)
    (b : Bytes) (w_mem : msk .mem = false) :
    Same msk s0 (State.spPadded s t line b) := by
  unfold State.spPadded
  repeat' first
    | with_reducible first
      | assumption | exact Same.refl _ _ | apply State.spWrite_same
    | dsimp only | split

theorem State.copyRecs_same {msk : Field → Bool} {s0 s : State} (h0 : Same msk s0 s) (rs : List Rec)
    (w_mem : msk .mem = false) :
    Same msk s0 (State.copyRecs s rs) := by
  unfold State.copyRecs
  repeat' first
    | with_reducible first
      | assumption | exact Same.refl _ _ | refine Same.each ?_ _ _ (fun _ _ _ => ?_) | apply State.spPadded_same
      | intro _
    | dsimp only | split

theorem State.keepCopy_same {msk : Field → Bool} {s0 s : State} (h0 : Same msk s0 s) (used : List CopyRec) (r : Rec)
    (w_free : msk .free = false) (w_mem : msk .mem = false) (w_ctr : msk .ctr = false) (w_parts : msk .parts = false)
    (w_io : msk .io = false) (w_hp : msk .hp = false) (w_evt : msk .evt = false) (w_tiers : msk .tiers = false)
    (w_rel : msk .rel = false) :
    Same msk s0 (State.keepCopy s used r).2 := by
  unfold State.keepCopy
  repeat' first
    | with_reducible first
      | assumption | exact Same.refl _ _ | apply State.writeT1_same
    | dsimp only | split

theorem State.keepCopies_same {msk : Field → Bool} {s0 s : State} (h0 : Same msk s0 s) (used : List CopyRec)
    (rs : List Rec) (w_free : msk .free = false) (w_mem : msk .mem = false) (w_ctr : msk .ctr = false)
    (w_parts : msk .parts = false) (w_io : msk .io = false) (w_hp : msk .hp = false) (w_evt : msk .evt = false)
    (w_tiers : msk .tiers = false) (w_rel : msk .rel = false) :
    Same msk s0 (State.keepCopies s used rs).2 := by
  unfold State.keepCopies
  repeat' first
    | with_reducible first
      | assumption | exact Same.refl _ _ | refine Same.foldl ?_ _ _ (fun _ _ _ => ?_)
      | refine Same.foldl_fst _ _ (fun _ _ _ => ?_) _ ?_ | refine Same.foldl_snd _ _ (fun _ _ _ => ?_) _ ?_
      | apply State.keepCopy_same | refine Same.of_fst (by assumption) ?_ | refine Same.of_snd (by assumption) ?_
      | intro _
    | dsimp only | split

theorem State.readCopy_same {msk : Field → Bool} {s0 s : State} (h0 : Same msk s0 s) (c : CopyRec) (r : Rec)
    (w_ctr : msk .ctr = false) :
    Same msk s0 (State.readCopy s c r).2.2 := by
  unfold State.readCopy
  repeat' first
    | with_reducible first
      | assumption | exact Same.refl _ _ | apply State.count_same | apply State.rebuildIn_same | apply Same.ite
    | dsimp only | split

theorem State.reloadRec_same {msk : Field → Bool} {s0 s : State} (h0 : Same msk s0 s) (v : Ver) (c : CopyRec)
    (pick : Nat → Bool) (w_mem : msk .mem = false) (w_ctr : msk .ctr = false) (w_ream : msk .ream = false) :
    Same msk s0 (State.reloadRec s v c pick) := by
  unfold State.reloadRec
  repeat' first
    | with_reducible first
      | assumption | exact Same.refl _ _ | refine Same.each ?_ _ _ (fun _ _ _ => ?_) | apply State.spWrite_same
      | apply State.readCopy_same | apply Same.ite | apply SameParts.same | apply SameParts.upd_ream
      | refine Same.of_snd3 (by assumption) ?_ | intro _
    | dsimp only | simp only [same_mk] | split

theorem State.reloadTile_same {msk : Field → Bool} {s0 s : State} (h0 : Same msk s0 s) (t : Nat) (all : Bool)
    (w_mem : msk .mem = false) (w_ctr : msk .ctr = false) (w_ream : msk .ream = false) :
    Same msk s0 (State.reloadTile s t all) := by
  unfold State.reloadTile
  repeat' first
    | with_reducible first
      | assumption | exact Same.refl _ _ | refine Same.each ?_ _ _ (fun _ _ _ => ?_) | apply State.reloadRec_same
      | intro _
    | dsimp only | split

theorem State.beaterCount_same {msk : Field → Bool} {s0 s : State} (h0 : Same msk s0 s) (raw : Nat) (cod : Nat)
    (w_ctr : msk .ctr = false) :
    Same msk s0 (State.beaterCount s raw cod) := by
  unfold State.beaterCount
  repeat' first
    | with_reducible first
      | assumption | exact Same.refl _ _ | apply State.count_same | apply Same.ite
    | dsimp only | split

theorem State.setBounds_same {msk : Field → Bool} {s0 s : State} (h0 : Same msk s0 s) (w_parts : msk .parts = false) :
    Same msk s0 (State.setBounds s) := by
  unfold State.setBounds
  repeat' first
    | with_reducible first
      | assumption | exact Same.refl _ _ | refine Same.each ?_ _ _ (fun _ _ _ => ?_) | apply State.modPart_same
      | intro _
    | dsimp only | split

theorem State.useBounds_same {msk : Field → Bool} {s0 s : State} (h0 : Same msk s0 s) (w_parts : msk .parts = false) :
    Same msk s0 (State.useBounds s) := by
  unfold State.useBounds
  repeat' first
    | with_reducible first
      | assumption | exact Same.refl _ _ | refine Same.each ?_ _ _ (fun _ _ _ => ?_) | apply State.modPart_same
      | intro _
    | dsimp only | split

theorem State.dropGating_same {msk : Field → Bool} {s0 s : State} (h0 : Same msk s0 s) (g : Nat)
    (w_tiles : msk .tiles = false) (w_pwr : msk .pwr = false) :
    Same msk s0 (State.dropGating s g) := by
  unfold State.dropGating
  repeat' first
    | with_reducible first
      | assumption | exact Same.refl _ _ | refine Same.each ?_ _ _ (fun _ _ _ => ?_) | apply State.modTile_same
      | apply Same.ite | apply SameParts.same | apply SameParts.upd_pwr | intro _
    | dsimp only | simp only [same_mk] | split

theorem State.askWake1_same {msk : Field → Bool} {s0 s : State} (h0 : Same msk s0 s) (g : Nat)
    (w_tiles : msk .tiles = false) (w_pwr : msk .pwr = false) :
    Same msk s0 (State.askWake1 s g) := by
  unfold State.askWake1
  repeat' first
    | with_reducible first
      | assumption | exact Same.refl _ _ | apply State.dropGating_same | apply Same.ite | apply SameParts.same
      | apply SameParts.upd_pwr
    | dsimp only | simp only [same_mk] | split

theorem State.askWake_same {msk : Field → Bool} {s0 s : State} (h0 : Same msk s0 s) (gs : List Nat)
    (w_tiles : msk .tiles = false) (w_pwr : msk .pwr = false) :
    Same msk s0 (State.askWake s gs) := by
  unfold State.askWake
  repeat' first
    | with_reducible first
      | assumption | exact Same.refl _ _ | refine Same.each ?_ _ _ (fun _ _ _ => ?_) | apply State.askWake1_same
      | intro _
    | dsimp only | split

theorem State.unstage_same {msk : Field → Bool} {s0 s : State} (h0 : Same msk s0 s) (k : Nat) (w_io : msk .io = false)
    :
    Same msk s0 (State.unstage s k) := by
  unfold State.unstage
  repeat' first
    | with_reducible first
      | assumption | exact Same.refl _ _ | apply Same.ite | apply SameParts.same | apply SameParts.upd_io
    | dsimp only | simp only [same_mk] | split

theorem State.endUnadmitted_same {msk : Field → Bool} {s0 s : State} (h0 : Same msk s0 s) (k : Nat) (st : Nat)
    (w_free : msk .free = false) (w_ctr : msk .ctr = false) (w_parts : msk .parts = false) (w_fe : msk .fe = false)
    (w_io : msk .io = false) (w_hp : msk .hp = false) (w_evt : msk .evt = false) (w_ream : msk .ream = false)
    (w_posts : msk .posts = false) (w_tiles : msk .tiles = false) (w_tiers : msk .tiers = false)
    (w_gat : msk .gat = false) :
    Same msk s0 (State.endUnadmitted s k st) := by
  unfold State.endUnadmitted
  repeat' first
    | with_reducible first
      | assumption | exact Same.refl _ _ | apply State.leaveQueue_same | apply State.finish_same
      | apply State.clearPost_same | apply State.unstage_same
    | dsimp only | split

theorem State.extend_same {msk : Field → Bool} {s0 s : State} (h0 : Same msk s0 s) (i : Nat) (event : Nat)
    (info : Bytes) (d : Bytes) (w_sec : msk .sec = false) :
    Same msk s0 (State.extend s i event info d) := by
  unfold State.extend
  repeat' first
    | with_reducible first
      | assumption | exact Same.refl _ _ | apply Same.ite | apply SameParts.same | apply SameParts.upd_sec
    | dsimp only | simp only [same_mk] | split

theorem State.appendAll_same {msk : Field → Bool} {s0 s : State} (h0 : Same msk s0 s) (w_free : msk .free = false)
    (w_ctr : msk .ctr = false) (w_gat : msk .gat = false) (w_rel : msk .rel = false) :
    Same msk s0 (State.appendAll s) := by
  unfold State.appendAll
  repeat' first
    | with_reducible first
      | assumption | exact Same.refl _ _ | refine Same.each ?_ _ _ (fun _ _ _ => ?_) | apply State.stepNext_same
      | apply State.appendFlips_same | apply State.appendRows_same | intro _
    | dsimp only | split

theorem State.checkpointEnd_same {msk : Field → Bool} {s0 s : State} (h0 : Same msk s0 s) (m : Commit) (c : Nat)
    (w_free : msk .free = false) (w_mem : msk .mem = false) (w_ctr : msk .ctr = false) (w_parts : msk .parts = false)
    (w_fe : msk .fe = false) (w_io : msk .io = false) (w_hp : msk .hp = false) (w_evt : msk .evt = false)
    (w_posts : msk .posts = false) (w_tiers : msk .tiers = false) (w_rel : msk .rel = false) :
    Same msk s0 (State.checkpointEnd s m c) := by
  unfold State.checkpointEnd
  repeat' first
    | with_reducible first
      | assumption | exact Same.refl _ _ | apply State.finish_same | apply State.writeSeg_same
      | apply State.openRange_same | apply Same.ite | apply SameParts.same | apply SameParts.upd_rel
    | dsimp only | simp only [same_mk] | split

theorem State.commitGo_same {msk : Field → Bool} {s0 s : State} (h0 : Same msk s0 s) (w_free : msk .free = false)
    (w_mem : msk .mem = false) (w_ctr : msk .ctr = false) (w_parts : msk .parts = false) (w_fe : msk .fe = false)
    (w_io : msk .io = false) (w_hp : msk .hp = false) (w_evt : msk .evt = false) (w_posts : msk .posts = false)
    (w_tiers : msk .tiers = false) (w_gat : msk .gat = false) (w_rel : msk .rel = false) :
    Same msk s0 (State.commitGo s) := by
  unfold State.commitGo
  repeat' first
    | with_reducible first
      | assumption | exact Same.refl _ _ | apply State.finish_same | apply State.snoop_same
      | apply State.writeBackAll_same | apply State.appendThen_same | apply State.appendAll_same
      | apply State.checkpointEnd_same | apply Same.ite | apply SameParts.same | apply SameParts.upd_rel | intro _
    | dsimp only | simp only [same_mk] | split

theorem State.commitStart_same {msk : Field → Bool} {s0 s : State} (h0 : Same msk s0 s) (k : Nat) (check : Bool)
    (w_fe : msk .fe = false) (w_rel : msk .rel = false) :
    Same msk s0 (State.commitStart s k check) := by
  unfold State.commitStart
  repeat' first
    | with_reducible first
      | assumption | exact Same.refl _ _ | apply State.setPhase_same | apply Same.ite | apply SameParts.same
      | apply SameParts.upd_rel
    | dsimp only | simp only [same_mk] | split

theorem execTableCommit_same {msk : Field → Bool} (s : State) (ring : Nat) (seq : Nat) (w_free : msk .free = false)
    (w_mem : msk .mem = false) (w_ctr : msk .ctr = false) (w_parts : msk .parts = false) (w_fe : msk .fe = false)
    (w_io : msk .io = false) (w_hp : msk .hp = false) (w_evt : msk .evt = false) (w_posts : msk .posts = false)
    (w_tiers : msk .tiers = false) (w_rel : msk .rel = false) :
    ∃ t, execTableCommit ring seq s = .next t ∧ Same msk s t := by
  refine ⟨_, rfl, ?_⟩
  repeat' first
    | with_reducible first
      | assumption | exact Same.refl _ _ | apply State.finish_same | apply State.front_same
      | apply State.commitStart_same | apply Same.ite | intro _
    | dsimp only | split

theorem execCheckpoint_same {msk : Field → Bool} (s : State) (ring : Nat) (seq : Nat) (w_free : msk .free = false)
    (w_mem : msk .mem = false) (w_ctr : msk .ctr = false) (w_parts : msk .parts = false) (w_fe : msk .fe = false)
    (w_io : msk .io = false) (w_hp : msk .hp = false) (w_evt : msk .evt = false) (w_posts : msk .posts = false)
    (w_tiers : msk .tiers = false) (w_rel : msk .rel = false) :
    ∃ t, execCheckpoint ring seq s = .next t ∧ Same msk s t := by
  refine ⟨_, rfl, ?_⟩
  repeat' first
    | with_reducible first
      | assumption | exact Same.refl _ _ | apply State.finish_same | apply State.front_same
      | apply State.commitStart_same | apply Same.ite | intro _
    | dsimp only | split

theorem execCommitStepsDrained_same {msk : Field → Bool} (s : State) (w_free : msk .free = false)
    (w_mem : msk .mem = false) (w_ctr : msk .ctr = false) (w_parts : msk .parts = false) (w_fe : msk .fe = false)
    (w_io : msk .io = false) (w_hp : msk .hp = false) (w_evt : msk .evt = false) (w_posts : msk .posts = false)
    (w_tiers : msk .tiers = false) (w_gat : msk .gat = false) (w_rel : msk .rel = false) :
    ∃ t, execCommitStepsDrained s = .next t ∧ Same msk s t := by
  refine ⟨_, rfl, ?_⟩
  repeat' first
    | with_reducible first
      | assumption | exact Same.refl _ _ | apply State.commitGo_same
    | dsimp only | split

theorem State.imageGet_same {msk : Field → Bool} {s0 s : State} (h0 : Same msk s0 s) (k : Nat) (c : Cmd)
    (w_io : msk .io = false) :
    Same msk s0 (State.imageGet s k c).2 := by
  unfold State.imageGet
  repeat' first
    | with_reducible first
      | assumption | exact Same.refl _ _ | apply State.operAsk_same | refine Same.of_snd (by assumption) ?_
    | dsimp only | split

theorem State.imageAsk_same {msk : Field → Bool} {s0 s : State} (h0 : Same msk s0 s) (c : Cmd)
    (w_ctr : msk .ctr = false) (w_hp : msk .hp = false) :
    Same msk s0 (State.imageAsk s c).2 := by
  unfold State.imageAsk
  repeat' first
    | with_reducible first
      | assumption | exact Same.refl _ _ | apply State.openAsk_same | refine Same.of_snd (by assumption) ?_
    | dsimp only | split

theorem State.imageFront_same {msk : Field → Bool} {s0 s : State} (h0 : Same msk s0 s) (k : Nat) (op : Nat) (img : Rd)
    (go : State → Cmd → State) (hgo : ∀ t x1, Same msk s0 t → Same msk s0 (go t x1)) (w_free : msk .free = false)
    (w_mem : msk .mem = false) (w_ctr : msk .ctr = false) (w_parts : msk .parts = false) (w_fe : msk .fe = false)
    (w_io : msk .io = false) (w_hp : msk .hp = false) (w_evt : msk .evt = false) (w_posts : msk .posts = false)
    (w_tiers : msk .tiers = false) (w_rel : msk .rel = false) :
    Same msk s0 (State.imageFront s k op img go) := by
  unfold State.imageFront
  repeat' first
    | with_reducible first
      | assumption | exact Same.refl _ _ | apply hgo | apply State.refuse_same | apply State.front_same
      | apply Same.ite | intro _
    | dsimp only | split

theorem State.rejectImage_same {msk : Field → Bool} {s0 s : State} (h0 : Same msk s0 s) (k : Nat) (reason : Nat)
    (idx : Nat) (coding : Bool) (w_ctr : msk .ctr = false) (w_fe : msk .fe = false) (w_ream : msk .ream = false) :
    Same msk s0 (State.rejectImage s k reason idx coding) := by
  unfold State.rejectImage
  repeat' first
    | with_reducible first
      | assumption | exact Same.refl _ _ | apply State.count_same | apply State.finish_same | apply Same.ite
      | apply SameParts.same | apply SameParts.upd_ream
    | dsimp only | simp only [same_mk] | split

theorem execReamLoad_same {msk : Field → Bool} (s : State) (ring : Nat) (seq : Nat) (img : Rd)
    (w_free : msk .free = false) (w_mem : msk .mem = false) (w_ctr : msk .ctr = false) (w_parts : msk .parts = false)
    (w_fe : msk .fe = false) (w_io : msk .io = false) (w_hp : msk .hp = false) (w_evt : msk .evt = false)
    (w_ream : msk .ream = false) (w_posts : msk .posts = false) (w_tiers : msk .tiers = false)
    (w_rel : msk .rel = false) :
    ∃ t, execReamLoad ring seq img s = .next t ∧ Same msk s t := by
  refine ⟨_, rfl, ?_⟩
  repeat' first
    | with_reducible first
      | assumption | exact Same.refl _ _ | apply State.setPhase_same | apply State.finish_same
      | apply State.beaterCount_same | apply State.imageGet_same | apply State.imageAsk_same
      | apply State.imageFront_same | apply State.rejectImage_same | apply Same.ite | apply SameParts.same
      | apply SameParts.upd_ream | refine Same.of_snd (by assumption) ?_ | intro _
    | dsimp only | simp only [same_mk] | split

theorem State.drawKeys_same {msk : Field → Bool} {s0 s : State} (h0 : Same msk s0 s) (w_free : msk .free = false)
    (w_ctr : msk .ctr = false) (w_tiles : msk .tiles = false) (w_tiers : msk .tiers = false) :
    Same msk s0 (State.drawKeys s) := by
  unfold State.drawKeys
  repeat' first
    | with_reducible first
      | assumption | exact Same.refl _ _ | refine Same.each ?_ _ _ (fun _ _ _ => ?_) | apply State.setCtr_same
      | apply State.freeVal_same | apply State.modTile_same | apply SameParts.same | apply SameParts.upd_free
      | apply SameParts.upd_tiers | apply SameParts.upd_free_tiers | refine Same.of_snd (by assumption) ?_ | intro _
    | dsimp only | simp only [same_mk] | split

theorem State.pinTable_same {msk : Field → Bool} {s0 s : State} (h0 : Same msk s0 s) (u : Nat)
    (w_mem : msk .mem = false) (w_ctr : msk .ctr = false) (w_rel : msk .rel = false) :
    Same msk s0 (State.pinTable s u) := by
  unfold State.pinTable
  repeat' first
    | with_reducible first
      | assumption | exact Same.refl _ _ | refine Same.each ?_ _ _ (fun _ _ _ => ?_)
      | refine Same.foldl ?_ _ _ (fun _ _ _ => ?_) | refine Same.foldl_fst _ _ (fun _ _ _ => ?_) _ ?_
      | refine Same.foldl_snd _ _ (fun _ _ _ => ?_) _ ?_ | apply State.poisonT0_same | apply State.rebuildIn_same
      | apply Same.ite | apply SameParts.same | apply SameParts.upd_mem | refine Same.of_fst (by assumption) ?_
      | refine Same.of_snd (by assumption) ?_ | intro _
    | dsimp only | simp only [same_mk] | split

theorem State.pinTables_same {msk : Field → Bool} {s0 s : State} (h0 : Same msk s0 s) (w_mem : msk .mem = false)
    (w_ctr : msk .ctr = false) (w_rel : msk .rel = false) :
    Same msk s0 (State.pinTables s) := by
  unfold State.pinTables
  repeat' first
    | with_reducible first
      | assumption | exact Same.refl _ _ | refine Same.each ?_ _ _ (fun _ _ _ => ?_) | apply State.pinTable_same
      | intro _
    | dsimp only | split

theorem State.serveTiles_same {msk : Field → Bool} {s0 s : State} (h0 : Same msk s0 s) (w_tiles : msk .tiles = false)
    :
    Same msk s0 (State.serveTiles s) := by
  unfold State.serveTiles
  repeat' first
    | with_reducible first
      | assumption | exact Same.refl _ _ | refine Same.each ?_ _ _ (fun _ _ _ => ?_) | apply State.modTile_same
      | apply Same.ite | intro _
    | dsimp only | split

theorem State.jobDone_same {msk : Field → Bool} {s0 s : State} (h0 : Same msk s0 s) (w_fe : msk .fe = false)
    (w_ream : msk .ream = false) :
    Same msk s0 (State.jobDone s) := by
  unfold State.jobDone
  repeat' first
    | with_reducible first
      | assumption | exact Same.refl _ _ | refine Same.each ?_ _ _ (fun _ _ _ => ?_) | apply State.finish_same
      | apply Same.ite | apply SameParts.same | apply SameParts.upd_ream | intro _
    | dsimp only | simp only [same_mk] | split

theorem execReamLoadCopyDone_same {msk : Field → Bool} (s : State) (w_free : msk .free = false)
    (w_mem : msk .mem = false) (w_ctr : msk .ctr = false) (w_parts : msk .parts = false) (w_fe : msk .fe = false)
    (w_io : msk .io = false) (w_hp : msk .hp = false) (w_evt : msk .evt = false) (w_ream : msk .ream = false)
    (w_tiles : msk .tiles = false) (w_tiers : msk .tiers = false) (w_gat : msk .gat = false)
    (w_pwr : msk .pwr = false) (w_rel : msk .rel = false) (w_sec : msk .sec = false) :
    ∃ t, execReamLoadCopyDone s = .next t ∧ Same msk s t := by
  refine ⟨_, rfl, ?_⟩
  repeat' first
    | with_reducible first
      | assumption | exact Same.refl _ _ | apply State.finish_same | apply State.snoop_same
      | apply State.copyRecs_same | apply State.keepCopies_same | apply State.setBounds_same
      | apply State.useBounds_same | apply State.askWake_same | apply State.extend_same | apply State.drawKeys_same
      | apply State.pinTables_same | apply State.serveTiles_same | apply State.jobDone_same | apply Same.ite
      | apply SameParts.same | apply SameParts.upd_ream | apply SameParts.upd_ream_gat_rel
      | refine Same.of_snd (by assumption) ?_
    | dsimp only | simp only [same_mk] | split

theorem execReamPatch_same {msk : Field → Bool} (s : State) (ring : Nat) (seq : Nat) (img : Rd)
    (w_free : msk .free = false) (w_mem : msk .mem = false) (w_ctr : msk .ctr = false) (w_parts : msk .parts = false)
    (w_fe : msk .fe = false) (w_io : msk .io = false) (w_hp : msk .hp = false) (w_evt : msk .evt = false)
    (w_ream : msk .ream = false) (w_posts : msk .posts = false) (w_tiers : msk .tiers = false)
    (w_rel : msk .rel = false) :
    ∃ t, execReamPatch ring seq img s = .next t ∧ Same msk s t := by
  refine ⟨_, rfl, ?_⟩
  repeat' first
    | with_reducible first
      | assumption | exact Same.refl _ _ | apply State.setPhase_same | apply State.finish_same
      | apply State.copyRecs_same | apply State.keepCopies_same | apply State.beaterCount_same
      | apply State.imageGet_same | apply State.imageAsk_same | apply State.imageFront_same
      | apply State.rejectImage_same | apply Same.ite | apply SameParts.same | apply SameParts.upd_ream
      | refine Same.of_snd (by assumption) ?_ | intro _
    | dsimp only | simp only [same_mk] | split

theorem State.recheckOn_same {msk : Field → Bool} {s0 s : State} (h0 : Same msk s0 s) (k : Nat) (c : Cmd)
    (rs : List Range) (w_free : msk .free = false) (w_mem : msk .mem = false) (w_ctr : msk .ctr = false)
    (w_parts : msk .parts = false) (w_fe : msk .fe = false) (w_io : msk .io = false) (w_hp : msk .hp = false)
    (w_evt : msk .evt = false) (w_ream : msk .ream = false) (w_posts : msk .posts = false)
    (w_tiles : msk .tiles = false) (w_tiers : msk .tiers = false) (w_gat : msk .gat = false)
    (w_rel : msk .rel = false) :
    Same msk s0 (State.recheckOn s k c rs) := by
  unfold State.recheckOn
  repeat' first
    | with_reducible first
      | assumption | exact Same.refl _ _ | apply State.count_same | apply State.faultPark_same
      | apply State.dropPost_same | apply State.endUnadmitted_same | apply Same.ite
    | dsimp only | split

theorem State.recheckPost_same {msk : Field → Bool} {s0 s : State} (h0 : Same msk s0 s) (k : Nat)
    (w_free : msk .free = false) (w_mem : msk .mem = false) (w_ctr : msk .ctr = false) (w_parts : msk .parts = false)
    (w_fe : msk .fe = false) (w_io : msk .io = false) (w_hp : msk .hp = false) (w_evt : msk .evt = false)
    (w_ream : msk .ream = false) (w_posts : msk .posts = false) (w_tiles : msk .tiles = false)
    (w_tiers : msk .tiers = false) (w_gat : msk .gat = false) (w_rel : msk .rel = false) :
    Same msk s0 (State.recheckPost s k) := by
  unfold State.recheckPost
  repeat' first
    | with_reducible first
      | assumption | exact Same.refl _ _ | apply State.recheckOn_same | apply SameParts.same
      | apply SameParts.upd_ream
    | dsimp only | simp only [same_mk] | split

theorem State.switchVersion_same {msk : Field → Bool} {s0 s : State} (h0 : Same msk s0 s) (j : ReamJob)
    (w_free : msk .free = false) (w_mem : msk .mem = false) (w_ctr : msk .ctr = false) (w_parts : msk .parts = false)
    (w_fe : msk .fe = false) (w_io : msk .io = false) (w_hp : msk .hp = false) (w_evt : msk .evt = false)
    (w_ream : msk .ream = false) (w_posts : msk .posts = false) (w_tiles : msk .tiles = false)
    (w_tiers : msk .tiers = false) (w_gat : msk .gat = false) (w_rel : msk .rel = false) (w_sec : msk .sec = false) :
    Same msk s0 (State.switchVersion s j) := by
  unfold State.switchVersion
  repeat' first
    | with_reducible first
      | assumption | exact Same.refl _ _ | refine Same.each ?_ _ _ (fun _ _ _ => ?_)
      | refine Same.foldl ?_ _ _ (fun _ _ _ => ?_) | refine Same.foldl_fst _ _ (fun _ _ _ => ?_) _ ?_
      | refine Same.foldl_snd _ _ (fun _ _ _ => ?_) _ ?_ | apply State.finish_same | apply State.freeOldVersion_same
      | apply State.extend_same | apply State.jobDone_same | apply State.recheckPost_same | apply Same.ite
      | apply SameParts.same | apply SameParts.upd_ream | refine Same.of_fst (by assumption) ?_
      | refine Same.of_snd (by assumption) ?_ | intro _
    | dsimp only | simp only [same_mk] | split

theorem execReamUnload_same {msk : Field → Bool} (s : State) (ring : Nat) (seq : Nat) (w_free : msk .free = false)
    (w_mem : msk .mem = false) (w_ctr : msk .ctr = false) (w_parts : msk .parts = false) (w_fe : msk .fe = false)
    (w_io : msk .io = false) (w_hp : msk .hp = false) (w_evt : msk .evt = false) (w_ream : msk .ream = false)
    (w_posts : msk .posts = false) (w_tiers : msk .tiers = false) (w_rel : msk .rel = false) :
    ∃ t, execReamUnload ring seq s = .next t ∧ Same msk s t := by
  refine ⟨_, rfl, ?_⟩
  repeat' first
    | with_reducible first
      | assumption | exact Same.refl _ _ | apply State.setPhase_same | apply State.finish_same
      | apply State.front_same | apply Same.ite | apply SameParts.same | apply SameParts.upd_ream | intro _
    | dsimp only | simp only [same_mk] | split

theorem State.closeAdmission_same {msk : Field → Bool} {s0 s : State} (h0 : Same msk s0 s)
    (w_free : msk .free = false) (w_mem : msk .mem = false) (w_ctr : msk .ctr = false) (w_parts : msk .parts = false)
    (w_fe : msk .fe = false) (w_io : msk .io = false) (w_hp : msk .hp = false) (w_evt : msk .evt = false)
    (w_ream : msk .ream = false) (w_posts : msk .posts = false) (w_tiles : msk .tiles = false)
    (w_tiers : msk .tiers = false) (w_gat : msk .gat = false) (w_rel : msk .rel = false) :
    Same msk s0 (State.closeAdmission s) := by
  unfold State.closeAdmission
  repeat' first
    | with_reducible first
      | assumption | exact Same.refl _ _ | refine Same.each ?_ _ _ (fun _ _ _ => ?_) | apply State.endIdle_same
      | apply State.endUnadmitted_same | apply SameParts.same | apply SameParts.upd_ream | intro _
    | dsimp only | simp only [same_mk] | split

theorem State.zeroReserve_same {msk : Field → Bool} {s0 s : State} (h0 : Same msk s0 s) (w_mem : msk .mem = false) :
    Same msk s0 (State.zeroReserve s) := by
  unfold State.zeroReserve
  repeat' first
    | with_reducible first
      | assumption | exact Same.refl _ _ | refine Same.each ?_ _ _ (fun _ _ _ => ?_) | apply SameParts.same
      | apply SameParts.upd_mem | intro _
    | dsimp only | simp only [same_mk] | split

theorem State.unloadDone_same {msk : Field → Bool} {s0 s : State} (h0 : Same msk s0 s) (k : Nat)
    (w_free : msk .free = false) (w_mem : msk .mem = false) (w_ctr : msk .ctr = false) (w_parts : msk .parts = false)
    (w_fe : msk .fe = false) (w_io : msk .io = false) (w_hp : msk .hp = false) (w_evt : msk .evt = false)
    (w_ream : msk .ream = false) (w_posts : msk .posts = false) (w_tiles : msk .tiles = false)
    (w_felt : msk .felt = false) (w_tiers : msk .tiers = false) (w_gat : msk .gat = false) (w_rel : msk .rel = false)
    (w_sec : msk .sec = false) :
    Same msk s0 (State.unloadDone s k) := by
  unfold State.unloadDone
  repeat' first
    | with_reducible first
      | assumption | exact Same.refl _ _ | refine Same.each ?_ _ _ (fun _ _ _ => ?_) | apply State.setCtr_same
      | apply State.finish_same | apply State.setTile_same | apply State.allDurable_same | apply State.setBounds_same
      | apply State.useBounds_same | apply State.extend_same | apply State.commitGo_same | apply State.jobDone_same
      | apply State.zeroReserve_same | apply SameParts.same | apply SameParts.upd_ream_felt_gat_rel | intro _
    | dsimp only | simp only [same_mk] | split

theorem execPost_same {msk : Field → Bool} (s : State) (ring : Nat) (seq : Nat) (dir : Rd)
    (w_free : msk .free = false) (w_mem : msk .mem = false) (w_ctr : msk .ctr = false) (w_parts : msk .parts = false)
    (w_fe : msk .fe = false) (w_io : msk .io = false) (w_hp : msk .hp = false) (w_evt : msk .evt = false)
    (w_posts : msk .posts = false) (w_tiers : msk .tiers = false) (w_rel : msk .rel = false) :
    ∃ t, execPost ring seq dir s = .next t ∧ Same msk s t := by
  refine ⟨_, rfl, ?_⟩
  repeat' first
    | with_reducible first
      | assumption | exact Same.refl _ _ | apply State.refuse_same | apply State.front_same
      | apply State.postJudge_same | apply Same.ite | intro _
    | dsimp only | split

theorem State.askInput_same {msk : Field → Bool} {s0 s : State} (h0 : Same msk s0 s) (k : Nat) (c : Cmd) (v : Post)
    (w_free : msk .free = false) (w_ctr : msk .ctr = false) (w_parts : msk .parts = false) (w_fe : msk .fe = false)
    (w_io : msk .io = false) (w_hp : msk .hp = false) (w_evt : msk .evt = false) (w_ream : msk .ream = false)
    (w_posts : msk .posts = false) (w_tiles : msk .tiles = false) (w_tiers : msk .tiers = false)
    (w_gat : msk .gat = false) :
    Same msk s0 (State.askInput s k c v) := by
  unfold State.askInput
  repeat' first
    | with_reducible first
      | assumption | exact Same.refl _ _ | refine Same.each ?_ _ _ (fun _ _ _ => ?_) | apply State.issue_same
      | apply State.endUnadmitted_same | apply Same.ite | intro _
    | dsimp only | split

theorem execStagingStart_same {msk : Field → Bool} (s : State) (ring : Nat) (seq : Nat) (w_free : msk .free = false)
    (w_ctr : msk .ctr = false) (w_parts : msk .parts = false) (w_fe : msk .fe = false) (w_io : msk .io = false)
    (w_hp : msk .hp = false) (w_evt : msk .evt = false) (w_ream : msk .ream = false) (w_posts : msk .posts = false)
    (w_tiles : msk .tiles = false) (w_tiers : msk .tiers = false) (w_gat : msk .gat = false) :
    ∃ t, execStagingStart ring seq s = .next t ∧ Same msk s t := by
  refine ⟨_, rfl, ?_⟩
  repeat' first
    | with_reducible first
      | assumption | exact Same.refl _ _ | apply State.setPost_same | apply State.setPhase_same
      | apply State.askInput_same | apply Same.ite
    | dsimp only | split

theorem State.codingBad_same {msk : Field → Bool} {s0 s : State} (h0 : Same msk s0 s) (k : Nat)
    (w_free : msk .free = false) (w_ctr : msk .ctr = false) (w_parts : msk .parts = false) (w_fe : msk .fe = false)
    (w_io : msk .io = false) (w_hp : msk .hp = false) (w_evt : msk .evt = false) (w_ream : msk .ream = false)
    (w_posts : msk .posts = false) (w_tiles : msk .tiles = false) (w_tiers : msk .tiers = false)
    (w_gat : msk .gat = false) :
    Same msk s0 (State.codingBad s k) := by
  unfold State.codingBad
  repeat' first
    | with_reducible first
      | assumption | exact Same.refl _ _ | apply State.count_same | apply State.endUnadmitted_same
    | dsimp only | split

theorem State.beaterBlock_same {msk : Field → Bool} {s0 s : State} (h0 : Same msk s0 s) (k : Nat) (v : Post)
    (b : Bytes) (w_free : msk .free = false) (w_ctr : msk .ctr = false) (w_parts : msk .parts = false)
    (w_fe : msk .fe = false) (w_io : msk .io = false) (w_hp : msk .hp = false) (w_evt : msk .evt = false)
    (w_ream : msk .ream = false) (w_posts : msk .posts = false) (w_tiles : msk .tiles = false)
    (w_tiers : msk .tiers = false) (w_gat : msk .gat = false) :
    Same msk s0 (State.beaterBlock s k v b) := by
  unfold State.beaterBlock
  repeat' first
    | with_reducible first
      | assumption | exact Same.refl _ _ | apply State.setPost_same | apply State.setPhase_same
      | apply State.beaterCount_same | apply State.codingBad_same | apply Same.ite
    | dsimp only | split

theorem execBeaterBlockDecode_same {msk : Field → Bool} (s : State) (ring : Nat) (seq : Nat) (block : Bytes)
    (w_free : msk .free = false) (w_ctr : msk .ctr = false) (w_parts : msk .parts = false) (w_fe : msk .fe = false)
    (w_io : msk .io = false) (w_hp : msk .hp = false) (w_evt : msk .evt = false) (w_ream : msk .ream = false)
    (w_posts : msk .posts = false) (w_tiles : msk .tiles = false) (w_tiers : msk .tiers = false)
    (w_gat : msk .gat = false) :
    ∃ t, execBeaterBlockDecode ring seq block s = .next t ∧ Same msk s t := by
  refine ⟨_, rfl, ?_⟩
  repeat' first
    | with_reducible first
      | assumption | exact Same.refl _ _ | apply State.openAsk_same | apply State.beaterBlock_same | apply Same.ite
      | refine Same.of_snd (by assumption) ?_
    | dsimp only | split

theorem State.stageBody_same {msk : Field → Bool} {s0 s : State} (h0 : Same msk s0 s) (v : Post) (raw : Bytes)
    (b : Bytes) (w_free : msk .free = false) :
    Same msk s0 (State.stageBody s v raw b).2 := by
  unfold State.stageBody
  repeat' first
    | with_reducible first
      | assumption | exact Same.refl _ _ | refine Same.foldl ?_ _ _ (fun _ _ _ => ?_)
      | refine Same.foldl_fst _ _ (fun _ _ _ => ?_) _ ?_ | refine Same.foldl_snd _ _ (fun _ _ _ => ?_) _ ?_
      | apply State.freeVals_same | refine Same.of_fst (by assumption) ?_ | refine Same.of_snd (by assumption) ?_
      | intro _
    | dsimp only | split

theorem State.restCount_same {msk : Field → Bool} {s0 s : State} (h0 : Same msk s0 s) (c : Cmd) (v : Post)
    (w_ctr : msk .ctr = false) :
    Same msk s0 (State.restCount s c v) := by
  unfold State.restCount
  repeat' first
    | with_reducible first
      | assumption | exact Same.refl _ _ | apply State.beaterCount_same | apply Same.ite
    | dsimp only | split

theorem execInputStagingDone_same {msk : Field → Bool} (s : State) (ring : Nat) (seq : Nat) (body : Rd)
    (w_free : msk .free = false) (w_ctr : msk .ctr = false) (w_parts : msk .parts = false) (w_fe : msk .fe = false)
    (w_io : msk .io = false) (w_hp : msk .hp = false) (w_evt : msk .evt = false) (w_ream : msk .ream = false)
    (w_posts : msk .posts = false) (w_tiles : msk .tiles = false) (w_tiers : msk .tiers = false)
    (w_gat : msk .gat = false) :
    ∃ t, execInputStagingDone ring seq body s = .next t ∧ Same msk s t := by
  refine ⟨_, rfl, ?_⟩
  repeat' first
    | with_reducible first
      | assumption | exact Same.refl _ _ | apply State.setPost_same | apply State.count_same
      | apply State.openAsk_same | apply State.unstage_same | apply State.endUnadmitted_same
      | apply State.codingBad_same | apply State.stageBody_same | apply State.restCount_same | apply Same.ite
      | apply SameParts.same | apply SameParts.upd_ream | refine Same.of_snd (by assumption) ?_
    | dsimp only | simp only [same_mk] | split

theorem State.takeCtx_same {msk : Field → Bool} {s0 s : State} (h0 : Same msk s0 s) (k : Nat) (t : Nat)
    (w_posts : msk .posts = false) (w_tiles : msk .tiles = false) (w_gat : msk .gat = false) :
    Same msk s0 (State.takeCtx s k t) := by
  unfold State.takeCtx
  repeat' first
    | with_reducible first
      | assumption | exact Same.refl _ _ | apply State.setCtx_same | apply State.failPost_same
      | apply State.flagPost_same | apply Same.ite
    | dsimp only | split

theorem State.stageReads_same {msk : Field → Bool} {s0 s : State} (h0 : Same msk s0 s) (k : Nat)
    (w_ctr : msk .ctr = false) (w_io : msk .io = false) (w_posts : msk .posts = false) (w_felt : msk .felt = false)
    (w_tiers : msk .tiers = false) (w_gat : msk .gat = false) :
    Same msk s0 (State.stageReads s k) := by
  unfold State.stageReads
  repeat' first
    | with_reducible first
      | assumption | exact Same.refl _ _ | refine Same.each ?_ _ _ (fun _ _ _ => ?_) | apply State.startReads_same
      | intro _
    | dsimp only | split

theorem State.settleFailed_same {msk : Field → Bool} {s0 s : State} (h0 : Same msk s0 s) (k : Nat)
    (w_free : msk .free = false) (w_mem : msk .mem = false) (w_ctr : msk .ctr = false) (w_parts : msk .parts = false)
    (w_fe : msk .fe = false) (w_io : msk .io = false) (w_hp : msk .hp = false) (w_evt : msk .evt = false)
    (w_ream : msk .ream = false) (w_posts : msk .posts = false) (w_slots : msk .slots = false)
    (w_tiles : msk .tiles = false) (w_tiers : msk .tiers = false) (w_gat : msk .gat = false)
    (w_rel : msk .rel = false) :
    Same msk s0 (State.settleFailed s k) := by
  unfold State.settleFailed
  repeat' first
    | with_reducible first
      | assumption | exact Same.refl _ _ | apply State.settle_same | apply Same.ite
    | dsimp only | split

theorem State.enterStage_same {msk : Field → Bool} {s0 s : State} (h0 : Same msk s0 s) (k : Nat) (i : Nat)
    (w_free : msk .free = false) (w_mem : msk .mem = false) (w_ctr : msk .ctr = false) (w_parts : msk .parts = false)
    (w_fe : msk .fe = false) (w_io : msk .io = false) (w_hp : msk .hp = false) (w_evt : msk .evt = false)
    (w_ream : msk .ream = false) (w_posts : msk .posts = false) (w_slots : msk .slots = false)
    (w_tiles : msk .tiles = false) (w_felt : msk .felt = false) (w_tiers : msk .tiers = false)
    (w_gat : msk .gat = false) (w_rel : msk .rel = false) :
    Same msk s0 (State.enterStage s k i) := by
  unfold State.enterStage
  repeat' first
    | with_reducible first
      | assumption | exact Same.refl _ _ | refine Same.each ?_ _ _ (fun _ _ _ => ?_)
      | refine Same.foldl ?_ _ _ (fun _ _ _ => ?_) | refine Same.foldl_fst _ _ (fun _ _ _ => ?_) _ ?_
      | refine Same.foldl_snd _ _ (fun _ _ _ => ?_) _ ?_ | apply State.modPost_same | apply State.takeCtx_same
      | apply State.stageReads_same | apply State.settleFailed_same | apply SameParts.same | apply SameParts.upd_ream
      | refine Same.of_fst (by assumption) ?_ | refine Same.of_snd (by assumption) ?_ | intro _
    | dsimp only | simp only [same_mk] | split

theorem State.admitRun_same {msk : Field → Bool} {s0 s : State} (h0 : Same msk s0 s) (k : Nat) (v : Post)
    (w_free : msk .free = false) (w_mem : msk .mem = false) (w_ctr : msk .ctr = false) (w_parts : msk .parts = false)
    (w_fe : msk .fe = false) (w_io : msk .io = false) (w_hp : msk .hp = false) (w_evt : msk .evt = false)
    (w_ream : msk .ream = false) (w_posts : msk .posts = false) (w_slots : msk .slots = false)
    (w_tiles : msk .tiles = false) (w_felt : msk .felt = false) (w_tiers : msk .tiers = false)
    (w_gat : msk .gat = false) (w_pwr : msk .pwr = false) (w_rel : msk .rel = false) :
    Same msk s0 (State.admitRun s k v) := by
  unfold State.admitRun
  repeat' first
    | with_reducible first
      | assumption | exact Same.refl _ _ | apply State.setPost_same | apply State.freeVal_same
      | apply State.notePeak_same | apply State.askWake_same | apply State.enterStage_same | apply Same.ite
      | apply SameParts.same | apply SameParts.upd_ream | refine Same.of_snd (by assumption) ?_
    | dsimp only | simp only [same_mk] | split

theorem State.takeSlot_same {msk : Field → Bool} {s0 s : State} (h0 : Same msk s0 s) (k : Nat)
    (w_free : msk .free = false) (w_mem : msk .mem = false) (w_ctr : msk .ctr = false) (w_parts : msk .parts = false)
    (w_fe : msk .fe = false) (w_io : msk .io = false) (w_hp : msk .hp = false) (w_evt : msk .evt = false)
    (w_ream : msk .ream = false) (w_posts : msk .posts = false) (w_slots : msk .slots = false)
    (w_tiles : msk .tiles = false) (w_felt : msk .felt = false) (w_tiers : msk .tiers = false)
    (w_gat : msk .gat = false) (w_pwr : msk .pwr = false) (w_rel : msk .rel = false) :
    Same msk s0 (State.takeSlot s k) := by
  unfold State.takeSlot
  repeat' first
    | with_reducible first
      | assumption | exact Same.refl _ _ | apply State.count_same | apply State.leaveQueue_same
      | apply State.endUnadmitted_same | apply State.admitRun_same | apply Same.ite
    | dsimp only | split

theorem execAdmissionSlotOpen_same {msk : Field → Bool} (s : State) (w_free : msk .free = false)
    (w_mem : msk .mem = false) (w_ctr : msk .ctr = false) (w_parts : msk .parts = false) (w_fe : msk .fe = false)
    (w_io : msk .io = false) (w_hp : msk .hp = false) (w_evt : msk .evt = false) (w_ream : msk .ream = false)
    (w_posts : msk .posts = false) (w_slots : msk .slots = false) (w_tiles : msk .tiles = false)
    (w_felt : msk .felt = false) (w_tiers : msk .tiers = false) (w_gat : msk .gat = false) (w_pwr : msk .pwr = false)
    (w_rel : msk .rel = false) :
    ∃ t, execAdmissionSlotOpen s = .next t ∧ Same msk s t := by
  refine ⟨_, rfl, ?_⟩
  repeat' first
    | with_reducible first
      | assumption | exact Same.refl _ _ | apply State.count_same | apply State.takeSlot_same | apply Same.ite
      | apply SameParts.same | apply SameParts.upd_ream
    | dsimp only | simp only [same_mk] | split

theorem State.halfNext_same {msk : Field → Bool} {s0 s : State} (h0 : Same msk s0 s) (w_ream : msk .ream = false) :
    Same msk s0 (State.halfNext s) := by
  unfold State.halfNext
  repeat' first
    | with_reducible first
      | assumption | exact Same.refl _ _ | apply SameParts.same | apply SameParts.upd_ream
    | dsimp only | simp only [same_mk] | split

theorem State.undoGo_same {msk : Field → Bool} {s0 s : State} (h0 : Same msk s0 s) (k : Nat)
    (w_posts : msk .posts = false) :
    Same msk s0 (State.undoGo s k) := by
  unfold State.undoGo
  repeat' first
    | with_reducible first
      | assumption | exact Same.refl _ _ | apply State.modPost_same | apply Same.ite
    | dsimp only | split

theorem State.memSkew_same {msk : Field → Bool} {s0 s : State} (h0 : Same msk s0 s) (tiles : List Nat)
    (w_ctr : msk .ctr = false) :
    Same msk s0 (State.memSkew s tiles) := by
  unfold State.memSkew
  repeat' first
    | with_reducible first
      | assumption | exact Same.refl _ _ | refine Same.each ?_ _ _ (fun _ _ _ => ?_) | apply State.count_same
      | intro _
    | dsimp only | split

theorem State.stopLookups_same {msk : Field → Bool} {s0 s : State} (h0 : Same msk s0 s) (gs : List GWork)
    (w_io : msk .io = false) (w_felt : msk .felt = false) (w_gat : msk .gat = false) :
    Same msk s0 (State.stopLookups s gs) := by
  unfold State.stopLookups
  repeat' first
    | with_reducible first
      | assumption | exact Same.refl _ _ | refine Same.each ?_ _ _ (fun _ _ _ => ?_) | apply State.stopUnit_same
      | intro _
    | dsimp only | split

theorem State.stopUpdates_same {msk : Field → Bool} {s0 s : State} (h0 : Same msk s0 s) (k : Nat) (gs : List UWork)
    (w_ctr : msk .ctr = false) (w_io : msk .io = false) (w_posts : msk .posts = false) (w_felt : msk .felt = false) :
    Same msk s0 (State.stopUpdates s k gs) := by
  unfold State.stopUpdates
  repeat' first
    | with_reducible first
      | assumption | exact Same.refl _ _ | refine Same.each ?_ _ _ (fun _ _ _ => ?_) | apply State.count_same
      | apply State.sendOver_same | apply State.undoGo_same | apply Same.ite | intro _
    | dsimp only | split

theorem State.residencyEnd_same {msk : Field → Bool} {s0 s : State} (h0 : Same msk s0 s) (k : Nat) (i : Nat)
    (v : Post) (w_ctr : msk .ctr = false) (w_io : msk .io = false) (w_posts : msk .posts = false)
    (w_tiles : msk .tiles = false) (w_felt : msk .felt = false) (w_gat : msk .gat = false) :
    Same msk s0 (State.residencyEnd s k i v) := by
  unfold State.residencyEnd
  repeat' first
    | with_reducible first
      | assumption | exact Same.refl _ _ | refine Same.each ?_ _ _ (fun _ _ _ => ?_) | apply State.count_same
      | apply State.failPost_same | apply State.sendOver_same | apply State.memSkew_same
      | apply State.stopLookups_same | apply State.stopUpdates_same | apply Same.ite | intro _
    | dsimp only | split

theorem State.advancePost_same {msk : Field → Bool} {s0 s : State} (h0 : Same msk s0 s) (k : Nat)
    (w_free : msk .free = false) (w_mem : msk .mem = false) (w_ctr : msk .ctr = false) (w_parts : msk .parts = false)
    (w_fe : msk .fe = false) (w_io : msk .io = false) (w_hp : msk .hp = false) (w_evt : msk .evt = false)
    (w_ream : msk .ream = false) (w_posts : msk .posts = false) (w_slots : msk .slots = false)
    (w_tiles : msk .tiles = false) (w_felt : msk .felt = false) (w_tiers : msk .tiers = false)
    (w_gat : msk .gat = false) (w_rel : msk .rel = false) :
    Same msk s0 (State.advancePost s k) := by
  unfold State.advancePost
  repeat' first
    | with_reducible first
      | assumption | exact Same.refl _ _ | apply State.setPost_same | apply State.settle_same
      | apply State.enterStage_same | apply State.residencyEnd_same | apply Same.ite
    | dsimp only | split

theorem State.moveSwitch_same {msk : Field → Bool} {s0 s : State} (h0 : Same msk s0 s) (w_free : msk .free = false)
    (w_mem : msk .mem = false) (w_ctr : msk .ctr = false) (w_parts : msk .parts = false) (w_fe : msk .fe = false)
    (w_io : msk .io = false) (w_hp : msk .hp = false) (w_evt : msk .evt = false) (w_ream : msk .ream = false)
    (w_posts : msk .posts = false) (w_tiles : msk .tiles = false) (w_tiers : msk .tiers = false)
    (w_gat : msk .gat = false) (w_rel : msk .rel = false) (w_sec : msk .sec = false) :
    Same msk s0 (State.moveSwitch s) := by
  unfold State.moveSwitch
  repeat' first
    | with_reducible first
      | assumption | exact Same.refl _ _ | apply State.switchVersion_same | apply Same.ite | apply SameParts.same
      | apply SameParts.upd_ream
    | dsimp only | simp only [same_mk] | split

theorem execStageMoveSourceRelease_same {msk : Field → Bool} (s : State) (w_mem : msk .mem = false)
    (w_ream : msk .ream = false) (w_tiles : msk .tiles = false) :
    ∃ t, execStageMoveSourceRelease s = .next t ∧ Same msk s t := by
  refine ⟨_, rfl, ?_⟩
  repeat' first
    | with_reducible first
      | assumption | exact Same.refl _ _ | apply State.modTile_same | apply Same.ite | apply SameParts.same
      | apply SameParts.upd_mem | apply SameParts.upd_ream | apply SameParts.upd_mem_ream
    | dsimp only | simp only [same_mk] | split

theorem State.recoveryTile_same {msk : Field → Bool} {s0 s : State} (h0 : Same msk s0 s) (t : Nat)
    (w_posts : msk .posts = false) (w_tiles : msk .tiles = false) (w_gat : msk .gat = false) :
    Same msk s0 (State.recoveryTile s t) := by
  unfold State.recoveryTile
  repeat' first
    | with_reducible first
      | assumption | exact Same.refl _ _ | refine Same.each ?_ _ _ (fun _ _ _ => ?_) | apply State.modTile_same
      | apply State.failPost_same | apply Same.ite | intro _
    | dsimp only | split

theorem State.degradedNext_same {msk : Field → Bool} {s0 s : State} (h0 : Same msk s0 s) (w_ream : msk .ream = false)
    :
    Same msk s0 (State.degradedNext s) := by
  unfold State.degradedNext
  repeat' first
    | with_reducible first
      | assumption | exact Same.refl _ _ | apply Same.ite | apply SameParts.same | apply SameParts.upd_ream
    | dsimp only | simp only [same_mk] | split

theorem State.sliceTile_same {msk : Field → Bool} {s0 s : State} (h0 : Same msk s0 s) (t : Nat)
    (w_ctr : msk .ctr = false) (w_tiles : msk .tiles = false) :
    Same msk s0 (State.sliceTile s t) := by
  unfold State.sliceTile
  repeat' first
    | with_reducible first
      | assumption | exact Same.refl _ _ | apply State.count_same | apply State.modTile_same | apply Same.ite
    | dsimp only | split

theorem execIntervalBoundary_same {msk : Field → Bool} (s : State) (w_free : msk .free = false)
    (w_mem : msk .mem = false) (w_ctr : msk .ctr = false) (w_parts : msk .parts = false) (w_fe : msk .fe = false)
    (w_io : msk .io = false) (w_hp : msk .hp = false) (w_evt : msk .evt = false) (w_ream : msk .ream = false)
    (w_posts : msk .posts = false) (w_slots : msk .slots = false) (w_tiles : msk .tiles = false)
    (w_felt : msk .felt = false) (w_tiers : msk .tiers = false) (w_gat : msk .gat = false) (w_rel : msk .rel = false)
    (w_sec : msk .sec = false) :
    ∃ t, execIntervalBoundary s = .next t ∧ Same msk s t := by
  refine ⟨_, rfl, ?_⟩
  repeat' first
    | with_reducible first
      | assumption | exact Same.refl _ _ | refine Same.each ?_ _ _ (fun _ _ _ => ?_) | apply State.halfNext_same
      | apply State.advancePost_same | apply State.moveSwitch_same | apply State.recoveryTile_same
      | apply State.degradedNext_same | apply State.sliceTile_same | apply Same.ite | apply SameParts.same
      | apply SameParts.upd_ream | intro _
    | dsimp only | simp only [same_mk] | split

theorem State.newPack_same {msk : Field → Bool} {s0 s : State} (h0 : Same msk s0 s) (t : Nat)
    (w_rel : msk .rel = false) :
    Same msk s0 (State.newPack s t) := by
  unfold State.newPack
  repeat' first
    | with_reducible first
      | assumption | exact Same.refl _ _ | apply Same.ite | apply SameParts.same | apply SameParts.upd_rel
    | dsimp only | simp only [same_mk] | split

theorem State.slicePass_same {msk : Field → Bool} {s0 s : State} (h0 : Same msk s0 s) (t : Nat) (p : Nat) (len : Nat)
    (w_ctr : msk .ctr = false) (w_tiles : msk .tiles = false) (w_rel : msk .rel = false) :
    Same msk s0 (State.slicePass s t p len) := by
  unfold State.slicePass
  repeat' first
    | with_reducible first
      | assumption | exact Same.refl _ _ | apply State.count_same | apply State.modTile_same
      | apply State.newPack_same | apply Same.ite | apply SameParts.same | apply SameParts.upd_rel
    | dsimp only | simp only [same_mk] | split

theorem State.sliceFail_same {msk : Field → Bool} {s0 s : State} (h0 : Same msk s0 s) (t : Nat) (p : Nat)
    (w_free : msk .free = false) (w_ctr : msk .ctr = false) (w_parts : msk .parts = false) (w_io : msk .io = false)
    (w_hp : msk .hp = false) (w_evt : msk .evt = false) (w_rel : msk .rel = false) :
    Same msk s0 (State.sliceFail s t p) := by
  unfold State.sliceFail
  repeat' first
    | with_reducible first
      | assumption | exact Same.refl _ _ | apply State.count_same | apply State.raise_same | apply SameParts.same
      | apply SameParts.upd_rel
    | dsimp only | simp only [same_mk] | split

theorem execCalenderSliceEnd_same {msk : Field → Bool} (s : State) (tile : Nat) (crc : Word)
    (w_free : msk .free = false) (w_ctr : msk .ctr = false) (w_parts : msk .parts = false) (w_io : msk .io = false)
    (w_hp : msk .hp = false) (w_evt : msk .evt = false) (w_tiles : msk .tiles = false) (w_rel : msk .rel = false) :
    ∃ t, execCalenderSliceEnd tile crc s = .next t ∧ Same msk s t := by
  refine ⟨_, rfl, ?_⟩
  repeat' first
    | with_reducible first
      | assumption | exact Same.refl _ _ | apply State.modTile_same | apply State.slicePass_same
      | apply State.sliceFail_same | apply Same.ite
    | dsimp only | split

theorem State.decideLayer_same {msk : Field → Bool} {s0 s : State} (h0 : Same msk s0 s) (k : Nat) (l : Nat)
    (w_ream : msk .ream = false) :
    Same msk s0 (State.decideLayer s k l) := by
  unfold State.decideLayer
  repeat' first
    | with_reducible first
      | assumption | exact Same.refl _ _ | apply Same.ite | apply SameParts.same | apply SameParts.upd_ream
    | dsimp only | simp only [same_mk] | split

theorem execEscCountReport_same {msk : Field → Bool} (s : State) (tile : Nat) (w_free : msk .free = false)
    (w_mem : msk .mem = false) (w_ctr : msk .ctr = false) (w_parts : msk .parts = false) (w_fe : msk .fe = false)
    (w_io : msk .io = false) (w_hp : msk .hp = false) (w_evt : msk .evt = false) (w_ream : msk .ream = false)
    (w_posts : msk .posts = false) (w_slots : msk .slots = false) (w_tiles : msk .tiles = false)
    (w_tiers : msk .tiers = false) (w_gat : msk .gat = false) (w_rel : msk .rel = false) :
    ∃ t, execEscCountReport tile s = .next t ∧ Same msk s t := by
  refine ⟨_, rfl, ?_⟩
  repeat' first
    | with_reducible first
      | assumption | exact Same.refl _ _ | refine Same.each ?_ _ _ (fun _ _ _ => ?_) | apply State.settle_same
      | apply State.decideLayer_same | apply SameParts.same | apply SameParts.upd_ream | intro _
    | dsimp only | simp only [same_mk] | split

theorem State.grantSwitch_same {msk : Field → Bool} {s0 s : State} (h0 : Same msk s0 s) (w_free : msk .free = false)
    (w_mem : msk .mem = false) (w_ctr : msk .ctr = false) (w_parts : msk .parts = false) (w_fe : msk .fe = false)
    (w_io : msk .io = false) (w_hp : msk .hp = false) (w_evt : msk .evt = false) (w_ream : msk .ream = false)
    (w_posts : msk .posts = false) (w_tiles : msk .tiles = false) (w_tiers : msk .tiers = false)
    (w_gat : msk .gat = false) (w_rel : msk .rel = false) :
    Same msk s0 (State.grantSwitch s) := by
  unfold State.grantSwitch
  repeat' first
    | with_reducible first
      | assumption | exact Same.refl _ _ | refine Same.each ?_ _ _ (fun _ _ _ => ?_) | apply State.endIdle_same
      | apply State.endUnadmitted_same | apply SameParts.same | apply SameParts.upd_ream | intro _
    | dsimp only | simp only [same_mk] | split

theorem State.modeSwitch_same {msk : Field → Bool} {s0 s : State} (h0 : Same msk s0 s) (w_ream : msk .ream = false) :
    Same msk s0 (State.modeSwitch s) := by
  unfold State.modeSwitch
  repeat' first
    | with_reducible first
      | assumption | exact Same.refl _ _ | apply Same.ite | apply SameParts.same | apply SameParts.upd_ream
    | dsimp only | simp only [same_mk] | split

theorem State.escalate_same {msk : Field → Bool} {s0 s : State} (h0 : Same msk s0 s) (w_free : msk .free = false)
    (w_ctr : msk .ctr = false) (w_parts : msk .parts = false) (w_io : msk .io = false) (w_hp : msk .hp = false)
    (w_evt : msk .evt = false) (w_ream : msk .ream = false) (w_posts : msk .posts = false) :
    Same msk s0 (State.escalate s) := by
  unfold State.escalate
  repeat' first
    | with_reducible first
      | assumption | exact Same.refl _ _ | refine Same.each ?_ _ _ (fun _ _ _ => ?_) | apply State.modPost_same
      | apply State.count_same | apply State.causeAll_same | apply SameParts.same | apply SameParts.upd_ream | intro _
    | dsimp only | simp only [same_mk] | split

theorem State.gateGroup_same {msk : Field → Bool} {s0 s : State} (h0 : Same msk s0 s) (g : Nat)
    (w_tiles : msk .tiles = false) (w_pwr : msk .pwr = false) :
    Same msk s0 (State.gateGroup s g) := by
  unfold State.gateGroup
  repeat' first
    | with_reducible first
      | assumption | exact Same.refl _ _ | refine Same.each ?_ _ _ (fun _ _ _ => ?_) | apply State.modTile_same
      | apply Same.ite | apply SameParts.same | apply SameParts.upd_pwr | intro _
    | dsimp only | simp only [same_mk] | split

theorem State.gateIdle_same {msk : Field → Bool} {s0 s : State} (h0 : Same msk s0 s) (w_ream : msk .ream = false)
    (w_tiles : msk .tiles = false) (w_pwr : msk .pwr = false) :
    Same msk s0 (State.gateIdle s) := by
  unfold State.gateIdle
  repeat' first
    | with_reducible first
      | assumption | exact Same.refl _ _ | refine Same.each ?_ _ _ (fun _ _ _ => ?_) | apply State.gateGroup_same
      | apply Same.ite | apply SameParts.same | apply SameParts.upd_ream | intro _
    | dsimp only | simp only [same_mk] | split

theorem State.restoreOpen_same {msk : Field → Bool} {s0 s : State} (h0 : Same msk s0 s) (w_fe : msk .fe = false)
    (w_ream : msk .ream = false) (w_rel : msk .rel = false) :
    Same msk s0 (State.restoreOpen s) := by
  unfold State.restoreOpen
  repeat' first
    | with_reducible first
      | assumption | exact Same.refl _ _ | apply State.finish_same | apply SameParts.same
      | apply SameParts.upd_ream_rel
    | dsimp only | simp only [same_mk] | split

theorem State.patchSwitch_same {msk : Field → Bool} {s0 s : State} (h0 : Same msk s0 s) (w_free : msk .free = false)
    (w_mem : msk .mem = false) (w_ctr : msk .ctr = false) (w_parts : msk .parts = false) (w_fe : msk .fe = false)
    (w_io : msk .io = false) (w_hp : msk .hp = false) (w_evt : msk .evt = false) (w_ream : msk .ream = false)
    (w_posts : msk .posts = false) (w_tiles : msk .tiles = false) (w_tiers : msk .tiers = false)
    (w_gat : msk .gat = false) (w_rel : msk .rel = false) (w_sec : msk .sec = false) :
    Same msk s0 (State.patchSwitch s) := by
  unfold State.patchSwitch
  repeat' first
    | with_reducible first
      | assumption | exact Same.refl _ _ | apply State.switchVersion_same | apply Same.ite
    | dsimp only | split

theorem State.sweepChanges_same {msk : Field → Bool} {s0 s : State} (h0 : Same msk s0 s) (w_free : msk .free = false)
    (w_mem : msk .mem = false) (w_ctr : msk .ctr = false) (w_parts : msk .parts = false) (w_fe : msk .fe = false)
    (w_io : msk .io = false) (w_hp : msk .hp = false) (w_evt : msk .evt = false) (w_ream : msk .ream = false)
    (w_posts : msk .posts = false) (w_tiles : msk .tiles = false) (w_tiers : msk .tiers = false)
    (w_gat : msk .gat = false) (w_pwr : msk .pwr = false) (w_rel : msk .rel = false) (w_sec : msk .sec = false) :
    Same msk s0 (State.sweepChanges s) := by
  unfold State.sweepChanges
  repeat' first
    | with_reducible first
      | assumption | exact Same.refl _ _ | apply State.flipMoves_same | apply State.setBounds_same
      | apply State.useBounds_same | apply State.grantSwitch_same | apply State.modeSwitch_same
      | apply State.escalate_same | apply State.gateIdle_same | apply State.restoreOpen_same
      | apply State.patchSwitch_same | apply SameParts.same | apply SameParts.upd_ream
    | dsimp only | simp only [same_mk] | split

theorem State.unloadStep_same {msk : Field → Bool} {s0 s : State} (h0 : Same msk s0 s) (j : ReamJob)
    (w_free : msk .free = false) (w_mem : msk .mem = false) (w_ctr : msk .ctr = false) (w_parts : msk .parts = false)
    (w_fe : msk .fe = false) (w_io : msk .io = false) (w_hp : msk .hp = false) (w_evt : msk .evt = false)
    (w_ream : msk .ream = false) (w_posts : msk .posts = false) (w_tiles : msk .tiles = false)
    (w_felt : msk .felt = false) (w_tiers : msk .tiers = false) (w_gat : msk .gat = false) (w_rel : msk .rel = false)
    (w_sec : msk .sec = false) :
    Same msk s0 (State.unloadStep s j) := by
  unfold State.unloadStep
  repeat' first
    | with_reducible first
      | assumption | exact Same.refl _ _ | apply State.abandonMoves_same | apply State.writeBackAll_same
      | apply State.appendAll_same | apply State.closeAdmission_same | apply State.unloadDone_same | apply Same.ite
      | apply SameParts.same | apply SameParts.upd_ream
    | dsimp only | simp only [same_mk] | split

theorem State.boundary_same {msk : Field → Bool} {s0 s : State} (h0 : Same msk s0 s) (w_free : msk .free = false)
    (w_mem : msk .mem = false) (w_ctr : msk .ctr = false) (w_parts : msk .parts = false) (w_fe : msk .fe = false)
    (w_io : msk .io = false) (w_hp : msk .hp = false) (w_evt : msk .evt = false) (w_ream : msk .ream = false)
    (w_posts : msk .posts = false) (w_tiles : msk .tiles = false) (w_felt : msk .felt = false)
    (w_tiers : msk .tiers = false) (w_gat : msk .gat = false) (w_pwr : msk .pwr = false) (w_rel : msk .rel = false)
    (w_sec : msk .sec = false) :
    Same msk s0 (State.boundary s) := by
  unfold State.boundary
  repeat' first
    | with_reducible first
      | assumption | exact Same.refl _ _ | apply State.snoop_same | apply State.sweepChanges_same
      | apply State.unloadStep_same | apply Same.ite | apply SameParts.same | apply SameParts.upd_ream
    | dsimp only | simp only [same_mk] | split

theorem execSweepBoundary_same {msk : Field → Bool} (s : State) (w_free : msk .free = false)
    (w_mem : msk .mem = false) (w_ctr : msk .ctr = false) (w_parts : msk .parts = false) (w_fe : msk .fe = false)
    (w_io : msk .io = false) (w_hp : msk .hp = false) (w_evt : msk .evt = false) (w_ream : msk .ream = false)
    (w_posts : msk .posts = false) (w_tiles : msk .tiles = false) (w_felt : msk .felt = false)
    (w_tiers : msk .tiers = false) (w_gat : msk .gat = false) (w_pwr : msk .pwr = false) (w_rel : msk .rel = false)
    (w_sec : msk .sec = false) :
    ∃ t, execSweepBoundary s = .next t ∧ Same msk s t := by
  refine ⟨_, rfl, ?_⟩
  repeat' first
    | with_reducible first
      | assumption | exact Same.refl _ _ | apply State.boundary_same | apply Same.ite | apply SameParts.same
      | apply SameParts.upd_ream
    | dsimp only | simp only [same_mk] | split

theorem State.halfIdle_same {msk : Field → Bool} {s0 s : State} (h0 : Same msk s0 s) (w_ream : msk .ream = false) :
    Same msk s0 (State.halfIdle s) := by
  unfold State.halfIdle
  repeat' first
    | with_reducible first
      | assumption | exact Same.refl _ _ | apply State.halfNext_same | apply Same.ite
    | dsimp only | split

theorem State.declare_same {msk : Field → Bool} {s0 s : State} (h0 : Same msk s0 s) (cause : Nat)
    (w_free : msk .free = false) (w_ctr : msk .ctr = false) (w_parts : msk .parts = false) (w_io : msk .io = false)
    (w_hp : msk .hp = false) (w_evt : msk .evt = false) (w_ream : msk .ream = false) (w_posts : msk .posts = false)
    (w_pwr : msk .pwr = false) (w_mgmt : msk .mgmt = false) :
    Same msk s0 (State.declare s cause) := by
  unfold State.declare
  repeat' first
    | with_reducible first
      | assumption | exact Same.refl _ _ | apply State.causeAll_same | apply State.pldmIf_same
      | apply State.halfIdle_same | apply Same.ite | apply SameParts.same | apply SameParts.upd_posts_pwr
      | apply SameParts.upd_pwr
    | dsimp only | simp only [same_mk] | split

theorem State.endCause_same {msk : Field → Bool} {s0 s : State} (h0 : Same msk s0 s) (cause : Nat)
    (w_ream : msk .ream = false) (w_pwr : msk .pwr = false) (w_mgmt : msk .mgmt = false) :
    Same msk s0 (State.endCause s cause) := by
  unfold State.endCause
  repeat' first
    | with_reducible first
      | assumption | exact Same.refl _ _ | apply State.pldmIf_same | apply State.halfIdle_same | apply Same.ite
      | apply SameParts.same | apply SameParts.upd_pwr
    | dsimp only | simp only [same_mk] | split

theorem State.causeHolds_same {msk : Field → Bool} {s0 s : State} (h0 : Same msk s0 s) (cause : Nat) (holds : Bool)
    (w_free : msk .free = false) (w_ctr : msk .ctr = false) (w_parts : msk .parts = false) (w_io : msk .io = false)
    (w_hp : msk .hp = false) (w_evt : msk .evt = false) (w_ream : msk .ream = false) (w_posts : msk .posts = false)
    (w_pwr : msk .pwr = false) (w_mgmt : msk .mgmt = false) :
    Same msk s0 (State.causeHolds s cause holds) := by
  unfold State.causeHolds
  repeat' first
    | with_reducible first
      | assumption | exact Same.refl _ _ | apply State.declare_same | apply State.endCause_same | apply Same.ite
    | dsimp only | split

theorem State.setHot_same {msk : Field → Bool} {s0 s : State} (h0 : Same msk s0 s) (i : Nat) (enter : Bool)
    (leave : Bool) (w_pwr : msk .pwr = false) :
    Same msk s0 (State.setHot s i enter leave) := by
  unfold State.setHot
  repeat' first
    | with_reducible first
      | assumption | exact Same.refl _ _ | apply Same.ite | apply SameParts.same | apply SameParts.upd_pwr
    | dsimp only | simp only [same_mk] | split

theorem State.lower_same {msk : Field → Bool} {s0 s : State} (h0 : Same msk s0 s) (floor : Nat) (g : Nat)
    (w_pwr : msk .pwr = false) :
    Same msk s0 (State.lower s floor g) := by
  unfold State.lower
  repeat' first
    | with_reducible first
      | assumption | exact Same.refl _ _ | apply Same.ite | apply SameParts.same | apply SameParts.upd_pwr
    | dsimp only | simp only [same_mk] | split

theorem State.lowerAll_same {msk : Field → Bool} {s0 s : State} (h0 : Same msk s0 s) (floor : Nat)
    (w_pwr : msk .pwr = false) :
    Same msk s0 (State.lowerAll s floor) := by
  unfold State.lowerAll
  repeat' first
    | with_reducible first
      | assumption | exact Same.refl _ _ | refine Same.each ?_ _ _ (fun _ _ _ => ?_) | apply State.lower_same
      | intro _
    | dsimp only | split

theorem State.lift_same {msk : Field → Bool} {s0 s : State} (h0 : Same msk s0 s) (top : Nat) (g : Nat)
    (w_pwr : msk .pwr = false) :
    Same msk s0 (State.lift s top g) := by
  unfold State.lift
  repeat' first
    | with_reducible first
      | assumption | exact Same.refl _ _ | apply Same.ite | apply SameParts.same | apply SameParts.upd_pwr
    | dsimp only | simp only [same_mk] | split

theorem State.riseGroup_same {msk : Field → Bool} {s0 s : State} (h0 : Same msk s0 s) (pAvg : Nat) (cap : Nat)
    (g : Nat) (w_pwr : msk .pwr = false) :
    Same msk s0 (State.riseGroup s pAvg cap g) := by
  unfold State.riseGroup
  repeat' first
    | with_reducible first
      | assumption | exact Same.refl _ _ | apply State.lift_same | apply Same.ite
    | dsimp only | split

theorem State.forgetHeld_same {msk : Field → Bool} {s0 s : State} (h0 : Same msk s0 s) (w_pwr : msk .pwr = false) :
    Same msk s0 (State.forgetHeld s) := by
  unfold State.forgetHeld
  repeat' first
    | with_reducible first
      | assumption | exact Same.refl _ _ | apply Same.ite | apply SameParts.same | apply SameParts.upd_pwr
    | dsimp only | simp only [same_mk] | split

theorem State.askLow_same {msk : Field → Bool} {s0 s : State} (h0 : Same msk s0 s) (pAvg : Nat) (cap : Nat)
    (w_pwr : msk .pwr = false) :
    Same msk s0 (State.askLow s pAvg cap) := by
  unfold State.askLow
  repeat' first
    | with_reducible first
      | assumption | exact Same.refl _ _ | apply SameParts.same | apply SameParts.upd_pwr
    | dsimp only | simp only [same_mk] | split

theorem State.skipStep_same {msk : Field → Bool} {s0 s : State} (h0 : Same msk s0 s) (pAvg : Nat) (cap : Nat)
    (w_ream : msk .ream = false) :
    Same msk s0 (State.skipStep s pAvg cap) := by
  unfold State.skipStep
  repeat' first
    | with_reducible first
      | assumption | exact Same.refl _ _ | apply Same.ite | apply SameParts.same | apply SameParts.upd_ream
    | dsimp only | simp only [same_mk] | split

theorem State.powerOver_same {msk : Field → Bool} {s0 s : State} (h0 : Same msk s0 s) (pAvg : Nat) (cap : Nat)
    (floor : Bool) (w_free : msk .free = false) (w_ctr : msk .ctr = false) (w_parts : msk .parts = false)
    (w_io : msk .io = false) (w_hp : msk .hp = false) (w_evt : msk .evt = false) (w_ream : msk .ream = false)
    (w_posts : msk .posts = false) (w_pwr : msk .pwr = false) (w_mgmt : msk .mgmt = false) :
    Same msk s0 (State.powerOver s pAvg cap floor) := by
  unfold State.powerOver
  repeat' first
    | with_reducible first
      | assumption | exact Same.refl _ _ | apply State.declare_same | apply State.endCause_same | apply Same.ite
      | apply SameParts.same | apply SameParts.upd_pwr
    | dsimp only | simp only [same_mk] | split

theorem State.coolantStep_same {msk : Field → Bool} {s0 s : State} (h0 : Same msk s0 s) (w_pwr : msk .pwr = false) :
    Same msk s0 (State.coolantStep s) := by
  unfold State.coolantStep
  repeat' first
    | with_reducible first
      | assumption | exact Same.refl _ _ | apply State.lowerAll_same | apply Same.ite | apply SameParts.same
      | apply SameParts.upd_pwr
    | dsimp only | simp only [same_mk] | split

theorem execPowerComparison_same {msk : Field → Bool} (s : State) (pAvg : Nat) (w_free : msk .free = false)
    (w_ctr : msk .ctr = false) (w_parts : msk .parts = false) (w_io : msk .io = false) (w_hp : msk .hp = false)
    (w_evt : msk .evt = false) (w_ream : msk .ream = false) (w_posts : msk .posts = false) (w_pwr : msk .pwr = false)
    (w_mgmt : msk .mgmt = false) :
    ∃ t, execPowerComparison pAvg s = .next t ∧ Same msk s t := by
  refine ⟨_, rfl, ?_⟩
  repeat' first
    | with_reducible first
      | assumption | exact Same.refl _ _ | refine Same.each ?_ _ _ (fun _ _ _ => ?_) | apply State.halfIdle_same
      | apply State.lowerAll_same | apply State.riseGroup_same | apply State.forgetHeld_same | apply State.askLow_same
      | apply State.skipStep_same | apply State.powerOver_same | apply State.coolantStep_same | apply Same.ite
      | apply SameParts.same | apply SameParts.upd_pwr | intro _
    | dsimp only | simp only [same_mk] | split

theorem execPwrCap_same {msk : Field → Bool} (s : State) (value : Word) (w_free : msk .free = false)
    (w_ctr : msk .ctr = false) (w_regs : msk .regs = false) (w_parts : msk .parts = false) (w_io : msk .io = false)
    (w_hp : msk .hp = false) (w_evt : msk .evt = false) :
    ∃ t, execPwrCap value s = .next t ∧ Same msk s t := by
  refine ⟨_, rfl, ?_⟩
  repeat' first
    | with_reducible first
      | assumption | exact Same.refl _ _ | apply State.setReg_same | apply State.causeAll_same | apply Same.ite
    | dsimp only | split

theorem execSlew_same {msk : Field → Bool} (s : State) (value : Word) (w_regs : msk .regs = false)
    (w_parts : msk .parts = false) :
    ∃ t, execSlew value s = .next t ∧ Same msk s t := by
  refine ⟨_, rfl, ?_⟩
  repeat' first
    | with_reducible first
      | assumption | exact Same.refl _ _ | apply State.setReg_same | apply State.setBounds_same | apply Same.ite
    | dsimp only | split

theorem execWakeRampDone_same {msk : Field → Bool} (s : State) (w_pwr : msk .pwr = false) :
    ∃ t, execWakeRampDone s = .next t ∧ Same msk s t := by
  refine ⟨_, rfl, ?_⟩
  repeat' first
    | with_reducible first
      | assumption | exact Same.refl _ _ | apply Same.ite | apply SameParts.same | apply SameParts.upd_pwr
    | dsimp only | simp only [same_mk] | split

theorem execTileGroupUsable_same {msk : Field → Bool} (s : State) (group : Nat) (w_tiles : msk .tiles = false)
    (w_pwr : msk .pwr = false) :
    ∃ t, execTileGroupUsable group s = .next t ∧ Same msk s t := by
  refine ⟨_, rfl, ?_⟩
  repeat' first
    | with_reducible first
      | assumption | exact Same.refl _ _ | refine Same.each ?_ _ _ (fun _ _ _ => ?_) | apply State.modTile_same
      | apply Same.ite | apply SameParts.same | apply SameParts.upd_pwr | intro _
    | dsimp only | simp only [same_mk] | split

end Sys2Proof.Machine
end

