-- ==== Sys2Proof/Laws/SameHost.lean ====
section
/-! SUPPORT. `Same` for keys, ingest, the network, the host port, the debug block and management:
the parts of the state each operation leaves alone. -/

namespace Sys2Proof.Machine
set_option linter.unusedTactic false
set_option linter.unreachableTactic false

theorem State.keyInstall_same {msk : Field → Bool} {s0 s : State} (h0 : Same msk s0 s) (k : Nat) (c : Cmd) (blob : Rd)
    (w_ctr : msk .ctr = false) (w_fe : msk .fe = false) (w_io : msk .io = false) (w_hp : msk .hp = false)
    (w_slots : msk .slots = false) (w_sec : msk .sec = false) :
    Same msk s0 (State.keyInstall s k c blob) := by
  unfold State.keyInstall
  repeat' first
    | with_reducible first
      | assumption | exact Same.refl _ _ | apply State.setPhase_same | apply State.finish_same
      | apply State.modSlot_same | apply State.openAsk_same | apply State.operAsk_same | apply Same.ite
      | apply SameParts.same | apply SameParts.upd_sec | refine Same.of_snd (by assumption) ?_
    | dsimp only | simp only [same_mk] | split

theorem execKeyInstall_same {msk : Field → Bool} (s : State) (ring : Nat) (seq : Nat) (blob : Rd)
    (w_free : msk .free = false) (w_mem : msk .mem = false) (w_ctr : msk .ctr = false) (w_parts : msk .parts = false)
    (w_fe : msk .fe = false) (w_io : msk .io = false) (w_hp : msk .hp = false) (w_evt : msk .evt = false)
    (w_posts : msk .posts = false) (w_slots : msk .slots = false) (w_tiers : msk .tiers = false)
    (w_rel : msk .rel = false) (w_sec : msk .sec = false) :
    ∃ t, execKeyInstall ring seq blob s = .next t ∧ Same msk s t := by
  refine ⟨_, rfl, ?_⟩
  repeat' first
    | with_reducible first
      | assumption | exact Same.refl _ _ | apply State.front_same | apply State.keyInstall_same | intro _
    | dsimp only | split

theorem State.loadSlot_same {msk : Field → Bool} {s0 s : State} (h0 : Same msk s0 s) (n : Nat) (pt : Bytes)
    (w_free : msk .free = false) (w_slots : msk .slots = false) :
    Same msk s0 (State.loadSlot s n pt) := by
  unfold State.loadSlot
  repeat' first
    | with_reducible first
      | assumption | exact Same.refl _ _ | apply State.freeVals_same | apply State.modSlot_same | apply Same.ite
      | refine Same.of_snd (by assumption) ?_
    | dsimp only | split

theorem execKeyUnwrapDone_same {msk : Field → Bool} (s : State) (slot : Nat) (w_free : msk .free = false)
    (w_fe : msk .fe = false) (w_slots : msk .slots = false) (w_sec : msk .sec = false) :
    ∃ t, execKeyUnwrapDone slot s = .next t ∧ Same msk s t := by
  refine ⟨_, rfl, ?_⟩
  repeat' first
    | with_reducible first
      | assumption | exact Same.refl _ _ | apply State.finish_same | apply State.modSlot_same
      | apply State.loadSlot_same | apply Same.ite | apply SameParts.same | apply SameParts.upd_sec
    | dsimp only | simp only [same_mk] | split

theorem execKeyErase_same {msk : Field → Bool} (s : State) (ring : Nat) (seq : Nat) (w_free : msk .free = false)
    (w_mem : msk .mem = false) (w_ctr : msk .ctr = false) (w_parts : msk .parts = false) (w_fe : msk .fe = false)
    (w_io : msk .io = false) (w_hp : msk .hp = false) (w_evt : msk .evt = false) (w_posts : msk .posts = false)
    (w_slots : msk .slots = false) (w_tiers : msk .tiers = false) (w_rel : msk .rel = false) :
    ∃ t, execKeyErase ring seq s = .next t ∧ Same msk s t := by
  refine ⟨_, rfl, ?_⟩
  repeat' first
    | with_reducible first
      | assumption | exact Same.refl _ _ | apply State.setPhase_same | apply State.finish_same
      | apply State.modSlot_same | apply State.front_same | apply Same.ite | intro _
    | dsimp only | split

theorem execKeyEraseFinish_same {msk : Field → Bool} (s : State) (slot : Nat) (w_fe : msk .fe = false)
    (w_slots : msk .slots = false) :
    ∃ t, execKeyEraseFinish slot s = .next t ∧ Same msk s t := by
  refine ⟨_, rfl, ?_⟩
  repeat' first
    | with_reducible first
      | assumption | exact Same.refl _ _ | apply State.finish_same | apply State.modSlot_same | apply Same.ite
      | apply SameParts.same | apply SameParts.upd_slots
    | dsimp only | simp only [same_mk] | split

theorem execKeyQuery_same {msk : Field → Bool} (s : State) (ring : Nat) (seq : Nat) (w_free : msk .free = false)
    (w_mem : msk .mem = false) (w_ctr : msk .ctr = false) (w_parts : msk .parts = false) (w_fe : msk .fe = false)
    (w_io : msk .io = false) (w_hp : msk .hp = false) (w_evt : msk .evt = false) (w_posts : msk .posts = false)
    (w_tiers : msk .tiers = false) (w_rel : msk .rel = false) :
    ∃ t, execKeyQuery ring seq s = .next t ∧ Same msk s t := by
  refine ⟨_, rfl, ?_⟩
  repeat' first
    | with_reducible first
      | assumption | exact Same.refl _ _ | apply State.finish_same | apply State.writeSeg_same
      | apply State.openAsk_same | apply State.front_same | apply Same.ite | refine Same.of_snd (by assumption) ?_
      | intro _
    | dsimp only | split

theorem execShingleProfile_same {msk : Field → Bool} (s : State) (ring : Nat) (seq : Nat) (prof : Rd)
    (w_free : msk .free = false) (w_mem : msk .mem = false) (w_ctr : msk .ctr = false) (w_parts : msk .parts = false)
    (w_fe : msk .fe = false) (w_io : msk .io = false) (w_hp : msk .hp = false) (w_evt : msk .evt = false)
    (w_posts : msk .posts = false) (w_tiers : msk .tiers = false) (w_rel : msk .rel = false) :
    ∃ t, execShingleProfile ring seq prof s = .next t ∧ Same msk s t := by
  refine ⟨_, rfl, ?_⟩
  repeat' first
    | with_reducible first
      | assumption | exact Same.refl _ _ | apply State.modPart_same | apply State.finish_same
      | apply State.openAsk_same | apply State.operAsk_same | apply State.front_same | apply Same.ite
      | refine Same.of_snd (by assumption) ?_ | intro _
    | dsimp only | split

theorem execIngest_same {msk : Field → Bool} (s : State) (ring : Nat) (seq : Nat) (w_free : msk .free = false)
    (w_mem : msk .mem = false) (w_ctr : msk .ctr = false) (w_parts : msk .parts = false) (w_fe : msk .fe = false)
    (w_io : msk .io = false) (w_hp : msk .hp = false) (w_evt : msk .evt = false) (w_posts : msk .posts = false)
    (w_tiers : msk .tiers = false) (w_rel : msk .rel = false) (w_ingests : msk .ingests = false) :
    ∃ t, execIngest ring seq s = .next t ∧ Same msk s t := by
  refine ⟨_, rfl, ?_⟩
  repeat' first
    | with_reducible first
      | assumption | exact Same.refl _ _ | apply State.setPhase_same | apply State.finish_same
      | apply State.openAsk_same | apply State.front_same | apply Same.ite | apply SameParts.same
      | apply SameParts.upd_ingests | refine Same.of_snd (by assumption) ?_ | intro _
    | dsimp only | simp only [same_mk] | split

theorem State.ingestEnd_same {msk : Field → Bool} {s0 s : State} (h0 : Same msk s0 s) (k : Nat) (st : Nat)
    (result : Nat) (w_fe : msk .fe = false) (w_ingests : msk .ingests = false) :
    Same msk s0 (State.ingestEnd s k st result) := by
  unfold State.ingestEnd
  repeat' first
    | with_reducible first
      | assumption | exact Same.refl _ _ | apply State.finish_same | apply SameParts.same
      | apply SameParts.upd_ingests
    | dsimp only | simp only [same_mk] | split

theorem State.ingestOk_same {msk : Field → Bool} {s0 s : State} (h0 : Same msk s0 s) (k : Nat) (c : Cmd) (st : Nat)
    (result : Nat) (w_ctr : msk .ctr = false) (w_fe : msk .fe = false) (w_ingests : msk .ingests = false) :
    Same msk s0 (State.ingestOk s k c st result) := by
  unfold State.ingestOk
  repeat' first
    | with_reducible first
      | assumption | exact Same.refl _ _ | apply State.count_same | apply State.ingestEnd_same
    | dsimp only | split

theorem State.zeroDst_same {msk : Field → Bool} {s0 s : State} (h0 : Same msk s0 s) (c : Cmd) (len : Nat)
    (w_mem : msk .mem = false) (w_tiers : msk .tiers = false) :
    Same msk s0 (State.zeroDst s c len) := by
  unfold State.zeroDst
  repeat' first
    | with_reducible first
      | assumption | exact Same.refl _ _ | apply State.zeroRange_same
    | dsimp only | split

theorem execIngestDecryptDone_same {msk : Field → Bool} (s : State) (ring : Nat) (seq : Nat)
    (w_free : msk .free = false) (w_mem : msk .mem = false) (w_ctr : msk .ctr = false) (w_parts : msk .parts = false)
    (w_fe : msk .fe = false) (w_io : msk .io = false) (w_hp : msk .hp = false) (w_evt : msk .evt = false)
    (w_posts : msk .posts = false) (w_tiers : msk .tiers = false) (w_rel : msk .rel = false)
    (w_ingests : msk .ingests = false) :
    ∃ t, execIngestDecryptDone ring seq s = .next t ∧ Same msk s t := by
  refine ⟨_, rfl, ?_⟩
  repeat' first
    | with_reducible first
      | assumption | exact Same.refl _ _ | apply State.count_same | apply State.writeSeg_same
      | apply State.openRange_same | apply State.openAsk_same | apply State.ingestEnd_same | apply State.ingestOk_same
      | apply State.zeroDst_same | apply Same.ite | apply SameParts.same | apply SameParts.upd_ingests
      | refine Same.of_snd (by assumption) ?_
    | dsimp only | simp only [same_mk] | split

theorem State.shingle_same {msk : Field → Bool} {s0 s : State} (h0 : Same msk s0 s) (k : Nat) (c : Cmd) (len : Nat)
    (prof : Bytes) (text : Bytes) (w_free : msk .free = false) (w_mem : msk .mem = false) (w_ctr : msk .ctr = false)
    (w_parts : msk .parts = false) (w_fe : msk .fe = false) (w_io : msk .io = false) (w_hp : msk .hp = false)
    (w_evt : msk .evt = false) (w_posts : msk .posts = false) (w_tiers : msk .tiers = false)
    (w_rel : msk .rel = false) (w_ingests : msk .ingests = false) :
    Same msk s0 (State.shingle s k c len prof text) := by
  unfold State.shingle
  repeat' first
    | with_reducible first
      | assumption | exact Same.refl _ _ | refine Same.each ?_ _ _ (fun _ _ _ => ?_)
      | refine Same.foldl ?_ _ _ (fun _ _ _ => ?_) | refine Same.foldl_fst _ _ (fun _ _ _ => ?_) _ ?_
      | refine Same.foldl_snd _ _ (fun _ _ _ => ?_) _ ?_ | apply State.count_same | apply State.writeSeg_same
      | apply State.openRange_same | apply State.ingestOk_same | refine Same.of_fst (by assumption) ?_
      | refine Same.of_snd (by assumption) ?_ | intro _
    | dsimp only | split

theorem execShingleDone_same {msk : Field → Bool} (s : State) (ring : Nat) (seq : Nat) (w_free : msk .free = false)
    (w_mem : msk .mem = false) (w_ctr : msk .ctr = false) (w_parts : msk .parts = false) (w_fe : msk .fe = false)
    (w_io : msk .io = false) (w_hp : msk .hp = false) (w_evt : msk .evt = false) (w_posts : msk .posts = false)
    (w_tiers : msk .tiers = false) (w_rel : msk .rel = false) (w_ingests : msk .ingests = false) :
    ∃ t, execShingleDone ring seq s = .next t ∧ Same msk s t := by
  refine ⟨_, rfl, ?_⟩
  repeat' first
    | with_reducible first
      | assumption | exact Same.refl _ _ | apply State.snoop_same | apply State.openAsk_same
      | apply State.ingestEnd_same | apply State.ingestOk_same | apply State.shingle_same | apply Same.ite
      | refine Same.of_snd (by assumption) ?_
    | dsimp only | split

theorem State.xferFail_same {msk : Field → Bool} {s0 s : State} (h0 : Same msk s0 s) (k : Nat)
    (w_free : msk .free = false) (w_mem : msk .mem = false) (w_ctr : msk .ctr = false) (w_parts : msk .parts = false)
    (w_fe : msk .fe = false) (w_io : msk .io = false) (w_hp : msk .hp = false) (w_evt : msk .evt = false)
    (w_ream : msk .ream = false) (w_posts : msk .posts = false) (w_slots : msk .slots = false)
    (w_tiles : msk .tiles = false) (w_tiers : msk .tiers = false) (w_gat : msk .gat = false)
    (w_rel : msk .rel = false) :
    Same msk s0 (State.xferFail s k) := by
  unfold State.xferFail
  repeat' first
    | with_reducible first
      | assumption | exact Same.refl _ _ | apply State.failPost_same | apply State.settle_same | apply Same.ite
    | dsimp only | split

theorem State.failXfers_same {msk : Field → Bool} {s0 s : State} (h0 : Same msk s0 s) (pick : Xfer → Bool)
    (w_free : msk .free = false) (w_mem : msk .mem = false) (w_ctr : msk .ctr = false) (w_parts : msk .parts = false)
    (w_fe : msk .fe = false) (w_io : msk .io = false) (w_hp : msk .hp = false) (w_evt : msk .evt = false)
    (w_ream : msk .ream = false) (w_posts : msk .posts = false) (w_slots : msk .slots = false)
    (w_tiles : msk .tiles = false) (w_tiers : msk .tiers = false) (w_gat : msk .gat = false)
    (w_rel : msk .rel = false) :
    Same msk s0 (State.failXfers s pick) := by
  unfold State.failXfers
  repeat' first
    | with_reducible first
      | assumption | exact Same.refl _ _ | refine Same.each ?_ _ _ (fun _ _ _ => ?_) | apply State.dropXfers_same
      | apply State.xferFail_same | intro _
    | dsimp only | split

theorem State.failStaging_same {msk : Field → Bool} {s0 s : State} (h0 : Same msk s0 s) (pick : Nat → Seg → Bool)
    (w_free : msk .free = false) (w_ctr : msk .ctr = false) (w_parts : msk .parts = false) (w_fe : msk .fe = false)
    (w_io : msk .io = false) (w_hp : msk .hp = false) (w_evt : msk .evt = false) (w_ream : msk .ream = false)
    (w_posts : msk .posts = false) (w_tiles : msk .tiles = false) (w_tiers : msk .tiers = false)
    (w_gat : msk .gat = false) :
    Same msk s0 (State.failStaging s pick) := by
  unfold State.failStaging
  repeat' first
    | with_reducible first
      | assumption | exact Same.refl _ _ | refine Same.each ?_ _ _ (fun _ _ _ => ?_) | apply State.endUnadmitted_same
      | intro _
    | dsimp only | split

theorem State.setQp_same {msk : Field → Bool} {s0 s : State} (h0 : Same msk s0 s) (q : Nat) (v : Qp)
    (w_net : msk .net = false) :
    Same msk s0 (State.setQp s q v) := by
  unfold State.setQp
  repeat' first
    | with_reducible first
      | assumption | exact Same.refl _ _ | apply SameParts.same | apply SameParts.upd_net
    | dsimp only | simp only [same_mk] | split

theorem State.modQp_same {msk : Field → Bool} {s0 s : State} (h0 : Same msk s0 s) (q : Nat) (f : Qp → Qp)
    (w_net : msk .net = false) :
    Same msk s0 (State.modQp s q f) := by
  unfold State.modQp
  repeat' first
    | with_reducible first
      | assumption | exact Same.refl _ _ | apply State.setQp_same
    | dsimp only | split

theorem State.setPort_same {msk : Field → Bool} {s0 s : State} (h0 : Same msk s0 s) (n : Nat) (v : Port)
    (w_net : msk .net = false) :
    Same msk s0 (State.setPort s n v) := by
  unfold State.setPort
  repeat' first
    | with_reducible first
      | assumption | exact Same.refl _ _ | apply SameParts.same | apply SameParts.upd_net
    | dsimp only | simp only [same_mk] | split

theorem State.netPacket_same {msk : Field → Bool} {s0 s : State} (h0 : Same msk s0 s) (q : Nat) (kind : Nat)
    (psn : Nat) (w_net : msk .net = false) :
    Same msk s0 (State.netPacket s q kind psn) := by
  unfold State.netPacket
  repeat' first
    | with_reducible first
      | assumption | exact Same.refl _ _ | apply SameParts.same | apply SameParts.upd_net
    | dsimp only | simp only [same_mk] | split

theorem State.netSend_same {msk : Field → Bool} {s0 s : State} (h0 : Same msk s0 s) (q : Nat) (kind : Nat)
    (w_net : msk .net = false) :
    Same msk s0 (State.netSend s q kind) := by
  unfold State.netSend
  repeat' first
    | with_reducible first
      | assumption | exact Same.refl _ _ | apply State.netPacket_same | apply Same.ite
    | dsimp only | split

theorem State.partnerLost_same {msk : Field → Bool} {s0 s : State} (h0 : Same msk s0 s) (q : Nat)
    (w_free : msk .free = false) (w_ctr : msk .ctr = false) (w_parts : msk .parts = false) (w_fe : msk .fe = false)
    (w_io : msk .io = false) (w_hp : msk .hp = false) (w_evt : msk .evt = false) (w_rel : msk .rel = false) :
    Same msk s0 (State.partnerLost s q) := by
  unfold State.partnerLost
  repeat' first
    | with_reducible first
      | assumption | exact Same.refl _ _ | apply State.causeAll_same | apply State.finish_same | apply Same.ite
      | apply SameParts.same | apply SameParts.upd_rel
    | dsimp only | simp only [same_mk] | split

theorem State.receiverLost_same {msk : Field → Bool} {s0 s : State} (h0 : Same msk s0 s) (q : Nat)
    (w_rel : msk .rel = false) :
    Same msk s0 (State.receiverLost s q) := by
  unfold State.receiverLost
  repeat' first
    | with_reducible first
      | assumption | exact Same.refl _ _ | apply Same.ite | apply SameParts.same | apply SameParts.upd_rel
    | dsimp only | simp only [same_mk] | split

theorem State.qpFail_same {msk : Field → Bool} {s0 s : State} (h0 : Same msk s0 s) (q : Nat) (cause : Nat)
    (w_free : msk .free = false) (w_mem : msk .mem = false) (w_ctr : msk .ctr = false) (w_parts : msk .parts = false)
    (w_fe : msk .fe = false) (w_io : msk .io = false) (w_hp : msk .hp = false) (w_evt : msk .evt = false)
    (w_ream : msk .ream = false) (w_posts : msk .posts = false) (w_net : msk .net = false)
    (w_slots : msk .slots = false) (w_tiles : msk .tiles = false) (w_tiers : msk .tiers = false)
    (w_gat : msk .gat = false) (w_rel : msk .rel = false) :
    Same msk s0 (State.qpFail s q cause) := by
  unfold State.qpFail
  repeat' first
    | with_reducible first
      | assumption | exact Same.refl _ _ | apply State.count_same | apply State.coreCause_same
      | apply State.causeTo_same | apply State.detachPart_same | apply State.failXfers_same
      | apply State.failStaging_same | apply State.modQp_same | apply State.partnerLost_same
      | apply State.receiverLost_same | apply Same.ite | apply SameParts.same | apply SameParts.upd_hp
    | dsimp only | simp only [same_mk] | split

theorem State.linkLost_same {msk : Field → Bool} {s0 s : State} (h0 : Same msk s0 s) (n : Nat) (to_ : Nat)
    (w_free : msk .free = false) (w_ctr : msk .ctr = false) (w_parts : msk .parts = false) (w_io : msk .io = false)
    (w_hp : msk .hp = false) (w_evt : msk .evt = false) (w_net : msk .net = false) :
    Same msk s0 (State.linkLost s n to_) := by
  unfold State.linkLost
  repeat' first
    | with_reducible first
      | assumption | exact Same.refl _ _ | apply State.count_same | apply State.causeAll_same
      | apply State.setPort_same | apply Same.ite
    | dsimp only | split

theorem State.portChanged_same {msk : Field → Bool} {s0 s : State} (h0 : Same msk s0 s) (gs : List Nat)
    (w_free : msk .free = false) (w_mem : msk .mem = false) (w_ctr : msk .ctr = false) (w_parts : msk .parts = false)
    (w_fe : msk .fe = false) (w_io : msk .io = false) (w_hp : msk .hp = false) (w_evt : msk .evt = false)
    (w_ream : msk .ream = false) (w_posts : msk .posts = false) (w_net : msk .net = false)
    (w_slots : msk .slots = false) (w_tiles : msk .tiles = false) (w_tiers : msk .tiers = false)
    (w_gat : msk .gat = false) (w_rel : msk .rel = false) :
    Same msk s0 (State.portChanged s gs) := by
  unfold State.portChanged
  repeat' first
    | with_reducible first
      | assumption | exact Same.refl _ _ | refine Same.each ?_ _ _ (fun _ _ _ => ?_) | apply State.qpFail_same
      | intro _
    | dsimp only | split

theorem State.ratesFree_same {msk : Field → Bool} {s0 s : State} (h0 : Same msk s0 s) (w_net : msk .net = false) :
    Same msk s0 (State.ratesFree s) := by
  unfold State.ratesFree
  repeat' first
    | with_reducible first
      | assumption | exact Same.refl _ _ | apply Same.ite | apply SameParts.same | apply SameParts.upd_net
    | dsimp only | simp only [same_mk] | split

theorem State.latchMode_same {msk : Field → Bool} {s0 s : State} (h0 : Same msk s0 s) (g : Nat)
    (w_free : msk .free = false) (w_mem : msk .mem = false) (w_ctr : msk .ctr = false) (w_parts : msk .parts = false)
    (w_fe : msk .fe = false) (w_io : msk .io = false) (w_hp : msk .hp = false) (w_evt : msk .evt = false)
    (w_ream : msk .ream = false) (w_posts : msk .posts = false) (w_net : msk .net = false)
    (w_slots : msk .slots = false) (w_tiles : msk .tiles = false) (w_tiers : msk .tiers = false)
    (w_gat : msk .gat = false) (w_rel : msk .rel = false) :
    Same msk s0 (State.latchMode s g) := by
  unfold State.latchMode
  repeat' first
    | with_reducible first
      | assumption | exact Same.refl _ _ | refine Same.each ?_ _ _ (fun _ _ _ => ?_)
      | refine Same.foldl ?_ _ _ (fun _ _ _ => ?_) | refine Same.foldl_fst _ _ (fun _ _ _ => ?_) _ ?_
      | refine Same.foldl_snd _ _ (fun _ _ _ => ?_) _ ?_ | apply State.linkLost_same | apply State.portChanged_same
      | apply State.ratesFree_same | apply Same.ite | apply SameParts.same | apply SameParts.upd_net
      | refine Same.of_fst (by assumption) ?_ | refine Same.of_snd (by assumption) ?_ | intro _
    | dsimp only | simp only [same_mk] | split

theorem State.portOn_same {msk : Field → Bool} {s0 s : State} (h0 : Same msk s0 s) (n : Nat)
    (w_free : msk .free = false) (w_mem : msk .mem = false) (w_ctr : msk .ctr = false) (w_regs : msk .regs = false)
    (w_parts : msk .parts = false) (w_fe : msk .fe = false) (w_io : msk .io = false) (w_hp : msk .hp = false)
    (w_evt : msk .evt = false) (w_ream : msk .ream = false) (w_posts : msk .posts = false) (w_net : msk .net = false)
    (w_slots : msk .slots = false) (w_tiles : msk .tiles = false) (w_tiers : msk .tiers = false)
    (w_gat : msk .gat = false) (w_rel : msk .rel = false) :
    Same msk s0 (State.portOn s n) := by
  unfold State.portOn
  repeat' first
    | with_reducible first
      | assumption | exact Same.refl _ _ | apply State.setReg_same | apply State.setPort_same
      | apply State.latchMode_same | apply Same.ite
    | dsimp only | split

theorem State.portOff_same {msk : Field → Bool} {s0 s : State} (h0 : Same msk s0 s) (n : Nat)
    (w_free : msk .free = false) (w_ctr : msk .ctr = false) (w_regs : msk .regs = false)
    (w_parts : msk .parts = false) (w_io : msk .io = false) (w_hp : msk .hp = false) (w_evt : msk .evt = false)
    (w_net : msk .net = false) :
    Same msk s0 (State.portOff s n) := by
  unfold State.portOff
  repeat' first
    | with_reducible first
      | assumption | exact Same.refl _ _ | apply State.setReg_same | apply State.setPort_same
      | apply State.linkLost_same | apply Same.ite
    | dsimp only | split

theorem State.nak_same {msk : Field → Bool} {s0 s : State} (h0 : Same msk s0 s) (q : Nat) (kind : Nat) (ctr : Nat)
    (w_free : msk .free = false) (w_mem : msk .mem = false) (w_ctr : msk .ctr = false) (w_parts : msk .parts = false)
    (w_fe : msk .fe = false) (w_io : msk .io = false) (w_hp : msk .hp = false) (w_evt : msk .evt = false)
    (w_ream : msk .ream = false) (w_posts : msk .posts = false) (w_net : msk .net = false)
    (w_slots : msk .slots = false) (w_tiles : msk .tiles = false) (w_tiers : msk .tiers = false)
    (w_gat : msk .gat = false) (w_rel : msk .rel = false) :
    Same msk s0 (State.nak s q kind ctr) := by
  unfold State.nak
  repeat' first
    | with_reducible first
      | assumption | exact Same.refl _ _ | apply State.count_same | apply State.netSend_same | apply State.qpFail_same
      | apply Same.ite
    | dsimp only | split

theorem State.winRefuse_same {msk : Field → Bool} {s0 s : State} (h0 : Same msk s0 s) (q : Nat)
    (w_ctr : msk .ctr = false) (w_net : msk .net = false) :
    Same msk s0 (State.winRefuse s q) := by
  unfold State.winRefuse
  repeat' first
    | with_reducible first
      | assumption | exact Same.refl _ _ | apply State.count_same | apply State.netSend_same | apply Same.ite
    | dsimp only | split

theorem State.winWrite_same {msk : Field → Bool} {s0 s : State} (h0 : Same msk s0 s) (w : Win) (addr : Nat)
    (data : Bytes) (w_free : msk .free = false) (w_mem : msk .mem = false) (w_ctr : msk .ctr = false)
    (w_parts : msk .parts = false) (w_io : msk .io = false) (w_hp : msk .hp = false) (w_evt : msk .evt = false)
    (w_tiers : msk .tiers = false) (w_rel : msk .rel = false) :
    Same msk s0 (State.winWrite s w addr data) := by
  unfold State.winWrite
  repeat' first
    | with_reducible first
      | assumption | exact Same.refl _ _ | refine Same.each ?_ _ _ (fun _ _ _ => ?_) | apply State.count_same
      | apply State.openSheets_same | apply State.writeT1_same | apply Same.ite | intro _
    | dsimp only | split

theorem State.readNak_same {msk : Field → Bool} {s0 s : State} (h0 : Same msk s0 s) (q : Nat)
    (w_free : msk .free = false) (w_mem : msk .mem = false) (w_ctr : msk .ctr = false) (w_parts : msk .parts = false)
    (w_fe : msk .fe = false) (w_io : msk .io = false) (w_hp : msk .hp = false) (w_evt : msk .evt = false)
    (w_ream : msk .ream = false) (w_posts : msk .posts = false) (w_net : msk .net = false)
    (w_slots : msk .slots = false) (w_tiles : msk .tiles = false) (w_tiers : msk .tiers = false)
    (w_gat : msk .gat = false) (w_rel : msk .rel = false) :
    Same msk s0 (State.readNak s q) := by
  unfold State.readNak
  repeat' first
    | with_reducible first
      | assumption | exact Same.refl _ _ | apply State.nak_same
    | dsimp only | split

theorem State.doWinWrite_same {msk : Field → Bool} {s0 s : State} (h0 : Same msk s0 s) (q : Nat) (rkey : Nat)
    (addr : Nat) (data : Bytes) (w_free : msk .free = false) (w_mem : msk .mem = false) (w_ctr : msk .ctr = false)
    (w_parts : msk .parts = false) (w_io : msk .io = false) (w_hp : msk .hp = false) (w_evt : msk .evt = false)
    (w_tiers : msk .tiers = false) (w_rel : msk .rel = false) :
    Same msk s0 (State.doWinWrite s q rkey addr data) := by
  unfold State.doWinWrite
  repeat' first
    | with_reducible first
      | assumption | exact Same.refl _ _ | apply State.winWrite_same
    | dsimp only | split

theorem State.respond_same {msk : Field → Bool} {s0 s : State} (h0 : Same msk s0 s) (q : Nat) (r : Resp)
    (w_net : msk .net = false) :
    Same msk s0 (State.respond s q r) := by
  unfold State.respond
  repeat' first
    | with_reducible first
      | assumption | exact Same.refl _ _ | apply State.modQp_same
    | dsimp only | split

theorem State.doWinRead_same {msk : Field → Bool} {s0 s : State} (h0 : Same msk s0 s) (q : Nat) (rkey : Nat)
    (addr : Nat) (len : Nat) (psn : Nat) (w_free : msk .free = false) (w_mem : msk .mem = false)
    (w_ctr : msk .ctr = false) (w_parts : msk .parts = false) (w_fe : msk .fe = false) (w_io : msk .io = false)
    (w_hp : msk .hp = false) (w_evt : msk .evt = false) (w_ream : msk .ream = false) (w_posts : msk .posts = false)
    (w_net : msk .net = false) (w_slots : msk .slots = false) (w_tiles : msk .tiles = false)
    (w_tiers : msk .tiers = false) (w_gat : msk .gat = false) (w_rel : msk .rel = false) :
    Same msk s0 (State.doWinRead s q rkey addr len psn) := by
  unfold State.doWinRead
  repeat' first
    | with_reducible first
      | assumption | exact Same.refl _ _ | apply State.openSheets_same | apply State.rebuildIn_same
      | apply State.readNak_same | apply State.respond_same | apply Same.ite
    | dsimp only | split

theorem State.doAcc_same {msk : Field → Bool} {s0 s : State} (h0 : Same msk s0 s) (a : OpenAcc)
    (w_free : msk .free = false) (w_mem : msk .mem = false) (w_ctr : msk .ctr = false) (w_parts : msk .parts = false)
    (w_fe : msk .fe = false) (w_io : msk .io = false) (w_hp : msk .hp = false) (w_evt : msk .evt = false)
    (w_ream : msk .ream = false) (w_posts : msk .posts = false) (w_net : msk .net = false)
    (w_slots : msk .slots = false) (w_tiles : msk .tiles = false) (w_tiers : msk .tiers = false)
    (w_gat : msk .gat = false) (w_rel : msk .rel = false) :
    Same msk s0 (State.doAcc s a) := by
  unfold State.doAcc
  repeat' first
    | with_reducible first
      | assumption | exact Same.refl _ _ | apply State.doWinWrite_same | apply State.doWinRead_same
    | dsimp only | split

theorem State.accSnoop_same {msk : Field → Bool} {s0 s : State} (h0 : Same msk s0 s) (x : OpenAcc)
    (w_ctr : msk .ctr = false) (w_hp : msk .hp = false) :
    Same msk s0 (State.accSnoop s x) := by
  unfold State.accSnoop
  repeat' first
    | with_reducible first
      | assumption | exact Same.refl _ _ | apply State.snoop_same | apply State.snoopData_same
    | dsimp only | split

theorem State.accRun_same {msk : Field → Bool} {s0 s : State} (h0 : Same msk s0 s) (x : OpenAcc)
    (w_free : msk .free = false) (w_mem : msk .mem = false) (w_ctr : msk .ctr = false) (w_parts : msk .parts = false)
    (w_fe : msk .fe = false) (w_io : msk .io = false) (w_hp : msk .hp = false) (w_evt : msk .evt = false)
    (w_ream : msk .ream = false) (w_posts : msk .posts = false) (w_net : msk .net = false)
    (w_slots : msk .slots = false) (w_tiles : msk .tiles = false) (w_tiers : msk .tiers = false)
    (w_gat : msk .gat = false) (w_rel : msk .rel = false) :
    Same msk s0 (State.accRun s x) := by
  unfold State.accRun
  repeat' first
    | with_reducible first
      | assumption | exact Same.refl _ _ | apply State.readTaken_same | apply State.doAcc_same
    | dsimp only | split

theorem State.openAcc_same {msk : Field → Bool} {s0 s : State} (h0 : Same msk s0 s) (x : OpenAcc)
    (w_free : msk .free = false) (w_mem : msk .mem = false) (w_ctr : msk .ctr = false) (w_parts : msk .parts = false)
    (w_fe : msk .fe = false) (w_io : msk .io = false) (w_hp : msk .hp = false) (w_evt : msk .evt = false)
    (w_ream : msk .ream = false) (w_posts : msk .posts = false) (w_net : msk .net = false)
    (w_slots : msk .slots = false) (w_tiles : msk .tiles = false) (w_tiers : msk .tiers = false)
    (w_gat : msk .gat = false) (w_rel : msk .rel = false) :
    Same msk s0 (State.openAcc s x) := by
  unfold State.openAcc
  repeat' first
    | with_reducible first
      | assumption | exact Same.refl _ _ | apply State.accSnoop_same | apply State.accRun_same | apply Same.ite
      | apply SameParts.same | apply SameParts.upd_hp
    | dsimp only | simp only [same_mk] | split

theorem State.openGo_same {msk : Field → Bool} {s0 s : State} (h0 : Same msk s0 s) (w_free : msk .free = false)
    (w_mem : msk .mem = false) (w_ctr : msk .ctr = false) (w_parts : msk .parts = false) (w_fe : msk .fe = false)
    (w_io : msk .io = false) (w_hp : msk .hp = false) (w_evt : msk .evt = false) (w_ream : msk .ream = false)
    (w_posts : msk .posts = false) (w_net : msk .net = false) (w_slots : msk .slots = false)
    (w_tiles : msk .tiles = false) (w_tiers : msk .tiers = false) (w_gat : msk .gat = false)
    (w_rel : msk .rel = false) :
    Same msk s0 (State.openGo s) := by
  unfold State.openGo
  repeat' first
    | with_reducible first
      | assumption | exact Same.refl _ _ | refine Same.each ?_ _ _ (fun _ _ _ => ?_) | apply State.accSnoop_same
      | apply State.accRun_same | apply Same.ite | apply SameParts.same | apply SameParts.upd_hp | intro _
    | dsimp only | simp only [same_mk] | split

theorem execPortEnable_same {msk : Field → Bool} (s : State) (port : Nat) (w_free : msk .free = false)
    (w_mem : msk .mem = false) (w_ctr : msk .ctr = false) (w_regs : msk .regs = false) (w_parts : msk .parts = false)
    (w_fe : msk .fe = false) (w_io : msk .io = false) (w_hp : msk .hp = false) (w_evt : msk .evt = false)
    (w_ream : msk .ream = false) (w_posts : msk .posts = false) (w_net : msk .net = false)
    (w_slots : msk .slots = false) (w_tiles : msk .tiles = false) (w_tiers : msk .tiers = false)
    (w_gat : msk .gat = false) (w_rel : msk .rel = false) :
    ∃ t, execPortEnable port s = .next t ∧ Same msk s t := by
  refine ⟨_, rfl, ?_⟩
  repeat' first
    | with_reducible first
      | assumption | exact Same.refl _ _ | apply State.portOn_same
    | dsimp only | split

theorem execPortDisable_same {msk : Field → Bool} (s : State) (port : Nat) (w_free : msk .free = false)
    (w_ctr : msk .ctr = false) (w_regs : msk .regs = false) (w_parts : msk .parts = false) (w_io : msk .io = false)
    (w_hp : msk .hp = false) (w_evt : msk .evt = false) (w_net : msk .net = false) :
    ∃ t, execPortDisable port s = .next t ∧ Same msk s t := by
  refine ⟨_, rfl, ?_⟩
  repeat' first
    | with_reducible first
      | assumption | exact Same.refl _ _ | apply State.portOff_same
    | dsimp only | split

theorem execPortLinkUp_same {msk : Field → Bool} (s : State) (port : Nat) (w_net : msk .net = false) :
    ∃ t, execPortLinkUp port s = .next t ∧ Same msk s t := by
  refine ⟨_, rfl, ?_⟩
  repeat' first
    | with_reducible first
      | assumption | exact Same.refl _ _ | apply State.setPort_same | apply Same.ite
    | dsimp only | split

theorem execLinkDown_same {msk : Field → Bool} (s : State) (port : Nat) (w_free : msk .free = false)
    (w_ctr : msk .ctr = false) (w_parts : msk .parts = false) (w_io : msk .io = false) (w_hp : msk .hp = false)
    (w_evt : msk .evt = false) (w_net : msk .net = false) :
    ∃ t, execLinkDown port s = .next t ∧ Same msk s t := by
  refine ⟨_, rfl, ?_⟩
  repeat' first
    | with_reducible first
      | assumption | exact Same.refl _ _ | apply State.linkLost_same | apply Same.ite
    | dsimp only | split

theorem execQpConnect_same {msk : Field → Bool} (s : State) (w_net : msk .net = false) :
    ∃ t, execQpConnect s = .next t ∧ Same msk s t := by
  refine ⟨_, rfl, ?_⟩
  repeat' first
    | with_reducible first
      | assumption | exact Same.refl _ _ | apply State.setQp_same | apply Same.ite | apply SameParts.same
      | apply SameParts.upd_net
    | dsimp only | simp only [same_mk] | split

theorem execQpReset_same {msk : Field → Bool} (s : State) (w_free : msk .free = false) (w_mem : msk .mem = false)
    (w_ctr : msk .ctr = false) (w_parts : msk .parts = false) (w_fe : msk .fe = false) (w_io : msk .io = false)
    (w_hp : msk .hp = false) (w_evt : msk .evt = false) (w_ream : msk .ream = false) (w_posts : msk .posts = false)
    (w_net : msk .net = false) (w_slots : msk .slots = false) (w_tiles : msk .tiles = false)
    (w_tiers : msk .tiers = false) (w_gat : msk .gat = false) (w_rel : msk .rel = false) :
    ∃ t, execQpReset s = .next t ∧ Same msk s t := by
  refine ⟨_, rfl, ?_⟩
  repeat' first
    | with_reducible first
      | assumption | exact Same.refl _ _ | apply State.modQp_same | apply State.qpFail_same | apply Same.ite
      | apply SameParts.same | apply SameParts.upd_net
    | dsimp only | simp only [same_mk] | split

theorem State.goBack_same {msk : Field → Bool} {s0 s : State} (h0 : Same msk s0 s) (q : Nat) (psn : Nat)
    (w_io : msk .io = false) (w_net : msk .net = false) :
    Same msk s0 (State.goBack s q psn) := by
  unfold State.goBack
  repeat' first
    | with_reducible first
      | assumption | exact Same.refl _ _ | refine Same.foldl ?_ _ _ (fun _ _ _ => ?_)
      | refine Same.foldl_fst _ _ (fun _ _ _ => ?_) _ ?_ | refine Same.foldl_snd _ _ (fun _ _ _ => ?_) _ ?_
      | apply State.modQp_same | apply Same.ite | apply SameParts.same | apply SameParts.upd_io
      | refine Same.of_fst (by assumption) ?_ | refine Same.of_snd (by assumption) ?_ | intro _
    | dsimp only | simp only [same_mk] | split

theorem State.retry_same {msk : Field → Bool} {s0 s : State} (h0 : Same msk s0 s) (q : Nat) (psn : Nat)
    (w_free : msk .free = false) (w_mem : msk .mem = false) (w_ctr : msk .ctr = false) (w_parts : msk .parts = false)
    (w_fe : msk .fe = false) (w_io : msk .io = false) (w_hp : msk .hp = false) (w_evt : msk .evt = false)
    (w_ream : msk .ream = false) (w_posts : msk .posts = false) (w_net : msk .net = false)
    (w_slots : msk .slots = false) (w_tiles : msk .tiles = false) (w_tiers : msk .tiers = false)
    (w_gat : msk .gat = false) (w_rel : msk .rel = false) :
    Same msk s0 (State.retry s q psn) := by
  unfold State.retry
  repeat' first
    | with_reducible first
      | assumption | exact Same.refl _ _ | apply State.setQp_same | apply State.qpFail_same | apply State.goBack_same
      | apply Same.ite
    | dsimp only | split

theorem execAckTimeout_same {msk : Field → Bool} (s : State) (qp : Nat) (w_free : msk .free = false)
    (w_mem : msk .mem = false) (w_ctr : msk .ctr = false) (w_parts : msk .parts = false) (w_fe : msk .fe = false)
    (w_io : msk .io = false) (w_hp : msk .hp = false) (w_evt : msk .evt = false) (w_ream : msk .ream = false)
    (w_posts : msk .posts = false) (w_net : msk .net = false) (w_slots : msk .slots = false)
    (w_tiles : msk .tiles = false) (w_tiers : msk .tiers = false) (w_gat : msk .gat = false)
    (w_rel : msk .rel = false) :
    ∃ t, execAckTimeout qp s = .next t ∧ Same msk s t := by
  refine ⟨_, rfl, ?_⟩
  repeat' first
    | with_reducible first
      | assumption | exact Same.refl _ _ | apply State.retry_same | apply Same.ite
    | dsimp only | split

theorem execRnrRetryTimer_same {msk : Field → Bool} (s : State) (qp : Nat) (w_io : msk .io = false)
    (w_net : msk .net = false) :
    ∃ t, execRnrRetryTimer qp s = .next t ∧ Same msk s t := by
  refine ⟨_, rfl, ?_⟩
  repeat' first
    | with_reducible first
      | assumption | exact Same.refl _ _ | apply State.modQp_same | apply State.goBack_same | apply Same.ite
    | dsimp only | split

theorem State.acked_same {msk : Field → Bool} {s0 s : State} (h0 : Same msk s0 s) (x : Xfer)
    (w_free : msk .free = false) (w_ctr : msk .ctr = false) (w_regs : msk .regs = false)
    (w_parts : msk .parts = false) (w_fe : msk .fe = false) (w_io : msk .io = false) (w_hp : msk .hp = false)
    (w_evt : msk .evt = false) (w_posts : msk .posts = false) (w_net : msk .net = false) :
    Same msk s0 (State.acked s x) := by
  unfold State.acked
  repeat' first
    | with_reducible first
      | assumption | exact Same.refl _ _ | apply State.modPart_same | apply State.setSrc_same | apply State.rearm_same
      | apply State.attachDone_same | apply Same.ite
    | dsimp only | split

theorem State.accept1_same {msk : Field → Bool} {s0 s : State} (h0 : Same msk s0 s) (id : Nat)
    (w_free : msk .free = false) (w_ctr : msk .ctr = false) (w_regs : msk .regs = false)
    (w_parts : msk .parts = false) (w_fe : msk .fe = false) (w_io : msk .io = false) (w_hp : msk .hp = false)
    (w_evt : msk .evt = false) (w_posts : msk .posts = false) (w_net : msk .net = false) :
    Same msk s0 (State.accept1 s id) := by
  unfold State.accept1
  repeat' first
    | with_reducible first
      | assumption | exact Same.refl _ _ | apply State.acked_same | apply Same.ite | apply SameParts.same
      | apply SameParts.upd_io
    | dsimp only | simp only [same_mk] | split

theorem State.ackTo_same {msk : Field → Bool} {s0 s : State} (h0 : Same msk s0 s) (q : Nat) (psn : Nat)
    (w_free : msk .free = false) (w_ctr : msk .ctr = false) (w_regs : msk .regs = false)
    (w_parts : msk .parts = false) (w_fe : msk .fe = false) (w_io : msk .io = false) (w_hp : msk .hp = false)
    (w_evt : msk .evt = false) (w_posts : msk .posts = false) (w_net : msk .net = false) :
    Same msk s0 (State.ackTo s q psn) := by
  unfold State.ackTo
  repeat' first
    | with_reducible first
      | assumption | exact Same.refl _ _ | refine Same.each ?_ _ _ (fun _ _ _ => ?_) | apply State.modQp_same
      | apply State.accept1_same | apply Same.ite | intro _
    | dsimp only | split

theorem execAckReceive_same {msk : Field → Bool} (s : State) (qp : Nat) (psn : Nat) (w_free : msk .free = false)
    (w_ctr : msk .ctr = false) (w_regs : msk .regs = false) (w_parts : msk .parts = false) (w_fe : msk .fe = false)
    (w_io : msk .io = false) (w_hp : msk .hp = false) (w_evt : msk .evt = false) (w_posts : msk .posts = false)
    (w_net : msk .net = false) :
    ∃ t, execAckReceive qp psn s = .next t ∧ Same msk s t := by
  refine ⟨_, rfl, ?_⟩
  repeat' first
    | with_reducible first
      | assumption | exact Same.refl _ _ | apply State.ackTo_same | apply Same.ite
    | dsimp only | split

theorem execNakReceive_same {msk : Field → Bool} (s : State) (qp : Nat) (kind : Nat) (psn : Nat)
    (w_free : msk .free = false) (w_mem : msk .mem = false) (w_ctr : msk .ctr = false) (w_regs : msk .regs = false)
    (w_parts : msk .parts = false) (w_fe : msk .fe = false) (w_io : msk .io = false) (w_hp : msk .hp = false)
    (w_evt : msk .evt = false) (w_ream : msk .ream = false) (w_posts : msk .posts = false) (w_net : msk .net = false)
    (w_slots : msk .slots = false) (w_tiles : msk .tiles = false) (w_tiers : msk .tiers = false)
    (w_gat : msk .gat = false) (w_rel : msk .rel = false) :
    ∃ t, execNakReceive qp kind psn s = .next t ∧ Same msk s t := by
  refine ⟨_, rfl, ?_⟩
  repeat' first
    | with_reducible first
      | assumption | exact Same.refl _ _ | apply State.setQp_same | apply State.qpFail_same | apply State.retry_same
      | apply State.ackTo_same | apply Same.ite
    | dsimp only | split

theorem State.resendAll_same {msk : Field → Bool} {s0 s : State} (h0 : Same msk s0 s) (w_io : msk .io = false)
    (w_net : msk .net = false) :
    Same msk s0 (State.resendAll s) := by
  unfold State.resendAll
  repeat' first
    | with_reducible first
      | assumption | exact Same.refl _ _ | refine Same.each ?_ _ _ (fun _ _ _ => ?_) | apply State.goBack_same
      | intro _
    | dsimp only | split

theorem execRdmaReadResponseReceive_same {msk : Field → Bool} (s : State) (qp : Nat) (msg : Nat) (data : Rd)
    (w_free : msk .free = false) (w_ctr : msk .ctr = false) (w_regs : msk .regs = false)
    (w_parts : msk .parts = false) (w_fe : msk .fe = false) (w_io : msk .io = false) (w_hp : msk .hp = false)
    (w_evt : msk .evt = false) (w_posts : msk .posts = false) (w_net : msk .net = false) :
    ∃ t, execRdmaReadResponseReceive qp msg data s = .next t ∧ Same msk s t := by
  refine ⟨_, rfl, ?_⟩
  repeat' first
    | with_reducible first
      | assumption | exact Same.refl _ _ | apply State.attachBlockRead_same | apply State.modQp_same | apply Same.ite
      | apply SameParts.same | apply SameParts.upd_io
    | dsimp only | simp only [same_mk] | split

theorem execCnpReceive_same {msk : Field → Bool} (s : State) (qp : Nat) (w_ctr : msk .ctr = false)
    (w_net : msk .net = false) :
    ∃ t, execCnpReceive qp s = .next t ∧ Same msk s t := by
  refine ⟨_, rfl, ?_⟩
  repeat' first
    | with_reducible first
      | assumption | exact Same.refl _ _ | apply State.count_same | apply State.setQp_same | apply Same.ite
    | dsimp only | split

theorem execCcPeriod_same {msk : Field → Bool} (s : State) (qp : Nat) (w_net : msk .net = false) :
    ∃ t, execCcPeriod qp s = .next t ∧ Same msk s t := by
  refine ⟨_, rfl, ?_⟩
  repeat' first
    | with_reducible first
      | assumption | exact Same.refl _ _ | apply State.setQp_same | apply Same.ite
    | dsimp only | split

theorem State.cnpSend_same {msk : Field → Bool} {s0 s : State} (h0 : Same msk s0 s) (port : Nat) (q : Nat)
    (w_ctr : msk .ctr = false) (w_net : msk .net = false) :
    Same msk s0 (State.cnpSend s port q) := by
  unfold State.cnpSend
  repeat' first
    | with_reducible first
      | assumption | exact Same.refl _ _ | apply State.count_same | apply State.setQp_same | apply State.netSend_same
      | apply Same.ite
    | dsimp only | split

theorem State.rxPut_same {msk : Field → Bool} {s0 s : State} (h0 : Same msk s0 s) (port : Nat) (n : Nat)
    (w_net : msk .net = false) :
    Same msk s0 (State.rxPut s port n) := by
  unfold State.rxPut
  repeat' first
    | with_reducible first
      | assumption | exact Same.refl _ _ | apply SameParts.same | apply SameParts.upd_net
    | dsimp only | simp only [same_mk] | split

theorem State.requestPsn_same {msk : Field → Bool} {s0 s : State} (h0 : Same msk s0 s) (q : Nat) (psn : Nat)
    (span : Nat) (w_net : msk .net = false) :
    Same msk s0 (State.requestPsn s q psn span) := by
  unfold State.requestPsn
  repeat' first
    | with_reducible first
      | assumption | exact Same.refl _ _ | apply State.modQp_same | apply State.netPacket_same
      | apply State.netSend_same | apply Same.ite
    | dsimp only | split

theorem execFrameReceive_same {msk : Field → Bool} (s : State) (port : Nat) (info : FrameInfo)
    (w_free : msk .free = false) (w_mem : msk .mem = false) (w_ctr : msk .ctr = false) (w_parts : msk .parts = false)
    (w_fe : msk .fe = false) (w_io : msk .io = false) (w_hp : msk .hp = false) (w_evt : msk .evt = false)
    (w_ream : msk .ream = false) (w_posts : msk .posts = false) (w_net : msk .net = false)
    (w_slots : msk .slots = false) (w_tiles : msk .tiles = false) (w_tiers : msk .tiers = false)
    (w_gat : msk .gat = false) (w_rel : msk .rel = false) :
    ∃ t, execFrameReceive port info s = .next t ∧ Same msk s t := by
  refine ⟨_, rfl, ?_⟩
  repeat' first
    | with_reducible first
      | assumption | exact Same.refl _ _ | apply State.count_same | apply State.nak_same | apply State.cnpSend_same
      | apply State.rxPut_same | apply State.requestPsn_same | apply Same.ite
    | dsimp only | split

theorem State.pace_same {msk : Field → Bool} {s0 s : State} (h0 : Same msk s0 s) (q : Nat) (n : Nat)
    (w_net : msk .net = false) :
    Same msk s0 (State.pace s q n) := by
  unfold State.pace
  repeat' first
    | with_reducible first
      | assumption | exact Same.refl _ _ | apply State.modQp_same
    | dsimp only | split

theorem State.sendResp_same {msk : Field → Bool} {s0 s : State} (h0 : Same msk s0 s) (q : Nat) (d : Resp)
    (ds : List Resp) (w_free : msk .free = false) (w_mem : msk .mem = false) (w_ctr : msk .ctr = false)
    (w_parts : msk .parts = false) (w_fe : msk .fe = false) (w_io : msk .io = false) (w_hp : msk .hp = false)
    (w_evt : msk .evt = false) (w_ream : msk .ream = false) (w_posts : msk .posts = false) (w_net : msk .net = false)
    (w_slots : msk .slots = false) (w_tiles : msk .tiles = false) (w_tiers : msk .tiers = false)
    (w_gat : msk .gat = false) (w_rel : msk .rel = false) :
    Same msk s0 (State.sendResp s q d ds) := by
  unfold State.sendResp
  repeat' first
    | with_reducible first
      | assumption | exact Same.refl _ _ | apply State.setQp_same | apply State.netPacket_same
      | apply State.readNak_same | apply State.pace_same | apply Same.ite
    | dsimp only | split

theorem State.sendMsg_same {msk : Field → Bool} {s0 s : State} (h0 : Same msk s0 s) (q : Nat) (x : Xfer)
    (w_io : msk .io = false) (w_net : msk .net = false) :
    Same msk s0 (State.sendMsg s q x) := by
  unfold State.sendMsg
  repeat' first
    | with_reducible first
      | assumption | exact Same.refl _ _ | apply State.setQp_same | apply State.netPacket_same | apply State.pace_same
      | apply Same.ite | apply SameParts.same | apply SameParts.upd_io
    | dsimp only | simp only [same_mk] | split

theorem State.sendPacket_same {msk : Field → Bool} {s0 s : State} (h0 : Same msk s0 s) (q : Nat)
    (w_free : msk .free = false) (w_mem : msk .mem = false) (w_ctr : msk .ctr = false) (w_parts : msk .parts = false)
    (w_fe : msk .fe = false) (w_io : msk .io = false) (w_hp : msk .hp = false) (w_evt : msk .evt = false)
    (w_ream : msk .ream = false) (w_posts : msk .posts = false) (w_net : msk .net = false)
    (w_slots : msk .slots = false) (w_tiles : msk .tiles = false) (w_tiers : msk .tiers = false)
    (w_gat : msk .gat = false) (w_rel : msk .rel = false) :
    Same msk s0 (State.sendPacket s q) := by
  unfold State.sendPacket
  repeat' first
    | with_reducible first
      | assumption | exact Same.refl _ _ | apply State.sendResp_same | apply State.sendMsg_same
    | dsimp only | split

theorem execPacketSendTurn_same {msk : Field → Bool} (s : State) (port : Nat) (w_free : msk .free = false)
    (w_mem : msk .mem = false) (w_ctr : msk .ctr = false) (w_parts : msk .parts = false) (w_fe : msk .fe = false)
    (w_io : msk .io = false) (w_hp : msk .hp = false) (w_evt : msk .evt = false) (w_ream : msk .ream = false)
    (w_posts : msk .posts = false) (w_net : msk .net = false) (w_slots : msk .slots = false)
    (w_tiles : msk .tiles = false) (w_tiers : msk .tiers = false) (w_gat : msk .gat = false)
    (w_rel : msk .rel = false) :
    ∃ t, execPacketSendTurn port s = .next t ∧ Same msk s t := by
  refine ⟨_, rfl, ?_⟩
  repeat' first
    | with_reducible first
      | assumption | exact Same.refl _ _ | apply State.setPort_same | apply State.sendPacket_same
    | dsimp only | split

theorem execRdmaWriteReceive_same {msk : Field → Bool} (s : State) (qp : Nat) (rkey : Nat) (addr : Nat) (data : Bytes)
    (w_free : msk .free = false) (w_mem : msk .mem = false) (w_ctr : msk .ctr = false) (w_parts : msk .parts = false)
    (w_fe : msk .fe = false) (w_io : msk .io = false) (w_hp : msk .hp = false) (w_evt : msk .evt = false)
    (w_ream : msk .ream = false) (w_posts : msk .posts = false) (w_net : msk .net = false)
    (w_slots : msk .slots = false) (w_tiles : msk .tiles = false) (w_tiers : msk .tiers = false)
    (w_gat : msk .gat = false) (w_rel : msk .rel = false) :
    ∃ t, execRdmaWriteReceive qp rkey addr data s = .next t ∧ Same msk s t := by
  refine ⟨_, rfl, ?_⟩
  repeat' first
    | with_reducible first
      | assumption | exact Same.refl _ _ | apply State.doorbellWrite_same | apply State.netSend_same
      | apply State.nak_same | apply State.winRefuse_same | apply State.openAcc_same | apply Same.ite
    | dsimp only | split

theorem execRdmaReadRequestReceive_same {msk : Field → Bool} (s : State) (qp : Nat) (rkey : Nat) (addr : Nat)
    (len : Nat) (w_free : msk .free = false) (w_mem : msk .mem = false) (w_ctr : msk .ctr = false)
    (w_parts : msk .parts = false) (w_fe : msk .fe = false) (w_io : msk .io = false) (w_hp : msk .hp = false)
    (w_evt : msk .evt = false) (w_ream : msk .ream = false) (w_posts : msk .posts = false) (w_net : msk .net = false)
    (w_slots : msk .slots = false) (w_tiles : msk .tiles = false) (w_tiers : msk .tiers = false)
    (w_gat : msk .gat = false) (w_rel : msk .rel = false) :
    ∃ t, execRdmaReadRequestReceive qp rkey addr len s = .next t ∧ Same msk s t := by
  refine ⟨_, rfl, ?_⟩
  repeat' first
    | with_reducible first
      | assumption | exact Same.refl _ _ | apply State.nak_same | apply State.winRefuse_same
      | apply State.openAcc_same | apply Same.ite
    | dsimp only | split

theorem execSendReceive_same {msk : Field → Bool} (s : State) (qp : Nat) (z1 : Bytes) (w_free : msk .free = false)
    (w_mem : msk .mem = false) (w_ctr : msk .ctr = false) (w_parts : msk .parts = false) (w_fe : msk .fe = false)
    (w_io : msk .io = false) (w_hp : msk .hp = false) (w_evt : msk .evt = false) (w_ream : msk .ream = false)
    (w_posts : msk .posts = false) (w_net : msk .net = false) (w_slots : msk .slots = false)
    (w_tiles : msk .tiles = false) (w_tiers : msk .tiers = false) (w_gat : msk .gat = false)
    (w_rel : msk .rel = false) :
    ∃ t, execSendReceive qp z1 s = .next t ∧ Same msk s t := by
  refine ⟨_, rfl, ?_⟩
  repeat' first
    | with_reducible first
      | assumption | exact Same.refl _ _ | apply State.netSend_same | apply State.nak_same | apply Same.ite
    | dsimp only | split

theorem execWindowSetup_same {msk : Field → Bool} (s : State) (ring : Nat) (seq : Nat) (w_free : msk .free = false)
    (w_mem : msk .mem = false) (w_ctr : msk .ctr = false) (w_parts : msk .parts = false) (w_fe : msk .fe = false)
    (w_io : msk .io = false) (w_hp : msk .hp = false) (w_evt : msk .evt = false) (w_posts : msk .posts = false)
    (w_net : msk .net = false) (w_tiers : msk .tiers = false) (w_rel : msk .rel = false) :
    ∃ t, execWindowSetup ring seq s = .next t ∧ Same msk s t := by
  refine ⟨_, rfl, ?_⟩
  repeat' first
    | with_reducible first
      | assumption | exact Same.refl _ _ | apply State.count_same | apply State.finish_same | apply State.front_same
      | apply Same.ite | apply SameParts.same | apply SameParts.upd_net | intro _
    | dsimp only | simp only [same_mk] | split

theorem execWindowRemove_same {msk : Field → Bool} (s : State) (ring : Nat) (seq : Nat) (w_free : msk .free = false)
    (w_mem : msk .mem = false) (w_ctr : msk .ctr = false) (w_parts : msk .parts = false) (w_fe : msk .fe = false)
    (w_io : msk .io = false) (w_hp : msk .hp = false) (w_evt : msk .evt = false) (w_posts : msk .posts = false)
    (w_net : msk .net = false) (w_tiers : msk .tiers = false) (w_rel : msk .rel = false) :
    ∃ t, execWindowRemove ring seq s = .next t ∧ Same msk s t := by
  refine ⟨_, rfl, ?_⟩
  repeat' first
    | with_reducible first
      | assumption | exact Same.refl _ _ | apply State.setPhase_same | apply State.finish_same
      | apply State.front_same | apply Same.ite | apply SameParts.same | apply SameParts.upd_net | intro _
    | dsimp only | simp only [same_mk] | split

theorem execWindowDrainDone_same {msk : Field → Bool} (s : State) (qp : Nat) (win : Nat) (w_fe : msk .fe = false)
    (w_net : msk .net = false) :
    ∃ t, execWindowDrainDone qp win s = .next t ∧ Same msk s t := by
  refine ⟨_, rfl, ?_⟩
  repeat' first
    | with_reducible first
      | assumption | exact Same.refl _ _ | refine Same.each ?_ _ _ (fun _ _ _ => ?_) | apply State.finish_same
      | apply Same.ite | apply SameParts.same | apply SameParts.upd_net | intro _
    | dsimp only | simp only [same_mk] | split

theorem State.windowDeny_same {msk : Field → Bool} {s0 s : State} (h0 : Same msk s0 s) (a : Nat)
    (w_ctr : msk .ctr = false) :
    Same msk s0 (State.windowDeny s a) := by
  unfold State.windowDeny
  repeat' first
    | with_reducible first
      | assumption | exact Same.refl _ _ | apply State.count_same | apply Same.ite
    | dsimp only | split

theorem State.grantLine_same {msk : Field → Bool} {s0 s : State} (h0 : Same msk s0 s) (l : Nat)
    (w_ctr : msk .ctr = false) (w_hp : msk .hp = false) :
    Same msk s0 (State.grantLine s l) := by
  unfold State.grantLine
  repeat' first
    | with_reducible first
      | assumption | exact Same.refl _ _ | apply State.snoop_same | apply Same.ite | apply SameParts.same
      | apply SameParts.upd_hp
    | dsimp only | simp only [same_mk] | split

theorem State.answerLine_same {msk : Field → Bool} {s0 s : State} (h0 : Same msk s0 s) (d : Bytes) (poison : Bool)
    (w_bus : msk .bus = false) :
    Same msk s0 (State.answerLine s d poison) := by
  unfold State.answerLine
  repeat' first
    | with_reducible first
      | assumption | exact Same.refl _ _ | apply SameParts.same | apply SameParts.upd_bus
    | dsimp only | simp only [same_mk] | split

theorem State.memRead_same {msk : Field → Bool} {s0 s : State} (h0 : Same msk s0 s) (addr : Nat)
    (w_bus : msk .bus = false) (w_ctr : msk .ctr = false) (w_hp : msk .hp = false) :
    Same msk s0 (State.memRead s addr) := by
  unfold State.memRead
  repeat' first
    | with_reducible first
      | assumption | exact Same.refl _ _ | apply State.openSheets_same | apply State.rebuild_same
      | apply State.windowDeny_same | apply State.grantLine_same | apply State.answerLine_same | apply Same.ite
    | dsimp only | split

theorem State.lineWrite_same {msk : Field → Bool} {s0 s : State} (h0 : Same msk s0 s) (a : Nat) (d : Bytes)
    (poison : Bool) (w_free : msk .free = false) (w_mem : msk .mem = false) (w_ctr : msk .ctr = false)
    (w_parts : msk .parts = false) (w_io : msk .io = false) (w_hp : msk .hp = false) (w_evt : msk .evt = false)
    (w_tiers : msk .tiers = false) (w_rel : msk .rel = false) :
    Same msk s0 (State.lineWrite s a d poison) := by
  unfold State.lineWrite
  repeat' first
    | with_reducible first
      | assumption | exact Same.refl _ _ | apply State.count_same | apply State.openSheets_same
      | apply State.rebuild_same | apply State.writeT1_same | apply Same.ite
    | dsimp only | split

theorem State.memWrite_same {msk : Field → Bool} {s0 s : State} (h0 : Same msk s0 s) (addr : Nat) (data : Bytes)
    (poison : Bool) (w_free : msk .free = false) (w_mem : msk .mem = false) (w_ctr : msk .ctr = false)
    (w_parts : msk .parts = false) (w_io : msk .io = false) (w_hp : msk .hp = false) (w_evt : msk .evt = false)
    (w_tiers : msk .tiers = false) (w_rel : msk .rel = false) :
    Same msk s0 (State.memWrite s addr data poison) := by
  unfold State.memWrite
  repeat' first
    | with_reducible first
      | assumption | exact Same.refl _ _ | apply State.count_same | apply State.windowDeny_same
      | apply State.lineWrite_same | apply Same.ite
    | dsimp only | split

theorem State.memServe_same {msk : Field → Bool} {s0 s : State} (h0 : Same msk s0 s) (a : MemReq)
    (w_free : msk .free = false) (w_bus : msk .bus = false) (w_mem : msk .mem = false) (w_ctr : msk .ctr = false)
    (w_parts : msk .parts = false) (w_io : msk .io = false) (w_hp : msk .hp = false) (w_evt : msk .evt = false)
    (w_tiers : msk .tiers = false) (w_rel : msk .rel = false) :
    Same msk s0 (State.memServe s a) := by
  unfold State.memServe
  repeat' first
    | with_reducible first
      | assumption | exact Same.refl _ _ | apply State.memRead_same | apply State.memWrite_same
    | dsimp only | split

theorem State.memWait_same {msk : Field → Bool} {s0 s : State} (h0 : Same msk s0 s) (r : MemReq)
    (w_hp : msk .hp = false) :
    Same msk s0 (State.memWait s r) := by
  unfold State.memWait
  repeat' first
    | with_reducible first
      | assumption | exact Same.refl _ _ | apply SameParts.same | apply SameParts.upd_hp
    | dsimp only | simp only [same_mk] | split

theorem State.memGo_same {msk : Field → Bool} {s0 s : State} (h0 : Same msk s0 s) (w_free : msk .free = false)
    (w_bus : msk .bus = false) (w_mem : msk .mem = false) (w_ctr : msk .ctr = false) (w_parts : msk .parts = false)
    (w_io : msk .io = false) (w_hp : msk .hp = false) (w_evt : msk .evt = false) (w_tiers : msk .tiers = false)
    (w_rel : msk .rel = false) :
    Same msk s0 (State.memGo s) := by
  unfold State.memGo
  repeat' first
    | with_reducible first
      | assumption | exact Same.refl _ _ | refine Same.each ?_ _ _ (fun _ _ _ => ?_) | apply State.memServe_same
      | apply SameParts.same | apply SameParts.upd_hp | intro _
    | dsimp only | simp only [same_mk] | split

theorem execCxlMemRead_same {msk : Field → Bool} (s : State) (addr : Nat) (w_bus : msk .bus = false)
    (w_ctr : msk .ctr = false) (w_hp : msk .hp = false) :
    ∃ t, execCxlMemRead addr s = .next t ∧ Same msk s t := by
  refine ⟨_, rfl, ?_⟩
  repeat' first
    | with_reducible first
      | assumption | exact Same.refl _ _ | apply State.memRead_same | apply State.memWait_same | apply Same.ite
    | dsimp only | split

theorem execCxlMemWrite_same {msk : Field → Bool} (s : State) (addr : Nat) (data : Bytes) (poison : Bool)
    (w_free : msk .free = false) (w_mem : msk .mem = false) (w_ctr : msk .ctr = false) (w_parts : msk .parts = false)
    (w_io : msk .io = false) (w_hp : msk .hp = false) (w_evt : msk .evt = false) (w_tiers : msk .tiers = false)
    (w_rel : msk .rel = false) :
    ∃ t, execCxlMemWrite addr data poison s = .next t ∧ Same msk s t := by
  refine ⟨_, rfl, ?_⟩
  repeat' first
    | with_reducible first
      | assumption | exact Same.refl _ _ | apply State.memWrite_same | apply State.memWait_same | apply Same.ite
    | dsimp only | split

theorem State.detachLocals_same {msk : Field → Bool} {s0 s : State} (h0 : Same msk s0 s)
    (w_parts : msk .parts = false) (w_fe : msk .fe = false) (w_io : msk .io = false) (w_evt : msk .evt = false) :
    Same msk s0 (State.detachLocals s) := by
  unfold State.detachLocals
  repeat' first
    | with_reducible first
      | assumption | exact Same.refl _ _ | refine Same.each ?_ _ _ (fun _ _ _ => ?_) | apply State.detachPart_same
      | intro _
    | dsimp only | split

theorem execHostPortReset_same {msk : Field → Bool} (s : State) (w_free : msk .free = false)
    (w_bus : msk .bus = false) (w_mem : msk .mem = false) (w_ctr : msk .ctr = false) (w_parts : msk .parts = false)
    (w_fe : msk .fe = false) (w_io : msk .io = false) (w_hp : msk .hp = false) (w_evt : msk .evt = false)
    (w_ream : msk .ream = false) (w_posts : msk .posts = false) (w_slots : msk .slots = false)
    (w_tiles : msk .tiles = false) (w_tiers : msk .tiers = false) (w_gat : msk .gat = false)
    (w_rel : msk .rel = false) (w_sec : msk .sec = false) :
    ∃ t, execHostPortReset s = .next t ∧ Same msk s t := by
  refine ⟨_, rfl, ?_⟩
  repeat' first
    | with_reducible first
      | assumption | exact Same.refl _ _ | refine Same.each ?_ _ _ (fun _ _ _ => ?_) | apply State.count_same
      | apply State.raise_same | apply State.xferFail_same | apply State.failXfers_same | apply State.failStaging_same
      | apply State.memServe_same | apply State.detachLocals_same | apply Same.ite | apply SameParts.same
      | apply SameParts.upd_evt | apply SameParts.upd_hp | apply SameParts.upd_sec | apply SameParts.upd_hp_evt
      | apply SameParts.upd_evt_sec | apply SameParts.upd_hp_sec | apply SameParts.upd_hp_evt_sec | intro _
    | dsimp only | simp only [same_mk] | split

theorem execLinkRecovery_same {msk : Field → Bool} (s : State) (speed : Nat) (width : Nat) (w_ctr : msk .ctr = false)
    (w_hp : msk .hp = false) :
    ∃ t, execLinkRecovery speed width s = .next t ∧ Same msk s t := by
  refine ⟨_, rfl, ?_⟩
  repeat' first
    | with_reducible first
      | assumption | exact Same.refl _ _ | apply State.count_same | apply Same.ite | apply SameParts.same
      | apply SameParts.upd_hp
    | dsimp only | simp only [same_mk] | split

theorem execHostLinkL0_same {msk : Field → Bool} (s : State) (speed : Nat) (width : Nat) (cxl : Bool)
    (w_free : msk .free = false) (w_mem : msk .mem = false) (w_ctr : msk .ctr = false) (w_parts : msk .parts = false)
    (w_fe : msk .fe = false) (w_io : msk .io = false) (w_hp : msk .hp = false) (w_evt : msk .evt = false)
    (w_ream : msk .ream = false) (w_posts : msk .posts = false) (w_net : msk .net = false)
    (w_slots : msk .slots = false) (w_tiles : msk .tiles = false) (w_tiers : msk .tiers = false)
    (w_gat : msk .gat = false) (w_rel : msk .rel = false) :
    ∃ t, execHostLinkL0 speed width cxl s = .next t ∧ Same msk s t := by
  refine ⟨_, rfl, ?_⟩
  repeat' first
    | with_reducible first
      | assumption | exact Same.refl _ _ | apply State.snoop_same | apply State.openGo_same | apply Same.ite
      | apply SameParts.same | apply SameParts.upd_hp
    | dsimp only | simp only [same_mk] | split

theorem execPerstNRelease_same {msk : Field → Bool} (s : State) (w_hp : msk .hp = false) (w_pwr : msk .pwr = false) :
    ∃ t, execPerstNRelease s = .next t ∧ Same msk s t := by
  refine ⟨_, rfl, ?_⟩
  repeat' first
    | with_reducible first
      | assumption | exact Same.refl _ _ | apply Same.ite | apply SameParts.same | apply SameParts.upd_hp
      | apply SameParts.upd_pwr | apply SameParts.upd_hp_pwr
    | dsimp only | simp only [same_mk] | split

theorem execGoResponse_same {msk : Field → Bool} (s : State) (id : Nat) (w_free : msk .free = false)
    (w_ctr : msk .ctr = false) (w_regs : msk .regs = false) (w_parts : msk .parts = false) (w_fe : msk .fe = false)
    (w_io : msk .io = false) (w_hp : msk .hp = false) (w_evt : msk .evt = false) (w_posts : msk .posts = false)
    (w_net : msk .net = false) :
    ∃ t, execGoResponse id s = .next t ∧ Same msk s t := by
  refine ⟨_, rfl, ?_⟩
  repeat' first
    | with_reducible first
      | assumption | exact Same.refl _ _ | apply State.accept1_same | apply Same.ite | apply SameParts.same
      | apply SameParts.upd_io
    | dsimp only | simp only [same_mk] | split

theorem execBisnpResponse_same {msk : Field → Bool} (s : State) (line : Nat) (w_free : msk .free = false)
    (w_bus : msk .bus = false) (w_mem : msk .mem = false) (w_ctr : msk .ctr = false) (w_parts : msk .parts = false)
    (w_fe : msk .fe = false) (w_io : msk .io = false) (w_hp : msk .hp = false) (w_evt : msk .evt = false)
    (w_ream : msk .ream = false) (w_posts : msk .posts = false) (w_net : msk .net = false)
    (w_slots : msk .slots = false) (w_tiles : msk .tiles = false) (w_tiers : msk .tiers = false)
    (w_gat : msk .gat = false) (w_rel : msk .rel = false) :
    ∃ t, execBisnpResponse line s = .next t ∧ Same msk s t := by
  refine ⟨_, rfl, ?_⟩
  repeat' first
    | with_reducible first
      | assumption | exact Same.refl _ _ | apply State.openGo_same | apply State.intakeGo_same
      | apply State.memGo_same | apply Same.ite | apply SameParts.same | apply SameParts.upd_hp
    | dsimp only | simp only [same_mk] | split

theorem State.sendPending_same {msk : Field → Bool} {s0 s : State} (h0 : Same msk s0 s) (v : Nat)
    (w_free : msk .free = false) (w_ctr : msk .ctr = false) (w_parts : msk .parts = false) (w_io : msk .io = false)
    (w_hp : msk .hp = false) (w_evt : msk .evt = false) :
    Same msk s0 (State.sendPending s v) := by
  unfold State.sendPending
  repeat' first
    | with_reducible first
      | assumption | exact Same.refl _ _ | refine Same.each ?_ _ _ (fun _ _ _ => ?_) | apply State.sendMsix_same
      | apply State.rearm_same | apply Same.ite | apply SameParts.same | apply SameParts.upd_hp | intro _
    | dsimp only | simp only [same_mk] | split

theorem execMsixUnmask_same {msk : Field → Bool} (s : State) (vec : Nat) (w_free : msk .free = false)
    (w_ctr : msk .ctr = false) (w_parts : msk .parts = false) (w_io : msk .io = false) (w_hp : msk .hp = false)
    (w_evt : msk .evt = false) :
    ∃ t, execMsixUnmask vec s = .next t ∧ Same msk s t := by
  refine ⟨_, rfl, ?_⟩
  repeat' first
    | with_reducible first
      | assumption | exact Same.refl _ _ | apply State.sendPending_same | apply Same.ite | apply SameParts.same
      | apply SameParts.upd_hp
    | dsimp only | simp only [same_mk] | split

theorem execBarBadAccess_same {msk : Field → Bool} (s : State) (write : Bool) (w_bus : msk .bus = false)
    (w_ctr : msk .ctr = false) :
    ∃ t, execBarBadAccess write s = .next t ∧ Same msk s t := by
  refine ⟨_, rfl, ?_⟩
  repeat' first
    | with_reducible first
      | assumption | exact Same.refl _ _ | apply State.count_same | apply Same.ite | apply SameParts.same
      | apply SameParts.upd_bus
    | dsimp only | simp only [same_mk] | split

theorem State.dbgAct_same {msk : Field → Bool} {s0 s : State} (h0 : Same msk s0 s) (ok : Bool) (go : State → State)
    (hgo : ∀ t, Same msk s0 t → Same msk s0 (go t)) (w_dbg : msk .dbg = false) :
    Same msk s0 (State.dbgAct s ok go) := by
  unfold State.dbgAct
  repeat' first
    | with_reducible first
      | assumption | exact Same.refl _ _ | apply hgo | apply Same.ite | apply SameParts.same | apply SameParts.upd_dbg
      | intro _
    | dsimp only | simp only [same_mk] | split

theorem State.halt_same {msk : Field → Bool} {s0 s : State} (h0 : Same msk s0 s) (t : Nat)
    (w_tiles : msk .tiles = false) :
    Same msk s0 (State.halt s t) := by
  unfold State.halt
  repeat' first
    | with_reducible first
      | assumption | exact Same.refl _ _ | apply State.modTile_same | apply State.modCtx_same | apply Same.ite
    | dsimp only | split

theorem execDbgEnter_same {msk : Field → Bool} (s : State) (w_dbg : msk .dbg = false) (w_tiles : msk .tiles = false)
    (w_sec : msk .sec = false) :
    ∃ t, execDbgEnter s = .next t ∧ Same msk s t := by
  refine ⟨_, rfl, ?_⟩
  repeat' first
    | with_reducible first
      | assumption | exact Same.refl _ _ | apply State.modTile_same | apply State.extend_same
      | apply State.dbgAct_same | apply SameParts.same | apply SameParts.upd_sec | intro _
    | dsimp only | simp only [same_mk] | split

theorem execDbgLeave_same {msk : Field → Bool} (s : State) (w_fe : msk .fe = false) (w_dbg : msk .dbg = false)
    (w_tiles : msk .tiles = false) :
    ∃ t, execDbgLeave s = .next t ∧ Same msk s t := by
  refine ⟨_, rfl, ?_⟩
  repeat' first
    | with_reducible first
      | assumption | exact Same.refl _ _ | apply State.modTile_same | apply State.freeTileFaults_same
      | apply State.dbgAct_same | intro _
    | dsimp only | split

theorem execDbgRun_same {msk : Field → Bool} (s : State) (w_fe : msk .fe = false) (w_dbg : msk .dbg = false)
    (w_tiles : msk .tiles = false) :
    ∃ t, execDbgRun s = .next t ∧ Same msk s t := by
  refine ⟨_, rfl, ?_⟩
  repeat' first
    | with_reducible first
      | assumption | exact Same.refl _ _ | apply State.modTile_same | apply State.freeTileFaults_same
      | apply State.dbgAct_same | intro _
    | dsimp only | split

theorem execDbgHalt_same {msk : Field → Bool} (s : State) (w_fe : msk .fe = false) (w_dbg : msk .dbg = false)
    (w_tiles : msk .tiles = false) :
    ∃ t, execDbgHalt s = .next t ∧ Same msk s t := by
  refine ⟨_, rfl, ?_⟩
  repeat' first
    | with_reducible first
      | assumption | exact Same.refl _ _ | apply State.freeTileFaults_same | apply State.dbgAct_same
      | apply State.halt_same | intro _
    | dsimp only | split

theorem execDbgStreamKeySet_same {msk : Field → Bool} (s : State) (lo : Word) (w_dbg : msk .dbg = false)
    (w_tiles : msk .tiles = false) :
    ∃ t, execDbgStreamKeySet lo s = .next t ∧ Same msk s t := by
  refine ⟨_, rfl, ?_⟩
  repeat' first
    | with_reducible first
      | assumption | exact Same.refl _ _ | apply State.modTile_same | apply State.dbgAct_same | intro _
    | dsimp only | split

theorem execDbgInterleaveKeySet_same {msk : Field → Bool} (s : State) (lo : Word) (w_dbg : msk .dbg = false)
    (w_tiers : msk .tiers = false) :
    ∃ t, execDbgInterleaveKeySet lo s = .next t ∧ Same msk s t := by
  refine ⟨_, rfl, ?_⟩
  repeat' first
    | with_reducible first
      | assumption | exact Same.refl _ _ | apply State.dbgAct_same | apply SameParts.same | apply SameParts.upd_tiers
      | intro _
    | dsimp only | simp only [same_mk] | split

theorem State.peek_same {msk : Field → Bool} {s0 s : State} (h0 : Same msk s0 s) (ok : Bool) (write : Bool)
    (w_dbg : msk .dbg = false) :
    Same msk s0 (State.peek s ok write) := by
  unfold State.peek
  repeat' first
    | with_reducible first
      | assumption | exact Same.refl _ _ | apply Same.ite | apply SameParts.same | apply SameParts.upd_dbg
    | dsimp only | simp only [same_mk] | split

theorem execDbgPeekRead_same {msk : Field → Bool} (s : State) (w_dbg : msk .dbg = false) :
    ∃ t, execDbgPeekRead s = .next t ∧ Same msk s t := by
  refine ⟨_, rfl, ?_⟩
  repeat' first
    | with_reducible first
      | assumption | exact Same.refl _ _ | apply State.peek_same
    | dsimp only | split

theorem execDbgPeekWrite_same {msk : Field → Bool} (s : State) (w_dbg : msk .dbg = false) :
    ∃ t, execDbgPeekWrite s = .next t ∧ Same msk s t := by
  refine ⟨_, rfl, ?_⟩
  repeat' first
    | with_reducible first
      | assumption | exact Same.refl _ _ | apply State.peek_same
    | dsimp only | split

theorem State.peekData_same {msk : Field → Bool} {s0 s : State} (h0 : Same msk s0 s) (space : Nat) (t : Nat) (n : Nat)
    (w_ctr : msk .ctr = false) :
    Same msk s0 (State.peekData s space t n).2.2 := by
  unfold State.peekData
  repeat' first
    | with_reducible first
      | assumption | exact Same.refl _ _ | apply State.openSheets_same | apply State.rebuild_same | apply Same.ite
    | dsimp only | split

theorem State.peekReadEnd_same {msk : Field → Bool} {s0 s : State} (h0 : Same msk s0 s) (space : Nat) (t : Nat)
    (n : Nat) (w_ctr : msk .ctr = false) (w_dbg : msk .dbg = false) :
    Same msk s0 (State.peekReadEnd s space t n) := by
  unfold State.peekReadEnd
  repeat' first
    | with_reducible first
      | assumption | exact Same.refl _ _ | apply State.count_same | apply State.peekData_same | apply Same.ite
      | apply SameParts.same | apply SameParts.upd_dbg | refine Same.of_snd3 (by assumption) ?_
    | dsimp only | simp only [same_mk] | split

theorem State.peekWriteEnd_same {msk : Field → Bool} {s0 s : State} (h0 : Same msk s0 s) (space : Nat) (t : Nat)
    (n : Nat) (w_free : msk .free = false) (w_mem : msk .mem = false) (w_ctr : msk .ctr = false)
    (w_parts : msk .parts = false) (w_io : msk .io = false) (w_hp : msk .hp = false) (w_evt : msk .evt = false)
    (w_tiers : msk .tiers = false) (w_rel : msk .rel = false) :
    Same msk s0 (State.peekWriteEnd s space t n) := by
  unfold State.peekWriteEnd
  repeat' first
    | with_reducible first
      | assumption | exact Same.refl _ _ | apply State.openSheets_same | apply State.writeT1_same
      | apply State.spWrite_same | apply Same.ite | apply SameParts.same | apply SameParts.upd_mem
    | dsimp only | simp only [same_mk] | split

theorem execPeekCopyDone_same {msk : Field → Bool} (s : State) (w_free : msk .free = false) (w_mem : msk .mem = false)
    (w_ctr : msk .ctr = false) (w_parts : msk .parts = false) (w_io : msk .io = false) (w_hp : msk .hp = false)
    (w_evt : msk .evt = false) (w_dbg : msk .dbg = false) (w_tiers : msk .tiers = false) (w_rel : msk .rel = false) :
    ∃ t, execPeekCopyDone s = .next t ∧ Same msk s t := by
  refine ⟨_, rfl, ?_⟩
  repeat' first
    | with_reducible first
      | assumption | exact Same.refl _ _ | apply State.snoop_same | apply State.snoopData_same
      | apply State.readTaken_same | apply State.peekReadEnd_same | apply State.peekWriteEnd_same | apply Same.ite
      | apply SameParts.same | apply SameParts.upd_dbg
    | dsimp only | simp only [same_mk] | split

theorem State.answer_same {msk : Field → Bool} {s0 s : State} (h0 : Same msk s0 s) (go : State → State × Nat × Bytes)
    (hgo : ∀ t, Same msk s0 t → Same msk s0 (go t).1) (w_bus : msk .bus = false) :
    Same msk s0 (State.answer s go) := by
  unfold State.answer
  repeat' first
    | with_reducible first
      | assumption | exact Same.refl _ _ | apply hgo | apply Same.ite | apply SameParts.same | apply SameParts.upd_bus
      | intro _
    | dsimp only | simp only [same_mk] | split

theorem State.tell_same {msk : Field → Bool} {s0 s : State} (h0 : Same msk s0 s) (b : Bytes)
    (w_bus : msk .bus = false) :
    Same msk s0 (State.tell s b) := by
  unfold State.tell
  repeat' first
    | with_reducible first
      | assumption | exact Same.refl _ _ | apply State.answer_same | intro _
    | dsimp only | split

theorem execSetEndpointId_same {msk : Field → Bool} (s : State) (eid : Nat) (w_bus : msk .bus = false)
    (w_mgmt : msk .mgmt = false) :
    ∃ t, execSetEndpointId eid s = .next t ∧ Same msk s t := by
  refine ⟨_, rfl, ?_⟩
  repeat' first
    | with_reducible first
      | assumption | exact Same.refl _ _ | apply State.answer_same | apply SameParts.same | apply SameParts.upd_mgmt
      | intro _
    | dsimp only | simp only [same_mk] | split

theorem execGetEndpointId_same {msk : Field → Bool} (s : State) (w_bus : msk .bus = false) :
    ∃ t, execGetEndpointId s = .next t ∧ Same msk s t := by
  refine ⟨_, rfl, ?_⟩
  repeat' first
    | with_reducible first
      | assumption | exact Same.refl _ _ | apply State.tell_same
    | dsimp only | split

theorem execGetEndpointUuid_same {msk : Field → Bool} (s : State) (w_bus : msk .bus = false) :
    ∃ t, execGetEndpointUuid s = .next t ∧ Same msk s t := by
  refine ⟨_, rfl, ?_⟩
  repeat' first
    | with_reducible first
      | assumption | exact Same.refl _ _ | apply State.tell_same
    | dsimp only | split

theorem execGetMctpVersionSupport_same {msk : Field → Bool} (s : State) (w_bus : msk .bus = false) :
    ∃ t, execGetMctpVersionSupport s = .next t ∧ Same msk s t := by
  refine ⟨_, rfl, ?_⟩
  repeat' first
    | with_reducible first
      | assumption | exact Same.refl _ _ | apply State.tell_same
    | dsimp only | split

theorem execGetMessageTypeSupport_same {msk : Field → Bool} (s : State) (w_bus : msk .bus = false) :
    ∃ t, execGetMessageTypeSupport s = .next t ∧ Same msk s t := by
  refine ⟨_, rfl, ?_⟩
  repeat' first
    | with_reducible first
      | assumption | exact Same.refl _ _ | apply State.tell_same
    | dsimp only | split

theorem execGetTid_same {msk : Field → Bool} (s : State) (w_bus : msk .bus = false) :
    ∃ t, execGetTid s = .next t ∧ Same msk s t := by
  refine ⟨_, rfl, ?_⟩
  repeat' first
    | with_reducible first
      | assumption | exact Same.refl _ _ | apply State.tell_same
    | dsimp only | split

theorem execSetTid_same {msk : Field → Bool} (s : State) (tid : Nat) (w_bus : msk .bus = false)
    (w_mgmt : msk .mgmt = false) :
    ∃ t, execSetTid tid s = .next t ∧ Same msk s t := by
  refine ⟨_, rfl, ?_⟩
  repeat' first
    | with_reducible first
      | assumption | exact Same.refl _ _ | apply State.answer_same | apply SameParts.same | apply SameParts.upd_mgmt
      | intro _
    | dsimp only | simp only [same_mk] | split

theorem execGetPldmTypes_same {msk : Field → Bool} (s : State) (w_bus : msk .bus = false) :
    ∃ t, execGetPldmTypes s = .next t ∧ Same msk s t := by
  refine ⟨_, rfl, ?_⟩
  repeat' first
    | with_reducible first
      | assumption | exact Same.refl _ _ | refine Same.foldl ?_ _ _ (fun _ _ _ => ?_)
      | refine Same.foldl_fst _ _ (fun _ _ _ => ?_) _ ?_ | refine Same.foldl_snd _ _ (fun _ _ _ => ?_) _ ?_
      | apply State.tell_same | refine Same.of_fst (by assumption) ?_ | refine Same.of_snd (by assumption) ?_
      | intro _
    | dsimp only | split

theorem execGetPldmCommands_same {msk : Field → Bool} (s : State) (type : Nat) (w_bus : msk .bus = false) :
    ∃ t, execGetPldmCommands type s = .next t ∧ Same msk s t := by
  refine ⟨_, rfl, ?_⟩
  repeat' first
    | with_reducible first
      | assumption | exact Same.refl _ _ | refine Same.foldl ?_ _ _ (fun _ _ _ => ?_)
      | refine Same.foldl_fst _ _ (fun _ _ _ => ?_) _ ?_ | refine Same.foldl_snd _ _ (fun _ _ _ => ?_) _ ?_
      | apply State.answer_same | apply Same.ite | refine Same.of_fst (by assumption) ?_
      | refine Same.of_snd (by assumption) ?_ | intro _
    | dsimp only | split

theorem execGetPdrRepositoryInfo_same {msk : Field → Bool} (s : State) (w_bus : msk .bus = false) :
    ∃ t, execGetPdrRepositoryInfo s = .next t ∧ Same msk s t := by
  refine ⟨_, rfl, ?_⟩
  repeat' first
    | with_reducible first
      | assumption | exact Same.refl _ _ | apply State.tell_same
    | dsimp only | split

theorem execGetPdr_same {msk : Field → Bool} (s : State) (handle : Nat) (w_bus : msk .bus = false) :
    ∃ t, execGetPdr handle s = .next t ∧ Same msk s t := by
  refine ⟨_, rfl, ?_⟩
  repeat' first
    | with_reducible first
      | assumption | exact Same.refl _ _ | apply State.answer_same | apply Same.ite | intro _
    | dsimp only | split

theorem tellOpt_same {msk : Field → Bool} {s0 s : State} (h0 : Same msk s0 s) (n : Option Nat) :
    Same msk s0 (tellOpt n s).1 := by
  unfold tellOpt
  repeat' first
    | with_reducible first
      | assumption | exact Same.refl _ _
    | dsimp only | split

theorem execGetPldmVersion_same {msk : Field → Bool} (s : State) (type : Nat) (w_bus : msk .bus = false) :
    ∃ t, execGetPldmVersion type s = .next t ∧ Same msk s t := by
  refine ⟨_, rfl, ?_⟩
  repeat' first
    | with_reducible first
      | assumption | exact Same.refl _ _ | apply State.answer_same | apply tellOpt_same
      | refine Same.of_fst (by assumption) ?_ | refine Same.of_fst3 (by assumption) ?_ | intro _
    | dsimp only | split

theorem execGetSensorReading_same {msk : Field → Bool} (s : State) (id : Nat) (w_bus : msk .bus = false) :
    ∃ t, execGetSensorReading id s = .next t ∧ Same msk s t := by
  refine ⟨_, rfl, ?_⟩
  repeat' first
    | with_reducible first
      | assumption | exact Same.refl _ _ | apply State.answer_same | apply tellOpt_same
      | refine Same.of_fst (by assumption) ?_ | refine Same.of_fst3 (by assumption) ?_ | intro _
    | dsimp only | split

theorem execGetStateSensorReadings_same {msk : Field → Bool} (s : State) (id : Nat) (w_bus : msk .bus = false) :
    ∃ t, execGetStateSensorReadings id s = .next t ∧ Same msk s t := by
  refine ⟨_, rfl, ?_⟩
  repeat' first
    | with_reducible first
      | assumption | exact Same.refl _ _ | apply State.answer_same | apply tellOpt_same
      | refine Same.of_fst (by assumption) ?_ | refine Same.of_fst3 (by assumption) ?_ | intro _
    | dsimp only | split

theorem execSetNumericEffecterValue_same {msk : Field → Bool} (s : State) (id : Nat) (value : Nat)
    (w_free : msk .free = false) (w_bus : msk .bus = false) (w_ctr : msk .ctr = false) (w_regs : msk .regs = false)
    (w_parts : msk .parts = false) (w_io : msk .io = false) (w_hp : msk .hp = false) (w_evt : msk .evt = false) :
    ∃ t, execSetNumericEffecterValue id value s = .next t ∧ Same msk s t := by
  refine ⟨_, rfl, ?_⟩
  repeat' first
    | with_reducible first
      | assumption | exact Same.refl _ _ | apply Same.after | apply execPwrCap_same | apply execSlew_same
      | apply State.answer_same | apply Same.ite | intro _
    | dsimp only | split

theorem execGetNumericEffecterValue_same {msk : Field → Bool} (s : State) (id : Nat) (w_bus : msk .bus = false) :
    ∃ t, execGetNumericEffecterValue id s = .next t ∧ Same msk s t := by
  refine ⟨_, rfl, ?_⟩
  repeat' first
    | with_reducible first
      | assumption | exact Same.refl _ _ | apply State.answer_same | apply tellOpt_same | apply Same.ite
      | refine Same.of_fst (by assumption) ?_ | refine Same.of_fst3 (by assumption) ?_ | intro _
    | dsimp only | split

theorem execSetEventReceiver_same {msk : Field → Bool} (s : State) (eid : Nat) (w_bus : msk .bus = false)
    (w_mgmt : msk .mgmt = false) :
    ∃ t, execSetEventReceiver eid s = .next t ∧ Same msk s t := by
  refine ⟨_, rfl, ?_⟩
  repeat' first
    | with_reducible first
      | assumption | exact Same.refl _ _ | apply State.answer_same | apply SameParts.same | apply SameParts.upd_mgmt
      | intro _
    | dsimp only | simp only [same_mk] | split

theorem execPollForPlatformEventMessage_same {msk : Field → Bool} (s : State) (w_bus : msk .bus = false)
    (w_mgmt : msk .mgmt = false) :
    ∃ t, execPollForPlatformEventMessage s = .next t ∧ Same msk s t := by
  refine ⟨_, rfl, ?_⟩
  repeat' first
    | with_reducible first
      | assumption | exact Same.refl _ _ | apply State.answer_same | apply SameParts.same | apply SameParts.upd_mgmt
      | intro _
    | dsimp only | simp only [same_mk] | split

end Sys2Proof.Machine
end

