-- ==== Sys2Proof/Laws/SameVault.lean ====
section
/-! SUPPORT. `Same` for the vault, the partner, the tiers, restore, the security processor, resets and power:
the parts of the state each operation leaves alone. -/

namespace Sys2Proof.Machine
set_option linter.unusedTactic false
set_option linter.unreachableTactic false

theorem State.mounted_same {msk : Field → Bool} {s0 s : State} (h0 : Same msk s0 s) (w_rel : msk .rel = false) :
    Same msk s0 (State.mounted s) := by
  unfold State.mounted
  repeat' first
    | with_reducible first
      | assumption | exact Same.refl _ _ | apply State.modVault_same
    | dsimp only | split

theorem execVaultRowsAppend_same {msk : Field → Bool} (s : State) (table : Nat) (rows : List RowId)
    (w_free : msk .free = false) (w_ctr : msk .ctr = false) (w_gat : msk .gat = false) (w_rel : msk .rel = false) :
    ∃ t, execVaultRowsAppend table rows s = .next t ∧ Same msk s t := by
  refine ⟨_, rfl, ?_⟩
  repeat' first
    | with_reducible first
      | assumption | exact Same.refl _ _ | apply State.baseNext_same | apply State.stepNext_same
      | apply State.appendFlips_same | apply State.appendRows_same | apply State.mounted_same | apply Same.ite
    | dsimp only | split

theorem State.replicaDurable_same {msk : Field → Bool} {s0 s : State} (h0 : Same msk s0 s) (r : VRec)
    (w_io : msk .io = false) (w_rel : msk .rel = false) :
    Same msk s0 (State.replicaDurable s r) := by
  unfold State.replicaDurable
  repeat' first
    | with_reducible first
      | assumption | exact Same.refl _ _ | apply State.issue_same | apply Same.ite | apply SameParts.same
      | apply SameParts.upd_rel
    | dsimp only | simp only [same_mk] | split

theorem execVaultAppendDurable_same {msk : Field → Bool} (s : State) (w_free : msk .free = false)
    (w_ctr : msk .ctr = false) (w_io : msk .io = false) (w_gat : msk .gat = false) (w_rel : msk .rel = false) :
    ∃ t, execVaultAppendDurable s = .next t ∧ Same msk s t := by
  refine ⟨_, rfl, ?_⟩
  repeat' first
    | with_reducible first
      | assumption | exact Same.refl _ _ | apply State.modVault_same | apply State.baseNext_same
      | apply State.stepNext_same | apply State.replicaDurable_same | apply SameParts.same | apply SameParts.upd_gat
    | dsimp only | simp only [same_mk] | split

theorem execStateRecordTimer_same {msk : Field → Bool} (s : State) (w_free : msk .free = false)
    (w_ctr : msk .ctr = false) (w_rel : msk .rel = false) :
    ∃ t, execStateRecordTimer s = .next t ∧ Same msk s t := by
  refine ⟨_, rfl, ?_⟩
  repeat' first
    | with_reducible first
      | assumption | exact Same.refl _ _ | apply State.baseNext_same | apply State.stepNext_same
      | apply State.appendState_same | apply State.mounted_same
    | dsimp only | split

theorem State.vaultCondition_same {msk : Field → Bool} {s0 s : State} (h0 : Same msk s0 s)
    (w_free : msk .free = false) (w_ctr : msk .ctr = false) (w_parts : msk .parts = false) (w_io : msk .io = false)
    (w_hp : msk .hp = false) (w_evt : msk .evt = false) (w_rel : msk .rel = false) :
    Same msk s0 (State.vaultCondition s) := by
  unfold State.vaultCondition
  repeat' first
    | with_reducible first
      | assumption | exact Same.refl _ _ | apply State.causeAll_same | apply State.modVault_same | apply Same.ite
    | dsimp only | split

theorem execVaultBlockErase_same {msk : Field → Bool} (s : State) (retired : Bool) (w_free : msk .free = false)
    (w_mem : msk .mem = false) (w_ctr : msk .ctr = false) (w_parts : msk .parts = false) (w_fe : msk .fe = false)
    (w_io : msk .io = false) (w_hp : msk .hp = false) (w_evt : msk .evt = false) (w_posts : msk .posts = false)
    (w_tiers : msk .tiers = false) (w_gat : msk .gat = false) (w_rel : msk .rel = false) :
    ∃ t, execVaultBlockErase retired s = .next t ∧ Same msk s t := by
  refine ⟨_, rfl, ?_⟩
  repeat' first
    | with_reducible first
      | assumption | exact Same.refl _ _ | apply State.count_same | apply State.setVault_same
      | apply State.modVault_same | apply State.baseNext_same | apply State.stepNext_same
      | apply State.appendHeld_same | apply State.commitGo_same | apply State.intakeGo_same | apply State.mounted_same
      | apply State.vaultCondition_same | apply Same.ite
    | dsimp only | split

theorem State.partnerSend_same {msk : Field → Bool} {s0 s : State} (h0 : Same msk s0 s) (p : Pair) (data : Bytes)
    (w_io : msk .io = false) :
    Same msk s0 (State.partnerSend s p data) := by
  unfold State.partnerSend
  repeat' first
    | with_reducible first
      | assumption | exact Same.refl _ _ | apply State.issue_same
    | dsimp only | split

theorem State.partnerPair_same {msk : Field → Bool} {s0 s : State} (h0 : Same msk s0 s) (k : Nat) (op : Nat)
    (go : State → Cmd → State) (hgo : ∀ t x1, Same msk s0 t → Same msk s0 (go t x1)) (w_free : msk .free = false)
    (w_mem : msk .mem = false) (w_ctr : msk .ctr = false) (w_parts : msk .parts = false) (w_fe : msk .fe = false)
    (w_io : msk .io = false) (w_hp : msk .hp = false) (w_evt : msk .evt = false) (w_posts : msk .posts = false)
    (w_tiers : msk .tiers = false) (w_rel : msk .rel = false) :
    Same msk s0 (State.partnerPair s k op go) := by
  unfold State.partnerPair
  repeat' first
    | with_reducible first
      | assumption | exact Same.refl _ _ | apply hgo | apply State.finish_same | apply State.front_same
      | apply Same.ite | intro _
    | dsimp only | split

theorem execPartnerPairSender_same {msk : Field → Bool} (s : State) (ring : Nat) (seq : Nat)
    (w_free : msk .free = false) (w_mem : msk .mem = false) (w_ctr : msk .ctr = false) (w_parts : msk .parts = false)
    (w_fe : msk .fe = false) (w_io : msk .io = false) (w_hp : msk .hp = false) (w_evt : msk .evt = false)
    (w_posts : msk .posts = false) (w_tiers : msk .tiers = false) (w_rel : msk .rel = false) :
    ∃ t, execPartnerPairSender ring seq s = .next t ∧ Same msk s t := by
  refine ⟨_, rfl, ?_⟩
  repeat' first
    | with_reducible first
      | assumption | exact Same.refl _ _ | apply State.setPhase_same | apply State.finish_same
      | apply State.setSender_same | apply State.partnerSend_same | apply State.partnerPair_same | apply Same.ite
      | intro _
    | dsimp only | split

theorem execPartnerPairReceiver_same {msk : Field → Bool} (s : State) (ring : Nat) (seq : Nat)
    (w_free : msk .free = false) (w_mem : msk .mem = false) (w_ctr : msk .ctr = false) (w_parts : msk .parts = false)
    (w_fe : msk .fe = false) (w_io : msk .io = false) (w_hp : msk .hp = false) (w_evt : msk .evt = false)
    (w_posts : msk .posts = false) (w_tiers : msk .tiers = false) (w_rel : msk .rel = false) :
    ∃ t, execPartnerPairReceiver ring seq s = .next t ∧ Same msk s t := by
  refine ⟨_, rfl, ?_⟩
  repeat' first
    | with_reducible first
      | assumption | exact Same.refl _ _ | apply State.finish_same | apply State.setReceiver_same
      | apply State.partnerPair_same | apply Same.ite | intro _
    | dsimp only | split

theorem execPartnerPairUnpair_same {msk : Field → Bool} (s : State) (ring : Nat) (seq : Nat)
    (w_free : msk .free = false) (w_mem : msk .mem = false) (w_ctr : msk .ctr = false) (w_parts : msk .parts = false)
    (w_fe : msk .fe = false) (w_io : msk .io = false) (w_hp : msk .hp = false) (w_evt : msk .evt = false)
    (w_posts : msk .posts = false) (w_tiers : msk .tiers = false) (w_rel : msk .rel = false) :
    ∃ t, execPartnerPairUnpair ring seq s = .next t ∧ Same msk s t := by
  refine ⟨_, rfl, ?_⟩
  repeat' first
    | with_reducible first
      | assumption | exact Same.refl _ _ | apply State.finish_same | apply State.setSender_same
      | apply State.setReceiver_same | apply State.partnerPair_same | apply Same.ite | intro _
    | dsimp only | split

theorem State.partnerAck_same {msk : Field → Bool} {s0 s : State} (h0 : Same msk s0 s) (p : Pair)
    (w_io : msk .io = false) :
    Same msk s0 (State.partnerAck s p) := by
  unfold State.partnerAck
  repeat' first
    | with_reducible first
      | assumption | exact Same.refl _ _ | apply State.partnerSend_same
    | dsimp only | split

theorem execPartnerHelloReceive_same {msk : Field → Bool} (s : State) (serial : Nat) (feed : Nat) (boot : Nat)
    (lsn : Nat) (w_fe : msk .fe = false) (w_io : msk .io = false) (w_rel : msk .rel = false) :
    ∃ t, execPartnerHelloReceive serial feed boot lsn s = .next t ∧ Same msk s t := by
  refine ⟨_, rfl, ?_⟩
  repeat' first
    | with_reducible first
      | assumption | exact Same.refl _ _ | apply State.finish_same | apply State.setSender_same
      | apply State.setReceiver_same | apply State.partnerSend_same | apply State.partnerAck_same | apply Same.ite
    | dsimp only | split

theorem execPartnerHelloTimeout_same {msk : Field → Bool} (s : State) (w_fe : msk .fe = false)
    (w_rel : msk .rel = false) :
    ∃ t, execPartnerHelloTimeout s = .next t ∧ Same msk s t := by
  refine ⟨_, rfl, ?_⟩
  repeat' first
    | with_reducible first
      | assumption | exact Same.refl _ _ | apply State.finish_same | apply State.setSender_same
    | dsimp only | split

theorem execPartnerRecordWrite_same {msk : Field → Bool} (s : State) (w_free : msk .free = false)
    (w_io : msk .io = false) (w_rel : msk .rel = false) :
    ∃ t, execPartnerRecordWrite s = .next t ∧ Same msk s t := by
  refine ⟨_, rfl, ?_⟩
  repeat' first
    | with_reducible first
      | assumption | exact Same.refl _ _ | apply State.freeVal_same | apply State.issue_same
      | apply State.setSender_same | apply State.partnerSend_same | apply Same.ite
      | refine Same.of_snd (by assumption) ?_
    | dsimp only | split

theorem execPartnerAckReceive_same {msk : Field → Bool} (s : State) (step : Nat) (lsn : Nat) (intakeFree : Nat)
    (w_ctr : msk .ctr = false) (w_rel : msk .rel = false) :
    ∃ t, execPartnerAckReceive step lsn intakeFree s = .next t ∧ Same msk s t := by
  refine ⟨_, rfl, ?_⟩
  repeat' first
    | with_reducible first
      | assumption | exact Same.refl _ _ | apply State.count_same | apply State.setSender_same | apply Same.ite
      | apply SameParts.same | apply SameParts.upd_rel
    | dsimp only | simp only [same_mk] | split

theorem execPartnerRecordArrival_same {msk : Field → Bool} (s : State) (record : Bytes) (w_free : msk .free = false)
    (w_mem : msk .mem = false) (w_ctr : msk .ctr = false) (w_parts : msk .parts = false) (w_io : msk .io = false)
    (w_hp : msk .hp = false) (w_evt : msk .evt = false) (w_posts : msk .posts = false) (w_tiers : msk .tiers = false)
    (w_rel : msk .rel = false) :
    ∃ t, execPartnerRecordArrival record s = .next t ∧ Same msk s t := by
  refine ⟨_, rfl, ?_⟩
  repeat' first
    | with_reducible first
      | assumption | exact Same.refl _ _ | apply State.setReceiver_same | apply State.intakeGo_same
      | apply State.mounted_same | apply Same.ite
    | dsimp only | split

theorem execPartnerStall_same {msk : Field → Bool} (s : State) (w_free : msk .free = false) (w_ctr : msk .ctr = false)
    (w_parts : msk .parts = false) (w_io : msk .io = false) (w_hp : msk .hp = false) (w_evt : msk .evt = false) :
    ∃ t, execPartnerStall s = .next t ∧ Same msk s t := by
  refine ⟨_, rfl, ?_⟩
  repeat' first
    | with_reducible first
      | assumption | exact Same.refl _ _ | apply State.causeAll_same | apply Same.ite
    | dsimp only | split

theorem execPartnerRestoreRequest_same {msk : Field → Bool} (s : State) (serial : Nat) (w_io : msk .io = false) :
    ∃ t, execPartnerRestoreRequest serial s = .next t ∧ Same msk s t := by
  refine ⟨_, rfl, ?_⟩
  repeat' first
    | with_reducible first
      | assumption | exact Same.refl _ _ | refine Same.each ?_ _ _ (fun _ _ _ => ?_) | apply State.partnerSend_same
      | apply Same.ite | intro _
    | dsimp only | split

theorem execT0CorrectedWriteBack_same {msk : Field → Bool} (s : State) (tile : Nat) (w_ctr : msk .ctr = false)
    (w_tiers : msk .tiers = false) :
    ∃ t, execT0CorrectedWriteBack tile s = .next t ∧ Same msk s t := by
  refine ⟨_, rfl, ?_⟩
  repeat' first
    | with_reducible first
      | assumption | exact Same.refl _ _ | apply State.count_same | apply State.drainWb_same | apply Same.ite
      | apply SameParts.same | apply SameParts.upd_tiers
    | dsimp only | simp only [same_mk] | split

theorem execT0ScrubPass_same {msk : Field → Bool} (s : State) (overran : Bool) (bad : List (Nat × Nat))
    (w_mem : msk .mem = false) (w_ctr : msk .ctr = false) (w_posts : msk .posts = false)
    (w_tiers : msk .tiers = false) (w_rel : msk .rel = false) :
    ∃ t, execT0ScrubPass overran bad s = .next t ∧ Same msk s t := by
  refine ⟨_, rfl, ?_⟩
  repeat' first
    | with_reducible first
      | assumption | exact Same.refl _ _ | refine Same.each ?_ _ _ (fun _ _ _ => ?_) | apply State.drainWb_same
      | apply State.strikeT0_same | apply Same.ite | apply SameParts.same | apply SameParts.upd_tiers | intro _
    | dsimp only | simp only [same_mk] | split

theorem State.badStripe_same {msk : Field → Bool} {s0 s : State} (h0 : Same msk s0 s) (g : Nat) (stripe : Nat)
    (w_free : msk .free = false) (w_mem : msk .mem = false) (w_ctr : msk .ctr = false) (w_parts : msk .parts = false)
    (w_io : msk .io = false) (w_hp : msk .hp = false) (w_evt : msk .evt = false) (w_tiers : msk .tiers = false)
    (w_rel : msk .rel = false) :
    Same msk s0 (State.badStripe s g stripe) := by
  unfold State.badStripe
  repeat' first
    | with_reducible first
      | assumption | exact Same.refl _ _ | refine Same.each ?_ _ _ (fun _ _ _ => ?_) | apply State.count_same
      | apply State.poisonT1_same | apply Same.ite | intro _
    | dsimp only | split

theorem execT1ScrubPass_same {msk : Field → Bool} (s : State) (overran : Bool) (bad : List (Nat × Nat))
    (w_free : msk .free = false) (w_mem : msk .mem = false) (w_ctr : msk .ctr = false) (w_parts : msk .parts = false)
    (w_io : msk .io = false) (w_hp : msk .hp = false) (w_evt : msk .evt = false) (w_tiers : msk .tiers = false)
    (w_rel : msk .rel = false) :
    ∃ t, execT1ScrubPass overran bad s = .next t ∧ Same msk s t := by
  refine ⟨_, rfl, ?_⟩
  repeat' first
    | with_reducible first
      | assumption | exact Same.refl _ _ | refine Same.each ?_ _ _ (fun _ _ _ => ?_) | apply State.badStripe_same
      | apply Same.ite | apply SameParts.same | apply SameParts.upd_tiers | intro _
    | dsimp only | simp only [same_mk] | split

theorem State.loseT1_same {msk : Field → Bool} {s0 s : State} (h0 : Same msk s0 s) (ctrl : Nat) (pkg : Nat)
    (w_free : msk .free = false) (w_ctr : msk .ctr = false) (w_parts : msk .parts = false) (w_io : msk .io = false)
    (w_hp : msk .hp = false) (w_evt : msk .evt = false) (w_tiers : msk .tiers = false) :
    Same msk s0 (State.loseT1 s ctrl pkg) := by
  unfold State.loseT1
  repeat' first
    | with_reducible first
      | assumption | exact Same.refl _ _ | apply State.causeAll_same | apply State.setT1g_same
      | apply State.failGroup_same | apply Same.ite
    | dsimp only | split

theorem execT1PackageLost_same {msk : Field → Bool} (s : State) (ctrl : Nat) (pkg : Nat) (w_free : msk .free = false)
    (w_ctr : msk .ctr = false) (w_parts : msk .parts = false) (w_io : msk .io = false) (w_hp : msk .hp = false)
    (w_evt : msk .evt = false) (w_tiers : msk .tiers = false) :
    ∃ t, execT1PackageLost ctrl pkg s = .next t ∧ Same msk s t := by
  refine ⟨_, rfl, ?_⟩
  repeat' first
    | with_reducible first
      | assumption | exact Same.refl _ _ | apply State.loseT1_same | apply Same.ite
    | dsimp only | split

theorem State.repaired_same {msk : Field → Bool} {s0 s : State} (h0 : Same msk s0 s) (id : Nat) (kind : Nat)
    (tile : Nat) (u : Nat) (loc : Nat) (w_ctr : msk .ctr = false) (w_rel : msk .rel = false) :
    Same msk s0 (State.repaired s id kind tile u loc) := by
  unfold State.repaired
  repeat' first
    | with_reducible first
      | assumption | exact Same.refl _ _ | apply State.count_same | apply State.plogAdd_same
    | dsimp only | split

theorem State.rewriteRow_same {msk : Field → Bool} {s0 s : State} (h0 : Same msk s0 s) (tile : Nat) (u : Nat)
    (loc : Nat) (b : Bytes) (w_free : msk .free = false) (w_mem : msk .mem = false) (w_ctr : msk .ctr = false)
    (w_parts : msk .parts = false) (w_io : msk .io = false) (w_hp : msk .hp = false) (w_evt : msk .evt = false)
    (w_tiers : msk .tiers = false) (w_rel : msk .rel = false) :
    Same msk s0 (State.rewriteRow s tile u loc b) := by
  unfold State.rewriteRow
  repeat' first
    | with_reducible first
      | assumption | exact Same.refl _ _ | apply State.writeCopy_same | apply Same.ite
    | dsimp only | split

theorem State.repairLost_same {msk : Field → Bool} {s0 s : State} (h0 : Same msk s0 s) (tile : Nat) (u : Nat)
    (loc : Nat) (w_free : msk .free = false) (w_mem : msk .mem = false) (w_ctr : msk .ctr = false)
    (w_parts : msk .parts = false) (w_io : msk .io = false) (w_hp : msk .hp = false) (w_evt : msk .evt = false)
    (w_tiers : msk .tiers = false) (w_rel : msk .rel = false) :
    Same msk s0 (State.repairLost s tile u loc) := by
  unfold State.repairLost
  repeat' first
    | with_reducible first
      | assumption | exact Same.refl _ _ | apply State.repaired_same | apply State.rewriteRow_same
    | dsimp only | split

theorem execPoisonRepair_same {msk : Field → Bool} (s : State) (tile : Nat) (table : Nat) (loc : Nat)
    (w_free : msk .free = false) (w_mem : msk .mem = false) (w_ctr : msk .ctr = false) (w_parts : msk .parts = false)
    (w_io : msk .io = false) (w_hp : msk .hp = false) (w_evt : msk .evt = false) (w_tiers : msk .tiers = false)
    (w_gat : msk .gat = false) (w_rel : msk .rel = false) :
    ∃ t, execPoisonRepair tile table loc s = .next t ∧ Same msk s t := by
  refine ⟨_, rfl, ?_⟩
  repeat' first
    | with_reducible first
      | assumption | exact Same.refl _ _ | apply State.setDir_same | apply State.writeCopy_same
      | apply State.drainWb_same | apply State.repaired_same | apply State.rewriteRow_same
      | apply State.repairLost_same | apply Same.ite
    | dsimp only | split

theorem execReamLineReload_same {msk : Field → Bool} (s : State) (tile : Nat) (w_mem : msk .mem = false)
    (w_ctr : msk .ctr = false) (w_ream : msk .ream = false) (w_tiles : msk .tiles = false) :
    ∃ t, execReamLineReload tile s = .next t ∧ Same msk s t := by
  refine ⟨_, rfl, ?_⟩
  repeat' first
    | with_reducible first
      | assumption | exact Same.refl _ _ | apply State.modTile_same | apply State.reloadTile_same | apply Same.ite
    | dsimp only | split

theorem execD2dFlitReplay_same {msk : Field → Bool} (s : State) (dir : Nat) (w_ctr : msk .ctr = false)
    (w_rel : msk .rel = false) :
    ∃ t, execD2dFlitReplay dir s = .next t ∧ Same msk s t := by
  refine ⟨_, rfl, ?_⟩
  repeat' first
    | with_reducible first
      | assumption | exact Same.refl _ _ | apply State.count_same | apply Same.ite | apply SameParts.same
      | apply SameParts.upd_rel
    | dsimp only | simp only [same_mk] | split

theorem State.replayRec_same {msk : Field → Bool} {s0 s : State} (h0 : Same msk s0 s) (r : VRec)
    (w_free : msk .free = false) (w_mem : msk .mem = false) (w_ctr : msk .ctr = false) (w_parts : msk .parts = false)
    (w_io : msk .io = false) (w_hp : msk .hp = false) (w_evt : msk .evt = false) (w_tiers : msk .tiers = false)
    (w_gat : msk .gat = false) (w_rel : msk .rel = false) :
    Same msk s0 (State.replayRec s r) := by
  unfold State.replayRec
  repeat' first
    | with_reducible first
      | assumption | exact Same.refl _ _ | refine Same.each ?_ _ _ (fun _ _ _ => ?_) | apply State.setDir_same
      | apply State.writeCopy_same | apply Same.ite | intro _
    | dsimp only | split

theorem State.unitBad_same {msk : Field → Bool} {s0 s : State} (h0 : Same msk s0 s) (r : VRec)
    (w_rel : msk .rel = false) :
    Same msk s0 (State.unitBad s r) := by
  unfold State.unitBad
  repeat' first
    | with_reducible first
      | assumption | exact Same.refl _ _ | apply State.plogAdd_same | apply Same.ite
    | dsimp only | split

theorem State.replayAll_same {msk : Field → Bool} {s0 s : State} (h0 : Same msk s0 s) (y0 : List VRec)
    (w_free : msk .free = false) (w_mem : msk .mem = false) (w_ctr : msk .ctr = false) (w_parts : msk .parts = false)
    (w_io : msk .io = false) (w_hp : msk .hp = false) (w_evt : msk .evt = false) (w_tiers : msk .tiers = false)
    (w_gat : msk .gat = false) (w_rel : msk .rel = false) :
    Same msk s0 (State.replayAll s y0).1 := by
  induction y0 generalizing s with
  | nil =>
    unfold State.replayAll
    repeat' first
      | with_reducible first
        | assumption | exact Same.refl _ _ | apply State.replayRec_same | apply State.unitBad_same
        | apply Same.ite
      | dsimp only | split
  | cons r rs ih =>
    unfold State.replayAll
    repeat' first
      | with_reducible first
        | assumption | exact Same.refl _ _ | apply ih | apply State.replayRec_same | apply State.unitBad_same
        | apply Same.ite
      | dsimp only | split

theorem State.skipRec_same {msk : Field → Bool} {s0 s : State} (h0 : Same msk s0 s) (r : VRec)
    (w_rel : msk .rel = false) :
    Same msk s0 (State.skipRec s r) := by
  unfold State.skipRec
  repeat' first
    | with_reducible first
      | assumption | exact Same.refl _ _ | refine Same.each ?_ _ _ (fun _ _ _ => ?_) | apply State.plogAdd_same
      | apply State.unitBad_same | apply Same.ite | intro _
    | dsimp only | split

theorem State.replayTail_same {msk : Field → Bool} {s0 s : State} (h0 : Same msk s0 s) (rs : List VRec)
    (w_free : msk .free = false) (w_mem : msk .mem = false) (w_ctr : msk .ctr = false) (w_parts : msk .parts = false)
    (w_io : msk .io = false) (w_hp : msk .hp = false) (w_evt : msk .evt = false) (w_tiers : msk .tiers = false)
    (w_gat : msk .gat = false) (w_rel : msk .rel = false) :
    Same msk s0 (State.replayTail s rs) := by
  unfold State.replayTail
  repeat' first
    | with_reducible first
      | assumption | exact Same.refl _ _ | refine Same.each ?_ _ _ (fun _ _ _ => ?_) | apply State.replayRec_same
      | apply State.skipRec_same | apply Same.ite | intro _
    | dsimp only | split

theorem State.placeRows_same {msk : Field → Bool} {s0 s : State} (h0 : Same msk s0 s) (w_free : msk .free = false)
    (w_mem : msk .mem = false) (w_ctr : msk .ctr = false) (w_parts : msk .parts = false) (w_io : msk .io = false)
    (w_hp : msk .hp = false) (w_evt : msk .evt = false) (w_tiers : msk .tiers = false) (w_gat : msk .gat = false)
    (w_rel : msk .rel = false) :
    Same msk s0 (State.placeRows s) := by
  unfold State.placeRows
  repeat' first
    | with_reducible first
      | assumption | exact Same.refl _ _ | refine Same.each ?_ _ _ (fun _ _ _ => ?_) | apply State.setDir_same
      | apply State.moveRow_same | apply State.abandonMoves_same | apply SameParts.same | apply SameParts.upd_gat
      | intro _
    | dsimp only | simp only [same_mk] | split

theorem State.restoreStreams_same {msk : Field → Bool} {s0 s : State} (h0 : Same msk s0 s) (st : Option VRec)
    (step : Option VRec) (w_ctr : msk .ctr = false) (w_tiles : msk .tiles = false) :
    Same msk s0 (State.restoreStreams s st step).1 := by
  unfold State.restoreStreams
  repeat' first
    | with_reducible first
      | assumption | exact Same.refl _ _ | refine Same.foldl ?_ _ _ (fun _ _ _ => ?_)
      | refine Same.foldl_fst _ _ (fun _ _ _ => ?_) _ ?_ | refine Same.foldl_snd _ _ (fun _ _ _ => ?_) _ ?_
      | apply State.setCtr_same | apply State.modTile_same | apply Same.ite | refine Same.of_fst (by assumption) ?_
      | refine Same.of_snd (by assumption) ?_ | intro _
    | dsimp only | split

theorem State.restoreSteps_same {msk : Field → Bool} {s0 s : State} (h0 : Same msk s0 s) (st : Option VRec)
    (rs : List VRec) (w_ream : msk .ream = false) (w_gat : msk .gat = false) :
    Same msk s0 (State.restoreSteps s st rs) := by
  unfold State.restoreSteps
  repeat' first
    | with_reducible first
      | assumption | exact Same.refl _ _ | apply SameParts.same | apply SameParts.upd_gat | apply SameParts.upd_ream
      | apply SameParts.upd_ream_gat
    | dsimp only | simp only [same_mk] | split

theorem State.lostRecord_same {msk : Field → Bool} {s0 s : State} (h0 : Same msk s0 s) (n : Nat) (epoch : Nat)
    (seq : Nat) (w_free : msk .free = false) :
    Same msk s0 (State.lostRecord s n epoch seq).2 := by
  unfold State.lostRecord
  repeat' first
    | with_reducible first
      | assumption | exact Same.refl _ _ | apply State.freeVal_same | refine Same.of_snd (by assumption) ?_
    | dsimp only | split

theorem State.restoreRing_same {msk : Field → Bool} {s0 s : State} (h0 : Same msk s0 s) (e : Bytes)
    (w_free : msk .free = false) (w_ctr : msk .ctr = false) (w_fe : msk .fe = false) (w_io : msk .io = false)
    (w_posts : msk .posts = false) :
    Same msk s0 (State.restoreRing s e) := by
  unfold State.restoreRing
  repeat' first
    | with_reducible first
      | assumption | exact Same.refl _ _ | refine Same.each ?_ _ _ (fun _ _ _ => ?_) | apply State.modRing_same
      | apply State.putRecord_same | apply State.lostRecord_same | apply Same.ite
      | refine Same.of_snd (by assumption) ?_ | intro _
    | dsimp only | split

theorem State.restoreRings_same {msk : Field → Bool} {s0 s : State} (h0 : Same msk s0 s) (log : List VRec)
    (st : Option VRec) (w_free : msk .free = false) (w_ctr : msk .ctr = false) (w_fe : msk .fe = false)
    (w_io : msk .io = false) (w_posts : msk .posts = false) :
    Same msk s0 (State.restoreRings s log st) := by
  unfold State.restoreRings
  repeat' first
    | with_reducible first
      | assumption | exact Same.refl _ _ | refine Same.each ?_ _ _ (fun _ _ _ => ?_) | apply State.restoreRing_same
      | apply Same.ite | intro _
    | dsimp only | split

theorem State.restoreReject_same {msk : Field → Bool} {s0 s : State} (h0 : Same msk s0 s) (k : Nat) (why : Nat)
    (w_fe : msk .fe = false) :
    Same msk s0 (State.restoreReject s k why) := by
  unfold State.restoreReject
  repeat' first
    | with_reducible first
      | assumption | exact Same.refl _ _ | apply State.finish_same
    | dsimp only | split

theorem State.restoreFail_same {msk : Field → Bool} {s0 s : State} (h0 : Same msk s0 s) (k : Nat) (why : Nat)
    (w_fe : msk .fe = false) (w_gat : msk .gat = false) (w_rel : msk .rel = false) :
    Same msk s0 (State.restoreFail s k why) := by
  unfold State.restoreFail
  repeat' first
    | with_reducible first
      | assumption | exact Same.refl _ _ | apply State.finish_same | apply SameParts.same
      | apply SameParts.upd_gat_rel
    | dsimp only | simp only [same_mk] | split

theorem State.restoreRest_same {msk : Field → Bool} {s0 s : State} (h0 : Same msk s0 s) (k : Nat) (c : Cmd)
    (log : List VRec) (p : Point) (w_free : msk .free = false) (w_mem : msk .mem = false) (w_ctr : msk .ctr = false)
    (w_parts : msk .parts = false) (w_fe : msk .fe = false) (w_io : msk .io = false) (w_hp : msk .hp = false)
    (w_evt : msk .evt = false) (w_ream : msk .ream = false) (w_posts : msk .posts = false)
    (w_tiles : msk .tiles = false) (w_tiers : msk .tiers = false) (w_gat : msk .gat = false)
    (w_rel : msk .rel = false) :
    Same msk s0 (State.restoreRest s k c log p) := by
  unfold State.restoreRest
  repeat' first
    | with_reducible first
      | assumption | exact Same.refl _ _ | apply State.count_same | apply State.pinTables_same
      | apply State.replayTail_same | apply State.placeRows_same | apply State.restoreStreams_same
      | apply State.restoreSteps_same | apply State.restoreRings_same | apply Same.ite | apply SameParts.same
      | apply SameParts.upd_rel | refine Same.of_fst (by assumption) ?_ | refine Same.of_fst3 (by assumption) ?_
    | dsimp only | simp only [same_mk] | split

theorem State.restoreRun_same {msk : Field → Bool} {s0 s : State} (h0 : Same msk s0 s) (k : Nat) (c : Cmd)
    (log : List VRec) (p : Point) (replica : List Bytes) (w_free : msk .free = false) (w_mem : msk .mem = false)
    (w_ctr : msk .ctr = false) (w_parts : msk .parts = false) (w_fe : msk .fe = false) (w_io : msk .io = false)
    (w_hp : msk .hp = false) (w_evt : msk .evt = false) (w_ream : msk .ream = false) (w_posts : msk .posts = false)
    (w_tiles : msk .tiles = false) (w_tiers : msk .tiers = false) (w_gat : msk .gat = false)
    (w_rel : msk .rel = false) :
    Same msk s0 (State.restoreRun s k c log p replica) := by
  unfold State.restoreRun
  repeat' first
    | with_reducible first
      | assumption | exact Same.refl _ _ | refine Same.each ?_ _ _ (fun _ _ _ => ?_) | apply State.setCtr_same
      | apply State.setPhase_same | apply State.closeAdmission_same | apply State.replayAll_same
      | apply State.restoreFail_same | apply State.restoreRest_same | apply Same.ite | apply SameParts.same
      | apply SameParts.upd_gat | refine Same.of_fst (by assumption) ?_ | refine Same.of_fst3 (by assumption) ?_
      | intro _
    | dsimp only | simp only [same_mk] | split

theorem State.askReplica_same {msk : Field → Bool} {s0 s : State} (h0 : Same msk s0 s) (c : Cmd)
    (w_io : msk .io = false) :
    Same msk s0 (State.askReplica s c) := by
  unfold State.askReplica
  repeat' first
    | with_reducible first
      | assumption | exact Same.refl _ _ | apply State.issue_same | apply Same.ite
    | dsimp only | split

theorem execRestore_same {msk : Field → Bool} (s : State) (ring : Nat) (seq : Nat) (replica : List Bytes)
    (w_free : msk .free = false) (w_mem : msk .mem = false) (w_ctr : msk .ctr = false) (w_parts : msk .parts = false)
    (w_fe : msk .fe = false) (w_io : msk .io = false) (w_hp : msk .hp = false) (w_evt : msk .evt = false)
    (w_ream : msk .ream = false) (w_posts : msk .posts = false) (w_tiles : msk .tiles = false)
    (w_tiers : msk .tiers = false) (w_gat : msk .gat = false) (w_rel : msk .rel = false) :
    ∃ t, execRestore ring seq replica s = .next t ∧ Same msk s t := by
  refine ⟨_, rfl, ?_⟩
  repeat' first
    | with_reducible first
      | assumption | exact Same.refl _ _ | apply State.finish_same | apply State.front_same
      | apply State.restoreReject_same | apply State.restoreRun_same | apply State.askReplica_same | apply Same.ite
      | intro _
    | dsimp only | split

theorem State.mbxEnd_same {msk : Field → Bool} {s0 s : State} (h0 : Same msk s0 s) (status : Nat) (out : Bytes)
    (w_sec : msk .sec = false) :
    Same msk s0 (State.mbxEnd s status out) := by
  unfold State.mbxEnd
  repeat' first
    | with_reducible first
      | assumption | exact Same.refl _ _ | apply SameParts.same | apply SameParts.upd_sec
    | dsimp only | simp only [same_mk] | split

theorem State.mbxLong_same {msk : Field → Bool} {s0 s : State} (h0 : Same msk s0 s) (code : Nat) (status : Nat)
    (out : Bytes) (img : Bytes) (w_sec : msk .sec = false) :
    Same msk s0 (State.mbxLong s code status out img) := by
  unfold State.mbxLong
  repeat' first
    | with_reducible first
      | assumption | exact Same.refl _ _ | apply SameParts.same | apply SameParts.upd_sec
    | dsimp only | simp only [same_mk] | split

theorem State.mailbox_same {msk : Field → Bool} {s0 s : State} (h0 : Same msk s0 s) (len : Nat) (go : State → State)
    (hgo : ∀ t, Same msk s0 t → Same msk s0 (go t)) (w_sec : msk .sec = false) :
    Same msk s0 (State.mailbox s len go) := by
  unfold State.mailbox
  repeat' first
    | with_reducible first
      | assumption | exact Same.refl _ _ | apply hgo | apply State.mbxEnd_same | apply Same.ite | apply SameParts.same
      | apply SameParts.upd_sec | intro _
    | dsimp only | simp only [same_mk] | split

theorem execGetInfo_same {msk : Field → Bool} (s : State) (w_sec : msk .sec = false) :
    ∃ t, execGetInfo s = .next t ∧ Same msk s t := by
  refine ⟨_, rfl, ?_⟩
  repeat' first
    | with_reducible first
      | assumption | exact Same.refl _ _ | apply State.mbxEnd_same | apply State.mailbox_same | intro _
    | dsimp only | split

theorem execGetCert_same {msk : Field → Bool} (s : State) (w_sec : msk .sec = false) :
    ∃ t, execGetCert s = .next t ∧ Same msk s t := by
  refine ⟨_, rfl, ?_⟩
  repeat' first
    | with_reducible first
      | assumption | exact Same.refl _ _ | apply State.mbxEnd_same | apply State.mailbox_same | apply Same.ite
      | intro _
    | dsimp only | split

theorem execGetLog_same {msk : Field → Bool} (s : State) (w_sec : msk .sec = false) :
    ∃ t, execGetLog s = .next t ∧ Same msk s t := by
  refine ⟨_, rfl, ?_⟩
  repeat' first
    | with_reducible first
      | assumption | exact Same.refl _ _ | apply State.mbxEnd_same | apply State.mailbox_same | apply Same.ite
      | intro _
    | dsimp only | split

theorem execQuote_same {msk : Field → Bool} (s : State) (w_free : msk .free = false) (w_sec : msk .sec = false) :
    ∃ t, execQuote s = .next t ∧ Same msk s t := by
  refine ⟨_, rfl, ?_⟩
  repeat' first
    | with_reducible first
      | assumption | exact Same.refl _ _ | apply State.freeVals_same | apply State.mbxLong_same
      | apply State.mailbox_same | refine Same.of_snd (by assumption) ?_ | intro _
    | dsimp only | split

theorem execFwStage_same {msk : Field → Bool} (s : State) (img : Rd) (w_sec : msk .sec = false) :
    ∃ t, execFwStage img s = .next t ∧ Same msk s t := by
  refine ⟨_, rfl, ?_⟩
  repeat' first
    | with_reducible first
      | assumption | exact Same.refl _ _ | apply State.mbxEnd_same | apply State.mbxLong_same
      | apply State.mailbox_same | apply Same.ite | intro _
    | dsimp only | split

theorem execFwCommit_same {msk : Field → Bool} (s : State) (w_sec : msk .sec = false) :
    ∃ t, execFwCommit s = .next t ∧ Same msk s t := by
  refine ⟨_, rfl, ?_⟩
  repeat' first
    | with_reducible first
      | assumption | exact Same.refl _ _ | apply State.mbxEnd_same | apply State.mbxLong_same
      | apply State.mailbox_same | apply Same.ite | intro _
    | dsimp only | split

theorem execFwAbandon_same {msk : Field → Bool} (s : State) (w_sec : msk .sec = false) :
    ∃ t, execFwAbandon s = .next t ∧ Same msk s t := by
  refine ⟨_, rfl, ?_⟩
  repeat' first
    | with_reducible first
      | assumption | exact Same.refl _ _ | apply State.mbxEnd_same | apply State.mailbox_same | apply SameParts.same
      | apply SameParts.upd_sec | intro _
    | dsimp only | simp only [same_mk] | split

theorem execPackInstall_same {msk : Field → Bool} (s : State) (img : Rd) (w_sec : msk .sec = false) :
    ∃ t, execPackInstall img s = .next t ∧ Same msk s t := by
  refine ⟨_, rfl, ?_⟩
  repeat' first
    | with_reducible first
      | assumption | exact Same.refl _ _ | apply State.mbxEnd_same | apply State.mbxLong_same
      | apply State.mailbox_same | apply Same.ite | intro _
    | dsimp only | split

theorem State.stageDone_same {msk : Field → Bool} {s0 s : State} (h0 : Same msk s0 s) (w_sec : msk .sec = false) :
    Same msk s0 (State.stageDone s) := by
  unfold State.stageDone
  repeat' first
    | with_reducible first
      | assumption | exact Same.refl _ _ | apply Same.ite | apply SameParts.same | apply SameParts.upd_sec
    | dsimp only | simp only [same_mk] | split

theorem State.packDone_same {msk : Field → Bool} {s0 s : State} (h0 : Same msk s0 s) (w_rel : msk .rel = false)
    (w_sec : msk .sec = false) :
    Same msk s0 (State.packDone s) := by
  unfold State.packDone
  repeat' first
    | with_reducible first
      | assumption | exact Same.refl _ _ | refine Same.foldl ?_ _ _ (fun _ _ _ => ?_)
      | refine Same.foldl_fst _ _ (fun _ _ _ => ?_) _ ?_ | refine Same.foldl_snd _ _ (fun _ _ _ => ?_) _ ?_
      | apply State.extend_same | apply Same.ite | apply SameParts.same | apply SameParts.upd_rel_sec
      | refine Same.of_fst (by assumption) ?_ | refine Same.of_snd (by assumption) ?_ | intro _
    | dsimp only | simp only [same_mk] | split

theorem State.blow_same {msk : Field → Bool} {s0 s : State} (h0 : Same msk s0 s) (n : Nat)
    (w_fuse : msk .fuse = false) :
    Same msk s0 (State.blow s n) := by
  unfold State.blow
  repeat' first
    | with_reducible first
      | assumption | exact Same.refl _ _ | apply SameParts.same | apply SameParts.upd_fuse
    | dsimp only | simp only [same_mk] | split

theorem State.longDone_same {msk : Field → Bool} {s0 s : State} (h0 : Same msk s0 s) (w_fuse : msk .fuse = false)
    (w_rel : msk .rel = false) (w_sec : msk .sec = false) :
    Same msk s0 (State.longDone s) := by
  unfold State.longDone
  repeat' first
    | with_reducible first
      | assumption | exact Same.refl _ _ | apply State.stageDone_same | apply State.packDone_same
      | apply State.blow_same | apply Same.ite
    | dsimp only | split

theorem execMailboxCommandDone_same {msk : Field → Bool} (s : State) (w_fuse : msk .fuse = false)
    (w_rel : msk .rel = false) (w_sec : msk .sec = false) :
    ∃ t, execMailboxCommandDone s = .next t ∧ Same msk s t := by
  refine ⟨_, rfl, ?_⟩
  repeat' first
    | with_reducible first
      | assumption | exact Same.refl _ _ | apply State.mbxEnd_same | apply State.longDone_same | apply Same.ite
    | dsimp only | split

theorem State.measureBoot_same {msk : Field → Bool} {s0 s : State} (h0 : Same msk s0 s) (w_sec : msk .sec = false) :
    Same msk s0 (State.measureBoot s) := by
  unfold State.measureBoot
  repeat' first
    | with_reducible first
      | assumption | exact Same.refl _ _ | refine Same.each ?_ _ _ (fun _ _ _ => ?_) | apply State.extend_same
      | apply Same.ite | apply SameParts.same | apply SameParts.upd_sec | intro _
    | dsimp only | simp only [same_mk] | split

theorem State.bootFrom_same {msk : Field → Bool} {s0 s : State} (h0 : Same msk s0 s) (slot : Nat)
    (w_pwr : msk .pwr = false) (w_sec : msk .sec = false) :
    Same msk s0 (State.bootFrom s slot) := by
  unfold State.bootFrom
  repeat' first
    | with_reducible first
      | assumption | exact Same.refl _ _ | apply State.measureBoot_same | apply Same.ite | apply SameParts.same
      | apply SameParts.upd_pwr_sec | apply SameParts.upd_sec
    | dsimp only | simp only [same_mk] | split

theorem State.retestT1_same {msk : Field → Bool} {s0 s : State} (h0 : Same msk s0 s) (lost : List (Nat × Nat))
    (w_free : msk .free = false) (w_ctr : msk .ctr = false) (w_parts : msk .parts = false) (w_io : msk .io = false)
    (w_hp : msk .hp = false) (w_evt : msk .evt = false) (w_tiers : msk .tiers = false) :
    Same msk s0 (State.retestT1 s lost) := by
  unfold State.retestT1
  repeat' first
    | with_reducible first
      | assumption | exact Same.refl _ _ | refine Same.each ?_ _ _ (fun _ _ _ => ?_) | apply State.freeVal_same
      | apply State.loseT1_same | apply Same.ite | refine Same.of_snd (by assumption) ?_ | intro _
    | dsimp only | split

theorem State.kept_same {msk : Field → Bool} {s0 s : State} (h0 : Same msk s0 s) (w_mem : msk .mem = false)
    (w_clk : msk .clk = false) (w_ctr : msk .ctr = false) (w_tel : msk .tel = false) (w_regs : msk .regs = false)
    (w_parts : msk .parts = false) (w_fe : msk .fe = false) (w_io : msk .io = false) (w_hp : msk .hp = false)
    (w_evt : msk .evt = false) (w_dbg : msk .dbg = false) (w_ream : msk .ream = false) (w_posts : msk .posts = false)
    (w_net : msk .net = false) (w_slots : msk .slots = false) (w_tiles : msk .tiles = false)
    (w_felt : msk .felt = false) (w_tiers : msk .tiers = false) (w_gat : msk .gat = false) (w_pwr : msk .pwr = false)
    (w_rel : msk .rel = false) (w_ingests : msk .ingests = false) (w_sec : msk .sec = false) :
    Same msk s0 (State.kept s) := by
  unfold State.kept
  repeat' first
    | with_reducible first
      | assumption | exact Same.refl _ _ | apply SameParts.same
      | apply SameParts.upd_mem_clk_ctr_tel_regs_parts_fe_io_hp_evt_dbg_ream_posts_net_slots_tiles_felt_tiers_gat_pwr_rel_ingests_sec
    | dsimp only | simp only [same_mk] | split

theorem State.breakCommit_same {msk : Field → Bool} {s0 s : State} (h0 : Same msk s0 s) (w_free : msk .free = false)
    (w_fuse : msk .fuse = false) :
    Same msk s0 (State.breakCommit s) := by
  unfold State.breakCommit
  repeat' first
    | with_reducible first
      | assumption | exact Same.refl _ _ | apply State.freeVal_same | apply State.blow_same | apply Same.ite
      | refine Same.of_snd (by assumption) ?_
    | dsimp only | split

theorem State.railsOff_same {msk : Field → Bool} {s0 s : State} (h0 : Same msk s0 s) (w_mem : msk .mem = false)
    (w_clk : msk .clk = false) (w_ctr : msk .ctr = false) (w_tel : msk .tel = false) (w_regs : msk .regs = false)
    (w_parts : msk .parts = false) (w_fe : msk .fe = false) (w_io : msk .io = false) (w_hp : msk .hp = false)
    (w_evt : msk .evt = false) (w_dbg : msk .dbg = false) (w_ream : msk .ream = false) (w_posts : msk .posts = false)
    (w_net : msk .net = false) (w_slots : msk .slots = false) (w_tiles : msk .tiles = false)
    (w_felt : msk .felt = false) (w_tiers : msk .tiers = false) (w_gat : msk .gat = false) (w_pwr : msk .pwr = false)
    (w_mgmt : msk .mgmt = false) (w_rel : msk .rel = false) (w_ingests : msk .ingests = false)
    (w_sec : msk .sec = false) :
    Same msk s0 (State.railsOff s) := by
  unfold State.railsOff
  repeat' first
    | with_reducible first
      | assumption | exact Same.refl _ _ | apply State.pldmIf_same | apply State.kept_same | apply SameParts.same
      | apply SameParts.upd_regs_net_tiers_pwr
    | dsimp only | simp only [same_mk] | split

theorem State.coldFrom_same {msk : Field → Bool} {s0 s : State} (h0 : Same msk s0 s) (slot : Nat)
    (w_free : msk .free = false) (w_fuse : msk .fuse = false) (w_mem : msk .mem = false) (w_clk : msk .clk = false)
    (w_ctr : msk .ctr = false) (w_tel : msk .tel = false) (w_regs : msk .regs = false) (w_parts : msk .parts = false)
    (w_fe : msk .fe = false) (w_io : msk .io = false) (w_hp : msk .hp = false) (w_evt : msk .evt = false)
    (w_dbg : msk .dbg = false) (w_ream : msk .ream = false) (w_posts : msk .posts = false) (w_net : msk .net = false)
    (w_slots : msk .slots = false) (w_tiles : msk .tiles = false) (w_felt : msk .felt = false)
    (w_tiers : msk .tiers = false) (w_gat : msk .gat = false) (w_pwr : msk .pwr = false) (w_mgmt : msk .mgmt = false)
    (w_rel : msk .rel = false) (w_ingests : msk .ingests = false) (w_sec : msk .sec = false) :
    Same msk s0 (State.coldFrom s slot) := by
  unfold State.coldFrom
  repeat' first
    | with_reducible first
      | assumption | exact Same.refl _ _ | apply State.freeVal_same | apply State.raise_same
      | apply State.askWake_same | apply State.pldm_same | apply State.pldmIf_same | apply State.bootFrom_same
      | apply State.retestT1_same | apply State.kept_same | apply State.breakCommit_same | apply Same.ite
      | apply SameParts.same | apply SameParts.upd_net_pwr_rel_sec | apply SameParts.upd_tiers
      | apply SameParts.upd_net_tiers_pwr_rel_sec | refine Same.of_snd (by assumption) ?_
    | dsimp only | simp only [same_mk] | split

theorem State.coldBoot_same {msk : Field → Bool} {s0 s : State} (h0 : Same msk s0 s) (w_free : msk .free = false)
    (w_fuse : msk .fuse = false) (w_mem : msk .mem = false) (w_clk : msk .clk = false) (w_ctr : msk .ctr = false)
    (w_tel : msk .tel = false) (w_regs : msk .regs = false) (w_parts : msk .parts = false) (w_fe : msk .fe = false)
    (w_io : msk .io = false) (w_hp : msk .hp = false) (w_evt : msk .evt = false) (w_dbg : msk .dbg = false)
    (w_ream : msk .ream = false) (w_posts : msk .posts = false) (w_net : msk .net = false)
    (w_slots : msk .slots = false) (w_tiles : msk .tiles = false) (w_felt : msk .felt = false)
    (w_tiers : msk .tiers = false) (w_gat : msk .gat = false) (w_pwr : msk .pwr = false) (w_mgmt : msk .mgmt = false)
    (w_rel : msk .rel = false) (w_ingests : msk .ingests = false) (w_sec : msk .sec = false) :
    Same msk s0 (State.coldBoot s) := by
  unfold State.coldBoot
  repeat' first
    | with_reducible first
      | assumption | exact Same.refl _ _ | apply State.coldFrom_same | apply Same.ite
    | dsimp only | split

theorem execColdReset_same {msk : Field → Bool} (s : State) (value : Word) (w_free : msk .free = false)
    (w_fuse : msk .fuse = false) (w_mem : msk .mem = false) (w_clk : msk .clk = false) (w_ctr : msk .ctr = false)
    (w_tel : msk .tel = false) (w_regs : msk .regs = false) (w_parts : msk .parts = false) (w_fe : msk .fe = false)
    (w_io : msk .io = false) (w_hp : msk .hp = false) (w_evt : msk .evt = false) (w_dbg : msk .dbg = false)
    (w_ream : msk .ream = false) (w_posts : msk .posts = false) (w_net : msk .net = false)
    (w_slots : msk .slots = false) (w_tiles : msk .tiles = false) (w_felt : msk .felt = false)
    (w_tiers : msk .tiers = false) (w_gat : msk .gat = false) (w_pwr : msk .pwr = false) (w_mgmt : msk .mgmt = false)
    (w_rel : msk .rel = false) (w_ingests : msk .ingests = false) (w_sec : msk .sec = false) :
    ∃ t, execColdReset value s = .next t ∧ Same msk s t := by
  refine ⟨_, rfl, ?_⟩
  repeat' first
    | with_reducible first
      | assumption | exact Same.refl _ _ | apply State.coldBoot_same | apply Same.ite
    | dsimp only | split

theorem execBootFallback_same {msk : Field → Bool} (s : State) (w_mem : msk .mem = false) (w_clk : msk .clk = false)
    (w_ctr : msk .ctr = false) (w_tel : msk .tel = false) (w_regs : msk .regs = false) (w_parts : msk .parts = false)
    (w_fe : msk .fe = false) (w_io : msk .io = false) (w_hp : msk .hp = false) (w_evt : msk .evt = false)
    (w_dbg : msk .dbg = false) (w_ream : msk .ream = false) (w_posts : msk .posts = false) (w_net : msk .net = false)
    (w_slots : msk .slots = false) (w_tiles : msk .tiles = false) (w_felt : msk .felt = false)
    (w_tiers : msk .tiers = false) (w_gat : msk .gat = false) (w_pwr : msk .pwr = false) (w_mgmt : msk .mgmt = false)
    (w_rel : msk .rel = false) (w_ingests : msk .ingests = false) (w_sec : msk .sec = false) :
    ∃ t, execBootFallback s = .next t ∧ Same msk s t := by
  refine ⟨_, rfl, ?_⟩
  repeat' first
    | with_reducible first
      | assumption | exact Same.refl _ _ | apply State.pldmIf_same | apply State.setPst_same
      | apply State.measureBoot_same | apply State.railsOff_same | apply Same.ite | apply SameParts.same
      | apply SameParts.upd_sec
    | dsimp only | simp only [same_mk] | split

theorem State.resetPosts_same {msk : Field → Bool} {s0 s : State} (h0 : Same msk s0 s) (w_free : msk .free = false)
    (w_mem : msk .mem = false) (w_ctr : msk .ctr = false) (w_parts : msk .parts = false) (w_fe : msk .fe = false)
    (w_io : msk .io = false) (w_hp : msk .hp = false) (w_evt : msk .evt = false) (w_ream : msk .ream = false)
    (w_posts : msk .posts = false) (w_slots : msk .slots = false) (w_tiles : msk .tiles = false)
    (w_tiers : msk .tiers = false) (w_gat : msk .gat = false) (w_rel : msk .rel = false) :
    Same msk s0 (State.resetPosts s) := by
  unfold State.resetPosts
  repeat' first
    | with_reducible first
      | assumption | exact Same.refl _ _ | refine Same.each ?_ _ _ (fun _ _ _ => ?_) | apply State.modPost_same
      | apply State.completePost_same | apply State.makeWrites_same | apply State.endUnadmitted_same | apply Same.ite
      | intro _
    | dsimp only | split

theorem State.resetAccepted_same {msk : Field → Bool} {s0 s : State} (h0 : Same msk s0 s) (w_fe : msk .fe = false) :
    Same msk s0 (State.resetAccepted s) := by
  unfold State.resetAccepted
  repeat' first
    | with_reducible first
      | assumption | exact Same.refl _ _ | refine Same.each ?_ _ _ (fun _ _ _ => ?_) | apply State.finish_same
      | intro _
    | dsimp only | split

theorem State.resetJob_same {msk : Field → Bool} {s0 s : State} (h0 : Same msk s0 s) (w_fe : msk .fe = false)
    (w_ream : msk .ream = false) :
    Same msk s0 (State.resetJob s) := by
  unfold State.resetJob
  repeat' first
    | with_reducible first
      | assumption | exact Same.refl _ _ | apply State.finish_same | apply State.jobDone_same | apply Same.ite
    | dsimp only | split

theorem State.resetDurable_same {msk : Field → Bool} {s0 s : State} (h0 : Same msk s0 s) (w_fe : msk .fe = false)
    (w_rel : msk .rel = false) :
    Same msk s0 (State.resetDurable s) := by
  unfold State.resetDurable
  repeat' first
    | with_reducible first
      | assumption | exact Same.refl _ _ | apply State.finish_same | apply SameParts.same | apply SameParts.upd_rel
    | dsimp only | simp only [same_mk] | split

theorem State.stopIngests_same {msk : Field → Bool} {s0 s : State} (h0 : Same msk s0 s) (pick : Cmd → Bool) (st : Nat)
    (w_mem : msk .mem = false) (w_fe : msk .fe = false) (w_tiers : msk .tiers = false)
    (w_ingests : msk .ingests = false) :
    Same msk s0 (State.stopIngests s pick st) := by
  unfold State.stopIngests
  repeat' first
    | with_reducible first
      | assumption | exact Same.refl _ _ | refine Same.each ?_ _ _ (fun _ _ _ => ?_) | apply State.ingestEnd_same
      | apply State.zeroDst_same | apply Same.ite | intro _
    | dsimp only | split

theorem State.resetRing_same {msk : Field → Bool} {s0 s : State} (h0 : Same msk s0 s) (n : Nat)
    (w_ctr : msk .ctr = false) (w_fe : msk .fe = false) (w_io : msk .io = false) (w_posts : msk .posts = false) :
    Same msk s0 (State.resetRing s n) := by
  unfold State.resetRing
  repeat' first
    | with_reducible first
      | assumption | exact Same.refl _ _ | apply State.setRing_same | apply State.arm_same | apply State.dropDesc_same
      | apply Same.ite
    | dsimp only | split

theorem State.resetLines_same {msk : Field → Bool} {s0 s : State} (h0 : Same msk s0 s) (malformed : Bool)
    (w_mem : msk .mem = false) (w_ctr : msk .ctr = false) (w_ream : msk .ream = false) (w_tiles : msk .tiles = false)
    :
    Same msk s0 (State.resetLines s malformed) := by
  unfold State.resetLines
  repeat' first
    | with_reducible first
      | assumption | exact Same.refl _ _ | refine Same.each ?_ _ _ (fun _ _ _ => ?_) | apply State.modTile_same
      | apply State.reloadTile_same | apply Same.ite | intro _
    | dsimp only | split

theorem State.noteReset_same {msk : Field → Bool} {s0 s : State} (h0 : Same msk s0 s) (cause : Nat)
    (w_free : msk .free = false) (w_ctr : msk .ctr = false) (w_parts : msk .parts = false) (w_io : msk .io = false)
    (w_hp : msk .hp = false) (w_evt : msk .evt = false) (w_rel : msk .rel = false) :
    Same msk s0 (State.noteReset s cause) := by
  unfold State.noteReset
  repeat' first
    | with_reducible first
      | assumption | exact Same.refl _ _ | apply State.count_same | apply State.causeAll_same | apply Same.ite
      | apply SameParts.same | apply SameParts.upd_rel
    | dsimp only | simp only [same_mk] | split

theorem State.resetClocks_same {msk : Field → Bool} {s0 s : State} (h0 : Same msk s0 s) (w_clk : msk .clk = false)
    (w_ream : msk .ream = false) (w_tiles : msk .tiles = false) (w_rel : msk .rel = false) :
    Same msk s0 (State.resetClocks s) := by
  unfold State.resetClocks
  repeat' first
    | with_reducible first
      | assumption | exact Same.refl _ _ | refine Same.foldl ?_ _ _ (fun _ _ _ => ?_)
      | refine Same.foldl_fst _ _ (fun _ _ _ => ?_) _ ?_ | refine Same.foldl_snd _ _ (fun _ _ _ => ?_) _ ?_
      | apply SameParts.same | apply SameParts.upd_clk_ream_tiles_rel | refine Same.of_fst (by assumption) ?_
      | refine Same.of_snd (by assumption) ?_ | intro _
    | dsimp only | simp only [same_mk] | split

theorem State.resume_same {msk : Field → Bool} {s0 s : State} (h0 : Same msk s0 s) (w_free : msk .free = false)
    (w_mem : msk .mem = false) (w_ctr : msk .ctr = false) (w_parts : msk .parts = false) (w_fe : msk .fe = false)
    (w_io : msk .io = false) (w_hp : msk .hp = false) (w_evt : msk .evt = false) (w_ream : msk .ream = false)
    (w_posts : msk .posts = false) (w_tiles : msk .tiles = false) (w_felt : msk .felt = false)
    (w_tiers : msk .tiers = false) (w_gat : msk .gat = false) (w_pwr : msk .pwr = false) (w_rel : msk .rel = false)
    (w_sec : msk .sec = false) :
    Same msk s0 (State.resume s) := by
  unfold State.resume
  repeat' first
    | with_reducible first
      | assumption | exact Same.refl _ _ | apply State.degradedNext_same | apply State.boundary_same | apply Same.ite
      | apply SameParts.same | apply SameParts.upd_ream
    | dsimp only | simp only [same_mk] | split

theorem State.resetWrites_same {msk : Field → Bool} {s0 s : State} (h0 : Same msk s0 s) (w_free : msk .free = false)
    (w_ctr : msk .ctr = false) (w_parts : msk .parts = false) (w_fe : msk .fe = false) (w_io : msk .io = false)
    (w_hp : msk .hp = false) (w_evt : msk .evt = false) (w_posts : msk .posts = false) :
    Same msk s0 (State.resetWrites s) := by
  unfold State.resetWrites
  repeat' first
    | with_reducible first
      | assumption | exact Same.refl _ _ | apply State.count_same | apply State.dropXfers_same
    | dsimp only | split

theorem State.resetWork_same {msk : Field → Bool} {s0 s : State} (h0 : Same msk s0 s) (malformed : Bool)
    (w_free : msk .free = false) (w_mem : msk .mem = false) (w_ctr : msk .ctr = false) (w_parts : msk .parts = false)
    (w_fe : msk .fe = false) (w_io : msk .io = false) (w_hp : msk .hp = false) (w_evt : msk .evt = false)
    (w_ream : msk .ream = false) (w_posts : msk .posts = false) (w_slots : msk .slots = false)
    (w_tiles : msk .tiles = false) (w_felt : msk .felt = false) (w_tiers : msk .tiers = false)
    (w_gat : msk .gat = false) (w_rel : msk .rel = false) (w_ingests : msk .ingests = false) :
    Same msk s0 (State.resetWork s malformed) := by
  unfold State.resetWork
  repeat' first
    | with_reducible first
      | assumption | exact Same.refl _ _ | refine Same.each ?_ _ _ (fun _ _ _ => ?_) | apply State.freeOldVersion_same
      | apply State.abandonMoves_same | apply State.resetPosts_same | apply State.resetAccepted_same
      | apply State.resetJob_same | apply State.resetDurable_same | apply State.stopIngests_same
      | apply State.resetRing_same | apply State.resetLines_same | apply State.resetWrites_same | apply SameParts.same
      | apply SameParts.upd_ream_tiles_felt_tiers_gat | intro _
    | dsimp only | simp only [same_mk] | split

theorem State.deviceReset_same {msk : Field → Bool} {s0 s : State} (h0 : Same msk s0 s) (cause : Nat)
    (w_free : msk .free = false) (w_mem : msk .mem = false) (w_clk : msk .clk = false) (w_ctr : msk .ctr = false)
    (w_parts : msk .parts = false) (w_fe : msk .fe = false) (w_io : msk .io = false) (w_hp : msk .hp = false)
    (w_evt : msk .evt = false) (w_ream : msk .ream = false) (w_posts : msk .posts = false) (w_net : msk .net = false)
    (w_slots : msk .slots = false) (w_tiles : msk .tiles = false) (w_felt : msk .felt = false)
    (w_tiers : msk .tiers = false) (w_gat : msk .gat = false) (w_pwr : msk .pwr = false) (w_rel : msk .rel = false)
    (w_ingests : msk .ingests = false) (w_sec : msk .sec = false) :
    Same msk s0 (State.deviceReset s cause) := by
  unfold State.deviceReset
  repeat' first
    | with_reducible first
      | assumption | exact Same.refl _ _ | apply State.resendAll_same | apply State.noteReset_same
      | apply State.resetClocks_same | apply State.resume_same | apply State.resetWork_same | apply Same.ite
    | dsimp only | split

theorem execDevReset_same {msk : Field → Bool} (s : State) (value : Word) (w_free : msk .free = false)
    (w_mem : msk .mem = false) (w_clk : msk .clk = false) (w_ctr : msk .ctr = false) (w_parts : msk .parts = false)
    (w_fe : msk .fe = false) (w_io : msk .io = false) (w_hp : msk .hp = false) (w_evt : msk .evt = false)
    (w_ream : msk .ream = false) (w_posts : msk .posts = false) (w_net : msk .net = false)
    (w_slots : msk .slots = false) (w_tiles : msk .tiles = false) (w_felt : msk .felt = false)
    (w_tiers : msk .tiers = false) (w_gat : msk .gat = false) (w_pwr : msk .pwr = false) (w_rel : msk .rel = false)
    (w_ingests : msk .ingests = false) (w_sec : msk .sec = false) :
    ∃ t, execDevReset value s = .next t ∧ Same msk s t := by
  refine ⟨_, rfl, ?_⟩
  repeat' first
    | with_reducible first
      | assumption | exact Same.refl _ _ | apply State.deviceReset_same | apply Same.ite
    | dsimp only | split

theorem State.watchdog_same {msk : Field → Bool} {s0 s : State} (h0 : Same msk s0 s) (code : Nat) (fires : Bool)
    (w_free : msk .free = false) (w_mem : msk .mem = false) (w_clk : msk .clk = false) (w_ctr : msk .ctr = false)
    (w_parts : msk .parts = false) (w_fe : msk .fe = false) (w_io : msk .io = false) (w_hp : msk .hp = false)
    (w_evt : msk .evt = false) (w_ream : msk .ream = false) (w_posts : msk .posts = false) (w_net : msk .net = false)
    (w_slots : msk .slots = false) (w_tiles : msk .tiles = false) (w_felt : msk .felt = false)
    (w_tiers : msk .tiers = false) (w_gat : msk .gat = false) (w_pwr : msk .pwr = false) (w_rel : msk .rel = false)
    (w_ingests : msk .ingests = false) (w_sec : msk .sec = false) :
    Same msk s0 (State.watchdog s code fires) := by
  unfold State.watchdog
  repeat' first
    | with_reducible first
      | assumption | exact Same.refl _ _ | apply State.deviceReset_same | apply Same.ite
    | dsimp only | split

theorem execWatchdogTimeoutEnd_same {msk : Field → Bool} (s : State) (post : Nat) (w_free : msk .free = false)
    (w_mem : msk .mem = false) (w_clk : msk .clk = false) (w_ctr : msk .ctr = false) (w_parts : msk .parts = false)
    (w_fe : msk .fe = false) (w_io : msk .io = false) (w_hp : msk .hp = false) (w_evt : msk .evt = false)
    (w_ream : msk .ream = false) (w_posts : msk .posts = false) (w_net : msk .net = false)
    (w_slots : msk .slots = false) (w_tiles : msk .tiles = false) (w_felt : msk .felt = false)
    (w_tiers : msk .tiers = false) (w_gat : msk .gat = false) (w_pwr : msk .pwr = false) (w_rel : msk .rel = false)
    (w_ingests : msk .ingests = false) (w_sec : msk .sec = false) :
    ∃ t, execWatchdogTimeoutEnd post s = .next t ∧ Same msk s t := by
  refine ⟨_, rfl, ?_⟩
  repeat' first
    | with_reducible first
      | assumption | exact Same.refl _ _ | apply State.watchdog_same
    | dsimp only | split

theorem execWatchdogContext_same {msk : Field → Bool} (s : State) (tile : Nat) (ctx : Nat)
    (w_free : msk .free = false) (w_mem : msk .mem = false) (w_clk : msk .clk = false) (w_ctr : msk .ctr = false)
    (w_parts : msk .parts = false) (w_fe : msk .fe = false) (w_io : msk .io = false) (w_hp : msk .hp = false)
    (w_evt : msk .evt = false) (w_ream : msk .ream = false) (w_posts : msk .posts = false) (w_net : msk .net = false)
    (w_slots : msk .slots = false) (w_tiles : msk .tiles = false) (w_felt : msk .felt = false)
    (w_tiers : msk .tiers = false) (w_gat : msk .gat = false) (w_pwr : msk .pwr = false) (w_rel : msk .rel = false)
    (w_ingests : msk .ingests = false) (w_sec : msk .sec = false) :
    ∃ t, execWatchdogContext tile ctx s = .next t ∧ Same msk s t := by
  refine ⟨_, rfl, ?_⟩
  repeat' first
    | with_reducible first
      | assumption | exact Same.refl _ _ | apply State.watchdog_same
    | dsimp only | split

theorem execWatchdogGather_same {msk : Field → Bool} (s : State) (tile : Nat) (post : Nat)
    (w_free : msk .free = false) (w_mem : msk .mem = false) (w_clk : msk .clk = false) (w_ctr : msk .ctr = false)
    (w_parts : msk .parts = false) (w_fe : msk .fe = false) (w_io : msk .io = false) (w_hp : msk .hp = false)
    (w_evt : msk .evt = false) (w_ream : msk .ream = false) (w_posts : msk .posts = false) (w_net : msk .net = false)
    (w_slots : msk .slots = false) (w_tiles : msk .tiles = false) (w_felt : msk .felt = false)
    (w_tiers : msk .tiers = false) (w_gat : msk .gat = false) (w_pwr : msk .pwr = false) (w_rel : msk .rel = false)
    (w_ingests : msk .ingests = false) (w_sec : msk .sec = false) :
    ∃ t, execWatchdogGather tile post s = .next t ∧ Same msk s t := by
  refine ⟨_, rfl, ?_⟩
  repeat' first
    | with_reducible first
      | assumption | exact Same.refl _ _ | apply State.watchdog_same
    | dsimp only | split

theorem execWatchdogAdmit_same {msk : Field → Bool} (s : State) (w_free : msk .free = false)
    (w_mem : msk .mem = false) (w_clk : msk .clk = false) (w_ctr : msk .ctr = false) (w_parts : msk .parts = false)
    (w_fe : msk .fe = false) (w_io : msk .io = false) (w_hp : msk .hp = false) (w_evt : msk .evt = false)
    (w_ream : msk .ream = false) (w_posts : msk .posts = false) (w_net : msk .net = false)
    (w_slots : msk .slots = false) (w_tiles : msk .tiles = false) (w_felt : msk .felt = false)
    (w_tiers : msk .tiers = false) (w_gat : msk .gat = false) (w_pwr : msk .pwr = false) (w_rel : msk .rel = false)
    (w_ingests : msk .ingests = false) (w_sec : msk .sec = false) :
    ∃ t, execWatchdogAdmit s = .next t ∧ Same msk s t := by
  refine ⟨_, rfl, ?_⟩
  repeat' first
    | with_reducible first
      | assumption | exact Same.refl _ _ | apply State.watchdog_same | apply Same.ite
    | dsimp only | split

theorem execWatchdogMalformed_same {msk : Field → Bool} (s : State) (tile : Nat) (ctx : Nat)
    (w_free : msk .free = false) (w_mem : msk .mem = false) (w_clk : msk .clk = false) (w_ctr : msk .ctr = false)
    (w_parts : msk .parts = false) (w_fe : msk .fe = false) (w_io : msk .io = false) (w_hp : msk .hp = false)
    (w_evt : msk .evt = false) (w_ream : msk .ream = false) (w_posts : msk .posts = false) (w_net : msk .net = false)
    (w_slots : msk .slots = false) (w_tiles : msk .tiles = false) (w_felt : msk .felt = false)
    (w_tiers : msk .tiers = false) (w_gat : msk .gat = false) (w_pwr : msk .pwr = false) (w_rel : msk .rel = false)
    (w_ingests : msk .ingests = false) (w_sec : msk .sec = false) :
    ∃ t, execWatchdogMalformed tile ctx s = .next t ∧ Same msk s t := by
  refine ⟨_, rfl, ?_⟩
  repeat' first
    | with_reducible first
      | assumption | exact Same.refl _ _ | apply State.watchdog_same
    | dsimp only | split

theorem execWatchdogFrontEnd_same {msk : Field → Bool} (s : State) (w_free : msk .free = false)
    (w_mem : msk .mem = false) (w_clk : msk .clk = false) (w_ctr : msk .ctr = false) (w_parts : msk .parts = false)
    (w_fe : msk .fe = false) (w_io : msk .io = false) (w_hp : msk .hp = false) (w_evt : msk .evt = false)
    (w_ream : msk .ream = false) (w_posts : msk .posts = false) (w_net : msk .net = false)
    (w_slots : msk .slots = false) (w_tiles : msk .tiles = false) (w_felt : msk .felt = false)
    (w_tiers : msk .tiers = false) (w_gat : msk .gat = false) (w_pwr : msk .pwr = false) (w_rel : msk .rel = false)
    (w_ingests : msk .ingests = false) (w_sec : msk .sec = false) :
    ∃ t, execWatchdogFrontEnd s = .next t ∧ Same msk s t := by
  refine ⟨_, rfl, ?_⟩
  repeat' first
    | with_reducible first
      | assumption | exact Same.refl _ _ | apply State.watchdog_same
    | dsimp only | split

theorem execWatchdogCore_same {msk : Field → Bool} (s : State) (core : Nat) (w_free : msk .free = false)
    (w_mem : msk .mem = false) (w_clk : msk .clk = false) (w_ctr : msk .ctr = false) (w_parts : msk .parts = false)
    (w_fe : msk .fe = false) (w_io : msk .io = false) (w_hp : msk .hp = false) (w_evt : msk .evt = false)
    (w_ream : msk .ream = false) (w_posts : msk .posts = false) (w_net : msk .net = false)
    (w_slots : msk .slots = false) (w_tiles : msk .tiles = false) (w_felt : msk .felt = false)
    (w_tiers : msk .tiers = false) (w_gat : msk .gat = false) (w_pwr : msk .pwr = false) (w_rel : msk .rel = false)
    (w_ingests : msk .ingests = false) (w_sec : msk .sec = false) :
    ∃ t, execWatchdogCore core s = .next t ∧ Same msk s t := by
  refine ⟨_, rfl, ?_⟩
  repeat' first
    | with_reducible first
      | assumption | exact Same.refl _ _ | apply State.watchdog_same
    | dsimp only | split

theorem execD2dRetrain_same {msk : Field → Bool} (s : State) (w_free : msk .free = false) (w_mem : msk .mem = false)
    (w_clk : msk .clk = false) (w_ctr : msk .ctr = false) (w_parts : msk .parts = false) (w_fe : msk .fe = false)
    (w_io : msk .io = false) (w_hp : msk .hp = false) (w_evt : msk .evt = false) (w_ream : msk .ream = false)
    (w_posts : msk .posts = false) (w_net : msk .net = false) (w_slots : msk .slots = false)
    (w_tiles : msk .tiles = false) (w_felt : msk .felt = false) (w_tiers : msk .tiers = false)
    (w_gat : msk .gat = false) (w_pwr : msk .pwr = false) (w_rel : msk .rel = false)
    (w_ingests : msk .ingests = false) (w_sec : msk .sec = false) :
    ∃ t, execD2dRetrain s = .next t ∧ Same msk s t := by
  refine ⟨_, rfl, ?_⟩
  repeat' first
    | with_reducible first
      | assumption | exact Same.refl _ _ | apply State.count_same | apply State.deviceReset_same | apply Same.ite
      | apply SameParts.same | apply SameParts.upd_rel
    | dsimp only | simp only [same_mk] | split

theorem State.partReset_same {msk : Field → Bool} {s0 s : State} (h0 : Same msk s0 s) (p : Nat)
    (w_free : msk .free = false) (w_mem : msk .mem = false) (w_ctr : msk .ctr = false) (w_parts : msk .parts = false)
    (w_fe : msk .fe = false) (w_io : msk .io = false) (w_hp : msk .hp = false) (w_evt : msk .evt = false)
    (w_ream : msk .ream = false) (w_posts : msk .posts = false) (w_slots : msk .slots = false)
    (w_tiles : msk .tiles = false) (w_tiers : msk .tiers = false) (w_gat : msk .gat = false)
    (w_rel : msk .rel = false) (w_ingests : msk .ingests = false) :
    Same msk s0 (State.partReset s p) := by
  unfold State.partReset
  repeat' first
    | with_reducible first
      | assumption | exact Same.refl _ _ | refine Same.each ?_ _ _ (fun _ _ _ => ?_) | apply State.modPart_same
      | apply State.modPost_same | apply State.disableRing_same | apply State.endIdle_same | apply State.failPost_same
      | apply State.settle_same | apply State.stopIngests_same | apply Same.ite | intro _
    | dsimp only | split

theorem execPartReset_same {msk : Field → Bool} (s : State) (value : Word) (w_free : msk .free = false)
    (w_mem : msk .mem = false) (w_ctr : msk .ctr = false) (w_parts : msk .parts = false) (w_fe : msk .fe = false)
    (w_io : msk .io = false) (w_hp : msk .hp = false) (w_evt : msk .evt = false) (w_ream : msk .ream = false)
    (w_posts : msk .posts = false) (w_slots : msk .slots = false) (w_tiles : msk .tiles = false)
    (w_tiers : msk .tiers = false) (w_gat : msk .gat = false) (w_rel : msk .rel = false)
    (w_ingests : msk .ingests = false) :
    ∃ t, execPartReset value s = .next t ∧ Same msk s t := by
  refine ⟨_, rfl, ?_⟩
  repeat' first
    | with_reducible first
      | assumption | exact Same.refl _ _ | refine Same.each ?_ _ _ (fun _ _ _ => ?_) | apply State.partReset_same
      | intro _
    | dsimp only | split

theorem execPartResetFinish_same {msk : Field → Bool} (s : State) (part : Nat) (w_parts : msk .parts = false)
    (w_fe : msk .fe = false) (w_evt : msk .evt = false) :
    ∃ t, execPartResetFinish part s = .next t ∧ Same msk s t := by
  refine ⟨_, rfl, ?_⟩
  repeat' first
    | with_reducible first
      | assumption | exact Same.refl _ _ | refine Same.each ?_ _ _ (fun _ _ _ => ?_) | apply State.modPart_same
      | apply State.setSrc_same | apply State.endRing_same | apply Same.ite | intro _
    | dsimp only | split

theorem State.flushRecs_same {msk : Field → Bool} {s0 s : State} (h0 : Same msk s0 s) (w_free : msk .free = false)
    (w_ctr : msk .ctr = false) (w_posts : msk .posts = false) (w_gat : msk .gat = false) (w_rel : msk .rel = false) :
    Same msk s0 (State.flushRecs s) := by
  unfold State.flushRecs
  repeat' first
    | with_reducible first
      | assumption | exact Same.refl _ _ | apply State.putRec_same | apply State.flushRows_same | apply Same.ite
      | apply SameParts.same | apply SameParts.upd_gat | apply SameParts.upd_posts | apply SameParts.upd_posts_gat
    | dsimp only | simp only [same_mk] | split

theorem State.withVault_same {msk : Field → Bool} {s0 s : State} (h0 : Same msk s0 s) (v : Vault)
    (w_rel : msk .rel = false) :
    Same msk s0 (State.withVault s v) := by
  unfold State.withVault
  repeat' first
    | with_reducible first
      | assumption | exact Same.refl _ _ | apply State.setVault_same
    | dsimp only | split

theorem State.powerFail_same {msk : Field → Bool} {s0 s : State} (h0 : Same msk s0 s) (cause : Nat)
    (w_free : msk .free = false) (w_fuse : msk .fuse = false) (w_mem : msk .mem = false) (w_clk : msk .clk = false)
    (w_ctr : msk .ctr = false) (w_tel : msk .tel = false) (w_regs : msk .regs = false) (w_parts : msk .parts = false)
    (w_fe : msk .fe = false) (w_io : msk .io = false) (w_hp : msk .hp = false) (w_evt : msk .evt = false)
    (w_dbg : msk .dbg = false) (w_ream : msk .ream = false) (w_posts : msk .posts = false) (w_net : msk .net = false)
    (w_slots : msk .slots = false) (w_tiles : msk .tiles = false) (w_felt : msk .felt = false)
    (w_tiers : msk .tiers = false) (w_gat : msk .gat = false) (w_pwr : msk .pwr = false) (w_mgmt : msk .mgmt = false)
    (w_rel : msk .rel = false) (w_ingests : msk .ingests = false) (w_sec : msk .sec = false) :
    Same msk s0 (State.powerFail s cause) := by
  unfold State.powerFail
  repeat' first
    | with_reducible first
      | assumption | exact Same.refl _ _ | refine Same.each ?_ _ _ (fun _ _ _ => ?_) | apply State.makeWrites_same
      | apply State.setPst_same | apply State.setFlush_same | apply State.breakCommit_same | apply State.railsOff_same
      | apply State.flushRecs_same | apply State.withVault_same | apply Same.ite | apply SameParts.same
      | apply SameParts.upd_pwr | intro _
    | dsimp only | simp only [same_mk] | split

theorem State.goOff_same {msk : Field → Bool} {s0 s : State} (h0 : Same msk s0 s) (w_pwr : msk .pwr = false)
    (w_mgmt : msk .mgmt = false) :
    Same msk s0 (State.goOff s) := by
  unfold State.goOff
  repeat' first
    | with_reducible first
      | assumption | exact Same.refl _ _ | apply SameParts.same | apply SameParts.upd_pwr_mgmt
    | dsimp only | simp only [same_mk] | split

theorem State.afterFlush_same {msk : Field → Bool} {s0 s : State} (h0 : Same msk s0 s) (w_free : msk .free = false)
    (w_fuse : msk .fuse = false) (w_mem : msk .mem = false) (w_clk : msk .clk = false) (w_ctr : msk .ctr = false)
    (w_tel : msk .tel = false) (w_regs : msk .regs = false) (w_parts : msk .parts = false) (w_fe : msk .fe = false)
    (w_io : msk .io = false) (w_hp : msk .hp = false) (w_evt : msk .evt = false) (w_dbg : msk .dbg = false)
    (w_ream : msk .ream = false) (w_posts : msk .posts = false) (w_net : msk .net = false)
    (w_slots : msk .slots = false) (w_tiles : msk .tiles = false) (w_felt : msk .felt = false)
    (w_tiers : msk .tiers = false) (w_gat : msk .gat = false) (w_pwr : msk .pwr = false) (w_mgmt : msk .mgmt = false)
    (w_rel : msk .rel = false) (w_ingests : msk .ingests = false) (w_sec : msk .sec = false) :
    Same msk s0 (State.afterFlush s) := by
  unfold State.afterFlush
  repeat' first
    | with_reducible first
      | assumption | exact Same.refl _ _ | apply State.setPst_same | apply State.coldBoot_same | apply Same.ite
    | dsimp only | split

theorem execFlushEndDurable_same {msk : Field → Bool} (s : State) (w_free : msk .free = false)
    (w_fuse : msk .fuse = false) (w_mem : msk .mem = false) (w_clk : msk .clk = false) (w_ctr : msk .ctr = false)
    (w_tel : msk .tel = false) (w_regs : msk .regs = false) (w_parts : msk .parts = false) (w_fe : msk .fe = false)
    (w_io : msk .io = false) (w_hp : msk .hp = false) (w_evt : msk .evt = false) (w_dbg : msk .dbg = false)
    (w_ream : msk .ream = false) (w_posts : msk .posts = false) (w_net : msk .net = false)
    (w_slots : msk .slots = false) (w_tiles : msk .tiles = false) (w_felt : msk .felt = false)
    (w_tiers : msk .tiers = false) (w_gat : msk .gat = false) (w_pwr : msk .pwr = false) (w_mgmt : msk .mgmt = false)
    (w_rel : msk .rel = false) (w_ingests : msk .ingests = false) (w_sec : msk .sec = false) :
    ∃ t, execFlushEndDurable s = .next t ∧ Same msk s t := by
  refine ⟨_, rfl, ?_⟩
  repeat' first
    | with_reducible first
      | assumption | exact Same.refl _ _ | apply State.allDurable_same | apply State.afterFlush_same | apply Same.ite
      | apply SameParts.same | apply SameParts.upd_pwr
    | dsimp only | simp only [same_mk] | split

theorem execBankDischarged_same {msk : Field → Bool} (s : State) (w_pwr : msk .pwr = false)
    (w_mgmt : msk .mgmt = false) (w_rel : msk .rel = false) :
    ∃ t, execBankDischarged s = .next t ∧ Same msk s t := by
  refine ⟨_, rfl, ?_⟩
  repeat' first
    | with_reducible first
      | assumption | exact Same.refl _ _ | apply State.setVault_same | apply State.setPst_same
      | apply State.goOff_same | apply Same.ite
    | dsimp only | split

theorem execInputApplied_same {msk : Field → Bool} (s : State) (w_pwr : msk .pwr = false) :
    ∃ t, execInputApplied s = .next t ∧ Same msk s t := by
  refine ⟨_, rfl, ?_⟩
  repeat' first
    | with_reducible first
      | assumption | exact Same.refl _ _ | apply Same.ite | apply SameParts.same | apply SameParts.upd_pwr
    | dsimp only | simp only [same_mk] | split

theorem execStandbyEntry_same {msk : Field → Bool} (s : State) (feed : Nat) (addrSel : Nat)
    (w_free : msk .free = false) (w_fuse : msk .fuse = false) (w_mem : msk .mem = false) (w_clk : msk .clk = false)
    (w_ctr : msk .ctr = false) (w_tel : msk .tel = false) (w_regs : msk .regs = false) (w_parts : msk .parts = false)
    (w_fe : msk .fe = false) (w_io : msk .io = false) (w_hp : msk .hp = false) (w_evt : msk .evt = false)
    (w_dbg : msk .dbg = false) (w_ream : msk .ream = false) (w_posts : msk .posts = false) (w_net : msk .net = false)
    (w_slots : msk .slots = false) (w_tiles : msk .tiles = false) (w_felt : msk .felt = false)
    (w_tiers : msk .tiers = false) (w_gat : msk .gat = false) (w_pwr : msk .pwr = false) (w_mgmt : msk .mgmt = false)
    (w_rel : msk .rel = false) (w_ingests : msk .ingests = false) (w_sec : msk .sec = false) :
    ∃ t, execStandbyEntry feed addrSel s = .next t ∧ Same msk s t := by
  refine ⟨_, rfl, ?_⟩
  repeat' first
    | with_reducible first
      | assumption | exact Same.refl _ _ | apply State.setPst_same | apply State.coldBoot_same | apply Same.ite
      | apply SameParts.same | apply SameParts.upd_fuse_pwr
    | dsimp only | simp only [same_mk] | split

theorem execModResetLow_same {msk : Field → Bool} (s : State) (us : Nat) (w_free : msk .free = false)
    (w_fuse : msk .fuse = false) (w_mem : msk .mem = false) (w_clk : msk .clk = false) (w_ctr : msk .ctr = false)
    (w_tel : msk .tel = false) (w_regs : msk .regs = false) (w_parts : msk .parts = false) (w_fe : msk .fe = false)
    (w_io : msk .io = false) (w_hp : msk .hp = false) (w_evt : msk .evt = false) (w_dbg : msk .dbg = false)
    (w_ream : msk .ream = false) (w_posts : msk .posts = false) (w_net : msk .net = false)
    (w_slots : msk .slots = false) (w_tiles : msk .tiles = false) (w_felt : msk .felt = false)
    (w_tiers : msk .tiers = false) (w_gat : msk .gat = false) (w_pwr : msk .pwr = false) (w_mgmt : msk .mgmt = false)
    (w_rel : msk .rel = false) (w_ingests : msk .ingests = false) (w_sec : msk .sec = false) :
    ∃ t, execModResetLow us s = .next t ∧ Same msk s t := by
  refine ⟨_, rfl, ?_⟩
  repeat' first
    | with_reducible first
      | assumption | exact Same.refl _ _ | apply State.setPst_same | apply State.railsOff_same
      | apply State.powerFail_same | apply Same.ite | apply SameParts.same | apply SameParts.upd_pwr
    | dsimp only | simp only [same_mk] | split

theorem execModResetRelease_same {msk : Field → Bool} (s : State) (w_free : msk .free = false)
    (w_fuse : msk .fuse = false) (w_mem : msk .mem = false) (w_clk : msk .clk = false) (w_ctr : msk .ctr = false)
    (w_tel : msk .tel = false) (w_regs : msk .regs = false) (w_parts : msk .parts = false) (w_fe : msk .fe = false)
    (w_io : msk .io = false) (w_hp : msk .hp = false) (w_evt : msk .evt = false) (w_dbg : msk .dbg = false)
    (w_ream : msk .ream = false) (w_posts : msk .posts = false) (w_net : msk .net = false)
    (w_slots : msk .slots = false) (w_tiles : msk .tiles = false) (w_felt : msk .felt = false)
    (w_tiers : msk .tiers = false) (w_gat : msk .gat = false) (w_pwr : msk .pwr = false) (w_mgmt : msk .mgmt = false)
    (w_rel : msk .rel = false) (w_ingests : msk .ingests = false) (w_sec : msk .sec = false) :
    ∃ t, execModResetRelease s = .next t ∧ Same msk s t := by
  refine ⟨_, rfl, ?_⟩
  repeat' first
    | with_reducible first
      | assumption | exact Same.refl _ _ | apply State.coldBoot_same | apply Same.ite | apply SameParts.same
      | apply SameParts.upd_pwr
    | dsimp only | simp only [same_mk] | split

theorem State.hardTrip_same {msk : Field → Bool} {s0 s : State} (h0 : Same msk s0 s) (w_free : msk .free = false)
    (w_fuse : msk .fuse = false) (w_mem : msk .mem = false) (w_clk : msk .clk = false) (w_ctr : msk .ctr = false)
    (w_tel : msk .tel = false) (w_regs : msk .regs = false) (w_parts : msk .parts = false) (w_fe : msk .fe = false)
    (w_io : msk .io = false) (w_hp : msk .hp = false) (w_evt : msk .evt = false) (w_dbg : msk .dbg = false)
    (w_ream : msk .ream = false) (w_posts : msk .posts = false) (w_net : msk .net = false)
    (w_slots : msk .slots = false) (w_tiles : msk .tiles = false) (w_felt : msk .felt = false)
    (w_tiers : msk .tiers = false) (w_gat : msk .gat = false) (w_pwr : msk .pwr = false) (w_mgmt : msk .mgmt = false)
    (w_rel : msk .rel = false) (w_ingests : msk .ingests = false) (w_sec : msk .sec = false) :
    Same msk s0 (State.hardTrip s) := by
  unfold State.hardTrip
  repeat' first
    | with_reducible first
      | assumption | exact Same.refl _ _ | apply State.setPst_same | apply State.setFlush_same
      | apply State.breakCommit_same | apply State.railsOff_same | apply Same.ite | apply SameParts.same
      | apply SameParts.upd_pwr
    | dsimp only | simp only [same_mk] | split

theorem execHardwareTrip_same {msk : Field → Bool} (s : State) (w_free : msk .free = false)
    (w_fuse : msk .fuse = false) (w_mem : msk .mem = false) (w_clk : msk .clk = false) (w_ctr : msk .ctr = false)
    (w_tel : msk .tel = false) (w_regs : msk .regs = false) (w_parts : msk .parts = false) (w_fe : msk .fe = false)
    (w_io : msk .io = false) (w_hp : msk .hp = false) (w_evt : msk .evt = false) (w_dbg : msk .dbg = false)
    (w_ream : msk .ream = false) (w_posts : msk .posts = false) (w_net : msk .net = false)
    (w_slots : msk .slots = false) (w_tiles : msk .tiles = false) (w_felt : msk .felt = false)
    (w_tiers : msk .tiers = false) (w_gat : msk .gat = false) (w_pwr : msk .pwr = false) (w_mgmt : msk .mgmt = false)
    (w_rel : msk .rel = false) (w_ingests : msk .ingests = false) (w_sec : msk .sec = false) :
    ∃ t, execHardwareTrip s = .next t ∧ Same msk s t := by
  refine ⟨_, rfl, ?_⟩
  repeat' first
    | with_reducible first
      | assumption | exact Same.refl _ _ | apply State.hardTrip_same
    | dsimp only | split

theorem execSafeInputStable_same {msk : Field → Bool} (s : State) (w_free : msk .free = false)
    (w_fuse : msk .fuse = false) (w_mem : msk .mem = false) (w_clk : msk .clk = false) (w_ctr : msk .ctr = false)
    (w_tel : msk .tel = false) (w_regs : msk .regs = false) (w_parts : msk .parts = false) (w_fe : msk .fe = false)
    (w_io : msk .io = false) (w_hp : msk .hp = false) (w_evt : msk .evt = false) (w_dbg : msk .dbg = false)
    (w_ream : msk .ream = false) (w_posts : msk .posts = false) (w_net : msk .net = false)
    (w_slots : msk .slots = false) (w_tiles : msk .tiles = false) (w_felt : msk .felt = false)
    (w_tiers : msk .tiers = false) (w_gat : msk .gat = false) (w_pwr : msk .pwr = false) (w_mgmt : msk .mgmt = false)
    (w_rel : msk .rel = false) (w_ingests : msk .ingests = false) (w_sec : msk .sec = false) :
    ∃ t, execSafeInputStable s = .next t ∧ Same msk s t := by
  refine ⟨_, rfl, ?_⟩
  repeat' first
    | with_reducible first
      | assumption | exact Same.refl _ _ | apply State.coldBoot_same | apply Same.ite
    | dsimp only | split

theorem execInputPowerSample_same {msk : Field → Bool} (s : State) (vin : Nat) (iin : Nat)
    (w_free : msk .free = false) (w_fuse : msk .fuse = false) (w_mem : msk .mem = false) (w_clk : msk .clk = false)
    (w_ctr : msk .ctr = false) (w_tel : msk .tel = false) (w_regs : msk .regs = false) (w_parts : msk .parts = false)
    (w_fe : msk .fe = false) (w_io : msk .io = false) (w_hp : msk .hp = false) (w_evt : msk .evt = false)
    (w_dbg : msk .dbg = false) (w_ream : msk .ream = false) (w_posts : msk .posts = false) (w_net : msk .net = false)
    (w_slots : msk .slots = false) (w_tiles : msk .tiles = false) (w_felt : msk .felt = false)
    (w_tiers : msk .tiers = false) (w_gat : msk .gat = false) (w_pwr : msk .pwr = false) (w_mgmt : msk .mgmt = false)
    (w_rel : msk .rel = false) (w_ingests : msk .ingests = false) (w_sec : msk .sec = false) :
    ∃ t, execInputPowerSample vin iin s = .next t ∧ Same msk s t := by
  refine ⟨_, rfl, ?_⟩
  repeat' first
    | with_reducible first
      | assumption | exact Same.refl _ _ | apply State.pldmCross_same | apply State.powerFail_same
      | apply State.afterFlush_same | apply State.hardTrip_same | apply Same.ite | apply SameParts.same
      | apply SameParts.upd_pwr
    | dsimp only | simp only [same_mk] | split

theorem State.thermTrip_same {msk : Field → Bool} {s0 s : State} (h0 : Same msk s0 s) (w_free : msk .free = false)
    (w_fuse : msk .fuse = false) (w_mem : msk .mem = false) (w_clk : msk .clk = false) (w_ctr : msk .ctr = false)
    (w_tel : msk .tel = false) (w_regs : msk .regs = false) (w_parts : msk .parts = false) (w_fe : msk .fe = false)
    (w_io : msk .io = false) (w_hp : msk .hp = false) (w_evt : msk .evt = false) (w_dbg : msk .dbg = false)
    (w_ream : msk .ream = false) (w_posts : msk .posts = false) (w_net : msk .net = false)
    (w_slots : msk .slots = false) (w_tiles : msk .tiles = false) (w_felt : msk .felt = false)
    (w_tiers : msk .tiers = false) (w_gat : msk .gat = false) (w_pwr : msk .pwr = false) (w_mgmt : msk .mgmt = false)
    (w_rel : msk .rel = false) (w_ingests : msk .ingests = false) (w_sec : msk .sec = false) :
    Same msk s0 (State.thermTrip s) := by
  unfold State.thermTrip
  repeat' first
    | with_reducible first
      | assumption | exact Same.refl _ _ | apply State.powerFail_same
    | dsimp only | split

theorem State.dramActs_same {msk : Field → Bool} {s0 s : State} (h0 : Same msk s0 s) (g : Nat) (die : Nat) (old : Nat)
    (w_free : msk .free = false) (w_fuse : msk .fuse = false) (w_mem : msk .mem = false) (w_clk : msk .clk = false)
    (w_ctr : msk .ctr = false) (w_tel : msk .tel = false) (w_regs : msk .regs = false) (w_parts : msk .parts = false)
    (w_fe : msk .fe = false) (w_io : msk .io = false) (w_hp : msk .hp = false) (w_evt : msk .evt = false)
    (w_dbg : msk .dbg = false) (w_ream : msk .ream = false) (w_posts : msk .posts = false) (w_net : msk .net = false)
    (w_slots : msk .slots = false) (w_tiles : msk .tiles = false) (w_felt : msk .felt = false)
    (w_tiers : msk .tiers = false) (w_gat : msk .gat = false) (w_pwr : msk .pwr = false) (w_mgmt : msk .mgmt = false)
    (w_rel : msk .rel = false) (w_ingests : msk .ingests = false) (w_sec : msk .sec = false) :
    Same msk s0 (State.dramActs s g die old) := by
  unfold State.dramActs
  repeat' first
    | with_reducible first
      | assumption | exact Same.refl _ _ | apply State.causeAll_same | apply State.causeHolds_same
      | apply State.lower_same | apply State.thermTrip_same | apply Same.ite | apply SameParts.same
      | apply SameParts.upd_tiers
    | dsimp only | simp only [same_mk] | split

theorem execDramSensorReading_same {msk : Field → Bool} (s : State) (group : Nat) (die : Nat) (temp : Nat)
    (w_free : msk .free = false) (w_fuse : msk .fuse = false) (w_mem : msk .mem = false) (w_clk : msk .clk = false)
    (w_ctr : msk .ctr = false) (w_tel : msk .tel = false) (w_regs : msk .regs = false) (w_parts : msk .parts = false)
    (w_fe : msk .fe = false) (w_io : msk .io = false) (w_hp : msk .hp = false) (w_evt : msk .evt = false)
    (w_dbg : msk .dbg = false) (w_ream : msk .ream = false) (w_posts : msk .posts = false) (w_net : msk .net = false)
    (w_slots : msk .slots = false) (w_tiles : msk .tiles = false) (w_felt : msk .felt = false)
    (w_tiers : msk .tiers = false) (w_gat : msk .gat = false) (w_pwr : msk .pwr = false) (w_mgmt : msk .mgmt = false)
    (w_rel : msk .rel = false) (w_ingests : msk .ingests = false) (w_sec : msk .sec = false) :
    ∃ t, execDramSensorReading group die temp s = .next t ∧ Same msk s t := by
  refine ⟨_, rfl, ?_⟩
  repeat' first
    | with_reducible first
      | assumption | exact Same.refl _ _ | apply State.pldmCross_same | apply State.dramActs_same | apply Same.ite
      | apply SameParts.same | apply SameParts.upd_tiers
    | dsimp only | simp only [same_mk] | split

theorem State.cdieActs_same {msk : Field → Bool} {s0 s : State} (h0 : Same msk s0 s) (t : Nat) (temp : Nat)
    (w_free : msk .free = false) (w_fuse : msk .fuse = false) (w_mem : msk .mem = false) (w_clk : msk .clk = false)
    (w_ctr : msk .ctr = false) (w_tel : msk .tel = false) (w_regs : msk .regs = false) (w_parts : msk .parts = false)
    (w_fe : msk .fe = false) (w_io : msk .io = false) (w_hp : msk .hp = false) (w_evt : msk .evt = false)
    (w_dbg : msk .dbg = false) (w_ream : msk .ream = false) (w_posts : msk .posts = false) (w_net : msk .net = false)
    (w_slots : msk .slots = false) (w_tiles : msk .tiles = false) (w_felt : msk .felt = false)
    (w_tiers : msk .tiers = false) (w_gat : msk .gat = false) (w_pwr : msk .pwr = false) (w_mgmt : msk .mgmt = false)
    (w_rel : msk .rel = false) (w_ingests : msk .ingests = false) (w_sec : msk .sec = false) :
    Same msk s0 (State.cdieActs s t temp) := by
  unfold State.cdieActs
  repeat' first
    | with_reducible first
      | assumption | exact Same.refl _ _ | apply State.causeHolds_same | apply State.setHot_same
      | apply State.lower_same | apply State.hardTrip_same | apply State.thermTrip_same | apply Same.ite
    | dsimp only | split

theorem State.pdieActs_same {msk : Field → Bool} {s0 s : State} (h0 : Same msk s0 s) (i : Nat) (temp : Nat)
    (w_free : msk .free = false) (w_fuse : msk .fuse = false) (w_mem : msk .mem = false) (w_clk : msk .clk = false)
    (w_ctr : msk .ctr = false) (w_tel : msk .tel = false) (w_regs : msk .regs = false) (w_parts : msk .parts = false)
    (w_fe : msk .fe = false) (w_io : msk .io = false) (w_hp : msk .hp = false) (w_evt : msk .evt = false)
    (w_dbg : msk .dbg = false) (w_ream : msk .ream = false) (w_posts : msk .posts = false) (w_net : msk .net = false)
    (w_slots : msk .slots = false) (w_tiles : msk .tiles = false) (w_felt : msk .felt = false)
    (w_tiers : msk .tiers = false) (w_gat : msk .gat = false) (w_pwr : msk .pwr = false) (w_mgmt : msk .mgmt = false)
    (w_rel : msk .rel = false) (w_ingests : msk .ingests = false) (w_sec : msk .sec = false) :
    Same msk s0 (State.pdieActs s i temp) := by
  unfold State.pdieActs
  repeat' first
    | with_reducible first
      | assumption | exact Same.refl _ _ | apply State.causeHolds_same | apply State.setHot_same
      | apply State.thermTrip_same | apply Same.ite
    | dsimp only | split

theorem State.regActs_same {msk : Field → Bool} {s0 s : State} (h0 : Same msk s0 s) (i : Nat) (temp : Nat)
    (w_free : msk .free = false) (w_fuse : msk .fuse = false) (w_mem : msk .mem = false) (w_clk : msk .clk = false)
    (w_ctr : msk .ctr = false) (w_tel : msk .tel = false) (w_regs : msk .regs = false) (w_parts : msk .parts = false)
    (w_fe : msk .fe = false) (w_io : msk .io = false) (w_hp : msk .hp = false) (w_evt : msk .evt = false)
    (w_dbg : msk .dbg = false) (w_ream : msk .ream = false) (w_posts : msk .posts = false) (w_net : msk .net = false)
    (w_slots : msk .slots = false) (w_tiles : msk .tiles = false) (w_felt : msk .felt = false)
    (w_tiers : msk .tiers = false) (w_gat : msk .gat = false) (w_pwr : msk .pwr = false) (w_mgmt : msk .mgmt = false)
    (w_rel : msk .rel = false) (w_ingests : msk .ingests = false) (w_sec : msk .sec = false) :
    Same msk s0 (State.regActs s i temp) := by
  unfold State.regActs
  repeat' first
    | with_reducible first
      | assumption | exact Same.refl _ _ | apply State.causeHolds_same | apply State.setHot_same
      | apply State.thermTrip_same | apply Same.ite
    | dsimp only | split

theorem execJunctionSensorReading_same {msk : Field → Bool} (s : State) (kind : Nat) (index : Nat) (temp : Nat)
    (w_free : msk .free = false) (w_fuse : msk .fuse = false) (w_mem : msk .mem = false) (w_clk : msk .clk = false)
    (w_ctr : msk .ctr = false) (w_tel : msk .tel = false) (w_regs : msk .regs = false) (w_parts : msk .parts = false)
    (w_fe : msk .fe = false) (w_io : msk .io = false) (w_hp : msk .hp = false) (w_evt : msk .evt = false)
    (w_dbg : msk .dbg = false) (w_ream : msk .ream = false) (w_posts : msk .posts = false) (w_net : msk .net = false)
    (w_slots : msk .slots = false) (w_tiles : msk .tiles = false) (w_felt : msk .felt = false)
    (w_tiers : msk .tiers = false) (w_gat : msk .gat = false) (w_pwr : msk .pwr = false) (w_mgmt : msk .mgmt = false)
    (w_rel : msk .rel = false) (w_ingests : msk .ingests = false) (w_sec : msk .sec = false) :
    ∃ t, execJunctionSensorReading kind index temp s = .next t ∧ Same msk s t := by
  refine ⟨_, rfl, ?_⟩
  repeat' first
    | with_reducible first
      | assumption | exact Same.refl _ _ | apply State.pldmCross_same | apply State.cdieActs_same
      | apply State.pdieActs_same | apply State.regActs_same | apply Same.ite | apply SameParts.same
      | apply SameParts.upd_pwr
    | dsimp only | simp only [same_mk] | split

theorem execCoolantSensorReading_same {msk : Field → Bool} (s : State) (inlet : Nat) (outlet : Nat) (flow : Nat)
    (w_free : msk .free = false) (w_fuse : msk .fuse = false) (w_mem : msk .mem = false) (w_clk : msk .clk = false)
    (w_ctr : msk .ctr = false) (w_tel : msk .tel = false) (w_regs : msk .regs = false) (w_parts : msk .parts = false)
    (w_fe : msk .fe = false) (w_io : msk .io = false) (w_hp : msk .hp = false) (w_evt : msk .evt = false)
    (w_dbg : msk .dbg = false) (w_ream : msk .ream = false) (w_posts : msk .posts = false) (w_net : msk .net = false)
    (w_slots : msk .slots = false) (w_tiles : msk .tiles = false) (w_felt : msk .felt = false)
    (w_tiers : msk .tiers = false) (w_gat : msk .gat = false) (w_pwr : msk .pwr = false) (w_mgmt : msk .mgmt = false)
    (w_rel : msk .rel = false) (w_ingests : msk .ingests = false) (w_sec : msk .sec = false) :
    ∃ t, execCoolantSensorReading inlet outlet flow s = .next t ∧ Same msk s t := by
  refine ⟨_, rfl, ?_⟩
  repeat' first
    | with_reducible first
      | assumption | exact Same.refl _ _ | apply State.pldmCross_same | apply State.causeHolds_same
      | apply State.setHot_same | apply State.thermTrip_same | apply Same.ite | apply SameParts.same
      | apply SameParts.upd_pwr
    | dsimp only | simp only [same_mk] | split

theorem State.demandOf_same {msk : Field → Bool} {s0 s : State} (h0 : Same msk s0 s) (temp : Nat) (lo : Nat)
    (span : Nat) (w_free : msk .free = false) :
    Same msk s0 (State.demandOf s temp lo span).2 := by
  unfold State.demandOf
  repeat' first
    | with_reducible first
      | assumption | exact Same.refl _ _ | apply State.freeVal_same | apply Same.ite
      | refine Same.of_snd (by assumption) ?_
    | dsimp only | split

theorem execCoolDemandUpdate_same {msk : Field → Bool} (s : State) (w_free : msk .free = false)
    (w_pwr : msk .pwr = false) :
    ∃ t, execCoolDemandUpdate s = .next t ∧ Same msk s t := by
  refine ⟨_, rfl, ?_⟩
  repeat' first
    | with_reducible first
      | assumption | exact Same.refl _ _ | apply State.demandOf_same | apply Same.ite | apply SameParts.same
      | apply SameParts.upd_pwr | refine Same.of_snd (by assumption) ?_
    | dsimp only | simp only [same_mk] | split

theorem State.setBank_same {msk : Field → Bool} {s0 s : State} (h0 : Same msk s0 s) (b : HoldUp)
    (w_free : msk .free = false) (w_ctr : msk .ctr = false) (w_parts : msk .parts = false) (w_io : msk .io = false)
    (w_hp : msk .hp = false) (w_evt : msk .evt = false) (w_pwr : msk .pwr = false) (w_mgmt : msk .mgmt = false) :
    Same msk s0 (State.setBank s b) := by
  unfold State.setBank
  repeat' first
    | with_reducible first
      | assumption | exact Same.refl _ _ | apply State.raise_same | apply State.pldm_same | apply Same.ite
      | apply SameParts.same | apply SameParts.upd_pwr
    | dsimp only | simp only [same_mk] | split

theorem execBankEstimate_same {msk : Field → Bool} (s : State) (volts : Nat) (temp : Nat) (w_free : msk .free = false)
    (w_ctr : msk .ctr = false) (w_parts : msk .parts = false) (w_io : msk .io = false) (w_hp : msk .hp = false)
    (w_evt : msk .evt = false) (w_pwr : msk .pwr = false) (w_mgmt : msk .mgmt = false) :
    ∃ t, execBankEstimate volts temp s = .next t ∧ Same msk s t := by
  refine ⟨_, rfl, ?_⟩
  repeat' first
    | with_reducible first
      | assumption | exact Same.refl _ _ | apply State.freeVal_same | apply State.setBank_same | apply Same.ite
      | refine Same.of_snd (by assumption) ?_
    | dsimp only | split

theorem execBankChargeTimeout_same {msk : Field → Bool} (s : State) (w_free : msk .free = false)
    (w_ctr : msk .ctr = false) (w_parts : msk .parts = false) (w_io : msk .io = false) (w_hp : msk .hp = false)
    (w_evt : msk .evt = false) (w_pwr : msk .pwr = false) (w_mgmt : msk .mgmt = false) :
    ∃ t, execBankChargeTimeout s = .next t ∧ Same msk s t := by
  refine ⟨_, rfl, ?_⟩
  repeat' first
    | with_reducible first
      | assumption | exact Same.refl _ _ | apply State.setBank_same | apply Same.ite
    | dsimp only | split

theorem State.startTest_same {msk : Field → Bool} {s0 s : State} (h0 : Same msk s0 s) (w_pwr : msk .pwr = false) :
    Same msk s0 (State.startTest s) := by
  unfold State.startTest
  repeat' first
    | with_reducible first
      | assumption | exact Same.refl _ _ | apply Same.ite | apply SameParts.same | apply SameParts.upd_pwr
    | dsimp only | simp only [same_mk] | split

theorem execBankHealthTestTimer_same {msk : Field → Bool} (s : State) (w_pwr : msk .pwr = false) :
    ∃ t, execBankHealthTestTimer s = .next t ∧ Same msk s t := by
  refine ⟨_, rfl, ?_⟩
  repeat' first
    | with_reducible first
      | assumption | exact Same.refl _ _ | apply State.startTest_same | apply Same.ite
    | dsimp only | split

theorem execBankTest_same {msk : Field → Bool} (s : State) (value : Word) (w_pwr : msk .pwr = false) :
    ∃ t, execBankTest value s = .next t ∧ Same msk s t := by
  refine ⟨_, rfl, ?_⟩
  repeat' first
    | with_reducible first
      | assumption | exact Same.refl _ _ | apply State.startTest_same | apply Same.ite
    | dsimp only | split

theorem execBankHealthTestDone_same {msk : Field → Bool} (s : State) (capMf : Nat) (esrMohm : Nat)
    (w_free : msk .free = false) (w_ctr : msk .ctr = false) (w_parts : msk .parts = false) (w_io : msk .io = false)
    (w_hp : msk .hp = false) (w_evt : msk .evt = false) (w_pwr : msk .pwr = false) (w_mgmt : msk .mgmt = false) :
    ∃ t, execBankHealthTestDone capMf esrMohm s = .next t ∧ Same msk s t := by
  refine ⟨_, rfl, ?_⟩
  repeat' first
    | with_reducible first
      | assumption | exact Same.refl _ _ | apply State.setBank_same | apply Same.ite
    | dsimp only | split

theorem execFlushClear_same {msk : Field → Bool} (s : State) (value : Word) (cause : Nat) (w_free : msk .free = false)
    (w_fuse : msk .fuse = false) (w_mem : msk .mem = false) (w_clk : msk .clk = false) (w_ctr : msk .ctr = false)
    (w_tel : msk .tel = false) (w_regs : msk .regs = false) (w_parts : msk .parts = false) (w_fe : msk .fe = false)
    (w_io : msk .io = false) (w_hp : msk .hp = false) (w_evt : msk .evt = false) (w_dbg : msk .dbg = false)
    (w_ream : msk .ream = false) (w_posts : msk .posts = false) (w_net : msk .net = false)
    (w_slots : msk .slots = false) (w_tiles : msk .tiles = false) (w_felt : msk .felt = false)
    (w_tiers : msk .tiers = false) (w_gat : msk .gat = false) (w_pwr : msk .pwr = false) (w_mgmt : msk .mgmt = false)
    (w_rel : msk .rel = false) (w_ingests : msk .ingests = false) (w_sec : msk .sec = false) :
    ∃ t, execFlushClear value cause s = .next t ∧ Same msk s t := by
  refine ⟨_, rfl, ?_⟩
  repeat' first
    | with_reducible first
      | assumption | exact Same.refl _ _ | apply State.setFlush_same | apply State.powerFail_same
      | apply State.hardTrip_same | apply Same.ite
    | dsimp only | split

theorem State.tickClocks_same {msk : Field → Bool} {s0 s : State} (h0 : Same msk s0 s) (w_free : msk .free = false)
    (w_clk : msk .clk = false) (w_rel : msk .rel = false) :
    Same msk s0 (State.tickClocks s) := by
  unfold State.tickClocks
  repeat' first
    | with_reducible first
      | assumption | exact Same.refl _ _ | refine Same.foldl ?_ _ _ (fun _ _ _ => ?_)
      | refine Same.foldl_fst _ _ (fun _ _ _ => ?_) _ ?_ | refine Same.foldl_snd _ _ (fun _ _ _ => ?_) _ ?_
      | apply Same.ite | apply SameParts.same | apply SameParts.upd_free_clk_rel
      | refine Same.of_fst (by assumption) ?_ | refine Same.of_snd (by assumption) ?_ | intro _
    | dsimp only | simp only [same_mk] | split

theorem State.drift_same {msk : Field → Bool} {s0 s : State} (h0 : Same msk s0 s) (id : Nat) (inst : Nat) (most : Nat)
    (w_free : msk .free = false) (w_ctr : msk .ctr = false) :
    Same msk s0 (State.drift s id inst most).2 := by
  unfold State.drift
  repeat' first
    | with_reducible first
      | assumption | exact Same.refl _ _ | apply State.count_same | apply State.freeVal_same | apply Same.ite
      | refine Same.of_snd (by assumption) ?_
    | dsimp only | split

theorem State.tickCdc_same {msk : Field → Bool} {s0 s : State} (h0 : Same msk s0 s) (w_free : msk .free = false)
    (w_ctr : msk .ctr = false) (w_parts : msk .parts = false) (w_io : msk .io = false) (w_hp : msk .hp = false)
    (w_evt : msk .evt = false) :
    Same msk s0 (State.tickCdc s) := by
  unfold State.tickCdc
  repeat' first
    | with_reducible first
      | assumption | exact Same.refl _ _ | refine Same.foldl ?_ _ _ (fun _ _ _ => ?_)
      | refine Same.foldl_fst _ _ (fun _ _ _ => ?_) _ ?_ | refine Same.foldl_snd _ _ (fun _ _ _ => ?_) _ ?_
      | apply State.causeAll_same | apply State.drift_same | apply Same.ite | refine Same.of_fst (by assumption) ?_
      | refine Same.of_snd (by assumption) ?_ | intro _
    | dsimp only | split

theorem State.tickTile_same {msk : Field → Bool} {s0 s : State} (h0 : Same msk s0 s) (t : Nat)
    (w_free : msk .free = false) (w_ctr : msk .ctr = false) (w_tiers : msk .tiers = false) :
    Same msk s0 (State.tickTile s t) := by
  unfold State.tickTile
  repeat' first
    | with_reducible first
      | assumption | exact Same.refl _ _ | apply State.count_same | apply State.drainWb_same | apply State.drift_same
      | apply Same.ite | refine Same.of_snd (by assumption) ?_
    | dsimp only | split

theorem State.strikeLine_same {msk : Field → Bool} {s0 s : State} (h0 : Same msk s0 s) (t : Nat) (l : Nat)
    (w_mem : msk .mem = false) (w_rel : msk .rel = false) :
    Same msk s0 (State.strikeLine s t l) := by
  unfold State.strikeLine
  repeat' first
    | with_reducible first
      | assumption | exact Same.refl _ _ | apply State.plogAdd_same | apply Same.ite | apply SameParts.same
      | apply SameParts.upd_mem
    | dsimp only | simp only [same_mk] | split

theorem State.strikeT1_same {msk : Field → Bool} {s0 s : State} (h0 : Same msk s0 s) (n : Nat) (alone : Bool)
    (w_free : msk .free = false) (w_mem : msk .mem = false) (w_ctr : msk .ctr = false) (w_parts : msk .parts = false)
    (w_io : msk .io = false) (w_hp : msk .hp = false) (w_evt : msk .evt = false) (w_tiers : msk .tiers = false)
    (w_rel : msk .rel = false) :
    Same msk s0 (State.strikeT1 s n alone) := by
  unfold State.strikeT1
  repeat' first
    | with_reducible first
      | assumption | exact Same.refl _ _ | apply State.count_same | apply State.poisonT1_same | apply Same.ite
    | dsimp only | split

theorem State.strikeVault_same {msk : Field → Bool} {s0 s : State} (h0 : Same msk s0 s) (i : Nat)
    (w_rel : msk .rel = false) :
    Same msk s0 (State.strikeVault s i) := by
  unfold State.strikeVault
  repeat' first
    | with_reducible first
      | assumption | exact Same.refl _ _ | apply Same.ite | apply SameParts.same | apply SameParts.upd_rel
    | dsimp only | simp only [same_mk] | split

theorem State.tickErrors_same {msk : Field → Bool} {s0 s : State} (h0 : Same msk s0 s) (w_free : msk .free = false)
    (w_mem : msk .mem = false) (w_ctr : msk .ctr = false) (w_parts : msk .parts = false) (w_io : msk .io = false)
    (w_hp : msk .hp = false) (w_evt : msk .evt = false) (w_posts : msk .posts = false) (w_tiers : msk .tiers = false)
    (w_rel : msk .rel = false) :
    Same msk s0 (State.tickErrors s) := by
  unfold State.tickErrors
  repeat' first
    | with_reducible first
      | assumption | exact Same.refl _ _ | apply State.freeVal_same | apply State.strikeT0_same
      | apply State.strikeLine_same | apply State.strikeT1_same | apply State.strikeVault_same | apply Same.ite
      | refine Same.of_snd (by assumption) ?_
    | dsimp only | split

theorem State.tickRx_same {msk : Field → Bool} {s0 s : State} (h0 : Same msk s0 s) (w_free : msk .free = false)
    (w_net : msk .net = false) :
    Same msk s0 (State.tickRx s) := by
  unfold State.tickRx
  repeat' first
    | with_reducible first
      | assumption | exact Same.refl _ _ | apply State.freeVal_same | apply SameParts.same | apply SameParts.upd_net
      | refine Same.of_snd (by assumption) ?_
    | dsimp only | simp only [same_mk] | split

theorem State.tickLink_same {msk : Field → Bool} {s0 s : State} (h0 : Same msk s0 s) (w_free : msk .free = false)
    (w_hp : msk .hp = false) :
    Same msk s0 (State.tickLink s) := by
  unfold State.tickLink
  repeat' first
    | with_reducible first
      | assumption | exact Same.refl _ _ | apply State.freeVal_same | apply Same.ite | apply SameParts.same
      | apply SameParts.upd_hp | refine Same.of_snd (by assumption) ?_
    | dsimp only | simp only [same_mk] | split

theorem State.tickDeny_same {msk : Field → Bool} {s0 s : State} (h0 : Same msk s0 s) (cycles : Nat)
    (w_free : msk .free = false) (w_ctr : msk .ctr = false) :
    Same msk s0 (State.tickDeny s cycles) := by
  unfold State.tickDeny
  repeat' first
    | with_reducible first
      | assumption | exact Same.refl _ _ | apply State.drift_same | apply Same.ite
      | refine Same.of_snd (by assumption) ?_
    | dsimp only | split

theorem State.tickBeater_same {msk : Field → Bool} {s0 s : State} (h0 : Same msk s0 s) (cycles : Nat)
    (w_free : msk .free = false) (w_ctr : msk .ctr = false) (w_io : msk .io = false) :
    Same msk s0 (State.tickBeater s cycles) := by
  unfold State.tickBeater
  repeat' first
    | with_reducible first
      | assumption | exact Same.refl _ _ | apply State.freeVal_same | apply State.drift_same | apply Same.ite
      | apply SameParts.same | apply SameParts.upd_io | refine Same.of_snd (by assumption) ?_
    | dsimp only | simp only [same_mk] | split

theorem State.tickMaint_same {msk : Field → Bool} {s0 s : State} (h0 : Same msk s0 s) (cycles : Nat)
    (w_free : msk .free = false) (w_ctr : msk .ctr = false) :
    Same msk s0 (State.tickMaint s cycles) := by
  unfold State.tickMaint
  repeat' first
    | with_reducible first
      | assumption | exact Same.refl _ _ | apply State.freeVal_same | apply State.drift_same | apply Same.ite
      | refine Same.of_snd (by assumption) ?_
    | dsimp only | split

theorem State.tickCable_same {msk : Field → Bool} {s0 s : State} (h0 : Same msk s0 s) (w_free : msk .free = false)
    (w_ctr : msk .ctr = false) (w_parts : msk .parts = false) (w_io : msk .io = false) (w_hp : msk .hp = false)
    (w_evt : msk .evt = false) (w_net : msk .net = false) :
    Same msk s0 (State.tickCable s) := by
  unfold State.tickCable
  repeat' first
    | with_reducible first
      | assumption | exact Same.refl _ _ | refine Same.each ?_ _ _ (fun _ _ _ => ?_) | apply State.freeVal_same
      | apply State.setPort_same | apply State.linkLost_same | apply Same.ite | apply SameParts.same
      | apply SameParts.upd_net | refine Same.of_snd (by assumption) ?_ | intro _
    | dsimp only | simp only [same_mk] | split

theorem State.startRound_same {msk : Field → Bool} {s0 s : State} (h0 : Same msk s0 s) (t : Nat)
    (w_free : msk .free = false) (w_ctr : msk .ctr = false) (w_parts : msk .parts = false) (w_io : msk .io = false)
    (w_hp : msk .hp = false) (w_evt : msk .evt = false) (w_rel : msk .rel = false) :
    Same msk s0 (State.startRound s t) := by
  unfold State.startRound
  repeat' first
    | with_reducible first
      | assumption | exact Same.refl _ _ | apply State.count_same | apply State.freeVal_same
      | apply State.sliceFail_same | apply Same.ite | refine Same.of_snd (by assumption) ?_
    | dsimp only | split

theorem State.bootDone_same {msk : Field → Bool} {s0 s : State} (h0 : Same msk s0 s) (w_free : msk .free = false)
    (w_ctr : msk .ctr = false) (w_parts : msk .parts = false) (w_fe : msk .fe = false) (w_io : msk .io = false)
    (w_hp : msk .hp = false) (w_evt : msk .evt = false) (w_posts : msk .posts = false) (w_pwr : msk .pwr = false)
    (w_mgmt : msk .mgmt = false) (w_rel : msk .rel = false) :
    Same msk s0 (State.bootDone s) := by
  unfold State.bootDone
  repeat' first
    | with_reducible first
      | assumption | exact Same.refl _ _ | refine Same.each ?_ _ _ (fun _ _ _ => ?_) | apply State.attachNow_same
      | apply State.setPst_same | apply State.startRound_same | apply Same.ite | apply SameParts.same
      | apply SameParts.upd_pwr | intro _
    | dsimp only | simp only [same_mk] | split

theorem State.tick_same {msk : Field → Bool} {s0 s : State} (h0 : Same msk s0 s) (w_free : msk .free = false)
    (w_mem : msk .mem = false) (w_clk : msk .clk = false) (w_ctr : msk .ctr = false) (w_parts : msk .parts = false)
    (w_fe : msk .fe = false) (w_io : msk .io = false) (w_hp : msk .hp = false) (w_evt : msk .evt = false)
    (w_posts : msk .posts = false) (w_net : msk .net = false) (w_tiers : msk .tiers = false)
    (w_pwr : msk .pwr = false) (w_mgmt : msk .mgmt = false) (w_rel : msk .rel = false) :
    Same msk s0 (State.tick s) := by
  unfold State.tick
  repeat' first
    | with_reducible first
      | assumption | exact Same.refl _ _ | refine Same.each ?_ _ _ (fun _ _ _ => ?_) | apply State.tickClocks_same
      | apply State.tickCdc_same | apply State.tickTile_same | apply State.tickErrors_same | apply State.tickRx_same
      | apply State.tickLink_same | apply State.tickDeny_same | apply State.tickBeater_same
      | apply State.tickMaint_same | apply State.tickCable_same | apply State.bootDone_same | intro _
    | dsimp only | split

end Sys2Proof.Machine
end

