-- ==== Sys2Proof/Laws/SameRegs.lean ====
section
/-! SUPPORT. `Same` for registers, translation walks, resumed tasks and ring timeouts:
the parts of the state each operation leaves alone. -/

namespace Sys2Proof.Machine
set_option linter.unusedTactic false
set_option linter.unreachableTactic false

theorem State.clearRead_same {msk : Field → Bool} {s0 s : State} (h0 : Same msk s0 s) (a : Nat)
    (w_tiers : msk .tiers = false) (w_gat : msk .gat = false) (w_pwr : msk .pwr = false) :
    Same msk s0 (State.clearRead s a) := by
  unfold State.clearRead
  repeat' first
    | with_reducible first
      | assumption | exact Same.refl _ _ | apply Same.ite | apply SameParts.same | apply SameParts.upd_gat
      | apply SameParts.upd_pwr | apply SameParts.upd_tiers | apply SameParts.upd_gat_pwr
      | apply SameParts.upd_tiers_gat | apply SameParts.upd_tiers_pwr | apply SameParts.upd_tiers_gat_pwr
    | dsimp only | simp only [same_mk] | split

theorem State.answerWord_same {msk : Field → Bool} {s0 s : State} (h0 : Same msk s0 s) (w : Word)
    (w_bus : msk .bus = false) :
    Same msk s0 (State.answerWord s w) := by
  unfold State.answerWord
  repeat' first
    | with_reducible first
      | assumption | exact Same.refl _ _ | apply SameParts.same | apply SameParts.upd_bus
    | dsimp only | simp only [same_mk] | split

theorem State.busRead_same {msk : Field → Bool} {s0 s : State} (h0 : Same msk s0 s) (a : Nat)
    (w_bus : msk .bus = false) (w_ctr : msk .ctr = false) (w_tel : msk .tel = false) (w_tiers : msk .tiers = false)
    (w_gat : msk .gat = false) (w_pwr : msk .pwr = false) :
    Same msk s0 (State.busRead s a) := by
  unfold State.busRead
  repeat' first
    | with_reducible first
      | assumption | exact Same.refl _ _ | apply State.readCntLo_same | apply State.clearRead_same
      | apply State.answerWord_same | apply Same.ite | apply SameParts.same | apply SameParts.upd_tel
    | dsimp only | simp only [same_mk] | split

theorem State.read_same {msk : Field → Bool} {s0 s : State} (h0 : Same msk s0 s) (a : Nat) (w_bus : msk .bus = false)
    (w_ctr : msk .ctr = false) (w_tel : msk .tel = false) (w_tiers : msk .tiers = false) (w_gat : msk .gat = false)
    (w_pwr : msk .pwr = false) :
    Same msk s0 (State.read s a) := by
  unfold State.read
  repeat' first
    | with_reducible first
      | assumption | exact Same.refl _ _ | apply Same.after | apply execBarBadAccess_same | apply State.busRead_same
      | apply Same.ite
    | dsimp only | split

theorem execLowWordRead_same {msk : Field → Bool} (s : State) (addr : Nat) (w_bus : msk .bus = false)
    (w_ctr : msk .ctr = false) (w_tel : msk .tel = false) (w_tiers : msk .tiers = false) (w_gat : msk .gat = false)
    (w_pwr : msk .pwr = false) :
    ∃ t, execLowWordRead addr s = .next t ∧ Same msk s t := by
  refine ⟨_, rfl, ?_⟩
  repeat' first
    | with_reducible first
      | assumption | exact Same.refl _ _ | apply State.read_same
    | dsimp only | split

theorem execRcRead_same {msk : Field → Bool} (s : State) (addr : Nat) (w_bus : msk .bus = false)
    (w_ctr : msk .ctr = false) (w_tel : msk .tel = false) (w_tiers : msk .tiers = false) (w_gat : msk .gat = false)
    (w_pwr : msk .pwr = false) :
    ∃ t, execRcRead addr s = .next t ∧ Same msk s t := by
  refine ⟨_, rfl, ?_⟩
  repeat' first
    | with_reducible first
      | assumption | exact Same.refl _ _ | apply State.read_same
    | dsimp only | split

theorem State.storeRw_same {msk : Field → Bool} {s0 s : State} (h0 : Same msk s0 s) (a : Nat) (v : Word)
    (w_regs : msk .regs = false) :
    Same msk s0 (State.storeRw s a v) := by
  unfold State.storeRw
  repeat' first
    | with_reducible first
      | assumption | exact Same.refl _ _ | apply State.store_same | apply Same.ite
    | dsimp only | split

theorem State.lockStore_same {msk : Field → Bool} {s0 s : State} (h0 : Same msk s0 s) (a : Nat) (v : Word)
    (w_regs : msk .regs = false) :
    Same msk s0 (State.lockStore s a v) := by
  unfold State.lockStore
  repeat' first
    | with_reducible first
      | assumption | exact Same.refl _ _ | apply State.store_same | apply Same.ite
    | dsimp only | split

theorem State.writeLock_same {msk : Field → Bool} {s0 s : State} (h0 : Same msk s0 s) (a : Nat) (v : Word)
    (w_regs : msk .regs = false) (w_sec : msk .sec = false) :
    Same msk s0 (State.writeLock s a v) := by
  unfold State.writeLock
  repeat' first
    | with_reducible first
      | assumption | exact Same.refl _ _ | apply State.extend_same | apply State.lockStore_same | apply Same.ite
    | dsimp only | split

theorem execLock_same {msk : Field → Bool} (s : State) (addr : Nat) (value : Word) (w_regs : msk .regs = false)
    (w_sec : msk .sec = false) :
    ∃ t, execLock addr value s = .next t ∧ Same msk s t := by
  refine ⟨_, rfl, ?_⟩
  repeat' first
    | with_reducible first
      | assumption | exact Same.refl _ _ | apply State.writeLock_same
    | dsimp only | split

theorem State.storeRwl_same {msk : Field → Bool} {s0 s : State} (h0 : Same msk s0 s) (lock : Nat) (a : Nat)
    (mask : Word) (v : Word) (w_regs : msk .regs = false) :
    Same msk s0 (State.storeRwl s lock a mask v) := by
  unfold State.storeRwl
  repeat' first
    | with_reducible first
      | assumption | exact Same.refl _ _ | apply State.store_same | apply Same.ite
    | dsimp only | split

theorem State.writeOwner_same {msk : Field → Bool} {s0 s : State} (h0 : Same msk s0 s) (i : Nat) (v : Word)
    (w_regs : msk .regs = false) (w_evt : msk .evt = false) :
    Same msk s0 (State.writeOwner s i v) := by
  unfold State.writeOwner
  repeat' first
    | with_reducible first
      | assumption | exact Same.refl _ _ | apply State.setSrc_same | apply State.store_same | apply Same.ite
    | dsimp only | split

theorem State.writeEvt_same {msk : Field → Bool} {s0 s : State} (h0 : Same msk s0 s) (a : Nat) (v : Word)
    (w_free : msk .free = false) (w_ctr : msk .ctr = false) (w_regs : msk .regs = false)
    (w_parts : msk .parts = false) (w_io : msk .io = false) (w_hp : msk .hp = false) (w_evt : msk .evt = false) :
    Same msk s0 (State.writeEvt s a v) := by
  unfold State.writeEvt
  repeat' first
    | with_reducible first
      | assumption | exact Same.refl _ _ | apply Same.after | apply State.modPart_same | apply execEvtAck_same
      | apply State.storeRw_same | apply State.writeOwner_same | apply Same.ite
    | dsimp only | split

theorem State.writePort_same {msk : Field → Bool} {s0 s : State} (h0 : Same msk s0 s) (n : Nat) (o : Nat) (v : Word)
    (w_free : msk .free = false) (w_mem : msk .mem = false) (w_ctr : msk .ctr = false) (w_regs : msk .regs = false)
    (w_parts : msk .parts = false) (w_fe : msk .fe = false) (w_io : msk .io = false) (w_hp : msk .hp = false)
    (w_evt : msk .evt = false) (w_ream : msk .ream = false) (w_posts : msk .posts = false) (w_net : msk .net = false)
    (w_slots : msk .slots = false) (w_tiles : msk .tiles = false) (w_tiers : msk .tiers = false)
    (w_gat : msk .gat = false) (w_rel : msk .rel = false) :
    Same msk s0 (State.writePort s n o v) := by
  unfold State.writePort
  repeat' first
    | with_reducible first
      | assumption | exact Same.refl _ _ | apply State.portOn_same | apply State.portOff_same
      | apply State.storeRwl_same | apply Same.ite
    | dsimp only | split

theorem State.writeQp_same {msk : Field → Bool} {s0 s : State} (h0 : Same msk s0 s) (o : Nat) (v : Word)
    (w_net : msk .net = false) :
    Same msk s0 (State.writeQp s o v) := by
  unfold State.writeQp
  repeat' first
    | with_reducible first
      | assumption | exact Same.refl _ _ | apply State.modQp_same | apply Same.ite
    | dsimp only | split

theorem State.writeNet_same {msk : Field → Bool} {s0 s : State} (h0 : Same msk s0 s) (a : Nat) (v : Word)
    (w_free : msk .free = false) (w_mem : msk .mem = false) (w_ctr : msk .ctr = false) (w_regs : msk .regs = false)
    (w_parts : msk .parts = false) (w_fe : msk .fe = false) (w_io : msk .io = false) (w_hp : msk .hp = false)
    (w_evt : msk .evt = false) (w_ream : msk .ream = false) (w_posts : msk .posts = false) (w_net : msk .net = false)
    (w_slots : msk .slots = false) (w_tiles : msk .tiles = false) (w_tiers : msk .tiers = false)
    (w_gat : msk .gat = false) (w_rel : msk .rel = false) (w_sec : msk .sec = false) :
    Same msk s0 (State.writeNet s a v) := by
  unfold State.writeNet
  repeat' first
    | with_reducible first
      | assumption | exact Same.refl _ _ | apply Same.after | apply State.ratesFree_same | apply execQpConnect_same
      | apply execQpReset_same | apply State.storeRw_same | apply State.writeLock_same | apply State.storeRwl_same
      | apply State.writePort_same | apply State.writeQp_same | apply Same.ite
    | dsimp only | split

theorem State.writePwr_same {msk : Field → Bool} {s0 s : State} (h0 : Same msk s0 s) (a : Nat) (v : Word)
    (w_free : msk .free = false) (w_fuse : msk .fuse = false) (w_mem : msk .mem = false) (w_clk : msk .clk = false)
    (w_ctr : msk .ctr = false) (w_tel : msk .tel = false) (w_regs : msk .regs = false) (w_parts : msk .parts = false)
    (w_fe : msk .fe = false) (w_io : msk .io = false) (w_hp : msk .hp = false) (w_evt : msk .evt = false)
    (w_dbg : msk .dbg = false) (w_ream : msk .ream = false) (w_posts : msk .posts = false) (w_net : msk .net = false)
    (w_slots : msk .slots = false) (w_tiles : msk .tiles = false) (w_felt : msk .felt = false)
    (w_tiers : msk .tiers = false) (w_gat : msk .gat = false) (w_pwr : msk .pwr = false) (w_mgmt : msk .mgmt = false)
    (w_rel : msk .rel = false) (w_ingests : msk .ingests = false) (w_sec : msk .sec = false) :
    Same msk s0 (State.writePwr s a v) := by
  unfold State.writePwr
  repeat' first
    | with_reducible first
      | assumption | exact Same.refl _ _ | apply Same.after | apply execPwrCap_same | apply execSlew_same
      | apply execBankTest_same | apply execFlushClear_same | apply State.writeLock_same | apply Same.ite
    | dsimp only | split

theorem State.freeImage_same {msk : Field → Bool} {s0 s : State} (h0 : Same msk s0 s) (w_free : msk .free = false) :
    Same msk s0 (State.freeImage s).2 := by
  unfold State.freeImage
  repeat' first
    | with_reducible first
      | assumption | exact Same.refl _ _ | apply State.freeVal_same | apply State.freeVals_same | apply Same.ite
      | refine Same.of_snd (by assumption) ?_
    | dsimp only | split

theorem State.writeMbxCmd_same {msk : Field → Bool} {s0 s : State} (h0 : Same msk s0 s) (v : Word)
    (w_free : msk .free = false) (w_sec : msk .sec = false) :
    Same msk s0 (State.writeMbxCmd s v) := by
  unfold State.writeMbxCmd
  repeat' first
    | with_reducible first
      | assumption | exact Same.refl _ _ | apply Same.after | apply State.mbxEnd_same | apply execGetInfo_same
      | apply execGetCert_same | apply execGetLog_same | apply execQuote_same | apply execFwStage_same
      | apply execFwCommit_same | apply execFwAbandon_same | apply execPackInstall_same | apply State.freeImage_same
      | apply Same.ite | apply SameParts.same | apply SameParts.upd_sec | refine Same.of_snd (by assumption) ?_
    | dsimp only | simp only [same_mk] | split

theorem State.writeSec_same {msk : Field → Bool} {s0 s : State} (h0 : Same msk s0 s) (a : Nat) (v : Word)
    (w_free : msk .free = false) (w_regs : msk .regs = false) (w_sec : msk .sec = false) :
    Same msk s0 (State.writeSec s a v) := by
  unfold State.writeSec
  repeat' first
    | with_reducible first
      | assumption | exact Same.refl _ _ | apply State.storeRw_same | apply State.writeLock_same
      | apply State.writeMbxCmd_same | apply Same.ite | apply SameParts.same | apply SameParts.upd_sec
    | dsimp only | simp only [same_mk] | split

theorem State.writeRel_same {msk : Field → Bool} {s0 s : State} (h0 : Same msk s0 s) (a : Nat) (v : Word)
    (w_free : msk .free = false) (w_fuse : msk .fuse = false) (w_mem : msk .mem = false) (w_clk : msk .clk = false)
    (w_ctr : msk .ctr = false) (w_tel : msk .tel = false) (w_regs : msk .regs = false) (w_parts : msk .parts = false)
    (w_fe : msk .fe = false) (w_io : msk .io = false) (w_hp : msk .hp = false) (w_evt : msk .evt = false)
    (w_dbg : msk .dbg = false) (w_ream : msk .ream = false) (w_posts : msk .posts = false) (w_net : msk .net = false)
    (w_slots : msk .slots = false) (w_tiles : msk .tiles = false) (w_felt : msk .felt = false)
    (w_tiers : msk .tiers = false) (w_gat : msk .gat = false) (w_pwr : msk .pwr = false) (w_mgmt : msk .mgmt = false)
    (w_rel : msk .rel = false) (w_ingests : msk .ingests = false) (w_sec : msk .sec = false) :
    Same msk s0 (State.writeRel s a v) := by
  unfold State.writeRel
  repeat' first
    | with_reducible first
      | assumption | exact Same.refl _ _ | apply Same.after | apply State.setReg_same | apply execColdReset_same
      | apply execDevReset_same | apply execPartReset_same | apply State.storeRw_same | apply Same.ite
      | apply SameParts.same | apply SameParts.upd_rel
    | dsimp only | simp only [same_mk] | split

theorem State.writeDbg_same {msk : Field → Bool} {s0 s : State} (h0 : Same msk s0 s) (a : Nat) (v : Word)
    (w_regs : msk .regs = false) (w_fe : msk .fe = false) (w_dbg : msk .dbg = false) (w_tiles : msk .tiles = false)
    (w_tiers : msk .tiers = false) (w_sec : msk .sec = false) :
    Same msk s0 (State.writeDbg s a v) := by
  unfold State.writeDbg
  repeat' first
    | with_reducible first
      | assumption | exact Same.refl _ _ | apply Same.after | apply execDbgEnter_same | apply execDbgLeave_same
      | apply execDbgRun_same | apply execDbgHalt_same | apply execDbgStreamKeySet_same
      | apply execDbgInterleaveKeySet_same | apply execDbgPeekRead_same | apply execDbgPeekWrite_same
      | apply State.storeRw_same | apply Same.ite | apply SameParts.same | apply SameParts.upd_dbg
    | dsimp only | simp only [same_mk] | split

theorem State.sendAllPending_same {msk : Field → Bool} {s0 s : State} (h0 : Same msk s0 s)
    (w_free : msk .free = false) (w_ctr : msk .ctr = false) (w_parts : msk .parts = false) (w_io : msk .io = false)
    (w_hp : msk .hp = false) (w_evt : msk .evt = false) :
    Same msk s0 (State.sendAllPending s) := by
  unfold State.sendAllPending
  repeat' first
    | with_reducible first
      | assumption | exact Same.refl _ _ | refine Same.each ?_ _ _ (fun _ _ _ => ?_) | apply State.sendPending_same
      | intro _
    | dsimp only | split

theorem State.writeCfg_same {msk : Field → Bool} {s0 s : State} (h0 : Same msk s0 s) (a : Nat) (v : Word)
    (w_free : msk .free = false) (w_bus : msk .bus = false) (w_mem : msk .mem = false) (w_ctr : msk .ctr = false)
    (w_parts : msk .parts = false) (w_fe : msk .fe = false) (w_io : msk .io = false) (w_hp : msk .hp = false)
    (w_evt : msk .evt = false) (w_ream : msk .ream = false) (w_posts : msk .posts = false)
    (w_slots : msk .slots = false) (w_tiles : msk .tiles = false) (w_tiers : msk .tiers = false)
    (w_gat : msk .gat = false) (w_rel : msk .rel = false) (w_sec : msk .sec = false) :
    Same msk s0 (State.writeCfg s a v) := by
  unfold State.writeCfg
  repeat' first
    | with_reducible first
      | assumption | exact Same.refl _ _ | apply Same.after | apply execHostPortReset_same | apply Same.ite
      | apply SameParts.same | apply SameParts.upd_hp
    | dsimp only | simp only [same_mk] | split

theorem State.writeBar2_same {msk : Field → Bool} {s0 s : State} (h0 : Same msk s0 s) (a : Nat) (v : Word)
    (w_free : msk .free = false) (w_bus : msk .bus = false) (w_mem : msk .mem = false) (w_ctr : msk .ctr = false)
    (w_parts : msk .parts = false) (w_fe : msk .fe = false) (w_io : msk .io = false) (w_hp : msk .hp = false)
    (w_evt : msk .evt = false) (w_ream : msk .ream = false) (w_posts : msk .posts = false)
    (w_slots : msk .slots = false) (w_tiles : msk .tiles = false) (w_tiers : msk .tiers = false)
    (w_gat : msk .gat = false) (w_rel : msk .rel = false) (w_sec : msk .sec = false) :
    Same msk s0 (State.writeBar2 s a v) := by
  unfold State.writeBar2
  repeat' first
    | with_reducible first
      | assumption | exact Same.refl _ _ | apply State.sendPending_same | apply State.sendAllPending_same
      | apply State.writeCfg_same | apply Same.ite | apply SameParts.same | apply SameParts.upd_hp
    | dsimp only | simp only [same_mk] | split

theorem State.busWrite_same {msk : Field → Bool} {s0 s : State} (h0 : Same msk s0 s) (a : Nat) (v : Word)
    (w_free : msk .free = false) (w_fuse : msk .fuse = false) (w_bus : msk .bus = false) (w_mem : msk .mem = false)
    (w_clk : msk .clk = false) (w_ctr : msk .ctr = false) (w_tel : msk .tel = false) (w_regs : msk .regs = false)
    (w_parts : msk .parts = false) (w_fe : msk .fe = false) (w_io : msk .io = false) (w_hp : msk .hp = false)
    (w_evt : msk .evt = false) (w_dbg : msk .dbg = false) (w_ream : msk .ream = false) (w_posts : msk .posts = false)
    (w_net : msk .net = false) (w_slots : msk .slots = false) (w_tiles : msk .tiles = false)
    (w_felt : msk .felt = false) (w_tiers : msk .tiers = false) (w_gat : msk .gat = false) (w_pwr : msk .pwr = false)
    (w_mgmt : msk .mgmt = false) (w_rel : msk .rel = false) (w_ingests : msk .ingests = false)
    (w_sec : msk .sec = false) :
    Same msk s0 (State.busWrite s a v) := by
  unfold State.busWrite
  repeat' first
    | with_reducible first
      | assumption | exact Same.refl _ _ | apply Same.after | apply State.ringEnableBit_same | apply execAttach_same
      | apply execTrigger_same | apply State.cntSelect_same | apply execMigCtrlEnableClear_same
      | apply State.storeRw_same | apply State.writeEvt_same | apply State.writeNet_same | apply State.writePwr_same
      | apply State.writeSec_same | apply State.writeRel_same | apply State.writeDbg_same | apply State.writeBar2_same
      | apply Same.ite | apply SameParts.same | apply SameParts.upd_fe
    | dsimp only | simp only [same_mk] | split

theorem execRegisterWrite_same {msk : Field → Bool} (s : State) (addr : Nat) (value : Word)
    (w_free : msk .free = false) (w_fuse : msk .fuse = false) (w_bus : msk .bus = false) (w_mem : msk .mem = false)
    (w_clk : msk .clk = false) (w_ctr : msk .ctr = false) (w_tel : msk .tel = false) (w_regs : msk .regs = false)
    (w_parts : msk .parts = false) (w_fe : msk .fe = false) (w_io : msk .io = false) (w_hp : msk .hp = false)
    (w_evt : msk .evt = false) (w_dbg : msk .dbg = false) (w_ream : msk .ream = false) (w_posts : msk .posts = false)
    (w_net : msk .net = false) (w_slots : msk .slots = false) (w_tiles : msk .tiles = false)
    (w_felt : msk .felt = false) (w_tiers : msk .tiers = false) (w_gat : msk .gat = false) (w_pwr : msk .pwr = false)
    (w_mgmt : msk .mgmt = false) (w_rel : msk .rel = false) (w_ingests : msk .ingests = false)
    (w_sec : msk .sec = false) :
    ∃ t, execRegisterWrite addr value s = .next t ∧ Same msk s t := by
  refine ⟨_, rfl, ?_⟩
  repeat' first
    | with_reducible first
      | assumption | exact Same.refl _ _ | apply Same.after | apply execBarBadAccess_same | apply State.busWrite_same
      | apply Same.ite
    | dsimp only | split

theorem State.rerun_same {msk : Field → Bool} {s0 s : State} (h0 : Same msk s0 s) (ring : Nat) (seq : Nat) (data : Rd)
    (w_free : msk .free = false) (w_mem : msk .mem = false) (w_ctr : msk .ctr = false) (w_regs : msk .regs = false)
    (w_parts : msk .parts = false) (w_fe : msk .fe = false) (w_io : msk .io = false) (w_hp : msk .hp = false)
    (w_evt : msk .evt = false) (w_ream : msk .ream = false) (w_posts : msk .posts = false)
    (w_slots : msk .slots = false) (w_tiers : msk .tiers = false) (w_rel : msk .rel = false)
    (w_ingests : msk .ingests = false) (w_sec : msk .sec = false) :
    Same msk s0 (State.rerun s ring seq data) := by
  unfold State.rerun
  repeat' first
    | with_reducible first
      | assumption | exact Same.refl _ _ | apply Same.after | apply execRingSetup_same | apply execCheckpoint_same
      | apply execReamLoad_same | apply execReamPatch_same | apply execPost_same | apply execKeyInstall_same
      | apply execKeyQuery_same | apply execShingleProfile_same | apply execIngest_same | apply Same.ite
    | dsimp only | split

theorem State.walkPoison_same {msk : Field → Bool} {s0 s : State} (h0 : Same msk s0 s) (k : Nat) (c : Cmd) (g : Nat)
    (page : Nat) (w_free : msk .free = false) (w_mem : msk .mem = false) (w_ctr : msk .ctr = false)
    (w_parts : msk .parts = false) (w_fe : msk .fe = false) (w_io : msk .io = false) (w_hp : msk .hp = false)
    (w_evt : msk .evt = false) (w_posts : msk .posts = false) (w_tiers : msk .tiers = false)
    (w_rel : msk .rel = false) :
    Same msk s0 (State.walkPoison s k c g page) := by
  unfold State.walkPoison
  repeat' first
    | with_reducible first
      | assumption | exact Same.refl _ _ | apply State.poisonT1_same | apply State.faultPark_same
      | apply State.poisonMapSheet_same | apply Same.ite
    | dsimp only | split

theorem State.walkEnd_same {msk : Field → Bool} {s0 s : State} (h0 : Same msk s0 s) (k : Nat) (ring : Nat) (seq : Nat)
    (c : Cmd) (mapPoison : Bool) (data : Rd) (w_free : msk .free = false) (w_mem : msk .mem = false)
    (w_ctr : msk .ctr = false) (w_regs : msk .regs = false) (w_parts : msk .parts = false) (w_fe : msk .fe = false)
    (w_io : msk .io = false) (w_hp : msk .hp = false) (w_evt : msk .evt = false) (w_ream : msk .ream = false)
    (w_posts : msk .posts = false) (w_slots : msk .slots = false) (w_tiers : msk .tiers = false)
    (w_rel : msk .rel = false) (w_ingests : msk .ingests = false) (w_sec : msk .sec = false) :
    Same msk s0 (State.walkEnd s k ring seq c mapPoison data) := by
  unfold State.walkEnd
  repeat' first
    | with_reducible first
      | assumption | exact Same.refl _ _ | apply State.walkFill_same | apply State.rerun_same
      | apply State.walkPoison_same | apply Same.ite
    | dsimp only | split

theorem execTranslationWalkDone_same {msk : Field → Bool} (s : State) (ring : Nat) (seq : Nat) (mapPoison : Bool)
    (dir : Rd) (w_free : msk .free = false) (w_mem : msk .mem = false) (w_ctr : msk .ctr = false)
    (w_regs : msk .regs = false) (w_parts : msk .parts = false) (w_fe : msk .fe = false) (w_io : msk .io = false)
    (w_hp : msk .hp = false) (w_evt : msk .evt = false) (w_ream : msk .ream = false) (w_posts : msk .posts = false)
    (w_slots : msk .slots = false) (w_tiers : msk .tiers = false) (w_rel : msk .rel = false)
    (w_ingests : msk .ingests = false) (w_sec : msk .sec = false) :
    ∃ t, execTranslationWalkDone ring seq mapPoison dir s = .next t ∧ Same msk s t := by
  refine ⟨_, rfl, ?_⟩
  repeat' first
    | with_reducible first
      | assumption | exact Same.refl _ _ | apply State.walkEnd_same | apply Same.ite
    | dsimp only | split

theorem State.resumeTask_same {msk : Field → Bool} {s0 s : State} (h0 : Same msk s0 s) (dirs : List (Nat × Rd))
    (k : Nat) (w_free : msk .free = false) (w_mem : msk .mem = false) (w_ctr : msk .ctr = false)
    (w_regs : msk .regs = false) (w_parts : msk .parts = false) (w_fe : msk .fe = false) (w_io : msk .io = false)
    (w_hp : msk .hp = false) (w_evt : msk .evt = false) (w_ream : msk .ream = false) (w_posts : msk .posts = false)
    (w_slots : msk .slots = false) (w_tiers : msk .tiers = false) (w_rel : msk .rel = false)
    (w_ingests : msk .ingests = false) (w_sec : msk .sec = false) :
    Same msk s0 (State.resumeTask s dirs k) := by
  unfold State.resumeTask
  repeat' first
    | with_reducible first
      | assumption | exact Same.refl _ _ | apply State.freeTaskOf_same | apply State.recheck_same
      | apply State.rerun_same | apply Same.ite
    | dsimp only | split

theorem execFaultResumeResume_same {msk : Field → Bool} (s : State) (ring : Nat) (seq : Nat) (dirs : List (Nat × Rd))
    (w_free : msk .free = false) (w_mem : msk .mem = false) (w_ctr : msk .ctr = false) (w_regs : msk .regs = false)
    (w_parts : msk .parts = false) (w_fe : msk .fe = false) (w_io : msk .io = false) (w_hp : msk .hp = false)
    (w_evt : msk .evt = false) (w_ream : msk .ream = false) (w_posts : msk .posts = false)
    (w_slots : msk .slots = false) (w_tiers : msk .tiers = false) (w_rel : msk .rel = false)
    (w_ingests : msk .ingests = false) (w_sec : msk .sec = false) :
    ∃ t, execFaultResumeResume ring seq dirs s = .next t ∧ Same msk s t := by
  refine ⟨_, rfl, ?_⟩
  repeat' first
    | with_reducible first
      | assumption | exact Same.refl _ _ | refine Same.each ?_ _ _ (fun _ _ _ => ?_) | apply State.finish_same
      | apply State.front_same | apply State.recheckHeld_same | apply State.resumeTask_same | apply Same.ite | intro _
    | dsimp only | split

theorem execSegmentDrainDone_same {msk : Field → Bool} (s : State) (part : Nat) (seg : Nat)
    (w_free : msk .free = false) (w_mem : msk .mem = false) (w_ctr : msk .ctr = false) (w_parts : msk .parts = false)
    (w_fe : msk .fe = false) (w_io : msk .io = false) (w_hp : msk .hp = false) (w_evt : msk .evt = false)
    (w_ream : msk .ream = false) (w_posts : msk .posts = false) (w_net : msk .net = false)
    (w_slots : msk .slots = false) (w_tiles : msk .tiles = false) (w_tiers : msk .tiers = false)
    (w_gat : msk .gat = false) (w_rel : msk .rel = false) :
    ∃ t, execSegmentDrainDone part seg s = .next t ∧ Same msk s t := by
  refine ⟨_, rfl, ?_⟩
  repeat' first
    | with_reducible first
      | assumption | exact Same.refl _ _ | refine Same.each ?_ _ _ (fun _ _ _ => ?_) | apply State.finish_same
      | apply State.snoop_same | apply State.dropPages_same | apply State.removeSeg_same | apply State.recheckOn_same
      | apply Same.ite | apply SameParts.same | apply SameParts.upd_fe | intro _
    | dsimp only | simp only [same_mk] | split

theorem State.timeoutCmd_same {msk : Field → Bool} {s0 s : State} (h0 : Same msk s0 s) (k : Nat) (c : Cmd)
    (w_free : msk .free = false) (w_mem : msk .mem = false) (w_ctr : msk .ctr = false) (w_parts : msk .parts = false)
    (w_fe : msk .fe = false) (w_io : msk .io = false) (w_hp : msk .hp = false) (w_evt : msk .evt = false)
    (w_ream : msk .ream = false) (w_posts : msk .posts = false) (w_slots : msk .slots = false)
    (w_tiles : msk .tiles = false) (w_tiers : msk .tiers = false) (w_gat : msk .gat = false)
    (w_rel : msk .rel = false) (w_ingests : msk .ingests = false) :
    Same msk s0 (State.timeoutCmd s k c) := by
  unfold State.timeoutCmd
  repeat' first
    | with_reducible first
      | assumption | exact Same.refl _ _ | apply State.modPost_same | apply State.causeTo_same
      | apply State.endIdle_same | apply State.failPost_same | apply State.settle_same | apply State.ingestEnd_same
      | apply State.zeroDst_same | apply Same.ite
    | dsimp only | split

theorem execRingTimeout_same {msk : Field → Bool} (s : State) (ring : Nat) (seq : Nat) (w_free : msk .free = false)
    (w_mem : msk .mem = false) (w_ctr : msk .ctr = false) (w_parts : msk .parts = false) (w_fe : msk .fe = false)
    (w_io : msk .io = false) (w_hp : msk .hp = false) (w_evt : msk .evt = false) (w_ream : msk .ream = false)
    (w_posts : msk .posts = false) (w_slots : msk .slots = false) (w_tiles : msk .tiles = false)
    (w_tiers : msk .tiers = false) (w_gat : msk .gat = false) (w_rel : msk .rel = false)
    (w_ingests : msk .ingests = false) :
    ∃ t, execRingTimeout ring seq s = .next t ∧ Same msk s t := by
  refine ⟨_, rfl, ?_⟩
  repeat' first
    | with_reducible first
      | assumption | exact Same.refl _ _ | apply State.setCmd_same | apply State.count_same
      | apply State.timeoutCmd_same | apply Same.ite
    | dsimp only | split

end Sys2Proof.Machine
end

