-- ==== Sys2Proof/Laws/State.lean ====
section
/-! SUPPORT. The setters of `State`, field by field: what each leaves alone, true by `rfl`, and reading back
what it wrote. -/

namespace Sys2Proof.Machine

/-! ### setRing -/

@[simp] theorem State.setRing_pending (s : State) (r : Nat) (v : Ring) : (s.setRing r v).pending = s.pending := rfl
@[simp] theorem State.setRing_free (s : State) (r : Nat) (v : Ring) : (s.setRing r v).free = s.free := rfl
@[simp] theorem State.setRing_fuse (s : State) (r : Nat) (v : Ring) : (s.setRing r v).fuse = s.fuse := rfl
@[simp] theorem State.setRing_bus (s : State) (r : Nat) (v : Ring) : (s.setRing r v).bus = s.bus := rfl
@[simp] theorem State.setRing_mem (s : State) (r : Nat) (v : Ring) : (s.setRing r v).mem = s.mem := rfl
@[simp] theorem State.setRing_clk (s : State) (r : Nat) (v : Ring) : (s.setRing r v).clk = s.clk := rfl
@[simp] theorem State.setRing_ctr (s : State) (r : Nat) (v : Ring) : (s.setRing r v).ctr = s.ctr := rfl
@[simp] theorem State.setRing_tel (s : State) (r : Nat) (v : Ring) : (s.setRing r v).tel = s.tel := rfl
@[simp] theorem State.setRing_regs (s : State) (r : Nat) (v : Ring) : (s.setRing r v).regs = s.regs := rfl
@[simp] theorem State.setRing_parts (s : State) (r : Nat) (v : Ring) : (s.setRing r v).parts = s.parts := rfl
@[simp] theorem State.setRing_io (s : State) (r : Nat) (v : Ring) : (s.setRing r v).io = s.io := rfl
@[simp] theorem State.setRing_hp (s : State) (r : Nat) (v : Ring) : (s.setRing r v).hp = s.hp := rfl
@[simp] theorem State.setRing_evt (s : State) (r : Nat) (v : Ring) : (s.setRing r v).evt = s.evt := rfl
@[simp] theorem State.setRing_dbg (s : State) (r : Nat) (v : Ring) : (s.setRing r v).dbg = s.dbg := rfl
@[simp] theorem State.setRing_ream (s : State) (r : Nat) (v : Ring) : (s.setRing r v).ream = s.ream := rfl
@[simp] theorem State.setRing_posts (s : State) (r : Nat) (v : Ring) : (s.setRing r v).posts = s.posts := rfl
@[simp] theorem State.setRing_net (s : State) (r : Nat) (v : Ring) : (s.setRing r v).net = s.net := rfl
@[simp] theorem State.setRing_slots (s : State) (r : Nat) (v : Ring) : (s.setRing r v).slots = s.slots := rfl
@[simp] theorem State.setRing_tiles (s : State) (r : Nat) (v : Ring) : (s.setRing r v).tiles = s.tiles := rfl
@[simp] theorem State.setRing_felt (s : State) (r : Nat) (v : Ring) : (s.setRing r v).felt = s.felt := rfl
@[simp] theorem State.setRing_tiers (s : State) (r : Nat) (v : Ring) : (s.setRing r v).tiers = s.tiers := rfl
@[simp] theorem State.setRing_gat (s : State) (r : Nat) (v : Ring) : (s.setRing r v).gat = s.gat := rfl
@[simp] theorem State.setRing_pwr (s : State) (r : Nat) (v : Ring) : (s.setRing r v).pwr = s.pwr := rfl
@[simp] theorem State.setRing_mgmt (s : State) (r : Nat) (v : Ring) : (s.setRing r v).mgmt = s.mgmt := rfl
@[simp] theorem State.setRing_rel (s : State) (r : Nat) (v : Ring) : (s.setRing r v).rel = s.rel := rfl
@[simp] theorem State.setRing_ingests (s : State) (r : Nat) (v : Ring) : (s.setRing r v).ingests = s.ingests := rfl
@[simp] theorem State.setRing_sec (s : State) (r : Nat) (v : Ring) : (s.setRing r v).sec = s.sec := rfl
@[simp] theorem State.setRing_fe_cmds (s : State) (r : Nat) (v : Ring) :
    (s.setRing r v).fe.cmds = s.fe.cmds := rfl
@[simp] theorem State.setRing_fe_tasks (s : State) (r : Nat) (v : Ring) :
    (s.setRing r v).fe.tasks = s.fe.tasks := rfl
@[simp] theorem State.setRing_fe_held (s : State) (r : Nat) (v : Ring) :
    (s.setRing r v).fe.held = s.fe.held := rfl
@[simp] theorem State.setRing_fe_walks (s : State) (r : Nat) (v : Ring) :
    (s.setRing r v).fe.walks = s.fe.walks := rfl
@[simp] theorem State.setRing_fe_rr (s : State) (r : Nat) (v : Ring) :
    (s.setRing r v).fe.rr = s.fe.rr := rfl
@[simp] theorem State.setRing_fe_segCache (s : State) (r : Nat) (v : Ring) :
    (s.setRing r v).fe.segCache = s.fe.segCache := rfl
@[simp] theorem State.setRing_fe_pageCache (s : State) (r : Nat) (v : Ring) :
    (s.setRing r v).fe.pageCache = s.fe.pageCache := rfl
@[simp] theorem State.setRing_fe_tileFaults (s : State) (r : Nat) (v : Ring) :
    (s.setRing r v).fe.tileFaults = s.fe.tileFaults := rfl
@[simp] theorem State.setRing_fe_fq (s : State) (r : Nat) (v : Ring) :
    (s.setRing r v).fe.fq = s.fe.fq := rfl
@[simp] theorem State.setRing_fe_fqProd (s : State) (r : Nat) (v : Ring) :
    (s.setRing r v).fe.fqProd = s.fe.fqProd := rfl
@[simp] theorem State.setRing_fe_fqOvf (s : State) (r : Nat) (v : Ring) :
    (s.setRing r v).fe.fqOvf = s.fe.fqOvf := rfl
@[simp] theorem State.setRing_fe_drain (s : State) (r : Nat) (v : Ring) :
    (s.setRing r v).fe.drain = s.fe.drain := rfl
@[simp] theorem State.setRing_cmd (s : State) (r : Nat) (v : Ring) (j : Nat) :
    (s.setRing r v).cmd? j = s.cmd? j := rfl
@[simp] theorem State.setRing_part (s : State) (r : Nat) (v : Ring) (j : Nat) :
    (s.setRing r v).part j = s.part j := rfl
@[simp] theorem State.setRing_post (s : State) (r : Nat) (v : Ring) (j : Nat) :
    (s.setRing r v).post? j = s.post? j := rfl
@[simp] theorem State.setRing_src (s : State) (r : Nat) (v : Ring) (j : Nat) :
    (s.setRing r v).src j = s.src j := rfl
@[simp] theorem State.setRing_regW (s : State) (r : Nat) (v : Ring) (j : Nat) :
    (s.setRing r v).regW j = s.regW j := rfl
@[simp] theorem State.setRing_regF (s : State) (r : Nat) (v : Ring) (j hi lo : Nat) :
    (s.setRing r v).regF j hi lo = s.regF j hi lo := rfl
@[simp] theorem State.setRing_counter (s : State) (r : Nat) (v : Ring) (j l : Nat) :
    (s.setRing r v).counter j l = s.counter j l := rfl
@[simp] theorem State.setRing_tile (s : State) (r : Nat) (v : Ring) (j : Nat) :
    (s.setRing r v).tile j = s.tile j := rfl
@[simp] theorem State.setRing_slot (s : State) (r : Nat) (v : Ring) (j : Nat) :
    (s.setRing r v).slot j = s.slot j := rfl
@[simp] theorem State.setRing_qp (s : State) (r : Nat) (v : Ring) (j : Nat) :
    (s.setRing r v).qp j = s.qp j := rfl
@[simp] theorem State.setRing_port (s : State) (r : Nat) (v : Ring) (j : Nat) :
    (s.setRing r v).port j = s.port j := rfl
@[simp] theorem State.setRing_now (s : State) (r : Nat) (v : Ring) :
    (s.setRing r v).now = s.now := rfl
@[simp] theorem State.setRing_hostUp (s : State) (r : Nat) (v : Ring) (j l : Nat) :
    (s.setRing r v).hostUp j l = s.hostUp j l := rfl
@[simp] theorem State.setRing_srcOwner (s : State) (r : Nat) (v : Ring) (j : Nat) :
    (s.setRing r v).srcOwner j = s.srcOwner j := rfl
@[simp] theorem State.setRing_coalCount (s : State) (r : Nat) (v : Ring) (j : Nat) :
    (s.setRing r v).coalCount j = s.coalCount j := rfl

/-! ### modRing -/

@[simp] theorem State.modRing_pending (s : State) (r : Nat) (f : Ring → Ring) : (s.modRing r f).pending = s.pending := rfl
@[simp] theorem State.modRing_free (s : State) (r : Nat) (f : Ring → Ring) : (s.modRing r f).free = s.free := rfl
@[simp] theorem State.modRing_fuse (s : State) (r : Nat) (f : Ring → Ring) : (s.modRing r f).fuse = s.fuse := rfl
@[simp] theorem State.modRing_bus (s : State) (r : Nat) (f : Ring → Ring) : (s.modRing r f).bus = s.bus := rfl
@[simp] theorem State.modRing_mem (s : State) (r : Nat) (f : Ring → Ring) : (s.modRing r f).mem = s.mem := rfl
@[simp] theorem State.modRing_clk (s : State) (r : Nat) (f : Ring → Ring) : (s.modRing r f).clk = s.clk := rfl
@[simp] theorem State.modRing_ctr (s : State) (r : Nat) (f : Ring → Ring) : (s.modRing r f).ctr = s.ctr := rfl
@[simp] theorem State.modRing_tel (s : State) (r : Nat) (f : Ring → Ring) : (s.modRing r f).tel = s.tel := rfl
@[simp] theorem State.modRing_regs (s : State) (r : Nat) (f : Ring → Ring) : (s.modRing r f).regs = s.regs := rfl
@[simp] theorem State.modRing_parts (s : State) (r : Nat) (f : Ring → Ring) : (s.modRing r f).parts = s.parts := rfl
@[simp] theorem State.modRing_io (s : State) (r : Nat) (f : Ring → Ring) : (s.modRing r f).io = s.io := rfl
@[simp] theorem State.modRing_hp (s : State) (r : Nat) (f : Ring → Ring) : (s.modRing r f).hp = s.hp := rfl
@[simp] theorem State.modRing_evt (s : State) (r : Nat) (f : Ring → Ring) : (s.modRing r f).evt = s.evt := rfl
@[simp] theorem State.modRing_dbg (s : State) (r : Nat) (f : Ring → Ring) : (s.modRing r f).dbg = s.dbg := rfl
@[simp] theorem State.modRing_ream (s : State) (r : Nat) (f : Ring → Ring) : (s.modRing r f).ream = s.ream := rfl
@[simp] theorem State.modRing_posts (s : State) (r : Nat) (f : Ring → Ring) : (s.modRing r f).posts = s.posts := rfl
@[simp] theorem State.modRing_net (s : State) (r : Nat) (f : Ring → Ring) : (s.modRing r f).net = s.net := rfl
@[simp] theorem State.modRing_slots (s : State) (r : Nat) (f : Ring → Ring) : (s.modRing r f).slots = s.slots := rfl
@[simp] theorem State.modRing_tiles (s : State) (r : Nat) (f : Ring → Ring) : (s.modRing r f).tiles = s.tiles := rfl
@[simp] theorem State.modRing_felt (s : State) (r : Nat) (f : Ring → Ring) : (s.modRing r f).felt = s.felt := rfl
@[simp] theorem State.modRing_tiers (s : State) (r : Nat) (f : Ring → Ring) : (s.modRing r f).tiers = s.tiers := rfl
@[simp] theorem State.modRing_gat (s : State) (r : Nat) (f : Ring → Ring) : (s.modRing r f).gat = s.gat := rfl
@[simp] theorem State.modRing_pwr (s : State) (r : Nat) (f : Ring → Ring) : (s.modRing r f).pwr = s.pwr := rfl
@[simp] theorem State.modRing_mgmt (s : State) (r : Nat) (f : Ring → Ring) : (s.modRing r f).mgmt = s.mgmt := rfl
@[simp] theorem State.modRing_rel (s : State) (r : Nat) (f : Ring → Ring) : (s.modRing r f).rel = s.rel := rfl
@[simp] theorem State.modRing_ingests (s : State) (r : Nat) (f : Ring → Ring) : (s.modRing r f).ingests = s.ingests := rfl
@[simp] theorem State.modRing_sec (s : State) (r : Nat) (f : Ring → Ring) : (s.modRing r f).sec = s.sec := rfl
@[simp] theorem State.modRing_fe_cmds (s : State) (r : Nat) (f : Ring → Ring) :
    (s.modRing r f).fe.cmds = s.fe.cmds := rfl
@[simp] theorem State.modRing_fe_tasks (s : State) (r : Nat) (f : Ring → Ring) :
    (s.modRing r f).fe.tasks = s.fe.tasks := rfl
@[simp] theorem State.modRing_fe_held (s : State) (r : Nat) (f : Ring → Ring) :
    (s.modRing r f).fe.held = s.fe.held := rfl
@[simp] theorem State.modRing_fe_walks (s : State) (r : Nat) (f : Ring → Ring) :
    (s.modRing r f).fe.walks = s.fe.walks := rfl
@[simp] theorem State.modRing_fe_rr (s : State) (r : Nat) (f : Ring → Ring) :
    (s.modRing r f).fe.rr = s.fe.rr := rfl
@[simp] theorem State.modRing_fe_segCache (s : State) (r : Nat) (f : Ring → Ring) :
    (s.modRing r f).fe.segCache = s.fe.segCache := rfl
@[simp] theorem State.modRing_fe_pageCache (s : State) (r : Nat) (f : Ring → Ring) :
    (s.modRing r f).fe.pageCache = s.fe.pageCache := rfl
@[simp] theorem State.modRing_fe_tileFaults (s : State) (r : Nat) (f : Ring → Ring) :
    (s.modRing r f).fe.tileFaults = s.fe.tileFaults := rfl
@[simp] theorem State.modRing_fe_fq (s : State) (r : Nat) (f : Ring → Ring) :
    (s.modRing r f).fe.fq = s.fe.fq := rfl
@[simp] theorem State.modRing_fe_fqProd (s : State) (r : Nat) (f : Ring → Ring) :
    (s.modRing r f).fe.fqProd = s.fe.fqProd := rfl
@[simp] theorem State.modRing_fe_fqOvf (s : State) (r : Nat) (f : Ring → Ring) :
    (s.modRing r f).fe.fqOvf = s.fe.fqOvf := rfl
@[simp] theorem State.modRing_fe_drain (s : State) (r : Nat) (f : Ring → Ring) :
    (s.modRing r f).fe.drain = s.fe.drain := rfl
@[simp] theorem State.modRing_cmd (s : State) (r : Nat) (f : Ring → Ring) (j : Nat) :
    (s.modRing r f).cmd? j = s.cmd? j := rfl
@[simp] theorem State.modRing_part (s : State) (r : Nat) (f : Ring → Ring) (j : Nat) :
    (s.modRing r f).part j = s.part j := rfl
@[simp] theorem State.modRing_post (s : State) (r : Nat) (f : Ring → Ring) (j : Nat) :
    (s.modRing r f).post? j = s.post? j := rfl
@[simp] theorem State.modRing_src (s : State) (r : Nat) (f : Ring → Ring) (j : Nat) :
    (s.modRing r f).src j = s.src j := rfl
@[simp] theorem State.modRing_regW (s : State) (r : Nat) (f : Ring → Ring) (j : Nat) :
    (s.modRing r f).regW j = s.regW j := rfl
@[simp] theorem State.modRing_regF (s : State) (r : Nat) (f : Ring → Ring) (j hi lo : Nat) :
    (s.modRing r f).regF j hi lo = s.regF j hi lo := rfl
@[simp] theorem State.modRing_counter (s : State) (r : Nat) (f : Ring → Ring) (j l : Nat) :
    (s.modRing r f).counter j l = s.counter j l := rfl
@[simp] theorem State.modRing_tile (s : State) (r : Nat) (f : Ring → Ring) (j : Nat) :
    (s.modRing r f).tile j = s.tile j := rfl
@[simp] theorem State.modRing_slot (s : State) (r : Nat) (f : Ring → Ring) (j : Nat) :
    (s.modRing r f).slot j = s.slot j := rfl
@[simp] theorem State.modRing_qp (s : State) (r : Nat) (f : Ring → Ring) (j : Nat) :
    (s.modRing r f).qp j = s.qp j := rfl
@[simp] theorem State.modRing_port (s : State) (r : Nat) (f : Ring → Ring) (j : Nat) :
    (s.modRing r f).port j = s.port j := rfl
@[simp] theorem State.modRing_now (s : State) (r : Nat) (f : Ring → Ring) :
    (s.modRing r f).now = s.now := rfl
@[simp] theorem State.modRing_hostUp (s : State) (r : Nat) (f : Ring → Ring) (j l : Nat) :
    (s.modRing r f).hostUp j l = s.hostUp j l := rfl
@[simp] theorem State.modRing_srcOwner (s : State) (r : Nat) (f : Ring → Ring) (j : Nat) :
    (s.modRing r f).srcOwner j = s.srcOwner j := rfl
@[simp] theorem State.modRing_coalCount (s : State) (r : Nat) (f : Ring → Ring) (j : Nat) :
    (s.modRing r f).coalCount j = s.coalCount j := rfl

/-! ### setCmd -/

@[simp] theorem State.setCmd_pending (s : State) (k : Nat) (c : Cmd) : (s.setCmd k c).pending = s.pending := rfl
@[simp] theorem State.setCmd_free (s : State) (k : Nat) (c : Cmd) : (s.setCmd k c).free = s.free := rfl
@[simp] theorem State.setCmd_fuse (s : State) (k : Nat) (c : Cmd) : (s.setCmd k c).fuse = s.fuse := rfl
@[simp] theorem State.setCmd_bus (s : State) (k : Nat) (c : Cmd) : (s.setCmd k c).bus = s.bus := rfl
@[simp] theorem State.setCmd_mem (s : State) (k : Nat) (c : Cmd) : (s.setCmd k c).mem = s.mem := rfl
@[simp] theorem State.setCmd_clk (s : State) (k : Nat) (c : Cmd) : (s.setCmd k c).clk = s.clk := rfl
@[simp] theorem State.setCmd_ctr (s : State) (k : Nat) (c : Cmd) : (s.setCmd k c).ctr = s.ctr := rfl
@[simp] theorem State.setCmd_tel (s : State) (k : Nat) (c : Cmd) : (s.setCmd k c).tel = s.tel := rfl
@[simp] theorem State.setCmd_regs (s : State) (k : Nat) (c : Cmd) : (s.setCmd k c).regs = s.regs := rfl
@[simp] theorem State.setCmd_parts (s : State) (k : Nat) (c : Cmd) : (s.setCmd k c).parts = s.parts := rfl
@[simp] theorem State.setCmd_io (s : State) (k : Nat) (c : Cmd) : (s.setCmd k c).io = s.io := rfl
@[simp] theorem State.setCmd_hp (s : State) (k : Nat) (c : Cmd) : (s.setCmd k c).hp = s.hp := rfl
@[simp] theorem State.setCmd_evt (s : State) (k : Nat) (c : Cmd) : (s.setCmd k c).evt = s.evt := rfl
@[simp] theorem State.setCmd_dbg (s : State) (k : Nat) (c : Cmd) : (s.setCmd k c).dbg = s.dbg := rfl
@[simp] theorem State.setCmd_ream (s : State) (k : Nat) (c : Cmd) : (s.setCmd k c).ream = s.ream := rfl
@[simp] theorem State.setCmd_posts (s : State) (k : Nat) (c : Cmd) : (s.setCmd k c).posts = s.posts := rfl
@[simp] theorem State.setCmd_net (s : State) (k : Nat) (c : Cmd) : (s.setCmd k c).net = s.net := rfl
@[simp] theorem State.setCmd_slots (s : State) (k : Nat) (c : Cmd) : (s.setCmd k c).slots = s.slots := rfl
@[simp] theorem State.setCmd_tiles (s : State) (k : Nat) (c : Cmd) : (s.setCmd k c).tiles = s.tiles := rfl
@[simp] theorem State.setCmd_felt (s : State) (k : Nat) (c : Cmd) : (s.setCmd k c).felt = s.felt := rfl
@[simp] theorem State.setCmd_tiers (s : State) (k : Nat) (c : Cmd) : (s.setCmd k c).tiers = s.tiers := rfl
@[simp] theorem State.setCmd_gat (s : State) (k : Nat) (c : Cmd) : (s.setCmd k c).gat = s.gat := rfl
@[simp] theorem State.setCmd_pwr (s : State) (k : Nat) (c : Cmd) : (s.setCmd k c).pwr = s.pwr := rfl
@[simp] theorem State.setCmd_mgmt (s : State) (k : Nat) (c : Cmd) : (s.setCmd k c).mgmt = s.mgmt := rfl
@[simp] theorem State.setCmd_rel (s : State) (k : Nat) (c : Cmd) : (s.setCmd k c).rel = s.rel := rfl
@[simp] theorem State.setCmd_ingests (s : State) (k : Nat) (c : Cmd) : (s.setCmd k c).ingests = s.ingests := rfl
@[simp] theorem State.setCmd_sec (s : State) (k : Nat) (c : Cmd) : (s.setCmd k c).sec = s.sec := rfl
@[simp] theorem State.setCmd_fe_rings (s : State) (k : Nat) (c : Cmd) :
    (s.setCmd k c).fe.rings = s.fe.rings := rfl
@[simp] theorem State.setCmd_fe_tasks (s : State) (k : Nat) (c : Cmd) :
    (s.setCmd k c).fe.tasks = s.fe.tasks := rfl
@[simp] theorem State.setCmd_fe_held (s : State) (k : Nat) (c : Cmd) :
    (s.setCmd k c).fe.held = s.fe.held := rfl
@[simp] theorem State.setCmd_fe_walks (s : State) (k : Nat) (c : Cmd) :
    (s.setCmd k c).fe.walks = s.fe.walks := rfl
@[simp] theorem State.setCmd_fe_rr (s : State) (k : Nat) (c : Cmd) :
    (s.setCmd k c).fe.rr = s.fe.rr := rfl
@[simp] theorem State.setCmd_fe_segCache (s : State) (k : Nat) (c : Cmd) :
    (s.setCmd k c).fe.segCache = s.fe.segCache := rfl
@[simp] theorem State.setCmd_fe_pageCache (s : State) (k : Nat) (c : Cmd) :
    (s.setCmd k c).fe.pageCache = s.fe.pageCache := rfl
@[simp] theorem State.setCmd_fe_tileFaults (s : State) (k : Nat) (c : Cmd) :
    (s.setCmd k c).fe.tileFaults = s.fe.tileFaults := rfl
@[simp] theorem State.setCmd_fe_fq (s : State) (k : Nat) (c : Cmd) :
    (s.setCmd k c).fe.fq = s.fe.fq := rfl
@[simp] theorem State.setCmd_fe_fqProd (s : State) (k : Nat) (c : Cmd) :
    (s.setCmd k c).fe.fqProd = s.fe.fqProd := rfl
@[simp] theorem State.setCmd_fe_fqOvf (s : State) (k : Nat) (c : Cmd) :
    (s.setCmd k c).fe.fqOvf = s.fe.fqOvf := rfl
@[simp] theorem State.setCmd_fe_drain (s : State) (k : Nat) (c : Cmd) :
    (s.setCmd k c).fe.drain = s.fe.drain := rfl
@[simp] theorem State.setCmd_ring (s : State) (k : Nat) (c : Cmd) (j : Nat) :
    (s.setCmd k c).ring j = s.ring j := rfl
@[simp] theorem State.setCmd_part (s : State) (k : Nat) (c : Cmd) (j : Nat) :
    (s.setCmd k c).part j = s.part j := rfl
@[simp] theorem State.setCmd_post (s : State) (k : Nat) (c : Cmd) (j : Nat) :
    (s.setCmd k c).post? j = s.post? j := rfl
@[simp] theorem State.setCmd_src (s : State) (k : Nat) (c : Cmd) (j : Nat) :
    (s.setCmd k c).src j = s.src j := rfl
@[simp] theorem State.setCmd_regW (s : State) (k : Nat) (c : Cmd) (j : Nat) :
    (s.setCmd k c).regW j = s.regW j := rfl
@[simp] theorem State.setCmd_regF (s : State) (k : Nat) (c : Cmd) (j hi lo : Nat) :
    (s.setCmd k c).regF j hi lo = s.regF j hi lo := rfl
@[simp] theorem State.setCmd_counter (s : State) (k : Nat) (c : Cmd) (j l : Nat) :
    (s.setCmd k c).counter j l = s.counter j l := rfl
@[simp] theorem State.setCmd_tile (s : State) (k : Nat) (c : Cmd) (j : Nat) :
    (s.setCmd k c).tile j = s.tile j := rfl
@[simp] theorem State.setCmd_slot (s : State) (k : Nat) (c : Cmd) (j : Nat) :
    (s.setCmd k c).slot j = s.slot j := rfl
@[simp] theorem State.setCmd_qp (s : State) (k : Nat) (c : Cmd) (j : Nat) :
    (s.setCmd k c).qp j = s.qp j := rfl
@[simp] theorem State.setCmd_port (s : State) (k : Nat) (c : Cmd) (j : Nat) :
    (s.setCmd k c).port j = s.port j := rfl
@[simp] theorem State.setCmd_now (s : State) (k : Nat) (c : Cmd) :
    (s.setCmd k c).now = s.now := rfl
@[simp] theorem State.setCmd_hostUp (s : State) (k : Nat) (c : Cmd) (j l : Nat) :
    (s.setCmd k c).hostUp j l = s.hostUp j l := rfl
@[simp] theorem State.setCmd_srcOwner (s : State) (k : Nat) (c : Cmd) (j : Nat) :
    (s.setCmd k c).srcOwner j = s.srcOwner j := rfl
@[simp] theorem State.setCmd_coalCount (s : State) (k : Nat) (c : Cmd) (j : Nat) :
    (s.setCmd k c).coalCount j = s.coalCount j := rfl

/-! ### setPhase -/

@[simp] theorem State.setPhase_pending (s : State) (k : Nat) (ph : Phase) : (s.setPhase k ph).pending = s.pending := by unfold State.setPhase; split <;> rfl
@[simp] theorem State.setPhase_free (s : State) (k : Nat) (ph : Phase) : (s.setPhase k ph).free = s.free := by unfold State.setPhase; split <;> rfl
@[simp] theorem State.setPhase_fuse (s : State) (k : Nat) (ph : Phase) : (s.setPhase k ph).fuse = s.fuse := by unfold State.setPhase; split <;> rfl
@[simp] theorem State.setPhase_bus (s : State) (k : Nat) (ph : Phase) : (s.setPhase k ph).bus = s.bus := by unfold State.setPhase; split <;> rfl
@[simp] theorem State.setPhase_mem (s : State) (k : Nat) (ph : Phase) : (s.setPhase k ph).mem = s.mem := by unfold State.setPhase; split <;> rfl
@[simp] theorem State.setPhase_clk (s : State) (k : Nat) (ph : Phase) : (s.setPhase k ph).clk = s.clk := by unfold State.setPhase; split <;> rfl
@[simp] theorem State.setPhase_ctr (s : State) (k : Nat) (ph : Phase) : (s.setPhase k ph).ctr = s.ctr := by unfold State.setPhase; split <;> rfl
@[simp] theorem State.setPhase_tel (s : State) (k : Nat) (ph : Phase) : (s.setPhase k ph).tel = s.tel := by unfold State.setPhase; split <;> rfl
@[simp] theorem State.setPhase_regs (s : State) (k : Nat) (ph : Phase) : (s.setPhase k ph).regs = s.regs := by unfold State.setPhase; split <;> rfl
@[simp] theorem State.setPhase_parts (s : State) (k : Nat) (ph : Phase) : (s.setPhase k ph).parts = s.parts := by unfold State.setPhase; split <;> rfl
@[simp] theorem State.setPhase_io (s : State) (k : Nat) (ph : Phase) : (s.setPhase k ph).io = s.io := by unfold State.setPhase; split <;> rfl
@[simp] theorem State.setPhase_hp (s : State) (k : Nat) (ph : Phase) : (s.setPhase k ph).hp = s.hp := by unfold State.setPhase; split <;> rfl
@[simp] theorem State.setPhase_evt (s : State) (k : Nat) (ph : Phase) : (s.setPhase k ph).evt = s.evt := by unfold State.setPhase; split <;> rfl
@[simp] theorem State.setPhase_dbg (s : State) (k : Nat) (ph : Phase) : (s.setPhase k ph).dbg = s.dbg := by unfold State.setPhase; split <;> rfl
@[simp] theorem State.setPhase_ream (s : State) (k : Nat) (ph : Phase) : (s.setPhase k ph).ream = s.ream := by unfold State.setPhase; split <;> rfl
@[simp] theorem State.setPhase_posts (s : State) (k : Nat) (ph : Phase) : (s.setPhase k ph).posts = s.posts := by unfold State.setPhase; split <;> rfl
@[simp] theorem State.setPhase_net (s : State) (k : Nat) (ph : Phase) : (s.setPhase k ph).net = s.net := by unfold State.setPhase; split <;> rfl
@[simp] theorem State.setPhase_slots (s : State) (k : Nat) (ph : Phase) : (s.setPhase k ph).slots = s.slots := by unfold State.setPhase; split <;> rfl
@[simp] theorem State.setPhase_tiles (s : State) (k : Nat) (ph : Phase) : (s.setPhase k ph).tiles = s.tiles := by unfold State.setPhase; split <;> rfl
@[simp] theorem State.setPhase_felt (s : State) (k : Nat) (ph : Phase) : (s.setPhase k ph).felt = s.felt := by unfold State.setPhase; split <;> rfl
@[simp] theorem State.setPhase_tiers (s : State) (k : Nat) (ph : Phase) : (s.setPhase k ph).tiers = s.tiers := by unfold State.setPhase; split <;> rfl
@[simp] theorem State.setPhase_gat (s : State) (k : Nat) (ph : Phase) : (s.setPhase k ph).gat = s.gat := by unfold State.setPhase; split <;> rfl
@[simp] theorem State.setPhase_pwr (s : State) (k : Nat) (ph : Phase) : (s.setPhase k ph).pwr = s.pwr := by unfold State.setPhase; split <;> rfl
@[simp] theorem State.setPhase_mgmt (s : State) (k : Nat) (ph : Phase) : (s.setPhase k ph).mgmt = s.mgmt := by unfold State.setPhase; split <;> rfl
@[simp] theorem State.setPhase_rel (s : State) (k : Nat) (ph : Phase) : (s.setPhase k ph).rel = s.rel := by unfold State.setPhase; split <;> rfl
@[simp] theorem State.setPhase_ingests (s : State) (k : Nat) (ph : Phase) : (s.setPhase k ph).ingests = s.ingests := by unfold State.setPhase; split <;> rfl
@[simp] theorem State.setPhase_sec (s : State) (k : Nat) (ph : Phase) : (s.setPhase k ph).sec = s.sec := by unfold State.setPhase; split <;> rfl
@[simp] theorem State.setPhase_fe_rings (s : State) (k : Nat) (ph : Phase) :
    (s.setPhase k ph).fe.rings = s.fe.rings := by unfold State.setPhase; split <;> rfl
@[simp] theorem State.setPhase_fe_tasks (s : State) (k : Nat) (ph : Phase) :
    (s.setPhase k ph).fe.tasks = s.fe.tasks := by unfold State.setPhase; split <;> rfl
@[simp] theorem State.setPhase_fe_held (s : State) (k : Nat) (ph : Phase) :
    (s.setPhase k ph).fe.held = s.fe.held := by unfold State.setPhase; split <;> rfl
@[simp] theorem State.setPhase_fe_walks (s : State) (k : Nat) (ph : Phase) :
    (s.setPhase k ph).fe.walks = s.fe.walks := by unfold State.setPhase; split <;> rfl
@[simp] theorem State.setPhase_fe_rr (s : State) (k : Nat) (ph : Phase) :
    (s.setPhase k ph).fe.rr = s.fe.rr := by unfold State.setPhase; split <;> rfl
@[simp] theorem State.setPhase_fe_segCache (s : State) (k : Nat) (ph : Phase) :
    (s.setPhase k ph).fe.segCache = s.fe.segCache := by unfold State.setPhase; split <;> rfl
@[simp] theorem State.setPhase_fe_pageCache (s : State) (k : Nat) (ph : Phase) :
    (s.setPhase k ph).fe.pageCache = s.fe.pageCache := by unfold State.setPhase; split <;> rfl
@[simp] theorem State.setPhase_fe_tileFaults (s : State) (k : Nat) (ph : Phase) :
    (s.setPhase k ph).fe.tileFaults = s.fe.tileFaults := by unfold State.setPhase; split <;> rfl
@[simp] theorem State.setPhase_fe_fq (s : State) (k : Nat) (ph : Phase) :
    (s.setPhase k ph).fe.fq = s.fe.fq := by unfold State.setPhase; split <;> rfl
@[simp] theorem State.setPhase_fe_fqProd (s : State) (k : Nat) (ph : Phase) :
    (s.setPhase k ph).fe.fqProd = s.fe.fqProd := by unfold State.setPhase; split <;> rfl
@[simp] theorem State.setPhase_fe_fqOvf (s : State) (k : Nat) (ph : Phase) :
    (s.setPhase k ph).fe.fqOvf = s.fe.fqOvf := by unfold State.setPhase; split <;> rfl
@[simp] theorem State.setPhase_fe_drain (s : State) (k : Nat) (ph : Phase) :
    (s.setPhase k ph).fe.drain = s.fe.drain := by unfold State.setPhase; split <;> rfl
@[simp] theorem State.setPhase_ring (s : State) (k : Nat) (ph : Phase) (j : Nat) :
    (s.setPhase k ph).ring j = s.ring j := by unfold State.setPhase; split <;> rfl
@[simp] theorem State.setPhase_part (s : State) (k : Nat) (ph : Phase) (j : Nat) :
    (s.setPhase k ph).part j = s.part j := by unfold State.setPhase; split <;> rfl
@[simp] theorem State.setPhase_post (s : State) (k : Nat) (ph : Phase) (j : Nat) :
    (s.setPhase k ph).post? j = s.post? j := by unfold State.setPhase; split <;> rfl
@[simp] theorem State.setPhase_src (s : State) (k : Nat) (ph : Phase) (j : Nat) :
    (s.setPhase k ph).src j = s.src j := by unfold State.setPhase; split <;> rfl
@[simp] theorem State.setPhase_regW (s : State) (k : Nat) (ph : Phase) (j : Nat) :
    (s.setPhase k ph).regW j = s.regW j := by unfold State.setPhase; split <;> rfl
@[simp] theorem State.setPhase_regF (s : State) (k : Nat) (ph : Phase) (j hi lo : Nat) :
    (s.setPhase k ph).regF j hi lo = s.regF j hi lo := by unfold State.setPhase; split <;> rfl
@[simp] theorem State.setPhase_counter (s : State) (k : Nat) (ph : Phase) (j l : Nat) :
    (s.setPhase k ph).counter j l = s.counter j l := by unfold State.setPhase; split <;> rfl
@[simp] theorem State.setPhase_tile (s : State) (k : Nat) (ph : Phase) (j : Nat) :
    (s.setPhase k ph).tile j = s.tile j := by unfold State.setPhase; split <;> rfl
@[simp] theorem State.setPhase_slot (s : State) (k : Nat) (ph : Phase) (j : Nat) :
    (s.setPhase k ph).slot j = s.slot j := by unfold State.setPhase; split <;> rfl
@[simp] theorem State.setPhase_qp (s : State) (k : Nat) (ph : Phase) (j : Nat) :
    (s.setPhase k ph).qp j = s.qp j := by unfold State.setPhase; split <;> rfl
@[simp] theorem State.setPhase_port (s : State) (k : Nat) (ph : Phase) (j : Nat) :
    (s.setPhase k ph).port j = s.port j := by unfold State.setPhase; split <;> rfl
@[simp] theorem State.setPhase_now (s : State) (k : Nat) (ph : Phase) :
    (s.setPhase k ph).now = s.now := by unfold State.setPhase; split <;> rfl
@[simp] theorem State.setPhase_hostUp (s : State) (k : Nat) (ph : Phase) (j l : Nat) :
    (s.setPhase k ph).hostUp j l = s.hostUp j l := by unfold State.setPhase; split <;> rfl
@[simp] theorem State.setPhase_srcOwner (s : State) (k : Nat) (ph : Phase) (j : Nat) :
    (s.setPhase k ph).srcOwner j = s.srcOwner j := by unfold State.setPhase; split <;> rfl
@[simp] theorem State.setPhase_coalCount (s : State) (k : Nat) (ph : Phase) (j : Nat) :
    (s.setPhase k ph).coalCount j = s.coalCount j := by unfold State.setPhase; split <;> rfl

/-! ### setPart -/

@[simp] theorem State.setPart_pending (s : State) (p : Nat) (v : Part) : (s.setPart p v).pending = s.pending := rfl
@[simp] theorem State.setPart_free (s : State) (p : Nat) (v : Part) : (s.setPart p v).free = s.free := rfl
@[simp] theorem State.setPart_fuse (s : State) (p : Nat) (v : Part) : (s.setPart p v).fuse = s.fuse := rfl
@[simp] theorem State.setPart_bus (s : State) (p : Nat) (v : Part) : (s.setPart p v).bus = s.bus := rfl
@[simp] theorem State.setPart_mem (s : State) (p : Nat) (v : Part) : (s.setPart p v).mem = s.mem := rfl
@[simp] theorem State.setPart_clk (s : State) (p : Nat) (v : Part) : (s.setPart p v).clk = s.clk := rfl
@[simp] theorem State.setPart_ctr (s : State) (p : Nat) (v : Part) : (s.setPart p v).ctr = s.ctr := rfl
@[simp] theorem State.setPart_tel (s : State) (p : Nat) (v : Part) : (s.setPart p v).tel = s.tel := rfl
@[simp] theorem State.setPart_regs (s : State) (p : Nat) (v : Part) : (s.setPart p v).regs = s.regs := rfl
@[simp] theorem State.setPart_fe (s : State) (p : Nat) (v : Part) : (s.setPart p v).fe = s.fe := rfl
@[simp] theorem State.setPart_io (s : State) (p : Nat) (v : Part) : (s.setPart p v).io = s.io := rfl
@[simp] theorem State.setPart_hp (s : State) (p : Nat) (v : Part) : (s.setPart p v).hp = s.hp := rfl
@[simp] theorem State.setPart_evt (s : State) (p : Nat) (v : Part) : (s.setPart p v).evt = s.evt := rfl
@[simp] theorem State.setPart_dbg (s : State) (p : Nat) (v : Part) : (s.setPart p v).dbg = s.dbg := rfl
@[simp] theorem State.setPart_ream (s : State) (p : Nat) (v : Part) : (s.setPart p v).ream = s.ream := rfl
@[simp] theorem State.setPart_posts (s : State) (p : Nat) (v : Part) : (s.setPart p v).posts = s.posts := rfl
@[simp] theorem State.setPart_net (s : State) (p : Nat) (v : Part) : (s.setPart p v).net = s.net := rfl
@[simp] theorem State.setPart_slots (s : State) (p : Nat) (v : Part) : (s.setPart p v).slots = s.slots := rfl
@[simp] theorem State.setPart_tiles (s : State) (p : Nat) (v : Part) : (s.setPart p v).tiles = s.tiles := rfl
@[simp] theorem State.setPart_felt (s : State) (p : Nat) (v : Part) : (s.setPart p v).felt = s.felt := rfl
@[simp] theorem State.setPart_tiers (s : State) (p : Nat) (v : Part) : (s.setPart p v).tiers = s.tiers := rfl
@[simp] theorem State.setPart_gat (s : State) (p : Nat) (v : Part) : (s.setPart p v).gat = s.gat := rfl
@[simp] theorem State.setPart_pwr (s : State) (p : Nat) (v : Part) : (s.setPart p v).pwr = s.pwr := rfl
@[simp] theorem State.setPart_mgmt (s : State) (p : Nat) (v : Part) : (s.setPart p v).mgmt = s.mgmt := rfl
@[simp] theorem State.setPart_rel (s : State) (p : Nat) (v : Part) : (s.setPart p v).rel = s.rel := rfl
@[simp] theorem State.setPart_ingests (s : State) (p : Nat) (v : Part) : (s.setPart p v).ingests = s.ingests := rfl
@[simp] theorem State.setPart_sec (s : State) (p : Nat) (v : Part) : (s.setPart p v).sec = s.sec := rfl
@[simp] theorem State.setPart_ring (s : State) (p : Nat) (v : Part) (j : Nat) :
    (s.setPart p v).ring j = s.ring j := rfl
@[simp] theorem State.setPart_cmd (s : State) (p : Nat) (v : Part) (j : Nat) :
    (s.setPart p v).cmd? j = s.cmd? j := rfl
@[simp] theorem State.setPart_post (s : State) (p : Nat) (v : Part) (j : Nat) :
    (s.setPart p v).post? j = s.post? j := rfl
@[simp] theorem State.setPart_src (s : State) (p : Nat) (v : Part) (j : Nat) :
    (s.setPart p v).src j = s.src j := rfl
@[simp] theorem State.setPart_regW (s : State) (p : Nat) (v : Part) (j : Nat) :
    (s.setPart p v).regW j = s.regW j := rfl
@[simp] theorem State.setPart_regF (s : State) (p : Nat) (v : Part) (j hi lo : Nat) :
    (s.setPart p v).regF j hi lo = s.regF j hi lo := rfl
@[simp] theorem State.setPart_counter (s : State) (p : Nat) (v : Part) (j l : Nat) :
    (s.setPart p v).counter j l = s.counter j l := rfl
@[simp] theorem State.setPart_tile (s : State) (p : Nat) (v : Part) (j : Nat) :
    (s.setPart p v).tile j = s.tile j := rfl
@[simp] theorem State.setPart_slot (s : State) (p : Nat) (v : Part) (j : Nat) :
    (s.setPart p v).slot j = s.slot j := rfl
@[simp] theorem State.setPart_qp (s : State) (p : Nat) (v : Part) (j : Nat) :
    (s.setPart p v).qp j = s.qp j := rfl
@[simp] theorem State.setPart_port (s : State) (p : Nat) (v : Part) (j : Nat) :
    (s.setPart p v).port j = s.port j := rfl
@[simp] theorem State.setPart_now (s : State) (p : Nat) (v : Part) :
    (s.setPart p v).now = s.now := rfl
@[simp] theorem State.setPart_srcOwner (s : State) (p : Nat) (v : Part) (j : Nat) :
    (s.setPart p v).srcOwner j = s.srcOwner j := rfl
@[simp] theorem State.setPart_coalCount (s : State) (p : Nat) (v : Part) (j : Nat) :
    (s.setPart p v).coalCount j = s.coalCount j := rfl

/-! ### modPart -/

@[simp] theorem State.modPart_pending (s : State) (p : Nat) (f : Part → Part) : (s.modPart p f).pending = s.pending := rfl
@[simp] theorem State.modPart_free (s : State) (p : Nat) (f : Part → Part) : (s.modPart p f).free = s.free := rfl
@[simp] theorem State.modPart_fuse (s : State) (p : Nat) (f : Part → Part) : (s.modPart p f).fuse = s.fuse := rfl
@[simp] theorem State.modPart_bus (s : State) (p : Nat) (f : Part → Part) : (s.modPart p f).bus = s.bus := rfl
@[simp] theorem State.modPart_mem (s : State) (p : Nat) (f : Part → Part) : (s.modPart p f).mem = s.mem := rfl
@[simp] theorem State.modPart_clk (s : State) (p : Nat) (f : Part → Part) : (s.modPart p f).clk = s.clk := rfl
@[simp] theorem State.modPart_ctr (s : State) (p : Nat) (f : Part → Part) : (s.modPart p f).ctr = s.ctr := rfl
@[simp] theorem State.modPart_tel (s : State) (p : Nat) (f : Part → Part) : (s.modPart p f).tel = s.tel := rfl
@[simp] theorem State.modPart_regs (s : State) (p : Nat) (f : Part → Part) : (s.modPart p f).regs = s.regs := rfl
@[simp] theorem State.modPart_fe (s : State) (p : Nat) (f : Part → Part) : (s.modPart p f).fe = s.fe := rfl
@[simp] theorem State.modPart_io (s : State) (p : Nat) (f : Part → Part) : (s.modPart p f).io = s.io := rfl
@[simp] theorem State.modPart_hp (s : State) (p : Nat) (f : Part → Part) : (s.modPart p f).hp = s.hp := rfl
@[simp] theorem State.modPart_evt (s : State) (p : Nat) (f : Part → Part) : (s.modPart p f).evt = s.evt := rfl
@[simp] theorem State.modPart_dbg (s : State) (p : Nat) (f : Part → Part) : (s.modPart p f).dbg = s.dbg := rfl
@[simp] theorem State.modPart_ream (s : State) (p : Nat) (f : Part → Part) : (s.modPart p f).ream = s.ream := rfl
@[simp] theorem State.modPart_posts (s : State) (p : Nat) (f : Part → Part) : (s.modPart p f).posts = s.posts := rfl
@[simp] theorem State.modPart_net (s : State) (p : Nat) (f : Part → Part) : (s.modPart p f).net = s.net := rfl
@[simp] theorem State.modPart_slots (s : State) (p : Nat) (f : Part → Part) : (s.modPart p f).slots = s.slots := rfl
@[simp] theorem State.modPart_tiles (s : State) (p : Nat) (f : Part → Part) : (s.modPart p f).tiles = s.tiles := rfl
@[simp] theorem State.modPart_felt (s : State) (p : Nat) (f : Part → Part) : (s.modPart p f).felt = s.felt := rfl
@[simp] theorem State.modPart_tiers (s : State) (p : Nat) (f : Part → Part) : (s.modPart p f).tiers = s.tiers := rfl
@[simp] theorem State.modPart_gat (s : State) (p : Nat) (f : Part → Part) : (s.modPart p f).gat = s.gat := rfl
@[simp] theorem State.modPart_pwr (s : State) (p : Nat) (f : Part → Part) : (s.modPart p f).pwr = s.pwr := rfl
@[simp] theorem State.modPart_mgmt (s : State) (p : Nat) (f : Part → Part) : (s.modPart p f).mgmt = s.mgmt := rfl
@[simp] theorem State.modPart_rel (s : State) (p : Nat) (f : Part → Part) : (s.modPart p f).rel = s.rel := rfl
@[simp] theorem State.modPart_ingests (s : State) (p : Nat) (f : Part → Part) : (s.modPart p f).ingests = s.ingests := rfl
@[simp] theorem State.modPart_sec (s : State) (p : Nat) (f : Part → Part) : (s.modPart p f).sec = s.sec := rfl
@[simp] theorem State.modPart_ring (s : State) (p : Nat) (f : Part → Part) (j : Nat) :
    (s.modPart p f).ring j = s.ring j := rfl
@[simp] theorem State.modPart_cmd (s : State) (p : Nat) (f : Part → Part) (j : Nat) :
    (s.modPart p f).cmd? j = s.cmd? j := rfl
@[simp] theorem State.modPart_post (s : State) (p : Nat) (f : Part → Part) (j : Nat) :
    (s.modPart p f).post? j = s.post? j := rfl
@[simp] theorem State.modPart_src (s : State) (p : Nat) (f : Part → Part) (j : Nat) :
    (s.modPart p f).src j = s.src j := rfl
@[simp] theorem State.modPart_regW (s : State) (p : Nat) (f : Part → Part) (j : Nat) :
    (s.modPart p f).regW j = s.regW j := rfl
@[simp] theorem State.modPart_regF (s : State) (p : Nat) (f : Part → Part) (j hi lo : Nat) :
    (s.modPart p f).regF j hi lo = s.regF j hi lo := rfl
@[simp] theorem State.modPart_counter (s : State) (p : Nat) (f : Part → Part) (j l : Nat) :
    (s.modPart p f).counter j l = s.counter j l := rfl
@[simp] theorem State.modPart_tile (s : State) (p : Nat) (f : Part → Part) (j : Nat) :
    (s.modPart p f).tile j = s.tile j := rfl
@[simp] theorem State.modPart_slot (s : State) (p : Nat) (f : Part → Part) (j : Nat) :
    (s.modPart p f).slot j = s.slot j := rfl
@[simp] theorem State.modPart_qp (s : State) (p : Nat) (f : Part → Part) (j : Nat) :
    (s.modPart p f).qp j = s.qp j := rfl
@[simp] theorem State.modPart_port (s : State) (p : Nat) (f : Part → Part) (j : Nat) :
    (s.modPart p f).port j = s.port j := rfl
@[simp] theorem State.modPart_now (s : State) (p : Nat) (f : Part → Part) :
    (s.modPart p f).now = s.now := rfl
@[simp] theorem State.modPart_srcOwner (s : State) (p : Nat) (f : Part → Part) (j : Nat) :
    (s.modPart p f).srcOwner j = s.srcOwner j := rfl
@[simp] theorem State.modPart_coalCount (s : State) (p : Nat) (f : Part → Part) (j : Nat) :
    (s.modPart p f).coalCount j = s.coalCount j := rfl

/-! ### setPost -/

@[simp] theorem State.setPost_pending (s : State) (k : Nat) (v : Post) : (s.setPost k v).pending = s.pending := rfl
@[simp] theorem State.setPost_free (s : State) (k : Nat) (v : Post) : (s.setPost k v).free = s.free := rfl
@[simp] theorem State.setPost_fuse (s : State) (k : Nat) (v : Post) : (s.setPost k v).fuse = s.fuse := rfl
@[simp] theorem State.setPost_bus (s : State) (k : Nat) (v : Post) : (s.setPost k v).bus = s.bus := rfl
@[simp] theorem State.setPost_mem (s : State) (k : Nat) (v : Post) : (s.setPost k v).mem = s.mem := rfl
@[simp] theorem State.setPost_clk (s : State) (k : Nat) (v : Post) : (s.setPost k v).clk = s.clk := rfl
@[simp] theorem State.setPost_ctr (s : State) (k : Nat) (v : Post) : (s.setPost k v).ctr = s.ctr := rfl
@[simp] theorem State.setPost_tel (s : State) (k : Nat) (v : Post) : (s.setPost k v).tel = s.tel := rfl
@[simp] theorem State.setPost_regs (s : State) (k : Nat) (v : Post) : (s.setPost k v).regs = s.regs := rfl
@[simp] theorem State.setPost_parts (s : State) (k : Nat) (v : Post) : (s.setPost k v).parts = s.parts := rfl
@[simp] theorem State.setPost_fe (s : State) (k : Nat) (v : Post) : (s.setPost k v).fe = s.fe := rfl
@[simp] theorem State.setPost_io (s : State) (k : Nat) (v : Post) : (s.setPost k v).io = s.io := rfl
@[simp] theorem State.setPost_hp (s : State) (k : Nat) (v : Post) : (s.setPost k v).hp = s.hp := rfl
@[simp] theorem State.setPost_evt (s : State) (k : Nat) (v : Post) : (s.setPost k v).evt = s.evt := rfl
@[simp] theorem State.setPost_dbg (s : State) (k : Nat) (v : Post) : (s.setPost k v).dbg = s.dbg := rfl
@[simp] theorem State.setPost_ream (s : State) (k : Nat) (v : Post) : (s.setPost k v).ream = s.ream := rfl
@[simp] theorem State.setPost_net (s : State) (k : Nat) (v : Post) : (s.setPost k v).net = s.net := rfl
@[simp] theorem State.setPost_slots (s : State) (k : Nat) (v : Post) : (s.setPost k v).slots = s.slots := rfl
@[simp] theorem State.setPost_tiles (s : State) (k : Nat) (v : Post) : (s.setPost k v).tiles = s.tiles := rfl
@[simp] theorem State.setPost_felt (s : State) (k : Nat) (v : Post) : (s.setPost k v).felt = s.felt := rfl
@[simp] theorem State.setPost_tiers (s : State) (k : Nat) (v : Post) : (s.setPost k v).tiers = s.tiers := rfl
@[simp] theorem State.setPost_gat (s : State) (k : Nat) (v : Post) : (s.setPost k v).gat = s.gat := rfl
@[simp] theorem State.setPost_pwr (s : State) (k : Nat) (v : Post) : (s.setPost k v).pwr = s.pwr := rfl
@[simp] theorem State.setPost_mgmt (s : State) (k : Nat) (v : Post) : (s.setPost k v).mgmt = s.mgmt := rfl
@[simp] theorem State.setPost_rel (s : State) (k : Nat) (v : Post) : (s.setPost k v).rel = s.rel := rfl
@[simp] theorem State.setPost_ingests (s : State) (k : Nat) (v : Post) : (s.setPost k v).ingests = s.ingests := rfl
@[simp] theorem State.setPost_sec (s : State) (k : Nat) (v : Post) : (s.setPost k v).sec = s.sec := rfl
@[simp] theorem State.setPost_ring (s : State) (k : Nat) (v : Post) (j : Nat) :
    (s.setPost k v).ring j = s.ring j := rfl
@[simp] theorem State.setPost_cmd (s : State) (k : Nat) (v : Post) (j : Nat) :
    (s.setPost k v).cmd? j = s.cmd? j := rfl
@[simp] theorem State.setPost_part (s : State) (k : Nat) (v : Post) (j : Nat) :
    (s.setPost k v).part j = s.part j := rfl
@[simp] theorem State.setPost_src (s : State) (k : Nat) (v : Post) (j : Nat) :
    (s.setPost k v).src j = s.src j := rfl
@[simp] theorem State.setPost_regW (s : State) (k : Nat) (v : Post) (j : Nat) :
    (s.setPost k v).regW j = s.regW j := rfl
@[simp] theorem State.setPost_regF (s : State) (k : Nat) (v : Post) (j hi lo : Nat) :
    (s.setPost k v).regF j hi lo = s.regF j hi lo := rfl
@[simp] theorem State.setPost_counter (s : State) (k : Nat) (v : Post) (j l : Nat) :
    (s.setPost k v).counter j l = s.counter j l := rfl
@[simp] theorem State.setPost_tile (s : State) (k : Nat) (v : Post) (j : Nat) :
    (s.setPost k v).tile j = s.tile j := rfl
@[simp] theorem State.setPost_slot (s : State) (k : Nat) (v : Post) (j : Nat) :
    (s.setPost k v).slot j = s.slot j := rfl
@[simp] theorem State.setPost_qp (s : State) (k : Nat) (v : Post) (j : Nat) :
    (s.setPost k v).qp j = s.qp j := rfl
@[simp] theorem State.setPost_port (s : State) (k : Nat) (v : Post) (j : Nat) :
    (s.setPost k v).port j = s.port j := rfl
@[simp] theorem State.setPost_now (s : State) (k : Nat) (v : Post) :
    (s.setPost k v).now = s.now := rfl
@[simp] theorem State.setPost_hostUp (s : State) (k : Nat) (v : Post) (j l : Nat) :
    (s.setPost k v).hostUp j l = s.hostUp j l := rfl
@[simp] theorem State.setPost_srcOwner (s : State) (k : Nat) (v : Post) (j : Nat) :
    (s.setPost k v).srcOwner j = s.srcOwner j := rfl
@[simp] theorem State.setPost_coalCount (s : State) (k : Nat) (v : Post) (j : Nat) :
    (s.setPost k v).coalCount j = s.coalCount j := rfl

/-! ### modPost -/

@[simp] theorem State.modPost_pending (s : State) (k : Nat) (f : Post → Post) : (s.modPost k f).pending = s.pending := by unfold State.modPost; split <;> rfl
@[simp] theorem State.modPost_free (s : State) (k : Nat) (f : Post → Post) : (s.modPost k f).free = s.free := by unfold State.modPost; split <;> rfl
@[simp] theorem State.modPost_fuse (s : State) (k : Nat) (f : Post → Post) : (s.modPost k f).fuse = s.fuse := by unfold State.modPost; split <;> rfl
@[simp] theorem State.modPost_bus (s : State) (k : Nat) (f : Post → Post) : (s.modPost k f).bus = s.bus := by unfold State.modPost; split <;> rfl
@[simp] theorem State.modPost_mem (s : State) (k : Nat) (f : Post → Post) : (s.modPost k f).mem = s.mem := by unfold State.modPost; split <;> rfl
@[simp] theorem State.modPost_clk (s : State) (k : Nat) (f : Post → Post) : (s.modPost k f).clk = s.clk := by unfold State.modPost; split <;> rfl
@[simp] theorem State.modPost_ctr (s : State) (k : Nat) (f : Post → Post) : (s.modPost k f).ctr = s.ctr := by unfold State.modPost; split <;> rfl
@[simp] theorem State.modPost_tel (s : State) (k : Nat) (f : Post → Post) : (s.modPost k f).tel = s.tel := by unfold State.modPost; split <;> rfl
@[simp] theorem State.modPost_regs (s : State) (k : Nat) (f : Post → Post) : (s.modPost k f).regs = s.regs := by unfold State.modPost; split <;> rfl
@[simp] theorem State.modPost_parts (s : State) (k : Nat) (f : Post → Post) : (s.modPost k f).parts = s.parts := by unfold State.modPost; split <;> rfl
@[simp] theorem State.modPost_fe (s : State) (k : Nat) (f : Post → Post) : (s.modPost k f).fe = s.fe := by unfold State.modPost; split <;> rfl
@[simp] theorem State.modPost_io (s : State) (k : Nat) (f : Post → Post) : (s.modPost k f).io = s.io := by unfold State.modPost; split <;> rfl
@[simp] theorem State.modPost_hp (s : State) (k : Nat) (f : Post → Post) : (s.modPost k f).hp = s.hp := by unfold State.modPost; split <;> rfl
@[simp] theorem State.modPost_evt (s : State) (k : Nat) (f : Post → Post) : (s.modPost k f).evt = s.evt := by unfold State.modPost; split <;> rfl
@[simp] theorem State.modPost_dbg (s : State) (k : Nat) (f : Post → Post) : (s.modPost k f).dbg = s.dbg := by unfold State.modPost; split <;> rfl
@[simp] theorem State.modPost_ream (s : State) (k : Nat) (f : Post → Post) : (s.modPost k f).ream = s.ream := by unfold State.modPost; split <;> rfl
@[simp] theorem State.modPost_net (s : State) (k : Nat) (f : Post → Post) : (s.modPost k f).net = s.net := by unfold State.modPost; split <;> rfl
@[simp] theorem State.modPost_slots (s : State) (k : Nat) (f : Post → Post) : (s.modPost k f).slots = s.slots := by unfold State.modPost; split <;> rfl
@[simp] theorem State.modPost_tiles (s : State) (k : Nat) (f : Post → Post) : (s.modPost k f).tiles = s.tiles := by unfold State.modPost; split <;> rfl
@[simp] theorem State.modPost_felt (s : State) (k : Nat) (f : Post → Post) : (s.modPost k f).felt = s.felt := by unfold State.modPost; split <;> rfl
@[simp] theorem State.modPost_tiers (s : State) (k : Nat) (f : Post → Post) : (s.modPost k f).tiers = s.tiers := by unfold State.modPost; split <;> rfl
@[simp] theorem State.modPost_gat (s : State) (k : Nat) (f : Post → Post) : (s.modPost k f).gat = s.gat := by unfold State.modPost; split <;> rfl
@[simp] theorem State.modPost_pwr (s : State) (k : Nat) (f : Post → Post) : (s.modPost k f).pwr = s.pwr := by unfold State.modPost; split <;> rfl
@[simp] theorem State.modPost_mgmt (s : State) (k : Nat) (f : Post → Post) : (s.modPost k f).mgmt = s.mgmt := by unfold State.modPost; split <;> rfl
@[simp] theorem State.modPost_rel (s : State) (k : Nat) (f : Post → Post) : (s.modPost k f).rel = s.rel := by unfold State.modPost; split <;> rfl
@[simp] theorem State.modPost_ingests (s : State) (k : Nat) (f : Post → Post) : (s.modPost k f).ingests = s.ingests := by unfold State.modPost; split <;> rfl
@[simp] theorem State.modPost_sec (s : State) (k : Nat) (f : Post → Post) : (s.modPost k f).sec = s.sec := by unfold State.modPost; split <;> rfl
@[simp] theorem State.modPost_ring (s : State) (k : Nat) (f : Post → Post) (j : Nat) :
    (s.modPost k f).ring j = s.ring j := by unfold State.modPost; split <;> rfl
@[simp] theorem State.modPost_cmd (s : State) (k : Nat) (f : Post → Post) (j : Nat) :
    (s.modPost k f).cmd? j = s.cmd? j := by unfold State.modPost; split <;> rfl
@[simp] theorem State.modPost_part (s : State) (k : Nat) (f : Post → Post) (j : Nat) :
    (s.modPost k f).part j = s.part j := by unfold State.modPost; split <;> rfl
@[simp] theorem State.modPost_src (s : State) (k : Nat) (f : Post → Post) (j : Nat) :
    (s.modPost k f).src j = s.src j := by unfold State.modPost; split <;> rfl
@[simp] theorem State.modPost_regW (s : State) (k : Nat) (f : Post → Post) (j : Nat) :
    (s.modPost k f).regW j = s.regW j := by unfold State.modPost; split <;> rfl
@[simp] theorem State.modPost_regF (s : State) (k : Nat) (f : Post → Post) (j hi lo : Nat) :
    (s.modPost k f).regF j hi lo = s.regF j hi lo := by unfold State.modPost; split <;> rfl
@[simp] theorem State.modPost_counter (s : State) (k : Nat) (f : Post → Post) (j l : Nat) :
    (s.modPost k f).counter j l = s.counter j l := by unfold State.modPost; split <;> rfl
@[simp] theorem State.modPost_tile (s : State) (k : Nat) (f : Post → Post) (j : Nat) :
    (s.modPost k f).tile j = s.tile j := by unfold State.modPost; split <;> rfl
@[simp] theorem State.modPost_slot (s : State) (k : Nat) (f : Post → Post) (j : Nat) :
    (s.modPost k f).slot j = s.slot j := by unfold State.modPost; split <;> rfl
@[simp] theorem State.modPost_qp (s : State) (k : Nat) (f : Post → Post) (j : Nat) :
    (s.modPost k f).qp j = s.qp j := by unfold State.modPost; split <;> rfl
@[simp] theorem State.modPost_port (s : State) (k : Nat) (f : Post → Post) (j : Nat) :
    (s.modPost k f).port j = s.port j := by unfold State.modPost; split <;> rfl
@[simp] theorem State.modPost_now (s : State) (k : Nat) (f : Post → Post) :
    (s.modPost k f).now = s.now := by unfold State.modPost; split <;> rfl
@[simp] theorem State.modPost_hostUp (s : State) (k : Nat) (f : Post → Post) (j l : Nat) :
    (s.modPost k f).hostUp j l = s.hostUp j l := by unfold State.modPost; split <;> rfl
@[simp] theorem State.modPost_srcOwner (s : State) (k : Nat) (f : Post → Post) (j : Nat) :
    (s.modPost k f).srcOwner j = s.srcOwner j := by unfold State.modPost; split <;> rfl
@[simp] theorem State.modPost_coalCount (s : State) (k : Nat) (f : Post → Post) (j : Nat) :
    (s.modPost k f).coalCount j = s.coalCount j := by unfold State.modPost; split <;> rfl

/-! ### setSrc -/

@[simp] theorem State.setSrc_pending (s : State) (i : Nat) (v : Src) : (s.setSrc i v).pending = s.pending := rfl
@[simp] theorem State.setSrc_free (s : State) (i : Nat) (v : Src) : (s.setSrc i v).free = s.free := rfl
@[simp] theorem State.setSrc_fuse (s : State) (i : Nat) (v : Src) : (s.setSrc i v).fuse = s.fuse := rfl
@[simp] theorem State.setSrc_bus (s : State) (i : Nat) (v : Src) : (s.setSrc i v).bus = s.bus := rfl
@[simp] theorem State.setSrc_mem (s : State) (i : Nat) (v : Src) : (s.setSrc i v).mem = s.mem := rfl
@[simp] theorem State.setSrc_clk (s : State) (i : Nat) (v : Src) : (s.setSrc i v).clk = s.clk := rfl
@[simp] theorem State.setSrc_ctr (s : State) (i : Nat) (v : Src) : (s.setSrc i v).ctr = s.ctr := rfl
@[simp] theorem State.setSrc_tel (s : State) (i : Nat) (v : Src) : (s.setSrc i v).tel = s.tel := rfl
@[simp] theorem State.setSrc_regs (s : State) (i : Nat) (v : Src) : (s.setSrc i v).regs = s.regs := rfl
@[simp] theorem State.setSrc_parts (s : State) (i : Nat) (v : Src) : (s.setSrc i v).parts = s.parts := rfl
@[simp] theorem State.setSrc_fe (s : State) (i : Nat) (v : Src) : (s.setSrc i v).fe = s.fe := rfl
@[simp] theorem State.setSrc_io (s : State) (i : Nat) (v : Src) : (s.setSrc i v).io = s.io := rfl
@[simp] theorem State.setSrc_hp (s : State) (i : Nat) (v : Src) : (s.setSrc i v).hp = s.hp := rfl
@[simp] theorem State.setSrc_dbg (s : State) (i : Nat) (v : Src) : (s.setSrc i v).dbg = s.dbg := rfl
@[simp] theorem State.setSrc_ream (s : State) (i : Nat) (v : Src) : (s.setSrc i v).ream = s.ream := rfl
@[simp] theorem State.setSrc_posts (s : State) (i : Nat) (v : Src) : (s.setSrc i v).posts = s.posts := rfl
@[simp] theorem State.setSrc_net (s : State) (i : Nat) (v : Src) : (s.setSrc i v).net = s.net := rfl
@[simp] theorem State.setSrc_slots (s : State) (i : Nat) (v : Src) : (s.setSrc i v).slots = s.slots := rfl
@[simp] theorem State.setSrc_tiles (s : State) (i : Nat) (v : Src) : (s.setSrc i v).tiles = s.tiles := rfl
@[simp] theorem State.setSrc_felt (s : State) (i : Nat) (v : Src) : (s.setSrc i v).felt = s.felt := rfl
@[simp] theorem State.setSrc_tiers (s : State) (i : Nat) (v : Src) : (s.setSrc i v).tiers = s.tiers := rfl
@[simp] theorem State.setSrc_gat (s : State) (i : Nat) (v : Src) : (s.setSrc i v).gat = s.gat := rfl
@[simp] theorem State.setSrc_pwr (s : State) (i : Nat) (v : Src) : (s.setSrc i v).pwr = s.pwr := rfl
@[simp] theorem State.setSrc_mgmt (s : State) (i : Nat) (v : Src) : (s.setSrc i v).mgmt = s.mgmt := rfl
@[simp] theorem State.setSrc_rel (s : State) (i : Nat) (v : Src) : (s.setSrc i v).rel = s.rel := rfl
@[simp] theorem State.setSrc_ingests (s : State) (i : Nat) (v : Src) : (s.setSrc i v).ingests = s.ingests := rfl
@[simp] theorem State.setSrc_sec (s : State) (i : Nat) (v : Src) : (s.setSrc i v).sec = s.sec := rfl
@[simp] theorem State.setSrc_evt_core (s : State) (i : Nat) (v : Src) :
    (s.setSrc i v).evt.core = s.evt.core := rfl
@[simp] theorem State.setSrc_evt_coreCause (s : State) (i : Nat) (v : Src) :
    (s.setSrc i v).evt.coreCause = s.evt.coreCause := rfl
@[simp] theorem State.setSrc_ring (s : State) (i : Nat) (v : Src) (j : Nat) :
    (s.setSrc i v).ring j = s.ring j := rfl
@[simp] theorem State.setSrc_cmd (s : State) (i : Nat) (v : Src) (j : Nat) :
    (s.setSrc i v).cmd? j = s.cmd? j := rfl
@[simp] theorem State.setSrc_part (s : State) (i : Nat) (v : Src) (j : Nat) :
    (s.setSrc i v).part j = s.part j := rfl
@[simp] theorem State.setSrc_post (s : State) (i : Nat) (v : Src) (j : Nat) :
    (s.setSrc i v).post? j = s.post? j := rfl
@[simp] theorem State.setSrc_regW (s : State) (i : Nat) (v : Src) (j : Nat) :
    (s.setSrc i v).regW j = s.regW j := rfl
@[simp] theorem State.setSrc_regF (s : State) (i : Nat) (v : Src) (j hi lo : Nat) :
    (s.setSrc i v).regF j hi lo = s.regF j hi lo := rfl
@[simp] theorem State.setSrc_counter (s : State) (i : Nat) (v : Src) (j l : Nat) :
    (s.setSrc i v).counter j l = s.counter j l := rfl
@[simp] theorem State.setSrc_tile (s : State) (i : Nat) (v : Src) (j : Nat) :
    (s.setSrc i v).tile j = s.tile j := rfl
@[simp] theorem State.setSrc_slot (s : State) (i : Nat) (v : Src) (j : Nat) :
    (s.setSrc i v).slot j = s.slot j := rfl
@[simp] theorem State.setSrc_qp (s : State) (i : Nat) (v : Src) (j : Nat) :
    (s.setSrc i v).qp j = s.qp j := rfl
@[simp] theorem State.setSrc_port (s : State) (i : Nat) (v : Src) (j : Nat) :
    (s.setSrc i v).port j = s.port j := rfl
@[simp] theorem State.setSrc_now (s : State) (i : Nat) (v : Src) :
    (s.setSrc i v).now = s.now := rfl
@[simp] theorem State.setSrc_hostUp (s : State) (i : Nat) (v : Src) (j l : Nat) :
    (s.setSrc i v).hostUp j l = s.hostUp j l := rfl
@[simp] theorem State.setSrc_srcOwner (s : State) (i : Nat) (v : Src) (j : Nat) :
    (s.setSrc i v).srcOwner j = s.srcOwner j := rfl
@[simp] theorem State.setSrc_coalCount (s : State) (i : Nat) (v : Src) (j : Nat) :
    (s.setSrc i v).coalCount j = s.coalCount j := rfl

/-! ### setReg -/

@[simp] theorem State.setReg_pending (s : State) (a : Nat) (w : Word) : (s.setReg a w).pending = s.pending := rfl
@[simp] theorem State.setReg_free (s : State) (a : Nat) (w : Word) : (s.setReg a w).free = s.free := rfl
@[simp] theorem State.setReg_fuse (s : State) (a : Nat) (w : Word) : (s.setReg a w).fuse = s.fuse := rfl
@[simp] theorem State.setReg_bus (s : State) (a : Nat) (w : Word) : (s.setReg a w).bus = s.bus := rfl
@[simp] theorem State.setReg_mem (s : State) (a : Nat) (w : Word) : (s.setReg a w).mem = s.mem := rfl
@[simp] theorem State.setReg_clk (s : State) (a : Nat) (w : Word) : (s.setReg a w).clk = s.clk := rfl
@[simp] theorem State.setReg_ctr (s : State) (a : Nat) (w : Word) : (s.setReg a w).ctr = s.ctr := rfl
@[simp] theorem State.setReg_tel (s : State) (a : Nat) (w : Word) : (s.setReg a w).tel = s.tel := rfl
@[simp] theorem State.setReg_parts (s : State) (a : Nat) (w : Word) : (s.setReg a w).parts = s.parts := rfl
@[simp] theorem State.setReg_fe (s : State) (a : Nat) (w : Word) : (s.setReg a w).fe = s.fe := rfl
@[simp] theorem State.setReg_io (s : State) (a : Nat) (w : Word) : (s.setReg a w).io = s.io := rfl
@[simp] theorem State.setReg_hp (s : State) (a : Nat) (w : Word) : (s.setReg a w).hp = s.hp := rfl
@[simp] theorem State.setReg_evt (s : State) (a : Nat) (w : Word) : (s.setReg a w).evt = s.evt := rfl
@[simp] theorem State.setReg_dbg (s : State) (a : Nat) (w : Word) : (s.setReg a w).dbg = s.dbg := rfl
@[simp] theorem State.setReg_ream (s : State) (a : Nat) (w : Word) : (s.setReg a w).ream = s.ream := rfl
@[simp] theorem State.setReg_posts (s : State) (a : Nat) (w : Word) : (s.setReg a w).posts = s.posts := rfl
@[simp] theorem State.setReg_net (s : State) (a : Nat) (w : Word) : (s.setReg a w).net = s.net := rfl
@[simp] theorem State.setReg_slots (s : State) (a : Nat) (w : Word) : (s.setReg a w).slots = s.slots := rfl
@[simp] theorem State.setReg_tiles (s : State) (a : Nat) (w : Word) : (s.setReg a w).tiles = s.tiles := rfl
@[simp] theorem State.setReg_felt (s : State) (a : Nat) (w : Word) : (s.setReg a w).felt = s.felt := rfl
@[simp] theorem State.setReg_tiers (s : State) (a : Nat) (w : Word) : (s.setReg a w).tiers = s.tiers := rfl
@[simp] theorem State.setReg_gat (s : State) (a : Nat) (w : Word) : (s.setReg a w).gat = s.gat := rfl
@[simp] theorem State.setReg_pwr (s : State) (a : Nat) (w : Word) : (s.setReg a w).pwr = s.pwr := rfl
@[simp] theorem State.setReg_mgmt (s : State) (a : Nat) (w : Word) : (s.setReg a w).mgmt = s.mgmt := rfl
@[simp] theorem State.setReg_rel (s : State) (a : Nat) (w : Word) : (s.setReg a w).rel = s.rel := rfl
@[simp] theorem State.setReg_ingests (s : State) (a : Nat) (w : Word) : (s.setReg a w).ingests = s.ingests := rfl
@[simp] theorem State.setReg_sec (s : State) (a : Nat) (w : Word) : (s.setReg a w).sec = s.sec := rfl
@[simp] theorem State.setReg_ring (s : State) (a : Nat) (w : Word) (j : Nat) :
    (s.setReg a w).ring j = s.ring j := rfl
@[simp] theorem State.setReg_cmd (s : State) (a : Nat) (w : Word) (j : Nat) :
    (s.setReg a w).cmd? j = s.cmd? j := rfl
@[simp] theorem State.setReg_part (s : State) (a : Nat) (w : Word) (j : Nat) :
    (s.setReg a w).part j = s.part j := rfl
@[simp] theorem State.setReg_post (s : State) (a : Nat) (w : Word) (j : Nat) :
    (s.setReg a w).post? j = s.post? j := rfl
@[simp] theorem State.setReg_src (s : State) (a : Nat) (w : Word) (j : Nat) :
    (s.setReg a w).src j = s.src j := rfl
@[simp] theorem State.setReg_counter (s : State) (a : Nat) (w : Word) (j l : Nat) :
    (s.setReg a w).counter j l = s.counter j l := rfl
@[simp] theorem State.setReg_tile (s : State) (a : Nat) (w : Word) (j : Nat) :
    (s.setReg a w).tile j = s.tile j := rfl
@[simp] theorem State.setReg_slot (s : State) (a : Nat) (w : Word) (j : Nat) :
    (s.setReg a w).slot j = s.slot j := rfl
@[simp] theorem State.setReg_qp (s : State) (a : Nat) (w : Word) (j : Nat) :
    (s.setReg a w).qp j = s.qp j := rfl
@[simp] theorem State.setReg_port (s : State) (a : Nat) (w : Word) (j : Nat) :
    (s.setReg a w).port j = s.port j := rfl
@[simp] theorem State.setReg_now (s : State) (a : Nat) (w : Word) :
    (s.setReg a w).now = s.now := rfl
@[simp] theorem State.setReg_hostUp (s : State) (a : Nat) (w : Word) (j l : Nat) :
    (s.setReg a w).hostUp j l = s.hostUp j l := rfl

/-! ### store -/

@[simp] theorem State.store_pending (s : State) (a : Nat) (mask v : Word) : (s.store a mask v).pending = s.pending := rfl
@[simp] theorem State.store_free (s : State) (a : Nat) (mask v : Word) : (s.store a mask v).free = s.free := rfl
@[simp] theorem State.store_fuse (s : State) (a : Nat) (mask v : Word) : (s.store a mask v).fuse = s.fuse := rfl
@[simp] theorem State.store_bus (s : State) (a : Nat) (mask v : Word) : (s.store a mask v).bus = s.bus := rfl
@[simp] theorem State.store_mem (s : State) (a : Nat) (mask v : Word) : (s.store a mask v).mem = s.mem := rfl
@[simp] theorem State.store_clk (s : State) (a : Nat) (mask v : Word) : (s.store a mask v).clk = s.clk := rfl
@[simp] theorem State.store_ctr (s : State) (a : Nat) (mask v : Word) : (s.store a mask v).ctr = s.ctr := rfl
@[simp] theorem State.store_tel (s : State) (a : Nat) (mask v : Word) : (s.store a mask v).tel = s.tel := rfl
@[simp] theorem State.store_parts (s : State) (a : Nat) (mask v : Word) : (s.store a mask v).parts = s.parts := rfl
@[simp] theorem State.store_fe (s : State) (a : Nat) (mask v : Word) : (s.store a mask v).fe = s.fe := rfl
@[simp] theorem State.store_io (s : State) (a : Nat) (mask v : Word) : (s.store a mask v).io = s.io := rfl
@[simp] theorem State.store_hp (s : State) (a : Nat) (mask v : Word) : (s.store a mask v).hp = s.hp := rfl
@[simp] theorem State.store_evt (s : State) (a : Nat) (mask v : Word) : (s.store a mask v).evt = s.evt := rfl
@[simp] theorem State.store_dbg (s : State) (a : Nat) (mask v : Word) : (s.store a mask v).dbg = s.dbg := rfl
@[simp] theorem State.store_ream (s : State) (a : Nat) (mask v : Word) : (s.store a mask v).ream = s.ream := rfl
@[simp] theorem State.store_posts (s : State) (a : Nat) (mask v : Word) : (s.store a mask v).posts = s.posts := rfl
@[simp] theorem State.store_net (s : State) (a : Nat) (mask v : Word) : (s.store a mask v).net = s.net := rfl
@[simp] theorem State.store_slots (s : State) (a : Nat) (mask v : Word) : (s.store a mask v).slots = s.slots := rfl
@[simp] theorem State.store_tiles (s : State) (a : Nat) (mask v : Word) : (s.store a mask v).tiles = s.tiles := rfl
@[simp] theorem State.store_felt (s : State) (a : Nat) (mask v : Word) : (s.store a mask v).felt = s.felt := rfl
@[simp] theorem State.store_tiers (s : State) (a : Nat) (mask v : Word) : (s.store a mask v).tiers = s.tiers := rfl
@[simp] theorem State.store_gat (s : State) (a : Nat) (mask v : Word) : (s.store a mask v).gat = s.gat := rfl
@[simp] theorem State.store_pwr (s : State) (a : Nat) (mask v : Word) : (s.store a mask v).pwr = s.pwr := rfl
@[simp] theorem State.store_mgmt (s : State) (a : Nat) (mask v : Word) : (s.store a mask v).mgmt = s.mgmt := rfl
@[simp] theorem State.store_rel (s : State) (a : Nat) (mask v : Word) : (s.store a mask v).rel = s.rel := rfl
@[simp] theorem State.store_ingests (s : State) (a : Nat) (mask v : Word) : (s.store a mask v).ingests = s.ingests := rfl
@[simp] theorem State.store_sec (s : State) (a : Nat) (mask v : Word) : (s.store a mask v).sec = s.sec := rfl
@[simp] theorem State.store_ring (s : State) (a : Nat) (mask v : Word) (j : Nat) :
    (s.store a mask v).ring j = s.ring j := rfl
@[simp] theorem State.store_cmd (s : State) (a : Nat) (mask v : Word) (j : Nat) :
    (s.store a mask v).cmd? j = s.cmd? j := rfl
@[simp] theorem State.store_part (s : State) (a : Nat) (mask v : Word) (j : Nat) :
    (s.store a mask v).part j = s.part j := rfl
@[simp] theorem State.store_post (s : State) (a : Nat) (mask v : Word) (j : Nat) :
    (s.store a mask v).post? j = s.post? j := rfl
@[simp] theorem State.store_src (s : State) (a : Nat) (mask v : Word) (j : Nat) :
    (s.store a mask v).src j = s.src j := rfl
@[simp] theorem State.store_counter (s : State) (a : Nat) (mask v : Word) (j l : Nat) :
    (s.store a mask v).counter j l = s.counter j l := rfl
@[simp] theorem State.store_tile (s : State) (a : Nat) (mask v : Word) (j : Nat) :
    (s.store a mask v).tile j = s.tile j := rfl
@[simp] theorem State.store_slot (s : State) (a : Nat) (mask v : Word) (j : Nat) :
    (s.store a mask v).slot j = s.slot j := rfl
@[simp] theorem State.store_qp (s : State) (a : Nat) (mask v : Word) (j : Nat) :
    (s.store a mask v).qp j = s.qp j := rfl
@[simp] theorem State.store_port (s : State) (a : Nat) (mask v : Word) (j : Nat) :
    (s.store a mask v).port j = s.port j := rfl
@[simp] theorem State.store_now (s : State) (a : Nat) (mask v : Word) :
    (s.store a mask v).now = s.now := rfl
@[simp] theorem State.store_hostUp (s : State) (a : Nat) (mask v : Word) (j l : Nat) :
    (s.store a mask v).hostUp j l = s.hostUp j l := rfl

/-! ### setCtr -/

@[simp] theorem State.setCtr_pending (s : State) (id inst : Nat) (v : DWord) : (s.setCtr id inst v).pending = s.pending := rfl
@[simp] theorem State.setCtr_free (s : State) (id inst : Nat) (v : DWord) : (s.setCtr id inst v).free = s.free := rfl
@[simp] theorem State.setCtr_fuse (s : State) (id inst : Nat) (v : DWord) : (s.setCtr id inst v).fuse = s.fuse := rfl
@[simp] theorem State.setCtr_bus (s : State) (id inst : Nat) (v : DWord) : (s.setCtr id inst v).bus = s.bus := rfl
@[simp] theorem State.setCtr_mem (s : State) (id inst : Nat) (v : DWord) : (s.setCtr id inst v).mem = s.mem := rfl
@[simp] theorem State.setCtr_clk (s : State) (id inst : Nat) (v : DWord) : (s.setCtr id inst v).clk = s.clk := rfl
@[simp] theorem State.setCtr_tel (s : State) (id inst : Nat) (v : DWord) : (s.setCtr id inst v).tel = s.tel := rfl
@[simp] theorem State.setCtr_regs (s : State) (id inst : Nat) (v : DWord) : (s.setCtr id inst v).regs = s.regs := rfl
@[simp] theorem State.setCtr_parts (s : State) (id inst : Nat) (v : DWord) : (s.setCtr id inst v).parts = s.parts := rfl
@[simp] theorem State.setCtr_fe (s : State) (id inst : Nat) (v : DWord) : (s.setCtr id inst v).fe = s.fe := rfl
@[simp] theorem State.setCtr_io (s : State) (id inst : Nat) (v : DWord) : (s.setCtr id inst v).io = s.io := rfl
@[simp] theorem State.setCtr_hp (s : State) (id inst : Nat) (v : DWord) : (s.setCtr id inst v).hp = s.hp := rfl
@[simp] theorem State.setCtr_evt (s : State) (id inst : Nat) (v : DWord) : (s.setCtr id inst v).evt = s.evt := rfl
@[simp] theorem State.setCtr_dbg (s : State) (id inst : Nat) (v : DWord) : (s.setCtr id inst v).dbg = s.dbg := rfl
@[simp] theorem State.setCtr_ream (s : State) (id inst : Nat) (v : DWord) : (s.setCtr id inst v).ream = s.ream := rfl
@[simp] theorem State.setCtr_posts (s : State) (id inst : Nat) (v : DWord) : (s.setCtr id inst v).posts = s.posts := rfl
@[simp] theorem State.setCtr_net (s : State) (id inst : Nat) (v : DWord) : (s.setCtr id inst v).net = s.net := rfl
@[simp] theorem State.setCtr_slots (s : State) (id inst : Nat) (v : DWord) : (s.setCtr id inst v).slots = s.slots := rfl
@[simp] theorem State.setCtr_tiles (s : State) (id inst : Nat) (v : DWord) : (s.setCtr id inst v).tiles = s.tiles := rfl
@[simp] theorem State.setCtr_felt (s : State) (id inst : Nat) (v : DWord) : (s.setCtr id inst v).felt = s.felt := rfl
@[simp] theorem State.setCtr_tiers (s : State) (id inst : Nat) (v : DWord) : (s.setCtr id inst v).tiers = s.tiers := rfl
@[simp] theorem State.setCtr_gat (s : State) (id inst : Nat) (v : DWord) : (s.setCtr id inst v).gat = s.gat := rfl
@[simp] theorem State.setCtr_pwr (s : State) (id inst : Nat) (v : DWord) : (s.setCtr id inst v).pwr = s.pwr := rfl
@[simp] theorem State.setCtr_mgmt (s : State) (id inst : Nat) (v : DWord) : (s.setCtr id inst v).mgmt = s.mgmt := rfl
@[simp] theorem State.setCtr_rel (s : State) (id inst : Nat) (v : DWord) : (s.setCtr id inst v).rel = s.rel := rfl
@[simp] theorem State.setCtr_ingests (s : State) (id inst : Nat) (v : DWord) : (s.setCtr id inst v).ingests = s.ingests := rfl
@[simp] theorem State.setCtr_sec (s : State) (id inst : Nat) (v : DWord) : (s.setCtr id inst v).sec = s.sec := rfl
@[simp] theorem State.setCtr_ring (s : State) (id inst : Nat) (v : DWord) (j : Nat) :
    (s.setCtr id inst v).ring j = s.ring j := rfl
@[simp] theorem State.setCtr_cmd (s : State) (id inst : Nat) (v : DWord) (j : Nat) :
    (s.setCtr id inst v).cmd? j = s.cmd? j := rfl
@[simp] theorem State.setCtr_part (s : State) (id inst : Nat) (v : DWord) (j : Nat) :
    (s.setCtr id inst v).part j = s.part j := rfl
@[simp] theorem State.setCtr_post (s : State) (id inst : Nat) (v : DWord) (j : Nat) :
    (s.setCtr id inst v).post? j = s.post? j := rfl
@[simp] theorem State.setCtr_src (s : State) (id inst : Nat) (v : DWord) (j : Nat) :
    (s.setCtr id inst v).src j = s.src j := rfl
@[simp] theorem State.setCtr_regW (s : State) (id inst : Nat) (v : DWord) (j : Nat) :
    (s.setCtr id inst v).regW j = s.regW j := rfl
@[simp] theorem State.setCtr_regF (s : State) (id inst : Nat) (v : DWord) (j hi lo : Nat) :
    (s.setCtr id inst v).regF j hi lo = s.regF j hi lo := rfl
@[simp] theorem State.setCtr_tile (s : State) (id inst : Nat) (v : DWord) (j : Nat) :
    (s.setCtr id inst v).tile j = s.tile j := rfl
@[simp] theorem State.setCtr_slot (s : State) (id inst : Nat) (v : DWord) (j : Nat) :
    (s.setCtr id inst v).slot j = s.slot j := rfl
@[simp] theorem State.setCtr_qp (s : State) (id inst : Nat) (v : DWord) (j : Nat) :
    (s.setCtr id inst v).qp j = s.qp j := rfl
@[simp] theorem State.setCtr_port (s : State) (id inst : Nat) (v : DWord) (j : Nat) :
    (s.setCtr id inst v).port j = s.port j := rfl
@[simp] theorem State.setCtr_now (s : State) (id inst : Nat) (v : DWord) :
    (s.setCtr id inst v).now = s.now := rfl
@[simp] theorem State.setCtr_hostUp (s : State) (id inst : Nat) (v : DWord) (j l : Nat) :
    (s.setCtr id inst v).hostUp j l = s.hostUp j l := rfl
@[simp] theorem State.setCtr_srcOwner (s : State) (id inst : Nat) (v : DWord) (j : Nat) :
    (s.setCtr id inst v).srcOwner j = s.srcOwner j := rfl
@[simp] theorem State.setCtr_coalCount (s : State) (id inst : Nat) (v : DWord) (j : Nat) :
    (s.setCtr id inst v).coalCount j = s.coalCount j := rfl

/-! ### count -/

@[simp] theorem State.count_pending (s : State) (id inst n : Nat) : (s.count id inst n).pending = s.pending := rfl
@[simp] theorem State.count_free (s : State) (id inst n : Nat) : (s.count id inst n).free = s.free := rfl
@[simp] theorem State.count_fuse (s : State) (id inst n : Nat) : (s.count id inst n).fuse = s.fuse := rfl
@[simp] theorem State.count_bus (s : State) (id inst n : Nat) : (s.count id inst n).bus = s.bus := rfl
@[simp] theorem State.count_mem (s : State) (id inst n : Nat) : (s.count id inst n).mem = s.mem := rfl
@[simp] theorem State.count_clk (s : State) (id inst n : Nat) : (s.count id inst n).clk = s.clk := rfl
@[simp] theorem State.count_tel (s : State) (id inst n : Nat) : (s.count id inst n).tel = s.tel := rfl
@[simp] theorem State.count_regs (s : State) (id inst n : Nat) : (s.count id inst n).regs = s.regs := rfl
@[simp] theorem State.count_parts (s : State) (id inst n : Nat) : (s.count id inst n).parts = s.parts := rfl
@[simp] theorem State.count_fe (s : State) (id inst n : Nat) : (s.count id inst n).fe = s.fe := rfl
@[simp] theorem State.count_io (s : State) (id inst n : Nat) : (s.count id inst n).io = s.io := rfl
@[simp] theorem State.count_hp (s : State) (id inst n : Nat) : (s.count id inst n).hp = s.hp := rfl
@[simp] theorem State.count_evt (s : State) (id inst n : Nat) : (s.count id inst n).evt = s.evt := rfl
@[simp] theorem State.count_dbg (s : State) (id inst n : Nat) : (s.count id inst n).dbg = s.dbg := rfl
@[simp] theorem State.count_ream (s : State) (id inst n : Nat) : (s.count id inst n).ream = s.ream := rfl
@[simp] theorem State.count_posts (s : State) (id inst n : Nat) : (s.count id inst n).posts = s.posts := rfl
@[simp] theorem State.count_net (s : State) (id inst n : Nat) : (s.count id inst n).net = s.net := rfl
@[simp] theorem State.count_slots (s : State) (id inst n : Nat) : (s.count id inst n).slots = s.slots := rfl
@[simp] theorem State.count_tiles (s : State) (id inst n : Nat) : (s.count id inst n).tiles = s.tiles := rfl
@[simp] theorem State.count_felt (s : State) (id inst n : Nat) : (s.count id inst n).felt = s.felt := rfl
@[simp] theorem State.count_tiers (s : State) (id inst n : Nat) : (s.count id inst n).tiers = s.tiers := rfl
@[simp] theorem State.count_gat (s : State) (id inst n : Nat) : (s.count id inst n).gat = s.gat := rfl
@[simp] theorem State.count_pwr (s : State) (id inst n : Nat) : (s.count id inst n).pwr = s.pwr := rfl
@[simp] theorem State.count_mgmt (s : State) (id inst n : Nat) : (s.count id inst n).mgmt = s.mgmt := rfl
@[simp] theorem State.count_rel (s : State) (id inst n : Nat) : (s.count id inst n).rel = s.rel := rfl
@[simp] theorem State.count_ingests (s : State) (id inst n : Nat) : (s.count id inst n).ingests = s.ingests := rfl
@[simp] theorem State.count_sec (s : State) (id inst n : Nat) : (s.count id inst n).sec = s.sec := rfl
@[simp] theorem State.count_ring (s : State) (id inst n : Nat) (j : Nat) :
    (s.count id inst n).ring j = s.ring j := rfl
@[simp] theorem State.count_cmd (s : State) (id inst n : Nat) (j : Nat) :
    (s.count id inst n).cmd? j = s.cmd? j := rfl
@[simp] theorem State.count_part (s : State) (id inst n : Nat) (j : Nat) :
    (s.count id inst n).part j = s.part j := rfl
@[simp] theorem State.count_post (s : State) (id inst n : Nat) (j : Nat) :
    (s.count id inst n).post? j = s.post? j := rfl
@[simp] theorem State.count_src (s : State) (id inst n : Nat) (j : Nat) :
    (s.count id inst n).src j = s.src j := rfl
@[simp] theorem State.count_regW (s : State) (id inst n : Nat) (j : Nat) :
    (s.count id inst n).regW j = s.regW j := rfl
@[simp] theorem State.count_regF (s : State) (id inst n : Nat) (j hi lo : Nat) :
    (s.count id inst n).regF j hi lo = s.regF j hi lo := rfl
@[simp] theorem State.count_tile (s : State) (id inst n : Nat) (j : Nat) :
    (s.count id inst n).tile j = s.tile j := rfl
@[simp] theorem State.count_slot (s : State) (id inst n : Nat) (j : Nat) :
    (s.count id inst n).slot j = s.slot j := rfl
@[simp] theorem State.count_qp (s : State) (id inst n : Nat) (j : Nat) :
    (s.count id inst n).qp j = s.qp j := rfl
@[simp] theorem State.count_port (s : State) (id inst n : Nat) (j : Nat) :
    (s.count id inst n).port j = s.port j := rfl
@[simp] theorem State.count_now (s : State) (id inst n : Nat) :
    (s.count id inst n).now = s.now := rfl
@[simp] theorem State.count_hostUp (s : State) (id inst n : Nat) (j l : Nat) :
    (s.count id inst n).hostUp j l = s.hostUp j l := rfl
@[simp] theorem State.count_srcOwner (s : State) (id inst n : Nat) (j : Nat) :
    (s.count id inst n).srcOwner j = s.srcOwner j := rfl
@[simp] theorem State.count_coalCount (s : State) (id inst n : Nat) (j : Nat) :
    (s.count id inst n).coalCount j = s.coalCount j := rfl

/-! ### issue -/

@[simp] theorem State.issue_pending (s : State) (x : Xfer) : (s.issue x).pending = s.pending := rfl
@[simp] theorem State.issue_free (s : State) (x : Xfer) : (s.issue x).free = s.free := rfl
@[simp] theorem State.issue_fuse (s : State) (x : Xfer) : (s.issue x).fuse = s.fuse := rfl
@[simp] theorem State.issue_bus (s : State) (x : Xfer) : (s.issue x).bus = s.bus := rfl
@[simp] theorem State.issue_mem (s : State) (x : Xfer) : (s.issue x).mem = s.mem := rfl
@[simp] theorem State.issue_clk (s : State) (x : Xfer) : (s.issue x).clk = s.clk := rfl
@[simp] theorem State.issue_ctr (s : State) (x : Xfer) : (s.issue x).ctr = s.ctr := rfl
@[simp] theorem State.issue_tel (s : State) (x : Xfer) : (s.issue x).tel = s.tel := rfl
@[simp] theorem State.issue_regs (s : State) (x : Xfer) : (s.issue x).regs = s.regs := rfl
@[simp] theorem State.issue_parts (s : State) (x : Xfer) : (s.issue x).parts = s.parts := rfl
@[simp] theorem State.issue_fe (s : State) (x : Xfer) : (s.issue x).fe = s.fe := rfl
@[simp] theorem State.issue_hp (s : State) (x : Xfer) : (s.issue x).hp = s.hp := rfl
@[simp] theorem State.issue_evt (s : State) (x : Xfer) : (s.issue x).evt = s.evt := rfl
@[simp] theorem State.issue_dbg (s : State) (x : Xfer) : (s.issue x).dbg = s.dbg := rfl
@[simp] theorem State.issue_ream (s : State) (x : Xfer) : (s.issue x).ream = s.ream := rfl
@[simp] theorem State.issue_posts (s : State) (x : Xfer) : (s.issue x).posts = s.posts := rfl
@[simp] theorem State.issue_net (s : State) (x : Xfer) : (s.issue x).net = s.net := rfl
@[simp] theorem State.issue_slots (s : State) (x : Xfer) : (s.issue x).slots = s.slots := rfl
@[simp] theorem State.issue_tiles (s : State) (x : Xfer) : (s.issue x).tiles = s.tiles := rfl
@[simp] theorem State.issue_felt (s : State) (x : Xfer) : (s.issue x).felt = s.felt := rfl
@[simp] theorem State.issue_tiers (s : State) (x : Xfer) : (s.issue x).tiers = s.tiers := rfl
@[simp] theorem State.issue_gat (s : State) (x : Xfer) : (s.issue x).gat = s.gat := rfl
@[simp] theorem State.issue_pwr (s : State) (x : Xfer) : (s.issue x).pwr = s.pwr := rfl
@[simp] theorem State.issue_mgmt (s : State) (x : Xfer) : (s.issue x).mgmt = s.mgmt := rfl
@[simp] theorem State.issue_rel (s : State) (x : Xfer) : (s.issue x).rel = s.rel := rfl
@[simp] theorem State.issue_ingests (s : State) (x : Xfer) : (s.issue x).ingests = s.ingests := rfl
@[simp] theorem State.issue_sec (s : State) (x : Xfer) : (s.issue x).sec = s.sec := rfl
@[simp] theorem State.issue_ring (s : State) (x : Xfer) (j : Nat) :
    (s.issue x).ring j = s.ring j := rfl
@[simp] theorem State.issue_cmd (s : State) (x : Xfer) (j : Nat) :
    (s.issue x).cmd? j = s.cmd? j := rfl
@[simp] theorem State.issue_part (s : State) (x : Xfer) (j : Nat) :
    (s.issue x).part j = s.part j := rfl
@[simp] theorem State.issue_post (s : State) (x : Xfer) (j : Nat) :
    (s.issue x).post? j = s.post? j := rfl
@[simp] theorem State.issue_src (s : State) (x : Xfer) (j : Nat) :
    (s.issue x).src j = s.src j := rfl
@[simp] theorem State.issue_regW (s : State) (x : Xfer) (j : Nat) :
    (s.issue x).regW j = s.regW j := rfl
@[simp] theorem State.issue_regF (s : State) (x : Xfer) (j hi lo : Nat) :
    (s.issue x).regF j hi lo = s.regF j hi lo := rfl
@[simp] theorem State.issue_counter (s : State) (x : Xfer) (j l : Nat) :
    (s.issue x).counter j l = s.counter j l := rfl
@[simp] theorem State.issue_tile (s : State) (x : Xfer) (j : Nat) :
    (s.issue x).tile j = s.tile j := rfl
@[simp] theorem State.issue_slot (s : State) (x : Xfer) (j : Nat) :
    (s.issue x).slot j = s.slot j := rfl
@[simp] theorem State.issue_qp (s : State) (x : Xfer) (j : Nat) :
    (s.issue x).qp j = s.qp j := rfl
@[simp] theorem State.issue_port (s : State) (x : Xfer) (j : Nat) :
    (s.issue x).port j = s.port j := rfl
@[simp] theorem State.issue_now (s : State) (x : Xfer) :
    (s.issue x).now = s.now := rfl
@[simp] theorem State.issue_hostUp (s : State) (x : Xfer) (j l : Nat) :
    (s.issue x).hostUp j l = s.hostUp j l := rfl
@[simp] theorem State.issue_srcOwner (s : State) (x : Xfer) (j : Nat) :
    (s.issue x).srcOwner j = s.srcOwner j := rfl
@[simp] theorem State.issue_coalCount (s : State) (x : Xfer) (j : Nat) :
    (s.issue x).coalCount j = s.coalCount j := rfl

/-! ### takeDone -/

@[simp] theorem State.takeDone_pending (s : State) (u : Use) : (s.takeDone u).pending = s.pending := rfl
@[simp] theorem State.takeDone_free (s : State) (u : Use) : (s.takeDone u).free = s.free := rfl
@[simp] theorem State.takeDone_fuse (s : State) (u : Use) : (s.takeDone u).fuse = s.fuse := rfl
@[simp] theorem State.takeDone_bus (s : State) (u : Use) : (s.takeDone u).bus = s.bus := rfl
@[simp] theorem State.takeDone_mem (s : State) (u : Use) : (s.takeDone u).mem = s.mem := rfl
@[simp] theorem State.takeDone_clk (s : State) (u : Use) : (s.takeDone u).clk = s.clk := rfl
@[simp] theorem State.takeDone_ctr (s : State) (u : Use) : (s.takeDone u).ctr = s.ctr := rfl
@[simp] theorem State.takeDone_tel (s : State) (u : Use) : (s.takeDone u).tel = s.tel := rfl
@[simp] theorem State.takeDone_regs (s : State) (u : Use) : (s.takeDone u).regs = s.regs := rfl
@[simp] theorem State.takeDone_parts (s : State) (u : Use) : (s.takeDone u).parts = s.parts := rfl
@[simp] theorem State.takeDone_fe (s : State) (u : Use) : (s.takeDone u).fe = s.fe := rfl
@[simp] theorem State.takeDone_hp (s : State) (u : Use) : (s.takeDone u).hp = s.hp := rfl
@[simp] theorem State.takeDone_evt (s : State) (u : Use) : (s.takeDone u).evt = s.evt := rfl
@[simp] theorem State.takeDone_dbg (s : State) (u : Use) : (s.takeDone u).dbg = s.dbg := rfl
@[simp] theorem State.takeDone_ream (s : State) (u : Use) : (s.takeDone u).ream = s.ream := rfl
@[simp] theorem State.takeDone_posts (s : State) (u : Use) : (s.takeDone u).posts = s.posts := rfl
@[simp] theorem State.takeDone_net (s : State) (u : Use) : (s.takeDone u).net = s.net := rfl
@[simp] theorem State.takeDone_slots (s : State) (u : Use) : (s.takeDone u).slots = s.slots := rfl
@[simp] theorem State.takeDone_tiles (s : State) (u : Use) : (s.takeDone u).tiles = s.tiles := rfl
@[simp] theorem State.takeDone_felt (s : State) (u : Use) : (s.takeDone u).felt = s.felt := rfl
@[simp] theorem State.takeDone_tiers (s : State) (u : Use) : (s.takeDone u).tiers = s.tiers := rfl
@[simp] theorem State.takeDone_gat (s : State) (u : Use) : (s.takeDone u).gat = s.gat := rfl
@[simp] theorem State.takeDone_pwr (s : State) (u : Use) : (s.takeDone u).pwr = s.pwr := rfl
@[simp] theorem State.takeDone_mgmt (s : State) (u : Use) : (s.takeDone u).mgmt = s.mgmt := rfl
@[simp] theorem State.takeDone_rel (s : State) (u : Use) : (s.takeDone u).rel = s.rel := rfl
@[simp] theorem State.takeDone_ingests (s : State) (u : Use) : (s.takeDone u).ingests = s.ingests := rfl
@[simp] theorem State.takeDone_sec (s : State) (u : Use) : (s.takeDone u).sec = s.sec := rfl
@[simp] theorem State.takeDone_ring (s : State) (u : Use) (j : Nat) :
    (s.takeDone u).ring j = s.ring j := rfl
@[simp] theorem State.takeDone_cmd (s : State) (u : Use) (j : Nat) :
    (s.takeDone u).cmd? j = s.cmd? j := rfl
@[simp] theorem State.takeDone_part (s : State) (u : Use) (j : Nat) :
    (s.takeDone u).part j = s.part j := rfl
@[simp] theorem State.takeDone_post (s : State) (u : Use) (j : Nat) :
    (s.takeDone u).post? j = s.post? j := rfl
@[simp] theorem State.takeDone_src (s : State) (u : Use) (j : Nat) :
    (s.takeDone u).src j = s.src j := rfl
@[simp] theorem State.takeDone_regW (s : State) (u : Use) (j : Nat) :
    (s.takeDone u).regW j = s.regW j := rfl
@[simp] theorem State.takeDone_regF (s : State) (u : Use) (j hi lo : Nat) :
    (s.takeDone u).regF j hi lo = s.regF j hi lo := rfl
@[simp] theorem State.takeDone_counter (s : State) (u : Use) (j l : Nat) :
    (s.takeDone u).counter j l = s.counter j l := rfl
@[simp] theorem State.takeDone_tile (s : State) (u : Use) (j : Nat) :
    (s.takeDone u).tile j = s.tile j := rfl
@[simp] theorem State.takeDone_slot (s : State) (u : Use) (j : Nat) :
    (s.takeDone u).slot j = s.slot j := rfl
@[simp] theorem State.takeDone_qp (s : State) (u : Use) (j : Nat) :
    (s.takeDone u).qp j = s.qp j := rfl
@[simp] theorem State.takeDone_port (s : State) (u : Use) (j : Nat) :
    (s.takeDone u).port j = s.port j := rfl
@[simp] theorem State.takeDone_now (s : State) (u : Use) :
    (s.takeDone u).now = s.now := rfl
@[simp] theorem State.takeDone_hostUp (s : State) (u : Use) (j l : Nat) :
    (s.takeDone u).hostUp j l = s.hostUp j l := rfl
@[simp] theorem State.takeDone_srcOwner (s : State) (u : Use) (j : Nat) :
    (s.takeDone u).srcOwner j = s.srcOwner j := rfl
@[simp] theorem State.takeDone_coalCount (s : State) (u : Use) (j : Nat) :
    (s.takeDone u).coalCount j = s.coalCount j := rfl

/-! ### setTile -/

@[simp] theorem State.setTile_pending (s : State) (i : Nat) (v : Tile) : (s.setTile i v).pending = s.pending := rfl
@[simp] theorem State.setTile_free (s : State) (i : Nat) (v : Tile) : (s.setTile i v).free = s.free := rfl
@[simp] theorem State.setTile_fuse (s : State) (i : Nat) (v : Tile) : (s.setTile i v).fuse = s.fuse := rfl
@[simp] theorem State.setTile_bus (s : State) (i : Nat) (v : Tile) : (s.setTile i v).bus = s.bus := rfl
@[simp] theorem State.setTile_mem (s : State) (i : Nat) (v : Tile) : (s.setTile i v).mem = s.mem := rfl
@[simp] theorem State.setTile_clk (s : State) (i : Nat) (v : Tile) : (s.setTile i v).clk = s.clk := rfl
@[simp] theorem State.setTile_ctr (s : State) (i : Nat) (v : Tile) : (s.setTile i v).ctr = s.ctr := rfl
@[simp] theorem State.setTile_tel (s : State) (i : Nat) (v : Tile) : (s.setTile i v).tel = s.tel := rfl
@[simp] theorem State.setTile_regs (s : State) (i : Nat) (v : Tile) : (s.setTile i v).regs = s.regs := rfl
@[simp] theorem State.setTile_parts (s : State) (i : Nat) (v : Tile) : (s.setTile i v).parts = s.parts := rfl
@[simp] theorem State.setTile_fe (s : State) (i : Nat) (v : Tile) : (s.setTile i v).fe = s.fe := rfl
@[simp] theorem State.setTile_io (s : State) (i : Nat) (v : Tile) : (s.setTile i v).io = s.io := rfl
@[simp] theorem State.setTile_hp (s : State) (i : Nat) (v : Tile) : (s.setTile i v).hp = s.hp := rfl
@[simp] theorem State.setTile_evt (s : State) (i : Nat) (v : Tile) : (s.setTile i v).evt = s.evt := rfl
@[simp] theorem State.setTile_dbg (s : State) (i : Nat) (v : Tile) : (s.setTile i v).dbg = s.dbg := rfl
@[simp] theorem State.setTile_ream (s : State) (i : Nat) (v : Tile) : (s.setTile i v).ream = s.ream := rfl
@[simp] theorem State.setTile_posts (s : State) (i : Nat) (v : Tile) : (s.setTile i v).posts = s.posts := rfl
@[simp] theorem State.setTile_net (s : State) (i : Nat) (v : Tile) : (s.setTile i v).net = s.net := rfl
@[simp] theorem State.setTile_slots (s : State) (i : Nat) (v : Tile) : (s.setTile i v).slots = s.slots := rfl
@[simp] theorem State.setTile_felt (s : State) (i : Nat) (v : Tile) : (s.setTile i v).felt = s.felt := rfl
@[simp] theorem State.setTile_tiers (s : State) (i : Nat) (v : Tile) : (s.setTile i v).tiers = s.tiers := rfl
@[simp] theorem State.setTile_gat (s : State) (i : Nat) (v : Tile) : (s.setTile i v).gat = s.gat := rfl
@[simp] theorem State.setTile_pwr (s : State) (i : Nat) (v : Tile) : (s.setTile i v).pwr = s.pwr := rfl
@[simp] theorem State.setTile_mgmt (s : State) (i : Nat) (v : Tile) : (s.setTile i v).mgmt = s.mgmt := rfl
@[simp] theorem State.setTile_rel (s : State) (i : Nat) (v : Tile) : (s.setTile i v).rel = s.rel := rfl
@[simp] theorem State.setTile_ingests (s : State) (i : Nat) (v : Tile) : (s.setTile i v).ingests = s.ingests := rfl
@[simp] theorem State.setTile_sec (s : State) (i : Nat) (v : Tile) : (s.setTile i v).sec = s.sec := rfl
@[simp] theorem State.setTile_ring (s : State) (i : Nat) (v : Tile) (j : Nat) :
    (s.setTile i v).ring j = s.ring j := rfl
@[simp] theorem State.setTile_cmd (s : State) (i : Nat) (v : Tile) (j : Nat) :
    (s.setTile i v).cmd? j = s.cmd? j := rfl
@[simp] theorem State.setTile_part (s : State) (i : Nat) (v : Tile) (j : Nat) :
    (s.setTile i v).part j = s.part j := rfl
@[simp] theorem State.setTile_post (s : State) (i : Nat) (v : Tile) (j : Nat) :
    (s.setTile i v).post? j = s.post? j := rfl
@[simp] theorem State.setTile_src (s : State) (i : Nat) (v : Tile) (j : Nat) :
    (s.setTile i v).src j = s.src j := rfl
@[simp] theorem State.setTile_regW (s : State) (i : Nat) (v : Tile) (j : Nat) :
    (s.setTile i v).regW j = s.regW j := rfl
@[simp] theorem State.setTile_regF (s : State) (i : Nat) (v : Tile) (j hi lo : Nat) :
    (s.setTile i v).regF j hi lo = s.regF j hi lo := rfl
@[simp] theorem State.setTile_counter (s : State) (i : Nat) (v : Tile) (j l : Nat) :
    (s.setTile i v).counter j l = s.counter j l := rfl
@[simp] theorem State.setTile_slot (s : State) (i : Nat) (v : Tile) (j : Nat) :
    (s.setTile i v).slot j = s.slot j := rfl
@[simp] theorem State.setTile_qp (s : State) (i : Nat) (v : Tile) (j : Nat) :
    (s.setTile i v).qp j = s.qp j := rfl
@[simp] theorem State.setTile_port (s : State) (i : Nat) (v : Tile) (j : Nat) :
    (s.setTile i v).port j = s.port j := rfl
@[simp] theorem State.setTile_now (s : State) (i : Nat) (v : Tile) :
    (s.setTile i v).now = s.now := rfl
@[simp] theorem State.setTile_hostUp (s : State) (i : Nat) (v : Tile) (j l : Nat) :
    (s.setTile i v).hostUp j l = s.hostUp j l := rfl
@[simp] theorem State.setTile_srcOwner (s : State) (i : Nat) (v : Tile) (j : Nat) :
    (s.setTile i v).srcOwner j = s.srcOwner j := rfl
@[simp] theorem State.setTile_coalCount (s : State) (i : Nat) (v : Tile) (j : Nat) :
    (s.setTile i v).coalCount j = s.coalCount j := rfl

/-! ### modTile -/

@[simp] theorem State.modTile_pending (s : State) (i : Nat) (f : Tile → Tile) : (s.modTile i f).pending = s.pending := rfl
@[simp] theorem State.modTile_free (s : State) (i : Nat) (f : Tile → Tile) : (s.modTile i f).free = s.free := rfl
@[simp] theorem State.modTile_fuse (s : State) (i : Nat) (f : Tile → Tile) : (s.modTile i f).fuse = s.fuse := rfl
@[simp] theorem State.modTile_bus (s : State) (i : Nat) (f : Tile → Tile) : (s.modTile i f).bus = s.bus := rfl
@[simp] theorem State.modTile_mem (s : State) (i : Nat) (f : Tile → Tile) : (s.modTile i f).mem = s.mem := rfl
@[simp] theorem State.modTile_clk (s : State) (i : Nat) (f : Tile → Tile) : (s.modTile i f).clk = s.clk := rfl
@[simp] theorem State.modTile_ctr (s : State) (i : Nat) (f : Tile → Tile) : (s.modTile i f).ctr = s.ctr := rfl
@[simp] theorem State.modTile_tel (s : State) (i : Nat) (f : Tile → Tile) : (s.modTile i f).tel = s.tel := rfl
@[simp] theorem State.modTile_regs (s : State) (i : Nat) (f : Tile → Tile) : (s.modTile i f).regs = s.regs := rfl
@[simp] theorem State.modTile_parts (s : State) (i : Nat) (f : Tile → Tile) : (s.modTile i f).parts = s.parts := rfl
@[simp] theorem State.modTile_fe (s : State) (i : Nat) (f : Tile → Tile) : (s.modTile i f).fe = s.fe := rfl
@[simp] theorem State.modTile_io (s : State) (i : Nat) (f : Tile → Tile) : (s.modTile i f).io = s.io := rfl
@[simp] theorem State.modTile_hp (s : State) (i : Nat) (f : Tile → Tile) : (s.modTile i f).hp = s.hp := rfl
@[simp] theorem State.modTile_evt (s : State) (i : Nat) (f : Tile → Tile) : (s.modTile i f).evt = s.evt := rfl
@[simp] theorem State.modTile_dbg (s : State) (i : Nat) (f : Tile → Tile) : (s.modTile i f).dbg = s.dbg := rfl
@[simp] theorem State.modTile_ream (s : State) (i : Nat) (f : Tile → Tile) : (s.modTile i f).ream = s.ream := rfl
@[simp] theorem State.modTile_posts (s : State) (i : Nat) (f : Tile → Tile) : (s.modTile i f).posts = s.posts := rfl
@[simp] theorem State.modTile_net (s : State) (i : Nat) (f : Tile → Tile) : (s.modTile i f).net = s.net := rfl
@[simp] theorem State.modTile_slots (s : State) (i : Nat) (f : Tile → Tile) : (s.modTile i f).slots = s.slots := rfl
@[simp] theorem State.modTile_felt (s : State) (i : Nat) (f : Tile → Tile) : (s.modTile i f).felt = s.felt := rfl
@[simp] theorem State.modTile_tiers (s : State) (i : Nat) (f : Tile → Tile) : (s.modTile i f).tiers = s.tiers := rfl
@[simp] theorem State.modTile_gat (s : State) (i : Nat) (f : Tile → Tile) : (s.modTile i f).gat = s.gat := rfl
@[simp] theorem State.modTile_pwr (s : State) (i : Nat) (f : Tile → Tile) : (s.modTile i f).pwr = s.pwr := rfl
@[simp] theorem State.modTile_mgmt (s : State) (i : Nat) (f : Tile → Tile) : (s.modTile i f).mgmt = s.mgmt := rfl
@[simp] theorem State.modTile_rel (s : State) (i : Nat) (f : Tile → Tile) : (s.modTile i f).rel = s.rel := rfl
@[simp] theorem State.modTile_ingests (s : State) (i : Nat) (f : Tile → Tile) : (s.modTile i f).ingests = s.ingests := rfl
@[simp] theorem State.modTile_sec (s : State) (i : Nat) (f : Tile → Tile) : (s.modTile i f).sec = s.sec := rfl
@[simp] theorem State.modTile_ring (s : State) (i : Nat) (f : Tile → Tile) (j : Nat) :
    (s.modTile i f).ring j = s.ring j := rfl
@[simp] theorem State.modTile_cmd (s : State) (i : Nat) (f : Tile → Tile) (j : Nat) :
    (s.modTile i f).cmd? j = s.cmd? j := rfl
@[simp] theorem State.modTile_part (s : State) (i : Nat) (f : Tile → Tile) (j : Nat) :
    (s.modTile i f).part j = s.part j := rfl
@[simp] theorem State.modTile_post (s : State) (i : Nat) (f : Tile → Tile) (j : Nat) :
    (s.modTile i f).post? j = s.post? j := rfl
@[simp] theorem State.modTile_src (s : State) (i : Nat) (f : Tile → Tile) (j : Nat) :
    (s.modTile i f).src j = s.src j := rfl
@[simp] theorem State.modTile_regW (s : State) (i : Nat) (f : Tile → Tile) (j : Nat) :
    (s.modTile i f).regW j = s.regW j := rfl
@[simp] theorem State.modTile_regF (s : State) (i : Nat) (f : Tile → Tile) (j hi lo : Nat) :
    (s.modTile i f).regF j hi lo = s.regF j hi lo := rfl
@[simp] theorem State.modTile_counter (s : State) (i : Nat) (f : Tile → Tile) (j l : Nat) :
    (s.modTile i f).counter j l = s.counter j l := rfl
@[simp] theorem State.modTile_slot (s : State) (i : Nat) (f : Tile → Tile) (j : Nat) :
    (s.modTile i f).slot j = s.slot j := rfl
@[simp] theorem State.modTile_qp (s : State) (i : Nat) (f : Tile → Tile) (j : Nat) :
    (s.modTile i f).qp j = s.qp j := rfl
@[simp] theorem State.modTile_port (s : State) (i : Nat) (f : Tile → Tile) (j : Nat) :
    (s.modTile i f).port j = s.port j := rfl
@[simp] theorem State.modTile_now (s : State) (i : Nat) (f : Tile → Tile) :
    (s.modTile i f).now = s.now := rfl
@[simp] theorem State.modTile_hostUp (s : State) (i : Nat) (f : Tile → Tile) (j l : Nat) :
    (s.modTile i f).hostUp j l = s.hostUp j l := rfl
@[simp] theorem State.modTile_srcOwner (s : State) (i : Nat) (f : Tile → Tile) (j : Nat) :
    (s.modTile i f).srcOwner j = s.srcOwner j := rfl
@[simp] theorem State.modTile_coalCount (s : State) (i : Nat) (f : Tile → Tile) (j : Nat) :
    (s.modTile i f).coalCount j = s.coalCount j := rfl

/-! ### setQp -/

@[simp] theorem State.setQp_pending (s : State) (q : Nat) (v : Qp) : (s.setQp q v).pending = s.pending := rfl
@[simp] theorem State.setQp_free (s : State) (q : Nat) (v : Qp) : (s.setQp q v).free = s.free := rfl
@[simp] theorem State.setQp_fuse (s : State) (q : Nat) (v : Qp) : (s.setQp q v).fuse = s.fuse := rfl
@[simp] theorem State.setQp_bus (s : State) (q : Nat) (v : Qp) : (s.setQp q v).bus = s.bus := rfl
@[simp] theorem State.setQp_mem (s : State) (q : Nat) (v : Qp) : (s.setQp q v).mem = s.mem := rfl
@[simp] theorem State.setQp_clk (s : State) (q : Nat) (v : Qp) : (s.setQp q v).clk = s.clk := rfl
@[simp] theorem State.setQp_ctr (s : State) (q : Nat) (v : Qp) : (s.setQp q v).ctr = s.ctr := rfl
@[simp] theorem State.setQp_tel (s : State) (q : Nat) (v : Qp) : (s.setQp q v).tel = s.tel := rfl
@[simp] theorem State.setQp_regs (s : State) (q : Nat) (v : Qp) : (s.setQp q v).regs = s.regs := rfl
@[simp] theorem State.setQp_parts (s : State) (q : Nat) (v : Qp) : (s.setQp q v).parts = s.parts := rfl
@[simp] theorem State.setQp_fe (s : State) (q : Nat) (v : Qp) : (s.setQp q v).fe = s.fe := rfl
@[simp] theorem State.setQp_io (s : State) (q : Nat) (v : Qp) : (s.setQp q v).io = s.io := rfl
@[simp] theorem State.setQp_hp (s : State) (q : Nat) (v : Qp) : (s.setQp q v).hp = s.hp := rfl
@[simp] theorem State.setQp_evt (s : State) (q : Nat) (v : Qp) : (s.setQp q v).evt = s.evt := rfl
@[simp] theorem State.setQp_dbg (s : State) (q : Nat) (v : Qp) : (s.setQp q v).dbg = s.dbg := rfl
@[simp] theorem State.setQp_ream (s : State) (q : Nat) (v : Qp) : (s.setQp q v).ream = s.ream := rfl
@[simp] theorem State.setQp_posts (s : State) (q : Nat) (v : Qp) : (s.setQp q v).posts = s.posts := rfl
@[simp] theorem State.setQp_slots (s : State) (q : Nat) (v : Qp) : (s.setQp q v).slots = s.slots := rfl
@[simp] theorem State.setQp_tiles (s : State) (q : Nat) (v : Qp) : (s.setQp q v).tiles = s.tiles := rfl
@[simp] theorem State.setQp_felt (s : State) (q : Nat) (v : Qp) : (s.setQp q v).felt = s.felt := rfl
@[simp] theorem State.setQp_tiers (s : State) (q : Nat) (v : Qp) : (s.setQp q v).tiers = s.tiers := rfl
@[simp] theorem State.setQp_gat (s : State) (q : Nat) (v : Qp) : (s.setQp q v).gat = s.gat := rfl
@[simp] theorem State.setQp_pwr (s : State) (q : Nat) (v : Qp) : (s.setQp q v).pwr = s.pwr := rfl
@[simp] theorem State.setQp_mgmt (s : State) (q : Nat) (v : Qp) : (s.setQp q v).mgmt = s.mgmt := rfl
@[simp] theorem State.setQp_rel (s : State) (q : Nat) (v : Qp) : (s.setQp q v).rel = s.rel := rfl
@[simp] theorem State.setQp_ingests (s : State) (q : Nat) (v : Qp) : (s.setQp q v).ingests = s.ingests := rfl
@[simp] theorem State.setQp_sec (s : State) (q : Nat) (v : Qp) : (s.setQp q v).sec = s.sec := rfl
@[simp] theorem State.setQp_net_modes (s : State) (q : Nat) (v : Qp) :
    (s.setQp q v).net.modes = s.net.modes := rfl
@[simp] theorem State.setQp_net_modeErr (s : State) (q : Nat) (v : Qp) :
    (s.setQp q v).net.modeErr = s.net.modeErr := rfl
@[simp] theorem State.setQp_net_ports (s : State) (q : Nat) (v : Qp) :
    (s.setQp q v).net.ports = s.net.ports := rfl
@[simp] theorem State.setQp_net_cmdErr (s : State) (q : Nat) (v : Qp) :
    (s.setQp q v).net.cmdErr = s.net.cmdErr := rfl
@[simp] theorem State.setQp_net_wins (s : State) (q : Nat) (v : Qp) :
    (s.setQp q v).net.wins = s.net.wins := rfl
@[simp] theorem State.setQp_net_sent (s : State) (q : Nat) (v : Qp) :
    (s.setQp q v).net.sent = s.net.sent := rfl
@[simp] theorem State.setQp_net_rxFill (s : State) (q : Nat) (v : Qp) :
    (s.setQp q v).net.rxFill = s.net.rxFill := rfl
@[simp] theorem State.setQp_ring (s : State) (q : Nat) (v : Qp) (j : Nat) :
    (s.setQp q v).ring j = s.ring j := rfl
@[simp] theorem State.setQp_cmd (s : State) (q : Nat) (v : Qp) (j : Nat) :
    (s.setQp q v).cmd? j = s.cmd? j := rfl
@[simp] theorem State.setQp_part (s : State) (q : Nat) (v : Qp) (j : Nat) :
    (s.setQp q v).part j = s.part j := rfl
@[simp] theorem State.setQp_post (s : State) (q : Nat) (v : Qp) (j : Nat) :
    (s.setQp q v).post? j = s.post? j := rfl
@[simp] theorem State.setQp_src (s : State) (q : Nat) (v : Qp) (j : Nat) :
    (s.setQp q v).src j = s.src j := rfl
@[simp] theorem State.setQp_regW (s : State) (q : Nat) (v : Qp) (j : Nat) :
    (s.setQp q v).regW j = s.regW j := rfl
@[simp] theorem State.setQp_regF (s : State) (q : Nat) (v : Qp) (j hi lo : Nat) :
    (s.setQp q v).regF j hi lo = s.regF j hi lo := rfl
@[simp] theorem State.setQp_counter (s : State) (q : Nat) (v : Qp) (j l : Nat) :
    (s.setQp q v).counter j l = s.counter j l := rfl
@[simp] theorem State.setQp_tile (s : State) (q : Nat) (v : Qp) (j : Nat) :
    (s.setQp q v).tile j = s.tile j := rfl
@[simp] theorem State.setQp_slot (s : State) (q : Nat) (v : Qp) (j : Nat) :
    (s.setQp q v).slot j = s.slot j := rfl
@[simp] theorem State.setQp_port (s : State) (q : Nat) (v : Qp) (j : Nat) :
    (s.setQp q v).port j = s.port j := rfl
@[simp] theorem State.setQp_now (s : State) (q : Nat) (v : Qp) :
    (s.setQp q v).now = s.now := rfl
@[simp] theorem State.setQp_srcOwner (s : State) (q : Nat) (v : Qp) (j : Nat) :
    (s.setQp q v).srcOwner j = s.srcOwner j := rfl
@[simp] theorem State.setQp_coalCount (s : State) (q : Nat) (v : Qp) (j : Nat) :
    (s.setQp q v).coalCount j = s.coalCount j := rfl

/-! ### modQp -/

@[simp] theorem State.modQp_pending (s : State) (q : Nat) (f : Qp → Qp) : (s.modQp q f).pending = s.pending := rfl
@[simp] theorem State.modQp_free (s : State) (q : Nat) (f : Qp → Qp) : (s.modQp q f).free = s.free := rfl
@[simp] theorem State.modQp_fuse (s : State) (q : Nat) (f : Qp → Qp) : (s.modQp q f).fuse = s.fuse := rfl
@[simp] theorem State.modQp_bus (s : State) (q : Nat) (f : Qp → Qp) : (s.modQp q f).bus = s.bus := rfl
@[simp] theorem State.modQp_mem (s : State) (q : Nat) (f : Qp → Qp) : (s.modQp q f).mem = s.mem := rfl
@[simp] theorem State.modQp_clk (s : State) (q : Nat) (f : Qp → Qp) : (s.modQp q f).clk = s.clk := rfl
@[simp] theorem State.modQp_ctr (s : State) (q : Nat) (f : Qp → Qp) : (s.modQp q f).ctr = s.ctr := rfl
@[simp] theorem State.modQp_tel (s : State) (q : Nat) (f : Qp → Qp) : (s.modQp q f).tel = s.tel := rfl
@[simp] theorem State.modQp_regs (s : State) (q : Nat) (f : Qp → Qp) : (s.modQp q f).regs = s.regs := rfl
@[simp] theorem State.modQp_parts (s : State) (q : Nat) (f : Qp → Qp) : (s.modQp q f).parts = s.parts := rfl
@[simp] theorem State.modQp_fe (s : State) (q : Nat) (f : Qp → Qp) : (s.modQp q f).fe = s.fe := rfl
@[simp] theorem State.modQp_io (s : State) (q : Nat) (f : Qp → Qp) : (s.modQp q f).io = s.io := rfl
@[simp] theorem State.modQp_hp (s : State) (q : Nat) (f : Qp → Qp) : (s.modQp q f).hp = s.hp := rfl
@[simp] theorem State.modQp_evt (s : State) (q : Nat) (f : Qp → Qp) : (s.modQp q f).evt = s.evt := rfl
@[simp] theorem State.modQp_dbg (s : State) (q : Nat) (f : Qp → Qp) : (s.modQp q f).dbg = s.dbg := rfl
@[simp] theorem State.modQp_ream (s : State) (q : Nat) (f : Qp → Qp) : (s.modQp q f).ream = s.ream := rfl
@[simp] theorem State.modQp_posts (s : State) (q : Nat) (f : Qp → Qp) : (s.modQp q f).posts = s.posts := rfl
@[simp] theorem State.modQp_slots (s : State) (q : Nat) (f : Qp → Qp) : (s.modQp q f).slots = s.slots := rfl
@[simp] theorem State.modQp_tiles (s : State) (q : Nat) (f : Qp → Qp) : (s.modQp q f).tiles = s.tiles := rfl
@[simp] theorem State.modQp_felt (s : State) (q : Nat) (f : Qp → Qp) : (s.modQp q f).felt = s.felt := rfl
@[simp] theorem State.modQp_tiers (s : State) (q : Nat) (f : Qp → Qp) : (s.modQp q f).tiers = s.tiers := rfl
@[simp] theorem State.modQp_gat (s : State) (q : Nat) (f : Qp → Qp) : (s.modQp q f).gat = s.gat := rfl
@[simp] theorem State.modQp_pwr (s : State) (q : Nat) (f : Qp → Qp) : (s.modQp q f).pwr = s.pwr := rfl
@[simp] theorem State.modQp_mgmt (s : State) (q : Nat) (f : Qp → Qp) : (s.modQp q f).mgmt = s.mgmt := rfl
@[simp] theorem State.modQp_rel (s : State) (q : Nat) (f : Qp → Qp) : (s.modQp q f).rel = s.rel := rfl
@[simp] theorem State.modQp_ingests (s : State) (q : Nat) (f : Qp → Qp) : (s.modQp q f).ingests = s.ingests := rfl
@[simp] theorem State.modQp_sec (s : State) (q : Nat) (f : Qp → Qp) : (s.modQp q f).sec = s.sec := rfl
@[simp] theorem State.modQp_net_modes (s : State) (q : Nat) (f : Qp → Qp) :
    (s.modQp q f).net.modes = s.net.modes := rfl
@[simp] theorem State.modQp_net_modeErr (s : State) (q : Nat) (f : Qp → Qp) :
    (s.modQp q f).net.modeErr = s.net.modeErr := rfl
@[simp] theorem State.modQp_net_ports (s : State) (q : Nat) (f : Qp → Qp) :
    (s.modQp q f).net.ports = s.net.ports := rfl
@[simp] theorem State.modQp_net_cmdErr (s : State) (q : Nat) (f : Qp → Qp) :
    (s.modQp q f).net.cmdErr = s.net.cmdErr := rfl
@[simp] theorem State.modQp_net_wins (s : State) (q : Nat) (f : Qp → Qp) :
    (s.modQp q f).net.wins = s.net.wins := rfl
@[simp] theorem State.modQp_net_sent (s : State) (q : Nat) (f : Qp → Qp) :
    (s.modQp q f).net.sent = s.net.sent := rfl
@[simp] theorem State.modQp_net_rxFill (s : State) (q : Nat) (f : Qp → Qp) :
    (s.modQp q f).net.rxFill = s.net.rxFill := rfl
@[simp] theorem State.modQp_ring (s : State) (q : Nat) (f : Qp → Qp) (j : Nat) :
    (s.modQp q f).ring j = s.ring j := rfl
@[simp] theorem State.modQp_cmd (s : State) (q : Nat) (f : Qp → Qp) (j : Nat) :
    (s.modQp q f).cmd? j = s.cmd? j := rfl
@[simp] theorem State.modQp_part (s : State) (q : Nat) (f : Qp → Qp) (j : Nat) :
    (s.modQp q f).part j = s.part j := rfl
@[simp] theorem State.modQp_post (s : State) (q : Nat) (f : Qp → Qp) (j : Nat) :
    (s.modQp q f).post? j = s.post? j := rfl
@[simp] theorem State.modQp_src (s : State) (q : Nat) (f : Qp → Qp) (j : Nat) :
    (s.modQp q f).src j = s.src j := rfl
@[simp] theorem State.modQp_regW (s : State) (q : Nat) (f : Qp → Qp) (j : Nat) :
    (s.modQp q f).regW j = s.regW j := rfl
@[simp] theorem State.modQp_regF (s : State) (q : Nat) (f : Qp → Qp) (j hi lo : Nat) :
    (s.modQp q f).regF j hi lo = s.regF j hi lo := rfl
@[simp] theorem State.modQp_counter (s : State) (q : Nat) (f : Qp → Qp) (j l : Nat) :
    (s.modQp q f).counter j l = s.counter j l := rfl
@[simp] theorem State.modQp_tile (s : State) (q : Nat) (f : Qp → Qp) (j : Nat) :
    (s.modQp q f).tile j = s.tile j := rfl
@[simp] theorem State.modQp_slot (s : State) (q : Nat) (f : Qp → Qp) (j : Nat) :
    (s.modQp q f).slot j = s.slot j := rfl
@[simp] theorem State.modQp_port (s : State) (q : Nat) (f : Qp → Qp) (j : Nat) :
    (s.modQp q f).port j = s.port j := rfl
@[simp] theorem State.modQp_now (s : State) (q : Nat) (f : Qp → Qp) :
    (s.modQp q f).now = s.now := rfl
@[simp] theorem State.modQp_srcOwner (s : State) (q : Nat) (f : Qp → Qp) (j : Nat) :
    (s.modQp q f).srcOwner j = s.srcOwner j := rfl
@[simp] theorem State.modQp_coalCount (s : State) (q : Nat) (f : Qp → Qp) (j : Nat) :
    (s.modQp q f).coalCount j = s.coalCount j := rfl

/-! ### setPort -/

@[simp] theorem State.setPort_pending (s : State) (n : Nat) (v : Port) : (s.setPort n v).pending = s.pending := rfl
@[simp] theorem State.setPort_free (s : State) (n : Nat) (v : Port) : (s.setPort n v).free = s.free := rfl
@[simp] theorem State.setPort_fuse (s : State) (n : Nat) (v : Port) : (s.setPort n v).fuse = s.fuse := rfl
@[simp] theorem State.setPort_bus (s : State) (n : Nat) (v : Port) : (s.setPort n v).bus = s.bus := rfl
@[simp] theorem State.setPort_mem (s : State) (n : Nat) (v : Port) : (s.setPort n v).mem = s.mem := rfl
@[simp] theorem State.setPort_clk (s : State) (n : Nat) (v : Port) : (s.setPort n v).clk = s.clk := rfl
@[simp] theorem State.setPort_ctr (s : State) (n : Nat) (v : Port) : (s.setPort n v).ctr = s.ctr := rfl
@[simp] theorem State.setPort_tel (s : State) (n : Nat) (v : Port) : (s.setPort n v).tel = s.tel := rfl
@[simp] theorem State.setPort_regs (s : State) (n : Nat) (v : Port) : (s.setPort n v).regs = s.regs := rfl
@[simp] theorem State.setPort_parts (s : State) (n : Nat) (v : Port) : (s.setPort n v).parts = s.parts := rfl
@[simp] theorem State.setPort_fe (s : State) (n : Nat) (v : Port) : (s.setPort n v).fe = s.fe := rfl
@[simp] theorem State.setPort_io (s : State) (n : Nat) (v : Port) : (s.setPort n v).io = s.io := rfl
@[simp] theorem State.setPort_hp (s : State) (n : Nat) (v : Port) : (s.setPort n v).hp = s.hp := rfl
@[simp] theorem State.setPort_evt (s : State) (n : Nat) (v : Port) : (s.setPort n v).evt = s.evt := rfl
@[simp] theorem State.setPort_dbg (s : State) (n : Nat) (v : Port) : (s.setPort n v).dbg = s.dbg := rfl
@[simp] theorem State.setPort_ream (s : State) (n : Nat) (v : Port) : (s.setPort n v).ream = s.ream := rfl
@[simp] theorem State.setPort_posts (s : State) (n : Nat) (v : Port) : (s.setPort n v).posts = s.posts := rfl
@[simp] theorem State.setPort_slots (s : State) (n : Nat) (v : Port) : (s.setPort n v).slots = s.slots := rfl
@[simp] theorem State.setPort_tiles (s : State) (n : Nat) (v : Port) : (s.setPort n v).tiles = s.tiles := rfl
@[simp] theorem State.setPort_felt (s : State) (n : Nat) (v : Port) : (s.setPort n v).felt = s.felt := rfl
@[simp] theorem State.setPort_tiers (s : State) (n : Nat) (v : Port) : (s.setPort n v).tiers = s.tiers := rfl
@[simp] theorem State.setPort_gat (s : State) (n : Nat) (v : Port) : (s.setPort n v).gat = s.gat := rfl
@[simp] theorem State.setPort_pwr (s : State) (n : Nat) (v : Port) : (s.setPort n v).pwr = s.pwr := rfl
@[simp] theorem State.setPort_mgmt (s : State) (n : Nat) (v : Port) : (s.setPort n v).mgmt = s.mgmt := rfl
@[simp] theorem State.setPort_rel (s : State) (n : Nat) (v : Port) : (s.setPort n v).rel = s.rel := rfl
@[simp] theorem State.setPort_ingests (s : State) (n : Nat) (v : Port) : (s.setPort n v).ingests = s.ingests := rfl
@[simp] theorem State.setPort_sec (s : State) (n : Nat) (v : Port) : (s.setPort n v).sec = s.sec := rfl
@[simp] theorem State.setPort_net_modes (s : State) (n : Nat) (v : Port) :
    (s.setPort n v).net.modes = s.net.modes := rfl
@[simp] theorem State.setPort_net_modeErr (s : State) (n : Nat) (v : Port) :
    (s.setPort n v).net.modeErr = s.net.modeErr := rfl
@[simp] theorem State.setPort_net_cmdErr (s : State) (n : Nat) (v : Port) :
    (s.setPort n v).net.cmdErr = s.net.cmdErr := rfl
@[simp] theorem State.setPort_net_qps (s : State) (n : Nat) (v : Port) :
    (s.setPort n v).net.qps = s.net.qps := rfl
@[simp] theorem State.setPort_net_wins (s : State) (n : Nat) (v : Port) :
    (s.setPort n v).net.wins = s.net.wins := rfl
@[simp] theorem State.setPort_net_sent (s : State) (n : Nat) (v : Port) :
    (s.setPort n v).net.sent = s.net.sent := rfl
@[simp] theorem State.setPort_net_rxFill (s : State) (n : Nat) (v : Port) :
    (s.setPort n v).net.rxFill = s.net.rxFill := rfl
@[simp] theorem State.setPort_ring (s : State) (n : Nat) (v : Port) (j : Nat) :
    (s.setPort n v).ring j = s.ring j := rfl
@[simp] theorem State.setPort_cmd (s : State) (n : Nat) (v : Port) (j : Nat) :
    (s.setPort n v).cmd? j = s.cmd? j := rfl
@[simp] theorem State.setPort_part (s : State) (n : Nat) (v : Port) (j : Nat) :
    (s.setPort n v).part j = s.part j := rfl
@[simp] theorem State.setPort_post (s : State) (n : Nat) (v : Port) (j : Nat) :
    (s.setPort n v).post? j = s.post? j := rfl
@[simp] theorem State.setPort_src (s : State) (n : Nat) (v : Port) (j : Nat) :
    (s.setPort n v).src j = s.src j := rfl
@[simp] theorem State.setPort_regW (s : State) (n : Nat) (v : Port) (j : Nat) :
    (s.setPort n v).regW j = s.regW j := rfl
@[simp] theorem State.setPort_regF (s : State) (n : Nat) (v : Port) (j hi lo : Nat) :
    (s.setPort n v).regF j hi lo = s.regF j hi lo := rfl
@[simp] theorem State.setPort_counter (s : State) (n : Nat) (v : Port) (j l : Nat) :
    (s.setPort n v).counter j l = s.counter j l := rfl
@[simp] theorem State.setPort_tile (s : State) (n : Nat) (v : Port) (j : Nat) :
    (s.setPort n v).tile j = s.tile j := rfl
@[simp] theorem State.setPort_slot (s : State) (n : Nat) (v : Port) (j : Nat) :
    (s.setPort n v).slot j = s.slot j := rfl
@[simp] theorem State.setPort_qp (s : State) (n : Nat) (v : Port) (j : Nat) :
    (s.setPort n v).qp j = s.qp j := rfl
@[simp] theorem State.setPort_now (s : State) (n : Nat) (v : Port) :
    (s.setPort n v).now = s.now := rfl
@[simp] theorem State.setPort_srcOwner (s : State) (n : Nat) (v : Port) (j : Nat) :
    (s.setPort n v).srcOwner j = s.srcOwner j := rfl
@[simp] theorem State.setPort_coalCount (s : State) (n : Nat) (v : Port) (j : Nat) :
    (s.setPort n v).coalCount j = s.coalCount j := rfl

/-! ### modSlot -/

@[simp] theorem State.modSlot_pending (s : State) (k : Nat) (f : Slot → Slot) : (s.modSlot k f).pending = s.pending := rfl
@[simp] theorem State.modSlot_free (s : State) (k : Nat) (f : Slot → Slot) : (s.modSlot k f).free = s.free := rfl
@[simp] theorem State.modSlot_fuse (s : State) (k : Nat) (f : Slot → Slot) : (s.modSlot k f).fuse = s.fuse := rfl
@[simp] theorem State.modSlot_bus (s : State) (k : Nat) (f : Slot → Slot) : (s.modSlot k f).bus = s.bus := rfl
@[simp] theorem State.modSlot_mem (s : State) (k : Nat) (f : Slot → Slot) : (s.modSlot k f).mem = s.mem := rfl
@[simp] theorem State.modSlot_clk (s : State) (k : Nat) (f : Slot → Slot) : (s.modSlot k f).clk = s.clk := rfl
@[simp] theorem State.modSlot_ctr (s : State) (k : Nat) (f : Slot → Slot) : (s.modSlot k f).ctr = s.ctr := rfl
@[simp] theorem State.modSlot_tel (s : State) (k : Nat) (f : Slot → Slot) : (s.modSlot k f).tel = s.tel := rfl
@[simp] theorem State.modSlot_regs (s : State) (k : Nat) (f : Slot → Slot) : (s.modSlot k f).regs = s.regs := rfl
@[simp] theorem State.modSlot_parts (s : State) (k : Nat) (f : Slot → Slot) : (s.modSlot k f).parts = s.parts := rfl
@[simp] theorem State.modSlot_fe (s : State) (k : Nat) (f : Slot → Slot) : (s.modSlot k f).fe = s.fe := rfl
@[simp] theorem State.modSlot_io (s : State) (k : Nat) (f : Slot → Slot) : (s.modSlot k f).io = s.io := rfl
@[simp] theorem State.modSlot_hp (s : State) (k : Nat) (f : Slot → Slot) : (s.modSlot k f).hp = s.hp := rfl
@[simp] theorem State.modSlot_evt (s : State) (k : Nat) (f : Slot → Slot) : (s.modSlot k f).evt = s.evt := rfl
@[simp] theorem State.modSlot_dbg (s : State) (k : Nat) (f : Slot → Slot) : (s.modSlot k f).dbg = s.dbg := rfl
@[simp] theorem State.modSlot_ream (s : State) (k : Nat) (f : Slot → Slot) : (s.modSlot k f).ream = s.ream := rfl
@[simp] theorem State.modSlot_posts (s : State) (k : Nat) (f : Slot → Slot) : (s.modSlot k f).posts = s.posts := rfl
@[simp] theorem State.modSlot_net (s : State) (k : Nat) (f : Slot → Slot) : (s.modSlot k f).net = s.net := rfl
@[simp] theorem State.modSlot_tiles (s : State) (k : Nat) (f : Slot → Slot) : (s.modSlot k f).tiles = s.tiles := rfl
@[simp] theorem State.modSlot_felt (s : State) (k : Nat) (f : Slot → Slot) : (s.modSlot k f).felt = s.felt := rfl
@[simp] theorem State.modSlot_tiers (s : State) (k : Nat) (f : Slot → Slot) : (s.modSlot k f).tiers = s.tiers := rfl
@[simp] theorem State.modSlot_gat (s : State) (k : Nat) (f : Slot → Slot) : (s.modSlot k f).gat = s.gat := rfl
@[simp] theorem State.modSlot_pwr (s : State) (k : Nat) (f : Slot → Slot) : (s.modSlot k f).pwr = s.pwr := rfl
@[simp] theorem State.modSlot_mgmt (s : State) (k : Nat) (f : Slot → Slot) : (s.modSlot k f).mgmt = s.mgmt := rfl
@[simp] theorem State.modSlot_rel (s : State) (k : Nat) (f : Slot → Slot) : (s.modSlot k f).rel = s.rel := rfl
@[simp] theorem State.modSlot_ingests (s : State) (k : Nat) (f : Slot → Slot) : (s.modSlot k f).ingests = s.ingests := rfl
@[simp] theorem State.modSlot_sec (s : State) (k : Nat) (f : Slot → Slot) : (s.modSlot k f).sec = s.sec := rfl
@[simp] theorem State.modSlot_ring (s : State) (k : Nat) (f : Slot → Slot) (j : Nat) :
    (s.modSlot k f).ring j = s.ring j := rfl
@[simp] theorem State.modSlot_cmd (s : State) (k : Nat) (f : Slot → Slot) (j : Nat) :
    (s.modSlot k f).cmd? j = s.cmd? j := rfl
@[simp] theorem State.modSlot_part (s : State) (k : Nat) (f : Slot → Slot) (j : Nat) :
    (s.modSlot k f).part j = s.part j := rfl
@[simp] theorem State.modSlot_post (s : State) (k : Nat) (f : Slot → Slot) (j : Nat) :
    (s.modSlot k f).post? j = s.post? j := rfl
@[simp] theorem State.modSlot_src (s : State) (k : Nat) (f : Slot → Slot) (j : Nat) :
    (s.modSlot k f).src j = s.src j := rfl
@[simp] theorem State.modSlot_regW (s : State) (k : Nat) (f : Slot → Slot) (j : Nat) :
    (s.modSlot k f).regW j = s.regW j := rfl
@[simp] theorem State.modSlot_regF (s : State) (k : Nat) (f : Slot → Slot) (j hi lo : Nat) :
    (s.modSlot k f).regF j hi lo = s.regF j hi lo := rfl
@[simp] theorem State.modSlot_counter (s : State) (k : Nat) (f : Slot → Slot) (j l : Nat) :
    (s.modSlot k f).counter j l = s.counter j l := rfl
@[simp] theorem State.modSlot_tile (s : State) (k : Nat) (f : Slot → Slot) (j : Nat) :
    (s.modSlot k f).tile j = s.tile j := rfl
@[simp] theorem State.modSlot_qp (s : State) (k : Nat) (f : Slot → Slot) (j : Nat) :
    (s.modSlot k f).qp j = s.qp j := rfl
@[simp] theorem State.modSlot_port (s : State) (k : Nat) (f : Slot → Slot) (j : Nat) :
    (s.modSlot k f).port j = s.port j := rfl
@[simp] theorem State.modSlot_now (s : State) (k : Nat) (f : Slot → Slot) :
    (s.modSlot k f).now = s.now := rfl
@[simp] theorem State.modSlot_hostUp (s : State) (k : Nat) (f : Slot → Slot) (j l : Nat) :
    (s.modSlot k f).hostUp j l = s.hostUp j l := rfl
@[simp] theorem State.modSlot_srcOwner (s : State) (k : Nat) (f : Slot → Slot) (j : Nat) :
    (s.modSlot k f).srcOwner j = s.srcOwner j := rfl
@[simp] theorem State.modSlot_coalCount (s : State) (k : Nat) (f : Slot → Slot) (j : Nat) :
    (s.modSlot k f).coalCount j = s.coalCount j := rfl

/-! ### setVault -/

@[simp] theorem State.setVault_pending (s : State) (v : Vault) : (s.setVault v).pending = s.pending := rfl
@[simp] theorem State.setVault_free (s : State) (v : Vault) : (s.setVault v).free = s.free := rfl
@[simp] theorem State.setVault_fuse (s : State) (v : Vault) : (s.setVault v).fuse = s.fuse := rfl
@[simp] theorem State.setVault_bus (s : State) (v : Vault) : (s.setVault v).bus = s.bus := rfl
@[simp] theorem State.setVault_mem (s : State) (v : Vault) : (s.setVault v).mem = s.mem := rfl
@[simp] theorem State.setVault_clk (s : State) (v : Vault) : (s.setVault v).clk = s.clk := rfl
@[simp] theorem State.setVault_ctr (s : State) (v : Vault) : (s.setVault v).ctr = s.ctr := rfl
@[simp] theorem State.setVault_tel (s : State) (v : Vault) : (s.setVault v).tel = s.tel := rfl
@[simp] theorem State.setVault_regs (s : State) (v : Vault) : (s.setVault v).regs = s.regs := rfl
@[simp] theorem State.setVault_parts (s : State) (v : Vault) : (s.setVault v).parts = s.parts := rfl
@[simp] theorem State.setVault_fe (s : State) (v : Vault) : (s.setVault v).fe = s.fe := rfl
@[simp] theorem State.setVault_io (s : State) (v : Vault) : (s.setVault v).io = s.io := rfl
@[simp] theorem State.setVault_hp (s : State) (v : Vault) : (s.setVault v).hp = s.hp := rfl
@[simp] theorem State.setVault_evt (s : State) (v : Vault) : (s.setVault v).evt = s.evt := rfl
@[simp] theorem State.setVault_dbg (s : State) (v : Vault) : (s.setVault v).dbg = s.dbg := rfl
@[simp] theorem State.setVault_ream (s : State) (v : Vault) : (s.setVault v).ream = s.ream := rfl
@[simp] theorem State.setVault_posts (s : State) (v : Vault) : (s.setVault v).posts = s.posts := rfl
@[simp] theorem State.setVault_net (s : State) (v : Vault) : (s.setVault v).net = s.net := rfl
@[simp] theorem State.setVault_slots (s : State) (v : Vault) : (s.setVault v).slots = s.slots := rfl
@[simp] theorem State.setVault_tiles (s : State) (v : Vault) : (s.setVault v).tiles = s.tiles := rfl
@[simp] theorem State.setVault_felt (s : State) (v : Vault) : (s.setVault v).felt = s.felt := rfl
@[simp] theorem State.setVault_tiers (s : State) (v : Vault) : (s.setVault v).tiers = s.tiers := rfl
@[simp] theorem State.setVault_gat (s : State) (v : Vault) : (s.setVault v).gat = s.gat := rfl
@[simp] theorem State.setVault_pwr (s : State) (v : Vault) : (s.setVault v).pwr = s.pwr := rfl
@[simp] theorem State.setVault_mgmt (s : State) (v : Vault) : (s.setVault v).mgmt = s.mgmt := rfl
@[simp] theorem State.setVault_ingests (s : State) (v : Vault) : (s.setVault v).ingests = s.ingests := rfl
@[simp] theorem State.setVault_sec (s : State) (v : Vault) : (s.setVault v).sec = s.sec := rfl
@[simp] theorem State.setVault_rel_cause (s : State) (v : Vault) :
    (s.setVault v).rel.cause = s.rel.cause := rfl
@[simp] theorem State.setVault_rel_stuck (s : State) (v : Vault) :
    (s.setVault v).rel.stuck = s.rel.stuck := rfl
@[simp] theorem State.setVault_rel_seq (s : State) (v : Vault) :
    (s.setVault v).rel.seq = s.rel.seq := rfl
@[simp] theorem State.setVault_rel_suspSweep (s : State) (v : Vault) :
    (s.setVault v).rel.suspSweep = s.rel.suspSweep := rfl
@[simp] theorem State.setVault_rel_d2dDue (s : State) (v : Vault) :
    (s.setVault v).rel.d2dDue = s.rel.d2dDue := rfl
@[simp] theorem State.setVault_rel_d2dLast (s : State) (v : Vault) :
    (s.setVault v).rel.d2dLast = s.rel.d2dLast := rfl
@[simp] theorem State.setVault_rel_times (s : State) (v : Vault) :
    (s.setVault v).rel.times = s.rel.times := rfl
@[simp] theorem State.setVault_rel_boots (s : State) (v : Vault) :
    (s.setVault v).rel.boots = s.rel.boots := rfl
@[simp] theorem State.setVault_rel_restoring (s : State) (v : Vault) :
    (s.setVault v).rel.restoring = s.rel.restoring := rfl
@[simp] theorem State.setVault_rel_suspect (s : State) (v : Vault) :
    (s.setVault v).rel.suspect = s.rel.suspect := rfl
@[simp] theorem State.setVault_rel_passed (s : State) (v : Vault) :
    (s.setVault v).rel.passed = s.rel.passed := rfl
@[simp] theorem State.setVault_rel_packId (s : State) (v : Vault) :
    (s.setVault v).rel.packId = s.rel.packId := rfl
@[simp] theorem State.setVault_rel_packLen (s : State) (v : Vault) :
    (s.setVault v).rel.packLen = s.rel.packLen := rfl
@[simp] theorem State.setVault_rel_plog (s : State) (v : Vault) :
    (s.setVault v).rel.plog = s.rel.plog := rfl
@[simp] theorem State.setVault_rel_plogProd (s : State) (v : Vault) :
    (s.setVault v).rel.plogProd = s.rel.plogProd := rfl
@[simp] theorem State.setVault_rel_sender (s : State) (v : Vault) :
    (s.setVault v).rel.sender = s.rel.sender := rfl
@[simp] theorem State.setVault_rel_receiver (s : State) (v : Vault) :
    (s.setVault v).rel.receiver = s.rel.receiver := rfl
@[simp] theorem State.setVault_rel_commit (s : State) (v : Vault) :
    (s.setVault v).rel.commit = s.rel.commit := rfl
@[simp] theorem State.setVault_rel_restore (s : State) (v : Vault) :
    (s.setVault v).rel.restore = s.rel.restore := rfl
@[simp] theorem State.setVault_ring (s : State) (v : Vault) (j : Nat) :
    (s.setVault v).ring j = s.ring j := rfl
@[simp] theorem State.setVault_cmd (s : State) (v : Vault) (j : Nat) :
    (s.setVault v).cmd? j = s.cmd? j := rfl
@[simp] theorem State.setVault_part (s : State) (v : Vault) (j : Nat) :
    (s.setVault v).part j = s.part j := rfl
@[simp] theorem State.setVault_post (s : State) (v : Vault) (j : Nat) :
    (s.setVault v).post? j = s.post? j := rfl
@[simp] theorem State.setVault_src (s : State) (v : Vault) (j : Nat) :
    (s.setVault v).src j = s.src j := rfl
@[simp] theorem State.setVault_regW (s : State) (v : Vault) (j : Nat) :
    (s.setVault v).regW j = s.regW j := rfl
@[simp] theorem State.setVault_regF (s : State) (v : Vault) (j hi lo : Nat) :
    (s.setVault v).regF j hi lo = s.regF j hi lo := rfl
@[simp] theorem State.setVault_counter (s : State) (v : Vault) (j l : Nat) :
    (s.setVault v).counter j l = s.counter j l := rfl
@[simp] theorem State.setVault_tile (s : State) (v : Vault) (j : Nat) :
    (s.setVault v).tile j = s.tile j := rfl
@[simp] theorem State.setVault_slot (s : State) (v : Vault) (j : Nat) :
    (s.setVault v).slot j = s.slot j := rfl
@[simp] theorem State.setVault_qp (s : State) (v : Vault) (j : Nat) :
    (s.setVault v).qp j = s.qp j := rfl
@[simp] theorem State.setVault_port (s : State) (v : Vault) (j : Nat) :
    (s.setVault v).port j = s.port j := rfl
@[simp] theorem State.setVault_now (s : State) (v : Vault) :
    (s.setVault v).now = s.now := rfl
@[simp] theorem State.setVault_hostUp (s : State) (v : Vault) (j l : Nat) :
    (s.setVault v).hostUp j l = s.hostUp j l := rfl
@[simp] theorem State.setVault_srcOwner (s : State) (v : Vault) (j : Nat) :
    (s.setVault v).srcOwner j = s.srcOwner j := rfl
@[simp] theorem State.setVault_coalCount (s : State) (v : Vault) (j : Nat) :
    (s.setVault v).coalCount j = s.coalCount j := rfl

/-! ### modVault -/

@[simp] theorem State.modVault_pending (s : State) (f : Vault → Vault) : (s.modVault f).pending = s.pending := rfl
@[simp] theorem State.modVault_free (s : State) (f : Vault → Vault) : (s.modVault f).free = s.free := rfl
@[simp] theorem State.modVault_fuse (s : State) (f : Vault → Vault) : (s.modVault f).fuse = s.fuse := rfl
@[simp] theorem State.modVault_bus (s : State) (f : Vault → Vault) : (s.modVault f).bus = s.bus := rfl
@[simp] theorem State.modVault_mem (s : State) (f : Vault → Vault) : (s.modVault f).mem = s.mem := rfl
@[simp] theorem State.modVault_clk (s : State) (f : Vault → Vault) : (s.modVault f).clk = s.clk := rfl
@[simp] theorem State.modVault_ctr (s : State) (f : Vault → Vault) : (s.modVault f).ctr = s.ctr := rfl
@[simp] theorem State.modVault_tel (s : State) (f : Vault → Vault) : (s.modVault f).tel = s.tel := rfl
@[simp] theorem State.modVault_regs (s : State) (f : Vault → Vault) : (s.modVault f).regs = s.regs := rfl
@[simp] theorem State.modVault_parts (s : State) (f : Vault → Vault) : (s.modVault f).parts = s.parts := rfl
@[simp] theorem State.modVault_fe (s : State) (f : Vault → Vault) : (s.modVault f).fe = s.fe := rfl
@[simp] theorem State.modVault_io (s : State) (f : Vault → Vault) : (s.modVault f).io = s.io := rfl
@[simp] theorem State.modVault_hp (s : State) (f : Vault → Vault) : (s.modVault f).hp = s.hp := rfl
@[simp] theorem State.modVault_evt (s : State) (f : Vault → Vault) : (s.modVault f).evt = s.evt := rfl
@[simp] theorem State.modVault_dbg (s : State) (f : Vault → Vault) : (s.modVault f).dbg = s.dbg := rfl
@[simp] theorem State.modVault_ream (s : State) (f : Vault → Vault) : (s.modVault f).ream = s.ream := rfl
@[simp] theorem State.modVault_posts (s : State) (f : Vault → Vault) : (s.modVault f).posts = s.posts := rfl
@[simp] theorem State.modVault_net (s : State) (f : Vault → Vault) : (s.modVault f).net = s.net := rfl
@[simp] theorem State.modVault_slots (s : State) (f : Vault → Vault) : (s.modVault f).slots = s.slots := rfl
@[simp] theorem State.modVault_tiles (s : State) (f : Vault → Vault) : (s.modVault f).tiles = s.tiles := rfl
@[simp] theorem State.modVault_felt (s : State) (f : Vault → Vault) : (s.modVault f).felt = s.felt := rfl
@[simp] theorem State.modVault_tiers (s : State) (f : Vault → Vault) : (s.modVault f).tiers = s.tiers := rfl
@[simp] theorem State.modVault_gat (s : State) (f : Vault → Vault) : (s.modVault f).gat = s.gat := rfl
@[simp] theorem State.modVault_pwr (s : State) (f : Vault → Vault) : (s.modVault f).pwr = s.pwr := rfl
@[simp] theorem State.modVault_mgmt (s : State) (f : Vault → Vault) : (s.modVault f).mgmt = s.mgmt := rfl
@[simp] theorem State.modVault_ingests (s : State) (f : Vault → Vault) : (s.modVault f).ingests = s.ingests := rfl
@[simp] theorem State.modVault_sec (s : State) (f : Vault → Vault) : (s.modVault f).sec = s.sec := rfl
@[simp] theorem State.modVault_rel_cause (s : State) (f : Vault → Vault) :
    (s.modVault f).rel.cause = s.rel.cause := rfl
@[simp] theorem State.modVault_rel_stuck (s : State) (f : Vault → Vault) :
    (s.modVault f).rel.stuck = s.rel.stuck := rfl
@[simp] theorem State.modVault_rel_seq (s : State) (f : Vault → Vault) :
    (s.modVault f).rel.seq = s.rel.seq := rfl
@[simp] theorem State.modVault_rel_times (s : State) (f : Vault → Vault) :
    (s.modVault f).rel.times = s.rel.times := rfl
@[simp] theorem State.modVault_rel_boots (s : State) (f : Vault → Vault) :
    (s.modVault f).rel.boots = s.rel.boots := rfl
@[simp] theorem State.modVault_rel_restoring (s : State) (f : Vault → Vault) :
    (s.modVault f).rel.restoring = s.rel.restoring := rfl
@[simp] theorem State.modVault_rel_suspect (s : State) (f : Vault → Vault) :
    (s.modVault f).rel.suspect = s.rel.suspect := rfl
@[simp] theorem State.modVault_rel_passed (s : State) (f : Vault → Vault) :
    (s.modVault f).rel.passed = s.rel.passed := rfl
@[simp] theorem State.modVault_rel_packId (s : State) (f : Vault → Vault) :
    (s.modVault f).rel.packId = s.rel.packId := rfl
@[simp] theorem State.modVault_rel_packLen (s : State) (f : Vault → Vault) :
    (s.modVault f).rel.packLen = s.rel.packLen := rfl
@[simp] theorem State.modVault_rel_plog (s : State) (f : Vault → Vault) :
    (s.modVault f).rel.plog = s.rel.plog := rfl
@[simp] theorem State.modVault_rel_plogProd (s : State) (f : Vault → Vault) :
    (s.modVault f).rel.plogProd = s.rel.plogProd := rfl
@[simp] theorem State.modVault_rel_sender (s : State) (f : Vault → Vault) :
    (s.modVault f).rel.sender = s.rel.sender := rfl
@[simp] theorem State.modVault_rel_receiver (s : State) (f : Vault → Vault) :
    (s.modVault f).rel.receiver = s.rel.receiver := rfl
@[simp] theorem State.modVault_rel_commit (s : State) (f : Vault → Vault) :
    (s.modVault f).rel.commit = s.rel.commit := rfl
@[simp] theorem State.modVault_rel_restore (s : State) (f : Vault → Vault) :
    (s.modVault f).rel.restore = s.rel.restore := rfl
@[simp] theorem State.modVault_ring (s : State) (f : Vault → Vault) (j : Nat) :
    (s.modVault f).ring j = s.ring j := rfl
@[simp] theorem State.modVault_cmd (s : State) (f : Vault → Vault) (j : Nat) :
    (s.modVault f).cmd? j = s.cmd? j := rfl
@[simp] theorem State.modVault_part (s : State) (f : Vault → Vault) (j : Nat) :
    (s.modVault f).part j = s.part j := rfl
@[simp] theorem State.modVault_post (s : State) (f : Vault → Vault) (j : Nat) :
    (s.modVault f).post? j = s.post? j := rfl
@[simp] theorem State.modVault_src (s : State) (f : Vault → Vault) (j : Nat) :
    (s.modVault f).src j = s.src j := rfl
@[simp] theorem State.modVault_regW (s : State) (f : Vault → Vault) (j : Nat) :
    (s.modVault f).regW j = s.regW j := rfl
@[simp] theorem State.modVault_regF (s : State) (f : Vault → Vault) (j hi lo : Nat) :
    (s.modVault f).regF j hi lo = s.regF j hi lo := rfl
@[simp] theorem State.modVault_counter (s : State) (f : Vault → Vault) (j l : Nat) :
    (s.modVault f).counter j l = s.counter j l := rfl
@[simp] theorem State.modVault_tile (s : State) (f : Vault → Vault) (j : Nat) :
    (s.modVault f).tile j = s.tile j := rfl
@[simp] theorem State.modVault_slot (s : State) (f : Vault → Vault) (j : Nat) :
    (s.modVault f).slot j = s.slot j := rfl
@[simp] theorem State.modVault_qp (s : State) (f : Vault → Vault) (j : Nat) :
    (s.modVault f).qp j = s.qp j := rfl
@[simp] theorem State.modVault_port (s : State) (f : Vault → Vault) (j : Nat) :
    (s.modVault f).port j = s.port j := rfl
@[simp] theorem State.modVault_now (s : State) (f : Vault → Vault) :
    (s.modVault f).now = s.now := rfl
@[simp] theorem State.modVault_hostUp (s : State) (f : Vault → Vault) (j l : Nat) :
    (s.modVault f).hostUp j l = s.hostUp j l := rfl
@[simp] theorem State.modVault_srcOwner (s : State) (f : Vault → Vault) (j : Nat) :
    (s.modVault f).srcOwner j = s.srcOwner j := rfl
@[simp] theorem State.modVault_coalCount (s : State) (f : Vault → Vault) (j : Nat) :
    (s.modVault f).coalCount j = s.coalCount j := rfl

/-! ### setSender -/

@[simp] theorem State.setSender_pending (s : State) (p : Option Pair) : (s.setSender p).pending = s.pending := rfl
@[simp] theorem State.setSender_free (s : State) (p : Option Pair) : (s.setSender p).free = s.free := rfl
@[simp] theorem State.setSender_fuse (s : State) (p : Option Pair) : (s.setSender p).fuse = s.fuse := rfl
@[simp] theorem State.setSender_bus (s : State) (p : Option Pair) : (s.setSender p).bus = s.bus := rfl
@[simp] theorem State.setSender_mem (s : State) (p : Option Pair) : (s.setSender p).mem = s.mem := rfl
@[simp] theorem State.setSender_clk (s : State) (p : Option Pair) : (s.setSender p).clk = s.clk := rfl
@[simp] theorem State.setSender_ctr (s : State) (p : Option Pair) : (s.setSender p).ctr = s.ctr := rfl
@[simp] theorem State.setSender_tel (s : State) (p : Option Pair) : (s.setSender p).tel = s.tel := rfl
@[simp] theorem State.setSender_regs (s : State) (p : Option Pair) : (s.setSender p).regs = s.regs := rfl
@[simp] theorem State.setSender_parts (s : State) (p : Option Pair) : (s.setSender p).parts = s.parts := rfl
@[simp] theorem State.setSender_fe (s : State) (p : Option Pair) : (s.setSender p).fe = s.fe := rfl
@[simp] theorem State.setSender_io (s : State) (p : Option Pair) : (s.setSender p).io = s.io := rfl
@[simp] theorem State.setSender_hp (s : State) (p : Option Pair) : (s.setSender p).hp = s.hp := rfl
@[simp] theorem State.setSender_evt (s : State) (p : Option Pair) : (s.setSender p).evt = s.evt := rfl
@[simp] theorem State.setSender_dbg (s : State) (p : Option Pair) : (s.setSender p).dbg = s.dbg := rfl
@[simp] theorem State.setSender_ream (s : State) (p : Option Pair) : (s.setSender p).ream = s.ream := rfl
@[simp] theorem State.setSender_posts (s : State) (p : Option Pair) : (s.setSender p).posts = s.posts := rfl
@[simp] theorem State.setSender_net (s : State) (p : Option Pair) : (s.setSender p).net = s.net := rfl
@[simp] theorem State.setSender_slots (s : State) (p : Option Pair) : (s.setSender p).slots = s.slots := rfl
@[simp] theorem State.setSender_tiles (s : State) (p : Option Pair) : (s.setSender p).tiles = s.tiles := rfl
@[simp] theorem State.setSender_felt (s : State) (p : Option Pair) : (s.setSender p).felt = s.felt := rfl
@[simp] theorem State.setSender_tiers (s : State) (p : Option Pair) : (s.setSender p).tiers = s.tiers := rfl
@[simp] theorem State.setSender_gat (s : State) (p : Option Pair) : (s.setSender p).gat = s.gat := rfl
@[simp] theorem State.setSender_pwr (s : State) (p : Option Pair) : (s.setSender p).pwr = s.pwr := rfl
@[simp] theorem State.setSender_mgmt (s : State) (p : Option Pair) : (s.setSender p).mgmt = s.mgmt := rfl
@[simp] theorem State.setSender_ingests (s : State) (p : Option Pair) : (s.setSender p).ingests = s.ingests := rfl
@[simp] theorem State.setSender_sec (s : State) (p : Option Pair) : (s.setSender p).sec = s.sec := rfl
@[simp] theorem State.setSender_rel_cause (s : State) (p : Option Pair) :
    (s.setSender p).rel.cause = s.rel.cause := rfl
@[simp] theorem State.setSender_rel_stuck (s : State) (p : Option Pair) :
    (s.setSender p).rel.stuck = s.rel.stuck := rfl
@[simp] theorem State.setSender_rel_seq (s : State) (p : Option Pair) :
    (s.setSender p).rel.seq = s.rel.seq := rfl
@[simp] theorem State.setSender_rel_times (s : State) (p : Option Pair) :
    (s.setSender p).rel.times = s.rel.times := rfl
@[simp] theorem State.setSender_rel_boots (s : State) (p : Option Pair) :
    (s.setSender p).rel.boots = s.rel.boots := rfl
@[simp] theorem State.setSender_rel_restoring (s : State) (p : Option Pair) :
    (s.setSender p).rel.restoring = s.rel.restoring := rfl
@[simp] theorem State.setSender_rel_suspect (s : State) (p : Option Pair) :
    (s.setSender p).rel.suspect = s.rel.suspect := rfl
@[simp] theorem State.setSender_rel_passed (s : State) (p : Option Pair) :
    (s.setSender p).rel.passed = s.rel.passed := rfl
@[simp] theorem State.setSender_rel_packId (s : State) (p : Option Pair) :
    (s.setSender p).rel.packId = s.rel.packId := rfl
@[simp] theorem State.setSender_rel_packLen (s : State) (p : Option Pair) :
    (s.setSender p).rel.packLen = s.rel.packLen := rfl
@[simp] theorem State.setSender_rel_plog (s : State) (p : Option Pair) :
    (s.setSender p).rel.plog = s.rel.plog := rfl
@[simp] theorem State.setSender_rel_plogProd (s : State) (p : Option Pair) :
    (s.setSender p).rel.plogProd = s.rel.plogProd := rfl
@[simp] theorem State.setSender_rel_vault (s : State) (p : Option Pair) :
    (s.setSender p).rel.vault = s.rel.vault := rfl
@[simp] theorem State.setSender_rel_receiver (s : State) (p : Option Pair) :
    (s.setSender p).rel.receiver = s.rel.receiver := rfl
@[simp] theorem State.setSender_rel_commit (s : State) (p : Option Pair) :
    (s.setSender p).rel.commit = s.rel.commit := rfl
@[simp] theorem State.setSender_rel_restore (s : State) (p : Option Pair) :
    (s.setSender p).rel.restore = s.rel.restore := rfl
@[simp] theorem State.setSender_ring (s : State) (p : Option Pair) (j : Nat) :
    (s.setSender p).ring j = s.ring j := rfl
@[simp] theorem State.setSender_cmd (s : State) (p : Option Pair) (j : Nat) :
    (s.setSender p).cmd? j = s.cmd? j := rfl
@[simp] theorem State.setSender_part (s : State) (p : Option Pair) (j : Nat) :
    (s.setSender p).part j = s.part j := rfl
@[simp] theorem State.setSender_post (s : State) (p : Option Pair) (j : Nat) :
    (s.setSender p).post? j = s.post? j := rfl
@[simp] theorem State.setSender_src (s : State) (p : Option Pair) (j : Nat) :
    (s.setSender p).src j = s.src j := rfl
@[simp] theorem State.setSender_regW (s : State) (p : Option Pair) (j : Nat) :
    (s.setSender p).regW j = s.regW j := rfl
@[simp] theorem State.setSender_regF (s : State) (p : Option Pair) (j hi lo : Nat) :
    (s.setSender p).regF j hi lo = s.regF j hi lo := rfl
@[simp] theorem State.setSender_counter (s : State) (p : Option Pair) (j l : Nat) :
    (s.setSender p).counter j l = s.counter j l := rfl
@[simp] theorem State.setSender_tile (s : State) (p : Option Pair) (j : Nat) :
    (s.setSender p).tile j = s.tile j := rfl
@[simp] theorem State.setSender_slot (s : State) (p : Option Pair) (j : Nat) :
    (s.setSender p).slot j = s.slot j := rfl
@[simp] theorem State.setSender_qp (s : State) (p : Option Pair) (j : Nat) :
    (s.setSender p).qp j = s.qp j := rfl
@[simp] theorem State.setSender_port (s : State) (p : Option Pair) (j : Nat) :
    (s.setSender p).port j = s.port j := rfl
@[simp] theorem State.setSender_now (s : State) (p : Option Pair) :
    (s.setSender p).now = s.now := rfl
@[simp] theorem State.setSender_hostUp (s : State) (p : Option Pair) (j l : Nat) :
    (s.setSender p).hostUp j l = s.hostUp j l := rfl
@[simp] theorem State.setSender_srcOwner (s : State) (p : Option Pair) (j : Nat) :
    (s.setSender p).srcOwner j = s.srcOwner j := rfl
@[simp] theorem State.setSender_coalCount (s : State) (p : Option Pair) (j : Nat) :
    (s.setSender p).coalCount j = s.coalCount j := rfl

/-! ### setReceiver -/

@[simp] theorem State.setReceiver_pending (s : State) (p : Option Pair) : (s.setReceiver p).pending = s.pending := rfl
@[simp] theorem State.setReceiver_free (s : State) (p : Option Pair) : (s.setReceiver p).free = s.free := rfl
@[simp] theorem State.setReceiver_fuse (s : State) (p : Option Pair) : (s.setReceiver p).fuse = s.fuse := rfl
@[simp] theorem State.setReceiver_bus (s : State) (p : Option Pair) : (s.setReceiver p).bus = s.bus := rfl
@[simp] theorem State.setReceiver_mem (s : State) (p : Option Pair) : (s.setReceiver p).mem = s.mem := rfl
@[simp] theorem State.setReceiver_clk (s : State) (p : Option Pair) : (s.setReceiver p).clk = s.clk := rfl
@[simp] theorem State.setReceiver_ctr (s : State) (p : Option Pair) : (s.setReceiver p).ctr = s.ctr := rfl
@[simp] theorem State.setReceiver_tel (s : State) (p : Option Pair) : (s.setReceiver p).tel = s.tel := rfl
@[simp] theorem State.setReceiver_regs (s : State) (p : Option Pair) : (s.setReceiver p).regs = s.regs := rfl
@[simp] theorem State.setReceiver_parts (s : State) (p : Option Pair) : (s.setReceiver p).parts = s.parts := rfl
@[simp] theorem State.setReceiver_fe (s : State) (p : Option Pair) : (s.setReceiver p).fe = s.fe := rfl
@[simp] theorem State.setReceiver_io (s : State) (p : Option Pair) : (s.setReceiver p).io = s.io := rfl
@[simp] theorem State.setReceiver_hp (s : State) (p : Option Pair) : (s.setReceiver p).hp = s.hp := rfl
@[simp] theorem State.setReceiver_evt (s : State) (p : Option Pair) : (s.setReceiver p).evt = s.evt := rfl
@[simp] theorem State.setReceiver_dbg (s : State) (p : Option Pair) : (s.setReceiver p).dbg = s.dbg := rfl
@[simp] theorem State.setReceiver_ream (s : State) (p : Option Pair) : (s.setReceiver p).ream = s.ream := rfl
@[simp] theorem State.setReceiver_posts (s : State) (p : Option Pair) : (s.setReceiver p).posts = s.posts := rfl
@[simp] theorem State.setReceiver_net (s : State) (p : Option Pair) : (s.setReceiver p).net = s.net := rfl
@[simp] theorem State.setReceiver_slots (s : State) (p : Option Pair) : (s.setReceiver p).slots = s.slots := rfl
@[simp] theorem State.setReceiver_tiles (s : State) (p : Option Pair) : (s.setReceiver p).tiles = s.tiles := rfl
@[simp] theorem State.setReceiver_felt (s : State) (p : Option Pair) : (s.setReceiver p).felt = s.felt := rfl
@[simp] theorem State.setReceiver_tiers (s : State) (p : Option Pair) : (s.setReceiver p).tiers = s.tiers := rfl
@[simp] theorem State.setReceiver_gat (s : State) (p : Option Pair) : (s.setReceiver p).gat = s.gat := rfl
@[simp] theorem State.setReceiver_pwr (s : State) (p : Option Pair) : (s.setReceiver p).pwr = s.pwr := rfl
@[simp] theorem State.setReceiver_mgmt (s : State) (p : Option Pair) : (s.setReceiver p).mgmt = s.mgmt := rfl
@[simp] theorem State.setReceiver_ingests (s : State) (p : Option Pair) : (s.setReceiver p).ingests = s.ingests := rfl
@[simp] theorem State.setReceiver_sec (s : State) (p : Option Pair) : (s.setReceiver p).sec = s.sec := rfl
@[simp] theorem State.setReceiver_rel_cause (s : State) (p : Option Pair) :
    (s.setReceiver p).rel.cause = s.rel.cause := rfl
@[simp] theorem State.setReceiver_rel_stuck (s : State) (p : Option Pair) :
    (s.setReceiver p).rel.stuck = s.rel.stuck := rfl
@[simp] theorem State.setReceiver_rel_seq (s : State) (p : Option Pair) :
    (s.setReceiver p).rel.seq = s.rel.seq := rfl
@[simp] theorem State.setReceiver_rel_times (s : State) (p : Option Pair) :
    (s.setReceiver p).rel.times = s.rel.times := rfl
@[simp] theorem State.setReceiver_rel_boots (s : State) (p : Option Pair) :
    (s.setReceiver p).rel.boots = s.rel.boots := rfl
@[simp] theorem State.setReceiver_rel_restoring (s : State) (p : Option Pair) :
    (s.setReceiver p).rel.restoring = s.rel.restoring := rfl
@[simp] theorem State.setReceiver_rel_suspect (s : State) (p : Option Pair) :
    (s.setReceiver p).rel.suspect = s.rel.suspect := rfl
@[simp] theorem State.setReceiver_rel_passed (s : State) (p : Option Pair) :
    (s.setReceiver p).rel.passed = s.rel.passed := rfl
@[simp] theorem State.setReceiver_rel_packId (s : State) (p : Option Pair) :
    (s.setReceiver p).rel.packId = s.rel.packId := rfl
@[simp] theorem State.setReceiver_rel_packLen (s : State) (p : Option Pair) :
    (s.setReceiver p).rel.packLen = s.rel.packLen := rfl
@[simp] theorem State.setReceiver_rel_plog (s : State) (p : Option Pair) :
    (s.setReceiver p).rel.plog = s.rel.plog := rfl
@[simp] theorem State.setReceiver_rel_plogProd (s : State) (p : Option Pair) :
    (s.setReceiver p).rel.plogProd = s.rel.plogProd := rfl
@[simp] theorem State.setReceiver_rel_vault (s : State) (p : Option Pair) :
    (s.setReceiver p).rel.vault = s.rel.vault := rfl
@[simp] theorem State.setReceiver_rel_sender (s : State) (p : Option Pair) :
    (s.setReceiver p).rel.sender = s.rel.sender := rfl
@[simp] theorem State.setReceiver_rel_commit (s : State) (p : Option Pair) :
    (s.setReceiver p).rel.commit = s.rel.commit := rfl
@[simp] theorem State.setReceiver_rel_restore (s : State) (p : Option Pair) :
    (s.setReceiver p).rel.restore = s.rel.restore := rfl
@[simp] theorem State.setReceiver_ring (s : State) (p : Option Pair) (j : Nat) :
    (s.setReceiver p).ring j = s.ring j := rfl
@[simp] theorem State.setReceiver_cmd (s : State) (p : Option Pair) (j : Nat) :
    (s.setReceiver p).cmd? j = s.cmd? j := rfl
@[simp] theorem State.setReceiver_part (s : State) (p : Option Pair) (j : Nat) :
    (s.setReceiver p).part j = s.part j := rfl
@[simp] theorem State.setReceiver_post (s : State) (p : Option Pair) (j : Nat) :
    (s.setReceiver p).post? j = s.post? j := rfl
@[simp] theorem State.setReceiver_src (s : State) (p : Option Pair) (j : Nat) :
    (s.setReceiver p).src j = s.src j := rfl
@[simp] theorem State.setReceiver_regW (s : State) (p : Option Pair) (j : Nat) :
    (s.setReceiver p).regW j = s.regW j := rfl
@[simp] theorem State.setReceiver_regF (s : State) (p : Option Pair) (j hi lo : Nat) :
    (s.setReceiver p).regF j hi lo = s.regF j hi lo := rfl
@[simp] theorem State.setReceiver_counter (s : State) (p : Option Pair) (j l : Nat) :
    (s.setReceiver p).counter j l = s.counter j l := rfl
@[simp] theorem State.setReceiver_tile (s : State) (p : Option Pair) (j : Nat) :
    (s.setReceiver p).tile j = s.tile j := rfl
@[simp] theorem State.setReceiver_slot (s : State) (p : Option Pair) (j : Nat) :
    (s.setReceiver p).slot j = s.slot j := rfl
@[simp] theorem State.setReceiver_qp (s : State) (p : Option Pair) (j : Nat) :
    (s.setReceiver p).qp j = s.qp j := rfl
@[simp] theorem State.setReceiver_port (s : State) (p : Option Pair) (j : Nat) :
    (s.setReceiver p).port j = s.port j := rfl
@[simp] theorem State.setReceiver_now (s : State) (p : Option Pair) :
    (s.setReceiver p).now = s.now := rfl
@[simp] theorem State.setReceiver_hostUp (s : State) (p : Option Pair) (j l : Nat) :
    (s.setReceiver p).hostUp j l = s.hostUp j l := rfl
@[simp] theorem State.setReceiver_srcOwner (s : State) (p : Option Pair) (j : Nat) :
    (s.setReceiver p).srcOwner j = s.srcOwner j := rfl
@[simp] theorem State.setReceiver_coalCount (s : State) (p : Option Pair) (j : Nat) :
    (s.setReceiver p).coalCount j = s.coalCount j := rfl

/-! ### Reading back -/

@[simp] theorem State.setRing_ring (s : State) (r : Nat) (v : Ring) : (s.setRing r v).ring r = v := by
  simp [State.setRing, State.ring]

theorem State.setRing_ring_ne (s : State) {r j : Nat} (v : Ring) (h : j ≠ r) : (s.setRing r v).ring j = s.ring j := by
  simp [State.setRing, State.ring, FMap.get_set_ne _ _ _ h]

@[simp] theorem State.modRing_ring (s : State) (r : Nat) (f : Ring → Ring) : (s.modRing r f).ring r = f (s.ring r) := by
  simp [State.modRing]

theorem State.modRing_ring_ne (s : State) {r j : Nat} (f : Ring → Ring) (h : j ≠ r) :
    (s.modRing r f).ring j = s.ring j := s.setRing_ring_ne _ h

@[simp] theorem State.setCmd_cmd (s : State) (k : Nat) (c : Cmd) : (s.setCmd k c).cmd? k = some c := by
  simp [State.setCmd, State.cmd?]

theorem State.setCmd_cmd_ne (s : State) {k j : Nat} (c : Cmd) (h : j ≠ k) : (s.setCmd k c).cmd? j = s.cmd? j := by
  simp [State.setCmd, State.cmd?, FMap.find_set_ne _ _ h]

theorem State.setPhase_cmd (s : State) (k : Nat) (ph : Phase) (c : Cmd) (h : s.cmd? k = some c) :
    (s.setPhase k ph).cmd? k = some { c with phase := ph, progress := s.now } := by
  simp [State.setPhase, h]

theorem State.setPhase_cmd_ne (s : State) {k j : Nat} (ph : Phase) (h : j ≠ k) :
    (s.setPhase k ph).cmd? j = s.cmd? j := by
  unfold State.setPhase
  split
  · exact s.setCmd_cmd_ne _ h
  · rfl

@[simp] theorem State.setPart_part (s : State) (p : Nat) (v : Part) : (s.setPart p v).part p = v := by
  simp [State.setPart, State.part]

theorem State.setPart_part_ne (s : State) {p j : Nat} (v : Part) (h : j ≠ p) : (s.setPart p v).part j = s.part j := by
  simp [State.setPart, State.part, FMap.get_set_ne _ _ _ h]

@[simp] theorem State.modPart_part (s : State) (p : Nat) (f : Part → Part) : (s.modPart p f).part p = f (s.part p) := by
  simp [State.modPart]

theorem State.modPart_part_ne (s : State) {p j : Nat} (f : Part → Part) (h : j ≠ p) :
    (s.modPart p f).part j = s.part j := s.setPart_part_ne _ h

@[simp] theorem State.setPost_post (s : State) (k : Nat) (v : Post) : (s.setPost k v).post? k = some v := by
  simp [State.setPost, State.post?]

theorem State.setPost_post_ne (s : State) {k j : Nat} (v : Post) (h : j ≠ k) :
    (s.setPost k v).post? j = s.post? j := by
  simp [State.setPost, State.post?, FMap.find_set_ne _ _ h]

theorem State.modPost_post (s : State) (k : Nat) (f : Post → Post) (v : Post) (h : s.post? k = some v) :
    (s.modPost k f).post? k = some (f v) := by
  simp [State.modPost, h]

theorem State.modPost_post_ne (s : State) {k j : Nat} (f : Post → Post) (h : j ≠ k) :
    (s.modPost k f).post? j = s.post? j := by
  unfold State.modPost
  split
  · exact s.setPost_post_ne _ h
  · rfl

@[simp] theorem State.setSrc_src (s : State) (i : Nat) (v : Src) : (s.setSrc i v).src i = v := by
  simp [State.setSrc, State.src]

theorem State.setSrc_src_ne (s : State) {i j : Nat} (v : Src) (h : j ≠ i) : (s.setSrc i v).src j = s.src j := by
  simp [State.setSrc, State.src, FMap.get_set_ne _ _ _ h]

@[simp] theorem State.setReg_regW (s : State) (a : Nat) (w : Word) : (s.setReg a w).regW a = w := by
  simp [State.setReg, State.regW]

theorem State.setReg_regW_ne (s : State) {a b : Nat} (w : Word) (h : b ≠ a) : (s.setReg a w).regW b = s.regW b := by
  simp [State.setReg, State.regW, FMap.get_set_ne _ _ _ h]

@[simp] theorem State.store_regW (s : State) (a : Nat) (mask v : Word) :
    (s.store a mask v).regW a = (s.regW a &&& ~~~mask) ||| (v &&& mask) := by
  simp [State.store]

theorem State.store_regW_ne (s : State) {a b : Nat} (mask v : Word) (h : b ≠ a) :
    (s.store a mask v).regW b = s.regW b := s.setReg_regW_ne _ h

@[simp] theorem State.setCtr_counter (s : State) (id inst : Nat) (v : DWord) : (s.setCtr id inst v).counter id inst = v := by
  simp [State.setCtr, State.counter]

theorem State.setCtr_counter_ne (s : State) {id inst i j : Nat} (v : DWord) (h : ctrKey i j ≠ ctrKey id inst) :
    (s.setCtr id inst v).counter i j = s.counter i j := by
  simp [State.setCtr, State.counter, FMap.get_set_ne _ _ _ h]

@[simp] theorem State.count_counter (s : State) (id inst n : Nat) :
    (s.count id inst n).counter id inst = s.counter id inst + BitVec.ofNat 64 n := by
  simp [State.count]

theorem State.count_counter_ne (s : State) {id inst i j : Nat} (n : Nat) (h : ctrKey i j ≠ ctrKey id inst) :
    (s.count id inst n).counter i j = s.counter i j := s.setCtr_counter_ne _ h

@[simp] theorem State.setTile_tile (s : State) (i : Nat) (v : Tile) : (s.setTile i v).tile i = v := by
  simp [State.setTile, State.tile]

theorem State.setTile_tile_ne (s : State) {i j : Nat} (v : Tile) (h : j ≠ i) : (s.setTile i v).tile j = s.tile j := by
  simp [State.setTile, State.tile, FMap.get_set_ne _ _ _ h]

@[simp] theorem State.modTile_tile (s : State) (i : Nat) (f : Tile → Tile) : (s.modTile i f).tile i = f (s.tile i) := by
  simp [State.modTile]

theorem State.modTile_tile_ne (s : State) {i j : Nat} (f : Tile → Tile) (h : j ≠ i) :
    (s.modTile i f).tile j = s.tile j := s.setTile_tile_ne _ h

@[simp] theorem State.setQp_qp (s : State) (q : Nat) (v : Qp) : (s.setQp q v).qp q = v := by
  simp [State.setQp, State.qp]

theorem State.setQp_qp_ne (s : State) {q j : Nat} (v : Qp) (h : j ≠ q) : (s.setQp q v).qp j = s.qp j := by
  simp [State.setQp, State.qp, FMap.get_set_ne _ _ _ h]

@[simp] theorem State.modQp_qp (s : State) (q : Nat) (f : Qp → Qp) : (s.modQp q f).qp q = f (s.qp q) := by
  simp [State.modQp]

@[simp] theorem State.setPort_port (s : State) (n : Nat) (v : Port) : (s.setPort n v).port n = v := by
  simp [State.setPort, State.port]

@[simp] theorem State.modSlot_slot (s : State) (k : Nat) (f : Slot → Slot) : (s.modSlot k f).slot k = f (s.slot k) := by
  simp [State.modSlot, State.slot]

theorem State.modSlot_slot_ne (s : State) {k j : Nat} (f : Slot → Slot) (h : j ≠ k) :
    (s.modSlot k f).slot j = s.slot j := by
  simp [State.modSlot, State.slot, FMap.get_set_ne _ _ _ h]

@[simp] theorem State.setVault_vault (s : State) (v : Vault) : (s.setVault v).rel.vault = v := rfl
@[simp] theorem State.setSender_sender (s : State) (p : Option Pair) : (s.setSender p).rel.sender = p := rfl
@[simp] theorem State.setReceiver_receiver (s : State) (p : Option Pair) : (s.setReceiver p).rel.receiver = p := rfl

end Sys2Proof.Machine
end

