-- ==== Sys2Proof/Laws/Ops.lean ====
section
/-! SUPPORT. What the shared operations do: a completion, the front end's checks, an event and a cause. -/

namespace Sys2Proof.Machine

/-! ### One part of the state that a step leaves alone -/

theorem fe_of {s t : State} (h : Same (fun f => f == .fe) s t) : t.fe = s.fe := h.fe rfl
theorem ream_of {s t : State} (h : Same (fun f => f == .ream) s t) : t.ream = s.ream := h.ream rfl
theorem rel_of {s t : State} (h : Same (fun f => f == .rel) s t) : t.rel = s.rel := h.rel rfl
theorem mem_of {s t : State} (h : Same (fun f => f == .mem) s t) : t.mem = s.mem := h.mem rfl
theorem net_of {s t : State} (h : Same (fun f => f == .net) s t) : t.net = s.net := h.net rfl
theorem io_of {s t : State} (h : Same (fun f => f == .io) s t) : t.io = s.io := h.io rfl
theorem posts_of {s t : State} (h : Same (fun f => f == .posts) s t) : t.posts = s.posts := h.posts rfl
theorem tiles_of {s t : State} (h : Same (fun f => f == .tiles) s t) : t.tiles = s.tiles := h.tiles rfl
theorem parts_of {s t : State} (h : Same (fun f => f == .parts) s t) : t.parts = s.parts := h.parts rfl
theorem ctr_of {s t : State} (h : Same (fun f => f == .ctr) s t) : t.ctr = s.ctr := h.ctr rfl
theorem regs_of {s t : State} (h : Same (fun f => f == .regs) s t) : t.regs = s.regs := h.regs rfl
theorem hp_of {s t : State} (h : Same (fun f => f == .hp) s t) : t.hp = s.hp := h.hp rfl
theorem pwr_of {s t : State} (h : Same (fun f => f == .pwr) s t) : t.pwr = s.pwr := h.pwr rfl
theorem evt_of {s t : State} (h : Same (fun f => f == .evt) s t) : t.evt = s.evt := h.evt rfl
theorem felt_of {s t : State} (h : Same (fun f => f == .felt) s t) : t.felt = s.felt := h.felt rfl
theorem gat_of {s t : State} (h : Same (fun f => f == .gat) s t) : t.gat = s.gat := h.gat rfl
theorem sec_of {s t : State} (h : Same (fun f => f == .sec) s t) : t.sec = s.sec := h.sec rfl
theorem dbg_of {s t : State} (h : Same (fun f => f == .dbg) s t) : t.dbg = s.dbg := h.dbg rfl
theorem tiers_of {s t : State} (h : Same (fun f => f == .tiers) s t) : t.tiers = s.tiers := h.tiers rfl
theorem clk_of {s t : State} (h : Same (fun f => f == .clk) s t) : t.clk = s.clk := h.clk rfl
theorem fuse_of {s t : State} (h : Same (fun f => f == .fuse) s t) : t.fuse = s.fuse := h.fuse rfl
theorem bus_of {s t : State} (h : Same (fun f => f == .bus) s t) : t.bus = s.bus := h.bus rfl
theorem slots_of {s t : State} (h : Same (fun f => f == .slots) s t) : t.slots = s.slots := h.slots rfl
theorem tel_of {s t : State} (h : Same (fun f => f == .tel) s t) : t.tel = s.tel := h.tel rfl
theorem mgmt_of {s t : State} (h : Same (fun f => f == .mgmt) s t) : t.mgmt = s.mgmt := h.mgmt rfl

/-! ### Completions -/

theorem cmdKey_inj {r q r' q' : Nat} (hq : q < 2 ^ 32) (hq' : q' < 2 ^ 32) :
    cmdKey r q = cmdKey r' q' ↔ r = r' ∧ q = q' := by
  unfold cmdKey
  constructor
  · intro h; omega
  · rintro ⟨rfl, rfl⟩; rfl

/-- `completed` looks only at what names the command. -/
theorem State.completed_congr {t : State} {c d : Cmd} {st r f : Nat} (hr : d.ring = c.ring) (hs : d.seq = c.seq)
    (he : d.epoch = c.epoch) (hd : d.desc = c.desc) : t.completed d st r f ↔ t.completed c st r f := by
  unfold State.completed recordOf State.degradedFlag State.corrFlag
  rw [hr, hs, he, hd]

/-- `completed` reads the front end, whether the ream is degraded, and the pairings with the feed identity. -/
theorem State.completed_fe {t t' : State} {c : Cmd} {st r f : Nat} (h : t'.fe = t.fe) (hr : t'.ream = t.ream)
    (hl : t'.rel = t.rel) (hf : t'.fuse = t.fuse) (k : t.completed c st r f) : t'.completed c st r f := by
  unfold State.completed State.cmd? State.ring State.degradedFlag State.corrFlag State.correlated at *
  rwa [h, hr, hl, hf]

theorem State.finish_none {s : State} {k st r f : Nat} (h : s.cmd? k = none) : s.finish k st r f = s := by
  unfold State.finish
  rw [h]

/-- A command that is in the block completes. -/
theorem State.finish_completed {s : State} {k : Nat} {c : Cmd} (st r f : Nat) (h : s.cmd? k = some c)
    (hk : cmdKey c.ring c.seq = k) : (s.finish k st r f).completed c st r f := by
  subst hk
  unfold State.finish State.completed
  rw [h]
  constructor
  · simp [State.cmd?, State.modRing, State.setRing]
  · simp [State.degradedFlag, State.corrFlag, State.correlated, State.freeTaskOf]

theorem State.finish_cmd_ne {s : State} {k j : Nat} (st r f : Nat) (h : j ≠ k) :
    (s.finish k st r f).cmd? j = s.cmd? j := by
  unfold State.finish
  split
  · rfl
  · simp [State.modRing, State.setRing, State.cmd?, State.freeTaskOf, FMap.find_del_ne _ h]

/-- A completion leaves what the rings hold beside log and held command. -/
theorem State.finish_ring {s : State} {k : Nat} (st r f n : Nat) :
    ∃ l h, (s.finish k st r f).ring n = { s.ring n with log := l, held := h } := by
  unfold State.finish
  split
  · exact ⟨_, _, rfl⟩
  · rename_i c _
    by_cases e : n = c.ring
    · subst e
      exact ⟨_, _, by rw [State.modRing_ring]; rfl⟩
    · exact ⟨_, _, by rw [State.modRing_ring_ne _ _ e]; rfl⟩

theorem State.finish_same' {m : Field → Bool} (s : State) (k st r f : Nat) (h : m .fe = false) :
    Same m s (s.finish k st r f) := State.finish_same (Same.refl _ _) _ _ _ _ h

/-! ### What a completion leaves alone -/

@[simp] theorem State.finish_pending (s : State) (k st r f : Nat) : (s.finish k st r f).pending = s.pending := by
  unfold State.finish; split <;> simp [State.freeTaskOf]
@[simp] theorem State.finishIdle_pending (s : State) (k st : Nat) : (s.finishIdle k st).pending = s.pending := by
  unfold State.finishIdle; split <;> simp
@[simp] theorem State.finish_free (s : State) (k st r f : Nat) : (s.finish k st r f).free = s.free := by
  unfold State.finish; split <;> simp [State.freeTaskOf]
@[simp] theorem State.finishIdle_free (s : State) (k st : Nat) : (s.finishIdle k st).free = s.free := by
  unfold State.finishIdle; split <;> simp
@[simp] theorem State.finish_fuse (s : State) (k st r f : Nat) : (s.finish k st r f).fuse = s.fuse := by
  unfold State.finish; split <;> simp [State.freeTaskOf]
@[simp] theorem State.finishIdle_fuse (s : State) (k st : Nat) : (s.finishIdle k st).fuse = s.fuse := by
  unfold State.finishIdle; split <;> simp
@[simp] theorem State.finish_bus (s : State) (k st r f : Nat) : (s.finish k st r f).bus = s.bus := by
  unfold State.finish; split <;> simp [State.freeTaskOf]
@[simp] theorem State.finishIdle_bus (s : State) (k st : Nat) : (s.finishIdle k st).bus = s.bus := by
  unfold State.finishIdle; split <;> simp
@[simp] theorem State.finish_mem (s : State) (k st r f : Nat) : (s.finish k st r f).mem = s.mem := by
  unfold State.finish; split <;> simp [State.freeTaskOf]
@[simp] theorem State.finishIdle_mem (s : State) (k st : Nat) : (s.finishIdle k st).mem = s.mem := by
  unfold State.finishIdle; split <;> simp
@[simp] theorem State.finish_clk (s : State) (k st r f : Nat) : (s.finish k st r f).clk = s.clk := by
  unfold State.finish; split <;> simp [State.freeTaskOf]
@[simp] theorem State.finishIdle_clk (s : State) (k st : Nat) : (s.finishIdle k st).clk = s.clk := by
  unfold State.finishIdle; split <;> simp
@[simp] theorem State.finish_ctr (s : State) (k st r f : Nat) : (s.finish k st r f).ctr = s.ctr := by
  unfold State.finish; split <;> simp [State.freeTaskOf]
@[simp] theorem State.finishIdle_ctr (s : State) (k st : Nat) : (s.finishIdle k st).ctr = s.ctr := by
  unfold State.finishIdle; split <;> simp
@[simp] theorem State.finish_tel (s : State) (k st r f : Nat) : (s.finish k st r f).tel = s.tel := by
  unfold State.finish; split <;> simp [State.freeTaskOf]
@[simp] theorem State.finishIdle_tel (s : State) (k st : Nat) : (s.finishIdle k st).tel = s.tel := by
  unfold State.finishIdle; split <;> simp
@[simp] theorem State.finish_regs (s : State) (k st r f : Nat) : (s.finish k st r f).regs = s.regs := by
  unfold State.finish; split <;> simp [State.freeTaskOf]
@[simp] theorem State.finishIdle_regs (s : State) (k st : Nat) : (s.finishIdle k st).regs = s.regs := by
  unfold State.finishIdle; split <;> simp
@[simp] theorem State.finish_parts (s : State) (k st r f : Nat) : (s.finish k st r f).parts = s.parts := by
  unfold State.finish; split <;> simp [State.freeTaskOf]
@[simp] theorem State.finishIdle_parts (s : State) (k st : Nat) : (s.finishIdle k st).parts = s.parts := by
  unfold State.finishIdle; split <;> simp
@[simp] theorem State.finish_io (s : State) (k st r f : Nat) : (s.finish k st r f).io = s.io := by
  unfold State.finish; split <;> simp [State.freeTaskOf]
@[simp] theorem State.finishIdle_io (s : State) (k st : Nat) : (s.finishIdle k st).io = s.io := by
  unfold State.finishIdle; split <;> simp
@[simp] theorem State.finish_hp (s : State) (k st r f : Nat) : (s.finish k st r f).hp = s.hp := by
  unfold State.finish; split <;> simp [State.freeTaskOf]
@[simp] theorem State.finishIdle_hp (s : State) (k st : Nat) : (s.finishIdle k st).hp = s.hp := by
  unfold State.finishIdle; split <;> simp
@[simp] theorem State.finish_evt (s : State) (k st r f : Nat) : (s.finish k st r f).evt = s.evt := by
  unfold State.finish; split <;> simp [State.freeTaskOf]
@[simp] theorem State.finishIdle_evt (s : State) (k st : Nat) : (s.finishIdle k st).evt = s.evt := by
  unfold State.finishIdle; split <;> simp
@[simp] theorem State.finish_dbg (s : State) (k st r f : Nat) : (s.finish k st r f).dbg = s.dbg := by
  unfold State.finish; split <;> simp [State.freeTaskOf]
@[simp] theorem State.finishIdle_dbg (s : State) (k st : Nat) : (s.finishIdle k st).dbg = s.dbg := by
  unfold State.finishIdle; split <;> simp
@[simp] theorem State.finish_ream (s : State) (k st r f : Nat) : (s.finish k st r f).ream = s.ream := by
  unfold State.finish; split <;> simp [State.freeTaskOf]
@[simp] theorem State.finishIdle_ream (s : State) (k st : Nat) : (s.finishIdle k st).ream = s.ream := by
  unfold State.finishIdle; split <;> simp
@[simp] theorem State.finish_posts (s : State) (k st r f : Nat) : (s.finish k st r f).posts = s.posts := by
  unfold State.finish; split <;> simp [State.freeTaskOf]
@[simp] theorem State.finishIdle_posts (s : State) (k st : Nat) : (s.finishIdle k st).posts = s.posts := by
  unfold State.finishIdle; split <;> simp
@[simp] theorem State.finish_net (s : State) (k st r f : Nat) : (s.finish k st r f).net = s.net := by
  unfold State.finish; split <;> simp [State.freeTaskOf]
@[simp] theorem State.finishIdle_net (s : State) (k st : Nat) : (s.finishIdle k st).net = s.net := by
  unfold State.finishIdle; split <;> simp
@[simp] theorem State.finish_slots (s : State) (k st r f : Nat) : (s.finish k st r f).slots = s.slots := by
  unfold State.finish; split <;> simp [State.freeTaskOf]
@[simp] theorem State.finishIdle_slots (s : State) (k st : Nat) : (s.finishIdle k st).slots = s.slots := by
  unfold State.finishIdle; split <;> simp
@[simp] theorem State.finish_tiles (s : State) (k st r f : Nat) : (s.finish k st r f).tiles = s.tiles := by
  unfold State.finish; split <;> simp [State.freeTaskOf]
@[simp] theorem State.finishIdle_tiles (s : State) (k st : Nat) : (s.finishIdle k st).tiles = s.tiles := by
  unfold State.finishIdle; split <;> simp
@[simp] theorem State.finish_felt (s : State) (k st r f : Nat) : (s.finish k st r f).felt = s.felt := by
  unfold State.finish; split <;> simp [State.freeTaskOf]
@[simp] theorem State.finishIdle_felt (s : State) (k st : Nat) : (s.finishIdle k st).felt = s.felt := by
  unfold State.finishIdle; split <;> simp
@[simp] theorem State.finish_tiers (s : State) (k st r f : Nat) : (s.finish k st r f).tiers = s.tiers := by
  unfold State.finish; split <;> simp [State.freeTaskOf]
@[simp] theorem State.finishIdle_tiers (s : State) (k st : Nat) : (s.finishIdle k st).tiers = s.tiers := by
  unfold State.finishIdle; split <;> simp
@[simp] theorem State.finish_gat (s : State) (k st r f : Nat) : (s.finish k st r f).gat = s.gat := by
  unfold State.finish; split <;> simp [State.freeTaskOf]
@[simp] theorem State.finishIdle_gat (s : State) (k st : Nat) : (s.finishIdle k st).gat = s.gat := by
  unfold State.finishIdle; split <;> simp
@[simp] theorem State.finish_pwr (s : State) (k st r f : Nat) : (s.finish k st r f).pwr = s.pwr := by
  unfold State.finish; split <;> simp [State.freeTaskOf]
@[simp] theorem State.finishIdle_pwr (s : State) (k st : Nat) : (s.finishIdle k st).pwr = s.pwr := by
  unfold State.finishIdle; split <;> simp
@[simp] theorem State.finish_mgmt (s : State) (k st r f : Nat) : (s.finish k st r f).mgmt = s.mgmt := by
  unfold State.finish; split <;> simp [State.freeTaskOf]
@[simp] theorem State.finishIdle_mgmt (s : State) (k st : Nat) : (s.finishIdle k st).mgmt = s.mgmt := by
  unfold State.finishIdle; split <;> simp
@[simp] theorem State.finish_rel (s : State) (k st r f : Nat) : (s.finish k st r f).rel = s.rel := by
  unfold State.finish; split <;> simp [State.freeTaskOf]
@[simp] theorem State.finishIdle_rel (s : State) (k st : Nat) : (s.finishIdle k st).rel = s.rel := by
  unfold State.finishIdle; split <;> simp
@[simp] theorem State.finish_ingests (s : State) (k st r f : Nat) : (s.finish k st r f).ingests = s.ingests := by
  unfold State.finish; split <;> simp [State.freeTaskOf]
@[simp] theorem State.finishIdle_ingests (s : State) (k st : Nat) : (s.finishIdle k st).ingests = s.ingests := by
  unfold State.finishIdle; split <;> simp
@[simp] theorem State.finish_sec (s : State) (k st r f : Nat) : (s.finish k st r f).sec = s.sec := by
  unfold State.finish; split <;> simp [State.freeTaskOf]
@[simp] theorem State.finishIdle_sec (s : State) (k st : Nat) : (s.finishIdle k st).sec = s.sec := by
  unfold State.finishIdle; split <;> simp
@[simp] theorem State.finish_part' (s : State) (k st r f j : Nat) : (s.finish k st r f).part j = s.part j := by
  simp [State.part]
@[simp] theorem State.finishIdle_part' (s : State) (k st j : Nat) : (s.finishIdle k st).part j = s.part j := by
  simp [State.part]
@[simp] theorem State.finish_post' (s : State) (k st r f j : Nat) : (s.finish k st r f).post? j = s.post? j := by
  simp [State.post?]
@[simp] theorem State.finishIdle_post' (s : State) (k st j : Nat) : (s.finishIdle k st).post? j = s.post? j := by
  simp [State.post?]
@[simp] theorem State.finish_src' (s : State) (k st r f j : Nat) : (s.finish k st r f).src j = s.src j := by
  simp [State.src]
@[simp] theorem State.finishIdle_src' (s : State) (k st j : Nat) : (s.finishIdle k st).src j = s.src j := by
  simp [State.src]
@[simp] theorem State.finish_regW' (s : State) (k st r f j : Nat) : (s.finish k st r f).regW j = s.regW j := by
  simp [State.regW]
@[simp] theorem State.finishIdle_regW' (s : State) (k st j : Nat) : (s.finishIdle k st).regW j = s.regW j := by
  simp [State.regW]
@[simp] theorem State.finish_tile' (s : State) (k st r f j : Nat) : (s.finish k st r f).tile j = s.tile j := by
  simp [State.tile]
@[simp] theorem State.finishIdle_tile' (s : State) (k st j : Nat) : (s.finishIdle k st).tile j = s.tile j := by
  simp [State.tile]
@[simp] theorem State.finish_slot' (s : State) (k st r f j : Nat) : (s.finish k st r f).slot j = s.slot j := by
  simp [State.slot]
@[simp] theorem State.finishIdle_slot' (s : State) (k st j : Nat) : (s.finishIdle k st).slot j = s.slot j := by
  simp [State.slot]
@[simp] theorem State.finish_qp' (s : State) (k st r f j : Nat) : (s.finish k st r f).qp j = s.qp j := by
  simp [State.qp]
@[simp] theorem State.finishIdle_qp' (s : State) (k st j : Nat) : (s.finishIdle k st).qp j = s.qp j := by
  simp [State.qp]
@[simp] theorem State.finish_port' (s : State) (k st r f j : Nat) : (s.finish k st r f).port j = s.port j := by
  simp [State.port]
@[simp] theorem State.finishIdle_port' (s : State) (k st j : Nat) : (s.finishIdle k st).port j = s.port j := by
  simp [State.port]
@[simp] theorem State.finish_counter (s : State) (k st r f i j : Nat) : (s.finish k st r f).counter i j = s.counter i j := by
  simp [State.counter]

/-! ### The front end's checks (R231) -/

theorem State.each_inv {α β : Type} (g : State → β) (l : List α) (f : State → α → State)
    (h : ∀ s a, g (f s a) = g s) (s : State) : g (s.each l f) = g s := by
  unfold State.each
  induction l generalizing s with
  | nil => rfl
  | cons a l ih => rw [List.foldl_cons, ih, h]

/-- A page that is used moves in its set of the page cache alone. -/
theorem State.pageUse_eq (s : State) (n : Nat) :
    s.pageUse n = { s with fe := { s.fe with pageCache := (s.pageUse n).fe.pageCache } } := by
  unfold State.pageUse; rfl

/-- What translating a command that passes changes: its segments are noted, it waits no more, and its pages are used. -/
theorem State.translate_ok {s u : State} {k : Nat} {c : Cmd} {rs : List Range} (h : s.translate k c rs = (true, u)) :
    u = State.each { s.setCmd k { c with segs := rs.map (·.seg) } with
      fe := { (s.setCmd k { c with segs := rs.map (·.seg) }).fe with walks := s.fe.walks.filter (· != k) } }
      (s.pageTokens c.part rs) State.pageUse := by
  unfold State.translate at h
  dsimp only at h
  repeat' split at h
  all_goals first
    | (exact absurd (show false = true from congrArg Prod.fst h) Bool.false_ne_true)
    | (exact (congrArg Prod.snd h).symm)

theorem State.passes.front {s u : State} {ring seq op : Nat} {c : Cmd} (h : s.passes ring seq op c u)
    (go : State → Cmd → State) : s.front (cmdKey ring seq) op go = go u c := by
  obtain ⟨h1, _, _, h4, h4', h5, h6, h7, h8⟩ := h
  unfold State.front State.fresh?
  simp [h1, h4, h4', h5, h6, h7, h8]

theorem State.passes.cmd {s u : State} {ring seq op : Nat} {c : Cmd} (h : s.passes ring seq op c u) :
    ∃ l, u.cmd? (cmdKey ring seq) = some { c with segs := l } := by
  obtain ⟨_, _, _, _, _, _, _, h7, _⟩ := h
  refine ⟨(s.cmdRanges c).map (·.seg), ?_⟩
  rw [State.translate_ok h7]
  rw [State.each_inv (fun t => t.cmd? (cmdKey ring seq)) _ _ (fun t n => by rw [State.pageUse_eq]; rfl)]
  simp [State.cmd?, State.setCmd]

/-- A command that has passed its checks completes. -/
theorem State.passes.done {s u : State} {ring seq op : Nat} {c : Cmd} (h : s.passes ring seq op c u) {t : State}
    (ht : t.fe.cmds = u.fe.cmds) (st r f : Nat) : (t.finish (cmdKey ring seq) st r f).completed c st r f := by
  obtain ⟨l, hl⟩ := h.cmd
  have ht' : t.cmd? (cmdKey ring seq) = some { c with segs := l } := by
    unfold State.cmd? at *
    rw [ht, hl]
  have := State.finish_completed st r f ht' (by obtain ⟨_, rfl, rfl, _⟩ := h; rfl)
  exact (State.completed_congr (c := c) (d := { c with segs := l }) rfl rfl rfl rfl).1 this

/-! ### Events and causes -/

theorem State.delivered_coreCause (s : State) (i : Nat) (b : Bool) :
    (s.delivered i b).evt.coreCause = s.evt.coreCause := by simp [State.delivered]

theorem State.readPrio_coreCause (s : State) (p : Nat) (l : List Nat) :
    (s.readPrio p l).evt.coreCause = s.evt.coreCause := by
  unfold State.readPrio
  apply State.each_inv (fun s => s.evt.coreCause)
  intro s a
  split
  · rfl
  · simp [State.freeVals]

theorem State.sendMsix_coreCause (s : State) (p v : Nat) : (s.sendMsix p v).evt.coreCause = s.evt.coreCause := by
  simp [State.sendMsix]

theorem State.deliverLocal_coreCause (s : State) (i p : Nat) :
    (s.deliverLocal i p).evt.coreCause = s.evt.coreCause := by
  unfold State.deliverLocal
  dsimp only
  repeat' split
  all_goals simp [State.delivered_coreCause, State.sendMsix_coreCause, State.readPrio_coreCause]

theorem State.deliver_coreCause (s : State) (i : Nat) : (s.deliver i).evt.coreCause = s.evt.coreCause := by
  unfold State.deliver
  dsimp only
  repeat' split
  all_goals simp [State.deliverCore, State.deliverRemote, State.deliverLocal_coreCause, State.delivered_coreCause,
    State.freeVals]
  split <;> simp

/-- An event leaves the causes received alone. -/
theorem State.joinEvent_coreCause (s : State) (i : Nat) : (s.joinEvent i).evt.coreCause = s.evt.coreCause := by
  unfold State.joinEvent
  dsimp only
  repeat' split
  all_goals simp

theorem State.raise_coreCause (s : State) (i : Nat) : (s.raise i).evt.coreCause = s.evt.coreCause := by
  unfold State.raise State.deliverIfFull
  dsimp only
  repeat' split
  all_goals simp [State.deliver_coreCause, State.joinEvent_coreCause]

theorem State.coreCause_hasCause (s : State) (b : Nat) : (s.coreCause b).hasCause b := by
  simp [State.coreCause, State.hasCause, State.raise_coreCause]

theorem State.causeAll_hasCause (s : State) (b : Nat) : (s.causeAll b).hasCause b := State.coreCause_hasCause _ b
theorem State.causeTo_hasCause (s : State) (p b : Nat) : (s.causeTo p b).hasCause b := State.coreCause_hasCause _ b

/-! ### Rings, and the counters an event leaves alone -/

theorem State.writeHost_fe (s : State) (u : Use) (p qp rk a : Nat) (d : Bytes) (po : List Nat) : (s.writeHost u p qp rk a d po).fe = s.fe := by
  have h := State.writeHost_same (msk := fun f => f == .fe) (Same.refl _ s) u p qp rk a d po rfl rfl rfl
  exact h.fe rfl
theorem State.writeStateLine_fe (s : State) (n : Nat) (u : Use) (st : Nat) : (s.writeStateLine n u st).fe = s.fe := by
  unfold State.writeStateLine; exact State.writeHost_fe _ _ _ _ _ _ _ _
theorem State.writeStateLine_regs (s : State) (n : Nat) (u : Use) (st : Nat) : (s.writeStateLine n u st).regs = s.regs :=
  (State.writeStateLine_same (msk := fun f => f == .regs) (Same.refl _ s) n u st rfl rfl rfl).regs rfl
theorem State.arm_ring (s : State) (n : Nat) : (s.arm n).ring n = { s.ring n with st := 1, armPending := true, reading := 0, rereads := 0, rereadWait := false } := by
  unfold State.arm; rw [State.modRing_ring]
  simp [State.ring, State.writeStateLine_fe]
theorem State.arm_ring_ne (s : State) {n j : Nat} (h : j ≠ n) : (s.arm n).ring j = s.ring j := by
  unfold State.arm; rw [State.modRing_ring_ne _ _ h]
  simp [State.ring, State.writeStateLine_fe]
theorem store_bit1 (w : Word) : bitsOf ((w &&& ~~~(1#32)) ||| (1#32 &&& 1#32)).toNat 0 0 = 1 := by
  simp [bitsOf]
theorem store_bit0 (w : Word) : bitsOf ((w &&& ~~~(1#32)) ||| (0#32 &&& 1#32)).toNat 0 0 = 0 := by
  have := Nat.and_mod_two_pow (a := w.toNat) (b := 4294967294) (n := 1)
  simp [bitsOf] at this ⊢
  exact this
theorem State.store_regF1 (s : State) (a : Nat) : (s.store a 1 1).regF a 0 0 = 1 := by
  unfold State.regF; rw [State.store_regW]; exact store_bit1 _
theorem State.store_regF0 (s : State) (a : Nat) : (s.store a 1 0).regF a 0 0 = 0 := by
  unfold State.regF; rw [State.store_regW]; exact store_bit0 _

theorem State.acceptMarks_ring (s : State) (k n : Nat) : (s.acceptMarks k).ring n = s.ring n := by
  unfold State.acceptMarks
  repeat' split
  all_goals rfl

theorem State.acceptDesc_ring (s : State) (n : Nat) (d : Bytes) (h : (opInfo (fld d 6 1)).isSome = true) :
  (s.acceptDesc n d).ring n = { s.ring n with sqCons := ((s.ring n).sqCons + 1) % 2 ^ 32, rereads := 0 } := by
  unfold State.acceptDesc
  obtain ⟨x, hx⟩ := Option.isSome_iff_exists.1 h
  have e : ∀ k, (s.dropOper k).ring n = s.ring n := fun _ => rfl
  simp [hx, State.acceptMarks_ring, e]

theorem ite_all {α β : Type} (f : α → β) {c : Prop} [Decidable c] {a b : α} {x : β} (ha : f a = x) (hb : f b = x) : f (if c then a else b) = x := by split <;> assumption
theorem State.deliver_ctr (s : State) (i id inst : Nat) (h : ctrKey id inst < 0xA0 * 4096) : (s.deliver i).counter id inst = s.counter id inst := by
  have hk : ∀ j p, 0xA0 ≤ j → ctrKey id inst ≠ ctrKey j p := by
    intro j p hj e; rw [e] at h; unfold ctrKey at h; omega
  have hc : ∀ j, 0xA0 ≤ j → ∀ (t : State) p n, (t.count j p n).counter id inst = t.counter id inst := fun j hj t p n => State.count_counter_ne _ _ (hk j p hj)
  have h0 := hc 160 (by decide)
  have h2 := hc 162 (by decide)
  have h3 := hc 163 (by decide)
  have hp : ∀ (t : State) p l, (t.readPrio p l).counter id inst = t.counter id inst := by
    intro t p l
    unfold State.readPrio
    apply State.each_inv (fun s => s.counter id inst)
    intro s a
    split
    · rfl
    · simp [State.freeVals, State.counter]
  have hd : ∀ (t : State) i b, (t.delivered i b).counter id inst = t.counter id inst := by
    intro t i b; simp [State.delivered]
  have hs : ∀ (t : State) p v, (t.sendMsix p v).counter id inst = t.counter id inst := by
    intro t p v; simp [State.sendMsix, h0]; rfl
  have hev : ∀ (t : State) e, ({ t with evt := e } : State).counter id inst = t.counter id inst := fun _ _ => rfl
  have hhp : ∀ (t : State) e, ({ t with hp := e } : State).counter id inst = t.counter id inst := fun _ _ => rfl
  have hl : (s.deliverLocal i (s.srcOwner i)).counter id inst = s.counter id inst := by
    unfold State.deliverLocal
    dsimp only
    split
    · rw [h3]; simp
    · refine ite_all (fun t : State => t.counter id inst) ?_ ?_
      · refine (hd _ _ _).trans ((hs _ _ _).trans ?_)
        split
        · exact hp _ _ _
        · exact (h2 _ _ _).trans (hp _ _ _)
      · refine (hd _ _ _).trans ((hhp _ _).trans ?_)
        split
        · exact hp _ _ _
        · exact (h2 _ _ _).trans (hp _ _ _)
  unfold State.deliver
  dsimp only
  split
  · unfold State.deliverCore
    dsimp only
    rw [hd, hev]
    split
    · rfl
    · exact h2 _ _ _
  · split
    · split
      · split
        · simp [State.deliverRemote, h0]
        · exact hl
      · rfl
    · rfl

theorem State.joinEvent_ctr (s : State) (i id inst : Nat) : (s.joinEvent i).counter id inst = s.counter id inst := by
  unfold State.joinEvent
  dsimp only
  repeat' split
  all_goals rfl

theorem State.raise_ctr (s : State) (i id inst : Nat) (h : ctrKey id inst < 0xA0 * 4096) : (s.raise i).counter id inst = s.counter id inst := by
  unfold State.raise State.deliverIfFull
  dsimp only
  repeat' split
  all_goals simp [State.deliver_ctr _ _ _ _ h, State.joinEvent_ctr]
theorem State.partCause_ctr (s : State) (p b id inst : Nat) (h : ctrKey id inst < 0xA0 * 4096) : (s.partCause p b).counter id inst = s.counter id inst := by
  unfold State.partCause
  dsimp only
  split
  · rw [State.raise_ctr _ _ _ _ h]; simp
  · simp
theorem State.coreCause_ctr (s : State) (b id inst : Nat) (h : ctrKey id inst < 0xA0 * 4096) : (s.coreCause b).counter id inst = s.counter id inst := by
  unfold State.coreCause
  rw [State.raise_ctr _ _ _ _ h]; rfl
theorem State.causeTo_ctr (s : State) (p b id inst : Nat) (h : ctrKey id inst < 0xA0 * 4096) : (s.causeTo p b).counter id inst = s.counter id inst := by
  unfold State.causeTo
  rw [State.coreCause_ctr _ _ _ _ h, State.partCause_ctr _ _ _ _ _ h]
theorem State.causeAll_ctr (s : State) (b id inst : Nat) (h : ctrKey id inst < 0xA0 * 4096) : (s.causeAll b).counter id inst = s.counter id inst := by
  unfold State.causeAll
  rw [State.coreCause_ctr _ _ _ _ h]
  apply State.each_inv (fun s => s.counter id inst)
  intro t a
  dsimp only
  split
  · exact State.partCause_ctr _ _ _ _ _ h
  · rfl
theorem State.causeTo_fe (s : State) (p b : Nat) : (s.causeTo p b).fe = s.fe :=
  (State.causeTo_same (msk := fun f => f == .fe) (Same.refl _ s) p b rfl rfl rfl rfl rfl rfl).fe rfl

/-- What an event changes of a partition. -/
def Part.like (q q' : Part) : Prop :=
  ∃ a b c d e f, q' = { q with cause := a, causeSent := b, msgSeq := c, prioHeld := d, prioWords := e, pseq := f }
theorem Part.like.refl (q : Part) : q.like q := ⟨_, _, _, _, _, _, rfl⟩
theorem Part.like.trans {a b c : Part} (h : a.like b) (k : b.like c) : a.like c := by
  obtain ⟨_, _, _, _, _, _, rfl⟩ := h
  obtain ⟨_, _, _, _, _, _, rfl⟩ := k
  exact ⟨_, _, _, _, _, _, rfl⟩
structure PartsLike (s t : State) : Prop where
  like : ∀ j, (s.part j).like (t.part j)
theorem PartsLike.of_parts {s t u : State} (h : u.parts = t.parts) (k : PartsLike s t) : PartsLike s u := by
  refine ⟨fun j => ?_⟩; have := k.like j; unfold State.part at *; rw [h]; exact this
theorem PartsLike.modPart {s t : State} (k : PartsLike s t) (p : Nat) (f : Part → Part) (hf : ∀ q : Part, q.like (f q)) : PartsLike s (t.modPart p f) := by
  refine ⟨fun j => ?_⟩
  by_cases e : j = p
  · subst e; rw [State.modPart_part]; exact (k.like j).trans (hf _)
  · rw [State.modPart_part_ne _ _ e]; exact k.like j
theorem PartsLike.refl (s : State) : PartsLike s s := ⟨fun _ => Part.like.refl _⟩
theorem PartsLike.readPrio {s t : State} (k : PartsLike s t) (p : Nat) (l : List Nat) : PartsLike s (t.readPrio p l) := by
  unfold State.readPrio State.each
  induction l generalizing t with
  | nil => exact k
  | cons a l ih =>
    refine ih ?_
    dsimp only
    split
    · exact k
    · exact PartsLike.modPart (PartsLike.of_parts (t := t) (by rfl) k) _ _ (fun q => ⟨_, _, _, _, _, _, by rfl⟩)
theorem PartsLike.delivered {s t : State} (k : PartsLike s t) (i : Nat) (b : Bool) : PartsLike s (t.delivered i b) := PartsLike.of_parts (t := t) rfl k
theorem PartsLike.deliver {s t : State} (k : PartsLike s t) (i : Nat) : PartsLike s (t.deliver i) := by
  unfold State.deliver
  dsimp only
  split
  · unfold State.deliverCore
    dsimp only
    refine PartsLike.delivered ?_ _ _
    split <;> exact PartsLike.of_parts (t := t) rfl k
  · split
    · split
      · split
        · unfold State.deliverRemote
          dsimp only
          refine ⟨fun j => ?_⟩
          rw [State.count_part, State.setSrc_part]
          by_cases e : j = t.srcOwner i
          · subst e; rw [State.modPart_part]; exact (k.like _).trans ⟨_, _, _, _, _, _, rfl⟩
          · rw [State.modPart_part_ne _ _ e]; exact k.like j
        · unfold State.deliverLocal; dsimp only
          split
          · exact PartsLike.of_parts (t := t) rfl k
          · refine iteInduction (fun _ => ?_) (fun _ => ?_)
            · refine PartsLike.delivered ?_ _ _
              refine PartsLike.of_parts (t := Prod.snd _) (by rfl) ?_
              split <;> exact PartsLike.of_parts (t := t.readPrio _ _) (by rfl) (k.readPrio _ _)
            · refine PartsLike.delivered ?_ _ _
              refine PartsLike.of_parts (t := Prod.snd _) (by rfl) ?_
              split <;> exact PartsLike.of_parts (t := t.readPrio _ _) (by rfl) (k.readPrio _ _)
      · exact k
    · exact k
theorem PartsLike.joinEvent {s t : State} (k : PartsLike s t) (i : Nat) : PartsLike s (t.joinEvent i) := by
  unfold State.joinEvent
  refine iteInduction (fun _ => PartsLike.of_parts (t := t) rfl k) (fun _ => ?_)
  split
  · exact k
  · refine PartsLike.of_parts (State.setSrc_parts _ _ _) ?_
    refine PartsLike.modPart ?_ _ _ (fun q => ⟨_, _, _, _, _, _, rfl⟩)
    exact PartsLike.of_parts (t := t) rfl k

theorem PartsLike.raise {s t : State} (k : PartsLike s t) (i : Nat) : PartsLike s (t.raise i) := by
  unfold State.raise State.deliverIfFull
  dsimp only
  repeat' split
  all_goals first | exact k | exact k.joinEvent i | (refine PartsLike.deliver ?_ _; exact PartsLike.of_parts (t := t) rfl k) | exact PartsLike.of_parts (t := t) rfl k
theorem PartsLike.coreCause {s t : State} (k : PartsLike s t) (b : Nat) : PartsLike s (t.coreCause b) :=
  PartsLike.raise (PartsLike.of_parts (t := t) (by rfl) k) _
theorem PartsLike.partCause {s t : State} (k : PartsLike s t) (p b : Nat) : PartsLike s (t.partCause p b) := by
  unfold State.partCause
  dsimp only
  split
  · exact (k.modPart _ _ (fun q => ⟨_, _, _, _, _, _, rfl⟩)).raise _
  · exact k.modPart _ _ (fun q => ⟨_, _, _, _, _, _, rfl⟩)
theorem PartsLike.causeTo {s t : State} (k : PartsLike s t) (p b : Nat) : PartsLike s (t.causeTo p b) := (k.partCause p b).coreCause b
theorem PartsLike.causeAll {s t : State} (k : PartsLike s t) (b : Nat) : PartsLike s (t.causeAll b) := by
  unfold State.causeAll State.each
  refine PartsLike.coreCause ?_ b
  generalize List.range 16 = l
  induction l generalizing t with
  | nil => exact k
  | cons a l ih =>
    refine ih ?_
    dsimp only
    split
    · exact k.partCause _ _
    · exact k

theorem Part.like.st {q q' : Part} (h : q.like q') : q'.st = q.st := by obtain ⟨_, _, _, _, _, _, rfl⟩ := h; rfl
theorem PartsLike.trans {s t u : State} (h : PartsLike s t) (k : PartsLike t u) : PartsLike s u := ⟨fun j => (h.like j).trans (k.like j)⟩
theorem PartsLike.each {s t : State} {α : Type} (k : PartsLike s t) (l : List α) (f : State → α → State) (h : ∀ t a, PartsLike t (f t a)) : PartsLike s (t.each l f) := by
  unfold State.each
  induction l generalizing t with
  | nil => exact k
  | cons a l ih => exact ih (k.trans (h _ _))
theorem PartsLike.finish {s t : State} (h : PartsLike s t) (k st r f : Nat) : PartsLike s (t.finish k st r f) :=
  PartsLike.of_parts (t := t) ((State.finish_same (msk := fun f => f == .parts) (Same.refl _ t) k st r f rfl).parts rfl) h
theorem PartsLike.finishIdle {s t : State} (h : PartsLike s t) (k st : Nat) : PartsLike s (t.finishIdle k st) := by
  unfold State.finishIdle; split
  · exact h
  · exact h.finish _ _ _ _
theorem PartsLike.writeT1_nil {s t : State} (h : PartsLike s t) (a : Nat) (b : Bytes) : PartsLike s (t.writeT1 a b []) := by
  unfold State.writeT1
  refine PartsLike.of_parts (t := t) ?_ h
  exact (State.cacheWritten_same (msk := fun f => f == .parts) (State.t1Write_same (Same.refl _ t) _ _ rfl) _ _ rfl).parts rfl
theorem PartsLike.faultWrite {s t : State} (h : PartsLike s t) (c : Cmd) (k n seg kind off pages : Nat) : PartsLike s (t.faultWrite c k n seg kind off pages) := by
  unfold State.faultWrite
  dsimp only
  split
  · split
    · unfold State.writeSeg
      split
      · exact PartsLike.modPart (PartsLike.of_parts (t := t) (by rfl) h) _ _ (fun q => ⟨_, _, _, _, _, _, by rfl⟩)
      · refine PartsLike.each (PartsLike.modPart (PartsLike.of_parts (t := t) (by rfl) h) _ _ (fun q => ⟨_, _, _, _, _, _, by rfl⟩)) _ _ ?_
        intro t a
        dsimp only
        split
        · refine PartsLike.of_parts (t := t) (Same.parts (msk := fun f => f == .parts) (s := t) ?_ rfl) (.refl _)
          apply State.writeHost_same (Same.refl _ t) <;> rfl
        · exact (PartsLike.refl t).writeT1_nil _ _
    · exact PartsLike.modPart (PartsLike.of_parts (t := t) (by rfl) h) _ _ (fun q => ⟨_, _, _, _, _, _, by rfl⟩)
  · exact PartsLike.causeTo (PartsLike.of_parts (t := t) (by rfl) h) _ _
theorem PartsLike.faultPark {s t : State} (h : PartsLike s t) (k : Nat) (c : Cmd) (seg kind off pages : Nat) : PartsLike s (t.faultPark k c seg kind off pages) := by
  unfold State.faultPark
  dsimp only
  split
  · refine PartsLike.faultWrite (PartsLike.of_parts (t := t) ?_ h) _ _ _ _ _ _ _
    split <;> simp [State.unhold]
  · split
    · exact PartsLike.of_parts (t := t) (by rfl) h
    · refine PartsLike.of_parts (t := t) ?_ h
      simp
theorem PartsLike.recheck {s t : State} (h : PartsLike s t) (k : Nat) : PartsLike s (t.recheck k) := by
  unfold State.recheck
  dsimp only
  split
  · exact h
  · split
    · refine PartsLike.finishIdle ?_ _ _
      split
      · exact PartsLike.of_parts (t := t) (by rfl) h
      · exact h
    · split
      · exact h.faultPark _ _ _ _ _ _
      · refine PartsLike.of_parts (t := t) ?_ h
        simp [State.walk, State.unhold]
theorem PartsLike.recheckHeld {s t : State} (h : PartsLike s t) : PartsLike s t.recheckHeld := by
  unfold State.recheckHeld
  exact h.each _ _ (fun t a => (PartsLike.refl t).recheck a)

theorem Part.like.detach {q q' : Part} (h : q.like q') : q'.detach = q.detach := by obtain ⟨_,_,_,_,_,_,rfl⟩ := h; rfl
theorem PartsLike.setPhase {s t : State} (h : PartsLike s t) (k : Nat) (p : Phase) : PartsLike s (t.setPhase k p) :=
  PartsLike.of_parts (t := t) (by simp) h
theorem PartsLike.disableRing {s t : State} (h : PartsLike s t) (n : Nat) : PartsLike s (t.disableRing n) :=
  PartsLike.of_parts (t := t) ((State.disableRing_same (msk := fun f => f == .parts) (Same.refl _ t) n rfl rfl).parts rfl) h
theorem PartsLike.endIdle {s t : State} (h : PartsLike s t) (ks : List Nat) (st : Nat) : PartsLike s (t.endIdle ks st) := by
  unfold State.endIdle State.recheckFreed
  refine iteInduction (fun _ => PartsLike.recheckHeld (h.each _ _ fun t a => ?_)) (fun _ => h.each _ _ fun t a => ?_)
  all_goals refine PartsLike.finishIdle (PartsLike.of_parts (t := t) (Same.parts (msk := fun f => f == .parts) ?_ rfl) (.refl _)) _ _
  all_goals apply State.dropPost_same (Same.refl _ t) <;> rfl

theorem State.front_walk {s : State} {k op : Nat} {c : Cmd} (go : State → Cmd → State) (h1 : s.cmd? k = some c) (h2 : c.phase = .walking) (h3 : c.op = op) (h4 : s.translate k c (s.cmdRanges c) = (false, s.walk k)) : s.front k op go = s.walk k := by
  unfold State.front State.fresh?
  simp [h1, h2, h3, h4]

theorem FMap.mem_of_find {α : Type} {m : FMap α} {k : Nat} {v : α} (h : FMap.find m k = some v) : (k, v) ∈ m := by
  induction m with
  | nil => cases h
  | cons e m ih =>
    obtain ⟨j, w⟩ := e
    unfold FMap.find at h
    split at h
    · rename_i e; cases h; subst e; exact List.mem_cons_self
    · exact List.mem_cons_of_mem _ (ih h)
theorem State.finishIdle_held (s : State) (k st : Nat) (h : s.fe.held = []) : (s.finishIdle k st).fe.held = [] := by
  unfold State.finishIdle State.finish
  split
  · exact h
  · split
    · exact h
    · simp [State.freeTaskOf, h]
theorem State.recheckHeld_nil (s : State) (h : s.fe.held = []) : s.recheckHeld = s := by
  unfold State.recheckHeld State.each; rw [h]; rfl
theorem State.finishIdle_completed {s : State} {k : Nat} {c : Cmd} (st : Nat) (h : s.cmd? k = some c) (hk : cmdKey c.ring c.seq = k) :
   (s.finishIdle k st).completed c st c.idleResult 0 := by
  unfold State.finishIdle; rw [h]; exact State.finish_completed _ _ _ h hk
/-- Another command's completion keeps a completion. -/
theorem State.completed_finish {s : State} {k : Nat} {c : Cmd} {st r f : Nat} (st' r' f' : Nat) (h : s.completed c st r f)
   (hk : ∀ d, s.cmd? k = some d → cmdKey d.ring d.seq = k) :
   (s.finish k st' r' f').completed c st r f := by
  obtain ⟨h1, h2⟩ := h
  unfold State.finish
  split
  · exact ⟨h1, h2⟩
  · rename_i d hd
    have hkd := hk _ hd
    have ne : k ≠ cmdKey c.ring c.seq := by rintro rfl; rw [h1] at hd; cases hd
    refine ⟨?_, ?_⟩
    · simp [State.cmd?, State.modRing, State.setRing, State.freeTaskOf]
      rw [FMap.find_del_ne _ (Ne.symm ne)]; exact h1
    · by_cases e : c.ring = d.ring
      · rw [← e, State.modRing_ring]
        have : c.seq ≠ d.seq := by rintro e2; exact ne (by rw [← hkd, ← e, ← e2])
        dsimp only
        rw [FMap.find_set_ne _ _ this]
        exact h2
      · rw [State.modRing_ring_ne _ _ e]; exact h2

theorem State.setPhase_running {s : State} {k : Nat} {c : Cmd} (h : s.cmd? k = some c) : (s.setPhase k .running).isRunning k :=
  ⟨_, State.setPhase_cmd _ _ _ _ h, rfl⟩
theorem State.isRunning_fe {s t : State} {k : Nat} (h : t.fe = s.fe) (hk : s.isRunning k) : t.isRunning k := by
  unfold State.isRunning State.cmd? at *; rwa [h]

/-- A command of `s` completes in a state that still holds it. -/
theorem State.finish_done {s t : State} {k : Nat} {c : Cmd} (e : t.fe.cmds = s.fe.cmds) (h : s.cmd? k = some c)
    (hk : k = cmdKey c.ring c.seq) (st r f : Nat) : (t.finish k st r f).completed c st r f := by
  apply State.finish_completed _ _ _ _ hk.symm
  unfold State.cmd? at *
  rw [e]; exact h

theorem State.issuing.issue1 {s u : State} {n c op : Nat} {w : Bytes} {v : Ctx} (h : s.issuing n c op w v u)
    (go : State → Bytes → Ctx → State) : s.issue1 n c op go = go u w v := by
  obtain ⟨h1, h2, h3, h4, h5, h6⟩ := h
  unfold State.issue1
  simp [h1, h2, h3, h4, h5, h6]
/-- An instruction that may be read at once joins the engine's queue alone, and its rows are read. -/
theorem State.issuing.vec {s u : State} {n c op : Nat} {w : Bytes} {v : Ctx} (h : s.issuing n c op w v u)
    (hr : u.vecReady n w (v.frame (vDk w))) (row : State → Memory → Bytes → Nat → Nat → State)
    (fin : State → Bytes → Frame → List (List Word) → State) :
    s.issueVec n c op row fin
      = (u.modTile n fun x => { x with vec := x.vec ++ [{ ctx := c, word := w, frame := v.frame (vDk w) }] }).vecRows n
          { ctx := c, word := w, frame := v.frame (vDk w) } row fin := by
  unfold State.issueVec
  rw [h.issue1]
  obtain ⟨h1, h2, h3, h4⟩ := hr
  have e1 : (u.tile n).vec.all (fun j => j.read) = true := by rw [h2]; rfl
  have e2 : ∀ f : State → State, (f u).mem = u.mem → True := fun _ _ => trivial
  simp only [h1, e1, ↓reduceIte, Bool.not_true, Bool.false_eq_true]
  have e3 : (u.modTile n fun x => { x with vec := x.vec ++ [({ ctx := c, word := w, frame := v.frame (vDk w) } : VecJob)] }).vecStarts n
      = (true, u.modTile n fun x => { x with vec := x.vec ++ [({ ctx := c, word := w, frame := v.frame (vDk w) } : VecJob)] }) := by
    unfold State.vecStarts Tile.vecRead
    simp [h2]
  rw [e3]
  simp only [↓reduceIte]
  unfold State.vecGo
  have e4 : (vecLines w (v.frame (vDk w)).rows).any
      ((u.modTile n fun x => { x with vec := x.vec ++ [({ ctx := c, word := w, frame := v.frame (vDk w) } : VecJob)] }).spBad n) = false := h3
  have e5 : (u.modTile n fun x => { x with vec := x.vec ++ [({ ctx := c, word := w, frame := v.frame (vDk w) } : VecJob)] }).vecTags n w = true := h4
  simp [e4, e5]

/-- The engine's queue of a tile. -/
theorem State.modCtx_vec (s : State) (t c : Nat) (f : Ctx → Ctx) (n : Nat) : ((s.modCtx t c f).tile n).vec = (s.tile n).vec := by
  unfold State.modCtx State.setCtx
  split
  · by_cases e : n = t
    · subst e; simp
    · rw [State.modTile_tile_ne _ _ e]
  · rfl
theorem State.countLayer_vec (s : State) (t c : Nat) (w : Bytes) (a b n : Nat) : ((s.countLayer t c w a b).tile n).vec = (s.tile n).vec := by
  unfold State.countLayer
  dsimp only
  split
  · exact State.modCtx_vec _ _ _ _ _
  · rfl
theorem State.spPatch_tile (s : State) (t a : Nat) (b : Bytes) (n : Nat) : (s.spPatch t a b).tile n = s.tile n := rfl
theorem State.drawsOf_tile (s : State) (t a k n : Nat) : (s.drawsOf t a k).2.tile n = s.tile n := rfl
theorem State.foldl_inv {α β : Type} (g : State → β) (l : List α) (f : State → α → State)
    (h : ∀ s a, g (f s a) = g s) (s : State) : g (l.foldl f s) = g s := State.each_inv g l f h s
/-- What failing its post leaves of a context. -/
structure CtxLike (v v' : Ctx) : Prop where
  flags : v'.flags = v.flags
  frames : v'.frames = v.frames
  ending : v'.ending = v.ending
  post : v'.post = v.post
theorem CtxLike.refl (v : Ctx) : CtxLike v v := ⟨rfl, rfl, rfl, rfl⟩
theorem State.failPost_tile (s : State) (k st n : Nat) : (s.failPost k st).tile n = (s.tile n).failPost k := by
  have e : ((s.modPost k fun v => { v with fail := if v.fail = 0 then st else v.fail }).stopGather k).tiles = s.tiles := by
    unfold State.stopGather; simp
  unfold State.failPost State.tile
  dsimp only
  rw [e]
  unfold FMap.get
  rw [FMap.find_mapV]
  cases FMap.find s.tiles n with
  | none => rfl
  | some x => rfl
theorem Tile.failPost_ctx (x : Tile) (k c : Nat) : FMap.find (x.failPost k).ctxs c
    = (FMap.find x.ctxs c).map fun v => if v.post = some k then { v with failed := true, parked := false } else v := by
  unfold Tile.failPost; dsimp only; exact FMap.find_mapV _ _ _
theorem State.failPost_ctx {s : State} {n c : Nat} {v : Ctx} (k st : Nat) (h : s.ctx? n c = some v) :
    ∃ v', (s.failPost k st).ctx? n c = some v' ∧ CtxLike v v' := by
  unfold State.ctx? at *
  rw [State.failPost_tile, Tile.failPost_ctx, h]
  refine ⟨_, rfl, ?_⟩
  dsimp only
  split <;> exact ⟨rfl, rfl, rfl, rfl⟩
theorem State.setCtx_ctx (s : State) (n c : Nat) (v : Ctx) : (s.setCtx n c v).ctx? n c = some v := by
  unfold State.setCtx State.ctx?; simp
theorem State.modCtx_ctx {s : State} {n c : Nat} {v : Ctx} (f : Ctx → Ctx) (h : s.ctx? n c = some v) :
    (s.modCtx n c f).ctx? n c = some (f v) := by
  unfold State.modCtx; rw [h]; exact State.setCtx_ctx _ _ _ _
theorem State.failCtx_ctx {s : State} {n c : Nat} {v : Ctx} (st : Nat) (h : s.ctx? n c = some v) :
    ∃ v', (s.failCtx n c st).ctx? n c = some v' ∧ CtxLike v v' := by
  unfold State.failCtx; rw [h]; dsimp only
  split
  · exact State.failPost_ctx _ _ h
  · exact ⟨_, State.modCtx_ctx _ h, rfl, rfl, rfl, rfl⟩
/-- The last read and the last write of an instruction change its context's flags and no other part of it that its
program sees. -/
theorem State.signal_ctx {s : State} {n c : Nat} {v : Ctx} (w : Bytes) (h : s.ctx? n c = some v) :
    ∃ v', (s.signal n c w).ctx? n c = some v' ∧ CtxLike { v with flags := flagsAfter w v.flags } v' := by
  unfold State.signal State.setOut State.release
  rw [State.modCtx_ctx _ h]
  dsimp only
  split
  · exact State.failCtx_ctx (v := { v with flags := flagsAfter w v.flags }) _ (State.setCtx_ctx _ _ _ _)
  · exact ⟨_, State.setCtx_ctx _ _ _ _, .refl _⟩
theorem State.modCtx_tile (s : State) (t c : Nat) (f : Ctx → Ctx) (n : Nat) :
    ∃ cs, (s.modCtx t c f).tile n = { s.tile n with ctxs := cs } := by
  unfold State.modCtx State.setCtx
  split
  · by_cases e : n = t
    · subst e; exact ⟨_, State.modTile_tile _ _ _⟩
    · exact ⟨_, State.modTile_tile_ne _ _ e⟩
  · exact ⟨_, rfl⟩
/-- What failing posts and changing contexts leave of a tile. -/
structure TileLike (x y : Tile) : Prop where
  vec : y.vec = x.vec
  fills : y.fills = x.fills
  banks : y.banks = x.banks
  active : y.active = x.active
  inactive : y.inactive = x.inactive
  stream : y.stream = x.stream
  st : y.st = x.st
  full : y.full = x.full
  landed : y.landed = x.landed
theorem TileLike.refl (x : Tile) : TileLike x x := ⟨rfl, rfl, rfl, rfl, rfl, rfl, rfl, rfl, rfl⟩
theorem TileLike.trans {x y z : Tile} (h : TileLike x y) (k : TileLike y z) : TileLike x z :=
  ⟨k.vec.trans h.vec, k.fills.trans h.fills, k.banks.trans h.banks, k.active.trans h.active, k.inactive.trans h.inactive,
    k.stream.trans h.stream, k.st.trans h.st, k.full.trans h.full,
    k.landed.trans h.landed⟩
theorem TileLike.modCtx (s : State) (t c : Nat) (f : Ctx → Ctx) (n : Nat) : TileLike (s.tile n) ((s.modCtx t c f).tile n) := by
  obtain ⟨cs, e⟩ := State.modCtx_tile s t c f n
  rw [e]; exact ⟨rfl, rfl, rfl, rfl, rfl, rfl, rfl, rfl, rfl⟩
theorem TileLike.failPost (s : State) (k st n : Nat) : TileLike (s.tile n) ((s.failPost k st).tile n) := by
  rw [State.failPost_tile]; exact ⟨rfl, rfl, rfl, rfl, rfl, rfl, rfl, rfl, rfl⟩
theorem TileLike.failCtx (s : State) (t c st n : Nat) : TileLike (s.tile n) ((s.failCtx t c st).tile n) := by
  unfold State.failCtx
  split
  · exact .refl _
  · split
    · exact .failPost _ _ _ _
    · exact .modCtx _ _ _ _ _
theorem TileLike.flagPost (s : State) (t c b n : Nat) : TileLike (s.tile n) ((s.flagPost t c b).tile n) := by
  unfold State.flagPost
  repeat' split
  all_goals first | exact .refl _ | (rw [State.modPost_tile]; exact .refl _)
theorem TileLike.setCtx (s : State) (t c : Nat) (v : Ctx) (n : Nat) : TileLike (s.tile n) ((s.setCtx t c v).tile n) := by
  unfold State.setCtx
  by_cases e : n = t
  · subst e; rw [State.modTile_tile]; exact ⟨rfl, rfl, rfl, rfl, rfl, rfl, rfl, rfl, rfl⟩
  · rw [State.modTile_tile_ne _ _ e]; exact .refl _
theorem TileLike.setOut (s : State) (t c : Nat) (w : Bytes) (n : Nat) : TileLike (s.tile n) ((s.setOut t c w).tile n) := by
  unfold State.setOut
  split
  · exact .refl _
  · dsimp only
    split
    · rename_i v _ _
      have a := TileLike.setCtx s t c { v with flags := (outFlags w).foldl setFlag v.flags } n
      have b := TileLike.failCtx ((s.setCtx t c { v with flags := (outFlags w).foldl setFlag v.flags }).count 0x00B t 1) t c stInternal n
      exact a.trans b
    · exact .setCtx _ _ _ _ _
theorem TileLike.signal (s : State) (t c : Nat) (w : Bytes) (n : Nat) : TileLike (s.tile n) ((s.signal t c w).tile n) :=
  (TileLike.modCtx s t c _ n).trans (.setOut _ _ _ _ _)
theorem State.signal_vec (s : State) (t c : Nat) (w : Bytes) (n : Nat) : ((s.signal t c w).tile n).vec = (s.tile n).vec :=
  (TileLike.signal s t c w n).vec
theorem State.freeBanks_ctxs (s : State) (t : Nat) (w : Bytes) (n : Nat) : ((s.freeBanks t w).tile n).ctxs = (s.tile n).ctxs := by
  unfold State.freeBanks
  refine State.each_inv (fun s => (s.tile n).ctxs) _ _ ?_ s
  intro s a
  unfold State.modBank
  by_cases e : n = t
  · subst e; rw [State.modTile_tile]
  · rw [State.modTile_tile_ne _ _ e]

theorem State.flagPost_ctx (s : State) (t c b n d : Nat) : (s.flagPost t c b).ctx? n d = s.ctx? n d := by
  unfold State.flagPost
  repeat' split
  all_goals first | rfl | (unfold State.ctx?; rw [State.modPost_tile])
theorem State.advance_ctx {s : State} {n c : Nat} {v : Ctx} (h : s.ctx? n c = some v) : ∃ v', (s.advance n c).ctx? n c = some v' ∧ v'.flags = v.flags ∧ v'.frames = v.frames ∧ v'.post = v.post := by
  unfold State.advance
  rw [h]
  dsimp only
  split
  · exact ⟨v, h, rfl, rfl, rfl⟩
  · have e := State.setCtx_ctx s n c { v with pc := (landPc (layers (s.program n v)) v.esc ((layers (s.program n v)).length + 1) (v.pc + 1)).1 }
    split
    · refine ⟨{ v with pc := (landPc (layers (s.program n v)) v.esc ((layers (s.program n v)).length + 1) (v.pc + 1)).1 }, ?_, rfl, rfl, rfl⟩
      rw [State.flagPost_ctx]; exact e
    · exact ⟨_, e, rfl, rfl, rfl⟩
/-- The context that issues keeps its flags, its frames and its post as it advances. -/
theorem State.issuing.ctx {s u : State} {n c op : Nat} {w : Bytes} {v : Ctx} (h : s.issuing n c op w v u) : ∃ v', u.ctx? n c = some v' ∧ v'.flags = v.flags ∧ v'.frames = v.frames ∧ v'.post = v.post := by
  obtain ⟨_, _, h3, _, _, rfl⟩ := h
  apply State.advance_ctx
  unfold State.countSwitch
  split <;> exact h3
theorem State.issuing.mem {s u : State} {n c op : Nat} {w : Bytes} {v : Ctx} (h : s.issuing n c op w v u) : u.mem = s.mem := by
  obtain ⟨_, _, h3, _, _, rfl⟩ := h
  rw [mem_of (by apply State.advance_same (Same.refl _ _) <;> rfl), mem_of (by apply State.countSwitch_same (Same.refl _ _) <;> rfl)]

theorem FMap.get_of_set {α : Type} (m : FMap α) (k : Nat) (a d : α) : FMap.get (FMap.set m k a) k d = a := by simp
theorem State.setQueue_queue (s : State) (t cls : Nat) (q : List XferJob) : ((s.setQueue t cls q).tile t).queue cls = q := by
  unfold State.setQueue Tile.queue
  rw [State.modTile_tile]
  exact FMap.get_of_set _ _ _ _
theorem State.setQueue_ctx (s : State) (t cls : Nat) (q : List XferJob) (n c : Nat) : (s.setQueue t cls q).ctx? n c = s.ctx? n c := by
  unfold State.setQueue State.ctx?
  by_cases e : n = t
  · subst e; rw [State.modTile_tile]
  · rw [State.modTile_tile_ne _ _ e]
theorem TileLike.issueReads (s : State) (t : Nat) (w : Bytes) (p off : Nat) (v : Seg) (had : FMap (Bytes × Bool)) :
    (s.issueReads t w p off v had).tiles = s.tiles :=
  tiles_of (by apply State.issueReads_same (Same.refl _ _) <;> rfl)
theorem State.netHits_tiles (s : State) (k g off n : Nat) : (s.netHits k g off n).2.tiles = s.tiles :=
  tiles_of (by apply State.netHits_same (Same.refl _ _) <;> rfl)
theorem State.netHits_mem (s : State) (k g off n : Nat) : (s.netHits k g off n).2.mem = s.mem :=
  mem_of (by apply State.netHits_same (Same.refl _ _) <;> rfl)
theorem State.setQueue_st (s : State) (t cls : Nat) (q : List XferJob) (n : Nat) : ((s.setQueue t cls q).tile n).st = (s.tile n).st := by
  unfold State.setQueue
  by_cases e : n = t
  · subst e; rw [State.modTile_tile]
  · rw [State.modTile_tile_ne _ _ e]
theorem State.ringLines_off (s : State) (t : Nat) (w : Bytes) (h : (s.tile t).st ≠ 4) : s.ringLines t w = s := by
  unfold State.ringLines; simp [h]
theorem State.dropJob_st (s : State) (t : Nat) (j : XferJob) (n : Nat) : ((s.dropJob t j).tile n).st = (s.tile n).st :=
  State.setQueue_st _ _ _ _ _
theorem State.fetchDone_mem (s : State) (t : Nat) (j : XferJob) (h : (s.tile t).st ≠ 4) : (s.fetchDone t j).mem = s.mem := by
  unfold State.fetchDone
  rw [State.ringLines_off _ _ _ (by rw [State.dropJob_st]; exact h)]
  rw [mem_of (by apply State.signal_same (Same.refl _ _) <;> rfl)]
  rfl
theorem State.putRun_tiles (s : State) (t k : Nat) (c : Cmd) (w : Bytes) (bad : List Nat) (pl : Place) (r : Nat × Bytes) : (s.putRun t k c w bad pl r).tiles = s.tiles :=
  tiles_of (by apply State.putRun_same (Same.refl _ _) <;> rfl)
/-- A FETCH enters its queue, and changes neither memory nor the tile otherwise. -/
theorem State.enqueue_fetch (s : State) (t : Nat) (j : XferJob) (h : isPut j.word = false) :
    ∃ i, i.word = j.word ∧ i.ctx = j.ctx ∧ i.post = j.post
      ∧ ((s.enqueue t j).tile t).queue (xClass j.word) = (s.tile t).queue (xClass j.word) ++ [i]
      ∧ (s.enqueue t j).mem = s.mem := by
  have key : ∀ i u, s.beginXfer t j = (some i, u) → u.tiles = s.tiles → u.mem = s.mem →
      i.word = j.word ∧ i.ctx = j.ctx ∧ i.post = j.post → ∃ i, i.word = j.word ∧ i.ctx = j.ctx ∧ i.post = j.post
      ∧ ((s.enqueue t j).tile t).queue (xClass j.word) = (s.tile t).queue (xClass j.word) ++ [i]
      ∧ (s.enqueue t j).mem = s.mem := by
    intro i u e ht hm hi
    refine ⟨i, hi.1, hi.2.1, hi.2.2, ?_, ?_⟩
    · unfold State.enqueue
      rw [e]
      dsimp only
      rw [hi.1, State.setQueue_queue]
      unfold State.tile
      rw [ht]
    · unfold State.enqueue
      rw [e]
      exact hm
  have hr : ∀ (s : State) w p off v had, (s.issueReads t w p off v had).mem = s.mem := fun s w p off v had => mem_of (by apply State.issueReads_same (Same.refl _ _) <;> rfl)
  have hb : ∃ i u, s.beginXfer t j = (some i, u) ∧ u.tiles = s.tiles ∧ u.mem = s.mem ∧ (i.word = j.word ∧ i.ctx = j.ctx ∧ i.post = j.post) := by
    unfold State.beginXfer
    simp only [h, Bool.false_and, Bool.false_eq_true, if_false]
    repeat' split
    all_goals first
      | exact ⟨_, _, rfl, rfl, rfl, rfl, rfl, rfl⟩
      | exact ⟨_, _, rfl, (TileLike.issueReads _ _ _ _ _ _ _).trans (State.netHits_tiles _ _ _ _ _),
          (hr _ _ _ _ _ _).trans (State.netHits_mem _ _ _ _ _), rfl, rfl, rfl⟩
  obtain ⟨i, u, e, a, b, c⟩ := hb
  exact key i u e a b c
theorem State.enqueue_local (s : State) (t : Nat) (j : XferJob) (h : xClass j.word ≠ 1) (g : s.goesOut j = false) :
    s.enqueue t j = s.setQueue t (xClass j.word) ((s.tile t).queue (xClass j.word) ++ [j]) := by
  have e : s.beginXfer t j = (some j, s) := by
    unfold State.beginXfer; simp [h, g]
  unfold State.enqueue; rw [e]
theorem State.checkXfer_ok {s : State} {t c : Nat} {w : Bytes} {v : Ctx} {cmd : Cmd} {pl : Place}
    (h1 : s.cmdOf v = some cmd) (h2 : s.placeOf cmd w = some pl) (h3 : s.placeFault w pl = false) (h4 : s.sealBreach cmd w = false) :
    s.checkXfer t c w v = s.enqueue t { ctx := c, post := v.post, word := w, frame := v.frame (xDk w) } := by
  unfold State.checkXfer; simp [h1, h2, h3, h4]

theorem State.gwork_setGwork (s : State) (w : GWork) : (s.setGwork w).gwork? w.tile w.post w.table = some w := by
  unfold State.setGwork State.gwork?
  dsimp only
  have self : w.is w.tile w.post w.table = true := by simp [GWork.is]
  by_cases h : (s.gat.works.any fun g => g.is w.tile w.post w.table) = true
  · simp only [h, if_true]
    generalize s.gat.works = l at h
    induction l with
    | nil => simp at h
    | cons g l ih =>
      by_cases e : g.is w.tile w.post w.table = true
      · simp [e, self]
      · simp only [List.map_cons]
        rw [if_neg e, List.find?_cons_of_neg (by simpa using e)]
        apply ih
        simpa [e] using h
  · rw [if_neg h, List.find?_append]
    have : (s.gat.works.find? fun g => g.is w.tile w.post w.table) = none := by
      simpa [List.find?_eq_none] using h
    simp [this, self]
theorem State.gwork_is {s : State} {t k u : Nat} {g : GWork} (h : s.gwork? t k u = some g) : g.tile = t ∧ g.post = k ∧ g.table = u := by
  unfold State.gwork? at h
  have := List.find?_some h
  simpa [GWork.is, and_assoc] using this
theorem State.gworkOf_is (s : State) (t k u : Nat) : (s.gworkOf t k u).tile = t ∧ (s.gworkOf t k u).post = k ∧ (s.gworkOf t k u).table = u := by
  unfold State.gworkOf
  cases h : s.gwork? t k u with
  | none => exact ⟨rfl, rfl, rfl⟩
  | some g => exact State.gwork_is h
theorem State.gwork_setGwork' (s : State) (w : GWork) {t k u : Nat} (h : w.tile = t ∧ w.post = k ∧ w.table = u) : (s.setGwork w).gwork? t k u = some w := by
  obtain ⟨rfl, rfl, rfl⟩ := h; exact State.gwork_setGwork s w
theorem State.gwork_of_gat {s t : State} (h : t.gat = s.gat) (a b c : Nat) : t.gwork? a b c = s.gwork? a b c := by
  unfold State.gwork?; rw [h]
/-- What a fold over a list keeps and adds on the felt: nothing that was there goes. -/
def FeltGrows (s t : State) : Prop := ∀ f ∈ s.felt, f ∈ t.felt
theorem FeltGrows.refl (s : State) : FeltGrows s s := fun _ h => h
theorem FeltGrows.trans {s t u : State} (h : FeltGrows s t) (k : FeltGrows t u) : FeltGrows s u := fun f hf => k f (h f hf)
theorem FeltGrows.of_eq {s t : State} (h : t.felt = s.felt) : FeltGrows s t := by intro f hf; rw [h]; exact hf
theorem FeltGrows.send (s : State) (a b : Nat) (m : Msg) : FeltGrows s (s.sendFelt a b m) := by
  intro f hf; unfold State.sendFelt; simp [hf]
theorem FeltGrows.each {α : Type} (s : State) (l : List α) (f : State → α → State) (h : ∀ s a, FeltGrows s (f s a)) : FeltGrows s (s.each l f) := by
  unfold State.each
  induction l generalizing s with
  | nil => exact .refl _
  | cons a l ih => exact (h s a).trans (ih _)
/-- Some step of a fold puts a message on the felt that no later step takes. -/
theorem FeltGrows.each_some {α : Type} (s : State) (l : List α) (f : State → α → State) (h : ∀ s a, FeltGrows s (f s a))
    (a : α) (ha : a ∈ l) (P : Flight → Prop) (hp : ∀ t : State, (t.ream = s.ream) → ∃ x ∈ (f t a).felt, P x)
    (hr : ∀ t a, (f t a).ream = t.ream) : ∃ x ∈ (s.each l f).felt, P x := by
  unfold State.each
  induction l generalizing s with
  | nil => cases ha
  | cons b l ih =>
    rw [List.foldl_cons]
    cases ha with
    | head =>
      obtain ⟨x, hx, px⟩ := hp s rfl
      exact ⟨x, FeltGrows.each (f s a) l f h x hx, px⟩
    | tail _ hb => exact ih (f s b) hb (fun t ht => hp t (ht.trans (hr _ _)))

theorem State.uwork_setUwork (s : State) (w : UWork) : (s.setUwork w).uwork? w.tile w.post w.table = some w := by
  unfold State.setUwork State.uwork?
  dsimp only
  have self : w.is w.tile w.post w.table = true := by simp [UWork.is]
  by_cases h : (s.gat.uworks.any fun g => g.is w.tile w.post w.table) = true
  · simp only [h, if_true]
    generalize s.gat.uworks = l at h
    induction l with
    | nil => simp at h
    | cons g l ih =>
      by_cases e : g.is w.tile w.post w.table = true
      · simp [e, self]
      · simp only [List.map_cons]
        rw [if_neg e, List.find?_cons_of_neg (by simpa using e)]
        apply ih
        simpa [e] using h
  · rw [if_neg h, List.find?_append]
    have : (s.gat.uworks.find? fun g => g.is w.tile w.post w.table) = none := by
      simpa [List.find?_eq_none] using h
    simp [this, self]
theorem State.uwork_is {s : State} {t k u : Nat} {g : UWork} (h : s.uwork? t k u = some g) : g.tile = t ∧ g.post = k ∧ g.table = u := by
  unfold State.uwork? at h
  have := List.find?_some h
  simpa [UWork.is, and_assoc] using this
theorem State.uworkOf_is (s : State) (t k u : Nat) : (s.uworkOf t k u).tile = t ∧ (s.uworkOf t k u).post = k ∧ (s.uworkOf t k u).table = u := by
  unfold State.uworkOf
  cases h : s.uwork? t k u with
  | none => exact ⟨rfl, rfl, rfl⟩
  | some g => exact State.uwork_is h
theorem State.uwork_setUwork' (s : State) (w : UWork) {t k u : Nat} (h : w.tile = t ∧ w.post = k ∧ w.table = u) : (s.setUwork w).uwork? t k u = some w := by
  obtain ⟨rfl, rfl, rfl⟩ := h; exact State.uwork_setUwork s w

end Sys2Proof.Machine
end

