-- ==== Sys2Proof/Machine/Pins.lean ====
section
/-! DEFINITION. What the module drives on its pins (Table 17.2), and its address on the management bus. -/

namespace Sys2Proof.Machine

/-- PWR_GOOD is high while the module is ON (R353, R357). -/
def State.pwrGood (s : State) : Bool := s.pwr.st == 3

/-- THERM_TRIP_N: low after a trip, until reset release (R367). -/
def State.thermTripN (s : State) : Bool := !s.pwr.trip

/-- SMB_ALERT_N: low while a PLDM event waits to be polled (R369). -/
def State.smbAlertN (s : State) : Bool := s.mgmt.events.isEmpty

/-- PRSNT_N is tied to ground. -/
def State.prsntN (_ : State) : Bool := false

/-- Duty of the PWM on COOL_DEMAND, in sevenths of a percent: 20 % + 80 % × (F − 2.5) ÷ 3.5, F being the demanded flow of
DEMAND tenths of L/min (R365); no signal in OFF. -/
def State.coolDuty (s : State) : Option Nat :=
  if s.pwr.st = 0 then none else some (140 + 16 * (s.pwr.demand - 25))

/-- Seven-bit SMBus address: 0x40 + ADDR_SEL (R368). -/
def State.smbAddress (s : State) : Nat := 0x40 + s.pwr.addrSel

/-- The charger draws current: in ON, but not while the bank is FAILED, nor in a health test (R357, R362, R364). -/
def State.charges (s : State) : Bool := s.pwr.st == 3 && s.pwr.bank.st != 3 && !s.pwr.bank.test

end Sys2Proof.Machine
end

