-- ==== Sys2Proof/Tests/World.lean ====
section
/-! SUPPORT. Small states for the tests and the witnesses: one attached partition with a kernel ring, segments in
each tier, and a command or a tile program placed in it. -/

namespace Sys2Proof.Tests
set_option Elab.async false
open Sys2Proof.Machine

/-- Bytes with fields written into zeros: offset, length, value. -/
def bytesOf (n : Nat) (fs : List (Nat × Nat × Nat)) : Bytes :=
  fs.foldl (fun b f => patchBytes b f.1 (natLe f.2.1 f.2.2)) (zeros n)

/-- A descriptor of this opcode. -/
def desc (op : Nat) (fs : List (Nat × Nat × Nat)) : Bytes := bytesOf 64 ((6, 1, op) :: fs)

/-- Ranges that hold every ring, key slot, queue pair and vector. -/
def latAll : FMap Word := [(8, 0x10000000#32), (12, 0x10000000#32), (16, 0x10000000#32), (20, 0x08000000#32)]

/-- The segments of partition 0: two in tier-1, one in tier-2, one in tier-0, one paged. -/
def segs0 : FMap Seg :=
  [(0, { base := 0, limit := 0x400000, tier := 1 }), (1, { base := 0x400000, limit := 0x400000, tier := 1 }),
   (2, { base := 0x10000, limit := 0x400000, tier := 2 }), (3, { base := 0, limit := 0x200000, tier := 0 }),
   (4, { limit := 0x400000, tier := 1, paged := true, map := [(0, 0x800000)] })]

/-- Partition 0, attached with every feature. -/
def part0 : Part := { st := 1, lat := latAll, featAck := 0x7F, segs := segs0, faultArea := some (2, 0x100) }

/-- Words of ring 0: a kernel ring of 16 entries. -/
def ringLat : FMap Word :=
  [(0, 0x10000#32), (8, 0x20000#32), (16, 0x30000#32), (24, 0x00040003#32), (28, 1#32), (32, 0x03FF0000#32)]

/-- A kernel ring in this state. -/
def ringIn (st : Nat) : Ring := { st := st, lat := ringLat }

/-- The block with partition 0 attached over the host port and ring 0 running. -/
def base : State :=
  { State.reset with
    parts := [(0, part0)]
    hp := { link := 2, cxlOk := true }
    fe := { rings := [(0, ringIn 2)], segCache := [0, 1, 2, 3, 4] } }

/-- Put a ring into the state. -/
def onRing (s : State) (n : Nat) (r : Ring) : State := s.setRing n r

/-- Put partition 0 into the state. -/
def onPart (s : State) (p : Nat) (q : Part) : State := s.setPart p q

/-- An accepted command of ring 0 with SEQ 0. -/
def cmdOf (d : Bytes) : Cmd := { ring := 0, seq := 0, epoch := 0, part := 0, desc := d }

/-- The state with that command in it. -/
def withCmd (s : State) (d : Bytes) : State := s.setCmd 0 (cmdOf d)

/-- The state with a running command of ring 0 and SEQ 1. -/
def withRunning (s : State) (d : Bytes) : State := s.setCmd 1 { cmdOf d with seq := 1, phase := .running }

/-! ### Images and a resident ream -/

/-- An instruction word with no flags. -/
def word (op : Nat) (fs : List (Nat × Nat × Nat)) : Bytes :=
  bytesOf 32 ([(0, 1, op), (4, 4, 0xFFFFFFFF), (8, 2, 0xFFFF)] ++ fs)

/-- A PROGRAM payload of these words from this scratchpad line on; its rota serves the transfers only. -/
def program (line : Nat) (ws : List Bytes) : Bytes :=
  bytesOf 16 [(0, 4, ws.length), (8, 2, line)] ++ zeros 16 ++ List.replicate 32 0x88 ++ ws.flatten

/-- A header (Table 2.1) of one stage, on tile 0. -/
def header (magic ver bas records len tables : Nat) : Bytes :=
  withCrc (bytesOf 124 [(0, 4, magic), (4, 2, 1), (6, 2, 128), (8, 8, len), (16, 1, 1), (25, 1, 1), (26, 1, 1),
    (28, 4, 16000), (32, 4, 1600), (36, 2, 1), (38, 2, tables), (48, 4, 0x10000), (52, 2, 16), (60, 4, records),
    (64, 8, 128), (72, 2, ver), (74, 2, bas)])

def stage0 : Bytes := bytesOf 32 [(0, 1, 1), (4, 1, 1), (16, 4, 1000)]

/-- A ream whose one program on tile 0 is `ws`, with these TABLE payloads. -/
def ream (ws : List Bytes) (tabs : List Bytes) : Ream :=
  { resident := true, admission := true, hdr := header 0x4D524E59 0 0 4 0 tabs.length
    recs := { type := 1, index := 0, body := stage0 } :: tabs.zipIdx.map fun (b, i) => { type := 8, index := i, body := b }
    act := { num := 0, recs := [{ type := 2, index := 0, body := program 0 ws }] } }

/-- The attached block with that ream. -/
def loaded (ws : List Bytes) (tabs : List Bytes) : State := { base with ream := ream ws tabs }

/-- A running command of ring 0 and SEQ 1. -/
def running (d : Bytes) : Cmd := { cmdOf d with seq := 1, phase := .running }

/-- A post of one query without lists, on tier-2. -/
def postDesc : Bytes :=
  desc 0x01 [(16, 2, 1), (20, 1, 2), (21, 1, 2), (22, 2, 0xFFFF), (30, 2, 0xFFFF), (40, 4, 256)]

def post0 : Post := { ring := 0, seq := 0, part := 0, q := 1 }

/-- The state with that post, of ring 0 and SEQ 0, in it. -/
def withPost (s : State) (d : Bytes) (v : Post) : State :=
  (s.setCmd 0 { cmdOf d with phase := .post }).setPost 0 v

/-- The loaded block without tables and with an empty program. -/
def plain : State := loaded [word 4 []] []

/-! ### A tile at work -/

/-- The context of post 0: frame 0 has one row of four columns. -/
def ctx0 : Ctx := { post := some 0, frames := [(0, { rows := 1, cols := 4, depth := 32 })] }

/-- Tile 0 serves post 0, and the program of its context begins with this word; the ream has these tables. -/
def atWith (w : Bytes) (tabs : List Bytes) (v : Post) : State :=
  { withPost (loaded [w, word 4 []] tabs) postDesc { v with phase := 3 } with
    tiles := [(0, { st := 1, ctxs := [(0, ctx0)] })] }

def atWord (w : Bytes) : State := atWith w [] post0

/-- Tile 0 with these changes. -/
def onTile (s : State) (f : Tile → Tile) : State := s.setTile 0 (f (s.tile 0))

/-- A vector word over FP32 views. -/
def vword (op : Nat) (fs : List (Nat × Nat × Nat)) : Bytes :=
  word op ([(12, 2, 1), (14, 1, 4), (15, 1, 0x0B), (16, 2, 5), (18, 1, 4), (19, 1, 0x0B), (20, 2, 9), (22, 1, 4),
    (23, 1, 0x0B)] ++ fs)

/-- The state in which a command goes on after its checks. -/
def after (s : State) (r q : Nat) (c : Cmd) : State := (s.translate (cmdKey r q) c (s.cmdRanges c)).2

theorem passes_ok {s : State} {r q op : Nat} {c : Cmd}
    (h : (decide (s.cmd? (cmdKey r q) = some c) && c.ring == r && c.seq == q && decide (c.phase = .accepted)
      && s.atTurn c && c.op == op && s.precheck c == 0 && (s.translate (cmdKey r q) c (s.cmdRanges c)).1
      && !(after s r q c).cutOff c) = true) : s.passes r q op c (after s r q c) := by
  simp only [Bool.and_eq_true, decide_eq_true_eq, beq_iff_eq, Bool.not_eq_true'] at h
  obtain ⟨⟨⟨⟨⟨⟨⟨⟨h1, h2⟩, h3⟩, h4⟩, h0⟩, h5⟩, h6⟩, h7⟩, h8⟩ := h
  exact ⟨h1, h2, h3, h4, h0, h5, h6, Prod.ext h7 rfl, h8⟩

theorem operand_ok {u : State} {k p g off len : Nat}
    (h : ((u.operAsk k p g off len).1 && ((u.operAsk k p g off len).2.openAsk p g off len false).1) = true) :
    u.operand k p g off len ((u.operAsk k p g off len).2.openAsk p g off len false).2 := by
  simp only [Bool.and_eq_true] at h
  exact ⟨_, Prod.ext h.1 rfl, Prod.ext h.2 rfl⟩

theorem sound_ok {s : State} (h : s.mem.wf = true) : s.memSound := h

theorem delivers_ok {s : State} {i p : Nat} (h : i < 512 ∧ (s.src i).st = 1 ∧ s.srcOwner i = p ∧ p < 16
    ∧ (s.part p).reachable = true ∧ (s.part p).resuming = false
    ∧ (s.src i).timer + s.coalCycles i ≤ s.now) : s.deliversTo i p := h

theorem route_ok {s : State} {i p : Nat} (h : s.routeVec i + s.routeN i < (s.part p).msixCount
    ∧ s.routeFirst i + s.routeN i < 16 * (s.part p).prioLines) : s.routeOk i p := h

theorem notRoute_ok {s : State} {i p : Nat} (h : ¬ (s.routeVec i + s.routeN i < (s.part p).msixCount
    ∧ s.routeFirst i + s.routeN i < 16 * (s.part p).prioLines)) : ¬ s.routeOk i p := h

theorem stores_ok {s : State} {a : Nat} {x : Word} (h : a % 4 = 0 ∧ rwMask a ≠ 0#32
    ∧ ¬ (0x20000 ≤ a ∧ a < 0x60000 ∧ a % 0x40 = 0x18) ∧ (0xB0000 ≤ a → a < 0xC0000 → s.sec.busy = false)
    ∧ (a = 0xF0000 → bitsOf x.toNat 11 8 = 0) ∧ (a = 0xF0100 → bitsOf x.toNat 17 16 = 0)) : s.onlyStores a x := h

theorem issuing_ok {s : State} {n c op : Nat} {v : Ctx}
    (h : (s.issues n && decide (s.turn n = some c) && decide (s.ctx? n c = some v)
      && iOp (s.nextWord n v) == op) = true) :
    s.issuing n c op (s.nextWord n v) v ((s.countSwitch n c).advance n c) := by
  simp only [Bool.and_eq_true, decide_eq_true_eq, beq_iff_eq] at h
  obtain ⟨⟨⟨h1, h2⟩, h3⟩, h4⟩ := h
  exact ⟨h1, h2, h3, rfl, h4, rfl⟩

theorem vecReady_ok {u : State} {n : Nat} {w : Bytes} {fr : Frame}
    (h : (fr.rows != 0 && decide ((u.tile n).vec = []) && !(vecLines w fr.rows).any (u.spBad n) && u.vecTags n w) = true) : u.vecReady n w fr := by
  simp only [Bool.and_eq_true, bne_iff_ne, ne_eq, decide_eq_true_eq, Bool.not_eq_true'] at h
  exact ⟨h.1.1.1, h.1.1.2, h.1.2, h.2⟩

end Sys2Proof.Tests
end

