-- ==== Sys2Proof/Tests/Image.lean ====
section
/-! SUPPORT. The smallest ream image that the load check passes: one stage on tile 0, a program of one END, router
tables of maintenance cycles, and MAINT rotas. Its verdict is proved from the facts about its parts, since the image is
too long to evaluate whole. -/

namespace Sys2Proof.Tests.Image
set_option Elab.async false
open Sys2Proof.Machine Sys2Proof.Tests
set_option maxRecDepth 100000

/-- A router table entry of a maintenance cycle. -/
def maintEntry : Bytes := [0, 0, 0, 1, 0, 0, 0, 0]
def felt0 : Bytes := bytesOf 16 [(0, 4, 64)] ++ (List.replicate 72 (List.replicate 64 maintEntry).flatten).flatten

theorem chunks_replicate (n k : Nat) (y : Bytes) (h : y.length = n) :
    chunks n k (List.replicate k y).flatten = List.replicate k y := by
  induction k with
  | zero => rfl
  | succ k ih =>
    rw [List.replicate_succ, List.flatten_cons]
    simp only [chunks]
    rw [List.take_left' h, List.drop_left' h, ih]

theorem felt0_period : feltPeriod felt0 = 64 := by decide +kernel
theorem felt0_body : felt0.drop 16 = (List.replicate 72 (List.replicate 64 maintEntry).flatten).flatten := by
  unfold felt0; exact List.drop_left' (by decide +kernel)

theorem felt0_table : feltOf felt0 = (List.replicate 72 (List.replicate 64 0x1000000).toArray).toArray := by
  have h1 : ((List.replicate 64 maintEntry).flatten).length = 512 := by decide +kernel
  have h2 := chunks_replicate 8 64 maintEntry (by decide)
  simp only [feltOf, felt0_period, felt0_body]
  rw [chunks_replicate (8 * 64) 72 _ h1, List.map_replicate, h2, List.map_replicate]
  congr 4
theorem getD_replicate (n m x t c : Nat) : (((List.replicate n (List.replicate m x).toArray).toArray.getD t #[]).getD c 0)
    = if t < n ∧ c < m then x else 0 := by
  by_cases ht : t < n <;> by_cases hc : c < m <;> simp [Array.getD, ht, hc]
theorem flatten_length (n : Nat) (l : Bytes) : (List.replicate n l).flatten.length = n * l.length := by
  simp
theorem felt0_entry (t c : Nat) : (feltOf felt0).entry t c = if t < 72 ∧ c < 64 then 0x1000000 else 0 := by
  rw [felt0_table]
  exact getD_replicate 72 64 0x1000000 t c
theorem felt0_kind (c : Nat) : (feltOf felt0).kind c = if c < 64 then 1 else 0 := by
  unfold Felt.kind
  rw [felt0_entry]
  by_cases hc : c < 64 <;> simp [hc] <;> decide
theorem felt0_quiet (t c i : Nat) (hc : c < 64) : (feltOf felt0).arrives 64 t c i = false := by
  have h1 : ((c + 64 - 1) % 64) < 64 := Nat.mod_lt _ (by decide)
  have h2 : ((c + 63) % 64) < 64 := Nat.mod_lt _ (by decide)
  unfold Felt.arrives
  simp only [felt0_kind, hc, h1, if_true]
  split_ifs <;> first | rfl | (cases neighbour t i <;> simp) | simp
theorem felt0_ok (en : Nat) : feltWhy en 16000 16 0 felt0 = [] := by
  have hl : felt0.length = 36880 := by
    unfold felt0
    rw [List.length_append, flatten_length, flatten_length]
    decide +kernel
  have hz : zeroAt felt0 4 12 = true := by decide +kernel
  have hk2 : (fun c => (feltOf felt0).kind c == 2) = fun _ => false := by
    funext c; rw [felt0_kind]; by_cases h : c < 64 <;> simp [h]
  have hk1 : (fun c => (feltOf felt0).kind c == 1) = fun c => decide (c < 64) := by
    funext c; rw [felt0_kind]; by_cases h : c < 64 <;> simp [h]
  have hr : (cycRuns 64 fun _ => false).any (· < 18) = false := by decide +kernel
  have hm : (cycMin 64 1024 (fun c => decide (c < 64)) < 16) = False := by
    have : ¬ cycMin 64 1024 (fun c => decide (c < 64)) < 16 := by decide +kernel
    simp [this]
  unfold feltWhy
  simp only [felt0_period, hl, hz, hk1, hk2, hr, hm]
  have e1 : ((List.range 64).any fun c => (List.range 72).any fun t =>
      entryBad t ((feltOf felt0).entry t c) || feKind ((feltOf felt0).entry t c) != (feltOf felt0).kind c) = false := by
    simp only [List.any_eq_false, List.mem_range]
    intro c hc
    simp only [List.any_eq_true, List.mem_range, not_exists, not_and]
    intro t ht
    rw [felt0_entry, felt0_kind, if_pos ⟨ht, hc⟩, if_pos hc]
    simp [entryBad, feKind, bitsOf]
  have e2 : ((List.range 64).any fun c => (List.range 72).any fun t =>
      !en.testBit t && (feltOf felt0).kind c == 0 && (feSrc ((feltOf felt0).entry t c) != 0 ||
        (List.range 6).any fun o => feSel ((feltOf felt0).entry t c) o != 15)) = false := by
    simp only [List.any_eq_false, List.mem_range]
    intro c hc
    simp [felt0_kind, hc]
  have e3 : ((List.range 64).any fun c => (List.range 72).any fun t => (feltOf felt0).conflict 64 t c) = false := by
    simp only [List.any_eq_false, List.mem_range]
    intro c hc
    simp only [List.any_eq_true, List.mem_range, not_exists, not_and]
    intro t ht
    simp [Felt.conflict, felt0_kind, hc, felt0_quiet t c _ hc]
  simp [e1, e2, e3, why]

theorem leNat_natLe (k n : Nat) : leNat (natLe k n) = n % 256 ^ k := by
  induction k generalizing n with
  | zero => simp [natLe, leNat, Nat.mod_one]
  | succ k ih =>
    simp only [natLe, leNat, ih, BitVec.toNat_ofNat]
    have h : (256 : Nat) ^ (k + 1) = 256 * 256 ^ k := by rw [Nat.pow_succ, Nat.mul_comm]
    rw [h, Nat.mod_mul]

theorem natLe_length (k n : Nat) : (natLe k n).length = k := by
  induction k generalizing n with
  | zero => rfl
  | succ k ih => simp [natLe, ih]

theorem felt0_length : felt0.length = 36880 := by
  unfold felt0
  rw [List.length_append, flatten_length, flatten_length]
  decide +kernel

/-- A control record: its frame, the CRC over frame and payload, the payload. -/
def recFrame (ty len : Nat) : Bytes := bytesOf 12 [(0, 2, ty), (4, 4, len)]
def recBytesOf (ty len : Nat) (body : Bytes) : Bytes :=
  recFrame ty len ++ natLe 4 (crc32c (recFrame ty len ++ body)).toNat ++ body

theorem frame_ok (ty len : Nat) (body : Bytes) (hl : body.length = len) (h1 : (recFrame ty len).length = 12)
    (h2 : fld (recFrame ty len) 0 2 = ty) (h3 : fld (recFrame ty len) 4 4 = len) (h4 : fld (recFrame ty len) 2 2 = 0)
    (h5 : zeroAt (recFrame ty len) 8 4 = true) (hc : isControl ty = true) (ht : ty ≠ 3) :
    frameWhy false (recBytesOf ty len body) = ([], { type := ty, index := 0, body := body }) := by
  have hn := natLe_length 4 (crc32c (recFrame ty len ++ body)).toNat
  have hlt := (crc32c (recFrame ty len ++ body)).isLt
  have take12 (o n : Nat) (h : o + n ≤ 12) : ((recBytesOf ty len body).drop o).take n = ((recFrame ty len).drop o).take n := by
    unfold recBytesOf
    rw [List.append_assoc, List.drop_append_of_le_length (by omega), List.take_append_of_le_length (by simp; omega)]
  have d16 : (recBytesOf ty len body).drop 16 = body := by
    unfold recBytesOf; exact List.drop_left' (by simp [h1, hn])
  have t12 : (recBytesOf ty len body).take 12 = recFrame ty len := by
    unfold recBytesOf; rw [List.append_assoc]; exact List.take_left' h1
  have c12 : ((recBytesOf ty len body).drop 12).take 4 = natLe 4 (crc32c (recFrame ty len ++ body)).toNat := by
    unfold recBytesOf
    rw [List.append_assoc, List.drop_left' h1]; exact List.take_left' hn
  have f0 : fld (recBytesOf ty len body) 0 2 = ty := by rw [fld, take12 0 2 (by omega), ← fld, h2]
  have f2 : fld (recBytesOf ty len body) 2 2 = 0 := by rw [fld, take12 2 2 (by omega), ← fld, h4]
  have f4 : fld (recBytesOf ty len body) 4 4 = len := by rw [fld, take12 4 4 (by omega), ← fld, h3]
  have f12 : fld (recBytesOf ty len body) 12 4 = (crc32c (recFrame ty len ++ body)).toNat := by
    rw [fld, c12, leNat_natLe]; exact Nat.mod_eq_of_lt (by simpa using hlt)
  have z8 : zeroAt (recBytesOf ty len body) 8 4 = true := by rw [zeroAt, take12 8 4 (by omega), ← zeroAt, h5]
  have hlen : (recBytesOf ty len body).length = len + 16 := by simp [recBytesOf, h1, hn, hl]; omega
  have hr : 1 ≤ ty ∧ ty ≤ 10 := by simp [isControl] at hc; omega
  have htake : List.take len body = body := List.take_of_length_le (by omega)
  simp [frameWhy, recPayload, f0, f2, f4, f12, z8, hlen, t12, d16, htake, hc, why]
  omega

def t0Body : Bytes := bytesOf 16 [(0, 2, 256)] ++ List.replicate 1024 0x44
def entryOf (o n : Nat) : Bytes := withCrc (natLe 8 o ++ natLe 4 n)
/-- Header and directory of the load image. -/
def loadFront : Bytes :=
  header 0x4D524E59 0 0 4 38304 0 ++ (entryOf 192 48 ++ entryOf 240 112 ++ entryOf 352 36896 ++ entryOf 37248 1056)
def rec1 : Bytes := recBytesOf 1 32 stage0
def rec2 : Bytes := recBytesOf 2 96 (program 0 [word 4 []])
def rec3 : Bytes := recBytesOf 5 36880 felt0
def rec4 : Bytes := recBytesOf 6 1040 t0Body
def loadImage : Bytes := loadFront ++ (rec1 ++ (rec2 ++ (rec3 ++ rec4)))
def recs4 : List Rec :=
  [{ type := 1, index := 0, body := stage0 }, { type := 2, index := 0, body := program 0 [word 4 []] },
   { type := 5, index := 0, body := felt0 }, { type := 6, index := 0, body := t0Body }]

theorem recBytesOf_length (ty len : Nat) (body : Bytes) (hl : body.length = len) (h1 : (recFrame ty len).length = 12) :
    (recBytesOf ty len body).length = len + 16 := by
  simp [recBytesOf, h1, hl, natLe_length]; omega
theorem l0 : loadFront.length = 192 := by decide +kernel
theorem l1 : rec1.length = 48 := by decide +kernel
theorem l2 : rec2.length = 112 := by decide +kernel
theorem l3 : rec3.length = 36896 := recBytesOf_length _ _ _ felt0_length (by decide +kernel)
theorem l4 : rec4.length = 1056 := by decide +kernel
theorem load_length : loadImage.length = 38304 := by
  simp only [loadImage, List.length_append, l0, l1, l2, l3, l4]

theorem recBytes_at (a r b e : Bytes) (ho : fld e 0 8 = a.length) (hn : fld e 8 4 = r.length) (h : 16 ≤ r.length) :
    recBytes (a ++ (r ++ b)) e = some r := by
  have h1 : ¬ (fld e 8 4 < 16 ∨ (a ++ (r ++ b)).length < fld e 0 8 + fld e 8 4) := by
    simp only [List.length_append, ho, hn]; omega
  simp only [recBytes, Bool.or_eq_true, decide_eq_true_eq]
  rw [if_neg h1, ho, List.drop_left' rfl, hn, List.take_left' rfl]

theorem rb1 : recBytes loadImage (entryOf 192 48) = some rec1 :=
  recBytes_at _ _ _ _ (by rw [l0]; decide +kernel) (by rw [l1]; decide +kernel) (by rw [l1]; omega)
theorem rb2 : recBytes loadImage (entryOf 240 112) = some rec2 := by
  have h := recBytes_at (loadFront ++ rec1) rec2 (rec3 ++ rec4) (entryOf 240 112)
    (by simp only [List.length_append, l0, l1]; decide +kernel) (by rw [l2]; decide +kernel) (by rw [l2]; omega)
  simpa only [loadImage, List.append_assoc] using h
theorem rb3 : recBytes loadImage (entryOf 352 36896) = some rec3 := by
  have h := recBytes_at (loadFront ++ (rec1 ++ rec2)) rec3 rec4 (entryOf 352 36896)
    (by simp only [List.length_append, l0, l1, l2]; decide +kernel) (by rw [l3]; decide +kernel) (by rw [l3]; omega)
  simpa only [loadImage, List.append_assoc] using h
theorem rb4 : recBytes loadImage (entryOf 37248 1056) = some rec4 := by
  have h := recBytes_at (loadFront ++ (rec1 ++ (rec2 ++ rec3))) rec4 [] (entryOf 37248 1056)
    (by simp only [List.length_append, l0, l1, l2, l3]; decide +kernel) (by rw [l4]; decide +kernel) (by rw [l4]; omega)
  simpa only [loadImage, List.append_assoc, List.append_nil] using h

theorem f1 : frameWhy false rec1 = ([], { type := 1, index := 0, body := stage0 }) := by
  apply frame_ok <;> decide +kernel
theorem f2 : frameWhy false rec2 = ([], { type := 2, index := 0, body := program 0 [word 4 []] }) := by
  apply frame_ok <;> decide +kernel
theorem f3 : frameWhy false rec3 = ([], { type := 5, index := 0, body := felt0 }) :=
  frame_ok 5 36880 felt0 felt0_length (by decide +kernel) (by decide +kernel) (by decide +kernel) (by decide +kernel)
    (by decide +kernel) (by decide) (by decide)
theorem f4 : frameWhy false rec4 = ([], { type := 6, index := 0, body := t0Body }) := by
  apply frame_ok <;> decide +kernel

theorem front_take (n o : Nat) (h : o + n ≤ 192) : (loadImage.drop o).take n = (loadFront.drop o).take n := by
  unfold loadImage
  rw [List.drop_append_of_le_length (by rw [l0]; omega), List.take_append_of_le_length (by simp [l0]; omega)]
theorem load_head : imgHead loadImage = loadFront.take 128 := by
  unfold imgHead
  rw [load_length]
  have h := front_take 128 0 (by omega)
  simpa [zeros] using h

def look0 (en : Nat) : Look :=
  { img := loadImage, poison := [], coded := false, h := loadFront.take 128, en := en, patch := false }

theorem load_dir : dirEntries loadImage (loadFront.take 128)
    = [(0, entryOf 192 48), (1, entryOf 240 112), (2, entryOf 352 36896), (3, entryOf 37248 1056)] := by
  have hr : hRecords (loadFront.take 128) = 4 := by decide +kernel
  have hd : hDir (loadFront.take 128) = 128 := by decide +kernel
  have e0 : (loadFront.drop 128).take 16 = entryOf 192 48 := by decide +kernel
  have e1 : (loadFront.drop 144).take 16 = entryOf 240 112 := by decide +kernel
  have e2 : (loadFront.drop 160).take 16 = entryOf 352 36896 := by decide +kernel
  have e3 : (loadFront.drop 176).take 16 = entryOf 37248 1056 := by decide +kernel
  have hl : List.range 4 = [0, 1, 2, 3] := rfl
  simp only [dirEntries, hr, hl, List.map_cons, List.map_nil, dirAt, hd, Nat.mul_zero, Nat.add_zero, Nat.mul_one, Nat.reduceMul, Nat.reduceAdd]
  rw [front_take 16 128 (by omega), front_take 16 144 (by omega), front_take 16 160 (by omega), front_take 16 176 (by omega),
    e0, e1, e2, e3]

theorem rangePoison_nil (a b : Nat) : rangePoison [] a b = false := rfl

theorem recWhy_ok (en : Nat) (before : List Rec) (e r : Bytes) (x : Rec) (h1 : recBytes loadImage e = some r)
    (h2 : frameWhy false r = ([], x)) (h3 : Machine.recWhy en (loadFront.take 128) false before x = []) :
    (look0 en).recWhy before e = ([], some x, false) := by
  simp [Look.recWhy, look0, h1, h2, h3, rangePoison_nil, why]

theorem walk_four (k : Look) (hc : k.coded = false) (e1 e2 e3 e4 : Bytes) (r1 r2 r3 r4 : Rec)
    (w1 : k.recWhy [] e1 = ([], some r1, false)) (w2 : k.recWhy [r1] e2 = ([], some r2, false))
    (w3 : k.recWhy [r1, r2] e3 = ([], some r3, false)) (w4 : k.recWhy [r1, r2, r3] e4 = ([], some r4, false)) :
    k.walk [(0, e1), (1, e2), (2, e3), (3, e4)] [] (0, 0) = .inr ([(0, r1), (1, r2), (2, r3), (3, r4)], 0, 0) := by
  have hl : least [] = none := rfl
  simp [Look.walk, w1, w2, w3, w4, hl, hc]

theorem walk_ok (en : Nat) (h1 : Machine.recWhy en (loadFront.take 128) false [] recs4[0] = [])
    (h2 : Machine.recWhy en (loadFront.take 128) false (recs4.take 1) recs4[1] = [])
    (h3 : Machine.recWhy en (loadFront.take 128) false (recs4.take 2) recs4[2] = [])
    (h4 : Machine.recWhy en (loadFront.take 128) false (recs4.take 3) recs4[3] = []) :
    (look0 en).walk [(0, entryOf 192 48), (1, entryOf 240 112), (2, entryOf 352 36896), (3, entryOf 37248 1056)] [] (0, 0)
      = .inr ([(0, recs4[0]), (1, recs4[1]), (2, recs4[2]), (3, recs4[3])], 0, 0) :=
  walk_four _ rfl _ _ _ _ _ _ _ _ (recWhy_ok en _ _ _ _ rb1 f1 h1) (recWhy_ok en _ _ _ _ rb2 f2 h2)
    (recWhy_ok en _ _ _ _ rb3 f3 h3) (recWhy_ok en _ _ _ _ rb4 f4 h4)

def rota4 : Array Nat := (List.replicate 256 4).toArray
theorem t0_rota (k : Nat) (h : k < 8) : t0Rota t0Body k = rota4 := by
  have he : t0Entries t0Body = 256 := by decide +kernel
  have hd : t0Body.drop (16 + k * 128) = List.replicate (1024 - k * 128) 0x44 := by
    have h16 : (bytesOf 16 [(0, 2, 256)]).length = 16 := by decide +kernel
    unfold t0Body
    rw [← List.drop_drop, List.drop_left' h16, List.drop_replicate]
  have hf : ((List.replicate 128 (0x44 : Byte)).map fun x => [x.toNat % 16, x.toNat / 16]).flatten = List.replicate 256 4 := by
    decide +kernel
  have hm : Nat.min 128 (1024 - k * 128) = 128 := Nat.min_eq_left (by omega)
  unfold t0Rota
  simp only [he, Nat.reduceDiv, hd, List.take_replicate]
  rw [show min 128 (1024 - k * 128) = 128 from hm, hf, rota4]
theorem t0_rotas : (List.range 8).map (t0Rota t0Body) = List.replicate 8 rota4 := by
  rw [List.eq_replicate_iff]
  refine ⟨rfl, fun b hb => ?_⟩
  obtain ⟨k, hk, rfl⟩ := List.mem_map.mp hb
  exact t0_rota k (List.mem_range.mp hk)
theorem getD_row (n x i : Nat) : ((List.replicate n x).toArray.getD i 0) = if i < n then x else 0 := by
  by_cases h : i < n <;> simp [Array.getD, h]
theorem rota4_maint : (fun i => rota4.getD i 0 == 4) = fun i => decide (i < 256) := by
  funext i
  rw [rota4, getD_row]
  by_cases h : i < 256 <;> simp [h]
theorem t0_ok (en : Nat) (h : bitsOf en 7 0 ≠ 0) : t0Why en 0 t0Body = [] := by
  have he : t0Entries t0Body = 256 := by decide +kernel
  have hl : t0Body.length = 1040 := by decide +kernel
  have hz : zeroAt t0Body 2 14 = true := by decide +kernel
  have hp : isPow2 256 = true := by decide +kernel
  have c1 : (cycMin 256 256 (fun i => rota4.getD i 0 == 4) < cdiv (72 * 256) 1000) = False := by
    rw [rota4_maint, eq_iff_iff, iff_false]; decide +kernel
  have c2 : (cycMin 256 128 (fun i => rota4.getD i 0 == 4) < 9) = False := by
    rw [rota4_maint, eq_iff_iff, iff_false]; decide +kernel
  have c3 : turnShort rota4 = false := by decide +kernel
  have c4 : (rota4.any fun x => decide (5 < x) && x != 15) = false := by decide +kernel
  have any8 (q : Array Nat → Bool) (hq : q rota4 = false) : (List.replicate 8 rota4).any q = false := by
    rw [List.any_eq_false]
    intro r hr
    rw [(List.mem_replicate.mp hr).2, hq]
    decide
  unfold t0Why
  simp only [he, t0_rotas, hl, hz, hp]
  rw [any8 _ c4, any8 _ (by simp only [c1, c2, c3]; rfl)]
  simp [why, h]

def tiles0 : Nat := base.fuse.tileMask
theorem felt_rec (en : Nat) : Machine.recWhy en (loadFront.take 128) false (recs4.take 2) recs4[2] = [] := by
  have hi : hInterval (loadFront.take 128) = 16000 := by decide +kernel
  have hm : hMaint (loadFront.take 128) = 16 := by decide +kernel
  have hb : ((recs4.take 2).any fun q => q.type == recs4[2].type && q.index == recs4[2].index) = false := by rfl
  have hf := felt0_ok en
  simp only [Machine.recWhy, hb, hi, hm]
  simp [recs4, hf, why]

theorem t0_rec : Machine.recWhy tiles0 (loadFront.take 128) false (recs4.take 3) recs4[3] = [] := by
  have hb : ((recs4.take 3).any fun q => q.type == recs4[3].type && q.index == recs4[3].index) = false := by rfl
  have hf := t0_ok tiles0 (by decide +kernel)
  simp only [Machine.recWhy, hb]
  simp [recs4, hf, why]

theorem judge_ok : (look0 tiles0).judge 38304 none (loadFront.take 128)
    = .inr ([(0, recs4[0]), (1, recs4[1]), (2, recs4[2]), (3, recs4[3])], 0, 0) := by
  have h1 : headWhy tiles0 38304 none (loadFront.take 128) = [] := by decide +kernel
  have h2 : hDir (loadFront.take 128) + 16 * hRecords (loadFront.take 128) = 192 := by decide +kernel
  have h3 : fld (loadFront.take 128) 8 8 = 38304 := by decide +kernel
  have hi : (look0 tiles0).img = loadImage := rfl
  have he : (look0 tiles0).en = tiles0 := rfl
  have hp : (look0 tiles0).poison = [] := rfl
  have hf : ((dirEntries loadImage (loadFront.take 128)).find? fun (_, e) => !crcOkAt e 12) = none := by
    rw [load_dir]; decide +kernel
  have hw := walk_ok tiles0 (by decide +kernel) (by decide +kernel) (felt_rec tiles0) t0_rec
  rw [← load_dir] at hw
  unfold Look.judge
  simp only [hi, he, hp, h1, h2, h3, load_length, rangePoison_nil, hf, hw]
  simp [why, least]

def loadDesc : Bytes := desc 0x10 [(16, 1, 2), (32, 4, 38304)]
def loadImg : Img :=
  { hdr := loadFront.take 128, recs := recs4, own := [(0, recs4[0]), (1, recs4[1]), (2, recs4[2]), (3, recs4[3])]
    patch := false, en := tiles0, owner := 0 }
def loading : State := after (withCmd base loadDesc) 0 0 (cmdOf loadDesc)

theorem final_ok : loading.finalWhy loadImg [] = none := by decide +kernel

theorem checkLoad_good (s : State) (o len en : Nat) (img h : Bytes) (own : List (Nat × Rec)) (hh : imgHead img = h)
    (he : s.fuse.tileMask = en)
    (hj : ({ img := img, poison := [], coded := false, h := h, en := en, patch := false } : Look).judge len none h
      = .inr (own, 0, 0))
    (hf : s.finalWhy { hdr := h, recs := own.map (·.2), own := own, patch := false, en := en, owner := o } [] = none) :
    s.checkLoad o len false { data := img }
      = .good { hdr := h, recs := own.map (·.2), own := own, patch := false, en := en, owner := o } 0 0 := by
  unfold State.checkLoad
  simp only [hh, he, hj, asVerdict, hf]

theorem check_ok : loading.checkLoad 0 38304 false { data := loadImage } = .good loadImg 0 0 :=
  checkLoad_good loading 0 38304 tiles0 loadImage _ _ load_head (by decide +kernel) judge_ok final_ok

theorem mode_ok : (withCmd base loadDesc).modeFree loading (cmdOf loadDesc) { data := loadImage } := by
  have h : ∀ (s : State) (p : Nat) (d : Rd), (s.part p).feat 4 = true → s.profileDenied p d = false := by
    intro s p d h
    simp [State.profileDenied, h]
  exact ⟨h _ _ _ (by decide +kernel), h _ _ _ (by decide +kernel)⟩

theorem image_ok : loading.imageRead (cmdOf loadDesc) { data := loadImage } = { data := loadImage } := by
  have h0 : loading.remoteSeg (cmdOf loadDesc).part ((cmdOf loadDesc).f 16 1) = none := by decide +kernel
  have h1 : (cmdOf loadDesc).f 32 4 = 38304 := by decide +kernel
  have h2 : FMap.find (loading.part (cmdOf loadDesc).part).segs ((cmdOf loadDesc).f 16 1)
      = some { base := 0x10000, limit := 0x400000, tier := 2 } := by decide +kernel
  unfold State.imageRead State.operOf State.imageOf State.readSeg
  simp only [h0, h1, h2]
  simp [List.take_of_length_le (Nat.le_of_eq load_length)]

end Sys2Proof.Tests.Image
end

