-- ==== Sys2Proof/Tests/Slice0.lean ====
section
/-! SUPPORT. The smoke test of well-formedness, a term each check refuses, and the spec's own worked
examples, one small theorem each. Each example's numbers come from the paragraph its docstring names; those of the
ciphers are the examples the standards of Table 0.6 print. -/

namespace Sys2Proof.Tests.Slice0
set_option Elab.async false
open Sys2Proof.Machine

/-! ### Well-formedness refuses -/

theorem test_wf_ring : (Instr.ringEnable 4096).wf = false := by decide
theorem test_wf_seq : (Instr.reamUnload 0 4294967296).wf = false := by decide
theorem test_wf_post : (Instr.watchdogTimeoutEnd (2 ^ 44)).wf = false := by decide
theorem test_wf_part : (Instr.attach 16).wf = false := by decide
theorem test_wf_seg : (Instr.segmentDrainDone 0 8).wf = false := by decide
theorem test_wf_slot : (Instr.keyUnwrapDone 4096).wf = false := by decide
theorem test_wf_qp : (Instr.ackTimeout 4096).wf = false := by decide
theorem test_wf_win : (Instr.windowDrainDone 0 16).wf = false := by decide
theorem test_wf_port : (Instr.portEnable 16).wf = false := by decide
theorem test_wf_tile : (Instr.weightLoadDone 72).wf = false := by decide
theorem test_wf_ctx : (Instr.fill 0 4).wf = false := by decide
theorem test_wf_class : (Instr.putComplete 0 4).wf = false := by decide
theorem test_wf_table : (Instr.poisonRepair 0 1024 0).wf = false := by decide
theorem test_wf_ctrl : (Instr.t1PackageLost 4 0).wf = false := by decide
theorem test_wf_pkg : (Instr.t1PackageLost 0 6).wf = false := by decide
theorem test_wf_group : (Instr.tileGroupUsable 9).wf = false := by decide
theorem test_wf_die : (Instr.dramSensorReading 0 4 0).wf = false := by decide
theorem test_wf_core : (Instr.watchdogCore 8).wf = false := by decide
theorem test_wf_source : (Instr.coalesceTimerExpiry 512).wf = false := by decide
theorem test_wf_vec : (Instr.msixUnmask 2048).wf = false := by decide
theorem test_wf_hostAddr : (Instr.cxlMemRead (2 ^ 64)).wf = false := by decide
theorem test_wf_busAddr : (Instr.rcRead 0x130000).wf = false := by decide
theorem test_wf_speed : (Instr.linkRecovery 4 1).wf = false := by decide
theorem test_wf_width : (Instr.hostLinkL0 1 3 true).wf = false := by decide
theorem test_wf_psn : (Instr.nakReceive 0 0 (2 ^ 24)).wf = false := by decide
theorem test_wf_bit : (Instr.d2dFlitReplay 2).wf = false := by decide
theorem test_wf_kind : (Instr.junctionSensorReading 3 0 0).wf = false := by decide
theorem test_wf_byte : (Instr.setTid 256).wf = false := by decide
theorem test_wf_serial : (Instr.partnerRestoreRequest (2 ^ 128)).wf = false := by decide
theorem test_wf_bytes : (Instr.doorbellRereadData 0 [0]).wf = false := by decide
theorem test_wf_sheets : (Instr.beaterBlockDecode 0 0 [0]).wf = false := by decide
theorem test_wf_rd : (Instr.packInstall ⟨[], [0]⟩).wf = false := by decide
theorem test_wf_read : (Instr.descriptorReadData 0 []).wf = false := by decide
theorem test_wf_passes : (Instr.descriptorReadData 4095 [⟨zeros 64, [0]⟩]).wf = true := by decide

/-- No row of the table has bits, so no word is a command. -/
theorem test_no_bits : decodeTableWord 64 0 = none := rfl

/-! ### Worked examples -/

/-- Table 0.4: the check value of CRC-32C over "123456789". -/
theorem test_crc32c : crc32c [0x31, 0x32, 0x33, 0x34, 0x35, 0x36, 0x37, 0x38, 0x39] = 0xE3069283#32 := by decide +kernel

/-- The example after R134: eight shards, seed 0, rows 40 to 47 share local 5. -/
theorem test_shard_run : (List.range 8).map (fun i => shardOf (40 + i) 0 3) =
    [(4, 5), (5, 5), (6, 5), (7, 5), (0, 5), (1, 5), (2, 5), (3, 5)] := by decide

/-- The same example: rows 5, 13 and 21. -/
theorem test_shard_stride : [5, 13, 21].map (fun p => shardOf p 0 3) = [(5, 0), (0, 1), (3, 2)] := by decide

/-- `place` undone. -/
theorem test_shard_back : rowAt 1 5 0 3 = 45 := by decide

/-- The example after R170: key 0, sheet 0x2D47 has index 5, page 0 and sheet 5 of the page. -/
theorem test_t0_place : (t0Place 0x2D47 0).2.2 = (0, 5) := by decide

/-- The example after R180: controller 2, group sheet 249,984, stripe 49,996, package 3. -/
theorem test_t1_place : (t1Ctrl 1000000, t1Group 1000000, t1Stripe 1000000, t1Pkg 1000000) =
    (2, 249984, 49996, 3) := by decide

/-- The inverse of the group sheet on its controller. -/
theorem test_t1_back : t1SheetOf 2 249984 = 1000000 := by decide

/-- The example after R98: MXFP4 with amax 7.5 stores scale 127; 7.5 becomes 6 and is counted, 5.0 becomes 4,
0.3 becomes 0.5 and -2.4 becomes -2. -/
theorem test_mxfp4 : mxBlock 0x08 false (([0x40F00000, 0x40A00000, 0x3E99999A, 0xC019999A] : List Word).map dec32)
    [0, 0, 0, 0] = (127, [(7, true), (6, false), (1, false), (12, false)]) := by decide

/-- The example after R101: M 1,374,389,535, S 40 and Z 0 multiply by 0.00125. -/
theorem test_requantise : rescaleInt 100000 1374389535 40 0 (-128) 127 = (125, false) := by decide

/-- The same numbers beyond the output's range. -/
theorem test_requantise_clips : rescaleInt 200000 1374389535 40 0 (-128) 127 = (127, true) := by decide

/-- The table of the example after R156: ROW_ADAGRAD, LR 0.01 and EPS 1e-8. -/
def adagrad : Bytes := patchBytes (patchBytes (patchBytes (zeros 256) 96 [1]) 100 (natLe 4 0x3C23D70A)) 104 (natLe 4 0x322BCC77)

/-- The example after R156: OPT0 becomes 0.1425 and the row 0.4894038, -0.25, 1.0, 0.1144038. -/
theorem test_adagrad : optimise adagrad [0x3F000000#32, 0xBE800000#32, 0x3F800000#32, 0x3E000000#32]
    [0x3ECCCCCD#32, 0#32, 0#32, 0x3ECCCCCD#32] 0x3D800000#32 one32 0 0 =
    ([0x3EFA9321#32, 0xBE800000#32, 0x3F800000#32, 0x3DEA4C82#32], 0x3E11EB86#32) := by decide +kernel

/-- The example after R301: CPU 8 has priority 30, CPUs 9 and 10 have 10, CPU 11 is offline; 9 is taken. -/
theorem test_priority : choosePrio [(8, 0x11E#32), (9, 0x10A#32), (10, 0x10A#32), (11, 0#32)] = some 9 := by decide

/-- The example after R378: 0x0002540C selects FEED_BUBBLE of T37 in the snapshot bank, of width 64 in domain 4. -/
theorem test_cnt_sel : (State.reset.cntSelect 0x0002540C#32).cntInfo = 0x00040040#32 := by decide +kernel

/-- Table 4.3: 1.0 is E4M3 code 0x38, and 448 is the largest magnitude. -/
theorem test_e4m3 : enc32 (decE4M3 0x38) = one32 ∧ decE4M3 0x7F = .nan ∧ enc32 (decE4M3 0x7E) = 0x43E00000#32 := by
  decide

/-- FP32 rounds a midpoint to the even significand: 1 + 2^-24 is 1. -/
theorem test_fadd_even : fadd one32 0x33800000#32 = one32 ∧ fadd 0x3F800001#32 0x33800000#32 = 0x3F800002#32 := by
  decide

/-- A fused multiply-add rounds once: (1 + 2^-12)^2 - 1 keeps its last bit. -/
theorem test_ffma_once : ffma 0x3F800800#32 0x3F800800#32 0xBF800000#32 = 0x3A000400#32 := by decide

/-- R7: a lock bit stays set when 0 is written to it. -/
theorem test_lock : ((State.reset.writeLock 0xA0004 1#32).writeLock 0xA0004 0#32).locked 0xA0004 = true := by
  decide +kernel

/-- GB/T 32905: the hash of "abc". -/
theorem test_sm3 : beNat (sm3 [0x61, 0x62, 0x63]) =
    0x66C7F0F462EEEDD9D1F2D46BDC10E4E24167C4875CF2F7A2297DA02B8F4BA8E0 := by decide +kernel

/-- GB/T 32907: one block under a key that equals it. -/
theorem test_sm4 : let b := natBe 16 0x0123456789ABCDEFFEDCBA9876543210
    beNat (sm4Block b b) = 0x681EDF34D206965E86B3E94F536E4246 := by decide +kernel

/-- FIPS 197, C.3: one block of AES-256. -/
theorem test_aes : beNat (aesBlock ((List.range 32).map (BitVec.ofNat 8)) (natBe 16 0x00112233445566778899AABBCCDDEEFF)) =
    0x8EA2B7CA516745BFEAFC49904B496089 := by decide +kernel

/-- A step on an empty queue stops at nothing. -/
theorem test_idle : ∃ t, step State.reset = .next t := ⟨_, rfl⟩

end Sys2Proof.Tests.Slice0
end

