-- ==== Sys2Proof/Tests/WitnessFrame.lean ====
section
/-! SUPPORT. States and operands that meet the hypotheses of the statements over every command. -/

namespace Sys2Proof.Tests.Frame
set_option Elab.async false
open Sys2Proof.Machine Sys2Proof.Tests
set_option maxRecDepth 100000

def sec (c : Sec) (rs : FMap Word) : State := { base with sec := c, regs := rs }
def enabled2 : FMap Word := [(0xB0010, 2#32)]
def bundle5 : Bytes := [0, 0, 0, 0, 0, 0, 5]

theorem reset_stores : ¬ State.reset.vecStores 0 0 0 := by
  rintro ⟨v, h, _⟩
  rw [show State.reset.ctx? 0 0 = none by decide +kernel] at h
  cases h

theorem reset_idle (a : Nat) : ∀ j ∈ (State.reset.tile 0).vec, ¬ j.stores 0 a := by
  intro j h
  rw [show (State.reset.tile 0).vec = [] by decide +kernel] at h
  cases h

theorem witness_StepInvariant :
  (∃ (s : State) (t : State), s.memSound ∧ s.queueWf ∧ step s = .next t) :=
  ⟨State.reset, _, by unfold State.memSound; decide, by intro c h; simp [State.reset] at h, rfl⟩

theorem witness_CommandFrames :
  (∃ (c : Instr) (s : State) (t : State), exec c s = .next t)
  ∧ (∃ (i : Instr) (s : State) (t : State) (n c op a : Nat), i.vec = some (n, c, op) ∧
      s.memSound ∧ exec i s = .next t ∧ ¬ s.vecStores n c a ∧ (∀ j ∈ (s.tile n).vec, ¬ j.stores n a))
  ∧ (∃ (s : State) (t : State) (n a : Nat), s.memSound ∧ exec (.vectorInstructionDone n) s = .next t ∧
      (∀ j ∈ (s.tile n).vec, ¬ j.stores n a))
  ∧ (∃ (i : Instr) (s : State) (u : State) (t : State) (n : Nat) (c : Nat) (op : Nat) (w : Bytes) (v : Ctx),
      i.vec = some (n, c, op) ∧ s.issuing n c op w v u ∧ u.vecReady n w (v.frame (vDk w)) ∧ exec i s = .next t) :=
  ⟨⟨.quote, base, _, rfl⟩,
   ⟨.add 0 0, State.reset, _, 0, 0, 0x10, 0, by decide +kernel, by unfold State.memSound; decide, rfl, reset_stores, reset_idle 0⟩,
   ⟨State.reset, _, 0, 0, by unfold State.memSound; decide, rfl, reset_idle 0⟩,
   ⟨.add 0 0, atWord (vword 0x10 []), _, _, 0, 0, 0x10, _, ctx0, by decide +kernel, issuing_ok (by decide +kernel),
       vecReady_ok (by decide +kernel), rfl⟩⟩

theorem witness_Locks :
  (∃ (s : State) (a : Nat) (v : Word), a ∈ lockRegs ∧ v.getLsbD 0 = true)
  ∧ (∃ (s : State) (a : Nat) (v : Word), a ∈ lockRegs ∧ v.getLsbD 0 = false)
  ∧ (∃ (s : State) (a : Nat), a ∈ lockRegs ∧ s.powered = true)
  ∧ (∃ (c : Instr) (s : State) (t : State) (a : Nat), a ∈ lockRegs ∧ s.locked a = true ∧ exec c s = .next t)
  ∧ (∃ (c : Instr) (s : State) (t : State) (a : Nat), a ∈ lockRegs ∧ s.locked a = true ∧ c.mayColdReset = false ∧
      exec c s = .next t) :=
  ⟨⟨base, 0xA0004, 1, by decide +kernel⟩,
   ⟨base, 0xA0004, 0, by decide +kernel⟩,
   ⟨base, 0xA0004, by decide +kernel⟩,
   ⟨.quote, { base with regs := [(0xA0004, 1#32)] }, _, 0xA0004, by decide +kernel, by decide +kernel, rfl⟩,
   ⟨.quote, { base with regs := [(0xA0004, 1#32)] }, _, 0xA0004, by decide +kernel, by decide +kernel,
       by decide +kernel, rfl⟩⟩

theorem witness_RollbackFloor :
  (∃ (c : Instr) (s : State) (t : State), exec c s = .next t)
  ∧ (∃ (s : State), s.sec.busy = false ∧ s.mbxLen = 0 ∧ s.updateEn = true ∧ s.fwSvn = s.fuse.svn)
  ∧ (∃ (s : State), s.sec.busy = false ∧ s.mbxLen = 0 ∧ s.updateEn = true ∧ s.fuse.svn < s.fwSvn)
  ∧ (∃ (s : State) (out : Bytes), s.sec.result = some (mbOk, out) ∧ s.sec.code = 0x11 ∧ s.fuse.svn ≤ s.fwSvn)
  ∧ (∃ (s : State) (b : Rd), s.sec.busy = false ∧ s.mbxLen = 12 ∧ s.imgLen ≤ 2 ^ 25 ∧ bundleSvn b.data < s.fuse.svn)
  ∧ (∃ (s : State) (st : Nat) (out : Bytes), s.sec.result = some (st, out) ∧ st ≠ mbOk)
  ∧ (∃ (s : State), s.powered = true)
  ∧ (∃ (s : State), s.powered = true ∧ s.sec.code = 0x11 ∧ s.sec.isPending = false ∧ s.fuse.svn ≤ s.fwSvn ∧
      s.slotBoots s.sec.bootSlot = true) :=
  ⟨⟨.quote, base, _, rfl⟩,
   ⟨sec { slotA := zeros 8 } enabled2, by decide +kernel⟩,
   ⟨sec { slotA := bundle5 } enabled2, by decide +kernel⟩,
   ⟨sec { slotA := bundle5, result := some (mbOk, []), code := 0x11 } [], [], by decide +kernel⟩,
   ⟨{ sec {} [(0xB0008, 12#32)] with fuse := { Fuse.reset with svn := 1 } }, { data := [] }, by decide +kernel⟩,
   ⟨sec { result := some (9, []) } [], 9, [], by decide +kernel⟩,
   ⟨base, by decide +kernel⟩,
   ⟨sec { code := 0x11 } [], by decide +kernel, by decide +kernel, by decide +kernel, Nat.zero_le _,
       by simp [State.slotBoots, sec, base, State.reset, Fuse.reset]⟩⟩

theorem witness_CounterReads :
  (∃ (s : State), (counterClears s.tel.id = false ∨ s.tel.selErr = true ∨ s.tel.bank = true))
  ∧ (∃ (s : State), s.tel.selErr = false ∧ counterClears s.tel.id = true ∧ s.tel.bank = false)
  ∧ (∃ (s : State) (w : Word), s.tel.cntHi = some w)
  ∧ (∃ (s : State), s.tel.cntHi = none) :=
  ⟨⟨base, by decide +kernel⟩,
   ⟨{ base with tel := { id := 0x024, selErr := false } }, by decide +kernel⟩,
   ⟨{ base with tel := { cntHi := some 5 } }, 5, by decide +kernel⟩,
   ⟨base, by decide +kernel⟩⟩

end Sys2Proof.Tests.Frame
end

