-- ==== Sys2Proof/Tests/WitnessPosts.lean ====
section
/-! SUPPORT. States and operands that meet the hypotheses of each clause about posts, windows,
    partners and restoring. -/

namespace Sys2Proof.Tests.Posts
set_option Elab.async false
open Sys2Proof.Machine Sys2Proof.Tests
set_option maxRecDepth 100000

def farSeg : Seg := { base := 0x10000, limit := 0x400000, tier := 2, remote := true, qp := 5, rkey := 7 }
def farInput : State :=
  { onPart plain 0 { part0 with segs := FMap.set segs0 2 farSeg } with net := { qps := [(5, { st := 1 })] } }
def codedDesc : Bytes := patchBytes postDesc 7 [1]
def coded : State := { plain with ream := { plain.ream with hdr := patchBytes plain.ream.hdr 40 (natLe 4 4) } }
def block0 : Bytes := let h := bytesOf 12 [(0, 1, 4), (1, 1, 0), (2, 2, 4)]; withCrc h ++ zeros 240
def ready : State :=
  let s := withPost plain postDesc { post0 with phase := 2 }
  { s with ream := { s.ream with queue := [0] }, clk := [(18, 2000)] }
def updPost : Post := { post0 with lists := [{ table := 0, kind := 1, entries := 0, srcOff := 0, off := 0, size := 256 }], phase := 2 }
def updReady : State :=
  let s := withPost plain postDesc updPost
  { s with ream := { s.ream with queue := [0] }, clk := [(18, 2000)] }
theorem slot_ok {s : State} {k : Nat} {v : Post} (h : s.ream.resident = true ∧ s.ream.admission = true ∧ s.ream.slotDone = false
    ∧ s.ream.interval < hSlots s.ream.hdr ∧ s.ream.mode ≠ 0x12
    ∧ ((State.slotChoice { s with ream := { s.ream with slotDone := true } } s.ream.interval).map Prod.fst) = some k
    ∧ s.post? k = some v) : s.slotFor k v :=
  ⟨h.1, h.2.1, h.2.2.1, h.2.2.2.1, fun e => absurd e h.2.2.2.2.1, by
    obtain ⟨⟨a, b⟩, hx, e⟩ := Option.map_eq_some_iff.mp h.2.2.2.2.2.1
    exact ⟨b, e ▸ hx⟩, h.2.2.2.2.2.2⟩
def calender (i : Nat) : State := { base with tiles := [(0, { slice := true, pattern := i })] }
def winDesc (off : Nat) : Bytes := desc 0x40 [(18, 2, 5), (20, 1, 1), (32, 8, off), (40, 8, 4096)]
def win0 : Win := { part := 0, seg := 0, rights := 3, tag := 0, va := 0, off := 0, len := 4096 }
def onNet (s : State) (n : Net) : State := { s with net := n }
def pairNet : Net := { qps := [(5, { st := 1, lat := [(0x40, 0x10000#32)] })] }
def pairing (r : Rel) : State :=
  { onPart plain 0 { part0 with segs := FMap.set segs0 5 { base := 0x4000000, limit := 0x4000000, tier := 1 } } with
    net := pairNet, rel := r, fe := { base.fe with segCache := [0, 1, 2, 3, 4, 5] } }
def pairDesc (op : Nat) : Bytes := desc 0x50 [(16, 1, op), (18, 2, 5), (20, 4, 1), (24, 1, 5), (36, 4, 0x4000000)]
def mate : Pair := { qp := 5, part := 0 }
def vrec : Bytes := withCrc (bytesOf 60 [(0, 4, 0x4C564E59), (4, 1, 9)])
def replicaLog (id_ : Bytes) : List VRec :=
  [{ kind := 4, ream := id_, body := id_ }, { kind := 5, ream := id_, body := [] },
   { kind := 7, ream := id_, body := zeros 8 }, { kind := 8, ream := id_, body := zeros 8 }]
def restoreDesc : Bytes := desc 0x52 []
theorem plus_one (x : Word) : x + 1 ≠ x := by
  intro h
  have := congrArg BitVec.toNat h
  simp at this
  omega

def archived : State := { plain with rel := { plain.rel with vault := { log := replicaLog (sm3 []) } } }
theorem point_ok (i : Bytes) (h : i.take 32 = i) : findPoint (replicaLog i) i = some { base := 0, commit := 2, digests := 3 } := by
  have hz : (zeros 8).take 8 = zeros 8 := by decide
  simp [findPoint, replicaLog, List.zipIdx, firstSome, pointAt, commitOf, baseAt, h, hz]
theorem sm3_len (b : Bytes) : (sm3 b).length = 32 := by simp [sm3, natBe, Image.natLe_length]
def restoring : State := after (withCmd archived restoreDesc) 0 0 (cmdOf restoreDesc)
theorem restoring_log : restoring.restoreSource (cmdOf restoreDesc) [] = replicaLog (sm3 []) := rfl
theorem restoring_id : restoring.tableId = sm3 [] := rfl
theorem restoring_point : findPoint (replicaLog (sm3 [])) (sm3 []) = some { base := 0, commit := 2, digests := 3 } :=
  point_ok _ (List.take_of_length_le (by rw [sm3_len]))
theorem restoring_check : restoring.restoreCheck (cmdOf restoreDesc) (replicaLog (sm3 [])) = 0 := by
  have h0 : (cmdOf restoreDesc).f 16 1 = 0 := by decide +kernel
  have h1 : restoring.ream.updStep = 0 := by decide +kernel
  have h2 : restoring.ream.admitted = 0 := by decide +kernel
  have h3 : (recsIn (replicaLog (sm3 [])) (sm3 []) 0 4).any restoring.keyGone = false := by
    simp [recsIn, replicaLog, State.keyGone, VRec.isSealed]
  rw [State.restoreCheck, restoring_id, restoring_point]
  simp only [h0, h1, h2]
  simp [replicaLog] at h3 ⊢
  exact h3
theorem replay_ok (s : State) (i : Bytes) : s.replayAll (recsIn (replicaLog i) i 0 3) = (s, true) := by
  simp [recsIn, replicaLog, State.replayAll, State.unreadable, State.replayRec, VRec.isSealed]
theorem digests_ok (v : State) (i : Bytes) (h : v.digestsAll = []) (hs : v.rel.sender = none) :
    v.digestsDiffer (cmdOf restoreDesc) (replicaLog i) { base := 0, commit := 2, digests := 3 } [] = false := by
  have hz : (zeros 8).drop 8 = [] := by decide
  simp [State.digestsDiffer, replicaLog, h, hs, hz]

theorem witness_PostAccepted :
  (∃ (s u w : State) (r q : Nat) (c : Cmd) (dir rd : Rd) (d : Bytes) (lists : List PList) (bodyEnd : Nat), s.passes r
      q 0x01 c u ∧ s.dirEarly c dir = 0 ∧ u.operand (cmdKey r q) c.part (c.f 20 1) (c.f 24 6) (Nat.min (dirSize (c.f
      18 2)) (c.f 40 4)) w ∧ rd = w.readSeg c.part (c.f 20 1) (c.f 24 6) (dirSize (c.f 18 2)) (u.operOf (cmdKey r q)
      c.part (c.f 20 1) dir) ∧ rd.poison = [] ∧ d = rd.data ++ zeros (dirSize (c.f 18 2) - rd.data.length) ∧
      w.layLists (c.f 16 2) d (c.f 18 2) (fld d 0 4) (c.f 16 2 * hDense w.ream.hdr) = (lists, bodyEnd) ∧ dirSize (c.f
      18 2) + bodyEnd ≤ c.f 40 4 ∧ dirBad d (c.f 18 2) (c.f 22 2 != noSlot) = false ∧ (lists.any (fun l => l.kind ==
      1) = true → (w.part c.part).feat 3 = true) ∧ lists.any (fun l => 16777216 < l.entries) = false ∧ c.f 16 2 ≤
      hQMax w.ream.hdr ∧ lists.any w.listShape = false ∧ dupLists lists = false ∧ (c.coded = false → fld d 0 4 = c.f
      16 2 * hDense w.ream.hdr) ∧ c.f 44 4 = c.f 16 2 * hResult w.ream.hdr ∧ lists.any (fun l => l.kind == 1 &&
      !(tUpdParts (recBody w.ream.recs 8 l.table)).testBit c.part) = false ∧ w.sealCheck c d bodyEnd = 0)
  ∧ (∃ (s u : State) (r q : Nat) (c : Cmd) (dir : Rd) (g : Seg) (n : Nat), s.passes r q 0x01 c u ∧ s.dirEarly c dir =
      0 ∧ u.remoteSeg c.part (c.f 20 1) = some g ∧ n = Nat.min (dirSize (c.f 18 2)) (c.f 40 4) ∧ n ≠ 0 ∧ u.operReady
      (cmdKey r q) = false ∧ u.outFor (.oper (cmdKey r q)) = false)
  ∧ (∃ (s : State) (r q : Nat) (v : Post) (c : Cmd), s.post? (cmdKey r q) = some v ∧ s.cmd? (cmdKey r q) = some c ∧
      v.phase = 0 ∧ s.setsInUse < s.bufferSets ∧ s.remoteInput c = false)
  ∧ (∃ (s : State) (r q : Nat) (v : Post) (c : Cmd) (g : Seg), s.post? (cmdKey r q) = some v ∧ s.cmd? (cmdKey r q) =
      some c ∧ v.phase = 0 ∧ s.setsInUse < s.bufferSets ∧ s.heldSeg c.part (c.f 20 1) = some g ∧ g.tier = 2 ∧ g.remote
      = true ∧ s.hostUp c.part g.qp = true) :=
  ⟨⟨withCmd plain postDesc, _, _, 0, 0, cmdOf postDesc, { data := zeros 256 }, _, _, _, _, passes_ok
       (by decide +kernel), by decide +kernel, operand_ok (by decide +kernel), rfl, by decide +kernel, rfl, rfl,
       by decide +kernel⟩,
   ⟨withCmd { farInput with fe := base.fe } postDesc, _, 0, 0, cmdOf postDesc, { data := [] }, farSeg, _, passes_ok
       (by decide +kernel), by decide +kernel, by decide +kernel, rfl, by decide +kernel⟩,
   ⟨withPost plain postDesc post0, 0, 0, post0, { cmdOf postDesc with phase := .post }, by decide +kernel⟩,
   ⟨withPost farInput postDesc post0, 0, 0, post0, { cmdOf postDesc with phase := .post }, farSeg, by decide +kernel⟩⟩

theorem witness_InputStaging :
  (∃ (s u : State) (r q n : Nat) (v : Post) (c : Cmd) (block raw : Bytes) (rd : Rd), s.post? (cmdKey r q) = some v ∧
      s.cmd? (cmdKey r q) = some c ∧ v.phase = 1 ∧ c.coded = true ∧ v.sealRec = [] ∧ s.stageWaits (cmdKey r q) = false
      ∧ v.rawDone < s.denseRaw v ∧ n = Nat.min (17 * 256) (sheetUp v.denseLen - v.codedPos) ∧ s.openAsk c.part (c.f 20
      1) (c.bodyOff + v.codedPos) n false = (true, u) ∧ rd = u.readSeg c.part (c.f 20 1) (c.bodyOff + v.codedPos) n
      { data := if s.remoteInput c then (s.stageData (cmdKey r q)).data.drop v.codedPos else block } ∧ decodeBlock
      v.decoded.length rd.data = some raw ∧ raw.length ≤ s.denseRaw v - v.rawDone ∧ (raw.length = 4096 ∨ raw.length =
      s.denseRaw v - v.rawDone) ∧ v.codedPos + 256 * blockSheets rd.data ≤ sheetUp v.denseLen)
  ∧ (∃ (s u w : State) (r q : Nat) (v : Post) (c : Cmd) (body rd : Rd) (p raw : Bytes), s.post? (cmdKey r q) = some v
      ∧ s.cmd? (cmdKey r q) = some c ∧ v.phase = 1 ∧ s.cutOff c = false ∧ s.stageWaits (cmdKey r q) = false ∧
      s.openAsk c.part (c.f 20 1) (c.bodyOff + v.codedPos) (v.bodyEnd - v.codedPos) false = (true, u) ∧ rd = u.readSeg
      c.part (c.f 20 1) c.bodyOff v.bodyEnd (if u.remoteInput c then u.stageData (cmdKey r q) else body) ∧ w = (if
      u.remoteInput c then u.unstage (cmdKey r q) else u) ∧ w.openBody c v (fit v.bodyEnd rd.data) = some p ∧
      w.rawDense c v p = some raw) :=
  ⟨⟨withPost coded codedDesc ({ post0 with phase := 1, denseLen := 256 }), _, 0, 0, _,
       { post0 with phase := 1, denseLen := 256 }, { cmdOf codedDesc with phase := .post }, block0, zeros 4, _,
       by decide +kernel, by decide +kernel, by decide +kernel, by decide +kernel, by decide +kernel,
       by decide +kernel, by decide +kernel, rfl, Prod.ext (by decide +kernel) rfl, rfl, by decide +kernel⟩,
   ⟨withPost plain postDesc ({ post0 with phase := 1 }), _, _, 0, 0, { post0 with phase := 1 },
       { cmdOf postDesc with phase := .post }, { data := [] }, _, [], [], by decide +kernel, by decide +kernel,
       by decide +kernel, by decide +kernel, by decide +kernel, Prod.ext (by decide +kernel) rfl, rfl, rfl,
       by decide +kernel⟩⟩

theorem witness_SweepAndAdmission :
  (∃ (s : State) (k : Nat) (v : Post), s.slotFor k v ∧ s.admits v)
  ∧ (∃ (s : State) (k : Nat) (v : Post), s.slotFor k v ∧ s.admits v ∧ maskTiles (stTiles (s.stageRec 0)) ≠ [] ∧
      ∀ n ∈ maskTiles (stTiles (s.stageRec 0)), s.ctx? n 0 = none)
  ∧ (∃ (s : State) (k : Nat) (v : Post) (c : Cmd), s.slotFor k v ∧ v.isUpdate = true ∧ s.tooDirty v ∧ s.cmd? k = some c ∧
      k = cmdKey c.ring c.seq)
  ∧ (∃ (s : State) (k : Nat) (v : Post) (c : Cmd), s.slotFor k v ∧ v.isUpdate = true ∧ ¬ s.tooDirty v ∧
      s.lagFull = true ∧ s.cmd? k = some c ∧ k = cmdKey c.ring c.seq)
  ∧ (∃ (s : State), s.ream.resident = true ∧ s.ream.admission = true ∧ s.ream.slotDone = false ∧ s.ream.interval <
      hSlots s.ream.hdr ∧ s.ream.mode = 0x12 ∧ hSlots s.ream.hdr - s.ream.skipN ≤ s.ream.interval)
  ∧ (∃ (s : State), s.ream.resident = true ∧ s.rel.stuck = false ∧ s.ream.interval < hSlots s.ream.hdr)
  ∧ (∃ (s : State), s.ream.resident = true ∧ s.rel.stuck = false ∧ hSlots s.ream.hdr ≤ s.ream.interval ∧ s.ream.job =
      none) :=
  ⟨⟨ready, 0, { post0 with phase := 2 }, slot_ok (by decide +kernel), by unfold State.admits State.tooDirty; decide +kernel⟩,
   ⟨updReady, 0, updPost, slot_ok (by decide +kernel), by unfold State.admits State.tooDirty; decide +kernel, by decide +kernel⟩,
   ⟨updReady.setPost 9 { post0 with part := 1, commit := 1, reserve := 2 ^ 40 }, 0, updPost, _, slot_ok (by decide +kernel), rfl,
       by unfold State.tooDirty; decide +kernel, rfl, by decide +kernel⟩,
   ⟨{ updReady with rel := { sender := some { mate with active := true } } }, 0, updPost, _, slot_ok (by decide +kernel), rfl,
       by unfold State.tooDirty; decide +kernel, by decide +kernel, rfl, by decide +kernel⟩,
   ⟨{ plain with ream := { plain.ream with mode := 0x12, skipN := 1 } }, by decide +kernel⟩,
   ⟨plain, by decide +kernel⟩,
   ⟨{ plain with ream := { plain.ream with interval := 1 } }, by decide +kernel⟩⟩

theorem witness_MoveAndCalender :
  (∃ (s : State) (m : Move) (ms : List Move), s.ream.moves = m :: ms ∧ m.wait = 0)
  ∧ (∃ (s : State) (n : Nat) (crc : Word), (s.tile n).slice = true ∧ (s.tile n).fills = [] ∧ (s.tile n).vec = [] ∧ crc
      = Config.calenderCode (s.tilePack n).1 (s.tile n).pattern ∧ (s.tile n).pattern + 1 < (s.tilePack n).2)
  ∧ (∃ (s : State) (n : Nat) (crc : Word), (s.tile n).slice = true ∧ (s.tile n).fills = [] ∧ (s.tile n).vec = [] ∧ crc
      = Config.calenderCode (s.tilePack n).1 (s.tile n).pattern ∧ (s.tilePack n).2 ≤ (s.tile n).pattern + 1)
  ∧ (∃ (s : State) (n : Nat) (crc : Word), (s.tile n).slice = true ∧ (s.tile n).fills = [] ∧ (s.tile n).vec = [] ∧ crc
      ≠ Config.calenderCode (s.tilePack n).1 (s.tile n).pattern) :=
  ⟨⟨{ plain with ream := { plain.ream with moves := [({ stage := 0, source := 0, target := 1 })] } },
       { stage := 0, source := 0, target := 1 }, [], by decide +kernel⟩,
   ⟨calender 0, 0, _, by decide +kernel, by decide +kernel, by decide +kernel, rfl, by decide +kernel⟩,
   ⟨calender 63, 0, _, by decide +kernel, by decide +kernel, by decide +kernel, rfl, by decide +kernel⟩,
   ⟨calender 0, 0, Config.calenderCode ((calender 0).tilePack 0).1 0 + 1, by decide +kernel, by decide +kernel,
       by decide +kernel, plus_one _⟩⟩

theorem witness_Windows :
  (∃ (s u : State) (r q : Nat) (c : Cmd), s.passes r q 0x40 c u ∧ u.windowCheck c.part c.desc = 0)
  ∧ (∃ (s u : State) (r q : Nat) (c : Cmd), s.passes r q 0x40 c u ∧ u.windowCheck c.part c.desc ≠ 0)
  ∧ (∃ (s u : State) (r q : Nat) (c : Cmd) (w : Win), s.passes r q 0x41 c u ∧ (u.part c.part).hasQp (wQp c.desc) =
      true ∧ wWin c.desc ≤ 15 ∧ (wWin c.desc = 15 → u.isAttachQp (wQp c.desc) = false) ∧ FMap.find u.net.wins (wQp
      c.desc * 16 + wWin c.desc) = some w)
  ∧ (∃ (s : State) (n win k : Nat) (w : Win) (c : Cmd), FMap.find s.net.wins (n * 16 + win) = some w ∧ w.closing = [k]
      ∧ s.cmd? k = some c ∧ k = cmdKey c.ring c.seq ∧ c.op = 0x41 ∧ s.winBusy (n * 16 + win) = false) :=
  ⟨⟨withCmd base (winDesc 0), _, 0, 0, cmdOf (winDesc 0), passes_ok (by decide +kernel), by decide +kernel⟩,
   ⟨withCmd base (winDesc 1), _, 0, 0, cmdOf (winDesc 1), passes_ok (by decide +kernel), by decide +kernel⟩,
   ⟨withCmd (onNet base { wins := [(80, win0)] }) (desc 0x41 [(18, 2, 5)]), _, 0, 0, cmdOf (desc 0x41 [(18, 2, 5)]),
       win0, passes_ok (by decide +kernel), by decide +kernel⟩,
   ⟨onNet (withRunning base (desc 0x41 [])) { wins := [(80, ({ win0 with closing := [1] }))] }, 5, 0, 1,
       { win0 with closing := [1] }, running (desc 0x41 []), by decide +kernel⟩⟩

theorem witness_Pairing :
  (∃ (s u : State) (r q : Nat) (c : Cmd), s.passes r q 0x50 c u ∧ c.f 16 1 = 0 ∧ u.pairQp c = 0 ∧ u.rel.sender = none
      ∧ 0 < c.pSecuring ∧ c.pSecuring ≤ 2 ^ 24 ∧ u.qpUp c.pQp = true)
  ∧ (∃ (s u : State) (r q : Nat) (c : Cmd), s.passes r q 0x50 c u ∧ c.f 16 1 = 1 ∧ u.pairQp c = 0 ∧ u.rel.receiver =
      none ∧ u.intakeCheck c = 0)
  ∧ (∃ (s u : State) (r q : Nat) (c : Cmd) (p : Pair), s.passes r q 0x50 c u ∧ c.f 16 1 = 2 ∧ u.pairQp c = 0 ∧
      u.rel.sender = some p ∧ p.qp = c.pQp ∧ p.cmd = none)
  ∧ (∃ (s : State) (serial feed boot lsn k : Nat) (p : Pair) (c : Cmd), s.rel.sender = some p ∧ p.cmd = some k ∧
      s.cmd? k = some c ∧ k = cmdKey c.ring c.seq)
  ∧ (∃ (s : State) (k : Nat) (p : Pair) (c : Cmd), s.rel.sender = some p ∧ p.cmd = some k ∧ s.cmd? k = some c ∧ k =
      cmdKey c.ring c.seq) :=
  ⟨⟨withCmd (pairing {}) (pairDesc 0), _, 0, 0, cmdOf (pairDesc 0), passes_ok (by decide +kernel), by decide +kernel⟩,
   ⟨withCmd (pairing {}) (pairDesc 1), _, 0, 0, cmdOf (pairDesc 1), passes_ok (by decide +kernel), by decide +kernel⟩,
   ⟨withCmd (pairing { sender := some mate }) (pairDesc 2), _, 0, 0, cmdOf (pairDesc 2), mate, passes_ok
       (by decide +kernel), by decide +kernel⟩,
   ⟨withRunning (pairing { sender := some ({ mate with cmd := some 1 }) }) (pairDesc 0), 2, 3, 1, 0, 1,
       { mate with cmd := some 1 }, running (pairDesc 0), by decide +kernel⟩,
   ⟨withRunning (pairing { sender := some ({ mate with cmd := some 1 }) }) (pairDesc 0), 1,
       { mate with cmd := some 1 }, running (pairDesc 0), by decide +kernel⟩⟩

theorem witness_PartnerStream :
  (∃ (s : State) (p : Pair) (rec_ : VRec), s.rel.sender = some p ∧ p.active = true ∧ s.rel.vault.own.find? (fun r =>
      r.lsn == p.next) = some rec_ ∧ rec_.size ≤ p.free ∧ rec_.kind ≠ 3)
  ∧ (∃ (s : State) (step lsn free : Nat) (p : Pair), s.rel.sender = some p ∧ p.active = true ∧ lsn ≠ noLsn)
  ∧ (∃ (s : State) (b : Bytes) (p : Pair) (rec_ r' : VRec), s.rel.receiver = some p ∧ parseRec b = some rec_ ∧ r' =
      { rec_ with source := 1, serial := p.serial } ∧ p.active = true ∧ p.inbox = [] ∧ r'.size ≤ p.free ∧
      s.intakeLines p b.length = [] ∧ s.mounted.rel.vault.mustWait r'.size = false)
  ∧ (∃ (s : State) (b : Bytes) (p : Pair) (rec_ r' : VRec), s.rel.receiver = some p ∧ parseRec b = some rec_ ∧ r' =
      { rec_ with source := 1, serial := p.serial } ∧ p.active = true ∧ p.inbox = [] ∧ p.free < r'.size)
  ∧ (∃ (s : State) (p : Pair) (step lsn : Nat), s.rel.sender = some p ∧ p.active = true ∧ p.acked = some (step, lsn) ∧
      lsn + 1 < p.next)
  ∧ (∃ (s : State) (serial : Nat) (p : Pair), s.rel.receiver = some p ∧ s.qpUp p.qp = true) :=
  ⟨⟨pairing { sender := some ({ mate with active := true, free := 4096 }), vault := { log := [({ kind := 1 })] } },
       { mate with active := true, free := 4096 }, { kind := 1 }, by decide +kernel⟩,
   ⟨pairing { sender := some ({ mate with active := true }) }, 0, 0, 0, { mate with active := true },
       by decide +kernel⟩,
   ⟨pairing { receiver := some ({ mate with active := true, free := 4096 }) }, vrec,
       { mate with active := true, free := 4096 }, (parseRec vrec).getD { kind := 0 }, _, by decide +kernel,
       by decide +kernel, rfl, by decide +kernel⟩,
   ⟨pairing { receiver := some ({ mate with active := true }) }, vrec, { mate with active := true }, (parseRec
       vrec).getD { kind := 0 }, _, by decide +kernel, by decide +kernel, rfl, by decide +kernel⟩,
   ⟨pairing { sender := some ({ mate with active := true, acked := some (0, 0), next := 2 }) },
       { mate with active := true, acked := some (0, 0), next := 2 }, 0, 0, by decide +kernel⟩,
   ⟨pairing { receiver := some (mate) }, 7, mate, by decide +kernel⟩⟩

theorem witness_Restoring :
  (∃ (s u : State) (r q : Nat) (c : Cmd) (replica : List Bytes), s.passes r q 0x52 c u ∧ u.rel.restore = none ∧
      u.restoreCheck c (u.restoreSource c replica) ≠ 0)
  ∧ (∃ (s u v0 v1 v2 v : State) (r q : Nat) (c : Cmd) (replica : List Bytes) (p : Point), s.passes r q 0x52 c u ∧
      u.rel.restore = none ∧ u.restoreCheck c (u.restoreSource c replica) = 0 ∧ findPoint (u.restoreSource c replica)
      u.tableId = some p ∧ v0 = (u.askReplica c).closeAdmission.setPhase (cmdKey r q) .running ∧ v1 =
      { v0 with gat := { v0.gat with dirs := FMap.mapV v0.gat.dirs fun _ _ => [], flips := [] } } ∧ v2 = v1.each
      v1.tileList (fun s t => s.setCtr 0x037 t 0) ∧ v2.replayAll (recsIn (u.restoreSource c replica) v2.tableId p.base
      (p.commit + 1)) = (v, true) ∧ (c.f 16 1 = 1 → ∀ b ∈ replica, b ≠ []) ∧ v.digestsDiffer c (u.restoreSource c
      replica) p replica = false)
  ∧ (∃ (s : State) (k x f : Nat) (c : Cmd), s.ream.resident = true ∧ s.rel.stuck = false ∧ hSlots s.ream.hdr ≤
      s.ream.interval ∧ s.ream.job = none ∧ s.ream.grantNext = none ∧ s.rel.restore = some (k, x, f) ∧ s.cmd? k = some
      c ∧ k = cmdKey c.ring c.seq) :=
  ⟨⟨withCmd plain restoreDesc, _, 0, 0, cmdOf restoreDesc, [], passes_ok (by decide +kernel), by decide +kernel⟩,
   by
  refine ⟨withCmd archived restoreDesc, restoring, _, _, _, _, 0, 0, cmdOf restoreDesc, [],
      { base := 0, commit := 2, digests := 3 },
    passes_ok (by decide +kernel), by decide +kernel, ?_, ?_, rfl, rfl, rfl, replay_ok _ (sm3 []),
        by decide +kernel, ?_⟩
  · rw [restoring_log]; exact restoring_check
  · rw [restoring_log, restoring_id]; exact restoring_point
  · rw [restoring_log]; exact digests_ok _ _ (by decide +kernel) (by decide +kernel),
   ⟨{ withRunning plain restoreDesc with ream := { plain.ream with interval := 1 }, rel := { plain.rel with restoring := true, restore := some (1, 5, 0) } },
       1, 5, 0, running restoreDesc, by decide +kernel⟩⟩

end Sys2Proof.Tests.Posts
end

