-- ==== Sys2Proof/Tests/WitnessPower.lean ====
section
/-! SUPPORT. States and operands that meet the hypotheses of each clause about power,
    the host link and the network. -/

namespace Sys2Proof.Tests.Power
set_option Elab.async false
open Sys2Proof.Machine Sys2Proof.Tests
set_option maxRecDepth 100000

def pw (p : Pwr) : State := { State.reset with pwr := p }
def reg (a : Nat) (w : Word) : State := { State.reset with regs := [(a, w)] }

def hp (h : HostPort) : State := { base with hp := h }
def xfer0 : Xfer := { id := 0, use := .arm 0, part := 0 }
def outs (xs : List Xfer) : State := { base with io := { out := xs } }
def netOf (n : Net) : State := { base with net := n }
def rts (q : Qp) : State := netOf { qps := [(5, { q with st := 1 })], ports := [(0, { enabled := true, link := 2 })] }
def win1 : Win := { part := 0, seg := 0, rights := 3, tag := 0, va := 0, off := 0, len := 4096 }
def windowed : State := netOf { qps := [(5, { st := 1 })], wins := [(80, win1)] }
def key5 : Nat := 5 * 2 ^ 20
def sends (q : Qp) (xs : List Xfer) : State := { rts q with io := { out := xs } }
def msg5 : Xfer := { xfer0 with qp := some 5 }
def sent5 : Xfer := { msg5 with psn := some 9, len := 64, handed := 64 }
def tierOne : Seg := { base := 0, limit := 0x400000, tier := 1 }

/-- A good frame: a write request of one packet to queue pair 5, with the PSN before 0. -/
def frame0 : FrameInfo :=
  { size := 128, tagged := false, fcsOk := true, destMac := 0, ipv6 := false, destIp := 0, udpPort := 4791
    icrcOk := true, qpn := 0x100005, ce := false, request := true, psn := 0xFFFFFF, span := 1, fecCorrected := 2
    fecUncorrected := 0, unsupported := false }

theorem witness_PowerStates :
  (∃ (s : State), s.pwr.st = 0)
  ∧ (∃ (s : State) (f a : Nat), s.pwr.st = 0 ∧ s.pwr.modLow = true)
  ∧ (∃ (s : State) (f a : Nat), s.pwr.st = 0 ∧ s.pwr.modLow = false)
  ∧ (∃ (s : State) (us : Nat), s.pwr.st = 3 ∧ 1000 ≤ us)
  ∧ (∃ (s : State) (us : Nat), s.pwr.st = 2)
  ∧ (∃ (s : State), s.pwr.st = 1)
  ∧ (∃ (s : State) (v i : Nat), s.pwr.st = 3 ∧ v < 3600 ∧ i ≤ 9000 ∧ 4 ≤ s.pwr.low)
  ∧ (∃ (s : State) (v i : Nat), s.pwr.st = 3 ∧ 3800 ≤ v ∧ v ≤ 5200 ∧ i ≤ 9000)
  ∧ (∃ (s : State), s.pwr.st = 4 ∧ s.pwr.flushed = false ∧ s.pwr.flushCause ≠ 4 ∧ 3600 ≤ s.pwr.vin)
  ∧ (∃ (s : State), s.pwr.st = 4 ∧ s.pwr.flushed = false ∧ s.pwr.flushCause = 4 ∧ s.pwr.modLow = true ∧ 3600 ≤
      s.pwr.vin)
  ∧ (∃ (s : State), s.pwr.st = 5 ∧ s.pwr.modLow = false ∧ 3800 ≤ s.pwr.vin ∧ s.pwr.trip = false)
  ∧ (∃ (s : State), s.pwr.st ≠ 0 ∧ s.powered = false ∧ s.pwr.vin < 3600)
  ∧ (∃ (s : State), s.pwr.st = 3)
  ∧ (∃ (s : State) (x : Word), x.getLsbD 8 = true) :=
  ⟨⟨pw { st := 0 }, by decide +kernel⟩,
   ⟨pw { st := 0, modLow := true }, 0, 0, by decide +kernel⟩,
   ⟨pw { st := 0 }, 0, 0, by decide +kernel⟩,
   ⟨State.reset, 1000, by decide +kernel⟩,
   ⟨pw { st := 2 }, 0, by decide +kernel⟩,
   ⟨pw { st := 1 }, by decide +kernel⟩,
   ⟨pw { low := 4 }, 3000, 100, by decide +kernel⟩,
   ⟨State.reset, 5000, 1000, by decide +kernel⟩,
   ⟨pw { st := 4, vin := 5000 }, by decide +kernel⟩,
   ⟨pw { st := 4, flushCause := 4, modLow := true, vin := 5000 }, by decide +kernel⟩,
   ⟨pw { st := 5, vin := 5000 }, by decide +kernel⟩,
   ⟨pw { st := 4, modLow := true }, by decide +kernel⟩,
   ⟨State.reset, by decide +kernel⟩,
   ⟨State.reset, 0x100#32, by decide +kernel⟩⟩

theorem witness_Thermal :
  (∃ (s : State) (g d c : Nat), s.pwr.st = 3 ∧ g < 9 ∧ d < 4 ∧
      (let th := FMap.get s.tiers.therm g {}; let dies := FMap.set th.dies d c; dies.any (fun e => decide (105 ≤ e.2)) = false))
  ∧ (∃ (s : State) (g d c : Nat), s.pwr.st = 3 ∧ g < 9 ∧ d < 4 ∧ 105 ≤ c)
  ∧ (∃ (s : State) (i c : Nat), s.pwr.st = 3 ∧ s.enabled i = true ∧ 105 ≤ c ∧ c < 115)
  ∧ (∃ (s : State) (i c : Nat), s.pwr.st = 3 ∧ s.enabled i = true ∧ 115 ≤ c ∧ c < 125)
  ∧ (∃ (s : State) (i c : Nat), s.pwr.st = 3 ∧ i < 12 ∧ 125 ≤ c ∧ c < 140)
  ∧ (∃ (s : State) (a b f : Nat), s.pwr.st = 3 ∧ b < 65 ∧ 10 ≤ f)
  ∧ (∃ (s : State) (a b f : Nat), s.pwr.st = 3 ∧ 65 ≤ b ∧ 99 ≤ s.pwr.outletHot)
  ∧ (∃ (s : State), s.pwr.st ≠ 0)
  ∧ (∃ (s : State) (n g : Nat), s.pwr.st = 3 ∧ s.pwrCap < n ∧ s.skips = false ∧ s.pwr.emerg = [] ∧ s.pwr.awake = [g] ∧
      s.capFloor < s.mhz g)
  ∧ (∃ (s : State) (n : Nat), s.pwr.st = 3 ∧ 2800 < n) :=
  ⟨⟨State.reset, 0, 0, 40, by decide +kernel⟩,
   ⟨State.reset, 0, 0, 110, by decide +kernel⟩,
   ⟨State.reset, 0, 110, by decide +kernel⟩,
   ⟨State.reset, 0, 120, by decide +kernel⟩,
   ⟨State.reset, 0, 130, by decide +kernel⟩,
   ⟨State.reset, 30, 40, 20, by decide +kernel⟩,
   ⟨pw { outletHot := 99 }, 30, 70, 20, by decide +kernel⟩,
   ⟨State.reset, by decide +kernel⟩,
   ⟨pw { awake := [0] }, 2500, 0, by decide +kernel⟩,
   ⟨State.reset, 2900, by decide +kernel⟩⟩

theorem witness_PowerControl :
  (∃ (s : State) (x : Word), s.pwrLocked = false)
  ∧ (∃ (s : State) (x : Word), s.pwrLocked = true)
  ∧ (∃ (s : State) (x : Word), s.pwrLocked = false)
  ∧ (∃ (s : State) (a : Nat) (x : Word), lockRegs.contains a = true ∧ s.locked a = false ∧ x.getLsbD 0 = true)
  ∧ (∃ (s : State) (a : Nat) (x : Word), s.locked a = true)
  ∧ (∃ (s : State) (g : Nat) (q : List (Nat × Bool)), s.pwr.queue = (g, true) :: q)
  ∧ (∃ (s : State) (g n : Nat), s.pwr.ramped.contains g = true ∧ n ∈ s.groupTiles g ∧ (s.tile n).st = 2)
  ∧ (∃ (s : State) (v c : Nat), s.pwr.st ≠ 0 ∧ s.pwr.bank.cap ≠ 0 ∧ s.pwr.bank.test = false)
  ∧ (∃ (s : State), s.pwr.st = 3 ∧ s.pwr.bank.volts < 4000)
  ∧ (∃ (s : State), s.pwr.st = 3 ∧ s.pwr.bank.reached = true)
  ∧ (∃ (s : State) (x : Word), s.pwr.st = 3 ∧ x.getLsbD 0 = true)
  ∧ (∃ (s : State) (c r : Nat), s.pwr.bank.test = true) :=
  ⟨⟨State.reset, 2000, by decide +kernel⟩,
   ⟨reg 0xA0004 1, 0, by decide +kernel⟩,
   ⟨State.reset, 0, by decide +kernel⟩,
   ⟨State.reset, 0x80004, 1#32, by decide +kernel⟩,
   ⟨reg 0x80004 1, 0x80004, 0, by decide +kernel⟩,
   ⟨pw { queue := [(1, true)] }, 1, [], by decide +kernel⟩,
   ⟨{ onTile { State.reset with pwr := { ramped := [0] } } fun x => { x with st := 2 } with pending := [] }, 0, 0,
       by decide +kernel⟩,
   ⟨pw { bank := { cap := 1 } }, 5000, 0, by decide +kernel⟩,
   ⟨State.reset, by decide +kernel⟩,
   ⟨pw { bank := { reached := true } }, by decide +kernel⟩,
   ⟨State.reset, 1#32, by decide +kernel⟩,
   ⟨pw { bank := { test := true } }, 0, 0, by decide +kernel⟩⟩

theorem witness_HostLink :
  (∃ (s : State), s.hp.link = 0)
  ∧ (∃ (s : State) (a b : Nat), s.hp.link = 1 ∧ s.pwr.st = 3 ∧ a ≠ 0 ∧ s.hp.dir = [] ∧ s.hp.waits = [] ∧ linkForm a b
      = true)
  ∧ (∃ (s : State) (a b : Nat), s.hp.link = 1 ∧ s.pwr.st = 3 ∧ a ≠ 0 ∧ linkForm a b = true ∧ s.hp.dir ≠ [])
  ∧ (∃ (s : State) (a b : Nat), 2 ≤ s.hp.link ∧ linkForm a b = true)
  ∧ (∃ (s : State) (x : Xfer), s.io.out.find? (fun y => y.id == x.id) = some x ∧ x.isLocal = true ∧ x.kind = 0 ∧
      x.accepted = false ∧ x.linesLeft ≤ 1 ∧ x.use.waited = true)
  ∧ (∃ (s : State) (x : Xfer), s.io.out.find? (fun y => y.id == x.id) = some x ∧ x.isLocal = true ∧ x.kind = 0 ∧
      x.accepted = false ∧ 1 < x.linesLeft)
  ∧ (∃ (s : State) (v i : Nat), v < 2048 ∧ s.hp.pba = [(v, i)] ∧ s.hp.msixEnable = true ∧ s.hp.msixMask = false ∧
      (s.part (s.srcOwner i)).reachable = true ∧ s.autoAck i = false) :=
  ⟨⟨hp {}, by decide +kernel⟩,
   ⟨hp { link := 1 }, 1, 1, by decide +kernel⟩,
   ⟨hp { link := 1, dir := [0] }, 1, 1, by decide +kernel⟩,
   ⟨hp { link := 3, cxlOk := true }, 0, 4, by decide +kernel⟩,
   ⟨outs [{ xfer0 with len := 128, gone := 1 }], { xfer0 with len := 128, gone := 1 }, by decide +kernel⟩,
   ⟨outs [{ xfer0 with len := 128 }], { xfer0 with len := 128 }, by decide +kernel⟩,
   ⟨{ hp { pba := [(0, 7)], msixEnable := true, link := 2 } with regs := [(0x70070, 0#32)] }, 0, 7, by decide +kernel⟩⟩

theorem witness_HostWindow :
  (∃ (s : State) (a d p : Nat) (v : Seg), s.hdmLine a = some d ∧ s.windowUp = true ∧ s.windowOwner d = some (p, v) ∧
      s.closedFrame p = true)
  ∧ (∃ (s : State) (a d p : Nat) (v : Seg), s.hdmLine a = some d ∧ s.windowUp = true ∧ s.windowOwner d = some (p, v) ∧
      s.closedFrame p = false)
  ∧ (∃ (s : State) (a d : Nat), s.hdmLine a = some d ∧ s.windowUp = true ∧ s.frameOwner d = none)
  ∧ (∃ (s : State) (a d : Nat) (b : Bytes) (bad : Bool), s.hdmLine a = some d ∧ s.windowUp = true ∧ s.frameOwner d =
      none)
  ∧ (∃ (s : State) (a d p : Nat) (v : Seg) (b : Bytes) (bad : Bool), s.hdmLine a = some d ∧ s.windowUp = true ∧
      s.frameOwner d = some (p, v) ∧ ((s.part p).remote || v.sealed) = true)
  ∧ (∃ (s : State) (a : Nat), s.hdmBase ≤ a ∧ a - s.hdmBase < t1Limit)
  ∧ (∃ (s : State) (a d p : Nat) (v : Seg) (b : Bytes), s.hdmLine a = some d ∧ s.windowUp = true ∧ s.windowOwner d =
      some (p, v) ∧ v.readOnly = false ∧ s.t1Bad (d / 256) = false ∧ s.memSound)
  ∧ (∃ (s : State) (a d p : Nat) (v : Seg) (b : Bytes) (bad : Bool), s.hdmLine a = some d ∧ s.windowUp = true ∧
      s.windowOwner d = some (p, v) ∧ v.readOnly = true)
  ∧ (∃ (s : State) (a : Nat) (b : Bytes) (bad : Bool), s.hp.cxlOk = true ∧ s.hp.biPurge = true)
  ∧ (∃ (s : State) (l : Nat), s.hp.biData.contains l = false ∧ s.hp.biWait.contains l = true ∧ s.hp.waits = [] ∧
      s.hp.memQ = [] ∧ (∀ p, s.rel.receiver = some p → p.inbox = []))
  ∧ (∃ (s : State) (l : Nat), s.hp.biData.contains l = true ∧ s.hp.waits = []) :=
  ⟨⟨{ base with ream := { base.ream with resident := true } }, 100, 64, 0, tierOne, by decide +kernel⟩,
   ⟨hp { base.hp with cfg := [(0x120010, 0x10000000#32)] }, 0x10000040, 64, 0, tierOne, by decide +kernel⟩,
   ⟨base, 0x40000000, 0x40000000, by decide +kernel⟩,
   ⟨base, 0x40000000, 0x40000000, [], false, by decide +kernel⟩,
   ⟨onPart base 0 { part0 with segs := [(0, { tierOne with sealed := true })] }, 0, 0, 0,
       { tierOne with sealed := true }, [], false, by decide +kernel⟩,
   ⟨base, t1Limit - 1, by decide +kernel⟩,
   ⟨base, 0, 0, 0, tierOne, [], by decide +kernel, by decide +kernel, by decide +kernel, by decide +kernel,
       by decide +kernel, sound_ok (by decide +kernel)⟩,
   ⟨onPart base 0 { part0 with segs := [(0, { tierOne with readOnly := true })] }, 0, 0, 0,
       { tierOne with readOnly := true }, [], false, by decide +kernel⟩,
   ⟨hp { base.hp with biPurge := true }, 0, [], false, by decide +kernel⟩,
   ⟨hp { biWait := [3] }, 3, by decide +kernel, by decide +kernel, by decide +kernel, by decide +kernel, fun _ h =>
       nomatch h⟩,
   ⟨hp { biData := [3] }, 3, by decide +kernel⟩⟩

theorem witness_PortsAndQueues :
  (∃ (s : State) (n : Nat), n < 16 ∧ s.powered = true ∧ s.cabled n = true ∧ (s.port n).enabled = false ∧ s.groupOn (n
      / 4) = true ∧ firstLane n (s.heldMode (n / 4)) = true ∧ s.net.modeErr.testBit (n / 4) = false ∧ s.regF (portReg
      n) 2 1 ≠ 3)
  ∧ (∃ (s : State) (n : Nat), n < 16 ∧ s.powered = true ∧ s.cabled n = true ∧ (s.port n).enabled = false ∧ s.groupOn
      (n / 4) = false ∧ s.netMode (n / 4) ≠ 3 ∧ s.modeOf (pairOf (n / 4)) ≠ 3 ∧ firstLane n (s.netMode (n / 4)) = true
      ∧ s.regF (portReg n) 2 1 ≠ 3)
  ∧ (∃ (s : State) (n : Nat), (s.port n).enabled = true)
  ∧ (∃ (s : State) (n : Nat), s.powered = true ∧ n < 16 ∧ s.cabled n = false ∧ (s.port n).enabled = false ∧ s.groupOn
      (n / 4) = true ∧ firstLane n (s.heldMode (n / 4)) = true)
  ∧ (∃ (s : State) (n : Nat), (s.port n).enabled = true ∧ (s.port n).link = 1 ∧ s.cabled n = true)
  ∧ (∃ (s : State) (n : Nat), (s.port n).enabled = true ∧ (s.port n).pmd = 2 ∧ (s.port n).link = 0 ∧
      s.net.modeErr.testBit (n / 4) = false ∧ s.cabled n = true)
  ∧ (∃ (s : State) (n : Nat), n < 16 ∧ (s.port n).link = 2)
  ∧ (∃ (s : State), s.connectErr (s.qp s.qpSel) = 0)
  ∧ (∃ (s : State), s.connectErr (s.qp s.qpSel) ≠ 0) :=
  ⟨⟨netOf { ports := [(1, { enabled := true })] }, 0, by decide +kernel⟩,
   ⟨base, 0, by decide +kernel⟩,
   ⟨rts {}, 0, by decide +kernel⟩,
   ⟨netOf { noCable := [0], ports := [(1, { enabled := true })] }, 0, by decide +kernel⟩,
   ⟨netOf { ports := [(0, { enabled := true, link := 1 })] }, 0, by decide +kernel⟩,
   ⟨netOf { ports := [(0, { enabled := true, lat := [(0, 4#32)] })] }, 0, by decide +kernel⟩,
   ⟨rts {}, 0, by decide +kernel⟩,
   ⟨{ netOf { qps := [(0, { ctx := [(0x68, 1#32)] })], ports := [(0, { enabled := true, link := 2 })] } with regs := [(0x80010, 1#32)] },
       by decide +kernel⟩,
   ⟨{ rts {} with regs := [(0x81000, 5#32)] }, by decide +kernel⟩⟩

theorem witness_Receiving :
  (∃ (s : State) (n : Nat) (i : FrameInfo), n < 16 ∧ (s.port n).link = 2 ∧ i.fcsOk = true ∧ s.roceFor n i = true ∧
      s.rxBytes n + i.size ≤ 2 ^ 25 ∧ i.icrcOk = true ∧ 0x100000 ≤ i.qpn ∧ i.qpn - 0x100000 < 4096 ∧ s.qpUp (i.qpn -
      0x100000) = true ∧ i.ce = false ∧ s.rxBytes n ≤ 2 ^ 24 ∧ i.unsupported = false ∧ i.request = true ∧ i.psn =
      (s.qp (i.qpn - 0x100000)).rqPsn)
  ∧ (∃ (s : State) (n : Nat) (i : FrameInfo), n < 16 ∧ (s.port n).link = 2 ∧ i.fcsOk = true ∧ s.roceFor n i = true ∧
      s.rxBytes n + i.size ≤ 2 ^ 25 ∧ i.icrcOk = true ∧ 0x100000 ≤ i.qpn ∧ i.qpn - 0x100000 < 4096 ∧ s.qpUp (i.qpn -
      0x100000) = true ∧ i.ce = false ∧ s.rxBytes n ≤ 2 ^ 24 ∧ i.unsupported = false ∧ i.request = false)
  ∧ (∃ (s : State) (n : Nat) (i : FrameInfo), n < 16 ∧ (s.port n).link = 2 ∧ i.fcsOk = false)
  ∧ (∃ (s : State) (n : Nat) (i : FrameInfo), n < 16 ∧ (s.port n).link = 2 ∧ i.fcsOk = true ∧ s.roceFor n i = false)
  ∧ (∃ (s : State) (n : Nat) (i : FrameInfo), n < 16 ∧ (s.port n).link = 2 ∧ i.fcsOk = true ∧ s.roceFor n i = true ∧ 2
      ^ 25 < s.rxBytes n + i.size)
  ∧ (∃ (s : State) (n : Nat) (i : FrameInfo), n < 16 ∧ (s.port n).link = 2 ∧ i.fcsOk = true ∧ s.roceFor n i = true ∧
      s.rxBytes n + i.size ≤ 2 ^ 25 ∧ i.icrcOk = false)
  ∧ (∃ (s : State) (n : Nat) (i : FrameInfo), n < 16 ∧ (s.port n).link = 2 ∧ i.fcsOk = true ∧ s.roceFor n i = true ∧
      s.rxBytes n + i.size ≤ 2 ^ 25 ∧ i.icrcOk = true ∧ (i.qpn < 0x100000 ∨ 4096 ≤ i.qpn - 0x100000 ∨ (s.qp (i.qpn -
      0x100000)).st = 0))
  ∧ (∃ (s : State) (q k a : Nat) (d : Bytes) (w : Win), s.qpUp q = true ∧ s.winOk q k a d.length 1 = some w ∧
      w.doorbell = false ∧ s.hp.waits = [] ∧ s.accLines (.write q k a d) = [] ∧ FMap.find s.net.wins (keyWin q k) =
      some w)
  ∧ (∃ (s : State) (q k a : Nat) (d : Bytes), s.qpUp q = true ∧ s.winOk q k a d.length 1 = none)
  ∧ (∃ (s : State) (q k a n : Nat) (d : Bytes) (w : Win), s.qpUp q = true ∧ s.readsOpen q < 16 ∧ s.winOk q k a n 0 =
      some w ∧ s.hp.waits = [] ∧ s.accBlocked (.read q k a n (psnDiff (s.qp q).rqPsn (cdiv n (s.qp q).pmtu))) = [] ∧
      FMap.find s.net.wins (keyWin q k) = some w ∧ s.winRead w a n = some d)
  ∧ (∃ (s : State) (q k a n : Nat), s.qpUp q = true ∧ 16 ≤ s.readsOpen q)
  ∧ (∃ (s : State) (q : Nat) (d : Bytes), s.qpUp q = true ∧ (s.qp q).partner = true)
  ∧ (∃ (s : State) (q : Nat) (d : Bytes), s.qpUp q = true ∧ (s.qp q).partner = false) :=
  ⟨⟨rts { rqPsn := 0xFFFFFF }, 0, frame0, by decide +kernel⟩,
   ⟨rts {}, 0, { frame0 with request := false }, by decide +kernel⟩,
   ⟨rts {}, 0, { frame0 with fcsOk := false }, by decide +kernel⟩,
   ⟨rts {}, 0, { frame0 with destIp := 1 }, by decide +kernel⟩,
   ⟨netOf { ports := [(0, { enabled := true, link := 2 })], rxFill := [(0, 2 ^ 25)] }, 0, frame0, by decide +kernel⟩,
   ⟨rts {}, 0, { frame0 with icrcOk := false }, by decide +kernel⟩,
   ⟨rts {}, 0, { frame0 with qpn := 0xFFFFF }, by decide +kernel⟩,
   ⟨windowed, 5, key5, 0, [], win1, by decide +kernel⟩,
   ⟨windowed, 5, 0, 0, [], by decide +kernel⟩,
   ⟨windowed, 5, key5, 0, 0, [], win1, by decide +kernel⟩,
   ⟨rts { resp := List.replicate 16 { win := 80 } }, 5, key5, 0, 64, by decide +kernel⟩,
   ⟨rts { lat := [(0x40, 0x10000#32)] }, 5, [], by decide +kernel⟩,
   ⟨rts {}, 5, [], by decide +kernel⟩⟩

theorem witness_Transport :
  (∃ (s : State) (q n : Nat) (x : Xfer), s.qpUp q = true ∧ s.psnOpen q n = true ∧ s.unacked q = [x] ∧ x.endsBy n (s.qp
      q).pmtu = true ∧ x.use.waited = true ∧ s.io.out.find? (fun y => y.id == x.id) = some x)
  ∧ (∃ (s w : State) (q m : Nat), s.qpUp q = true ∧ s.psnOpen q m = true ∧ w = s.ackTo q (psnDiff m 1) ∧ (w.qp
      q).retries + 1 ≤ (w.qp q).l 0x68 10 8)
  ∧ (∃ (s : State) (q m : Nat), s.qpUp q = true)
  ∧ (∃ (s : State) (q k m : Nat), s.qpUp q = true ∧ k ≤ 1 ∧ s.psnOpen q m = false)
  ∧ (∃ (s w : State) (q m : Nat), s.qpUp q = true ∧ s.psnOpen q m = true ∧ w = s.ackTo q (psnDiff m 1) ∧ (w.qp q).l
      0x68 14 12 = 7)
  ∧ (∃ (s : State) (q m : Nat), s.qpUp q = true ∧ s.oldestPsn q = some m ∧ (s.qp q).l 0x68 10 8 < (s.qp q).retries +
      1)
  ∧ (∃ (s : State) (q m : Nat), s.qpUp q = true ∧ s.oldestPsn q = some m ∧ (s.qp q).retries + 1 ≤ (s.qp q).l 0x68 10
      8)
  ∧ (∃ (s : State) (q : Nat), s.qpUp q = true ∧ (s.qp q).rnrWait = true)
  ∧ (∃ (s : State) (q : Nat), (s.qp q).st = 1 ∧ s.ccOn = true ∧ (s.qp q).lastCut = none)
  ∧ (∃ (s : State) (q : Nat), (s.qp q).st = 1 ∧ s.ccOn = true ∧ (s.qp q).cnpSeen = false)
  ∧ (∃ (s : State) (n q p : Nat) (qs : List Nat) (x : Xfer), s.readyQps n = q :: qs ∧ (s.readyQps n).find? (fun p =>
      decide ((s.port n).rr < p)) = none ∧ (s.qp q).resp = [] ∧ s.nextMsg q = some x ∧ p = x.psn.getD (s.qp q).sqPsn)
  ∧ (∃ (s : State) (n q : Nat) (qs : List Nat) (d : Resp) (ds : List Resp), s.readyQps n = q :: qs ∧ (s.readyQps
      n).find? (fun p => decide ((s.port n).rr < p)) = none ∧ (s.qp q).resp = d :: ds ∧ d.nak = false ∧ d.data.length
      ≤ (s.qp q).pmtu)
  ∧ (∃ (s : State) (q m : Nat) (d : Rd) (x : Xfer) (n c : Nat), s.qpUp q = true ∧ (s.unacked q).find? (fun x => x.id
      == m && x.kind == 1) = some x ∧ x.use = .fetch n c) :=
  ⟨⟨sends { sqPsn := 10 } [sent5], 5, 9, sent5, by decide +kernel⟩,
   ⟨sends { sqPsn := 10, lat := [(0x68, 0x300#32)] } [sent5], _, 5, 9, by decide +kernel, by decide +kernel, rfl,
       by decide +kernel⟩,
   ⟨rts {}, 5, 0, by decide +kernel⟩,
   ⟨rts {}, 5, 0, 0, by decide +kernel⟩,
   ⟨sends { sqPsn := 10, lat := [(0x68, 0x7000#32)] } [sent5], _, 5, 9, by decide +kernel, by decide +kernel, rfl,
       by decide +kernel⟩,
   ⟨sends { retries := 7 } [{ msg5 with psn := some 9 }], 5, 9, by decide +kernel⟩,
   ⟨sends { lat := [(0x68, 0x300#32)] } [{ msg5 with psn := some 9 }], 5, 9, by decide +kernel⟩,
   ⟨rts { rnrWait := true }, 5, by decide +kernel⟩,
   ⟨{ rts {} with regs := [(0x80048, 0x10064#32)] }, 5, by decide +kernel⟩,
   ⟨rts {}, 5, by decide +kernel⟩,
   ⟨sends { rate := 100000, sqPsn := 7 } [{ msg5 with len := 64 }], 0, 5, 7, [], { msg5 with len := 64 },
       by decide +kernel⟩,
   ⟨rts { rate := 100000, resp := [{ win := 80, data := zeros 64 }] }, 0, 5, [], { win := 80, data := zeros 64 }, [],
       by decide +kernel⟩,
   ⟨sends {} [({ msg5 with kind := 1, use := .fetch 0 0 })], 5, 0, { data := [] },
       { msg5 with kind := 1, use := .fetch 0 0 }, 0, 0, by decide +kernel⟩⟩

end Sys2Proof.Tests.Power
end

