-- ==== Sys2Proof/Tests/WitnessReam.lean ====
section
/-! SUPPORT. States and operands that meet the hypotheses of each clause about reams, key slots and ingest. -/

namespace Sys2Proof.Tests.Reams
set_option Elab.async false
open Sys2Proof.Machine Sys2Proof.Tests
set_option maxRecDepth 100000

def resident : State := { base with ream := { base.ream with resident := true, admission := true } }
def committing (m : Commit) : State := { (withRunning resident (desc 0x13 [])) with rel := { base.rel with commit := some m } }
def checkDesc : Bytes := desc 0x51 [(16, 1, 2), (32, 4, 64)]
def checking : State :=
  { withRunning resident checkDesc with rel := { base.rel with commit := some { cmd := 1, check := true, c := some 5 } } }
def slotIn (v : Slot) (s : State) : State := { s with slots := [(3, v)] }
def unwrapping (b : Bytes) : State :=
  { slotIn { unwrap := some (1, b) } (withRunning base (desc 0x20 [])) with sec := { base.sec with unwraps := [1] } }
def erasing : Slot := { loaded := true, erase := some (1, []) }
def profile : Bytes := bytesOf 32 [(8, 4, 64), (12, 4, 1024), (16, 1, 8), (18, 1, 3), (19, 1, 3), (22, 2, 4)]
def writeT1 (s : State) (a : Nat) (b : Bytes) : State := s.writeT1 a b []
def sealedBase : State := onPart base 0 { part0 with segs := FMap.set segs0 1 { base := 0x400000, limit := 0x400000, tier := 1, sealed := true } }
def ingestDesc : Bytes := desc 0x24 [(16, 2, 0xFFFF), (18, 1, 1), (20, 1, 1), (21, 1, 0xFF), (46, 6, 4096)]
def ingesting (s : State) (i : Ingest) : State := { withRunning s ingestDesc with ingests := [(1, i)] }
def tag0 : Bytes := gcmTag 0 [] (zeros 12) (zeros 64) []
def tagged (t : Bytes) : State :=
  { base with mem := { cells := (List.range 16).map fun k => (t1Addr (0x400000 + 64 + k), t.getD k 0) } }
/-- A blob for slot 3: plaintext of zeros for SM4, to the device, whose key is the number 1 (assumption 7). -/
def plain0 : Bytes := bytesOf 128 [(8, 1, 2)]
def blob0 : Bytes :=
  let c1 := pointBytes sm2G
  bytesOf 64 [(0, 4, 0x574B4E59), (4, 2, 1), (6, 1, 2), (16, 1, 1), (32, 2, 225)] ++ (4#8 :: c1
    ++ sm3 (natBe 32 sm2G.1 ++ plain0 ++ natBe 32 sm2G.2) ++ xorBytes plain0 (sm2Kdf c1 128))

def patchImage : Bytes :=
  header 0x54504E59 1 0 1 288 0 ++ Image.entryOf 144 144 ++ Image.recBytesOf 2 128 (program 1 [word 4 [], word 4 []])
def patchDesc : Bytes := desc 0x11 [(16, 1, 2), (32, 4, 288)]
def patchable : State := { plain with ream := { plain.ream with
  recs := plain.ream.recs ++ [{ type := 5, index := 0, body := Image.felt0 }, { type := 6, index := 0, body := Image.t0Body }] } }
def imgOf (v : Verdict) : Img := match v with
  | .good g _ _ => g
  | .bad .. => { hdr := [], recs := [], own := [], patch := false, en := 0, owner := 0 }

theorem witness_ReamLoading :
  (∃ (s u v : State) (r q raw cod : Nat) (c : Cmd) (img : Rd) (g : Img), s.passes r q 0x10 c u ∧ s.modeFree u c img ∧
      u.operand (cmdKey r q) c.part (c.f 16 1) (c.f 24 6) (c.f 32 4) v ∧ u.ream.job = none ∧ u.ream.resident = false ∧
      u.anyTest = false ∧ v.checkLoad c.part (c.f 32 4) c.coded (u.imageRead c img) = .good g raw cod)
  ∧ (∃ (s u v : State) (r q rs i : Nat) (b : Bool) (c : Cmd) (img : Rd), s.passes r q 0x10 c u ∧ s.modeFree u c img ∧
      u.operand (cmdKey r q) c.part (c.f 16 1) (c.f 24 6) (c.f 32 4) v ∧ u.ream.job = none ∧ u.ream.resident = false ∧
      u.anyTest = false ∧ v.checkLoad c.part (c.f 32 4) c.coded (u.imageRead c img) = .bad rs i b)
  ∧ (∃ (s : State) (j : ReamJob) (c : Cmd), s.ream.job = some j ∧ j.kind = 0 ∧ s.loadLines j = [] ∧ s.cmd? j.cmd =
      some c ∧ j.cmd = cmdKey c.ring c.seq) :=
  ⟨⟨withCmd base Image.loadDesc, Image.loading, _, 0, 0, 0, 0, cmdOf Image.loadDesc, { data := Image.loadImage }, Image.loadImg, passes_ok (by decide +kernel), Image.mode_ok, operand_ok (by decide +kernel), by decide +kernel, by decide +kernel, by decide +kernel, by
      rw [Image.image_ok, show (cmdOf Image.loadDesc).f 32 4 = 38304 by decide +kernel,
        show (cmdOf Image.loadDesc).coded = false by decide +kernel]
      exact Image.check_ok⟩,
   ⟨withCmd base (desc 0x10 [(16, 1, 0), (32, 4, 128)]), _, _, 0, 0, 1, 0xFFFF, false, cmdOf (desc 0x10
       [(16, 1, 0), (32, 4, 128)]), { data := [] }, passes_ok (by decide +kernel), ⟨by decide +kernel,
       by decide +kernel⟩, operand_ok (by decide +kernel), by decide +kernel⟩,
   ⟨{ withRunning base (desc 0x10 []) with ream := { base.ream with job := some ({ cmd := 1, kind := 0 }) } },
       { cmd := 1, kind := 0 }, running (desc 0x10 []), by decide +kernel⟩⟩

theorem witness_ReamPatchUnload :
  (∃ (s u v : State) (r q raw cod : Nat) (c : Cmd) (img : Rd) (g : Img), s.passes r q 0x11 c u ∧ s.modeFree u c img ∧
      u.operand (cmdKey r q) c.part (c.f 16 1) (c.f 24 6) (c.f 32 4) v ∧ u.ream.job = none ∧ u.ream.old = none ∧
      u.ream.resident = true ∧ c.part = u.ream.owner ∧ v.checkPatch (c.f 32 4) c.coded (u.imageRead c img) = .good g
      raw cod)
  ∧ (∃ (s u v : State) (r q rs i : Nat) (b : Bool) (c : Cmd) (img : Rd), s.passes r q 0x11 c u ∧ s.modeFree u c img ∧
      u.operand (cmdKey r q) c.part (c.f 16 1) (c.f 24 6) (c.f 32 4) v ∧ u.ream.job = none ∧ u.ream.old = none ∧
      u.ream.resident = true ∧ c.part = u.ream.owner ∧ v.checkPatch (c.f 32 4) c.coded (u.imageRead c img) = .bad rs i
      b)
  ∧ (∃ (s u : State) (r q : Nat) (c : Cmd), s.passes r q 0x12 c u ∧ c.part = u.ream.owner ∧ u.ream.job = none)
  ∧ (∃ (s u : State) (r q : Nat) (c : Cmd), s.passes r q 0x12 c u ∧ c.part = u.ream.owner ∧ u.ream.job ≠ none) :=
  ⟨⟨withCmd patchable patchDesc, _, _, 0, 0, 0, 0, cmdOf patchDesc, { data := patchImage }, imgOf ((withCmd patchable
       patchDesc).checkPatch 288 false { data := patchImage }), passes_ok (by decide +kernel), ⟨by decide +kernel,
       by decide +kernel⟩, operand_ok (by decide +kernel), by decide +kernel⟩,
   ⟨withCmd resident (desc 0x11 [(16, 1, 0), (32, 4, 128)]), _, _, 0, 0, 1, 0xFFFF, false, cmdOf (desc 0x11
       [(16, 1, 0), (32, 4, 128)]), { data := [] }, passes_ok (by decide +kernel), ⟨by decide +kernel,
       by decide +kernel⟩, operand_ok (by decide +kernel), by decide +kernel⟩,
   ⟨withCmd resident (desc 0x12 []), _, 0, 0, cmdOf (desc 0x12 []), passes_ok (by decide +kernel), by decide +kernel⟩,
   ⟨withCmd { resident with ream := { resident.ream with job := some { cmd := 1, kind := 1 } } } (desc 0x12 []), _, 0,
       0, cmdOf (desc 0x12 []), passes_ok (by decide +kernel), by decide +kernel⟩⟩

theorem witness_Commits :
  (∃ (s u : State) (r q : Nat) (c : Cmd), s.passes r q 0x13 c u ∧ u.rel.commit = none)
  ∧ (∃ (s u : State) (r q : Nat) (c : Cmd), s.passes r q 0x51 c u ∧ u.ream.resident = true ∧ c.part = u.ream.owner ∧
      64 + 32 * u.shardList.length ≤ c.f 32 4 ∧ u.rel.commit = none)
  ∧ (∃ (s u : State) (r q : Nat) (c : Cmd), s.passes r q 0x13 c u ∧ u.rel.commit ≠ none)
  ∧ (∃ (s u : State) (m : Commit) (c : Cmd) (n : Nat), s.rel.commit = some m ∧ m.check = false ∧ m.c = some n ∧
      s.stepsOpen m.c = false ∧ u = s.writeBackAll.appendAll ∧ u.staleLeft = false ∧ u.rowsLeft = false ∧ u.gat.flips
      = [] ∧ (u.append [{ kind := 7, body := natLe 8 n }]).rel.vault.lsn ≠ u.rel.vault.lsn ∧ s.cmd? m.cmd = some c ∧
      m.cmd = cmdKey c.ring c.seq)
  ∧ (∃ (s u w x v : State) (m : Commit) (c : Cmd) (n : Nat), s.rel.commit = some m ∧ m.check = true ∧ m.c = some n ∧
      s.stepsOpen m.c = false ∧ u = s.writeBackAll.appendAll ∧ u.staleLeft = false ∧ u.rowsLeft = false ∧ u.gat.flips
      = [] ∧ u.digestLines m = [] ∧ w = u.append (u.commitRecs m n) ∧ w.rel.vault.lsn ≠ u.rel.vault.lsn ∧
      s.cmd? m.cmd = some c ∧ m.cmd = cmdKey c.ring c.seq ∧
      x = w.openRange c.part (c.f 16 1) (c.f 24 6) (w.digestList n).length false ∧
      v = x.writeSeg (.result m.cmd) c.part (c.f 16 1) (c.f 24 6) (x.digestList n) [] ∧ v.cutOff c = false) :=
  ⟨⟨withCmd resident (desc 0x13 []), _, 0, 0, cmdOf (desc 0x13 []), passes_ok (by decide +kernel), by decide +kernel⟩,
   ⟨withCmd resident (desc 0x51 [(16, 1, 2), (32, 4, 64)]), _, 0, 0, cmdOf (desc 0x51 [(16, 1, 2), (32, 4, 64)]),
       passes_ok (by decide +kernel), by decide +kernel⟩,
   ⟨withCmd (committing { cmd := 1, check := false, c := none }) (desc 0x13 []), _, 0, 0, cmdOf (desc 0x13 []),
       passes_ok (by decide +kernel), by decide +kernel⟩,
   ⟨committing ({ cmd := 1, check := false, c := some 5 }), _, { cmd := 1, check := false, c := some 5 }, running
       (desc 0x13 []), 5, by decide +kernel, by decide +kernel, by decide +kernel, by decide +kernel, rfl,
       by decide +kernel⟩,
   ⟨checking, _, _, _, _, { cmd := 1, check := true, c := some 5 }, running checkDesc, 5, by decide +kernel, rfl, rfl,
       by decide +kernel, rfl, by decide +kernel, by decide +kernel, by decide +kernel, by decide +kernel, rfl,
       by decide +kernel, by decide +kernel, by decide +kernel, rfl, rfl, by decide +kernel⟩⟩

theorem witness_KeySlots :
  (∃ (s u v : State) (r q : Nat) (c : Cmd) (b rd : Rd), s.passes r q 0x20 c u ∧ (u.slot (c.f 16 2)).loaded = false ∧
      (u.slot (c.f 16 2)).unwrap = none ∧ u.slotTaken (cmdKey r q) (c.f 16 2) = false ∧ u.operand (cmdKey r q) c.part
      (c.f 18 1) (c.f 24 6) (c.f 20 2) v ∧ rd = v.readSeg c.part (c.f 18 1) (c.f 24 6) (c.f 20 2) (u.operOf (cmdKey r
      q) c.part (c.f 18 1) b))
  ∧ (∃ (s u : State) (r q : Nat) (c : Cmd) (b : Rd), s.passes r q 0x20 c u ∧ ((u.slot (c.f 16 2)).loaded = true ∨
      (u.slot (c.f 16 2)).unwrap ≠ none ∨ u.slotTaken (cmdKey r q) (c.f 16 2) = true))
  ∧ (∃ (s : State) (n k : Nat) (b pt : Bytes) (c : Cmd), (s.slot n).unwrap = some (k, b) ∧ s.installs.head? = some k ∧
      s.unwrapBlob b = .inr pt ∧ s.cmd? k = some c ∧ k = cmdKey c.ring c.seq)
  ∧ (∃ (s : State) (n k e : Nat) (b : Bytes) (c : Cmd), (s.slot n).unwrap = some (k, b) ∧ s.installs.head? = some k ∧
      s.unwrapBlob b = .inl e ∧ s.cmd? k = some c ∧ k = cmdKey c.ring c.seq)
  ∧ (∃ (s u : State) (r q : Nat) (c : Cmd), s.passes r q 0x21 c u ∧ (u.slot (c.f 16 2)).bound = 0 ∧ (u.slot (c.f 16
      2)).loaded = true ∧ (u.slot (c.f 16 2)).erase = none)
  ∧ (∃ (s : State) (n k : Nat) (ws : List Nat) (c : Cmd), (s.slot n).erase = some (k, ws) ∧ (∀ w ∈ ws, s.cmd? w =
      none) ∧ (s.slot n).bound = 0 ∧ s.cmd? k = some c ∧ k = cmdKey c.ring c.seq)
  ∧ (∃ (s u v : State) (r q : Nat) (c : Cmd), s.passes r q 0x22 c u ∧ ((u.slot (c.f 16 2)).loaded = true → (u.slot
      (c.f 16 2)).usable (cmdKey r q) = true) ∧ u.openAsk c.part (c.f 18 1) (c.f 24 6) 64 true = (true, v)) :=
  ⟨⟨withCmd base (desc 0x20 [(16, 2, 3), (20, 2, 289)]), _, _, 0, 0, cmdOf (desc 0x20 [(16, 2, 3), (20, 2, 289)]),
       { data := [] }, _, passes_ok (by decide +kernel), by decide +kernel, by decide +kernel, by decide +kernel,
       operand_ok (by decide +kernel), rfl⟩,
   ⟨withCmd (slotIn { loaded := true } base) (desc 0x20 [(16, 2, 3), (20, 2, 289)]), _, 0, 0, cmdOf (desc 0x20
       [(16, 2, 3), (20, 2, 289)]), { data := [] }, passes_ok (by decide +kernel), by decide +kernel⟩,
   ⟨unwrapping blob0, 3, 1, blob0, plain0, running (desc 0x20 []), by decide +kernel⟩,
   ⟨unwrapping [], 3, 1, 1, [], running (desc 0x20 []), by decide +kernel⟩,
   ⟨withCmd (slotIn { loaded := true } base) (desc 0x21 [(16, 2, 3)]), _, 0, 0, cmdOf (desc 0x21 [(16, 2, 3)]),
       passes_ok (by decide +kernel), by decide +kernel⟩,
   ⟨slotIn erasing (withRunning base (desc 0x21 [])), 3, 1, [], running (desc 0x21 []), by decide +kernel⟩,
   ⟨withCmd (slotIn { loaded := true } base) (desc 0x22 [(16, 2, 3)]), _, _, 0, 0, cmdOf (desc 0x22 [(16, 2, 3)]),
       passes_ok (by decide +kernel), by decide +kernel, Prod.ext (by decide +kernel) rfl⟩⟩

theorem witness_Ingesting :
  (∃ (s u v : State) (r q : Nat) (c : Cmd) (b rd : Rd), s.passes r q 0x23 c u ∧ u.operand (cmdKey r q) c.part (c.f 17
      1) (c.f 24 6) 32 v ∧ rd = v.readSeg c.part (c.f 17 1) (c.f 24 6) 32 (u.operOf (cmdKey r q) c.part (c.f 17 1) b)
      ∧ rd.poison = [] ∧ profileBad rd.data = false)
  ∧ (∃ (s u v : State) (r q : Nat) (c : Cmd) (rd : Rd), s.passes r q 0x24 c u ∧ u.openAsk c.part c.iSrc.1 c.iSrc.2 (if
      c.iSealed then 64 else 0) false = (true, v) ∧ rd = v.readSeg c.part c.iSrc.1 c.iSrc.2 64 { data := [] } ∧
      v.ingestCheck (cmdKey r q) c rd.data (!rd.poison.isEmpty) = 0)
  ∧ (∃ (s v u : State) (r q : Nat) (c : Cmd) (i : Ingest) (rd : Rd) (iv aad ct : Bytes), FMap.find s.ingests (cmdKey r
      q) = some i ∧ s.cmd? (cmdKey r q) = some c ∧ cmdKey c.ring c.seq = cmdKey r q ∧ i.stage = 0 ∧ s.openAsk c.part
      c.iSrc.1 c.iSrc.2 (eBytes i.head) false = (true, v) ∧ rd = v.readSeg c.part c.iSrc.1 c.iSrc.2 (eBytes i.head)
      { data := [] } ∧ u = v.openRange c.part c.iDst.1 c.iDst.2 i.len false ∧ rd.poison = [] ∧ iv = (i.head.drop
      16).take 12 ∧ aad = i.head ++ (rd.data.drop 64).take (eAad i.head) ∧ ct = (rd.data.drop (64 + eAad i.head)).take
      i.len ∧ gcmTag (s.slot c.iSlot).alg (s.slot c.iSlot).ingestKey iv aad ct = rd.data.drop (64 + eAad i.head +
      i.len))
  ∧ (∃ (s v u : State) (r q : Nat) (c : Cmd) (i : Ingest) (rd : Rd) (iv aad ct : Bytes), FMap.find s.ingests (cmdKey r
      q) = some i ∧ s.cmd? (cmdKey r q) = some c ∧ cmdKey c.ring c.seq = cmdKey r q ∧ i.stage = 0 ∧ s.openAsk c.part
      c.iSrc.1 c.iSrc.2 (eBytes i.head) false = (true, v) ∧ rd = v.readSeg c.part c.iSrc.1 c.iSrc.2 (eBytes i.head)
      { data := [] } ∧ u = v.openRange c.part c.iDst.1 c.iDst.2 i.len false ∧ iv = (i.head.drop 16).take 12 ∧ aad =
      i.head ++ (rd.data.drop 64).take (eAad i.head) ∧ ct = (rd.data.drop (64 + eAad i.head)).take i.len ∧ (rd.poison
      ≠ [] ∨ gcmTag (s.slot c.iSlot).alg (s.slot c.iSlot).ingestKey iv aad ct ≠ rd.data.drop (64 + eAad i.head +
      i.len)))
  ∧ (∃ (s v w : State) (r q n : Nat) (c : Cmd) (i : Ingest) (prof : Bytes) (src : Nat × Nat) (rd : Rd), FMap.find
      s.ingests (cmdKey r q) = some i ∧ s.cmd? (cmdKey r q) = some c ∧ cmdKey c.ring c.seq = cmdKey r q ∧ i.stage = 1
      ∧ i.profile = some prof ∧ src = (if c.iSealed then c.iDst else c.iSrc) ∧ s.segLines c.part c.iOut.1 c.iOut.2
      c.iOutCap = [] ∧ s.openAsk c.part src.1 src.2 i.len false = (true, v) ∧ rd = v.readSeg c.part src.1 src.2 i.len
      { data := [] } ∧ rd.poison = [] ∧ w = v.each (shingleLists prof rd.data c.iOutCap).2 (fun s x => (s.openRange
      c.part c.iOut.1 (c.iOut.2 + x.1) (listOf prof (x.2.map fun y => (y.1, y.2.1))).length false).writeSeg .other
      c.part c.iOut.1 (c.iOut.2 + x.1) (listOf prof (x.2.map fun y => (y.1, y.2.1))) []) ∧ n = ((shingleLists prof
      rd.data c.iOutCap).2.map fun x => x.2.length).foldl (· + ·) 0) :=
  ⟨⟨withCmd (writeT1 base 0 profile) (desc 0x23 []), _, _, 0, 0, cmdOf (desc 0x23 []), { data := [] }, _, passes_ok
       (by decide +kernel), operand_ok (by decide +kernel), rfl, by decide +kernel⟩,
   ⟨withCmd sealedBase (desc 0x24 [(16, 2, 0xFFFF), (18, 1, 1), (20, 1, 1), (21, 1, 0xFF), (52, 5, 64)]), _, _, 0, 0,
       cmdOf (desc 0x24 [(16, 2, 0xFFFF), (18, 1, 1), (20, 1, 1), (21, 1, 0xFF), (52, 5, 64)]), _, passes_ok
       (by decide +kernel), Prod.ext (by decide +kernel) rfl, rfl, by decide +kernel⟩,
   ⟨ingesting (tagged tag0) ({ head := zeros 64 }), _, _, 0, 1, running ingestDesc, { head := zeros 64 }, _, _, _, _,
       by decide +kernel, by decide +kernel, by decide +kernel, by decide +kernel, Prod.ext (by decide +kernel) rfl,
       rfl, rfl, by decide +kernel, rfl, rfl, rfl, by decide +kernel⟩,
   ⟨ingesting (tagged (zeros 16)) ({ head := zeros 64 }), _, _, 0, 1, running ingestDesc, { head := zeros 64 }, _, _,
       _, _, by decide +kernel, by decide +kernel, by decide +kernel, by decide +kernel, Prod.ext (by decide +kernel)
       rfl, rfl, rfl, rfl, rfl, rfl, by decide +kernel⟩,
   ⟨ingesting (writeT1 sealedBase 0x400000 (zeros 8)) ({ stage := 1, len := 8, profile := some profile }), _, _, 0, 1,
       _, running ingestDesc, { stage := 1, len := 8, profile := some profile }, profile, _, _, by decide +kernel,
       by decide +kernel, by decide +kernel, by decide +kernel, by decide +kernel, rfl, by decide +kernel, Prod.ext
       (by decide +kernel) rfl, rfl, by decide +kernel, rfl, rfl⟩⟩

end Sys2Proof.Tests.Reams
end

