-- ==== Sys2Proof/Tests/WitnessRegs.lean ====
section
/-! SUPPORT. States and operands that meet the hypotheses of each clause about events, registers,
    the mailbox and management. -/

namespace Sys2Proof.Tests.Regs
set_option Elab.async false
open Sys2Proof.Machine Sys2Proof.Tests
set_option maxRecDepth 100000

def reg (a : Nat) (w : Word) : State := { base with regs := [(a, w)] }
def srcs (i : Nat) (v : Src) (w : Word) : State :=
  { base with evt := { srcs := [(i, v)] }, regs := [(0x70000 + 16 * i, w), (0x70008 + 16 * i, 0x00010002#32)] }
/-- Source 7 is due, with a route of two vectors; the partition's priority words are held. -/
def routed (h : HostPort) (ws : FMap Word) (p : Part) : State :=
  { base with
    parts := [(0, { p with prioLines := 1, prioHeld := [0], prioWords := ws })]
    hp := h
    evt := { srcs := [(7, { st := 1, count := 1 })] }
    regs := [(0x70070, 0#32), (0x70074, 0x01000000#32), (0x70078, 0x00010002#32)]
    clk := [(21, 1000)] }

/-- The first two MSI-X vectors are open. -/
def openHp : HostPort :=
  { base.hp with msixEnable := true, msix := [(0, 0x1000#32), (2, 7#32), (3, 0#32), (4, 0x2000#32), (6, 9#32), (7, 0#32)] }

theorem one_line {f : Nat → Bool} {a b : Nat} (h0 : b = 0) (h : f 0 = true) : ∀ l, a ≤ l → l ≤ b → f l = true := by
  intro l _ hl
  subst h0
  rw [Nat.le_zero.mp hl, h]

def tel (x : Tel) : State := { base with tel := x }
def mbx (n : Nat) (c : Sec) : State := { reg 0xB0008 (BitVec.ofNat 32 n) with sec := c }
def bundle5 : Bytes := [0, 0, 0, 0, 0, 0, 5]
def inState (n : Nat) (f : Tile → Tile) : State := onTile base fun x => f { x with st := n }
def poke (b : Bytes) : Memory := { cells := (b.zipIdx.map fun (v, i) => (spAddr 0 0 + i, v)).filter fun e => e.2 != 0 }
def dbg (b : Nat × Nat × Nat) : State := { base with dbg := { busy := some b } }
def sealedFrame : State := onPart base 0 { part0 with segs := [(0, { base := 0, limit := 0x400000, tier := 1, sealed := true })] }

theorem witness_Events :
  (∃ (s : State) (i : Nat), i < 512 ∧ (s.src i).st = 1 ∧ s.srcOwner i = 16 ∧ (s.src i).timer + s.coalCycles i ≤ s.now)
  ∧ (∃ (s : State) (x : Word), (s.src (bitsOf x.toNat 8 0)).st = 2 ∧ s.autoAck (bitsOf x.toNat 8 0) = false ∧
      s.srcOpen (bitsOf x.toNat 8 0) = true ∧ (s.src (bitsOf x.toNat 8 0)).count = 0)
  ∧ (∃ (s : State) (x : Word), (s.src (bitsOf x.toNat 8 0)).st = 2 ∧ s.autoAck (bitsOf x.toNat 8 0) = false ∧
      s.srcOpen (bitsOf x.toNat 8 0) = true ∧ (s.src (bitsOf x.toNat 8 0)).count ≠ 0 ∧ (s.src (bitsOf x.toNat 8
      0)).count < s.coalCount (bitsOf x.toNat 8 0))
  ∧ (∃ (s : State) (x : Word), (s.src (bitsOf x.toNat 8 0)).st ≠ 2)
  ∧ (∃ (s : State) (x : Word), s.autoAck (bitsOf x.toNat 8 0) = true)
  ∧ (∃ (s : State) (i p : Nat), s.deliversTo i p ∧ (s.part p).remote = false ∧ s.routeOk i p ∧ (∀ k, k ≤ s.routeN i →
      s.msixOpen ((s.part p).msixBase + s.routeVec i + k) = true))
  ∧ (∃ (s : State) (i p : Nat) (words : List (Nat × Word)), s.deliversTo i p ∧ (s.part p).remote = false ∧ s.routeOk i
      p ∧ (∀ l, s.routeFirst i / 16 ≤ l → l ≤ (s.routeFirst i + s.routeN i) / 16 → (s.part p).prioHeld.contains l =
      true) ∧ words = (List.range (s.routeN i + 1)).map (fun k => (s.routeFirst i + k, FMap.get (s.part p).prioWords
      (s.routeFirst i + k) 0)) ∧ (∀ k, k ≤ s.routeN i → s.msixOpen ((s.part p).msixBase + s.routeVec i + k) = true))
  ∧ (∃ (s : State) (i p : Nat), s.deliversTo i p ∧ (s.part p).remote = false ∧ s.routeOk i p ∧ (∀ k, k ≤ s.routeN i →
      s.msixOpen ((s.part p).msixBase + s.routeVec i + k) = false))
  ∧ (∃ (s : State) (i p : Nat), s.deliversTo i p ∧ (s.part p).remote = false ∧ ¬ s.routeOk i p)
  ∧ (∃ (s : State) (i p : Nat), s.deliversTo i p ∧ (s.part p).remote = true) :=
  ⟨⟨{ srcs 7 { st := 1, count := 1 } 16 with clk := [(21, 1000)] }, 7, by decide +kernel⟩,
   ⟨srcs 7 { st := 2 } 0, 7#32, by decide +kernel⟩,
   ⟨srcs 7 { st := 2, count := 1 } 0, 7#32, by decide +kernel⟩,
   ⟨srcs 7 {} 0, 7#32, by decide +kernel⟩,
   ⟨srcs 7 { st := 2 } 0x100, 7#32, by decide +kernel⟩,
   ⟨routed openHp [] part0, 7, 0, delivers_ok (by decide +kernel), by decide +kernel, route_ok (by decide +kernel),
       by decide +kernel⟩,
   ⟨routed openHp [(0, 0x110#32), (1, 0x105#32)] part0, 7, 0, _, delivers_ok (by decide +kernel), by decide +kernel,
       route_ok (by decide +kernel), one_line (by decide +kernel) (by decide +kernel), rfl, by decide +kernel⟩,
   ⟨routed base.hp [] part0, 7, 0, delivers_ok (by decide +kernel), by decide +kernel, route_ok (by decide +kernel),
       by decide +kernel⟩,
   ⟨routed openHp [] ({ part0 with lat := [] }), 7, 0, delivers_ok (by decide +kernel), by decide +kernel, notRoute_ok
       (by decide +kernel)⟩,
   ⟨routed openHp [] ({ part0 with remote := true, attachQp := 5 }), 7, 0, delivers_ok (by decide +kernel),
       by decide +kernel⟩⟩

theorem witness_TimeAndCounters :
  (∃ (s : State) (x : Word), x.getLsbD 0 = true ∧ s.tel.busy = false)
  ∧ (∃ (s : State) (x : Word), s.tel.busy = true)
  ∧ (∃ (s : State), s.tel.busy = true) :=
  ⟨⟨base, 1#32, by decide +kernel⟩,
   ⟨tel { busy := true }, 1#32, by decide +kernel⟩,
   ⟨tel { busy := true }, by decide +kernel⟩⟩

theorem witness_Registers :
  (∃ (s : State) (w : Word), FMap.find s.tel.hi 0x110 = some w)
  ∧ (∃ (s : State) (x : Word) (p : Nat), p < 16)
  ∧ (∃ (s : State) (x : Word) (n : Nat), n < 4096)
  ∧ (∃ (s : State) (a : Nat) (x : Word), s.onlyStores a x)
  ∧ (∃ (s : State) (a : Nat) (x : Word), (a = 0xB0008 ∨ 0xB1000 ≤ a ∧ a < 0xB2000) ∧ a % 4 = 0 ∧ s.sec.busy = true)
  ∧ (∃ (s : State) (a : Nat), lowWord a = true)
  ∧ (∃ (s : State) (a : Nat) (w : Word), lowWord a = true ∧ FMap.find s.tel.hi a = some w)
  ∧ (∃ (s : State) (a : Nat), lowWord a = true ∧ FMap.find s.tel.hi a = none)
  ∧ (∃ (s : State) (a : Nat) (x : Word), a < 0x100000 ∧ a % 4 = 0 ∧ writableReg a = false)
  ∧ (∃ (s : State) (a : Nat) (x : Word), a < 0x100000 ∧ a % 4 = 0 ∧ mappedReg a = false) :=
  ⟨⟨tel { hi := [(0x110, 9#32)] }, 9#32, by decide +kernel⟩,
   ⟨base, 0, 1, by decide +kernel⟩,
   ⟨base, 0, 1, by decide +kernel⟩,
   ⟨base, 0x74004, 7#32, stores_ok (by decide +kernel)⟩,
   ⟨mbx 0 { busy := true }, 0xB0008, 7#32, by decide +kernel⟩,
   ⟨base, 0x110, by decide +kernel⟩,
   ⟨tel { hi := [(0x110, 9#32)] }, 0x110, 9#32, by decide +kernel⟩,
   ⟨base, 0x110, by decide +kernel⟩,
   ⟨base, 0, 7#32, by decide +kernel⟩,
   ⟨base, 0xE0000, 7#32, by decide +kernel⟩⟩

theorem witness_Mailbox :
  (∃ (s : State), s.sec.busy = false ∧ s.mbxLen = 0)
  ∧ (∃ (s : State), s.sec.busy = false ∧ s.mbxLen = 1 ∧ fld (s.mbxIn 1) 0 1 ≤ 4)
  ∧ (∃ (s : State), s.sec.busy = false ∧ s.mbxLen = 4 ∧ fld (s.mbxIn 4) 0 4 < 4096)
  ∧ (∃ (s : State), s.sec.busy = false ∧ s.mbxLen = 64)
  ∧ (∃ (s : State) (b : Rd), s.sec.busy = false ∧ s.mbxLen = 12 ∧ s.imgLen ≤ 2 ^ 25 ∧ s.imgLost b = false)
  ∧ (∃ (s : State), s.sec.busy = false ∧ s.mbxLen = 0 ∧ s.updateEn = true ∧ s.fuse.svn < s.fwSvn)
  ∧ (∃ (s : State), s.sec.busy = false ∧ s.mbxLen = 0)
  ∧ (∃ (s : State) (b : Rd), s.sec.busy = false ∧ s.mbxLen = 12 ∧ s.imgLen ≤ 2 ^ 23 ∧ s.imgLost b = false)
  ∧ (∃ (s : State) (out : Bytes), s.sec.result = some (mbOk, out) ∧ s.sec.code = 0x11)
  ∧ (∃ (s : State) (out : Bytes), s.sec.result = some (mbOk, out) ∧ s.sec.code = 0x10 ∧ s.sec.bootSlot = 0)
  ∧ (∃ (s : State) (n : Nat) (out : Bytes), s.sec.result = some (n, out) ∧ n ≠ mbOk)
  ∧ (∃ (s : State), s.sec.busy = false ∧ s.mbxLen ≠ 0) :=
  ⟨⟨mbx 0 {}, by decide +kernel⟩,
   ⟨mbx 1 {}, by decide +kernel⟩,
   ⟨mbx 4 {}, by decide +kernel⟩,
   ⟨mbx 64 {}, by decide +kernel⟩,
   ⟨mbx 12 {}, { data := [] }, by decide +kernel⟩,
   ⟨{ mbx 0 { slotA := bundle5 } with regs := [(0xB0010, 2#32)] }, by decide +kernel⟩,
   ⟨mbx 0 {}, by decide +kernel⟩,
   ⟨mbx 12 {}, { data := [] }, by decide +kernel⟩,
   ⟨{ base with sec := { result := some (mbOk, []), code := 0x11 } }, [], by decide +kernel⟩,
   ⟨{ base with sec := { result := some (mbOk, []), code := 0x10 } }, [], by decide +kernel⟩,
   ⟨{ base with sec := { result := some (9, []) } }, 9, [], by decide +kernel⟩,
   ⟨mbx 1 {}, by decide +kernel⟩⟩

theorem witness_TestMode :
  (∃ (s : State), s.enabled s.dbgTile = true ∧ (s.tile s.dbgTile).st = 0 ∧ s.ream.resident = false ∧ s.ream.job =
      none)
  ∧ (∃ (s : State), (s.enabled s.dbgTile = false ∨ (s.tile s.dbgTile).st ≠ 0 ∨ s.ream.resident = true ∨ s.ream.job ≠
      none))
  ∧ (∃ (s : State), s.inTest s.dbgTile = true ∧ s.testRuns s.dbgTile = false ∧ (programWhyBy testWordBad
      s.fuse.tileMask (s.testProgram s.dbgTile)).contains rBadFormat = false)
  ∧ (∃ (s : State), (s.inTest s.dbgTile = false ∨ s.testRuns s.dbgTile = true ∨ (programWhyBy testWordBad
      s.fuse.tileMask (s.testProgram s.dbgTile)).contains rBadFormat = true))
  ∧ (∃ (s : State), s.testRuns s.dbgTile = false)
  ∧ (∃ (s : State), s.inTest s.dbgTile = false)
  ∧ (∃ (s : State) (c : Ctx), s.testRuns s.dbgTile = true ∧ s.ctx? s.dbgTile 0 = some c)
  ∧ (∃ (s : State), s.inTest s.dbgTile = true)
  ∧ (∃ (s : State) (x : Word), s.inTest s.keyIndex = true)
  ∧ (∃ (s : State) (x : Word), s.inTest s.keyIndex = false)
  ∧ (∃ (s : State) (x : Word), (∀ i, i < 8 → s.inTest (8 * s.keyGroup + i) = true))
  ∧ (∃ (s : State) (x : Word) (i : Nat), i < 8 ∧ s.inTest (8 * s.keyGroup + i) = false)
  ∧ (∃ (s : State), s.readOk = true ∧ s.dbg.busy = none)
  ∧ (∃ (s : State), s.writeOk = true ∧ s.dbg.busy = none)
  ∧ (∃ (s : State), (s.readOk = false ∨ s.dbg.busy ≠ none))
  ∧ (∃ (s : State), (s.writeOk = false ∨ s.dbg.busy ≠ none))
  ∧ (∃ (s : State) (n k : Nat), s.dbg.busy = some (0, n, k) ∧ s.peekSealed 0 n k = false)
  ∧ (∃ (s : State) (c n k : Nat), c < 3 ∧ s.dbg.busy = some (c, n, k) ∧ s.peekSealed c n k = true ∧ (c = 1 → s.hotTile
      n = false) ∧ s.peekLines c k = [])
  ∧ (∃ (s : State) (n k : Nat), s.dbg.busy = some (4, n, k)) :=
  ⟨⟨base, by decide +kernel⟩,
   ⟨plain, by decide +kernel⟩,
   ⟨{ inState 4 id with mem := poke (program 0 [word 4 []]) }, by decide +kernel⟩,
   ⟨base, by decide +kernel⟩,
   ⟨base, by decide +kernel⟩,
   ⟨base, by decide +kernel⟩,
   ⟨inState 4 fun x => { x with ctxs := [(0, ({ post := none }))] }, { post := none }, by decide +kernel⟩,
   ⟨inState 4 id, by decide +kernel⟩,
   ⟨inState 4 id, 0, by decide +kernel⟩,
   ⟨base, 0, by decide +kernel⟩,
   ⟨{ base with tiles := (List.range 8).map fun i => (i, { st := 4 }) }, 0, by decide +kernel⟩,
   ⟨base, 0, 0, by decide +kernel⟩,
   ⟨base, by decide +kernel⟩,
   ⟨inState 4 id, by decide +kernel⟩,
   ⟨dbg (0, 0, 0), by decide +kernel⟩,
   ⟨base, by decide +kernel⟩,
   ⟨dbg (0, 0, 0), 0, 0, by decide +kernel⟩,
   ⟨{ sealedFrame with dbg := { busy := some (2, 0, 0) } }, 2, 0, 0, by decide +kernel⟩,
   ⟨dbg (4, 0, 0), 0, 0, by decide +kernel⟩⟩

theorem witness_MctpAndDiscovery :
  (∃ (s : State) (n : Nat), s.pwr.st ≠ 0)
  ∧ (∃ (s : State), s.pwr.st ≠ 0)
  ∧ (∃ (s : State), s.pwr.st ≠ 0)
  ∧ (∃ (s : State), s.pwr.st ≠ 0)
  ∧ (∃ (s : State), s.pwr.st ≠ 0)
  ∧ (∃ (s : State) (n : Nat), s.pwr.st ≠ 0)
  ∧ (∃ (s : State), s.pwr.st ≠ 0)
  ∧ (∃ (s : State) (n v : Nat), s.pwr.st ≠ 0 ∧ pldmVersion n = some v)
  ∧ (∃ (s : State), s.pwr.st ≠ 0)
  ∧ (∃ (s : State) (n : Nat), s.pwr.st ≠ 0 ∧ pldmTypes.contains n = true)
  ∧ (∃ (s : State), s.pwr.st ≠ 0)
  ∧ (∃ (s : State) (h : Nat) (x : Nat × Nat), s.pwr.st ≠ 0 ∧ h ≠ 0 ∧ pdrs[h - 1]? = some x) :=
  ⟨⟨base, 0, by decide +kernel⟩,
   ⟨base, by decide +kernel⟩,
   ⟨base, by decide +kernel⟩,
   ⟨base, by decide +kernel⟩,
   ⟨base, by decide +kernel⟩,
   ⟨base, 0, by decide +kernel⟩,
   ⟨base, by decide +kernel⟩,
   ⟨base, 2, dmtfVersion 2, by decide +kernel⟩,
   ⟨base, by decide +kernel⟩,
   ⟨base, 0, by decide +kernel⟩,
   ⟨base, by decide +kernel⟩,
   ⟨base, 1, (0, 1), by decide +kernel⟩⟩

theorem witness_SensorsAndEffecters :
  (∃ (s : State) (n v : Nat), s.pwr.st ≠ 0 ∧ s.numSensor n = some v)
  ∧ (∃ (s : State) (n v : Nat), s.pwr.st ≠ 0 ∧ s.stateSensor n = some v)
  ∧ (∃ (s : State) (v : Nat), s.pwr.st ≠ 0 ∧ s.pwrLocked = false)
  ∧ (∃ (s : State) (n v : Nat), s.pwr.st ≠ 0 ∧ s.pwrLocked = true)
  ∧ (∃ (s : State), s.pwr.st ≠ 0)
  ∧ (∃ (s : State) (e : Nat), s.pwr.st ≠ 0)
  ∧ (∃ (s : State) (x : Nat × Nat) (es : List (Nat × Nat)), s.pwr.st ≠ 0 ∧ s.mgmt.events = x :: es)
  ∧ (∃ (s : State), s.pwr.st = 0) :=
  ⟨⟨base, 18, 25, by decide +kernel⟩,
   ⟨base, 20, 3, by decide +kernel⟩,
   ⟨base, 1, by decide +kernel⟩,
   ⟨reg 0xA0004 1, 1, 1, by decide +kernel⟩,
   ⟨base, by decide +kernel⟩,
   ⟨base, 1, by decide +kernel⟩,
   ⟨{ base with mgmt := { events := [(4, 99)] } }, (4, 99), [], by decide +kernel⟩,
   ⟨{ base with pwr := { st := 0 } }, by decide +kernel⟩⟩

theorem witness_StepRunsFront :
  (∃ (c : Instr) (cs : List Instr) (s : State), s.pending = c :: cs)
  ∧ (∃ (s : State), s.pending = []) :=
  ⟨⟨.quote, [], { base with pending := [.quote] }, by decide +kernel⟩,
   ⟨base, by decide +kernel⟩⟩

end Sys2Proof.Tests.Regs
end

