-- ==== Sys2Proof/Tests/WitnessRings.lean ====
section
/-! SUPPORT. States and operands that meet the hypotheses of each clause about rings, partitions and segments. -/

namespace Sys2Proof.Tests.Rings
set_option Elab.async false
open Sys2Proof.Machine Sys2Proof.Tests
set_option maxRecDepth 100000

def regs1 : FMap Word := ringLat.map fun e => (0x20040 + e.1, e.2)
def dbLine1 : Bytes := let b := natLe 4 1 ++ natLe 2 0; b ++ natLe 2 (crc32c b).toNat ++ zeros 56
def remotePart (p : Part) : Part := { p with remote := true, attachQp := 5 }
def qpsUp : Net := { qps := [(5, { st := 1 })] }
def remoteRing (r : Ring) : Ring := { r with lat := FMap.set r.lat 24 0x00040007#32 }
def remoteRead : State :=
  { onRing base 0 { remoteRing (ringIn 2) with prod := 1, reading := 1 } with
    io := { out := [{ id := 0, use := .desc 0, part := 0, kind := 1, len := 64, accepted := true,
                      data := withCrc ((desc 0x12 []).take 60) }] } }
def attachBlk : Bytes :=
  withCrc (bytesOf 124 [(0, 4, 0x54414E59), (4, 2, 1), (8, 1, 1), (80, 1, 2), (120, 2, 16)])
def attachingTo (x : Xfer) : State :=
  { withRunning base (desc 0x30 [(16, 1, 1), (18, 2, 5)]) with
    net := { qps := [(5, { st := 1, sqPsn := 1 })] }, io := { out := [x] }
    regs := [(0x10108, 0x00100010#32), (0x10110, 0x10000000#32)]
    parts := [(0, { part0 with lat := [] }), (1, { attaching := some (1, attachBlk, 9) })] }
def srcRing : Ring := { ringIn 2 with lat := FMap.set ringLat 32 0x00070000#32 }
def segDesc (op : Nat) (fs : List (Nat × Nat × Nat)) : Bytes := desc 0x33 ((16, 1, op) :: fs)
def waiting : Cmd := { cmdOf (desc 0x51 [(16, 1, 4), (32, 4, 0x800000)]) with seq := 1, phase := .parked 7 }
def parked : State :=
  let s := base.setCmd 1 waiting
  { s with fe := { s.fe with tasks := [(7, { cmd := 1, part := 0, seg := 4 })] } }
def booting : State := { base with pwr := { base.pwr with st := 2 } }
def rep0 : EscRep := { tile := 0, post := 0, version := 0, qn := [], qs := [] }
def lastReport : State :=
  let s := withPost plain postDesc { post0 with phase := 3 }
  { s with ream := { s.ream with escMsgs := [rep0] } }
def walker : State := { (base.setCmd 0 { cmdOf (desc 0x51 [(16, 1, 4), (24, 6, 0x1FF000), (32, 4, 8192)]) with phase := .walking }) with
  fe := { (base.setCmd 0 { cmdOf (desc 0x51 [(16, 1, 4), (24, 6, 0x1FF000), (32, 4, 8192)]) with phase := .walking }).fe with
    walks := [0], segCache := [] } }

theorem witness_RingEnableDisable :
  (∃ (s : State) (n : Nat), n < 4096 ∧ (s.ring n).st = 0 ∧ s.enableErr n = 0)
  ∧ (∃ (s : State) (n : Nat), n < 4096 ∧ (s.ring n).st = 0 ∧ s.enableErr n ≠ 0)
  ∧ (∃ (s : State) (n : Nat), n < 4096 ∧ (s.ring n).st ≠ 0 ∧ (s.ring n).st ≠ 5)
  ∧ (∃ (s : State) (n : Nat), s.ringDrained n = true ∧ (s.part (s.ring n).part).st ≠ 2) :=
  ⟨⟨{ base with regs := regs1 }, 1, by decide +kernel⟩,
   ⟨base, 1, by decide +kernel⟩,
   ⟨base, 0, by decide +kernel⟩,
   ⟨onRing base 0 (ringIn 5), 0, by decide +kernel⟩⟩

theorem witness_RingService :
  (∃ (s : State) (n : Nat), s.nextRing = some n ∧ (s.ring n).canFetch = true)
  ∧ (∃ (s : State) (n : Nat) (d : Rd) (ds : List Rd), (s.ring n).st = 2 ∧ (s.ring n).reading ≠ 0 ∧ (s.ring n).held =
      [] ∧ (s.ring n).canFetch = true ∧ ((s.ring n).remote = true → s.doneFor (.desc n) = true) ∧ (if (s.ring
      n).remote then s.descsRead n else ds) = [d] ∧ (s.ring n).visible d = true ∧ (opInfo (fld d.data 6 1)).isSome =
      true)
  ∧ (∃ (s : State) (n : Nat) (d : Rd) (ds : List Rd), (s.ring n).st = 2 ∧ (s.ring n).reading ≠ 0 ∧ (s.ring n).held =
      [] ∧ (s.ring n).remote = false ∧ (s.ring n).visible d = false ∧ (s.ring n).rereads = 0)
  ∧ (∃ (s : State) (n : Nat), (s.ring n).st = 2 ∧ (s.ring n).rereadWait = true ∧ (s.ring n).held = [])
  ∧ (∃ (s : State) (n : Nat), (s.ring n).armPending = true ∧ s.doneFor (.arm n) = true) :=
  ⟨⟨onRing base 0 { ringIn 2 with prod := 1 }, 0, by decide +kernel⟩,
   ⟨onRing base 0 { ringIn 2 with prod := 1, reading := 1 }, 0, { data := withCrc ((desc 0x12 []).take 60) }, _,
       by decide +kernel, by decide +kernel, by decide +kernel, by decide +kernel, by decide +kernel, rfl,
       by decide +kernel⟩,
   ⟨onRing base 0 { ringIn 2 with prod := 1, reading := 1 }, 0, { data := [] }, [], by decide +kernel⟩,
   ⟨onRing base 0 { ringIn 2 with rereadWait := true }, 0, by decide +kernel⟩,
   ⟨{ onRing base 0 { ringIn 1 with armPending := true } with io := { out := [{ id := 0, use := .arm 0, part := 0, accepted := true }] } },
       0, by decide +kernel⟩⟩

theorem witness_Doorbells :
  (∃ (s : State) (n a : Nat) (r : Ring), FMap.find s.fe.rings n = some r ∧ r.st = 1 ∧ r.remote = false ∧ r.lineHeld =
      true ∧ r.dbAddr = a / 64 * 64 ∧ r.armPending = false ∧ r.dbReread = false)
  ∧ (∃ (s : State) (n : Nat) (line : Bytes), (s.ring n).dbReread = true ∧ (s.ring n).remote = false ∧ (s.ring
      n).notified = false ∧ (s.ring n).dbOk (line.take 8) = true ∧ sub32 (fld (line.take 8) 0 4) (s.ring n).sqCons ≤
      (s.ring n).size ∧ sub32 (fld (line.take 8) 0 4) (s.ring n).prod ≤ (s.ring n).size)
  ∧ (∃ (s : State) (qp off p : Nat) (data : Bytes), s.qpUp qp = true ∧ s.attachPart qp = some p ∧ off < (s.part
      p).ringCount * 64 ∧ off % 64 = 0 ∧ data.length = 8 ∧ (s.ring ((s.part p).ringBase + off / 64)).st = 2 ∧ (s.ring
      ((s.part p).ringBase + off / 64)).remote = true) :=
  ⟨⟨onRing base 0 ({ ringIn 1 with lineHeld := true }), 0, 0x30000, { ringIn 1 with lineHeld := true },
       by decide +kernel⟩,
   ⟨onRing base 0 { ringIn 1 with dbReread := true }, 0, dbLine1, by decide +kernel⟩,
   ⟨{ onRing (onPart base 0 (remotePart part0)) 0 (remoteRing (ringIn 2)) with net := qpsUp }, 5, 0, 0, zeros 8,
       by decide +kernel⟩⟩

theorem witness_CompletionRecords :
  (∃ (s : State) (n : Nat) (e : LogRec), FMap.find (s.ring n).log (s.ring n).cqProd = some e ∧ ((s.ring n).live = true
      ∨ (s.ring n).st = 5) ∧ (s.part (s.ring n).part).reachable = true ∧ s.rel.stuck = false ∧ s.outFor (.result
      e.cmd) = false ∧ s.hostUp (s.ring n).part (s.ring n).qp = true)
  ∧ (∃ (s : State) (n : Nat) (e : LogRec), FMap.find (s.ring n).log (s.ring n).cqProd = some e ∧ s.outFor (.result
      e.cmd) = true)
  ∧ (∃ (s : State) (n c k : Nat) (v : Ctx) (p : Post), s.ctx? n c = some v ∧ v.ending = true ∧ (s.tile n).busy c =
      false ∧ v.failed = false ∧ v.post = some k ∧ s.post? k = some p ∧ p.fail = 0)
  ∧ (∃ (s u : State) (n k : Nat) (r : EscRep) (e : EscSum) (p : Post) (c : Cmd), s.ream.escMsgs.find? (fun r => r.tile
      == n) = some r ∧ r.post = k ∧ s.post? k = some p ∧ s.cmd? k = some c ∧ k = cmdKey c.ring c.seq ∧ p.phase = 3 ∧
      p.fail = 0 ∧ p.stage + 1 = hStages s.ream.hdr ∧ p.commit ≠ 1 ∧ p.commit ≠ 2 ∧ s.inTiles k = false ∧
      (s.ream.escMsgs.erase r).any (fun x => x.post == k) = false ∧ s.lookupOpen k p = false ∧ p.dropped = false ∧
      (s.sealsOut c = true → s.resultLost c = false ∧ (s.slot c.outSlot).outCtr < 2 ^ 64 - 1) ∧ e = FMap.get
      s.ream.escSums k { version := r.version } ∧ u =
      ({ s with ream := { s.ream with escMsgs := s.ream.escMsgs.erase r, escSums := FMap.set s.ream.escSums k { e with tiles := r.tile :: e.tiles, qn := addCounts e.qn r.qn, qs := addCounts e.qs r.qs } } }).each
      (List.range 32) (fun s l => s.decideLayer k l))
  ∧ (∃ (s : State) (n : Nat) (u : Use), s.recordDone n = some u ∧ (s.ring n).evtSrc < 512 ∧ (s.src (s.ring
      n).evtSrc).st = 1 ∧ (s.src (s.ring n).evtSrc).count + 1 < s.coalCount (s.ring n).evtSrc ∧ (s.src (s.ring
      n).evtSrc).count < 65535 ∧ (s.src (s.ring n).evtSrc).sentAt ≠ some s.now ∧ (s.part (s.ring n).part).resuming =
      false)
  ∧ (∃ (s : State) (r q : Nat) (c : Cmd), s.cmd? (cmdKey r q) = some c ∧ c.timedOut = false ∧ c.phase = .running ∧
      FMap.find s.ingests (cmdKey r q) = none ∧ s.post? (cmdKey r q) = none ∧ r < 4096 ∧ c.time + 1000 * (s.ring
      r).timeoutUs ≤ s.now) :=
  ⟨⟨onRing base 0 { ringIn 2 with log := [(0, ({ data := zeros 32, cmd := 0 }))] }, 0, { data := zeros 32, cmd := 0 },
       by decide +kernel⟩,
   ⟨{ onRing base 0 { ringIn 2 with log := [(0, ({ data := zeros 32, cmd := 0 }))] } with io := { out := [{ id := 0, use := .result 0, part := 0 }] } },
       0, { data := zeros 32, cmd := 0 }, by decide +kernel⟩,
   ⟨onTile (atWord (word 4 [])) (fun x => { x with ctxs := [(0, { ctx0 with ending := true })] }), 0, 0, 0,
       { ctx0 with ending := true }, { post0 with phase := 3 }, by decide +kernel⟩,
   ⟨lastReport, _, 0, 0, rep0, _, { post0 with phase := 3 }, { cmdOf postDesc with phase := .post },
       by decide +kernel, by decide +kernel, by decide +kernel, by decide +kernel, by decide +kernel,
       by decide +kernel, by decide +kernel, by decide +kernel, by decide +kernel, by decide +kernel,
       by decide +kernel, by decide +kernel, by decide +kernel, by decide +kernel, by decide +kernel, rfl, rfl⟩,
   ⟨{ onRing base 0 srcRing with io := { out := [{ id := 0, use := .record 0 0, part := 0, accepted := true }] }, evt := { srcs := [(7, { st := 1 })] }, regs := [(0x70078, 0x00010002#32)] },
       0, .record 0 0, by decide +kernel⟩,
   ⟨{ withRunning base (desc 0x12 []) with clk := [(21, 2000)] }, 0, 1,
       { cmdOf (desc 0x12 []) with seq := 1, phase := .running }, by decide +kernel⟩⟩

theorem witness_Attaching :
  (∃ (s : State) (p : Nat), p < 16 ∧ s.pwr.st = 3 ∧ s.hp.cxlOk = true ∧ (s.part p).st = 0 ∧ s.attachCheck p
      (s.featOffer p) false = 0)
  ∧ (∃ (s : State) (p : Nat), p < 16 ∧ s.pwr.st = 3 ∧ s.hp.cxlOk = true ∧ s.attachCheck p (s.featOffer p) false ≠ 0)
  ∧ (∃ (s : State) (p : Nat), s.pwr.st = 2)
  ∧ (∃ (s u : State) (r q : Nat) (c : Cmd), s.passes r q 0x30 c u ∧ (u.part (c.f 16 1)).st = 0 ∧ (u.part (c.f 16
      1)).attaching = none ∧ inRange (latF (u.attachLat (c.f 16 1)) 0x10 11 0) (latF (u.attachLat (c.f 16 1)) 0x10 28
      16) (c.f 18 2) = true ∧ u.qpUp (c.f 18 2) = true)
  ∧ (∃ (s u : State) (n m p k : Nat) (x : Xfer) (c : Cmd) (b : Rd), s.qpUp n = true ∧
      (s.unacked n).find? (fun y => y.id == m && y.kind == 1) = some x ∧ x.use = .attach k p ∧ s.cmd? k = some c ∧
      attachBlockBad b = false ∧ u = { s.modQp n (fun v => { v with retries := 0 }) with
          free := s.free + 1, io := { s.io with out := s.io.out.filter fun y => y.id != m } } ∧
      (u.attachRemote p (c.f 18 2) (s.freeVal.1 % 2 ^ 16) b.data).2 = 0)
  ∧ (∃ (s : State) (n m p k : Nat) (x : Xfer) (c : Cmd) (b : Rd), s.qpUp n = true ∧
      (s.unacked n).find? (fun y => y.id == m && y.kind == 1) = some x ∧ x.use = .attach k p ∧ s.cmd? k = some c ∧
      attachBlockBad b = true)
  ∧ (∃ (s u w : State) (n m p k tag : Nat) (x : Xfer) (c : Cmd) (b : Bytes), s.qpUp n = true ∧ s.psnOpen n m = true ∧
      s.unacked n = [x] ∧ x.endsBy m (s.qp n).pmtu = true ∧ s.io.out.find? (fun y => y.id == x.id) = some x ∧
      x.use = .attach k p ∧ (s.part p).attaching = some (k, b, tag) ∧ b ≠ [] ∧ s.cmd? k = some c ∧
      k = cmdKey c.ring c.seq ∧
      u = { s.modQp n (fun v => { v with retries := 0, rnr := 0, una := some (psnAdd m 1) }) with
          io := { s.io with out := s.io.out.filter fun y => y.id != x.id } }.modPart p
            (fun v => { v with attaching := none }) ∧
      u.attachRemote p (c.f 18 2) tag b = (w, 0))
  ∧ (∃ (s u v : State) (r q : Nat) (c : Cmd) (img rd : Rd), s.passes r q 0x32 c u ∧ c.f 16 2 < 4096 ∧ u.operand
      (cmdKey r q) c.part (c.f 18 1) (c.f 24 6) 64 v ∧ rd = v.readSeg c.part (c.f 18 1) (c.f 24 6) 64 (u.operOf
      (cmdKey r q) c.part (c.f 18 1) img) ∧ rd.poison = [] ∧ rd.data.length = 64 ∧ fld rd.data 0x18 1 % 2 = 1 ∧
      (u.ring (c.f 16 2)).st = 0 ∧ (let s1 := v.storeImage (c.f 16 2) rd.data; s1.ringCheck (c.f 16 2)
      { s1.ring (c.f 16 2) with lat := s1.group (ringReg (c.f 16 2)) ringOffs } = 0)) :=
  ⟨⟨{ base with regs := [(0x10120, 1#32)] }, 1, by decide +kernel⟩,
   ⟨base, 1, by decide +kernel⟩,
   ⟨booting, 0, by decide +kernel⟩,
   ⟨withCmd { base with net := qpsUp, regs := [(0x10110, 0x10000000#32)] } (desc 0x30 [(16, 1, 1), (18, 2, 5)]), _, 0,
       0, cmdOf (desc 0x30 [(16, 1, 1), (18, 2, 5)]), passes_ok (by decide +kernel), by decide +kernel⟩,
   ⟨attachingTo { id := 3, use := .attach 1 1, part := 1, kind := 1, qp := some 5, len := 128 }, _, 5, 3, 1, 1, _,
       running (desc 0x30 [(16, 1, 1), (18, 2, 5)]), { data := attachBlk }, by decide +kernel, rfl, rfl, by decide +kernel,
       by decide +kernel, rfl, by decide +kernel⟩,
   ⟨attachingTo { id := 3, use := .attach 1 1, part := 1, kind := 1, qp := some 5, len := 128 }, 5, 3, 1, 1, _,
       running (desc 0x30 [(16, 1, 1), (18, 2, 5)]), { data := zeros 128 }, by decide +kernel, rfl, rfl, by decide +kernel,
       by decide +kernel⟩,
   ⟨attachingTo { id := 3, use := .attach 1 1, part := 1, qp := some 5, len := 128, handed := 128, psn := some 0 }, _, _, 5, 0,
       1, 1, 9, _, running (desc 0x30 [(16, 1, 1), (18, 2, 5)]), attachBlk, by decide +kernel, by decide +kernel, rfl,
       by decide +kernel, by decide +kernel, rfl, by decide +kernel, by decide +kernel, by decide +kernel,
       by decide +kernel, rfl, Prod.ext rfl (by decide +kernel)⟩,
   ⟨withCmd base (desc 0x32 [(16, 2, 1), (18, 1, 2)]), _, _, 0, 0, cmdOf (desc 0x32 [(16, 2, 1), (18, 1, 2)]),
       { data := ringLat.foldl (fun b f => patchBytes b f.1 (natLe 4 f.2.toNat)) (zeros 64) }, _, passes_ok
       (by decide +kernel), by decide +kernel, operand_ok (by decide +kernel), rfl, by decide +kernel⟩⟩

theorem witness_Detaching :
  (∃ (s u : State) (r q : Nat) (c : Cmd), s.passes r q 0x31 c u ∧ (u.part (c.f 16 1)).st = 1 ∧ (u.part (c.f 16
      1)).detach = none ∧ (u.ream.resident && u.ream.owner = c.f 16 1) = false)
  ∧ (∃ (s : State) (p k : Nat) (c : Cmd), (s.part p).detach = some k ∧ s.detachReady p k = true ∧ s.closingLines (· ==
      p) = [] ∧ s.cmd? k = some c ∧ c.part ≠ p)
  ∧ (∃ (s : State) (p k : Nat) (c : Cmd), (s.part p).detach = some k ∧ s.detachReady p k = true ∧ s.closingLines (· ==
      p) = [] ∧ s.cmd? k = some c ∧ c.part = p ∧ k = cmdKey c.ring c.seq ∧ (s.part p).st = 2)
  ∧ (∃ (s : State) (n p : Nat), s.ringDrained n = true ∧ (s.ring n).part = p ∧ (s.part p).st = 2 ∧ (s.part p).detach =
      none ∧ (s.endRing n).ringsOf p = [])
  ∧ (∃ (s : State) (p : Nat), (s.part p).resetBusy = true ∧ (∀ e ∈ s.fe.cmds, e.2.part ≠ p) ∧ (∀ n ∈ s.ringsOf p,
      (s.part p).st = 3 ∨ s.ringDrained n = true)) :=
  ⟨⟨withCmd (onPart base 1 { part0 with lat := [] }) (desc 0x31 [(16, 1, 1)]), _, 0, 0, cmdOf (desc 0x31
       [(16, 1, 1)]), passes_ok (by decide +kernel), by decide +kernel⟩,
   ⟨onPart (withRunning base (desc 0x31 [(16, 1, 1)])) 1 { part0 with lat := [], st := 2, detach := some 1 }, 1, 1,
       { cmdOf (desc 0x31 [(16, 1, 1)]) with seq := 1, phase := .running }, by decide +kernel⟩,
   ⟨onPart (withRunning (onRing base 0 (ringIn 2)) (desc 0x31 [])) 0 { part0 with st := 2, detach := some 1 }, 0, 1,
       { cmdOf (desc 0x31 []) with seq := 1, phase := .running }, by decide +kernel⟩,
   ⟨onPart (onRing base 0 (ringIn 5)) 0 { part0 with st := 2 }, 0, 0, by decide +kernel⟩,
   ⟨onPart base 1 { part0 with lat := [], resetBusy := true }, 1, by decide +kernel⟩⟩

theorem witness_SegmentSetup :
  (∃ (s u : State) (r q : Nat) (c : Cmd), s.segFree = true ∧ s.passes r q 0x33 c u ∧ sOp c.desc = 0 ∧ u.createCheck
      (cmdKey r q) c.part c.desc = 0)
  ∧ (∃ (s u : State) (r q : Nat) (c : Cmd) (v : Seg), s.segFree = true ∧ s.passes r q 0x33 c u ∧ sOp c.desc = 2 ∧
      u.mapCheck c.part c.desc = 0 ∧ u.lostLines c.part c.desc = [] ∧ FMap.find (u.part c.part).segs (sSeg c.desc) =
      some v)
  ∧ (∃ (s u : State) (r q : Nat) (c : Cmd), s.segFree = true ∧ s.passes r q 0x33 c u ∧ sOp c.desc = 4 ∧ u.areaCheck
      c.part c.desc = 0) :=
  ⟨⟨withCmd base (segDesc 0 [(17, 1, 5), (19, 1, 1), (24, 8, 0xA00000), (32, 8, 0x200000)]), _, 0, 0, cmdOf (segDesc 0
       [(17, 1, 5), (19, 1, 1), (24, 8, 0xA00000), (32, 8, 0x200000)]), by decide +kernel, passes_ok
       (by decide +kernel), by decide +kernel⟩,
   ⟨withCmd base (segDesc 2 [(17, 1, 4), (40, 4, 1), (44, 4, 1), (24, 8, 0xA00000)]), _, 0, 0, cmdOf (segDesc 2
       [(17, 1, 4), (40, 4, 1), (44, 4, 1), (24, 8, 0xA00000)]),
       { limit := 0x400000, tier := 1, paged := true, map := [(0, 0x800000)] }, by decide +kernel, passes_ok
       (by decide +kernel), by decide +kernel⟩,
   ⟨withCmd base (segDesc 4 [(17, 1, 2)]), _, 0, 0, cmdOf (segDesc 4 [(17, 1, 2)]), by decide +kernel, passes_ok
       (by decide +kernel), by decide +kernel⟩⟩

theorem witness_SegmentRemoval :
  (∃ (s u : State) (r q : Nat) (c : Cmd) (v : Seg), s.segFree = true ∧ s.passes r q 0x33 c u ∧ sOp c.desc = 1 ∧ sSeg
      c.desc ≤ 7 ∧ u.heldSeg c.part (sSeg c.desc) = some v ∧ u.holdsTable c.part (sSeg c.desc) = false ∧
      (u.fe.tasks.filter fun e => e.2.part == c.part && e.2.seg == sSeg c.desc) = [])
  ∧ (∃ (s u : State) (r q : Nat) (c : Cmd) (v : Seg), s.segFree = true ∧ s.passes r q 0x33 c u ∧ sOp c.desc = 3 ∧
      u.mapShape c.part c.desc = some v)
  ∧ (∃ (s u : State) (r q n k : Nat) (c c' : Cmd) (v : Seg) (e : Task), s.segFree = true ∧ s.passes r q 0x33 c u ∧ sOp
      c.desc = 1 ∧ sSeg c.desc ≤ 7 ∧ u.heldSeg c.part (sSeg c.desc) = some v ∧ u.holdsTable c.part (sSeg c.desc) =
      false ∧ u.fe.held = [] ∧ (u.fe.tasks.filter fun e => e.2.part == c.part && e.2.seg == sSeg c.desc) = [(n, e)] ∧
      e.cmd = k ∧ u.cmd? k = some c' ∧ k = cmdKey c'.ring c'.seq ∧ k ≠ cmdKey r q)
  ∧ (∃ (s : State) (p g : Nat) (d : SegDrain) (c : Cmd) (v : Seg), s.fe.drain = some d ∧ d.part = p ∧ d.seg = g ∧
      d.pages = none ∧ s.drained d = true ∧ s.drainLines d = [] ∧ s.cmd? d.cmd = some c ∧ c.op = 0x33 ∧ d.cmd = cmdKey
      c.ring c.seq ∧ s.post? d.cmd = none ∧ FMap.find (s.part p).segs g = some v)
  ∧ (∃ (s : State) (p g f n : Nat) (d : SegDrain) (c : Cmd) (v : Seg), s.fe.drain = some d ∧ d.part = p ∧ d.seg = g ∧
      d.pages = some (f, n) ∧ s.drained d = true ∧ s.drainLines d = [] ∧ s.cmd? d.cmd = some c ∧ d.cmd = cmdKey c.ring
      c.seq ∧ s.post? d.cmd = none ∧ FMap.find (s.part p).segs g = some v) :=
  ⟨⟨withCmd base (segDesc 1 [(17, 1, 1)]), _, 0, 0, cmdOf (segDesc 1 [(17, 1, 1)]),
       { base := 0x400000, limit := 0x400000, tier := 1 }, by decide +kernel, passes_ok (by decide +kernel),
       by decide +kernel⟩,
   ⟨withCmd base (segDesc 3 [(17, 1, 4), (44, 4, 1)]), _, 0, 0, cmdOf (segDesc 3 [(17, 1, 4), (44, 4, 1)]),
       { limit := 0x400000, tier := 1, paged := true, map := [(0, 0x800000)] }, by decide +kernel, passes_ok
       (by decide +kernel), by decide +kernel⟩,
   ⟨withCmd parked (segDesc 1 [(17, 1, 4)]), _, 0, 0, 7, 1, cmdOf (segDesc 1 [(17, 1, 4)]), waiting,
       { limit := 0x400000, tier := 1, paged := true, map := [(0, 0x800000)] }, { cmd := 1, part := 0, seg := 4 },
       by decide +kernel, passes_ok (by decide +kernel), by decide +kernel⟩,
   ⟨{ withRunning base (segDesc 1 [(17, 1, 1)]) with fe := { (withRunning base (segDesc 1 [(17, 1, 1)])).fe with drain := some ({ cmd := 1, part := 0, seg := 1, pages := none }) } },
       0, 1, { cmd := 1, part := 0, seg := 1, pages := none },
       { cmdOf (segDesc 1 [(17, 1, 1)]) with seq := 1, phase := .running },
       { base := 0x400000, limit := 0x400000, tier := 1 }, by decide +kernel⟩,
   ⟨{ withRunning base (segDesc 3 [(17, 1, 4), (44, 4, 1)]) with fe := { (withRunning base (segDesc 3 [(17, 1, 4), (44, 4, 1)])).fe with drain := some ({ cmd := 1, part := 0, seg := 4, pages := some (0, 1) }) } },
       0, 4, 0, 1, { cmd := 1, part := 0, seg := 4, pages := some (0, 1) },
       { cmdOf (segDesc 3 [(17, 1, 4), (44, 4, 1)]) with seq := 1, phase := .running },
       { limit := 0x400000, tier := 1, paged := true, map := [(0, 0x800000)] }, by decide +kernel⟩⟩

theorem witness_FaultHandling :
  (∃ (s : State) (r q g page : Nat) (c : Cmd) (dir : Rd), s.cmd? (cmdKey r q) = some c ∧ c.phase = .walking ∧
      (s.fe.walks.take 8).contains (cmdKey r q) = true ∧ s.nextWalk c = some (g, page) ∧ (page = noPage ∨ (s.walkFill
      c.part g page).faultKind c.part g (page * pageSize) = 0) ∧ ((s.walkFill c.part g page).segMisses c.part
      ((s.walkFill c.part g page).cmdRanges c)) = [] ∧ firstSome ((s.walkFill c.part g page).rangeBad c.part)
      ((s.walkFill c.part g page).cmdRanges c) = none ∧ ((s.walkFill c.part g page).pageMisses c.part ((s.walkFill
      c.part g page).cmdRanges c)) ≠ [])
  ∧ (∃ (s : State) (p : Nat), s.doneFor (.faultCopy p) = true)
  ∧ (∃ (s u : State) (r q n k : Nat) (c c' : Cmd), s.segFree = true ∧ s.passes r q 0x34 c u ∧ c.f 16 1 = 1 ∧
      u.foreignTask c.part (c.f 18 2) = false ∧ u.namedTasks c.part (c.f 18 2) = [(n, k)] ∧ u.cmd? k = some c' ∧ k =
      cmdKey c'.ring c'.seq ∧ k ≠ cmdKey r q ∧ u.fe.held = [])
  ∧ (∃ (s u : State) (r q n k : Nat) (c c' : Cmd), s.segFree = true ∧ s.passes r q 0x34 c u ∧ c.f 16 1 = 0 ∧
      u.foreignTask c.part (c.f 18 2) = false ∧ u.namedTasks c.part (c.f 18 2) = [(n, k)] ∧ u.cmd? k = some c' ∧ k =
      cmdKey c'.ring c'.seq ∧ k ≠ cmdKey r q ∧ u.fe.held = [] ∧ firstSome ((u.freeTaskOf k).rangeBad c'.part)
      ((u.freeTaskOf k).cmdRanges c') = some false) :=
  ⟨⟨walker, 0, 0, 4, 0, { cmdOf (desc 0x51 [(16, 1, 4), (24, 6, 0x1FF000), (32, 4, 8192)]) with phase := .walking },
       { data := [] }, by decide +kernel⟩,
   ⟨{ base with io := { out := [{ id := 0, use := .faultCopy 0, part := 0, accepted := true }] } }, 0,
       by decide +kernel⟩,
   ⟨withCmd parked (cmdOf (desc 0x34 [(16, 1, 1), (18, 2, 7)])).desc, _, 0, 0, 7, 1, cmdOf (desc 0x34
       [(16, 1, 1), (18, 2, 7)]), waiting, by decide +kernel, passes_ok (by decide +kernel), by decide +kernel⟩,
   ⟨withCmd parked (cmdOf (desc 0x34 [(18, 2, 7)])).desc, _, 0, 0, 7, 1, cmdOf (desc 0x34 [(18, 2, 7)]), waiting,
       by decide +kernel, passes_ok (by decide +kernel), by decide +kernel⟩⟩

end Sys2Proof.Tests.Rings
end

