-- ==== Sys2Proof/Tests/WitnessTables.lean ====
section
/-! SUPPORT. States and operands that meet the hypotheses of each clause about lookups, updates, migration,
    the vault and resets. -/

namespace Sys2Proof.Tests.Tables
set_option Elab.async false
open Sys2Proof.Machine Sys2Proof.Tests
set_option maxRecDepth 100000

def table (fs : List (Nat × Nat × Nat)) : Bytes :=
  bytesOf 128 ([(1, 1, 0x10), (2, 1, 0x0B), (3, 1, 1), (4, 2, 4), (6, 1, 0x0B), (8, 8, 16), (23, 1, 1), (40, 9, 1),
    (64, 4, 16), (68, 4, 4), (72, 4, 4), (76, 4, 16), (98, 2, 1), (112, 4, 4), (116, 4, 4), (120, 4, 4)] ++ fs)
def list0 : PList := { table := 0, kind := 0, entries := 1, srcOff := 0, off := 0, size := 16 }
def list1 : PList := { table := 0, kind := 1, entries := 1, srcOff := 256, off := 256, size := 768 }
def body0 : Bytes := bytesOf 1024 [(4, 4, 1), (8, 5, 3), (14, 2, 0x3F80)]
def post1 : Post := { post0 with lists := [list0, list1], body := body0, phase := 3, commit := 1, step := some 0 }
def atTable (w : Bytes) (fs : List (Nat × Nat × Nat)) : State := atWith w [table fs] post1
def sent (f : Flight) : State := { atTable (word 4 []) [] with felt := [f] }
def sentTo (g : Gather) (f : Flight) : State := { sent f with gat := g }
def flight (m : Msg) : Flight := { id := 0, src := 1, dst := 0, msg := m }
def work0 : GWork := { tile := 0, post := 0, table := 0, rows := [(3, [(0, 0x3F800000#32)])], order := [3] }
def uwork0 : UWork := { tile := 0, post := 0, table := 0, rows := [(3, [0, 0, 0, 0])], order := [3] }
def combine0 : GatherOp := { ctx := 0, post := 0, word := word 0x31 [(14, 2, 64), (16, 1, 1)], frame := { rows := 1, cols := 4, depth := 32 } }
def combining (f : Flight) : State := onTile (sent f) fun x => { x with gops := [combine0] }
def ready0 : UWork := { uwork0 with started := true }
def endFlight : Flight := flight (.updateEnd 0 0 0x3F800000#32)
def placed0 : Gather := { uworks := [ready0], dirs := [(0, [(3, { st := 2, place := 0 })])] }
def updating : State := (sentTo placed0 endFlight).accept endFlight

def rows (es : FMap DirEnt) (m : Memory) : State :=
  { atWith (word 4 []) [table []] post1 with gat := { dirs := [(0, es)] }, mem := m }
def clean (es : FMap DirEnt) : State := rows es {}
def spoilt (es : FMap DirEnt) : State := rows es { poison := [(clean es).rowAddr 0 0 3 / 256] }
def homeless : State := rows [] { poison := [t1Addr ((clean []).homeAddr 0 0 3) / 256] }
def busyPost (v : Post) : State := { atWith (word 4 []) [table []] v with clk := [(18, 100000000), (21, 100000000)] }
def lateWork : GWork := { tile := 0, post := 0, table := 0 }

def buffered : State :=
  withPost { plain with ream := { plain.ream with hdr := patchBytes plain.ream.hdr 40 (natLe 4 4), reserve := 1 } } postDesc { post0 with phase := 2 }
def entry0 (loc : Nat) : Flight := flight (.entry 0 0 0 loc 0x3F800000#32)

/-- The only entry in its run is the next, whatever the free value says. -/
theorem entryTurn_one {s : State} {src dst : Nat} {f : Flight}
    (h : (s.felt.filter fun f => f.src == src && f.dst == dst && f.msg.isLookup
      && s.ownsSlot src f.msg.client).takeWhile (fun f => f.msg.isEntry) = [f]) :
    s.entryTurn src dst = some (f, { s with free := s.free + 1 }) := by
  simp [State.entryTurn, h, State.freeVal, Nat.mod_one]

theorem witness_Lookups :
  (∃ (s u : State) (n c k : Nat) (w : Bytes) (v : Ctx) (p : Post) (l : PList) (q i : Nat) (x : Nat × Nat × Nat),
      s.issuing n c 0x30 w v u ∧ v.post = some k ∧ u.post? k = some p ∧ p.listOf (fld w 12 2) 0 = some l ∧ bufBad
      (p.buf n).2 l.off l.size = false ∧ q < p.q ∧
      (let b := ((p.buf n).1.drop l.off).take l.size; let m := bag b l.entries q; m.1 + i < m.2.1) ∧
      (let b := ((p.buf n).1.drop l.off).take l.size; let m := bag b l.entries q; outOfRange (u.tab (fld w 12 2)) (entryAt b p.q (m.1 + i)).1 = false)
      ∧
      (let b := ((p.buf n).1.drop l.off).take l.size; let m := bag b l.entries q; x ∈ u.targets (fld w 12 2) (entryAt b p.q (m.1 + i)).1))
  ∧ (∃ (s u : State) (n c k : Nat) (w : Bytes) (v : Ctx) (p : Post) (x : Nat × Nat) (dst : Nat), s.issuing n c 0x30 w
      v u ∧ v.post = some k ∧ u.post? k = some p ∧ (∀ l, p.listOf (fld w 12 2) 0 = some l → bufBad (p.buf n).2 l.off
      l.size = false) ∧ x ∈ u.components (fld w 12 2) ∧ dst ∈ shardTiles (u.tab x.1))
  ∧ (∃ (s s1 u : State) (n src k tbl q loc : Nat) (w : Word) (f : Flight) (g : GWork), s.entryTurn src n = some (f,
      s1) ∧ f.msg = .entry k tbl q loc w ∧ u = s1.accept f ∧ u.postLive k = true ∧ g = u.gworkOf n k tbl ∧ g.exceeded
      = false ∧ FMap.find g.rows loc = none ∧ g.order.length ≠ tBudget (u.tab tbl))
  ∧ (∃ (s s1 u : State) (n src k tbl q loc : Nat) (w : Word) (f : Flight) (g : GWork) (m : FMap Word), s.entryTurn src
      n = some (f, s1) ∧ f.msg = .entry k tbl q loc w ∧ u = s1.accept f ∧ u.postLive k = true ∧ g = u.gworkOf n k tbl
      ∧ g.exceeded = false ∧ FMap.find g.rows loc = some m)
  ∧ (∃ (s s1 u : State) (n src k tbl q loc : Nat) (w : Word) (f : Flight) (g : GWork), s.entryTurn src n = some (f,
      s1) ∧ f.msg = .entry k tbl q loc w ∧ u = s1.accept f ∧ u.postLive k = true ∧ g = u.gworkOf n k tbl ∧ g.exceeded
      = false ∧ FMap.find g.rows loc = none ∧ g.order.length = tBudget (u.tab tbl))
  ∧ (∃ (s u : State) (n src k tbl : Nat) (f : Flight) (g : GWork), s.feltHead src n Msg.isLookup = some f ∧ f.msg =
      .gatherEnd k tbl ∧ u = s.accept f ∧ u.postLive k = true ∧ g = u.gworkOf n k tbl ∧ g.exceeded = false ∧
      u.inGather k tbl = false)
  ∧ (∃ (s : State) (n k tbl loc : Nat) (g : GWork) (r : GRead), s.gwork? n k tbl = some g ∧ g.reading.find? (fun r =>
      r.loc == loc) = some r ∧ g.reading.erase r ≠ [])
  ∧ (∃ (s : State) (n k tbl loc q : Nat) (x : List Word) (g : GWork) (r : GRead), s.gwork? n k tbl = some g ∧
      g.reading.find? (fun r => r.loc == loc) = some r ∧ g.reading.erase r = [] ∧
      (let b := s.tab tbl; let g' := ({ g with reading := [] } : GWork).pool (expandRow (tRowFmt b) (tDim b) (s.mem.readN r.addr (rowBytes b))) (s.copyBad r.addr (rowBytes b) || s.bucketBad n tbl loc) loc; (q, x) ∈ g'.part)) :=
  ⟨⟨atTable (word 0x30 []) [], _, 0, 0, 0, _, ctx0, post1, list0, 0, 0, (0, 0, 3), issuing_ok (by decide +kernel),
       by decide +kernel⟩,
   ⟨atTable (word 0x30 []) [], _, 0, 0, 0, _, ctx0, post1, (0, 0), 0, issuing_ok (by decide +kernel),
       by decide +kernel⟩,
   ⟨sentTo {} (entry0 3), _, _, 0, 1, 0, 0, 0, 3, 0x3F800000#32, entry0 3, _, entryTurn_one (by decide +kernel),
       by decide +kernel, rfl, by decide +kernel, rfl, by decide +kernel⟩,
   ⟨sentTo { works := [work0] } (entry0 3), _, _, 0, 1, 0, 0, 0, 3, 0x3F800000#32, entry0 3, _, [(0, 0x3F800000#32)],
       entryTurn_one (by decide +kernel), by decide +kernel, rfl, by decide +kernel, rfl, by decide +kernel⟩,
   ⟨sentTo { works := [{ work0 with order := [1, 2, 3, 4] }] } (entry0 5), _, _, 0, 1, 0, 0, 0, 5, 0x3F800000#32,
       entry0 5, _, entryTurn_one (by decide +kernel), by decide +kernel, rfl, by decide +kernel, rfl,
       by decide +kernel⟩,
   ⟨{ atWith (word 4 []) [table [(7, 1, 1)]] post1 with felt := [(flight (.gatherEnd 0 0))], gat := { works := [work0] } },
       _, 0, 1, 0, 0, flight (.gatherEnd 0 0), _, by decide +kernel, by decide +kernel, rfl, by decide +kernel, rfl,
       by decide +kernel⟩,
   ⟨{ atTable (word 4 []) [] with gat := { works := [({ work0 with reading := [({ loc := 3, addr := t0Addr 0 0 }), { loc := 4, addr := 0 }] })] } },
       0, 0, 0, 3, { work0 with reading := [({ loc := 3, addr := t0Addr 0 0 }), { loc := 4, addr := 0 }] },
       { loc := 3, addr := t0Addr 0 0 }, by decide +kernel⟩,
   ⟨{ atTable (word 4 []) [] with gat := { works := [({ work0 with reading := [({ loc := 3, addr := t0Addr 0 0 })] })] } },
       0, 0, 0, 3, 0, [0, 0, 0, 0], { work0 with reading := [({ loc := 3, addr := t0Addr 0 0 })] },
       { loc := 3, addr := t0Addr 0 0 }, by decide +kernel⟩⟩

theorem witness_Pooling :
  (∃ (s u : State) (n c k : Nat) (w : Bytes) (v : Ctx), s.issuing n c 0x31 w v u ∧ v.post = some k ∧
      (let here := (FMap.get u.gat.ends k []).filter (u.combineNeeds (fld w 12 2)).contains; (u.combineNeeds (fld w 12 2)).all here.contains = false))
  ∧ (∃ (s u : State) (n c k : Nat) (w : Bytes) (v : Ctx), s.issuing n c 0x31 w v u ∧ v.post = some k ∧
      (let here := (FMap.get u.gat.ends k []).filter (u.combineNeeds (fld w 12 2)).contains; (u.combineNeeds (fld w 12 2)).all here.contains = true))
  ∧ (∃ (s : State) (n src k tbl q : Nat) (x : List Word) (f : Flight) (g : GatherOp), s.feltHead src n Msg.isCombine =
      some f ∧ f.msg = .partials k tbl q x false ∧ (s.combines n k (s.parentTable tbl)).find? (fun g => cBlock g.word
      == q / 256) = some g ∧ q % 256 < g.frame.rows ∧
      (let a := combineAt g.word (q % 256) + 4 * s.partOffset tbl; (sheetsOf a (4 * x.length)).any (s.spBad n) = false))
  ∧ (∃ (s : State) (n src k tbl q : Nat) (x : List Word) (b : Bool) (f : Flight), n < 72 ∧ s.feltHead src n
      Msg.isCombine = some f ∧ f.msg = .partials k tbl q x b ∧ (s.combines n k (s.parentTable tbl)).find? (fun g =>
      cBlock g.word == q / 256) = none ∧ s.combineIssued n k (s.parentTable tbl) (some (q / 256)) = false)
  ∧ (∃ (s : State) (n src k tbl : Nat) (f : Flight) (g : GatherOp) (v : Ctx), s.feltHead src n Msg.isCombine = some f
      ∧ f.msg = .combineEnd k tbl ∧ s.combines n k (s.parentTable tbl) = [g] ∧ s.ctx? n g.ctx = some v ∧
      (s.combineNeeds (fld g.word 12 2)).all (fun m => m == tbl * 128 + src || g.ends.contains m) = true)
  ∧ (∃ (s : State) (n src k tbl : Nat) (f : Flight) (v : Post) (c : Cmd), s.feltHead src n Msg.isCombine = some f ∧
      f.msg = .overMark k tbl ∧ s.post? k = some v ∧ v.phase = 3 ∧ v.fail = 0 ∧ s.cmd? k = some c ∧ k = cmdKey c.ring
      c.seq ∧ (s.combines n k (s.parentTable tbl)).length ≤ 1 ∧ (∀ g ∈ s.combines n k (s.parentTable tbl), ∀ x, s.ctx?
      n g.ctx = some x → ∀ i ∈ outFlags g.word, x.flags.testBit i = false)) :=
  ⟨⟨atTable (word 0x31 []) [], _, 0, 0, 0, _, ctx0, issuing_ok (by decide +kernel), by decide +kernel⟩,
   ⟨{ atTable (word 0x31 []) [] with gat := { ends := [(0, [0])] } }, _, 0, 0, 0, _, ctx0, issuing_ok
       (by decide +kernel), by decide +kernel⟩,
   ⟨combining (flight (.partials 0 0 0 [0, 0, 0, 0] false)), 0, 1, 0, 0, 0, [0, 0, 0, 0], flight (.partials 0 0 0
       [0, 0, 0, 0] false), combine0, by decide +kernel⟩,
   ⟨sent (flight (.partials 0 0 0 [0, 0, 0, 0] false)), 0, 1, 0, 0, 0, [0, 0, 0, 0], false, flight (.partials 0 0 0
       [0, 0, 0, 0] false), by decide +kernel⟩,
   ⟨combining ({ id := 0, src := 0, dst := 0, msg := .combineEnd 0 0 }), 0, 0, 0, 0,
       { id := 0, src := 0, dst := 0, msg := .combineEnd 0 0 }, combine0, ctx0, by decide +kernel⟩,
   ⟨sent (flight (.overMark 0 0)), 0, 1, 0, 0, flight (.overMark 0 0), post1, { cmdOf postDesc with phase := .post },
       by decide +kernel⟩⟩

theorem witness_Gradients :
  (∃ (s u : State) (n c k i : Nat) (w : Bytes) (v : Ctx) (p : Post) (l : PList), s.issuing n c 0x32 w v u ∧ v.post =
      some k ∧ u.post? k = some p ∧ p.listOf (fld w 12 2) 1 = some l ∧ bufBad (p.buf n).2 l.off (256 + 8 * l.entries)
      = false ∧ i < l.entries ∧
      (let tbl := fld w 12 2; let b := ((p.buf n).1.drop l.off).take l.size; let x := fld b (256 + 8 * i) 5; outOfRange (u.tab tbl) x = false))
  ∧ (∃ (s u : State) (n c k dst : Nat) (w : Bytes) (v : Ctx) (p : Post) (l : PList), s.issuing n c 0x32 w v u ∧ v.post
      = some k ∧ u.post? k = some p ∧ p.listOf (fld w 12 2) 1 = some l ∧ bufBad (p.buf n).2 l.off (256 + 8 *
      l.entries) = false ∧ dst ∈ shardTiles (u.tab (fld w 12 2)))
  ∧ (∃ (s : State) (n k tbl : Nat), s.updLive k tbl = true ∧ s.inUpdate k tbl = true ∧ (shardTiles (s.tab
      tbl)).contains n = true ∧ s.earlierOpen k tbl = false ∧ (s.uworkOf n k tbl).ended = false)
  ∧ (∃ (s u : State) (n src k tbl loc : Nat) (d : Bytes) (f : Flight) (g : UWork), s.feltHead src n Msg.isUpdate =
      some f ∧ f.msg = .grad k tbl loc d false ∧ u = s.accept f ∧ u.updLive k tbl = true ∧ g = u.uworkOf n k tbl ∧
      g.report = 0 ∧ FMap.find g.rows loc = none ∧ g.order.length ≠ tUpdBudget (u.tab tbl))
  ∧ (∃ (s u : State) (n src k tbl loc : Nat) (d : Bytes) (f : Flight) (g : UWork) (y : List Word), s.feltHead src n
      Msg.isUpdate = some f ∧ f.msg = .grad k tbl loc d false ∧ u = s.accept f ∧ u.updLive k tbl = true ∧ g =
      u.uworkOf n k tbl ∧ g.report = 0 ∧ FMap.find g.rows loc = some y)
  ∧ (∃ (s u : State) (n src k tbl loc : Nat) (d : Bytes) (f : Flight) (g : UWork), s.feltHead src n Msg.isUpdate =
      some f ∧ f.msg = .grad k tbl loc d false ∧ u = s.accept f ∧ u.updLive k tbl = true ∧ g = u.uworkOf n k tbl ∧
      g.report = 0 ∧ FMap.find g.rows loc = none ∧ g.order.length = tUpdBudget (u.tab tbl))
  ∧ (∃ (s u : State) (n src k tbl : Nat) (x : Word) (f : Flight) (g : UWork), s.feltHead src n Msg.isUpdate = some f ∧
      f.msg = .updateEnd k tbl x ∧ u = s.accept f ∧ u.updLive k tbl = true ∧ g = u.uworkOf n k tbl ∧ g.report = 0 ∧
      g.started = false)
  ∧ (∃ (s u : State) (n src k tbl loc step sat : Nat) (resc : Bool) (x : Word) (f : Flight) (g : UWork) (b : Bytes),
      s.feltHead src n Msg.isUpdate = some f ∧ f.msg = .updateEnd k tbl x ∧ u = s.accept f ∧ u.updLive k tbl = true ∧
      g = u.uworkOf n k tbl ∧ g.report = 0 ∧ g.started = true ∧ (u.post? k).bind (·.step) = some step ∧ g.order =
      [loc] ∧ (let a := u.rowAddr n tbl loc; isT1 a = false) ∧
      (let a := u.rowAddr n tbl loc; let r := u.tab tbl; u.copyBad a (rowBytes r) = false) ∧ u.bucketBad n tbl loc =
      false ∧ g.bad.contains loc = false ∧
      (let a := u.rowAddr n tbl loc; let r := u.tab tbl; let start := u.blockStart n step tbl; newRow r (u.mem.readN a (rowBytes r)) (FMap.get g.rows loc []) x step (fun e => draw (u.tile n).streamKey 1 ((start + e) % 2 ^ 60)) = some (b, sat, resc))) :=
  ⟨⟨atTable (word 0x32 []) [], _, 0, 0, 0, 0, _, ctx0, post1, list1, issuing_ok (by decide +kernel),
       by decide +kernel⟩,
   ⟨atTable (word 0x32 []) [], _, 0, 0, 0, 0, _, ctx0, post1, list1, issuing_ok (by decide +kernel),
       by decide +kernel⟩,
   ⟨atTable (word 4 []) [], 0, 0, 0, by decide +kernel⟩,
   ⟨sentTo {} (flight (.grad 0 0 3 (zeros 16) false)), _, 0, 1, 0, 0, 3, zeros 16, flight (.grad 0 0 3 (zeros 16)
       false), _, by decide +kernel, by decide +kernel, rfl, by decide +kernel, rfl, by decide +kernel⟩,
   ⟨sentTo { uworks := [uwork0] } (flight (.grad 0 0 3 (zeros 16) false)), _, 0, 1, 0, 0, 3, zeros 16, flight (.grad 0
       0 3 (zeros 16) false), _, [0, 0, 0, 0], by decide +kernel, by decide +kernel, rfl, by decide +kernel, rfl,
       by decide +kernel⟩,
   ⟨sentTo { uworks := [{ uwork0 with order := [1, 2, 3, 4] }] } (flight (.grad 0 0 5 (zeros 16) false)), _, 0, 1, 0,
       0, 5, zeros 16, flight (.grad 0 0 5 (zeros 16) false), _, by decide +kernel, by decide +kernel, rfl,
       by decide +kernel, rfl, by decide +kernel⟩,
   ⟨sentTo { uworks := [uwork0] } (flight (.updateEnd 0 0 0x3F800000#32)), _, 0, 1, 0, 0, 0x3F800000#32, flight
       (.updateEnd 0 0 0x3F800000#32), _, by decide +kernel, by decide +kernel, rfl, by decide +kernel, rfl,
       by decide +kernel⟩,
   by
  obtain ⟨⟨b, sat, resc⟩, h⟩ := Option.isSome_iff_exists.mp (by decide +kernel : (newRow (updating.tab 0)
    (updating.mem.readN (updating.rowAddr 0 0 3) (rowBytes (updating.tab 0))) (FMap.get ready0.rows 3 []) 0x3F800000#32 0
    (fun e => draw (updating.tile 0).streamKey 1 ((updating.blockStart 0 0 0 + e) % 2 ^ 60))).isSome = true)
  exact ⟨sentTo placed0 endFlight, updating, 0, 1, 0, 0, 3, 0, sat, resc, 0x3F800000#32, endFlight, ready0, b,
      by decide +kernel, rfl, rfl, by decide +kernel,
    by decide +kernel, by decide +kernel, by decide +kernel, by decide +kernel, by decide +kernel, by decide +kernel,
    by decide +kernel, by decide +kernel, by decide +kernel, h⟩⟩

theorem witness_UpdateDecisions :
  (∃ (s u : State) (k : Nat) (v : Post), u = s.sendReports ∧ u.decidable = some (k, v) ∧ (u.unitsOf k).all (·.report
      == 1) = true)
  ∧ (∃ (s u : State) (k : Nat) (v : Post) (c : Cmd), u = s.sendReports ∧ u.decidable = some (k, v) ∧ (u.unitsOf k).all
      (·.report == 1) = false ∧ (u.unitsOf k).any (·.report == 3) = false ∧ u.post? k = some v ∧ v.fail = 0 ∧ u.cmd? k
      = some c ∧ k = cmdKey c.ring c.seq)
  ∧ (∃ (s : State) (k n tbl loc : Nat) (v : Post) (g : UWork) (b : Bytes), s.post? k = some v ∧ v.commit = 2 ∧ v.phase
      = 3 ∧ s.ownReads k v = false ∧ s.inTiles k = true ∧ s.unitsOf k = [g] ∧ g.tile = n ∧ g.table = tbl ∧ g.new =
      [(loc, b)] ∧ tPinned (s.tab tbl) = true ∧ (∀ e, s.dirEnt n tbl loc = some e → e.st = 2) ∧ isT1 (s.placeAddr tbl
      n loc) = false)
  ∧ (∃ (s : State) (n : Nat) (r : EscRep), s.ream.escMsgs.find? (fun r => r.tile == n) = some r ∧ s.inTiles r.post =
      true) :=
  ⟨⟨{ atWith (word 4 []) [table []] (post1) with gat := { uworks := [{ uwork0 with report := 1 }] } }, _, 0, post1,
       rfl, by decide +kernel⟩,
   ⟨{ atWith (word 4 []) [table []] (post1) with gat := { uworks := [{ uwork0 with report := 2 }] } }, _, 0, post1,
       { cmdOf postDesc with phase := .post }, rfl, by decide +kernel⟩,
   ⟨{ atWith (word 4 []) [table [(1, 1, 0x18)]] ({ post1 with commit := 2, ran := [0] }) with gat := { uworks := [({ uwork0 with new := [(3, (zeros 256))] })] } },
       0, 0, 0, 3, { post1 with commit := 2, ran := [0] }, { uwork0 with new := [(3, (zeros 256))] }, zeros 256,
       by decide +kernel⟩,
   ⟨{ atTable (word 4 []) [] with ream := { (atTable (word 4 []) []).ream with escMsgs := [({ tile := 0, post := 0, version := 0, qn := [], qs := [] })] } },
       0, { tile := 0, post := 0, version := 0, qn := [], qs := [] }, by decide +kernel⟩⟩

theorem witness_Migration :
  (∃ (s : State) (n tbl loc place : Nat), s.rowExists n tbl loc = true ∧ tPinned (s.tab tbl) = false ∧ s.canMove n =
      true ∧ s.dirEnt n tbl loc = none ∧ s.placeFree n tbl loc place = true)
  ∧ (∃ (s : State) (n tbl loc : Nat) (e : DirEnt), s.rowExists n tbl loc = true ∧ tPinned (s.tab tbl) = false ∧
      s.canMove n = true ∧ s.dirEnt n tbl loc = some e ∧ e.st = 2)
  ∧ (∃ (s : State) (n tbl loc : Nat) (e : DirEnt), s.hotTile n = false ∧ s.moveIn n tbl loc 0 = some e ∧ e.st = 1 ∧
      s.copyBad (s.rowAddr n tbl loc) (rowBytes (s.tab tbl)) = false)
  ∧ (∃ (s : State) (n tbl loc : Nat) (e : DirEnt), s.hotTile n = false ∧ s.moveIn n tbl loc 0 = some e ∧ e.st = 1 ∧
      s.copyBad (s.rowAddr n tbl loc) (rowBytes (s.tab tbl)) = true)
  ∧ (∃ (s : State) (n tbl loc : Nat) (e : DirEnt), s.hotTile n = false ∧ s.moveIn n tbl loc 1 = some e ∧ e.log ≠ 0 ∧
      s.copyBad (s.rowAddr n tbl loc) (rowBytes (s.tab tbl)) = false)
  ∧ (∃ (s : State) (n tbl loc : Nat) (e : DirEnt), s.dirEnt n tbl loc = some e ∧ e.st = 4 ∧ e.flipped < s.ream.sweeps
      ∧ s.readPending n tbl e.place = false)
  ∧ (∃ (s : State) (x : Word) (n tbl loc : Nat) (e : DirEnt), x.getLsbD 0 = false ∧ tbl < 1024 ∧ s.dirEnt n tbl loc =
      some e ∧ e.st = 1 ∧ tPinned (s.tab tbl) = false)
  ∧ (∃ (s : State) (n tbl loc : Nat) (e : DirEnt), s.hotTile n = false ∧ s.dirEnt n tbl loc = some e ∧ e.stale = true
      ∧ tPinned (s.tab tbl) = false)
  ∧ (∃ (s : State) (n tbl loc : Nat), s.hotTile n = true) :=
  ⟨⟨clean [], 0, 0, 3, 0, by decide +kernel⟩,
   ⟨clean [(3, ({ st := 2, place := 0 }))], 0, 0, 3, { st := 2, place := 0 }, by decide +kernel⟩,
   ⟨clean [(3, ({ st := 1 }))], 0, 0, 3, { st := 1 }, by decide +kernel⟩,
   ⟨spoilt [(3, ({ st := 1 }))], 0, 0, 3, { st := 1 }, by decide +kernel⟩,
   ⟨clean [(3, ({ st := 1, phase := 1, log := 1 }))], 0, 0, 3, { st := 1, phase := 1, log := 1 }, by decide +kernel⟩,
   ⟨{ clean [(3, ({ st := 4, flipped := 1 }))] with ream := { (clean []).ream with sweeps := 2 } }, 0, 0, 3,
       { st := 4, flipped := 1 }, by decide +kernel⟩,
   ⟨clean [(3, ({ st := 1 }))], 0, 0, 0, 3, { st := 1 }, by decide +kernel⟩,
   ⟨clean [(3, ({ st := 2, stale := true }))], 0, 0, 3, { st := 2, stale := true }, by decide +kernel⟩,
   ⟨{ clean [] with tiers := { (clean []).tiers with therm := [(0, { st := 1 })] } }, 0, 0, 3, by decide +kernel⟩⟩

theorem witness_VaultLog :
  (∃ (s : State) (tbl n loc : Nat), s.ream.resident = true ∧ tbl < hTables s.ream.hdr ∧ s.gat.flips = [] ∧
      s.rowReadable tbl n loc = true ∧ (FMap.find s.gat.dirty (rowKey tbl n loc)).isSome = true ∧ (∀ v, s.homeSeg tbl
      = some v → v.sealed = false) ∧ s.mounted.rel.vault.mustWait (4096 * cdiv (64 + (s.rowsBody tbl
      [(n, loc)]).length) 4096) = false)
  ∧ (∃ (s : State) (r : VRec), s.rel.vault.nextDurable = some r)
  ∧ (∃ (s : State), s.mounted.rel.vault.mustWait (4096 * cdiv (64 + s.stateBody.length) 4096) = false)
  ∧ (∃ (s : State), s.mounted.rel.vault.mustWait (4096 * cdiv (64 + s.stateBody.length) 4096) = true)
  ∧ (∃ (s : State), s.rel.vault.retired < vaultBlocks)
  ∧ (∃ (s : State), (s.mounted.rel.vault.dropOld s.rel.vault.log.length).blockFree = true) :=
  ⟨⟨{ clean [(3, { st := 2 })] with gat := { (clean [(3, { st := 2 })]).gat with dirty := [(rowKey 0 0 3, 0)] } }, 0,
       0, 3, by decide +kernel⟩,
   ⟨{ base with rel := { base.rel with vault := { log := [({ kind := 9 })] } } }, { kind := 9 }, by decide +kernel⟩,
   ⟨base, by decide +kernel⟩,
   ⟨{ base with rel := { base.rel with vault := { erased := some 0 } } }, by decide +kernel⟩,
   ⟨base, by decide +kernel⟩,
   ⟨{ base with rel := { base.rel with vault := { erased := some 0 } } }, by decide +kernel⟩⟩

theorem witness_MemoryUpkeep :
  (∃ (s : State) (n : Nat), s.enabled n = true ∧ s.hotTile n = false)
  ∧ (∃ (s : State) (n : Nat), s.enabled n = true ∧ s.hotTile n = true ∧ FMap.get s.tiers.wb n 0 < 64)
  ∧ (∃ (s : State) (b : Bool) (n k : Nat), s.regF scrubCtrl 7 0 ≠ 0 ∧ s.enabled n = true ∧ 256 * k < t0Limit ∧
      s.hotTile n = false ∧ s.bufAt n (256 * k) = none ∧ s.mem.poisoned (t0Addr n (256 * k) / 256) = false)
  ∧ (∃ (s : State) (b : Bool) (n k p i : Nat) (v : Post), s.regF scrubCtrl 7 0 ≠ 0 ∧ s.enabled n = true ∧ 256 * k <
      t0Limit ∧ s.hotTile n = false ∧ s.bufAt n (256 * k) = some (p, i) ∧ s.post? p = some v ∧ (v.buf n).2.contains i
      = false)
  ∧ (∃ (s : State) (b : Bool) (g k : Nat), s.regF scrubCtrl 15 8 ≠ 0 ∧ g < 4 ∧ k < 2 ^ 28 ∧ (s.t1g g).st = 0)
  ∧ (∃ (s : State) (g p : Nat), g < 4 ∧ p < 6 ∧ (s.t1g g).lost = [] ∧ (s.t1g g).st = 0)
  ∧ (∃ (s : State) (g p q : Nat), g < 4 ∧ p < 6 ∧ (s.t1g g).lost = [q] ∧ p ≠ q ∧ (s.t1g g).st = 1)
  ∧ (∃ (s : State) (n tbl loc : Nat), s.rowExists n tbl loc = true ∧ (s.livePlace n tbl loc).isSome = true ∧ s.hotTile
      n = false ∧ s.copyBad (s.rowAddr n tbl loc) (rowBytes (s.tab tbl)) = true ∧ s.copyBad (t1Addr (s.homeAddr tbl n
      loc)) (rowBytes (s.tab tbl)) = false ∧ (∀ e, s.dirEnt n tbl loc = some e → e.stale = false))
  ∧ (∃ (s : State) (n tbl loc : Nat), s.rowExists n tbl loc = true ∧ s.livePlace n tbl loc = none ∧ s.copyBad (t1Addr
      (s.homeAddr tbl n loc)) (rowBytes (s.tab tbl)) = true ∧ s.newestRow tbl n loc = none)
  ∧ (∃ (s : State) (n : Nat), (s.tile n).st = 3 ∧ s.ream.resident = true)
  ∧ (∃ (s : State) (d : Nat), d < 2) :=
  ⟨⟨base, 0, by decide +kernel⟩,
   ⟨{ base with tiers := { base.tiers with therm := [(0, { st := 1 })] } }, 0, by decide +kernel⟩,
   ⟨base, false, 0, 0, by decide +kernel⟩,
   ⟨buffered, false, 0, buffered.bufBase 0 / 256, 0, 0, { post0 with phase := 2 }, by decide +kernel⟩,
   ⟨base, false, 0, 0, by decide +kernel⟩,
   ⟨base, 0, 0, by decide +kernel⟩,
   ⟨{ base with tiers := { base.tiers with t1 := [(0, { st := 1, lost := [(1)] })] } }, 0, 0, 1, by decide +kernel⟩,
   ⟨spoilt [(3, { st := 2, place := 0 })], 0, 0, 3, by decide +kernel⟩,
   ⟨homeless, 0, 0, 3, by decide +kernel⟩,
   ⟨onTile (atWord (word 4 [])) fun x => { x with st := 3 }, 0, by decide +kernel⟩,
   ⟨base, 0, by decide +kernel⟩⟩

theorem witness_DeviceResets :
  (∃ (s : State), s.rel.stuck = false ∧ s.pwr.st = 3)
  ∧ (∃ (s : State) (k at_ : Nat) (v : Post), s.rel.stuck = false ∧ s.pwr.st = 3 ∧ s.ream.resident = true ∧ s.post? k =
      some v ∧ v.endedAt = some at_ ∧ at_ + 10 ^ 6 ≤ s.now ∧ s.inTiles k = true)
  ∧ (∃ (s : State) (n c k i : Nat) (v : Ctx) (p : Post), s.rel.stuck = false ∧ s.pwr.st = 3 ∧ s.ream.resident = true ∧
      s.ctx? n c = some v ∧ v.post = some k ∧ s.post? k = some p ∧ s.stageOf n = some i ∧ s.longPast p i = true)
  ∧ (∃ (s : State) (n k : Nat) (p : Post) (g : GWork), s.rel.stuck = false ∧ s.pwr.st = 3 ∧ s.ream.resident = true ∧
      s.post? k = some p ∧ g ∈ s.gat.works ∧ g.tile = n ∧ g.post = k ∧ s.longPast p (tGatherStage (s.tab
      (s.parentTable g.table))) = true)
  ∧ (∃ (s : State), s.rel.stuck = false ∧ s.pwr.st = 3 ∧ s.ream.resident = true ∧ s.ream.sweepAt + (if s.ream.half
      then 8 else 4) * hSweep s.ream.hdr ≤ s.feltNow)
  ∧ (∃ (s : State) (n c : Nat) (v : Ctx), s.rel.stuck = false ∧ s.pwr.st = 3 ∧ s.ream.resident = true ∧ s.ctx? n c =
      some v ∧ s.issues n = true ∧ v.running = true ∧ v.failed = false ∧ (s.wordReadable n v = false ∨ wordBad
      (s.nextWord n v) = true))
  ∧ (∃ (s : State) (k : Nat) (c : Cmd), s.rel.stuck = false ∧ s.pwr.st = 3 ∧ s.ream.resident = true ∧ s.hp.link = 2 ∧
      (k, c) ∈ s.fe.cmds ∧ (c.phase = .accepted ∨ c.phase = .walking ∨ (c.phase = .post ∧ ∃ v, s.post? k = some v ∧
      v.phase = 1)) ∧ c.progress + 10 ^ 7 ≤ s.now)
  ∧ (∃ (s : State) (n : Nat), s.rel.stuck = false ∧ s.pwr.st = 3 ∧ s.ream.resident = true ∧ n < 8)
  ∧ (∃ (s : State), s.rel.stuck = false ∧ s.pwr.st = 3 ∧ s.rel.d2dDue = true) :=
  ⟨⟨base, by decide +kernel⟩,
   ⟨busyPost ({ post1 with phase := 3, endedAt := some 0 }), 0, 0, { post1 with phase := 3, endedAt := some 0 },
       by decide +kernel⟩,
   ⟨busyPost ({ post1 with phase := 3, stage := 1, past := 2 }), 0, 0, 0, 0, ctx0,
       { post1 with phase := 3, stage := 1, past := 2 }, by decide +kernel⟩,
   ⟨{ busyPost ({ post1 with phase := 3, stage := 1, past := 2 }) with gat := { works := [(lateWork)] } }, 0, 0,
       { post1 with phase := 3, stage := 1, past := 2 }, lateWork, by decide +kernel⟩,
   ⟨busyPost post1, by decide +kernel⟩,
   ⟨atWord (word 7 []), 0, 0, ctx0, by decide +kernel⟩,
   ⟨{ withCmd plain (desc 0x12 []) with clk := [(21, 10000000)] }, 0, cmdOf (desc 0x12 []), by decide +kernel⟩,
   ⟨plain, 0, by decide +kernel⟩,
   ⟨{ base with rel := { base.rel with d2dDue := true } }, by decide +kernel⟩⟩

theorem witness_ColdReset :
  (∃ (s : State), s.powered = true)
  ∧ (∃ (s : State), s.pwr.st = 2 ∧ s.slotBoots (1 - s.sec.bootSlot) = true)
  ∧ (∃ (s : State), s.pwr.st = 2 ∧ s.slotBoots (1 - s.sec.bootSlot) = false)
  ∧ (∃ (s : State), s.pwr.st = 2 ∧ s.pending = [])
  ∧ (∃ (s : State) (x : Word) (p : Nat), p < 16 ∧ x.getLsbD p = true ∧ ((s.part p).st = 1 ∨ (s.part p).st = 3)) :=
  ⟨⟨base, by decide +kernel⟩,
   ⟨{ State.reset with pwr := { State.reset.pwr with st := 2 }, sec := { State.reset.sec with bootSlot := 1 } },
       by decide +kernel⟩,
   ⟨{ State.reset with pwr := { State.reset.pwr with st := 2 } }, by decide +kernel⟩,
   ⟨{ base with pwr := { base.pwr with st := 2 } }, by decide +kernel⟩,
   ⟨base, 1#32, 0, by decide +kernel⟩⟩

end Sys2Proof.Tests.Tables
end

