-- ==== Sys2Proof/Tests/WitnessTiles.lean ====
section
/-! SUPPORT. States and operands that meet the hypotheses of each clause about tiles and transfers. -/

namespace Sys2Proof.Tests.Tiles
set_option Elab.async false
open Sys2Proof.Machine Sys2Proof.Tests
set_option maxRecDepth 100000

def fillWord : Bytes := word 1 [(12, 2, 16), (14, 2, 32), (16, 2, 0xFFFF), (18, 2, 0xFFFF), (20, 1, 4), (21, 1, 4)]
def fill0 : FillJob := { ctx := 0, word := fillWord, frame := { rows := 1, cols := 4, depth := 32 } }
def block0 : WBlock := { line := fill0.key.1, mode := fill0.key.2.1, version := fill0.key.2.2, data := zeros 256, poison := false }

theorem witness_Fills :
  (∃ (s u : State) (n c : Nat) (w : Bytes) (v : Ctx), s.issuing n c 0x01 w v u ∧ (v.frame (fDk w)).rows ≠ 0)
  ∧ (∃ (s : State) (n : Nat) (j : FillJob), (s.tile n).inactive = none ∧ needsLoad ((s.tile n).active.map WBlock.key)
      (s.tile n).fills = some j)
  ∧ (∃ (s u : State) (n : Nat) (j : FillJob) (x : Tile) (b : WBlock), (s.tile n).fills.find? (fun f => !f.started) =
      some j ∧ (s.tile n).swapFor j = some (x, b) ∧ u = s.setTile n x ∧ u.fillPoison n j.word j.frame.rows b = false ∧
      u.fillTags n j.word = true)
  ∧ (∃ (s : State) (n : Nat) (j : FillJob), (s.tile n).fills.find? (fun f => f.started) = some j) :=
  ⟨⟨atWord (fillWord), _, 0, 0, _, ctx0, issuing_ok (by decide +kernel), by decide +kernel⟩,
   ⟨onTile (atWord fillWord) fun x => { x with fills := [(fill0)] }, 0, fill0, by decide +kernel⟩,
   ⟨onTile (atWord fillWord) fun x => { x with fills := [(fill0)], active := some (block0) }, _, 0, fill0, _, block0,
       by decide +kernel, rfl, rfl, by decide +kernel⟩,
   ⟨onTile (atWord fillWord) fun x => { x with fills := [({ fill0 with started := true })] }, 0,
       { fill0 with started := true }, by decide +kernel⟩⟩

theorem witness_Sequencing :
  (∃ (s u : State) (n c : Nat) (w : Bytes) (v : Ctx), s.issuing n c 0x03 w v u ∧ fld w 13 1 ≠ 1)
  ∧ (∃ (s u : State) (n c k : Nat) (w : Bytes) (v : Ctx) (p : Post), s.issuing n c 0x03 w v u ∧ fld w 13 1 = 1 ∧
      v.post = some k ∧ u.post? k = some p)
  ∧ (∃ (s u : State) (n c : Nat) (w : Bytes) (v : Ctx), s.issuing n c 0x05 w v u)
  ∧ (∃ (s u : State) (n c : Nat) (w : Bytes) (v : Ctx), s.issuing n c 0x04 w v u)
  ∧ (∃ (s : State) (n c : Nat) (v : Ctx), s.ctx? n c = some v ∧ v.ending = true ∧ (s.tile n).busy c = false)
  ∧ (∃ (s : State) (n : Nat) (w : Bytes), n < 72 ∧ s.enabled n = true ∧ ((s.tile n).st = 1 ∨ (s.tile n).st = 2))
  ∧ (∃ (s m : State) (n : Nat) (w : Bytes), s.enabled n = true ∧ ((s.tile n).st = 0 ∨ (s.tile n).st = 3) ∧ (s.tile
      n).stream = none ∧ iOp w = 2 ∧ m = (List.range (stRows w)).foldl (fun s r => (s.streamRow n w 512 r).2.streamPut
      n ((outLines w r).headD 0) 256 (s.streamRow n w 512 r).1 (s.streamBad n w r)) s) :=
  ⟨⟨atWord (word 3 [(12, 1, 1), (14, 2, 1), (18, 2, 4), (20, 2, 32)]), _, 0, 0, _, ctx0, issuing_ok
       (by decide +kernel), by decide +kernel⟩,
   ⟨atWord (word 3 [(12, 1, 1), (13, 1, 1), (18, 2, 4), (20, 2, 32)]), _, 0, 0, 0, _, ctx0, { post0 with phase := 3 },
       issuing_ok (by decide +kernel), by decide +kernel⟩,
   ⟨atWord (word 5 []), _, 0, 0, _, ctx0, issuing_ok (by decide +kernel)⟩,
   ⟨atWord (word 4 []), _, 0, 0, _, ctx0, issuing_ok (by decide +kernel)⟩,
   ⟨onTile (atWord (word 4 [])) fun x => { x with ctxs := [(0, ({ ctx0 with ending := true }))] }, 0, 0,
       { ctx0 with ending := true }, by decide +kernel⟩,
   ⟨atWord (word 4 []), 0, [], by decide +kernel⟩,
   ⟨onTile base fun x => x, _, 0, word 2 [(24, 2, 1)], by decide +kernel, by decide +kernel, by decide +kernel,
       by decide +kernel, rfl⟩⟩

theorem witness_VectorArith :
  (∃ (s u : State) (n c : Nat) (w : Bytes) (v : Ctx), s.issuing n c 0x10 w v u ∧ u.vecReady n w (v.frame (vDk w)))
  ∧ (∃ (s u : State) (n c : Nat) (w : Bytes) (v : Ctx), s.issuing n c 0x11 w v u ∧ u.vecReady n w (v.frame (vDk w)))
  ∧ (∃ (s u : State) (n c : Nat) (w : Bytes) (v : Ctx), s.issuing n c 0x12 w v u ∧ u.vecReady n w (v.frame (vDk w)))
  ∧ (∃ (s u : State) (n c : Nat) (w : Bytes) (v : Ctx), s.issuing n c 0x13 w v u ∧ u.vecReady n w (v.frame (vDk w)))
  ∧ (∃ (s u : State) (n c : Nat) (w : Bytes) (v : Ctx), s.issuing n c 0x14 w v u ∧ u.vecReady n w (v.frame (vDk w))) :=
  ⟨⟨atWord (vword 0x10 []), _, 0, 0, _, ctx0, issuing_ok (by decide +kernel), vecReady_ok (by decide +kernel)⟩,
   ⟨atWord (vword 0x11 []), _, 0, 0, _, ctx0, issuing_ok (by decide +kernel), vecReady_ok (by decide +kernel)⟩,
   ⟨atWord (vword 0x12 []), _, 0, 0, _, ctx0, issuing_ok (by decide +kernel), vecReady_ok (by decide +kernel)⟩,
   ⟨atWord (vword 0x13 []), _, 0, 0, _, ctx0, issuing_ok (by decide +kernel), vecReady_ok (by decide +kernel)⟩,
   ⟨atWord (vword 0x14 []), _, 0, 0, _, ctx0, issuing_ok (by decide +kernel), vecReady_ok (by decide +kernel)⟩⟩

theorem witness_VectorCompare :
  (∃ (s u : State) (n c : Nat) (w : Bytes) (v : Ctx), s.issuing n c 0x15 w v u ∧ u.vecReady n w (v.frame (vDk w)))
  ∧ (∃ (s u : State) (n c : Nat) (w : Bytes) (v : Ctx), s.issuing n c 0x16 w v u ∧ u.vecReady n w (v.frame (vDk w)))
  ∧ (∃ (s u : State) (n c : Nat) (w : Bytes) (v : Ctx), s.issuing n c 0x17 w v u ∧ u.vecReady n w (v.frame (vDk w)))
  ∧ (∃ (s u : State) (n c : Nat) (w : Bytes) (v : Ctx), s.issuing n c 0x18 w v u ∧ u.vecReady n w (v.frame (vDk w)) ∧
      vSub w ≠ 0)
  ∧ (∃ (s u : State) (n c : Nat) (w : Bytes) (v : Ctx), s.issuing n c 0x18 w v u ∧ u.vecReady n w (v.frame (vDk w)) ∧
      vSub w = 0 ∧ vAFmt w = vOFmt w)
  ∧ (∃ (s u : State) (n c : Nat) (w : Bytes) (v : Ctx), s.issuing n c 0x19 w v u ∧ u.vecReady n w (v.frame (vDk w))) :=
  ⟨⟨atWord (vword 0x15 []), _, 0, 0, _, ctx0, issuing_ok (by decide +kernel), vecReady_ok (by decide +kernel)⟩,
   ⟨atWord (vword 0x16 []), _, 0, 0, _, ctx0, issuing_ok (by decide +kernel), vecReady_ok (by decide +kernel)⟩,
   ⟨atWord (vword 0x17 []), _, 0, 0, _, ctx0, issuing_ok (by decide +kernel), vecReady_ok (by decide +kernel)⟩,
   ⟨atWord (vword 0x18 [(24, 1, 1)]), _, 0, 0, _, ctx0, issuing_ok (by decide +kernel), vecReady_ok
       (by decide +kernel), by decide +kernel⟩,
   ⟨atWord (vword 0x18 []), _, 0, 0, _, ctx0, issuing_ok (by decide +kernel), vecReady_ok (by decide +kernel),
       by decide +kernel⟩,
   ⟨atWord (vword 0x19 []), _, 0, 0, _, ctx0, issuing_ok (by decide +kernel), vecReady_ok (by decide +kernel)⟩⟩

theorem witness_VectorConvert :
  (∃ (s u : State) (n c : Nat) (w : Bytes) (v : Ctx), s.issuing n c 0x1A w v u ∧ u.vecReady n w (v.frame (vDk w)))
  ∧ (∃ (s u : State) (n c : Nat) (w : Bytes) (v : Ctx), s.issuing n c 0x1B w v u ∧ u.vecReady n w (v.frame (vDk w)) ∧
      isMx (vOFmt w) = false)
  ∧ (∃ (s u : State) (n c : Nat) (w : Bytes) (v : Ctx), s.issuing n c 0x1B w v u ∧ u.vecReady n w (v.frame (vDk w)) ∧
      isMx (vOFmt w) = true)
  ∧ (∃ (s u : State) (n c : Nat) (w : Bytes) (v : Ctx), s.issuing n c 0x1C w v u ∧ u.vecReady n w (v.frame (vDk w)))
  ∧ (∃ (s u : State) (n c : Nat) (w : Bytes) (v : Ctx), s.issuing n c 0x1D w v u ∧ u.vecReady n w (v.frame (vDk w))) :=
  ⟨⟨atWord (vword 0x1A []), _, 0, 0, _, ctx0, issuing_ok (by decide +kernel), vecReady_ok (by decide +kernel)⟩,
   ⟨atWord (vword 0x1B []), _, 0, 0, _, ctx0, issuing_ok (by decide +kernel), vecReady_ok (by decide +kernel),
       by decide +kernel⟩,
   ⟨atWord (vword 0x1B [(23, 1, 7)]), _, 0, 0, _, ctx0, issuing_ok (by decide +kernel), vecReady_ok
       (by decide +kernel), by decide +kernel⟩,
   ⟨atWord (vword 0x1C []), _, 0, 0, _, ctx0, issuing_ok (by decide +kernel), vecReady_ok (by decide +kernel)⟩,
   ⟨atWord (vword 0x1D []), _, 0, 0, _, ctx0, issuing_ok (by decide +kernel), vecReady_ok (by decide +kernel)⟩⟩

def addJob : VecJob := { ctx := 0, word := vword 0x10 [] }
def subJob : VecJob := { ctx := 0, word := vword 0x11 [], frame := { rows := 1, cols := 4, depth := 32 } }
def queued (js : List VecJob) : State := onTile (atWord (vword 0x10 [])) fun x => { x with vec := js }

theorem witness_VectorReduce :
  (∃ (s u : State) (n c : Nat) (w : Bytes) (v : Ctx), s.issuing n c 0x1E w v u ∧ u.vecReady n w (v.frame (vDk w)) ∧
      (v.frame (vDk w)).cols ≠ 0)
  ∧ (∃ (s u : State) (n c : Nat) (w : Bytes) (v : Ctx), s.issuing n c 0x1F w v u ∧ u.vecReady n w (v.frame (vDk w)))
  ∧ (∃ (s : State) (n : Nat) (j : VecJob) (js : List VecJob) (v : Ctx), (s.tile n).vec = j :: js ∧ js.all (·.read) =
      true ∧ s.ctx? n j.ctx = some v)
  ∧ (∃ (s s1 u : State) (n : Nat) (j j' : VecJob) (v : Ctx), (s.tile n).vec = [j, j'] ∧ j'.read = false ∧ s.ctx? n
      j.ctx = some v ∧ s1 = (s.each j.out fun s o => s.vecLand n o).modTile n (fun x => { x with vec := [j'] }) ∧ u =
      (s1.freeBanks n j.word).signal n j.ctx j.word ∧ (vecLines j'.word j'.frame.rows).any (u.spBad n) = false ∧
      u.vecTags n j'.word = true)
  ∧ (∃ (s u : State) (n c : Nat) (op : Instr × Nat) (w : Bytes) (v : Ctx), op ∈ vecOps n c ∧ s.issuing n c op.2 w v u
      ∧ (v.frame (vDk w)).rows ≠ 0 ∧ (u.tile n).vec.all (·.read) = false)
  ∧ (∃ (s u : State) (n c : Nat) (op : Instr × Nat) (w : Bytes) (v : Ctx), op ∈ vecOps n c ∧ s.issuing n c op.2 w v u
      ∧ (v.frame (vDk w)).rows ≠ 0 ∧ (vecLines w (v.frame (vDk w)).rows).any (u.spBad n) = false ∧ u.vecTags n w =
      true)
  ∧ (∃ (s u : State) (n c : Nat) (op : Instr × Nat) (w : Bytes) (v v1 : Ctx), op ∈ vecOps n c ∧ s.issuing n c op.2 w v
      u ∧ (v.frame (vDk w)).rows = 0 ∧ u.ctx? n c = some v1) :=
  ⟨⟨atWord (vword 0x1E []), _, 0, 0, _, ctx0, issuing_ok (by decide +kernel), vecReady_ok (by decide +kernel),
       by decide +kernel⟩,
   ⟨atWord (vword 0x1F []), _, 0, 0, _, ctx0, issuing_ok (by decide +kernel), vecReady_ok (by decide +kernel)⟩,
   ⟨queued [addJob], 0, addJob, [], ctx0, by decide +kernel⟩,
   ⟨queued [addJob, subJob], _, _, 0, addJob, subJob, ctx0, by decide +kernel, by decide +kernel, by decide +kernel,
       rfl, rfl, by decide +kernel⟩,
   ⟨queued [addJob], _, 0, 0, (.add 0 0, 0x10), _, ctx0, by simp [vecOps], issuing_ok (by decide +kernel),
       by decide +kernel⟩,
   ⟨atWord (vword 0x10 []), _, 0, 0, (.add 0 0, 0x10), _, ctx0, by simp [vecOps], issuing_ok (by decide +kernel),
       by decide +kernel⟩,
   ⟨onTile (atWord (vword 0x10 [])) (fun x => { x with ctxs := [(0, { post := some 0, frames := [(0, { rows := 0 })] })] }),
       _, 0, 0, (.add 0 0, 0x10), _, { post := some 0, frames := [(0, { rows := 0 })] }, _, by simp [vecOps], issuing_ok (by decide +kernel), by decide +kernel, rfl⟩⟩

theorem witness_Transfers :
  (∃ (s u : State) (n c : Nat) (w : Bytes) (v : Ctx) (cmd : Cmd) (pl : Place), s.issuing n c 0x38 w v u ∧ xClass w ≠ 1
      ∧ u.cmdOf v = some cmd ∧ u.placeOf cmd w = some pl ∧ u.placeFault w pl = false)
  ∧ (∃ (s u : State) (n c k : Nat) (w : Bytes) (v v1 : Ctx) (l : Nat × Nat × Nat × Nat), s.issuing n c 0x38 w v u ∧
      xClass w = 1 ∧ v.post = some k ∧ u.ctx? n c = some v1 ∧ (u.tile n).landed.find? (fun l => some l.1 == v.post &&
      l.2.1 == xTile w) = some l ∧ l.2.2 = (xLine w, xSheets w))
  ∧ (∃ (s u : State) (n c : Nat) (w : Bytes) (v : Ctx) (cmd : Cmd) (pl : Place), s.issuing n c 0x39 w v u ∧ xClass w ≠
      1 ∧ u.cmdOf v = some cmd ∧ u.placeOf cmd w = some pl ∧ u.placeFault w pl = false ∧ u.sealBreach cmd w = false ∧
      u.goesOut { ctx := c, post := v.post, word := w, frame := v.frame (xDk w) } = false)
  ∧ (∃ (s u : State) (n c : Nat) (w : Bytes) (v : Ctx), s.issuing n c 0x39 w v u ∧ xClass w = 1)
  ∧ (∃ (s : State) (n cls k : Nat) (d : Rd) (j : XferJob) (pl : Place) (v : Ctx), (s.tile n).head cls = some j ∧
      isFetch j.word = true ∧ cls ≠ 1 ∧ s.idsDone j = true ∧ j.sent = false ∧ j.cached = [] ∧ xClass j.word = cls ∧
      j.post = some k ∧ s.ctx? n j.ctx = some v ∧ s.placeFor v j.word = some pl ∧ s.readLost k pl = false ∧ (s.tile
      n).st ≠ 4)
  ∧ (∃ (s : State) (n cls k : Nat) (j : XferJob) (a : Nat) (v : Ctx) (cmd : Cmd), (s.tile n).firstPut cls = some j ∧
      isPut j.word = true ∧ j.sent = false ∧ j.post = some k ∧ s.cmd? k = some cmd ∧ s.ctx? n j.ctx = some v ∧
      s.placeFor v j.word = some (.slice a) ∧ s.xBad n j.word = [] ∧ xSeg j.word ≠ 9 ∧ (s.tile n).st ≠ 4)
  ∧ (∃ (s : State) (n cls : Nat) (j : XferJob) (v : Ctx), (s.tile n).firstPut cls = some j ∧ isPut j.word = true ∧
      j.sent = true ∧ s.idsDone j = true ∧ (s.tile n).st ≠ 4 ∧ s.ctx? n j.ctx = some v)
  ∧ (∃ (s : State) (n src line m epoch c : Nat) (post : Option Nat) (rs : List (Nat × Bytes)) (bad : List Nat) (f :
      Flight) (v : Ctx) (j : XferJob), s.feltHead src n Msg.isSheets = some f ∧ f.msg = .sheets post line m epoch rs
      bad ∧ epoch = FMap.get s.ream.epochs src 0 ∧ s.ctxOf n post = some (c, v) ∧ v.failed = false ∧ s.awaiting n c
      src = some j ∧ xLine j.word = line ∧ xSheets j.word = m ∧ (s.tile n).st ≠ 4)
  ∧ (∃ (s : State) (n src line m epoch : Nat) (rs : List (Nat × Bytes)) (bad : List Nat) (f : Flight), n < 72 ∧
      s.feltHead src n Msg.isSheets = some f ∧ f.msg = .sheets none line m epoch rs bad ∧ epoch ≠ FMap.get
      s.ream.epochs src 0) :=
  ⟨⟨atWord (word 0x38 [(12, 1, 2), (13, 1, 0), (16, 2, 64), (18, 2, 1)]), _, 0, 0, _, ctx0,
       { cmdOf postDesc with phase := .post }, .seg 0 0 0 false, issuing_ok (by decide +kernel), by decide +kernel⟩,
   ⟨onTile (atWord (word 0x38 [(12, 1, 1), (13, 1, 0), (16, 2, 64), (18, 2, 1), (14, 1, 1)])) fun x =>
       { x with landed := [((0, 1, 64, 1))] }, _, 0, 0, 0, _, ctx0, { ctx0 with pc := 1 }, (0, 1, 64, 1), issuing_ok
       (by decide +kernel), by decide +kernel⟩,
   ⟨atWord (word 0x39 [(12, 1, 2), (13, 1, 0), (16, 2, 64), (18, 2, 1)]), _, 0, 0, _, ctx0,
       { cmdOf postDesc with phase := .post }, .seg 0 0 0 false, issuing_ok (by decide +kernel), by decide +kernel⟩,
   ⟨atWord (word 0x39 [(12, 1, 1), (13, 1, 0), (16, 2, 64), (18, 2, 1), (14, 1, 1)]), _, 0, 0, _, ctx0, issuing_ok
       (by decide +kernel), by decide +kernel⟩,
   ⟨onTile (atWord (word 4 [])) fun x =>
       { x with xq := [(2, [({ ctx := 0, post := some 0, word := word 0x38 [(12, 1, 2), (13, 1, 0), (16, 2, 64), (18, 2, 1)] })])] },
       0, 2, 0, { data := [] },
       { ctx := 0, post := some 0, word := word 0x38 [(12, 1, 2), (13, 1, 0), (16, 2, 64), (18, 2, 1)] }, .seg 0 0 0
       false, ctx0, by decide +kernel⟩,
   ⟨onTile (atWord (word 4 [])) fun x =>
       { x with xq := [(0, [({ ctx := 0, post := some 0, word := word 0x39 [(12, 1, 0), (13, 1, 3), (16, 2, 64), (18, 2, 1)] })])] },
       0, 0, 0, { ctx := 0, post := some 0, word := word 0x39 [(12, 1, 0), (13, 1, 3), (16, 2, 64), (18, 2, 1)] }, 0,
       ctx0, { cmdOf postDesc with phase := .post }, by decide +kernel⟩,
   ⟨onTile (atWord (word 4 [])) fun x =>
       { x with xq := [(0, [({ ctx := 0, post := some 0, word := word 0x39 [(12, 1, 0), (13, 1, 3), (16, 2, 64), (18, 2, 1)], sent := true })])] },
       0, 0,
       { ctx := 0, post := some 0, word := word 0x39 [(12, 1, 0), (13, 1, 3), (16, 2, 64), (18, 2, 1)], sent := true },
       ctx0, by decide +kernel⟩,
   ⟨{ onTile (atWord (word 4 [])) fun x => { x with xq := [(1, [({ ctx := 0, post := some 0, word := word 0x38 [(12, 1, 1), (13, 1, 0), (16, 2, 64), (18, 2, 1), (14, 1, 1)] })])] } with felt := [({ id := 0, src := 1, dst := 0, msg := .sheets (some 0) 64 1 0 [] [] })] },
       0, 1, 64, 1, 0, 0, some 0, [], [], { id := 0, src := 1, dst := 0, msg := .sheets (some 0) 64 1 0 [] [] }, ctx0,
       { ctx := 0, post := some 0, word := word 0x38 [(12, 1, 1), (13, 1, 0), (16, 2, 64), (18, 2, 1), (14, 1, 1)] },
       by decide +kernel⟩,
   ⟨{ base with felt := [({ id := 0, src := 1, dst := 0, msg := .sheets none 64 1 1 [] [] })] }, 0, 1, 64, 1, 1, [],
       [], { id := 0, src := 1, dst := 0, msg := .sheets none 64 1 1 [] [] }, by decide +kernel⟩⟩

end Sys2Proof.Tests.Tiles
end

/-! ## What a command keeps and what it leaves alone

The laws of `Laws/Keep*` and `Laws/Same*` speak of one meaning each; here they are said once of `exec`, and of a step. -/

namespace Sys2Proof.Machine

/-- Every command answers a next state, and keeps the waiting commands, the fuses of R3, the rollback floor and the
memory's form: `Laws/Keep*` says so of its meaning. -/
theorem exec_keeps (c : Instr) (s : State) : ∃ t, exec c s = .next t ∧ Keeps s t := by
  cases c with
  | post a b c => exact execPost_next s a b c
  | reamLoad a b c => exact execReamLoad_next s a b c
  | reamPatch a b c => exact execReamPatch_next s a b c
  | reamUnload a b => exact execReamUnload_next s a b
  | tableCommit a b => exact execTableCommit_next s a b
  | commitStepsDrained => exact execCommitStepsDrained_next s
  | keyInstall a b c => exact execKeyInstall_next s a b c
  | keyUnwrapDone a => exact execKeyUnwrapDone_next s a
  | keyErase a b => exact execKeyErase_next s a b
  | keyEraseFinish a => exact execKeyEraseFinish_next s a
  | keyQuery a b => exact execKeyQuery_next s a b
  | shingleProfile a b c => exact execShingleProfile_next s a b c
  | ingest a b => exact execIngest_next s a b
  | ingestDecryptDone a b => exact execIngestDecryptDone_next s a b
  | shingleDone a b => exact execShingleDone_next s a b
  | partAttach a b => exact execPartAttach_next s a b
  | partDetach a b => exact execPartDetach_next s a b
  | detachFinish a => exact execDetachFinish_next s a
  | ringSetup a b c => exact execRingSetup_next s a b c
  | segSetupCreate a b => exact execSegSetupCreate_next s a b
  | segSetupRemove a b => exact execSegSetupRemove_next s a b
  | segSetupMap a b => exact execSegSetupMap_next s a b
  | segSetupUnmap a b => exact execSegSetupUnmap_next s a b
  | segmentDrainDone a b => exact execSegmentDrainDone_next s a b
  | segSetupFaultArea a b => exact execSegSetupFaultArea_next s a b
  | faultResumeResume a b c => exact execFaultResumeResume_next s a b c
  | faultResumeEnd a b => exact execFaultResumeEnd_next s a b
  | windowSetup a b => exact execWindowSetup_next s a b
  | windowRemove a b => exact execWindowRemove_next s a b
  | windowDrainDone a b => exact execWindowDrainDone_next s a b
  | partnerPairSender a b => exact execPartnerPairSender_next s a b
  | partnerPairReceiver a b => exact execPartnerPairReceiver_next s a b
  | partnerPairUnpair a b => exact execPartnerPairUnpair_next s a b
  | checkpoint a b => exact execCheckpoint_next s a b
  | restore a b c => exact execRestore_next s a b c
  | attach a => exact execAttach_next s a
  | ringEnable a => exact execRingEnable_next s a
  | ringDisable a => exact execRingDisable_next s a
  | ringDrainDone a => exact execRingDrainDone_next s a
  | ringServeTurn a => exact execRingServeTurn_next s a
  | descriptorReadData a b => exact execDescriptorReadData_next s a b
  | descriptorRereadTimer a => exact execDescriptorRereadTimer_next s a
  | armWriteAccepted a => exact execArmWriteAccepted_next s a
  | doorbellRereadData a b => exact execDoorbellRereadData_next s a b
  | hostSnoop a b => exact execHostSnoop_next s a b
  | doorbellWindowWrite a b c => exact execDoorbellWindowWrite_next s a b c
  | translationWalkDone a b c d => exact execTranslationWalkDone_next s a b c d
  | faultRecordAccepted a => exact execFaultRecordAccepted_next s a
  | stagingStart a b => exact execStagingStart_next s a b
  | beaterBlockDecode a b c => exact execBeaterBlockDecode_next s a b c
  | inputStagingDone a b c => exact execInputStagingDone_next s a b c
  | admissionSlotOpen => exact execAdmissionSlotOpen_next s
  | sweepBoundary => exact execSweepBoundary_next s
  | intervalBoundary => exact execIntervalBoundary_next s
  | calenderSliceEnd a b => exact execCalenderSliceEnd_next s a b
  | stageMoveSourceRelease => exact execStageMoveSourceRelease_next s
  | fill a b => exact execFill_next s a b
  | weightLoadDone a => exact execWeightLoadDone_next s a
  | fillStart a => exact execFillStart_next s a
  | fillComplete a => exact execFillComplete_next s a
  | stream a b => exact execStream_next s a b
  | deckle a b => exact execDeckle_next s a b
  | endOp a b => exact execEndOp_next s a b
  | endComplete a b => exact execEndComplete_next s a b
  | wait a b => exact execWait_next s a b
  | add a b => exact execAdd_next s a b
  | sub a b => exact execSub_next s a b
  | mul a b => exact execMul_next s a b
  | max a b => exact execMax_next s a b
  | min a b => exact execMin_next s a b
  | affine a b => exact execAffine_next s a b
  | cmp a b => exact execCmp_next s a b
  | select a b => exact execSelect_next s a b
  | unary a b => exact execUnary_next s a b
  | func a b => exact execFunc_next s a b
  | convert a b => exact execConvert_next s a b
  | quant a b => exact execQuant_next s a b
  | rescale a b => exact execRescale_next s a b
  | rotate a b => exact execRotate_next s a b
  | reduceRow a b => exact execReduceRow_next s a b
  | reduceCol a b => exact execReduceCol_next s a b
  | vectorInstructionDone a => exact execVectorInstructionDone_next s a
  | fetch a b => exact execFetch_next s a b
  | put a b => exact execPut_next s a b
  | fetchComplete a b c => exact execFetchComplete_next s a b c
  | putComplete a b => exact execPutComplete_next s a b
  | feltArrival a b => exact execFeltArrival_next s a b
  | dispatch a b => exact execDispatch_next s a b
  | combine a b => exact execCombine_next s a b
  | gradDispatch a b => exact execGradDispatch_next s a b
  | gatherEntryArrival a b => exact execGatherEntryArrival_next s a b
  | gatherEndMarkerArrival a b => exact execGatherEndMarkerArrival_next s a b
  | gatherRowReadDone a b c d => exact execGatherRowReadDone_next s a b c d
  | partialArrival a b => exact execPartialArrival_next s a b
  | combineEndMarkerArrival a b => exact execCombineEndMarkerArrival_next s a b
  | overMarkerArrival a b => exact execOverMarkerArrival_next s a b
  | updateStepStart a b c => exact execUpdateStepStart_next s a b c
  | gradientArrival a b => exact execGradientArrival_next s a b
  | updateEndMarkerArrival a b => exact execUpdateEndMarkerArrival_next s a b
  | commitRun => exact execCommitRun_next s
  | updateWritesDone a => exact execUpdateWritesDone_next s a
  | escCountReport a => exact execEscCountReport_next s a
  | completionRecordWrite a => exact execCompletionRecordWrite_next s a
  | completionRecordAccepted a => exact execCompletionRecordAccepted_next s a
  | ringTimeout a b => exact execRingTimeout_next s a b
  | migrationPromote a b c d => exact execMigrationPromote_next s a b c d
  | migrationDemote a b c => exact execMigrationDemote_next s a b c
  | migrationCopyDone a b c => exact execMigrationCopyDone_next s a b c
  | migrationCatchUpDone a b c => exact execMigrationCatchUpDone_next s a b c
  | migrationRelease a b c => exact execMigrationRelease_next s a b c
  | migCtrlEnableClear a => exact execMigCtrlEnableClear_next s a
  | staleRowWriteBack a b c => exact execStaleRowWriteBack_next s a b c
  | vaultRowsAppend a b => exact execVaultRowsAppend_next s a b
  | vaultAppendDurable => exact execVaultAppendDurable_next s
  | stateRecordTimer => exact execStateRecordTimer_next s
  | partnerRecordWrite => exact execPartnerRecordWrite_next s
  | partnerRecordArrival a => exact execPartnerRecordArrival_next s a
  | partnerAckReceive a b c => exact execPartnerAckReceive_next s a b c
  | partnerHelloReceive a b c d => exact execPartnerHelloReceive_next s a b c d
  | partnerHelloTimeout => exact execPartnerHelloTimeout_next s
  | partnerStall => exact execPartnerStall_next s
  | partnerRestoreRequest a => exact execPartnerRestoreRequest_next s a
  | t0CorrectedWriteBack a => exact execT0CorrectedWriteBack_next s a
  | t0ScrubPass a b => exact execT0ScrubPass_next s a b
  | t1ScrubPass a b => exact execT1ScrubPass_next s a b
  | t1PackageLost a b => exact execT1PackageLost_next s a b
  | poisonRepair a b c => exact execPoisonRepair_next s a b c
  | reamLineReload a => exact execReamLineReload_next s a
  | d2dFlitReplay a => exact execD2dFlitReplay_next s a
  | d2dRetrain => exact execD2dRetrain_next s
  | watchdogTimeoutEnd a => exact execWatchdogTimeoutEnd_next s a
  | watchdogContext a b => exact execWatchdogContext_next s a b
  | watchdogGather a b => exact execWatchdogGather_next s a b
  | watchdogAdmit => exact execWatchdogAdmit_next s
  | watchdogMalformed a b => exact execWatchdogMalformed_next s a b
  | watchdogFrontEnd => exact execWatchdogFrontEnd_next s
  | watchdogCore a => exact execWatchdogCore_next s a
  | devReset a => exact execDevReset_next s a
  | coldReset a => exact execColdReset_next s a
  | bootFallback => exact execBootFallback_next s
  | partReset a => exact execPartReset_next s a
  | partResetFinish a => exact execPartResetFinish_next s a
  | inputApplied => exact execInputApplied_next s
  | standbyEntry a b => exact execStandbyEntry_next s a b
  | inputPowerSample a b => exact execInputPowerSample_next s a b
  | flushEndDurable => exact execFlushEndDurable_next s
  | safeInputStable => exact execSafeInputStable_next s
  | bankDischarged => exact execBankDischarged_next s
  | modResetLow a => exact execModResetLow_next s a
  | modResetRelease => exact execModResetRelease_next s
  | hardwareTrip => exact execHardwareTrip_next s
  | dramSensorReading a b c => exact execDramSensorReading_next s a b c
  | junctionSensorReading a b c => exact execJunctionSensorReading_next s a b c
  | coolantSensorReading a b c => exact execCoolantSensorReading_next s a b c
  | coolDemandUpdate => exact execCoolDemandUpdate_next s
  | powerComparison a => exact execPowerComparison_next s a
  | wakeRampDone => exact execWakeRampDone_next s
  | tileGroupUsable a => exact execTileGroupUsable_next s a
  | bankEstimate a b => exact execBankEstimate_next s a b
  | bankChargeTimeout => exact execBankChargeTimeout_next s
  | bankHealthTestTimer => exact execBankHealthTestTimer_next s
  | bankHealthTestDone a b => exact execBankHealthTestDone_next s a b
  | bankTest a => exact execBankTest_next s a
  | flushClear a b => exact execFlushClear_next s a b
  | pwrCap a => exact execPwrCap_next s a
  | slew a => exact execSlew_next s a
  | lock a b => exact execLock_next s a b
  | hostPortReset => exact execHostPortReset_next s
  | linkRecovery a b => exact execLinkRecovery_next s a b
  | hostLinkL0 a b c => exact execHostLinkL0_next s a b c
  | goResponse a => exact execGoResponse_next s a
  | cxlMemRead a => exact execCxlMemRead_next s a
  | cxlMemWrite a b c => exact execCxlMemWrite_next s a b c
  | bisnpResponse a => exact execBisnpResponse_next s a
  | msixUnmask a => exact execMsixUnmask_next s a
  | barBadAccess a => exact execBarBadAccess_next s a
  | portEnable a => exact execPortEnable_next s a
  | portDisable a => exact execPortDisable_next s a
  | portLinkUp a => exact execPortLinkUp_next s a
  | linkDown a => exact execLinkDown_next s a
  | qpConnect => exact execQpConnect_next s
  | qpReset => exact execQpReset_next s
  | frameReceive a b => exact execFrameReceive_next s a b
  | rdmaWriteReceive a b c d => exact execRdmaWriteReceive_next s a b c d
  | rdmaReadRequestReceive a b c d => exact execRdmaReadRequestReceive_next s a b c d
  | rdmaReadResponseReceive a b c => exact execRdmaReadResponseReceive_next s a b c
  | sendReceive a b => exact execSendReceive_next s a b
  | ackReceive a b => exact execAckReceive_next s a b
  | nakReceive a b c => exact execNakReceive_next s a b c
  | cnpReceive a => exact execCnpReceive_next s a
  | ackTimeout a => exact execAckTimeout_next s a
  | rnrRetryTimer a => exact execRnrRetryTimer_next s a
  | ccPeriod a => exact execCcPeriod_next s a
  | packetSendTurn a => exact execPacketSendTurn_next s a
  | coalesceTimerExpiry a => exact execCoalesceTimerExpiry_next s a
  | evtAck a => exact execEvtAck_next s a
  | trigger a => exact execTrigger_next s a
  | timePairComplete => exact execTimePairComplete_next s
  | cntSel a => exact execCntSel_next s a
  | cntLo => exact execCntLo_next s
  | lowWordRead a => exact execLowWordRead_next s a
  | rcRead a => exact execRcRead_next s a
  | registerWrite a b => exact execRegisterWrite_next s a b
  | getInfo => exact execGetInfo_next s
  | getCert => exact execGetCert_next s
  | getLog => exact execGetLog_next s
  | quote => exact execQuote_next s
  | fwStage a => exact execFwStage_next s a
  | fwCommit => exact execFwCommit_next s
  | fwAbandon => exact execFwAbandon_next s
  | packInstall a => exact execPackInstall_next s a
  | dbgEnter => exact execDbgEnter_next s
  | dbgLeave => exact execDbgLeave_next s
  | dbgRun => exact execDbgRun_next s
  | dbgHalt => exact execDbgHalt_next s
  | dbgStreamKeySet a => exact execDbgStreamKeySet_next s a
  | dbgInterleaveKeySet a => exact execDbgInterleaveKeySet_next s a
  | dbgPeekRead => exact execDbgPeekRead_next s
  | dbgPeekWrite => exact execDbgPeekWrite_next s
  | peekCopyDone => exact execPeekCopyDone_next s
  | setEndpointId a => exact execSetEndpointId_next s a
  | getEndpointId => exact execGetEndpointId_next s
  | getEndpointUuid => exact execGetEndpointUuid_next s
  | getMctpVersionSupport => exact execGetMctpVersionSupport_next s
  | getMessageTypeSupport => exact execGetMessageTypeSupport_next s
  | getTid => exact execGetTid_next s
  | setTid a => exact execSetTid_next s a
  | getPldmVersion a => exact execGetPldmVersion_next s a
  | getPldmTypes => exact execGetPldmTypes_next s
  | getPldmCommands a => exact execGetPldmCommands_next s a
  | getPdrRepositoryInfo => exact execGetPdrRepositoryInfo_next s
  | getPdr a => exact execGetPdr_next s a
  | getSensorReading a => exact execGetSensorReading_next s a
  | getStateSensorReadings a => exact execGetStateSensorReadings_next s a
  | setNumericEffecterValue a b => exact execSetNumericEffecterValue_next s a b
  | getNumericEffecterValue a => exact execGetNumericEffecterValue_next s a
  | setEventReceiver a => exact execSetEventReceiver_next s a
  | pollForPlatformEventMessage => exact execPollForPlatformEventMessage_next s
  | reamLoadCopyDone => exact execReamLoadCopyDone_next s
  | vaultBlockErase a => exact execVaultBlockErase_next s a
  | perstNRelease => exact execPerstNRelease_next s
  | mailboxCommandDone => exact execMailboxCommandDone_next s

/-- Every command answers a next state, and leaves alone each part of the state that `Instr.writes` does not list for it:
`Laws/Same*` says so of its meaning, for every mask that names none of the parts it writes. -/
theorem exec_same (c : Instr) (s : State) :
    ∃ t, exec c s = .next t ∧ Same (fun f => !(c.writes.contains f)) s t := by
  cases c with
  | post a b c => exact execPost_same s a b c rfl rfl rfl rfl rfl rfl rfl rfl rfl rfl rfl
  | reamLoad a b c => exact execReamLoad_same s a b c rfl rfl rfl rfl rfl rfl rfl rfl rfl rfl rfl rfl
  | reamPatch a b c => exact execReamPatch_same s a b c rfl rfl rfl rfl rfl rfl rfl rfl rfl rfl rfl rfl
  | reamUnload a b => exact execReamUnload_same s a b rfl rfl rfl rfl rfl rfl rfl rfl rfl rfl rfl rfl
  | tableCommit a b => exact execTableCommit_same s a b rfl rfl rfl rfl rfl rfl rfl rfl rfl rfl rfl
  | commitStepsDrained => exact execCommitStepsDrained_same s rfl rfl rfl rfl rfl rfl rfl rfl rfl rfl rfl rfl
  | keyInstall a b c => exact execKeyInstall_same s a b c rfl rfl rfl rfl rfl rfl rfl rfl rfl rfl rfl rfl rfl
  | keyUnwrapDone a => exact execKeyUnwrapDone_same s a rfl rfl rfl rfl
  | keyErase a b => exact execKeyErase_same s a b rfl rfl rfl rfl rfl rfl rfl rfl rfl rfl rfl rfl
  | keyEraseFinish a => exact execKeyEraseFinish_same s a rfl rfl
  | keyQuery a b => exact execKeyQuery_same s a b rfl rfl rfl rfl rfl rfl rfl rfl rfl rfl rfl
  | shingleProfile a b c => exact execShingleProfile_same s a b c rfl rfl rfl rfl rfl rfl rfl rfl rfl rfl rfl
  | ingest a b => exact execIngest_same s a b rfl rfl rfl rfl rfl rfl rfl rfl rfl rfl rfl rfl
  | ingestDecryptDone a b => exact execIngestDecryptDone_same s a b rfl rfl rfl rfl rfl rfl rfl rfl rfl rfl rfl rfl
  | shingleDone a b => exact execShingleDone_same s a b rfl rfl rfl rfl rfl rfl rfl rfl rfl rfl rfl rfl
  | partAttach a b => exact execPartAttach_same s a b rfl rfl rfl rfl rfl rfl rfl rfl rfl rfl rfl
  | partDetach a b => exact execPartDetach_same s a b rfl rfl rfl rfl rfl rfl rfl rfl rfl rfl rfl rfl
  | detachFinish a => exact execDetachFinish_same s a rfl rfl rfl rfl rfl rfl rfl rfl rfl
  | ringSetup a b c => exact execRingSetup_same s a b c rfl rfl rfl rfl rfl rfl rfl rfl rfl rfl rfl rfl
  | segSetupCreate a b => exact execSegSetupCreate_same s a b rfl rfl rfl rfl rfl rfl rfl rfl rfl rfl rfl rfl
  | segSetupRemove a b => exact execSegSetupRemove_same s a b rfl rfl rfl rfl rfl rfl rfl rfl rfl rfl rfl rfl
  | segSetupMap a b => exact execSegSetupMap_same s a b rfl rfl rfl rfl rfl rfl rfl rfl rfl rfl rfl
  | segSetupUnmap a b => exact execSegSetupUnmap_same s a b rfl rfl rfl rfl rfl rfl rfl rfl rfl rfl rfl
  | segmentDrainDone a b =>
     exact execSegmentDrainDone_same s a b rfl rfl rfl rfl rfl rfl rfl rfl rfl rfl rfl rfl rfl rfl rfl rfl
  | segSetupFaultArea a b => exact execSegSetupFaultArea_same s a b rfl rfl rfl rfl rfl rfl rfl rfl rfl rfl rfl
  | faultResumeResume a b c =>
     exact execFaultResumeResume_same s a b c rfl rfl rfl rfl rfl rfl rfl rfl rfl rfl rfl rfl rfl rfl rfl rfl
  | faultResumeEnd a b => exact execFaultResumeEnd_same s a b rfl rfl rfl rfl rfl rfl rfl rfl rfl rfl rfl
  | windowSetup a b => exact execWindowSetup_same s a b rfl rfl rfl rfl rfl rfl rfl rfl rfl rfl rfl rfl
  | windowRemove a b => exact execWindowRemove_same s a b rfl rfl rfl rfl rfl rfl rfl rfl rfl rfl rfl rfl
  | windowDrainDone a b => exact execWindowDrainDone_same s a b rfl rfl
  | partnerPairSender a b => exact execPartnerPairSender_same s a b rfl rfl rfl rfl rfl rfl rfl rfl rfl rfl rfl
  | partnerPairReceiver a b => exact execPartnerPairReceiver_same s a b rfl rfl rfl rfl rfl rfl rfl rfl rfl rfl rfl
  | partnerPairUnpair a b => exact execPartnerPairUnpair_same s a b rfl rfl rfl rfl rfl rfl rfl rfl rfl rfl rfl
  | checkpoint a b => exact execCheckpoint_same s a b rfl rfl rfl rfl rfl rfl rfl rfl rfl rfl rfl
  | restore a b c => exact execRestore_same s a b c rfl rfl rfl rfl rfl rfl rfl rfl rfl rfl rfl rfl rfl rfl
  | attach a => exact execAttach_same s a rfl rfl rfl rfl rfl rfl rfl rfl rfl
  | ringEnable a => exact execRingEnable_same s a rfl rfl rfl rfl rfl
  | ringDisable a => exact execRingDisable_same s a rfl rfl rfl rfl rfl
  | ringDrainDone a => exact execRingDrainDone_same s a rfl rfl rfl
  | ringServeTurn a => exact execRingServeTurn_same s a rfl rfl rfl rfl
  | descriptorReadData a b => exact execDescriptorReadData_same s a b rfl rfl rfl rfl rfl
  | descriptorRereadTimer a => exact execDescriptorRereadTimer_same s a rfl rfl
  | armWriteAccepted a => exact execArmWriteAccepted_same s a rfl rfl
  | doorbellRereadData a b => exact execDoorbellRereadData_same s a b rfl rfl rfl rfl
  | hostSnoop a b => exact execHostSnoop_same s a b rfl rfl
  | doorbellWindowWrite a b c => exact execDoorbellWindowWrite_same s a b c rfl rfl rfl rfl
  | translationWalkDone a b c d =>
     exact execTranslationWalkDone_same s a b c d rfl rfl rfl rfl rfl rfl rfl rfl rfl rfl rfl rfl rfl rfl rfl rfl
  | faultRecordAccepted a => exact execFaultRecordAccepted_same s a rfl rfl rfl rfl rfl rfl
  | stagingStart a b => exact execStagingStart_same s a b rfl rfl rfl rfl rfl rfl rfl rfl rfl rfl rfl rfl
  | beaterBlockDecode a b c =>
     exact execBeaterBlockDecode_same s a b c rfl rfl rfl rfl rfl rfl rfl rfl rfl rfl rfl rfl
  | inputStagingDone a b c => exact execInputStagingDone_same s a b c rfl rfl rfl rfl rfl rfl rfl rfl rfl rfl rfl rfl
  | admissionSlotOpen =>
     exact execAdmissionSlotOpen_same s rfl rfl rfl rfl rfl rfl rfl rfl rfl rfl rfl rfl rfl rfl rfl rfl rfl
  | sweepBoundary =>
     exact execSweepBoundary_same s rfl rfl rfl rfl rfl rfl rfl rfl rfl rfl rfl rfl rfl rfl rfl rfl rfl
  | intervalBoundary =>
     exact execIntervalBoundary_same s rfl rfl rfl rfl rfl rfl rfl rfl rfl rfl rfl rfl rfl rfl rfl rfl rfl
  | calenderSliceEnd a b => exact execCalenderSliceEnd_same s a b rfl rfl rfl rfl rfl rfl rfl rfl
  | stageMoveSourceRelease => exact execStageMoveSourceRelease_same s rfl rfl rfl
  | fill a b => exact execFill_same s a b rfl rfl rfl rfl
  | weightLoadDone a => exact execWeightLoadDone_same s a rfl rfl
  | fillStart a => exact execFillStart_same s a rfl rfl rfl rfl rfl rfl
  | fillComplete a => exact execFillComplete_same s a rfl rfl rfl rfl
  | stream a b => exact execStream_same s a b rfl rfl rfl rfl rfl rfl rfl rfl rfl rfl
  | deckle a b => exact execDeckle_same s a b rfl rfl rfl rfl rfl
  | endOp a b => exact execEndOp_same s a b rfl rfl rfl
  | endComplete a b => exact execEndComplete_same s a b rfl rfl rfl rfl rfl rfl rfl rfl rfl rfl rfl rfl rfl rfl rfl
  | wait a b => exact execWait_same s a b rfl rfl rfl rfl
  | add a b => exact execAdd_same s a b rfl rfl rfl rfl rfl rfl rfl rfl
  | sub a b => exact execSub_same s a b rfl rfl rfl rfl rfl rfl rfl rfl
  | mul a b => exact execMul_same s a b rfl rfl rfl rfl rfl rfl rfl rfl
  | max a b => exact execMax_same s a b rfl rfl rfl rfl rfl rfl rfl rfl
  | min a b => exact execMin_same s a b rfl rfl rfl rfl rfl rfl rfl rfl
  | affine a b => exact execAffine_same s a b rfl rfl rfl rfl rfl rfl rfl rfl
  | cmp a b => exact execCmp_same s a b rfl rfl rfl rfl rfl rfl rfl rfl
  | select a b => exact execSelect_same s a b rfl rfl rfl rfl rfl rfl rfl rfl
  | unary a b => exact execUnary_same s a b rfl rfl rfl rfl rfl rfl rfl rfl
  | func a b => exact execFunc_same s a b rfl rfl rfl rfl rfl rfl rfl rfl
  | convert a b => exact execConvert_same s a b rfl rfl rfl rfl rfl rfl rfl rfl
  | quant a b => exact execQuant_same s a b rfl rfl rfl rfl rfl rfl rfl rfl
  | rescale a b => exact execRescale_same s a b rfl rfl rfl rfl rfl rfl rfl rfl
  | rotate a b => exact execRotate_same s a b rfl rfl rfl rfl rfl rfl rfl rfl
  | reduceRow a b => exact execReduceRow_same s a b rfl rfl rfl rfl rfl rfl rfl rfl
  | reduceCol a b => exact execReduceCol_same s a b rfl rfl rfl rfl rfl rfl rfl rfl
  | vectorInstructionDone a => exact execVectorInstructionDone_same s a rfl rfl rfl rfl rfl rfl rfl rfl
  | fetch a b => exact execFetch_same s a b rfl rfl rfl rfl rfl rfl rfl rfl rfl rfl rfl rfl rfl rfl rfl
  | put a b => exact execPut_same s a b rfl rfl rfl rfl rfl rfl rfl rfl rfl rfl rfl rfl rfl rfl rfl
  | fetchComplete a b c => exact execFetchComplete_same s a b c rfl rfl rfl rfl rfl rfl rfl rfl
  | putComplete a b => exact execPutComplete_same s a b rfl rfl rfl rfl rfl rfl rfl rfl rfl rfl rfl rfl rfl
  | feltArrival a b =>
     exact execFeltArrival_same s a b rfl rfl rfl rfl rfl rfl rfl rfl rfl rfl rfl rfl rfl rfl rfl rfl
  | dispatch a b => exact execDispatch_same s a b rfl rfl rfl rfl rfl rfl rfl rfl
  | combine a b => exact execCombine_same s a b rfl rfl rfl rfl rfl
  | gradDispatch a b => exact execGradDispatch_same s a b rfl rfl rfl rfl rfl rfl rfl rfl
  | gatherEntryArrival a b => exact execGatherEntryArrival_same s a b rfl rfl rfl rfl rfl rfl rfl
  | gatherEndMarkerArrival a b => exact execGatherEndMarkerArrival_same s a b rfl rfl rfl rfl rfl rfl rfl
  | gatherRowReadDone a b c d => exact execGatherRowReadDone_same s a b c d rfl rfl rfl
  | partialArrival a b =>
     exact execPartialArrival_same s a b rfl rfl rfl rfl rfl rfl rfl rfl rfl rfl rfl rfl rfl rfl rfl rfl
  | combineEndMarkerArrival a b =>
     exact execCombineEndMarkerArrival_same s a b rfl rfl rfl rfl rfl rfl rfl rfl rfl rfl rfl rfl rfl rfl rfl rfl
  | overMarkerArrival a b =>
     exact execOverMarkerArrival_same s a b rfl rfl rfl rfl rfl rfl rfl rfl rfl rfl rfl rfl rfl rfl rfl rfl
  | updateStepStart a b c => exact execUpdateStepStart_same s a b c rfl rfl rfl rfl
  | gradientArrival a b => exact execGradientArrival_same s a b rfl rfl rfl rfl rfl
  | updateEndMarkerArrival a b => exact execUpdateEndMarkerArrival_same s a b rfl rfl rfl rfl rfl rfl
  | commitRun => exact execCommitRun_same s rfl rfl rfl rfl rfl rfl rfl rfl rfl rfl rfl rfl rfl rfl rfl
  | updateWritesDone a =>
     exact execUpdateWritesDone_same s a rfl rfl rfl rfl rfl rfl rfl rfl rfl rfl rfl rfl rfl rfl rfl
  | escCountReport a => exact execEscCountReport_same s a rfl rfl rfl rfl rfl rfl rfl rfl rfl rfl rfl rfl rfl rfl rfl
  | completionRecordWrite a => exact execCompletionRecordWrite_same s a rfl rfl rfl rfl
  | completionRecordAccepted a => exact execCompletionRecordAccepted_same s a rfl rfl rfl rfl rfl rfl
  | ringTimeout a b =>
     exact execRingTimeout_same s a b rfl rfl rfl rfl rfl rfl rfl rfl rfl rfl rfl rfl rfl rfl rfl rfl
  | migrationPromote a b c d => exact execMigrationPromote_same s a b c d rfl rfl rfl
  | migrationDemote a b c => exact execMigrationDemote_same s a b c rfl rfl rfl
  | migrationCopyDone a b c => exact execMigrationCopyDone_same s a b c rfl rfl rfl rfl rfl rfl rfl rfl rfl rfl
  | migrationCatchUpDone a b c => exact execMigrationCatchUpDone_same s a b c rfl rfl rfl rfl rfl rfl rfl rfl rfl rfl
  | migrationRelease a b c => exact execMigrationRelease_same s a b c rfl rfl rfl
  | migCtrlEnableClear a => exact execMigCtrlEnableClear_same s a rfl rfl rfl rfl
  | staleRowWriteBack a b c => exact execStaleRowWriteBack_same s a b c rfl rfl rfl rfl rfl rfl rfl rfl rfl rfl
  | vaultRowsAppend a b => exact execVaultRowsAppend_same s a b rfl rfl rfl rfl
  | vaultAppendDurable => exact execVaultAppendDurable_same s rfl rfl rfl rfl rfl
  | stateRecordTimer => exact execStateRecordTimer_same s rfl rfl rfl
  | partnerRecordWrite => exact execPartnerRecordWrite_same s rfl rfl rfl
  | partnerRecordArrival a => exact execPartnerRecordArrival_same s a rfl rfl rfl rfl rfl rfl rfl rfl rfl rfl
  | partnerAckReceive a b c => exact execPartnerAckReceive_same s a b c rfl rfl
  | partnerHelloReceive a b c d => exact execPartnerHelloReceive_same s a b c d rfl rfl rfl
  | partnerHelloTimeout => exact execPartnerHelloTimeout_same s rfl rfl
  | partnerStall => exact execPartnerStall_same s rfl rfl rfl rfl rfl rfl
  | partnerRestoreRequest a => exact execPartnerRestoreRequest_same s a rfl
  | t0CorrectedWriteBack a => exact execT0CorrectedWriteBack_same s a rfl rfl
  | t0ScrubPass a b => exact execT0ScrubPass_same s a b rfl rfl rfl rfl rfl
  | t1ScrubPass a b => exact execT1ScrubPass_same s a b rfl rfl rfl rfl rfl rfl rfl rfl rfl
  | t1PackageLost a b => exact execT1PackageLost_same s a b rfl rfl rfl rfl rfl rfl rfl
  | poisonRepair a b c => exact execPoisonRepair_same s a b c rfl rfl rfl rfl rfl rfl rfl rfl rfl rfl
  | reamLineReload a => exact execReamLineReload_same s a rfl rfl rfl rfl
  | d2dFlitReplay a => exact execD2dFlitReplay_same s a rfl rfl
  | d2dRetrain =>
     exact execD2dRetrain_same s rfl rfl rfl rfl rfl rfl rfl rfl rfl rfl rfl rfl rfl rfl rfl rfl rfl rfl rfl rfl rfl
  | watchdogTimeoutEnd a =>
     exact execWatchdogTimeoutEnd_same s a rfl rfl rfl rfl rfl rfl rfl rfl rfl rfl rfl rfl rfl rfl rfl rfl rfl rfl rfl
      rfl rfl
  | watchdogContext a b =>
     exact execWatchdogContext_same s a b rfl rfl rfl rfl rfl rfl rfl rfl rfl rfl rfl rfl rfl rfl rfl rfl rfl rfl rfl
      rfl rfl
  | watchdogGather a b =>
     exact execWatchdogGather_same s a b rfl rfl rfl rfl rfl rfl rfl rfl rfl rfl rfl rfl rfl rfl rfl rfl rfl rfl rfl
      rfl rfl
  | watchdogAdmit =>
     exact execWatchdogAdmit_same s rfl rfl rfl rfl rfl rfl rfl rfl rfl rfl rfl rfl rfl rfl rfl rfl rfl rfl rfl rfl
      rfl
  | watchdogMalformed a b =>
     exact execWatchdogMalformed_same s a b rfl rfl rfl rfl rfl rfl rfl rfl rfl rfl rfl rfl rfl rfl rfl rfl rfl rfl
      rfl rfl rfl
  | watchdogFrontEnd =>
     exact execWatchdogFrontEnd_same s rfl rfl rfl rfl rfl rfl rfl rfl rfl rfl rfl rfl rfl rfl rfl rfl rfl rfl rfl rfl
      rfl
  | watchdogCore a =>
     exact execWatchdogCore_same s a rfl rfl rfl rfl rfl rfl rfl rfl rfl rfl rfl rfl rfl rfl rfl rfl rfl rfl rfl rfl
      rfl
  | devReset a =>
     exact execDevReset_same s a rfl rfl rfl rfl rfl rfl rfl rfl rfl rfl rfl rfl rfl rfl rfl rfl rfl rfl rfl rfl rfl
  | coldReset a =>
     exact execColdReset_same s a rfl rfl rfl rfl rfl rfl rfl rfl rfl rfl rfl rfl rfl rfl rfl rfl rfl rfl rfl rfl rfl
      rfl rfl rfl rfl rfl
  | bootFallback =>
     exact execBootFallback_same s rfl rfl rfl rfl rfl rfl rfl rfl rfl rfl rfl rfl rfl rfl rfl rfl rfl rfl rfl rfl rfl
      rfl rfl rfl
  | partReset a => exact execPartReset_same s a rfl rfl rfl rfl rfl rfl rfl rfl rfl rfl rfl rfl rfl rfl rfl rfl
  | partResetFinish a => exact execPartResetFinish_same s a rfl rfl rfl
  | inputApplied => exact execInputApplied_same s rfl
  | standbyEntry a b =>
     exact execStandbyEntry_same s a b rfl rfl rfl rfl rfl rfl rfl rfl rfl rfl rfl rfl rfl rfl rfl rfl rfl rfl rfl rfl
      rfl rfl rfl rfl rfl rfl
  | inputPowerSample a b =>
     exact execInputPowerSample_same s a b rfl rfl rfl rfl rfl rfl rfl rfl rfl rfl rfl rfl rfl rfl rfl rfl rfl rfl rfl
      rfl rfl rfl rfl rfl rfl rfl
  | flushEndDurable =>
     exact execFlushEndDurable_same s rfl rfl rfl rfl rfl rfl rfl rfl rfl rfl rfl rfl rfl rfl rfl rfl rfl rfl rfl rfl
      rfl rfl rfl rfl rfl rfl
  | safeInputStable =>
     exact execSafeInputStable_same s rfl rfl rfl rfl rfl rfl rfl rfl rfl rfl rfl rfl rfl rfl rfl rfl rfl rfl rfl rfl
      rfl rfl rfl rfl rfl rfl
  | bankDischarged => exact execBankDischarged_same s rfl rfl rfl
  | modResetLow a =>
     exact execModResetLow_same s a rfl rfl rfl rfl rfl rfl rfl rfl rfl rfl rfl rfl rfl rfl rfl rfl rfl rfl rfl rfl
      rfl rfl rfl rfl rfl rfl
  | modResetRelease =>
     exact execModResetRelease_same s rfl rfl rfl rfl rfl rfl rfl rfl rfl rfl rfl rfl rfl rfl rfl rfl rfl rfl rfl rfl
      rfl rfl rfl rfl rfl rfl
  | hardwareTrip =>
     exact execHardwareTrip_same s rfl rfl rfl rfl rfl rfl rfl rfl rfl rfl rfl rfl rfl rfl rfl rfl rfl rfl rfl rfl rfl
      rfl rfl rfl rfl rfl
  | dramSensorReading a b c =>
     exact execDramSensorReading_same s a b c rfl rfl rfl rfl rfl rfl rfl rfl rfl rfl rfl rfl rfl rfl rfl rfl rfl rfl
      rfl rfl rfl rfl rfl rfl rfl rfl
  | junctionSensorReading a b c =>
     exact execJunctionSensorReading_same s a b c rfl rfl rfl rfl rfl rfl rfl rfl rfl rfl rfl rfl rfl rfl rfl rfl rfl
      rfl rfl rfl rfl rfl rfl rfl rfl rfl
  | coolantSensorReading a b c =>
     exact execCoolantSensorReading_same s a b c rfl rfl rfl rfl rfl rfl rfl rfl rfl rfl rfl rfl rfl rfl rfl rfl rfl
      rfl rfl rfl rfl rfl rfl rfl rfl rfl
  | coolDemandUpdate => exact execCoolDemandUpdate_same s rfl rfl
  | powerComparison a => exact execPowerComparison_same s a rfl rfl rfl rfl rfl rfl rfl rfl rfl rfl
  | wakeRampDone => exact execWakeRampDone_same s rfl
  | tileGroupUsable a => exact execTileGroupUsable_same s a rfl rfl
  | bankEstimate a b => exact execBankEstimate_same s a b rfl rfl rfl rfl rfl rfl rfl rfl
  | bankChargeTimeout => exact execBankChargeTimeout_same s rfl rfl rfl rfl rfl rfl rfl rfl
  | bankHealthTestTimer => exact execBankHealthTestTimer_same s rfl
  | bankHealthTestDone a b => exact execBankHealthTestDone_same s a b rfl rfl rfl rfl rfl rfl rfl rfl
  | bankTest a => exact execBankTest_same s a rfl
  | flushClear a b =>
     exact execFlushClear_same s a b rfl rfl rfl rfl rfl rfl rfl rfl rfl rfl rfl rfl rfl rfl rfl rfl rfl rfl rfl rfl
      rfl rfl rfl rfl rfl rfl
  | pwrCap a => exact execPwrCap_same s a rfl rfl rfl rfl rfl rfl rfl
  | slew a => exact execSlew_same s a rfl rfl
  | lock a b => exact execLock_same s a b rfl rfl
  | hostPortReset =>
     exact execHostPortReset_same s rfl rfl rfl rfl rfl rfl rfl rfl rfl rfl rfl rfl rfl rfl rfl rfl rfl
  | linkRecovery a b => exact execLinkRecovery_same s a b rfl rfl
  | hostLinkL0 a b c =>
     exact execHostLinkL0_same s a b c rfl rfl rfl rfl rfl rfl rfl rfl rfl rfl rfl rfl rfl rfl rfl rfl
  | goResponse a => exact execGoResponse_same s a rfl rfl rfl rfl rfl rfl rfl rfl rfl rfl
  | cxlMemRead a => exact execCxlMemRead_same s a rfl rfl rfl
  | cxlMemWrite a b c => exact execCxlMemWrite_same s a b c rfl rfl rfl rfl rfl rfl rfl rfl rfl
  | bisnpResponse a =>
     exact execBisnpResponse_same s a rfl rfl rfl rfl rfl rfl rfl rfl rfl rfl rfl rfl rfl rfl rfl rfl rfl
  | msixUnmask a => exact execMsixUnmask_same s a rfl rfl rfl rfl rfl rfl
  | barBadAccess a => exact execBarBadAccess_same s a rfl rfl
  | portEnable a => exact execPortEnable_same s a rfl rfl rfl rfl rfl rfl rfl rfl rfl rfl rfl rfl rfl rfl rfl rfl rfl
  | portDisable a => exact execPortDisable_same s a rfl rfl rfl rfl rfl rfl rfl rfl
  | portLinkUp a => exact execPortLinkUp_same s a rfl
  | linkDown a => exact execLinkDown_same s a rfl rfl rfl rfl rfl rfl rfl
  | qpConnect => exact execQpConnect_same s rfl
  | qpReset => exact execQpReset_same s rfl rfl rfl rfl rfl rfl rfl rfl rfl rfl rfl rfl rfl rfl rfl rfl
  | frameReceive a b =>
     exact execFrameReceive_same s a b rfl rfl rfl rfl rfl rfl rfl rfl rfl rfl rfl rfl rfl rfl rfl rfl
  | rdmaWriteReceive a b c d =>
     exact execRdmaWriteReceive_same s a b c d rfl rfl rfl rfl rfl rfl rfl rfl rfl rfl rfl rfl rfl rfl rfl rfl
  | rdmaReadRequestReceive a b c d =>
     exact execRdmaReadRequestReceive_same s a b c d rfl rfl rfl rfl rfl rfl rfl rfl rfl rfl rfl rfl rfl rfl rfl rfl
  | rdmaReadResponseReceive a b c =>
     exact execRdmaReadResponseReceive_same s a b c rfl rfl rfl rfl rfl rfl rfl rfl rfl rfl
  | sendReceive a b =>
     exact execSendReceive_same s a b rfl rfl rfl rfl rfl rfl rfl rfl rfl rfl rfl rfl rfl rfl rfl rfl
  | ackReceive a b => exact execAckReceive_same s a b rfl rfl rfl rfl rfl rfl rfl rfl rfl rfl
  | nakReceive a b c =>
     exact execNakReceive_same s a b c rfl rfl rfl rfl rfl rfl rfl rfl rfl rfl rfl rfl rfl rfl rfl rfl rfl
  | cnpReceive a => exact execCnpReceive_same s a rfl rfl
  | ackTimeout a => exact execAckTimeout_same s a rfl rfl rfl rfl rfl rfl rfl rfl rfl rfl rfl rfl rfl rfl rfl rfl
  | rnrRetryTimer a => exact execRnrRetryTimer_same s a rfl rfl
  | ccPeriod a => exact execCcPeriod_same s a rfl
  | packetSendTurn a =>
     exact execPacketSendTurn_same s a rfl rfl rfl rfl rfl rfl rfl rfl rfl rfl rfl rfl rfl rfl rfl rfl
  | coalesceTimerExpiry a => exact execCoalesceTimerExpiry_same s a rfl rfl rfl rfl rfl rfl
  | evtAck a => exact execEvtAck_same s a rfl rfl rfl rfl rfl rfl
  | trigger a => exact execTrigger_same s a rfl
  | timePairComplete => exact execTimePairComplete_same s rfl
  | cntSel a => exact execCntSel_same s a rfl
  | cntLo => exact execCntLo_same s rfl rfl rfl
  | lowWordRead a => exact execLowWordRead_same s a rfl rfl rfl rfl rfl rfl
  | rcRead a => exact execRcRead_same s a rfl rfl rfl rfl rfl rfl
  | registerWrite a b =>
     exact execRegisterWrite_same s a b rfl rfl rfl rfl rfl rfl rfl rfl rfl rfl rfl rfl rfl rfl rfl rfl rfl rfl rfl
      rfl rfl rfl rfl rfl rfl rfl rfl
  | getInfo => exact execGetInfo_same s rfl
  | getCert => exact execGetCert_same s rfl
  | getLog => exact execGetLog_same s rfl
  | quote => exact execQuote_same s rfl rfl
  | fwStage a => exact execFwStage_same s a rfl
  | fwCommit => exact execFwCommit_same s rfl
  | fwAbandon => exact execFwAbandon_same s rfl
  | packInstall a => exact execPackInstall_same s a rfl
  | dbgEnter => exact execDbgEnter_same s rfl rfl rfl
  | dbgLeave => exact execDbgLeave_same s rfl rfl rfl
  | dbgRun => exact execDbgRun_same s rfl rfl rfl
  | dbgHalt => exact execDbgHalt_same s rfl rfl rfl
  | dbgStreamKeySet a => exact execDbgStreamKeySet_same s a rfl rfl
  | dbgInterleaveKeySet a => exact execDbgInterleaveKeySet_same s a rfl rfl
  | dbgPeekRead => exact execDbgPeekRead_same s rfl
  | dbgPeekWrite => exact execDbgPeekWrite_same s rfl
  | peekCopyDone => exact execPeekCopyDone_same s rfl rfl rfl rfl rfl rfl rfl rfl rfl rfl
  | setEndpointId a => exact execSetEndpointId_same s a rfl rfl
  | getEndpointId => exact execGetEndpointId_same s rfl
  | getEndpointUuid => exact execGetEndpointUuid_same s rfl
  | getMctpVersionSupport => exact execGetMctpVersionSupport_same s rfl
  | getMessageTypeSupport => exact execGetMessageTypeSupport_same s rfl
  | getTid => exact execGetTid_same s rfl
  | setTid a => exact execSetTid_same s a rfl rfl
  | getPldmVersion a => exact execGetPldmVersion_same s a rfl
  | getPldmTypes => exact execGetPldmTypes_same s rfl
  | getPldmCommands a => exact execGetPldmCommands_same s a rfl
  | getPdrRepositoryInfo => exact execGetPdrRepositoryInfo_same s rfl
  | getPdr a => exact execGetPdr_same s a rfl
  | getSensorReading a => exact execGetSensorReading_same s a rfl
  | getStateSensorReadings a => exact execGetStateSensorReadings_same s a rfl
  | setNumericEffecterValue a b => exact execSetNumericEffecterValue_same s a b rfl rfl rfl rfl rfl rfl rfl rfl
  | getNumericEffecterValue a => exact execGetNumericEffecterValue_same s a rfl
  | setEventReceiver a => exact execSetEventReceiver_same s a rfl rfl
  | pollForPlatformEventMessage => exact execPollForPlatformEventMessage_same s rfl rfl
  | reamLoadCopyDone => exact execReamLoadCopyDone_same s rfl rfl rfl rfl rfl rfl rfl rfl rfl rfl rfl rfl rfl rfl rfl
  | vaultBlockErase a => exact execVaultBlockErase_same s a rfl rfl rfl rfl rfl rfl rfl rfl rfl rfl rfl rfl
  | perstNRelease => exact execPerstNRelease_same s rfl rfl
  | mailboxCommandDone => exact execMailboxCommandDone_same s rfl rfl rfl

/-- A step answers a next state and keeps the same; it takes the front command off the queue, and a tick leaves the queue
as it is. -/
theorem step_keeps (s : State) : ∃ t, step s = .next t ∧ Keeps { s with pending := s.pending.tail } t := by
  unfold step
  split
  · next h =>
    have hs : { s with pending := s.pending.tail } = s := by rw [h, List.tail_nil, ← h]
    exact ⟨s.tick, rfl, by rw [hs]; exact State.tick_keeps (.refl s)⟩
  · next c cs h => simpa [h] using exec_keeps c { s with pending := cs }

/-- The rest of a queue of well-formed commands is one. -/
theorem queueWf_of_pending_tail {s t : State} (h : s.queueWf) (ht : t.pending = s.pending.tail) : t.queueWf := by
  intro c hc
  rw [ht] at hc
  exact h c (List.mem_of_mem_tail hc)

/-- Settles O56: every step answers, and `step_keeps` says what it keeps. -/
theorem stepInvariant : Obligations.StepInvariant := by
  refine ⟨fun s => ?_, fun s t hmem hq hst => ?_⟩
  · obtain ⟨t, ht, _⟩ := step_keeps s
    exact ⟨t, ht⟩
  · obtain ⟨u, hu, k⟩ := step_keeps s
    obtain rfl : u = t := by simpa [hu] using hst
    exact ⟨k.mem hmem, queueWf_of_pending_tail hq k.pending, k.pending, k.fuse⟩

end Sys2Proof.Machine

/-! ## Management: MCTP and PLDM discovery (R9, R368, R369) -/

namespace Sys2Proof.Machine

/-- While the endpoint is powered, a request runs, and its completion code and value are the answer. -/
theorem State.answer_on {s : State} (h : s.pwr.st ≠ 0) (go : State → State × Nat × Bytes) :
    s.answer go = { (go s).1 with bus := { (go s).1.bus with resp := natLe 1 (go s).2.1 ++ (go s).2.2 } } := by
  simp [State.answer, h]

/-- A request that only reads answers its value with success and leaves the interface's state alone. -/
theorem State.tell_on {s : State} (h : s.pwr.st ≠ 0) (b : Bytes) :
    (s.tell b).bus.resp = natLe 1 0 ++ b ∧ (s.tell b).mgmt = s.mgmt := by
  simp [State.tell, State.answer_on h]

/-- Settles O52: each request is one `State.answer`. -/
theorem mctpAndDiscovery : Obligations.MctpAndDiscovery := by
  refine ⟨fun s n h => ⟨_, rfl, ?_⟩, fun s h => ⟨_, rfl, State.tell_on h _⟩, fun s h => ⟨_, rfl, (State.tell_on h _).1⟩,
    fun s h => ⟨_, rfl, State.tell_on h _⟩, fun s h => ⟨_, rfl, (State.tell_on h _).1⟩, fun s n h => ⟨_, rfl, ?_⟩,
    fun s h => ⟨_, rfl, (State.tell_on h _).1⟩, fun s n v h hv => ⟨_, rfl, ?_⟩, fun s h => ⟨_, rfl, (State.tell_on h _).1⟩,
    fun s n h hn => ⟨_, rfl, ?_⟩, fun s h => ⟨_, rfl, (State.tell_on h _).1⟩, fun s k x h hk hx => ⟨_, rfl, ?_⟩⟩
  case refine_1 => simp [State.answer_on h]
  case refine_2 => simp [State.answer_on h]
  case refine_3 => simp [State.answer_on h, hv, tellOpt]
  case refine_4 => simp only [State.answer_on h, if_pos hn]
  case refine_5 => simp [State.answer_on h, hk, hx]

end Sys2Proof.Machine

/-! ## LOCK bits (R7, R376): what stores and writes do to them -/

namespace Sys2Proof.Machine

/-- LOCK is bit 0 of its register. -/
theorem State.locked_eq_getLsbD (s : State) (a : Nat) : s.locked a = (s.regW a).getLsbD 0 := by
  simp only [State.locked, State.regF, bitsOf, BitVec.getLsbD, Nat.testBit, Nat.shiftRight_zero]
  rw [Nat.one_and_eq_mod_two]
  rcases Nat.mod_two_eq_zero_or_one (s.regW a).toNat with h | h <;> simp [h]

/-- LOCK depends on the stored setup words alone. -/
theorem State.locked_congr {s t : State} (h : t.regs = s.regs) (a : Nat) : t.locked a = s.locked a := by
  simp [State.locked, State.regF, State.regW, h]

/-- A store whose mask has bit 0 takes LOCK from the value. -/
theorem State.store_locked (s : State) (a : Nat) {mask : Word} (v : Word) (h : mask.getLsbD 0 = true) :
    (s.store a mask v).locked a = v.getLsbD 0 := by
  simp [State.locked_eq_getLsbD, BitVec.getLsbD_or, BitVec.getLsbD_and, BitVec.getLsbD_not, h, -BitVec.getLsbD_eq_getElem]

/-- The mask of a LOCK register's store has bit 0. -/
theorem State.lockStore_locked (s : State) (a : Nat) (v : Word) : (s.lockStore a v).locked a = v.getLsbD 0 := by
  unfold State.lockStore
  split <;> exact s.store_locked a v (by decide)

/-- The setup words that a measurement leaves alone. -/
@[simp] theorem State.extend_regs (s : State) (i e : Nat) (info d : Bytes) : (s.extend i e info d).regs = s.regs :=
  regs_of (State.extend_same (.refl _ _) _ _ _ _ rfl)

/-- A write to a register that is locked, or holds no LOCK bit, does nothing. -/
theorem State.writeLock_of_locked {s : State} {a : Nat} (v : Word) (h : s.locked a = true) : s.writeLock a v = s := by
  simp [State.writeLock, h]

/-- A write to a register whose LOCK is 0 stores the setup word. -/
theorem State.writeLock_regs {s : State} {a : Nat} (v : Word) (ha : a ∈ lockRegs) (h : s.locked a = false) :
    (s.writeLock a v).regs = (s.lockStore a v).regs := by
  have hc : lockRegs.contains a = true := List.contains_iff_mem.mpr ha
  simp only [State.writeLock, hc, h, Bool.not_true, Bool.or_self, Bool.false_eq_true, if_false]
  split
  · exact State.extend_regs ..
  · rfl

/-- A written 1 sets LOCK, a written 0 leaves it. -/
theorem State.writeLock_locked (s : State) {a : Nat} (v : Word) (ha : a ∈ lockRegs) :
    (s.writeLock a v).locked a = (s.locked a || v.getLsbD 0) := by
  cases h : s.locked a with
  | true => rw [State.writeLock_of_locked v h, h, Bool.true_or]
  | false => rw [State.locked_congr (State.writeLock_regs v ha h), State.lockStore_locked, Bool.false_or]

end Sys2Proof.Machine

/-! ## PWR_CAP, SLEW, the wake governor and the hold-up bank (R359 to R364) -/

namespace Sys2Proof.Machine

/-! ### What the shared operations leave alone -/

@[simp] theorem State.causeAll_regs (s : State) (b : Nat) : (s.causeAll b).regs = s.regs :=
  regs_of (State.causeAll_same (.refl _ _) _ rfl rfl rfl rfl rfl rfl)

@[simp] theorem State.setBounds_regs (s : State) : s.setBounds.regs = s.regs :=
  regs_of (State.setBounds_same (.refl _ _) rfl)

@[simp] theorem State.raise_pwr (s : State) (i : Nat) : (s.raise i).pwr = s.pwr :=
  pwr_of (State.raise_same (.refl _ _) _ rfl rfl rfl rfl rfl rfl)

@[simp] theorem State.pldm_pwr (s : State) (sensor value : Nat) : (s.pldm sensor value).pwr = s.pwr :=
  pwr_of (State.pldm_same (.refl _ _) _ _ rfl)

/-- A stored word depends on the setup words alone. -/
theorem State.regW_congr {s t : State} (h : t.regs = s.regs) (a : Nat) : t.regW a = s.regW a := by
  simp [State.regW, h]

/-! ### The cap and the slew limit -/

/-- PWR_CAP stores the clamped cap, and tells the control cores where it lies below the ream's power. -/
theorem pwrCap_clamps {s : State} (x : Word) (h : s.pwrLocked = false) :
    let w := clamp 1200 2400 (bitsOf x.toNat 11 0)
    ∃ t, exec (.pwrCap x) s = .next t ∧ t.regW 0xA0008 = BitVec.ofNat 32 w
      ∧ (s.ream.resident = true → w < hPower s.ream.hdr → t.hasCause cCapBelowReam) := by
  refine ⟨_, rfl, ?_⟩
  simp only [h, Bool.false_eq_true, if_false]
  split
  · next hc =>
    exact ⟨(State.regW_congr (State.causeAll_regs _ _) _).trans (State.setReg_regW ..),
      fun _ _ => State.causeAll_hasCause _ _⟩
  · next hc => exact ⟨State.setReg_regW .., fun hr hw => absurd (Bool.and_eq_true_iff.mpr ⟨hr, decide_eq_true hw⟩) hc⟩

/-- SLEW stores the clamped limit. -/
theorem slew_clamps {s : State} (x : Word) (h : s.pwrLocked = false) :
    ∃ t, exec (.slew x) s = .next t ∧ t.regW 0xA000C = BitVec.ofNat 32 (clamp 5 120 (bitsOf x.toNat 6 0)) := by
  refine ⟨_, rfl, ?_⟩
  rw [if_neg (by simp [h]), State.regW_congr (State.setBounds_regs _), State.setReg_regW]

/-! ### The wake governor -/

/-- A GATED tile serves again: what TILE_GROUP_USABLE does to each tile of its group. -/
def State.ungate (s : State) (t : Nat) : State :=
  if (s.tile t).st = 2 then s.modTile t fun x => { x with st := 1 } else s

theorem State.ungate_pwr (s : State) (t : Nat) : (s.ungate t).pwr = s.pwr := by
  unfold State.ungate
  split
  · exact State.modTile_pwr ..
  · rfl

theorem State.each_ungate_pwr (l : List Nat) (s : State) : (s.each l State.ungate).pwr = s.pwr :=
  State.each_inv (·.pwr) l _ State.ungate_pwr s

theorem State.ungate_tile_ne (s : State) {t n : Nat} (h : n ≠ t) : (s.ungate t).tile n = s.tile n := by
  unfold State.ungate
  split
  · exact State.modTile_tile_ne _ _ h
  · rfl

theorem State.ungate_st (s : State) (t : Nat) (h : (s.tile t).st = 1 ∨ (s.tile t).st = 2) :
    ((s.ungate t).tile t).st = 1 := by
  unfold State.ungate
  split
  · simp
  · next h2 => exact h.resolve_right h2

/-- A pass over tiles leaves each GATED one of them serving, and each serving one as it is. -/
theorem State.each_ungate_st {n : Nat} (l : List Nat) {s : State}
    (h : (s.tile n).st = 1 ∨ (s.tile n).st = 2 ∧ n ∈ l) : ((s.each l State.ungate).tile n).st = 1 := by
  induction l generalizing s with
  | nil => simpa [State.each] using h
  | cons m l ih =>
    refine ih (s := s.ungate m) ?_
    by_cases hn : n = m
    · subst hn
      exact .inl (s.ungate_st n (h.imp_right And.left))
    · rw [State.ungate_tile_ne s hn]
      exact h.imp_right fun ⟨h2, hl⟩ => ⟨h2, (List.mem_cons.mp hl).resolve_left hn⟩

/-- TILE_GROUP_USABLE: the group is awake at 800 MHz, and its GATED tiles serve. -/
theorem tileGroupUsable_wakes {s : State} {g n : Nat} (hr : s.pwr.ramped.contains g = true) (hn : n ∈ s.groupTiles g)
    (ht : (s.tile n).st = 2) :
    ∃ t, exec (.tileGroupUsable g) s = .next t ∧ t.pwr.awake.contains g = true ∧ t.mhz g = 800 ∧ (t.tile n).st = 1 := by
  refine ⟨_, rfl, ?_⟩
  rw [if_neg (by rw [hr]; decide)]
  refine ⟨(congrArg (·.awake.contains g) (State.each_ungate_pwr _ _)).trans ?_,
    (congrArg (fun p : Pwr => FMap.get p.tclk g 800) (State.each_ungate_pwr _ _)).trans (FMap.get_set_self ..),
    State.each_ungate_st _ (.inr ⟨ht, hn⟩)⟩
  dsimp only
  split
  · assumption
  · simp

/-! ### The hold-up bank -/

/-- The bank changes to `b`, whose FLUSH_FORCE is 0 while it is FAILED. -/
theorem State.setBank_bank (s : State) (b : HoldUp) :
    (s.setBank b).pwr.bank = { b with force := if b.st = 3 then 0 else b.force } := by
  unfold State.setBank
  dsimp only
  split
  · rfl
  · rw [State.raise_pwr, State.pldm_pwr]

/-- In ON a health test is under way after `startTest`, begun by it or before. -/
theorem State.startTest_test {s : State} (h : s.pwr.st = 3) : s.startTest.pwr.bank.test = true := by
  unfold State.startTest
  cases ht : s.pwr.bank.test <;> simp [h, ht]

/-- BANK_ESTIMATE of a powered module whose capacitance a test has found, no test being under way. -/
theorem bankEstimate_bank {s : State} (v c : Nat) (hst : s.pwr.st ≠ 0) (hcap : s.pwr.bank.cap ≠ 0)
    (htest : s.pwr.bank.test = false) :
    let e := bankEnergy s.pwr.bank.cap v
    ∃ t, exec (.bankEstimate v c) s = .next t ∧ t.pwr.bank.volts = v ∧ t.pwr.bank.joule = e / 10 ^ 9
      ∧ t.pwr.bank.failed = (s.pwr.bank.failed || decide (70 < c))
      ∧ t.pwr.bank.st = t.pwr.bank.next e
      ∧ t.pwr.bank.force = if t.pwr.bank.st = 3 then 0 else bankGib e := by
  refine ⟨_, rfl, ?_⟩
  simp only [hst, hcap, htest, if_false, Bool.false_eq_true, State.setBank_bank]
  exact ⟨trivial, trivial, trivial, rfl, trivial⟩

/-- BANK_HEALTH_TEST_DONE stores what the test found, and a bank out of bounds is FAILED (R364). -/
theorem bankHealthTestDone_bank {s : State} (c r : Nat) (h : s.pwr.bank.test = true) :
    ∃ t, exec (.bankHealthTestDone c r) s = .next t ∧ t.pwr.bank.test = false ∧ t.pwr.bank.cap = c
      ∧ t.pwr.bank.esr = r ∧ (c < 960 ∨ 60 < r → t.pwr.bank.st = 3 ∧ t.pwr.bank.failed = true) := by
  refine ⟨_, rfl, ?_⟩
  simp only [h, Bool.not_true, Bool.false_eq_true, if_false, State.setBank_bank]
  refine ⟨trivial, trivial, trivial, fun hb => ?_⟩
  have hbad : (decide (c < 960) || decide (60 < r)) = true := by simpa using hb
  simp [hbad]

/-- Settles O41: the lemmas above, command by command. -/
theorem powerControl : Obligations.PowerControl := by
  refine ⟨fun s x h => pwrCap_clamps x h, fun s x h => ⟨_, rfl, if_pos h⟩, fun s x h => slew_clamps x h,
    fun s a x ha _ hx => ⟨_, rfl, ?lock⟩, fun s a x h => ⟨_, rfl, State.writeLock_of_locked x h⟩,
    fun s g q h => ⟨_, rfl, ?ramp⟩, fun s g n hr hn ht => tileGroupUsable_wakes hr hn ht,
    fun s v c hst hcap ht => bankEstimate_bank v c hst hcap ht, fun s hst hv => ⟨_, rfl, ?charge⟩,
    fun s hst hr => ⟨_, rfl, ?timer⟩, fun s x hst hx => ⟨_, rfl, ?test⟩, fun s c r h => bankHealthTestDone_bank c r h⟩
  case lock => rw [State.writeLock_locked s x (List.contains_iff_mem.mp ha), hx, Bool.or_true]
  case ramp => rw [h]; exact ⟨rfl, rfl, rfl⟩
  case charge => simp [State.powered, hst, hv, State.setBank_bank]
  case timer => rw [if_pos hr]; exact State.startTest_test hst
  case test => rw [if_pos hx]; exact State.startTest_test hst

end Sys2Proof.Machine

/-! ## The layout of the setup space (R371, R372) -/

namespace Sys2Proof.Machine

/-- The offset is in this block of a layout. -/
def inBlock (e : Nat × Nat × Nat × List (Nat × Nat)) (a : Nat) : Bool :=
  decide (e.1 ≤ a) && decide (a < e.1 + e.2.1 * e.2.2.1)
    && e.2.2.2.any fun r => decide (r.1 ≤ (a - e.1) % e.2.2.1) && decide ((a - e.1) % e.2.2.1 ≤ r.2)

section
variable {b n size a : Nat} {os : List (Nat × Nat)}

@[simp] theorem inBlocks_nil : inBlocks [] a = false := rfl

@[simp] theorem inBlocks_cons (e bs) : inBlocks (e :: bs) a = (inBlock e a || inBlocks bs a) := rfl

theorem inBlock_of_lt (h : a < b) : inBlock (b, n, size, os) a = false := by
  simp [inBlock, Nat.not_le.mpr h]

theorem inBlock_of_le (h : b + n * size ≤ a) : inBlock (b, n, size, os) a = false := by
  simp [inBlock, Nat.not_lt.mpr h]

/-- An offset between a block's bounds is outside it where it is outside each of its ranges. -/
theorem inBlock_eq_false : inBlock (b, n, size, os) a = false ↔
    (b ≤ a → a < b + n * size → ∀ o ∈ os, o.1 ≤ (a - b) % size → o.2 < (a - b) % size) := by
  simp [inBlock]

end

/-! ### Reserved offsets read 0 -/

section
variable {a : Nat} (s : State) (h : mappedReg a = false) (h4 : a % 4 = 0)
include h h4

theorem State.readGlobal_of_reserved (hi : a < 0x1000) : s.readGlobal a = 0 := by
  simp (disch := omega) [mappedReg, inBlock_of_lt] at h
  simp [inBlock_eq_false] at h
  simp only [State.readGlobal, Bool.or_eq_true, Bool.and_eq_true, decide_eq_true_eq]
  repeat refine (if_neg (by omega)).trans ?_
  rfl

theorem State.readPart_of_reserved (lo : 0x10000 ≤ a) (hi : a < 0x11000) :
    s.readPart ((a - 0x10000) / 0x100) (a % 0x100) = 0 := by
  simp (disch := omega) [mappedReg, inBlock_of_lt, inBlock_of_le] at h
  simp [inBlock_eq_false] at h
  simp only [State.readPart, Bool.or_eq_true, Bool.and_eq_true, decide_eq_true_eq]
  repeat refine (if_neg (by omega)).trans ?_
  rfl

theorem State.readRing_of_reserved (lo : 0x20000 ≤ a) (hi : a < 0x60000) :
    s.readRing ((a - 0x20000) / 0x40) (a % 0x40) = 0 := by
  simp (disch := omega) [mappedReg, inBlock_of_lt, inBlock_of_le] at h
  simp [inBlock_eq_false] at h
  simp only [State.readRing, ringOffs, List.contains_cons, List.contains_nil, Bool.or_eq_true, beq_iff_eq,
    Bool.false_eq_true, or_false]
  repeat refine (if_neg (by omega)).trans ?_
  rfl

theorem State.readSegEntry_of_reserved (p g : Nat) (lo : 0x60000 ≤ a) (hi : a < 0x62000) : s.readSegEntry p g (a % 0x40) = 0 := by
  simp (disch := omega) [mappedReg, inBlock_of_lt, inBlock_of_le] at h
  simp [inBlock_eq_false] at h
  unfold State.readSegEntry
  split
  · rfl
  simp only [Bool.or_eq_true, decide_eq_true_eq]
  repeat refine (if_neg (by omega)).trans ?_
  rfl

theorem State.readSegBlock_of_reserved (lo : 0x60000 ≤ a) (hi : a < 0x70000) : s.readSegBlock a = 0 := by
  by_cases hs : a < 0x62000
  · exact (if_pos hs).trans (s.readSegEntry_of_reserved h h4 _ _ lo hs)
  simp (disch := omega) [mappedReg, inBlock_of_lt, inBlock_of_le] at h
  simp [inBlock_eq_false] at h
  simp only [State.readSegBlock, Bool.and_eq_true, decide_eq_true_eq]
  repeat refine (if_neg (by omega)).trans ?_
  rfl

theorem State.readEvt_of_reserved (lo : 0x70000 ≤ a) (hi : a < 0x80000) : s.readEvt a = 0 := by
  simp (disch := omega) [mappedReg, inBlock_of_lt, inBlock_of_le] at h
  simp [inBlock_eq_false] at h
  simp only [State.readEvt, Bool.and_eq_true, decide_eq_true_eq]
  repeat refine (if_neg (by omega)).trans ?_
  split
  · repeat refine (if_neg (by omega)).trans ?_
    rfl
  · rfl

theorem State.readQp_of_reserved (lo : 0x81040 ≤ a) (hi : a < 0x81080) : s.readQp (a - 0x81000) = 0 := by
  simp (disch := omega) [mappedReg, inBlock_of_lt, inBlock_of_le] at h
  simp [inBlock_eq_false] at h
  simp only [State.readQp, Bool.and_eq_true, decide_eq_true_eq]
  repeat refine (if_neg (by omega)).trans ?_
  rfl

theorem State.readNet_of_reserved (lo : 0x80000 ≤ a) (hi : a < 0x90000) : s.readNet a = 0 := by
  have hq := s.readQp_of_reserved h h4
  simp (disch := omega) [mappedReg, inBlock_of_lt, inBlock_of_le] at h
  simp [inBlock_eq_false] at h
  simp only [State.readNet, Bool.or_eq_true, Bool.and_eq_true, decide_eq_true_eq]
  repeat refine (if_neg (by omega)).trans ?_
  split
  · next hc => exact hq hc.1 hc.2
  · exact if_neg (by omega)

theorem State.readMem_of_reserved (lo : 0x90000 ≤ a) (hi : a < 0xA0000) : s.readMem a = 0 := by
  simp (disch := omega) [mappedReg, inBlock_of_lt, inBlock_of_le] at h
  simp [inBlock_eq_false] at h
  simp only [State.readMem, Bool.or_eq_true, Bool.and_eq_true, decide_eq_true_eq]
  repeat refine (if_neg (by omega)).trans ?_
  rfl

theorem State.readPwr_of_reserved (lo : 0xA0000 ≤ a) (hi : a < 0xB0000) : s.readPwr a = 0 := by
  simp (disch := omega) [mappedReg, inBlock_of_lt, inBlock_of_le] at h
  simp [inBlock_eq_false] at h
  simp only [State.readPwr, Bool.or_eq_true, Bool.and_eq_true, decide_eq_true_eq]
  repeat refine (if_neg (by omega)).trans ?_
  rfl

theorem State.readSec_of_reserved (lo : 0xB0000 ≤ a) (hi : a < 0xC0000) : s.readSec a = 0 := by
  simp (disch := omega) [mappedReg, inBlock_of_lt, inBlock_of_le] at h
  simp [inBlock_eq_false] at h
  simp only [State.readSec, Bool.or_eq_true, Bool.and_eq_true, decide_eq_true_eq]
  repeat refine (if_neg (by omega)).trans ?_
  rfl

theorem State.readRel_of_reserved (lo : 0xC0000 ≤ a) (hi : a < 0xD0000) : s.readRel a = 0 := by
  simp (disch := omega) [mappedReg, inBlock_of_lt, inBlock_of_le] at h
  simp [inBlock_eq_false] at h
  simp only [State.readRel, Bool.or_eq_true, Bool.and_eq_true, decide_eq_true_eq]
  repeat refine (if_neg (by omega)).trans ?_
  rfl

theorem State.readTel_of_reserved (lo : 0xD0000 ≤ a) (hi : a < 0xE0000) : s.readTel a = 0 := by
  simp (disch := omega) [mappedReg, inBlock_of_lt, inBlock_of_le] at h
  simp [inBlock_eq_false] at h
  simp only [State.readTel, Bool.or_eq_true, Bool.and_eq_true, decide_eq_true_eq]
  repeat refine (if_neg (by omega)).trans ?_
  rfl

theorem State.readDbg_of_reserved (lo : 0xF0000 ≤ a) (hi : a < 0x100000) : s.readDbg a = 0 := by
  simp (disch := omega) [mappedReg, inBlock_of_le] at h
  simp [inBlock_eq_false] at h
  simp only [State.readDbg, Bool.or_eq_true, Bool.and_eq_true, decide_eq_true_eq]
  repeat refine (if_neg (by omega)).trans ?_
  rfl

end
end Sys2Proof.Machine

/-! ## Reads on the bus (R304, R371 to R374) -/

namespace Sys2Proof.Machine

/-- A reserved offset reads 0 (R372). -/
theorem State.regRead_of_reserved (s : State) {a : Nat} (h : mappedReg a = false) (h4 : a % 4 = 0) (ha : a < 0x100000) :
    s.regRead a = 0 := by
  refine congrArg (BitVec.ofNat 32) ?_
  refine ite_eq_iff'.mpr ⟨s.readGlobal_of_reserved h h4, fun _ => ?_⟩
  refine ite_eq_iff'.mpr ⟨fun _ => rfl, fun lo => ?_⟩
  refine ite_eq_iff'.mpr ⟨s.readPart_of_reserved h h4 (Nat.le_of_not_lt lo), fun _ => ?_⟩
  refine ite_eq_iff'.mpr ⟨fun _ => rfl, fun lo => ?_⟩
  refine ite_eq_iff'.mpr ⟨s.readRing_of_reserved h h4 (Nat.le_of_not_lt lo), fun lo => ?_⟩
  refine ite_eq_iff'.mpr ⟨s.readSegBlock_of_reserved h h4 (Nat.le_of_not_lt lo), fun lo => ?_⟩
  refine ite_eq_iff'.mpr ⟨s.readEvt_of_reserved h h4 (Nat.le_of_not_lt lo), fun lo => ?_⟩
  refine ite_eq_iff'.mpr ⟨s.readNet_of_reserved h h4 (Nat.le_of_not_lt lo), fun lo => ?_⟩
  refine ite_eq_iff'.mpr ⟨s.readMem_of_reserved h h4 (Nat.le_of_not_lt lo), fun lo => ?_⟩
  refine ite_eq_iff'.mpr ⟨s.readPwr_of_reserved h h4 (Nat.le_of_not_lt lo), fun lo => ?_⟩
  refine ite_eq_iff'.mpr ⟨s.readSec_of_reserved h h4 (Nat.le_of_not_lt lo), fun lo => ?_⟩
  refine ite_eq_iff'.mpr ⟨s.readRel_of_reserved h h4 (Nat.le_of_not_lt lo), fun lo => ?_⟩
  refine ite_eq_iff'.mpr ⟨s.readTel_of_reserved h h4 (Nat.le_of_not_lt lo), fun lo => ?_⟩
  refine ite_eq_iff'.mpr ⟨fun _ => rfl, fun lo => ?_⟩
  exact ite_eq_iff'.mpr ⟨s.readDbg_of_reserved h h4 (Nat.le_of_not_lt lo), fun hn => absurd ha hn⟩

/-! ### Low words and high words of 64-bit values -/

/-- Where the low words of 64-bit values lie: `lowWord` as a proposition. -/
theorem lowWord_iff {a : Nat} : lowWord a = true ↔
    (a = 0x110 ∨ a = 0x90000 ∨ a = 0xC0024 ∨ a = 0xC0908 ∨ a = 0xC0910 ∨ a = 0xC0918 ∨ a = 0xDF008 ∨ a = 0xDF010)
      ∨ (0x10000 ≤ a ∧ a < 0x11000 ∧ a % 0x100 = 0x18)
      ∨ (0x60000 ≤ a ∧ a < 0x62000 ∧ (a % 0x40 = 0 ∨ a % 0x40 = 8))
      ∨ (0xC0080 ≤ a ∧ a < 0xC02C0 ∧ a % 8 = 0)
      ∨ (0xC0500 ≤ a ∧ a < 0xC0900 ∧ a % 16 = 4)
      ∨ (0xDF100 ≤ a ∧ a < 0xDF240 ∧ a % 8 = 0) := by
  simp [lowWord, or_assoc, and_assoc]

/-- A low word is an aligned word below the word of its high half, which is no low word; neither is a telemetry counter. -/
theorem lowWord_facts {a : Nat} (h : lowWord a = true) :
    a % 4 = 0 ∧ a ≠ 0xD0008 ∧ a ≠ 0xD000C ∧ a ≠ 0xD0004 ∧ lowWord (a + 4) = false := by
  have hn : ¬ lowWord (a + 4) = true := by rw [lowWord_iff] at *; omega
  rw [lowWord_iff] at h
  refine ⟨by omega, by omega, by omega, by omega, by simpa using hn⟩

/-- A reserved offset is neither half of a 64-bit value. -/
theorem lowWord_of_reserved {a : Nat} (h : mappedReg a = false) : lowWord a = false := by
  by_contra hl
  rw [Bool.not_eq_false, lowWord_iff] at hl
  rcases hl with hl | hl | hl | hl | hl | hl
  · rcases hl with rfl | rfl | rfl | rfl | rfl | rfl | rfl | rfl <;> exact absurd h (by decide)
  all_goals
    simp (disch := omega) [mappedReg, inBlock_of_lt, inBlock_of_le] at h
    simp [inBlock_eq_false] at h
    omega

theorem lowWord_sub_of_reserved {a : Nat} (h : mappedReg a = false) (h4 : 4 ≤ a) : lowWord (a - 4) = false := by
  by_contra hl
  rw [Bool.not_eq_false, lowWord_iff] at hl
  obtain ⟨b, rfl⟩ := Nat.exists_eq_add_of_le' h4
  rw [Nat.add_sub_cancel] at hl
  rcases hl with hl | hl | hl | hl | hl | hl
  · rcases hl with rfl | rfl | rfl | rfl | rfl | rfl | rfl | rfl <;> exact absurd h (by decide)
  all_goals
    simp (disch := omega) [mappedReg, inBlock_of_lt, inBlock_of_le] at h
    simp [inBlock_eq_false] at h
    omega

/-! ### What a read does -/

/-- The clearing of an RC field after its read changes power, tables or tiers alone: the answer stands. -/
@[simp] theorem State.clearRead_bus (s : State) (a : Nat) : (s.clearRead a).bus = s.bus := by
  exact bus_of (State.clearRead_same (.refl _ _) _ rfl rfl rfl)

@[simp] theorem State.clearRead_tel (s : State) (a : Nat) : (s.clearRead a).tel = s.tel := by
  exact tel_of (State.clearRead_same (.refl _ _) _ rfl rfl rfl)

@[simp] theorem State.clearRead_ream (s : State) (a : Nat) : (s.clearRead a).ream = s.ream := by
  exact ream_of (State.clearRead_same (.refl _ _) _ rfl rfl rfl)

@[simp] theorem State.answerWord_rdata (s : State) (w : Word) : (s.answerWord w).bus.rdata = w := rfl
@[simp] theorem State.answerWord_tel (s : State) (w : Word) : (s.answerWord w).tel = s.tel := rfl

theorem State.read_of_aligned (s : State) {a : Nat} (h4 : a % 4 = 0) : s.read a = s.busRead a := if_pos h4

/-- The read of a low word answers it and latches the high word. -/
theorem State.read_lowWord (s : State) {a : Nat} (h : lowWord a = true) :
    s.read a = State.clearRead { s.answerWord (s.regRead a) with
      tel := { s.tel with hi := FMap.set s.tel.hi a (s.regRead (a + 4)) } } a := by
  obtain ⟨h4, h8, hC, -, -⟩ := lowWord_facts h
  rw [s.read_of_aligned h4, State.busRead, if_neg h8, if_neg hC, if_pos h]
  rfl

section
variable {s : State} {a : Nat} (h : lowWord a = true)
include h

/-- The read of a high word whose low word latched it answers the latched word and drops it. -/
theorem State.read_highWord_latched {w : Word} (hw : FMap.find s.tel.hi a = some w) :
    s.read (a + 4) = { s.answerWord w with tel := { s.tel with hi := FMap.del s.tel.hi a } } := by
  obtain ⟨h4, h8, -, hD, hn⟩ := lowWord_facts h
  rw [s.read_of_aligned (by omega), State.busRead, if_neg (by omega), if_neg (by omega), if_neg (by simp [hn])]
  simp only [Nat.le_add_left, decide_true, Nat.add_sub_cancel, h, Bool.and_self, if_true, hw]

/-- Without one it answers the live word. -/
theorem State.read_highWord_live (hw : FMap.find s.tel.hi a = none) :
    s.read (a + 4) = s.answerWord (s.regRead (a + 4)) := by
  obtain ⟨h4, h8, -, hD, hn⟩ := lowWord_facts h
  rw [s.read_of_aligned (by omega), State.busRead, if_neg (by omega), if_neg (by omega), if_neg (by simp [hn])]
  simp only [Nat.le_add_left, decide_true, Nat.add_sub_cancel, h, Bool.and_self, if_true, hw]

end

/-- The read of a reserved offset answers 0 and does nothing else. -/
theorem State.read_of_reserved (s : State) {a : Nat} (h : mappedReg a = false) (h4 : a % 4 = 0) (ha : a < 0x100000) :
    s.read a = s.answerWord 0 := by
  have hne (b : Nat) (hb : mappedReg b = true) : a ≠ b := by rintro rfl; rw [h] at hb; cases hb
  have hth : ¬ (0x90040 ≤ a ∧ a < 0x90064) := by
    intro hr
    simp (disch := omega) [mappedReg, inBlock_of_lt, inBlock_of_le] at h
    simp [inBlock_eq_false] at h
    omega
  have hhigh : (decide (4 ≤ a) && lowWord (a - 4)) = false := by
    by_cases h4 : 4 ≤ a
    · rw [lowWord_sub_of_reserved h h4, Bool.and_false]
    · simp [h4]
  rw [s.read_of_aligned h4, State.busRead, if_neg (hne _ (by decide)), if_neg (hne _ (by decide)),
    lowWord_of_reserved h, hhigh, s.regRead_of_reserved h h4 ha]
  simp [State.clearRead, hne 0xA0028 (by decide), hne 0xC0918 (by decide), hth]

end Sys2Proof.Machine

/-! ## Writes on the bus (R5, R6, R372) -/

namespace Sys2Proof.Machine

/-- Where a register with plain RW bits lies: `rwMask` by place. -/
def StoresAt (a : Nat) : Prop :=
  (0x10000 ≤ a ∧ a < 0x11000 ∧ (8 ≤ a % 0x100 ∧ a % 0x100 ≤ 0x14 ∨ 0x20 ≤ a % 0x100 ∧ a % 0x100 ≤ 0x3C))
    ∨ (0x20000 ≤ a ∧ a < 0x60000 ∧ (a % 0x40 ≤ 0x20 ∨ a % 0x40 = 0x38))
    ∨ (0x70000 ≤ a ∧ a < 0x72000 ∧ (a % 16 = 4 ∨ a % 16 = 8))
    ∨ (0x74000 ≤ a ∧ a < 0x74200 ∧ a % 32 ≤ 0x14 ∧ a % 32 ≠ 0x10)
    ∨ (0xB1000 ≤ a ∧ a < 0xB2000)
    ∨ (a = 0x80040 ∨ a = 0x80044 ∨ a = 0x80048 ∨ a = 0x81000 ∨ a = 0x82000 ∨ a = 0x90020 ∨ a = 0xB0008
      ∨ a = 0xC0030 ∨ a = 0xF0000 ∨ a = 0xF0004 ∨ a = 0xF0010 ∨ a = 0xF0100 ∨ a = 0xF0104 ∨ a = 0xF0108)

theorem ringMask_eq_zero {o : Nat} (h : ¬ (o ≤ 0x20 ∨ o = 0x38)) : ringMask o = 0#32 := by
  simp only [ringMask, ringOffs, List.contains_cons, List.contains_nil, Bool.or_eq_true, beq_iff_eq, Bool.false_eq_true,
    or_false]
  repeat refine (if_neg (by omega)).trans ?_
  rfl

theorem storesAt_of_rwMask_ne_zero {a : Nat} (h : rwMask a ≠ 0#32) : StoresAt a := by
  by_contra hs
  refine h ?_
  unfold StoresAt at hs
  simp only [rwMask, Bool.or_eq_true, Bool.and_eq_true, decide_eq_true_eq]
  by_cases hr : 0x20000 ≤ a ∧ a < 0x60000
  · repeat refine (if_neg (by omega)).trans ?_
    exact (if_pos hr).trans (ringMask_eq_zero (by omega))
  · repeat refine (if_neg (by omega)).trans ?_
    rfl

/-- A register with plain RW bits is one that a write may change. -/
theorem writableReg_of_storesAt {a : Nat} (h4 : a % 4 = 0) (h : StoresAt a) : writableReg a = true := by
  by_contra hw
  rw [Bool.not_eq_true] at hw
  rcases h with h | h | h | h | h | h
  case inr.inr.inr.inr.inr =>
    rcases h with rfl | rfl | rfl | rfl | rfl | rfl | rfl | rfl | rfl | rfl | rfl | rfl | rfl | rfl <;>
      exact absurd hw (by decide)
  all_goals
    simp (disch := omega) [writableReg, inBlock_of_lt, inBlock_of_le] at hw
    simp [inBlock_eq_false] at hw
    omega

/-! ### A register without writable fields -/

section
variable {a : Nat} (s : State) (v : Word) (h : writableReg a = false) (h4 : a % 4 = 0)
include h h4

theorem State.storeRw_of_readOnly : s.storeRw a v = s := by
  refine if_pos ?_
  by_contra hm
  rw [writableReg_of_storesAt h4 (storesAt_of_rwMask_ne_zero hm)] at h
  cases h

theorem State.writeEvt_of_readOnly (lo : 0x70000 ≤ a) (hi : a < 0x80000) : s.writeEvt a v = s := by
  have hs := s.storeRw_of_readOnly v h h4
  simp (disch := omega) [writableReg, inBlock_of_lt, inBlock_of_le] at h
  simp [inBlock_eq_false] at h
  simp only [State.writeEvt, Bool.and_eq_true, decide_eq_true_eq]
  repeat refine (if_neg (by omega)).trans ?_
  exact hs

theorem State.writeQp_of_readOnly (lo : 0x81040 ≤ a) (hi : a < 0x81080) : s.writeQp (a - 0x81000) v = s := by
  have hm : qpMask (a - 0x81000) = 0#32 := by
    simp (disch := omega) [writableReg, inBlock_of_lt, inBlock_of_le] at h
    simp [inBlock_eq_false] at h
    simp only [qpMask, Bool.or_eq_true, Bool.and_eq_true, decide_eq_true_eq]
    repeat refine (if_neg (by omega)).trans ?_
    rfl
  simp only [State.writeQp, hm, if_true]

theorem State.writeNet_of_readOnly (lo : 0x80000 ≤ a) (hi : a < 0x90000) : s.writeNet a v = s := by
  have hs := s.storeRw_of_readOnly v h h4
  have hq := s.writeQp_of_readOnly v h h4
  simp (disch := omega) [writableReg, inBlock_of_lt, inBlock_of_le] at h
  simp [inBlock_eq_false] at h
  simp only [State.writeNet, Bool.and_eq_true, decide_eq_true_eq]
  repeat refine (if_neg (by omega)).trans ?_
  refine ite_eq_iff'.mpr ⟨fun hc => hq hc.1 hc.2, fun _ => ?_⟩
  exact (if_neg (by omega)).trans hs

theorem State.writePwr_of_readOnly (lo : 0xA0000 ≤ a) (hi : a < 0xB0000) : s.writePwr a v = s := by
  simp (disch := omega) [writableReg, inBlock_of_lt, inBlock_of_le] at h
  simp [inBlock_eq_false] at h
  unfold State.writePwr
  repeat refine (if_neg (by omega)).trans ?_
  rfl

theorem State.writeSec_of_readOnly (lo : 0xB0000 ≤ a) (hi : a < 0xC0000) : s.writeSec a v = s := by
  have hs := s.storeRw_of_readOnly v h h4
  have hm : rwMask a = 0#32 := by
    by_contra hm
    rw [writableReg_of_storesAt h4 (storesAt_of_rwMask_ne_zero hm)] at h
    cases h
  simp (disch := omega) [writableReg, inBlock_of_lt, inBlock_of_le] at h
  simp [inBlock_eq_false] at h
  unfold State.writeSec
  iterate 3 refine (if_neg (by omega)).trans ?_
  exact (if_neg (by simp [hm])).trans hs

theorem State.writeRel_of_readOnly (lo : 0xC0000 ≤ a) (hi : a < 0xD0000) : s.writeRel a v = s := by
  have hs := s.storeRw_of_readOnly v h h4
  simp (disch := omega) [writableReg, inBlock_of_lt, inBlock_of_le] at h
  simp [inBlock_eq_false] at h
  simp only [State.writeRel, Bool.and_eq_true, decide_eq_true_eq]
  repeat refine (if_neg (by omega)).trans ?_
  exact hs

theorem State.writeDbg_of_readOnly (lo : 0xF0000 ≤ a) (hi : a < 0x100000) : s.writeDbg a v = s := by
  have hs := s.storeRw_of_readOnly v h h4
  simp (disch := omega) [writableReg, inBlock_of_le] at h
  simp [inBlock_eq_false] at h
  simp only [State.writeDbg, Bool.and_eq_true, decide_eq_true_eq]
  repeat refine (if_neg (by omega)).trans ?_
  exact hs

/-- A write to a register that holds RO and RC fields alone, or to a reserved offset, does nothing (R5, R372). -/
theorem State.busWrite_of_readOnly (hi : a < 0x100000) : s.busWrite a v = s := by
  have hne (b : Nat) (hb : writableReg b = true) : a ≠ b := by rintro rfl; rw [h] at hb; cases hb
  have hpart : ¬ ((0x10000 ≤ a ∧ a < 0x11000) ∧ a % 0x100 = 0) := by
    intro hc
    simp (disch := omega) [writableReg, inBlock_of_lt] at h
    simp [inBlock_eq_false] at h
    omega
  have hring : ¬ ((0x20000 ≤ a ∧ a < 0x60000) ∧ a % 0x40 = 0x18) := by
    intro hc
    simp (disch := omega) [writableReg, inBlock_of_lt, inBlock_of_le] at h
    simp [inBlock_eq_false] at h
    omega
  simp only [State.busWrite, Bool.and_eq_true, decide_eq_true_eq]
  refine (if_neg hpart).trans <| (if_neg hring).trans <| (if_neg (hne _ (by decide))).trans ?_
  refine ite_eq_iff'.mpr ⟨fun hc => s.writeEvt_of_readOnly v h h4 hc.1 hc.2, fun _ => ?_⟩
  refine ite_eq_iff'.mpr ⟨fun hc => s.writeNet_of_readOnly v h h4 hc.1 hc.2, fun _ => ?_⟩
  refine (if_neg (hne migCtrl (by decide))).trans ?_
  refine ite_eq_iff'.mpr ⟨fun hc => s.writePwr_of_readOnly v h h4 hc.1 hc.2, fun _ => ?_⟩
  refine ite_eq_iff'.mpr ⟨fun hc => s.writeSec_of_readOnly v h h4 hc.1 hc.2, fun _ => ?_⟩
  refine ite_eq_iff'.mpr ⟨fun hc => s.writeRel_of_readOnly v h h4 hc.1 hc.2, fun _ => ?_⟩
  refine (if_neg (hne _ (by decide))).trans <| (if_neg (hne _ (by decide))).trans ?_
  refine ite_eq_iff'.mpr ⟨fun hc => s.writeDbg_of_readOnly v h h4 hc.1 hc.2, fun _ => ?_⟩
  exact (if_neg (by omega)).trans (s.storeRw_of_readOnly v h h4)

end

/-- A reserved offset has no writable field. -/
theorem writableReg_of_reserved {a : Nat} (h : mappedReg a = false) (h4 : a % 4 = 0) : writableReg a = false := by
  by_contra hw
  rw [Bool.not_eq_false] at hw
  simp only [writableReg, List.cons_append, List.nil_append, inBlocks_cons, inBlocks_nil, Bool.or_false,
    Bool.or_eq_true] at hw
  rcases hw with hw | hw | hw | hw | hw | hw | hw | hw | hw | hw | hw | hw | hw | hw | hw | hw | hw
  all_goals
    simp only [inBlock, Bool.and_eq_true, decide_eq_true_eq, List.any_cons, List.any_nil, Bool.or_eq_true, Bool.or_false] at hw
    simp (disch := omega) [mappedReg, inBlock_of_lt, inBlock_of_le] at h
    simp [inBlock_eq_false] at h
    omega

end Sys2Proof.Machine

/-! ### Registers that a write only stores to -/

namespace Sys2Proof.Machine

@[simp] theorem State.ratesFree_regs (s : State) : s.ratesFree.regs = s.regs :=
  regs_of (State.ratesFree_same (.refl _ _) rfl)

/-- A bit of a field that is 0 is clear. -/
theorem getLsbD_of_bitsOf_eq_zero {x : Word} {hi lo i : Nat} (h : bitsOf x.toNat hi lo = 0) (h1 : lo ≤ i) (h2 : i ≤ hi) :
    x.getLsbD i = false := by
  have hb := congrArg (·.testBit (i - lo)) h
  simp only [bitsOf, Nat.testBit_mod_two_pow, Nat.testBit_shiftRight, Nat.zero_testBit, Nat.add_sub_of_le h1] at hb
  rw [decide_eq_true (by omega), Bool.true_and] at hb
  exact hb

section
variable {s : State} {a : Nat} {x : Word}

theorem State.storeRw_of_ne_zero (h : rwMask a ≠ 0#32) : s.storeRw a x = s.store a (rwMask a) x := if_neg h

theorem State.writeEvt_of_storesAt (h : StoresAt a) (lo : 0x70000 ≤ a) (hi : a < 0x80000) :
    s.writeEvt a x = s.storeRw a x := by
  unfold StoresAt at h
  simp only [State.writeEvt, Bool.and_eq_true, decide_eq_true_eq]
  repeat refine (if_neg (by omega)).trans ?_
  rfl

theorem State.writeNet_regs_of_storesAt (h : StoresAt a) : (s.writeNet a x).regs = (s.storeRw a x).regs := by
  unfold StoresAt at h
  by_cases hr : a = 0x80048
  · subst hr; exact State.ratesFree_regs _
  · refine congrArg State.regs ?_
    simp only [State.writeNet, Bool.and_eq_true, decide_eq_true_eq]
    repeat refine (if_neg (by omega)).trans ?_
    rfl

theorem State.writeSec_of_storesAt (h : StoresAt a) (hb : s.sec.busy = false) : s.writeSec a x = s.storeRw a x := by
  unfold StoresAt at h
  unfold State.writeSec
  iterate 3 refine (if_neg (by omega)).trans ?_
  exact if_neg (by simp [hb])

theorem State.writeRel_of_storesAt (h : StoresAt a) : s.writeRel a x = s.storeRw a x := by
  unfold StoresAt at h
  simp only [State.writeRel, Bool.and_eq_true, decide_eq_true_eq]
  repeat refine (if_neg (by omega)).trans ?_
  rfl

/-- Without an action bit of DBG a write stores alone. -/
theorem State.writeDbg_of_storesAt (h : StoresAt a) (h0 : a = 0xF0000 → bitsOf x.toNat 11 8 = 0)
    (h1 : a = 0xF0100 → bitsOf x.toNat 17 16 = 0) : s.writeDbg a x = s.storeRw a x := by
  have hbit {hi lo : Nat} (hz : bitsOf x.toNat hi lo = 0) (i : Nat) (hl : lo ≤ i) (hh : i ≤ hi) :
      ¬ x.getLsbD i = true := by simp [-BitVec.getLsbD_eq_getElem, getLsbD_of_bitsOf_eq_zero hz hl hh]
  by_cases e0 : a = 0xF0000
  · have hb := hbit (h0 e0)
    unfold State.writeDbg
    dsimp only
    rw [if_pos e0, if_neg (hb 8 (by decide) (by decide)), if_neg (hb 9 (by decide) (by decide)),
      if_neg (hb 10 (by decide) (by decide)), if_neg (hb 11 (by decide) (by decide))]
  by_cases e1 : a = 0xF0100
  · have hb := hbit (h1 e1)
    unfold State.writeDbg
    dsimp only
    rw [if_neg e0, if_neg (by omega), if_neg (by omega), if_pos e1, if_neg (hb 16 (by decide) (by decide)),
      if_neg (hb 17 (by decide) (by decide))]
  · unfold StoresAt at h
    simp only [State.writeDbg, Bool.and_eq_true, decide_eq_true_eq]
    repeat refine (if_neg (by omega)).trans ?_
    rfl

/-- A write that only stores (`onlyStores`) stores the RW bits in the setup words. -/
theorem State.busWrite_regs_of_onlyStores (h : s.onlyStores a x) :
    (s.busWrite a x).regs = (s.store a (rwMask a) x).regs := by
  obtain ⟨-, hm, hring, hbusy, h0, h1⟩ := h
  have hs := storesAt_of_rwMask_ne_zero hm
  have hs' := hs
  unfold StoresAt at hs'
  rw [← State.storeRw_of_ne_zero hm]
  simp only [State.busWrite, Bool.and_eq_true, decide_eq_true_eq]
  rw [if_neg (by omega), if_neg (fun hc => hring ⟨hc.1.1, hc.1.2, hc.2⟩), if_neg (by omega)]
  split
  · next hc => rw [State.writeEvt_of_storesAt hs hc.1 hc.2]
  split
  · exact State.writeNet_regs_of_storesAt hs
  rw [if_neg (by unfold migCtrl; omega), if_neg (by omega)]
  split
  · next hc => rw [State.writeSec_of_storesAt hs (hbusy hc.1 hc.2)]
  split
  · rw [State.writeRel_of_storesAt hs]
  rw [if_neg (by omega), if_neg (by omega)]
  split
  · rw [State.writeDbg_of_storesAt hs h0 h1]
  · rw [if_neg (by omega)]

/-- REGISTER_WRITE of such a value: the RW bits of its register, and no other register. -/
theorem registerWrite_of_onlyStores (h : s.onlyStores a x) :
    ∃ t, exec (.registerWrite a x) s = .next t ∧ t.regW a = (s.regW a &&& ~~~(rwMask a)) ||| (x &&& rwMask a)
      ∧ ∀ b, b ≠ a → t.regW b = s.regW b := by
  refine ⟨_, rfl, ?_⟩
  rw [if_pos h.1]
  have hr := State.regW_congr (State.busWrite_regs_of_onlyStores h)
  exact ⟨(hr a).trans (State.store_regW ..), fun b hb => (hr b).trans (State.store_regW_ne _ _ _ hb)⟩

/-- The first word of a ring's registers is a plain one. -/
theorem rwMask_ring {n : Nat} (h : n < 4096) : rwMask (0x20000 + 0x40 * n) = ringMask 0 := by
  simp only [rwMask, Bool.or_eq_true, Bool.and_eq_true, decide_eq_true_eq]
  repeat refine (if_neg (by omega)).trans ?_
  refine (if_pos (by omega)).trans ?_
  rw [show (0x20000 + 0x40 * n) % 0x40 = 0 by omega]

/-- The first word of a ring's registers has no action and no field of another code. -/
theorem onlyStores_ring (s : State) (x : Word) {n : Nat} (h : n < 4096) : s.onlyStores (0x20000 + 0x40 * n) x := by
  refine ⟨by omega, ?_, by omega, by omega, by omega, by omega⟩
  rw [rwMask_ring h]
  decide

end
end Sys2Proof.Machine

/-! ## Reads and writes of registers (O49) -/

namespace Sys2Proof.Machine

section
variable (s : State)

theorem State.regRead_sweeps : s.regRead 0x110 = BitVec.ofNat 32 (wordOf s.ream.sweeps 0)
    ∧ s.regRead 0x114 = BitVec.ofNat 32 (bitsOf s.ream.sweeps 47 32) := ⟨rfl, rfl⟩

theorem State.regRead_power : s.regRead 0xA0028 = BitVec.ofNat 32 (s.pwr.pAvg + 2 ^ 16 * s.pwr.pPeak) := by
  simp [State.regRead, State.readPwr]

/-- The read of P_AVG and P_PEAK answers both and clears the peak. -/
theorem State.read_power : s.read 0xA0028 = State.clearRead (s.answerWord (s.regRead 0xA0028)) 0xA0028 := by
  have h : lowWord 0xA0028 = false ∧ lowWord (0xA0028 - 4) = false := by decide
  rw [s.read_of_aligned (by decide), State.busRead, if_neg (by decide), if_neg (by decide), h.1, h.2, Bool.and_false,
    if_neg Bool.false_ne_true, if_neg Bool.false_ne_true]

/-- CAUSE of a partition is write 1 to clear. -/
theorem State.busWrite_cause (x : Word) {p : Nat} (h : p < 16) :
    s.busWrite (0x74000 + 0x20 * p + 0x10) x = s.modPart p fun q => { q with cause := q.cause &&& ~~~x } := by
  simp only [State.busWrite, State.writeEvt, Bool.and_eq_true, decide_eq_true_eq]
  iterate 3 refine (if_neg (by omega)).trans ?_
  refine (if_pos (by omega)).trans <| (if_neg (by omega)).trans <| (if_neg (by omega)).trans <| (if_pos (by omega)).trans ?_
  rw [show (0x74000 + 0x20 * p + 0x10 - 0x74000) / 32 = p by omega]

/-- The mailbox's input and its length. -/
theorem rwMask_mailbox {a : Nat} (h : a = 0xB0008 ∨ 0xB1000 ≤ a ∧ a < 0xB2000) : rwMask a ≠ 0#32 := by
  rcases h with rfl | ⟨lo, hi⟩
  · decide
  · have hm : rwMask a = 0xFFFFFFFF#32 := by
      simp only [rwMask, Bool.and_eq_true, decide_eq_true_eq]
      repeat refine (if_neg (by omega)).trans ?_
      exact if_pos ⟨lo, hi⟩
    rw [hm]
    decide

/-- While a command runs, a write of its input or length is refused. -/
theorem State.busWrite_mailbox_busy {a : Nat} (x : Word) (h : a = 0xB0008 ∨ 0xB1000 ≤ a ∧ a < 0xB2000)
    (hb : s.sec.busy = true) : s.busWrite a x = { s with sec := { s.sec with collide := true } } := by
  have hm : (rwMask a != 0#32 && s.sec.busy) = true := by simp [rwMask_mailbox h, hb]
  simp only [State.busWrite, Bool.and_eq_true, decide_eq_true_eq]
  iterate 5 refine (if_neg (by omega)).trans ?_
  refine (if_neg (by unfold migCtrl; omega)).trans <| (if_neg (by omega)).trans <| (if_pos (by omega)).trans ?_
  unfold State.writeSec
  iterate 3 refine (if_neg (by omega)).trans ?_
  exact if_pos hm

/-- The bound of the hold-up bank's force is clamped. -/
theorem State.busWrite_clamp (x : Word) :
    s.busWrite 0xC0900 x = s.setReg 0xC0900 (BitVec.ofNat 32 (Nat.min 24 (bitsOf x.toNat 4 0))) := by
  simp [State.busWrite, State.writeRel, migCtrl]

/-- Offsets below BAR2 without a writable field. -/
theorem registerWrite_of_readOnly {a : Nat} (x : Word) (h : writableReg a = false) (h4 : a % 4 = 0) (hi : a < 0x100000) :
    ∃ t, exec (.registerWrite a x) s = .next t ∧ t = s :=
  ⟨_, rfl, (if_pos h4).trans (s.busWrite_of_readOnly x h h4 hi)⟩

end

/-- Settles O49, register kind by register kind. -/
theorem registers : Obligations.Registers := by
  unfold Obligations.Registers
  refine ⟨fun s => ⟨_, rfl, ?_⟩, fun s w hw => ⟨_, rfl, ?_⟩, fun s => ⟨_, rfl, ?_⟩, fun s x p hp => ⟨_, rfl, ?_⟩,
    fun s x n hn => ?_, fun s a x h => registerWrite_of_onlyStores h, fun s a x ha h4 hb => ⟨_, rfl, ?_⟩,
    fun s x => ⟨_, rfl, ?_⟩, fun s a h => ⟨_, rfl, ?_⟩, fun s a w h hw => ⟨_, rfl, ?_⟩, fun s a h hw => ⟨_, rfl, ?_⟩,
    fun s a x hi h4 h => registerWrite_of_readOnly s x h h4 hi, fun s a x hi h4 h => ?_⟩
  case refine_1 =>
    rw [s.read_lowWord (by decide), State.clearRead_bus, State.clearRead_tel, State.clearRead_ream]
    exact ⟨rfl, FMap.find_set_self .., rfl⟩
  case refine_2 =>
    rw [State.read_highWord_latched (a := 0x110) (by decide) hw]
    exact ⟨rfl, FMap.find_del_self ..⟩
  case refine_3 =>
    rw [s.read_power, State.clearRead_bus, State.answerWord_rdata]
    exact ⟨s.regRead_power, rfl⟩
  case refine_4 =>
    rw [if_pos (by omega), s.busWrite_cause x hp]
    exact ⟨by rw [State.modPart_part], rfl⟩
  case refine_5 =>
    have h := registerWrite_of_onlyStores (onlyStores_ring s x hn)
    rwa [rwMask_ring hn] at h
  case refine_6 =>
    rw [if_pos h4, s.busWrite_mailbox_busy x ha hb]
    exact ⟨rfl, rfl⟩
  case refine_7 =>
    rw [if_pos (by decide), s.busWrite_clamp, State.setReg_regW]
  case refine_8 =>
    rw [s.read_lowWord h, State.clearRead_bus, State.clearRead_tel]
    exact ⟨rfl, FMap.find_set_self ..⟩
  case refine_9 =>
    rw [State.read_highWord_latched h hw]
    exact ⟨rfl, FMap.find_del_self ..⟩
  case refine_10 =>
    rw [State.read_highWord_live h hw]
    exact ⟨rfl, rfl⟩
  case refine_11 =>
    have hr := s.read_of_reserved h h4 hi
    exact ⟨registerWrite_of_readOnly s x (writableReg_of_reserved h h4) h4 hi, ⟨_, rfl, hr⟩, _, rfl, hr⟩

end Sys2Proof.Machine

/-! ## What keeps the LOCK bits: setup words, rings and attachments (R7) -/

namespace Sys2Proof.Machine

/-- Every LOCK bit that is set in `s` is set in `t`. -/
def KeepsLocks (s t : State) : Prop := ∀ a ∈ lockRegs, s.locked a = true → t.locked a = true

section
variable {s t u : State}

theorem KeepsLocks.refl (s : State) : KeepsLocks s s := fun _ _ h => h

theorem KeepsLocks.trans (h : KeepsLocks s t) (k : KeepsLocks t u) : KeepsLocks s u :=
  fun a ha hl => k a ha (h a ha hl)

/-- What leaves the setup words alone keeps the LOCK bits. -/
theorem KeepsLocks.regs (h : KeepsLocks s t) (e : u.regs = t.regs) : KeepsLocks s u :=
  fun a ha hl => (State.locked_congr e a).trans (h a ha hl)

theorem keepsLocks_of_regs (e : t.regs = s.regs) : KeepsLocks s t := (KeepsLocks.refl s).regs e

theorem KeepsLocks.ite {c : Prop} [Decidable c] (h : KeepsLocks s t) (k : KeepsLocks s u) :
    KeepsLocks s (if c then t else u) := by
  split <;> assumption

/-- A word stored elsewhere keeps them. -/
theorem KeepsLocks.setReg (h : KeepsLocks s t) {a : Nat} (w : Word) (ha : a ∉ lockRegs) : KeepsLocks s (t.setReg a w) := by
  intro b hb hl
  rw [State.locked_eq_getLsbD, State.setReg_regW_ne _ _ (ne_of_mem_of_not_mem hb ha), ← State.locked_eq_getLsbD]
  exact h b hb hl

theorem KeepsLocks.store (h : KeepsLocks s t) {a : Nat} (m w : Word) (ha : a ∉ lockRegs) : KeepsLocks s (t.store a m w) :=
  h.setReg _ ha

/-- A write to a register that holds a LOCK bit sets it or leaves it. -/
theorem KeepsLocks.writeLock (h : KeepsLocks s t) (a : Nat) (v : Word) : KeepsLocks s (t.writeLock a v) := by
  by_cases ha : a ∈ lockRegs
  · intro b hb hl
    by_cases e : b = a
    · subst e; rw [State.writeLock_locked t v hb, h b hb hl, Bool.true_or]
    · cases hla : t.locked a with
      | true => rw [State.writeLock_of_locked v hla]; exact h b hb hl
      | false =>
        rw [State.locked_congr (State.writeLock_regs v ha hla), State.locked_eq_getLsbD]
        unfold State.lockStore
        rw [State.store_regW_ne _ _ _ e, ← State.locked_eq_getLsbD]
        exact h b hb hl
  · have hc : lockRegs.contains a = false := by simpa using ha
    rwa [State.writeLock, hc, if_pos (by simp)]

theorem keepsLocks_each {α : Type} (l : List α) (f : State → α → State) (h : ∀ s, ∀ x ∈ l, KeepsLocks s (f s x)) (s : State) :
    KeepsLocks s (s.each l f) := by
  unfold State.each
  induction l generalizing s with
  | nil => exact .refl s
  | cons x l ih =>
    exact (h s x List.mem_cons_self).trans (ih (fun s y hy => h s y (List.mem_cons_of_mem _ hy)) _)

end

/-- Where no LOCK bit lies. -/
theorem notMem_lockRegs {a : Nat} : a ∉ lockRegs ↔ a ≠ 0x80004 ∧ a ≠ 0xA0004 ∧ a ≠ 0xB0010 := by
  simp [lockRegs]

/-- A command that writes no setup word keeps the LOCK bits. -/
theorem keepsLocks_of_writes {c : Instr} {s t : State} (hw : c.writes.contains .regs = false) (h : exec c s = .next t) :
    KeepsLocks s t := by
  obtain ⟨u, hu, k⟩ := exec_same c s
  obtain rfl : u = t := by simpa [hu] using h
  exact keepsLocks_of_regs (k.regs (by rw [hw]; rfl))

/-- The setup words after such a command. -/
theorem after_regs {c : Instr} (s : State) (hw : c.writes.contains .regs = false) : (after (exec c s) s).regs = s.regs := by
  obtain ⟨u, hu, k⟩ := exec_same c s
  rw [hu]
  exact k.regs (by rw [hw]; rfl)

/-! ### What the shared operations leave alone -/

section
variable (s : State) (n k p : Nat)

@[simp] theorem State.ringEnableBit_regs : (s.ringEnableBit n).regs = s.regs :=
  regs_of (State.ringEnableBit_same (.refl _ _) _ rfl rfl rfl rfl)

@[simp] theorem State.enableRing_regs : (s.enableRing n).regs = s.regs :=
  regs_of (State.enableRing_same (.refl _ _) _ rfl rfl rfl rfl)

@[simp] theorem State.disableRing_regs : (s.disableRing n).regs = s.regs :=
  regs_of (State.disableRing_same (.refl _ _) _ rfl rfl)

@[simp] theorem State.resumeRing_regs : (s.resumeRing n).regs = s.regs :=
  regs_of (State.resumeRing_same (.refl _ _) _ rfl rfl rfl rfl)

@[simp] theorem State.operAsk_regs (g off len : Nat) : (s.operAsk k p g off len).2.regs = s.regs :=
  regs_of (State.operAsk_same (.refl _ _) _ _ _ _ _ rfl)

@[simp] theorem State.openAsk_regs (g off len : Nat) (w : Bool) : (s.openAsk p g off len w).2.regs = s.regs :=
  regs_of (State.openAsk_same (.refl _ _) _ _ _ _ _ rfl rfl)

@[simp] theorem State.translate_regs (c : Cmd) (rs : List Range) : (s.translate k c rs).2.regs = s.regs :=
  regs_of (State.translate_same (.refl _ _) _ _ _ rfl rfl rfl rfl rfl rfl rfl rfl rfl rfl rfl)

@[simp] theorem State.refuse_regs (c : Cmd) (st : Nat) : (s.refuse k c st).regs = s.regs :=
  regs_of (State.refuse_same (.refl _ _) _ _ _ rfl rfl)

@[simp] theorem State.causeTo_regs (bit : Nat) : (s.causeTo p bit).regs = s.regs :=
  regs_of (State.causeTo_same (.refl _ _) _ _ rfl rfl rfl rfl rfl rfl)

@[simp] theorem State.resumed_regs : (s.resumed p).regs = s.regs :=
  regs_of (State.resumed_same (.refl _ _) _ rfl rfl rfl rfl rfl rfl)

@[simp] theorem State.attached_regs (offer : Nat) (r : Bool) : (s.attached p offer r).regs = s.regs :=
  regs_of (State.attached_same (.refl _ _) _ _ _ rfl)

@[simp] theorem State.makeDbWindow_regs (qp tag : Nat) : (s.makeDbWindow p qp tag).regs = s.regs :=
  regs_of (State.makeDbWindow_same (.refl _ _) _ _ _ rfl)

@[simp] theorem State.freeVal_regs : s.freeVal.2.regs = s.regs :=
  regs_of (State.freeVal_same (.refl _ _) rfl)

@[simp] theorem State.rearm_regs (i : Nat) : (s.rearm i).regs = s.regs :=
  regs_of (State.rearm_same (.refl _ _) _ rfl rfl rfl rfl rfl rfl)

end

/-! ### Rings -/

/-- The words of a ring lie below every LOCK bit. -/
theorem notMem_lockRegs_of_ring {n o : Nat} (hn : n < 4096) (ho : o < 0x40) : ringReg n + o ∉ lockRegs := by
  rw [notMem_lockRegs]
  unfold ringReg
  omega

theorem keepsLocks_storeImage (s : State) {n : Nat} (hn : n < 4096) (img : Bytes) : KeepsLocks s (s.storeImage n img) := by
  refine keepsLocks_each _ _ (fun s o ho => (KeepsLocks.refl s).store _ _ (notMem_lockRegs_of_ring hn ?_)) s
  fin_cases ho <;> decide

/-- A write of a ring's ENABLE. -/
theorem keepsLocks_ringBit (s : State) (n : Nat) (v : Word) :
    KeepsLocks s (if n < 4096 then (s.store (ringReg n + 0x18) 1 v).ringEnableBit n else s) := by
  split
  · next hn => exact ((KeepsLocks.refl s).store _ _ (notMem_lockRegs_of_ring hn (by decide))).regs (State.ringEnableBit_regs ..)
  · exact .refl s

theorem keepsLocks_front {s t : State} (h : KeepsLocks s t) (k op : Nat) (go : State → Cmd → State)
    (hgo : ∀ u c, KeepsLocks s u → KeepsLocks s (go u c)) : KeepsLocks s (t.front k op go) := by
  unfold State.front
  split
  · exact h
  · next c _ =>
    refine .ite (h.regs (State.refuse_regs ..)) ?_
    have ht := h.regs (State.translate_regs t k c (t.cmdRanges c))
    exact .ite ht (.ite (ht.regs (State.finishIdle_regs ..)) (hgo _ _ ht))

theorem keepsLocks_ringSetup (s : State) (k : Nat) (c : Cmd) (rd : Rd) : KeepsLocks s (s.ringSetup k c rd) := by
  unfold State.ringSetup
  have ho := keepsLocks_of_regs (State.operAsk_regs s k c.part (c.f 18 1) (c.f 24 6) 64)
  generalize s.operAsk k c.part (c.f 18 1) (c.f 24 6) 64 = x at ho
  obtain ⟨asked, t⟩ := x
  have ha := ho.regs (State.openAsk_regs t c.part (c.f 18 1) (c.f 24 6) 64 false)
  dsimp only
  generalize t.openAsk c.part (c.f 18 1) (c.f 24 6) 64 false = y at ha
  obtain ⟨opened, u⟩ := y
  have hi (img : Bytes) := ha.trans (keepsLocks_storeImage u (Nat.mod_lt (c.f 16 2) (by decide : 0 < 4096)) img)
  refine .ite ho (.ite ha (.ite (ha.regs (State.finish_regs ..)) (.ite (.ite ?enabled (.ite ?resumed ?kept)) ?disabled)))
  case enabled => exact ((hi _).regs (State.enableRing_regs ..)).regs (State.finish_regs ..)
  case resumed => exact ((hi _).regs (State.resumeRing_regs ..)).regs (State.finish_regs ..)
  case kept => exact (hi _).regs (State.finish_regs ..)
  case disabled => exact ((hi _).regs (State.disableRing_regs ..)).regs (State.finish_regs ..)

theorem keepsLocks_execRingSetup (s : State) (r q : Nat) (img : Rd) : KeepsLocks s (after (execRingSetup r q img s) s) := by
  unfold execRingSetup
  dsimp only [after]
  exact keepsLocks_front (.refl s) _ _ _ fun u c h => h.trans (keepsLocks_ringSetup u _ c _)

/-! ### Remote attachments -/

/-- A partition that passes the checks of R218 has rings of the 4096 alone. -/
theorem attachLat_rings {s : State} {p offer : Nat} {r : Bool} (h : s.attachCheck p offer r = 0) :
    latF (s.attachLat p) 0x08 11 0 + latF (s.attachLat p) 0x08 28 16 ≤ 4096 := by
  by_contra hlt
  have hr : ((rangesOf (s.attachLat p)).any fun r => decide (r.2.2 < r.1 + r.2.1)) = true := by
    simp only [rangesOf, List.any_cons, Bool.or_eq_true, decide_eq_true_eq]
    exact .inl (by omega)
  simp only [State.attachCheck, hr, if_true] at h
  split at h <;> cases h

/-- The partition that a good attach block attaches, before its ring is set up. -/
def State.attachedRemote (s : State) (p qp tag offer : Nat) : State :=
  ((s.attached p offer true).modPart p fun q => { q with attachQp := qp, dbKey := winKey qp 15 tag }).makeDbWindow p qp tag

@[simp] theorem State.attachedRemote_regs (s : State) (p qp tag offer : Nat) :
    (s.attachedRemote p qp tag offer).regs = s.regs := by
  simp [State.attachedRemote]

theorem State.makeDbWindow_part (s : State) (p qp tag j : Nat) : (s.makeDbWindow p qp tag).part j = s.part j := rfl

theorem State.attachedRemote_lat (s : State) (p qp tag offer : Nat) :
    ((s.attachedRemote p qp tag offer).part p).lat = s.attachLat p := by
  rw [State.attachedRemote, State.makeDbWindow_part, State.modPart_part]
  exact congrArg Part.lat (State.modPart_part ..)

/-- Where the checks pass it holds rings of the 4096 alone. -/
theorem hasRing_lt {s : State} {p qp tag offer n : Nat} (h : s.attachCheck p offer true = 0)
    (hr : ((s.attachedRemote p qp tag offer).part p).hasRing n = true) : n < 4096 := by
  have hl := attachLat_rings h
  simp only [Part.hasRing, inRange, Part.ringBase, Part.ringCount, State.attachedRemote_lat, Bool.and_eq_true,
    decide_eq_true_eq] at hr
  omega

/-- A good attach block stores the image of a ring that the partition then holds, or nothing. -/
theorem keepsLocks_attachRemote (s : State) (p qp tag : Nat) (blk : Bytes) :
    KeepsLocks s (s.attachRemote p qp tag blk).1 := by
  unfold State.attachRemote
  dsimp only
  rw [← State.attachedRemote]
  by_cases he : s.attachCheck p (fld blk 8 32) true = 0
  swap
  · rw [if_pos (by simpa using he)]
    exact .refl s
  have hring := hasRing_lt (qp := qp) (tag := tag) (n := fld blk 120 2) he
  have hregs := keepsLocks_of_regs (s.attachedRemote_regs p qp tag (fld blk 8 32))
  rw [if_neg (by simpa using he)]
  generalize s.attachedRemote p qp tag (fld blk 8 32) = t at hring hregs
  generalize (blk.drop 56).take 64 = img
  by_cases hr : (t.part p).hasRing (fld blk 120 2) = true
  swap
  · rw [if_pos (by simpa using hr)]
    exact .refl s
  have hs := keepsLocks_storeImage s (hring hr) img
  have ht := hregs.trans (keepsLocks_storeImage t (hring hr) img)
  rw [if_neg (by simpa using hr)]
  generalize t.storeImage (fld blk 120 2) img = u at ht
  generalize s.storeImage (fld blk 120 2) img = v at hs
  split
  · exact .refl s
  have hw : KeepsLocks s (if (decide ((u.ring (fld blk 120 2)).st = 4) && (fld img 24 1).testBit 0) = true then
      u.resumeRing (fld blk 120 2) else u.ringEnableBit (fld blk 120 2)) :=
    .ite (ht.regs (State.resumeRing_regs ..)) (ht.regs (State.ringEnableBit_regs ..))
  have hc := hw.regs (State.causeTo_regs _ p cPartAttached)
  rw [apply_ite Prod.fst]
  exact .ite (hs.regs (State.modRing_regs ..)) (.ite (hc.regs (State.resumed_regs ..)) hc)

theorem keepsLocks_attachBlockRead (s : State) (k p : Nat) (c : Cmd) (rd : Rd) :
    KeepsLocks s (s.attachBlockRead k p c rd) := by
  unfold State.attachBlockRead
  dsimp only
  have hv := keepsLocks_of_regs (State.freeVal_regs s)
  generalize s.freeVal = x at hv
  obtain ⟨v, u⟩ := x
  dsimp only at hv ⊢
  have hr := hv.trans (keepsLocks_attachRemote u p (c.f 18 2) (v % 2 ^ 16) rd.data)
  generalize u.attachRemote p (c.f 18 2) (v % 2 ^ 16) rd.data = y at hr
  obtain ⟨t, st⟩ := y
  refine KeepsLocks.regs (KeepsLocks.regs ?_ (State.modPart_regs ..)) (State.issue_regs ..)
  refine .ite (hv.regs (State.modPart_regs ..)) (.ite hv (.ite (hv.regs (State.modPart_regs ..)) ?_))
  split
  · exact hv
  · exact hr

theorem keepsLocks_attachDone (s : State) (k p : Nat) : KeepsLocks s (s.attachDone k p) := by
  unfold State.attachDone
  split
  · next k' blk tag c _ _ =>
    have hm := keepsLocks_of_regs (State.modPart_regs s p fun q => { q with attaching := none })
    refine .ite (.refl s) (.ite (hm.regs (State.finish_regs ..)) ?_)
    exact (hm.trans (keepsLocks_attachRemote _ p (c.f 18 2) tag blk)).regs (State.finish_regs ..)
  · exact .refl s

/-! ### Acknowledgements -/

theorem keepsLocks_acked (s : State) (x : Xfer) : KeepsLocks s (s.acked x) := by
  unfold State.acked
  split
  · refine keepsLocks_of_regs ((State.rearm_regs ..).trans ((State.setSrc_regs ..).trans ?_))
    split <;> rfl
  · exact keepsLocks_attachDone _ _ _
  · exact .refl s

theorem keepsLocks_accept1 (s : State) (id : Nat) : KeepsLocks s (s.accept1 id) := by
  unfold State.accept1
  split
  · exact .refl s
  · next x _ =>
    dsimp only
    refine KeepsLocks.trans ?_ (keepsLocks_acked _ x)
    exact keepsLocks_of_regs rfl

theorem keepsLocks_ackTo (s : State) (q psn : Nat) : KeepsLocks s (s.ackTo q psn) := by
  refine .ite (.refl s) ?_
  exact (keepsLocks_of_regs (State.modQp_regs ..)).trans (keepsLocks_each _ _ (fun s x _ => keepsLocks_accept1 s x.id) _)

@[simp] theorem State.retry_regs (s : State) (q psn : Nat) : (s.retry q psn).regs = s.regs :=
  regs_of (State.retry_same (.refl _ _) _ _ rfl rfl rfl rfl rfl rfl rfl rfl rfl rfl rfl rfl rfl rfl rfl rfl)

@[simp] theorem State.qpFail_regs (s : State) (q cause : Nat) : (s.qpFail q cause).regs = s.regs :=
  regs_of (State.qpFail_same (.refl _ _) _ _ rfl rfl rfl rfl rfl rfl rfl rfl rfl rfl rfl rfl rfl rfl rfl rfl)

end Sys2Proof.Machine

/-! ## What keeps the LOCK bits: register writes and the other commands that store setup words (R7) -/

namespace Sys2Proof.Machine

/-! ### Stores of a block -/

theorem KeepsLocks.storeRw {s t : State} (h : KeepsLocks s t) (a : Nat) (v : Word) : KeepsLocks s (t.storeRw a v) := by
  by_cases hm : rwMask a = 0#32
  · rwa [State.storeRw, if_pos hm]
  · rw [State.storeRw_of_ne_zero hm]
    refine h.store _ _ fun ha => hm ?_
    fin_cases ha <;> decide

theorem KeepsLocks.storeRwl {s t : State} (h : KeepsLocks s t) (l a : Nat) (m v : Word) (ha : a ∉ lockRegs) :
    KeepsLocks s (t.storeRwl l a m v) :=
  .ite h (h.store m v ha)

section
variable (s : State) (v : Word)

/-- OWNER of a source lies below every LOCK bit. -/
theorem keepsLocks_writeOwner {i : Nat} (hi : i < 512) : KeepsLocks s (s.writeOwner i v) := by
  have ha : evtReg i ∉ lockRegs := by rw [notMem_lockRegs]; unfold evtReg; omega
  have hs (m : Word) := (KeepsLocks.refl s).store m v ha
  unfold State.writeOwner
  exact .ite (hs _) (.ite (hs _) (.ite (keepsLocks_of_regs (State.setSrc_regs ..)) ((hs _).regs (State.setSrc_regs ..))))

theorem keepsLocks_writeEvt (a : Nat) : KeepsLocks s (s.writeEvt a v) := by
  unfold State.writeEvt
  split
  · next h =>
    simp only [Bool.and_eq_true, decide_eq_true_eq] at h
    exact keepsLocks_writeOwner s v (by omega)
  · refine .ite (keepsLocks_of_regs (after_regs (c := .evtAck v) s rfl)) ?_
    exact .ite (keepsLocks_of_regs (State.modPart_regs ..)) ((KeepsLocks.refl s).storeRw a v)

/-! ### Ports -/

@[simp] theorem State.latchMode_regs (g : Nat) : (s.latchMode g).regs = s.regs :=
  regs_of (State.latchMode_same (.refl _ _) _ rfl rfl rfl rfl rfl rfl rfl rfl rfl rfl rfl rfl rfl rfl rfl rfl)

@[simp] theorem State.linkLost_regs (n to_ : Nat) : (s.linkLost n to_).regs = s.regs :=
  regs_of (State.linkLost_same (.refl _ _) _ _ rfl rfl rfl rfl rfl rfl rfl)

/-- The words of a port hold no LOCK bit. -/
theorem portReg_notMem_lockRegs (n : Nat) {o : Nat} (ho : o = 0 ∨ n < 16 ∧ o < 0x20) : portReg n + o ∉ lockRegs := by
  rw [notMem_lockRegs]
  unfold portReg
  omega

theorem keepsLocks_portOn {s t : State} (h : KeepsLocks s t) (n : Nat) : KeepsLocks s (t.portOn n) := by
  unfold State.portOn
  dsimp only
  refine .ite h (.ite h ?_)
  have hl : KeepsLocks s (if t.groupOn (n / 4) = true then t else t.latchMode (n / 4)) := .ite h (h.regs (State.latchMode_regs ..))
  exact (hl.setReg _ (portReg_notMem_lockRegs n (.inl rfl))).regs (State.setPort_regs ..)

theorem keepsLocks_portOff {s t : State} (h : KeepsLocks s t) (n : Nat) : KeepsLocks s (t.portOff n) := by
  unfold State.portOff
  refine .ite h ?_
  exact ((h.setReg _ (portReg_notMem_lockRegs n (.inl rfl))).regs (State.linkLost_regs ..)).regs (State.setPort_regs ..)

theorem keepsLocks_writePort {n o : Nat} (hn : n < 16) (ho : o < 0x20) : KeepsLocks s (s.writePort n o v) := by
  have hs (m : Word) := (KeepsLocks.refl s).storeRwl 0x80004 _ m v (portReg_notMem_lockRegs n (.inr ⟨hn, ho⟩))
  unfold State.writePort
  exact .ite (.ite (keepsLocks_portOn (hs _) n) (keepsLocks_portOff (hs _) n)) (.ite (hs _) (.ite (hs _) (hs _)))

/-! ### The blocks of the setup space -/

theorem keepsLocks_writeNet (a : Nat) : KeepsLocks s (s.writeNet a v) := by
  have h0 := KeepsLocks.refl s
  unfold State.writeNet
  split
  · next h => exact h0.storeRwl _ _ _ _ (by rw [h]; decide)
  refine .ite (h0.writeLock a v) ?_
  split
  · next h =>
    simp only [Bool.and_eq_true, decide_eq_true_eq] at h
    exact keepsLocks_writePort s v (by omega) (Nat.mod_lt _ (by decide))
  refine .ite (.ite ?_ (.ite ?_ h0)) (.ite ?_ (.ite ((h0.storeRw a v).regs (State.ratesFree_regs _)) (h0.storeRw a v)))
  · exact keepsLocks_of_regs (after_regs (c := .qpConnect) s rfl)
  · exact keepsLocks_of_regs (after_regs (c := .qpReset) s rfl)
  · exact keepsLocks_of_regs (regs_of (State.writeQp_same (.refl _ _) _ _ rfl))

theorem keepsLocks_execPwrCap : KeepsLocks s (after (execPwrCap v s) s) := by
  have hs := (KeepsLocks.refl s).setReg (a := 0xA0008) (BitVec.ofNat 32 (clamp 1200 2400 (bitsOf v.toNat 11 0))) (by decide)
  exact .ite (.refl s) (.ite (hs.regs (State.causeAll_regs ..)) hs)

theorem keepsLocks_execSlew : KeepsLocks s (after (execSlew v s) s) :=
  .ite (.refl s) (((KeepsLocks.refl s).setReg _ (by decide)).regs (State.setBounds_regs _))

theorem keepsLocks_execMigCtrl : KeepsLocks s (after (execMigCtrlEnableClear v s) s) := by
  have hs := (KeepsLocks.refl s).store (a := migCtrl) 0xFF01 v (by decide)
  exact .ite hs (hs.regs (regs_of (State.abandonMoves_same (.refl _ _) rfl rfl rfl)))

/-- PWR: every write but FLUSH_CLEAR. -/
theorem keepsLocks_writePwr {a : Nat} (ha : a ≠ 0xA0100) : KeepsLocks s (s.writePwr a v) := by
  unfold State.writePwr
  rw [if_neg ha]
  refine .ite ((KeepsLocks.refl s).writeLock a v) (.ite (keepsLocks_execPwrCap s v) (.ite (keepsLocks_execSlew s v) ?_))
  exact .ite (keepsLocks_of_regs (after_regs (c := .bankTest v) s rfl)) (.refl s)

theorem keepsLocks_writeSec (a : Nat) : KeepsLocks s (s.writeSec a v) := by
  have h0 := KeepsLocks.refl s
  unfold State.writeSec
  refine .ite (keepsLocks_of_regs (regs_of (State.writeMbxCmd_same (.refl _ _) _ rfl rfl))) ?_
  refine .ite (keepsLocks_of_regs rfl) (.ite (h0.writeLock a v) (.ite (keepsLocks_of_regs rfl) (h0.storeRw a v)))

/-- REL: every write but the cold reset. -/
theorem keepsLocks_writeRel {a : Nat} (ha : a ≠ 0xC0008) : KeepsLocks s (s.writeRel a v) := by
  have h0 := KeepsLocks.refl s
  unfold State.writeRel
  rw [if_neg ha]
  refine .ite (keepsLocks_of_regs (after_regs (c := .devReset v) s rfl)) ?_
  refine .ite (keepsLocks_of_regs (after_regs (c := .partReset v) s rfl)) (.ite (keepsLocks_of_regs rfl) ?_)
  split
  · next h => exact h0.setReg _ (by rw [h]; decide)
  · exact h0.storeRw a v

/-- One action bit of DBG. -/
theorem KeepsLocks.dbg {s t : State} (h : KeepsLocks s t) {c : Instr} (b : Bool) (hw : c.writes.contains .regs = false) :
    KeepsLocks s (if b = true then after (exec c t) t else t) :=
  .ite (h.regs (after_regs t hw)) h

theorem keepsLocks_writeDbg (a : Nat) : KeepsLocks s (s.writeDbg a v) := by
  have h0 := KeepsLocks.refl s
  have hs := h0.storeRw a v
  unfold State.writeDbg
  refine .ite ?actions (.ite ?key (.ite (keepsLocks_of_regs rfl) (.ite ?peek (.ite (keepsLocks_of_regs rfl) hs))))
  case actions =>
    exact (((hs.dbg (c := .dbgEnter) _ rfl).dbg (c := .dbgLeave) _ rfl).dbg (c := .dbgRun) _ rfl).dbg (c := .dbgHalt) _ rfl
  case key =>
    exact .ite (keepsLocks_of_regs (after_regs (c := .dbgStreamKeySet v) s rfl))
      (keepsLocks_of_regs (after_regs (c := .dbgInterleaveKeySet v) s rfl))
  case peek => exact (hs.dbg (c := .dbgPeekRead) _ rfl).dbg (c := .dbgPeekWrite) _ rfl

/-- Every write of the setup space but the two that may reset the module. -/
theorem keepsLocks_busWrite {a : Nat} (hr : a ≠ 0xC0008) (hp : a ≠ 0xA0100) : KeepsLocks s (s.busWrite a v) := by
  have h0 := KeepsLocks.refl s
  have hs := h0.storeRw a v
  unfold State.busWrite
  refine .ite (.ite (keepsLocks_of_regs (after_regs (c := .attach _) s rfl)) h0) ?_
  refine .ite (hs.regs (State.ringEnableBit_regs ..)) (.ite (keepsLocks_of_regs rfl) ?_)
  refine .ite (keepsLocks_writeEvt s v a) (.ite (keepsLocks_writeNet s v a) (.ite (keepsLocks_execMigCtrl s v) ?_))
  refine .ite (keepsLocks_writePwr s v hp) (.ite (keepsLocks_writeSec s v a) (.ite (keepsLocks_writeRel s v hr) ?_))
  refine .ite (keepsLocks_of_regs (regs_of (State.cntSelect_same (.refl _ _) _ rfl))) ?_
  refine .ite (keepsLocks_of_regs (after_regs (c := .trigger v) s rfl)) (.ite (keepsLocks_writeDbg s v a) (.ite ?_ hs))
  exact keepsLocks_of_regs (regs_of (State.writeBar2_same (.refl _ _) _ _ rfl rfl rfl rfl rfl rfl rfl rfl rfl rfl rfl rfl
    rfl rfl rfl rfl rfl))

theorem keepsLocks_registerWrite {a : Nat} (hr : a ≠ 0xC0008) (hp : a ≠ 0xA0100) :
    KeepsLocks s (after (execRegisterWrite a v s) s) :=
  .ite (keepsLocks_busWrite s v hr hp) (keepsLocks_of_regs (after_regs (c := .barBadAccess true) s rfl))

end
end Sys2Proof.Machine

/-! ## Commands that keep every LOCK bit (R7) -/

namespace Sys2Proof.Machine

section
variable (s : State)

/-! ### Commands that run again -/

theorem keepsLocks_rerun (r q : Nat) (d : Rd) : KeepsLocks s (s.rerun r q d) := by
  have hr {c : Instr} (hw : c.writes.contains .regs = false) : KeepsLocks s (after (exec c s) s) :=
    keepsLocks_of_regs (after_regs s hw)
  unfold State.rerun
  split
  · exact .refl s
  refine .ite (hr (c := .post r q d) rfl) (.ite (hr (c := .reamLoad r q d) rfl) (.ite (hr (c := .reamPatch r q d) rfl) ?_))
  refine .ite (hr (c := .keyInstall r q d) rfl) (.ite (hr (c := .keyQuery r q) rfl) ?_)
  refine .ite (hr (c := .shingleProfile r q d) rfl) (.ite (hr (c := .ingest r q) rfl) ?_)
  exact .ite (keepsLocks_execRingSetup s r q d) (.ite (hr (c := .checkpoint r q) rfl) (.refl s))

theorem keepsLocks_walkEnd (k r q : Nat) (c : Cmd) (mp : Bool) (d : Rd) : KeepsLocks s (s.walkEnd k r q c mp d) := by
  unfold State.walkEnd
  split
  · exact keepsLocks_rerun s r q d
  · next g page _ =>
    have hf := keepsLocks_of_regs (regs_of (State.walkFill_same (.refl _ s) c.part g page rfl rfl rfl))
    refine .ite (hf.regs (regs_of ?_)) (hf.trans (keepsLocks_rerun _ r q d))
    exact State.walkPoison_same (.refl _ _) _ _ _ _ rfl rfl rfl rfl rfl rfl rfl rfl rfl rfl rfl

theorem keepsLocks_resumeTask (dirs : List (Nat × Rd)) (k : Nat) : KeepsLocks s (s.resumeTask dirs k) := by
  have hf := keepsLocks_of_regs (regs_of (State.freeTaskOf_same (.refl _ s) k rfl))
  have hc := hf.regs (regs_of (State.recheck_same (.refl _ _) k rfl rfl rfl rfl rfl rfl rfl rfl rfl rfl rfl))
  unfold State.resumeTask
  dsimp only
  split
  · exact .ite (hc.trans (keepsLocks_rerun _ _ _ _)) hc
  · exact hc

/-! ### Commands that store setup words -/

theorem keepsLocks_translationWalkDone (r q : Nat) (mp : Bool) (d : Rd) :
    KeepsLocks s (after (execTranslationWalkDone r q mp d s) s) := by
  unfold execTranslationWalkDone
  dsimp only [after]
  split
  · exact .refl s
  · exact .ite (keepsLocks_walkEnd s _ r q _ mp d) (.refl s)

theorem keepsLocks_faultResumeResume (r q : Nat) (dirs : List (Nat × Rd)) :
    KeepsLocks s (after (execFaultResumeResume r q dirs s) s) := by
  unfold execFaultResumeResume
  dsimp only [after]
  refine .ite (.refl s) (keepsLocks_front (.refl s) _ _ _ fun u c h => ?_)
  refine .ite (.refl s) (.ite (h.regs (State.finish_regs ..)) ?_)
  have he := h.trans (keepsLocks_each (u.namedTasks c.part (c.f 18 2)) (fun s e => s.resumeTask dirs e.2)
    (fun t e _ => keepsLocks_resumeTask t dirs e.2) u)
  refine KeepsLocks.regs (.ite he (he.regs (regs_of ?_))) (State.finish_regs ..)
  exact State.recheckHeld_same (.refl _ _) rfl rfl rfl rfl rfl rfl rfl rfl rfl rfl rfl

theorem keepsLocks_goResponse (id : Nat) : KeepsLocks s (after (execGoResponse id s) s) := by
  unfold execGoResponse
  dsimp only [after]
  split
  · exact .refl s
  · exact .ite (keepsLocks_accept1 s id) (keepsLocks_of_regs rfl)

theorem keepsLocks_ackReceive (q psn : Nat) : KeepsLocks s (after (execAckReceive q psn s) s) :=
  .ite (keepsLocks_ackTo s q psn) (.refl s)

theorem keepsLocks_nakReceive (q kind psn : Nat) : KeepsLocks s (after (execNakReceive q kind psn s) s) := by
  have ha := keepsLocks_ackTo s q (psnDiff psn 1)
  refine .ite (.refl s) (.ite (ha.regs (State.retry_regs ..)) (.ite (.ite ?_ ?_) ?_))
  · exact ha.regs (State.qpFail_regs ..)
  · exact ha.regs (State.setQp_regs ..)
  · exact ha.regs (State.qpFail_regs ..)

theorem keepsLocks_readResponse (q msg : Nat) (d : Rd) : KeepsLocks s (after (execRdmaReadResponseReceive q msg d s) s) := by
  unfold execRdmaReadResponseReceive
  dsimp only [after]
  split
  · exact .refl s
  refine .ite (.refl s) ?_
  split
  · split
    · refine KeepsLocks.trans ?_ (keepsLocks_attachBlockRead _ _ _ _ _)
      exact keepsLocks_of_regs rfl
    · exact keepsLocks_of_regs (State.modQp_regs ..)
  · exact keepsLocks_of_regs rfl

@[simp] theorem State.pldmIf_regs (sensor old new : Nat) : (s.pldmIf sensor old new).regs = s.regs :=
  regs_of (State.pldmIf_same (.refl _ _) _ _ _ rfl)

@[simp] theorem State.setPst_regs (n : Nat) : (s.setPst n).regs = s.regs :=
  regs_of (State.setPst_same (.refl _ _) _ rfl rfl)

@[simp] theorem State.measureBoot_regs : s.measureBoot.regs = s.regs :=
  regs_of (State.measureBoot_same (.refl _ _) rfl)

/-- The controller that holds the setup words runs on where the rails go. -/
@[simp] theorem State.railsOff_regs : s.railsOff.regs = s.regs := State.pldmIf_regs ..

theorem keepsLocks_execLock (a : Nat) (v : Word) : KeepsLocks s (after (execLock a v s) s) := by
  unfold execLock
  dsimp only [after]
  exact (KeepsLocks.refl s).writeLock a v

theorem keepsLocks_execPortEnable (n : Nat) : KeepsLocks s (after (execPortEnable n s) s) := by
  unfold execPortEnable
  dsimp only [after]
  exact keepsLocks_portOn (.refl s) n

theorem keepsLocks_execPortDisable (n : Nat) : KeepsLocks s (after (execPortDisable n s) s) := by
  unfold execPortDisable
  dsimp only [after]
  exact keepsLocks_portOff (.refl s) n

theorem keepsLocks_bootFallback : KeepsLocks s (after (execBootFallback s) s) := by
  refine .ite (.refl s) (KeepsLocks.regs (.ite ?boots ?fails) (State.pldmIf_regs ..))
  case boots => exact keepsLocks_of_regs (State.measureBoot_regs _)
  case fails => exact keepsLocks_of_regs ((State.setPst_regs ..).trans (State.railsOff_regs _))

theorem keepsLocks_answer (go : State → State × Nat × Bytes) (h : KeepsLocks s (go s).1) : KeepsLocks s (s.answer go) :=
  .ite (.refl s) (h.regs rfl)

theorem keepsLocks_setEffecter (id value : Nat) : KeepsLocks s (after (execSetNumericEffecterValue id value s) s) := by
  unfold execSetNumericEffecterValue
  dsimp only [after]
  refine keepsLocks_answer s _ ?_
  simp only [apply_ite Prod.fst]
  exact .ite (.refl s) (.ite (keepsLocks_execPwrCap s _) (.ite (keepsLocks_execSlew s _) (.refl s)))

end

/-- A command that can neither reset the module nor cut its power keeps every LOCK bit. -/
theorem keepsLocks_exec {c : Instr} {s t : State} (hc : c.mayColdReset = false) (h : exec c s = .next t) : KeepsLocks s t := by
  have hafter : after (exec c s) s = t := by rw [h]; rfl
  rw [← hafter]
  by_cases hw : c.writes.contains .regs = true
  swap
  · exact keepsLocks_of_regs (after_regs s (by simpa using hw))
  have hcw : (c.writes.contains .regs && !c.mayColdReset) = true := by rw [hw, hc]; rfl
  cases c with
  | ringSetup r q img => exact keepsLocks_execRingSetup s r q img
  | faultResumeResume r q dirs => exact keepsLocks_faultResumeResume s r q dirs
  | translationWalkDone r q mp d => exact keepsLocks_translationWalkDone s r q mp d
  | ringEnable n => exact keepsLocks_ringBit s n 1
  | ringDisable n => exact keepsLocks_ringBit s n 0
  | migCtrlEnableClear v => exact keepsLocks_execMigCtrl s v
  | bootFallback => exact keepsLocks_bootFallback s
  | pwrCap v => exact keepsLocks_execPwrCap s v
  | slew v => exact keepsLocks_execSlew s v
  | lock a v => exact keepsLocks_execLock s a v
  | goResponse id => exact keepsLocks_goResponse s id
  | portEnable n => exact keepsLocks_execPortEnable s n
  | portDisable n => exact keepsLocks_execPortDisable s n
  | rdmaReadResponseReceive q msg d => exact keepsLocks_readResponse s q msg d
  | ackReceive q psn => exact keepsLocks_ackReceive s q psn
  | nakReceive q kind psn => exact keepsLocks_nakReceive s q kind psn
  | setNumericEffecterValue id value => exact keepsLocks_setEffecter s id value
  | registerWrite a v =>
    have ha : (a == 0xC0008 || a == 0xA0100) = false := hc
    obtain ⟨hr, hp⟩ := Bool.or_eq_false_iff.mp ha
    exact keepsLocks_registerWrite s v (beq_eq_false_iff_ne.mp hr) (beq_eq_false_iff_ne.mp hp)
  | _ => exact absurd hcw Bool.false_ne_true

end Sys2Proof.Machine

/-! ## Cold resets and the loss of power (R7, R332, R353 to R358) -/

namespace Sys2Proof.Machine

/-! ### What the operations of a power loss leave alone -/

section
variable (s : State)

@[simp] theorem State.breakCommit_regs : s.breakCommit.regs = s.regs :=
  regs_of (State.breakCommit_same (.refl _ _) rfl rfl)

@[simp] theorem State.breakCommit_rel : s.breakCommit.rel = s.rel :=
  rel_of (State.breakCommit_same (.refl _ _) rfl rfl)

@[simp] theorem State.setPst_rel (n : Nat) : (s.setPst n).rel = s.rel :=
  rel_of (State.setPst_same (.refl _ _) _ rfl rfl)

@[simp] theorem State.setFlush_regs (n : Nat) : (s.setFlush n).regs = s.regs :=
  regs_of (State.setFlush_same (.refl _ _) _ rfl rfl)

@[simp] theorem State.pldmCross_regs (i old new : Nat) (ths : List Nat) : (s.pldmCross i old new ths).regs = s.regs :=
  regs_of (State.pldmCross_same (.refl _ _) _ _ _ _ rfl)

@[simp] theorem State.pldmCross_rel (i old new : Nat) (ths : List Nat) : (s.pldmCross i old new ths).rel = s.rel :=
  rel_of (State.pldmCross_same (.refl _ _) _ _ _ _ rfl)

@[simp] theorem State.makeWrites_regs (k : Nat) : (s.makeWrites k).regs = s.regs :=
  regs_of (State.makeWrites_same (.refl _ _) _ rfl rfl rfl rfl rfl rfl rfl rfl rfl rfl rfl)

@[simp] theorem State.flushRecs_regs : s.flushRecs.regs = s.regs :=
  regs_of (State.flushRecs_same (.refl _ _) rfl rfl rfl rfl rfl)

@[simp] theorem State.withVault_regs (v : Vault) : (s.withVault v).regs = s.regs :=
  regs_of (State.withVault_same (.refl _ _) _ rfl)

@[simp] theorem State.causeHolds_regs (c : Nat) (b : Bool) : (s.causeHolds c b).regs = s.regs :=
  regs_of (State.causeHolds_same (.refl _ _) _ _ rfl rfl rfl rfl rfl rfl rfl rfl rfl rfl)

/-! ### A loss of power keeps the setup words -/

@[simp] theorem State.powerFail_regs (cause : Nat) : (s.powerFail cause).regs = s.regs := by
  unfold State.powerFail
  split
  · rfl
  · simp [State.each_inv (·.regs) _ _ State.makeWrites_regs]

@[simp] theorem State.hardTrip_regs : s.hardTrip.regs = s.regs := by
  unfold State.hardTrip
  split
  · rfl
  · simp

@[simp] theorem State.thermTrip_regs : s.thermTrip.regs = s.regs := s.powerFail_regs 5

@[simp] theorem State.lower_regs (floor g : Nat) : (s.lower floor g).regs = s.regs :=
  regs_of (State.lower_same (.refl _ _) _ _ rfl)

@[simp] theorem State.setHot_regs (i : Nat) (enter leave : Bool) : (s.setHot i enter leave).regs = s.regs :=
  regs_of (State.setHot_same (.refl _ _) _ _ _ rfl)

theorem State.ite_regs {c : Prop} [Decidable c] {t u : State} (ht : t.regs = s.regs) (hu : u.regs = s.regs) :
    (if c then t else u).regs = s.regs := by
  split <;> assumption

@[simp] theorem State.dramActs_regs (g die old : Nat) : (s.dramActs g die old).regs = s.regs := by
  unfold State.dramActs
  refine s.ite_regs (State.thermTrip_regs s) ?_
  refine (State.ite_regs _ (State.lower_regs ..) rfl).trans ((State.causeHolds_regs ..).trans ?_)
  exact s.ite_regs (State.causeAll_regs ..) rfl

@[simp] theorem State.cdieActs_regs (t temp : Nat) : (s.cdieActs t temp).regs = s.regs := by
  unfold State.cdieActs
  refine s.ite_regs (State.hardTrip_regs s) (s.ite_regs (State.thermTrip_regs s) ?_)
  exact (State.ite_regs _ (State.lower_regs ..) rfl).trans ((State.causeHolds_regs ..).trans (State.setHot_regs ..))

@[simp] theorem State.pdieActs_regs (i temp : Nat) : (s.pdieActs i temp).regs = s.regs :=
  s.ite_regs (State.thermTrip_regs s) ((State.causeHolds_regs ..).trans (State.setHot_regs ..))

@[simp] theorem State.regActs_regs (i temp : Nat) : (s.regActs i temp).regs = s.regs :=
  s.ite_regs (State.thermTrip_regs s) ((State.causeHolds_regs ..).trans (State.setHot_regs ..))

/-! ### A cold reset -/

/-- The setup words of manufacture, and this count of cold resets. -/
def Booted (b : Nat) (t : State) : Prop := t.regs = State.reset.regs ∧ t.rel.boots = b

variable {b : Nat} {s}

theorem Booted.of_same {t : State} (h : Booted b s) (k : Same (fun f => f == .regs || f == .rel) s t) : Booted b t :=
  ⟨(k.regs rfl).trans h.1, (congrArg Rel.boots (k.rel rfl)).trans h.2⟩

theorem Booted.ite {c : Prop} [Decidable c] {t : State} (h : Booted b s) (k : Booted b t) :
    Booted b (if c then s else t) := by
  split <;> assumption

theorem Booted.pldmIf (h : Booted b s) (i old new : Nat) : Booted b (s.pldmIf i old new) :=
  h.of_same (State.pldmIf_same (.refl _ _) _ _ _ rfl)

theorem Booted.bankEvent (h : Booted b s) (i v src : Nat) : Booted b ((s.pldm i v).raise src) :=
  h.of_same (State.raise_same (State.pldm_same (.refl _ _) _ _ rfl) _ rfl rfl rfl rfl rfl rfl)

theorem Booted.bootFrom (h : Booted b s) (slot : Nat) : Booted b (s.bootFrom slot) :=
  h.of_same (State.bootFrom_same (.refl _ _) _ rfl rfl)

theorem Booted.wake (h : Booted b s) (gs : List Nat) : Booted b (if s.pwr.st = 2 then s.askWake gs else s) :=
  .ite (h.of_same (State.askWake_same (.refl _ _) _ rfl rfl)) h

theorem Booted.retestT1 (h : Booted b s) (lost : List (Nat × Nat)) : Booted b (s.retestT1 lost) :=
  h.of_same (State.retestT1_same (.refl _ _) _ rfl rfl rfl rfl rfl rfl rfl)

theorem State.kept_boots (s : State) : s.breakCommit.kept.rel.boots = s.rel.boots := by
  change s.breakCommit.rel.boots = s.rel.boots
  exact congrArg Rel.boots (State.breakCommit_rel s)

/-- A cold reset counts, and every setup word is as manufactured. -/
theorem State.coldFrom_booted (s : State) (slot : Nat) : Booted ((s.rel.boots + 1) % 2 ^ 32) (s.coldFrom slot) := by
  unfold State.coldFrom
  dsimp only [State.freeVal]
  refine Booted.retestT1 (Booted.wake (.pldmIf (.pldmIf (.bootFrom (.ite ?_ (.bankEvent ?_ _ _ _)) _) _ _ _) _ _ _) _) _
  all_goals
    refine .pldmIf (.pldmIf ?_ _ _ _) _ _ _
    exact ⟨rfl, congrArg (fun n => (n + 1) % 2 ^ 32) s.kept_boots⟩

theorem State.coldBoot_booted (s : State) : Booted ((s.rel.boots + 1) % 2 ^ 32) s.coldBoot := s.coldFrom_booted _

end

/-- After a cold reset every LOCK bit is clear. -/
theorem Booted.unlocked {b a : Nat} {t : State} (h : Booted b t) (ha : a ∈ lockRegs) : t.locked a = false := by
  rw [State.locked_congr h.1]
  fin_cases ha <;> decide

theorem State.coldBoot_boots (s : State) : s.coldBoot.rel.boots ≠ s.rel.boots := by
  rw [s.coldBoot_booted.2]
  omega

/-! ### Commands that may reset the module -/

/-- The setup words stand, or a cold reset has come. -/
def KeptOrReset (s t : State) : Prop := t.regs = s.regs ∨ t.rel.boots ≠ s.rel.boots

section
variable {s t u : State}

theorem KeptOrReset.refl (s : State) : KeptOrReset s s := .inl rfl

theorem KeptOrReset.ite {c : Prop} [Decidable c] (h : KeptOrReset s t) (k : KeptOrReset s u) :
    KeptOrReset s (if c then t else u) := by
  split <;> assumption

theorem KeptOrReset.coldBoot (h : t.rel.boots = s.rel.boots) : KeptOrReset s t.coldBoot :=
  .inr (h ▸ t.coldBoot_boots)

/-- After a flush: STANDBY, SAFE, or a cold reset. -/
theorem KeptOrReset.afterFlush (h : t.regs = s.regs) (hb : t.rel.boots = s.rel.boots) : KeptOrReset s t.afterFlush :=
  have hp (n : Nat) : KeptOrReset s (t.setPst n) := .inl ((State.setPst_regs ..).trans h)
  .ite (.inl h) (.ite (.ite (hp 1) (.coldBoot hb)) (hp 5))

theorem KeptOrReset.locked (h : KeptOrReset s t) {a : Nat} (hl : s.locked a = true) :
    t.locked a = true ∨ t.rel.boots ≠ s.rel.boots :=
  h.imp_left fun e => (State.locked_congr e a).trans hl

end

section
variable (s : State)

theorem keptOrReset_coldReset (v : Word) : KeptOrReset s (after (execColdReset v s) s) :=
  .ite (.coldBoot rfl) (.refl s)

theorem keptOrReset_standbyEntry (feed sel : Nat) : KeptOrReset s (after (execStandbyEntry feed sel s) s) :=
  .ite (.refl s) (.ite (.inl (State.setPst_regs ..)) (.coldBoot (congrArg Rel.boots (State.setPst_rel ..))))

theorem keptOrReset_modResetLow (us : Nat) : KeptOrReset s (after (execModResetLow us s) s) := by
  refine .ite (.ite (.inl (State.powerFail_regs ..)) (.inl rfl)) (.ite (.inl ?_) (.ite (.inl (State.setPst_regs ..)) (.inl rfl)))
  exact (State.setPst_regs ..).trans (State.railsOff_regs _)

theorem keptOrReset_modResetRelease : KeptOrReset s (after (execModResetRelease s) s) :=
  .ite (.coldBoot rfl) (.inl rfl)

theorem keptOrReset_safeInputStable : KeptOrReset s (after (execSafeInputStable s) s) :=
  .ite (.coldBoot rfl) (.refl s)

theorem keptOrReset_flushEndDurable : KeptOrReset s (after (execFlushEndDurable s) s) :=
  .ite (.refl s) (.afterFlush rfl rfl)

theorem keptOrReset_inputPowerSample (vin iin : Nat) : KeptOrReset s (after (execInputPowerSample vin iin s) s) := by
  have h := State.pldmCross_regs s 2 s.pwr.iin iin [9001]
  have hb := congrArg Rel.boots (State.pldmCross_rel s 2 s.pwr.iin iin [9001])
  have hf (t : State) (cause : Nat) (ht : t.regs = s.regs) : KeptOrReset s (t.powerFail cause) :=
    .inl ((State.powerFail_regs ..).trans ht)
  refine .ite (.refl s) (.ite (.ite (.afterFlush h hb) (.inl h)) (.ite (.inl ((State.hardTrip_regs _).trans h)) ?_))
  exact .ite (hf _ 1 h) (.ite (hf _ 3 h) (.ite (hf _ 2 h) (.inl h)))

/-- FLUSH_CLEAR that meets a loss of power of its cycle: no reset. -/
theorem flushClear_regs (v : Word) (cause : Nat) : (after (execFlushClear v cause s) s).regs = s.regs := by
  unfold execFlushClear
  dsimp only [after]
  have hc : (if v.getLsbD 8 = true then s.setFlush 0 else s).regs = s.regs := s.ite_regs (State.setFlush_regs ..) rfl
  refine s.ite_regs ((State.hardTrip_regs _).trans hc) (s.ite_regs ((State.powerFail_regs ..).trans hc) hc)

theorem dramSensorReading_regs (g die temp : Nat) : (after (execDramSensorReading g die temp s) s).regs = s.regs := by
  refine s.ite_regs rfl (s.ite_regs ((State.dramActs_regs ..).trans ?_) ?_)
  all_goals exact State.pldmCross_regs ..

theorem junctionSensorReading_regs (k i temp : Nat) : (after (execJunctionSensorReading k i temp s) s).regs = s.regs := by
  refine s.ite_regs rfl (s.ite_regs (s.ite_regs ((State.cdieActs_regs ..).trans ?_) ?_) ?_)
  iterate 2 exact State.pldmCross_regs ..
  refine s.ite_regs (s.ite_regs ((State.pdieActs_regs ..).trans ?_) ?_) ?_
  iterate 2 exact State.pldmCross_regs ..
  refine s.ite_regs (s.ite_regs ((State.regActs_regs ..).trans ?_) ?_) rfl
  all_goals exact State.pldmCross_regs ..

theorem coolantSensorReading_regs (i o f : Nat) : (after (execCoolantSensorReading i o f s) s).regs = s.regs := by
  have h := (State.pldmCross_regs (s.pldmCross 15 s.pwr.inlet i [46]) 16 s.pwr.outlet o [65]).trans
    (State.pldmCross_regs s 15 s.pwr.inlet i [46])
  have h := (State.pldmCross_regs _ 17 s.pwr.flow f [20, 10]).trans h
  refine s.ite_regs rfl (s.ite_regs h (s.ite_regs ((State.thermTrip_regs _).trans h) ?_))
  exact (State.causeHolds_regs ..).trans ((State.setHot_regs ..).trans ((State.setHot_regs ..).trans h))

theorem keptOrReset_registerWrite {a : Nat} (v : Word) (h : a = 0xC0008 ∨ a = 0xA0100) :
    KeptOrReset s (after (execRegisterWrite a v s) s) := by
  unfold execRegisterWrite
  dsimp only [after]
  rcases h with rfl | rfl
  · rw [if_pos (by decide)]
    simpa [State.busWrite, State.writeRel, migCtrl] using keptOrReset_coldReset s v
  · rw [if_pos (by decide)]
    simpa [State.busWrite, State.writePwr, migCtrl] using .inl (flushClear_regs s v 0)

end

/-- No command clears a LOCK bit, unless a cold reset comes with it. -/
theorem locked_or_reset {c : Instr} {s t : State} {a : Nat} (ha : a ∈ lockRegs) (hl : s.locked a = true)
    (h : exec c s = .next t) : t.locked a = true ∨ t.rel.boots ≠ s.rel.boots := by
  cases hc : c.mayColdReset with
  | false => exact .inl (keepsLocks_exec hc h a ha hl)
  | true =>
    have hafter : after (exec c s) s = t := by rw [h]; rfl
    rw [← hafter]
    refine KeptOrReset.locked ?_ hl
    clear h hafter
    cases c with
    | coldReset v => exact keptOrReset_coldReset s v
    | standbyEntry feed sel => exact keptOrReset_standbyEntry s feed sel
    | modResetLow us => exact keptOrReset_modResetLow s us
    | modResetRelease => exact keptOrReset_modResetRelease s
    | hardwareTrip => exact .inl (State.hardTrip_regs s)
    | safeInputStable => exact keptOrReset_safeInputStable s
    | inputPowerSample vin iin => exact keptOrReset_inputPowerSample s vin iin
    | flushEndDurable => exact keptOrReset_flushEndDurable s
    | dramSensorReading g die temp => exact .inl (dramSensorReading_regs s g die temp)
    | junctionSensorReading k i temp => exact .inl (junctionSensorReading_regs s k i temp)
    | coolantSensorReading i o f => exact .inl (coolantSensorReading_regs s i o f)
    | flushClear v cause => exact .inl (flushClear_regs s v cause)
    | registerWrite a v =>
      have hw : (a == 0xC0008 || a == 0xA0100) = true := hc
      exact keptOrReset_registerWrite s v (by simpa using hw)
    | _ => exact absurd hc Bool.false_ne_true

/-- A write to a register that holds a LOCK bit. -/
theorem State.busWrite_lock (s : State) {a : Nat} (v : Word) (ha : a ∈ lockRegs) : s.busWrite a v = s.writeLock a v := by
  simp only [lockRegs, List.mem_cons, List.not_mem_nil, or_false] at ha
  rcases ha with rfl | rfl | rfl
  · simp [State.busWrite, State.writeNet]
  · simp [State.busWrite, State.writePwr, migCtrl]
  · simp [State.busWrite, State.writeSec, migCtrl]

theorem aligned_of_mem_lockRegs {a : Nat} (ha : a ∈ lockRegs) : a % 4 = 0 := by
  fin_cases ha <;> rfl

/-- Both ways to write such a register. -/
theorem lock_writes (s : State) {a : Nat} (v : Word) (ha : a ∈ lockRegs) :
    (∃ t, exec (.registerWrite a v) s = .next t ∧ t.locked a = (s.locked a || v.getLsbD 0))
      ∧ ∃ t, exec (.lock a v) s = .next t ∧ t.locked a = (s.locked a || v.getLsbD 0) := by
  refine ⟨⟨_, rfl, ?_⟩, _, rfl, s.writeLock_locked v ha⟩
  rw [if_pos (aligned_of_mem_lockRegs ha), s.busWrite_lock v ha]
  exact s.writeLock_locked v ha

/-- Settles O58: `lock_writes` for the writes, `Booted.unlocked` for the cold reset, and for every other command that it
keeps the LOCK bits unless it resets the module. -/
theorem locks : Obligations.Locks := by
  unfold Obligations.Locks
  refine ⟨fun s a v ha hv => ?_, fun s a v ha hv => ?_, fun s a ha hp => ⟨_, rfl, ?_⟩,
    fun c s t a ha hl h => locked_or_reset ha hl h, fun c s t a ha hl hc h => keepsLocks_exec hc h a ha hl,
    fun s x => ⟨?_, ?_⟩⟩
  case refine_1 => simpa only [hv, Bool.or_true] using lock_writes s v ha
  case refine_2 => simpa only [hv, Bool.or_false] using lock_writes s v ha
  case refine_3 =>
    rw [if_pos (by simp [hp])]
    exact s.coldBoot_booted.unlocked ha
  case refine_4 =>
    obtain ⟨t, ht, k⟩ := exec_same (.devReset x) s
    exact ⟨t, ht, k.regs rfl⟩
  case refine_5 =>
    obtain ⟨t, ht, k⟩ := exec_same (.partReset x) s
    exact ⟨t, ht, k.regs rfl⟩

end Sys2Proof.Machine

/-! ## What a command's own read of a range moves (R182, R260, R290) -/

namespace Sys2Proof.Machine

/-- Every part of the state but those that a command's own read of a range may write: counters, traffic with hosts and
the host port. -/
def readKeeps (f : Field) : Bool := f != .ctr && f != .io && f != .hp

section
variable {u v w : State} {k p g off len : Nat}

theorem State.operAsk_readKeeps {b : Bool} (h : u.operAsk k p g off len = (b, w)) : Same readKeeps u w := by
  have := State.operAsk_same (Same.refl readKeeps u) k p g off len rfl
  rwa [h] at this

theorem State.openAsk_readKeeps {b wr : Bool} (h : u.openAsk p g off len wr = (b, w)) : Same readKeeps u w := by
  have := State.openAsk_same (Same.refl readKeeps u) p g off len wr rfl rfl
  rwa [h] at this

theorem State.operand.readKeeps (h : u.operand k p g off len v) : Same readKeeps u v := by
  obtain ⟨w, hask, hopen⟩ := h
  exact (State.operAsk_readKeeps hask).trans (State.openAsk_readKeeps hopen)

end

/-! ## Loading, patching and unloading reams (R36 to R39, R54, R55) -/

section
variable {s u v : State} {r q op : Nat} {c : Cmd} {img : Rd}

/-- A ream command whose image selects no profile that its partition may not use goes on as any other (Table 10.2). -/
theorem State.passes.imageFront (h : s.passes r q op c u) (hm : s.modeFree u c img) (go : State → Cmd → State) :
    s.imageFront (cmdKey r q) op img go = go u c := by
  have hfront := h.front go
  obtain ⟨hcmd, rfl, rfl, hph, hturn, hop, -⟩ := h
  obtain ⟨hstart, -⟩ := hm
  have hfresh : s.fresh? (cmdKey c.ring c.seq) op = some c := by simp [State.fresh?, hcmd, hph, hturn, hop]
  simp [State.imageFront, hfresh, hstart, hfront]

theorem State.profileDenied_congr (h : v.parts = u.parts) (p : Nat) : v.profileDenied p img = u.profileDenied p img := by
  simp only [State.profileDenied, State.part, h]

theorem State.anyTest_congr (ht : v.tiles = u.tiles) (hf : v.fuse = u.fuse) : v.anyTest = u.anyTest := by
  simp only [State.anyTest, State.tileList, State.tile, ht, hf]

/-- The owner of the ream that is about to be loaded (R36). -/
def State.setOwner (s : State) (p : Nat) : State := { s with ream := { s.ream with owner := p } }

/-- A ream command is in progress (R36). -/
def State.setJob (s : State) (j : ReamJob) : State := { s with ream := { s.ream with job := some j } }

/-- The load that command `k` begins with a checked image, `b` its bytes (R38). -/
def loadJob (k : Nat) (g : Img) (b : Bytes) : ReamJob :=
  { cmd := k, kind := 0, hdr := g.hdr, recs := g.recs, digest := sm3 b, reserve := g.t0Bytes / 2 ^ 20 }

/-- The patch that command `k` begins, its records copied as `cs` (R55). -/
def patchJob (k : Nat) (g : Img) (cs : List CopyRec) (b : Bytes) : ReamJob :=
  { cmd := k, kind := 1, hdr := g.hdr, recs := g.recs, own := g.own.map (·.2), copy := cs
    move := ((g.own.map (·.2)).find? (·.type == 10)).map (·.body), digest := sm3 b }

/-- A patch's records in the patch reserve and in the tier-1 copy (R38, R55). -/
def State.patchCopies (s : State) (g : Img) (raw cod : Nat) : List CopyRec × State :=
  ((s.beaterCount raw cod).copyRecs (g.own.map (·.2))).keepCopies s.ream.act.copy (g.own.map (·.2))

/-- Copying a patch's records leaves the front end and the ream alone. -/
theorem State.patchCopies_same (s : State) (g : Img) (raw cod : Nat) :
    Same (fun f => f == .fe || f == .ream) s (s.patchCopies g raw cod).2 :=
  State.keepCopies_same (State.copyRecs_same (State.beaterCount_same (Same.refl _ s) raw cod rfl) _ rfl) _ _
    rfl rfl rfl rfl rfl rfl rfl rfl rfl

/-- REAM_LOAD goes on with the image it has read (R37). -/
def State.loadRead (s : State) (k : Nat) (c : Cmd) (rd : Rd) : State :=
  match s.checkLoad c.part (c.f 32 4) c.coded rd with
  | .bad rs i b => s.rejectImage k rs i b
  | .good g raw cod => (((s.beaterCount raw cod).setPhase k .running).setOwner c.part).setJob (loadJob k g rd.data)

/-- REAM_PATCH goes on with the image it has read (R37, R55). -/
def State.patchRead (s : State) (k : Nat) (c : Cmd) (rd : Rd) : State :=
  match s.checkPatch (c.f 32 4) c.coded rd with
  | .bad rs i b => s.rejectImage k rs i b
  | .good g raw cod =>
    ((s.patchCopies g raw cod).2.setPhase k .running).setJob (patchJob k g (s.patchCopies g raw cod).1 rd.data)

theorem exec_reamLoad (h : s.passes r q 0x10 c u) (hm : s.modeFree u c img)
    (ho : u.operand (cmdKey r q) c.part (c.f 16 1) (c.f 24 6) (c.f 32 4) v) (hj : u.ream.job = none)
    (hr : u.ream.resident = false) (ht : u.anyTest = false) :
    exec (.reamLoad r q img) s = .next (v.loadRead (cmdKey r q) c (u.imageRead c img)) := by
  have hrun := h.imageFront hm
  obtain ⟨-, rfl, rfl, -⟩ := h
  obtain ⟨w, hask, hopen⟩ := ho
  obtain ⟨-, hden⟩ := hm
  have kw := State.operAsk_readKeeps hask
  rw [← State.profileDenied_congr (kw.parts rfl)] at hden
  rw [← kw.ream rfl] at hj hr
  rw [← State.anyTest_congr (kw.tiles rfl) (kw.fuse rfl)] at ht
  unfold State.imageRead at hden ⊢
  change execReamLoad _ _ _ _ = _
  simp only [execReamLoad, hrun, State.imageGet, State.imageAsk, hask, hopen, hden, hj, hr, ht, Bool.not_true,
    Bool.false_eq_true, if_false, Option.isSome_none, Bool.or_false]
  rfl

theorem exec_reamPatch (h : s.passes r q 0x11 c u) (hm : s.modeFree u c img)
    (ho : u.operand (cmdKey r q) c.part (c.f 16 1) (c.f 24 6) (c.f 32 4) v) (hj : u.ream.job = none)
    (hold : u.ream.old = none) (hr : u.ream.resident = true) (howner : c.part = u.ream.owner) :
    exec (.reamPatch r q img) s = .next (v.patchRead (cmdKey r q) c (u.imageRead c img)) := by
  have hrun := h.imageFront hm
  obtain ⟨-, rfl, rfl, -⟩ := h
  obtain ⟨w, hask, hopen⟩ := ho
  obtain ⟨-, hden⟩ := hm
  have kw := State.operAsk_readKeeps hask
  rw [← State.profileDenied_congr (kw.parts rfl)] at hden
  rw [← kw.ream rfl] at hj hr hold howner
  have hown : (c.part != w.ream.owner) = false := by simp [howner]
  unfold State.imageRead at hden ⊢
  change execReamPatch _ _ _ _ = _
  simp only [execReamPatch, hrun, State.imageGet, State.imageAsk, hask, hopen, hden, hj, hold, hr, hown,
    Bool.not_true, Bool.false_eq_true, if_false, Option.isSome_none, Bool.or_false]
  rfl

/-- The command stands in the state in which its image has been read, and runs from then on. -/
theorem State.passes.running (h : s.passes r q op c u) {t : State} (ht : t.fe.cmds = u.fe.cmds) :
    (t.setPhase (cmdKey r q) .running).isRunning (cmdKey r q) := by
  obtain ⟨l, hl⟩ := h.cmd
  exact State.setPhase_running (c := { c with segs := l }) (by rw [State.cmd?, ht]; exact hl)

theorem State.rejectImage_ream (s : State) (k rs i : Nat) (b : Bool) :
    (s.rejectImage k rs i b).ream = { s.ream with rejectInfo := rejectInfo rs i } := by
  cases b <;> simp [State.rejectImage]

/-- A refused image completes its command with REAM_INVALID and the reason (R37). -/
theorem State.passes.rejected (h : s.passes r q op c u) (hv : v.fe = u.fe) (rs i : Nat) (b : Bool) :
    (v.rejectImage (cmdKey r q) rs i b).completed c stReamInvalid (rejectInfo rs i) 0 := by
  refine h.done ?_ _ _ _
  cases b <;> simp [hv]

theorem State.beaterCount_readKeeps (s : State) (raw cod : Nat) : Same readKeeps s (s.beaterCount raw cod) :=
  State.beaterCount_same (Same.refl _ _) raw cod rfl

end

/-- An unload waits behind the ream command in progress (R36). -/
def State.addUnload (s : State) (k : Nat) : State := { s with ream := { s.ream with unloads := s.ream.unloads ++ [k] } }

/-- REAM_UNLOAD of the owner runs, at once or behind the ream command in progress (R36). -/
theorem exec_reamUnload {s u : State} {r q : Nat} {c : Cmd} (h : s.passes r q 0x12 c u) (ho : c.part = u.ream.owner) :
    exec (.reamUnload r q) s = .next (if u.ream.job.isSome then (u.setPhase (cmdKey r q) .running).addUnload (cmdKey r q)
      else (u.setPhase (cmdKey r q) .running).setJob { cmd := cmdKey r q, kind := 2 }) := by
  have hown : (c.part != u.ream.owner) = false := by simp [ho]
  rw [← State.setPhase_ream u (cmdKey r q) .running]
  change execReamUnload _ _ _ = _
  simp only [execReamUnload, h.front, hown, Bool.false_eq_true, if_false]
  rfl

/-! ### The end of a load (R38) -/

/-- The records of a load are copied and its tables installed. -/
def State.loadTables (s : State) (j : ReamJob) : State :=
  let w := (s.copyRecs j.recs).keepCopies [] j.recs
  { w.2 with
    ream := w.2.sweepZero { j with copy := w.1 }
    gat := { dirtyPeak := w.2.gat.dirtyPeak }
    rel := { w.2.rel with vault := { w.2.rel.vault with step := none, base := none }, passed := [] } }

/-- The tiles take up service: keys are drawn, pinned rows copied, bounds set, and every group is asked to wake. -/
def State.loadTiles (s : State) : State :=
  let s := (s.drawKeys.pinTables.serveTiles).setBounds.useBounds
  s.askWake s.groups

/-- No group has been idle, and the load is measured (R342). -/
def State.loadMeasured (s : State) (j : ReamJob) : State :=
  ({ s with ream := { s.ream with idle := s.groups.map fun g => (g, 0) } }).extend 6 evLoad (natLe 2 0) j.digest

theorem exec_reamLoadCopyDone {s : State} {j : ReamJob} (hj : s.ream.job = some j) (hk : j.kind = 0)
    (hl : s.loadLines j = []) :
    exec .reamLoadCopyDone s = .next ((((s.loadTables j).loadTiles.loadMeasured j).finish j.cmd stOk 0).jobDone) := by
  change execReamLoadCopyDone _ = _
  simp only [execReamLoadCopyDone, hj, hk, hl, bne_self_eq_false, List.isEmpty_nil, Bool.not_true, Bool.false_eq_true,
    if_false]
  rfl

theorem State.loadTables_fe (s : State) (j : ReamJob) : (s.loadTables j).fe = s.fe := by
  have hcopies := State.keepCopies_same (State.copyRecs_same (Same.refl (fun f => f == .fe) s) j.recs rfl) [] j.recs
    rfl rfl rfl rfl rfl rfl rfl rfl rfl
  exact hcopies.fe rfl

/-- Taking up service leaves the front end and the ream alone. -/
theorem State.loadTiles_same (s : State) : Same (fun f => f == .fe || f == .ream) s s.loadTiles :=
  State.askWake_same (State.useBounds_same (State.setBounds_same (State.serveTiles_same (State.pinTables_same
    (State.drawKeys_same (Same.refl _ s) rfl rfl rfl rfl) rfl rfl rfl) rfl) rfl) rfl) _ rfl rfl

/-- The tables of a load are in force as sweep 0, with admission open (R32, R38). -/
structure ReamJob.InForce (j : ReamJob) (m : Ream) : Prop where
  resident : m.resident = true
  admission : m.admission = true
  sweeps : m.sweeps = 0
  interval : m.interval = 0
  hdr : m.hdr = j.hdr
  recs : m.recs = ctlRecs j.recs
  num : m.act.num = 0
  actRecs : m.act.recs = verRecs j.recs

theorem ReamJob.InForce.idle {j : ReamJob} {m : Ream} (h : j.InForce m) (i : FMap Nat) :
    j.InForce { m with idle := i } :=
  ⟨h.resident, h.admission, h.sweeps, h.interval, h.hdr, h.recs, h.num, h.actRecs⟩

theorem State.loadMeasured_ream (s : State) (j : ReamJob) :
    (s.loadMeasured j).ream = { s.ream with idle := s.groups.map fun g => (g, 0) } := rfl

theorem State.sweepZero_inForce (s : State) (j : ReamJob) : j.InForce (s.sweepZero j) := by
  constructor <;> rfl

theorem State.loadMeasured_inForce (s : State) (j : ReamJob) :
    j.InForce ((s.loadTables j).loadTiles.loadMeasured j).ream := by
  rw [State.loadMeasured_ream, (s.loadTables j).loadTiles_same.ream rfl]
  have h := State.sweepZero_inForce ((s.copyRecs j.recs).keepCopies [] j.recs).2
    { j with copy := ((s.copyRecs j.recs).keepCopies [] j.recs).1 }
  have hm : j.InForce (s.loadTables j).ream :=
    ⟨h.resident, h.admission, h.sweeps, h.interval, h.hdr, h.recs, h.num, h.actRecs⟩
  exact hm.idle _

/-- With a ream resident, the end of its command changes the job in progress and the unloads that wait, nothing else. -/
theorem State.jobDone_resident {s : State} (h : s.ream.resident = true) :
    ∃ o us, s.jobDone = { s with ream := { s.ream with job := o, unloads := us } } := by
  cases hu : s.ream.unloads with
  | nil => exact ⟨none, [], by simp [State.jobDone, h, hu]⟩
  | cons k ks => exact ⟨some { cmd := k, kind := 2 }, ks, by simp [State.jobDone, h, hu]⟩

/-- `completed` asks of the ream only whether it is degraded. -/
theorem State.completed_ream {s : State} {c : Cmd} {st r f : Nat} {m : Ream} (hm : m.degraded = s.ream.degraded)
    (h : s.completed c st r f) : ({ s with ream := m }).completed c st r f := by
  unfold State.completed State.degradedFlag at *
  rw [show ({ s with ream := m } : State).ream.degraded = s.ream.degraded from hm]
  exact h

/-- Settles O10: the image is read and judged (`exec_reamLoad`), and the load ends with its tables in force
(`exec_reamLoadCopyDone`). -/
theorem reamLoading : Obligations.ReamLoading := by
  unfold Obligations.ReamLoading
  refine ⟨fun s u v r q raw cod c img g h hm ho hj hr ht hv => ?_,
    fun s u v r q rs i b c img h hm ho hj hr ht hv => ?_, fun s j c hj hk hl hc hkey => ?_⟩
  case refine_1 =>
    refine ⟨_, loadJob (cmdKey r q) g (u.imageRead c img).data, exec_reamLoad h hm ho hj hr ht, ?_⟩
    simp only [State.loadRead, hv]
    have hread := ho.readKeeps.trans (v.beaterCount_readKeeps raw cod)
    have hrun := h.running (congrArg (·.cmds) (hread.fe rfl))
    refine ⟨State.isRunning_fe rfl hrun, rfl, rfl, rfl, rfl, rfl, rfl, ?_⟩
    simp [State.setJob, State.setOwner, hread.ream rfl, hr]
  case refine_2 =>
    refine ⟨_, exec_reamLoad h hm ho hj hr ht, ?_⟩
    simp only [State.loadRead, hv]
    refine ⟨h.rejected (ho.readKeeps.fe rfl) _ _ _, ?_⟩
    simp [State.rejectImage_ream, ho.readKeeps.ream rfl, hr]
  case refine_3 =>
    refine ⟨_, exec_reamLoadCopyDone hj hk hl, ?_⟩
    generalize hw : (s.loadTables j).loadTiles.loadMeasured j = w
    have hin : j.InForce (w.finish j.cmd stOk 0).ream := by
      rw [State.finish_ream, ← hw]
      exact s.loadMeasured_inForce j
    have hcmd : w.cmd? j.cmd = some c := by
      rw [← hc, ← hw, State.cmd?, State.cmd?]
      exact congrArg (fun x : Front => FMap.find x.cmds j.cmd)
        (((s.loadTables j).loadTiles_same.fe rfl).trans (s.loadTables_fe j))
    obtain ⟨o, us, hdone⟩ := State.jobDone_resident hin.resident
    rw [hdone]
    exact ⟨hin.resident, hin.admission, hin.sweeps, hin.interval, hin.hdr, hin.recs, hin.num, hin.actRecs,
      State.completed_ream rfl (State.finish_completed _ _ _ hcmd hkey.symm)⟩

/-- Settles O11: the patch is read and judged (`exec_reamPatch`), the unload begins or waits (`exec_reamUnload`). -/
theorem reamPatchUnload : Obligations.ReamPatchUnload := by
  unfold Obligations.ReamPatchUnload
  refine ⟨fun s u v r q raw cod c img g h hm ho hj hold hr hown hv => ?_,
    fun s u v r q rs i b c img h hm ho hj hold hr hown hv => ?_, fun s u r q c h hown hj => ?_,
    fun s u r q c h hown hj => ?_⟩
  case refine_1 =>
    refine ⟨_, patchJob (cmdKey r q) g (v.patchCopies g raw cod).1 (u.imageRead c img).data,
      exec_reamPatch h hm ho hj hold hr hown, ?_⟩
    simp only [State.patchRead, hv]
    have hcopies := v.patchCopies_same g raw cod
    have hream := (hcopies.ream rfl).trans (ho.readKeeps.ream rfl)
    have hrun := h.running (congrArg (·.cmds) ((hcopies.fe rfl).trans (ho.readKeeps.fe rfl)))
    refine ⟨State.isRunning_fe rfl hrun, rfl, rfl, rfl, rfl, rfl, ?_⟩
    simp [State.setJob, hream]
  case refine_2 =>
    refine ⟨_, exec_reamPatch h hm ho hj hold hr hown, ?_⟩
    simp only [State.patchRead, hv]
    refine ⟨h.rejected (ho.readKeeps.fe rfl) _ _ _, ?_⟩
    simp [State.rejectImage_ream, ho.readKeeps.ream rfl]
  case refine_3 =>
    refine ⟨_, { cmd := cmdKey r q, kind := 2 }, exec_reamUnload h hown, ?_⟩
    rw [hj]
    exact ⟨State.isRunning_fe rfl (h.running rfl), rfl, rfl, rfl, by simp [State.setJob]⟩
  case refine_4 =>
    refine ⟨_, exec_reamUnload h hown, ?_⟩
    rw [if_pos (Option.isSome_iff_ne_none.2 hj)]
    exact ⟨State.isRunning_fe rfl (h.running rfl), by simp [State.addUnload], by simp [State.addUnload]⟩

end Sys2Proof.Machine

/-! ## The end of a stage move, and calender slices (R58, R316, R317) -/

namespace Sys2Proof.Machine

section
variable {s : State} {n : Nat} {crc : Word}

/-- The slice of a tile is over, and it has displaced the array's active block (R315). -/
def State.sliceOver (s : State) (n : Nat) : State := s.modTile n fun x => { x with slice := false, active := none }

/-- The slice that runs ends once the instructions queued before it are done (R307): its code is judged. -/
theorem exec_calenderSliceEnd (hs : (s.tile n).slice = true) (hf : (s.tile n).fills = []) (hv : (s.tile n).vec = []) :
    exec (.calenderSliceEnd n crc) s = .next (
      if crc = Config.calenderCode (s.tilePack n).1 (s.tile n).pattern
      then (s.sliceOver n).slicePass n (s.tile n).pattern (s.tilePack n).2
      else (s.sliceOver n).sliceFail n (s.tile n).pattern) := by
  change execCalenderSliceEnd _ _ _ = _
  simp only [execCalenderSliceEnd, hs, hf, hv, List.isEmpty_nil, Bool.not_true, Bool.or_false, Bool.false_eq_true,
    if_false]
  rfl

/-- A slice that passes and is not the last of its round: the next pattern follows. -/
theorem State.slicePass_next {p len : Nat} (h : p + 1 < len) :
    (s.slicePass n p len).tile n = { s.tile n with pattern := p + 1 }
      ∧ (s.slicePass n p len).rel.suspect = s.rel.suspect := by
  simp only [State.slicePass, h, if_true]
  exact ⟨State.modTile_tile _ _ _, rfl⟩

/-- A slice that passes and is the last of its round: the round is complete and is counted. -/
theorem State.slicePass_last {p len : Nat} (h : len ≤ p + 1) :
    ((s.slicePass n p len).tile n).slice = (s.tile n).slice ∧ ((s.slicePass n p len).tile n).pattern = 0
      ∧ (s.slicePass n p len).counter 0x0B6 n = s.counter 0x0B6 n + 1 := by
  have hpack (t : State) : (t.newPack n).tile n = t.tile n ∧ (t.newPack n).counter 0x0B6 n = t.counter 0x0B6 n := by
    have hk := State.newPack_same (Same.refl (fun f => f == .tiles || f == .ctr) t) n rfl
    exact ⟨by rw [State.tile, State.tile, hk.tiles rfl], by rw [State.counter, State.counter, hk.ctr rfl]⟩
  simp only [State.slicePass, Nat.not_lt.2 h, if_false]
  refine ⟨?_, ?_, ?_⟩
  · rw [State.count_tile, State.modTile_tile, (hpack _).1]
    rfl
  · rw [State.count_tile, State.modTile_tile]
  · rw [State.count_counter, State.modTile_counter, (hpack _).2]
    rfl

/-- A slice whose code does not match makes the tile suspect, beside those that were. -/
theorem State.sliceFail_suspect (s : State) (n p : Nat) :
    (s.sliceFail n p).tile n = s.tile n ∧ (s.sliceFail n p).rel.suspect = s.rel.suspect ||| 2 ^ n := by
  have hk (t : State) := State.raise_same (Same.refl (fun f => f == .tiles || f == .rel) t) (coreSource 23)
    rfl rfl rfl rfl rfl rfl
  constructor
  · rw [State.tile, State.sliceFail, (hk _).tiles rfl]
    rfl
  · rw [State.sliceFail, (hk _).rel rfl]
    rfl

end

/-- Settles O18: a slice ends with its code judged (`exec_calenderSliceEnd`), and passes or makes its tile suspect. -/
theorem moveAndCalender : Obligations.MoveAndCalender := by
  unfold Obligations.MoveAndCalender
  refine ⟨fun s m ms hm hw => ?_, fun s n crc hs hf hv hcrc hp => ?_, fun s n crc hs hf hv hcrc hp => ?_,
    fun s n crc hs hf hv hcrc => ?_⟩
  case refine_1 =>
    refine ⟨_, rfl, ?_⟩
    simp [hm, hw]
  case refine_2 =>
    refine ⟨_, exec_calenderSliceEnd hs hf hv, ?_⟩
    rw [if_pos hcrc]
    obtain ⟨htile, hsus⟩ := State.slicePass_next (s := s.sliceOver n) (n := n) hp
    rw [htile, hsus]
    simp [State.sliceOver]
  case refine_3 =>
    refine ⟨_, exec_calenderSliceEnd hs hf hv, ?_⟩
    rw [if_pos hcrc]
    obtain ⟨hslice, hpat, hctr⟩ := State.slicePass_last (s := s.sliceOver n) (n := n) hp
    rw [hslice, hpat, hctr]
    simp [State.sliceOver]
  case refine_4 =>
    refine ⟨_, exec_calenderSliceEnd hs hf hv, ?_⟩
    rw [if_neg hcrc]
    obtain ⟨htile, hsus⟩ := (s.sliceOver n).sliceFail_suspect n (s.tile n).pattern
    rw [htile, hsus]
    simp [State.sliceOver]

end Sys2Proof.Machine

/-! ## Posts, up to the admission queue (R42, R45, R213, R214, R231, R290, R382) -/

namespace Sys2Proof.Machine

/-! ### RDMA READs of a range of a remote segment (R290) -/

/-- The RDMA READ of a piece of a remote segment, before it is given its number. -/
def pieceRead (a : Use) (p : Nat) (g : Seg) (x : Nat × Bytes) : Xfer :=
  { id := 0, use := a, part := p, kind := 1, qp := some g.qp, rkey := g.rkey, addr := g.addr x.1, len := x.2.length }

/-- The pieces of a range of a remote segment are read by RDMA READ. -/
def State.askReads (s : State) (a : Use) (p : Nat) (g : Seg) (off len : Nat) : State :=
  s.each (piecesOf g off (zeros len)) fun s x => s.issue (pieceRead a p g x)

/-- Accesses issued one after another stand after those there were, each as it was given but for its number. -/
theorem State.each_issue_out {α : Type} (f : α → Xfer) (l : List α) (s : State) :
    (s.each l fun s a => s.issue (f a)).io.out.length = s.io.out.length + l.length
      ∧ ∀ x ∈ (s.each l fun s a => s.issue (f a)).io.out, x ∈ s.io.out ∨ ∃ a n, x = { f a with id := n } := by
  induction l generalizing s with
  | nil => exact ⟨rfl, fun x hx => .inl hx⟩
  | cons a l ih =>
    obtain ⟨hlen, hmem⟩ := ih (s.issue (f a))
    have hout : (s.issue (f a)).io.out = s.io.out ++ [{ f a with id := s.io.next }] := rfl
    constructor
    · rw [List.length_cons, show s.io.out.length + (l.length + 1) = s.io.out.length + 1 + l.length by omega]
      rw [hout, List.length_append] at hlen
      exact hlen
    · intro x hx
      obtain h | h := hmem x hx
      · rw [hout, List.mem_append, List.mem_singleton] at h
        exact h.imp_right fun h => ⟨a, _, h⟩
      · exact .inr h

theorem State.askReads_out (s : State) (a : Use) (p : Nat) (g : Seg) (off len : Nat) :
    (s.askReads a p g off len).io.out.length = s.io.out.length + (piecesOf g off (zeros len)).length
      ∧ ∀ x ∈ (s.askReads a p g off len).io.out,
        x ∈ s.io.out ∨ (x.use = a ∧ x.kind = 1 ∧ x.qp = some g.qp ∧ x.rkey = g.rkey) := by
  obtain ⟨hlen, hmem⟩ := State.each_issue_out (pieceRead a p g) (piecesOf g off (zeros len)) s
  refine ⟨hlen, fun x hx => (hmem x hx).imp_right ?_⟩
  rintro ⟨_, _, rfl⟩
  exact ⟨rfl, rfl, rfl, rfl⟩

theorem State.askReads_post (s : State) (a : Use) (p : Nat) (g : Seg) (off len k : Nat) :
    (s.askReads a p g off len).post? k = s.post? k :=
  State.each_inv (fun s => s.post? k) _ (fun s x => s.issue (pieceRead a p g x)) (fun _ _ => rfl) s

/-! ### The checks of a post (R231) -/

section
variable {s u w : State} {r q : Nat} {c : Cmd} {dir : Rd}

theorem exec_post (h : s.passes r q 0x01 c u) (hd : s.dirEarly c dir = 0) :
    exec (.post r q dir) s = .next (u.postJudge (cmdKey r q) c dir) := by
  have hfront := h.front fun s c => s.postJudge (cmdKey r q) c dir
  obtain ⟨hcmd, -, -, hph, hturn, hop, -⟩ := h
  have hfresh : s.fresh? (cmdKey r q) 0x01 = some c := by simp [State.fresh?, hcmd, hph, hturn, hop]
  change execPost _ _ _ _ = _
  simp only [execPost, hfresh, hd, bne_self_eq_false, Bool.and_false, Bool.false_eq_true, if_false, hfront]

/-- The directory of a remote input is asked for (R290). -/
theorem State.operAsk_remote {k p g off len : Nat} {v : Seg} (hg : u.remoteSeg p g = some v) (hn : len ≠ 0)
    (hr : u.operReady k = false) (ho : u.outFor (.oper k) = false) :
    u.operAsk k p g off len = (false, u.askReads (.oper k) p v off len) := by
  simp only [State.operAsk, hg, hn, hr, ho, if_false, Bool.false_eq_true]
  rfl

end

/-! ### Buffer sets (R382) -/

/-- While fewer sets are in use than there are, `freeSet` is one that no post holds. -/
theorem State.freeSet_free {s : State} (h : s.setsInUse < s.bufferSets) :
    s.freeSet < s.bufferSets ∧ ∀ x ∈ s.posts, x.2.phase ≠ 0 → x.2.set ≠ s.freeSet := by
  let used := (s.posts.filter fun p => p.2.phase != 0).map (·.2.set)
  have hex : ∃ i ∈ List.range s.bufferSets, i ∉ used := by
    by_contra hall
    push Not at hall
    have hle := (List.nodup_range.subperm hall).length_le
    rw [List.length_range, List.length_map] at hle
    exact absurd h (Nat.not_lt.2 hle)
  obtain ⟨i, hi, hfree⟩ := hex
  have hsome : ((List.range s.bufferSets).find? fun i =>
      !(s.posts.any fun p => p.2.phase != 0 && p.2.set == i)).isSome := by
    rw [List.find?_isSome]
    refine ⟨i, hi, ?_⟩
    simpa [used] using hfree
  obtain ⟨j, hj⟩ := Option.isSome_iff_exists.1 hsome
  have hset : s.freeSet = j := by rw [State.freeSet, hj, Option.getD_some]
  rw [hset]
  refine ⟨List.mem_range.1 (List.mem_of_find?_eq_some hj), fun x hx hp he => ?_⟩
  have hnone := List.find?_some hj
  simp at hnone
  exact hnone _ _ hx hp he

/-- A post whose input is not remote starts its staging. -/
theorem State.askInput_local {s : State} {k : Nat} {c : Cmd} {v : Post} (h : s.remoteInput c = false) :
    s.askInput k c v = s := by
  simp only [State.askInput, h, Bool.not_false, if_true]

/-- The body of a remote input is asked for (R290). -/
theorem State.askInput_remote {s : State} {k : Nat} {c : Cmd} {v : Post} {g : Seg}
    (hg : s.heldSeg c.part (c.f 20 1) = some g) (ht : g.tier = 2) (hr : g.remote = true)
    (hu : s.hostUp c.part g.qp = true) :
    s.askInput k c v = s.askReads (.stage k) c.part g c.bodyOff v.bodyEnd := by
  have hrem : s.remoteInput c = true := by simp [State.remoteInput, hg, ht, hr]
  simp only [State.askInput, hrem, hg, hu, Bool.not_true, Bool.false_eq_true, if_false]
  rfl

/-- The post takes a buffer set for its staging. -/
def State.takeSet (s : State) (k : Nat) (v : Post) : State :=
  (s.setPhase k .post).setPost k { v with phase := 1, set := s.freeSet }

theorem exec_stagingStart {s : State} {r q : Nat} {v : Post} {c : Cmd} (hv : s.post? (cmdKey r q) = some v)
    (hc : s.cmd? (cmdKey r q) = some c) (hp : v.phase = 0) (hs : s.setsInUse < s.bufferSets) :
    exec (.stagingStart r q) s = .next ((s.takeSet (cmdKey r q) v).askInput (cmdKey r q) c v) := by
  change execStagingStart _ _ _ = _
  simp only [execStagingStart, hv, hc, hp, hs, decide_true, Bool.and_true, if_true]
  rfl

/-- The directory `d`, with these lists and this end of the body, passes steps 6 and 7 of R231 (R45, R150, R229). -/
structure State.PostFits (w : State) (c : Cmd) (d : Bytes) (lists : List PList) (bodyEnd : Nat) : Prop where
  fits : dirSize (c.f 18 2) + bodyEnd ≤ c.f 40 4
  format : dirBad d (c.f 18 2) (c.f 22 2 != noSlot) = false
  feature : lists.any (fun l => l.kind == 1) = true → (w.part c.part).feat 3 = true
  count : lists.any (fun l => 16777216 < l.entries) = false
  queries : c.f 16 2 ≤ hQMax w.ream.hdr
  shape : lists.any w.listShape = false
  once : dupLists lists = false
  dense : c.coded = false → fld d 0 4 = c.f 16 2 * hDense w.ream.hdr
  results : c.f 44 4 = c.f 16 2 * hResult w.ream.hdr
  access : lists.any (fun l => l.kind == 1 && !(tUpdParts (recBody w.ream.recs 8 l.table)).testBit c.part) = false
  seals : w.sealCheck c d bodyEnd = 0

/-- What becomes of a post whose directory has been read and passes: it completes at once, or enters staging (R45,
R382). -/
theorem State.PostFits.postJudge {u w : State} {k : Nat} {c : Cmd} {dir rd : Rd} {d : Bytes} {lists : List PList}
    {bodyEnd : Nat} (hfit : w.PostFits c d lists bodyEnd)
    (ho : u.operand k c.part (c.f 20 1) (c.f 24 6) (Nat.min (dirSize (c.f 18 2)) (c.f 40 4)) w)
    (hrd : rd = w.readSeg c.part (c.f 20 1) (c.f 24 6) (dirSize (c.f 18 2)) (u.operOf k c.part (c.f 20 1) dir))
    (hp : rd.poison = []) (hd : d = rd.data ++ zeros (dirSize (c.f 18 2) - rd.data.length))
    (hl : w.layLists (c.f 16 2) d (c.f 18 2) (fld d 0 4) (c.f 16 2 * hDense w.ream.hdr) = (lists, bodyEnd)) :
    u.postJudge k c dir = if c.f 16 2 = 0 then w.finish k stOk (postResult 0 none)
      else (w.setPhase k .post).setPost k
        { ring := c.ring, seq := c.seq, part := c.part, q := c.f 16 2, lists := lists, denseLen := fld d 0 4
          sealRec := if c.f 22 2 = noSlot then [] else (d.drop 128).take 128 } := by
  obtain ⟨x, hask, hopen⟩ := ho
  have hend := hfit.fits
  have hdir : ¬ c.f 40 4 < dirSize (c.f 18 2) := by omega
  have hfeat : (lists.any (fun l => l.kind == 1) && !(w.part c.part).feat 3) = false := by
    cases hany : lists.any (fun l => l.kind == 1) with
    | false => rfl
    | true => simp [hfit.feature hany]
  have hdense : (!c.coded && fld d 0 4 != c.f 16 2 * hDense w.ream.hdr) = false := by
    cases hc : c.coded with
    | true => rfl
    | false => simp [hfit.dense hc]
  simp only [State.postJudge, hask, hopen, ← hrd, ← hd, hl, hp, hdir, Nat.not_lt.2 hend, hfit.format, hfeat, hfit.count,
    Nat.not_lt.2 hfit.queries, hfit.shape, hfit.once, hdense, hfit.results, hfit.access, hfit.seals, List.any_nil,
    decide_false, bne_self_eq_false, Bool.not_true, Bool.or_false, Bool.false_eq_true, if_false]

/-- Settles O15: the checks that pass (`PostFits.postJudge`), the directory asked for (`operAsk_remote`), and staging
begun with a free set (`freeSet_free`), its body asked for where it is remote (`askInput_remote`). -/
theorem postAccepted : Obligations.PostAccepted := by
  unfold Obligations.PostAccepted
  refine ⟨?_, fun s u r q c dir g n h hd hg hn hn0 hr ho => ?_, fun s r q v c hv hc hp hs hl => ?_,
    fun s r q v c g hv hc hp hs hg ht hr hu => ?_⟩
  case refine_1 =>
    intro s u w r q c dir rd d lists bodyEnd h hearly ho hrd hp hd hl hend hbad hfeat hcount hq hshape hdup hdense hres
      hacc hseal
    have hfit : w.PostFits c d lists bodyEnd := ⟨hend, hbad, hfeat, hcount, hq, hshape, hdup, hdense, hres, hacc, hseal⟩
    refine ⟨_, (exec_post h hearly).trans (congrArg _ (hfit.postJudge ho hrd hp hd hl)), fun h0 => ?_, fun h0 => ?_⟩
    · rw [if_pos h0]
      exact h.done (congrArg (·.cmds) (ho.readKeeps.fe rfl)) _ _ _
    · rw [if_neg h0]
      exact ⟨_, State.setPost_post _ _ _, rfl, rfl, rfl, rfl, rfl⟩
  case refine_2 =>
    have hjudge : u.postJudge (cmdKey r q) c dir = u.askReads (.oper (cmdKey r q)) c.part g (c.f 24 6) n := by
      simp only [State.postJudge, ← hn, State.operAsk_remote hg hn0 hr ho, Bool.not_false, if_true]
    refine ⟨_, (exec_post h hd).trans (congrArg _ hjudge), State.askReads_post _ _ _ _ _ _ _, ?_⟩
    exact u.askReads_out (.oper (cmdKey r q)) c.part g (c.f 24 6) n
  case refine_3 =>
    obtain ⟨hlt, hfree⟩ := State.freeSet_free hs
    have hlocal : (s.takeSet (cmdKey r q) v).remoteInput c = false := by
      simpa [State.remoteInput, State.heldSeg, State.takeSet] using hl
    refine ⟨_, exec_stagingStart hv hc hp hs, ?_⟩
    rw [State.askInput_local hlocal]
    exact ⟨State.setPost_post _ _ _, hlt, hfree, by simp [State.takeSet]⟩
  case refine_4 =>
    have hask : (s.takeSet (cmdKey r q) v).askInput (cmdKey r q) c v
        = (s.takeSet (cmdKey r q) v).askReads (.stage (cmdKey r q)) c.part g c.bodyOff v.bodyEnd :=
      State.askInput_remote (by simpa [State.heldSeg, State.takeSet] using hg) ht hr (by simpa [State.takeSet] using hu)
    have hio : (s.takeSet (cmdKey r q) v).io = s.io := by simp [State.takeSet]
    refine ⟨_, (exec_stagingStart hv hc hp hs).trans (congrArg _ hask), ?_, ?_⟩
    · rw [State.askReads_post]
      exact State.setPost_post _ _ _
    · rw [← hio]
      exact State.askReads_out _ _ _ _ _ _

end Sys2Proof.Machine

/-! ## Staging the input of a post (R42, R213, R214, R382) -/

namespace Sys2Proof.Machine

/-- The block's raw bytes are kept under its number, and the next block begins after it. -/
def Post.withBlock (v : Post) (raw b : Bytes) : Post :=
  { v with decoded := FMap.set v.decoded v.decoded.length raw, codedPos := v.codedPos + 256 * blockSheets b }

/-- A block that decodes, is whole or the last, and lies in the body is kept (R213). -/
theorem State.beaterBlock_decoded {s : State} {k : Nat} {v : Post} {b raw : Bytes}
    (hd : decodeBlock v.decoded.length b = some raw) (hfit : raw.length ≤ s.denseRaw v - v.rawDone)
    (hwhole : raw.length = 4096 ∨ raw.length = s.denseRaw v - v.rawDone)
    (hend : v.codedPos + 256 * blockSheets b ≤ sheetUp v.denseLen) :
    s.beaterBlock k v b
      = ((s.setPhase k .post).beaterCount raw.length (256 * blockSheets b)).setPost k (v.withBlock raw b) := by
  have hodd : (raw.length != 4096 && raw.length != s.denseRaw v - v.rawDone) = false := by
    obtain h | h := hwhole <;> simp [h]
  simp only [State.beaterBlock, hd, Nat.not_lt.2 hfit, Nat.not_lt.2 hend, hodd, decide_false, Bool.or_false,
    Bool.false_eq_true, if_false]
  rfl

theorem exec_beaterBlockDecode {s u : State} {r q n : Nat} {v : Post} {c : Cmd} {block : Bytes} {rd : Rd}
    (hv : s.post? (cmdKey r q) = some v) (hc : s.cmd? (cmdKey r q) = some c) (hp : v.phase = 1) (hcod : c.coded = true)
    (hseal : v.sealRec = []) (hw : s.stageWaits (cmdKey r q) = false) (hleft : v.rawDone < s.denseRaw v)
    (hn : n = Nat.min (17 * 256) (sheetUp v.denseLen - v.codedPos))
    (hopen : s.openAsk c.part (c.f 20 1) (c.bodyOff + v.codedPos) n false = (true, u))
    (hrd : rd = u.readSeg c.part (c.f 20 1) (c.bodyOff + v.codedPos) n
      { data := if s.remoteInput c then (s.stageData (cmdKey r q)).data.drop v.codedPos else block }) :
    exec (.beaterBlockDecode r q block) s = .next (u.beaterBlock (cmdKey r q) v rd.data) := by
  change execBeaterBlockDecode _ _ _ _ = _
  simp only [execBeaterBlockDecode, hv, hc, hw, hp, hcod, hseal, Nat.not_le.2 hleft, ← hn, hopen, ← hrd,
    List.isEmpty_nil, bne_self_eq_false, decide_false, Bool.not_true, Bool.or_false, Bool.false_eq_true, if_false]

/-- The staged body begins with the raw dense part: every other part is laid behind it. -/
theorem State.prefix_stageBody (s : State) (v : Post) (raw b : Bytes) : raw <+: (s.stageBody v raw b).1 := by
  unfold State.stageBody
  generalize v.lists = ls
  induction ls generalizing raw s with
  | nil => exact List.prefix_rfl
  | cons l ls ih =>
    rw [List.foldl_cons]
    refine List.IsPrefix.trans ?_ (ih _ _)
    rw [List.append_assoc]
    exact List.prefix_append _ _

/-- The post's body is laid out in its buffer set and it joins the admission queue: `b` its stored body in plain, `raw`
its raw dense part, `bad` the poisoned sheets of the stored body. -/
def State.bodyStaged (s : State) (k : Nat) (c : Cmd) (v : Post) (b raw : Bytes) (bad : List Nat) : State :=
  let w := (s.restCount c v).stageBody v raw b
  let t := w.2.setPost k { v with
    phase := 2, body := w.1, poison := w.2.stagePoison c v b bad, bufs := [], decoded := []
    readyFelt := w.2.feltNow, readyHp := w.2.now, readyCc := FMap.get w.2.clk 31 0 }
  { t with ream := { t.ream with queue := t.ream.queue ++ [k] } }

theorem State.bodyStaged_queue (s : State) (k : Nat) (c : Cmd) (v : Post) (b raw : Bytes) (bad : List Nat) :
    (s.bodyStaged k c v b raw bad).ream.queue = s.ream.queue ++ [k] := by
  have hream := State.stageBody_same (State.restCount_same (Same.refl (fun f => f == .ream) s) c v rfl) v raw b rfl
  simp only [State.bodyStaged, State.setPost_ream, hream.ream rfl]

theorem State.bodyStaged_post (s : State) (k : Nat) (c : Cmd) (v : Post) (b raw : Bytes) (bad : List Nat) :
    ∃ v', (s.bodyStaged k c v b raw bad).post? k = some v' ∧ v'.phase = 2 ∧ v'.body.take raw.length = raw :=
  ⟨_, State.setPost_post _ _ _, rfl, (List.prefix_iff_eq_take.1 (State.prefix_stageBody _ v raw b)).symm⟩

theorem exec_inputStagingDone {s u w : State} {r q : Nat} {v : Post} {c : Cmd} {body rd : Rd} {p raw : Bytes}
    (hv : s.post? (cmdKey r q) = some v) (hc : s.cmd? (cmdKey r q) = some c) (hp : v.phase = 1)
    (hcut : s.cutOff c = false) (hw : s.stageWaits (cmdKey r q) = false)
    (hopen : s.openAsk c.part (c.f 20 1) (c.bodyOff + v.codedPos) (v.bodyEnd - v.codedPos) false = (true, u))
    (hrd : rd = u.readSeg c.part (c.f 20 1) c.bodyOff v.bodyEnd
      (if u.remoteInput c then u.stageData (cmdKey r q) else body))
    (hu : w = if u.remoteInput c then u.unstage (cmdKey r q) else u)
    (hplain : w.openBody c v (fit v.bodyEnd rd.data) = some p) (hraw : w.rawDense c v p = some raw) :
    exec (.inputStagingDone r q body) s
      = .next (w.bodyStaged (cmdKey r q) c v p raw (lineSheets rd.poison)) := by
  change execInputStagingDone _ _ _ _ = _
  simp only [execInputStagingDone, hv, hc, hp, hcut, hw, hopen, ← hrd, ← hu, hplain, hraw, bne_self_eq_false,
    Bool.not_true, Bool.false_eq_true, if_false]
  rfl

/-- Settles O16: a block that decodes is kept (`beaterBlock_decoded`); the whole body is laid out behind its raw dense
part (`bodyStaged_post`), and the post is queued (`bodyStaged_queue`). -/
theorem inputStaging : Obligations.InputStaging := by
  unfold Obligations.InputStaging
  refine ⟨fun s u r q n v c block raw rd hv hc hp hcod hseal hw hleft hn hopen hrd hd hfit hwhole hend => ?_,
    fun s u w r q v c body rd p raw hv hc hp hcut hw hopen hrd hu hplain hraw => ?_⟩
  case refine_1 =>
    have hden : u.denseRaw v = s.denseRaw v := by
      rw [State.denseRaw, State.denseRaw, (State.openAsk_readKeeps hopen).ream rfl]
    rw [← hden] at hfit hwhole
    refine ⟨_, v.withBlock raw rd.data, (exec_beaterBlockDecode hv hc hp hcod hseal hw hleft hn hopen hrd).trans
      (congrArg _ (State.beaterBlock_decoded hd hfit hwhole hend)), State.setPost_post _ _ _, hp, rfl, rfl⟩
  case refine_2 =>
    have hqueue : w.ream.queue = s.ream.queue := by
      rw [← (State.openAsk_readKeeps hopen).ream rfl, hu]
      split
      · rw [(State.unstage_same (Same.refl (fun f => f == .ream) u) _ rfl).ream rfl]
      · rfl
    obtain ⟨v', hpost, hphase, htake⟩ := w.bodyStaged_post (cmdKey r q) c v p raw (lineSheets rd.poison)
    refine ⟨_, v', exec_inputStagingDone hv hc hp hcut hw hopen hrd hu hplain hraw, hpost, hphase, htake, ?_⟩
    rw [State.bodyStaged_queue, hqueue]

end Sys2Proof.Machine

/-! ## An update post that the dirty bound refuses (R55, R165, R298, R378)

A counter is kept under the key `4096 * id + instance`, and a post's partition is any number. For `farPart` the count of
DIRTY_FULL has the key of EVT_UNROUTED: where the end of the refused post frees the old version, and the owner's system
source has no valid route for that cause, the one key counts twice. -/

namespace Sys2Proof.Machine

/-- The partition whose DIRTY_FULL count has the key of EVT_UNROUTED. -/
def farPart : Nat := (0x0A3 - 0x03D) * 4096

theorem ctrKey_farPart : ctrKey 0x03D farPart = ctrKey 0x0A3 0 := rfl

/-- An update post of that partition that is ready for admission, a byte reserved for its rows. -/
def farPost : Post :=
  { ring := 0, seq := 0, part := farPart, q := 1, phase := 2, commit := 1, reserve := 1
    lists := [{ table := 0, kind := 1, entries := 0, srcOff := 0, off := 0, size := 256 }] }

/-- The command of the post. -/
def farCmd : Cmd := { ring := 0, seq := 0, epoch := 0, part := farPart, desc := [], phase := .post }

/-- The post waits under profile YP0, which admits the posts of any partition in order; the dirty bound is 0, since the
vault has failed; an old version is left that no admitted post uses; partition 0, the ream's owner, is attached with source
0 as its system source and no vectors; and the control cores have yet to acknowledge an earlier event of the same cause. -/
def farState : State :=
  { State.reset with
    ream := { resident := true, admission := true, hdr := zeros 26 ++ [1], mode := 0x10, queue := [0], old := some {} }
    posts := [(0, farPost)]
    fe := { cmds := [(0, farCmd)] }
    rel := { vault := { st := 2 } }
    parts := [(0, { st := 1 })]
    regs := [(0x70000, 0#32), (0x7400C, 0#32)]
    evt := { srcs := [(coreSource cOldVersionFreed, { st := 2 })] } }

/-- A counter as a step leaves it, 0 where the step does not answer a state. -/
def counterAfter (o : Host.Outcome State Fault Refusal) (id inst : Nat) : DWord :=
  match o with
  | .next t => t.counter id inst
  | _ => 0

theorem farState_slotFor : farState.slotFor 0 farPost :=
  ⟨by decide, by decide, by decide, by decide, by decide, ⟨none, by decide⟩, by decide⟩

theorem farState_tooDirty : farState.tooDirty farPost := by
  unfold State.tooDirty
  decide

/-- The slot that refuses the post counts two under the key. -/
theorem farState_counts_twice : farState.counter 0x03D farPart = 0
    ∧ counterAfter (exec .admissionSlotOpen farState) 0x03D farPart = 2 := by
  decide

/-- Refutes O17 in its third clause: in `farState` the refusal of a post by the dirty bound counts twice under the key of
DIRTY_FULL for the post's partition, since that partition is none of the sixteen and its key is another counter's too. -/
theorem not_sweepAndAdmission : ¬ Obligations.SweepAndAdmission := by
  unfold Obligations.SweepAndAdmission
  rintro ⟨-, -, hdirty, -⟩
  obtain ⟨t, ht, -, -, -, hctr⟩ := hdirty farState 0 farPost farCmd farState_slotFor rfl farState_tooDirty
    rfl rfl
  obtain ⟨hbefore, hafter⟩ := farState_counts_twice
  have htwice : t.counter 0x03D farPart = 2 := by
    rw [ht] at hafter
    exact hafter
  rw [show farPost.part = farPart from rfl, hbefore, htwice] at hctr
  exact absurd hctr (by decide)

end Sys2Proof.Machine

/-! ## Tiles: what the release of inputs and the set of outputs leave alone (R65, R70) -/

namespace Sys2Proof.Machine

/-- What the flags of an instruction leave alone: they are a tile's, and an overrun counts and fails its post. -/
def flagKeeps (f : Field) : Bool := f != .ctr && f != .posts && f != .tiles && f != .gat

section
variable (s : State) (n c : Nat) (w : Bytes)

theorem State.release_flagKeeps : Same flagKeeps s (s.release n c w) := State.release_same (.refl _ _) n c w rfl

theorem State.setOut_flagKeeps : Same flagKeeps s (s.setOut n c w) :=
  State.setOut_same (.refl _ _) n c w rfl rfl rfl rfl

theorem State.signal_flagKeeps : Same flagKeeps s (s.signal n c w) :=
  State.signal_same (.refl _ _) n c w rfl rfl rfl rfl

theorem State.tile_of_tiles {s t : State} (h : t.tiles = s.tiles) (n : Nat) : t.tile n = s.tile n := by
  rw [State.tile, State.tile, h]

@[simp] theorem State.modCtx_mem (f : Ctx → Ctx) : (s.modCtx n c f).mem = s.mem :=
  mem_of (State.modCtx_same (.refl _ _) n c f rfl)

@[simp] theorem State.modBank_mem (b : Nat) (f : Bank → Bank) : (s.modBank n b f).mem = s.mem := rfl

end

/-- Output flags that become FULL change the flags of their context and no other part of it that its program sees. -/
theorem State.setOut_ctx {s : State} {n c : Nat} {v : Ctx} (w : Bytes) (h : s.ctx? n c = some v) :
    ∃ v', (s.setOut n c w).ctx? n c = some v' ∧ CtxLike { v with flags := (outFlags w).foldl setFlag v.flags } v' := by
  simp only [State.setOut, h]
  split
  · exact State.failCtx_ctx _ (State.setCtx_ctx ..)
  · exact ⟨_, State.setCtx_ctx .., .refl _⟩

/-! ### Banks and queues of a tile -/

theorem TileLike.bank {x y : Tile} (h : TileLike x y) (b : Nat) : y.bank b = x.bank b := by
  rw [Tile.bank, Tile.bank, h.banks]

/-- Tiles that are alike stay so when the same fills take the place of theirs. -/
theorem TileLike.withFills {x y : Tile} (h : TileLike x y) (fs : List FillJob) :
    TileLike { x with fills := fs } { y with fills := fs } :=
  ⟨h.vec, rfl, h.banks, h.active, h.inactive, h.stream, h.st, h.full, h.landed⟩

theorem State.modBank_tile (s : State) (n b : Nat) (f : Bank → Bank) :
    (s.modBank n b f).tile n = { s.tile n with banks := FMap.set (s.tile n).banks b (f ((s.tile n).bank b)) } :=
  State.modTile_tile ..

@[simp] theorem State.modBank_bank (s : State) (n b : Nat) (f : Bank → Bank) :
    ((s.modBank n b f).tile n).bank b = f ((s.tile n).bank b) := by
  rw [State.modBank_tile, Tile.bank, FMap.get_set_self]

end Sys2Proof.Machine

/-! ## FILL (R69, R74 to R77, R92, R93) -/

namespace Sys2Proof.Machine

section
variable {s u : State} {n c : Nat} {w : Bytes} {v : Ctx} {j : FillJob} {b : WBlock} {x y : Tile}

/-- The entry of the array's queue that a FILL of context `c`, which stands as `v`, makes. -/
def fillJob (c : Nat) (w : Bytes) (v : Ctx) : FillJob :=
  { ctx := c, word := w, version := v.version, frame := v.frame (fDk w) }

/-- A FILL of some rows holds its bank for its context. -/
def State.holdBank (s : State) (n c : Nat) (w : Bytes) : State :=
  s.modBank n (fBank w) fun b => { b with st := 1, ctx := c }

theorem exec_fill (h : s.issuing n c 0x01 w v u) (hr : (v.frame (fDk w)).rows ≠ 0) :
    exec (.fill n c) s
      = .next ((u.holdBank n c w).modTile n fun x => { x with fills := x.fills ++ [fillJob c w v] }) := by
  change Host.Outcome.next (s.issue1 n c 0x01 _) = _
  rw [h.issue1]
  exact congrArg _ (if_neg hr)

/-- Where the inactive registers are free, the block of the first fill that needs one enters them; a ternary block's
fields outside the three values are counted. -/
theorem exec_weightLoadDone (hi : (s.tile n).inactive = none)
    (hj : needsLoad ((s.tile n).active.map WBlock.key) (s.tile n).fills = some j) :
    exec (.weightLoadDone n) s = .next (
      (if isTern (fFmtW j.word) then s.count 0x00F n (ternOut (s.readBlock n j).mode (s.readBlock n j).data)
        else s).modTile n fun x => { x with inactive := some (s.readBlock n j) }) := by
  change execWeightLoadDone _ _ = _
  simp only [execWeightLoadDone, hi, hj]

/-- The block a fill starts with is the tile's active one, whether it was or has just been swapped in; the queue stays. -/
theorem Tile.swapFor_active (h : x.swapFor j = some (y, b)) : y.active = some b ∧ y.fills = x.fills := by
  have hswap (h : Tile.swapFor.swapIn x j = some (y, b)) : y.active = some b ∧ y.fills = x.fills := by
    unfold Tile.swapFor.swapIn at h
    split at h
    · split at h
      · obtain ⟨rfl, rfl⟩ := Prod.mk.inj (Option.some.inj h)
        exact ⟨rfl, rfl⟩
      · cases h
    · cases h
  unfold Tile.swapFor at h
  split at h
  case h_1 a ha =>
    split at h
    · obtain ⟨rfl, rfl⟩ := Prod.mk.inj (Option.some.inj h)
      exact ⟨ha, rfl⟩
    · exact hswap h
  case h_2 => exact hswap h

/-- The mark that a fill has started, on its entry of the queue. -/
def markStarted (j f : FillJob) : FillJob := if f == j then { f with started := true } else f

/-- The sums of a fill change its bank alone. -/
theorem State.fillCompute_tile (s : State) (n : Nat) (j : FillJob) (b : WBlock) :
    ∃ m, (s.fillCompute n j b).1.tile n = { s.tile n with banks := m } := ⟨_, State.modBank_tile ..⟩

/-- A fill whose operands are sound: beside its sums, its entry in the queue is marked, and its context and its post may
change. -/
theorem State.startFill_tile (hp : s.fillPoison n j.word j.frame.rows b = false) (ht : s.fillTags n j.word = true) :
    TileLike { (s.fillCompute n j b).1.tile n with fills := ((s.fillCompute n j b).1.tile n).fills.map (markStarted j) }
      ((s.startFill n j b).tile n) := by
  have hsat (t : State) (sat : Nat) : TileLike (t.tile n) ((if sat = 0 then t
      else (t.modCtx n j.ctx fun c => { c with accSat := c.accSat + sat }).flagPost n j.ctx 3).tile n) := by
    split
    · exact .refl _
    · exact (TileLike.modCtx ..).trans (.flagPost ..)
  simp only [State.startFill, hp, ht, Bool.false_eq_true, Bool.not_true, if_false]
  refine TileLike.trans ?_ (.modCtx ..)
  rw [State.modTile_tile]
  have h := hsat (s.fillCompute n j b).1 (s.fillCompute n j b).2
  rw [h.fills]
  exact h.withFills _

theorem exec_fillStart (hj : (s.tile n).fills.find? (fun f => !f.started) = some j)
    (hx : (s.tile n).swapFor j = some (x, b)) :
    exec (.fillStart n) s = .next ((s.setTile n x).startFill n j b) := by
  change execFillStart _ _ = _
  simp only [execFillStart, hj, hx]

theorem exec_fillComplete (hj : (s.tile n).fills.find? (fun f => f.started) = some j) :
    exec (.fillComplete n) s = .next ((s.stopFill n j).fillEnd n j) := by
  change execFillComplete _ _ = _
  simp only [execFillComplete, hj]

/-- A fill ends: its queue stays, and with LAST its bank is COMPLETE. -/
theorem State.fillEnd_tile (s : State) (n : Nat) (j : FillJob) :
    ((s.fillEnd n j).tile n).fills = (s.tile n).fills
      ∧ (fLast j.word = true → (((s.fillEnd n j).tile n).bank (fBank j.word)).st = 2) := by
  unfold State.fillEnd
  have h (t : State) := TileLike.setOut t n j.ctx j.word n
  split
  case isTrue =>
    rw [(h _).fills, (h _).bank, State.modBank_bank, State.modBank_tile]
    exact ⟨rfl, fun _ => rfl⟩
  case isFalse hl => exact ⟨(h s).fills, fun e => absurd e hl⟩

end

/-- Settles O23: a FILL's issue (`exec_fill`), its block's load (`exec_weightLoadDone`), its start
(`State.startFill_tile`) and its end (`State.fillEnd_tile`). -/
theorem fills : Obligations.Fills := by
  unfold Obligations.Fills
  refine ⟨fun s u n c w v h hr => ?_, fun s n j hi hj => ?_, fun s u n j x b hj hx hu hp ht => ?_, fun s n j hj => ?_⟩
  case refine_1 =>
    refine ⟨_, exec_fill h hr, ?_⟩
    rw [State.modTile_tile]
    have hb := State.modBank_bank u n (fBank w) fun b => { b with st := 1, ctx := c }
    refine ⟨congrArg Bank.st hb, congrArg Bank.ctx hb, ?_⟩
    simp only [State.holdBank, State.modBank_tile]
    rfl
  case refine_2 =>
    refine ⟨_, exec_weightLoadDone hi hj, ?_⟩
    rw [State.modTile_tile]
    split <;> exact ⟨rfl, rfl, rfl⟩
  case refine_3 =>
    refine ⟨_, exec_fillStart hj hx, ?_⟩
    rw [← hu]
    obtain ⟨hact, hfills⟩ := Tile.swapFor_active hx
    have hux : u.tile n = x := by rw [hu, State.setTile_tile]
    obtain ⟨m, hm⟩ := u.fillCompute_tile n j b
    have hk := State.startFill_tile hp ht
    refine ⟨?_, congrArg Bank.rows (hk.bank _), ⟨markStarted j j, ?_, ?_⟩, ?_⟩
    · rw [hk.active, hm, hux, hact]
    · rw [hk.fills, hm, hux, hfills]
      exact List.mem_map_of_mem (List.mem_of_find?_eq_some hj)
    · simp [markStarted]
    · rw [mem_of (State.startFill_same (.refl _ _) n j b rfl rfl rfl rfl rfl rfl), hu]
      rfl
  case refine_4 =>
    refine ⟨_, exec_fillComplete hj, ?_⟩
    obtain ⟨hfills, hlast⟩ := (s.stopFill n j).fillEnd_tile n j
    refine ⟨?_, hlast, ?_⟩
    · rw [hfills, State.stopFill, State.modTile_tile]
    · rw [mem_of (State.fillEnd_same (.refl _ _) n j rfl rfl rfl rfl)]
      rfl

end Sys2Proof.Machine

/-! ## DECKLE, WAIT and END (R65, R70, R79, Table 3.4) -/

namespace Sys2Proof.Machine

section
variable {s u : State} {n c k : Nat} {w : Bytes} {v : Ctx} {p : Post}

/-- A DECKLE sets the frame its operands name (Table 3.9), its rows as they came from ROWS or from the post. -/
def State.setFrame (s : State) (n c : Nat) (w : Bytes) (rows : Nat) : State :=
  s.modCtx n c fun v => { v with
    frames := FMap.set v.frames (fld w 12 1) { rows := rows, cols := fld w 18 2, depth := fld w 20 2 } }

theorem exec_deckle_const (h : s.issuing n c 0x03 w v u) (hs : fld w 13 1 ≠ 1) :
    exec (.deckle n c) s = .next ((u.setFrame n c w (fld w 14 2)).signal n c w) := by
  change Host.Outcome.next (s.issue1 n c 0x03 _) = _
  rw [h.issue1]
  simp only [hs, if_false]
  rfl

theorem exec_deckle_queries (h : s.issuing n c 0x03 w v u) (hs : fld w 13 1 = 1) (hk : v.post = some k)
    (hp : u.post? k = some p) :
    exec (.deckle n c) s = .next ((u.setFrame n c w (Nat.min 256 (p.q - 256 * fld w 16 2))).signal n c w) := by
  change Host.Outcome.next (s.issue1 n c 0x03 _) = _
  rw [h.issue1]
  simp only [hs, if_true, State.queries, hk, hp]
  rfl

/-- After a DECKLE its frame stands as set, and its flags as its word has them. -/
theorem State.setFrame_signal_ctx (h : u.ctx? n c = some v) (rows : Nat) :
    ∃ v', ((u.setFrame n c w rows).signal n c w).ctx? n c = some v' ∧ v'.flags = flagsAfter w v.flags
      ∧ v'.frame (fld w 12 1) = { rows := rows, cols := fld w 18 2, depth := fld w 20 2 } := by
  obtain ⟨v', hv', hlike⟩ := State.signal_ctx w (State.modCtx_ctx _ h)
  refine ⟨v', hv', hlike.flags, ?_⟩
  rw [Ctx.frame, hlike.frames, FMap.get_set_self]

theorem exec_wait (h : s.issuing n c 0x05 w v u) : exec (.wait n c) s = .next (u.signal n c w) :=
  congrArg _ (h.issue1 _)

theorem exec_endOp (h : s.issuing n c 0x04 w v u) :
    exec (.endOp n c) s = .next (u.modCtx n c fun v => { v with ending := true }) := congrArg _ (h.issue1 _)

end

/-! ### What the end of a post leaves of a tile (R65) -/

/-- A tile but for the sheets that have landed ahead of their FETCH. -/
def Tile.withLanded (x : Tile) (l : List (Nat × Nat × Nat × Nat)) : Tile := { x with landed := l }

section
variable (s : State) (k st n : Nat)

/-- The end of a post takes from a tile the sheets that landed for it, and nothing else. -/
theorem State.clearPost_tile : ∃ l, (s.clearPost k).tile n = (s.tile n).withLanded l := by
  have htiles : (s.clearPost k).tiles
      = FMap.mapV s.tiles fun _ x => x.withLanded (x.landed.filter fun l => l.1 != k) := by
    have hk (t : State) : Same (fun f => f == .tiles) t (((t.dropPost k).cacheDrop fun c => match c with
        | .net p _ _ => p == k
        | .t1 _ => false).freeOldVersion) :=
      State.freeOldVersion_same (State.cacheDrop_same (State.dropPost_same (.refl _ _) k rfl rfl rfl) _ rfl)
        rfl rfl rfl rfl rfl rfl rfl
    exact (hk _).tiles rfl
  rw [State.tile, htiles, FMap.get, FMap.find_mapV, State.tile, FMap.get]
  cases FMap.find s.tiles n with
  | none => exact ⟨[], rfl⟩
  | some x => exact ⟨_, rfl⟩

theorem State.completePost_tile : ∃ l, (s.completePost k st).tile n = (s.tile n).withLanded l := by
  unfold State.completePost
  split
  case h_1 v c hv hc =>
    extract_lets lost st s₁ late s₂ s₃ v' s₄
    have h₁ : Same (fun f => f == .tiles) s s₁ :=
      .ite (State.sealResults_same (.refl _ _) _ _ _ rfl rfl rfl rfl rfl rfl rfl rfl rfl rfl rfl) (.refl _ _)
    have h₂ : Same (fun f => f == .tiles) s s₂ :=
      .ite (State.causeAll_same (State.count_same h₁ _ _ _ rfl) _ rfl rfl rfl rfl rfl rfl) h₁
    have h₃ : Same (fun f => f == .tiles) s s₃ := .ite (State.count_same h₂ _ _ _ rfl) h₂
    have h₄ : Same (fun f => f == .tiles) s s₄ :=
      State.stepTaken_same (.ite (State.closeEsc_same h₃ _ rfl) (State.dropEsc_same h₃ _ rfl)) _ rfl
    have hdone (st result flags : Nat) : (s₄.finish k st result flags).tile n = s.tile n :=
      State.tile_of_tiles ((State.finish_tiles ..).trans (h₄.tiles rfl)) n
    rw [← hdone]
    exact State.clearPost_tile ..
  case h_2 => exact ⟨_, rfl⟩

/-- A post that may be over leaves the contexts and the banks of every tile as they are. -/
theorem State.settle_tile : ∃ l, (s.settle k).tile n = (s.tile n).withLanded l := by
  unfold State.settle
  split
  · exact ⟨_, rfl⟩
  · split_ifs
    · exact ⟨_, rfl⟩
    · exact s.completePost_tile k _ n
    · exact s.completePost_tile k _ n
    · exact ⟨_, rfl⟩

end

section
variable {s : State} {n c : Nat} {v : Ctx}

/-- A context whose work is done is freed; what its post's end does beside leaves contexts and banks as they are. -/
theorem exec_endComplete (h : s.ctx? n c = some v) (he : v.ending = true) (hb : (s.tile n).busy c = false) :
    ∃ t l, exec (.endComplete n c) s = .next t ∧ t.tile n = ((s.tile n).freeCtx c).withLanded l := by
  have hfree : (s.modTile n fun x => x.freeCtx c).tile n = (s.tile n).freeCtx c := State.modTile_tile ..
  have hsend (t : State) : (t.sendCounts n v).tile n = t.tile n := by
    unfold State.sendCounts
    split <;> rfl
  change ∃ t l, execEndComplete _ _ _ = _ ∧ _
  simp only [execEndComplete, h, he, hb, Bool.not_true, Bool.or_self, Bool.false_eq_true, if_false]
  split
  case h_1 => exact ⟨_, _, rfl, hfree⟩
  case h_2 k hk =>
    obtain ⟨l, hl⟩ := State.settle_tile (if v.failed then s.modTile n fun x => x.freeCtx c
      else (s.modTile n fun x => x.freeCtx c).sendCounts n v) k n
    refine ⟨_, l, rfl, hl.trans ?_⟩
    split
    · rw [hfree]
    · rw [hsend, hfree]

/-- The freed context is gone, and each bank that was its own is FREE (R65, R74). -/
theorem Tile.freeCtx_frees (x : Tile) (c : Nat) :
    FMap.find (x.freeCtx c).ctxs c = none
      ∧ ∀ i b, FMap.find x.banks i = some b → b.ctx = c → ((x.freeCtx c).bank i).st = 0 := by
  refine ⟨FMap.find_del_self .., fun i b hi hc => ?_⟩
  simp only [Tile.freeCtx, Tile.bank, FMap.get, FMap.find_mapV, hi, Option.map_some, Option.getD_some]
  by_cases hst : b.st = 0 <;> simp [hst, hc]

end

end Sys2Proof.Machine

/-! ## STREAM (R88, R89) -/

namespace Sys2Proof.Machine

section
variable {s t u : State} {n : Nat} {w : Bytes}

theorem exec_stream_refused (hon : s.enabled n = true) (hst : (s.tile n).st = 1 ∨ (s.tile n).st = 2) :
    exec (.stream n w) s = .next ((s.count 0x00D n 1).causeAll cIllegalStream) := by
  change execStream _ _ _ = _
  simp [execStream, hon, hst]

/-- A STREAM of firmware: its context is none and no frame masks it; `left` rows are to move, the next of them `r`. -/
def fwStream (w : Bytes) (r left : Nat) : StreamJob := { ctx := none, word := w, left := left, row := r }

/-- A STREAM is under way on a tile. -/
def State.setStream (s : State) (n : Nat) (j : StreamJob) : State := s.modTile n fun x => { x with stream := some j }

theorem State.setStream_stream (s : State) (n : Nat) (j : StreamJob) :
    ((s.setStream n j).tile n).stream = some j :=
  congrArg Tile.stream (State.modTile_tile ..)

theorem exec_stream_firmware (hon : s.enabled n = true) (hst : (s.tile n).st = 0 ∨ (s.tile n).st = 3)
    (hfree : (s.tile n).stream = none) (hop : iOp w = 2) :
    exec (.stream n w) s = .next ((s.setStream n (fwStream w 0 (stRows w))).streamRun n (stRows w + 1)) := by
  change execStream _ _ _ = _
  have hlegal : (decide ((s.tile n).st = 1) || decide ((s.tile n).st = 2)) = false := by
    rcases hst with h | h <;> simp [h]
  have htest : (s.tile n).st ≠ 4 := by omega
  simp only [execStream, hon, hlegal, htest, hfree, hop, Bool.not_true, Option.isSome_none, bne_self_eq_false,
    Bool.or_self, Bool.false_eq_true, if_false, State.startStream, State.streamOn, State.modTile_tile]
  rfl

/-- Row `r` of firmware's STREAM enters the output ring. -/
def State.fwRow (s : State) (n : Nat) (w : Bytes) (r : Nat) : State :=
  (s.streamRow n w 512 r).2.streamPut n ((outLines w r).headD 0) 256 (s.streamRow n w 512 r).1 (s.streamBad n w r)

/-- Two states with the same memory and the same count of draws: rows of a STREAM read no other part. -/
structure SameRows (s t : State) : Prop where
  mem : t.mem = s.mem
  free : t.free = s.free

theorem SameRows.trans (h : SameRows s t) (k : SameRows t u) : SameRows s u :=
  ⟨k.mem.trans h.mem, k.free.trans h.free⟩

theorem SameRows.setStream (s : State) (n : Nat) (j : StreamJob) : SameRows s (s.setStream n j) := ⟨rfl, rfl⟩

theorem State.spBad_congr (h : t.mem = s.mem) (n : Nat) : t.spBad n = s.spBad n :=
  funext fun l => by rw [State.spBad, State.spBad, h]

theorem SameRows.streamRow (h : SameRows s t) (depth r : Nat) :
    (t.streamRow n w depth r).1 = (s.streamRow n w depth r).1
      ∧ SameRows (s.streamRow n w depth r).2 (t.streamRow n w depth r).2 := by
  obtain ⟨hmem, hfree⟩ := h
  have hblock : t.streamBlock n w = s.streamBlock n w := by
    simp only [State.streamBlock, State.readBlock, State.spRead, State.spAnyBad, State.spBad_congr hmem, hmem]
  unfold State.streamRow
  split
  · simp only [State.freeVals, hfree]
    exact ⟨trivial, hmem, rfl⟩
  · simp only [hblock, State.spRead, hmem]
    exact ⟨trivial, hmem, hfree⟩

theorem State.streamPut_mem_congr (h : t.mem = s.mem) (line cols : Nat) (row : List Word) (bad : Bool) :
    (t.streamPut n line cols row bad).mem = (s.streamPut n line cols row bad).mem := by
  unfold State.streamPut
  dsimp only
  split
  · simp only [State.spWrite, h]
  · split <;> simp only [State.spWrite, State.spPatch, h]

theorem SameRows.fwRow (h : SameRows s t) (r : Nat) : SameRows (s.fwRow n w r) (t.fwRow n w r) := by
  obtain ⟨hrow, hmem, hfree⟩ := h.streamRow (n := n) (w := w) 512 r
  have hbad : t.streamBad n w r = s.streamBad n w r := by
    simp only [State.streamBad, State.spAnyBad, State.spBad_congr h.mem]
  have hput (u : State) (l cols : Nat) (row : List Word) (bad : Bool) : (u.streamPut n l cols row bad).free = u.free :=
    (State.streamPut_same (.refl (fun f => f == .free) u) n l cols row bad rfl).free rfl
  unfold State.fwRow
  rw [hrow, hbad]
  exact ⟨State.streamPut_mem_congr hmem .., by rw [hput, hput, hfree]⟩

theorem SameRows.foldl_fwRow (h : SameRows s t) (rs : List Nat) :
    SameRows (rs.foldl (State.fwRow · n w) s) (rs.foldl (State.fwRow · n w) t) := by
  induction rs generalizing s t with
  | nil => exact h
  | cons r rs ih => exact ih (h.fwRow r)

/-- With rows left, firmware's STREAM moves one: its input is there, and its output lines never fill up. -/
theorem State.streamRun_fwRow {r left k : Nat} (hj : (s.tile n).stream = some (fwStream w r (left + 1))) :
    s.streamRun n (k + 1) = ((s.fwRow n w r).setStream n (fwStream w (r + 1) left)).streamRun n k := by
  rw [State.streamRun, hj]
  rfl

theorem State.streamRun_over {r k : Nat} (hj : (s.tile n).stream = some (fwStream w r 0)) :
    s.streamRun n (k + 1) = s.modTile n fun x => { x with stream := none } := by
  rw [State.streamRun, hj]
  rfl

/-- Firmware's STREAM moves the rows it has left, one after another, and is over. -/
theorem State.streamRun_firmware {r k : Nat} (hj : (s.tile n).stream = some (fwStream w r k)) :
    ((s.streamRun n (k + 1)).tile n).stream = none
      ∧ SameRows ((List.range' r k).foldl (State.fwRow · n w) s) (s.streamRun n (k + 1)) := by
  induction k generalizing s r with
  | zero =>
    rw [State.streamRun_over hj]
    exact ⟨congrArg Tile.stream (State.modTile_tile ..), rfl, rfl⟩
  | succ k ih =>
    rw [State.streamRun_fwRow hj]
    obtain ⟨hover, hrows⟩ := ih ((s.fwRow n w r).setStream_stream n (fwStream w (r + 1) k))
    have hstart := SameRows.setStream (s.fwRow n w r) n (fwStream w (r + 1) k)
    exact ⟨hover, (hstart.foldl_fwRow (List.range' (r + 1) k)).trans hrows⟩

end

/-- Settles O24: DECKLE, WAIT and END by their context's rules (`State.signal_ctx`, `Tile.freeCtx_frees`), STREAM by its
refusal and by induction on the rows it has left (`State.streamRun_firmware`). -/
theorem sequencing : Obligations.Sequencing := by
  unfold Obligations.Sequencing
  refine ⟨fun s u n c w v h hs => ?_, fun s u n c k w v p h hs hk hp => ?_, fun s u n c w v h => ?_,
    fun s u n c w v h => ?_, fun s n c v h he hb => ?_, fun s n w hn hon hst => ?_,
    fun s m n w hon hst hfree hop hm => ?_⟩
  case refine_1 =>
    obtain ⟨v₁, hv₁, hflags, -, -⟩ := h.ctx
    obtain ⟨v', hv', hf, hfr⟩ := State.setFrame_signal_ctx (w := w) hv₁ (fld w 14 2)
    refine ⟨_, v', exec_deckle_const h hs, hv', hflags ▸ hf, hfr, ?_⟩
    rw [(State.signal_flagKeeps ..).mem rfl, State.setFrame, State.modCtx_mem, h.mem]
  case refine_2 =>
    obtain ⟨v₁, hv₁, hflags, -, -⟩ := h.ctx
    obtain ⟨v', hv', hf, hfr⟩ := State.setFrame_signal_ctx (w := w) hv₁ (Nat.min 256 (p.q - 256 * fld w 16 2))
    exact ⟨_, v', exec_deckle_queries h hs hk hp, hv', hflags ▸ hf, hfr⟩
  case refine_3 =>
    obtain ⟨v₁, hv₁, hflags, hframes, -⟩ := h.ctx
    obtain ⟨v', hv', hlike⟩ := State.signal_ctx w hv₁
    refine ⟨_, v', exec_wait h, hv', hflags ▸ hlike.flags, hlike.frames.trans hframes, ?_⟩
    rw [(State.signal_flagKeeps ..).mem rfl, h.mem]
  case refine_4 =>
    obtain ⟨v₁, hv₁, hflags, -, -⟩ := h.ctx
    refine ⟨_, _, exec_endOp h, State.modCtx_ctx _ hv₁, rfl, hflags, ?_⟩
    rw [State.modCtx_mem, h.mem]
  case refine_5 =>
    obtain ⟨t, l, ht, htile⟩ := exec_endComplete h he hb
    obtain ⟨hnone, hbanks⟩ := (s.tile n).freeCtx_frees c
    refine ⟨t, ht, ?_, fun i b hi hc => ?_⟩
    · rw [State.ctx?, htile]
      exact hnone
    · rw [htile]
      exact hbanks i b hi hc
  case refine_6 =>
    refine ⟨_, exec_stream_refused hon hst, ?_, State.causeAll_hasCause .., ?_⟩
    · rw [State.causeAll_ctr _ _ _ _ (by unfold ctrKey; omega), State.count_counter]
      rfl
    · rw [State.tile_of_tiles (tiles_of (State.causeAll_same (.refl _ _) _ rfl rfl rfl rfl rfl rfl)), State.count_tile]
  case refine_7 =>
    refine ⟨_, exec_stream_firmware hon hst hfree hop, ?_⟩
    obtain ⟨hover, hrows⟩ := State.streamRun_firmware (s.setStream_stream n (fwStream w 0 (stRows w)))
    have hstart := SameRows.setStream s n (fwStream w 0 (stRows w))
    obtain ⟨hmem, hdraws⟩ := (hstart.foldl_fwRow (List.range' 0 (stRows w))).trans hrows
    rw [hm, List.range_eq_range']
    exact ⟨hover, hmem, hdraws⟩

end Sys2Proof.Machine

/-! ## FETCH and PUT (R83, R84, R86) -/

namespace Sys2Proof.Machine

section
variable {s u : State} {n c k cls op : Nat} {w : Bytes} {v : Ctx} {j : XferJob}

theorem State.issuing.opcode (h : s.issuing n c op w v u) : iOp w = op := by
  obtain ⟨-, -, -, -, hop, -⟩ := h
  exact hop

theorem State.modCtx_queue (s : State) (n c : Nat) (f : Ctx → Ctx) (cls : Nat) :
    ((s.modCtx n c f).tile n).queue cls = (s.tile n).queue cls := by
  obtain ⟨cs, hcs⟩ := s.modCtx_tile n c f n
  rw [hcs]
  rfl

/-! ### Issue -/

theorem exec_fetch_felt (h : s.issuing n c 0x38 w v u) (hc : xClass w = 1) :
    exec (.fetch n c) s = .next (u.feltFetch n c w v) := by
  change Host.Outcome.next (s.issue1 n c 0x38 _) = _
  rw [h.issue1, if_pos hc]

theorem exec_fetch_place (h : s.issuing n c 0x38 w v u) (hc : xClass w ≠ 1) :
    exec (.fetch n c) s = .next (u.checkXfer n c w v) := by
  change Host.Outcome.next (s.issue1 n c 0x38 _) = _
  rw [h.issue1, if_neg hc]

/-- The entry of a class queue that a PUT of context `c`, which stands as `v`, makes. -/
def putJob (c : Nat) (w : Bytes) (v : Ctx) : XferJob := { ctx := c, post := v.post, word := w, frame := v.frame (xDk w) }

theorem exec_put_felt (h : s.issuing n c 0x39 w v u) (hc : xClass w = 1) :
    exec (.put n c) s = .next (u.enqueue n (putJob c w v)) := by
  change Host.Outcome.next (s.issue1 n c 0x39 _) = _
  rw [h.issue1, if_pos hc]
  rfl

theorem exec_put_place (h : s.issuing n c 0x39 w v u) (hc : xClass w ≠ 1) :
    exec (.put n c) s = .next (u.checkXfer n c w v) := by
  change Host.Outcome.next (s.issue1 n c 0x39 _) = _
  rw [h.issue1, if_neg hc]

/-- No FETCH is a breach of the seal (R195). -/
theorem State.sealBreach_of_fetch (s : State) (cmd : Cmd) (h : iOp w = 0x38) : s.sealBreach cmd w = false := by
  simp [State.sealBreach, isPut, h]

/-- A FETCH whose sheets have landed takes them and sets its flags at once (R87). -/
theorem State.feltFetch_landed {l : Nat × Nat × Nat × Nat} (hk : v.post = some k)
    (hl : (s.tile n).landed.find? (fun l => some l.1 == v.post && l.2.1 == xTile w) = some l)
    (hm : l.2.2 = (xLine w, xSheets w)) :
    s.feltFetch n c w v = (s.modTile n fun x => { x with landed := x.landed.erase l }).signal n c w := by
  rw [hk] at hl
  simp only [State.feltFetch, hk, hl, hm, if_true]

/-- The message that carries a PUT's sheets to another tile. -/
def State.feltFlight (s : State) (n : Nat) (j : XferJob) : Flight :=
  { id := s.io.next, src := n, dst := xTile j.word
    msg := .sheets j.post (xAddr j.word % 2 ^ 15) (xSheets j.word) (FMap.get s.ream.epochs n 0)
      (s.runBytes n j.word j.frame) (s.xBad n j.word) }

/-- A PUT in class FELT has sent its sheets and released its inputs, and waits in its queue for that one message. -/
theorem State.enqueue_feltPut (hp : isPut j.word = true) (hc : xClass j.word = 1) :
    ((s.enqueue n j).tile n).queue 1 = (s.tile n).queue 1 ++ [{ j with sent := true, ids := [s.io.next] }]
      ∧ (s.enqueue n j).felt = s.felt ++ [s.feltFlight n j] ∧ (s.enqueue n j).mem = s.mem := by
  have hkeep := (s.feltPut n j).release_flagKeeps n j.ctx j.word
  have hids : ((s.feltPut n j).release n j.ctx j.word).idsFrom s.io.next = [s.io.next] := by
    have hio : (s.feltPut n j).io.next = s.io.next + 1 := rfl
    rw [State.idsFrom, hkeep.io rfl, hio, Nat.add_sub_cancel_left]
    simp
  have hq : (((s.feltPut n j).release n j.ctx j.word).tile n).queue 1 = (s.tile n).queue 1 :=
    State.modCtx_queue ..
  have he : s.enqueue n j = ((s.feltPut n j).release n j.ctx j.word).setQueue n 1
      ((s.tile n).queue 1 ++ [{ j with sent := true, ids := [s.io.next] }]) := by
    simp only [State.enqueue, State.beginXfer, hp, hc, hids, hq, decide_true, Bool.and_self, if_true]
  rw [he]
  exact ⟨State.setQueue_queue .., hkeep.felt rfl, hkeep.mem rfl⟩

/-! ### Completion of a FETCH -/

/-- A FETCH of local memory at the head of its queue: what it reads lands at its lines. -/
theorem exec_fetchComplete {d : Rd} {pl : Place} (hj : (s.tile n).head cls = some j) (hf : isFetch j.word = true)
    (hcls : cls ≠ 1) (hids : s.idsDone j = true) (hs : j.sent = false) (hcache : j.cached = []) (hk : j.post = some k)
    (hv : s.ctx? n j.ctx = some v) (hpl : s.placeFor v j.word = some pl) (hr : s.readLost k pl = false) :
    exec (.fetchComplete n cls d) s = .next (
      (((s.fetchRead n j.word j.post pl d).2.2.spWrite n (xLine j.word) (s.fetchRead n j.word j.post pl d).1
        (s.fetchRead n j.word j.post pl d).2.1).fetchCache k j.word [] (s.fetchRead n j.word j.post pl d).1
          (s.fetchRead n j.word j.post pl d).2.1 pl).fetchDone n j) := by
  change execFetchComplete _ _ _ _ = _
  simp only [execFetchComplete, hj, hf, hcls, hids, hs, hcache, hk, hv, hpl, hr, Option.bind_some, Bool.not_true,
    decide_false, Bool.or_self, Bool.false_and, Bool.false_eq_true, if_false, List.isEmpty_nil, if_true]

/-- What stands after a FETCH is what landed: neither the lookups in the cache nor its flags write memory. -/
theorem State.fetchCache_fetchDone_mem {had : FMap (Bytes × Bool)} {b : Bytes} {marks : List Nat} {pl : Place}
    (hst : (s.tile n).st ≠ 4) : ((s.fetchCache k w had b marks pl).fetchDone n j).mem = s.mem := by
  have h := State.fetchCache_same (.refl (fun f => f == .mem || f == .tiles) s) k w had b marks pl rfl rfl
  rw [State.fetchDone_mem _ _ _ (by rwa [State.tile_of_tiles (h.tiles rfl)]), h.mem rfl]

/-! ### Completion of a PUT -/

theorem exec_putComplete_now (hj : (s.tile n).firstPut cls = some j) (hp : isPut j.word = true) (hs : j.sent = false) :
    exec (.putComplete n cls) s = .next (s.putNow n j) := by
  change execPutComplete _ _ _ = _
  simp only [execPutComplete, hj, hp, hs, Bool.not_true, Bool.not_false, Bool.false_eq_true, if_false, if_true]

theorem exec_putComplete_sent (hj : (s.tile n).firstPut cls = some j) (hp : isPut j.word = true) (hs : j.sent = true)
    (hids : s.idsDone j = true) (hst : (s.tile n).st ≠ 4) :
    exec (.putComplete n cls) s = .next ((s.dropJob n j).setOut n j.ctx j.word) := by
  change execPutComplete _ _ _ = _
  simp only [execPutComplete, hj, hp, hs, hids, Bool.not_true, Bool.false_eq_true, if_false, if_true]
  rw [State.ringLines_off _ _ _ (by rwa [State.dropJob_st])]

/-- Memory once a run has been written to a tier-0 slice from byte `a` on: every sheet it touches loses its mark. -/
def sliceRun (n a : Nat) (m : Memory) (r : Nat × Bytes) : Memory :=
  (sheetsOf (t0Addr n (a + r.1)) r.2.length).foldl (fun m x => m.mark x false) (m.writeN (t0Addr n (a + r.1)) r.2)

/-- A PUT without poison to the tier-0 slice writes its runs, one after another. -/
theorem State.putOut_slice_mem {a : Nat} {cmd : Cmd} {fr : Frame} (hbad : s.xBad n w = []) (hseg : xSeg w ≠ 9) :
    (s.putOut n k cmd w fr (.slice a)).mem = (s.runBytes n w fr).foldl (sliceRun n a) s.mem := by
  have hruns (rs : List (Nat × Bytes)) :
      (rs.foldl (fun s r => s.putRun n k cmd w [] (.slice a) r) s).mem = rs.foldl (sliceRun n a) s.mem :=
    (List.foldl_hom State.mem fun _ _ => rfl).symm
  simp only [State.putOut, hbad, List.filter_nil, State.markRuns, List.append_nil, State.deliverPoison, List.isEmpty_nil,
    if_true, hseg, if_false]
  exact hruns _

/-- A PUT whose lines carry no poison moves its sheets to its place, and is done. -/
theorem State.putNow_mem {pl : Place} {cmd : Cmd} (hv : s.ctx? n j.ctx = some v) (hpl : s.placeFor v j.word = some pl)
    (hk : j.post = some k) (hcmd : s.cmd? k = some cmd) (hbad : s.xBad n j.word = []) (hst : (s.tile n).st ≠ 4) :
    (s.putNow n j).mem = (s.putOut n k cmd j.word j.frame pl).mem := by
  have htile : (s.putOut n k cmd j.word j.frame pl).tile n = s.tile n :=
    State.tile_of_tiles (tiles_of (by apply State.putOut_same (.refl _ _) <;> rfl)) n
  simp only [State.putNow, hv, hpl, hk, hcmd, hbad, Option.bind_some, List.isEmpty_nil, Bool.not_true, Bool.false_and,
    Bool.false_eq_true, if_false]
  rw [State.ringLines_off _ _ _ (by rwa [State.dropJob_st, htile]), (State.signal_flagKeeps ..).mem rfl]
  rfl

end

end Sys2Proof.Machine

/-! ## Sheets that arrive on the felt (R58, R59, R87) -/

namespace Sys2Proof.Machine

section
variable {s : State} {n src c line m epoch : Nat} {post : Option Nat} {rs : List (Nat × Bytes)} {bad : List Nat}
  {f : Flight} {v : Ctx} {j : XferJob}

theorem State.land_mem (s : State) (n line : Nat) (rs : List (Nat × Bytes)) (bad : List Nat) :
    (s.land n line rs bad).mem = (bad.filter ((rs.map fun r => sheetsOf r.1 r.2.length).flatten).contains).foldl
      (fun m i => m.mark (spAddr n (256 * (line + i)) / 256) true)
      (rs.foldl (fun m r => m.writePart (spAddr n (256 * line + r.1)) r.2) s.mem) := by
  have hruns : (rs.foldl (fun s r => s.spPatch n (256 * line + r.1) r.2) s).mem
      = rs.foldl (fun m r => m.writePart (spAddr n (256 * line + r.1)) r.2) s.mem :=
    (List.foldl_hom State.mem fun _ _ => rfl).symm
  simp only [State.land, hruns]

/-- Sheets of the placement in force land for the FETCH that awaits them, which is done. -/
theorem exec_feltArrival_awaited (hf : s.feltHead src n Msg.isSheets = some f)
    (hm : f.msg = .sheets post line m epoch rs bad) (he : epoch = FMap.get s.ream.epochs src 0)
    (hc : s.ctxOf n post = some (c, v)) (hv : v.failed = false) (hj : s.awaiting n c src = some j)
    (hline : xLine j.word = line) (hn : xSheets j.word = m) :
    exec (.feltArrival n src) s = .next (((s.takeFelt f.id).land n line rs bad).fetchDone n j) := by
  change execFeltArrival _ _ _ = _
  have he' : (epoch != FMap.get (s.takeFelt f.id).ream.epochs src 0) = false := bne_eq_false_iff_eq.2 he
  have hc' : (s.takeFelt f.id).ctxOf n post = some (c, v) := hc
  have hj' : (s.takeFelt f.id).awaiting n c src = some j := hj
  simp only [execFeltArrival, hf, hm, he', hc', hv, State.sheetsFor, hj', hline, hn, Bool.false_eq_true, if_false,
    decide_true, Bool.and_self, if_true]

/-- Sheets of no post from a placement that is over are dropped, counted and reported. -/
theorem exec_feltArrival_stale (hf : s.feltHead src n Msg.isSheets = some f)
    (hm : f.msg = .sheets none line m epoch rs bad) (he : epoch ≠ FMap.get s.ream.epochs src 0) :
    exec (.feltArrival n src) s = .next (((s.takeFelt f.id).count 0x007 n 1).causeAll cStaleEpoch) := by
  change execFeltArrival _ _ _ = _
  have he' : (epoch != FMap.get (s.takeFelt f.id).ream.epochs src 0) = true := bne_iff_ne.2 he
  simp only [execFeltArrival, hf, hm, he', if_true]

theorem State.fetchDone_felt (h : (s.tile n).st ≠ 4) : (s.fetchDone n j).felt = s.felt := by
  rw [State.fetchDone, State.ringLines_off _ _ _ (by rwa [State.dropJob_st]), (State.signal_flagKeeps ..).felt rfl]
  rfl

end

/-- Settles O29: issue by the checks that pass (`State.checkXfer_ok`) and the queue joined, completion by what moves
(`exec_fetchComplete`, `State.putNow_mem`), arrival by the epoch of its sheets. -/
theorem transfers : Obligations.Transfers := by
  unfold Obligations.Transfers
  refine ⟨fun s u n c w v cmd pl h hc hcmd hpl hpf => ?_, fun s u n c k w v v₁ l h hc hk hv hl hm => ?_,
    fun s u n c w v cmd pl h hc hcmd hpl hpf hseal hout => ?_, fun s u n c w v h hc => ?_,
    fun s n cls k d j pl v hj hf hcls hids hs hcache _ hk hv hpl hr hst => ?_,
    fun s n cls k j a v cmd hj hp hs hk hcmd hv hpl hbad hseg hst => ?_,
    fun s n cls j v hj hp hs hids hst hv => ?_,
    fun s n src line m epoch c post rs bad f v j hf hm he hc hv hj hline hn hst => ?_,
    fun s n src line m epoch rs bad f hn hf hm he => ?_⟩
  case refine_1 =>
    have hput : isPut w = false := by simp [isPut, h.opcode]
    obtain ⟨i, hw, hi, hpost, hq, hmem⟩ := u.enqueue_fetch n (putJob c w v) hput
    refine ⟨_, i, exec_fetch_place h hc, hw, hi, hpost, ?_⟩
    rw [State.checkXfer_ok hcmd hpl hpf (u.sealBreach_of_fetch cmd h.opcode)]
    exact ⟨hq, hmem.trans h.mem⟩
  case refine_2 =>
    have hv' : (u.modTile n fun x => { x with landed := x.landed.erase l }).ctx? n c = some v₁ := by
      rw [State.ctx?, State.modTile_tile]
      exact hv
    obtain ⟨v', hctx, hlike⟩ := State.signal_ctx w hv'
    refine ⟨_, v', exec_fetch_felt h hc, ?_⟩
    rw [State.feltFetch_landed hk hl hm]
    refine ⟨?_, hctx, hlike.flags⟩
    rw [(TileLike.signal ..).landed, State.modTile_tile]
  case refine_3 =>
    refine ⟨_, putJob c w v, exec_put_place h hc, rfl, rfl, rfl, ?_⟩
    rw [State.checkXfer_ok hcmd hpl hpf hseal, State.enqueue_local _ _ _ hc hout]
    exact ⟨State.setQueue_queue .., h.mem⟩
  case refine_4 =>
    have hput : isPut w = true := by simp [isPut, h.opcode]
    obtain ⟨hq, hfelt, hmem⟩ := State.enqueue_feltPut (s := u) (n := n) (j := putJob c w v) hput hc
    exact ⟨_, _, u.feltFlight n (putJob c w v), exec_put_felt h hc, rfl, rfl, rfl, hq, hfelt, rfl, rfl, rfl,
      hmem.trans h.mem⟩
  case refine_5 =>
    refine ⟨_, exec_fetchComplete hj hf hcls hids hs hcache hk hv hpl hr, State.fetchCache_fetchDone_mem ?_⟩
    have hread := tiles_of (State.fetchRead_same (.refl _ s) n j.word j.post pl d rfl)
    exact (congrArg Tile.st (State.tile_of_tiles hread n)).trans_ne hst
  case refine_6 =>
    refine ⟨_, exec_putComplete_now hj hp hs, ?_⟩
    rw [State.putNow_mem hv hpl hk hcmd hbad hst, State.putOut_slice_mem hbad hseg]
    rfl
  case refine_7 =>
    have hv' : (s.dropJob n j).ctx? n j.ctx = some v := (State.setQueue_ctx ..).trans hv
    obtain ⟨v', hctx, hlike⟩ := State.setOut_ctx j.word hv'
    exact ⟨_, v', exec_putComplete_sent hj hp hs hids hst, hctx, hlike.flags, (State.setOut_flagKeeps ..).mem rfl⟩
  case refine_8 =>
    have hland := State.land_same (.refl (fun f => f == .tiles || f == .felt) (s.takeFelt f.id)) n line rs bad rfl
    have hst' : (((s.takeFelt f.id).land n line rs bad).tile n).st ≠ 4 :=
      (congrArg Tile.st (State.tile_of_tiles (hland.tiles rfl) n)).trans_ne hst
    refine ⟨_, exec_feltArrival_awaited hf hm he hc hv hj hline hn, ?_, ?_⟩
    · rw [State.fetchDone_mem _ _ _ hst', State.land_mem, State.land_mem]
      rfl
    · rw [State.fetchDone_felt hst', hland.felt rfl]
      rfl
  case refine_9 =>
    refine ⟨_, exec_feltArrival_stale hf hm he, ?_, ?_, State.causeAll_hasCause ..⟩
    · rw [mem_of (State.causeAll_same (.refl _ _) _ rfl rfl rfl rfl rfl rfl)]
      rfl
    · rw [State.causeAll_ctr _ _ _ _ (by unfold ctrKey; omega), State.count_counter]
      rfl

end Sys2Proof.Machine

/-! ## Vector instructions that are read at once (R119, R123 to R125) -/

namespace Sys2Proof.Machine

theorem FMap.set_set {α : Type} (m : FMap α) (k : Nat) (a b : α) : FMap.set (FMap.set m k a) k b = FMap.set m k b := by
  induction m with
  | nil => simp [FMap.set]
  | cons e m ih =>
    obtain ⟨j, x⟩ := e
    by_cases hj : k = j
    · simp [FMap.set, hj]
    · by_cases hlt : k < j <;> simp [FMap.set, hj, hlt, ih]

theorem State.modTile_modTile (s : State) (n : Nat) (f g : Tile → Tile) :
    (s.modTile n f).modTile n g = s.modTile n fun x => g (f x) := by
  have htile : (s.modTile n f).tile n = f (s.tile n) := State.modTile_tile ..
  rw [State.modTile, htile, State.modTile, State.setTile, State.setTile, State.modTile, State.setTile, FMap.set_set]

/-- The engine of tile `n` holds as many instructions in `t` as in `s`, and the tile's banks stand as they did: what
neither a row of an instruction nor a write of its results that lands changes. -/
structure EngineLike (n : Nat) (s t : State) : Prop where
  length : (t.tile n).vec.length = (s.tile n).vec.length
  banks : (t.tile n).banks = (s.tile n).banks

section
variable {s t u : State} {n : Nat}

theorem EngineLike.refl (s : State) : EngineLike n s s := ⟨rfl, rfl⟩

theorem EngineLike.trans (h : EngineLike n s t) (k : EngineLike n t u) : EngineLike n s u :=
  ⟨k.length.trans h.length, k.banks.trans h.banks⟩

theorem EngineLike.of_tile (h : t.tile n = s.tile n) : EngineLike n s t := by
  constructor <;> rw [h]

theorem EngineLike.of_tileLike (h : TileLike (s.tile n) (t.tile n)) : EngineLike n s t :=
  ⟨congrArg List.length h.vec, h.banks⟩

theorem EngineLike.each {α : Type} {f : State → α → State} (hf : ∀ s a, EngineLike n s (f s a)) (l : List α) :
    EngineLike n s (s.each l f) := by
  induction l generalizing s with
  | nil => exact .refl s
  | cons a l ih => exact (hf s a).trans ih

/-- A change of what the engine's instructions have still to write, and of no other part of the tile. -/
theorem EngineLike.modOuts (s : State) (f : Tile → VecJob × Nat → VecJob) :
    EngineLike n s (s.modTile n fun x => { x with vec := x.vec.zipIdx.map (f x) }) := by
  constructor <;> simp

theorem EngineLike.vecPut (s : State) (o : VecOut) : EngineLike n s (s.vecPut n o) :=
  .modOuts s fun x (j, i) => if i + 1 = x.vecRead then { j with out := j.out ++ [o] } else j

theorem EngineLike.vecLand (s : State) (o : VecOut) : EngineLike n s (s.vecLand n o) := by
  unfold State.vecLand
  split <;> exact .of_tile rfl

theorem EngineLike.vecOwn (s : State) (k : Nat) : EngineLike n s (s.vecOwn n k) := by
  unfold State.vecOwn
  dsimp only
  split
  · exact .refl s
  · exact (EngineLike.each EngineLike.vecLand _).trans
      (.modOuts _ fun x (j, i) => if i + 1 = x.vecRead then { j with out := _ } else j)

theorem EngineLike.putRow (s : State) (w : Bytes) (at_ r : Nat) (cs : List Nat) :
    EngineLike n s (s.putRow n w at_ r cs) := .vecPut ..

theorem EngineLike.countLayer (s : State) (c : Nat) (w : Bytes) (k sat : Nat) :
    EngineLike n s (s.countLayer n c w k sat) := by
  unfold State.countLayer
  dsimp only
  split
  · exact .of_tileLike (.modCtx ..)
  · exact .refl s

theorem EngineLike.drawn (s : State) (b : Bool) (k : Nat) :
    EngineLike n s (if b then s.drawsOf n 0 k else ([], s)).2 := by
  split <;> exact .of_tile rfl

theorem EngineLike.emitRow (s : State) (c : Nat) (w : Bytes) (resInt int : Bool) (at_ r : Nat) (xs : List Word) :
    EngineLike n s (s.emitRow n c w resInt int at_ r xs) :=
  ((EngineLike.drawn s _ _).trans (.putRow ..)).trans (.countLayer ..)

theorem EngineLike.mxRow (s : State) (m : Memory) (c : Nat) (w : Bytes) (cols r : Nat) :
    EngineLike n s (s.mxRow m n c w cols r) :=
  (((EngineLike.drawn s _ _).trans (.putRow ..)).trans (.each (fun _ _ => .vecPut ..) _)).trans (.countLayer ..)

/-- Where the engine holds one instruction, no write of an earlier one is still under way. -/
theorem State.vecAhead_single (h : (s.tile n).vec.length ≤ 1) : s.vecAhead n = s := by
  have hread : (s.tile n).vecRead - 1 = 0 := by
    have := List.length_filter_le (·.read) (s.tile n).vec
    unfold Tile.vecRead
    omega
  simp [State.vecAhead, hread]

/-- The states that an instruction's rows leave one after another, read from beside the rows seen: its own writes that are
due land before each row, and those of no other instruction. -/
theorem State.rowsRead_fst {α : Type} {row g : State → Nat → State} (seen : State → Nat → α)
    (hone : (u.tile n).vec.length ≤ 1) (hrow : ∀ s r, EngineLike n u s → row s r = g s r)
    (hkeep : ∀ s r, EngineLike n s (g s r)) (rs : List Nat) (l : List α) (h : EngineLike n u s) :
    (rs.foldl (fun p r => (row ((p.1.vecAhead n).vecOwn n r) r, p.2 ++ [seen ((p.1.vecAhead n).vecOwn n r) r])) (s, l)).1
      = rs.foldl (fun s r => g (s.vecOwn n r) r) s := by
  induction rs generalizing s l with
  | nil => rfl
  | cons r rs ih =>
    have hown := h.trans (.vecOwn s r)
    rw [List.foldl_cons, List.foldl_cons, State.vecAhead_single (h.length.trans_le hone), hrow _ _ hown]
    exact ih _ (hown.trans (hkeep ..))

variable {c op : Nat} {w : Bytes} {v : Ctx}

/-- An instruction that joins an empty engine and comes to be read is there alone. -/
theorem State.vecAlone_of_empty (h : (u.tile n).vec = []) (fr : Frame) :
    ((u.modTile n fun x => { x with vec := x.vec ++ [{ ctx := c, word := w, frame := fr }] }).modTile n fun x =>
      { x with vec := x.vec.take x.vecRead ++ (({ ctx := c, word := w, frame := fr, read := true } : VecJob) ::
        x.vec.drop (x.vecRead + 1)) }) = u.vecAlone n c w fr := by
  rw [State.modTile_modTile]
  simp [State.vecAlone, State.modTile, Tile.vecRead, h]

/-- The rows of an instruction that is alone in the engine are read: `g` is a row as the rules have it on the banks of the
issue, `last` what follows the last row. -/
theorem State.vecRows_alone (hempty : (u.tile n).vec = []) {fr : Frame}
    {row : State → Memory → Bytes → Nat → Nat → State} {fin : State → Bytes → Frame → List (List Word) → State}
    {g : State → Nat → State} {last : State → State}
    (hrow : ∀ s r, (s.tile n).banks = (u.tile n).banks → row s u.mem w fr.cols r = g s r)
    (hkeep : ∀ s r, EngineLike n s (g s r)) (hfin : ∀ s seen, fin s w fr seen = last s) :
    (u.modTile n fun x => { x with vec := x.vec ++ [{ ctx := c, word := w, frame := fr }] }).vecRows n
        { ctx := c, word := w, frame := fr } row fin
      = (last (u.runRows n c w fr g)).vecOwn n fr.rows := by
  have halone : ((u.vecAlone n c w fr).tile n).vec.length ≤ 1 := by simp [State.vecAlone]
  have hbanks : ((u.vecAlone n c w fr).tile n).banks = (u.tile n).banks := by simp [State.vecAlone]
  have hrows := State.rowsRead_fst (row := fun s r => row s u.mem w fr.cols r)
    (fun s r => s.vecSeen u.mem n w fr.cols r) halone (fun s r h => hrow s r (h.banks.trans hbanks)) hkeep
    (List.range fr.rows) [] (.refl _)
  simp only [State.vecRows, State.vecAlone_of_empty hempty, State.vecAhead_single halone, hfin]
  exact congrArg (fun s => (last s).vecOwn n fr.rows) hrows

/-- A vector instruction that may be read at once is read, by the rows `g` and what follows them. -/
theorem State.issuing.vecRan (h : s.issuing n c op w v u) (hr : u.vecReady n w (v.frame (vDk w))) {i : Instr}
    {row : State → Memory → Bytes → Nat → Nat → State} {fin : State → Bytes → Frame → List (List Word) → State}
    (hexec : exec i s = .next (s.issueVec n c op row fin)) {g : State → Nat → State} {last : State → State}
    (hrow : ∀ s r, (s.tile n).banks = (u.tile n).banks → row s u.mem w (v.frame (vDk w)).cols r = g s r)
    (hkeep : ∀ s r, EngineLike n s (g s r)) (hfin : ∀ s seen, fin s w (v.frame (vDk w)) seen = last s) :
    ∃ t, exec i s = .next t ∧ t.vecRan (last (u.runRows n c w (v.frame (vDk w)) g)) n (v.frame (vDk w)) := by
  obtain ⟨-, hempty, -, -⟩ := id hr
  have hread := (h.vec hr row fin).trans (State.vecRows_alone hempty hrow hkeep hfin)
  exact ⟨_, hexec.trans (congrArg _ hread), rfl, rfl⟩

end
end Sys2Proof.Machine

/-! ## CONVERT, QUANT, RESCALE and ROTATE (R96 to R101, R119) -/

namespace Sys2Proof.Machine

theorem canonNan_canonNan (x : Word) : canonNan (canonNan x) = canonNan x := by
  by_cases h : isNan x = true
  · have hx : canonNan x = qnan := if_pos h
    rw [hx]
    decide
  · have hx : canonNan x = x := if_neg h
    rw [hx, hx]

/-- Every NaN has the one value. -/
theorem dec32_canonNan (x : Word) : dec32 (canonNan x) = dec32 x := by
  unfold canonNan
  split
  case isTrue h => exact (show dec32 qnan = .nan by decide).trans (eq_of_beq h).symm
  case isFalse => rfl

/-- A NaN result is written as the one NaN (R97), so the conversion of an FP32 lane does not tell NaNs apart. -/
theorem vCode_canonNan (sr : Bool) (fmt : Nat) (x : Word) (d : Nat) :
    vCode false sr fmt (canonNan x) d = vCode false sr fmt x d := by
  simp only [vCode, canonNan_canonNan, dec32_canonNan, Bool.false_eq_true, if_false]

/-- FP32 lanes are written the same with every NaN made the one NaN. -/
theorem State.emitRow_canonNan (s : State) (n c : Nat) (w : Bytes) (int : Bool) (at_ r : Nat) (xs : List Word) :
    s.emitRow n c w false int at_ r (xs.map canonNan) = s.emitRow n c w false int at_ r xs := by
  simp [State.emitRow, List.zipIdx_map, Function.comp_def, vCode_canonNan, Prod.map]

section
variable {s u : State} {n c : Nat} {w : Bytes} {v : Ctx}

/-- A row of CONVERT: each element in O's format (R119). -/
theorem State.convertRow_eq (s : State) (m : Memory) (n c : Nat) (hint : vecInt w = false) (cols r : Nat) :
    s.convertRow m n c w cols r = s.emitRow n c w (vecInt w) (vecInt w) r r ((List.range cols).map fun i =>
      if isNan (s.laneA m n w false r i) then qnan else s.laneA m n w false r i) := by
  rw [hint, State.convertRow, State.rowBy, hint, ← State.emitRow_canonNan, List.map_map]
  rfl

/-- The factors of a QUANT stand in its view B as they stood at its up-front reads: a bank is not written meanwhile. -/
theorem State.quantFactor_upFront (h : (s.tile n).banks = (u.tile n).banks) (i : Nat) :
    (s.upFront u.mem).quantFactor n w i = BitVec.ofNat 32 (u.viewBits n (vB w) 0 0x0B 0 0 i) := by
  have hbank (b : Nat) : ((s.upFront u.mem).tile n).bank b = (u.tile n).bank b := by
    simp only [Tile.bank, ← h]
    rfl
  simp only [State.quantFactor, State.viewBits, hbank]
  rfl

/-- RESCALE counts its saturations by the element. -/
theorem State.rescaleRow_eq (s : State) (m : Memory) (n c : Nat) (cols r : Nat) :
    s.rescaleRow m n c w cols r = (s.putRow n w r r
      ((List.range cols).map fun i => unsgn (fmtWidth (vOFmt w)) (s.rescaleElem m n w r i).1)).countLayer n c w
        (if vOFmt w = 0x0C then 0 else cols)
        ((List.range cols).filter fun i => (s.rescaleElem m n w r i).2).length := by
  simp only [State.rescaleRow, List.map_map, List.filter_map, List.length_map]
  rfl

theorem vecInt_convert (h : s.issuing n c 0x1A w v u) : vecInt w = false := by
  simp [vecInt, h.opcode]

end

/-- Settles O27: each instruction is read by `State.issuing.vecRan`, its rows as the model's row functions have them. -/
theorem vectorConvert : Obligations.VectorConvert := by
  unfold Obligations.VectorConvert
  refine ⟨fun s u n c w v h hr => ?_, fun s u n c w v h hr hmx => ?_, fun s u n c w v h hr hmx => ?_,
    fun s u n c w v h hr => ?_, fun s u n c w v h hr => ?_⟩
  case refine_1 =>
    exact h.vecRan hr rfl (last := id) (fun _ _ _ => State.convertRow_eq _ _ _ _ (vecInt_convert h) _ _)
      (fun _ _ => .emitRow ..) fun _ _ => rfl
  case refine_2 =>
    refine h.vecRan hr rfl (last := id) (fun s r hbanks => ?_) (fun _ _ => .emitRow ..) fun _ _ => ?_
    · simp only [State.anyQuantRow, hmx, State.quantRow, State.quantFactor_upFront hbanks, Bool.false_eq_true, if_false]
    · simp only [State.mxTags, hmx, Bool.false_eq_true, if_false, id]
  case refine_3 =>
    refine h.vecRan hr rfl (last := fun m => (m.vecPut n _).vecPut n _) (fun _ _ _ => ?_) (fun _ _ => .mxRow ..)
      fun _ _ => ?_
    · simp only [State.anyQuantRow, hmx, if_true]
    · simp only [State.mxTags, hmx, if_true]
  case refine_4 =>
    exact h.vecRan hr rfl (last := id) (fun _ _ _ => State.rescaleRow_eq ..)
      (fun _ _ => .trans (.putRow ..) (.countLayer ..)) fun _ _ => rfl
  case refine_5 =>
    exact h.vecRan hr rfl (last := id) (fun _ _ _ => rfl) (fun _ _ => .emitRow ..) fun _ _ => rfl

end Sys2Proof.Machine

/-! ## The end of a post that failed (R65, Table 10.10) -/

namespace Sys2Proof.Machine

section
variable {s t : State} {k st : Nat} {v : Post} {c : Cmd}

/-- `completed` reads the front end, whether the ream is degraded, and the pairings with the feed identity. -/
theorem State.completed_of_degraded {r f : Nat} (hfe : t.fe = s.fe) (hd : t.ream.degraded = s.ream.degraded)
    (hrel : t.rel = s.rel) (hfuse : t.fuse = s.fuse) (h : s.completed c st r f) : t.completed c st r f := by
  unfold State.completed State.cmd? State.ring State.degradedFlag State.corrFlag State.correlated at *
  rwa [hfe, hd, hrel, hfuse]

theorem State.leaveQueue_degraded (s : State) (k : Nat) : (s.leaveQueue k).ream.degraded = s.ream.degraded := by
  unfold State.leaveQueue
  split
  · rfl
  · split <;> rfl

theorem State.freeOldVersion_degraded (s : State) : s.freeOldVersion.ream.degraded = s.ream.degraded := by
  unfold State.freeOldVersion
  split
  · rfl
  · split
    · rfl
    · rw [ream_of (State.causeTo_same (.refl _ _) _ _ rfl rfl rfl rfl rfl rfl)]

theorem State.clearPost_degraded (s : State) (k : Nat) : (s.clearPost k).ream.degraded = s.ream.degraded :=
  (State.freeOldVersion_degraded _).trans (State.leaveQueue_degraded ..)

/-- A post that is cleared is no longer in the block. -/
theorem State.clearPost_post (s : State) (k : Nat) : (s.clearPost k).post? k = none := by
  unfold State.clearPost
  rw [State.post?, posts_of (State.freeOldVersion_same (.refl _ _) rfl rfl rfl rfl rfl rfl rfl)]
  exact FMap.find_del_self ..

/-- What clearing a post leaves of the record of its command. -/
theorem State.clearPost_completed {r f : Nat} (h : s.completed c st r f) : (s.clearPost k).completed c st r f := by
  have hkeep : Same (fun f => f == .fe || f == .rel || f == .fuse) s (s.clearPost k) := by
    apply State.clearPost_same (.refl _ _) <;> rfl
  exact State.completed_of_degraded (hkeep.fe rfl) (s.clearPost_degraded k) (hkeep.rel rfl) (hkeep.fuse rfl) h

/-- A post that does not end with OK ends with no result: its record is made, and it is cleared. -/
theorem State.completePost_of_failed (hv : s.post? k = some v) (hc : s.cmd? k = some c) (hst : st ≠ stOk) :
    ∃ (u : State) (f : Nat), u.fe = s.fe ∧ s.completePost k st = (u.finish k st (postResult 0 v.step) f).clearPost k := by
  simp only [State.completePost, hv, hc, hst, decide_false, Bool.false_and, Bool.false_eq_true, if_false]
  refine ⟨_, _, fe_of (State.stepTaken_same (State.dropEsc_same ?_ _ rfl) _ rfl), rfl⟩
  have hcount : Same (fun f => f == .fe) s (s.count 0x005 v.part 1) := State.count_same (.refl _ _) _ _ _ rfl
  have hlate : Same (fun f => f == .fe) s
      (if v.late s.ream.mode && !v.emergency then (s.count 0x005 v.part 1).causeAll cBoundMiss else s) :=
    .ite (State.causeAll_same hcount _ rfl rfl rfl rfl rfl rfl) (.refl _ _)
  exact .ite (State.count_same hlate _ _ _ rfl) hlate

theorem State.completePost_failed (hv : s.post? k = some v) (hc : s.cmd? k = some c) (hk : k = cmdKey c.ring c.seq)
    (hst : st ≠ stOk) :
    (s.completePost k st).post? k = none ∧ ∃ f, (s.completePost k st).completed c st (postResult 0 v.step) f := by
  obtain ⟨u, f, hfe, hdone⟩ := State.completePost_of_failed hv hc hst
  have hcu : u.cmd? k = some c := by rwa [State.cmd?, hfe]
  rw [hdone]
  exact ⟨State.clearPost_post .., _, State.clearPost_completed (State.finish_completed _ _ _ hcu hk.symm)⟩

/-- A failed post stands with its status or ends with it. -/
theorem State.settle_failedWith (hv : s.post? k = some v) (hfail : v.fail ≠ stOk) (hc : s.cmd? k = some c)
    (hk : k = cmdKey c.ring c.seq) : (s.settle k).failedWith k v.fail v c := by
  have hne : (v.fail != 0) = true := bne_iff_ne.2 hfail
  simp only [State.settle, hv, hne, if_true]
  split
  · exact .inl ⟨v, hv, rfl⟩
  · exact .inr (State.completePost_failed hv hc hk hfail)

/-- A post as its first failure leaves it (R65): with its status, its update abandoned unless go has been sent (R154). -/
def Post.failed (v : Post) (st : Nat) : Post := { v with fail := st, commit := if v.commit = 1 then 3 else v.commit }

theorem State.failPost_post (hv : s.post? k = some v) (hf : v.fail = 0) :
    (s.failPost k st).post? k = some (v.failed st) := by
  have h₁ := State.modPost_post s k (fun v => { v with fail := if v.fail = 0 then st else v.fail }) v hv
  have h₂ := State.modPost_post _ k (fun v => { v with commit := if v.commit = 1 then 3 else v.commit }) _ h₁
  simp only [hf, if_true] at h₂
  exact h₂

/-- A post fails for the first time: it stands with the status or ends with it. -/
theorem State.failPost_settle (hv : s.post? k = some v) (hf : v.fail = 0) (hc : s.cmd? k = some c)
    (hk : k = cmdKey c.ring c.seq) (hst : st ≠ stOk) : ((s.failPost k st).settle k).failedWith k st v c := by
  have hfe : (s.failPost k st).fe = s.fe := fe_of (State.failPost_same (.refl _ _) k st rfl rfl rfl)
  have hcf : (s.failPost k st).cmd? k = some c := by rwa [State.cmd?, hfe]
  exact State.settle_failedWith (v := v.failed st) (State.failPost_post hv hf) hst hcf hk

/-- A post of which a tile holds a context is not over. -/
theorem State.settle_of_inTiles (h : s.inTiles k = true) : s.settle k = s := by
  unfold State.settle
  split
  · rfl
  · simp only [h, Bool.or_true, Bool.true_or, if_true]

theorem State.inTiles_of_tiles (h : t.tiles = s.tiles) (k : Nat) : t.inTiles k = s.inTiles k := by
  rw [State.inTiles, State.inTiles, h]

end

end Sys2Proof.Machine

/-! ## The commit run, the writes of an update, and its counts (R112, R153, R154, R157, R165) -/

namespace Sys2Proof.Machine

/-! ### The decision -/

section
variable {s : State} {k : Nat} {v : Post}

theorem exec_commitRun (h : s.sendReports.decidable = some (k, v)) :
    exec .commitRun s = .next (s.sendReports.decide1 k v) := by
  change execCommitRun _ = _
  simp only [execCommitRun, h]

/-- Go reserves the bytes that the reports give. -/
theorem State.decide1_go (h : (s.unitsOf k).all (·.report == 1) = true) :
    s.decide1 k v
      = (s.setPost k { v with commit := 2, reserve := ((s.unitsOf k).map (·.bytes)).foldl (· + ·) 0 }).notePeak := by
  simp only [State.decide1, h, if_true]

/-- An over report counts its tables and fails the post. -/
theorem State.decide1_over {c : Cmd} (hgo : (s.unitsOf k).all (·.report == 1) = false)
    (hpoison : (s.unitsOf k).any (·.report == 3) = false) (hv : s.post? k = some v) (hf : v.fail = 0)
    (hc : s.cmd? k = some c) (hk : k = cmdKey c.ring c.seq) : (s.decide1 k v).failedWith k stUpdateOver v c := by
  simp only [State.decide1, hgo, hpoison, Bool.false_eq_true, if_false]
  have hcount (us : List Nat) :
      Same (fun f => f == .posts || f == .fe) s (s.each us fun s u => s.count 0x033 u 1) :=
    .each (.refl _ _) _ _ fun _ _ h => State.count_same h _ _ _ rfl
  refine State.failPost_settle ?_ hf ?_ hk (by decide)
  · rwa [State.post?, (hcount _).posts rfl]
  · rwa [State.cmd?, (hcount _).fe rfl]

end

/-! ### The writes -/

section
variable {s : State} {n k tbl loc step : Nat} {b : Bytes}

theorem State.count_counter_other (s : State) {id id' : Nat} (inst m : Nat) (h : id ≠ id') :
    (s.count id' inst m).counter id inst = s.counter id inst :=
  State.count_counter_ne s m (by unfold ctrKey; omega)

/-- No read of a PINNED table reads a directory, so a write of its entries clears no mark (R190). -/
theorem State.bucketClear_pinned (h : tPinned (s.tab tbl) = true) (n loc : Nat) : s.bucketClear n tbl loc = s := by
  simp [State.bucketClear, State.bucketBad, h]

theorem State.rowAddr_pinned (h : tPinned (s.tab tbl) = true) (n loc : Nat) :
    s.rowAddr n tbl loc = s.placeAddr tbl n loc := by
  simp [State.rowAddr, State.livePlace, h]

/-- A row that no move holds is written to its one place. -/
theorem State.moveWrite_resident (h : ∀ e, s.dirEnt n tbl loc = some e → e.st = 2) (b : Bytes) :
    s.moveWrite n tbl loc b = s := by
  unfold State.moveWrite
  split
  · rfl
  · next e he => simp [h e he]

/-- An entry of a PINNED table's row is its HOME_STALE bit: no byte of memory changes with it, nor the count of the rows
written. -/
theorem State.setDir_pinned (h : tPinned (s.tab tbl) = true) (n loc : Nat) (e : Option DirEnt) :
    (s.setDir n tbl loc e).mem = s.mem ∧ (s.setDir n tbl loc e).counter 0x030 n = s.counter 0x030 n := by
  have hclear (was is : Bool) : (s.staleDelta n was is).bucketClear n tbl loc = s.staleDelta n was is := by
    refine State.bucketClear_pinned ?_ n loc
    rwa [State.tab, ream_of (State.staleDelta_same (.refl _ _) n was is rfl)]
  have hctr (was is : Bool) : (s.staleDelta n was is).counter 0x030 n = s.counter 0x030 n := by
    unfold State.staleDelta
    split
    · rfl
    · exact State.setCtr_counter_ne s _ (by unfold ctrKey; omega)
  have hmem (was is : Bool) : (s.staleDelta n was is).mem = s.mem :=
    mem_of (State.staleDelta_same (.refl _ _) n was is rfl)
  simp only [State.setDir, hclear]
  exact ⟨hmem .., hctr ..⟩

theorem State.markStale_pinned (h : tPinned (s.tab tbl) = true) (n loc : Nat) :
    s.markStale n tbl loc = s.setDir n tbl loc (some { st := 2, stale := true, place := loc }) := by
  simp only [State.markStale, h, if_true]

/-- What the write of a row in tier-0 does: its bytes to its place, the count of rows written, and the row dirty. -/
structure RowWritten (s t : State) (n tbl loc step : Nat) (b : Bytes) : Prop where
  mem : t.mem = s.mem.writePart (s.placeAddr tbl n loc) b
  dirty : FMap.find t.gat.dirty (rowKey tbl n loc) = some step
  count : t.counter 0x030 n = s.counter 0x030 n + 1

theorem RowWritten.of_parts {t u : State} (h : RowWritten s t n tbl loc step b) (hmem : u.mem = t.mem)
    (hdirty : u.gat.dirty = t.gat.dirty) (hctr : u.ctr = t.ctr) : RowWritten s u n tbl loc step b :=
  ⟨hmem.trans h.mem, hdirty ▸ h.dirty, (congrArg (FMap.get · _ 0) hctr).trans h.count⟩

theorem RowWritten.modPost {t : State} (h : RowWritten s t n tbl loc step b) (k : Nat) (f : Post → Post) :
    RowWritten s (t.modPost k f) n tbl loc step b :=
  h.of_parts (State.modPost_mem ..) (congrArg Gather.dirty (State.modPost_gat ..)) (State.modPost_ctr ..)

/-- The counts of a unit's writes leave its rows as they are written. -/
theorem RowWritten.count_other {t : State} (h : RowWritten s t n tbl loc step b) {id : Nat} (hid : id ≠ 0x030) (m : Nat) :
    RowWritten s (if m = 0 then t else t.count id n m) n tbl loc step b := by
  split
  · exact h
  · exact ⟨h.mem, h.dirty, (State.count_counter_other t n m hid.symm).trans h.count⟩

/-- The bytes of a row stand in its place in tier-0, and are counted. -/
def State.placed (s : State) (n tbl loc : Nat) (b : Bytes) : State :=
  ({ s with mem := s.mem.writePart (s.placeAddr tbl n loc) b } : State).count 0x030 n 1

/-- A row that has been written joins the dirty rows (R165). -/
def State.dirtied (s : State) (row step : Nat) : State :=
  { s with gat := { s.gat with
    dirty := FMap.set s.gat.dirty row step
    since := if (FMap.find s.gat.since row).isSome then s.gat.since else FMap.set s.gat.since row step } }

section
variable (hp : tPinned (s.tab tbl) = true) (hdir : ∀ e, s.dirEnt n tbl loc = some e → e.st = 2)
  (ht0 : isT1 (s.placeAddr tbl n loc) = false)

include hp hdir ht0

theorem State.writeRow_eq (step : Nat) (b : Bytes) :
    s.writeRow n tbl loc step b
      = ((s.placed n tbl loc b).setDir n tbl loc (some { st := 2, stale := true, place := loc })).dirtied
          (rowKey tbl n loc) step := by
  have hcopy : (s.writeCopy (s.placeAddr tbl n loc) b).count 0x030 n 1 = s.placed n tbl loc b := by
    rw [State.writeCopy, ht0]
    rfl
  have hmove : (s.placed n tbl loc b).moveWrite n tbl loc b = s.placed n tbl loc b :=
    State.moveWrite_resident (s := s.placed n tbl loc b) hdir b
  rw [State.writeRow, State.rowAddr_pinned hp]
  simp only [hcopy, hmove, ht0, Bool.false_eq_true, if_false]
  rw [State.markStale_pinned (s := s.placed n tbl loc b) hp]
  rfl

theorem State.writeRow_pinned (step : Nat) (b : Bytes) :
    RowWritten s (s.writeRow n tbl loc step b) n tbl loc step b := by
  obtain ⟨hmem, hctr⟩ := State.setDir_pinned (s := s.placed n tbl loc b) hp n loc
    (some { st := 2, stale := true, place := loc })
  rw [State.writeRow_eq hp hdir ht0]
  exact ⟨hmem, FMap.find_set_self .., hctr.trans (State.count_counter ..)⟩

/-- A unit with one new row writes it. -/
theorem State.writeUnit_single {g : UWork} (hn : g.tile = n) (htbl : g.table = tbl) (hnew : g.new = [(loc, b)])
    (step : Nat) :
    RowWritten s (s.writeUnit step g) n tbl loc step b := by
  subst hn htbl
  unfold State.writeUnit
  rw [hnew]
  exact ((State.writeRow_pinned hp hdir ht0 step b).count_other (by decide) g.sat).count_other (by decide) g.rescaled

end

/-- The units of a post are over. -/
def State.dropUnits (s : State) (k : Nat) : State :=
  { s with gat := { s.gat with uworks := s.gat.uworks.filter fun g => g.post != k } }

/-- A post with go has its writes made: after those of its one unit, it holds no bytes. -/
theorem State.makeWrites_single {v : Post} {g : UWork} (hv : s.post? k = some v) (hgo : v.commit = 2)
    (hunits : s.unitsOf k = [g]) (h : RowWritten s (s.writeUnit (v.step.getD 0) g) n tbl loc step b) :
    RowWritten s (s.makeWrites k) n tbl loc step b
      ∧ (s.makeWrites k).post? k = some { v with commit := 0, reserve := 0 } := by
  have hgo' : (v.commit != 2) = false := bne_eq_false_iff_eq.2 hgo
  have hmade : s.makeWrites k = (((s.writeUnit (v.step.getD 0) g).dropUnits k).modPost k
      fun v => { v with commit := 0, reserve := 0 }).notePeak := by
    simp only [State.makeWrites, hv, hgo', hunits, Bool.false_eq_true, if_false]
    rfl
  have hposts : (s.writeUnit (v.step.getD 0) g).posts = s.posts := by
    apply posts_of
    apply State.writeUnit_same (.refl _ _) <;> rfl
  have hv' : ((s.writeUnit (v.step.getD 0) g).dropUnits k).post? k = some v :=
    (congrArg (FMap.find · k) hposts).trans hv
  rw [hmade]
  have hdrop : RowWritten s ((s.writeUnit (v.step.getD 0) g).dropUnits k) n tbl loc step b := h.of_parts rfl rfl rfl
  exact ⟨(hdrop.modPost k _).of_parts rfl rfl rfl, State.modPost_post _ k _ v hv'⟩

theorem exec_updateWritesDone {v : Post} (hv : s.post? k = some v) (hgo : v.commit = 2) (hreads : s.ownReads k v = false)
    (hin : s.inTiles k = true) : exec (.updateWritesDone k) s = .next (s.makeWrites k) := by
  change execUpdateWritesDone _ _ = _
  have htiles : (s.makeWrites k).tiles = s.tiles := by
    apply tiles_of
    apply State.makeWrites_same (.refl _ _) <;> rfl
  have hin' : (s.makeWrites k).inTiles k = true := (State.inTiles_of_tiles htiles k).trans hin
  have hgo' : (v.commit != 2) = false := bne_eq_false_iff_eq.2 hgo
  simp only [execUpdateWritesDone, hv, hgo', hreads, Bool.or_self, Bool.false_eq_true, if_false,
    State.settle_of_inTiles hin']

end

/-! ### The counts of a post (R112) -/

section
variable {s : State} {k : Nat} {x : EscSum}

/-- A layer that is decided leaves what has been summed. -/
theorem State.decideLayer_sums (h : FMap.find s.ream.escSums k = some x) (l : Nat) :
    ∃ d, FMap.find (s.decideLayer k l).ream.escSums k = some { x with decided := d } := by
  simp only [State.decideLayer, h]
  split
  · exact ⟨_, h⟩
  · split <;> exact ⟨_, FMap.find_set_self ..⟩

theorem State.decideLayers_sums (ls : List Nat) (h : FMap.find s.ream.escSums k = some x) :
    ∃ d, FMap.find (s.each ls fun s l => s.decideLayer k l).ream.escSums k = some { x with decided := d } := by
  induction ls generalizing s x with
  | nil => exact ⟨_, h⟩
  | cons l ls ih =>
    obtain ⟨d, hd⟩ := s.decideLayer_sums h l
    exact ih (s := s.decideLayer k l) (x := { x with decided := d }) hd

theorem State.decideLayer_escMsgs (s : State) (k l : Nat) : (s.decideLayer k l).ream.escMsgs = s.ream.escMsgs := by
  unfold State.decideLayer
  split
  · rfl
  · dsimp only
    split
    · rfl
    · split <;> rfl

theorem State.decideLayers_escMsgs (s : State) (k : Nat) (ls : List Nat) :
    (s.each ls fun s l => s.decideLayer k l).ream.escMsgs = s.ream.escMsgs :=
  State.each_inv (fun s => s.ream.escMsgs) ls _ (fun s l => s.decideLayer_escMsgs k l) s

theorem State.decideLayers_tiles (s : State) (k : Nat) (ls : List Nat) :
    (s.each ls fun s l => s.decideLayer k l).tiles = s.tiles :=
  tiles_of (.each (.refl _ _) _ _ fun _ l h => State.decideLayer_same h k l rfl)

/-- The oldest report `r` of a tile is with the controller, its counts in what is summed for its post. -/
def State.reported (s : State) (r : EscRep) : State :=
  let x := FMap.get s.ream.escSums r.post { version := r.version }
  { s with ream := { s.ream with
    escMsgs := s.ream.escMsgs.erase r
    escSums := FMap.set s.ream.escSums r.post
      { x with tiles := r.tile :: x.tiles, qn := addCounts x.qn r.qn, qs := addCounts x.qs r.qs } } }

theorem exec_escCountReport {n : Nat} {r : EscRep} (hr : s.ream.escMsgs.find? (fun r => r.tile == n) = some r)
    (hin : s.inTiles r.post = true) :
    exec (.escCountReport n) s = .next ((s.reported r).each (List.range 32) fun s l => s.decideLayer r.post l) := by
  change execEscCountReport _ _ = _
  have hin' : ((s.reported r).each (List.range 32) fun s l => s.decideLayer r.post l).inTiles r.post = true :=
    (State.inTiles_of_tiles (State.decideLayers_tiles ..) _).trans hin
  simp only [execEscCountReport, hr]
  exact congrArg _ (State.settle_of_inTiles hin')

end

/-- Settles O33: the decision by the reports that are in (`State.decide1_go`, `State.decide1_over`), the writes by those of
the post's unit (`State.writeUnit_single`), the counts by induction on the layers that are judged
(`State.decideLayers_sums`). -/
theorem updateDecisions : Obligations.UpdateDecisions := by
  unfold Obligations.UpdateDecisions
  refine ⟨fun s u k v hu hd hgo => ?_, fun s u k v c hu hd hgo hpoison hv hf hc hk => ?_,
    fun s k n tbl loc v g b hv hgo _ hreads hin hunits hn htbl hnew hp hdir ht0 => ?_, fun s n r hr hin => ?_⟩
  case refine_1 =>
    subst hu
    exact ⟨_, _, (exec_commitRun hd).trans (congrArg _ (State.decide1_go hgo)), State.setPost_post .., rfl, rfl,
      (mem_of (State.sendReports_same (.refl _ s) rfl) : s.sendReports.mem = s.mem)⟩
  case refine_2 =>
    subst hu
    exact ⟨_, exec_commitRun hd, State.decide1_over hgo hpoison hv hf hc hk⟩
  case refine_3 =>
    have hunit := State.writeUnit_single hp hdir ht0 hn htbl hnew (v.step.getD 0)
    obtain ⟨⟨hmem, hdirty, hcount⟩, hpost⟩ := State.makeWrites_single hv hgo hunits hunit
    exact ⟨_, _, exec_updateWritesDone hv hgo hreads hin, hpost, rfl, rfl, hmem, hdirty, hcount⟩
  case refine_4 =>
    obtain ⟨d, hd⟩ := State.decideLayers_sums (s := s.reported r) (List.range 32) (FMap.find_set_self ..)
    have htile : r.tile = n := by simpa using List.find?_some hr
    exact ⟨_, _, exec_escCountReport hr hin, hd, by rw [← htile], rfl, rfl, State.decideLayers_escMsgs ..⟩

end Sys2Proof.Machine

/-! ## Two operands, AFFINE, UNARY and FUNC (R116 to R119, R121, R123) -/

namespace Sys2Proof.Machine

section
variable {s u : State} {n c op : Nat} {w : Bytes} {v : Ctx}

/-- A vector instruction that computes its rows element by element, and may be read at once, is read by its result
lanes. -/
theorem State.issuing.vecRanBy (h : s.issuing n c op w v u) (hr : u.vecReady n w (v.frame (vDk w))) {i : Instr}
    {row : State → Memory → Bytes → Nat → Nat → State} (hexec : exec i s = .next (s.issueVec n c op row vecNone))
    {f : State → Nat → Nat → Word}
    (hrow : ∀ s cols r, row s u.mem w cols r
      = s.emitRow n c w (vecInt w) (vecInt w) r r ((List.range cols).map (f s r))) :
    ∃ t, exec i s = .next t ∧ t.vecRan (u.rowsBy n c w (v.frame (vDk w)) f) n (v.frame (vDk w)) :=
  h.vecRan hr hexec (last := id) (fun s r _ => hrow s _ r) (fun _ _ => .emitRow ..) fun _ _ => rfl

/-- A row of a two-operand instruction: its operation on the lanes of A and B, which are both INT32 or both FP32. -/
theorem State.rowBin_eq {f : State → Nat → Nat → Word} (hop : iOp w = op)
    (hf : ∀ s r i, vbin (vecInt w) op (vSub w) (s.laneA u.mem n w (vecInt w) r i) (s.laneB u.mem n w (vecInt w) r i)
      = f s r i) (s : State) (cols r : Nat) :
    s.rowBin u.mem n c w cols r
      = s.emitRow n c w (vecInt w) (vecInt w) r r ((List.range cols).map (f s r)) := by
  simp only [State.rowBin, State.rowBy, hop, hf]

/-- UNARY computes its rows, but for a COPY between equal formats. -/
theorem State.unaryRow_eq (hsub : vSub w ≠ 0) (s : State) (m : Memory) (cols r : Nat) :
    s.unaryRow m n c w cols r = s.emitRow n c w (vecInt w) (vecInt w) r r
      ((List.range cols).map fun i => vunary (vecInt w) (vSub w) (s.laneA m n w (vecInt w) r i)) := by
  simp [State.unaryRow, State.rowBy, hsub]

/-- A COPY between equal formats moves the bits. -/
theorem State.unaryRow_copy (hsub : vSub w = 0) (hfmt : vAFmt w = vOFmt w) (s : State) (m : Memory) (cols r : Nat) :
    s.unaryRow m n c w cols r = s.putRow n w r r ((List.range cols).map fun i =>
      s.viewBits n (vA w) (vAStride w) (vAFmt w) (vAHalf w) r i) := by
  simp [State.unaryRow, State.copyRow, hsub, hfmt]

end

/-- Settles O25: a row of each instruction is its operation on the lanes of A and B (`State.rowBin_eq`), in INT32 or in
FP32. -/
theorem vectorArith : Obligations.VectorArith := by
  unfold Obligations.VectorArith
  refine ⟨fun s u n c w v h hr => ?_, fun s u n c w v h hr => ?_, fun s u n c w v h hr => ?_,
    fun s u n c w v h hr => ?_, fun s u n c w v h hr => ?_⟩ <;>
    refine h.vecRanBy hr rfl (State.rowBin_eq h.opcode fun s r i => ?_)
  all_goals cases vecInt w <;> rfl

/-- Settles O26: CMP and SELECT by the lanes of A and B (`State.rowBin_eq`), AFFINE, UNARY and FUNC by the elements of A,
a COPY by the bits of A. -/
theorem vectorCompare : Obligations.VectorCompare := by
  unfold Obligations.VectorCompare
  refine ⟨fun s u n c w v h hr => ?affine, fun s u n c w v h hr => ?cmp, fun s u n c w v h hr => ?select,
    fun s u n c w v h hr hsub => ?unary, fun s u n c w v h hr hsub hfmt => ?copy, fun s u n c w v h hr => ?func⟩
  case affine => exact h.vecRanBy hr rfl fun _ _ _ => rfl
  case cmp => exact h.vecRanBy hr rfl (State.rowBin_eq h.opcode fun _ _ _ => rfl)
  case select => exact h.vecRanBy hr rfl (State.rowBin_eq h.opcode fun _ _ _ => rfl)
  case unary => exact h.vecRanBy hr rfl fun s cols r => s.unaryRow_eq hsub u.mem cols r
  case copy =>
    exact h.vecRan hr rfl (last := id) (fun s r _ => s.unaryRow_copy hsub hfmt u.mem _ r) (fun _ _ => .putRow ..)
      fun _ _ => rfl
  case func => exact h.vecRanBy hr rfl fun _ _ _ => rfl

end Sys2Proof.Machine

/-! ## REDUCE_ROW and REDUCE_COL (R122) -/

namespace Sys2Proof.Machine

section
variable {s t u : State} {n c op : Nat} {w : Bytes} {v : Ctx}

/-- A row of REDUCE_ROW that has columns: the tree over its elements, the identity in the columns beyond. -/
theorem State.reduceRowOf_eq {cols : Nat} (hcols : cols ≠ 0) (s : State) (m : Memory) (n c : Nat) (w : Bytes) (r : Nat) :
    s.reduceRowOf m n c w cols r = s.emitRow n c w (redInt w) (vecInt w) r r
      [redOut (vSub w) (redTree (vecInt w) (vSub w) ((List.range 256).map fun i =>
        (if i < cols then redElem (vSub w) (s.laneA m n w (vecInt w) r i) else redIdent (vecInt w) (vSub w), i)))] :=
  if_neg hcols

/-- An element of view A is read from the scratchpad and the tile's banks alone. -/
theorem State.laneA_of_banks (hmem : t.mem = s.mem) (hbanks : (t.tile n).banks = (s.tile n).banks) (m : Memory)
    (int : Bool) (r i : Nat) : t.laneA m n w int r i = s.laneA m n w int r i := by
  have hbank (b : Nat) : (t.tile n).bank b = (s.tile n).bank b := by rw [Tile.bank, Tile.bank, hbanks]
  have hview (base stride fmt half : Nat) :
      t.viewBits n base stride fmt half r i = s.viewBits n base stride fmt half r i := by
    simp only [State.viewBits, hbank, hmem]
  have hfront (base stride fmt half : Nat) :
      (t.upFront m).viewBits n base stride fmt half r i = (s.upFront m).viewBits n base stride fmt half r i := by
    have hbank' (b : Nat) : ((t.upFront m).tile n).bank b = ((s.upFront m).tile n).bank b := hbank b
    simp only [State.viewBits, hbank']
    rfl
  unfold State.laneA
  split <;> simp only [hview, hfront]

theorem State.vecAlone_banks (u : State) (n c : Nat) (w : Bytes) (fr : Frame) :
    ((u.vecAlone n c w fr).tile n).banks = (u.tile n).banks := by
  rw [State.vecAlone, State.modTile_tile]

/-- An instruction that is alone in the engine and has computed nothing has no write that is due. -/
theorem State.vecOwn_vecAlone (u : State) (n c : Nat) (w : Bytes) (fr : Frame) (k : Nat) :
    (u.vecAlone n c w fr).vecOwn n k = u.vecAlone n c w fr := by
  have hjob : ((u.vecAlone n c w fr).tile n).vec[((u.vecAlone n c w fr).tile n).vecRead - 1]?
      = some { ctx := c, word := w, frame := fr, read := true } := by
    rw [State.vecAlone, State.modTile_tile]
    rfl
  have hdue : (⟨c, w, fr, true, []⟩ : VecJob).due k = ([], []) := rfl
  simp only [State.vecOwn, hjob, hdue, State.each, List.foldl_nil]
  exact State.modTile_modTile ..

/-- Rows that write nothing leave the state that they are read from, and what is seen of each. -/
theorem State.rowsRead_of_fixed {α : Type} {A : State} (seen : State → Nat → α) (hahead : A.vecAhead n = A)
    (hown : ∀ r, A.vecOwn n r = A) (rs : List Nat) (l : List α) :
    rs.foldl (fun p r => ((p.1.vecAhead n).vecOwn n r, p.2 ++ [seen ((p.1.vecAhead n).vecOwn n r) r])) (A, l)
      = (A, l ++ rs.map (seen A)) := by
  induction rs generalizing l with
  | nil => simp
  | cons r rs ih => rw [List.foldl_cons, hahead, hown, ih, List.map_cons, List.append_assoc, List.singleton_append]

/-- REDUCE_COL, alone in the engine, sees the lanes of every row and writes its results after the last. -/
theorem State.vecRows_reduceCol (hempty : (u.tile n).vec = []) (hop : iOp w = 0x1F) (fr : Frame) :
    (u.modTile n fun x => { x with vec := x.vec ++ [{ ctx := c, word := w, frame := fr }] }).vecRows n
        { ctx := c, word := w, frame := fr } (fun s _ _ _ _ => s) (fun s w fr seen => s.reduceColOf n c w fr seen)
      = ((u.vecAlone n c w fr).reduceColOf n c w fr ((List.range fr.rows).map fun r =>
          (List.range fr.cols).map fun i => u.laneA u.mem n w (vecInt w) r i)).vecOwn n fr.rows := by
  have hahead : (u.vecAlone n c w fr).vecAhead n = u.vecAlone n c w fr :=
    State.vecAhead_single (by simp [State.vecAlone])
  have hlane (r i : Nat) : (u.vecAlone n c w fr).laneA u.mem n w (vecInt w) r i = u.laneA u.mem n w (vecInt w) r i :=
    State.laneA_of_banks (by exact State.modTile_mem ..) (u.vecAlone_banks n c w fr) ..
  have hseen (r : Nat) : (u.vecAlone n c w fr).vecSeen u.mem n w fr.cols r
      = (List.range fr.cols).map fun i => u.laneA u.mem n w (vecInt w) r i := by
    simp only [State.vecSeen, hop, if_true, hlane]
  have hrows := State.rowsRead_of_fixed (fun s r => s.vecSeen u.mem n w fr.cols r) hahead
    (u.vecOwn_vecAlone n c w fr) (List.range fr.rows) []
  simp only [hseen, List.nil_append] at hrows
  have hmem : (u.vecAlone n c w fr).mem = u.mem := State.modTile_mem ..
  simp only [State.vecRows, State.vecAlone_of_empty hempty, hahead, hmem, hrows]

end
end Sys2Proof.Machine

/-! ## The queue of the vector engine (R124, R125) -/

namespace Sys2Proof.Machine

/-- What names an issued instruction: its context, its word and the frame it took. -/
def VecJob.issued (j : VecJob) : Nat × Bytes × Frame := (j.ctx, j.word, j.frame)

/-- The engine of tile `n` holds the same instructions in `t` as in `s`, and the tile's contexts have the same flags: what
neither a row of an instruction nor a write of its results that lands changes. -/
structure QueueLike (n : Nat) (s t : State) : Prop where
  issued : (t.tile n).vec.map VecJob.issued = (s.tile n).vec.map VecJob.issued
  flags : ∀ c, (t.ctx? n c).map Ctx.flags = (s.ctx? n c).map Ctx.flags

section
variable {s t u : State} {n : Nat}

theorem QueueLike.refl (s : State) : QueueLike n s s := ⟨rfl, fun _ => rfl⟩

theorem QueueLike.trans (h : QueueLike n s t) (k : QueueLike n t u) : QueueLike n s u :=
  ⟨k.issued.trans h.issued, fun c => (k.flags c).trans (h.flags c)⟩

theorem QueueLike.of_tiles (h : t.tiles = s.tiles) : QueueLike n s t := by
  have htile : t.tile n = s.tile n := State.tile_of_tiles h n
  constructor <;> simp [State.ctx?, htile]

theorem QueueLike.each {α : Type} {f : State → α → State} (hf : ∀ s a, QueueLike n s (f s a)) (l : List α) :
    QueueLike n s (s.each l f) := by
  induction l generalizing s with
  | nil => exact .refl s
  | cons a l ih => exact (hf s a).trans ih

/-- A change of the engine's queue that keeps the names of its instructions. -/
theorem QueueLike.modVec (s : State) (f : Tile → List VecJob)
    (hf : (f (s.tile n)).map VecJob.issued = (s.tile n).vec.map VecJob.issued) :
    QueueLike n s (s.modTile n fun x => { x with vec := f x }) := by
  constructor <;> simp [State.ctx?, hf]

/-- A change of what the instructions in the queue have still to write. -/
theorem QueueLike.modOuts (s : State) (f : Tile → VecJob × Nat → VecJob)
    (hf : ∀ x e, (f x e).issued = e.1.issued) :
    QueueLike n s (s.modTile n fun x => { x with vec := x.vec.zipIdx.map (f x) }) := by
  refine .modVec s _ ?_
  calc ((s.tile n).vec.zipIdx.map (f (s.tile n))).map VecJob.issued
      = ((s.tile n).vec.zipIdx.map Prod.fst).map VecJob.issued := by simp only [List.map_map, Function.comp_def, hf]
    _ = (s.tile n).vec.map VecJob.issued := by rw [List.zipIdx_map_fst]

theorem QueueLike.vecPut (s : State) (o : VecOut) : QueueLike n s (s.vecPut n o) :=
  .modOuts s (fun x (j, i) => if i + 1 = x.vecRead then { j with out := j.out ++ [o] } else j) fun x (j, i) => by
    dsimp only
    split <;> rfl

theorem QueueLike.vecLand (s : State) (o : VecOut) : QueueLike n s (s.vecLand n o) :=
  .of_tiles (tiles_of (State.vecLand_same (.refl _ s) n o rfl))

theorem QueueLike.vecOwn (s : State) (k : Nat) : QueueLike n s (s.vecOwn n k) := by
  unfold State.vecOwn
  dsimp only
  split
  · exact .refl s
  · refine (QueueLike.each QueueLike.vecLand _).trans
      (.modOuts _ (fun x (j, i) => if i + 1 = x.vecRead then { j with out := _ } else j) fun x (j, i) => ?_)
    dsimp only
    split <;> rfl

/-- Writes taken from the front leave the instructions that they are taken from. -/
theorem takeOuts_issued (k : Nat) (js : List VecJob) :
    (takeOuts k js).2.map VecJob.issued = js.map VecJob.issued := by
  induction js generalizing k with
  | nil => rfl
  | cons j js ih => exact congrArg (j.issued :: ·) (ih _)

theorem QueueLike.vecAhead (s : State) : QueueLike n s (s.vecAhead n) := by
  unfold State.vecAhead
  dsimp only
  split
  · exact .refl s
  · have hland (os : List VecOut) : (s.freeVal.2.each os fun s o => s.vecLand n o).tiles = s.tiles :=
      tiles_of (.each (State.freeVal_same (.refl _ s) rfl) _ _ fun _ o h => State.vecLand_same h n o rfl)
    refine (QueueLike.of_tiles (hland _)).trans (.modVec _ _ ?_)
    rw [State.tile_of_tiles (hland _), List.map_append, takeOuts_issued, ← List.map_append]
    exact congrArg _ (List.take_append_drop ..)

theorem QueueLike.putRow (s : State) (w : Bytes) (at_ r : Nat) (cs : List Nat) :
    QueueLike n s (s.putRow n w at_ r cs) := .vecPut ..

/-- A change of a context that keeps its flags keeps those of every context of the tile. -/
theorem State.modCtx_flags (s : State) (n c d : Nat) {f : Ctx → Ctx} (hf : ∀ v, (f v).flags = v.flags) :
    ((s.modCtx n c f).ctx? n d).map Ctx.flags = (s.ctx? n d).map Ctx.flags := by
  unfold State.modCtx
  split
  case h_2 => rfl
  case h_1 v hv =>
    unfold State.ctx? at hv ⊢
    rw [State.setCtx, State.modTile_tile]
    by_cases hd : d = c
    · rw [hd, FMap.find_set_self, hv, Option.map_some, Option.map_some, hf]
    · rw [FMap.find_set_ne _ _ hd]

theorem QueueLike.countLayer (s : State) (c : Nat) (w : Bytes) (k sat : Nat) :
    QueueLike n s (s.countLayer n c w k sat) := by
  refine ⟨congrArg _ (s.countLayer_vec n c w k sat n), fun d => ?_⟩
  unfold State.countLayer
  dsimp only
  split
  · exact s.modCtx_flags n c d fun _ => rfl
  · rfl

theorem QueueLike.drawn (s : State) (b : Bool) (k : Nat) :
    QueueLike n s (if b then s.drawsOf n 0 k else ([], s)).2 := by
  split <;> exact .of_tiles rfl

theorem QueueLike.emitRow (s : State) (c : Nat) (w : Bytes) (resInt int : Bool) (at_ r : Nat) (xs : List Word) :
    QueueLike n s (s.emitRow n c w resInt int at_ r xs) :=
  ((QueueLike.drawn s _ _).trans (.putRow ..)).trans (.countLayer ..)

theorem QueueLike.mxRow (s : State) (m : Memory) (c : Nat) (w : Bytes) (cols r : Nat) :
    QueueLike n s (s.mxRow m n c w cols r) :=
  (((QueueLike.drawn s _ _).trans (.putRow ..)).trans (.each (fun _ _ => .vecPut ..) _)).trans (.countLayer ..)

/-! ### The rows of an instruction, by its opcode -/

theorem QueueLike.unaryRow (s : State) (m : Memory) (c : Nat) (w : Bytes) (cols r : Nat) :
    QueueLike n s (s.unaryRow m n c w cols r) := by
  unfold State.unaryRow
  split
  · exact .putRow ..
  · exact .emitRow ..

theorem QueueLike.anyQuantRow (s : State) (m : Memory) (c : Nat) (w : Bytes) (cols r : Nat) :
    QueueLike n s (s.anyQuantRow m n c w cols r) := by
  unfold State.anyQuantRow
  split
  · exact .mxRow ..
  · exact .emitRow ..

theorem QueueLike.reduceRowOf (s : State) (m : Memory) (c : Nat) (w : Bytes) (cols r : Nat) :
    QueueLike n s (s.reduceRowOf m n c w cols r) := by
  unfold State.reduceRowOf
  split
  · exact .refl s
  · exact .emitRow ..

theorem QueueLike.vecRow (s : State) (m : Memory) (c : Nat) (w : Bytes) (cols r : Nat) :
    QueueLike n s (s.vecRow m n c w cols r) := by
  unfold State.vecRow
  dsimp only
  split -- AFFINE
  · exact .emitRow ..
  split -- UNARY
  · exact .unaryRow ..
  split -- FUNC
  · exact .emitRow ..
  split -- CONVERT
  · exact .emitRow ..
  split -- QUANT
  · exact .anyQuantRow ..
  split -- RESCALE
  · exact (QueueLike.putRow ..).trans (.countLayer ..)
  split -- ROTATE
  · exact .emitRow ..
  split -- REDUCE_ROW
  · exact .reduceRowOf ..
  split -- REDUCE_COL
  · exact .refl s
  · exact .emitRow ..

theorem QueueLike.mxTags (s : State) (w : Bytes) (fr : Frame) : QueueLike n s (s.mxTags n w fr) := by
  unfold State.mxTags
  split
  · exact (QueueLike.vecPut ..).trans (.vecPut ..)
  · exact .refl s

theorem QueueLike.vecFin (s : State) (c : Nat) (w : Bytes) (fr : Frame) (seen : List (List Word)) :
    QueueLike n s (s.vecFin n c w fr seen) := by
  unfold State.vecFin
  split
  · exact .mxTags ..
  split
  · exact .emitRow ..
  · exact .refl s

/-! ### An instruction comes to be read -/

/-- The first instruction that has not been read, `j`, is marked as read. -/
def State.markRead (s : State) (n : Nat) (j : VecJob) : State :=
  s.modTile n fun x => { x with vec := x.vec.take x.vecRead ++ (({ j with read := true } : VecJob) ::
    x.vec.drop (x.vecRead + 1)) }

/-- Where `j` stands behind the instructions that have been read, marking it changes no name and no flag. -/
theorem QueueLike.markRead {l : List VecJob} {j : VecJob} (hvec : (s.tile n).vec = l ++ [j])
    (hl : l.all (·.read) = true) (hj : j.read = false) : QueueLike n s (s.markRead n j) := by
  have hread : (s.tile n).vecRead = l.length := by
    rw [Tile.vecRead, hvec, List.filter_append, List.filter_eq_self.2 (List.all_eq_true.1 hl)]
    simp [hj]
  refine .modVec s _ ?_
  simp [hread, hvec, VecJob.issued]

/-- Reading an instruction's rows changes the names in the queue and the flags only by marking it. -/
theorem QueueLike.vecRows (s : State) (j : VecJob) (c : Nat) :
    QueueLike n (s.markRead n j) (s.vecRows n j (fun s u w k r => s.vecRow u n c w k r)
      fun s w fr seen => s.vecFin n c w fr seen) := by
  have hrows (m : Memory) (rs : List Nat) (s : State) (l : List (List Word)) :
      QueueLike n s (rs.foldl (fun p r =>
        let s := (State.vecAhead p.1 n).vecOwn n r
        (s.vecRow m n c j.word j.frame.cols r, p.2 ++ [s.vecSeen m n j.word j.frame.cols r])) (s, l)).1 := by
    induction rs generalizing s l with
    | nil => exact .refl s
    | cons r rs ih =>
      rw [List.foldl_cons]
      exact (((QueueLike.vecAhead s).trans (.vecOwn ..)).trans (.vecRow ..)).trans (ih ..)
  exact ((QueueLike.vecAhead _).trans (hrows ..)).trans ((QueueLike.vecFin ..).trans (.vecOwn ..))

section
variable {j : VecJob} {row row' : State → Memory → Bytes → Nat → Nat → State}
  {fin fin' : State → Bytes → Frame → List (List Word) → State}

/-- Rows of the instruction's own word are all that is read of it. -/
theorem State.vecGo_congr (hrow : ∀ s m k r, row s m j.word k r = row' s m j.word k r)
    (hfin : ∀ s fr seen, fin s j.word fr seen = fin' s j.word fr seen) (s : State) (n : Nat) :
    s.vecGo n j row fin = s.vecGo n j row' fin' := by
  simp only [State.vecGo, State.vecRows, hrow, hfin]

/-- A vector instruction is issued where its word has its opcode. -/
theorem State.issueVec_congr {op : Nat} (hrow : ∀ s m w k r, iOp w = op → row s m w k r = row' s m w k r)
    (hfin : ∀ s w fr seen, iOp w = op → fin s w fr seen = fin' s w fr seen) (s : State) (n c : Nat) :
    s.issueVec n c op row fin = s.issueVec n c op row' fin' := by
  unfold State.issueVec State.issue1
  split
  · rfl
  split
  · rfl
  next v _ =>
    dsimp only
    split
    · rfl
    next hop =>
      have hop' : iOp (s.nextWord n v) = op := by simpa using hop
      have hgo (s' : State) (fr : Frame) := State.vecGo_congr (j := ⟨c, s.nextWord n v, fr, false, []⟩)
        (fun s m k r => hrow s m _ k r hop') (fun s fr seen => hfin s _ fr seen hop') s' n
      simp only [hgo]

end

variable {c : Nat}

/-- Each vector instruction is issued with the rows that its opcode has. -/
theorem exec_vecOps {op : Instr × Nat} (hop : op ∈ vecOps n c) (s : State) :
    exec op.1 s = .next (s.issueVec n c op.2 (fun s u w k r => s.vecRow u n c w k r)
      fun s w fr seen => s.vecFin n c w fr seen) := by
  simp only [vecOps, List.mem_cons, List.not_mem_nil, or_false] at hop
  rcases hop with rfl | rfl | rfl | rfl | rfl | rfl | rfl | rfl | rfl | rfl | rfl | rfl | rfl | rfl | rfl | rfl
  all_goals
    refine congrArg Host.Outcome.next (State.issueVec_congr (fun s m w k r hw => ?_) (fun s w fr seen hw => ?_) s n c)
    · simp [State.vecRow, hw]
    · simp [State.vecFin, vecNone, hw]

end
end Sys2Proof.Machine

namespace Sys2Proof.Machine

/-! ### Issue -/

section
variable {s u : State} {n c op : Nat} {w : Bytes} {v v₁ : Ctx}

/-- An instruction joins the queue of tile `n`'s engine. -/
def State.join (u : State) (n : Nat) (j : VecJob) : State := u.modTile n fun x => { x with vec := x.vec ++ [j] }

theorem State.join_vec (u : State) (n : Nat) (j : VecJob) : ((u.join n j).tile n).vec = (u.tile n).vec ++ [j] := by
  rw [State.join, State.modTile_tile]

section
variable (row : State → Memory → Bytes → Nat → Nat → State) (fin : State → Bytes → Frame → List (List Word) → State)

/-- An instruction that finds another still to be read waits behind it (R124). -/
theorem State.issuing.issueVec_waits (h : s.issuing n c op w v u) (hrows : (v.frame (vDk w)).rows ≠ 0)
    (hread : (u.tile n).vec.all (·.read) = false) :
    s.issueVec n c op row fin = u.join n { ctx := c, word := w, frame := v.frame (vDk w) } := by
  rw [State.issueVec, h.issue1]
  simp only [if_neg hrows, hread, Bool.not_false, if_true]
  rfl

/-- One that finds none is read when the engine comes to it. -/
theorem State.issuing.issueVec_starts (h : s.issuing n c op w v u) (hrows : (v.frame (vDk w)).rows ≠ 0)
    (hread : (u.tile n).vec.all (·.read) = true) :
    s.issueVec n c op row fin =
      let j : VecJob := { ctx := c, word := w, frame := v.frame (vDk w) }
      let p := (u.join n j).vecStarts n
      if p.1 then p.2.vecGo n j row fin else p.2 := by
  rw [State.issueVec, h.issue1]
  simp only [if_neg hrows, hread, Bool.not_true, Bool.false_eq_true, if_false]
  rfl

/-- One without rows is done at once (R123). -/
theorem State.issuing.issueVec_empty (h : s.issuing n c op w v u) (hrows : (v.frame (vDk w)).rows = 0) :
    s.issueVec n c op row fin = (u.signal n c w).freeBanks n w := by
  rw [State.issueVec, h.issue1]
  exact if_pos hrows

end

/-- An instruction that reads no poison and whose tags agree is read. -/
theorem State.vecGo_clean {j : VecJob} (hbad : (vecLines j.word j.frame.rows).any (s.spBad n) = false)
    (htags : s.vecTags n j.word = true) (row : State → Memory → Bytes → Nat → Nat → State)
    (fin : State → Bytes → Frame → List (List Word) → State) : s.vecGo n j row fin = s.vecRows n j row fin := by
  simp only [State.vecGo, hbad, htags, Bool.not_true, Bool.false_eq_true, if_false]

theorem State.vecTags_mem {s t : State} (h : t.mem = s.mem) (n : Nat) (w : Bytes) : t.vecTags n w = s.vecTags n w := by
  simp only [State.vecTags, State.spRead, h]

theorem State.spBad_mem {s t : State} (h : t.mem = s.mem) (n : Nat) : t.spBad n = s.spBad n := by
  funext l
  simp only [State.spBad, h]

/-- Whether an instruction may be read now is a free value, and nothing else turns on it. -/
theorem State.vecStarts_keeps_parts (s : State) (n : Nat) :
    (s.vecStarts n).2.tiles = s.tiles ∧ (s.vecStarts n).2.mem = s.mem :=
  ⟨tiles_of (State.vecStarts_same (.refl _ s) n rfl), mem_of (State.vecStarts_same (.refl _ s) n rfl)⟩

/-- An instruction that joins the queue stays in it as its rows are read. -/
theorem State.issuing.issueVec_queueLike (h : s.issuing n c op w v u) (hrows : (v.frame (vDk w)).rows ≠ 0)
    (hbad : (vecLines w (v.frame (vDk w)).rows).any (u.spBad n) = false) (htags : u.vecTags n w = true) :
    QueueLike n (u.join n { ctx := c, word := w, frame := v.frame (vDk w) })
      (s.issueVec n c op (fun s u w k r => s.vecRow u n c w k r) fun s w fr seen => s.vecFin n c w fr seen) := by
  cases hread : (u.tile n).vec.all (·.read)
  case false =>
    rw [h.issueVec_waits _ _ hrows hread]
    exact .refl _
  case true =>
    let j : VecJob := { ctx := c, word := w, frame := v.frame (vDk w) }
    obtain ⟨htiles, hmem⟩ := (u.join n j).vecStarts_keeps_parts n
    have hstart : QueueLike n (u.join n j) ((u.join n j).vecStarts n).2 := .of_tiles htiles
    have hvec : (((u.join n j).vecStarts n).2.tile n).vec = (u.tile n).vec ++ [j] := by
      rw [State.tile_of_tiles htiles, State.join_vec]
    have hmem' : ((u.join n j).vecStarts n).2.mem = u.mem := hmem
    rw [h.issueVec_starts _ _ hrows hread]
    dsimp only
    split
    · rw [State.vecGo_clean (by rwa [State.spBad_mem hmem']) (by rwa [State.vecTags_mem hmem'])]
      exact hstart.trans ((QueueLike.markRead hvec hread rfl).trans (.vecRows ..))
    · exact hstart

end

/-! ### Completion -/

section
variable {s : State} {n : Nat} {j : VecJob} {js : List VecJob} {v : Ctx}

/-- The instruction `j` in front of the queue has ended, `js` behind it: its last writes have landed, and it has left the
queue, released its banks and inputs, and set its output flags. -/
def State.vecEnded (s : State) (n : Nat) (j : VecJob) (js : List VecJob) : State :=
  (((s.each j.out fun s o => s.vecLand n o).modTile n fun x => { x with vec := js }).freeBanks n j.word).signal
    n j.ctx j.word

theorem exec_vectorInstructionDone (hvec : (s.tile n).vec = j :: js) :
    exec (.vectorInstructionDone n) s = .next ((s.vecEnded n j js).vecFront n js.length) := by
  change execVectorInstructionDone _ _ = _
  simp only [execVectorInstructionDone, hvec]
  rfl

theorem State.freeBanks_mem (s : State) (n : Nat) (w : Bytes) : (s.freeBanks n w).mem = s.mem :=
  mem_of (State.freeBanks_same (.refl _ s) n w rfl)

/-- The memory is written by the results alone. -/
theorem State.vecEnded_mem (s : State) (n : Nat) (j : VecJob) (js : List VecJob) :
    (s.vecEnded n j js).mem = (s.each j.out fun s o => s.vecLand n o).mem :=
  ((State.signal_flagKeeps ..).mem rfl).trans (State.freeBanks_mem ..)

/-- The release of banks leaves the engine's queue. -/
theorem State.freeBanks_vec (s : State) (n : Nat) (w : Bytes) : ((s.freeBanks n w).tile n).vec = (s.tile n).vec :=
  State.each_inv (fun s => (s.tile n).vec) _ _ (fun s b => by rw [State.modBank_tile]) s

theorem State.vecEnded_vec (s : State) (n : Nat) (j : VecJob) (js : List VecJob) :
    ((s.vecEnded n j js).tile n).vec = js := by
  rw [State.vecEnded, State.signal_vec, State.freeBanks_vec, State.modTile_tile]

/-- Its context has the flags that it leaves. -/
theorem State.vecEnded_ctx (h : s.ctx? n j.ctx = some v) (js : List VecJob) :
    ∃ v', (s.vecEnded n j js).ctx? n j.ctx = some v' ∧ v'.flags = flagsAfter j.word v.flags := by
  have hland : (s.each j.out fun s o => s.vecLand n o).tile n = s.tile n :=
    State.tile_of_tiles (tiles_of (.each (.refl _ _) _ _ fun _ o h => State.vecLand_same h n o rfl)) n
  have hctx : (((s.each j.out fun s o => s.vecLand n o).modTile n fun x => { x with vec := js }).freeBanks n
      j.word).ctx? n j.ctx = some v := by
    rw [State.ctx?, State.freeBanks_ctxs, State.modTile_tile, hland]
    exact h
  obtain ⟨v', hv', hlike⟩ := State.signal_ctx j.word hctx
  exact ⟨v', hv', hlike.flags⟩

/-- Where every instruction in the queue has been read, none comes to be read. -/
theorem State.vecFront_of_read (h : (s.tile n).vec.all (·.read) = true) (k : Nat) : s.vecFront n k = s := by
  have hnone : (s.tile n).vec.find? (fun j => !j.read) = none := by simpa using h
  cases k with
  | zero => rfl
  | succ k => simp only [State.vecFront, hnone]

/-- The one instruction in the queue, still to be read, is read at once where no poison or tag forbids it. -/
theorem State.vecFront_single (hvec : (s.tile n).vec = [j]) (hj : j.read = false)
    (hbad : (vecLines j.word j.frame.rows).any (s.spBad n) = false) (htags : s.vecTags n j.word = true) :
    s.vecFront n 1 = s.vecRows n j (fun s u w k r => s.vecRow u n j.ctx w k r)
      fun s w fr seen => s.vecFin n j.ctx w fr seen := by
  have hfind : (s.tile n).vec.find? (fun j => !j.read) = some j := by simp [hvec, hj]
  have hstart : s.vecStarts n = (true, s) := by simp [State.vecStarts, Tile.vecRead, hvec, hj]
  simp only [State.vecFront, hfind, hstart, Bool.not_true, Bool.false_eq_true, if_false]
  exact State.vecGo_clean hbad htags ..

end

/-- Settles O28: REDUCE_ROW as the other instructions read at once, REDUCE_COL by the lanes it has seen
(`State.vecRows_reduceCol`), completion by `State.vecEnded`, and the queue by what reading leaves of it (`QueueLike`). -/
theorem vectorReduce : Obligations.VectorReduce := by
  unfold Obligations.VectorReduce
  refine ⟨fun s u n c w v h hr hcols => ?row, fun s u n c w v h hr => ?col, fun s n j js v hvec hjs hv => ?done,
    fun s s₁ u n j j' v hvec hj hv hs₁ hu hbad htags => ?next,
    fun s u n c op w v hop h hrows hread => ⟨_, exec_vecOps hop s, ?waits⟩,
    fun s u n c op w v hop h hrows hbad htags => ⟨_, exec_vecOps hop s, ?joins⟩,
    fun s u n c op w v v₁ hop h hrows hv => ?empty⟩
  case row =>
    exact h.vecRan hr rfl (last := id) (fun s r _ => s.reduceRowOf_eq hcols ..) (fun _ _ => .emitRow ..) fun _ _ => rfl
  case col =>
    obtain ⟨-, hempty, -, -⟩ := id hr
    have hread := (h.vec hr (fun s _ _ _ _ => s) fun s w fr seen => s.reduceColOf n c w fr seen).trans
      (State.vecRows_reduceCol hempty h.opcode _)
    exact ⟨_, congrArg Host.Outcome.next hread, rfl, rfl⟩
  case done =>
    obtain ⟨v', hv', hflags⟩ := State.vecEnded_ctx hv js
    have hread : ((s.vecEnded n j js).tile n).vec.all (·.read) = true := by rw [State.vecEnded_vec, hjs]
    refine ⟨_, v', (exec_vectorInstructionDone hvec).trans (congrArg _ (State.vecFront_of_read hread _)),
      State.vecEnded_vec .., hv', hflags, State.vecEnded_mem ..⟩
  case next =>
    subst hs₁ hu
    obtain ⟨v', hv', hflags⟩ := State.vecEnded_ctx hv [j']
    have hqueue : ((s.vecEnded n j [j']).tile n).vec = [j'] := State.vecEnded_vec ..
    have hlike := (QueueLike.markRead (l := []) hqueue rfl hj).trans (.vecRows _ j' j'.ctx)
    have hkept := hlike.flags j.ctx
    rw [hv', Option.map_some, Option.map_eq_some_iff] at hkept
    obtain ⟨v₂, hv₂, hkept⟩ := hkept
    exact ⟨_, v₂, _, (exec_vectorInstructionDone hvec).trans
      (congrArg _ (State.vecFront_single hqueue hj hbad htags)), hv₂, hkept.trans hflags, rfl, rfl, rfl⟩
  case waits =>
    rw [h.issueVec_waits _ _ hrows hread]
    exact ⟨h.mem, State.join_vec ..⟩
  case joins =>
    have hnames := (h.issueVec_queueLike hrows hbad htags).issued
    rw [State.join_vec, List.map_append] at hnames
    exact hnames
  case empty =>
    obtain ⟨v', hv', hlike⟩ := State.signal_ctx w hv
    refine ⟨_, v', (exec_vecOps hop s).trans (congrArg _ (h.issueVec_empty _ _ hrows)), ?_, ?_, ?_, hlike.flags⟩
    · exact (State.freeBanks_mem ..).trans (((State.signal_flagKeeps ..).mem rfl).trans h.mem)
    · rw [State.freeBanks_vec, State.signal_vec]
    · rw [State.ctx?, State.freeBanks_ctxs]
      exact hv'

end Sys2Proof.Machine

/-! ## A write of no bytes in the vector engine's queue (R125)

A 4-bit row of an odd number of elements is written with its last byte merged. Where the queue of a state holds such a
write with no bytes at all, which no instruction makes, the merge still stores one byte, and the write's range
(`VecJob.stores`) holds none. -/

namespace Sys2Proof.Machine

/-- An odd write of no bytes. -/
def strayOut : VecOut := { row := 0, addr := 0, data := [], odd := true }

/-- An instruction that has been read, with that write left. -/
def strayJob : VecJob := { ctx := 0, word := [], read := true, out := [strayOut] }

/-- Tile 0's engine holds that instruction, and byte 0 of its scratchpad is 1. -/
def strayState : State :=
  { State.reset with mem := { cells := [(0, 1)] }, tiles := [(0, { vec := [strayJob] })] }

theorem strayState_vec : (strayState.tile 0).vec = [strayJob] := rfl

/-- By the ranges of its writes the instruction stores to no byte. -/
theorem strayJob_stores_nothing (a : Nat) : ¬ strayJob.stores 0 a := by
  rintro (⟨o, ho, hlow, hhigh⟩ | ⟨hread, -⟩)
  · obtain rfl : o = strayOut := by simpa [strayJob] using ho
    exact absurd (hlow.trans_lt hhigh) (by simp [strayOut])
  · exact absurd hread (by decide)

/-- Its write clears byte 0 when it lands. -/
theorem strayState_lands : strayState.mem.read 0 = 1
    ∧ (strayState.each strayJob.out fun s o => s.vecLand 0 o).mem.read 0 = 0 := by
  decide

/-- Refutes O57 in its third clause: in `strayState` the end of the instruction stores to byte 0, which is in the range of
no write in the queue. -/
theorem not_commandFrames : ¬ Obligations.CommandFrames := by
  unfold Obligations.CommandFrames
  rintro ⟨-, -, hdone, -⟩
  have hmem := hdone strayState _ 0 0 (by unfold State.memSound; decide) (exec_vectorInstructionDone strayState_vec)
    fun j hj => by
      obtain rfl : j = strayJob := by simpa [strayState_vec] using hj
      exact strayJob_stores_nothing 0
  obtain ⟨hbefore, hafter⟩ := strayState_lands
  have hread : ((strayState.vecEnded 0 strayJob []).mem).read 0 = strayState.mem.read 0 := hmem
  rw [State.vecEnded_mem, hafter, hbefore] at hread
  exact absurd hread (by decide)

end Sys2Proof.Machine

/-! ## Messages of the lookups (R131, R132, R136) -/

namespace Sys2Proof.Machine

section
variable {s t : State}

/-! ### What the resident ream alone says of a table -/

theorem State.tab_of_ream (h : t.ream = s.ream) (tbl : Nat) : t.tab tbl = s.tab tbl := by
  rw [State.tab, State.tab, h]

theorem State.targets_of_ream (h : t.ream = s.ream) (tbl i : Nat) : t.targets tbl i = s.targets tbl i := by
  simp only [State.targets, State.placeIndex, State.tab_of_ream h]

theorem State.components_of_ream (h : t.ream = s.ream) (tbl : Nat) : t.components tbl = s.components tbl := by
  simp only [State.components, State.tab_of_ream h]

theorem State.parentTable_of_ream (h : t.ream = s.ream) (tbl : Nat) : t.parentTable tbl = s.parentTable tbl := by
  simp only [State.parentTable, State.tab_of_ream h, h]

/-- Where the gather units send what they have for a table: the COMB_TILE of the table whose lookup it is (R139). -/
def State.combTile (s : State) (tbl : Nat) : Nat := tCombTile (s.tab (s.parentTable tbl))

theorem State.combTile_of_ream (h : t.ream = s.ream) (tbl : Nat) : t.combTile tbl = s.combTile tbl := by
  rw [State.combTile, State.combTile, State.parentTable_of_ream h, State.tab_of_ream h]

/-! ### One message on the felt -/

/-- Message `m` from tile `a` to tile `b`, whatever its number. -/
def Flight.carries (f : Flight) (a b : Nat) (m : Msg) : Prop := f.src = a ∧ f.dst = b ∧ f.msg = m

theorem State.sendFelt_carries (s : State) (a b : Nat) (m : Msg) : ∃ f ∈ (s.sendFelt a b m).felt, f.carries a b m :=
  ⟨_, List.mem_append_right _ (List.mem_singleton.2 rfl), rfl, rfl, rfl⟩

theorem State.sendFelt_each_carries {α : Type} {l : List α} {x : α} (hx : x ∈ l) (s : State) (a : Nat) (b : α → Nat)
    (m : α → Msg) : ∃ f ∈ (s.each l fun s y => s.sendFelt a (b y) (m y)).felt, f.carries a (b x) (m x) :=
  FeltGrows.each_some s l _ (fun _ _ => FeltGrows.send _ _ _ _) x hx (fun f => f.carries a (b x) (m x))
    (fun t _ => t.sendFelt_carries ..) fun _ _ => rfl

theorem State.sendFelt_each_ream {α : Type} (s : State) (l : List α) (a : Nat) (b : α → Nat) (m : α → Msg) :
    (s.each l fun s y => s.sendFelt a (b y) (m y)).ream = s.ream :=
  State.each_inv State.ream l (fun s y => s.sendFelt a (b y) (m y)) (fun _ _ => rfl) s

/-! ### DISPATCH -/

/-- The entries of bag `q` of an index list of a post of `queries` queries. -/
def bagEntries (b : Bytes) (queries l q : Nat) : List (Nat × Nat) :=
  (List.range ((bag b l q).2.1 - (bag b l q).1)).map fun i => entryAt b queries ((bag b l q).1 + i)

theorem entryAt_mem_bagEntries {b : Bytes} {queries l q i : Nat} (hi : (bag b l q).1 + i < (bag b l q).2.1) :
    entryAt b queries ((bag b l q).1 + i) ∈ bagEntries b queries l q :=
  List.mem_map.2 ⟨i, List.mem_range.2 (by omega), rfl⟩

/-- The message that carries entry `e` of query `q` to a shard of table `t`, as one of the bag's entries `es`. -/
def entryMsg (k q : Nat) (t : Bytes) (es : List (Nat × Nat)) (e : Nat × Nat) (shard : Nat × Nat × Nat) : Msg :=
  .entry k shard.1 q shard.2.2 (entryWeight t e.2 (es.filter fun e => !outOfRange t e.1).length)

/-- One entry of query `q` is sent to its row's shards, or dropped and counted. -/
def State.dispatchEntry (s : State) (n k tbl q : Nat) (t : Bytes) (es : List (Nat × Nat)) (e : Nat × Nat) : State :=
  if outOfRange t e.1 then (s.count 0x025 tbl 1).modPost k fun v => { v with flags := v.flags ||| 32 }
  else s.each (s.targets tbl e.1) fun s shard => s.sendFelt n shard.2.1 (entryMsg k q t es e shard)

theorem State.dispatchBag_eq (s : State) (n k tbl : Nat) (b : Bytes) (queries l q : Nat) :
    s.dispatchBag n k tbl b queries l q = (if (bag b l q).2.2 then s.count 0x026 tbl 1 else s).each
      (bagEntries b queries l q) fun u => u.dispatchEntry n k tbl q (s.tab tbl) (bagEntries b queries l q) := rfl

theorem FeltGrows.dispatchEntry {n k tbl q : Nat} {b : Bytes} {es : List (Nat × Nat)} {e : Nat × Nat} :
    FeltGrows s (s.dispatchEntry n k tbl q b es e) := by
  unfold State.dispatchEntry
  split
  · exact .of_eq (felt_of (State.modPost_same (State.count_same (.refl _ _) _ _ _ rfl) _ _ rfl))
  · exact .each _ _ _ fun _ _ => FeltGrows.send _ _ _ _

theorem State.dispatchEntry_ream (s : State) (n k tbl q : Nat) (b : Bytes) (es : List (Nat × Nat)) (e : Nat × Nat) :
    (s.dispatchEntry n k tbl q b es e).ream = s.ream := by
  unfold State.dispatchEntry
  split
  · exact ream_of (State.modPost_same (State.count_same (.refl _ _) _ _ _ rfl) _ _ rfl)
  · exact s.sendFelt_each_ream ..

theorem FeltGrows.dispatchBag {n k tbl : Nat} {b : Bytes} {queries l q : Nat} :
    FeltGrows s (s.dispatchBag n k tbl b queries l q) := by
  rw [State.dispatchBag_eq]
  refine FeltGrows.trans (.of_eq ?_) (.each _ _ _ fun _ _ => .dispatchEntry)
  split <;> rfl

theorem FeltGrows.dispatchEnds {n k tbl : Nat} : FeltGrows s (s.dispatchEnds n k tbl) :=
  .each _ _ _ fun _ _ => .each _ _ _ fun _ _ => FeltGrows.send _ _ _ _

/-- An entry in range reaches every shard its row has a part on. -/
theorem State.dispatchBag_sends (s : State) (n k tbl : Nat) (b : Bytes) (queries l q : Nat) {e : Nat × Nat}
    (he : e ∈ bagEntries b queries l q) (hin : outOfRange (s.tab tbl) e.1 = false) {x : Nat × Nat × Nat}
    (hx : x ∈ s.targets tbl e.1) :
    ∃ f ∈ (s.dispatchBag n k tbl b queries l q).felt,
      f.carries n x.2.1 (entryMsg k q (s.tab tbl) (bagEntries b queries l q) e x) := by
  have hcount : (if (bag b l q).2.2 then s.count 0x026 tbl 1 else s).ream = s.ream := by split <;> rfl
  rw [State.dispatchBag_eq]
  refine FeltGrows.each_some _ _ _ (fun _ _ => .dispatchEntry) e he _ (fun t ht => ?_)
    fun t _ => t.dispatchEntry_ream ..
  rw [← State.targets_of_ream (ht.trans hcount)] at hx
  simp only [State.dispatchEntry, hin, Bool.false_eq_true, if_false]
  exact State.sendFelt_each_carries hx ..

/-- End markers go to every shard tile of a table's components. -/
theorem State.dispatchEnds_sends (s : State) (n k : Nat) {tbl dst : Nat} {x : Nat × Nat} (hx : x ∈ s.components tbl)
    (hdst : dst ∈ shardTiles (s.tab x.1)) :
    ∃ f ∈ (s.dispatchEnds n k tbl).felt, f.carries n dst (.gatherEnd k x.1) := by
  refine FeltGrows.each_some _ _ _ (fun _ _ => .each _ _ _ fun _ _ => FeltGrows.send _ _ _ _) x hx _ (fun t ht => ?_)
    fun t _ => t.sendFelt_each_ream _ n id _
  rw [← State.tab_of_ream ht] at hdst
  exact State.sendFelt_each_carries hdst t n id _

/-- The index list of a table is sent, bag by bag. -/
def State.dispatchBags (s : State) (n k tbl : Nat) (b : Bytes) (queries l : Nat) : State :=
  s.each (List.range queries) fun s q => s.dispatchBag n k tbl b queries l q

theorem State.dispatchBag_ream (s : State) (n k tbl : Nat) (b : Bytes) (queries l q : Nat) :
    (s.dispatchBag n k tbl b queries l q).ream = s.ream :=
  ream_of (State.dispatchBag_same (.refl _ s) _ _ _ _ _ _ _ rfl rfl rfl rfl)

theorem State.dispatchBags_ream (s : State) (n k tbl : Nat) (b : Bytes) (queries l : Nat) :
    (s.dispatchBags n k tbl b queries l).ream = s.ream :=
  State.each_inv State.ream _ _ (fun s _ => s.dispatchBag_ream ..) s

theorem State.dispatchBags_sends (s : State) (n k tbl : Nat) (b : Bytes) (queries l : Nat) {q : Nat} (hq : q < queries)
    {e : Nat × Nat} (he : e ∈ bagEntries b queries l q) (hin : outOfRange (s.tab tbl) e.1 = false)
    {x : Nat × Nat × Nat} (hx : x ∈ s.targets tbl e.1) :
    ∃ f ∈ (s.dispatchBags n k tbl b queries l).felt,
      f.carries n x.2.1 (entryMsg k q (s.tab tbl) (bagEntries b queries l q) e x) := by
  refine FeltGrows.each_some _ _ _ (fun _ _ => .dispatchBag) q (List.mem_range.2 hq) _ (fun t ht => ?_)
    fun t _ => t.dispatchBag_ream ..
  rw [← State.tab_of_ream ht] at hin ⊢
  rw [← State.targets_of_ream ht] at hx
  exact t.dispatchBag_sends n k tbl b queries l q he hin hx

theorem State.startGop_felt (s : State) (n c k m : Nat) (w : Bytes) : (s.startGop n c k m w).felt = s.felt :=
  felt_of (State.startGop_same (.refl _ s) n c k m w rfl rfl rfl rfl)

end

section
variable {s u : State} {n c k : Nat} {w : Bytes} {v : Ctx} {p : Post} {l : PList}

theorem exec_dispatch_listed (h : s.issuing n c 0x30 w v u) (hk : v.post = some k) (hp : u.post? k = some p)
    (hl : p.listOf (fld w 12 2) 0 = some l) (hbad : bufBad (p.buf n).2 l.off l.size = false) :
    exec (.dispatch n c) s = .next (((u.dispatchBags n k (fld w 12 2) (((p.buf n).1.drop l.off).take l.size) p.q
      l.entries).dispatchEnds n k (fld w 12 2)).startGop n c k u.io.next w) := by
  change Host.Outcome.next (s.issue1 n c 0x30 _) = _
  rw [h.issue1]
  simp only [hk, Option.bind_some, hp, hl, hbad, Bool.false_eq_true, if_false, State.dispatchBags]

theorem exec_dispatch_unlisted (h : s.issuing n c 0x30 w v u) (hk : v.post = some k) (hp : u.post? k = some p)
    (hl : p.listOf (fld w 12 2) 0 = none) :
    exec (.dispatch n c) s = .next ((u.dispatchEnds n k (fld w 12 2)).startGop n c k u.io.next w) := by
  change Host.Outcome.next (s.issue1 n c 0x30 _) = _
  rw [h.issue1]
  simp only [hk, Option.bind_some, hp, hl]

/-- Whatever the list of a DISPATCH that meets no poison, its end markers go out after it. -/
theorem exec_dispatch_ends (h : s.issuing n c 0x30 w v u) (hk : v.post = some k) (hp : u.post? k = some p)
    (hbad : ∀ l, p.listOf (fld w 12 2) 0 = some l → bufBad (p.buf n).2 l.off l.size = false) :
    ∃ t : State, t.ream = u.ream ∧
      exec (.dispatch n c) s = .next ((t.dispatchEnds n k (fld w 12 2)).startGop n c k u.io.next w) := by
  cases hl : p.listOf (fld w 12 2) 0 with
  | none => exact ⟨u, rfl, exec_dispatch_unlisted h hk hp hl⟩
  | some l => exact ⟨_, u.dispatchBags_ream .., exec_dispatch_listed h hk hp hl (hbad l hl)⟩

end

end Sys2Proof.Machine

/-! ## Gather units (R137 to R139, R145, R157) -/

namespace Sys2Proof.Machine

section
variable {s u : State} {n k tbl loc q : Nat} {w : Word} {g : GWork}

theorem State.gworkOf_names (h : g = u.gworkOf n k tbl) : g.tile = n ∧ g.post = k ∧ g.table = tbl :=
  h ▸ State.gworkOf_is u n k tbl

/-! ### Coalescing -/

theorem State.gatherPeak_keeps_rest (s : State) (tbl m : Nat) : Same (fun f => f != .ctr) s (s.gatherPeak tbl m) :=
  State.gatherPeak_same (.refl _ _) _ _ rfl

/-- An entry of a row the map has: the weight is added for its query. -/
theorem State.coalesce_again {m : FMap Word} (h : FMap.find g.rows loc = some m) :
    s.coalesce g q loc w = (s.setGwork
      { g with rows := FMap.set g.rows loc (FMap.set m q (fadd (FMap.get m q 0) w)) }).count 0x022 g.tile 1 := by
  simp only [State.coalesce, h]

/-- An entry of a new row within the budget: the row joins the map. -/
theorem State.coalesce_new (h : FMap.find g.rows loc = none) (hbudget : g.order.length ≠ tBudget (s.tab g.table)) :
    s.coalesce g q loc w = (s.gatherPeak g.table (g.order.length + 1)).setGwork
      { g with rows := FMap.set g.rows loc [(q, fadd 0 w)], order := g.order ++ [loc] } := by
  have htab := State.tab_of_ream ((s.gatherPeak_keeps_rest g.table (g.order.length + 1)).ream rfl) g.table
  simp only [State.coalesce, h, htab, hbudget, if_false]

/-- An entry of a new row past the budget: the unit stops. -/
theorem State.coalesce_over (h : FMap.find g.rows loc = none) (hbudget : g.order.length = tBudget (s.tab g.table)) :
    s.coalesce g q loc w = (s.gatherPeak g.table (g.order.length + 1)).gatherOver g := by
  have htab := State.tab_of_ream ((s.gatherPeak_keeps_rest g.table (g.order.length + 1)).ream rfl) g.table
  simp only [State.coalesce, h, htab, if_pos hbudget]

/-- The work of a unit that has stopped. -/
def GWork.stopped (g : GWork) : GWork := { g with exceeded := true, reading := [], part := [], bad := [] }

/-- A unit that meets a row past its budget sends one message, the over marker, and its work is stopped. -/
theorem State.gatherOver_stops (s : State) (g : GWork) :
    (∃ f, (s.gatherOver g).felt = s.felt ++ [f] ∧ f.carries g.tile (s.combTile g.table) (.overMark g.post g.table))
      ∧ (s.gatherOver g).gwork? g.tile g.post g.table = some g.stopped := by
  obtain ⟨t, hfelt, hream, hstop⟩ : ∃ t : State, t.felt = s.felt ∧ t.ream = s.ream ∧ s.gatherOver g = t.stopUnit g := by
    have hnoted (f : Post → Post) :
        Same (fun f => f == .felt || f == .ream) s ((s.count 0x023 g.table 1).modPost g.post f) :=
      State.modPost_same (State.count_same (.refl _ _) _ _ _ rfl) _ _ rfl
    unfold State.gatherOver
    extract_lets counted t
    refine ⟨t, ?_, ?_, rfl⟩
    · exact (Same.ite (.refl _ _) (hnoted _)).felt rfl
    · exact (Same.ite (.refl _ _) (hnoted _)).ream rfl
  rw [hstop, ← hfelt, ← State.combTile_of_ream hream]
  exact ⟨⟨_, rfl, rfl, rfl, rfl⟩, t.gwork_setGwork g.stopped⟩

theorem exec_gatherEntryArrival {s₁ : State} {src : Nat} {f : Flight} (ht : s.entryTurn src n = some (f, s₁))
    (hm : f.msg = .entry k tbl q loc w) (hu : u = s₁.accept f) (hlive : u.postLive k = true)
    (hg : g = u.gworkOf n k tbl) (hgo : g.exceeded = false) :
    exec (.gatherEntryArrival n src) s = .next (u.coalesce g q loc w) := by
  change execGatherEntryArrival _ _ _ = _
  simp only [execGatherEntryArrival, ht, hm, ← hu, hlive, ← hg, hgo, Bool.not_true, Bool.or_self, Bool.false_eq_true,
    if_false]

/-! ### The end marker -/

/-- A unit's work once its end marker has come: the map is whole. -/
def GWork.whole (g : GWork) : GWork := { g with ended := true }

/-- Before its post is in the stage of the reads, a unit waits. -/
theorem State.startReads_waits (h : s.inGather g.post g.table = false) : s.startReads g = s := by
  simp only [State.startReads, h, Bool.not_false, Bool.or_true, if_true]

theorem exec_gatherEndMarkerArrival {src : Nat} {f : Flight} (hf : s.feltHead src n Msg.isLookup = some f)
    (hm : f.msg = .gatherEnd k tbl) (hu : u = s.accept f) (hlive : u.postLive k = true) (hg : g = u.gworkOf n k tbl)
    (hgo : g.exceeded = false) :
    exec (.gatherEndMarkerArrival n src) s = .next ((u.setGwork g.whole).startReads g.whole) := by
  have hgoes : (!u.postLive k || g.exceeded) = false := by rw [hlive, hgo]; rfl
  change execGatherEndMarkerArrival _ _ _ = _
  simp only [execGatherEndMarkerArrival, hf, hm, ← hu, ← hg, hgoes, Bool.false_eq_true, if_false, GWork.whole]

/-! ### Row reads -/

/-- A unit's work once the copy of row `loc` at `a` is read: the row is pooled. -/
def State.rowPooled (s : State) (n tbl loc a : Nat) (g : GWork) : GWork :=
  g.pool (expandRow (tRowFmt (s.tab tbl)) (tDim (s.tab tbl)) (s.mem.readN a (rowBytes (s.tab tbl))))
    (s.copyBad a (rowBytes (s.tab tbl)) || s.bucketBad n tbl loc) loc

theorem exec_gatherRowReadDone {r : GRead} {rs : List GRead} (hg : s.gwork? n k tbl = some g)
    (hr : g.reading.find? (fun r => r.loc == loc) = some r) (hrs : g.reading.erase r = rs) :
    exec (.gatherRowReadDone n k tbl loc) s = .next (if rs.isEmpty
      then s.sendPartials (s.rowPooled n tbl loc r.addr { g with reading := rs })
      else s.setGwork (s.rowPooled n tbl loc r.addr { g with reading := rs })) := by
  subst hrs
  change execGatherRowReadDone _ _ _ _ _ = _
  simp only [execGatherRowReadDone, hg, hr]
  rfl

theorem State.delGwork_gwork (s : State) (n k tbl : Nat) : (s.delGwork n k tbl).gwork? n k tbl = none := by
  simp only [State.gwork?, State.delGwork, List.find?_eq_none, List.mem_filter]
  rintro g ⟨-, hg⟩
  simpa using hg

/-- A unit that has read every row sends each of its partial vectors. -/
theorem State.sendPartials_sends (s : State) {x : List Word} (hx : (q, x) ∈ g.part) :
    ∃ f ∈ (s.sendPartials g).felt,
      f.carries g.tile (s.combTile g.table) (.partials g.post g.table q x (g.bad.contains q)) := by
  obtain ⟨f, hf, hcarries⟩ := s.sendFelt_each_carries hx g.tile (fun _ => s.combTile g.table)
    fun y => .partials g.post g.table y.1 y.2 (g.bad.contains y.1)
  exact ⟨f, List.mem_append_left _ hf, hcarries⟩

/-- Its end marker goes last. -/
theorem State.sendPartials_last (s : State) (g : GWork) :
    ∃ f, (s.sendPartials g).felt.getLast? = some f ∧ f.msg = .combineEnd g.post g.table :=
  ⟨_, List.getLast?_concat .., rfl⟩

end

/-- Settles O30: DISPATCH by the bags and end markers it sends (`State.dispatchBags_sends`,
`State.dispatchEnds_sends`), an entry by what it does to the map (`State.coalesce_new`, `State.coalesce_again`,
`State.gatherOver_stops`), a row read by the pooled row and, after the last one, what the unit sends
(`State.sendPartials_sends`). -/
theorem lookups : Obligations.Lookups := by
  unfold Obligations.Lookups
  refine ⟨fun s u n c k w v p l q i x h hk hp hl hbad hq hi hin hx => ?_,
    fun s u n c k w v p x dst h hk hp hbad hx hdst => ?_,
    fun s s₁ u n src k tbl q loc w f g ht hm hu hlive hg hgo hnew hbudget => ?_,
    fun s s₁ u n src k tbl q loc w f g m ht hm hu hlive hg hgo hrow => ?_,
    fun s s₁ u n src k tbl q loc w f g ht hm hu hlive hg hgo hnew hbudget => ?_,
    fun s u n src k tbl f g hf hm hu hlive hg hgo hstage => ?_,
    fun s n k tbl loc g r hg hr hmore => ?_, fun s n k tbl loc q x g r hg hr hlast hx => ?_⟩
  case refine_1 =>
    obtain ⟨f, hf, hcarries⟩ :=
      u.dispatchBags_sends n k (fld w 12 2) _ p.q l.entries hq (entryAt_mem_bagEntries hi) hin hx
    refine ⟨_, f, exec_dispatch_listed h hk hp hl hbad, ?_, hcarries⟩
    rw [State.startGop_felt]
    exact FeltGrows.dispatchEnds f hf
  case refine_2 =>
    obtain ⟨t, ht, hexec⟩ := exec_dispatch_ends h hk hp hbad
    rw [← State.components_of_ream ht] at hx
    rw [← State.tab_of_ream ht] at hdst
    obtain ⟨f, hf, hcarries⟩ := t.dispatchEnds_sends n k hx hdst
    refine ⟨_, f, hexec, ?_, hcarries⟩
    rwa [State.startGop_felt]
  case refine_3 =>
    obtain ⟨rfl, rfl, rfl⟩ := State.gworkOf_names hg
    refine ⟨_, exec_gatherEntryArrival ht hm hu hlive hg hgo, ?_, ?_⟩
    · rw [State.coalesce_new hnew hbudget]
      exact (State.gatherPeak_keeps_rest ..).felt rfl
    · rw [State.coalesce_new hnew hbudget]
      exact State.gwork_setGwork _ _
  case refine_4 =>
    obtain ⟨rfl, rfl, rfl⟩ := State.gworkOf_names hg
    refine ⟨_, exec_gatherEntryArrival ht hm hu hlive hg hgo, ?_, ?_⟩
    · rw [State.coalesce_again hrow]
      rfl
    · rw [State.coalesce_again hrow, State.gwork_of_gat (State.count_gat ..)]
      exact State.gwork_setGwork _ _
  case refine_5 =>
    obtain ⟨rfl, rfl, rfl⟩ := State.gworkOf_names hg
    have hpeak := u.gatherPeak_keeps_rest g.table (g.order.length + 1)
    obtain ⟨⟨f', hfelt, -, hdst, hover⟩, hstopped⟩ := (u.gatherPeak g.table (g.order.length + 1)).gatherOver_stops g
    rw [← State.coalesce_over hnew hbudget] at hfelt hstopped
    rw [hpeak.felt rfl] at hfelt
    rw [State.combTile_of_ream (hpeak.ream rfl)] at hdst
    exact ⟨_, f', exec_gatherEntryArrival ht hm hu hlive hg hgo, hfelt, hover, hdst, hstopped⟩
  case refine_6 =>
    obtain ⟨rfl, rfl, rfl⟩ := State.gworkOf_names hg
    refine ⟨_, exec_gatherEndMarkerArrival hf hm hu hlive hg hgo, ?_⟩
    rw [State.startReads_waits (show (u.setGwork g.whole).inGather g.whole.post g.whole.table = false from hstage)]
    exact ⟨rfl, u.gwork_setGwork g.whole⟩
  case refine_7 =>
    obtain ⟨rfl, rfl, rfl⟩ := State.gwork_is hg
    refine ⟨_, exec_gatherRowReadDone hg hr rfl, ?_⟩
    rw [if_neg (by rwa [List.isEmpty_iff])]
    exact ⟨rfl, rfl, s.gwork_setGwork (s.rowPooled g.tile g.table loc r.addr _)⟩
  case refine_8 =>
    obtain ⟨rfl, rfl, rfl⟩ := State.gwork_is hg
    obtain ⟨f, hf, -, hdst, hm⟩ :=
      s.sendPartials_sends (g := s.rowPooled g.tile g.table loc r.addr { g with reading := [] }) hx
    obtain ⟨f', hf', hm'⟩ := s.sendPartials_last (s.rowPooled g.tile g.table loc r.addr { g with reading := [] })
    exact ⟨_, f, f', exec_gatherRowReadDone hg hr hlast, State.delGwork_gwork .., hf, hm, hdst, hf', hm'⟩

end Sys2Proof.Machine

/-! ## A stray partial of a late post (R50, R141)

A counter of a tile or a partition is kept under 4096 times its number plus the tile's or the partition's, and a post's
partition is any number. For `latePart` the count of BOUND_MISS has the key of tile 0's STRAY_PARTIAL: where the stray
ends a post that is late, the one key counts twice. -/

namespace Sys2Proof.Machine

section
variable {s : State} {k : Nat} {v : Post} {c : Cmd}

/-- Where the post has left its queue and no old version waits for it, clearing it counts nothing. -/
theorem State.clearPost_ctr (hq : s.ream.queue.contains k = false) (hold : s.ream.old = none) :
    (s.clearPost k).ctr = s.ctr := by
  simp only [State.clearPost, State.freeOldVersion, State.dropPost, State.leaveQueue, State.cacheDrop, hq, hold,
    Bool.not_false, if_true]

/-- A post that ends late with INTERNAL, outside an emergency, counts in BOUND_MISS of its partition. -/
theorem State.completePost_boundMiss (hv : s.post? k = some v) (hc : s.cmd? k = some c)
    (hlate : v.late s.ream.mode = true) (hem : v.emergency = false) (hstep : v.step = none)
    (hq : s.ream.queue.contains k = false) (hold : s.ream.old = none) (hpart : v.part < 0x9B * 4096) :
    (s.completePost k stInternal).counter 0x005 v.part = s.counter 0x005 v.part + 1 := by
  have hok : (stInternal = stOk) = False := by decide
  have hpoison : (stInternal = stPoison) = False := by decide
  have hmiss := State.causeAll_ctr (s.count 0x005 v.part 1) cBoundMiss 0x005 v.part (by unfold ctrKey; omega)
  have hream := ream_of (State.causeAll_same (.refl _ (s.count 0x005 v.part 1)) cBoundMiss rfl rfl rfl rfl rfl rfl)
  simp only [State.completePost, hv, hc, hlate, hem, hstep, hok, hpoison, State.stepTaken, decide_false, Bool.false_and,
    Bool.not_false, Bool.and_self, Bool.false_eq_true, if_false, if_true]
  generalize (s.count 0x005 v.part 1).causeAll cBoundMiss = t at hmiss hream
  rw [State.counter, State.clearPost_ctr, State.finish_ctr]
  · exact hmiss.trans (State.count_counter ..)
  · rw [State.finish_ream, State.dropEsc, hream]
    exact hq
  · rw [State.finish_ream, State.dropEsc, hream]
    exact hold

/-- An admitted post that has failed ends once no tile holds a context of it and its update is settled. -/
theorem State.settle_ends (hv : s.post? k = some v) (hphase : v.phase = 3) (htiles : s.inTiles k = false)
    (hupdate : s.updateOpen k = false) (hfail : v.fail ≠ 0) : s.settle k = s.completePost k v.fail := by
  have hne : (v.fail != 0) = true := bne_iff_ne.2 hfail
  simp only [State.settle, hv, hphase, htiles, hupdate, hne, bne_self_eq_false, Bool.or_self, Bool.false_eq_true,
    if_false, if_true]

theorem exec_partialArrival_stray {n src tbl q : Nat} {x : List Word} {b : Bool} {f : Flight}
    (hf : s.feltHead src n Msg.isCombine = some f) (hm : f.msg = .partials k tbl q x b)
    (hnone : (s.combines n k (s.parentTable tbl)).find? (fun g => cBlock g.word == q / 256) = none)
    (hissued : s.combineIssued n k (s.parentTable tbl) (some (q / 256)) = false) (hlive : s.postLive k = true) :
    exec (.partialArrival n src) s
      = .next ((((s.takeFelt f.id).count 0x027 n 1).failPost k stInternal).settle k) := by
  have hnone' : ((s.takeFelt f.id).combines n k ((s.takeFelt f.id).parentTable tbl)).find?
      (fun g => cBlock g.word == q / 256) = none := hnone
  have hissued' : (s.takeFelt f.id).combineIssued n k ((s.takeFelt f.id).parentTable tbl) (some (q / 256)) = false :=
    hissued
  have hlive' : ((s.takeFelt f.id).count 0x027 n 1).postLive k = true := hlive
  change execPartialArrival _ _ _ = _
  simp only [execPartialArrival, hf, hm, hnone', State.stray, hissued', hlive', Bool.false_eq_true, if_false, if_true]

end

/-- The partition whose BOUND_MISS count has the key of tile 0's STRAY_PARTIAL. -/
def latePart : Nat := (0x027 - 0x005) * 4096

theorem State.counter_latePart (s : State) : s.counter 0x027 0 = s.counter 0x005 latePart := rfl

/-- An admitted post of that partition: its bound is 1, and it has finished 2 after its start. -/
def latePost : Post := { ring := 0, seq := 0, part := latePart, q := 1, phase := 3, bound := 1, finish := some 2 }

/-- A partial of the post for tile 0. -/
def lateFlight : Flight := { id := 0, src := 0, dst := 0, msg := .partials 0 0 0 [] false }

/-- The post and its partial stand alone: no tile holds a context, so no COMBINE has issued. -/
def lateState : State :=
  { State.reset with
    posts := [(0, latePost)]
    fe := { cmds := [(0, { farCmd with part := latePart })] }
    felt := [lateFlight] }

/-- `lateState` once the partial has been taken and counted as a stray, and its post has failed. -/
def lateFailed : State := ((lateState.takeFelt 0).count 0x027 0 1).failPost 0 stInternal

/-- The stray counts once, and the late post that it ends counts again under the same key. -/
theorem lateState_counts_twice : (lateFailed.settle 0).counter 0x027 0 = lateState.counter 0x027 0 + 1 + 1 := by
  have hend : lateFailed.settle 0 = lateFailed.completePost 0 stInternal :=
    State.settle_ends (v := latePost.failed stInternal) rfl rfl (by decide) (by decide) (by decide)
  rw [hend, State.counter_latePart]
  exact State.completePost_boundMiss (v := latePost.failed stInternal) rfl rfl (by decide) rfl rfl rfl rfl (by decide)

/-- Refutes O31 in its fourth clause: in `lateState` the stray partial counts twice under the key of STRAY_PARTIAL,
since its post is late and of a partition that is none of the sixteen. -/
theorem not_pooling : ¬ Obligations.Pooling := by
  unfold Obligations.Pooling
  rintro ⟨-, -, -, hstray, -⟩
  obtain ⟨t, ht, hctr, -⟩ := hstray lateState 0 0 0 0 0 [] false lateFlight (by decide) (by decide) rfl (by decide)
    (by decide)
  have hexec : exec (.partialArrival 0 0) lateState = .next (lateFailed.settle 0) :=
    exec_partialArrival_stray (f := lateFlight) (by decide) rfl (by decide) (by decide) (by decide)
  obtain rfl : lateFailed.settle 0 = t := Host.Outcome.next.inj (hexec.symm.trans ht)
  rw [lateState_counts_twice] at hctr
  exact absurd hctr (by decide)

end Sys2Proof.Machine

/-! ## Directory entries of rows (R157, R158, R190) -/

namespace Sys2Proof.Machine

section
variable {s t : State} {n tbl loc : Nat} {e : DirEnt}

/-! ### Writing an entry -/

/-- Which mark the write of an entry clears depends on the memory and the resident ream alone. -/
theorem State.bucketClear_mem_of (hmem : t.mem = s.mem) (hream : t.ream = s.ream) (n tbl loc : Nat) :
    (t.bucketClear n tbl loc).mem = (s.bucketClear n tbl loc).mem := by
  have harea (u : Nat) : t.areaOff u n = s.areaOff u n := by simp only [State.areaOff, State.tab_of_ream hream, hream]
  have hsheet : t.bucketSheet n tbl loc = s.bucketSheet n tbl loc := by
    simp only [State.bucketSheet, State.dirOff, harea, State.tab_of_ream hream, hream]
  have hbad : t.bucketBad n tbl loc = s.bucketBad n tbl loc := by
    simp only [State.bucketBad, hmem, hsheet, State.tab_of_ream hream]
  simp only [State.bucketClear, hbad, hsheet]
  split
  · exact congrArg (Memory.mark · _ false) hmem
  · exact hmem

/-- The write of an entry clears its bucket's mark, and changes nothing else of the memory (R190). -/
theorem State.setDir_mem_of (hmem : t.mem = s.mem) (hream : t.ream = s.ream) (n tbl loc : Nat) (e : Option DirEnt) :
    (t.setDir n tbl loc e).mem = (s.bucketClear n tbl loc).mem := by
  have hkeep (was is : Bool) : Same (fun f => f == .mem || f == .ream) t (t.staleDelta n was is) :=
    State.staleDelta_same (.refl _ _) n was is rfl
  exact State.bucketClear_mem_of (((hkeep _ _).mem rfl).trans hmem) (((hkeep _ _).ream rfl).trans hream) n tbl loc

/-- A directory in which one row has this entry, or none. -/
def dirWith (d : FMap DirEnt) (loc : Nat) : Option DirEnt → FMap DirEnt
  | some e => FMap.set d loc e
  | none => FMap.del d loc

theorem find_dirWith_self (d : FMap DirEnt) (loc : Nat) (e : Option DirEnt) : FMap.find (dirWith d loc e) loc = e := by
  cases e with
  | some e => exact FMap.find_set_self ..
  | none => exact FMap.find_del_self ..

theorem find_dirWith_ne (d : FMap DirEnt) {loc loc' : Nat} (e : Option DirEnt) (h : loc' ≠ loc) :
    FMap.find (dirWith d loc e) loc' = FMap.find d loc' := by
  cases e with
  | some e => exact FMap.find_set_ne _ _ h
  | none => exact FMap.find_del_ne _ h

/-- The directories as the write of an entry leaves them. -/
theorem State.setDir_dirs (s : State) (n tbl loc : Nat) (e : Option DirEnt) :
    (s.setDir n tbl loc e).gat.dirs = FMap.set s.gat.dirs (dirKey n tbl) (dirWith (s.dir n tbl) loc e) := by
  have hkeep (was is : Bool) : ((s.staleDelta n was is).bucketClear n tbl loc).gat = s.gat :=
    gat_of (State.bucketClear_same (State.staleDelta_same (.refl _ _) n was is rfl) n tbl loc rfl)
  cases e <;> simp only [State.setDir, State.dir, hkeep, dirWith]

theorem State.setDir_dirEnt (s : State) (n tbl loc : Nat) (e : Option DirEnt) :
    (s.setDir n tbl loc e).dirEnt n tbl loc = e := by
  rw [State.dirEnt, State.dir, State.setDir_dirs, FMap.get_set_self, find_dirWith_self]

/-- The write of an entry leaves every other entry. -/
theorem State.setDir_dirEnt_ne (s : State) {n tbl loc n' tbl' loc' : Nat} (e : Option DirEnt)
    (h : dirKey n' tbl' = dirKey n tbl → loc' ≠ loc) :
    (s.setDir n tbl loc e).dirEnt n' tbl' loc' = s.dirEnt n' tbl' loc' := by
  simp only [State.dirEnt, State.dir, State.setDir_dirs]
  by_cases hkey : dirKey n' tbl' = dirKey n tbl
  · rw [hkey, FMap.get_set_self, find_dirWith_ne _ _ (h hkey)]
  · rw [FMap.get_set_ne _ _ _ hkey]

/-- The write of an entry counts nothing but HOME_STALE_ROWS. -/
theorem State.setDir_counter (s : State) {id : Nat} (hid : id ≠ 0x037) (n tbl loc : Nat) (e : Option DirEnt) :
    (s.setDir n tbl loc e).counter id n = s.counter id n := by
  have hkey : ctrKey id n ≠ ctrKey 0x037 n := by unfold ctrKey; omega
  have hdelta (was is : Bool) : (s.staleDelta n was is).counter id n = s.counter id n := by
    unfold State.staleDelta
    split
    · rfl
    · exact State.setCtr_counter_ne s _ hkey
  have hclear (t : State) : (t.bucketClear n tbl loc).ctr = t.ctr :=
    ctr_of (State.bucketClear_same (.refl _ t) n tbl loc rfl)
  exact (congrArg (FMap.get · (ctrKey id n) 0) (hclear _)).trans (hdelta _ _)

/-! ### Moves: their start, their end, their release -/

theorem exec_migrationPromote {place : Nat} (hrow : s.rowExists n tbl loc = true) (hpin : tPinned (s.tab tbl) = false)
    (hmove : s.canMove n = true) (hnone : s.dirEnt n tbl loc = none) (hfree : s.placeFree n tbl loc place = true) :
    exec (.migrationPromote n tbl loc place) s
      = .next ((s.moved n).setDir n tbl loc (some { st := 1, place := place })) := by
  change execMigrationPromote _ _ _ _ _ = _
  simp only [execMigrationPromote, hrow, hpin, hmove, hnone, hfree, Bool.not_false, Option.isNone_none, Bool.and_self,
    if_true]

theorem exec_migrationDemote (hrow : s.rowExists n tbl loc = true) (hpin : tPinned (s.tab tbl) = false)
    (hmove : s.canMove n = true) (he : s.dirEnt n tbl loc = some e) (hst : e.st = 2) :
    exec (.migrationDemote n tbl loc) s
      = .next ((s.moved n).setDir n tbl loc (some { e with st := 3, phase := 0, log := 0 })) := by
  have hgo : (s.rowExists n tbl loc && !tPinned (s.tab tbl) && s.canMove n && e.st == 2) = true := by
    simp only [hrow, hpin, hmove, hst, Bool.not_false, beq_self_eq_true, Bool.and_self]
  change execMigrationDemote _ _ _ _ = _
  simp only [execMigrationDemote, he, hgo, if_true]

theorem exec_migrationRelease (he : s.dirEnt n tbl loc = some e) (hst : e.st = 4) (hsweep : e.flipped < s.ream.sweeps)
    (hread : s.readPending n tbl e.place = false) :
    exec (.migrationRelease n tbl loc) s = .next (s.setDir n tbl loc none) := by
  have hgo : (e.st != 4 || decide (s.ream.sweeps ≤ e.flipped)) = false := by
    simp only [hst, bne_self_eq_false, Bool.false_or, decide_eq_false_iff_not, Nat.not_le, hsweep]
  change execMigrationRelease _ _ _ _ = _
  simp only [execMigrationRelease, he, hgo, hread, Bool.false_eq_true, if_false]

/-- A promotion that is abandoned leaves its row with no entry (R161). -/
theorem State.abandonMove_promotion (hst : e.st = 1) :
    s.abandonMove n tbl loc e = (s.count 0x03A n 1).setDir n tbl loc none := by
  simp only [State.abandonMove, hst, if_true]

end

/-! ### What a copy of a row depends on (R157, R160)

A copy first takes the tile's corrected write-backs (R174); it reads and writes by the bytes, the marks and the tier-1
groups alone, so that makes no difference to the memory after it. -/

/-- Two states have the same bytes and marks, and the same tier-1 groups. -/
structure CopiesLike (s t : State) : Prop where
  mem : t.mem = s.mem
  t1 : t.tiers.t1 = s.tiers.t1

section
variable {s t : State}

theorem CopiesLike.trans {u : State} (h : CopiesLike s t) (k : CopiesLike t u) : CopiesLike s u :=
  ⟨k.mem.trans h.mem, k.t1.trans h.t1⟩

theorem CopiesLike.symm (h : CopiesLike s t) : CopiesLike t s := ⟨h.mem.symm, h.t1.symm⟩

theorem CopiesLike.of_same (h : Same (fun f => f == .mem || f == .tiers) s t) : CopiesLike s t :=
  ⟨h.mem rfl, congrArg Tiers.t1 (h.tiers rfl)⟩

/-- Steps that change neither keep two states alike. -/
theorem CopiesLike.of_sides {s' t' : State} (h : CopiesLike s t) (hs : CopiesLike s s') (ht : CopiesLike t t') :
    CopiesLike s' t' :=
  hs.symm.trans (h.trans ht)

theorem CopiesLike.each {α : Type} (h : CopiesLike s t) (l : List α) {f : State → α → State}
    (hf : ∀ s t a, CopiesLike s t → CopiesLike (f s a) (f t a)) : CopiesLike (s.each l f) (t.each l f) := by
  induction l generalizing s t with
  | nil => exact h
  | cons a l ih => exact ih (hf s t a h)

theorem CopiesLike.t1g (h : CopiesLike s t) (g : Nat) : t.t1g g = s.t1g g := by rw [State.t1g, State.t1g, h.t1]

theorem CopiesLike.t1Failed (h : CopiesLike s t) (m : Nat) : t.t1Failed m = s.t1Failed m := by
  rw [State.t1Failed, State.t1Failed, h.t1g]

theorem CopiesLike.t1Bad (h : CopiesLike s t) (m : Nat) : t.t1Bad m = s.t1Bad m := by
  rw [State.t1Bad, State.t1Bad, h.t1Failed, h.mem]

theorem CopiesLike.copyBad (h : CopiesLike s t) (a m : Nat) : t.copyBad a m = s.copyBad a m := by
  simp only [State.copyBad, h.t1Bad, h.mem]

theorem CopiesLike.rebuildIn (s : State) (a m : Nat) : CopiesLike s (s.rebuildIn a m) :=
  .of_same (State.rebuildIn_same (.refl _ _) a m rfl)

theorem CopiesLike.t1Write (h : CopiesLike s t) (a : Nat) (b : Bytes) : CopiesLike (s.t1Write a b) (t.t1Write a b) := by
  have hany : t.anyFailed = s.anyFailed := by rw [State.anyFailed, State.anyFailed, h.t1]
  simp only [State.t1Write, hany, h.t1Failed, h.mem]
  split
  · exact ⟨rfl, h.t1⟩
  · exact ⟨rfl, h.t1⟩

theorem CopiesLike.cacheWritten (s : State) (a m : Nat) : CopiesLike s (s.cacheWritten a m) := by
  unfold State.cacheWritten
  split
  · exact ⟨rfl, rfl⟩
  · exact ⟨rfl, rfl⟩

theorem CopiesLike.writeCopy (h : CopiesLike s t) (a : Nat) (b : Bytes) :
    CopiesLike (s.writeCopy a b) (t.writeCopy a b) := by
  unfold State.writeCopy
  split
  · exact (h.t1Write _ b).of_sides (.cacheWritten ..) (.cacheWritten ..)
  · exact ⟨congrArg (·.writePart a b) h.mem, h.t1⟩

/-- A group that fails is told to the partitions and the control cores, which no copy depends on (R183). -/
theorem CopiesLike.failGroup (h : CopiesLike s t) (g : Nat) : CopiesLike (s.failGroup g) (t.failGroup g) := by
  have hcause (u : State) : CopiesLike u (u.causeAll cT1Failed) :=
    .of_same (State.causeAll_same (.refl _ _) _ rfl rfl rfl rfl rfl rfl)
  have hset (v : T1Group) : CopiesLike (s.setT1g g v) (t.setT1g g v) := ⟨h.mem, congrArg (FMap.set · g v) h.t1⟩
  simp only [State.failGroup, h.t1g]
  split
  · exact h
  · exact (hset _).of_sides (hcause _) (hcause _)

theorem CopiesLike.plogAdd (s : State) (kind unit table addr : Nat) : CopiesLike s (s.plogAdd kind unit table addr) :=
  ⟨rfl, rfl⟩

theorem CopiesLike.poisonT1 (h : CopiesLike s t) (m : Nat) : CopiesLike (s.poisonT1 m) (t.poisonT1 m) := by
  have hentries (g : Nat) : t.poisonEntries g = s.poisonEntries g := by
    rw [State.poisonEntries, State.poisonEntries, h.mem]
  simp only [State.poisonT1, h.t1Bad, hentries]
  split
  · exact h
  · split
    · exact (h.failGroup _).of_sides (.plogAdd ..) (.plogAdd ..)
    · exact ⟨congrArg (Memory.mark · _ true) h.mem, h.t1⟩

theorem CopiesLike.poisonT0 (h : CopiesLike s t) (n m : Nat) : CopiesLike (s.poisonT0 n m) (t.poisonT0 n m) := by
  simp only [State.poisonT0, h.mem]
  split
  · exact h
  · exact ⟨rfl, h.t1⟩

/-- A row as it is written by a copy: each sheet named in `bad` becomes poisoned. -/
def State.putCopy (s : State) (dst : Nat) (b : Bytes) (bad : List Nat) : State :=
  (s.writeCopy dst b).each bad fun s i =>
    if isT1 dst then s.poisonT1 ((dst - t1Addr 0) / 256 + i)
    else s.poisonT0 ((dst - t0Addr 0 0) / 2 ^ 31) ((dst - t0Addr 0 0) % 2 ^ 31 / 256 + i)

theorem CopiesLike.putCopy (h : CopiesLike s t) (dst : Nat) (b : Bytes) (bad : List Nat) :
    CopiesLike (s.putCopy dst b bad) (t.putCopy dst b bad) := by
  refine (h.writeCopy dst b).each bad fun s t i h => ?_
  split
  · exact h.poisonT1 _
  · exact h.poisonT0 _ _

/-- The state a copy reads in: sheets of a lost package are rebuilt first (R183). -/
def State.readFor (s : State) (src m : Nat) : State := if isT1 src then s.rebuildIn (src - t1Addr 0) m else s

theorem CopiesLike.readFor (s : State) (src m : Nat) : CopiesLike s (s.readFor src m) := by
  unfold State.readFor
  split
  · exact .rebuildIn ..
  · exact ⟨rfl, rfl⟩

theorem State.moveRow_eq (s : State) (src dst m : Nat) :
    s.moveRow src dst m = (s.readFor src m).putCopy dst ((s.readFor src m).mem.readN src m)
      ((List.range (m / 256)).filter fun i => (s.readFor src m).copyBad (src + 256 * i) 256) := rfl

theorem CopiesLike.moveRow (h : CopiesLike s t) (src dst m : Nat) :
    CopiesLike (s.moveRow src dst m) (t.moveRow src dst m) := by
  have hread : CopiesLike (s.readFor src m) (t.readFor src m) := h.of_sides (.readFor ..) (.readFor ..)
  rw [State.moveRow_eq, State.moveRow_eq]
  simp only [hread.mem, hread.copyBad]
  exact hread.putCopy ..

theorem CopiesLike.drainWb (s : State) (n : Nat) : CopiesLike s (s.drainWb n) := by
  unfold State.drainWb
  split
  · exact ⟨rfl, rfl⟩
  · exact ⟨rfl, rfl⟩

theorem State.moveRow_ream (s : State) (src dst m : Nat) : (s.moveRow src dst m).ream = s.ream :=
  ream_of (State.moveRow_same (.refl _ s) src dst m rfl rfl rfl rfl rfl rfl rfl rfl rfl)

/-- A row's copy once its tile's corrected write-backs are taken, and its entry written: the memory is that of the copy
alone, its bucket's mark cleared. -/
theorem State.moveRow_drained_setDir_mem (s : State) (src dst m n tbl loc : Nat) (e : Option DirEnt) :
    (((s.drainWb n).moveRow src dst m).setDir n tbl loc e).mem = ((s.moveRow src dst m).bucketClear n tbl loc).mem := by
  have hream : (s.drainWb n).ream = s.ream := ream_of (State.drainWb_same (.refl _ s) n rfl)
  refine State.setDir_mem_of ((CopiesLike.drainWb s n).moveRow src dst m).mem ?_ n tbl loc e
  rw [State.moveRow_ream, State.moveRow_ream, hream]

end

/-! ## The steps of a move (R160, R161, R175) -/

section
variable {s : State} {n tbl loc : Nat} {e : DirEnt}

/-- Where a move copies to is the ream's to say, and the partition's segments'. -/
theorem State.drainWb_moveDest (s : State) (n tbl loc : Nat) (e : DirEnt) :
    (s.drainWb n).moveDest n tbl loc e = s.moveDest n tbl loc e := by
  unfold State.drainWb
  split
  · rfl
  · rfl

theorem exec_migrationCopyDone (hcold : s.hotTile n = false) (he : s.moveIn n tbl loc 0 = some e) (hst : e.st = 1)
    (hgood : s.copyBad (s.rowAddr n tbl loc) (rowBytes (s.tab tbl)) = false) :
    exec (.migrationCopyDone n tbl loc) s
      = .next (((s.drainWb n).moveRow (s.rowAddr n tbl loc) (s.placeAddr tbl n e.place) (rowBytes (s.tab tbl))).setDir
          n tbl loc (some { e with phase := 1, stale := false })) := by
  have hdest : (s.drainWb n).moveDest n tbl loc e = s.placeAddr tbl n e.place := by
    rw [State.drainWb_moveDest, State.moveDest, if_pos hst]
  change execMigrationCopyDone _ _ _ _ = _
  simp only [execMigrationCopyDone, he, hcold, hgood, hdest, hst, decide_true, Bool.true_or, Bool.false_eq_true,
    if_false, if_true]

theorem exec_migrationCopyDone_poisoned (hcold : s.hotTile n = false) (he : s.moveIn n tbl loc 0 = some e)
    (hbad : s.copyBad (s.rowAddr n tbl loc) (rowBytes (s.tab tbl)) = true) :
    exec (.migrationCopyDone n tbl loc) s = .next (s.abandonMove n tbl loc e) := by
  change execMigrationCopyDone _ _ _ _ = _
  simp only [execMigrationCopyDone, he, hcold, hbad, Bool.false_eq_true, if_false, if_true]

theorem exec_migrationCatchUpDone (hcold : s.hotTile n = false) (he : s.moveIn n tbl loc 1 = some e)
    (hlog : e.log ≠ 0) (hgood : s.copyBad (s.rowAddr n tbl loc) (rowBytes (s.tab tbl)) = false) :
    exec (.migrationCatchUpDone n tbl loc) s
      = .next (((s.drainWb n).moveRow (s.rowAddr n tbl loc) (s.moveDest n tbl loc e) (rowBytes (s.tab tbl))).setDir
          n tbl loc (some { e with phase := 2, log := 0, stale := false })) := by
  change execMigrationCatchUpDone _ _ _ _ = _
  simp only [execMigrationCatchUpDone, he, hcold, hgood, State.drainWb_moveDest, hlog, Bool.false_eq_true, if_false]

theorem exec_staleRowWriteBack (hcold : s.hotTile n = false) (he : s.dirEnt n tbl loc = some e)
    (hstale : e.stale = true) (hpin : tPinned (s.tab tbl) = false) :
    exec (.staleRowWriteBack n tbl loc) s
      = .next (((s.drainWb n).moveRow (s.placeAddr tbl n e.place) (t1Addr (s.homeAddr tbl n loc))
          (rowBytes (s.tab tbl))).setDir n tbl loc (some { e with stale := false })) := by
  have hdrain : (s.drainWb n).tab = s.tab ∧ (s.drainWb n).placeAddr = s.placeAddr
      ∧ (s.drainWb n).homeAddr = s.homeAddr := by
    unfold State.drainWb
    split <;> exact ⟨rfl, rfl, rfl⟩
  obtain ⟨htab, hplace, hhome⟩ := hdrain
  have hpin' (src dst m : Nat) : tPinned (((s.drainWb n).moveRow src dst m).tab tbl) = false := by
    rw [State.tab_of_ream (State.moveRow_ream ..), htab, hpin]
  change Host.Outcome.next (s.writeBackRow n tbl loc) = _
  simp only [State.writeBackRow, he, hstale, hcold, htab, hplace, hhome, hpin', Bool.not_true, Bool.or_self,
    Bool.false_eq_true, if_false]

/-- While the tile's channel group is hot its maintenance waits (R175). -/
theorem exec_maintenance_waits (hhot : s.hotTile n = true) (tbl loc : Nat) :
    exec (.migrationCopyDone n tbl loc) s = .next s ∧ exec (.migrationCatchUpDone n tbl loc) s = .next s
      ∧ exec (.staleRowWriteBack n tbl loc) s = .next s := by
  refine ⟨?_, ?_, ?_⟩
  · change execMigrationCopyDone _ _ _ _ = _
    unfold execMigrationCopyDone
    split
    · rfl
    · simp only [hhot, if_true]
  · change execMigrationCatchUpDone _ _ _ _ = _
    unfold execMigrationCatchUpDone
    split
    · rfl
    · simp only [hhot, if_true]
  · change Host.Outcome.next (s.writeBackRow n tbl loc) = _
    unfold State.writeBackRow
    split
    · rfl
    · simp only [hhot, Bool.or_true, if_true]

end

/-! ## Clearing ENABLE of MIG_CTRL (R161, Table 7.6) -/

section
variable {s : State} {n tbl loc : Nat} {e : DirEnt}

/-- The move of one row is abandoned, where it has one that has not flipped. -/
def State.abandonAt (s : State) (n tbl loc : Nat) : State :=
  match s.dirEnt n tbl loc with
  | some e => if (e.st == 1 || e.st == 3) && !tPinned (s.tab tbl) then s.abandonMove n tbl loc e else s
  | none => s

theorem State.abandonMoves_eq (s : State) : s.abandonMoves = s.each s.dirRows fun s x => s.abandonAt x.1 x.2.1 x.2.2 :=
  rfl

theorem State.abandonAt_ream (s : State) (n tbl loc : Nat) : (s.abandonAt n tbl loc).ream = s.ream := by
  unfold State.abandonAt
  split
  · split
    · exact ream_of (State.abandonMove_same (.refl _ _) _ _ _ _ rfl rfl rfl)
    · rfl
  · rfl

/-- A promotion is abandoned: its row has no entry. -/
theorem State.abandonAt_promotion (he : s.dirEnt n tbl loc = some e) (hst : e.st = 1)
    (hpin : tPinned (s.tab tbl) = false) : (s.abandonAt n tbl loc).dirEnt n tbl loc = none := by
  have hgo : ((e.st == 1 || e.st == 3) && !tPinned (s.tab tbl)) = true := by
    simp only [hst, hpin, beq_self_eq_true, Bool.true_or, Bool.not_false, Bool.and_self]
  simp only [State.abandonAt, he, hgo, if_true]
  rw [State.abandonMove_promotion hst]
  exact State.setDir_dirEnt ..

/-- Another row keeps its entry. -/
theorem State.abandonAt_dirEnt_ne (s : State) {n tbl loc n' tbl' loc' : Nat}
    (h : dirKey n' tbl' = dirKey n tbl → loc' ≠ loc) :
    (s.abandonAt n tbl loc).dirEnt n' tbl' loc' = s.dirEnt n' tbl' loc' := by
  unfold State.abandonAt
  split
  · split
    · unfold State.abandonMove
      dsimp only
      split
      · exact State.setDir_dirEnt_ne _ _ h
      · exact State.setDir_dirEnt_ne _ _ h
    · rfl
  · rfl

/-- Where a row has no entry none is made. -/
theorem State.abandonAt_none (hnone : s.dirEnt n tbl loc = none) (n' tbl' loc' : Nat) :
    (s.abandonAt n' tbl' loc').dirEnt n tbl loc = none := by
  by_cases h : dirKey n tbl = dirKey n' tbl' → loc ≠ loc'
  · exact (s.abandonAt_dirEnt_ne h).trans hnone
  · obtain ⟨hkey, rfl⟩ : dirKey n tbl = dirKey n' tbl' ∧ loc = loc' := by
      by_contra hne
      exact h fun hkey hloc => hne ⟨hkey, hloc⟩
    have hnone' : s.dirEnt n' tbl' loc = none := by
      rw [← hnone, State.dirEnt, State.dirEnt, State.dir, State.dir, hkey]
    simp only [State.abandonAt, hnone', hnone]

theorem State.abandonEach_none (l : List (Nat × Nat × Nat)) (hnone : s.dirEnt n tbl loc = none) :
    (s.each l fun s x => s.abandonAt x.1 x.2.1 x.2.2).dirEnt n tbl loc = none := by
  induction l generalizing s with
  | nil => exact hnone
  | cons x l ih => exact ih (State.abandonAt_none hnone ..)

theorem dirKey_inj {n tbl n' tbl' : Nat} (h : tbl < 1024) (h' : tbl' < 1024) (hkey : dirKey n tbl = dirKey n' tbl') :
    n = n' ∧ tbl = tbl' := by
  unfold dirKey at hkey
  omega

/-- Of the rows gone through, a promoted one ends with no entry. -/
theorem State.abandonEach_promotion {l : List (Nat × Nat × Nat)} (hl : ∀ x ∈ l, x.2.1 < 1024)
    (hmem : (n, tbl, loc) ∈ l) (he : s.dirEnt n tbl loc = some e) (hst : e.st = 1)
    (hpin : tPinned (s.tab tbl) = false) :
    (s.each l fun s x => s.abandonAt x.1 x.2.1 x.2.2).dirEnt n tbl loc = none := by
  have htbl : tbl < 1024 := hl _ hmem
  induction l generalizing s with
  | nil => cases hmem
  | cons x l ih =>
    have hfirst : x.2.1 < 1024 := hl _ List.mem_cons_self
    by_cases hx : (n, tbl, loc) = x
    · subst hx
      exact State.abandonEach_none l (State.abandonAt_promotion he hst hpin)
    · refine ih (fun y hy => hl y (List.mem_cons_of_mem _ hy)) ((List.mem_cons.1 hmem).resolve_left hx) ?_ ?_
      · refine (State.abandonAt_dirEnt_ne s fun hkey hloc => hx ?_).trans he
        obtain ⟨hn, ht⟩ := dirKey_inj htbl hfirst hkey
        rw [hn, ht, hloc]
      · rwa [State.tab_of_ream (State.abandonAt_ream ..)]

theorem State.dirRows_table_lt {x : Nat × Nat × Nat} (h : x ∈ s.dirRows) : x.2.1 < 1024 := by
  simp only [State.dirRows, List.mem_flatten, List.mem_map] at h
  obtain ⟨_, ⟨d, -, rfl⟩, hx⟩ := h
  obtain ⟨e, -, rfl⟩ := List.mem_map.1 hx
  exact Nat.mod_lt _ (by decide)

theorem State.mem_dirRows (htbl : tbl < 1024) (he : s.dirEnt n tbl loc = some e) : (n, tbl, loc) ∈ s.dirRows := by
  obtain ⟨d, hd, hfind⟩ : ∃ d, FMap.find s.gat.dirs (dirKey n tbl) = some d ∧ FMap.find d loc = some e := by
    unfold State.dirEnt State.dir FMap.get at he
    cases hd : FMap.find s.gat.dirs (dirKey n tbl) with
    | none => simp [hd, FMap.find] at he
    | some d => exact ⟨d, rfl, by simpa only [hd, Option.getD_some] using he⟩
  have hn : dirKey n tbl / 1024 = n := by unfold dirKey; omega
  have ht : dirKey n tbl % 1024 = tbl := by unfold dirKey; omega
  refine List.mem_flatten.2 ⟨_, List.mem_map.2 ⟨_, FMap.mem_of_find hd, rfl⟩, ?_⟩
  exact List.mem_map.2 ⟨_, FMap.mem_of_find hfind, by rw [hn, ht]⟩

theorem State.abandonMoves_promotion (htbl : tbl < 1024) (he : s.dirEnt n tbl loc = some e) (hst : e.st = 1)
    (hpin : tPinned (s.tab tbl) = false) : s.abandonMoves.dirEnt n tbl loc = none := by
  rw [State.abandonMoves_eq]
  exact State.abandonEach_promotion (fun _ => State.dirRows_table_lt) (State.mem_dirRows htbl he) he hst hpin

/-- ENABLE is bit 0 of MIG_CTRL. -/
theorem State.store_migOn (s : State) (x : Word) : (s.store migCtrl 0xFF01 x).migOn = x.getLsbD 0 := by
  rw [← State.store_locked s migCtrl x (mask := 0xFF01) (by decide)]
  rfl

theorem exec_migCtrlEnableClear {x : Word} (hx : x.getLsbD 0 = false) :
    exec (.migCtrlEnableClear x) s = .next (s.store migCtrl 0xFF01 x).abandonMoves := by
  change execMigCtrlEnableClear _ _ = _
  simp only [execMigCtrlEnableClear, State.store_migOn, hx, Bool.false_eq_true, if_false]

theorem State.abandonMoves_migOn (s : State) : s.abandonMoves.migOn = s.migOn := by
  have hregs : s.abandonMoves.regs = s.regs := regs_of (State.abandonMoves_same (.refl _ _) rfl rfl rfl)
  simp only [State.migOn, State.regF, State.regW, hregs]

end

/-- Settles O34: each step of a move by what it makes of the row's entry (`State.setDir_dirEnt`) and of the memory
(`State.setDir_mem_of`, `State.moveRow_drained_setDir_mem`), the cleared ENABLE by induction on the rows of every
directory (`State.abandonEach_promotion`). -/
theorem migration : Obligations.Migration := by
  unfold Obligations.Migration
  refine ⟨fun s n tbl loc place hrow hpin hmove hnone hfree => ?_, fun s n tbl loc e hrow hpin hmove he hst => ?_,
    fun s n tbl loc e hcold he hst hgood => ?_, fun s n tbl loc e hcold he hst hbad => ?_,
    fun s n tbl loc e hcold he hlog hgood => ?_, fun s n tbl loc e he hst hsweep hread => ?_,
    fun s x n tbl loc e hx htbl he hst hpin => ?_, fun s n tbl loc e hcold he hstale hpin => ?_,
    fun s n tbl loc hhot => exec_maintenance_waits hhot tbl loc⟩
  case refine_1 =>
    exact ⟨_, exec_migrationPromote hrow hpin hmove hnone hfree,
      State.setDir_mem_of (s := s) (t := s.moved n) rfl rfl .., State.setDir_dirEnt ..⟩
  case refine_2 =>
    exact ⟨_, exec_migrationDemote hrow hpin hmove he hst,
      State.setDir_mem_of (s := s) (t := s.moved n) rfl rfl .., State.setDir_dirEnt ..⟩
  case refine_3 =>
    exact ⟨_, exec_migrationCopyDone hcold he hst hgood, State.moveRow_drained_setDir_mem .., State.setDir_dirEnt ..⟩
  case refine_4 =>
    refine ⟨_, exec_migrationCopyDone_poisoned hcold he hbad, ?_⟩
    rw [State.abandonMove_promotion hst]
    exact ⟨State.setDir_mem_of (s := s) (t := s.count 0x03A n 1) rfl rfl .., State.setDir_dirEnt ..,
      (State.setDir_counter _ (by decide) ..).trans (State.count_counter ..)⟩
  case refine_5 =>
    exact ⟨_, exec_migrationCatchUpDone hcold he hlog hgood,
      State.moveRow_drained_setDir_mem .., State.setDir_dirEnt ..⟩
  case refine_6 =>
    exact ⟨_, exec_migrationRelease he hst hsweep hread, State.setDir_dirEnt .., State.setDir_mem_of rfl rfl ..⟩
  case refine_7 =>
    refine ⟨_, exec_migCtrlEnableClear hx, ?_, State.abandonMoves_promotion htbl he hst hpin⟩
    rw [State.abandonMoves_migOn, State.store_migOn, hx]
  case refine_8 =>
    exact ⟨_, exec_staleRowWriteBack hcold he hstale hpin, State.moveRow_drained_setDir_mem .., State.setDir_dirEnt ..⟩

end Sys2Proof.Machine

/-! ## GRAD_DISPATCH (R150, R151) -/

namespace Sys2Proof.Machine

section
variable {s : State} {n k tbl off len i : Nat} {b : Bytes} {bad : List Nat}

theorem FeltGrows.gradEntry : FeltGrows s (s.gradEntry n k tbl b bad off len i) := by
  unfold State.gradEntry
  dsimp only
  split
  · exact .of_eq (felt_of (State.modPost_same (State.count_same (.refl _ _) _ _ _ rfl) _ _ rfl))
  · exact FeltGrows.send _ _ _ _

theorem State.gradEntry_ream (s : State) (n k tbl : Nat) (b : Bytes) (bad : List Nat) (off len i : Nat) :
    (s.gradEntry n k tbl b bad off len i).ream = s.ream :=
  ream_of (State.gradEntry_same (.refl _ s) _ _ _ _ _ _ _ _ rfl rfl rfl rfl)

/-- The message that carries entry `i` of a gradient list `b` of `len` entries, which stands `off` bytes into its buffer
set, to the shard tile of its row. -/
def State.gradMsg (s : State) (k tbl : Nat) (b : Bytes) (bad : List Nat) (off len i : Nat) : Msg :=
  let o := 256 * (1 + cdiv (8 * len) 256) + 256 * gradSheets (s.tab tbl) * i
  .grad k tbl (s.placeIndex tbl (fld b (256 + 8 * i) 5)).2 ((b.drop o).take (256 * gradSheets (s.tab tbl)))
    (bufBad bad (off + o) (256 * gradSheets (s.tab tbl)))

/-- An entry in range is one message. -/
theorem State.gradEntry_in_range (hin : outOfRange (s.tab tbl) (fld b (256 + 8 * i) 5) = false) :
    s.gradEntry n k tbl b bad off len i
      = s.sendFelt n (s.placeIndex tbl (fld b (256 + 8 * i) 5)).1 (s.gradMsg k tbl b bad off len i) := by
  simp only [State.gradEntry, hin, Bool.false_eq_true, if_false]
  rfl

/-- The gradient list of a table is sent, entry by entry. -/
def State.gradEntries (s : State) (n k tbl : Nat) (b : Bytes) (bad : List Nat) (off len : Nat) : State :=
  s.each (List.range len) fun s i => s.gradEntry n k tbl b bad off len i

theorem State.gradEntries_ream (s : State) (n k tbl : Nat) (b : Bytes) (bad : List Nat) (off len : Nat) :
    (s.gradEntries n k tbl b bad off len).ream = s.ream :=
  State.each_inv State.ream _ _ (fun s _ => s.gradEntry_ream ..) s

/-- An entry in range reaches its row's shard, whatever the entries before it did. -/
theorem State.gradEntries_sends (s : State) (n k tbl : Nat) {b : Bytes} (bad : List Nat) (off : Nat) {len i : Nat}
    (hi : i < len) (hin : outOfRange (s.tab tbl) (fld b (256 + 8 * i) 5) = false) :
    ∃ f ∈ (s.gradEntries n k tbl b bad off len).felt,
      f.carries n (s.placeIndex tbl (fld b (256 + 8 * i) 5)).1 (s.gradMsg k tbl b bad off len i) := by
  refine FeltGrows.each_some _ _ _ (fun _ _ => .gradEntry) i (List.mem_range.2 hi) _ (fun t ht => ?_)
    fun t _ => t.gradEntry_ream ..
  have htab := State.tab_of_ream ht
  have hplace (x : Nat) : t.placeIndex tbl x = s.placeIndex tbl x := by simp only [State.placeIndex, htab]
  have hmsg : t.gradMsg k tbl b bad off len i = s.gradMsg k tbl b bad off len i := by
    simp only [State.gradMsg, htab, hplace]
  rw [State.gradEntry_in_range (by rwa [htab]), hplace, hmsg]
  exact t.sendFelt_carries ..

theorem FeltGrows.gradEnds {scale : Word} : FeltGrows s (s.gradEnds n k tbl scale) :=
  .each _ _ _ fun _ _ => FeltGrows.send _ _ _ _

/-- An end marker goes to every shard tile. -/
theorem State.gradEnds_sends (s : State) (n k tbl : Nat) (scale : Word) {dst : Nat} (h : dst ∈ shardTiles (s.tab tbl)) :
    ∃ f ∈ (s.gradEnds n k tbl scale).felt, f.carries n dst (.updateEnd k tbl scale) :=
  State.sendFelt_each_carries h s n id _

theorem exec_gradDispatch {u : State} {c : Nat} {w : Bytes} {v : Ctx} {p : Post} {l : PList}
    (h : s.issuing n c 0x32 w v u) (hk : v.post = some k) (hp : u.post? k = some p)
    (hl : p.listOf (fld w 12 2) 1 = some l) (hgood : bufBad (p.buf n).2 l.off (256 + 8 * l.entries) = false) :
    exec (.gradDispatch n c) s = .next (((u.gradEntries n k (fld w 12 2) (((p.buf n).1.drop l.off).take l.size)
      (p.buf n).2 l.off l.entries).gradEnds n k (fld w 12 2)
        (BitVec.ofNat 32 (fld (((p.buf n).1.drop l.off).take l.size) 0 4))).startGop n c k u.io.next w) := by
  change Host.Outcome.next (s.issue1 n c 0x32 _) = _
  rw [h.issue1]
  simp only [hk, Option.bind_some, hp, hl, hgood, Bool.false_eq_true, if_false, State.gradEntries]

end

/-! ## Update units (R152, R153, R155) -/

section
variable {s u : State} {n src k tbl loc step : Nat} {d : Bytes} {x : Word} {f : Flight} {g : UWork}

theorem State.accept_mem (s : State) (f : Flight) : (s.accept f).mem = s.mem :=
  mem_of (State.accept_same (.refl _ s) f rfl rfl rfl rfl rfl)

theorem State.uworkOf_names (h : g = u.uworkOf n k tbl) : g.tile = n ∧ g.post = k ∧ g.table = tbl :=
  h ▸ State.uworkOf_is u n k tbl

theorem State.uwork_of_gat {t : State} (h : t.gat = s.gat) (n k tbl : Nat) : t.uwork? n k tbl = s.uwork? n k tbl := by
  rw [State.uwork?, State.uwork?, h]

/-! ### Gradients -/

theorem exec_gradientArrival (hf : s.feltHead src n Msg.isUpdate = some f) (hm : f.msg = .grad k tbl loc d false)
    (hu : u = s.accept f) (hlive : u.updLive k tbl = true) (hg : g = u.uworkOf n k tbl) (hr : g.report = 0) :
    exec (.gradientArrival n src) s
      = .next (u.addGrad g loc (expandGrad (tGradFmt (u.tab tbl)) (tDim (u.tab tbl)) d) false) := by
  have hgo : (!u.updLive k tbl || g.report != 0) = false := by rw [hlive, hr]; rfl
  change execGradientArrival _ _ _ = _
  simp only [execGradientArrival, hf, hm, ← hu, ← hg, hgo, Bool.false_eq_true, if_false]

/-- A gradient of a new row within the budget: the row joins the map. -/
theorem State.addGrad_new {y : List Word} (hnew : FMap.find g.rows loc = none)
    (hbudget : g.order.length ≠ tUpdBudget (s.tab g.table)) :
    s.addGrad g loc y false = s.setUwork { g with rows := FMap.set g.rows loc y, order := g.order ++ [loc] } := by
  simp only [State.addGrad, hnew, hbudget, Bool.false_eq_true, if_false]

/-- What a row's gradient is once another one has come: the two added, element by element. -/
def gradSum (y z : List Word) : List Word := (y.zip z).map fun (a, b) => fadd a b

/-- A gradient of a row the map has: it is added. -/
theorem State.addGrad_again {y z : List Word} (hrow : FMap.find g.rows loc = some y) :
    s.addGrad g loc z false
      = (s.setUwork { g with rows := FMap.set g.rows loc (gradSum y z) }).count 0x031 g.tile 1 := by
  simp only [State.addGrad, hrow, Bool.false_eq_true, if_false]
  rfl

/-- A gradient of a new row past the budget: the unit's report is over. -/
theorem State.addGrad_over {y : List Word} (hnew : FMap.find g.rows loc = none)
    (hbudget : g.order.length = tUpdBudget (s.tab g.table)) :
    s.addGrad g loc y false = s.setUwork { g with report := 2 } := by
  simp only [State.addGrad, hnew, hbudget, Bool.false_eq_true, if_false, if_true]

/-! ### The step of a unit -/

/-- A unit runs once it has started and its end marker has come; until then its work is kept. -/
theorem State.runUpdate_waits (h : (g.started && g.ended) = false) : s.runUpdate g = s.setUwork g := by
  simp only [State.runUpdate, h, Bool.false_and, Bool.false_eq_true, if_false]

/-- A unit's work with the new row `b` of its own computing, with what Table 4.7 counts of it. -/
def UWork.computed (g : UWork) (loc : Nat) (b : Bytes) (sat : Nat) (resc : Bool) : UWork :=
  { g with new := FMap.set g.new loc b, sat := g.sat + sat, rescaled := g.rescaled + b2n resc }

/-- The pass of a unit over a row that lives in tier-0 and reads without poison: its new row, and nothing else. -/
theorem State.updateRow_t0 {i sat : Nat} {resc : Bool} {b : Bytes} (hr : g.report = 0)
    (ht0 : isT1 (s.rowAddr g.tile g.table loc) = false)
    (hgood : s.copyBad (s.rowAddr g.tile g.table loc) (rowBytes (s.tab g.table)) = false)
    (hbucket : s.bucketBad g.tile g.table loc = false) (hgrad : g.bad.contains loc = false)
    (hnew : newRow (s.tab g.table) (s.mem.readN (s.rowAddr g.tile g.table loc) (rowBytes (s.tab g.table)))
      (FMap.get g.rows loc []) g.scale step
      (fun e => draw (s.tile g.tile).streamKey 1
        ((s.blockStart g.tile step g.table + i * (tDim (s.tab g.table) + 2) + e) % 2 ^ 60)) = some (b, sat, resc)) :
    s.updateRow step g i loc = (s, g.computed loc b sat resc) := by
  have hr0 : (g.report != 0) = false := by rw [hr]; rfl
  have hcold : ({ s with gat := { s.gat with ucold := s.gat.ucold } } : State) = s := rfl
  have hcache : s.rowCache g.table (s.rowAddr g.tile g.table loc) (rowBytes (s.tab g.table)) = s := by
    simp only [State.rowCache, ht0, Bool.not_false, if_true]
  have hok : (s.copyBad (s.rowAddr g.tile g.table loc) (rowBytes (s.tab g.table)) || s.bucketBad g.tile g.table loc
      || g.bad.contains loc) = false := by rw [hgood, hbucket, hgrad]; rfl
  simp only [State.updateRow, hr0, ht0, hcold, hcache, hok, hnew, Bool.false_eq_true, if_false]
  rfl

/-- A unit that has computed its rows is ready, with the bytes of the new rows that were not dirty (R165). -/
def State.unitReady (s : State) (g : UWork) : UWork := { g with report := 1, bytes := s.reportBytes g }

/-- A started unit with its end marker and one row runs. -/
theorem State.runUpdate_single {g' : UWork} (hstart : g.started = true) (hend : g.ended = true) (hr : g.report = 0)
    (hstep : (s.post? g.post).bind (·.step) = some step) (horder : g.order = [loc])
    (hrow : s.updateRow step g 0 loc = (s, g')) (hr' : g'.report = 0) :
    s.runUpdate g = s.setUwork (s.unitReady g') := by
  have hgo : (g.started && g.ended && g.report == 0) = true := by rw [hstart, hend, hr]; rfl
  simp only [State.runUpdate, hgo, hstep, horder, List.zipIdx_singleton, List.foldl_cons, List.foldl_nil, hrow, hr',
    if_true, State.unitReady]

theorem exec_updateStepStart (hlive : s.updLive k tbl = true) (hstage : s.inUpdate k tbl = true)
    (hshard : (shardTiles (s.tab tbl)).contains n = true) (hearlier : s.earlierOpen k tbl = false) :
    exec (.updateStepStart n k tbl) s = .next (s.runUpdate { s.uworkOf n k tbl with started := true }) := by
  have hgo : (s.updLive k tbl && s.inUpdate k tbl && (shardTiles (s.tab tbl)).contains n && !s.earlierOpen k tbl)
      = true := by rw [hlive, hstage, hshard, hearlier]; rfl
  change execUpdateStepStart _ _ _ _ = _
  simp only [execUpdateStepStart, hgo, if_true]

/-! ### The end marker -/

/-- A unit's work once its end marker has come, with the scale it brings. -/
def UWork.whole (g : UWork) (x : Word) : UWork := { g with ended := true, scale := x }

theorem exec_updateEndMarkerArrival (hf : s.feltHead src n Msg.isUpdate = some f) (hm : f.msg = .updateEnd k tbl x)
    (hu : u = s.accept f) (hlive : u.updLive k tbl = true) (hg : g = u.uworkOf n k tbl) (hr : g.report = 0) :
    exec (.updateEndMarkerArrival n src) s = .next (u.runUpdate (g.whole x)) := by
  have hgo : (!u.updLive k tbl || g.report != 0) = false := by rw [hlive, hr]; rfl
  change execUpdateEndMarkerArrival _ _ _ = _
  simp only [execUpdateEndMarkerArrival, hf, hm, ← hu, ← hg, hgo, Bool.false_eq_true, if_false, UWork.whole]

end

/-- Settles O32: GRAD_DISPATCH by the messages it sends (`State.gradEntries_sends`, `State.gradEnds_sends`), a gradient
by what it does to the map (`State.addGrad_new`, `State.addGrad_again`, `State.addGrad_over`), a unit's step by whether it
waits (`State.runUpdate_waits`) or runs (`State.runUpdate_single`, `State.updateRow_t0`). -/
theorem gradients : Obligations.Gradients := by
  unfold Obligations.Gradients
  refine ⟨fun s u n c k i w v p l h hk hp hl hgood hi hin => ?_, fun s u n c k dst w v p l h hk hp hl hgood hdst => ?_,
    fun s n k tbl hlive hstage hshard hearlier hended => ?_,
    fun s u n src k tbl loc d f g hf hm hu hlive hg hr hnew hbudget => ?_,
    fun s u n src k tbl loc d f g y hf hm hu hlive hg hr hrow => ?_,
    fun s u n src k tbl loc d f g hf hm hu hlive hg hr hnew hbudget => ?_,
    fun s u n src k tbl x f g hf hm hu hlive hg hr hstart => ?_,
    fun s u n src k tbl loc step sat resc x f g b hf hm hu hlive hg hr hstart hstep horder ht0 hgood hbucket hgrad
      hnew => ?_⟩
  case refine_1 =>
    obtain ⟨f, hf, hcarries⟩ := u.gradEntries_sends n k (fld w 12 2) (p.buf n).2 l.off hi hin
    refine ⟨_, f, exec_gradDispatch h hk hp hl hgood, ?_, hcarries⟩
    rw [State.startGop_felt]
    exact FeltGrows.gradEnds f hf
  case refine_2 =>
    rw [← State.tab_of_ream (u.gradEntries_ream n k (fld w 12 2) _ (p.buf n).2 l.off l.entries)] at hdst
    obtain ⟨f, hf, hcarries⟩ := State.gradEnds_sends _ n k _ _ hdst
    refine ⟨_, f, exec_gradDispatch h hk hp hl hgood, ?_, hcarries⟩
    rwa [State.startGop_felt]
  case refine_3 =>
    refine ⟨_, exec_updateStepStart hlive hstage hshard hearlier, ?_⟩
    rw [State.runUpdate_waits (by rw [hended, Bool.and_false])]
    exact ⟨rfl, State.uwork_setUwork' s _ (s.uworkOf_is n k tbl)⟩
  case refine_4 =>
    obtain ⟨rfl, rfl, rfl⟩ := State.uworkOf_names hg
    refine ⟨_, exec_gradientArrival hf hm hu hlive hg hr, ?_⟩
    rw [State.addGrad_new hnew hbudget]
    exact State.uwork_setUwork ..
  case refine_5 =>
    obtain ⟨rfl, rfl, rfl⟩ := State.uworkOf_names hg
    refine ⟨_, exec_gradientArrival hf hm hu hlive hg hr, ?_⟩
    rw [State.addGrad_again hrow, State.uwork_of_gat (State.count_gat ..)]
    exact State.uwork_setUwork u _
  case refine_6 =>
    obtain ⟨rfl, rfl, rfl⟩ := State.uworkOf_names hg
    refine ⟨_, exec_gradientArrival hf hm hu hlive hg hr, ?_⟩
    rw [State.addGrad_over hnew hbudget]
    exact State.uwork_setUwork ..
  case refine_7 =>
    obtain ⟨rfl, rfl, rfl⟩ := State.uworkOf_names hg
    refine ⟨_, exec_updateEndMarkerArrival hf hm hu hlive hg hr, ?_⟩
    rw [State.runUpdate_waits (g := g.whole x) (by rw [UWork.whole, hstart, Bool.false_and])]
    exact State.uwork_setUwork ..
  case refine_8 =>
    obtain ⟨rfl, rfl, rfl⟩ := State.uworkOf_names hg
    have hrow : u.updateRow step (g.whole x) 0 loc = (u, (g.whole x).computed loc b sat resc) :=
      State.updateRow_t0 hr ht0 hgood hbucket hgrad (by rw [Nat.zero_mul, Nat.add_zero]; exact hnew)
    refine ⟨_, exec_updateEndMarkerArrival hf hm hu hlive hg hr, ?_⟩
    rw [State.runUpdate_single (g := g.whole x) hstart rfl hr hstep horder hrow hr]
    exact ⟨hu ▸ s.accept_mem f, State.uwork_setUwork ..⟩

end Sys2Proof.Machine

/-! ## TABLE_COMMIT, CHECKPOINT and the end of a commit (R164, R326) -/

namespace Sys2Proof.Machine

/-! ### The commands -/

section
variable {s u : State} {r q : Nat} {c : Cmd}

theorem exec_tableCommit (h : s.passes r q 0x13 c u) (hfree : u.rel.commit = none) :
    exec (.tableCommit r q) s = .next (u.commitStart (cmdKey r q) false) := by
  change execTableCommit _ _ _ = _
  simp only [execTableCommit, h.front, hfree, Option.isSome_none, Bool.false_eq_true, if_false]

/-- Commits run one at a time. -/
theorem exec_tableCommit_busy (h : s.passes r q 0x13 c u) (hbusy : u.rel.commit ≠ none) :
    exec (.tableCommit r q) s = .next (u.finish (cmdKey r q) stCommitBusy) := by
  have hsome : u.rel.commit.isSome = true := Option.isSome_iff_ne_none.2 hbusy
  change execTableCommit _ _ _ = _
  simp only [execTableCommit, h.front, hsome, if_true]

theorem exec_checkpoint (h : s.passes r q 0x51 c u) (hres : u.ream.resident = true) (howner : c.part = u.ream.owner)
    (hroom : 64 + 32 * u.shardList.length ≤ c.f 32 4) (hfree : u.rel.commit = none) :
    exec (.checkpoint r q) s = .next (u.commitStart (cmdKey r q) true) := by
  have hown : (c.part != u.ream.owner) = false := bne_eq_false_iff_eq.2 howner
  change execCheckpoint _ _ _ = _
  simp only [execCheckpoint, h.front, hres, hown, Nat.not_lt.2 hroom, hfree, Option.isSome_none, Bool.not_true,
    Bool.false_eq_true, if_false]

/-- The commit that begins: to the last update step given so far. -/
def State.newCommit (u : State) (k : Nat) (check : Bool) : Commit :=
  { cmd := k, check := check, c := if u.ream.stepped then some (u.ream.updStep - 1) else none }

theorem State.commitStart_commit (u : State) (k : Nat) (check : Bool) :
    (u.commitStart k check).rel.commit = some (u.newCommit k check) := rfl

/-- A command that has passed its checks runs while its commit does. -/
theorem State.passes.committing {op : Nat} (h : s.passes r q op c u) (check : Bool) :
    (u.commitStart (cmdKey r q) check).isRunning (cmdKey r q) :=
  State.isRunning_fe (s := u.setPhase (cmdKey r q) .running) rfl (h.running rfl)

end

/-! ### The end of a commit -/

section
variable {s u w : State} {m : Commit} {c : Cmd} {n : Nat}

/-- No commit runs. -/
def State.noCommit (s : State) : State := { s with rel := { s.rel with commit := none } }

/-- A commit to step `n` ends, its records in the log. -/
def State.commitEnd (s : State) (m : Commit) (n : Nat) : State :=
  if m.check then s.checkpointEnd m n else s.noCommit.finish m.cmd stOk n

/-- What a commit to step `n` waits for in `s`, with `u` the state in which every row is in its home and every change in
the log: the steps have completed, no change is left out, and the log takes the commit's records. -/
structure CommitReady (s u : State) (m : Commit) (n : Nat) : Prop where
  runs : s.rel.commit = some m
  upTo : m.c = some n
  steps : s.stepsOpen m.c = false
  logged : u = s.writeBackAll.appendAll
  homes : u.staleLeft = false
  rows : u.rowsLeft = false
  flips : u.gat.flips = []
  lines : u.digestLines m = []
  fits : (u.append (u.commitRecs m n)).rel.vault.lsn ≠ u.rel.vault.lsn

theorem exec_commitStepsDrained (h : CommitReady s u m n) :
    exec .commitStepsDrained s = .next ((u.append (u.commitRecs m n)).commitEnd m n) := by
  have hsteps : s.stepsOpen (some n) = false := h.upTo ▸ h.steps
  have hall : (u.staleLeft || u.rowsLeft || !u.gat.flips.isEmpty) = false := by rw [h.homes, h.rows, h.flips]; rfl
  change Host.Outcome.next s.commitGo = _
  simp only [State.commitGo, h.runs, hsteps, ← h.logged, hall, h.lines, h.upTo, Option.getD_some, State.appendThen,
    h.fits, List.isEmpty_nil, Bool.not_true, Bool.false_eq_true, if_false]
  rfl

/-- What a commit does before its end leaves the commands in the block. -/
theorem CommitReady.cmd (h : CommitReady s u m n) {k : Nat} (hc : s.cmd? k = some c) (rs : List VRec) :
    (u.append rs).cmd? k = some c := by
  have hback : Same (fun f => f == .fe) s s.writeBackAll := by apply State.writeBackAll_same (.refl _ _) <;> rfl
  have hall : Same (fun f => f == .fe) s u := h.logged ▸ State.appendAll_same hback rfl rfl rfl rfl
  rwa [State.cmd?, fe_of (State.append_same hall rs rfl rfl)]

/-- A plain commit has one record, COMMIT; it writes no digests. -/
theorem State.commitRecs_plain (u : State) (hcheck : m.check = false) (n : Nat) :
    u.commitRecs m n = [{ kind := 7, body := natLe 8 n }] := by
  simp only [State.commitRecs, hcheck, Bool.false_eq_true, if_false]

theorem State.digestLines_plain (u : State) (hcheck : m.check = false) : u.digestLines m = [] := by
  unfold State.digestLines
  split
  · simp only [hcheck, Bool.false_eq_true, if_false]
  · rfl

/-- A checkpoint's digests are written, and its command completes (R326 steps 6 and 7). -/
theorem State.checkpointEnd_eq {x v : State} (hc : w.cmd? m.cmd = some c)
    (hx : x = w.openRange c.part (c.f 16 1) (c.f 24 6) (w.digestList n).length false)
    (hv : v = x.writeSeg (.result m.cmd) c.part (c.f 16 1) (c.f 24 6) (x.digestList n) [])
    (hlink : v.cutOff c = false) : w.checkpointEnd m n = v.noCommit.finish m.cmd stOk n := by
  have hlost : v.noCommit.cutOff c = false := hlink
  unfold State.noCommit at *
  simp only [State.checkpointEnd, hc, ← hx, ← hv, hlost, Bool.false_eq_true, if_false]

/-- Where the digests have been written the commands are as they were. -/
theorem State.digestsWritten_cmd {x v : State} {p g off len k : Nat} {b : Bytes} {use : Use}
    (hx : x = w.openRange p g off len false) (hv : v = x.writeSeg use p g off b []) : v.cmd? k = w.cmd? k := by
  have hopen : Same (fun f => f == .fe) w x := hx ▸ State.openRange_same (.refl _ _) _ _ _ _ _ rfl
  have hwrite : Same (fun f => f == .fe) w v := by
    rw [hv]
    apply State.writeSeg_same hopen <;> rfl
  rw [State.cmd?, State.cmd?, fe_of hwrite]

/-- The commit's command completes with its step. -/
theorem State.noCommit_finish (hc : w.cmd? m.cmd = some c) (hk : m.cmd = cmdKey c.ring c.seq) (n : Nat) :
    (w.noCommit.finish m.cmd stOk n).completed c stOk n 0 ∧ (w.noCommit.finish m.cmd stOk n).rel.commit = none :=
  ⟨State.finish_completed _ _ _ hc hk.symm, congrArg Rel.commit (State.finish_rel ..)⟩

end

/-- Settles O12: the commands by what they begin (`State.commitStart_commit`), the end of a commit by the state in which
its records are in the log (`exec_commitStepsDrained`), where its command is still in the block (`CommitReady.cmd`). -/
theorem commits : Obligations.Commits := by
  unfold Obligations.Commits
  refine ⟨fun s u r q c h hfree => ?_, fun s u r q c h hres howner hroom hfree => ?_, fun s u r q c h hbusy => ?_,
    fun s u m c n hm hcheck hn hsteps hu hstale hrows hflips hfits hc hk => ?_,
    fun s u w x v m c n hm hcheck hn hsteps hu hstale hrows hflips hlines hw hfits hc hk hx hv hlink => ?_⟩
  case refine_1 =>
    exact ⟨_, _, exec_tableCommit h hfree, h.committing false, State.commitStart_commit .., rfl, rfl, rfl⟩
  case refine_2 =>
    exact ⟨_, _, exec_checkpoint h hres howner hroom hfree, h.committing true, State.commitStart_commit ..,
      rfl, rfl, rfl⟩
  case refine_3 =>
    exact ⟨_, exec_tableCommit_busy h hbusy, h.done rfl ..⟩
  case refine_4 =>
    rw [← u.commitRecs_plain hcheck] at hfits
    have hready : CommitReady s u m n := ⟨hm, hn, hsteps, hu, hstale, hrows, hflips, u.digestLines_plain hcheck, hfits⟩
    have hend : ∀ w : State, w.commitEnd m n = w.noCommit.finish m.cmd stOk n := fun w => by
      simp only [State.commitEnd, hcheck, Bool.false_eq_true, if_false]
    refine ⟨_, exec_commitStepsDrained hready, ?_⟩
    rw [hend]
    exact State.noCommit_finish (hready.cmd hc _) hk n
  case refine_5 =>
    subst hw
    have hready : CommitReady s u m n := ⟨hm, hn, hsteps, hu, hstale, hrows, hflips, hlines, hfits⟩
    have hcw := hready.cmd hc (u.commitRecs m n)
    have hend : (u.append (u.commitRecs m n)).commitEnd m n = v.noCommit.finish m.cmd stOk n := by
      simp only [State.commitEnd, hcheck, if_true]
      exact State.checkpointEnd_eq hcw hx hv hlink
    obtain ⟨hdone, hnone⟩ := State.noCommit_finish ((State.digestsWritten_cmd hx hv).trans hcw) hk n
    refine ⟨_, exec_commitStepsDrained hready, ?_⟩
    rw [hend]
    exact ⟨hdone, hnone, State.finish_mem .., State.finish_io ..⟩

end Sys2Proof.Machine

/-! ## What appending to the vault's log keeps (R187, R319) -/

namespace Sys2Proof.Machine

/-- A pass over a list does what its steps do, for a relation of states that steps compose. -/
theorem State.each_of_step {R : State → State → Prop} (hrefl : ∀ s, R s s) (htrans : ∀ {s t u}, R s t → R t u → R s u)
    {α : Type} {f : State → α → State} (h : ∀ t a, R t (f t a)) (l : List α) (s : State) : R s (s.each l f) := by
  induction l generalizing s with
  | nil => exact hrefl s
  | cons a l ih => exact htrans (h s a) (ih (f s a))

/-- What an append keeps of a vault: its records, in their order, the STATE records held, the blocks erased and
retired. -/
structure Vault.Appends (v w : Vault) : Prop where
  log : v.log <+: w.log
  held : w.held = v.held
  cycles : w.cycles = v.cycles
  retired : w.retired = v.retired

theorem Vault.Appends.refl (v : Vault) : v.Appends v := ⟨List.prefix_rfl, rfl, rfl, rfl⟩

theorem Vault.Appends.trans {u v w : Vault} (h : u.Appends v) (k : v.Appends w) : u.Appends w :=
  ⟨h.log.trans k.log, k.held.trans h.held, k.cycles.trans h.cycles, k.retired.trans h.retired⟩

/-- A step that does to the vault at most what an append does. -/
def State.Appends (s t : State) : Prop := s.rel.vault.Appends t.rel.vault

section
variable {s t u : State}

theorem State.Appends.refl (s : State) : s.Appends s := Vault.Appends.refl _

theorem State.Appends.trans (h : s.Appends t) (k : t.Appends u) : s.Appends u := Vault.Appends.trans h k

theorem State.Appends.of_vault (h : t.rel.vault = s.rel.vault) : s.Appends t := by
  rw [State.Appends, h]
  exact .refl _

theorem State.Appends.of_rel (h : t.rel = s.rel) : s.Appends t := .of_vault (congrArg Rel.vault h)

theorem State.Appends.ite {c : Prop} [Decidable c] (h : s.Appends t) (k : s.Appends u) :
    s.Appends (if c then t else u) := by
  split <;> assumption

theorem State.Appends.each {α : Type} {l : List α} {f : State → α → State} (h : ∀ (t : State) a, t.Appends (f t a))
    (s : State) : s.Appends (s.each l f) :=
  State.each_of_step .refl .trans h l s

end

/-! ### Records are written -/

section
variable (s : State)

theorem State.putRec_appends (r : VRec) : s.Appends (s.putRec r) := ⟨List.prefix_append .., rfl, rfl, rfl⟩

theorem State.vaultWait_appends (k : Nat) : s.Appends (s.vaultWait k) := by
  unfold State.vaultWait
  split
  · exact .refl s
  · exact ⟨List.prefix_rfl, rfl, rfl, rfl⟩

/-- An append waits no more. -/
def State.unwait (s : State) (k : Nat) : State := s.modVault fun v => { v with waits := v.waits.filter (· != k) }

theorem State.unwait_appends (k : Nat) : s.Appends (s.unwait k) := ⟨List.prefix_rfl, rfl, rfl, rfl⟩

theorem State.append_appends (rs : List VRec) : s.Appends (s.append rs) := by
  unfold State.append
  split
  · exact s.vaultWait_appends _
  · exact (s.unwait_appends _).trans (State.Appends.each State.putRec_appends _)

theorem State.appendThen_appends (rs : List VRec) {f : State → State} (h : ∀ t : State, t.Appends (f t)) :
    s.Appends (s.appendThen rs f) := by
  unfold State.appendThen
  dsimp only
  split
  · exact s.append_appends rs
  · exact (s.append_appends rs).trans (h _)

theorem State.flipRecs_rel (fs : List (Nat × Nat × Nat × Nat)) : (s.flipRecs fs).1.rel = s.rel :=
  rel_of (State.flipRecs_same (.refl _ s) fs rfl)

theorem State.rowsRec_rel (u : Nat) (rows : List (Nat × Nat)) : (s.rowsRec u rows).1.rel = s.rel :=
  rel_of (State.rowsRec_same (.refl _ s) u rows rfl rfl)

theorem State.stepNext_appends : s.Appends s.stepNext := by
  unfold State.stepNext
  split
  · exact .refl s
  · exact .ite (.refl s) (s.appendThen_appends _ fun _ => ⟨List.prefix_rfl, rfl, rfl, rfl⟩)

/-- A base pass begins: BASE_BEGIN, and the ream's directories. -/
def State.baseStart (s : State) (id : Bytes) : State :=
  (s.flipRecs s.dirFlips).1.appendThen ({ kind := 4, body := id } :: (s.flipRecs s.dirFlips).2) fun t =>
    t.modVault fun v => { v with base := some [] }

theorem State.baseStart_appends (id : Bytes) : s.Appends (s.baseStart id) :=
  (State.Appends.of_rel (s.flipRecs_rel _)).trans
    (State.appendThen_appends _ _ fun _ => ⟨List.prefix_rfl, rfl, rfl, rfl⟩)

theorem State.baseNext_appends : s.Appends s.baseNext := by
  unfold State.baseNext
  dsimp only
  split
  · exact .refl s
  · split
    · exact s.baseStart_appends _
    · split
      · exact .refl s
      · refine s.appendThen_appends _ fun t => ?_
        have hnone : t.Appends (t.modVault fun v => { v with base := none }) := ⟨List.prefix_rfl, rfl, rfl, rfl⟩
        exact hnone.trans (State.baseStart_appends _ _)

theorem State.appendFlips_appends : s.Appends s.appendFlips := by
  unfold State.appendFlips
  split
  · exact .refl s
  · exact (State.Appends.of_rel (s.flipRecs_rel _)).trans (State.appendThen_appends _ _ fun _ => .of_rel rfl)

theorem State.appendRows_appends (u : Nat) (rows : List (Nat × Nat)) : s.Appends (s.appendRows u rows) := by
  unfold State.appendRows
  refine .ite (.refl s) ((State.Appends.of_rel (s.rowsRec_rel u _)).trans (State.appendThen_appends _ _ fun _ => ?_))
  exact ⟨List.prefix_rfl, rfl, rfl, rfl⟩

theorem State.appendAll_appends : s.Appends s.appendAll := by
  unfold State.appendAll
  have hrows (t : State) (u : Nat) (rows : List (Nat × Nat)) :
      t.Appends (t.each (List.range (cdiv rows.length 4096)) fun s i =>
        s.appendRows u ((rows.drop (4096 * i)).take 4096)) :=
    State.Appends.each (fun t i => t.appendRows_appends u _) t
  exact (s.appendFlips_appends.trans (State.Appends.each (fun t u => hrows t u _) _)).trans (State.stepNext_appends _)

end

/-! ### Writes of rows and of the intake leave the vault alone -/

section
variable (s : State)

theorem State.writeHost_rel (use : Use) (p qp rkey addr : Nat) (b : Bytes) (bad : List Nat) :
    (s.writeHost use p qp rkey addr b bad).rel = s.rel :=
  rel_of (State.writeHost_same (.refl _ s) use p qp rkey addr b bad rfl rfl rfl)

/-- A write with no poison logs none. -/
theorem State.writeT1_sound_rel (a : Nat) (b : Bytes) : (s.writeT1 a b []).rel = s.rel :=
  rel_of (State.cacheWritten_same (State.t1Write_same (.refl _ s) a b rfl) a b.length rfl)

theorem State.writeSeg_rel (use : Use) (p g off : Nat) (b : Bytes) (bad : List Nat) :
    (s.writeSeg use p g off b bad).rel = s.rel := by
  unfold State.writeSeg
  split
  · rfl
  · next v _ =>
    refine State.each_inv (·.rel) _ _ (fun t x => ?_) s
    dsimp only
    split
    · exact t.writeHost_rel ..
    · exact t.writeT1_sound_rel ..

theorem State.openRange_rel (p g off len : Nat) (read : Bool) : (s.openRange p g off len read).rel = s.rel :=
  rel_of (State.openRange_same (.refl _ s) p g off len read rfl)

theorem State.intakePut_rel (p : Pair) (b : Bytes) : (s.intakePut p b).rel = s.rel := by
  unfold State.intakePut
  simp only [State.writeSeg_rel, State.openRange_rel]

theorem State.writeCopy_rel (a : Nat) (b : Bytes) : (s.writeCopy a b).rel = s.rel := by
  unfold State.writeCopy
  split
  · exact s.writeT1_sound_rel ..
  · rfl

theorem State.failGroup_rel (g : Nat) : (s.failGroup g).rel = s.rel :=
  rel_of (State.failGroup_same (.refl _ s) g rfl rfl rfl rfl rfl rfl rfl)

theorem State.plogAdd_vault (kind unit table addr : Nat) :
    (s.plogAdd kind unit table addr).rel.vault = s.rel.vault := rfl

theorem State.poisonT0_vault (t n : Nat) : (s.poisonT0 t n).rel.vault = s.rel.vault := by
  unfold State.poisonT0
  dsimp only
  split <;> rfl

theorem State.poisonT1_vault (n : Nat) : (s.poisonT1 n).rel.vault = s.rel.vault := by
  unfold State.poisonT1
  dsimp only
  split
  · rfl
  · split
    · rw [State.plogAdd_vault, State.failGroup_rel]
    · rfl

theorem State.moveRow_vault (src dst n : Nat) : (s.moveRow src dst n).rel.vault = s.rel.vault := by
  unfold State.moveRow
  refine (State.each_inv (·.rel.vault) _ _ (fun t i => ?_) _).trans (congrArg Rel.vault ?_)
  · split
    · exact t.poisonT1_vault _
    · exact t.poisonT0_vault ..
  · rw [State.writeCopy_rel]
    split
    · exact rel_of (State.rebuildIn_same (.refl _ s) _ _ rfl)
    · rfl

theorem State.writeBackRow_vault (n tbl loc : Nat) : (s.writeBackRow n tbl loc).rel.vault = s.rel.vault := by
  unfold State.writeBackRow
  split
  · rfl
  · split
    · rfl
    · rw [rel_of (State.setDir_same (.refl _ _) _ _ _ _ rfl rfl rfl), State.moveRow_vault,
        rel_of (State.drainWb_same (.refl _ s) n rfl)]

theorem State.writeBackAll_vault : s.writeBackAll.rel.vault = s.rel.vault :=
  State.each_inv (·.rel.vault) _ _ (fun t _ => t.writeBackRow_vault ..) s

theorem State.snoop_rel (ls : List Nat) : (s.snoop ls).rel = s.rel :=
  rel_of (State.snoop_same (.refl _ s) ls rfl rfl)

theorem State.checkpointEnd_vault (m : Commit) (n : Nat) : (s.checkpointEnd m n).rel.vault = s.rel.vault := by
  unfold State.checkpointEnd
  split
  · rfl
  · simp only [State.finish_rel, State.writeSeg_rel, State.openRange_rel]

end

/-! ### The intake of replicas, and the commit -/

section
variable (s : State)

theorem State.intakeStep_appends : s.Appends s.intakeStep := by
  unfold State.intakeStep
  split
  · exact .refl s
  · split
    · exact .refl s
    · split
      · exact .of_vault rfl
      · dsimp only
        split
        · split
          · exact .refl s
          · split
            · exact .of_rel (s.snoop_rel _)
            · exact .of_vault (by rw [State.setReceiver_rel_vault, State.intakePut_rel])
        · split
          · exact s.vaultWait_appends _
          · exact ⟨List.prefix_append .., rfl, rfl, rfl⟩

theorem State.intakeGo_appends : s.Appends s.intakeGo := by
  unfold State.intakeGo
  split
  · exact .refl s
  · exact State.Appends.each (fun t _ => t.intakeStep_appends) s

theorem State.commitGo_appends : s.Appends s.commitGo := by
  have hall : s.Appends s.writeBackAll.appendAll :=
    (State.Appends.of_vault s.writeBackAll_vault).trans (State.appendAll_appends _)
  unfold State.commitGo
  split
  · exact .refl s
  · split
    · exact .refl s
    · dsimp only
      split
      · exact hall
      · split
        · exact hall.trans (.of_rel (State.snoop_rel ..))
        · refine hall.trans (State.appendThen_appends _ _ fun t => ?_)
          split
          · exact .of_vault (t.checkpointEnd_vault ..)
          · exact .of_vault (by rw [State.finish_rel])

end

end Sys2Proof.Machine

/-! ## The vault's log: appends, durable records, erased blocks (R187, R318, R319) -/

namespace Sys2Proof.Machine

/-! ### One record written -/

section
variable {s : State} {r : VRec}

/-- A record as it stands in the log. -/
def State.written (s : State) (r : VRec) : VRec :=
  { r with
    lsn := s.rel.vault.lsn, step := s.lastStep, boot := s.rel.boots, ream := s.tableId, unit := s.rel.vault.next }

theorem State.written_mem_putRec (s : State) (r : VRec) : s.written r ∈ (s.putRec r).rel.vault.log :=
  List.mem_append_right _ List.mem_cons_self

theorem State.Appends.mem {t : State} (h : s.Appends t) (hr : r ∈ s.rel.vault.log) : r ∈ t.rel.vault.log :=
  h.log.subset hr

/-- A record that need not wait is written, and what follows the append is done. -/
theorem State.appendThen_single (h : s.rel.vault.mustWait r.size = false) (f : State → State) :
    s.appendThen [r] f = f ((s.unwait (waitKey [r])).putRec r) := by
  have hsize : ([r].map VRec.size).foldl (· + ·) 0 = r.size := by simp
  have happend : s.append [r] = (s.unwait (waitKey [r])).putRec r := by
    unfold State.append
    rw [hsize, h]
    rfl
  unfold State.appendThen
  rw [happend]
  exact if_neg (Nat.succ_ne_self _)

end

/-! ### Dirty rows -/

/-- A step that moves counts alone. -/
def State.CountsOnly (s t : State) : Prop := ∃ c, t = { s with ctr := c }

section
variable {s t u : State}

theorem State.CountsOnly.refl (s : State) : s.CountsOnly s := ⟨_, rfl⟩

theorem State.CountsOnly.trans (h : s.CountsOnly t) (k : t.CountsOnly u) : s.CountsOnly u := by
  obtain ⟨c, rfl⟩ := h
  obtain ⟨d, rfl⟩ := k
  exact ⟨d, rfl⟩

theorem State.CountsOnly.each {α : Type} {l : List α} {f : State → α → State}
    (h : ∀ (t : State) a, t.CountsOnly (f t a)) (s : State) : s.CountsOnly (s.each l f) :=
  State.each_of_step .refl .trans h l s

theorem State.rebuild_countsOnly (s : State) (n : Nat) : s.CountsOnly (s.rebuild n) := by
  unfold State.rebuild
  dsimp only
  split
  · exact ⟨_, rfl⟩
  · exact .refl s

theorem State.rebuildIn_countsOnly (s : State) (a len : Nat) : s.CountsOnly (s.rebuildIn a len) := by
  unfold State.rebuildIn
  split
  · exact State.CountsOnly.each State.rebuild_countsOnly s
  · exact .refl s

end

section
variable {s : State} {tbl n loc : Nat}

/-- A row is read for a record, rebuilt where a package of its group is lost. -/
def State.readRow (s : State) (tbl : Nat) (x : Nat × Nat) : State :=
  let a := s.rowAddr x.1 tbl x.2
  if isT1 a then s.rebuildIn (a - t1Addr 0) (rowBytes (s.tab tbl)) else s

theorem State.readRow_countsOnly (s : State) (tbl : Nat) (x : Nat × Nat) : s.CountsOnly (s.readRow tbl x) := by
  unfold State.readRow
  dsimp only
  split
  · exact s.rebuildIn_countsOnly ..
  · exact .refl s

/-- Rows with their keys, each key with the step that last wrote its row. -/
def State.rowKeys (s : State) (tbl : Nat) (rows : List (Nat × Nat)) : List (Nat × Nat) :=
  rows.map fun x => (rowKey tbl x.1 x.2, (FMap.find s.gat.dirty (rowKey tbl x.1 x.2)).getD allOnes64)

/-- The record of rows of a table whose segment is not sealed. -/
def State.rowsPlain (s : State) (tbl : Nat) (rows : List (Nat × Nat)) : VRec :=
  { kind := 1, table := tbl, body := s.rowsBody tbl rows, keys := s.rowKeys tbl rows }

theorem State.storeRec_plain (h : ∀ v, s.homeSeg tbl = some v → v.sealed = false) (plain shut : Nat) (b : Bytes) :
    s.storeRec tbl plain shut b = (s, { kind := plain, table := tbl, body := b }) := by
  have hslot : s.sealSlot tbl = none := by
    unfold State.sealSlot
    cases hv : s.homeSeg tbl with
    | none => rfl
    | some v => simp [h v hv]
  unfold State.storeRec
  rw [hslot]

/-- Rows that have been read are put in a record. -/
def State.formRows (s : State) (tbl : Nat) (rows : List (Nat × Nat)) : State × VRec :=
  ((s.storeRec tbl 1 2 (s.rowsBody tbl rows)).1,
    { (s.storeRec tbl 1 2 (s.rowsBody tbl rows)).2 with keys := s.rowKeys tbl rows })

theorem State.rowsRec_eq (s : State) (tbl : Nat) (rows : List (Nat × Nat)) :
    s.rowsRec tbl rows = (s.each rows fun t x => t.readRow tbl x).formRows tbl rows := rfl

/-- Forming a record of rows that are not sealed moves counts alone. -/
theorem State.rowsRec_plain (h : ∀ v, s.homeSeg tbl = some v → v.sealed = false) (rows : List (Nat × Nat)) :
    ∃ c, s.rowsRec tbl rows = ({ s with ctr := c }, s.rowsPlain tbl rows) := by
  obtain ⟨c, hc⟩ : s.CountsOnly (s.each rows fun t x => t.readRow tbl x) :=
    State.CountsOnly.each (fun t x => t.readRow_countsOnly tbl x) s
  refine ⟨c, ?_⟩
  rw [State.rowsRec_eq, hc, State.formRows, State.storeRec_plain (s := { s with ctr := c }) h]
  rfl

/-- What is left to do when rows are in the log: none of them waits for its record, and the base pass has them. -/
def State.rowsLogged (s : State) (ks : List Nat) : State :=
  ({ s with gat := { s.gat with since := s.gat.since.filter fun e => !ks.contains e.1 } }).modVault fun v =>
    { v with base := v.base.map fun done => (done ++ ks).eraseDups }

theorem State.rowsLogged_appends (s : State) (ks : List Nat) : s.Appends (s.rowsLogged ks) :=
  ⟨List.prefix_rfl, rfl, rfl, rfl⟩

/-- A dirty row that reads without poison is appended in a record of its own. -/
theorem State.appendRows_single (hread : s.rowReadable tbl n loc = true)
    (hdirty : (FMap.find s.gat.dirty (rowKey tbl n loc)).isSome = true) :
    s.appendRows tbl [(n, loc)] = (s.rowsRec tbl [(n, loc)]).1.appendThen [(s.rowsRec tbl [(n, loc)]).2]
      fun t => t.rowsLogged [rowKey tbl n loc] := by
  have hdups : [(n, loc)].eraseDups = [(n, loc)] := rfl
  have htake : [(n, loc)].take 4096 = [(n, loc)] := rfl
  unfold State.appendRows
  simp only [hdups, List.filter_cons, List.filter_nil, hread, hdirty, Bool.true_or, Bool.and_self, if_true, htake]
  rfl

/-- The record a single dirty row leaves in the log. -/
theorem State.appendRows_writes (hread : s.rowReadable tbl n loc = true)
    (hdirty : (FMap.find s.gat.dirty (rowKey tbl n loc)).isSome = true)
    (hplain : ∀ v, s.homeSeg tbl = some v → v.sealed = false)
    (hroom : s.rel.vault.mustWait (s.rowsPlain tbl [(n, loc)]).size = false) :
    s.written (s.rowsPlain tbl [(n, loc)]) ∈ (s.appendRows tbl [(n, loc)]).rel.vault.log := by
  obtain ⟨c, hc⟩ := State.rowsRec_plain hplain [(n, loc)]
  rw [State.appendRows_single hread hdirty, hc, State.appendThen_single (s := { s with ctr := c }) hroom]
  exact (State.rowsLogged_appends _ _).mem (State.written_mem_putRec _ _)

end

/-! ### STATE records -/

/-- The STATE record of a state. -/
def State.stateRec (s : State) : VRec := { kind := 9, body := s.stateBody }

theorem State.appendState_writes {s : State} (h : s.rel.vault.mustWait s.stateRec.size = false) :
    s.appendState = s.putRec s.stateRec := by
  unfold State.appendState
  exact if_neg (Bool.eq_false_iff.1 h)

theorem State.appendState_waits {s : State} (h : s.rel.vault.mustWait s.stateRec.size = true) :
    s.appendState.rel.vault.held = s.rel.vault.held ++ [s.stateRec] := by
  have heq : s.appendState = (s.modVault fun v => { v with held := v.held ++ [s.stateRec] }).count 0x0B7 0 1 := by
    unfold State.appendState
    exact if_pos h
  rw [heq]
  rfl

/-! ### Blocks erased and retired -/

/-- Erases done, and blocks retired. -/
def Vault.blocks (v : Vault) : Nat × Nat := (v.cycles, v.retired)

theorem State.Appends.blocks {s t : State} (h : s.Appends t) : t.rel.vault.blocks = s.rel.vault.blocks :=
  Prod.ext h.cycles h.retired

theorem Vault.dropOld_blocks (n : Nat) (v : Vault) : (v.dropOld n).blocks = v.blocks := by
  induction n generalizing v with
  | zero => rfl
  | succ n ih =>
    unfold Vault.dropOld
    split
    · rfl
    · exact ih _

theorem State.appendHeld_blocks (s : State) : s.appendHeld.rel.vault.blocks = s.rel.vault.blocks := by
  refine State.each_inv (·.rel.vault.blocks) _ _ (fun t r => ?_) s
  split
  · rfl
  · exact (State.putRec_appends _ r).blocks

theorem State.causeAll_rel (s : State) (b : Nat) : (s.causeAll b).rel = s.rel :=
  rel_of (State.causeAll_same (.refl _ s) b rfl rfl rfl rfl rfl rfl)

theorem State.vaultCondition_blocks (s : State) : s.vaultCondition.rel.vault.blocks = s.rel.vault.blocks := by
  unfold State.vaultCondition
  dsimp only
  split
  · rfl
  · rw [State.causeAll_rel]
    rfl

theorem State.vaultCondition_counter (s : State) {id inst : Nat} (h : ctrKey id inst < 0xA0 * 4096) :
    s.vaultCondition.counter id inst = s.counter id inst := by
  unfold State.vaultCondition
  dsimp only
  split
  · rfl
  · exact State.causeAll_ctr _ _ _ _ h

/-- What follows an erase, room or no room, erases and retires nothing more. -/
theorem State.erased_blocks (s : State) :
    (if s.rel.vault.mustWait 4096 then s else s.appendHeld.intakeGo.stepNext.baseNext.commitGo).rel.vault.blocks =
      s.rel.vault.blocks := by
  split
  · rfl
  · rw [(State.commitGo_appends _).blocks, (State.baseNext_appends _).blocks, (State.stepNext_appends _).blocks,
      (State.intakeGo_appends _).blocks, State.appendHeld_blocks]

/-! ### The commands -/

section
variable {s : State}

theorem exec_vaultRowsAppend {tbl : Nat} (hres : s.ream.resident = true) (htbl : tbl < hTables s.ream.hdr)
    (hflips : s.gat.flips = []) (rows : List RowId) :
    exec (.vaultRowsAppend tbl rows) s =
      .next (s.mounted.appendRows tbl (rows.map fun r => (r.tile, r.loc))).baseNext.stepNext := by
  have hmounted : s.mounted.appendFlips = s.mounted := by
    unfold State.appendFlips
    exact if_pos (by rw [State.mounted, State.modVault_gat, hflips]; rfl)
  change execVaultRowsAppend _ _ _ = _
  simp only [execVaultRowsAppend, hres, Nat.not_le.2 htbl, hmounted, Bool.not_true, decide_false, Bool.or_self,
    Bool.false_eq_true, if_false]

/-- The oldest record is durable, and the rows in it as it has them are clean. -/
def State.madeDurable (s : State) (r : VRec) : State :=
  let s := s.modVault fun v => { v with log := firstDurable v.log }
  { s with gat := { s.gat with dirty := s.gat.dirty.filter fun e => !r.keys.contains e } }

theorem exec_vaultAppendDurable {r : VRec} (h : s.rel.vault.nextDurable = some r) :
    exec .vaultAppendDurable s = .next ((s.madeDurable r).replicaDurable r).stepNext.baseNext := by
  change execVaultAppendDurable _ = _
  simp only [execVaultAppendDurable, h]
  rfl

/-- A replica's acknowledgement leaves the vault alone. -/
theorem State.replicaDurable_vault (s : State) (r : VRec) : (s.replicaDurable r).rel.vault = s.rel.vault := by
  unfold State.replicaDurable
  split
  · rfl
  · dsimp only
    split <;> rfl

theorem State.durable_gat (s : State) (r : VRec) : (s.replicaDurable r).stepNext.baseNext.gat = s.gat :=
  gat_of (State.baseNext_same (State.stepNext_same (State.replicaDurable_same (.refl _ s) r rfl rfl) rfl rfl)
    rfl rfl rfl)

theorem State.durable_appends (s : State) (r : VRec) : s.Appends (s.replicaDurable r).stepNext.baseNext :=
  (State.Appends.of_vault (s.replicaDurable_vault r)).trans
    ((State.stepNext_appends _).trans (State.baseNext_appends _))

/-- What follows a STATE record does to the vault what appends do. -/
theorem State.stateRecord_appends (s : State) : s.appendState.Appends s.appendState.stepNext.baseNext :=
  (State.stepNext_appends _).trans (State.baseNext_appends _)

/-- A block is retired. -/
def State.blockRetired (s : State) : State :=
  (s.mounted.modVault fun v => { v with
    retired := v.retired + 1
    erased := some (Nat.min v.free (eraseBlock * (vaultBlocks - v.retired - 1) - v.used)) }).count 0x04B 0 1

theorem exec_vaultBlockErase_retires (h : s.rel.vault.retired < vaultBlocks) :
    exec (.vaultBlockErase true) s = .next s.blockRetired.vaultCondition := by
  have hleft : ¬ vaultBlocks ≤ s.mounted.rel.vault.retired := Nat.not_le.2 h
  change execVaultBlockErase _ _ = _
  simp only [execVaultBlockErase, hleft, if_true, if_false]
  rfl

/-- A block is erased, of a vault whose oldest records have made room. -/
def State.blockErased (s : State) : State :=
  let v := s.mounted.rel.vault.dropOld s.rel.vault.log.length
  s.mounted.setVault { v with erased := some (v.free + eraseBlock), cycles := v.cycles + 1 }

theorem State.blockErased_blocks (s : State) :
    s.blockErased.rel.vault.blocks = (s.rel.vault.cycles + 1, s.rel.vault.retired) := by
  have h := Vault.dropOld_blocks s.rel.vault.log.length s.mounted.rel.vault
  have hcycles : s.blockErased.rel.vault.cycles = s.rel.vault.cycles + 1 := congrArg (·.1 + 1) h
  have hretired : s.blockErased.rel.vault.retired = s.rel.vault.retired := congrArg (·.2) h
  exact Prod.ext hcycles hretired

theorem exec_vaultBlockErase_erases (h : (s.mounted.rel.vault.dropOld s.rel.vault.log.length).blockFree = true) :
    exec (.vaultBlockErase false) s = .next (
      let t := s.blockErased.vaultCondition
      if t.rel.vault.mustWait 4096 then t else t.appendHeld.intakeGo.stepNext.baseNext.commitGo) := by
  have hfree : (s.mounted.rel.vault.dropOld s.mounted.rel.vault.log.length).blockFree = true := h
  change execVaultBlockErase _ _ = _
  simp only [execVaultBlockErase, hfree, Bool.not_true, Bool.false_eq_true, if_false]
  rfl

end

/-- Settles O35: a record stays in the log through what is appended after it (`State.Appends`), and an erase or a
retirement is the only change of its command to the blocks (`Vault.blocks`). -/
theorem vaultLog : Obligations.VaultLog := by
  unfold Obligations.VaultLog
  refine ⟨fun s tbl n loc hres htbl hflips hread hdirty hplain hroom => ?rows, fun s r h => ?durable,
    fun s hroom => ?state, fun s hfull => ?wait, fun s h => ?retire, fun s h => ?erase⟩
  case rows =>
    have hlog := State.appendRows_writes (s := s.mounted) hread hdirty hplain hroom
    exact ⟨_, _, exec_vaultRowsAppend hres htbl hflips _,
      ((State.baseNext_appends _).trans (State.stepNext_appends _)).mem hlog, rfl, rfl, rfl, rfl, rfl, rfl⟩
  case durable =>
    exact ⟨_, exec_vaultAppendDurable h, congrArg Gather.dirty (State.durable_gat ..),
      (State.durable_appends (s.madeDurable r) r).log⟩
  case state =>
    have hlog := s.mounted.written_mem_putRec s.mounted.stateRec
    rw [← State.appendState_writes hroom] at hlog
    exact ⟨_, _, rfl, (State.stateRecord_appends _).mem hlog, rfl, rfl, rfl⟩
  case wait =>
    exact ⟨_, _, rfl, (State.stateRecord_appends _).held.trans (State.appendState_waits hfull), rfl, rfl⟩
  case retire =>
    exact ⟨_, exec_vaultBlockErase_retires h, congrArg Prod.snd (State.vaultCondition_blocks _),
      (State.vaultCondition_counter _ (by decide)).trans (State.count_counter ..)⟩
  case erase =>
    have hblocks := ((State.erased_blocks _).trans (State.vaultCondition_blocks _)).trans s.blockErased_blocks
    exact ⟨_, exec_vaultBlockErase_erases h, congrArg Prod.fst hblocks, congrArg Prod.snd hblocks⟩

end Sys2Proof.Machine

/-! ## A C-die reading of a tile that no module has (R175, R366)

The tile mask of a module has 72 bits (R2, R3), the field of the model is a number of any size, and a reading is taken
of each tile the mask enables. The latch of a C-die reading stands under the tile's index, and `State.dieHot` reads the
latches below 76. -/

namespace Sys2Proof.Machine

/-- Fuses that enable tile 80. -/
def strayTile : State := { State.reset with fuse := { tileMask := 2 ^ 80 } }

/-- A reading of 110 °C there. -/
def strayReading : Instr := .junctionSensorReading 0 80 110

theorem strayTile_enabled : strayTile.pwr.st = 3 ∧ strayTile.enabled 80 = true := by decide

/-- The reading is latched under index 80, and no emergency is declared. -/
theorem strayReading_declares_nothing :
    (after (exec strayReading strayTile) strayTile).pwr.hot = [80]
      ∧ (after (exec strayReading strayTile) strayTile).pwr.emerg = [] := by
  decide

/-- Refutes O40 in its third clause: in `strayTile` a C-die reading of 110 °C declares no DIE_HOT. -/
theorem not_thermal : ¬ Obligations.Thermal := by
  unfold Obligations.Thermal
  rintro ⟨-, -, hdie, -⟩
  obtain ⟨hon, henabled⟩ := strayTile_enabled
  obtain ⟨t, hexec, -, hdeclared, -⟩ := hdie strayTile 80 110 hon henabled (by decide) (by decide)
  obtain ⟨-, hnone⟩ := strayReading_declares_nothing
  have ht : after (exec strayReading strayTile) strayTile = t := by rw [strayReading, hexec]; rfl
  rw [ht] at hnone
  rw [hnone] at hdeclared
  exact absurd hdeclared (by decide)

end Sys2Proof.Machine

/-! ## Key slots: installed, erased, queried (R198 to R200, R347) -/

namespace Sys2Proof.Machine

/-! ### KEY_INSTALL -/

/-- The blob of an installation: what was read with poison is none (R383). -/
def blobOf (rd : Rd) : Bytes := if rd.poison.isEmpty then rd.data else []

theorem State.slot_congr {s t : State} (h : t.slots = s.slots) (n : Nat) : t.slot n = s.slot n := by
  rw [State.slot, State.slot, h]

/-- Command `k` installs blob `b` in slot `n`, and waits its turn (R347). -/
def State.awaitUnwrap (s : State) (k n : Nat) (b : Bytes) : State :=
  let s := s.modSlot n fun v => { v with unwrap := some (k, b) }
  { s with sec := { s.sec with unwraps := if s.sec.unwraps.contains k then s.sec.unwraps else s.sec.unwraps ++ [k] } }

/-- Command `k` leaves the installations, and its blob slot `n`. -/
def State.endUnwrap (s : State) (k n : Nat) : State :=
  ({ s with sec := { s.sec with unwraps := s.sec.unwraps.filter (· != k) } }).modSlot n fun v =>
    { v with unwrap := none }

/-- The reason of a failed installation, with its slot (Table 16.7). -/
def State.noteUnwrap (s : State) (e n : Nat) : State :=
  { s with sec := { s.sec with unwrapReason := e, unwrapSlot := n } }

section
variable {s u v : State} {r q : Nat} {c : Cmd} {b : Rd}

theorem exec_keyInstall (h : s.passes r q 0x20 c u) (hempty : (u.slot (c.f 16 2)).loaded = false)
    (hfree : (u.slot (c.f 16 2)).unwrap = none) (hfirst : u.slotTaken (cmdKey r q) (c.f 16 2) = false)
    (hread : u.operand (cmdKey r q) c.part (c.f 18 1) (c.f 24 6) (c.f 20 2) v) :
    exec (.keyInstall r q b) s = .next ((v.setPhase (cmdKey r q) .running).awaitUnwrap (cmdKey r q) (c.f 16 2)
      (blobOf (v.readSeg c.part (c.f 18 1) (c.f 24 6) (c.f 20 2) (u.operOf (cmdKey r q) c.part (c.f 18 1) b)))) := by
  obtain ⟨w, hask, hopen⟩ := hread
  change execKeyInstall _ _ _ _ = _
  simp only [execKeyInstall, h.front, State.keyInstall, hempty, hfree, hfirst, hask, hopen, Option.isSome_none,
    Bool.or_false, Bool.not_true, Bool.false_eq_true, if_false]
  rfl

theorem exec_keyInstall_busy (h : s.passes r q 0x20 c u)
    (hbusy : (u.slot (c.f 16 2)).loaded = true ∨ (u.slot (c.f 16 2)).unwrap ≠ none
      ∨ u.slotTaken (cmdKey r q) (c.f 16 2) = true) :
    exec (.keyInstall r q b) s = .next (u.finish (cmdKey r q) stKeyBusy) := by
  have htaken : ((u.slot (c.f 16 2)).loaded || (u.slot (c.f 16 2)).unwrap.isSome
      || u.slotTaken (cmdKey r q) (c.f 16 2)) = true := by
    rw [Bool.or_eq_true, Bool.or_eq_true, Option.isSome_iff_ne_none]
    tauto
  change execKeyInstall _ _ _ _ = _
  simp only [execKeyInstall, h.front, State.keyInstall, htaken, if_true]

theorem State.mem_awaitUnwrap (s : State) (k n : Nat) (b : Bytes) : k ∈ (s.awaitUnwrap k n b).sec.unwraps := by
  change k ∈ if s.sec.unwraps.contains k then s.sec.unwraps else s.sec.unwraps ++ [k]
  split
  · next h => exact List.contains_iff_mem.1 h
  · exact List.mem_append_right _ List.mem_cons_self

theorem State.awaitUnwrap_slot (s : State) (k n : Nat) (b : Bytes) :
    (s.awaitUnwrap k n b).slot n = { s.slot n with unwrap := some (k, b) } :=
  s.modSlot_slot n fun v => { v with unwrap := some (k, b) }

theorem State.awaitUnwrap_slot_ne (s : State) {k n j : Nat} (b : Bytes) (h : j ≠ n) :
    (s.awaitUnwrap k n b).slot j = s.slot j :=
  s.modSlot_slot_ne (fun v => { v with unwrap := some (k, b) }) h

end

/-! ### KEY_UNWRAP_DONE -/

section
variable {s : State} {n k e : Nat} {b pt : Bytes}

/-- The checks of a blob go by fuses, the device key and the measurements, which no installation changes. -/
theorem State.endUnwrap_unwrapBlob (s : State) (k n : Nat) (b : Bytes) :
    (s.endUnwrap k n).unwrapBlob b = s.unwrapBlob b := rfl

theorem exec_keyUnwrapDone_good (hwait : (s.slot n).unwrap = some (k, b)) (hturn : s.installs.head? = some k)
    (hgood : s.unwrapBlob b = .inr pt) :
    exec (.keyUnwrapDone n) s = .next (((s.endUnwrap k n).loadSlot n pt).finish k stOk) := by
  have hplain := (s.endUnwrap_unwrapBlob k n b).trans hgood
  unfold State.endUnwrap at *
  change execKeyUnwrapDone _ _ = _
  simp only [execKeyUnwrapDone, hwait, hturn, hplain, bne_self_eq_false, Bool.false_eq_true, if_false]

theorem exec_keyUnwrapDone_bad (hwait : (s.slot n).unwrap = some (k, b)) (hturn : s.installs.head? = some k)
    (hbad : s.unwrapBlob b = .inl e) :
    exec (.keyUnwrapDone n) s = .next (((s.endUnwrap k n).noteUnwrap e n).finish k stKeyUnwrapFail) := by
  have hreason := (s.endUnwrap_unwrapBlob k n b).trans hbad
  unfold State.endUnwrap at *
  change execKeyUnwrapDone _ _ = _
  simp only [execKeyUnwrapDone, hwait, hturn, hreason, bne_self_eq_false, Bool.false_eq_true, if_false]
  rfl

theorem State.endUnwrap_slot (s : State) (k n : Nat) : (s.endUnwrap k n).slot n = { s.slot n with unwrap := none } :=
  State.modSlot_slot _ _ _

theorem State.endUnwrap_slot_ne (s : State) {k n j : Nat} (h : j ≠ n) : (s.endUnwrap k n).slot j = s.slot j :=
  State.modSlot_slot_ne _ _ h

theorem State.noteUnwrap_slot (s : State) (e n j : Nat) : (s.noteUnwrap e n).slot j = s.slot j := rfl

/-- A slot with the keys of a blob's plaintext, OUT_CTR 0, and no installation that waits (R199). -/
structure Slot.Holds (v : Slot) (pt : Bytes) : Prop where
  loaded : v.loaded = true
  keyId : v.keyId = pt.take 8
  alg : v.alg = fld pt 8 1
  outCtr : v.outCtr = 0
  unwrap : v.unwrap = none

theorem State.loadSlot_holds (s : State) (n : Nat) (pt : Bytes) : ((s.loadSlot n pt).slot n).Holds pt := by
  simp only [State.loadSlot, State.modSlot_slot]
  exact ⟨rfl, rfl, rfl, rfl, rfl⟩

theorem State.loadSlot_slot_ne (s : State) {n j : Nat} (pt : Bytes) (h : j ≠ n) :
    (s.loadSlot n pt).slot j = s.slot j :=
  State.modSlot_slot_ne (s.freeVals 14).2 _ h

end

/-! ### KEY_ERASE and KEY_QUERY -/

/-- The commands of partition `p` that keep slot `n` from an erase by command `k` (R200). -/
def State.slotKeepers (s : State) (k n p : Nat) : List Nat :=
  (s.fe.cmds.filter fun e => e.1 != k && e.2.namesSlot n && e.2.part == p).map (·.1)

theorem State.mem_slotKeepers {s : State} {k n p w : Nat} :
    w ∈ s.slotKeepers k n p ↔ ∃ d, (w, d) ∈ s.fe.cmds ∧ w ≠ k ∧ d.namesSlot n = true ∧ d.part = p := by
  simp [State.slotKeepers, and_assoc]

section
variable {s u v : State} {r q n k : Nat} {c : Cmd}

theorem exec_keyErase (h : s.passes r q 0x21 c u) (hbound : (u.slot (c.f 16 2)).bound = 0)
    (hloaded : (u.slot (c.f 16 2)).loaded = true) (hfree : (u.slot (c.f 16 2)).erase = none) :
    exec (.keyErase r q) s = .next ((u.setPhase (cmdKey r q) .running).modSlot (c.f 16 2) fun v =>
      { v with erase := some (cmdKey r q, u.slotKeepers (cmdKey r q) (c.f 16 2) c.part) }) := by
  change execKeyErase _ _ _ = _
  simp only [execKeyErase, h.front, hbound, hloaded, hfree, bne_self_eq_false, Option.isSome_none, Bool.not_true,
    Bool.or_false, Bool.false_eq_true, if_false]
  rfl

/-- Slot `n` is EMPTY. -/
def State.emptySlot (s : State) (n : Nat) : State := { s with slots := FMap.del s.slots n }

theorem State.emptySlot_slot (s : State) (n : Nat) : (s.emptySlot n).slot n = {} := by
  simp [State.slot, State.emptySlot, FMap.get]

theorem exec_keyEraseFinish {ws : List Nat} (herase : (s.slot n).erase = some (k, ws))
    (hgone : ∀ w ∈ ws, s.cmd? w = none) (hbound : (s.slot n).bound = 0) :
    exec (.keyEraseFinish n) s = .next ((s.emptySlot n).finish k stOk) := by
  have hnone : (ws.any fun w => (s.cmd? w).isSome) = false := by
    rw [List.any_eq_false]
    intro w hw
    simp [hgone w hw]
  change execKeyEraseFinish _ _ = _
  simp only [execKeyEraseFinish, herase, hnone, hbound, bne_self_eq_false, Bool.false_eq_true, if_false]
  rfl

theorem exec_keyQuery (h : s.passes r q 0x22 c u)
    (huse : (u.slot (c.f 16 2)).loaded = true → (u.slot (c.f 16 2)).usable (cmdKey r q) = true)
    (hopen : u.openAsk c.part (c.f 18 1) (c.f 24 6) 64 true = (true, v)) :
    exec (.keyQuery r q) s = .next ((v.writeSeg (.result (cmdKey r q)) c.part (c.f 18 1) (c.f 24 6)
      (u.slot (c.f 16 2)).report []).finish (cmdKey r q) stOk) := by
  have hshown : ((u.slot (c.f 16 2)).loaded && !(u.slot (c.f 16 2)).usable (cmdKey r q)) = false := by
    cases hl : (u.slot (c.f 16 2)).loaded
    · rfl
    · rw [huse hl]
      rfl
  change execKeyQuery _ _ _ = _
  simp only [execKeyQuery, h.front, hshown, hopen, Bool.not_true, Bool.false_eq_true, if_false]

theorem State.writeSeg_fe (s : State) (use : Use) (p g off : Nat) (b : Bytes) (bad : List Nat) :
    (s.writeSeg use p g off b bad).fe = s.fe :=
  fe_of (by apply State.writeSeg_same (.refl _ _) <;> rfl)

end

/-- Settles O13: an installation by the slot's blob that waits (`exec_keyInstall`), its end by the keys the slot takes
(`State.loadSlot_holds`), an erase by the commands that keep the slot (`State.mem_slotKeepers`), a query by its report's
write. -/
theorem keySlots : Obligations.KeySlots := by
  unfold Obligations.KeySlots
  refine ⟨fun s u v r q c b rd h hempty hfree hfirst hread hrd => ?_, fun s u r q c b h hbusy => ?_,
    fun s n k b pt c hwait hturn hgood hc hk => ?_, fun s n k e b c hwait hturn hbad hc hk => ?_,
    fun s u r q c h hbound hloaded hfree => ?_, fun s n k ws c herase hgone hbound hc hk => ?_,
    fun s u v r q c h huse hopen => ?_⟩
  case refine_1 =>
    subst hrd
    have hslot := State.slot_congr (hread.readKeeps.slots rfl)
    refine ⟨_, exec_keyInstall h hempty hfree hfirst hread,
      State.isRunning_fe rfl (h.running (congrArg (·.cmds) (hread.readKeeps.fe rfl))), ?_,
      State.mem_awaitUnwrap .., ?_, fun n hn => ?_⟩
    · rw [State.awaitUnwrap_slot]
      rfl
    · rw [State.awaitUnwrap_slot, State.setPhase_slot, hslot]
      exact hempty
    · rw [State.awaitUnwrap_slot_ne _ _ hn, State.setPhase_slot, hslot]
  case refine_2 =>
    exact ⟨_, exec_keyInstall_busy h hbusy, h.done rfl .., State.finish_slot' ..⟩
  case refine_3 =>
    have hkeys := (s.endUnwrap k n).loadSlot_holds n pt
    refine ⟨_, exec_keyUnwrapDone_good hwait hturn hgood, ?_⟩
    simp only [State.finish_slot']
    refine ⟨hkeys.loaded, hkeys.keyId, hkeys.alg, hkeys.outCtr, hkeys.unwrap,
      State.finish_completed _ _ _ hc hk.symm, fun j hj => ?_⟩
    rw [State.loadSlot_slot_ne _ _ hj, State.endUnwrap_slot_ne _ hj]
  case refine_4 =>
    refine ⟨_, exec_keyUnwrapDone_bad hwait hturn hbad, ?_, ?_, ?_, State.finish_completed _ _ _ hc hk.symm⟩
    · rw [State.finish_slot', State.noteUnwrap_slot, State.endUnwrap_slot]
    · exact congrArg Sec.unwrapReason (State.finish_sec ..)
    · exact congrArg Sec.unwrapSlot (State.finish_sec ..)
  case refine_5 =>
    refine ⟨_, _, exec_keyErase h hbound hloaded hfree, ?_, fun w => State.mem_slotKeepers,
      State.isRunning_fe rfl (h.running rfl)⟩
    rw [State.modSlot_slot]
  case refine_6 =>
    exact ⟨_, exec_keyEraseFinish herase hgone hbound, (State.finish_slot' ..).trans (State.emptySlot_slot ..),
      State.finish_completed _ _ _ hc hk.symm⟩
  case refine_7 =>
    refine ⟨_, exec_keyQuery h huse hopen, h.done ?_ .., State.finish_mem .., State.finish_io ..⟩
    rw [State.writeSeg_fe, (State.openAsk_readKeeps hopen).fe rfl]

end Sys2Proof.Machine

/-! ## Profiles, and INGEST from its checks to its lists (R202 to R206) -/

namespace Sys2Proof.Machine

/-! ### The commands -/

/-- A partition keeps a shingler profile (R204). -/
def State.keepProfile (s : State) (p i : Nat) (b : Bytes) : State :=
  s.modPart p fun q => { q with profiles := FMap.set q.profiles i b }

/-- INGEST as its checks leave it, `h` the header of its envelope. -/
def Cmd.newIngest (c : Cmd) (h : Bytes) : Ingest :=
  if c.iSealed then { head := h, len := eCt h, profile := c.iProf }
  else { stage := 1, len := c.iLen, profile := c.iProf }

/-- The ingest of command `k` stands as `i`. -/
def State.setIngest (s : State) (k : Nat) (i : Ingest) : State := { s with ingests := FMap.set s.ingests k i }

section
variable {s u v : State} {r q : Nat} {c : Cmd} {b rd : Rd}

theorem exec_shingleProfile (h : s.passes r q 0x23 c u)
    (hread : u.operand (cmdKey r q) c.part (c.f 17 1) (c.f 24 6) 32 v)
    (hrd : rd = v.readSeg c.part (c.f 17 1) (c.f 24 6) 32 (u.operOf (cmdKey r q) c.part (c.f 17 1) b))
    (hclean : rd.poison = []) (hgood : profileBad rd.data = false) :
    exec (.shingleProfile r q b) s
      = .next ((v.keepProfile c.part (c.f 16 1) rd.data).finish (cmdKey r q) stOk) := by
  obtain ⟨w, hask, hopen⟩ := hread
  change execShingleProfile _ _ _ _ = _
  simp only [execShingleProfile, h.front, hask, hopen, ← hrd, hclean, hgood, List.isEmpty_nil, Bool.not_true,
    Bool.or_false, Bool.false_eq_true, if_false]
  rfl

theorem State.keepProfile_profile (s : State) (p i : Nat) (b : Bytes) :
    FMap.find ((s.keepProfile p i b).part p).profiles i = some b := by
  simp [State.keepProfile]

theorem exec_ingest (h : s.passes r q 0x24 c u)
    (hopen : u.openAsk c.part c.iSrc.1 c.iSrc.2 (if c.iSealed then 64 else 0) false = (true, v))
    (hrd : rd = v.readSeg c.part c.iSrc.1 c.iSrc.2 64 { data := [] })
    (hcheck : v.ingestCheck (cmdKey r q) c rd.data (!rd.poison.isEmpty) = 0) :
    exec (.ingest r q) s
      = .next ((v.setPhase (cmdKey r q) .running).setIngest (cmdKey r q) (c.newIngest rd.data)) := by
  rw [State.setIngest, State.setPhase_ingests]
  change execIngest _ _ _ = _
  simp only [execIngest, h.front, hopen, ← hrd, hcheck, bne_self_eq_false, Bool.not_true, Bool.false_eq_true,
    if_false]
  rfl

end

/-! ### The end of an ingest -/

section
variable {s t : State} {k : Nat} {c : Cmd}

theorem State.ingestEnd_mem (s : State) (k st res : Nat) : (s.ingestEnd k st res).mem = s.mem := State.finish_mem ..

theorem State.ingestEnd_io (s : State) (k st res : Nat) : (s.ingestEnd k st res).io = s.io := State.finish_io ..

theorem State.ingestEnd_ingest (s : State) (k st res : Nat) : FMap.find (s.ingestEnd k st res).ingests k = none :=
  (congrArg (FMap.find · k) (State.finish_ingests ..)).trans (FMap.find_del_self ..)

/-- The command of an ingest completes where it ends. -/
theorem State.ingestEnd_completed {st res : Nat} (hfe : t.fe = s.fe) (hc : s.cmd? k = some c)
    (hk : cmdKey c.ring c.seq = k) : (t.ingestEnd k st res).completed c st res 0 :=
  State.finish_done (congrArg (·.cmds) hfe) hc hk.symm ..

end

/-! ### OPEN accesses and what they count -/

/-- An access that goes on: no line of the range is the host's, and its sheets are moved (R260). -/
theorem State.openAsk_ok {s v : State} {p g off len : Nat} {wr : Bool} (h : s.openAsk p g off len wr = (true, v)) :
    v = (s.readTaken (s.segLines p g off len)).openRange p g off len (!wr) := by
  unfold State.openAsk at h
  dsimp only at h
  generalize (if wr then s.segLines p g off len else s.readBlocked (s.segLines p g off len)) = ask at h
  split at h
  · exact absurd (congrArg Prod.fst h) Bool.false_ne_true
  · exact (congrArg Prod.snd h).symm

theorem bitsOf_lt (n hi lo : Nat) : bitsOf n hi lo < 2 ^ (hi + 1 - lo) := Nat.mod_lt _ (Nat.two_pow_pos _)

/-- There are four controllers of tier-1 (R178). -/
theorem t1Ctrl_lt (n : Nat) : t1Ctrl n < 4 := by
  have hfold (l : List Nat) (f : Nat) (hf : f < 2 ^ 2) :
      l.foldl (fun f i => f ^^^ bitsOf n (2 * i + 9) (2 * i + 8)) f < 2 ^ 2 := by
    induction l generalizing f with
    | nil => exact hf
    | cons i l ih =>
      refine ih _ (Nat.xor_lt_two_pow hf ?_)
      have hbits := bitsOf_lt n (2 * i + 9) (2 * i + 8)
      rwa [show 2 * i + 9 + 1 - (2 * i + 8) = 2 by omega] at hbits
  exact Nat.xor_lt_two_pow (bitsOf_lt n 7 6) (hfold _ 0 (by decide))

section
variable (s : State) {id inst : Nat} (hid : 0x048 ≤ id)
include hid

/-- T1_OPEN_SHEETS and the counters of tier-1 before it, one a controller, are no others'. -/
theorem State.count_t1_counter {i : Nat} (hi : i ≤ 0x047) (n m : Nat) :
    (s.count i (t1Ctrl n) m).counter id inst = s.counter id inst := by
  have hctrl := t1Ctrl_lt n
  exact s.count_counter_ne m (by unfold ctrKey; omega)

theorem State.openSheets_counter (a len : Nat) : (s.openSheets a len).counter id inst = s.counter id inst :=
  State.each_inv (·.counter id inst) _ _ (fun s n => s.count_t1_counter hid (by decide) n 1) s

theorem State.rebuild_counter (n : Nat) : (s.rebuild n).counter id inst = s.counter id inst := by
  unfold State.rebuild
  dsimp only
  split
  · exact s.count_t1_counter hid (by decide) n 1
  · rfl

theorem State.rebuildIn_counter (a len : Nat) : (s.rebuildIn a len).counter id inst = s.counter id inst := by
  unfold State.rebuildIn
  split
  · exact State.each_inv (·.counter id inst) _ _ (fun s n => s.rebuild_counter hid n) s
  · rfl

theorem State.openRange_counter (p g off len : Nat) (read : Bool) :
    (s.openRange p g off len read).counter id inst = s.counter id inst := by
  unfold State.openRange
  split
  · rfl
  · split
    · rfl
    · refine State.each_inv (·.counter id inst) _ _ (fun s x => ?_) s
      cases read with
      | false => exact s.openSheets_counter hid ..
      | true => exact (State.rebuildIn_counter _ hid ..).trans (s.openSheets_counter hid ..)

/-- An access that goes on has counted what it moves of tier-1, nothing else. -/
theorem State.openAsk_counter {p g off len : Nat} {wr : Bool} {v : State} (h : s.openAsk p g off len wr = (true, v)) :
    v.counter id inst = s.counter id inst := by
  have htaken (ls : List Nat) : (s.readTaken ls).counter id inst = s.counter id inst := by
    unfold State.readTaken
    split <;> rfl
  rw [State.openAsk_ok h, State.openRange_counter _ hid, htaken]

end

/-! ### INGEST_DECRYPT_DONE -/

/-- IV, additional data, ciphertext and tag of an envelope, `d` its bytes (R203). -/
def Ingest.iv (i : Ingest) : Bytes := (i.head.drop 16).take 12
def Ingest.aad (i : Ingest) (d : Bytes) : Bytes := i.head ++ (d.drop 64).take (eAad i.head)
def Ingest.ct (i : Ingest) (d : Bytes) : Bytes := (d.drop (64 + eAad i.head)).take i.len
def Ingest.tag (i : Ingest) (d : Bytes) : Bytes := d.drop (64 + eAad i.head + i.len)

/-- The tag of the envelope under the ingest key of a slot. -/
def Ingest.tagUnder (i : Ingest) (x : Slot) (d : Bytes) : Bytes := gcmTag x.alg x.ingestKey i.iv (i.aad d) (i.ct d)

/-- The envelope's plaintext is written to its destination. -/
def State.writePlain (s : State) (c : Cmd) (x : Slot) (i : Ingest) (d : Bytes) : State :=
  s.writeSeg .other c.part c.iDst.1 c.iDst.2 (gcmDec x.alg x.ingestKey i.iv (i.ct d)) []

/-- With the plaintext in place an ingest goes on to shingling, or ends. -/
def State.plainDone (s : State) (k : Nat) (c : Cmd) (i : Ingest) : State :=
  let s := s.count 0x051 c.part i.len
  if i.profile.isSome then s.setIngest k { i with stage := 1 } else s.ingestOk k c stOk (ingestResult i.len 0)

/-- A tag that fails: the destination is zeroed, the failure counts for the slot, the ingest ends. -/
def State.tagFailed (s : State) (k : Nat) (c : Cmd) (i : Ingest) : State :=
  ((s.zeroDst c i.len).count 0x052 c.iSlot 1).ingestEnd k stTagFail 0

/-- The ingest `i` of command `k`, `c`, has its envelope decrypted; `rd` is what was read of it, and `u` the state once
the sheets of source and destination have moved. -/
structure Decrypts (s u : State) (k : Nat) (c : Cmd) (i : Ingest) (rd : Rd) : Prop where
  ingest : FMap.find s.ingests k = some i
  cmd : s.cmd? k = some c
  stage : i.stage = 0
  reads : ∃ v, s.openAsk c.part c.iSrc.1 c.iSrc.2 (eBytes i.head) false = (true, v)
    ∧ rd = v.readSeg c.part c.iSrc.1 c.iSrc.2 (eBytes i.head) { data := [] }
    ∧ u = v.openRange c.part c.iDst.1 c.iDst.2 i.len false

section
variable {s u : State} {r q : Nat} {c : Cmd} {i : Ingest} {rd : Rd}

theorem Decrypts.readKeeps {k : Nat} (h : Decrypts s u k c i rd) : Same readKeeps s u := by
  obtain ⟨v, hopen, -, hu⟩ := h.reads
  rw [hu]
  exact State.openRange_same (State.openAsk_readKeeps hopen) _ _ _ _ _ rfl

theorem Decrypts.slot {k : Nat} (h : Decrypts s u k c i rd) (n : Nat) : u.slot n = s.slot n :=
  State.slot_congr (h.readKeeps.slots rfl) n

theorem Decrypts.counter {k id inst : Nat} (h : Decrypts s u k c i rd) (hid : 0x048 ≤ id) :
    u.counter id inst = s.counter id inst := by
  obtain ⟨v, hopen, -, hu⟩ := h.reads
  rw [hu, v.openRange_counter hid, s.openAsk_counter hid hopen]

theorem exec_ingestDecryptDone_good (h : Decrypts s u (cmdKey r q) c i rd) (hclean : rd.poison = [])
    (htag : i.tagUnder (s.slot c.iSlot) rd.data = i.tag rd.data) :
    exec (.ingestDecryptDone r q) s
      = .next ((u.writePlain c (s.slot c.iSlot) i rd.data).plainDone (cmdKey r q) c i) := by
  rw [← h.slot] at htag ⊢
  obtain ⟨hi, hc, hstage, v, hopen, hrd, hu⟩ := h
  unfold Ingest.tagUnder Ingest.iv Ingest.aad Ingest.ct Ingest.tag at htag
  change execIngestDecryptDone _ _ _ = _
  simp only [execIngestDecryptDone, hi, hc, hstage, hopen, ← hrd, ← hu, hclean, htag, bne_self_eq_false,
    List.isEmpty_nil, Bool.not_true, Bool.or_false, Bool.false_eq_true, if_false]
  rfl

theorem exec_ingestDecryptDone_bad (h : Decrypts s u (cmdKey r q) c i rd)
    (hbad : rd.poison ≠ [] ∨ i.tagUnder (s.slot c.iSlot) rd.data ≠ i.tag rd.data) :
    exec (.ingestDecryptDone r q) s = .next (u.tagFailed (cmdKey r q) c i) := by
  rw [← h.slot] at hbad
  obtain ⟨hi, hc, hstage, v, hopen, hrd, hu⟩ := h
  have hfail : (!rd.poison.isEmpty || i.tagUnder (u.slot c.iSlot) rd.data != i.tag rd.data) = true := by
    simpa using hbad
  unfold Ingest.tagUnder Ingest.iv Ingest.aad Ingest.ct Ingest.tag at hfail
  change execIngestDecryptDone _ _ _ = _
  simp only [execIngestDecryptDone, hi, hc, hstage, hopen, ← hrd, ← hu, hfail, bne_self_eq_false, Bool.not_true,
    Bool.false_eq_true, if_false, if_true]
  rfl

theorem State.writePlain_fe (s : State) (c : Cmd) (x : Slot) (i : Ingest) (d : Bytes) :
    (s.writePlain c x i d).fe = s.fe :=
  State.writeSeg_fe ..

theorem State.plainDone_mem (s : State) (k : Nat) (c : Cmd) (i : Ingest) : (s.plainDone k c i).mem = s.mem := by
  unfold State.plainDone
  dsimp only
  split
  · rfl
  · exact State.ingestEnd_mem ..

/-- An ingest without a profile ends with its plaintext in place. -/
theorem State.plainDone_last (hnone : i.profile = none) (s : State) (k : Nat) (c : Cmd) :
    s.plainDone k c i
      = ((s.count 0x051 c.part i.len).count 0x050 c.part 1).ingestEnd k stOk (ingestResult i.len 0) := by
  simp only [State.plainDone, hnone, Option.isSome_none, Bool.false_eq_true, if_false]
  rfl

/-- One with a profile goes on to be shingled. -/
theorem State.plainDone_shingles (hsome : i.profile ≠ none) (s : State) (k : Nat) (c : Cmd) :
    FMap.find (s.plainDone k c i).ingests k = some { i with stage := 1 } := by
  simp only [State.plainDone, Option.isSome_iff_ne_none.2 hsome, if_true]
  exact FMap.find_set_self ..

theorem State.tagFailed_mem (s : State) (k : Nat) (c : Cmd) (i : Ingest) :
    (s.tagFailed k c i).mem = (s.zeroDst c i.len).mem :=
  State.ingestEnd_mem ..

theorem State.tagFailed_counter (s : State) (k : Nat) (c : Cmd) (i : Ingest) :
    (s.tagFailed k c i).counter 0x052 c.iSlot = s.counter 0x052 c.iSlot + 1 := by
  have hzero : (s.zeroDst c i.len).ctr = s.ctr := ctr_of (State.zeroDst_same (.refl _ s) _ _ rfl rfl)
  refine (State.finish_counter ..).trans ((State.count_counter (s.zeroDst c i.len) ..).trans ?_)
  exact congrArg (FMap.get · (ctrKey 0x052 c.iSlot) 0 + 1) hzero

end

/-! ### SHINGLE_DONE -/

/-- A chunk of a text, its bag, and whether the bag was cut (R205). -/
abbrev BagChunk := (Nat × Nat) × List (Nat × Nat) × Bool

/-- Lists are written to the output region of an INGEST, each at its offset (R206). -/
def State.writeLists (s : State) (c : Cmd) (prof : Bytes) (ls : List (Nat × List BagChunk)) : State :=
  s.each ls fun s x => (s.openRange c.part c.iOut.1 (c.iOut.2 + x.1)
    (listOf prof (x.2.map fun y => (y.1, y.2.1))).length false).writeSeg .other c.part c.iOut.1 (c.iOut.2 + x.1)
      (listOf prof (x.2.map fun y => (y.1, y.2.1))) []

theorem State.writeLists_fe (s : State) (c : Cmd) (prof : Bytes) (ls : List (Nat × List BagChunk)) :
    (s.writeLists c prof ls).fe = s.fe :=
  State.each_inv (·.fe) _ _ (fun s _ => (State.writeSeg_fe ..).trans
    (fe_of (State.openRange_same (.refl _ s) _ _ _ _ _ rfl))) s

/-- Chunks in lists, chunks whose bag was cut, and ingests that end are counted (R206). -/
def State.countShingled (s : State) (p : Nat) (n cut : Nat) : State :=
  ((s.count 0x053 p n).count 0x054 p cut).count 0x050 p 1

/-- Status and RESULT of shingling with `n` chunks in lists, by the chunks left: none, or the first of them (R206). -/
def shingleEnd {α β : Type} (len n : Nat) : List ((Nat × α) × β) → Nat × Nat
  | [] => (stOk, ingestResult len n)
  | x :: _ => (stShingleOver, ingestResult x.1.1 n)

/-- Shingling writes the lists that fit, counts, and ends by the chunks left. -/
theorem State.shingle_eq {s : State} {c : Cmd} {prof text : Bytes} {n : Nat}
    {cs : List BagChunk} {ls : List (Nat × List BagChunk)}
    (hlists : shingleLists prof text c.iOutCap = (cs, ls)) (hn : n = (ls.map fun x => x.2.length).foldl (· + ·) 0)
    (k len : Nat) :
    s.shingle k c len prof text
      = ((s.writeLists c prof ls).countShingled c.part n ((cs.take n).filter fun x => x.2.2).length).ingestEnd k
          (shingleEnd len n (cs.drop n)).1 (shingleEnd len n (cs.drop n)).2 := by
  rw [State.shingle, hlists]
  dsimp only
  rw [← hn]
  cases cs.drop n with
  | nil => rfl
  | cons x xs => rfl

theorem exec_shingleDone {s v : State} {r q : Nat} {c : Cmd} {i : Ingest} {prof : Bytes} {src : Nat × Nat} {rd : Rd}
    (hi : FMap.find s.ingests (cmdKey r q) = some i) (hc : s.cmd? (cmdKey r q) = some c) (hstage : i.stage = 1)
    (hprof : i.profile = some prof) (hsrc : src = if c.iSealed then c.iDst else c.iSrc)
    (hout : s.segLines c.part c.iOut.1 c.iOut.2 c.iOutCap = [])
    (hopen : s.openAsk c.part src.1 src.2 i.len false = (true, v))
    (hrd : rd = v.readSeg c.part src.1 src.2 i.len { data := [] }) (hclean : rd.poison = []) :
    exec (.shingleDone r q) s = .next (v.shingle (cmdKey r q) c i.len prof rd.data) := by
  change execShingleDone _ _ _ = _
  simp only [execShingleDone, hi, hc, hstage, hprof, ← hsrc, hout, hopen, ← hrd, hclean, bne_self_eq_false,
    List.isEmpty_nil, Bool.not_true, Bool.false_eq_true, if_false]

/-- Settles O14: the commands by what they keep, decryption by the tag under the slot's key
(`exec_ingestDecryptDone_good`, `exec_ingestDecryptDone_bad`), shingling by the lists it writes and the chunks left
(`State.shingle_eq`). -/
theorem ingesting : Obligations.Ingesting := by
  unfold Obligations.Ingesting
  refine ⟨fun s u v r q c b rd h hread hrd hclean hgood => ?_, fun s u v r q c rd h hopen hrd hcheck => ?_,
    fun s v u r q c i rd iv aad ct hi hc hk hstage hopen hrd hu hclean hiv haad hct htag => ?_,
    fun s v u r q c i rd iv aad ct hi hc hk hstage hopen hrd hu hiv haad hct hbad => ?_,
    fun s v w r q n c i prof src rd hi hc hk hstage hprof hsrc hout hopen hrd hclean hw hn => ?_⟩
  case refine_1 =>
    refine ⟨_, exec_shingleProfile h hread hrd hclean hgood,
      h.done (congrArg (·.cmds) (hread.readKeeps.fe rfl)) .., ?_⟩
    rw [State.part, State.finish_parts]
    exact State.keepProfile_profile ..
  case refine_2 =>
    refine ⟨_, c.newIngest rd.data, exec_ingest h hopen hrd hcheck,
      State.isRunning_fe rfl (h.running (congrArg (·.cmds) ((State.openAsk_readKeeps hopen).fe rfl))),
      FMap.find_set_self .., ?_, fun hsealed => ?_, fun hplain => ?_⟩
    · unfold Cmd.newIngest
      split <;> rfl
    · rw [Cmd.newIngest, if_pos hsealed]
      exact ⟨rfl, rfl⟩
    · rw [Cmd.newIngest, if_neg (Bool.eq_false_iff.1 hplain)]
      exact ⟨rfl, rfl⟩
  case refine_3 =>
    subst hiv haad hct
    have hd : Decrypts s u (cmdKey r q) c i rd := ⟨hi, hc, hstage, v, hopen, hrd, hu⟩
    have hfe : (u.writePlain c (s.slot c.iSlot) i rd.data).fe = s.fe :=
      (State.writePlain_fe ..).trans (hd.readKeeps.fe rfl)
    refine ⟨_, exec_ingestDecryptDone_good hd hclean htag, State.plainDone_mem .., fun hnone => ?_,
      fun hsome => State.plainDone_shingles hsome ..⟩
    rw [State.plainDone_last hnone]
    exact ⟨State.ingestEnd_completed hfe hc hk, State.ingestEnd_ingest ..⟩
  case refine_4 =>
    subst hiv haad hct
    have hd : Decrypts s u (cmdKey r q) c i rd := ⟨hi, hc, hstage, v, hopen, hrd, hu⟩
    have hfe : (u.zeroDst c i.len).fe = s.fe :=
      (fe_of (State.zeroDst_same (.refl _ u) _ _ rfl rfl)).trans (hd.readKeeps.fe rfl)
    refine ⟨_, exec_ingestDecryptDone_bad hd hbad, State.ingestEnd_completed hfe hc hk, State.tagFailed_mem .., ?_⟩
    rw [State.tagFailed_counter, hd.counter (by decide)]
  case refine_5 =>
    have hexec := exec_shingleDone hi hc hstage hprof hsrc hout hopen hrd hclean
    cases hlists : shingleLists prof rd.data c.iOutCap with
    | mk cs ls =>
      rw [hlists] at hw hn
      have hfe : (v.writeLists c prof ls).fe = s.fe :=
        (State.writeLists_fe ..).trans ((State.openAsk_readKeeps hopen).fe rfl)
      rw [State.shingle_eq hlists hn] at hexec
      refine ⟨_, hexec, State.ingestEnd_ingest .., hw ▸ State.ingestEnd_mem .., hw ▸ State.ingestEnd_io ..,
        fun hdone => ?_, fun x xs hleft => ?_⟩
      · rw [show cs.drop n = [] from hdone]
        exact State.ingestEnd_completed hfe hc hk
      · rw [show cs.drop n = x :: xs from hleft]
        exact State.ingestEnd_completed hfe hc hk

end Sys2Proof.Machine

/-! ## The host's window on tier-1 (R197, R241, R258 to R261, R267) -/

namespace Sys2Proof.Machine

/-! ### Requests -/

section
variable {s : State} {a d : Nat}

theorem State.hdmLine_exposed (hlo : s.hdmBase ≤ a) (hhi : a - s.hdmBase < t1Limit) :
    s.hdmLine a = some ((a - s.hdmBase) / 64 * 64) := by
  simp only [State.hdmLine, hlo, hhi, decide_true, Bool.and_self, if_true]

theorem State.hdmLine_aligned (h : s.hdmLine a = some d) : d % 64 = 0 := by
  unfold State.hdmLine at h
  split at h
  · exact (Option.some.inj h) ▸ Nat.mul_mod_left ..
  · exact nomatch h

theorem State.windowUp_iff : s.windowUp = true ↔ s.hp.cxlOk = true ∧ s.hp.biPurge = false := by
  simp [State.windowUp]

theorem exec_cxlMemRead (hup : s.windowUp = true) : exec (.cxlMemRead a) s = .next (s.memRead a) := by
  obtain ⟨hcxl, hpurge⟩ := State.windowUp_iff.1 hup
  change execCxlMemRead _ _ = _
  simp only [execCxlMemRead, hcxl, hpurge, Bool.not_true, Bool.false_eq_true, if_false]

theorem exec_cxlMemWrite (hup : s.windowUp = true) (b : Bytes) (bad : Bool) :
    exec (.cxlMemWrite a b bad) s = .next (s.memWrite a b bad) := by
  obtain ⟨hcxl, hpurge⟩ := State.windowUp_iff.1 hup
  change execCxlMemWrite _ _ _ _ = _
  simp only [execCxlMemWrite, hcxl, hpurge, Bool.false_eq_true, if_true, if_false]

end

/-! ### Denials (R259, R197) -/

section
variable {s : State} {a d p : Nat} {v : Seg}

theorem State.windowOwner_nobody (h : s.frameOwner d = none) : s.windowOwner d = none := by
  simp only [State.windowOwner, h]

theorem State.windowOwner_closed (h : s.frameOwner d = some (p, v)) (hshut : ((s.part p).remote || v.sealed) = true) :
    s.windowOwner d = none := by
  simp only [State.windowOwner, h, hshut, if_true]

theorem State.memRead_denied (hline : s.hdmLine a = some d) (hdeny : s.windowOwner d = none) :
    s.memRead a = (s.windowDeny d).answerLine (zeros 64) true := by
  simp only [State.memRead, hline, hdeny]

theorem State.memWrite_denied (hline : s.hdmLine a = some d) (hdeny : s.windowOwner d = none) (b : Bytes) (bad : Bool) :
    s.memWrite a b bad = s.windowDeny d := by
  simp only [State.memWrite, hline, hdeny]

theorem State.windowDeny_mem (s : State) (d : Nat) : (s.windowDeny d).mem = s.mem :=
  mem_of (State.windowDeny_same (.refl _ s) d rfl)

/-- A denied access of a frame that nobody owns counts under the number after the last partition. -/
theorem State.windowDeny_nobody (h : s.frameOwner d = none) :
    (s.windowDeny d).counter 0x083 16 = s.counter 0x083 16 + 1 := by
  simp only [State.windowDeny, h]
  exact State.count_counter ..

theorem State.windowDeny_owner (h : s.frameOwner d = some (p, v)) :
    (s.windowDeny d).counter 0x083 p = s.counter 0x083 p + 1 := by
  simp only [State.windowDeny, h]
  split
  · rw [State.count_counter_ne _ _ (by unfold ctrKey; omega)]
    exact State.count_counter ..
  · exact State.count_counter ..

theorem State.windowDeny_sealed (h : s.frameOwner d = some (p, v)) (hsealed : v.sealed = true) :
    (s.windowDeny d).counter 0x056 0 = s.counter 0x056 0 + 1 := by
  simp only [State.windowDeny, h, hsealed, if_true, State.count_counter]
  rw [State.count_counter_ne _ _ (by unfold ctrKey; omega)]
  rfl

end

/-! ### Reads (R258 to R261) -/

section
variable {s : State} {a d p : Nat} {v : Seg}

theorem State.openSheets_countsOnly (s : State) (a len : Nat) : s.CountsOnly (s.openSheets a len) :=
  State.CountsOnly.each (fun _ _ => ⟨_, rfl⟩) s

/-- A read of a line of a closed frame: its sheet moves, and the line is answered. -/
theorem State.memRead_closed (hline : s.hdmLine a = some d) (howner : s.windowOwner d = some (p, v))
    (hclosed : s.closedFrame p = true) :
    ∃ m, s.memRead a = ({ s with ctr := m }).answerLine (s.mem.readN (t1Addr d) 64) (s.t1Bad (d / 256)) := by
  obtain ⟨m, hm⟩ := (s.openSheets_countsOnly d 64).trans (State.rebuild_countsOnly _ (d / 256))
  have hframe : ({ s with ctr := m } : State).closedFrame p = true := hclosed
  exact ⟨m, by simp only [State.memRead, hline, howner, hm, hframe, if_true]; rfl⟩

theorem State.mem_grantLine (s : State) (l : Nat) : l ∈ (s.grantLine l).hp.dir :=
  List.mem_append_right _ List.mem_cons_self

theorem State.grantLine_mem (s : State) (l : Nat) : (s.grantLine l).mem = s.mem :=
  mem_of (State.grantLine_same (.refl _ s) l rfl rfl)

/-- A read of a line of an open frame: the line is granted to the host besides. -/
theorem State.memRead_open (hline : s.hdmLine a = some d) (howner : s.windowOwner d = some (p, v))
    (hopen : s.closedFrame p = false) :
    ∃ m bad, s.memRead a
      = (({ s with ctr := m }).grantLine (d / 64)).answerLine (s.mem.readN (t1Addr d) 64) bad := by
  obtain ⟨m, hm⟩ := (s.openSheets_countsOnly d 64).trans (State.rebuild_countsOnly _ (d / 256))
  have hframe : ({ s with ctr := m } : State).closedFrame p = false := hopen
  have hmem := State.grantLine_mem { s with ctr := m } (d / 64)
  exact ⟨m, _, by simp only [State.memRead, hline, howner, hm, hframe, hmem, Bool.false_eq_true, if_false]; rfl⟩

end

/-! ### Writes (R259, R261) -/

section
variable {s : State} {a d p : Nat} {v : Seg}

theorem State.memWrite_readOnly (hline : s.hdmLine a = some d) (howner : s.windowOwner d = some (p, v))
    (hro : v.readOnly = true) (b : Bytes) (bad : Bool) : s.memWrite a b bad = s.count 0x083 p 1 := by
  simp only [State.memWrite, hline, howner, hro, if_true]

/-- Marks aside, a write of memory is its bytes. -/
theorem Memory.writePart_cells (m : Memory) (a : Nat) (b : Bytes) : (m.writePart a b).cells = (m.writeN a b).cells := by
  unfold Memory.writePart
  dsimp only
  refine List.foldlRecOn (motive := fun x : Memory => x.cells = (m.writeN a b).cells) _ _ rfl fun x hx i _ => ?_
  split
  · exact hx
  · exact hx

theorem Memory.read_writePart (m : Memory) (a : Nat) (b : Bytes) (x : Nat) :
    (m.writePart a b).read x = (m.writeN a b).read x :=
  congrArg (cellRead · x) (m.writePart_cells a b)

/-- Bytes that lie in one sheet are one piece. -/
theorem splitSheets_single {b : Bytes} (hne : b ≠ []) (hfit : a % 256 + b.length ≤ 256) (k : Nat) :
    splitSheets (k + 2) a b = [(a, b)] := by
  have hlen : b.length ≤ 256 - a % 256 := by omega
  simp [splitSheets, hne, List.take_of_length_le hlen, List.drop_of_length_le hlen]

/-- A write within a sheet of a group that is not FAILED is carried out whole (R183). -/
theorem State.t1Write_mem {b : Bytes} (hne : b ≠ []) (hfit : a % 256 + b.length ≤ 256)
    (hup : s.t1Failed (a / 256) = false) :
    (s.t1Write a b).mem = s.mem.writePart (t1Addr a) b := by
  unfold State.t1Write
  split
  · simp [splitSheets_single hne hfit, hup]
  · rfl

theorem CopiesLike.openSheets (s : State) (a len : Nat) : CopiesLike s (s.openSheets a len) :=
  .of_same (State.openSheets_same (.refl _ _) a len rfl)

theorem CopiesLike.rebuild (s : State) (n : Nat) : CopiesLike s (s.rebuild n) :=
  .of_same (State.rebuild_same (.refl _ _) n rfl)

theorem fit_length (n : Nat) (b : Bytes) : (fit n b).length = n := by simp [fit]

/-- A host write of a line that is allowed, whose sheet is sound, changes the line's bytes, no others. -/
theorem State.memWrite_mem {b : Bytes} (hline : s.hdmLine a = some d) (howner : s.windowOwner d = some (p, v))
    (hrw : v.readOnly = false) (hgood : s.t1Bad (d / 256) = false) :
    (s.memWrite a b false).mem = s.mem.writePart (t1Addr d) (fit 64 b) := by
  have haligned := State.hdmLine_aligned hline
  have hmoved := CopiesLike.openSheets s d 64
  have hup : s.t1Failed (d / 256) = false := (Bool.or_eq_false_iff.1 hgood).1
  have hlen := fit_length 64 b
  have hwrite : s.memWrite a b false = ((s.openSheets d 64).rebuild (d / 256)).writeT1 d (fit 64 b) [] := by
    simp only [State.memWrite, State.lineWrite, hline, howner, hrw, hmoved.t1Bad, hgood, Bool.false_eq_true, if_false]
  rw [hwrite]
  calc (((s.openSheets d 64).rebuild (d / 256)).writeT1 d (fit 64 b) []).mem
    _ = (((s.openSheets d 64).rebuild (d / 256)).t1Write d (fit 64 b)).mem := (CopiesLike.cacheWritten _ _ _).mem
    _ = (s.t1Write d (fit 64 b)).mem := ((hmoved.trans (.rebuild ..)).t1Write ..).mem
    _ = s.mem.writePart (t1Addr d) (fit 64 b) :=
      State.t1Write_mem (List.ne_nil_of_length_eq_add_one hlen) (by omega) hup

end

/-! ### Answers to back-invalidations (R260, R267) -/

section
variable {s : State} {l : Nat}

theorem State.openGo_idle (h : s.hp.waits = []) : s.openGo = s := by
  simp only [State.openGo, h]
  rfl

theorem State.memGo_idle (h : s.hp.memQ = []) : s.memGo = s := by
  simp only [State.memGo, h]
  exact congrArg (fun q : List MemReq => ({ s with hp := { s.hp with memQ := q } } : State)) h.symm

theorem State.intakeGo_idle (h : ∀ p, s.rel.receiver = some p → p.inbox = []) : s.intakeGo = s := by
  unfold State.intakeGo
  split
  · rfl
  · next p hp =>
    rw [h p hp]
    rfl

/-- A line's BISnpInv is answered: the line is tracked no longer. -/
def State.lineBack (s : State) (l : Nat) : State :=
  { s with hp := { s.hp with
    biWait := s.hp.biWait.filter (· != l), dir := s.hp.dir.filter (· != l), shared := s.hp.shared.filter (· != l)
    biPurge := s.hp.biPurge && !(s.hp.biWait.filter (· != l)).isEmpty } }

/-- A line's BISnpData is answered: the host holds it shared. -/
def State.lineShared (s : State) (l : Nat) : State :=
  { s with hp := { s.hp with biData := s.hp.biData.filter (· != l), shared := l :: s.hp.shared.filter (· != l) } }

theorem exec_bisnpResponse_inv (hdata : s.hp.biData.contains l = false) (hasked : s.hp.biWait.contains l = true)
    (hwaits : s.hp.waits = []) (hmem : s.hp.memQ = []) (hinbox : ∀ p, s.rel.receiver = some p → p.inbox = []) :
    exec (.bisnpResponse l) s = .next (s.lineBack l) := by
  have hmemGo : (s.lineBack l).memGo = s.lineBack l := State.memGo_idle hmem
  have hopenGo : (s.lineBack l).openGo = s.lineBack l := State.openGo_idle hwaits
  have hintakeGo : (s.lineBack l).intakeGo = s.lineBack l := State.intakeGo_idle hinbox
  have hgo : (if (s.lineBack l).hp.biPurge then s.lineBack l else (s.lineBack l).memGo.openGo.intakeGo)
      = s.lineBack l := by
    rw [hmemGo, hopenGo, hintakeGo, ite_self]
  change execBisnpResponse _ _ = _
  simp only [execBisnpResponse, hdata, hasked, Bool.false_eq_true, if_false, if_true]
  exact congrArg Host.Outcome.next hgo

theorem exec_bisnpResponse_data (hdata : s.hp.biData.contains l = true) (hwaits : s.hp.waits = []) :
    exec (.bisnpResponse l) s = .next (s.lineShared l) := by
  have hopenGo : (s.lineShared l).openGo = s.lineShared l := State.openGo_idle hwaits
  change execBisnpResponse _ _ = _
  simp only [execBisnpResponse, hdata, if_true]
  exact congrArg Host.Outcome.next hopenGo

/-- A request that arrives while lines are asked back after a reset waits (R267). -/
theorem exec_cxlMem_waits {a : Nat} {b : Bytes} {bad : Bool} (hcxl : s.hp.cxlOk = true) (hpurge : s.hp.biPurge = true) :
    exec (.cxlMemRead a) s = .next (s.memWait (.read a))
      ∧ exec (.cxlMemWrite a b bad) s = .next (s.memWait (.write a b bad)) := by
  refine ⟨?_, ?_⟩
  · change execCxlMemRead _ _ = _
    simp only [execCxlMemRead, hcxl, hpurge, Bool.not_true, Bool.false_eq_true, if_true, if_false]
  · change execCxlMemWrite _ _ _ _ = _
    simp only [execCxlMemWrite, hcxl, hpurge, if_true]

end

/-- Settles O43: reads by what they answer (`State.memRead_closed`, `State.memRead_open`), denials by what they count
(`State.windowDeny_owner`), a write by the bytes it changes (`State.memWrite_mem`), the answers
to snoops by the lines tracked after them. -/
theorem hostWindow : Obligations.HostWindow := by
  unfold Obligations.HostWindow
  refine ⟨fun s a d p v hline hup howner hclosed => ?_, fun s a d p v hline hup howner hopen => ?_,
    fun s a d hline hup hnone => ?_, fun s a d b bad hline hup hnone => ?_,
    fun s a d p v b bad hline hup howner hshut => ?_, fun s a hlo hhi => State.hdmLine_exposed hlo hhi,
    fun s a d p v b hline hup howner hrw hgood hsound => ?_, fun s a d p v b bad hline hup howner hro => ?_,
    fun s a b bad hcxl hpurge => exec_cxlMem_waits hcxl hpurge,
    fun s l hdata hasked hwaits hmem hinbox => ?_, fun s l hdata hwaits => ?_⟩
  case refine_1 =>
    obtain ⟨m, hread⟩ := State.memRead_closed hline howner hclosed
    exact ⟨_, (exec_cxlMemRead hup).trans (congrArg _ hread), rfl, rfl, rfl, rfl⟩
  case refine_2 =>
    obtain ⟨m, bad, hread⟩ := State.memRead_open hline howner hopen
    exact ⟨_, (exec_cxlMemRead hup).trans (congrArg _ hread), State.grantLine_mem .., State.mem_grantLine .., rfl⟩
  case refine_3 =>
    have hread := State.memRead_denied hline (State.windowOwner_nobody hnone)
    exact ⟨_, (exec_cxlMemRead hup).trans (congrArg _ hread), State.windowDeny_mem .., rfl, rfl,
      State.windowDeny_nobody hnone⟩
  case refine_4 =>
    have hwrite := State.memWrite_denied hline (State.windowOwner_nobody hnone) b bad
    exact ⟨_, (exec_cxlMemWrite hup b bad).trans (congrArg _ hwrite), State.windowDeny_mem ..,
      State.windowDeny_nobody hnone⟩
  case refine_5 =>
    have hdeny := State.windowOwner_closed howner hshut
    have hread := State.memRead_denied hline hdeny
    have hwrite := State.memWrite_denied hline hdeny b bad
    exact ⟨⟨_, (exec_cxlMemRead hup).trans (congrArg _ hread), State.windowDeny_mem .., rfl, rfl,
        State.windowDeny_owner howner, State.windowDeny_sealed howner⟩,
      _, (exec_cxlMemWrite hup b bad).trans (congrArg _ hwrite), State.windowDeny_mem ..,
        State.windowDeny_owner howner, State.windowDeny_sealed howner⟩
  case refine_6 =>
    have hmem := State.memWrite_mem (b := b) hline howner hrw hgood
    have hlen := fit_length 64 b
    refine ⟨_, exec_cxlMemWrite hup b false, fun i hi => ?_, fun c hc => ?_⟩
    · rw [hmem, Memory.read_writePart]
      exact Memory.read_writeN_in _ _ _ _ hsound (hlen ▸ hi)
    · rw [hmem, Memory.read_writePart]
      exact Memory.read_writeN_out _ _ _ _ hsound (hlen ▸ hc)
  case refine_7 =>
    have hwrite := State.memWrite_readOnly hline howner hro b bad
    exact ⟨_, (exec_cxlMemWrite hup b bad).trans (congrArg _ hwrite), rfl, State.count_counter ..⟩
  case refine_8 =>
    exact ⟨_, exec_bisnpResponse_inv hdata hasked hwaits hmem hinbox, rfl, rfl, rfl⟩
  case refine_9 =>
    exact ⟨_, exec_bisnpResponse_data hdata hwaits, rfl, List.mem_cons_self, rfl⟩

end Sys2Proof.Machine

/-! ## Enabling, disabling and draining a ring (R222, R223) -/

namespace Sys2Proof.Machine

/-- The ring with the words that an enable latches (R222). -/
def State.latchedRing (s : State) (n : Nat) : Ring := { s.ring n with lat := s.group (ringReg n) ringOffs }

/-- A ring as an enable starts it: a new epoch, every index 0, nothing in its log (R222). -/
def Ring.fresh (r : Ring) : Ring := { r with
  err := 0, epoch := (r.epoch + 1) % 2 ^ 16, sqCons := 0, cqProd := 0, cqSeen := 0, prod := 0
  notified := false, lineHeld := false, dbReread := false, armRead := false, log := [], held := []
  dbLine := zeros 64 }

/-- A ring that fetches no more, its log kept (R223). -/
def Ring.draining (r : Ring) : Ring := { r with
  st := 5, reading := 0, rereads := 0, rereadWait := false, armPending := false, dbReread := false
  lineHeld := false, log := if r.st = 4 then [] else r.log }

@[simp] theorem State.dropDesc_ring (s : State) (n j : Nat) : (s.dropDesc n).ring j = s.ring j := rfl
@[simp] theorem State.dropDesc_regs (s : State) (n : Nat) : (s.dropDesc n).regs = s.regs := rfl

section
variable {s : State} {n j : Nat}

theorem State.enableRing_good (h : s.ringCheck n (s.latchedRing n) = 0) :
    s.enableRing n = (s.setRing n (s.latchedRing n).fresh).arm n :=
  if_neg fun hne => bne_iff_ne.1 hne h

theorem State.enableRing_bad (h : s.ringCheck n (s.latchedRing n) ≠ 0) :
    s.enableRing n = s.modRing n fun r => { r with err := s.ringCheck n (s.latchedRing n) } :=
  if_pos (bne_iff_ne.2 h)

theorem State.enableRing_ring (h : s.ringCheck n (s.latchedRing n) = 0) :
    (s.enableRing n).ring n = { (s.latchedRing n).fresh with
      st := 1, armPending := true, reading := 0, rereads := 0, rereadWait := false } := by
  rw [State.enableRing_good h, State.arm_ring, State.setRing_ring]

theorem State.enableRing_ring_ne (h : s.ringCheck n (s.latchedRing n) = 0) (hj : j ≠ n) :
    (s.enableRing n).ring j = s.ring j := by
  rw [State.enableRing_good h, State.arm_ring_ne _ hj, State.setRing_ring_ne _ _ hj]

theorem State.disableRing_live (h0 : (s.ring n).st ≠ 0) (h5 : (s.ring n).st ≠ 5) :
    s.disableRing n = (s.dropDesc n).setRing n (s.ring n).draining :=
  if_neg (by simp [h0, h5])

/-- The register's write (R222): a DISABLED ring is enabled. -/
theorem exec_ringEnable (hn : n < 4096) (hst : (s.ring n).st = 0) :
    exec (.ringEnable n) s = .next ((s.store (ringReg n + 0x18) 1 1).enableRing n) := by
  change execRingEnable _ _ = _
  simp only [execRingEnable, hn, State.ringEnableBit, State.store_regF1, State.store_ring, hst, if_true]

theorem exec_ringDisable (hn : n < 4096) :
    exec (.ringDisable n) s = .next ((s.store (ringReg n + 0x18) 1 0).disableRing n) := by
  change execRingDisable _ _ = _
  simp only [execRingDisable, hn, State.ringEnableBit, State.store_regF0, if_true, zero_ne_one, if_false]

theorem exec_ringDrainDone (h : s.ringDrained n = true) (hst : (s.part (s.ring n).part).st ≠ 2) :
    exec (.ringDrainDone n) s = .next (s.endRing n) := by
  have hpart : (s.endRing n).part (s.ring n).part = s.part (s.ring n).part := rfl
  change execRingDrainDone _ _ = _
  simp only [execRingDrainDone, h, hpart, hst, decide_false, Bool.false_and, Bool.false_eq_true, if_true, if_false]

end

/-- Settles O1: what an enable makes of a ring (`State.enableRing_ring`), and what a disable
(`State.disableRing_live`). -/
theorem ringEnableDisable : Obligations.RingEnableDisable := by
  unfold Obligations.RingEnableDisable
  refine ⟨fun s n hn hst hok => ?_, fun s n hn hst hbad => ?_, fun s n hn h0 h5 => ?_, fun s n h hst => ?_⟩
  case refine_1 =>
    have hring := State.enableRing_ring hok
    refine ⟨_, exec_ringEnable hn hst, ?_⟩
    rw [hring]
    exact ⟨rfl, rfl, rfl, rfl, rfl, rfl, rfl, rfl, fun j hj => State.enableRing_ring_ne hok hj⟩
  case refine_2 =>
    refine ⟨_, exec_ringEnable hn hst, ?_⟩
    rw [State.enableRing_bad hbad, State.modRing_ring]
    exact ⟨hst, rfl⟩
  case refine_3 =>
    refine ⟨_, exec_ringDisable hn, ?_⟩
    rw [State.disableRing_live (s := s.store (ringReg n + 0x18) 1 0) h0 h5, State.setRing_ring]
    exact ⟨rfl, rfl, State.store_regF0 .., fun j hj => State.setRing_ring_ne _ _ hj⟩
  case refine_4 =>
    refine ⟨_, exec_ringDrainDone h hst, ?_⟩
    rw [State.endRing, State.modRing_ring]
    exact ⟨rfl, rfl⟩

end Sys2Proof.Machine

/-! ## Fetching descriptors and arming (R226, R227, R282) -/

namespace Sys2Proof.Machine

/-- A ring's read is over, and what an RDMA READ of it brought is taken. -/
def State.readOver (s : State) (n : Nat) : State :=
  (if (s.ring n).remote then s.dropDesc n else s).setRing n { s.ring n with reading := 0 }

section
variable {s : State} {n : Nat}

/-! ### Reads -/

theorem Ring.turnCount_le (r : Ring) : r.turnCount ≤ 4 := (Nat.min_le_right ..).trans (Nat.sub_le ..)

/-- A read is noted in its ring; a remote ring's READ is no part of the front end. -/
theorem State.readDescs_fe (s : State) (n m : Nat) :
    (s.readDescs n m).fe = (s.modRing n fun r => { r with reading := m }).fe := by
  unfold State.readDescs
  dsimp only
  split <;> rfl

theorem State.readDescs_ring (s : State) (n m : Nat) : (s.readDescs n m).ring n = { s.ring n with reading := m } := by
  rw [State.ring, State.readDescs_fe]
  exact State.modRing_ring ..

theorem State.readDescs_ring_ne (s : State) {n j : Nat} (m : Nat) (h : j ≠ n) :
    (s.readDescs n m).ring j = s.ring j := by
  rw [State.ring, State.readDescs_fe]
  exact State.modRing_ring_ne _ _ h

theorem exec_ringServeTurn (hturn : s.nextRing = some n) (hfetch : (s.ring n).canFetch = true) :
    exec (.ringServeTurn n) s
      = .next (({ s with fe := { s.fe with rr := n } } : State).readDescs n (s.ring n).turnCount) := by
  change execRingServeTurn _ _ = _
  simp only [execRingServeTurn, hturn, hfetch, if_true]

theorem exec_descriptorRereadTimer (hst : (s.ring n).st = 2) (hwait : (s.ring n).rereadWait = true)
    (hheld : (s.ring n).held = []) :
    exec (.descriptorRereadTimer n) s = .next ((s.setRing n { s.ring n with
      rereadWait := false, rereads := (s.ring n).rereads + 1 }).readDescs n 1) := by
  change execDescriptorRereadTimer _ _ = _
  simp only [execDescriptorRereadTimer, hst, hwait, hheld, List.isEmpty_nil, beq_self_eq_true, Bool.and_self, if_true]

/-! ### Descriptors that have been read -/

theorem State.readOver_ring (s : State) (n : Nat) : (s.readOver n).ring n = { s.ring n with reading := 0 } :=
  State.setRing_ring ..

theorem State.readOver_cmds (s : State) (n : Nat) : (s.readOver n).fe.cmds = s.fe.cmds := by
  rw [State.readOver, State.setRing_fe_cmds]
  split <;> rfl

theorem State.readOver_now (s : State) (n : Nat) : (s.readOver n).now = s.now := by
  rw [State.readOver, State.setRing_now]
  split <;> rfl

theorem exec_descriptorReadData {ds : List Rd} (hst : (s.ring n).st = 2) (hread : (s.ring n).reading ≠ 0)
    (hheld : (s.ring n).held = []) (hdone : (s.ring n).remote = true → s.doneFor (.desc n) = true) :
    exec (.descriptorReadData n ds) s = .next ((s.readOver n).takeDescs n true
      ((if (s.ring n).remote then s.descsRead n else ds).take (s.ring n).reading)) := by
  have hgo : (decide ((s.ring n).reading = 0) || (s.ring n).st != 2
      || (s.ring n).remote && !s.doneFor (.desc n)) = false := by
    cases hr : (s.ring n).remote
    · simp [hread, hst]
    · simp [hread, hst, hdone hr]
  have hempty : (s.ring n).held.isEmpty = true := by rw [hheld]; rfl
  change execDescriptorReadData _ _ _ = _
  simp only [execDescriptorReadData, hgo, hempty, Bool.false_eq_true, if_true, if_false]
  rfl

theorem State.takeDescs_single {d : Rd} (hfetch : (s.ring n).canFetch = true) (hvis : (s.ring n).visible d = true)
    (first : Bool) : s.takeDescs n first [d] = s.acceptDesc n d.data := by
  simp only [State.takeDescs, hfetch, hvis, Bool.and_self, if_true, ite_self]

theorem State.takeDescs_hidden {d : Rd} (hvis : (s.ring n).visible d = false) (ds : List Rd) :
    s.takeDescs n true (d :: ds) = s.notVisible n := by
  simp only [State.takeDescs, hvis, Bool.and_false, Bool.false_eq_true, if_true, if_false]

/-- The first descriptor that is not visible waits for the first of its re-reads. -/
theorem State.notVisible_first (h : (s.ring n).rereads = 0) : s.notVisible n = s.setRing n { s.ring n with
    rereadWait := true, notified := false, lineHeld := !(s.ring n).remote } :=
  if_pos h

/-! ### Accepted descriptors -/

/-- A descriptor of the ring as it is accepted. -/
def State.newCmd (s : State) (n : Nat) (d : Bytes) : Cmd :=
  { ring := n, seq := (s.ring n).sqCons, epoch := (s.ring n).epoch, part := (s.ring n).part, desc := d, time := s.now
    progress := s.now
    prof := if fld d 6 1 = 0x24 && fld d 21 1 != 0xFF then
      some (FMap.get (s.part (s.ring n).part).profiles (fld d 21 1) (zeros 32)) else none }

/-- What follows from its acceptance marks a command at most as one whose segment is taken (R244). -/
theorem State.acceptMarks_cmd {k : Nat} {c : Cmd} (h : s.cmd? k = some c) :
    ∃ b, (s.acceptMarks k).cmd? k = some { c with takes := b } := by
  unfold State.acceptMarks
  rw [h]
  dsimp only
  split
  · exact ⟨c.takes, h⟩
  · split
    · exact ⟨true, State.setCmd_cmd ..⟩
    · exact ⟨c.takes, h⟩

theorem State.acceptDesc_cmd {d : Bytes} (h : (opInfo (fld d 6 1)).isSome = true) :
    ∃ b, (s.acceptDesc n d).cmd? (cmdKey n (s.ring n).sqCons) = some { s.newCmd n d with takes := b } := by
  have hknown : (opInfo (fld d 6 1)).isNone = false := by rw [← Option.not_isSome, h]; rfl
  unfold State.acceptDesc
  dsimp only
  rw [hknown, if_neg Bool.false_ne_true]
  exact State.acceptMarks_cmd ((State.modRing_cmd ..).trans (State.setCmd_cmd ..))

end

/-! ### The arming write -/

theorem exec_armWriteAccepted {s : State} {n : Nat} (harm : (s.ring n).armPending = true)
    (hdone : s.doneFor (.arm n) = true) :
    exec (.armWriteAccepted n) s = .next ((s.takeDone (.arm n)).modRing n fun r => { r with
      armPending := false, dbReread := true, armRead := true, notified := false }) := by
  change execArmWriteAccepted _ _ = _
  simp only [execArmWriteAccepted, harm, hdone, Bool.and_self, if_true]

/-- Settles O2: a turn and a re-read by the read they start (`State.readDescs_fe`), a visible descriptor by the command
it becomes (`State.acceptDesc_cmd`), one that is not visible by the wait it begins (`State.notVisible_first`). -/
theorem ringService : Obligations.RingService := by
  unfold Obligations.RingService
  refine ⟨fun s n hturn hfetch => ?_, fun s n d ds hst hread hheld hfetch hdone hds hvis hop => ?_,
    fun s n d ds hst hread hheld hlocal hvis hfirst => ?_, fun s n hst hwait hheld => ?_, fun s n harm hdone => ?_⟩
  case refine_1 =>
    refine ⟨_, exec_ringServeTurn hturn hfetch, ?_⟩
    rw [State.readDescs_ring, State.readDescs_fe]
    exact ⟨rfl, Ring.turnCount_le _, rfl, rfl, fun j hj => State.readDescs_ring_ne _ _ hj⟩
  case refine_2 =>
    have hrun := exec_descriptorReadData (ds := ds) hst hread hheld hdone
    have hring := s.readOver_ring n
    rw [hds, List.take_cons (Nat.pos_of_ne_zero hread), List.take_nil,
      State.takeDescs_single (hring ▸ hfetch) (hring ▸ hvis)] at hrun
    obtain ⟨b, hcmd⟩ := State.acceptDesc_cmd (s := s.readOver n) (n := n) hop
    rw [State.newCmd, hring, State.readOver_now] at hcmd
    refine ⟨_, _, hrun, ?_, ?_, hcmd, rfl, rfl, rfl, rfl, rfl, rfl, rfl⟩
    all_goals rw [State.acceptDesc_ring _ _ _ hop, hring]
  case refine_3 =>
    have hrun := exec_descriptorReadData (ds := d :: ds) hst hread hheld fun h => by rw [hlocal] at h; cases h
    have hring := s.readOver_ring n
    rw [hlocal, if_neg Bool.false_ne_true, List.take_cons (Nat.pos_of_ne_zero hread),
      State.takeDescs_hidden (hring ▸ hvis), State.notVisible_first (hring ▸ hfirst), hring] at hrun
    refine ⟨_, hrun, ?_, ?_, (State.setRing_fe_cmds ..).trans (s.readOver_cmds n)⟩
    all_goals rw [State.setRing_ring]
  case refine_4 =>
    refine ⟨_, exec_descriptorRereadTimer hst hwait hheld, ?_⟩
    rw [State.readDescs_ring, State.setRing_ring]
    exact ⟨rfl, rfl, rfl⟩
  case refine_5 =>
    refine ⟨_, exec_armWriteAccepted harm hdone, ?_⟩
    rw [State.modRing_ring]
    exact ⟨rfl, rfl⟩

end Sys2Proof.Machine

/-! ## Notifications and doorbell values (R224, R225) -/

namespace Sys2Proof.Machine

/-! ### Snoops -/

/-- What an invalidating snoop of line `a` makes of a ring. -/
def Ring.snooped (r : Ring) (a : Nat) : Ring :=
  if r.live && !r.remote && r.lineHeld && r.dbAddr == a then { r with lineHeld := false }.notify else r

theorem hostSnoop_ring {s : State} {n : Nat} {r : Ring} (h : FMap.find s.fe.rings n = some r) (a : Nat) :
    ∃ t, exec (.hostSnoop a true) s = .next t ∧ t.ring n = r.snooped (a / 64 * 64) := by
  refine ⟨_, rfl, ?_⟩
  change FMap.get (FMap.mapV s.fe.rings fun _ r => r.snooped (a / 64 * 64)) n {} = _
  rw [FMap.get, FMap.find_mapV, h]
  rfl

theorem Ring.notify_waiting {r : Ring} (hst : r.st = 1) (harm : r.armPending = false) (hread : r.dbReread = false) :
    r.notify = { r with dbReread := true } :=
  if_pos (by simp [hst, harm, hread])

theorem Ring.snooped_waiting {r : Ring} (hst : r.st = 1) (hlocal : r.remote = false) (hheld : r.lineHeld = true)
    (harm : r.armPending = false) (hread : r.dbReread = false) :
    r.snooped r.dbAddr = { r with lineHeld := false, dbReread := true } := by
  have hlive : r.live = true := by rw [Ring.live, hst]; rfl
  unfold Ring.snooped
  rw [hlive, hlocal, hheld, beq_self_eq_true, if_pos (by decide)]
  exact Ring.notify_waiting (r := { r with lineHeld := false }) hst harm hread

/-! ### The doorbell line -/

/-- A producer's value that passes its checks (R225). -/
def Ring.takesProd (r : Ring) (v : Bytes) : Prop :=
  r.dbOk v = true ∧ sub32 (fld v 0 4) r.sqCons ≤ r.size ∧ sub32 (fld v 0 4) r.prod ≤ r.size

/-- It moves the producer, and the other value of the line at most the end of the log. -/
theorem Ring.takeDoorbell_prod {r : Ring} {line : Bytes} (h : r.takesProd (line.take 8)) :
    ∃ x l, (r.takeDoorbell line).1 = { r with prod := fld (line.take 8) 0 4, cqSeen := x, log := l } := by
  obtain ⟨hcrc, hcons, hprod⟩ := h
  have hok : (r.dbOk (line.take 8) && decide (sub32 (fld (line.take 8) 0 4) r.sqCons ≤ r.size)
      && decide (sub32 (fld (line.take 8) 0 4) r.prod ≤ r.size)) = true := by
    rw [hcrc, decide_eq_true hcons, decide_eq_true hprod]
    rfl
  unfold Ring.takeDoorbell
  dsimp only
  rw [if_pos hok]
  split
  · exact ⟨_, _, rfl⟩
  · exact ⟨_, _, rfl⟩

/-- A re-read of the doorbell line takes its values; the line is held while the ring is local, and read again only for a
notification that came meanwhile. -/
theorem State.takeLine_ring (s : State) (n : Nat) {line : Bytes} {v : Ring}
    (hv : ((s.ring n).takeDoorbell line).1 = v) :
    ((s.takeLine n line).ring n).prod = v.prod ∧ ((s.takeLine n line).ring n).lineHeld = !v.remote
      ∧ (v.notified = false → ((s.takeLine n line).ring n).dbReread = false) := by
  unfold State.takeLine
  generalize (s.ring n).takeDoorbell line = x at hv ⊢
  obtain ⟨r, bad⟩ := x
  obtain rfl : r = v := hv
  dsimp only
  split
  · rw [State.setRing_ring]
    exact ⟨rfl, rfl, fun _ => rfl⟩
  · split
    · rw [State.setRing_ring]
      exact ⟨rfl, rfl, fun h => h⟩
    · rw [State.arm_ring, State.setRing_ring]
      exact ⟨rfl, rfl, fun _ => rfl⟩

theorem exec_doorbellRereadData {s : State} {n : Nat} (hread : (s.ring n).dbReread = true)
    (hlocal : (s.ring n).remote = false) (line : Bytes) :
    exec (.doorbellRereadData n line) s = .next (s.takeLine n line) := by
  change execDoorbellRereadData _ _ _ = _
  simp only [execDoorbellRereadData, hread, hlocal, Bool.false_eq_true, if_true, if_false]

/-! ### The doorbell window -/

/-- A write of one value to a RUNNING ring's line lands there, and notifies the ring. -/
theorem exec_doorbellWindowWrite {s : State} {qp off p n : Nat} {data : Bytes} (hup : s.qpUp qp = true)
    (hp : s.attachPart qp = some p) (hin : off < (s.part p).ringCount * 64) (hoff : off % 64 = 0)
    (hlen : data.length = 8) (hn : (s.part p).ringBase + off / 64 = n) (hst : (s.ring n).st = 2)
    (hremote : (s.ring n).remote = true) :
    exec (.doorbellWindowWrite qp off data) s = .next (s.setRing n { s.ring n with
      dbLine := patchBytes (s.ring n).dbLine 0 data, notified := true }) := by
  have hlive : (s.ring n).live = true := by rw [Ring.live, hst]; rfl
  change execDoorbellWindowWrite _ _ _ _ = _
  simp only [execDoorbellWindowWrite, State.doorbellWrite, hup, hp, Nat.not_le.2 hin, hoff, hlen, hn, hlive, hremote,
    hst, if_true, if_false]
  rfl

/-- Settles O3: a snoop by the ring it notifies (`Ring.snooped_waiting`), a value by the re-read that takes it
(`Ring.takeDoorbell_prod`, `State.takeLine_ring`), a window write by the line it lands in. -/
theorem doorbells : Obligations.Doorbells := by
  unfold Obligations.Doorbells
  refine ⟨fun s n a r hr hst hlocal hheld haddr harm hread => ?_,
    fun s n line hread hlocal hquiet hcrc hcons hprod => ?_,
    fun s qp off p data hup hp hin hoff hlen hst hremote => ?_⟩
  case refine_1 =>
    obtain ⟨t, hrun, hring⟩ := hostSnoop_ring hr a
    rw [← haddr, Ring.snooped_waiting hst hlocal hheld harm hread] at hring
    refine ⟨t, hrun, ?_⟩
    rw [hring]
    exact ⟨rfl, rfl⟩
  case refine_2 =>
    obtain ⟨x, l, hv⟩ := Ring.takeDoorbell_prod (line := line) ⟨hcrc, hcons, hprod⟩
    obtain ⟨hp, hheld, hdone⟩ := State.takeLine_ring s n hv
    exact ⟨_, exec_doorbellRereadData hread hlocal line, hp, hdone hquiet, hheld.trans (congrArg not hlocal)⟩
  case refine_3 =>
    refine ⟨_, exec_doorbellWindowWrite hup hp hin hoff hlen rfl hst hremote, ?_⟩
    rw [State.setRing_ring]
    exact ⟨rfl, rfl⟩

end Sys2Proof.Machine

/-! ## Detaching a partition, and the end of its reset (R220, R301, R334) -/

namespace Sys2Proof.Machine

/-! ### Sources and rings of a partition -/

/-- Source `i` returns to IDLE (R301). -/
def State.idleSrc (s : State) (i : Nat) : State := s.setSrc i { s.src i with st := 0, count := 0, sentAt := none }

def State.idleSources (s : State) (p : Nat) : State := s.each (s.sourcesOf p) State.idleSrc

def State.endRings (s : State) (p : Nat) : State := s.each (s.ringsOf p) State.endRing

/-- The source is IDLE and counts no event. -/
def State.srcIdle (s : State) (i : Nat) : Prop := (s.src i).st = 0 ∧ (s.src i).count = 0

section
variable {s t : State} {i p : Nat}

theorem State.srcOwner_congr (h : t.regs = s.regs) (i : Nat) : t.srcOwner i = s.srcOwner i := by
  rw [State.srcOwner, State.srcOwner, State.regF, State.regF, State.regW_congr h]

theorem State.mem_sourcesOf : i ∈ s.sourcesOf p ↔ i < 480 ∧ s.srcOwner i = p := by
  simp [State.sourcesOf]

theorem State.idleSrc_idle (s : State) (i : Nat) : (s.idleSrc i).srcIdle i := by
  rw [State.srcIdle, State.idleSrc, State.setSrc_src]
  exact ⟨rfl, rfl⟩

theorem State.srcIdle.idleSrc (h : s.srcIdle i) (j : Nat) : (s.idleSrc j).srcIdle i := by
  by_cases e : i = j
  · subst e
    exact s.idleSrc_idle i
  · rw [State.srcIdle, State.idleSrc, State.setSrc_src_ne _ _ e]
    exact h

theorem State.srcIdle.each {l : List Nat} (h : s.srcIdle i) : (s.each l State.idleSrc).srcIdle i := by
  unfold State.each
  induction l generalizing s with
  | nil => exact h
  | cons j l ih => exact ih (h.idleSrc j)

theorem State.srcIdle_each {l : List Nat} (h : i ∈ l) (s : State) : (s.each l State.idleSrc).srcIdle i := by
  obtain ⟨l₁, l₂, rfl⟩ := List.append_of_mem h
  have hsplit : s.each (l₁ ++ i :: l₂) State.idleSrc
      = ((s.each l₁ State.idleSrc).idleSrc i).each l₂ State.idleSrc :=
    List.foldl_append ..
  rw [hsplit]
  exact (State.idleSrc_idle _ i).each

theorem State.idleSources_idle (hi : i < 480) (ho : s.srcOwner i = p) : (s.idleSources p).srcIdle i :=
  State.srcIdle_each (State.mem_sourcesOf.2 ⟨hi, ho⟩) s

theorem State.idleSources_part (s : State) (p j : Nat) : (s.idleSources p).part j = s.part j :=
  State.each_inv (fun t => t.part j) _ _ (fun _ _ => State.setSrc_part ..) s

theorem State.endRings_regs (s : State) (p : Nat) : (s.endRings p).regs = s.regs :=
  State.each_inv State.regs _ _ (fun _ _ => State.modRing_regs ..) s

theorem State.endRings_cmd (s : State) (p j : Nat) : (s.endRings p).cmd? j = s.cmd? j :=
  State.each_inv (fun t => t.cmd? j) _ _ (fun _ _ => State.modRing_cmd ..) s

/-! ### A partition becomes FREE -/

theorem State.freePart_eq (s : State) (p : Nat) : s.freePart p = (s.idleSources p).modPart p fun q => { q with
    st := 0, featAck := 0, detach := none, remote := false, cut := false, prioHeld := [] } := rfl

theorem State.freePart_part (s : State) (p : Nat) : (s.freePart p).part p = { s.part p with
    st := 0, featAck := 0, detach := none, remote := false, cut := false, prioHeld := [] } := by
  rw [State.freePart_eq, State.modPart_part, State.idleSources_part]

theorem State.freePart_idle (hi : i < 480) (ho : s.srcOwner i = p) : (s.freePart p).srcIdle i :=
  State.idleSources_idle hi ho

theorem State.freePart_fe (s : State) (p : Nat) : (s.freePart p).fe = s.fe :=
  fe_of (State.freePart_same (.refl _ s) p rfl rfl)

/-! ### What goes with its segments -/

theorem State.zeroRange_parts (s : State) (tier a len : Nat) : (s.zeroRange tier a len).parts = s.parts :=
  parts_of (by apply State.zeroRange_same (.refl _ _) <;> rfl)

/-- A change of a partition that keeps its state keeps every partition's. -/
theorem State.modPart_st {f : Part → Part} (hf : ∀ q, (f q).st = q.st) (s : State) (p j : Nat) :
    ((s.modPart p f).part j).st = (s.part j).st := by
  by_cases e : j = p
  · subst e
    rw [State.modPart_part, hf]
  · rw [State.modPart_part_ne _ _ e]

theorem State.zeroRange_part (s : State) (tier a len j : Nat) : (s.zeroRange tier a len).part j = s.part j := by
  rw [State.part, State.zeroRange_parts, State.part]

theorem State.removeSeg_st (s : State) (p g j : Nat) : ((s.removeSeg p g).part j).st = (s.part j).st := by
  unfold State.removeSeg
  split
  · rfl
  · next v _ =>
    have hzero := State.each_inv (fun t => t.part j) v.owns (fun s r => s.zeroRange v.tier r.1 r.2)
      (fun t r => t.zeroRange_part v.tier r.1 r.2 j) s
    dsimp only at hzero ⊢
    rw [State.modPart_st, ← hzero]
    · change (State.part (if v.sealed then _ else _) j).st = _
      split <;> rfl
    · exact fun _ => rfl

theorem State.clearPart_st (s : State) (p j : Nat) : ((s.clearPart p).part j).st = (s.part j).st := by
  unfold State.clearPart
  dsimp only
  rw [State.modPart_st]
  · exact State.each_inv (fun t => (t.part j).st) _ _ (fun t g => t.removeSeg_st p g j) _
  · exact fun _ => rfl

theorem State.clearPart_fe (s : State) (p : Nat) : (s.clearPart p).fe = s.fe :=
  fe_of (State.clearPart_same (.refl _ s) p rfl rfl rfl rfl rfl)

theorem State.clearPart_regs (s : State) (p : Nat) : (s.clearPart p).regs = s.regs :=
  regs_of (State.clearPart_same (.refl _ s) p rfl rfl rfl rfl rfl)

end

/-! ### PART_DETACH (R220) -/

/-- Partition `p`, ATTACHED, becomes DETACHING for command `k`, and its rings fetch no more. -/
def State.startDetach (s : State) (k p : Nat) : State :=
  let t := (s.setPhase k .running).modPart p fun q =>
    { q with st := 2, detach := some k, cut := q.st == 3, prioHeld := [] }
  t.each (t.ringsOf p) State.disableRing

section
variable {s u : State} {r q n k p : Nat} {c : Cmd}

theorem exec_partDetach (h : s.passes r q 0x31 c u) (hst : (u.part (c.f 16 1)).st = 1)
    (hfree : (u.part (c.f 16 1)).detach = none)
    (howner : (u.ream.resident && decide (u.ream.owner = c.f 16 1)) = false) :
    exec (.partDetach r q) s = .next ((u.startDetach (cmdKey r q) (c.f 16 1)).endIdle
      (((u.startDetach (cmdKey r q) (c.f 16 1)).idleCmds (c.f 16 1)).filter (· != cmdKey r q)) stCancelled) := by
  have hgo : (decide ((u.part (c.f 16 1)).st = 0) || decide ((u.part (c.f 16 1)).st = 2)
      || (u.part (c.f 16 1)).detach.isSome || u.ream.resident && decide (u.ream.owner = c.f 16 1)) = false := by
    rw [hst, hfree, howner]
    rfl
  change execPartDetach _ _ _ = _
  simp only [execPartDetach, h.front, hgo, Bool.false_eq_true, if_false]
  rfl

/-- Disabling rings and ending commands is no matter of the partitions: their state is what the start of the detach
makes it. -/
theorem State.startDetach_endIdle_parts (s : State) (k p : Nat) (ks : List Nat) (st : Nat) :
    PartsLike ((s.setPhase k .running).modPart p fun q =>
      { q with st := 2, detach := some k, cut := q.st == 3, prioHeld := [] })
      ((s.startDetach k p).endIdle ks st) :=
  ((PartsLike.refl _).each _ _ fun t n => (PartsLike.refl t).disableRing n).endIdle ks st

/-! ### DETACH_FINISH (R220, R260) -/

theorem State.finish_cmd (s : State) (k st res f : Nat) : (s.finish k st res f).cmd? k = none := by
  unfold State.finish
  split
  · next h => exact h
  · exact (State.modRing_cmd ..).trans (FMap.find_del_self ..)

/-- Another partition's command has detached this one: it becomes FREE. -/
theorem exec_detachFinish_other (hd : (s.part p).detach = some k) (hready : s.detachReady p k = true)
    (hlines : s.closingLines (· == p) = []) (hc : s.cmd? k = some c) (hp : c.part ≠ p) :
    exec (.detachFinish p) s = .next ((((s.clearPart p).finish k stOk).endRings p).freePart p) := by
  change execDetachFinish _ _ = _
  simp only [execDetachFinish, hd, hready, hlines, hc, beq_false_of_ne hp, Bool.not_true, List.isEmpty_nil,
    Bool.false_and, Bool.false_eq_true, if_false]
  rfl

/-- A partition that detaches itself: its last record goes out before it becomes FREE. -/
theorem exec_detachFinish_own (hd : (s.part p).detach = some k) (hready : s.detachReady p k = true)
    (hlines : s.closingLines (· == p) = []) (hc : s.cmd? k = some c) (hp : c.part = p) (hst : (s.part p).st = 2) :
    exec (.detachFinish p) s
      = .next (((s.clearPart p).finish k stOk).modPart p fun q => { q with detach := none }) := by
  have hstill : (((s.clearPart p).finish k stOk).part p).st = 2 := by rw [State.finish_part', State.clearPart_st, hst]
  change execDetachFinish _ _ = _
  simp only [execDetachFinish, hd, hready, hlines, hc, hp, hstill, beq_self_eq_true, decide_true,
    Bool.and_self, Bool.not_true, List.isEmpty_nil, Bool.false_eq_true, if_true, if_false]

theorem exec_ringDrainDone_last (h : s.ringDrained n = true) (hp : (s.ring n).part = p) (hst : (s.part p).st = 2)
    (hd : (s.part p).detach = none) (hlast : (s.endRing n).ringsOf p = []) :
    exec (.ringDrainDone n) s = .next ((s.endRing n).freePart p) := by
  have hpart : (s.endRing n).part p = s.part p := rfl
  change execRingDrainDone _ _ = _
  simp only [execRingDrainDone, h, hp, hpart, hst, hd, hlast, decide_true, Option.isNone_none, List.isEmpty_nil,
    Bool.and_self, if_true]

theorem exec_partResetFinish (hbusy : (s.part p).resetBusy = true) (hcmds : ∀ e ∈ s.fe.cmds, e.2.part ≠ p)
    (hrings : ∀ n ∈ s.ringsOf p, (s.part p).st = 3 ∨ s.ringDrained n = true) :
    exec (.partResetFinish p) s = .next (((s.endRings p).idleSources p).modPart p fun q =>
      { q with cause := 0, causeSent := 0, resetBusy := false }) := by
  have hnone : (s.fe.cmds.any fun e => e.2.part == p) = false := by simpa using hcmds
  have hover : ((s.ringsOf p).all fun n => (s.part p).st == 3 || s.ringDrained n) = true := by simpa using hrings
  change execPartResetFinish _ _ = _
  simp only [execPartResetFinish, hbusy, hnone, hover, Bool.not_true, Bool.or_self, Bool.false_eq_true, if_false]
  rfl

end

/-- Settles O6: PART_DETACH by the partition it starts to detach (`State.startDetach_endIdle_parts`), its end by the
partition that becomes FREE (`State.freePart_part`, `State.freePart_idle`) or waits for its own record. -/
theorem detaching : Obligations.Detaching := by
  unfold Obligations.Detaching
  refine ⟨fun s u r q c h hst hfree howner => ?_, fun s p k c hd hready hlines hc hp => ?_,
    fun s p k c hd hready hlines hc hp hk hst => ?_, fun s n p h hp hst hd hlast => ?_,
    fun s p hbusy hcmds hrings => ?_⟩
  case refine_1 =>
    have hlike := (u.startDetach_endIdle_parts (cmdKey r q) (c.f 16 1)
      (((u.startDetach (cmdKey r q) (c.f 16 1)).idleCmds (c.f 16 1)).filter (· != cmdKey r q)) stCancelled).like
    have hown := hlike (c.f 16 1)
    rw [State.modPart_part] at hown
    refine ⟨_, exec_partDetach h hst hfree howner, hown.st, hown.detach, fun j hj => ?_⟩
    rw [(hlike j).st, State.modPart_part_ne _ _ hj, State.setPhase_part]
  case refine_2 =>
    have hregs : (((s.clearPart p).finish k stOk).endRings p).regs = s.regs :=
      (State.endRings_regs ..).trans ((State.finish_regs ..).trans (s.clearPart_regs p))
    have hfree := State.freePart_part (((s.clearPart p).finish k stOk).endRings p) p
    refine ⟨_, exec_detachFinish_other hd hready hlines hc hp, congrArg Part.st hfree, congrArg Part.featAck hfree,
      congrArg Part.detach hfree, ?_, fun i hi ho => State.freePart_idle hi ((State.srcOwner_congr hregs i).trans ho)⟩
    rw [State.cmd?, State.freePart_fe]
    exact (State.endRings_cmd ..).trans (State.finish_cmd ..)
  case refine_3 =>
    subst hk
    refine ⟨_, exec_detachFinish_own hd hready hlines hc hp hst, ?_, ?_, ?_⟩
    · rw [State.modPart_part, State.finish_part', State.clearPart_st, hst]
    · rw [State.modPart_part]
    · exact State.finish_done (congrArg Front.cmds (s.clearPart_fe p)) hc rfl _ _ _
  case refine_4 =>
    have hfree := (s.endRing n).freePart_part p
    refine ⟨_, exec_ringDrainDone_last h hp hst hd hlast, ?_, congrArg Part.st hfree, congrArg Part.featAck hfree,
      fun i hi ho => State.freePart_idle hi ho⟩
    rw [State.ring, State.freePart_fe]
    exact congrArg Ring.st (State.modRing_ring ..)
  case refine_5 =>
    refine ⟨_, exec_partResetFinish hbusy hcmds hrings, ?_⟩
    rw [State.modPart_part]
    exact ⟨rfl, rfl⟩

end Sys2Proof.Machine

/-! ## Attaching partitions and setting up rings (R218, R219, R221, R332) -/

namespace Sys2Proof.Machine

/-! ### Setting up a ring is no matter of the commands -/

theorem State.storeImage_fe (s : State) (n : Nat) (img : Bytes) : (s.storeImage n img).fe = s.fe :=
  fe_of (State.storeImage_same (.refl _ s) n img rfl)

theorem State.storeImage_parts (s : State) (n : Nat) (img : Bytes) : (s.storeImage n img).parts = s.parts :=
  parts_of (State.storeImage_same (.refl _ s) n img rfl)

theorem State.arm_cmds (s : State) (n : Nat) : (s.arm n).fe.cmds = s.fe.cmds :=
  (State.modRing_fe_cmds ..).trans (congrArg Front.cmds (State.writeStateLine_fe ..))

theorem State.enableRing_cmds (s : State) (n : Nat) : (s.enableRing n).fe.cmds = s.fe.cmds := by
  unfold State.enableRing
  dsimp only
  split
  · exact State.modRing_fe_cmds ..
  · exact (State.arm_cmds ..).trans (State.setRing_fe_cmds ..)

theorem State.disableRing_cmds (s : State) (n : Nat) : (s.disableRing n).fe.cmds = s.fe.cmds := by
  unfold State.disableRing
  dsimp only
  split
  · rfl
  · exact State.setRing_fe_cmds ..

theorem State.ringEnableBit_cmds (s : State) (n : Nat) : (s.ringEnableBit n).fe.cmds = s.fe.cmds := by
  unfold State.ringEnableBit
  split
  · split
    · exact s.enableRing_cmds n
    · rfl
  · exact s.disableRing_cmds n

theorem State.putRecord_fe (s : State) (n i : Nat) (d : Bytes) : (s.putRecord n i d).fe = s.fe :=
  State.writeHost_fe ..

theorem State.replay_cmds (s : State) (n k i : Nat) : (s.replay n k i).fe.cmds = s.fe.cmds := by
  induction k generalizing s i with
  | zero => rfl
  | succ k ih =>
    unfold State.replay
    split
    · rfl
    · exact (ih ..).trans ((State.modRing_fe_cmds ..).trans (congrArg Front.cmds (State.putRecord_fe ..)))

theorem State.resumeRing_cmds (s : State) (n : Nat) : (s.resumeRing n).fe.cmds = s.fe.cmds := by
  unfold State.resumeRing
  dsimp only
  split
  · rfl
  · exact (State.arm_cmds ..).trans ((State.replay_cmds ..).trans
      ((congrArg Front.cmds (State.writeStateLine_fe ..)).trans (State.setRing_fe_cmds ..)))

/-- Ring `n` as a good attach block sets it up: its image, then its resume or what its ENABLE bit asks (R219, R221). -/
def State.setUpRing (s : State) (n : Nat) (img : Bytes) : State :=
  if ((s.storeImage n img).ring n).st = 4 && (fld img 0x18 1).testBit 0 then (s.storeImage n img).resumeRing n
  else (s.storeImage n img).ringEnableBit n

theorem State.setUpRing_cmds (s : State) (n : Nat) (img : Bytes) : (s.setUpRing n img).fe.cmds = s.fe.cmds := by
  refine Eq.trans ?_ (congrArg Front.cmds (s.storeImage_fe n img))
  unfold State.setUpRing
  split
  · exact State.resumeRing_cmds ..
  · exact State.ringEnableBit_cmds ..

theorem State.setUpRing_parts (s : State) (n : Nat) (img : Bytes) : (s.setUpRing n img).parts = s.parts := by
  refine Eq.trans ?_ (s.storeImage_parts n img)
  unfold State.setUpRing
  split
  · exact parts_of (by apply State.resumeRing_same (.refl _ _) <;> rfl)
  · exact parts_of (by apply State.ringEnableBit_same (.refl _ _) <;> rfl)

/-! ### How a partition is attached -/

/-- What an attach decides of a partition: its state, its host, ATTACH_ERR, FEAT_ACK and its attach queue pair. -/
structure Attachment where
  st : Nat
  remote : Bool
  err : Nat
  featAck : Nat
  attachQp : Nat

def Part.attachment (q : Part) : Attachment := ⟨q.st, q.remote, q.err, q.featAck, q.attachQp⟩

section
variable {s t w : State} {p j qp tag offer : Nat} {blk : Bytes}

theorem Part.like.attachment {q q' : Part} (h : q.like q') : q'.attachment = q.attachment := by
  obtain ⟨_, _, _, _, _, _, rfl⟩ := h
  rfl

theorem State.causeTo_attachment (s : State) (p b j : Nat) :
    ((s.causeTo p b).part j).attachment = (s.part j).attachment :=
  (((PartsLike.refl s).causeTo p b).like j).attachment

theorem State.modPart_attachment {f : Part → Part} (hf : ∀ q, (f q).attachment = q.attachment) (s : State)
    (p j : Nat) : ((s.modPart p f).part j).attachment = (s.part j).attachment := by
  by_cases e : j = p
  · subst e
    rw [State.modPart_part, hf]
  · rw [State.modPart_part_ne _ _ e]

theorem PartsLike.resumeSources (h : PartsLike s t) (p : Nat) : PartsLike s (t.resumeSources p) :=
  h.each _ _ fun u i => by
    split
    · exact (PartsLike.refl u).deliver i
    · exact .refl u

theorem State.resumeGo_attachment (s : State) (p j : Nat) :
    ((s.resumeGo p).part j).attachment = (s.part j).attachment := by
  unfold State.resumeGo
  split
  · rw [(((PartsLike.refl _).resumeSources p).like j).attachment]
    exact State.modPart_attachment (fun _ => by rfl) ..
  · rfl

theorem State.resumed_attachment (s : State) (p j : Nat) :
    ((s.resumed p).part j).attachment = (s.part j).attachment :=
  (State.resumeGo_attachment ..).trans (State.modPart_attachment (fun _ => by rfl) ..)

theorem State.resumed_fe (s : State) (p : Nat) : (s.resumed p).fe = s.fe :=
  fe_of (by apply State.resumed_same (.refl _ _) <;> rfl)

theorem State.attached_attachment (s : State) (p offer : Nat) (r : Bool) :
    ((s.attached p offer r).part p).attachment = ⟨1, r, 0, offer &&& s.featDev, (s.part p).attachQp⟩ :=
  congrArg Part.attachment (State.modPart_part ..)

theorem State.attachedRemote_attachment (s : State) (p qp tag offer : Nat) :
    ((s.attachedRemote p qp tag offer).part p).attachment = ⟨1, true, 0, offer &&& s.featDev, qp⟩ := by
  rw [State.attachedRemote, State.makeDbWindow_part, State.modPart_part, State.attached, State.modPart_part]
  rfl

/-- A block of result 0 attaches its partition, sets up a ring of it and raises PART_ATTACHED; a SUSPENDED partition
resumes (R219). -/
theorem State.attachRemote_ok (h : s.attachRemote p qp tag blk = (w, 0)) : ∃ n img u,
    u = ((s.attachedRemote p qp tag (fld blk 8 32)).setUpRing n img).causeTo p cPartAttached
      ∧ (w = u ∨ w = u.resumed p) := by
  refine ⟨fld blk 120 2, (blk.drop 56).take 64, _, rfl, ?_⟩
  unfold State.attachRemote at h
  dsimp only at h
  rw [← State.attachedRemote, ← State.setUpRing] at h
  split at h
  case isTrue he => exact absurd (Prod.mk.inj h).2 (bne_iff_ne.1 he)
  split at h
  · cases h
  split at h
  · cases h
  obtain ⟨-, h⟩ | ⟨-, h⟩ := ite_eq_iff.1 h
  · simp at h
  obtain ⟨rfl, -⟩ := Prod.mk.inj h
  split
  · exact .inr rfl
  · exact .inl rfl

theorem State.attachRemote_attachment (h : s.attachRemote p qp tag blk = (w, 0)) :
    (w.part p).attachment = ⟨1, true, 0, fld blk 8 32 &&& s.featDev, qp⟩ := by
  obtain ⟨n, img, u, hu, hw⟩ := State.attachRemote_ok h
  have hring : (u.part p).attachment = ⟨1, true, 0, fld blk 8 32 &&& s.featDev, qp⟩ := by
    rw [hu, State.causeTo_attachment, State.part, State.setUpRing_parts]
    exact s.attachedRemote_attachment p qp tag (fld blk 8 32)
  obtain rfl | rfl := hw
  · exact hring
  · exact (State.resumed_attachment ..).trans hring

theorem State.attachRemote_cmds (h : s.attachRemote p qp tag blk = (w, 0)) : w.fe.cmds = s.fe.cmds := by
  obtain ⟨n, img, u, rfl, hw⟩ := State.attachRemote_ok h
  have hring : (((s.attachedRemote p qp tag (fld blk 8 32)).setUpRing n img).causeTo p cPartAttached).fe.cmds
      = s.fe.cmds :=
    (congrArg Front.cmds (State.causeTo_fe ..)).trans (State.setUpRing_cmds ..)
  obtain rfl | rfl := hw
  · exact hring
  · exact (congrArg Front.cmds (State.resumed_fe ..)).trans hring

end

/-! ### ATTACH (R218, R332) -/

section
variable {s u : State} {r q p : Nat} {c : Cmd}

theorem exec_attach_on (hp : p < 16) (hon : s.pwr.st = 3) (hcxl : s.hp.cxlOk = true) :
    exec (.attach p) s = .next (
      if s.attachCheck p (s.featOffer p) false != 0 then
        s.modPart p fun q => { q with err := s.attachCheck p (s.featOffer p) false }
      else s.attachLocal p) := by
  change execAttach _ _ = _
  simp only [execAttach, State.attachNow, hon, hcxl, Nat.not_le.2 hp, decide_false, Bool.not_true, Bool.or_self,
    Bool.false_eq_true, if_true, if_false]

theorem exec_attach_good (hp : p < 16) (hon : s.pwr.st = 3) (hcxl : s.hp.cxlOk = true) (hst : (s.part p).st = 0)
    (hok : s.attachCheck p (s.featOffer p) false = 0) :
    exec (.attach p) s = .next ((s.attached p (s.featOffer p) false).causeTo p cPartAttached) := by
  have hfree : (s.part p).st ≠ 3 := by omega
  rw [exec_attach_on hp hon hcxl, hok, State.attachLocal]
  simp only [hfree, if_false]
  rfl

theorem exec_attach_bad (hp : p < 16) (hon : s.pwr.st = 3) (hcxl : s.hp.cxlOk = true)
    (hbad : s.attachCheck p (s.featOffer p) false ≠ 0) :
    exec (.attach p) s = .next (s.modPart p fun q => { q with err := s.attachCheck p (s.featOffer p) false }) := by
  rw [exec_attach_on hp hon hcxl, if_pos (bne_iff_ne.2 hbad)]

theorem exec_attach_booting (hboot : s.pwr.st = 2) :
    exec (.attach p) s = .next { s with pwr := { s.pwr with attach := s.pwr.attach ++ [p] } } := by
  change execAttach _ _ = _
  simp only [execAttach, hboot, if_true, (by decide : (2 : Nat) ≠ 3), if_false]

/-! ### PART_ATTACH (R219) -/

/-- The read of the attach block of the remote host. -/
def attachFetch (k p : Nat) (c : Cmd) : Xfer :=
  { id := 0, use := .attach k p, part := p, kind := 1, qp := some (c.f 18 2), rkey := c.f 20 4
    addr := c.f 24 8, len := 128 }

theorem exec_partAttach (h : s.passes r q 0x30 c u) (hst : (u.part (c.f 16 1)).st = 0)
    (hnone : (u.part (c.f 16 1)).attaching = none)
    (hrange : inRange (latF (u.attachLat (c.f 16 1)) 0x10 11 0) (latF (u.attachLat (c.f 16 1)) 0x10 28 16)
      (c.f 18 2) = true) (hqp : u.qpUp (c.f 18 2) = true) :
    exec (.partAttach r q) s
      = .next (((u.issue (attachFetch (cmdKey r q) (c.f 16 1) c)).setPhase (cmdKey r q) .running).modPart (c.f 16 1)
          fun v => { v with attaching := some (cmdKey r q, [], 0) }) := by
  change execPartAttach _ _ _ = _
  simp only [execPartAttach, h.front, hst, hnone, hrange, hqp, decide_true, Bool.true_or, Bool.not_true,
    Option.isSome_none, Bool.or_self, Bool.false_eq_true, if_false]
  rfl

/-! ### The attach block has been read (R219) -/

/-- The write of the second half of the attach block. -/
def attachAnswer (k p : Nat) (c : Cmd) (ack : Bytes) : Xfer :=
  { id := 0, use := .attach k p, part := p, qp := some (c.f 18 2), rkey := c.f 20 4
    addr := c.f 24 8 + 128, len := 128, data := ack }

theorem fld_append_cons {n : Nat} {a : Bytes} (h : a.length = n) (b : Bytes) (x : Byte) :
    fld (a ++ x :: b) n 1 = x.toNat := by
  subst h
  simp [fld, leNat]

/-- STATUS of the second half (Table 10.3). -/
theorem fld_ackBlock_status (s : State) (p st ring a key : Nat) : fld (ackBlock s p st ring a key) 32 1 = st % 256 := by
  have hlen : (natLe 32 (s.part p).featAck).length = 32 := rfl
  have hone : natLe 1 st = [BitVec.ofNat 8 st] := rfl
  simp only [ackBlock, withCrc, List.append_assoc, hone, List.cons_append, List.nil_append]
  rw [fld_append_cons hlen, BitVec.toNat_ofNat]

end

section
variable {s u w : State} {r q n m p k tag : Nat} {c : Cmd} {x : Xfer} {b : Rd} {blk : Bytes}

/-- Read `m` of queue pair `n` has its response (R282). -/
def State.readEnded (s : State) (n m : Nat) : State :=
  { s.modQp n fun v => { v with retries := 0 } with io := { s.io with out := s.io.out.filter fun y => y.id != m } }

theorem exec_rdmaReadResponseReceive_attach (hqp : s.qpUp n = true)
    (hx : (s.unacked n).find? (fun y => y.id == m && y.kind == 1) = some x) (huse : x.use = .attach k p)
    (hc : s.cmd? k = some c) :
    exec (.rdmaReadResponseReceive n m b) s = .next ((s.readEnded n m).attachBlockRead k p c b) := by
  have hcmd : (s.modQp n (fun v => { v with retries := 0 })).cmd? k = some c := hc
  change execRdmaReadResponseReceive _ _ _ _ = _
  simp only [execRdmaReadResponseReceive, hx, hqp, huse, hcmd, Bool.not_true, Bool.false_eq_true, if_false]
  rfl

theorem attachBlockRead_bad (h : attachBlockBad b = true) : ∃ ring a key,
    s.attachBlockRead k p c b = ((s.freeVal.2.modPart p fun v => { v with err := 6 }).modPart p fun v =>
      { v with attaching := some (k, [], s.freeVal.1 % 2 ^ 16) }).issue
        (attachAnswer k p c (ackBlock s.freeVal.2 p 6 ring a key)) := by
  refine ⟨fld b.data 120 2, 0, 0, ?_⟩
  unfold attachBlockBad at h
  unfold State.attachBlockRead
  simp only [h, if_true]
  rfl

theorem attachBlockRead_good (h : attachBlockBad b = false)
    (hok : (s.freeVal.2.attachRemote p (c.f 18 2) (s.freeVal.1 % 2 ^ 16) b.data).2 = 0) : ∃ t ring a key,
    s.attachBlockRead k p c b = (s.freeVal.2.modPart p fun v =>
      { v with attaching := some (k, b.data, s.freeVal.1 % 2 ^ 16) }).issue
        (attachAnswer k p c (ackBlock t p 0 ring a key)) := by
  refine ⟨(s.freeVal.2.attachRemote p (c.f 18 2) (s.freeVal.1 % 2 ^ 16) b.data).1, fld b.data 120 2,
    64 * (fld b.data 120 2 - ((s.freeVal.2.attachRemote p (c.f 18 2) (s.freeVal.1 % 2 ^ 16) b.data).1.part p).ringBase),
    winKey (c.f 18 2) 15 (s.freeVal.1 % 2 ^ 16), ?_⟩
  unfold attachBlockBad at h
  unfold State.attachBlockRead
  simp only [h, hok, Bool.false_eq_true, if_true, if_false]
  rfl

/-- The write of the second half goes out. -/
theorem attachAnswer_out (s : State) (k p : Nat) (c : Cmd) (ack : Bytes) :
    ∃ y ∈ (s.issue (attachAnswer k p c ack)).io.out, y.use = .attach k p ∧ y.kind = 0 ∧ y.addr = c.f 24 8 + 128
      ∧ y.len = 128 ∧ y.data = ack :=
  ⟨{ attachAnswer k p c ack with id := s.io.next }, List.mem_append_right _ (List.mem_singleton.2 rfl),
    rfl, rfl, rfl, rfl, rfl⟩

/-! ### Its second half is acknowledged (R219) -/

theorem attachDone_good (hatt : (s.part p).attaching = some (k, blk, tag)) (hblk : blk ≠ []) (hc : s.cmd? k = some c)
    (hw : (s.modPart p fun v => { v with attaching := none }).attachRemote p (c.f 18 2) tag blk = (w, 0)) :
    s.attachDone k p = w.finish k stOk := by
  unfold State.attachDone
  rw [hatt, hc]
  simp only [hw, bne_self_eq_false, List.isEmpty_eq_false_iff.2 hblk, Bool.false_eq_true, if_true, if_false]

/-- Packet `m` of queue pair `n` is acknowledged, and with it message `id` (R275). -/
def State.msgEnded (s : State) (n m id : Nat) : State :=
  { s.modQp n fun v => { v with retries := 0, rnr := 0, una := some (psnAdd m 1) } with
    io := { s.io with out := s.io.out.filter fun y => y.id != id } }

theorem exec_ackReceive_attach (hqp : s.qpUp n = true) (hopen : s.psnOpen n m = true) (hall : s.unacked n = [x])
    (hends : x.endsBy m (s.qp n).pmtu = true) (hx : s.io.out.find? (fun y => y.id == x.id) = some x)
    (huse : x.use = .attach k p) :
    exec (.ackReceive n m) s = .next ((s.msgEnded n m x.id).attachDone k p) := by
  have hlast : [x].filter (fun y => y.endsBy m (s.qp n).pmtu) = [x] := by rw [List.filter_singleton, hends]; rfl
  change execAckReceive _ _ _ = _
  simp only [execAckReceive, hqp, State.ackTo, hopen, hall, hlast, Bool.not_true, Bool.false_eq_true, if_true, if_false]
  change Host.Outcome.next (State.accept1 _ _) = _
  simp only [State.accept1, State.modQp_io, hx, huse, Use.waited, State.acked, Bool.false_eq_true, if_false]
  rfl

/-! ### RING_SETUP (R221) -/

theorem exec_ringSetup_enable {v : State} {img rd : Rd} (h : s.passes r q 0x32 c u) (hn : c.f 16 2 < 4096)
    (hop : u.operand (cmdKey r q) c.part (c.f 18 1) (c.f 24 6) 64 v)
    (hrd : rd = v.readSeg c.part (c.f 18 1) (c.f 24 6) 64 (u.operOf (cmdKey r q) c.part (c.f 18 1) img))
    (hclean : rd.poison = []) (hlen : rd.data.length = 64) (hen : fld rd.data 0x18 1 % 2 = 1)
    (hst : (u.ring (c.f 16 2)).st = 0)
    (hok : (((v.storeImage (c.f 16 2) rd.data).enableRing (c.f 16 2)).ring (c.f 16 2)).err = 0) :
    exec (.ringSetup r q img) s
      = .next (((v.storeImage (c.f 16 2) rd.data).enableRing (c.f 16 2)).finish (cmdKey r q) stOk) := by
  have hring : v.ring (c.f 16 2) = u.ring (c.f 16 2) := by rw [State.ring, hop.readKeeps.fe rfl, State.ring]
  obtain ⟨w, hask, hopen⟩ := hop
  change execRingSetup _ _ _ _ = _
  simp only [execRingSetup, h.front, State.ringSetup, Nat.mod_eq_of_lt hn, hask, hopen, ← hrd, hclean, hlen, hen,
    hring, hst, hok, List.isEmpty_nil, Bool.not_true, bne_self_eq_false, Bool.or_self, Bool.false_eq_true, if_true,
    if_false]

end

/-- Settles O5: an attach by what it decides of the partition (`State.attached_attachment`,
`State.attachRemote_attachment`), its exchange by the two halves of the attach block. -/
theorem attaching : Obligations.Attaching := by
  unfold Obligations.Attaching
  refine ⟨fun s p hp hon hcxl hst hok => ?_, fun s p hp hon hcxl hbad => ?_, fun s p hboot => ?_,
    fun s u r q c h hst hnone hrange hqp => ?_, fun s u n m p k x c b hqp hx huse hc hgood hu hok => ?_,
    fun s n m p k x c b hqp hx huse hc hbad => ?_,
    fun s u w n m p k tag x c b hqp hopen hall hends hx huse hatt hb hc hk hu hw => ?_,
    fun s u v r q c img rd h hn hop hrd hclean hlen hen hst hok => ?_⟩
  case refine_1 =>
    have ha := (State.causeTo_attachment _ p cPartAttached p).trans (s.attached_attachment p (s.featOffer p) false)
    exact ⟨_, exec_attach_good hp hon hcxl hst hok, congrArg Attachment.st ha, congrArg Attachment.remote ha,
      congrArg Attachment.err ha, congrArg Attachment.featAck ha, State.causeTo_hasCause ..⟩
  case refine_2 =>
    refine ⟨_, exec_attach_bad hp hon hcxl hbad, ?_, ?_, fun j hj => State.modPart_part_ne _ _ hj⟩
    · rw [State.modPart_part]
    · rw [State.modPart_part]
  case refine_3 => exact ⟨_, exec_attach_booting hboot, rfl, rfl⟩
  case refine_4 =>
    refine ⟨_, { attachFetch (cmdKey r q) (c.f 16 1) c with id := u.io.next }, exec_partAttach h hst hnone hrange hqp,
      ?_, ?_, ?_, rfl, rfl, rfl, rfl⟩
    · rw [State.modPart_part]
    · rw [State.modPart_part, State.setPhase_part]
      exact hst
    · rw [State.modPart_io, State.setPhase_io]
      rfl
  case refine_5 =>
    subst hu
    obtain ⟨t, ring, a, key, ht⟩ := attachBlockRead_good (s := s.readEnded n m) (k := k) hgood hok
    obtain ⟨y, hy, hyu, hyk, hya, hyl, hyd⟩ := attachAnswer_out _ k p c (ackBlock t p 0 ring a key)
    refine ⟨_, y, (exec_rdmaReadResponseReceive_attach hqp hx huse hc).trans (congrArg _ ht), ?_, ?_, hy, hyu, hyk,
      hya, hyl, ?_⟩
    · rw [State.issue_part, State.modPart_part]
      rfl
    · rw [State.issue_part, State.modPart_part]
      rfl
    · rw [hyd, fld_ackBlock_status]
  case refine_6 =>
    obtain ⟨ring, a, key, ht⟩ := attachBlockRead_bad (s := s.readEnded n m) (p := p) (k := k) (c := c) hbad
    obtain ⟨y, hy, hyu, hyk, hya, hyl, hyd⟩ := attachAnswer_out _ k p c (ackBlock _ p 6 ring a key)
    refine ⟨_, y, (exec_rdmaReadResponseReceive_attach hqp hx huse hc).trans (congrArg _ ht), ?_, ?_, hy, hyu, hyk,
      hya, hyl, ?_⟩
    · rw [State.issue_part, State.modPart_part, State.modPart_part]
      rfl
    · rw [State.issue_part, State.modPart_part, State.modPart_part]
    · rw [hyd, fld_ackBlock_status]
  case refine_7 =>
    subst hu
    have ha := State.attachRemote_attachment hw
    have hdone := attachDone_good (s := s.msgEnded n m x.id) hatt hb hc hw
    refine ⟨_, (exec_ackReceive_attach hqp hopen hall hends hx huse).trans (congrArg _ hdone), ?_, ?_, ?_, ?_,
      State.finish_done (State.attachRemote_cmds hw) hc hk _ _ _⟩ <;> rw [State.finish_part']
    · exact congrArg Attachment.st ha
    · exact congrArg Attachment.remote ha
    · exact congrArg Attachment.featAck ha
    · exact congrArg Attachment.attachQp ha
  case refine_8 =>
    have hring := State.enableRing_ring hok
    have herr := congrArg Ring.err hring
    obtain ⟨l, hl, hfin⟩ := State.finish_ring (s := (v.storeImage (c.f 16 2) rd.data).enableRing (c.f 16 2))
      (k := cmdKey r q) stOk 0 0 (c.f 16 2)
    refine ⟨_, exec_ringSetup_enable h hn hop hrd hclean hlen hen hst herr, ?_, h.done ?_ _ _ _⟩
    · rw [hfin]
      exact congrArg Ring.st hring
    · exact (State.enableRing_cmds ..).trans
        (congrArg Front.cmds ((State.storeImage_fe ..).trans (hop.readKeeps.fe rfl)))

end Sys2Proof.Machine

/-! ## A step, and the state after reset (R21, R371) -/

namespace Sys2Proof.Machine

/-! ### The clocks of a tick -/

/-- One domain of a list of different ones counts its own cycles alone. -/
theorem FMap.get_foldl_add {f : Nat → Nat} {d : Nat} (l : List Nat) (hl : l.Nodup) (m : FMap Nat) :
    FMap.get (l.foldl (fun m d => FMap.set m d (FMap.get m d 0 + f d)) m) d 0
      = FMap.get m d 0 + if d ∈ l then f d else 0 := by
  induction l generalizing m with
  | nil => rfl
  | cons a l ih =>
    obtain ⟨ha, hl⟩ := List.nodup_cons.mp hl
    rw [List.foldl_cons, ih hl]
    by_cases e : d = a
    · subst e
      simp [ha]
    · simp [e, FMap.get_set_ne _ _ _ e]

theorem State.tickOf_host (s : State) : s.tickOf 21 = 1 := if_pos rfl

/-- The host port counts one cycle in a tick. -/
theorem State.tickClocks_now (s : State) : s.tickClocks.now = s.now + 1 := by
  have hclk := FMap.get_foldl_add (f := s.tickOf) (d := 21) (List.range 40) List.nodup_range s.clk
  rw [if_pos (by decide), s.tickOf_host] at hclk
  rw [State.now, State.now, ← hclk]
  unfold State.tickClocks
  dsimp only

/-- The part of a tick up to its tiles. -/
def State.tickTiles (s : State) : State :=
  ((((s.tickClocks).tickDeny (s.tickOf 31)).tickBeater (s.tickOf 32)).tickMaint (s.tickOf 18)).each
    ((List.range 72).filter s.enabled) State.tickTile

theorem State.tick_eq (s : State) : s.tick = s.tickTiles.tickCdc.tickErrors.tickLink.tickRx.tickCable.bootDone := rfl

/-- Nothing of a tick but its first part moves a clock. -/
theorem State.tickTiles_clk (s : State) : s.tickTiles.clk = s.tickClocks.clk :=
  clk_of (Same.each (State.tickMaint_same (State.tickBeater_same (State.tickDeny_same (.refl _ _) _ rfl rfl) _ rfl rfl rfl)
    _ rfl rfl) _ _ fun _ n h => State.tickTile_same h n rfl rfl rfl)

theorem State.tick_clk (s : State) : s.tick.clk = s.tickClocks.clk := by
  rw [s.tick_eq, ← s.tickTiles_clk]
  refine clk_of (State.bootDone_same (State.tickCable_same (State.tickRx_same (State.tickLink_same (State.tickErrors_same
    (State.tickCdc_same (.refl _ _) ?_ ?_ ?_ ?_ ?_ ?_) ?_ ?_ ?_ ?_ ?_ ?_ ?_ ?_ ?_ ?_) ?_ ?_) ?_ ?_) ?_ ?_ ?_ ?_ ?_ ?_ ?_)
    ?_ ?_ ?_ ?_ ?_ ?_ ?_ ?_ ?_ ?_ ?_) <;> rfl

theorem State.tick_now (s : State) : s.tick.now = s.now + 1 := by
  rw [State.now, s.tick_clk]
  exact s.tickClocks_now

/-! ### A tick strikes errors, and changes no byte (R64, R190, R191) -/

theorem State.poisonT0_cells (s : State) (t n : Nat) : (s.poisonT0 t n).mem.cells = s.mem.cells := by
  unfold State.poisonT0
  dsimp only
  split <;> rfl

theorem State.strikeLine_cells (s : State) (t l : Nat) : (s.strikeLine t l).mem.cells = s.mem.cells := by
  unfold State.strikeLine
  split <;> rfl

theorem State.strikeT0_cells (s : State) (t n : Nat) : (s.strikeT0 t n).mem.cells = s.mem.cells := by
  unfold State.strikeT0
  split
  · split
    · split <;> rfl
    · rfl
  · exact s.poisonT0_cells t n

theorem State.failGroup_mem (s : State) (g : Nat) : (s.failGroup g).mem = s.mem :=
  mem_of (State.failGroup_same (.refl _ _) g rfl rfl rfl rfl rfl rfl rfl)

theorem State.poisonT1_cells (s : State) (n : Nat) : (s.poisonT1 n).mem.cells = s.mem.cells := by
  unfold State.poisonT1
  dsimp only
  split
  · rfl
  · split
    · exact congrArg Memory.cells (s.failGroup_mem _)
    · rfl

theorem State.strikeT1_cells (s : State) (n : Nat) (alone : Bool) : (s.strikeT1 n alone).mem.cells = s.mem.cells := by
  unfold State.strikeT1
  dsimp only
  split
  · rfl
  · exact s.poisonT1_cells n

theorem State.strikeVault_cells (s : State) (i : Nat) : (s.strikeVault i).mem.cells = s.mem.cells := rfl

theorem State.ite_cells {c : Bool} {t u : State} (h : u.mem.cells = t.mem.cells) :
    (if c = true then u else t).mem.cells = t.mem.cells := by split <;> trivial

theorem State.tickErrors_cells (s : State) : s.tickErrors.mem.cells = s.mem.cells := by
  unfold State.tickErrors
  dsimp only [State.freeVal]
  refine (State.ite_cells (State.strikeVault_cells ..)).trans ?_
  refine (State.ite_cells (State.strikeT1_cells ..)).trans ?_
  refine (State.ite_cells (State.strikeT0_cells ..)).trans ?_
  exact State.ite_cells (State.strikeLine_cells ..)

theorem State.tick_cells (s : State) : s.tick.mem.cells = s.mem.cells := by
  have hlast : s.tick.mem = s.tickTiles.tickCdc.tickErrors.mem := by
    refine mem_of (State.bootDone_same (State.tickCable_same (State.tickRx_same (State.tickLink_same (.refl _ _)
      ?_ ?_) ?_ ?_) ?_ ?_ ?_ ?_ ?_ ?_ ?_) ?_ ?_ ?_ ?_ ?_ ?_ ?_ ?_ ?_ ?_ ?_) <;> rfl
  have hfirst : s.tickTiles.tickCdc.mem = s.mem :=
    mem_of (State.tickCdc_same (Same.each (State.tickMaint_same (State.tickBeater_same (State.tickDeny_same
      (State.tickClocks_same (.refl _ _) rfl rfl rfl) _ rfl rfl) _ rfl rfl rfl) _ rfl rfl) _ _
      fun _ n h => State.tickTile_same h n rfl rfl rfl) rfl rfl rfl rfl rfl rfl)
  rw [hlast, State.tickErrors_cells, hfirst]

/-! ### The obligations -/

/-- Settles O54: a step on an empty queue is a tick, which counts one host-port cycle (`State.tick_now`) and changes no
byte (`State.tick_cells`). -/
theorem stepRunsFront : Obligations.StepRunsFront := by
  unfold Obligations.StepRunsFront
  refine ⟨fun c cs s h => ?_, fun s h => ?_, fun n w s => ⟨rfl, rfl⟩⟩
  case refine_1 => rw [step, h]
  case refine_2 =>
    refine ⟨s.tick, by rw [step, h], s.tick_now, by apply State.tick_same (.refl _ _) <;> rfl, fun a => ?_⟩
    rw [Memory.read, s.tick_cells, Memory.read]

theorem State.reset_memSound : State.reset.memSound := rfl

/-- Settles O55: every table of the reset state is empty, so each access reads its default. -/
theorem resetState : Obligations.ResetState := by
  unfold Obligations.ResetState
  refine ⟨State.reset_memSound, fun _ h => absurd h List.not_mem_nil, rfl, ?_, fun _ => ⟨rfl, rfl⟩, fun _ => ⟨rfl, rfl⟩,
    fun _ => rfl, fun _ => rfl, fun _ => rfl, fun _ => rfl, rfl, rfl, rfl, rfl⟩
  decide

end Sys2Proof.Machine

/-! ## Making segments and mapping pages (R243, R247, R249) -/

namespace Sys2Proof.Machine

/-! ### Finite maps, filtered and filled -/

section
variable {α : Type} {m : FMap α} {k : Nat}

theorem FMap.find_filter_eq_none {p : Nat × α → Bool} (h : ∀ v, p (k, v) = false) : FMap.find (m.filter p) k = none := by
  induction m with
  | nil => rfl
  | cons e m ih =>
    obtain ⟨j, w⟩ := e
    by_cases hp : p (j, w) = true
    · have hk : k ≠ j := by
        rintro rfl
        exact Bool.false_ne_true ((h w).symm.trans hp)
      rw [List.filter_cons_of_pos hp, FMap.find, if_neg hk, ih]
    · rw [List.filter_cons_of_neg hp, ih]

theorem FMap.notMem_of_find_eq_none (h : FMap.find m k = none) (v : α) : (k, v) ∉ m := by
  induction m with
  | nil => exact List.not_mem_nil
  | cons e m ih =>
    obtain ⟨j, w⟩ := e
    unfold FMap.find at h
    split at h
    · cases h
    · next hk =>
      rintro (_ | ⟨_, hm⟩)
      · exact hk rfl
      · exact ih h hm

theorem FMap.mem_of_mem_set {v : α} {e : Nat × α} (h : e ∈ FMap.set m k v) : e = (k, v) ∨ e ∈ m := by
  induction m with
  | nil => exact .inl (List.mem_singleton.mp h)
  | cons d m ih =>
    obtain ⟨j, w⟩ := d
    unfold FMap.set at h
    split at h
    · exact (List.mem_cons.mp h).imp_right (List.mem_cons_of_mem _)
    · split at h
      · exact (List.mem_cons.mp h).imp_right id
      · rcases List.mem_cons.mp h with rfl | h
        · exact .inr List.mem_cons_self
        · exact (ih h).imp_right (List.mem_cons_of_mem _)

/-- Of entries set one after another, those of other keys leave one alone. -/
theorem FMap.find_foldl_set_ne {l : List (Nat × α)} (h : ∀ e ∈ l, k ≠ e.1) :
    FMap.find (l.foldl (fun m e => FMap.set m e.1 e.2) m) k = FMap.find m k := by
  induction l generalizing m with
  | nil => rfl
  | cons e l ih =>
    obtain ⟨he, hl⟩ := List.forall_mem_cons.mp h
    rw [List.foldl_cons, ih hl, FMap.find_set_ne _ _ he]

/-- Entries of different keys, set one after another, read back. -/
theorem FMap.find_foldl_set {l : List (Nat × α)} (hl : (l.map (·.1)).Nodup) {v : α} (h : (k, v) ∈ l) :
    FMap.find (l.foldl (fun m e => FMap.set m e.1 e.2) m) k = some v := by
  induction l generalizing m with
  | nil => cases h
  | cons e l ih =>
    obtain ⟨he, hl⟩ := List.nodup_cons.mp hl
    rw [List.foldl_cons]
    rcases List.mem_cons.mp h with rfl | h
    · rw [FMap.find_foldl_set_ne, FMap.find_set_self]
      rintro e hm rfl
      exact he (List.mem_map.mpr ⟨e, hm, rfl⟩)
    · exact ih hl h

end

/-! ### The front end's part in SEG_SETUP -/

section
variable {s u : State} {r q op p g : Nat} {c : Cmd}

theorem State.passes.segSetup (h : s.passes r q 0x33 c u) (hfree : s.segFree = true) (hop : sOp c.desc = op)
    (go : State → Cmd → State) : s.segSetup (cmdKey r q) op go = go u c := by
  rw [State.segSetup, hfree, h.front]
  exact if_pos hop

theorem State.modSeg_seg {f : Seg → Seg} {v : Seg} (h : FMap.find (s.part p).segs g = some v) :
    FMap.find ((s.modSeg p g f).part p).segs g = some (f v) := by
  rw [State.modSeg, State.modPart_part, h]
  exact FMap.find_set_self ..

theorem State.dropCached_part (s : State) (p g j : Nat) : (s.dropCached p g).part j = s.part j := rfl

theorem State.dropCached_cmds (s : State) (p g : Nat) : (s.dropCached p g).fe.cmds = s.fe.cmds := rfl

/-! ### CREATE -/

theorem State.zeroRange_fe (s : State) (tier a len : Nat) : (s.zeroRange tier a len).fe = s.fe :=
  fe_of (by apply State.zeroRange_same (.refl _ _) <;> rfl)

theorem State.createSeg_fe (s : State) (p : Nat) (d : Bytes) : (s.createSeg p d).fe = s.fe :=
  fe_of (by apply State.createSeg_same (.refl _ _) <;> rfl)

theorem State.createSeg_seg (s : State) (p : Nat) (d : Bytes) :
    FMap.find ((s.createSeg p d).part p).segs (sSeg d) = some (s.newSeg p d) := by
  rw [State.createSeg, State.modPart_part]
  exact FMap.find_set_self ..

theorem exec_segSetupCreate (h : s.passes r q 0x33 c u) (hfree : s.segFree = true) (hop : sOp c.desc = 0)
    (hok : u.createCheck (cmdKey r q) c.part c.desc = 0) :
    exec (.segSetupCreate r q) s = .next ((u.createSeg c.part c.desc).finish (cmdKey r q) stOk) := by
  change execSegSetupCreate _ _ _ = _
  simp only [execSegSetupCreate, hfree, h.front, hop, hok, Bool.not_true, Bool.false_eq_true, if_false, decide_true,
    Bool.true_or, if_true, bne_self_eq_false]

/-! ### MAP -/

theorem State.poisonMapSheet_seg {v : Seg} (h : FMap.find (s.part p).segs g = some v) (x : Nat) :
    ∃ w, FMap.find ((s.poisonMapSheet p g x).part p).segs g = some w ∧ w.map = v.map :=
  ⟨_, State.modSeg_seg h, rfl⟩

/-- A map sheet that is rewritten changes which pages read as invalid, and no page's frame. -/
theorem State.rewriteMap_seg {v : Seg} (h : FMap.find (s.part p).segs g = some v) (a : Seg) (pages : List Nat) :
    ∃ w, FMap.find ((s.rewriteMap p g a pages).part p).segs g = some w ∧ w.map = v.map := by
  unfold State.rewriteMap State.each
  generalize ((pages.map (· / 32)).eraseDups.map (32 * ·)).filter (fun x => s.t1Bad (a.mapSheet x)) = l
  induction l generalizing s v with
  | nil => exact ⟨v, h, rfl⟩
  | cons x l ih =>
    obtain ⟨w, hw, hmap⟩ := State.poisonMapSheet_seg h x
    obtain ⟨w', hw', hmap'⟩ := ih (s := { s.poisonMapSheet p g x with
      mem := (s.poisonMapSheet p g x).mem.mark (t1Addr (256 * a.mapSheet x) / 256) false }) hw
    exact ⟨w', hw', hmap'.trans hmap⟩

theorem State.rewriteMap_cmds (s : State) (p g : Nat) (v : Seg) (pages : List Nat) :
    (s.rewriteMap p g v pages).fe.cmds = s.fe.cmds := by
  unfold State.rewriteMap
  refine State.each_inv (fun t => t.fe.cmds) _ _ (fun _ _ => ?_) s
  rfl

theorem State.zeroLost_part (s : State) (v : Seg) (ps : List (Nat × Nat)) (j : Nat) :
    (s.zeroLost v ps).part j = s.part j := by
  unfold State.zeroLost
  split
  · rfl
  · refine State.each_inv (fun t => t.part j) _ _ (fun t e => ?_) s
    dsimp only
    split
    · split
      · rfl
      · exact State.zeroRange_part ..
    · rfl

theorem State.zeroLost_fe (s : State) (v : Seg) (ps : List (Nat × Nat)) : (s.zeroLost v ps).fe = s.fe :=
  fe_of (by apply State.zeroLost_same (.refl _ _) <;> rfl)

theorem mapPairs_nodup (d : Bytes) : ((mapPairs d).map (·.1)).Nodup := by
  rw [mapPairs, List.map_map]
  exact List.nodup_range.map fun a b h => Nat.add_left_cancel h

theorem mem_mapPairs {d : Bytes} {i : Nat} (h : i < sPages d) :
    (sFirst d + i, sBase d + pageSize * i) ∈ mapPairs d :=
  List.mem_map.mpr ⟨i, List.mem_range.mpr h, rfl⟩

/-- MAP's effect: every page it names is valid, in its frame. -/
theorem State.mapPages_seg {d : Bytes} {v : Seg} (h : FMap.find (s.part p).segs (sSeg d) = some v) :
    ∃ v', FMap.find ((s.mapPages p d).part p).segs (sSeg d) = some v' ∧
      ∀ i < sPages d, FMap.find v'.map (sFirst d + i) = some (sBase d + pageSize * i)
        ∧ v'.pageValid (sFirst d + i) = true := by
  have hz : FMap.find ((s.zeroLost v (mapPairs d)).part p).segs (sSeg d) = some v := by
    rw [State.zeroLost_part]
    exact h
  obtain ⟨w, hw, -⟩ := State.rewriteMap_seg hz v ((mapPairs d).map (·.1))
  unfold State.mapPages
  rw [h]
  refine ⟨_, State.modSeg_seg hw, fun i hi => ?_⟩
  have hmap := FMap.find_foldl_set (m := w.map) (mapPairs_nodup d) (mem_mapPairs hi)
  refine ⟨hmap, ?_⟩
  have hin : inRange (sFirst d) (sPages d) (sFirst d + i) = true := by simp [inRange, hi]
  simp only [Seg.pageValid, Bool.and_eq_true, Bool.not_eq_true', List.contains_eq_mem, decide_eq_false_iff_not,
    List.mem_filter, hin, Bool.not_true, Bool.false_eq_true, and_false, not_false_eq_true, and_true]
  exact Option.isSome_iff_exists.mpr ⟨_, hmap⟩

theorem State.mapPages_cmds (s : State) (p : Nat) (d : Bytes) : (s.mapPages p d).fe.cmds = s.fe.cmds := by
  unfold State.mapPages
  split
  · rfl
  · exact (State.rewriteMap_cmds ..).trans (congrArg Front.cmds (State.zeroLost_fe ..))

theorem exec_segSetupMap (h : s.passes r q 0x33 c u) (hfree : s.segFree = true) (hop : sOp c.desc = 2)
    (hok : u.mapCheck c.part c.desc = 0) (hlines : u.lostLines c.part c.desc = []) :
    exec (.segSetupMap r q) s
      = .next (((u.mapPages c.part c.desc).dropCached c.part (sSeg c.desc)).finish (cmdKey r q) stOk) := by
  change execSegSetupMap _ _ _ = _
  simp only [execSegSetupMap, h.segSetup hfree hop, hok, hlines, bne_self_eq_false, Bool.false_eq_true, if_false,
    List.isEmpty_nil, Bool.not_true]

/-! ### FAULT_AREA -/

theorem exec_segSetupFaultArea (h : s.passes r q 0x33 c u) (hfree : s.segFree = true) (hop : sOp c.desc = 4)
    (hok : u.areaCheck c.part c.desc = 0) :
    exec (.segSetupFaultArea r q) s = .next ((u.modPart c.part fun q =>
      { q with faultArea := some (sSeg c.desc, sBase c.desc) }).finish (cmdKey r q) stOk) := by
  change execSegSetupFaultArea _ _ _ = _
  simp only [execSegSetupFaultArea, h.segSetup hfree hop, hok, bne_self_eq_false, Bool.false_eq_true, if_false]

end

/-- Settles O7: CREATE by the segment it puts in its partition (`State.createSeg_seg`), MAP by the pages of its segment
(`State.mapPages_seg`). -/
theorem segmentSetup : Obligations.SegmentSetup := by
  unfold Obligations.SegmentSetup
  refine ⟨fun s u r q c hfree h hop hok => ?_, fun s u r q c v hfree h hop hok hlines hv => ?_,
    fun s u r q c hfree h hop hok => ?_⟩
  case refine_1 =>
    refine ⟨_, exec_segSetupCreate h hfree hop hok, ?_, h.done (congrArg Front.cmds (State.createSeg_fe ..)) _ _ _⟩
    rw [State.finish_part']
    exact State.createSeg_seg ..
  case refine_2 =>
    obtain ⟨v', hv', hpages⟩ := State.mapPages_seg hv
    refine ⟨_, v', exec_segSetupMap h hfree hop hok hlines, ?_, h.done
      ((State.dropCached_cmds ..).trans (State.mapPages_cmds ..)) _ _ _, hpages⟩
    rw [State.finish_part', State.dropCached_part]
    exact hv'
  case refine_3 =>
    refine ⟨_, exec_segSetupFaultArea h hfree hop hok, ?_, h.done (congrArg Front.cmds (State.modPart_fe ..)) _ _ _⟩
    rw [State.finish_part', State.modPart_part]

end Sys2Proof.Machine

/-! ## Removing segments and unmapping pages (R244) -/

namespace Sys2Proof.Machine

section
variable {s t u : State} {r q p g k : Nat} {c : Cmd}

/-! ### REMOVE and UNMAP start -/

theorem State.takeEffect_cmd (h : s.cmd? k = some c) :
    (s.takeEffect k).cmd? k = some { c with phase := .running, progress := s.now, takes := true } := by
  rw [State.takeEffect, h]
  exact State.setCmd_cmd ..

theorem State.takeEffect_cmd_ne {j : Nat} (h : j ≠ k) : (s.takeEffect k).cmd? j = s.cmd? j := by
  unfold State.takeEffect
  split
  · exact State.setCmd_cmd_ne _ _ h
  · rfl

/-- A command of the block that takes effect is the one that starts, or took effect before. -/
theorem State.mem_takeEffect_cmds (h : s.cmd? k = some c) {e : Nat × Cmd} (he : e ∈ (s.takeEffect k).fe.cmds) :
    e = (k, { c with phase := .running, progress := s.now, takes := true }) ∨ e ∈ s.fe.cmds := by
  rw [State.takeEffect, h] at he
  exact FMap.mem_of_mem_set he

/-- The windows onto a segment refuse every message, for command `k`. -/
def State.closeWins (s : State) (p g k : Nat) : State :=
  { s with net := { s.net with
    wins := FMap.mapV s.net.wins fun _ w =>
      if w.part = p && w.seg = g && !w.doorbell then { w with closing := w.closing ++ [k] } else w } }

/-- REMOVE, accepted, before the tasks parked on its segment complete. -/
def State.startRemove (s : State) (p g k : Nat) : State :=
  (((s.closeWins p g k).dropCached p g).takeEffect k).startDrain { cmd := k, part := p, seg := g, pages := none }

/-- UNMAP, accepted. -/
def State.startUnmap (s : State) (p g k : Nat) (pages : Nat × Nat) : State :=
  ((s.dropCached p g).takeEffect k).startDrain { cmd := k, part := p, seg := g, pages := some pages }

theorem State.takeEffect_parts (s : State) (k : Nat) : (s.takeEffect k).parts = s.parts :=
  parts_of (State.takeEffect_same (.refl _ _) k rfl)

theorem State.takeEffect_ream (s : State) (k : Nat) : (s.takeEffect k).ream = s.ream :=
  ream_of (State.takeEffect_same (.refl _ _) k rfl)

theorem State.takeEffect_tasks (s : State) (k : Nat) : (s.takeEffect k).fe.tasks = s.fe.tasks := by
  unfold State.takeEffect
  split <;> rfl

theorem State.takeEffect_held (s : State) (k : Nat) : (s.takeEffect k).fe.held = s.fe.held := by
  unfold State.takeEffect
  split <;> rfl

theorem exec_segSetupRemove {v : Seg} (h : s.passes r q 0x33 c u) (hfree : s.segFree = true) (hop : sOp c.desc = 1)
    (hseg : sSeg c.desc ≤ 7) (hv : u.heldSeg c.part (sSeg c.desc) = some v)
    (htable : u.holdsTable c.part (sSeg c.desc) = false) :
    exec (.segSetupRemove r q) s = .next (((u.startRemove c.part (sSeg c.desc) (cmdKey r q)).each
      ((u.fe.tasks.filter fun e => e.2.part == c.part && e.2.seg == sSeg c.desc).map (·.2.cmd))
      fun s x => s.finishIdle x stBounds).recheckFreed u.fe.tasks.length) := by
  change execSegSetupRemove _ _ _ = _
  have hno : (decide (7 < sSeg c.desc) || (u.heldSeg c.part (sSeg c.desc)).isNone) = false := by
    rw [hv, decide_eq_false (Nat.not_lt.mpr hseg)]
    rfl
  have htasks : (u.startRemove c.part (sSeg c.desc) (cmdKey r q)).fe.tasks = u.fe.tasks := State.takeEffect_tasks ..
  simp only [execSegSetupRemove, h.segSetup hfree hop, hno, htable, Bool.false_eq_true, if_false]
  rw [← htasks]
  rfl

theorem exec_segSetupUnmap {v : Seg} (h : s.passes r q 0x33 c u) (hfree : s.segFree = true) (hop : sOp c.desc = 3)
    (hv : u.mapShape c.part c.desc = some v) :
    exec (.segSetupUnmap r q) s
      = .next (u.startUnmap c.part (sSeg c.desc) (cmdKey r q) (sFirst c.desc, sPages c.desc)) := by
  change execSegSetupUnmap _ _ _ = _
  simp only [execSegSetupUnmap, h.segSetup hfree hop, hv]
  rfl

/-! ### What is invalid from then on -/

theorem State.seg?_of_removing (h : s.removing p g = true) : s.seg? p g = none := by
  unfold State.seg?
  split
  · exact if_pos h
  · rfl

theorem State.startRemove_removing (hc : s.cmd? k = some c) (hp : c.part = p) (hop : sOp c.desc = 1)
    (hseg : sSeg c.desc = g) (htable : s.holdsTable p g = false) : (s.startRemove p g k).removing p g = true := by
  have hmem := FMap.mem_of_find (State.takeEffect_cmd (s := (s.closeWins p g k).dropCached p g) hc)
  have htable' : (s.startRemove p g k).holdsTable p g = s.holdsTable p g := by
    rw [State.holdsTable, show (s.startRemove p g k).ream = s.ream from State.takeEffect_ream .., State.holdsTable]
  rw [State.removing, htable', htable, Bool.not_false, Bool.and_true, List.any_eq_true]
  exact ⟨_, hmem, by simp [hp, hop, hseg]⟩

theorem State.mapShape_some {d : Bytes} {v : Seg} (h : s.mapShape p d = some v) :
    sPages d ≤ 2 ^ 19 ∧ s.seg? p (sSeg d) = some v ∧ v.paged = true := by
  unfold State.mapShape at h
  split at h
  · cases h
  · next hshape =>
    simp only [Bool.or_eq_true, decide_eq_true_eq, not_or, Nat.not_lt] at hshape
    split at h
    · next w hw =>
      split at h
      · next hpaged =>
        cases h
        exact ⟨hshape.2, hw, hpaged⟩
      · cases h
    · cases h

theorem State.seg?_some {v : Seg} (h : s.seg? p g = some v) :
    FMap.find (s.part p).segs g = some v ∧ s.removing p g = false := by
  unfold State.seg? at h
  split at h
  · next w hw =>
    split at h
    · cases h
    · next hr =>
      cases h
      exact ⟨hw, Bool.eq_false_of_not_eq_true hr⟩
  · cases h

/-- UNMAP removes no segment: what stood before it started still stands. -/
theorem State.startUnmap_seg {pages : Nat × Nat} {v : Seg} (hc : s.cmd? k = some c) (hop : sOp c.desc = 3) {x : Nat}
    (h : s.seg? p x = some v) : (s.startUnmap p g k pages).seg? p x = some v := by
  obtain ⟨hv, hr⟩ := State.seg?_some h
  have hpart : (s.startUnmap p g k pages).part p = s.part p :=
    congrArg (fun m : FMap Part => FMap.get m p {}) (State.takeEffect_parts (s.dropCached p g) k)
  have hr' : (s.startUnmap p g k pages).removing p x = false := by
    have htable : (s.startUnmap p g k pages).holdsTable p x = s.holdsTable p x := by
      rw [State.holdsTable, show (s.startUnmap p g k pages).ream = s.ream from State.takeEffect_ream .., State.holdsTable]
    rw [State.removing, htable]
    rw [State.removing] at hr
    cases hb : s.holdsTable p x with
    | true => rw [Bool.not_true, Bool.and_false]
    | false =>
      rw [hb, Bool.not_false, Bool.and_true, List.any_eq_false] at hr
      rw [Bool.not_false, Bool.and_true, List.any_eq_false]
      intro e he
      rcases State.mem_takeEffect_cmds (s := s.dropCached p g) hc he with rfl | he
      · simp [hop]
      · exact hr e he
  rw [State.seg?, hpart, hv, hr']
  rfl

/-- A page that UNMAP names is invalid once it has started. -/
theorem State.startUnmap_rangeFault {v : Seg} (hc : s.cmd? k = some c) (hp : c.part = p) (hop : sOp c.desc = 3)
    (hv : s.mapShape p c.desc = some v) {x : Range} {page : Nat} (hx : x.seg = sSeg c.desc)
    (hpage : page ∈ pagesOf x.off x.len) (hlo : sFirst c.desc ≤ page) (hhi : page < sFirst c.desc + sPages c.desc) :
    ((s.startUnmap p (sSeg c.desc) k (sFirst c.desc, sPages c.desc)).rangeFault p x).isSome = true := by
  obtain ⟨hpages, hseg, hpaged⟩ := State.mapShape_some hv
  have hunmap : (s.startUnmap p (sSeg c.desc) k (sFirst c.desc, sPages c.desc)).unmapping p x.seg page = true := by
    rw [State.unmapping, List.any_eq_true]
    exact ⟨_, FMap.mem_of_find (State.takeEffect_cmd (s := s.dropCached p (sSeg c.desc)) hc),
      by simp [hp, hop, hx, inRange, hlo, hhi, -Nat.reducePow, hpages]⟩
  rw [← hx] at hseg
  rw [State.rangeFault, State.startUnmap_seg hc hop hseg]
  dsimp only
  rw [if_pos hpaged]
  split
  · next hnil =>
    have := List.filter_eq_nil_iff.mp hnil page hpage
    rw [hunmap, Bool.or_true] at this
    exact absurd rfl this
  · rfl

/-! ### The drain is over -/

theorem State.faultWrite_cmd (c : Cmd) (k n seg kind off pages j : Nat) :
    (s.faultWrite c k n seg kind off pages).cmd? j = s.cmd? j := by
  unfold State.faultWrite
  dsimp only
  split
  · split
    · rw [State.cmd?, State.writeSeg_fe]
      rfl
    · rfl
  · rw [State.cmd?, State.causeTo_fe]
    rfl

theorem State.faultPark_cmd_ne (c : Cmd) (seg kind off pages : Nat) {j : Nat} (h : j ≠ k) :
    (s.faultPark k c seg kind off pages).cmd? j = s.cmd? j := by
  unfold State.faultPark
  dsimp only
  split
  · rw [State.faultWrite_cmd]
    refine (State.setPhase_cmd_ne _ _ h).trans ?_
    split <;> rfl
  · split
    · rfl
    · exact (State.setPhase_cmd_ne _ _ h)

theorem State.leaveQueue_fe (s : State) (k : Nat) : (s.leaveQueue k).fe = s.fe :=
  fe_of (State.leaveQueue_same (.refl _ _) k rfl rfl)

theorem State.unstage_fe (s : State) (k : Nat) : (s.unstage k).fe = s.fe :=
  fe_of (State.unstage_same (.refl _ _) k rfl)

theorem State.clearPost_fe (s : State) (k : Nat) : (s.clearPost k).fe = s.fe :=
  fe_of (by apply State.clearPost_same (.refl _ _) <;> rfl)

theorem State.endUnadmitted_cmd_ne (st : Nat) {j : Nat} (h : j ≠ k) : (s.endUnadmitted k st).cmd? j = s.cmd? j := by
  unfold State.endUnadmitted
  split
  · rfl
  · rw [State.cmd?, State.clearPost_fe]
    refine (State.finish_cmd_ne _ _ _ h).trans ?_
    rw [State.cmd?, State.unstage_fe, State.leaveQueue_fe]
    rfl

/-- A post that is checked again leaves every other command as it is. -/
theorem State.recheckOn_cmd_ne (c : Cmd) (rs : List Range) {j : Nat} (h : j ≠ k) :
    (s.recheckOn k c rs).cmd? j = s.cmd? j := by
  unfold State.recheckOn
  split
  · refine (State.endUnadmitted_cmd_ne _ h).trans ?_
    split <;> rfl
  · split
    · refine (State.faultPark_cmd_ne _ _ _ _ _ h).trans ?_
      rw [State.cmd?, State.dropPost, State.leaveQueue_fe]
      rfl
    · rfl

theorem PartsLike.freeOldVersion (h : PartsLike s t) : PartsLike s t.freeOldVersion := by
  unfold State.freeOldVersion
  split
  · exact h
  · split
    · exact h
    · refine PartsLike.causeTo ?_ _ _
      exact PartsLike.of_parts (t := t) rfl h

theorem State.leaveQueue_parts (s : State) (k : Nat) : (s.leaveQueue k).parts = s.parts :=
  parts_of (State.leaveQueue_same (.refl _ _) k rfl rfl)

theorem State.dropPost_parts (s : State) (k : Nat) : (s.dropPost k).parts = s.parts :=
  parts_of (State.dropPost_same (.refl _ _) k rfl rfl rfl)

theorem State.unstage_parts (s : State) (k : Nat) : (s.unstage k).parts = s.parts :=
  parts_of (State.unstage_same (.refl _ _) k rfl)

theorem PartsLike.clearPost (h : PartsLike s t) (k : Nat) : PartsLike s (t.clearPost k) := by
  unfold State.clearPost
  refine PartsLike.freeOldVersion (PartsLike.of_parts (t := t) ?_ h)
  exact (parts_of (State.cacheDrop_same (.refl _ _) _ rfl)).trans (State.dropPost_parts ..)

theorem PartsLike.endUnadmitted (h : PartsLike s t) (k st : Nat) : PartsLike s (t.endUnadmitted k st) := by
  unfold State.endUnadmitted
  split
  · exact h
  · refine PartsLike.clearPost (PartsLike.finish (PartsLike.of_parts (t := t) ?_ h) _ _ _ _) _
    exact (State.unstage_parts ..).trans (State.leaveQueue_parts ..)

/-- A post that is checked again leaves the partitions' segments as they are. -/
theorem PartsLike.recheckOn (h : PartsLike s t) (k : Nat) (c : Cmd) (rs : List Range) :
    PartsLike s (t.recheckOn k c rs) := by
  unfold State.recheckOn
  split
  · refine PartsLike.endUnadmitted (PartsLike.of_parts (t := t) ?_ h) _ _
    split <;> rfl
  · split
    · exact PartsLike.faultPark (PartsLike.of_parts (State.dropPost_parts ..) h) _ _ _ _ _ _
    · exact h

theorem Part.like.segs {x y : Part} (h : x.like y) : y.segs = x.segs := by
  obtain ⟨_, _, _, _, _, _, rfl⟩ := h
  rfl

/-- What stands once the posts `ks` have been checked again and the commands `rs` have completed. -/
def State.drainEnds (s : State) (ks rs : List Nat) : State :=
  ((s.each ks fun s k => match s.cmd? k with
    | some c => s.recheckOn k c (s.cmdRanges c)
    | none => s).each rs fun s k => s.finish k stOk)

theorem State.drainEnds_like (s : State) (ks rs : List Nat) : PartsLike s (s.drainEnds ks rs) := by
  refine PartsLike.each ((PartsLike.refl s).each _ _ fun t k => ?_) _ _ fun t k => (PartsLike.refl t).finish _ _ _ _
  split
  · exact (PartsLike.refl t).recheckOn _ _ _
  · exact PartsLike.refl t

theorem State.each_cmd_of_notMem {l : List Nat} {f : State → Nat → State} {j : Nat}
    (hf : ∀ (t : State) (k : Nat), j ≠ k → (f t k).cmd? j = t.cmd? j) (h : j ∉ l) (s : State) :
    (s.each l f).cmd? j = s.cmd? j := by
  unfold State.each
  induction l generalizing s with
  | nil => rfl
  | cons k l ih =>
    obtain ⟨hk, hl⟩ := not_or.mp (mt List.mem_cons.mpr h)
    exact (ih hl (f s k)).trans (hf s k hk)

theorem State.drainEnds_cmd {ks rs : List Nat} {j : Nat} (hks : j ∉ ks) (hrs : j ∉ rs) :
    (s.drainEnds ks rs).cmd? j = s.cmd? j := by
  refine (State.each_cmd_of_notMem (fun t k h => State.finish_cmd_ne _ _ _ h) hrs _).trans
    (State.each_cmd_of_notMem (fun t k h => ?_) hks _)
  split
  · exact State.recheckOn_cmd_ne _ _ h
  · rfl

/-- The posts that the end of a drain checks again. -/
def State.drainPosts (s : State) (p g : Nat) (pages : Option (Nat × Nat)) : List Nat :=
  (s.unadmitted fun _ => true).filter fun k => (s.cmd? k).any fun c => s.usesPages c p g pages

/-- The WINDOW_REMOVE commands that complete with a segment. -/
def State.drainRemoves (s : State) (p g : Nat) : List Nat :=
  ((s.winsOn p g).filterMap (FMap.find s.net.wins ·)).flatMap s.winRemoves

theorem State.notMem_drainPosts (h : s.post? k = none) (pages : Option (Nat × Nat)) : k ∉ s.drainPosts p g pages := by
  intro hmem
  obtain ⟨x, hx, rfl⟩ := List.mem_map.mp (List.mem_of_mem_filter hmem)
  exact FMap.notMem_of_find_eq_none h _ (List.mem_of_mem_filter hx)

theorem State.notMem_drainRemoves (hc : s.cmd? k = some c) (hop : c.op ≠ 0x41) : k ∉ s.drainRemoves p g := by
  intro hmem
  obtain ⟨w, -, hw⟩ := List.mem_flatMap.mp hmem
  have hany := (List.mem_filter.mp hw).2
  rw [hc, Option.any_some, beq_iff_eq] at hany
  exact hop hany

theorem exec_segmentDrainDone_remove {d : SegDrain} (hd : s.fe.drain = some d) (hp : d.part = p) (hg : d.seg = g)
    (hpages : d.pages = none) (hdrained : s.drained d = true) (hlines : s.drainLines d = []) :
    ∃ t, t = (s.removeSeg p g).drainEnds (s.drainPosts p g none) (s.drainRemoves p g) ∧
      exec (.segmentDrainDone p g) s = .next (({ t with fe := { t.fe with drain := none } }).finish d.cmd stOk) := by
  refine ⟨_, rfl, ?_⟩
  change execSegmentDrainDone _ _ _ = _
  simp only [execSegmentDrainDone, hd, hp, hg, hdrained, hlines, hpages, bne_self_eq_false, Bool.not_true, Bool.or_self,
    Bool.false_eq_true, if_false, List.isEmpty_nil, Option.isSome_none]
  rfl

theorem exec_segmentDrainDone_unmap {d : SegDrain} {f n : Nat} (hd : s.fe.drain = some d) (hp : d.part = p)
    (hg : d.seg = g) (hpages : d.pages = some (f, n)) (hdrained : s.drained d = true) (hlines : s.drainLines d = []) :
    ∃ t, t = (s.dropPages p g f n).drainEnds (s.drainPosts p g (some (f, n))) [] ∧
      exec (.segmentDrainDone p g) s = .next (({ t with fe := { t.fe with drain := none } }).finish d.cmd stOk) := by
  refine ⟨_, rfl, ?_⟩
  change execSegmentDrainDone _ _ _ = _
  simp only [execSegmentDrainDone, hd, hp, hg, hdrained, hlines, hpages, bne_self_eq_false, Bool.not_true, Bool.or_self,
    Bool.false_eq_true, if_false, if_true, List.isEmpty_nil, Option.isSome_some]
  rfl

theorem State.removeSeg_seg (s : State) (p g : Nat) : FMap.find ((s.removeSeg p g).part p).segs g = none := by
  unfold State.removeSeg
  split
  · assumption
  · rw [State.modPart_part]
    exact FMap.find_del_self ..

theorem State.removeSeg_fe (s : State) (p g : Nat) : (s.removeSeg p g).fe = s.fe :=
  fe_of (by apply State.removeSeg_same (.refl _ _) <;> rfl)

theorem State.dropPages_fe (s : State) (p g f n : Nat) : (s.dropPages p g f n).fe = s.fe :=
  fe_of (by apply State.dropPages_same (.refl _ _) <;> rfl)

theorem State.dropPages_seg {v : Seg} (f n : Nat) (h : FMap.find (s.part p).segs g = some v) :
    ∃ v', FMap.find ((s.dropPages p g f n).part p).segs g = some v' ∧ ∀ x, f ≤ x → x < f + n → FMap.find v'.map x = none := by
  unfold State.dropPages
  rw [h]
  refine ⟨_, State.modSeg_seg (v := v) ?_, fun x hlo hhi => FMap.find_filter_eq_none fun _ => by simp [inRange, hlo, hhi]⟩
  split
  · exact h
  · rw [State.each_inv (fun t => t.part p) _ _ fun t e => State.zeroRange_part ..]
    exact h

theorem State.finish_drain (s : State) (k st res f : Nat) : (s.finish k st res f).fe.drain = s.fe.drain := by
  unfold State.finish
  split <;> rfl

/-- The drain is over for command `k`, whose segments stand as `t` has them. -/
theorem State.drainOver (hc : t.cmd? k = some c) (hk : k = cmdKey c.ring c.seq) :
    (({ t with fe := { t.fe with drain := none } }).finish k stOk).part p = t.part p
      ∧ (({ t with fe := { t.fe with drain := none } }).finish k stOk).fe.drain = none
      ∧ (({ t with fe := { t.fe with drain := none } }).finish k stOk).completed c stOk 0 0 :=
  ⟨State.finish_part' .., State.finish_drain .., State.finish_done (by rfl) hc hk _ _ _⟩

theorem State.each_finishIdle_one (s : State) (k st n : Nat) (h : s.fe.held = []) :
    ((s.each [k] fun s x => s.finishIdle x st).recheckFreed n) = s.finishIdle k st := by
  have hheld : (s.each [k] fun s x => s.finishIdle x st).fe.held = [] := State.finishIdle_held _ _ _ h
  unfold State.recheckFreed
  split
  · exact State.recheckHeld_nil _ hheld
  · rfl

theorem State.finishIdle_cmd_ne {j : Nat} (st : Nat) (h : j ≠ k) : (s.finishIdle k st).cmd? j = s.cmd? j := by
  unfold State.finishIdle
  split
  · rfl
  · exact State.finish_cmd_ne _ _ _ h

end

/-- Settles O8: REMOVE and UNMAP by what their taking effect makes invalid (`State.startRemove_removing`,
`State.startUnmap_rangeFault`), the drain's end by the segment it removes or whose pages it drops, and by what the posts
it checks again leave alone (`State.drainEnds_cmd`, `State.drainEnds_like`). -/
theorem segmentRemoval : Obligations.SegmentRemoval := by
  unfold Obligations.SegmentRemoval
  refine ⟨fun s u r q c v hfree h hop hseg hv htable hnone => ?_, fun s u r q c v hfree h hop hv => ?_,
    fun s u r q n k c c' v e hfree h hop hseg hv htable hheld hone hk hc' hck hne => ?_,
    fun s p g d c v hd hp hg hpages hdrained hlines hc hop hk hpost hv => ?_,
    fun s p g f n d c v hd hp hg hpages hdrained hlines hc hk hpost hv => ?_⟩
  case refine_1 =>
    obtain ⟨l, hc⟩ := h.cmd
    have hexec := exec_segSetupRemove h hfree hop hseg hv htable
    have hsame : ((u.startRemove c.part (sSeg c.desc) (cmdKey r q)).each [] fun s x => s.finishIdle x stBounds).recheckFreed
        u.fe.tasks.length = u.startRemove c.part (sSeg c.desc) (cmdKey r q) :=
      if_neg (Nat.not_lt.mpr (Nat.le_of_eq (congrArg List.length (State.takeEffect_tasks ..)).symm))
    rw [hnone, List.map_nil, hsame] at hexec
    exact ⟨_, _, hexec, rfl, rfl, rfl, rfl, rfl,
      State.seg?_of_removing (State.startRemove_removing hc rfl hop rfl htable)⟩
  case refine_2 =>
    obtain ⟨l, hc⟩ := h.cmd
    exact ⟨_, _, exec_segSetupUnmap h hfree hop hv, rfl, rfl, rfl,
      fun x g hx hg hlo hhi => State.startUnmap_rangeFault hc rfl hop hv hx hg hlo hhi⟩
  case refine_3 =>
    obtain ⟨l, hc⟩ := h.cmd
    have hexec := exec_segSetupRemove h hfree hop hseg hv htable
    have hheld' : (u.startRemove c.part (sSeg c.desc) (cmdKey r q)).fe.held = [] := (State.takeEffect_held ..).trans hheld
    rw [hone, List.map_singleton, hk,
      State.each_finishIdle_one _ _ _ _ hheld'] at hexec
    exact ⟨_, hexec, State.finishIdle_completed _ ((State.takeEffect_cmd_ne hne).trans hc') hck.symm,
      _, (State.finishIdle_cmd_ne _ hne.symm).trans (State.takeEffect_cmd hc), rfl⟩
  case refine_4 =>
    obtain ⟨t, ht, hexec⟩ := exec_segmentDrainDone_remove hd hp hg hpages hdrained hlines
    have hct : t.cmd? d.cmd = some c := by
      rw [ht, State.drainEnds_cmd (State.notMem_drainPosts hpost _) (State.notMem_drainRemoves hc (by rw [hop]; decide)),
        State.cmd?, State.removeSeg_fe]
      exact hc
    obtain ⟨hpart, hdrain, hdone⟩ := State.drainOver (p := p) hct hk
    refine ⟨_, hexec, ?_, hdrain, hdone⟩
    rw [hpart, ht, ((State.drainEnds_like ..).like p).segs]
    exact State.removeSeg_seg ..
  case refine_5 =>
    obtain ⟨t, ht, hexec⟩ := exec_segmentDrainDone_unmap hd hp hg hpages hdrained hlines
    have hct : t.cmd? d.cmd = some c := by
      rw [ht, State.drainEnds_cmd (State.notMem_drainPosts hpost _) List.not_mem_nil, State.cmd?, State.dropPages_fe]
      exact hc
    obtain ⟨hpart, hdrain, hdone⟩ := State.drainOver (p := p) hct hk
    obtain ⟨v', hv', hmap⟩ := State.dropPages_seg f n hv
    refine ⟨_, v', hexec, ?_, hdrain, hdone, hmap⟩
    rw [hpart, ht, ((State.drainEnds_like ..).like p).segs]
    exact hv'

end Sys2Proof.Machine

/-! ## Walks, fault records and FAULT_RESUME (R246 to R251) -/

namespace Sys2Proof.Machine

section
variable {s t u : State} {r q p g k page : Nat} {c : Cmd}

/-! ### A walk's result enters the caches -/

theorem State.segEntryRead_counter {id inst : Nat} (hid : 0x048 ≤ id) :
    s.segEntryRead.counter id inst = s.counter id inst := by
  have hne (n i : Nat) (hi : i ≤ 0x047) : ctrKey id inst ≠ ctrKey i (n % 4) := by
    have := Nat.mod_lt n (by decide : 0 < 4)
    unfold ctrKey
    omega
  unfold State.segEntryRead
  dsimp only
  split
  · rw [State.count_counter_ne _ _ (hne _ _ (by decide)), State.count_counter_ne _ _ (hne _ _ (by decide))]
    rfl
  · rw [State.count_counter_ne _ _ (hne _ _ (by decide))]
    rfl

theorem State.pageEntryRead_counter {id inst : Nat} (hid : 0x048 ≤ id) :
    (s.pageEntryRead p g page).counter id inst = s.counter id inst := by
  unfold State.pageEntryRead
  split
  · rfl
  · split
    · rfl
    · exact (State.rebuild_counter _ hid _).trans (s.openSheets_counter hid ..)

theorem State.pageUse_counter (n id inst : Nat) : (s.pageUse n).counter id inst = s.counter id inst := by
  rw [State.pageUse_eq]
  rfl

/-- The state before a walk's entries enter the caches: they have been read. -/
def State.walkRead (s : State) (p g page : Nat) : State := ((s.count 0x070 p 1).segEntryRead).pageEntryRead p g page

theorem State.walkRead_fe (s : State) (p g page : Nat) : (s.walkRead p g page).fe = s.fe :=
  fe_of (State.pageEntryRead_same (State.segEntryRead_same (State.count_same (.refl _ _) _ _ _ rfl) rfl rfl) _ _ _ rfl)

theorem State.walkFill_fe (s : State) (p g page : Nat) :
    ∃ l, (s.walkFill p g page).fe = { s.fe with segCache := cacheIn 32 s.fe.segCache (segToken p g), pageCache := l } := by
  have hread := s.walkRead_fe p g page
  unfold State.walkFill
  dsimp only
  split
  · refine ⟨s.fe.pageCache, ?_⟩
    rw [← hread]
    rfl
  · rw [State.pageUse_eq, ← hread]
    exact ⟨_, rfl⟩

theorem State.walkFill_counter (s : State) (p g page : Nat) :
    (s.walkFill p g page).counter 0x070 p = s.counter 0x070 p + 1 := by
  have hread : (s.walkRead p g page).counter 0x070 p = s.counter 0x070 p + 1 := by
    rw [State.walkRead, State.pageEntryRead_counter (by decide), State.segEntryRead_counter (by decide)]
    exact State.count_counter ..
  rw [← hread]
  unfold State.walkFill
  dsimp only
  split
  · rfl
  · exact State.pageUse_counter ..

theorem State.walkFill_now (s : State) (p g page : Nat) : (s.walkFill p g page).now = s.now := by
  rw [State.now, clk_of (State.walkFill_same (.refl _ s) p g page rfl rfl rfl), State.now]

theorem mem_cacheIn (n : Nat) (l : List Nat) (x : Nat) : x ∈ cacheIn (n + 1) l x := List.mem_cons_self

/-! ### A command that still misses an entry goes on walking -/

/-- Only the commands that name ranges of segments are run again. -/
theorem State.rerun_walk {data : Rd} (hc : s.cmd? (cmdKey r q) = some c) (hphase : c.phase = .walking)
    (htrans : s.translate (cmdKey r q) c (s.cmdRanges c) = (false, s.walk (cmdKey r q)))
    (hranges : s.cmdRanges c ≠ []) : s.rerun r q data = s.walk (cmdKey r q) := by
  have hfront (op : Nat) (go : State → Cmd → State) (ho : c.op = op) :
      s.front (cmdKey r q) op go = s.walk (cmdKey r q) := State.front_walk go hc hphase ho htrans
  have hfresh (op : Nat) (ho : c.op = op) : s.fresh? (cmdKey r q) op = some c := by
    simp [State.fresh?, hc, hphase, ho]
  have himage (op : Nat) (img : Rd) (go : State → Cmd → State) (ho : c.op = op) :
      s.imageFront (cmdKey r q) op img go = s.walk (cmdKey r q) := by
    simp [State.imageFront, hfresh op ho, hphase, hfront op go ho]
  unfold State.rerun
  rw [hc]
  dsimp only
  split
  · next ho => simp [execPost, after, hfresh _ ho, hphase, hfront _ _ ho]
  split
  · next ho => simp only [execReamLoad, after, himage _ _ _ ho]
  split
  · next ho => simp only [execReamPatch, after, himage _ _ _ ho]
  split
  · next ho => simp only [execKeyInstall, after, hfront _ _ ho]
  split
  · next ho => simp only [execKeyQuery, after, hfront _ _ ho]
  split
  · next ho => simp only [execShingleProfile, after, hfront _ _ ho]
  split
  · next ho => simp only [execIngest, after, hfront _ _ ho]
  split
  · next ho => simp only [execRingSetup, after, hfront _ _ ho]
  split
  · next ho => simp only [execCheckpoint, after, hfront _ _ ho]
  · refine absurd ?_ hranges
    simp only [State.cmdRanges, *, decide_false, Bool.or_self, Bool.false_eq_true, if_false]

theorem State.translate_pageMiss {rs : List Range} (hseg : s.segMisses c.part rs = [])
    (hbad : firstSome (s.rangeBad c.part) rs = none) (hmiss : s.pageMisses c.part rs ≠ []) :
    s.translate k c rs = (false, s.walk k) := by
  have hpages : (s.pageMisses c.part rs).isEmpty = false := by simpa using hmiss
  simp only [State.translate, hseg, hbad, hpages, List.isEmpty_nil, Bool.not_true, Bool.not_false, Bool.false_eq_true,
    if_false, if_true]

theorem exec_translationWalkDone {dir : Rd} (hc : s.cmd? (cmdKey r q) = some c) (hphase : c.phase = .walking)
    (hturn : (s.fe.walks.take 8).contains (cmdKey r q) = true) (hnext : s.nextWalk c = some (g, page))
    (hgood : page = noPage ∨ (s.walkFill c.part g page).faultKind c.part g (page * pageSize) = 0) :
    exec (.translationWalkDone r q false dir) s = .next ((s.walkFill c.part g page).rerun r q dir) := by
  have hno : ((false || decide ((s.walkFill c.part g page).faultKind c.part g (page * pageSize) = 1))
      && page != noPage) = false := by
    rcases hgood with h | h <;> simp [h]
  change execTranslationWalkDone _ _ _ _ _ = _
  simp only [execTranslationWalkDone, hc, hphase, hturn, decide_true, Bool.and_self, if_true, State.walkEnd, hnext, hno,
    Bool.false_eq_true, if_false]

theorem State.walk_cmd (hc : s.cmd? k = some c) (hphase : c.phase = .walking) :
    (s.walk k).cmd? k = some { c with progress := s.now } := by
  refine (State.setPhase_cmd s k .walking c hc).trans ?_
  rw [← hphase]

theorem State.mem_walk_walks (s : State) (k : Nat) : k ∈ (s.walk k).fe.walks := by
  unfold State.walk
  dsimp only
  split
  · next h => simpa using h
  · exact List.mem_append_right _ (List.mem_singleton_self k)

/-! ### FAULT_RESUME -/

theorem State.finishIdle_eq (hc : s.cmd? k = some c) (st : Nat) : s.finishIdle k st = s.finish k st c.idleResult := by
  rw [State.finishIdle, hc]

/-- A task's command has completed in `t`, and FAULT_RESUME, which has passed its checks, completes after it. -/
theorem State.resume_done {c' : Cmd} {op st res : Nat} (h : s.passes r q op c u) (hk : k ≠ cmdKey r q)
    (ht : t.cmd? (cmdKey r q) = u.cmd? (cmdKey r q)) (hdone : t.completed c' st res 0) :
    (t.finish (cmdKey r q) stOk 1).completed c' st res 0 ∧ (t.finish (cmdKey r q) stOk 1).completed c stOk 1 0 := by
  obtain ⟨l, hl⟩ := h.cmd
  obtain ⟨-, hr, hq, -⟩ := h
  have hct := ht.trans hl
  subst hr hq
  refine ⟨State.completed_finish _ _ _ hdone fun d hd => ?_, ?_⟩
  · rw [hct] at hd
    cases hd
    rfl
  · exact (State.completed_congr (d := { c with segs := l }) rfl rfl rfl rfl).1 (State.finish_completed _ _ _ hct rfl)

theorem exec_faultResumeEnd {n : Nat} (hfree : s.segFree = true) (h : s.passes r q 0x34 c u) (hop : c.f 16 1 = 1)
    (hmine : u.foreignTask c.part (c.f 18 2) = false) (htasks : u.namedTasks c.part (c.f 18 2) = [(n, k)])
    (hheld : u.fe.held = []) :
    exec (.faultResumeEnd r q) s = .next ((u.finishIdle k stFaulted).finish (cmdKey r q) stOk 1) := by
  change execFaultResumeEnd _ _ _ = _
  rw [← State.each_finishIdle_one u k stFaulted u.fe.tasks.length hheld]
  simp only [execFaultResumeEnd, hfree, h.front, hop, hmine, htasks, Bool.not_true, Bool.false_eq_true, if_false,
    bne_self_eq_false]
  rfl

/-- A task whose command's range does not stand ends with BOUNDS when it is resumed. -/
theorem State.resumeTask_bounds {dirs : List (Nat × Rd)} (hc : s.cmd? k = some c)
    (hbad : firstSome ((s.freeTaskOf k).rangeBad c.part) ((s.freeTaskOf k).cmdRanges c) = some false) :
    s.resumeTask dirs k = (s.freeTaskOf k).finishIdle k stBounds := by
  have hrecheck : (s.freeTaskOf k).recheck k = (s.freeTaskOf k).finishIdle k stBounds := by
    have hc' : (s.freeTaskOf k).cmd? k = some c := hc
    simp only [State.recheck, hc', hbad, Bool.false_eq_true, if_false]
  have hgone : ((s.freeTaskOf k).finishIdle k stBounds).cmd? k = none := by
    rw [State.finishIdle_eq (s := s.freeTaskOf k) hc]
    exact State.finish_cmd ..
  simp only [State.resumeTask, hrecheck, hgone]

theorem exec_faultResumeResume {n : Nat} {c' : Cmd} (hfree : s.segFree = true) (h : s.passes r q 0x34 c u)
    (hop : c.f 16 1 = 0) (hmine : u.foreignTask c.part (c.f 18 2) = false)
    (htasks : u.namedTasks c.part (c.f 18 2) = [(n, k)]) (hheld : u.fe.held = []) (hc : u.cmd? k = some c')
    (hbad : firstSome ((u.freeTaskOf k).rangeBad c'.part) ((u.freeTaskOf k).cmdRanges c') = some false) :
    exec (.faultResumeResume r q []) s
      = .next (((u.freeTaskOf k).finishIdle k stBounds).finish (cmdKey r q) stOk 1) := by
  have hheld' : ((u.freeTaskOf k).finishIdle k stBounds).recheckHeld = (u.freeTaskOf k).finishIdle k stBounds :=
    State.recheckHeld_nil _ (State.finishIdle_held _ _ _ hheld)
  change execFaultResumeResume _ _ _ _ = _
  simp only [execFaultResumeResume, hfree, h.front, hop, hmine, htasks, Bool.not_true, Bool.false_eq_true, if_false,
    bne_self_eq_false, State.each, List.foldl_cons, List.foldl_nil, State.resumeTask_bounds hc hbad, List.isEmpty_cons,
    hheld', List.length_singleton]

end

/-- Settles O9: a walk by what it puts in the caches (`State.walkFill_fe`) and the command's next check
(`State.rerun_walk`), FAULT_RESUME by its two completions (`State.resume_done`). -/
theorem faultHandling : Obligations.FaultHandling := by
  unfold Obligations.FaultHandling
  refine ⟨fun s r q g page c dir hc hphase hturn hnext hgood hseg hbad hmiss => ?_, fun s p h => ?_,
    fun s u r q n k c c' hfree h hop hmine htasks hc' hk hne hheld => ?_,
    fun s u r q n k c c' hfree h hop hmine htasks hc' hk hne hheld hbad => ?_⟩
  case refine_1 =>
    obtain ⟨l, hfe⟩ := s.walkFill_fe c.part g page
    have hcw : (s.walkFill c.part g page).cmd? (cmdKey r q) = some c := by
      rw [State.cmd?, hfe]
      exact hc
    have hranges : (s.walkFill c.part g page).cmdRanges c ≠ [] := by
      intro hnil
      rw [hnil] at hmiss
      exact hmiss rfl
    refine ⟨_, (exec_translationWalkDone hc hphase hturn hnext hgood).trans (congrArg _
      (State.rerun_walk hcw hphase (State.translate_pageMiss hseg hbad hmiss) hranges)), ?_, ?_, ?_, State.mem_walk_walks ..⟩
    · refine (congrArg (segToken c.part g ∈ ·) (State.setPhase_fe_segCache ..)).mpr ?_
      rw [hfe]
      exact mem_cacheIn ..
    · exact (State.setPhase_counter ..).trans (State.walkFill_counter ..)
    · rw [State.walk_cmd hcw hphase, State.walkFill_now]
  case refine_2 =>
    exact ⟨_, congrArg Host.Outcome.next (if_pos h), State.causeTo_hasCause ..⟩
  case refine_3 =>
    refine ⟨_, exec_faultResumeEnd hfree h hop hmine htasks hheld, ?_⟩
    exact State.resume_done h hne (State.finishIdle_cmd_ne _ hne.symm) (State.finishIdle_completed _ hc' hk.symm)
  case refine_4 =>
    refine ⟨_, exec_faultResumeResume hfree h hop hmine htasks hheld hc' hbad, ?_⟩
    exact State.resume_done h hne (State.finishIdle_cmd_ne (s := u.freeTaskOf k) _ hne.symm)
      (State.finishIdle_completed (s := u.freeTaskOf k) _ hc' hk.symm)

end Sys2Proof.Machine


/-! ## Sensors, effecters and events (R359, R369) -/

namespace Sys2Proof.Machine

/-- A request that reads a value there is answers it with success. -/
theorem State.answer_tellOpt {s : State} (h : s.pwr.st ≠ 0) {o : Option Nat} {v : Nat} (ho : o = some v) :
    (s.answer (tellOpt o)).bus.resp = natLe 1 0 ++ natLe 4 v := by
  rw [State.answer_on h, ho]
  rfl

/-- What a write of PWR_CAP leaves in the register. -/
theorem after_pwrCap {s : State} (x : Word) (h : s.pwrLocked = false) :
    (after (exec (.pwrCap x) s) s).regW 0xA0008 = BitVec.ofNat 32 (clamp 1200 2400 (bitsOf x.toNat 11 0)) := by
  obtain ⟨t, ht, hcap, -⟩ := pwrCap_clamps x h
  rw [ht]
  exact hcap

/-- Settles O53: a request is one `State.answer`, and effecter 1 is a write of PWR_CAP. -/
theorem sensorsAndEffecters : Obligations.SensorsAndEffecters := by
  refine ⟨fun s n v h hv => ⟨_, rfl, State.answer_tellOpt h hv⟩, fun s n v h hv => ⟨_, rfl, State.answer_tellOpt h hv⟩,
    fun s v h hl => ⟨_, rfl, ?setsCap⟩, fun s n v h hl => ⟨_, rfl, ?locked⟩,
    fun s h => ⟨_, rfl, State.answer_tellOpt h (if_pos rfl)⟩, fun s e h => ⟨_, rfl, ?receiver⟩,
    fun s x es h he => ⟨_, rfl, ?poll⟩, fun s h => ⟨_, rfl, if_pos h⟩⟩
  case setsCap =>
    rw [State.answer_on h, if_neg (by simp [hl]), if_pos rfl]
    exact ⟨rfl, after_pwrCap _ hl⟩
  case locked =>
    rw [State.answer_on h, if_pos hl]
    exact ⟨rfl, rfl⟩
  case receiver => rw [State.answer_on h]
  case poll =>
    rw [State.answer_on h, he]
    exact ⟨rfl, rfl⟩

end Sys2Proof.Machine

/-! ## Reading a 64-bit counter (R304, R377) -/

namespace Sys2Proof.Machine

/-- CNT_LO answers the low word of the selected counter and latches its high word, whether or not the read clears it. -/
theorem State.readCntLo_answers (s : State) :
    s.readCntLo.bus.rdata = s.selected.setWidth 32
      ∧ s.readCntLo.tel.cntHi = some ((s.selected >>> 32).setWidth 32) := by
  simp only [State.readCntLo]
  split <;> exact ⟨rfl, rfl⟩

/-- It leaves every counter alone where the selected one is none, a captured one or one that does not clear. -/
theorem State.readCntLo_ctr {s : State}
    (h : counterClears s.tel.id = false ∨ s.tel.selErr = true ∨ s.tel.bank = true) : s.readCntLo.ctr = s.ctr := by
  have hc : (!s.tel.selErr && counterClears s.tel.id && !s.tel.bank) = false := by
    rcases h with h | h | h <;> simp [h]
  simp [State.readCntLo, hc]

/-- A live counter of code RC clears. -/
theorem State.readCntLo_clears {s : State} (he : s.tel.selErr = false) (hc : counterClears s.tel.id = true)
    (hb : s.tel.bank = false) : s.readCntLo.counter s.tel.id s.tel.inst = 0 := by
  simp only [State.readCntLo, he, hc, hb, Bool.not_false, Bool.and_self, if_true]
  exact State.setCtr_counter ..

/-- The word at 0xD0008 is CNT_LO on either kind of read. -/
theorem State.read_cntLo (s : State) : s.read 0xD0008 = s.readCntLo := by
  rw [s.read_of_aligned (by decide), State.busRead, if_pos rfl]

/-- The high word of a latched counter is what was latched, and is then live again. -/
theorem State.read_cntHi_latched {s : State} {w : Word} (h : s.tel.cntHi = some w) :
    s.read 0xD000C = { s.answerWord w with tel := { s.tel with cntHi := none } } := by
  rw [s.read_of_aligned (by decide), State.busRead, if_neg (by decide), if_pos rfl, h]

/-- The high word with nothing latched is the selected counter's. -/
theorem State.read_cntHi_live {s : State} (h : s.tel.cntHi = none) :
    s.read 0xD000C = s.answerWord (BitVec.ofNat 32 (wordOf s.selected.toNat 1)) := by
  rw [s.read_of_aligned (by decide), State.busRead, if_neg (by decide), if_pos rfl, h]
  rfl

/-- Settles O60: the lemmas on CNT_LO and CNT_HI. -/
theorem counterReads : Obligations.CounterReads := by
  refine ⟨fun s h => ⟨_, rfl, s.readCntLo_answers.1, s.readCntLo_answers.2, State.readCntLo_ctr h⟩,
    fun s he hc hb => ⟨_, rfl, s.readCntLo_answers.1, s.readCntLo_answers.2, State.readCntLo_clears he hc hb⟩,
    fun s => ⟨congrArg Host.Outcome.next s.read_cntLo, congrArg Host.Outcome.next s.read_cntLo⟩,
    fun s w h => ⟨_, congrArg Host.Outcome.next (State.read_cntHi_latched h), rfl, rfl, rfl⟩,
    fun s h => ⟨_, congrArg Host.Outcome.next (State.read_cntHi_live h), ?_, rfl⟩⟩
  rw [State.answerWord_rdata, wordOf, bitsOf, Nat.shiftRight_eq_div_pow]

end Sys2Proof.Machine

/-! ## Snapshots and the counter selection (R305, R377, R378) -/

namespace Sys2Proof.Machine

/-- A map tabled over a list holds, at each key of the list, the tabled value. -/
theorem FMap.get_map_of_mem {α : Type} {l : List Nat} {f : Nat → α} {k : Nat} (d : α) (h : k ∈ l) :
    FMap.get (l.map fun n => (n, f n)) k d = f k := by
  induction l with
  | nil => cases h
  | cons n l ih =>
    by_cases hk : n = k
    · subst hk
      simp [FMap.get, FMap.find]
    · have hl := ih (List.mem_of_ne_of_mem (Ne.symm hk) h)
      simpa [FMap.get, FMap.find, Ne.symm hk] using hl

/-- Settles O48: each command is one update of the TEL block. -/
theorem timeAndCounters : Obligations.TimeAndCounters := by
  refine ⟨fun s x hx hb => ⟨_, rfl, ?snap⟩, fun s x hb => ⟨_, rfl, if_neg (by simp [hb])⟩,
    fun s hb => ⟨_, rfl, ?done⟩, fun s x => ⟨_, rfl, rfl, rfl, rfl, rfl, rfl, rfl⟩⟩
  case snap =>
    rw [if_pos (by simp only [hx, hb]; rfl)]
    exact ⟨rfl, rfl, rfl, rfl, rfl, fun d hd => FMap.get_map_of_mem 0 (List.mem_range.mpr hd)⟩
  case done =>
    rw [if_pos hb]
    exact ⟨rfl, rfl, rfl⟩

end Sys2Proof.Machine


/-! ## The DBG block (R379, Table 18.10) -/

namespace Sys2Proof.Machine

/-- An action that is not accepted sets REFUSED and does nothing. -/
theorem State.dbgAct_refused {s : State} {ok : Bool} (h : ok = false) (go : State → State) :
    s.dbgAct ok go = { s with dbg := { s.dbg with refused := true } } := by
  subst h
  rfl

/-- An accepted one acts, with REFUSED clear. -/
theorem State.dbgAct_accepted {s : State} {ok : Bool} (h : ok = true) (go : State → State) :
    s.dbgAct ok go = go { s with dbg := { s.dbg with refused := false } } := by
  subst h
  rfl

@[simp] theorem State.extend_tiles (s : State) (i e : Nat) (info d : Bytes) : (s.extend i e info d).tiles = s.tiles :=
  tiles_of (State.extend_same (.refl _ _) _ _ _ _ rfl)

@[simp] theorem State.extend_dbg (s : State) (i e : Nat) (info d : Bytes) : (s.extend i e info d).dbg = s.dbg :=
  dbg_of (State.extend_same (.refl _ _) _ _ _ _ rfl)

@[simp] theorem State.extend_testSeen (s : State) (i e : Nat) (info d : Bytes) :
    (s.extend i e info d).sec.testSeen = s.sec.testSeen := rfl

@[simp] theorem State.extend_tile (s : State) (i e : Nat) (info d : Bytes) (n : Nat) :
    (s.extend i e info d).tile n = s.tile n := rfl

@[simp] theorem State.freeTileFaults_tile (s : State) (t n : Nat) : (s.freeTileFaults t).tile n = s.tile n := rfl

/-- HALT parks the context for good. -/
theorem State.halt_ctx {s : State} {t : Nat} {c : Ctx} (h : s.ctx? t 0 = some c) :
    ((s.halt t).freeTileFaults t).ctx? t 0 = some { c with parked := true, failed := true } := by
  have hm := State.modCtx_ctx (fun c => { c with parked := true, failed := true }) h
  simp only [State.halt, State.freeTileFaults_tile, State.ctx?, State.modTile_tile] at hm ⊢
  exact hm

@[simp] theorem State.halt_dbg (s : State) (t : Nat) : (s.halt t).dbg = s.dbg :=
  dbg_of (State.halt_same (.refl _ _) _ rfl)

/-- The keys of eight tiles are set together. -/
theorem State.groupInTest_eq_false {s : State} {g i : Nat} (hi : i < 8) (h : s.inTest (8 * g + i) = false) :
    ((List.range 8).all fun i => s.inTest (8 * g + i)) = false :=
  List.all_eq_false.mpr ⟨i, List.mem_range.mpr hi, by simp [h]⟩

/-! ### The actions on a tile -/

section
variable {s : State}

theorem State.modTile_sec_tile (s : State) (n : Nat) (f : Tile → Tile) (x : Sec) :
    ({ s.modTile n f with sec := x } : State).tile n = f (s.tile n) := State.modTile_tile s n f

theorem dbgEnter_test (he : s.enabled s.dbgTile = true) (hst : (s.tile s.dbgTile).st = 0)
    (hr : s.ream.resident = false) (hj : s.ream.job = none) :
    ∃ t, exec .dbgEnter s = .next t ∧ (t.tile s.dbgTile).st = 4 ∧ t.dbg.refused = false ∧ t.sec.testSeen = true := by
  refine ⟨_, congrArg Host.Outcome.next (State.dbgAct_accepted (by simp [he, hst, hr, hj]) _), ?_, ?_, rfl⟩
  · rw [State.extend_tile]
    exact congrArg Tile.st (State.modTile_sec_tile ..)
  · exact congrArg Dbg.refused (State.extend_dbg ..)

theorem dbgEnter_refused (h : s.enabled s.dbgTile = false ∨ (s.tile s.dbgTile).st ≠ 0 ∨ s.ream.resident = true
    ∨ s.ream.job ≠ none) :
    exec .dbgEnter s = .next { s with dbg := { s.dbg with refused := true } } := by
  refine congrArg Host.Outcome.next (State.dbgAct_refused ?_ _)
  rcases h with h | h | h | h
  · simp [h]
  · simp [h]
  · simp [h]
  · simp [Option.isNone_eq_false_iff.mpr (Option.isSome_iff_ne_none.mpr h)]

theorem dbgRun_starts (ht : s.inTest s.dbgTile = true) (hr : s.testRuns s.dbgTile = false)
    (hp : (programWhyBy testWordBad s.fuse.tileMask (s.testProgram s.dbgTile)).contains rBadFormat = false) :
    ∃ t, exec .dbgRun s = .next t ∧ t.dbg.refused = false ∧ (t.tile s.dbgTile).test = some (s.testProgram s.dbgTile)
      ∧ t.ctx? s.dbgTile 0 = some { post := none, pc := pEntry (s.testProgram s.dbgTile) } := by
  refine ⟨_, congrArg Host.Outcome.next (State.dbgAct_accepted (by simp only [ht, hr, hp]; rfl) _), rfl, ?_, ?_⟩
  · rw [State.modTile_tile]
  · rw [State.ctx?, State.modTile_tile]
    rfl

theorem dbgRun_refused (h : s.inTest s.dbgTile = false ∨ s.testRuns s.dbgTile = true
    ∨ (programWhyBy testWordBad s.fuse.tileMask (s.testProgram s.dbgTile)).contains rBadFormat = true) :
    exec .dbgRun s = .next { s with dbg := { s.dbg with refused := true } } := by
  refine congrArg Host.Outcome.next (State.dbgAct_refused ?_ _)
  rcases h with h | h | h <;> simp [h, -List.contains_eq_mem]

theorem dbgHalt_parks {c : Ctx} (hr : s.testRuns s.dbgTile = true) (hc : s.ctx? s.dbgTile 0 = some c) :
    ∃ t c', exec .dbgHalt s = .next t ∧ t.dbg.refused = false ∧ t.ctx? s.dbgTile 0 = some c' ∧ c'.halted = true
      ∧ c'.running = false :=
  ⟨_, _, congrArg Host.Outcome.next (State.dbgAct_accepted hr _), congrArg Dbg.refused (State.halt_dbg ..),
    State.halt_ctx hc, rfl, rfl⟩

theorem dbgLeave_startup (ht : s.inTest s.dbgTile = true) :
    ∃ t, exec .dbgLeave s = .next t ∧ (t.tile s.dbgTile).st = 0 ∧ (t.tile s.dbgTile).ctxs = []
      ∧ (t.tile s.dbgTile).streamKey = (s.tile s.dbgTile).streamKey ∧ t.dbg.refused = false := by
  refine ⟨_, congrArg Host.Outcome.next (State.dbgAct_accepted ht _), ?_⟩
  rw [State.modTile_tile]
  exact ⟨rfl, rfl, rfl, rfl⟩

theorem dbgStreamKeySet_sets (x : Word) (ht : s.inTest s.keyIndex = true) :
    ∃ t, exec (.dbgStreamKeySet x) s = .next t ∧ (t.tile s.keyIndex).streamKey = s.dbg.keyHi ++ x
      ∧ t.dbg.refused = false := by
  refine ⟨_, congrArg Host.Outcome.next (State.dbgAct_accepted ht _), ?_, rfl⟩
  rw [State.modTile_tile]

theorem dbgInterleaveKeySet_sets (x : Word) (h : ∀ i, i < 8 → s.inTest (8 * s.keyGroup + i) = true) :
    ∃ t, exec (.dbgInterleaveKeySet x) s = .next t ∧ FMap.find t.tiers.intKey s.keyGroup = some x
      ∧ t.dbg.refused = false :=
  ⟨_, congrArg Host.Outcome.next (State.dbgAct_accepted
    (List.all_eq_true.mpr fun i hi => h i (List.mem_range.mp hi)) _), FMap.find_set_self .., rfl⟩

end

/-! ### Peeks -/

/-- An accepted peek begins. -/
theorem State.peek_begins {s : State} {ok : Bool} (write : Bool) (h : ok = true) (hb : s.dbg.busy = none) :
    (s.peek ok write).dbg.busy = some (s.peekSpace + (if write then 4 else 0), s.peekTile, s.peekAddr)
      ∧ (s.peek ok write).dbg.peekRefused = false := by
  simp [State.peek, h, hb]

/-- One that is not accepted, or comes while a peek runs, sets REFUSED of the peek block and does nothing. -/
theorem State.peek_refused {s : State} {ok : Bool} (write : Bool) (h : ok = false ∨ s.dbg.busy ≠ none) :
    s.peek ok write = { s with dbg := { s.dbg with peekRefused := true } } := by
  have hok : (ok && s.dbg.busy.isNone) = false := by
    rcases h with h | h
    · simp [h]
    · simp [Option.isNone_eq_false_iff.mpr (Option.isSome_iff_ne_none.mpr h)]
  simp [State.peek, hok]

section
variable {s : State} {n k : Nat}

/-- The end of a peek that waits neither for a hot group nor for host lines. -/
theorem peekCopyDone_of_ready {c : Nat} (hb : s.dbg.busy = some (c, n, k)) (hh : c % 4 = 1 → s.hotTile n = false)
    (hl : s.peekLines c k = []) :
    exec .peekCopyDone s = .next
      (let v := if c = 2 then s.readTaken (s.trackedIn (256 * k) 256) else s
       let v := { v with dbg := { v.dbg with busy := none } }
       if 4 ≤ c then v.peekWriteEnd (c - 4) n k else v.peekReadEnd c n k) := by
  have hhot : (decide (c % 4 = 1) && s.hotTile n) = false := by
    by_cases h : c % 4 = 1
    · simp [hh h]
    · simp [h]
  change execPeekCopyDone s = _
  simp only [execPeekCopyDone, hb, hhot, hl, List.isEmpty_nil, Bool.not_true, Bool.false_eq_true, if_false]

@[simp] theorem State.readTaken_dbg (s : State) (ls : List Nat) : (s.readTaken ls).dbg = s.dbg :=
  dbg_of (State.readTaken_same (.refl _ _) _ rfl)

@[simp] theorem State.readTaken_ctr (s : State) (ls : List Nat) : (s.readTaken ls).ctr = s.ctr :=
  ctr_of (State.readTaken_same (.refl _ _) _ rfl)

/-- Which lines the host holds shared does not seal or open a target. -/
theorem State.readTaken_peekSealed (s : State) (ls : List Nat) (c n k : Nat) :
    (s.readTaken ls).peekSealed c n k = s.peekSealed c n k := by
  unfold State.readTaken
  split <;> rfl

/-- A read of a sealed target answers zeroes, which are counted. -/
theorem State.peekReadEnd_sealed {s : State} {c : Nat} (h : s.peekSealed c n k = true) :
    (s.peekReadEnd c n k).dbg = { s.dbg with data := zeros 256, zeroed := true, poisoned := false }
      ∧ (s.peekReadEnd c n k).counter 0x056 0 = s.counter 0x056 0 + 1 := by
  rw [State.peekReadEnd, if_pos h]
  exact ⟨rfl, State.count_counter ..⟩

/-- A read of an open scratchpad line answers its bytes and its mark. -/
theorem State.peekReadEnd_scratchpad {s : State} (h : s.peekSealed 0 n k = false) :
    s.peekReadEnd 0 n k
      = { s with dbg := { s.dbg with data := s.spRead n k 256, zeroed := false, poisoned := s.spBad n k } } := by
  rw [State.peekReadEnd, if_neg (by simp [h])]
  rfl

theorem peekCopyDone_scratchpad (hb : s.dbg.busy = some (0, n, k)) (h : s.peekSealed 0 n k = false) :
    ∃ t, exec .peekCopyDone s = .next t ∧ t.dbg.busy = none ∧ t.dbg.data = s.spRead n k 256
      ∧ t.dbg.poisoned = s.spBad n k ∧ t.dbg.zeroed = false ∧ t.mem = s.mem := by
  refine ⟨_, (peekCopyDone_of_ready hb (fun h => by cases h) rfl).trans
    (congrArg Host.Outcome.next (State.peekReadEnd_scratchpad ?_)), rfl, rfl, rfl, rfl, rfl⟩
  exact h

theorem peekCopyDone_sealed {c : Nat} (hc : c < 3) (hb : s.dbg.busy = some (c, n, k))
    (h : s.peekSealed c n k = true) (hh : c = 1 → s.hotTile n = false) (hl : s.peekLines c k = []) :
    ∃ t, exec .peekCopyDone s = .next t ∧ t.dbg.busy = none ∧ t.dbg.data = zeros 256 ∧ t.dbg.zeroed = true
      ∧ t.counter 0x056 0 = s.counter 0x056 0 + 1 := by
  obtain ⟨v, hv, hvs, hvc⟩ : ∃ v, v = (if c = 2 then s.readTaken (s.trackedIn (256 * k) 256) else s)
      ∧ v.peekSealed c n k = true ∧ v.ctr = s.ctr := by
    refine ⟨_, rfl, ?_, ?_⟩
    · split
      · rw [State.readTaken_peekSealed, h]
      · exact h
    · split
      · exact State.readTaken_ctr ..
      · rfl
  obtain ⟨hdbg, hctr⟩ := State.peekReadEnd_sealed (s := { v with dbg := { v.dbg with busy := none } }) hvs
  refine ⟨_, (peekCopyDone_of_ready hb (fun h4 => hh (by omega)) hl).trans
    (congrArg Host.Outcome.next ((if_neg (by omega)).trans (by rw [← hv]))), ?_, ?_, ?_, hctr.trans ?_⟩
  · exact congrArg Dbg.busy hdbg
  · exact congrArg Dbg.data hdbg
  · exact congrArg Dbg.zeroed hdbg
  · exact congrArg (FMap.get · _ 0 + 1) hvc

theorem peekCopyDone_write (hb : s.dbg.busy = some (4, n, k)) :
    ∃ t, exec .peekCopyDone s = .next t ∧ t.dbg.busy = none
      ∧ t.mem = s.mem.writeSheets (spAddr n (256 * k)) (fit 256 s.dbg.data) [] :=
  ⟨_, peekCopyDone_of_ready hb (fun h => by cases h) rfl, rfl, rfl⟩

end

/-- Settles O51: the lemmas above, action by action. -/
theorem testMode : Obligations.TestMode := by
  refine ⟨fun s => dbgEnter_test, fun s h => ⟨_, dbgEnter_refused h, rfl⟩, fun s => dbgRun_starts,
    fun s h => ⟨_, dbgRun_refused h, rfl⟩, fun s h => ⟨_, rfl, State.dbgAct_refused h _⟩,
    fun s h => ⟨_, rfl, State.dbgAct_refused h _⟩, fun s c => dbgHalt_parks, fun s => dbgLeave_startup,
    fun s x => dbgStreamKeySet_sets x, fun s x h => ⟨_, rfl, State.dbgAct_refused h _⟩,
    fun s x => dbgInterleaveKeySet_sets x,
    fun s x i hi h => ⟨_, rfl, State.dbgAct_refused (State.groupInTest_eq_false hi h) _⟩,
    fun s h hb => ⟨_, rfl, State.peek_begins false h hb⟩, fun s h hb => ⟨_, rfl, State.peek_begins true h hb⟩,
    fun s h => ⟨_, rfl, State.peek_refused false h⟩, fun s h => ⟨_, rfl, State.peek_refused true h⟩,
    fun s n k => peekCopyDone_scratchpad, fun s c n k => peekCopyDone_sealed, fun s n k => peekCopyDone_write⟩

end Sys2Proof.Machine


/-! ## WINDOW_SETUP, WINDOW_REMOVE and the drain (R284, R285, R289) -/

namespace Sys2Proof.Machine

/-- The window a WINDOW_SETUP opens. -/
def winOf (c : Cmd) : Win where
  part := c.part
  seg := wSeg c.desc
  rights := wRights c.desc
  tag := wTag c.desc
  va := wVa c.desc
  off := wOff c.desc
  len := wLen c.desc

/-- Where a command's window lies among the windows. -/
def opWin (c : Cmd) : Nat := wQp c.desc * 16 + wWin c.desc

def State.setWins (s : State) (ws : FMap Win) : State := { s with net := { s.net with wins := ws } }

theorem State.setWins_cmds (s : State) (ws : FMap Win) : (s.setWins ws).fe.cmds = s.fe.cmds := rfl

section
variable {s u : State} {r q : Nat} {c : Cmd}

theorem exec_windowSetup (h : s.passes r q 0x40 c u) (hok : u.windowCheck c.part c.desc = 0) :
    exec (.windowSetup r q) s = .next ((u.setWins (FMap.set u.net.wins (opWin c) (winOf c))).finish (cmdKey r q) stOk) := by
  change execWindowSetup _ _ _ = _
  simp only [execWindowSetup, h.front, hok, bne_self_eq_false, Bool.false_eq_true, if_false]
  rfl

theorem exec_windowSetup_refused (h : s.passes r q 0x40 c u) (hbad : u.windowCheck c.part c.desc ≠ 0) :
    exec (.windowSetup r q) s = .next ((if u.windowCheck c.part c.desc = stSealedDeny then u.count 0x056 0 1 else u).finish
      (cmdKey r q) (u.windowCheck c.part c.desc)) := by
  change execWindowSetup _ _ _ = _
  simp only [execWindowSetup, h.front, bne_iff_ne.mpr hbad, if_true]

theorem exec_windowRemove {w : Win} (h : s.passes r q 0x41 c u) (hqp : (u.part c.part).hasQp (wQp c.desc) = true)
    (hwin : wWin c.desc ≤ 15) (hattach : wWin c.desc = 15 → u.isAttachQp (wQp c.desc) = false)
    (hw : FMap.find u.net.wins (opWin c) = some w) :
    exec (.windowRemove r q) s = .next { u.setPhase (cmdKey r q) .running with
      net := { u.net with wins := FMap.set u.net.wins (opWin c) { w with closing := w.closing ++ [cmdKey r q] } } } := by
  have hother : (decide (15 < wWin c.desc) || (decide (wWin c.desc = 15) && u.isAttachQp (wQp c.desc))) = false := by
    by_cases h15 : wWin c.desc = 15
    · simp [h15, hattach h15]
    · simp [h15, hwin]
  change execWindowRemove _ _ _ = _
  simp only [execWindowRemove, h.front, hqp, hother, Bool.not_true, Bool.false_eq_true, if_false]
  rw [show wQp c.desc * 16 + wWin c.desc = opWin c from rfl, hw]

/-- One WINDOW_REMOVE waits for the window, and no checked message through it is left. -/
theorem exec_windowDrainDone {n win k : Nat} {w : Win} (hw : FMap.find s.net.wins (n * 16 + win) = some w)
    (hk : s.winRemoves w = [k]) (hbusy : s.winBusy (n * 16 + win) = false) :
    exec (.windowDrainDone n win) s
      = .next ((s.setWins (FMap.del s.net.wins (n * 16 + win))).finish k stOk) := by
  change execWindowDrainDone _ _ _ = _
  simp only [execWindowDrainDone, hw, hk, hbusy, List.isEmpty_cons, Bool.or_self, Bool.false_eq_true, if_false]
  rfl

end

/-- Settles O19: SETUP adds the window `winOf`, REMOVE adds itself to those that wait, and the drain takes the window
out. -/
theorem windows : Obligations.Windows := by
  refine ⟨fun s u r q c h hok => ⟨_, winOf c, exec_windowSetup h hok, h.done (State.setWins_cmds ..) _ _ _, ?_, rfl, rfl, rfl, rfl, rfl, rfl,
      rfl, rfl⟩,
    fun s u r q c h hbad => ⟨_, exec_windowSetup_refused h hbad, h.done ?_ _ _ _, ?_⟩,
    fun s u r q c w h hqp hwin hattach hw => ⟨_, exec_windowRemove h hqp hwin hattach hw,
      State.isRunning_fe (s := u.setPhase (cmdKey r q) .running) rfl (h.running rfl), FMap.find_set_self ..⟩,
    fun s n win k w c hw hcl hc hk hop hbusy => ⟨_, exec_windowDrainDone (k := k) hw ?_ hbusy, State.finish_done (State.setWins_cmds ..) hc hk _ _ _, ?_⟩⟩
  case refine_1 =>
    rw [State.finish_net]
    exact FMap.find_set_self ..
  case refine_2 => split <;> rfl
  case refine_3 =>
    rw [State.finish_net]
    split <;> rfl
  case refine_4 => simp [State.winRemoves, hcl, hc, hop]
  case refine_5 =>
    rw [State.finish_net]
    exact FMap.find_del_self ..

end Sys2Proof.Machine


/-! ## PARTNER_PAIR and its HELLO (R322, R324) -/

namespace Sys2Proof.Machine

/-- A SEND on the pairing's queue pair stands behind the accesses there were. -/
theorem State.partnerSend_out (s : State) (p : Pair) (b : Bytes) :
    ∃ x, (s.partnerSend p b).io.out = s.io.out ++ [x] ∧ x.qp = some p.qp ∧ x.data = b ∧ x.kind = 2 :=
  ⟨_, rfl, rfl, rfl, rfl⟩

section
variable {s u : State} {r q op : Nat} {c : Cmd}

/-- PARTNER_PAIR of the OP its descriptor gives, on a queue pair of ROLE PARTNER, goes on with what that OP does. -/
theorem State.passes.partnerPair (h : s.passes r q 0x50 c u) (hop : c.f 16 1 = op) (hqp : u.pairQp c = 0)
    (go : State → Cmd → State) : s.partnerPair (cmdKey r q) op go = go u c := by
  simp only [State.partnerPair, h.front, hop, hqp, bne_self_eq_false, Bool.false_eq_true, if_false]

/-- The pairing a SENDER asks for. -/
def Cmd.senderPair (c : Cmd) (k : Nat) : Pair :=
  { qp := c.pQp, part := c.part, cmd := some k, securing := c.pSecuring }

/-- The pairing a RECEIVER sets up. -/
def Cmd.receiverPair (c : Cmd) : Pair :=
  { qp := c.pQp, part := c.part, seg := c.pSeg, off := c.pOff, len := c.pLen, free := c.pLen }

theorem exec_partnerPairSender (h : s.passes r q 0x50 c u) (hop : c.f 16 1 = 0) (hqp : u.pairQp c = 0)
    (hnone : u.rel.sender = none) (hpos : 0 < c.pSecuring) (hle : c.pSecuring ≤ 2 ^ 24) (hup : u.qpUp c.pQp = true) :
    exec (.partnerPairSender r q) s = .next (((u.setPhase (cmdKey r q) .running).setSender
      (some (c.senderPair (cmdKey r q)))).partnerSend (c.senderPair (cmdKey r q)) (u.hello (u.rel.ackLsn.getD noLsn))) := by
  have hrange : (decide (c.pSecuring = 0) || decide (2 ^ 24 < c.pSecuring)) = false := by
    rw [Bool.or_eq_false_iff]
    exact ⟨decide_eq_false (by omega), decide_eq_false (by omega)⟩
  change execPartnerPairSender _ _ _ = _
  simp only [execPartnerPairSender, h.partnerPair hop hqp, hnone, hrange, hup, Option.isSome_none, Bool.not_true,
    Bool.false_eq_true, if_false, Cmd.senderPair]

theorem exec_partnerPairReceiver (h : s.passes r q 0x50 c u) (hop : c.f 16 1 = 1) (hqp : u.pairQp c = 0)
    (hnone : u.rel.receiver = none) (hok : u.intakeCheck c = 0) :
    exec (.partnerPairReceiver r q) s
      = .next ((u.setReceiver (some c.receiverPair)).finish (cmdKey r q) stOk) := by
  change execPartnerPairReceiver _ _ _ = _
  simp only [execPartnerPairReceiver, h.partnerPair hop hqp, hnone, hok, Option.isSome_none, bne_self_eq_false,
    Bool.false_eq_true, if_false, Cmd.receiverPair]

/-- What UNPAIR of a queue pair does to the receiving side: a pairing on that queue pair ends. -/
def State.unpairReceiver (s : State) (n : Nat) : State :=
  match s.rel.receiver with
  | some p => if p.qp = n then s.setReceiver none else s
  | none => s

theorem State.unpairReceiver_keeps (s : State) (n : Nat) :
    (s.unpairReceiver n).fe = s.fe ∧ (s.unpairReceiver n).rel.sender = s.rel.sender := by
  unfold State.unpairReceiver
  split
  · split <;> exact ⟨rfl, rfl⟩
  · exact ⟨rfl, rfl⟩

theorem exec_partnerPairUnpair {p : Pair} (h : s.passes r q 0x50 c u) (hop : c.f 16 1 = 2) (hqp : u.pairQp c = 0)
    (hp : u.rel.sender = some p) (hq : p.qp = c.pQp) (hcmd : p.cmd = none) :
    exec (.partnerPairUnpair r q) s = .next (((u.setSender none).unpairReceiver c.pQp).finish (cmdKey r q) stOk) := by
  change execPartnerPairUnpair _ _ _ = _
  simp only [execPartnerPairUnpair, h.partnerPair hop hqp, hp, hq, hcmd, bne_self_eq_false, Bool.false_eq_true, if_false]
  rfl

end

section
variable {s : State} {k : Nat} {p : Pair}

/-- The pairing that the answer to this module's HELLO makes. -/
def State.answered (s : State) (p : Pair) (serial feed boot lsn : Nat) : Pair :=
  { p with known := true, active := true, serial := serial, feed := feed, boot := boot, cmd := none
           next := s.rel.vault.resumeAt lsn }

theorem exec_partnerHelloReceive_answer (serial feed boot lsn : Nat) (hp : s.rel.sender = some p)
    (hk : p.cmd = some k) :
    exec (.partnerHelloReceive serial feed boot lsn) s
      = .next ((s.setSender (some (s.answered p serial feed boot lsn))).finish k stOk) := by
  change execPartnerHelloReceive _ _ _ _ _ = _
  simp only [execPartnerHelloReceive, hp, hk, State.answered]

theorem exec_partnerHelloTimeout (hp : s.rel.sender = some p) (hk : p.cmd = some k) :
    exec .partnerHelloTimeout s = .next ((s.setSender none).finish k stXferFail) := by
  change execPartnerHelloTimeout _ = _
  simp only [execPartnerHelloTimeout, hp, hk]

end

/-- Settles O20: SENDER, RECEIVER and UNPAIR by the pairing each leaves, the answer and its absence by what they do to
the sender's. -/
theorem pairing : Obligations.Pairing := by
  refine ⟨fun s u r q c h hop hqp hnone hpos hle hup => ?sender,
    fun s u r q c h hop hqp hnone hok => ⟨_, c.receiverPair, exec_partnerPairReceiver h hop hqp hnone hok,
      h.done (congrArg Front.cmds (State.setReceiver_fe ..)) _ _ _, ?receiver, rfl, rfl, rfl, rfl, rfl⟩,
    fun s u r q c p h hop hqp hp hq hcmd => ⟨_, exec_partnerPairUnpair h hop hqp hp hq hcmd, h.done ?unpairCmds _ _ _, ?unpair⟩,
    fun s serial feed boot lsn k p c hp hcmd hc hk => ⟨_, s.answered p serial feed boot lsn,
      exec_partnerHelloReceive_answer serial feed boot lsn hp hcmd,
      State.finish_done (congrArg Front.cmds (State.setSender_fe ..)) hc hk _ _ _, ?answer, rfl, rfl, rfl, rfl, rfl, rfl⟩,
    fun s k p c hp hcmd hc hk => ⟨_, exec_partnerHelloTimeout hp hcmd,
      State.finish_done (congrArg Front.cmds (State.setSender_fe ..)) hc hk _ _ _, ?timeout⟩⟩
  case sender =>
    obtain ⟨x, hx, hxq, hxd, -⟩ := State.partnerSend_out ((u.setPhase (cmdKey r q) .running).setSender
      (some (c.senderPair (cmdKey r q)))) (c.senderPair (cmdKey r q)) (u.hello (u.rel.ackLsn.getD noLsn))
    refine ⟨_, c.senderPair (cmdKey r q), x, exec_partnerPairSender h hop hqp hnone hpos hle hup, ?_, rfl, rfl, rfl, rfl,
      rfl, hx.trans ?_, hxq, hxd⟩
    · exact State.isRunning_fe (s := u.setPhase (cmdKey r q) .running) rfl (h.running rfl)
    · rw [State.setSender_io, State.setPhase_io]
  case receiver => rw [State.finish_rel, State.setReceiver_receiver]
  case unpairCmds => rw [(State.unpairReceiver_keeps ..).1, State.setSender_fe]
  case unpair => rw [State.finish_rel, (State.unpairReceiver_keeps ..).2, State.setSender_sender]
  case answer => rw [State.finish_rel, State.setSender_sender]
  case timeout => rw [State.finish_rel, State.setSender_sender]

end Sys2Proof.Machine


/-! ## The stream of records between partners (R291, R323, R327) -/

namespace Sys2Proof.Machine

section
variable {s : State} {p : Pair}

/-- Records sent one after another stand behind the accesses there were, in their order. -/
theorem State.each_partnerSend_data {α : Type} (p : Pair) (f : α → Bytes) (l : List α) (s : State) :
    (s.each l fun s a => s.partnerSend p (f a)).io.out.map (·.data) = s.io.out.map (·.data) ++ l.map f := by
  induction l generalizing s with
  | nil => exact (List.append_nil _).symm
  | cons a l ih =>
    have hone : (s.partnerSend p (f a)).io.out.map (·.data) = s.io.out.map (·.data) ++ [f a] := List.map_append
    refine (ih (s.partnerSend p (f a))).trans ?_
    rw [hone, List.append_assoc, List.map_cons, List.singleton_append]

/-! ### Sending -/

/-- The RDMA WRITE that carries a record to the partner's intake. -/
def recordWrite (p : Pair) (addr : Nat) (r : VRec) : Xfer :=
  { id := 0, use := .partner, part := p.part, qp := some p.qp, addr := addr, len := (r.header ++ r.body).length
    data := r.header ++ r.body }

theorem exec_partnerRecordWrite {rec_ : VRec} (hp : s.rel.sender = some p) (hact : p.active = true)
    (hrec : s.rel.vault.own.find? (fun r => r.lsn == p.next) = some rec_) (hfree : rec_.size ≤ p.free)
    (hkind : rec_.kind ≠ 3) :
    exec .partnerRecordWrite s = .next ((s.freeVal.2.setSender
      (some { p with next := p.next + 1, free := p.free - rec_.size })).issue (recordWrite p s.freeVal.1 rec_)) := by
  have hroom : (!p.active || decide (p.free < rec_.size)) = false := by simp [hact, hfree]
  change execPartnerRecordWrite _ = _
  simp only [execPartnerRecordWrite, hp, hrec, hroom, hkind, Bool.false_eq_true, if_false, recordWrite]

theorem partnerAckReceive_acks {step lsn free : Nat} (hp : s.rel.sender = some p) (hact : p.active = true)
    (hlsn : lsn ≠ noLsn) :
    ∃ t, exec (.partnerAckReceive step lsn free) s = .next t
      ∧ t.rel.sender = some { p with acked := some (step, lsn), free := free - s.sentPast p lsn }
      ∧ t.rel.ackLsn = some (Nat.max lsn (s.rel.ackLsn.getD 0)) := by
  change ∃ t, execPartnerAckReceive _ _ _ _ = _ ∧ _
  simp only [execPartnerAckReceive, hp, hact, hlsn, Bool.not_true, Bool.false_eq_true, if_false]
  exact ⟨_, rfl, rfl, rfl⟩

theorem partnerStall_raises {step lsn : Nat} (hp : s.rel.sender = some p) (hact : p.active = true)
    (hacked : p.acked = some (step, lsn)) (hopen : lsn + 1 < p.next) :
    ∃ t, exec .partnerStall s = .next t ∧ t.hasCause cPartnerStall := by
  refine ⟨s.causeAll cPartnerStall, ?_, State.causeAll_hasCause s _⟩
  change execPartnerStall _ = _
  simp only [execPartnerStall, hp, hact, hacked, decide_eq_true hopen, Bool.and_self, if_true]

theorem exec_partnerRestoreRequest {serial : Nat} (hp : s.rel.receiver = some p) (hup : s.qpUp p.qp = true) :
    exec (.partnerRestoreRequest serial) s = .next (s.each
      (s.rel.vault.log.filter fun r => r.source == 1 && r.serial == serial && r.durable)
      fun s r => s.partnerSend p (r.header ++ r.body)) := by
  change execPartnerRestoreRequest _ _ = _
  simp only [execPartnerRestoreRequest, hp, hup, Bool.not_true, Bool.false_eq_true, if_false]

/-! ### Receiving -/

/-- The record of a partner as the vault keeps it. -/
def VRec.ofSender (r : VRec) (serial : Nat) : VRec := { r with source := 1, serial := serial }

/-- The pairing once its one record of `n` bytes is in the intake. -/
def Pair.entered (p : Pair) (b : Bytes) (n : Nat) : Pair :=
  { p with inbox := [(b, true)], next := p.next + n, free := p.free - n }

section
variable {b : Bytes} {r : VRec}

/-- A record waits outside the intake while it lacks room there. -/
theorem State.intakeStep_noRoom (hp : s.rel.receiver = some p) (hin : p.inbox = [(b, false)]) (hb : parseRec b = some r)
    (hfull : p.free < (r.ofSender p.serial).size) : s.intakeStep = s := by
  simp only [State.intakeStep, hp, hin, hb, Bool.not_false, if_true]
  exact if_pos hfull

/-- With room there, and no line of the place cached by the host, it goes into the intake. -/
theorem State.intakeStep_enters (hp : s.rel.receiver = some p) (hin : p.inbox = [(b, false)]) (hb : parseRec b = some r)
    (hroom : (r.ofSender p.serial).size ≤ p.free) (hlines : s.intakeLines p b.length = []) :
    s.intakeStep = (s.intakePut p b).setReceiver (some (p.entered b (r.ofSender p.serial).size)) := by
  simp only [State.intakeStep, hp, hin, hb, hlines, Bool.not_false, List.isEmpty_nil, Bool.not_true, Bool.false_eq_true,
    if_false, if_true]
  exact if_neg (Nat.not_lt.mpr hroom)

/-- From the intake it goes into the vault log, where that need not wait. -/
theorem State.intakeStep_appends_record (hp : s.rel.receiver = some p) (hin : p.inbox = [(b, true)])
    (hb : parseRec b = some r) (hvault : s.rel.vault.mustWait (r.ofSender p.serial).size = false) :
    s.intakeStep.rel.receiver = some { p with inbox := [] }
      ∧ s.intakeStep.rel.vault.log
        = s.rel.vault.log ++ [{ r.ofSender p.serial with unit := s.rel.vault.next }] := by
  have hwait : ¬ s.rel.vault.mustWait (VRec.size { r with source := 1, serial := p.serial }) = true := by
    rw [show (VRec.size { r with source := 1, serial := p.serial }) = (r.ofSender p.serial).size from rfl, hvault]
    exact Bool.false_ne_true
  simp only [State.intakeStep, hp, hin, hb, Bool.not_true, Bool.false_eq_true, if_false, if_neg hwait]
  exact ⟨rfl, rfl⟩

end

/-- A pairing's inbox of one record makes two tries at it: into the intake, and from there into the vault. -/
theorem State.intakeGo_one {x : Bytes × Bool} (hp : s.rel.receiver = some p) (hin : p.inbox = [x]) :
    s.intakeGo = s.intakeStep.intakeStep := by
  simp only [State.intakeGo, hp, hin]
  rfl

/-- A record that arrives at an empty inbox stands there first. -/
def State.arrived (s : State) (p : Pair) (b : Bytes) : State :=
  s.mounted.setReceiver (some { p with inbox := [(b, false)] })

theorem exec_partnerRecordArrival {b : Bytes} {r : VRec} (hp : s.rel.receiver = some p) (hb : parseRec b = some r)
    (hact : p.active = true) (hin : p.inbox = []) :
    exec (.partnerRecordArrival b) s = .next (s.arrived p b).intakeGo := by
  change execPartnerRecordArrival _ _ = _
  simp only [execPartnerRecordArrival, hp, hb, hact, hin, Option.isNone_some, Bool.not_true, Bool.or_self,
    Bool.false_eq_true, if_false, List.nil_append, State.arrived]

end

/-- Settles O21: what is sent by `State.partnerSend`, what arrives by the two tries of the intake at it. -/
theorem partnerStream : Obligations.PartnerStream := by
  refine ⟨fun s p rec_ hp hact hrec hfree hkind =>
      ⟨_, { recordWrite p s.freeVal.1 rec_ with id := s.io.next }, exec_partnerRecordWrite hp hact hrec hfree hkind, rfl, rfl,
        rfl, rfl⟩, fun s step lsn free p => partnerAckReceive_acks,
    fun s b p rec_ r' hp hb hr hact hin hroom hlines hvault => ⟨_, exec_partnerRecordArrival hp hb hact hin, ?appends⟩,
    fun s b p rec_ r' hp hb hr hact hin hfull => ⟨_, exec_partnerRecordArrival hp hb hact hin, ?waits⟩,
    fun s p step lsn => partnerStall_raises,
    fun s serial p hp hup => ⟨_, exec_partnerRestoreRequest hp hup, State.each_partnerSend_data ..⟩⟩
  case appends =>
    subst hr
    have henter := State.intakeStep_enters (s := s.arrived p b) (b := b) rfl rfl hb hroom hlines
    rw [State.intakeGo_one (s := s.arrived p b) (x := (b, false)) rfl rfl, henter]
    have hvlt : ∀ x, (((s.arrived p b).intakePut { p with inbox := [(b, false)] } b).setReceiver x).rel.vault
        = s.mounted.rel.vault := by
      intro x
      rw [State.setReceiver_rel_vault, State.intakePut_rel]
      rfl
    obtain ⟨hrec, hlog⟩ := State.intakeStep_appends_record (b := b) (r := rec_)
      (p := p.entered b (rec_.ofSender p.serial).size) (State.setReceiver_receiver ..) rfl hb
      ((congrArg (Vault.mustWait · _) (hvlt _)).trans hvault)
    refine ⟨hlog.trans ?_, hrec.trans ?_⟩
    · rw [hvlt]
      rfl
    · cases p
      cases hin
      rfl
  case waits =>
    subst hr
    have hstay := State.intakeStep_noRoom (s := s.arrived p b) (b := b) rfl rfl hb hfull
    rw [State.intakeGo_one (s := s.arrived p b) (x := (b, false)) rfl rfl, hstay, hstay]
    exact ⟨rfl, rfl⟩

end Sys2Proof.Machine


/-! ## The mailbox of the security processor (R340, R341, R344, R348 to R351) -/

namespace Sys2Proof.Machine

@[simp] theorem length_natLe (k n : Nat) : (natLe k n).length = k := by
  induction k generalizing n with
  | zero => rfl
  | succ k ih => simp [natLe, ih]

@[simp] theorem length_zeros (n : Nat) : (zeros n).length = n := List.length_replicate

section
variable {s : State} {len : Nat} {go : State → State}

/-- A command of its own length runs while none is under way. -/
theorem State.mailbox_runs (hb : s.sec.busy = false) (hl : s.mbxLen = len) : s.mailbox len go = go s := by
  simp [State.mailbox, hb, hl]

/-- One of another length ends with BAD_LEN. -/
theorem State.mailbox_badLen (hb : s.sec.busy = false) (hl : s.mbxLen ≠ len) :
    s.mailbox len go = s.mbxEnd mbBadLen [] := by
  simp [State.mailbox, hb, hl]

/-! ### Commands that answer at once -/

theorem getInfo_answers (hb : s.sec.busy = false) (hl : s.mbxLen = 0) :
    ∃ t, exec .getInfo s = .next t ∧ t.sec.busy = false ∧ t.sec.status = mbOk ∧ t.sec.out.length = 64
      ∧ t.sec.out.take 16 = natLe 16 s.fuse.serial ∧ (t.sec.out.drop 16).take 8 = fit 8 s.fuse.order := by
  refine ⟨_, congrArg Host.Outcome.next (State.mailbox_runs hb hl), rfl, rfl, ?_, ?_, ?_⟩
  · simp [State.mbxEnd, fit_length]
  · simp only [State.mbxEnd, List.append_assoc]
    exact List.take_left' (length_natLe ..)
  · simp only [State.mbxEnd, List.append_assoc]
    rw [List.drop_left' (length_natLe ..)]
    exact List.take_left' (fit_length ..)

theorem getCert_answers (hb : s.sec.busy = false) (hl : s.mbxLen = 1) (hi : fld (s.mbxIn 1) 0 1 ≤ 4) :
    exec .getCert s = .next (s.mbxEnd mbOk ((s.certificate (fld (s.mbxIn 1) 0 1)).take 4096)) :=
  congrArg Host.Outcome.next ((State.mailbox_runs hb hl).trans (if_neg (Nat.not_lt.mpr hi)))

theorem getLog_answers (hb : s.sec.busy = false) (hl : s.mbxLen = 4) (hi : fld (s.mbxIn 4) 0 4 < 4096) :
    exec .getLog s = .next (s.mbxEnd mbOk ((s.sec.log.drop (fld (s.mbxIn 4) 0 4)).take 85).flatten) :=
  congrArg Host.Outcome.next ((State.mailbox_runs hb hl).trans (if_neg (Nat.not_le.mpr hi)))

/-! ### Commands that take long -/

theorem fwStage_begins {b : Rd} (hb : s.sec.busy = false) (hl : s.mbxLen = 12) (hn : s.imgLen ≤ 2 ^ 25)
    (hr : s.imgLost b = false) : exec (.fwStage b) s = .next (s.mbxLong 0x10 (s.stageWhy b.data) [] b.data) := by
  refine congrArg Host.Outcome.next ((State.mailbox_runs hb hl).trans ((if_neg (Nat.not_lt.mpr hn)).trans (if_neg ?_)))
  simp [hr]

theorem packInstall_begins {b : Rd} (hb : s.sec.busy = false) (hl : s.mbxLen = 12) (hn : s.imgLen ≤ 2 ^ 23)
    (hr : s.imgLost b = false) : exec (.packInstall b) s = .next (s.mbxLong 0x20 (s.packWhy b.data) [] b.data) := by
  refine congrArg Host.Outcome.next ((State.mailbox_runs hb hl).trans ((if_neg (Nat.not_lt.mpr hn)).trans (if_neg ?_)))
  simp [hr]

theorem fwCommit_begins (hb : s.sec.busy = false) (hl : s.mbxLen = 0) (he : s.updateEn = true)
    (hlt : s.fuse.svn < s.fwSvn) : exec .fwCommit s = .next (s.mbxLong 0x11 mbOk [] []) := by
  refine congrArg Host.Outcome.next ((State.mailbox_runs hb hl).trans ((if_neg ?_).trans (if_neg (Nat.not_le.mpr hlt))))
  simp [he]

/-! ### Their ends -/

/-- A command whose checks passed takes effect with its end. -/
theorem mailboxCommandDone_ok {out : Bytes} (h : s.sec.result = some (mbOk, out)) :
    exec .mailboxCommandDone s = .next (s.longDone.mbxEnd mbOk out) := by
  change execMailboxCommandDone s = _
  simp only [execMailboxCommandDone, h, if_true]

/-- One whose checks failed has no effect but its status. -/
theorem mailboxCommandDone_failed {n : Nat} {out : Bytes} (h : s.sec.result = some (n, out)) (hn : n ≠ mbOk) :
    exec .mailboxCommandDone s = .next (s.mbxEnd n out) := by
  change execMailboxCommandDone s = _
  simp only [execMailboxCommandDone, h, hn, if_false]

theorem State.longDone_stage (hc : s.sec.code = 0x10) (hslot : s.sec.bootSlot = 0) :
    s.longDone = { s with sec := { s.sec with slotB := s.sec.img, isPending := true } } := by
  rw [State.longDone, if_pos hc, State.stageDone, if_pos hslot]

theorem State.longDone_commit (hc : s.sec.code = 0x11) : s.longDone = s.blow (s.fwSvn - s.fuse.svn) := by
  rw [State.longDone, if_neg (by rw [hc]; decide), if_pos hc]

end

/-- Settles O50: a command is one `State.mailbox`, and MAILBOX_COMMAND_DONE gives what it left. -/
theorem mailbox : Obligations.Mailbox := by
  refine ⟨fun s => getInfo_answers, fun s hb hl hi => ⟨_, getCert_answers hb hl hi, rfl, rfl⟩,
    fun s hb hl hi => ⟨_, getLog_answers hb hl hi, rfl, rfl⟩,
    fun s hb hl => ⟨_, congrArg Host.Outcome.next (State.mailbox_runs hb hl), rfl, rfl⟩,
    fun s b hb hl hn hr => ⟨_, fwStage_begins hb hl hn hr, rfl, rfl, rfl⟩,
    fun s hb hl he hlt => ⟨_, fwCommit_begins hb hl he hlt, rfl, rfl, rfl, rfl⟩,
    fun s hb hl => ⟨_, congrArg Host.Outcome.next (State.mailbox_runs hb hl), rfl, rfl⟩,
    fun s b hb hl hn hr => ⟨_, packInstall_begins hb hl hn hr, rfl, rfl, rfl⟩,
    fun s out h hc => ⟨_, mailboxCommandDone_ok h, rfl, rfl, rfl⟩,
    fun s out h hc hslot => ⟨_, mailboxCommandDone_ok h, ?staged⟩,
    fun s n out h hn => ⟨_, mailboxCommandDone_failed h hn, rfl, rfl, rfl, rfl, rfl⟩,
    fun s hb hl => ⟨_, congrArg Host.Outcome.next (State.mailbox_badLen hb hl), rfl, rfl⟩⟩
  case staged =>
    rw [State.longDone_stage hc hslot]
    exact ⟨rfl, rfl, rfl, rfl⟩

end Sys2Proof.Machine


/-! ## The cold reset: what it leaves, and which slot boots (R332, R343, R349, R350) -/

namespace Sys2Proof.Machine

/-! ### Bundles and slots -/

/-- What a boot goes by: the slot booted, the slots' bundles, and whether it fell back. -/
def Sec.slots (v : Sec) : Nat × Bytes × Bytes × Bool := (v.bootSlot, v.slotA, v.slotB, v.fallback)

theorem State.extend_slots (s : State) (i e : Nat) (info d : Bytes) : (s.extend i e info d).sec.slots = s.sec.slots := rfl

/-- A measurement leaves the slots alone. -/
theorem State.measureBoot_slots (s : State) : s.measureBoot.sec.slots = s.sec.slots := by
  unfold State.measureBoot
  refine (State.extend_slots ..).trans ((State.each_inv (·.sec.slots) _ _ (fun u x => State.extend_slots ..) _).trans ?_)
  exact (State.extend_slots ..).trans (State.extend_slots ..)

theorem State.measureBoot_sec (s : State) : s.measureBoot.sec.bootSlot = s.sec.bootSlot
    ∧ s.measureBoot.sec.slotA = s.sec.slotA ∧ s.measureBoot.sec.slotB = s.sec.slotB
    ∧ s.measureBoot.sec.fallback = s.sec.fallback := by
  simpa only [Sec.slots, Prod.mk.injEq] using s.measureBoot_slots

theorem State.measureBoot_pwr (s : State) : s.measureBoot.pwr = s.pwr :=
  pwr_of (State.measureBoot_same (.refl _ _) rfl)

theorem State.measureBoot_fuse (s : State) : s.measureBoot.fuse = s.fuse :=
  fuse_of (State.measureBoot_same (.refl _ _) rfl)

/-- A bundle depends on the slots alone. -/
theorem State.bundle_congr {s t : State} (ha : t.sec.slotA = s.sec.slotA) (hb : t.sec.slotB = s.sec.slotB) (slot : Nat) :
    t.bundle slot = s.bundle slot := by
  simp only [State.bundle, ha, hb]

/-- A slot boots by the slots' contents, the root hash and the floor. -/
theorem State.slotBoots_congr {s t : State} (ha : t.sec.slotA = s.sec.slotA) (hb : t.sec.slotB = s.sec.slotB)
    (hroot : t.fuse.rootHash = s.fuse.rootHash) {slot : Nat} (h : s.slotBoots slot = true)
    (hfloor : t.fuse.svn ≤ bundleSvn (s.bundle slot)) : t.slotBoots slot = true := by
  simp only [State.slotBoots, State.bundleGood, State.bundle_congr ha hb, ha, hroot, Bool.and_eq_true,
    decide_eq_true_eq] at h ⊢
  exact ⟨h.1, hfloor⟩

theorem State.slotBoots_floor {s : State} {slot : Nat} (h : s.slotBoots slot = true) :
    s.fuse.svn ≤ bundleSvn (s.bundle slot) := by
  rw [State.slotBoots, Bool.and_eq_true, decide_eq_true_eq] at h
  exact h.2

/-! ### Booting from a slot -/

/-- The slot a boot tries, with PENDING clear. -/
def State.tries (s : State) (slot : Nat) (fallback : Bool) : State :=
  { s with sec := { s.sec with bootSlot := slot, isPending := false, fallback := fallback } }

section
variable {s : State} {slot : Nat}

theorem State.bootFrom_of_boots (h : s.slotBoots slot = true) :
    s.bootFrom slot = (s.tries slot s.sec.fallback).measureBoot := by
  rw [State.bootFrom, if_pos h]
  rfl

/-- What boots is not below the floor; where nothing boots the module is in BOOT_FAILED. -/
theorem State.bootFrom_floor (s : State) (slot : Nat) :
    (s.bootFrom slot).pwr.st = 6 ∨ (s.bootFrom slot).pwr.st = s.pwr.st
      ∧ (s.bootFrom slot).fuse.svn ≤ bundleSvn ((s.bootFrom slot).bundle (s.bootFrom slot).sec.bootSlot) := by
  have hboots (u : State) (x : Nat) (h : u.slotBoots x = true) (hx : u.sec.bootSlot = x) :
      u.measureBoot.pwr.st = u.pwr.st
        ∧ u.measureBoot.fuse.svn ≤ bundleSvn (u.measureBoot.bundle u.measureBoot.sec.bootSlot) := by
    obtain ⟨hslot, ha, hb, -⟩ := u.measureBoot_sec
    rw [u.measureBoot_pwr, u.measureBoot_fuse, hslot, hx, State.bundle_congr ha hb]
    exact ⟨rfl, State.slotBoots_floor h⟩
  unfold State.bootFrom
  dsimp only
  split
  · next h => exact .inr (hboots (s.tries slot s.sec.fallback) slot h rfl)
  · split
    · next h => exact .inr (hboots (s.tries (1 - slot) true) (1 - slot) h rfl)
    · exact .inl rfl

theorem State.bootFrom_fuse (s : State) (slot : Nat) : (s.bootFrom slot).fuse = s.fuse :=
  fuse_of (State.bootFrom_same (.refl _ _) _ rfl rfl)

end

/-! ### A FW_COMMIT that a reset breaks off -/

/-- It has blown some of the positions up to FW_SVN. -/
theorem State.breakCommit_svn {s : State} (hc : s.sec.code = 0x11) (h : s.fuse.svn ≤ s.fwSvn) :
    s.fuse.svn ≤ s.breakCommit.fuse.svn ∧ s.breakCommit.fuse.svn ≤ s.fwSvn := by
  have hmod (v : Nat) : v % (s.fwSvn - s.fuse.svn + 1) ≤ s.fwSvn - s.fuse.svn := Nat.le_of_lt_succ (Nat.mod_lt _ (by omega))
  have hblow (v : Nat) : s.fuse.svn + Nat.min (v % (s.fwSvn - s.fuse.svn + 1)) (63 - s.fuse.svn) ≤ s.fwSvn := by
    have hle : Nat.min (v % (s.fwSvn - s.fuse.svn + 1)) (63 - s.fuse.svn) ≤ v % (s.fwSvn - s.fuse.svn + 1) :=
      Nat.min_le_left ..
    have := hmod v
    omega
  rw [State.breakCommit, if_pos hc]
  exact ⟨Nat.le_add_right .., hblow _⟩

theorem State.breakCommit_rootHash (s : State) : s.breakCommit.fuse.rootHash = s.fuse.rootHash := by
  unfold State.breakCommit
  split <;> rfl

theorem State.breakCommit_sec (s : State) : s.breakCommit.sec = s.sec :=
  sec_of (State.breakCommit_same (.refl _ _) rfl rfl)

/-! ### The cold reset up to the boot -/

/-- What a cold reset starts from: what outlives the loss of the rails, BOOT counted, BOOTING, a new key of tier-1. -/
def State.coldBase (s : State) : State :=
  let k := s.breakCommit.kept
  let t := { k with
    rel := { k.rel with boots := (k.rel.boots + 1) % 2 ^ 32 }
    net := { k.net with noCable := s.net.noCable }
    sec := { k.sec with fallback := false }
    pwr := { k.pwr with st := 2, flushCause := s.pwr.flushCause, addrSel := s.pwr.addrSel, modLow := s.pwr.modLow
                        perst := s.pwr.perst, bank := { k.pwr.bank with volts := s.pwr.bank.volts } } }
  { t.freeVal.2 with tiers := { t.freeVal.2.tiers with t1Key := t.freeVal.1 } }

/-- With what the state sensors tell of it. -/
def State.coldPowered (s : State) : State :=
  let t := (s.coldBase.pldmIf 20 s.pwr.st 2).pldmIf 21 s.emergCause 0
  if s.pwr.bank.st = 0 then t else (t.pldm 23 0).raise (coreSource 24)

/-- What is done after the boot: the sensors tell, and in BOOTING the tile groups ask to be woken. -/
def State.bootTold (s : State) (sense : Nat) : State :=
  let t := (s.pldmIf 20 2 s.pwr.st).pldmIf 22 sense s.bootSense
  if t.pwr.st = 2 then t.askWake t.groups else t

theorem State.coldFrom_eq (s : State) (slot : Nat) :
    s.coldFrom slot = ((s.coldPowered.bootFrom slot).bootTold s.bootSense).retestT1 s.lostT1 := rfl

/-- Parts of the state that only the start of a cold reset and its boot write. -/
def coldFields (f : Field) : Bool :=
  f == .mem || f == .regs || f == .fe || f == .ream || f == .posts || f == .slots || f == .tiles || f == .rel || f == .fuse
    || f == .sec || f == .pwr

theorem ne_sec_of_not_cold (f : Field) (h : coldFields f = false) : (f == .sec) = false := by
  rw [beq_eq_false_iff_ne]
  rintro rfl
  cases h

theorem State.coldPowered_same {m : Field → Bool} (hm : ∀ f, coldFields f = false → m f = false) (s : State) :
    Same m s.coldBase s.coldPowered := by
  have h (f : Field) (hf : coldFields f = false := by rfl) : m f = false := hm f hf
  unfold State.coldPowered
  refine Same.ite ?_ (State.raise_same (State.pldm_same ?_ _ _ (h _)) _ (h _) (h _) (h _) (h _) (h _) (h _))
  all_goals exact State.pldmIf_same (State.pldmIf_same (.refl _ _) _ _ _ (h _)) _ _ _ (h _)

/-- The power block with another queue of the wake governor. -/
def Pwr.requeue (p : Pwr) (queue : List (Nat × Bool)) (asked : FMap Nat) : Pwr := { p with queue := queue, asked := asked }

/-- A wake request changes the governor's queue alone, where no group is being gated. -/
theorem State.askWake_of_ungated (gs : List Nat) {s : State} (h : s.pwr.gated = []) :
    ∃ q a, s.askWake gs = { s with pwr := s.pwr.requeue q a } := by
  induction gs generalizing s with
  | nil => exact ⟨_, _, rfl⟩
  | cons g gs ih =>
    obtain ⟨q, a, hone⟩ : ∃ q a, s.askWake1 g = { s with pwr := s.pwr.requeue q a } := by
      have hdrop : s.dropGating g = s := by
        rw [State.dropGating, h]
        rfl
      unfold State.askWake1
      rw [hdrop]
      dsimp only
      split <;> exact ⟨_, _, rfl⟩
    obtain ⟨q', a', hrest⟩ := ih (s := s.askWake1 g) (by rw [hone]; exact h)
    refine ⟨q', a', ?_⟩
    change (s.askWake1 g).askWake gs = _
    rw [hrest, hone]
    rfl

/-- A boot changes the power state alone of the power block. -/
theorem State.bootFrom_pwr (s : State) (slot : Nat) : ∃ n, (s.bootFrom slot).pwr = { s.pwr with st := n } := by
  unfold State.bootFrom
  dsimp only
  split
  · exact ⟨s.pwr.st, State.measureBoot_pwr _⟩
  · split
    · exact ⟨s.pwr.st, State.measureBoot_pwr _⟩
    · exact ⟨6, rfl⟩

theorem State.bootTold_keeps {m : Field → Bool} (hm : ∀ f, coldFields f = false → m f = false) (hp : m .pwr = false)
    {s : State} (h : s.pwr.gated = []) (sense : Nat) :
    Same m s (s.bootTold sense) ∧ ∃ q a, (s.bootTold sense).pwr = s.pwr.requeue q a := by
  have htold (m : Field → Bool) (hm : m .mgmt = false) :
      Same m s ((s.pldmIf 20 2 s.pwr.st).pldmIf 22 sense s.bootSense) :=
    State.pldmIf_same (State.pldmIf_same (.refl _ _) _ _ _ hm) _ _ _ hm
  have hpwr : ((s.pldmIf 20 2 s.pwr.st).pldmIf 22 sense s.bootSense).pwr = s.pwr := pwr_of (htold _ rfl)
  unfold State.bootTold
  dsimp only
  split
  · obtain ⟨q, a, hwake⟩ := State.askWake_of_ungated
      ((s.pldmIf 20 2 s.pwr.st).pldmIf 22 sense s.bootSense).groups (by rw [hpwr]; exact h)
    rw [hwake]
    exact ⟨same_mk.mpr (SameParts.upd_pwr (htold _ (hm _ rfl)) hp), q, a, congrArg (Pwr.requeue · q a) hpwr⟩
  · exact ⟨htold _ (hm _ rfl), _, _, hpwr⟩

/-- After the boot of a cold reset those parts are as the boot left them, the power block but for the governor's queue
among them. -/
theorem State.coldFrom_afterBoot {m : Field → Bool} (hm : ∀ f, coldFields f = false → m f = false) (hp : m .pwr = false)
    (s : State) (slot : Nat) :
    Same m (s.coldPowered.bootFrom slot) (s.coldFrom slot)
      ∧ ∃ q a, (s.coldFrom slot).pwr = (s.coldPowered.bootFrom slot).pwr.requeue q a := by
  have hg : (s.coldPowered.bootFrom slot).pwr.gated = [] := by
    obtain ⟨n, hn⟩ := s.coldPowered.bootFrom_pwr slot
    rw [hn, (s.coldPowered_same fun _ => id).pwr rfl]
    rfl
  have hretest (m : Field → Bool) (hm : ∀ f, coldFields f = false → m f = false) (t : State) :
      Same m t (t.retestT1 s.lostT1) :=
    State.retestT1_same (.refl _ _) _ (hm _ rfl) (hm _ rfl) (hm _ rfl) (hm _ rfl) (hm _ rfl) (hm _ rfl) (hm _ rfl)
  obtain ⟨hsame, q, a, hpwr⟩ := State.bootTold_keeps hm hp hg s.bootSense
  rw [s.coldFrom_eq]
  exact ⟨hsame.trans (hretest m hm _), q, a, ((hretest _ (fun _ => id) _).pwr rfl).trans hpwr⟩

/-- The power state of a cold reset is its boot's. -/
theorem State.coldFrom_st (s : State) (slot : Nat) : (s.coldFrom slot).pwr.st = (s.coldPowered.bootFrom slot).pwr.st := by
  obtain ⟨-, q, a, h⟩ := s.coldFrom_afterBoot (m := fun f => f == .sec) ne_sec_of_not_cold rfl slot
  rw [h]
  rfl

/-- The reset pin is as it was. -/
theorem State.coldFrom_modLow (s : State) (slot : Nat) : (s.coldFrom slot).pwr.modLow = s.pwr.modLow := by
  obtain ⟨-, q, a, h⟩ := s.coldFrom_afterBoot (m := fun f => f == .sec) ne_sec_of_not_cold rfl slot
  obtain ⟨n, hn⟩ := s.coldPowered.bootFrom_pwr slot
  rw [h, hn, (s.coldPowered_same fun _ => id).pwr rfl]
  rfl

/-- Those that the boot itself leaves alone too. -/
def keptFields (f : Field) : Bool := coldFields f && !(f == .pwr) && !(f == .sec)

theorem State.coldFrom_base (s : State) (slot : Nat) : Same keptFields s.coldBase (s.coldFrom slot) := by
  have hm (f : Field) (h : coldFields f = false) : keptFields f = false := by simp [keptFields, h]
  exact (s.coldPowered_same hm).trans
    ((State.bootFrom_same (.refl _ _) slot rfl rfl).trans (s.coldFrom_afterBoot hm rfl slot).1)

/-! ### Which slot a cold reset boots -/

theorem State.coldFrom_sec (s : State) (slot : Nat) : (s.coldFrom slot).sec = (s.coldPowered.bootFrom slot).sec :=
  (s.coldFrom_afterBoot (m := fun f => f == .sec) ne_sec_of_not_cold rfl slot).1.sec rfl

theorem State.coldFrom_fuse (s : State) (slot : Nat) : (s.coldFrom slot).fuse = s.breakCommit.fuse :=
  (s.coldFrom_base slot).fuse rfl

theorem State.coldPowered_st (s : State) : s.coldPowered.pwr.st = 2 :=
  congrArg Pwr.st ((s.coldPowered_same fun _ => id).pwr rfl)

/-- What booted is not below the floor, or the module is in BOOT_FAILED. -/
theorem State.coldFrom_floor (s : State) (slot : Nat) :
    (s.coldFrom slot).pwr.st = 6 ∨ (s.coldFrom slot).pwr.st = 2
      ∧ (s.coldFrom slot).fuse.svn ≤ bundleSvn ((s.coldFrom slot).bundle (s.coldFrom slot).sec.bootSlot) := by
  have hsec := s.coldFrom_sec slot
  have hfuse : (s.coldFrom slot).fuse = (s.coldPowered.bootFrom slot).fuse := by
    rw [s.coldFrom_fuse, State.bootFrom_fuse, (s.coldPowered_same fun _ => id).fuse rfl]
    rfl
  have hst := s.coldFrom_st slot
  rw [hst, hfuse, State.bundle_congr (congrArg Sec.slotA hsec) (congrArg Sec.slotB hsec), hsec]
  exact (s.coldPowered.bootFrom_floor slot).imp_right fun h => ⟨h.1.trans s.coldPowered_st, h.2⟩

theorem State.coldBase_slots (s : State) :
    s.coldBase.sec.slotA = s.sec.slotA ∧ s.coldBase.sec.slotB = s.sec.slotB := by
  rw [← s.breakCommit_sec]
  exact ⟨rfl, rfl⟩

/-- A slot that booted boots again, where the floor has not passed it. -/
theorem State.coldFrom_boots {s : State} {slot : Nat} (h : s.slotBoots slot = true)
    (hfloor : s.breakCommit.fuse.svn ≤ bundleSvn (s.bundle slot)) :
    (s.coldFrom slot).pwr.st = 2 ∧ (s.coldFrom slot).sec.bootSlot = slot := by
  have hsec : s.coldPowered.sec = s.coldBase.sec := (s.coldPowered_same fun _ => id).sec rfl
  have hfuse : s.coldPowered.fuse = s.breakCommit.fuse := (s.coldPowered_same fun _ => id).fuse rfl
  obtain ⟨hslotA, hslotB⟩ := s.coldBase_slots
  have hboots : s.coldPowered.slotBoots slot = true := by
    refine State.slotBoots_congr (s := s) ?_ ?_ (by rw [hfuse, s.breakCommit_rootHash]) h (by rw [hfuse]; exact hfloor)
    · rw [hsec, hslotA]
    · rw [hsec, hslotB]
  rw [s.coldFrom_st, s.coldFrom_sec, State.bootFrom_of_boots hboots,
    State.measureBoot_pwr, (State.measureBoot_sec _).1]
  exact ⟨s.coldPowered_st, rfl⟩

end Sys2Proof.Machine


/-! ## The rollback floor FUSED_SVN (R350) -/

namespace Sys2Proof.Machine

section
variable {s : State}

theorem fwCommit_done (hb : s.sec.busy = false) (hl : s.mbxLen = 0) (he : s.updateEn = true)
    (heq : s.fwSvn = s.fuse.svn) : exec .fwCommit s = .next (s.mbxEnd mbOk []) := by
  refine congrArg Host.Outcome.next ((State.mailbox_runs hb hl).trans ((if_neg ?_).trans (if_pos (Nat.le_of_eq heq))))
  simp [he]

theorem State.fwSvn_lt (s : State) : s.fwSvn < 64 := by
  unfold State.fwSvn bundleSvn
  split
  · decide
  · exact Nat.mod_lt _ (by decide)

/-- The end of a FW_COMMIT has blown the positions up to FW_SVN. -/
theorem State.blow_fwSvn (h : s.fuse.svn ≤ s.fwSvn) : (s.blow (s.fwSvn - s.fuse.svn)).fuse.svn = s.fwSvn := by
  have hlt := s.fwSvn_lt
  have hmin : Nat.min (s.fwSvn - s.fuse.svn) (63 - s.fuse.svn) = s.fwSvn - s.fuse.svn := Nat.min_eq_left (by omega)
  change s.fuse.svn + Nat.min (s.fwSvn - s.fuse.svn) (63 - s.fuse.svn) = s.fwSvn
  rw [hmin]
  omega

/-- The checks of a bundle below the floor fail. -/
theorem State.stageWhy_below {b : Bytes} (h : bundleSvn b < s.fuse.svn) : s.stageWhy b ≠ mbOk := by
  unfold State.stageWhy
  rw [if_pos h]
  split <;> decide

theorem fwStage_below {b : Rd} (hb : s.sec.busy = false) (hl : s.mbxLen = 12) (hn : s.imgLen ≤ 2 ^ 25)
    (h : bundleSvn b.data < s.fuse.svn) :
    ∃ t st, exec (.fwStage b) s = .next t ∧ t.sec.result = some (st, []) ∧ st ≠ mbOk := by
  cases hr : s.imgLost b with
  | true =>
    exact ⟨_, mbXfer, congrArg Host.Outcome.next ((State.mailbox_runs hb hl).trans
      ((if_neg (Nat.not_lt.mpr hn)).trans (if_pos hr))), rfl, by decide⟩
  | false => exact ⟨_, _, fwStage_begins hb hl hn hr, rfl, State.stageWhy_below h⟩

/-! ### The cold reset -/

theorem exec_coldReset (hp : s.powered = true) : exec (.coldReset 0xC01DB007#32) s = .next s.coldBoot := by
  change execColdReset _ _ = _
  simp only [execColdReset, hp, decide_true, Bool.and_self, if_true]

/-- While the module is powered FW_SVN is the booted bundle's. -/
theorem State.fwSvn_of_powered (hp : s.powered = true) : s.fwSvn = bundleSvn (s.bundle s.sec.bootSlot) := by
  refine if_neg ?_
  rintro h
  rw [State.powered, h] at hp
  cases hp

/-- A reset that breaks FW_COMMIT off boots the booted bundle again. -/
theorem State.coldBoot_breaksCommit (hp : s.powered = true) (hc : s.sec.code = 0x11) (hpend : s.sec.isPending = false)
    (hle : s.fuse.svn ≤ s.fwSvn) (hboots : s.slotBoots s.sec.bootSlot = true) :
    s.fuse.svn ≤ s.coldBoot.fuse.svn ∧ s.coldBoot.fuse.svn ≤ s.fwSvn ∧ s.coldBoot.pwr.st = 2
      ∧ s.coldBoot.sec.bootSlot = s.sec.bootSlot := by
  obtain ⟨hlo, hhi⟩ := State.breakCommit_svn hc hle
  have hslot : s.coldBoot = s.coldFrom s.sec.bootSlot := by
    rw [State.coldBoot, hpend]
    rfl
  rw [hslot, s.coldFrom_fuse]
  exact ⟨hlo, hhi, State.coldFrom_boots hboots (s.fwSvn_of_powered hp ▸ hhi)⟩

end

/-- Settles O59: FW_COMMIT by what it blows (`State.blow_fwSvn`), the cold reset by the floor its boot checks
(`State.coldFrom_floor`). -/
theorem rollbackFloor : Obligations.RollbackFloor := by
  refine ⟨fun c s t h => ?never, fun s hb hl he heq => ⟨_, fwCommit_done hb hl he heq, rfl, rfl, rfl⟩,
    fun s hb hl he hlt => ⟨_, fwCommit_begins hb hl he hlt, rfl, rfl, rfl, rfl⟩,
    fun s out h hc hle => ⟨_, mailboxCommandDone_ok h, rfl, ?blown⟩, fun s b => fwStage_below,
    fun s st out h hst => ⟨_, mailboxCommandDone_failed h hst, rfl, rfl, rfl, rfl, rfl⟩,
    fun s hp => ⟨_, exec_coldReset hp, (s.coldFrom_floor _).imp_right And.right⟩,
    fun s hp hc hpend hle hboots => ⟨_, exec_coldReset hp, State.coldBoot_breaksCommit hp hc hpend hle hboots⟩⟩
  case never =>
    obtain ⟨u, hu, hkeeps⟩ := exec_keeps c s
    obtain rfl : u = t := by simpa [hu] using h
    exact ⟨hkeeps.floor, hkeeps.cap⟩
  case blown =>
    rw [State.longDone_commit hc]
    exact State.blow_fwSvn hle

end Sys2Proof.Machine


/-! ## A host-port reset and counters of instances there are none of (R267, R377) -/

namespace Sys2Proof.Machine

/-- A state whose one post, being staged from a segment in remote tier-2 of partition 0 and still in the admission queue,
names a partition far beyond the sixteen: `ctrKey` gives ADMIT_WAIT (0x004) of that number the key of counter 0x081. The
post has waited one cycle of the control cores' clock. -/
def strayPost : State :=
  { State.reset with
    clk := [(31, 1)]
    parts := [(0, { segs := [(0, { tier := 2 })] })]
    fe := { cmds := [(0, { ring := 0, seq := 0, part := 0, epoch := 0, desc := [] })] }
    ream := { queue := [0] }
    posts := [(0, { ring := 0, seq := 0, part := 0x7D000, q := 0, phase := 1 })] }

/-- What a host-port reset of that state has done before its own event. -/
theorem hostPortReset_strayPost :
    ∃ u : State, exec .hostPortReset strayPost = .next (u.raise (coreSource 22)) ∧ u.counter 0x081 0 = 2 :=
  ⟨_, rfl, by rfl⟩

/-- Refutes O42: where a post's partition is no number of a partition, the end of its staging counts its wait in the
counter of host-port resets too, which then rises by more than the reset itself. -/
theorem not_hostLink : ¬ Obligations.HostLink := by
  intro h
  obtain ⟨t, ht, -, -, -, hcount, -⟩ := h.1 strayPost
  obtain ⟨u, hu, hu2⟩ := hostPortReset_strayPost
  rw [hu] at ht
  cases ht
  rw [State.raise_ctr _ _ _ _ (by decide), hu2] at hcount
  exact absurd hcount (by decide)

end Sys2Proof.Machine


/-! ## Partition resets, boot fallback and the end of BOOTING (R332, R334, R343) -/

namespace Sys2Proof.Machine

/-! ### What the end of a post leaves of partitions -/

section
variable {s t : State}

theorem PartsLike.of_same {u : State} (h : PartsLike s t) (k : Same (fun f => f == .parts) t u) : PartsLike s u :=
  .of_parts (parts_of k) h

theorem PartsLike.ite {u : State} {c : Prop} [Decidable c] (h : PartsLike s t) (k : PartsLike s u) :
    PartsLike s (if c then t else u) := by
  split <;> assumption

theorem PartsLike.count (h : PartsLike s t) (id inst n : Nat) : PartsLike s (t.count id inst n) :=
  h.of_same (State.count_same (.refl _ t) _ _ _ rfl)

theorem PartsLike.writeSeg (h : PartsLike s t) (a : Use) (p g off : Nat) (b : Bytes) (poison : List Nat) :
    PartsLike s (t.writeSeg a p g off b poison) := by
  unfold State.writeSeg
  split
  · exact h
  · refine h.each _ _ fun u x => ?_
    dsimp only
    split
    · exact (PartsLike.refl u).of_same (State.writeHost_same (.refl _ u) _ _ _ _ _ _ _ rfl rfl rfl)
    · exact (PartsLike.refl u).writeT1_nil _ _

theorem PartsLike.sealResults (h : PartsLike s t) (k : Nat) (c : Cmd) (v : Post) : PartsLike s (t.sealResults k c v) := by
  unfold State.sealResults
  refine PartsLike.writeSeg (PartsLike.writeSeg (PartsLike.of_same h ?_) _ _ _ _ _ _) _ _ _ _ _ _
  exact State.count_same (State.modSlot_same (State.plainResults_same (.refl _ t) v c.resLen rfl) _ _ rfl) _ _ _ rfl

theorem PartsLike.completePost (h : PartsLike s t) (k st : Nat) : PartsLike s (t.completePost k st) := by
  unfold State.completePost
  split
  · dsimp only
    refine PartsLike.clearPost (PartsLike.finish (PartsLike.of_same ?_
      (State.stepTaken_same (Same.ite (State.closeEsc_same (.refl _ _) _ rfl) (State.dropEsc_same (.refl _ _) _ rfl)) _ rfl))
      _ _ _ _) _
    have hlate {u : State} (hu : PartsLike s u) (p : Nat) : PartsLike s ((u.count 0x005 p 1).causeAll cBoundMiss) :=
      (hu.count _ _ _).causeAll _
    refine .ite (.count ?_ _ _ _) ?_
    all_goals
      refine .ite (hlate ?_ _) ?_
      all_goals exact (h.sealResults k _ _).ite h
  · exact h

theorem PartsLike.settle (h : PartsLike s t) (k : Nat) : PartsLike s (t.settle k) := by
  unfold State.settle
  split
  · exact h
  · exact h.ite ((h.completePost k _).ite ((h.completePost k _).ite h))

theorem PartsLike.failPost (h : PartsLike s t) (k st : Nat) : PartsLike s (t.failPost k st) :=
  h.of_same (State.failPost_same (.refl _ t) k st rfl rfl rfl)

theorem PartsLike.stopIngests (h : PartsLike s t) (pick : Cmd → Bool) (st : Nat) : PartsLike s (t.stopIngests pick st) :=
  h.of_same (State.stopIngests_same (.refl _ t) pick st rfl rfl rfl rfl)

/-! ### PART_RESET -/

/-- What PART_RESET does beyond saying that the partition's reset is under way changes partitions as events do. -/
theorem State.partReset_like {p : Nat} (h : ((s.part p).st = 0 || (s.part p).st = 2 || (s.part p).resetBusy : Bool) = false) :
    PartsLike (s.modPart p fun q => { q with resetBusy := true }) (s.partReset p) := by
  rw [State.partReset, h, if_neg Bool.false_ne_true]
  refine .stopIngests (.each (.endIdle (.each (.refl _) _ _ fun u n => .disableRing (.refl u) n) _ _) _ _ fun u k => ?_) _ _
  exact .settle (.failPost (.of_same (.refl u) (State.modPost_same (.refl _ u) _ _ rfl)) _ _) _

/-- A partition that PART_RESET names has its reset under way then, and one that has it keeps it. -/
theorem State.partReset_busy {p : Nat}
    (h : (s.part p).st = 1 ∨ (s.part p).st = 3 ∨ (s.part p).resetBusy = true) :
    ((s.partReset p).part p).resetBusy = true := by
  cases hb : (s.part p).resetBusy with
  | true =>
    rw [State.partReset, if_pos (by simp [hb])]
    exact hb
  | false =>
    have hgo : ((s.part p).st = 0 || (s.part p).st = 2 || (s.part p).resetBusy : Bool) = false := by
      rcases h with h | h | h
      · simp [h, hb]
      · simp [h, hb]
      · simp [h] at hb
    obtain ⟨_, _, _, _, _, _, hlike⟩ := (State.partReset_like hgo).like p
    rw [hlike, State.modPart_part]

/-- The reset of another partition leaves this one's state, and the reset it has under way. -/
theorem State.partReset_other (s : State) {p q : Nat} (h : p ≠ q) :
    ((s.partReset q).part p).st = (s.part p).st ∧ ((s.partReset q).part p).resetBusy = (s.part p).resetBusy := by
  cases hgo : ((s.part q).st = 0 || (s.part q).st = 2 || (s.part q).resetBusy : Bool) with
  | true =>
    rw [State.partReset, hgo, if_pos rfl]
    exact ⟨rfl, rfl⟩
  | false =>
    obtain ⟨_, _, _, _, _, _, hlike⟩ := (State.partReset_like hgo).like p
    rw [hlike, State.modPart_part_ne _ _ h]
    exact ⟨rfl, rfl⟩

/-- PART_RESET of a list of partitions starts the reset of each of them that is ATTACHED or DETACHED. -/
theorem State.each_partReset_busy {p : Nat} (l : List Nat) {s : State}
    (h : (s.part p).resetBusy = true ∨ p ∈ l ∧ ((s.part p).st = 1 ∨ (s.part p).st = 3)) :
    ((s.each l State.partReset).part p).resetBusy = true := by
  induction l generalizing s with
  | nil => exact h.resolve_right fun hl => List.not_mem_nil hl.1
  | cons q l ih =>
    refine ih (s := s.partReset q) ?_
    by_cases hq : p = q
    · subst hq
      exact .inl (State.partReset_busy (h.elim (fun hb => .inr (.inr hb)) fun hs => hs.2.imp_right .inl))
    · obtain ⟨hst, hbusy⟩ := s.partReset_other hq
      rw [hst, hbusy]
      exact h.imp_right fun hs => ⟨(List.mem_cons.mp hs.1).resolve_left hq, hs.2⟩

end

/-! ### The end of BOOTING -/

/-- Up to the end of BOOTING a tick leaves the power state alone. -/
theorem State.tickCable_pwr (s : State) : s.tickTiles.tickCdc.tickErrors.tickLink.tickRx.tickCable.pwr = s.pwr := by
  refine pwr_of (State.tickCable_same (State.tickRx_same (State.tickLink_same (State.tickErrors_same (State.tickCdc_same
    (Same.each (State.tickMaint_same (State.tickBeater_same (State.tickDeny_same (State.tickClocks_same (.refl _ s)
      ?_ ?_ ?_) _ ?_ ?_) _ ?_ ?_ ?_) _ ?_ ?_) _ _ fun _ n h => State.tickTile_same h n ?_ ?_ ?_)
    ?_ ?_ ?_ ?_ ?_ ?_) ?_ ?_ ?_ ?_ ?_ ?_ ?_ ?_ ?_ ?_) ?_ ?_) ?_ ?_) ?_ ?_ ?_ ?_ ?_ ?_ ?_) <;> rfl

/-- BOOTING ends in ON, with no held write of ATTACH left. -/
theorem State.bootDone_on {s : State} (h : s.pwr.st = 2) : s.bootDone.pwr.st = 3 ∧ s.bootDone.pwr.attach = [] := by
  have hattach (t : State) (l : List Nat) : (t.each l State.attachNow).pwr = t.pwr :=
    State.each_inv (·.pwr) l _ (fun v n => pwr_of (State.attachNow_same (.refl _ v) n rfl rfl rfl rfl rfl rfl rfl rfl)) t
  have hpldm (t : State) (i old new : Nat) : (t.pldmIf i old new).pwr = t.pwr :=
    pwr_of (State.pldmIf_same (.refl _ t) _ _ _ rfl)
  rw [State.bootDone, h]
  refine ⟨(congrArg Pwr.st (hattach _ _)).trans ?_, (congrArg Pwr.attach (hattach _ _)).trans ?_⟩
  · exact congrArg Pwr.st (hpldm ..)
  · exact congrArg Pwr.attach (hpldm ..)

theorem State.tick_booted {s : State} (h : s.pwr.st = 2) : s.tick.pwr.st = 3 ∧ s.tick.pwr.attach = [] := by
  rw [s.tick_eq]
  exact State.bootDone_on (by rw [s.tickCable_pwr, h])

/-! ### BOOT_FALLBACK -/

section
variable {s : State}

/-- BOOT_FALLBACK gives up the booted bundle: FALLBACK is set, and no bundle is pending. -/
def State.fallsBack (s : State) : State := { s with sec := { s.sec with isPending := false, fallback := true } }

theorem State.fallsBack_boots (s : State) (slot : Nat) : s.fallsBack.slotBoots slot = s.slotBoots slot := rfl

/-- No slot boots: the rails go, and the module is in BOOT_FAILED. -/
def State.bootFails (s : State) : State :=
  State.setPst { s.railsOff with sec := { s.railsOff.sec with bootSlot := 0 } } 6

theorem exec_bootFallback (hst : s.pwr.st = 2) :
    exec .bootFallback s = .next (State.pldmIf (if s.fallsBack.slotBoots (1 - s.sec.bootSlot) then
        State.measureBoot { s.fallsBack with sec := { s.fallsBack.sec with bootSlot := 1 - s.sec.bootSlot } }
      else s.fallsBack.bootFails) 22 s.bootSense
      (if s.fallsBack.slotBoots (1 - s.sec.bootSlot) then
        State.measureBoot { s.fallsBack with sec := { s.fallsBack.sec with bootSlot := 1 - s.sec.bootSlot } }
      else s.fallsBack.bootFails).bootSense) := by
  change execBootFallback s = _
  rw [execBootFallback, hst, bne_self_eq_false, if_neg Bool.false_ne_true]
  rfl

/-- Where the other slot's bundle verifies, it boots. -/
theorem bootFallback_boots (hst : s.pwr.st = 2) (h : s.slotBoots (1 - s.sec.bootSlot) = true) :
    ∃ t, exec .bootFallback s = .next t ∧ t.sec.bootSlot = 1 - s.sec.bootSlot ∧ t.sec.fallback = true ∧ t.pwr.st = 2 := by
  have hpldm (t : State) (i old new : Nat) : (t.pldmIf i old new).sec = t.sec ∧ (t.pldmIf i old new).pwr = t.pwr :=
    ⟨sec_of (State.pldmIf_same (.refl _ t) _ _ _ rfl), pwr_of (State.pldmIf_same (.refl _ t) _ _ _ rfl)⟩
  refine ⟨_, exec_bootFallback hst, ?_⟩
  rw [s.fallsBack_boots, h, if_pos rfl, (hpldm ..).1, (hpldm ..).2, State.measureBoot_pwr, (State.measureBoot_sec _).1,
    (State.measureBoot_sec _).2.2.2]
  exact ⟨rfl, rfl, hst⟩

/-- What goes with the rails. -/
theorem State.railsOff_lost (s : State) :
    s.railsOff.posts = [] ∧ s.railsOff.mem = {} ∧ s.railsOff.fe = {} ∧ s.railsOff.hp = {} :=
  ⟨posts_of (State.pldmIf_same (.refl _ _) _ _ _ rfl), mem_of (State.pldmIf_same (.refl _ _) _ _ _ rfl),
    fe_of (State.pldmIf_same (.refl _ _) _ _ _ rfl), hp_of (State.pldmIf_same (.refl _ _) _ _ _ rfl)⟩

/-- A change of the power state keeps the rest but for the sensor's telling. -/
theorem State.setPst_parts (s : State) (n : Nat) :
    (s.setPst n).posts = s.posts ∧ (s.setPst n).mem = s.mem ∧ (s.setPst n).fe = s.fe ∧ (s.setPst n).hp = s.hp
      ∧ (s.setPst n).pwr = { s.pwr with st := n } :=
  ⟨posts_of (State.setPst_same (.refl _ s) n rfl rfl), mem_of (State.setPst_same (.refl _ s) n rfl rfl),
    fe_of (State.setPst_same (.refl _ s) n rfl rfl), hp_of (State.setPst_same (.refl _ s) n rfl rfl),
    pwr_of (State.pldmIf_same (.refl _ _) _ _ _ rfl)⟩

theorem State.bootFails_lost (s : State) :
    s.bootFails.posts = [] ∧ s.bootFails.mem = {} ∧ s.bootFails.fe = {} ∧ s.bootFails.hp.cxlOk = false
      ∧ s.bootFails.pwr.st = 6 := by
  obtain ⟨hposts, hmem, hfe, hhp⟩ := s.railsOff_lost
  obtain ⟨kposts, kmem, kfe, khp, kpwr⟩ :=
    State.setPst_parts { s.railsOff with sec := { s.railsOff.sec with bootSlot := 0 } } 6
  exact ⟨kposts.trans hposts, kmem.trans hmem, kfe.trans hfe, congrArg HostPort.cxlOk (khp.trans hhp),
    congrArg Pwr.st kpwr⟩

/-- Where it does not, the module is in BOOT_FAILED. -/
theorem bootFallback_fails (hst : s.pwr.st = 2) (h : s.slotBoots (1 - s.sec.bootSlot) = false) :
    ∃ t, exec .bootFallback s = .next t ∧ t.pwr.st = 6 ∧ t.posts = [] ∧ t.mem = {} ∧ t.fe = {} ∧ t.hp.cxlOk = false := by
  obtain ⟨hposts, hmem, hfe, hcxl, hpst⟩ := s.fallsBack.bootFails_lost
  have hsame (m : Field → Bool) (hm : m .mgmt = false) (t : State) (i old new : Nat) : Same m t (t.pldmIf i old new) :=
    State.pldmIf_same (.refl _ t) _ _ _ hm
  refine ⟨_, exec_bootFallback hst, ?_⟩
  rw [s.fallsBack_boots, h, if_neg Bool.false_ne_true]
  exact ⟨(congrArg Pwr.st (pwr_of (hsame _ rfl ..))).trans hpst, (posts_of (hsame _ rfl ..)).trans hposts,
    (mem_of (hsame _ rfl ..)).trans hmem, (fe_of (hsame _ rfl ..)).trans hfe,
    (congrArg HostPort.cxlOk (hp_of (hsame _ rfl ..))).trans hcxl⟩

/-- What a cold reset leaves, whichever slot boots. -/
theorem State.coldBoot_reset (s : State) :
    s.coldBoot.mem = State.reset.mem ∧ s.coldBoot.regs = State.reset.regs ∧ s.coldBoot.fe = State.reset.fe
      ∧ s.coldBoot.ream = State.reset.ream ∧ s.coldBoot.posts = [] ∧ s.coldBoot.slots = [] ∧ s.coldBoot.tiles = []
      ∧ s.coldBoot.rel.boots = (s.rel.boots + 1) % 2 ^ 32 ∧ s.coldBoot.rel.vault = s.rel.vault.remount
      ∧ (s.coldBoot.pwr.st = 2 ∨ s.coldBoot.pwr.st = 6) := by
  have h : Same keptFields s.coldBase s.coldBoot := s.coldFrom_base _
  have hvault : s.coldBase.rel.vault = s.rel.vault.remount := by
    rw [← s.breakCommit_rel]
    rfl
  exact ⟨h.mem rfl, h.regs rfl, h.fe rfl, h.ream rfl, h.posts rfl, h.slots rfl, h.tiles rfl, s.coldBoot_booted.2,
    (congrArg Rel.vault (h.rel rfl)).trans hvault, (s.coldFrom_floor _).symm.imp And.left id⟩

end

/-- Settles O38: the cold reset by what stands before its boot (`State.coldFrom_base`), PART_RESET by the partitions it
names (`State.each_partReset_busy`). -/
theorem coldReset : Obligations.ColdReset := by
  refine ⟨fun s hp => ⟨_, exec_coldReset hp, s.coldBoot_reset⟩, fun s => bootFallback_boots, fun s => bootFallback_fails,
    fun s hst hq => ⟨_, ?tick, State.tick_booted hst⟩, fun s x p hp hx h => ⟨_, rfl, ?reset⟩⟩
  case tick => rw [step, hq]
  case reset =>
    exact State.each_partReset_busy _ (.inr ⟨List.mem_filter.mpr ⟨List.mem_range.mpr hp, hx⟩, h⟩)

end Sys2Proof.Machine


/-! ## Power states and the flush (R321, R354 to R358, R367) -/

namespace Sys2Proof.Machine

section
variable {s : State}

/-! ### What the steps of a loss of power change of the power block -/

/-- What the loss of the rails leaves of the power block: its own state, the flush, the pin, the input. -/
theorem State.railsOff_pwr (s : State) :
    s.railsOff.pwr.st = s.pwr.st ∧ s.railsOff.pwr.modLow = s.pwr.modLow ∧ s.railsOff.pwr.vin = s.pwr.vin := by
  have h : s.railsOff.pwr = _ := pwr_of (State.pldmIf_same (.refl _ _) _ _ _ rfl)
  rw [h]
  exact ⟨rfl, rfl, rfl⟩

/-- The rails take what is not durable of the vault. -/
theorem State.railsOff_vault (s : State) : s.railsOff.rel.vault = s.rel.vault.remount :=
  congrArg Rel.vault (rel_of (State.pldmIf_same (.refl _ _) _ _ _ rfl))

theorem State.setFlush_parts (s : State) (n : Nat) :
    (s.setFlush n).posts = s.posts ∧ (s.setFlush n).mem = s.mem ∧ (s.setFlush n).rel = s.rel
      ∧ (s.setFlush n).pwr = { s.pwr with flushCause := n } :=
  ⟨posts_of (State.setFlush_same (.refl _ s) n rfl rfl), mem_of (State.setFlush_same (.refl _ s) n rfl rfl),
    rel_of (State.setFlush_same (.refl _ s) n rfl rfl), pwr_of (State.pldmIf_same (.refl _ _) _ _ _ rfl)⟩

theorem State.breakCommit_pwr (s : State) : s.breakCommit.pwr = s.pwr :=
  pwr_of (State.breakCommit_same (.refl _ _) rfl rfl)

/-! ### The flush -/

/-- What a loss of power has done before the rails go: go writes are made, and the flush's records stand in the vault. -/
def State.flushed (s : State) : State := (s.each (s.posts.map (·.1)) State.makeWrites).flushRecs

theorem State.flushed_pwr (s : State) : s.flushed.pwr = s.pwr :=
  (pwr_of (State.flushRecs_same (.refl _ _) rfl rfl rfl rfl rfl)).trans
    (State.each_inv (·.pwr) _ _ (fun t k => pwr_of (State.makeWrites_same (.refl _ t) k rfl rfl rfl rfl rfl rfl rfl rfl rfl
      rfl rfl)) s)

/-- The last of the flush's records is FLUSH_END. -/
theorem State.flushRecs_last (s : State) : ∃ r, s.flushRecs.rel.vault.log.getLast? = some r ∧ r.kind = 10 :=
  ⟨_, List.getLast?_concat, rfl⟩

/-- The state a loss of power comes to before its causes are noted. -/
def State.flushOff (s : State) : State := s.flushed.breakCommit.railsOff.withVault s.flushed.rel.vault

theorem State.powerFail_eq (h : s.powered = true) (cause : Nat) :
    s.powerFail cause = State.setPst { s.flushOff.setFlush cause with
      pwr := { (s.flushOff.setFlush cause).pwr with
        flushed := false, trip := (s.flushOff.setFlush cause).pwr.trip || cause == 5 } } 4 := by
  rw [State.powerFail, h]
  rfl

/-- A loss of power begins the flush. -/
theorem State.powerFail_flushes (h : s.powered = true) (cause : Nat) :
    (s.powerFail cause).pwr.st = 4 ∧ (s.powerFail cause).pwr.flushCause = cause
      ∧ (s.powerFail cause).pwr.modLow = s.pwr.modLow ∧ (s.powerFail cause).pwr.flushed = false
      ∧ (s.powerFail cause).pwr.vin = s.pwr.vin := by
  obtain ⟨-, hlow, hvin⟩ := s.flushed.breakCommit.railsOff_pwr
  rw [State.breakCommit_pwr, s.flushed_pwr] at hlow hvin
  obtain ⟨-, -, -, hflush⟩ := s.flushOff.setFlush_parts cause
  rw [State.powerFail_eq h, (State.setPst_parts _ 4).2.2.2.2, hflush]
  exact ⟨rfl, rfl, hlow, rfl, hvin⟩

theorem State.powerFail_lost (h : s.powered = true) (cause : Nat) :
    (s.powerFail cause).posts = [] ∧ (s.powerFail cause).mem = {} := by
  obtain ⟨hposts, hmem, -⟩ := s.flushed.breakCommit.railsOff_lost
  obtain ⟨fposts, fmem, -⟩ := s.flushOff.setFlush_parts cause
  rw [State.powerFail_eq h, (State.setPst_parts _ 4).1, (State.setPst_parts _ 4).2.1]
  exact ⟨fposts.trans hposts, fmem.trans hmem⟩

theorem State.powerFail_last (h : s.powered = true) (cause : Nat) :
    ∃ r, (s.powerFail cause).rel.vault.log.getLast? = some r ∧ r.kind = 10 := by
  obtain ⟨-, -, frel, -⟩ := s.flushOff.setFlush_parts cause
  rw [State.powerFail_eq h, State.setPst_rel]
  exact frel ▸ State.flushRecs_last _

theorem State.powered_on (h : s.pwr.st = 3) : s.powered = true := by
  simp [State.powered, h]

/-! ### The commands -/

/-- Once the vault is durable a flush with input present is over: STANDBY with the reset pin held low after it, else
SAFE. -/
theorem exec_flushEndDurable (hst : s.pwr.st = 4) (hf : s.pwr.flushed = false) :
    exec .flushEndDurable s
      = .next (State.afterFlush { s.allDurable with pwr := { s.allDurable.pwr with flushed := true } }) := by
  change execFlushEndDurable s = _
  rw [execFlushEndDurable, hst, hf]
  rfl

theorem State.allDurable_log (s : State) : ∀ r ∈ s.allDurable.rel.vault.log, r.durable = true := by
  intro r hr
  obtain ⟨r', -, rfl⟩ := List.mem_map.mp hr
  rfl

theorem State.not_inputOff (h : 3600 ≤ s.pwr.vin) : ¬ (!s.inputOn) = true := by
  simp [State.inputOn, h]

theorem flushEndDurable_safe (hst : s.pwr.st = 4) (hf : s.pwr.flushed = false) (hc : s.pwr.flushCause ≠ 4)
    (hv : 3600 ≤ s.pwr.vin) :
    ∃ t, exec .flushEndDurable s = .next t ∧ t.pwr.st = 5 ∧ ∀ r ∈ t.rel.vault.log, r.durable = true := by
  refine ⟨_, (exec_flushEndDurable hst hf).trans (congrArg Host.Outcome.next
    ((if_neg (State.not_inputOff hv)).trans (if_neg hc))), ?_, ?_⟩
  · rw [(State.setPst_parts _ 5).2.2.2.2]
  · rw [State.setPst_rel]
    exact s.allDurable_log

theorem flushEndDurable_standby (hst : s.pwr.st = 4) (hf : s.pwr.flushed = false) (hc : s.pwr.flushCause = 4)
    (hlow : s.pwr.modLow = true) (hv : 3600 ≤ s.pwr.vin) :
    ∃ t, exec .flushEndDurable s = .next t ∧ t.pwr.st = 1 ∧ ∀ r ∈ t.rel.vault.log, r.durable = true := by
  refine ⟨_, (exec_flushEndDurable hst hf).trans (congrArg Host.Outcome.next
    ((if_neg (State.not_inputOff hv)).trans ((if_pos hc).trans (if_pos hlow)))), ?_, ?_⟩
  · rw [(State.setPst_parts _ 1).2.2.2.2]
  · rw [State.setPst_rel]
    exact s.allDurable_log

/-- A cold reset clears the setup words, counts a boot and ends in BOOTING or BOOT_FAILED. -/
theorem State.coldBoot_boot (s : State) :
    (s.coldBoot.pwr.st = 2 ∨ s.coldBoot.pwr.st = 6) ∧ s.coldBoot.rel.boots = (s.rel.boots + 1) % 2 ^ 32
      ∧ s.coldBoot.regs = [] :=
  ⟨(s.coldFrom_floor _).symm.imp And.left id, s.coldBoot_booted.2, s.coldBoot_booted.1⟩

/-- STANDBY_ENTRY samples the straps. -/
def State.standsBy (s : State) (f a : Nat) : State :=
  State.setPst { s with fuse := { s.fuse with feed := f % 256 }, pwr := { s.pwr with addrSel := a % 8, perst := true } } 1

theorem State.standsBy_parts (s : State) (f a : Nat) :
    (s.standsBy f a).pwr = { s.pwr with addrSel := a % 8, perst := true, st := 1 }
      ∧ (s.standsBy f a).fuse.feed = f % 256 ∧ (s.standsBy f a).rel = s.rel :=
  ⟨(State.setPst_parts _ 1).2.2.2.2, congrArg Fuse.feed (fuse_of (State.setPst_same (.refl _ _) 1 rfl rfl)),
    State.setPst_rel _ 1⟩

theorem exec_standbyEntry (f a : Nat) (h : s.pwr.st = 0) :
    exec (.standbyEntry f a) s
      = .next (if (s.standsBy f a).pwr.modLow then s.standsBy f a else (s.standsBy f a).coldBoot) := by
  change execStandbyEntry _ _ _ = _
  rw [execStandbyEntry, h]
  rfl

theorem State.breakCommit_feed (s : State) : s.breakCommit.fuse.feed = s.fuse.feed := by
  unfold State.breakCommit
  split <;> rfl

theorem standbyEntry_held (f a : Nat) (h : s.pwr.st = 0) (hlow : s.pwr.modLow = true) :
    ∃ t, exec (.standbyEntry f a) s = .next t ∧ t.pwr.st = 1 ∧ t.fuse.feed = f % 256 ∧ t.pwr.addrSel = a % 8
      ∧ t.pwr.perst = true := by
  obtain ⟨hpwr, hfeed, -⟩ := s.standsBy_parts f a
  refine ⟨_, (exec_standbyEntry f a h).trans (congrArg Host.Outcome.next (if_pos (by rw [hpwr]; exact hlow))), ?_⟩
  rw [hpwr]
  exact ⟨rfl, hfeed, rfl, rfl⟩

theorem standbyEntry_boots (f a : Nat) (h : s.pwr.st = 0) (hlow : s.pwr.modLow = false) :
    ∃ t, exec (.standbyEntry f a) s = .next t ∧ (t.pwr.st = 2 ∨ t.pwr.st = 6)
      ∧ t.rel.boots = (s.rel.boots + 1) % 2 ^ 32 ∧ t.regs = [] ∧ t.fuse.feed = f % 256 := by
  obtain ⟨hpwr, hfeed, hrel⟩ := s.standsBy_parts f a
  refine ⟨_, (exec_standbyEntry f a h).trans (congrArg Host.Outcome.next (if_neg (by rw [hpwr]; simp [hlow]))), ?_⟩
  obtain ⟨hst, hboots, hregs⟩ := (s.standsBy f a).coldBoot_boot
  refine ⟨hst, hrel ▸ hboots, hregs, ?_⟩
  rw [State.coldBoot, State.coldFrom_fuse, State.breakCommit_feed, hfeed]

/-- The reset pin goes low. -/
def State.pinLow (s : State) : State := { s with pwr := { s.pwr with modLow := true } }

theorem modResetLow_flushes {us : Nat} (h : s.pwr.st = 3) (hus : 1000 ≤ us) :
    ∃ t r, exec (.modResetLow us) s = .next t ∧ t.pwr.st = 4 ∧ t.pwr.flushCause = 4 ∧ t.pwr.modLow = true
      ∧ t.pwr.flushed = false ∧ t.rel.vault.log.getLast? = some r ∧ r.kind = 10 ∧ t.posts = [] ∧ t.mem = {} := by
  have hp : s.pinLow.powered = true := State.powered_on h
  obtain ⟨hst, hcause, hlow, hflushed, -⟩ := State.powerFail_flushes hp 4
  obtain ⟨r, hlast, hkind⟩ := State.powerFail_last hp 4
  obtain ⟨hposts, hmem⟩ := State.powerFail_lost hp 4
  exact ⟨_, r, congrArg Host.Outcome.next ((if_pos h).trans (if_pos hus)), hst, hcause, hlow, hflushed, hlast, hkind,
    hposts, hmem⟩

theorem modResetLow_booting (us : Nat) (h : s.pwr.st = 2) :
    ∃ t, exec (.modResetLow us) s = .next t ∧ t.pwr.st = 1 ∧ t.pwr.modLow = true ∧ t.mem = {} := by
  refine ⟨_, congrArg Host.Outcome.next ((if_neg (by rw [h]; decide)).trans (if_pos h)), ?_⟩
  rw [(State.setPst_parts _ 1).2.2.2.2, (State.setPst_parts _ 1).2.1]
  exact ⟨rfl, s.pinLow.railsOff_pwr.2.1, s.pinLow.railsOff_lost.2.1⟩

theorem modResetRelease_boots (h : s.pwr.st = 1) :
    ∃ t, exec .modResetRelease s = .next t ∧ (t.pwr.st = 2 ∨ t.pwr.st = 6)
      ∧ t.rel.boots = (s.rel.boots + 1) % 2 ^ 32 ∧ t.regs = [] ∧ t.pwr.modLow = false := by
  refine ⟨State.coldBoot { s with pwr := { s.pwr with modLow := false } }, congrArg Host.Outcome.next (if_pos h), ?_⟩
  obtain ⟨hst, hboots, hregs⟩ := State.coldBoot_boot { s with pwr := { s.pwr with modLow := false } }
  exact ⟨hst, hboots, hregs, State.coldFrom_modLow ..⟩

theorem safeInputStable_boots (h : s.pwr.st = 5) (hlow : s.pwr.modLow = false) (hv : 3800 ≤ s.pwr.vin)
    (htrip : s.pwr.trip = false) :
    ∃ t, exec .safeInputStable s = .next t ∧ (t.pwr.st = 2 ∨ t.pwr.st = 6)
      ∧ t.rel.boots = (s.rel.boots + 1) % 2 ^ 32 ∧ t.regs = [] := by
  refine ⟨_, congrArg Host.Outcome.next (if_pos ?_), s.coldBoot_boot⟩
  simp [h, hlow, hv, htrip]

theorem bankDischarged_off (h0 : s.pwr.st ≠ 0) (hp : s.powered = false) (hv : s.pwr.vin < 3600) :
    ∃ t, exec .bankDischarged s = .next t ∧ t.pwr.st = 0 ∧ t.mgmt = {} := by
  have hoff (t : State) (ht : t.pwr = s.pwr) : (!t.inputOn) = true := by
    simp [State.inputOn, ht, hv]
  have hgo : ¬ (decide (s.pwr.st = 0) || s.powered) = true := by simp [h0, hp]
  refine ⟨_, congrArg Host.Outcome.next ((if_neg hgo).trans (if_pos (hoff _ ?_))), rfl, rfl⟩
  split <;> rfl

/-- A hardware trip flushes nothing: what is not durable is lost. -/
theorem hardwareTrip_trips (h : s.pwr.st = 3) :
    ∃ t, exec .hardwareTrip s = .next t ∧ t.pwr.st = 5 ∧ t.pwr.flushCause = 6 ∧ t.pwr.trip = true ∧ t.mem = {}
      ∧ t.rel.vault.log = s.rel.vault.log.filter (·.durable) := by
  have hgo : ¬ (!s.powered) = true := by simp [State.powered_on h]
  obtain ⟨-, fmem, frel, fpwr⟩ := s.breakCommit.railsOff.setFlush_parts 6
  refine ⟨_, congrArg Host.Outcome.next (if_neg hgo), ?_⟩
  rw [(State.setPst_parts _ 5).2.2.2.2, (State.setPst_parts _ 5).2.1, State.setPst_rel]
  refine ⟨rfl, congrArg Pwr.flushCause fpwr, rfl, fmem.trans s.breakCommit.railsOff_lost.2.1,
    (congrArg (fun r : Rel => r.vault.log) frel).trans ?_⟩
  rw [State.railsOff_vault, State.breakCommit_rel]
  rfl

/-! ### Samples of the input -/

/-- What a sample leaves of the power block. -/
def Pwr.sampled (p : Pwr) (v i : Nat) : Pwr :=
  { p with vin := v, iin := i, low := runOf (decide (v < 3600)) p.low, brown := runOf (decide (v < 3800)) p.brown
           high := runOf (decide (5200 < v)) p.high, amps := runOf (decide (9000 < i)) p.amps }

/-- A sample is noted, and an excess current told. -/
def State.sampled (s : State) (v i : Nat) : State :=
  { s.pldmCross 2 s.pwr.iin i [9001] with pwr := (s.pldmCross 2 s.pwr.iin i [9001]).pwr.sampled v i }

theorem State.sampled_pwr (s : State) (v i : Nat) : (s.sampled v i).pwr = s.pwr.sampled v i :=
  congrArg (Pwr.sampled · v i) (pwr_of (State.pldmCross_same (.refl _ s) _ _ _ _ rfl))

/-- In ON, with the current in bounds, a sample acts by the runs of low, high and browned-out samples. -/
theorem exec_inputPowerSample (v : Nat) {i : Nat} (h : s.pwr.st = 3) (hi : i ≤ 9000) :
    exec (.inputPowerSample v i) s = .next (
      if 5 ≤ (s.pwr.sampled v i).low then (s.sampled v i).powerFail 1
      else if 5 ≤ (s.pwr.sampled v i).high then (s.sampled v i).powerFail 3
      else if 1000 ≤ (s.pwr.sampled v i).brown then (s.sampled v i).powerFail 2
      else s.sampled v i) := by
  have hst : (s.sampled v i).pwr.st = 3 := by rw [s.sampled_pwr]; exact h
  have hamps : (s.sampled v i).pwr.amps = 0 := by
    rw [s.sampled_pwr]
    exact if_neg (by simpa using hi)
  change execInputPowerSample _ _ _ = _
  rw [← s.sampled_pwr]
  refine congrArg Host.Outcome.next ((if_neg (by rw [h]; decide)).trans ((if_neg ?_).trans (if_neg ?_)))
  · change ¬ (s.sampled v i).pwr.st = 4
    rw [hst]
    decide
  · change ¬ 10 ≤ (s.sampled v i).pwr.amps
    rw [hamps]
    decide

theorem inputPowerSample_low {v i : Nat} (h : s.pwr.st = 3) (hv : v < 3600) (hi : i ≤ 9000) (hlow : 4 ≤ s.pwr.low) :
    ∃ t, exec (.inputPowerSample v i) s = .next t ∧ t.pwr.st = 4 ∧ t.pwr.flushCause = 1 ∧ t.pwr.vin = v := by
  have hrun : 5 ≤ (s.pwr.sampled v i).low := by
    simp only [Pwr.sampled, runOf, hv, decide_true, if_true]
    omega
  have hp : (s.sampled v i).powered = true := State.powered_on (by rw [s.sampled_pwr]; exact h)
  obtain ⟨hst, hcause, -, -, hvin⟩ := State.powerFail_flushes hp 1
  refine ⟨_, (exec_inputPowerSample v h hi).trans (congrArg Host.Outcome.next (if_pos hrun)), hst, hcause, hvin.trans ?_⟩
  rw [s.sampled_pwr]
  rfl

theorem inputPowerSample_good {v i : Nat} (h : s.pwr.st = 3) (hlo : 3800 ≤ v) (hhi : v ≤ 5200) (hi : i ≤ 9000) :
    ∃ t, exec (.inputPowerSample v i) s = .next t ∧ t.pwr.st = 3 ∧ t.pwr.vin = v ∧ t.pwr.iin = i ∧ t.pwr.low = 0
      ∧ t.pwr.brown = 0 ∧ t.pwr.high = 0 ∧ t.pwr.amps = 0 := by
  have hlow : (s.pwr.sampled v i).low = 0 := if_neg (by simp; omega)
  have hbrown : (s.pwr.sampled v i).brown = 0 := if_neg (by simp; omega)
  have hhigh : (s.pwr.sampled v i).high = 0 := if_neg (by simp; omega)
  have hamps : (s.pwr.sampled v i).amps = 0 := if_neg (by simp; omega)
  refine ⟨s.sampled v i, (exec_inputPowerSample v h hi).trans ?_, ?_⟩
  · rw [hlow, hhigh, hbrown]
    rfl
  · rw [s.sampled_pwr]
    exact ⟨h, rfl, rfl, hlow, hbrown, hhigh, hamps⟩

/-! ### FLUSH_CLEAR -/

theorem flushClear_clears {x : Word} (h : x.getLsbD 8 = true) :
    ∃ t, exec (.flushClear x 0) s = .next t ∧ t.pwr.flushCause = 0 ∧ t.pwr.st = s.pwr.st := by
  refine ⟨s.setFlush 0, ?_, ?_⟩
  · change execFlushClear _ _ _ = _
    rw [execFlushClear, h]
    rfl
  · rw [(s.setFlush_parts 0).2.2.2]
    exact ⟨rfl, rfl⟩

end

/-- Settles O39: each command by the state it comes to, a loss of power by `State.powerFail_flushes`, a cold reset by
`State.coldBoot_boot`. -/
theorem powerStates : Obligations.PowerStates := by
  exact ⟨fun s h => ⟨_, congrArg Host.Outcome.next (if_pos h), rfl⟩, fun s f a => standbyEntry_held f a,
    fun s f a => standbyEntry_boots f a, fun s us => modResetLow_flushes, fun s us => modResetLow_booting us,
    fun s => modResetRelease_boots, fun s v i => inputPowerSample_low, fun s v i => inputPowerSample_good,
    fun s => flushEndDurable_safe, fun s => flushEndDurable_standby, fun s => safeInputStable_boots,
    fun s => bankDischarged_off, fun s => hardwareTrip_trips, fun s x => flushClear_clears⟩

end Sys2Proof.Machine


/-! ## Event deliveries (chapter 14) -/

namespace Sys2Proof.Machine

/-! ### The choice of a processor -/

/-- Of two eligible processors the one R298 prefers, the earlier on a tie. -/
def lowerPrio (best : Option (Nat × Word)) (w : Nat × Word) : Option (Nat × Word) :=
  match best with
  | none => some w
  | some b => if w.2.toNat % 256 < b.2.toNat % 256 then some w else some b

theorem foldl_lowerPrio_mem {l : List (Nat × Word)} {w : Nat × Word} :
    ∀ {b : Option (Nat × Word)}, l.foldl lowerPrio b = some w → w ∈ l ∨ b = some w := by
  induction l with
  | nil => exact fun h => .inr h
  | cons x l ih =>
    intro b h
    refine (ih (b := lowerPrio b x) h).elim (fun h => .inl (List.mem_cons_of_mem _ h)) fun h => ?_
    cases b with
    | none => exact .inl (Option.some.inj h ▸ List.mem_cons_self)
    | some b =>
      rw [lowerPrio] at h
      split at h
      · exact .inl (Option.some.inj h ▸ List.mem_cons_self)
      · exact .inr h

theorem choosePrio_mem {words : List (Nat × Word)} {c : Nat} (h : choosePrio words = some c) :
    ∃ w, (c, w) ∈ words := by
  change (((words.filter fun w => w.2.toNat.testBit 8).foldl lowerPrio none).map (·.1)) = some c at h
  obtain ⟨⟨c', w⟩, hw, rfl⟩ := Option.map_eq_some_iff.mp h
  exact ⟨w, List.mem_of_mem_filter ((foldl_lowerPrio_mem hw).resolve_right nofun)⟩

/-! ### Sources, and what a delivery to a local partition is made of -/

section
variable (s : State) (i p : Nat)

theorem State.delivered_src (r : Bool) :
    (s.delivered i r).src i
      = { s.src i with st := if r then 0 else 2, count := 0, routeErr := false, sentAt := some s.now } :=
  State.setSrc_src _ _ _

theorem State.freeVals_autoAck (n : Nat) : (s.freeVals n).2.autoAck i = s.autoAck i := rfl

theorem State.readPrio_regs (l : List Nat) : (s.readPrio p l).regs = s.regs :=
  regs_of (State.readPrio_same (.refl _ _) p l rfl rfl)

theorem State.readPrio_evt (l : List Nat) : (s.readPrio p l).evt = s.evt :=
  evt_of (State.readPrio_same (.refl _ _) p l rfl rfl)

theorem State.readPrio_hp (l : List Nat) : (s.readPrio p l).hp = s.hp :=
  hp_of (State.readPrio_same (.refl _ _) p l rfl rfl)

theorem State.readPrio_ctr (l : List Nat) : (s.readPrio p l).ctr = s.ctr :=
  ctr_of (State.readPrio_same (.refl _ _) p l rfl rfl)

variable {s p} in
/-- A held line is not read again (R298). -/
theorem State.readPrio_held {l : List Nat} (h : ∀ a ∈ l, (s.part p).prioHeld.contains a = true) :
    s.readPrio p l = s := by
  rw [State.readPrio, State.each]
  refine List.foldlRecOn l _ (motive := (· = s)) rfl fun t ht a ha => ?_
  rw [ht]
  exact if_pos (h a ha)

theorem PartsLike.autoAck {s t : State} (k : PartsLike s t) (h : t.regs = s.regs) (i : Nat) :
    t.autoAck i = s.autoAck i := by
  have hr : ∀ j, (t.part j).remote = (s.part j).remote := by
    intro j
    obtain ⟨_, _, _, _, _, _, e⟩ := k.like j
    rw [e]
  rw [State.autoAck, State.autoAck, State.srcOwner_congr h, hr, State.regF, State.regF, State.regW_congr h]

/-- The priority lines a route's processors lie in. -/
def State.routeLines : List Nat :=
  ((List.range (s.routeN i / 16 + 2)).map (· + s.routeFirst i / 16)).filter
    (· ≤ (s.routeFirst i + s.routeN i) / 16)

/-- The priority words of a route's processors. -/
def State.routeWords : List (Nat × Word) :=
  (List.range (s.routeN i + 1)).map fun k =>
    (s.routeFirst i + k, FMap.get (s.part p).prioWords (s.routeFirst i + k) 0)

/-- The processor of a route, its first where none is eligible, which is counted (R298). -/
def State.withCpu : Nat × State :=
  match choosePrio (s.routeWords i p) with
  | some c => (c, s)
  | none => (s.routeFirst i, s.count 0x0A2 p 1)

/-- The source's event goes to vector `v`: its message, or its pending bit (R264). -/
def State.toVector (v : Nat) : State :=
  if s.msixOpen v then (s.sendMsix p v).delivered i (s.autoAck i)
  else ({ s with hp := { s.hp with pba := if s.hp.pba.contains (v, i) then s.hp.pba
                                          else s.hp.pba ++ [(v, i)] } }).delivered i false

/-- A source whose route is not valid (R298). -/
def State.routeFails : State :=
  (s.setSrc i { s.src i with st := 0, count := 0, routeErr := true, sentAt := some s.now }).count 0x0A3 0 1

theorem State.deliverLocal_eq (h : s.routeOk i p) :
    s.deliverLocal i p
      = ((s.readPrio p (s.routeLines i)).withCpu i p).2.toVector i p ((s.part p).msixBase + s.routeVec i
          + (((s.readPrio p (s.routeLines i)).withCpu i p).1 - s.routeFirst i)) := by
  obtain ⟨hv, hl⟩ := h
  have hn : ¬ (decide ((s.part p).msixCount ≤ s.routeVec i + s.routeN i)
      || decide (16 * (s.part p).prioLines ≤ s.routeFirst i + s.routeN i)) = true := by
    simp only [Bool.or_eq_true, decide_eq_true_eq]
    omega
  have hr := s.readPrio_regs p (s.routeLines i)
  have hw : (s.readPrio p (s.routeLines i)).withCpu i p
      = match choosePrio ((List.range (s.routeN i + 1)).map fun k =>
          (s.routeFirst i + k, FMap.get ((s.readPrio p (s.routeLines i)).part p).prioWords (s.routeFirst i + k) 0)) with
        | some c => (c, s.readPrio p (s.routeLines i))
        | none => (s.routeFirst i, (s.readPrio p (s.routeLines i)).count 0x0A2 p 1) := by
    simp only [State.withCpu, State.routeWords, State.routeN, State.routeFirst, State.regF, State.regW_congr hr]
  rw [hw]
  exact if_neg hn

variable {s i p} in
theorem State.withCpu_mem (u : State) :
    ∃ k, k ≤ u.routeN i ∧ (u.withCpu i p).1 = u.routeFirst i + k := by
  rw [State.withCpu]
  cases hc : choosePrio (u.routeWords i p) with
  | none => exact ⟨0, Nat.zero_le _, rfl⟩
  | some c =>
    obtain ⟨w, hw⟩ := choosePrio_mem hc
    obtain ⟨k, hk, he⟩ := List.mem_map.mp hw
    exact ⟨k, Nat.lt_succ_iff.mp (List.mem_range.mp hk), (congrArg Prod.fst he).symm⟩

/-- Only the counter of processors not found may have moved. -/
theorem State.withCpu_state : (s.withCpu i p).2 = s ∨ (s.withCpu i p).2 = s.count 0x0A2 p 1 := by
  rw [State.withCpu]
  cases choosePrio (s.routeWords i p)
  · exact .inr rfl
  · exact .inl rfl

/-- What the delivery to a vector starts from: the block as it was, but for the priority words. -/
structure State.PrioRead (s w : State) : Prop where
  hp : w.hp = s.hp
  evt : w.evt = s.evt
  autoAck : w.autoAck i = s.autoAck i
  sends : w.counter 0x0A0 p = s.counter 0x0A0 p

theorem State.prioRead (l : List Nat) : State.PrioRead i p s ((s.readPrio p l).withCpu i p).2 := by
  have ha := ((PartsLike.refl s).readPrio p l).autoAck (s.readPrio_regs p l) i
  have hc : (s.readPrio p l).counter 0x0A0 p = s.counter 0x0A0 p := by
    rw [State.counter, State.readPrio_ctr, State.counter]
  rcases (s.readPrio p l).withCpu_state i p with h | h
  · rw [h]
    exact ⟨s.readPrio_hp p l, s.readPrio_evt p l, ha, hc⟩
  · rw [h]
    exact ⟨s.readPrio_hp p l, s.readPrio_evt p l, ha,
      (State.count_counter_other _ p 1 (by decide)).trans hc⟩

variable {s i p} in
theorem State.deliverLocal_vector (h : s.routeOk i p) :
    ∃ k w, k ≤ s.routeN i ∧ State.PrioRead i p s w
      ∧ s.deliverLocal i p = w.toVector i p ((s.part p).msixBase + s.routeVec i + k) := by
  obtain ⟨k, hk, he⟩ := State.withCpu_mem (i := i) (p := p) (s.readPrio p (s.routeLines i))
  have hr := s.readPrio_regs p (s.routeLines i)
  have hn : (s.readPrio p (s.routeLines i)).routeN i = s.routeN i := by
    rw [State.routeN, State.regF, State.regW_congr hr, State.routeN, State.regF]
  have hf : (s.readPrio p (s.routeLines i)).routeFirst i = s.routeFirst i := by
    rw [State.routeFirst, State.regF, State.regW_congr hr, State.routeFirst, State.regF]
  refine ⟨k, _, hn ▸ hk, s.prioRead i p (s.routeLines i), ?_⟩
  rw [s.deliverLocal_eq i p h, he, hf, Nat.add_sub_cancel_left]

variable {s i p} in
theorem State.PrioRead.msixOpen {w : State} (h : State.PrioRead i p s w) (v : Nat) :
    w.msixOpen v = s.msixOpen v := by
  rw [State.msixOpen, State.msixOpen, h.hp]

variable {s i p} in
theorem State.PrioRead.msixMessage {w : State} (h : State.PrioRead i p s w) (v : Nat) :
    w.msixMessage v = s.msixMessage v := by
  rw [State.msixMessage, State.msixMessage, h.hp]

theorem State.toVector_open {v : Nat} (h : s.msixOpen v = true) :
    s.toVector i p v = (s.sendMsix p v).delivered i (s.autoAck i) := if_pos h

theorem State.toVector_masked {v : Nat} (h : s.msixOpen v = false) :
    (s.toVector i p v).hp.sent = s.hp.sent ∧ (v, i) ∈ (s.toVector i p v).hp.pba
      ∧ ((s.toVector i p v).src i).st = 2 := by
  have e : s.toVector i p v = State.delivered _ i false := if_neg (ne_true_of_eq_false h)
  rw [e, State.delivered_src]
  refine ⟨rfl, ?_, rfl⟩
  change (v, i) ∈ (if s.hp.pba.contains (v, i) then s.hp.pba else s.hp.pba ++ [(v, i)])
  split
  case isTrue hc => exact List.contains_iff_mem.mp hc
  case isFalse => exact List.mem_append_right _ List.mem_cons_self

theorem State.sendMsix_sent (v : Nat) : (s.sendMsix p v).hp.sent = s.hp.sent ++ [s.msixMessage v] := rfl

theorem State.sendMsix_counts (v : Nat) : (s.sendMsix p v).counter 0x0A0 p = s.counter 0x0A0 p + 1 :=
  State.count_counter _ _ _ _

theorem State.sendMsix_counter_other (v : Nat) {id : Nat} (h : id ≠ 0x0A0) :
    (s.sendMsix p v).counter id p = s.counter id p :=
  State.count_counter_other _ p 1 h

/-- A source whose coalescing time has passed (R299). -/
theorem exec_coalesceTimerExpiry (hi : i < 512) (hst : (s.src i).st = 1)
    (ht : (s.src i).timer + s.coalCycles i ≤ s.now) :
    exec (.coalesceTimerExpiry i) s = .next (s.deliver i) :=
  congrArg Host.Outcome.next (if_pos (by simp [hi, hst, ht]))

variable {s i p} in
theorem State.deliversTo.exec_local (h : s.deliversTo i p) (hr : (s.part p).remote = false) :
    exec (.coalesceTimerExpiry i) s = .next (s.deliverLocal i p) := by
  obtain ⟨hi, hst, ho, hp, hreach, hres, ht⟩ := h
  rw [exec_coalesceTimerExpiry s i hi hst ht, State.deliver]
  simp [ho, hp, hr, hreach, hres, Nat.ne_of_lt hp]

variable {s i p} in
theorem State.deliversTo.exec_remote (h : s.deliversTo i p) (hr : (s.part p).remote = true) :
    exec (.coalesceTimerExpiry i) s = .next (s.deliverRemote i p) := by
  obtain ⟨hi, hst, ho, hp, hreach, hres, ht⟩ := h
  rw [exec_coalesceTimerExpiry s i hi hst ht, State.deliver]
  simp [ho, hp, hr, hreach, hres, Nat.ne_of_lt hp]

theorem State.deliverLocal_bad (h : ¬ s.routeOk i p) : s.deliverLocal i p = s.routeFails i := by
  have hn : (decide ((s.part p).msixCount ≤ s.routeVec i + s.routeN i)
      || decide (16 * (s.part p).prioLines ≤ s.routeFirst i + s.routeN i)) = true := by
    simp only [State.routeOk, Bool.or_eq_true, decide_eq_true_eq] at h ⊢
    omega
  exact if_pos hn

/-- The control cores are signalled, by way of processor `cpu`. -/
def State.signalCore (cpu : Nat) : State :=
  ({ s with evt := { s.evt with core := s.evt.core ++ [(i, cpu, (s.src i).count)] } }).delivered i (s.autoAck i)

/-- The processor of the control cores that the words read prefer, 0 where none is eligible, which is counted. -/
def State.withCore : Nat × State :=
  match choosePrio ((s.freeVals 8).1.zipIdx.map fun (w, c) => (c, BitVec.ofNat 32 w)) with
  | some c => (c, (s.freeVals 8).2)
  | none => (0, (s.freeVals 8).2.count 0x0A2 16 1)

theorem State.withCore_state : s.withCore.2.evt = s.evt ∧ s.withCore.2.autoAck i = s.autoAck i := by
  rw [State.withCore]
  split <;> exact ⟨rfl, rfl⟩

theorem State.deliverCore_eq : s.deliverCore i = s.withCore.2.signalCore i s.withCore.1 := rfl

theorem State.deliverCore_out :
    (∃ cpu, (s.deliverCore i).evt.core = s.evt.core ++ [(i, cpu, (s.src i).count)])
      ∧ ((s.deliverCore i).src i).count = 0
      ∧ ((s.deliverCore i).src i).st = if s.autoAck i then 0 else 2 := by
  obtain ⟨hu, ha⟩ := s.withCore_state i
  have hsrc : s.withCore.2.src i = s.src i := by rw [State.src, State.src, hu]
  rw [s.deliverCore_eq, State.signalCore, State.delivered_src, ha]
  refine ⟨⟨s.withCore.1, ?_⟩, rfl, rfl⟩
  change s.withCore.2.evt.core ++ [(i, s.withCore.1, (s.withCore.2.src i).count)] = _
  rw [hu, hsrc]

end

/-! ### Acknowledgement -/

section
variable {s : State} {x : Word}

theorem exec_evtAck_taken (hst : (s.src (bitsOf x.toNat 8 0)).st = 2)
    (ha : s.autoAck (bitsOf x.toNat 8 0) = false) (ho : s.srcOpen (bitsOf x.toNat 8 0) = true) :
    exec (.evtAck x) s = .next (s.rearm (bitsOf x.toNat 8 0)) :=
  congrArg Host.Outcome.next ((if_neg (by simp [hst, ha])).trans (if_pos ho))

theorem exec_evtAck_counted
    (h : (s.src (bitsOf x.toNat 8 0)).st ≠ 2 ∨ s.autoAck (bitsOf x.toNat 8 0) = true) :
    exec (.evtAck x) s = .next (s.count 0x0A1 0 1) :=
  congrArg Host.Outcome.next (if_pos (by simpa using h))

theorem State.rearm_empty {i : Nat} (h : (s.src i).count = 0) :
    s.rearm i = s.setSrc i { s.src i with st := 0, sentAt := none } := if_pos h

theorem State.rearm_coalesces {i : Nat} (h : (s.src i).count ≠ 0) (hc : (s.src i).count < s.coalCount i) :
    s.rearm i = s.setSrc i { s.src i with st := 1, timer := s.now, sentAt := none } := by
  refine (if_neg h).trans (if_neg ?_)
  rw [State.setSrc_src, State.setSrc_coalCount]
  simpa using hc

end

/-! ### Settling the obligation -/

section
variable {s : State} {i p : Nat}

/-- One vector of the route is sent to, and which one. -/
theorem State.deliversTo.exec_open (h : s.deliversTo i p) (hr : (s.part p).remote = false) (hok : s.routeOk i p)
    (hopen : ∀ k, k ≤ s.routeN i → s.msixOpen ((s.part p).msixBase + s.routeVec i + k) = true) :
    ∃ t k, exec (.coalesceTimerExpiry i) s = .next t ∧ k ≤ s.routeN i
      ∧ t.hp.sent = s.hp.sent ++ [s.msixMessage ((s.part p).msixBase + s.routeVec i + k)]
      ∧ (t.src i).st = (if s.autoAck i then 0 else 2) ∧ (t.src i).count = 0 ∧ (t.src i).routeErr = false
      ∧ t.counter 0x0A0 p = s.counter 0x0A0 p + 1 := by
  obtain ⟨k, w, hk, hw, he⟩ := State.deliverLocal_vector hok
  rw [State.toVector_open _ _ _ ((hw.msixOpen _).trans (hopen k hk)), hw.autoAck] at he
  refine ⟨_, k, (h.exec_local hr).trans (congrArg _ he), hk, ?_, ?_⟩
  · exact (congrArg₂ (fun a b => a ++ [b]) (congrArg HostPort.sent hw.hp) (hw.msixMessage _) : _)
  · rw [State.delivered_src]
    exact ⟨rfl, rfl, rfl, (State.sendMsix_counts _ _ _).trans (congrArg (· + 1) hw.sends)⟩

theorem State.routeLines_held
    (h : ∀ l, s.routeFirst i / 16 ≤ l → l ≤ (s.routeFirst i + s.routeN i) / 16 →
      (s.part p).prioHeld.contains l = true) :
    s.readPrio p (s.routeLines i) = s := by
  refine State.readPrio_held fun a ha => ?_
  obtain ⟨hm, hle⟩ := List.mem_filter.mp ha
  obtain ⟨k, _, rfl⟩ := List.mem_map.mp hm
  exact h _ (Nat.le_add_left _ _) (by simpa using hle)

theorem State.deliversTo.exec_held {words : List (Nat × Word)} (h : s.deliversTo i p)
    (hr : (s.part p).remote = false) (hok : s.routeOk i p)
    (hheld : ∀ l, s.routeFirst i / 16 ≤ l → l ≤ (s.routeFirst i + s.routeN i) / 16 →
      (s.part p).prioHeld.contains l = true)
    (hwords : words = s.routeWords i p)
    (hopen : ∀ k, k ≤ s.routeN i → s.msixOpen ((s.part p).msixBase + s.routeVec i + k) = true) :
    ∃ t, exec (.coalesceTimerExpiry i) s = .next t
      ∧ (∀ c, choosePrio words = some c → t.counter 0x0A2 p = s.counter 0x0A2 p
          ∧ t.hp.sent = s.hp.sent ++ [s.msixMessage ((s.part p).msixBase + s.routeVec i + (c - s.routeFirst i))])
      ∧ (choosePrio words = none → t.counter 0x0A2 p = s.counter 0x0A2 p + 1
          ∧ t.hp.sent = s.hp.sent ++ [s.msixMessage ((s.part p).msixBase + s.routeVec i)]) := by
  subst hwords
  have he := s.deliverLocal_eq i p hok
  obtain ⟨k, hk, hcpu⟩ := State.withCpu_mem (i := i) (p := p) s
  rw [State.routeLines_held hheld, hcpu, Nat.add_sub_cancel_left] at he
  have hw : ((s.withCpu i p).2).hp = s.hp := (State.withCpu_state s i p).elim (congrArg State.hp) (congrArg State.hp)
  have ho : ((s.withCpu i p).2).msixOpen ((s.part p).msixBase + s.routeVec i + k) = true := by
    rw [State.msixOpen, hw]
    exact hopen k hk
  rw [State.toVector_open _ _ _ ho] at he
  refine ⟨_, (h.exec_local hr).trans (congrArg _ he), fun c hc => ?_, fun hc => ?_⟩
  · have hws : s.withCpu i p = (c, s) := by rw [State.withCpu, hc]
    rw [hws] at hcpu ⊢
    obtain rfl : c = s.routeFirst i + k := hcpu
    rw [Nat.add_sub_cancel_left]
    exact ⟨s.sendMsix_counter_other p _ (by decide), rfl⟩
  · have hws : s.withCpu i p = (s.routeFirst i, s.count 0x0A2 p 1) := by rw [State.withCpu, hc]
    rw [hws] at hcpu ⊢
    obtain rfl : k = 0 := Nat.left_eq_add.mp hcpu
    exact ⟨((s.count 0x0A2 p 1).sendMsix_counter_other p _ (by decide)).trans (State.count_counter _ _ _ _), rfl⟩

theorem State.deliversTo.exec_masked (h : s.deliversTo i p) (hr : (s.part p).remote = false) (hok : s.routeOk i p)
    (hmask : ∀ k, k ≤ s.routeN i → s.msixOpen ((s.part p).msixBase + s.routeVec i + k) = false) :
    ∃ t k, exec (.coalesceTimerExpiry i) s = .next t ∧ k ≤ s.routeN i ∧ t.hp.sent = s.hp.sent
      ∧ ((s.part p).msixBase + s.routeVec i + k, i) ∈ t.hp.pba ∧ (t.src i).st = 2 := by
  obtain ⟨k, w, hk, hw, he⟩ := State.deliverLocal_vector hok
  obtain ⟨hsent, hpba, hst⟩ := w.toVector_masked i p ((hw.msixOpen _).trans (hmask k hk))
  exact ⟨_, k, (h.exec_local hr).trans (congrArg _ he), hk, hsent.trans (congrArg HostPort.sent hw.hp), hpba, hst⟩

theorem State.routeFails_src :
    (s.routeFails i).src i
      = { s.src i with st := 0, count := 0, routeErr := true, sentAt := some s.now } := by
  rw [State.routeFails, State.count_src, State.setSrc_src]

end

/-- Settles O47: the choice of a processor stays within the route, reading priority lines leaves all but the
partition's words, and the message goes by the vector's state. -/
theorem events : Obligations.Events := by
  unfold Obligations.Events
  refine ⟨fun s i hi hst ho ht => ?_, fun s x hst ha ho hc => ?_, fun s x hst ha ho hc hlt => ?_, fun s x hst => ?_,
    fun s x ha => ?_, fun s i p h hr hok hopen => h.exec_open hr hok hopen,
    fun s i p words h hr hok hheld hwords hopen => h.exec_held hr hok hheld hwords hopen,
    fun s i p h hr hok hmask => h.exec_masked hr hok hmask, fun s i p h hr hok => ?_, fun s i p h hr => ?_⟩
  · obtain ⟨⟨cpu, hcore⟩, hcount, hs⟩ := s.deliverCore_out i
    exact ⟨_, (i, cpu, (s.src i).count), (exec_coalesceTimerExpiry s i hi hst ht).trans (congrArg _ (if_pos ho)), hcore, rfl, rfl, hcount, hs⟩
  · refine ⟨_, exec_evtAck_taken hst ha ho, ?_⟩
    rw [State.rearm_empty hc, State.setSrc_src]
    exact ⟨rfl, rfl⟩
  · refine ⟨_, exec_evtAck_taken hst ha ho, ?_⟩
    rw [State.rearm_coalesces hc hlt, State.setSrc_src]
    exact ⟨rfl, rfl⟩
  · exact ⟨_, exec_evtAck_counted (.inl hst), State.count_counter _ _ _ _, rfl⟩
  · exact ⟨_, exec_evtAck_counted (.inr ha), State.count_counter _ _ _ _, rfl⟩
  · refine ⟨_, (h.exec_local hr).trans (congrArg _ (s.deliverLocal_bad i p hok)), ?_⟩
    rw [State.routeFails_src]
    exact ⟨rfl, rfl, rfl, State.count_counter _ _ _ _, rfl, rfl⟩
  · refine ⟨_, _, h.exec_remote hr, rfl, rfl, rfl, rfl, rfl, rfl,
      congrArg (s.eventMessage i p) (apply_ite BitVec.toNat _ _ _), ?_⟩
    rw [State.deliverRemote, State.count_src, State.setSrc_src, State.count_part, State.setSrc_part,
      State.modPart_part]
    exact ⟨rfl, rfl, rfl, rfl, rfl, State.count_counter _ _ _ _⟩

end Sys2Proof.Machine


/-! ## Ports and queue pairs (chapter 13) -/

namespace Sys2Proof.Machine

/-! ### What leaves the network alone -/

section
variable (s : State)

theorem State.coreCause_net (b : Nat) : (s.coreCause b).net = s.net :=
  net_of (State.coreCause_same (.refl _ _) b rfl rfl rfl rfl rfl rfl)

theorem State.causeTo_net (p b : Nat) : (s.causeTo p b).net = s.net :=
  net_of (State.causeTo_same (.refl _ _) p b rfl rfl rfl rfl rfl rfl)

theorem State.causeAll_net (b : Nat) : (s.causeAll b).net = s.net :=
  net_of (State.causeAll_same (.refl _ _) b rfl rfl rfl rfl rfl rfl)

theorem State.detachPart_net (p : Nat) : (s.detachPart p).net = s.net :=
  net_of (State.detachPart_same (.refl _ _) p rfl rfl rfl rfl)

theorem State.failXfers_net (pick : Xfer → Bool) : (s.failXfers pick).net = s.net :=
  net_of (State.failXfers_same (.refl _ _) pick rfl rfl rfl rfl rfl rfl rfl rfl rfl rfl rfl rfl rfl rfl rfl)

theorem State.failStaging_net (pick : Nat → Seg → Bool) : (s.failStaging pick).net = s.net :=
  net_of (State.failStaging_same (.refl _ _) pick rfl rfl rfl rfl rfl rfl rfl rfl rfl rfl rfl rfl)

theorem State.partnerLost_net (q : Nat) : (s.partnerLost q).net = s.net :=
  net_of (State.partnerLost_same (.refl _ _) q rfl rfl rfl rfl rfl rfl rfl rfl)

theorem State.receiverLost_net (q : Nat) : (s.receiverLost q).net = s.net :=
  net_of (State.receiverLost_same (.refl _ _) q rfl)

end

/-! ### A failed queue pair (R278) -/

/-- A queue pair in ERROR, with its cause. -/
def Qp.failed (v : Qp) (cause : Nat) : Qp := { v with st := 2, err := cause, resp := [], rnrWait := false }

section
variable (s : State) (q cause : Nat)

/-- Only the queue pair itself changes in the network. -/
theorem State.qpFail_net : (s.qpFail q cause).net = (s.modQp q (·.failed cause)).net := by
  have hlost (u : State) : ((u.partnerLost q).receiverLost q).net = u.net :=
    (State.receiverLost_net _ q).trans (State.partnerLost_net u q)
  have hmsgs (u : State) (f : Xfer → Bool) (g : Nat → Seg → Bool) : ((u.failXfers f).failStaging g).net = u.net :=
    (State.failStaging_net _ g).trans (State.failXfers_net u f)
  rw [State.qpFail]
  dsimp only
  split
  all_goals
    simp only [State.causeTo_net, State.coreCause_net, State.count_net, hlost, hmsgs]
    split
    · rw [State.detachPart_net]
      rfl
    · rfl

theorem State.qpFail_qp : (s.qpFail q cause).qp q = (s.qp q).failed cause := by
  rw [State.qp, State.qpFail_net]
  exact State.modQp_qp _ _ _

/-- The network but for its queue pairs, windows and packets: modes, mode errors, ports and cables. -/
def State.portSide : FMap Nat × Nat × FMap Port × List Nat :=
  (s.net.modes, s.net.modeErr, s.net.ports, s.net.noCable)

theorem State.qpFail_portSide : (s.qpFail q cause).portSide = s.portSide := by
  rw [State.portSide, State.qpFail_net]
  rfl

theorem State.portChanged_portSide (gs : List Nat) : (s.portChanged gs).portSide = s.portSide :=
  State.each_inv State.portSide _ _ (fun u q => u.qpFail_portSide q 6) _

theorem State.ratesFree_portSide : s.ratesFree.portSide = s.portSide := by
  rw [State.ratesFree]
  split <;> rfl

end

/-! ### Enabling a port (R272 to R274, R353) -/

section
variable {s t : State} {n g : Nat}

theorem State.portSide_congr (h : t.portSide = s.portSide) :
    t.net.modes = s.net.modes ∧ t.net.modeErr = s.net.modeErr ∧ t.net.ports = s.net.ports
      ∧ t.net.noCable = s.net.noCable := by
  simpa only [State.portSide, Prod.mk.injEq] using h

/-- The mode a group works in follows from the port side of the network and the stored mode. -/
theorem State.modeOf_congr (h : t.portSide = s.portSide) (hr : t.regW 0x80000 = s.regW 0x80000) (g : Nat) :
    t.modeOf g = s.modeOf g := by
  obtain ⟨hm, he, hp, _⟩ := State.portSide_congr h
  have hstored : t.netMode g = s.netMode g := by rw [State.netMode, State.regF, hr, State.netMode, State.regF]
  have hheld : t.heldMode g = s.heldMode g := by rw [State.heldMode, State.heldMode, hm, hstored]
  have hon : t.groupOn g = s.groupOn g := by
    simp only [State.groupOn, State.lanesOn, State.port, hm, he, hp]
  rw [State.modeOf, State.modeOf, hon, hheld, hstored]

theorem State.cabled_congr (h : t.portSide = s.portSide) (hr : t.regW 0x80000 = s.regW 0x80000) (n : Nat) :
    t.cabled n = s.cabled n := by
  rw [State.cabled, State.cabled, State.modeOf_congr h hr, (State.portSide_congr h).2.2.2]

/-- A port comes up on a group whose mode stands: its registers are latched and its link trains. -/
def State.portStarts (s : State) (n : Nat) : State :=
  let u := s.setReg (portReg n) (s.regW (portReg n) ||| 1#32)
  let lat := u.group (portReg n) [0x00, 0x04, 0x08, 0x0C, 0x10, 0x14, 0x18, 0x1C]
  u.setPort n { u.port n with
    enabled := true, lat := lat
    link := if (u.net.modeErr.testBit (n / 4) || latF lat 0 2 1 == 3) || latF lat 0 2 1 == 2 || !u.cabled n
      then 0 else 1 }

theorem State.portOn_eq (hn : n < 16) (hp : s.powered = true) (he : (s.port n).enabled = false)
    (hl : firstLane n (s.modeOf (n / 4)) = true) :
    s.portOn n = (if s.groupOn (n / 4) then s else s.latchMode (n / 4)).portStarts n :=
  (if_neg (by simp [hn, he, hp])).trans (if_neg (by simp [hl]))

theorem portReg_ne_modes (n : Nat) : 0x80000 ≠ portReg n := by
  rw [portReg]
  omega

theorem bitsOf_set_bit0 (w : Word) : bitsOf (w ||| 1#32).toNat 0 0 = 1 := by
  simp [bitsOf]

theorem bitsOf_or_one (w : Word) : bitsOf (w ||| 1#32).toNat 2 1 = bitsOf w.toNat 2 1 := by
  simp [bitsOf, Nat.shiftRight_or_distrib]

theorem State.portStarts_port (s : State) (n : Nat) :
    ((s.portStarts n).port n).enabled = true
      ∧ ((s.portStarts n).port n).link
        = (if (s.net.modeErr.testBit (n / 4) || s.regF (portReg n) 2 1 == 3) || s.regF (portReg n) 2 1 == 2
            || !s.cabled n then 0 else 1)
      ∧ (s.portStarts n).regF (portReg n) 0 0 = 1 := by
  have hlat (l : List Nat) :
      latF ((s.setReg (portReg n) (s.regW (portReg n) ||| 1#32)).group (portReg n) (0x00 :: l)) 0 2 1
        = s.regF (portReg n) 2 1 := by
    change bitsOf ((s.setReg (portReg n) (s.regW (portReg n) ||| 1#32)).regW (portReg n)).toNat 2 1 = _
    rw [State.setReg_regW, bitsOf_or_one, State.regF]
  have hcab := State.cabled_congr (s := s) (t := s.setReg (portReg n) (s.regW (portReg n) ||| 1#32)) rfl
    (s.setReg_regW_ne _ (portReg_ne_modes n)) n
  rw [State.portStarts, State.setPort_port]
  refine ⟨rfl, ?_, ?_⟩
  · simp only [hlat, hcab]
    rfl
  · rw [State.setPort_regF, State.regF, State.setReg_regW]
    exact bitsOf_set_bit0 _

/-- A port that may train does, unless its PMD trains nothing. -/
theorem State.portStarts_trains (he : s.net.modeErr.testBit (n / 4) = false) (hc : s.cabled n = true)
    (hr : s.regF (portReg n) 2 1 ≠ 3) :
    ((s.portStarts n).port n).link = if s.regF (portReg n) 2 1 = 2 then 0 else 1 := by
  rw [(s.portStarts_port n).2.1]
  simp [he, hc, hr]

/-! ### A group that latches its mode (R274) -/

/-- A group whose mode joins no pair latches its own mode alone, and no error stands on the pair. -/
theorem State.latchMode_portSide (hm : s.netMode g ≠ 3) (hp : s.modeOf (pairOf g) ≠ 3) :
    (s.latchMode g).portSide
      = (FMap.set s.net.modes g (s.netMode g), s.net.modeErr &&& (15 - (2 ^ g + 2 ^ pairOf g)), s.net.ports,
          s.net.noCable) := by
  simp only [State.latchMode, State.ratesFree_portSide, State.portChanged_portSide, hm, hp, decide_false,
    Bool.false_and, beq_eq_false_iff_ne.mpr hm, beq_eq_false_iff_ne.mpr hp, bne_self_eq_false, Bool.false_eq_true,
    if_false, List.foldl_cons, List.foldl_nil]
  rfl

theorem modeErr_cleared {e : Nat} (hg : g < 4) : (e &&& (15 - (2 ^ g + 2 ^ pairOf g))).testBit g = false := by
  have h : (15 - (2 ^ g + 2 ^ pairOf g)).testBit g = false := by
    interval_cases g <;> rfl
  rw [Nat.testBit_and, h, Bool.and_false]

/-- The group latched by its first port: no error, its mode held, and the port's cable as before. -/
theorem State.latchMode_first (hn : n < 16) (hoff : s.groupOn (n / 4) = false) (hm : s.netMode (n / 4) ≠ 3)
    (hp : s.modeOf (pairOf (n / 4)) ≠ 3) :
    (s.latchMode (n / 4)).net.modeErr.testBit (n / 4) = false
      ∧ FMap.find (s.latchMode (n / 4)).net.modes (n / 4) = some (s.netMode (n / 4))
      ∧ (s.latchMode (n / 4)).cabled n = s.cabled n := by
  have hs := s.latchMode_portSide hm hp
  simp only [State.portSide, Prod.mk.injEq] at hs
  obtain ⟨hmodes, herr, hports, hcab⟩ := hs
  have hreg := State.regW_congr (s.latchMode_regs (n / 4))
  have hlanes : (s.latchMode (n / 4)).lanesOn (n / 4) = s.lanesOn (n / 4) := by
    simp only [State.lanesOn, State.port, hports]
  have hfind : FMap.find (s.latchMode (n / 4)).net.modes (n / 4) = some (s.netMode (n / 4)) := by
    rw [hmodes, FMap.find_set_self]
  have hoff' : (s.latchMode (n / 4)).groupOn (n / 4) = false := by
    rw [State.groupOn] at hoff ⊢
    rw [hlanes, (Bool.or_eq_false_iff.mp hoff).1, hfind]
    simp [hm]
  have hmode : (s.latchMode (n / 4)).modeOf (n / 4) = s.modeOf (n / 4) := by
    simp only [State.modeOf, hoff, hoff', Bool.false_eq_true, if_false, State.netMode, State.regF, hreg]
  refine ⟨?_, hfind, ?_⟩
  · rw [herr]
    exact modeErr_cleared (by omega)
  · rw [State.cabled, State.cabled, hcab, hmode]

end

/-! ### Settling the obligation -/

section
variable {s : State} {n : Nat}

theorem State.linkLost_port (s : State) (n to_ : Nat) :
    (s.linkLost n to_).port n = { s.port n with link := to_ } := by
  rw [State.linkLost]
  dsimp only
  split
  · rw [State.port, State.causeAll_net, State.count_net]
    exact State.setPort_port _ _ _
  · exact State.setPort_port _ _ _

theorem State.linkLost_up (to_ : Nat) (hn : n < 16) (h : (s.port n).link = 2) :
    (s.linkLost n to_).counter 0x099 n = s.counter 0x099 n + 1 ∧ (s.linkLost n to_).hasCause cLinkDown := by
  have e : s.linkLost n to_ = State.causeAll _ cLinkDown := if_pos h
  rw [e]
  refine ⟨(State.causeAll_ctr _ _ _ _ ?_).trans (State.count_counter _ _ _ _), State.causeAll_hasCause _ _⟩
  rw [ctrKey]
  omega

theorem State.portOff_eq (h : (s.port n).enabled = true) :
    ((s.portOff n).port n).enabled = false ∧ ((s.portOff n).port n).link = 0
      ∧ (s.portOff n).regF (portReg n) 0 0 = 0 := by
  have e : s.portOff n = State.setPort _ n _ := if_neg (by simp [h])
  rw [e, State.setPort_port]
  refine ⟨rfl, rfl, ?_⟩
  rw [State.setPort_regF, State.regF, State.regW_congr (State.linkLost_regs _ _ _), State.setReg_regW]
  simpa using store_bit0 (s.regW (portReg n))

theorem State.qpConnect_ok (h : s.connectErr (s.qp s.qpSel) = 0) :
    ∃ t, exec .qpConnect s = .next t ∧ t.net.cmdErr = 0 ∧ (t.qp s.qpSel).st = 1
      ∧ (t.qp s.qpSel).lat = (s.qp s.qpSel).ctx ∧ (t.qp s.qpSel).err = 0
      ∧ (t.qp s.qpSel).sqPsn = (s.qp s.qpSel).c 0x48 23 0 ∧ (t.qp s.qpSel).rqPsn = (s.qp s.qpSel).c 0x4C 23 0 := by
  refine ⟨State.setQp _ s.qpSel _, congrArg Host.Outcome.next (if_neg (by simp [h])), h, ?_⟩
  rw [State.setQp_qp]
  exact ⟨rfl, rfl, rfl, rfl, rfl⟩

/-- The block as QP_RESET leaves it before the queue pair returns to RESET. -/
def State.resetFails (s : State) : State :=
  if (s.qp s.qpSel).st = 1 then { s with net := { s.net with cmdErr := 0 } }.qpFail s.qpSel 5
  else { s with net := { s.net with cmdErr := 0 } }

theorem State.resetFails_cmdErr (s : State) : s.resetFails.net.cmdErr = 0 := by
  rw [State.resetFails]
  split
  · rw [State.qpFail_net]
    rfl
  · rfl

theorem State.qpReset_eq (s : State) :
    ∃ t, exec .qpReset s = .next t ∧ (t.qp s.qpSel).st = 0 ∧ t.net.cmdErr = 0 := by
  have e : exec .qpReset s = .next (if (s.resetFails.qp s.qpSel).st = 0 then s.resetFails
      else s.resetFails.modQp s.qpSel fun v => { v with st := 0, retries := 0, rnr := 0 }) := rfl
  rw [e]
  split
  case isTrue h => exact ⟨_, rfl, h, s.resetFails_cmdErr⟩
  case isFalse => exact ⟨_, rfl, by rw [State.modQp_qp], s.resetFails_cmdErr⟩

end

/-- Settles O44: enabling and disabling write the port and its enable bit, a failing queue pair touches no port, and
the causes raised touch no network state. -/
theorem portsAndQueues : Obligations.PortsAndQueues := by
  unfold Obligations.PortsAndQueues
  refine ⟨fun s n hn hp hc he hg hl hm hr => ?_, fun s n hn hp hc he hg hm hpm hl hr => ?_, fun s n he => ?_,
    fun s n hp hn hc he hg hl => ?_, fun s n he hl hc => ?_, fun s n he hpmd hl hm hc => ?_, fun s n hn hl => ?_,
    fun s h => State.qpConnect_ok h, fun s h => ?_, State.qpReset_eq⟩
  · have hmode : s.modeOf (n / 4) = s.heldMode (n / 4) := if_pos hg
    refine ⟨s.portStarts n, congrArg Host.Outcome.next ((State.portOn_eq hn hp he (hmode ▸ hl)).trans ?_), ?_⟩
    · rw [if_pos hg]
    · exact ⟨(s.portStarts_port n).1, State.portStarts_trains hm hc hr, (s.portStarts_port n).2.2⟩
  · have hmode : s.modeOf (n / 4) = s.netMode (n / 4) := if_neg (by simp [hg])
    obtain ⟨herr, hfind, hcab⟩ := State.latchMode_first hn hg hm hpm
    have hreg : (s.latchMode (n / 4)).regF (portReg n) 2 1 = s.regF (portReg n) 2 1 := by
      rw [State.regF, State.regW_congr (s.latchMode_regs _), State.regF]
    refine ⟨(s.latchMode (n / 4)).portStarts n,
      congrArg Host.Outcome.next ((State.portOn_eq hn hp he (hmode ▸ hl)).trans ?_), ?_⟩
    · rw [if_neg (by simp [hg])]
    · have htr := State.portStarts_trains herr (hcab.trans hc) (hreg ▸ hr)
      rw [hreg] at htr
      obtain ⟨hen, _, hbit⟩ := (s.latchMode (n / 4)).portStarts_port n
      exact ⟨hen, htr, hbit, hfind⟩
  · exact ⟨_, rfl, State.portOff_eq he⟩
  · have hmode : s.modeOf (n / 4) = s.heldMode (n / 4) := if_pos hg
    obtain ⟨hen, hlink, _⟩ := s.portStarts_port n
    refine ⟨s.portStarts n, congrArg Host.Outcome.next ((State.portOn_eq hn hp he (hmode ▸ hl)).trans ?_), hen, ?_⟩
    · rw [if_pos hg]
    · rw [hlink, hc]
      simp
  · refine ⟨State.setPort _ n _, congrArg Host.Outcome.next (if_pos (by simp [he, hl, hc])), ?_⟩
    rw [State.setPort_port]
    exact ⟨rfl, rfl⟩
  · refine ⟨State.setPort _ n _, congrArg Host.Outcome.next (if_pos (by simp [he, hpmd, hl, hm, hc])), ?_⟩
    rw [State.setPort_port]
    exact ⟨rfl, rfl⟩
  · refine ⟨_, congrArg Host.Outcome.next (if_pos hl), ?_, State.linkLost_up _ hn hl⟩
    rw [State.linkLost_port]
    simp
  · exact ⟨_, congrArg Host.Outcome.next (if_pos (by simpa using h)), rfl, rfl⟩

end Sys2Proof.Machine


/-! ## RESTORE (R327 to R330) -/

namespace Sys2Proof.Machine

/-! ### Asking the partner -/

section
variable (s : State) (c : Cmd) (replica : List Bytes)

/-- Asking for the replica moves no more than the messages. -/
theorem State.askReplica_frame :
    (s.askReplica c).fe = s.fe ∧ (s.askReplica c).rel = s.rel ∧ (s.askReplica c).ream = s.ream
      ∧ (s.askReplica c).mem = s.mem := by
  rw [State.askReplica]
  split <;> exact ⟨rfl, rfl, rfl, rfl⟩

theorem State.askReplica_source : (s.askReplica c).restoreSource c replica = s.restoreSource c replica := by
  rw [State.askReplica]
  split <;> rfl

theorem State.askReplica_check (log : List VRec) : (s.askReplica c).restoreCheck c log = s.restoreCheck c log := by
  rw [State.askReplica]
  split <;> rfl

theorem State.askReplica_tableId : (s.askReplica c).tableId = s.tableId := by
  rw [State.askReplica]
  split <;> rfl

variable {s c} in
theorem State.askReplica_out (hp : c.f 16 1 = 1) (hup : s.qpUp (c.f 18 2) = true) :
    ∃ x, (s.askReplica c).io.out = s.io.out ++ [x] ∧ x.qp = some (c.f 18 2) ∧ x.kind = 2
      ∧ x.data = natLe 8 (c.f 24 8) := by
  rw [State.askReplica, if_pos (by simp [hp, hup])]
  exact ⟨_, rfl, rfl, rfl, rfl⟩

end

/-! ### The command -/

section
variable {s u : State} {r q : Nat} {c : Cmd} {replica : List Bytes}

theorem exec_restore_refused (h : s.passes r q 0x52 c u) (hnone : u.rel.restore = none)
    (hwhy : u.restoreCheck c (u.restoreSource c replica) ≠ 0) :
    exec (.restore r q replica) s
      = .next ((u.askReplica c).finish (cmdKey r q) stRestoreReject (u.restoreCheck c (u.restoreSource c replica))) := by
  have hr : (u.askReplica c).rel.restore = none := (congrArg Rel.restore (u.askReplica_frame c).2.1).trans hnone
  have hne : (u.restoreCheck c (u.restoreSource c replica) != 0) = true := by simpa using hwhy
  change execRestore _ _ _ _ = _
  simp only [execRestore, h.front, hr, u.askReplica_source, u.askReplica_check, hne, Option.isSome_none,
    Bool.false_eq_true, if_false, if_true, State.restoreReject]

theorem exec_restore_runs {p : Point} (h : s.passes r q 0x52 c u) (hnone : u.rel.restore = none)
    (hwhy : u.restoreCheck c (u.restoreSource c replica) = 0)
    (hp : findPoint (u.restoreSource c replica) u.tableId = some p) :
    exec (.restore r q replica) s
      = .next ((u.askReplica c).restoreRun (cmdKey r q) c (u.restoreSource c replica) p replica) := by
  have hr : (u.askReplica c).rel.restore = none := (congrArg Rel.restore (u.askReplica_frame c).2.1).trans hnone
  change execRestore _ _ _ _ = _
  simp only [execRestore, h.front, hr, u.askReplica_source, u.askReplica_check, u.askReplica_tableId, hwhy, hp,
    Option.isSome_none, bne_self_eq_false, Bool.false_eq_true, if_false]

end

/-- The block as a restore finds it before its first record: nothing admitted, the directories empty, the moves'
counters at 0. -/
def State.restoreStart (s : State) (k : Nat) : State :=
  let s := s.closeAdmission.setPhase k .running
  let s := { s with gat := { s.gat with dirs := FMap.mapV s.gat.dirs fun _ _ => [], flips := [] } }
  s.each s.tileList fun s t => s.setCtr 0x037 t 0

/-- Records that replay, a replica that did not break off and digests that agree lead to the rest of the restore. -/
theorem State.restoreRun_agrees {s v : State} {k : Nat} {c : Cmd} {log : List VRec} {p : Point} {replica : List Bytes}
    (hv : (s.restoreStart k).replayAll (recsIn log (s.restoreStart k).tableId p.base (p.commit + 1)) = (v, true))
    (hrep : c.f 16 1 = 1 → ∀ b ∈ replica, b ≠ []) (hd : v.digestsDiffer c log p replica = false) :
    s.restoreRun k c log p replica = v.restoreRest k c log p := by
  have hbroke : ¬ (decide (c.f 16 1 = 1) && replica.any (·.isEmpty)) = true := by
    simp only [Bool.and_eq_true, decide_eq_true_eq, List.any_eq_true, List.isEmpty_iff, not_and, not_exists]
    exact hrep
  rw [State.restoreStart] at hv
  simp only [State.restoreRun, hv, hbroke, hd, Bool.not_true, Bool.false_eq_true, if_false]

theorem State.restoreRest_waits (s : State) (k : Nat) (c : Cmd) (log : List VRec) (p : Point) :
    (s.restoreRest k c log p).rel.restoring = true
      ∧ ∃ x f, (s.restoreRest k c log p).rel.restore = some (k, x, f) :=
  ⟨rfl, _, _, rfl⟩

/-! ### The sweep boundary -/

/-- Changes of a sweep boundary without a grant and without a patch, up to the end of a restore. -/
def State.sweepSettled (s : State) : State :=
  let s := s.modeSwitch.escalate.setBounds.useBounds
  let s := { s with ream := { s.ream with skipN := s.ream.skipNext } }
  s.flipMoves.gateIdle

/-- The new sweep has begun. -/
def State.sweepBegun (s : State) : State :=
  { s with ream := { s.ream with
    sweeps := (s.ream.sweeps + 1) % 2 ^ 48, sweepAt := s.feltNow, interval := 0, slotDone := false, grantNext := none } }

/-- Admission opens, and no restore is left. -/
def State.opened (s : State) : State :=
  { s with
    ream := { s.ream with admission := true }
    rel := { s.rel with restore := none, restoring := false } }

section
variable (s : State)

theorem State.modeSwitch_job : s.modeSwitch.ream.job = s.ream.job := by
  rw [State.modeSwitch]
  split
  · rfl
  · split <;> rfl

theorem State.causeAll_ream (b : Nat) : (s.causeAll b).ream = s.ream :=
  ream_of (State.causeAll_same (.refl _ _) b rfl rfl rfl rfl rfl rfl)

/-- One more layer is in ESC_STATE. -/
def State.setEsc (l : Nat) : State :=
  (({ s with ream := { s.ream with esc := s.ream.esc ||| BitVec.ofNat 32 (2 ^ l) } }).count 0x008 0 1).causeAll
    cEscalation

theorem State.setEsc_job (l : Nat) : (s.setEsc l).ream.job = s.ream.job := by
  rw [State.setEsc, State.causeAll_ream]
  rfl

/-- Posts that have set a bit are marked, and no decision is left. -/
def State.escMarked (ks : List Nat) : State :=
  let t := s.each ks fun s k => s.modPost k fun v => { v with flags := v.flags ||| 4 }
  { t with ream := { t.ream with escPend := [] } }

theorem State.escMarked_job (ks : List Nat) : (s.escMarked ks).ream.job = s.ream.job :=
  State.each_inv (·.ream.job) ks _ (fun u k => congrArg Ream.job (State.modPost_ream u k _)) s

theorem State.escalate_job : s.escalate.ream.job = s.ream.job :=
  (State.each_inv (·.ream.job) _ State.setEsc State.setEsc_job _).trans (s.escMarked_job _)

/-- A group idle for another sweep is gated once it has been for long enough. -/
theorem State.gateIfDue_job (lim : Option Nat) (n g : Nat) :
    (match lim with
      | some lim => if lim ≤ n then s.gateGroup g else s
      | none => s).ream.job = s.ream.job := by
  cases lim with
  | none => rfl
  | some lim =>
    by_cases h : lim ≤ n
    · simp only [h, if_true]
      exact congrArg Ream.job (ream_of (State.gateGroup_same (.refl _ _) g rfl rfl))
    · simp only [h, if_false]

theorem State.gateIdle_job : s.gateIdle.ream.job = s.ream.job := by
  refine State.each_inv (·.ream.job) _ _ (fun u g => ?_) s
  dsimp only
  split
  · rfl
  · exact State.gateIfDue_job _ _ _ g

theorem State.sweepSettled_frame :
    s.sweepSettled.fe = s.fe ∧ s.sweepSettled.rel = s.rel ∧ s.sweepSettled.ream.job = s.ream.job := by
  have hfe : s.sweepSettled.fe = s.fe := by
    refine fe_of (State.gateIdle_same (State.flipMoves_same ?_ rfl rfl rfl) rfl rfl rfl)
    refine same_mk.mpr (SameParts.upd_ream ?_ rfl)
    exact State.useBounds_same (State.setBounds_same (State.escalate_same (State.modeSwitch_same (.refl _ _) rfl)
      rfl rfl rfl rfl rfl rfl rfl rfl) rfl) rfl
  have hrel : s.sweepSettled.rel = s.rel := by
    refine rel_of (State.gateIdle_same (State.flipMoves_same ?_ rfl rfl rfl) rfl rfl rfl)
    refine same_mk.mpr (SameParts.upd_ream ?_ rfl)
    exact State.useBounds_same (State.setBounds_same (State.escalate_same (State.modeSwitch_same (.refl _ _) rfl)
      rfl rfl rfl rfl rfl rfl rfl rfl) rfl) rfl
  refine ⟨hfe, hrel, ?_⟩
  have hbounds (u : State) : u.setBounds.useBounds.ream = u.ream :=
    ream_of (State.useBounds_same (State.setBounds_same (.refl _ _) rfl) rfl)
  have hflip (u : State) : u.flipMoves.ream = u.ream := ream_of (State.flipMoves_same (.refl _ _) rfl rfl rfl)
  rw [State.sweepSettled, State.gateIdle_job, hflip]
  change (s.modeSwitch.escalate.setBounds.useBounds).ream.job = _
  rw [hbounds, State.escalate_job, State.modeSwitch_job]

variable {s}

theorem State.opened_frame (s : State) :
    s.opened.fe = s.fe ∧ s.opened.ream.job = s.ream.job ∧ s.opened.ream.admission = true
      ∧ s.opened.rel.restore = none ∧ s.opened.rel.restoring = false :=
  ⟨rfl, rfl, rfl, rfl, rfl⟩

theorem State.sweepBegun_frame (s : State) :
    s.sweepBegun.fe = s.fe ∧ s.sweepBegun.rel = s.rel ∧ s.sweepBegun.ream.job = s.ream.job
      ∧ s.sweepBegun.ream.grantNext = none :=
  ⟨rfl, rfl, rfl, rfl⟩

theorem State.grantSwitch_none (h : s.ream.grantNext = none) : s.grantSwitch = s := by
  rw [State.grantSwitch, h]

theorem State.patchSwitch_none (h : s.ream.job = none) : s.patchSwitch = s := by
  rw [State.patchSwitch, h]

theorem State.restoreOpen_some {k x f : Nat} (h : s.rel.restore = some (k, x, f)) :
    s.restoreOpen = s.opened.finish k stOk x f := by
  rw [State.restoreOpen, h]
  rfl

theorem State.sweepChanges_quiet (hg : s.ream.grantNext = none) (hj : s.ream.job = none) :
    s.sweepChanges = s.sweepSettled.restoreOpen := by
  rw [State.sweepChanges, State.grantSwitch_none hg, State.patchSwitch_none hj]
  rfl

/-- A boundary without a grant to come and without a job makes its changes and no more. -/
theorem State.boundary_quiet {t : State} (hg : s.ream.grantNext = none)
    (ht : State.sweepChanges { s with ream := { s.ream with grantNext := none } } = t) (hj : t.ream.job = none) :
    s.boundary = t := by
  have hl : s.grantLines = [] := by rw [State.grantLines, hg]
  simp only [State.boundary, hl, hg, List.isEmpty_nil, if_true, Bool.true_or, ht, hj]

theorem exec_sweepBoundary_restores {k x f : Nat} (hres : s.ream.resident = true) (hstuck : s.rel.stuck = false)
    (hint : hSlots s.ream.hdr ≤ s.ream.interval) (hjob : s.ream.job = none) (hgrant : s.ream.grantNext = none)
    (hrest : s.rel.restore = some (k, x, f)) :
    exec .sweepBoundary s
      = .next (s.sweepBegun.sweepSettled.opened.finish k stOk x f) := by
  obtain ⟨-, hrel, hkeep⟩ := s.sweepBegun.sweepSettled_frame
  obtain ⟨-, hrel', hjob', hgrant'⟩ := s.sweepBegun_frame
  have hsettled : s.sweepBegun.sweepSettled.rel.restore = some (k, x, f) := by rw [hrel, hrel', hrest]
  have hnojob : (s.sweepBegun.sweepSettled.opened.finish k stOk x f).ream.job = none := by
    rw [State.finish_ream, (State.opened_frame _).2.1, hkeep, hjob', hjob]
  refine congrArg Host.Outcome.next ((if_neg ?_).trans (State.boundary_quiet hgrant ?_ hnojob))
  · simp [hres, hstuck, hint]
  · exact (State.sweepChanges_quiet hgrant' (hjob'.trans hjob)).trans (State.restoreOpen_some hsettled)

end

/-- Settles O22: a refusal is decided before anything changes, a restore that agrees ends in one record of what it will
complete with, and no other change of a sweep boundary touches that record. -/
theorem restoring : Obligations.Restoring := by
  unfold Obligations.Restoring
  refine ⟨fun s u r q c replica h hnone hwhy => ?_, fun s u v0 v1 v2 v r q c replica p h hnone hwhy hp h0 h1 h2 hv hrep
    hd => ?_, fun s k x f c hres hstuck hint hjob hgrant hrest hc hk => ?_⟩
  · obtain ⟨hfe, hrel, hream, hmem⟩ := u.askReplica_frame c
    refine ⟨_, exec_restore_refused h hnone hwhy, h.done (congrArg Front.cmds hfe) _ _ _, ?_, ?_, ?_, fun hpartner hup => ?_⟩
    · rw [State.finish_mem, hmem]
    · rw [State.finish_rel, hrel]
    · rw [State.finish_ream, hream]
    · obtain ⟨x, hx, hqp, hkind, hdata⟩ := State.askReplica_out hpartner hup
      exact ⟨x, (congrArg Io.out (State.finish_io ..)).trans hx, hqp, hkind, hdata⟩
  · subst h0 h1 h2
    obtain ⟨hrestoring, x, f, hrestore⟩ := v.restoreRest_waits (cmdKey r q) c (u.restoreSource c replica) p
    exact ⟨_, x, f, (exec_restore_runs h hnone hwhy hp).trans (congrArg _ (State.restoreRun_agrees hv hrep hd)),
      hrestoring, hrestore⟩
  · obtain ⟨hfe, -, -⟩ := s.sweepBegun.sweepSettled_frame
    obtain ⟨hfe', -, hadm, hrest', hrestoring⟩ := s.sweepBegun.sweepSettled.opened_frame
    have hcmds : s.sweepBegun.sweepSettled.opened.fe.cmds = s.fe.cmds := by
      rw [hfe', hfe, s.sweepBegun_frame.1]
    refine ⟨_, exec_sweepBoundary_restores hres hstuck hint hjob hgrant hrest,
      State.finish_done hcmds hc hk _ _ _, ?_, ?_, ?_⟩
    · rw [State.finish_rel, hrestoring]
    · rw [State.finish_rel, hrest']
    · rw [State.finish_ream, hadm]

end Sys2Proof.Machine


/-! ## Frames and messages received (chapter 13) -/

namespace Sys2Proof.Machine

/-! ### The state but for its network -/

/-- The block with another network state. -/
def State.withNet (s : State) (n : Net) : State := { s with net := n }

section
variable (s : State) (n : Net)

theorem State.withNet_mem : (s.withNet n).mem = s.mem := rfl

theorem State.withNet_each {α : Type} {f : State → α → State}
    (h : ∀ s a, f (s.withNet n) a = (f s a).withNet n) (l : List α) :
    (s.withNet n).each l f = (s.each l f).withNet n :=
  List.foldl_hom (fun s : State => s.withNet n) h

theorem State.withNet_t1Write (a : Nat) (b : Bytes) :
    (s.withNet n).t1Write a b = (s.t1Write a b).withNet n := by
  rw [State.t1Write, State.t1Write]
  by_cases h : s.anyFailed = true
  · rw [if_pos h]
    exact if_pos h
  · rw [if_neg h]
    exact if_neg h

theorem State.withNet_cacheWritten (a len : Nat) :
    (s.withNet n).cacheWritten a len = (s.cacheWritten a len).withNet n := by
  rw [State.cacheWritten, State.cacheWritten]
  by_cases h : s.tiers.cache.isEmpty = true
  · rw [if_pos h]
    exact if_pos h
  · rw [if_neg h]
    exact if_neg h

theorem State.withNet_writeT1 (a : Nat) (b : Bytes) :
    (s.withNet n).writeT1 a b [] = (s.writeT1 a b []).withNet n := by
  change ((s.withNet n).t1Write a b).cacheWritten a b.length = ((s.t1Write a b).cacheWritten a b.length).withNet n
  rw [State.withNet_t1Write, State.withNet_cacheWritten]

/-- Parts of a window write that reach tier-1: whole sheets, and of others those that are not poisoned (R287). -/
def State.winParts (w : Win) (a : Nat) (d : Bytes) : List (Nat × Bytes) :=
  (splitSheets (d.length / 256 + 2) (s.winAddr w a) d).filter fun (o, d) =>
    !(d.length != 256 && s.t1Bad (o / 256))

theorem State.withNet_winParts (w : Win) (a : Nat) (d : Bytes) :
    (s.withNet n).winParts w a d = s.winParts w a d := by
  have ha : (s.withNet n).winAddr w a = s.winAddr w a := rfl
  have hb (x : Nat) : (s.withNet n).t1Bad x = s.t1Bad x := rfl
  simp only [State.winParts, ha, hb]

theorem State.openSheets_mem (a len : Nat) : (s.openSheets a len).mem = s.mem :=
  State.each_inv State.mem _ (fun s n => s.count 0x047 (t1Ctrl n) 1) (fun _ _ => rfl) s

theorem State.winWrite_mem (w : Win) (a : Nat) (d : Bytes) :
    (s.winWrite w a d).mem = (s.each (s.winParts w a d) fun s e => s.writeT1 e.1 e.2 []).mem := by
  rw [State.winWrite]
  dsimp only
  split
  · exact State.openSheets_mem ..
  · exact State.openSheets_mem ..

/-- A write into tier-1 reads nothing of the network. -/
theorem State.withNet_winWrite (w : Win) (a : Nat) (d : Bytes) :
    ((s.withNet n).winWrite w a d).mem = (s.winWrite w a d).mem := by
  rw [State.winWrite_mem, State.winWrite_mem, State.withNet_winParts,
    s.withNet_each n (fun t e => t.withNet_writeT1 n e.1 e.2), State.withNet_mem]

end

/-! ### Frames (R273, R275, R276, R280) -/

section
variable {s : State} {n : Nat} {i : FrameInfo}

/-- The codewords of a frame are counted. -/
def State.fecCounted (s : State) (n : Nat) (i : FrameInfo) : State :=
  (s.count 0x090 n i.fecCorrected).count 0x091 n i.fecUncorrected

/-- What a frame does once its codewords are counted: its first defect, or its packet. -/
def State.frameTaken (s : State) (n : Nat) (i : FrameInfo) : State :=
  let q := i.qpn - 0x100000
  let half := decide (2 ^ 24 < s.rxBytes n)
  if !i.fcsOk then s.count 0x092 n 1
  else if !s.roceFor n i then s.count 0x094 n 1
  else if 2 ^ 25 < s.rxBytes n + i.size then s.count 0x096 (n / 4) 1
  else if !i.icrcOk then s.count 0x093 n 1
  else if i.qpn < 0x100000 || 4096 ≤ q || (s.qp q).st = 0 then s.count 0x095 n 1
  else
    let s := s.rxPut n i.size
    let s := if i.ce || half then s.cnpSend n q else s
    if i.unsupported && s.qpUp q then s.nak q 2 0
    else if i.request then s.requestPsn q i.psn i.span
    else s

theorem exec_frameReceive (h : (s.port n).link = 2) :
    exec (.frameReceive n i) s = .next ((s.fecCounted n i).frameTaken n i) :=
  congrArg Host.Outcome.next (if_neg (by simp [h]))

theorem State.fecCounted_net : (s.fecCounted n i).net = s.net := rfl

theorem State.fecCounted_fec :
    (s.fecCounted n i).counter 0x090 n = s.counter 0x090 n + BitVec.ofNat 64 i.fecCorrected
      ∧ (s.fecCounted n i).counter 0x091 n = s.counter 0x091 n + BitVec.ofNat 64 i.fecUncorrected := by
  refine ⟨?_, ?_⟩
  · rw [State.fecCounted, State.count_counter_other _ n _ (by decide), State.count_counter]
  · rw [State.fecCounted, State.count_counter, State.count_counter_other _ n _ (by decide)]

/-- The other counters of the MAC stand. -/
theorem State.fecCounted_counter_other {id inst : Nat} (h : 0x091 < id) (hn : n < 16) :
    (s.fecCounted n i).counter id inst = s.counter id inst := by
  rw [State.fecCounted, State.count_counter_ne, State.count_counter_ne] <;> (simp only [ctrKey]; omega)

theorem State.fecCounted_rxBytes : (s.fecCounted n i).rxBytes n = s.rxBytes n := rfl
theorem State.fecCounted_roceFor : (s.fecCounted n i).roceFor n i = s.roceFor n i := rfl
theorem State.fecCounted_qp (q : Nat) : (s.fecCounted n i).qp q = s.qp q := rfl

/-- A frame with a defect changes its counter, and nothing of the network. -/
theorem exec_frameReceive_counts {id inst : Nat} (hn : n < 16) (hl : (s.port n).link = 2) (hid : 0x091 < id)
    (h : (s.fecCounted n i).frameTaken n i = (s.fecCounted n i).count id inst 1) :
    ∃ t, exec (.frameReceive n i) s = .next t ∧ t.counter id inst = s.counter id inst + 1
      ∧ t.counter 0x090 n = s.counter 0x090 n + BitVec.ofNat 64 i.fecCorrected
      ∧ t.counter 0x091 n = s.counter 0x091 n + BitVec.ofNat 64 i.fecUncorrected ∧ t.net = s.net := by
  obtain ⟨hc, hun⟩ := State.fecCounted_fec (s := s) (n := n) (i := i)
  refine ⟨_, (exec_frameReceive hl).trans (congrArg _ h), ?_, ?_, ?_, rfl⟩
  · rw [State.count_counter, State.fecCounted_counter_other hid hn]
    rfl
  · rw [State.count_counter_ne, hc]
    simp only [ctrKey]
    omega
  · rw [State.count_counter_ne, hun]
    simp only [ctrKey]
    omega

/-! A frame's first defect: each with those before it ruled out. -/

theorem State.frameTaken_fcs (h : i.fcsOk = false) : s.frameTaken n i = s.count 0x092 n 1 :=
  if_pos (by simp [h])

section
variable (hfcs : i.fcsOk = true)
include hfcs

theorem State.frameTaken_notFor (h : s.roceFor n i = false) : s.frameTaken n i = s.count 0x094 n 1 :=
  (if_neg (by simp [hfcs])).trans (if_pos (by simp [h]))

variable (hroce : s.roceFor n i = true)
include hroce

theorem State.frameTaken_full (h : 2 ^ 25 < s.rxBytes n + i.size) : s.frameTaken n i = s.count 0x096 (n / 4) 1 :=
  (if_neg (by simp [hfcs])).trans ((if_neg (by simp [hroce])).trans (if_pos h))

variable (hroom : s.rxBytes n + i.size ≤ 2 ^ 25)
include hroom

theorem State.frameTaken_icrc (h : i.icrcOk = false) : s.frameTaken n i = s.count 0x093 n 1 :=
  (if_neg (by simp [hfcs])).trans ((if_neg (by simp [hroce])).trans ((if_neg (Nat.not_lt.mpr hroom)).trans
    (if_pos (by simp [h]))))

variable (hicrc : i.icrcOk = true)
include hicrc

theorem State.frameTaken_noQp
    (h : i.qpn < 0x100000 ∨ 4096 ≤ i.qpn - 0x100000 ∨ (s.qp (i.qpn - 0x100000)).st = 0) :
    s.frameTaken n i = s.count 0x095 n 1 :=
  (if_neg (by simp [hfcs])).trans ((if_neg (by simp [hroce])).trans ((if_neg (Nat.not_lt.mpr hroom)).trans
    ((if_neg (by simp [hicrc])).trans (if_pos (by simpa [or_assoc] using h)))))

/-- A packet for a queue pair in RTS, without a congestion mark and into a buffer at most half full. -/
theorem State.frameTaken_packet (hlo : 0x100000 ≤ i.qpn) (hhi : i.qpn - 0x100000 < 4096)
    (hup : s.qpUp (i.qpn - 0x100000) = true) (hce : i.ce = false) (hhalf : s.rxBytes n ≤ 2 ^ 24)
    (hsup : i.unsupported = false) :
    s.frameTaken n i
      = if i.request then (s.rxPut n i.size).requestPsn (i.qpn - 0x100000) i.psn i.span else s.rxPut n i.size := by
  have hst : (s.qp (i.qpn - 0x100000)).st ≠ 0 := by
    have := beq_iff_eq.mp hup
    omega
  have hqp : ¬ (decide (i.qpn < 0x100000) || decide (4096 ≤ i.qpn - 0x100000)
      || decide ((s.qp (i.qpn - 0x100000)).st = 0)) = true := by
    simp only [Bool.or_eq_true, decide_eq_true_eq]
    omega
  have hmark : (i.ce || decide (2 ^ 24 < s.rxBytes n)) = false := by
    rw [hce, Bool.false_or, decide_eq_false_iff_not]
    omega
  refine (if_neg (by simp [hfcs])).trans ((if_neg (by simp [hroce])).trans ((if_neg (Nat.not_lt.mpr hroom)).trans
    ((if_neg (by simp [hicrc])).trans ((if_neg hqp).trans ?_))))
  simp only [hmark, hsup, Bool.false_and, Bool.false_eq_true, if_false]

end

theorem State.rxPut_rxBytes (s : State) (n m : Nat) : (s.rxPut n m).rxBytes n = s.rxBytes n + m :=
  FMap.get_set_self ..

/-- The PSN expected moves on. -/
theorem State.requestPsn_next {q : Nat} (span : Nat) (hup : s.qpUp q = true) :
    s.requestPsn q (s.qp q).rqPsn span = s.modQp q fun v => { v with rqPsn := psnAdd (s.qp q).rqPsn (Nat.max 1 span) } :=
  (if_neg (by simp [hup])).trans (if_pos rfl)

end

/-! ### Messages (R283, R286 to R288, R291) -/

section
variable {s : State} {q k a : Nat} {d : Bytes} {w : Win}

/-- A refused message leaves its queue pair in ERROR, and a negative acknowledgement. -/
theorem State.nak_out (s : State) (q kind ctr : Nat) (hk : kind ≠ 0) :
    ((s.nak q kind ctr).qp q).st = 2 ∧ ((s.nak q kind ctr).qp q).err = 4
      ∧ (s.nak q kind ctr).net.sent = s.net.sent ++ [s.packet q kind (psnDiff (s.qp q).rqPsn 1)] := by
  have hsend (u : State) (hu : u.net = s.net) :
      (u.netSend q kind).net.sent = s.net.sent ++ [s.packet q kind (psnDiff (s.qp q).rqPsn 1)] := by
    have hq (j : Nat) : u.qp j = s.qp j := by rw [State.qp, State.qp, hu]
    have hp (j : Nat) : u.port j = s.port j := by rw [State.port, State.port, hu]
    simp only [State.netSend, State.netPacket, State.packet, hk, if_false, hu, hq, hp]
  have hfail (u : State) (hu : u.net = s.net) :
      (((u.netSend q kind).qpFail q 4).qp q).st = 2 ∧ (((u.netSend q kind).qpFail q 4).qp q).err = 4
        ∧ ((u.netSend q kind).qpFail q 4).net.sent
          = s.net.sent ++ [s.packet q kind (psnDiff (s.qp q).rqPsn 1)] := by
    rw [State.qpFail_qp, State.qpFail_net]
    exact ⟨rfl, rfl, hsend u hu⟩
  rw [State.nak]
  refine hfail _ ?_
  split
  · split <;> rfl
  · rfl

/-- A window message that nothing holds up is carried out at once (R260, R288). -/
theorem State.openAcc_now {x : OpenAcc} (hb : s.accBlocked x = []) (hw : s.hp.waits = []) :
    s.openAcc x = (s.readTaken (s.accLines x)).doAcc x :=
  if_pos (by simp [hb, hw])

theorem State.readTaken_nil (s : State) : s.readTaken [] = s := if_pos rfl

theorem State.readTaken_frame (s : State) (ls : List Nat) :
    (s.readTaken ls).net = s.net ∧ (s.readTaken ls).mem = s.mem := by
  rw [State.readTaken]
  split <;> exact ⟨rfl, rfl⟩

theorem State.readTaken_winRead (s : State) (ls : List Nat) (w : Win) (a n : Nat) :
    (s.readTaken ls).winRead w a n = s.winRead w a n := by
  rw [State.readTaken]
  split <;> rfl

theorem State.winWrite_net (s : State) (w : Win) (a : Nat) (d : Bytes) : (s.winWrite w a d).net = s.net :=
  net_of (State.winWrite_same (.refl _ _) w a d rfl rfl rfl rfl rfl rfl rfl rfl rfl)

theorem State.netSend_withNet (s : State) (q kind : Nat) :
    s.netSend q kind = s.withNet (s.netSend q kind).net := rfl

theorem State.netSend_sent (s : State) {q kind : Nat} (hk : kind ≠ 0) :
    (s.netSend q kind).net.sent = s.net.sent ++ [s.packet q kind (psnDiff (s.qp q).rqPsn 1)] := by
  simp only [State.netSend, State.netPacket, hk, if_false]

theorem State.netSend_qp (s : State) (q kind j : Nat) : (s.netSend q kind).qp j = s.qp j := rfl

theorem exec_rdmaWriteReceive_lands (hup : s.qpUp q = true) (hok : s.winOk q k a d.length 1 = some w)
    (hdb : w.doorbell = false) (hw : s.hp.waits = []) (hl : s.accLines (.write q k a d) = [])
    (hfind : FMap.find s.net.wins (keyWin q k) = some w) :
    exec (.rdmaWriteReceive q k a d) s = .next ((s.netSend q 4).winWrite w a d) := by
  have hrun : (s.netSend q 4).openAcc (.write q k a d) = (s.netSend q 4).winWrite w a d := by
    have hl' : (s.netSend q 4).accLines (.write q k a d) = [] := hl
    have hf' : FMap.find (s.netSend q 4).net.wins (keyWin q k) = some w := hfind
    rw [State.openAcc_now (x := .write q k a d) hl' hw, hl', State.readTaken_nil, State.doAcc, State.doWinWrite, hf']
  change execRdmaWriteReceive _ _ _ _ _ = _
  simp only [execRdmaWriteReceive, hup, hok, hdb, hrun, Bool.not_true, Bool.false_eq_true, if_false]

theorem exec_rdmaWriteReceive_refused (hup : s.qpUp q = true) (hok : s.winOk q k a d.length 1 = none) :
    exec (.rdmaWriteReceive q k a d) s = .next (s.nak q 1 0x09B) := by
  change execRdmaWriteReceive _ _ _ _ _ = _
  simp only [execRdmaWriteReceive, hup, hok, Bool.not_true, Bool.false_eq_true, if_false]

/-- The response to a read, waiting for its port, once the sheets it takes have moved. -/
def State.readAnswered (s : State) (w : Win) (q k a n psn : Nat) (d : Bytes) : State :=
  ((s.openSheets (s.winAddr w a) n).rebuildIn (s.winAddr w a) n).respond q { win := keyWin q k, psn := psn, data := d }

theorem State.openSheets_net (s : State) (a n : Nat) : ((s.openSheets a n).rebuildIn a n).net = s.net :=
  net_of (State.rebuildIn_same (State.openSheets_same (.refl _ _) a n rfl) a n rfl)

theorem State.rebuilt_mem (s : State) (a n : Nat) : ((s.openSheets a n).rebuildIn a n).mem = s.mem :=
  mem_of (State.rebuildIn_same (State.openSheets_same (.refl _ _) a n rfl) a n rfl)

theorem State.readAnswered_resp (s : State) (w : Win) (q k a n psn : Nat) (d : Bytes) :
    ((s.readAnswered w q k a n psn d).qp q).resp
      = (s.qp q).resp ++ [{ win := keyWin q k, psn := psn, data := d }] := by
  rw [State.readAnswered, State.respond, State.modQp_qp, State.qp, State.openSheets_net, State.qp]

theorem exec_rdmaReadRequestReceive_answers {n : Nat} (hup : s.qpUp q = true) (hopen : s.readsOpen q < 16)
    (hok : s.winOk q k a n 0 = some w) (hw : s.hp.waits = [])
    (hb : s.accBlocked (.read q k a n (psnDiff (s.qp q).rqPsn (cdiv n (s.qp q).pmtu))) = [])
    (hfind : FMap.find s.net.wins (keyWin q k) = some w) (hread : s.winRead w a n = some d) :
    exec (.rdmaReadRequestReceive q k a n) s
      = .next ((s.readTaken (s.accLines (.read q k a n (psnDiff (s.qp q).rqPsn (cdiv n (s.qp q).pmtu))))).readAnswered
          w q k a n (psnDiff (s.qp q).rqPsn (cdiv n (s.qp q).pmtu)) d) := by
  generalize hpsn : psnDiff (s.qp q).rqPsn (cdiv n (s.qp q).pmtu) = psn at hb ⊢
  have hrun : s.openAcc (.read q k a n psn)
      = (s.readTaken (s.accLines (.read q k a n psn))).readAnswered w q k a n psn d := by
    rw [State.openAcc_now hb hw, State.doAcc, State.doWinRead, (State.readTaken_frame s _).1, hfind]
    dsimp only
    rw [State.readTaken_winRead, hread]
    rfl
  change execRdmaReadRequestReceive _ _ _ _ _ = _
  simp only [execRdmaReadRequestReceive, hup, hok, hpsn, hrun, readDepth, Nat.not_le.mpr hopen, Bool.not_true,
    Bool.false_eq_true, if_false]

theorem exec_rdmaReadRequestReceive_tooMany {n : Nat} (hup : s.qpUp q = true) (hopen : 16 ≤ s.readsOpen q) :
    exec (.rdmaReadRequestReceive q k a n) s = .next (s.nak q 2 0) :=
  congrArg Host.Outcome.next ((if_neg (by simp [hup])).trans (if_pos hopen))

theorem exec_sendReceive_partner (hup : s.qpUp q = true) (hp : (s.qp q).partner = true) :
    exec (.sendReceive q d) s = .next (s.netSend q 4) :=
  congrArg Host.Outcome.next ((if_neg (by simp [hup])).trans (if_pos hp))

theorem exec_sendReceive_host (hup : s.qpUp q = true) (hp : (s.qp q).partner = false) :
    exec (.sendReceive q d) s = .next (s.nak q 2 0) :=
  congrArg Host.Outcome.next ((if_neg (by simp [hup])).trans (if_neg (by simp [hp])))

end

/-- Settles O45: a frame by its first defect, a message by what its window and its queue pair say, a refusal by what a
failed queue pair leaves. -/
theorem receiving : Obligations.Receiving := by
  unfold Obligations.Receiving
  refine ⟨fun s n i hn hl hfcs hroce hroom hicrc hlo hhi hup hce hhalf hsup hreq hpsn => ?_,
    fun s n i hn hl hfcs hroce hroom hicrc hlo hhi hup hce hhalf hsup hreq => ?_,
    fun s n i hn hl hfcs => exec_frameReceive_counts hn hl (by decide) (State.frameTaken_fcs hfcs),
    fun s n i hn hl hfcs hroce => ?_, fun s n i hn hl hfcs hroce hfull => ?_, fun s n i hn hl hfcs hroce hroom hicrc => ?_,
    fun s n i hn hl hfcs hroce hroom hicrc hqp => ?_, fun s q k a d w hup hok hdb hw hlines hfind => ?_,
    fun s q k a d hup hok => ⟨_, exec_rdmaWriteReceive_refused hup hok, State.nak_out s q 1 0x09B (by decide)⟩,
    fun s q k a n d w hup hopen hok hw hb hfind hread => ?_,
    fun s q k a n hup hopen => ⟨_, exec_rdmaReadRequestReceive_tooMany hup hopen, State.nak_out s q 2 0 (by decide)⟩,
    fun s q d hup hp => ⟨_, exec_sendReceive_partner hup hp, s.netSend_qp q 4 q, s.netSend_sent (by decide)⟩,
    fun s q d hup hp => ⟨_, exec_sendReceive_host hup hp, (State.nak_out s q 2 0 (by decide)).1,
      (State.nak_out s q 2 0 (by decide)).2.2⟩⟩
  · have ht := (s.fecCounted n i).frameTaken_packet (i := i) (n := n) hfcs hroce hroom hicrc hlo hhi hup hce hhalf hsup
    obtain ⟨hc, hun⟩ := State.fecCounted_fec (s := s) (n := n) (i := i)
    rw [if_pos hreq, hpsn] at ht
    refine ⟨_, (exec_frameReceive hl).trans (congrArg _ (ht.trans
      (State.requestPsn_next (s := (s.fecCounted n i).rxPut n i.size) i.span hup))),
      State.rxPut_rxBytes (s.fecCounted n i) n i.size, ?_, hc, hun, rfl, rfl, rfl⟩
    rw [State.modQp_qp, hpsn]
    rfl
  · have ht := (s.fecCounted n i).frameTaken_packet (i := i) (n := n) hfcs hroce hroom hicrc hlo hhi hup hce hhalf hsup
    rw [if_neg (by simp [hreq])] at ht
    exact ⟨_, (exec_frameReceive hl).trans (congrArg _ ht), State.rxPut_rxBytes .., rfl, rfl, rfl⟩
  · obtain ⟨t, he, hc, -, -, hnet⟩ := exec_frameReceive_counts hn hl (by decide)
      (State.frameTaken_notFor (s := s.fecCounted n i) hfcs hroce)
    exact ⟨t, he, hc, hnet⟩
  · obtain ⟨t, he, hc, -, -, hnet⟩ := exec_frameReceive_counts hn hl (by decide)
      (State.frameTaken_full (s := s.fecCounted n i) hfcs hroce hfull)
    exact ⟨t, he, hc, hnet⟩
  · obtain ⟨t, he, hc, -, -, hnet⟩ := exec_frameReceive_counts hn hl (by decide)
      (State.frameTaken_icrc (s := s.fecCounted n i) hfcs hroce hroom hicrc)
    exact ⟨t, he, hc, hnet⟩
  · obtain ⟨t, he, hc, -, -, hnet⟩ := exec_frameReceive_counts hn hl (by decide)
      (State.frameTaken_noQp (s := s.fecCounted n i) hfcs hroce hroom hicrc hqp)
    exact ⟨t, he, hc, hnet⟩
  · refine ⟨_, exec_rdmaWriteReceive_lands hup hok hdb hw hlines hfind, ?_, ?_⟩
    · rw [s.netSend_withNet, State.withNet_winWrite]
    · rw [State.winWrite_net, s.netSend_sent (by decide)]
  · refine ⟨_, exec_rdmaReadRequestReceive_answers hup hopen hok hw hb hfind hread, ?_, ?_⟩
    · exact (State.rebuilt_mem ..).trans (State.readTaken_frame s _).2
    · rw [State.readAnswered_resp, State.qp, (State.readTaken_frame s _).1, State.qp]

end Sys2Proof.Machine


/-! ## Acknowledgement, retry and the send rate (chapter 13) -/

namespace Sys2Proof.Machine

/-! ### Acknowledgements (R275) -/

section
variable {s : State} {q n : Nat} {x : Xfer}

/-- An access that another command waits for has no effect of its own when it is accepted. -/
theorem State.acked_waited (s : State) (h : x.use.waited = true) : s.acked x = s := by
  rw [State.acked]
  cases hu : x.use with
  | event i => simp [hu, Use.waited] at h
  | attach k p => simp [hu, Use.waited] at h
  | _ => rfl

/-- The access with this number is accepted, and stays for the command that waits for it. -/
def State.markAccepted (s : State) (id : Nat) : State :=
  { s with io := { s.io with out := s.io.out.map fun y => if y.id = id then { y with accepted := true } else y } }

theorem State.accept1_waited (hfind : s.io.out.find? (fun y => y.id == x.id) = some x) (hw : x.use.waited = true) :
    s.accept1 x.id = s.markAccepted x.id := by
  rw [State.accept1, hfind]
  dsimp only
  rw [if_pos hw, State.acked_waited _ hw]
  rfl

theorem State.markAccepted_find {id : Nat} (hfind : s.io.out.find? (fun y => y.id == id) = some x) :
    ∃ y, (s.markAccepted id).io.out.find? (fun y => y.id == id) = some y ∧ y.accepted = true := by
  have hid : x.id = id := by simpa using List.find?_some hfind
  refine ⟨{ x with accepted := true }, ?_, rfl⟩
  have hcomp : ((fun y : Xfer => y.id == id) ∘ fun y => if y.id = id then { y with accepted := true } else y)
      = fun y => y.id == id := by
    funext y
    by_cases h : y.id = id <;> simp [h]
  change (s.io.out.map _).find? _ = _
  rw [List.find?_map, hcomp, hfind]
  simp [hid]

theorem State.ackTo_open (h : s.psnOpen q n = true) :
    s.ackTo q n = (s.modQp q fun v => { v with retries := 0, rnr := 0, una := some (psnAdd n 1) }).each
      ((s.unacked q).filter fun x => x.endsBy n (s.qp q).pmtu) fun s x => s.accept1 x.id :=
  if_neg (by simp [h])

theorem State.ackTo_one (h : s.psnOpen q n = true) (hx : s.unacked q = [x]) (he : x.endsBy n (s.qp q).pmtu = true)
    (hw : x.use.waited = true) (hfind : s.io.out.find? (fun y => y.id == x.id) = some x) :
    s.ackTo q n
      = (s.modQp q fun v => { v with retries := 0, rnr := 0, una := some (psnAdd n 1) }).markAccepted x.id := by
  have hone : ([x].filter fun x => x.endsBy n (s.qp q).pmtu) = [x] := by
    simp only [List.filter, he]
  rw [State.ackTo_open h, hx, hone]
  exact State.accept1_waited (s := s.modQp q _) hfind hw

end

/-! ### Going back (R275, R278) -/

section
variable {s : State} {q m : Nat}

/-- Packets that leave again when a queue pair goes back. -/
def State.resentFrom (s : State) (q m : Nat) : Nat :=
  ((s.unacked q).map fun x => x.resent m (s.qp q).pmtu).foldl (· + ·) 0

theorem State.goBack_qp (s : State) (q m : Nat) :
    (s.goBack q m).qp q = { s.qp q with retrans := (s.qp q).retrans + BitVec.ofNat 32 (s.resentFrom q m) } :=
  State.modQp_qp s q fun v => { v with retrans := v.retrans + BitVec.ofNat 32 (s.resentFrom q m) }

/-- Of a message past the PSN nothing stays handed over. -/
theorem State.goBack_handed (s : State) {x : Xfer} {p : Nat} (hx : x ∈ (s.goBack q m).io.out) (hq : x.qp = some q)
    (ha : x.accepted = false) (hp : x.psn = some p) (hpast : psnDiff p m < 2 ^ 23) : x.handed = 0 := by
  obtain ⟨y, -, rfl⟩ := List.mem_map.mp hx
  split at hq
  case isTrue h =>
    rw [if_pos h] at hp ⊢
    change y.keptAt m _ = 0
    rw [Xfer.keptAt, show y.psn = some p from hp]
    exact if_pos hpast
  case isFalse h =>
    rw [if_neg h] at ha
    exact absurd (by simp [hq, ha]) h

theorem State.retry_fails (h : (s.qp q).l 0x68 10 8 < (s.qp q).retries + 1) : s.retry q m = s.qpFail q 1 :=
  if_pos h

theorem State.retry_again (h : (s.qp q).retries + 1 ≤ (s.qp q).l 0x68 10 8) :
    s.retry q m = (s.setQp q { s.qp q with retries := (s.qp q).retries + 1 }).goBack q m :=
  if_neg (Nat.not_lt.mpr h)

theorem State.retry_qp (h : (s.qp q).retries + 1 ≤ (s.qp q).l 0x68 10 8) :
    (s.retry q m).qp q = { s.qp q with
      retries := (s.qp q).retries + 1, retrans := (s.qp q).retrans + BitVec.ofNat 32 (s.resentFrom q m) } := by
  have hsent : (s.setQp q { s.qp q with retries := (s.qp q).retries + 1 }).resentFrom q m = s.resentFrom q m := by
    rw [State.resentFrom, State.setQp_qp]
    rfl
  rw [State.retry_again h, State.goBack_qp, hsent, State.setQp_qp]

theorem exec_ackTimeout (hup : s.qpUp q = true) (hm : s.oldestPsn q = some m) :
    exec (.ackTimeout q) s = .next (s.retry q m) := by
  change execAckTimeout _ _ = _
  simp only [execAckTimeout, hm, hup, if_true]

theorem exec_rnrRetryTimer (hup : s.qpUp q = true) (hw : (s.qp q).rnrWait = true) :
    ∃ t, exec (.rnrRetryTimer q) s = .next t ∧ (t.qp q).rnrWait = false ∧ (t.qp q).st = 1 := by
  have hst : (s.qp q).st = 1 := beq_iff_eq.mp hup
  have hc : (s.qpUp q && (s.qp q).rnrWait) = true := Bool.and_eq_true_iff.mpr ⟨hup, hw⟩
  change ∃ t, execRnrRetryTimer q s = _ ∧ _
  simp only [execRnrRetryTimer, hc, if_true]
  cases s.oldestPsn q with
  | none =>
    refine ⟨_, rfl, ?_⟩
    rw [State.modQp_qp]
    exact ⟨rfl, hst⟩
  | some psn =>
    refine ⟨_, rfl, ?_⟩
    rw [State.goBack_qp, State.modQp_qp]
    exact ⟨rfl, hst⟩

/-! ### Negative acknowledgements -/

theorem exec_nakReceive_sequence (hup : s.qpUp q = true) (ho : s.psnOpen q m = true) :
    exec (.nakReceive q 0 m) s = .next ((s.ackTo q (psnDiff m 1)).retry q m) :=
  congrArg Host.Outcome.next ((if_neg (by simp [hup, ho])).trans (if_pos rfl))

theorem exec_nakReceive_notReady (hup : s.qpUp q = true) (ho : s.psnOpen q m = true)
    (h7 : ((s.ackTo q (psnDiff m 1)).qp q).l 0x68 14 12 = 7) :
    exec (.nakReceive q 1 m) s = .next ((s.ackTo q (psnDiff m 1)).setQp q { (s.ackTo q (psnDiff m 1)).qp q with
      rnr := ((s.ackTo q (psnDiff m 1)).qp q).rnr + 1, rnrWait := true }) :=
  congrArg Host.Outcome.next ((if_neg (by simp [hup, ho])).trans ((if_neg (by decide)).trans ((if_pos rfl).trans
    (if_neg (by simp [h7])))))

theorem exec_nakReceive_error (hup : s.qpUp q = true) :
    exec (.nakReceive q 2 m) s = .next ((s.ackTo q (psnDiff m 1)).qpFail q 3) :=
  congrArg Host.Outcome.next ((if_neg (by simp [hup])).trans ((if_neg (by decide)).trans (if_neg (by decide))))

theorem exec_nakReceive_stale {k : Nat} (hk : k ≤ 1) (ho : s.psnOpen q m = false) :
    exec (.nakReceive q k m) s = .next s :=
  congrArg Host.Outcome.next (if_pos (by simp [hk, ho]))

/-! ### Congestion (R280, R281) -/

theorem exec_cnpReceive_cuts (hst : (s.qp q).st = 1) (hcc : s.ccOn = true) (hcut : (s.qp q).lastCut = none) :
    ∃ t, exec (.cnpReceive q) s = .next t ∧ (t.qp q).cnpSeen = true
      ∧ (t.qp q).rate = (s.qp q).rate * (256 - s.regF 0x80040 7 0) / 256 := by
  have hcc' : (s.count 0x098 (s.qp q).port 1).ccOn = true := hcc
  refine ⟨State.setQp _ q _, congrArg Host.Outcome.next ((if_neg (by simp [hst])).trans (if_pos ?_)), ?_⟩
  · simp [hst, hcut, hcc']
  · rw [State.setQp_qp]
    exact ⟨rfl, rfl⟩

theorem exec_ccPeriod_quiet (hst : (s.qp q).st = 1) (hcc : s.ccOn = true) (hseen : (s.qp q).cnpSeen = false) :
    ∃ t, exec (.ccPeriod q) s = .next t ∧ (t.qp q).quiet = (s.qp q).quiet + 1
      ∧ (t.qp q).rate = s.clampRate (s.qp q).port ((s.qp q).rate + (s.qp q).step) := by
  refine ⟨State.setQp _ q _, congrArg Host.Outcome.next ((if_neg (by simp [hst])).trans ((if_neg (by simp [hcc])).trans
    (if_neg (by simp [hseen])))), ?_⟩
  rw [State.setQp_qp]
  exact ⟨rfl, rfl⟩

/-! ### A turn of a port (R279) -/

/-- The queue pair whose turn it is. -/
def State.turnTo (s : State) (n q : Nat) : State := s.setPort n { s.port n with rr := q }

theorem exec_packetSendTurn {n : Nat} {qs : List Nat} (hready : s.readyQps n = q :: qs)
    (hnext : (s.readyQps n).find? (fun p => decide ((s.port n).rr < p)) = none) :
    exec (.packetSendTurn n) s = .next ((s.turnTo n q).sendPacket q) := by
  rw [hready] at hnext
  change execPacketSendTurn _ _ = _
  simp only [execPacketSendTurn, hready, hnext, List.head?_cons]
  rfl

/-- Whose turn it is does not show in a packet. -/
theorem State.turnTo_packet (s : State) (n q j kind psn : Nat) :
    (s.turnTo n q).packet j kind psn = s.packet j kind psn := by
  by_cases h : (s.qp j).port = n
  · subst h
    simp only [State.packet, State.turnTo, State.setPort_qp, State.setPort_port]
    rfl
  · have hp : (s.turnTo n q).port (s.qp j).port = s.port (s.qp j).port := by
      simp only [State.turnTo, State.setPort, State.port, FMap.get_set_ne _ _ _ h]
    simp only [State.packet, State.turnTo, State.setPort_qp] at hp ⊢
    rw [hp]

/-- A first packet takes its message's PSNs. -/
def State.psnsTaken (s : State) (q : Nat) (x : Xfer) : State :=
  if x.psn.isSome then s
  else s.setQp q { s.qp q with sqPsn := psnAdd (x.psn.getD (s.qp q).sqPsn) (x.span (s.qp q).pmtu) }

theorem State.psnsTaken_packet (s : State) (q : Nat) (x : Xfer) (kind psn : Nat) :
    (s.psnsTaken q x).packet q kind psn = s.packet q kind psn := by
  rw [State.psnsTaken]
  split
  · rfl
  · simp only [State.packet, State.setQp_qp]
    rfl

theorem State.psnsTaken_frame (s : State) (q : Nat) (x : Xfer) :
    (s.psnsTaken q x).io = s.io ∧ (s.psnsTaken q x).net.sent = s.net.sent
      ∧ (s.psnsTaken q x).net.ports = s.net.ports := by
  rw [State.psnsTaken]
  split <;> exact ⟨rfl, rfl, rfl⟩

/-- What a message hands over with one packet. -/
def Xfer.packetBytes (x : Xfer) (mtu : Nat) : Nat := if x.kind = 1 then 1 else Nat.min mtu (x.bytes - x.handed)

/-- The message has handed over one more packet. -/
def Xfer.handOn (x : Xfer) (p mtu : Nat) (y : Xfer) : Xfer :=
  if y.id = x.id then { y with handed := y.handed + x.packetBytes mtu, psn := some p } else y

theorem State.sendMsg_eq (s : State) (q : Nat) (x : Xfer) :
    s.sendMsg q x
      = (({ s.psnsTaken q x with io := { (s.psnsTaken q x).io with
            out := (s.psnsTaken q x).io.out.map (x.handOn (x.psn.getD (s.qp q).sqPsn) (s.qp q).pmtu) } } : State).netPacket
          q 5 (psnAdd (x.psn.getD (s.qp q).sqPsn) (x.handed / (s.qp q).pmtu))).pace q (x.packetBytes (s.qp q).pmtu) := rfl

theorem State.sendMsg_out (s : State) (q : Nat) (x : Xfer) {p : Nat} (hp : p = x.psn.getD (s.qp q).sqPsn) :
    (s.sendMsg q x).net.sent = s.net.sent ++ [s.packet q 5 (psnAdd p (x.handed / (s.qp q).pmtu))]
      ∧ (s.sendMsg q x).net.ports = s.net.ports
      ∧ (s.sendMsg q x).io.out = s.io.out.map (x.handOn p (s.qp q).pmtu) := by
  obtain ⟨hio, hsent, hports⟩ := s.psnsTaken_frame q x
  subst hp
  rw [State.sendMsg_eq]
  refine ⟨?_, hports, ?_⟩
  · change (s.psnsTaken q x).net.sent ++ [(s.psnsTaken q x).packet q 5 _] = _
    rw [hsent, State.psnsTaken_packet]
  · change (s.psnsTaken q x).io.out.map _ = _
    rw [hio]

/-- The last packet of a response. -/
theorem State.sendResp_last (s : State) (q : Nat) {d : Resp} (ds : List Resp) (hn : d.nak = false)
    (hl : d.data.length ≤ (s.qp q).pmtu) :
    ((s.sendResp q d ds).qp q).resp = ds ∧ (s.sendResp q d ds).net.sent = s.net.sent ++ [s.packet q 6 d.psn]
      ∧ (s.sendResp q d ds).net.ports = s.net.ports := by
  have hd : (d.data.drop (s.qp q).pmtu).isEmpty = true := by
    rw [List.drop_eq_nil_of_le hl, List.isEmpty_nil]
  have e : s.sendResp q d ds
      = ((s.setQp q { s.qp q with resp := ds }).netPacket q 6 d.psn).pace q
          (Nat.min (s.qp q).pmtu d.data.length) := by
    simp only [State.sendResp, hn, hd, Bool.false_eq_true, if_false, if_true]
  rw [e, State.pace, State.modQp_qp]
  refine ⟨?_, ?_, rfl⟩
  · change ((s.setQp q { s.qp q with resp := ds }).qp q).resp = ds
    rw [State.setQp_qp]
  · change s.net.sent ++ [(s.setQp q { s.qp q with resp := ds }).packet q 6 d.psn] = _
    simp only [State.packet, State.setQp_qp]
    rfl

theorem State.turnTo_rr {t : State} {n : Nat} (h : t.net.ports = (s.turnTo n q).net.ports) : (t.port n).rr = q := by
  rw [State.port, h, ← State.port, State.turnTo, State.setPort_port]

theorem State.turnTo_nextMsg (s : State) (n q j : Nat) : (s.turnTo n q).nextMsg j = s.nextMsg j := rfl

/-! ### Read responses (R282, R290) -/

theorem exec_rdmaReadResponseReceive_fetch {x : Xfer} {n c : Nat} {d : Rd} (hup : s.qpUp q = true)
    (hfind : (s.unacked q).find? (fun x => x.id == m && x.kind == 1) = some x) (hu : x.use = .fetch n c) :
    ∃ t, exec (.rdmaReadResponseReceive q m d) s = .next t ∧ (t.qp q).retries = 0
      ∧ ∀ y ∈ t.io.out, y.id = m → y.accepted = true ∧ y.data = d.data ∧ y.poison = d.poison := by
  change ∃ t, execRdmaReadResponseReceive _ _ _ _ = _ ∧ _
  simp only [execRdmaReadResponseReceive, hfind, hup, hu, Bool.not_true, Bool.false_eq_true, if_false]
  refine ⟨_, rfl, ?_, fun y hy hid => ?_⟩
  · change ((s.modQp q fun v => { v with retries := 0 }).qp q).retries = 0
    rw [State.modQp_qp]
  · obtain ⟨z, -, rfl⟩ := List.mem_map.mp hy
    split at hid
    case isTrue h =>
      rw [if_pos h]
      exact ⟨rfl, rfl, rfl⟩
    case isFalse h => exact absurd hid h

end

/-- Settles O46: each answer by the acknowledgements it carries and what it does to the queue pair's retries, each turn
by the one packet it sends. -/
theorem transport : Obligations.Transport := by
  unfold Obligations.Transport
  refine ⟨fun s q n x hup ho hx he hw hfind => ?_, fun s w q m hup ho hw hr => ?_, fun s q m hup => ?_,
    fun s q k m hup hk ho => exec_nakReceive_stale hk ho, fun s w q m hup ho hw h7 => ?_, fun s q m hup hm hr => ?_,
    fun s q m hup hm hr => ?_, fun s q hup hw => exec_rnrRetryTimer hup hw,
    fun s q hst hcc hcut => exec_cnpReceive_cuts hst hcc hcut,
    fun s q hst hcc hseen => exec_ccPeriod_quiet hst hcc hseen,
    fun s n q p qs x hready hnext hresp hmsg hp => ?_, fun s n q qs d ds hready hnext hresp hn hl => ?_,
    fun s q m d x n c hup hfind hu => exec_rdmaReadResponseReceive_fetch hup hfind hu⟩
  · obtain ⟨y, hy, hya⟩ := (s.modQp q fun v => { v with retries := 0, rnr := 0, una := some (psnAdd n 1) }).markAccepted_find
      (id := x.id) hfind
    have hq := State.modQp_qp s q fun v => { v with retries := 0, rnr := 0, una := some (psnAdd n 1) }
    refine ⟨_, y, congrArg Host.Outcome.next ((if_pos hup).trans (State.ackTo_one ho hx he hw hfind)), ?_, ?_, ?_, hy, hya⟩
    · exact congrArg Qp.retries hq
    · exact congrArg Qp.rnr hq
    · exact congrArg Qp.una hq
  · subst hw
    refine ⟨_, exec_nakReceive_sequence hup ho, ?_, ?_, fun x hx p hq ha hpsn hpast => ?_⟩
    · rw [State.retry_qp hr]
    · rw [State.retry_qp hr]
    · rw [State.retry_again hr] at hx
      exact State.goBack_handed _ hx hq ha hpsn hpast
  · refine ⟨_, exec_nakReceive_error hup, ?_⟩
    rw [State.qpFail_qp]
    exact ⟨rfl, rfl⟩
  · subst hw
    refine ⟨_, exec_nakReceive_notReady hup ho h7, ?_⟩
    rw [State.setQp_qp]
    exact ⟨rfl, rfl⟩
  · refine ⟨_, (exec_ackTimeout hup hm).trans (congrArg _ (State.retry_fails hr)), ?_⟩
    rw [State.qpFail_qp]
    exact ⟨rfl, rfl⟩
  · refine ⟨_, exec_ackTimeout hup hm, ?_⟩
    rw [State.retry_qp hr]
    exact ⟨beq_iff_eq.mp hup, rfl, rfl⟩
  · have hsend : (s.turnTo n q).sendPacket q = (s.turnTo n q).sendMsg q x := by
      have hr : ((s.turnTo n q).qp q).resp = [] := hresp
      rw [State.sendPacket, hr]
      simp only [State.turnTo_nextMsg, hmsg]
    obtain ⟨hsent, hports, hout⟩ := (s.turnTo n q).sendMsg_out q x (p := p) hp
    rw [State.turnTo_packet] at hsent
    refine ⟨_, (exec_packetSendTurn hready hnext).trans (congrArg _ hsend), State.turnTo_rr hports, hsent, fun y hy hid => ?_⟩
    rw [hout]
    exact List.mem_map.mpr ⟨y, hy, if_pos hid⟩
  · have hsend : (s.turnTo n q).sendPacket q = (s.turnTo n q).sendResp q d ds := by
      have hr : ((s.turnTo n q).qp q).resp = d :: ds := hresp
      rw [State.sendPacket, hr]
    obtain ⟨hresp', hsent, hports⟩ := (s.turnTo n q).sendResp_last q ds hn hl
    rw [State.turnTo_packet] at hsent
    exact ⟨_, (exec_packetSendTurn hready hnext).trans (congrArg _ hsend), State.turnTo_rr hports, hresp', hsent⟩

end Sys2Proof.Machine
